-- ==== Sys2Proof/Word.lean ====
section
/-! DEFINITION. The word types of the FZ6408 and their plainest arithmetic: what the manual treats as bits (register
words, link words, blocks of user data) is a bit vector; counts are natural numbers that saturate at the register's width. -/

namespace Sys2Proof

/-- One register of the diagnostic space (R649), one link word (R72). -/
abbrev Word := BitVec 64
abbrev Byte := BitVec 8
/-- One block, frame, slot or element of 4 KiB (R284, R317): byte b is bits 8b+7:8b (R142). -/
abbrev Block := BitVec 32768
/-- One 512-byte part of a block, the payload of a frame (R339). -/
abbrev Part512 := BitVec 4096

/-- A saturating count of `w` bits, one more. -/
def satInc (w n : Nat) : Nat := min (n + 1) (2 ^ w - 1)
/-- A saturating count of `w` bits, `k` more. -/
def satAdd (w n k : Nat) : Nat := min (n + k) (2 ^ w - 1)
/-- The least of `lo..hi` nearest to `x`: a two-sided clamp. -/
def clampInt (lo hi x : Int) : Int := min (max x lo) hi
/-- Signed saturation to `w` bits. -/
def satInt (w : Nat) (x : Int) : Int := clampInt (-(2 ^ (w - 1))) (2 ^ (w - 1) - 1) x
/-- The two's complement field of `w` bits that holds `x`, as a natural number. -/
def twos (w : Nat) (x : Int) : Nat := (x % (2 ^ w : Int)).toNat
/-- The signed value of a field of `w` bits. -/
def signedOf (w n : Nat) : Int := if n < 2 ^ (w - 1) then n else (n : Int) - 2 ^ w
/-- `ceil (a / b)` on natural numbers. -/
def ceilDiv (a b : Nat) : Nat := (a + b - 1) / b
/-- Bits hi:lo of a natural number. -/
def bitsOf (hi lo n : Nat) : Nat := n / 2 ^ lo % 2 ^ (hi + 1 - lo)
/-- Bit `i` of a natural number. -/
def bitOf (i n : Nat) : Bool := n.testBit i
/-- 0 or 1. -/
def b2n (b : Bool) : Nat := if b then 1 else 0

end Sys2Proof
end

