-- ==== Sys2Proof/Syntax.lean ====
section
/-! DEFINITION. The commands of the block: one constructor of `Instr` per row of spec/opcode_table.json, in the table's order.
The operands are what the outside gives the part in that step: a sampled value, a decode outcome, a frame, a capsule. -/

namespace Sys2Proof

/-- A Lanlet port (R336). -/
inductive Port where | A | B
deriving DecidableEq, Repr

/-- Number of a port in registers and records: 0 A, 1 B. -/
def Port.num : Port → Nat | .A => 0 | .B => 1

/-- A link of the frame layer: a Lanlet port or the partner link (R447). -/
inductive LinkId where | port (p : Port) | partner
deriving DecidableEq, Repr

/-- Key of a link's record: 0 A, 1 B, 2 partner. -/
def LinkId.num : LinkId → Nat | .port p => p.num | .partner => 2

/-- A path to the diagnostic space (R650). -/
inductive Path where | port (p : Port) | jtag
deriving DecidableEq, Repr

/-- Command capsule, Table 12.1. `resHi` is bits 511:464 and `resLo` bits 15:11. -/
structure Capsule where
  opcode : BitVec 8 := 0
  nowait : Bool := false
  htagInc : Bool := false
  cmpHtag : Bool := false
  resLo : BitVec 5 := 0
  tag : BitVec 16 := 0
  lba : BitVec 48 := 0
  count : BitVec 32 := 0
  arg64 : Word := 0
  arg32 : BitVec 32 := 0
  argx : BitVec 256 := 0
  resHi : BitVec 48 := 0
deriving DecidableEq, Repr

/-- A frame as it comes off a lane (R339). `fecOk` is false when a codeword that carries it does not decode (R340 step 1); `ctl` holds the
control blocks, bits 256:1, that came on the lane since the frame before it (R337, R338). -/
structure LinkFrame where
  ctl : List (BitVec 256) := []
  fecOk : Bool := true
  header : Word := 0
  payload : Part512 := 0
  trailer : Word := 0
deriving DecidableEq, Repr

/-- A WDATA frame's fields (Tables 11.1, 11.2): tag, block index, part of the block and the 512 bytes. -/
structure WData where
  tag : BitVec 16
  blk : BitVec 16
  fib : BitVec 3
  data : Part512
deriving DecidableEq, Repr

/-- SESSION_OPEN fields (Table 11.4, RTYPE 0x01). -/
structure SessionOpen where
  compat : Bool
  resume : Bool
  sid : BitVec 32
  cplCredits : BitVec 16
  rdataCredits : BitVec 16
  /-- NEXT of the host's receiver, from which a resumed session sends again (R351). -/
  peerNext : BitVec 16
deriving DecidableEq, Repr

/-- Ledger entry, Table 9.4, as it travels in a MENT frame and stands in a ledger page. -/
structure LedgerEntry where
  lba : BitVec 48 := 0
  htag : Word := 0
  frame : BitVec 20 := 0
  vseq : BitVec 40 := 0
  tag : BitVec 16 := 0
  portB : Bool := false
  state : BitVec 3 := 0
  acked : Bool := false
  mirrored : Bool := false
  row : BitVec 34 := 0
  compat : Bool := false
  heldBack : Bool := false
  valid : Bool := false
deriving DecidableEq, Repr

/-- Defect table entry, Table 2.2. -/
structure DefectEntry where
  arm : BitVec 3 := 0
  head : BitVec 3 := 0
  row : BitVec 40 := 0
  track : BitVec 1 := 0
  slot : BitVec 4 := 0
  dstZone : BitVec 6 := 0
  dstGroup : BitVec 32 := 0
  dstSector : BitVec 5 := 0
  origin : BitVec 2 := 0
  valid : Bool := false
deriving DecidableEq, Repr

/-- Relocation map run entry, Table 2.3. -/
structure RunEntry where
  srcArm : BitVec 3 := 0
  srcHead : BitVec 3 := 0
  srcRow : BitVec 40 := 0
  count : BitVec 32 := 0
  dstArm : BitVec 3 := 0
  dstZone : BitVec 6 := 0
  dstGroup : BitVec 32 := 0
  moving : Bool := false
  valid : Bool := false
deriving DecidableEq, Repr

/-- Deferred record, Table 12.10. -/
structure DeferredRec where
  overflow : Bool := false
  time : Word := 0
  count : BitVec 32 := 0
  lba : BitVec 48 := 0
  arrival : BitVec 40 := 0
  tag : BitVec 16 := 0
  portB : Bool := false
  cause : BitVec 4 := 0
  index : BitVec 32 := 0
deriving DecidableEq, Repr

/-- A completion record, Table 12.2. -/
structure CplRec where
  tag : BitVec 16 := 0
  status : BitVec 8 := 0
  rej : Bool := false
  opcode : BitVec 8 := 0
  arrival : BitVec 40 := 0
  info : BitVec 48 := 0
deriving DecidableEq, Repr

/-- ARBITRATE record, Table 15.2 RTYPE 0x01. `state` is coded as Table 12.6. -/
structure ArbRec where
  role : Bool
  state : BitVec 8
  dump : Bool
  synced : Bool
  dumpId : Word
  imageVer : BitVec 32
  compat : BitVec 256
deriving DecidableEq, Repr

/-- What the start steps of Table 19.1 find outside the rules' own state when the reset is released: strap levels, PLL lock,
built-in self-test results, readability of flash, passes of millpond training. -/
structure StartObs where
  tmode : Bool := false
  role : Bool := false
  /-- Step 1: REFCLK confirmed and every PLL locked within 2 ms. -/
  pllOk : Bool := true
  /-- Step 2: islands that failed BIST (0–67). -/
  bistIslands : List (Fin 68) := []
  /-- Step 2: bolter engines that failed BIST (0–99). -/
  bistEngines : List (Fin 100) := []
  /-- Step 2: any other SRAM or the mask-ROM parity failed. -/
  bistOther : Bool := false
  romOk : Bool := true
  /-- Step 3: every directory was readable in its bank or in its mirror. -/
  dirOk : Bool := true
  /-- Step 3 (R497, R499): the digest and signature of bank A, of bank B verify under the key in mask ROM. -/
  ucodeA : Bool := true
  ucodeB : Bool := true
  ucodeVerA : BitVec 32 := 0
  ucodeVerB : BitVec 32 := 0
  /-- Step 4: blocks (bank, block) whose re-erase under R489 failed. -/
  reeraseFail : List (Nat × Nat) := []
  /-- Step 5: the tally started within its limit, and the sectors absent after a power cut (R533). -/
  tallyOk : Bool := true
  tallyAbsent : Nat := 0
  /-- Step 6 (R544): the NVM answers, has an SFDP table and reports at least 256 Mbit. -/
  nvmOk : Bool := true
  /-- Step 7: physical millpond channels that trained (R285). -/
  millpond : List (Fin 9) := [0, 1, 2, 3, 4, 5, 6, 7, 8]
  /-- Step 8: the step ended within its limit. -/
  dumpOk : Bool := true
deriving DecidableEq, Repr

/-- Conversion codes of a channel's three phases: none when the conversion is missing (R241). -/
structure PhaseCodes where
  a : Option Nat := none
  b : Option Nat := none
  c : Option Nat := none
deriving DecidableEq, Repr

/-- What one execution of a loop context meets (R229–R233): the time from trigger to output in ns, whether the context was still
running at the trigger, SEC-DED errors in the entries, record or state that it reads, and a parity error in mask ROM. -/
structure LoopObs where
  latency : Nat := 0
  running : Bool := false
  ce : Bool := false
  ue : Bool := false
  romBad : Bool := false
deriving DecidableEq, Repr

/-- The conversions of one PWM period (Table 8.2), in codes: the phase voltages at the period centre, and 10.4 µs later, which only a
period with the inverter off takes; and what the loops of the period meet: contexts 136, 137 and, in the generator phase, 139. -/
structure PwmSample where
  shunt : PhaseCodes := {}
  volt : PhaseCodes := {}
  volt2 : PhaseCodes := {}
  vbus : Option Nat := none
  ichop : Option Nat := none
  loopD : LoopObs := {}
  loopQ : LoopObs := {}
  loopBus : LoopObs := {}
deriving DecidableEq, Repr

/-- A VCM driver's DI frame (Table 6.7). -/
structure DiFrame where
  bits : Word
deriving DecidableEq, Repr

/-- Descriptor of the transfer engine, Table 10.3. -/
structure Descriptor where
  type : BitVec 4 := 0
  event : BitVec 2 := 0
  mirror : Bool := false
  ctxV : Bool := false
  ctx : BitVec 14 := 0
  count : BitVec 17 := 0
  srcBase : BitVec 36 := 0
  srcLen : BitVec 24 := 0
  dstBase : BitVec 36 := 0
  dstLen : BitVec 24 := 0
  idxAddr : BitVec 46 := 0
  reserved : BitVec 19 := 0
  arg : BitVec 32 := 0
deriving DecidableEq, Repr

/-- What a running descriptor meets (R321, R331). -/
inductive HaltCause where
  | descInvalid | bufferBad | countBig | tableRange | entryRange | fetchUe | indexUe | sourceUe | destRefused | injected
deriving DecidableEq, Repr

/-- A fault report, Table 17.1. -/
structure Report where
  master : BitVec 8
  access : BitVec 3 := 0
  addr : BitVec 48 := 0
  cause : BitVec 4
  mem : BitVec 7 := 0x7F
  syndrome : BitVec 8 := 0
  event : BitVec 8 := 0
  hold : Bool := false
  injected : Bool := false
deriving DecidableEq, Repr

/-- What an uncorrectable error of the millrace or millpond hits (Table 9.5). -/
inductive UeContent where
  | slot (k : Nat)
  | frame (f : Nat) (burst : Fin 64)
  | bothCopies (f : Nat) (burst : Fin 64)
deriving DecidableEq, Repr

/-- Requesters of the fetch cache are 0 to 5 (R500); requesters of a flash operation are a fetch requester, the tally, or the
flash controller itself. -/
inductive FlashReq where
  | mc (c : Fin 4) | tre (ch : Fin 64) | diag | tally | update | controller
deriving DecidableEq, Repr

/-- Kinds of a re-planned quantity, the rows of Table 14.3 in order. -/
inductive PlanKind where
  | channelSet | iterMax | rdOfs | opI | clr | hrCal | notch | lawGain | kff | vdd | lanePreset
deriving DecidableEq, Repr

/-- Where a quantity sits: arm, head, zone (a lane or channel in `zone`), R663. -/
structure Loc where
  arm : Nat := 255
  head : Nat := 255
  zone : Nat := 255
deriving DecidableEq, Repr

/-- Quantities whose margin R437 gives, in the order of Table 14.4; CM stands in its first two rows. -/
inductive MarginKind where
  | cm | wm | heater | loop | coreSlack | laneEye | millpondEye | ke | vcmKt | flashWear
deriving DecidableEq, Repr

/-- Work the sluice may grant an arm (R414), with what R416–R421 need of it. -/
inductive OpKind where
  | rowRead | rowWrite | rewrite | reread | partialRead | fantail | repair | followup | prefetch
deriving DecidableEq, Repr

/-- A page of the flash window: region kind and logical page (R482). -/
structure PageRef where
  kind : Fin 16
  page : Nat
deriving DecidableEq, Repr

/-- Entry of a LAYOUT record (Table 15.2, RTYPE 0x08; R450). -/
inductive LayoutRec where
  | defect (e : DefectEntry)
  | run (e : RunEntry)
  | failedHead (arm : Fin 8) (head : Fin 8)
  | cursor (arm : Fin 8) (head : Fin 8) (row : BitVec 40)
  | skipped (arm : Fin 8) (head : Fin 8) (row : BitVec 40) (listed : Bool)
deriving DecidableEq, Repr

/-- Content of a PLAN record (Table 15.2, RTYPE 0x09): a plan value, with the second value of a pair, or a trend point (Table 14.5), with
its location. -/
structure PlanRec where
  trend : Bool := false
  /-- A re-planned quantity, or 11 for one entry of a law, whose context stands in ZONE and whose base in `second` (log entry 36). -/
  kind : Nat := 0
  loc : Loc := {}
  value : Int := 0
  second : Int := 0
  /-- A value wider than a record goes as `parts` records of 256 bits, the lowest first. -/
  part : Nat := 0
  parts : Nat := 1
  samples : Nat := 0
  day : Nat := 0
deriving DecidableEq, Repr

/-- Commands of the block: one constructor per row of the table, in its order. -/
inductive Instr where
  -- reset, clocks and supplies (ch. 19–21)
  | powerOnReset (railsOk : Bool)
  | resetNAssert
  | resetRelease (o : StartObs)
  | arbitrationTimeout
  | refclkLoss
  | corePllUnlock
  | lanePllUnlock (pll : Fin 11)
  | supplyFault (rail : Fin 7) (powerFailFirst : Bool)
  | droopTrip (domain : Fin 100)
  | thermalSensorRead (t : Vector Int 16)
  | slackMonitorRead (ps : Vector Int 32)
  | avsStep (acked : Bool) (readback : Nat)
  | avsRepeatWrite (acked : Bool) (readback : Nat)
  | vin12Window (c0 c1 c2 c3 : Nat)
  | vin12SenseFault (timeout : Bool) (reading : Nat)
  | pwrFailNLow
  -- hold-up (ch. 15)
  | dumpStart
  | dumpChunkCommit (readsBack : Bool)
  | dumpBusLow
  -- spindle (ch. 8)
  | pwmPeriod (m : PwmSample)
  | observerLock
  | observerLockLoss
  | overcurrentRecatch
  | senseFault (offsets : Bool)
  | busOvRecover
  | busUndervoltage
  | chopperOn (vbus : Nat)
  | chopperOff (vbus : Nat)
  | chopperFault (which : Fin 3) (ichop : Nat)
  | generatorExhausted
  | voltageLimitFault
  | speedSample (loop : LoopObs)
  | speedSourceTimeout
  | dataWindowMean
  | dataWindowEntry
  | dataWindowTimeout
  | windowEntryTimeout
  | offsetMeasureDone
  | catchMeasureDone
  | slowWaitDone
  | slowWaitTimeout
  | alignDone
  | observerHandoff
  | handoffTimeout
  | catchAt1000
  | spinupComplete
  | suTimeout
  | brakeStart
  | shortBrakeSwitch
  | spindleStopped
  -- servo (ch. 6)
  | servoWedge (arm : Fin 8) (head : Fin 8)
  | armCoastTimeout (arm : Fin 8)
  | surfaceMismatch (arm : Fin 8) (head : Fin 8)
  | wedgeLossRun (arm : Fin 8) (head : Fin 8)
  | reacquireTimeout (arm : Fin 8) (head : Fin 8)
  | strokeLimitRun (arm : Fin 8) (head : Fin 8)
  | readerDisagreeRun (arm : Fin 8) (head : Fin 8)
  | settleTimeout (arm : Fin 8) (head : Fin 8)
  | clearanceEstimate (arm : Fin 8) (head : Fin 8)
  | armLoad (arm : Fin 8)
  | loadAcquireTimeout (arm : Fin 8)
  | retractedWaitTimeout (arm : Fin 8)
  | armUnload (arm : Fin 8)
  | unloadComplete (arm : Fin 8)
  | unloadTimeout (arm : Fin 8)
  | vcmDiFrame (arm : Fin 8) (f : DiFrame)
  | vcmReload (arm : Fin 8)
  | vcmReloadTimeout (arm : Fin 8)
  -- governor (ch. 7)
  | loopExecute (ctx : Fin 160) (input : Int) (o : LoopObs)
  | loopSwitchTimeout (ctx : Fin 160)
  | lawReplace (ctx : Fin 160) (base : Nat) (entries : List (BitVec 256)) (phaseMargin : Nat)
  | sineInjectStart (gen : Fin 4) (ctx : Fin 160) (amplitude : Nat) (frequency : Nat) (periods : Nat)
  | traceTrigger
  | traceCaptureDone (ch : Fin 8)
  -- channel (ch. 3, 4)
  | sampleWord (arm : Fin 8) (word : Word)
  | streamMark (arm : Fin 8) (word : Word)
  | preambleSearch (island : Fin 68) (slot : Nat)
  | secondCandidateRebuild (island : Fin 68)
  | rawCheck (island : Fin 68) (slot : Nat)
  | rawResultHandle (island : Fin 68)
  | islandFail (island : Fin 68) (why : Fin 3)
  | islandReassign (arm : Fin 8) (head : Fin 8) (island : Fin 68)
  | islandTablesLoaded (island : Fin 68)
  -- bolter (ch. 5)
  | codewordTake (engine : Fin 100)
  | decodeDone (engine : Fin 100)
  | engineTimeout (engine : Fin 100) (why : Fin 3)
  | queueSlotUe (slot : Fin 1024)
  | headSuspendTick
  | headResumeTick
  -- sluice and rows
  | operationGrant (arm : Fin 8)
  | islandGateOff (arm : Fin 8)
  | rowBuild
  | dirtyAgeExpiry (lba : BitVec 48)
  | pinWaitExpiry (row : Nat)
  | rowCommit (row : Nat)
  | commitRecordFlush
  | headFailDeclare (arm : Fin 8) (head : Fin 8)
  -- millpond (ch. 9)
  | millpondUe (requester : BitVec 8) (c : UeContent)
  | migrationStart (logical : Fin 8) (cause : Fin 4)
  | migrationComplete
  | scrubRead (channel : Fin 9) (syndromes : Vector (BitVec 8) 8)
  | sparePatternTest (pass : Bool)
  | dramRefresh (channel : Fin 9)
  | zqCalShort (channel : Fin 9)
  -- transfer engine (ch. 10)
  | descriptorPost (ch : Fin 64) (d : Descriptor)
  | descriptorStart (ch : Fin 64)
  | descriptorDone (ch : Fin 64)
  | channelHalt (ch : Fin 64) (cause : HaltCause) (address : BitVec 48) (element : Nat)
  | trePause (ch : Fin 64)
  | treResume (ch : Fin 64)
  | treFlush (ch : Fin 64)
  | treCancel (ch : Fin 64) (ctx : BitVec 14) (sourcePresent : Bool)
  | treRetry (ch : Fin 64)
  | treRestart (ch : Fin 64)
  | treSkip (ch : Fin 64)
  -- message queues, tally, faults (ch. 17)
  | mqPacketWrite (q : Fin 32) (words : List Word)
  | mqProducerTimeout (q : Fin 32) (producer : BitVec 8)
  | mqPop (q : Fin 32) (ue : Bool)
  | mqPopWatchdog (q : Fin 32)
  | tallyEventPost (code : BitVec 8) (injected : Bool) (source : BitVec 8) (payload : List Byte)
  | tallyFlushTimer
  | tallyBlockErase
  | faultReport (rs : List Report)
  | firstErrorCopy
  | quietTimerExpiry
  | faultHoldRelease
  | failStop (cause : BitVec 8)
  | coreTrap (core : Fin 4) (mem : BitVec 7) (inHandler : Bool) (injected : Bool)
  | sramPatrol (mem : BitVec 7) (offset : BitVec 48) (data : Word) (check : BitVec 8) (live : Bool) (otherBad : Bool)
  -- flash and fetch cache (ch. 16)
  | flashPageRead (who : FlashReq) (p : PageRef) (sector : Fin 16) (steps : List (Bool × Nat))
  | flashProgram (who : FlashReq) (p : PageRef) (first : Fin 16) (sectors : List (BitVec 8192))
  | flashProgramDone (bank : Fin 8) (ok : Bool)
  | flashErase (who : FlashReq) (kind : Fin 16) (bank : Fin 8) (block : Nat)
  | flashEraseDone (bank : Fin 8) (ok : Bool)
  | blockRefresh (bank : Fin 8) (block : Nat)
  | fetchLookup (q : Fin 6) (addr : BitVec 36) (access : BitVec 3) (ue : Bool) (steps : List (Bool × Nat))
  | fetchFill
  | fillComplete (steps : List (Bool × Nat))
  | prefetchIssue (q : Fin 6)
  | invalLine (core : Fin 4) (addr : BitVec 36)
  | invalRange (core : Fin 4) (base : BitVec 28) (lines : Nat)
  | invalAll (core : Fin 4)
  | lock (core : Fin 4) (addr : BitVec 36)
  | unlock (core : Fin 4) (addr : BitVec 36)
  | unlockAll (core : Fin 4)
  -- arm link (ch. 3)
  | alkTrainAttempt (arm : Fin 8) (upFail : List (Fin 19)) (downFail : List (Fin 3)) (reachesExchange : Bool)
  | alkTrainTimeout (arm : Fin 8)
  | alkTrainRetry (arm : Fin 8)
  | identity (arm : Fin 8) (word : Word)
  | alkLaneErrorWindow (arm : Fin 8) (up : Bool) (lane : Fin 19) (corrected : Nat) (uncorrectable : Nat)
  | alkLaneLockLoss (arm : Fin 8) (up : Bool) (lane : Fin 19)
  | alkUplinkUncorr (arm : Fin 8) (lane : Fin 19) (streams : List (Fin 16))
  | alkUplinkSilence (arm : Fin 8)
  | portStatusTimeout (arm : Fin 8)
  | ackTimeout (arm : Fin 8) (seq : BitVec 11)
  | ackTelemetry (arm : Fin 8) (word : Word)
  | tempTelemetry (arm : Fin 8) (word : Word)
  | sensorUnreported (sensor : Fin 17)
  | laserMon (arm : Fin 8) (word : Word)
  | heaterMon (arm : Fin 8) (word : Word)
  | readerMon (arm : Fin 8) (word : Word)
  | supplyTelemetry (arm : Fin 8) (word : Word)
  | wfifoTelemetry (arm : Fin 8) (word : Word)
  | faultTelemetry (arm : Fin 8) (word : Word)
  | portStatus (arm : Fin 8) (word : Word)
  | telemetryUndefined (arm : Fin 8) (word : Word)
  -- Lanlet and partner-link frame layer (ch. 11)
  | lnkTrainAttempt (l : LinkId) (rxFail : List (Fin 17)) (txFail : List (Fin 17)) (peerPresent : Bool)
  | lnkTrainTimeout (l : LinkId)
  | lnkTrainRetry (l : LinkId)
  | frameReceive (l : LinkId) (f : LinkFrame)
  | wdataReceive (p : Port) (w : WData)
  | gapTimerExpiry (l : LinkId)
  | replayTimerExpiry (l : LinkId) (seq : BitVec 16)
  | ackDelayExpiry (l : LinkId)
  | idleKeepalive (l : LinkId)
  | linkRxSilence (l : LinkId)
  | lnkLaneErrorWindow (l : LinkId) (lane : Fin 17) (corrected : Nat) (uncorrectable : Nat)
  | lnkLaneLockLoss (l : LinkId) (lane : Fin 17)
  | laneMapRepeat (l : LinkId)
  | sessionOpen (p : Port) (r : SessionOpen)
  | sessionClose (p : Port) (sid : BitVec 32) (reason : BitVec 8)
  | nak (l : LinkId) (seqs : List (BitVec 16))
  | keepalive (l : LinkId)
  | laneMap (l : LinkId) (lane : Fin 17) (reason : BitVec 8)
  | laneMapDone (l : LinkId) (lane : Fin 17)
  | linkHoldExpiry (p : Port)
  | cplFrameSend (p : Port)
  | rdataFrameSend (p : Port)
  -- commands (ch. 12)
  | writeGrant
  | wdataTimeout (p : Port) (tag : BitVec 16)
  | holdLimitExpiry (p : Port) (tag : BitVec 16)
  | read (p : Port) (c : Capsule)
  | write (p : Port) (c : Capsule)
  | verify (p : Port) (c : Capsule)
  | flush (p : Port) (c : Capsule)
  | abort (p : Port) (c : Capsule)
  | identify (p : Port) (c : Capsule)
  | getState (p : Port) (c : Capsule)
  | setBudget (p : Port) (c : Capsule)
  | logRead (p : Port) (c : Capsule)
  | logClear (p : Port) (c : Capsule)
  | deferredRead (p : Port) (c : Capsule)
  | timeSet (p : Port) (c : Capsule)
  | spinPolicy (p : Port) (c : Capsule)
  | spinUp (p : Port) (c : Capsule)
  | spinDown (p : Port) (c : Capsule)
  | selfCheck (p : Port) (c : Capsule) (failed : BitVec 5)
  | diagRead (p : Port) (c : Capsule) (ueRegs : List Nat)
  | diagWrite (p : Port) (c : Capsule)
  | inject (p : Port) (c : Capsule)
  | traceControl (p : Port) (c : Capsule)
  | ucodeBankWrite (p : Port) (c : Capsule)
  | ucodeBankCommit (p : Port) (c : Capsule) (bankOk : Bool) (version : BitVec 32)
  | imageCopyWrite (p : Port) (c : Capsule)
  | imageCopyCommit (p : Port) (c : Capsule)
  | unlockChallenge (p : Port) (c : Capsule)
  | unlockResponse (p : Port) (c : Capsule)
  | unlockLock (p : Port) (c : Capsule)
  | unlockExpiry (path : Path)
  | unlockRefusalEnd (path : Path)
  | handover (p : Port) (c : Capsule)
  -- budget input (ch. 13)
  | budgetPwmPeriod (period : Nat) (high : Nat)
  | budgetPwmSilence
  | bpwmHoldExpiry
  | pwmRiseSettle
  -- fantail (ch. 14)
  | hourlyEvaluation (loops : List (Fin 136 × Int)) (eyes : Vector (BitVec 8) 9)
  | replan (k : PlanKind) (loc : Loc) (value : Int) (second : Int) (phaseMargin : Nat)
  | horizonCompute (day : Nat)
  | windingREstimate
  | slackPeriodEval
  | laneEyeEval (l : LinkId ⊕ Fin 8) (lane : Nat) (eyeH : Nat) (eyeV : Nat)
  -- partner (ch. 15)
  | heartbeatTick (served : Bool)
  | partnerWindow (toggles : List Nat) (frames : Bool) (activeIn : Bool)
  | partnerHungRecheck (toggles : List Nat) (frames : Bool) (activeIn : Bool)
  | activeInFall
  | takeoverResume
  | arbitrate (r : ArbRec)
  | heartbeat (standby : Bool) (state : BitVec 8) (time : Word) (dirty : BitVec 32)
  | mdata (frame : BitVec 32) (fib : BitVec 3) (data : Part512)
  | ment (es : List LedgerEntry)
  | confirm (frames : List (BitVec 32))
  | cmdCtx (p : Port) (tag : BitVec 16) (arrival : BitVec 40) (opcode : BitVec 8) (lba : BitVec 48) (count : BitVec 32)
  | ptnCpl (p : Port) (r : CplRec)
  | cplAcked (p : Port) (tag : BitVec 16) (arrival : BitVec 40)
  | ptnRowCommit (row : BitVec 64) (time : Word)
  | ptnLayout (r : LayoutRec)
  | ptnPlan (r : PlanRec)
  | ptnDeferred (r : DeferredRec)
  | ptnFailstop (cause : BitVec 8)
  | handoverRequest (reason : BitVec 8)
  | handoverReleased (reason : BitVec 8)
  | handoverActive (reason : BitVec 8)
  | resyncStart (frames : BitVec 32)
  | resyncDone (frames : BitVec 32)
  | fetchRequest (frame : BitVec 32) (vseq : BitVec 40)
  | fetchReply (frame : BitVec 32) (vseq : BitVec 40) (data : Block)
  -- start-up and shutdown (ch. 19)
  | replayReadDone (area : Fin 2) (unreadable : List Nat)
  | dumpRetire (area : Fin 2)
  | loadingComplete
  -- diagnostic space (ch. 22)
  | fltClearCounts (path : Path)
  | fltClearFirst (path : Path)
  | traceCfgWrite (path : Path) (ch : Fin 8) (value : Word)
  | traceArm (path : Path) (value : Word)
  | traceFire (path : Path) (value : Word)
  | injFltReportGo (path : Path) (value : Word)
  | injEccGo (path : Path) (value : Word)
  | injTreHaltGo (path : Path) (value : Word)
  | injLnkCfgWrite (path : Path) (port : Port) (value : Word)
  | registerWrite (path : Path) (address : Word) (value : Word)
  | diagAccRead (address : Word) (ue : Bool)
  | diagAccWrite (address : Word) (value : Word)
  | jtagUnlockChallenge
  | jtagUnlockResponse (response : BitVec 256)
  | jtagUnlockLock
  | tapReset
  | fuseProg (go : Bool) (group : BitVec 2) (value : BitVec 256) (vioOk : Bool)
  | extest (drive : List Bool)
  | samplePreload (sample : List Bool) (preload : List Bool)
  | idcode
  | extestPulse (drive : List Bool)
  | extestTrain (drive : List Bool)
  | bypass (code : BitVec 8)
  -- remaining rows of the table
  | stoppedArbitrateTick
  | nvmProgramDone
  | nvmBusyTimeout
  | spareChannelTrainingLoss
  | pwrFailNHigh
deriving DecidableEq, Repr

end Sys2Proof
end

