-- ==== Sys2Proof/Config.lean ====
section
/-! DEFINITION. What one part fixes and the manual does not state: free values and mask-ROM contents, as constants without a body, so
that nothing proved here can rest on one of their values. -/

namespace Sys2Proof.Config

/-- Free values: `freeValue n` is the `n`-th value that the manual leaves open (log entry 3). `State.free` counts them. -/
opaque freeValue : Nat → BitVec 256

/-- What a flash sector reads as whose program or erase was cut (R485, R489), by its window sector number and the count of free values
(log entry 52). -/
opaque tornSector : Nat → Nat → BitVec 8192

/-- The words of the injector's 32-bit LFSR of R359 by number since it was seeded; the manual gives no polynomial and no seed. -/
opaque injectorLfsr : Nat → BitVec 32

/-- A start law in mask ROM (R219, R220): sections as (b0, b1, b2, A1H, a2) in 2^-15, INTEG marks, shifts, output limits and ramp.
The manual gives their properties (Table 7.4) and not their numbers. -/
structure StartLaw where
  sections : List (Int × Int × Int × Int × Int) := []
  integ : List Bool := []
  inSh : Nat := 0
  outSh : Nat := 0
  outMin : Int := 0
  outMax : Int := 0
  ramp : Nat := 0
deriving DecidableEq, Repr, Inhabited

/-- Section `k` of the start law of a START_ID as (b0, b1, b2, A1H, a2), and whether it is marked an integrator. -/
opaque startCoef : Nat → Nat → Int × Int × Int × Int × Int
opaque startInteg : Nat → Nat → Bool
/-- START_IN_SH, START_OUT_SH, the lower and upper limit and the ramp of a start law. -/
opaque startScale : Nat → Nat × Nat × Int × Int × Nat
/-- Sections of each start law (Table 7.4). -/
def startSections (id : Nat) : Nat := [4, 3, 1, 2, 2, 2, 2, 2, 2].getD id 0
/-- Start law by START_ID: as many sections as Table 7.4 gives, that of law 2 an integrator (R220). -/
def startLaw (id : Nat) : StartLaw :=
  let c := startScale id
  { sections := (List.range (startSections id)).map (startCoef id),
    integ := (List.range (startSections id)).map fun k => decide (id = 2) || startInteg id k,
    inSh := c.1, outSh := c.2.1, outMin := c.2.2.1, outMax := c.2.2.2.1, ramp := c.2.2.2.2 }
/-- Inputs of a test context's fixed vector (Table 7.4, law 8). -/
opaque testVector : Nat → List Int

/-- Square root, cosine and sine on exact numbers (R244, R245, R248): the manual names the functions and no precision. -/
opaque sqrtRat : Rat → Rat
opaque cosRat : Rat → Rat
opaque sinRat : Rat → Rat
/-- Angle of a vector (x, y) in rad, between −π and π (R257). -/
opaque angleRat : Rat → Rat → Rat
/-- Logarithm to base 10 on exact numbers (R437). -/
opaque log10Rat : Rat → Rat
/-- π, in the same sense, and the fixed angle of alignment (R260). -/
opaque piRat : Rat
opaque alignAngle : Rat

/-- Observer gains G1, G2, KP_OBS, KI_OBS that the part fixes from R_PH and L_PH (R248). -/
opaque obsG1 : Nat → Nat → Rat
opaque obsG2 : Nat → Nat → Rat
opaque obsKp : Nat → Nat → Rat
opaque obsKi : Nat → Nat → Rat

/-- Version of the boot ROM (Table 22.6 ROM_VER, "Mask"). -/
opaque romVersion : BitVec 32

/-- Sine sample of R235 at a frequency and sample number, in 2^-15, and its cosine. -/
opaque sineSample : Nat → Nat → Int
opaque cosineSample : Nat → Nat → Int

/-- Master IDs of the units for which the manual names none, by the model's own number (`Machine.Unit`): SOURCE of their events
(log entry 11). -/
opaque unitMaster : Nat → BitVec 8

/-- Reduction polynomial of GF(2^10) in the code of R72, and the exponent of the first root of its generator: the manual gives neither. -/
opaque rsField : Nat
opaque rsRoot : Nat
/-- State from which the scrambler of R72 restarts at every block. -/
opaque scramblerStart : BitVec 58
/-- The same three of the lanes of R337. -/
opaque laneField : Nat
opaque laneRoot : Nat
opaque laneScramblerStart : BitVec 58

/-- Tap k of interpolation filter φ in ROM (R108), in 2^-11 (1/256 of the 1/8 LSB of the output): the manual gives their number, not their
values. -/
opaque interpTap : Nat → Nat → Int
/-- Natural logarithm on exact numbers (R197): the manual names the function and no precision. -/
opaque lnRat : Rat → Rat

/-- Device code that an FZA816 gives in IDENTITY (R94): the manual names the check and not the code. -/
opaque fza816Code : BitVec 16

/-- Content of a sector whose INTERLEAVE entry names no frame, by the free-value counter and the row offset (R321, R322). -/
opaque openBlock : Nat → Nat → BitVec 32768

end Sys2Proof.Config
end

