-- ==== Sys2Proof/Machine/Table.lean ====
section
/-! DEFINITION. Register files, memories and other data held by number: a list of (key, value) pairs in one canonical form
(keys strictly rising, no entry equal to what an unlisted key reads as), read and written here only. -/

namespace Sys2Proof.Machine

/-- A file of values by number. What an unlisted number reads as is given at each use. -/
abbrev Tab (α : Type) := List (Nat × α)

/-- The value at `k`; `d` is what an unlisted number reads as. -/
def tabGet {α : Type} (d : α) : Tab α → Nat → α
  | [], _ => d
  | (j, v) :: t, k => if j = k then v else tabGet d t k

/-- Put `v` at `k` in a table, keys rising, without looking at the default. -/
def tabPut {α : Type} (k : Nat) (v : α) : Tab α → Tab α
  | [] => [(k, v)]
  | (j, w) :: t => if k < j then (k, v) :: (j, w) :: t else if k = j then (k, v) :: t else (j, w) :: tabPut k v t

/-- Remove what is listed at `k`. -/
def tabDel {α : Type} (k : Nat) : Tab α → Tab α
  | [] => []
  | (j, w) :: t => if j = k then tabDel k t else (j, w) :: tabDel k t

/-- Write `v` at `k`. Writing what an unlisted number reads as removes the entry, so equal contents are equal lists. -/
def tabSet {α : Type} [DecidableEq α] (d : α) (t : Tab α) (k : Nat) (v : α) : Tab α :=
  if v = d then tabDel k t else tabPut k v t

/-- Change the value at `k`. -/
def tabMod {α : Type} [DecidableEq α] (d : α) (t : Tab α) (k : Nat) (f : α → α) : Tab α :=
  tabSet d t k (f (tabGet d t k))

/-- Every listed key is above `b`, keys rise, and no entry is the default. -/
def tabWfFrom {α : Type} [DecidableEq α] (d : α) : Nat → Tab α → Bool
  | _, [] => true
  | b, (j, v) :: t => decide (b ≤ j) && decide (v ≠ d) && tabWfFrom d (j + 1) t

/-- The canonical form. -/
def tabWf {α : Type} [DecidableEq α] (d : α) (t : Tab α) : Bool := tabWfFrom d 0 t

/-- All the values at `0 … n-1`. -/
def tabAll {α : Type} (d : α) (t : Tab α) (n : Nat) : List α := (List.range n).map (tabGet d t)

end Sys2Proof.Machine
end

