-- ==== Sys2Proof/Machine/PartsArm.lean ====
section
/-! DEFINITION. Component records of the state, part 2: layout, arm links, detector islands, decoder pool and servo (chapters 2 to 6).
Each field's comment gives its width, the rule or table that names it and its reset value. -/

namespace Sys2Proof.Machine

/-- Rebuild of one failed head (Table 2.6, R62). -/
structure Rebuild where
  state : Nat := 0                    -- 2 | Table 2.6 STATE | reset 0
  arm : Nat := 0                      -- 3 | Table 2.6 ARM | reset 0
  head : Nat := 0                     -- 3 | Table 2.6 HEAD | reset 0
  cursor : Nat := 0                   -- 40 | Table 2.6 CURSOR | reset 0
  skip : List Nat := []               -- rows | R62 skip list | reset empty
  savedCursor : Nat := 0              -- 40 | R62 cursor last recorded, held in flash | DESIGN CHOICE 0 (log entry 5)
  savedSkip : List Nat := []          -- rows | R62 skip list last recorded, held in flash | DESIGN CHOICE empty (log entry 5)
deriving DecidableEq, Repr

/-- A group that is being moved under R58: the run entry that holds it, its row in that run, and the entry of its new place. -/
structure RunMove where
  old : RunEntry := {}
  index : Nat := 0
  new : RunEntry := {}
deriving DecidableEq, Repr

/-- The layout unit: defect table, relocation map, failed heads, unrecoverable blocks, rebuilds (chapter 2, R164). The lists are held
in safe-mode flash and survive a reset. -/
structure Layout where
  rebuilds : Vector Rebuild 2 := Vector.replicate 2 {} -- two records | R70 | reset none
  defects : List DefectEntry := []    -- 128-bit entries | R54, Table 2.2, held in flash | DESIGN CHOICE empty (log entry 5)
  runs : List RunEntry := []          -- 256-bit entries | R56, Table 2.3, held in flash | DESIGN CHOICE empty (log entry 5)
  slips : List (Nat × Nat × Nat × Nat) := [] -- (arm, head, zone, pair) | R52, R53, held in flash | DESIGN CHOICE empty (log entry 5)
  failedHeads : List (Nat × Nat) := [] -- (arm, head) | R472, held in flash | DESIGN CHOICE empty (log entry 5)
  unrecoverable : List Nat := []      -- up to 65,536 LBAs | R164, held in flash | DESIGN CHOICE empty (log entry 5)
  move : Option RunMove := none       -- record | R58, Table 2.6 STATE 3 | reset none
  limitReached : List (Nat × Nat × Nat) := [] -- (arm, head, zone) | R55: event 0x66 recorded, kept with the defect table | DESIGN CHOICE none (log entry 5)
  fmtId : BitVec 16 := 0              -- 16 | R143, Table 5.2 FMT_ID, held with the defect table | DESIGN CHOICE 0 (log entry 4)
deriving DecidableEq, Repr

/-- Error counts of one lane (Table 3.12, Table 11.x). -/
structure LaneErr where
  uncorr : Nat := 0                   -- 16 | Table 3.12 UNCORR | reset 0
  corrSym : Nat := 0                  -- 32 | Table 3.12 CORR_SYM | reset 0
  eyeH : Nat := 0                     -- 8 | Table 3.12 EYE_H | reset 0
  eyeV : Nat := 0                     -- 8 | Table 3.12 EYE_V | reset 0
deriving DecidableEq, Repr

/-- A downlink control message (Table 3.5): header word and payload words. -/
structure AlkMsg where
  type : Nat := 0
  head : Nat := 0
  ackReq : Bool := false
  seq : Nat := 0
  imm : Bool := false
  apply : Nat := 0
  payload : List Word := []
deriving DecidableEq, Repr

/-- One uplink sample stream (R75, R77). -/
structure Stream where
  running : Bool := false             -- 1 | R77: a word or a mark has come | reset 0
  next : Nat := 0                     -- number of the next word; the 12-bit stream word count is its residue modulo 4,096 | R77 | reset 0
  words : List (Nat × Word) := []     -- the last words by number, newest first | R75 | reset none
  marks : List (Nat × Int) := []      -- (word named, which may be a later one, time of its first sample in 1/16 tick), newest first | R77, R108 | reset none
  broken : Bool := false              -- 1 | Table 3.10: words have been lost since the last mark | reset 0
deriving DecidableEq, Repr

/-- One head's downlink write stream (R79–R81): words not yet in a round, and the account of the FZA816's write FIFO that keeps it from
overflowing. -/
structure OutStream where
  words : List Word := []             -- data and gap words that wait for a round | R79, R81 | reset none
  ends : List Nat := []               -- cell, from the stream's start, at which each word sent is used up | R81 | reset none
  cells : Nat := 0                    -- cells of the words sent | R79 | reset 0
  start : Nat := 0                    -- link ticks: time of START_CELL | R80 | reset 0
  period : Nat := 0                   -- 36 | R80 PERIOD of the head's WCLK_SET, 2^-32 tick | reset 0
  first : Nat := 0                    -- cell of the revolution, from the index wedge's cell 0, of the stream's first cell | R104, R126 | reset 0
  total : Nat := 0                    -- cells from the first to the end word | R126 | reset 0
deriving DecidableEq, Repr

/-- What the last monitor telemetry of one head said (Table 3.3). -/
structure HeadMon where
  laserI : Nat := 0                   -- 16 | Table 3.3 LASER_MON | reset 0
  photo : Nat := 0                    -- 16 | Table 3.3 LASER_MON | reset 0
  heaterR : Nat := 0                  -- 16 | Table 3.3 HEATER_MON | reset 0
  contact : Nat := 0                  -- 16 | Table 3.3 HEATER_MON | reset 0
  readerA : Nat := 0                  -- 16 | Table 3.3 READER_MON | reset 0
  readerB : Nat := 0                  -- 16 | Table 3.3 READER_MON | reset 0
  wfifo : Nat := 0                    -- 11 | Table 3.3 WFIFO | reset 0
  flags : BitVec 14 := 0              -- 14 | Table 3.7 | reset 0
  flagsAt : Nat := 0                  -- 64 | Table 3.3 FAULT: uptime at the last FAULT word | reset 0
deriving DecidableEq, Repr

/-- One arm link (Tables 3.11, 3.12). -/
structure ArmLink where
  link : Nat := 0                     -- 4 | Table 3.11 LINK | reset 0
  owner : Nat := 0                    -- 2 | Table 3.11 OWNER | reset 0
  upOut : Nat := 31                   -- 5 | Table 3.11 UP_OUT | reset 31
  dnOut : Nat := 3                    -- 2 | Table 3.11 DN_OUT | reset 3
  fzaPort : Bool := false             -- 1 | Table 3.11 FZA_PORT | reset 0
  mapAt : Option (Nat × Nat × Nat) := none -- (link tick, UP_OUT, DN_OUT) + valid | R95: the lane map sent, and the tick from which a round follows it | reset none
  upSpareOk : Bool := false           -- 1 | Table 3.11 UP_SPARE_OK | reset 0
  dnSpareOk : Bool := false           -- 1 | Table 3.11 DN_SPARE_OK | reset 0
  msgErr : Nat := 0                   -- 16 | Table 3.11 MSG_ERR | reset 0
  trainCount : Nat := 0               -- 32 | Table 3.11 TRAIN_COUNT | reset 0
  lanes : Tab LaneErr := []           -- 19 uplink (0-18) and 3 downlink (32-34) lanes | R99 | reset 0
  attempts : Nat := 0                 -- 2 | R93: failed attempts of the running training | reset 0
  attempting : Bool := false          -- 1 | R93: an attempt runs | reset 0
  idle : Bool := false                -- 1 | R93: the 1 ms of downlink idle after a failed attempt | reset 0
  waitIdentity : Bool := false        -- 1 | Table 3.9: in EXCHANGE | reset 0
  settling : Bool := false            -- 1 | Table 3.9: IDENTITY checked, TIME_SET, TELEM_SET and LANE_MAP not all acknowledged | reset 0
  presets : List Nat := []            -- transmitter presets of the three downlink lanes | R93, R572 | reset none
  retrain : Bool := false             -- 1 | Table 3.10: retraining after a link loss | reset 0
  seq : Nat := 0                      -- 11 | Table 3.5 SEQ of the next message | reset 0
  unacked : List (AlkMsg × Bool) := [] -- messages that wait for ACK; true once sent again | R87 | reset none
  muted : Bool := false               -- 1 | R92, Table 3.10: nothing but NOP is sent any more | reset 0
  msgs : List AlkMsg := []            -- control messages that wait for a round, immediate ones first | R82, R84 | reset none
  msgRest : List Word := []           -- words left of a message that spans rounds | R73 | reset none
  msgSeq : Nat := 0                   -- 11 | R73: SEQ of that message | reset 0
  sentIn : List (Nat × Nat) := []     -- (SEQ, round modulo 512) of the messages sent in the last 512 rounds | Table 3.10 | reset none
  outs : Tab OutStream := []          -- write streams of 8 heads | R79, R81 | reset none
  uncorrTimes : List (Nat × Nat) := [] -- (lane, time) of the last 1 ms | R95 | reset none
  streams : Tab Stream := []          -- 16 streams | R75 | reset idle
  mons : Tab HeadMon := []            -- 8 heads | Table 3.3 | reset 0
  dieTemp : Option Int := none        -- 16 signed + valid | Table 3.3 TEMP | reset unreported
  stackTemp : Option Int := none      -- 16 signed + valid | Table 3.3 TEMP | reset unreported
  supply : List Nat := []             -- three 16-bit rails | Table 3.3 SUPPLY | reset unreported
  ident : Option Word := none         -- 64 + valid | Table 3.3 IDENTITY | reset none
  port : Nat := 0                     -- 2 | Table 3.3 PORT_STATUS this port | reset 0
  otherPort : Bool := false           -- 1 | Table 3.3 PORT_STATUS other downlink | reset 0
deriving DecidableEq, Repr

/-- One sample-buffer entry of an island (R122): the received samples of both readers for one slot pair, their mark anchors, what the frame's
timing started from, and C1 and C2 by cell of its detection. -/
structure SbufEntry where
  /-- Number of the frame since the island was assigned; the entry's own number is its residue modulo 8. -/
  frame : Nat := 0
  slot : Nat := 0
  set : Nat := 0
  wide : Bool := false
  wordsA : List (Nat × Word) := []
  wordsB : List (Nat × Word) := []
  marksA : List (Nat × Int) := []
  marksB : List (Nat × Int) := []
  /-- Wedges of the head at the time: number, reference time and interval, newest first. -/
  refs : List (Nat × Int × Int) := []
  cand1 : Option Int := none
  cand2 : Option Int := none
  score2 : Int := 0
  /-- Tracks whose codeword awaits its decode. -/
  undecoded : List Nat := []
deriving DecidableEq, Repr

/-- One detector island (Tables 4.8 to 4.11). -/
structure Island where
  state : Nat := 0                    -- 4 | Table 4.8 STATE | reset 0
  assigned : Bool := false            -- 1 | Table 4.8 ASSIGNED | reset 0
  arm : Nat := 0                      -- 3 | Table 4.8 ARM | reset 0
  head : Nat := 0                     -- 3 | Table 4.8 HEAD | reset 0
  zone : Nat := 0                     -- 6 | Table 4.8 ZONE | reset 0
  set : Nat := 0                      -- 2 | Table 4.8 SET | reset 0
  surf : Nat := 0                     -- 6 | R183, R184: SURF of the head as handed to the island | reset 0
  offsets : BitVec 256 := 0           -- 256 | R184: offset entry of the head's zone as handed to the island (Table 6.2) | reset 0
  sbuf : List SbufEntry := []         -- up to 8 entries, oldest first | R122 | reset empty
  frames : Nat := 0                   -- frames that have taken an entry since the island was assigned | R122 | reset 0
  requests : List (Nat × Nat) := []   -- (frame, track) of the second candidates asked for, in order of arrival | R123 | reset none
  steerAt : Nat := 0                  -- 64 | R101: time at which a planned change was asked for | reset 0
  trial : BitVec 1024 := 0            -- 1,024 | R430: trial set of the data path | DESIGN CHOICE 0 (log entry 9)
  eccCe : Nat := 0                    -- 32 | Table 4.8 ECC_CE | reset 0
  miss : Nat := 0                     -- 16 | Table 4.9 MISS | reset 0
  cand2Used : Nat := 0                -- 16 | Table 4.9 CAND2_USED | reset 0
  erasedFrames : Nat := 0             -- 16 | Table 4.9 ERASED_FRAMES | reset 0
  loopRange : Nat := 0                -- 16 | Table 4.9 LOOP_RANGE | reset 0
  rawPass : Nat := 0                  -- 32 | Table 4.10 PASS | reset 0
  rawMarginal : Nat := 0              -- 16 | Table 4.10 MARGINAL | reset 0
  rawFail : Nat := 0                  -- 16 | Table 4.10 FAIL | reset 0
  freqOfs : Int := 0                  -- 24 signed | Table 4.11 FREQ_OFS | reset 0
  score1 : Nat := 0                   -- 9 | Table 4.11 SCORE1 | reset 0
  score2 : Nat := 0                   -- 9 | Table 4.11 SCORE2 | reset 0
  rawMse : Nat := 0                   -- 12 | Table 4.11 RAW_MSE | reset 0
  failed : Bool := false              -- 1 | R103, Table 19.2 | reset 0
  steering : Option Nat := none       -- island that takes the head at the next wedge gap | R101 | reset none
deriving DecidableEq, Repr

/-- A codeword on its way through the bolter (Table 4.3) with what the retry ladder keeps of its sector (R158). -/
structure Codeword where
  island : Nat := 0
  arm : Nat := 0
  head : Nat := 0
  track : Nat := 0
  zone : Nat := 0
  slot : Nat := 0
  cand : Nat := 0
  set : Nat := 0
  score : Nat := 0
  erased : Nat := 0
  sbuf : Nat := 0
  /-- Frame whose sample-buffer entry holds the slot pair. -/
  frame : Nat := 0
  expAddr : Word := 0
  /-- Start and pass of the channel visit that it belongs to (R430). -/
  visit : Option (Nat × Nat) := none
  /-- 2,304 soft words of R118: Λ of bit i in bits 4i+3:4i. -/
  soft : BitVec 147456 := 0
  rung : Nat := 1
deriving DecidableEq, Repr

/-- A decoder engine (R151, R166). -/
structure Engine where
  failed : Bool := false              -- 1 | R166, Table 19.2 | reset 0
  busy : Option Nat := none           -- queue slot of the codeword it decodes | R153 | reset free
deriving DecidableEq, Repr

/-- One sector of a row operation that the ladder follows (R158–R163). `row` is the row q of the arm, `slot` the slot s within it.
`rung` 1 to 6 is the rung that runs, 7 waits for reconstruction with every re-read used, 8 has no rung left. -/
structure Sector where
  arm : Nat := 0
  head : Nat := 0
  row : Nat := 0
  track : Nat := 0
  slot : Nat := 0
  rung : Nat := 1
  missed : Bool := false
  /-- The second candidate of the running re-read rung has been asked for (R158). -/
  second : Bool := false
  followUp : Bool := false
  /-- Arm and head, as 8a + h, in whose follow-up list it stands (R162). -/
  listed : Nat := 0
  /-- Its reconstruction has been tried (R160). -/
  tried : Bool := false
  /-- Information part once decoded or reconstructed (bits 33151:0 of Table 5.1). -/
  info : Option (BitVec 33152) := none
deriving DecidableEq, Repr

/-- Counters of one rung (Table 5.9). -/
structure RungCnt where
  entered : Nat := 0                  -- 32 | Table 5.9 ENTERED | reset 0
  recovered : Nat := 0                -- 32 | Table 5.9 RECOVERED | reset 0
deriving DecidableEq, Repr

/-- The bolter (Tables 5.7 to 5.10, R172). -/
structure Bolter where
  pressure : Nat := 0                 -- 2 | Table 5.7 PRESSURE | reset 0
  queue : List (Nat × Codeword) := [] -- taken slots (0-1,023) in order of completion | R152, R153 | reset empty
  suspended : List (Nat × Nat) := []  -- (arm, head) in order of suspension | R155, R156 | reset none
  fantailSuspended : Bool := false    -- 1 | R155, R156: fantail reads suspended | reset 0
  eccCe : Nat := 0                    -- 16 | Table 5.7 ECC_CE | reset 0
  engines : Tab Engine := []          -- 100 engines | R151 | reset free
  spareMap : List (Nat × Nat) := []   -- (spare 0-3, engine replaced) | Table 5.8 | reset none
  rungs : Tab RungCnt := []           -- rungs 1 to 7 | R170 | reset 0
  unrecovered : Nat := 0              -- 16 | Table 5.10 UNRECOVERED | reset 0
  miscorrect : Nat := 0               -- 16 | Table 5.10 MISCORRECT | reset 0
  addrMismatch : Nat := 0             -- 16 | Table 5.10 ADDR_MISMATCH | reset 0
  queueFull : Nat := 0                -- 16 | Table 5.10 QUEUE_FULL | reset 0
  hist : Tab Nat := []                -- 21 counts of 64 bits | R172 | reset 0
  recent : Tab (List Nat) := []       -- per head the iteration counts of its last 1,024 first decodes | R155 | reset none
  sectors : List Sector := []         -- sectors of operations in flight and follow-ups | R158, R162 | reset none
deriving DecidableEq, Repr

/-- One head (Tables 6.9, 6.11) with the wedge timing filter and the per-wedge run counts of chapter 6. -/
structure Head where
  state : Nat := 0                    -- 3 | Table 6.9 STATE | reset 0
  pos : Int := 0                      -- 36 | Table 6.9 POS | reset 0
  pes : Int := 0                      -- 16 signed | Table 6.9 PES | reset 0
  lostWedge : Nat := 0                -- 16 | Table 6.11 LOST_WEDGE | reset 0
  wgate : Nat := 0                    -- 16 | Table 6.11 WGATE | reset 0
  contact : Nat := 0                  -- 8 | Table 6.11 CONTACT | reset 0
  uaLate : Nat := 0                   -- 8 | Table 6.11 UA_LATE | reset 0
  rdrDisagree : Nat := 0              -- 16 | Table 6.11 RDR_DISAGREE | reset 0
  failed : Bool := false              -- 1 | R472 | reset as the failed-head list says
  mode : Nat := 0                     -- 3 | Table 3.8 MODE set | reset 0
  raw : Nat := 0                      -- 1 | Table 3.8 RAW_READER set | reset 0
  zone : Nat := 0                     -- 6 | R135 zone of the last ZONE_SET | reset 0
  island : Nat := 0                   -- 7 | R100 island assigned | reset 8a + h at assignment
  writing : Bool := false             -- 1 | R195: the head writes | reset 0
  gated : Bool := false               -- 1 | R195, R196: writer gated | reset 0
  tHat : Int := 0                     -- 2^-16 tick | R178 t_hat | reset 0
  wHat : Int := 0                     -- 2^-16 tick | R178 W_hat | reset 0
  tW : Int := 0                       -- 2^-16 tick | R178 t_w | reset 0
  tSam : Int := 0                     -- 2^-16 tick | R178 last t_SAM | reset 0
  wedge : Nat := 0                    -- 10 | R180 wedge number | reset 0
  refs : List (Nat × Int × Int) := [] -- the last 4 wedges: number, t_w and W_hat, newest first | R104, R113 | reset none
  streamed : Bool := false            -- 1 | R126: the stream of the running pass has been armed | reset 0
  target : Int := 0                   -- 2^-12 track | R186 y* | reset 0
  goal : Int := 0                     -- 2^-12 track | R190 y* at the end of a micro-seek | reset 0
  preset : Int := 0                   -- 2^-12 track | R187 mu* | reset 0
  mu : Int := 0                       -- 2^-12 track | R188 mu | reset 0
  dPos : Int := 0                     -- 2^-12 track | R182 wedge-to-wedge change | reset 0
  lostRun : Nat := 0                  -- 8 | Table 6.8: consecutive lost wedges | reset 0
  badIdRun : Nat := 0                 -- 8 | Table 6.8: consecutive invalid track IDs | reset 0
  wrongSurf : Nat := 0                -- 3 | R183: consecutive wrong surface numbers | reset 0
  acqRun : Nat := 0                   -- 3 | R201: consecutive good SAMs | reset 0
  everAcquired : Bool := false        -- 1 | R201 | reset 0
  rdRun : Nat := 0                    -- 5 | Table 6.5: wedges within ONTRK_RD | reset 0
  wrRun : Nat := 0                    -- 6 | Table 6.5: wedges within ONTRK_WR | reset 0
  onRead : Bool := false              -- 1 | R193 on track for reading | reset 0
  onWrite : Bool := false             -- 1 | R193 on track for writing | reset 0
  trackRun : Nat := 0                 -- 7 | Table 6.6a: wedges on track before the law switch | reset 0
  strokeRun : Nat := 0                -- 4 | Table 6.8: wedges with mu above 0.95 of stroke | reset 0
  disagreeRun : Nat := 0              -- 7 | Table 6.8: wedges on one reader | reset 0
  hrSum : Int := 0                    -- R197 sum of HR over valid wedges | R197 | reset 0
  hrCount : Nat := 0                  -- 6 | R197 valid wedges counted | reset 0
  clearance : Int := 0                -- 0.01 nm | R197 last estimate | reset 0
  readPwr : Nat := 0                  -- 16 | R198 read heater power | reset 0
  laserOpI : Nat := 0                 -- 16 | R26, Table 3.6 LASER_SET OP_I in force | reset 0
  contacts : List Nat := []           -- times of the last 1 s | R199 | reset none
  indexPhase : Int := 0               -- 2^-16 tick | R665 | reset 0
  followUps : Nat := 0                -- 13 | R162 entries of the follow-up list | reset 0
  followUrgent : Bool := false        -- 1 | R162 its follow-ups are kind 2 until its list holds 2,048 | reset 0
  suspended : Bool := false           -- 1 | R101, R156: reading suspended | reset 0
deriving DecidableEq, Repr

/-- The trajectory of a seek (R190, R191). -/
structure Seek where
  x0 : Int := 0
  dist : Int := 0
  n : Nat := 0
  len : Nat := 0
  micro : Bool := false
  /-- No wedge has come since the seek began: the next is its wedge 0. -/
  fresh : Bool := false
  /-- Sum of I_SENSE over the wedges of the first third (Table 14.1). -/
  iSum : Int := 0
  settle : Nat := 0
  repeated : Bool := false
deriving DecidableEq, Repr

/-- One arm's positioning and its VCM drive port (Table 6.10, Tables 6.6b, 6.7). -/
structure Arm where
  state : Nat := 0                    -- 4 | Table 6.10 STATE | reset 0
  demand : Int := 0                   -- 16 signed | Table 6.10 DEMAND | reset 0
  iSense : Int := 0                   -- 16 signed | Table 6.10 I_SENSE | reset 0
  vEmf : Int := 0                     -- 12 signed | Table 6.10 V_EMF | reset 0
  frameErr : Nat := 0                 -- 16 | Table 6.10 FRAME_ERR | reset 0
  cmd : Nat := 0                      -- 4 | Table 6.6b last CMD sent other than hold | reset 0
  seq : Nat := 0                      -- 8 | Table 6.6b SEQ of the last frame sent | reset 0
  due : List Nat := []                -- CMDs that wait for a frame, in order | R204 | reset none
  wanted : Int := 0                   -- 16 signed | R204 DEMAND of the next CURRENT frame | reset 0
  flags : BitVec 6 := 0               -- 6 | Table 6.7 FLAGS of the last valid frame | reset 0
  badRun : Nat := 0                   -- 2 | R206 consecutive discarded frames | reset 0
  offRun : Nat := 0                   -- 5 | R206 frames with current off demand | reset 0
  faulted : Bool := false             -- 1 | R195, R206 port or driver faulted | reset 0
  faultAt : Nat := 0                  -- 64 | R206 detection of the fault | reset 0
  reloads : Nat := 0                  -- 2 | R206 reloads made | reset 0
  attempts : Nat := 0                 -- 2 | R201 load attempts made | reset 0
  loadDue : Option Nat := none        -- 64 + valid | R200 the load falls due and waits | reset none
  velFrames : Nat := 0                -- 2 | Table 7.1 valid DI frames since contexts 140-147 ran | reset 0
  xTarget : Int := 0                  -- 2^-12 track | R187 x* | reset 0
  xHat : Int := 0                     -- 2^-12 track | R189 x_hat | reset 0
  seek : Option Seek := none          -- record | R190, R191 | reset none
  seekErrors : List Nat := []         -- times of the last 1 s | R193 | reset none
  lostNow : List Nat := []            -- heads that lost the running wedge | Table 6.8 | reset none
  tracked : Bool := false             -- 1 | R183, R201 the arm has been in TRACK since its load | reset 0
  again : Bool := false               -- 1 | R201, Table 6.8 a load follows the unload that runs | reset 0
  coast : Bool := false               -- 1 | Table 6.8 arm coasts | reset 0
deriving DecidableEq, Repr

end Sys2Proof.Machine
end

