-- ==== Sys2Proof/Machine/PartsSystem.lean ====
section
/-! DEFINITION. Component records of the state, part 1: device state, start, clocks, supplies, faults, tally, queues, partner
operation, hold-up and the diagnostic space (chapters 1, 15, 17, 19 to 22). Each field's comment gives its width, the rule or table
that names it and its reset value. Where a register of the manual is given as the sum of its fields, the fields stand here and
`Machine/Diag.lean` lays them out. -/

namespace Sys2Proof.Machine

/-- Device states, Table 0.3. -/
inductive DevState where
  | unconfigured | configuring | parked | spinningUp | loading | ready | faultHold | standby | takeover | holdUp | stopped
deriving DecidableEq, Repr

/-- The always-on domain: what it keeps over RESET_N (R587, R589, R520, R628). A power-on reset clears it. -/
structure AlwaysOn where
  time : Nat := 0                     -- 64 | R11, R609 | reset 0 (R613)
  up : Nat := 0                       -- Nat | model's own: ns since the power-on reset, which TIME_SET leaves alone (log entry 60) | reset 0 DESIGN CHOICE
  returns : List Nat := []            -- list of 64-bit times | R520 | reset none at power-on
  cause : Bool := false               -- 1 | R589, Table 19.7 CAUSE | reset 0 (power-on)
  prevState : DevState := .unconfigured -- 4 | R589, Table 19.7 PREV_STATE | reset 0
  prevDirty : Bool := false           -- 1 | R589, Table 19.7 PREV_DIRTY | reset 0
  faultRail : Nat := 0                -- 3 | R628, Table 20.8 FAULT_RAIL | reset 0
  faultKind : Nat := 0                -- 2 | R628, Table 20.8 FAULT_KIND | reset 0
  clockFaultPending : Bool := false   -- 1 | R610: event 0x0B owed at the next start | reset 0
  supplyFaultPending : Bool := false  -- 1 | R618: event 0x1B owed at the next start | reset 0
deriving DecidableEq, Repr

/-- Start-up and the reset that is running (chapter 19). -/
structure Start where
  inReset : Bool := true              -- 1 | R587, R613 | reset 1: the reset is asserted
  powerOnReset : Bool := true         -- 1 | R613: rails not yet in range | reset 1
  railsLate : Bool := false           -- 1 | R613: no rail in range 100 ms after VAON, ALERT_N asserted | reset 0
  clocksStopped : Bool := false       -- 1 | R610, R618: every domain but always-on stopped | reset 0
  step : Nat := 0                     -- 5 | R607 STEP | reset 0
  failStep : Nat := 0                 -- 5 | R607 FAIL_STEP | reset 0
  failEvent : Nat := 0                -- 8 | R607 FAIL_EVENT | reset 0
  tReady : Nat := 0                   -- 24 | R607 T_READY | reset 0
  releasedAt : Nat := 0               -- 64 | R607: uptime of the reset's end | reset 0
  imageLoaded : Bool := false         -- 1 | R547, R592 | reset 0
  romOk : Bool := false               -- 1 | Table 7.x GOV_STATE.ROM_OK, Table 19.2 | reset 0
  replayRead : Bool := false          -- 1 | R469, Table 19.3 step 15: chunks read | reset 0
  everReady : Bool := false           -- 1 | R607: T_READY set | reset 0
  left : Bool := false                -- 1 | R585, Table 18.10: the part has left Configuring | reset 0
  parkStep : Nat := 0                 -- 3 | R604, Table 19.5 step running; 0 none | reset 0
deriving DecidableEq, Repr

/-- Identity and diagnostic counters (Table 22.6) with the part's identity fuses. -/
structure Idn where
  part : BitVec 16 := 0x6408          -- 16 | Table 22.6 PART | reset 0x6408
  stepLetter : BitVec 8 := 0x43       -- 8 | Table 22.6 STEP_LETTER, R647 | reset 'C' (stepping C1)
  stepDigit : BitVec 8 := 0x31        -- 8 | Table 22.6 STEP_DIGIT, R647 | reset '1' (stepping C1)
  idcode : BitVec 32 := 0x364085B3    -- 32 | Table 22.5, R662 | reset 0x3640_85B3 (stepping C1)
  serial : Word := 0                  -- 64 | Table 22.6 SERIAL | DESIGN CHOICE 0 (log entry 4)
  ucodeVer : BitVec 32 := 0           -- 32 | Table 22.6 UCODE_VER | reset 0
  romVer : BitVec 32 := 0             -- 32 | Table 22.6 ROM_VER | DESIGN CHOICE 0 (log entry 4)
  denied : Nat := 0                   -- 16 | Table 22.6 DENIED | reset 0
  writes : Nat := 0                   -- 16 | Table 22.6 WRITES | reset 0
  ue : Nat := 0                       -- 16 | Table 22.6 UE | reset 0
  unlockFail : Nat := 0               -- 16 | Table 22.6 UNLOCK_FAIL | reset 0
  boot : Nat := 0                     -- 16 | Table 19.7 BOOT, held in flash | DESIGN CHOICE 0 (log entry 4)
deriving DecidableEq, Repr

/-- Fuses (R551, R661). -/
structure Fuses where
  unlockKey : Option (BitVec 256) := none -- 256 + programmed flag | R389, R661, R647 | reset unprogrammed (R647)
  keyHash : Option (BitVec 256) := none   -- 256 + programmed flag | R551, R661, R647 | reset unprogrammed (R647)
  openBlown : Bool := false               -- 1 | R661, R647 | reset intact (R647)
deriving DecidableEq, Repr

/-- Clocks (Table 20.6). Which domains run and which are held in reset (Table 20.7) follows from the rest of the state. -/
structure Clk where
  refclkOk : Bool := false            -- 1 | Table 20.6 REFCLK_OK | reset 0
  coreLock : Bool := false            -- 1 | Table 20.6 CORE_LOCK | reset 0
  laneLock : BitVec 11 := 0           -- 11 | Table 20.6 LANE_LOCK | reset 0
  laneLoss : Nat := 0                 -- 16 | Table 20.6 LANE_LOSS | reset 0
deriving DecidableEq, Repr

/-- Supplies, AVSBus, monitors and the input-power sense (chapters 20, 21). -/
structure Pwr where
  target : Nat := 750                 -- 10 | Table 20.8 TARGET | reset 750
  readback : Nat := 0                 -- 10 | Table 20.8 READBACK | reset 0
  src : Nat := 0                      -- 2 | Table 20.8 SRC | reset 0
  wrote : Nat := 750                  -- 10 | R616, R620: last voltage written over AVSBus | reset 750 (the regulator's start value)
  avsFault : Bool := false            -- 1 | Table 20.8 AVS_FAULT | reset 0
  avsBad : Nat := 0                   -- 2 | R622: consecutive failed transactions | reset 0
  avsGood : Nat := 0                  -- 2 | R622: consecutive good readbacks while the fault is open | reset 0
  avsOffSince : Option Nat := none    -- 64 + valid | R622: since when the readback is outside 15 mV | reset none
  slack : Int := 0                    -- 8 signed | Table 20.8 SLACK | reset 0
  raises : Nat := 0                   -- 16 | Table 20.8 RAISES | reset 0
  stretch : Nat := 0                  -- 16 | Table 20.8 STRETCH | reset 0
  stretchTimes : List (Nat × Nat) := [] -- list of (domain, time) | Table 20.5 event 0x0F: stretches of the last 1 ms | reset none
  good : BitVec 7 := 0                -- 7 | Table 20.8 GOOD | reset 0
  temps : Vector Int 16 := Vector.replicate 16 0 -- 16 x 16 signed | R629 | reset 0
  tempFailed : BitVec 16 := 0         -- 16 | R623: sensors marked failed | reset 0
  vin12 : Nat := 0                    -- 16 | Table 21.13 VIN12 | reset 0
  vin12Min : Nat := 0xFFFF            -- 16 | Table 21.13 VIN12_MIN | reset 0xFFFF
  vin12Max : Nat := 0                 -- 16 | Table 21.13 VIN12_MAX | reset 0
  pfailN : Bool := false              -- 1 | Table 21.13 PFAIL_N | reset 0
  bpwm : Bool := false                -- 1 | Table 21.13 BPWM | reset 0
  vinLow : Bool := false              -- 1 | Table 21.13 VIN_LOW | reset 0
  vinHigh : Bool := false             -- 1 | Table 21.13 VIN_HIGH | reset 0
  snsTimeout : Bool := false          -- 1 | Table 21.13 SNS_TIMEOUT | reset 0
  lowRun : Nat := 0                   -- 3 | R463, R641: windows in a row below VIN_FAIL | reset 0
  senseEventAt : Option Nat := none   -- 64 + valid | R640: last event 0x1F | reset none
  tmode : Bool := false               -- 1 | R642, Table 21.13 TMODE | reset 0
  role : Bool := false                -- 1 | R642, R643: sampled ROLE strap | reset 0
deriving DecidableEq, Repr

/-- First-error record, Table 17.3. -/
structure FirstError where
  valid : Bool := false               -- 1 | Table 17.3 VALID | reset 0
  injected : Bool := false            -- 1 | Table 17.3 INJECTED | reset 0
  overwroteInj : Bool := false        -- 1 | Table 17.3 OVERWROTE_INJ | reset 0
  master : BitVec 8 := 0              -- 8 | Table 17.3 MASTER | reset 0
  addr : BitVec 48 := 0               -- 48 | Table 17.3 ADDR | reset 0
  access : BitVec 3 := 0              -- 3 | Table 17.3 ACCESS | reset 0
  cause : BitVec 4 := 0               -- 4 | Table 17.3 CAUSE | reset 0
  mem : BitVec 7 := 0                 -- 7 | Table 17.3 MEM | reset 0
  event : BitVec 8 := 0               -- 8 | Table 17.3 EVENT | reset 0
  syndrome : BitVec 8 := 0            -- 8 | Table 17.3 SYNDROME | reset 0
  more : Nat := 0                     -- 16 | Table 17.3 MORE | reset 0
  time : Nat := 0                     -- 64 | Table 17.3 TIME | reset 0
deriving DecidableEq, Repr

/-- One counter register of Table 17.12. -/
structure FaultCounts where
  corrected : Nat := 0                -- 24 | Table 17.12 CORRECTED | reset 0
  uncorrected : Nat := 0              -- 16 | Table 17.12 UNCORRECTED | reset 0
  bus : Nat := 0                      -- 12 | Table 17.12 BUS | reset 0
  other : Nat := 0                    -- 12 | Table 17.12 OTHER | reset 0
deriving DecidableEq, Repr

/-- A cause of the running Fault-hold that is still open (R519): the event that names it and, where the event is of one of several
like units, that unit's number. -/
structure OpenCause where
  event : BitVec 8 := 0
  unit : Nat := 0
  injected : Bool := false
deriving DecidableEq, Repr

/-- Fault collector (Tables 17.3, 17.12). -/
structure Flt where
  first : FirstError := {}            -- record | R515, Table 17.3 | reset empty
  real : FaultCounts := {}            -- 64 | Table 17.12 FLT_CNT_REAL | reset 0
  inj : FaultCounts := {}             -- 64 | Table 17.12 FLT_CNT_INJ | reset 0
  quietSince : Option Nat := none     -- 64 + running | R519: start of the quiet timer, HOLD 1 | reset none
  awaiting : Bool := false            -- 1 | Table 17.12 HOLD 2 | reset 0
  from_ : DevState := .ready          -- 4 | R519: state the Fault-hold was entered from | reset Ready, not read outside Fault-hold
  failstop : Bool := false            -- 1 | Table 17.12 FAILSTOP | reset 0
  injRecov : Nat := 0                 -- 8 | Table 17.12 INJ_RECOV | reset 0
  holdCause : BitVec 8 := 0           -- 8 | Table 17.12 HOLD_CAUSE | reset 0
  open_ : List OpenCause := []        -- list | R519: causes still open | reset none
  realSeen : Bool := false            -- 1 | R520: the hold has had a cause that was not injected | reset 0
  stopStep : Nat := 0                 -- 3 | R522, Table 17.5 step of the fail-stop sequence that runs; 0 none | reset 0
  stopCause : BitVec 8 := 0           -- 8 | R523: the cause that step 4 records | reset 0
  coreTraps : List (Nat × Nat) := []  -- list of (core, time) | R527: traps of the last second | reset none
  coreFailed : BitVec 4 := 0          -- 4 | R527: cores that have failed | reset 0
deriving DecidableEq, Repr

/-- Tally record, Table 17.7. The valid mark is implied: a written record reads 0xA5, a pad 0x00. -/
structure TallyRec where
  pad : Bool := false
  code : BitVec 8 := 0
  injected : Bool := false
  state : DevState := .unconfigured
  source : BitVec 8 := 0
  suppressed : Nat := 0
  boot : Nat := 0
  time : Nat := 0
  index : Nat := 0
  payload : List Byte := []
deriving DecidableEq, Repr

/-- One token bucket of R534; `level` is in 10^-9 of a token. -/
structure Bucket where
  used : Nat := 0                     -- tokens short of a full bucket, scaled by 10^9 | R534 | reset 0: full
  at_ : Nat := 0                      -- 64 | R534: uptime at the last change | reset 0
  suppressed : Nat := 0               -- 16 | R534 SUPPRESSED | reset 0
deriving DecidableEq, Repr

/-- The tally (Table 17.13, R531–R536). -/
structure Evt where
  running : Bool := false             -- 1 | R533, R592: the tally has started | reset 0
  full : Nat := 0                     -- 2 | Table 17.13 FULL | reset 0
  freeBlocks : Nat := 0               -- 22 | Table 17.13 FREE_BLOCKS | reset 0
  droppedFull : Nat := 0              -- 16 | Table 17.13 DROPPED_FULL | reset 0
  next : Nat := 0                     -- 64 | Table 17.13 NEXT | reset 0
  staging : List TallyRec := []       -- up to 2 pages | R532, R592 | reset empty
  stagedSince : Option Nat := none    -- 64 + running | R532: first record of the staged sector | reset none
  written : List TallyRec := []       -- the region's programmed records, oldest first, held in flash | R531, R535 | reset none
  released : Nat := 0                 -- 64 | R535: records below this index are released, held in flash | reset 0
  blockFill : Nat := 0                -- 15 | R535: records in the block being written, held in flash | reset 0
  buckets : Tab Bucket := []          -- 512 buckets by code + 256 × injected | R534 | reset full
deriving DecidableEq, Repr

/-- One message queue (R537–R541, Table 17.13). -/
structure Mq where
  words : List (Word × Bool) := []    -- up to MQ_DEPTH words with end marks | R537 | reset empty
  packets : Nat := 0                  -- 18 | Table 17.13 PACKETS | reset 0
  overflow : Nat := 0                 -- 8 | Table 17.13 OVERFLOW | reset 0
  wdog : Nat := 0                     -- 8 | Table 17.13 WDOG | reset 0
  waiting : List (List Word) := []    -- packets whose producer waits for room | R539 | reset none
  stalled : Bool := false             -- 1 | R541 a pop waits for a word | reset 0
deriving DecidableEq, Repr

/-- A command context mirrored to the standby (Table 15.2 CMD_CTX, CPL). -/
structure MirrorCtx where
  port : Nat := 0
  tag : BitVec 16 := 0
  arrival : BitVec 40 := 0
  opcode : BitVec 8 := 0
  lba : BitVec 48 := 0
  count : BitVec 32 := 0
  cpl : Option CplRec := none
deriving DecidableEq, Repr

/-- Partner operation (Tables 15.12, 15.13). -/
structure Ptn where
  role : Nat := 0                     -- 2 | Table 15.12 ROLE | reset 0
  synced : Bool := false              -- 1 | Table 15.12 SYNCED | reset 0
  solo : Bool := false                -- 1 | Table 15.12 SOLO | reset 0
  hbInOk : Bool := false              -- 1 | Table 15.12 HB_IN_OK | reset 0
  activeIn : Bool := false            -- 1 | Table 15.12 ACTIVE_IN | reset 0
  activeOut : Bool := false           -- 1 | Table 15.12 ACTIVE_OUT | reset 0
  hbOut : Bool := false               -- 1 | R452: level of PTN_HB_OUT | reset 0
  hbOn : Bool := false                -- 1 | R452: the part emits heartbeats | reset 0
  servedAt : Nat := 0                 -- 64 | R452: last service by the takeover core | reset 0
  handover : Nat := 0                 -- 2 | Table 15.12 HANDOVER | reset 0
  handoverReason : BitVec 8 := 0      -- 8 | R461 REASON of the running handover | reset 0
  handStage : Nat := 0                -- 2 | R461: 0 none, 1 operations in flight finish, 2 arms unload, 3 the partner takes over | reset 0
  planned : Bool := false             -- 1 | R461: the running takeover is a handover | reset 0
  released : Bool := false            -- 1 | R454: the partner sent HANDOVER STEP 1 | reset 0
  withheld : Bool := false            -- 1 | R454: FAILSTOP with cause 0xC6 received | reset 0
  seen : Nat := 0                     -- 3 | Table 15.3: row concluded last (1 lost, 2 hung, 3 mirror lost, 4 sideband fault); 0 none | reset 0
  requested : Bool := false           -- 1 | R461: the partner sent HANDOVER STEP 0 | reset 0
  asked : Bool := false               -- 1 | R455, R457: RESYNC has been requested | reset 0
  peerHb : Option (Bool × BitVec 8 × Word × BitVec 32) := none -- record + valid | R452: role, state, time and dirty frames of the last HEARTBEAT | reset none
  alone : Bool := false               -- 1 | R455 row 1, R667: active alone | reset 0
  heard : Bool := false               -- 1 | R455, R595: a partner has answered arbitration | reset 0
  peer : Option ArbRec := none        -- record | R455: the partner's last ARBITRATE | reset none
  takeovers : Nat := 0                -- 16 | Table 15.13 TAKEOVERS | reset 0
  handovers : Nat := 0                -- 16 | Table 15.13 HANDOVERS | reset 0
  resyncs : Nat := 0                  -- 16 | Table 15.13 RESYNCS | reset 0
  hbGaps : Nat := 0                   -- 16 | Table 15.13 HB_GAPS | reset 0
  hbGap : Nat := 0                    -- ns since the last toggle of PTN_HB_IN at the end of the last window | R454, Table 15.13 | reset 0
  gapSeen : Bool := false             -- 1 | Table 15.13 the gap that is open has been counted | reset 0
  takeoverAt : Option Nat := none     -- 64 + valid | Table 15.11 event 0x84 time | reset none
  resumed : Bool := false             -- 1 | R458 step 5: RESUME sent | reset 0
  ctxs : List MirrorCtx := []         -- mirrored contexts | R399, R457, Table 15.2 | reset none
  fetches : List (Nat × Nat) := []    -- (frame, VSEQ) asked for | R306 | reset none
deriving DecidableEq, Repr

/-- A commit record (R294). -/
structure CommitRec where
  row : Nat := 0
  time : Nat := 0
  defects : List DefectEntry := []
  runs : List RunEntry := []
deriving DecidableEq, Repr

/-- One chunk of a dump (R466, Table 15.6). -/
inductive DumpChunk where
  | header
  | index (entries : List LedgerEntry)
  | commits (recs : List CommitRec)
  | data (blocks : List (LedgerEntry × Block))
deriving DecidableEq, Repr

/-- A dump area of flash (R465, R466, R596): erased and armed, holding a dump, or being erased. -/
structure DumpArea where
  armed : Bool := false               -- 1 | R465: erased, unused and recorded as armed | reset as flash holds it
  unretired : Bool := false           -- 1 | R596: header chunk reads correctly | reset as flash holds it
  dumpId : Word := 0                  -- 64 | Table 15.7 DUMP_ID | held in flash
  source : Nat := 0                   -- 8 | Table 15.7 SOURCE | held in flash
  roleStrap : Bool := false           -- 8 | Table 15.7 ROLE | held in flash
  e : Nat := 0                        -- 32 | Table 15.7 E | held in flash
  recs : Nat := 0                     -- 32 | Table 15.7 REC | held in flash
  imageVer : BitVec 32 := 0           -- 32 | Table 15.7 IMAGE_VER | held in flash
  compat : BitVec 256 := 0            -- 256 | Table 15.7 COMPAT | held in flash
  chunks : List (Nat × DumpChunk) := [] -- committed chunks with their numbers | R466 | held in flash
deriving DecidableEq, Repr

/-- Hold-up and replay (Table 15.14). -/
structure HoldUp where
  state : Nat := 0                    -- 4 | Table 15.14 STATE | reset 0
  area : Nat := 0                     -- 1 | Table 15.14 AREA | reset 0
  areaOk : Bool := false              -- 1 | Table 15.14 AREA_OK | reset 0
  source : Nat := 0                   -- 2 | Table 15.14 SOURCE | reset 0
  chunksDone : Nat := 0               -- 18 | Table 15.14 CHUNKS_DONE | reset 0
  chunksPlanned : Nat := 0            -- 18 | Table 15.14 CHUNKS_PLANNED | reset 0
  lostBlocks : Nat := 0               -- 20 | Table 15.14 LOST_BLOCKS | reset 0
  plan : List DumpChunk := []         -- chunks still to program | R466, R467 | reset none
  owed : Bool := false                -- 1 | R466, Table 17.5: a dump is to start | reset 0
  detectedAt : Nat := 0               -- 64 | Table 15.7 DUMP_ID | reset 0
  fromLoading : Bool := false         -- 1 | R603 | reset 0
  mirrorCopy : Bool := false          -- 1 | R35, Table 15.7 SOURCE: the dump is a standby's mirror copy | reset 0
  returned : Bool := false            -- 1 | R464: event 0x18 recorded | reset 0
  flashStopped : Bool := false        -- 1 | R463: no flash program starts | reset 0
  areas : Vector DumpArea 2 := Vector.replicate 2 {} -- two areas A, B | R465 | held in flash; DESIGN CHOICE as an erased part (log entry 5)
  replay : List Nat := []             -- areas whose dump this start replays, rising DUMP_ID | R469, R596 | reset none
  toRead : List Nat := []             -- areas still to be read | R469 | reset none
  missing : List LedgerEntry := []    -- entries whose data no dump read so far has given | R470 | reset none
  inbound : List (Nat × Nat × Block) := [] -- (frame, parts here, data) of blocks of the standby's dump on their way | R470 | reset none
  replayed : List (Nat × Nat) := []   -- (frame, area; 2 the standby's) of blocks loaded and not yet committed or superseded | R601 | reset none
deriving DecidableEq, Repr

/-- Service unlock of one path (R389, R657). -/
structure Unlock where
  challenge : Option (BitVec 256) := none -- 256 + valid | R389, R660 | reset none
  until_ : Option Nat := none         -- 64 + valid | R389: uptime (aon.up) at which the unlock ends | reset none (locked)
  key : Option (BitVec 256) := none   -- 256 + valid | R661: key that answers the challenge, none when no response is accepted | reset none
  wrong : Nat := 0                    -- 2 | R389, R657: wrong responses in a row | reset 0
  refused : Option Nat := none        -- 64 + valid | R389, R657: start of the 60 s of refusal | reset none
deriving DecidableEq, Repr

/-- Injection registers and the TAP (chapter 22, R528–R530). -/
structure DiagCtl where
  unlockA : Unlock := {}              -- record | R389 | reset locked
  unlockB : Unlock := {}              -- record | R389 | reset locked
  unlockJ : Unlock := {}              -- record | R657 | reset locked
  allowStop : Bool := false           -- 1 | Table 17.6 ALLOW_STOP | reset 0
  fltReport : Word := 0               -- 64 | Table 22.3 INJ_FLT_REPORT | reset 0
  eccAddr : Word := 0                 -- 64 | Table 17.6 INJ_ECC_ADDR | reset 0
  eccData : Word := 0                 -- 64 | Table 17.6 INJ_ECC_DATA | reset 0
  eccCheck : BitVec 8 := 0            -- 8 | Table 17.6 INJ_ECC_CHECK | reset 0
  eccStatus : Nat := 0                -- 2 | Table 17.6 STATUS | reset 0
  eccTags : List (Nat × Nat × BitVec 8) := [] -- up to 16 of (MEM, word offset, predicted syndrome) | R529 | reset none
  treHaltChannel : BitVec 6 := 0      -- 6 | Table 22.4 CHANNEL | reset 0
  treHaltPending : List Nat := []     -- channels with an injected halt waiting | R656, Table 22.4 PENDING | reset none
  jtagIr : BitVec 8 := 0x02           -- 8 | R658 | PRESUMED 0x02 (IEEE 1149.1: IDCODE after Test-Logic-Reset; log entry 6)
  jtagData : Word := 0                -- 64 | R659 DIAG_ACC result | reset 0
  jtagStatus : Nat := 0               -- 2 | R659 | reset 0
  jtagUe : Bool := false              -- 1 | R659 | reset 0
  fuseStatus : Nat := 0               -- 2 | R661 | reset 0
  bscan : List Bool := []             -- boundary-scan cells | R638, R658 | DESIGN CHOICE empty (log entry 7)
  bscanDrives : Bool := false         -- 1 | R658: the boundary cells drive the balls | reset 0
deriving DecidableEq, Repr

end Sys2Proof.Machine
end

