-- ==== Sys2Proof/Machine/PartsData.lean ====
section
/-! DEFINITION. Component records of the state, part 4: configuration image, millrace, millpond, row builds, transfer engine, flash and
fetch cache (chapters 9, 10, 16, 18). Each field's comment gives its width, the rule or table that names it and its reset value. -/

namespace Sys2Proof.Machine

/-- Zone format record (Table 4.4) with C_z (R562). -/
structure ZoneFmt where
  sz : Nat := 0
  cpw : Nat := 0
  wg : Nat := 0
  sg : Nat := 0
  samplePeriod : Nat := 0
  cz : Nat := 0
deriving DecidableEq, Repr

/-- SEEK record of one arm (R565). -/
structure SeekRec where
  skT0 : Nat := 24
  skT1 : Nat := 64
  kff : Nat := 0
  vcmIfs : Nat := 0
  shape : List Int := []
deriving DecidableEq, Repr

/-- A region of the flash plan (Table 16.2). -/
structure Region where
  kind : Nat := 0
  dense : Bool := false
  eflag : Bool := true
  access : Nat := 1
  blocks : Nat := 0
deriving DecidableEq, Repr

/-- The loaded configuration image, decoded (chapter 18). Lists keep (FID, VALUE) pairs as R555 gives them; a field that is absent takes
its table default when it is read (R558). Before a copy is loaded every record is empty and the defaults stand (R585). -/
structure Image where
  loaded : Bool := false              -- 1 | Table 18.12 VALID | reset 0
  copyB : Bool := false               -- 1 | Table 18.12 COPY | reset 0
  unsigned : Bool := false            -- 1 | Table 18.12 UNSIGNED | reset 0
  pendingCommit : Bool := false       -- 1 | Table 18.12 PENDING | reset 0
  gen : Nat := 0                      -- 32 | Table 18.12 GEN | reset 0
  imageVer : BitVec 32 := 0           -- 32 | Table 18.1 IMAGE_VER | reset 0
  digest : BitVec 256 := 0            -- 256 | R441, R579 DIGEST | reset 0
  compat : BitVec 256 := 0            -- 256 | R579 COMPAT | reset 0
  stepA : Nat := 0                    -- 4 | Table 18.12 STEP_A | reset 0
  offA : Nat := 0                     -- 28 | Table 18.12 OFFSET_A | reset 0
  stepB : Nat := 0                    -- 4 | Table 18.12 STEP_B | reset 0
  offB : Nat := 0                     -- 28 | Table 18.12 OFFSET_B | reset 0
  arms : Nat := 0                     -- 8 | Table 18.4 ARMS | reset 0: no image
  heads : Nat := 0                    -- 8 | Table 18.4 HEADS | reset 0: no image
  wedges : Nat := 960                 -- 16 | Table 18.4 WEDGES | reset 960, the only value
  trackPitch : Nat := 0               -- 32 | Table 18.4 TRACK_PITCH | reset 0: no image
  surf : Tab Nat := []                -- 64 × 6 | R560 SURF by head 8a+h | reset none
  zones : Tab (List ZoneFmt) := []    -- per arm 1-64 entries | R562 | reset none
  capacity : Nat := 0                 -- 48 | Table 18.5 CAPACITY | reset 0: no image
  q : Nat := 0                        -- 40 | Table 18.5 Q | reset 0: no image
  repairShare : Nat := 3              -- 8 | Table 18.5 REPAIR_SHARE | reset default 3 (R63)
  resDiv : Nat := 30                  -- 8 | Table 18.5 RES_DIV | reset 30 of the reference drive; no image
  headFailMax : Nat := 0              -- 2 | Table 18.5 HEAD_FAIL_MAX | reset 0: no image
  lists : Tab (List (Nat × Nat)) := [] -- list records by TYPE: (FID, VALUE) | R555 | reset none: defaults
  bins : Tab (List Byte) := []        -- values of the array records by TYPE × 65,536 + INST (R563-R578), byte lists | Table 18.3 | reset none
deriving DecidableEq, Repr

/-- The configuration NVM and the write of a new copy (R544–R546, R582). -/
structure Nvm where
  present : Bool := false             -- 1 | R544 | reset 0 until step 6 finds it
  blocks : Tab Block := []            -- 8,192 blocks of 4 KiB, bytes 0 to 0x01FF_FFFF, kept without power | R545 | PRESUMED all ones where nothing is listed (an erased serial NOR; log entry 10)
  writePoint : Option Nat := none     -- 12 + valid | R582 next unwritten block of the copy not in use | reset none
  busy : Bool := false                -- 1 | R582, R640 a program or erase runs | reset 0
  erasing : Bool := false             -- 1 | R582 the operation that runs is the erase of the area | reset 0
  serving : Option Nat := none        -- 40 + valid: arrival number of the MICROCODE_WRITE that it serves | R582 | reset none
  toProgram : List (Nat × Block) := [] -- blocks that wait for their program | R582 | reset none
deriving DecidableEq, Repr

/-- One millrace slot (R278). -/
structure Slot where
  used : Bool := false                -- 1 | R278 the slot is reserved or holds data | reset 0
  ready : Bool := false               -- 1 | R278, R280 the block is there | reset 0
  lba : Nat := 0                      -- 48 | R278 LBA | reset 0
  arrival : Nat := 0                  -- 40 | R278 command context (its arrival number) | reset 0
  pos : Nat := 0                      -- 16 | R278 position in the command | reset 0
  inner : Option (Nat × Nat × Nat × Nat) := none -- arm whose read brings it, and the sector: arm, row and key | R281 internal pool | reset none
  data : Block := 0                   -- 32,768 | R278 | DESIGN CHOICE 0 (log entry 9)
deriving DecidableEq, Repr

/-- The millrace (Table 9.7): host pool 0–20,479, internal pool 20,480–24,575 (R278, R281). -/
structure Millrace where
  slots : Tab Slot := []              -- 24,576 slots | R278 | reset free
  eccCe : Nat := 0                    -- 16 | Table 9.7 ECC_CE | reset 0
deriving DecidableEq, Repr

/-- One physical millpond channel (Table 9.10). -/
structure MpdChan where
  role : Nat := 0                     -- 3 | Table 9.10 ROLE | reset 0
  logical : Nat := 0                  -- 3 | Table 9.10 LOGICAL | reset 0
  ue : Nat := 0                       -- 16 | Table 9.10 UE | reset 0
  ce : Nat := 0                       -- 32 | Table 9.10 CE | reset 0
  margin : Nat := 0                   -- 8 | Table 9.10 MARGIN | reset 0
  ceTimes : List Nat := []            -- times of the last 24 h | R307 | reset none
  scrub : Nat := 0                    -- 23 | R287 next burst of the patrol scrub | reset 0
  ueBursts : List Nat := []           -- bursts with an uncorrectable error that wait for scrub to confirm | R307 | reset none
  refreshRow : Nat := 0               -- 17 | R286: next (row, bank) of the refresh walk | reset 0
  calAt : Nat := 0                    -- 64 | R286: last short calibration | reset 0
  trained : Bool := false             -- 1 | R285 | reset 0
deriving DecidableEq, Repr

/-- A clean or prefetched frame of the cache directory (R288, R291). -/
structure CleanFrame where
  lba : Nat := 0                      -- 48 | R288 | reset 0
  parity : Option (Nat × Nat) := none -- row and sector of a prefetched parity sector, which has no LBA | R64 | reset none
  htag : Word := 0                    -- 64 | R288 | reset 0
  prefetched : Bool := false          -- 1 | R291 | reset 0
  ref : Bool := false                 -- 1 | R291 reference bit of the clock | reset 0
  stale : Bool := false               -- 1 | R291, R301: a newer version has committed, and pins alone keep the frame | reset 0
  valid : Bool := false               -- 1 | R288 | reset 0
deriving DecidableEq, Repr

/-- The millpond (Tables 9.2, 9.8, 9.9). The two copies of a ledger or commit page hold the same entries; the entries stand here once. -/
structure Millpond where
  state : Nat := 0                    -- 4 | Table 9.8 STATE | reset 0
  spare : Nat := 15                   -- 4 | Table 9.8 SPARE | reset 15
  migLogical : Nat := 15              -- 4 | Table 9.8 MIG_LOGICAL | reset 15
  migCursor : Nat := 0                -- 17 | R308 cursor in 4 KiB units, MIG_PROGRESS | reset 0
  migLost : Bool := false             -- 1 | R308 the source lost training | reset 0
  chans : Tab MpdChan := []           -- 9 channels | R283 | reset unused
  frames : Tab Block := []            -- 1,048,576 frames of 4 KiB | R284 | DESIGN CHOICE 0 (log entry 9)
  ledger : Tab LedgerEntry := []      -- entry of each block frame | R292, Table 9.4 | reset none valid
  dirtySince : Tab Nat := []          -- 64 per frame | R290 rule 3: when the block became dirty | reset 0
  clean : Tab CleanFrame := []        -- cache directory of clean and prefetched frames | R288, R291 | reset none
  parts : Tab (BitVec 8) := []        -- 8 per frame: parts of a landing block that have arrived | R374 | reset 0
  turn : Nat := 0                     -- 3 | R290 arm whose turn it is for a full row | DESIGN CHOICE 0 (log entry 46)
  hand : Nat := 118784                -- 20 | R291 clock hand | reset 118,784, the first block frame
  pins : List (Nat × Nat) := []       -- (frame, arrival number of the reader) | R298, R301 | reset none
  mediumPins : List (Nat × Nat) := [] -- (LBA, arrival number of the reader) | R298, R299 | reset none
  gone : List Nat := []               -- frames | Table 9.5: dropped in BUILDING or WRITTEN while their row goes on | reset none
  pinRows : List Nat := []            -- rows | R299 whose build waits for its pinned blocks to be read into frames | reset none
  rewriteRows : List Nat := []        -- rows | R62 to be written whole again | reset none
  committed : List (Nat × Nat) := []  -- (LBA, VSEQ) on the medium while an older version stays in a frame | R298, R383 | reset none
  dueRows : List Nat := []            -- rows | R290 rule 3: to be built at once | reset none
  commits : List CommitRec := []      -- pending commit records | R294 | reset none
  spareTestAt : Nat := 0              -- 64 | R285 last spare pattern test | reset 0
deriving DecidableEq, Repr

/-- One sector of a row under write (R66, R131): present state and location. -/
structure RowSector where
  /-- 0 to be written, 1 written and waiting for its check, 2 passed, 3 to be rewritten. -/
  st : Nat := 0
  fails : Nat := 0
  void : Bool := false
deriving DecidableEq, Repr

/-- A row from the start of its build to its commit (R50, R66, R666). `row` is the data row N across the drive. -/
structure RowBuild where
  row : Nat := 0
  arm : Nat := 0
  q : Nat := 0
  /-- Frame of each data block by row offset; none while its read-in is owed. -/
  src : List (Option Nat) := []
  /-- Host tags of the data blocks by row offset. -/
  htags : Tab Word := []
  standIns : List Nat := []
  staging : Nat := 0
  /-- Tracks whose first pass has been granted. -/
  passed : Nat := 0
  sectors : Tab RowSector := []
  defects : List DefectEntry := []
  runs : List RunEntry := []
  /-- A FLUSH or rule 3 of R290 required the build. -/
  due : Bool := false
  /-- 0 a row write, 1 the rebuild of one failed head's share (R62), 2 a move of a relocated share (R58). -/
  kind : Nat := 0
  /-- Head of the share. -/
  share : Nat := 0
  /-- A row that a rebuild has to be written whole again (R62). -/
  rewrite : Bool := false
deriving DecidableEq, Repr

/-- One channel of the transfer engine (Table 10.8). `ring` holds the posted descriptors in order; the first runs when STATE is 1. -/
structure TreCh where
  state : Nat := 0                    -- 2 | Table 10.8 STATE | reset 0
  cut : Bool := false                 -- 1 | Table 10.8 STOPPED_CUT | reset 0
  halts : Nat := 0                    -- 6 | Table 10.8 HALTS | reset 0
  cause : Nat := 0                    -- 4 | Table 10.8 CAUSE | reset 0
  injected : Bool := false            -- 1 | Table 10.8 INJECTED | reset 0
  descIdx : Nat := 0                  -- 8 | Table 10.8 DESC_IDX | reset 0
  elemIdx : Nat := 0                  -- 18 | Table 10.8 ELEM_IDX | reset 0
  ring : List (Descriptor × Bool) := [] -- up to 256 descriptors with the cancelled mark of R329 | R316, PENDING of Table 10.8 | reset empty
  running : Bool := false             -- 1 | R316 the first descriptor has started | reset 0
  pausing : Bool := false             -- 1 | R328 PAUSE takes effect at the next boundary | reset 0
  flushing : Bool := false            -- 1 | R328 FLUSH takes effect at the next boundary | reset 0
deriving DecidableEq, Repr

/-- The transfer engine (Tables 10.7, 10.8) with its 256 event lines (R326, R327) and the bolter's placement table (R325). -/
structure Tre where
  chans : Tab TreCh := []             -- 64 channels | R314 | reset idle
  events : Tab (BitVec 32) := []      -- 256 pulse counters | R327 TRE_EVENT_l | reset 0
  placements : List (Nat × Nat × Nat × List Nat) := [] -- up to 128 rows: (arm, row, PAR_HEAD, slot or 2^32-1 by offset) | R325 | reset none
  tcm : Tab Block := []               -- 4 × 256 frames of tightly coupled memory | Table 10.2 | DESIGN CHOICE 0 (log entry 9)
  sent : List ((Nat × Nat) × Block × Word × Bool) := [] -- sectors that INTERLEAVE has sent: (arm, sector key), block, host tag, poison | R322, R323 | reset none
  streams : Tab (List Block) := []    -- 2 receive streams: blocks that a stream SCATTER has yet to take | R317 | reset empty
  tailrace : List (Nat × Descriptor) := [] -- (arm, descriptor) of the passes handed to the tailrace and not ended | R322 | reset none
deriving DecidableEq, Repr

/-- One flash block (R477, R480, R488). -/
structure FlashBlock where
  eraseCount : Nat := 0               -- 32 | R480 erase count, kept without power | DESIGN CHOICE 0 (log entry 5)
  flag : Bool := false                -- 1 | R488 erase-flag cell, kept without power | DESIGN CHOICE 0 (log entry 5)
  retired : Bool := false             -- 1 | R480, R495 retired-block list, kept without power | DESIGN CHOICE 0 (log entry 5)
  nextPage : Nat := 0                 -- 11 | R484 next unprogrammed page of a dense block | DESIGN CHOICE 0 (log entry 5)
  closed : Bool := false              -- 1 | R494 | reset 0
  refreshDue : Bool := false          -- 1 | R494 | reset 0
  refreshedAt : Option Nat := none    -- erase count at the last refresh | R495 | reset none
  torn : BitVec 1024 := 0             -- pages whose program or erase was cut, kept without power | R485, R489 | DESIGN CHOICE 0 (log entry 5)
deriving DecidableEq, Repr

/-- One bank (Table 16.9). -/
structure Bank where
  op : Nat := 0                       -- 2 | Table 16.9 OP | reset 0
  suspended : Bool := false           -- 1 | Table 16.9 SUSPENDED | reset 0
  block : Nat := 0                    -- 9 | Table 16.9 BLOCK | reset 0
  page : Nat := 0                     -- 10 | Table 16.9 PAGE | reset 0
  ceSect : Nat := 0                   -- 16 | Table 16.9 CE_SECT | reset 0
  ueSect : Nat := 0                   -- 16 | Table 16.9 UE_SECT | reset 0
  register : Option Nat := none       -- window page held in the page register | R479 | reset none
  pending : List (Nat × BitVec 8192) := [] -- (window sector, data) of the program in progress | R486 | reset none
  kind : Nat := 0                     -- 4 | R505 kind of the region that the operation works on | reset 0
  rblock : Nat := 0                   -- 9 | R505 region block that the operation works on | reset 0
  who : Option FlashReq := none       -- requester | Table 16.5: to whom the status goes | reset none
deriving DecidableEq, Repr

/-- A read of the transfer engine that waits for its bank (R490): a page read of a window sector, or a line through the fetch cache. -/
structure FlashWait where
  who : Option FlashReq := none
  sec : Nat := 0
  line : Option Nat := none
  steps : List (Bool × Nat) := []
deriving DecidableEq, Repr

/-- The flash controller (Tables 16.7, 16.8). `sectors` holds the programmed sectors by window sector number (16 a page). -/
structure Flash where
  state : Nat := 0                    -- 4 | Table 16.7 STATE | reset 0
  ucodeB : Bool := false              -- 1 | Table 16.7 UCODE_BANK | reset 0
  ucodeOtherOk : Bool := false        -- 1 | Table 16.7 UCODE_OTHER_OK | reset 0
  ucodePending : Bool := false        -- 1 | Table 16.7 UCODE_PENDING | reset 0
  selectedB : Bool := false           -- 1 | R480 microcode bank selector, kept without power | DESIGN CHOICE bank A (log entry 5)
  ucodeWrite : Option Nat := none     -- 32 + valid | R498 write point of the bank not in use | reset none
  plan : Option (List Region) := none -- region plan in the directory, kept without power | R480, R573 | DESIGN CHOICE none recorded (log entry 5)
  notErased : Nat := 0                -- 16 | Table 16.8 NOT_ERASED | reset 0
  outOfOrder : Nat := 0               -- 16 | Table 16.8 OUT_OF_ORDER | reset 0
  busyFault : Nat := 0                -- 16 | Table 16.8 BUSY_FAULT | reset 0
  halfErase : Nat := 0                -- 8 | Table 16.8 HALF_ERASE | reset 0
  retiredCnt : Nat := 0               -- 8 | Table 16.8 RETIRED | reset 0
  retry : Tab Nat := []               -- 8 × 8 | Table 16.8 FLS_RETRY | reset 0
  banks : Tab Bank := []              -- 8 banks | R477 | reset idle
  blocks : Tab FlashBlock := []       -- 4,096 blocks by bank × 512 + block | R477 | kept without power
  map : Tab Nat := []                 -- region block to physical block where it differs from the first layout, by (kind × 8 + bank) × 512 + block | R480, R494, kept without power | DESIGN CHOICE first layout (log entry 5)
  sectors : Tab (Option (BitVec 8192)) := [] -- programmed sectors, kept without power | R478 | DESIGN CHOICE erased (log entry 5)
  waits : List FlashWait := []        -- reads of the transfer engine that wait for a busy bank | R490 | reset none
  poolLow : Bool := false             -- 1 | R496 event 0x9A recorded | reset 0
  draining : Bool := false            -- 1 | R496 pool exhausted: draining before the stop | reset 0
deriving DecidableEq, Repr

/-- One fetch-cache entry (R500, R505). -/
structure FcEntry where
  valid : Bool := false               -- 1 | Table 16.10 VALID | reset 0
  line : Nat := 0                     -- 28 | R500 line number | reset 0
  locked : Bool := false              -- 1 | Table 16.10 LOCKED | reset 0
  owner : Nat := 0                    -- 3 | R505 requester that locked it | reset 0
  prefetched : Bool := false          -- 1 | Table 16.11 PF_USED: brought by a prefetch, not yet hit | reset 0
  data : BitVec 2048 := 0             -- 2,048 | R500 | DESIGN CHOICE 0 (log entry 9)
deriving DecidableEq, Repr

/-- The outstanding fill (R501, R506). -/
structure Fill where
  line : Nat := 0
  requester : Nat := 0
  prefetch : Bool := false
  entry : Option Nat := none
  waiting : List (Nat × Nat) := []  -- requester, access type
  lock : Bool := false
  killed : Bool := false
  data : BitVec 2048 := 0
deriving DecidableEq, Repr

/-- One requester's detector and counters (Table 16.11). -/
structure FcReq where
  stride : Int := 0                   -- 7 signed | Table 16.11 STRIDE | reset 0
  run : Nat := 0                      -- 2 | R507 consecutive equal strides | reset 0
  confirmed : Bool := false           -- 1 | Table 16.11 CONFIRMED | reset 0
  lastLine : Option Nat := none       -- 28 + valid | R507 last distinct line | reset none
  hits : Nat := 0                     -- 32 | Table 16.11 HITS | reset 0
  misses : Nat := 0                   -- 16 | Table 16.11 MISSES | reset 0
  pfUsed : Nat := 0                   -- 8 | Table 16.11 PF_USED | reset 0
  lockInval : Nat := 0                -- 8 | Table 16.11 LOCK_INVAL | reset 0
deriving DecidableEq, Repr

/-- The fetch cache (Table 16.10). -/
structure Fcc where
  entries : Tab FcEntry := []         -- 48 entries | R500 | reset invalid
  fill : Option Fill := none          -- record | Table 16.10 FILL_BUSY, FILL_REQ, FILL_PF | reset none
  waiters : List (Nat × Nat × Bool × Nat) := [] -- (requester, line, lock, access type) of misses that wait for the fill | R501 | reset none
  prefetches : List (Nat × Nat) := [] -- (requester, line) to prefetch | R507 | reset none
  lfsr : BitVec 16 := 0xACE1          -- 16 | Table 16.10 LFSR | reset 0xACE1
  reqs : Tab FcReq := []              -- 6 requesters | R500 | reset 0
deriving DecidableEq, Repr

end Sys2Proof.Machine
end

