-- ==== Sys2Proof/Machine/PartsHost.lean ====
section
/-! DEFINITION. Component records of the state, part 5: frame layer of the Lanlet ports and the partner link, injectors, hopper, sluice
and fantail, and what the block sends (chapters 11 to 14). Each field's comment gives its width, the rule or table that names it and
its reset value. -/

namespace Sys2Proof.Machine

/-- Link control and partner records that the part sends (Tables 11.4, 15.2). -/
inductive CtlRec where
  | sessionAccept (status : Nat) (compat : Bool) (sid : BitVec 32) (cmdCredits wdataCredits : Nat) (next first : BitVec 16)
  | sessionClose (reason : Nat) (sid : BitVec 32)
  | nak (seqs : List (BitVec 16))
  | keepalive (time : Word)
  | laneMap (lane reason : Nat)
  | laneMapDone (lane : Nat)
  | arbitrate (r : ArbRec)
  | heartbeat (standby : Bool) (state : BitVec 8) (time : Word) (dirty : BitVec 32)
  | confirm (frames : List Nat)
  | cmdCtx (port : Nat) (tag : BitVec 16) (arrival : BitVec 40) (opcode : BitVec 8) (lba : BitVec 48) (count : BitVec 32)
  | cpl (port : Nat) (r : CplRec)
  | cplAcked (port : Nat) (tag : BitVec 16) (arrival : BitVec 40)
  | rowCommit (row : Nat) (time : Nat)
  | layout (r : LayoutRec)
  | plan (r : PlanRec)
  | deferred (r : DeferredRec)
  | failstop (cause : BitVec 8)
  | handover (step : Nat) (reason : BitVec 8)
  | resync (step : Nat) (frames : Nat)
  | fetch (dir : Nat) (frame : Nat) (vseq : BitVec 40)
  | ment (es : List LedgerEntry)
  | mdata (frame : Nat) (fib : Nat) (data : Part512)
deriving DecidableEq, Repr

/-- What a numbered frame of the part carries, from which it is sent again (R346). -/
inductive TxBody where
  | cpl (records : List (CplRec ⊕ (BitVec 16 × Nat × Nat)))
  | rdata (tag : BitVec 16) (blk : Nat) (fib : Nat) (data : Part512)
  | mirror (r : CtlRec)
deriving DecidableEq, Repr

/-- A numbered frame that is not yet acknowledged (R344). -/
structure TxFrame where
  seq : BitVec 16 := 0
  body : TxBody
  sends : Nat := 1
  sentAt : Nat := 0
  /-- Its last sending was corrupted by injection (R360), and some sending was. -/
  corrupted : Bool := false
  hit : Bool := false
deriving DecidableEq, Repr

/-- A frame handed to the lanes (R339, R345): its SEQ, 0 for an unnumbered one, what it carries, the acknowledgement and credit fields of its
header, the bit that an injection inverts; `new` on the first sending of a numbered frame. -/
structure OutFrame where
  seq : BitVec 16 := 0
  body : TxBody ⊕ CtlRec
  ack : BitVec 16 := 0
  crClass : Nat := 0
  crTotal : Nat := 0
  flip : Option Nat := none
  new : Bool := false
deriving DecidableEq, Repr

/-- One transmit lane of a link (R337, R338). -/
structure LaneOut where
  bits : BitVec 8448 := 0             -- 8,448 | R338: two frames of the run under way | reset 0
  left : Nat := 0                     -- 6 | R338: data blocks of the run still to send | reset 0
  seqs : List (BitVec 16 × Nat) := [] -- numbered frames of the run, with the value of `left` at which each is fully sent | R345 | reset none
  laneIn : Nat := 0                   -- 16 | R338: codewords until a LANE block is due | reset 0
deriving DecidableEq, Repr

/-- One link of the frame layer: port A, port B or the partner link (Tables 11.9 to 11.11, R447, R448). -/
structure Link where
  link : Nat := 0                     -- 4 | Table 11.9 LINK, Table 15.12 LINK | reset 0
  session : Nat := 0                  -- 2 | Table 11.9 SESSION | reset 0
  compat : Bool := false              -- 1 | Table 11.9 MODE | reset 0
  txOut : Nat := 31                   -- 5 | Table 11.9 TX_OUT | reset 31 (port), 15 (partner)
  rxOut : Nat := 31                   -- 5 | Table 11.9 RX_OUT | reset 31 (port), 15 (partner)
  txSpareOk : Bool := false           -- 1 | Table 11.9 TX_SPARE_OK | reset 0
  rxSpareOk : Bool := false           -- 1 | Table 11.9 RX_SPARE_OK | reset 0
  sid : BitVec 32 := 0                -- 32 | Table 11.9 SESSION_ID | reset 0
  crcErr : Nat := 0                   -- 16 | Table 11.10 CRC_ERR | reset 0
  proto : Nat := 0                    -- 16 | Table 11.10 PROTO | reset 0
  outWindow : Nat := 0                -- 16 | Table 11.10 OUT_WINDOW | reset 0
  dup : Nat := 0                      -- 16 | Table 11.10 DUP | reset 0
  nakSent : Nat := 0                  -- 16 | Table 11.10 NAK_SENT | reset 0
  nakRcvd : Nat := 0                  -- 16 | Table 11.10 NAK_RCVD | reset 0
  timerReplay : Nat := 0              -- 16 | Table 11.10 TIMER_REPLAY | reset 0
  creditViol : Nat := 0               -- 16 | Table 11.10 CREDIT_VIOL | reset 0
  lanes : Tab LaneErr := []           -- 17 receive lanes | Table 11.11 | reset 0
  next : BitVec 16 := 0               -- 16 | R342 NEXT | reset 0
  held : List (BitVec 16 × LinkFrame) := [] -- up to 256 frames of the window | R342 | reset none
  gapTimer : Bool := false            -- 1 | R344 gap timer runs | reset 0
  ackDue : Bool := false              -- 1 | R343 an acknowledgement is owed | reset 0
  txSeq : BitVec 16 := 0              -- 16 | R341 SEQ of the next numbered frame | reset 0
  unacked : List TxFrame := []        -- up to 4,096 frames, oldest first | R345 | reset none
  granted : Tab Nat := []             -- credits granted so far per class | R348 | reset 0
  used : Tab Nat := []                -- frames received per class | R349 | reset 0
  intake : List WData := []           -- write data delivered and not yet moved by an intake channel, oldest first | R349 | reset none
  credit : Tab Nat := []              -- credits held per class for sending | R348 | reset 0
  peerTotal : Tab Nat := []           -- low 12 bits of the peer's CR_TOTAL last taken | R348 | reset 0
  attempts : Nat := 0                 -- 2 | R354 failed attempts in a row | reset 0
  wasUp : Bool := false               -- 1 | R356 the link has been up, so a training is a retraining | reset 0
  trainEventAt : Option Nat := none   -- 64 + valid | R354 last event 0x73 | reset none
  protoTimes : List Nat := []         -- times of the last 1 ms | Table 11.12 event 0x77 | reset none
  uncorrTimes : List (Nat × Nat) := [] -- (lane, time) of the last 1 ms | R355 | reset none
  txWait : List CtlRec := []          -- partner records that wait for credit, replay room or the link | R345, R348 | reset none
  ready : List OutFrame := []         -- frames that wait for a lane to start a run | R338, R345 | reset none
  laneOut : Tab LaneOut := []         -- 17 (9) transmit lanes | R336, R338, R447 | reset idle
  crTurn : Nat := 0                   -- 2 | R348: class whose CR_TOTAL the next frame carries | reset 0
  mapping : Option (Nat × Nat) := none -- (lane, reason) of the LANE_MAP that waits for its answer | R355, Table 11.4 | reset none
deriving DecidableEq, Repr

/-- One port's injector (Tables 11.7, 11.8). -/
structure Injector where
  action : Nat := 0                   -- 2 | Table 11.7 ACTION | reset 0
  byProb : Bool := false              -- 1 | Table 11.7 SELECT | reset 0
  mask : BitVec 6 := 0                -- 6 | Table 11.7 FTYPE_MASK | reset 0
  countN : Nat := 1                   -- 16 | Table 11.7 COUNT_N | reset 1
  limit : Nat := 0                    -- 16 | Table 11.7 LIMIT | reset 0
  reorderD : Nat := 1                 -- 4 | Table 11.7 REORDER_D | reset 1
  corruptBit : Nat := 0               -- 13 | Table 11.7 CORRUPT_BIT | reset 0
  prob : Nat := 0                     -- 32 | Table 11.8 PROB | reset 0
  actions : Nat := 0                  -- 32 | Table 11.8 ACTIONS | reset 0
  nakInduced : Nat := 0               -- 16 | Table 11.8 NAK_INDUCED | reset 0
  left : Nat := 0                     -- 16 | Table 11.8 DONE_LEFT | reset 0
  seen : Nat := 0                     -- 16 | R359 eligible frames since the last action | reset 0
  draws : Nat := 0                    -- LFSR draws since it was seeded | R359 | reset 0
  delayed : List (LinkFrame × Nat) := [] -- frames held for REORDER with the frames still to pass | R358 | reset none
  dropped : List (BitVec 16) := []    -- SEQs dropped by injection | R360 | reset none
  late : List (BitVec 16) := []       -- SEQs asked for again while REORDER delays them: a second copy will come | R360 | reset none
  lastAct : Option Nat := none        -- 64 + valid: when a received frame was last dropped or delayed | R360 | reset none
deriving DecidableEq, Repr

/-- Phase of an admitted command. -/
inductive Phase where | held | waiting | running | issued
deriving DecidableEq, Repr

/-- Where a READ takes one block from (R298). -/
inductive BlockSrc where
  | frame (f : Nat)
  | medium
  | slot (k : Nat)
  /-- A block that the WRITE of an arrival number has not been granted yet. -/
  | write (arrival : Nat)
  | lost
  | sent
deriving DecidableEq, Repr

/-- A hopper context (R370, Table 12.1). -/
structure Cmd where
  port : Nat := 0
  arrival : Nat := 0
  cap : Capsule := {}
  phase : Phase := .waiting
  /-- It passed every check of Table 12.4 and holds a hopper context; one refused at a later step than the first holds its tag alone (R370, R371). -/
  admitted : Bool := true
  /-- Uptime at arrival (R395). -/
  at_ : Nat := 0
  /-- WRITE: the standby was SYNCED at its arrival, so mirror acknowledgement applies (R457). -/
  needMirror : Bool := false
  /-- WRITE: blocks granted so far (R374). -/
  granted : Nat := 0
  /-- WRITE: granted ranges that have not wholly landed: (first, blocks, time). -/
  grants : List (Nat × Nat × Nat) := []
  /-- WRITE: frame of each granted block, by block index. -/
  frames : List (Nat × Nat) := []
  /-- WRITE, MICROCODE_WRITE: blocks landed. -/
  landed : List Nat := []
  /-- WRITE: landed blocks that the partner has confirmed (R377). -/
  confirmed : List Nat := []
  /-- WRITE: blocks not yet landed of which a newer version has been committed (R297). -/
  overtaken : List Nat := []
  /-- MICROCODE_WRITE: parts of the blocks in arrival. -/
  staged : List (Nat × Nat × Part512) := []
  /-- READ: source of each block in order; VERIFY and FLUSH: the versions waited for as (LBA, VSEQ). -/
  srcs : List BlockSrc := []
  waits : List (Nat × Nat) := []
  /-- READ: next block to release and next part of it. -/
  sent : Nat := 0
  fib : Nat := 0
  /-- Data of the commands that return blocks of their own (IDENTIFY, LOG_READ …). -/
  reply : List Block := []
  result : Option CplRec := none
  /-- MICROCODE_WRITE with COMMIT: what the validation of its target will find, and the version it holds. -/
  verdict : Option (Bool × BitVec 32) := none
deriving DecidableEq, Repr

/-- What one port's queues and counters hold (Tables 12.14, 12.15). -/
structure HopPort where
  cpls : List (CplRec ⊕ (BitVec 16 × Nat × Nat)) := [] -- completion queue: completions and grants in issue order | R366, R386 | reset empty
  deferred : List DeferredRec := []   -- up to 256 pending records, oldest first, held in flash | R391 | DESIGN CHOICE none (log entry 5)
  tagInUse : Nat := 0                 -- 16 | Table 12.15 TAG_IN_USE | reset 0
  holdLimit : Nat := 0                -- 16 | Table 12.15 HOLD_LIMIT | reset 0
  dataStray : Nat := 0                -- 16 | Table 12.15 DATA_STRAY | reset 0
  wdataTo : Nat := 0                  -- 16 | Table 12.15 WDATA_TO | reset 0
  holdEventAt : Option Nat := none    -- 64 + valid | R396 last event 0x0E | reset none
  holdSince : Nat := 0                -- 16 | R396 instances since the last event 0x0E | reset 0
deriving DecidableEq, Repr

/-- The hopper (Table 12.13). -/
structure Hopper where
  nextArrival : Nat := 0              -- 40 | R370, Table 12.13 NEXT_ARR | reset 0
  cmds : List Cmd := []               -- up to 16,384 contexts in arrival order | R371 | reset none
  ports : Tab HopPort := []           -- ports A and B | R401, R402 | reset 0
  nextDeferred : Nat := 0             -- 32 | Table 12.10 INDEX of the next record, held in flash | DESIGN CHOICE 0 (log entry 4)
  autoSpin : Bool := true             -- 1 | R382 spin policy | reset default 1 (Table 12.11)
  closed : Bool := false              -- 1 | R398, R309, R412, R496: admits nothing | reset 0
  spinWait : Bool := false            -- 1 | R382 ACTION 1 waits for the budget or for Parked | reset 0
  stopCause : BitVec 8 := 0           -- 8 | Table 12.4 step 2: event code of the cause of the stop | reset 0
deriving DecidableEq, Repr

/-- A visit of the fantail (R430–R432): kind 0 channel, 1 probe, 2 calibration, its zone, and the probe group's linear reserve group
index. -/
structure Visit where
  kind : Nat := 0
  zone : Nat := 0
  group : Nat := 0
deriving DecidableEq, Repr

/-- What a visit has gathered on one head in one pass, level or heater step: decodes and their iterations (R438), and a sum with the number
of its terms: e_0² + e_1² over cells (R437), MSE of checks (R431), HR of wedges (R432). -/
structure VisitSum where
  words : Nat := 0
  iters : Nat := 0
  fails : Nat := 0
  sum : Int := 0
  count : Nat := 0
deriving DecidableEq, Repr

/-- An operation granted to an arm (R414). -/
structure ArmOp where
  kind : OpKind
  /-- Arm whose row it is; the running arm but for a relocated share (R56). -/
  lArm : Nat := 0
  row : Nat := 0
  /-- Sectors that it reads or writes, 32h + 16t + s. -/
  want : List Nat := []
  heads : List Nat := []
  track : Nat := 0
  repair : Bool := false
  /-- Relocated shares (row, head) of its arm's rows that a prefetch visit reads (R64). -/
  batch : List (Nat × Nat) := []
  /-- The fantail visit that it is. -/
  visit : Option Visit := none
  /-- Per head of a visit: pass of Table 14.1's visit or heater step, and the wedges counted in it (R430–R432). -/
  steps : List (Nat × Nat × Nat) := []
  /-- What the visit has gathered, by 64 × head + pass, level or step. -/
  sums : Tab VisitSum := []
  /-- (head, HR_CAL, CLR_CAL) that a calibration visit has found (R432). -/
  cals : List (Nat × Int × Int) := []
  /-- First slot of its frames. -/
  slot : Nat := 0
  /-- Power of its seek in mW (R406); 0 without one. -/
  seekPower : Nat := 0
  at_ : Nat := 0
  arrival : Nat := 0
deriving DecidableEq, Repr

/-- Work that waits for an arm (R416). -/
structure Work where
  arm : Nat := 0
  kind : OpKind
  lArm : Nat := 0
  row : Nat := 0
  want : List Nat := []
  heads : List Nat := []
  track : Nat := 0
  /-- Repair work under R63: rebuild reads and writes, relocation moves, relocation prefetch. -/
  repair : Bool := false
  /-- Relocated shares (row, head) of its arm's rows that a prefetch visit reads (R64). -/
  batch : List (Nat × Nat) := []
  /-- The fantail visit that it is. -/
  visit : Option Visit := none
  arrival : Nat := 0
  at_ : Nat := 0
deriving DecidableEq, Repr

/-- One thermal sensor of Table 13.3 (R410): 0 part die, 1+a FZA816 of arm a, 9+a head stack of arm a. -/
structure Thermal where
  reports : List (Nat × Int) := []    -- (time, reading) of the sliding window | R410 | reset none
  mean : Int := 0                     -- 16 signed | R410 filtered temperature | reset 0
  level : Nat := 0                    -- 2 | Table 13.9 levels | reset 0
  unreported : Bool := false          -- 1 | R410 counts as at CRIT | reset 0
  was : Nat := 0                      -- 2 | R410 level of the readings while it counts as at CRIT | reset 0
deriving DecidableEq, Repr

/-- The sluice (Tables 13.7 to 13.10). Budgets are in 0.1 W; none is no limit. -/
structure Sluice where
  host : Option Nat := none           -- 32 | R403, Table 13.7 HOST | reset 0xFFFF (no limit)
  pwm : Option Nat := none            -- 32 | R404, Table 13.7 PWM | reset 0xFFFF (no limit)
  granted : Option Nat := none        -- 32 | R403, Table 13.7 GRANTED | reset 0xFFFF (no limit)
  pwmState : Nat := 0                 -- 2 | Table 13.7 PWM_STATE | reset 0
  duties : List (Nat × Nat) := []     -- last 8 valid periods as (high, period) | R404 | reset none
  decoded : List (Nat × Option Nat) := [] -- (time until which it held, value) decoded over the last 100 ms, the last one in force | R405 | reset none
  thermal : Tab Thermal := []         -- 17 sensors | R410 | reset 0
  powerWait : Nat := 0                -- 16 | Table 13.10 POWER_WAIT | reset 0
  thermWait : Nat := 0                -- 16 | Table 13.10 THERM_WAIT | reset 0
  floorShort : Nat := 0               -- 16 | Table 13.10 FLOOR_SHORT | reset 0
  ageOverride : Nat := 0              -- 16 | Table 13.10 AGE_OVERRIDE | reset 0
  floorEventAt : Option Nat := none   -- 64 + valid | Table 13.6 last event 0xC7 | reset none
  short : Bool := false               -- 1 | R28 the budget is below the floor | reset 0
  ops : Tab (Option ArmOp) := []      -- operation of each arm | R414 | reset none
  chosen : Tab (Option Work) := []    -- choice of an arm that waits under R419 | R419 | reset none
  line : List Nat := []               -- arms that wait with a choice, in the order of their places | R419 | reset none
  thermHeld : List Work := []         -- work that a thermal limit holds, counted once | R411, Table 13.10 | reset none
  decideAt : Tab Nat := []            -- uptime at each arm's last decision point | R414, R419 | reset 0
  lastGrant : Tab Nat := []           -- time of each arm's last grant | R419 | reset 0
  fanNoted : Tab Nat := []            -- time of each arm's last event 0xC8 | Table 13.6 | reset 0
  work : List Work := []              -- work that waits | R416 | reset none
  shares : List (Nat × Nat × Nat × Nat) := [] -- (arm, class, end time, length) of operations of the last 1 s | R29, R63, R418 | reset none
  driveSince : Option Nat := none     -- 64 + valid | R408 first drive since the last start or catch | reset none
  spinPower : List (Nat × Int) := []  -- (time, mW) of motor input over the last 100 ms | R406 | reset none
deriving DecidableEq, Repr

/-- A trend series (R443): kind, location, daily points (day, value, samples). -/
structure Trend where
  kind : Nat := 0
  loc : Loc := {}
  points : List (Nat × Int × Nat) := []
  monthly : List (Nat × Int × Nat) := []
deriving DecidableEq, Repr

/-- A re-planned value in force (R441). -/
structure PlanVal where
  kind : Nat := 0
  loc : Loc := {}
  value : Int := 0
  /-- Second value of a pair: CLR_WR, CLR_CAL. -/
  second : Int := 0
  /-- The image's values, from which the limits of Table 14.3 count. -/
  image : Int := 0
  image2 : Int := 0
deriving DecidableEq, Repr

/-- The fantail (Tables 14.8, 14.9). -/
structure Fantail where
  notRestored : Bool := false         -- 1 | Table 14.8 STATE 3: the plan store was not restored | reset 0
  watch : List (Loc × Nat) := []      -- head and zone pairs with the time of the last re-plan or of a margin below its minimum | R436, Table 14.8 WATCH | reset none
  visits : Nat := 0                   -- 16 | Table 14.8 VISITS | reset 0
  replans : Nat := 0                  -- 16 | Table 14.8 REPLANS | reset 0
  exhausted : Nat := 0                -- 16 | Table 14.8 EXHAUSTED | reset 0
  spent : List (Nat × Loc) := []      -- (row of Table 14.4, location) of margins that are exhausted | R442 | reset none
  days : Nat := 0xFFFF                -- 16 | Table 14.9 DAYS | reset 0xFFFF
  kind : Nat := 0                     -- 8 | Table 14.9 KIND | reset 0
  arm : Nat := 0                      -- 3 | Table 14.9 ARM | reset 0
  head : Nat := 0                     -- 3 | Table 14.9 HEAD | reset 0
  zone : Nat := 0                     -- 6 | Table 14.9 ZONE | reset 0
  computed : Nat := 0                 -- 16 | Table 14.9 COMPUTED | reset 0
  plan : List PlanVal := []           -- plan store, held in flash | R441 | DESIGN CHOICE empty (log entry 5)
  planDigest : BitVec 256 := 0        -- 256 | R441 digest of the image it was planned from, held in flash | DESIGN CHOICE 0 (log entry 5)
  parts : List PlanRec := []          -- PLAN records from the partner of values that are not whole yet | R441 | reset none
  trends : List Trend := []           -- trend region, held in flash | R443 | DESIGN CHOICE empty (log entry 5)
  due : List PlanVal := []            -- committed values that wait for a row boundary | R30, R440 | reset none
  dueLaws : List (Nat × Nat × Nat) := [] -- (context, base, sections) of re-planned laws that wait for a row boundary | R30, R228 | reset none
  cands : List (Loc × Nat) := []      -- candidate channel sets that wait for a channel visit | R430, R438 | reset none
  today : List (Nat × Loc × Int × Nat) := [] -- (kind, location, sum, number) of the day's margins | R443 | reset none
  iters : Tab (List Nat) := []        -- 21 counts of first decodes from host reads, by 64 × head + zone | Table 14.1 | reset 0
  checks : Tab (Nat × Nat) := []      -- MARGINAL and FAIL results of host writes, by 64 × head + zone | Table 14.1 | reset 0
  kts : List (Nat × Int) := []        -- (arm, Kt / Kt_image in 2^-15) of long seeks that wait for their evaluation | Table 14.1 | reset none
  confirm : List Loc := []            -- adopted channel sets whose confirmation visit is due | R438 | reset none
  laws : List (Nat × Nat × List (BitVec 256)) := [] -- (context, base, entries) of re-planned laws, in the plan store, held in flash | R439, R441 | DESIGN CHOICE empty (log entry 5)
  visitAt : Tab Nat := []             -- 64 per (arm, zone, kind): last visit | R429 | reset 0
  visitNo : Tab Nat := []             -- visits made per (arm, zone, kind) | R430, R431 | reset 0
  resched : Tab Nat := []             -- visits scheduled again in a row per (arm, zone, kind) | R435 | reset 0
  slackLow : Int := 0                 -- 8 signed | Table 14.1 least slack of the running 60 s | reset 0
  slackSeen : Bool := false           -- 1 | Table 14.1 a slack reading fell in the running 60 s | reset 0
  slackHighSince : Option Nat := none -- 64 + valid | Table 14.3 slack above SLACK_MIN + 20 ps since | reset none
  coreStop : Bool := false            -- 1 | Table 14.4 core slack exhausted: flushing before the stop | reset 0
deriving DecidableEq, Repr

/-- What the block sends: the model's own record of its outputs, newest last. -/
inductive Tx where
  /-- A numbered frame handed to the lanes, with its ACKSEQ, the credit class and CR_TOTAL it carries, and the bit an injection inverted. -/
  | frame (link : Nat) (seq : BitVec 16) (body : TxBody) (ack : BitVec 16) (crClass crTotal : Nat) (flip : Option Nat)
  | lctl (link : Nat) (r : CtlRec) (ack : BitVec 16) (crClass crTotal : Nat)
  /-- One codeword on a physical transmit lane of a link (R337). -/
  | codeword (link lane : Nat) (bits : BitVec 5440)
  /-- A control message handed to an arm-link engine, which puts its words into rounds (R82, R84). -/
  | alk (arm : Nat) (m : AlkMsg)
  /-- A physical downlink lane of an arm sends PRBS31 with a transmitter preset, or is electrically idle (R93). -/
  | prbs (arm lane preset : Nat)
  | quiet (arm lane : Nat)
  /-- A physical transmit lane of a port or of the partner link sends PRBS31 with a transmitter preset (R354, R447). -/
  | lanePrbs (link lane preset : Nat)
  /-- One block on a physical downlink lane (R72). -/
  | block (arm lane : Nat) (codeword : BitVec 2720)
  /-- A DO frame of a VCM driver (Table 6.6b). -/
  | vcm (arm : Nat) (frame : Word)
  | gates (on : Bool)
  /-- High-side shares of phases A, B and C in the next PWM period, and the dead time in ns at each transition (R240, R243). -/
  | duty (a b c : Rat) (dead : Nat)
  | chopper (on : Bool)
  | avs (mv : Nat)
  | doorbell (queue : Nat)
  | fetched (requester : Nat) (status : Nat) (data : BitVec 2048)
  | flashStatus (who : FlashReq) (status : Nat)
  /-- The data of a sector that a requester has read (R478, R492). -/
  | flashData (who : FlashReq) (data : BitVec 8192)
  | popped (queue : Nat) (status : Nat) (word : Word)
  | jtag (value : BitVec 264)
  /-- Boundary-scan cells shifted out. -/
  | bscan (bits : List Bool)
deriving DecidableEq, Repr

end Sys2Proof.Machine
end

