-- ==== Sys2Proof/Machine/PartsMotion.lean ====
section
/-! DEFINITION. Component records of the state, part 3: governor and spindle (chapters 7 and 8). Each field's comment gives its
width, the rule or table that names it and its reset value. -/

namespace Sys2Proof.Machine

/-- State of one section position (R214). -/
structure SecState where
  x1 : Int := 0
  x2 : Int := 0
  y1 : Int := 0
  y2 : Int := 0
  /-- Consecutive samples in which the section's output was saturated (R224, Table 7.5). -/
  satRun : Nat := 0
deriving DecidableEq, Repr

/-- One loop context (Tables 7.2, 7.10). -/
structure Ctx where
  enable : Bool := false              -- 1 | Table 7.2 ENABLE | reset 0
  fmt : Bool := false                 -- 1 | Table 7.2 FMT | reset 0
  nServ : Nat := 0                    -- 5 | Table 7.2 N_SERV | reset Image; 0 until the image is loaded (DESIGN CHOICE, log entry 8)
  servBase : Nat := 0                 -- 11 | Table 7.2 SERV_BASE | reset Image; 0 until loaded (log entry 8)
  deadline : Nat := 0                 -- 16 | Table 7.2 DEADLINE | reset Image; 0 until loaded (log entry 8)
  inSign : Bool := false              -- 1 | Table 7.2 IN_SIGN | reset Image; 0 until loaded (log entry 8)
  outMax : Int := 0                   -- 32 signed | Table 7.2 OUT_MAX | reset Image; 0 until loaded (log entry 8)
  outMin : Int := 0                   -- 32 signed | Table 7.2 OUT_MIN | reset Image; 0 until loaded (log entry 8)
  ramp : Nat := 0                     -- 32 | Table 7.2 RAMP | reset Image; 0 until loaded (log entry 8)
  swLimit : Nat := 0                  -- 16 | Table 7.2 SW_LIMIT | reset Image; 0 until loaded (log entry 8)
  swCount : Nat := 0                  -- 16 | Table 7.2 SW_COUNT | reset Image; 0 until loaded (log entry 8)
  setpoint : Int := 0                 -- 32 signed | Table 7.2 SETPOINT | reset Image; 0 until loaded (log entry 8)
  rEff : Int := 0                     -- 32 signed | Table 7.2 R_EFF | reset 0
  secs : List SecState := []          -- up to 16 positions | R214 | reset cleared
  rampK : Option Nat := none          -- samples since the soft start began | R222 | reset none
  sat : Nat := 0                      -- 2 | Table 7.10 SAT | reset 0
  frozen : Bool := false              -- 1 | Table 7.10 FROZEN | reset 0
  overrun : Nat := 0                  -- 8 | Table 7.10 OVERRUN | reset 0
  latency : Nat := 0                  -- 16 | Table 7.10 LATENCY | reset 0
  out : Int := 0                      -- 32 signed | Table 7.10 OUT | reset 0
  failTimes : List Nat := []          -- times of failures of the last 24 h; FAILS of Table 7.10 | R234 | reset none
  ovrRun : Nat := 0                   -- 2 | Table 7.5 consecutive OVERRUN samples | reset 0
  inRun : Nat := 0                    -- 16 | R225 consecutive samples within SW_LIMIT | reset 0
  request : Option Nat := none        -- samples since the switch was requested | R225 | reset none
  failed : Bool := false              -- 1 | R233, R234 returned to its start law and not yet switched back | reset 0
deriving DecidableEq, Repr

/-- A sine generator (R235). -/
structure Sine where
  on : Bool := false                  -- 1 | R235 | reset 0
  ctx : Nat := 0                      -- 8 | R235 | reset 0
  amplitude : Nat := 0                -- 16 | R235 | reset 0
  freq : Nat := 0                     -- 32 | R235 | reset 0
  periods : Nat := 0                  -- 16 | R235 | reset 0
  sample : Nat := 0                   -- samples injected | R235 | reset 0
  sumES : Int := 0                    -- sum of error × sine | R235 | reset 0
  sumEC : Int := 0                    -- sum of error × cosine | R235 | reset 0
  sumOS : Int := 0                    -- sum of output × sine | R235 | reset 0
  sumOC : Int := 0                    -- sum of output × cosine | R235 | reset 0
deriving DecidableEq, Repr

/-- One trace channel (Tables 7.6, 7.8, R236). -/
structure TraceCh where
  mode : Nat := 0                     -- 2 | Table 7.6 MODE | reset 0
  ctx : Nat := 0                      -- 8 | Table 7.6 CTX | reset 0
  tap : Nat := 0                      -- 5 | Table 7.6 TAP | reset 0
  decim : Nat := 1                    -- 16 | Table 7.6 DECIM | reset 1
  state : Nat := 0                    -- 2 | Table 7.8 STATE | reset 0
  trigIdx : Nat := 0                  -- 16 | Table 7.8 TRIG_IDX | reset 0
  swSeen : Bool := false              -- 1 | Table 7.8 SW_SEEN | reset 0
  swIdx : Nat := 0                    -- 16 | Table 7.8 SW_IDX | reset 0
  writeIdx : Nat := 0                 -- 16 | R236 next buffer index | reset 0
  left : Nat := 0                     -- 17 | R236 samples still to record after the trigger | reset 0
  execs : Nat := 0                    -- 16 | Table 7.6 executions since the last sample | reset 0
  last : Int := 0                     -- 32 signed | Table 7.7 EDGE: the last sample | reset 0
  buf : Tab (BitVec 32) := []         -- 65,536 samples of 32 bits | R236 | DESIGN CHOICE 0 (log entry 9)
deriving DecidableEq, Repr

/-- The governor (Tables 7.7, 7.9). -/
structure Gov where
  ctxs : Tab Ctx := []                -- 160 contexts | R211 | reset disabled
  store : Tab (BitVec 256) := []      -- 2,048 section entries | R214 | reset 0, written at image load
  eccCe : Nat := 0                    -- 16 | Table 7.9 ECC_CE | reset 0
  burst : Nat := 0                    -- 12 | Table 7.9 BURST | reset 0
  sines : Tab Sine := []              -- 4 generators | R235 | reset off
  trace : Tab TraceCh := []           -- 8 channels | R236 | reset idle
  armed : Bool := false               -- 1 | Table 7.7 ARM | reset 0
  src : Nat := 0                      -- 3 | Table 7.7 SRC | reset 0
  trigCh : Nat := 0                   -- 3 | Table 7.7 CH | reset 0
  trigEvent : BitVec 8 := 0           -- 8 | Table 7.7 EVENT | reset 0
  pre : Nat := 0                      -- 7 | Table 7.7 PRE | reset 0
  edge : Bool := false                -- 1 | Table 7.7 EDGE | reset 0
  fire : Bool := false                -- 1 | Table 7.7 FIRE | reset 0
  level : Int := 0                    -- 32 signed | Table 7.7 LEVEL | reset 0
  traceTime : Nat := 0                -- 64 | R237 GOV_TRACE_TIME | reset 0
deriving DecidableEq, Repr

/-- The observer of R248, in exact arithmetic: currents in mA, voltages in mV, angles in rad, angular speed in rad/s. -/
structure Observer where
  iA : Rat := 0                       -- i_hat, alpha axis | R248 | reset 0
  iB : Rat := 0                       -- i_hat, beta axis | R248 | reset 0
  eA : Rat := 0                       -- e_hat, alpha axis | R248 | reset 0
  eB : Rat := 0                       -- e_hat, beta axis | R248 | reset 0
  omega : Rat := 0                    -- omega_hat_e | R248 | reset 0
  theta : Rat := 0                    -- theta_hat | R248 | reset 0
  eps : Rat := 0                      -- eps of the last period | R248 | reset 0
  vA : Rat := 0                       -- commanded voltage, alpha axis | R248 | reset 0
  vB : Rat := 0                       -- commanded voltage, beta axis | R248 | reset 0
deriving DecidableEq, Repr

/-- Spindle control (Tables 8.6 to 8.10). -/
structure Spindle where
  mode : Nat := 0                     -- 4 | Table 8.6 MODE | reset 0
  dir : Bool := false                 -- 1 | Table 8.6 DIR | reset 0
  lock : Bool := false                -- 1 | Table 8.6 LOCK | reset 0
  window : Bool := false              -- 1 | Table 8.6 WINDOW | reset 0
  vlimit : Bool := false              -- 1 | Table 8.6 VLIMIT | reset 0
  chopOn : Bool := false              -- 1 | Table 8.6 CHOP_ON | reset 0
  chopFault : Nat := 0                -- 2 | Table 8.6 CHOP_FAULT | reset 0
  budgetPause : Bool := false         -- 1 | Table 8.6 BUDGET_PAUSE | reset 0
  curvePt : Nat := 0                  -- 4 | Table 8.6 CURVE_PT | reset 0
  lastEvent : BitVec 8 := 0           -- 8 | Table 8.6 LAST_EVENT | reset 0
  speed : Int := 0                    -- 32 signed, 2^-16 rpm | Table 8.7 SPEED | reset 0
  vbus : Nat := 0                     -- 16 | Table 8.8 VBUS | reset 0
  ichop : Nat := 0                    -- 16 | Table 8.8 I_CHOP | reset 0
  iD : Int := 0                       -- 16 signed, 2 mA units | Table 8.8 I_D | reset 0
  iQ : Int := 0                       -- 16 signed, 2 mA units | Table 8.8 I_Q | reset 0
  keMeas : Nat := 0                   -- 16 | Table 8.9 KE_MEAS | reset 0
  keRatio : Nat := 0                  -- 16 | Table 8.9 KE_RATIO | reset 0
  catchRpm : Int := 0                 -- 16 signed | Table 8.9 CATCH_RPM | reset 0
  rEst : Nat := 0                     -- 16, 0.1 mOhm | Table 8.9 R_EST | reset 0
  clip : Nat := 0                     -- 16 | Table 8.10 CLIP | reset 0
  srcDrop : Nat := 0                  -- 16 | Table 8.10 SRC_DROP | reset 0
  catches : Nat := 0                  -- 8 | Table 8.10 CATCHES | reset 0
  overcurrent : Nat := 0              -- 8 | Table 8.10 OVERCURRENT | reset 0
  windowExit : Nat := 0               -- 8 | Table 8.10 WINDOW_EXIT | reset 0
  chopper : Nat := 0                  -- 8 | Table 8.10 CHOPPER | reset 0
deriving DecidableEq, Repr

/-- What spindle control keeps between steps and no register shows. -/
structure SpindleCtl where
  obs : Observer := {}                -- record | R248 | reset 0
  gates : Bool := false               -- 1 | R240 the six gate outputs are driven (0: all held low) | reset 0
  offA : Int := 0                     -- offset of shunt A | R242 | reset 0
  offB : Int := 0                     -- offset of shunt B | R242 | reset 0
  offC : Int := 0                     -- offset of shunt C | R242 | reset 0
  offsetsDone : Bool := false         -- 1 | R242, R270 an offset measurement has completed | reset 0
  offsetSum : Int × Int × Int := (0, 0, 0) -- conversions of the running offset measurement | R242 | reset 0
  offsetN : Nat := 0                  -- 11, up to 1,024 | R242 samples of it | reset 0
  duty : Rat × Rat × Rat := (1 / 2, 1 / 2, 1 / 2) -- high-side share of the running period, phases A to C | R243 | DESIGN CHOICE 1/2 (log entry 45)
  badPeriods : Nat := 0               -- 2 | Table 8.5 periods with a conversion missing or out of range | reset 0
  ocTimes : List Nat := []            -- times of the last 1 s | Table 8.5 overcurrent instances | reset none
  recatchDue : Bool := false          -- 1 | Table 8.5, R266 a catch is owed | reset 0
  openAt : Nat := 0                   -- 64 | R260 start of open-loop drive | reset 0
  fromRest : Bool := false            -- 1 | R260 the running start began at rest | reset 0
  handoffFails : Nat := 0             -- 2 | R260 handoff failures of this start | reset 0
  gatesOffPeriods : Nat := 0          -- 2 | R265 periods with gates off after a limit | reset 0
  generatorEnded : Bool := false      -- 1 | R268, R269 generation ended for this Hold-up | reset 0
  shortBrakeHu : Bool := false        -- 1 | R268 short-brake above V_BUS_MAX | reset 0
  overvolt : Bool := false            -- 1 | R266 gates held off after overvoltage | reset 0
  iqSet : Int := 0                    -- mA | R245, R262 i_q* | reset 0
  source : Bool := false              -- 1 | R250 0 observer, 1 wedges | reset 0
  decim : Nat := 0                    -- 5 | R250 periods or wedges since the last sample | reset 0
  goodMeans : Nat := 0                -- 10 | R253, R600 consecutive means within 0.008% | reset 0
  everWindow : Bool := false          -- 1 | R600 the window has been entered since spin-up | reset 0
  means : List Int := []              -- up to 96 of 32 signed | R253 speeds of the last wedges | reset none
  lockEps : List Rat := []            -- up to 48 | R249 |eps| of the last 1 ms | reset none
  lockRun : Nat := 0                  -- 7, up to 96 | R249 periods with |e_hat| at 50% or more | reset 0
  epsRun : Nat := 0                   -- 7, up to 96 | R249 periods with |eps| above 0.5 rad | reset 0
  faintRun : Nat := 0                 -- 7, up to 96 | R249 periods with |e_hat| below 25% | reset 0
  catchN : Nat := 0                   -- 12, up to 3,840 | R257 samples of the catch measurement | reset 0
  catchTurn : Rat := 0                -- rad | R257 rotation over them | reset 0
  catchSum : Rat := 0                 -- mV | R257 sum of their magnitudes | reset 0
  catchMax : Rat := 0                 -- mV | R257 greatest magnitude | reset 0
  catchLast : Option (Rat × Rat) := none -- mV | R257 last back-EMF vector | reset none
  keTemp : Rat := 25                  -- °C | R434 T of the last Ke measurement | reset 25 (R258)
  rSum : Rat := 0                     -- Ω | R434 sum of the period's resistances | reset 0
  rCount : Nat := 0                   -- 19 | R434 periods with |i_q| of at least 2 A | reset 0
  genLow : Nat := 0                   -- 9, up to 480 | R269 periods at −GEN_IMAX with V_BUS below 10.0 V | reset 0
  nearSince : Option Nat := none      -- 64 + valid | R261 within ±0.5% since | reset none
  outSince : Option Nat := none       -- 64 + valid | R253 out of the window since | reset none
  satSince : Option Nat := none       -- 64 + valid | R247 saturated since | reset none
  startAt : Nat := 0                  -- 64 | R261 start of spin-up for SU_TIMEOUT | reset 0
  pausedFor : Nat := 0                -- 64 | R255 time spent in budget pauses | reset 0
  pauseSince : Nat := 0               -- 64 | R255 start of the running pause | reset 0
  stopping : Bool := false            -- 1 | R262 controlled spin-down runs | reset 0
  restart : Bool := false             -- 1 | R242, R260 the one more start after a failed handoff is due | reset 0
  unmeasured : Bool := false          -- 1 | R270 no catch since this part took the power stage over | reset 0
  vbusRises : Bool := false           -- 1 | R264 V_BUS rose in the last period | reset 0
  lost : Bool := false                -- 1 | R272 the running stop turns the gates off after its unload | reset 0
deriving DecidableEq, Repr

end Sys2Proof.Machine
end

