-- ==== Sys2Proof/Machine/State.lean ====
section
/-! DEFINITION. The state of the FZ6408, as plain data: one record per unit (their fields are in the Parts files), the register files by
number, what the block has sent, the counter of free values, and the queue of the commands that wait. -/

namespace Sys2Proof.Machine

/-- Reasons to stop. Every command of the table has an effect in the manual, so no meaning stops. -/
inductive Fault where
  /-- Raised by no command (safe): kept so that the interface has a fault reason. -/
  | unused
deriving DecidableEq, Repr

/-- Reasons to refuse. -/
inductive Refusal where
  /-- Raised by an arm of `exec` whose command has no meaning yet (safe). -/
  | notModelled (mnemonic : String)
deriving DecidableEq, Repr

/-- The machine. A record's default is its reset value. -/
structure State where
  /-- Device state (R6). -/
  dev : DevState := .unconfigured     -- 11 values | R6, Table 0.3 | reset Unconfigured
  aon : AlwaysOn := {}
  start : Start := {}
  idn : Idn := {}
  fuses : Fuses := {}
  clk : Clk := {}
  pwr : Pwr := {}
  flt : Flt := {}
  evt : Evt := {}
  mqs : Tab Mq := []                  -- 32 queues | R537, Table 17.13 | reset empty
  ptn : Ptn := {}
  hold : HoldUp := {}
  diag : DiagCtl := {}
  img : Image := {}
  nvm : Nvm := {}
  layout : Layout := {}
  alks : Tab ArmLink := []            -- 8 arm links | R71, Table 3.11 | reset down
  islands : Tab Island := []          -- 68 islands | R100, Table 4.8 | reset gated
  bol : Bolter := {}
  heads : Tab Head := []              -- 64 heads by 8a + h | R208, Table 6.9 | reset off
  arms : Tab Arm := []                -- 8 arms | R209, Table 6.10 | reset parked
  gov : Gov := {}
  spn : Spindle := {}
  spc : SpindleCtl := {}
  mrc : Millrace := {}
  mpd : Millpond := {}
  rows : List RowBuild := []          -- rows from build to commit, at most 16 an arm | R666 | reset none
  tre : Tre := {}
  fls : Flash := {}
  fcc : Fcc := {}
  links : Tab Link := []              -- links 0 port A, 1 port B, 2 partner | R336, R447 | reset down
  injs : Tab Injector := []           -- injectors of port A and B | R358, Table 11.7 | reset off
  hop : Hopper := {}
  slu : Sluice := {}
  fan : Fantail := {}
  /-- What the block has sent, newest last (the model's own record of its outputs). -/
  tx : List Tx := []                  -- the model's own field | no rule | DESIGN CHOICE empty (log entry 2)
  /-- Free values drawn so far (the model's own counter). -/
  free : Nat := 0                     -- the model's own field | no rule | DESIGN CHOICE 0 (log entry 3)
  /-- Commands that wait, first in, first out. -/
  pending : List Instr := []          -- the model's own field | no rule | reset empty
deriving DecidableEq, Repr

/-- The machine while its first power-on reset is asserted: every register at its reset value, no command waiting. -/
def State.reset : State := {}

end Sys2Proof.Machine
end

