-- ==== Sys2Proof/Machine/Image.lean ====
section
/-! DEFINITION. Reading values from the loaded configuration image: list fields by TYPE and FID with their table defaults (R555–R558),
and fields of the array records by byte and bit (R563–R578). -/

namespace Sys2Proof.Machine

/-- Little-endian value of a byte list (R548). -/
def leNat : List Byte → Nat
  | [] => 0
  | b :: bs => b.toNat + 256 * leNat bs

/-- Bytes of a record, by TYPE and INST. -/
def imgBin (img : Image) (type inst : Nat) : List Byte := tabGet [] img.bins (type * 65536 + inst)

/-- `len` bytes at `off` of a record, as a little-endian number. -/
def imgAt (img : Image) (type inst off len : Nat) : Nat := leNat (((imgBin img type inst).drop off).take len)

/-- VALUE of a list field, or its table default when it is absent (R558). -/
def imgField (img : Image) (type fid dflt : Nat) : Nat :=
  match (tabGet [] img.lists type).find? (fun e => e.1 == fid) with
  | some e => e.2
  | none => dflt

-- SPINDLE (Table 8.1, Table 18.7)
def nSvc (i : Image) : Nat := imgField i 0x30 1 5400
def polePairs (i : Image) : Nat := imgField i 0x30 2 8
def keNom (i : Image) : Nat := imgField i 0x30 3 1556
def keTc (i : Image) : Int := signedOf 32 (imgField i 0x30 4 (twos 32 (-1100)))
def rPh (i : Image) : Nat := imgField i 0x30 5 100
def lPh (i : Image) : Nat := imgField i 0x30 6 30
def tMin (i : Image) : Nat := imgField i 0x30 8 3000
/-- MOD_MAX in 1/1,000 (R557). -/
def modMax (i : Image) : Nat := imgField i 0x30 9 950
def deadT (i : Image) : Nat := imgField i 0x30 10 200
def iAlign (i : Image) : Nat := imgField i 0x30 11 10
def tAlign (i : Image) : Nat := imgField i 0x30 12 500
def iIf (i : Image) : Nat := imgField i 0x30 13 15
def ifAccel (i : Image) : Nat := imgField i 0x30 14 50
def nHandoff (i : Image) : Nat := imgField i 0x30 15 400
def iSu (i : Image) : Nat := imgField i 0x30 16 20
def suTimeout (i : Image) : Nat := imgField i 0x30 17 180
def stopMode (i : Image) : Nat := imgField i 0x30 18 1
def brakeI (i : Image) : Nat := imgField i 0x30 19 15
def sbIlim (i : Image) : Nat := imgField i 0x30 20 15
def catchSb (i : Image) : Nat := imgField i 0x30 21 0
def vChopOn (i : Image) : Nat := imgField i 0x30 22 13200
def vChopOff (i : Image) : Nat := imgField i 0x30 23 12800
def vhChopOn (i : Image) : Nat := imgField i 0x30 24 11400
def vhChopOff (i : Image) : Nat := imgField i 0x30 25 11100
def chopIMin (i : Image) : Nat := imgField i 0x30 26 1000
def genImax (i : Image) : Nat := imgField i 0x30 27 20
def genMin (i : Image) : Nat := imgField i 0x30 28 1200
def iOc (i : Image) : Nat := imgField i 0x30 29 45
def curveHyst (i : Image) : Nat := imgField i 0x30 31 5
def shuntGain (i : Image) : Nat := imgField i 0x30 101 0
def vphGain (i : Image) : Nat := imgField i 0x30 102 0
def vbusGain (i : Image) : Nat := imgField i 0x30 103 0
def ichopGain (i : Image) : Nat := imgField i 0x30 104 0
def pSpinNom (i : Image) : Nat := imgField i 0x30 105 0

-- SPEED_CURVE (R569): (B_k in 0.1 W, N_k, A_k)
def curvePoints (i : Image) : List (Nat × Nat × Nat) :=
  (List.range ((imgBin i 0x31 0).length / 16)).map fun k =>
    (imgAt i 0x31 0 (16 * k) 4, imgAt i 0x31 0 (16 * k + 4) 4, imgAt i 0x31 0 (16 * k + 8) 4)

-- BUDGET (Table 13.2, R570)
def bpwmEn (i : Image) : Bool := imgField i 0x40 1 0 == 1
def bpwmZero (i : Image) : Nat := imgField i 0x40 2 0
def bpwmSpan (i : Image) : Nat := imgField i 0x40 3 0
def bpwmHold (i : Image) : Nat := imgField i 0x40 4 1000
def bpwmLoss (i : Image) : Nat := imgField i 0x40 5 (bpwmZero i)
def pBase (i : Image) : Nat := imgField i 0x40 6 0
def pStage (i : Image) : Nat := imgField i 0x40 7 0
def pArmTf (i : Image) : Nat := imgField i 0x40 8 0
def pHeadSrv (i : Image) : Nat := imgField i 0x40 9 0
def pRhFix (i : Image) : Nat := imgField i 0x40 10 0
def pWhFix (i : Image) : Nat := imgField i 0x40 11 0
def pRhGs (i : Image) : Nat := imgField i 0x40 12 0
def pWhGs (i : Image) : Nat := imgField i 0x40 13 0
def laserV (i : Image) : Nat := imgField i 0x40 14 0
def eIter (i : Image) : Nat := imgField i 0x40 15 0
def eRdBlk (i : Image) : Nat := imgField i 0x40 16 0
def eWrBlk (i : Image) : Nat := imgField i 0x40 17 0
def seekRes (i : Image) : Nat := imgField i 0x40 19 10000
def writeHi (i : Image) : Nat := imgField i 0x40 20 1024
def writeMin (i : Image) : Nat := imgField i 0x40 21 20
def readMin (i : Image) : Nat := imgField i 0x40 22 20
def ageMax (i : Image) : Nat := imgField i 0x40 23 250
def pHtrRd (i : Image) : Nat := imgField i 0x40 24 0
/-- Level of Table 13.3 in °C: row 0 die, 1 FZA816, 2 head stack; level 1 WARN, 2 CRIT, 3 SHUT. -/
def thermLevel (i : Image) (row level : Nat) : Nat :=
  imgField i 0x40 (100 + 3 * row + level) (([95, 101, 105, 95, 105, 115, 60, 65, 70] : List Nat).getD (3 * row + level - 1) 0)
-- SEEK_ENERGY (R571)
def seekEnergyPoints (i : Image) : List (Nat × Nat) :=
  (List.range 16).map fun k => (imgAt i 0x41 0 (8 * k) 4, imgAt i 0x41 0 (8 * k + 4) 4)

-- BUFFER (Table 9.3)
def mrcCmdMax (i : Image) : Nat := imgField i 0x50 1 4096
def drainStart (i : Image) : Nat := imgField i 0x50 2 512
def dirtyAgeMax (i : Image) : Nat := imgField i 0x50 3 10
def pinWait (i : Image) : Nat := imgField i 0x50 4 10
def readCache (i : Image) : Nat := imgField i 0x50 5 1
def scrubPeriod (i : Image) : Nat := imgField i 0x50 6 12
def ceLimit (i : Image) : Nat := imgField i 0x50 7 4096
def spareCh (i : Image) : Nat := imgField i 0x50 8 8

-- PORT_MODE (Table 12.11)
def modeAllow (i : Image) : Nat := imgField i 0x51 1 0xF
def holdLimit (i : Image) : Nat := imgField i 0x51 2 60
def wdataTimeoutS (i : Image) : Nat := imgField i 0x51 3 5
def grantMax (i : Image) : Nat := imgField i 0x51 4 256
def spinPolicyImg (i : Image) : Nat := imgField i 0x51 5 1
def unlockTime (i : Image) : Nat := imgField i 0x51 6 3600
def budgetDefault (i : Image) : Nat := imgField i 0x51 7 0xFFFFFFFF

-- PARTNER (Table 15.10)
def ptnEn (i : Image) : Bool := imgField i 0x52 1 0 == 1
def ptnSolo (i : Image) : Bool := imgField i 0x52 2 0 == 1
def ptnWait (i : Image) : Nat := imgField i 0x52 3 10
def vinFail (i : Image) : Nat := imgField i 0x52 4 11200
def vDumpMin (i : Image) : Nat := imgField i 0x52 5 9000

-- LINK (Table 11.6, R572)
def corrLimit (i : Image) : Nat := imgField i 0x60 2 1024
def tGap (i : Image) : Nat := imgField i 0x60 3 500
def tReplay (i : Image) : Nat := imgField i 0x60 4 20
/-- LINK_HOLD in 1/1,000 s (R557). -/
def linkHoldMs (i : Image) : Nat := imgField i 0x60 5 1000
def portEn (i : Image) : Nat := imgField i 0x60 6 3
def alkCorrLimit (i : Image) : Nat := imgField i 0x60 101 112

-- FAULT_POLICY, EVENT_RATES, QUEUES (Table 17.10, R576, R577)
def tQuietMs (i : Image) : Nat := imgField i 0x80 1 100
def recoveryLimit (i : Image) : Nat := imgField i 0x80 2 16
def tallyFlushMs (i : Image) : Nat := imgField i 0x80 3 100
def eventRate (i : Image) (code : Nat) : Nat :=
  if imgAt i 0x81 0 (4 * code) 4 = 0 then 100 else bitsOf 31 16 (imgAt i 0x81 0 (4 * code) 4)
def eventBurst (i : Image) (code : Nat) : Nat :=
  if imgAt i 0x81 0 (4 * code) 4 = 0 then 32 else bitsOf 15 8 (imgAt i 0x81 0 (4 * code) 4)
def mqDepth (i : Image) (n : Nat) : Nat :=
  if imgAt i 0x82 0 (4 * n) 4 = 0 then 4096 else 256 * bitsOf 31 16 (imgAt i 0x82 0 (4 * n) 4)
def mqThresh (i : Image) (n : Nat) : Nat :=
  if imgAt i 0x82 0 (4 * n) 4 = 0 then 1 else bitsOf 15 4 (imgAt i 0x82 0 (4 * n) 4)

-- FANTAIL (Table 14.6, R578)
def fanShare (i : Image) : Nat := imgField i 0x90 1 2
def cmMin (i : Image) : Nat := imgField i 0x90 3 50
def watchDiv (i : Image) : Nat := imgField i 0x90 4 8
def opILimit (i : Image) : Nat := imgField i 0x90 5 120
def pmMin (i : Image) : Nat := imgField i 0x90 7 30
def slackMin (i : Image) : Nat := imgField i 0x90 8 25
def eyeMin (i : Image) : Nat := imgField i 0x90 9 40
def dramEyeMin (i : Image) : Nat := imgField i 0x90 10 48
def horizonWarn (i : Image) : Nat := imgField i 0x90 11 365

-- SERVO (Table 18.6)
def samThr (i : Image) : Nat := imgField i 0x20 1 14
def uaDelay (i : Image) : Nat := imgField i 0x20 2 2000
def msN (i : Image) : Nat := imgField i 0x20 3 3
def ontrkRd (i : Image) : Nat := imgField i 0x20 4 10
def settleRd (i : Image) : Nat := imgField i 0x20 5 3
def rdOff (i : Image) : Nat := imgField i 0x20 6 20
def ontrkWr (i : Image) : Nat := imgField i 0x20 7 6
def settleWr (i : Image) : Nat := imgField i 0x20 8 6
def settleMax (i : Image) : Nat := imgField i 0x20 9 24
def clrMin (i : Image) : Nat := imgField i 0x20 10 50
def htrMax (i : Image) : Nat := imgField i 0x20 11 0
def loadVel (i : Image) : Nat := imgField i 0x20 12 0
def unloadVel (i : Image) : Nat := imgField i 0x20 13 0
def loadPair (i : Image) : Nat := imgField i 0x20 14 0
/-- SEEK record of an arm (R565). -/
def seekOf (i : Image) (arm : Nat) : SeekRec :=
  { skT0 := imgAt i 0x21 arm 0 4, skT1 := imgAt i 0x21 arm 4 4, kff := imgAt i 0x21 arm 8 4, vcmIfs := imgAt i 0x21 arm 12 4,
    shape := (List.range 256).map fun k => signedOf 16 (imgAt i 0x21 arm (16 + 2 * k) 2) }

-- geometry and layout (R560–R562)
/-- Head n = 8a + h is fitted. -/
def headFitted (i : Image) (n : Nat) : Bool := decide (n / 8 < i.arms) && decide (n % 8 < i.heads)
def zoneList (i : Image) (arm : Nat) : List ZoneFmt := tabGet [] i.zones arm
def zoneFmt (i : Image) (arm z : Nat) : ZoneFmt := (zoneList i arm).getD z {}
/-- G_z = S_z / 16 (R39). -/
def gOf (z : ZoneFmt) : Nat := z.sz / 16
/-- V_z = C_z / K (R40). -/
def vOf (i : Image) (z : ZoneFmt) : Nat := z.cz / i.resDiv
/-- B_R = 32 (H - 1) (R41). -/
def bR (i : Image) : Nat := 32 * (i.heads - 1)

/-- Bits hi:lo of the offset entry of head n in zone z (Table 6.2, R563). -/
def offBits (i : Image) (n z hi lo : Nat) : Nat := bitsOf hi lo (imgAt i 0x22 n (32 * z) 32)
def offCO (i : Image) (n z : Nat) : Int := signedOf 24 (offBits i n z 255 232)
def offRWO (i : Image) (n z : Nat) : Int := signedOf 24 (offBits i n z 231 208)
def offRSEP (i : Image) (n z : Nat) : Int := signedOf 12 (offBits i n z 207 196)
def offRdOfs (i : Image) (n z : Nat) : Int := signedOf 12 (offBits i n z 195 184)
def offUaGain (i : Image) (n z : Nat) : Nat := offBits i n z 183 168
def offClrRd (i : Image) (n z : Nat) : Nat := offBits i n z 167 152
def offClrWr (i : Image) (n z : Nat) : Nat := offBits i n z 151 136
def offHtrWrFf (i : Image) (n z : Nat) : Nat := offBits i n z 135 120
def offHrCal (i : Image) (n z : Nat) : Int := signedOf 16 (offBits i n z 119 104)
def offClrCal (i : Image) (n z : Nat) : Nat := offBits i n z 103 88
def offLambda (i : Image) (n z : Nat) : Nat := offBits i n z 87 72
def offOpI (i : Image) (n z : Nat) : Nat := offBits i n z 71 56
def offBiasI (i : Image) (n z : Nat) : Nat := offBits i n z 55 40
def offLead (i : Image) (n z : Nat) : Nat := offBits i n z 39 24
def offWrI (i : Image) (n z : Nat) : Nat := offBits i n z 23 16
def offWrOsAmp (i : Image) (n z : Nat) : Nat := offBits i n z 15 8
def offWrOsLen (i : Image) (n z : Nat) : Nat := offBits i n z 7 0

/-- Bits hi:lo of channel set `set` of head n in zone z (Table 4.5, R563). -/
def chanBits (i : Image) (n z set hi lo : Nat) : Nat := bitsOf hi lo (imgAt i 0x10 n ((4 * z + set) * 128) 128)

/-- ITER_MAX of head n in zone z (R150, R564). -/
def iterMax (i : Image) (n z : Nat) : Nat := if imgAt i 0x11 0 (8 + 64 * n + z) 1 = 0 then 20 else imgAt i 0x11 0 (8 + 64 * n + z) 1
/-- QUEUE_HWM and QUEUE_LWM (R564; defaults of R155, R156). -/
def queueHwm (i : Image) : Nat := if bitsOf 63 48 (imgAt i 0x11 0 0 8) = 0 then 768 else bitsOf 63 48 (imgAt i 0x11 0 0 8)
def queueLwm (i : Image) : Nat := if bitsOf 47 32 (imgAt i 0x11 0 0 8) = 0 then 256 else bitsOf 47 32 (imgAt i 0x11 0 0 8)

-- flash (R573–R575)
/-- The default region plan, Table 16.3. -/
def defaultPlan : List Region :=
  [ { kind := 1, dense := true, access := 0, blocks := 32 }, { kind := 2, dense := true, access := 0, blocks := 32 },
    { kind := 3, blocks := 264 }, { kind := 4, blocks := 264 }, { kind := 5, blocks := 128 }, { kind := 6, blocks := 64 },
    { kind := 7, blocks := 32 }, { kind := 8, blocks := 8 } ]
/-- Entry mask of requester q (R512, R574). -/
def fcMask (i : Image) (q : Nat) : Nat :=
  if (imgBin i 0x71 0).length = 0 then
    ([2 ^ 10 - 1, (2 ^ 10 - 1) * 2 ^ 10, (2 ^ 10 - 1) * 2 ^ 20, (2 ^ 10 - 1) * 2 ^ 30, 0, 3 * 2 ^ 40] : List Nat).getD q 0
  else bitsOf 47 0 (imgAt i 0x71 0 (8 * q) 8)
/-- Prefetch depth of requester q (R512, R574). -/
def fcDepth (i : Image) (q : Nat) : Nat :=
  if (imgBin i 0x71 0).length = 0 then (if q < 4 then 2 else 0) else bitsOf 63 61 (imgAt i 0x71 0 (8 * q) 8)

end Sys2Proof.Machine
end

