-- ==== Sys2Proof/Machine/Ops.lean ====
section
/-! DEFINITION. The shared operations on which every meaning stands: reading and writing the register files, device time, free values,
outputs, events (R531–R536, R663) and message-queue packets (R537–R540). -/

namespace Sys2Proof.Machine

-- Register files by number.
def getHead (s : State) (n : Nat) : Head := tabGet {} s.heads n
def modHead (s : State) (n : Nat) (f : Head → Head) : State := { s with heads := tabMod {} s.heads n f }
def getArm (s : State) (a : Nat) : Arm := tabGet {} s.arms a
def modArm (s : State) (a : Nat) (f : Arm → Arm) : State := { s with arms := tabMod {} s.arms a f }
def getAlk (s : State) (a : Nat) : ArmLink := tabGet {} s.alks a
def modAlk (s : State) (a : Nat) (f : ArmLink → ArmLink) : State := { s with alks := tabMod {} s.alks a f }
def getIsl (s : State) (i : Nat) : Island := tabGet {} s.islands i
def modIsl (s : State) (i : Nat) (f : Island → Island) : State := { s with islands := tabMod {} s.islands i f }
def getCtx (s : State) (n : Nat) : Ctx := tabGet {} s.gov.ctxs n
def modCtx (s : State) (n : Nat) (f : Ctx → Ctx) : State := { s with gov := { s.gov with ctxs := tabMod {} s.gov.ctxs n f } }
def getTrace (s : State) (c : Nat) : TraceCh := tabGet {} s.gov.trace c
def modTrace (s : State) (c : Nat) (f : TraceCh → TraceCh) : State :=
  { s with gov := { s.gov with trace := tabMod {} s.gov.trace c f } }
def getSine (s : State) (g : Nat) : Sine := tabGet {} s.gov.sines g
def modSine (s : State) (g : Nat) (f : Sine → Sine) : State := { s with gov := { s.gov with sines := tabMod {} s.gov.sines g f } }
def getEngine (s : State) (e : Nat) : Engine := tabGet {} s.bol.engines e
def modEngine (s : State) (e : Nat) (f : Engine → Engine) : State :=
  { s with bol := { s.bol with engines := tabMod {} s.bol.engines e f } }
def getSlot (s : State) (k : Nat) : Slot := tabGet {} s.mrc.slots k
def modSlot (s : State) (k : Nat) (f : Slot → Slot) : State := { s with mrc := { s.mrc with slots := tabMod {} s.mrc.slots k f } }
/-- Slots of the internal pool in use (R281, R310). -/
def internalUsed (s : State) : Nat := (s.mrc.slots.filter fun e => e.2.used && decide (20480 ≤ e.1)).length
/-- Free the slots of the internal pool whose blocks are such (R281): moved on, or no longer to come. -/
def freeInner (p : Nat × Nat × Nat × Nat → Bool) (s : State) : State :=
  { s with mrc := { s.mrc with slots := s.mrc.slots.filter fun e => !(decide (20480 ≤ e.1) && e.2.inner.any p) } }
/-- Slots of the internal pool that a read of arm `a` takes for sectors (arm, row, key) that no host command wants, as far as there are free ones. -/
def takeInner (a : Nat) (keys : List (Nat × Nat × Nat)) (s : State) : State :=
  let free := ((List.range 4096).map (20480 + ·)).filter fun k => !(getSlot s k).used
  (keys.zip free).foldl (fun s x => modSlot s x.2 fun _ => { used := true, inner := some (a, x.1) }) s
def getChan (s : State) (p : Nat) : MpdChan := tabGet {} s.mpd.chans p
def modChan (s : State) (p : Nat) (f : MpdChan → MpdChan) : State := { s with mpd := { s.mpd with chans := tabMod {} s.mpd.chans p f } }
def getTre (s : State) (n : Nat) : TreCh := tabGet {} s.tre.chans n
def modTre (s : State) (n : Nat) (f : TreCh → TreCh) : State := { s with tre := { s.tre with chans := tabMod {} s.tre.chans n f } }
def getMq (s : State) (q : Nat) : Mq := tabGet {} s.mqs q
def modMq (s : State) (q : Nat) (f : Mq → Mq) : State := { s with mqs := tabMod {} s.mqs q f }
def getBank (s : State) (b : Nat) : Bank := tabGet {} s.fls.banks b
def modBank (s : State) (b : Nat) (f : Bank → Bank) : State := { s with fls := { s.fls with banks := tabMod {} s.fls.banks b f } }
def getBlk (s : State) (k : Nat) : FlashBlock := tabGet {} s.fls.blocks k
def modBlk (s : State) (k : Nat) (f : FlashBlock → FlashBlock) : State :=
  { s with fls := { s.fls with blocks := tabMod {} s.fls.blocks k f } }
def getFce (s : State) (e : Nat) : FcEntry := tabGet {} s.fcc.entries e
def modFce (s : State) (e : Nat) (f : FcEntry → FcEntry) : State :=
  { s with fcc := { s.fcc with entries := tabMod {} s.fcc.entries e f } }
def getFcq (s : State) (q : Nat) : FcReq := tabGet {} s.fcc.reqs q
def modFcq (s : State) (q : Nat) (f : FcReq → FcReq) : State := { s with fcc := { s.fcc with reqs := tabMod {} s.fcc.reqs q f } }
/-- A link's reset record: no lane mapped out reads 31 on a port (Table 11.9) and 15 on the partner link (Table 15.12). -/
def linkDef (l : Nat) : Link := if l = 2 then { txOut := 15, rxOut := 15 } else {}
def getLink (s : State) (l : Nat) : Link := tabGet (linkDef l) s.links l
def modLink (s : State) (l : Nat) (f : Link → Link) : State := { s with links := tabMod (linkDef l) s.links l f }
def getInj (s : State) (p : Nat) : Injector := tabGet {} s.injs p
def modInj (s : State) (p : Nat) (f : Injector → Injector) : State := { s with injs := tabMod {} s.injs p f }
def getHopPort (s : State) (p : Nat) : HopPort := tabGet {} s.hop.ports p
def modHopPort (s : State) (p : Nat) (f : HopPort → HopPort) : State :=
  { s with hop := { s.hop with ports := tabMod {} s.hop.ports p f } }
def getTherm (s : State) (k : Nat) : Thermal := tabGet {} s.slu.thermal k
def modTherm (s : State) (k : Nat) (f : Thermal → Thermal) : State :=
  { s with slu := { s.slu with thermal := tabMod {} s.slu.thermal k f } }
def getEntry (s : State) (f : Nat) : LedgerEntry := tabGet {} s.mpd.ledger f
def setEntry (s : State) (f : Nat) (e : LedgerEntry) : State := { s with mpd := { s.mpd with ledger := tabSet {} s.mpd.ledger f e } }
def getFrame (s : State) (f : Nat) : Block := tabGet 0 s.mpd.frames f
/-- Words of a memory from `lo` on, `len` bytes, are written in the normal way: tags of test writes on them go (R529). Millpond words are kept
under their fabric address whatever channel holds them. -/
def dropTags (memLo memHi lo len : Nat) (s : State) : State :=
  { s with diag := { s.diag with eccTags := s.diag.eccTags.filter fun t =>
      !(decide (memLo ≤ t.1) && decide (t.1 ≤ memHi) && decide (lo ≤ t.2.1) && decide (t.2.1 < lo + len)) } }
def setFrame (s : State) (f : Nat) (b : Block) : State :=
  dropTags 0x49 0x51 (4096 * f) 4096 { s with mpd := { s.mpd with frames := tabSet 0 s.mpd.frames f b } }
/-- Write a millrace slot's data (R278, R529). -/
def writeSlot (k : Nat) (f : Slot → Slot) (s : State) : State := dropTags 0x48 0x48 (4096 * k) 4096 (modSlot s k f)

/-- Device time in ns (R11): every time-stamp. -/
def devTime (s : State) : Nat := s.aon.time
/-- Nanoseconds since the power-on reset: what elapsed times are measured on, so that TIME_SET changes none (log entry 60). -/
def now (s : State) : Nat := s.aon.up
/-- One tick of the always-on clock: device time counts in steps of 40 ns from the release of the power-on reset (R609, R613). -/
def idleTick (s : State) : State :=
  if s.start.powerOnReset then s else { s with aon := { s.aon with time := (s.aon.time + 40) % 2 ^ 64, up := s.aon.up + 40 } }
/-- The clocks run and no reset is asserted, so that a command reaches its unit (R587, R610). -/
def awake (s : State) : Bool := !s.start.inReset && !s.start.clocksStopped
/-- A command of a part in reset or without clocks has no effect. -/
def live (s : State) (f : State → Host.Outcome State Fault Refusal) : Host.Outcome State Fault Refusal := if awake s then f s else .next s
/-- Nanoseconds since `t`. -/
def since (s : State) (t : Nat) : Nat := now s - t
/-- Those of `ts` that lie in the last `win` ns. -/
def recent (s : State) (win : Nat) (ts : List Nat) : List Nat := ts.filter fun t => decide (now s < t + win)
def oneMs : Nat := 1000000
def oneSec : Nat := 1000000000
/-- Do `f` when `c` holds. -/
def when_ (c : Bool) (f : State → State) (s : State) : State := if c then f s else s
/-- Do `f` for each of `xs` in order. -/
def each {α : Type} (xs : List α) (f : α → State → State) (s : State) : State := xs.foldl (fun t x => f x t) s

/-- The next free value (log entry 3). -/
def freeVal (s : State) : BitVec 256 := Config.freeValue s.free
/-- Advance to the following free value. -/
def nextFree (s : State) : State := { s with free := s.free + 1 }

/-- What the block sends. -/
def send (t : Tx) (s : State) : State := { s with tx := s.tx ++ [t] }

-- Master IDs: those that the manual names (chapters 3, 5–10, 16, 17, 20, 22); the rest are constants of Config (log entry 11).
def mPort : BitVec 8 := 0x04
def mJtag : BitVec 8 := 0x05
def mTre (n : Nat) : BitVec 8 := BitVec.ofNat 8 (0x10 + n)
def mPatrol : BitVec 8 := 0x4E
def mMillpond : BitVec 8 := 0x4F
def mBolter : BitVec 8 := 0x51
def mMotion : BitVec 8 := 0x52
def mPower : BitVec 8 := 0x53
def mTally : BitVec 8 := 0x54
def mFlash : BitVec 8 := 0x56
def mArm (a : Nat) : BitVec 8 := BitVec.ofNat 8 (0x60 + a)
def mHopper : BitVec 8 := Config.unitMaster 0
def mLink : BitVec 8 := Config.unitMaster 1
def mPartner : BitVec 8 := Config.unitMaster 2
def mFantail : BitVec 8 := Config.unitMaster 3
def mSluice : BitVec 8 := Config.unitMaster 4
def mCollector : BitVec 8 := Config.unitMaster 5
def mStart : BitVec 8 := Config.unitMaster 6
def mCore : BitVec 8 := Config.unitMaster 7
def mNvm : BitVec 8 := Config.unitMaster 8
def mIsland : BitVec 8 := Config.unitMaster 9

/-- A payload field of an event (R663): one byte, or eight bytes when `wide`. -/
abbrev PayField := Bool × Int
def b1 (n : Int) : PayField := (false, n)
def b8 (n : Int) : PayField := (true, n)
def fieldBytes (f : PayField) : List Byte :=
  if f.1 then (List.range 8).map fun i => BitVec.ofNat 8 (twos 64 f.2 / 256 ^ i) else [BitVec.ofNat 8 (twos 8 f.2)]
/-- The payload's bytes in the order named, unused bytes zero (R663). -/
def payloadBytes (fs : List PayField) : List Byte :=
  let bs := (fs.flatMap fieldBytes).take 40
  bs ++ List.replicate (40 - bs.length) 0
/-- A location: arm, head and zone, one byte each, 0xFF where the quantity has none (R663). -/
def locFields (l : Loc) : List PayField := [b1 l.arm, b1 l.head, b1 l.zone]

/-- Trigger of an armed trace capture (R236): every armed channel records on for its share and the device time is kept (R237). -/
def traceFire (s : State) : State :=
  if s.gov.armed then
    let s := { s with gov := { s.gov with armed := false, traceTime := devTime s } }
    each (List.range 8) (fun c s => modTrace s c fun t =>
      if t.state = 1 then { t with state := 2, trigIdx := t.writeIdx, left := 65536 - 1024 * s.gov.pre } else t) s
  else s

/-- Events of power and hold-up, 0x10 to 0x18. -/
def powerEvent (c : BitVec 8) : Bool := decide (0x10 ≤ c) && decide (c ≤ 0x18)
/-- Codes that are never limited (Table 17.8). -/
def exemptCode (c : BitVec 8) : Bool :=
  c == 0x0C || powerEvent c || c == 0x62 || (decide (0x83 ≤ c) && decide (c ≤ 0x85)) ||
    (decide (0xA0 ≤ c) && decide (c ≤ 0xA3)) || c == 0xAF || (decide (0xF0 ≤ c) && decide (c ≤ 0xF3))

/-- Records of one block of the tally region: 512 pages of 16 sectors of 16 records (R478, R532). -/
def blockRecords : Nat := 131072

/-- Put a record into the staging buffer under the next INDEX. -/
def stageRecord (r : TallyRec) (s : State) : State :=
  { s with evt := { s.evt with
      staging := s.evt.staging ++ [{ r with index := s.evt.next }],
      stagedSince := match s.evt.stagedSince with | some t => some t | none => some (now s),
      next := (s.evt.next + 1) % 2 ^ 64 } }

def plainRecord (s : State) (code : BitVec 8) (source : BitVec 8) (fs : List PayField) : TallyRec :=
  { code, state := s.dev, source, boot := s.idn.boot, time := devTime s, payload := payloadBytes fs }

/-- A pad fills an empty slot of a timed program (R532). -/
def padRecord : TallyRec := { pad := true }

/-- Program the staged sector (R532): its empty slots are pads; its records become visible (R531). When the block is full the next
free block is taken; with one left the tally writes only exempt codes, with none it stops (R536). -/
def programSector (s : State) : State :=
  let staged := s.evt.staging.take 16
  let e := s.evt
  let e := { e with
    written := e.written ++ staged ++ List.replicate (16 - staged.length) padRecord,
    staging := e.staging.drop 16, stagedSince := if (e.staging.drop 16).isEmpty then none else some (now s),
    blockFill := e.blockFill + 16 }
  if e.blockFill < blockRecords then { s with evt := e }
  else if 2 ≤ e.freeBlocks then { s with evt := { e with blockFill := 0, freeBlocks := e.freeBlocks - 1 } }
  else if e.freeBlocks = 1 then
    let s := { s with evt := { e with blockFill := 0, freeBlocks := 0, full := 1 } }
    stageRecord (plainRecord s 0xF1 mTally []) s
  else { s with evt := { e with blockFill := 0, full := 2 } }

/-- A full staged sector is programmed (R532). In Hold-up what is staged is programmed at once, but only with a record of events 0x10 to 0x18 (R491);
after an early power failure nothing is (R463, log entry 63). -/
def programIfDue (s : State) : State :=
  if !s.evt.running then s
  else if s.dev = .holdUp then
    (if s.evt.staging.any fun r => !r.pad && powerEvent r.code then each (List.range (ceilDiv s.evt.staging.length 16)) (fun _ s => programSector s) s else s)
  else if 16 ≤ s.evt.staging.length && !s.hold.flashStopped then programSector s
  else s

/-- Bucket of a code and attribute (R534), refilled to now: `used` is what the bucket is short of full, in 10^-9 of a token. -/
def bucketNow (s : State) (code : BitVec 8) (inj : Bool) : Bucket :=
  let b := tabGet {} s.evt.buckets (code.toNat + 256 * b2n inj)
  { b with used := b.used - eventRate s.img code.toNat * since s b.at_, at_ := now s }
def setBucket (s : State) (code : BitVec 8) (inj : Bool) (b : Bucket) : State :=
  { s with evt := { s.evt with buckets := tabSet {} s.evt.buckets (code.toNat + 256 * b2n inj) b } }

/-- The tally takes an event (R531). Before it runs, events are kept in the staging buffer, which holds 512 records (R592). An
event that finds no token is dropped and counted (R534); a full region admits only exempt codes and then nothing (R536). -/
def takeEvent (r : TallyRec) (s : State) : State :=
  let dropFull : State := { s with evt := { s.evt with droppedFull := satInc 16 s.evt.droppedFull } }
  if !s.evt.running then
    if s.evt.full = 2 || decide (512 ≤ s.evt.staging.length) then dropFull
    else { s with evt := { s.evt with staging := s.evt.staging ++ [r] } }
  else if s.evt.full = 2 || (s.evt.full = 1 && !exemptCode r.code) then dropFull
  else
    let b := bucketNow s r.code r.injected
    if exemptCode r.code then programIfDue (stageRecord r s)
    else if b.used + oneSec ≤ eventBurst s.img r.code.toNat * oneSec then
      programIfDue (stageRecord { r with suppressed := b.suppressed }
        (setBucket s r.code r.injected { b with used := b.used + oneSec, suppressed := 0 }))
    else setBucket s r.code r.injected { b with suppressed := satInc 16 b.suppressed }

/-- Post an event with the injected attribute as given. An armed capture with SRC 2 is triggered by its code (Table 7.7). -/
def postInj (inj : Bool) (code source : BitVec 8) (fs : List PayField) (s : State) : State :=
  let s := if s.gov.src = 2 && s.gov.trigEvent = code then traceFire s else s
  takeEvent { plainRecord s code source fs with injected := inj } s

/-- Post an event of the part. -/
def post (code source : BitVec 8) (fs : List PayField) (s : State) : State := postInj false code source fs s

/-- Words and complete packets of a queue. -/
def mqRoom (s : State) (q : Nat) : Nat := mqDepth s.img q - (getMq s q).words.length

/-- The word at the front of a queue goes to its consumer (R541). -/
def mqTake (q : Nat) (s : State) : State :=
  match (getMq s q).words with
  | [] => s
  | (w, last) :: rest => modMq (send (.popped q 0 w) s) q fun m => { m with words := rest, packets := if last then m.packets - 1 else m.packets }
/-- Append a whole packet, count it, serve a pop that stalls (R541), and ring the doorbell when the counter rises to THRESH (R538, R540). -/
def mqAppend (q : Nat) (ws : List Word) (s : State) : State :=
  let m := getMq s q
  let marked := ws.dropLast.map (fun w => (w, false)) ++ (ws.getLast?.map fun w => (w, true)).toList
  let s := modMq s q fun m => { m with words := m.words ++ marked, packets := m.packets + 1 }
  let s := if m.packets + 1 = mqThresh s.img q then send (.doorbell q) s else s
  if m.stalled then mqTake q { s with mqs := (modMq s q fun m => { m with stalled := false }).mqs } else s

/-- A producer's packet: written whole when the queue has room and nobody waits before it, else it waits (R538, R539). -/
def mqSend (q : Nat) (ws : List Word) (s : State) : State :=
  if ws.isEmpty then s
  else if ws.length ≤ mqRoom s q && (getMq s q).waiting.isEmpty then mqAppend q ws s
  else modMq s q fun m => { m with waiting := m.waiting ++ [ws] }

/-- All heads of an arm that the drive has and that have not failed. -/
def armHeads (s : State) (a : Nat) : List Nat :=
  (List.range s.img.heads).map (fun h => 8 * a + h) |>.filter fun n => !(getHead s n).failed
/-- The drive's arms. -/
def armList (s : State) : List Nat := List.range s.img.arms
/-- Every head of the drive that has not failed. -/
def allHeads (s : State) : List Nat := (armList s).flatMap (armHeads s)

end Sys2Proof.Machine
end

