-- ==== Sys2Proof/Machine/Pages.lean ====
section
/-! DEFINITION. Records as bits, and the millpond's pages that hold them: the write ledger and the commit records, each in two copies (R288, R292,
R294, Tables 2.2, 2.3, 9.2, 9.4). -/

namespace Sys2Proof.Machine

/-- A value in bits hi:lo. -/
def inBits (hi lo v : Nat) : Nat := v % 2 ^ (hi + 1 - lo) * 2 ^ lo
/-- A value in bytes hi:lo. -/
def inBytes (hi lo v : Nat) : Nat := inBits (8 * hi + 7) (8 * lo) v
/-- Records of a size in bits, the first in the lowest position. -/
def packRecs (size : Nat) (rs : List Nat) : Nat := rs.foldr (fun r a => r % 2 ^ size + 2 ^ size * a) 0
def entryBits (e : LedgerEntry) : Nat :=
  inBits 255 208 e.lba.toNat + inBits 207 144 e.htag.toNat + inBits 143 124 e.frame.toNat + inBits 123 84 e.vseq.toNat + inBits 83 68 e.tag.toNat + inBits 67 67 (b2n e.portB) +
    inBits 66 64 e.state.toNat + inBits 63 63 (b2n e.acked) + inBits 62 62 (b2n e.mirrored) + inBits 61 28 e.row.toNat + inBits 27 27 (b2n e.compat) + inBits 26 26 (b2n e.heldBack) + b2n e.valid
def defectBits (e : DefectEntry) : Nat :=
  inBits 127 125 e.arm.toNat + inBits 124 122 e.head.toNat + inBits 121 82 e.row.toNat + inBits 81 81 e.track.toNat + inBits 80 77 e.slot.toNat + inBits 76 71 e.dstZone.toNat +
    inBits 70 39 e.dstGroup.toNat + inBits 38 34 e.dstSector.toNat + inBits 33 32 e.origin.toNat + b2n e.valid
def runBits (e : RunEntry) : Nat :=
  inBits 255 253 e.srcArm.toNat + inBits 252 250 e.srcHead.toNat + inBits 249 210 e.srcRow.toNat + inBits 209 178 e.count.toNat + inBits 177 175 e.dstArm.toNat +
    inBits 174 169 e.dstZone.toNat + inBits 168 137 e.dstGroup.toNat + inBits 1 1 (b2n e.moving) + b2n e.valid
/-- Bytes of a pending commit record (log entry 29). -/
def commitBytes (r : CommitRec) : Nat := 16 + 16 * r.defects.length + 32 * r.runs.length
/-- Bits of a pending commit record: row and commit time, eight bytes each, then its defect and run entries (R294; log entry 29). -/
def commitBits (r : CommitRec) : Nat :=
  r.row % 2 ^ 64 + 2 ^ 64 * (r.time % 2 ^ 64 + 2 ^ 64 * (packRecs 128 (r.defects.map defectBits) + 2 ^ (128 * r.defects.length) * packRecs 256 (r.runs.map runBits)))
/-- Pending records one after another. -/
def commitStream (rs : List CommitRec) : Nat := rs.foldr (fun r a => commitBits r + 2 ^ (8 * commitBytes r) * a) 0
/-- Page of its region that a ledger or commit frame holds; copy B of page i lies at i XOR 4 (R288). -/
def pageOf (f : Nat) : Nat :=
  if f < 8192 then f else if f < 16384 then (f - 8192) ^^^ 4 else if f < 18432 then f - 16384 else (f - 18432) ^^^ 4
/-- Frame of the other copy of the page that a ledger or commit frame holds (R288). -/
def otherCopy (f : Nat) : Nat :=
  if f < 8192 then 8192 + (f ^^^ 4) else if f < 16384 then (f - 8192) ^^^ 4 else if f < 18432 then 18432 + ((f - 16384) ^^^ 4) else 16384 + ((f - 18432) ^^^ 4)
/-- What a millpond frame reads as. The entries and the pending records stand in the state once, and both copies of a page show them: an entry or record is
in both copies as soon as it is there (R292, R294). -/
def frameView (s : State) (f : Nat) : Block :=
  if f < 16384 then BitVec.ofNat 32768 (packRecs 256 ((List.range 128).map fun k => entryBits (getEntry s (128 * pageOf f + k))))
  else if f < 20480 then BitVec.ofNat 32768 (commitStream s.mpd.commits >>> (32768 * pageOf f))
  else getFrame s f

end Sys2Proof.Machine
end

