-- ==== Sys2Proof/Machine/Sectors.lean ====
section
/-! DEFINITION. The flash as its sectors (chapter 16): the regions of the plan and their blocks (R480–R482), what a sector holds (R478), and what
a cut program or erase leaves (R485, R489). -/

namespace Sys2Proof.Machine

-- Regions (R481, R482).

/-- The region plan in force, in order of KIND. -/
def regions (s : State) : List Region := (s.fls.plan.getD defaultPlan).filter (fun r => r.kind ≠ 0) |>.mergeSort fun a b => decide (a.kind ≤ b.kind)
def pagesPer (r : Region) : Nat := if r.dense then 1024 else 512
def regionOf (s : State) (kind : Nat) : Option Region := (regions s).find? fun r => r.kind = kind
/-- First window page of a region. -/
def regionBase (s : State) (kind : Nat) : Nat := (((regions s).takeWhile fun r => r.kind < kind).map fun r => r.blocks * pagesPer r).sum
/-- Region and logical page of a window page. -/
def pageAt (s : State) (w : Nat) : Option (Region × Nat) :=
  (regions s).findSome? fun r =>
    let b := regionBase s r.kind
    if b ≤ w && w < b + r.blocks * pagesPer r then some (r, w - b) else none
/-- Bank, region block and page within it of a logical page. -/
def pagePlace (r : Region) (page : Nat) : Nat × Nat × Nat := (page % 8, page / 8 / pagesPer r, page / 8 % pagesPer r)
/-- A page reference names a page of a region of the plan. -/
def pageOk (s : State) (p : PageRef) : Option Region := (regionOf s p.kind).filter fun r => decide (p.page < r.blocks * pagesPer r)
def windowPage (s : State) (p : PageRef) : Nat := regionBase s p.kind + p.page
def mapKey (kind bank rblock : Nat) : Nat := (kind * 8 + bank) * 512 + rblock
/-- Physical block of a region block: the first layout follows the plan from block 1 on; block 0 is the directory (R480). -/
def physBlock (s : State) (kind bank rblock : Nat) : Nat :=
  match tabGet 0 s.fls.map (mapKey kind bank rblock) with
  | 0 => 1 + (((regions s).takeWhile fun r => r.kind < kind).map fun r => r.blocks / 8).sum + rblock
  | b => b
/-- Region blocks of a bank with their physical blocks. -/
def mappedBlocks (s : State) (bank : Nat) : List (Nat × Nat × Nat) :=
  (regions s).flatMap fun r => (List.range (r.blocks / 8)).map fun k => (r.kind, k, physBlock s r.kind bank k)
/-- The physical block of a window sector with its page: none outside the plan. -/
def flashPlace (s : State) (w : Nat) : Option (Nat × Nat) :=
  (pageAt s (w / 16)).map fun x =>
    let (b, rb, pg) := pagePlace x.1 x.2
    (512 * b + physBlock s x.1.kind b rb, pg)
/-- The sector's program or its block's erase was cut (R485, R489): its content is not known. -/
def flashTorn (s : State) (w : Nat) : Bool := (flashPlace s w).any fun p => (getBlk s p.1).torn.getLsbD p.2
/-- What a window sector reads as: 0xFF where it is erased (R478). -/
def flashData (s : State) (w : Nat) : BitVec 8192 := if flashTorn s w then Config.tornSector s.free w else (tabGet none s.fls.sectors w).getD (BitVec.allOnes 8192)
/-- A sector is erased (R478): nothing has programmed it since its block was erased, and nothing was cut in it. -/
def flashErased (s : State) (w : Nat) : Bool := !(flashTorn s w) && (tabGet none s.fls.sectors w).isNone
def putFlash (w : Nat) (d : BitVec 8192) (s : State) : State := { s with fls := { s.fls with sectors := tabSet none s.fls.sectors w (some d) } }
/-- Four sectors as a block of 4 KiB. -/
def flashBlock4 (s : State) (w : Nat) : Block := (List.range 4).foldl (fun b i => b ||| ((flashData s (w + i)).setWidth 32768 <<< (8192 * i))) 0
def putFlashBlock (w : Nat) (b : Block) (s : State) : State := each (List.range 4) (fun i s => putFlash (w + i) ((b >>> (8192 * i)).setWidth 8192) s) s
/-- A line as the flash holds it. -/
def lineData (s : State) (line : Nat) : BitVec 2048 := (flashData s (line / 4) >>> (2048 * (line % 4))).setWidth 2048

-- What a cut leaves (R485, R489).

/-- Pages of a block whose content a cut program of a page leaves open: the page, and in a dense block the lower page that an upper page pairs with. -/
def cutPages (dense : Bool) (page : Nat) : BitVec 1024 :=
  let lower := if page = 2 then 0 else page - 3
  BitVec.twoPow 1024 page ||| (if dense && (page = 1023 || (page % 2 = 0 && page ≠ 0)) then BitVec.twoPow 1024 (if page = 1023 then 1021 else lower) else 0)
/-- A bank stops in the middle of a program or an erase: what it worked on is not known. -/
def cutBank (b : Nat) (s : State) : State :=
  let k := getBank s b
  let dense := (regionOf s k.kind).any (·.dense)
  if k.op = 2 then modBlk s (512 * b + k.block) fun d => { d with torn := d.torn ||| cutPages dense k.page }
  else if k.op = 3 then modBlk s (512 * b + k.block) fun d => { d with torn := BitVec.allOnes 1024 }
  else s

end Sys2Proof.Machine
end

