-- ==== Sys2Proof/Machine/Elements.lean ====
section
/-! DEFINITION. What the transfer engine's descriptors name and move (chapter 10): the fabric (Table 10.2), descriptors and their index tables (R318,
R320), and the elements of types 1 to 4 and 7 (R319, R321). -/

namespace Sys2Proof.Machine

-- Fabric space (Table 10.2), in 4 KiB units.

/-- Where an address of the fabric space lies. -/
inductive Fabric where
  | millpond (f : Nat) | millrace (k : Nat) | tailrace (a : Nat) | stream (p : Nat) | flash (w : Nat) | tcm (k : Nat) | none
deriving DecidableEq, Repr

def fabricOf (u : Nat) : Fabric :=
  if u < 0x100000 then .millpond u
  else if u < 0x106000 then .millrace (u - 0x100000)
  else if 0x200000 ≤ u && u < 0x208000 && u % 0x1000 = 0 then .tailrace (u / 0x1000 - 0x200)
  else if u = 0x300000 || u = 0x301000 then .stream (u / 0x1000 - 0x300)
  else if 0x400000 ≤ u && u < 0x1400000 then .flash (u - 0x400000)
  else if 0x2000000 ≤ u && u < 0x2000400 then .tcm (u - 0x2000000)
  else .none
/-- Regions told apart: the four tightly coupled memories are one each. -/
def fabricId : Fabric → Nat
  | .millpond _ => 1 | .millrace _ => 2 | .tailrace a => 16 + a | .stream p => 32 + p | .flash _ => 3 | .tcm k => 4 + k / 256 | .none => 0
/-- A channel may use a region so (Table 10.2). -/
def fabricAllows (ch : Nat) (write : Bool) (r : Fabric) : Bool :=
  match r with
  | .millpond _ | .millrace _ => true
  | .tailrace _ => write && decide (32 ≤ ch) && decide (ch < 48)
  | .stream _ => !write && decide (ch < 16)
  | .flash _ => ch = 61 || ch = 62
  | .tcm _ => ch = 58 || ch = 59
  | .none => false
def isStream : Fabric → Bool | .tailrace _ | .stream _ => true | _ => false
/-- A buffer lies within one region, a stream with no length at its start (R317). -/
def bufferOk (ch : Nat) (write : Bool) (base len : Nat) : Bool :=
  let r := fabricOf base
  fabricAllows ch write r &&
    (if isStream r then len = 0 else decide (1 ≤ len) && fabricId (fabricOf (base + len - 1)) = fabricId r)
def readElem (s : State) (u : Nat) : Block :=
  match fabricOf u with
  | .millpond f => frameView s f
  | .millrace k => (getSlot s k).data
  | .flash w => flashBlock4 s (4 * w)
  | .tcm k => tabGet 0 s.tre.tcm k
  | _ => 0
def writeElem (u : Nat) (b : Block) (s : State) : State :=
  match fabricOf u with
  | .millpond f => setFrame s f b
  | .millrace k => writeSlot k (fun d => { d with data := b, ready := d.used }) s
  | .flash w => putFlashBlock (4 * w) b s
  | .tcm k => { s with tre := { s.tre with tcm := tabSet 0 s.tre.tcm k b } }
  | _ => s

-- Descriptors and index tables.

def dCount (d : Descriptor) : Nat := d.count.toNat
/-- ARM, PAR_HEAD, TRACK, masks and REUSE of ARG (R322). -/
def argArm (d : Descriptor) : Nat := bitsOf 31 29 d.arg.toNat
def argPar (d : Descriptor) : Nat := bitsOf 28 26 d.arg.toNat
def argTrack (d : Descriptor) : Nat := bitsOf 25 25 d.arg.toNat
def argHead (d : Descriptor) (h : Nat) : Bool := bitOf (17 + h) d.arg.toNat
def argSlot (d : Descriptor) (sl : Nat) : Bool := bitOf (1 + sl) d.arg.toNat
def argReuse (d : Descriptor) : Bool := bitOf 0 d.arg.toNat
/-- Entries of its index table (Table 10.4, R322, R325). -/
def tableLen (i : Image) (d : Descriptor) : Nat :=
  match d.type.toNat with
  | 2 | 3 => dCount d
  | 4 => 2 * dCount d
  | 5 => 3 * bR i + 2
  | 6 => bR i
  | _ => 0
/-- Index entry n. -/
def entryAt (s : State) (d : Descriptor) (n : Nat) : Nat :=
  let byte := 4 * (d.idxAddr.toNat + n)
  ((readElem s (byte / 4096) >>> (8 * (byte % 4096))).setWidth 32).toNat
/-- An entry value that range checks leave out (R321). -/
def exempt (e : Nat) : Bool := e = 0xFFFFFFFD || e = 0xFFFFFFFE || e = 0xFFFFFFFF
/-- Pulse a line (R327). -/
def pulse (l : Nat) (s : State) : State := { s with tre := { s.tre with events := tabMod 0 s.tre.events l (· + 1) } }
def pulseDone (ch : Nat) (d : Descriptor) (s : State) : State := if d.event = 0 then s else pulse (64 + 3 * ch + d.event.toNat - 1) s
-- Elements.

/-- Units of the fabric that element n of a descriptor reads and writes. -/
def elemUnits (s : State) (d : Descriptor) (n : Nat) : Nat × Nat :=
  let src := d.srcBase.toNat
  let dst := d.dstBase.toNat
  match d.type.toNat with
  | 2 => (src + entryAt s d n, dst + n)
  | 3 => (src + n, dst + entryAt s d n)
  | 4 => (src + entryAt s d (2 * n), dst + entryAt s d (2 * n + 1))
  | _ => (src + n, dst + n)
def moves (d : Descriptor) : Bool := d.type = 1 || d.type = 2 || d.type = 3 || d.type = 4 || d.type = 7
/-- The flash refuses an element of the window (R483, R484, R487): to read an execute-only region or no region, to program any but a dump
area, or sectors that are not erased. The dump areas belong to channels 61 and 62. The address, and whether the refused access is a write. -/
def flashRefuses (s : State) (d : Descriptor) (n : Nat) : Option (Nat × Bool) :=
  let u := elemUnits s d n
  let src := if d.type = 7 then none else match fabricOf u.1 with | .flash w => some w | _ => none
  let dst := match fabricOf u.2 with | .flash w => some w | _ => none
  if src.any fun w => !((pageAt s (w / 4)).any fun x => x.1.access ≠ 0) then some (4096 * u.1, false)
  else if dst.any fun w => !((pageAt s (w / 4)).any fun x => x.1.kind = 3 || x.1.kind = 4) || !((List.range 4).all fun i => flashErased s (4 * w + i)) then some (4096 * u.2, true)
  else none
/-- An element is handed to the partner mirror too (R303, R318): its parts, and the ledger entry of its block frame. -/
def mirrorUnit (send : CtlRec → State → State) (u : Nat) (s : State) : State :=
  match fabricOf u with
  | .millpond f =>
    let s := each (List.range 8) (fun fib s => send (.mdata f fib ((getFrame s f >>> (4096 * fib)).setWidth 4096)) s) s
    if (getEntry s f).valid then send (.ment [getEntry s f]) s else s
  | _ => s
/-- Blocks of a port's receive stream that a SCATTER has yet to take (R317). -/
def streamOfPort (s : State) (p : Nat) : List Block := tabGet [] s.tre.streams p
/-- Element n of a stream SCATTER takes the next block of its port's receive stream. -/
def takeStream (p : Nat) (s : State) : Block × State :=
  ((streamOfPort s p).headD 0, { s with tre := { s.tre with streams := tabSet [] s.tre.streams p ((streamOfPort s p).drop 1) } })
/-- Element n of types 1 to 4 and 7: moved, or the index entry that is out of range (R321 step 2). -/
def moveUnit (n : Nat) (d : Descriptor) (s : State) : Option Nat × State :=
  let u := elemUnits s d n
  match d.type.toNat with
  | 2 => if d.srcLen.toNat ≤ entryAt s d n then (some n, s) else (none, writeElem u.2 (readElem s u.1) s)
  | 3 =>
    if d.dstLen.toNat ≤ entryAt s d n then (some n, s)
    else match fabricOf d.srcBase.toNat with
      | .stream p => let x := takeStream p s; (none, writeElem u.2 x.1 x.2)
      | _ => (none, writeElem u.2 (readElem s u.1) s)
  | 4 =>
    if d.srcLen.toNat ≤ entryAt s d (2 * n) then (some (2 * n), s)
    else if d.dstLen.toNat ≤ entryAt s d (2 * n + 1) then (some (2 * n + 1), s)
    else (none, writeElem u.2 (readElem s u.1) s)
  | 7 => (none, writeElem u.2 ((List.range 1024).foldl (fun b i => b ||| (d.arg.setWidth 32768 <<< (32 * i))) 0) s)
  | _ => (none, if moves d then writeElem u.2 (readElem s u.1) s else s)
/-- Elements that go before a channel stops at an element boundary (R329, R330): up to `k` from `n` on, none past one that cannot move. -/
def moveUntil (d : Descriptor) : Nat → Nat → State → State
  | 0, _, s => s
  | k + 1, n, s =>
    if !moves d || (flashRefuses s d n).isSome then s
    else match moveUnit n d s with
      | (some _, _) => s
      | (none, s) => moveUntil d k (n + 1) s
/-- A running channel stops at its next element boundary (R330); how many of its elements have gone by then is open (log entry 47). -/
def stopChannel (ch : Nat) (s : State) : State :=
  let c := getTre s ch
  let s := match c.ring with
    | (d, _) :: _ =>
      if c.running && moves d then moveUntil d ((freeVal s).toNat % (dCount d - c.elemIdx + 1)) c.elemIdx (nextFree s) else s
    | [] => s
  modTre s ch fun c => { c with state := 0, cut := true, running := false }

end Sys2Proof.Machine
end

