-- ==== Sys2Proof/Machine/Codes.lean ====
section
/-! DEFINITION. The codes that protect data: CRCs (R144, R339, Tables 6.1, 6.6b), SEC-DED (R524), and the quasi-cyclic LDPC code with its
layered min-sum decoder (R146–R148). -/

namespace Sys2Proof.Machine

/-- Bits of a number, bit 0 first. -/
def bitsLsb (w n : Nat) : List Bool := (List.range w).map fun i => n.testBit i
/-- Bits of a number, highest first. -/
def bitsMsb (w n : Nat) : List Bool := (bitsLsb w n).reverse
/-- The number whose bits are given, bit 0 first. -/
def natOfBits : List Bool → Nat
  | [] => 0
  | b :: bs => b2n b + 2 * natOfBits bs

/-- CRC-32C over bits in ascending order: reflected polynomial 0x82F6_3B78, initial value and final XOR all ones (R144). -/
def crc32c (bs : List Bool) : Nat :=
  Nat.xor 0xFFFFFFFF (bs.foldl (fun c b => if (c % 2 = 1) != b then Nat.xor (c / 2) 0x82F63B78 else c / 2) 0xFFFFFFFF)
def bytesBits (bs : List Byte) : List Bool := bs.flatMap fun b => bitsLsb 8 b.toNat
/-- CRC of `w` bits, highest bit first, no reflection: the register after shifting the bits in. -/
def crcMsb (w poly init : Nat) (bs : List Bool) : Nat :=
  bs.foldl (fun c b => if c.testBit (w - 1) != b then Nat.xor (c * 2 % 2 ^ w) poly else c * 2 % 2 ^ w) init
/-- CRC-16, x^16 + x^12 + x^5 + 1, initial value 0xFFFF, of bits 63:16 of a VCM frame (Tables 6.6b, 6.7). -/
def crc16 (w : Nat) : Nat := crcMsb 16 0x1021 0xFFFF (bitsMsb 48 (w / 65536))
/-- CRC-4, x^4 + x + 1, initial value 0, of the 12 upper runout bits (Table 6.1). -/
def crc4 (v : Nat) : Nat := crcMsb 4 0x3 0 (bitsMsb 12 v)

-- SEC-DED (R524).

def weight (w n : Nat) : Nat := ((bitsLsb w n).filter id).length
/-- Columns of the data bits: the weight-3 vectors in ascending order, then the first eight of weight 5. -/
def secDedColumns : List Nat := (List.range 256).filter (fun v => weight 8 v = 3) ++ ((List.range 256).filter (fun v => weight 8 v = 5)).take 8
/-- Check byte of 64 data bits. -/
def secDedCheck (d : Word) : BitVec 8 :=
  BitVec.ofNat 8 ((secDedColumns.zipIdx).foldl (fun c ci => if d.getLsbD ci.2 then Nat.xor c ci.1 else c) 0)
def syndromeOf (d : Word) (check : BitVec 8) : BitVec 8 := secDedCheck d ^^^ check
/-- What a word and its check byte say: no error, one corrected data or check bit, or uncorrectable. -/
inductive EccResult where | clean | fixed (d : Word) | uncorrectable
deriving DecidableEq, Repr
def eccRead (d : Word) (check : BitVec 8) : EccResult :=
  let s := (syndromeOf d check).toNat
  if s = 0 then .clean
  else match secDedColumns.findIdx? (· = s) with
    | some i => .fixed (d ^^^ BitVec.twoPow 64 i)
    | none => if weight 8 s = 1 then .fixed d else .uncorrectable

-- LDPC (R146–R148).

/-- Non-empty blocks (block column, shift) of block row r, in column order. -/
def ldpcRow (r : Nat) : List (Nat × Nat) :=
  ((List.range 259).filter fun c =>
    let u := c / 29
    let v := c % 29
    r = v || r = (v + u + 1) % 29 || r = (v + 3 * u + 4) % 29).map (fun c => (c, (c * (2 * r + 1) + 7 * r * r) % 128)) ++
  (if r = 0 then [] else [(259 + r - 1, 0)]) ++ [(259 + r, 0)]
/-- Bits of check 128r + i. -/
def ldpcCheck (r i : Nat) : List Nat := (ldpcRow r).map fun cs => 128 * cs.1 + (i + cs.2) % 128
/-- The parity of the given bits on one check. -/
def checkParity (bits : Nat → Bool) (r i : Nat) : Bool := (ldpcCheck r i).foldl (fun p j => p != bits j) false
/-- Checks that the bits leave unsatisfied. -/
def unsatisfied (bits : Nat → Bool) : Nat :=
  ((List.range 29).flatMap fun r => (List.range 128).map fun i => b2n (checkParity bits r i)).sum
/-- Encode 33,152 information bits (R147): p_0 := σ_0, p_j := σ_j XOR p_(j−1). -/
def ldpcEncode (info : BitVec 33152) : BitVec 36864 :=
  let word (c : Nat) : BitVec 36864 → Nat → Bool := fun b k => b.getLsbD (128 * c + k)
  (List.range 29).foldl (fun (b : BitVec 36864) j =>
    (List.range 128).foldl (fun (b : BitVec 36864) i =>
      let sigma := ((ldpcCheck j i).filter (· < 33152)).foldl (fun p k => p != info.getLsbD k) false
      let prev := j ≠ 0 && word (259 + j - 1) b i
      if sigma != prev then b ||| BitVec.twoPow 36864 (128 * (259 + j) + i) else b) b) (info.setWidth 36864)

def sat8 (x : Int) : Int := clampInt (-127) 127 x
/-- Posterior values and check messages of an engine: `p` by bit, `r` by (check, place in the check). -/
structure MinSum where
  p : Array Int := #[]
  r : Array Int := #[]
deriving Inhabited
/-- Place of a check message: 32 places a check. -/
def msgAt (r i e : Nat) : Nat := (128 * r + i) * 32 + e
/-- One check of a layer (R148). -/
def checkStep (r i : Nat) (m : MinSum) : MinSum :=
  let js := ldpcCheck r i
  let qs := js.mapIdx fun e j => sat8 (m.p.getD j 0 - m.r.getD (msgAt r i e) 0)
  js.zipIdx.foldl (fun m je =>
    let others := qs.eraseIdx je.2
    let mag := (others.map Int.natAbs).foldl min 127
    let par := others.foldl (fun b q => b != decide (0 < q)) false
    let v : Int := min (3 * mag / 4) 31
    let v := if par then v else -v
    { p := m.p.setIfInBounds je.1 (sat8 (qs.getD je.2 0 + v)), r := m.r.setIfInBounds (msgAt r i je.2) v }) m
def layerStep (m : MinSum) (r : Nat) : MinSum := (List.range 128).foldl (fun m i => checkStep r i m) m
def iteration (m : MinSum) : MinSum := (List.range 29).foldl layerStep m
def hardBit (m : MinSum) (j : Nat) : Bool := decide (0 < m.p.getD j 0)
/-- Run at most `n` iterations: the number of the iteration that converged, if one did, and the last values. -/
def minSum : Nat → Nat → MinSum → Option Nat × MinSum
  | 0, _, m => (none, m)
  | n + 1, done, m =>
    let m := iteration m
    if unsatisfied (hardBit m) = 0 then (some (done + 1), m) else minSum n (done + 1) m
/-- Soft value of bit i of a codeword's soft words (R118). -/
def softOf (soft : BitVec 147456) (i : Nat) : Int := signedOf 4 (bitsOf 3 0 (soft >>> (4 * i)).toNat)
/-- Decode a codeword (R148): iterations if it converged, and the hard decisions. -/
def ldpcDecode (limit : Nat) (soft : BitVec 147456) : Option Nat × BitVec 36864 :=
  let m0 : MinSum := { p := Array.ofFn fun (j : Fin 36864) => 4 * softOf soft j, r := Array.replicate (29 * 128 * 32) 0 }
  let (it, m) := minSum limit 0 m0
  (it, BitVec.ofNat 36864 (natOfBits ((List.range 36864).map (hardBit m))))

-- The information part (Table 5.1).

abbrev Info := BitVec 33152
def infoData (i : Info) : Block := i.setWidth 32768
def infoHtag (i : Info) : Word := (i >>> 32768).setWidth 64
def infoPaddr (i : Info) : Word := (i >>> 32832).setWidth 64
def infoPoison (i : Info) : Bool := i.getLsbD 32896
def infoReserved (i : Info) : BitVec 223 := (i >>> 32897).setWidth 223
def infoCrc (i : Info) : Nat := ((i >>> 33120).setWidth 32).toNat
/-- CRC of bits 33,119:0 (R144). -/
def infoCrcOf (i : Info) : Nat := crc32c (bitsLsb 33120 i.toNat)
/-- A data sector's information part with its address and CRC (R145, R147). -/
def infoOf (data : Block) (htag : Word) (poison : Bool) (paddr : Word) : Info :=
  let b : Info := data.setWidth 33152 ||| (htag.setWidth 33152 <<< 32768) ||| (paddr.setWidth 33152 <<< 32832) |||
    (if poison then BitVec.twoPow 33152 32896 else 0)
  b ||| ((BitVec.ofNat 33152 (infoCrcOf b)) <<< 33120)
/-- ADDR_CRC(A) of R161. -/
def addrCrc (a : Word) : Nat := Nat.xor (infoCrcOf (a.setWidth 33152 <<< 32832)) (infoCrcOf 0)
/-- Reconstruction from the other members of an equation (R160, R161): the lost sector's information part, if the check passes. -/
def reconstruct (members : List Info) (paddr : Word) : Option Info :=
  let x := members.foldl (fun a m => a ^^^ m) 0
  let a := members.foldl (fun a m => a ^^^ infoPaddr m) paddr
  let want := members.foldl (fun c m => Nat.xor c (infoCrc m)) (addrCrc a)
  let got := infoOf (infoData x) (infoHtag x) (infoPoison x) paddr
  if infoCrc got = want && infoReserved x = 0 then some got else none

end Sys2Proof.Machine
end

