-- ==== Sys2Proof/Machine/ArmBlock.lean ====
section
/-! DEFINITION. Blocks and rounds of an arm link (R71–R74): the block code, the scrambler and alignment blocks; the rounds that the part sends
from its messages and write streams (R73, R79, R81, R82, R84); and what the words of an uplink round are as commands (R73, R77, R78). -/

namespace Sys2Proof.Machine

-- Reed-Solomon codes over GF(2^10) (R72, R337).

/-- A code of `n` symbols with `p` parity symbols, in the field and from the first root given; neither rule gives field or root (log entry 42). -/
structure RsCode where
  n : Nat
  p : Nat
  field : Nat
  root : Nat
/-- RS(272,258), which corrects 7 symbols (R72). -/
def armCode : RsCode := { n := 272, p := 14, field := Config.rsField, root := Config.rsRoot }
/-- RS(544,514), which corrects 15 symbols (R337). -/
def laneCode : RsCode := { n := 544, p := 30, field := Config.laneField, root := Config.laneRoot }

def RsCode.mul (c : RsCode) (a b : Nat) : Nat :=
  (List.range 10).foldr (fun k r =>
    let r := 2 * r
    let r := if r.testBit 10 then Nat.xor r c.field % 1024 else r
    if b.testBit k then Nat.xor r a else r) 0
def RsCode.pow (c : RsCode) (a : Nat) : Nat → Nat
  | 0 => 1
  | n + 1 => c.mul a (c.pow a n)
/-- The n-th power of the primitive element x. -/
def RsCode.exp (c : RsCode) (n : Nat) : Nat := c.pow 2 (n % 1023)
def RsCode.inv (c : RsCode) (a : Nat) : Nat := c.pow a 1022
/-- Value of a polynomial, lowest coefficient first. -/
def RsCode.eval (c : RsCode) (p : List Nat) (x : Nat) : Nat := p.foldr (fun a r => Nat.xor (c.mul r x) a) 0
def gfAdd (p q : List Nat) : List Nat := (List.range (max p.length q.length)).map fun k => Nat.xor (p.getD k 0) (q.getD k 0)
def RsCode.scale (c : RsCode) (a : Nat) (p : List Nat) : List Nat := p.map (c.mul a)
def RsCode.polyMul (c : RsCode) (p q : List Nat) : List Nat := p.foldr (fun a r => gfAdd (c.scale a q) (0 :: r)) []
/-- Generator with p roots. -/
def RsCode.generator (c : RsCode) : List Nat := (List.range c.p).foldl (fun g k => c.polyMul g [c.exp (c.root + k), 1]) [1]
/-- Symbols of a codeword, 10 bits each, symbol 0 in bits 9:0. -/
def rsSymbols (n : Nat) (w : Nat) : List Nat := (List.range n).map fun k => w / 1024 ^ k % 1024
def ofSymbols (xs : List Nat) : Nat := xs.foldr (fun x r => x + 1024 * r) 0
/-- Parity: the remainder of the information, above p zero symbols, by the generator. -/
def RsCode.parity (c : RsCode) (info : List Nat) : List Nat :=
  let g := c.generator.take c.p
  info.foldr (fun x (r : List Nat) =>
    let f := Nat.xor x (r.getD (c.p - 1) 0)
    gfAdd (0 :: r.take (c.p - 1)) (c.scale f g)) (List.replicate c.p 0)
/-- Codeword of 10(n - p) information bits: parity in the p lowest symbols (log entry 42). -/
def RsCode.encode (c : RsCode) (info : Nat) : Nat :=
  let xs := rsSymbols (c.n - c.p) info
  ofSymbols (c.parity xs ++ xs)
def RsCode.syndromes (c : RsCode) (xs : List Nat) : List Nat := (List.range c.p).map fun j => c.eval xs (c.exp (c.root + j))
/-- Error locator of the syndromes (Berlekamp and Massey): the polynomial and its length. -/
def RsCode.locator (c : RsCode) (syn : List Nat) : List Nat × Nat :=
  let r := (List.range c.p).foldl (fun (x : List Nat × List Nat × Nat × Nat) n =>
    let (loc, prev, len, b) := x
    let d := (List.range (len + 1)).foldl (fun a k => Nat.xor a (c.mul (loc.getD k 0) (syn.getD (n - k) 0))) 0
    let prev := 0 :: prev
    if d = 0 then (loc, prev, len, b)
    else
      let next := gfAdd loc (c.scale (c.mul d (c.inv b)) prev)
      if 2 * len ≤ n then (next, loc, n + 1 - len, d) else (next, prev, len, b)) ([1], [1], 0, 1)
  (r.1, r.2.2.1)
/-- The codeword within p/2 symbol errors of what was received: its information, and the number of symbols corrected; none where there is
none (R72, R337). -/
def RsCode.decode (c : RsCode) (w : Nat) : Option (Nat × Nat) :=
  let xs := rsSymbols c.n w
  let syn := c.syndromes xs
  let (loc, len) := c.locator syn
  let places := (List.range c.n).filter fun k => c.eval loc (c.exp (1023 - k % 1023)) = 0
  let omega := (c.polyMul loc syn).take c.p
  let slope := (loc.zipIdx.drop 1).map fun (e : Nat × Nat) => if e.2 % 2 = 1 then e.1 else 0
  let fix (k : Nat) : Nat :=
    let xi := c.exp (1023 - k % 1023)
    c.mul (c.exp (k * (1024 - c.root % 1023))) (c.mul (c.eval omega xi) (c.inv (c.eval slope xi)))
  let ys := xs.mapIdx fun k x => if places.contains k then Nat.xor x (fix k) else x
  if len ≤ c.p / 2 ∧ places.length = len ∧ (c.syndromes ys).all (· = 0) then some (ofSymbols (ys.drop c.p), len) else none

-- Scrambler and PRBS31.

/-- Bits of the recurrence b(n) = b(n − w) xor b(n − t), from a state whose bit 0 leaves first. -/
def lfsrBits (w t : Nat) : Nat → Nat → List Bool
  | 0, _ => []
  | n + 1, s => s.testBit 0 :: lfsrBits w t n (s / 2 + if s.testBit 0 != s.testBit (w - t) then 2 ^ (w - 1) else 0)
def bitsToNat (bs : List Bool) : Nat := bs.foldr (fun b r => b2n b + 2 * r) 0
/-- The first `n` bits of the additive scrambler x^58 + x^39 + 1 from where it restarts (R72, R337). -/
def scramblerBits (n : Nat) (start : BitVec 58) : Nat := bitsToNat (lfsrBits 58 39 n start.toNat)
/-- The scrambler over one block (R72). -/
def scramble (info : BitVec 2580) : BitVec 2580 := info ^^^ BitVec.ofNat 2580 (scramblerBits 2580 Config.scramblerStart)
/-- The first bits of PRBS31 from the all-ones state (R74). -/
def prbs31 : Nat := bitsToNat (lfsrBits 31 28 2432 (2 ^ 31 - 1))

-- Blocks (Table 3.1).

/-- Information bits of a block: header in bits 19:0, word k in bits 64k+83:64k+20. -/
def blockInfo (t bseq lane : Nat) (words : List Word) : BitVec 2580 :=
  BitVec.ofNat 2580 (t * 2 ^ 14 + bseq % 512 * 2 ^ 5 + lane + 2 ^ 20 * words.foldr (fun w r => w.toNat + 2 ^ 64 * r) 0)
def infoWord (b : BitVec 2580) (k : Nat) : Word := (b >>> (20 + 64 * k)).setWidth 64
def infoWords (b : BitVec 2580) : List Word := (List.range 40).map (infoWord b)
def armEncode (info : BitVec 2580) : BitVec 2720 := BitVec.ofNat 2720 (armCode.encode info.toNat)
def armDecode (w : BitVec 2720) : Option (BitVec 2580) := (armCode.decode w.toNat).map fun d => BitVec.ofNat 2580 d.1
def dataBlock (t bseq lane : Nat) (words : List Word) : BitVec 2720 := armEncode (scramble (blockInfo t bseq lane words))
/-- Alignment mark (R74). -/
def alignMark : Word := 0xC3A596F05A3C0F69
/-- Lane identity word: physical lane, direction, FZA816 port (R74). -/
def laneIdentity (lane : Nat) (down : Bool) (port : Nat) : Word := BitVec.ofNat 64 (lane + 32 * b2n down + 64 * port)
def alignBlock (bseq logical lane : Nat) (down : Bool) (port : Nat) : BitVec 2720 :=
  armEncode (blockInfo 63 bseq logical (alignMark :: laneIdentity lane down port :: (List.range 38).map fun k => BitVec.ofNat 64 (prbs31 / 2 ^ (64 * k))))
/-- Logical lane of a physical lane, the last of `lanes` being the spare until one is mapped out (R94, R95); 31 on the spare. -/
def logicalLane (lanes out lane : Nat) : Nat :=
  if lane = out then 31 else if lane = lanes - 1 then (if out < lanes - 1 then out else 31) else lane
/-- Deskew of the lanes of one direction: up to 3 rounds between the first and the last (R74). -/
def deskews (skews : List Nat) : Bool := decide (skews.foldl max 0 - skews.foldl min (skews.headD 0) ≤ 4080)

-- Downlink rounds.

/-- Header word of a control message (Table 3.5). -/
def msgHeader (m : AlkMsg) : Word :=
  BitVec.ofNat 64 (m.type * 2 ^ 58 + m.head * 2 ^ 55 + m.payload.length * 2 ^ 52 + b2n m.ackReq * 2 ^ 51 + m.seq * 2 ^ 40 + b2n m.imm * 2 ^ 39 +
    if m.imm then 0 else m.apply % 2 ^ 39)
def msgWords (m : AlkMsg) : List Word := msgHeader m :: m.payload
/-- NOP, LEN 0 (R82). -/
def nopWord : Word := 0
/-- Put a message before the engine: an immediate one ahead of every queued message, but after immediate ones before it (R84). -/
def queueMsg (m : AlkMsg) (q : List AlkMsg) : List AlkMsg := if m.imm then q.filter (·.imm) ++ m :: q.filter (!·.imm) else q ++ [m]
/-- Cells of a stream word: 60, or a gap's COUNT (R79); the end word has none. -/
def wordCells (w : Word) : Nat := if w.toNat / 2 ^ 63 = 0 then 60 else if w.toNat % 2 ^ 32 = 2 ^ 32 - 1 then 0 else w.toNat % 2 ^ 32
/-- Cells of a stream that have been written at a link tick (R80). -/
def cellsAt (o : OutStream) (tick : Nat) : Nat := if tick ≤ o.start || o.period = 0 then 0 else (tick - o.start) * 2 ^ 32 / o.period
/-- Room in the FZA816's write FIFO of 1,024 words by the tailrace's account (R81). -/
def fifoRoom (o : OutStream) (tick : Nat) : Nat := 1024 - (o.ends.filter fun e => decide (cellsAt o tick < e)).length
/-- Take up to `n` words of a head's stream into a round. -/
def takeWords (n tick : Nat) (o : OutStream) : List Word × OutStream :=
  let ws := o.words.take (min n (fifoRoom o tick))
  let ends := ws.foldl (fun (p : List Nat × Nat) w => (p.1 ++ [p.2 + wordCells w], p.2 + wordCells w)) ([], o.cells)
  (ws, { o with words := o.words.drop ws.length, ends := (o.ends.filter fun e => decide (cellsAt o tick < e)) ++ ends.1, cells := ends.2 })
/-- The head with words to send whose FIFO has the most room (R81: no head starves while another's FIFO fills; log entry 42). -/
def emptiest (tick : Nat) (outs : Tab OutStream) : Option Nat :=
  (((List.range 8).map fun h => (h, tabGet {} outs h)).filter fun e => !e.2.words.isEmpty && decide (0 < fifoRoom e.2 tick)).foldl
    (fun (m : Option (Nat × Nat)) e => match m with
      | some (_, k) => if k < fifoRoom e.2 tick then some (e.1, fifoRoom e.2 tick) else m
      | none => some (e.1, fifoRoom e.2 tick)) none |>.map (·.1)
/-- Stream words of a round: word by word to the head whose FIFO is emptiest. -/
def roundStream : Nat → Nat → Tab OutStream → List Word × Tab OutStream
  | 0, _, outs => ([], outs)
  | n + 1, tick, outs => match emptiest tick outs with
    | none => ([], outs)
    | some h =>
      let (ws, o) := takeWords 1 tick (tabGet {} outs h)
      let r := roundStream n tick (tabSet {} outs h o)
      (ws ++ r.1, r.2)
/-- Message words of a round: the rest of the message begun before, then the queue's as far as `n` words go; the words, what is left, and the
messages that were begun. -/
def roundMsgs : Nat → List Word → List AlkMsg → List Word × List Word × List AlkMsg × List AlkMsg
  | n, rest, [] => (rest.take n, rest.drop n, [], [])
  | n, rest, m :: ms =>
    if n ≤ rest.length then (rest.take n, rest.drop n, m :: ms, [])
    else
      let r := roundMsgs (n - rest.length) (msgWords m) ms
      (rest ++ r.1, r.2.1, r.2.2.1, m :: r.2.2.2)
/-- T of the two blocks of a round with so many stream words, of which lane 0 leaves `urgent` slots free (R84). -/
def roundT (stream urgent : Nat) : Nat × Nat :=
  let first := min stream (40 - min 40 urgent)
  (40 - first, 40 - (stream - first))
/-- One data round of an arm's downlink: messages before stream words, immediate ones in lane 0, NOP in what is left (R73, R82, R84). -/
def dataRound (a r : Nat) (s : State) : State :=
  let k := getAlk s a
  let tick := 1360 * r
  let (msg, rest, left, begun) := roundMsgs 80 k.msgRest k.msgs
  let urgent := k.msgRest.length + ((k.msgs.filter (·.imm)).map fun m => 1 + m.payload.length).sum
  let (str, outs) := roundStream (80 - msg.length) tick k.outs
  let t := roundT str.length urgent
  let msg' := msg ++ List.replicate (t.1 + t.2 - msg.length) nopWord
  let block (lane : Nat) : List Word :=
    if lane = 0 then str.take (40 - t.1) ++ msg'.take t.1 else if lane = 1 then str.drop (40 - t.1) ++ msg'.drop t.1 else List.replicate 40 nopWord
  let seqs := (if k.msgRest.isEmpty then [] else [k.msgSeq]) ++ begun.map (·.seq)
  let s := modAlk s a fun k => { k with
    msgs := left, msgRest := rest, msgSeq := (begun.getLast?.map (·.seq)).getD k.msgSeq, outs,
    sentIn := (k.sentIn.filter fun e => e.2 ≠ r % 512) ++ seqs.map fun q => (q, r % 512) }
  each [0, 1, 2] (fun p s =>
    let l := logicalLane 3 k.dnOut p
    send (.block a p (dataBlock (if l = 0 then t.1 else if l = 1 then t.2 else 40) r l (block l))) s) s
/-- An alignment round of an arm's downlink (R74). The FZA816's port is the ROLE strap (R89). -/
def alignRound (a r : Nat) (s : State) : State :=
  each [0, 1, 2] (fun p s => send (.block a p (alignBlock r (logicalLane 3 (getAlk s a).dnOut p) p true (b2n s.pwr.role))) s) s
/-- The lane map last sent holds from the first round that starts at its tick or later (R95). -/
def followMap (a r : Nat) (s : State) : State :=
  match (getAlk s a).mapAt with
  | some (t, up, dn) => if t ≤ 1360 * r then modAlk s a fun k => { k with upOut := up, dnOut := dn, mapAt := none } else s
  | none => s
/-- Round number r of an arm's downlink; every 16,384th is an alignment round (R74). -/
def alkRound (a r : Nat) (s : State) : State := if r % 16384 = 0 then alignRound a r (followMap a r s) else dataRound a r (followMap a r s)
/-- Number of the round that runs at a device time: 56 link ticks a nanosecond, 1,360 a round (R71, R72). -/
def roundAt (t : Nat) : Nat := 56 * t / 1360
/-- The rounds that begin between two device times, on every link that is up, and the alignment rounds of one in EXCHANGE (Table 3.9). -/
def alkRounds (t0 t1 : Nat) (s : State) : State :=
  each (List.range 8) (fun a s =>
    let rounds := (List.range (roundAt t1 - roundAt t0)).map (roundAt t0 + 1 + ·)
    if (getAlk s a).link = 2 || (getAlk s a).link = 3 || (getAlk s a).settling then each rounds (alkRound a) s
    else if (getAlk s a).waitIdentity then each rounds (alignRound a) s
    else s) s

-- Uplink rounds.

/-- The command that a telemetry word is (Table 3.3); none for IDLE. -/
def telemetryCommand (a : Fin 8) (w : Word) : Option Instr :=
  match bitsOf 63 56 w.toNat with
  | 0x00 => none
  | 0x01 => some (.streamMark a w)
  | 0x02 => some (.ackTelemetry a w)
  | 0x03 => some (.tempTelemetry a w)
  | 0x04 => some (.laserMon a w)
  | 0x05 => some (.heaterMon a w)
  | 0x06 => some (.readerMon a w)
  | 0x07 => some (.supplyTelemetry a w)
  | 0x08 => some (.faultTelemetry a w)
  | 0x09 => some (.wfifoTelemetry a w)
  | 0x0A => some (.portStatus a w)
  | 0x0B => some (.identity a w)
  | _ => some (.telemetryUndefined a w)
/-- An uplink alignment block is right for its lane: mark and identity (R74). -/
def alignOk (lane port : Nat) (b : BitVec 2580) : Bool := infoWord b 0 == alignMark && infoWord b 1 == laneIdentity lane false port
/-- What one uplink round is as commands, from the blocks of the physical lanes (R73, R74): its message words in order, its stream words in
order, and for each block that does not decode, or whose alignment words are wrong, ALK_UPLINK_UNCORR for the streams that run. A mark comes
before the words of its round (R77). This is how link words come to be commands; the queue takes them one by one (log entry 42). -/
def roundCommands (s : State) (a : Fin 8) (blocks : List (Fin 19 × BitVec 2720)) : List Instr :=
  let k := getAlk s a
  let read (lane : Nat) (cw : BitVec 2720) : Option (BitVec 2580) :=
    (armDecode cw).bind fun d =>
      if bitsOf 19 14 d.toNat = 63 then (if alignOk lane (b2n k.fzaPort) d then some d else none) else some (scramble d)
  let streams := ((List.range 16).filter fun n => (tabGet {} k.streams n).running).map (Fin.ofNat 16)
  let bad := blocks.filterMap fun e => if (read e.1.val e.2).isNone then some (Instr.alkUplinkUncorr a e.1 streams) else none
  let data := (List.range 18).filterMap fun l => (blocks.find? fun e => logicalLane 19 k.upOut e.1.val = l).bind fun e => (read e.1.val e.2).bind fun b =>
    let t := bitsOf 19 14 b.toNat
    if t = 63 then none else some (t, infoWords b)
  let stream := data.flatMap fun d => d.2.take (40 - d.1)
  let msgs := data.flatMap fun d => d.2.drop (40 - d.1)
  bad ++ msgs.filterMap (telemetryCommand a) ++ stream.map (Instr.sampleWord a)

end Sys2Proof.Machine
end

