-- ==== Sys2Proof/Machine/OpsMotion.lean ====
section
/-! DEFINITION. Shared operations of the moving parts: governor laws and contexts (R211–R228), arm-link control messages (R82–R88), VCM
drive frames (R204, R205), switching heads and arms off and unloading them (R202, R203), and the spindle's drive modes (R240, R242,
R256, R262, R267). -/

namespace Sys2Proof.Machine

-- Laws.

/-- Coefficients of a section as exact numbers, to form DC gains (R224, R227). -/
structure SecCoef where
  b0 : Rat := 0
  b1 : Rat := 0
  b2 : Rat := 0
  a1 : Rat := 0
  a2 : Rat := 0
  integ : Bool := false

/-- Signed field hi:lo of a section entry (Table 7.3). -/
def entInt (e : BitVec 256) (hi lo : Nat) : Int := signedOf (hi + 1 - lo) (bitsOf hi lo e.toNat)
def entNat (e : BitVec 256) (hi lo : Nat) : Nat := bitsOf hi lo e.toNat
def coefOfEntry (e : BitVec 256) : SecCoef :=
  let v (hi lo sh sl : Nat) : Rat := (entInt e hi lo : Rat) / (2 : Rat) ^ entNat e sh sl
  { b0 := v 255 224 95 90, b1 := v 223 192 89 84, b2 := v 191 160 83 78, a1 := v 159 128 77 72, a2 := v 127 96 71 66,
    integ := e.getLsbD 65 }
def coefOfStart (q : Int × Int × Int × Int × Int) (integ : Bool) : SecCoef :=
  let u (x : Int) : Rat := (x : Rat) / 32768
  { b0 := u q.1, b1 := u q.2.1, b2 := u q.2.2.1, a1 := 2 * u q.2.2.2.1, a2 := u q.2.2.2.2, integ }

/-- START_ID of a context (Tables 7.1, 7.4). -/
def startId (n : Nat) : Nat :=
  if n < 8 then 0 else if n < 72 then 1 else if n < 136 then 2 else if n < 140 then n - 133 else if n < 148 then 7 else 8
/-- KIND of a context (Table 7.2). -/
def ctxKind (n : Nat) : Nat := startId n
/-- IN_MODE: the contexts whose input Table 7.1 gives as set-point minus measurement (log entry 12). -/
def inMode (n : Nat) : Bool := decide (72 ≤ n) && decide (n < 148)
def lawOfStart (n : Nat) : Config.StartLaw := Config.startLaw (startId n)
/-- Section-store entries of a context's service law (R214). -/
def servEntries (s : State) (c : Ctx) : List (BitVec 256) :=
  (List.range c.nServ).map fun k => tabGet 0 s.gov.store (c.servBase + k)
/-- Contexts with a service law: 139 to 147 have none (R221). -/
def hasService (s : State) (n : Nat) : Bool := !(decide (139 ≤ n) && decide (n < 148)) && decide (0 < (getCtx s n).nServ)
/-- Coefficients of the law in force. -/
def lawCoefs (s : State) (n : Nat) : List SecCoef :=
  let c := getCtx s n
  if c.fmt then (servEntries s c).map coefOfEntry
  else
    let l := lawOfStart n
    l.sections.mapIdx fun k q => coefOfStart q (l.integ.getD k false)
/-- DC gain of a section; an integrator counts by the sign of b0 + b1 (R224). -/
def dcGain (q : SecCoef) : Rat := if q.integ then q.b0 + q.b1 else (q.b0 + q.b1 + q.b2) / (1 + q.a1 + q.a2)
def signRat (r : Rat) : Int := if 0 < r then 1 else if r < 0 then -1 else 0
/-- σ of the section before `rest`: the sign of the DC gain from its output to the loop output (R224). -/
def sigmaOf (rest : List SecCoef) : Int := rest.foldl (fun a q => a * signRat (dcGain q)) 1

/-- Round half up to an integer (R215). -/
def roundHalfUp (r : Rat) : Int := (r + 1 / 2).floor

/-- DEADLINE, OUT_MIN, OUT_MAX and RAMP of a context: of contexts 139 to 147 from mask ROM (R221), of the rest the record's. The manual
gives the test contexts no deadline; the model takes the field's greatest value (log entry 12). -/
def ctxDeadline (s : State) (n : Nat) : Nat := if n = 139 then 20000 else if 140 ≤ n ∧ n < 148 then 8000 else if 148 ≤ n then 65535 else (getCtx s n).deadline
def ctxOutMin (s : State) (n : Nat) : Int :=
  if n = 139 then -(1000 * genImax s.img : Int) else if 140 ≤ n ∧ n < 148 then -32767 else (getCtx s n).outMin
def ctxOutMax (s : State) (n : Nat) : Int :=
  if n = 139 then 0 else if 140 ≤ n ∧ n < 148 then 32767 else (getCtx s n).outMax
def ctxRamp (s : State) (n : Nat) : Nat := if 139 ≤ n ∧ n < 148 then (lawOfStart n).ramp else (getCtx s n).ramp
/-- Clamp limits of a sample: in the start format those of the law's ROM (R219), which for contexts 138 to 147 stand beside the limits
that R221, R255 and R260 set. -/
def clampLo (s : State) (n : Nat) : Int :=
  if (getCtx s n).fmt then (getCtx s n).outMin
  else if 138 ≤ n ∧ n < 148 then max (lawOfStart n).outMin (ctxOutMin s n) else (lawOfStart n).outMin
def clampHi (s : State) (n : Nat) : Int :=
  if (getCtx s n).fmt then (getCtx s n).outMax
  else if 138 ≤ n ∧ n < 148 then min (lawOfStart n).outMax (ctxOutMax s n) else (lawOfStart n).outMax
/-- RAMP in force: the ROM's in the start format (R219), but context 138's as R255 sets it. -/
def rampOf (s : State) (n : Nat) : Nat := if (getCtx s n).fmt || n = 138 then ctxRamp s n else (lawOfStart n).ramp

/-- Preset of the positions after a handover (R227): the last integrator holds what gives `u` at DC, each later position its DC
input and output; a law without an integrator starts cleared. -/
def presetSecs (w : Nat) (u : Rat) (cs : List SecCoef) : List SecState :=
  match cs.reverse.findIdx? (fun q => q.integ) with
  | none => cs.map fun _ => {}
  | some r =>
    let k := cs.length - 1 - r
    let later := cs.drop (k + 1)
    let v := u / later.foldl (fun a q => a * dcGain q) 1
    let outs := later.foldl (fun (acc : List SecState × Rat) q =>
      let y := acc.2 * dcGain q
      let xi := satInt w (roundHalfUp acc.2)
      let yi := satInt w (roundHalfUp y)
      (acc.1 ++ [{ x1 := xi, x2 := xi, y1 := yi, y2 := yi }], y)) ([], v)
    List.replicate k {} ++ [{ y1 := satInt w (roundHalfUp v), y2 := satInt w (roundHalfUp v) }] ++ outs.1

/-- The handover of R227 into the law now in force, from the clamped output `u`. -/
def handover (n : Nat) (u : Int) (s : State) : State :=
  let c := getCtx s n
  let secs := if c.fmt then presetSecs 32 u (lawCoefs s n)
    else presetSecs 16 ((u : Rat) / (2 : Rat) ^ (lawOfStart n).outSh) (lawCoefs s n)
  modCtx s n fun c => { c with secs, rampK := some 0 }

/-- A format switch seen by the trace channels of that context (Table 7.8), and the trigger of SRC 4 (Table 7.7). -/
def traceSwitch (n : Nat) (s : State) : State :=
  let s := each (List.range 8) (fun c s => modTrace s c fun t =>
    if t.ctx = n ∧ t.mode ≠ 0 ∧ (t.state = 1 ∨ t.state = 2) then { t with swSeen := true, swIdx := t.writeIdx } else t) s
  if s.gov.src = 4 ∧ (getTrace s s.gov.trigCh).ctx = n then traceFire s else s

/-- End the injections of a context (R235): leaving the service format ends them. -/
def endSines (n : Nat) (s : State) : State :=
  each (List.range 4) (fun g s => if (getSine s g).ctx = n ∧ (getSine s g).on then modSine s g (fun x => { x with on := false }) else s) s

/-- Put a context into the start or the service format by the handover (R227). -/
def setFormat (n : Nat) (fmt : Bool) (s : State) : State :=
  let c := getCtx s n
  if c.fmt = fmt then s
  else
    let s := modCtx s n fun c => { c with fmt, inRun := 0, request := none, ovrRun := 0 }
    let s := if fmt then s else endSines n s
    traceSwitch n (handover n c.out s)

/-- Enable a context in its start law with cleared positions and a soft start (R222). An unfitted one stays disabled (R211). -/
def enableCtx (n : Nat) (s : State) : State :=
  modCtx s n fun c => { c with
    enable := true, fmt := false, secs := (lawOfStart n).sections.map (fun _ => {}), rampK := some 0, sat := 0, frozen := false, inRun := 0, request := none, ovrRun := 0, out := 0 }
def disableCtx (n : Nat) (s : State) : State :=
  let s := endSines n s
  modCtx s n fun c => { c with enable := false, fmt := false, request := none, sat := 0, frozen := false }
/-- One context takes a destination over from another (R212): the handover rule from the last output. -/
def takeOver (new old : Nat) (s : State) : State :=
  let u := (getCtx s old).out
  let s := enableCtx new (disableCtx old s)
  handover new u (modCtx s new fun c => { c with out := u })
/-- Change SETPOINT; a change during a ramp goes on from the present R_EFF (R222). -/
def setSetpoint (n : Nat) (v : Int) (s : State) : State :=
  modCtx s n fun c => if c.setpoint = v then c else { c with setpoint := v, rampK := match c.rampK with | some k => some k | none => some 0 }
/-- A loop that has failed is switched back after the quiet period, unless it has failed twice within 24 h (R234). -/
def mayReturn (s : State) (n : Nat) : Bool :=
  !(getCtx s n).failed || (s.flt.quietSince.isNone && decide ((recent s (86400 * oneSec) (getCtx s n).failTimes).length < 2))
/-- The owning unit requests the switch to the service law (R225, R234). -/
def requestSwitch (n : Nat) (s : State) : State :=
  if (getCtx s n).enable && !(getCtx s n).fmt && hasService s n && mayReturn s n then
    modCtx s n fun c => { c with request := match c.request with | some k => some k | none => some 0 }
  else s

-- Arm-link messages.

/-- Link ticks of device time (R71): 56 a nanosecond. -/
def linkTick (s : State) : Nat := 56 * now s
/-- Types refreshed at loop rate, sent without ACKREQ (R87). -/
def noAck (t : Nat) : Bool := t = 0 || t = 1 || t = 2 || t = 3 || t = 8 || t = 9
/-- The link carries messages: up, or in a lane swap. -/
def alkUp (s : State) (a : Nat) : Bool := (getAlk s a).link = 2 || (getAlk s a).link = 3

/-- Hand a message to the arm-link engine, for the first time or again. -/
def alkPut (a : Nat) (m : AlkMsg) (s : State) : State := send (.alk a m) (modAlk s a fun k => { k with msgs := queueMsg m k.msgs })
/-- Send a control message (Table 3.5), keeping those that wait for ACK (R87). A link in EXCHANGE carries messages (Table 3.9); a part that
has lost an arm, or retracts in Hold-up, sends nothing more (R92, Table 3.10). -/
def alkSend (a type head : Nat) (imm : Bool) (apply : Nat) (payload : List Word) (s : State) : State :=
  let k := getAlk s a
  if (alkUp s a || k.settling) && !k.muted then
    let m : AlkMsg := { type, head, ackReq := !noAck type, seq := k.seq, imm, apply := apply % 2 ^ 39, payload }
    alkPut a m (modAlk s a fun k => { k with seq := (k.seq + 1) % 2048, unacked := if noAck type then k.unacked else k.unacked ++ [(m, false)] })
  else s
/-- Queued messages and stream words of every arm link go. -/
def alkDrop (s : State) : State := each (List.range 8) (fun a s => modAlk s a fun k => { k with msgs := [], unacked := [], outs := [] }) s
/-- Every arm link carries what is queued, and nothing but NOP after it (R97). -/
def alkClose (s : State) : State := each (List.range 8) (fun a s => modAlk s a fun k => { k with muted := true, unacked := [] }) s
/-- No arm gets anything but NOP from here on: queued messages and stream words go (R92, Table 3.10). -/
def alkMute (s : State) : State := alkClose (alkDrop s)
def w64 (n : Nat) : Word := BitVec.ofNat 64 n
/-- TIME_SET (R86, Table 3.6): the tick count at the start of the round that comes next (log entry 42). -/
def sendTimeSet (a : Nat) (s : State) : State :=
  let r := roundAt (now s) + 1
  alkSend a 0x0C 0 true 0 [w64 (1360 * r % 2 ^ 48 + r % 512 * 2 ^ 48)] s
def sendTelemSet (a : Nat) (s : State) : State := alkSend a 0x0D 0 true 0 [w64 0x7FF] s
/-- CLAIM (R90). -/
def sendClaim (a : Nat) (force : Bool) (s : State) : State :=
  if alkUp s a then alkSend a 0x0F 0 true 0 [w64 (b2n force)] (modAlk s a fun k => { k with owner := 2 }) else s
/-- A part that takes the active role claims every arm, then sends TIME_SET and TELEM_SET (R90, R91, R458 step 2); FORCE is for an unplanned takeover. -/
def claimArms (force : Bool) (s : State) : State := each (armList s) (fun a s => sendTelemSet a (sendTimeSet a (sendClaim a force s))) s
/-- RELEASE on every arm link that the part owns, or has claimed (R90, R461, R523). -/
def releaseArms (s : State) : State :=
  each (List.range 8) (fun a s => if (getAlk s a).owner = 1 || (getAlk s a).owner = 2 then
    modAlk (alkSend a 0x10 0 true 0 [] s) a (fun k => { k with owner := 0 }) else s) s

/-- WGATE for the heads of a mask (R85): their queued stream words go. -/
def sendWgate (a mask : Nat) (s : State) : State :=
  let s := modAlk s a fun k => { k with outs := k.outs.filter fun o => !(mask.testBit o.1) }
  alkSend a 0x0B 0 true 0 [w64 mask] s
/-- STREAM_SET (Table 3.8). -/
def sendMode (a h mode raw : Nat) (s : State) : State :=
  let s := modHead s (8 * a + h) fun d => { d with mode, raw }
  alkSend a 0x07 h true 0 [w64 (mode + 8 * raw)] s
def sendHeater (a h rd wr : Nat) (imm : Bool) (s : State) : State := alkSend a 0x02 h imm (linkTick s) [w64 (rd + 65536 * wr)] s
def sendLaser (a h op bias lead : Nat) (s : State) : State :=
  let s := modHead s (8 * a + h) fun d => { d with laserOpI := op }
  alkSend a 0x03 h true 0 [w64 (op + 65536 * bias + 2 ^ 32 * lead)] s
def sendUa (a h : Nat) (demand : Int) (imm : Bool) (apply : Nat) (s : State) : State :=
  alkSend a 0x01 h imm apply [w64 (twos 16 demand)] s
/-- ZONE_SET for a zone (Table 3.6): the manual names the VGA preset, the cutoff and the boost and gives no value for them. -/
def sendZone (a h z : Nat) (s : State) : State :=
  let s := modHead s (8 * a + h) fun d => { d with zone := z }
  let f := freeVal s
  alkSend a 0x06 h true 0 [w64 (zoneFmt s.img a z).samplePeriod, w64 (f.toNat % 2 ^ 24)] (nextFree s)

/-- A head's zone, its offset entry there and its SURF go to its island (R135, R184). -/
def handServo (n : Nat) (s : State) : State :=
  modIsl s (getHead s n).island fun i => if i.assigned && 8 * i.arm + i.head == n then
    { i with zone := (getHead s n).zone, surf := tabGet 0 s.img.surf n, offsets := BitVec.ofNat 256 (imgAt s.img 0x22 n (32 * (getHead s n).zone) 32) } else i

/-- Tables of a zone to a head (R91, R135): ZONE_SET, WRITER_SET and READER_BIAS. The manual gives no bias value. -/
def sendTables (n z : Nat) (s : State) : State :=
  let a := n / 8
  let h := n % 8
  let s := handServo n (sendZone a h z s)
  let s := alkSend a 0x04 h true 0 [w64 (offWrI s.img n z + 256 * offWrOsAmp s.img n z + 65536 * offWrOsLen s.img n z)] s
  alkSend a 0x05 h true 0 [(freeVal s).setWidth 64] (nextFree s)

/-- Turn a head's writer off (R195): WGATE, and nothing of its stream goes on. -/
def stopWriter (n : Nat) (s : State) : State :=
  modHead (sendWgate (n / 8) (2 ^ (n % 8)) s) n fun h => { h with writing := false, gated := true, onWrite := false, wrRun := 0 }
/-- Gate every writer of an arm. -/
def gateArm (a : Nat) (s : State) : State :=
  let s := sendWgate a 0xFF s
  each (List.range 8) (fun h s => modHead s (8 * a + h) fun d => { d with gated := d.gated || d.writing, writing := false, onWrite := false, wrRun := 0 }) s
/-- Laser and heater of a head to zero. -/
def coolHead (n : Nat) (s : State) : State :=
  modHead (sendHeater (n / 8) (n % 8) 0 0 true (sendLaser (n / 8) (n % 8) 0 0 0 s)) n fun h => { h with readPwr := 0 }

/-- The island of a head loses its data path (R26, R102). -/
def gateIsland (n : Nat) (s : State) : State :=
  modIsl s (getHead s n).island fun i => if i.assigned && 8 * i.arm + i.head == n && (i.state = 2 || i.state = 3) then { i with state := 1 } else i

/-- The FZA816 of an arm obeys this part no more: it has turned its streaming, lasers and heaters off itself (R91), and the islands of its heads
lose their data path (R26). -/
def armDark (a : Nat) (s : State) : State :=
  each (List.range 8) (fun h s => modHead (gateIsland (8 * a + h) s) (8 * a + h) fun d =>
    { d with mode := 0, laserOpI := 0, readPwr := 0, gated := d.gated || d.writing, writing := false }) s
/-- A head writes no more, and after a write its laser goes to zero (R26). -/
def laserOff (a h : Nat) (write : Bool) (s : State) : State :=
  let s := modHead s (8 * a + h) fun d => { d with writing := false }
  if write then sendLaser a h 0 0 0 s else s
/-- A head of an ended operation (R26, R420): MODE 1, island gated, laser off after a write. -/
def restHead (a h : Nat) (write : Bool) (s : State) : State :=
  let n := 8 * a + h
  if (getHead s n).failed then s else laserOff a h write (sendMode a h 1 0 (gateIsland n s))

-- VCM drive port.

/-- A CMD for the next DO frames (Table 6.6b): 1 CURRENT, 2 RETRACT, 3 RESUME. RETRACT takes the place of what still waits. -/
def vcmSend (a cmd : Nat) (demand : Int) (s : State) : State :=
  modArm s a fun r => { r with
    due := if cmd = 2 then [2] else if r.due.contains cmd then r.due else r.due ++ [cmd], wanted := if cmd = 1 then demand else r.wanted }
/-- A DO frame (Table 6.6b). -/
def doFrame (cmd seq : Nat) (demand : Int) : Word :=
  let hi := cmd * 2 ^ 60 + seq * 2 ^ 52 + twos 16 demand * 2 ^ 36
  w64 (hi + crc16 hi)
/-- The next frame of an arm's drive port (R204): what waits, else hold. -/
def vcmFrame (a : Nat) (s : State) : State :=
  let r := getArm s a
  let cmd := r.due.headD 0
  let seq := (r.seq + 1) % 256
  let s := modArm s a fun r => { r with
    due := r.due.drop 1, seq, cmd := if cmd = 0 then r.cmd else cmd, demand := if cmd = 1 then r.wanted else r.demand }
  send (.vcm a (doFrame cmd seq (if cmd = 1 then r.wanted else 0))) s
/-- The frames that begin between two device times, one in 2 µs for each arm, while the part drives the port (R204, R453). -/
def vcmFrames (t0 t1 : Nat) (s : State) : State :=
  if s.ptn.activeOut && awake s then each (List.range (t1 / 2000 - t0 / 2000)) (fun _ s => each (armList s) vcmFrame s) s else s

/-- Disable every servo context of an arm: VCM, microactuators, clearance and velocity. -/
def disableArm (a : Nat) (s : State) : State :=
  each ([a, 140 + a] ++ (List.range 8).map (8 + 8 * a + ·) ++ (List.range 8).map (72 + 8 * a + ·)) disableCtx s

/-- UA_DEMAND of a microactuator position (R188). -/
def uaDemand (s : State) (n : Nat) (mu : Int) : Int :=
  satInt 16 (roundHalfUp ((mu : Rat) / 4096 * s.img.trackPitch / 1000000 * 32767 * offUaGain s.img n (getHead s n).zone / 16384))
/-- The microactuator ramps to zero over 50 µs (R202), in five steps (log entry 30). -/
def uaRamp (n : Nat) (s : State) : State :=
  let mu := (getHead s n).mu
  modHead (each [1, 2, 3, 4, 5] (fun (k : Nat) s => sendUa (n / 8) (n % 8) (uaDemand s n (mu * (5 - k) / 5)) false (linkTick s + 560000 * k) s) s) n
    fun h => { h with mu := 0, preset := 0 }
/-- Step 1 of R202 for one arm: writers gated, lasers and heaters zero, microactuators to zero. -/
def armSafe (a : Nat) (s : State) : State :=
  each (List.range s.img.heads) (fun h s => uaRamp (8 * a + h) (coolHead (8 * a + h) (gateIsland (8 * a + h) s))) (gateArm a s)

/-- Loaded or loading: states 1 to 5 of Table 6.10. -/
def armLoaded (s : State) (a : Nat) : Bool := decide (1 ≤ (getArm s a).state) && decide ((getArm s a).state ≤ 5)

/-- Start the unload of an arm (R202): step 1, then the velocity loop outward at UNLOAD_VEL, which V_EMF gives as a negative velocity
(log entry 30). -/
def unloadArm (a : Nat) (s : State) : State :=
  if armLoaded s a then
    let s := armSafe a s
    let s := each ((List.range 8).map (8 + 8 * a + ·) ++ (List.range 8).map (72 + 8 * a + ·)) disableCtx s
    let s := if (getCtx s (140 + a)).enable then disableCtx a s else takeOver (140 + a) a s
    let s := setSetpoint (140 + a) (-(unloadVel s.img : Int)) s
    let s := freeInner (fun e => e.1 = a) { s with slu := { s.slu with ops := tabSet none s.slu.ops a none } }
    modArm s a fun r => { r with state := 6, seek := none, coast := false, loadDue := none }
  else s
def unloadAll (s : State) : State := each (armList s) unloadArm s

/-- Every head of an arm off servo: MODE 0 and state off. -/
def headsOff (a : Nat) (s : State) : State :=
  each (List.range s.img.heads) (fun h s => modHead (sendMode a h 0 0 s) (8 * a + h) fun d =>
    { d with state := 0, onRead := false, onWrite := false, rdRun := 0, wrRun := 0, acqRun := 0 }) s

/-- RETRACT on an arm, the arm taken by its driver (R205). -/
def retractArm (a : Nat) (s : State) : State :=
  modArm (disableArm a (vcmSend a 2 0 s)) a fun r => { r with state := 7, seek := none, coast := false }

-- Spindle drive modes.

/-- A spindle event: recorded, and kept as LAST_EVENT (Table 8.6). -/
def spnEvent (code : BitVec 8) (fs : List PayField) (s : State) : State :=
  post code mMotion fs { s with spn := { s.spn with lastEvent := code } }

/-- Drive of the gate and chopper outputs is allowed only while ACTIVE_OUT is asserted (R240). -/
def mayDrive (s : State) : Bool := s.ptn.activeOut && !s.spc.overvolt
/-- All six gates off. -/
def gatesOff (s : State) : State :=
  let s := { s with slu := { s.slu with spinPower := [], driveSince := none } }
  if s.spc.gates then send (.gates false) { s with spc := { s.spc with gates := false, iqSet := 0 } } else { s with spc := { s.spc with iqSet := 0 } }
/-- The gates are driven (R240): only while ACTIVE_OUT is asserted and no overvoltage holds them off (R266). -/
def gatesOn (s : State) : State :=
  if s.spc.gates || !(mayDrive s) then s else send (.gates true) { s with spc := { s.spc with gates := true, duty := (1 / 2, 1 / 2, 1 / 2) } }
def setSpnMode (m : Nat) (s : State) : State := { s with spn := { s.spn with mode := m } }
/-- Disable the spindle's contexts 136 to 139. -/
def spnCtxOff (s : State) : State := each [136, 137, 138, 139] disableCtx s
/-- Inverter off with its contexts. -/
def inverterOff (s : State) : State := gatesOff (spnCtxOff { s with spn := { s.spn with lock := false, vlimit := false }, spc := { s.spc with satSince := none, genLow := 0 } })

/-- Every start begins with the offset measurement, the inverter off (R242, R256). Handoff failures count within one start (R260). -/
def startOffsets (s : State) : State :=
  let s := inverterOff s
  { s with
    spn := { s.spn with mode := 1, budgetPause := false },
    spc := { s.spc with
      recatchDue := false, offsetSum := (0, 0, 0), offsetN := 0, restart := false, handoffFails := if s.spc.restart then s.spc.handoffFails else 0 } }
/-- The catch measurement, the inverter off (R257). -/
def startCatch (s : State) : State :=
  let s := inverterOff s
  { s with
    spn := { s.spn with mode := 2 },
    spc := { s.spc with catchN := 0, catchTurn := 0, catchSum := 0, catchMax := 0, catchLast := none } }

/-- No curve point is in use, and no budget pause runs (Table 8.6). -/
def noCurve (s : State) : State := { s with spn := { s.spn with curvePt := 0, budgetPause := false } }
/-- Short-brake (R265). -/
def startShortBrake (s : State) : State :=
  setSpnMode 8 (gatesOn (spnCtxOff <| noCurve { s with spn := { s.spn with lock := false, vlimit := false }, spc := { s.spc with satSince := none } }))
/-- The spindle coasts, gates off. -/
def startCoast (s : State) : State := setSpnMode 9 (noCurve (inverterOff s))
/-- Speed in rpm of the last measurement. -/
def rpmOf (s : State) : Int := s.spn.speed / 65536

/-- N_HANDOFF or less (R262). -/
def atHandoff (s : State) : Bool := decide (s.spn.speed ≤ 65536 * (nHandoff s.img : Int))
/-- Controlled spin-down by STOP_MODE (R262). Regenerative braking from a spindle that is not under drive goes on from the observer as it stands
(log entry 45). -/
def spindleStop (s : State) : State :=
  let s := noCurve { s with spc := { s.spc with stopping := true, source := false, outSince := none, satSince := none } }
  if s.spn.mode = 0 then s
  else if stopMode s.img = 0 || !mayDrive s then startCoast s
  else if stopMode s.img = 1 && !(atHandoff s) then
    let s := gatesOn (each [136, 137] (fun n s => if (getCtx s n).enable then s else enableCtx n s) (each [138, 139] disableCtx s))
    { s with spn := { s.spn with mode := 7 }, spc := { s.spc with iqSet := -(1000 * brakeI s.img : Int) } }
  else startShortBrake s

/-- Generation by context 139, which takes i_q* from context 138, never motors, and is soft-started (R212, R267). -/
def startGenerator (s : State) : State :=
  let s := each [136, 137] (fun n s => if (getCtx s n).enable then setFormat n false s else enableCtx n s) s
  let s := setSetpoint 139 10800 s
  let s := if (getCtx s 138).enable then takeOver 139 138 s else enableCtx 139 (disableCtx 138 s)
  let s := gatesOn s
  let s := noCurve { s with spn := { s.spn with mode := 10 }, spc := { s.spc with stopping := false, satSince := none } }
  post 0x11 mMotion [] s

-- The floor of the power model.

/-- Motor input power over the drive of the last 100 ms (R406, R408). -/
def motorPower (s : State) : Rat :=
  match s.slu.driveSince, s.slu.spinPower with
  | some t, p :: ps =>
    let mean : Rat := (((p :: ps).map (·.2)).sum : Rat) / (ps.length + 1)
    if since s t < 100000000 then max mean (pSpinNom s.img) else mean
  | _, _ => 0
/-- Heads of loaded arms that serve. -/
def servedHeads (s : State) : List Nat := ((armList s).filter (armLoaded s)).flatMap (armHeads s)
/-- The floor in mW (R406, R408). -/
def floorPower (s : State) : Rat :=
  (pBase s.img : Rat) + motorPower s + pStage s.img + pArmTf s.img * ((armList s).filter (armLoaded s)).length +
    ((servedHeads s).map fun n => (pHeadSrv s.img : Rat) + (getHead s n).readPwr * 5 / 1000).sum
/-- The budget as exact mW; none is no limit. -/
def budgetMw (s : State) : Option Rat := s.slu.granted.map fun b => (100 * b : Nat)
/-- The granted budget is below the floor, which a lower budget or a higher floor brings about (R28): counted once a period, event 0xC7 at most once per second. -/
def checkFloor (s : State) : State :=
  let short := (budgetMw s).any fun b => decide (b < floorPower s)
  if !short then { s with slu := { s.slu with short := false } }
  else
    let s := if s.slu.short then s else { s with slu := { s.slu with short := true, floorShort := satInc 16 s.slu.floorShort } }
    if s.slu.floorEventAt.all fun t => decide (oneSec ≤ since s t) then
      post 0xC7 mSluice [b8 (s.slu.granted.getD 0), b8 (floorPower s / 100).ceil] { s with slu := { s.slu with floorEventAt := some (now s) } }
    else s

end Sys2Proof.Machine
end

