-- ==== Sys2Proof/Machine/Samples.lean ====
section
/-! DEFINITION. Reader samples on the part's time base: sample words and marks of a stream (R75, R77), the interpolator (R107, R108), and the
quarter-rate Fourier term with its phase, which chapters 4 and 6 both use. -/

namespace Sys2Proof.Machine

-- Streams.

/-- The ten samples of a word, oldest first (Table 3.2). -/
def sampleList (w : Nat) : List Int := (List.range 10).map fun k => signedOf 6 (w / 64 ^ k % 64)
/-- A word of ten erased samples: −32 (R75). -/
def erasedWord : Word := 0x820820820820820
/-- A sample word joins its stream; between a lost block and the next mark it counts as erased (R75, Table 3.10). -/
def takeWord (w : Word) (d : Stream) : Stream :=
  { d with running := true, next := d.next + 1, words := (d.next, if d.broken then erasedWord else w) :: d.words }
/-- Word that the last mark reached so far names. -/
def lastMark (d : Stream) : Nat := ((d.marks.find? fun m => decide (m.1 ≤ d.next)).map (·.1)).getD 0
/-- Words from the last mark reached on, erased. -/
def eraseSince (d : Stream) : List (Nat × Word) :=
  let from_ := lastMark d
  d.words.map fun x => if from_ ≤ x.1 then (x.1, erasedWord) else x
/-- Words from the stream's next word to the one that a mark names. -/
def markAhead (wseq : Nat) (d : Stream) : Nat := (wseq + 4096 - d.next % 4096) % 4096
/-- The word count of a stream disagrees with a mark's WSEQ (R77): words are known to be lost, or the word named is not among those that the next
round can carry, 18 lanes of 40 words (log entry 43). -/
def markBad (wseq : Nat) (d : Stream) : Bool := d.running && (d.broken || decide (720 < markAhead wseq d))
/-- Number nearest to `near` that is `time` modulo 2^40. -/
def unwrap40 (time : Nat) (near : Int) : Int := near + signedOf 40 (twos 40 (time - near))
/-- A mark names a word of the stream that is still to come, and its time stands for that word (R77). Where the count disagrees, the samples since
the last mark are erased and the stream goes on at the mark, as it does at the start of streaming. The island keeps 16,384 words and 32 marks
(log entry 43). -/
def takeMark (wseq time tick : Nat) (d : Stream) : Stream :=
  let bad := markBad wseq d
  let named := d.next + markAhead wseq d
  { d with
    running := true, broken := false, next := if bad || !d.running then named else d.next,
    words := (if bad then eraseSince d else d.words).filter fun x => decide (named < x.1 + 16384), marks := (named, unwrap40 time (16 * tick)) :: d.marks.take 31 }
/-- A block that carried words of the stream is lost (Table 3.10): the samples around it are erased up to the next mark. -/
def loseBlock (d : Stream) : Stream := { d with broken := true, words := eraseSince d }

-- The interpolator.

/-- Samples of one reader in order of position; none is an erased or absent sample. -/
structure View where
  /-- Position of the first sample: ten times its word's number. -/
  base : Int := 0
  smp : Array (Option Int) := #[]
  marks : List (Nat × Int) := []
  /-- SAMPLE_PERIOD in 2^-32 tick. -/
  period : Nat := 0
deriving DecidableEq, Repr

/-- A sample of value −32 is erased (R107). -/
def present (v : Int) : Option Int := if v = -32 then none else some v
/-- Words, oldest first, and marks as samples by position. -/
def viewOf (words : List (Nat × Word)) (marks : List (Nat × Int)) (period : Nat) : View :=
  let first := (words.head?.map (·.1)).getD 0
  let fill := words.foldl (fun (acc : Array (Option Int) × Nat) w =>
    (acc.1 ++ Array.replicate (10 * (w.1 - acc.2)) none ++ ((sampleList w.2.toNat).map present).toArray, w.1 + 1)) (#[], first)
  { base := 10 * first, smp := fill.1, marks, period }
def streamView (d : Stream) (period : Nat) : View := viewOf d.words.reverse d.marks period
def sampleAt (v : View) (p : Int) : Option Int := if p < v.base then none else (v.smp[(p - v.base).toNat]?).join
/-- Position of a time in 1/64 sample (R108), rounded half up, by the latest mark at or before it. Times are in 2^-32 tick. -/
def samplePos (v : View) (t : Int) : Option Int :=
  if v.period = 0 then none
  else
    let at_ (m : Nat × Int) : Int := 640 * m.1 + (128 * (t - m.2 * 2 ^ 28) + v.period) / (2 * v.period)
    ((v.marks.find? fun m => decide (640 * (m.1 : Int) ≤ at_ m)).orElse fun _ => v.marks.getLast?).map at_
/-- Interpolator output at a time, 10-bit signed in 1/8 LSB (R108); none when one of its eight samples is erased (R107). -/
def interpolate (v : View) (t : Int) : Option Int :=
  (samplePos v t).bind fun p =>
    let m := p / 64
    let phi := (p % 64).toNat
    ((List.range 8).foldl (fun acc (k : Nat) =>
      match acc, sampleAt v (m - 3 + (k : Int)) with
      | some a, some x => some (a + Config.interpTap phi k * x)
      | _, _ => none) (some 0)).map fun y => satInt 10 ((y + 128) / 256)
/-- Time of the newest sample, in 2^-32 tick. -/
def newestTime (v : View) : Option Int := v.marks.head?.map fun m => m.2 * 2 ^ 28 + (v.base + v.smp.size - 10 * m.1) * v.period

-- The Fourier term at one quarter of the symbol rate.

/-- Real and imaginary part of Σ x_k (−i)^k; an erased value counts as zero. -/
def quarterTerm (xs : List (Option Int)) : Int × Int :=
  xs.zipIdx.foldl (fun (f : Int × Int) x =>
    let v := x.1.getD 0
    if x.2 % 4 = 0 then (f.1 + v, f.2) else if x.2 % 4 = 1 then (f.1, f.2 - v) else if x.2 % 4 = 2 then (f.1 - v, f.2) else (f.1, f.2 + v)) (0, 0)
def power2 (f : Int × Int) : Int := f.1 * f.1 + f.2 * f.2
/-- Arctangents of 2^-i in 2^-32 turn. -/
def atanTable : List Int :=
  [536870912, 316933406, 167458907, 85004756, 42667331, 21354465, 10679838, 5340245, 2670163, 1335087, 667544, 333772, 166886, 83443, 41722,
    20861, 10430, 5215, 2608, 1304, 652, 326, 163, 81, 41, 20, 10, 5, 3, 1]
/-- Angle of a vector in 2^-32 turn, within half a turn either way, by successive rotations (log entry 43); 0 for the zero vector. -/
def angleOf (f : Int × Int) : Int :=
  if f.1 = 0 ∧ f.2 = 0 then 0
  else
    let start : Int × Int × Int := if 0 ≤ f.1 then (f.1 * 2 ^ 40, f.2 * 2 ^ 40, 0) else (-f.1 * 2 ^ 40, -f.2 * 2 ^ 40, if 0 ≤ f.2 then 2 ^ 31 else -(2 ^ 31))
    (atanTable.zipIdx.foldl (fun (v : Int × Int × Int) a =>
      let dx := v.1 / 2 ^ a.2
      let dy := v.2.1 / 2 ^ a.2
      if 0 < v.2.1 then (v.1 + dy, v.2.1 - dx, v.2.2 + a.1) else (v.1 - dy, v.2.1 + dx, v.2.2 - a.1)) start).2.2
/-- How far a sampled 1100 pattern lies behind the grid, in 1/64 symbol, from its quarter-rate term (R111, R178): the pattern sampled at its
symbols' centres has the angle −1/8 turn. Within ±2 symbols; 0 without a signal. -/
def patternLag (f : Int × Int) : Int :=
  if f.1 = 0 ∧ f.2 = 0 then 0 else (signedOf 32 (twos 32 (-(2 ^ 29) - angleOf f)) + 2 ^ 23) / 2 ^ 24

end Sys2Proof.Machine
end

