-- ==== Sys2Proof/Machine/Demod.lean ====
section
/-! DEFINITION. Demodulation of a servo wedge from the samples of a head's two readers (R173–R182, R197): SAM search, refinement, bits, track
ID, burst phases, runout, harmonic ratio, and the wedge timing filter. -/

namespace Sys2Proof.Machine

/-- What one reader gives of a wedge. Metrics stand in the order the bits are written, the most significant first (R174); angles are in
2^-32 turn. -/
structure ReaderObs where
  /-- Best SAM score and the refined time of the boundary that ends the SAM, in 2^-16 tick (R177, R178). -/
  samScore : Nat := 0
  tSam : Int := 0
  /-- |F|² of the last 64 preamble symbols at a quarter of the symbol rate. -/
  preamble : Int := 0
  header : List Int := []
  trackId : List Int := []
  phiP : Int := 0
  phiQ : Int := 0
  runout : Nat := 0
  erasedP : Nat := 0
  erasedQ : Nat := 0
  /-- |F1|² and |F3|² of the preamble (R197). -/
  f1 : Int := 0
  f3 : Int := 0
deriving DecidableEq, Repr

-- The symbol stream.

/-- SSP of a wedge interval (R173). -/
def sspCount : Int := 24000
/-- The 16 symbols of the SAM, leftmost first (Table 6.1). -/
def samPattern : List Bool := (List.range 16).map fun k => (0xE58D : Nat).testBit (15 - k)
/-- A grid of servo symbols: time of SSP 0 and wedge interval, in 2^-32 tick. -/
structure SspGrid where
  t0 : Int
  w : Int
/-- Time of a place on the grid, in 1/64 SSP. -/
def sspTime (g : SspGrid) (k : Int) : Int := g.t0 + k * g.w / (64 * sspCount)
/-- The stream at the centre of symbol k (log entry 43). -/
def symbolAt (v : View) (g : SspGrid) (k : Int) : Option Int := interpolate v (sspTime g (64 * k + 32))
def symbolsAt (v : View) (g : SspGrid) (from_ : Int) (n : Nat) : List (Option Int) := (List.range n).map fun k => symbolAt v g (from_ + k)
/-- SAM score of the symbols of a candidate: an erased symbol agrees with nothing (R177). -/
def samScoreOf (xs : List (Option Int)) : Nat := ((xs.zip samPattern).filter fun x => x.1.any fun v => decide (0 < v) == x.2).length
/-- Best score over `n` candidates from a start on, and its place; a tie goes to the earliest (R177). -/
def samSearch (v : View) (g : SspGrid) (from_ : Int) (n : Nat) : Nat × Int :=
  let xs := (symbolsAt v g from_ (n + 15)).toArray
  (List.range n).foldl (fun (b : Nat × Int) k =>
    let c := samScoreOf (xs.extract k (k + 16)).toList
    if b.1 < c then (c, from_ + k) else b) (0, from_)
/-- Bit metrics of fields written with four symbols a bit (R180 step 1). -/
def bitMetrics (v : View) (g : SspGrid) (from_ : Int) (n : Nat) : List Int :=
  (List.range n).map fun j =>
    let x (k : Int) : Int := (symbolAt v g (from_ + 4 * j + k)).getD 0
    x 0 + x 1 - x 2 - x 3
def natOfMsb (bs : List Bool) : Nat := bs.foldl (fun n b => 2 * n + b2n b) 0
/-- Bits from metrics, most significant first (R180). -/
def metricBits (ms : List Int) : List Bool := ms.map fun m => decide (0 < m)
/-- cos(2πk/16) in 2^-15. -/
def cos16 (k : Int) : Int := ([32768, 30274, 23170, 12540, 0, -12540, -23170, -30274, -32768, -30274, -23170, -12540, 0, 12540, 23170, 30274] : List Int).getD (k % 16).toNat 0
/-- |F|² of harmonic h of the 1100 pattern over the 96 preamble symbols, four points a symbol (R197). -/
def harmonic (v : View) (g : SspGrid) (h : Int) : Int :=
  let xs := (List.range 384).map fun j => (interpolate v (sspTime g (64 * 240 + 16 * j + 8))).getD 0
  power2 (xs.zipIdx.foldl (fun (f : Int × Int) x => (f.1 + x.1 * cos16 (h * x.2), f.2 - x.1 * cos16 (h * x.2 - 4))) (0, 0))
/-- One reader's wedge on a predicted grid, with the SAM searched at `n` starts (R177–R181, R197). -/
def readReader (v : View) (g : SspGrid) (from_ : Int) (n : Nat) : ReaderObs :=
  let sam := samSearch v g from_ n
  let pre := quarterTerm (symbolsAt v g (sam.2 - 64) 64)
  let tEnd := sspTime g (64 * (sam.2 + 16) + patternLag pre)
  let r : SspGrid := { g with t0 := tEnd - 352 * g.w / sspCount }
  let p := symbolsAt v r 520 256
  let q := symbolsAt v r 776 256
  { samScore := sam.1, tSam := tEnd / 65536, preamble := power2 pre, header := bitMetrics v r 352 18, trackId := bitMetrics v r 424 24,
    phiP := angleOf (quarterTerm p), phiQ := angleOf (quarterTerm q), runout := natOfMsb (metricBits (bitMetrics v r 1032 16)),
    erasedP := (p.filter (·.isNone)).length, erasedQ := (q.filter (·.isNone)).length, f1 := harmonic v r 1, f3 := harmonic v r 3 }

-- Bits and position.

/-- Places of uncertain bits: |m| below a quarter of the preamble amplitude times 4, the amplitude being √2 |F| / 64 (R180). -/
def uncertainBits (pre : Int) (ms : List Int) : List Nat := (ms.zipIdx.filter fun m => decide (2048 * (m.1 * m.1) < pre)).map (·.2)
/-- Header (R174, R180): wedge and surface number when it is valid. -/
def headerOf (r : ReaderObs) : Option (Nat × Nat) :=
  let h := natOfMsb (metricBits r.header)
  let par (hi lo : Nat) : Bool := (List.range (hi + 1 - lo)).foldl (fun p k => p != h.testBit (lo + k)) false
  if (uncertainBits r.preamble r.header).isEmpty && h.testBit 17 == par 15 6 && h.testBit 16 == par 5 0 then
    some (bitsOf 15 6 h, bitsOf 5 0 h)
  else none
/-- Gray code of 24 bits, most significant first, to its number (R174). -/
def grayToNat (g : List Bool) : Nat := (g.foldl (fun (acc : Nat × Bool) b => (2 * acc.1 + b2n (acc.2 != b), acc.2 != b)) (0, false)).1
/-- Candidate tracks of an ID: one, two with one uncertain bit, none with more (R180). -/
def trackCands (r : ReaderObs) : List Nat :=
  let bs := metricBits r.trackId
  match uncertainBits r.preamble r.trackId with
  | [] => [grayToNat bs]
  | [i] => [grayToNat bs, grayToNat (bs.set i (!bs.getD i false))]
  | _ => []
/-- C_RRO of the runout field; 0 when its CRC fails (R174, R181). -/
def runoutOf (r : ReaderObs) : Int :=
  if crc4 (r.runout / 16) = r.runout % 16 then signedOf 12 (r.runout / 16 % 4096) else 0
/-- f of R181 in 2^-12 track, in [−2048, 2048), rounded half up (log entry 30). -/
def phaseFrac (r : ReaderObs) : Int := signedOf 12 (twos 12 (roundHalfUp (((r.phiP - r.phiQ : Int) : Rat) / 2 ^ 20)))
/-- The reader has the SAM and a track ID that is valid or resolved. -/
def idValid (thr : Nat) (r : ReaderObs) : Bool := decide (thr ≤ r.samScore) && !(trackCands r).isEmpty
/-- y_r of a reader, with the candidate nearer the prediction (R181); none when it gives no valid position (R182). -/
def readerPos (thr : Nat) (pred : Int) (r : ReaderObs) : Option Int :=
  if !idValid thr r || 16 < r.erasedP || 16 < r.erasedQ then none
  else
    let ys := (trackCands r).map fun c => 4096 * (c : Int) + phaseFrac r - runoutOf r
    ys.foldl (fun best y => match best with
      | none => some y
      | some b => if (y - pred).natAbs < (b - pred).natAbs then some y else some b) none
/-- HR = ln(|F1| / |F3|) in 2^-12 neper (R197). -/
def harmonicRatio (r : ReaderObs) : Int := roundHalfUp (2048 * Config.lnRat ((r.f1 : Rat) / r.f3))

/-- What a wedge yields. -/
structure Demod where
  found : Bool := false
  tSam : Int := 0
  header : Option (Nat × Nat) := none
  idOk : Bool := false
  pos : Option Int := none
  oneReader : Bool := false
  hr : Int := 0
deriving DecidableEq, Repr
/-- A wedge from what its two readers give (R178, R180–R182): `pred` is the predicted position, `sep` the spacing of reader B less one track. A
wedge on one reader alone counts as such. The mean of the two is rounded toward minus infinity (log entry 30). -/
def combine (thr : Nat) (pred sep : Int) (a b : ReaderObs) : Demod :=
  let fa := decide (thr ≤ a.samScore)
  let fb := decide (thr ≤ b.samScore)
  let ya := readerPos thr pred a
  let yb := (readerPos thr (pred + 4096 + sep) b).map fun y => y - 4096 - sep
  let header := match (if fa then headerOf a else none) with
    | some x => some x
    | none => if fb then headerOf b else none
  let base : Demod := {
    found := fa || fb, tSam := if fa then a.tSam else b.tSam, header, idOk := idValid thr a || idValid thr b,
    hr := harmonicRatio (if fa then a else b) }
  match ya, yb with
  | some x, some y => if 1024 < (x - y).natAbs then { base with pos := some x, oneReader := true } else { base with pos := some ((x + y) / 2) }
  | some x, none => { base with pos := some x, oneReader := true }
  | none, some y => { base with pos := some y, oneReader := true }
  | none, none => base

-- A head's wedge.

/-- Nominal wedge interval in 2^-16 tick (R201). -/
def nominalW (s : State) : Int := 56000000000 * 60 * 65536 / (s.img.wedges * nSvc s.img : Int)
/-- Samples of reader r of a head at the sample period of its zone (R76). -/
def readerView (s : State) (n r : Nat) : View :=
  streamView (tabGet {} (getAlk s (n / 8)).streams (2 * (n % 8) + r)) (zoneFmt s.img (n / 8) (getHead s n).zone).samplePeriod
/-- Grid, first start and number of starts of the SAM search (R177): ±16 SSP of the prediction in SEEK, SETTLE and TRACK; the window
otherwise; in acquisition, where the head streams in MODE 2, one whole wedge interval, which ends with what has come or lies around the
prediction of the SAM before. -/
def searchOf (s : State) (n : Nat) (v : View) : SspGrid × Int × Nat :=
  let h := getHead s n
  if h.state = 1 then
    let w := (if h.acqRun < 2 || h.wHat = 0 then nominalW s else h.wHat) * 65536
    if h.acqRun = 0 then ({ t0 := (newestTime v).getD 0 - w - 768 * w / sspCount, w }, 0, 24000)
    else ({ t0 := h.tHat * 65536 + w - 352 * w / sspCount, w }, 336 - 12000, 24000)
  else
    let w := h.wHat * 65536
    let g : SspGrid := { t0 := h.tHat * 65536 + w - 352 * w / sspCount, w }
    if 2 ≤ h.state && h.state ≤ 4 then (g, 320, 33) else (g, 144, 1041)
/-- Demodulation of a head's wedge (R177–R182). -/
def demod (s : State) (n : Nat) : Demod :=
  let h := getHead s n
  let obs (r : Nat) : ReaderObs :=
    let v := readerView s n r
    let x := searchOf s n v
    readReader v x.1 x.2.1 x.2.2
  combine (samThr s.img) (h.pos + h.dPos) (signedOf 12 (bitsOf 207 196 (getIsl s h.island).offsets.toNat)) (obs 0) (obs 1)
/-- Reference time of the wedge from the filter (R178). -/
def wedgeTime (h : Head) : Head := { h with tW := h.tHat - 352 * h.wHat / 24000 }
/-- The wedge timing filter (R178); its divisions round toward minus infinity (log entry 30). -/
def timing (d : Demod) (h : Head) : Head :=
  let pred := h.tHat + h.wHat
  wedgeTime (if d.found then
      { h with tHat := pred + (d.tSam - pred) / 4, wHat := h.wHat + (d.tSam - pred) / 32, tSam := d.tSam }
    else { h with tHat := pred })
/-- Keep a wedge's number and times for the frames around it (R104, R113). -/
def keepRef (h : Head) : Head := { h with refs := (h.wedge, h.tW, h.wHat) :: h.refs.take 3 }

end Sys2Proof.Machine
end

