-- ==== Sys2Proof/Machine/Operands.lean ====
section
/-! DEFINITION. The operands of the media commands: from a logical block to its row, head, track and slot (R38–R49), the present location
of a sector through the defect table and the relocation map (R46, R54–R58), physical sector addresses (R143), and where a free
reserve group or remap sector lies (R55–R57). -/

namespace Sys2Proof.Machine

/-- Rows of zone z of an arm: C_z × G_z (R42). -/
def zoneRows (z : ZoneFmt) : Nat := z.cz * gOf z
/-- Zone of row q and the row's number within it (R42, R44). -/
def zoneOfRow (i : Image) (a q : Nat) : Nat × Nat := go (zoneList i a) 0 q
where
  go : List ZoneFmt → Nat → Nat → Nat × Nat
    | [], z, q => (z, q)
    | f :: fs, z, q => if q < zoneRows f then (z, q) else go fs (z + 1) (q - zoneRows f)
/-- Data row N, row offset o of an LBA (R43). -/
def rowOf (i : Image) (lba : Nat) : Nat := lba / bR i
def offOf (i : Image) (lba : Nat) : Nat := lba % bR i
def armOfRow (i : Image) (n : Nat) : Nat := n % i.arms
def qOfRow (i : Image) (n : Nat) : Nat := n / i.arms
def rowOfArm (i : Image) (a q : Nat) : Nat := i.arms * q + a
def lbaOf (i : Image) (row o : Nat) : Nat := bR i * row + o
/-- Parity head of row q (R44). -/
def parHead (i : Image) (q : Nat) : Nat := q % i.heads
/-- Slot s, track t and head h of row offset o (R44). -/
def slotOfOff (i : Image) (o : Nat) : Nat := o / (2 * (i.heads - 1))
def trackOfOff (i : Image) (o : Nat) : Nat := o % (2 * (i.heads - 1)) % 2
def headOfOff (i : Image) (q o : Nat) : Nat :=
  let d := o % (2 * (i.heads - 1)) / 2
  if d < parHead i q then d else d + 1
/-- Row offset carried by head h in slot s of track t; none on the parity head (R44). -/
def offAt (i : Image) (q h t s : Nat) : Option Nat :=
  if h = parHead i q then none
  else some (2 * (i.heads - 1) * s + 2 * (if h < parHead i q then h else h - 1) + t)
/-- Key of a sector within its row: head, track, slot. -/
def secKey (h t s : Nat) : Nat := 32 * h + 16 * t + s
/-- Every sector of a row as (h, t, s). -/
def rowSectors (i : Image) : List (Nat × Nat × Nat) :=
  (List.range i.heads).flatMap fun h => (List.range 2).flatMap fun t => (List.range 16).map fun s => (h, t, s)

/-- A place on the medium. -/
structure Place where
  arm : Nat := 0
  head : Nat := 0
  zone : Nat := 0
  track : Nat := 0
  slot : Nat := 0
deriving DecidableEq, Repr

/-- First pair of zone z on an arm: counted, reserve and slip-spare pairs of the zones before it (R40). -/
def zoneBase (i : Image) (a z : Nat) : Nat := (((zoneList i a).take z).map fun f => f.cz + vOf i f + 16).sum
/-- The p-th good pair of a zone on a head: slipped pairs are skipped (R52, R53). -/
def goodPair (l : Layout) (a h z p : Nat) : Nat :=
  let slips := (l.slips.filter fun e => e.1 = a && e.2.1 = h && e.2.2.1 = z).map (·.2.2.2)
  (slips.mergeSort (· ≤ ·)).foldl (fun q x => if x ≤ q then q + 1 else q) p
def placeOf (i : Image) (l : Layout) (a h z p t slot : Nat) : Place :=
  { arm := a, head := h, zone := z, track := 2 * (zoneBase i a z + goodPair l a h z p) + t, slot }
/-- Native place of a sector (R44). -/
def nativePlace (i : Image) (l : Layout) (a q h t s : Nat) : Place :=
  let (z, qz) := zoneOfRow i a q
  let g := gOf (zoneFmt i a z)
  placeOf i l a h z (qz / g) t (16 * (qz % g) + s)
/-- Place of sector `2 × slot + track` of linear reserve group `v × G_z + g` (R40, R55, Table 2.2). -/
def reservePlace (i : Image) (l : Layout) (a h z grp slot t : Nat) : Place :=
  let f := zoneFmt i a z
  placeOf i l a h z (f.cz + grp / gOf f) t (16 * (grp % gOf f) + slot)

/-- A head stands on the failed-head list. -/
def headDead (l : Layout) (a h : Nat) : Bool := l.failedHeads.contains (a, h)
/-- A run entry covers row q of head h of arm a (Table 2.3). -/
def covers (r : RunEntry) (a h q : Nat) : Bool :=
  r.valid && r.srcArm.toNat = a && r.srcHead.toNat = h && decide (r.srcRow.toNat ≤ q) && decide (q < r.srcRow.toNat + r.count.toNat)
/-- Target head and group of row q in a run. -/
def runTarget (i : Image) (r : RunEntry) (q : Nat) : Nat × Nat :=
  ((q - r.srcRow.toNat) % i.heads, r.dstGroup.toNat + (q - r.srcRow.toNat) / i.heads)
/-- A run's target of row q is a head that serves. -/
def runLive (i : Image) (l : Layout) (r : RunEntry) (q : Nat) : Bool := !headDead l r.dstArm.toNat (runTarget i r q).1
/-- The run entry that governs row q of a head: of the entries that cover it the first with a target that serves, else the first (log
entry 41). -/
def runOf (i : Image) (l : Layout) (rs : List RunEntry) (a h q : Nat) : Option RunEntry :=
  match rs.filter fun r => covers r a h q with
  | [] => none
  | r :: rest => some (((r :: rest).find? fun x => runLive i l x q).getD r)
/-- Arm and head that hold a head's share of row q (R49, R56). -/
def homeOf (i : Image) (l : Layout) (rs : List RunEntry) (a h q : Nat) : Nat × Nat :=
  match runOf i l rs a h q with
  | some r => (r.dstArm.toNat, (runTarget i r q).1)
  | none => (a, h)
/-- Defect entry of a sector; the newest of a row under write comes first. -/
def defectOf (ds : List DefectEntry) (a h q t s : Nat) : Option DefectEntry :=
  ds.find? fun d => d.valid && d.arm.toNat = a && d.head.toNat = h && d.row.toNat = q && d.track.toNat = t && d.slot.toNat = s
/-- Present place of a sector under given tables (R46, R54, R56). Where a share has moved under R56, its run gives the head, and a defect entry,
which is one made since, the sector on that head (log entry 41). -/
def placeUnder (i : Image) (l : Layout) (ds : List DefectEntry) (rs : List RunEntry) (a q h t s : Nat) : Place :=
  let home := homeOf i l rs a h q
  match defectOf ds a h q t s, runOf i l rs a h q with
  | some d, _ => reservePlace i l home.1 home.2 d.dstZone.toNat d.dstGroup.toNat (d.dstSector.toNat / 2) (d.dstSector.toNat % 2)
  | none, some r => reservePlace i l home.1 home.2 r.dstZone.toNat (runTarget i r q).2 s t
  | none, none => nativePlace i l a q h t s
/-- Present place of a sector. -/
def sectorPlace (s : State) (a q h t sl : Nat) : Place := placeUnder s.img s.layout s.layout.defects s.layout.runs a q h t sl

/-- Head h of arm a has failed and row q has not been rebuilt for it, or the head that took its share of the row has failed (R58, R60). -/
def lostHead (s : State) (a h q : Nat) : Bool :=
  let home := homeOf s.img s.layout s.layout.runs a h q
  (getHead s (8 * home.1 + home.2)).failed
/-- Sectors of a row with, for each on a lost head, the rest of its equation (R60). -/
def expandWant (s : State) (a q : Nat) (keys : List Nat) : List Nat :=
  (keys.flatMap fun k =>
    if lostHead s a (k / 32) q then k :: (((List.range s.img.heads).filter (· ≠ k / 32)).map fun h => secKey h (k / 16 % 2) (k % 16)) else [k]).eraseDups

/-- Physical sector address (Table 5.2). -/
def paddrOf (fmtId : BitVec 16) (p : Place) : Word :=
  BitVec.ofNat 64 (p.arm * 2 ^ 61 + p.head * 2 ^ 58 + p.track % 2 ^ 24 * 2 ^ 34 + p.slot % 2 ^ 13 * 2 ^ 21 + fmtId.toNat * 32)

-- Reserve.

/-- A remap with the arm and head that hold its sector (R54): the sector's own, or those that took its share. -/
abbrev Remap := DefectEntry × (Nat × Nat)
/-- Remaps of tables `ds` and `rs`, with the heads that hold them. -/
def remapsOf (i : Image) (l : Layout) (ds : List DefectEntry) (rs : List RunEntry) : List Remap :=
  ds.map fun d => (d, homeOf i l rs d.arm.toNat d.head.toNat d.row.toNat)
/-- Remaps that lie on a head, in a zone (R54). -/
def remapsOn (ds : List Remap) (b x z : Nat) : List DefectEntry :=
  (ds.filter fun d => d.1.valid && d.1.dstZone.toNat = z && d.2 = (b, x)).map (·.1)
/-- Remap groups of a head in a zone, as group indexes (R55). -/
def remapGroups (ds : List Remap) (b x z : Nat) : List Nat := ((remapsOn ds b x z).map (·.dstGroup.toNat)).eraseDups
def reserveGroups (i : Image) (a z : Nat) : Nat := vOf i (zoneFmt i a z) * gOf (zoneFmt i a z)
/-- Most remap groups of a head in a zone (R55). -/
def remapLimit (i : Image) (a z : Nat) : Nat := reserveGroups i a z / 32
/-- The row for which a run entry is recorded: its last. -/
def runRow (r : RunEntry) : Nat := r.srcRow.toNat + r.count.toNat - 1
/-- A group of a head holds a relocated share: of a row that a run of the map governs, or of a row under write, `rs` being the runs of those. -/
def groupRelocated (i : Image) (l : Layout) (rs : List RunEntry) (b x z g : Nat) : Bool :=
  (l.runs.any fun r =>
    let k := x + i.heads * (g - r.dstGroup.toNat)
    r.valid && r.dstArm.toNat = b && r.dstZone.toNat = z && decide (r.dstGroup.toNat ≤ g) && decide (k < r.count.toNat) &&
      runOf i l l.runs r.srcArm.toNat r.srcHead.toNat (r.srcRow.toNat + k) == some r) ||
    rs.any fun r => r.valid && r.dstArm.toNat = b && r.dstZone.toNat = z && runTarget i r (runRow r) == (x, g)
def groupRemapped (ds : List Remap) (b x z g : Nat) : Bool := (remapGroups ds b x z).contains g
/-- A free sector of a remap group of the head in the zone, else one of a new group within the limit, counting downward from the top (R54,
R55). Of the free sectors of its remap groups the lowest of the group entered first is taken (log entry 41). -/
def freeRemap (i : Image) (l : Layout) (ds : List Remap) (rs : List RunEntry) (b x z : Nat) : Option (Nat × Nat) :=
  let used (g : Nat) : List Nat := ((remapsOn ds b x z).filter fun d => d.dstGroup.toNat = g).map (·.dstSector.toNat)
  let groups := remapGroups ds b x z
  match groups.findSome? fun g => ((List.range 32).find? fun k => !(used g).contains k).map fun k => (g, k) with
  | some y => some y
  | none =>
    if groups.length < remapLimit i b z then
      (((List.range (remapLimit i b z + ((rs ++ l.runs).map fun r => ceilDiv r.count.toNat i.heads).sum + 1)).map fun k => reserveGroups i b z - 1 - k).find? fun g =>
        !(groupRelocated i l rs b x z g) && !(groupRemapped ds b x z g)).map fun g => (g, 0)
    else none
/-- Zones below n from the nearest to zone z outward, the lower number first (R54, R57). -/
def zonesByDistance (n z : Nat) : List Nat :=
  ((List.range (n + z + 1)).map fun d => (if d ≤ z && decide (z - d < n) then [z - d] else []) ++
    (if d ≠ 0 && decide (z + d < n) then [z + d] else [])).flatten
/-- Where a remapped sector of row q goes on the head that holds it: zone, group and sector (R54). `own` holds the row's own runs, `rs` those
of every row under write. -/
def remapTarget (i : Image) (l : Layout) (ds : List Remap) (own rs : List RunEntry) (a h q : Nat) : Option (Nat × Nat × Nat) :=
  let home := homeOf i l (own ++ l.runs) a h q
  let z0 := match runOf i l (own ++ l.runs) a h q with | some r => r.dstZone.toNat | none => (zoneOfRow i a q).1
  (zonesByDistance (zoneList i home.1).length z0).findSome? fun z => (freeRemap i l ds rs home.1 home.2 z).map fun x => (z, x.1, x.2)

/-- A reserve group of a head that serves, free of remaps and relocations (R57). -/
def shareFree (i : Image) (l : Layout) (ds : List Remap) (rs : List RunEntry) (b x z g : Nat) : Bool :=
  decide (g < reserveGroups i b z) && !headDead l b x && !(groupRemapped ds b x z g) && !(groupRelocated i l rs b x z g)
/-- Another member of row q's equations lies on a head (R49). -/
def memberAt (i : Image) (l : Layout) (own : List RunEntry) (a h q b x : Nat) : Bool :=
  (List.range i.heads).any fun g => g ≠ h && homeOf i l (own ++ l.runs) a g q == (b, x)
/-- Row q of a head is governed by a run of the map whose target serves. -/
def placedRow (i : Image) (l : Layout) (a h q : Nat) : Bool := (runOf i l l.runs a h q).any fun r => runLive i l r q
/-- The head of arm b at which a new run for row q can start: head 0, or, where that has failed or is taken, the first after rows that other
runs hold, so that counting from SRC_ROW still leads to it (log entry 41). -/
def startAt (i : Image) (l : Layout) (ds : List Remap) (own rs : List RunEntry) (a h q b z g : Nat) (together : Bool) : Option Nat :=
  if together && (List.range i.heads).any (fun x => !headDead l b x && !(shareFree i l ds rs b x z g)) then none
  else (List.range i.heads).find? fun k =>
    decide (k ≤ q) && shareFree i l ds rs b k z g && !(memberAt i l own a h q b k) && (List.range k).all fun j => placedRow i l a h (q - 1 - j)
/-- Target (arm, zone, group, head) of a new run for row q of a failed head on arm a (R57): zones from the row's own outward, in each the group
indexes upward and at each index the arms in turn, first where the group is free on every head of the arm that serves (log entry 41). -/
def relocTarget (s : State) (ds : List Remap) (own rs : List RunEntry) (a h q : Nat) : Option (Nat × Nat × Nat × Nat) :=
  let i := s.img
  let arms := (List.range (i.arms - 1)).map fun k => (a + 1 + k) % i.arms
  let n := (arms.map fun b => (zoneList i b).length).foldl max 0
  let lim := ((rs ++ s.layout.runs).map fun r => r.dstGroup.toNat + ceilDiv r.count.toNat i.heads).foldl max 0 + ds.length + 2
  (zonesByDistance n (zoneOfRow i a q).1).findSome? fun z => [true, false].findSome? fun together =>
    (List.range lim).findSome? fun g => arms.findSome? fun b =>
      (startAt i s.layout ds own rs a h q b z g together).map fun k => (b, z, g, k)
/-- The entry that records a target of `relocTarget` for row q. -/
def newRun (a h q : Nat) (t : Nat × Nat × Nat × Nat) : RunEntry := {
  srcArm := BitVec.ofNat 3 a, srcHead := BitVec.ofNat 3 h, srcRow := BitVec.ofNat 40 (q - t.2.2.2), count := BitVec.ofNat 32 (t.2.2.2 + 1),
  dstArm := BitVec.ofNat 3 t.1, dstZone := BitVec.ofNat 6 t.2.1, dstGroup := BitVec.ofNat 32 t.2.2.1, valid := true }
/-- Two entries are one run, recorded to different rows. -/
def sameRun (x r : RunEntry) : Bool :=
  x.srcArm == r.srcArm && x.srcHead == r.srcHead && x.srcRow == r.srcRow && x.dstArm == r.dstArm && x.dstZone == r.dstZone && x.dstGroup == r.dstGroup
/-- Put a run entry in the map: one that goes on from an entry of the map takes its place. One for a row that another run holds goes before
it, after the entries that govern the rows before that row, cut off there (R58); any other goes after the rest. The row's remaps at its old
place go (R56). -/
def enterRun (i : Image) (r : RunEntry) (l : Layout) : Layout :=
  let q := runRow r
  let mine (x : RunEntry) : Bool := x.srcArm == r.srcArm && x.srcHead == r.srcHead && decide (x.srcRow.toNat < q)
  { l with
    runs := if l.runs.any (sameRun · r) then l.runs.map (fun x => if sameRun x r then r else x)
      else if !(placedRow i l r.srcArm.toNat r.srcHead.toNat q) then l.runs ++ [r]
      else if r.count = 1 then r :: l.runs
      else ((l.runs.filter mine).map fun x => if q < x.srcRow.toNat + x.count.toNat then { x with count := BitVec.ofNat 32 (q - x.srcRow.toNat) } else x) ++ r ::
        l.runs.filter fun x => !(mine x) || decide (q < x.srcRow.toNat + x.count.toNat),
    defects := l.defects.filter fun d => !(d.arm == r.srcArm && d.head == r.srcHead && d.row.toNat == q) }
/-- The run entry that takes row q of head h of arm a (R57, R61): a run of the map or of a row under write (`rs`), recorded to row q, when that
leaves every row before q where it is; else a new run clear of those. -/
def runFor (s : State) (ds : List Remap) (own rs : List RunEntry) (a h q : Nat) : Option RunEntry :=
  let i := s.img
  let grown (r : RunEntry) : RunEntry := { r with count := BitVec.ofNat 32 (q - r.srcRow.toNat + 1) }
  let next (r : RunEntry) : Bool :=
    let first := r.srcRow.toNat
    let l := { s.layout with runs := if s.layout.runs.any (sameRun · r) then s.layout.runs else s.layout.runs ++ [r] }
    r.valid && r.srcArm.toNat = a && r.srcHead.toNat = h && decide (first + r.count.toNat ≤ q) && (q - first) / i.heads == (r.count.toNat - 1) / i.heads &&
      shareFree i s.layout ds rs r.dstArm.toNat ((q - first) % i.heads) r.dstZone.toNat (r.dstGroup.toNat + (q - first) / i.heads) &&
      !(memberAt i s.layout own a h q r.dstArm.toNat ((q - first) % i.heads)) &&
      (List.range (q - first - r.count.toNat)).all fun j =>
        placedRow i s.layout a h (q - 1 - j) && runOf i l (enterRun i (grown r) l).runs a h (q - 1 - j) == runOf i l l.runs a h (q - 1 - j)
  match (rs ++ s.layout.runs).find? next with
  | some r => some (grown r)
  | none => (relocTarget s ds own rs a h q).map (newRun a h q)

end Sys2Proof.Machine
end

