-- ==== Sys2Proof/Machine/OpsHost.lean ====
section
/-! DEFINITION. Shared operations of the host side: numbered frames against credit (R341–R349), partner records (R448, R449), completions
(R366–R369, R393, R399), ledger entries and their mirror (R292–R297, R304), deferred errors (R390, R391), and the settling of
commands that wait for a commit (R377–R379). -/

namespace Sys2Proof.Machine

/-- State codes of Table 12.6. -/
def devCode : DevState → Nat
  | .unconfigured => 0 | .configuring => 1 | .parked => 2 | .spinningUp => 3 | .loading => 4 | .ready => 5 | .faultHold => 6
  | .standby => 7 | .takeover => 8 | .holdUp => 9 | .stopped => 10
def devOfCode (n : Nat) : DevState :=
  ([.unconfigured, .configuring, .parked, .spinningUp, .loading, .ready, .faultHold, .standby, .takeover, .holdUp, .stopped] :
    List DevState).getD n .unconfigured

-- Frames.

/-- The value of TX_OUT and RX_OUT when no lane is mapped out, and the physical spare (log entry 20). -/
def laneNone (l : Nat) : Nat := if l = 2 then 15 else 31
def laneSpare (l : Nat) : Nat := if l = 2 then 8 else 16
def linkUp (s : State) (l : Nat) : Bool := (getLink s l).link = 2 || (getLink s l).link = 3
/-- Bits of a received frame's header, its FTYPE and its credit class: CMD, else WDATA or the partner's one class. -/
def hdr (f : LinkFrame) (hi lo : Nat) : Nat := bitsOf hi lo f.header.toNat
def frType (f : LinkFrame) : Nat := hdr f 63 60
def rxClass (f : LinkFrame) : Nat := if frType f = 1 then 0 else 1
/-- The acknowledgement and credit fields that the next frame carries (R343, R348): ACKSEQ = NEXT − 1, one class in rotation. -/
def ackOf (s : State) (l : Nat) : BitVec 16 := (getLink s l).next - 1
def crClassOf (s : State) (l : Nat) : Nat := if l = 2 then 1 else (getLink s l).crTurn % 2
def crTotalOf (s : State) (l : Nat) : Nat := tabGet 0 (getLink s l).granted (crClassOf s l) % 4096
/-- A frame waits for a lane (R338, R344, R345): new numbered frames in SEQ order behind every replay and LCTL frame (log entry 48). -/
def laneQueue (f : OutFrame) (q : List OutFrame) : List OutFrame := if f.new then q ++ [f] else q.filter (!·.new) ++ f :: q.filter (·.new)
def queueOut (l : Nat) (f : OutFrame) (s : State) : State := modLink s l fun k => { k with ready := laneQueue f k.ready }
/-- A frame has been sent: the owed acknowledgement went with it. -/
def frameSent (l : Nat) (s : State) : State := modLink s l fun k => { k with ackDue := false, crTurn := (k.crTurn + 1) % 2 }
/-- Send a frame of a body under a SEQ: it goes to the lanes. -/
def putFrame (l : Nat) (seq : BitVec 16) (body : TxBody) (flip : Option Nat) (new : Bool) (s : State) : State :=
  frameSent l (queueOut l { seq, body := .inl body, ack := ackOf s l, crClass := crClassOf s l, crTotal := crTotalOf s l, flip, new }
    (send (.frame l seq body (ackOf s l) (crClassOf s l) (crTotalOf s l) flip) s))
/-- Words of the injector's LFSR, 32 bits (R359). -/
def injDraw (j : Injector) : Nat := (Config.injectorLfsr j.draws).toNat
/-- Does the injector of a port act on this eligible frame (R359); its state after. -/
def injStep (j : Injector) : Bool × Injector :=
  if j.byProb then (decide (injDraw j < j.prob), { j with draws := j.draws + 1 })
  else if j.countN ≤ j.seen + 1 then (true, { j with seen := 0 }) else (false, { j with seen := j.seen + 1 })
/-- An action made: counted, and the injector turns itself off after LIMIT actions (R359, R360). -/
def injDone (j : Injector) : Injector :=
  let j := { j with actions := satInc 32 j.actions }
  if j.limit = 0 then j else if j.left ≤ 1 then { j with left := 0, action := 0 } else { j with left := j.left - 1 }
/-- CORRUPT on the first sending of an eligible frame (R358). -/
def injectTx (l : Nat) (ftype : Nat) (s : State) : Option Nat × State :=
  let j := getInj s l
  if l < 2 && j.action = 2 && j.mask.getLsbD ftype then
    let (act, j') := injStep j
    if act then (some j.corruptBit, modInj s l fun _ => injDone j') else (none, modInj s l fun _ => j')
  else (none, s)

/-- Send an unnumbered LCTL frame, which the injector may corrupt (R358). -/
def putLctl (l : Nat) (r : CtlRec) (s : State) : State :=
  if linkUp s l then
    let (flip, s) := injectTx l 5 s
    frameSent l (queueOut l { body := .inr r, ack := ackOf s l, crClass := crClassOf s l, crTotal := crTotalOf s l, flip }
      (send (.lctl l r (ackOf s l) (crClassOf s l) (crTotalOf s l)) s))
  else s

/-- Credit class of a body (R348, R448). -/
def classOf : TxBody → Nat | .cpl _ => 2 | .rdata .. => 3 | .mirror _ => 1
/-- FTYPE of a body (Tables 11.3, 15.1). -/
def ftypeOf : TxBody → Nat
  | .cpl _ => 2 | .rdata .. => 4 | .mirror (.mdata ..) => 8 | .mirror (.ment _) => 9 | .mirror _ => 10
/-- A numbered frame may be sent: the link is up, fewer than 4,096 are unacknowledged, a credit of its class is held (R345, R348). -/
def maySend (s : State) (l cls : Nat) : Bool :=
  linkUp s l && decide ((getLink s l).unacked.length < 4096) && decide (0 < tabGet 0 (getLink s l).credit cls)

/-- What is kept of a frame for a replay (R346): its records, and of read data the place alone. -/
def keptBody : TxBody → TxBody
  | .rdata tag blk fib _ => .rdata tag blk fib 0
  | b => b
/-- First sending of a numbered frame (R341, R345, R348); the caller has checked `maySend`. -/
def sendNumbered (l : Nat) (body : TxBody) (s : State) : State :=
  let k := getLink s l
  let (flip, s) := injectTx l (ftypeOf body) s
  let s := modLink s l fun k => { k with
    txSeq := k.txSeq + 1, credit := tabMod 0 k.credit (classOf body) (· - 1),
    unacked := k.unacked ++ [{ seq := k.txSeq, body := keptBody body, sentAt := now s, corrupted := flip.isSome, hit := flip.isSome }] }
  putFrame l k.txSeq body flip true s
/-- A frame built anew for a replay (R346): read data from the millrace slot of its block, which holds it until the acknowledgement, or from the blocks that
the command itself returns; a completion from its hopper context. -/
def rebuilt (s : State) (l : Nat) : TxBody → TxBody
  | .rdata tag blk fib d =>
    match s.hop.cmds.find? fun c => c.port = l && c.cap.tag = tag with
    | none => .rdata tag blk fib d
    | some c =>
      let b : Block := match s.mrc.slots.find? fun e => e.2.used && e.2.arrival = c.arrival && e.2.pos = blk && decide (e.1 < 20480) with
        | some e => e.2.data
        | none => c.reply.getD blk 0
      .rdata tag blk fib ((b >>> (4096 * fib)).setWidth 4096)
  | .cpl rs => .cpl (rs.map fun r => match r with
    | .inl c => if c.rej then .inl c else
        .inl (((s.hop.cmds.find? fun x => x.port = l && BitVec.ofNat 40 x.arrival = c.arrival && x.cap.tag = c.tag).bind (·.result)).getD c)
    | .inr g => .inr g)
  | b => b
/-- Send an unacknowledged frame again, on its first credit (R344, R348). -/
def sendAgain (l : Nat) (f : TxFrame) (s : State) : State :=
  let s := modLink s l fun k => { k with
    unacked := k.unacked.map fun g => if g.seq = f.seq then { g with sends := g.sends + 1, sentAt := now s, corrupted := false } else g }
  putFrame l f.seq (rebuilt s l f.body) none false s

/-- Send a record to the partner (R448), or keep it until the link, the window and the credit allow. -/
def ptnSend (r : CtlRec) (s : State) : State :=
  if maySend s 2 1 && (getLink s 2).txWait.isEmpty then sendNumbered 2 (.mirror r) s
  else modLink s 2 fun k => { k with txWait := k.txWait ++ [r] }
/-- Send what waits on the partner link as far as credit and window go. -/
def ptnFlush (s : State) : State :=
  each (getLink s 2).txWait (fun r s => if maySend s 2 1 then
    sendNumbered 2 (.mirror r) (modLink s 2 fun k => { k with txWait := k.txWait.drop 1 }) else s) s
/-- This part is active and its standby is SYNCED (R457). -/
def mirrorOn (s : State) : Bool := s.ptn.role = 1 && s.ptn.synced
/-- A record of a mirrored change. -/
def mirror (r : CtlRec) (s : State) : State := if mirrorOn s then ptnSend r s else s
/-- The image configures a partner (R23). -/
def ptnOn (s : State) : Bool := s.start.imageLoaded && ptnEn s.img
/-- This part's ARBITRATE record (Table 15.2). -/
def arbRec (s : State) : ArbRec :=
  let dumps := s.hold.areas.toList.filter (·.unretired)
  { role := s.pwr.role, state := BitVec.ofNat 8 (devCode s.dev), dump := !dumps.isEmpty, synced := s.ptn.synced,
    dumpId := BitVec.ofNat 64 (((dumps.map fun a => a.dumpId.toNat).min?).getD 0), imageVer := s.img.imageVer, compat := s.img.compat }
/-- ARBITRATE is sent to the partner (R455). -/
def sendArb (s : State) : State := if ptnOn s then ptnSend (.arbitrate (arbRec s)) s else s
/-- A standby asks for RESYNC (R455 row 3, R457): what it mirrored so far no longer counts; event 0x88. -/
def askResync (s : State) : State :=
  let s := { s with ptn := { s.ptn with synced := false, asked := true, ctxs := [] }, mpd := { s.mpd with ledger := [], frames := [], parts := [] } }
  ptnSend (.resync 0 0) (post 0x88 mPartner [] s)
/-- A native WRITE is held back: a partner is configured, PTN_SOLO = 0, and none was SYNCED when the WRITE arrived, or is now (R456, R457). -/
def heldBack (s : State) (c : Cmd) : Bool := ptnEn s.img && !ptnSolo s.img && !(s.ptn.synced && c.needMirror)

-- Commands.

/-- The command of an arrival number. -/
def cmdOf (s : State) (arr : Nat) : Option Cmd := s.hop.cmds.find? fun c => c.arrival = arr
def modCmd (s : State) (arr : Nat) (f : Cmd → Cmd) : State :=
  { s with hop := { s.hop with cmds := s.hop.cmds.map fun c => if c.arrival = arr then f c else c } }
/-- The command that holds a tag of a port. -/
def cmdOfTag (s : State) (p : Nat) (tag : BitVec 16) : Option Cmd := s.hop.cmds.find? fun c => c.port = p && c.cap.tag = tag
def deferredPending (s : State) (p : Nat) : Bool := !(getHopPort s p).deferred.isEmpty

/-- A frame that carries data of a block has been sent and not been acknowledged (R280, R346). -/
def blockUnacked (s : State) (l : Nat) (tag : BitVec 16) (blk : Nat) : Bool :=
  (getLink s l).unacked.any fun f => match f.body with | .rdata t b _ _ => t = tag && b = blk | _ => false
/-- Free the remaining millrace slots of a command (R280): those whose frames wait for their acknowledgement stay until then (R346). -/
def freeSlots (arr : Nat) (s : State) : State :=
  let held (pos : Nat) : Bool := (s.hop.cmds.find? fun c => c.arrival = arr).any fun c => blockUnacked s c.port c.cap.tag pos
  { s with mrc := { s.mrc with slots := s.mrc.slots.filter fun e => !(e.2.used && e.2.arrival == arr && decide (e.1 < 20480) && !held e.2.pos) } }
/-- Remove every pin of a reader (R301). -/
def unpin (arr : Nat) (s : State) : State :=
  { s with mpd := { s.mpd with
      pins := s.mpd.pins.filter fun q => q.2 ≠ arr, mediumPins := s.mpd.mediumPins.filter fun q => q.2 ≠ arr } }
/-- Versions compare by their signed difference modulo 2^40 (R296). -/
def seqLt (a b : BitVec 40) : Bool := decide (signedOf 40 (b - a).toNat > 0)
/-- Commits of which no older version stays in a frame are forgotten. -/
def pruneCommitted (s : State) : State :=
  if s.mpd.committed.isEmpty then s
  else { s with mpd := { s.mpd with committed := s.mpd.committed.filter (fun c =>
    s.mpd.ledger.any fun fe => fe.2.valid && fe.2.lba.toNat = c.1 && seqLt fe.2.vseq (BitVec.ofNat 40 c.2)) } }
/-- SUPERSEDED and RELEASING entries whose frame no reader pins are freed (R293, R301). A RELEASING frame becomes a clean frame
unless READ_CACHE = 0 (R291). -/
def releaseFrames (s : State) : State :=
  pruneCommitted <| each s.mpd.ledger (fun fe s =>
    let e := fe.2
    if e.valid && (e.state = 4 || e.state = 5) && !(s.mpd.pins.any fun q => q.1 = fe.1) then
      let keep := e.state = 5 && readCache s.img ≠ 0 && s.ptn.role ≠ 2
      let s := setEntry s fe.1 {}
      let s := { s with mpd := { s.mpd with dirtySince := tabDel fe.1 s.mpd.dirtySince, parts := tabDel fe.1 s.mpd.parts } }
      let c : CleanFrame := { lba := e.lba.toNat, htag := e.htag, ref := true, valid := true }
      if keep then { s with mpd := { s.mpd with clean := tabSet {} s.mpd.clean fe.1 c } }
      else setFrame s fe.1 0
    else s) s

/-- The command of an arrival number was admitted. -/
def admittedCmd (s : State) (arr : Nat) : Bool := (cmdOf s arr).any (·.admitted)
/-- Place a completion in its port's queue: its issue (R386). In partner operation an admitted command's record goes to the partner first
(R399). -/
def issueRec (p : Nat) (r : CplRec) (s : State) : State :=
  let s := if admittedCmd s r.arrival.toNat then mirror (.cpl p r) s else s
  modHopPort s p fun h => { h with cpls := h.cpls ++ [.inl r] }

/-- Grants of a tag that have not been sent go from the completion queue: a command that has ended gets none any more (R387). -/
def dropGrants (p : Nat) (tag : BitVec 16) (s : State) : State :=
  modHopPort s p fun h => { h with cpls := h.cpls.filter fun r => match r with | .inr g => g.1 ≠ tag | .inl _ => true }
/-- Complete a command (R367): GOOD becomes GOOD_DEFERRED_PENDING while a record is pending (R393). Its slots are freed unless the
status is GOOD (R280), and its pins go (R301). The context stands until the host acknowledges (R369). -/
def completeOne (arr status : Nat) (info : Nat) (s : State) : State :=
  match cmdOf s arr with
  | none => s
  | some c =>
    if c.phase = .issued then s
    else
      let status := if status = 0 && deferredPending s c.port then 1 else status
      let r : CplRec := {
        tag := c.cap.tag, status := BitVec.ofNat 8 status, opcode := c.cap.opcode, arrival := BitVec.ofNat 40 arr,
        info := BitVec.ofNat 48 info }
      let s := modCmd s arr fun c => { c with phase := .issued, result := some r, grants := [], staged := [] }
      let s := releaseFrames (unpin arr (if status ≤ 1 then s else freeSlots arr s))
      issueRec c.port r (dropGrants c.port c.cap.tag s)
/-- Complete a command, and then each ABORT that waits for its completion (R386). -/
def complete (arr status : Nat) (info : Nat) (s : State) : State :=
  match cmdOf s arr with
  | none => s
  | some c =>
    let waiting := s.hop.cmds.filter fun a => a.port = c.port && a.cap.opcode = 0x05 && a.phase = .waiting && a.cap.arg32.toNat % 65536 = c.cap.tag.toNat
    each (waiting.map fun a => (a.arrival, c.cap.tag.toNat)) (fun a s => completeOne a.1 0x31 a.2 s) (completeOne arr status info s)

-- Ledger.

/-- The landed, dirty states (R289): LANDING, HELD, BUILDING, WRITTEN. -/
def dirtyEntry (e : LedgerEntry) : Bool := e.valid && decide (e.state.toNat ≤ 3)
def landedEntry (e : LedgerEntry) : Bool := e.valid && decide (1 ≤ e.state.toNat) && decide (e.state.toNat ≤ 3)
/-- Dirty level in frames (R289). -/
def dirtyFrames (s : State) : Nat := (s.mpd.ledger.filter fun fe => dirtyEntry fe.2).length
/-- Entries of an LBA with their frames. -/
def entriesOf (s : State) (lba : Nat) : List (Nat × LedgerEntry) := s.mpd.ledger.filter fun fe => fe.2.valid && fe.2.lba.toNat = lba
/-- The entry with the highest VSEQ of a list. -/
def newest (es : List (Nat × LedgerEntry)) : Option (Nat × LedgerEntry) :=
  es.foldl (fun best e => match best with | none => some e | some b => if seqLt b.2.vseq e.2.vseq then some e else some b) none
/-- The medium holds a newer version of the block than an entry, older than arrival number r, so that r does not take the entry (R298, R383). -/
def passedBy (s : State) (lba r : Nat) (e : LedgerEntry) : Bool :=
  s.mpd.committed.any fun c => c.1 = lba && seqLt e.vseq (BitVec.ofNat 40 c.2) && seqLt (BitVec.ofNat 40 c.2) (BitVec.ofNat 40 r)
/-- Version that a reader of arrival number r takes from the millpond (R298). -/
def selectVersion (s : State) (lba r : Nat) : Option (Nat × LedgerEntry) :=
  newest ((entriesOf s lba).filter fun fe => seqLt fe.2.vseq (BitVec.ofNat 40 r) && !(passedBy s lba r fe.2))
/-- Current version: landed, highest VSEQ (R297). -/
def currentVersion (s : State) (lba : Nat) : Option (Nat × LedgerEntry) := newest ((entriesOf s lba).filter fun fe => landedEntry fe.2)
/-- The clean frame of an LBA in the cache directory (R288). -/
def cleanOf (s : State) (lba : Nat) : Option (Nat × CleanFrame) := s.mpd.clean.find? fun fc => fc.2.valid && !fc.2.stale && fc.2.parity.isNone && fc.2.lba = lba
/-- A commit has replaced a block on the medium: its clean copies leave the directory, the pinned ones with their last pin (R291, R301). -/
def dropClean (lba : Nat) (s : State) : State :=
  each (s.mpd.clean.filter fun fc => fc.2.valid && fc.2.parity.isNone && fc.2.lba = lba) (fun fc s =>
    if s.mpd.pins.any fun q => q.1 = fc.1 then { s with mpd := { s.mpd with clean := tabSet {} s.mpd.clean fc.1 { fc.2 with stale := true } } }
    else setFrame { s with mpd := { s.mpd with clean := tabDel fc.1 s.mpd.clean } } fc.1 0) s

/-- Change an entry's STATE; HELD, BUILDING, WRITTEN and SUPERSEDED go to the partner as they occur (R304, R449). -/
def setState (f : Nat) (st : BitVec 3) (s : State) : State :=
  let e := { getEntry s f with state := st }
  let s := setEntry s f e
  if st = 0 || st = 5 then s else mirror (.ment [e]) s
-- Work for the arms, and where a reader takes a block from.

/-- Put work before the sluice (R416); new work is a decision point of an idle arm (R414). -/
def addWork (w : Work) (s : State) : State :=
  if s.slu.work.any fun x => { x with at_ := w.at_ } = w then s else { s with slu := { s.slu with
    work := s.slu.work ++ [{ w with at_ := now s }],
    decideAt := if (tabGet none s.slu.ops w.arm).isNone then tabSet 0 s.slu.decideAt w.arm (now s) else s.slu.decideAt } }
/-- Operation to which a place belongs: the row's native sectors of an arm go together, a remapped or relocated one goes with those on its own head
and track pair, or, of a write, on its own track (R126). -/
def placeGroup (write : Bool) (i : Image) (l : Layout) (a q k : Nat) (p : Place) : Nat × Nat × Nat :=
  if p = nativePlace i l a q (k / 32) (k / 16 % 2) (k % 16) then (p.arm, 0, 0) else (p.arm, p.head + 1, if write then p.track else p.track / 2)
/-- Reads of sectors of a row of arm a: one piece of work for each arm and place that holds some of them (R46, R56, R60). -/
def readWorks (kind : OpKind) (a q : Nat) (keys : List Nat) (arrival : Nat) (repair : Bool) (s : State) : State :=
  let want := expandWant s a q keys
  let place (k : Nat) : Place := sectorPlace s a q (k / 32) (k / 16 % 2) (k % 16)
  let held := want.filter fun k => !(lostHead s a (k / 32) q)
  let lost := want.filter fun k => lostHead s a (k / 32) q
  let group (k : Nat) : Nat × Nat × Nat := placeGroup false s.img s.layout a q k (place k)
  let groups := (held.map group).eraseDups
  each groups (fun g s =>
    let mine := held.filter fun k => group k = g
    addWork {
      arm := g.1, kind, lArm := a, row := q, want := (if groups.head? = some g then lost else []) ++ mine, heads := (mine.map fun k => (place k).head).eraseDups, repair, arrival } s) s
/-- Key of the sector of an LBA within its row. -/
def lbaKey (i : Image) (lba : Nat) : Nat :=
  let o := offOf i lba
  secKey (headOfOff i (qOfRow i (rowOf i lba)) o) (trackOfOff i o) (slotOfOff i o)
/-- Read these blocks of one row from the medium for a command: the whole row when every data block is wanted (R45, R60). A row under write is
not read for host data (R300). -/
def fetchRow (arr row : Nat) (lbas : List Nat) (s : State) : State :=
  if lbas.isEmpty || s.rows.any fun r => r.row = row then s
  else
    let a := armOfRow s.img row
    let q := qOfRow s.img row
    if bR s.img ≤ lbas.length then readWorks .rowRead a q ((rowSectors s.img).map fun k => secKey k.1 k.2.1 k.2.2) arr false s
    else readWorks .partialRead a q (lbas.map (lbaKey s.img)) arr false s

/-- Block of a command's range that an LBA is. -/
def blockAt (c : Cmd) (lba : Nat) : Option Nat :=
  if c.cap.lba.toNat ≤ lba ∧ lba < c.cap.lba.toNat + c.cap.count.toNat then some (lba - c.cap.lba.toNat) else none
/-- The newest WRITE that arrived before r and has not been granted its block at an LBA yet: its version is still to come (R298, R383). -/
def pendingWrite (s : State) (lba r : Nat) : Option Nat :=
  (s.hop.cmds.filter fun c => c.cap.opcode = 0x02 && c.phase = .running && seqLt (BitVec.ofNat 40 c.arrival) (BitVec.ofNat 40 r) &&
    (blockAt c lba).any fun i => !(c.frames.any fun e => e.1 = i)).foldl (fun best c =>
      if best.all fun b => seqLt (BitVec.ofNat 40 b) (BitVec.ofNat 40 c.arrival) then some c.arrival else best) none
/-- The version of an LBA that a command of arrival number r selects is one still to be granted (R298, R383): its WRITE. -/
def selectedWrite (s : State) (lba r : Nat) : Option Nat :=
  (pendingWrite s lba r).filter fun w => (selectVersion s lba r).all fun fe => seqLt fe.2.vseq (BitVec.ofNat 40 w)
/-- Frame of a row's staging area that takes the read-in block of offset o, past the 34 parity and side-record frames (R666). -/
def stagingOf (r : RowBuild) (o : Nat) : Nat := r.staging + 34 + o
/-- Where a READ of arrival number r takes a block from (R164, R288, R298, R300, R383). -/
def chooseSrc (s : State) (lba r : Nat) : BlockSrc :=
  match selectedWrite s lba r with
  | some w => .write w
  | none =>
  match selectVersion s lba r with
  | some fe => .frame fe.1
  | none =>
    match s.rows.find? fun b => b.row = rowOf s.img lba && b.kind = 0 with
    | some b =>
      let o := offOf s.img lba
      if b.standIns.contains o then .lost else .frame (((b.src[o]?).join).getD (stagingOf b o))
    | none =>
      if s.layout.unrecoverable.contains lba then .lost
      else match cleanOf s lba with
        | some fc => .frame fc.1
        | none => .medium
/-- Take a block for a READ: its source, its pin (R298), and the reference bit of a clean frame (R291). -/
def takeBlock (arr i lba : Nat) (s : State) : State :=
  let b := chooseSrc s lba arr
  let s := modCmd s arr fun c => { c with srcs := if i < c.srcs.length then c.srcs.set i b else c.srcs ++ [b] }
  match b with
  | .frame f =>
    let s := { s with mpd := { s.mpd with pins := s.mpd.pins ++ [(f, arr)] } }
    if (tabGet ({} : CleanFrame) s.mpd.clean f).valid then { s with mpd := { s.mpd with clean := tabMod ({} : CleanFrame) s.mpd.clean f fun c => { c with ref := true } } } else s
  | .medium => { s with mpd := { s.mpd with mediumPins := s.mpd.mediumPins ++ [(lba, arr)] } }
  | _ => s
/-- A reader whose block is gone takes it anew (R302). -/
def retakeBlock (arr i lba : Nat) (s : State) : State :=
  let s := takeBlock arr i lba s
  match (cmdOf s arr).bind fun c => c.srcs[i]? with
  | some .medium => fetchRow arr (rowOf s.img lba) [lba] s
  | _ => s
/-- A VERIFY or FLUSH waits for this version of a block: still to come or dirty, or superseded with the newer version not yet committed (R378,
R379). -/
def waitFor (s : State) (lba r : Nat) : Option (Nat × Nat) :=
  match selectedWrite s lba r with
  | some w => some (lba, w)
  | none =>
    match selectVersion s lba r with
    | some fe =>
      let newerDirty := (entriesOf s lba).any fun x => dirtyEntry x.2 && seqLt fe.2.vseq x.2.vseq
      if fe.2.state = 5 || (fe.2.state = 4 && !newerDirty) then none else some (lba, fe.2.vseq.toNat)
    | none => none

/-- Withdraw a version (R302): its frame is freed, the partner is told (R304), and its readers take the next older version. -/
def withdraw (f : Nat) (s : State) : State :=
  let e := getEntry s f
  let lba := e.lba.toNat
  let s := setFrame (setEntry s f {}) f 0
  let s := { s with mpd := { s.mpd with
    dirtySince := tabDel f s.mpd.dirtySince, parts := tabDel f s.mpd.parts, pins := s.mpd.pins.filter fun q => q.1 ≠ f } }
  let s := mirror (.ment [{ e with valid := false }]) s
  each (s.hop.cmds.map (·.arrival)) (fun arr s =>
    match cmdOf s arr with
    | none => s
    | some c =>
      let s := match c.srcs.findIdx? (· = .frame f) with
        | some i => retakeBlock arr i lba s
        | none => s
      modCmd s arr fun c => { c with waits := c.waits.flatMap fun w => if w = (lba, e.vseq.toNat) then (waitFor s lba arr).toList else [w] }) s

/-- What waits for blocks that a WRITE has not been granted takes the next older versions (R302). -/
def passWrite (w : Nat) (s : State) : State :=
  each (s.hop.cmds.map (·.arrival)) (fun arr s =>
    match cmdOf s arr with
    | none => s
    | some c =>
      let s := each ((c.srcs.zipIdx.filter fun x => x.1 = .write w).map (·.2)) (fun i s => retakeBlock arr i (c.cap.lba.toNat + i) s) s
      modCmd s arr fun c => { c with waits := c.waits.flatMap fun x => if x.2 = w then (waitFor s x.1 arr).toList else [x] }) s
/-- Blocks of a WRITE that have not landed are withdrawn (R302, R387). -/
def withdrawLanding (c : Cmd) (s : State) : State :=
  let s := passWrite c.arrival (modCmd s c.arrival fun c => { c with phase := .waiting })
  each s.mpd.ledger (fun fe s =>
    if fe.2.valid && fe.2.state = 0 && fe.2.vseq = BitVec.ofNat 40 c.arrival && fe.2.portB = (c.port == 1) then withdraw fe.1 s else s) s

/-- Blocks of the LBA range of a capsule. -/
def capLbas (c : Cmd) : List Nat := (List.range c.cap.count.toNat).map (c.cap.lba.toNat + ·)
/-- Host tag of block i (R374). -/
def hostTag (c : Capsule) (i : Nat) : Word := if c.htagInc then c.arg64 + BitVec.ofNat 64 i else c.arg64

/-- Every block of a WRITE has landed. -/
def allLanded (c : Cmd) : Bool := decide (c.landed.length = c.cap.count.toNat)
/-- The entry holds a block of the command's WRITE. -/
def wrote (c : Cmd) (e : LedgerEntry) : Bool := c.cap.opcode = 0x02 && e.vseq = BitVec.ofNat 40 c.arrival && e.portB = (c.port == 1)
/-- A block of a WRITE is confirmed by the partner: itself, or the version that superseded it (R377). -/
def blockConfirmed (s : State) (c : Cmd) (lba : Nat) : Bool :=
  c.confirmed.contains (lba - c.cap.lba.toNat) ||
  match currentVersion s lba with
  | some fe => fe.2.mirrored
  | none => true
/-- No block of the WRITE is left that is neither committed nor superseded (R377, compatibility mode and R456). -/
def allSettled (s : State) (c : Cmd) : Bool :=
  !(s.mpd.ledger.any fun fe => dirtyEntry fe.2 && wrote c fe.2 &&
    !((entriesOf s fe.2.lba.toNat).any fun g => landedEntry g.2 && seqLt fe.2.vseq g.2.vseq))
/-- Mode of the command's session. -/
def compatCmd (s : State) (c : Cmd) : Bool := (getLink s c.port).compat
/-- The rule of R377 (with R456 and R457) for the completion of a WRITE. -/
def writeDone (s : State) (c : Cmd) : Bool :=
  allLanded c &&
  (if compatCmd s c then allSettled s c
   else if !ptnEn s.img then true
   else if s.ptn.synced && c.needMirror then (capLbas c).all (blockConfirmed s c)
   else if ptnSolo s.img then true
   else allSettled s c)
/-- ACKED on the entries of a WRITE that completes, and on the versions that superseded its blocks (R295, R377). -/
def ackEntries (c : Cmd) (s : State) : State :=
  each (capLbas c) (fun lba s => each (entriesOf s lba) (fun fe s =>
    if landedEntry fe.2 && !(seqLt fe.2.vseq (BitVec.ofNat 40 c.arrival)) then setEntry s fe.1 { getEntry s fe.1 with acked := true } else s) s) s

/-- LBAs of a list by row, in order. -/
def byRow (i : Image) (lbas : List Nat) : List (Nat × List Nat) :=
  let rows := (lbas.map (rowOf i)).eraseDups
  rows.map fun r => (r, lbas.filter fun l => rowOf i l = r)
/-- A VERIFY whose versions are settled reads its range from the medium (R378); a listed block ends it there (R164). -/
def beginVerify (arr : Nat) (s : State) : State :=
  match cmdOf s arr with
  | none => s
  | some c =>
    let s := modCmd s arr fun c => { c with
      phase := .running, srcs := (capLbas c).map fun l => if s.layout.unrecoverable.contains l then .lost else .medium }
    each (byRow s.img ((capLbas c).filter fun l => !s.layout.unrecoverable.contains l)) (fun g s => fetchRow arr g.1 g.2 s) s

/-- Complete every command whose condition has come to hold: WRITE by R377, FLUSH by R379; a VERIFY whose versions are settled goes
on to its read (R378). -/
def recheck (s : State) : State :=
  each (s.hop.cmds.map (·.arrival)) (fun arr s =>
    match cmdOf s arr with
    | none => s
    | some c =>
      if c.cap.opcode = 0x02 && c.phase = .running && writeDone s c then complete arr 0 0 (ackEntries c s)
      else if c.cap.opcode = 0x04 && c.phase = .waiting && c.waits.isEmpty then complete arr 0 0 s
      else if c.cap.opcode = 0x03 && c.phase = .waiting && c.waits.isEmpty then beginVerify arr s
      else s) s

-- Deferred errors.

/-- One packet word whose content the manual does not lay out, posted to a message queue (log entry 13). -/
def mqNote (q : Nat) (s : State) : State := mqSend q [(freeVal s).setWidth 64] (nextFree s)

/-- Enter an LBA in the unrecoverable-block list (R164); a full list takes no more (R165). -/
def listBlock (lba : Nat) (s : State) : State :=
  if s.layout.unrecoverable.contains lba || decide (65536 ≤ s.layout.unrecoverable.length) then s else { s with layout := { s.layout with unrecoverable := s.layout.unrecoverable ++ [lba] } }
/-- Keep a deferred record on its port: it takes the place of those of its loss that it covers, else stands last (R391). -/
def storeDeferred (r : DeferredRec) (s : State) : State :=
  modHopPort s (b2n r.portB) fun h =>
    let covered (q : DeferredRec) : Bool := q.index = r.index || (q.cause = r.cause && q.arrival = r.arrival && q.tag = r.tag &&
      decide (r.lba.toNat ≤ q.lba.toNat) && decide (q.lba.toNat + q.count.toNat ≤ r.lba.toNat + r.count.toNat))
    if h.deferred.any covered then
      { h with deferred := (h.deferred.takeWhile fun q => !covered q) ++ r :: ((h.deferred.dropWhile fun q => !covered q).filter fun q => !covered q) }
    else { h with deferred := h.deferred ++ [r] }
/-- A new deferred record (R390): its index, event 0x0C, the partner's copy and the cores' queue; a port that holds 256 takes OVERFLOW in
its newest record alone (R391). -/
def addDeferred (r : DeferredRec) (s : State) : State :=
  let h := getHopPort s (b2n r.portB)
  if 256 ≤ h.deferred.length then
    match h.deferred.getLast? with
    | some q => if q.overflow then s else mirror (.deferred { q with overflow := true }) (storeDeferred { q with overflow := true } s)
    | none => s
  else
    let idx := s.hop.nextDeferred
    let r := { r with time := BitVec.ofNat 64 (devTime s), index := BitVec.ofNat 32 idx }
    let s := storeDeferred r { s with hop := { s.hop with nextDeferred := (idx + 1) % 2 ^ 32 } }
    mqNote 22 (mirror (.deferred r) (post 0x0C mHopper [b1 (b2n r.portB), b8 idx] s))
/-- Two records of one loss that meet, as one: the older's index, and OVERFLOW of either. -/
def joinDeferred (q r : DeferredRec) : DeferredRec :=
  { q with lba := if r.lba.toNat < q.lba.toNat then r.lba else q.lba, count := q.count + r.count, overflow := q.overflow || r.overflow }
/-- One record ends where the other begins. -/
def meets (q r : DeferredRec) : Bool :=
  q.cause = r.cause && q.arrival = r.arrival && q.tag = r.tag && (q.lba.toNat + q.count.toNat = r.lba.toNat || r.lba.toNat + r.count.toNat = q.lba.toNat)
/-- Raise a deferred error (R390): the list of R164 takes the block. Contiguous lost blocks of one WRITE share one record, whatever the order of their
losses (log entry 55); else a new one stands. -/
def raiseDeferred (portB : Bool) (cause : Nat) (lba arrival : Nat) (tag : BitVec 16) (s : State) : State :=
  let s := listBlock lba s
  let one : DeferredRec := { count := 1, lba := BitVec.ofNat 48 lba, arrival := BitVec.ofNat 40 arrival, tag, portB, cause := BitVec.ofNat 4 cause }
  match (getHopPort s (b2n portB)).deferred.filter (meets · one) with
  | [] => addDeferred one s
  | q :: rest =>
    let r := joinDeferred (rest.foldl joinDeferred q) one
    mirror (.deferred r) (storeDeferred r s)

end Sys2Proof.Machine
end

