-- ==== Sys2Proof/Machine/Lanes.lean ====
section
/-! DEFINITION. The lanes of the Lanlet ports and of the partner link (R336–R339, R345, R447): the bytes of a frame and of its records, runs of
two frames, control blocks and codewords; and what the codewords of one received lane are as frames. -/

namespace Sys2Proof.Machine

-- Records and frames as bits (R339, Tables 11.1 to 11.4, 12.2, 12.3, 15.1, 15.2).

def cplBits (r : CplRec) : Nat :=
  inBits 15 0 r.tag.toNat + inBits 23 16 r.status.toNat + inBits 25 25 (b2n r.rej) + inBits 39 32 r.opcode.toNat + inBits 79 40 r.arrival.toNat + inBits 127 80 r.info.toNat
/-- A data grant: tag, first block, blocks. -/
def grantBits (g : BitVec 16 × Nat × Nat) : Nat := inBits 15 0 g.1.toNat + 2 ^ 24 + inBits 47 32 g.2.1 + inBits 64 48 g.2.2
def deferredBits (r : DeferredRec) : Nat :=
  inBits 240 240 (b2n r.overflow) + inBits 239 176 r.time.toNat + inBits 175 144 r.count.toNat + inBits 143 96 r.lba.toNat + inBits 95 56 r.arrival.toNat + inBits 55 40 r.tag.toNat +
    inBits 36 36 (b2n r.portB) + inBits 35 32 r.cause.toNat + inBits 31 0 r.index.toNat
/-- KIND and entry of a LAYOUT record; kinds 2 and 3 as `layoutOf` reads them (log entry 36). -/
def layoutBits : LayoutRec → Nat × Nat
  | .defect e => (0, defectBits e)
  | .run e => (1, runBits e)
  | .failedHead a h => (2, a.val + 256 * h.val)
  | .cursor a h q => (3, a.val + 256 * h.val + inBytes 15 8 q.toNat)
  | .skipped a h q listed => (3, a.val + 256 * h.val + inBytes 2 2 (if listed then 1 else 2) + inBytes 15 8 q.toNat)
/-- Two's complement of a width. -/
def bitsOfInt (w : Nat) (x : Int) : Nat := (BitVec.ofInt w x).toNat
/-- A PLAN record from byte 1 on, as `planOfRec` reads it (log entry 36). -/
def planBits (r : PlanRec) : Nat :=
  let v := if r.trend then inBits 63 32 (bitsOfInt 32 r.value) + inBits 31 16 r.day + inBits 15 1 r.samples + 1 else bitsOfInt 256 r.value
  inBytes 1 1 (b2n r.trend) + inBytes 8 8 r.kind + inBytes 9 9 r.loc.arm + inBytes 10 10 r.loc.head + inBytes 11 11 r.loc.zone + inBytes 12 12 r.part + inBytes 13 13 r.parts +
    inBytes 23 16 (bitsOfInt 64 r.second) + inBytes 55 24 v
/-- A link control record (Table 11.4, 32 bytes) or a partner's control record (Table 15.2, 64 bytes). -/
def ctlBits : CtlRec → Nat
  | .sessionAccept st compat sid cmd wdata next first => 2 + inBytes 1 1 st + inBytes 2 2 (b2n compat) + inBytes 7 4 sid.toNat + inBytes 9 8 cmd +
      inBytes 11 10 wdata + inBytes 13 12 next.toNat + inBytes 15 14 first.toNat
  | .sessionClose reason sid => 3 + inBytes 1 1 reason + inBytes 7 4 sid.toNat
  | .nak seqs => 4 + inBytes 1 1 seqs.length + inBytes 31 2 (packRecs 16 (seqs.map (·.toNat)))
  | .keepalive t => 5 + inBytes 15 8 t.toNat
  | .laneMap lane reason => 6 + inBytes 1 1 lane + inBytes 2 2 reason
  | .laneMapDone lane => 7 + inBytes 1 1 lane
  | .arbitrate r => 1 + inBytes 1 1 (b2n r.role) + inBytes 2 2 r.state.toNat + inBits 24 24 (b2n r.dump) + inBits 25 25 (b2n r.synced) + inBytes 11 4 r.dumpId.toNat +
      inBytes 15 12 r.imageVer.toNat + inBytes 47 16 r.compat.toNat
  | .heartbeat standby st t dirty => 2 + inBytes 1 1 (b2n standby) + inBytes 2 2 st.toNat + inBytes 15 8 t.toNat + inBytes 19 16 dirty.toNat
  | .confirm fs => 3 + inBytes 1 1 fs.length + inBytes 63 8 (packRecs 32 fs)
  | .cmdCtx p tag arr op lba n => 4 + inBytes 1 1 p + inBytes 3 2 tag.toNat + inBytes 8 4 arr.toNat + inBytes 9 9 op.toNat + inBytes 15 10 lba.toNat + inBytes 19 16 n.toNat
  | .cpl p r => 5 + inBytes 1 1 p + inBytes 31 16 (cplBits r)
  | .cplAcked p tag arr => 6 + inBytes 1 1 p + inBytes 3 2 tag.toNat + inBytes 8 4 arr.toNat
  | .rowCommit row t => 7 + inBytes 15 8 row + inBytes 23 16 t
  | .layout r => 8 + inBytes 1 1 (layoutBits r).1 + inBytes 63 16 (layoutBits r).2
  | .plan r => 9 + planBits r
  | .deferred r => 0xA + inBytes 63 1 (deferredBits r)
  | .failstop cause => 0xB + inBytes 1 1 cause.toNat
  | .handover step reason => 0xC + inBytes 1 1 step + inBytes 2 2 reason.toNat
  | .resync step n => 0xD + inBytes 1 1 step + inBytes 7 4 n
  | .fetch dir f v => 0xE + inBytes 1 1 dir + inBytes 7 4 f + inBytes 12 8 v.toNat
  | .ment es => packRecs 256 (es.map entryBits)
  | .mdata _ _ data => data.toNat
/-- What a frame holds beside its SEQ and acknowledgement: FTYPE, FIB, NREC, payload, trailer bits 31:0. -/
structure FrameParts where
  ftype : Nat
  fib : Nat := 0
  nrec : Nat := 0
  payload : Nat := 0
  tail : Nat := 0
def frameParts : TxBody ⊕ CtlRec → FrameParts
  | .inl (.cpl rs) => { ftype := 2, nrec := rs.length, payload := packRecs 128 (rs.map fun | .inl c => cplBits c | .inr g => grantBits g) }
  | .inl (.rdata tag blk fib data) => { ftype := 4, fib, payload := data.toNat, tail := inBits 31 16 tag.toNat + inBits 15 0 blk }
  | .inl (.mirror (.mdata f fib data)) => { ftype := 8, fib, payload := data.toNat, tail := f }
  | .inl (.mirror (.ment es)) => { ftype := 9, nrec := es.length, payload := ctlBits (.ment es) }
  | .inl (.mirror r) => { ftype := 10, nrec := 1, payload := ctlBits r }
  | .inr r => { ftype := 5, nrec := 1, payload := ctlBits r }
/-- The 528 bytes of a frame (R339): header, payload, trailer with FCRC; an injected inversion comes after FCRC (R358). -/
def assemble (p : FrameParts) (seq ack : BitVec 16) (crClass crTotal : Nat) (flip : Option Nat) : BitVec 4224 :=
  let head := inBits 63 60 p.ftype + inBits 59 44 seq.toNat + inBits 43 28 ack.toNat + 2 ^ 27 + inBits 26 25 crClass + inBits 24 13 crTotal + inBits 12 10 p.fib + inBits 9 4 p.nrec
  let body := head + 2 ^ 64 * (p.payload % 2 ^ 4096) + 2 ^ 4160 * (p.tail % 2 ^ 32)
  let bits := BitVec.ofNat 4224 (body + 2 ^ 4192 * crc32c (bitsLsb 4192 body))
  match flip with
  | some i => bits ^^^ (1#4224 <<< i)
  | none => bits
def lineBits (f : OutFrame) : BitVec 4224 := assemble (frameParts f.body) f.seq f.ack f.crClass f.crTotal f.flip
/-- A NULL frame with the acknowledgement and credit of the moment (R338, R341, R343), and the bit that an injection inverts (R358). -/
def nullBits (s : State) (l : Nat) (flip : Option Nat) : BitVec 4224 := assemble { ftype := 0 } 0 (ackOf s l) (crClassOf s l) (crTotalOf s l) flip

-- Runs and codewords (R337, R338, R345).

def isNumberedOut (f : OutFrame) : Bool := f.body.isLeft
/-- SEQs of the numbered frames that have not been fully sent (R345). -/
def unsentSeqs (k : Link) : List (BitVec 16) := (k.laneOut.flatMap fun e => e.2.seqs.map (·.1)) ++ (k.ready.filter isNumberedOut).map (·.seq)
/-- A frame may start: no SEQ that is not fully sent lies 256 or more below its own (R345). -/
def mayStart (k : Link) (f : OutFrame) : Bool :=
  !isNumberedOut f || (unsentSeqs k).all fun q => decide ((f.seq - q).toNat < 256) || decide (32768 ≤ (f.seq - q).toNat)
/-- The first frame that waits, where it may start; the link without it. -/
def takeReady (k : Link) : Option OutFrame × Link :=
  match k.ready with
  | f :: rest => if mayStart k f then (some f, { k with ready := rest }) else (none, k)
  | [] => (none, k)
/-- A lane starts a run: two frames, or one and a NULL frame (R338). -/
def startRun (l lane : Nat) (s : State) : State :=
  match takeReady (getLink s l) with
  | (none, _) => s
  | (some f, k) =>
    let (second, k') := takeReady { k with laneOut := tabMod {} k.laneOut lane fun o => { o with seqs := if isNumberedOut f then [(f.seq, 16)] else [] } }
    let (flip, s) := if second.isNone then injectTx l 0 s else (none, s)
    let bits : BitVec 8448 := (second.map lineBits).getD (nullBits s l flip) ++ lineBits f
    let more := second.toList.filterMap fun g => if isNumberedOut g then some (g.seq, 0) else none
    modLink s l fun _ => { k' with laneOut := tabMod {} k'.laneOut lane fun o => { o with bits, left := 33, seqs := o.seqs ++ more } }
/-- IDLE and LANE control blocks (R337). -/
def idleBlock : BitVec 257 := BitVec.ofNat 257 (2 * 1)
def laneBlock (role : Bool) (l lane : Nat) : BitVec 257 := BitVec.ofNat 257 (inBits 8 1 2 + inBits 13 9 lane + inBits 15 14 l + inBits 16 16 (if l = 2 then b2n role else 0))
/-- A lane that carries frames: not the one mapped out, and the spare only in its place (R336, R355). -/
def laneActive (k : Link) (l lane : Nat) : Bool := decide (lane ≠ k.txOut) && (decide (lane ≠ laneSpare l) || decide (k.txOut < laneSpare l))
/-- The next block of a lane (R338): the run under way goes on; between runs a LANE block when it is due, a new run, or IDLE. -/
def nextBlock (l lane : Nat) (s : State) : BitVec 257 × State :=
  let get (s : State) : LaneOut := tabGet {} (getLink s l).laneOut lane
  let put (s : State) (o : LaneOut) : State := modLink s l fun k => { k with laneOut := tabSet {} k.laneOut lane o }
  let goOn (s : State) : BitVec 257 × State :=
    let o := get s
    let left := o.left - 1
    (((o.bits >>> (256 * (33 - o.left))).setWidth 256 ++ 1#1), put s { o with left, seqs := o.seqs.filter fun e => decide (e.2 < left) })
  if 0 < (get s).left then goOn s
  else if (get s).laneIn = 0 then (laneBlock s.pwr.role l lane, put s { get s with laneIn := 65533 })
  else
    let s := if laneActive (getLink s l) l lane then startRun l lane s else s
    if 0 < (get s).left then goOn s else (idleBlock, s)
/-- Twenty blocks of every lane of a link, block by block over the lanes in their order: the lanes run in step (log entry 48). -/
def laneBlocks (l : Nat) : Nat → List (Nat × List (BitVec 257)) → State → List (Nat × List (BitVec 257)) × State
  | 0, acc, s => (acc, s)
  | n + 1, acc, s =>
    let (acc, s) := acc.foldl (fun (p : List (Nat × List (BitVec 257)) × State) e =>
      let (b, s) := nextBlock l e.1 p.2
      (p.1 ++ [(e.1, e.2 ++ [b])], s)) ([], s)
    laneBlocks l n acc s
/-- The information of a codeword from its 20 blocks, scrambled, and the codeword (R337). -/
def laneScramble (v : Nat) : Nat := Nat.xor v (scramblerBits 5140 Config.laneScramblerStart)
def laneCodeword (bs : List (BitVec 257)) : BitVec 5440 := BitVec.ofNat 5440 (laneCode.encode (laneScramble (packRecs 257 (bs.map (·.toNat)))))
/-- One codeword on every lane of a link. -/
def sendCodewords (l : Nat) (s : State) : State :=
  let (bs, s) := laneBlocks l 20 ((List.range (laneSpare l + 1)).map fun n => (n, [])) s
  let s := modLink s l fun k => { k with laneOut := (List.range (laneSpare l + 1)).foldl (fun t n => tabMod {} t n fun o => { o with laneIn := o.laneIn - 1 }) k.laneOut }
  each bs (fun e s => send (.codeword l e.1 (laneCodeword e.2)) s) s
/-- Number of the codeword that runs at a device time: 5,440 bits at 112 Gbit/s are 340/7 ns (R336, R337). -/
def codewordAt (t : Nat) : Nat := 7 * t / 340
/-- The codewords that begin between two device times, on every link that is up. -/
def laneRounds (t0 t1 : Nat) (s : State) : State :=
  each [0, 1, 2] (fun l s => if linkUp s l then each (List.range (codewordAt t1 - codewordAt t0)) (fun _ s => sendCodewords l s) s else s) s

-- Received lanes.

/-- The 20 blocks of a received codeword, none where it does not decode (R337, R340). -/
def codewordBlocks (w : BitVec 5440) : Option (List (BitVec 257)) :=
  (laneCode.decode w.toNat).map fun d => (List.range 20).map fun k => BitVec.ofNat 257 (laneScramble d.1 / 2 ^ (257 * k))
/-- What has come of a run: its data blocks, each with whether it was decoded, and the control blocks before it. -/
structure LaneIn where
  ctl : List (BitVec 256) := []
  run : List (BitVec 256 × Bool) := []
/-- A frame of a run: the bits from one on, and whether every codeword that carries it was decoded. -/
def runFrame (r : LaneIn) (ctl : List (BitVec 256)) (first : Nat) : LinkFrame :=
  let v := packRecs 256 (r.run.map fun b => b.1.toNat) / 2 ^ (4224 * first)
  { ctl, fecOk := ((r.run.drop (16 * first)).take 17).all (·.2), header := BitVec.ofNat 64 v, payload := BitVec.ofNat 4096 (v / 2 ^ 64), trailer := BitVec.ofNat 64 (v / 2 ^ 4160) }
/-- One received block of a lane, none from a codeword that does not decode: within a run it is a lost data block, between runs nothing (log
entry 48). A control block cuts a run short. -/
def laneTake (r : LaneIn) (b : Option (BitVec 257)) : LaneIn × List LinkFrame :=
  let data (d : BitVec 256) (ok : Bool) : LaneIn × List LinkFrame :=
    let r' := { r with run := r.run ++ [(d, ok)] }
    if r'.run.length = 33 then ({}, [runFrame r' r'.ctl 0, runFrame r' [] 1]) else (r', [])
  let upper (b : BitVec 257) : BitVec 256 := (b >>> 1).setWidth 256
  match b with
  | none => if r.run.isEmpty then (r, []) else data 0 false
  | some b => if b.getLsbD 0 then data (upper b) true else ({ ctl := r.ctl ++ [upper b] }, [])
/-- The frames of one received lane, from its codewords in order: each is FRAME_RECEIVE (R338, R340; log entry 48). -/
def laneFrames (ws : List (BitVec 5440)) : List LinkFrame :=
  (ws.foldl (fun (p : LaneIn × List LinkFrame) w =>
    let bs : List (Option (BitVec 257)) := match codewordBlocks w with
      | some bs => bs.map some
      | none => List.replicate 20 none
    bs.foldl (fun p b => let (r, fs) := laneTake p.1 b; (r, p.2 ++ fs)) p) ({}, [])).2

end Sys2Proof.Machine
end

