-- ==== Sys2Proof/Machine/Detect.lean ====
section
/-! DEFINITION. The numbers of the detector island (chapter 4): correction chain (R109), two-track equaliser and target (R114, R115), the
max-log-MAP detector with its windows (R116), soft values and sync search (R117–R120), and the numbers of the check (R130). -/

namespace Sys2Proof.Machine

/-- Signed field hi:lo of a channel set (Table 4.5). -/
def chanInt (i : Image) (n z set hi lo : Nat) : Int := signedOf (hi + 1 - lo) (chanBits i n z set hi lo)
def syncThr (i : Image) (n z set : Nat) : Nat := chanBits i n z set 111 103
def syncThr2 (i : Image) (n z set : Nat) : Nat := chanBits i n z set 102 94
def agcTarget (i : Image) (n z set : Nat) : Nat := chanBits i n z set 27 20

/-- Half rounded up (log entry 31). -/
def roundDiv (a b : Int) : Int := (2 * a + b) / (2 * b)
/-- The chain of R109 for one reader, saturated to 12 bits after each step; rounded half up at each fraction (log entry 31). The loops' o and g
are in 2^-16. -/
def correct (offset gain asym x o g : Int) : Int :=
  let v := satInt 12 (x - offset - roundDiv o 65536)
  let u := satInt 12 (roundDiv (v * gain) 256)
  let w := satInt 12 (u - roundDiv (asym * u * u) 32768)
  satInt 12 (roundDiv (g * w) 65536)

/-- Tap k of filter f (Table 4.5 EQ). -/
def eqTap (i : Image) (n z set f k : Nat) : Int := chanInt i n z set (256 + 12 * (16 * f + k) + 11) (256 + 12 * (16 * f + k))
/-- Equaliser output of both tracks from the 16 newest readers' z, the newest first (R114); none when the window holds an erased input. The sum
is rounded half up to 1/8 LSB (log entry 31). -/
def equalise (taps : Array Int) (window : List (Option (Int × Int))) : Option (Int × Int) :=
  if window.length = 16 ∧ window.all (·.isSome) then
    let out (t : Nat) : Int :=
      satInt 12 (((window.zipIdx.map fun w =>
        let v := w.1.getD (0, 0)
        taps.getD (16 * (2 * t) + w.2) 0 * v.1 + taps.getD (16 * (2 * t + 1) + w.2) 0 * v.2).sum + 512) / 1024)
    some (out 0, out 1)
  else none

/-- A cell for the detector: outputs of both tracks or an erasure, and the symbols when they are known (R123). -/
structure DetCell where
  y : Option (Int × Int) := none
  known : Option (Bool × Bool) := none

/-- State bits 0 to 3: a_0[n−1], a_0[n−2], a_1[n−1], a_1[n−2]. -/
def nextDet (st br : Nat) : Nat := br % 2 + 2 * (st % 2) + 4 * (br / 2) + 8 * (st / 4 % 2)
def pm (b : Bool) : Int := if b then 1 else -1
/-- Branch metric times 2 × SIGMA2 (R115); none when the branch is not a known symbol's. `g` holds G0–G2 and C0–C2. -/
def branch (g : List Int) (c : DetCell) (st br : Nat) : Option Int :=
  let a0 := br.testBit 0
  let a1 := br.testBit 1
  if c.known.any fun k => k.1 != a0 || k.2 != a1 then none
  else match c.y with
    | none => some 0
    | some y =>
      let t (k : Nat) : Int := g.getD k 0
      let e0 := y.1 - (t 0 * pm a0 + t 1 * pm (st.testBit 0) + t 2 * pm (st.testBit 1) + t 3 * pm a1 + t 4 * pm (st.testBit 2) + t 5 * pm (st.testBit 3))
      let e1 := y.2 - (t 0 * pm a1 + t 1 * pm (st.testBit 2) + t 2 * pm (st.testBit 3) + t 3 * pm a0 + t 4 * pm (st.testBit 0) + t 5 * pm (st.testBit 1))
      some (e0 * e0 + e1 * e1)
def minOpt (a b : Option Int) : Option Int := match a, b with
  | none, y => y
  | some x, none => some x
  | some x, some y => some (min x y)
def addOpt (a b : Option Int) : Option Int := match a, b with | some x, some y => some (x + y) | _, _ => none
/-- Forward metrics after a cell. -/
def forwardStep (g : List Int) (c : DetCell) (al : Array (Option Int)) : Array (Option Int) :=
  (List.range 16).foldl (fun out st => (List.range 4).foldl (fun (out : Array (Option Int)) br =>
    let v := addOpt (al.getD st none) (branch g c st br)
    out.modify (nextDet st br) (minOpt v)) out) (Array.replicate 16 none)
/-- Backward metrics before a cell. -/
def backwardStep (g : List Int) (c : DetCell) (be : Array (Option Int)) : Array (Option Int) :=
  Array.ofFn fun (st : Fin 16) => (List.range 4).foldl (fun v br => minOpt v (addOpt (branch g c st br) (be.getD (nextDet st br) none))) none
def freeStart : Array (Option Int) := Array.replicate 16 (some 0)
/-- Forward metrics before each cell. -/
def forwards (g : List Int) (cs : Array DetCell) : Array (Array (Option Int)) :=
  (cs.foldl (fun (acc : Array (Array (Option Int)) × Array (Option Int)) c => (acc.1.push acc.2, forwardStep g c acc.2)) (#[], freeStart)).1
/-- L times 2 × SIGMA2 at a cell (R116): least metric with a = −1 less the least with a = +1, for both tracks. A side with no path counts as
the largest magnitude. -/
def softCell (g : List Int) (al : Array (Option Int)) (c : DetCell) (be : Array (Option Int)) : Int × Int :=
  let best (t : Nat) (b : Bool) : Option Int := (List.range 16).foldl (fun v st => (List.range 4).foldl (fun v br =>
    if br.testBit t = b then minOpt v (addOpt (al.getD st none) (addOpt (branch g c st br) (be.getD (nextDet st br) none))) else v) v) none
  let l (t : Nat) : Int := match best t false, best t true with
    | some x, some y => x - y
    | none, some _ => 2 ^ 40
    | some _, none => -(2 ^ 40)
    | none, none => 0
  (l 0, l 1)
/-- Backward metrics over a window of 64 cells with its 32-cell warm-up: one array per cell of the window, in order. -/
def windowBack (g : List Int) (cs : Array DetCell) (w : Nat) : List (Array (Option Int)) :=
  let hi := min cs.size (64 * w + 96)
  let idx := (List.range (hi - 64 * w)).map fun k => hi - 1 - k
  (idx.foldl (fun (acc : List (Array (Option Int)) × Array (Option Int)) k =>
    (if k < 64 * w + 64 then acc.2 :: acc.1 else acc.1, backwardStep g (cs.getD k {}) acc.2)) ([], freeStart)).1
/-- Λ of both tracks for every cell (R116, R117). round() takes a half up (log entry 31). -/
def detect (g : List Int) (sigma2 scale : Nat) (cs : Array DetCell) : Array (Int × Int) :=
  let fs := forwards g cs
  let quant (l : Int) : Int := clampInt (-7) 7 (((2 * l * scale + 128 * sigma2) / (256 * sigma2)))
  ((List.range (ceilDiv cs.size 64)).flatMap fun w => (windowBack g cs w).zipIdx.map fun b =>
    let k := 64 * w + b.2
    let c := cs.getD k {}
    match c.y with
    | none => ((0, 0) : Int × Int)
    | some _ => let l := softCell g (fs.getD k freeStart) c b.1; (quant l.1, quant l.2)).toArray

-- Sync marks (R119, R120).
def syncMark (t : Nat) : Nat := if t = 0 then 0xB38E4F0D else 0x2D6B1C9F
def syncScore (lam : Array (Int × Int)) (p : Nat) : Int :=
  ((List.range 32).map fun i =>
    let v := lam.getD (p + i) (0, 0)
    (if (syncMark 0).testBit (31 - i) then v.1 else -v.1) + (if (syncMark 1).testBit (31 - i) then v.2 else -v.2)).sum
/-- Best position of a list with its score; a tie goes to the lower. -/
def bestPos (score : Nat → Int) (ps : List Nat) : Option (Nat × Int) :=
  ps.foldl (fun best p =>
    let v := score p
    match best with
    | none => some (p, v)
    | some b => if b.2 < v then some (p, v) else some b) none
/-- C1 and C2 with their scores, within ±`win` cells of the predicted sync start (R120). -/
def syncSearch (score : Nat → Int) (centre : Int) (win : Nat) : Option (Nat × Int) × Option (Nat × Int) :=
  let ps := (List.range (2 * win + 1)).filterMap fun k => if 0 ≤ centre - win + k then some (centre - win + k).toNat else none
  match bestPos score ps with
  | none => (none, none)
  | some c => (some c, bestPos score (ps.filter fun p => decide (p + 2 ≤ c.1) || decide (c.1 + 2 ≤ p)))

/-- Target taps G0–G2, C0–C2. -/
def targetTaps (i : Image) (n z set : Nat) : List Int :=
  [chanInt i n z set 255 246, chanInt i n z set 245 236, chanInt i n z set 235 226, chanInt i n z set 225 216, chanInt i n z set 215 206, chanInt i n z set 205 196]
def detectFrame (i : Image) (n z set : Nat) (cs : Array DetCell) : Array (Int × Int) :=
  detect (targetTaps i n z set) (chanBits i n z set 139 128) (chanBits i n z set 127 120) cs
/-- Soft words of a track's codeword that starts at cell p + 32 (R118, R120). -/
def softBits (lam : Array (Int × Int)) (p t : Nat) : BitVec 147456 :=
  BitVec.ofNat 147456 ((List.range 36864).foldr (fun k acc =>
    let v := lam.getD (p + 32 + k) (0, 0)
    twos 4 (if t = 0 then v.1 else v.2) + 16 * acc) 0)
/-- Erased cells of the codeword at p. -/
def erasedCells (cs : Array DetCell) (p : Nat) : Nat :=
  ((List.range 36864).filter fun k => (cs.getD (p + 32 + k) {}).y.isNone).length
/-- Symbols that a frame fixes around a codeword at p (R123, R125): preamble before the mark, the mark, the postamble after. -/
def knownAt (p m : Nat) : Option (Bool × Bool) :=
  if m < p then (if p ≤ m + 192 then some (decide ((m + 192 - p) % 4 < 2), decide ((m + 192 - p) % 4 < 2)) else none)
  else if m < p + 32 then some ((syncMark 0).testBit (31 - (m - p)), (syncMark 1).testBit (31 - (m - p)))
  else if m < p + 36896 then none
  else if m < p + 36928 then some (decide ((m - p - 36896) % 4 < 2), decide ((m - p - 36896) % 4 < 2))
  else none

-- The check's single-track numbers (R130).

/-- Score of one track's mark. -/
def syncScoreOne (lam : Array (Int × Int)) (t p : Nat) : Int :=
  ((List.range 32).map fun i =>
    let v := lam.getD (p + i) (0, 0)
    let x := if t = 0 then v.1 else v.2
    if (syncMark t).testBit (31 - i) then x else -x).sum
/-- Λ of a single track: the joint detector with the track on both sides and no cross taps (log entry 43). -/
def detectOne (g : List Int) (sigma2 scale t : Nat) (cs : Array DetCell) : Array (Int × Int) :=
  let one (y : Int × Int) : Int := if t = 0 then y.1 else y.2
  detect [g.getD 0 0, g.getD 1 0, g.getD 2 0, 0, 0, 0] sigma2 scale (cs.map fun c => { c with y := c.y.map fun y => (one y, one y) })
/-- Step of the 4-state detector with target G: metrics after a cell, and the state that each came from. State bits: a[n−1], a[n−2]. -/
def viterbiStep (g : List Int) (y : Option Int) (ms : Array Int) : Array Int × Array Nat :=
  let cost (st a : Nat) : Int := match y with
    | none => 0
    | some v =>
      let e := v - (g.getD 0 0 * pm (a = 1) + g.getD 1 0 * pm (st.testBit 0) + g.getD 2 0 * pm (st.testBit 1))
      e * e
  let from_ (nx : Nat) : Int × Nat :=
    let a := nx % 2
    let p := nx / 2
    let q := nx / 2 + 2
    let cp := ms.getD p 0 + cost p a
    let cq := ms.getD q 0 + cost q a
    if cq < cp then (cq, q) else (cp, p)
  let r := (List.range 4).map from_
  ((r.map (·.1)).toArray, (r.map (·.2)).toArray)
/-- Hard decisions of the 4-state single-track Viterbi detector. -/
def viterbi (g : List Int) (ys : Array (Option Int)) : Array Bool :=
  let r := ys.foldl (fun (acc : Array Int × List (Array Nat)) y =>
    let x := viterbiStep g y acc.1
    (x.1, x.2 :: acc.2)) (#[0, 0, 0, 0], [])
  let best := (List.range 4).foldl (fun b st => if r.1.getD st 0 < r.1.getD b 0 then st else b) 0
  ((r.2.foldl (fun (acc : Nat × List Bool) prev => (prev.getD acc.1 0, decide (acc.1 % 2 = 1) :: acc.2)) (best, [])).2).toArray

end Sys2Proof.Machine
end

