-- ==== Sys2Proof/Machine/Acquire.lean ====
section
/-! DEFINITION. A frame from samples to equalised cells: where a slot lies in time (R104, R106), the preamble search (R110), acquisition and
tracking (R111, R112), and the re-start after a wedge gap (R113). Times are in 2^-32 tick, P̂ in 2^-48 tick (log entry 43). -/

namespace Sys2Proof.Machine

-- Slots in cells and in time.

/-- Data cells of a wedge interval (R104). -/
def dataCells (f : ZoneFmt) : Nat := f.cpw - f.wg
/-- Data-cell position of the start of a slot (R104). -/
def slotStart (f : ZoneFmt) (slot : Nat) : Nat := slot * (37120 + f.sg)
/-- Cell of the revolution, from cell 0 of interval 0, of a data-cell position (R104, R106). -/
def cellOf (f : ZoneFmt) (x : Nat) : Nat := x / dataCells f * f.cpw + f.wg + x % dataCells f
/-- Difference of two wedge numbers, the shorter way round. -/
def wedgeDiff (a b : Nat) : Int := (((a : Int) - b + 480) % 960) - 480
/-- n_i: the stream's cell index of cell 0 of the running wedge interval (R127). -/
def streamCell (f : ZoneFmt) (wedge first : Nat) : Int := if f.cpw = 0 then 0 else wedgeDiff wedge (first / f.cpw % 960) * f.cpw - (first % f.cpw : Nat)
/-- Wedges of a head: number, reference time and interval in 2^-16 tick, newest first. -/
abbrev Refs := List (Nat × Int × Int)
/-- Reference time of a wedge in 2^-32 tick: as measured, else carried on from the newest at its interval. -/
def refTime (rs : Refs) (w : Nat) : Int :=
  65536 * (match rs.find? fun r => r.1 = w % 960 with
    | some r => r.2.1
    | none => match rs.head? with
      | some r => r.2.1 + wedgeDiff (w % 960) r.1 * r.2.2
      | none => 0)
/-- P_meas: the most recent wedge interval over the zone's cells (R111). -/
def cellPeriod (f : ZoneFmt) (rs : Refs) : Int := ((rs.head?.map (·.2.2)).getD 0) * 2 ^ 32 / (if f.cpw = 0 then 1 else f.cpw)
/-- A frame's place: zone format, wedges, first data-cell position, P_meas. -/
structure FrameRef where
  fmt : ZoneFmt
  refs : Refs
  x : Nat
  pm : Int
/-- Predicted time of the frame's cell k: cells before the first data cell lie in the gap before it (R104, R106). -/
def gridTime (r : FrameRef) (k : Int) : Int :=
  let d := dataCells r.fmt
  let w0 := r.x / d
  let c0 : Int := (r.fmt.wg + r.x % d : Nat)
  if c0 + k < r.fmt.cpw then refTime r.refs w0 + (c0 + k) * r.pm / 65536
  else
    let x := (r.x + k).toNat
    refTime r.refs (x / d) + ((r.fmt.wg + x % d : Nat) : Int) * r.pm / 65536
/-- Ends of the intervals that the frame may cross: the time of cell CPW, and the next wedge's reference time (R113). -/
def frameEdges (r : FrameRef) : List (Int × Int) :=
  (List.range 4).map fun k =>
    let w := r.x / dataCells r.fmt + k
    (refTime r.refs w + (r.fmt.cpw : Int) * r.pm / 65536, refTime r.refs (w + 1))

-- What a channel set fixes.

/-- Readers and the channel set of one run. A read-after-write check uses one reader and one track, and no cross taps (R130). -/
structure Chan where
  va : View
  vb : View
  useA : Bool := true
  useB : Bool := true
  tracks : List Nat := [0, 1]
  delayB : Int := 0
  offA : Int := 0
  offB : Int := 0
  gainA : Int := 0
  gainB : Int := 0
  asymA : Int := 0
  asymB : Int := 0
  taps : Array Int := #[]
  g : List Int := []
  agc : Int := 0
  kpAcq : Nat := 0
  kiAcq : Nat := 0
  kpTrk : Nat := 0
  kiTrk : Nat := 0
/-- A channel set for reading (Table 4.5). -/
def chanOf (i : Image) (n z set : Nat) (va vb : View) : Chan :=
  { va, vb, delayB := chanInt i n z set 119 112, offA := chanInt i n z set 171 164, offB := chanInt i n z set 163 156,
    gainA := chanBits i n z set 195 184, gainB := chanBits i n z set 183 172, asymA := chanInt i n z set 155 148, asymB := chanInt i n z set 147 140,
    taps := ((List.range 64).map fun m => eqTap i n z set (m / 16) (m % 16)).toArray, g := targetTaps i n z set, agc := agcTarget i n z set,
    kpAcq := chanBits i n z set 93 90, kiAcq := chanBits i n z set 89 86, kpTrk := chanBits i n z set 85 82, kiTrk := chanBits i n z set 81 78 }
/-- Set 0 for a check of track t on one reader (R129, R130). -/
def checkChan (i : Image) (n z t : Nat) (readerB : Bool) (va vb : View) : Chan :=
  let c := chanOf i n z 0 va vb
  { c with
    useA := !readerB, useB := readerB, tracks := [t], g := [c.g.getD 0 0, c.g.getD 1 0, c.g.getD 2 0, 0, 0, 0],
    taps := c.taps.mapIdx fun m v => if m / 16 = 2 * t + b2n readerB then v else 0 }
/-- z of both readers at a cell time (R108, R109); none where one that is used is erased. A reader that is not used counts as zero. -/
def readZ (c : Chan) (t p g oA oB : Int) : Option (Int × Int) :=
  let a := if c.useA then (interpolate c.va t).map fun x => correct c.offA c.gainA c.asymA x oA g else some 0
  let b := if c.useB then (interpolate c.vb (t + c.delayB * p / (64 * 65536))).map fun x => correct c.offB c.gainB c.asymB x oB g else some 0
  match a, b with
  | some x, some y => some (x, y)
  | _, _ => none

-- Preamble (R110, Table 4.2).

/-- The detecting block: its first cell by the frame, and the quarter-rate term of the sum of both readers' z. -/
def preambleBlock (c : Chan) (r : FrameRef) (win : Nat) : Option (Int × (Int × Int)) :=
  let zs := ((List.range (win + 288)).map fun k =>
    (readZ c (gridTime r ((k : Int) - win)) r.pm 65536 0 0).map fun z => z.1 + z.2).toArray
  let blocks := (List.range ((win + 288 - 32) / 8 + 1)).map fun (j : Nat) => (8 * (j : Int) - win, quarterTerm (zs.extract (8 * j) (8 * j + 32)).toList)
  blocks.find? fun b => decide (64 * c.agc * c.agc ≤ power2 b.2 ∧ b.2 ≠ (0, 0))

-- Acquisition and tracking (R111–R113).

/-- The timing loop with the in-sector loops, the last inputs of the equaliser and the survivors of the tentative decisions. -/
structure Loop where
  t : Int := 0
  p : Int := 0
  g : Int := 65536
  oA : Int := 0
  oB : Int := 0
  edges : List (Int × Int) := []
  /-- Cells left of the stage after a wedge gap (R113). -/
  relock : Nat := 0
  z : List (Option (Int × Int)) := []
  y : Array (Option (Int × Int)) := #[]
  /-- Path metric and the last 32 symbol pairs of each state. -/
  paths : Array (Int × Nat) := Array.replicate 16 (0, 0)
  /-- Tentative decisions by cell. -/
  dec : Array (Bool × Bool) := #[]
  /-- |P̂ / P_meas − 1| has exceeded 0.1% (R112). -/
  lost : Bool := false
/-- Survivors after a cell. -/
def survive (g : List Int) (y : Option (Int × Int)) (ps : Array (Int × Nat)) : Array (Int × Nat) :=
  let out := (List.range 16).foldl (fun (out : Array (Option (Int × Nat))) st => (List.range 4).foldl (fun (out : Array (Option (Int × Nat))) br =>
    let p := ps.getD st (0, 0)
    let v := p.1 + (branch g { y } st br).getD 0
    out.modify (nextDet st br) fun o => match o with
      | some q => if v < q.1 then some (v, (4 * p.2 + br) % 2 ^ 64) else some q
      | none => some (v, (4 * p.2 + br) % 2 ^ 64)) out) (Array.replicate 16 none)
  out.map fun o => o.getD (0, 0)
/-- The best survivor's symbols 24 cells back. -/
def tentative (ps : Array (Int × Nat)) : Bool × Bool :=
  let b := ps.foldl (fun (b : Int × Nat) p => if p.1 < b.1 then p else b) (ps.getD 0 (0, 0))
  ((b.2 / 4 ^ 24).testBit 0, (b.2 / 4 ^ 24).testBit 1)
/-- ŷ of track t at a cell from known symbols (R115). -/
def targetAt (g : List Int) (sym : Int → Bool × Bool) (t : Nat) (n : Int) : Int :=
  let own (k : Int) : Int := pm (if t = 0 then (sym k).1 else (sym k).2)
  let other (k : Int) : Int := pm (if t = 0 then (sym k).2 else (sym k).1)
  g.getD 0 0 * own n + g.getD 1 0 * own (n - 1) + g.getD 2 0 * own (n - 2) + g.getD 3 0 * other n + g.getD 4 0 * other (n - 1) + g.getD 5 0 * other (n - 2)
def signOf (x : Int) : Int := if 0 < x then 1 else if x < 0 then -1 else 0
/-- One update of the loops from the error of cell j (R112, Table 4.2). -/
def loopUpdate (c : Chan) (pMeas : Int) (kp ki : Nat) (stepG stepO : Int) (sym : Int → Bool × Bool) (j : Nat) (l : Loop) : Loop :=
  match (l.y[j]?).join, (l.y[j - 1]?).join with
  | some y1, some y0 =>
    let of (y : Int × Int) (t : Nat) : Int := if t = 0 then y.1 else y.2
    let h1 (t : Nat) : Int := targetAt c.g sym t j
    let h0 (t : Nat) : Int := targetAt c.g sym t ((j : Int) - 1)
    let e64 := (c.tracks.map fun t => of y1 t * h0 t - of y0 t * h1 t).sum
    let errG := (c.tracks.map fun t => (h1 t - of y1 t) * h1 t).sum
    let dc (r : Nat) : Int := (c.tracks.map fun t => (h1 t - of y1 t) * ((List.range 16).map fun k => c.taps.getD (16 * (2 * t + r) + k) 0).sum).sum
    let p := l.p + l.p * e64 / 2 ^ (ki + 6)
    { l with
      t := l.t + l.p * e64 / 2 ^ (kp + 6) / 65536, p, g := l.g + stepG * signOf errG, oA := l.oA - stepO * signOf (dc 0), oB := l.oB - stepO * signOf (dc 1),
      lost := l.lost || decide (pMeas < 1000 * (p - pMeas).natAbs) }
  | _, _ => l
/-- One cell n: z, the equaliser output of cell n − 7, the survivors, the loops, and the time of cell n + 1. `fixed` gives the symbols that are
known beforehand. -/
def loopStep (c : Chan) (f : ZoneFmt) (pMeas : Int) (fixed : Option (Int → Bool × Bool)) (l : Loop) (n : Nat) : Loop :=
  let p0 := l.p
  let l : Loop := { l with z := (readZ c l.t l.p l.g l.oA l.oB :: l.z).take 16 }
  let l : Loop := if n < 7 then l else
    let y := equalise c.taps l.z
    let paths := survive c.g y l.paths
    { l with y := l.y.push y, paths, dec := if 24 + 7 ≤ n then l.dec.push (tentative paths) else l.dec }
  let pattern (k : Int) : Bool × Bool := (decide (k % 4 < 2), decide (k % 4 < 2))
  let decided (k : Int) : Bool × Bool := if k < 0 then pattern k else l.dec.getD k.toNat (false, false)
  let acq := decide (n < 80) || decide (0 < l.relock)
  let kp := if acq then c.kpAcq else c.kpTrk
  let ki := if acq then c.kiAcq else c.kiTrk
  let stepG : Int := if acq then 1024 else 16
  let stepO : Int := if acq then 0 else 16
  let l : Loop := if n < 32 then l
    else match fixed with
      | some sym => loopUpdate c pMeas kp ki stepG stepO sym (n - 7) l
      | none =>
        if n < 80 then loopUpdate c pMeas kp ki stepG stepO pattern (n - 7) l
        else loopUpdate c pMeas kp ki stepG stepO decided (n - 31) l
  let next := l.t + p0 / 65536
  let l : Loop := { l with relock := l.relock - 1 }
  match l.edges with
  | (end_, tw) :: rest =>
    if end_ - p0 / 131072 ≤ next then { l with t := tw + (f.wg : Int) * l.p / 65536, relock := 32, edges := rest } else { l with t := next }
  | [] => { l with t := next }

/-- A frame that has been acquired: equaliser outputs by cell of the detection, the predicted sync start among them, the frame's cell at which
cell 0 lies, and how the loops stood at the frame's end. -/
structure Acquired where
  ys : Array (Option (Int × Int))
  sync : Int
  cell0 : Int
  loop : Loop
/-- Nearest integer to k/64, a half upward. -/
def round64 (k : Int) : Int := (k + 32) / 64
/-- Run a frame from its preamble on (R110–R114): none when no block is detected. `written` gives the symbols of the frame's cells when the part
knows them (R130); the detection's cell 0 is then the predicted frame's cell, moved by the preamble's lag to a whole cell (log entry 43). The loops run
past the frame's end as far as a late sync mark needs. -/
def acquire (c : Chan) (r : FrameRef) (win : Nat) (written : Option (Int → Bool × Bool)) : Option Acquired :=
  (preambleBlock c r win).map fun b =>
    let lag := patternLag b.2
    let cell0 := b.1 + round64 lag
    let t0 := gridTime r b.1 + lag * r.pm / (64 * 65536)
    let g0 := clampInt 32768 131072 (16 * 65536 * c.agc / max 1 (Nat.sqrt (power2 b.2).toNat : Int))
    let before := (List.range 8).map fun k => readZ c (t0 - (k + 1) * r.pm / 65536) r.pm g0 0 0
    let edges := (frameEdges r).filter fun e => decide (t0 < e.1)
    let cells := (192 - cell0 + win + 36928 + 8).toNat
    let fixed := written.map fun w => fun (k : Int) => w (k + cell0)
    let step := loopStep c r.fmt r.pm fixed
    let end_ := (37120 - cell0).toNat
    let atEnd := (List.range end_).foldl step { t := t0, p := r.pm, g := g0, edges, z := before }
    let l := ((List.range (cells - end_)).map (end_ + ·)).foldl step atEnd
    { ys := l.y, sync := 192 - cell0, cell0, loop := { l with p := atEnd.p, lost := atEnd.lost } }
/-- P̂ / P_meas − 1 in 2^-30 (Table 4.11). -/
def freqOffset (r : FrameRef) (l : Loop) : Int := if r.pm = 0 then 0 else roundDiv ((l.p - r.pm) * 2 ^ 30) r.pm

-- The sample buffer (R122).

/-- Words of a stream for a slot pair: from 96 cells before the frame to 96 after it, less the wedge gaps. -/
def bufferWords (v : View) (r : FrameRef) (words : List (Nat × Word)) : List (Nat × Word) :=
  let d := dataCells r.fmt
  let pieces := (List.range 5).filterMap fun k =>
    let lo : Int := if k = 0 then -96 else ((r.x / d + k) * d : Nat) - (r.x : Int)
    let hi : Int := min (37120 + 96) (((r.x / d + k + 1) * d : Nat) - (r.x : Int))
    if lo < hi then match samplePos v (gridTime r lo), samplePos v (gridTime r lo + (hi - lo) * r.pm / 65536) with
      | some p, some q => some (p / 640 - 1, q / 640 + 1)
      | _, _ => none
    else none
  words.filter fun w => pieces.any fun q => decide (q.1 ≤ (w.1 : Int)) && decide ((w.1 : Int) ≤ q.2)

end Sys2Proof.Machine
end

