-- ==== Sys2Proof/Machine/Stops.lean ====
section
/-! DEFINITION. What every unit's fault leads to, written once: the fault collector (R513–R516), Fault-hold and its causes (R518–R521),
the fail-stop sequence and Stopped (R522, R523, R398), entry to Hold-up (R7, R203, R330, R463, R491, R603) and a failed head
(R37, R472). -/

namespace Sys2Proof.Machine

-- Fault collector.

/-- A cause of Table 17.2 that the first-error record captures (R515). -/
def captured (r : Report) : Bool := decide (2 ≤ r.cause.toNat) && decide (r.cause.toNat ≤ 8)
def countIn (c : FaultCounts) (cause : Nat) : FaultCounts :=
  if cause = 1 then { c with corrected := satInc 24 c.corrected }
  else if cause = 2 || cause = 4 || cause = 6 then { c with uncorrected := satInc 16 c.uncorrected }
  else if cause = 3 then { c with bus := satInc 12 c.bus }
  else { c with other := satInc 12 c.other }
/-- Count a report (R514). -/
def countReport (r : Report) (s : State) : State :=
  if r.injected then { s with flt := { s.flt with inj := countIn s.flt.inj r.cause.toNat } }
  else { s with flt := { s.flt with real := countIn s.flt.real r.cause.toNat } }

/-- The order in which the collector chooses among reports of one cycle (R515). -/
def ranksBefore (a b : Report) : Bool :=
  if a.injected != b.injected then !a.injected
  else if a.hold != b.hold then a.hold
  else decide (a.master.toNat < b.master.toNat)
def chosen (rs : List Report) : Option Report :=
  rs.foldl (fun best r => match best with | none => some r | some b => if ranksBefore r b then some r else some b) none
def firstOf (s : State) (r : Report) (replaced : Bool) (more : Nat) : FirstError :=
  { valid := true, injected := r.injected, overwroteInj := replaced, master := r.master, addr := r.addr, access := r.access,
    cause := r.cause, mem := r.mem, event := r.event, syndrome := r.syndrome, more, time := devTime s }
/-- The first-error record takes the reports of one cycle (R515, R516). -/
def captureFirst (rs : List Report) (s : State) : State :=
  let cs := rs.filter captured
  match chosen cs with
  | none => s
  | some r =>
    let f := s.flt.first
    let others := cs.length - 1
    if !f.valid then
      let s := { s with flt := { s.flt with first := firstOf s r false (satAdd 16 0 others) } }
      if s.gov.src = 3 then traceFire s else s
    else if f.injected && !r.injected then
      { s with flt := { s.flt with first := firstOf s r true (satAdd 16 f.more others) } }
    else { s with flt := { s.flt with first := { f with more := satAdd 16 f.more cs.length } } }

def visitKey (a : Nat) (v : Visit) : Nat := (64 * a + v.zone) * 3 + v.kind
/-- A visit ends and its data is discarded (R435), the head time that it has used counting in the fantail's share (R29): it is scheduled again, but after three times in a row it is skipped until its next period. -/
def cutVisit (a : Nat) (s : State) : State :=
  match (tabGet none s.slu.ops a).bind fun o => o.visit.map fun v => (o, v) with
  | none => s
  | some (o, v) =>
    let s := freeInner (fun e => e.1 = a) s
    let s := { s with slu := { s.slu with ops := tabSet none s.slu.ops a none, decideAt := tabSet 0 s.slu.decideAt a (now s), shares := s.slu.shares ++ [(a, 2, now s, since s o.at_)] } }
    let s := each o.heads (fun h s => restHead a h (decide (v.kind = 1)) s) s
    let n := tabGet 0 s.fan.resched (visitKey a v)
    if n < 3 then { s with fan := { s.fan with resched := tabSet 0 s.fan.resched (visitKey a v) (n + 1) } }
    else post 0xB6 mFantail [] { s with fan := { s.fan with
      resched := tabSet 0 s.fan.resched (visitKey a v) 0, visitAt := tabSet 0 s.fan.visitAt (visitKey a v) (now s) } }
/-- Sine injections and fantail visits end when the part leaves Ready or enters one of Table 14.2's states (R235, R435). -/
def endVisits (s : State) : State :=
  let s := each (List.range 4) (fun g s => if (getSine s g).on then modSine s g (fun x => { x with on := false }) else s) s
  let s := each (List.range 8) cutVisit s
  { s with slu := { s.slu with work := s.slu.work.filter fun w => w.kind != .fantail } }

/-- A cause that Fault-hold waits for (R519). -/
def openCause (event : BitVec 8) (unit : Nat) (injected : Bool) (s : State) : State :=
  let c : OpenCause := { event, unit, injected }
  if s.flt.open_.contains c then s else { s with flt := { s.flt with open_ := s.flt.open_ ++ [c] } }
def closeCause (event : BitVec 8) (unit : Nat) (s : State) : State :=
  { s with flt := { s.flt with open_ := s.flt.open_.filter fun c => !(c.event == event && c.unit == unit) } }

/-- States from which a report with HOLD = 1 leads to Fault-hold (R518). -/
def holdsFrom : DevState → Bool | .ready => true | .loading => true | .takeover => true | _ => false
/-- Entry to Fault-hold, or another cause in it (R518, R519). -/
def enterHold (event : BitVec 8) (injected : Bool) (s : State) : State :=
  if holdsFrom s.dev then
    let s := endVisits { s with
      dev := .faultHold,
      flt := { s.flt with from_ := s.dev, quietSince := some (now s), awaiting := false, holdCause := event, realSeen := !injected } }
    post 0xA1 mCollector [b1 event.toNat] s
  else if s.dev = .faultHold then
    { s with flt := { s.flt with
        quietSince := some (now s), awaiting := false, holdCause := event, realSeen := s.flt.realSeen || !injected } }
  else s

/-- The reports of one cycle (R513–R518). -/
def reportAll (rs : List Report) (s : State) : State :=
  let s := each rs (fun r s => mqNote 20 (countReport r s)) s
  let s := captureFirst rs s
  each (rs.filter (·.hold)) (fun r s => enterHold r.event r.injected s) s
def report (r : Report) (s : State) : State := reportAll [r] s

/-- A condition of a unit chapter's table: its event, then its report. -/
def condition (code master : BitVec 8) (cause : Nat) (hold : Bool) (fs : List PayField) (s : State) : State :=
  report { master, cause := BitVec.ofNat 4 cause, event := code, hold } (post code master fs s)

-- Stopping.

/-- A spindle condition: its event, and its report under 0x52 (R271). -/
def spnReport (code : BitVec 8) (fs : List PayField) (hold : Bool) (s : State) : State :=
  report { master := mMotion, cause := 7, event := code, hold } (spnEvent code fs s)
/-- Generation has ended for this Hold-up (R269): gates off, event 0x2E. -/
def generatorEnd (s : State) : State :=
  let s := startCoast s
  spnReport 0x2E [] false { s with spc := { s.spc with generatorEnded := true } }
/-- Outputs of the power stage off and ACTIVE_OUT deasserted (R240, R452): a spindle that turned coasts. A RETRACT that waits leaves first (R202,
R203). -/
def dropActive (s : State) : State :=
  let s := if s.ptn.activeOut then each ((armList s).filter fun a => (getArm s a).due.contains 2) vcmFrame s else s
  let s := if s.spn.mode = 0 then inverterOff s else startCoast s
  let s := if s.spn.chopOn then send (.chopper false) { s with spn := { s.spn with chopOn := false } } else s
  { s with ptn := { s.ptn with activeOut := false } }

/-- The state Stopped (R8): nothing admitted, outputs off, heartbeat stopped. -/
def enterStopped (cause : BitVec 8) (s : State) : State :=
  let s := each (List.range 8) armDark (endVisits (dropActive s))
  { s with
    dev := .stopped, start := { s.start with parkStep := 0 }, spc := { s.spc with stopping := false }, hop := { s.hop with closed := true, stopCause := cause }, ptn := { s.ptn with hbOn := false },
    flt := { s.flt with stopStep := 0, quietSince := none, awaiting := false },
    spn := { s.spn with mode := if s.spn.mode = 0 then 0 else 9 } }

/-- The exception of R398: a native WRITE all landed, confirmed where R23 requires it, and not held back under R456. -/
def stopsGood (s : State) (c : Cmd) : Bool :=
  c.cap.opcode = 0x02 && !compatCmd s c && allLanded c && !(heldBack s c) &&
    (!(ptnEn s.img && s.ptn.synced && c.needMirror) || (capLbas c).all (blockConfirmed s c))
/-- HELDBACK on the landed entries of a WRITE that R456 holds back (R398). -/
def holdBackEntries (c : Cmd) (s : State) : State :=
  each (s.mpd.ledger.filter fun fe => landedEntry fe.2 && wrote c fe.2) (fun fe s => setEntry s fe.1 { getEntry s fe.1 with heldBack := true }) s
/-- Every command not yet completed completes (R398). -/
def completeAll (cause : BitVec 8) (s : State) : State :=
  let s := { s with hop := { s.hop with closed := true, stopCause := cause } }
  each (s.hop.cmds.map (·.arrival)) (fun arr s =>
    match cmdOf s arr with
    | none => s
    | some c =>
      if c.phase = .issued then s
      else if stopsGood s c then complete arr 0 0 (ackEntries c s)
      else complete arr 0x50 cause.toNat (if c.cap.opcode = 0x02 && !compatCmd s c && heldBack s c then holdBackEntries c s else s)) s

/-- Step 4 of Table 17.5: RELEASE on the arm links still owned, event 0xAF with the cause, Stopped (R523). -/
def finalStop (cause : BitVec 8) (s : State) : State :=
  enterStopped cause (post 0xAF mCollector [b1 cause.toNat] (releaseArms s))

/-- All channels but 62 stop at their next element boundary (R330). -/
def stopChannels (s : State) : State :=
  each (List.range 64) (fun n s => if n ≠ 62 && (getTre s n).state = 1 then stopChannel n s else s) s

/-- An arm is off the ramp or on its way. -/
def armOut (s : State) (a : Nat) : Bool := decide (1 ≤ (getArm s a).state) && decide ((getArm s a).state ≤ 6)
def ownsArms (s : State) : Bool := (armList s).any fun a => (getAlk s a).owner = 1
/-- Another part has taken an arm (R92). -/
def lostArms (s : State) : Bool := (armList s).any fun a => (getAlk s a).muted
/-- Go on with the fail-stop sequence without a partner when the running step has ended (Table 17.5); a part that no longer owns the arms omits
the unload, and one that has lost them skips step 3 (R523). After a lost spindle the gates go off in its place (R272). -/
def advanceStop (s : State) : State :=
  let s :=
    if s.flt.stopStep = 2 && !(ownsArms s && (armList s).any (armOut s)) && !s.hold.owed && s.hold.state ≠ 2 then
      let s := { s with flt := { s.flt with stopStep := 3 } }
      if s.spc.lost then startCoast s else if mayDrive s && !(lostArms s) then spindleStop s else s
    else s
  if s.flt.stopStep = 3 && (s.spn.mode = 0 || !s.ptn.activeOut || lostArms s || s.spc.lost) then finalStop s.flt.stopCause s else s

/-- Blocks that Table 9.5 dropped while their row went on are lost when the row cannot commit any more. -/
def dropGone (s : State) : State :=
  let s := each s.mpd.gone (fun f s =>
    let e := getEntry s f
    let s := setEntry s f {}
    if e.acked && !e.compat then raiseDeferred e.portB 1 e.lba.toNat e.vseq.toNat e.tag (post 0xAD mMillpond [b8 e.lba.toNat] s) else s) s
  { s with mpd := { s.mpd with gone := [] } }

/-- The stop sequence for a cause, by the state it is entered from (Table 17.5, R523). `solo` is a head-stack sensor at SHUT, for which
the column without a partner runs and FAILSTOP is sent all the same (R412, R523; log entry 14). -/
def stopSequence (solo : Bool) (cause : BitVec 8) (s : State) : State :=
  if s.flt.stopStep ≠ 0 then s
  else match s.dev with
    | .unconfigured | .configuring | .parked | .spinningUp | .standby => finalStop cause (stopChannels (completeAll cause s))
    | .holdUp | .stopped => s
    | _ =>
      let s := stopChannels (completeAll cause (endVisits { s with start := { s.start with parkStep := 0 } }))
      let s := { s with flt := { s.flt with stopCause := cause } }
      if s.ptn.synced && s.ptn.role = 1 && !solo then
        let s := post 0x85 mPartner [] (ptnSend (.failstop cause) s)
        finalStop cause (dropActive { s with ptn := { s.ptn with hbOn := false } })
      else
        let s := if solo && linkUp s 2 then post 0x85 mPartner [] (ptnSend (.failstop cause) s) else s
        let s := if ownsArms s then unloadAll s else s
        let fromLoading := s.dev == .loading || (s.dev == .faultHold && s.flt.from_ == .loading)
        let s := dropGone { s with hold := { s.hold with owed := !fromLoading, mirrorCopy := s.ptn.role = 2 || s.dev == .takeover } }
        advanceStop { s with flt := { s.flt with stopStep := 2 } }

/-- Fail-stop, or another way into Stopped (R522, R523). An injected cause leads to Fault-hold instead unless ALLOW_STOP = 1 (R521). -/
def failStopInj (injected : Bool) (cause : BitVec 8) (s : State) : State :=
  if injected && !s.diag.allowStop then enterHold cause true s
  else stopSequence false cause { s with flt := { s.flt with failstop := s.flt.failstop || (s.dev != .stopped && s.dev != .holdUp) } }
def failStop (cause : BitVec 8) (s : State) : State := failStopInj false cause s

-- Hold-up.

/-- Case of R267 and R270 for the spindle when Hold-up begins; a measurement that runs before the first catch since a takeover completes, for no
speed is known yet (log entry 45). The driver of ACTIVE_OUT alone runs a generator (R35). -/
def holdUpSpindle (s : State) : State :=
  if !s.ptn.activeOut then s
  else
    let m := s.spn.mode
    let fast := decide ((genMin s.img : Int) ≤ rpmOf s) || (s.spc.unmeasured && (m = 1 || m = 2))
    if m = 5 || m = 6 then if mayDrive s then startGenerator s else generatorEnd s
    else if m = 2 then if fast then s else generatorEnd s
    else if m = 7 || m = 8 then if fast && mayDrive s then startGenerator s else generatorEnd s
    else if m = 1 then if fast then (if s.spc.offsetsDone then startCatch s else s) else generatorEnd s
    else if m = 9 then if fast then (if s.spc.offsetsDone then startCatch s else startOffsets s) else generatorEnd s
    else generatorEnd s

/-- The flash controller at Hold-up (R491): erases are abandoned with their flag set, programs go on, refresh stops. -/
def quiesceFlash (s : State) : State :=
  let s := { s with hold := { s.hold with flashStopped := true } }
  each (List.range 8) (fun b s => if (getBank s b).op = 3 then
    post 0x9B mFlash [] (modBank (cutBank b s) b fun k => { k with op := 0, suspended := true, who := none }) else s) s

/-- Retraction in Hold-up (R203, end of chapter 3): RETRACT, WGATE, lasers and heaters zero and MODE 0 on every arm. -/
def holdUpRetract (s : State) : State :=
  each (armList s) (fun a s =>
    let s := sendWgate a 0xFF s
    let s := each (List.range s.img.heads) (fun h s => modHead (sendMode a h 0 0 (coolHead (8 * a + h) (gateIsland (8 * a + h) s)))
      (8 * a + h) fun d => { d with writing := false, gated := true }) s
    retractArm a s) s

/-- Entry to Hold-up (R7): `source` is 1 VIN12, 2 PWR_FAIL_N (Table 15.14). From Loading no dump is written and the part stops (R603), and so from a
Fault-hold entered from Loading (log entry 56). A dump begun in Takeover is the standby's mirror copy (R35). -/
def enterHoldUp (source : Nat) (s : State) : State :=
  let loading := s.dev == .loading || (s.dev == .faultHold && s.flt.from_ == .loading)
  let s := endVisits { s with
    dev := .holdUp, start := { s.start with parkStep := 0 }, spc := { s.spc with stopping := false },
    hold := { s.hold with
      source, detectedAt := devTime s, fromLoading := loading, owed := !loading, returned := false, mirrorCopy := s.ptn.role = 2 || s.dev == .takeover },
    flt := { s.flt with stopStep := 0, quietSince := none, awaiting := false } }
  let s := post 0x10 mPower [b1 source] s
  let s := dropGone (completeAll 0x10 s)
  let s := holdUpSpindle s
  let s := alkClose (holdUpRetract (alkDrop s))
  let s := stopChannels (quiesceFlash s)
  let s := freeInner (fun _ => true) { s with
    slu := { s.slu with ops := [], chosen := [], line := [], work := [] }, tre := { s.tre with placements := [], sent := [] } }
  if loading then enterStopped 0x10 (post 0x1A mPower [] s) else s

/-- States in which R463 leads to Hold-up. -/
def holdUpFrom : DevState → Bool
  | .spinningUp | .loading | .ready | .faultHold | .standby | .takeover => true
  | _ => false
/-- Input power has failed (R463). -/
def powerFailed (source : Nat) (s : State) : State :=
  if holdUpFrom s.dev then enterHoldUp source s
  else match s.dev with
    | .unconfigured | .configuring | .parked =>
      if s.hold.flashStopped then { s with hold := { s.hold with source := if s.hold.source = 0 || s.hold.source = source then source else 3 } }
      else post 0x10 mPower [b1 source] { s with hold := { s.hold with source, flashStopped := true } }
    | _ => { s with hold := { s.hold with source := if s.hold.source = 0 || s.hold.source = source then source else 3 } }

-- Failed heads.

/-- A free rebuild record takes the failed head (R62). -/
def freeRebuild (a h : Nat) (l : Layout) : Layout :=
  { l with rebuilds := l.rebuilds.setIfInBounds (if (l.rebuilds[0]).state = 0 then 0 else 1) { state := 1, arm := a, head := h } }
/-- The rebuild of a failed head starts (R472 step 4). -/
def startRebuild (a h : Nat) (s : State) : State := post 0x63 mCore [] { s with layout := freeRebuild a h s.layout }

/-- A head is declared failed (R472); one beyond HEAD_FAIL_MAX, or a second on an arm whose first is not rebuilt, stops the part (R37). -/
def declareFailed (n : Nat) (s : State) : State :=
  if (getHead s n).failed then s
  else
    let a := n / 8
    let h := n % 8
    let beyond := decide (s.img.headFailMax ≤ s.layout.failedHeads.length)
    let twice := s.layout.rebuilds.toList.any fun r => r.arm = a && (r.state = 1 || r.state = 3)
    let s := sendUa a h 0 true 0 (sendMode a h 0 0 (coolHead n (stopWriter n s)))
    let s := disableCtx (72 + n) (disableCtx (8 + n) s)
    let s := modIsl s (getHead s n).island fun i => if i.assigned && 8 * i.arm + i.head == n then { i with assigned := false, state := if i.failed then 5 else 0 } else i
    let s := modHead s n fun d => { d with failed := true, state := 0, onRead := false, onWrite := false, suspended := false }
    let s := { s with
      layout := { s.layout with failedHeads := s.layout.failedHeads ++ [(a, h)] },
      bol := { s.bol with suspended := s.bol.suspended.filter (· ≠ (a, h)) } }
    let s := mirror (.layout (.failedHead (Fin.ofNat 8 a) (Fin.ofNat 8 h))) s
    let s := post 0x62 mCore [] s
    if beyond || twice then failStop 0x62 s else startRebuild a h s

end Sys2Proof.Machine
end

