-- ==== Sys2Proof/Machine/OpsRows.lean ====
section
/-! DEFINITION. Shared operations on rows: delivering a decoded block to its readers (R278–R280, R298–R301, R378), the retry ladder and
reconstruction (R158–R165), row builds and their sectors (R50, R54, R61, R66, R67, R131). -/

namespace Sys2Proof.Machine

-- Work for the sluice.

def opOf (s : State) (a : Nat) : Option ArmOp := tabGet none s.slu.ops a
/-- Withdraw work; the placements of the rows whose reads go with it are freed (R325). -/
def dropWork (f : Work → Bool) (s : State) : State :=
  let gone := s.slu.work.filter fun w => f w && (w.kind == .rowRead || w.kind == .partialRead)
  { s with
    slu := { s.slu with work := s.slu.work.filter fun w => !f w },
    tre := { s.tre with placements := s.tre.placements.filter fun p => !(gone.any fun w => w.lArm = p.1 && w.row = p.2.1) } }

-- Millrace.

/-- Lowest free slot of the host pool. -/
def freeSlot (s : State) : Option Nat := (List.range 20480).find? fun k => !(getSlot s k).used
def slotsOf (s : State) (arr : Nat) : Nat := (s.mrc.slots.filter fun e => e.2.used && e.2.arrival = arr && decide (e.1 < 20480)).length
/-- Room for `n` more slots of a command (R279). -/
def slotRoom (s : State) (arr n : Nat) : Bool :=
  decide ((s.mrc.slots.filter fun e => e.2.used && decide (e.1 < 20480)).length + n ≤ 20480) &&
    decide (slotsOf s arr + n ≤ mrcCmdMax s.img)
/-- A slot of the host pool has been reserved for a block of a command. -/
def slotHeld (s : State) (arr pos : Nat) : Bool := s.mrc.slots.any fun e => e.2.used && e.2.arrival = arr && e.2.pos = pos && decide (e.1 < 20480)
def reserveSlot (arr pos lba : Nat) (s : State) : State :=
  if slotHeld s arr pos then s
  else match freeSlot s with
    | some k => modSlot s k fun _ => { used := true, lba, arrival := arr, pos }
    | none => s
/-- Put a block into the slot reserved for it, or into a free one. -/
def fillSlot (arr pos lba : Nat) (data : Block) (s : State) : Option Nat × State :=
  let s := reserveSlot arr pos lba s
  match s.mrc.slots.find? fun e => e.2.used && e.2.arrival = arr && e.2.pos = pos && decide (e.1 < 20480) with
  | some e => (some e.1, writeSlot e.1 (fun d => { d with ready := true, data }) s)
  | none => (none, s)

-- Readers.

def setSrc (arr i : Nat) (b : BlockSrc) (s : State) : State := modCmd s arr fun c => { c with srcs := c.srcs.set i b }
/-- A frame holds a landed version, a superseded one included, a clean block, or a block of row-build staging that has been read in. -/
def frameReady (s : State) (f : Nat) : Bool :=
  let e := getEntry s f
  !(s.ptn.fetches.any fun x => x.1 = f) && !s.mpd.gone.contains f && ((e.valid && decide (1 ≤ e.state.toNat) && decide (e.state.toNat ≤ 5)) || (tabGet {} s.mpd.clean f).valid || s.rows.any fun r => r.kind = 0 && r.src.contains (some f))
/-- Copy the landed millpond versions of a READ into millrace slots in its window, and end it at a lost block or after its last
(R164, R279, R301, R373). -/
def pumpRead (arr : Nat) (s : State) : State :=
  match cmdOf s arr with
  | none => s
  | some c =>
    if c.cap.opcode ≠ 0x01 || c.phase ≠ .running || s.dev = .faultHold then s
    else
      let s := each (List.range c.srcs.length) (fun i s =>
        match (cmdOf s arr).bind fun c => c.srcs[i]? with
        | some (.frame f) =>
          if frameReady s f && (slotHeld s arr i || slotRoom s arr 1) then
            match fillSlot arr i (c.cap.lba.toNat + i) (getFrame s f) s with
            | (some k, s) =>
              let s := setSrc arr i (.slot k) s
              { s with mpd := { s.mpd with pins := s.mpd.pins.erase (f, arr) } }
            | (none, s) => s
          else s
        | _ => s) s
      releaseFrames (match (cmdOf s arr).bind fun c => c.srcs[c.sent]? with
        | some .lost => complete arr 0x40 (c.cap.lba.toNat + (((cmdOf s arr).map (·.sent)).getD 0)) s
        | none => complete arr 0 0 s
        | _ => s)
/-- A VERIFY ends at its first lost block in order, or when every block has been read (R378). `landed` holds its mismatching blocks. -/
def pumpVerify (arr : Nat) (s : State) : State :=
  match cmdOf s arr with
  | none => s
  | some c =>
    if c.cap.opcode ≠ 0x03 || c.phase ≠ .running then s
    else match c.srcs.findIdx? (· ≠ .sent) with
      | none => complete arr 0 (match c.landed.min? with | some i => i + 1 | none => 0) s
      | some i => if c.srcs[i]? = some .lost then complete arr 0x40 (c.cap.lba.toNat + i) s else s

/-- Expected tag of block i of a VERIFY differs from the one read; a block whose selected version was superseded first is not compared
(`frames` lists those). -/
def tagMismatch (c : Cmd) (i : Nat) (htag : Word) : Bool :=
  c.cap.cmpHtag && !(c.frames.any fun e => e.1 = i) && htag ≠ hostTag c.cap i
/-- The commands whose block i is to come from the medium at this LBA. -/
def mediumReaders (s : State) (lba : Nat) : List (Nat × Nat) :=
  (s.hop.cmds.filter fun c => c.phase = .running && decide (c.cap.lba.toNat ≤ lba) &&
    c.srcs[lba - c.cap.lba.toNat]? = some .medium).map fun c => (c.arrival, lba - c.cap.lba.toNat)
/-- Hand a block of the medium to the READs and VERIFYs that want it (R279, R298, R301, R378). A READ for which no slot was reserved, as it came after the
grant, takes the block where its window and the pool have room, and else waits for its own work. -/
def deliverHost (lba : Nat) (data : Block) (htag : Word) (s : State) : State :=
  each (mediumReaders s lba) (fun ri s =>
    match cmdOf s ri.1 with
    | none => s
    | some c =>
      if c.cap.opcode = 0x01 then
        if !(slotHeld s ri.1 ri.2 || slotRoom s ri.1 1) then s
        else match fillSlot ri.1 ri.2 lba data s with
        | (some k, s) =>
          let s := setSrc ri.1 ri.2 (.slot k) s
          pumpRead ri.1 { s with mpd := { s.mpd with mediumPins := s.mpd.mediumPins.erase (lba, ri.1) } }
        | (none, s) => s
      else
        let s := if tagMismatch c ri.2 htag then modCmd s ri.1 fun c => { c with landed := c.landed ++ [ri.2] } else s
        pumpVerify ri.1 (setSrc ri.1 ri.2 .sent s)) s
/-- The readers of a block that cannot be read (R164). -/
def loseHost (lba : Nat) (s : State) : State :=
  let s := { s with mpd := { s.mpd with mediumPins := s.mpd.mediumPins.filter fun p => p.1 ≠ lba } }
  each (mediumReaders s lba) (fun ri s => pumpVerify ri.1 (pumpRead ri.1 (setSrc ri.1 ri.2 .lost s))) s

-- Row builds.

def rowBuildOf (s : State) (row : Nat) : Option RowBuild := s.rows.find? fun r => r.row = row
def modRow (row : Nat) (f : RowBuild → RowBuild) (s : State) : State := { s with rows := s.rows.map fun r => if r.row = row then f r else r }
/-- The staging area of a new row: 128 areas of 512 frames (R288, R666). -/
def freeStaging (s : State) : Option Nat :=
  ((List.range 128).map fun k => 53248 + 512 * k).find? fun b => !(s.rows.any fun r => r.staging = b)
-- Block frames.

/-- A free block frame. -/
def freeFrame (s : State) : Option Nat :=
  ((List.range (s.mpd.ledger.length + s.mpd.clean.length + 1)).map (· + 118784)).find? fun f =>
    !(getEntry s f).valid && !(tabGet {} s.mpd.clean f).valid && decide (f < 1048576)
def pinnedFrame (s : State) (f : Nat) : Bool := s.mpd.pins.any fun q => q.1 = f
/-- The clean frames that the clock may replace, in its turn from the hand on (R289, R291): prefetched ones only where there is no other. -/
def clockTurn (s : State) : List (Nat × CleanFrame) :=
  let cs := s.mpd.clean.filter fun c => c.2.valid && !(pinnedFrame s c.1)
  let turn := cs.filter (fun c => decide (s.mpd.hand ≤ c.1)) ++ cs.filter fun c => decide (c.1 < s.mpd.hand)
  let own := turn.filter fun c => !c.2.prefetched
  if own.isEmpty then turn else own
/-- The clean frame that the clock replaces: the first of its turn without a reference; where all have one, a whole turn takes them away and the
first is replaced. -/
def victim (s : State) : Option Nat := (((clockTurn s).find? fun c => !c.2.ref).orElse fun _ => (clockTurn s).head?).map (·.1)
/-- Reclaim a clean frame: the clock clears the references that it passes. -/
def reclaim (f : Nat) (s : State) : State :=
  let turn := clockTurn s
  let passed := (if turn.all (·.2.ref) then turn else turn.takeWhile (·.2.ref)).map (·.1)
  { s with mpd := { s.mpd with
      clean := (tabDel f s.mpd.clean).map (fun c => if passed.contains c.1 then (c.1, { c.2 with ref := false }) else c),
      hand := if f + 1 < 1048576 then f + 1 else 118784 } }
/-- A block frame for new content: free, else reclaimed. -/
def takeFrame (s : State) : Option (Nat × State) :=
  match freeFrame s with
  | some f => some (f, s)
  | none => (victim s).map fun f => (f, reclaim f s)
/-- A prefetched block goes to a free block frame as a clean, prefetched frame (R64, R291). -/
def prefetchIn (lba : Nat) (data : Block) (htag : Word) (s : State) : State :=
  if (entriesOf s lba).isEmpty && (cleanOf s lba).isNone &&
      decide ((s.mpd.clean.filter fun fc => fc.2.prefetched).length < 163840) then
    match freeFrame s with
    | some f => setFrame { s with mpd := { s.mpd with
        clean := tabSet {} s.mpd.clean f { lba, htag, prefetched := true, ref := true, valid := true } } } f data
    | none => s
  else s

/-- A prefetched parity sector, kept by its row and sector (R64). -/
def prefetchParity (row k : Nat) (data : Block) (htag : Word) (s : State) : State :=
  if (s.mpd.clean.any fun fc => fc.2.valid && fc.2.parity = some (row, k)) || decide (163840 ≤ (s.mpd.clean.filter fun fc => fc.2.prefetched).length) then s
  else match freeFrame s with
    | some f => setFrame { s with mpd := { s.mpd with
        clean := tabSet {} s.mpd.clean f { parity := some (row, k), htag, prefetched := true, ref := true, valid := true } } } f data
    | none => s
/-- Prefetched parity sectors of a row that has committed leave the cache. -/
def dropParity (row : Nat) (s : State) : State :=
  each (s.mpd.clean.filter fun fc => fc.2.parity.any fun p => p.1 = row) (fun fc s =>
    setFrame { s with mpd := { s.mpd with clean := tabDel fc.1 s.mpd.clean } } fc.1 0) s
/-- Read data is kept as clean frames: under READ_CACHE 1 what reads of part of a row bring, under 2 every read (R291). -/
def keepRead (lba : Nat) (data : Block) (htag : Word) (whole : Bool) (s : State) : State :=
  if decide ((if whole then 2 else 1) ≤ readCache s.img) && (entriesOf s lba).isEmpty && (cleanOf s lba).isNone then
    match takeFrame s with
    | some (f, s) => setFrame { s with mpd := { s.mpd with clean := tabSet {} s.mpd.clean f { lba, htag, ref := true, valid := true } } } f data
    | none => s
  else s

-- From the start of a build to its passes.

/-- Tables of a row under write: its own remaps and relocations come first (R54, R67). -/
def rowPlace (s : State) (r : RowBuild) (h t sl : Nat) : Place :=
  let old := s.layout.defects.filter fun d => !(r.runs.any fun x => covers x d.arm.toNat d.head.toNat d.row.toNat && d.row.toNat == runRow x)
  placeUnder s.img s.layout (r.defects.reverse ++ old) (r.runs ++ s.layout.runs) r.arm r.q h t sl
def rowSec (r : RowBuild) (k : Nat) : RowSector := tabGet {} r.sectors k
def modRowSec (row k : Nat) (f : RowSector → RowSector) (s : State) : State :=
  modRow row (fun r => { r with sectors := tabMod {} r.sectors k f }) s
/-- Data, host tag and poison of a data block of a row under write; a stand-in is poisoned (R165). -/
def rowBlock (s : State) (r : RowBuild) (o : Nat) : Block × Word × Bool :=
  if r.standIns.contains o then (0, 0, true)
  else (((r.src[o]?).join.map (getFrame s)).getD 0, tabGet 0 r.htags o, false)
/-- Row offsets of the data members of equation (t, sl) (R44, R47). -/
def eqOffsets (i : Image) (t sl : Nat) : List Nat := (List.range (i.heads - 1)).map fun d => 2 * (i.heads - 1) * sl + 2 * d + t
/-- Write one parity sector's staging frame and side record in the 17 frames from `base` on (R322, R323). -/
def putParityAt (base sl : Nat) (data : Block) (htag : Word) (poison : Bool) (s : State) : State :=
  let keep : Block := getFrame s (base + 16) &&& ~~~((BitVec.allOnes 128).setWidth 32768 <<< (128 * sl))
  let rec_ : Block := (htag.setWidth 32768 ||| (if poison then BitVec.twoPow 32768 64 else 0)) <<< (128 * sl)
  setFrame (setFrame s (base + sl) data) (base + 16) (keep ||| rec_)
def putParity (r : RowBuild) (t sl : Nat) (data : Block) (htag : Word) (poison : Bool) (s : State) : State :=
  putParityAt (r.staging + 17 * t) sl data htag poison s
/-- Data, host tag and poison of a parity sector in such staging. -/
def parityAt (s : State) (base sl : Nat) : Block × Word × Bool :=
  let rec_ := getFrame s (base + 16) >>> (128 * sl)
  (getFrame s (base + sl), rec_.setWidth 64, rec_.getLsbD 64)
/-- The XOR of an equation's data members (R145). -/
def xorBlocks (xs : List (Block × Word × Bool)) : Block × Word × Bool :=
  xs.foldl (fun a x => (a.1 ^^^ x.1, a.2.1 ^^^ x.2.1, a.2.2 != x.2.2)) (0, 0, false)
/-- Compute the parity of a row into its staging (R50, R145, R323). -/
def buildParity (r : RowBuild) (s : State) : State :=
  each [0, 1] (fun t s => each (List.range 16) (fun sl s =>
    let x := xorBlocks ((eqOffsets s.img t sl).map (rowBlock s r))
    putParity r t sl x.1 x.2.1 x.2.2 s) s) s
/-- Information part that a row writes to a sector (R145, R147): what an INTERLEAVE has sent for it to the tailrace, else its block, or its parity from
staging (R323, R324). -/
def rowInfo (s : State) (r : RowBuild) (k : Nat) : Info :=
  let b := match s.tre.sent.find? fun x => x.1 = (r.arm, k) with
    | some x => x.2
    | none => match offAt s.img r.q (k / 32) (k / 16 % 2) (k % 16) with
      | some o => rowBlock s r o
      | none => parityAt s (r.staging + 17 * (k / 16 % 2)) (k % 16)
  infoOf b.1 b.2.1 b.2.2 (paddrOf s.layout.fmtId (rowPlace s r (k / 32) (k / 16 % 2) (k % 16)))
/-- A member that a row cannot write: its head has failed and no target holds its share. -/
def rowLost (s : State) (r : RowBuild) (h : Nat) : Bool :=
  let home := homeOf s.img s.layout (r.runs ++ s.layout.runs) r.arm h r.q
  (getHead s (8 * home.1 + home.2)).failed
/-- Every block of the row is there, a stand-in included. -/
def rowComplete (r : RowBuild) : Bool := (r.src.zipIdx).all fun x => x.1.isSome || r.standIns.contains x.2
/-- Sectors that a row's passes write on track t, slot by slot and in head order (R323). -/
def passKeys (s : State) (r : RowBuild) (t : Nat) : List Nat :=
  let heads := (List.range s.img.heads).filter fun h => !(rowLost s r h) && (r.kind = 0 || h = r.share)
  (List.range 16).flatMap fun sl => heads.map fun h => secKey h t sl
/-- The row's blocks are all there: parity, and one pass for each track at each place that takes some of its sectors (R56, R61, R322). -/
def rowReady (row : Nat) (s : State) : State :=
  match rowBuildOf s row with
  | none => s
  | some r =>
    let s := if r.kind = 0 then buildParity r s else s
    let keys := passKeys s r 0 ++ passKeys s r 1
    let rest := ((rowSectors s.img).map fun k => secKey k.1 k.2.1 k.2.2).filter fun k => !keys.contains k
    let s := each rest (fun k s => modRowSec row k (fun d => { d with st := 2 }) s) s
    each [0, 1] (fun t s =>
      let ks := passKeys s r t
      let group (k : Nat) : Nat × Nat × Nat := placeGroup true s.img s.layout r.arm r.q k (rowPlace s r (k / 32) t (k % 16))
      each ((ks.map group).eraseDups) (fun g s =>
        let mine := ks.filter fun k => group k = g
        addWork {
          arm := g.1, kind := .rowWrite, lArm := r.arm, row := r.q, want := mine, track := t, repair := r.kind ≠ 0,
          heads := (mine.map fun k => (rowPlace s r (k / 32) t (k % 16)).head).eraseDups } s) s) s
/-- Remaps of the tables and of the rows under write, which hold theirs until they commit (R54, R67), each where its sector lies. -/
def allRemaps (s : State) : List Remap :=
  (s.rows.flatMap fun r => remapsOf s.img s.layout r.defects (r.runs ++ s.layout.runs)) ++ remapsOf s.img s.layout s.layout.defects s.layout.runs
/-- Runs of the rows under write. -/
def heldRuns (s : State) : List RunEntry := s.rows.flatMap (·.runs)
/-- Runs that a row takes for its failed heads' shares (R61). -/
def rowRuns (s : State) (a q : Nat) (heads : List Nat) : List RunEntry :=
  heads.foldl (fun rs h =>
    if lostHead s a h q then
      match runFor s (allRemaps s) rs (rs ++ heldRuns s) a h q with
      | some r => rs ++ [r]
      | none => rs
    else rs) []
/-- Every failed head's share of a row has a target (R57, R61); without one the row waits for a move (R58). -/
def sharesPlaced (s : State) (a q : Nat) : Bool :=
  decide ((rowRuns s a q (List.range s.img.heads)).length = ((List.range s.img.heads).filter fun h => lostHead s a h q).length)
/-- An arm has room for another row from build to commit (R666). -/
def buildRoom (s : State) (a : Nat) : Bool := decide ((s.rows.filter fun r => r.arm = a).length < 16) && (freeStaging s).isSome
/-- READs that were to take blocks of a row under write from the medium take them from the row (R300). -/
def readersToRow (r : RowBuild) (s : State) : State :=
  each ((s.hop.cmds.filter fun c => c.cap.opcode = 0x01 && c.phase = .running).map (·.arrival)) (fun arr s =>
    each (List.range (bR s.img)) (fun o s =>
      let lba := lbaOf s.img r.row o
      match (cmdOf s arr).bind fun c => (blockAt c lba).filter fun i => c.srcs[i]? = some .medium with
      | none => s
      | some i =>
        let s := { s with mpd := { s.mpd with mediumPins := s.mpd.mediumPins.filter (· ≠ (lba, arr)) } }
        pumpRead arr (if r.standIns.contains o then setSrc arr i .lost s
          else
            let f := ((r.src[o]?).join).getD (stagingOf r o)
            setSrc arr i (.frame f) { s with mpd := { s.mpd with pins := s.mpd.pins ++ [(f, arr)] } })) s) s
/-- READs of a row under write go on as its blocks come in; one whose block becomes a stand-in ends there (R300). -/
def pumpReaders (s : State) : State := each ((s.hop.cmds.filter fun c => c.cap.opcode = 0x01 && c.phase = .running).map (·.arrival)) pumpRead s
/-- The READs that were to take a staged block find it lost (R164, R300). -/
def loseStaged (f : Nat) (s : State) : State :=
  each ((s.hop.cmds.filter fun c => c.cap.opcode = 0x01 && c.phase = .running && c.srcs.contains (.frame f)).map (·.arrival)) (fun arr s =>
    pumpRead arr (modCmd s arr fun c => { c with srcs := c.srcs.map fun b => if b = .frame f then .lost else b })) s
/-- Start the build of a row (R50, R66, R165, R290, R293): its HELD blocks are taken, listed blocks become stand-ins, clean blocks are copied to
staging, and the rest is read in from the medium. -/
def startBuild (row : Nat) (s : State) : State :=
  match freeStaging s, buildRoom s (armOfRow s.img row) && sharesPlaced s (armOfRow s.img row) (qOfRow s.img row) with
  | none, _ | _, false => s
  | some b, true =>
    let a := armOfRow s.img row
    let q := qOfRow s.img row
    let n := bR s.img
    let r : RowBuild := {
      row, arm := a, q, staging := b, src := List.replicate n none, runs := rowRuns s a q (List.range s.img.heads), due := s.mpd.dueRows.contains row,
      rewrite := s.mpd.rewriteRows.contains row }
    let s := { s with
      rows := s.rows ++ [r], mpd := { s.mpd with
        dueRows := s.mpd.dueRows.filter (· ≠ row), pinRows := s.mpd.pinRows.filter (· ≠ row), rewriteRows := s.mpd.rewriteRows.filter (· ≠ row) } }
    let put (o f : Nat) (htag : Word) (s : State) : State :=
      modRow row (fun r => { r with src := r.src.set o (some f), htags := tabSet 0 r.htags o htag }) s
    let s := each (List.range n) (fun o s =>
      let lba := lbaOf s.img row o
      if s.img.capacity ≤ lba then put o (stagingOf r o) 0 (setFrame s (stagingOf r o) 0)
      else match currentVersion s lba with
        | some fe =>
          let s := setEntry s fe.1 { getEntry s fe.1 with row := BitVec.ofNat 34 row }
          put o fe.1 fe.2.htag (setState fe.1 2 s)
        | none =>
          if s.layout.unrecoverable.contains lba then modRow row (fun r => { r with standIns := r.standIns ++ [o] }) s
          else match cleanOf s lba with
            | some c => put o (stagingOf r o) c.2.htag (setFrame s (stagingOf r o) (getFrame s c.1))
            | none => s) s
    match rowBuildOf s row with
    | none => s
    | some r =>
      let s := readersToRow r s
      if rowComplete r then rowReady row s
      else
        let keys := ((List.range n).filter fun o => (r.src[o]?).join.isNone && !r.standIns.contains o).map fun o => lbaKey s.img (lbaOf s.img row o)
        readWorks .partialRead a q keys 0 false s
/-- Blocks of a row that a build would change and whose medium version a reader has pinned (R299). -/
def pinnedBlocks (s : State) (row : Nat) : List Nat :=
  ((s.mpd.mediumPins.map (·.1)).filter fun lba => rowOf s.img lba = row && (currentVersion s lba).isSome).eraseDups
/-- A waiting build starts once no pinned block is left (R299). -/
def startIfUnpinned (row : Nat) (s : State) : State :=
  if s.mpd.pinRows.contains row && (pinnedBlocks s row).isEmpty then startBuild row s else s

/-- All sectors of a rebuilt share have been reconstructed (R62). -/
def shareReady (s : State) (r : RowBuild) : Bool :=
  [0, 1].all fun t => (List.range 16).all fun sl => s.bol.sectors.any fun x =>
    x.arm = r.arm && x.row = r.q && x.head = r.share && x.track = t && x.slot = sl && x.info.isSome
/-- A read-in block of a partial row goes to staging (R50). -/
def readIn (lba : Nat) (data : Block) (htag : Word) (s : State) : State :=
  match rowBuildOf s (rowOf s.img lba) with
  | none => s
  | some r =>
    let o := offOf s.img lba
    if (r.src[o]?).join.isNone && !r.standIns.contains o then
      let s := setFrame (modRow r.row (fun r => { r with src := r.src.set o (some (stagingOf r o)), htags := tabSet 0 r.htags o htag }) s) (stagingOf r o) data
      let s := pumpReaders s
      match rowBuildOf s r.row with
      | some r => if (if r.kind = 0 then rowComplete r else shareReady s r) then rowReady r.row s else s
      | none => s
    else s
/-- A parity sector of a rebuilt share goes to staging. -/
def parityIn (a q h t sl : Nat) (i : Info) (s : State) : State :=
  match s.rows.find? fun r => r.arm = a && r.q = q && r.kind ≠ 0 && r.share = h with
  | none => s
  | some r =>
    let s := putParity r t sl (infoData i) (infoHtag i) (infoPoison i) s
    if shareReady s r then rowReady r.row s else s
/-- The share that a row builds for a rebuild cannot be had: the row is to be written whole again (R62). -/
def rewriteRow (row : Nat) (s : State) : State :=
  { s with
    rows := s.rows.filter fun x => x.row ≠ row,
    mpd := { s.mpd with rewriteRows := if s.mpd.rewriteRows.contains row then s.mpd.rewriteRows else s.mpd.rewriteRows ++ [row] } }
/-- A sector of the share of head h that is being rebuilt for row q cannot be had. -/
def shareLost (a q h : Nat) (s : State) : State :=
  match s.rows.find? fun r => r.arm = a && r.q = q && r.kind ≠ 0 && r.share = h with
  | none => s
  | some r => rewriteRow r.row s
/-- A stand-in on the medium that a rebuild reads keeps its poison in the rebuilt share (R62, R165). -/
def poisonIn (lba : Nat) (s : State) : State :=
  match rowBuildOf s (rowOf s.img lba) with
  | none => s
  | some r =>
    if r.kind = 0 || r.standIns.contains (offOf s.img lba) then s
    else
      let s := modRow r.row (fun r => { r with standIns := r.standIns ++ [offOf s.img lba] }) s
      match rowBuildOf s r.row with
      | some r => if shareReady s r then rowReady r.row s else s
      | none => s
/-- A read-in block that cannot be read becomes a stand-in of the row (R165). A share that cannot be rebuilt makes the whole row be written
again (R62). -/
def readInLost (lba : Nat) (s : State) : State :=
  match rowBuildOf s (rowOf s.img lba) with
  | none => s
  | some r =>
    let o := offOf s.img lba
    if r.kind ≠ 0 then (if r.standIns.contains o then s else rewriteRow r.row s)
    else if (r.src[o]?).join.isNone && !r.standIns.contains o then
      let s := loseStaged (stagingOf r o) (modRow r.row (fun r => { r with standIns := r.standIns ++ [o] }) s)
      match rowBuildOf s r.row with
      | some r => if rowComplete r then rowReady r.row s else s
      | none => s
    else s
/-- A pinned block that a waiting row build reads from the medium becomes a SUPERSEDED version below every other, and the pins move there
(R299). -/
def pinCopy (lba : Nat) (data : Block) (htag : Word) (s : State) : State :=
  let row := rowOf s.img lba
  let readers := (s.mpd.mediumPins.filter fun p => p.1 = lba).map (·.2)
  if s.mpd.pinRows.contains row && !readers.isEmpty then
    match takeFrame s with
    | none => s
    | some (f, s) =>
      let low := readers.foldl min (readers.headD 0)
      let s := setFrame (setEntry s f {
        lba := BitVec.ofNat 48 lba, htag, frame := BitVec.ofNat 20 f, vseq := BitVec.ofNat 40 low - 1, state := 4, valid := true }) f data
      let s := { s with mpd := { s.mpd with
        mediumPins := s.mpd.mediumPins.filter fun p => p.1 ≠ lba, pins := s.mpd.pins ++ readers.map fun r => (f, r) } }
      let s := each readers (fun r s => modCmd s r fun c => { c with srcs := c.srcs.mapIdx fun i b => if b = .medium && c.cap.lba.toNat + i = lba then .frame f else b }) s
      startIfUnpinned row (each readers pumpRead s)
  else startIfUnpinned row s

-- Sectors.

def sameSec (x y : Sector) : Bool := x.arm == y.arm && x.row == y.row && x.head == y.head && x.track == y.track && x.slot == y.slot
def findSec (s : State) (a q h t sl : Nat) : Option Sector :=
  s.bol.sectors.find? fun x => x.arm = a && x.row = q && x.head = h && x.track = t && x.slot = sl
def putSec (x : Sector) (s : State) : State :=
  let xs := s.bol.sectors
  { s with bol := { s.bol with sectors := if xs.any (sameSec x) then xs.map (fun y => if sameSec x y then x else y) else xs ++ [x] } }
def dropSec (x : Sector) (s : State) : State := { s with bol := { s.bol with sectors := s.bol.sectors.filter fun y => !sameSec x y } }
/-- LBA of a data sector; none on the parity head. -/
def secLba (s : State) (x : Sector) : Option Nat :=
  (offAt s.img x.row x.head x.track x.slot).map (lbaOf s.img (rowOfArm s.img x.arm x.row))
def secPlace (s : State) (x : Sector) : Place := sectorPlace s x.arm x.row x.head x.track x.slot
/-- The track of its pair, even 0 and odd 1, on which a sector lies. -/
def secParity (s : State) (x : Sector) : Nat := (secPlace s x).track % 2
/-- A member on a failed head that has not been rebuilt (R60). -/
def secLostHead (s : State) (x : Sector) : Bool := lostHead s x.arm x.head x.row
/-- Members of a sector's equation, itself left out (R47). -/
def members (s : State) (x : Sector) : List Nat := (List.range s.img.heads).filter (· ≠ x.head)
/-- Enter a rung (R170). -/
def enterRung (n : Nat) (s : State) : State :=
  { s with bol := { s.bol with rungs := tabMod {} s.bol.rungs n fun c => { c with entered := satInc 32 c.entered } } }
def leaveRung (n : Nat) (s : State) : State :=
  { s with bol := { s.bol with rungs := tabMod {} s.bol.rungs n fun c => { c with recovered := satInc 32 c.recovered } } }
/-- The sector of a listed block: neither read nor put on the ladder (R164). -/
def listedSec (s : State) (x : Sector) : Bool := (secLba s x).any fun lba => s.layout.unrecoverable.contains lba
/-- Put a sector to be read at rung 1; one on a lost head waits for its equation, whose members are put too (R60). -/
def wantSec (a q h t sl : Nat) (s : State) : State :=
  if (findSec s a q h t sl).isSome then s
  else
    let x : Sector := { arm := a, head := h, row := q, track := t, slot := sl }
    let put (y : Sector) (s : State) : State := putSec (if listedSec s y then { y with rung := 8 } else y) s
    if secLostHead s x then
      each (members s x) (fun g s => if (findSec s a q g t sl).isSome then s else put { x with head := g } s) (put { x with rung := 7 } s)
    else put x s
/-- A re-read of a sector at its rung, with the members that R159 adds at rung 3: one piece of work for each arm and place. -/
def rereadWork (x : Sector) (extra : List Nat) (s : State) : State :=
  let open_ (h : Nat) : Bool := h = x.head || !((findSec s x.arm x.row h x.track x.slot).any fun y => y.info.isSome || decide (7 ≤ y.rung))
  let heads := ((x.head :: extra).eraseDups).filter open_
  let place (h : Nat) : Place := sectorPlace s x.arm x.row h x.track x.slot
  let group (h : Nat) : Nat × Nat × Nat := placeGroup false s.img s.layout x.arm x.row (secKey h x.track x.slot) (place h)
  each ((heads.map group).eraseDups) (fun g s =>
    let mine := heads.filter fun h => group h = g
    addWork {
      arm := g.1, kind := if x.followUp then .followup else .reread, lArm := x.arm, row := x.row,
      repair := s.rows.any fun r => r.arm = x.arm && r.q = x.row && r.kind ≠ 0,
      heads := (mine.map fun h => (place h).head).eraseDups, track := x.track, want := mine.map fun h => secKey h x.track x.slot } s) s

/-- Enter an unrecoverable block (R163–R165): list, event 0x4A with the overflow flag of a full list, the end of its READs and VERIFYs, a stand-in
in its row build. A block that was listed before is not recorded again. -/
def unrecoverable (lba : Nat) (s : State) : State :=
  let full := decide (65536 ≤ s.layout.unrecoverable.length)
  let s :=
    if s.layout.unrecoverable.contains lba then s
    else mqNote 11 (post 0x4A mBolter [b8 lba, b1 (b2n full)] (listBlock lba s))
  startIfUnpinned (rowOf s.img lba) (readInLost lba (loseHost lba s))

/-- The bolter's placement table takes a block of its row straight to its slot, found by head, track and slot under the PAR_HEAD of its placement (R44,
R325); a placement whose last block it is is freed. -/
def placeBlock (a q h t sl : Nat) (data : Block) (s : State) : State :=
  match s.tre.placements.find? fun p => p.1 = a && p.2.1 = q with
  | none => s
  | some (_, _, par, slots) =>
    let o := 2 * (s.img.heads - 1) * sl + 2 * (if h < par then h else h - 1) + t
    let k := if h = par then 2 ^ 32 - 1 else slots.getD o (2 ^ 32 - 1)
    if k = 2 ^ 32 - 1 then s
    else
      let slots := slots.set o (2 ^ 32 - 1)
      let rest := s.tre.placements.filter fun p => !(p.1 = a && p.2.1 = q)
      let s := writeSlot k (fun d => { d with data, ready := true }) s
      { s with tre := { s.tre with placements := if slots.all (· = 2 ^ 32 - 1) then rest else rest ++ [(a, q, par, slots)] } }
/-- A sector's information part has been obtained: to its readers, to the row build that reads it in, to the prefetch cache; a slot of the internal
pool that was to take it is free again (R281). -/
def deliverInfo (x : Sector) (i : Info) (s : State) : State :=
  let op : Option OpKind := (opOf s (secPlace s x).arm).map (fun o => o.kind)
  let s := freeInner (fun e => e.2 = (x.arm, x.row, secKey x.head x.track x.slot)) s
  match secLba s x with
  | none =>
    let s := parityIn x.arm x.row x.head x.track x.slot i s
    if op = some .prefetch then prefetchParity (rowOfArm s.img x.arm x.row) (secKey x.head x.track x.slot) (infoData i) (infoHtag i) s else s
  | some lba =>
    if infoPoison i then unrecoverable lba (poisonIn lba (post 0x51 mBolter [] s))
    else
      let s := placeBlock x.arm x.row x.head x.track x.slot (infoData i) s
      let read := (mediumReaders s lba).any fun r => (cmdOf s r.1).any fun c => c.cap.opcode = 0x01
      let s := pinCopy lba (infoData i) (infoHtag i) (readIn lba (infoData i) (infoHtag i) (deliverHost lba (infoData i) (infoHtag i) s))
      let s := if read then keepRead lba (infoData i) (infoHtag i) (decide (op = some .rowRead)) s else s
      if op = some .prefetch then prefetchIn lba (infoData i) (infoHtag i) s else s

/-- Remap target entry of a sector (R54). -/
def remapEntry (x : Sector) (origin : Nat) (t : Nat × Nat × Nat) : DefectEntry :=
  { arm := BitVec.ofNat 3 x.arm, head := BitVec.ofNat 3 x.head, row := BitVec.ofNat 40 x.row, track := BitVec.ofNat 1 x.track,
    slot := BitVec.ofNat 4 x.slot, dstZone := BitVec.ofNat 6 t.1, dstGroup := BitVec.ofNat 32 t.2.1, dstSector := BitVec.ofNat 5 t.2.2, origin := BitVec.ofNat 2 origin, valid := true }
/-- Event 0x66 when a head first reaches the limit of R55 in a zone. -/
def noteLimit (ds : List Remap) (a h z : Nat) (s : State) : State :=
  if remapLimit s.img a z ≤ (remapGroups ds a h z).length && !s.layout.limitReached.contains (a, h, z) then
    post 0x66 mCore [] { s with layout := { s.layout with limitReached := s.layout.limitReached ++ [(a, h, z)] } }
  else s
/-- A reserve group that holds no remap and no relocation on any head of the arm (R431). -/
def probeFree (s : State) (a z g : Nat) : Bool :=
  let ds := remapsOf s.img s.layout s.layout.defects s.layout.runs
  (List.range s.img.heads).all fun h => !groupRemapped ds a h z g && !groupRelocated s.img s.layout [] a h z g
/-- The probe group: the lowest such index. -/
def probeGroup (s : State) (a z : Nat) : Option Nat := (List.range (reserveGroups s.img a z)).find? (probeFree s a z)
/-- A probe visit whose group a remap or a relocation has taken ends (Table 14.2). -/
def cutProbes (s : State) : State :=
  each (armList s) (fun a s =>
    match (tabGet none s.slu.ops a).bind (·.visit) with
    | some v => if v.kind ≠ 0 && !probeFree s a v.zone v.group then cutVisit a s else s
    | none => s) s
/-- Enter a defect entry in the table (R54): event 0x60 with head, row and origin, and the partner's copy. -/
def enterDefect (d : DefectEntry) (s : State) : State :=
  let same (e : DefectEntry) : Bool := e.arm == d.arm && e.head == d.head && e.row == d.row && e.track == d.track && e.slot == d.slot
  let s := { s with layout := { s.layout with defects := s.layout.defects.filter (fun e => !same e) ++ [d] } }
  let s := mqNote 11 (post 0x60 mCore [b1 d.head.toNat, b8 d.row.toNat, b1 d.origin.toNat] s)
  let s := cutProbes s
  let home := homeOf s.img s.layout s.layout.runs d.arm.toNat d.head.toNat d.row.toNat
  noteLimit (remapsOf s.img s.layout s.layout.defects s.layout.runs) home.1 home.2 d.dstZone.toNat (mirror (.layout (.defect d)) s)
/-- A remap outside a row write (R54): its content is written to a free sector and checked by a row write of that one sector; the entry
enters the table when the check passes. The head fails when no zone of it has room (R55). -/
def remapOutside (x : Sector) (origin : Nat) (s : State) : State :=
  let home := homeOf s.img s.layout s.layout.runs x.arm x.head x.row
  match remapTarget s.img s.layout (allRemaps s) [] (heldRuns s) x.arm x.head x.row with
  | some _ => addWork {
      arm := home.1, kind := .repair, lArm := x.arm, row := x.row, heads := [home.2], track := x.track, want := [secKey x.head x.track x.slot], arrival := origin } s
  | none => declareFailed (8 * home.1 + home.2) s

/-- The sample-buffer entry of a codeword's frame, when its second candidate can still be had (R122, R124). -/
def secondEntry (s : State) (island frame : Nat) : Option SbufEntry :=
  let i := getIsl s island
  if i.failed || !i.assigned then none else i.sbuf.find? fun e => e.frame = frame && e.cand2.isSome
/-- Ask the island for the second candidate of a track (R123). -/
def askSecond (island frame track : Nat) (s : State) : State := modIsl s island fun i => { i with requests := i.requests ++ [(frame, track)] }

/-- A sector has failed every rung from 1 to 6 and has its content by reconstruction: marked defective and remapped (R162). -/
def markDefective (x : Sector) (s : State) : State := remapOutside x 2 (putSec { x with rung := 8 } (post 0x52 mBolter [] (mqNote 11 s)))
/-- Re-reads of a sector that wait are withdrawn. -/
def dropReread (x : Sector) (s : State) : State :=
  let k := secKey x.head x.track x.slot
  { s with slu := { s.slu with work := s.slu.work.filterMap fun w =>
      if w.kind == .reread && w.lArm == x.arm && w.row == x.row && w.want.contains k then
        (if w.want = [k] then none else some { w with want := w.want.filter (· ≠ k) }) else some w } }
/-- Rungs 3 to 6 not yet taken become follow-up work of a reconstructed sector, in the list of the head that holds it (R162). A full list takes no more,
and the sector has no follow-up (log entry 59). -/
def followUp (y : Sector) (s : State) : State :=
  let p := secPlace s y
  let n := 8 * p.arm + p.head
  if (getHead s n).followUps < 4096 then
    let s := if y.rung < 3 then enterRung 3 s else s
    let y := { y with followUp := true, listed := n, rung := max 3 y.rung, second := false }
    rereadWork y [] (modHead (putSec y s) n fun d => { d with
      followUps := d.followUps + 1, followUrgent := d.followUrgent || decide (3072 ≤ d.followUps + 1) })
  else putSec y s
/-- Reconstruct a failing sector when every other member has succeeded (R160, R161), and one on a failed head, which climbs no rung (R60): event 0x49.
An attempt that has failed is made again only when a member succeeds (`again`). A poisoned block has no ladder (R165); a sector that has failed every
re-read is marked defective, and one with re-reads left gets its follow-up. -/
def tryReconstruct (again : Bool) (x : Sector) (s : State) : State :=
  if x.info.isSome || x.rung < 2 || x.rung = 8 || x.followUp || (x.tried && !again) then s
  else
    let infos := (members s x).map fun h => (findSec s x.arm x.row h x.track x.slot).bind (·.info)
    if infos.all (·.isSome) then
      let lost := secLostHead s x
      let s := if x.tried || lost then s else enterRung 7 s
      match reconstruct (infos.filterMap id) (paddrOf s.layout.fmtId (secPlace s x)) with
      | some i =>
        let s := dropReread x (deliverInfo x i (post 0x49 mBolter [] (if lost then s else leaveRung 7 s)))
        let y := { x with info := some i, tried := true }
        if lost || ((secLba s x).isSome && infoPoison i) then putSec y s
        else if x.rung = 7 then markDefective y s
        else followUp y s
      | none => putSec { x with tried := true } s
    else s
/-- Try every failing sector of an equation. -/
def tryEquation (again : Bool) (a q t sl : Nat) (s : State) : State :=
  each (s.bol.sectors.filter fun x => x.arm = a && x.row = q && x.track = t && x.slot = sl) (fun x s =>
    match findSec s a q x.head t sl with
    | some y => tryReconstruct again y s
    | none => s) s
/-- A member of the equation can still succeed, so rung 7 is pending and not failed (R163). -/
def canRepeat (s : State) (x : Sector) : Bool :=
  (members s x).any (fun h => match findSec s x.arm x.row h x.track x.slot with
    | some y => y.info.isNone && decide (y.rung ≤ 6)
    | none => true) &&
  (members s x).all fun h => match findSec s x.arm x.row h x.track x.slot with
    | some y => y.info.isSome || decide (y.rung ≤ 6)
    | none => true
/-- Sectors with every re-read used whose reconstruction cannot be repeated are unrecoverable (R163); a data block counts (Table 5.10), a parity
sector ends the rebuild of its share (R62). -/
def settleLost (a q : Nat) (s : State) : State :=
  each (s.bol.sectors.filter fun x => x.arm = a && x.row = q && x.rung = 7 && x.info.isNone) (fun x s =>
    if canRepeat s x then s
    else
      let s := putSec { x with rung := 8 } s
      match secLba s x with
      | some lba => unrecoverable lba { s with bol := { s.bol with unrecovered := satInc 16 s.bol.unrecovered } }
      | none => shareLost a q x.head s) s
/-- A remap outside a row write of the sector waits or runs: its content is still wanted (R162). -/
def repairing (s : State) (x : Sector) : Bool :=
  let k := secKey x.head x.track x.slot
  (s.slu.work.any fun w => w.kind == .repair && w.lArm == x.arm && w.row == x.row && w.want.contains k) ||
    (List.range 8).any fun b => (opOf s b).any fun o => o.kind == .repair && o.lArm == x.arm && o.row == x.row && o.want.contains k
/-- Forget a row's sectors once none is left on the ladder; follow-ups and sectors under a remap stay. -/
def forgetRow (a q : Nat) (s : State) : State :=
  let stays (x : Sector) : Bool := x.followUp || repairing s x
  let mine := s.bol.sectors.filter fun x => x.arm = a && x.row = q && !stays x
  if mine.all (fun x => x.info.isSome || x.rung = 8) && (List.range 8).all fun b => (opOf s b).all fun o => !(o.lArm == a && (o.row == q || o.batch.any fun e => e.1 == q)) then
    { s with bol := { s.bol with sectors := s.bol.sectors.filter fun x => !(x.arm = a && x.row = q && !stays x) } }
  else s

/-- A follow-up ends (R162). -/
def endFollowUp (x : Sector) (s : State) : State :=
  modHead (dropSec x s) x.listed fun d => { d with
    followUps := d.followUps - 1, followUrgent := d.followUrgent && decide (2048 < d.followUps - 1) }
/-- The ladder moves a sector on to rung `n` ≥ 3, or past rung 6 (R158–R160, R162, R163): reconstruction goes before the re-read. -/
def climb (n : Nat) (x : Sector) (s : State) : State :=
  if n ≤ 6 then
    let y := { x with rung := n, second := false }
    let s := enterRung n (putSec y s)
    let extra := if n = 3 && !x.followUp then (members s x).filter fun h => (findSec s x.arm x.row h x.track x.slot).isNone else []
    let s := each extra (fun h s => wantSec x.arm x.row h x.track x.slot s) s
    let s := tryEquation false x.arm x.row x.track x.slot s
    match findSec s x.arm x.row x.head x.track x.slot with
    | some z => if z.followUp && !x.followUp then s else if z.info.isSome && !z.followUp then s else rereadWork z extra s
    | none => s
  else if x.followUp then markDefective x (endFollowUp x s)
  else
    let s := putSec { x with rung := 7, second := false } s
    settleLost x.arm x.row (tryEquation false x.arm x.row x.track x.slot s)
/-- A sector has not come whole at its rung (R158): the second candidate of its frame if it can be had, else the next rung. `missed` marks a sync
miss, after which the wide window is used. -/
def rungFailed (x : Sector) (island frame : Nat) (missed : Bool) (s : State) : State :=
  let x := { x with missed := x.missed || missed }
  let again := !missed && (secondEntry s island frame).isSome
  if x.rung = 1 && again then
    let s := tryEquation false x.arm x.row x.track x.slot (putSec { x with rung := 2 } s)
    match findSec s x.arm x.row x.head x.track x.slot with
    | some y => if y.info.isSome then s else askSecond island frame (secParity s x) s
    | none => s
  else if 3 ≤ x.rung && !x.second && again then askSecond island frame (secParity s x) (putSec { x with second := true } s)
  else climb (max 3 (x.rung + 1)) x s
/-- A sector has succeeded at a rung (R158, R160, R162): the one whose codeword it was, where a reconstruction has made a follow-up of it since. -/
def rungPassed (rung : Nat) (x : Sector) (i : Info) (s : State) : State :=
  let s := leaveRung rung s
  let s := if 3 ≤ rung then post 0x48 mBolter [b1 rung, b1 (b2n x.followUp)] s else s
  let s := if 5 ≤ rung then mqNote 10 s else s
  if x.followUp then endFollowUp x s
  else
    let s := deliverInfo x i (putSec { x with info := some i } s)
    settleLost x.arm x.row (tryEquation true x.arm x.row x.track x.slot s)

/-- Operations that write the medium: row writes, rewrites, and remaps outside a row write. -/
def writesMedium (k : OpKind) : Bool := k == .rowWrite || k == .rewrite || k == .repair
/-- An operation reads a sector: one of its own, or of a relocated share of its prefetch visit. -/
def opTakes (o : ArmOp) (x : Sector) : Bool :=
  x.arm == o.lArm && ((x.row == o.row && o.want.contains (secKey x.head x.track x.slot)) || o.batch.contains (x.row, x.head))
/-- The sectors that a frame at a slot under a head carries for the arm's operation, by track. -/
def secsAt (s : State) (a h slot : Nat) : List Sector :=
  match opOf s a with
  | none => []
  | some o => s.bol.sectors.filter fun x =>
    opTakes o x && decide (x.rung ≤ 6) &&
      (x.info.isNone || x.followUp) && (secPlace s x).arm = a && (secPlace s x).head = h && (secPlace s x).slot = slot

-- Sectors of a row under write.

/-- Sectors of a row that an operation of arm `a` still has under check at a slot of a head. -/
def rowSecsAt (s : State) (a h t slot : Nat) : List (RowBuild × Nat) :=
  match opOf s a with
  | none => []
  | some o =>
    (s.rows.filter fun r => r.arm = o.lArm && r.q = o.row).flatMap fun r =>
      ((rowSectors s.img).filter fun k =>
        let p := rowPlace s r k.1 k.2.1 k.2.2
        p.arm = a && p.head = h && p.slot = slot && p.track % 2 = t && o.want.contains (secKey k.1 k.2.1 k.2.2)).map fun k => (r, secKey k.1 k.2.1 k.2.2)
/-- A rewrite of sectors of a row: a REUSE pass, kind 1 (R131, R324). -/
def rewriteWork (r : RowBuild) (k : Nat) (s : State) : State :=
  let p := rowPlace s r (k / 32) (k / 16 % 2) (k % 16)
  addWork { arm := p.arm, kind := .rewrite, lArm := r.arm, row := r.q, heads := [p.head], track := k / 16 % 2, want := [k], repair := r.kind ≠ 0 } s
/-- A sector is written again without counting against it (R96, R132). -/
def voidSector (row k : Nat) (s : State) : State :=
  match rowBuildOf s row with
  | none => s
  | some r =>
    if (rowSec r k).st = 1 || (rowSec r k).st = 0 then rewriteWork r k (modRowSec row k (fun d => { d with st := 3, void := true }) s) else s
/-- First cell of a frame and the cell after its last by its head's running stream, with the stream's cells at which the interval before the running wedge
began and the next one begins. -/
def frameSpan (s : State) (p : Place) : (Int × Int) × (Int × Int) :=
  let n := 8 * p.arm + p.head
  let h := getHead s n
  let f := zoneFmt s.img p.arm h.zone
  let o := tabGet {} (getAlk s p.arm).outs p.head
  let x := slotStart f p.slot
  (((cellOf f x : Int) - o.first, (cellOf f (x + 37119) : Int) + 1 - o.first),
    (streamCell f ((h.wedge + 959) % 960) o.first, streamCell f h.wedge o.first + f.cpw))
/-- The head has written its stream to the end. -/
def streamOver (s : State) (p : Place) : Bool :=
  (getHead s (8 * p.arm + p.head)).streamed && (tabGet {} (getAlk s p.arm).outs p.head).total = 0
/-- A frame that a gate at this time cuts or leaves unwritten (R132, R195): all but those that ended before the last wedge that passed. That is
the wedge before the one at which the gate comes, and is taken as such for a fault between two wedges (log entry 43). -/
def cutFrame (s : State) (p : Place) : Bool :=
  (getHead s (8 * p.arm + p.head)).streamed && !(streamOver s p) && decide ((frameSpan s p).2.1 < (frameSpan s p).1.2)
/-- The same for an arm that goes off its operation: nothing that has not begun is written. -/
def unwritten (s : State) (p : Place) : Bool := !(getHead s (8 * p.arm + p.head)).streamed || cutFrame s p
/-- A frame whose samples a loss at this time may have taken (R96): it overlaps the intervals from the last wedge but one to the next (log entry
43). -/
def nearFrame (s : State) (p : Place) : Bool :=
  let x := frameSpan s p
  (getHead s (8 * p.arm + p.head)).streamed && !(streamOver s p) && decide (x.2.1 < x.1.2) && decide (x.1.1 < x.2.2)
/-- A frame whose check has not been posted (R132): its island has failed. -/
def unposted (s : State) (p : Place) : Bool :=
  !((getMq s p.arm).words.any fun w => bitsOf 63 57 w.1.toNat = (getHead s (8 * p.arm + p.head)).island && bitsOf 56 44 w.1.toNat = p.slot && bitsOf 43 43 w.1.toNat = p.track % 2)
/-- The heads of an operation have written their streams to the end. -/
def passOver (s : State) (a : Nat) (o : ArmOp) : Bool :=
  o.heads.all fun h => (getHead s (8 * a + h)).streamed && (tabGet {} (getAlk s a).outs h).total = 0
/-- The passes of a row stand on the medium, no first pass of it waits or is still being written: its blocks are WRITTEN and await their checks
(R293). -/
def passesEnded (o : ArmOp) (s : State) : State :=
  match s.rows.find? fun r => r.arm = o.lArm && r.q = o.row && r.kind = 0 with
  | none => s
  | some r =>
    let mine (k : OpKind) (a q : Nat) : Bool := k == .rowWrite && a = r.arm && q = r.q
    if o.kind ≠ .rowWrite || (s.slu.work.any fun w => mine w.kind w.lArm w.row) ||
        (List.range 8).any fun a => (opOf s a).any fun p => mine p.kind p.lArm p.row && !passOver s a p then s
    else each s.mpd.ledger (fun fe s => if fe.2.valid && fe.2.state = 2 && fe.2.row.toNat = r.row then setState fe.1 3 s else s) s
/-- The write or the check of a remap outside a row write is lost: it is made again at the same target, and nothing counts (R96, R132). -/
def voidRepair (a : Nat) (s : State) : State :=
  match opOf s a with
  | none => s
  | some o =>
    if o.kind ≠ .repair || o.want.isEmpty then s
    else addWork {
      arm := a, kind := .repair, lArm := o.lArm, row := o.row, heads := o.heads, track := o.track, want := o.want, arrival := o.arrival }
      { s with slu := { s.slu with ops := tabSet none s.slu.ops a (some { o with want := [] }) } }
/-- A remap outside a row write: its sector and the target that it tries (R54). The operation's `arrival` holds the origin
and, times 4, the targets tried before. -/
def repairOf (s : State) (o : ArmOp) : Option (Sector × Nat × (Nat × Nat × Nat)) :=
  if o.kind ≠ .repair then none
  else match o.want with
    | [k] =>
      let x : Sector := { arm := o.lArm, head := k / 32, row := o.row, track := k / 16 % 2, slot := k % 16 }
      (nth (o.arrival / 4) s x (allRemaps s)).map fun t => (x, o.arrival % 4, t)
    | _ => none
where
  nth (j : Nat) (s : State) (x : Sector) (ds : List Remap) : Option (Nat × Nat × Nat) :=
    match j, remapTarget s.img s.layout ds [] (heldRuns s) x.arm x.head x.row with
    | _, none => none
    | 0, some t => some t
    | j + 1, some t => nth j s x (ds ++ [(remapEntry x 0 t, homeOf s.img s.layout s.layout.runs x.arm x.head x.row)])
def repairTarget (s : State) (a : Nat) : Option (Sector × Nat × (Nat × Nat × Nat)) := (opOf s a).bind (repairOf s)
/-- Place of a target of a remap outside a row write, on the head that holds the sector. -/
def repairPlace (s : State) (x : Sector) (t : Nat × Nat × Nat) : Place :=
  let home := homeOf s.img s.layout s.layout.runs x.arm x.head x.row
  reservePlace s.img s.layout home.1 home.2 t.1 t.2.1 (t.2.2 / 2) (t.2.2 % 2)

/-- Rows in progress under an arm's heads are rewritten (R96, R132): the check of every frame under check that was `hit` is void, and so is that of a
remap outside a row. -/
def voidArm (hit : State → Place → Bool) (a : Nat) (heads : List Nat) (s : State) : State :=
  let hits (p : Place) : Bool := p.arm = a && heads.contains p.head && hit s p
  match opOf s a with
  | none => s
  | some o =>
    if o.kind = .rowWrite || o.kind = .rewrite then
      each (s.rows.filter fun r => r.arm = o.lArm && r.q = o.row) (fun r s =>
        each (o.want.filter fun k => hits (rowPlace s r (k / 32) (k / 16 % 2) (k % 16)) && (rowSec r k).st = 1) (fun k s => voidSector r.row k s) s) s
    else if (repairTarget s a).any fun x => hits (repairPlace s x.1 x.2.2) then voidRepair a s
    else s
/-- A sector of a row has failed its check twice: remapped within the row (R54, R131). -/
def remapRow (r : RowBuild) (k : Nat) (s : State) : State :=
  let x : Sector := { arm := r.arm, head := k / 32, row := r.q, track := k / 16 % 2, slot := k % 16 }
  let home := homeOf s.img s.layout (r.runs ++ s.layout.runs) r.arm x.head r.q
  match remapTarget s.img s.layout (allRemaps s) r.runs (heldRuns s) r.arm x.head r.q with
  | none => declareFailed (8 * home.1 + home.2) s
  | some t =>
    let s := noteLimit ((remapEntry x 1 t, home) :: allRemaps s) home.1 home.2 t.1 s
    modRow r.row (fun r => { r with
      defects := (r.defects.filter fun d => !(defectOf [d] x.arm x.head x.row x.track x.slot).isSome) ++ [remapEntry x 1 t],
      sectors := tabMod {} r.sectors k fun d => { d with fails := 0 } }) s

/-- A row is abandoned (R67): its remaps and relocations go, its blocks are HELD again. One that R62 wants written whole stays so. -/
def abandonRow (row : Nat) (s : State) : State :=
  match rowBuildOf s row with
  | none => s
  | some r =>
    let s := { s with rows := s.rows.filter fun r => r.row ≠ row }
    let s := if r.rewrite then rewriteRow row s else s
    let s := dropWork (fun w => w.lArm == r.arm && w.row == r.q && (w.kind == .rowWrite || w.kind == .rewrite)) s
    each s.mpd.ledger (fun fe s =>
      if fe.2.valid && (fe.2.state = 2 || fe.2.state = 3) && fe.2.row.toNat = row then
        match currentVersion s fe.2.lba.toNat with
        | none => setState fe.1 1 s
        | some c =>
          if c.1 = fe.1 then setState fe.1 1 s
          else setState fe.1 4 (if fe.2.acked && !c.2.acked then setState c.1 c.2.state (setEntry s c.1 { c.2 with acked := true }) else s)
      else s) s

-- Operations and places.

/-- The operation that a piece of work becomes. -/
def opOfWork (w : Work) : ArmOp :=
  { kind := w.kind, lArm := w.lArm, row := w.row, want := w.want, heads := w.heads, track := w.track, repair := w.repair, arrival := w.arrival,
    batch := w.batch, visit := w.visit, steps := if w.visit.isSome then w.heads.map fun h => (h, 0, 0) else [] }
/-- Place of a sector for an operation: a row under write is written at its new locations; a remap outside a row write at its target. -/
def keyPlace (s : State) (o : ArmOp) (q k : Nat) : Place :=
  let h := k / 32
  let t := k / 16 % 2
  let sl := k % 16
  match repairOf s o, s.rows.find? fun r => r.arm = o.lArm && r.q = q with
  | some (x, _, d), _ => repairPlace s x d
  | none, some r => if writesMedium o.kind then rowPlace s r h t sl else sectorPlace s o.lArm q h t sl
  | none, none => sectorPlace s o.lArm q h t sl
/-- Sectors of an operation by row and key: its own, and those of a prefetch visit's shares. -/
def opKeys (o : ArmOp) : List (Nat × Nat) := o.want.map (o.row, ·) ++ o.batch.flatMap fun e => (List.range 32).map fun k => (e.1, 32 * e.2 + k)
/-- Places of those that lie on an arm. -/
def opPlaces (s : State) (a : Nat) (o : ArmOp) : List Place := ((opKeys o).map fun e => keyPlace s o e.1 e.2).filter fun p => p.arm = a
/-- Place under each of the operation's heads from which its first frame comes; a fantail visit stands at its row or at the probe
group (R430–R432). -/
def headPlaces (s : State) (a : Nat) (o : ArmOp) : List (Nat × Place) :=
  o.heads.map fun h =>
    let ps := (opPlaces s a o).filter fun p => p.head = h
    (8 * a + h, match ps with
      | [] =>
        match o.visit with
        | some v => if v.kind = 0 then nativePlace s.img s.layout o.lArm o.row h o.track 0 else reservePlace s.img s.layout a h v.zone v.group 0 o.track
        | none => nativePlace s.img s.layout o.lArm o.row h o.track 0
      | p :: rest => rest.foldl (fun b x => if x.slot < b.slot then x else b) p)

/-- One rebuild record changes. -/
def modRebuild (k : Nat) (f : Rebuild → Rebuild) (s : State) : State :=
  { s with layout := { s.layout with rebuilds := s.layout.rebuilds.setIfInBounds k (f (s.layout.rebuilds.toList.getD k {})) } }
/-- The cursor is written to flash and sent to the partner (R62, R450). -/
def saveCursor (k : Nat) (s : State) : State :=
  let r := s.layout.rebuilds.toList.getD k {}
  mirror (.layout (.cursor (Fin.ofNat 8 r.arm) (Fin.ofNat 8 r.head) (BitVec.ofNat 40 r.cursor))) (modRebuild k (fun r => { r with savedCursor := r.cursor }) s)

end Sys2Proof.Machine
end

