-- ==== Sys2Proof/Machine/Lanlet.lean ====
section
/-! DEFINITION. The frame layer of the Lanlet ports and of the partner link (chapter 11, R447): acknowledgement, replay, credits, training,
lane sparing, and the sessions of the ports. -/

namespace Sys2Proof.Machine

def linkMaster (l : Nat) : BitVec 8 := if l = 2 then mPartner else mLink
/-- The image enables the port, or configures a partner (Tables 11.6, 15.10). -/
def linkEnabled (s : State) (l : Nat) : Bool := s.start.imageLoaded && (if l = 2 then ptnEn s.img else (portEn s.img).testBit l)

/-- The link goes down (R353, R356): event 0x75 with its cause (0 lane, 1 silence, 2 sixteen sendings) and the attribute of an injection that led to it
(R360), the session is held. -/
def linkDown (l cause : Nat) (inj : Bool) (s : State) : State :=
  if linkUp s l then
    postInj inj 0x75 (linkMaster l) [b1 cause] (modLink s l fun k => { k with
      link := 1, ready := [], laneOut := [], session := if k.session = 1 then 2 else k.session, mapping := none, gapTimer := false, attempts := 0 })
  else s

/-- What the acknowledgement of one frame releases (R280, R346, R369, R399): the slot of a block whose last part it carried, or the last that was sent
before its command ended, the context
and tag of a command whose completion it carried. -/
def ackedFrame (l : Nat) (f : TxFrame) (s : State) : State :=
  match f.body with
  | .rdata tag blk fib _ =>
      match cmdOfTag s l tag with
      | some c => if fib ≠ 7 && (c.phase ≠ .issued || blockUnacked s l tag blk) then s else { s with mrc := { s.mrc with slots := s.mrc.slots.filter fun e => !(e.2.used && e.2.arrival = c.arrival && e.2.pos = blk && decide (e.1 < 20480)) } }
      | none => s
  | .cpl rs => each rs (fun r s =>
      match r with
      | .inl c =>
        if c.rej then s
        else
          let known := admittedCmd s c.arrival.toNat
          let s := { s with hop := { s.hop with cmds := s.hop.cmds.filter fun x => !(x.port = l && x.arrival = c.arrival.toNat) } }
          let s := { s with ptn := { s.ptn with ctxs := s.ptn.ctxs.filter fun x => !(x.port = l && x.arrival = c.arrival) } }
          if known then mirror (.cplAcked l c.tag c.arrival) s else s
      | .inr _ => s) s
  | .mirror _ => s
/-- Take an ACKSEQ (R343): from the oldest unacknowledged SEQ to the newest sent, else ignored. -/
def takeAck (l : Nat) (ack : BitVec 16) (s : State) : State :=
  match (getLink s l).unacked.findIdx? fun f => f.seq = ack with
  | none => s
  | some i =>
    let done := (getLink s l).unacked.take (i + 1)
    let s := modLink s l fun k => { k with unacked := k.unacked.drop (i + 1) }
    each done (ackedFrame l) s
/-- Take a CR_TOTAL (R348, R448): the advance modulo 4,096 when it is 1 to 2,047. -/
def takeCredit (l cls total : Nat) (s : State) : State :=
  if (if l = 2 then cls ≠ 1 else cls ≠ 2 ∧ cls ≠ 3) then s
  else
    let adv := (total + 4096 - tabGet 0 (getLink s l).peerTotal cls) % 4096
    if 1 ≤ adv && adv ≤ 2047 then
      modLink s l fun k => { k with credit := tabMod 0 k.credit cls (· + adv), peerTotal := tabSet 0 k.peerTotal cls total }
    else s
/-- The receiver returns a credit of a class (R349). -/
def returnCredit (l cls : Nat) (s : State) : State := modLink s l fun k => { k with granted := tabMod 0 k.granted cls (· + 1) }

/-- Send an unacknowledged frame again; the sixteenth sending brings the link down with event 0x76 (R344, R356). -/
def resend (l : Nat) (f : TxFrame) (s : State) : State :=
  let s := sendAgain l f s
  if 16 ≤ f.sends + 1 then linkDown l 2 f.hit (postInj f.hit 0x76 (linkMaster l) [] s) else s

/-- Missing SEQs below a held frame, lowest first (R344). -/
def missingSeqs (k : Link) : List (BitVec 16) :=
  let off (q : BitVec 16) : Nat := (q - k.next).toNat
  let top := (k.held.map fun h => off h.1).foldl max 0
  ((List.range top).map fun i => k.next + BitVec.ofNat 16 i).filter fun q => !(k.held.any fun h => h.1 == q)

/-- A failed training attempt (R354). -/
def trainFailed (l : Nat) (s : State) : State :=
  let s := modLink s l fun k => { k with attempts := k.attempts + 1 }
  if (getLink s l).trainEventAt.all fun t => decide (oneSec ≤ since s t) then
    post 0x73 (linkMaster l) [] (modLink s l fun k => { k with trainEventAt := some (now s) })
  else s

/-- What this end's lanes send in an attempt before the link is up (Table 11.5): PRBS31 with the image's presets, then, where the peer answers, codewords of
LANE and IDLE blocks. -/
def trainLanes (l : Nat) (peerPresent : Bool) (s : State) : State :=
  each (List.range (laneSpare l + 1)) (fun n s =>
    let s := send (.lanePrbs l n (imgAt s.img 0x61 0 (24 + 17 * l + n) 1)) s
    if peerPresent then send (.codeword l n (laneCodeword (laneBlock s.pwr.role l n :: List.replicate 19 idleBlock))) s else s) s
/-- LNK_TRAIN_ATTEMPT (R354, R356). -/
def execLnkTrainAttempt (l : LinkId) (rxFail txFail : List (Fin 17)) (peerPresent : Bool) (s : State) : Host.Outcome State Fault Refusal := live s fun s =>
  let n := l.num
  let k := getLink s n
  let rx := ((rxFail.map (·.val)).filter fun x => decide (x ≤ laneSpare n)).eraseDups
  let tx := ((txFail.map (·.val)).filter fun x => decide (x ≤ laneSpare n)).eraseDups
  .next (
    if linkEnabled s n && decide (k.link ≤ 1) && decide (k.attempts < 3) then
      let s := trainLanes n peerPresent (modLink s n fun k => { k with link := 1 })
      if !peerPresent then s
      else if 2 ≤ rx.length || 2 ≤ tx.length then
        if k.wasUp then post 0x74 (linkMaster n) [] (modLink s n fun k => { k with link := 4 }) else trainFailed n s
      else
        let s := modLink s n fun k => { k with
          link := 2, wasUp := true, attempts := 0, rxOut := rx.headD (laneNone n), txOut := tx.headD (laneNone n), rxSpareOk := rx.isEmpty, txSpareOk := tx.isEmpty }
        let s := post 0x7F (linkMaster n) [] (putLctl n (.keepalive (BitVec.ofNat 64 (devTime s))) s)
        if n = 2 then partnerUp (!k.wasUp) s else s
    else s)
where
  /-- The partner link is up: on its first training each part grants 4,096 credits (R448); a part without a settled role, or alone, arbitrates
  (R455). -/
  partnerUp (first : Bool) (s : State) : State :=
    let s := if first then modLink s 2 fun k => { k with granted := [(1, 4096)], credit := [(1, 4096)] } else each (getLink s 2).unacked (sendAgain 2) s
    if (s.dev = .configuring && s.start.step = 10) || s.ptn.alone then sendArb s
    else if s.ptn.role = 2 && !s.ptn.synced then askResync s
    else s

/-- LNK_TRAIN_TIMEOUT (R354): the attempt has lasted 20 ms. -/
def execLnkTrainTimeout (l : LinkId) (s : State) : Host.Outcome State Fault Refusal := live s fun s =>
  .next (if (getLink s l.num).link = 1 && decide ((getLink s l.num).attempts < 3) then trainFailed l.num s else s)

/-- LNK_TRAIN_RETRY (R354): 100 ms after three failed attempts, the link tries again. -/
def execLnkTrainRetry (l : LinkId) (s : State) : Host.Outcome State Fault Refusal := live s fun s =>
  .next (if (getLink s l.num).link = 1 && decide (3 ≤ (getLink s l.num).attempts) then modLink s l.num fun k => { k with attempts := 0 } else s)

/-- GAP_TIMER_EXPIRY (R344, R360): a NAK of up to 15 missing SEQs, and the timer starts again. -/
def execGapTimerExpiry (l : LinkId) (s : State) : Host.Outcome State Fault Refusal := live s fun s =>
  let n := l.num
  let k := getLink s n
  .next (
    if k.gapTimer && linkUp s n then
      let seqs := (missingSeqs k).take 15
      if seqs.isEmpty then modLink s n fun k => { k with gapTimer := false }
      else
        let late := seqs.filter fun q => (getInj s n).delayed.any fun d => BitVec.ofNat 16 (hdr d.1 59 44) = q
        let s := if n < 2 && (!late.isEmpty || seqs.any fun q => (getInj s n).dropped.contains q) then
            modInj s n fun j => { j with nakInduced := satInc 16 j.nakInduced, late := j.late ++ late }
          else modLink s n fun k => { k with nakSent := satInc 16 k.nakSent }
        putLctl n (.nak seqs) s
    else s)

/-- REPLAY_TIMER_EXPIRY (R344); a replay of a frame whose last sending the injector corrupted is no real event (R360). -/
def execReplayTimerExpiry (l : LinkId) (seq : BitVec 16) (s : State) : Host.Outcome State Fault Refusal := live s fun s =>
  .next (
    match (getLink s l.num).unacked.find? fun f => f.seq = seq with
    | some f =>
      if linkUp s l.num then resend l.num f (modLink s l.num fun k => { k with timerReplay := if f.corrupted then k.timerReplay else satInc 16 k.timerReplay }) else s
    | none => s)

/-- ACK_DELAY_EXPIRY (R343). -/
def execAckDelayExpiry (l : LinkId) (s : State) : Host.Outcome State Fault Refusal := live s fun s =>
  .next (if (getLink s l.num).ackDue then putLctl l.num (.keepalive (BitVec.ofNat 64 (devTime s))) s else s)
/-- IDLE_KEEPALIVE (R343). -/
def execIdleKeepalive (l : LinkId) (s : State) : Host.Outcome State Fault Refusal := live s fun s =>
  .next (putLctl l.num (.keepalive (BitVec.ofNat 64 (devTime s))) s)
/-- LINK_RX_SILENCE (R356): no good frame for 100 µs; it is injected where the injector took one that came within that time (R360). -/
def execLinkRxSilence (l : LinkId) (s : State) : Host.Outcome State Fault Refusal := live s fun s =>
  .next (linkDown l.num 1 (decide (l.num < 2) && (getInj s l.num).lastAct.any fun t => decide (since s t < 100000)) s)

/-- Event of a swap (R355, Tables 11.12, 15.11): direction 0 receive, 1 transmit (log entry 22). -/
def swapEvent (l dir lane reason : Nat) (s : State) : State :=
  if l = 2 then post 0x8D mPartner [] s else post 0x72 mLink [b1 l, b1 dir, b1 lane, b1 reason] s
/-- A receive lane must be mapped out (R355, R356): LANE_MAP to the peer, or the link goes down without a spare. An unused spare is reported too, and is
no spare any more; nothing is swapped. -/
def reportLane (l lane reason : Nat) (s : State) : State :=
  let k := getLink s l
  if !linkUp s l || k.rxOut = lane || laneSpare l < lane then s
  else if k.mapping.isSome then (if k.mapping.map (·.1) = some lane then s else linkDown l 0 false s)
  else if k.rxOut = laneNone l && lane = laneSpare l then
    putLctl l (.laneMap lane reason) (modLink s l fun k => { k with rxSpareOk := false, mapping := some (lane, reason) })
  else if k.rxOut = laneNone l && k.rxSpareOk then
    putLctl l (.laneMap lane reason) (modLink s l fun k => { k with mapping := some (lane, reason), link := 3 })
  else linkDown l 0 false s

/-- LNK_LANE_ERROR_WINDOW (R355, Table 11.11). -/
def execLnkLaneErrorWindow (l : LinkId) (lane : Fin 17) (corrected uncorrectable : Nat) (s : State) : Host.Outcome State Fault Refusal := live s fun s =>
  .next (
    if laneSpare l.num < lane.val then s
    else
      let s := modLink s l.num fun k => { k with lanes := tabMod {} k.lanes lane.val fun e => { e with
        corrSym := satAdd 32 e.corrSym corrected, uncorr := satAdd 16 e.uncorr uncorrectable } }
      if 3 ≤ uncorrectable then reportLane l.num lane 1 s
      else if corrLimit s.img < corrected then reportLane l.num lane 0 s
      else s)
/-- LNK_LANE_LOCK_LOSS (R355). -/
def execLnkLaneLockLoss (l : LinkId) (lane : Fin 17) (s : State) : Host.Outcome State Fault Refusal := live s fun s => .next (reportLane l.num lane 2 s)
/-- LANE_MAP_REPEAT (Table 11.4): every 10 µs until the answer arrives. -/
def execLaneMapRepeat (l : LinkId) (s : State) : Host.Outcome State Fault Refusal := live s fun s =>
  .next (match (getLink s l.num).mapping with | some m => putLctl l.num (.laneMap m.1 m.2) s | none => s)

/-- A LANE_MAP record from the peer (R355, R356): this part's transmit lane moves to its spare. -/
def takeLaneMap (l lane reason : Nat) (s : State) : State :=
  let k := getLink s l
  if !linkUp s l || laneSpare l < lane then s
  else if k.txOut = lane then putLctl l (.laneMapDone lane) s
  else if k.txOut = laneNone l && k.txSpareOk && lane ≠ laneSpare l then
    swapEvent l 1 lane reason (putLctl l (.laneMapDone lane) (modLink s l fun k => { k with txOut := lane, txSpareOk := false }))
  else if k.txOut = laneNone l && lane = laneSpare l then putLctl l (.laneMapDone lane) (modLink s l fun k => { k with txSpareOk := false })
  else linkDown l 0 false s
/-- The answer to a LANE_MAP (R355); that of an unused spare moves nothing. -/
def takeLaneMapDone (l lane : Nat) (s : State) : State :=
  match (getLink s l).mapping with
  | some m =>
    if m.1 = lane && lane = laneSpare l then modLink s l fun k => { k with mapping := none }
    else if m.1 = lane then
      swapEvent l 0 lane m.2 (modLink s l fun k => { k with mapping := none, rxOut := lane, rxSpareOk := false, link := if k.link = 3 then 2 else k.link })
    else s
  | none => s
def execLaneMap (l : LinkId) (lane : Fin 17) (reason : BitVec 8) (s : State) : Host.Outcome State Fault Refusal := live s fun s =>
  .next (takeLaneMap l.num lane reason.toNat s)
def execLaneMapDone (l : LinkId) (lane : Fin 17) (s : State) : Host.Outcome State Fault Refusal := live s fun s => .next (takeLaneMapDone l.num lane s)

/-- A NAK record (R344, R360): each listed frame is sent again ahead of new ones. -/
def takeNak (l : Nat) (seqs : List (BitVec 16)) (s : State) : State :=
  if linkUp s l then
    let fs := seqs.filterMap fun q => (getLink s l).unacked.find? fun f => f.seq == q
    let s := if l < 2 && fs.any fun f => f.corrupted then modInj s l fun j => { j with nakInduced := satInc 16 j.nakInduced }
      else modLink s l fun k => { k with nakRcvd := satInc 16 k.nakRcvd }
    each fs (resend l) s
  else s
def execNak (l : LinkId) (seqs : List (BitVec 16)) (s : State) : Host.Outcome State Fault Refusal := live s fun s => .next (takeNak l.num seqs s)
/-- KEEPALIVE (R343): it carries nothing but its frame's acknowledgement, which FRAME_RECEIVE takes, and that a good frame has come. -/
def execKeepalive (_l : LinkId) (s : State) : Host.Outcome State Fault Refusal := live s fun s => .next s

-- Sessions.

/-- Completions of a failed partner's commands (R399, R460), in the first session of the port of the same number. -/
def takeoverCompletions (p : Nat) (s : State) : State :=
  if s.ptn.role = 1 then
    let mine := s.ptn.ctxs.filter fun x => x.port = p
    let s := { s with ptn := { s.ptn with ctxs := s.ptn.ctxs.filter fun x => x.port ≠ p } }
    each mine (fun x s =>
      if (s.hop.cmds.any fun c => c.arrival = x.arrival.toNat) then s
      else
        let r : CplRec := match x.cpl with
          | some r => r
          | none => { tag := x.tag, status := 0x51, opcode := x.opcode, arrival := x.arrival }
        let c : Cmd := {
          port := p, arrival := x.arrival.toNat, cap := { opcode := x.opcode, tag := x.tag, lba := x.lba, count := x.count }, phase := .issued, at_ := now s, result := some r }
        modHopPort { s with hop := { s.hop with cmds := s.hop.cmds ++ [c] } } p fun h => { h with cpls := h.cpls ++ [.inl r] }) s
  else s

/-- CPL_FRAME_SEND (R366, R368): up to 32 records of the completion queue, in their order. -/
def execCplFrameSend (p : Port) (s : State) : Host.Outcome State Fault Refusal := live s fun s =>
  let rs := (getHopPort s p.num).cpls.take 32
  .next (
    if (getLink s p.num).session = 1 && !rs.isEmpty && maySend s p.num 2 then
      sendNumbered p.num (.cpl rs) (modHopPort s p.num fun h => { h with cpls := h.cpls.drop 32 })
    else s)

/-- Part `fib` of a block (R339). -/
def partOf (b : Block) (fib : Nat) : Part512 := (b >>> (4096 * fib)).setWidth 4096
/-- Number of blocks that a command returns, and the next of them when it is there (R19, R373, R380). -/
def nextData (s : State) (c : Cmd) : Option Block :=
  if c.phase ≠ .running then none
  else if c.cap.opcode = 0x01 then
    match c.srcs[c.sent]? with
    | some (.slot k) => if (getSlot s k).ready then some (getSlot s k).data else none
    | _ => none
  else c.reply[c.sent]?
/-- RDATA_FRAME_SEND (R19, R280, R368, R373): the next part of the oldest command of the port whose next block is there. After a
command's last part it completes. -/
def execRdataFrameSend (p : Port) (s : State) : Host.Outcome State Fault Refusal := live s fun s =>
  .next (
    if (getLink s p.num).session = 1 && maySend s p.num 3 then
      match s.hop.cmds.find? fun c => c.port = p.num && (nextData s c).isSome with
      | none => s
      | some c =>
        match nextData s c with
        | none => s
        | some b =>
          let s := sendNumbered p.num (.rdata c.cap.tag c.sent c.fib (partOf b c.fib)) s
          let s := modCmd s c.arrival fun c =>
            if c.fib = 7 then { c with fib := 0, sent := c.sent + 1, srcs := c.srcs.set c.sent .sent } else { c with fib := c.fib + 1 }
          if c.fib ≠ 7 then s
          else if c.cap.opcode = 0x01 then pumpRead c.arrival s
          else if c.reply.length ≤ c.sent + 1 then complete c.arrival 0 (c.result.map (·.info.toNat) |>.getD 0) s
          else s
    else s)

end Sys2Proof.Machine
end

