-- ==== Sys2Proof/Machine/PlanOps.lean ====
section
/-! DEFINITION. Re-planned values (Table 14.3): where each stands in the working copy of the image, its step and its limit, and how a
value is put in force (R438, R440, R441). -/

namespace Sys2Proof.Machine

def leBytes (len v : Nat) : List Byte := (List.range len).map fun k => BitVec.ofNat 8 (v / 256 ^ k)
/-- Write `len` bytes at `off` of a record of the working image. -/
def putImg (i : Image) (type inst off len v : Nat) : Image :=
  let bs := imgBin i type inst
  if bs.length < off + len then i
  else { i with bins := tabPut (type * 65536 + inst) (bs.take off ++ leBytes len v ++ bs.drop (off + len)) i.bins }
/-- `x` with bits hi:lo replaced by `v`. -/
def putBits (hi lo x : Nat) (v : Int) : Nat := x - bitsOf hi lo x * 2 ^ lo + twos (hi + 1 - lo) v * 2 ^ lo
def putOff (i : Image) (n z hi lo : Nat) (v : Int) : Image := putImg i 0x22 n (32 * z) 32 (putBits hi lo (imgAt i 0x22 n (32 * z) 32) v)
def chanSet (i : Image) (n z set : Nat) : Nat := imgAt i 0x10 n ((4 * z + set) * 128) 128
def putChan (i : Image) (n z set v : Nat) : Image := putImg i 0x10 n ((4 * z + set) * 128) 128 v

def planNum : PlanKind → Nat
  | .channelSet => 0 | .iterMax => 1 | .rdOfs => 2 | .opI => 3 | .clr => 4 | .hrCal => 5
  | .notch => 6 | .lawGain => 7 | .kff => 8 | .vdd => 9 | .lanePreset => 10
/-- Preset byte of a lane in LANE_PRESETS (R572): arm link lanes under their arm, a Lanlet or partner lane under link number 0 to 2 in
`head`. -/
def presetByte (l : Loc) : Nat := if l.arm < 8 then 3 * l.arm + l.zone % 32 else if l.head = 0 then 24 + l.zone else if l.head = 1 then 41 + l.zone else 58 + l.zone

def sameLoc (k : Nat) (l : Loc) (v : PlanVal) : Bool := v.kind == k && v.loc == l
def planVal (s : State) (k : Nat) (l : Loc) : Option PlanVal := s.fan.plan.find? (sameLoc k l)
/-- The value in force of a quantity, with the second of a pair. A notch centre is in 1/1,000 of the image's centre, a law's gain in
0.01 dB over the image's. -/
def valueNow (s : State) (k : Nat) (l : Loc) : Int × Int :=
  let i := s.img
  let n := 8 * l.arm + l.head
  let z := l.zone
  match k with
  | 0 => (chanSet i n z 0, 0)
  | 1 => (iterMax i n z, 0)
  | 2 => (offRdOfs i n z, 0)
  | 3 => (offOpI i n z, 0)
  | 4 => (offClrRd i n z, offClrWr i n z)
  | 5 => (offHrCal i n z, offClrCal i n z)
  | 6 => (((planVal s 6 l).map (·.value)).getD 1000, 0)
  | 7 => (((planVal s 7 l).map (·.value)).getD 0, 0)
  | 8 => (imgAt i 0x21 l.arm 8 4, 0)
  | 9 => (s.pwr.target, 0)
  | _ => (imgAt i 0x61 0 (presetByte l) 1, 0)
/-- The image's values of a quantity: what stood before the first change (Table 14.3 LIMIT). -/
def imageVal (s : State) (k : Nat) (l : Loc) : Int × Int :=
  match planVal s k l with
  | some v => (v.image, v.image2)
  | none => valueNow s k l
/-- The value committed last, which may still wait for a row boundary. -/
def committed (s : State) (k : Nat) (l : Loc) : Int × Int :=
  match planVal s k l with
  | some v => if k = 9 then valueNow s k l else (v.value, v.second)
  | none => valueNow s k l

def percentOf (p x : Int) : Int := p * x / 100
/-- Least and greatest value of a quantity (Table 14.3 LIMIT). -/
def limitsOf (s : State) (k : Nat) (image : Int) : Int × Int :=
  match k with
  | 1 => (4, 20)
  | 2 => (image - 410, image + 410)
  | 3 => (0, percentOf (opILimit s.img) image)
  | 4 => (max (clrMin s.img + 30) (image - 50), image + 50)
  | 6 => (900, 1100)
  | 7 => (-300, 300)
  | 8 => (percentOf 85 image, percentOf 115 image)
  | 9 => (650, 850)
  | _ => (0, 15)
/-- Most that a quantity moves in one change (Table 14.3 STEP). -/
def stepOf (k : Nat) (image : Int) : Int :=
  match k with
  | 1 => 2 | 2 => 41 | 3 => percentOf 2 image | 4 => 5 | 6 => 50 | 7 => 100 | 8 => percentOf 2 image | 9 => 5 | _ => 1
/-- Toward `want` by at most one step, within the limits. -/
def stepTo (s : State) (k : Nat) (image old want : Int) : Int :=
  let l := limitsOf s k image
  clampInt l.1 l.2 (clampInt (old - stepOf k image) (old + stepOf k image) want)
/-- A target tap or gain within 25% of the image's. -/
def within25 (signed : Bool) (hi lo set image : Nat) : Bool :=
  let f (x : Nat) : Int := if signed then signedOf (hi + 1 - lo) (bitsOf hi lo x) else bitsOf hi lo x
  decide (4 * (f set - f image).natAbs ≤ (f image).natAbs)
/-- The candidate keeps the limits of a channel set: target taps 255:196, gains 195:172. -/
def chanLimits (set image : Nat) : Bool :=
  ((List.range 6).all fun k => within25 true (255 - 10 * k) (246 - 10 * k) set image) && within25 false 195 184 set image && within25 false 183 172 set image
/-- A candidate with the fields that are not re-planned (bits 111:0) copied from set 0 (Table 14.3). -/
def candidateSet (cand set0 : Nat) : Nat := cand / 2 ^ 112 * 2 ^ 112 % 2 ^ 1024 + set0 % 2 ^ 112

/-- Hand a value to its unit. A new channel set 0 moves the previous one to set 3. -/
def applyPlan (v : PlanVal) (s : State) : State :=
  let i := s.img
  let n := 8 * v.loc.arm + v.loc.head
  let z := v.loc.zone
  handServo n <| match v.kind with
  | 0 => { s with img := putChan (putChan i n z 3 (chanSet i n z 0)) n z 0 v.value.toNat }
  | 1 => { s with img := putImg i 0x11 0 (8 + 64 * n + z) 1 v.value.toNat }
  | 2 => { s with img := putOff i n z 195 184 v.value }
  | 3 => { s with img := putOff i n z 71 56 v.value }
  | 4 => { s with img := putOff (putOff i n z 167 152 v.value) n z 151 136 v.second }
  | 5 => { s with img := putOff (putOff i n z 119 104 v.value) n z 103 88 v.second }
  | 8 => { s with img := putImg i 0x21 v.loc.arm 8 4 v.value.toNat }
  | 9 => { s with pwr := { s.pwr with target := v.value.toNat, src := 2 } }
  | 10 => { s with img := putImg i 0x61 0 (presetByte v.loc) 1 v.value.toNat }
  | _ => s
/-- Section entries of a context's service law (R214, R228). -/
def putLaw (n base : Nat) (es : List (BitVec 256)) (s : State) : State :=
  let s := { s with gov := { s.gov with store := es.zipIdx.foldl (fun t e => tabSet 0 t (base + e.2) e.1) s.gov.store } }
  modCtx s n fun c => { c with servBase := base, nServ := es.length }

/-- Every value and law of the plan store comes into use, but for its VDD value (R441). -/
def useStore (s : State) : State :=
  each s.fan.laws (fun l s => putLaw l.1 l.2.1 l.2.2 s) (each s.fan.plan (fun v s => if v.kind = 9 then s else applyPlan v s) s)
/-- The plan store is restored when its digest matches the image in use, else discarded with event 0xB9; the trends stay (R441). Its VDD
value becomes the target, 0.80 V when the store is discarded (R620). -/
def restorePlan (s : State) : State :=
  if s.fan.planDigest = s.img.digest then
    let s := useStore s
    match s.fan.plan.find? fun v => v.kind = 9 with
    | some v => { s with pwr := { s.pwr with target := min 850 (max 650 v.value.toNat), src := 1 } }
    | none => s
  else
    let s := { s with
      fan := { s.fan with plan := [], laws := [], planDigest := s.img.digest, notRestored := true },
      pwr := { s.pwr with target := 800, src := 1 } }
    post 0xB9 mFantail [] s

/-- R31: no measurement starts and no value is committed. -/
def fantailHalted (s : State) : Bool := s.dev = .faultHold || s.dev = .holdUp || s.dev = .takeover || s.dev = .stopped || !s.start.imageLoaded
/-- The PLAN records of a value: a channel set takes four. -/
def planRecs (v : PlanVal) : List PlanRec :=
  if v.kind = 0 then (List.range 4).map fun k => { loc := v.loc, value := (v.value.toNat / 2 ^ (256 * k) % 2 ^ 256 : Nat), part := k, parts := 4 }
  else [{ kind := v.kind, loc := v.loc, value := v.value, second := v.second }]
/-- The PLAN records of a law: one an entry. -/
def lawRecs (n base : Nat) (es : List (BitVec 256)) : List PlanRec :=
  es.zipIdx.map fun e => { kind := 11, loc := { zone := n }, value := (e.1.toNat : Int), second := base, part := e.2, parts := es.length }
/-- Commit a value (R440, R441): both copies of the plan store, event 0xB0, the partner's copy. A head's value waits for a row boundary
(R30); any other goes to its unit. -/
def commitPlan (v : PlanVal) (old : Int) (s : State) : State :=
  let s := { s with fan := { s.fan with
    plan := s.fan.plan.filter (fun x => !sameLoc v.kind v.loc x) ++ [v], planDigest := s.img.digest,
    replans := satInc 16 s.fan.replans, watch := s.fan.watch.filter (fun w => w.1 ≠ v.loc) ++ (if v.kind ≤ 5 then [(v.loc, now s)] else []) } }
  let s := post 0xB0 mFantail ([b1 v.kind] ++ locFields v.loc ++ [b8 old, b8 v.value]) s
  let s := each (planRecs v) (fun r s => mirror (.plan r) s) s
  if v.kind ≤ 8 then { s with fan := { s.fan with due := s.fan.due ++ [v] } } else applyPlan v s
/-- Move a quantity toward a value by one step. -/
def replanTo (k : Nat) (l : Loc) (want want2 : Int) (s : State) : State :=
  let old := committed s k l
  let image := imageVal s k l
  let v : PlanVal := {
    kind := k, loc := l, value := stepTo s k image.1 old.1 want,
    second := if k = 4 then stepTo s k image.2 old.2 want2 else 0, image := image.1, image2 := image.2 }
  if (v.value, v.second) = old then s else commitPlan v old.1 s

end Sys2Proof.Machine
end

