-- ==== Sys2Proof/Machine/Margins.lean ====
section
/-! DEFINITION. Margins of the fantail (R437): their trend series and the horizon (R443, R444), and what an exhausted margin of a head, a loop,
the spindle or the flash leads to (R442, Table 14.4). -/

namespace Sys2Proof.Machine

-- Series.

/-- Number of a series: the row of its quantity in Table 14.1; laser headroom, which shares a row with WM, stands at 16 more (log
entry 44). -/
def seriesOf : MarginKind → Nat
  | .cm => 0 | .wm => 2 | .heater => 3 | .loop => 7 | .ke => 8 | .vcmKt => 10 | .coreSlack => 11 | .laneEye => 12 | .millpondEye => 13 | .flashWear => 14
def laserSeries : Nat := 18
/-- The last daily point of a series. -/
def lastPoint? (s : State) (kind : Nat) (l : Loc) : Option Int :=
  ((s.fan.trends.find? fun t => t.kind = kind && t.loc = l).bind fun t => t.points.getLast?).map fun p => p.2.1
/-- The margin that a series stands at: the mean of today's measurements, else its last daily point (R436). -/
def marginNow (s : State) (kind : Nat) (l : Loc) : Option Int :=
  match s.fan.today.find? fun e => e.1 = kind && e.2.1 = l with
  | some e => if e.2.2.2 = 0 then lastPoint? s kind l else some (e.2.2.1 / e.2.2.2)
  | none => lastPoint? s kind l
/-- Least-squares line through (day, value): slope and value at day `d` (R444). -/
def trendLine (ps : List (Nat × Int × Nat)) (d : Nat) : Option (Rat × Rat) :=
  let n : Rat := ps.length
  let mx : Rat := ((ps.map fun (p : Nat × Int × Nat) => (p.1 : Rat)).sum) / n
  let my : Rat := ((ps.map fun (p : Nat × Int × Nat) => (p.2.1 : Rat)).sum) / n
  let sxx : Rat := (ps.map fun (p : Nat × Int × Nat) => ((p.1 : Rat) - mx) * ((p.1 : Rat) - mx)).sum
  let sxy : Rat := (ps.map fun (p : Nat × Int × Nat) => ((p.1 : Rat) - mx) * ((p.2.1 : Rat) - my)).sum
  if sxx = 0 then none else some (sxy / sxx, my + sxy / sxx * ((d : Rat) - mx))
/-- Minimum of a series in 2^-16 of its unit: CM_MIN for channel margins, else 0 (Table 14.4). -/
def seriesMin (s : State) (kind : Nat) : Rat := if kind = 0 then (65536 * cmMin s.img : Nat) / 100 else 0
/-- Whole days until a series reaches its minimum (R444). -/
def seriesHorizon (s : State) (t : Trend) (today : Nat) : Option Nat :=
  if t.points.length < 14 then none
  else match trendLine t.points today with
    | none => none
    | some (m, y) => if m < 0 then some ((y - seriesMin s t.kind) / -m).floor.toNat else none
/-- Worst horizon of all series (R444, Table 14.9). -/
def worstSeries (s : State) (today : Nat) : Option (Nat × Trend) :=
  s.fan.trends.foldl (fun b t =>
    match seriesHorizon s t today, b with
    | some d, some (e, x) => if d < e then some (d, t) else some (e, x)
    | some d, none => some (d, t)
    | none, b => b) none
/-- Recompute the margin horizon; event 0xB5 when it falls below HORIZON_WARN. -/
def recomputeHorizon (today : Nat) (s : State) : State :=
  let old := s.fan.days
  let f := s.fan
  let f := match worstSeries s today with
    | some (d, t) => { f with days := min 65534 d, kind := t.kind % 16, arm := t.loc.arm % 8, head := t.loc.head % 8, zone := t.loc.zone % 64, computed := today }
    | none => { f with days := 0xFFFF, computed := today }
  let s := { s with fan := f }
  if f.days < horizonWarn s.img && horizonWarn s.img ≤ old then post 0xB5 mFantail [] s else s
/-- A margin of the day joins its mean (R443). -/
def noteMargin (kind : Nat) (l : Loc) (v : Int) (s : State) : State :=
  let old := (s.fan.today.find? fun e => e.1 = kind && e.2.1 = l).getD (kind, l, 0, 0)
  { s with fan := { s.fan with
      today := s.fan.today.filter (fun e => !(e.1 == kind && e.2.1 == l)) ++ [(kind, l, old.2.2.1 + v, old.2.2.2 + 1)] } }

-- Values (R437).

/-- 10 log10 of a ratio in 2^-16 dB. -/
def deciBel (r : Rat) : Int := (655360 * Config.log10Rat r).floor
/-- Margin of a measured quantity in 2^-16 of its unit. What is measured: σ²_m, MSE, the heater power that the clearance loop needs in 5 µW, a
phase margin in degrees, slack in ps, EYE_H, MARGIN, KE_RATIO, Kt / Kt_image in 2^-15, erases left. -/
def marginOf (s : State) (k : MarginKind) (l : Loc) (m : Rat) : Int :=
  let n := 8 * l.arm + l.head
  let whole (d : Rat) : Int := (65536 * d).floor
  match k with
  | .cm => deciBel ((imgAt s.img 0x91 l.arm (4 * l.zone) 4 : Nat) / m)
  | .wm => deciBel ((chanBits s.img n l.zone 0 77 66 : Nat) / m)
  | .heater => whole ((htrMax s.img : Rat) - m)
  | .loop => whole (m - (pmMin s.img : Rat))
  | .coreSlack => whole (m - (slackMin s.img : Rat))
  | .laneEye => whole (m - (eyeMin s.img : Rat))
  | .millpondEye => whole (m - (dramEyeMin s.img : Rat))
  | .ke => whole (m / 32768 - 92 / 100)
  | .vcmKt => whole (15 / 100 - (if m < 32768 then 32768 - m else m - 32768) / 32768)
  | .flashWear => whole m

-- An exhausted margin.

/-- A margin is exhausted: event 0xB3 with the quantity, its location and the row of its response (R442), `more` beside it, and the horizon again
(R444). One that has been exhausted since it was last above its minimum is not told or counted again (log entry 44). -/
def exhaustedWith (row : Nat) (l : Loc) (more : State → State) (s : State) : State :=
  if s.fan.spent.contains (row, l) then s
  else
    let s := post 0xB3 mFantail ([b1 row] ++ locFields l ++ [b1 row]) { s with fan := { s.fan with
      exhausted := satInc 16 s.fan.exhausted, spent := s.fan.spent ++ [(row, l)] } }
    recomputeHorizon s.fan.computed (more s)
def exhausted (row : Nat) (l : Loc) (s : State) : State := exhaustedWith row l id s
/-- A margin stands above its minimum again. -/
def recovered (row : Nat) (l : Loc) (s : State) : State := { s with fan := { s.fan with spent := s.fan.spent.filter fun e => e ≠ (row, l) } }
/-- Row of Table 14.4 of a margin. -/
def marginRow : MarginKind → Nat
  | .cm => 0 | .wm => 2 | .heater => 3 | .loop => 4 | .coreSlack => 5 | .laneEye => 6 | .millpondEye => 7 | .ke => 8 | .vcmKt => 9 | .flashWear => 10
/-- A margin below its minimum with room to re-plan: watch and event 0xB2 (Table 14.4, R436). -/
def roomLeft (l : Loc) (s : State) : State :=
  post 0xB2 mFantail [] { s with fan := { s.fan with watch := s.fan.watch.filter (fun w => w.1 ≠ l) ++ [(l, now s)] } }
/-- The committed value of a quantity stands at a limit of Table 14.3. -/
def atLimit (s : State) (k : Nat) (l : Loc) : Bool :=
  let v := committed s k l
  let lim := limitsOf s k (imageVal s k l).1
  decide (v.1 ≤ lim.1) || decide (lim.2 ≤ v.1)
def lawAtLimit (s : State) (l : Loc) : Bool :=
  s.fan.plan.any fun v => (v.kind = 6 || v.kind = 7) && v.loc.arm = l.arm && v.loc.head = l.head && atLimit s v.kind v.loc
def laserAtLimit (s : State) (l : Loc) : Bool := decide ((limitsOf s 3 (imageVal s 3 l).1).2 ≤ (committed s 3 l).1)
/-- A margin of a head, a loop, the spindle, a VCM or the flash has been measured: it joins its series, and below its minimum it leads to what
Table 14.4 gives. -/
def judgeMargin (k : MarginKind) (l : Loc) (m : Rat) (s : State) : State :=
  let v := marginOf s k l m
  let low := decide (v < 0)
  let s := noteMargin (seriesOf k) l v (if low then s else recovered (marginRow k) l s)
  match k with
  | .cm =>
    if low then declareFailed (8 * l.arm + l.head) (exhausted 0 l s)
    else if (v : Rat) < seriesMin s 0 then roomLeft l s else s
  | .wm => if !low then s else if laserAtLimit s l then declareFailed (8 * l.arm + l.head) (exhausted 2 l s) else roomLeft l s
  | .heater => if low then declareFailed (8 * l.arm + l.head) (exhausted 3 l s) else s
  | .loop => if !low then s else if lawAtLimit s l then exhaustedWith 4 l (post 0xB4 mFantail []) s else roomLeft l s
  | .ke => if low then exhausted 8 l s else s
  | .vcmKt => if !low then s else if atLimit s 8 { arm := l.arm } then exhaustedWith 9 l (post 0xB4 mFantail []) s else roomLeft l s
  | .flashWear => if low then exhausted 10 l s else s
  | .coreSlack | .laneEye | .millpondEye => s

end Sys2Proof.Machine
end

