-- ==== Sys2Proof/Machine/Visits.lean ====
section
/-! DEFINITION. Visits of the fantail (R429–R432, R435, R436): which are due, their passes wedge by wedge, what they gather and what follows from it
at their end (R437, R438, Table 14.3); and the row boundary at which re-planned values take effect (R30, R440). -/

namespace Sys2Proof.Machine

/-- Hours of Table 14.1 between visits of a zone, in ns. -/
def visitPeriod (kind : Nat) : Nat := oneSec * (([1800, 7200, 2592000] : List Nat).getD kind 0)
def isVisit (s : State) (a kind : Nat) : Bool := (opOf s a).any fun o => o.visit.any fun v => v.kind = kind

/-- A head and zone is in watch (R436). -/
def inWatch (s : State) (l : Loc) : Bool :=
  (s.fan.watch.any fun w => w.1 = l && decide (now s < w.2 + 86400 * oneSec)) ||
    ([0, 2].any fun k => (marginNow s k l).any fun v => decide ((v : Rat) - seriesMin s k ≤ 65536)) ||
    (s.fan.trends.any fun t => t.loc = l && (seriesHorizon s t s.fan.computed).any fun d => decide (d < horizonWarn s.img))
/-- Head and zone pairs in watch (Table 14.8). -/
def watchCount (s : State) : Nat :=
  ((allHeads s).map fun n => ((List.range (zoneList s.img (n / 8)).length).filter fun z => inWatch s { arm := n / 8, head := n % 8, zone := z }).length).sum

/-- Heads of a visit: every loaded head of the arm that has not failed (R429). -/
def visitHeads (s : State) (a : Nat) : List Nat := ((armHeads s a).filter fun n => decide (2 ≤ (getHead s n).state)).map (· % 8)
def visitDue (s : State) (a : Nat) (v : Visit) : Bool :=
  let watch := v.kind ≠ 2 && (List.range s.img.heads).any fun h => inWatch s { arm := a, head := h, zone := v.zone }
  decide (visitPeriod v.kind / (if watch then watchDiv s.img else 1) ≤ since s (tabGet 0 s.fan.visitAt (visitKey a v))) ||
    (v.kind = 0 && s.fan.confirm.any fun l => l.arm = a && l.zone = v.zone)
/-- Least CM or WM of a zone of an arm: visits run in its rising order (R436). -/
def zoneMargin (s : State) (a z : Nat) : Option Int :=
  ((List.range s.img.heads).flatMap fun h => [0, 2].filterMap fun k => marginNow s k { arm := a, head := h, zone := z }).min?
/-- First row of a zone on its arm. -/
def zoneFirstRow (i : Image) (a z : Nat) : Nat := (((zoneList i a).take z).map zoneRows).sum
/-- Row, track and probe group of a visit: the outer, middle and inner counted pairs in turn; even and odd tracks in turn. -/
def visitWork (s : State) (a : Nat) (v : Visit) : Option Work :=
  let f := zoneFmt s.img a v.zone
  let k := tabGet 0 s.fan.visitNo (visitKey a v)
  let pair := (([0, f.cz / 2, f.cz - 1] : List Nat).getD (k % 3) 0)
  let w : Work := { arm := a, kind := .fantail, lArm := a, row := zoneFirstRow s.img a v.zone + pair * gOf f, heads := visitHeads s a, at_ := now s }
  if v.kind = 0 then some { w with visit := some v }
  else (probeGroup s a v.zone).map fun g => { w with track := k % 2, visit := some { v with group := g } }
/-- The next due visit of an arm joins its work (R429, R436), also beyond the share: the order of choice then leaves it the head time that the
host does not use (R29). -/
def planVisits (a : Nat) (s : State) : State :=
  if fantailHalted s || s.dev ≠ .ready || (s.slu.work.any fun w => w.arm = a && w.kind == .fantail) || (visitHeads s a).isEmpty then s
  else
    let due := ((List.range (zoneList s.img a).length).flatMap fun z => [0, 1, 2].map fun k => ({ kind := k, zone := z } : Visit)).filter (visitDue s a)
    let rank (v : Visit) : Option Int := zoneMargin s a v.zone
    let first := due.foldl (fun (b : Option Visit) v =>
      match b with
      | none => some v
      | some x => (match rank v, rank x with
        | some p, some q => if p < q then some v else some x
        | some _, none => some v
        | none, _ => some x)) none
    match first.bind (visitWork s a) with
    | some w => addWork w s
    | none => s

-- A visit, wedge by wedge.

/-- Passes or heater steps of a visit, and wedges of each. -/
def visitSteps (kind : Nat) : Nat := ([4, 3, 50] : List Nat).getD kind 0
def stepWedges (s : State) (kind : Nat) : Nat := if kind = 2 then 64 else s.img.wedges
/-- Laser of a probe pass: OP_I × 0.96, OP_I, OP_I × 1.04 (R431). -/
def probeLevel (s : State) (n z step : Nat) : Nat := offOpI s.img n z * (([96, 100, 104] : List Nat).getD step 100) / 100
/-- One pass of a probe: its laser level; its frames are armed as the operation's (R431). -/
def probePass (a h step : Nat) (v : Visit) (s : State) : State :=
  let n := 8 * a + h
  modHead (sendLaser a h (probeLevel s n v.zone step) (offBiasI s.img n v.zone) (offLead s.img n v.zone) s) n fun d => { d with streamed := false }
/-- Heater power of a calibration step: 2% of HTR_MAX each (R432). -/
def calPower (s : State) (step : Nat) : Nat := htrMax s.img * (2 * (step + 1)) / 100
/-- A head under a running visit: the operation, the visit, and the pass or step that runs. -/
def visitStep (s : State) (n : Nat) : Option (ArmOp × Visit × Nat) :=
  (opOf s (n / 8)).bind fun o => o.visit.bind fun v => (o.steps.find? fun p => p.1 = n % 8).map fun p => (o, v, p.2.1)
/-- A head under a calibration that has not ended: its heater follows the steps, not the clearance loop (log entry 44). -/
def calibrating (s : State) (n : Nat) : Bool := (visitStep s n).any fun x => x.2.1.kind = 2 && decide (x.2.2 < visitSteps 2)
def modOp (a : Nat) (f : ArmOp → ArmOp) (s : State) : State := { s with slu := { s.slu with ops := tabMod none s.slu.ops a (Option.map f) } }
def visitSum (o : ArmOp) (h step : Nat) : VisitSum := tabGet {} o.sums (64 * h + step)
/-- What a head has gathered in a pass or step. -/
def gather (n step : Nat) (f : VisitSum → VisitSum) (s : State) : State :=
  modOp (n / 8) (fun o => { o with sums := tabMod {} o.sums (64 * (n % 8) + step) f }) s
/-- A head's data of its arm's visit is discarded (Table 14.2). -/
def dropGathered (n : Nat) (s : State) : State :=
  modOp (n / 8) (fun o => { o with sums := o.sums.filter fun e => e.1 / 64 ≠ n % 8, cals := o.cals.filter fun c => c.1 ≠ n % 8 }) s
/-- Location of a head and zone. -/
def visitLoc (n z : Nat) : Loc := { arm := n / 8, head := n % 8, zone := z }
/-- The trial set of pass 2 (R430): the candidate of the head and zone, and in a confirmation visit the set that it replaced (R438). -/
def trialOf (s : State) (l : Loc) : Option Nat :=
  if s.fan.confirm.contains l then some (chanSet s.img (8 * l.arm + l.head) l.zone 3) else (s.fan.cands.find? fun c => c.1 = l).map (·.2)
def loadTrial (n z : Nat) (s : State) : State :=
  match trialOf s (visitLoc n z) with
  | some v => modIsl s (getHead s n).island fun i => { i with trial := BitVec.ofNat 1024 v }
  | none => s
/-- A pass or step of a visit begins on a head; `step` past the last restores the head. The offsets of passes 3 and 4 are 0.05 track. -/
def beginStep (a h step : Nat) (v : Visit) (s : State) : State :=
  let n := 8 * a + h
  let shift (d : Int) (s : State) : State := modHead s n fun x => { x with target := x.target + d, goal := x.goal + d }
  match v.kind with
  | 0 =>
    let s := modIsl s (getHead s n).island fun i => { i with set := 0 }
    if step ≤ 1 then loadTrial n v.zone s
    else if step = 2 then shift 205 s else if step = 3 then shift (-410) s else if step = 4 then shift 205 s else s
  | 1 => if step < 3 then probePass a h step v s else s
  | _ =>
    if step < 50 then
      modHead (sendHeater a h (calPower s step) 0 true s) n fun d => { d with readPwr := calPower s step }
    else
      let p := (clampInt 0 (htrMax s.img) (getCtx s (72 + n)).out).toNat
      post 0xB7 mFantail [] (modHead (sendHeater a h p 0 true s) n fun d => { d with readPwr := p })
/-- Every head that has not failed has ended its passes. -/
def visitDone (s : State) (a : Nat) (o : ArmOp) (v : Visit) : Bool :=
  o.steps.all fun p => (getHead s (8 * a + p.1)).failed || decide (visitSteps v.kind ≤ p.2.1)
def setSteps (a : Nat) (f : Nat × Nat × Nat → Nat × Nat × Nat) (s : State) : State := modOp a (fun o => { o with steps := o.steps.map f }) s
/-- A wedge of a head under a visit, with its HR where it is valid. Passes and steps count the wedges at which the head is on track (log
entry 44). -/
def visitWedge (n : Nat) (hr : Option Int) (s : State) : State :=
  match visitStep s n with
  | none => s
  | some (o, v, step) =>
    let k := ((o.steps.find? fun p => p.1 = n % 8).map fun p => p.2.2).getD 0
    if visitSteps v.kind ≤ step || !(getHead s n).onRead then s
    else
      let s := match hr with
        | some x => if v.kind = 2 then gather n step (fun q => { q with sum := q.sum + x, count := q.count + 1 }) s else s
        | none => s
      if k + 1 < stepWedges s v.kind then setSteps (n / 8) (fun p => if p.1 = n % 8 then (p.1, step, k + 1) else p) s
      else beginStep (n / 8) (n % 8) (step + 1) v (setSteps (n / 8) (fun p => if p.1 = n % 8 then (p.1, step + 1, 0) else p) s)
/-- HTR_EFF of a head, 0.01 nm/mW (R578). -/
def htrEff (i : Image) (n : Nat) : Nat := imgAt i 0x92 0 (4 * n) 4
/-- CONTACT ends a head's calibration (R432): HR_CAL is the mean HR of the step before, CLR_CAL what the power from that step to the contact
lowers the head by (log entry 44). -/
def calContact (n : Nat) (s : State) : State :=
  match visitStep s n with
  | some (o, v, step) =>
    if v.kind = 2 then
      let q := visitSum o (n % 8) (step - 1)
      let hr := roundHalfUp ((q.sum : Rat) / q.count)
      let clr := roundHalfUp ((htrEff s.img n * (calPower s step - calPower s (step - 1)) * 5 : Nat) / (1000 : Rat))
      let s := if 0 < step && 0 < q.count then modOp (n / 8) (fun o => { o with cals := o.cals ++ [(n % 8, hr, clr)] }) s else s
      setSteps (n / 8) (fun p => if p.1 = n % 8 then (p.1, visitSteps 2, 0) else p) s
    else s
  | none => s

-- What follows from a visit.

/-- Set 0 stands at its limits of Table 14.3: some target tap or gain 25% from the image's. -/
def channelAtLimit (s : State) (l : Loc) : Bool :=
  let set := (committed s 0 l).1.toNat
  let image := (imageVal s 0 l).1.toNat
  let out (signed : Bool) (hi lo : Nat) : Bool := !within25 signed hi lo (set + 2 ^ lo) image || !within25 signed hi lo (set - 2 ^ lo) image
  ((List.range 6).any fun k => out true (255 - 10 * k) (246 - 10 * k)) || out false 195 184 || out false 183 172
/-- The head goes on after its margin has been judged: it has not failed, and the fantail is not halted (R31). -/
def goesOn (s : State) (l : Loc) : Bool := !(getHead s (8 * l.arm + l.head)).failed && !fantailHalted s
/-- CM or WM less than 1.0 dB above its minimum with the laser or the channel at its limit: CLR_RD and CLR_WR are lowered (Table 14.3). -/
def lowerClearance (l : Loc) (above : Rat) (s : State) : State :=
  if goesOn s l && above < 65536 && (laserAtLimit s l || channelAtLimit s l) then
    let c := committed s 4 l
    replanTo 4 l (c.1 - 5) (c.2 - 5) s
  else s
/-- The three conditions of R438 on a set against another, over at least 2,048 codewords of each. -/
def betterSet (new old : VisitSum) : Bool :=
  decide (2048 ≤ new.words) && decide (2048 ≤ old.words) && decide (100 * new.iters * old.words ≤ 97 * old.iters * new.words) &&
    decide (new.fails ≤ old.fails) && decide (new.sum * old.count ≤ old.sum * new.count)
/-- A confirmation visit has given its result (R438): the adopted set stays, or the previous one, set 3, is restored with event 0xB1. -/
def confirmSet (l : Loc) (passed : Bool) (s : State) : State :=
  let s := { s with fan := { s.fan with confirm := s.fan.confirm.filter fun x => x ≠ l } }
  if passed then s
  else
    let image := imageVal s 0 l
    let old := committed s 0 l
    post 0xB1 mFantail [] (commitPlan { kind := 0, loc := l, value := chanSet s.img (8 * l.arm + l.head) l.zone 3, image := image.1 } old.1 s)
/-- A candidate channel set is adopted within its limits (R438, Table 14.3). -/
def adoptSet (l : Loc) (cand : Nat) (s : State) : State :=
  let image := imageVal s 0 l
  let old := committed s 0 l
  let new := candidateSet cand image.1.toNat
  if !chanLimits new image.1.toNat || new = old.1.toNat then s
  else commitPlan { kind := 0, loc := l, value := new, image := image.1 } old.1 { s with fan := { s.fan with confirm := s.fan.confirm ++ [l] } }
/-- A calibration replaces HR_CAL and CLR_CAL as a pair; CLR_CAL stays within 1.00 nm of the image's (Table 14.3). -/
def adoptCal (l : Loc) (hr clr : Int) (s : State) : State :=
  let image := imageVal s 5 l
  let old := committed s 5 l
  if 100 < (clr - image.2).natAbs || (hr, clr) = old then s
  else commitPlan { kind := 5, loc := l, value := hr, second := clr, image := image.1, image2 := image.2 } old.1 s
/-- A channel visit of a head: CM, the read offset, and the candidate or its confirmation (R437, R438). -/
def channelResult (o : ArmOp) (n z : Nat) (s : State) : State :=
  let l := visitLoc n z
  let q (k : Nat) : VisitSum := visitSum o (n % 8) k
  let s := if (q 0).count = 0 then s
    else
      let m : Rat := ((q 0).sum : Rat) / (2 * (q 0).count)
      lowerClearance l ((marginOf s .cm l m : Rat) - seriesMin s 0) (judgeMargin .cm l m s)
  if !goesOn s l then s
  else
  let s := if (q 2).words = 0 || (q 3).words = 0 then s
    else
      let out := (q 2).iters * (q 3).words
      let in_ := (q 3).iters * (q 2).words
      let now_ := (committed s 2 l).1
      if 102 * out < 100 * in_ then replanTo 2 l (now_ + 41) 0 s else if 102 * in_ < 100 * out then replanTo 2 l (now_ - 41) 0 s else s
  if (q 0).words = 0 || (q 1).words = 0 || (s.fan.due.any fun v => v.kind = 0 && v.loc = l) then s
  else if s.fan.confirm.contains l then confirmSet l (betterSet (q 0) (q 1)) s
  else match s.fan.cands.find? fun c => c.1 = l with
    | some c =>
      let s := { s with fan := { s.fan with cands := s.fan.cands.filter fun c => c.1 ≠ l } }
      if betterSet (q 1) (q 0) then adoptSet l c.2 s else s
    | none => s
/-- A probe visit of a head (R431, R437, Table 14.3): WM at the planned OP_I, the laser headroom, and the least level whose MSE is within 0.75 of
RAW_MSE_PASS, plus 3%; where no level is, the highest (log entry 44). -/
def probeResult (o : ArmOp) (n z : Nat) (s : State) : State :=
  let l := visitLoc n z
  let q (k : Nat) : VisitSum := visitSum o (n % 8) k
  let mse (k : Nat) : Rat := ((q k).sum : Rat) / (q k).count
  let limit := (limitsOf s 3 (imageVal s 3 l).1).2
  let s := if (q 1).count = 0 then s
    else lowerClearance l (marginOf s .wm l (mse 1) : Rat) (judgeMargin .wm l (mse 1) (noteMargin laserSeries l (65536 * (limit - (committed s 3 l).1)) s))
  if !goesOn s l || ([0, 1, 2] : List Nat).any fun k => (q k).count = 0 then s
  else
    let good := ([0, 1, 2] : List Nat).find? fun k => decide (4 * mse k ≤ 3 * (chanBits s.img n z 0 77 66 : Nat))
    replanTo 3 l (percentOf 103 (probeLevel s n z (good.getD 2))) 0 s
/-- A visit has ended with its data: counted, its sums posted (R430), and what follows for each head that
has not failed. -/
def visitEnded (a : Nat) (o : ArmOp) (s : State) : State :=
  match o.visit with
  | none => s
  | some v =>
    let k := visitKey a v
    let s := { s with fan := { s.fan with
      visits := satInc 16 s.fan.visits, visitAt := tabSet 0 s.fan.visitAt k (now s), visitNo := tabMod 0 s.fan.visitNo k (· + 1),
      resched := tabSet 0 s.fan.resched k 0 } }
    each o.heads (fun h s =>
      let n := 8 * a + h
      let q := visitSum o h 0
      let s := mqSend 8 [w64 (twos 64 q.sum), w64 q.count] s
      if !goesOn s (visitLoc n v.zone) then s
      else if v.kind = 0 then channelResult o n v.zone s
      else if v.kind = 1 then probeResult o n v.zone s
      else match o.cals.find? fun c => c.1 = h with
        | some c => adoptCal (visitLoc n v.zone) c.2.1 c.2.2 s
        | none => s) s

-- The row boundary.

/-- A row with a sector on the arm in the zone, whose first pass has begun, uses the values then in force (R440). -/
def rowUnderWay (s : State) (a z : Nat) : Bool := s.rows.any fun r => decide (0 < r.passed) && (rowSectors s.img).any fun k =>
  let p := rowPlace s r k.1 k.2.1 k.2.2
  p.arm = a && (z = 255 || p.zone = z)
/-- Series whose margin ranks a quantity that waits (R440; log entry 44). -/
def dueSeries (k : Nat) : MarginKind :=
  if k ≤ 2 then .cm else if k = 3 then .wm else if k ≤ 5 then .heater else if k = 8 then .vcmKt else .loop
def dueMargin (s : State) (v : PlanVal) : Option Int := marginNow s (seriesOf (dueSeries v.kind)) v.loc
/-- Of the values that wait for a head and zone, the one of least margin; among equals the first committed. -/
def firstDue (s : State) (vs : List PlanVal) (l : Loc) : Option PlanVal :=
  (vs.filter fun v => v.loc = l).foldl (fun b v =>
    match b with
    | none => some v
    | some x => (match dueMargin s v, dueMargin s x with
      | some p, some q => if p < q then some v else some x
      | some _, none => some v
      | none, _ => some x)) none
/-- Arm of a context whose law waits for a row boundary. -/
def ctxArm (n : Nat) : Nat := if n < 8 then n else if n < 72 then (n - 8) / 8 else (n - 72) / 8
/-- Move a context's service law to other entries (R228); a change of the section count is a handover (R227). -/
def moveLaw (n base len : Nat) (s : State) : State :=
  let same := decide ((getCtx s n).nServ = len)
  let cycles (m : Nat) : Nat := if n < 72 || (136 ≤ n && n < 138) then 4 * m else 0
  let s := { s with gov := { s.gov with burst := s.gov.burst + cycles len - cycles (getCtx s n).nServ } }
  let s := modCtx s n fun c => { c with servBase := base, nServ := len }
  if same || !(getCtx s n).fmt then s else handover n (getCtx s n).out s
/-- Values that wait take effect at a row boundary of their arm, at most one for each head and zone (R30, R440); laws likewise. -/
def applyDue (a : Nat) (s : State) : State :=
  if fantailHalted s then s
  else
    let ready := s.fan.due.filter fun v => v.loc.arm = a && !(rowUnderWay s a v.loc.zone)
    let firsts := ((ready.map (·.loc)).eraseDups).filterMap (firstDue s ready)
    let laws := if rowUnderWay s a 255 then [] else s.fan.dueLaws.filter fun l => ctxArm l.1 = a
    let s := { s with fan := { s.fan with
      due := s.fan.due.filter fun v => !firsts.contains v, dueLaws := s.fan.dueLaws.filter fun l => !laws.contains l } }
    each laws (fun l s => moveLaw l.1 l.2.1 l.2.2 s) (each firsts applyPlan s)

end Sys2Proof.Machine
end

