-- ==== Sys2Proof/Machine/ArmLink.lean ====
section
/-! DEFINITION. Arm links (chapter 3): training, lane sparing, acknowledgements, telemetry and the conditions of Table 3.10. -/

namespace Sys2Proof.Machine

/-- A condition of Table 3.10 for arm a. -/
def alkCondition (a : Nat) (code : BitVec 8) (cause : Nat) (hold : Bool) (s : State) : State := condition code (mArm a) cause hold [] s

/-- Link loss (Table 3.10): Fault-hold and retraining; what was under check on the arm is lost (R96). -/
def alkLoss (a : Nat) (s : State) : State :=
  if alkUp s a then
    let s := voidArm unwritten a (List.range 8) s
    let s := modAlk s a fun k => { k with
      link := 1, retrain := true, attempts := 0, attempting := false, idle := false, waitIdentity := false, settling := false,
      mapAt := none, unacked := [], msgs := [], msgRest := [], sentIn := [], outs := [] }
    alkCondition a 0x7B 8 true (openCause 0x7B a false s)
  else s

/-- A start step fails (R590): FAIL_STEP and FAIL_EVENT, and event 0x07 with the step and the cause (log entry 25). -/
def startFail (step cause : Nat) (s : State) : State :=
  post 0x07 mStart [b1 step, b1 cause] { s with start := { s.start with failStep := step, failEvent := cause } }

/-- Training has failed for good (R93, R94): event 0x7E; at start the part stops with it (R594), after a link loss the part hands over or
stops (Table 3.10). -/
def alkTrainFailed (a : Nat) (s : State) : State :=
  let again := (getAlk s a).retrain
  let s := modAlk s a fun k => { k with link := 4, attempting := false, idle := false, waitIdentity := false, settling := false }
  let s := if s.dev = .configuring then startFail 9 0x7E s else s
  failStop (if again then 0x7B else 0x7E) (alkCondition a 0x7E 8 false s)
/-- An attempt has failed (R93): the downlink lanes are electrically idle until the next. -/
def alkAttemptFailed (a : Nat) (s : State) : State :=
  let s := modAlk s a fun k => { k with attempts := k.attempts + 1, attempting := false, waitIdentity := false, settling := false, idle := true, unacked := [], msgs := [], msgRest := [] }
  if 3 ≤ (getAlk s a).attempts then alkTrainFailed a s else each [0, 1, 2] (fun p s => send (.quiet a p) s) s

/-- LANE_MAP with the lanes mapped out, which holds at once (a training, or a lane that has lost lock) or from the first round 10 µs or more
later (R95). -/
def sendLaneMap (a : Nat) (atOnce : Bool) (up dn : Nat) (s : State) : State :=
  let tick := linkTick s + 560000
  let s := modAlk s a fun k => if atOnce then { k with upOut := up, dnOut := dn, mapAt := none } else { k with mapAt := some (tick, up, dn) }
  alkSend a 0x0E 0 atOnce (if atOnce then 0 else tick) [w64 (up + 256 * dn)] s
/-- The lanes mapped out, up and down, by the last map sent. -/
def alkOut (k : ArmLink) : Nat × Nat := match k.mapAt with
  | some (_, up, dn) => (up, dn)
  | none => (k.upOut, k.dnOut)
/-- Swap a failing lane onto the spare (R95). The spare is the last physical lane while none is mapped out (log entry 20). -/
def alkSwap (a : Nat) (up : Bool) (lane : Nat) (atOnce : Bool) (s : State) : State :=
  let k := getAlk s a
  let none_ := if up then 31 else 3
  let spare := if up then 18 else 2
  let (upOut, dnOut) := alkOut k
  let out := if up then upOut else dnOut
  if !alkUp s a || out = lane then s
  else if out = none_ && lane = spare then
    modAlk s a fun k => if up then { k with upSpareOk := false } else { k with dnSpareOk := false }
  else if out = none_ && (if up then k.upSpareOk else k.dnSpareOk) then
    let s := modAlk s a fun k => if up then { k with upSpareOk := false, link := 3 } else { k with dnSpareOk := false, link := 3 }
    alkCondition a 0x79 8 false (sendLaneMap a atOnce (if up then lane else upOut) (if up then dnOut else lane) s)
  else failStop 0x7B (alkCondition a 0x7B 8 false s)

/-- ALK_TRAIN_ATTEMPT (R93, R94): one attempt, with PRBS31 on the downlink lanes and the image's transmitter presets; alignment rounds follow from
EXCHANGE on, and `reachesExchange` is false when the attempt gets stuck before it. -/
def execAlkTrainAttempt (arm : Fin 8) (upFail : List (Fin 19)) (downFail : List (Fin 3)) (reachesExchange : Bool) (s : State) :
    Host.Outcome State Fault Refusal := live s fun s =>
  let k := getAlk s arm
  .next (
    if decide (arm.val < s.img.arms) && decide (k.link ≤ 1) && !k.attempting && !k.idle then
      let s := modAlk s arm fun k => { k with
        link := 1, attempting := true, mapAt := none, presets := (List.range 3).map fun l => imgAt s.img 0x61 0 (3 * arm.val + l) 1, trainCount := min (k.trainCount + 1) (2 ^ 32 - 1) }
      let s := each [0, 1, 2] (fun p s => send (.prbs arm p (imgAt s.img 0x61 0 (3 * arm.val + p) 1)) s) s
      if 2 ≤ upFail.eraseDups.length || 2 ≤ downFail.eraseDups.length then alkAttemptFailed arm s
      else
        modAlk s arm fun k => { k with
          upOut := match upFail with | l :: _ => l.val | [] => 31, dnOut := match downFail with | l :: _ => l.val | [] => 3, upSpareOk := upFail.isEmpty, dnSpareOk := downFail.isEmpty, waitIdentity := reachesExchange }
    else s)

/-- ALK_TRAIN_TIMEOUT (R93): the running attempt has lasted 10 ms. -/
def execAlkTrainTimeout (arm : Fin 8) (s : State) : Host.Outcome State Fault Refusal := live s fun s =>
  .next (if (getAlk s arm).attempting then alkAttemptFailed arm s else s)

/-- ALK_TRAIN_RETRY (R93): the 1 ms of downlink idle has passed, and the next attempt may start. -/
def execAlkTrainRetry (arm : Fin 8) (s : State) : Host.Outcome State Fault Refusal := live s fun s =>
  .next (if (getAlk s arm).idle && (getAlk s arm).link = 1 then modAlk s arm fun k => { k with idle := false } else s)

/-- ALK_LANE_ERROR_WINDOW (R95): the counts of one lane over 1 ms. UNCORR of an uplink lane advances block by block with
ALK_UPLINK_UNCORR (log entry 18). -/
def execAlkLaneErrorWindow (arm : Fin 8) (up : Bool) (lane : Fin 19) (corrected uncorrectable : Nat) (s : State) :
    Host.Outcome State Fault Refusal := live s fun s =>
  .next (
    if !up && 3 ≤ lane.val then s
    else
      let s := modAlk s arm fun k => { k with lanes := tabMod {} k.lanes (if up then lane.val else 32 + lane.val) fun e => { e with
        corrSym := satAdd 32 e.corrSym corrected, uncorr := if up then e.uncorr else satAdd 16 e.uncorr uncorrectable } }
      if alkCorrLimit s.img < corrected || 3 ≤ uncorrectable then alkSwap arm up lane false s else s)

/-- ALK_LANE_LOCK_LOSS (R95): the lane is swapped at once. -/
def execAlkLaneLockLoss (arm : Fin 8) (up : Bool) (lane : Fin 19) (s : State) : Host.Outcome State Fault Refusal := live s fun s =>
  .next (if !up && 3 ≤ lane.val then s else alkSwap arm up lane true s)

/-- ALK_UPLINK_UNCORR (R95, R97): the block's samples are lost on the streams that it carried; the third within 1 ms swaps the lane. -/
def execAlkUplinkUncorr (arm : Fin 8) (lane : Fin 19) (streams : List (Fin 16)) (s : State) : Host.Outcome State Fault Refusal := live s fun s =>
  .next (
    if alkUp s arm then
      let s := modAlk s arm fun k => { k with
        lanes := tabMod {} k.lanes lane.val (fun e => { e with uncorr := satInc 16 e.uncorr }),
        uncorrTimes := ((lane.val, now s) :: k.uncorrTimes).filter (fun e => decide (now s < e.2 + oneMs)),
        streams := streams.foldl (fun t x => tabMod {} t x.val loseBlock) k.streams }
      let s := voidArm nearFrame arm (streams.map fun x => x.val / 2).eraseDups s
      let s := alkCondition arm 0x7A 8 false s
      if 3 ≤ ((getAlk s arm).uncorrTimes.filter fun e => e.1 = lane.val).length then alkSwap arm true lane false s else s
    else s)

/-- ALK_UPLINK_SILENCE (Table 3.10): no correctable uplink block for 1 µs. -/
def execAlkUplinkSilence (arm : Fin 8) (s : State) : Host.Outcome State Fault Refusal := live s fun s => .next (alkLoss arm s)
/-- PORT_STATUS_TIMEOUT (Table 3.10): no PORT_STATUS for 50 µs. -/
def execPortStatusTimeout (arm : Fin 8) (s : State) : Host.Outcome State Fault Refusal := live s fun s => .next (alkLoss arm s)

/-- ACK_TIMEOUT (R87): the message is sent once more with its SEQ; a second timeout is a link loss, or, while the link is still being trained, the end
of the attempt (log entry 42). -/
def execAckTimeout (arm : Fin 8) (seq : BitVec 11) (s : State) : Host.Outcome State Fault Refusal := live s fun s =>
  .next (
    match (getAlk s arm).unacked.find? fun m => m.1.seq = seq.toNat with
    | none => s
    | some (m, false) =>
      alkPut arm m (modAlk s arm fun k => { k with unacked := k.unacked.map fun x => if x.1.seq = seq.toNat then (x.1, true) else x })
    | some (_, true) => if (getAlk s arm).settling then alkAttemptFailed arm s else alkLoss arm s)

/-- The monitor record of a head in an arm's telemetry. -/
def modMon (a h : Nat) (f : HeadMon → HeadMon) (s : State) : State := modAlk s a fun k => { k with mons := tabMod {} k.mons h f }
/-- HEAD of a telemetry word. -/
def telHead (word : Word) : Nat := bitsOf 55 53 word.toNat

/-- LASER_MON (Table 3.3). -/
def execLaserMon (arm : Fin 8) (word : Word) (s : State) : Host.Outcome State Fault Refusal := live s fun s =>
  .next (modMon arm (telHead word) (fun m => { m with laserI := bitsOf 31 16 word.toNat, photo := bitsOf 15 0 word.toNat }) s)
/-- HEATER_MON (Table 3.3). -/
def execHeaterMon (arm : Fin 8) (word : Word) (s : State) : Host.Outcome State Fault Refusal := live s fun s =>
  .next (modMon arm (telHead word) (fun m => { m with heaterR := bitsOf 31 16 word.toNat, contact := bitsOf 15 0 word.toNat }) s)
/-- READER_MON (Table 3.3). -/
def execReaderMon (arm : Fin 8) (word : Word) (s : State) : Host.Outcome State Fault Refusal := live s fun s =>
  .next (modMon arm (telHead word) (fun m => { m with readerA := bitsOf 31 16 word.toNat, readerB := bitsOf 15 0 word.toNat }) s)
/-- SUPPLY telemetry (Table 3.3). -/
def execSupplyTelemetry (arm : Fin 8) (word : Word) (s : State) : Host.Outcome State Fault Refusal := live s fun s =>
  .next (modAlk s arm fun k => { k with supply := [bitsOf 47 32 word.toNat, bitsOf 31 16 word.toNat, bitsOf 15 0 word.toNat] })
/-- WFIFO telemetry (Table 3.3). -/
def execWfifoTelemetry (arm : Fin 8) (word : Word) (s : State) : Host.Outcome State Fault Refusal := live s fun s =>
  .next (modMon arm (telHead word) (fun m => { m with wfifo := bitsOf 10 0 word.toNat }) s)

/-- Gate a writing head (R18, R195): WGATE, its count, event 0x33, void checks for what it wrote since the last good wedge. -/
def writeGate (n : Nat) (s : State) : State :=
  if (getHead s n).writing then
    let s := voidArm cutFrame (n / 8) [n % 8] s
    let s := modHead (stopWriter n s) n fun h => { h with wgate := satInc 16 h.wgate }
    condition 0x33 mMotion 7 false [] s
  else s
/-- WRITE_PWR of a head at a READ_PWR (R198). -/
def writePwr (s : State) (n rd : Nat) : Nat := rd - offHtrWrFf s.img n (getHead s n).zone
/-- Contact or clearance floor (R199): both heater powers 20% lower at once, the integrator at the new value, event 0x3E. A contact also
gates the writer, and the third within 1 s outside a calibration visit fails the head. -/
def contactAct (n : Nat) (contact : Bool) (s : State) : State :=
  let h := getHead s n
  let rd := h.readPwr * 4 / 5
  let wr := writePwr s n h.readPwr * 4 / 5
  let s := sendHeater (n / 8) (n % 8) rd wr true s
  let s := modHead s n fun d => { d with readPwr := rd, contact := satInc 8 d.contact }
  let s := if (getCtx s (72 + n)).enable then handover (72 + n) rd (modCtx s (72 + n) fun c => { c with out := rd }) else s
  let s := if contact then writeGate n s else s
  let s := condition 0x3E mMotion 7 false [] s
  if contact then
    let s := if isVisit s (n / 8) 2 then calContact n s else modHead s n fun d => { d with contacts := now s :: recent s oneSec d.contacts }
    if 3 ≤ (getHead s n).contacts.length then declareFailed n s else s
  else s

/-- FAULT telemetry (R97, Tables 3.7, 3.10). A flag that the head's last FAULT word of the last 100 µs already had is the same instance,
but OVERTEMP, SUPPLY, WFIFO_OVERFLOW and MSG_ERROR report at every word (log entry 19). After MSG_ERROR the head's unanswered messages and its
stream are sent again, after DL_UNCORR those that went in the round it names. -/
def execFaultTelemetry (arm : Fin 8) (word : Word) (s : State) : Host.Outcome State Fault Refusal := live s fun s =>
  let h := telHead word
  let n := 8 * arm.val + h
  let m := tabGet {} (getAlk s arm).mons h
  let old : BitVec 14 := if since s m.flagsAt ≤ 100000 then m.flags else 0
  let flags : BitVec 14 := word.setWidth 14
  let new (i : Nat) : Bool := flags.getLsbD i && !old.getLsbD i
  let s := mqSend (12 + arm) [word] (modMon arm h (fun m => { m with flags, flagsAt := now s }) s)
  let s := if (List.range 7).any new then
      declareFailed n (alkCondition arm 0x7D 7 false (writeGate n s)) else s
  let s := if new 7 then contactAct n true (alkCondition arm 0x7D 7 false s) else s
  let s := if new 8 then voidArm cutFrame arm [h] (alkCondition arm 0x7D 7 false (modHead s n fun d => { d with writing := false })) else s
  let s := if flags.getLsbD 9 || flags.getLsbD 13 then alkCondition arm 0x7D 7 true s else s
  let s := if new 9 || new 13 then voidArm cutFrame arm [h] s else s
  let again (f : AlkMsg → Bool) (s : State) : State := each ((getAlk s arm).unacked.filter fun x => f x.1) (fun x s => alkPut arm x.1 s) s
  let s := if new 13 then again (fun m => m.head = h) s else s
  let s := if new 10 then
      again (fun m => (getAlk s arm).sentIn.contains (m.seq, bitsOf 40 32 word.toNat)) (voidArm cutFrame arm (List.range 8) (alkCondition arm 0x7A 8 false s)) else s
  .next (if flags.getLsbD 11 || flags.getLsbD 12 then alkCondition arm 0x7D 7 true s else s)

/-- PORT_STATUS (R92): another owner of an arm that the part holds stops the part, which sends nothing more to the arms. -/
def execPortStatus (arm : Fin 8) (word : Word) (s : State) : Host.Outcome State Fault Refusal := live s fun s =>
  let st := bitsOf 1 0 word.toNat
  let s := modAlk s arm fun k => { k with port := st, otherPort := word.getLsbD 2 }
  .next (
    if (getAlk s arm).owner = 1 && st = 0 && (s.dev == .loading || s.dev == .ready || s.dev == .faultHold) then
      let s := each (List.range 8) (fun a s => armDark a (modAlk s a fun k => { k with owner := 0 })) (alkMute s)
      failStop 0x7C (alkCondition arm 0x7C 8 false s)
    else s)

/-- A telemetry word of undefined TTYPE (above 0x0B) is counted and discarded (R78). -/
def execTelemetryUndefined (arm : Fin 8) (word : Word) (s : State) : Host.Outcome State Fault Refusal := live s fun s =>
  .next (if 0x0B < bitsOf 63 56 word.toNat then modAlk s arm fun k => { k with msgErr := satInc 16 k.msgErr } else s)

end Sys2Proof.Machine
end

