-- ==== Sys2Proof/Machine/Turns.lean ====
section
/-! DEFINITION. Turns of the whole part: resets (R587, R589), a clock or supply fault (R610, R618), the speed curve and the ways into
Spinning-up, Loading and Parked (R254, R255, R599), and the responses to spindle faults (R271, R272). -/

namespace Sys2Proof.Machine

/-- Dirty frames are held (R589). -/
def holdsDirty (s : State) : Bool := s.mpd.ledger.any fun fe => dirtyEntry fe.2

/-- Every domain but the always-on one returns to its reset values (R587). What flash, fuses and NVM hold stays; the rebuilds
resume from the last recorded cursor and skip list, a move from its beginning (R58, R62). -/
def hardReset (s : State) : State :=
  let s := each (List.range 8) cutBank s
  let r : State := {}
  { r with
    aon := s.aon, fuses := s.fuses, idn := { s.idn with ucodeVer := 0, denied := 0, writes := 0, ue := 0, unlockFail := 0 },
    nvm := { r.nvm with blocks := s.nvm.blocks },
    layout := { s.layout with
      move := none, runs := s.layout.runs.map (fun x => { x with moving := false }),
      rebuilds := s.layout.rebuilds.map fun b => { b with state := if b.state = 3 then 1 else b.state, cursor := b.savedCursor, skip := b.savedSkip } },
    evt := { r.evt with written := s.evt.written, released := s.evt.released, blockFill := s.evt.blockFill, freeBlocks := s.evt.freeBlocks },
    hop := { r.hop with nextDeferred := s.hop.nextDeferred, ports := (s.hop.ports.filter fun e => !e.2.deferred.isEmpty).map fun e => (e.1, { deferred := e.2.deferred }) },
    hold := { r.hold with areas := s.hold.areas },
    fls := { r.fls with blocks := s.fls.blocks, map := s.fls.map, sectors := s.fls.sectors, selectedB := s.fls.selectedB, plan := s.fls.plan },
    fan := { r.fan with plan := s.fan.plan, planDigest := s.fan.planDigest, trends := s.fan.trends, laws := s.fan.laws },
    tx := s.tx, free := s.free, pending := s.pending }

/-- The power outputs go low with a reset or a loss of clocks (R240, R587, R610). -/
def outputsLow (s : State) : State :=
  let s := if s.spc.gates then send (.gates false) s else s
  if s.spn.chopOn then send (.chopper false) s else s

/-- A clock fault (R610) or a supply fault (R618): `kind` as FAULT_KIND. Every clock but the always-on one stops, and only a reset
starts them again, so the stopped domains stand at their reset values from here on (log entry 23). -/
def clockFault (kind rail : Nat) (s : State) : State :=
  let a := { s.aon with
    prevState := s.dev, prevDirty := holdsDirty s, faultKind := kind, faultRail := if kind = 1 then rail else s.aon.faultRail, clockFaultPending := s.aon.clockFaultPending || kind ≠ 1, supplyFaultPending := s.aon.supplyFaultPending || kind = 1 }
  let pwr := { s.pwr with good := if kind = 1 then s.pwr.good &&& ~~~(BitVec.twoPow 7 (6 - rail)) else s.pwr.good }
  let s := hardReset (outputsLow s)
  { s with
    dev := .stopped, aon := a, pwr,
    start := { s.start with inReset := false, powerOnReset := false, clocksStopped := true } }

-- The speed curve.

/-- Budget in 0.1 W; none is no limit (Table 13.7). -/
def budgetAtLeast (s : State) (b : Nat) : Bool := s.slu.granted.all fun g => decide (b ≤ g)
def bOn (s : State) : Nat := ((curvePoints s.img).head?.map (·.1)).getD 0
def bOff (s : State) : Nat := bOn s - 10 * curveHyst s.img
/-- Number (1 to 8) and content of the point in force: the highest at or below the granted budget, else point 1 (R255). -/
def curvePoint (s : State) : Nat × (Nat × Nat × Nat) :=
  let ps := curvePoints s.img
  let k := (ps.filter fun p => budgetAtLeast s p.1).length
  (max 1 k, ps.getD (max 1 k - 1) (0, nSvc s.img, 1))
def rpm16 (n : Nat) : Int := 65536 * (n : Int)
/-- RAMP of context 138 for a ramp in rpm/s (R255). -/
def rampFor (a : Nat) : Nat := a * 65536 / 4800
def lastPoint (s : State) : Nat × (Nat × Nat × Nat) :=
  let ps := curvePoints s.img
  (ps.length, ps.getLastD (0, nSvc s.img, 1))

/-- Set-point, RAMP and OUT_MIN of context 138 for the state (R255), and CURVE_PT: no point is in use in Loading, Ready and Fault-hold. -/
def applySetpoint (s : State) : State :=
  if s.dev = .spinningUp then
    let (k, p) := curvePoint s
    let s := modCtx s 138 fun c => { c with ramp := rampFor p.2.2, outMin := 0, outMax := 1000 * iSu s.img }
    setSetpoint 138 (rpm16 p.2.1) { s with spn := { s.spn with curvePt := k } }
  else
    let (k, p) := lastPoint s
    let s := modCtx s 138 fun c => { c with
      ramp := if s.dev = .takeover then rampFor p.2.2 else c.ramp, outMin := signedOf 32 (imgAt s.img 0x24 0 (32 * 138 + 16) 4), outMax := 1000 * iSu s.img }
    setSetpoint 138 (rpm16 (nSvc s.img)) { s with spn := { s.spn with curvePt := if s.dev = .takeover then k else 0 } }

/-- Spinning-up begins (R599, Table 19.3 step 11): SU_TIMEOUT counts from here and the start runs R256. -/
def enterSpinningUp (s : State) : State :=
  let s := { s with
    dev := .spinningUp, start := { s.start with step := 11 }, hop := { s.hop with spinWait := false },
    spc := { s.spc with startAt := now s, pausedFor := 0, handoffFails := 0, fromRest := false, everWindow := false, stopping := false, goodMeans := 0, restart := false, lost := false } }
  applySetpoint (startOffsets s)
/-- In Parked, an automatic policy or a waiting ACTION 1 starts the spindle once the budget is at least B_ON (R255, R382, R599). -/
def trySpinUp (s : State) : State :=
  if s.dev = .parked && (s.hop.autoSpin || s.hop.spinWait) && budgetAtLeast s (bOn s) && mayDrive s && !s.hop.closed then enterSpinningUp s else s
/-- The granted budget has changed: the curve follows it in Parked and Spinning-up (R255). -/
def followBudget (s : State) : State :=
  if s.dev = .parked then trySpinUp s
  else if s.dev = .spinningUp then
    if s.spn.budgetPause then
      if budgetAtLeast s (bOn s) then
        applySetpoint (startOffsets { s with spc := { s.spc with pausedFor := s.spc.pausedFor + since s s.spc.pauseSince } })
      else s
    else if !(budgetAtLeast s (bOff s)) then
      let s := startCoast s
      { s with spn := { s.spn with budgetPause := true }, spc := { s.spc with pauseSince := now s } }
    else applySetpoint s
  else s

/-- Enter Parked (Tables 19.1, 19.5). -/
def enterParked (s : State) : State := trySpinUp { s with dev := .parked }

/-- Loading begins (R261, Table 19.3 steps 12 to 15): the plan store, every arm's load, the spindle's service laws, the replay. -/
def enterLoading (s : State) : State :=
  let s := { s with dev := .loading, start := { s.start with step := 12 } }
  let s := restorePlan s
  let s := applySetpoint s
  let s := each [136, 137, 138] requestSwitch s
  let s := each (armList s) (fun a s => modArm s a fun r => { r with attempts := 0, reloads := 0, loadDue := some (now s) }) s
  let s := { s with start := { s.start with step := 13, replayRead := s.hold.toRead.isEmpty } }
  if s.hold.replay.isEmpty then s else post 0x14 mStart [] { s with hold := { s.hold with state := 5 } }

-- Park and spin-down.

/-- SPIN_CONTROL commands of an action complete (R382). -/
def completeSpin (action : Nat) (s : State) : State :=
  each (s.hop.cmds.map (·.arrival)) (fun arr s =>
    match cmdOf s arr with
    | none => s
    | some c => if c.cap.opcode = 0x20 && c.phase = .running && c.cap.arg32.toNat % 4 = action then complete arr 0 0 s else s) s
/-- Arrival number of the SPIN_CONTROL with ACTION 2 that runs. -/
def parkArrival (s : State) : Option Nat :=
  (s.hop.cmds.find? fun c => c.cap.opcode = 0x20 && c.phase = .running && c.cap.arg32.toNat % 4 = 2).map (·.arrival)
/-- A data command (Table 12.7): READ, WRITE, VERIFY, FLUSH. -/
def dataOp (c : Cmd) : Bool := decide (1 ≤ c.cap.opcode.toNat) && decide (c.cap.opcode.toNat ≤ 4)
/-- The cursors of the rebuilds that run are written to flash (Table 19.5 step 3). -/
def saveCursors (s : State) : State :=
  each [0, 1] (fun k s => if (s.layout.rebuilds.toList.getD k {}).state = 1 || (s.layout.rebuilds.toList.getD k {}).state = 3 then saveCursor k s else s) s
/-- Go on with Table 19.5 as far as its steps have ended: earlier data commands, the drain, the cursors and the tally's sector, the unload. -/
def parkSteps (s : State) : State :=
  let busy := s.hop.cmds.any fun c => dataOp c && c.phase ≠ .issued && (parkArrival s).any fun p => decide (c.arrival < p)
  let s := if s.start.parkStep = 1 && !busy then { s with start := { s.start with parkStep := 2 } } else s
  let s := if s.start.parkStep = 2 && dirtyFrames s = 0 && s.rows.isEmpty then
      (if s.evt.staging.isEmpty || !s.evt.running || s.hold.flashStopped then id else programSector) (saveCursors { s with start := { s.start with parkStep := 4 } })
    else s
  let s := if s.start.parkStep = 4 && (armList s).any (armLoaded s) then unloadAll s else s
  if s.start.parkStep = 4 && !((armList s).any (armOut s)) then { s with start := { s.start with parkStep := 5 } } else s

-- Planned handover (R461).

/-- A handover begins with a SYNCED standby: event 0x86, STEP 0, and every data command that arrives is held (log entry 35). -/
def beginHandover (reason : BitVec 8) (s : State) : State :=
  let s := { s with ptn := { s.ptn with handStage := 1, handoverReason := reason, handover := 0 } }
  ptnSend (.handover 0 reason) (post 0x86 mPartner [] s)
/-- Step 3: RELEASE, gates off, ACTIVE_OUT deasserted, STEP 1, Standby; held data commands complete with STATE_CONFLICT, INFO 7. The mirror is
this part's own cache, so that it stays SYNCED; rows under write are the partner's to build again. -/
def handOver (s : State) : State :=
  let s := startCoast (releaseArms (endVisits s))
  let s := dropActive s
  let s := ptnSend (.handover 1 s.ptn.handoverReason) s
  let s := each ((s.hop.cmds.filter fun c => c.phase = .held).map (·.arrival)) (fun arr s => complete arr 0x20 7 s) s
  let s := freeInner (fun _ => true) s
  { s with
    dev := .standby, rows := [],
    ptn := { s.ptn with role := 2, synced := true, handover := 1, handStage := 3 },
    tre := { s.tre with placements := [], sent := [] }, slu := { s.slu with work := [], ops := [], chosen := [], line := [] }, fan := { s.fan with coreStop := false } }
/-- Go on with a handover as far as its steps have ended. -/
def advanceHandover (s : State) : State :=
  if s.dev ≠ .ready || s.ptn.role ≠ 1 then s
  else
    let waiting := s.hop.cmds.find? fun c => c.cap.opcode = 0x50 && c.phase = .held
    let s := match waiting with
      | some c => if s.ptn.handStage = 0 && s.ptn.synced then
          beginHandover (BitVec.ofNat 8 (c.cap.arg32.toNat % 2)) (modCmd s c.arrival fun c => { c with phase := .running }) else s
      | none => s
    let busy := (s.hop.cmds.any fun c => dataOp c && (c.phase = .running || c.phase = .waiting)) || (s.slu.ops.any fun e => e.2.isSome)
    let s := if s.ptn.handStage = 1 && !busy then unloadAll { s with ptn := { s.ptn with handStage := 2 } } else s
    if s.ptn.handStage = 2 && !((armList s).any (armOut s)) then handOver s else s
/-- Go on with a park or a handover. -/
def advancePark (s : State) : State := advanceHandover (parkSteps s)

-- Spindle faults.

/-- R272: every arm unloads at once, then the gates go off, and the part enters Stopped. -/
def spindleLost (cause : BitVec 8) (s : State) : State :=
  failStop cause (if ownsArms s then unloadAll { s with spc := { s.spc with lost := true } } else { s with spc := { s.spc with lost := true } })
/-- The spindle is at least at 97% of N_SVC, as a catch or a reload after a Fault-hold needs (R272). -/
def speedHeld (s : State) : Bool := decide (97 * (65536 * nSvc s.img : Int) ≤ 100 * s.spn.speed)

/-- A condition of Table 8.5: its event, its report, and the response of the state: recorded only in Hold-up, Stopped in Configuring, Parked
and Spinning-up, else `inService` (R271). -/
def spindleFault (code : BitVec 8) (hold : Bool) (fs : List PayField) (inService : State → State) (s : State) : State :=
  let s := mqNote 27 (spnEvent code fs s)
  match s.dev with
  | .holdUp => report { master := mMotion, cause := 7, event := code, hold } s
  | .configuring | .parked | .spinningUp =>
    failStop code (gatesOff (report { master := mMotion, cause := 7, event := code } s))
  | .unconfigured | .stopped | .standby => report { master := mMotion, cause := 7, event := code } s
  | _ => inService (report { master := mMotion, cause := 7, event := code, hold } s)

/-- Gates off, Fault-hold, and a catch owed (Table 8.5). -/
def catchOwed (s : State) : State := { startCoast s with spc := { (startCoast s).spc with recatchDue := true } }

end Sys2Proof.Machine
end

