-- ==== Sys2Proof/Machine/Governor.lean ====
section
/-! DEFINITION. The governor (chapter 7): one execution of a loop context in either format (R215–R225), its faults (R233), law replacement
(R228), sine injection (R235) and trace (R236, R237). -/

namespace Sys2Proof.Machine

/-- States in which the service format may be entered (R25). -/
def serviceState : DevState → Bool | .loading => true | .takeover => true | .ready => true | .faultHold => true | _ => false

/-- A failure of a loop (R233, R234): from its service law it returns to its start law with event 0x3F and Fault-hold, the second time
within 24 h the part hands over or stops; in its start law the part stops. In Hold-up it is recorded only. -/
def governorFail (n cause : Nat) (s : State) : State :=
  if (getCtx s n).fmt then
    let s := modCtx s n fun c => { c with failTimes := now s :: recent s (86400 * oneSec) c.failTimes, failed := true }
    let s := openCause 0x3F n false (setFormat n false s)
    let s := mqNote 27 (condition 0x3F mMotion cause true [] s)
    if 2 ≤ (getCtx s n).failTimes.length then failStop 0x3F s else s
  else
    let s := modCtx s n fun c => { c with failTimes := now s :: recent s (86400 * oneSec) c.failTimes }
    let s := mqNote 27 (condition 0x3F mMotion cause false [] s)
    if s.dev = .holdUp then s else failStop 0x3F s
/-- A parity error in mask ROM (Table 7.5): the part stops, and in Hold-up the failure is recorded. -/
def romFail (n : Nat) (s : State) : State :=
  let s := modCtx s n fun c => { c with failTimes := now s :: recent s (86400 * oneSec) c.failTimes }
  let s := mqNote 27 (condition 0x3F mMotion 6 false [] s)
  if s.dev = .holdUp then s else failStop 0x3F s
/-- A corrected error in the section store, a record or the state (Table 7.5): counted, and reported. The manual names no event for it: the report
carries 0 (log entry 58). -/
def governorCorrected (s : State) : State :=
  report { master := mMotion, cause := 1 } { s with gov := { s.gov with eccCe := satInc 16 s.gov.eccCe } }

-- Sections.

/-- One section in the service format (R217): exact accumulator with 48 fraction bits, rounded at bit 48 and saturated to 32 bits. -/
def servSection (e : BitVec 256) (q : SecState) (x : Int) : Int :=
  let t (hi lo sh sl : Nat) : Int := entInt e hi lo * 2 ^ (48 - entNat e sh sl)
  let acc := t 255 224 95 90 * x + t 223 192 89 84 * q.x1 + t 191 160 83 78 * q.x2 - t 159 128 77 72 * q.y1 - t 127 96 71 66 * q.y2
  satInt 32 ((acc + 2 ^ 47) / 2 ^ 48)
/-- One section in the start format (R218): 30 fraction bits, rounded at bit 15 and saturated to 16 bits. -/
def startSection (k : Int × Int × Int × Int × Int) (q : SecState) (x : Int) : Int :=
  let acc := k.1 * x + k.2.1 * q.x1 + k.2.2.1 * q.x2 - 2 * (k.2.2.2.1 * q.y1) - k.2.2.2.2 * q.y2
  satInt 16 ((acc + 2 ^ 14) / 2 ^ 15)

/-- One position of a law: how it computes, whether it is an integrator, and σ of R224. -/
structure Position where
  f : SecState → Int → Int
  integ : Bool
  sigma : Int
/-- The law in force, position by position. -/
def positions (s : State) (n : Nat) : List Position :=
  let c := getCtx s n
  let cs := lawCoefs s n
  let fs : List (SecState → Int → Int) :=
    if c.fmt then (servEntries s c).map servSection else (lawOfStart n).sections.map startSection
  (fs.zip cs).zipIdx.map fun p => { f := p.1.1, integ := p.1.2.integ, sigma := sigmaOf (cs.drop (p.2 + 1)) }

/-- What a pass through the positions leaves: new states, outputs in order, whether one was frozen. -/
structure Cascade where
  states : List SecState := []
  outs : List Int := []
  y : Int := 0
  frozen : Bool := false

/-- The cascade on error `e` after a sample saturated as `sat` (R215, R224). `w` is the signal width. -/
def cascade (w sat : Nat) (ps : List Position) (secs : List SecState) (e : Int) : Cascade :=
  ps.zipIdx.foldl (fun (acc : Cascade) pk =>
    let q := secs.getD pk.2 {}
    let y := pk.1.f q acc.y
    let d := (y - q.y1) * pk.1.sigma
    let hold := pk.1.integ && ((sat = 1 && decide (0 < d)) || (sat = 2 && decide (d < 0)))
    let y := if hold then q.y1 else y
    let full := decide (y = 2 ^ (w - 1) - 1) || decide (y = -(2 ^ (w - 1)))
    let st : SecState := { x1 := acc.y, x2 := q.x1, y1 := y, y2 := q.y1, satRun := if full then q.satRun + 1 else 0 }
    { states := acc.states ++ [st], outs := acc.outs ++ [y], y, frozen := acc.frozen || hold }) { y := e }

-- Soft start.

/-- Effective set-point and error of one sample (R222): R_EFF, error, and the ramp's position. -/
def softStart (s : State) (n : Nat) (x : Int) : Int × Int × Option Nat :=
  let c := getCtx s n
  let ramp := rampOf s n
  if inMode n then
    match c.rampK with
    | none => (c.setpoint, c.setpoint - x, none)
    | some k =>
      if ramp = 0 then (c.setpoint, c.setpoint - x, none)
      else
        let r := if k = 0 then x else c.rEff + clampInt (-ramp) ramp (c.setpoint - c.rEff)
        (r, r - x, if r = c.setpoint then none else some (k + 1))
  else
    match c.rampK with
    | none => (c.rEff, x, none)
    | some k => if ramp ≤ k + 1 then (c.rEff, x, none) else (c.rEff, roundHalfUp ((x : Rat) * (k + 1) / ramp), some (k + 1))

-- Sines and traces.

/-- Samples a second of a context (Table 7.1). -/
def ctxRate (n : Nat) : Nat := if n < 72 then 86400 else if n < 136 then 2700 else if n = 138 then 4800 else if n < 140 then 48000 else 125000
/-- Injected value of the context's generators at this sample, in error units. -/
def sineValue (s : State) (n : Nat) : Int :=
  ((List.range 4).map fun g =>
    let q := getSine s g
    if q.on && q.ctx = n then (q.amplitude : Int) * Config.sineSample q.freq q.sample / 32768 else 0).sum
/-- Correlate the error before injection and the output, and end a generator after its whole periods, posting its four sums (R235). -/
def sineStep (n : Nat) (e out : Int) (s : State) : State :=
  each (List.range 4) (fun g s =>
    let q := getSine s g
    if q.on && q.ctx = n then
      let a := Config.sineSample q.freq q.sample
      let b := Config.cosineSample q.freq q.sample
      let q' := { q with
        sample := q.sample + 1, sumES := q.sumES + e * a, sumEC := q.sumEC + e * b, sumOS := q.sumOS + out * a, sumOC := q.sumOC + out * b }
      let s := modSine s g fun _ => q'
      if q.periods * ctxRate n ≤ q'.sample * q.freq then
        mqSend 9 [w64 (twos 64 q'.sumES), w64 (twos 64 q'.sumEC), w64 (twos 64 q'.sumOS), w64 (twos 64 q'.sumOC)]
          (modSine s g fun q => { q with on := false })
      else s
    else s) s

/-- Record one sample on a trace channel (R236): circularly while armed, the rest of its share after the trigger. -/
def traceRecord (c : Nat) (v : Int) (s : State) : State :=
  let t := getTrace s c
  if t.state = 1 ∨ (t.state = 2 ∧ 0 < t.left) then
    if t.mode = 2 ∧ t.execs + 1 < t.decim then modTrace s c fun t => { t with execs := t.execs + 1 }
    else
      let up := !s.gov.edge && decide (t.last < s.gov.level) && decide (s.gov.level ≤ v)
      let down := s.gov.edge && decide (s.gov.level < t.last) && decide (v ≤ s.gov.level)
      let s := if s.gov.src = 1 && s.gov.trigCh = c && (up || down) then traceFire s else s
      modTrace s c fun t => { t with
        execs := 0, last := v, buf := tabSet 0 t.buf t.writeIdx (BitVec.ofInt 32 v), writeIdx := (t.writeIdx + 1) % 65536, left := if t.state = 2 then t.left - 1 else t.left }
  else s
/-- The taps of one execution (Table 7.6). Outputs of positions in the start format are recorded times 2^16 (log entry 27). -/
def traceTaps (n : Nat) (fmt : Bool) (x r e : Int) (outs : List Int) (u v : Int) (s : State) : State :=
  each (List.range 8) (fun c s =>
    let t := getTrace s c
    if t.mode ≠ 0 ∧ t.ctx = n then
      let w : Int := if t.tap = 0 then x else if t.tap = 1 then r else if t.tap = 2 then e
        else if t.tap ≤ 18 then outs.getD (t.tap - 3) 0 * (if fmt then 1 else 65536) else if t.tap = 19 then u else v
      traceRecord c w s
    else s) s

-- One execution.

/-- The switch to the service law (R225), made when every condition holds. -/
def trySwitch (n : Nat) (e : Int) (s : State) : State :=
  let c := getCtx s n
  if c.fmt then s
  else
    let run := if e.natAbs ≤ c.swLimit then c.inRun + 1 else 0
    if c.request.isSome && serviceState s.dev && decide (c.swCount ≤ run) && !c.frozen then
      closeCause 0x3F n (modCtx (setFormat n true s) n fun c => { c with failed := false })
    else modCtx s n fun c => { c with inRun := run }

/-- One execution of a context on its input (R215–R233). -/
def runCtx (n : Nat) (input : Int) (o : LoopObs) (s : State) : State :=
  let c := getCtx s n
  if !c.enable then s
  else
    let s := modCtx s n fun c => { c with request := c.request.map (· + 1) }
    let s := if o.ce then governorCorrected s else s
    if o.romBad then romFail n s
    else if o.ue then governorFail n 2 s
    else if o.running || decide (ctxDeadline s n < o.latency) then
      let s := modCtx s n fun c => { c with overrun := satInc 8 c.overrun, ovrRun := c.ovrRun + 1, latency := min o.latency 65535 }
      if 2 ≤ (getCtx s n).ovrRun then governorFail n 7 s else s
    else
      let x := if c.inSign && decide (n < 139) then -input else input
      let (r, e, k) := softStart s n x
      let law := lawOfStart n
      let inj := if c.fmt then e + sineValue s n else e
      let xin := if c.fmt then satInt 32 inj else satInt 16 (roundHalfUp ((inj : Rat) / (2 : Rat) ^ law.inSh))
      let q := cascade (if c.fmt then 32 else 16) c.sat (positions s n) c.secs xin
      let v := if c.fmt then q.y else q.y * 2 ^ law.outSh
      let lo := clampLo s n
      let hi := clampHi s n
      let out := min (max v lo) hi
      let sat := if hi < v then 1 else if v < lo then 2 else 0
      let s := modCtx s n fun c => { c with
        rEff := r, rampK := k, secs := q.states, frozen := q.frozen, sat, out, latency := min o.latency 65535, ovrRun := 0 }
      let s := traceTaps n c.fmt x r e q.outs v out s
      let s := if c.fmt then (if sat = 0 then sineStep n e out s else endSines n s) else s
      let s := trySwitch n e s
      if (q.states.dropLast).any fun st => decide (16 ≤ st.satRun) then governorFail n 7 s else s
/-- An execution with nothing amiss. -/
def runClean (n : Nat) (input : Int) (s : State) : State := runCtx n input {} s
/-- A test context runs its fixed vector and is disabled again (R211, Table 7.4). -/
def runTest (n : Nat) (s : State) : State := disableCtx n (each (Config.testVector n) (runClean n) (enableCtx n s))
/-- The governor test contexts, 148 to 159, as SELF_CHECK runs them. -/
def runTests (s : State) : State := each ((List.range 12).map (148 + ·)) runTest s

-- Commands.

/-- Store entries that an enabled context's service law uses, or a law that waits for its row boundary. -/
def entryUsed (s : State) (k : Nat) : Bool :=
  ((List.range 139).any fun n =>
    (getCtx s n).enable && decide ((getCtx s n).servBase ≤ k) && decide (k < (getCtx s n).servBase + (getCtx s n).nServ)) ||
  s.fan.dueLaws.any fun l => decide (l.2.1 ≤ k) && decide (k < l.2.1 + l.2.2)
/-- A section entry as R216 has it. -/
def entryOk (e : BitVec 256) : Bool :=
  ([(95, 90), (89, 84), (83, 78), (77, 72), (71, 66)].all fun p => decide (16 ≤ entNat e p.1 p.2) && decide (entNat e p.1 p.2 ≤ 48)) &&
    (!e.getLsbD 65 || (decide ((coefOfEntry e).a1 = -1) && decide (entInt e 127 96 = 0) && decide (entInt e 191 160 = 0)))
/-- A law within R216 and R224. -/
def lawOk (es : List (BitVec 256)) : Bool :=
  let cs := es.map coefOfEntry
  decide (1 ≤ es.length) && decide (es.length ≤ 16) && es.all entryOk && decide ((es.filter fun e => e.getLsbD 65).length ≤ 2) &&
    cs.zipIdx.all fun q => !q.1.integ || decide (sigmaOf (cs.drop (q.2 + 1)) ≠ 0)
/-- Wedge burst with a context's law of `len` sections (R231). -/
def burstWith (s : State) (n len : Nat) : Nat :=
  let c (m : Nat) : Nat := if n < 72 || (136 ≤ n && n < 138) then 4 * m else 0
  s.gov.burst + c len - c (getCtx s n).nServ
/-- LAW_REPLACE (R228, R439): a law whose predicted phase margin is at least PM_MIN and that meets R231 is written to free entries; the plan store
keeps it, and the partner's (R441). The governor moves the context to it at a row boundary of its arm (R30), a spindle context at once. -/
def execLawReplace (ctx : Fin 160) (base : Nat) (entries : List (BitVec 256)) (phaseMargin : Nat) (s : State) : Host.Outcome State Fault Refusal := live s fun s =>
  let n := ctx.val
  let len := entries.length
  .next (
    if !fantailHalted s && hasService s n && decide (base + len ≤ 2048) && lawOk entries && decide (pmMin s.img ≤ phaseMargin) && decide (burstWith s n len ≤ 2624) &&
        (List.range len).all fun k => !(entryUsed s (base + k)) then
      let s := { s with
        fan := { s.fan with
          laws := s.fan.laws.filter (fun l => l.1 ≠ n) ++ [(n, base, entries)], dueLaws := s.fan.dueLaws.filter fun l => l.1 ≠ n },
        gov := { s.gov with store := entries.zipIdx.foldl (fun t e => tabSet 0 t (base + e.2) e.1) s.gov.store } }
      let s := each (lawRecs n base entries) (fun r s => mirror (.plan r) s) s
      if n < 136 then { s with fan := { s.fan with dueLaws := s.fan.dueLaws ++ [(n, base, len)] } } else moveLaw n base len s
    else s)

/-- Most that a sine may be on a context (R235): 1/16 of SW_LIMIT, and 0.02 track on the servo contexts. -/
def sineMax (s : State) (n : Nat) : Nat := if n < 72 then min 81 ((getCtx s n).swLimit / 16) else (getCtx s n).swLimit / 16
/-- A servo context's arm reads, or follows its track without an operation (R433). -/
def sineQuiet (s : State) (n : Nat) : Bool :=
  decide (136 ≤ n) || ((getArm s (ctxArm n)).state = 5 && !((opOf s (ctxArm n)).any fun o => writesMedium o.kind || o.visit.any fun v => v.kind = 1))
/-- SINE_INJECT_START (R235, R433). -/
def execSineInjectStart (gen : Fin 4) (ctx : Fin 160) (amplitude frequency periods : Nat) (s : State) :
    Host.Outcome State Fault Refusal := live s fun s =>
  .next (
    if s.dev = .ready ∧ (getCtx s ctx).enable ∧ (getCtx s ctx).fmt ∧ amplitude ≤ sineMax s ctx ∧ sineQuiet s ctx then
      modSine s gen fun _ => { on := true, ctx := ctx.val, amplitude, freq := frequency, periods }
    else s)

/-- TRACE_TRIGGER (R236): the condition of the armed capture has occurred. -/
def execTraceTrigger (s : State) : Host.Outcome State Fault Refusal := live s fun s => .next (traceFire s)
/-- TRACE_CAPTURE_DONE (R236): a channel that has recorded its share stops, and its capture is done. -/
def execTraceCaptureDone (ch : Fin 8) (s : State) : Host.Outcome State Fault Refusal := live s fun s =>
  .next (if (getTrace s ch).state = 2 ∧ (getTrace s ch).left = 0 then modTrace s ch fun t => { t with state := 3 } else s)

end Sys2Proof.Machine
end

