-- ==== Sys2Proof/Machine/Spindle.lean ====
section
/-! DEFINITION. The spindle (chapter 8): current sampling and field-oriented control (R241–R249), speed sensing and the data-service window
(R250–R253), start and catch (R256–R261), braking, chopper and generator (R262–R270), and spindle faults (R271, R272). -/

namespace Sys2Proof.Machine

-- Motor quantities: currents in mA, voltages in mV.

def sqrt3 : Rat := Config.sqrtRat 3
/-- Electrical angular speed in rad/s of a speed in rpm. -/
def omegaOf (s : State) (rpm : Rat) : Rat := rpm * polePairs s.img * 2 * Config.piRat / 60
/-- Observer speed in rpm (R248). -/
def obsRpm (s : State) : Rat := s.spc.obs.omega * 60 / (2 * Config.piRat * polePairs s.img)
/-- Median of a list of integers; the mean of the two middle values of an even number (R258). -/
def medianRat (xs : List Int) : Rat :=
  let ys := xs.mergeSort (· ≤ ·)
  let n := ys.length
  if n % 2 = 1 then (ys.getD (n / 2) 0 : Rat) else ((ys.getD (n / 2 - 1) 0 + ys.getD (n / 2) 0 : Int) : Rat) / 2
/-- Temperature T of R258 in °C. -/
def motorTemp (s : State) : Rat :=
  let ts := (List.range 8).filterMap fun a => if (getAlk s a).link = 2 then (getAlk s a).stackTemp else none
  if ts.isEmpty then 25 else medianRat ts / 16
/-- Compensated Ke in mV per 1,000 rpm (R258). -/
def keComp (s : State) : Rat := (keNom s.img : Rat) * (1 + (keTc s.img : Rat) / 1000000 * (motorTemp s - 25))
/-- Flux linkage that the compensated Ke implies, in mV·s (R245). -/
def fluxOf (s : State) : Rat := keComp s / 1000 / sqrt3 / (omegaOf s 1)
/-- Phase resistance in use, mΩ (Table 8.9 R_EST). -/
def rUse (s : State) : Rat := if s.spn.rEst = 0 then (rPh s.img : Rat) else (s.spn.rEst : Rat) / 10

/-- A conversion within its valid range (R241, Table 21.8). -/
def convIn (lo hi : Nat) (c : Option Nat) : Option Int := c.bind fun k => if lo ≤ k && k ≤ hi then some (k : Int) else none
/-- A channel's quantity in mA or mV, from a gain in µA or µV a step (R241, R568). -/
def scaled (gain : Nat) (steps : Rat) : Rat := steps * gain / 1000
/-- Low-side on-time in ns of a phase in the running period (R243). -/
def lowTime (d : Rat) : Rat := (1 - d) * 20833
/-- A phase has its window for a shunt sample (R243): the gates are driven and the low side is on for T_MIN. -/
def hasWindow (s : State) (d : Rat) : Bool := s.spc.gates && decide ((tMin s.img : Rat) ≤ lowTime d)
/-- Phase current in mA of a shunt conversion, its offset taken away (R242). -/
def currentOf (s : State) (off : Int) (c : Option Nat) : Option Int := (convIn 16 4079 c).map fun k => roundHalfUp (scaled (shuntGain s.img) (k - off : Int))
/-- Phase currents of a period (R243): one missing phase formed from the other two; none when fewer than two phases have their window, or
a window's conversion is missing or out of range. -/
def phaseCurrents (s : State) (m : PwmSample) : Option (Int × Int × Int) :=
  let d := s.spc.duty
  let get (d : Rat) (off : Int) (c : Option Nat) : Option (Option Int) := if hasWindow s d then (currentOf s off c).map some else some none
  match get d.1 s.spc.offA m.shunt.a, get d.2.1 s.spc.offB m.shunt.b, get d.2.2 s.spc.offC m.shunt.c with
  | some (some a), some (some b), some (some c) => some (a, b, c)
  | some none, some (some b), some (some c) => some (-(b + c), b, c)
  | some (some a), some none, some (some c) => some (a, -(a + c), c)
  | some (some a), some (some b), some none => some (a, b, -(a + b))
  | _, _, _ => none

/-- One step of the observer (R248) on measured currents in the stationary frame, and the runs that R249 judges lock by. -/
def observerStep (iA iB : Rat) (s : State) : State :=
  let o := s.spc.obs
  let r := rPh s.img
  let l := lPh s.img
  let k : Rat := 1000000 / (48000 * l)
  let step (ih e v i : Rat) : Rat := ih + k * (v - rUse s * i / 1000 - e) + Config.obsG1 r l * (i - ih)
  let hA := step o.iA o.eA o.vA iA
  let hB := step o.iB o.eB o.vB iB
  let eA := o.eA - Config.obsG2 r l * (iA - hA)
  let eB := o.eB - Config.obsG2 r l * (iB - hB)
  let mag := Config.sqrtRat (eA * eA + eB * eB)
  let eps := (-(eA * Config.cosRat o.theta) - eB * Config.sinRat o.theta) / mag
  let omega := o.omega + Config.obsKi r l * eps
  let emf := |omega| * fluxOf s
  let run (c : Prop) [Decidable c] (n : Nat) : Nat := if c then min 96 (n + 1) else 0
  { s with spc := { s.spc with
      obs := { o with
        iA := hA, iB := hB, eA, eB, eps, omega, theta := o.theta + omega / 48000 + Config.obsKp r l * eps },
      lockEps := (|eps| :: s.spc.lockEps).take 48,
      lockRun := run (emf ≤ 2 * mag) s.spc.lockRun,
      epsRun := run (1 / 2 < |eps|) s.spc.epsRun,
      faintRun := run (4 * mag < emf) s.spc.faintRun } }
/-- Lock (R249): over the last 1 ms, 48 periods, the mean |eps| is below 0.1 rad and the back-EMF has stood. -/
def lockHolds (s : State) : Bool := decide (48 ≤ s.spc.lockRun) && s.spc.lockEps.length = 48 && decide (s.spc.lockEps.sum < 48 / 10)
/-- Loss of lock (R249): 2 ms, 96 periods, of either condition. -/
def lockGone (s : State) : Bool := decide (96 ≤ s.spc.epsRun) || decide (96 ≤ s.spc.faintRun)

/-- Time in s since open-loop drive began. -/
def openTime (s : State) : Rat := (since s s.spc.openAt : Rat) / oneSec
/-- Open-loop speed in rpm (R260): it rises at IF_ACCEL and stands at N_HANDOFF (log entry 45). -/
def openRpm (s : State) : Rat := min (nHandoff s.img) (ifAccel s.img * openTime s)
/-- Mechanical turn of open-loop drive in rpm·s. -/
def openTurn (s : State) : Rat :=
  let t := openTime s
  let t1 : Rat := (nHandoff s.img : Rat) / ifAccel s.img
  if t ≤ t1 then (ifAccel s.img : Rat) * t * t / 2 else (nHandoff s.img : Rat) * (t - t1 / 2)
/-- Angle of the current vector: the observer's, or in a start from rest the fixed angle and then the open-loop one (R260). -/
def driveAngle (s : State) : Rat :=
  if s.spn.mode = 3 then Config.alignAngle
  else if s.spn.mode = 4 then Config.alignAngle + omegaOf s 1 * openTurn s
  else s.spc.obs.theta

/-- The source of i_q*: the speed loop, the bus loop, or a constant (R212, R245, R260, R262). -/
def iqStar (s : State) : Int :=
  if (s.spn.mode = 5 || s.spn.mode = 6) && (getCtx s 138).enable then (getCtx s 138).out
  else if s.spn.mode = 10 && (getCtx s 139).enable then (getCtx s 139).out
  else s.spc.iqSet

/-- Flux linkage of the last Ke measurement at the present head-stack temperature, in mV·s (R434); of the compensated Ke before the first. -/
def fluxMeasured (s : State) : Rat :=
  if s.spn.keMeas = 0 then fluxOf s
  else
    let tc : Rat := (keTc s.img : Rat) / 1000000
    (s.spn.keMeas : Rat) * (1 + tc * (motorTemp s - 25)) / (1 + tc * (s.spc.keTemp - 25)) / 1000 / sqrt3 / omegaOf s 1
/-- Common mode of three duties that gives at least two phases their window (R243): centred, and lowered where the middle duty would
pass D_MAX (log entry 45). -/
def commonMode (dMax lo mid hi : Rat) : Rat := min (1 / 2 - (lo + hi) / 2) (dMax - mid)
/-- The duties of the next period. -/
def sendDuty (a b c : Rat) (s : State) : State := send (.duty a b c (deadT s.img)) { s with spc := { s.spc with duty := (a, b, c) } }

def signR (x : Int) : Rat := if 0 < x then 1 else if x < 0 then -1 else 0
/-- Steps 1 to 7 of R245 on the phase currents, with R244 and R246. -/
def focStep (m : PwmSample) (ia ib ic : Int) (vbus : Nat) (s : State) : State :=
  let th := driveAngle s
  let co := Config.cosRat th
  let si := Config.sinRat th
  let iA : Rat := ia
  let iB : Rat := ((ia + 2 * ib : Int) : Rat) / sqrt3
  let iD := iA * co + iB * si
  let iQ := iB * co - iA * si
  let s := if s.spn.mode = 10 then runCtx 139 vbus m.loopBus s else s
  let s := setSetpoint 137 (iqStar s) (setSetpoint 136 0 s)
  let s := runCtx 137 (roundHalfUp iQ) m.loopQ (runCtx 136 (roundHalfUp iD) m.loopD s)
  let w := if s.spn.mode = 3 || s.spn.mode = 4 then 0 else s.spc.obs.omega
  let l : Rat := (lPh s.img : Rat) / 1000000
  let vd0 := ((getCtx s 136).out : Rat) / 10 - w * l * iQ
  let vq0 := ((getCtx s 137).out : Rat) / 10 + w * l * iD + w * fluxOf s
  let lim : Rat := (modMax s.img : Rat) / 1000 * vbus / sqrt3
  let vd := max (-lim) (min lim vd0)
  let qLim := Config.sqrtRat (lim * lim - vd * vd)
  let vq := max (-qLim) (min qLim vq0)
  let limited := decide (vq ≠ vq0)
  let s := { s with spn := { s.spn with vlimit := limited, iD := satInt 16 (roundHalfUp (iD / 2)), iQ := satInt 16 (roundHalfUp (iQ / 2)) } }
  let s := if limited then
      let s := modCtx s 137 fun c => { c with sat := if 0 < vq0 then 1 else 2 }
      modCtx s 138 fun c => { c with sat := if 0 < c.out then 1 else 2 }
    else s
  let slow := limited && (getCtx s 138).enable && decide (1000 * s.spn.speed < 995 * (getCtx s 138).setpoint)
  let s := { s with spc := { s.spc with satSince := if slow then some (s.spc.satSince.getD (now s)) else none } }
  let s := if 2000 ≤ |iQ| then { s with spc := { s.spc with rSum := s.spc.rSum + (vq - w * fluxMeasured s) / iQ, rCount := s.spc.rCount + 1 } } else s
  let s := if s.spn.mode = 10 then
      let low := decide ((getCtx s 139).out ≤ -(1000 * genImax s.img : Int)) && decide (vbus < 10000)
      { s with spc := { s.spc with genLow := if low then min 480 (s.spc.genLow + 1) else 0 } }
    else s
  let dead (i : Int) : Rat := signR i * deadT s.img / 20833 * vbus
  let alpha := vd * co - vq * si
  let beta := vd * si + vq * co
  let va := alpha + dead ia
  let vb := -alpha / 2 + sqrt3 / 2 * beta + dead ib
  let vc := -alpha / 2 - sqrt3 / 2 * beta + dead ic
  let lo := min va (min vb vc)
  let hi := max va (max vb vc)
  let mid := va + vb + vc - lo - hi
  let dMax : Rat := 1 - (tMin s.img : Rat) / 20833
  let scale := if dMax * vbus < mid - lo then dMax * vbus / (mid - lo) else 1
  let s := if scale < 1 then { s with spn := { s.spn with clip := satInc 16 s.spn.clip } } else s
  let s := observerStep iA iB s
  let s := { s with spc := { s.spc with obs := { s.spc.obs with vA := (2 * va - vb - vc) / 3, vB := (vb - vc) / sqrt3 } } }
  let mw := roundHalfUp (3 / 2 * (vd * iD + vq * iQ) / 1000)
  let s := { s with slu := { s.slu with
    driveSince := some (s.slu.driveSince.getD (now s)),
    spinPower := (s.slu.spinPower.filter fun p => decide (now s < p.1 + 100000000)) ++ [(now s, mw)] } }
  let d (v : Rat) : Rat := v * scale / vbus
  let shift := commonMode dMax (d lo) (d mid) (d hi)
  checkFloor (sendDuty (d va + shift) (d vb + shift) (d vc + shift) s)

-- Conditions that a period's samples show.

/-- V_BUS above 16.0 V: gates and chopper off within the period, in any state by R266 (log entry 28). -/
def overvoltage (s : State) : State :=
  let s := startCoast s
  let s := if s.spn.chopOn then send (.chopper false) { s with spn := { s.spn with chopOn := false } } else s
  report { master := mMotion, cause := 7, event := 0x2D } (spnEvent 0x2D [] { s with spc := { s.spc with overvolt := true } })
/-- A phase current above I_OC (Table 8.5): a third instance within 1 s leads to R272. -/
def overcurrent (s : State) : State :=
  let times := now s :: recent s oneSec s.spc.ocTimes
  let s := { s with spc := { s.spc with ocTimes := times }, spn := { s.spn with overcurrent := satInc 8 s.spn.overcurrent } }
  spindleFault 0x2A true [] (fun s => if 3 ≤ times.length then spindleLost 0x2A s else openCause 0x2A 0 false (catchOwed s))
    (if s.dev = .holdUp then s else gatesOff s)
/-- The commanded voltage that the observer's next step takes. -/
def setObsV (vA vB : Rat) (s : State) : State := { s with spc := { s.spc with obs := { s.spc.obs with vA, vB } } }
/-- The currents of a period in the rotor's frame go to SPN_ELEC (Table 8.8). -/
def noteDq (iA iB : Rat) (s : State) : State :=
  let co := Config.cosRat (driveAngle s)
  let si := Config.sinRat (driveAngle s)
  { s with spn := { s.spn with iD := satInt 16 (roundHalfUp ((iA * co + iB * si) / 2)), iQ := satInt 16 (roundHalfUp ((iB * co - iA * si) / 2)) } }
/-- Short-brake in Hold-up above V_BUS_MAX, which ends generation when V_BUS is below VH_CHOP_ON again (R268, R269). -/
def holdUpBus (vbus : Nat) (s : State) : State :=
  if s.dev ≠ .holdUp then s
  else if s.spn.mode = 10 && decide (14500 < vbus) then
    let s := spnReport 0x2C [] false (startShortBrake s)
    { s with spc := { s.spc with shortBrakeHu := true } }
  else if s.spc.shortBrakeHu && decide (vbus < vhChopOn s.img) then
    generatorEnd { s with spc := { s.spc with shortBrakeHu := false } }
  else s
/-- A period of short-brake (R265): the two zero vectors in equal halves, or all gates off for the rest of a period above SB_ILIM and for
the next. The observer runs on the zero voltage (R248). -/
def shortBrakePeriod (ia ib : Int) (imax : Nat) (s : State) : State :=
  let iA : Rat := ia
  let iB : Rat := ((ia + 2 * ib : Int) : Rat) / sqrt3
  let s := setObsV 0 0 (observerStep iA iB (noteDq iA iB s))
  if 1000 * sbIlim s.img < imax then { gatesOff s with spc := { (gatesOff s).spc with gatesOffPeriods := 2 } }
  else sendDuty (1 / 2) (1 / 2) (1 / 2) s
/-- Modes in which short-brake runs: 8, and the wait below 60 rpm with CATCH_SB = 1. -/
def braking (s : State) : Bool := s.spn.mode = 8 || (s.spn.mode = 11 && catchSb s.img = 1)

/-- A period of the offset measurement (R242): the sums of up to 1,024 samples a channel, with the gates low. -/
def gatherOffsets (m : PwmSample) (s : State) : State :=
  match convIn 16 4079 m.shunt.a, convIn 16 4079 m.shunt.b, convIn 16 4079 m.shunt.c with
  | some a, some b, some c =>
    if s.spc.offsetN < 1024 then
      let t := s.spc.offsetSum
      { s with spc := { s.spc with offsetSum := (t.1 + a, t.2.1 + b, t.2.2 + c), offsetN := s.spc.offsetN + 1 } }
    else s
  | _, _, _ => s
/-- The back-EMF space vector of one set of phase voltages, in mV (R257). -/
def emfVector (s : State) (p : PhaseCodes) : Option (Rat × Rat) :=
  match convIn 0 4079 p.a, convIn 0 4079 p.b, convIn 0 4079 p.c with
  | some a, some b, some c => some (scaled (vphGain s.img) ((2 * a - b - c : Int) / 3), scaled (vphGain s.img) ((b - c : Int) / sqrt3))
  | _, _, _ => none
/-- Electrical rotation that ends a catch measurement early, two cycles (R257). -/
def catchEnough (s : State) : Bool := decide (3840 ≤ s.spc.catchN) || decide (4 * Config.piRat ≤ |s.spc.catchTurn|)
/-- One sample of the catch measurement (R257): its rotation from the one before, and its magnitude. -/
def gatherEmf (p : PhaseCodes) (s : State) : State :=
  match emfVector s p with
  | none => s
  | some v =>
    if catchEnough s then s
    else
      let turn : Rat := match s.spc.catchLast with
        | some u => Config.angleRat (u.1 * v.1 + u.2 * v.2) (u.1 * v.2 - u.2 * v.1)
        | none => 0
      let mag := Config.sqrtRat (v.1 * v.1 + v.2 * v.2)
      { s with spc := { s.spc with
          catchN := s.spc.catchN + 1, catchTurn := s.spc.catchTurn + turn, catchSum := s.spc.catchSum + mag,
          catchMax := max s.spc.catchMax mag, catchLast := some v } }

/-- Every conversion that the period needs is there and in range (R241): phase voltages, V_BUS, chopper current, and the shunts whose phase
has its window, or all three in an offset measurement. -/
def periodOk (s : State) (m : PwmSample) : Bool :=
  let volts (p : PhaseCodes) : Bool := [p.a, p.b, p.c].all fun c => (convIn 0 4079 c).isSome
  volts m.volt && (s.spc.gates || volts m.volt2) && (convIn 0 4079 m.vbus).isSome && (convIn 0 4079 m.ichop).isSome &&
    (!s.spc.gates || (phaseCurrents s m).isSome) &&
    (s.spn.mode ≠ 1 || [m.shunt.a, m.shunt.b, m.shunt.c].all fun c => (convIn 16 4079 c).isSome)
/-- A period with the gates off: no current flows, and the observer runs on the phase voltages, which are the back-EMF then (R248; log entry 45). -/
def coastPeriod (m : PwmSample) (s : State) : State :=
  match emfVector s m.volt with
  | some v => observerStep 0 0 (setObsV v.1 v.2 s)
  | none => s
/-- What a period does at a V_BUS of 16.0 V or less: the measurements of a start, the limits of the phase currents, the drive. -/
def runPeriod (m : PwmSample) (vbus : Nat) (s : State) : State :=
  let s := if s.spc.gates then s else coastPeriod m s
  if s.spn.mode = 1 then gatherOffsets m s
  else if s.spn.mode = 2 then gatherEmf m.volt2 (gatherEmf m.volt s)
  else if 0 < s.spc.gatesOffPeriods then
    let s := { s with spc := { s.spc with gatesOffPeriods := s.spc.gatesOffPeriods - 1 } }
    if s.spc.gatesOffPeriods = 0 && braking s then gatesOn s else s
  else if !s.spc.gates then s
  else match phaseCurrents s m with
    | none => s
    | some (ia, ib, ic) =>
      let imax := max ia.natAbs (max ib.natAbs ic.natAbs)
      if 1000 * iOc s.img < imax then overcurrent s
      else if braking s then shortBrakePeriod ia ib imax s
      else focStep m ia ib ic vbus s
/-- A period without a conversion that it needs runs no loop step (log entry 45). -/
def goodPeriod (ok : Bool) (m : PwmSample) (vbus : Nat) (s : State) : State := if ok then runPeriod m vbus (holdUpBus vbus s) else s

/-- Pace head of an arm (R189): the lowest-numbered one in TRACK, SEEK or SETTLE. -/
def paceHead (s : State) (a : Nat) : Option Nat :=
  ((List.range 8).map (8 * a + ·)).find? fun n => decide (2 ≤ (getHead s n).state) && decide ((getHead s n).state ≤ 4)
/-- Ŵ of the pace heads of the arms in TRACK. -/
def paceW (s : State) : List Int :=
  ((armList s).filter fun a => (getArm s a).state = 5).filterMap fun a => (paceHead s a).map fun n => (getHead s n).wHat
/-- Lowest-numbered pace head of the arms in TRACK (R250). -/
def leadPace (s : State) : Option Nat := ((armList s).filter fun a => (getArm s a).state = 5).findSome? (paceHead s)
/-- The wedges time the speed samples: they are the source, and an arm is in TRACK (R250, R251). -/
def bySource (s : State) : Bool := s.spc.source && (leadPace s).isSome
/-- PWM_PERIOD (R241–R249, R257, R265, R266, R268; Table 8.5). -/
def execPwmPeriod (m : PwmSample) (s : State) : Host.Outcome State Fault Refusal := live s fun s =>
  let ok := periodOk s m
  let s := { s with spc := { s.spc with
    badPeriods := if ok then 0 else min 3 (s.spc.badPeriods + 1), decim := if bySource s then s.spc.decim else min 31 (s.spc.decim + 1) } }
  let s := { s with spn := { s.spn with vlimit := false, iD := 0, iQ := 0 } }
  let s := match convIn 0 4079 m.ichop with
    | some k => { s with spn := { s.spn with ichop := min 65535 (roundHalfUp (scaled (ichopGain s.img) k)).toNat } }
    | none => s
  .next (match convIn 0 4079 m.vbus with
    | none => s
    | some k =>
      let v := (roundHalfUp (scaled (vbusGain s.img) k)).toNat
      let s := { s with spn := { s.spn with vbus := min 65535 v }, spc := { s.spc with vbusRises := decide (s.spn.vbus < v) } }
      if 16000 < v then (if s.spc.overvolt then s else overvoltage s) else goodPeriod ok m v s)

-- Starts.

/-- Response to a sense fault in service (Table 8.5): gates off and a handover to the partner when present, otherwise R272; in Takeover
R272, for no partner remains (R271). -/
def senseLost (s : State) : State := if s.dev = .takeover then spindleLost 0x29 s else failStop 0x29 (startCoast s)

/-- Rotation of the catch measurement in electrical rad/s: samples are 10.4 µs apart, two a period (R257). -/
def catchOmega (s : State) : Rat := s.spc.catchTurn * 96000 / (s.spc.catchN - 1 : Nat)
/-- Speed of the catch measurement in rpm. -/
def catchSpeed (s : State) : Int := roundHalfUp (catchOmega s * 60 / (2 * Config.piRat * polePairs s.img))
/-- Line-to-line peak amplitude of the catch measurement in mV (R257). -/
def catchAmplitude (s : State) : Rat := sqrt3 * s.spc.catchSum / s.spc.catchN
/-- Below 60 rpm (R257): for the full 40 ms the amplitude has stayed below that of 60 rpm at 0.92 of KE_NOM. -/
def catchSlow (s : State) : Bool := decide (3840 ≤ s.spc.catchN) && decide (sqrt3 * s.spc.catchMax < (92 : Rat) / 100 * keNom s.img * 60 / 1000)
/-- The observer synchronised to the measured angle and speed (R257, Table 8.3): its back-EMF stands a quarter turn ahead of the rotor. -/
def presetObserver (rpm : Int) (s : State) : State :=
  let e := s.spc.catchLast.getD (0, 0)
  { s with
    spc := { s.spc with
      obs := { omega := catchOmega s, theta := Config.angleRat e.1 e.2 - Config.piRat / 2, eA := e.1, eB := e.2 },
      lockEps := [], lockRun := 0, epsRun := 0, faintRun := 0 },
    spn := { s.spn with speed := 65536 * rpm } }
/-- Start from rest (R260): alignment at I_ALIGN. -/
def startFromRest (s : State) : State :=
  let s := gatesOn (enableCtx 137 (enableCtx 136 (inverterOff s)))
  { s with
    spn := { s.spn with mode := 3 },
    spc := { s.spc with
      iqSet := 1000 * iAlign s.img, fromRest := true, obs := {}, lockEps := [], lockRun := 0, epsRun := 0, faintRun := 0 } }
/-- Wait for the spindle to fall below 60 rpm, coasting or short-braking (Table 8.3, R259). -/
def startSlowWait (s : State) : State :=
  let s := inverterOff s
  let s := { s with spn := { s.spn with mode := 11 } }
  if catchSb s.img = 1 && mayDrive s then spnReport 0x2C [] false (gatesOn s) else s
/-- Closed current loops on the observer at i_q* = 0; the speed loop follows when the observer locks (Tables 8.3, 8.4). -/
def closeLoops (rpm : Int) (s : State) : State :=
  let s := gatesOn (enableCtx 137 (enableCtx 136 (inverterOff s)))
  let s := presetObserver rpm s
  { s with
    spn := { s.spn with mode := 5 },
    spc := { s.spc with iqSet := 0, everWindow := false, goodMeans := 0, means := [], outSince := none, source := false, fromRest := false } }
/-- The speed loop closes from the measured speed (R222, R255, R260). -/
def closeSpeedLoop (s : State) : State := if (getCtx s 138).enable then s else applySetpoint (enableCtx 138 s)

/-- A catch that follows a Fault-hold (R272): states that hold heads loaded, Takeover apart. -/
def afterHoldState : DevState → Bool | .loading => true | .ready => true | .faultHold => true | _ => false

/-- Mean of a channel's offset samples in codes. -/
def offsetOf (sum : Int) (n : Nat) : Int := roundHalfUp ((sum : Rat) / n)
/-- Beyond ±5% of full scale: zero current stands at the middle of the 4,096 codes (log entry 45). -/
def offsetBad (k : Int) : Bool := decide (5 * 4096 < 100 * (k - 2048).natAbs)
/-- The offset measurement that has ended found a channel beyond ±5% of full scale (R242). -/
def offsetsBad (s : State) : Bool :=
  let t := s.spc.offsetSum
  s.spn.mode = 1 && s.spc.offsetN = 1024 && [t.1, t.2.1, t.2.2].any fun k => offsetBad (offsetOf k 1024)
/-- OFFSET_MEASURE_DONE (R242, R256): the means are kept, or one beyond ±5% of full scale is a sense fault. -/
def execOffsetMeasureDone (s : State) : Host.Outcome State Fault Refusal := live s fun s =>
  .next (
    if s.spn.mode = 1 && s.spc.offsetN = 1024 then
      if offsetsBad s then spindleFault 0x29 false [] senseLost s
      else
        let t := s.spc.offsetSum
        startCatch { s with spc := { s.spc with offA := offsetOf t.1 1024, offB := offsetOf t.2.1 1024, offC := offsetOf t.2.2 1024, offsetsDone := true } }
    else s)

/-- Below 60 rpm, in either direction (R257, R259, R262). -/
def underSixty (s : State) : Bool := decide (s.spn.speed.natAbs < 65536 * 60)
/-- Ke check (R258): KE_MEAS, KE_RATIO, and whether the ratio is within 0.92 to 1.08; the fantail takes the ratio as a margin (Table 14.1). -/
def keCheck (rpm : Int) (amplitude : Rat) (s : State) : Bool × State :=
  if rpm.natAbs < 300 then (true, s)
  else
    let ke : Rat := amplitude * 1000 / rpm.natAbs
    let ratio := ke / keComp s
    let s := { s with
      spn := { s.spn with keMeas := min 65535 (roundHalfUp ke).toNat, keRatio := min 65535 (roundHalfUp (ratio * 32768)).toNat },
      spc := { s.spc with keTemp := motorTemp s } }
    (decide (92 / 100 ≤ ratio) && decide (ratio ≤ 108 / 100), if fantailHalted s then s else judgeMargin .ke {} (ratio * 32768) s)

/-- What a measured speed leads to (Table 8.3, R270, R272). -/
def classifyCatch (rpm : Int) (slow : Bool) (amplitude : Rat) (s : State) : State :=
  let (keOk, s) := if slow then (true, s) else keCheck rpm amplitude s
  if s.dev = .holdUp then
    let s := if keOk then s else spnEvent 0x24 [] s
    if !slow && (genMin s.img : Int) ≤ rpm && mayDrive s then startGenerator (closeLoops rpm (spnEvent 0x21 [] s)) else generatorEnd s
  else
    let s := if slow then s else spnEvent (if rpm < 0 then 0x22 else 0x21) [] s
    if !keOk then spindleFault 0x24 false [] (spindleLost 0x24) (gatesOff s)
    else if afterHoldState s.dev && (slow || !(speedHeld s)) then spindleLost s.flt.holdCause s
    else if !mayDrive s then startCoast s
    else if slow then startFromRest s
    else if 300 < rpm then closeLoops rpm s
    else startSlowWait s
/-- CATCH_MEASURE_DONE (R257, R258, R270, R272; Table 8.3): 40 ms of samples, or two electrical cycles. -/
def execCatchMeasureDone (s : State) : Host.Outcome State Fault Refusal := live s fun s =>
  .next (
    if s.spn.mode = 2 && catchEnough s then
      let rpm := catchSpeed s
      classifyCatch rpm (catchSlow s) (catchAmplitude s)
        { s with spc := { s.spc with unmeasured := false }, spn := { s.spn with catches := satInc 8 s.spn.catches, catchRpm := satInt 16 rpm, dir := decide (rpm < 0), speed := satInt 32 (65536 * rpm) } }
    else s)

/-- SLOW_WAIT_DONE (R259, R260): below 60 rpm. The one more start after a failed handoff begins as every start does (R242, R256). -/
def execSlowWaitDone (s : State) : Host.Outcome State Fault Refusal := live s fun s =>
  .next (
    if s.spn.mode ≠ 11 || !(underSixty s) then s
    else if !mayDrive s then startCoast s
    else if s.spc.restart then startOffsets s
    else startFromRest s)
/-- SLOW_WAIT_TIMEOUT (R259). -/
def execSlowWaitTimeout (s : State) : Host.Outcome State Fault Refusal := live s fun s =>
  .next (if s.spn.mode = 11 then spindleFault 0x23 false [] (spindleLost 0x23) (startCoast s) else s)
/-- ALIGN_DONE (R260 step 2): the current vector turns at I_IF. -/
def execAlignDone (s : State) : Host.Outcome State Fault Refusal := live s fun s =>
  .next (if s.spn.mode = 3 then { s with spn := { s.spn with mode := 4 }, spc := { s.spc with iqSet := 1000 * iIf s.img, openAt := now s } } else s)
/-- OBSERVER_HANDOFF (R260 steps 3 and 4): at N_HANDOFF, locked, within ±10% of the open-loop speed. -/
def execObserverHandoff (s : State) : Host.Outcome State Fault Refusal := live s fun s =>
  .next (
    if s.spn.mode = 4 && s.spn.lock && decide ((nHandoff s.img : Rat) ≤ openRpm s) && decide (10 * |obsRpm s - openRpm s| ≤ openRpm s) then
      closeSpeedLoop { s with
        spn := { s.spn with mode := 5, speed := satInt 32 (roundHalfUp (65536 * obsRpm s)) }, spc := { s.spc with iqSet := 0, source := false } }
    else s)
/-- HANDOFF_TIMEOUT (R260): the inverter goes off for one more start; a second failure is a spindle fault. -/
def execHandoffTimeout (s : State) : Host.Outcome State Fault Refusal := live s fun s =>
  .next (
    if s.spn.mode = 4 then
      let s := { s with spc := { s.spc with handoffFails := s.spc.handoffFails + 1 } }
      if 2 ≤ s.spc.handoffFails then spindleFault 0x25 false [] (spindleLost 0x25) (startCoast s)
      else startSlowWait { s with spc := { s.spc with restart := true } }
    else s)
/-- CATCH_AT_1000 (R260 step 5). -/
def execCatchAt1000 (s : State) : Host.Outcome State Fault Refusal := live s fun s =>
  .next (
    if s.spn.mode = 5 && s.spc.fromRest && decide (rpm16 1000 ≤ s.spn.speed) then
      startCatch { s with spc := { s.spc with fromRest := false } }
    else s)
/-- SPINUP_COMPLETE (R261): within ±0.5% of N_SVC for 100 ms: event 0x20, and Loading begins. -/
def execSpinupComplete (s : State) : Host.Outcome State Fault Refusal := live s fun s =>
  .next (
    if s.dev = .spinningUp && s.spn.mode = 5 && (getCtx s 138).enable && s.spc.nearSince.isSome then
      enterLoading (spnEvent 0x20 [] s)
    else s)
/-- SU_TIMEOUT (R261, R271): a spindle fault, in Takeover with R272. -/
def execSuTimeout (s : State) : Host.Outcome State Fault Refusal := live s fun s =>
  .next (
    if ((s.dev = .spinningUp && !s.spn.budgetPause) || s.dev = .takeover) && decide (suTimeout s.img * oneSec ≤ since s s.spc.startAt - s.spc.pausedFor) then
      spindleFault 0x26 false [] (spindleLost 0x26) s else s)

/-- OBSERVER_LOCK (R249): the speed loop closes after a catch (Table 8.4). -/
def execObserverLock (s : State) : Host.Outcome State Fault Refusal := live s fun s =>
  .next (
    if s.spc.gates && !s.spn.lock && !braking s && lockHolds s then
      let s := { s with spn := { s.spn with lock := true } }
      if s.spn.mode = 5 || s.spn.mode = 6 then closeSpeedLoop (closeCause 0x2A 0 (closeCause 0x2F 1 s)) else s
    else s)
/-- OBSERVER_LOCK_LOSS (R249; Table 8.5): gates off, Fault-hold, and a catch. In open-loop drive only the lock goes. -/
def execObserverLockLoss (s : State) : Host.Outcome State Fault Refusal := live s fun s =>
  .next (
    if s.spn.lock && lockGone s then
      let closed := s.spn.mode ≠ 4 && s.spn.mode ≠ 3
      let s := { s with spn := { s.spn with lock := false } }
      if closed then
        spindleFault 0x2F true [b1 1] (fun s => startOffsets (openCause 0x2F 1 false (catchOwed s))) (if s.dev = .holdUp then s else gatesOff s)
      else s
    else s)
/-- OVERCURRENT_RECATCH (Table 8.5): the catch of an overcurrent, through the offset measurement (R256). -/
def execOvercurrentRecatch (s : State) : Host.Outcome State Fault Refusal := live s fun s =>
  .next (if s.spc.recatchDue && s.spn.mode = 9 && (afterHoldState s.dev || s.dev = .takeover) then startOffsets s else s)
/-- SENSE_FAULT (Table 8.5): a bad offset, or a conversion bad for 2 periods. -/
def execSenseFault (offsets : Bool) (s : State) : Host.Outcome State Fault Refusal := live s fun s =>
  .next (
    if if offsets then offsetsBad s else decide (2 ≤ s.spc.badPeriods) then
      spindleFault 0x29 false [] senseLost { s with spc := { s.spc with badPeriods := 0 } }
    else s)

-- Bus and chopper.

/-- The spindle must keep turning: heads are loaded or on their way (R266). -/
def mustTurn (s : State) : Bool :=
  (s.dev = .spinningUp && !s.spn.budgetPause) || afterHoldState s.dev || s.dev = .takeover
/-- A controlled spin-down runs or is due (R262): the spindle need not keep turning. -/
def stopDue (s : State) : Bool := s.spc.stopping || s.start.parkStep = 5 || s.flt.stopStep = 3
/-- BUS_OV_RECOVER (R266): V_BUS has stayed below V_CHOP_ON for 10 ms. The part may drive again: a waiting start begins (R255), a stop goes on
(R262), and a spindle that must keep turning is caught. -/
def execBusOvRecover (s : State) : Host.Outcome State Fault Refusal := live s fun s =>
  .next (
    if s.spc.overvolt && decide (s.spn.vbus < vChopOn s.img) then
      let s := { s with spc := { s.spc with overvolt := false } }
      if s.dev = .parked then trySpinUp s
      else if !s.ptn.activeOut then s
      else if stopDue s && s.dev ≠ .holdUp then spindleStop s
      else if mustTurn s then startOffsets s
      else if s.dev = .holdUp && !s.spc.generatorEnded then (if s.spc.offsetsDone then startCatch s else startOffsets s)
      else s
    else s)
/-- BUS_UNDERVOLTAGE (Table 8.5): below 10.5 V for 1 ms with no power failure detected. -/
def execBusUndervoltage (s : State) : Host.Outcome State Fault Refusal := live s fun s =>
  .next (if s.dev = .holdUp || s.hold.source ≠ 0 || 10500 ≤ s.spn.vbus then s else spindleFault 0x2D true [] id s)
def chopOnAt (s : State) : Nat := if s.dev = .holdUp then vhChopOn s.img else vChopOn s.img
def chopOffAt (s : State) : Nat := if s.dev = .holdUp then vhChopOff s.img else vChopOff s.img
/-- V_BUS in mV of a conversion, and the chopper current in mA, within their valid range (R241). -/
def busOf (s : State) (code : Nat) : Option Nat := (convIn 0 4079 (some code)).map fun k => (roundHalfUp (scaled (vbusGain s.img) k)).toNat
def chopOf (s : State) (code : Nat) : Option Nat := (convIn 0 4079 (some code)).map fun k => (roundHalfUp (scaled (ichopGain s.img) k)).toNat
/-- CHOPPER_ON (R240, R263): `vbus` is the conversion. -/
def execChopperOn (vbus : Nat) (s : State) : Host.Outcome State Fault Refusal := live s fun s =>
  .next (match busOf s vbus with
    | some v =>
      if mayDrive s && !s.spn.chopOn && decide (chopOnAt s < v) then
        send (.chopper true) { s with spn := { s.spn with chopOn := true, vbus := min 65535 v } }
      else s
    | none => s)
/-- CHOPPER_OFF (R263): `vbus` is the conversion. -/
def execChopperOff (vbus : Nat) (s : State) : Host.Outcome State Fault Refusal := live s fun s =>
  .next (match busOf s vbus with
    | some v =>
      if s.spn.chopOn && decide (v < chopOffAt s) then send (.chopper false) { s with spn := { s.spn with chopOn := false, vbus := min 65535 v } } else s
    | none => s)
/-- A condition of R264 at a chopper current in mA: 0 no current 10 µs after turn-on, 1 V_BUS still rises 0.5 V above the threshold, 2 current while off. -/
def chopperBad (which : Fin 3) (ichop : Nat) (s : State) : Bool :=
  match which with
  | 0 => s.spn.chopOn && decide (ichop < chopIMin s.img)
  | 1 => s.spn.chopOn && s.spc.vbusRises && decide (chopOnAt s + 500 < s.spn.vbus)
  | 2 => !s.spn.chopOn && decide (chopIMin s.img < ichop)
/-- CHOPPER_FAULT (R264): `ichop` is the conversion (R241). Outside Hold-up the first two end regenerative braking. -/
def execChopperFault (which : Fin 3) (ichop : Nat) (s : State) : Host.Outcome State Fault Refusal := live s fun s =>
  .next (
    if (chopOf s ichop).any fun i => chopperBad which i s then
      let s := { s with spn := { s.spn with chopFault := which.val + 1, chopper := satInc 8 s.spn.chopper } }
      spindleFault 0x2B true [] id (if which ≠ 2 && s.spn.mode = 7 && s.dev ≠ .holdUp then startShortBrake s else s)
    else s)
/-- The generator gives no more (R269): below GEN_MIN, or 10 ms at −GEN_IMAX with V_BUS below 10.0 V. -/
def generatorSpent (s : State) : Bool := decide (rpmOf s < (genMin s.img : Int)) || decide (480 ≤ s.spc.genLow)
/-- GENERATOR_EXHAUSTED (R269). -/
def execGeneratorExhausted (s : State) : Host.Outcome State Fault Refusal := live s fun s =>
  .next (if s.dev = .holdUp && s.spn.mode = 10 && generatorSpent s then generatorEnd s else s)
/-- VOLTAGE_LIMIT_FAULT (R247): 10 s of it. -/
def execVoltageLimitFault (s : State) : Host.Outcome State Fault Refusal := live s fun s =>
  .next (if s.spc.satSince.isSome then spindleFault 0x27 true [] id s else s)

-- Speed.

def meanRat (xs : List Int) : Rat := (xs.sum : Rat) / xs.length
/-- Pace heads kept by R252: those within 0.005% of the mean of the others. -/
def paceKept (ws : List Int) : List Int :=
  if ws.length < 2 then ws
  else (ws.zipIdx.filter fun w =>
    let m := meanRat (ws.eraseIdx w.2)
    decide (|(w.1 : Rat) - m| * 20000 ≤ m)).map (·.1)
/-- Speed of a wedge interval in 2^-16 rpm (R250). -/
def wedgeSpeed (s : State) (w : Rat) : Int := roundHalfUp (65536 * (56 * 1000000000 * 65536 * 60) / (s.img.wedges * w))
/-- A sample's source and value (R250–R252). -/
def speedOf (s : State) : Int × State :=
  let observer := roundHalfUp (65536 * obsRpm s)
  let ws := paceW s
  if ws.isEmpty then (observer, { s with spc := { s.spc with source := false } })
  else
    let kept := paceKept ws
    let dropped := ws.length - kept.length
    let s := { s with spn := { s.spn with srcDrop := satAdd 16 s.spn.srcDrop dropped } }
    if 0 < dropped && kept.length ≤ 1 then (observer, spnEvent 0x2F [b1 2] { s with spc := { s.spc with source := false } })
    else
      let v := wedgeSpeed s (meanRat kept)
      if s.spc.source then (v, s)
      else if 5000 * (v - observer).natAbs ≤ observer.natAbs then (v, { s with spc := { s.spc with source := true } })
      else (observer, s)
/-- Within ±0.5% of N_SVC (R261). -/
def nearService (s : State) (v : Int) : Bool := decide (200 * (v - rpm16 (nSvc s.img)).natAbs ≤ 65536 * nSvc s.img)
/-- Periods of the observer, or wedges of the lowest pace head, that one sample takes (R250). -/
def sampleEvery (s : State) : Nat := if bySource s then 18 else 10
/-- SPEED_SAMPLE (R250–R252): context 138 runs on the sample. Within ±0.5% of the service speed the spindle's loops are asked to switch (R225). -/
def execSpeedSample (o : LoopObs) (s : State) : Host.Outcome State Fault Refusal := live s fun s =>
  .next (
    if s.spc.decim < sampleEvery s then s
    else
      let (v, s) := speedOf { s with spc := { s.spc with decim := 0 } }
      let s := { s with
        spn := { s.spn with speed := satInt 32 v, mode := if s.spn.mode = 5 || s.spn.mode = 6 then (if s.spc.source then 6 else 5) else s.spn.mode },
        spc := { s.spc with nearSince := if nearService s v then some (s.spc.nearSince.getD (now s)) else none } }
      runCtx 138 v o (if serviceState s.dev && nearService s v then each [136, 137, 138] requestSwitch s else s))
/-- SPEED_SOURCE_TIMEOUT (R251): 10 s after the first arm entered TRACK the load fails and the part enters Stopped. -/
def execSpeedSourceTimeout (s : State) : Host.Outcome State Fault Refusal := live s fun s =>
  .next (
    if !s.spc.source && (armList s).any fun a => (getArm s a).state = 5 then
      failStop 0x3C (condition 0x3C mMotion 7 false [] s)
    else s)

/-- Gate the writer of every head that writes (R195). -/
def gateWriting (s : State) : State := each (allHeads s) writeGate s
/-- `speed` (2^-16 rpm) is within num/100,000 of N_SVC. -/
def withinService (s : State) (num : Nat) (speed : Int) : Bool :=
  decide (100000 * (speed - rpm16 (nSvc s.img)).natAbs ≤ num * (65536 * nSvc s.img))
/-- A mean of 96 wedges (R253): counted toward an entry, and an exit when it is the first outside. -/
def judgeMean (speed : Int) (s : State) : State :=
  let s := { s with spc := { s.spc with goodMeans := if withinService s 8 speed then min 960 (s.spc.goodMeans + 1) else 0 } }
  if s.spn.window && !(withinService s 10 speed) then
    let s := { s with
      spn := { s.spn with window := false, windowExit := satInc 8 s.spn.windowExit },
      spc := { s.spc with outSince := some (now s) } }
    spindleFault 0x28 false [] id (gateWriting s)
  else s
/-- DATA_WINDOW_MEAN (R253): a wedge's speed enters the mean of the last 96. -/
def execDataWindowMean (s : State) : Host.Outcome State Fault Refusal := live s fun s =>
  .next (
    if (paceKept (paceW s)).isEmpty then s
    else
      let ms := (wedgeSpeed s (meanRat (paceKept (paceW s))) :: s.spc.means).take 96
      let s := { s with spc := { s.spc with means := ms } }
      if ms.length = 96 then judgeMean (roundHalfUp (meanRat ms)) s else s)
/-- DATA_WINDOW_ENTRY (R253, R600). -/
def execDataWindowEntry (s : State) : Host.Outcome State Fault Refusal := live s fun s =>
  .next (
    if !s.spn.window && s.spc.goodMeans = 960 then
      closeCause 0x28 0 { s with
        spn := { s.spn with window := true }, spc := { s.spc with outSince := none, everWindow := true } }
    else s)
/-- DATA_WINDOW_TIMEOUT (R253, R600): 100 ms outside, counted from the first entry on. -/
def execDataWindowTimeout (s : State) : Host.Outcome State Fault Refusal := live s fun s =>
  .next (
    if !s.spn.window && s.spc.everWindow && s.spc.outSince.isSome && holdsFrom s.dev then
      enterHold 0x28 false (openCause 0x28 0 false s)
    else s)
/-- WINDOW_ENTRY_TIMEOUT (R600): a spindle fault with R272. -/
def execWindowEntryTimeout (s : State) : Host.Outcome State Fault Refusal := live s fun s =>
  .next (
    if !s.spn.window && !s.spc.everWindow && (getCtx s 138).rEff = rpm16 (nSvc s.img) && (holdsFrom s.dev || s.dev = .faultHold) then
      spindleFault 0x28 false [] (spindleLost 0x28) s
    else s)

-- Stopping the spindle.

/-- BRAKE_START (R262): every arm has unloaded and a stop is due. -/
def execBrakeStart (s : State) : Host.Outcome State Fault Refusal := live s fun s =>
  .next (
    if !((armList s).any (armOut s)) && !s.spc.stopping && (s.start.parkStep = 5 || s.flt.stopStep = 3) then spindleStop s else s)
/-- SHORT_BRAKE_SWITCH (R262): regenerative braking has reached N_HANDOFF. -/
def execShortBrakeSwitch (s : State) : Host.Outcome State Fault Refusal := live s fun s =>
  .next (if s.spn.mode = 7 && atHandoff s then startShortBrake s else s)
/-- The end of a park (Table 19.5): Parked, event 0x09, SPIN_CONTROL completes; a waiting ACTION 1 starts at once (R605). -/
def parkDone (s : State) : State :=
  let s := post 0x09 mStart [] { s with dev := .parked, start := { s.start with parkStep := 0, step := 0 } }
  enterParked (completeSpin 2 s)
/-- Below 60 rpm: gates off, spindle off (R262). -/
def spindleOff (s : State) : State :=
  let t := inverterOff s
  { t with spn := { t.spn with mode := 0, speed := 0, window := false, budgetPause := false, curvePt := 0 }, spc := { t.spc with stopping := false } }
/-- The spindle has stopped: the end of a park, which in Fault-hold waits for the return (R519) and ends with
a stop or Hold-up (R463, R515), or of step 3 of Table 17.5. -/
def spindleAtRest (s : State) : State :=
  if s.start.parkStep = 5 then (if s.dev = .faultHold || s.dev = .stopped || s.dev = .holdUp then spindleOff s else parkDone (spindleOff s))
  else advanceStop (spindleOff s)
/-- SPINDLE_STOPPED (R262): below 60 rpm the gates are held off. -/
def execSpindleStopped (s : State) : Host.Outcome State Fault Refusal := live s fun s =>
  .next (if (s.spc.stopping || s.dev = .stopped) && underSixty s then spindleAtRest s else s)

end Sys2Proof.Machine
end

