-- ==== Sys2Proof/Machine/Power.lean ====
section
/-! DEFINITION. Resets, clocks and supplies (chapters 19 to 21), hold-up and the dump (R463–R468). The commands that reach the always-on
domain act in reset too; the rest do not. -/

namespace Sys2Proof.Machine

/-- POWER_ON_RESET (R587, R613): `railsOk` when every rail came into range, so that the power-on reset is released. -/
def execPowerOnReset (railsOk : Bool) (s : State) : Host.Outcome State Fault Refusal :=
  let s := hardReset (outputsLow s)
  .next { s with
    aon := {}, start := { s.start with inReset := true, powerOnReset := !railsOk, railsLate := !railsOk },
    pwr := { s.pwr with good := if railsOk then 0x7F else 0 } }

/-- RESET_N_ASSERT (R587, R589): the always-on domain keeps the device state and whether dirty frames are held. After a clock or supply
fault it keeps what it latched then. -/
def execResetNAssert (s : State) : Host.Outcome State Fault Refusal :=
  .next (
    if s.start.powerOnReset then s
    else
      let a := if s.start.clocksStopped || s.start.inReset then s.aon else { s.aon with prevState := s.dev, prevDirty := holdsDirty s }
      let good := s.pwr.good
      let s := hardReset (outputsLow s)
      { s with aon := { a with cause := true }, pwr := { s.pwr with good }, start := { s.start with inReset := true, powerOnReset := false } })

/-- REFCLK_LOSS (R610). -/
def execRefclkLoss (s : State) : Host.Outcome State Fault Refusal := live s fun s => .next (clockFault 2 0 s)
/-- CORE_PLL_UNLOCK (R610). -/
def execCorePllUnlock (s : State) : Host.Outcome State Fault Refusal := live s fun s => .next (clockFault 3 0 s)
/-- LANE_PLL_UNLOCK (R610): every lane of the PLL's link loses lock. PLLs 0–7 serve the arm links, 8 and 9 the ports, 10 the partner link. -/
def execLanePllUnlock (pll : Fin 11) (s : State) : Host.Outcome State Fault Refusal := live s fun s =>
  let s := { s with clk := { s.clk with
    laneLock := s.clk.laneLock &&& ~~~(BitVec.twoPow 11 pll), laneLoss := satInc 16 s.clk.laneLoss } }
  .next (if pll.val < 8 then alkLoss pll s else linkDown (pll.val - 8) 0 false s)
/-- SUPPLY_FAULT (R618): a power failure detected first takes precedence, and VAON has its own reset. In Hold-up it ends the dump. -/
def execSupplyFault (rail : Fin 7) (powerFailFirst : Bool) (s : State) : Host.Outcome State Fault Refusal := live s fun s =>
  .next (if rail = 0 || powerFailFirst then s else clockFault 1 rail s)

-- Monitors and the core voltage.

/-- Domains whose clock may be stretched (R612). -/
def stretches (d : Nat) : Bool := (decide (88 ≤ d) && decide (d ≤ 96)) || d = 99
/-- DROOP_TRIP (R612): counted; 16 within 1 ms in a domain are event 0x0F. -/
def execDroopTrip (domain : Fin 100) (s : State) : Host.Outcome State Fault Refusal := live s fun s =>
  .next (
    if stretches domain then
      let times := (domain.val, now s) :: s.pwr.stretchTimes.filter fun e => decide (now s < e.2 + oneMs)
      let s := { s with pwr := { s.pwr with stretch := satInc 16 s.pwr.stretch, stretchTimes := times } }
      if 16 ≤ (times.filter fun e => e.1 = domain.val).length then
        post 0x0F mPower [b1 domain.val] { s with pwr := { s.pwr with stretchTimes := times.filter fun e => e.1 ≠ domain.val } }
      else s
    else s)

/-- SLACK_MONITOR_READ (R621, R624, Table 14.1): the least slack, and a fast raise below half of SLACK_MIN. -/
def execSlackMonitorRead (ps : Vector Int 32) (s : State) : Host.Outcome State Fault Refusal := live s fun s =>
  let least := ps.toList.foldl min (ps.toList.headD 0)
  let s := { s with
    pwr := { s.pwr with slack := satInt 8 least },
    fan := { s.fan with slackLow := if s.fan.slackSeen then min s.fan.slackLow least else least, slackSeen := true } }
  .next (
    if 2 * least < (slackMin s.img : Int) && decide (s.pwr.target < 850) && !s.pwr.avsFault && s.dev != .stopped then
      let t : Nat := min 850 (s.pwr.target + 10)
      post 0x1C mPower [b8 t, b8 least] { s with pwr := { s.pwr with target := t, src := 3, raises := satInc 16 s.pwr.raises } }
    else s)

/-- An AVSBus transaction has answered (R622): three failures in a row, or a readback 15 mV off what was written for 1 ms, open the
fault. -/
def avsAnswer (acked : Bool) (readback : Nat) (s : State) : State :=
  let off := decide (s.pwr.wrote + 15 < readback) || decide (readback + 15 < s.pwr.wrote)
  let s := { s with pwr := { s.pwr with
    readback := if acked then readback else s.pwr.readback, avsBad := if acked then 0 else s.pwr.avsBad + 1,
    avsOffSince := if acked then (if off then (match s.pwr.avsOffSince with | some t => some t | none => some (now s)) else none) else s.pwr.avsOffSince } }
  let bad := decide (3 ≤ s.pwr.avsBad) || s.pwr.avsOffSince.any fun t => decide (oneMs ≤ since s t)
  if bad && !s.pwr.avsFault then
    let s := { s with pwr := { s.pwr with avsFault := true, avsGood := 0, avsBad := 0, avsOffSince := none } }
    condition 0x1D mPower 8 true [] (openCause 0x1D 0 false s)
  else s
/-- Next value that AVS_STEP writes (R620): 5 mV toward the target, once the readback is within ±10 mV of the last step. -/
def avsNext (s : State) : Option Nat :=
  let w := s.pwr.wrote
  let settled := decide (s.pwr.readback ≤ w + 10) && decide (w ≤ s.pwr.readback + 10)
  if !settled then none
  else if w < s.pwr.target && s.dev != .stopped then some (min s.pwr.target (w + 5))
  else if s.pwr.target < w && (s.dev = .ready || s.dev = .parked || s.dev = .standby) then some (max s.pwr.target (w - 5))
  else none
/-- AVS_STEP (R619, R620, R622): a step where one is due, and the readback. -/
def execAvsStep (acked : Bool) (readback : Nat) (s : State) : Host.Outcome State Fault Refusal := live s fun s =>
  .next (
    if s.pwr.avsFault then s
    else match avsNext s with
      | some w => avsAnswer acked readback (send (.avs w) { s with pwr := { s.pwr with wrote := w } })
      | none => avsAnswer acked readback s)
/-- AVS_REPEAT_WRITE (R622): the last write again; three good readbacks in a row release the cause. -/
def execAvsRepeatWrite (acked : Bool) (readback : Nat) (s : State) : Host.Outcome State Fault Refusal := live s fun s =>
  .next (
    if s.pwr.avsFault then
      let good := acked && decide (readback ≤ s.pwr.wrote + 15) && decide (s.pwr.wrote ≤ readback + 15)
      let s := send (.avs s.pwr.wrote) { s with pwr := { s.pwr with
        avsGood := if good then s.pwr.avsGood + 1 else 0, readback := if acked then readback else s.pwr.readback } }
      if 3 ≤ s.pwr.avsGood then
        post 0x1E mPower [] (closeCause 0x1D 0 { s with pwr := { s.pwr with avsFault := false, avsGood := 0 } })
      else s
    else s)

-- Input power.

/-- VIN12 is converted once domain 95 has left reset (R614, R640). -/
def converts (s : State) : Bool := !((s.dev = .unconfigured || s.dev = .configuring) && decide (s.start.step < 9))
/-- VIN12_WINDOW (R463, R464, R641): one 1 µs window of four conversions in mV referred to VIN12; five low in a row are a power failure. -/
def execVin12Window (c0 c1 c2 c3 : Nat) (s : State) : Host.Outcome State Fault Refusal := live s fun s => if !(converts s) then .next s else
  let sum := c0 + c1 + c2 + c3
  let v := sum / 4
  let low := decide (sum < 4 * vinFail s.img)
  let run := if low then min 5 (s.pwr.lowRun + 1) else 0
  let failed := decide (run = 5) && decide (s.pwr.lowRun < 5)
  let back := s.pwr.vinLow && !low
  let s := { s with pwr := { s.pwr with
    vin12 := v, vin12Min := min s.pwr.vin12Min v, vin12Max := max s.pwr.vin12Max v, vinLow := low, vinHigh := decide (13800 < v), snsTimeout := false, lowRun := run } }
  .next (
    if failed then powerFailed 1 s
    else if back && s.dev = .holdUp && !s.hold.returned then
      post 0x18 mPower [] { s with hold := { s.hold with returned := true } }
    else s)
/-- VIN12_SENSE_FAULT (R640): event 0x1F at most once per second. -/
def execVin12SenseFault (timeout : Bool) (reading : Nat) (s : State) : Host.Outcome State Fault Refusal := live s fun s => if !(converts s) then .next s else
  let s := { s with pwr := { s.pwr with
    snsTimeout := s.pwr.snsTimeout || timeout, vinHigh := s.pwr.vinHigh || !timeout, lowRun := if timeout then 0 else s.pwr.lowRun } }
  .next (
    if s.pwr.senseEventAt.all fun t => decide (oneSec ≤ since s t) then
      post 0x1F mPower [b8 reading] { s with pwr := { s.pwr with senseEventAt := some (now s) } }
    else s)
/-- PWR_FAIL_N_LOW (R463). -/
def execPwrFailNLow (s : State) : Host.Outcome State Fault Refusal := live s fun s =>
  .next (powerFailed 2 { s with pwr := { s.pwr with pfailN := false } })
/-- PWR_FAIL_N_HIGH (R640). -/
def execPwrFailNHigh (s : State) : Host.Outcome State Fault Refusal := live s fun s => .next { s with pwr := { s.pwr with pfailN := true } }

-- The dump.

/-- Frames that a dump holds (R295): landed and dirty, acknowledged or of compatibility mode or held back. -/
def dumpEntries (s : State) : List LedgerEntry :=
  let es := (s.mpd.ledger.map (·.2)).filter fun e => landedEntry e && (e.acked || e.compat || e.heldBack)
  let order (m : Bool) : List LedgerEntry := (es.filter fun e => e.mirrored = m).mergeSort fun a b => !(seqLt b.vseq a.vseq)
  order false ++ order true
/-- Groups of `n`. -/
def groupsOf {α : Type} (n : Nat) (xs : List α) : List (List α) := (List.range (ceilDiv xs.length n)).map fun k => (xs.drop (n * k)).take n
/-- Commit records by chunk of 16 KiB. -/
def commitChunks (rs : List CommitRec) : List (List CommitRec) :=
  let placed := rs.foldl (fun (acc : Nat × List (Nat × CommitRec)) r => (acc.1 + commitBytes r, acc.2 ++ [(acc.1 / 16384, r)])) (0, [])
  (List.range (ceilDiv placed.1 16384)).map fun k => (placed.2.filter fun p => p.1 = k).map (·.2)
/-- The chunks of a dump (Table 15.6). -/
def dumpPlan (s : State) : List DumpChunk :=
  let es := dumpEntries s
  [.header] ++ (groupsOf 512 es).map .index ++ (commitChunks s.mpd.commits).map .commits ++
    (groupsOf 4 es).map fun g => .data (g.map fun e => (e, getFrame s e.frame.toNat))
/-- The part's dump area by number. -/
def modArea (k : Nat) (f : DumpArea → DumpArea) (s : State) : State :=
  { s with hold := { s.hold with areas := s.hold.areas.setIfInBounds k (f (s.hold.areas.toList.getD k {})) } }

/-- The dump has ended (R464, R468): Hold-up ends in Stopped; a fail-stop goes on (Table 17.5). -/
def dumpOver (s : State) : State :=
  if s.dev = .holdUp then enterStopped 0x10 s else advanceStop { s with hold := { s.hold with owed := false } }
def dumpEndedEarly (s : State) : State :=
  dumpOver (post 0x13 mPower [b8 s.hold.chunksDone] { s with hold := { s.hold with state := 4, owed := false, plan := [] } })

/-- DUMP_START (R465–R467): the armed area takes the dump; channel 62 writes it. -/
def execDumpStart (s : State) : Host.Outcome State Fault Refusal := live s fun s =>
  .next (
    if !s.hold.owed then s
    else if s.hold.state = 2 then { s with hold := { s.hold with owed := false } }
    else if !s.hold.areaOk then dumpEndedEarly { s with hold := { s.hold with chunksDone := 0, chunksPlanned := 0 } }
    else
      let at_ := if s.dev = .holdUp then s.hold.detectedAt else devTime s
      let plan := dumpPlan s
      let es := dumpEntries s
      let s := modArea s.hold.area (fun _ => {
        dumpId := BitVec.ofNat 64 at_, source := b2n s.hold.mirrorCopy, roleStrap := s.pwr.role, e := es.length, recs := (commitChunks s.mpd.commits).length, imageVer := s.img.imageVer, compat := s.img.compat }) s
      { s with hold := { s.hold with
          owed := false, state := 2, areaOk := false, plan, chunksDone := 0, chunksPlanned := plan.length,
          detectedAt := at_ } })

/-- DUMP_CHUNK_COMMIT (R466): the chunk read back; one that does not stays uncommitted. -/
def execDumpChunkCommit (readsBack : Bool) (s : State) : Host.Outcome State Fault Refusal := live s fun s =>
  .next (
    if s.hold.state ≠ 2 then s
    else match s.hold.plan with
      | [] => s
      | c :: rest =>
        let s := { s with hold := { s.hold with plan := rest, chunksDone := if readsBack then s.hold.chunksDone + 1 else s.hold.chunksDone } }
        let s := if readsBack then
            modArea s.hold.area (fun a => { a with chunks := a.chunks ++ [(s.hold.chunksPlanned - rest.length - 1, c)], unretired := a.unretired || c = .header }) s
          else s
        if rest.isEmpty then
          dumpOver (post 0x12 mPower [b8 s.hold.chunksDone, b8 (devTime s - s.hold.detectedAt)] { s with hold := { s.hold with state := 3 } })
        else s)

/-- DUMP_BUS_LOW (R468): the DC bus is below V_DUMP_MIN. -/
def execDumpBusLow (s : State) : Host.Outcome State Fault Refusal := live s fun s =>
  .next (if s.hold.state = 2 || (s.dev = .holdUp && s.hold.owed) then dumpEndedEarly s else s)

end Sys2Proof.Machine
end

