-- ==== Sys2Proof/Machine/Crypto.lean ====
section
/-! DEFINITION. Cryptography that the part computes itself: SHA-256 (R549, R551, R579), HMAC-SHA-256 (R389) and ECDSA verification over P-256
(R550, FIPS 186-4). -/

namespace Sys2Proof.Machine

abbrev W32 := BitVec 32

/-- Integer cube or square root by bits: the largest r below 2^bits with r^e ≤ n. -/
def rootOf (e : Nat) : Nat → Nat → Nat → Nat
  | 0, r, _ => r
  | b + 1, r, n => rootOf e b (if (r + 2 ^ b) ^ e ≤ n then r + 2 ^ b else r) n
/-- The first 64 primes. -/
def primes64 : List Nat := (List.range 312).filter fun n => decide (2 ≤ n) && (List.range n).all fun d => decide (d < 2) || n % d ≠ 0
/-- Round constants: the first 32 bits of the fractional parts of the cube roots of the primes. -/
def shaK : List W32 := primes64.map fun p => BitVec.ofNat 32 (rootOf 3 40 0 (p * 2 ^ 96))
/-- Initial hash: the same of the square roots of the first eight. -/
def shaH0 : List W32 := (primes64.take 8).map fun p => BitVec.ofNat 32 (rootOf 2 40 0 (p * 2 ^ 64))

/-- Message schedule, newest word first. -/
def shaSchedule : Nat → List W32 → List W32
  | 0, w => w
  | n + 1, w =>
    let at_ (k : Nat) : W32 := w.getD (k - 1) 0
    let s0 (x : W32) : W32 := x.rotateRight 7 ^^^ x.rotateRight 18 ^^^ (x >>> 3)
    let s1 (x : W32) : W32 := x.rotateRight 17 ^^^ x.rotateRight 19 ^^^ (x >>> 10)
    shaSchedule n ((s1 (at_ 2) + at_ 7 + s0 (at_ 15) + at_ 16) :: w)
/-- One round on (a … h). -/
def shaRound (v : List W32) (kw : W32 × W32) : List W32 :=
  match v with
  | [a, b, c, d, e, f, g, h] =>
    let t1 := h + (e.rotateRight 6 ^^^ e.rotateRight 11 ^^^ e.rotateRight 25) + ((e &&& f) ^^^ (~~~e &&& g)) + kw.1 + kw.2
    let t2 := (a.rotateRight 2 ^^^ a.rotateRight 13 ^^^ a.rotateRight 22) + ((a &&& b) ^^^ (a &&& c) ^^^ (b &&& c))
    [t1 + t2, a, b, c, d + t1, e, f, g]
  | v => v
/-- Big-endian value of bytes. -/
def beNat (bs : List Byte) : Nat := bs.foldl (fun n b => 256 * n + b.toNat) 0
/-- `n` big-endian bytes of a number. -/
def beBytes (n x : Nat) : List Byte := (List.range n).map fun k => BitVec.ofNat 8 (x / 256 ^ (n - 1 - k))
/-- One 64-byte block. -/
def shaBlock (h : List W32) (block : List Byte) : List W32 :=
  let w := (List.range 16).map fun k => BitVec.ofNat 32 (beNat ((block.drop (4 * k)).take 4))
  let ws := (shaSchedule 48 w.reverse).reverse
  List.zipWith (· + ·) h ((shaK.zip ws).foldl shaRound h)
/-- Blocks of 64 bytes, with `n` blocks of fuel. -/
def shaBlocks : Nat → List W32 → List Byte → List W32
  | 0, h, _ => h
  | n + 1, h, bs => if bs.isEmpty then h else shaBlocks n (shaBlock h (bs.take 64)) (bs.drop 64)
/-- SHA-256 as 32 big-endian bytes. -/
def sha256 (m : List Byte) : List Byte :=
  let zeros := (119 - m.length % 64) % 64
  let padded := m ++ [0x80] ++ List.replicate zeros 0 ++ beBytes 8 (8 * m.length)
  (shaBlocks (padded.length / 64) shaH0 padded).flatMap fun w => beBytes 4 w.toNat
/-- HMAC-SHA-256. -/
def hmac (key : List Byte) (m : List Byte) : List Byte :=
  let k := if 64 < key.length then sha256 key else key
  let k := k ++ List.replicate (64 - k.length) 0
  sha256 (k.map (· ^^^ 0x5C) ++ sha256 (k.map (· ^^^ 0x36) ++ m))
def hash256 (m : List Byte) : BitVec 256 := BitVec.ofNat 256 (beNat (sha256 m))

-- P-256.

def pP : Nat := 2 ^ 256 - 2 ^ 224 + 2 ^ 192 + 2 ^ 96 - 1
def pN : Nat := 0xFFFFFFFF00000000FFFFFFFFFFFFFFFFBCE6FAADA7179E84F3B9CAC2FC632551
def pB : Nat := 0x5AC635D8AA3A93E7B3EBBD55769886BC651D06B0CC53B0F63BCE3C3E27D2604B
def pG : Nat × Nat := (0x6B17D1F2E12C4247F8BCE6E563A440F277037D812DEB33A0F4A13945D898C296,
  0x4FE342E2FE1A7F9B8EE7EB4A7C0F9E162BCE33576B315ECECBB6406837BF51F5)
/-- x^e mod m over the low `bits` bits of e. -/
def powMod (m : Nat) : Nat → Nat → Nat → Nat
  | 0, _, _ => 1 % m
  | b + 1, x, e => (if e % 2 = 1 then x else 1) * powMod m b (x * x % m) (e / 2) % m
/-- Inverse modulo a prime. -/
def invMod (m x : Nat) : Nat := powMod m 256 (x % m) (m - 2)
/-- A point, none for the point at infinity. -/
abbrev EcPoint := Option (Nat × Nat)
def onCurve (q : Nat × Nat) : Bool :=
  decide (q.1 < pP) && decide (q.2 < pP) && decide (q.2 * q.2 % pP = (q.1 * q.1 * q.1 + (pP - 3) * q.1 + pB) % pP)
def ecAdd : EcPoint → EcPoint → EcPoint
  | none, q => q
  | q, none => q
  | some (x1, y1), some (x2, y2) =>
    let sum (l : Nat) : EcPoint :=
      let x3 := (l * l + 2 * pP - x1 - x2) % pP
      some (x3, (l * (x1 + pP - x3) + pP - y1) % pP)
    if x1 = x2 then
      if (y1 + y2) % pP = 0 then none else sum ((3 * x1 * x1 + pP - 3) * invMod pP (2 * y1) % pP)
    else sum ((y2 + pP - y1) * invMod pP (x2 + pP - x1) % pP)
/-- k times a point over the low `bits` bits of k. -/
def ecMul : Nat → Nat → EcPoint → EcPoint
  | 0, _, _ => none
  | b + 1, k, q => ecAdd (if k % 2 = 1 then q else none) (ecMul b (k / 2) (ecAdd q q))
/-- ECDSA verification of hash `z` (R550). -/
def ecdsaVerify (q : Nat × Nat) (z r s : Nat) : Bool :=
  let ok := onCurve q && decide (1 ≤ r) && decide (r < pN) && decide (1 ≤ s) && decide (s < pN)
  let w := invMod pN s
  match ecAdd (ecMul 256 (z * w % pN) (some pG)) (ecMul 256 (r * w % pN) (some q)) with
  | some p => ok && p.1 % pN = r
  | none => false

end Sys2Proof.Machine
end

