-- ==== Sys2Proof/Machine/Profile.lean ====
section
/-! DEFINITION. The seek trajectory (R187, R191, R192): duration, reference and feedforward from SHAPE, in exact arithmetic. SHAPE is
normalised by its own double integral, so that s(1) = 1 (log entry 24). -/

namespace Sys2Proof.Machine

/-- Double integral of the linearly interpolated points: (v, s) at each point, with points 1/255 apart. -/
def shapeInts (pts : List Int) : List (Rat × Rat) :=
  (pts.zip (pts.drop 1)).foldl (fun acc p =>
    let h : Rat := 1 / 255
    let (v, s) := acc.getLastD (0, 0)
    acc ++ [(v + h * (p.1 + p.2) / 2, s + h * v + h * h * (2 * p.1 + p.2) / 6)]) [(0, 0)]
/-- s(1) of the points as they stand. -/
def shapeTotal (pts : List Int) : Rat := ((shapeInts pts).getLastD (0, 0)).2
/-- Segment of x in 0..1 and the place within it. -/
def segOf (x : Rat) : Nat × Rat :=
  let k := min 254 (x * 255).floor.toNat
  (k, x * 255 - k)
/-- Acceleration a(x), normalised. -/
def shapeAcc (pts : List Int) (x : Rat) : Rat :=
  let (k, f) := segOf x
  let p := pts.getD k 0
  (p + f * (pts.getD (k + 1) 0 - p)) / shapeTotal pts
/-- s(x), normalised. -/
def shapePos (pts : List Int) (x : Rat) : Rat :=
  let (k, f) := segOf x
  let (v, s) := (shapeInts pts).getD k (0, 0)
  let p : Rat := pts.getD k 0
  let q : Rat := pts.getD (k + 1) 0
  let h : Rat := f / 255
  (s + h * v + h * h * (p / 2 + f * (q - p) / 6)) / shapeTotal pts

/-- Least m with m² ≥ c. -/
def ceilSqrt (c : Nat) : Nat := if c = 0 then 0 else rootOf 2 40 0 (c - 1) + 1
/-- N of R191 before its lengthening, for a distance in 2^-12 track. -/
def seekBase (k : SeekRec) (d : Nat) : Nat := k.skT0 + ceilSqrt (ceilDiv (k.skT1 * k.skT1 * d) (256000 * 4096))
/-- Feedforward at wedge n of N, in LSB of DEMAND. -/
def seekFf (k : SeekRec) (d : Int) (len n : Nat) : Rat :=
  if len = 0 then 0 else (k.kff : Rat) * ((d : Rat) / 4096) / ((len : Rat) * len) * shapeAcc k.shape ((n : Rat) / len)
/-- The feedforward stays within 0.8 of full scale over the whole seek. -/
def ffWithin (k : SeekRec) (d : Int) (len : Nat) : Bool :=
  (List.range (len + 1)).all fun n => decide (|seekFf k d len n| ≤ 8 * 32767 / 10)
/-- N of R191 with its lengthening, at most 4,096 wedges more. -/
def seekLen (k : SeekRec) (d : Int) : Nat :=
  let n := seekBase k d.natAbs
  (((List.range 4096).map (n + ·)).find? (ffWithin k d)).getD (n + 4096)
/-- Full stroke of an arm in tracks (R192). -/
def fullStroke (i : Image) (a : Nat) : Nat := 2 * ((zoneList i a).map fun z => z.cz + vOf i z + 16).sum + 75

end Sys2Proof.Machine
end

