-- ==== Sys2Proof/Machine/WriteStream.lean ====
section
/-! DEFINITION. What a head writes: the frames of its operation (R125, R141, R147), their split at the wedges and packing into stream words
(R79, R104, R106, R126), and the stream on its way to the arm-link engine with the write grid (R80, R81, R127). -/

namespace Sys2Proof.Machine

/-- The frames that the operation of arm a writes under head h, by place: sectors of a row that still wait for their write, a remap outside a
row, the 16 zero frames of a probe (R431). -/
def writtenFrames (s : State) (a h : Nat) : List (Place × BitVec 36864) :=
  match opOf s a with
  | none => []
  | some o =>
    match o.visit with
    | some v =>
      if v.kind ≠ 1 then []
      else (List.range 16).map fun sl =>
        let p := reservePlace s.img s.layout a h v.zone v.group sl o.track
        (p, ldpcEncode (infoOf 0 0 false (paddrOf s.layout.fmtId p)))
    | none =>
      match repairTarget s a with
      | some (x, _, t) =>
        let p := repairPlace s x t
        match (findSec s x.arm x.row x.head x.track x.slot).bind (·.info) with
        | some i => if p.head = h then [(p, ldpcEncode (infoOf (infoData i) (infoHtag i) (infoPoison i) (paddrOf s.layout.fmtId p)))] else []
        | none => []
      | none =>
        if o.kind ≠ .rowWrite && o.kind ≠ .rewrite then []
        else (s.rows.filter fun r => r.arm = o.lArm && r.q = o.row).flatMap fun r =>
          (o.want.filter fun k =>
            let p := rowPlace s r (k / 32) (k / 16 % 2) (k % 16)
            p.arm = a && p.head = h && (rowSec r k).st = 1).map fun k => (rowPlace s r (k / 32) (k / 16 % 2) (k % 16), ldpcEncode (rowInfo s r k))

-- Cells of a frame.

/-- n repetitions of 1100, the first cell in bit 0. -/
def repeat1100 (n : Nat) : Nat := (16 ^ n - 1) / 5
/-- A track's sync mark with its first cell in bit 0 (R119). -/
def markCells (t : Nat) : Nat := ((List.range 32).map fun k => if (syncMark t).testBit (31 - k) then 2 ^ k else 0).sum
/-- A written frame of 37,120 cells, its first in bit 0 (R125, R141): preamble, sync mark, codeword, postamble. -/
def frameBits (t : Nat) (cw : BitVec 36864) : Nat := repeat1100 48 + 2 ^ 192 * markCells t + 2 ^ 224 * cw.toNat + 2 ^ 37088 * repeat1100 8
/-- A writer-on run: its first cell by the revolution, its length, its cells with the first in bit 0. -/
structure WriteRun where
  cell : Nat
  len : Nat
  bits : Nat
/-- Pieces of `len` cells from data-cell position x on, split at the ends of the intervals (R106); `fuel` bounds their number. -/
def splitRuns (f : ZoneFmt) : Nat → Nat → Nat → Nat → List WriteRun
  | 0, _, _, _ => []
  | n + 1, x, len, bits =>
    if len = 0 then []
    else
      let k := min len (dataCells f - x % dataCells f)
      { cell := cellOf f x, len := k, bits := bits % 2 ^ k } :: splitRuns f n (x + k) (len - k) (bits / 2 ^ k)
/-- Lengthen a run at its start to a multiple of 60 cells with the 1100 pattern, continued backward in phase (R126). -/
def lengthen (r : WriteRun) : WriteRun :=
  let e := (60 - r.len % 60) % 60
  let pre := ((List.range e).map fun k => if (4 - (e - k) % 4) % 4 < 2 then 2 ^ k else 0).sum
  { cell := r.cell - e, len := r.len + e, bits := pre + 2 ^ e * r.bits }
/-- Data words of a lengthened run (Table 3.4). -/
def runWords (h : Nat) (r : WriteRun) : List Word := (List.range (r.len / 60)).map fun k => BitVec.ofNat 64 (h * 2 ^ 60 + r.bits / 2 ^ (60 * k) % 2 ^ 60)
def gapWord (h count : Nat) : Word := BitVec.ofNat 64 ((8 + h) * 2 ^ 60 + count)
/-- Stream words of runs in order, with a gap word between two and an end word after the last (R126). -/
def streamWords (h : Nat) : List WriteRun → List Word
  | [] => []
  | [r] => runWords h r ++ [gapWord h (2 ^ 32 - 1)]
  | r :: x :: rest => runWords h r ++ [gapWord h (x.cell - (r.cell + r.len))] ++ streamWords h (x :: rest)
/-- Frames on one track as a write stream of a head (R104, R106, R126); none without a frame. -/
def streamOf (f : ZoneFmt) (h : Nat) (frames : List (Place × BitVec 36864)) : Option OutStream :=
  let sorted := frames.mergeSort fun x y => decide (x.1.slot ≤ y.1.slot)
  let runs := (sorted.flatMap fun p => splitRuns f 64 (slotStart f p.1.slot) 37120 (frameBits (p.1.track % 2) p.2)).map lengthen
  match runs.head?, runs.getLast? with
  | some r, some l => some { words := streamWords h runs, first := r.cell, total := l.cell + l.len - r.cell }
  | _, _ => none

-- The grid.

/-- WR_PHASE of set 0 (Table 4.5). -/
def wrPhase (s : State) (n z : Nat) : Int := signedOf 16 (chanBits s.img n z 0 19 4)
/-- Cell period of the running interval, 2^-16 tick (R81); PERIOD and REF are its roundings, a half upward (log entry 43). -/
def gridPeriod (s : State) (n : Nat) : Rat :=
  let f := zoneFmt s.img (n / 8) (getHead s n).zone
  if f.cpw = 0 then 0 else ((getHead s n).wHat : Rat) / f.cpw
/-- REF of R127 in 2^-16 tick: the time of the stream's cell 0 on the grid of the running wedge. -/
def gridRef (s : State) (n first : Nat) : Int :=
  let h := getHead s n
  let p := gridPeriod s n
  roundHalfUp (h.tW + (wrPhase s n h.zone : Rat) / 64 * p - (streamCell (zoneFmt s.img (n / 8) h.zone) h.wedge first : Rat) * p)
/-- WCLK_SET (R127): the write grid anchored on this wedge; the stream's cells are numbered from its own first cell. -/
def sendGrid (n : Nat) (s : State) : State :=
  let o := tabGet {} (getAlk s (n / 8)).outs (n % 8)
  let period := (roundHalfUp (gridPeriod s n * 65536)).toNat % 2 ^ 36
  let ref := gridRef s n o.first
  let s := modAlk s (n / 8) fun k => { k with outs := tabMod {} k.outs (n % 8) fun o => { o with start := (ref / 65536).toNat, period } }
  alkSend (n / 8) 0x09 (n % 8) true 0 [w64 period, w64 (twos 56 ref)] s
/-- The stream's first cell lies ahead in this wedge interval or the next, and the tailrace can still deliver 256 words of it 1 µs before, with 256
for each of the arm's seven other heads: 26 rounds of 80 words, and an alignment round (R81; log entry 42). -/
def inTime (s : State) (n : Nat) (o : OutStream) : Bool :=
  let f := zoneFmt s.img (n / 8) (getHead s n).zone
  let k := -(streamCell f (getHead s n).wedge o.first)
  decide (0 ≤ k) && decide (k < 2 * f.cpw) && decide ((linkTick s + 56000 + 27 * 1360 : Nat) * 65536 ≤ gridRef s n o.first)
/-- Hand the stream of a head's operation to the arm-link engine and arm the writer (Table 3.6 WRITE_ARM): REF is the stream's cell 0, so that
START_CELL is 0. -/
def startStream (n : Nat) (s : State) : State :=
  let h := getHead s n
  match streamOf (zoneFmt s.img (n / 8) h.zone) (n % 8) (writtenFrames s (n / 8) (n % 8)) with
  | none => s
  | some o =>
    if inTime s n o then
      let s := modAlk s (n / 8) fun k => { k with outs := tabSet {} k.outs (n % 8) o }
      alkSend (n / 8) 0x0A (n % 8) true 0 [w64 0] (sendGrid n (modHead s n fun d => { d with writing := true, streamed := true }))
    else s
/-- A wedge of a writing head: the grid follows it, and past the end word the head no longer writes; the row of a first pass may then stand on the medium
as a whole (R293). -/
def followStream (n : Nat) (s : State) : State :=
  let o := tabGet {} (getAlk s (n / 8)).outs (n % 8)
  if (o.total : Int) ≤ streamCell (zoneFmt s.img (n / 8) (getHead s n).zone) (getHead s n).wedge o.first then
    let s := modHead (modAlk s (n / 8) fun k => { k with outs := tabSet {} k.outs (n % 8) {} }) n fun h => { h with writing := false }
    match opOf s (n / 8) with | some o => passesEnded o s | none => s
  else sendGrid n s

end Sys2Proof.Machine
end

