-- ==== Sys2Proof/Machine/Servo.lean ====
section
/-! DEFINITION. The servo (chapter 6): a wedge's consequences (R178, R182, R183), targets, seeks and settling (R186–R194), the
write-fault gate (R195), clearance (R197–R199), load and unload (R200–R203), the VCM drive port (R204–R206), the conditions of Table 6.8,
and the execution of the loop contexts on the inputs of chapter 6 (Table 7.1). -/

namespace Sys2Proof.Machine

/-- A condition of Table 6.8. -/
def servoCondition (code : BitVec 8) (hold : Bool) (fs : List PayField) (s : State) : State := condition code mMotion 7 hold fs s

-- Heads and targets of an arm.

/-- Heads of an arm on servo: acquired, and not given up. -/
def loadedHeads (s : State) (a : Nat) : List Nat := (armHeads s a).filter fun n => decide (2 ≤ (getHead s n).state)
/-- x̂ of R189: the mean over heads with a valid wedge of y − CO − μ, the pace head by its estimate of R182 when it has lost its wedge. -/
def armPos (s : State) (a : Nat) : Int :=
  let hs := (loadedHeads s a).filter fun n => (getHead s n).lostRun = 0 || paceHead s a = some n
  if hs.isEmpty then (getArm s a).xHat
  else (hs.map fun n => (getHead s n).pos - offCO s.img n (getHead s n).zone - (getHead s n).mu).sum / hs.length
/-- UA_SET at t_SAM + UA_DELAY; with IMM when that has passed, and counted (R188). -/
def uaSet (n : Nat) (mu : Int) (s : State) : State :=
  let apply := ((getHead s n).tSam / 65536).toNat + 56 * uaDelay s.img
  let late := decide (apply ≤ linkTick s)
  sendUa (n / 8) (n % 8) (uaDemand s n mu) late apply (modHead s n fun h => { h with mu, uaLate := if late then satInc 8 h.uaLate else h.uaLate })
/-- μ* of a new target, or of a head that has left TRACK, is set at once (R191, Table 6.8; log entry 30). -/
def uaPreset (n : Nat) (mu : Int) (s : State) : State := sendUa (n / 8) (n % 8) (uaDemand s n mu) true 0 (modHead s n fun h => { h with mu })
/-- Target of reader A for a pair, or for a track under write (R186). -/
def readTarget (s : State) (n z pair : Nat) : Int := 8192 * (pair : Int) + offRdOfs s.img n z
def writeTarget (s : State) (n z track : Nat) : Int := 4096 * (track : Int) - offRWO s.img n z
/-- Arm target x* of targets y* (R187); an odd sum is halved toward minus infinity (log entry 30). -/
def armTarget (s : State) (ts : List (Nat × Int)) : Int :=
  let xs := ts.map fun t => t.2 - offCO s.img t.1 (getHead s t.1).zone
  (xs.foldl max (xs.headD 0) + xs.foldl min (xs.headD 0)) / 2
/-- Leave the on-track counts of a head behind. -/
def offTrack (h : Head) : Head := { h with onRead := false, onWrite := false, rdRun := 0, wrRun := 0 }
/-- Move an arm to targets by a micro-seek or a seek (R187, R190, R191). A head that re-acquires (Table 6.8) goes on doing so. -/
def moveArm (a : Nat) (ts : List (Nat × Int)) (s : State) : State :=
  let xStar := armTarget s ts
  let micro := (getArm s a).state = 5 && ts.all fun t => decide ((t.2 - (getHead s t.1).pos).natAbs ≤ 16 * 4096)
  if micro then
    let s := each ts (fun t s => modHead s t.1 fun h => { offTrack h with goal := t.2 }) s
    modArm s a fun r => { r with xTarget := xStar, seek := some { micro := true, len := msN s.img } }
  else
    let x := armPos s a
    let s := each ts (fun t s =>
      let p := t.2 - offCO s.img t.1 (getHead s t.1).zone - xStar
      uaPreset t.1 p (modHead s t.1 fun h => { offTrack h with state := if h.state = 6 then 6 else 2, target := t.2, goal := t.2, preset := p })) s
    modArm s a fun r => { r with
      state := 3, xTarget := xStar, xHat := x, seek := some { fresh := true, x0 := x, dist := xStar - x, len := seekLen (seekOf s.img a) (xStar - x) } }
/-- Seek again from x̂ to the targets that stand (R193, Table 6.8). -/
def reseek (a : Nat) (s : State) : State :=
  let ts := (loadedHeads s a).map fun n => (n, (getHead s n).goal)
  moveArm a ts (modArm s a fun r => { r with state := 4 })
/-- The load target: pair LOAD_PAIR of zone 0 (Table 6.6a). -/
def loadTargets (s : State) (a : Nat) : List (Nat × Int) :=
  (loadedHeads s a).map fun n => (n, readTarget s n 0 (goodPair s.img a n))
where goodPair (i : Image) (a n : Nat) : Nat := Sys2Proof.Machine.goodPair s.layout a (n % 8) 0 (loadPair i)

/-- The window of the next wedge (R175). -/
def sendWindow (n : Nat) (s : State) : State :=
  let h := getHead s n
  let period := (zoneFmt s.img (n / 8) h.zone).samplePeriod
  let len := if period = 0 then 0 else ceilDiv (1056 * h.wHat.toNat * 65536) (24000 * period)
  alkSend (n / 8) 0x08 (n % 8) false (((h.tW + h.wHat + 144 * h.wHat / 24000) / 65536).toNat)
    [w64 (h.wHat.toNat % 2 ^ 36 + len % 65536 * 2 ^ 36)] s
/-- Windows take the place of MODE 2 (Table 6.6a). -/
def windowHead (n : Nat) (s : State) : State := sendWindow n (sendMode (n / 8) (n % 8) 1 0 s)

/-- Close the VCM in position on the acquired heads, and seek to LOAD_PAIR (Table 6.6a, R212). -/
def closePosition (a : Nat) (s : State) : State :=
  let s := each (loadedHeads s a) windowHead s
  let s := takeOver a (140 + a) s
  moveArm a (loadTargets s a) (modArm s a fun r => { r with state := 3, coast := false })
/-- The trajectory has ended (R193): the heads settle; after a load the heaters and microactuator loops start (Table 6.6a). -/
def endSeek (a : Nat) (s : State) : State :=
  let s := modArm s a fun r => { r with
    state := 4, seek := r.seek.map fun k => { k with settle := 0 } }
  each (loadedHeads s a) (fun n s =>
    let s := modHead s n fun h => { h with state := if h.state = 6 then 6 else 3 }
    if (getCtx s (8 + n)).enable then s
    else
      let s := enableCtx (72 + n) (enableCtx (8 + n) s)
      setSetpoint (72 + n) (offClrRd s.img n (getHead s n).zone) s) s
/-- In Fault-hold a reload needs 97% of N_SVC from its start to its end, otherwise R272 applies. -/
def reloadSpeed (s : State) : State := if s.dev = .faultHold && !(speedHeld s) then spindleLost s.flt.holdCause s else s
/-- Every loaded head is on track for reading: TRACK (R193); a reload has succeeded (R206, R272). -/
def enterTrack (a : Nat) (s : State) : State :=
  let s := each (loadedHeads s a) (fun n s => modHead s n fun h => { h with state := 4 }) s
  reloadSpeed (closeCause 0x3A a (closeCause 0x3B a (modArm s a fun r => { r with
    state := 5, seek := none, tracked := true, faulted := false, reloads := 0, coast := false })))

-- One wedge.

/-- Within a percentage of a track (Table 6.5). -/
def withinPct (pes : Int) (pct : Nat) : Bool := decide (100 * pes.natAbs ≤ 4096 * pct)
/-- |μ| is above 0.95 of the stroke of 1.0 µm (R195). -/
def nearStroke (s : State) (mu : Int) : Bool := decide (950000 * 4096 < mu.natAbs * s.img.trackPitch)
/-- On-track counts of a valid wedge (R193, Table 6.5). -/
def countTrack (s : State) (h : Head) : Head :=
  let rd := if withinPct h.pes (ontrkRd s.img) then min 31 (h.rdRun + 1) else 0
  let wr := if withinPct h.pes (ontrkWr s.img) then min 63 (h.wrRun + 1) else 0
  let onRead := (h.onRead && withinPct h.pes (rdOff s.img)) || decide (settleRd s.img ≤ rd)
  let onWrite := (h.onWrite && withinPct h.pes 12) || decide (settleWr s.img ≤ wr)
  { h with rdRun := rd, wrRun := wr, onRead, onWrite, gated := h.gated && !onWrite }
/-- Index phases of an arm's heads against its pace head, measured again at each acquisition (R665). -/
def rebasePhases (a : Nat) (s : State) : State :=
  match paceHead s a with
  | none => s
  | some pace =>
    let idx (k : Nat) : Int := (getHead s k).tHat - (getHead s k).wedge * (getHead s k).wHat
    let base := idx pace
    each (loadedHeads s a) (fun n s => modHead s n fun h => { h with indexPhase := if h.wHat = 0 then 0 else (idx n - base) % (960 * h.wHat) }) s
/-- Timing of a wedge in acquisition (R178): t̂ is the first t_SAM, Ŵ the difference of the first two, and the filter runs from there; a SAM off
the nominal interval starts again. `run` is the number of SAMs with this one. -/
def acquireTiming (d : Demod) (run : Nat) (h : Head) : Head :=
  if !d.found then timing d h
  else if run ≤ 1 then wedgeTime { h with tHat := d.tSam, tSam := d.tSam }
  else if run = 2 then wedgeTime { h with tHat := d.tSam, wHat := d.tSam - h.tHat, tSam := d.tSam }
  else timing d h
/-- The coast of an arm ends when every head has re-acquired (Table 6.8). -/
def coastOver (a : Nat) (s : State) : State :=
  modArm s a fun r => { r with coast := r.coast && (loadedHeads s a).any fun k => (getHead s k).state = 5 || (getHead s k).state = 6 }
/-- A wedge in acquisition (R178, R183, R201): consecutive good SAMs; the fourth acquires the head. -/
def acquireWedge (n : Nat) (d : Demod) (s : State) : State :=
  let a := n / 8
  let h := getHead s n
  let surfOk := d.header.any fun x => x.2 = (getIsl s h.island).surf
  let spaced := h.acqRun ≠ 0 && decide (100 * (d.tSam - h.tSam - nominalW s).natAbs ≤ (nominalW s).natAbs)
  let wrong := d.found && d.header.isSome && !surfOk
  let run := if d.found && surfOk then (if spaced then h.acqRun + 1 else 1) else 0
  let s := modHead s n fun h => { acquireTiming d run h with
    acqRun := min run 4, wrongSurf := if wrong then min 7 (h.wrongSurf + 1) else 0,
    wedge := match d.header with | some x => x.1 | none => (h.wedge + 1) % 960, pos := d.pos.getD h.pos, dPos := 0 }
  let s := modHead s n keepRef
  if run < 4 then s
  else
    let s := modHead s n fun h => { h with
      state := if (getArm s a).state ≤ 2 then 2 else 3, everAcquired := true, lostRun := 0, badIdRun := 0, wrongSurf := 0, target := h.goal }
    let s := rebasePhases a s
    if (getArm s a).state ≤ 2 then
      if (armHeads s a).all fun k => decide (2 ≤ (getHead s k).state) then closePosition a s else s
    else
      let s := windowHead n s
      coastOver a s

/-- Half or more of an arm's loaded heads have lost one wedge (Table 6.8): the arm coasts, and every head is gated. -/
def coastArm (a : Nat) (s : State) : State :=
  let s := each (loadedHeads s a) (fun k s => modHead (writeGate k s) k fun h => { h with state := 5, gated := true, onWrite := false, wrRun := 0 }) s
  servoCondition 0x3B false [] (modArm s a fun r => { r with coast := true })
/-- A lost wedge (R182, R193, Table 6.8): the estimate carries on, and the head is on track while it stays within the hold limits. -/
def lostWedge (n : Nat) (s : State) : State :=
  let a := n / 8
  let s := modHead s n fun h =>
    let pes := satInt 16 (h.pos + h.dPos - h.target)
    { h with
      pos := h.pos + h.dPos, pes, lostWedge := satInc 16 h.lostWedge, lostRun := min 255 (h.lostRun + 1), rdRun := 0, wrRun := 0,
      onRead := h.onRead && withinPct pes (rdOff s.img), onWrite := h.onWrite && withinPct pes 12 }
  let s := servoCondition 0x30 false [] (modHead s n fun h => { h with acqRun := 0 })
  let s := modArm s a fun r => { r with lostNow := if r.lostNow.contains n then [n] else n :: r.lostNow }
  if (loadedHeads s a).length ≤ 2 * (getArm s a).lostNow.length && !(getArm s a).coast && 3 ≤ (getArm s a).state then coastArm a s else s
/-- A valid wedge: position, PES and on-track counts (R181, R193), and the re-acquisition of a head that coasts or is lost, within ±1 track over four
consecutive wedges (R201, Table 6.8). -/
def validWedge (n : Nat) (y : Int) (d : Demod) (s : State) : State :=
  let a := n / 8
  let s := modHead s n fun h => countTrack s { h with
    dPos := y - h.pos, pos := y, pes := satInt 16 (y - h.target), lostRun := 0, badIdRun := 0, rdrDisagree := if d.oneReader then satInc 16 h.rdrDisagree else h.rdrDisagree, disagreeRun := if d.oneReader then min 127 (h.disagreeRun + 1) else 0, strokeRun := if nearStroke s h.mu then min 15 (h.strokeRun + 1) else 0 }
  let s := modArm s a fun r => { r with lostNow := r.lostNow.filter (· ≠ n) }
  let h := getHead s n
  if h.state = 5 then coastOver a (modHead s n fun h => { h with state := min 4 ((getArm s a).state - 1) })
  else if h.state = 6 then
    if (y - h.goal).natAbs ≤ 4096 then
      coastOver a (modHead s n fun h => { h with acqRun := min 4 (h.acqRun + 1), state := if 3 ≤ h.acqRun then 4 else 6 })
    else modHead s n fun h => { h with acqRun := 0 }
  else s

/-- The end of the first third of a seek longer than 100,000 tracks (Table 14.1): the achieved acceleration, the velocity over the wedges so far,
against the mean I_SENSE, as the ratio to what the image's KFF stands for, in 2^-15 (log entry 44). -/
def seekKt (a : Nat) (k : Seek) (v : Int) (s : State) : State :=
  if decide (100000 * 4096 < k.dist.natAbs) && decide (3 * k.n < k.len) && decide (k.len ≤ 3 * (k.n + 1)) && k.iSum ≠ 0 then
    let kff := (imageVal s 8 { arm := a }).1
    let r := roundHalfUp ((32768 * v * kff : Int) / (4096 * k.iSum : Int) : Rat)
    { s with fan := { s.fan with kts := s.fan.kts ++ [(a, r)] } }
  else s
/-- Progress of the arm at a wedge of its pace head: the trajectory through its wedges 0 to N, the micro-seek's ramp, settling, TRACK (R190, R191,
R193). -/
def paceWedge (a : Nat) (s : State) : State :=
  let xOld := (getArm s a).xHat
  let s := modArm s a fun r => { r with xHat := armPos s a }
  let r := getArm s a
  match r.seek with
  | none => s
  | some k =>
    if k.micro then
      let left : Int := max 1 ((k.len : Int) - k.n)
      let s := each (loadedHeads s a) (fun n s => modHead s n fun h =>
        let want := h.goal - offCO s.img n h.zone - r.xTarget
        { h with target := h.target + (h.goal - h.target) / left, preset := h.preset + (want - h.preset) / left }) s
      if k.len ≤ k.n + 1 then
        if k.n + 1 - k.len < settleMax s.img && !((loadedHeads s a).all fun n => (getHead s n).onRead) then
          modArm s a fun r => { r with seek := some { k with n := k.n + 1, settle := k.settle + 1 } }
        else modArm s a fun r => { r with seek := none }
      else modArm s a fun r => { r with seek := some { k with n := k.n + 1 } }
    else if r.state = 3 then
      let k := { k with iSum := if 3 * k.n < k.len then k.iSum + r.iSense else k.iSum }
      let s := seekKt a k (r.xHat - xOld) s
      if k.fresh then modArm s a fun r => { r with seek := some { k with fresh := false } }
      else if k.len ≤ k.n then endSeek a (modArm s a fun r => { r with seek := some { k with n := k.len } })
      else modArm s a fun r => { r with seek := some { k with n := k.n + 1 } }
    else if r.state = 4 then
      if (loadedHeads s a).all (fun n => (getHead s n).onRead) && !(loadedHeads s a).isEmpty then enterTrack a s
      else modArm s a fun r => { r with seek := some { k with settle := k.settle + 1 } }
    else s

/-- Reasons of R195 for the gate at this wedge. -/
def mustGate (s : State) (n : Nat) (lost jump : Bool) : Bool :=
  let h := getHead s n
  decide (492 ≤ h.pes.natAbs) || lost || jump || decide (0 < h.wrongSurf) || nearStroke s h.mu || (getArm s (n / 8)).faulted || !s.spn.window

/-- The writer of a head at a wedge without a gate: a stream that runs follows the grid, and the next one is armed once the head of a write
operation meets the write criterion (R193, R196). -/
def armWriter (n : Nat) (s : State) : State :=
  let h := getHead s n
  let i := getIsl s h.island
  if h.writing then followStream n s
  else if i.assigned && 8 * i.arm + i.head = n && i.state = 3 && h.onWrite && !h.gated && !h.streamed && !mustGate s n false false then startStream n s
  else s

/-- A wedge of a head on servo (R177–R195). -/
def trackWedge (n : Nat) (d : Demod) (s : State) : State :=
  let s := modHead s n (timing d)
  let h := getHead s n
  let wrong := d.found && d.header.any fun x => x.2 ≠ (getIsl s h.island).surf
  let s := modHead s n fun h => { h with
    wrongSurf := if wrong then min 7 (h.wrongSurf + 1) else 0, badIdRun := if d.found && !d.idOk then min 255 (h.badIdRun + 1) else 0,
    wedge := match d.header with | some x => x.1 | none => (h.wedge + 1) % 960 }
  let s := modHead s n keepRef
  let pred := h.pos + h.dPos
  let pos := if wrong then none else d.pos
  let s := match pos with | some y => validWedge n y d s | none => lostWedge n s
  let s := modHead s n fun h => if pos.isSome then { h with
      hrSum := h.hrSum + d.hr, hrCount := min 63 (h.hrCount + 1), trackRun := if h.state = 4 then min 127 (h.trackRun + 1) else 0 } else h
  let s := if (getHead s n).writing && mustGate s n pos.isNone (pos.any fun y => decide (4096 ≤ (y - pred).natAbs)) then writeGate n s else armWriter n s
  let s := if (getHead s n).trackRun = 64 then requestSwitch (72 + n) (requestSwitch (8 + n) s) else s
  let s := if paceHead s (n / 8) = some n then
      paceWedge (n / 8) (if (getHead s n).trackRun = 64 then requestSwitch (n / 8) s else s)
    else s
  let s := if leadPace s = some n then { s with spc := { s.spc with decim := if s.spc.source then min 31 (s.spc.decim + 1) else s.spc.decim } } else s
  if 3 ≤ (getArm s (n / 8)).state then sendWindow n s else s
/-- A wedge of a head whose arm unloads (R202): MODE 0 once it is off servo, which four wedges without a SAM show (log entry 30). -/
def unloadWedge (n : Nat) (d : Demod) (s : State) : State :=
  let s := modHead s n fun h => keepRef { timing d h with lostRun := if d.found then 0 else min 255 (h.lostRun + 1) }
  if (getHead s n).lostRun < 4 then sendWindow n s
  else modHead (sendMode (n / 8) (n % 8) 0 0 s) n fun h => { offTrack h with state := 0, acqRun := 0 }

/-- SERVO_WEDGE (R175–R196). A failed island yields nothing (R103). -/
def execServoWedge (arm head : Fin 8) (s : State) : Host.Outcome State Fault Refusal := live s fun s =>
  let n := 8 * arm.val + head.val
  let d : Demod := if (getIsl s (getHead s n).island).failed then {} else demod s n
  .next (
    if (getHead s n).failed || !headFitted s.img n || (getHead s n).state = 0 then s
    else if (getArm s arm).state = 6 then unloadWedge n d s
    else if !(armLoaded s arm) then s
    else if (getHead s n).state = 1 then acquireWedge n d (modArm s arm fun r => { r with state := if r.state = 1 then 2 else r.state })
    else visitWedge n (if d.pos.isSome then some d.hr else none) (trackWedge n d s))

-- The conditions of Table 6.8.

/-- Unload an arm, and load it again when it is on its ramp. -/
def unloadAgain (a : Nat) (s : State) : State := unloadArm a (modArm s a fun r => { r with again := true })
/-- ARM_COAST_TIMEOUT (Table 6.8). -/
def execArmCoastTimeout (arm : Fin 8) (s : State) : Host.Outcome State Fault Refusal := live s fun s =>
  .next (if (getArm s arm).coast then unloadAgain arm (modArm s arm fun r => { r with attempts := 0, tracked := false }) else s)
/-- SURFACE_MISMATCH (R183, R201). -/
def execSurfaceMismatch (arm head : Fin 8) (s : State) : Host.Outcome State Fault Refusal := live s fun s =>
  let n := 8 * arm.val + head.val
  .next (
    if 4 ≤ (getHead s n).wrongSurf && armLoaded s arm then
      let s := servoCondition 0x37 false [] (modHead s n fun h => { h with wrongSurf := 0 })
      if (getArm s arm).tracked then declareFailed n s else failStop 0x37 (unloadArm arm s)
    else s)
/-- WEDGE_LOSS_RUN (Table 6.8): the head leaves TRACK and re-acquires within ±1 track; μ holds μ*. -/
def execWedgeLossRun (arm head : Fin 8) (s : State) : Host.Outcome State Fault Refusal := live s fun s =>
  let n := 8 * arm.val + head.val
  let h := getHead s n
  .next (
    if (4 ≤ h.lostRun || 3 ≤ h.badIdRun) && 2 ≤ h.state && h.state ≤ 5 then
      let s := servoCondition 0x31 false [] s
      uaPreset n h.preset (modHead s n fun h => { offTrack h with state := 6, acqRun := 0, badIdRun := 0, trackRun := 0 })
    else s)
/-- REACQUIRE_TIMEOUT (Table 6.8, Table 15.8). -/
def execReacquireTimeout (arm head : Fin 8) (s : State) : Host.Outcome State Fault Refusal := live s fun s =>
  let n := 8 * arm.val + head.val
  .next (if (getHead s n).state = 6 then declareFailed n s else s)
/-- STROKE_LIMIT_RUN (Table 6.8). -/
def execStrokeLimitRun (arm head : Fin 8) (s : State) : Host.Outcome State Fault Refusal := live s fun s =>
  let n := 8 * arm.val + head.val
  .next (
    if 8 ≤ (getHead s n).strokeRun && 4 ≤ (getArm s arm).state && (getArm s arm).state ≤ 5 then
      reseek arm (servoCondition 0x36 false [] (modHead s n fun h => { h with strokeRun := 0 }))
    else s)
/-- READER_DISAGREE_RUN (Table 6.8): reported to the fantail; service goes on. -/
def execReaderDisagreeRun (arm head : Fin 8) (s : State) : Host.Outcome State Fault Refusal := live s fun s =>
  let n := 8 * arm.val + head.val
  .next (
    if 64 ≤ (getHead s n).disagreeRun then
      mqNote 8 (servoCondition 0x38 false [] (modHead s n fun h => { h with disagreeRun := 0 }))
    else s)
/-- SETTLE_TIMEOUT (R193): the settle once more, then a seek error and the seek from x̂; three within 1 s lead to Fault-hold. -/
def execSettleTimeout (arm head : Fin 8) (s : State) : Host.Outcome State Fault Refusal := live s fun s =>
  let n := 8 * arm.val + head.val
  .next (
    match (getArm s arm).seek with
    | none => s
    | some k =>
      if (getHead s n).onRead || k.settle < settleMax s.img || !(armLoaded s arm) then s
      else if !k.repeated then
        servoCondition 0x34 false [] (modArm s arm fun r => { r with seek := some { k with settle := 0, repeated := true } })
      else
        let errs := now s :: recent s oneSec (getArm s arm).seekErrors
        let s := modArm s arm fun r => { r with seekErrors := if 3 ≤ errs.length then [] else errs }
        reseek arm (servoCondition 0x35 (decide (3 ≤ errs.length)) [] s))

-- Clearance.

/-- Set-point of a head's clearance (R198). -/
def clearanceSet (s : State) (n : Nat) : Int :=
  if (getHead s n).writing then offClrWr s.img n (getHead s n).zone else offClrRd s.img n (getHead s n).zone
/-- The clearance estimate of R197, in 0.01 nm. -/
def clearanceOf (s : State) (n : Nat) : Int :=
  let h := getHead s n
  let hr : Rat := (h.hrSum : Rat) / h.hrCount
  roundHalfUp (offClrCal s.img n h.zone + (offLambda s.img n h.zone : Rat) / (4 * Config.piRat) * ((hr - offHrCal s.img n h.zone) / 4096))
/-- One execution of a clearance loop, and the heater powers it sets (R198). -/
def clearanceRun (n : Nat) (o : LoopObs) (s : State) : State :=
  if (getCtx s (72 + n)).enable && !calibrating s n then
    let s := runCtx (72 + n) (getHead s n).clearance o (setSetpoint (72 + n) (clearanceSet s n) s)
    let p := (clampInt 0 (htrMax s.img) (getCtx s (72 + n)).out).toNat
    checkFloor (sendHeater (n / 8) (n % 8) p (writePwr s n p) false (modHead s n fun h => { h with readPwr := p }))
  else s
/-- CLEARANCE_ESTIMATE (R197–R199). During a calibration the estimate has no effect, since its heater steps lead below CLR_MIN by intent (log
entry 44). -/
def execClearanceEstimate (arm head : Fin 8) (s : State) : Host.Outcome State Fault Refusal := live s fun s =>
  let n := 8 * arm.val + head.val
  .next (
    if (getHead s n).hrCount < 32 then s
    else
      let c := clearanceOf s n
      let s := modHead s n fun h => { h with clearance := c, hrSum := 0, hrCount := 0 }
      if calibrating s n then s
      else if c < (clrMin s.img : Int) then contactAct n false s else clearanceRun n {} s)

-- Load and unload.

/-- The spindle is within ±0.5% of its set-point (R200). -/
def spindleAtSpeed (s : State) : Bool :=
  decide (200 * (s.spn.speed - (getCtx s 138).setpoint).natAbs ≤ (getCtx s 138).setpoint.natAbs) && (s.spn.mode = 5 || s.spn.mode = 6)
/-- States in which arms load. -/
def loadState : DevState → Bool | .loading => true | .ready => true | .faultHold => true | .takeover => true | _ => false
/-- ARM_LOAD (R200, R272, Table 6.6a). The part sets heaters, lasers and modes itself; for the spindle and for RETRACTED it waits. -/
def execArmLoad (arm : Fin 8) (s : State) : Host.Outcome State Fault Refusal := live s fun s =>
  let a := arm.val
  let r := getArm s a
  .next (
    if r.loadDue.isNone || !(loadState s.dev) || (r.state ≠ 0 && r.state ≠ 7) then s
    else if s.dev = .faultHold && !(speedHeld s) then reloadSpeed s
    else
      let s := each (armHeads s a) (fun n s => sendMode a (n % 8) 2 0 (sendTables n 0 (coolHead n s))) s
      if !(spindleAtSpeed s) || !(r.flags.getLsbD 2) then s
      else
        let s := each (armHeads s a) (fun n s => modHead s n fun h => { offTrack h with
          state := 1, acqRun := 0, wrongSurf := 0, lostRun := 0, badIdRun := 0, trackRun := 0, hrSum := 0, hrCount := 0, mu := 0, preset := 0 }) s
        let s := setSetpoint (140 + a) (loadVel s.img) (enableCtx (140 + a) (vcmSend a 3 0 s))
        checkFloor <| modArm s a fun r => { r with
          state := 1, attempts := r.attempts + 1, loadDue := none, tracked := false, again := false, velFrames := 0, lostNow := [] })
/-- The arm's load has failed for good: no head, or its VCM context (R201, R225). -/
def loadFailure (s : State) : State := failStop 0x3C (servoCondition 0x3C false [] s)
/-- LOAD_ACQUIRE_TIMEOUT (R201, R206). -/
def execLoadAcquireTimeout (arm : Fin 8) (s : State) : Host.Outcome State Fault Refusal := live s fun s =>
  let a := arm.val
  let r := getArm s a
  let missing := (armHeads s a).filter fun n => decide ((getHead s n).state < 2)
  .next (
    if (r.state ≠ 1 && r.state ≠ 2) || missing.isEmpty then s
    else if r.faulted then
      if r.reloads < 3 then unloadArm a s
      else failStop 0x3A (each missing declareFailed s)
    else if r.attempts < 3 then unloadAgain a s
    else if (loadedHeads s a).isEmpty then loadFailure s
    else
      let s := each (missing.filter fun n => !(getHead s n).everAcquired) declareFailed s
      let s := each (missing.filter fun n => (getHead s n).everAcquired) (fun n s => modHead s n fun h => { h with state := 6, acqRun := 0 }) s
      if s.dev = .stopped then s else closePosition a s)
/-- A port or driver fault of R206: writers gated, RETRACT, Fault-hold. -/
def vcmFault (a : Nat) (s : State) : State :=
  let s := voidArm unwritten a (List.range 8) (each (armHeads s a) writeGate s)
  let s := retractArm a (gateArm a s)
  let s := headsOff a s
  let s := modArm s a fun r => { r with faulted := true, faultAt := if r.faulted then r.faultAt else now s, badRun := 0, offRun := 0, loadDue := none, tracked := false }
  servoCondition 0x3A true [] (openCause 0x3A a false s)
/-- RETRACTED_WAIT_TIMEOUT (R200, R206). -/
def execRetractedWaitTimeout (arm : Fin 8) (s : State) : Host.Outcome State Fault Refusal := live s fun s =>
  .next (if (getArm s arm).loadDue.isSome && !((getArm s arm).flags.getLsbD 2) then vcmFault arm s else s)
/-- ARM_UNLOAD (R202). -/
def execArmUnload (arm : Fin 8) (s : State) : Host.Outcome State Fault Refusal := live s fun s => .next (unloadArm arm s)
/-- The unload has ended: RETRACT, heads off servo, and what waits for it goes on (R201, Tables 17.5, 19.5). -/
def unloaded (a state : Nat) (s : State) : State :=
  let s := headsOff a (disableCtx (140 + a) (vcmSend a 2 0 s))
  let again := (getArm s a).again && loadState s.dev
  let s := modArm s a fun r => { r with state, again := false, loadDue := if again then some (now s) else r.loadDue }
  advancePark (advanceStop s)
/-- UNLOAD_COMPLETE (R202): |V_EMF| has stayed below 5% of UNLOAD_VEL, as the last DI frame gives it (log entry 45 for the 20 ms). -/
def execUnloadComplete (arm : Fin 8) (s : State) : Host.Outcome State Fault Refusal := live s fun s =>
  .next (if (getArm s arm).state = 6 && decide (100 * (5 * (getArm s arm).vEmf).natAbs < 5 * unloadVel s.img) then unloaded arm 0 s else s)
/-- UNLOAD_TIMEOUT (R202): RETRACT at once, event 0x3D. -/
def execUnloadTimeout (arm : Fin 8) (s : State) : Host.Outcome State Fault Refusal := live s fun s =>
  .next (if (getArm s arm).state = 6 then unloaded arm 7 (servoCondition 0x3D false [] s) else s)

-- The VCM drive port.

/-- A DI frame that R206 discards: a bad CRC, or an echo older than two frames of a part that sends them (log entry 30). -/
def diBad (s : State) (a w : Nat) : Bool :=
  decide (crc16 w ≠ w % 65536) || (s.ptn.activeOut && decide (2 < ((getArm s a).seq + 256 - bitsOf 63 56 w) % 256))
/-- The sensed current is off its demand by more than 10% of full scale (R206). -/
def currentOff (r : Arm) (i : Int) : Bool :=
  r.cmd = 1 && decide (10 * (i - r.demand).natAbs > 32767) && decide (100 * r.demand.natAbs < 95 * 32767)
/-- The velocity loop of an arm, at every fourth valid DI frame (Table 7.1): LOAD_VEL or UNLOAD_VEL less V_EMF, in mV. -/
def velocityRun (a : Nat) (o : LoopObs) (s : State) : State :=
  if (getCtx s (140 + a)).enable then
    let s := runCtx (140 + a) (5 * (getArm s a).vEmf) o s
    vcmSend a 1 (satInt 16 (getCtx s (140 + a)).out) s
  else s
/-- VCM_DI_FRAME (R206, Table 6.7). -/
def execVcmDiFrame (arm : Fin 8) (f : DiFrame) (s : State) : Host.Outcome State Fault Refusal := live s fun s =>
  let a := arm.val
  let w := f.bits.toNat
  let out := armLoaded s a || (getArm s a).state = 6
  .next (
    if s.img.arms ≤ a then s
    else if diBad s a w then
      let s := modArm s a fun r => { r with frameErr := satInc 16 r.frameErr, badRun := min 3 (r.badRun + 1) }
      let s := servoCondition 0x39 false [] s
      if 3 ≤ (getArm s a).badRun && s.ptn.activeOut then vcmFault a s else s
    else
      let i := signedOf 16 (bitsOf 55 40 w)
      let flags := BitVec.ofNat 6 (bitsOf 27 22 w)
      let off := currentOff (getArm s a) i
      let s := modArm s a fun r => { r with
        iSense := i, vEmf := signedOf 12 (bitsOf 39 28 w), flags, badRun := 0, offRun := if off then min 16 (r.offRun + 1) else 0, velFrames := (r.velFrames + 1) % 4, state := if r.state = 7 && flags.getLsbD 2 then 0 else r.state }
      if (16 ≤ (getArm s a).offRun && s.ptn.activeOut) || (out && (flags.getLsbD 0 || flags.getLsbD 4 || flags.getLsbD 5)) then vcmFault a s
      else if (getArm s a).velFrames = 0 then velocityRun a {} s
      else s)
/-- VCM_RELOAD (R206): RETRACTED is set, and the arm loads again, at most three times (R272 in Fault-hold). -/
def execVcmReload (arm : Fin 8) (s : State) : Host.Outcome State Fault Refusal := live s fun s =>
  let r := getArm s arm
  .next (
    if r.faulted && (r.state = 0 || r.state = 7) && r.flags.getLsbD 2 && r.loadDue.isNone then
      if r.reloads < 3 then reloadSpeed (modArm s arm fun r => { r with reloads := r.reloads + 1, loadDue := some (now s) }) else failStop 0x3A s
    else s)
/-- VCM_RELOAD_TIMEOUT (R206): 10 s from the fault without TRACK. -/
def execVcmReloadTimeout (arm : Fin 8) (s : State) : Host.Outcome State Fault Refusal := live s fun s =>
  .next (if (getArm s arm).faulted then failStop 0x3A s else s)

-- Loop contexts.

/-- Midrange of μ − μ* over the heads of an arm in TRACK (R189), halved toward minus infinity; 0 while the arm settles and none is in TRACK (log
entry 30). -/
def muMidrange (s : State) (a : Nat) : Int :=
  let xs := ((loadedHeads s a).filter fun n => (getHead s n).state = 4).map fun n => (getHead s n).mu - (getHead s n).preset
  (xs.foldl max (xs.headD 0) + xs.foldl min (xs.headD 0)) / 2
/-- Reference of a seek at its wedge (R191). -/
def seekRef (s : State) (a : Nat) (k : Seek) : Int :=
  k.x0 + roundHalfUp ((k.dist : Rat) * (if k.len = 0 then 1 else shapePos (seekOf s.img a).shape ((k.n : Rat) / k.len)))
/-- One execution of a VCM loop (R189): input by the arm's state, feedforward of the seek, DEMAND. While the arm coasts the demand is the
feedforward alone (Table 6.8). -/
def vcmRun (a : Nat) (o : LoopObs) (s : State) : State :=
  let r := getArm s a
  if !(getCtx s a).enable then s
  else
    let ff : Int := match r.seek with
      | some k => if !k.micro && r.state = 3 then roundHalfUp (seekFf (seekOf s.img a) k.dist k.len k.n) else 0
      | none => 0
    if r.coast then vcmSend a 1 (satInt 16 ff) s
    else
      let input := match r.seek with
        | some k => if !k.micro && r.state = 3 then seekRef s a k - r.xHat else muMidrange s a
        | none => muMidrange s a
      let s := runCtx a input o s
      vcmSend a 1 (satInt 16 ((getCtx s a).out + ff)) s
/-- One execution of a microactuator loop (R188): open during a seek and while its head is lost. -/
def uaRun (n : Nat) (o : LoopObs) (s : State) : State :=
  let h := getHead s n
  if !(getCtx s (8 + n)).enable || h.state < 3 || 5 < h.state || h.lostRun ≠ 0 then s
  else
    let s := runCtx (8 + n) (-h.pes) o s
    uaSet n (h.preset + (getCtx s (8 + n)).out) s
/-- LOOP_EXECUTE (R215–R233, Table 7.1): contexts 0 to 135 and 140 to 147 take their inputs from the servo's state; `input` is the input of
the spindle's, the bus's and the test contexts; a test context is enabled by the fantail's request that runs it. -/
def execLoopExecute (ctx : Fin 160) (input : Int) (o : LoopObs) (s : State) : Host.Outcome State Fault Refusal := live s fun s =>
  let n := ctx.val
  .next (
    if n < 8 then vcmRun n o s
    else if n < 72 then uaRun (n - 8) o s
    else if n < 136 then clearanceRun (n - 72) o s
    else if 140 ≤ n ∧ n < 148 then velocityRun (n - 140) o s
    else if 148 ≤ n ∧ !(getCtx s n).enable then runCtx n input o (enableCtx n s)
    else runCtx n input o s)
/-- LOOP_SWITCH_TIMEOUT (R225): 65,536 samples after its request a switch still waits. A servo context leads to a reload, after the third attempt to the failed-head triggers or to Stopped; a
spindle context leads to Stopped. Each is reported under 0x52 (R233); a reload and a failed head have no event of their own for it (log entry 58). -/
def execLoopSwitchTimeout (ctx : Fin 160) (s : State) : Host.Outcome State Fault Refusal := live s fun s =>
  let n := ctx.val
  .next (
    if !((getCtx s n).request.any fun k => decide (65536 ≤ k)) || (getCtx s n).fmt then s
    else
      let s := modCtx s n fun c => { c with request := none }
      let told := report { master := mMotion, cause := 7 } s
      if n < 136 then
        let a := if n < 8 then n else if n < 72 then (n - 8) / 8 else (n - 72) / 8
        if (getArm s a).attempts < 3 then unloadAgain a told
        else if n < 8 then loadFailure s
        else declareFailed (if n < 72 then n - 8 else n - 72) told
      else failStop 0x3C (servoCondition 0x3C false [] s))

end Sys2Proof.Machine
end

