-- ==== Sys2Proof/Machine/Channel.lean ====
section
/-! DEFINITION. Samples and detector islands (chapters 3 and 4): sample words and marks (R75, R77), a frame from preamble to the codeword
queue (R107–R122), the second candidate (R123, R124), the read-after-write check (R129–R133), failed islands and steering
(R100–R103), and the queue's pressure where codewords enter (R154, R155). -/

namespace Sys2Proof.Machine

-- Streams.

def modStream (a x : Nat) (f : Stream → Stream) (s : State) : State := modAlk s a fun k => { k with streams := tabMod {} k.streams x f }
/-- SAMPLE_WORD (R75): to the stream that the word names. -/
def execSampleWord (arm : Fin 8) (word : Word) (s : State) : Host.Outcome State Fault Refusal := live s fun s =>
  .next (if alkUp s arm then modStream arm (bitsOf 63 60 word.toNat) (takeWord word) s else s)
/-- STREAM_MARK (R77): samples since the last mark are erased when the word count disagrees, which MSG_ERR counts (Table 3.11); the mark anchors
what follows. -/
def execStreamMark (arm : Fin 8) (word : Word) (s : State) : Host.Outcome State Fault Refusal := live s fun s =>
  let w := word.toNat
  let x := bitsOf 55 52 w
  .next (
    if alkUp s arm then
      let bad := markBad (bitsOf 51 40 w) (tabGet {} (getAlk s arm).streams x)
      modStream arm x (takeMark (bitsOf 51 40 w) (bitsOf 39 0 w) (linkTick s)) (if bad then modAlk s arm fun k => { k with msgErr := satInc 16 k.msgErr } else s)
    else s)

-- The codeword queue.

/-- Lowest free queue slot (R152). -/
def freeQueueSlot (s : State) : Option Nat := (List.range 1024).find? fun k => !(s.bol.queue.any fun e => e.1 = k)
/-- Suspend a head's reading (R154–R156): MODE 1, its data path gated. -/
def suspendHead (n : Nat) (s : State) : State :=
  if (getHead s n).suspended then s
  else
    let s := gateIsland n (sendMode (n / 8) (n % 8) 1 0 s)
    let s := modHead s n fun h => { h with suspended := true }
    mqNote 23 { s with bol := { s.bol with suspended := s.bol.suspended ++ [(n / 8, n % 8)] } }
/-- The queue has risen above QUEUE_HWM (R155): fantail reads are suspended at once, event 0x4D. -/
def pressureUp (s : State) : State :=
  if queueHwm s.img < s.bol.queue.length && s.bol.pressure ≠ 1 then
    let s := { s with bol := { s.bol with pressure := 1, fantailSuspended := true } }
    post 0x4D mBolter [] (each (armList s) (fun a s => if (opOf s a).any fun o => o.visit.any fun v => v.kind = 0 then cutVisit a s else s) s)
  else s
/-- Put a codeword into a free slot. -/
def enqueue (c : Codeword) (s : State) : State :=
  match freeQueueSlot s with
  | some k => pressureUp { s with bol := { s.bol with queue := s.bol.queue ++ [(k, c)] } }
  | none => s

-- A frame.

/-- Channel set of a rung (Table 5.4). -/
def rungSet (rung : Nat) : Nat := rung - 3
/-- Physical place of a frame's track t, from a sector that the frame carries (R143). -/
def framePlace (s : State) (x : Sector) (t : Nat) : Place :=
  let p := secPlace s x
  { p with track := p.track / 2 * 2 + t }
/-- A frame that gives no codeword: its sectors go to the re-read rungs (R158). -/
def lostFrame (xs : List Sector) (missed : Bool) (s : State) : State :=
  each xs (fun x s => climb (max 3 (x.rung + 1)) { x with missed := x.missed || missed } s) s
/-- The read frame was off track (R194): read again on a later pass, at the same rung. -/
def offTrackFrame (xs : List Sector) (s : State) : State := each xs (fun x s => rereadWork x [] s) (servoCondition 0x32 false [] s)

/-- Sectors of a track that wait for the second candidate of a slot (R158). -/
def waiting (s : State) (island slot t : Nat) : List Sector :=
  let i := getIsl s island
  s.bol.sectors.filter fun x =>
    (x.rung = 2 || x.second) && (secPlace s x).arm = i.arm && (secPlace s x).head = i.head && (secPlace s x).slot = slot && secParity s x = t
/-- Requests that the island can serve no more (R124): their sectors move on to the next re-read rung. -/
def dropRequests (island : Nat) (lost : Nat × Nat → Bool) (s : State) : State :=
  let i := getIsl s island
  let gone := (i.requests.filter lost).flatMap fun q => ((i.sbuf.filter fun e => e.frame = q.1).flatMap fun e => waiting s island e.slot q.2)
  lostFrame gone false (modIsl s island fun i => { i with requests := i.requests.filter fun q => !lost q })
/-- A frame takes the next sample-buffer entry; the ninth overwrites the oldest, whose requests fail (R122, R124). -/
def pushEntry (island : Nat) (e : SbufEntry) (s : State) : State :=
  let s := dropRequests island (fun q => decide (q.1 + 8 ≤ e.frame)) s
  modIsl s island fun i => { i with frames := e.frame + 1, sbuf := (i.sbuf.filter fun d => decide (e.frame < d.frame + 8)) ++ [e] }
/-- Where a slot of a zone lies for a head now (R104, R111). -/
def frameRefOf (s : State) (n z slot : Nat) (refs : Refs) : FrameRef :=
  let f := zoneFmt s.img (n / 8) z
  { fmt := f, refs, x := slotStart f slot, pm := cellPeriod f refs }
/-- The entry that a frame fills: the samples of both readers from 96 cells before it to 96 after it (R122). -/
def frameEntry (s : State) (island slot set : Nat) (wide : Bool) : SbufEntry :=
  let i := getIsl s island
  let n := 8 * i.arm + i.head
  let refs := (getHead s n).refs
  let r := frameRefOf s n i.zone slot refs
  let d (k : Nat) : Stream := tabGet {} (getAlk s i.arm).streams (2 * i.head + k)
  let words (k : Nat) : List (Nat × Word) := bufferWords (streamView (d k) r.fmt.samplePeriod) r (d k).words.reverse
  { frame := i.frames, slot, set, wide, wordsA := words 0, wordsB := words 1, marksA := (d 0).marks, marksB := (d 1).marks, refs }
/-- The frame of an entry from its samples (R108–R114). -/
def acquireEntry (s : State) (island : Nat) (e : SbufEntry) : FrameRef × Option Acquired :=
  let i := getIsl s island
  let n := 8 * i.arm + i.head
  let r := frameRefOf s n i.zone e.slot e.refs
  let view (words : List (Nat × Word)) (marks : List (Nat × Int)) : View := viewOf words marks r.fmt.samplePeriod
  (r, acquire (chanOf s.img n i.zone e.set (view e.wordsA e.marksA) (view e.wordsB e.marksB)) r (if e.wide then 96 else 48) none)
/-- The cells of an acquired frame for the detector, some of them known. -/
def detCells (q : Acquired) (known : Nat → Option (Bool × Bool)) : Array DetCell := q.ys.mapIdx fun m y => { y, known := known m }
/-- Event 0x42 and the count of a frame that R112 abandons. -/
def loopRange (island : Nat) (s : State) : State :=
  post 0x42 mIsland [] (modIsl s island fun i => { i with loopRange := satInc 16 i.loopRange })
/-- Event 0x43 and the count of a codeword with too many erased cells (R117). -/
def tooErased (island : Nat) (s : State) : State :=
  post 0x43 mIsland [] (modIsl s island fun i => { i with erasedFrames := satInc 16 i.erasedFrames })
/-- What CHN_TIMING shows of a completed frame (R140): one with an accepted sync mark that R112 has not abandoned, whether or not its codewords find
a place in the queue (log entry 43). -/
def noteTiming (island : Nat) (r : FrameRef) (q : Acquired) (s1 s2 : Nat) (s : State) : State :=
  modIsl s island fun i => { i with freqOfs := satInt 24 (freqOffset r q.loop), score1 := s1, score2 := s2 }

/-- Sectors of a frame that this pass decodes: those whose rungs take the lowest channel set among them. One that waits for its second candidate is not
decoded anew, and one at a higher rung waits for a pass of its own (R158). -/
def passSectors (all : List Sector) : List Sector :=
  let xs := all.filter fun x => x.rung ≠ 2 && !x.second
  let set := xs.foldl (fun m x => min m (rungSet x.rung)) 3
  xs.filter fun x => rungSet x.rung = set
/-- Tracks of a frame whose codewords are wanted, with their rungs and places: both of a first pass, of a re-read the failing ones (R118,
R158). A track whose sector takes no part is left out. -/
def ladderTracks (s : State) (all xs : List Sector) : List (Nat × Nat × Place) :=
  let first := xs.any fun x => x.rung = 1
  ([0, 1].filter fun t => (xs.any fun x => secParity s x = t) || (first && !(all.any fun x => secParity s x = t))).map fun t =>
    let own := xs.find? fun x => secParity s x = t
    (t, (own.map (·.rung)).getD 1, framePlace s (own.getD (xs.headD {})) t)
/-- An accepted frame (R117, R118, R154): its codewords go to the queue, the even track's first. With fewer free slots than codewords none is queued (log
entry 59). -/
def queueFrame (island n : Nat) (e : SbufEntry) (wanted : List (Nat × Nat × Place)) (visit : Option (Nat × Nat)) (c1 score1 : Nat) (cs : Array DetCell) (lam : Array (Int × Int))
    (s : State) : State :=
  let tracks := wanted.map (·.1)
  if 1024 < s.bol.queue.length + tracks.length then
    let s := { s with bol := { s.bol with queueFull := satInc 16 s.bol.queueFull } }
    suspendHead n (post 0x50 mBolter [] s)
  else
    let s := modIsl s island fun i => { i with sbuf := i.sbuf.map fun d => if d.frame = e.frame then { d with undecoded := tracks } else d }
    each wanted (fun w s =>
      let t := w.1
      let rung := w.2.1
      enqueue {
        island, arm := n / 8, head := n % 8, track := t, zone := (getIsl s island).zone, slot := e.slot, cand := 0, set := e.set, score := score1,
        erased := erasedCells cs c1, sbuf := e.frame % 8, frame := e.frame, expAddr := paddrOf s.layout.fmtId w.2.2, soft := softBits lam c1 t, rung, visit }
        (if rung = 1 && visit.isNone then enterRung 1 s else s)) s
/-- A sync miss (R121). -/
def syncMiss (island slot : Nat) (xs : List Sector) (best : Int) (s : State) : State :=
  let s := modIsl s island fun i => { i with miss := satInc 16 i.miss }
  lostFrame xs true (post 0x40 mIsland [b1 island, b8 slot, b8 best] s)
/-- Σ (e_0² + e_1²) and 2 × the number of the codeword's cells that are not erased (R437): each track's error against the target of the symbols
that the detector decides, Λ above 0 being symbol 1. -/
def errorPower (g : List Int) (q : Acquired) (lam : Array (Int × Int)) (p : Nat) : Int × Nat :=
  let sym (t m : Nat) : Bool := let v := lam.getD m (0, 0); decide (0 < if t = 0 then v.1 else v.2)
  let target (t m : Nat) : Int := ((List.range 3).map fun k => g.getD k 0 * pm (sym t (m - k)) + g.getD (3 + k) 0 * pm (sym (1 - t) (m - k))).sum
  let es := (List.range 36864).filterMap fun j => ((q.ys[p + 32 + j]?).join).map fun y =>
    (y.1 - target 0 (p + 32 + j)) ^ 2 + (y.2 - target 1 (p + 32 + j)) ^ 2
  (es.sum, es.length)
/-- A frame of a reading head from its samples on (R107–R121), with the channel set of `img`: for the ladder's sectors `xs`, or in a pass of a channel
visit for its statistics alone (R430). -/
def detectEntry (img : Image) (island : Nat) (e : SbufEntry) (xs : List Sector) (wanted : List (Nat × Nat × Place)) (visit : Option (Nat × Nat)) (s : State) : State :=
  let i := getIsl s island
  let n := 8 * i.arm + i.head
  match acquireEntry { s with img } island e with
  | (_, none) => syncMiss island e.slot xs 0 s
  | (r, some q) =>
    if q.loop.lost then lostFrame xs false (loopRange island s)
    else
      let cs := detCells q fun _ => none
      let lam := detectFrame img n i.zone e.set cs
      match syncSearch (syncScore lam) q.sync (if e.wide then 96 else 48) with
      | (none, _) => syncMiss island e.slot xs 0 s
      | (some c1, c2) =>
        if c1.2 < (syncThr img n i.zone e.set : Int) then syncMiss island e.slot xs c1.2 s
        else
          let kept := c2.filter fun (c : Nat × Int) => decide ((syncThr2 img n i.zone e.set : Int) ≤ c.2)
          let score2 := (kept.map fun (c : Nat × Int) => c.2).getD 0
          let s := noteTiming island r q c1.2.toNat score2.toNat s
          let s := modIsl s island fun i => { i with sbuf := i.sbuf.map fun d => if d.frame = e.frame then
            { d with cand1 := some (c1.1 : Int), cand2 := kept.map fun (c : Nat × Int) => (c.1 : Int), score2 } else d }
          if 1024 < erasedCells cs c1.1 then lostFrame xs false (tooErased island s)
          else
            let s := match visit with
              | some v =>
                let w := errorPower (targetTaps img n i.zone e.set) q lam c1.1
                gather n v.2 (fun q => { q with sum := q.sum + w.1, count := q.count + w.2 }) s
              | none => s
            queueFrame island n e wanted visit c1.1 c1.2.toNat cs lam s

/-- A slot of the pair under a channel visit (R430), in the pass that runs; rows under write and frames off track are left out. -/
def visitFrame (island n slot : Nat) (o : ArmOp) (step : Nat) (s : State) : State :=
  let i := getIsl s island
  let place := ((headPlaces s (n / 8) o).find? fun p => p.1 = n).map (·.2)
  let held := s.rows.any fun r => r.arm = n / 8 && r.q = o.row + slot / 16
  match place with
  | none => s
  | some p =>
    if 16 * gOf (zoneFmt s.img (n / 8) i.zone) ≤ slot || 4 ≤ step || held then s
    else
      let img := if step = 1 then putChan s.img n i.zone 0 i.trial.toNat else s.img
      let e := frameEntry { s with img } island slot 0 false
      let s := pushEntry island e (modIsl s island fun i => { i with set := 0 })
      if !(getHead s n).onRead || 2 ≤ (getHead s n).lostRun then s
      else
        let at_ (t : Nat) : Place := { p with slot, track := p.track / 2 * 2 + t }
        detectEntry img island e [] [(0, 1, at_ 0), (1, 1, at_ 1)] (some (o.at_, step)) s

/-- PREAMBLE_SEARCH (R107–R122, R194, R430): one frame of a reading head. -/
def execPreambleSearch (island : Fin 68) (slot : Nat) (s : State) : Host.Outcome State Fault Refusal := live s fun s =>
  let i := getIsl s island
  let n := 8 * i.arm + i.head
  let h := getHead s n
  let all := secsAt s i.arm i.head slot
  let xs := passSectors all
  .next (
    if !i.assigned || i.failed || i.state ≠ 2 || h.suspended || h.failed then s
    else match (visitStep s n).filter fun x => x.2.1.kind = 0 with
    | some x => visitFrame island n slot x.1 x.2.2 s
    | none =>
      if xs.isEmpty then s
      else
      let set := rungSet ((xs.map (·.rung)).foldl max 1)
      let e := frameEntry s island slot set (xs.any (·.missed))
      let s := pushEntry island e (modIsl s island fun i => { i with set })
      if !h.onRead || 2 ≤ h.lostRun then offTrackFrame xs s else detectEntry s.img island e xs (ladderTracks s all xs) none s)

/-- SECOND_CANDIDATE_REBUILD (R123, R124): the oldest request, from the samples of its entry, with the frame's position fixed by C2. Unavailable
without a free queue slot (R154). -/
def execSecondCandidateRebuild (island : Fin 68) (s : State) : Host.Outcome State Fault Refusal := live s fun s =>
  let i := getIsl s island
  let n := 8 * i.arm + i.head
  .next (
    match i.requests with
    | [] => s
    | (frame, t) :: rest =>
      if !i.assigned || i.failed || (i.state ≠ 2 && i.state ≠ 3) then s
      else
        let s := modIsl s island fun i => { i with requests := rest }
        match i.sbuf.find? fun e => e.frame = frame with
        | none => s
        | some e =>
          match waiting s island e.slot t, e.cand2, (acquireEntry s island e).2 with
          | x :: _, some c2, some q =>
            if s.bol.queue.length = 1024 then lostFrame [x] false s
            else
              let s := modIsl (if x.rung = 2 then enterRung 2 s else s) island fun i => { i with cand2Used := satInc 16 i.cand2Used }
              let p := c2.toNat
              let cs := detCells q (knownAt p)
              let lam := detectFrame s.img n i.zone e.set cs
              if 1024 < erasedCells cs p then lostFrame [x] false (tooErased island s)
              else
                let s := modIsl s island fun i => { i with sbuf := i.sbuf.map fun d => if d.frame = frame then { d with undecoded := d.undecoded ++ [t] } else d }
                enqueue {
                  island := island.val, arm := i.arm, head := i.head, track := t, zone := i.zone, slot := e.slot, cand := 1, set := e.set, score := e.score2.toNat,
                  erased := erasedCells cs p, sbuf := frame % 8, frame, expAddr := paddrOf s.layout.fmtId (framePlace s x t), soft := softBits lam p t, rung := x.rung } s
          | xs, _, _ => lostFrame xs false s)

-- Read-after-write check.

/-- What a check finds (R130): whether the sync mark was found, erased cells of the codeword, MSE and SW. -/
structure RawNumbers where
  synced : Bool := false
  erased : Nat := 0
  mse : Nat := 0
  sw : Nat := 0
deriving DecidableEq, Repr
/-- Result of a check (R131): 0 PASS, 1 MARGINAL, 2 FAIL. -/
def rawResult (s : State) (n z : Nat) (r : RawNumbers) : Nat :=
  let c (hi lo : Nat) : Nat := chanBits s.img n z 0 hi lo
  if !r.synced || 1024 < r.erased || c 65 54 < r.mse || c 41 30 < r.sw then 2
  else if r.mse ≤ c 77 66 && r.sw ≤ c 53 42 then 0
  else 1
/-- Result word of R133 (log entry 16): island 63:57, slot 56:44, track 43, result 42:41, MSE 40:29, SW 28:17. -/
def rawWord (island slot track res : Nat) (r : RawNumbers) : Word :=
  w64 (island * 2 ^ 57 + slot % 8192 * 2 ^ 44 + track * 2 ^ 43 + res * 2 ^ 41 + min r.mse 4095 * 2 ^ 29 + min r.sw 4095 * 2 ^ 17)
/-- Checking reader of a track (R129): RAW_EVEN or RAW_ODD of set 0. -/
def rawReaderB (s : State) (n z t : Nat) : Bool := decide (chanBits s.img n z 0 (29 - t) (29 - t) = 1)
/-- MSE (R130): the mean over the codeword's cells that are not erased, rounded half up (log entry 43). `bits` are the frame's symbols, `p` the
detection's cell at which its mark starts. -/
def rawMse (g : List Int) (t bits p : Nat) (ys : Array (Option (Int × Int))) : Nat :=
  let sym (k : Nat) : Bool := bits.testBit k
  let es := (List.range 36864).filterMap fun j => ((ys[p + 32 + j]?).join).map fun y =>
    let k := 224 + j
    let e := (if t = 0 then y.1 else y.2) - (g.getD 0 0 * pm (sym k) + g.getD 1 0 * pm (sym (k - 1)) + g.getD 2 0 * pm (sym (k - 2)))
    e * e
  if es.isEmpty then 0 else (roundDiv es.sum es.length).toNat
/-- SW (R130): parity checks that the hard decisions leave unsatisfied. -/
def rawSw (g : List Int) (t p : Nat) (ys : Array (Option (Int × Int))) : Nat :=
  let bits := viterbi g ((ys.extract p (p + 36928)).map fun y => y.map fun v => if t = 0 then v.1 else v.2)
  unsatisfied fun j => bits.getD (32 + j) false
/-- The check of a written frame on track t of a slot (R130): what it finds, and its timing. -/
def checkFrame (s : State) (n z slot t bits : Nat) : RawNumbers × Option (FrameRef × Acquired × Nat × Nat) :=
  let r := frameRefOf s n z slot (getHead s n).refs
  let c := checkChan s.img n z t (rawReaderB s n z t) (readerView s n 0) (readerView s n 1)
  match acquire c r 48 (some fun k => (bits.testBit k.toNat, bits.testBit k.toNat)) with
  | none => ({}, none)
  | some q =>
    let cs := detCells q fun _ => none
    let lam := detectOne c.g (chanBits s.img n z 0 139 128) (chanBits s.img n z 0 127 120) t cs
    match syncSearch (syncScoreOne lam t) q.sync 48 with
    | (some c1, c2) =>
      let score2 := ((c2.filter fun (c : Nat × Int) => decide ((syncThr2 s.img n z 0 : Int) ≤ c.2)).map fun c => c.2.toNat).getD 0
      if q.loop.lost || 2 * c1.2 < (syncThr s.img n z 0 : Int) then ({}, some (r, q, 0, 0))
      else ({ synced := true, erased := erasedCells cs c1.1, mse := rawMse c.g t bits c1.1 q.ys, sw := rawSw c.g t c1.1 q.ys }, some (r, q, c1.2.toNat, score2))
    | (none, _) => ({}, some (r, q, 0, 0))

/-- Sectors of rows under write at a place that wait for their check, the granted operation's first. -/
def underCheck (s : State) (a h t slot : Nat) : List (RowBuild × Nat) :=
  let mine := rowSecsAt s a h t slot
  let rest := s.rows.flatMap fun r => ((rowSectors s.img).filter fun k =>
    let p := rowPlace s r k.1 k.2.1 k.2.2
    p.arm = a && p.head = h && p.slot = slot && p.track % 2 = t).map fun k => (r, secKey k.1 k.2.1 k.2.2)
  (mine ++ rest).filter fun x => (rowSec x.1 x.2).st = 1
/-- Post a check's result (R133, R139, R140): to the tailrace, of a probe, which is counted nowhere, to the fantail (R431). A check that finds
no sync mark forms no MSE and no SW: RAW_MSE stands, and their fields are free (log entry 43). -/
def postCheck (island slot t : Nat) (c : RawNumbers × Option (FrameRef × Acquired × Nat × Nat)) (s : State) : State :=
  let i := getIsl s island
  let res := rawResult s (8 * i.arm + i.head) i.zone c.1
  let f := (freeVal s).toNat
  let r := if c.1.synced then c.1 else { c.1 with mse := f % 4096, sw := f / 4096 % 4096 }
  let s := if c.1.synced then s else nextFree s
  let s := match c.2 with
    | some (g, q, score, score2) => if c.1.synced then noteTiming island g q score score2 (modIsl s island fun i => { i with rawMse := min r.mse 4095 })
      else if q.loop.lost then loopRange island s else s
    | none => s
  let word := rawWord island slot t res r
  if isVisit s i.arm 1 then
    let n := 8 * i.arm + i.head
    let step : Nat := ((visitStep s n).map fun x => x.2.2).getD 3
    mqSend 8 [word] (if c.1.synced && decide (step < 3) then gather n step (fun q => { q with sum := q.sum + r.mse, count := q.count + 1 }) s else s)
  else
    let s := modIsl s island fun i => { i with
      rawPass := if res = 0 then satInc 32 i.rawPass else i.rawPass, rawMarginal := if res = 1 then satInc 16 i.rawMarginal else i.rawMarginal,
      rawFail := if res = 2 then satInc 16 i.rawFail else i.rawFail }
    let s := if res = 1 then post 0x44 mIsland [] s else if res = 2 then post 0x45 mIsland [] s else s
    let s := { s with fan := { s.fan with
      checks := tabMod (0, 0) s.fan.checks (64 * (8 * i.arm + i.head) + i.zone) fun c => (c.1 + b2n (decide (res = 1)), c.2 + b2n (decide (res = 2))) } }
    mqSend i.arm [word] s
/-- RAW_CHECK (R129–R133): the check of one frame of a writing head. A void check, whose sector `voidArm` has put back, is counted nowhere, posts
nothing and leaves RAW_MSE (log entry 43). -/
def execRawCheck (island : Fin 68) (slot : Nat) (s : State) : Host.Outcome State Fault Refusal := live s fun s =>
  let i := getIsl s island
  let n := 8 * i.arm + i.head
  .next (
    if !i.assigned || i.state ≠ 3 then s
    else
      match (writtenFrames s i.arm i.head).find? fun p => p.1.slot = slot with
      | none => s
      | some (p, cw) =>
        let t := p.track % 2
        if (if isVisit s i.arm 1 then (getHead s n).gated else (repairTarget s i.arm).isNone && (underCheck s i.arm i.head t slot).isEmpty) || i.failed then s
        else postCheck island slot t (checkFrame s n i.zone slot t (frameBits t cw)) s)

/-- A sector's check has a result (R54, R131): rewritten once, then remapped and written at its new place. -/
def checkDone (row k res : Nat) (s : State) : State :=
  match rowBuildOf s row with
  | none => s
  | some r =>
    if res = 0 then modRowSec row k (fun d => { d with st := 2, void := false }) s
    else
      let s := modRowSec row k (fun d => { d with st := 3, fails := d.fails + 1 }) s
      let s := if 1 ≤ (rowSec r k).fails then remapRow r k s else s
      match rowBuildOf s row with
      | some r => rewriteWork r k s
      | none => s
/-- A remap outside a row write passes and enters the defect table, or takes another free sector (R54). -/
def repairDone (a res : Nat) (x : Sector) (origin : Nat) (t : Nat × Nat × Nat) (s : State) : State :=
  match opOf s a with
  | none => s
  | some o =>
    let s := { s with slu := { s.slu with ops := tabSet none s.slu.ops a (some { o with want := [] }) } }
    if res = 0 then dropSec x (enterDefect (remapEntry x origin t) s)
    else addWork {
      arm := a, kind := .repair, lArm := x.arm, row := x.row, heads := o.heads, track := x.track, want := o.want, arrival := o.arrival + 4 } s
/-- RAW_RESULT_HANDLE (R131, R133): the tailrace takes the oldest result of the island's arm. -/
def execRawResultHandle (island : Fin 68) (s : State) : Host.Outcome State Fault Refusal := live s fun s =>
  let a := (getIsl s island).arm
  .next (
    match (getMq s a).words with
    | [] => s
    | (w, _) :: rest =>
      let s := modMq s a fun m => { m with words := rest, packets := m.packets - 1 }
      let i := getIsl s (bitsOf 63 57 w.toNat)
      let track := bitsOf 43 43 w.toNat
      let slot := bitsOf 56 44 w.toNat
      let res := bitsOf 42 41 w.toNat
      match underCheck s i.arm i.head track slot, repairTarget s i.arm with
      | x :: _, _ => checkDone x.1.row x.2 res s
      | [], some (x, origin, t) => repairDone i.arm res x origin t s
      | [], none => s)

-- The data path of a head.

/-- A head takes part in its arm's operation (R420, R421): island ungated, MODE 2 or 3 with RAW_READER of the track that it writes (R129), the laser for a
write. -/
def engageHead (a h : Nat) (o : ArmOp) (s : State) : State :=
  let n := 8 * a + h
  let z := (getHead s n).zone
  let i := getIsl s (getHead s n).island
  let write := writesMedium o.kind || o.visit.any fun v => v.kind = 1
  if (getHead s n).failed || (!write && (getHead s n).suspended) || 4 ≤ i.state then s
  else
    let s := modIsl s (getHead s n).island fun i => if i.assigned && 8 * i.arm + i.head == n && i.state = 1 then
      { i with state := if write then 3 else 2, set := if write then 0 else i.set } else i
    let track := (((headPlaces s a o).find? fun p => p.1 = n).map (·.2.track)).getD o.track
    let raw := if write then b2n (rawReaderB s n z (track % 2)) else 0
    let s := if (getHead s n).mode = (if write then 3 else 2) && (getHead s n).raw = raw then s else sendMode a h (if write then 3 else 2) raw s
    if write then
      sendLaser a h (offOpI s.img n z) (offBiasI s.img n z) (offLead s.img n z) (modHead s n fun d => { d with streamed := false })
    else s

-- Failed islands and steering.

/-- Lowest free good spare (R101, R103). -/
def freeSpare (s : State) : Option Nat := [64, 65, 66, 67].find? fun k => !(getIsl s k).assigned && !(getIsl s k).failed &&
  !((List.range 68).any fun j => (getIsl s j).steering = some k)
/-- A head's writing stops with its island: what is under check there is lost (R96, R101, R103, R132). -/
def stopHead (n : Nat) (s : State) : State :=
  let s := voidArm unposted (n / 8) [n % 8] s
  if (getHead s n).writing then stopWriter n s else s
/-- An island fails (R103): `why` is 0 an uncorrectable error, 1 a parity error, 2 no frame in two slot times. What it held is lost; its head
is steered to a spare at the next wedge gap, and with none free the part enters Fault-hold. `own` is false when its patrol reports it. -/
def failIsland (island why : Nat) (own : Bool) (s : State) : State :=
  let i := getIsl s island
  let n := 8 * i.arm + i.head
  if i.failed then s
  else
    let spare := if i.assigned then freeSpare s else none
    let cause := if why = 0 then 2 else if why = 1 then 6 else 5
    let s := dropRequests island (fun _ => true) (if i.assigned then stopHead n s else s)
    let s := modIsl s island fun i => { i with failed := true, state := 5, sbuf := [], steering := spare }
    let s := if i.assigned then modHead s n fun h => { h with suspended := true } else s
    if own then condition 0x46 mIsland cause (i.assigned && spare.isNone) [b1 why] s else post 0x46 mIsland [b1 why] s
/-- ISLAND_FAIL (R103). -/
def execIslandFail (island : Fin 68) (why : Fin 3) (s : State) : Host.Outcome State Fault Refusal := live s fun s =>
  .next (failIsland island why true s)
/-- The crossbar steers a head to an island that no head uses (R101): the requests of the old one end (R124), the head's parameters go over before
the wedge (R184), and its reading and writing wait for the tables. -/
def steerHead (n island : Nat) (s : State) : State :=
  let old := (getHead s n).island
  let s := dropGathered n (dropRequests old (fun _ => true) (stopHead n s))
  let s := modIsl s old fun i => if i.assigned && 8 * i.arm + i.head == n then
    { i with assigned := false, state := if i.failed then 5 else 0, steering := none, sbuf := [] } else i
  let s := modIsl s island fun i => { i with assigned := true, arm := n / 8, head := n % 8, state := 4, sbuf := [] }
  post 0x47 mIsland [] (handServo n (modHead s n fun h => { h with island, suspended := true }))
/-- A planned change waits for a row boundary on the head, and up to 32 µs for the old island's requests (R101). -/
def steerWaits (n : Nat) (s : State) : Bool :=
  let old := getIsl s (getHead s n).island
  !old.failed && (((opOf s (n / 8)).any fun o => o.heads.contains (n % 8)) || (!old.requests.isEmpty && decide (since s old.steerAt < 32000)))
/-- ISLAND_REASSIGN (R100, R101): the start of a wedge gap, at which a head goes over to another island or the planned change waits on. -/
def execIslandReassign (arm head : Fin 8) (island : Fin 68) (s : State) : Host.Outcome State Fault Refusal := live s fun s =>
  let n := 8 * arm.val + head.val
  let t := getIsl s island
  let old := (getHead s n).island
  .next (
    if t.assigned || t.failed || (getHead s n).failed || !headFitted s.img n then s
    else
      let s := if (getIsl s old).steering = some island.val then s else modIsl s old fun i => { i with steering := some island.val, steerAt := now s }
      if steerWaits n s then s else steerHead n island s)

/-- ISLAND_TABLES_LOADED (R101): reading and writing of the head go on, under the operation that its arm runs. -/
def execIslandTablesLoaded (island : Fin 68) (s : State) : Host.Outcome State Fault Refusal := live s fun s =>
  let i := getIsl s island
  let n := 8 * i.arm + i.head
  .next (
    if i.state = 4 && i.assigned then
      let s := modIsl s island fun i => { i with state := 1 }
      let s := modHead s n fun h => { h with suspended := s.bol.suspended.contains (i.arm, i.head) }
      match opOf s i.arm with
      | some o => if o.heads.contains i.head && !(o.visit.any fun v => v.kind = 2) then engageHead i.arm i.head o s else s
      | none => s
    else s)

end Sys2Proof.Machine
end

