-- ==== Sys2Proof/Machine/Thermal.lean ====
section
/-! DEFINITION. Thermal sensors (R410–R412, R623): the filters and levels of Table 13.3 and the commands that bring readings. Sensors are
numbered 0 the part die, 1 + a the FZA816 of arm a, 9 + a the head stack of arm a. -/

namespace Sys2Proof.Machine

/-- Row of Table 13.3 of a sensor. -/
def thermRow (k : Nat) : Nat := if k = 0 then 0 else if k < 9 then 1 else 2
/-- Threshold of a level in 0.0625 °C. -/
def thermThr (s : State) (k level : Nat) : Int := 16 * (thermLevel s.img (thermRow k) level : Int)
/-- A level is entered at its threshold and left 2 °C below it (R410). -/
def inLevel (s : State) (k old level : Nat) (t : Int) : Bool :=
  decide (thermThr s k level ≤ t) || (decide (level ≤ old) && decide (thermThr s k level - 32 < t))
def levelFor (s : State) (k old : Nat) (t : Int) : Nat :=
  if inLevel s k old 3 t then 3 else if inLevel s k old 2 t then 2 else if inLevel s k old 1 t then 1 else 0
/-- Readings that a sensor's mean takes: the last 10 ms of the die, the last 16 or 64 reports of the rest (R410). -/
def thermWindow (s : State) (k : Nat) (rs : List (Nat × Int)) : List (Nat × Int) :=
  if k = 0 then rs.filter fun r => decide (now s < r.1 + 10 * oneMs)
  else rs.drop (rs.length - (if k < 9 then 16 else 64))
/-- Mean of the window, rounded toward minus infinity (log entry 15). -/
def thermMean (rs : List (Nat × Int)) : Int := (rs.map (·.2)).sum / rs.length

/-- SHUT (R412): the die and the arm electronics hand over to a SYNCED partner, a head stack never does. -/
def thermalShut (k : Nat) (s : State) : State :=
  let s := post 0xC6 mSluice [] s
  if 9 ≤ k then stopSequence true 0xC6 { s with flt := { s.flt with failstop := true } } else failStop 0xC6 s

/-- A sensor's level has become `level` at temperature `t` (R411, R412). -/
def setLevel (k level : Nat) (t : Int) (s : State) : State :=
  let old := (getTherm s k).level
  let s := modTherm s k fun d => { d with level }
  let s := if old < 1 ∧ 1 ≤ level then post 0xC2 mSluice [b1 k, b8 t] s else s
  let s := if old < 2 ∧ 2 ≤ level then post 0xC3 mSluice [b1 k, b8 t] s else s
  let s := if 1 ≤ old ∧ level = 0 ∧ (List.range 17).all (fun j => (getTherm s j).level = 0) then post 0xC4 mSluice [] s else s
  if old < 3 ∧ level = 3 then thermalShut k s else s

/-- A new reading of a sensor (R410). -/
def thermalReading (k : Nat) (t : Int) (s : State) : State :=
  let rs := thermWindow s k ((getTherm s k).reports ++ [(now s, t)])
  let m := thermMean rs
  let d := getTherm s k
  let old := if d.unreported then d.was else d.level
  let s := modTherm s k fun d => { d with reports := rs, mean := m, unreported := false }
  setLevel k (levelFor s k old m) m s

/-- A sensor unreported for 100 ms counts as at its CRIT level (R410); the sensors of an absent arm are none. -/
def thermalUnreported (k : Nat) (s : State) : State :=
  if (getTherm s k).unreported || (k ≠ 0 && decide (s.img.arms ≤ (k - 1) % 8)) then s
  else
    let s := post 0xC5 mSluice [] (modTherm s k fun d => { d with unreported := true, was := d.level })
    setLevel k (max 2 (getTherm s k).level) (getTherm s k).mean s

/-- THERMAL_SENSOR_READ (R623): a reading outside −40 to 150 °C marks its sensor failed; the part-die value is the highest working
sensor, and fewer than 12 working sensors make it unreported. -/
def execThermalSensorRead (t : Vector Int 16) (s : State) : Host.Outcome State Fault Refusal := live s fun s =>
  let bad (i : Nat) : Bool := s.pwr.tempFailed.getLsbD i || decide (t.toList.getD i 0 < -640) || decide (2400 < t.toList.getD i 0)
  let failed := (List.range 16).foldl (fun (b : BitVec 16) i => if bad i then b ||| BitVec.twoPow 16 i else b) 0
  let works := (List.range 16).filter fun i => !bad i
  let temps := Vector.ofFn fun (i : Fin 16) => if bad i.val then (-32768 : Int) else t[i]
  let s := { s with pwr := { s.pwr with tempFailed := failed, temps } }
  .next (if works.length < 12 then s
    else thermalReading 0 ((works.map fun i => t.toList.getD i 0).foldl max (-640)) s)

/-- TEMP_TELEMETRY (R410, Table 3.3): the die and the head-stack sensor of an arm. -/
def execTempTelemetry (arm : Fin 8) (word : Word) (s : State) : Host.Outcome State Fault Refusal := live s fun s =>
  let die := signedOf 16 (bitsOf 47 32 word.toNat)
  let stack := signedOf 16 (bitsOf 31 16 word.toNat)
  let s := modAlk s arm fun k => { k with dieTemp := some die, stackTemp := some stack }
  .next (thermalReading (9 + arm) stack (thermalReading (1 + arm) die s))

/-- SENSOR_UNREPORTED (R410). -/
def execSensorUnreported (sensor : Fin 17) (s : State) : Host.Outcome State Fault Refusal := live s fun s => .next (thermalUnreported sensor s)

end Sys2Proof.Machine
end

