-- ==== Sys2Proof/Machine/Budget.lean ====
section
/-! DEFINITION. The sluice's power model (R406–R409), the thermal scopes (R411), and the granted budget (R28, R403, R405). Powers are exact
numbers in mW; budgets are in 0.1 W. -/

namespace Sys2Proof.Machine

-- Terms of the model (Table 13.1).

/-- Sectors of the operation under a head in 16 slots; a channel visit reads both tracks (R430). -/
def sectorsOn (s : State) (a : Nat) (o : ArmOp) (h : Nat) : Nat :=
  if o.visit.any fun v => v.kind = 0 then 32 else ((opPlaces s a o).filter fun p => p.head = h).length

/-- Sample rate of a zone in GS/s. -/
def rateGs (z : ZoneFmt) : Rat := if z.samplePeriod = 0 then 0 else 56 * 2 ^ 32 / (z.samplePeriod : Rat)
/-- Slots per second of one track at N_SVC. -/
def slotRate (s : State) (z : ZoneFmt) : Rat := (z.sz : Rat) * nSvc s.img / 60
/-- Recent mean iterations of a head (R155). -/
def recentMean (s : State) (n : Nat) : Rat :=
  match tabGet [] s.bol.recent n with
  | [] => iterMax s.img n (getHead s n).zone
  | xs => (xs.sum : Rat) / xs.length
/-- An operation writes: its kind does, or it is a probe visit (R431). -/
def opWrites (o : ArmOp) : Bool := writesMedium o.kind || o.visit.any fun v => v.kind = 1
/-- Read or write term of one head (R406): a read term leaves the model while the head is suspended (R422). -/
def headPower (s : State) (write : Bool) (n z : Nat) : Rat :=
  let r := rateGs (zoneFmt s.img (n / 8) z)
  if (getHead s n).failed then 0
  else if write then (pWhFix s.img : Rat) + pWhGs s.img * r + (offOpI s.img n z : Rat) * laserV s.img / 1000000
  else if (getHead s n).suspended then 0
  else (pRhFix s.img : Rat) + pRhGs s.img * r
/-- Blocks per second that an operation moves: its sectors over the time of one row's 16 slots. -/
def opRate (s : State) (a : Nat) (o : ArmOp) (count : Nat) : Rat :=
  match headPlaces s a o with
  | [] => 0
  | p :: _ => (count : Rat) * slotRate s (zoneFmt s.img a p.2.zone) / 16
/-- Data sectors of an operation on this arm in 16 slots. -/
def dataSectors (s : State) (a : Nat) (o : ArmOp) : Nat :=
  if o.visit.any fun v => v.kind = 0 then 32 * (o.heads.filter fun h => h ≠ parHead s.img o.row).length
  else if o.visit.any fun v => v.kind = 1 then 16 * o.heads.length
  else ((opKeys o).filter fun e => e.2 / 32 ≠ parHead s.img e.1 && (keyPlace s o e.1 e.2).arm = a).length
/-- Codeword rate times recent mean iterations over the reading heads of an operation. -/
def decodeRate (s : State) (a : Nat) (o : ArmOp) : Rat :=
  if opWrites o || o.visit.any (fun v => v.kind = 2) then 0
  else (o.heads.map fun h =>
    if (getHead s (8 * a + h)).suspended then 0 else opRate s a o (sectorsOn s a o h) * recentMean s (8 * a + h)).sum
/-- Heads and medium-path transfer of an operation; a calibration reads and writes nothing (R432). -/
def opPower (s : State) (a : Nat) (o : ArmOp) : Rat :=
  (if o.visit.any fun v => v.kind = 2 then 0 else ((headPlaces s a o).map fun p => headPower s (opWrites o) p.1 p.2.zone).sum) +
    opRate s a o (dataSectors s a o) * (if opWrites o then eWrBlk s.img else eRdBlk s.img) / 1000000
/-- Decoder term of a total rate. -/
def decoderPower (s : State) (rate : Rat) : Rat := (eIter s.img : Rat) * min rate 240000000 / 1000000
/-- Read and write work of a set of operations, seeks left out. -/
def rwWork (s : State) (ops : List (Nat × ArmOp)) : Rat :=
  (ops.map fun p => opPower s p.1 p.2).sum + decoderPower s ((ops.map fun p => decodeRate s p.1 p.2).sum)
/-- Operations that run. -/
def running (s : State) : List (Nat × ArmOp) := (List.range 8).filterMap fun a => (opOf s a).map fun o => (a, o)
/-- Choices that wait for power ahead of an arm: those before its own place, or all where it holds none (R419). -/
def waitingOps (s : State) (a : Nat) : List (Nat × ArmOp) :=
  (s.slu.line.takeWhile (· ≠ a)).filterMap fun b => (tabGet none s.slu.chosen b).map fun w => (b, opOfWork w)
/-- The seek of an arm draws power from the start to the end of its trajectory. -/
def seekNow (s : State) (p : Nat × ArmOp) : Rat :=
  if (getArm s p.1).seek.any fun k => !k.micro && decide (k.n < k.len) then p.2.seekPower else 0
def seekWork (s : State) : Rat := ((running s).map (seekNow s)).sum
/-- The modelled power in mW. -/
def modelPower (s : State) : Rat := floorPower s + rwWork s (running s) + seekWork s

/-- SEEK_E (R407): linear between the points, held beyond the last. -/
def seekEnergy (i : Image) (d : Rat) : Rat :=
  go (seekEnergyPoints i)
where
  go : List (Nat × Nat) → Rat
    | [] => 0
    | [p] => p.2
    | p :: q :: rest =>
      if d ≤ p.1 then p.2
      else if d ≤ q.1 then (p.2 : Rat) + ((q.2 : Rat) - p.2) * (d - p.1) / (q.1 - p.1 : Nat)
      else go (q :: rest)

-- Positioning of an operation.

/-- Targets y* of an arm's loaded heads for an operation (R186); a head that takes no part goes to the pair of the first that does. -/
def opTargets (s : State) (a : Nat) (o : ArmOp) : List (Nat × Int) :=
  let ps := headPlaces s a o
  let lead := (ps.head?.map (·.2)).getD {}
  (loadedHeads s a).map fun n =>
    let p := ((ps.find? fun x => x.1 = n).map (·.2)).getD lead
    (n, if opWrites o then writeTarget s n p.zone p.track else readTarget s n p.zone (p.track / 2))
/-- Heads' zones for an operation. -/
def opZone (s : State) (a : Nat) (o : ArmOp) (n : Nat) : Nat :=
  let ps := headPlaces s a o
  (((ps.find? fun x => x.1 = n).map (·.2.zone)).getD ((ps.head?.map (·.2.zone)).getD 0))
/-- The heads with the zones of an operation, before any message. -/
def zoned (a : Nat) (o : ArmOp) (s : State) : State := each (loadedHeads s a) (fun n s => modHead s n fun h => { h with zone := opZone s a o n }) s
/-- Every head stands at the operation's targets already. -/
def inPlace (s : State) (a : Nat) (o : ArmOp) : Bool := (getArm s a).state = 5 && (opTargets s a o).all fun t => (getHead s t.1).goal = t.2
/-- Seek distance in 2^-12 track; none for a micro-seek or an operation in place (R190). -/
def seekDist (s : State) (a : Nat) (o : ArmOp) : Option Int :=
  let s := zoned a o s
  let ts := opTargets s a o
  if (getArm s a).state = 5 && ts.all fun t => decide ((t.2 - (getHead s t.1).pos).natAbs ≤ 16 * 4096) then none
  else some (armTarget s ts - armPos s a)
/-- Power of the operation's seek in mW, rounded up. -/
def seekPowerOf (s : State) (a : Nat) (o : ArmOp) : Nat :=
  match seekDist s a o with
  | none => 0
  | some d =>
    let n := seekLen (seekOf s.img a) d
    if n = 0 then 0 else (seekEnergy s.img ((d.natAbs : Rat) / 4096) * (s.img.wedges * nSvc s.img : Nat) / (60 * n)).ceil.toNat

-- Limits.

/-- An operation fits the budget beside what runs and what waits before it (R406, R407, R419). -/
def fitsPower (s : State) (a : Nat) (o : ArmOp) : Bool :=
  match budgetMw s with
  | none => true
  | some b =>
    let others := running s ++ waitingOps s a
    let seeks := seekWork s + seekPowerOf s a o + ((waitingOps s a).map fun p => (seekPowerOf s p.1 p.2 : Rat)).sum
    decide (floorPower s ≤ b) && decide (floorPower s + rwWork s ((a, o) :: others) + max (seekRes s.img : Rat) seeks ≤ b)
/-- Full-stack read work at zone 0 of so many arms, at the most that the decoder can draw (R409). -/
def fullRead (s : State) (arms : List Nat) : Rat :=
  let h := s.img.heads
  let z (a : Nat) : ZoneFmt := zoneFmt s.img a 0
  let codewords := (arms.map fun a => 2 * (h : Rat) * slotRate s (z a)).sum
  (arms.map fun a => (h : Rat) * ((pRhFix s.img : Rat) + pRhGs s.img * rateGs (z a))).sum + decoderPower s (codewords * 20) +
    (arms.map fun a => 2 * ((h : Rat) - 1) * slotRate s (z a) * eRdBlk s.img / 1000000).sum
/-- The full-service budget in 0.1 W, rounded up (R409). -/
def fullBudget (s : State) : Nat :=
  let i := s.img
  let heads := i.arms * i.heads
  (((pBase i : Rat) + pSpinNom i + pStage i + pArmTf i * i.arms + (pHeadSrv i + pHtrRd i : Nat) * heads + fullRead s (armList s) + seekRes i) / 100).ceil.toNat
/-- W_allow of a scope: none is no limit, and nothing is granted at CRIT (R411). -/
def scopeAllows (s : State) (k : Nat) (arms : List Nat) (work : Rat) : Bool :=
  let t := getTherm s k
  if t.unreported || 2 ≤ t.level then false
  else if t.level = 1 then
    let warn := thermThr s k 1
    let crit := thermThr s k 2
    decide (work * (crit - warn) ≤ fullRead s arms * (crit - t.mean))
  else true
/-- An operation fits the three scopes that hold its arm. -/
def fitsHeat (s : State) (a : Nat) (o : ArmOp) : Bool :=
  let seek : Rat := seekPowerOf s a o
  let all := rwWork s ((a, o) :: running s) + seekWork s + seek
  let mine := rwWork s ((a, o) :: (running s).filter fun p => p.1 = a) + seek
  scopeAllows s 0 (armList s) all && scopeAllows s (1 + a) [a] mine && scopeAllows s (9 + a) [a] mine

-- The granted budget.

/-- The lower of two budgets; none is no limit. -/
def minBudget : Option Nat → Option Nat → Option Nat
  | none, b => b
  | a, none => a
  | some a, some b => some (min a b)
/-- The PWM budget that takes part: the least decoded over the last 100 ms (R405). -/
def pwmInForce (s : State) : Option Nat :=
  if bpwmEn s.img then s.slu.decoded.foldl (fun b d => minBudget b d.2) none else none
/-- Form the granted budget again (R403): event 0xC0 with its source (0 host, 1 PWM) and value, and the speed curve follows (R255). -/
def refreshBudget (source : Nat) (s : State) : State :=
  let g := minBudget s.slu.host (pwmInForce s)
  if g = s.slu.granted then s
  else
    let s := { s with slu := { s.slu with granted := g } }
    checkFloor (followBudget (post 0xC0 mSluice [b1 source, b8 (g.getD 0xFFFF)] s))

end Sys2Proof.Machine
end

