-- ==== Sys2Proof/Machine/Bolter.lean ====
section
/-! DEFINITION. The bolter (chapter 5): the pool of engines and its spares (R151–R153, R166), the end of a decode and its checks (R148–R150),
errors in the codeword queue (R167), and suspension and resumption under pressure (R155, R156, R422). -/

namespace Sys2Proof.Machine

/-- An engine of the pool: 0 to 95, or a spare that is mapped in, and not failed (R151). -/
def inPool (s : State) (e : Nat) : Bool := !(getEngine s e).failed && (decide (e < 96) || s.bol.spareMap.any fun m => m.1 = e - 96)
/-- Queue slots that an engine decodes. -/
def takenSlots (s : State) : List Nat := s.bol.engines.filterMap fun e => e.2.busy
/-- The codeword that the next free engine takes (R153): retries before first decodes, each in order of completion. -/
def nextCodeword (s : State) : Option (Nat × Codeword) :=
  let free := s.bol.queue.filter fun q => !((takenSlots s).contains q.1)
  match free.find? fun q => decide (2 ≤ q.2.rung) with
  | some q => some q
  | none => free.head?
/-- CODEWORD_TAKE (R153). -/
def execCodewordTake (engine : Fin 100) (s : State) : Host.Outcome State Fault Refusal := live s fun s =>
  .next (
    if inPool s engine && (getEngine s engine).busy.isNone then
      match nextCodeword s with
      | some q => modEngine s engine fun e => { e with busy := some q.1 }
      | none => s
    else s)

/-- The queue has fallen below QUEUE_LWM (R156): resumption begins. -/
def pressureDown (s : State) : State :=
  if s.bol.pressure = 1 && decide (s.bol.queue.length < queueLwm s.img) then { s with bol := { s.bol with pressure := 2 } } else s
/-- Free a queue slot (R152), and the sample-buffer entry no longer waits for that track (R122). -/
def freeCodeword (k : Nat) (c : Codeword) (s : State) : State :=
  let s := modIsl s c.island fun i => { i with
    sbuf := i.sbuf.map fun e => if e.frame = c.frame then { e with undecoded := e.undecoded.erase c.track } else e }
  let s := { s with bol := { s.bol with
    queue := s.bol.queue.filter fun q => q.1 ≠ k, engines := s.bol.engines.filter fun e => e.2.failed || e.2.busy ≠ some k } }
  pressureDown s
/-- The sector that a codeword decodes, while the ladder still wants it. -/
def codewordSector (s : State) (c : Codeword) : Option Sector :=
  s.bol.sectors.find? fun x =>
    secParity s x = c.track && decide (x.rung ≤ 6) && (x.info.isNone || x.followUp) && (secPlace s x).arm = c.arm && (secPlace s x).head = c.head &&
      (secPlace s x).slot = c.slot
/-- A decode has failed at its rung. The failure of a rung that the sector has left behind by reconstruction changes nothing. -/
def codewordFailed (k : Nat) (c : Codeword) (s : State) : State :=
  let x := if c.visit.isSome then none else (codewordSector s c).filter fun x => x.rung = c.rung
  let s := freeCodeword k c s
  match x with | some x => rungFailed x c.island c.frame false s | none => s
/-- A decode has succeeded. -/
def codewordPassed (k : Nat) (c : Codeword) (i : Info) (s : State) : State :=
  let x := codewordSector s c
  let s := freeCodeword k c s
  let s := if c.cand = 1 then post 0x41 mIsland [] s else s
  match x with | some x => rungPassed c.rung x i s | none => leaveRung c.rung s
/-- Iterations of a first decode are counted per head and in the histogram (R155, R172), those of host reads per head and zone (Table 14.1). -/
def countIterations (c : Codeword) (it : Option Nat) (limit : Nat) (s : State) : State :=
  if c.rung ≠ 1 then s
  else
    let n := 8 * c.arm + c.head
    let host := c.visit.isNone && (opOf s c.arm).any fun o => !o.repair && (o.kind == .rowRead || o.kind == .partialRead)
    let s := if host then
        let count (xs : List Nat) : List Nat := (List.range 21).map fun k => xs.getD k 0 + b2n (decide (k + 1 = it.getD 21))
        { s with fan := { s.fan with iters := tabMod [] s.fan.iters (64 * n + c.zone) count } }
      else s
    { s with bol := { s.bol with
        hist := tabMod 0 s.bol.hist (it.getD 21) (satInc 64), recent := tabMod [] s.bol.recent n fun xs => (xs ++ [it.getD limit]).drop (xs.length + 1 - 1024) } }
/-- A codeword of a channel visit has been decoded: its block is discarded, and the pass counts it (R430, R438). -/
def visitDecoded (k : Nat) (c : Codeword) (ok : Bool) (iters : Nat) (s : State) : State :=
  let s := freeCodeword k c s
  match c.visit with
  | some v =>
    if (opOf s c.arm).any fun o => o.at_ = v.1 && o.visit.isSome then
      gather (8 * c.arm + c.head) v.2 (fun q => { q with words := q.words + 1, iters := q.iters + iters, fails := q.fails + b2n (!ok) }) s
    else s
  | none => s
/-- DECODE_DONE (R148–R150): the four conditions, and what a failed one is counted as. Non-zero reserved bits beside another PADDR count as a
miscorrection alone (log entry 54). -/
def execDecodeDone (engine : Fin 100) (s : State) : Host.Outcome State Fault Refusal := live s fun s =>
  .next (
    match (getEngine s engine).busy.bind fun k => s.bol.queue.find? fun q => q.1 = k with
    | none => s
    | some (k, c) =>
      let limit := if c.rung = 1 then iterMax s.img (8 * c.arm + c.head) c.zone else 20
      let (it, bits) := ldpcDecode limit c.soft
      let i : Info := bits.setWidth 33152
      let s := countIterations c it limit s
      let failed (s : State) : State := if c.visit.isSome then visitDecoded k c false (it.getD limit) s else codewordFailed k c s
      if it.isNone then failed s
      else if infoCrcOf i ≠ infoCrc i || infoReserved i ≠ 0 then
        failed (post 0x4C mBolter [] { s with bol := { s.bol with miscorrect := satInc 16 s.bol.miscorrect } })
      else if infoPaddr i ≠ c.expAddr then
        failed (post 0x4B mBolter [b8 c.expAddr.toNat, b8 (infoPaddr i).toNat] { s with bol := { s.bol with addrMismatch := satInc 16 s.bol.addrMismatch } })
      else if c.visit.isSome then visitDecoded k c true (it.getD limit) s
      else codewordPassed k c i s)

/-- An engine fails (R166): its codeword is decoded again, and the lowest free spare takes its place. A fifth failure stops the part. A spare
outside the pool is only marked, so that none maps it. `own` is false when its patrol reports it. -/
def failEngine (e cause : Nat) (own : Bool) (s : State) : State :=
  let note (spare : Nat) (s : State) : State := if own then condition 0x4F mBolter cause false [b1 e, b1 spare] s else post 0x4F mBolter [b1 e, b1 spare] s
  if (getEngine s e).failed then s
  else
    let used := inPool s e
    let s := modEngine s e fun g => { g with failed := true, busy := none }
    if !used then note 0xFF s
    else
      let old := if e < 96 then e else ((s.bol.spareMap.find? fun m => m.1 = e - 96).map (·.2)).getD 0
      match [0, 1, 2, 3].find? fun n => !(s.bol.spareMap.any fun m => m.1 = n) && !(getEngine s (96 + n)).failed with
      | some n => note (96 + n) { s with bol := { s.bol with spareMap := (s.bol.spareMap.filter fun m => m.1 ≠ e - 96 || e < 96) ++ [(n, old)] } }
      | none => failStop 0x4F (note 0xFF s)
/-- ENGINE_TIMEOUT (R166): `why` is 0 no result within 8.4 µs of taking a codeword, 1 an uncorrectable error in its memories, 2 a parity error in
its control state. -/
def execEngineTimeout (engine : Fin 100) (why : Fin 3) (s : State) : Host.Outcome State Fault Refusal := live s fun s =>
  .next (if why = 0 && (getEngine s engine).busy.isNone then s else failEngine engine (([5, 2, 6] : List Nat).getD why 5) true s)
/-- QUEUE_SLOT_UE (R167). -/
def execQueueSlotUe (slot : Fin 1024) (s : State) : Host.Outcome State Fault Refusal := live s fun s =>
  .next (
    match s.bol.queue.find? fun q => q.1 = slot.val with
    | some (k, c) => codewordFailed k c (report { master := mBolter, cause := 2, mem := 0x52 } s)
    | none => s)

/-- Heads that read: their island's data path is in reading. -/
def readingHeads (s : State) : List Nat :=
  (allHeads s).filter fun n => !(getHead s n).suspended && (getIsl s (getHead s n).island).assigned && (getIsl s (getHead s n).island).state = 2
/-- HEAD_SUSPEND_TICK (R155): the reading head with the highest recent mean, a tie to the lower island. -/
def execHeadSuspendTick (s : State) : Host.Outcome State Fault Refusal := live s fun s =>
  .next (
    if s.bol.pressure = 1 && decide (queueLwm s.img ≤ s.bol.queue.length) then
      let best := (readingHeads s).foldl (fun (b : Option Nat) n =>
        match b with
        | none => some n
        | some m =>
          if recentMean s m < recentMean s n || (recentMean s m = recentMean s n && (getHead s n).island < (getHead s m).island) then some n else some m) none
      match best with
      | some n => suspendHead n s
      | none => s
    else s)

/-- A head that resumes still fits the budget and the thermal limits (R422). -/
def resumeFits (s : State) (n : Nat) : Bool :=
  let s := modHead s n fun h => { h with suspended := false }
  let a := n / 8
  let all := rwWork s (running s) + seekWork s
  let mine := rwWork s ((running s).filter fun p => p.1 = a)
  ((budgetMw s).all fun b => decide (floorPower s + rwWork s (running s) + max (seekRes s.img : Rat) (seekWork s) ≤ b)) &&
    scopeAllows s 0 (armList s) all && scopeAllows s (1 + a) [a] mine && scopeAllows s (9 + a) [a] mine
/-- HEAD_RESUME_TICK (R156, R422): the next head in order of suspension; the fantail last. -/
def execHeadResumeTick (s : State) : Host.Outcome State Fault Refusal := live s fun s =>
  .next (
    if s.bol.pressure ≠ 2 then s
    else match s.bol.suspended with
      | [] => post 0x4E mBolter [] { s with bol := { s.bol with pressure := 0, fantailSuspended := false } }
      | (a, h) :: rest =>
        let n := 8 * a + h
        if !resumeFits s n then s
        else
          let s := { s with bol := { s.bol with suspended := rest } }
          let s := modHead s n fun d => { d with suspended := (getIsl s d.island).state = 4 || (getIsl s d.island).state = 5 }
          if (opOf s a).any fun o => o.heads.contains h && !writesMedium o.kind then
            let s := modIsl s (getHead s n).island fun i => if i.state = 1 then { i with state := 2 } else i
            mqNote 23 (sendMode a h 2 0 s)
          else mqNote 23 s)

end Sys2Proof.Machine
end

