-- ==== Sys2Proof/Machine/Rows.lean ====
section
/-! DEFINITION. Rows from dirty blocks to the medium (chapters 2 and 9): which row is built (R290, R299, R666), its commit (R66, R67, R293, R294),
a failed head's rows in progress (R60, R61), and the rebuild of a failed head (R57, R58, R62). -/

namespace Sys2Proof.Machine

-- Choice of rows (R290).

/-- HELD current versions of a row. -/
def heldBlocks (s : State) (row : Nat) : List (Nat × LedgerEntry) :=
  s.mpd.ledger.filter fun fe => fe.2.valid && fe.2.state = 1 && rowOf s.img fe.2.lba.toNat = row
/-- Every block of the row is dirty and HELD. -/
def fullRow (s : State) (row : Nat) : Bool :=
  decide ((heldBlocks s row).length = (min (bR s.img) (s.img.capacity - bR s.img * row))) && !(heldBlocks s row).isEmpty
/-- Rows with HELD blocks, and those to be written again (R62). -/
def heldRows (s : State) : List Nat :=
  (s.mpd.rewriteRows ++ (s.mpd.ledger.filter fun fe => fe.2.valid && fe.2.state = 1).map fun fe => rowOf s.img fe.2.lba.toNat).eraseDups
/-- When the oldest HELD block of a row became dirty. -/
def oldestHeld (s : State) (row : Nat) : Nat :=
  let ts := (heldBlocks s row).map fun fe => tabGet 0 s.mpd.dirtySince fe.1
  ts.foldl min (ts.headD 0)
/-- A FLUSH or VERIFY waits for a block of the row (R290 rule 4). -/
def flushNeeds (s : State) (row : Nat) : Bool := s.hop.cmds.any fun c => c.waits.any fun w => rowOf s.img w.1 = row
/-- The row is due at once (R290 rule 3), as is one that a rebuild has to be written again. -/
def rowDue (s : State) (row : Nat) : Bool :=
  s.mpd.dueRows.contains row || s.mpd.rewriteRows.contains row || (heldBlocks s row).any fun fe => decide (dirtyAgeMax s.img * oneSec < since s (tabGet 0 s.mpd.dirtySince fe.1))
/-- The part drains every dirty block: a park (Table 19.5), a flush before Stopped (R309, R412, R496), a replay (R602). -/
def drainsAll (s : State) : Bool := s.start.parkStep = 2 || s.hop.closed || s.dev = .loading
/-- Partial rows are built from their oldest block on: the dirty level is above DRAIN_START, or the part drains (R290 rule 2, R602). -/
def drainsPartial (s : State) : Bool := drainsAll s || decide (drainStart s.img * 256 < dirtyFrames s)
/-- The row is one that R290 builds now, or that a rebuild has to be written whole again (R62). -/
def buildNow (s : State) (row : Nat) : Bool :=
  s.mpd.rewriteRows.contains row || (!(heldBlocks s row).isEmpty && (fullRow s row || drainsPartial s || rowDue s row || flushNeeds s row))
/-- States in which rows are built (R415). -/
def buildsRows (s : State) : Bool := s.dev = .ready || (s.dev = .loading && s.start.replayRead)
/-- A build of the row may start: no reader's pin holds it back (R299), its arm and the staging region have room (R666), and every failed head's
share has a target (R61). -/
def mayBuild (s : State) (row : Nat) : Bool :=
  buildsRows s && (rowBuildOf s row).isNone && buildRoom s (armOfRow s.img row) && buildNow s row && (pinnedBlocks s row).isEmpty &&
    sharesPlaced s (armOfRow s.img row) (qOfRow s.img row)
def tryBuild (row : Nat) (s : State) : State := if mayBuild s row then startBuild row s else s
/-- The row of a list with the least key. -/
def leastBy (key : Nat → Nat) (rows : List Nat) : Option Nat :=
  rows.foldl (fun best r => match best with | none => some r | some b => if key r < key b then some r else some b) none
/-- The row that R290 builds next of those that may: a full one of the arm whose turn it is or the next arm after it, then a partial one
with the oldest block, then one that is due, then one that a FLUSH needs. Within a rule the oldest block goes first (log entry 46). -/
def nextRow (s : State) : Option Nat :=
  let rows := (heldRows s).filter (mayBuild s)
  let full := rows.filter (fullRow s)
  let turnOf (row : Nat) : Nat := (armOfRow s.img row + s.img.arms - s.mpd.turn % s.img.arms) % s.img.arms
  let first := leastBy turnOf full
  let oldest (rs : List Nat) : Option Nat := leastBy (oldestHeld s) rs
  (oldest (full.filter fun r => first.any fun f => armOfRow s.img f = armOfRow s.img r)).orElse fun _ =>
    (if drainsPartial s then oldest rows else none).orElse fun _ =>
    (oldest (rows.filter (rowDue s))).orElse fun _ => oldest (rows.filter (flushNeeds s))
/-- ROW_BUILD (R290, R299, R666). -/
def execRowBuild (s : State) : Host.Outcome State Fault Refusal := live s fun s =>
  .next (match nextRow s with
    | none => s
    | some row =>
      startBuild row (if fullRow s row then { s with mpd := { s.mpd with turn := (armOfRow s.img row + 1) % s.img.arms } } else s))
/-- DIRTY_AGE_EXPIRY (R290 rule 3). -/
def execDirtyAgeExpiry (lba : BitVec 48) (s : State) : Host.Outcome State Fault Refusal := live s fun s =>
  .next (
    let row := rowOf s.img lba.toNat
    match currentVersion s lba.toNat with
    | some fe =>
      if fe.2.state = 1 then
        tryBuild row (if s.mpd.dueRows.contains row then s else { s with mpd := { s.mpd with dueRows := s.mpd.dueRows ++ [row] } })
      else s
    | none => s)
/-- PIN_WAIT_EXPIRY (R299): the pinned blocks are read into frames, then the build starts. -/
def execPinWaitExpiry (row : Nat) (s : State) : Host.Outcome State Fault Refusal := live s fun s =>
  .next (
    let pinned := pinnedBlocks s row
    if buildsRows s && (rowBuildOf s row).isNone && buildNow s row && !pinned.isEmpty && !s.mpd.pinRows.contains row then
      readWorks .partialRead (armOfRow s.img row) (qOfRow s.img row) (pinned.map (lbaKey s.img)) 0 false
        { s with mpd := { s.mpd with pinRows := s.mpd.pinRows ++ [row] } }
    else s)

-- Commit.

/-- Readers that the row under write served from staging, or that waited for it, read the medium from now on (R300) and pin its version (R298,
R299). -/
def refetchRow (r : RowBuild) (s : State) : State :=
  each (s.hop.cmds.map (·.arrival)) (fun arr s =>
    match cmdOf s arr with
    | none => s
    | some c =>
      if c.phase ≠ .running then s
      else
        let inRow (i : Nat) : Bool := rowOf s.img (c.cap.lba.toNat + i) = r.row
        let staged (b : BlockSrc) : Bool := match b with
          | .frame f => decide (r.staging ≤ f) && decide (f < r.staging + 512)
          | _ => false
        let moved := (c.srcs.zipIdx.filter fun x => inRow x.2 && staged x.1).map fun x => (c.cap.lba.toNat + x.2, arr)
        let s := { s with mpd := { s.mpd with
          pins := s.mpd.pins.filter fun p => !(p.2 = arr && staged (.frame p.1)), mediumPins := s.mpd.mediumPins ++ moved } }
        let s := modCmd s arr fun c => { c with srcs := c.srcs.mapIdx fun i b => if inRow i && staged b then .medium else b }
        match cmdOf s arr with
        | none => s
        | some c =>
          let want := (c.srcs.zipIdx.filter fun x => x.1 = .medium && inRow x.2).map fun x => c.cap.lba.toNat + x.2
          fetchRow arr r.row want s) s
/-- The versions that a commit brings to the medium settle what waits for them or for older ones that are here (R378, R379). A VERIFY that
arrived before the version does not compare the block's tag; an older WRITE whose block has yet to land finds it overtaken (R297). -/
def settleWaits (lba : Nat) (v : BitVec 40) (s : State) : State :=
  let toCome (w : Nat) : Bool :=
    ((entriesOf s lba).any fun x => x.2.vseq = BitVec.ofNat 40 w && x.2.state = 0) ||
      (cmdOf s w).any fun c => c.cap.opcode = 0x02 && c.phase = .running && (blockAt c lba).any fun i => !(c.frames.any fun e => e.1 = i)
  { s with hop := { s.hop with cmds := s.hop.cmds.map fun c =>
      let late := c.phase ≠ .issued && seqLt (BitVec.ofNat 40 c.arrival) v
      let at_ := (blockAt c lba).toList
      { c with
        waits := c.waits.filter fun w => !(w.1 == lba && (BitVec.ofNat 40 w.2 == v || (seqLt (BitVec.ofNat 40 w.2) v && !(toCome w.2)))),
        frames := if late && c.cap.opcode = 0x03 then c.frames ++ at_.map fun i => (i, 0) else c.frames,
        overtaken := if late && c.cap.opcode = 0x02 then c.overtaken ++ at_.filter fun i => !(c.landed.contains i) else c.overtaken } } }
/-- A version that is lost holds up no VERIFY or FLUSH any more, nor do the older ones. -/
def loseWaits (lba : Nat) (v : BitVec 40) (s : State) : State :=
  { s with hop := { s.hop with cmds := s.hop.cmds.map fun c =>
      { c with waits := c.waits.filter fun w => !(w.1 == lba && (BitVec.ofNat 40 w.2 == v || seqLt (BitVec.ofNat 40 w.2) v)) } } }
/-- Entries of a committed row (R293): RELEASING, or SUPERSEDED where a newer version has landed. -/
def releaseRow (row : Nat) (s : State) : State :=
  each s.mpd.ledger (fun fe s =>
    if fe.2.valid && (fe.2.state = 2 || fe.2.state = 3) && fe.2.row.toNat = row then
      let now_ := (currentVersion s fe.2.lba.toNat).map (·.1) = some fe.1
      let s := each ((entriesOf s fe.2.lba.toNat).filter fun x => x.2.state = 5) (fun x s => setEntry s x.1 { x.2 with state := 4 })
        (dropClean fe.2.lba.toNat s)
      let s := settleWaits fe.2.lba.toNat fe.2.vseq (setState fe.1 (if now_ then 5 else 4) s)
      let s := { s with mpd := { s.mpd with committed := s.mpd.committed.filter (fun (c : Nat × Nat) => c.1 ≠ fe.2.lba.toNat) ++ [(fe.2.lba.toNat, fe.2.vseq.toNat)] } }
      { s with
        hold := { s.hold with replayed := s.hold.replayed.filter fun p => p.1 ≠ fe.1 }, mpd := { s.mpd with gone := s.mpd.gone.filter (· ≠ fe.1) } }
    else s) s
/-- A row enters the skip list or leaves it, which writes cursor and list to flash (R62, R450). -/
def listRow (k q : Nat) (listed : Bool) (s : State) : State :=
  let r := s.layout.rebuilds.toList.getD k {}
  if r.skip.contains q = listed then s
  else
    let skip := if listed then r.skip ++ [q] else r.skip.filter (· ≠ q)
    saveCursor k (mirror (.layout (.skipped (Fin.ofNat 8 r.arm) (Fin.ofNat 8 r.head) (BitVec.ofNat 40 q) listed)) (modRebuild k (fun r => { r with skip, savedSkip := skip }) s))
/-- The cursor goes on; every 65,536 rows it is recorded (R62). -/
def stepCursor (k : Nat) (s : State) : State :=
  let r := s.layout.rebuilds.toList.getD k {}
  let s := modRebuild k (fun r => { r with cursor := r.cursor + 1 }) s
  if (r.cursor + 1) % 65536 = 0 then saveCursor k s else s
/-- A row of a failed head counts as rebuilt (R61, R62). -/
def rebuiltRow (a q : Nat) (heads : List Nat) (s : State) : State :=
  each [0, 1] (fun k s =>
    let r := s.layout.rebuilds.toList.getD k {}
    if r.state ≠ 0 && r.arm = a && heads.contains r.head then
      let s := listRow k q false s
      if r.cursor = q then stepCursor k s else s
    else s) s
/-- Enter a run in the map and send it to the partner (R61, R450). -/
def recordRun (x : RunEntry) (s : State) : State := mirror (.layout (.run x)) { s with layout := enterRun s.img x s.layout }
/-- A group has been moved (R58): the map is updated, which frees the old group, event 0x65, and the rebuild goes on. -/
def movedRow (s : State) : State :=
  match s.layout.move with
  | none => s
  | some m =>
    let s := { s with layout := { s.layout with
      move := none, runs := s.layout.runs.map (fun x => if x.moving then { x with moving := false } else x),
      rebuilds := s.layout.rebuilds.map fun r => if r.state = 3 then { r with state := 1 } else r } }
    post 0x65 mCore [] (recordRun m.new s)
/-- A flush before Stopped has ended (R309, R412, R496, Table 14.4). -/
def advanceDrain (s : State) : State :=
  if (s.mpd.state = 4 || s.fls.draining || s.fan.coreStop) && dirtyFrames s = 0 && s.rows.isEmpty && s.flt.stopStep = 0 && s.dev ≠ .stopped then
    if s.fan.coreStop && s.mpd.state ≠ 4 && !s.fls.draining && mirrorOn s then (if s.dev = .ready && s.ptn.handStage = 0 then beginHandover 0 s else s)
    else failStop s.hop.stopCause (if s.mpd.state = 4 && s.hop.stopCause = 0xAC then post 0xAC mMillpond [] s else s)
  else s
/-- Commit a row (R66): its tables, its commit record, its blocks. -/
def commitRow (r : RowBuild) (s : State) : State :=
  let s := each (s.bol.sectors.filter fun x => x.followUp && x.arm = r.arm && x.row = r.q) (fun x s => if x.rung ≤ 6 then endFollowUp x s else dropSec x s) s
  let s := if r.kind = 2 then movedRow s else each r.runs recordRun s
  let s := each r.defects enterDefect s
  let s := if r.runs.isEmpty then s else cutProbes s
  let lost := r.standIns.map (lbaOf s.img r.row)
  let s := each lost dropClean s
  let s := { s with
    rows := s.rows.filter fun x => x.row ≠ r.row,
    layout := { s.layout with unrecoverable := s.layout.unrecoverable.filter fun l => !lost.contains l },
    mpd := { s.mpd with commits := s.mpd.commits ++ [{ row := r.row, time := devTime s, defects := r.defects, runs := if r.kind = 2 then [] else r.runs }] } }
  let s := dropParity r.row (if r.kind = 2 then s else rebuiltRow r.arm r.q (r.runs.map (·.srcHead.toNat)) s)
  let s := if r.kind = 0 then mirror (.rowCommit r.row (devTime s)) (releaseRow r.row s) else s
  advanceDrain (advancePark (recheck (releaseFrames (refetchRow r s))))
/-- Every sector of the row has passed its check (R66). -/
def rowPassed (s : State) (r : RowBuild) : Bool := (rowSectors s.img).all fun k => (rowSec r (secKey k.1 k.2.1 k.2.2)).st = 2
/-- Abandon a row and build it again from its blocks (R67). -/
def restartRow (row : Nat) (s : State) : State :=
  match rowBuildOf s row with
  | none => s
  | some r =>
    let s := refetchRow r (abandonRow row s)
    if r.kind = 0 then tryBuild row { s with mpd := { s.mpd with dueRows := s.mpd.dueRows ++ [row] } } else s
/-- A run of the row goes on from one of another row under write, which commits first (R57; log entry 41). -/
def runWaits (s : State) (r : RowBuild) : Bool :=
  s.rows.any fun x => x.row ≠ r.row && r.runs.any fun y => x.runs.any fun z => sameRun z y && decide (z.count.toNat < y.count.toNat)
/-- A run of the row counts rows before it that the map places nowhere: the row that it went on from was abandoned. -/
def runGap (s : State) (r : RowBuild) : Bool :=
  r.runs.any fun y =>
    let n := ((s.layout.runs.find? (sameRun · y)).map (·.count.toNat)).getD 0
    (List.range (y.count.toNat - 1 - n)).any fun j => !(placedRow s.img s.layout y.srcArm.toNat y.srcHead.toNat (y.srcRow.toNat + n + j))
/-- ROW_COMMIT (R66, R294). A row whose run goes on from another's waits for that one, and is built again when that one was abandoned (R57,
R67; log entry 41). -/
def execRowCommit (row : Nat) (s : State) : Host.Outcome State Fault Refusal := live s fun s =>
  .next (
    match rowBuildOf s row with
    | none => s
    | some r =>
      let bytes := (s.mpd.commits.map commitBytes).sum + 16 + 16 * r.defects.length + 32 * r.runs.length
      if !(rowPassed s r) || r.sectors.isEmpty || decide (8388608 < bytes) || runWaits s r then s
      else if runGap s r then restartRow row s
      else commitRow r s)
/-- COMMIT_RECORD_FLUSH (R294): the layout unit has written the records to flash. -/
def execCommitRecordFlush (s : State) : Host.Outcome State Fault Refusal := live s fun s =>
  .next (if s.hold.flashStopped then s else { s with mpd := { s.mpd with commits := [] } })

-- A failed head in the work that runs.

/-- What an arm has before it is planned anew around its failed heads: sectors on the ladder reconstruct (R60), reads take the members that they
need, and rows start again with the head's share relocated (R61). -/
def mendFailed (a : Nat) (s : State) : State :=
  let bad (n : Nat) : Bool := (getHead s n).failed
  let s := each (s.bol.sectors.filter fun x => x.arm = a && x.info.isNone && decide (x.rung ≤ 6) && secLostHead s x) (fun x s =>
    let s := if x.followUp then endFollowUp x s else putSec { x with rung := 7, second := false } s
    if x.followUp then s
    else readWorks .partialRead x.arm x.row [secKey x.head x.track x.slot] 0 false s) s
  let s := each (s.slu.work.filter fun w => w.arm = a && w.heads.any fun h => bad (8 * a + h)) (fun w s =>
    let s := { dropWork (· == w) s with tre := s.tre }
    if w.kind = .rowRead || w.kind = .partialRead || w.kind = .reread then readWorks .partialRead w.lArm w.row w.want w.arrival w.repair s else s) s
  each (s.rows.filter fun r => (rowSectors s.img).any fun k =>
      let p := rowPlace s r k.1 k.2.1 k.2.2
      p.arm = a && bad (8 * a + p.head) && (rowSec r (secKey k.1 k.2.1 k.2.2)).st ≠ 2 && r.sectors ≠ []) (fun r s => restartRow r.row s) s
/-- HEAD_FAIL_DECLARE (R472). -/
def execHeadFailDeclare (arm head : Fin 8) (s : State) : Host.Outcome State Fault Refusal := live s fun s =>
  .next (if headFitted s.img (8 * arm.val + head.val) then mendFailed arm (declareFailed (8 * arm.val + head.val) s) else s)

-- Rebuild.

/-- A row that the rebuild must skip for now: a row write holds it or is to write it again, or it has uncommitted dirty blocks (R62, R69). -/
def rowHeld (s : State) (row : Nat) : Bool :=
  (s.rows.any fun r => r.row = row) || s.mpd.rewriteRows.contains row || s.mpd.ledger.any fun fe => dirtyEntry fe.2 && rowOf s.img fe.2.lba.toNat = row
/-- Move the cursor past rows that are rebuilt already and, into the skip list, past rows that are held; at most `n` rows a time. -/
def walkCursor (k : Nat) : Nat → State → State
  | 0, s => s
  | n + 1, s =>
    let r := s.layout.rebuilds.toList.getD k {}
    if s.img.q ≤ r.cursor then s
    else if !(lostHead s r.arm r.head r.cursor) then walkCursor k n (stepCursor k s)
    else if rowHeld s (rowOfArm s.img r.arm r.cursor) then
      walkCursor k n (stepCursor k (listRow k r.cursor true s))
    else s
/-- Share (arm, row, head) of another failed head whose target was the head of a rebuild: it counts as a member of that head (R58). -/
def foreignShare (s : State) (b x : Nat) : Option (Nat × Nat × Nat) :=
  s.layout.runs.findSome? fun r =>
    if !r.valid || r.dstArm.toNat ≠ b then none
    else ((List.range r.count.toNat).find? fun k => k % s.img.heads = x &&
        runOf s.img s.layout s.layout.runs r.srcArm.toNat r.srcHead.toNat (r.srcRow.toNat + k) == some r &&
        !(rowHeld s (rowOfArm s.img r.srcArm.toNat (r.srcRow.toNat + k)))).map fun k => (r.srcArm.toNat, r.srcRow.toNat + k, r.srcHead.toNat)
/-- The share (arm, row, head) that a rebuild takes next: the head's own at the cursor; once the cursor has passed the last row, of the skip
list (log entry 41); then those that other heads had placed on it. -/
def nextShare (s : State) (r : Rebuild) : Option (Nat × Nat × Nat) :=
  if r.cursor < s.img.q then
    if rowHeld s (rowOfArm s.img r.arm r.cursor) then none else some (r.arm, r.cursor, r.head)
  else match r.skip.find? fun q => !(rowHeld s (rowOfArm s.img r.arm q)) with
    | some q => some (r.arm, q, r.head)
    | none => foreignShare s r.arm r.head
/-- Shares of other heads are still to be had from their equations. -/
def foreignLeft (s : State) (b x : Nat) : Bool :=
  s.layout.runs.any fun r => r.valid && r.dstArm.toNat = b && (List.range r.count.toNat).any fun k => k % s.img.heads = x &&
    runOf s.img s.layout s.layout.runs r.srcArm.toNat r.srcHead.toNat (r.srcRow.toNat + k) == some r
/-- A block that a share needs stands in the unrecoverable list: any of the row for a rebuild, one of its own for a move (R62, R164). -/
def shareListed (s : State) (kind a q h : Nat) : Bool :=
  (List.range (bR s.img)).any fun o =>
    let lba := lbaOf s.img (rowOfArm s.img a q) o
    s.layout.unrecoverable.contains lba && (kind ≠ 2 || lbaKey s.img lba / 32 = h)
/-- Begin a share: its sectors are reconstructed from the other members (R60, R62), or read from where they stand (R58). One whose equations
hold a listed block makes its row be written whole again (R62). -/
def beginShare (kind a q h : Nat) (runs : List RunEntry) (s : State) : State :=
  if shareListed s kind a q h then rewriteRow (rowOfArm s.img a q) s else
  match (freeStaging s).filter fun _ => buildRoom s a with
  | none => s
  | some b =>
    let r : RowBuild := {
      row := rowOfArm s.img a q, arm := a, q, staging := b, src := List.replicate (bR s.img) none, runs, kind, share := h }
    let keys := [0, 1].flatMap fun t => (List.range 16).map fun sl => secKey h t sl
    readWorks .partialRead a q keys 0 true { s with rows := s.rows ++ [r] }
/-- The groups that R58 may move for row q of a failed head: in the row's nearest zones first, relocated shares of another failed head whose
group the row could take and that have another place themselves. Of a zone's groups the first in the map's order goes (log entry 41). -/
def movable (s : State) (a q h : Nat) : Option RunMove :=
  let i := s.img
  let ds := allRemaps s
  (zonesByDistance 64 (zoneOfRow i a q).1).findSome? fun z => s.layout.runs.findSome? fun m =>
    let b := m.dstArm.toNat
    if !m.valid || m.dstZone.toNat ≠ z || b = a || (m.srcArm.toNat = a && m.srcHead.toNat = h) then none
    else (List.range m.count.toNat).findSome? fun j =>
      let row := m.srcRow.toNat + j
      let x := j % i.heads
      let usable := decide (x ≤ q) && !headDead s.layout b x && !(memberAt i s.layout [] a h q b x) && (List.range x).all fun d => placedRow i s.layout a h (q - 1 - d)
      if usable && runOf i s.layout s.layout.runs m.srcArm.toNat m.srcHead.toNat row == some m && !(rowHeld s (rowOfArm i m.srcArm.toNat row)) then
        (relocTarget s ds [] (heldRuns s) m.srcArm.toNat m.srcHead.toNat row).map fun t =>
          { old := m, index := j, new := newRun m.srcArm.toNat m.srcHead.toNat row t }
      else none
/-- Begin to move one group out of the way of row q (R58). -/
def beginMove (k a q h : Nat) (s : State) : State :=
  match movable s a q h with
  | none => s
  | some m =>
    modRebuild k (fun r => { r with state := 3 }) { s with layout := { s.layout with
      move := some m, runs := s.layout.runs.map fun x => if x = m.old then { x with moving := true } else x } }
/-- Give the sluice the next repair step of a rebuild of arm a (R62, R63); the end of a rebuild is event 0x64. -/
def stepRebuild (a : Nat) (s : State) : State :=
  if s.dev ≠ .ready then s
  else each [0, 1] (fun k s =>
    let r := s.layout.rebuilds.toList.getD k {}
    if r.arm ≠ a || s.rows.any (fun x => x.kind ≠ 0 && (x.arm ≠ a || x.share = r.head)) then s
    else if r.state = 3 then
      match s.layout.move with
      | none => s
      | some m =>
        if rowHeld s (rowOfArm s.img m.new.srcArm.toNat (runRow m.new)) then s
        else beginShare 2 m.new.srcArm.toNat (runRow m.new) m.new.srcHead.toNat [m.new] s
    else if r.state ≠ 1 then s
    else
      let s := walkCursor k 64 s
      let r := s.layout.rebuilds.toList.getD k {}
      match nextShare s r with
      | some (b, q, h) =>
        if !(lostHead s b h q) then rebuiltRow b q [h] s
        else match rowRuns s b q [h] with
          | [] => beginMove k b q h s
          | rs => beginShare 1 b q h rs s
      | none =>
        if s.img.q ≤ r.cursor && r.skip.isEmpty && !(foreignLeft s a r.head) then
          post 0x64 mCore [] (saveCursor k (modRebuild k (fun r => { r with state := 2 }) s))
        else s) s

-- Format (R51–R53). No command of the table formats the medium: these are the operations of the factory's format (log entry 41).

/-- Slip a pair of a head's zone (R52, R53), `pair` counted within the zone: event 0x61; none when the head has 16 slips there already, and the
head fails format. -/
def slipPair (a h z pair : Nat) (s : State) : Option State :=
  if 16 ≤ (s.layout.slips.filter fun e => e.1 = a && e.2.1 = h && e.2.2.1 = z).length then none
  else some (post 0x61 mCore [] { s with layout := { s.layout with slips := s.layout.slips ++ [(a, h, z, pair)] } })
/-- Number of a pair among the good pairs of its zone. -/
def goodIndex (l : Layout) (a h z pair : Nat) : Nat :=
  pair - (l.slips.filter fun e => e.1 = a && e.2.1 = h && e.2.2.1 = z && decide (e.2.2.2 < pair)).length
/-- The scan of one pair has found these defective slot pairs (R52): more than 4 slip the pair, 1 to 4 are remapped with origin "format", both
tracks of each. A reserve pair holds no rows, so that nothing of it is remapped. -/
def formatPair (a h z pair : Nat) (bad : List Nat) (s : State) : Option State :=
  if 4 < bad.length then slipPair a h z pair s
  else
    let f := zoneFmt s.img a z
    let first := ((zoneList s.img a).take z |>.map zoneRows).sum
    let p := goodIndex s.layout a h z pair
    if f.cz ≤ p then some s
    else some (each bad (fun slot s => each [0, 1] (fun t s =>
      let x : Sector := { arm := a, head := h, row := first + p * gOf f + slot / 16, track := t, slot := slot % 16 }
      match remapTarget s.img s.layout (remapsOf s.img s.layout s.layout.defects s.layout.runs) [] [] a h x.row with
      | some d => enterDefect (remapEntry x 0 d) s
      | none => declareFailed (8 * a + h) s) s) s)
/-- What factory format writes to a row (R51): zero data, tag zero, valid parity, each sector at its place. -/
def formatRow (s : State) (a q : Nat) : List (Place × Info) :=
  (rowSectors s.img).map fun k =>
    let p := sectorPlace s a q k.1 k.2.1 k.2.2
    (p, infoOf 0 0 false (paddrOf s.layout.fmtId p))
/-- Every track pair of every head as (arm, head, zone, pair), the outer ones first: counted, reserve and slip-spare pairs (R40). -/
def trackPairs (s : State) : List (Nat × Nat × Nat × Nat) :=
  (armList s).flatMap fun a => (List.range s.img.heads).flatMap fun h => (List.range (zoneList s.img a).length).flatMap fun z =>
    (List.range ((zoneFmt s.img a z).cz + vOf s.img (zoneFmt s.img a z) + 16)).map fun p => (a, h, z, p)
/-- Factory format's scan (R52): each pair in turn, with the defective slot pairs that the scan finds in it, under a new format identifier (Table
5.2) and tables that hold nothing; none when a head fails format (R53). -/
def formatScan (fmtId : BitVec 16) (bad : Nat → Nat → Nat → Nat → List Nat) (s : State) : Option State :=
  (trackPairs s).foldl (fun o p => o.bind (formatPair p.1 p.2.1 p.2.2.1 p.2.2.2 (bad p.1 p.2.1 p.2.2.1 p.2.2.2)))
    (some { s with layout := { fmtId }, idn := { s.idn with boot := 0 } })
/-- Factory format (R51, R52): after the scan every row of every arm is written once. Beside the tables stands what the medium then holds, so that
a block that no host has written reads as zeros. -/
def factoryFormat (fmtId : BitVec 16) (bad : Nat → Nat → Nat → Nat → List Nat) (s : State) : Option (State × List (Place × Info)) :=
  (formatScan fmtId bad s).map fun s => (s, (armList s).flatMap fun a => (List.range s.img.q).flatMap (formatRow s a))

end Sys2Proof.Machine
end

