-- ==== Sys2Proof/Machine/Losses.lean ====
section
/-! DEFINITION. Blocks that the millpond loses (Table 9.5): their readers, their versions and their rows. -/

namespace Sys2Proof.Machine

-- The response to an uncorrectable error (Table 9.5).

/-- Readers of a frame take their block anew. -/
def retakeReaders (f : Nat) (s : State) : State :=
  let s := { s with mpd := { s.mpd with pins := s.mpd.pins.filter fun q => q.1 ≠ f } }
  each (s.hop.cmds.map (·.arrival)) (fun arr s =>
    match cmdOf s arr with
    | none => s
    | some c => match c.srcs.findIdx? (· = .frame f) with
      | some i => pumpRead arr (retakeBlock arr i (c.cap.lba.toNat + i) s)
      | none => s) s
/-- Readers of a lost version end at it (R164). -/
def loseReaders (f : Nat) (s : State) : State :=
  let s := { s with mpd := { s.mpd with pins := s.mpd.pins.filter fun q => q.1 ≠ f } }
  each (s.hop.cmds.map (·.arrival)) (fun arr s =>
    pumpRead arr (modCmd s arr fun c => { c with srcs := c.srcs.map fun b => if b = .frame f then .lost else b })) s
/-- Free a frame's entry, and tell the partner (R304). -/
def freeEntry (f : Nat) (s : State) : State :=
  let e := getEntry s f
  let s := setFrame (setEntry s f {}) f 0
  let s := { s with mpd := { s.mpd with
    dirtySince := tabDel f s.mpd.dirtySince, parts := tabDel f s.mpd.parts, gone := s.mpd.gone.filter (· ≠ f) } }
  mirror (.ment [{ e with valid := false }]) s
/-- The hopper grants a lost block to its WRITE again under the same version. -/
def grantAgain (f arr idx : Nat) (s : State) : State :=
  let e := { getEntry s f with state := 0, acked := false, mirrored := false, row := 0 }
  let s := setFrame (setEntry s f e) f 0
  let s := { s with mpd := { s.mpd with parts := tabDel f s.mpd.parts, gone := s.mpd.gone.filter (· ≠ f) } }
  match cmdOf s arr with
  | none => s
  | some c =>
    let s := modCmd s arr fun c => { c with landed := c.landed.filter (· ≠ idx), confirmed := c.confirmed.filter (· ≠ idx), grants := c.grants ++ [(idx, 1, now s)] }
    modHopPort s c.port fun h => { h with cpls := h.cpls ++ [.inr (c.cap.tag, idx, 1)] }
/-- A dirty frame without a confirmed copy elsewhere. -/
def loseDirty (f : Nat) (s : State) : State :=
  let e := getEntry s f
  let lba := e.lba.toNat
  match s.hop.cmds.find? fun c => c.cap.opcode = 0x02 && BitVec.ofNat 40 c.arrival = e.vseq && c.port = b2n e.portB && c.phase ≠ .issued with
  | some c =>
    if e.compat then complete c.arrival 0x41 lba (withdrawLanding c (withdraw f s)) else grantAgain f c.arrival (lba - c.cap.lba.toNat) s
  | none =>
    if e.acked && !e.compat then
      let s := raiseDeferred e.portB 1 lba e.vseq.toNat e.tag (post 0xAD mMillpond [b8 lba] (freeEntry f (loseReaders f s)))
      recheck (loseWaits lba e.vseq s)
    else recheck (withdraw f s)
/-- A row whose pass has taken a dropped frame's data already. -/
def rowTook (s : State) (f : Nat) : Bool :=
  s.rows.any fun r => (r.src.zipIdx).any fun x => x.1 = some f && (rowSec r (lbaKey s.img (lbaOf s.img r.row x.2))).st ≠ 0
/-- An uncorrectable error in a frame. The partner holds a confirmed version until it is superseded or its row commits (R304), so that only a dirty one is
fetched from there. -/
def ueFrame (f : Nat) (s : State) : State :=
  let e := getEntry s f
  if (tabGet {} s.mpd.clean f).valid then
    retakeReaders f (setFrame { s with mpd := { s.mpd with clean := tabDel f s.mpd.clean } } f 0)
  else if f < 118784 then
    match s.rows.find? fun r => decide (r.staging ≤ f) && decide (f < r.staging + 512) with
    | some r => restartRow r.row s
    | none => s
  else if !e.valid then s
  else if e.mirrored && linkUp s 2 && s.ptn.synced && landedEntry e then
    ptnSend (.fetch 0 f e.vseq) { s with ptn := { s.ptn with fetches := s.ptn.fetches ++ [(f, e.vseq.toNat)] } }
  else if e.state = 5 then retakeReaders f (freeEntry f s)
  else if e.state = 4 then freeEntry f (loseReaders f s)
  else if e.state = 2 || e.state = 3 then
    if rowTook s f then { s with mpd := { s.mpd with gone := s.mpd.gone ++ [f] } }
    else loseDirty f (abandonRow e.row.toNat s)
  else loseDirty f s
/-- A dropped block's sector must be written again: its row is abandoned, and the block is lost (Table 9.5). -/
def loseGone (row : Nat) (s : State) : State :=
  let lost := s.mpd.gone.filter fun f => (getEntry s f).row.toNat = row
  if lost.isEmpty then s else each lost loseDirty (abandonRow row s)

end Sys2Proof.Machine
end

