-- ==== Sys2Proof/Machine/Sluice.lean ====
section
/-! DEFINITION. The sluice at work: eligibility and the order of choice (R414–R419, R423), grants and their gating (R64, R420, R421), and the
PWM budget (R404, R405). -/

namespace Sys2Proof.Machine

-- What waits for an arm.

def workOf (s : State) (a : Nat) : List Work := s.slu.work.filter fun w => w.arm = a
/-- LBAs of the data sectors that a piece of work reads. -/
def wantLbas (s : State) (w : Work) : List Nat :=
  w.want.filterMap fun k => (offAt s.img w.row (k / 32) (k / 16 % 2) (k % 16)).map (lbaOf s.img (rowOfArm s.img w.lArm w.row))
/-- Blocks that it brings in for host commands. -/
def hostBlocks (s : State) (w : Work) : List (Nat × Nat × Nat) :=
  (wantLbas s w).flatMap fun l => (mediumReaders s l).map fun r => (r.1, r.2, l)
/-- Sectors (arm, row, key) that a piece of work reads for no host command (R281): those of its row without a reader, the shares of a prefetch, and
both tracks of the row under the heads of a channel measurement. -/
def innerKeys (s : State) (w : Work) : List (Nat × Nat × Nat) :=
  if writesMedium w.kind then []
  else
    let own := if w.visit.any fun v => v.kind = 0 then w.heads.flatMap fun h => (List.range 32).map fun k => (w.row, 32 * h + k) else opKeys (opOfWork w)
    (own.filter fun e => !((offAt s.img e.1 (e.2 / 32) (e.2 / 16 % 2) (e.2 % 16)).any fun o =>
      !(mediumReaders s (lbaOf s.img (rowOfArm s.img w.lArm e.1) o)).isEmpty)).map fun e => (w.lArm, e)
def isRead (w : Work) : Bool := w.kind == .rowRead || w.kind == .partialRead
/-- A read that nobody waits for any more: no host command, no build, no pinned block. -/
def stale (s : State) (w : Work) : Bool :=
  isRead w && (hostBlocks s w).isEmpty && !(s.rows.any fun r => r.arm = w.lArm && r.q = w.row) &&
    !s.mpd.pinRows.contains (rowOfArm s.img w.lArm w.row) &&
    !(s.bol.sectors.any fun x => x.arm = w.lArm && x.row = w.row && x.info.isNone && x.rung = 7)
/-- Host reads; the rest of the host's work on the medium is writes and the read-ins of their rows. -/
def hostRead (s : State) (w : Work) : Bool := isRead w && !w.repair && !(hostBlocks s w).isEmpty

-- Shares of head time over the last second (R29, R63, R418).

/-- Class of an operation's head time: 0 host read, 1 host write with the reads of a row under build, 2 fantail, 3 repair, 4 follow-up. A re-read counts
as what it reads for. -/
def classOfWork (s : State) (w : Work) : Nat :=
  if w.kind == .fantail then 2
  else if w.repair || w.kind == .repair || w.kind == .prefetch then 3
  else if w.kind == .followup then 4
  else if writesMedium w.kind || ((hostBlocks s w).isEmpty && s.rows.any fun r => r.arm = w.lArm && r.q = w.row) then 1
  else 0
/-- Head time of classes on an arm in the last second, in ns. -/
def shareTime (s : State) (a : Nat) (classes : List Nat) : Nat :=
  ((s.slu.shares.filter fun e => e.1 = a && classes.contains e.2.1 && decide (now s < e.2.2.1 + oneSec)).map fun e =>
    min e.2.2.2 (e.2.2.1 + oneSec - now s)).sum
/-- Head time of a class used in the last second is below its share (R29, R63). A grant may run past the share: only time already used is
compared, not the operation's own (log entry 57). -/
def withinShare (s : State) (a cls percent : Nat) : Bool := decide (100 * shareTime s a [cls] < percent * oneSec)
/-- A share of the host head time is short while its kind waits (R418). -/
def shareShort (s : State) (a cls percent : Nat) (waits : Bool) : Bool :=
  waits && decide (100 * shareTime s a [cls] < percent * shareTime s a [0, 1])

-- Order of kinds (Table 13.4).

/-- A write that goes first whatever the dirty level (R418). -/
def urgentWork (s : State) (w : Work) : Bool :=
  s.rows.any fun r => r.arm = w.lArm && r.q = w.row && (r.due || s.hop.cmds.any fun c => c.waits.any fun v => rowOf s.img v.1 = r.row)
def writesFirst (s : State) (a : Nat) : Bool :=
  let ws := (workOf s a).filter fun w => classOfWork s w = 1
  let rs := (workOf s a).filter (hostRead s)
  if decide (writeHi s.img * 256 ≤ dirtyFrames s) || ws.any (urgentWork s) then !(shareShort s a 0 (readMin s.img) (!rs.isEmpty))
  else shareShort s a 1 (writeMin s.img) (!ws.isEmpty)
/-- Order of a piece of work, 1 to 5. -/
def kindOrder (s : State) (w : Work) : Nat :=
  if w.kind == .reread || w.kind == .rewrite then 1
  else if w.kind == .fantail then (if withinShare s w.arm 2 (fanShare s.img) then 2 else 5)
  else if w.kind == .prefetch then (if withinShare s w.arm 3 (repairShare s) && hostWaits then 2 else 5)
  else if w.repair || w.kind == .repair then (if withinShare s w.arm 3 (repairShare s) then 2 else 5)
  else if w.kind == .followup then (if w.heads.any fun h => (getHead s (8 * w.arm + h)).followUrgent then 2 else 5)
  else if (classOfWork s w = 1) = writesFirst s w.arm then 3
  else 4
where
  repairShare (s : State) : Nat := s.img.repairShare
  hostWaits : Bool := (workOf s w.lArm).any (hostRead s)

-- Eligibility (R415).

/-- Device states that permit it. -/
def stateAllows (s : State) (w : Work) : Bool :=
  s.dev = .ready || (s.dev = .loading && s.start.replayRead && !w.repair && (w.kind == .rowWrite || w.kind == .rewrite || w.kind == .reread || w.kind == .partialRead))
/-- Room in the millrace: the host pool for each reader (R279), the internal pool for a read that brings nothing for a host; host reads are not held
back for it (R281). -/
def roomFor (s : State) (w : Work) : Bool :=
  let bs := hostBlocks s w
  let owed := bs.filter fun b => !(s.mrc.slots.any fun e => e.2.used && e.2.arrival = b.1 && e.2.pos = b.2.1 && decide (e.1 < 20480))
  let used := (s.mrc.slots.filter fun e => e.2.used && decide (e.1 < 20480)).length
  let inner := (innerKeys s w).length
  (inner = 0 || !bs.isEmpty || decide (internalUsed s + inner ≤ 4096)) && decide (used + owed.length ≤ 20480) && ((owed.map (·.1)).eraseDups).all fun r => slotRoom s r (owed.filter fun b => b.1 = r).length
/-- No head that it reads is suspended (R155), nor the fantail's reads. -/
def headsFree (s : State) (w : Work) : Bool :=
  writesMedium w.kind || (!(w.heads.any fun h => (getHead s (8 * w.arm + h)).suspended) && !(w.kind == .fantail && s.bol.fantailSuspended))
/-- Sectors of two versions of a row are never combined (R68): a host's read of a row waits while the row is under write (R300), and the first
pass of a row waits for reads of the row that run or are on the ladder. -/
def oneVersion (s : State) (w : Work) : Bool :=
  s.rows.all fun r => r.arm ≠ w.lArm || r.q ≠ w.row || r.kind ≠ 0 ||
    (if w.kind == .rowWrite then decide (0 < r.passed) || !((s.bol.sectors.any fun x => x.arm = r.arm && x.row = r.q && !x.followUp && x.info.isNone && decide (x.rung ≤ 7)) ||
        (List.range 8).any fun a => (opOf s a).any fun o => o.arrival ≠ 0 && o.lArm == r.arm && o.row == r.q && !writesMedium o.kind)
     else if isRead w then w.arrival = 0 else true)
def ready (s : State) (w : Work) : Bool :=
  stateAllows s w && headsFree s w && (writesMedium w.kind || roomFor s w) && oneVersion s w
/-- Eligible but for its power. -/
def eligible (s : State) (w : Work) : Bool := ready s w && fitsHeat s w.arm (opOfWork w)

-- Access time (R417).

/-- Wedge of a slot of a zone (R104). -/
def slotWedge (f : ZoneFmt) (slot : Nat) : Nat := slot * (37120 + f.sg) / (f.cpw - f.wg)
/-- Estimated access time of an operation in wedges. -/
def accessTime (s : State) (a : Nat) (o : ArmOp) : Nat :=
  let move : Nat := if inPlace s a o then 0 else match seekDist s a o with | none => msN s.img | some d => seekLen (seekOf s.img a) d
  let settle : Nat := if opWrites o then settleWr s.img else settleRd s.img
  let pace := (paceHead s a).getD (8 * a)
  let at_ : Int := (getHead s pace).wedge + move + settle
  let waits : List Nat := (headPlaces s a o).map fun p =>
    let off : Int := if (getHead s p.1).wHat = 0 then 0 else ((getHead s p.1).indexPhase - (getHead s pace).indexPhase) / (getHead s p.1).wHat
    ((slotWedge (zoneFmt s.img a p.2.zone) p.2.slot + off - at_) % s.img.wedges).toNat
  move + settle + waits.foldl min (waits.headD 0)
/-- A host operation older than AGE_MAX (R417). -/
def aged (s : State) (w : Work) : Bool :=
  (kindOrder s w = 3 || kindOrder s w = 4) && decide (ageMax s.img * oneMs < since s w.at_)
/-- One piece of work goes before another at a decision point. -/
def before (s : State) (x y : Work) : Bool :=
  let kx := kindOrder s x
  let ky := kindOrder s y
  if kx ≠ ky then decide (kx < ky)
  else if aged s x != aged s y then aged s x
  else if aged s x then decide (x.at_ < y.at_)
  else
    let tx := accessTime s x.arm (opOfWork x)
    let ty := accessTime s y.arm (opOfWork y)
    decide (tx < ty) || (tx = ty && decide (x.at_ < y.at_))
/-- The choice at a decision point (R416–R418). -/
def choice (s : State) (a : Nat) : Option Work :=
  ((workOf s a).filter (eligible s)).foldl (fun b w => match b with | none => some w | some x => if before s w x then some w else some x) none

-- Before a decision.

/-- Cached sector (row, key) of relocation prefetch: its frame and host tag. -/
def prefetched (s : State) (a q k : Nat) : Option (Nat × Word) :=
  let f := match offAt s.img q (k / 32) (k / 16 % 2) (k % 16) with
    | some o => cleanOf s (lbaOf s.img (rowOfArm s.img a q) o)
    | none => s.mpd.clean.find? fun fc => fc.2.valid && fc.2.parity = some (rowOfArm s.img a q, k)
  (f.filter fun fc => fc.2.prefetched).map fun fc => (fc.1, fc.2.htag)
/-- Sectors that relocation prefetch has brought into the cache are taken from there (R64). -/
def fromCache (a : Nat) (s : State) : State :=
  each ((workOf s a).filter isRead) (fun w s =>
    each w.want (fun k s =>
      match prefetched s w.lArm w.row k with
      | some (f, htag) =>
        if (findSec s w.lArm w.row (k / 32) (k / 16 % 2) (k % 16)).isNone then
          let p := sectorPlace s w.lArm w.row (k / 32) (k / 16 % 2) (k % 16)
          let i := infoOf (getFrame s f) htag false (paddrOf s.layout.fmtId p)
          putSec { arm := w.lArm, head := k / 32, row := w.row, track := k / 16 % 2, slot := k % 16, info := some i } s
        else s
      | none => s) s) s
/-- Relocated shares of arm a's rows, by row and head, that lie on one reserve track pair of an arm. -/
def sharesOnPair (s : State) (a b z pair : Nat) : List (Nat × Nat) :=
  let g := gOf (zoneFmt s.img b z)
  s.layout.runs.flatMap fun r =>
    if r.valid && r.srcArm.toNat = a && r.dstArm.toNat = b && r.dstZone.toNat = z then
      ((List.range r.count.toNat).filter fun k => (r.dstGroup.toNat + k / s.img.heads) / g = pair &&
        runOf s.img s.layout s.layout.runs a r.srcHead.toNat (r.srcRow.toNat + k) == some r).map fun k => (r.srcRow.toNat + k, r.srcHead.toNat)
    else []
/-- Relocation prefetch (R64): with two failed heads on the arm, the reserve track pair that holds the next row's relocated share is visited on
all heads at once, ahead of the host's stream. -/
def planPrefetch (a : Nat) (s : State) : State :=
  if (s.layout.failedHeads.filter fun f => f.1 = a).length < 2 then s
  else each ((workOf s a).filter fun w => hostRead s w && w.lArm = a) (fun w s =>
    let q := w.row + 1
    each (s.layout.failedHeads.filter fun f => f.1 = a) (fun f s =>
      match runOf s.img s.layout s.layout.runs a f.2 q with
      | none => s
      | some r =>
        let b := r.dstArm.toNat
        let z := r.dstZone.toNat
        let pair := (runTarget s.img r q).2 / gOf (zoneFmt s.img b z)
        let batch := sharesOnPair s a b z pair
        let there := (List.range 32).all fun k => (prefetched s a q (32 * f.2 + k)).isSome
        if there || (opOf s b).any (fun o => o.kind == .prefetch && o.batch == batch) then s
        else addWork { arm := b, kind := .prefetch, lArm := a, row := q, batch, heads := (List.range s.img.heads).filter fun h => !(getHead s (8 * b + h)).failed, repair := true } s) s) s
/-- Event 0xC8 (Table 13.6): fantail work of the arm has waited through a window of 1 s that gave the fantail less than its share; once a window
(log entry 50). -/
def noteFantail (a : Nat) (s : State) : State :=
  if (workOf s a).any (fun w => w.kind == .fantail && decide (oneSec ≤ since s w.at_)) && withinShare s a 2 (fanShare s.img) &&
      decide (tabGet 0 s.slu.fanNoted a + oneSec ≤ now s) then
    post 0xC8 mSluice [b1 a] { s with slu := { s.slu with fanNoted := tabSet 0 s.slu.fanNoted a (now s) } }
  else s

-- Grant.

/-- Tables of a new zone (R135), to the head and to its island. -/
def setZone (n z : Nat) (s : State) : State :=
  if (getHead s n).zone = z then s else sendTables n z s
/-- What an operation wants of its sectors: a read puts them on the ladder, one that stands there already is handed on at once; a write
puts them under check. -/
def openSectors (o : ArmOp) (s : State) : State :=
  if writesMedium o.kind then
    match s.rows.find? fun r => r.arm = o.lArm && r.q = o.row with
    | none => s
    | some r =>
      let s := if o.kind = .rowWrite then modRow r.row (fun r => { r with passed := r.passed + 1 }) s else s
      each o.want (fun k s => modRowSec r.row k (fun d => { d with st := 1 }) s) s
  else each (opKeys o) (fun e s =>
    let k := e.2
    match findSec s o.lArm e.1 (k / 32) (k / 16 % 2) (k % 16) with
    | some x => (match x.info with | some i => if x.followUp && o.kind = .followup then s else deliverInfo x i s | none => s)
    | none => wantSec o.lArm e.1 (k / 32) (k / 16 % 2) (k % 16) s) s
/-- The injections into an arm's loops end, their sums discarded (R433). -/
def endArmSines (a : Nat) (s : State) : State :=
  each ([a] ++ (List.range 8).map (8 + 8 * a + ·) ++ (List.range 8).map (72 + 8 * a + ·)) endSines s
/-- Heads of an idle arm that an ended operation left engaged for the next (R420), but for those kept. -/
def restLeft (a : Nat) (keep : List Nat) (s : State) : State :=
  each (List.range 8) (fun h s => if 2 ≤ (getHead s (8 * a + h)).mode && (getHead s (8 * a + h)).mode ≤ 3 && !keep.contains h then restHead a h false s else s) s
/-- Grant a piece of work to its arm (R414, R420, R421, R433). -/
def grant (w : Work) (s : State) : State :=
  let a := w.arm
  let o : ArmOp := opOfWork w
  let slot := ((headPlaces s a o).map fun p => p.2.slot).foldl min (((headPlaces s a o).head?.map fun p => p.2.slot).getD 0)
  let o := { o with slot, seekPower := seekPowerOf s a o, at_ := now s }
  let byAge := aged s w
  let s := each (hostBlocks s w) (fun b s => reserveSlot b.1 b.2.1 b.2.2 s) (takeInner a (innerKeys s w) s)
  let s := { s with slu := { s.slu with
    work := s.slu.work.erase w, chosen := tabSet none s.slu.chosen a none, line := s.slu.line.filter (· ≠ a), ops := tabSet none s.slu.ops a (some o),
    lastGrant := tabSet 0 s.slu.lastGrant a (now s), ageOverride := if byAge then satInc 16 s.slu.ageOverride else s.slu.ageOverride } }
  let s := if writesMedium o.kind || (o.visit.any fun v => v.kind = 1) || !inPlace s a o then endArmSines a s else s
  let s := restLeft a (o.heads.filter fun h => (getHead s (8 * a + h)).mode = if opWrites o then 3 else 2) s
  let s := each (loadedHeads s a) (fun n s => setZone n (opZone s a o n) s) s
  let s := if inPlace s a o then s else moveArm a (opTargets s a o) s
  let cal := o.visit.any fun v => v.kind = 2
  let s := if cal then s else each o.heads (fun h s => engageHead a h o s) s
  let s := match o.visit with | some v => each o.heads (fun h s => beginStep a h 0 v s) s | none => s
  openSectors o s
/-- A write that needs a block whose frame has been dropped (Table 9.5). -/
def needsGone (s : State) (w : Work) : Bool :=
  (w.kind == .rowWrite || w.kind == .rewrite) && s.rows.any fun r => r.arm = w.lArm && r.q = w.row && w.want.any fun k =>
    match offAt s.img w.row (k / 32) (k / 16 % 2) (k % 16) with
    | some o => ((r.src[o]?).join).any fun f => s.mpd.gone.contains f
    | none => false
/-- An arm is at a decision point (R414). -/
def atDecision (s : State) (a : Nat) : Bool := (getArm s a).state = 5 && (opOf s a).isNone && alkUp s a
/-- Another arm has reached its decision point in this same microsecond, and its last grant is older: it is served first (R419). -/
def servedFirst (s : State) (a : Nat) : Bool :=
  let at_ (b : Nat) : Nat := tabGet 0 s.slu.decideAt b
  let last (b : Nat) : Nat := tabGet 0 s.slu.lastGrant b
  at_ a / 1000 = now s / 1000 && (List.range 8).any fun b =>
    at_ b / 1000 = now s / 1000 && atDecision s b && decide (last b < last a) && !s.slu.line.contains b && (workOf s b).any (eligible s)
/-- Work that a thermal limit holds is counted (R411, Table 13.10). -/
def noteHeat (a : Nat) (s : State) : State :=
  let held := (workOf s a).filter fun w => ready s w && !(fitsHeat s a (opOfWork w)) && !(s.slu.thermHeld.contains w)
  { s with slu := { s.slu with
    thermHeld := (s.slu.thermHeld.filter fun w => s.slu.work.contains w) ++ held, thermWait := satAdd 16 s.slu.thermWait held.length } }
/-- OPERATION_GRANT (R415–R419): the decision point of an arm. -/
def execOperationGrant (arm : Fin 8) (s : State) : Host.Outcome State Fault Refusal := live s fun s =>
  let a := arm.val
  .next (
    if !atDecision s a || servedFirst s a then checkFloor s
    else
      let s := noteFantail a (planVisits a (planPrefetch a (fromCache a (stepRebuild a (mendFailed a (applyDue a (checkFloor s)))))))
      let s := dropWork (fun w => w.arm == a && stale s w) s
      let kept := (tabGet none s.slu.chosen a).filter fun w => s.slu.work.contains w && eligible s w
      let s := noteHeat a (if kept.isSome then s else { s with slu := { s.slu with chosen := tabSet none s.slu.chosen a none, line := s.slu.line.filter (· ≠ a) } })
      match kept.orElse fun _ => choice s a with
      | none => restLeft a [] s
      | some w =>
        if needsGone s w then loseGone (rowOfArm s.img w.lArm w.row) s
        else if fitsPower s a (opOfWork w) then grant w s
        else if kept.isSome then restLeft a [] s
        else restLeft a [] { s with slu := { s.slu with
          chosen := tabSet none s.slu.chosen a (some w), line := s.slu.line ++ [a], powerWait := satInc 16 s.slu.powerWait } })

-- The end of an operation (R420 step 4).

/-- A sector that the operation still waits for: it has not come at its rung and no other work reads it. The arm stays with it while its head is
suspended (R156). -/
def unread (s : State) (a : Nat) (o : ArmOp) (q k : Nat) : Bool :=
  match findSec s o.lArm q (k / 32) (k / 16 % 2) (k % 16) with
  | none => false
  | some x => (x.info.isNone || x.followUp) && decide (x.rung ≤ 6) && (secPlace s x).arm = a && !(s.slu.work.any fun w => w.lArm = o.lArm && w.row = q && w.want.contains k)
/-- Islands of the operation's heads hold nothing that awaits its decode or a rebuild. -/
def islandsDone (s : State) (a : Nat) (o : ArmOp) : Bool :=
  o.heads.all fun h =>
    let i := getIsl s (getHead s (8 * a + h)).island
    (i.sbuf.all fun e => e.undecoded.isEmpty) && i.requests.isEmpty
/-- Sectors of its row that still wait for the result of their check. -/
def checksDone (s : State) (a : Nat) (o : ArmOp) : Bool :=
  (getMq s a).words.isEmpty && s.rows.all fun r => !(r.arm = o.lArm && r.q = o.row) || o.want.all fun k => (rowSec r k).st ≠ 1
def opDone (s : State) (a : Nat) (o : ArmOp) : Bool :=
  if o.kind = .repair then o.want.isEmpty
  else if writesMedium o.kind then checksDone s a o
  else if o.kind = .fantail then islandsDone s a o && o.visit.all fun v => visitDone s a o v
  else islandsDone s a o && (opKeys o).all fun e => !(unread s a o e.1 e.2)
/-- Heads that the arm's next operation takes over as they are: it uses the same mode and starts within 50 µs (R420). -/
def takenOver (s : State) (a : Nat) (o : ArmOp) : List Nat :=
  let s := { s with slu := { s.slu with ops := tabSet none s.slu.ops a none } }
  match choice s a with
  | none => []
  | some w =>
    let n := opOfWork w
    let soon := decide (accessTime s a n * 60000000000 ≤ 50000 * s.img.wedges * nSvc s.img)
    if soon && opWrites n = opWrites o && fitsPower s a n && !((o.visit.any fun v => v.kind = 2) || n.visit.any fun v => v.kind = 2) then n.heads.filter o.heads.contains else []
/-- ISLAND_GATE_OFF (R420 step 4): the operation ends, and its head time counts in its share. -/
def execIslandGateOff (arm : Fin 8) (s : State) : Host.Outcome State Fault Refusal := live s fun s =>
  let a := arm.val
  .next (
    match opOf s a with
    | none => s
    | some o =>
      if !opDone s a o then s
      else
        let w : Work := { arm := a, kind := o.kind, lArm := o.lArm, row := o.row, want := o.want, heads := o.heads, repair := o.repair }
        let cls := classOfWork s w
        let keep := takenOver s a o
        let s := each o.heads (fun h s => if keep.contains h then laserOff a h (opWrites o) s else restHead a h (opWrites o) s) s
        let s := freeInner (fun e => e.1 = a) (visitEnded a o s)
        let s := if writesMedium o.kind then { s with tre := { s.tre with sent := s.tre.sent.filter fun x => x.1.1 ≠ o.lArm } } else s
        let s := { s with slu := { s.slu with
          ops := tabSet none s.slu.ops a none, decideAt := tabSet 0 s.slu.decideAt a (now s),
          shares := (s.slu.shares.filter fun e => decide (now s < e.2.2.1 + oneSec)) ++ [(a, cls, now s, since s o.at_)] } }
        advancePark (each ((o.row :: o.batch.map (·.1)).eraseDups) (forgetRow o.lArm) (passesEnded o s)))

-- The PWM budget (R404, R405).

/-- Decoding has started: the part has left Configuring with BPWM_EN = 1. -/
def decodesPwm (s : State) : Bool := bpwmEn s.img && s.dev ≠ .unconfigured && s.dev ≠ .configuring
/-- Median of duties. -/
def medianDuty (ds : List (Nat × Nat)) : Rat :=
  let xs := (ds.map fun (d : Nat × Nat) => ((d.1 : Rat) / (d.2 : Rat))).mergeSort (fun a b => decide (a ≤ b))
  let n := xs.length
  if n = 0 then 0 else if n % 2 = 1 then xs.getD (n / 2) 0 else (xs.getD (n / 2 - 1) 0 + xs.getD (n / 2) 0) / 2
/-- Value of a median duty in 0.1 W, rounded down; none sets no limit. -/
def pwmValue (s : State) (m : Rat) : Option Nat :=
  if 99 / 100 ≤ m then none else some ((bpwmZero s.img : Rat) + m * bpwmSpan s.img).floor.toNat
def lossValue (s : State) : Option Nat := if bpwmLoss s.img = 0xFFFF then none else some (bpwmLoss s.img)
/-- A decoded value joins those of the last 100 ms; the one before it has held until now (R405). -/
def decodedPwm (v : Option Nat) (s : State) : State :=
  let held := s.slu.decoded.dropLast ++ (s.slu.decoded.getLast?.map fun d => (now s, d.2)).toList
  let s := { s with slu := { s.slu with decoded := (held.filter fun (d : Nat × Option Nat) => decide (now s < d.1 + 100000000)) ++ [(now s, v)] } }
  refreshBudget 1 { s with slu := { s.slu with pwm := pwmInForce s } }
/-- Decoding begins (R404): BPWM_LOSS stands until the first valid period. -/
def startPwm (s : State) : State :=
  if bpwmEn s.img then
    let s := { s with slu := { s.slu with pwmState := 3, duties := [], decoded := [(now s, lossValue s)] } }
    refreshBudget 1 { s with slu := { s.slu with pwm := pwmInForce s } }
  else s
/-- The part leaves Configuring: the image's host budget and spin policy stand until the host sets them, and the budget input is decoded
(R404, R585). -/
def leaveConfiguring (s : State) : State :=
  if s.dev ≠ .configuring then s
  else if s.start.left then startPwm s
  else
    let b := budgetDefault s.img
    startPwm (refreshBudget 0 { s with
      start := { s.start with left := true }, hop := { s.hop with autoSpin := spinPolicyImg s.img = 1 },
      slu := { s.slu with host := if b = 0xFFFFFFFF then none else some b } })
/-- BUDGET_PWM_PERIOD (R404): times in ns. -/
def execBudgetPwmPeriod (period high : Nat) (s : State) : Host.Outcome State Fault Refusal := live s fun s =>
  let s := { s with pwr := { s.pwr with bpwm := true } }
  .next (
    if decodesPwm s && decide (200000 ≤ period) && decide (period ≤ 5000000) && decide (high ≤ period) then
      let ds := (if s.slu.pwmState = 3 then [] else s.slu.duties) ++ [(high, period)]
      let ds := ds.drop (ds.length - 8)
      decodedPwm (pwmValue s (medianDuty ds)) { s with slu := { s.slu with duties := ds, pwmState := 1 } }
    else s)
/-- BUDGET_PWM_SILENCE (R404 step 5): the level at which the input stands is free. -/
def execBudgetPwmSilence (s : State) : Host.Outcome State Fault Refusal := live s fun s =>
  let s := nextFree { s with pwr := { s.pwr with bpwm := (freeVal s).getLsbD 0 } }
  .next (if decodesPwm s && s.slu.pwmState = 1 then { s with slu := { s.slu with pwmState := 2 } } else s)
/-- BPWM_HOLD_EXPIRY (R404 step 6). -/
def execBpwmHoldExpiry (s : State) : Host.Outcome State Fault Refusal := live s fun s =>
  .next (
    if decodesPwm s && s.slu.pwmState = 2 then
      decodedPwm (lossValue s) (post 0xC1 mSluice [] { s with slu := { s.slu with pwmState := 3, duties := [] } })
    else s)
/-- PWM_RISE_SETTLE (R405): the lowest level has been left for 100 ms; the next takes effect. -/
def execPwmRiseSettle (s : State) : Host.Outcome State Fault Refusal := live s fun s =>
  .next (
    let v := pwmInForce s
    let last := s.slu.decoded.getLast?
    if decodesPwm s && (last.map (·.2)) ≠ some v then
      let s := { s with slu := { s.slu with decoded := s.slu.decoded.filter fun d => d.2 ≠ v } }
      refreshBudget 1 { s with slu := { s.slu with pwm := pwmInForce s } }
    else s)

end Sys2Proof.Machine
end

