-- ==== Sys2Proof/Machine/Millpond.lean ====
section
/-! DEFINITION. The millpond's channels and its errors (chapter 9): Table 9.5, migration to the spare (R307–R309), scrub, refresh and
calibration (R285–R287). -/

namespace Sys2Proof.Machine

-- The response to an uncorrectable error (Table 9.5).

/-- Block frames whose entries a ledger page in either copy holds (R288): 128 to a page (Tables 9.2, 9.4). -/
def pageFrames (f : Nat) : List Nat := (List.range 128).map fun k => 128 * pageOf f + k
/-- Physical channel that serves a logical one. -/
def physOf (s : State) (logical : Nat) : Option Nat := (List.range 9).find? fun p => ((getChan s p).role = 1 || (getChan s p).role = 3) && (getChan s p).logical = logical
/-- Physical channel from which a frame is read (R283, R284): below the cursor of a migration the spare, else the one that serves its logical channel
(R308 step 2). A write below the cursor goes to both, whose content is the same and stands once. -/
def frameChan (s : State) (f : Nat) : Nat :=
  let copied := s.mpd.state = 3 && s.mpd.migLogical = f % 8 && !s.mpd.migLost && decide (f / 8 < s.mpd.migCursor)
  ((if copied then (List.range 9).find? fun p => (getChan s p).role = 4 else physOf s (f % 8))).getD (f % 8)
/-- Burst of its channel at which a burst of a frame lies (R284). -/
def frameBurst (f burst : Nat) : Nat := 64 * (f / 8) + burst
/-- A block frame of a standby holds a mirrored block (R303). -/
def mirrorFrame (s : State) (f : Nat) : Bool := s.ptn.role = 2 && decide (118784 ≤ f) && (getEntry s f).valid
/-- What an uncorrectable error hits (Tables 9.2, 9.5), with its kind and its frame or slot (log entry 33). -/
def ueKind (s : State) : UeContent → Nat × Nat
  | .slot k => (0, k)
  | .bothCopies f _ => (4, f)
  | .frame f _ =>
    (if f < 20480 then 3 else if f < 53248 then 5 else if f < 118784 then 6 else if mirrorFrame s f then 2 else 1, f)
/-- A millrace slot is filled again from where its block came (Table 9.5): the medium, or the millpond. A slot of the internal pool holds a block between
its decoding and its move in the same step, so that one that waits has nothing to lose. -/
def refillSlot (k : Nat) (s : State) : State :=
  let d := getSlot s k
  if d.used && d.ready && decide (k < 20480) then
    match cmdOf s d.arrival with
    | some c =>
      if c.cap.opcode = 0x01 && c.phase = .running && decide (c.sent ≤ d.pos) then
        pumpRead d.arrival (retakeBlock d.arrival d.pos d.lba (modSlot s k fun x => { x with ready := false, data := 0 }))
      else s
    | none => s
  else s
/-- A block of a ledger entry is at the partner, which confirmed it. -/
def atPartner (s : State) (f : Nat) : Bool := (getEntry s f).mirrored && s.ptn.synced && linkUp s 2
/-- The response of Table 9.5. One bad copy of a ledger or commit page is written again from the other (`otherCopy`), with the content that `frameView`
gives both; a layout working copy or the directory is reloaded at once. With both copies of a ledger page gone, the entries of the blocks that the partner
has confirmed are rebuilt from there, and the others' frames are dirty frames without a copy; both copies of a commit page are rebuilt from the layout's
working tables, which hold the same entries (log entry 33). -/
def ueResponse (c : UeContent) (s : State) : State :=
  match c with
  | .slot k => refillSlot k s
  | .frame f _ =>
    if f < 53248 then s
    else if mirrorFrame s f then
      ptnSend (.fetch 0 f (getEntry s f).vseq) { s with ptn := { s.ptn with fetches := s.ptn.fetches ++ [(f, (getEntry s f).vseq.toNat)] } }
    else ueFrame f s
  | .bothCopies f _ =>
    if 16384 ≤ f then s
    else each (pageFrames f) (fun f s => if (getEntry s f).valid && !atPartner s f then ueFrame f s else s) s
/-- An uncorrectable error on a physical channel: counted, and kept for scrub to confirm (R307, R313). -/
def noteUe (p burst : Nat) (s : State) : State := modChan s p fun m => { m with
  ue := satInc 16 m.ue, ueBursts := if m.ueBursts.contains burst then m.ueBursts else m.ueBursts ++ [burst] }
/-- Byte address and memory number that the report of an uncorrectable error gives (Tables 17.3, 9.2). -/
def ueSite (s : State) : UeContent → Nat × Nat
  | .slot k => (2 ^ 32 + 4096 * k, 0x48)
  | .frame f b | .bothCopies f b => (4096 * f + 64 * b.val, 0x49 + frameChan s f)
/-- The error counted on the channel of the frame that it hits. -/
def ueCounted (c : UeContent) (s : State) : State :=
  match c with
  | .slot _ => s
  | .frame f b | .bothCopies f b => noteUe (frameChan s f) (frameBurst f b) s
-- Migration (R307–R309).

/-- Channel 63 of the transfer engine, as which the scrub and the migration run (R287), is neither paused nor stopped (R328, R330). -/
def pondRuns (s : State) : Bool := decide ((getTre s 63).state ≤ 1) && s.dev ≠ .holdUp && s.dev ≠ .stopped

/-- Frames of a logical channel that hold something: ledger and commit pages in both copies, block frames, and of each row's staging, which is rebuilt as
a whole, the first that lies there (log entry 33). -/
def channelFrames (s : State) (logical : Nat) : List Nat :=
  let pages := ((s.mpd.ledger.filter (·.2.valid)).map (·.1 / 128)).eraseDups
  let records := (List.range (ceilDiv (s.mpd.commits.map commitBytes).sum 4096)).map (16384 + ·)
  ((pages ++ records).flatMap (fun f => [f, otherCopy f]) ++ (s.mpd.ledger.filter (·.2.valid)).map (·.1) ++ s.mpd.clean.map (·.1) ++
    s.rows.map (·.staging + logical)).filter fun f => f % 8 = logical
/-- A logical channel fails with no spare left (R309). -/
def noSpare (s : State) : State :=
  let s := { s with
    mpd := { s.mpd with state := 4, migLogical := 15 }, hop := { s.hop with closed := true, stopCause := 0xAC } }
  if mirrorOn s then failStop 0xAC (post 0xAC mMillpond [] s) else advanceDrain s
/-- Migrate a logical channel: cause 0 confirmed error, 1 corrected errors, 2 margin, 3 training lost (R307). A channel that has lost its training is no
source: each of its frames is recovered under Table 9.5, with its event 0xA9 (R306, R308). -/
def migrate (logical cause : Nat) (s : State) : State :=
  match physOf s logical with
  | none => s
  | some p =>
    let recover (s : State) : State :=
      if cause = 3 then each (channelFrames s logical) (fun f s =>
        let k := ueKind s (.frame f 0)
        ueResponse (.frame f 0) (post 0xA9 mMillpond [b1 k.1, b8 k.2] s)) s
      else s
    if s.mpd.state = 3 && s.mpd.migLogical = logical then s
    else if s.mpd.spare = 15 then
      if s.mpd.state = 4 then s else noSpare (recover (modChan s p fun m => { m with role := 5 }))
    else
      let t := s.mpd.spare
      let s := modChan (modChan s p fun m => { m with role := 3, ueBursts := [] }) t fun m => { m with role := 4, logical }
      let s := { s with mpd := { s.mpd with state := 3, spare := 15, migLogical := logical, migCursor := 0, migLost := cause = 3 } }
      let s := mqNote 26 (post 0xAA mMillpond [b1 logical, b1 p, b1 t, b1 cause] s)
      let s := if cause = 3 then
          openCause 0xAA logical false (report { master := mMillpond, cause := 5, mem := BitVec.ofNat 7 (0x49 + p), event := 0xAA, hold := true } s)
        else s
      recover s
/-- MIGRATION_START. -/
def execMigrationStart (logical : Fin 8) (cause : Fin 4) (s : State) : Host.Outcome State Fault Refusal := live s fun s =>
  .next (if s.mpd.state = 2 || s.mpd.state = 3 then migrate logical cause s else s)
/-- Units of 4 KiB that a migration has copied between two device times, one in 2,048 ns at 2.0 GB/s (R308 step 1). A channel that has lost its training
is no source. A unit that cannot be read is an uncorrectable error under master ID 0x4F, and its content follows Table 9.5 (R308 step 3). -/
def copyUnits (t0 t1 : Nat) (s : State) : State :=
  if s.mpd.state = 3 && !s.mpd.migLost && pondRuns s then
    { s with mpd := { s.mpd with migCursor := min 131072 (s.mpd.migCursor + (t1 / 2048 - t0 / 2048)) } }
  else s
/-- MIGRATION_COMPLETE (R308 step 4): the cursor has reached the end, or the channel's frames are recovered. -/
def execMigrationComplete (s : State) : Host.Outcome State Fault Refusal := live s fun s =>
  .next (
    if s.mpd.state = 3 && (s.mpd.migLost || s.mpd.migCursor = 131072) then
      let logical := s.mpd.migLogical
      let s := each (List.range 9) (fun p s => modChan s p fun m =>
        if m.role = 3 then { m with role := 5, logical := 0 } else if m.role = 4 then { m with role := 1 } else m) s
      let s := { s with mpd := { s.mpd with state := 2, migLogical := 15, migCursor := 0, migLost := false } }
      mqNote 26 (post 0xAB mMillpond [] (closeCause 0xAA logical s))
    else s)

-- Scrub, spare, refresh and calibration.

/-- A syndrome that SEC-DED corrects (R524). -/
def correctable (syn : BitVec 8) : Bool := secDedColumns.contains syn.toNat || weight 8 syn.toNat = 1
/-- Fabric address of a burst of a logical channel (R284, Table 17.1). -/
def burstAddr (logical burst : Nat) : Nat := (8 * (burst / 64) + logical) * 4096 + burst % 64 * 64
/-- A test write on the beat predicted this syndrome (R530). -/
def beatTagged (s : State) (mem addr : Nat) (syn : BitVec 8) : Bool :=
  s.diag.eccTags.any fun t => t.1 = mem && decide (addr ≤ t.2.1) && decide (t.2.1 < addr + 8) && t.2.2 = syn
/-- One beat of a scrubbed burst: a corrected error is written back and counted, an uncorrectable one gets the response of Table 9.5 (R287, R306). -/
def scrubBeat (p burst beat : Nat) (syn : BitVec 8) (s : State) : State :=
  let m := getChan s p
  let mem := 0x49 + p
  let at_ := burstAddr m.logical burst + 8 * beat
  let addr := BitVec.ofNat 48 at_
  let injected := beatTagged s mem at_ syn
  if syn = 0 then s
  else if correctable syn then
    let s := modChan s p fun m => { m with ce := satInc 32 m.ce, ceTimes := recent s (86400 * oneSec) m.ceTimes ++ [now s] }
    report { master := 0x4F, cause := 1, mem := BitVec.ofNat 7 mem, addr, syndrome := syn, injected } (dropTags mem mem at_ 8 s)
  else
    let f := 8 * (burst / 64) + m.logical
    let s := post' injected f (noteUe p burst s)
    let s := report { master := 0x4F, cause := 2, mem := BitVec.ofNat 7 mem, addr, syndrome := syn, event := 0xA9, injected } s
    ueResponse (.frame f (Fin.ofNat 64 burst)) s
where
  post' (injected : Bool) (f : Nat) (s : State) : State :=
    let k := ueKind s (.frame f 0)
    postInj injected 0xA9 mMillpond [b1 k.1, b8 f] s
/-- SCRUB_READ (R287, R307, R530): the next burst of the channel's patrol, with the syndromes of its eight beats; a channel whose error it confirms at
the same burst, or with more than CE_LIMIT corrected errors in 24 h, migrates. -/
def execScrubRead (channel : Fin 9) (syndromes : Vector (BitVec 8) 8) (s : State) : Host.Outcome State Fault Refusal := live s fun s =>
  let p := channel.val
  let m := getChan s p
  let burst := m.scrub
  let bad := syndromes.toList.any fun y => y ≠ 0 && !correctable y
  .next (
    if (m.role ≠ 1 && m.role ≠ 3) || !pondRuns s then s
    else
      let s := modChan s p fun m => { m with scrub := (burst + 1) % 2 ^ 23, ueBursts := if bad then m.ueBursts else m.ueBursts.filter (· ≠ burst) }
      let s := each syndromes.toList.zipIdx (fun y s => scrubBeat p burst y.2 y.1 s) (if syndromes.toList.all (· = 0) then s else mqNote 26 s)
      if bad && m.ueBursts.contains burst then migrate m.logical 0 s
      else if ceLimit s.img < (recent s (86400 * oneSec) (getChan s p).ceTimes).length then migrate m.logical 1 s
      else s)
/-- The spare is no longer spare (R285): event 0xA8. -/
def loseSpare (trained : Bool) (s : State) : State :=
  if s.mpd.spare = 15 then s
  else
    let s := modChan s s.mpd.spare fun m => { m with role := 5, trained := m.trained && trained }
    post 0xA8 mMillpond [] { s with mpd := { s.mpd with spare := 15 } }
/-- SPARE_PATTERN_TEST (R285). -/
def execSparePatternTest (pass : Bool) (s : State) : Host.Outcome State Fault Refusal := live s fun s =>
  .next (
    if s.mpd.spare = 15 then s
    else
      let s := { s with mpd := { s.mpd with spareTestAt := now s } }
      if pass then s else loseSpare true s)
/-- SPARE_CHANNEL_TRAINING_LOSS (R285). -/
def execSpareChannelTrainingLoss (s : State) : Host.Outcome State Fault Refusal := live s fun s => .next (loseSpare false s)
/-- DRAM_REFRESH (R286): the next of the 16 × 8,192 refreshes. -/
def execDramRefresh (channel : Fin 9) (s : State) : Host.Outcome State Fault Refusal := live s fun s =>
  .next (
    if s.mpd.state = 0 then s else modChan s channel fun m => { m with refreshRow := (m.refreshRow + 1) % 131072 })
/-- ZQ_CAL_SHORT (R286). -/
def execZqCalShort (channel : Fin 9) (s : State) : Host.Outcome State Fault Refusal := live s fun s =>
  .next (if s.mpd.state = 0 then s else modChan s channel fun m => { m with calAt := now s })

end Sys2Proof.Machine
end

