-- ==== Sys2Proof/Machine/Transfer.lean ====
section
/-! DEFINITION. The transfer engine (chapter 10): descriptors and their checks (R316–R321), what a descriptor moves (R322, R323, R325),
completion and its lines (R326, R327), stops (R328, R329), halts and their resolution (R331, R332, R656). -/

namespace Sys2Proof.Machine

/-- Types that a channel may run (Table 10.1). -/
def typeAllowed (ch type : Nat) : Bool :=
  if ch < 16 then type = 3
  else if ch < 32 then type = 6 || type = 2 || type = 4
  else if ch < 48 then type = 5
  else decide (1 ≤ type) && decide (type ≤ 8) && type ≠ 5 && type ≠ 6
/-- The channel has a unit that owns it: arms and ports that are absent own none (R314). -/
def hasOwner (s : State) (ch : Nat) : Bool :=
  if 32 ≤ ch && ch < 48 then decide ((ch - 32) / 2 < s.img.arms)
  else if ch < 32 then bitOf (ch / 8 % 2) (portEn s.img) else true
/-- Sectors that an INTERLEAVE sends. -/
def rowSent (i : Image) (d : Descriptor) : List (Nat × Nat) :=
  (List.range 16).flatMap fun sl => if argSlot d sl then ((List.range i.heads).filter (argHead d)).map fun h => (h, sl) else []
/-- STG_BASE (R322). -/
def stagingBase (s : State) (d : Descriptor) : Nat := entryAt s d (3 * bR s.img) + 2 ^ 32 * entryAt s d (3 * bR s.img + 1)
/-- The checks before the first element (R321 step 1): a cause of Table 10.6. -/
def checkDesc (s : State) (ch : Nat) (d : Descriptor) : Option Nat :=
  let t := d.type.toNat
  let n := dCount d
  let argFree := t = 5 || t = 7 || (if t = 6 then bitsOf 25 0 d.arg.toNat = 0 && d.srcLen = 0 else d.arg = 0)
  let srcUsed := t ≠ 6 && t ≠ 7
  let dstUsed := t ≠ 8
  let table := 4 * d.idxAddr.toNat
  let len := tableLen s.img d
  let tableBad := len ≠ 0 && (decide (65536 < len) || isStream (fabricOf (table / 4096)) || !(fabricAllows ch false (fabricOf (table / 4096))) ||
    fabricId (fabricOf ((table + 4 * len - 1) / 4096)) ≠ fabricId (fabricOf (table / 4096)))
  if !typeAllowed ch t || n = 0 || decide (65536 < n) || d.reserved ≠ 0 || !argFree || (d.mirror && t ≠ 3) || !hasOwner s ch ||
      (t = 4 && decide (32768 < n)) || (t = 5 && (n ≠ (rowSent s.img d).length || (List.range 8).any fun h => decide (s.img.heads ≤ h) && argHead d h)) ||
      (t = 6 && n ≠ bR s.img) then some 1
  else if (srcUsed && !bufferOk ch false d.srcBase.toNat d.srcLen.toNat) || (dstUsed && !bufferOk ch true d.dstBase.toNat d.dstLen.toNat) ||
      (t = 5 && (fabricId (fabricOf d.srcBase.toNat) ≠ 1 || fabricOf d.dstBase.toNat ≠ .tailrace (argArm d) || argArm d ≠ (ch - 32) / 2)) || (t = 6 && fabricId (fabricOf d.dstBase.toNat) ≠ 2) ||
      (t ≠ 5 && dstUsed && isStream (fabricOf d.dstBase.toNat)) || (t ≠ 3 && srcUsed && isStream (fabricOf d.srcBase.toNat)) then some 2
  else if ((t = 1 || t = 8) && decide (d.srcLen.toNat < n)) || (t = 3 && !isStream (fabricOf d.srcBase.toNat) && decide (d.srcLen.toNat < n)) ||
      ((t = 1 || t = 2 || t = 7) && decide (d.dstLen.toNat < n)) then some 3
  else if tableBad then some 4
  else if t = 5 && decide (1048576 < stagingBase s d + 17) then some 2
  else none

-- Lines, halts.

/-- TRE_CHAN_n (Table 10.8). -/
def treWord (s : State) (ch : Nat) : Word :=
  let c := getTre s ch
  w64 (c.state * 2 ^ 62 + b2n c.cut * 2 ^ 61 + c.halts * 2 ^ 48 + c.cause * 2 ^ 44 + b2n c.injected * 2 ^ 43 + c.descIdx % 256 * 2 ^ 35 + c.elemIdx % 2 ^ 18 * 2 ^ 17 + c.ring.length)
/-- A descriptor's own address: its byte in the descriptor SRAM (R316, R331; log entry 47). -/
def descAddr (s : State) (ch : Nat) : Nat := 32 * (256 * ch + (getTre s ch).descIdx)
/-- CAUSE of Table 17.2 for a halt. -/
def haltReport (cause : Nat) : Nat := if cause = 6 || cause = 7 || cause = 8 then 2 else 3
/-- A pass has ended, or is given up: the tailrace no longer holds it. -/
def endPass (d : Descriptor) (s : State) : State := { s with tre := { s.tre with tailrace := s.tre.tailrace.filter fun x => x ≠ (argArm d, d) } }
/-- A halted INTERLEAVE ends every stream of its pass at once: the pass's sectors from element `n` on, which were not sent, are void (R132, R332). -/
def cutPass (d : Descriptor) (n : Nat) (s : State) : State :=
  let rest := (rowSent s.img d).drop n
  let a := argArm d
  let heads := (rest.map (·.1)).eraseDups
  let s := voidArm (fun _ p => p.track % 2 = argTrack d && rest.contains (p.head, p.slot)) a heads s
  each (heads.filter fun h => (getHead s (8 * a + h)).writing) (fun h s => stopWriter (8 * a + h) s) s
/-- Halt a channel (R331) over a read or a write; one whose pass has begun ends it. -/
def haltChannelAs (write : Bool) (ch cause addr elem : Nat) (inj : Bool) (s : State) : State :=
  let begun := (getTre s ch).running
  let s := modTre s ch fun c => { c with state := 3, cause, halts := satInc 6 c.halts, injected := inj, elemIdx := elem, running := true }
  let word : Word := (treWord s ch &&& w64 (2 ^ 48 - 1)) ||| w64 (ch * 2 ^ 48)
  let s := mqSend 30 [word] (pulse ch s)
  let s := report {
    master := mTre ch, access := if write then 6 else 5, addr := BitVec.ofNat 48 addr, cause := BitVec.ofNat 4 (haltReport cause), mem := if cause = 6 then 0x55 else 0x7F, injected := inj } s
  match (getTre s ch).ring with
  | (d, _) :: _ =>
    if d.type = 5 && begun then endPass d (cutPass d elem s) else s
  | [] => s
def haltChannel (ch cause addr elem : Nat) (inj : Bool) (s : State) : State := haltChannelAs (cause = 9) ch cause addr elem inj s
/-- Leave the first descriptor of the ring: what FLUSH and PAUSE asked for takes effect, FLUSH idling the channel (R328). -/
def dropDesc (ch : Nat) (s : State) : State :=
  modTre s ch fun c => { c with
    ring := if c.flushing then [] else c.ring.drop 1, running := false, elemIdx := 0,
    descIdx := (c.descIdx + if c.flushing then c.ring.length else 1) % 256,
    state := if c.pausing && !c.flushing then 2 else 0, pausing := false, flushing := false }

-- What a descriptor moves.

/-- A program of the transfer engine that finds a sector not erased (R487): counted, event 0x91. -/
def noteRefused (addr : Nat) (s : State) : State :=
  match fabricOf (addr / 4096) with
  | .flash w =>
    if (pageAt s (w / 4)).any fun x => x.1.kind = 3 || x.1.kind = 4 then post 0x91 mFlash [] { s with fls := { s.fls with notErased := satInc 16 s.fls.notErased } } else s
  | _ => s
/-- A bank that an element needs programs or erases (R490). -/
def flashBusy (s : State) (d : Descriptor) (n : Nat) : Bool :=
  let u := elemUnits s d n
  moves d && [u.1, u.2].any fun x => match fabricOf x with | .flash w => decide (2 ≤ (getBank s (((pageAt s (w / 4)).map (·.2)).getD 0 % 8)).op) | _ => false
/-- Data block, host tag and poison that an INTERLEAVE takes for row offset o (R322). An entry 0xFFFF_FFFF names no frame and no content: the block is
open (log entry 47). -/
def interBlock (s : State) (d : Descriptor) (o : Nat) : Block × Word × Bool :=
  let e := entryAt s d o
  if e = 0xFFFFFFFE then (0, 0, false)
  else if e = 0xFFFFFFFD then (0, 0, true)
  else
    (if e = 0xFFFFFFFF then Config.openBlock s.free o else readElem s (d.srcBase.toNat + e),
      w64 (entryAt s d (bR s.img + 2 * o) + 2 ^ 32 * entryAt s d (bR s.img + 2 * o + 1)), false)
/-- Row offset that data head h carries in a slot (R323). -/
def interOffset (i : Image) (d : Descriptor) (h sl : Nat) : Nat :=
  2 * (i.heads - 1) * sl + 2 * (if h < argPar d then h else h - 1) + argTrack d
/-- Element n of an INTERLEAVE as head and slot, and whether it is the first of its slot. -/
def interSector (i : Image) (d : Descriptor) (n : Nat) : (Nat × Nat) × Bool :=
  let x := (rowSent i d).getD n (0, 0)
  (x, n = 0 || ((rowSent i d).getD (n - 1) (0, 0)).2 ≠ x.2)
/-- Row offsets whose entries the engine reads for element n: its own, and for the first of a slot all of the slot's where the parity is computed
(R323). -/
def interReads (i : Image) (d : Descriptor) (n : Nat) : List Nat :=
  let x := interSector i d n
  if !argReuse d && x.2 then eqOffsets i (argTrack d) x.1.2
  else if x.1.1 = argPar d then [] else [interOffset i d x.1.1 x.1.2]
/-- Element n of an INTERLEAVE (R322, R323): its sector goes to the tailrace port of ARM; the first of a slot brings the slot's parity into staging,
or finds it there under REUSE. -/
def sendSector (n : Nat) (d : Descriptor) (s : State) : State :=
  let ((h, sl), first) := interSector s.img d n
  let base := stagingBase s d
  let s :=
    if argReuse d || !first then s
    else
      let x := xorBlocks ((eqOffsets s.img (argTrack d) sl).map (interBlock s d))
      putParityAt base sl x.1 x.2.1 x.2.2 s
  let content := if h = argPar d then parityAt s base sl else interBlock s d (interOffset s.img d h sl)
  let key := (argArm d, secKey h (argTrack d) sl)
  { s with tre := { s.tre with sent := s.tre.sent.filter (fun x => x.1 ≠ key) ++ [(key, content)] } }
/-- Element n: none if moved, else the halt that stops before it (R319, R321 step 2). -/
def moveElem (n : Nat) (d : Descriptor) (s : State) : Option (Nat × Nat) × State :=
  let bad (i : Nat) : Option (Nat × Nat) × State := (some (5, 4 * (d.idxAddr.toNat + i)), s)
  if d.type = 5 then
    match (interReads s.img d n).find? fun o => decide (d.srcLen.toNat ≤ entryAt s d o) && !exempt (entryAt s d o) with
    | some o => bad o
    | none => (none, sendSector n d s)
  else if d.type = 6 then
    if d.dstLen.toNat ≤ entryAt s d n && !exempt (entryAt s d n) then bad n else (none, s)
  else
    match moveUnit n d s with
    | (some i, _) => bad i
    | (none, t) => (none, if d.mirror then mirrorUnit mirror (elemUnits s d n).2 t else t)
/-- Move elements from `n` on, `k` of them; a halt leaves the rest unmoved. -/
def moveElems (ch : Nat) (d : Descriptor) : Nat → Nat → State → Bool × State
  | 0, _, s => (true, s)
  | k + 1, n, s =>
    match (if moves d then flashRefuses s d n else none) with
    | some (addr, write) => (false, haltChannelAs write ch 9 addr n false (noteRefused addr s))
    | none =>
      match moveElem n d s with
      | (some (cause, addr), s) => (false, haltChannel ch cause addr n false s)
      | (none, s) => moveElems ch d k (n + 1) s
/-- The effect of a whole pass or placement, once its elements have gone. A placement that discards every block is not kept (R325); an entry 0xFFFF_FFFD
or 0xFFFF_FFFE names no slot and discards too (log entry 47). -/
def finishDesc (d : Descriptor) (s : State) : State :=
  if d.type = 5 then endPass d s
  else if d.type = 6 then
    let slots := (List.range (bR s.img)).map fun o =>
      let e := entryAt s d o
      if exempt e then 2 ^ 32 - 1 else d.dstBase.toNat - 0x100000 + e
    if slots.all (· = 2 ^ 32 - 1) then s
    else { s with tre := { s.tre with placements := s.tre.placements ++ [(argArm d, d.srcBase.toNat, argPar d, slots)] } }
  else s
/-- Start the descriptor at the front of a channel's ring, if the channel may: a channel of an absent arm or port stays idle, and halts only over a
descriptor that names a line (R314, Table 10.6); a cancelled one is passed over (R329), an injected halt
comes first (R656), then the checks (R321). -/
def startDesc (ch : Nat) (s : State) : State :=
  let c := getTre s ch
  match c.ring with
  | [] => modTre s ch fun c => { c with state := 0, running := false }
  | (d, gone) :: _ =>
    if !hasOwner s ch && d.event = 0 then s
    else if gone then dropDesc ch (pulseDone ch d s)
    else if s.diag.treHaltPending.contains ch then
      haltChannel ch 10 0 0 true { s with diag := { s.diag with treHaltPending := s.diag.treHaltPending.filter (· ≠ ch) } }
    else match checkDesc s ch d with
      | some cause => haltChannel ch cause (descAddr s ch) 0 false s
      | none =>
        let s := modTre s ch fun c => { c with state := 1, running := true, elemIdx := 0, cut := false }
        if d.type = 5 then { s with tre := { s.tre with tailrace := s.tre.tailrace ++ [(argArm d, d)] } } else s
/-- Channels of a part that holds up its data, stops or has stopped run nothing but the dump (R330). -/
def treRuns (s : State) (ch : Nat) : Bool := ch = 62 || (s.dev ≠ .holdUp && s.dev ≠ .stopped && s.flt.stopStep = 0)

/-- DESCRIPTOR_POST (R316). -/
def execDescriptorPost (ch : Fin 64) (d : Descriptor) (s : State) : Host.Outcome State Fault Refusal := live s fun s =>
  .next (modTre s ch fun c => if c.ring.length < 256 then { c with ring := c.ring ++ [(d, false)] } else c)
/-- DESCRIPTOR_START (R316, R321). -/
def execDescriptorStart (ch : Fin 64) (s : State) : Host.Outcome State Fault Refusal := live s fun s =>
  .next (if (getTre s ch).state = 0 && treRuns s ch then startDesc ch s else s)
/-- A stream SCATTER's port has not received all its blocks yet (R317). -/
def streamShort (s : State) (d : Descriptor) (n : Nat) : Bool :=
  match fabricOf d.srcBase.toNat with
  | .stream p => d.type = 3 && decide ((streamOfPort s p).length < dCount d - n)
  | _ => false
/-- DESCRIPTOR_DONE (R317, R319, R321, R325, R326): a stream SCATTER waits for its blocks, a DEINTERLEAVE while the placement table is full, and a transfer with the flash while its
bank programs or erases (R490). -/
def execDescriptorDone (ch : Fin 64) (s : State) : Host.Outcome State Fault Refusal := live s fun s =>
  let c := getTre s ch
  .next (
    match c.ring with
    | [] => s
    | (d, _) :: _ =>
      if c.state ≠ 1 || !c.running || !treRuns s ch || streamShort s d c.elemIdx || (d.type = 6 && decide (128 ≤ s.tre.placements.length)) ||
          ((List.range (dCount d)).any fun n => decide (c.elemIdx ≤ n) && flashBusy s d n) then s
      else match moveElems ch d (dCount d - c.elemIdx) c.elemIdx s with
        | (false, s) => s
        | (true, s) => dropDesc ch (pulseDone ch d (finishDesc d s)))
/-- CAUSE of a halt. -/
def haltCode : HaltCause → Nat
  | .descInvalid => 1 | .bufferBad => 2 | .countBig => 3 | .tableRange => 4 | .entryRange => 5 | .fetchUe => 6 | .indexUe => 7 | .sourceUe => 8
  | .destRefused => 9 | .injected => 10
/-- CHANNEL_HALT (R331): the elements before the failing one have moved. -/
def execChannelHalt (ch : Fin 64) (cause : HaltCause) (address : BitVec 48) (element : Nat) (s : State) : Host.Outcome State Fault Refusal := live s fun s =>
  let c := getTre s ch
  .next (
    match c.ring with
    | [] => s
    | (d, _) :: _ =>
      if c.state = 1 && c.running then
        match moveElems ch d (min element (dCount d - 1) - c.elemIdx) c.elemIdx s with
        | (false, s) => s
        | (true, s) => haltChannel ch (haltCode cause) address.toNat (min element (dCount d - 1)) (cause == .injected) s
      else if c.state = 0 && treRuns s ch && cause = .fetchUe then haltChannel ch 6 address.toNat 0 false s
      else s)
/-- TRE_PAUSE (R328). -/
def execTrePause (ch : Fin 64) (s : State) : Host.Outcome State Fault Refusal := live s fun s =>
  .next (modTre s ch fun c => if c.state = 1 || c.state = 3 then { c with pausing := true } else if c.state = 0 then { c with state := 2 } else c)
/-- TRE_RESUME (R328). -/
def execTreResume (ch : Fin 64) (s : State) : Host.Outcome State Fault Refusal := live s fun s =>
  .next (modTre s ch fun c => { c with pausing := false, state := if c.state = 2 then 0 else c.state })
/-- TRE_FLUSH (R328, R332). -/
def execTreFlush (ch : Fin 64) (s : State) : Host.Outcome State Fault Refusal := live s fun s =>
  .next (modTre s ch fun c => if c.state = 1 then { c with flushing := true } else
    { c with
      ring := [], running := false, elemIdx := 0, descIdx := (c.descIdx + c.ring.length) % 256, state := 0, pausing := false, flushing := false })
/-- The channel that a master ID names, other than channel 63, which runs no descriptor. -/
def requesterCh (m : BitVec 8) : Option Nat := if 0x10 ≤ m.toNat && m.toNat < 0x4F then some (m.toNat - 0x10) else none
/-- A channel whose access meets an uncorrectable error halts at its element, cause 7 in the descriptor's index table and 8 in its source (R306, R331);
its owner resumes it with RETRY once the content has been replaced (R332). -/
def haltRequester (m : BitVec 8) (addr : Nat) (s : State) : State :=
  match requesterCh m with
  | none => s
  | some ch =>
    let c := getTre s ch
    match c.ring with
    | (d, _) :: _ =>
      let at_ := addr / 4 - d.idxAddr.toNat
      if c.state = 1 && c.running then
        haltChannel ch (if decide (d.idxAddr.toNat ≤ addr / 4) && decide (at_ < tableLen s.img d) then 7 else 8) addr c.elemIdx false s
      else s
    | [] => s
/-- MILLPOND_UE (R287, R306): counted, event 0xA9, reported under the requester's master ID, the halt of a channel that met it, and the response. -/
def execMillpondUe (requester : BitVec 8) (c : UeContent) (s : State) : Host.Outcome State Fault Refusal := live s fun s =>
  let k := ueKind s c
  let at_ := ueSite s c
  let both := match c with | .bothCopies .. => true | _ => false
  .next (
    let s := post 0xA9 mMillpond [b1 k.1, b8 k.2] (ueCounted c s)
    let s := report { master := requester, addr := BitVec.ofNat 48 at_.1, cause := 2, mem := BitVec.ofNat 7 at_.2, event := 0xA9, hold := both } s
    ueResponse c (haltRequester requester at_.1 s))
/-- SKIP of a halted channel (R332). -/
def skipHalt (ch : Nat) (s : State) : State := dropDesc ch s
/-- TRE_CANCEL (R329). How many elements of a running descriptor have gone when it reaches the boundary is open (log entry 47); the one in flight goes
only when its source is wholly present. An element that halts the channel first leaves a halt, which resolves as SKIP. -/
def cancelCtx (ch : Nat) (ctx : BitVec 14) (sourcePresent : Bool) (s : State) : State :=
  let c := getTre s ch
  let mine (d : Descriptor) : Bool := d.ctxV && d.ctx = ctx
  let s := modTre s ch fun c => { c with ring := (c.ring.zipIdx).map fun x => (x.1.1, x.1.2 || (mine x.1.1 && !(x.2 = 0 && c.running))) }
  match c.ring with
  | [] => s
  | (d, _) :: _ =>
    if !(mine d && c.running) then s
    else if c.state = 3 then skipHalt ch s
    else if c.state = 1 then
      let left := dCount d - c.elemIdx
      let before := if left = 0 then 0 else (freeVal s).toNat % left
      match moveElems ch d (min left (if sourcePresent then before + 1 else before)) c.elemIdx (nextFree s) with
      | (false, s) => skipHalt ch s
      | (true, s) => dropDesc ch (pulseDone ch d (endPass d s))
    else s
def execTreCancel (ch : Fin 64) (ctx : BitVec 14) (sourcePresent : Bool) (s : State) : Host.Outcome State Fault Refusal := live s fun s =>
  .next (cancelCtx ch ctx sourcePresent s)
def haltedDesc (s : State) (ch : Nat) : Option Descriptor := if (getTre s ch).state = 3 then (getTre s ch).ring.head?.map (·.1) else none
/-- A halt that came before the descriptor's first element. -/
def earlyHalt (cause : Nat) : Bool := decide (cause ≤ 4) || cause = 6
/-- TRE_RETRY (R332): not accepted for an INTERLEAVE. -/
def execTreRetry (ch : Fin 64) (s : State) : Host.Outcome State Fault Refusal := live s fun s =>
  .next (
    match haltedDesc s ch with
    | some d =>
      if d.type = 5 || !treRuns s ch then s
      else if earlyHalt (getTre s ch).cause || ((getTre s ch).cause = 10 && (getTre s ch).elemIdx = 0) then startDesc ch s
      else modTre s ch fun c => { c with state := 1, running := true }
    | none => s)
/-- TRE_RESTART (R332). -/
def execTreRestart (ch : Fin 64) (s : State) : Host.Outcome State Fault Refusal := live s fun s =>
  .next (if (haltedDesc s ch).isSome && treRuns s ch then startDesc ch s else s)
/-- TRE_SKIP (R332). -/
def execTreSkip (ch : Fin 64) (s : State) : Host.Outcome State Fault Refusal := live s fun s =>
  .next (if (haltedDesc s ch).isSome then skipHalt ch s else s)
/-- A write of INJ_TRE_HALT (R656): a running channel halts at its element boundary, any other before its next descriptor. -/
def injectHalt (ch : Nat) (s : State) : State :=
  if s.diag.treHaltPending.contains ch || (getTre s ch).state = 3 then s
  else if (getTre s ch).state = 1 && (getTre s ch).running then haltChannel ch 10 0 (getTre s ch).elemIdx true s
  else { s with diag := { s.diag with treHaltPending := s.diag.treHaltPending ++ [ch] } }

end Sys2Proof.Machine
end

