-- ==== Sys2Proof/Machine/Admit.lean ====
section
/-! DEFINITION. Admitted commands (chapter 12): how the media commands, SPIN_CONTROL and ABORT begin (R373–R379, R382, R386, R387), the hold and its
limit (R395–R397), grants and their timeout (R374, R376). -/

namespace Sys2Proof.Machine

-- The media commands.

/-- READ takes its versions and its pins at its execution, in arrival order (R298, R373). -/
def beginRead (arr : Nat) (s : State) : State :=
  match cmdOf s arr with
  | none => s
  | some c =>
    let lbas := capLbas c
    let s := modCmd s arr fun c => { c with phase := .running, srcs := lbas.map fun _ => .medium }
    let s := each lbas.zipIdx (fun l s => takeBlock arr l.2 l.1 s) s
    match cmdOf s arr with
    | none => s
    | some c =>
      let want := (lbas.zipIdx.filter fun l => c.srcs[l.2]? = some .medium).map (·.1)
      pumpRead arr (each (byRow s.img want) (fun g s => fetchRow arr g.1 g.2 s) s)
/-- Blocks of the millpond that a VERIFY or FLUSH selects (R378, R379). -/
def selectWaits (s : State) (arr : Nat) (inRange : Nat → Bool) : List (Nat × Nat) :=
  let coming := (s.hop.cmds.filter fun c => c.cap.opcode = 0x02 && c.phase = .running).flatMap fun c =>
    (capLbas c).zipIdx.filterMap fun x => if c.frames.any fun e => e.1 = x.2 then none else some x.1
  let held := (s.mpd.ledger.filter fun fe => fe.2.valid).map fun fe => fe.2.lba.toNat
  (((held ++ coming).filter inRange).eraseDups).filterMap fun l => waitFor s l arr
def inCap (c : Cmd) (l : Nat) : Bool := decide (c.cap.lba.toNat ≤ l) && decide (l < c.cap.lba.toNat + c.cap.count.toNat)
/-- A VERIFY or FLUSH waits for the versions that it selects (R378, R379). -/
def beginWaits (arr : Nat) (all : Bool) (s : State) : State :=
  match cmdOf s arr with
  | none => s
  | some _ =>
    recheck (modCmd s arr fun c => { c with phase := .waiting, waits := selectWaits s arr fun l => all || inCap c l })
/-- Begin a media command (R383): in Ready, or on leaving the hold. -/
def beginMedia (arr : Nat) (s : State) : State :=
  match cmdOf s arr with
  | none => s
  | some c =>
    if c.cap.opcode = 0x01 then beginRead arr s
    else if c.cap.opcode = 0x02 then modCmd s arr fun c => { c with phase := .running }
    else if c.cap.opcode = 0x03 then beginWaits arr false s
    else beginWaits arr (c.cap.arg32.toNat % 2 = 1) s

-- SPIN_CONTROL (R382, Table 19.5).

/-- Begin a SPIN_CONTROL in a state that executes it. -/
def beginSpin (arr : Nat) (s : State) : State :=
  match cmdOf s arr with
  | none => s
  | some c =>
    let action := c.cap.arg32.toNat % 4
    let s := { s with hop := { s.hop with autoSpin := if action = 2 then false else bitOf 2 c.cap.arg32.toNat } }
    if action = 0 then trySpinUp (complete arr 0 0 s)
    else
      let s := modCmd s arr fun c => { c with phase := .running }
      if action = 1 then
        if s.dev = .ready && s.start.parkStep = 0 then complete arr 0 0 s
        else if s.dev = .parked || s.start.parkStep ≠ 0 then trySpinUp { s with hop := { s.hop with spinWait := true } }
        else s
      else
        let s := { s with hop := { s.hop with spinWait := false } }
        if s.dev = .parked then complete arr 0 0 s
        else if s.start.parkStep ≠ 0 then s
        else advancePark { s with start := { s.start with parkStep := 1 } }

-- The hold.

/-- Held commands leave the hold in arrival order when a state is entered that executes them (R395, R396). -/
def releaseHeld (s : State) : State :=
  each ((s.hop.cmds.filter fun c => c.phase = .held).map (·.arrival)) (fun arr s =>
    match cmdOf s arr with
    | none => s
    | some c =>
      if c.cap.opcode = 0x20 then (if s.dev = .ready || s.dev = .parked || s.dev = .spinningUp then beginSpin arr s else s)
      else if c.cap.opcode = 0x50 then s
      else if s.dev = .ready && s.start.parkStep = 0 && s.ptn.handStage = 0 then beginMedia arr s
      else s) s
/-- Entry to Ready, or return to it: ACTION 1 completes, held commands run, and READs that waited go on (R382, R396, R397). -/
def enterReady (s : State) : State :=
  let s := completeSpin 1 { s with dev := .ready, spn := { s.spn with curvePt := 0 } }
  let s := releaseHeld s
  recheck (each (s.hop.cmds.map (·.arrival)) pumpRead s)
/-- HOLD_LIMIT_EXPIRY (R396): event 0x0E at most once per second a port, with the instances since the last. -/
def execHoldLimitExpiry (p : Port) (tag : BitVec 16) (s : State) : Host.Outcome State Fault Refusal := live s fun s =>
  .next (
    match cmdOfTag s p.num tag with
    | none => s
    | some c =>
      if c.phase ≠ .held then s
      else
        let s := complete c.arrival 0x21 (devCode s.dev) s
        let s := modHopPort s p.num fun h => { h with holdLimit := satInc 16 h.holdLimit, holdSince := satInc 16 h.holdSince }
        let h := getHopPort s p.num
        if h.holdEventAt.all fun t => decide (oneSec ≤ since s t) then
          post 0x0E mHopper [b1 p.num, b8 h.holdSince] (modHopPort s p.num fun h => { h with holdEventAt := some (now s), holdSince := 0 })
        else s)

-- Grants.

/-- Commands that take WDATA. -/
def takesData (c : Cmd) : Bool := c.cap.opcode = 0x02 || c.cap.opcode = 0x40
/-- Blocks that may be granted to a command now, frames and the dirty limit left out (R374). -/
def grantRoom (s : State) (c : Cmd) : Nat := min (c.cap.count.toNat - c.granted) (grantMax s.img - (c.granted - c.landed.length))
/-- READs that wait for this WRITE's version of a block pin its frame (R298). -/
def claimFrame (w lba f : Nat) (s : State) : State :=
  each ((s.hop.cmds.filter fun c => (blockAt c lba).any fun i => c.srcs[i]? = some (.write w)).map (·.arrival)) (fun arr s =>
    let s := modCmd s arr fun c => { c with srcs := c.srcs.set (lba - c.cap.lba.toNat) (.frame f) }
    { s with mpd := { s.mpd with pins := s.mpd.pins ++ [(f, arr)] } }) s
/-- Grant block `i` of a WRITE a frame: its entry is LANDING (R293, R295, R374). -/
def grantBlock (arr i : Nat) (s : State) : State :=
  match cmdOf s arr with
  | none => s
  | some c =>
    match takeFrame s with
    | none => s
    | some (f, s) =>
      let s := setEntry s f {
        lba := c.cap.lba + BitVec.ofNat 48 i, htag := hostTag c.cap i, frame := BitVec.ofNat 20 f, vseq := BitVec.ofNat 40 arr, tag := c.cap.tag,
        portB := c.port == 1, state := 0, compat := compatCmd s c, valid := true }
      claimFrame arr (c.cap.lba.toNat + i) f (modCmd (setFrame s f 0) arr fun c => { c with granted := c.granted + 1, frames := c.frames ++ [(i, f)] })
/-- A command may be granted now (R289, R451): a WRITE while the dirty limit has room and no mirror record waits for the partner link. -/
def mayGrant (s : State) (c : Cmd) : Bool :=
  takesData c && c.phase = .running && decide (0 < grantRoom s c) &&
    (c.cap.opcode ≠ 0x02 || (decide (dirtyFrames s < 524288) && !(mirrorOn s && !(getLink s 2).txWait.isEmpty)))
/-- WRITE_GRANT (R289, R374, R451): the next range of the first command, in arrival order, that may be granted (log entry 49). -/
def execWriteGrant (s : State) : Host.Outcome State Fault Refusal := live s fun s =>
  .next (
    if s.dev = .faultHold then s
    else match s.hop.cmds.find? (mayGrant s) with
      | none => s
      | some c =>
        let room := if c.cap.opcode = 0x02 then min (grantRoom s c) (524288 - dirtyFrames s) else grantRoom s c
        let s := if c.cap.opcode = 0x02 then each (List.range room) (fun k s => grantBlock c.arrival (c.granted + k) s) s
          else modCmd s c.arrival fun c => { c with granted := c.granted + room }
        let n := ((cmdOf s c.arrival).map (·.granted)).getD c.granted - c.granted
        if n = 0 then s
        else
          let s := modCmd s c.arrival fun d => { d with grants := d.grants ++ [(c.granted, n, now s)] }
          modHopPort s c.port fun h => { h with cpls := h.cpls ++ [.inr (c.cap.tag, c.granted, n)] })

-- Abort.

/-- Descriptors of a cancelled command's context on the hopper's channels (R329, R387); contexts are numbered by arrival. Whether the source of an element in
flight is wholly present is open (log entry 47). -/
def cancelDescs (c : Cmd) (s : State) : State :=
  let ctx := BitVec.ofNat 14 c.arrival
  each ((List.range 32).filter fun ch => (getTre s ch).ring.any fun x => x.1.ctxV && x.1.ctx = ctx) (fun ch s =>
    cancelCtx ch ctx ((freeVal s).getLsbD 255) s) s
/-- End a command as an abort does: ABORTED with its INFO (R376, R387). -/
def abortCmd (c : Cmd) (info : Nat) (s : State) : State :=
  let s := if c.cap.opcode = 0x02 then withdrawLanding c s else s
  let s := complete c.arrival 0x30 info (cancelDescs c s)
  recheck (each (s.hop.cmds.map (·.arrival)) pumpRead s)
/-- WDATA_TIMEOUT (R376): a granted range has not wholly landed in time. -/
def execWdataTimeout (p : Port) (tag : BitVec 16) (s : State) : Host.Outcome State Fault Refusal := live s fun s =>
  .next (
    match cmdOfTag s p.num tag with
    | some c =>
      if c.cap.opcode = 0x02 && c.phase = .running && decide (c.landed.length < c.granted) then
        abortCmd c 1 (modHopPort s p.num fun h => { h with wdataTo := satInc 16 h.wdataTo })
      else s
    | none => s)
/-- Opcodes that an ABORT ends (R386). -/
def abortable (op : Nat) : Bool := (decide (1 ≤ op) && decide (op ≤ 4)) || op = 0x21 || op = 0x13
/-- An ABORT that has been admitted (R386). -/
def beginAbort (arr : Nat) (s : State) : State :=
  match cmdOf s arr with
  | none => s
  | some a =>
    let target := BitVec.ofNat 16 a.cap.arg32.toNat
    match s.hop.cmds.find? fun c => c.port = a.port && c.cap.tag = target && c.phase ≠ .issued with
    | none => complete arr 0x31 target.toNat s
    | some c =>
      if c.cap.opcode = 0x05 then complete arr 0x11 176 s
      else if abortable c.cap.opcode.toNat then complete arr 0 0 (abortCmd c 0 s)
      else modCmd s arr fun a => { a with phase := .waiting }

end Sys2Proof.Machine
end

