-- ==== Sys2Proof/Machine/Faults.lean ====
section
/-! DEFINITION. Faults (chapter 17): message queues (R537–R541), the tally's own steps (R531, R532, R535), reports and the first-error record
(R513–R517), Fault-hold's return (R519, R520), core traps (R527), and the patrol of the memories (R525, R530, R664, Table 17.4). -/

namespace Sys2Proof.Machine

-- Message queues.

/-- MQ_PACKET_WRITE (R538): a packet of more than 64 words is discarded whole and reported. -/
def execMqPacketWrite (q : Fin 32) (words : List Word) (s : State) : Host.Outcome State Fault Refusal := live s fun s =>
  .next (if 64 < words.length then report { master := mCollector, cause := 8, mem := 0x57 } s else mqSend q words s)
/-- Waiting packets enter in their order as far as there is room. -/
def mqServe (q : Nat) : List (List Word) → State → State
  | [], s => modMq s q fun m => { m with waiting := [] }
  | ws :: rest, s => if ws.length ≤ mqRoom s q then mqServe q rest (mqAppend q ws s) else modMq s q fun m => { m with waiting := ws :: rest }
/-- Producers go on once there is room (R539). -/
def mqAdvance (q : Nat) (s : State) : State := mqServe q (getMq s q).waiting s
/-- MQ_PRODUCER_TIMEOUT (R539): the oldest waiting packet is dropped. A read-after-write result so dropped is a void check. -/
def execMqProducerTimeout (q : Fin 32) (producer : BitVec 8) (s : State) : Host.Outcome State Fault Refusal := live s fun s =>
  .next (
    match (getMq s q).waiting with
    | [] => s
    | ws :: rest =>
      let s := mqAdvance q (modMq s q fun m => { m with waiting := rest, overflow := satInc 8 m.overflow })
      let s := post 0xA4 mCollector [b1 q.val, b1 producer.toNat] s
      let s := report { master := producer, cause := 5, mem := 0x57, event := 0xA4, hold := true } s
      match ws with
      | w :: _ =>
        if q.val < 8 then
          let i := getIsl s (bitsOf 63 57 w.toNat)
          each (underCheck s i.arm i.head (bitsOf 43 43 w.toNat) (bitsOf 56 44 w.toNat)) (fun x s => voidSector x.1.row x.2 s) s
        else s
      | [] => s)
/-- A queue's words without the packet of number k, through its end mark. -/
def withoutPacket : Nat → List (Word × Bool) → List (Word × Bool)
  | _, [] => []
  | 0, w :: ws => if w.2 then ws else withoutPacket 0 ws
  | k + 1, w :: ws => w :: withoutPacket (if w.2 then k else k + 1) ws
/-- Discard a packet; the front one is what a pop has left of it. -/
def dropPacket (q k : Nat) (s : State) : State := modMq s q fun m => { m with words := withoutPacket k m.words, packets := m.packets - 1 }
/-- MQ_POP (R541): `ue` is an uncorrectable error in the word. An empty queue stalls the pop until a word is present. -/
def execMqPop (q : Fin 32) (ue : Bool) (s : State) : Host.Outcome State Fault Refusal := live s fun s =>
  .next (
    match (getMq s q).words with
    | [] => modMq s q fun m => { m with stalled := true }
    | _ :: _ =>
      if ue then
        mqAdvance q (report { master := mCollector, cause := 2, mem := 0x57 } (dropPacket q 0 (send (.popped q 1 0) s)))
      else mqAdvance q (mqTake q s))
/-- MQ_POP_WATCHDOG (R541): the pop that stalls returns zero. -/
def execMqPopWatchdog (q : Fin 32) (s : State) : Host.Outcome State Fault Refusal := live s fun s =>
  .next (
    if (getMq s q).stalled then send (.popped q 2 0) (modMq s q fun m => { m with wdog := satInc 8 m.wdog, stalled := false }) else s)

-- The tally.

/-- TALLY_EVENT_POST (R531); an armed capture with SRC 2 is triggered by its code (Table 7.7). -/
def execTallyEventPost (code : BitVec 8) (injected : Bool) (source : BitVec 8) (payload : List Byte) (s : State) : Host.Outcome State Fault Refusal := live s fun s =>
  let bytes := payload.take 40
  let s := if s.gov.src = 2 && s.gov.trigEvent = code then traceFire s else s
  .next (takeEvent { plainRecord s code source [] with injected, payload := bytes ++ List.replicate (40 - bytes.length) 0 } s)
/-- TALLY_FLUSH_TIMER (R532). -/
def execTallyFlushTimer (s : State) : Host.Outcome State Fault Refusal := live s fun s =>
  .next (if s.evt.running && !s.evt.staging.isEmpty && !s.hold.flashStopped then programSector s else s)
/-- TALLY_BLOCK_ERASE (R535, R536): the oldest block, when every record of it has been released. Where the tally has stopped, the block is the only one, so
that exempt codes alone are written. -/
def execTallyBlockErase (s : State) : Host.Outcome State Fault Refusal := live s fun s =>
  let e := s.evt
  let old := e.written.take blockRecords
  .next (
    if e.running && decide (blockRecords + e.blockFill ≤ e.written.length) && !e.written.isEmpty && (old.all fun r => r.pad || decide (r.index < e.released)) &&
        !s.hold.flashStopped then
      let e := { e with written := e.written.drop blockRecords }
      { s with evt := if e.full = 2 then { e with full := 1 } else { e with freeBlocks := e.freeBlocks + 1, full := 0 } }
    else s)

-- Reports.

/-- FAULT_REPORT (R513–R516, R518): the reports of one cycle. -/
def execFaultReport (rs : List Report) (s : State) : Host.Outcome State Fault Refusal := live s fun s => .next (reportAll rs s)
/-- FIRST_ERROR_COPY (R517): event 0xA0 with the record's fields in the order of Table 17.3. -/
def execFirstErrorCopy (s : State) : Host.Outcome State Fault Refusal := live s fun s =>
  let f := s.flt.first
  .next (
    if f.valid && s.evt.running && s.evt.full ≠ 2 then
      postInj f.injected 0xA0 mCollector [
        b1 f.master.toNat, b8 f.addr.toNat, b1 1, b1 (b2n f.injected), b1 (b2n f.overwroteInj), b1 f.access.toNat, b1 f.cause.toNat, b1 f.mem.toNat,
        b1 f.event.toNat, b1 f.syndrome.toNat, b8 f.more, b8 f.time] { s with flt := { s.flt with first := {} } }
    else s)

-- Fault-hold.

/-- QUIET_TIMER_EXPIRY (R519, R234): loops that returned to their start laws are switched back. -/
def execQuietTimerExpiry (s : State) : Host.Outcome State Fault Refusal := live s fun s =>
  .next (
    if s.dev = .faultHold && s.flt.quietSince.isSome then
      let s := { s with flt := { s.flt with quietSince := none, awaiting := true } }
      each s.gov.ctxs (fun c s => if (getCtx s c.1).failed then requestSwitch c.1 s else s) s
    else s)
/-- Every enabled context with a service law runs in the service format (R234). -/
def loopsInService (s : State) : Bool := s.gov.ctxs.all fun c => !c.2.enable || !(hasService s c.1) || c.2.fmt
/-- Causes that Fault-hold waits for (R519): a loop's return to its start law meets its release condition under R234, which `loopsInService` tests. -/
def causesOpen (s : State) : Bool := s.flt.open_.any fun c => c.event ≠ 0x3F
/-- Returns of the last 24 h of device time (R520). -/
def dayReturns (s : State) : List Nat := s.aon.returns.filter fun t => decide (devTime s < t + 86400 * oneSec)
/-- RECOVERY_COUNT (R520): returns of the last 24 h. -/
def recoveryCount (s : State) : Nat := (dayReturns s).length
/-- The part goes on in the state that it came from (R519): operations that stopped part-way resume. -/
def resumeFrom (s : State) : State :=
  let s := post 0xA2 mCollector [b1 (recoveryCount s), b1 (devCode s.flt.from_)]
    { s with dev := s.flt.from_, flt := { s.flt with quietSince := none, awaiting := false, open_ := [], realSeen := false } }
  if s.dev = .ready then
    let s := enterReady s
    if s.start.parkStep = 5 && s.spn.mode = 0 then parkDone s else advancePark s
  else s
/-- FAULT_HOLD_RELEASE (R519, R520): the timer has expired and every open cause meets its release condition. -/
def execFaultHoldRelease (s : State) : Host.Outcome State Fault Refusal := live s fun s =>
  .next (
    if s.dev = .faultHold && s.flt.awaiting && !(causesOpen s) && loopsInService s then
      if !s.flt.realSeen then resumeFrom { s with flt := { s.flt with injRecov := satInc 8 s.flt.injRecov } }
      else if recoveryLimit s.img ≤ recoveryCount s then failStop 0xA3 (post 0xA3 mCollector [] s)
      else resumeFrom { s with aon := { s.aon with returns := dayReturns s ++ [devTime s] } }
    else s)
/-- FAIL_STOP (R522). -/
def execFailStop (cause : BitVec 8) (s : State) : Host.Outcome State Fault Refusal := live s fun s => .next (failStop cause s)
/-- A core traps (R527): a second trap within 1 s, or one in the handler, fails it. -/
def coreTrap (core : Nat) (mem : BitVec 7) (inHandler injected : Bool) (s : State) : State :=
  let again := s.flt.coreTraps.any fun t => t.1 = core && decide (now s < t.2 + oneSec)
  if s.flt.coreFailed.getLsbD core then s
  else
    let s := { s with flt := { s.flt with coreTraps := (core, now s) :: s.flt.coreTraps.filter fun t => decide (now s < t.2 + oneSec) } }
    let s := report { master := mCore, cause := 4, mem, event := 0xA5, hold := true, injected } (postInj injected 0xA5 mCore [b1 core, b1 mem.toNat] s)
    if again || inHandler then
      failStopInj injected 0xA6 (postInj injected 0xA6 mCore [] { s with flt := { s.flt with coreFailed := s.flt.coreFailed ||| BitVec.twoPow 4 core } })
    else s
/-- CORE_TRAP (R526, R527): `injected` where the word carries the syndrome of a test write (R530). -/
def execCoreTrap (core : Fin 4) (mem : BitVec 7) (inHandler injected : Bool) (s : State) : Host.Outcome State Fault Refusal := live s fun s =>
  .next (coreTrap core mem inHandler injected s)

-- The patrol.

/-- The tag of a test write on a word (R529). -/
def eccTag (s : State) (mem offset : Nat) : Option (BitVec 8) := (s.diag.eccTags.find? fun t => t.1 = mem && t.2.1 = offset).map (·.2.2)
def dropTag (mem offset : Nat) (s : State) : State :=
  { s with diag := { s.diag with eccTags := s.diag.eccTags.filter fun t => !(t.1 = mem && t.2.1 = offset) } }
/-- Corrected errors that a unit's own register counts; a millpond channel's count beyond CE_LIMIT migrates it (R287, R307). -/
def countCorrected (mem : Nat) (s : State) : State :=
  if mem ≤ 0x43 then modIsl s mem fun i => { i with eccCe := satInc 32 i.eccCe }
  else if mem = 0x48 then { s with mrc := { s.mrc with eccCe := satInc 16 s.mrc.eccCe } }
  else if mem = 0x52 || mem = 0x53 then { s with bol := { s.bol with eccCe := satInc 16 s.bol.eccCe } }
  else if mem = 0x54 then { s with gov := { s.gov with eccCe := satInc 16 s.gov.eccCe } }
  else if 0x49 ≤ mem && mem ≤ 0x51 then
    let p := mem - 0x49
    let s := modChan s p fun m => { m with ce := satInc 32 m.ce, ceTimes := recent s (86400 * oneSec) m.ceTimes ++ [now s] }
    if ceLimit s.img < (getChan s p).ceTimes.length && (s.mpd.state = 2 || s.mpd.state = 3) && ((getChan s p).role = 1 || (getChan s p).role = 3) then
      migrate (getChan s p).logical 1 s
    else s
  else s
/-- A fetch-cache entry with an uncorrectable error is invalid (R504): event 0x9C. -/
def loseLine (e : Nat) (s : State) : State := post 0x9C mFlash [] (modFce s e fun d => { d with valid := false })
/-- A held frame with an uncorrectable error is discarded as corrupt (R357, R447): the one that the word belongs to is a free value (log entry 34). -/
def loseHeldFrame (l v : Nat) (s : State) : State :=
  match (getLink s l).held[v % max 1 (getLink s l).held.length]? with
  | none => s
  | some h => modLink s l fun k => { k with
      held := k.held.erase h, used := tabMod 0 k.used (rxClass h.2) (· - 1), crcErr := satInc 16 k.crcErr, gapTimer := true }
/-- Queue that holds an offset of the queue SRAM, laid out by depth in the queues' order. -/
def queueAt (i : Image) (word : Nat) : Nat :=
  ((List.range 32).find? fun q => decide (word < ((List.range (q + 1)).map (mqDepth i)).sum)).getD 31
/-- The response of a memory's row of Table 17.4 to an uncorrectable word with live content (R664). Where the manual does not lay a memory
out, the unit that the word belongs to is a free value (log entry 34). -/
def patrolResponse (mem offset : Nat) (s : State) : State :=
  let v := (freeVal s).toNat
  if mem ≤ 0x43 then failIsland mem 0 false s
  else if mem = 0x48 then ueResponse (.slot (offset / 4096)) (post 0xA9 mMillpond [b1 0, b8 (offset / 4096 : Nat)] s)
  else if 0x49 ≤ mem && mem ≤ 0x51 then
    let c := UeContent.frame (offset / 4096 % 1048576) (Fin.ofNat 64 (offset / 64))
    let k := ueKind s c
    ueResponse c (post 0xA9 mMillpond [b1 k.1, b8 k.2] (noteUe (mem - 0x49) (frameBurst (offset / 4096 % 1048576) (offset / 64 % 64)) s))
  else if mem = 0x52 then
    match s.bol.queue[v % max 1 s.bol.queue.length]? with
    | some (k, c) => codewordFailed k c (nextFree s)
    | none => s
  else if mem = 0x53 then failEngine (v % 100) 2 false (nextFree s)
  else if mem = 0x54 then if (getCtx s (v % 160)).enable then governorFail (v % 160) 2 (nextFree s) else nextFree s
  else if mem = 0x55 then
    let ch := offset / 8192 % 64
    if (getTre s ch).ring.isEmpty || (getTre s ch).running then s else haltChannel ch 6 offset 0 false s
  else if mem = 0x56 then
    let ch := offset / 4096 % 64
    if (getTre s ch).running && (getTre s ch).state = 1 then haltChannel ch 8 offset (getTre s ch).elemIdx false s else s
  else if mem = 0x57 then (let q := queueAt s.img (offset / 8); if (getMq s q).packets = 0 then s else mqAdvance q (dropPacket q (v % (getMq s q).packets) (nextFree s)))
  else if mem = 0x58 then loseLine (offset / 256 % 48) s
  else if mem = 0x5A || mem = 0x5B || mem = 0x5C then loseHeldFrame (mem - 0x5A) v (nextFree s)
  else if 0x5D ≤ mem && mem ≤ 0x64 then voidArm cutFrame (mem - 0x5D) (List.range 8) (post 0x7A (mArm (mem - 0x5D)) [] s)
  else if mem = 0x65 then { s with evt := { s.evt with staging := s.evt.staging.mapIdx fun i r => if i = offset / 64 then padRecord else r } }
  else s
/-- Master ID of a patrol (R287, R525). -/
def patrolMaster (mem : Nat) : BitVec 8 := if 0x49 ≤ mem ∧ mem ≤ 0x51 then mMillpond else mPatrol
/-- Event of the condition as the unit's chapter names it; none is 0. -/
def patrolEvent (mem : Nat) : BitVec 8 :=
  if mem ≤ 0x43 then 0x46
  else if 0x48 ≤ mem ∧ mem ≤ 0x51 then 0xA9
  else if mem = 0x53 then 0x4F
  else if mem = 0x54 then 0x3F
  else if mem = 0x58 then 0x9C
  else if 0x5D ≤ mem ∧ mem ≤ 0x64 then 0x7A
  else 0
/-- HOLD that the response gives (R664); for a tightly coupled memory R527 gives it (log entry 34). -/
def patrolHold (s : State) (mem : Nat) : Bool :=
  if 0x44 ≤ mem && mem ≤ 0x47 then true
  else if mem ≤ 0x43 then (getIsl s mem).assigned && (freeSpare s).isNone else mem = 0x54 && (getCtx s ((freeVal s).toNat % 160)).fmt
/-- SRAM_PATROL (R525, R530, R664): `otherBad` is an uncorrectable error in the other copy of a hopper context, which is fail-stop (R522); else the
other copy is used and the bad one rewritten (Table 17.4). No event is named for that fail-stop: its cause is 0 (log entry 53). -/
def execSramPatrol (mem : BitVec 7) (offset : BitVec 48) (data : Word) (check : BitVec 8) (live_ : Bool) (otherBad : Bool) (s : State) : Host.Outcome State Fault Refusal := live s fun s =>
  let m := mem.toNat
  let o := offset.toNat
  let syn := syndromeOf data check
  let injected := eccTag s m o = some syn
  .next (
    match eccRead data check with
    | .clean => s
    | .fixed _ =>
      countCorrected m (report { master := patrolMaster m, addr := offset, cause := 1, mem, syndrome := syn, injected } (dropTag m o s))
    | .uncorrectable =>
      let s := if live_ then s else dropTag m o s
      let s := report {
        master := patrolMaster m, addr := offset, cause := 2, mem, syndrome := syn, event := if live_ then patrolEvent m else 0, injected, hold := live_ && patrolHold s m } s
      if !live_ then s
      else if m = 0x59 then (if otherBad then failStopInj injected 0 s else dropTag m o s)
      else patrolResponse m o s)

end Sys2Proof.Machine
end

