-- ==== Sys2Proof/Machine/Flash.lean ====
section
/-! DEFINITION. The in-package flash (chapter 16): regions and their blocks (R480–R483), reads with the retry ladder (R490, R492, R493), programs
and erases (R484–R488), refresh, wear and retirement (R494–R496). -/

namespace Sys2Proof.Machine

-- The pool (R494–R496).

/-- Free pool blocks of a bank. -/
def poolBlocks (s : State) (bank : Nat) : List Nat :=
  let used := (mappedBlocks s bank).map (·.2.2)
  (List.range 511).map (· + 1) |>.filter fun b => !used.contains b && !(getBlk s (512 * bank + b)).retired
def poolFree (s : State) : Nat := ((List.range 8).map fun b => (poolBlocks s b).length).sum
/-- The least-worn free pool block of a bank. -/
def leastWorn (s : State) (bank : Nat) : Option Nat :=
  (poolBlocks s bank).foldl (fun b k => match b with
    | none => some k
    | some j => if (getBlk s (512 * bank + k)).eraseCount < (getBlk s (512 * bank + j)).eraseCount then some k else some j) none
/-- Event 0x9A when the pool first holds fewer than 64 free blocks (R496). -/
def notePool (s : State) : State :=
  let low := decide (poolFree s < 64)
  if low && !s.fls.poolLow then post 0x9A mFlash [] { s with fls := { s.fls with poolLow := true } }
  else { s with fls := { s.fls with poolLow := low } }
/-- The pool has no block for a retirement or a swap (R496). -/
def poolEmpty (s : State) : State :=
  if s.fls.draining then s
  else advanceDrain { s with fls := { s.fls with draining := true }, hop := { s.hop with closed := true, stopCause := 0x9A } }
/-- Move a region block to a pool block of its bank (R494–R496). -/
def moveBlock (kind bank rblock : Nat) (s : State) : State :=
  match leastWorn s bank with
  | some b =>
    let old := getBlk s (512 * bank + physBlock s kind bank rblock)
    let s := modBlk s (512 * bank + b) fun d => { d with nextPage := old.nextPage, closed := old.closed, refreshDue := false, torn := old.torn }
    notePool { s with fls := { s.fls with map := tabSet 0 s.fls.map (mapKey kind bank rblock) b } }
  | none => poolEmpty s
/-- Retire the physical block of a region block (R495): event 0x95, and its content moves where it is still readable. -/
def retireBlock (kind bank rblock : Nat) (s : State) : State :=
  let b := 512 * bank + physBlock s kind bank rblock
  let s := modBlk s b fun d => { d with retired := true, flag := false }
  let s := moveBlock kind bank rblock { s with fls := { s.fls with retiredCnt := satInc 8 s.fls.retiredCnt } }
  notePool (post 0x95 mFlash [] s)

-- Requesters (R483).

def ownsRegion (who : FlashReq) (kind : Nat) : Bool :=
  match who with
  | .controller => true
  | .update => kind = 1 || kind = 2
  | .tre ch => (ch.val = 61 || ch.val = 62) && (kind = 3 || kind = 4)
  | .tally => kind = 5
  | .mc _ => kind = 6 || kind = 7 || kind = 8
  | .diag => false
def flashMaster : FlashReq → BitVec 8
  | .mc _ => mCore | .tre ch => mTre ch | .diag => mPort | .tally => mTally | .update => mFlash | .controller => mFlash
/-- Access type of a requester's read or write (Table 17.1). -/
def flashAccess (who : FlashReq) (write : Bool) : Nat := match who with | .tre _ => if write then 6 else 5 | _ => if write then 1 else 0
def isCore : FlashReq → Bool | .mc _ | .diag => true | _ => false
/-- Status to the requester (Table 16.5), and the controller's message (Table 17.9). -/
def flashAnswer (who : FlashReq) (status : Nat) (s : State) : State := mqNote 25 (send (.flashStatus who status) s)
/-- A bus fault: its event, and a report with the requester's master ID, its access type and the window address. -/
def busReport (master : BitVec 8) (access : Nat) (event : BitVec 8) (addr : Nat) (s : State) : State :=
  report { master, access := BitVec.ofNat 3 access, addr := BitVec.ofNat 48 addr, cause := 3, event } (post event mFlash [] s)
def flashFault (who : FlashReq) (write : Bool) (event : BitVec 8) (sector : Nat) (s : State) : State :=
  busReport (flashMaster who) (flashAccess who write) event (1024 * sector) s
/-- An access that R483 refuses: event 0xA7 (log entry 63). -/
def flashRefused (who : FlashReq) (write : Bool) (sector : Nat) (s : State) : State := flashAnswer who 5 (flashFault who write 0xA7 sector s)

-- The fetch cache's side of programs and erases.

/-- Invalidate the cached lines of a range (R505, R506): a lock keeps its entry reserved, an outstanding fill is not installed. -/
def invalidate (base lines : Nat) (s : State) : State :=
  let hit (l : Nat) : Bool := decide (base ≤ l) && decide (l < base + lines)
  let s := each (List.range 48) (fun e s =>
    let d := getFce s e
    if d.valid && hit d.line then
      let s := modFce s e fun d => { d with valid := false, prefetched := false }
      if d.locked then modFcq s d.owner fun q => { q with lockInval := satInc 8 q.lockInval } else s
    else s) s
  { s with fcc := { s.fcc with fill := s.fcc.fill.map fun f => if hit f.line then { f with killed := true } else f } }

-- Reads.

/-- Status and data to a requester of the fetch cache (Table 16.5). -/
def fetchAnswer (q status : Nat) (data : BitVec 2048) (s : State) : State := send (.fetched q status data) s
/-- The step at which the read ladder ends, with its corrected bits (R492): `steps` gives, from step 0 on, whether BCH and CRC pass and how many
bits BCH corrected. -/
def ladder (steps : List (Bool × Nat)) : Option (Nat × Nat) := ((steps.take 9).zipIdx.find? fun x => x.1.1).map fun x => (x.2, x.1.2)
/-- A read that succeeds at a retry step: counted, and a weak block falls due for refresh (R493, R494). -/
def readDone (b : Nat) (blk n bits : Nat) (s : State) : State :=
  let s := if n = 0 then s else { s with fls := { s.fls with retry := tabMod 0 s.fls.retry (n - 1) (satInc 8) } }
  let s := if bits = 0 then s else modBank s b fun k => { k with ceSect := satInc 16 k.ceSect }
  if 5 ≤ n || 48 < bits then modBlk s blk fun d => { d with refreshDue := true } else s
/-- A ladder that ends uncorrectable (R492): counted, event 0x94, and a report; the data read of a core or of the diagnostic port is a bus fault. -/
def readLost (b sec : Nat) (r : Report) (s : State) : State :=
  let s := modBank s b fun k => { k with ueSect := satInc 16 k.ueSect }
  report { r with addr := BitVec.ofNat 48 (1024 * sec), event := 0x94 } (post 0x94 mFlash [] s)
/-- A channel's read that is uncorrectable halts it with cause 8 (R492). -/
def haltReader (ch sec : Nat) (s : State) : State :=
  if (getTre s ch).state = 1 && (getTre s ch).running then haltChannel ch 8 (1024 * sec) (getTre s ch).elemIdx false s else s
/-- A sector read from a bank that is free (R492): the page stays in the bank's register (R479). -/
def readSector (who : FlashReq) (sec : Nat) (steps : List (Bool × Nat)) (s : State) : State :=
  match pageAt s (sec / 16) with
  | none => s
  | some (r, page) =>
    let (b, rb, pg) := pagePlace r page
    let phys := physBlock s r.kind b rb
    let s := modBank s b fun k => { k with register := some (sec / 16), block := phys, page := pg }
    match ladder steps with
    | some (n, bits) => flashAnswer who (if flashErased s sec then 1 else 0) (send (.flashData who (flashData s sec)) (readDone b (512 * b + phys) n bits s))
    | none =>
      if steps.length < 9 then s
      else
        let s := flashAnswer who 6 (readLost b sec { master := flashMaster who, access := BitVec.ofNat 3 (flashAccess who false), cause := if isCore who then 3 else 2 } s)
        match who with
        | .tre ch => haltReader ch sec s
        | _ => s
/-- A line read for a channel with no entries in the fetch cache (R502). -/
def readLineDirect (line : Nat) (steps : List (Bool × Nat)) (s : State) : State :=
  match pageAt s (line / 64) with
  | none => s
  | some (r, page) =>
    let (b, rb, pg) := pagePlace r page
    let phys := physBlock s r.kind b rb
    let s := modBank s b fun k => { k with register := some (line / 64), block := phys, page := pg }
    match ladder steps with
    | some (n, bits) => fetchAnswer 4 0 (lineData s line) (readDone b (512 * b + phys) n bits s)
    | none =>
      if steps.length < 9 then s
      else each [61, 62] (fun ch s => haltReader ch (line / 4) s) (fetchAnswer 4 6 0 (readLost b (line / 4) { master := mTre 61, access := 5, cause := 2 } s))
/-- The bank of a window page programs or erases. -/
def pageBusy (s : State) (page : Nat) : Bool := match pageAt s page with | some (_, p) => decide (2 ≤ (getBank s (p % 8)).op) | none => false
/-- The transfer engine's reads whose bank has come free are served, oldest first (R490). -/
def serveWaits (s : State) : State :=
  let ready := s.fls.waits.filter fun w => !(pageBusy s (w.sec / 16))
  each ready (fun w s => match w.line with
    | some l => readLineDirect l w.steps s
    | none => match w.who with | some who => readSector who w.sec w.steps s | none => s)
    { s with fls := { s.fls with waits := s.fls.waits.filter fun w => pageBusy s (w.sec / 16) } }
/-- FLASH_PAGE_READ (R483, R490, R492): a busy bank is a bus fault to a core or the diagnostic port, and the transfer engine waits for it. -/
def execFlashPageRead (who : FlashReq) (p : PageRef) (sector : Fin 16) (steps : List (Bool × Nat)) (s : State) : Host.Outcome State Fault Refusal := live s fun s =>
  .next (
    let sec := 16 * windowPage s p + sector
    match pageOk s p with
    | none => flashRefused who false sec s
    | some r =>
      if r.access = 0 && who ≠ .update && who ≠ .controller then flashRefused who false sec s
      else if pageBusy s (windowPage s p) then
        if isCore who then
          flashAnswer who 4 (flashFault who false 0x97 sec ({ s with fls := { s.fls with busyFault := satInc 16 s.fls.busyFault } }))
        else { s with fls := { s.fls with waits := s.fls.waits ++ [{ who := some who, sec, steps }] } }
      else readSector who sec steps s)

-- Programs.

/-- In Hold-up only the dump and the tally program (R491); an early power failure stops every start (R463). -/
def mayProgram (s : State) (who : FlashReq) : Bool := !s.hold.flashStopped || (s.dev = .holdUp && (who = .tre 62 || who = .tally))
/-- Page order of a dense block (R484). -/
def inOrder (s : State) (r : Region) (blk pg : Nat) (whole : Bool) : Bool := !r.dense || (whole && (getBlk s blk).nextPage = pg)
/-- FLASH_PROGRAM (R483, R484, R486, R487). -/
def execFlashProgram (who : FlashReq) (p : PageRef) (first : Fin 16) (sectors : List (BitVec 8192)) (s : State) : Host.Outcome State Fault Refusal := live s fun s =>
  .next (
    match pageOk s p with
    | none => flashRefused who true (16 * windowPage s p + first) s
    | some r =>
      let (b, rb, pg) := pagePlace r p.page
      let sec := 16 * windowPage s p + first
      let blk := 512 * b + physBlock s p.kind b rb
      let secs := (sectors.take (16 - first.val)).zipIdx.map fun x => (sec + x.2, x.1)
      if !ownsRegion who p.kind then flashRefused who true sec s
      else if !mayProgram s who || (getBank s b).op ≠ 0 || secs.isEmpty then s
      else if !(inOrder s r blk pg (first.val = 0 && sectors.length = 16)) then
        flashAnswer who 3 (post 0x92 mFlash [] { s with fls := { s.fls with outOfOrder := satInc 16 s.fls.outOfOrder } })
      else match secs.find? fun x => !(flashErased s x.1) with
        | some x =>
          flashAnswer who 2 (flashFault who true 0x91 x.1 ({ s with fls := { s.fls with notErased := satInc 16 s.fls.notErased } }))
        | none => modBank s b fun k => { k with
            op := 2, suspended := false, block := physBlock s p.kind b rb, page := pg, kind := p.kind, rblock := rb, register := none, pending := secs, who := some who })
/-- FLASH_PROGRAM_DONE (R494, R495, R505). -/
def execFlashProgramDone (bank : Fin 8) (ok : Bool) (s : State) : Host.Outcome State Fault Refusal := live s fun s =>
  let k := getBank s bank
  let blk := 512 * bank.val + k.block
  .next (
    if k.op ≠ 2 then s
    else
      let s := modBank s bank fun k => { k with op := 0, pending := [], who := none }
      let answer (st : Nat) (s : State) : State := match k.who with | some w => flashAnswer w st s | none => s
      if ok then
        let s := each k.pending (fun x s => putFlash x.1 x.2 s) s
        let full := k.page + 1 = ((regionOf s k.kind).map pagesPer).getD 512 && k.pending.any fun x => x.1 % 16 = 15
        let s := modBlk s blk fun d => { d with nextPage := max d.nextPage (k.page + 1), closed := d.closed || full }
        let line := (((k.pending.head?).map (·.1)).getD 0) / 16 * 64
        serveWaits (answer 0 (invalidate line 64 s))
      else serveWaits (answer 7 (retireBlock k.kind bank k.rblock s)))

-- Erases.

def ratedErases (r : Region) : Nat := if r.dense then 3000 else 50000
/-- Window sectors of a region block. -/
def blockSectors (s : State) (r : Region) (bank rblock : Nat) (sec : Nat) : Bool :=
  match pageAt s (sec / 16) with
  | some (q, page) => q.kind = r.kind && (pagePlace r page).1 = bank && (pagePlace r page).2.1 = rblock
  | none => false
/-- Every block of a region is erased at once (R465, R498): a worn one is swapped first (R496), and the range leaves the cache (R505). -/
def eraseRegion (kind : Nat) (s : State) : State :=
  let r := (regionOf s kind).getD {}
  let s := each (List.range 8) (fun bank s => each (List.range (r.blocks / 8)) (fun rb s =>
    let worn := decide (ratedErases r ≤ (getBlk s (512 * bank + physBlock s kind bank rb)).eraseCount)
    let s := if worn then (if (leastWorn s bank).isSome then post 0x96 mFlash [] (moveBlock kind bank rb s) else poolEmpty s) else s
    modBlk s (512 * bank + physBlock s kind bank rb) fun d => { d with
      eraseCount := d.eraseCount + 1, flag := false, nextPage := 0, closed := false, refreshDue := false, torn := 0 }) s) s
  let base := regionBase s kind
  let pages := r.blocks * pagesPer r
  let s := { s with fls := { s.fls with sectors := s.fls.sectors.filter fun x => !(decide (16 * base ≤ x.1) && decide (x.1 < 16 * (base + pages))) } }
  invalidate (64 * base) (64 * pages) s
/-- FLASH_ERASE (R483, R488, R496, R505): a worn block is swapped first; the flag cell is set, and the block's range leaves the cache. -/
def execFlashErase (who : FlashReq) (kind : Fin 16) (bank : Fin 8) (block : Nat) (s : State) : Host.Outcome State Fault Refusal := live s fun s =>
  .next (
    match (regionOf s kind).filter fun r => decide (block < r.blocks / 8) with
    | none => flashRefused who true 0 s
    | some r =>
      if !ownsRegion who kind then flashRefused who true (16 * (regionBase s kind + 8 * block * pagesPer r + bank)) s
      else if s.hold.flashStopped || (getBank s bank).op ≠ 0 then s
      else
        let worn := decide (ratedErases r ≤ (getBlk s (512 * bank.val + physBlock s kind bank block)).eraseCount)
        let s := if worn then
            (if (leastWorn s bank).isSome then post 0x96 mFlash [] (moveBlock kind bank block s) else poolEmpty s)
          else s
        if s.fls.draining && worn then s
        else
          let phys := physBlock s kind bank block
          let s := if r.eflag then modBlk s (512 * bank.val + phys) fun d => { d with flag := true } else s
          let s := modBank s bank fun k => { k with
            op := 3, suspended := false, block := phys, page := 0, kind := kind, rblock := block, register := none, who := some who }
          each (List.range (pagesPer r)) (fun j s => invalidate (64 * (regionBase s kind + 8 * (block * pagesPer r + j) + bank)) 64 s) s)
/-- FLASH_ERASE_DONE (R488, R495): `ok` is the erase and its confirming blank check. -/
def execFlashEraseDone (bank : Fin 8) (ok : Bool) (s : State) : Host.Outcome State Fault Refusal := live s fun s =>
  let k := getBank s bank
  let blk := 512 * bank.val + k.block
  .next (
    if k.op ≠ 3 then s
    else
      let s := modBank s bank fun k => { k with op := 0, who := none }
      let answer (st : Nat) (s : State) : State := match k.who with | some w => flashAnswer w st s | none => s
      if ok then
        let r := (regionOf s k.kind).getD {}
        let s := { s with fls := { s.fls with sectors := s.fls.sectors.filter fun x => !(blockSectors s r bank k.rblock x.1) } }
        serveWaits (answer 0 (modBlk s blk fun d => { d with
          eraseCount := d.eraseCount + 1, flag := false, nextPage := 0, closed := false, refreshDue := false, torn := 0 }))
      else serveWaits (answer 7 (retireBlock k.kind bank k.rblock s)))
/-- BLOCK_REFRESH (R494, R495): the physical block of a bank; a second refresh within 100 erase cycles retires it. -/
def execBlockRefresh (bank : Fin 8) (block : Nat) (s : State) : Host.Outcome State Fault Refusal := live s fun s =>
  let d := getBlk s (512 * bank.val + block)
  .next (
    match (mappedBlocks s bank).find? fun m => m.2.2 = block with
    | none => s
    | some (kind, rb, _) =>
      if !(d.closed && d.refreshDue) || s.hold.flashStopped || (getBank s bank).op ≠ 0 then s
      else if d.refreshedAt.any fun e => decide (d.eraseCount < e + 100) then retireBlock kind bank rb s
      else if (leastWorn s bank).isNone then s
      else
        let s := moveBlock kind bank rb s
        post 0x93 mFlash [] (modBlk s (512 * bank.val + block) fun d => { d with
          eraseCount := d.eraseCount + 1, nextPage := 0, closed := false, refreshDue := false, torn := 0, refreshedAt := some d.eraseCount }))

/-- Highest erase count over the blocks of a mode in use. -/
def wearOf (s : State) (dense : Bool) : Nat :=
  ((List.range 8).flatMap fun b => (mappedBlocks s b).filterMap fun m =>
    if ((regionOf s m.1).any fun r => r.dense == dense) then some (getBlk s (512 * b + m.2.2)).eraseCount else none).foldl max 0

end Sys2Proof.Machine
end

