-- ==== Sys2Proof/Machine/ImageCheck.lean ====
section
/-! DEFINITION. The configuration image byte for byte (chapter 18): framing (R552–R554), field lists (R555–R558), the ranges of the fixed
layouts, the cross-record rules of Table 18.9, and the seven steps of Table 18.8. -/

namespace Sys2Proof.Machine

/-- One record, with the byte offset of its header in the image. -/
structure ImgRec where
  type : Nat := 0
  inst : Nat := 0
  off : Nat := 0
  value : List Byte := []
deriving DecidableEq, Repr

/-- One check: a failing one names the byte offset of what is at fault, none where the manual names no place (a missing record). -/
abbrev Check := Option Nat × Bool
def firstFault (cs : List Check) : Option (Option Nat) := (cs.find? fun c => !c.2).map (·.1)

def recAt (r : ImgRec) (off len : Nat) : Nat := leNat ((r.value.drop off).take len)
def fld (hi lo n : Nat) : Nat := bitsOf hi lo n
def within (lo hi n : Nat) : Bool := decide (lo ≤ n) && decide (n ≤ hi)
/-- A check at byte `o` of a record's value. -/
def chk (r : ImgRec) (o : Nat) (b : Bool) : Check := (some (r.off + 8 + o), b)

-- Framing (R552, R553).

def knownTypes : List Nat :=
  [0x01, 0x02, 0x03, 0x10, 0x11, 0x20, 0x21, 0x22, 0x23, 0x24, 0x30, 0x31, 0x40, 0x41, 0x50, 0x51, 0x52, 0x60, 0x61, 0x70, 0x71, 0x72, 0x80, 0x81, 0x82, 0x90, 0x91, 0x92]
def parseRecs : Nat → Nat → Option Nat → List Byte → List ImgRec → List ImgRec × Option Nat
  | 0, off, _, bs, acc => (acc.reverse, if bs.isEmpty then none else some off)
  | n + 1, off, prev, bs, acc =>
    if bs.isEmpty then (acc.reverse, none)
    else
      let w := leNat (bs.take 8)
      let vlen := w / 2 ^ 32
      let size := 8 + 8 * ceilDiv vlen 8
      let key := w % 65536 * 65536 + w / 65536 % 65536
      let ok := decide (size ≤ bs.length) && prev.all (fun p => decide (p < key)) &&
        (decide (0x8000 ≤ w % 65536) || knownTypes.contains (w % 65536)) && ((bs.take size).drop (8 + vlen)).all (· == 0)
      if ok then
        parseRecs n (off + size) (some key) (bs.drop size) ({ type := w % 65536, inst := w / 65536 % 65536, off, value := (bs.drop 8).take vlen } :: acc)
      else (acc.reverse, some off)

-- Field lists (R555–R558).

/-- One field: FID, required, signed, least and greatest value as encoded (R557). -/
abbrev FieldRule := Nat × Bool × Bool × Int × Int
def opt (fid : Nat) (lo hi : Int) : FieldRule := (fid, false, false, lo, hi)
def req (fid : Nat) (lo hi : Int) : FieldRule := (fid, true, false, lo, hi)
/-- The fields of each list (Tables 8.1, 9.3, 11.6, 12.11, 13.2, 13.3, 14.6, 15.10, 17.10, 18.6, 18.7, R572). -/
def listRules : Nat → List FieldRule
  | 0x20 => [opt 1 12 16, opt 2 1000 5000, opt 3 1 8, opt 4 4 20, opt 5 1 16, opt 6 10 30, opt 7 2 10, opt 8 2 32, opt 9 8 64, opt 10 20 200,
      req 11 1 65535, req 12 50 2000, req 13 50 2000, opt 14 0 262139]
  | 0x30 => [req 1 4200 7200, req 2 2 16, req 3 200 5000, (4, false, true, -2000, 0), req 5 20 400, req 6 10 200, req 7 2000 8000,
      opt 8 1000 5000, opt 9 800 1000, opt 10 50 1000, opt 11 2 40, opt 12 100 2000, opt 13 2 40, opt 14 10 500, opt 15 301 1000] ++
    [opt 16 5 40, opt 17 30 600, opt 18 0 2, opt 19 2 40, opt 20 2 40, opt 21 0 1, opt 22 12400 14000, opt 23 12400 14000, opt 24 10900 12000,
      opt 25 10900 12000, opt 26 100 10000, opt 27 5 40, opt 28 600 3000, opt 29 10 60, opt 31 1 50] ++
    [req 101 100 100000, req 102 100 100000, req 103 100 100000, req 104 100 100000, req 105 1000 500000]
  | 0x40 => [opt 1 0 1, req 2 0 65534, req 3 0 65534, opt 4 0 60000, opt 5 0 0xFFFF, req 6 1000 200000, req 7 0 20000, req 8 0 10000,
      req 9 0 2000, req 10 0 5000, req 11 0 5000, req 12 0 500, req 13 0 500, req 14 500 5000, req 15 1 10000, req 16 1 100000] ++
    [req 17 1 100000, opt 19 0 50000, opt 20 256 2047, opt 21 0 50, opt 22 0 50, opt 23 50 2000, req 24 0 200, opt 101 80 100, opt 102 85 104,
      opt 103 90 105, opt 104 70 120, opt 105 75 125, opt 106 80 130, opt 107 40 75, opt 108 45 80, opt 109 50 85]
  | 0x50 => [opt 1 224 20480, opt 2 0 2048, opt 3 1 600, opt 4 1 1000, opt 5 0 2, opt 6 1 168, opt 7 16 65535, opt 8 0 8, req 9 8 16, req 10 4 10]
  | 0x51 => [opt 1 1 15, opt 2 1 600, opt 3 1 60, opt 4 8 65536, opt 5 0 1, opt 6 60 86400, opt 7 1 0xFFFFFFFF]
  | 0x52 => [req 1 0 1, opt 2 0 1, opt 3 1 600, opt 4 10600 11600, opt 5 7000 10500]
  | 0x60 => [opt 2 1 65535, opt 3 100 5000, opt 4 5 200, opt 5 100 10000, opt 6 1 3, opt 101 1 65535]
  | 0x80 => [opt 1 10 10000, opt 2 1 255, opt 3 10 1000]
  | 0x90 => [opt 1 0 10, opt 3 10 300, opt 4 1 16, opt 5 100 150, opt 7 20 45, opt 8 5 100, opt 9 16 128, opt 10 16 128, opt 11 30 3650]
  | _ => []
def isList (type : Nat) : Bool := !(listRules type).isEmpty
/-- (FID, VALUE) pairs of a list record. -/
def listOf (r : ImgRec) : List (Nat × Nat) :=
  (List.range (r.value.length / 8)).map fun k => (recAt r (8 * k) 2, recAt r (8 * k + 4) 4)
def checkList (r : ImgRec) : List Check :=
  let es := listOf r
  let ru := listRules r.type
  (es.zipIdx.map fun ek =>
    let e := ek.1
    let ok := match ru.find? (fun q => q.1 = e.1) with
      | some q =>
        let v : Int := if q.2.2.1 then signedOf 32 e.2 else e.2
        decide (q.2.2.2.1 ≤ v) && decide (v ≤ q.2.2.2.2)
      | none => false
    chk r (8 * ek.2) (ok && recAt r (8 * ek.2 + 2) 2 = 0 && (ek.2 = 0 || decide ((es.getD (ek.2 - 1) (0, 0)).1 < e.1)))) ++
  (ru.filter (·.2.1)).map fun q => (none, es.any fun e => e.1 = q.1)

-- The decoded image.

def recOf (rs : List ImgRec) (type inst : Nat) : Option ImgRec := rs.find? fun r => r.type = type && r.inst = inst
def geoWord (rs : List ImgRec) : Nat := ((recOf rs 1 0).map fun r => recAt r 0 8).getD 0
def decodeZone (r : ImgRec) (z : Nat) : ZoneFmt :=
  let w := recAt r (24 * z) 16
  { sz := fld 127 114 w, cpw := fld 113 94 w, wg := fld 93 78 w, sg := fld 77 68 w, samplePeriod := fld 67 32 w, cz := recAt r (24 * z + 16) 4 }
/-- The records as the rest of the model reads them. -/
def buildImage (rs : List ImgRec) : Image :=
  let g := geoWord rs
  let lay := ((recOf rs 3 0).map fun r => recAt r 0 16).getD 0
  { arms := fld 63 56 g, heads := fld 55 48 g, wedges := fld 47 32 g, trackPitch := fld 31 0 g,
    surf := ((recOf rs 1 0).map fun r => (List.range 64).map fun n => (n, fld 5 0 (recAt r (8 + n) 1))).getD [] |>.filter fun e => e.2 ≠ 0,
    zones := (rs.filter fun r => r.type = 2).map fun r => (r.inst, (List.range (r.value.length / 24)).map (decodeZone r)),
    capacity := fld 127 80 lay, q := fld 79 40 lay, repairShare := fld 39 32 lay, resDiv := fld 31 24 lay, headFailMax := fld 23 22 lay,
    lists := (rs.filter fun r => isList r.type).map fun r => (r.type, listOf r),
    bins := (rs.filter fun r => !isList r.type && decide (r.type < 0x8000)).map fun r => (r.type * 65536 + r.inst, r.value) }

-- Presence, instances and lengths (step 5).

/-- Instances that a record type may have: 0 one, 1 an arm's, 2 a head's. -/
def instKind (type : Nat) : Nat := if type = 0x02 || type = 0x21 || type = 0x91 then 1 else if type = 0x10 || type = 0x22 then 2 else 0
def optionalType (type : Nat) : Bool := [0x51, 0x60, 0x70, 0x71, 0x80, 0x81, 0x82, 0x90].contains type
def nzOf (i : Image) (a : Nat) : Nat := (zoneList i a).length
def vlenOk (i : Image) (r : ImgRec) : Bool :=
  let n := r.value.length
  let nz := nzOf i (if instKind r.type = 2 then r.inst / 8 else r.inst)
  match r.type with
  | 0x01 => n = 72
  | 0x02 => n % 24 = 0 && within 1 64 (n / 24)
  | 0x03 => n = 16
  | 0x10 => n = 512 * nz
  | 0x11 => n = 4104
  | 0x21 => n = 528
  | 0x22 => n = 32 * nz
  | 0x23 => n % 32 = 0 && within 1 2048 (n / 32)
  | 0x24 => n = 4448
  | 0x31 => n % 16 = 0 && within 1 8 (n / 16)
  | 0x41 => n = 128
  | 0x61 => n = 67
  | 0x70 => n % 16 = 0 && within 1 16 (n / 16)
  | 0x71 => n = 48
  | 0x72 => n = 64
  | 0x81 => n = 1024
  | 0x82 => n = 128
  | 0x91 => n = 4 * nz
  | 0x92 => n = 256
  | _ => n % 8 = 0
def fittedInst (i : Image) (r : ImgRec) : Bool :=
  match instKind r.type with
  | 0 => r.inst = 0
  | 1 => decide (r.inst < i.arms)
  | _ => decide (r.inst < 64) && headFitted i r.inst
def checkPresence (i : Image) (rs : List ImgRec) : List Check :=
  (rs.filter fun r => r.type < 0x8000).map (fun r => (some r.off, fittedInst i r && vlenOk i r)) ++
  (knownTypes.filter fun t => !optionalType t).flatMap fun t =>
    (match instKind t with
      | 0 => [0]
      | 1 => List.range i.arms
      | _ => (List.range 64).filter (headFitted i)).map fun k => (none, (recOf rs t k).isSome)

-- Values of the fixed layouts (step 6).

def checkChannelSet (r : ImgRec) (k : Nat) : Check :=
  let w := recAt r (128 * k) 128
  let g (hi lo : Nat) : Nat := fld hi lo w
  chk r (128 * k) (within 1 4095 (g 195 184) && within 1 4095 (g 183 172) && within 1 4095 (g 139 128) && within 1 255 (g 127 120) &&
    within 64 448 (g 111 103) && within 32 (g 111 103) (g 102 94) && within 2 12 (g 93 90) && within 4 15 (g 89 86) && within 2 12 (g 85 82) &&
    within 4 15 (g 81 78) && decide (g 77 66 ≤ g 65 54) && decide (g 53 42 ≤ g 41 30) && decide (g 41 30 ≤ 3712) && within 8 255 (g 27 20) && g 3 0 = 0)
def checkSection (r : ImgRec) (k : Nat) : Check :=
  let e : BitVec 256 := BitVec.ofNat 256 (recAt r (32 * k) 32)
  let shifts := [entNat e 95 90, entNat e 89 84, entNat e 83 78, entNat e 77 72, entNat e 71 66]
  chk r (32 * k) (shifts.all (within 16 48) && entNat e 64 0 = 0 &&
    (!e.getLsbD 65 || (entInt e 159 128 = -(2 ^ entNat e 77 72) && entInt e 127 96 = 0 && entInt e 191 160 = 0)))
/-- Context n is fitted (R211). -/
def ctxFitted (i : Image) (n : Nat) : Bool :=
  if n < 8 then decide (n < i.arms) else if n < 72 then headFitted i (n - 8) else if n < 136 then headFitted i (n - 72) else true
def checkContext (i : Image) (r : ImgRec) (n : Nat) : Check :=
  let w := recAt r (32 * n) 32
  let g (hi lo : Nat) : Nat := fld hi lo w
  chk r (32 * n) (if ctxFitted i n then
      within 1 16 (g 253 249) && within 100 65535 (g 225 210) && decide (signedOf 32 (g 159 128) < signedOf 32 (g 191 160)) && decide (1 ≤ g 79 64) &&
        g 255 254 = 0 && g 237 226 = 0 && g 209 209 = 0 && g 207 192 = 0 && g 31 0 = 0
    else w = 0)
def nats (n : Nat) (f : Nat → Check) : List Check := (List.range n).map f
def checkFixed (i : Image) (r : ImgRec) : List Check :=
  let n := r.value.length
  match r.type with
  | 0x01 =>
    let fit := (List.range 64).filter (headFitted i)
    [chk r 0 (within 1 8 i.arms && [2, 4, 6, 8].contains i.heads && i.wedges = 960 && within 5000 50000 i.trackPitch)] ++
    nats 64 (fun k => chk r (8 + k) (if headFitted i k then
      decide (recAt r (8 + k) 1 < 64) && fit.all (fun m => m = k || recAt r (8 + m) 1 ≠ recAt r (8 + k) 1) else recAt r (8 + k) 1 = 0))
  | 0x02 => nats (n / 24) fun z =>
    let f := decodeZone r z
    chk r (24 * z) (within 512 8192 f.sz && f.sz % 16 = 0 && within 64 1023 f.sg && recAt r (24 * z) 4 = 0 && recAt r (24 * z + 20) 4 = 0)
  | 0x03 => [chk r 0 (decide (1 ≤ i.capacity) && decide (1 ≤ i.q) && within 1 3 i.repairShare && within 2 30 i.resDiv &&
      decide (i.headFailMax ≤ 2) && fld 21 0 (recAt r 0 16) = 0)]
  | 0x10 => nats (n / 128) (checkChannelSet r)
  | 0x11 => [chk r 0 (recAt r 0 4 = 0 && (recAt r 6 2 = 0 || within 512 960 (recAt r 6 2)) && (recAt r 4 2 = 0 || within 64 832 (recAt r 4 2)))] ++ nats 4096 fun k =>
      chk r (8 + k) (if headFitted i (k / 64) && decide (k % 64 < nzOf i (k / 512)) then within 4 20 (recAt r (8 + k) 1) else recAt r (8 + k) 1 = 0)
  | 0x21 =>
    let sk := (List.range 256).map fun k => signedOf 16 (recAt r (16 + 2 * k) 2)
    [chk r 0 (within 8 64 (recAt r 0 4)), chk r 4 (within 16 1024 (recAt r 4 4)), chk r 8 (within 1 65535 (recAt r 8 4)), chk r 12 (within 100 4000 (recAt r 12 4)),
      chk r 16 (decide (sk.sum = 0) && decide (0 < shapeTotal sk))]
  | 0x22 => nats (n / 32) fun z => chk r (32 * z) (within 8192 32768 (fld 183 168 (recAt r (32 * z) 32)))
  | 0x23 => nats (n / 32) (checkSection r)
  | 0x24 => nats 139 (checkContext i r)
  | 0x31 => nats (n / 16) fun k => chk r (16 * k) (within 1 500 (recAt r (16 * k + 8) 4) && recAt r (16 * k + 12) 4 = 0)
  | 0x41 => nats 16 fun k => chk r (8 * k) (decide (recAt r (8 * k + 4) 4 ≤ 10000))
  | 0x61 => nats 67 fun k => chk r k (decide (recAt r k 1 < 16) && (decide (24 ≤ k) || decide (k / 3 < i.arms) || recAt r k 1 = 0))
  | 0x70 => nats (n / 16) fun k =>
    let w := recAt r (16 * k) 16
    chk r (16 * k) (fld 127 124 w = 0 || (decide (fld 127 124 w ≤ 8) && decide (fld 121 120 w ≤ 1) && within 8 4024 (fld 119 108 w) &&
      fld 119 108 w % 8 = 0 && fld 107 0 w = 0))
  | 0x71 => nats 6 fun k => chk r (8 * k) (fld 60 48 (recAt r (8 * k) 8) = 0 && decide (fld 63 61 (recAt r (8 * k) 8) ≤ 4) && (decide (4 ≤ k) || fld 47 0 (recAt r (8 * k) 8) ≠ 0))
  | 0x72 => nats 32 fun k => chk r (2 * k) (decide (-200 ≤ signedOf 16 (recAt r (2 * k) 2)) && decide (signedOf 16 (recAt r (2 * k) 2) ≤ 200))
  | 0x81 => nats 256 fun c =>
    let w := recAt r (4 * c) 4
    chk r (4 * c) (w = 0 || (!(exemptCode (BitVec.ofNat 8 c)) && within 1 1000 (fld 31 16 w) && within 1 255 (fld 15 8 w) && fld 7 0 w = 0))
  | 0x82 => nats 32 fun q => chk r (4 * q) (recAt r (4 * q) 4 = 0 || (within 1 512 (fld 31 16 (recAt r (4 * q) 4)) && fld 3 0 (recAt r (4 * q) 4) = 0))
  | 0x91 => nats (n / 4) fun z => chk r (4 * z) (within 1 4095 (recAt r (4 * z) 4))
  | 0x92 => nats 64 fun k => chk r (4 * k) (if headFitted i k then within 1 1000 (recAt r (4 * k) 4) else recAt r (4 * k) 4 = 0)
  | _ => []
def checkValues (i : Image) (rs : List ImgRec) : List Check :=
  (rs.filter fun r => r.type < 0x8000).flatMap fun r => if isList r.type then checkList r else checkFixed i r

-- Cross-record rules (step 7, Table 18.9).

/-- Region plan of the image, unused entries left out (Table 16.2). -/
def planOf (i : Image) : List Region :=
  let b := imgBin i 0x70 0
  if b.isEmpty then defaultPlan
  else ((List.range (b.length / 16)).map fun k =>
    let w := imgAt i 0x70 0 (16 * k) 16
    { kind := fld 127 124 w, dense := fld 123 123 w = 1, eflag := fld 122 122 w = 1, access := fld 121 120 w, blocks := fld 119 108 w : Region }).filter fun q => q.kind ≠ 0
def planSorted (p : List Region) : List Region := p.mergeSort fun a b => decide (a.kind ≤ b.kind)
/-- R481. -/
def planOk (p : List Region) : Bool :=
  let k (n : Nat) : List Region := p.filter fun q => q.kind = n
  let one (n : Nat) : Region := (k n).headD {}
  ((List.range 8).all fun n => (k (n + 1)).length = 1) && ((List.range 6).all fun n => !(one (n + 3)).dense) && (one 1).dense == (one 2).dense &&
    (one 1).blocks = (one 2).blocks && (one 1).access = 0 && (one 2).access = 0 && decide (264 ≤ (one 3).blocks) && decide (264 ≤ (one 4).blocks) &&
    decide ((p.map (·.blocks)).sum + 64 ≤ 4088)
/-- Section entries that a context's record names. -/
def ctxSections (i : Image) (n : Nat) : Nat × Nat :=
  let w := imgAt i 0x24 0 (32 * n) 32
  (fld 248 238 w, fld 253 249 w)
def ctxLaw (i : Image) (n : Nat) : List SecCoef :=
  let (b, k) := ctxSections i n
  (List.range k).map fun j => coefOfEntry (BitVec.ofNat 256 (imgAt i 0x23 0 (32 * (b + j)) 32))
/-- R214, R216, R224 for one context. -/
def ctxLawOk (i : Image) (n : Nat) : Bool :=
  let (b, k) := ctxSections i n
  let law := ctxLaw i n
  decide (32 * (b + k) ≤ (imgBin i 0x23 0).length) && decide ((law.filter (·.integ)).length ≤ 2) &&
    (law.zipIdx).all fun q => !q.1.integ || sigmaOf (law.drop (q.2 + 1)) ≠ 0
/-- Wedge burst of R231 in cycles. -/
def wedgeBurst (i : Image) : Nat :=
  (((List.range 138).filter fun n => (decide (n < 72) || decide (136 ≤ n)) && ctxFitted i n).map fun n => 4 * (ctxSections i n).2 + 8).sum
/-- Ticks of one revolution at N_SVC times N_SVC. -/
def revTicks : Nat := 56000000000 * 60
def zoneOk (i : Image) (a : Nat) (f : ZoneFmt) : Bool :=
  let x := revTicks * 2 ^ 32
  let y := f.samplePeriod * 960 * nSvc i
  f.cz % i.resDiv = 0 && within i.resDiv 262140 f.cz && decide (f.sz * (37120 + f.sg) ≤ 960 * (f.cpw - f.wg)) && decide (f.wg ≤ f.cpw) &&
    decide (ceilDiv f.cpw 20 + 64 ≤ f.wg) && decide (3 * 24000 * y ≤ x) && decide (13215283988 ≤ f.samplePeriod) &&
    decide (2000 * ((y * f.cpw : Int) - x).natAbs ≤ x) && decide (a < 8)
def spread (xs : List Int) : Int := xs.foldl max (xs.headD 0) - xs.foldl min (xs.headD 0)
def curveOk (i : Image) : Bool :=
  let ps := curvePoints i
  (List.range (ps.length - 1)).all (fun k =>
    decide ((ps.getD k (0, 0, 0)).1 < (ps.getD (k + 1) (0, 0, 0)).1) && decide ((ps.getD k (0, 0, 0)).2.1 ≤ (ps.getD (k + 1) (0, 0, 0)).2.1)) &&
  ps.all (fun p => decide (nHandoff i ≤ p.2.1) && decide (p.2.1 ≤ nSvc i)) && (ps.getLastD (0, 0, 0)).2.1 = nSvc i
def spindleOk (i : Image) : Bool :=
  decide (300 < nHandoff i) && [iAlign i, iIf i, iSu i, brakeI i, sbIlim i, genImax i].all (fun x => decide (x < iOc i)) &&
    decide (vChopOff i < vChopOn i) && decide (vhChopOff i < vhChopOn i)
def crossChecks (i : Image) (rs : List ImgRec) (flashPlan : Option (List Region)) : List Check :=
  let w (t k : Nat) : Option Nat := (recOf rs t k).map (·.off)
  let ht := i.arms * i.heads
  let f := i.headFailMax
  (List.range i.arms).flatMap (fun a => (zoneList i a).zipIdx.map fun z => ((w 2 a).map (· + 8 + 24 * z.2), zoneOk i a z.1)) ++
  (List.range i.arms).map (fun a => (w 2 a, decide (i.q ≤ ((zoneList i a).map fun z => z.cz * gOf z).sum))) ++
  [(w 3 0, decide (i.capacity ≤ bR i * i.arms * i.q) && decide (32 * f * i.resDiv + (ht - f) ≤ 32 * (ht - f)) && (f = 0 || decide (2 ≤ i.arms)))] ++
  (List.range i.arms).flatMap (fun a => (List.range (nzOf i a)).map fun z =>
    let hs := (List.range i.heads).map (8 * a + ·)
    (w 0x22 (8 * a), decide (spread (hs.map fun n => offCO i n z) ≤ 172032) && decide (spread (hs.map fun n => offCO i n z + offRWO i n z) ≤ 172032))) ++
  (List.range i.arms).map (fun a => (w 0x21 a, decide (seekLen (seekOf i a) (4096 * fullStroke i a) + settleMax i ≤ 345))) ++
  ((List.range 139).filter (ctxFitted i)).map (fun n => ((w 0x24 0).map (· + 8 + 32 * n), ctxLawOk i n)) ++
  [(w 0x24 0, decide (wedgeBurst i ≤ 2624)), (w 0x30 0, spindleOk i), (w 0x31 0, curveOk i),
   (w 0x40 0, (List.range 3).all fun r => decide (thermLevel i r 1 < thermLevel i r 2) && decide (thermLevel i r 2 < thermLevel i r 3)),
   (w 0x41 0, (List.range 15).all fun k =>
      decide (((seekEnergyPoints i).getD k (0, 0)).1 < ((seekEnergyPoints i).getD (k + 1) (0, 0)).1) &&
        decide (((seekEnergyPoints i).getD k (0, 0)).2 ≤ ((seekEnergyPoints i).getD (k + 1) (0, 0)).2)),
   (w 0x11 0, decide (queueLwm i + 128 ≤ queueHwm i)),
   (w 0x70 0, planOk (planOf i) && flashPlan.all fun p => planSorted p == planSorted (planOf i)),
   (w 0x82 0, decide (((List.range 32).map (mqDepth i)).sum ≤ 131072)),
   (w 0x20 0, (List.range i.arms).all fun a => decide (loadPair i < (zoneFmt i a 0).cz))]

-- The seven steps.

def nvmByte (n : Nvm) (a : Nat) : Byte := ((tabGet (BitVec.allOnes 32768) n.blocks (a / 4096)) >>> (8 * (a % 4096))).setWidth 8
def nvmBytes (n : Nvm) (a len : Nat) : List Byte := (List.range len).map fun k => nvmByte n (a + k)
def copyBase (copyB : Bool) : Nat := if copyB then 0x1000000 else 0
def nvmNat (n : Nvm) (copyB : Bool) (off len : Nat) : Nat := leNat (nvmBytes n (copyBase copyB + off) len)
/-- The header can be read: its MAGIC stands. -/
def headerReads (n : Nvm) (copyB : Bool) : Bool := n.present && nvmNat n copyB 0 4 = 0x49435A46
def headerGen (n : Nvm) (copyB : Bool) : Nat := nvmNat n copyB 12 4

/-- What validation gives (R580): the image, or the failing step with the offset of the fault (none: no place is named). -/
inductive ImgResult where | good (i : Image) | bad (step : Nat) (off : Option Nat)
deriving DecidableEq, Repr

def step1 (n : Nvm) (b : Bool) : List Check :=
  let h (off len : Nat) : Nat := nvmNat n b off len
  [(some 0, n.present && h 0 4 = 0x49435A46), (some 4, h 4 2 = 1), (some 6, h 6 2 = 256),
   (some 8, h 8 4 % 8 = 0 && within 512 16777216 (h 8 4)), (some 12, decide (1 ≤ h 12 4)), (some 24, decide (h 24 4 < 2)), (some 28, h 28 4 = 0),
   (some 32, h 32 16 = 0x383034365A46), (some 48, h 48 16 = 0), (some 224, h 224 32 = 0)]
def digestOf (n : Nvm) (b : Bool) : List Byte :=
  sha256 (nvmBytes n (copyBase b) 64 ++ nvmBytes n (copyBase b + 256) (nvmNat n b 8 4 - 256))
/-- Table 18.2 (R550, R551). -/
def policyOk (fu : Fuses) (n : Nvm) (b : Bool) : Bool :=
  let key := nvmBytes n (copyBase b + 96) 64
  let be (off : Nat) : Nat := beNat (nvmBytes n (copyBase b + off) 32)
  let fused := fu.keyHash.any (· ≠ 0)
  let keyOk := !fused || fu.keyHash = some (hash256 key)
  if nvmNat n b 24 4 = 0 then !fu.openBlown
  else !(fu.openBlown && !fused) && keyOk && ecdsaVerify (be 96, be 128) (be 64) (be 160) (be 192)
/-- COMPAT (R579). -/
def compatOf (n : Nvm) (b : Bool) (rs : List ImgRec) : BitVec 256 :=
  hash256 ((rs.filter fun r => r.type = 1 || r.type = 2 || r.type = 3).flatMap fun r =>
    nvmBytes n (copyBase b + r.off) (8 + 8 * ceilDiv r.value.length 8))
/-- Validation of a copy (R580, Table 18.8). -/
def validateCopy (fu : Fuses) (flashPlan : Option (List Region)) (n : Nvm) (b : Bool) : ImgResult :=
  match firstFault (step1 n b) with
  | some o => .bad 1 o
  | none =>
    let dig := digestOf n b
    if dig ≠ nvmBytes n (copyBase b + 64) 32 then .bad 2 (some 64)
    else if !policyOk fu n b then .bad 3 (some 96)
    else
      let len := nvmNat n b 8 4
      let (rs, bad) := parseRecs 65535 256 none (nvmBytes n (copyBase b + 256) (len - 256)) []
      match bad with
      | some o => .bad 4 (some o)
      | none =>
        let i := buildImage rs
        if rs.length ≠ nvmNat n b 20 4 then .bad 4 (some 20)
        else match firstFault (checkPresence i rs) with
          | some o => .bad 5 o
          | none => match firstFault (checkValues i rs) with
            | some o => .bad 6 o
            | none => match firstFault (crossChecks i rs flashPlan) with
              | some o => .bad 7 o
              | none => .good { i with
                  loaded := true, copyB := b, unsigned := nvmNat n b 24 4 = 0, gen := headerGen n b, imageVer := BitVec.ofNat 32 (nvmNat n b 16 4),
                  digest := BitVec.ofNat 256 (beNat dig), compat := compatOf n b rs }

end Sys2Proof.Machine
end

