-- ==== Sys2Proof/Machine/FetchCache.lean ====
section
/-! DEFINITION. The fetch cache (chapter 16): look-up and fills (R500–R503), maintenance and locks (R505, R506), stride prefetch (R507). -/

namespace Sys2Proof.Machine

-- Access.

def fetchMaster (q : Nat) : BitVec 8 := if q < 4 then mCore else if q = 4 then mTre 61 else mPort
/-- Region of a line. -/
def lineRegion (s : State) (line : Nat) : Option (Region × Nat) := pageAt s (line / 64)
/-- A requester may read a line with this access type (R483). -/
def mayFetch (s : State) (q line access : Nat) : Bool :=
  match lineRegion s line with
  | some (r, _) => r.access ≠ 0 || (decide (q < 4) && (access = 2 || access = 4))
  | none => false
/-- The bank of a line programs or erases. -/
def lineBusy (s : State) (line : Nat) : Bool := pageBusy s (line / 64)
def entryOf (s : State) (line : Nat) : Option Nat := (List.range 48).find? fun e => (getFce s e).valid && (getFce s e).line = line

-- Stride detector (R507).

/-- Lines that a confirmed stride prefetches after `line`. -/
def strideLines (s : State) (q line : Nat) : List Nat :=
  let st := (getFcq s q).stride
  ((List.range (fcDepth s.img q)).map fun (k : Nat) => (line : Int) + st * ((k : Int) + 1)).filterMap fun l =>
    if l < 0 then none
    else
      let n := l.toNat
      if (entryOf s n).isSome || (s.fcc.fill.any fun f => f.line = n) || s.fcc.prefetches.contains (q, n) || !(mayFetch s q n 4) ||
          (lineRegion s n).map (·.1.kind) ≠ (lineRegion s line).map (·.1.kind) then none else some n
/-- The detector sees an access to a line. -/
def seeLine (q line : Nat) (s : State) : State :=
  let r := getFcq s q
  match r.lastLine with
  | none => modFcq s q fun r => { r with lastLine := some line }
  | some p =>
    if p = line then s
    else
      let d : Int := (line : Int) - p
      let s :=
        if 63 < d.natAbs then modFcq s q fun r => { r with lastLine := some line, run := 0, confirmed := false }
        else if d = r.stride then modFcq s q fun r => { r with lastLine := some line, run := min 3 (r.run + 1), confirmed := r.confirmed || decide (2 ≤ r.run) }
        else modFcq s q fun r => { r with lastLine := some line, stride := d, run := 1, confirmed := false }
      if (getFcq s q).confirmed then { s with fcc := { s.fcc with prefetches := s.fcc.prefetches ++ (strideLines s q line).map fun n => (q, n) } } else s

-- Look-up and fills.

/-- A miss waits for its fill: it joins the outstanding one of its line, and turns a prefetch into a demand fill (R501). -/
def joinFill (q line : Nat) (lock : Bool) (access : Nat) (s : State) : State :=
  match s.fcc.fill with
  | some f =>
    if f.line = line && !f.killed then
      { s with fcc := { s.fcc with fill := some { f with
          prefetch := false, requester := if f.prefetch then q else f.requester, waiting := if lock then f.waiting else f.waiting ++ [(q, access)], lock := f.lock || lock } } }
    else { s with fcc := { s.fcc with waiters := s.fcc.waiters ++ [(q, line, lock, access)] } }
  | none => { s with fcc := { s.fcc with waiters := s.fcc.waiters ++ [(q, line, lock, access)] } }
/-- A busy bank (R490): a bus fault to a core or the diagnostic port; the transfer engine waits. -/
def busyFault (q line access : Nat) (s : State) : State :=
  fetchAnswer q 4 0 (busReport (fetchMaster q) access 0x97 (256 * line) { s with fls := { s.fls with busyFault := satInc 16 s.fls.busyFault } })
/-- FETCH_LOOKUP (R483, R490, R500–R502, R504): `ue` is an uncorrectable error in the entry that hits, `steps` the ladder of a read that goes
straight to the transfer engine (R502). -/
def execFetchLookup (q : Fin 6) (addr : BitVec 36) (access : BitVec 3) (ue : Bool) (steps : List (Bool × Nat)) (s : State) : Host.Outcome State Fault Refusal := live s fun s =>
  let line := addr.toNat / 256
  .next (
    if !(mayFetch s q line access.toNat) then
      fetchAnswer q 5 0 (busReport (fetchMaster q) access.toNat 0xA7 addr.toNat s)
    else
      let s := match entryOf s line with
        | some e => if ue then report { master := mFlash, cause := 2, mem := 0x58, event := 0x9C } (loseLine e s) else s
        | none => s
      match entryOf s line with
      | some e =>
        let d := getFce s e
        let s := modFcq s q fun r => { r with hits := satInc 32 r.hits, pfUsed := if d.prefetched then satInc 8 r.pfUsed else r.pfUsed }
        seeLine q line (fetchAnswer q 0 d.data (modFce s e fun d => { d with prefetched := false }))
      | none =>
        let s := modFcq s q fun r => { r with misses := satInc 16 r.misses }
        let s := seeLine q line s
        if q = 4 && fcMask s.img 4 = 0 then
          (if lineBusy s line then { s with fls := { s.fls with waits := s.fls.waits ++ [{ sec := line / 4, line := some line, steps }] } } else readLineDirect line steps s)
        else if lineBusy s line && q ≠ 4 then busyFault q line access.toNat s
        else joinFill q line false access.toNat s)
/-- One step of the replacement LFSR (R503). -/
def lfsrStep (x : BitVec 16) : BitVec 16 :=
  let fb := (x.getLsbD 0 != x.getLsbD 2) != (x.getLsbD 3 != x.getLsbD 5)
  (x >>> 1) ||| (if fb then 0x8000 else 0)
def inMask (s : State) (q e : Nat) : Bool := bitOf e (fcMask s.img q)
/-- Entry for a fill of requester q (R503, R505): for a miss a locked entry of q that holds no line, else by the LFSR. A prefetch is no miss
(log entry 52). -/
def pickEntry (q : Nat) (prefetch : Bool) (s : State) : Option Nat × State :=
  match (List.range 48).find? fun e => !prefetch && (getFce s e).locked && (getFce s e).owner = q && !(getFce s e).valid with
  | some e => (some e, s)
  | none =>
    let s := { s with fcc := { s.fcc with lfsr := lfsrStep s.fcc.lfsr } }
    let es := (List.range 48).filter fun e => inMask s q e && !(getFce s e).locked
    (es[(s.fcc.lfsr.toNat % 64) % max 1 es.length]?, s)
/-- Begin the one outstanding fill: the entry chosen for it gives up its line. -/
def beginFill (q line : Nat) (prefetch lock : Bool) (waiting : List (Nat × Nat)) (s : State) : State :=
  let (e, s) := pickEntry q prefetch s
  let s := match e with | some e => modFce s e fun d => { d with valid := false, prefetched := false } | none => s
  let s := match lineRegion s line with | some (_, page) => modBank s (page % 8) fun k => { k with register := some (line / 64) } | none => s
  { s with fcc := { s.fcc with fill := some { line, requester := q, prefetch, entry := e, waiting, lock, data := lineData s line } } }
/-- FETCH_FILL (R501). -/
def execFetchFill (s : State) : Host.Outcome State Fault Refusal := live s fun s =>
  .next (
    match s.fcc.fill, s.fcc.waiters.find? fun w => !(w.1 = 4 && lineBusy s w.2.1) with
    | none, some (q, line, lock, _) =>
      let same := s.fcc.waiters.filter fun w => w.2.1 = line
      if lineBusy s line then
        let faulted := same.filter fun w => w.1 ≠ 4
        each faulted (fun w s => busyFault w.1 line w.2.2.2 s) { s with fcc := { s.fcc with waiters := s.fcc.waiters.filter fun w => !faulted.contains w } }
      else
        beginFill q line false (lock || same.any (·.2.2.1)) ((same.filter fun w => !w.2.2.1).map fun w => (w.1, w.2.2.2))
          { s with fcc := { s.fcc with waiters := s.fcc.waiters.filter fun w => w.2.1 ≠ line } }
    | _, _ => s)
/-- A requester whose fill is uncorrectable (R492): the core that fetches traps (R526); a data read of a core or of the diagnostic port is a bus fault, and so
is reported. -/
def fillFailed (line : Nat) (w : Nat × Nat) (s : State) : State :=
  let s := fetchAnswer w.1 6 0 s
  if w.1 = 4 then each [61, 62] (fun ch s => haltReader ch (line / 4) s) s
  else if w.1 < 4 && w.2 = 2 then coreTrap w.1 0x7F false false s
  else s
/-- The outcome of a fill's ladder (R492, R493): the bank's counts and wear, then status 0 or 6. -/
def fillLadder (f : Fill) (steps : List (Bool × Nat)) (s : State) : Nat × State :=
  match lineRegion s f.line with
  | none => (0, s)
  | some (r, page) =>
    let (b, rb, _) := pagePlace r page
    match ladder steps with
    | some (n, bits) => (0, readDone b (512 * b + physBlock s r.kind b rb) n bits s)
    | none => (6, readLost b (f.line / 4) {
        master := fetchMaster f.requester, access := BitVec.ofNat 3 (if f.prefetch then 4 else ((f.waiting.head?).map (·.2)).getD 3), cause := if f.waiting.head?.any fun w => w.1 ≠ 4 && w.2 = 0 then 3 else 2 } s)
/-- FILL_COMPLETE (R492, R501, R505, R506): an uncorrectable sector installs nothing, traps the cores that fetch and halts the dump's channels. -/
def execFillComplete (steps : List (Bool × Nat)) (s : State) : Host.Outcome State Fault Refusal := live s fun s =>
  .next (
    match s.fcc.fill with
    | none => s
    | some f =>
      let (status, s) := fillLadder f steps { s with fcc := { s.fcc with fill := none } }
      if status ≠ 0 then each f.waiting (fillFailed f.line) s
      else
      let s := each f.waiting (fun w s => fetchAnswer w.1 0 f.data s) s
      match f.entry with
      | some e =>
        if f.killed then s
        else modFce s e fun d => { d with
          valid := true, line := f.line, locked := d.locked || f.lock, owner := if d.locked then d.owner else f.requester, prefetched := f.prefetch, data := f.data }
      | none => s)
/-- PREFETCH_ISSUE (R490, R501, R507): the next line of a requester; one that cannot be read is dropped without a fault. -/
def execPrefetchIssue (q : Fin 6) (s : State) : Host.Outcome State Fault Refusal := live s fun s =>
  .next (
    if s.fcc.fill.isSome || !s.fcc.waiters.isEmpty then s
    else match s.fcc.prefetches.find? fun p => p.1 = q.val with
      | none => s
      | some (_, line) =>
        let s := { s with fcc := { s.fcc with prefetches := s.fcc.prefetches.erase (q.val, line) } }
        if (entryOf s line).isSome || lineBusy s line || !(mayFetch s q line 4) then s
        else beginFill q line true false [] s)

-- Maintenance and locks (Table 16.4).

/-- INVAL_LINE. -/
def execInvalLine (_core : Fin 4) (addr : BitVec 36) (s : State) : Host.Outcome State Fault Refusal := live s fun s => .next (invalidate (addr.toNat / 256) 1 s)
/-- INVAL_RANGE: 1 to 65,536 lines. -/
def execInvalRange (_core : Fin 4) (base : BitVec 28) (lines : Nat) (s : State) : Host.Outcome State Fault Refusal := live s fun s =>
  .next (if 1 ≤ lines && lines ≤ 65536 then invalidate base.toNat lines s else s)
/-- INVAL_ALL. -/
def execInvalAll (_core : Fin 4) (s : State) : Host.Outcome State Fault Refusal := live s fun s => .next (invalidate 0 (2 ^ 28) s)
/-- Entries locked for a requester, fills that lock included. -/
def lockedFor (s : State) (q : Nat) : Nat :=
  ((List.range 48).filter fun e => (getFce s e).locked && (getFce s e).owner = q).length + (s.fcc.waiters.filter fun w => w.1 = q && w.2.2.1).length +
    (if s.fcc.fill.any fun f => f.lock && f.requester = q then 1 else 0)
def lockedAll (s : State) : Nat := ((List.range 6).map (lockedFor s)).sum
def maskSize (s : State) (q : Nat) : Nat := ((List.range 48).filter (inMask s q)).length
/-- LOCK. -/
def execLock (core : Fin 4) (addr : BitVec 36) (s : State) : Host.Outcome State Fault Refusal := live s fun s =>
  let line := addr.toNat / 256
  let q := core.val
  let full := decide (maskSize s q < 2 * (lockedFor s q + 1)) || decide (16 ≤ lockedAll s)
  .next (
    match entryOf s line with
    | some e =>
      if (getFce s e).locked && (getFce s e).owner = q then s
      else if !(inMask s q e) || full || (getFce s e).locked then fetchAnswer q 5 0 s
      else modFce s e fun d => { d with locked := true, owner := q }
    | none => if full || !(mayFetch s q line 2) then fetchAnswer q 5 0 s else joinFill q line true 3 s)
/-- UNLOCK: the lock and the reservation of the line's entry end. -/
def execUnlock (core : Fin 4) (addr : BitVec 36) (s : State) : Host.Outcome State Fault Refusal := live s fun s =>
  .next (each (List.range 48) (fun e s =>
    if (getFce s e).locked && (getFce s e).owner = core.val && (getFce s e).line = addr.toNat / 256 then modFce s e fun d => { d with locked := false, owner := 0 } else s) s)
/-- UNLOCK_ALL. -/
def execUnlockAll (core : Fin 4) (s : State) : Host.Outcome State Fault Refusal := live s fun s =>
  .next (each (List.range 48) (fun e s =>
    if (getFce s e).locked && (getFce s e).owner = core.val then modFce s e fun d => { d with locked := false, owner := 0 } else s) s)

end Sys2Proof.Machine
end

