-- ==== Sys2Proof/Machine/Fantail.lean ====
section
/-! DEFINITION. The fantail's evaluations (chapter 14): margins of the part and its links (R437, R442), re-planning (R438–R440), trends and the
horizon (R443, R444), winding resistance (R434), core slack and lane eyes. -/

namespace Sys2Proof.Machine

-- Margins of the part and its links.

/-- Core slack exhausted at 0.85 V (Table 14.4). -/
def slackExhausted (s : State) : State :=
  if s.fan.coreStop then s
  else advanceDrain (exhausted 5 {} { s with fan := { s.fan with coreStop := true }, hop := { s.hop with closed := true, stopCause := 0xB3 } })
/-- Least eye of a lane's link: link in `head` (0, 1, 2) or the arm; downlink lanes stand at 32. -/
def laneOut (l : Loc) (s : State) : State :=
  if l.arm < 8 then alkSwap l.arm (l.zone < 32) (l.zone % 32) false s else reportLane l.head l.zone 0 s
/-- Millpond data-eye margin of a channel (R437, Table 14.4): below 0 the channel is migrated (R307). -/
def judgeChannel (p : Nat) (s : State) : State :=
  let l : Loc := { zone := p }
  let v := marginOf s .millpondEye l (getChan s p).margin
  let s := noteMargin (seriesOf .millpondEye) l v (if v < 0 then s else recovered 7 l s)
  if v < 0 then migrate (getChan s p).logical 2 (exhausted 7 l s) else s
/-- Least n of 4 to 20 with at most 10^-4 of first decodes not converged by n; `hist` counts them by iterations 1 to 20 and not converged
(R172, Table 14.3). -/
def iterWant (hist : List Nat) : Nat :=
  let total := hist.sum
  ((List.range 17).find? fun k => decide (10000 * (total - (hist.take (k + 4)).sum) ≤ total)).getD 16 + 4
/-- Heads and zones with first decodes since the last evaluation: ITER_MAX follows the histogram (Table 14.3), which then begins again. -/
def evalIterations (s : State) : State :=
  let s := each s.fan.iters (fun e s =>
    let n := e.1 / 64
    if 0 < e.2.sum && headFitted s.img n then replanTo 1 (visitLoc n (e.1 % 64)) (iterWant e.2) 0 s else s) s
  { s with fan := { s.fan with iters := [], checks := [] } }
/-- KFF follows a torque constant that has changed by more than 2%, inversely (Table 14.3). -/
def evalKt (a : Nat) (r : Int) (s : State) : State :=
  let l : Loc := { arm := a }
  let want := if r ≤ 0 then (imageVal s 8 l).1 else roundHalfUp (((imageVal s 8 l).1 * 32768 : Int) / r)
  let old := (committed s 8 l).1
  let s := if 50 * (want - old).natAbs ≤ old.natAbs then s else replanTo 8 l want 0 s
  judgeMargin .vcmKt l r s
/-- Heater power that a head's clearance loop needs (Table 14.1): its output, and one step more where it would go beyond its limit. -/
def heaterNeed (s : State) (n : Nat) : Int :=
  let c := getCtx s (72 + n)
  max ((getHead s n).readPwr : Int) c.out + (if c.sat = 1 then 1 else 0)
/-- HOURLY_EVALUATION (R429, R437, R442, Table 14.1): iteration histograms, the rates of read-after-write results, which lead to nothing but their
trend, heater headroom, millpond eyes, torque constants, and the phase margins that sine injection has measured since the last one. -/
def execHourlyEvaluation (loops : List (Fin 136 × Int)) (eyes : Vector (BitVec 8) 9) (s : State) : Host.Outcome State Fault Refusal := live s fun s =>
  .next (
    if fantailHalted s then s
    else
      let s := evalIterations s
      let s := each ((allHeads s).filter fun n => (getCtx s (72 + n)).enable && !(getHead s n).failed) (fun n s =>
        judgeMargin .heater { arm := n / 8, head := n % 8, zone := (getHead s n).zone } (heaterNeed s n) s) s
      let s := each ((List.range 9).filter fun p => (getChan s p).trained) (fun p s => modChan s p fun m => { m with margin := (eyes.toList.getD p 0).toNat }) s
      let s := each ((List.range 9).filter fun p => (getChan s p).role = 1) (fun p s => judgeChannel p s) s
      let s := each s.fan.kts (fun e s => evalKt e.1 e.2 s) { s with fan := { s.fan with kts := [] } }
      each loops (fun e s =>
        let n := e.1.val
        let l : Loc := if n < 8 then { arm := n } else { arm := ctxArm n, head := (n - 8) % 8 }
        if fantailHalted s then s else judgeMargin .loop l e.2 s) s)

-- Re-planning.

/-- A lane is re-planned only while its spare is in lock (R439). -/
def laneSpareOk (s : State) (l : Loc) : Bool :=
  if l.arm < 8 then (getAlk s l.arm).dnSpareOk && (alkOut (getAlk s l.arm)).2 = 3 else (getLink s l.head).txSpareOk && (getLink s l.head).txOut = laneNone l.head
/-- A lane's transmitter takes its new preset (R439): the traffic moves to the spare, the lane retrains alone, the traffic moves back. No time is
given for the retraining; the model does all three at once, and a lane of a LANLET link, whose transmit runs wait for no map, shows none of them (log entry 44). -/
def retrainLane (l : Loc) (s : State) : State :=
  if 8 ≤ l.arm then s
  else
    let lane := l.zone % 32
    let k := getAlk s l.arm
    let put (s : State) : State := modAlk s l.arm fun k => { k with presets := (List.range 3).map fun j => imgAt s.img 0x61 0 (3 * l.arm + j) 1 }
    if !alkUp s l.arm || (alkOut k).2 ≠ 3 || lane = 2 then put s
    else
      sendLaneMap l.arm false (alkOut k).1 3 (put (sendLaneMap l.arm false (alkOut k).1 lane s))
/-- REPLAN (R438–R440): a quantity moves toward what its rule of Table 14.3 gives, `value` and the `second` of a pair. A channel set is a candidate
for the next channel visit of its head and zone, which tests it; a notch, whose peak lies more than 2% from its centre, or a gain goes with a law of the predicted `phaseMargin` (R439).
Clearances are only lowered. -/
def execReplan (k : PlanKind) (loc : Loc) (value second : Int) (phaseMargin : Nat) (s : State) : Host.Outcome State Fault Refusal := live s fun s =>
  .next (
    if fantailHalted s then s
    else match k with
      | .channelSet =>
        let n := 8 * loc.arm + loc.head
        let s := { s with fan := { s.fan with cands := s.fan.cands.filter (fun c => c.1 ≠ loc) ++ [(loc, value.toNat)] } }
        if (visitStep s n).any fun x => x.2.1 = { kind := 0, zone := loc.zone } && x.2.2 = 0 then loadTrial n loc.zone s else s
      | .hrCal => adoptCal loc value second s
      | .clr => replanTo 4 loc (min value (committed s 4 loc).1) (min second (committed s 4 loc).2) s
      | .notch => if pmMin s.img ≤ phaseMargin && decide ((committed s 6 loc).1 < 50 * (value - (committed s 6 loc).1).natAbs) then replanTo 6 loc value 0 s else s
      | .lawGain => if pmMin s.img ≤ phaseMargin then replanTo (planNum k) loc value 0 s else s
      | .vdd => if s.pwr.avsFault || (value < s.pwr.target && !(s.dev = .ready || s.dev = .parked || s.dev = .standby)) then s else replanTo 9 {} value 0 s
      | .lanePreset => if laneSpareOk s loc then retrainLane loc (replanTo 10 loc value 0 s) else s
      | _ => replanTo (planNum k) loc value 0 s)

-- Trends.

/-- A series holds 128 daily points; when it is full, those of its oldest 30 days become one point, their mean (R443). -/
def foldDays (t : Trend) : Trend :=
  if t.points.length ≤ 128 then t
  else
    let d0 := (t.points.head?.map (·.1)).getD 0
    let old := t.points.takeWhile fun (p : Nat × Int × Nat) => decide (p.1 < d0 + 30)
    let mean := (old.map fun (p : Nat × Int × Nat) => p.2.1).sum / old.length
    let samples := min 32767 ((old.map fun (p : Nat × Int × Nat) => p.2.2).sum)
    let monthly := t.monthly ++ [(d0, mean, samples)]
    { t with points := t.points.drop old.length, monthly := monthly.drop (monthly.length - 128) }
/-- Store a daily point (R443); a day without a measurement stores none. -/
def storePoint (kind : Nat) (l : Loc) (day : Nat) (v : Int) (samples : Nat) (s : State) : State :=
  if samples = 0 then s
  else
    let t := (s.fan.trends.find? fun t => t.kind = kind && t.loc = l).getD { kind, loc := l }
    let t := foldDays { t with points := t.points ++ [(day, satInt 32 v, min 32767 samples)] }
    { s with fan := { s.fan with trends := s.fan.trends.filter (fun x => !(x.kind == kind && x.loc == l)) ++ [t] } }
/-- Least rated erases left over the safe-mode regions (R437, R495). -/
def erasesLeft (s : State) : Int := 50000 - (wearOf s false : Int)
/-- HORIZON_COMPUTE (R443, R444): flash wear, the means of the day's margins as points, each sent to the partner (R441), and the horizon. -/
def execHorizonCompute (day : Nat) (s : State) : Host.Outcome State Fault Refusal := live s fun s =>
  .next (
    if fantailHalted s then s
    else
      let s := judgeMargin .flashWear {} (erasesLeft s) s
      let s := each s.fan.today (fun p s =>
        if p.2.2.2 = 0 then s
        else
          let v := roundHalfUp ((p.2.2.1 : Rat) / p.2.2.2)
          mirror (.plan { trend := true, kind := p.1, loc := p.2.1, value := v, samples := p.2.2.2, day }) (storePoint p.1 p.2.1 day v p.2.2.2 s)) s
      recomputeHorizon (day % 65536) { s with fan := { s.fan with today := [] } })

-- Passive estimates.

/-- WINDING_R_ESTIMATE (R434): the mean over the 10 s of the periods with |i_q| of at least 2 A, in 0.1 mΩ. -/
def execWindingREstimate (s : State) : Host.Outcome State Fault Refusal := live s fun s =>
  .next (
    if fantailHalted s then s
    else
      let r := roundHalfUp (10000 * s.spc.rSum / s.spc.rCount)
      { s with
        spn := { s.spn with rEst := if s.spc.rCount = 0 then s.spn.rEst else min 65535 r.toNat }, spc := { s.spc with rSum := 0, rCount := 0 } })
/-- SLACK_PERIOD_EVAL (R429, R621, Tables 14.3, 14.4): the least slack of the 60 s raises the VDD target, or lowers it after 24 h. -/
def execSlackPeriodEval (s : State) : Host.Outcome State Fault Refusal := live s fun s =>
  let low := s.fan.slackLow
  .next (
    if fantailHalted s || !s.fan.slackSeen then s
    else
      let high := decide ((slackMin s.img : Int) + 20 < low)
      let s := noteMargin (seriesOf .coreSlack) {} (marginOf s .coreSlack {} low) s
      let s := { s with fan := { s.fan with
        slackSeen := false,
        slackHighSince := if high then (match s.fan.slackHighSince with | some t => some t | none => some (now s)) else none } }
      if low < (slackMin s.img : Int) then
        if 850 ≤ s.pwr.target then slackExhausted s else if s.pwr.avsFault then s else replanTo 9 {} (s.pwr.target + 5) 0 s
      else if (s.fan.slackHighSince.any fun t => decide (86400 * oneSec ≤ since s t)) && !s.pwr.avsFault && (s.dev = .ready || s.dev = .parked || s.dev = .standby) then
        replanTo 9 {} (s.pwr.target - 5) 0 s
      else s)
/-- LANE_EYE_EVAL (R429, R439, Tables 14.3, 14.4): the lane's eye registers; below EYE_MIN + 16 the next preset, in a direction that the manual
leaves open; at the last preset below EYE_MIN the lane is mapped out. -/
def execLaneEyeEval (l : LinkId ⊕ Fin 8) (lane eyeH eyeV : Nat) (s : State) : Host.Outcome State Fault Refusal := live s fun s =>
  let eye (e : LaneErr) : LaneErr := { e with eyeH := min 255 eyeH, eyeV := min 255 eyeV }
  let (loc, s) : Loc × State := match l with
    | .inl k => ({ head := k.num, zone := lane }, modLink s k.num fun x => { x with lanes := tabMod {} x.lanes lane eye })
    | .inr a => ({ arm := a.val, zone := lane }, modAlk s a fun x => { x with lanes := tabMod {} x.lanes lane eye })
  .next (
    if fantailHalted s then s
    else
    let s := noteMargin (seriesOf .laneEye) loc (marginOf s .laneEye loc eyeH) (if eyeH < eyeMin s.img then s else recovered 6 loc s)
    if eyeMin s.img + 16 ≤ eyeH then s
    else if atLimit s 10 loc && eyeH < eyeMin s.img then laneOut loc (exhausted 6 loc s)
    else if laneSpareOk s loc then
      let p := (committed s 10 loc).1
      retrainLane loc (replanTo 10 loc (if (freeVal s).getLsbD 0 then p + 1 else p - 1) 0 (nextFree s))
    else s)

end Sys2Proof.Machine
end

