-- ==== Sys2Proof/Machine/Partner.lean ====
section
/-! DEFINITION. Partner operation (chapter 15): heartbeat (R452), the standby's windows (R454), arbitration (R455, R595, R643, R667), solo
acknowledgement (R456), resync (R457), takeover (R305, R458, R460), handover (R461), and the mirror's records (R303, R304, R399,
R441, R449, R450, R470). -/

namespace Sys2Proof.Machine

-- Acknowledging without a partner.

/-- Entry to solo acknowledgement (R456): event 0x82. -/
def enterSolo (s : State) : State :=
  if ptnOn s && s.ptn.role = 1 && !s.ptn.solo then post 0x82 mPartner [] { s with ptn := { s.ptn with solo := true } } else s
/-- The active part loses its SYNCED standby (R456); the blocks that it was to send back have no copy elsewhere any more (Table 9.5). -/
def loseStandby (s : State) : State :=
  if s.ptn.role = 1 && s.ptn.synced then
    recheck (each (s.ptn.fetches.map (·.1)) ueFrame (enterSolo { s with ptn := { s.ptn with synced := false, fetches := [] } }))
  else s

-- Heartbeat.

/-- HEARTBEAT_TICK (R452): `served` says whether the takeover core has served the unit since the last tick. A part that stops its heartbeat
deasserts ACTIVE_OUT at once and holds its gates off; one that declares fail-stop in the column of Table 17.5 without a partner keeps ACTIVE_OUT
for its steps 2 and 3 (log entry 61). -/
def execHeartbeatTick (served : Bool) (s : State) : Host.Outcome State Fault Refusal := live s fun s =>
  .next (
    if !ptnOn s then s
    else
      let s := if served then { s with ptn := { s.ptn with servedAt := now s } } else s
      if s.dev ≠ .stopped && s.flt.stopStep = 0 && since s s.ptn.servedAt ≤ 100000 then
        let s := { s with ptn := { s.ptn with hbOn := true, hbOut := !s.ptn.hbOut } }
        ptnSend (.heartbeat (s.ptn.role = 2) (BitVec.ofNat 8 (devCode s.dev)) (BitVec.ofNat 64 (devTime s)) (BitVec.ofNat 32 (dirtyFrames s))) s
      else if s.ptn.hbOn then (if s.flt.stopStep = 0 then dropActive else id) { s with ptn := { s.ptn with hbOn := false } }
      else s)
/-- HEARTBEAT (R452): the partner's role, state and time. A part that acts alone arbitrates when it hears its partner; a standby that lost the
mirror asks for RESYNC. -/
def execHeartbeat (standby : Bool) (state : BitVec 8) (time : Word) (dirty : BitVec 32) (s : State) : Host.Outcome State Fault Refusal := live s fun s =>
  .next (
    if !ptnOn s then s
    else
      let s := { s with ptn := { s.ptn with peerHb := some (standby, state, time, dirty), heard := true } }
      if s.ptn.alone then sendArb s
      else if s.ptn.role = 2 && s.dev = .standby && !s.ptn.synced && !s.ptn.asked then askResync s
      else s)

-- Takeover.

/-- The mirror becomes the write cache (R305): landed blocks are HELD, rows in build or written are built again whole, the rest is withdrawn. Versions are
ordered by VSEQ: one that a newer landed version of its LBA supersedes has no reader and is freed, and leaves its ACKED to that version (log entry 62). -/
def adoptMirror (planned : Bool) (s : State) : State :=
  let older (fe : Nat × LedgerEntry) : Bool := s.mpd.ledger.any fun x => landedEntry x.2 && x.2.lba == fe.2.lba && seqLt fe.2.vseq x.2.vseq
  let acked (e : LedgerEntry) : Bool := s.mpd.ledger.any fun x => landedEntry x.2 && x.2.lba == e.lba && x.2.acked
  let kept := (s.mpd.ledger.filter fun fe => landedEntry fe.2 && !older fe).map fun fe => (fe.1, { fe.2 with state := 1, acked := acked fe.2, mirrored := planned })
  { s with rows := [], mpd := { s.mpd with
      ledger := kept, parts := [], pins := [], mediumPins := [], clean := [], dirtySince := kept.map fun fe => (fe.1, now s) } }
/-- A takeover (R458 steps 1 to 4); `planned` is a handover, whose claims need no force (R461). -/
def takeover (planned : Bool) (s : State) : State :=
  let s := { s with
    dev := .takeover,
    ptn := { s.ptn with
      role := 1, activeOut := true, synced := planned, planned, takeoverAt := some (now s), resumed := false, seen := 0, solo := false, requested := false, released := false,
      takeovers := if planned then s.ptn.takeovers else satInc 16 s.ptn.takeovers, ctxs := if planned then [] else s.ptn.ctxs } }
  let s := if planned then s else post 0x83 mPartner [] s
  let s := claimArms (!planned) s
  if (armList s).any fun a => !alkUp s a then failStop 0x7E s
  else
    let s := adoptMirror planned s
    let s := if s.fan.planDigest = s.img.digest then useStore s else s
    let s := each [0, 1] (fun p s => if (getLink s p).session = 1 then takeoverCompletions p s else s) s
    let s := if planned then s else enterSolo s
    startOffsets { s with spc := { s.spc with startAt := now s, pausedFor := 0, fromRest := false, restart := false, stopping := false, unmeasured := true } }
/-- A standby whose partner has gone takes over when SYNCED and ACTIVE_IN is deasserted (R458); otherwise the takeover is withheld, event
0x8B. -/
def tryTakeover (s : State) : State :=
  if s.dev ≠ .standby || s.ptn.role ≠ 2 then s
  else if s.ptn.synced && !s.ptn.activeIn && !s.ptn.withheld then takeover false s
  else post 0x8B mPartner [] s
/-- TAKEOVER_RESUME (R458 step 5): RESUME to every driver, and every arm loads. -/
def execTakeoverResume (s : State) : Host.Outcome State Fault Refusal := live s fun s =>
  .next (
    if s.dev = .takeover && !s.ptn.resumed && (armList s).all fun a => (getArm s a).flags.getLsbD 2 then
      each (armList s) (fun a s => modArm (vcmSend a 3 0 s) a fun r => { r with attempts := 0, reloads := 0, loadDue := some (now s) })
        { s with ptn := { s.ptn with resumed := true } }
    else s)

-- What a standby concludes.

/-- The heartbeat gaps of one window of 200 µs, whose toggles of PTN_HB_IN are given in ns from its start: each gap longer than 50 µs counts once
(Table 15.13). -/
def countGaps (toggles : List Nat) (s : State) : State :=
  let step (p : Ptn × Nat) (t : Nat) : Ptn × Nat :=
    let long := decide (50000 < p.1.hbGap + t - p.2) && !p.1.gapSeen
    ({ p.1 with hbGap := 0, gapSeen := false, hbGaps := if long then satInc 16 p.1.hbGaps else p.1.hbGaps }, t)
  let p := toggles.foldl step (s.ptn, 0)
  let gap := p.1.hbGap + 200000 - p.2
  let long := decide (50000 < gap) && !p.1.gapSeen
  { s with ptn := { p.1 with hbGap := gap, gapSeen := decide (50000 < gap), hbGaps := if long then satInc 16 p.1.hbGaps else p.1.hbGaps } }
/-- The partner's signals over one window (Table 15.3). An event is recorded when its row first applies. -/
def judge (toggles frames activeIn : Bool) (s : State) : State :=
  let row := if !toggles && !frames then (if activeIn then 2 else 1) else if toggles && !frames then 3 else if !toggles then 4 else 0
  let fresh := row ≠ s.ptn.seen
  let s := { s with ptn := { s.ptn with hbInOk := toggles, activeIn, seen := row } }
  if s.ptn.role = 1 then (if frames then s else loseStandby s)
  else if s.dev ≠ .standby then s
  else if row = 1 then (if fresh then tryTakeover (if s.ptn.withheld then s else post 0x81 mPartner [] s) else s)
  else if row = 2 then (if fresh then post 0x8B mPartner [] s else s)
  else if row = 3 then (if s.ptn.synced then post 0x82 mPartner [] { s with ptn := { s.ptn with synced := false, asked := false } } else s)
  else if row = 4 then (if fresh then post 0x8C mPartner [] s else s)
  else s
/-- PARTNER_WINDOW (R454, R456). -/
def execPartnerWindow (toggles : List Nat) (frames activeIn : Bool) (s : State) : Host.Outcome State Fault Refusal := live s fun s =>
  .next (if ptnOn s then judge (!toggles.isEmpty) frames activeIn (countGaps toggles s) else s)
/-- PARTNER_HUNG_RECHECK (Table 15.3). -/
def execPartnerHungRecheck (toggles : List Nat) (frames activeIn : Bool) (s : State) : Host.Outcome State Fault Refusal := live s fun s =>
  .next (if ptnOn s && s.ptn.seen = 2 then judge (!toggles.isEmpty) frames activeIn (countGaps toggles s) else s)
/-- ACTIVE_IN_FALL (R454): a takeover at once, but for a handover that the partner has announced (log entry 35). -/
def execActiveInFall (s : State) : Host.Outcome State Fault Refusal := live s fun s =>
  .next (
    if !ptnOn s then s
    else
      let s := { s with ptn := { s.ptn with activeIn := false } }
      if s.ptn.released || s.ptn.requested then s else tryTakeover s)
/-- PTN_FAILSTOP (R454): cause 0xC6 forbids a takeover now and later. -/
def execPtnFailstop (cause : BitVec 8) (s : State) : Host.Outcome State Fault Refusal := live s fun s =>
  .next (
    if !ptnOn s || s.dev ≠ .standby then s
    else if cause = 0xC6 then post 0x8B mPartner [] { s with ptn := { s.ptn with withheld := true } }
    else tryTakeover s)

-- Arbitration.

/-- The part becomes active in Parked, and claims the arms (R90). -/
def becomeActive (alone : Bool) (s : State) : State :=
  let s := claimArms false (leaveConfiguring s)
  let s := { s with ptn := { s.ptn with role := 1, activeOut := true, alone }, start := { s.start with step := 0 } }
  enterParked (post 0x80 mPartner [] s)
/-- Index, commit and data chunks of an area by number (Table 15.6). -/
def indexChunks (a : DumpArea) : Nat := ceilDiv a.e 512
def chunkAt (a : DumpArea) (unreadable : List Nat) (n : Nat) : Option DumpChunk :=
  if unreadable.contains n then none else (a.chunks.find? fun c => c.1 = n).map (·.2)
/-- The layout records that a dump's commit records hold (R469). -/
def dumpLayout (a : DumpArea) (unreadable : List Nat) : List LayoutRec :=
  (List.range a.recs).flatMap fun j => match chunkAt a unreadable (1 + indexChunks a + j) with
    | some (.commits rs) => rs.flatMap fun r => r.defects.map .defect ++ r.runs.map .run
    | _ => []
/-- The entries of a dump's index chunks that read, each with its block where the block's chunk reads (R469, R470). -/
def dumpBlocks (a : DumpArea) (unreadable : List Nat) : List (LedgerEntry × Option Block) :=
  (List.range (indexChunks a)).flatMap fun j => match chunkAt a unreadable (1 + j) with
    | some (.index es) => es.zipIdx.map fun ei =>
        let pos := 512 * j + ei.2
        (ei.1, match chunkAt a unreadable (1 + indexChunks a + a.recs + pos / 4) with
          | some (.data bs) => (bs[pos % 4]?).map (·.2)
          | _ => none)
    | _ => []
/-- Counts of the entries that a dump's missing index chunks should have held (R470). -/
def lostCounts (a : DumpArea) (unreadable : List Nat) : List Nat :=
  ((List.range (indexChunks a)).filter fun j => match chunkAt a unreadable (1 + j) with | some (.index _) => false | _ => true).map fun j => min 512 (a.e - 512 * j)
/-- The deferred record for the blocks of a missing index chunk (R470). -/
def lostRecord (portB : Bool) (count : Nat) : DeferredRec := { count := BitVec.ofNat 32 count, lba := BitVec.allOnes 48, portB, cause := 2 }
/-- What the standby holds of a dump goes to the active part (R470): its layout records, its blocks, the entries without data, and a deferred record for
each port for a missing index chunk (log entry 61). -/
def sendDump (area : DumpArea) (s : State) : State :=
  let s := each (dumpLayout area []) (fun x s => ptnSend (.layout x) s) s
  let s := each (dumpBlocks area []) (fun b s =>
    let s := match b.2 with
      | some x => each (List.range 8) (fun fib s => ptnSend (.mdata b.1.frame.toNat fib (partOf x fib)) s) s
      | none => s
    ptnSend (.ment [{ b.1 with state := 1 }]) s) s
  each (lostCounts area []) (fun n s => each [false, true] (fun p s => ptnSend (.deferred (lostRecord p n)) s) s) s
/-- The part becomes standby, unsynced, asks for RESYNC and sends its dumps (R455 row 3, R470). -/
def becomeStandby (s : State) : State :=
  let s := leaveConfiguring s
  let s := { s with dev := .standby, ptn := { s.ptn with role := 2, alone := false }, start := { s.start with step := 20 } }
  let s := askResync (post 0x80 mPartner [] s)
  each (s.hold.areas.toList.filter (·.unretired)) sendDump s
/-- Both parts acted alone, and this is the ROLE 1 part (R667): it gives up what it drives. -/
def yieldActive (s : State) : State := becomeStandby (dropActive (startCoast (releaseArms (if ownsArms s then unloadAll s else s))))
/-- The partner is already active: it asserts ACTIVE_IN or reports a state of row 3 (Table 15.4). -/
def peerActive (s : State) (r : ArbRec) : Bool :=
  s.ptn.activeIn || ([DevState.spinningUp, .loading, .ready, .faultHold, .takeover].map devCode).contains r.state.toNat
/-- A part stops with event 0x8A when COMPAT differs (Table 15.4 row 2). -/
def compatStop (s : State) : State := failStop 0x8A (post 0x8A mPartner [] s)
/-- A standby arbitrates again when its partner does after a reset (R454): rows 2 and 5 of Table 15.4. Its mirror counts no longer: the partner
sends its dump (R470). -/
def againFromStandby (differs : Bool) (s : State) : State :=
  let s := { s with ptn := { s.ptn with withheld := false, synced := false, asked := false } }
  if s.pwr.role then (if differs then compatStop s else s)
  else
    let s := if differs then post 0x8A mPartner [] s else s
    becomeActive false { s with ptn := { s.ptn with ctxs := [] }, mpd := { s.mpd with ledger := [], frames := [], parts := [] } }
/-- Table 15.4 and R667 for an ARBITRATE record with the other ROLE strap. -/
def arbitrated (r : ArbRec) (s : State) : State :=
  let differs := r.compat ≠ s.img.compat
  if s.ptn.role = 1 then
    if s.ptn.alone && s.ptn.activeIn && s.pwr.role then (if differs then compatStop s else yieldActive s)
    else
      let s := { s with ptn := { s.ptn with alone := false } }
      let s := if s.ptn.synced then loseStandby s else s
      if differs then post 0x8A mPartner [] s else s
  else if s.ptn.role = 2 then
    (if s.dev = .standby && r.state.toNat = devCode .configuring && !peerActive s r then againFromStandby differs s else s)
  else if differs && (peerActive s r || s.pwr.role) then compatStop s
  else
    let s := if differs then post 0x8A mPartner [] s else s
    if peerActive s r then becomeStandby s
    else if r.state.toNat = devCode .stopped then becomeActive false s
    else if s.pwr.role then becomeStandby s
    else becomeActive false s
/-- ARBITRATE (R455, R643, R667). A part with a settled role answers a part that is in Configuring. Hold-up goes on to Stopped whatever it hears
(R464). -/
def execArbitrate (r : ArbRec) (s : State) : Host.Outcome State Fault Refusal := live s fun s =>
  .next (
    if !ptnOn s || s.dev = .unconfigured || s.dev = .stopped then s
    else
      let s := { s with ptn := { s.ptn with heard := true, peer := some r } }
      if r.role = s.pwr.role then failStop 0x8E (post 0x8E mPartner [] s)
      else if s.dev = .holdUp || (s.dev = .configuring && s.start.step ≠ 10) then s
      else arbitrated r (if s.ptn.role ≠ 0 && r.state.toNat = devCode .configuring then sendArb s else s))
/-- ARBITRATION_TIMEOUT (R455 row 1): the part acts alone as active in Parked. -/
def execArbitrationTimeout (s : State) : Host.Outcome State Fault Refusal := live s fun s =>
  .next (if ptnOn s && s.dev = .configuring && s.start.step = 10 && !s.ptn.heard then becomeActive true s else s)
/-- STOPPED_ARBITRATE_TICK (R595). -/
def execStoppedArbitrateTick (s : State) : Host.Outcome State Fault Refusal := live s fun s => .next (if s.dev = .stopped && linkUp s 2 then sendArb s else s)

-- Resync.

/-- A block and its entry go to the standby (R303, R457). -/
def sendBlock (f : Nat) (e : LedgerEntry) (s : State) : State :=
  ptnSend (.ment [e]) (each (List.range 8) (fun fib s => ptnSend (.mdata f fib (partOf (getFrame s f) fib)) s) s)
/-- RESYNC_START (R457): contexts, deferred records and plan store, then every HELD, BUILDING and WRITTEN frame, then STEP 1. Commands that
arrived before it keep their local acknowledgement. -/
def execResyncStart (_frames : BitVec 32) (s : State) : Host.Outcome State Fault Refusal := live s fun s =>
  .next (
    if !ptnOn s || s.ptn.role ≠ 1 then s
    else
      let s := post 0x88 mPartner [] s
      let s := each (s.hop.cmds.filter fun c => c.phase ≠ .issued) (fun c s =>
        ptnSend (.cmdCtx c.port c.cap.tag (BitVec.ofNat 40 c.arrival) c.cap.opcode c.cap.lba c.cap.count) s) s
      let s := each ([0, 1].flatMap fun p => (getHopPort s p).deferred) (fun r s => ptnSend (.deferred r) s) s
      let s := each (s.fan.plan.flatMap planRecs ++ s.fan.laws.flatMap fun l => lawRecs l.1 l.2.1 l.2.2) (fun r s => ptnSend (.plan r) s) s
      let es := s.mpd.ledger.filter fun fe => landedEntry fe.2
      let s := each es (fun fe s => sendBlock fe.1 fe.2 s) s
      let s := ptnSend (.resync 1 es.length) s
      let s := { s with ptn := { s.ptn with synced := true, solo := false, resyncs := satInc 16 s.ptn.resyncs } }
      advanceHandover (recheck (post 0x89 mPartner [] s)))
/-- RESYNC_DONE (R457): the standby is SYNCED. -/
def execResyncDone (_frames : BitVec 32) (s : State) : Host.Outcome State Fault Refusal := live s fun s =>
  .next (
    if ptnOn s && s.dev = .standby && s.ptn.role = 2 then
      post 0x89 mPartner [] { s with ptn := { s.ptn with synced := true, asked := false, resyncs := satInc 16 s.ptn.resyncs } }
    else s)

-- The mirror.

/-- Arrival numbers go on above every VSEQ and arrival number seen (R296). -/
def arrivalAbove (v : BitVec 40) (s : State) : State :=
  if seqLt v (BitVec.ofNat 40 s.hop.nextArrival) then s else { s with hop := { s.hop with nextArrival := (v + 1).toNat } }
/-- This part, active and not yet Ready, takes the dump of its standby (R470). -/
def takesDump (s : State) : Bool := s.ptn.role = 1 && (s.dev = .parked || s.dev = .spinningUp || s.dev = .loading)
def mirrors (s : State) : Bool := ptnOn s && s.dev = .standby && s.ptn.role = 2
def allParts (s : State) (f : Nat) : Bool := tabGet 0 s.mpd.parts f = 0xFF
def clearParts (f : Nat) (s : State) : State := { s with mpd := { s.mpd with parts := tabDel f s.mpd.parts } }
/-- CONFIRM for a block whose eight parts and entry are here (R303, R450). -/
def confirmIf (f : Nat) (s : State) : State := if allParts s f && landedEntry (getEntry s f) then ptnSend (.confirm [f]) (clearParts f s) else s
/-- One of the eight parts of a block takes its data. -/
def putPart (fib : BitVec 3) (data : Part512) (b : Block) : Block :=
  let mask : Block := (BitVec.allOnes 32768 >>> (32768 - 4096)) <<< (4096 * fib.toNat)
  (b &&& ~~~mask) ||| ((data.setWidth 32768) <<< (4096 * fib.toNat))
/-- MDATA (R303): one part of a mirrored block, into the frame of the same number; a part of the standby's dump waits for its entry (R470). -/
def execMdata (frame : BitVec 32) (fib : BitVec 3) (data : Part512) (s : State) : Host.Outcome State Fault Refusal := live s fun s =>
  let f := frame.toNat
  .next (
    if 1048576 ≤ f then s
    else if mirrors s then
      let old := if tabGet 0 s.mpd.parts f = 0 && !(getEntry s f).valid then 0 else getFrame s f
      confirmIf f { setFrame s f (putPart fib data old) with mpd := { (setFrame s f (putPart fib data old)).mpd with parts := tabMod 0 s.mpd.parts f (· ||| (1 <<< fib.toNat)) } }
    else if takesDump s then
      let old := (s.hold.inbound.find? fun x => x.1 = f).getD (f, 0, 0)
      { s with hold := { s.hold with inbound := s.hold.inbound.filter (fun x => x.1 ≠ f) ++ [(f, old.2.1 ||| (1 <<< fib.toNat), putPart fib data old.2.2)] } }
    else s)
/-- A frame is freed at the standby at once (R304). -/
def freeMirror (f : Nat) (s : State) : State := clearParts f (setFrame (setEntry s f {}) f 0)
/-- One mirrored entry at the standby (R449, R304): a withdrawal and a superseded or releasing block free their frame. -/
def mirrorEntry (e : LedgerEntry) (s : State) : State :=
  let f := e.frame.toNat
  if !e.valid || 4 ≤ e.state.toNat then freeMirror f s else confirmIf f (setEntry (arrivalAbove e.vseq s) f e)
/-- One block of a dump (R469): it is loaded as HELD unless a version as new is here. It keeps its frame where that is free. -/
def replayBlock (area : Nat) (e : LedgerEntry) (data : Block) (s : State) : State :=
  let lba := e.lba.toNat
  if (entriesOf s lba).any fun fe => !(seqLt fe.2.vseq e.vseq) then s
  else
    let s := each (entriesOf s lba) (fun fe s => { freeMirror fe.1 s with hold := { s.hold with replayed := s.hold.replayed.filter fun p => p.1 ≠ fe.1 } }) s
    let own := e.frame.toNat
    let f := if decide (118784 ≤ own) && !(getEntry s own).valid && !(tabGet ({} : CleanFrame) s.mpd.clean own).valid then some own else freeFrame s
    match f with
    | none => s
    | some f =>
      let s := setFrame (setEntry (arrivalAbove e.vseq s) f { e with frame := BitVec.ofNat 20 f, state := 1, mirrored := false, valid := true }) f data
      { s with
        mpd := { s.mpd with dirtySince := tabSet 0 s.mpd.dirtySince f (now s) },
        hold := { s.hold with replayed := s.hold.replayed ++ [(f, area)] } }
/-- A block that a dump names and has no data of. -/
def missBlock (e : LedgerEntry) (s : State) : State := { s with hold := { s.hold with missing := s.hold.missing ++ [e] } }
/-- One block of the standby's dump at the active part (R470): the version with the highest VSEQ stays. -/
def dumpEntry (e : LedgerEntry) (s : State) : State :=
  let f := e.frame.toNat
  if !e.valid then s
  else
    let t := { s with hold := { s.hold with inbound := s.hold.inbound.filter fun x => x.1 ≠ f } }
    match s.hold.inbound.find? fun x => x.1 = f with
    | some x => if x.2.1 = 0xFF then replayBlock 2 e x.2.2 t else missBlock e t
    | none => missBlock e t
/-- MENT (R449). -/
def execMent (es : List LedgerEntry) (s : State) : Host.Outcome State Fault Refusal := live s fun s =>
  .next (if mirrors s then each es mirrorEntry s else if takesDump s then each es dumpEntry s else s)
/-- The partner has confirmed a frame: MIRRORED, and the block of the WRITE that it holds is confirmed. -/
def confirmFrame (f : Nat) (s : State) : State :=
  let e := getEntry s f
  if !e.valid then s
  else
    let s := setEntry s f { e with mirrored := true }
    let mark (c : Cmd) : Cmd :=
      let i := e.lba.toNat - c.cap.lba.toNat
      if wrote c e && !c.confirmed.contains i then { c with confirmed := c.confirmed ++ [i] } else c
    { s with hop := { s.hop with cmds := s.hop.cmds.map mark } }
/-- CONFIRM (R303, R377, R450): MIRRORED, and native writes that waited for it complete. -/
def execConfirm (frames : List (BitVec 32)) (s : State) : Host.Outcome State Fault Refusal := live s fun s =>
  .next (
    if s.ptn.role ≠ 1 then s
    else recheck (each frames (fun f s => confirmFrame f.toNat s) s))
/-- CMD_CTX (R399). -/
def execCmdCtx (p : Port) (tag : BitVec 16) (arrival : BitVec 40) (opcode : BitVec 8) (lba : BitVec 48) (count : BitVec 32) (s : State) :
    Host.Outcome State Fault Refusal := live s fun s =>
  .next (
    if mirrors s then
      let s := arrivalAbove arrival s
      { s with ptn := { s.ptn with ctxs := s.ptn.ctxs.filter (fun x => x.arrival ≠ arrival) ++ [{ port := p.num, tag, arrival, opcode, lba, count }] } }
    else s)
/-- A mirrored completion of a WRITE with GOOD acknowledges the mirrored versions of its blocks (R295, R377), which the dump of a standby then
holds (R35). -/
def ackMirror (x : MirrorCtx) (r : CplRec) (s : State) : State :=
  let inside (e : LedgerEntry) : Bool := decide (x.lba.toNat ≤ e.lba.toNat) && decide (e.lba.toNat < x.lba.toNat + x.count.toNat)
  let ack (fe : Nat × LedgerEntry) : Nat × LedgerEntry :=
    if landedEntry fe.2 && inside fe.2 && !(seqLt fe.2.vseq x.arrival) then (fe.1, { fe.2 with acked := true }) else fe
  if x.opcode = 0x02 && decide (r.status.toNat ≤ 1) then { s with mpd := { s.mpd with ledger := s.mpd.ledger.map ack } } else s
/-- PTN_CPL (R399). -/
def execPtnCpl (p : Port) (r : CplRec) (s : State) : Host.Outcome State Fault Refusal := live s fun s =>
  .next (
    if mirrors s then
      let s := each (s.ptn.ctxs.filter fun x => x.port = p.num && x.arrival = r.arrival) (fun x s => ackMirror x r s) s
      { s with ptn := { s.ptn with ctxs := s.ptn.ctxs.map fun x => if x.port = p.num && x.arrival = r.arrival then { x with cpl := some r } else x } }
    else s)
/-- CPL_ACKED (R399): the context is freed. -/
def execCplAcked (p : Port) (tag : BitVec 16) (arrival : BitVec 40) (s : State) : Host.Outcome State Fault Refusal := live s fun s =>
  .next { s with ptn := { s.ptn with ctxs := s.ptn.ctxs.filter fun x => !(x.port == p.num && x.tag == tag && x.arrival == arrival) } }
/-- PTN_ROW_COMMIT (R304, R449): the row's entries are released, and their frames are free at once. -/
def execPtnRowCommit (row : BitVec 64) (_time : Word) (s : State) : Host.Outcome State Fault Refusal := live s fun s =>
  .next (
    if mirrors s then
      each (s.mpd.ledger.filter fun fe => fe.2.valid && (fe.2.state = 2 || fe.2.state = 3) && fe.2.row.toNat = row.toNat) (fun fe s => freeMirror fe.1 s) s
    else s)
/-- The rebuild record of a failed head. -/
def eachRebuild (a h : Fin 8) (f : Rebuild → Rebuild) (s : State) : State :=
  { s with layout := { s.layout with rebuilds := s.layout.rebuilds.map fun b => if b.state ≠ 0 && b.arm = a.val && b.head = h.val then f b else b } }
/-- A LAYOUT record in the layout tables (R450). A run of COUNT 0 is no run (Table 2.3) and is not entered (log entry 55). -/
def putLayout (r : LayoutRec) (s : State) : State :=
  match r with
  | .defect d =>
    let same (e : DefectEntry) : Bool := e.arm == d.arm && e.head == d.head && e.row == d.row && e.track == d.track && e.slot == d.slot
    { s with layout := { s.layout with defects := s.layout.defects.filter (fun e => !same e) ++ (if d.valid then [d] else []) } }
  | .run x => if x.count = 0 then s else { s with layout := enterRun s.img x s.layout }
  | .failedHead a h =>
    let s := if s.layout.failedHeads.contains (a.val, h.val) then s else { s with layout := freeRebuild a.val h.val { s.layout with failedHeads := s.layout.failedHeads ++ [(a.val, h.val)] } }
    modHead s (8 * a.val + h.val) fun x => { x with failed := true }
  | .cursor a h q => eachRebuild a h (fun b => { b with
      cursor := q.toNat, savedCursor := q.toNat, state := if s.img.q ≤ q.toNat && b.skip.isEmpty then 2 else 1 }) s
  | .skipped a h q listed => eachRebuild a h (fun b =>
      let skip := if listed then b.skip.filter (· ≠ q.toNat) ++ [q.toNat] else b.skip.filter (· ≠ q.toNat)
      { b with skip, savedSkip := skip }) s
/-- PTN_LAYOUT (R450). -/
def execPtnLayout (r : LayoutRec) (s : State) : Host.Outcome State Fault Refusal := live s fun s =>
  .next (if mirrors s || takesDump s then putLayout r s else s)
/-- A whole value or law of PLAN records enters the plan store. -/
def keepPlan (r : PlanRec) (pieces : List Int) (s : State) : State :=
  if r.kind = 11 then
    let laws := s.fan.laws.filter (fun l => l.1 ≠ r.loc.zone) ++ [(r.loc.zone, r.second.toNat, pieces.map fun x => BitVec.ofInt 256 x)]
    { s with fan := { s.fan with laws, planDigest := s.img.digest } }
  else
    let image := imageVal s r.kind r.loc
    let value := if r.parts = 1 then r.value else (pieces.zipIdx.map fun (x : Int × Nat) => x.1 * 2 ^ (256 * x.2)).sum
    let v : PlanVal := { kind := r.kind, loc := r.loc, value, second := r.second, image := image.1, image2 := image.2 }
    { s with fan := { s.fan with plan := s.fan.plan.filter (fun x => !sameLoc v.kind v.loc x) ++ [v], planDigest := s.img.digest } }
/-- PTN_PLAN (R441, R450): a value of several records is kept once all are here. -/
def execPtnPlan (r : PlanRec) (s : State) : Host.Outcome State Fault Refusal := live s fun s =>
  .next (
    if !mirrors s then s
    else if r.trend then storePoint r.kind r.loc r.day r.value r.samples s
    else
      let here := s.fan.parts.filter (fun x => x.kind ≠ r.kind || x.loc ≠ r.loc || (x.part ≠ r.part && x.parts = r.parts && x.second = r.second)) ++ [r]
      let mine := here.filter fun x => x.kind = r.kind && x.loc = r.loc
      let piece (k : Nat) : Int := ((mine.find? fun x => x.part = k).map (·.value)).getD 0
      if !((List.range r.parts).all fun k => mine.any fun x => x.part = k) then { s with fan := { s.fan with parts := here } }
      else keepPlan r ((List.range r.parts).map piece) { s with fan := { s.fan with parts := here.filter fun x => x.kind ≠ r.kind || x.loc ≠ r.loc } })
/-- COUNT of a deferred record is in its range (R9, Table 12.10). -/
def deferredOk (r : DeferredRec) : Bool := decide (1 ≤ r.count.toNat) && decide (r.count.toNat ≤ 65536)
/-- COUNT of a LAYOUT record's run is in its range (R9, Table 2.3). -/
def layoutOk : LayoutRec → Bool
  | .run x => x.count ≠ 0
  | _ => true
/-- PTN_DEFERRED (R450, R460): a record that is here already takes its new form; one whose COUNT is outside 1 to 65,536 (Table 12.10) is not kept (log entry 55).
One for a missing index chunk of the standby's dump becomes a record of the active part (R470, log entry 61). -/
def execPtnDeferred (r : DeferredRec) (s : State) : Host.Outcome State Fault Refusal := live s fun s =>
  .next (
    if mirrors s && deferredOk r then
      storeDeferred r { s with hop := { s.hop with nextDeferred := max s.hop.nextDeferred ((r.index.toNat + 1) % 2 ^ 32) } }
    else if takesDump s && deferredOk r then addDeferred (lostRecord r.portB r.count.toNat) s
    else s)

-- Lost frames.

/-- FETCH_REQUEST (R306): the block is sent again as MDATA after a reply record. -/
def execFetchRequest (frame : BitVec 32) (vseq : BitVec 40) (s : State) : Host.Outcome State Fault Refusal := live s fun s =>
  let f := frame.toNat
  .next (
    if ptnOn s && (getEntry s f).valid && (getEntry s f).vseq = vseq then
      each (List.range 8) (fun fib s => ptnSend (.mdata f fib (partOf (getFrame s f) fib)) s) (ptnSend (.fetch 1 f vseq) s)
    else s)
/-- FETCH_REPLY (R306): the partner's copy replaces the lost block. -/
def execFetchReply (frame : BitVec 32) (vseq : BitVec 40) (data : Block) (s : State) : Host.Outcome State Fault Refusal := live s fun s =>
  let f := frame.toNat
  .next (
    if s.ptn.fetches.contains (f, vseq.toNat) then
      let s := { s with ptn := { s.ptn with fetches := s.ptn.fetches.filter (· ≠ (f, vseq.toNat)) } }
      if (getEntry s f).valid && (getEntry s f).vseq = vseq then
        recheck (each (s.hop.cmds.map (·.arrival)) pumpRead (setFrame s f data))
      else s
    else s)

-- Planned handover.

/-- HANDOVER_REQUEST (R461). -/
def execHandoverRequest (reason : BitVec 8) (s : State) : Host.Outcome State Fault Refusal := live s fun s =>
  .next (
    if !ptnOn s then s
    else if s.ptn.role = 1 then (if s.dev = .ready && s.ptn.synced && s.ptn.handStage = 0 then advanceHandover (beginHandover reason s) else s)
    else { s with ptn := { s.ptn with handover := 0, handoverReason := reason, requested := true } })
/-- HANDOVER_RELEASED (R461 step 4): the standby runs R458 at once. -/
def execHandoverReleased (reason : BitVec 8) (s : State) : Host.Outcome State Fault Refusal := live s fun s =>
  .next (
    if !ptnOn s || s.dev ≠ .standby || s.ptn.role ≠ 2 then s
    else
      let s := { s with ptn := { s.ptn with handover := 1, handoverReason := reason, released := true, activeIn := false } }
      if s.ptn.synced then takeover true s else post 0x8B mPartner [] s)
/-- HANDOVER_ACTIVE (R461 step 5): the HANDOVER command completes. -/
def execHandoverActive (reason : BitVec 8) (s : State) : Host.Outcome State Fault Refusal := live s fun s =>
  .next (
    if !ptnOn s || s.ptn.handStage ≠ 3 then s
    else
      let s := { s with ptn := { s.ptn with handover := 2, handoverReason := reason, handStage := 0, handovers := satInc 16 s.ptn.handovers } }
      let s := post 0x87 mPartner [] s
      each ((s.hop.cmds.filter fun c => c.cap.opcode = 0x50 && c.phase = .running).map (·.arrival)) (fun arr s => complete arr 0 0 s) s)

end Sys2Proof.Machine
end

