-- ==== Sys2Proof/Machine/Start.lean ====
section
/-! DEFINITION. Start-up (chapter 19): the release of a reset and the steps of Table 19.1 (R547, R585, R590–R598, R614), the steps of a standby
that loads a committed image (R462), replay and retirement of dumps (R469, R470, R601), and the entry to Ready. -/

namespace Sys2Proof.Machine

-- Steps 1 to 5.

/-- A start step fails and the part stops (R590). -/
def startStop (step : Nat) (cause : BitVec 8) (s : State) : State := failStop cause (startFail step cause.toNat s)
def atStep (n : Nat) (s : State) : State := { s with start := { s.start with step := n } }
/-- A failed element and the spare that replaces it: the k-th in service gets the k-th lowest good spare (Table 19.2). -/
def spareFor (failed spares : List Nat) (e : Nat) : Option Nat := (failed.findIdx? (· = e)).bind fun k => spares[k]?
/-- Step 2 (Table 19.2, R593): elements in event 0x0A are an island i, or an engine 0x80 + e (log entry 26). `none` when the part must stop. -/
def bist (o : StartObs) (s : State) : Option State :=
  let isl := (o.bistIslands.map (·.val)).eraseDups.mergeSort
  let eng := (o.bistEngines.map (·.val)).eraseDups.mergeSort
  let badI := isl.filter (· < 64)
  let badE := eng.filter (· < 96)
  let goodI := [64, 65, 66, 67].filter fun k => !isl.contains k
  let goodE := [96, 97, 98, 99].filter fun k => !eng.contains k
  let s := each isl (fun (i : Nat) s => post 0x0A mStart [b1 i, b1 ((spareFor badI goodI i).getD 0xFF)] (modIsl s i fun k => { k with failed := true, state := 5 })) s
  let s := each eng (fun (e : Nat) s => post 0x0A mStart [b1 (0x80 + (e : Int)), b1 ((spareFor badE goodE e).getD 0xFF)] (modEngine s e fun k => { k with failed := true })) s
  let s := { s with bol := { s.bol with spareMap := badE.filterMap fun e => (spareFor badE goodE e).map fun k => (k - 96, e) } }
  if goodI.length < badI.length || goodE.length < badE.length || o.bistOther || !o.romOk then none else some s

/-- A physical block is erased: its sectors, its flag and its page order (R488). -/
def blankBlock (blk : Nat) (s : State) : State :=
  let bank := blk / 512
  let s := match (mappedBlocks s bank).find? fun m => m.2.2 = blk % 512 with
    | some (kind, rb, _) =>
      let r := (regionOf s kind).getD {}
      { s with fls := { s.fls with sectors := s.fls.sectors.filter fun x => !(blockSectors s r bank rb x.1) } }
    | none => s
  modBlk s blk fun d => { d with eraseCount := d.eraseCount + 1, flag := false, nextPage := 0, closed := false, refreshDue := false, torn := 0 }
/-- Step 4: every block whose flag is set is erased again, event 0x90; one that fails is retired (R489, R495). -/
def flagSweep (o : StartObs) (s : State) : State :=
  each ((s.fls.blocks.filter fun b => b.2.flag).map (·.1)) (fun blk s =>
    let s := post 0x90 mFlash [] { s with fls := { s.fls with halfErase := satInc 8 s.fls.halfErase } }
    if o.reeraseFail.contains (blk / 512, blk % 512) then
      match (mappedBlocks s (blk / 512)).find? fun m => m.2.2 = blk % 512 with
      | some (kind, rb, _) => retireBlock kind (blk / 512) rb s
      | none => post 0x95 mFlash [] (modBlk { s with fls := { s.fls with retiredCnt := satInc 8 s.fls.retiredCnt } } blk fun d => { d with retired := true, flag := false })
    else blankBlock blk s) s

/-- INDEX with which the tally goes on (R533). -/
def firstIndex (s : State) : Nat := match (s.evt.written.filter fun r => !r.pad).getLast? with
  | some r => r.index + 1
  | none => s.evt.released
/-- Step 5 (R533, R592): the tally starts, and the staged events get their numbers; then the reset and the faults before it (R589, R610,
R618). -/
def startTally (absent : Nat) (s : State) : State :=
  let total := ((regionOf s 5).map (·.blocks)).getD 0
  let first := firstIndex s
  let staged := s.evt.staging
  let w := s.evt.written ++ List.replicate (16 * absent) padRecord
  let fill := s.evt.blockFill + 16 * absent
  let free := total - 1 - (w.length - fill) / blockRecords
  let s := { s with evt := { s.evt with
    running := true, staging := [], stagedSince := none, next := first, written := w, blockFill := fill, freeBlocks := free,
    full := if total * blockRecords ≤ w.length then 2 else if free = 0 then 1 else 0 } }
  let s := post 0xF0 mTally [b8 s.idn.boot, b8 first] s
  let s := if absent = 0 then s else post 0xF3 mTally [b8 absent] s
  let s := each staged takeEvent s
  let s := post 0x06 mStart [b1 (b2n s.aon.cause), b1 (devCode s.aon.prevState), b1 (b2n s.aon.prevDirty)] s
  let s := if s.aon.clockFaultPending then post 0x0B mPower [b1 s.aon.faultKind] s else s
  let s := if s.aon.supplyFaultPending then post 0x1B mPower [b1 s.aon.faultRail] s else s
  { s with aon := { s.aon with clockFaultPending := false, supplyFaultPending := false } }
/-- Steps 4 and 5. -/
def sweepAndTally (o : StartObs) (s : State) : State :=
  let s := atStep 5 (flagSweep o (atStep 4 s))
  let s := { s with fls := { s.fls with state := 3 } }
  if o.tallyOk then startTally o.tallyAbsent s
  else startFail 5 0x07 { s with evt := { s.evt with full := 2 } }

-- Step 6: the image.

/-- A copy is invalid (R580): event 0x02 and IDN_CFG_FAIL. -/
def copyInvalid (b : Bool) (step : Nat) (off : Option Nat) (s : State) : State :=
  let o := off.getD 0
  let s := if b then { s with img := { s.img with stepB := step, offB := o } } else { s with img := { s.img with stepA := step, offA := o } }
  post 0x02 mNvm [b1 (b2n b), b1 step, b8 o] s
/-- The copy that is tried first (R547). -/
def firstCopy (s : State) : Bool :=
  let a := headerReads s.nvm false
  let b := headerReads s.nvm true
  b && (!a || decide (headerGen s.nvm false < headerGen s.nvm true))
/-- The governor's contexts and section store take the image's values (R566, R567). -/
def loadGovernor (i : Image) (s : State) : State :=
  let k := (imgBin i 0x23 0).length / 32
  let store := (List.range k).foldl (fun t e => tabSet 0 t e (BitVec.ofNat 256 (imgAt i 0x23 0 (32 * e) 32))) []
  let s := { s with gov := { s.gov with store, burst := wedgeBurst i } }
  each ((List.range 139).filter (ctxFitted i)) (fun n s =>
    let w := imgAt i 0x24 0 (32 * n) 32
    modCtx s n fun c => { c with
      nServ := bitsOf 253 249 w, servBase := bitsOf 248 238 w, deadline := bitsOf 225 210 w, inSign := bitOf 208 w, outMax := signedOf 32 (bitsOf 191 160 w), outMin := signedOf 32 (bitsOf 159 128 w), ramp := bitsOf 127 96 w, swLimit := bitsOf 95 80 w, swCount := bitsOf 79 64 w, setpoint := signedOf 32 (bitsOf 63 32 w) }) s
/-- Every fitted head that has not failed gets its island: 8a + h, or the spare that stands in from the start (R100, Table 19.2). A head keeps
the island that it has. -/
def assignIslands (s : State) : State :=
  let bad := (List.range 64).filter fun i => (getIsl s i).failed
  let good := [64, 65, 66, 67].filter fun i => !(getIsl s i).failed
  each ((List.range 64).filter (headFitted s.img)) (fun n s =>
    let failed := s.layout.failedHeads.contains (n / 8, n % 8)
    let i := (spareFor bad good n).getD n
    if failed then modHead s n fun h => { h with failed := true }
    else handServo n <| if (getIsl s (getHead s n).island).assigned && 8 * (getIsl s (getHead s n).island).arm + (getIsl s (getHead s n).island).head = n then s
    else modIsl (modHead s n fun h => { h with island := i }) i fun k => { k with assigned := true, arm := n / 8, head := n % 8, state := 1 }) s
/-- Load a valid copy (R547, R573, R585): events 0x01 and 0x03. -/
def loadImage (i : Image) (s : State) : State :=
  let old := s.img
  let s := { s with
    img := { i with stepA := old.stepA, offA := old.offA, stepB := old.stepB, offB := old.offB },
    start := { s.start with imageLoaded := true }, spn := { s.spn with rEst := 10 * rPh i }, fls := { s.fls with plan := some (s.fls.plan.getD (planOf i)) } }
  let s := post 0x01 mNvm [b1 (b2n i.copyB), b8 i.gen, b8 i.imageVer.toNat] s
  let s := if i.unsigned then post 0x03 mNvm [] s else s
  assignIslands (loadGovernor i s)
/-- Try the copies in the order of R547; `none` when both fail. -/
def selectImage (s : State) : State × Bool :=
  let b := firstCopy s
  match validateCopy s.fuses s.fls.plan s.nvm b with
  | .good i => (loadImage i s, true)
  | .bad st off =>
    let s := copyInvalid b st off s
    match validateCopy s.fuses s.fls.plan s.nvm !b with
    | .good i => (loadImage i s, true)
    | .bad st off => (copyInvalid (!b) st off s, false)

-- Steps 7 to 10.

/-- Step 7 (R283, R285): physical channels that trained serve the logical ones in rising order; the named spare stays spare when all pass. -/
def trainMillpond (good : List Nat) (s : State) : State :=
  let all := decide (good.length = 9)
  let spare := spareCh s.img
  let serve := (good.filter fun p => !all || p ≠ spare).take 8
  let s := each (List.range 9) (fun p s => modChan s p fun m =>
    if !good.contains p then { m with role := 5, trained := false }
    else match serve.findIdx? (· = p) with
      | some l => { m with role := 1, logical := l, trained := true }
      | none => { m with role := 2, trained := true }) s
  { s with mpd := { s.mpd with state := 2, spare := if all then spare else 15, spareTestAt := now s } }

/-- An area is erased and recorded as armed (R465, R496, R598, R601): event 0x17. -/
def armArea (k : Nat) (s : State) : State :=
  let s := modArea k (fun _ => { armed := true }) (eraseRegion (3 + k) s)
  post 0x17 mPower [] { s with hold := { s.hold with area := if s.hold.areaOk then s.hold.area else k, areaOk := true } }
def areaOf (s : State) (k : Nat) : DumpArea := s.hold.areas.toList.getD k {}
/-- Step 8 (R596–R598); `none` when a dump's COMPAT differs. -/
def readDumpHeaders (s : State) : Option State :=
  let held := ([0, 1].filter fun k => (areaOf s k).unretired).mergeSort fun a b => decide ((areaOf s a).dumpId.toNat ≤ (areaOf s b).dumpId.toNat)
  if held.any fun k => (areaOf s k).compat ≠ s.img.compat then none
  else
    let s := each ([0, 1].filter fun k => !(areaOf s k).unretired && !(areaOf s k).armed) armArea s
    let ready := [0, 1].find? fun k => (areaOf s k).armed
    some { s with hold := { s.hold with
      replay := held, toRead := held, area := ready.getD 0, areaOk := ready.isSome, state := if ready.isSome then 1 else 0 } }

/-- Step 10 and the end of Configuring: arbitration when a partner is configured, else Parked with ACTIVE_OUT asserted and the arms claimed. -/
def finishStart (s : State) : State :=
  if s.dev ≠ .configuring || s.start.step ≠ 9 || (armList s).any (fun a => !alkUp s a) then s
  else if ptnOn s then
    let s := atStep 10 s
    let s := if linkUp s 2 then sendArb s else s
    match s.ptn.peer with
    | some r => arbitrated r s
    | none => s
  else
    let s := claimArms false (leaveConfiguring s)
    enterParked { s with ptn := { s.ptn with activeOut := true }, start := { s.start with step := 0 } }
/-- Steps 6 to 9. -/
def configure (o : StartObs) (s : State) : State :=
  let tallyLate := s.fls.plan.isNone
  let s := atStep 6 { s with nvm := { s.nvm with present := o.nvmOk } }
  let (s, ok) := selectImage s
  if !ok then startStop 6 0x05 (post 0x05 mNvm [] s)
  else
    let s := if tallyLate then atStep 6 (sweepAndTally o s) else s
    let good := (o.millpond.map (·.val)).eraseDups.mergeSort
    let s := atStep 7 s
    if good.length < 8 then startStop 7 0x07 s
    else
      let s := atStep 8 (trainMillpond good s)
      if !o.dumpOk then startStop 8 0x19 s
      else match readDumpHeaders s with
        | none => startStop 8 0x19 (post 0x19 mStart [] s)
        | some s =>
          let s := each (armList s) (fun a s => modAlk s a fun k => { k with link := 1 }) (atStep 9 s)
          each [0, 1, 2] (fun l s => if linkEnabled s l && (getLink s l).link = 0 then modLink s l fun k => { k with link := 1 } else s) s
/-- RESET_RELEASE (R590, R613, R614, R642, Table 19.1): the steps up to the training of the arm links, whose IDENTITY ends step 9. -/
def execResetRelease (o : StartObs) (s : State) : Host.Outcome State Fault Refusal :=
  .next (
    if !s.start.inReset || s.start.powerOnReset then s
    else
      let s := { s with
        start := { s.start with inReset := false, releasedAt := now s, step := 1 }, pwr := { s.pwr with tmode := o.tmode, role := o.role }, idn := { s.idn with boot := (s.idn.boot + 1) % 65536 } }
      if o.tmode then { s with start := { s.start with step := 0 } }
      else if !o.pllOk then startFail 1 0x07 s
      else
        let s := atStep 2 { s with
          clk := { s.clk with refclkOk := true, coreLock := true, laneLock := 0x7FF }, pwr := { s.pwr with target := 800, src := 0 }, start := { s.start with romOk := o.romOk } }
        match bist o s with
        | none => startStop 2 0x07 s
        | some s =>
          let s := atStep 3 s
          let b := s.fls.selectedB
          let sel := if b then o.ucodeB else o.ucodeA
          let oth := if b then o.ucodeA else o.ucodeB
          if !o.dirOk then startStop 3 0x9D (post 0x9D mFlash [] { s with fls := { s.fls with state := 5 } })
          else if !sel && !oth then startStop 3 0x07 s
          else
            let use := if sel then b else !b
            let s := if sel then s else post 0x98 mFlash [] s
            let s := { s with
              fls := { s.fls with state := 2, ucodeB := use, ucodeOtherOk := sel && oth }, idn := { s.idn with ucodeVer := if use then o.ucodeVerB else o.ucodeVerA, romVer := Config.romVersion } }
            let s := atStep 4 { s with dev := .configuring }
            configure o (if s.fls.plan.isNone then s else sweepAndTally o s))
/-- The link is up once TIME_SET, TELEM_SET and LANE_MAP are acknowledged (Table 3.9); the last arm link ends step 9. -/
def linkSettled (a : Nat) (s : State) : State :=
  let k := getAlk s a
  if k.settling && !(k.unacked.any fun x => x.1.type = 0x0C || x.1.type = 0x0D || x.1.type = 0x0E) then
    let s := modAlk s a fun k => { k with link := 2, settling := false, attempting := false, idle := false, attempts := 0, retrain := false }
    finishStart (closeCause 0x7B a (alkCondition a 0x78 8 false s))
  else s
/-- ACK_TELEMETRY (R83, R87, R90, Table 3.3): the message is answered. A CLAIM answered OK makes the part the owner, NOT_OWNER does not;
a LANE_MAP answered ends the swap; a message that found its table full (FULL) is sent again under its SEQ and waits on, and one that is answered
with an error is dropped (log entry 42). -/
def execAckTelemetry (arm : Fin 8) (word : Word) (s : State) : Host.Outcome State Fault Refusal := live s fun s =>
  let seq := bitsOf 50 40 word.toNat
  let status := bitsOf 3 0 word.toNat
  .next (
    match (getAlk s arm).unacked.find? fun m => m.1.seq = seq with
    | none => s
    | some (m, again) =>
      let s := modAlk s arm fun k => { k with unacked := k.unacked.filter fun x => x.1.seq ≠ seq }
      let s := if m.type = 0x0F then
          (if status = 0 || status = 1 || status = 6 then modAlk s arm fun k => { k with owner := 1 } else modAlk s arm fun k => { k with owner := 0 })
        else if m.type = 0x0E && (getAlk s arm).link = 3 then modAlk s arm fun k => { k with link := 2 }
        else s
      if m.type = 0x0F && status = 5 && s.dev = .takeover then failStop 0x7C (alkCondition arm 0x7C 8 false s)
      else if status = 2 then alkPut arm m (modAlk s arm fun k => { k with unacked := k.unacked ++ [(m, again)] })
      else linkSettled arm s)

/-- IDENTITY (R93, R94): the check, after which TIME_SET, TELEM_SET and LANE_MAP go out. -/
def execIdentity (arm : Fin 8) (word : Word) (s : State) : Host.Outcome State Fault Refusal := live s fun s =>
  let s := modAlk s arm fun k => { k with ident := some word, fzaPort := word.getLsbD 19 }
  .next (
    if (getAlk s arm).waitIdentity then
      if bitsOf 47 32 word.toNat = Config.fza816Code.toNat ∧ s.img.heads ≤ bitsOf 23 20 word.toNat then
        sendLaneMap arm true (getAlk s arm).upOut (getAlk s arm).dnOut (sendTelemSet arm (sendTimeSet arm (modAlk s arm fun k => { k with waitIdentity := false, settling := true })))
      else alkTrainFailed arm s
    else s)
/-- A standby runs Configuring again from what has been committed (R462, R498, R583): its links stay up, and it arbitrates anew. -/
def reconfigure (s : State) : State :=
  let s := atStep 6 { s with
    dev := .configuring, ptn := { s.ptn with role := 0, synced := false, peer := none, heard := false, asked := false, seen := 0 } }
  let (s, ok) := selectImage s
  if !ok then startStop 6 0x05 (post 0x05 mNvm [] s) else finishStart (atStep 9 s)

-- Replay.

/-- Read one dump (R469, R470): its commit records, its blocks, and one deferred record on each port for the blocks of a missing index chunk. -/
def replayArea (k : Nat) (unreadable : List Nat) (s : State) : State :=
  let a := areaOf s k
  let s := each (dumpLayout a unreadable) putLayout s
  let s := each (dumpBlocks a unreadable) (fun b s => match b.2 with | some x => replayBlock k b.1 x s | none => missBlock b.1 s) s
  each (lostCounts a unreadable) (fun n s => each [false, true] (fun p s => addDeferred (lostRecord p n) s) s) s
/-- Blocks that no dump has given are lost (R470), with event 0x16: cause 2 on the port of the entry where its native WRITE had completed with GOOD
(R388, R390). -/
def settleMissing (s : State) : State :=
  let lost := s.hold.missing.filter fun e => !((entriesOf s e.lba.toNat).any fun fe => !(seqLt fe.2.vseq e.vseq))
  let s := { s with hold := { s.hold with missing := [], lostBlocks := satAdd 20 s.hold.lostBlocks lost.length } }
  let s := each lost (fun e s => if e.acked && !e.compat then raiseDeferred e.portB 2 e.lba.toNat e.vseq.toNat e.tag s else listBlock e.lba.toNat s) s
  if lost.isEmpty then s else post 0x16 mStart [b8 lost.length] s
/-- REPLAY_READ_DONE (R469, R596): dumps in rising order of DUMP_ID; after the last the drain begins. -/
def execReplayReadDone (area : Fin 2) (unreadable : List Nat) (s : State) : Host.Outcome State Fault Refusal := live s fun s =>
  .next (
    if s.dev ≠ .loading || s.hold.toRead.head? ≠ some area.val then s
    else
      let s := replayArea area unreadable s
      let s := { s with hold := { s.hold with toRead := s.hold.toRead.drop 1 } }
      if s.hold.toRead.isEmpty then
        settleMissing { s with start := { s.start with replayRead := true, step := 16 }, hold := { s.hold with state := 6 } }
      else s)
/-- DUMP_RETIRE (R601): every block replayed from it has committed or been superseded. A standby retires what its partner has drained. -/
def execDumpRetire (area : Fin 2) (s : State) : Host.Outcome State Fault Refusal := live s fun s =>
  let k := area.val
  .next (
    if s.ptn.role = 2 then
      let a := areaOf s k
      let held := a.chunks.any fun c => match c.2 with
        | .data bs => bs.any fun b => (entriesOf s b.1.lba.toNat).any fun fe => fe.2.vseq = b.1.vseq
        | _ => false
      if s.dev = .standby && s.ptn.synced && a.unretired && !held then armArea k { s with hold := { s.hold with replay := s.hold.replay.filter (· ≠ k), toRead := s.hold.toRead.filter (· ≠ k) } } else s
    else if s.hold.replay.contains k && s.start.replayRead && !s.hold.replayed.any (fun p => p.2 = k) then
      let s := armArea k { s with hold := { s.hold with replay := s.hold.replay.filter (· ≠ k) } }
      if s.hold.replay.isEmpty then post 0x15 mStart [] { s with hold := { s.hold with state := 1 } } else s
    else s)

-- Entry to Ready.

/-- What Loading and Takeover wait for (R23, R458, R600, R601): a dump is retired once its blocks are settled, and its erase may go on in Ready.
A takeover waits for no speed window (Table 15.5). -/
def mayEnterReady (s : State) : Bool :=
  !(armList s).isEmpty && ((armList s).all fun a => (getArm s a).state = 5) && loopsInService s && s.hold.areaOk &&
    (if s.dev = .takeover then s.ptn.resumed
     else s.spn.window && s.hold.toRead.isEmpty && s.hold.replayed.isEmpty && s.start.replayRead && (!ptnOn s || (s.ptn.heard && !s.ptn.alone)))
/-- LOADING_COMPLETE (R456, R458, R461, R601, R607). -/
def execLoadingComplete (s : State) : Host.Outcome State Fault Refusal := live s fun s =>
  .next (
    if !((s.dev = .loading || s.dev = .takeover) && mayEnterReady s) then s
    else
      let taken := s.dev = .takeover
      let s := settleMissing s
      let s := if s.ptn.synced then s else enterSolo s
      let s := enterReady { s with start := { s.start with step := 18 } }
      let t := since s s.start.releasedAt
      let s := if s.start.everReady then s else { s with start := { s.start with everReady := true, tReady := min (2 ^ 24 - 1) (t / oneMs) } }
      let s := post 0x08 mStart [b8 t] s
      if !taken then s
      else if s.ptn.planned then
        post 0x87 mPartner [] (ptnSend (.handover 2 s.ptn.handoverReason) { s with ptn := { s.ptn with
          planned := false, handover := 2, handovers := satInc 16 s.ptn.handovers } })
      else post 0x84 mPartner [b8 (since s (s.ptn.takeoverAt.getD (now s)))] s)

end Sys2Proof.Machine
end

