-- ==== Sys2Proof/Machine/Flags.lean ====
section
/-! DEFINITION. The status registers of the diagnostic space as the state shows them (R649, R653): every register of Table 22.1's blocks with
its fields, read only from the state. Writing them is in `Machine/Diag.lean`. -/

namespace Sys2Proof.Machine

/-- A register from its fields, each as (highest bit, lowest bit, value). -/
def pack (fs : List (Nat × Nat × Int)) : Word :=
  fs.foldl (fun w f => w ||| (BitVec.ofNat 64 (twos (f.1 + 1 - f.2.1) f.2.2) <<< f.2.1)) 0
/-- One flag as a field. -/
def flag (k : Nat) (b : Bool) : Nat × Nat × Int := (k, k, b2n b)
/-- Index of an address in a file of `n` registers. -/
def regIdx (base stride n a : Nat) : Option Nat :=
  if base ≤ a ∧ (a - base) % stride = 0 ∧ (a - base) / stride < n then some ((a - base) / stride) else none

-- Identity (Tables 18.12, 19.7, 22.6).

/-- Seconds that an unlock still runs, rounded up. -/
def unlockLeft (s : State) (u : Unlock) : Nat := match u.until_ with
  | some t => ceilDiv (t - now s) oneSec
  | none => 0
/-- An unlock stands until its row ends it (R389). -/
def unlocked (_s : State) (u : Unlock) : Bool := u.until_.isSome
/-- Step code of R607. -/
def stepCode (s : State) : Nat :=
  if s.start.inReset then 0
  else match s.dev with
    | .parked => 10
    | .standby => 20
    | .ready => if 1 ≤ s.start.parkStep ∧ s.start.parkStep ≤ 4 then 21 else if s.start.parkStep = 5 then 22 else 18
    | _ => s.start.step

/-- IDN registers: identity (R662, Table 22.6), the image (R586, Table 18.12) and the start (R607, Table 19.7). -/
def regIdn (s : State) (a : Nat) : Option Word :=
  if a = 0x00 then some (pack [(63, 48, s.idn.part.toNat), (47, 40, s.idn.stepLetter.toNat), (39, 32, s.idn.stepDigit.toNat), (31, 0, s.idn.idcode.toNat)])
  else if a = 0x08 then some s.idn.serial
  else if a = 0x10 then some (pack [(63, 32, s.idn.ucodeVer.toNat), (31, 0, s.idn.romVer.toNat)])
  else if a = 0x18 then some (pack [
    flag 63 (unlocked s s.diag.unlockA), flag 62 (unlocked s s.diag.unlockB), flag 61 (unlocked s s.diag.unlockJ),
    (59, 40, unlockLeft s s.diag.unlockA), (39, 20, unlockLeft s s.diag.unlockB), (19, 0, unlockLeft s s.diag.unlockJ)])
  else if a = 0x20 then some (pack [
    flag 63 s.img.loaded, flag 62 s.img.copyB, flag 61 s.img.unsigned, flag 60 (!s.fuses.openBlown), flag 59 s.fuses.keyHash.isSome,
    flag 58 s.img.pendingCommit, (31, 0, s.img.gen)])
  else if a = 0x28 then some (pack [(63, 60, s.img.stepA), (59, 32, s.img.offA), (31, 28, s.img.stepB), (27, 0, s.img.offB)])
  else if a = 0x30 then some (pack [
    (63, 59, stepCode s), (58, 54, s.start.failStep), (53, 46, s.start.failEvent), flag 45 s.aon.cause, (44, 41, devCode s.aon.prevState),
    flag 40 s.aon.prevDirty, (39, 24, s.idn.boot), (23, 0, s.start.tReady)])
  else if a = 0x38 then some (pack [(63, 48, s.idn.denied), (47, 32, s.idn.writes), (31, 16, s.idn.ue), (15, 0, s.idn.unlockFail)])
  else if a = 0x40 then some (pack [flag 63 s.fuses.unlockKey.isSome, flag 62 s.fuses.keyHash.isSome, flag 61 s.fuses.openBlown])
  else none

-- Clocks and supplies (Tables 15.14, 20.2, 20.6 to 20.8, 21.13).

/-- No head is loaded on any arm. -/
def noneLoaded (s : State) : Bool := !((List.range 8).any (armLoaded s))
def quietState (s : State) : Bool := s.dev = .holdUp || s.dev = .stopped
/-- A domain is clocked (Table 20.2, R610). -/
def domainRuns (s : State) (d : Nat) : Bool :=
  if d = 97 then true
  else if s.start.inReset || s.start.clocksStopped then false
  else if d < 68 then (getIsl s d).assigned && armLoaded s (getIsl s d).arm && !(getIsl s d).failed
  else if d < 76 then decide (d - 68 < s.img.arms) && (getAlk s (d - 68)).link ≠ 4 && !(quietState s)
  else if d < 85 then (getChan s (d - 76)).role ≠ 0 && (getChan s (d - 76)).role ≠ 5
  else if d < 87 then s.start.imageLoaded && (portEn s.img).testBit (d - 85)
  else if d = 87 then ptnOn s
  else if d < 92 then s.dev ≠ .unconfigured
  else if d = 92 then !(noneLoaded s) && !(quietState s)
  else decide (d < 100)
/-- A domain is held in reset (R614, R615). -/
def domainHeld (s : State) (d : Nat) : Bool :=
  if d = 97 then false
  else if s.start.inReset || s.start.clocksStopped then true
  else
    let late (n : Nat) : Bool := (s.dev = .unconfigured || s.dev = .configuring) && decide (s.start.step < n)
    if d < 68 then late 2 || (getIsl s d).failed || (decide (64 ≤ d) && !(getIsl s d).assigned)
    else if d < 76 then late 9 || (getAlk s (d - 68)).link = 4
    else if d < 85 then late 7 || (getChan s (d - 76)).role = 5
    else if d < 88 then late 9 || (getLink s (d - 85)).link = 4
    else if d < 92 then late 4
    else if d = 92 then late 2
    else if d = 95 then late 9
    else false
def bitsWord (n : Nat) (f : Nat → Bool) : Word := pack ((List.range n).map fun k => flag k (f k))

/-- CLK and PWR registers (R626 to R629, R648, R476: Tables 20.6 to 20.8, 21.13 and 15.14). -/
def regClk (s : State) (a : Nat) : Option Word :=
  if a = 0x10000 then some (pack [flag 63 s.clk.refclkOk, flag 62 s.clk.coreLock, (61, 51, s.clk.laneLock.toNat), (15, 0, s.clk.laneLoss)])
  else if a = 0x10008 then some (bitsWord 64 (domainRuns s))
  else if a = 0x10010 then some (bitsWord 36 fun k => domainRuns s (64 + k))
  else if a = 0x10018 then some (bitsWord 64 (domainHeld s))
  else if a = 0x10020 then some (bitsWord 36 fun k => domainHeld s (64 + k))
  else if a = 0x10040 then some (pack [
    (63, 54, s.pwr.target), (53, 44, s.pwr.readback), (43, 42, s.pwr.src), flag 41 s.pwr.avsFault, (39, 32, s.pwr.slack), (31, 16, s.pwr.raises),
    (15, 0, s.pwr.stretch)])
  else if a = 0x10048 then some (pack [(63, 57, s.pwr.good.toNat), (56, 54, s.aon.faultRail), (53, 52, s.aon.faultKind)])
  else if a = 0x10050 then some (pack [
    (63, 48, s.pwr.vin12), (47, 32, s.pwr.vin12Min), (31, 16, s.pwr.vin12Max), flag 15 s.pwr.pfailN, flag 14 s.pwr.bpwm, flag 13 s.pwr.vinLow,
    flag 12 s.pwr.vinHigh, flag 11 s.pwr.snsTimeout, flag 10 s.pwr.tmode])
  else if a = 0x10100 then some (pack [
    (63, 60, if s.hold.state = 6 && s.start.replayRead && s.hold.replayed.isEmpty then 7 else s.hold.state), (59, 59, s.hold.area),
    flag 58 s.hold.areaOk, (57, 56, s.hold.source), (55, 38, s.hold.chunksDone), (37, 20, s.hold.chunksPlanned), (19, 0, s.hold.lostBlocks)])
  else (regIdx 0x10080 8 4 a).map fun k => pack ((List.range 4).map fun j =>
    (16 * j + 15, 16 * j, if s.pwr.tempFailed.getLsbD (4 * k + j) then -32768 else s.pwr.temps.toList.getD (4 * k + j) 0))

-- Faults, tally and queues (Tables 17.3, 17.12, 17.13).

/-- Quiet time left in µs: T_QUIET after the latest cause (R519). -/
def quietLeft (s : State) : Nat := match s.flt.quietSince with
  | some t => (tQuietMs s.img * oneMs - since s t) / 1000
  | none => 0
def countsReg (c : FaultCounts) : Word := pack [(63, 40, c.corrected), (39, 24, c.uncorrected), (23, 12, c.bus), (11, 0, c.other)]

/-- FLT registers (R542, Table 17.12). -/
def regFlt (s : State) (a : Nat) : Option Word :=
  let f := s.flt.first
  if a = 0x20000 then some (pack [
    (63, 62, if s.flt.quietSince.isSome then 1 else if s.flt.awaiting then 2 else 0), flag 61 s.flt.failstop, (60, 53, recoveryCount s),
    (52, 45, s.flt.injRecov), (44, 37, s.flt.holdCause.toNat), (28, 0, quietLeft s)])
  else if a = 0x20008 then some (pack [(63, 56, f.master.toNat), (47, 0, f.addr.toNat)])
  else if a = 0x20010 then some (pack [
    flag 63 f.valid, flag 62 f.injected, flag 61 f.overwroteInj, (60, 58, f.access.toNat), (57, 54, f.cause.toNat), (53, 47, f.mem.toNat),
    (46, 39, f.event.toNat), (38, 31, f.syndrome.toNat), (30, 15, f.more)])
  else if a = 0x20018 then some (pack [(63, 0, f.time)])
  else if a = 0x20020 then some 0
  else if a = 0x20028 then some (countsReg s.flt.real)
  else if a = 0x20030 then some (countsReg s.flt.inj)
  else none

/-- EVT_STATE (R543, Table 17.13). -/
def regEvt (s : State) (a : Nat) : Option Word :=
  if a = 0x30000 then some (pack [(63, 62, s.evt.full), (61, 40, s.evt.freeBlocks), (39, 24, s.evt.droppedFull)])
  else if a = 0x30008 then some (pack [(63, 0, s.evt.next)])
  else none

/-- MQ_Q_n (R543, Table 17.13). -/
def regMq (s : State) (a : Nat) : Option Word := (regIdx 0x40000 8 32 a).map fun q =>
  let m := getMq s q
  pack [(63, 46, m.words.length), (45, 28, m.packets), (27, 16, mqThresh s.img q), (15, 8, m.overflow), (7, 0, m.wdog)]

-- Links (Tables 3.11, 3.12, 11.9 to 11.11, 15.12, 15.13).

def laneReg (e : LaneErr) : Word := pack [(63, 48, e.uncorr), (47, 16, e.corrSym), (15, 8, e.eyeH), (7, 0, e.eyeV)]

/-- LNK registers of one link by offset (R362 to R364, Tables 11.9 to 11.11). -/
def regLnkAt (k : Link) (o : Nat) : Option Word :=
  if o = 0 then some (pack [
    (63, 60, k.link), (59, 58, k.session), flag 57 k.compat, (56, 52, k.txOut), (51, 47, k.rxOut), flag 46 k.txSpareOk, flag 45 k.rxSpareOk,
    (31, 0, k.sid.toNat)])
  else if o = 8 then some (pack [(63, 48, k.crcErr), (47, 32, k.proto), (31, 16, k.outWindow), (15, 0, k.dup)])
  else if o = 0x10 then some (pack [(63, 48, k.nakSent), (47, 32, k.nakRcvd), (31, 16, k.timerReplay), (15, 0, k.creditViol)])
  else (regIdx 0x100 8 17 o).map fun n => laneReg (tabGet ({} : LaneErr) k.lanes n)

/-- LNK registers of ports A and B (R362 to R364). -/
def regLnk (s : State) (a : Nat) : Option Word :=
  if 0x100000 ≤ a ∧ a < 0x102000 then regLnkAt (getLink s ((a - 0x100000) / 0x1000)) (a % 0x1000) else none
/-- Frames still to send under R457: mirrored blocks before the closing RESYNC record. -/
def resyncLeft (s : State) : Nat :=
  let w := (getLink s 2).txWait
  match w.findIdx? fun r => match r with | .resync 1 _ => true | _ => false with
  | some i => ((w.take i).filter fun r => match r with | .mdata _ 0 _ => true | _ => false).length
  | none => 0

/-- PTN registers (R474, R475, Tables 15.12 and 15.13) and those of the partner link. -/
def regPtn (s : State) (a : Nat) : Option Word :=
  let k := getLink s 2
  if a = 0x110000 then some (pack [
    (63, 62, s.ptn.role), flag 61 s.ptn.synced, flag 60 s.ptn.solo, (59, 56, k.link), flag 55 s.ptn.hbInOk, flag 54 s.ptn.activeIn,
    flag 53 s.ptn.activeOut, flag 52 s.pwr.role, (51, 48, k.txOut), (47, 44, k.rxOut), (43, 20, min (resyncLeft s) 0xFFFFFF), (19, 18, s.ptn.handover)])
  else if a = 0x110008 then some (pack [(63, 48, s.ptn.takeovers), (47, 32, s.ptn.handovers), (31, 16, s.ptn.resyncs), (15, 0, s.ptn.hbGaps)])
  else none

/-- ALK registers of one arm link by offset (R98, R99, Table 3.11). -/
def regAlkAt (k : ArmLink) (o : Nat) : Option Word :=
  if o = 0 then some (pack [
    (63, 60, k.link), (59, 58, k.owner), (57, 53, k.upOut), (52, 51, k.dnOut), flag 50 k.fzaPort, flag 49 k.upSpareOk, flag 48 k.dnSpareOk,
    (47, 32, k.msgErr), (31, 0, k.trainCount)])
  else match regIdx 0x100 8 19 o with
    | some n => some (laneReg (tabGet ({} : LaneErr) k.lanes n))
    | none => (regIdx 0x200 8 3 o).map fun n => laneReg (tabGet ({} : LaneErr) k.lanes (32 + n))

/-- ALK registers of arm links 0 to 7 (R98, R99). -/
def regAlk (s : State) (a : Nat) : Option Word :=
  if 0x120000 ≤ a ∧ a < 0x128000 then regAlkAt (getAlk s ((a - 0x120000) / 0x1000)) (a % 0x1000) else none

-- Channel, decoder pool, layout (Tables 2.6, 4.8 to 4.11, 5.7 to 5.10).

/-- CHN registers of one island by offset (R137 to R140, Tables 4.8 to 4.11). -/
def regChnAt (k : Island) (o : Nat) : Option Word :=
  if o = 0 then some (pack [
    (63, 60, k.state), flag 59 k.assigned, (58, 56, k.arm), (55, 53, k.head), (52, 47, k.zone), (46, 45, k.set), (44, 41, (k.sbuf.filter fun e => !e.undecoded.isEmpty).length), (31, 0, k.eccCe)])
  else if o = 8 then some (pack [(63, 48, k.miss), (47, 32, k.cand2Used), (31, 16, k.erasedFrames), (15, 0, k.loopRange)])
  else if o = 0x10 then some (pack [(63, 32, k.rawPass), (31, 16, k.rawMarginal), (15, 0, k.rawFail)])
  else if o = 0x18 then some (pack [(63, 40, k.freqOfs), (39, 31, k.score1), (30, 22, k.score2), (21, 10, k.rawMse)])
  else none

/-- CHN registers of the islands (R137 to R140). -/
def regChn (s : State) (a : Nat) : Option Word :=
  if 0x200000 ≤ a ∧ a < 0x200000 + 0x1000 * 68 then regChnAt (getIsl s ((a - 0x200000) / 0x1000)) (a % 0x1000) else none
/-- Spare engines not yet mapped in (R168); one that has failed outside the pool can be mapped in no more and is left out (log entry 59). -/
def sparesLeft (s : State) : Nat := ((List.range 4).filter fun n => !(getEngine s (96 + n)).failed && !(s.bol.spareMap.any fun m => m.1 = n)).length
def spareByte (s : State) (n : Nat) : Nat × Nat × Int :=
  (8 * n + 7, 8 * n, match s.bol.spareMap.find? fun m => m.1 = n with | some m => 0x80 + (m.2 : Int) | none => 0)

/-- BOL registers (R168 to R172, Tables 5.7 to 5.11). -/
def regBol (s : State) (a : Nat) : Option Word :=
  let b := s.bol
  if a = 0x300000 then some (pack [
    (63, 62, b.pressure), (61, 51, b.queue.length), (50, 44, b.suspended.length), (43, 34, queueHwm s.img), (33, 24, queueLwm s.img),
    (23, 21, sparesLeft s), (15, 0, b.eccCe)])
  else if a = 0x300008 then some (pack ((List.range 4).map (spareByte s)))
  else if a = 0x300048 then some (pack [(63, 48, b.unrecovered), (47, 32, b.miscorrect), (31, 16, b.addrMismatch), (15, 0, b.queueFull)])
  else match regIdx 0x300010 8 7 a with
    | some k =>
      let r := tabGet ({} : RungCnt) b.rungs (k + 1)
      some (pack [(63, 32, r.entered), (31, 0, r.recovered)])
    | none => (regIdx 0x300100 8 21 a).map fun k => pack [(63, 0, (tabGet 0 b.hist (k + 1) : Nat))]

/-- LAY_REBUILD_n (R70, Table 2.6). -/
def regLay (s : State) (a : Nat) : Option Word := (regIdx 0x310100 8 2 a).map fun n =>
  let r := s.layout.rebuilds.toList.getD n {}
  pack [(63, 62, r.state), (61, 59, r.arm), (58, 56, r.head), (39, 0, r.cursor)]

-- Governor, servo, spindle (Tables 6.9 to 6.11, 7.2, 7.6 to 7.10, 8.6 to 8.10).

/-- Section-store entries that some enabled or fitted context refers to. -/
def sectionsUsed (s : State) : Nat :=
  ((List.range 2048).filter fun k => s.gov.ctxs.any fun c => decide (c.2.servBase ≤ k) && decide (k < c.2.servBase + c.2.nServ)).length
/-- Word `w` of GOV_CTX_n: bits 64w + 63 to 64w of Table 7.2. -/
def ctxWord (s : State) (n w : Nat) : Word :=
  let c := getCtx s n
  if w = 3 then pack [
    flag 63 c.enable, flag 62 c.fmt, (61, 57, c.nServ), (56, 46, c.servBase), (45, 38, startId n), (37, 34, ctxKind n), (33, 18, ctxDeadline s n),
    flag 17 (inMode n), flag 16 c.inSign]
  else if w = 2 then pack [(63, 32, ctxOutMax s n), (31, 0, ctxOutMin s n)]
  else if w = 1 then pack [(63, 32, ctxRamp s n), (31, 16, c.swLimit), (15, 0, c.swCount)]
  else pack [(63, 32, c.setpoint), (31, 0, c.rEff)]
def loopReg (s : State) (n : Nat) : Word :=
  let c := getCtx s n
  pack [
    flag 63 c.enable, flag 62 c.fmt, (61, 60, c.sat), flag 59 c.frozen, (58, 56, min 7 (recent s (86400 * oneSec) c.failTimes).length),
    (55, 48, c.overrun), (47, 32, c.latency), (31, 0, c.out)]
def traceCfgReg (t : TraceCh) : Word := pack [(63, 62, t.mode), (61, 54, t.ctx), (53, 49, t.tap), (48, 33, t.decim)]
def traceTrigReg (g : Gov) : Word := pack [
  flag 63 g.armed, (62, 60, g.src), (59, 57, g.trigCh), (56, 49, g.trigEvent.toNat), (48, 42, g.pre), flag 41 g.edge, flag 40 g.fire, (31, 0, g.level)]

/-- GOV registers (R213, R238, Tables 7.2, 7.9 and 7.10), with sine injection and trace (R235, R237). -/
def regGov (s : State) (a : Nat) : Option Word :=
  let g := s.gov
  let enabled := g.ctxs.filter fun c => c.2.enable
  if a = 0x400000 then some (pack [
    flag 63 s.start.romOk, (62, 55, (enabled.filter fun c => !c.2.fmt).length), (54, 47, (enabled.filter fun c => c.2.fmt).length),
    (46, 35, sectionsUsed s), (34, 23, g.burst), (15, 0, g.eccCe)])
  else if a = 0x404040 then some (traceTrigReg g)
  else if a = 0x404050 then some (pack [(63, 0, g.traceTime)])
  else match regIdx 0x401000 8 640 a with
    | some k => some (ctxWord s (k / 4) (k % 4))
    | none => match regIdx 0x403000 8 160 a with
      | some n => some (loopReg s n)
      | none => match regIdx 0x404000 8 8 a with
        | some c => some (traceCfgReg (getTrace s c))
        | none => (regIdx 0x404080 8 8 a).map fun c =>
          let t := getTrace s c
          pack [(63, 62, t.state), (61, 46, t.trigIdx), flag 45 t.swSeen, (44, 29, t.swIdx)]

/-- SRV registers: SRV_HEAD_n at 0x0041_0000 + 8n, with STATE 63:61, POS 60:25 and PES 24:9 (R208, Table 6.9), SRV_ARM_a (R209, Table 6.10) and SRV_CNT_n (R210, Table 6.11). -/
def regSrv (s : State) (a : Nat) : Option Word :=
  match regIdx 0x410000 8 64 a with
  | some n =>
    let h := getHead s n
    some (pack [(63, 61, h.state), (60, 25, h.pos), (24, 9, h.pes)])
  | none => match regIdx 0x410200 8 8 a with
    | some k =>
      let r := getArm s k
      some (pack [(63, 60, r.state), (59, 44, r.demand), (43, 28, r.iSense), (27, 16, r.vEmf), (15, 0, r.frameErr)])
    | none => (regIdx 0x410400 8 64 a).map fun n =>
      let h := getHead s n
      pack [(63, 48, h.lostWedge), (47, 32, h.wgate), (31, 24, h.contact), (23, 16, h.uaLate), (15, 0, h.rdrDisagree)]

/-- SPN registers (R273 to R277, Tables 8.6 to 8.10). -/
def regSpn (s : State) (a : Nat) : Option Word :=
  let k := s.spn
  if a = 0x420000 then some (pack [
    (63, 60, k.mode), flag 59 k.dir, flag 58 k.lock, flag 57 k.window, flag 56 k.vlimit, flag 55 k.chopOn, (54, 53, k.chopFault),
    flag 52 k.budgetPause, (51, 48, k.curvePt), (47, 40, k.lastEvent.toNat)])
  else if a = 0x420008 then some (pack [(63, 32, k.speed), (31, 0, (getCtx s 138).rEff)])
  else if a = 0x420010 then some (pack [(63, 48, k.vbus), (47, 32, k.ichop), (31, 16, k.iD), (15, 0, k.iQ)])
  else if a = 0x420018 then some (pack [(63, 48, k.keMeas), (47, 32, k.keRatio), (31, 16, k.catchRpm), (15, 0, k.rEst)])
  else if a = 0x420020 then some (pack [
    (63, 48, k.clip), (47, 32, k.srcDrop), (31, 24, k.catches), (23, 16, k.overcurrent), (15, 8, k.windowExit), (7, 0, k.chopper)])
  else none

-- Hopper, sluice, fantail (Tables 12.13 to 12.15, 13.7 to 13.10, 14.8, 14.9).

def portUnlock (s : State) (p : Nat) : Unlock := if p = 0 then s.diag.unlockA else s.diag.unlockB
/-- Tags in use on a port (R369). -/
def tagsInUse (s : State) (p : Nat) : Nat := (s.hop.cmds.filter fun c => c.port = p).length

/-- HOP registers (R400 to R402, Tables 12.13 to 12.15). -/
def regHop (s : State) (a : Nat) : Option Word :=
  if a = 0x500000 then some (pack [
    (63, 49, (s.hop.cmds.filter (·.admitted)).length), (48, 34, (s.hop.cmds.filter fun c => c.phase = .held && c.cap.opcode ≠ 0x50).length), (33, 0, s.hop.nextArrival)])
  else match regIdx 0x500100 8 2 a with
    | some p =>
      let h := getHopPort s p
      some (pack [
        (63, 50, tagsInUse s p), flag 49 (!h.deferred.isEmpty), flag 48 (unlocked s (portUnlock s p)), (47, 39, h.deferred.length),
        (31, 0, ((h.deferred.head?.map fun r => r.index.toNat).getD 0))])
    | none => (regIdx 0x500200 8 2 a).map fun p =>
      let h := getHopPort s p
      pack [(63, 48, h.tagInUse), (47, 32, h.holdLimit), (31, 16, h.dataStray), (15, 0, h.wdataTo)]
/-- A budget field: no limit, or a limit above 6,553.4 W, reads 0xFFFF (R425). -/
def budgetField (b : Option Nat) : Nat := min (b.getD 0xFFFF) 0xFFFF
/-- A power in mW as a field of 0.1 W, rounded up. -/
def powerField (mw : Rat) : Nat := min 0xFFFF (mw / 100).ceil.toNat
def thermOver (s : State) (ks : List Nat) : Int × Nat :=
  let ts := ks.map (getTherm s)
  (((ts.map (·.mean)).max?).getD 0, ((ts.map (·.level)).max?).getD 0)

/-- SLU registers (R425 to R428, Tables 13.7 to 13.10). -/
def regSlu (s : State) (a : Nat) : Option Word :=
  let u := s.slu
  if a = 0x510000 then some (pack [
    (63, 48, budgetField u.granted), (47, 32, budgetField u.host), (31, 16, budgetField u.pwm), (15, 14, u.pwmState)])
  else if a = 0x510008 then
    some (pack (([(63, 48, powerField (modelPower s)), (47, 32, powerField (floorPower s)), (31, 16, powerField (rwWork s (running s) + seekWork s))] : List (Nat × Nat × Int)) ++
      (List.range 8).flatMap fun k => [flag (8 + k) (opOf s k).isSome, flag k (tabGet none u.chosen k).isSome]))
  else if a = 0x510010 then
    let ae := thermOver s ((armList s).map (1 + ·))
    let hda := thermOver s ((armList s).map (9 + ·))
    some (pack [
      (63, 48, (getTherm s 0).mean), (47, 32, ae.1), (31, 16, hda.1), (15, 14, (getTherm s 0).level), (13, 12, ae.2), (11, 10, hda.2)])
  else if a = 0x510018 then some (pack [(63, 48, u.powerWait), (47, 32, u.thermWait), (31, 16, u.floorShort), (15, 0, u.ageOverride)])
  else none
/-- FAN_STATE.STATE (Table 14.8, R31). -/
def fanState (s : State) : Nat :=
  if s.dev = .faultHold || s.dev = .holdUp || s.dev = .takeover || s.dev = .stopped then 2
  else if s.fan.notRestored then 3
  else if (List.range 8).any fun k => (opOf s k).any fun o => o.visit.isSome then 1 else 0
/-- SHARE_USED (Table 14.8): the fantail's head time of the last 1 s over all arms, in 1/64 of its share of theirs. -/
def shareUsed (s : State) : Nat :=
  let used := ((s.slu.shares.filter fun e => e.2.1 = 2 && decide (now s < e.2.2.1 + oneSec)).map fun e => min e.2.2.2 (e.2.2.1 + oneSec - now s)).sum
  min 127 (64 * 100 * used / (max 1 (fanShare s.img) * oneSec * max 1 s.img.arms))

/-- FAN registers (R445, R446, Tables 14.8 and 14.9). -/
def regFan (s : State) (a : Nat) : Option Word :=
  let f := s.fan
  if a = 0x520000 then some (pack [
    (63, 62, fanState s), (61, 55, min 127 (watchCount s)), (54, 48, shareUsed s), (47, 32, f.visits), (31, 16, f.replans), (15, 0, f.exhausted)])
  else if a = 0x520008 then some (pack [
    (63, 48, f.days), (47, 40, f.kind), (39, 37, f.arm), (36, 34, f.head), (33, 28, f.zone), (15, 0, f.computed)])
  else none

-- Memories and the transfer engine (Tables 9.7 to 9.10, 10.7, 10.8).

/-- Decoded blocks that wait for an earlier block of their command. -/
def slotsWaiting (s : State) : Nat := (s.mrc.slots.filter fun k =>
  decide (k.1 < 20480) && k.2.ready && ((cmdOf s k.2.arrival).any fun c => decide (c.sent < k.2.pos))).length

/-- MRC_STATE (R310, Table 9.7). -/
def regMrc (s : State) (a : Nat) : Option Word :=
  if a = 0x600000 then
    let used := s.mrc.slots.filter fun k => k.2.used
    some (pack [
      (63, 49, (used.filter fun k => decide (k.1 < 20480)).length), (48, 36, internalUsed s),
      (35, 20, slotsWaiting s), (15, 0, s.mrc.eccCe)])
  else none

/-- MPD registers (R311 to R313, Tables 9.8 to 9.10). -/
def regMpd (s : State) (a : Nat) : Option Word :=
  let m := s.mpd
  let valid := m.ledger.filter fun e => e.2.valid
  if a = 0x610000 then some (pack [
    (63, 60, m.state), (59, 56, m.spare), (55, 52, m.migLogical), (51, 32, dirtyFrames s), (31, 12, (m.clean.filter fun c => c.2.valid).length),
    (11, 0, m.migCursor / 32)])
  else if a = 0x610008 then some (pack [
    (63, 44, valid.length), (43, 24, (valid.filter fun e => e.2.state = 4 || e.2.state = 5).length),
    (23, 0, ceilDiv ((m.commits.map commitBytes).sum) 1024)])
  else (regIdx 0x610100 8 9 a).map fun p =>
    let c := getChan s p
    pack [(63, 61, c.role), (60, 58, c.logical), (57, 42, c.ue), (41, 10, c.ce), (7, 0, c.margin)]

/-- TRE registers (R333 to R335, Tables 10.7 and 10.8). -/
def regTre (s : State) (a : Nat) : Option Word :=
  if a = 0x620000 then some (bitsWord 64 fun n => (getTre s n).state = 3)
  else match regIdx 0x620100 8 64 a with
    | some n =>
      let c := getTre s n
      some (pack [
        (63, 62, c.state), flag 61 c.cut, (53, 48, c.halts), (47, 44, c.cause), flag 43 c.injected, (42, 35, c.descIdx), (34, 17, c.elemIdx),
        (16, 0, c.ring.length)])
    | none => (regIdx 0x621000 8 256 a).map fun l => pack [(31, 0, (tabGet 0 s.tre.events l).toNat)]

-- Flash and fetch cache (Tables 16.7 to 16.11).

/-- FLS_STATE.STATE: 4 once Hold-up has stopped the other programs (R463, R491). -/
def flsState (s : State) : Nat := if s.fls.state = 3 && s.hold.flashStopped then 4 else s.fls.state

/-- FLS registers (R508 to R510, Tables 16.7 to 16.9). -/
def regFls (s : State) (a : Nat) : Option Word :=
  let f := s.fls
  if a = 0x700000 then some (pack (([
    (63, 60, flsState s), flag 59 f.ucodeB, flag 58 f.ucodeOtherOk, flag 57 f.ucodePending, (56, 45, poolFree s),
    (31, 16, min 0xFFFF (wearOf s false)), (15, 0, min 0xFFFF (wearOf s true))] : List (Nat × Nat × Int)) ++ (List.range 8).map fun b => flag (37 + b) (decide (2 ≤ (getBank s b).op))))
  else if a = 0x700008 then some (pack [
    (63, 48, f.notErased), (47, 32, f.outOfOrder), (31, 16, f.busyFault), (15, 8, f.halfErase), (7, 0, f.retiredCnt)])
  else if a = 0x700010 then some (pack ((List.range 8).map fun n => (8 * n + 7, 8 * n, (tabGet 0 f.retry n : Nat))))
  else (regIdx 0x700100 8 8 a).map fun b =>
    let k := getBank s b
    let retired := (f.blocks.filter fun e => decide (e.1 / 512 = b) && e.2.retired).length
    pack [
      (63, 62, k.op), flag 61 k.suspended, (60, 52, k.block), (51, 42, k.page), (41, 32, retired), (31, 16, k.ceSect), (15, 0, k.ueSect)]

/-- FCC registers (R511, R512, Tables 16.10 and 16.11). -/
def regFcc (s : State) (a : Nat) : Option Word :=
  if a = 0x710000 then some (pack ([
    flag 63 s.fcc.fill.isSome, (62, 60, ((s.fcc.fill.map (·.requester)).getD 0 : Nat)), flag 59 (s.fcc.fill.any (·.prefetch))] ++
    (List.range 48).map fun e => flag e (getFce s e).valid))
  else if a = 0x710008 then some (bitsWord 48 fun e => (getFce s e).locked)
  else if a = 0x710010 then some (s.fcc.lfsr.setWidth 64)
  else match regIdx 0x710100 8 6 a with
    | some q => some (pack [
        (63, 61, fcDepth s.img q), flag 60 (getFcq s q).confirmed, (59, 53, (getFcq s q).stride), (47, 0, fcMask s.img q)])
    | none => (regIdx 0x710200 8 6 a).map fun q =>
      let k := getFcq s q
      pack [(63, 32, k.hits), (31, 16, k.misses), (15, 8, k.pfUsed), (7, 0, k.lockInval)]

-- Injection (Tables 11.7, 11.8, 17.6, 22.3, 22.4) and the trace window (R237).

def linkCfgReg (j : Injector) : Word := pack [
  (63, 62, j.action), flag 61 j.byProb, (60, 55, j.mask.toNat), (54, 39, j.countN), (38, 23, j.limit), (22, 19, j.reorderD), (18, 6, j.corruptBit)]

/-- INJ registers: of the collector (R521, R655), of the memories (R528, R529), of the transfer engine (R656) and of the LANLET ports (R358 to R361,
Tables 11.7 and 11.8). -/
def regInj (s : State) (a : Nat) : Option Word :=
  let d := s.diag
  if a = 0x800000 then some (pack [flag 63 d.allowStop])
  else if a = 0x800008 then some d.fltReport
  else if a = 0x800100 then some d.eccAddr
  else if a = 0x800108 then some d.eccData
  else if a = 0x800110 then some (d.eccCheck.setWidth 64)
  else if a = 0x800118 then some (pack [(62, 61, d.eccStatus), (60, 56, d.eccTags.length)])
  else if a = 0x800200 then some (pack [flag 62 (d.treHaltPending.contains d.treHaltChannel.toNat), (61, 56, d.treHaltChannel.toNat)])
  else match regIdx 0x800400 0x20 2 a with
    | some p => some (linkCfgReg (getInj s p))
    | none => match regIdx 0x800408 0x20 2 a with
      | some p => some (pack [(31, 0, (getInj s p).prob)])
      | none => (regIdx 0x800410 0x20 2 a).map fun p =>
        let j := getInj s p
        pack [(63, 32, j.actions), (31, 16, j.nakInduced), (15, 0, j.left)]
/-- Register i of a channel's window holds samples 2i, in the low half, and 2i + 1. -/
def regTrace (s : State) (a : Nat) : Option Word := (regIdx 0x1000000 8 262144 a).map fun k =>
  let t := getTrace s (k / 32768)
  let i := k % 32768
  pack [(63, 32, (tabGet 0 t.buf (2 * i + 1)).toNat), (31, 0, (tabGet 0 t.buf (2 * i)).toNat)]

-- The address space.

/-- First addresses of the blocks of Table 22.1 that hold one range of 0x10000. -/
def smallBlocks : List Nat := [
  0x000000, 0x010000, 0x020000, 0x030000, 0x040000, 0x100000, 0x110000, 0x120000, 0x300000, 0x310000, 0x400000, 0x410000, 0x420000, 0x500000,
  0x510000, 0x520000, 0x600000, 0x610000, 0x620000, 0x700000, 0x710000, 0x800000]
/-- First and last address of the block that holds an address (Table 22.1, R649); none outside every block. -/
def blockOf (a : Nat) : Option (Nat × Nat) :=
  if 0x200000 ≤ a ∧ a ≤ 0x2FFFFF then some (0x200000, 0x2FFFFF)
  else if 0x1000000 ≤ a ∧ a ≤ 0x11FFFFF then some (0x1000000, 0x11FFFFF)
  else (smallBlocks.find? fun b => decide (b ≤ a) && decide (a ≤ b + 0xFFFF)).map fun b => (b, b + 0xFFFF)
/-- The register at an address; none where no chapter assigns one. -/
def regAt (s : State) (a : Nat) : Option Word :=
  if 0x1000000 ≤ a then regTrace s a
  else
    let b := a / 0x10000
    if b = 0x00 then regIdn s a
    else if b = 0x01 then regClk s a
    else if b = 0x02 then regFlt s a
    else if b = 0x03 then regEvt s a
    else if b = 0x04 then regMq s a
    else if b = 0x10 then regLnk s a
    else if b = 0x11 then regPtn s a
    else if b = 0x12 then regAlk s a
    else if 0x20 ≤ b ∧ b < 0x30 then regChn s a
    else if b = 0x30 then regBol s a
    else if b = 0x31 then regLay s a
    else if b = 0x40 then regGov s a
    else if b = 0x41 then regSrv s a
    else if b = 0x42 then regSpn s a
    else if b = 0x50 then regHop s a
    else if b = 0x51 then regSlu s a
    else if b = 0x52 then regFan s a
    else if b = 0x60 then regMrc s a
    else if b = 0x61 then regMpd s a
    else if b = 0x62 then regTre s a
    else if b = 0x70 then regFls s a
    else if b = 0x71 then regFcc s a
    else if b = 0x80 then regInj s a
    else none
/-- What a read of an address of a block gives: zero where nothing is mapped (R649). -/
def readAt (s : State) (a : Nat) : Word := (regAt s a).getD 0
/-- ALERT_N is low (R610, R613, R639, R642). -/
def alertLow (s : State) : Bool :=
  s.dev = .faultHold || s.dev = .stopped || s.start.clocksStopped || s.start.railsLate || s.pwr.tmode || s.start.failStep = 1

end Sys2Proof.Machine
end

