-- ==== Sys2Proof/Machine/Diag.lean ====
section
/-! DEFINITION. The diagnostic space as it is written (R237, R361, R517, R528, R529, R654–R656), service unlock (R389, R657, R660), and the JTAG
instructions (R638, R658–R661). -/

namespace Sys2Proof.Machine

-- Who may write what.

def pathMaster : Path → BitVec 8 | .port _ => mPort | .jtag => mJtag
def pathUnlock (s : State) : Path → Unlock | .port p => portUnlock s p.num | .jtag => s.diag.unlockJ
def setUnlock (path : Path) (u : Unlock) (s : State) : State :=
  match path with
  | .port .A => { s with diag := { s.diag with unlockA := u } }
  | .port .B => { s with diag := { s.diag with unlockB := u } }
  | .jtag => { s with diag := { s.diag with unlockJ := u } }
/-- JTAG reaches the part's clocks: step 1 of Table 19.1 has ended and no clock fault has stopped them (R658). -/
def jtagClocked (s : State) : Bool := awake s && s.clk.coreLock

def isTraceReg (a : Nat) : Bool := (regIdx 0x404000 8 8 a).isSome || a = 0x404040
def isInjReg (a : Nat) : Bool :=
  a = 0x800000 || a = 0x800008 || a = 0x800100 || a = 0x800108 || a = 0x800110 || a = 0x800118 || a = 0x800200 ||
    (regIdx 0x800400 0x20 2 a).isSome || (regIdx 0x800408 0x20 2 a).isSome
/-- Opcode under which a register may be written (Table 22.2): 0x31 DIAG_WRITE and JTAG, 0x32 INJECT, 0x33 TRACE_CONTROL. -/
def writableBy (op a : Nat) : Bool :=
  if a = 0x20020 then op = 0x31
  else if isTraceReg a then op = 0x31 || op = 0x33
  else isInjReg a && (op = 0x31 || op = 0x32)
/-- The way that a write of a register takes over a path: TRACE_CONTROL for the trace registers of a port, which needs no unlock. -/
def wayOf (path : Path) (a : Nat) : Nat := match path with
  | .jtag => 0x31
  | .port _ => if isTraceReg a then 0x33 else 0x31
/-- Reserved bits of a writable register (Tables 7.6, 7.7, 11.7, 11.8, 17.6, 17.12, 22.3, 22.4). -/
def reservedBits (a : Nat) : Word :=
  if a = 0x20020 then ~~~3
  else if a = 0x404040 then w64 0xFF00000000
  else if isTraceReg a then w64 (2 ^ 33 - 1)
  else if a = 0x800000 then w64 (2 ^ 63 - 1)
  else if a = 0x800008 then w64 (2 ^ 35 - 1)
  else if a = 0x800100 then w64 (2 ^ 57 - 2 ^ 48)
  else if a = 0x800108 then 0
  else if a = 0x800110 then ~~~0xFF
  else if a = 0x800118 || a = 0x800200 then w64 (2 ^ 56 - 1)
  else if a = 0x800400 || a = 0x800420 then 0x3F
  else w64 (2 ^ 64 - 2 ^ 32)
/-- A value that a register takes: no reserved bit set, and every field in its stated range (R654, R655). -/
def valueOk (a : Nat) (v : Word) : Bool :=
  let n := v.toNat
  v &&& reservedBits a = 0 &&
  (if (regIdx 0x404000 8 8 a).isSome then bitsOf 63 62 n ≤ 2 && bitsOf 61 54 n ≤ 159 && bitsOf 53 49 n ≤ 20 && 1 ≤ bitsOf 48 33 n
   else if a = 0x404040 then bitsOf 62 60 n ≤ 4 && bitsOf 48 42 n ≤ 64
   else if a = 0x800008 then 1 ≤ bitsOf 61 58 n && bitsOf 61 58 n ≤ 8
   else if a = 0x800400 || a = 0x800420 then 1 ≤ bitsOf 54 39 n && 1 ≤ bitsOf 22 19 n && bitsOf 18 6 n ≤ 4223
   else true)

-- Effects of a write.

/-- GOV_TRACE_CFG_c (R237): an armed capture is disarmed. -/
def putTraceCfg (c : Nat) (v : Word) (s : State) : State :=
  let n := v.toNat
  let s := if s.gov.armed then
      each (List.range 8) (fun k s => modTrace s k fun t => if t.state = 1 then { t with state := 0 } else t) { s with gov := { s.gov with armed := false } }
    else s
  modTrace s c fun t => { t with mode := bitsOf 63 62 n, ctx := bitsOf 61 54 n, tap := bitsOf 53 49 n, decim := bitsOf 48 33 n }
/-- The capture is armed (R236): every channel in use writes circularly. -/
def armTrace (s : State) : State :=
  each (List.range 8) (fun k s => modTrace s k fun t =>
    if t.mode = 0 then t else { t with state := 1, left := 0, execs := 0, last := 0, swSeen := false })
    { s with gov := { s.gov with armed := true } }
/-- GOV_TRACE_TRIG (R236, Table 7.7): a 1 in ARM arms, a 1 in FIRE triggers at once under SRC 0. -/
def putTraceTrig (v : Word) (s : State) : State :=
  let n := v.toNat
  let s := { s with gov := { s.gov with
    src := bitsOf 62 60 n, trigCh := bitsOf 59 57 n, trigEvent := BitVec.ofNat 8 (bitsOf 56 49 n), pre := bitsOf 48 42 n, edge := bitOf 41 n,
    fire := bitOf 40 n, level := signedOf 32 (bitsOf 31 0 n) } }
  let s := if bitOf 63 n then armTrace s else s
  if bitOf 40 n && bitsOf 62 60 n = 0 then traceFire s else s
/-- INJ_FLT_REPORT (R655). -/
def putFltReport (v : Word) (s : State) : State :=
  let n := v.toNat
  let s := { s with diag := { s.diag with fltReport := v &&& w64 (2 ^ 63 - 1) } }
  if bitOf 63 n then
    report {
      master := BitVec.ofNat 8 (bitsOf 57 50 n), cause := BitVec.ofNat 4 (bitsOf 61 58 n), mem := BitVec.ofNat 7 (bitsOf 49 43 n),
      event := BitVec.ofNat 8 (bitsOf 42 35 n), hold := bitOf 62 n, injected := true } s
  else s
/-- Offset, in the model's keys of the tag table, of the word that INJ_ECC_ADDR names: the offset in the memory, or the fabric address of a
millpond word; none when the address is invalid (Tables 10.2, 17.1, 17.4). -/
def testWord (s : State) : Option (Nat × Nat) :=
  let n := s.diag.eccAddr.toNat
  let mem := bitsOf 63 57 n
  let a := bitsOf 47 0 n
  if a % 8 ≠ 0 ∨ 0x65 < mem then none
  else if mem = 0x48 then if 2 ^ 32 ≤ a ∧ a < 2 ^ 32 + 0x6000000 then some (mem, a - 2 ^ 32) else none
  else if 0x49 ≤ mem ∧ mem ≤ 0x51 then if a < 2 ^ 32 then some (mem, a) else none
  else if 0x44 ≤ mem ∧ mem ≤ 0x47 then
    let base := 0x2000000000 + 0x100000 * (mem - 0x44)
    if base ≤ a ∧ a < base + 0x100000 then some (mem, a - base) else none
  else some (mem, a)
/-- Replace an 8-byte word of a block. -/
def putWord (b : Block) (byte : Nat) (d : Word) : Block :=
  let sh := 8 * (byte % 4096)
  (b &&& ~~~((BitVec.allOnes 64).setWidth 32768 <<< sh)) ||| (d.setWidth 32768 <<< sh)
/-- The test write itself, in the memories whose words stand in the state (R528). -/
def storeTest (mem at_ : Nat) (d : Word) (s : State) : State :=
  if mem = 0x48 then modSlot s (at_ / 4096) fun k => { k with data := putWord k.data at_ d }
  else if 0x49 ≤ mem ∧ mem ≤ 0x51 then
    { s with mpd := { s.mpd with frames := tabSet 0 s.mpd.frames (at_ / 4096) (putWord (getFrame s (at_ / 4096)) at_ d) } }
  else if 0x44 ≤ mem ∧ mem ≤ 0x47 then
    let f := 256 * (mem - 0x44) + at_ / 4096
    { s with tre := { s.tre with tcm := tabSet 0 s.tre.tcm f (putWord (tabGet 0 s.tre.tcm f) at_ d) } }
  else s
/-- INJ_ECC_CTL.GO (R528, R529): the test write, its tag, and event 0xAE. -/
def eccGo (source : BitVec 8) (s : State) : State :=
  match testWord s with
  | none => { s with diag := { s.diag with eccStatus := 1 } }
  | some (mem, at_) =>
    let s' := dropTag mem at_ s
    if 16 ≤ s'.diag.eccTags.length then { s with diag := { s.diag with eccStatus := 2 } }
    else
      let syn := s.diag.eccCheck ^^^ secDedCheck s.diag.eccData
      let s := storeTest mem at_ s.diag.eccData s'
      post 0xAE source [] { s with diag := { s.diag with eccStatus := 0, eccTags := s.diag.eccTags ++ [(mem, at_, syn)] } }
/-- INJ_TRE_HALT (R656). -/
def putTreHalt (v : Word) (s : State) : State :=
  let ch := bitsOf 61 56 v.toNat
  let s := { s with diag := { s.diag with treHaltChannel := BitVec.ofNat 6 ch } }
  if bitOf 63 v.toNat then injectHalt ch s else s
/-- INJ_LNK_CFG_p (R359, R361): selection and limit start again; the LFSR is seeded when the injector is enabled. -/
def putLinkCfg (p : Nat) (v : Word) (s : State) : State :=
  let n := v.toNat
  modInj s p fun j => { j with
    action := bitsOf 63 62 n, byProb := bitOf 61 n, mask := BitVec.ofNat 6 (bitsOf 60 55 n), countN := bitsOf 54 39 n, limit := bitsOf 38 23 n,
    reorderD := bitsOf 22 19 n, corruptBit := bitsOf 18 6 n, left := bitsOf 38 23 n, seen := 0, draws := if bitsOf 63 62 n = 0 then j.draws else 0 }
/-- A written value lands in the register's RW fields, and does what the register does. -/
def landWrite (source : BitVec 8) (a : Nat) (v : Word) (s : State) : State :=
  if a = 0x20020 then
    let s := if bitOf 1 v.toNat then { s with flt := { s.flt with real := {}, inj := {} } } else s
    if bitOf 0 v.toNat then { s with flt := { s.flt with first := {} } } else s
  else if a = 0x404040 then putTraceTrig v s
  else if a = 0x800000 then { s with diag := { s.diag with allowStop := bitOf 63 v.toNat } }
  else if a = 0x800008 then putFltReport v s
  else if a = 0x800100 then { s with diag := { s.diag with eccAddr := v } }
  else if a = 0x800108 then { s with diag := { s.diag with eccData := v } }
  else if a = 0x800110 then { s with diag := { s.diag with eccCheck := v.setWidth 8 } }
  else if a = 0x800118 then if bitOf 63 v.toNat then eccGo source s else s
  else if a = 0x800200 then putTreHalt v s
  else match regIdx 0x404000 8 8 a with
    | some c => putTraceCfg c v s
    | none => match regIdx 0x800400 0x20 2 a with
      | some p => putLinkCfg p v s
      | none => match regIdx 0x800408 0x20 2 a with
        | some p => modInj s p fun j => { j with prob := bitsOf 31 0 v.toNat }
        | none => s

/-- How an access ends (R654). -/
inductive Access where | done | badAddress | badValue | locked
deriving DecidableEq, Repr
def countDenied (s : State) : State := { s with idn := { s.idn with denied := satInc 16 s.idn.denied } }
def countWrite (s : State) : State := { s with idn := { s.idn with writes := satInc 16 s.idn.writes } }
/-- Whether a write over a path under an opcode of Table 22.2 is taken (R654). -/
def writeVerdict (op : Nat) (path : Path) (a : Nat) (v : Word) (s : State) : Access :=
  if !writableBy op a then .badAddress
  else if op ≠ 0x33 && !(unlocked s (pathUnlock s path)) then .locked
  else if !valueOk a v then .badValue
  else .done
/-- A write over a path: taken and counted, or refused and counted. -/
def diagWriteAs (op : Nat) (path : Path) (a : Nat) (v : Word) (s : State) : State :=
  match writeVerdict op path a v s with
  | .done => countWrite (landWrite (pathMaster path) a v s)
  | _ => countDenied s
/-- A register write over a path; JTAG needs the part's clocks (R658). -/
def pathWrite (path : Path) (a : Nat) (v : Word) (s : State) : State :=
  if path = .jtag && !jtagClocked s then s else diagWriteAs (wayOf path a) path a v s

-- Reads.

/-- A run of registers: wholly within one block, from a mapped register (R651). -/
def runOk (s : State) (a count : Nat) : Bool :=
  match blockOf a with
  | some b => (regAt s a).isSome && decide (a + 8 * count ≤ b.2 + 1)
  | none => false
/-- Registers of a run that read zero because their memory failed, as indexes within it (R652). -/
def ueOf (count : Nat) (ue : List Nat) : List Nat := (ue.filter (· < count)).eraseDups
/-- The block that a run returns: register i in bytes 8i to 8i + 7 (R651, R652). -/
def runBlock (s : State) (a count : Nat) (ue : List Nat) : Block :=
  (List.range count).foldl (fun (b : Block) i =>
    if ue.contains i then b else b ||| ((readAt s (a + 8 * i)).setWidth 32768 <<< (64 * i))) 0
/-- Memory behind a register (Table 17.4): the governor's for its block and the trace window, none named for the rest. -/
def regMem (a : Nat) : BitVec 7 := if (0x400000 ≤ a ∧ a < 0x410000) ∨ 0x1000000 ≤ a then 0x54 else 0x7F
/-- Uncorrectable errors met by a read: reported with CAUSE 2, HOLD = 0 and the path's master ID, and counted (R652). -/
def reportUe (path : Path) (as : List Nat) (s : State) : State :=
  each as (fun a s =>
    report {
      master := pathMaster path, cause := 2, mem := regMem a, addr := (freeVal s).setWidth 48, syndrome := (freeVal s >>> 48).setWidth 8 }
      (nextFree { s with idn := { s.idn with ue := satInc 16 s.idn.ue } })) s

-- The rows that name one register.

/-- FLT_CLEAR_COUNTS (R542). -/
def execFltClearCounts (path : Path) (s : State) : Host.Outcome State Fault Refusal := live s fun s => .next (pathWrite path 0x20020 2 s)
/-- FLT_CLEAR_FIRST (R517). -/
def execFltClearFirst (path : Path) (s : State) : Host.Outcome State Fault Refusal := live s fun s => .next (pathWrite path 0x20020 1 s)
/-- TRACE_CFG_WRITE (R237). -/
def execTraceCfgWrite (path : Path) (ch : Fin 8) (value : Word) (s : State) : Host.Outcome State Fault Refusal := live s fun s =>
  .next (pathWrite path (0x404000 + 8 * ch.val) value s)
/-- TRACE_ARM (R236): a write of GOV_TRACE_TRIG with ARM = 1. -/
def execTraceArm (path : Path) (value : Word) (s : State) : Host.Outcome State Fault Refusal := live s fun s =>
  .next (pathWrite path 0x404040 (value ||| BitVec.twoPow 64 63) s)
/-- TRACE_FIRE (R236): a write of GOV_TRACE_TRIG with FIRE = 1. -/
def execTraceFire (path : Path) (value : Word) (s : State) : Host.Outcome State Fault Refusal := live s fun s =>
  .next (pathWrite path 0x404040 (value ||| BitVec.twoPow 64 40) s)
/-- INJ_FLT_REPORT_GO (R655). -/
def execInjFltReportGo (path : Path) (value : Word) (s : State) : Host.Outcome State Fault Refusal := live s fun s =>
  .next (pathWrite path 0x800008 (value ||| BitVec.twoPow 64 63) s)
/-- INJ_ECC_GO (R528). -/
def execInjEccGo (path : Path) (value : Word) (s : State) : Host.Outcome State Fault Refusal := live s fun s =>
  .next (pathWrite path 0x800118 (value ||| BitVec.twoPow 64 63) s)
/-- INJ_TRE_HALT_GO (R656). -/
def execInjTreHaltGo (path : Path) (value : Word) (s : State) : Host.Outcome State Fault Refusal := live s fun s =>
  .next (pathWrite path 0x800200 (value ||| BitVec.twoPow 64 63) s)
/-- INJ_LNK_CFG_WRITE (R361). -/
def execInjLnkCfgWrite (path : Path) (port : Port) (value : Word) (s : State) : Host.Outcome State Fault Refusal := live s fun s =>
  .next (pathWrite path (0x800400 + 0x20 * port.num) value s)
/-- REGISTER_WRITE (R654). -/
def execRegisterWrite (path : Path) (address value : Word) (s : State) : Host.Outcome State Fault Refusal := live s fun s =>
  .next (pathWrite path address.toNat value s)

-- Service unlock.

/-- The fused key: zeros while it is unprogrammed and the open-mode fuse intact; none accepts no response (R661). -/
def unlockKey (s : State) : Option (BitVec 256) := match s.fuses.unlockKey with
  | some k => some k
  | none => if s.fuses.openBlown then none else some 0
/-- What the message holds after the challenge: the port number and SESSION_ID (R389), or 0x02 and four zeros on JTAG (R657). -/
def unlockTail (s : State) : Path → List Byte
  | .port p => BitVec.ofNat 8 p.num :: leBytes 4 (getLink s p.num).sid.toNat
  | .jtag => [2, 0, 0, 0, 0]
def responseOk (s : State) (path : Path) (challenge response : BitVec 256) : Bool :=
  match (pathUnlock s path).key with
  | some k => decide (hmac (leBytes 32 k.toNat) (leBytes 32 challenge.toNat ++ unlockTail s path) = leBytes 32 response.toNat)
  | none => false
/-- Seconds of the refusal left, rounded up; 0 when none runs (R389). -/
def refusalLeft (s : State) (path : Path) : Nat := match (pathUnlock s path).refused with
  | some t => ceilDiv (t + 60 * oneSec - now s) oneSec
  | none => 0
/-- A refusal runs until its row ends it. -/
def refusing (s : State) (path : Path) : Bool := (pathUnlock s path).refused.isSome
/-- STEP 0: a fresh challenge, which the manual leaves random. A key programmed later answers from the next challenge on (R661). -/
def newChallenge (path : Path) (s : State) : State :=
  nextFree (setUnlock path { pathUnlock s path with challenge := some (freeVal s), key := unlockKey s } s)
/-- STEP 1: each challenge serves one response; three wrong ones in a row begin the refusal. The result says whether it was right. -/
def takeResponse (path : Path) (response : BitVec 256) (s : State) : Bool × State :=
  let u := pathUnlock s path
  match u.challenge with
  | none => (false, s)
  | some c =>
    if responseOk s path c response then
      (true, setUnlock path { u with challenge := none, wrong := 0, until_ := some (now s + unlockTime s.img * oneSec) } s)
    else
      let s := { s with idn := { s.idn with unlockFail := satInc 16 s.idn.unlockFail } }
      (false, setUnlock path (if 2 ≤ u.wrong then { u with challenge := none, wrong := 0, refused := some (now s) }
        else { u with challenge := none, wrong := u.wrong + 1 }) s)
/-- STEP 2. -/
def endUnlock (path : Path) (s : State) : State := setUnlock path { pathUnlock s path with until_ := none } s
/-- UNLOCK_EXPIRY (R389): the row is the end of UNLOCK_TIME. -/
def execUnlockExpiry (path : Path) (s : State) : Host.Outcome State Fault Refusal := live s fun s => .next (endUnlock path s)
/-- UNLOCK_REFUSAL_END (R389): the row is the end of the 60 s. -/
def execUnlockRefusalEnd (path : Path) (s : State) : Host.Outcome State Fault Refusal := live s fun s =>
  .next (setUnlock path { pathUnlock s path with refused := none } s)

-- JTAG.

/-- Select a JTAG instruction; boundary cells drive under EXTEST alone. -/
def setIr (code : BitVec 8) (drives : Bool) (s : State) : State := { s with diag := { s.diag with jtagIr := code, bscanDrives := drives } }
/-- What Capture-DR of DIAG_ACC loads (R659). -/
def accCapture (s : State) : BitVec 264 :=
  if !jtagClocked s then BitVec.ofNat 264 (3 * 2 ^ 64)
  else (s.diag.jtagData.setWidth 264) ||| BitVec.ofNat 264 (s.diag.jtagStatus * 2 ^ 64 + b2n s.diag.jtagUe * 2 ^ 66)
def accResult (data : Word) (status : Nat) (ue : Bool) (s : State) : State :=
  { s with diag := { s.diag with jtagData := data, jtagStatus := status, jtagUe := ue } }
/-- DIAG_ACC_READ (R659): Capture-DR, then Update-DR with WRITE = 0. An access ends before the next capture. -/
def execDiagAccRead (address : Word) (ue : Bool) (s : State) : Host.Outcome State Fault Refusal :=
  let a := address.toNat
  let s := setIr 0x20 false (send (.jtag (accCapture s)) s)
  .next (
    if !jtagClocked s then s
    else if a % 8 ≠ 0 || (blockOf a).isNone then accResult 0 2 false (countDenied s)
    else if ue && (regAt s a).isSome then accResult 0 0 true (reportUe .jtag [a] s)
    else accResult (readAt s a) 0 false s)
/-- DIAG_ACC_WRITE (R659). -/
def execDiagAccWrite (address value : Word) (s : State) : Host.Outcome State Fault Refusal :=
  let a := address.toNat
  let s := setIr 0x20 false (send (.jtag (accCapture s)) s)
  .next (
    if !jtagClocked s then s
    else accResult 0 (if writeVerdict 0x31 .jtag a value s = .done then 0 else 2) false (diagWriteAs 0x31 .jtag a value s))
/-- What Capture-DR of DIAG_UNLOCK loads (R660). -/
def unlockCapture (s : State) : BitVec 264 :=
  let u := s.diag.unlockJ
  if !jtagClocked s then BitVec.ofNat 264 (3 * 2 ^ 256)
  else ((u.challenge.getD 0).setWidth 264) |||
    BitVec.ofNat 264 ((if refusing s .jtag then 2 else if unlocked s u then 1 else 0) * 2 ^ 256)
/-- A DIAG_UNLOCK scan: during a refusal no step acts. -/
def jtagUnlock (f : State → State) (s : State) : State :=
  let s := setIr 0x21 false (send (.jtag (unlockCapture s)) s)
  if !jtagClocked s || refusing s .jtag then s else f s
/-- JTAG_UNLOCK_CHALLENGE (R660). -/
def execJtagUnlockChallenge (s : State) : Host.Outcome State Fault Refusal := .next (jtagUnlock (newChallenge .jtag) s)
/-- JTAG_UNLOCK_RESPONSE (R657, R660). -/
def execJtagUnlockResponse (response : BitVec 256) (s : State) : Host.Outcome State Fault Refusal :=
  .next (jtagUnlock (fun s => (takeResponse .jtag response s).2) s)
/-- JTAG_UNLOCK_LOCK (R660). -/
def execJtagUnlockLock (s : State) : Host.Outcome State Fault Refusal := .next (jtagUnlock (endUnlock .jtag) s)
/-- TAP_RESET (R657): Test-Logic-Reset ends the JTAG unlock and releases the boundary cells. -/
def execTapReset (s : State) : Host.Outcome State Fault Refusal := .next (setIr 0x02 false (endUnlock .jtag s))

/-- The status and the programmed flags that FUSE_PROG captures (R661). -/
def fuseCapture (s : State) : BitVec 264 :=
  BitVec.ofNat 264 ((if jtagClocked s then s.diag.fuseStatus else 3) + 4 * b2n s.fuses.unlockKey.isSome + 8 * b2n s.fuses.keyHash.isSome +
    16 * b2n s.fuses.openBlown)
/-- A program is refused (R661). -/
def fuseRefused (group : BitVec 2) (vioOk : Bool) (s : State) : Bool :=
  !(unlocked s s.diag.unlockJ) || s.fuses.openBlown || group = 3 || (group = 0 && s.fuses.unlockKey.isSome) || (group = 1 && s.fuses.keyHash.isSome) ||
    !(s.dev = .unconfigured || s.dev = .configuring || s.dev = .parked || s.dev = .stopped) || !vioOk
def fuseResult (status : Nat) (s : State) : State := { s with diag := { s.diag with fuseStatus := status } }
/-- FUSE_PROG (R661). -/
def execFuseProg (go : Bool) (group : BitVec 2) (value : BitVec 256) (vioOk : Bool) (s : State) : Host.Outcome State Fault Refusal :=
  let s := setIr 0x22 false (send (.jtag (fuseCapture s)) s)
  .next (
    if !go then s
    else if !jtagClocked s then fuseResult 3 s
    else if fuseRefused group vioOk s then fuseResult 2 s
    else if group = 0 then fuseResult 0 { s with fuses := { s.fuses with unlockKey := some value } }
    else if group = 1 then fuseResult 0 { s with fuses := { s.fuses with keyHash := some value } }
    else fuseResult 0 { s with fuses := { s.fuses with openBlown := true } })

/-- Boundary cells take a value (R638, R658). -/
def setCells (cells : List Bool) (s : State) : State := { s with diag := { s.diag with bscan := cells } }
/-- EXTEST (R658): the cells drive the balls. -/
def execExtest (drive : List Bool) (s : State) : Host.Outcome State Fault Refusal := .next (setCells drive (setIr 0x00 true s))
/-- SAMPLE_PRELOAD (R658): what was sampled is shifted out, what is preloaded stays in the cells. -/
def execSamplePreload (sample preload : List Bool) (s : State) : Host.Outcome State Fault Refusal :=
  .next (setCells preload (setIr 0x01 false (send (.bscan sample) s)))
/-- IDCODE (R658). -/
def execIdcode (s : State) : Host.Outcome State Fault Refusal := .next (setIr 0x02 false (send (.jtag (s.idn.idcode.setWidth 264)) s))
/-- EXTEST_PULSE (R638). -/
def execExtestPulse (drive : List Bool) (s : State) : Host.Outcome State Fault Refusal := .next (setCells drive (setIr 0x08 true s))
/-- EXTEST_TRAIN (R638). -/
def execExtestTrain (drive : List Bool) (s : State) : Host.Outcome State Fault Refusal := .next (setCells drive (setIr 0x09 true s))
/-- BYPASS (R658): the one-bit register captures 0. -/
def execBypass (code : BitVec 8) (s : State) : Host.Outcome State Fault Refusal := .next (setIr code false (send (.jtag 0) s))

end Sys2Proof.Machine
end

