-- ==== Sys2Proof/Machine/Commands.lean ====
section
/-! DEFINITION. The commands of the host (chapter 12): a capsule's fields and their checks (R365, R370, R372), the rule of the device state (R395), and
what each management command does (R380–R382, R389, R461, R498, R582, R583). -/

namespace Sys2Proof.Machine

/-- What a command meets that the rules leave to the outside: the checks of SELF_CHECK that fail, the registers of a DIAG_READ whose memory gives an
uncorrectable error, and whether a microcode bank verifies, with the version that it holds. -/
structure Extra where
  failed : BitVec 5 := 0
  ue : List Nat := []
  verdict : Option (Bool × BitVec 32) := none
deriving DecidableEq, Repr

-- Fields (Tables 12.1, 12.5).

/-- The opcodes of Table 12.5. -/
def opcodeDefined (op : Nat) : Bool :=
  [1, 2, 3, 4, 5, 0x10, 0x11, 0x12, 0x13, 0x14, 0x15, 0x16, 0x20, 0x21, 0x30, 0x31, 0x32, 0x33, 0x40, 0x41, 0x50].contains op
/-- FLUSH of the whole drive. -/
def flushAll (c : Capsule) : Bool := c.opcode = 4 && bitOf 0 c.arg32.toNat
/-- The capsule names blocks by LBA. -/
def usesLba (c : Capsule) : Bool := [1, 2, 3, 0x40].contains c.opcode.toNat || (c.opcode = 4 && !flushAll c)
def usesCount (op : Nat) : Bool := [1, 2, 3, 4, 0x13, 0x30, 0x40].contains op
/-- ARG64 is faulty: not used, or outside the limit of Table 12.5 for an address. -/
def arg64Bad (c : Capsule) : Bool :=
  let a := c.arg64.toNat
  match c.opcode.toNat with
  | 2 | 0x13 | 0x14 | 0x16 => false
  | 3 => !c.cmpHtag && a ≠ 0
  | 0x30 => a % 8 ≠ 0
  | 0x31 => !writableBy 0x31 a
  | 0x32 => !(decide (0x800000 ≤ a) && decide (a ≤ 0x80FFFF))
  | 0x33 => !writableBy 0x33 a
  | _ => a ≠ 0
/-- Faulty parts of ARG32, each by its lowest capsule bit (R370). -/
def arg32Bad (c : Capsule) : List Nat :=
  let v := c.arg32.toNat
  let bad (p : Bool) (bit : Nat) : List Nat := if p then [bit] else []
  match c.opcode.toNat with
  | 4 => bad (decide (2 ≤ v)) 177
  | 5 => bad (decide (2 ^ 16 ≤ v)) 192
  | 0x12 => bad (v = 0) 176
  | 0x13 => bad (decide (2 ^ 16 ≤ v)) 192
  | 0x20 => bad (v % 4 = 3) 176 ++ bad (decide (8 ≤ v)) 179
  | 0x21 => bad (v % 32 = 0) 176 ++ bad (decide (32 ≤ v)) 181
  | 0x40 => bad (decide (2 ≤ v % 4)) 176 ++ bad (decide (8 ≤ v)) 179
  | 0x41 => bad (v % 4 = 3) 176 ++ bad (decide (4 ≤ v)) 178
  | 0x50 => bad (decide (2 ≤ v)) 177
  | _ => bad (v ≠ 0) 176
/-- Faulty parts of ARGX. -/
def argxBad (c : Capsule) : List Nat :=
  let op := c.opcode.toNat
  if op = 0x31 || op = 0x32 || op = 0x33 then (if c.argx >>> 64 ≠ 0 then [272] else [])
  else if op = 0x41 && c.arg32.toNat % 4 = 1 then []
  else if c.argx ≠ 0 then [208] else []
/-- Lowest capsule bits of the faulty fields (step 5 of Table 12.4), in rising order. -/
def faultyBits (c : Capsule) : List Nat :=
  let op := c.opcode.toNat
  let bad (p : Bool) (bit : Nat) : List Nat := if p then [bit] else []
  bad (c.nowait && !(decide (1 ≤ op) && decide (op ≤ 4))) 8 ++ bad (c.htagInc && op ≠ 2 && op ≠ 3) 9 ++ bad (c.cmpHtag && op ≠ 3) 10 ++
    bad (c.resLo ≠ 0) 11 ++ bad (!usesLba c && c.lba ≠ 0) 32 ++ bad (!usesCount op && c.count ≠ 0) 80 ++ bad (arg64Bad c) 112 ++ arg32Bad c ++ argxBad c ++
    bad (c.resHi ≠ 0) 464
/-- COUNT in its range (step 6). -/
def countOk (c : Capsule) : Bool :=
  let n := c.count.toNat
  match c.opcode.toNat with
  | 1 | 2 | 3 | 0x13 => decide (1 ≤ n) && decide (n ≤ 65536)
  | 4 => if flushAll c then n = 0 else decide (1 ≤ n)
  | 0x30 => decide (1 ≤ n) && decide (n ≤ 512)
  | 0x40 => decide (1 ≤ n) && decide (n ≤ 4096)
  | _ => true
/-- Kind of the microcode region that is not in use (R498). -/
def otherBank (s : State) : Nat := if s.fls.ucodeB then 1 else 2
def toImage (c : Capsule) : Bool := c.arg32.toNat % 4 = 1
/-- What LBA + COUNT is held against (step 7): the capacity of the image, or the blocks of the target. -/
def sizeLimit (s : State) (c : Capsule) : Option Nat :=
  if c.opcode = 0x40 then some (if toImage c then 4096 else ((regionOf s (otherBank s)).map fun r => r.blocks * pagesPer r * 4).getD 0)
  else if usesLba c then some s.img.capacity
  else none
def needsUnlock (op : Nat) : Bool := [0x14, 0x31, 0x32, 0x40, 0x50].contains op
/-- Opcodes that a pending deferred error lets pass (R392). -/
def deferExempt (op : Nat) : Bool := [5, 0x10, 0x11, 0x13, 0x15, 0x16].contains op
/-- Steps 2 to 8 of Table 12.4: the status and INFO of the first check that fails (R370). -/
def admissionFault (s : State) (p : Port) (c : Capsule) : Option (Nat × Nat) :=
  let op := c.opcode.toNat
  if s.dev = .holdUp then some (0x50, 0x10)
  else if s.dev = .stopped || s.hop.closed then some (0x50, s.hop.stopCause.toNat)
  else match (if deferExempt op then none else (getHopPort s p.num).deferred.head?) with
    | some r => some (0x42, r.index.toNat)
    | none =>
      if !opcodeDefined op then some (0x10, 0)
      else match faultyBits c with
        | b :: _ => some (0x11, b)
        | [] =>
          if !countOk c then some (0x12, 0)
          else match (sizeLimit s c).filter fun n => decide (n < c.lba.toNat + c.count.toNat) with
            | some n => some (0x13, n)
            | none => if needsUnlock op && !(unlocked s (portUnlock s p.num)) then some (0x60, refusalLeft s (.port p)) else none

-- The device state (Table 12.7).

/-- X, H, F, C of Table 12.7. -/
inductive StateRule where | execute | hold | holdAlways | conflict
deriving DecidableEq, Repr
/-- Column of an opcode. -/
def opColumn (op : Nat) : Nat :=
  if 1 ≤ op ∧ op ≤ 4 then 0
  else if op = 0x12 ∨ op = 0x14 then 2
  else if op = 0x20 then 3
  else if op = 0x21 then 4
  else if 0x30 ≤ op ∧ op ≤ 0x33 ∨ op = 0x41 then 5
  else if op = 0x40 then 6
  else if op = 0x50 then 7
  else 1
/-- Table 12.7 without the states that take or admit no command. -/
def ruleRow : DevState → List StateRule
  | .parked => [.hold, .execute, .execute, .execute, .execute, .execute, .execute, .conflict]
  | .spinningUp => [.hold, .execute, .execute, .execute, .conflict, .execute, .conflict, .conflict]
  | .loading => [.hold, .execute, .execute, .hold, .conflict, .execute, .conflict, .conflict]
  | .faultHold => [.holdAlways, .execute, .execute, .holdAlways, .conflict, .execute, .conflict, .conflict]
  | .standby => [.conflict, .execute, .execute, .conflict, .conflict, .execute, .execute, .conflict]
  | .takeover => [.hold, .execute, .execute, .hold, .conflict, .execute, .conflict, .conflict]
  | .ready | .unconfigured | .configuring | .holdUp | .stopped => []
/-- The rule for a command now: data commands that arrive during a park or a handover are held (R382, R461). -/
def stateRule (s : State) (op : Nat) : StateRule :=
  if s.dev = .ready then (if opColumn op = 0 && (s.start.parkStep ≠ 0 || s.ptn.handStage ≠ 0) then .hold else .execute)
  else (ruleRow s.dev).getD (opColumn op) .conflict

-- Commands that return blocks of their own.

/-- The command goes on to send these blocks, and then completes with INFO (R368, R380). -/
def replyWith (arr : Nat) (blocks : List Block) (info : Nat) (s : State) : State :=
  modCmd s arr fun c => { c with phase := .running, reply := blocks, result := some { info := BitVec.ofNat 48 info } }
/-- A block from its bytes fields: (first byte, bytes, value). -/
def blockOfFields (fs : List (Nat × Nat × Nat)) : Block := BitVec.ofNat 32768 ((fs.map fun f => (f.2.2 % 256 ^ f.2.1) * 256 ^ f.1).sum)
/-- IDENTIFY (Table 12.9); PART reads "FZ6408". -/
def identifyBlock (s : State) (p : Port) : Block := blockOfFields [
  (0, 6, 0x383034365A46), (16, 1, s.idn.stepLetter.toNat), (17, 1, s.idn.stepDigit.toNat), (20, 8, s.img.capacity), (28, 1, s.img.arms),
  (29, 1, s.img.heads), (30, 1, b2n (getLink s p.num).compat), (31, 1, p.num), (32, 4, s.img.imageVer.toNat), (36, 4, s.idn.ucodeVer.toNat),
  (40, 4, fullBudget s), (44, 2, 8192), (46, 2, 65535), (48, 8, s.idn.serial.toNat), (56, 1, b2n (ptnEn s.img))]
/-- INFO of GET_STATE (Table 12.6). -/
def stateInfo (s : State) (p : Port) : Nat :=
  devCode s.dev * 2 ^ 44 + b2n (deferredPending s p.num) * 2 ^ 43 + b2n (unlocked s (portUnlock s p.num)) * 2 ^ 42 + b2n s.hop.autoSpin * 2 ^ 41 +
    b2n s.ptn.synced * 2 ^ 40 + min 255 (recoveryCount s) * 2 ^ 32 + (s.slu.granted.getD 0xFFFFFFFF) % 2 ^ 32
/-- A deferred record (Table 12.10) as a number. -/
def deferredWord (r : DeferredRec) : Nat :=
  b2n r.overflow * 2 ^ 240 + r.time.toNat * 2 ^ 176 + r.count.toNat * 2 ^ 144 + r.lba.toNat * 2 ^ 96 + r.arrival.toNat * 2 ^ 56 + r.tag.toNat * 2 ^ 40 +
    b2n r.portB * 2 ^ 36 + r.cause.toNat * 2 ^ 32 + r.index.toNat
/-- DEFERRED_READ (R380, R393): the record leaves the port; with the last one event 0x0D. -/
def readDeferred (arr : Nat) (p : Port) (s : State) : State :=
  match (getHopPort s p.num).deferred with
  | [] => replyWith arr [0] 0 s
  | r :: rest =>
    let s := modHopPort s p.num fun h => { h with deferred := rest }
    replyWith arr [BitVec.ofNat 32768 (deferredWord r)] 0 (if rest.isEmpty then post 0x0D mHopper [] s else s)
/-- A tally record (Table 17.7) as a number. -/
def tallyWord (r : TallyRec) : Nat :=
  0xA5 * 2 ^ 504 + r.code.toNat * 2 ^ 496 + b2n r.injected * 2 ^ 495 + devCode r.state * 2 ^ 491 + r.source.toNat * 2 ^ 480 + r.suppressed % 65536 * 2 ^ 464 +
    r.boot % 65536 * 2 ^ 448 + r.time % 2 ^ 64 * 2 ^ 384 + r.index % 2 ^ 64 * 2 ^ 320 + leNat r.payload % 2 ^ 320
/-- Records that a LOG_READ returns (R381, R531, R535). -/
def logRecords (s : State) (first count lo hi : Nat) : List TallyRec :=
  (s.evt.written.filter fun r => !r.pad && decide (max first s.evt.released ≤ r.index) && decide (lo ≤ r.code.toNat) && decide (r.code.toNat ≤ hi)).take count
/-- 64 records to a block, over ceil(COUNT / 64) blocks; the rest is zero. -/
def logBlocks (rs : List TallyRec) (count : Nat) : List Block :=
  (List.range (ceilDiv count 64)).map fun k => blockOfFields (((rs.drop (64 * k)).take 64).zipIdx.map fun x => (64 * x.2, 64, tallyWord x.1))
/-- LOG_CLEAR (R381, R535): event 0xF2. -/
def clearLog (index : Nat) (s : State) : State :=
  post 0xF2 mTally [b8 index] { s with evt := { s.evt with released := max s.evt.released (min (index + 1) s.evt.next) } }

-- MICROCODE_WRITE (R381, R498, R582, R583).

/-- Blocks of the target that have landed without a gap from the command's first on. -/
def landedRun (c : Cmd) : Nat := ((List.range c.cap.count.toNat).takeWhile fun i => c.landed.contains i).length
/-- COMMIT of a microcode bank: its verdict under R497 decides; a valid one is selected, event 0x99, and in Standby it takes effect at once. -/
def commitBank (c : Cmd) (s : State) : State :=
  let (ok, version) := c.verdict.getD (false, 0)
  if !ok then complete c.arrival 0x11 176 s
  else
    let s := { s with fls := { s.fls with selectedB := !s.fls.ucodeB, ucodePending := true, ucodeOtherOk := true, ucodeWrite := none } }
    let s := complete c.arrival 0 0 (post 0x99 mFlash [] s)
    if s.dev = .standby then
      reconfigure { s with fls := { s.fls with ucodeB := s.fls.selectedB, ucodePending := false }, idn := { s.idn with ucodeVer := version } }
    else s
/-- COMMIT of an image copy: validation under Table 18.8 and a higher GEN; event 0x04, and in Standby it takes effect at once (R462, R583). -/
def commitImage (c : Cmd) (s : State) : State :=
  let target := !s.img.copyB
  match validateCopy s.fuses s.fls.plan s.nvm target with
  | .bad step off => complete c.arrival 0x11 176 (copyInvalid target step off s)
  | .good i =>
    if i.gen ≤ s.img.gen then complete c.arrival 0x11 176 s
    else
      let s := post 0x04 mNvm [b1 (b2n target), b8 i.gen] { s with img := { s.img with pendingCommit := true }, nvm := { s.nvm with writePoint := none } }
      let s := complete c.arrival 0 0 s
      if s.dev = .standby then reconfigure s else s
/-- A MICROCODE_WRITE whose blocks are all in its target ends: at once, or with its COMMIT. -/
def microDone (arr : Nat) (s : State) : State :=
  match cmdOf s arr with
  | none => s
  | some c =>
    if c.cap.opcode ≠ 0x40 || c.phase ≠ .running || landedRun c < c.cap.count.toNat || (toImage c.cap && s.nvm.busy) then s
    else if !bitOf 2 c.cap.arg32.toNat then complete arr 0 0 s
    else if toImage c.cap then commitImage c s
    else commitBank c s
/-- Begin at the write point, or at offset 0 with the erase of the whole target. -/
def beginMicro (arr : Nat) (s : State) : State :=
  match cmdOf s arr with
  | none => s
  | some c =>
    let off := c.cap.lba.toNat
    let image := toImage c.cap
    if off ≠ 0 && (if image then s.nvm.writePoint else s.fls.ucodeWrite) ≠ some off then complete arr 0x11 32 s
    else
      let s := modCmd s arr fun c => { c with phase := .running }
      if image then
        let nvm := { s.nvm with serving := some arr }
        if off = 0 then
          { s with nvm := { nvm with writePoint := some 0, busy := true, erasing := true, toProgram := [] }, img := { s.img with pendingCommit := false } }
        else { s with nvm }
      else if off = 0 then
        eraseRegion (otherBank s) { s with fls := { s.fls with ucodeWrite := some 0, ucodeOtherOk := false, ucodePending := false } }
      else s
/-- A block of a MICROCODE_WRITE has landed: it goes to its place in the target, and the write point follows. -/
def landMicro (arr i : Nat) (data : Block) (s : State) : State :=
  match cmdOf s arr with
  | none => s
  | some c =>
    let at_ := c.cap.lba.toNat + i
    let c := { c with landed := c.landed ++ [i] }
    let point := some (c.cap.lba.toNat + landedRun c)
    let s := modCmd s arr fun _ => c
    let s := if toImage c.cap then
        { s with nvm := { s.nvm with
            writePoint := point, busy := true, toProgram := s.nvm.toProgram ++ [(copyBase (!s.img.copyB) / 4096 + at_, data)] } }
      else
        let base := 16 * regionBase s (otherBank s) + 4 * at_
        let s := { s with fls := { s.fls with ucodeWrite := point } }
        if s.hold.flashStopped then s
        else putFlashBlock base data s
    microDone arr s
/-- NVM_PROGRAM_DONE (R582): the erase or the program that runs has ended. -/
def execNvmProgramDone (s : State) : Host.Outcome State Fault Refusal := live s fun s =>
  .next (
    if !s.nvm.busy then s
    else
      let base := copyBase (!s.img.copyB) / 4096
      let nvm := s.nvm
      let nvm := if nvm.erasing then
          { nvm with blocks := nvm.blocks.filter fun e => !(decide (base ≤ e.1) && decide (e.1 < base + 4096)), erasing := false }
        else match nvm.toProgram with
          | [] => nvm
          | b :: rest => { nvm with blocks := tabSet (BitVec.allOnes 32768) nvm.blocks b.1 b.2, toProgram := rest }
      let s := { s with nvm := { nvm with busy := !nvm.toProgram.isEmpty } }
      match s.nvm.serving with
      | some arr => microDone arr s
      | none => s)
/-- NVM_BUSY_TIMEOUT (R640, Table 21.8): the write fails. -/
def execNvmBusyTimeout (s : State) : Host.Outcome State Fault Refusal := live s fun s =>
  .next (
    if !s.nvm.busy then s
    else
      let by_ := s.nvm.serving
      let s := { s with nvm := { s.nvm with busy := false, erasing := false, toProgram := [], serving := none, writePoint := none } }
      match by_ with
      | some arr => complete arr 0x11 176 s
      | none => s)

-- Execution.

/-- DIAG_READ (R651, R652). -/
def doDiagRead (arr : Nat) (p : Port) (c : Capsule) (ue : List Nat) (s : State) : State :=
  let a := c.arg64.toNat
  let n := c.count.toNat
  if !runOk s a n then complete arr 0x11 112 (countDenied s)
  else
    let bad := ueOf n ue
    replyWith arr [runBlock s a n bad] bad.length (reportUe (.port p) (bad.map fun i => a + 8 * i) s)
/-- DIAG_WRITE, INJECT and TRACE_CONTROL (R654). -/
def doDiagWrite (arr : Nat) (p : Port) (c : Capsule) (s : State) : State :=
  let op := c.opcode.toNat
  let a := c.arg64.toNat
  let v : Word := c.argx.setWidth 64
  let ended (r : Access) (s : State) : State := match r with
    | .done => complete arr 0 0 s
    | .badAddress => complete arr 0x11 112 s
    | .badValue => complete arr 0x11 208 s
    | .locked => complete arr 0x60 (refusalLeft s (.port p)) s
  ended (writeVerdict op (.port p) a v s) (diagWriteAs op (.port p) a v s)
/-- SERVICE_UNLOCK (R389). -/
def doUnlock (arr : Nat) (p : Port) (c : Capsule) (s : State) : State :=
  let path := Path.port p
  let step := c.arg32.toNat % 4
  if refusing s path then complete arr 0x60 (refusalLeft s path) s
  else if step = 0 then
    let s := newChallenge path s
    replyWith arr [((pathUnlock s path).challenge.getD 0).setWidth 32768] 0 s
  else if step = 1 then
    match takeResponse path c.argx s with
    | (true, s) => complete arr 0 0 s
    | (false, s) => complete arr 0x60 (refusalLeft s path) s
  else complete arr 0 0 (endUnlock path s)
/-- An admitted command begins. -/
def startCommand (arr : Nat) (p : Port) (c : Capsule) (x : Extra) (s : State) : State :=
  match c.opcode.toNat with
  | 1 | 3 | 4 => beginMedia arr s
  | 2 => beginMedia arr (if s.ptn.synced then s else enterSolo s)
  | 5 => beginAbort arr s
  | 0x10 => replyWith arr [identifyBlock s p] 0 s
  | 0x11 => complete arr 0 (stateInfo s p) s
  | 0x12 =>
    let host := if c.arg32 = 0xFFFFFFFF then none else some c.arg32.toNat
    complete arr 0 0 (refreshBudget 0 { s with slu := { s.slu with host } })
  | 0x13 =>
    let rs := logRecords s c.arg64.toNat c.count.toNat (bitsOf 7 0 c.arg32.toNat) (bitsOf 15 8 c.arg32.toNat)
    replyWith arr (logBlocks rs c.count.toNat) rs.length s
  | 0x14 => complete arr 0 0 (clearLog c.arg64.toNat s)
  | 0x15 => readDeferred arr p s
  | 0x16 => complete arr 0 0 { s with aon := { s.aon with time := c.arg64.toNat } }
  | 0x20 => beginSpin arr s
  | 0x21 => complete arr 0 (x.failed.toNat &&& bitsOf 4 0 c.arg32.toNat) (mqNote 31 (if c.arg32.getLsbD 0 then runTests s else s))
  | 0x30 => doDiagRead arr p c x.ue s
  | 0x31 | 0x32 | 0x33 => doDiagWrite arr p c s
  | 0x40 => beginMicro arr s
  | 0x41 => doUnlock arr p c s
  | _ => advanceHandover (modCmd s arr fun c => { c with phase := .held })

-- Arrival.

/-- The command takes its tag, and a hopper context when it is admitted. -/
def addCmd (arr : Nat) (p : Port) (c : Capsule) (x : Extra) (admitted : Bool) (s : State) : State :=
  { s with hop := { s.hop with cmds := s.hop.cmds ++ [
    { port := p.num, arrival := arr, cap := c, phase := .running, admitted, at_ := now s, needMirror := s.ptn.synced, verdict := x.verdict }] } }
/-- Refused accesses of the diagnostic space are counted (R654). -/
def noteDenied (c : Capsule) (status : Nat) (s : State) : State :=
  let op := c.opcode.toNat
  if (op = 0x31 || op = 0x32 || op = 0x33) && ((status = 0x11 && arg64Bad c) || status = 0x60) then countDenied s else s
/-- A capsule whose tag is in use, or that finds 8,192 tags in use, leaves nothing but its completion and a count (R370, R371). -/
def refuseTag (arr : Nat) (p : Port) (c : Capsule) (s : State) : State :=
  let info := if (cmdOfTag s p.num c.tag).isSome then 0 else 1
  issueRec p.num { tag := c.tag, status := 0x14, rej := true, opcode := c.opcode, arrival := BitVec.ofNat 40 arr, info := BitVec.ofNat 48 info }
    (modHopPort s p.num fun h => { h with tagInUse := satInc 16 h.tagInUse })
/-- A port takes capsules: its session is open, and the part is configured (R350, R395). -/
def takesCapsules (s : State) (p : Port) : Bool := (getLink s p.num).session = 1 && s.dev ≠ .unconfigured && s.dev ≠ .configuring
/-- A capsule arrives (R347, R370, R395). -/
def arrive (p : Port) (c : Capsule) (x : Extra) (s : State) : State :=
  if !takesCapsules s p then s
  else
    let arr := s.hop.nextArrival
    let s := { s with hop := { s.hop with nextArrival := (arr + 1) % 2 ^ 40 } }
    if (cmdOfTag s p.num c.tag).isSome || decide (8192 ≤ tagsInUse s p.num) then refuseTag arr p c s
    else match admissionFault s p c with
      | some (status, info) => complete arr status info (noteDenied c status (addCmd arr p c x false s))
      | none =>
        let admitted (s : State) : State := mirror (.cmdCtx p.num c.tag (BitVec.ofNat 40 arr) c.opcode c.lba c.count) (addCmd arr p c x true s)
        let conflict (s : State) : State := complete arr 0x20 (devCode s.dev) (addCmd arr p c x false s)
        let held (s : State) : State := mqNote 22 (modCmd (admitted s) arr fun c => { c with phase := .held })
        match stateRule s c.opcode.toNat with
        | .execute => startCommand arr p c x (admitted s)
        | .conflict => conflict s
        | .hold => if c.nowait then conflict s else held s
        | .holdAlways => held s
/-- A capsule of one opcode arrives on its own row. -/
def arriveAs (op : BitVec 8) (p : Port) (c : Capsule) (x : Extra) (s : State) : Host.Outcome State Fault Refusal :=
  live s fun s => .next (arrive p { c with opcode := op } x s)
/-- A capsule on a row that names one of the values of ARG32 1:0, of `subs`, and the COMMIT bit of a MICROCODE_WRITE. -/
def arriveArg (op : BitVec 8) (subs : List Nat) (commit : Option Bool) (p : Port) (c : Capsule) (x : Extra) (s : State) : Host.Outcome State Fault Refusal :=
  let a := c.arg32.toNat
  let a := if subs.contains (a % 4) then a else a / 4 * 4 + subs.headD 0
  let a := match commit with
    | some b => a / 8 * 8 + 4 * b2n b + a % 4
    | none => a
  arriveAs op p { c with arg32 := BitVec.ofNat 32 a } x s

/-- READ (R373). -/
def execRead (p : Port) (c : Capsule) (s : State) : Host.Outcome State Fault Refusal := arriveAs 0x01 p c {} s
/-- WRITE (R374, R377). -/
def execWrite (p : Port) (c : Capsule) (s : State) : Host.Outcome State Fault Refusal := arriveAs 0x02 p c {} s
/-- VERIFY (R378). -/
def execVerify (p : Port) (c : Capsule) (s : State) : Host.Outcome State Fault Refusal := arriveAs 0x03 p c {} s
/-- FLUSH (R379). -/
def execFlush (p : Port) (c : Capsule) (s : State) : Host.Outcome State Fault Refusal := arriveAs 0x04 p c {} s
/-- ABORT (R386, R387). -/
def execAbort (p : Port) (c : Capsule) (s : State) : Host.Outcome State Fault Refusal := arriveAs 0x05 p c {} s
/-- IDENTIFY (R380). -/
def execIdentify (p : Port) (c : Capsule) (s : State) : Host.Outcome State Fault Refusal := arriveAs 0x10 p c {} s
/-- GET_STATE (R380). -/
def execGetState (p : Port) (c : Capsule) (s : State) : Host.Outcome State Fault Refusal := arriveAs 0x11 p c {} s
/-- SET_BUDGET (R381). -/
def execSetBudget (p : Port) (c : Capsule) (s : State) : Host.Outcome State Fault Refusal := arriveAs 0x12 p c {} s
/-- LOG_READ (R381). -/
def execLogRead (p : Port) (c : Capsule) (s : State) : Host.Outcome State Fault Refusal := arriveAs 0x13 p c {} s
/-- LOG_CLEAR (R381). -/
def execLogClear (p : Port) (c : Capsule) (s : State) : Host.Outcome State Fault Refusal := arriveAs 0x14 p c {} s
/-- DEFERRED_READ (R380). -/
def execDeferredRead (p : Port) (c : Capsule) (s : State) : Host.Outcome State Fault Refusal := arriveAs 0x15 p c {} s
/-- TIME_SET (R11, R381). -/
def execTimeSet (p : Port) (c : Capsule) (s : State) : Host.Outcome State Fault Refusal := arriveAs 0x16 p c {} s
/-- SPIN_CONTROL with ACTION 0 (R382). -/
def execSpinPolicy (p : Port) (c : Capsule) (s : State) : Host.Outcome State Fault Refusal := arriveArg 0x20 [0, 3] none p c {} s
/-- SPIN_CONTROL with ACTION 1 (R382). -/
def execSpinUp (p : Port) (c : Capsule) (s : State) : Host.Outcome State Fault Refusal := arriveArg 0x20 [1] none p c {} s
/-- SPIN_CONTROL with ACTION 2 (R382). -/
def execSpinDown (p : Port) (c : Capsule) (s : State) : Host.Outcome State Fault Refusal := arriveArg 0x20 [2] none p c {} s
/-- SELF_CHECK (R382). -/
def execSelfCheck (p : Port) (c : Capsule) (failed : BitVec 5) (s : State) : Host.Outcome State Fault Refusal := arriveAs 0x21 p c { failed } s
/-- DIAG_READ (R381, R651). -/
def execDiagRead (p : Port) (c : Capsule) (ueRegs : List Nat) (s : State) : Host.Outcome State Fault Refusal := arriveAs 0x30 p c { ue := ueRegs } s
/-- DIAG_WRITE (R381, R654). -/
def execDiagWrite (p : Port) (c : Capsule) (s : State) : Host.Outcome State Fault Refusal := arriveAs 0x31 p c {} s
/-- INJECT (R381, R654). -/
def execInject (p : Port) (c : Capsule) (s : State) : Host.Outcome State Fault Refusal := arriveAs 0x32 p c {} s
/-- TRACE_CONTROL (R381, R654). -/
def execTraceControl (p : Port) (c : Capsule) (s : State) : Host.Outcome State Fault Refusal := arriveAs 0x33 p c {} s
/-- MICROCODE_WRITE with TARGET 0 and no COMMIT (R498). -/
def execUcodeBankWrite (p : Port) (c : Capsule) (s : State) : Host.Outcome State Fault Refusal := arriveArg 0x40 [0, 2, 3] (some false) p c {} s
/-- MICROCODE_WRITE with TARGET 0 and COMMIT (R498). -/
def execUcodeBankCommit (p : Port) (c : Capsule) (bankOk : Bool) (version : BitVec 32) (s : State) : Host.Outcome State Fault Refusal :=
  arriveArg 0x40 [0, 2, 3] (some true) p c { verdict := some (bankOk, version) } s
/-- MICROCODE_WRITE with TARGET 1 and no COMMIT (R582). -/
def execImageCopyWrite (p : Port) (c : Capsule) (s : State) : Host.Outcome State Fault Refusal := arriveArg 0x40 [1] (some false) p c {} s
/-- MICROCODE_WRITE with TARGET 1 and COMMIT (R583). -/
def execImageCopyCommit (p : Port) (c : Capsule) (s : State) : Host.Outcome State Fault Refusal := arriveArg 0x40 [1] (some true) p c {} s
/-- SERVICE_UNLOCK with STEP 0 (R389). -/
def execUnlockChallenge (p : Port) (c : Capsule) (s : State) : Host.Outcome State Fault Refusal := arriveArg 0x41 [0, 3] none p c {} s
/-- SERVICE_UNLOCK with STEP 1 (R389). -/
def execUnlockResponse (p : Port) (c : Capsule) (s : State) : Host.Outcome State Fault Refusal := arriveArg 0x41 [1] none p c {} s
/-- SERVICE_UNLOCK with STEP 2 (R389). -/
def execUnlockLock (p : Port) (c : Capsule) (s : State) : Host.Outcome State Fault Refusal := arriveArg 0x41 [2] none p c {} s
/-- HANDOVER (R461). -/
def execHandover (p : Port) (c : Capsule) (s : State) : Host.Outcome State Fault Refusal := arriveAs 0x50 p c {} s

end Sys2Proof.Machine
end

