-- ==== Sys2Proof/Machine/Sessions.lean ====
section
/-! DEFINITION. The sessions of the ports (chapter 11, R350 to R353): how one is opened, resumed, closed, and what its end does to its commands. -/

namespace Sys2Proof.Machine

/-- The service unlock of a port ends (R389). -/
def lockPort (p : Nat) (s : State) : State :=
  if p = 0 then { s with diag := { s.diag with unlockA := { s.diag.unlockA with until_ := none } } }
  else { s with diag := { s.diag with unlockB := { s.diag.unlockB with until_ := none } } }
/-- The commands of a session end as an abort ends them (R352, R387): their descriptors are cancelled and what has not landed is withdrawn, completions are
discarded, tags are free, and the partner drops the contexts of those that it knows (R399). -/
def endCommands (p : Nat) (s : State) : State :=
  let mine := s.hop.cmds.filter fun c => c.port = p
  let s := each mine (fun c s =>
    let s := if admittedCmd s c.arrival then mirror (.cplAcked p c.cap.tag (BitVec.ofNat 40 c.arrival)) s else s
    let s := freeSlots c.arrival (unpin c.arrival s)
    if c.phase = .issued then s else withdrawLanding c (cancelDescs c s)) s
  let s := { s with
    hop := { s.hop with cmds := s.hop.cmds.filter fun c => c.port ≠ p }, ptn := { s.ptn with ctxs := if s.ptn.role = 1 then s.ptn.ctxs.filter fun x => x.port ≠ p else s.ptn.ctxs } }
  recheck (each (s.hop.cmds.map (·.arrival)) pumpRead (releaseFrames (modHopPort s p fun h => { h with cpls := [] })))
/-- A session ends (R352): its commands, its unlock, event 0x71 with the reason. -/
def endSession (p reason : Nat) (s : State) : State :=
  let s := modLink s p fun k => { k with session := 0, unacked := [], ready := k.ready.filter (·.body.isRight), held := [], intake := [], gapTimer := false }
  let s := lockPort p (endCommands p s)
  let s := if p = 0 then { s with diag := { s.diag with unlockA := { s.diag.unlockA with challenge := none } } }
    else { s with diag := { s.diag with unlockB := { s.diag.unlockB with challenge := none } } }
  post 0x71 mLink [b1 reason] s

/-- Credits of a new session (R349). -/
def openLink (r : SessionOpen) (k : Link) : Link :=
  { k with
    session := 1, compat := r.compat, sid := r.sid, next := 0, held := [], gapTimer := false, ackDue := false, txSeq := 0, unacked := [], ready := k.ready.filter (·.body.isRight), intake := [],
    granted := [(0, 128), (1, 4096)], used := [], credit := [(2, r.cplCredits.toNat), (3, r.rdataCredits.toNat)],
    peerTotal := tabSet 0 (tabSet 0 [] 2 (r.cplCredits.toNat % 4096)) 3 (r.rdataCredits.toNat % 4096) }

/-- A SESSION_OPEN record (R350, R351). -/
def takeSessionOpen (p : Nat) (r : SessionOpen) (s : State) : State :=
  let k := getLink s p
  let answer (status : Nat) (next first : BitVec 16) (s : State) : State :=
    putLctl p (.sessionAccept status r.compat r.sid 128 4096 next first) s
  let allowed := (modeAllow s.img).testBit (2 * p + b2n r.compat)
  let fields := r.sid ≠ 0 && decide (16 ≤ r.cplCredits.toNat) && decide (256 ≤ r.rdataCredits.toNat) && allowed
  if !linkUp s p then s
  else if s.dev = .unconfigured || s.dev = .configuring then answer 4 0 0 s
  else if r.resume then
    if k.session = 0 || k.sid ≠ r.sid then answer 3 0 0 s
    else if k.compat ≠ r.compat || !fields then answer 2 0 0 s
    else
      let s := takeAck p (r.peerNext - 1) (modLink s p fun k => { k with session := 1 })
      let s := post 0x70 mLink [b1 p, b8 r.sid.toNat, b1 (b2n r.compat)] (answer 1 k.next r.peerNext s)
      each (getLink s p).unacked (sendAgain p) s
  else if !fields then answer 2 0 0 s
  else
    let s := if k.session = 0 then s else endSession p 1 s
    let s := answer 0 0 0 (modLink s p (openLink r))
    takeoverCompletions p (post 0x70 mLink [b1 p, b8 r.sid.toNat, b1 (b2n r.compat)] s)
/-- SESSION_OPEN (R350, R351). -/
def execSessionOpen (p : Port) (r : SessionOpen) (s : State) : Host.Outcome State Fault Refusal := live s fun s => .next (takeSessionOpen p.num r s)

/-- A SESSION_CLOSE record of the session held (R352). -/
def takeSessionClose (p : Nat) (sid : BitVec 32) (reason : Nat) (s : State) : State :=
  if (getLink s p).session ≠ 0 && (getLink s p).sid = sid then endSession p reason s else s
/-- SESSION_CLOSE (R352). -/
def execSessionClose (p : Port) (sid : BitVec 32) (reason : BitVec 8) (s : State) : Host.Outcome State Fault Refusal := live s fun s =>
  .next (takeSessionClose p.num sid reason.toNat s)
/-- LINK_HOLD_EXPIRY (R353). -/
def execLinkHoldExpiry (p : Port) (s : State) : Host.Outcome State Fault Refusal := live s fun s =>
  .next (if (getLink s p.num).session = 2 then endSession p.num 2 s else s)

end Sys2Proof.Machine
end

