-- ==== Sys2Proof/Machine/Frames.lean ====
section
/-! DEFINITION. Received frames (chapters 11 and 15): their checks (R340), the injector's DROP and REORDER (R358–R360), acknowledgement and credit
(R343, R348, R349), the reorder window (R342), what each frame carries (Tables 11.1 to 11.4, 15.1, 15.2), and write data (R374, R375). -/

namespace Sys2Proof.Machine

-- Write data.

/-- A block of a WRITE has wholly landed (R293, R297, R374): it is HELD, and every older landed version SUPERSEDED; or a newer one is here, and it is
SUPERSEDED itself. A version that takes the place of an acknowledged one in the dump is ACKED too (R385, log entry 62). The block leaves the unrecoverable list (R165). The mirror takes its parts and its entry (R303, R449). -/
def landBlock (arr i f : Nat) (s : State) : State :=
  match cmdOf s arr with
  | none => s
  | some c =>
    let e := getEntry s f
    let lba := e.lba.toNat
    let others := (entriesOf s lba).filter fun fe => landedEntry fe.2 && fe.1 ≠ f
    let passed := c.overtaken.contains i
    let newer := passed || others.any fun fe => seqLt e.vseq fe.2.vseq
    let open_ := c.grants.filter fun g => (List.range g.2.1).any fun k => !(c.landed ++ [i]).contains (g.1 + k)
    let s := modCmd s arr fun c => { c with landed := c.landed ++ [i], grants := open_ }
    let s := setEntry s f { e with heldBack := !e.compat && heldBack s c }
    let s := { s with
      mpd := { s.mpd with parts := tabDel f s.mpd.parts, dirtySince := if newer then s.mpd.dirtySince else tabSet 0 s.mpd.dirtySince f (now s) },
      layout := { s.layout with unrecoverable := s.layout.unrecoverable.filter (· ≠ lba) } }
    let s := each (List.range 8) (fun fib s => mirror (.mdata f fib (partOf (getFrame s f) fib)) s) s
    let heir := !newer && others.any fun fe => fe.2.state = 1 && fe.2.acked
    let s := setState f (if newer then 4 else 1) (if heir then setEntry s f { getEntry s f with acked := true } else s)
    let s := if newer then s else each (others.filter fun fe => fe.2.state = 1) (fun fe s => setState fe.1 4 s) s
    let s := if passed then { s with hop := { s.hop with cmds := s.hop.cmds.map fun x => { x with waits := x.waits.filter fun w => w ≠ (lba, e.vseq.toNat) } } } else s
    releaseFrames (recheck (each (s.hop.cmds.map (·.arrival)) pumpRead s))
/-- A WDATA frame that names no part awaited by a command: discarded and counted (R375). -/
def strayData (p : Nat) (s : State) : State := modHopPort s p fun h => { h with dataStray := satInc 16 h.dataStray }
/-- A whole block joins its port's receive stream for a SCATTER of that stream that is posted on one of the port's intake channels (R317, Table 10.1; log
entry 47). -/
def toStream (p : Nat) (b : Block) (s : State) : State :=
  if (List.range 8).any fun k => (getTre s (8 * p + k)).ring.any fun x => x.1.type = 3 && fabricOf x.1.srcBase.toNat = .stream p then
    { s with tre := { s.tre with streams := tabMod [] s.tre.streams p (· ++ [b]) } }
  else s
/-- One part of a block of a WRITE (R374, R375). -/
def takeWritePart (c : Cmd) (w : WData) (s : State) : State :=
  match c.frames.find? fun x => x.1 = w.blk.toNat with
  | none => strayData c.port s
  | some (i, f) =>
    if tabGet 0 s.mpd.parts f / 2 ^ w.fib.toNat % 2 = 1 then strayData c.port s
    else
      let s := setFrame s f (getFrame s f ||| (w.data.setWidth 32768 <<< (4096 * w.fib.toNat)))
      let s := { s with mpd := { s.mpd with parts := tabMod 0 s.mpd.parts f (· ||| (1 <<< w.fib.toNat)) } }
      if allParts s f then landBlock c.arrival i f (toStream c.port (getFrame s f) s) else s
/-- One part of a block of a MICROCODE_WRITE. -/
def takeMicroPart (c : Cmd) (w : WData) (s : State) : State :=
  let i := w.blk.toNat
  let open_ := c.grants.filter fun g => (List.range g.2.1).any fun k => !(c.landed ++ [i]).contains (g.1 + k)
  if c.staged.any fun x => x.1 = i && x.2.1 = w.fib.toNat then strayData c.port s
  else
    let staged : List (Nat × Nat × Part512) := c.staged ++ [(i, w.fib.toNat, w.data)]
    let mine := staged.filter fun x => x.1 = i
    if mine.length < 8 then modCmd s c.arrival fun c => { c with staged }
    else
      let data := mine.foldl (fun (b : Block) (x : Nat × Nat × Part512) => b ||| (x.2.2.setWidth 32768 <<< (4096 * x.2.1))) 0
      let rest := staged.filter fun x => x.1 ≠ i
      landMicro c.arrival i data (modCmd s c.arrival fun c => { c with staged := rest, grants := open_ })
/-- A WDATA frame (R375). -/
def takeWdata (p : Nat) (w : WData) (s : State) : State :=
  match cmdOfTag s p w.tag with
  | none => strayData p s
  | some c =>
    if !(takesData c && c.phase = .running) || decide (c.granted ≤ w.blk.toNat) || c.landed.contains w.blk.toNat then strayData p s
    else if c.cap.opcode = 0x02 then takeWritePart c w s
    else takeMicroPart c w s
/-- WDATA_RECEIVE (R374, R375). -/
def execWdataReceive (p : Port) (w : WData) (s : State) : Host.Outcome State Fault Refusal := live s fun s => .next (takeWdata p.num w s)

-- Fields of a frame.

def frSeq (f : LinkFrame) : BitVec 16 := BitVec.ofNat 16 (hdr f 59 44)
def frNrec (f : LinkFrame) : Nat := hdr f 9 4
/-- FCRC over bytes 0 to 523 (R339). -/
def frameCrc (f : LinkFrame) : Nat :=
  crc32c ((List.range 64).map (fun i => f.header.getLsbD i) ++ (List.range 4096).map (fun i => f.payload.getLsbD i) ++ (List.range 32).map fun i => f.trailer.getLsbD i)
def crcGood (f : LinkFrame) : Bool := frameCrc f = bitsOf 63 32 f.trailer.toNat
/-- Records that a type may carry, and the types that a link may receive (Tables 11.1, 11.3, 15.1): most records, 0 for none. -/
def recLimit (l ftype : Nat) : Option Nat :=
  if l = 2 then
    (if ftype = 0 || ftype = 8 then some 0 else if ftype = 5 || ftype = 9 then some 16 else if ftype = 0xA then some 8 else none)
  else (if ftype = 0 || ftype = 3 then some 0 else if ftype = 1 then some 8 else if ftype = 5 then some 16 else none)
/-- Step 3 of R340. -/
def formOk (l : Nat) (f : LinkFrame) : Bool :=
  hdr f 3 0 = 0 && (match recLimit l (frType f) with
    | some 0 => frNrec f = 0
    | some n => decide (1 ≤ frNrec f) && decide (frNrec f ≤ n)
    | none => false)
/-- Record i of a payload, of `size` bytes, as a number. -/
def frameRec (f : LinkFrame) (size i : Nat) : Nat := f.payload.toNat / 2 ^ (8 * size * i) % 2 ^ (8 * size)
/-- Bytes hi:lo of a record. -/
def bytesAt (r hi lo : Nat) : Nat := r / 256 ^ lo % 256 ^ (hi + 1 - lo)

/-- A capsule (Table 12.1). -/
def capsuleOf (r : Nat) : Capsule := {
  opcode := BitVec.ofNat 8 (bitsOf 7 0 r), nowait := bitOf 8 r, htagInc := bitOf 9 r, cmpHtag := bitOf 10 r, resLo := BitVec.ofNat 5 (bitsOf 15 11 r), tag := BitVec.ofNat 16 (bitsOf 31 16 r), lba := BitVec.ofNat 48 (bitsOf 79 32 r),
  count := BitVec.ofNat 32 (bitsOf 111 80 r), arg64 := BitVec.ofNat 64 (bitsOf 175 112 r), arg32 := BitVec.ofNat 32 (bitsOf 207 176 r), argx := BitVec.ofNat 256 (bitsOf 463 208 r), resHi := BitVec.ofNat 48 (bitsOf 511 464 r) }
/-- A ledger entry (Table 9.4). -/
def entryOfRec (r : Nat) : LedgerEntry := {
  lba := BitVec.ofNat 48 (bitsOf 255 208 r), htag := BitVec.ofNat 64 (bitsOf 207 144 r), frame := BitVec.ofNat 20 (bitsOf 143 124 r), vseq := BitVec.ofNat 40 (bitsOf 123 84 r), tag := BitVec.ofNat 16 (bitsOf 83 68 r),
  portB := bitOf 67 r, state := BitVec.ofNat 3 (bitsOf 66 64 r), acked := bitOf 63 r, mirrored := bitOf 62 r, row := BitVec.ofNat 34 (bitsOf 61 28 r), compat := bitOf 27 r, heldBack := bitOf 26 r, valid := bitOf 0 r }
/-- A defect entry (Table 2.2) and a run entry (Table 2.3). -/
def defectOfRec (r : Nat) : DefectEntry := {
  arm := BitVec.ofNat 3 (bitsOf 127 125 r), head := BitVec.ofNat 3 (bitsOf 124 122 r), row := BitVec.ofNat 40 (bitsOf 121 82 r), track := BitVec.ofNat 1 (bitsOf 81 81 r), slot := BitVec.ofNat 4 (bitsOf 80 77 r),
  dstZone := BitVec.ofNat 6 (bitsOf 76 71 r), dstGroup := BitVec.ofNat 32 (bitsOf 70 39 r), dstSector := BitVec.ofNat 5 (bitsOf 38 34 r), origin := BitVec.ofNat 2 (bitsOf 33 32 r), valid := bitOf 0 r }
def runOfRec (r : Nat) : RunEntry := {
  srcArm := BitVec.ofNat 3 (bitsOf 255 253 r), srcHead := BitVec.ofNat 3 (bitsOf 252 250 r), srcRow := BitVec.ofNat 40 (bitsOf 249 210 r), count := BitVec.ofNat 32 (bitsOf 209 178 r), dstArm := BitVec.ofNat 3 (bitsOf 177 175 r),
  dstZone := BitVec.ofNat 6 (bitsOf 174 169 r), dstGroup := BitVec.ofNat 32 (bitsOf 168 137 r), moving := bitOf 1 r, valid := bitOf 0 r }
/-- A completion record (Table 12.2) and a deferred record (Table 12.10). -/
def cplOf (r : Nat) : CplRec := {
  tag := BitVec.ofNat 16 (bitsOf 15 0 r), status := BitVec.ofNat 8 (bitsOf 23 16 r), rej := bitOf 25 r, opcode := BitVec.ofNat 8 (bitsOf 39 32 r), arrival := BitVec.ofNat 40 (bitsOf 79 40 r), info := BitVec.ofNat 48 (bitsOf 127 80 r) }
def deferredOf (r : Nat) : DeferredRec := {
  overflow := bitOf 240 r, time := BitVec.ofNat 64 (bitsOf 239 176 r), count := BitVec.ofNat 32 (bitsOf 175 144 r), lba := BitVec.ofNat 48 (bitsOf 143 96 r), arrival := BitVec.ofNat 40 (bitsOf 95 56 r), tag := BitVec.ofNat 16 (bitsOf 55 40 r),
  portB := bitOf 36 r, cause := BitVec.ofNat 4 (bitsOf 35 32 r), index := BitVec.ofNat 32 (bitsOf 31 0 r) }
/-- An entry of a LAYOUT record; the manual does not lay out its kinds 2 and 3 (log entry 36). -/
def layoutOf (r : Nat) : LayoutRec :=
  let e := r / 256 ^ 16
  match bytesAt r 1 1 with
  | 0 => .defect (defectOfRec e)
  | 1 => .run (runOfRec e)
  | 2 => .failedHead (Fin.ofNat 8 (bytesAt e 0 0)) (Fin.ofNat 8 (bytesAt e 1 1))
  | _ =>
    let a := Fin.ofNat 8 (bytesAt e 0 0)
    let h := Fin.ofNat 8 (bytesAt e 1 1)
    let q := BitVec.ofNat 40 (bytesAt e 15 8)
    if bytesAt e 2 2 = 0 then .cursor a h q else .skipped a h q (bytesAt e 2 2 = 1)
/-- Content of a PLAN record, whose places the manual does not give (log entry 36); a trend point is as Table 14.5. -/
def planOfRec (r : Nat) : PlanRec :=
  let trend := bytesAt r 1 1 = 1
  let v := bytesAt r 55 24
  let whole := bytesAt r 13 13 = 1 && bytesAt r 8 8 ≠ 11
  { trend, kind := bytesAt r 8 8, part := bytesAt r 12 12, parts := bytesAt r 13 13, loc := { arm := bytesAt r 9 9, head := bytesAt r 10 10, zone := bytesAt r 11 11 }, value := if trend then signedOf 32 (bitsOf 63 32 v) else if whole then signedOf 256 v else v,
    second := signedOf 64 (bytesAt r 23 16), samples := bitsOf 15 1 v, day := bitsOf 31 16 v }
def portOf (n : Nat) : Port := if n = 0 then .A else .B

-- What frames carry.

/-- The state after a command's own meaning, as part of the frame that brings it. -/
def after (f : State → Host.Outcome State Fault Refusal) (s : State) : State := match f s with | .next t => t | _ => s
/-- A protocol error (R340 step 3, Tables 11.4, 11.12): counted, and event 0x77 at 16 of them within 1 ms. -/
def protoError (l : Nat) (s : State) : State :=
  let times := recent s oneMs ((getLink s l).protoTimes ++ [now s])
  let s := modLink s l fun k => { k with proto := satInc 16 k.proto, protoTimes := if 16 ≤ times.length then [] else times }
  if 16 ≤ times.length then post 0x77 (linkMaster l) [] s else s
/-- What a CMD frame cannot show of its command's surroundings is free: the checks of a SELF_CHECK that fail, the verdict on a bank (log entry 37). -/
def freeExtra (s : State) : Extra := {
  failed := (freeVal s).setWidth 5, verdict := some ((freeVal s).getLsbD 5, (freeVal s >>> 8).setWidth 32) }
/-- A capsule of a CMD frame arrives (R347). -/
def deliverCapsule (p : Port) (c : Capsule) (s : State) : State :=
  if c.opcode = 0x21 || c.opcode = 0x40 then arrive p c (freeExtra s) (nextFree s) else arrive p c {} s
/-- NEXT of the peer's receiver, as the frame's ACKSEQ gives it (R343, R351). -/
def peerNextOf (s : State) (l : Nat) (f : LinkFrame) : BitVec 16 :=
  if hdr f 27 27 = 1 then BitVec.ofNat 16 (hdr f 43 28) + 1 else (((getLink s l).unacked.head?).map (·.seq)).getD (getLink s l).txSeq
/-- One link control record (Table 11.4); the partner link has four kinds of them (R448). A NAK whose COUNT lies outside 1 to 15 is a protocol error
(R9; log entry 55). -/
def deliverLctl (l : Nat) (f : LinkFrame) (r : Nat) (s : State) : State :=
  match bytesAt r 0 0 with
  | 1 => if l = 2 then protoError l s else takeSessionOpen l {
      compat := bitOf 8 r, resume := bitOf 9 r, sid := BitVec.ofNat 32 (bytesAt r 7 4), cplCredits := BitVec.ofNat 16 (bytesAt r 9 8), rdataCredits := BitVec.ofNat 16 (bytesAt r 11 10), peerNext := peerNextOf s l f } s
  | 3 => if l = 2 then protoError l s else takeSessionClose l (BitVec.ofNat 32 (bytesAt r 7 4)) (bytesAt r 1 1) s
  | 4 => if bytesAt r 1 1 = 0 || 15 < bytesAt r 1 1 then protoError l s else takeNak l ((List.range (bytesAt r 1 1)).map fun i => BitVec.ofNat 16 (bytesAt r (3 + 2 * i) (2 + 2 * i))) s
  | 5 => s
  | 6 => takeLaneMap l (bytesAt r 1 1) (bytesAt r 2 2) s
  | 7 => takeLaneMapDone l (bytesAt r 1 1) s
  | _ => protoError l s
/-- One control record of the partner (Table 15.2). A CONFIRM whose COUNT lies outside 1 to 14, a run of COUNT 0 and a deferred record whose
COUNT lies outside 1 to 65,536 are protocol errors (R9, Tables 2.3 and 12.10; log entry 55). -/
def deliverMctl (r : Nat) (s : State) : State :=
  let b (hi lo : Nat) : Nat := bytesAt r hi lo
  match b 0 0 with
  | 1 => after (execArbitrate {
      role := b 1 1 % 2 = 1, state := BitVec.ofNat 8 (b 2 2), dump := bitOf 24 r, synced := bitOf 25 r, dumpId := BitVec.ofNat 64 (b 11 4), imageVer := BitVec.ofNat 32 (b 15 12), compat := BitVec.ofNat 256 (b 47 16) }) s
  | 2 => after (execHeartbeat (b 1 1 % 2 = 1) (BitVec.ofNat 8 (b 2 2)) (BitVec.ofNat 64 (b 15 8)) (BitVec.ofNat 32 (b 19 16))) s
  | 3 => if b 1 1 = 0 || 14 < b 1 1 then protoError 2 s
    else after (execConfirm ((List.range (b 1 1)).map fun i => BitVec.ofNat 32 (b (11 + 4 * i) (8 + 4 * i)))) s
  | 4 => after (execCmdCtx (portOf (b 1 1)) (BitVec.ofNat 16 (b 3 2)) (BitVec.ofNat 40 (b 8 4)) (BitVec.ofNat 8 (b 9 9)) (BitVec.ofNat 48 (b 15 10)) (BitVec.ofNat 32 (b 19 16))) s
  | 5 => after (execPtnCpl (portOf (b 1 1)) (cplOf (b 31 16))) s
  | 6 => after (execCplAcked (portOf (b 1 1)) (BitVec.ofNat 16 (b 3 2)) (BitVec.ofNat 40 (b 8 4))) s
  | 7 => after (execPtnRowCommit (BitVec.ofNat 64 (b 15 8)) (BitVec.ofNat 64 (b 23 16))) s
  | 8 => if layoutOk (layoutOf r) then after (execPtnLayout (layoutOf r)) s else protoError 2 s
  | 9 => after (execPtnPlan (planOfRec r)) s
  | 0xA => if deferredOk (deferredOf (r / 256)) then after (execPtnDeferred (deferredOf (r / 256))) s else protoError 2 s
  | 0xB => after (execPtnFailstop (BitVec.ofNat 8 (b 1 1))) s
  | 0xC =>
    let reason := BitVec.ofNat 8 (b 2 2)
    (match b 1 1 with
      | 0 => after (execHandoverRequest reason) s
      | 1 => after (execHandoverReleased reason) s
      | _ => after (execHandoverActive reason) s)
  | 0xD => if b 1 1 = 0 then after (execResyncStart (BitVec.ofNat 32 (b 7 4))) s else after (execResyncDone (BitVec.ofNat 32 (b 7 4))) s
  | 0xE => if b 1 1 = 0 then after (execFetchRequest (BitVec.ofNat 32 (b 7 4)) (BitVec.ofNat 40 (b 12 8))) s else s
  | _ => protoError 2 s
/-- An MDATA frame: of a block that this part has asked for (R306), else of the mirror. -/
def deliverMdata (frame : Nat) (fib : BitVec 3) (data : Part512) (s : State) : State :=
  match s.ptn.fetches.find? fun x => x.1 = frame with
  | none => after (execMdata (BitVec.ofNat 32 frame) fib data) s
  | some (f, v) =>
    let old := if tabGet 0 s.mpd.parts f = 0 then 0 else getFrame s f
    let s := setFrame s f (old ||| (data.setWidth 32768 <<< (4096 * fib.toNat)))
    let s := { s with mpd := { s.mpd with parts := tabMod 0 s.mpd.parts f (· ||| (1 <<< fib.toNat)) } }
    if allParts s f then after (execFetchReply (BitVec.ofNat 32 f) (BitVec.ofNat 40 v) (getFrame s f)) (clearParts f s) else s
/-- No intake channel of a port may move write data: each of the eight is paused or halted (R328, R332, Table 10.1; log entry 47). -/
def intakeHeld (s : State) (l : Nat) : Bool := (List.range 8).all fun k => decide (2 ≤ (getTre s (8 * l + k)).state)
/-- The intake channels of a port move the write data that has been delivered, and its credits go back (R349). -/
def drainIntake (l : Nat) (s : State) : State :=
  if intakeHeld s l then s
  else each (getLink s l).intake (fun w s => returnCredit l 1 (takeWdata l w s)) (modLink s l fun k => { k with intake := [] })
/-- A numbered frame is delivered (R342, R347, R449), and its credit goes back: that of write data once a SCATTER channel has moved it (R349). -/
def deliverFrame (l : Nat) (f : LinkFrame) (s : State) : State :=
  let fib := BitVec.ofNat 3 (hdr f 12 10)
  match frType f with
  | 1 => returnCredit l 0 (each (List.range (frNrec f)) (fun i s => deliverCapsule (portOf l) (capsuleOf (frameRec f 64 i)) s) s)
  | 3 => drainIntake l (modLink s l fun k => { k with intake := k.intake ++ [{
      tag := BitVec.ofNat 16 (bitsOf 31 16 f.trailer.toNat), blk := BitVec.ofNat 16 (bitsOf 15 0 f.trailer.toNat), fib, data := f.payload }] })
  | 8 => returnCredit l 1 (deliverMdata (bitsOf 31 0 f.trailer.toNat) fib f.payload s)
  | 9 => returnCredit l 1 (after (execMent ((List.range (frNrec f)).map fun i => entryOfRec (frameRec f 32 i))) s)
  | 0xA => returnCredit l 1 (each (List.range (frNrec f)) (fun i s => mqNote 24 (deliverMctl (frameRec f 64 i) s)) s)
  | _ => s

-- The window.

/-- Deliver held frames from NEXT on, as far as there are any (R342). -/
def deliverHeld (l : Nat) : Nat → State → State
  | 0, s => s
  | n + 1, s =>
    let k := getLink s l
    match k.held.find? fun h => h.1 = k.next with
    | none => s
    | some (q, f) =>
      let s := modLink s l fun k => { k with held := k.held.filter fun h => h.1 ≠ q, next := k.next + 1, ackDue := true }
      deliverHeld l n (deliverFrame l f s)
/-- A numbered frame against the reorder window and its credit (R342, R344, R349). The second copy of a frame that an injection had delayed is no real
duplicate (R360). -/
def takeNumbered (l : Nat) (f : LinkFrame) (s : State) : State :=
  let k := getLink s l
  let off := (frSeq f - k.next).toNat
  if 32768 ≤ off then
    if l < 2 && (getInj s l).late.contains (frSeq f) then modInj s l fun j => { j with late := j.late.erase (frSeq f) }
    else modLink s l fun k => { k with dup := satInc 16 k.dup }
  else if 256 ≤ off then modLink s l fun k => { k with outWindow := satInc 16 k.outWindow }
  else if k.held.any fun h => h.1 = frSeq f then s
  else
    let s := modLink s l fun k => { k with held := k.held ++ [(frSeq f, f)], used := tabMod 0 k.used (rxClass f) (· + 1) }
    let s := if l < 2 then modInj s l fun j => { j with dropped := j.dropped.filter (· ≠ frSeq f) } else s
    let s := deliverHeld l 257 s
    modLink s l fun k => { k with gapTimer := !k.held.isEmpty }
def isNumbered (f : LinkFrame) : Bool := frType f ≠ 0 && frType f ≠ 5
/-- A new frame in the window whose class has no credit left (R349). -/
def overCredit (s : State) (l : Nat) (f : LinkFrame) : Bool :=
  let k := getLink s l
  isNumbered f && decide ((frSeq f - k.next).toNat < 256) && !(k.held.any fun h => h.1 = frSeq f) &&
    decide (tabGet 0 k.granted (rxClass f) ≤ tabGet 0 k.used (rxClass f))
/-- A frame is presented: its ACKSEQ and CR_TOTAL are taken, then what it carries. A port's numbered frames belong to an open session. -/
def presentFrame (l : Nat) (f : LinkFrame) (s : State) : State :=
  let inSession := l = 2 || (getLink s l).session = 1
  if inSession && overCredit s l f then modLink s l fun k => { k with creditViol := satInc 16 k.creditViol }
  else
    let s := if hdr f 27 27 = 1 then takeAck l (BitVec.ofNat 16 (hdr f 43 28)) s else s
    let s := takeCredit l (hdr f 26 25) (hdr f 24 13) s
    let s := if frType f = 5 then each (List.range (frNrec f)) (fun i s => deliverLctl l f (frameRec f 32 i) s) s
      else if isNumbered f && inSession then takeNumbered l f s
      else s
    if l = 2 then ptnFlush s else s
/-- One eligible frame has been presented: delayed frames whose turn has come follow (R358). -/
def ageDelayed (l : Nat) (s : State) : State :=
  let aged := (getInj s l).delayed.map fun d => (d.1, d.2 - 1)
  let s := modInj s l fun j => { j with delayed := aged.filter fun d => decide (0 < d.2) }
  each (aged.filter fun d => d.2 = 0) (fun d s => presentFrame l d.1 s) s
/-- The injector of a port meets a good frame (R358, R359). -/
def injectRx (l : Nat) (f : LinkFrame) (s : State) : State :=
  let j := getInj s l
  if 2 ≤ l || !(j.mask.getLsbD (frType f)) then presentFrame l f s
  else if j.action ≠ 1 && j.action ≠ 3 then ageDelayed l (presentFrame l f s)
  else match injStep j with
    | (false, j') => ageDelayed l (presentFrame l f (modInj s l fun _ => j'))
    | (true, j') =>
      if j.action = 1 then modInj s l fun _ => { injDone j' with lastAct := some (now s), dropped := if isNumbered f then j'.dropped ++ [frSeq f] else j'.dropped }
      else modInj s l fun _ => { injDone j' with lastAct := some (now s), delayed := j'.delayed ++ [(f, j.reorderD)] }
/-- A control block of a received codeword, bits 256:1, is IDLE or LANE with its reserved bits zero (R337). -/
def ctlOk (b : BitVec 256) : Bool := (b &&& 0xFF = 1 && b >>> 8 = 0) || (b &&& 0xFF = 2 && b >>> 16 = 0)
/-- FRAME_RECEIVE (R337, R340, R342, R358, R449): a control block that is neither IDLE nor LANE is a protocol error, then the frame is taken. -/
def execFrameReceive (l : LinkId) (f : LinkFrame) (s : State) : Host.Outcome State Fault Refusal := live s fun s =>
  .next (
    let s := if linkUp s l.num then each (f.ctl.filter fun b => !ctlOk b) (fun _ s => protoError l.num s) s else s
    if !linkUp s l.num then s
    else if !f.fecOk || !crcGood f then modLink s l.num fun k => { k with crcErr := satInc 16 k.crcErr }
    else if !formOk l.num f then protoError l.num s
    else injectRx l.num f s)

end Sys2Proof.Machine
end

