-- ==== Sys2Proof/Machine/Dispatch.lean ====
section
/-! DEFINITION. One arm per command: what each does to everything but the queue. -/

namespace Sys2Proof.Machine

def exec (i : Instr) (s : State) : Host.Outcome State Fault Refusal :=
  match i with
  | .powerOnReset railsOk => Sys2Proof.Machine.execPowerOnReset railsOk s
  | .resetNAssert => Sys2Proof.Machine.execResetNAssert s
  | .resetRelease o => Sys2Proof.Machine.execResetRelease o s
  | .arbitrationTimeout => Sys2Proof.Machine.execArbitrationTimeout s
  | .refclkLoss => Sys2Proof.Machine.execRefclkLoss s
  | .corePllUnlock => Sys2Proof.Machine.execCorePllUnlock s
  | .lanePllUnlock pll => Sys2Proof.Machine.execLanePllUnlock pll s
  | .supplyFault rail powerFailFirst => Sys2Proof.Machine.execSupplyFault rail powerFailFirst s
  | .droopTrip domain => Sys2Proof.Machine.execDroopTrip domain s
  | .thermalSensorRead t => Sys2Proof.Machine.execThermalSensorRead t s
  | .slackMonitorRead ps => Sys2Proof.Machine.execSlackMonitorRead ps s
  | .avsStep acked readback => Sys2Proof.Machine.execAvsStep acked readback s
  | .avsRepeatWrite acked readback => Sys2Proof.Machine.execAvsRepeatWrite acked readback s
  | .vin12Window c0 c1 c2 c3 => Sys2Proof.Machine.execVin12Window c0 c1 c2 c3 s
  | .vin12SenseFault timeout reading => Sys2Proof.Machine.execVin12SenseFault timeout reading s
  | .pwrFailNLow => Sys2Proof.Machine.execPwrFailNLow s
  | .dumpStart => Sys2Proof.Machine.execDumpStart s
  | .dumpChunkCommit readsBack => Sys2Proof.Machine.execDumpChunkCommit readsBack s
  | .dumpBusLow => Sys2Proof.Machine.execDumpBusLow s
  | .pwmPeriod m => Sys2Proof.Machine.execPwmPeriod m s
  | .observerLock => Sys2Proof.Machine.execObserverLock s
  | .observerLockLoss => Sys2Proof.Machine.execObserverLockLoss s
  | .overcurrentRecatch => Sys2Proof.Machine.execOvercurrentRecatch s
  | .senseFault offsets => Sys2Proof.Machine.execSenseFault offsets s
  | .busOvRecover => Sys2Proof.Machine.execBusOvRecover s
  | .busUndervoltage => Sys2Proof.Machine.execBusUndervoltage s
  | .chopperOn vbus => Sys2Proof.Machine.execChopperOn vbus s
  | .chopperOff vbus => Sys2Proof.Machine.execChopperOff vbus s
  | .chopperFault which ichop => Sys2Proof.Machine.execChopperFault which ichop s
  | .generatorExhausted => Sys2Proof.Machine.execGeneratorExhausted s
  | .voltageLimitFault => Sys2Proof.Machine.execVoltageLimitFault s
  | .speedSample o => Sys2Proof.Machine.execSpeedSample o s
  | .speedSourceTimeout => Sys2Proof.Machine.execSpeedSourceTimeout s
  | .dataWindowMean => Sys2Proof.Machine.execDataWindowMean s
  | .dataWindowEntry => Sys2Proof.Machine.execDataWindowEntry s
  | .dataWindowTimeout => Sys2Proof.Machine.execDataWindowTimeout s
  | .windowEntryTimeout => Sys2Proof.Machine.execWindowEntryTimeout s
  | .offsetMeasureDone => Sys2Proof.Machine.execOffsetMeasureDone s
  | .catchMeasureDone => Sys2Proof.Machine.execCatchMeasureDone s
  | .slowWaitDone => Sys2Proof.Machine.execSlowWaitDone s
  | .slowWaitTimeout => Sys2Proof.Machine.execSlowWaitTimeout s
  | .alignDone => Sys2Proof.Machine.execAlignDone s
  | .observerHandoff => Sys2Proof.Machine.execObserverHandoff s
  | .handoffTimeout => Sys2Proof.Machine.execHandoffTimeout s
  | .catchAt1000 => Sys2Proof.Machine.execCatchAt1000 s
  | .spinupComplete => Sys2Proof.Machine.execSpinupComplete s
  | .suTimeout => Sys2Proof.Machine.execSuTimeout s
  | .brakeStart => Sys2Proof.Machine.execBrakeStart s
  | .shortBrakeSwitch => Sys2Proof.Machine.execShortBrakeSwitch s
  | .spindleStopped => Sys2Proof.Machine.execSpindleStopped s
  | .servoWedge arm head => Sys2Proof.Machine.execServoWedge arm head s
  | .armCoastTimeout arm => Sys2Proof.Machine.execArmCoastTimeout arm s
  | .surfaceMismatch arm head => Sys2Proof.Machine.execSurfaceMismatch arm head s
  | .wedgeLossRun arm head => Sys2Proof.Machine.execWedgeLossRun arm head s
  | .reacquireTimeout arm head => Sys2Proof.Machine.execReacquireTimeout arm head s
  | .strokeLimitRun arm head => Sys2Proof.Machine.execStrokeLimitRun arm head s
  | .readerDisagreeRun arm head => Sys2Proof.Machine.execReaderDisagreeRun arm head s
  | .settleTimeout arm head => Sys2Proof.Machine.execSettleTimeout arm head s
  | .clearanceEstimate arm head => Sys2Proof.Machine.execClearanceEstimate arm head s
  | .armLoad arm => Sys2Proof.Machine.execArmLoad arm s
  | .loadAcquireTimeout arm => Sys2Proof.Machine.execLoadAcquireTimeout arm s
  | .retractedWaitTimeout arm => Sys2Proof.Machine.execRetractedWaitTimeout arm s
  | .armUnload arm => Sys2Proof.Machine.execArmUnload arm s
  | .unloadComplete arm => Sys2Proof.Machine.execUnloadComplete arm s
  | .unloadTimeout arm => Sys2Proof.Machine.execUnloadTimeout arm s
  | .vcmDiFrame arm f => Sys2Proof.Machine.execVcmDiFrame arm f s
  | .vcmReload arm => Sys2Proof.Machine.execVcmReload arm s
  | .vcmReloadTimeout arm => Sys2Proof.Machine.execVcmReloadTimeout arm s
  | .loopExecute ctx input o => Sys2Proof.Machine.execLoopExecute ctx input o s
  | .loopSwitchTimeout ctx => Sys2Proof.Machine.execLoopSwitchTimeout ctx s
  | .lawReplace ctx base entries phaseMargin => Sys2Proof.Machine.execLawReplace ctx base entries phaseMargin s
  | .sineInjectStart gen ctx amplitude frequency periods => Sys2Proof.Machine.execSineInjectStart gen ctx amplitude frequency periods s
  | .traceTrigger => Sys2Proof.Machine.execTraceTrigger s
  | .traceCaptureDone ch => Sys2Proof.Machine.execTraceCaptureDone ch s
  | .sampleWord arm word => Sys2Proof.Machine.execSampleWord arm word s
  | .streamMark arm word => Sys2Proof.Machine.execStreamMark arm word s
  | .preambleSearch island slot => Sys2Proof.Machine.execPreambleSearch island slot s
  | .secondCandidateRebuild island => Sys2Proof.Machine.execSecondCandidateRebuild island s
  | .rawCheck island slot => Sys2Proof.Machine.execRawCheck island slot s
  | .rawResultHandle island => Sys2Proof.Machine.execRawResultHandle island s
  | .islandFail island why => Sys2Proof.Machine.execIslandFail island why s
  | .islandReassign arm head island => Sys2Proof.Machine.execIslandReassign arm head island s
  | .islandTablesLoaded island => Sys2Proof.Machine.execIslandTablesLoaded island s
  | .codewordTake engine => Sys2Proof.Machine.execCodewordTake engine s
  | .decodeDone engine => Sys2Proof.Machine.execDecodeDone engine s
  | .engineTimeout engine why => Sys2Proof.Machine.execEngineTimeout engine why s
  | .queueSlotUe slot => Sys2Proof.Machine.execQueueSlotUe slot s
  | .headSuspendTick => Sys2Proof.Machine.execHeadSuspendTick s
  | .headResumeTick => Sys2Proof.Machine.execHeadResumeTick s
  | .operationGrant arm => Sys2Proof.Machine.execOperationGrant arm s
  | .islandGateOff arm => Sys2Proof.Machine.execIslandGateOff arm s
  | .rowBuild => Sys2Proof.Machine.execRowBuild s
  | .dirtyAgeExpiry lba => Sys2Proof.Machine.execDirtyAgeExpiry lba s
  | .pinWaitExpiry row => Sys2Proof.Machine.execPinWaitExpiry row s
  | .rowCommit row => Sys2Proof.Machine.execRowCommit row s
  | .commitRecordFlush => Sys2Proof.Machine.execCommitRecordFlush s
  | .headFailDeclare arm head => Sys2Proof.Machine.execHeadFailDeclare arm head s
  | .millpondUe requester c => Sys2Proof.Machine.execMillpondUe requester c s
  | .migrationStart logical cause => Sys2Proof.Machine.execMigrationStart logical cause s
  | .migrationComplete => Sys2Proof.Machine.execMigrationComplete s
  | .scrubRead channel syndromes => Sys2Proof.Machine.execScrubRead channel syndromes s
  | .sparePatternTest pass => Sys2Proof.Machine.execSparePatternTest pass s
  | .dramRefresh channel => Sys2Proof.Machine.execDramRefresh channel s
  | .zqCalShort channel => Sys2Proof.Machine.execZqCalShort channel s
  | .descriptorPost ch d => Sys2Proof.Machine.execDescriptorPost ch d s
  | .descriptorStart ch => Sys2Proof.Machine.execDescriptorStart ch s
  | .descriptorDone ch => Sys2Proof.Machine.execDescriptorDone ch s
  | .channelHalt ch cause address element => Sys2Proof.Machine.execChannelHalt ch cause address element s
  | .trePause ch => Sys2Proof.Machine.execTrePause ch s
  | .treResume ch => Sys2Proof.Machine.execTreResume ch s
  | .treFlush ch => Sys2Proof.Machine.execTreFlush ch s
  | .treCancel ch ctx sourcePresent => Sys2Proof.Machine.execTreCancel ch ctx sourcePresent s
  | .treRetry ch => Sys2Proof.Machine.execTreRetry ch s
  | .treRestart ch => Sys2Proof.Machine.execTreRestart ch s
  | .treSkip ch => Sys2Proof.Machine.execTreSkip ch s
  | .mqPacketWrite q words => Sys2Proof.Machine.execMqPacketWrite q words s
  | .mqProducerTimeout q producer => Sys2Proof.Machine.execMqProducerTimeout q producer s
  | .mqPop q ue => Sys2Proof.Machine.execMqPop q ue s
  | .mqPopWatchdog q => Sys2Proof.Machine.execMqPopWatchdog q s
  | .tallyEventPost code injected source payload => Sys2Proof.Machine.execTallyEventPost code injected source payload s
  | .tallyFlushTimer => Sys2Proof.Machine.execTallyFlushTimer s
  | .tallyBlockErase => Sys2Proof.Machine.execTallyBlockErase s
  | .faultReport rs => Sys2Proof.Machine.execFaultReport rs s
  | .firstErrorCopy => Sys2Proof.Machine.execFirstErrorCopy s
  | .quietTimerExpiry => Sys2Proof.Machine.execQuietTimerExpiry s
  | .faultHoldRelease => Sys2Proof.Machine.execFaultHoldRelease s
  | .failStop cause => Sys2Proof.Machine.execFailStop cause s
  | .coreTrap core mem inHandler injected => Sys2Proof.Machine.execCoreTrap core mem inHandler injected s
  | .sramPatrol mem offset data check live otherBad => Sys2Proof.Machine.execSramPatrol mem offset data check live otherBad s
  | .flashPageRead who p sector steps => Sys2Proof.Machine.execFlashPageRead who p sector steps s
  | .flashProgram who p first sectors => Sys2Proof.Machine.execFlashProgram who p first sectors s
  | .flashProgramDone bank ok => Sys2Proof.Machine.execFlashProgramDone bank ok s
  | .flashErase who kind bank block => Sys2Proof.Machine.execFlashErase who kind bank block s
  | .flashEraseDone bank ok => Sys2Proof.Machine.execFlashEraseDone bank ok s
  | .blockRefresh bank block => Sys2Proof.Machine.execBlockRefresh bank block s
  | .fetchLookup q addr access ue steps => Sys2Proof.Machine.execFetchLookup q addr access ue steps s
  | .fetchFill => Sys2Proof.Machine.execFetchFill s
  | .fillComplete steps => Sys2Proof.Machine.execFillComplete steps s
  | .prefetchIssue q => Sys2Proof.Machine.execPrefetchIssue q s
  | .invalLine core addr => Sys2Proof.Machine.execInvalLine core addr s
  | .invalRange core base lines => Sys2Proof.Machine.execInvalRange core base lines s
  | .invalAll core => Sys2Proof.Machine.execInvalAll core s
  | .lock core addr => Sys2Proof.Machine.execLock core addr s
  | .unlock core addr => Sys2Proof.Machine.execUnlock core addr s
  | .unlockAll core => Sys2Proof.Machine.execUnlockAll core s
  | .alkTrainAttempt arm upFail downFail reachesExchange => Sys2Proof.Machine.execAlkTrainAttempt arm upFail downFail reachesExchange s
  | .alkTrainTimeout arm => Sys2Proof.Machine.execAlkTrainTimeout arm s
  | .alkTrainRetry arm => Sys2Proof.Machine.execAlkTrainRetry arm s
  | .identity arm word => Sys2Proof.Machine.execIdentity arm word s
  | .alkLaneErrorWindow arm up lane corrected uncorrectable => Sys2Proof.Machine.execAlkLaneErrorWindow arm up lane corrected uncorrectable s
  | .alkLaneLockLoss arm up lane => Sys2Proof.Machine.execAlkLaneLockLoss arm up lane s
  | .alkUplinkUncorr arm lane streams => Sys2Proof.Machine.execAlkUplinkUncorr arm lane streams s
  | .alkUplinkSilence arm => Sys2Proof.Machine.execAlkUplinkSilence arm s
  | .portStatusTimeout arm => Sys2Proof.Machine.execPortStatusTimeout arm s
  | .ackTimeout arm seq => Sys2Proof.Machine.execAckTimeout arm seq s
  | .ackTelemetry arm word => Sys2Proof.Machine.execAckTelemetry arm word s
  | .tempTelemetry arm word => Sys2Proof.Machine.execTempTelemetry arm word s
  | .sensorUnreported sensor => Sys2Proof.Machine.execSensorUnreported sensor s
  | .laserMon arm word => Sys2Proof.Machine.execLaserMon arm word s
  | .heaterMon arm word => Sys2Proof.Machine.execHeaterMon arm word s
  | .readerMon arm word => Sys2Proof.Machine.execReaderMon arm word s
  | .supplyTelemetry arm word => Sys2Proof.Machine.execSupplyTelemetry arm word s
  | .wfifoTelemetry arm word => Sys2Proof.Machine.execWfifoTelemetry arm word s
  | .faultTelemetry arm word => Sys2Proof.Machine.execFaultTelemetry arm word s
  | .portStatus arm word => Sys2Proof.Machine.execPortStatus arm word s
  | .telemetryUndefined arm word => Sys2Proof.Machine.execTelemetryUndefined arm word s
  | .lnkTrainAttempt l rxFail txFail peerPresent => Sys2Proof.Machine.execLnkTrainAttempt l rxFail txFail peerPresent s
  | .lnkTrainTimeout l => Sys2Proof.Machine.execLnkTrainTimeout l s
  | .lnkTrainRetry l => Sys2Proof.Machine.execLnkTrainRetry l s
  | .frameReceive l f => Sys2Proof.Machine.execFrameReceive l f s
  | .wdataReceive p w => Sys2Proof.Machine.execWdataReceive p w s
  | .gapTimerExpiry l => Sys2Proof.Machine.execGapTimerExpiry l s
  | .replayTimerExpiry l seq => Sys2Proof.Machine.execReplayTimerExpiry l seq s
  | .ackDelayExpiry l => Sys2Proof.Machine.execAckDelayExpiry l s
  | .idleKeepalive l => Sys2Proof.Machine.execIdleKeepalive l s
  | .linkRxSilence l => Sys2Proof.Machine.execLinkRxSilence l s
  | .lnkLaneErrorWindow l lane corrected uncorrectable => Sys2Proof.Machine.execLnkLaneErrorWindow l lane corrected uncorrectable s
  | .lnkLaneLockLoss l lane => Sys2Proof.Machine.execLnkLaneLockLoss l lane s
  | .laneMapRepeat l => Sys2Proof.Machine.execLaneMapRepeat l s
  | .sessionOpen p r => Sys2Proof.Machine.execSessionOpen p r s
  | .sessionClose p sid reason => Sys2Proof.Machine.execSessionClose p sid reason s
  | .nak l seqs => Sys2Proof.Machine.execNak l seqs s
  | .keepalive l => Sys2Proof.Machine.execKeepalive l s
  | .laneMap l lane reason => Sys2Proof.Machine.execLaneMap l lane reason s
  | .laneMapDone l lane => Sys2Proof.Machine.execLaneMapDone l lane s
  | .linkHoldExpiry p => Sys2Proof.Machine.execLinkHoldExpiry p s
  | .cplFrameSend p => Sys2Proof.Machine.execCplFrameSend p s
  | .rdataFrameSend p => Sys2Proof.Machine.execRdataFrameSend p s
  | .writeGrant => Sys2Proof.Machine.execWriteGrant s
  | .wdataTimeout p tag => Sys2Proof.Machine.execWdataTimeout p tag s
  | .holdLimitExpiry p tag => Sys2Proof.Machine.execHoldLimitExpiry p tag s
  | .read p c => Sys2Proof.Machine.execRead p c s
  | .write p c => Sys2Proof.Machine.execWrite p c s
  | .verify p c => Sys2Proof.Machine.execVerify p c s
  | .flush p c => Sys2Proof.Machine.execFlush p c s
  | .abort p c => Sys2Proof.Machine.execAbort p c s
  | .identify p c => Sys2Proof.Machine.execIdentify p c s
  | .getState p c => Sys2Proof.Machine.execGetState p c s
  | .setBudget p c => Sys2Proof.Machine.execSetBudget p c s
  | .logRead p c => Sys2Proof.Machine.execLogRead p c s
  | .logClear p c => Sys2Proof.Machine.execLogClear p c s
  | .deferredRead p c => Sys2Proof.Machine.execDeferredRead p c s
  | .timeSet p c => Sys2Proof.Machine.execTimeSet p c s
  | .spinPolicy p c => Sys2Proof.Machine.execSpinPolicy p c s
  | .spinUp p c => Sys2Proof.Machine.execSpinUp p c s
  | .spinDown p c => Sys2Proof.Machine.execSpinDown p c s
  | .selfCheck p c failed => Sys2Proof.Machine.execSelfCheck p c failed s
  | .diagRead p c ueRegs => Sys2Proof.Machine.execDiagRead p c ueRegs s
  | .diagWrite p c => Sys2Proof.Machine.execDiagWrite p c s
  | .inject p c => Sys2Proof.Machine.execInject p c s
  | .traceControl p c => Sys2Proof.Machine.execTraceControl p c s
  | .ucodeBankWrite p c => Sys2Proof.Machine.execUcodeBankWrite p c s
  | .ucodeBankCommit p c bankOk version => Sys2Proof.Machine.execUcodeBankCommit p c bankOk version s
  | .imageCopyWrite p c => Sys2Proof.Machine.execImageCopyWrite p c s
  | .imageCopyCommit p c => Sys2Proof.Machine.execImageCopyCommit p c s
  | .unlockChallenge p c => Sys2Proof.Machine.execUnlockChallenge p c s
  | .unlockResponse p c => Sys2Proof.Machine.execUnlockResponse p c s
  | .unlockLock p c => Sys2Proof.Machine.execUnlockLock p c s
  | .unlockExpiry path => Sys2Proof.Machine.execUnlockExpiry path s
  | .unlockRefusalEnd path => Sys2Proof.Machine.execUnlockRefusalEnd path s
  | .handover p c => Sys2Proof.Machine.execHandover p c s
  | .budgetPwmPeriod period high => Sys2Proof.Machine.execBudgetPwmPeriod period high s
  | .budgetPwmSilence => Sys2Proof.Machine.execBudgetPwmSilence s
  | .bpwmHoldExpiry => Sys2Proof.Machine.execBpwmHoldExpiry s
  | .pwmRiseSettle => Sys2Proof.Machine.execPwmRiseSettle s
  | .hourlyEvaluation loops eyes => Sys2Proof.Machine.execHourlyEvaluation loops eyes s
  | .replan k loc value second phaseMargin => Sys2Proof.Machine.execReplan k loc value second phaseMargin s
  | .horizonCompute day => Sys2Proof.Machine.execHorizonCompute day s
  | .windingREstimate => Sys2Proof.Machine.execWindingREstimate s
  | .slackPeriodEval => Sys2Proof.Machine.execSlackPeriodEval s
  | .laneEyeEval l lane eyeH eyeV => Sys2Proof.Machine.execLaneEyeEval l lane eyeH eyeV s
  | .heartbeatTick served => Sys2Proof.Machine.execHeartbeatTick served s
  | .partnerWindow toggles frames activeIn => Sys2Proof.Machine.execPartnerWindow toggles frames activeIn s
  | .partnerHungRecheck toggles frames activeIn => Sys2Proof.Machine.execPartnerHungRecheck toggles frames activeIn s
  | .activeInFall => Sys2Proof.Machine.execActiveInFall s
  | .takeoverResume => Sys2Proof.Machine.execTakeoverResume s
  | .arbitrate r => Sys2Proof.Machine.execArbitrate r s
  | .heartbeat standby state time dirty => Sys2Proof.Machine.execHeartbeat standby state time dirty s
  | .mdata frame fib data => Sys2Proof.Machine.execMdata frame fib data s
  | .ment es => Sys2Proof.Machine.execMent es s
  | .confirm frames => Sys2Proof.Machine.execConfirm frames s
  | .cmdCtx p tag arrival opcode lba count => Sys2Proof.Machine.execCmdCtx p tag arrival opcode lba count s
  | .ptnCpl p r => Sys2Proof.Machine.execPtnCpl p r s
  | .cplAcked p tag arrival => Sys2Proof.Machine.execCplAcked p tag arrival s
  | .ptnRowCommit row time => Sys2Proof.Machine.execPtnRowCommit row time s
  | .ptnLayout r => Sys2Proof.Machine.execPtnLayout r s
  | .ptnPlan r => Sys2Proof.Machine.execPtnPlan r s
  | .ptnDeferred r => Sys2Proof.Machine.execPtnDeferred r s
  | .ptnFailstop cause => Sys2Proof.Machine.execPtnFailstop cause s
  | .handoverRequest reason => Sys2Proof.Machine.execHandoverRequest reason s
  | .handoverReleased reason => Sys2Proof.Machine.execHandoverReleased reason s
  | .handoverActive reason => Sys2Proof.Machine.execHandoverActive reason s
  | .resyncStart frames => Sys2Proof.Machine.execResyncStart frames s
  | .resyncDone frames => Sys2Proof.Machine.execResyncDone frames s
  | .fetchRequest frame vseq => Sys2Proof.Machine.execFetchRequest frame vseq s
  | .fetchReply frame vseq data => Sys2Proof.Machine.execFetchReply frame vseq data s
  | .replayReadDone area unreadable => Sys2Proof.Machine.execReplayReadDone area unreadable s
  | .dumpRetire area => Sys2Proof.Machine.execDumpRetire area s
  | .loadingComplete => Sys2Proof.Machine.execLoadingComplete s
  | .fltClearCounts path => Sys2Proof.Machine.execFltClearCounts path s
  | .fltClearFirst path => Sys2Proof.Machine.execFltClearFirst path s
  | .traceCfgWrite path ch value => Sys2Proof.Machine.execTraceCfgWrite path ch value s
  | .traceArm path value => Sys2Proof.Machine.execTraceArm path value s
  | .traceFire path value => Sys2Proof.Machine.execTraceFire path value s
  | .injFltReportGo path value => Sys2Proof.Machine.execInjFltReportGo path value s
  | .injEccGo path value => Sys2Proof.Machine.execInjEccGo path value s
  | .injTreHaltGo path value => Sys2Proof.Machine.execInjTreHaltGo path value s
  | .injLnkCfgWrite path port value => Sys2Proof.Machine.execInjLnkCfgWrite path port value s
  | .registerWrite path address value => Sys2Proof.Machine.execRegisterWrite path address value s
  | .diagAccRead address ue => Sys2Proof.Machine.execDiagAccRead address ue s
  | .diagAccWrite address value => Sys2Proof.Machine.execDiagAccWrite address value s
  | .jtagUnlockChallenge => Sys2Proof.Machine.execJtagUnlockChallenge s
  | .jtagUnlockResponse response => Sys2Proof.Machine.execJtagUnlockResponse response s
  | .jtagUnlockLock => Sys2Proof.Machine.execJtagUnlockLock s
  | .tapReset => Sys2Proof.Machine.execTapReset s
  | .fuseProg go group value vioOk => Sys2Proof.Machine.execFuseProg go group value vioOk s
  | .extest drive => Sys2Proof.Machine.execExtest drive s
  | .samplePreload sample preload => Sys2Proof.Machine.execSamplePreload sample preload s
  | .idcode => Sys2Proof.Machine.execIdcode s
  | .extestPulse drive => Sys2Proof.Machine.execExtestPulse drive s
  | .extestTrain drive => Sys2Proof.Machine.execExtestTrain drive s
  | .bypass code => Sys2Proof.Machine.execBypass code s
  | .stoppedArbitrateTick => Sys2Proof.Machine.execStoppedArbitrateTick s
  | .nvmProgramDone => Sys2Proof.Machine.execNvmProgramDone s
  | .nvmBusyTimeout => Sys2Proof.Machine.execNvmBusyTimeout s
  | .spareChannelTrainingLoss => Sys2Proof.Machine.execSpareChannelTrainingLoss s
  | .pwrFailNHigh => Sys2Proof.Machine.execPwrFailNHigh s

end Sys2Proof.Machine
end

