-- ==== Sys2Proof/Machine/Tick.lean ====
section
/-! DEFINITION. What runs with the clock while no command waits: device time, the rounds of the arm links (R72), the codewords of the
ports and of the partner link (R337), the frames of the VCM drive port (R204), a migration of the millpond (R308), write data that has waited for its intake (R349). -/

namespace Sys2Proof.Machine

/-- Write data that waited for a port's intake channels moves on once one of them may go on (R349; log entry 47). -/
def drainPorts (s : State) : State := each [0, 1] (fun l s => if (getLink s l).intake.isEmpty then s else drainIntake l s) s
/-- One tick of the always-on clock and what begins within it (log entry 1). -/
def tick (s : State) : State :=
  let t := idleTick s
  if awake s then drainPorts (copyUnits (now s) (now t) (vcmFrames (now s) (now t) (laneRounds (now s) (now t) (alkRounds (now s) (now t) t)))) else t

end Sys2Proof.Machine
end

