-- ==== Sys2Proof/Safety.lean ====
section
/-! DEFINITION. What a safe run is, in the terms that claims use: the canonical form of every file held by number, and a step that neither
faults nor refuses. -/

namespace Sys2Proof.Machine

/-- The memories of the block are in their one canonical form: millpond frames and ledger (R284, R278), millrace slots (R278), flash sectors
(R478), the configuration NVM (R545) and the governor's section store (R214). -/
def State.memWf (s : State) : Bool :=
  tabWf 0 s.mpd.frames && tabWf {} s.mpd.ledger && tabWf {} s.mrc.slots && tabWf none s.fls.sectors &&
    tabWf (BitVec.allOnes 32768) s.nvm.blocks && tabWf 0 s.gov.store

/-- The bookkeeping of flash blocks in `t` is that of `s`, but for pages that a cut program or erase has torn (R485, R489). -/
def CutOnly (s t : State) : Prop :=
  ∀ p, { getBlk t p with torn := 0 } = { getBlk s p with torn := 0 } ∧ (getBlk t p).torn &&& (getBlk s p).torn = (getBlk s p).torn

/-- What outlasts a reset and the loss of the clocks in `t` after `s` (R478, R545, R587, R648, R661): the cells of flash and of the NVM with their
bookkeeping, the recorded events, the dump areas, the fuses, and the identity of the part. -/
def Lasting (s t : State) : Prop :=
  t.fls.sectors = s.fls.sectors ∧ CutOnly s t ∧ t.fls.map = s.fls.map ∧ t.nvm.blocks = s.nvm.blocks ∧
    t.evt.written = s.evt.written ∧ t.hold.areas = s.hold.areas ∧ t.fuses = s.fuses ∧ t.idn.serial = s.idn.serial

/-- Port `p` takes capsule `c` in `s` as a new command: its session is open, its tag is none of the port's, a tag is free (R346, R371), and no command
has the arrival number that `c` gets. -/
def Arrives (s : State) (p : Port) (c : Capsule) : Prop :=
  awake s = true ∧ takesCapsules s p = true ∧ cmdOfTag s p.num c.tag = none ∧ tagsInUse s p.num < 8192 ∧
    ∀ d ∈ s.hop.cmds, d.arrival ≠ s.hop.nextArrival

/-- The capsule passes every check of Table 12.4 (R370), and Table 12.7 lets the device state execute it at once (R395). -/
def Executes (s : State) (p : Port) (c : Capsule) : Prop :=
  Arrives s p c ∧ admissionFault s p c = none ∧ stateRule s c.opcode.toNat = .execute

/-- `t` holds the completion record of capsule `c`, which arrived on `p` in `s`, with this status and INFO (R367). -/
def Answered (s t : State) (p : Port) (c : Capsule) (status info : Nat) : Prop :=
  .inl { tag := c.tag, status := BitVec.ofNat 8 status, opcode := c.opcode, arrival := BitVec.ofNat 40 s.hop.nextArrival, info := BitVec.ofNat 48 info } ∈
    (getHopPort t p.num).cpls

/-- The status GOOD of port `p`: GOOD_DEFERRED_PENDING while it keeps a deferred record (R393). -/
def goodStatus (s : State) (p : Port) : Nat := if deferredPending s p.num then 1 else 0

/-- The command of capsule `c`, which arrived on `p` in `s`, runs in `t`. -/
def Running (s t : State) (p : Port) (c : Capsule) (d : Cmd) : Prop :=
  cmdOf t s.hop.nextArrival = some d ∧ d.cap = c ∧ d.port = p.num ∧ d.admitted = true ∧ d.phase = .running

/-- The command of capsule `c` runs in `t`, returns `blocks`, and then completes with `info` (R368, R380). -/
def Replies (s t : State) (p : Port) (c : Capsule) (blocks : List Block) (info : Nat) : Prop :=
  ∃ d, Running s t p c d ∧ d.reply = blocks ∧ d.result = some { info := BitVec.ofNat 48 info }

/-- `s` once it has taken capsule `c` on `p` as an admitted command: its tag, its context, its arrival number, and the partner's copy of them
(R371, R449). -/
def taken (s : State) (p : Port) (c : Capsule) (x : Extra) : State :=
  mirror (.cmdCtx p.num c.tag (BitVec.ofNat 40 s.hop.nextArrival) c.opcode c.lba c.count)
    (addCmd s.hop.nextArrival p c x true { s with hop := { s.hop with nextArrival := (s.hop.nextArrival + 1) % 2 ^ 40 } })

/-- The units of the block that a command may change, by its row: `t` after `c` in `s` is `s` but for the units named; where a command may reach most of
the block, the units that it leaves. A reset and the loss of the clocks leave what `Lasting` says. -/
def Frame (c : Instr) (s t : State) : Prop :=
  match c with
  | .keepalive .. => t = s
  | .sineInjectStart .. | .traceTrigger .. | .traceCaptureDone .. => t = { s with gov := t.gov }
  | .sampleWord .. | .streamMark .. | .alkTrainRetry .. | .laserMon .. | .heaterMon .. | .readerMon .. | .supplyTelemetry .. | .wfifoTelemetry ..
  | .telemetryUndefined .. => t = { s with alks := t.alks }
  | .codewordTake .. => t = { s with bol := t.bol }
  | .commitRecordFlush .. | .dramRefresh .. | .zqCalShort .. => t = { s with mpd := t.mpd }
  | .descriptorPost .. | .trePause .. | .treResume .. | .treFlush .. | .treSkip .. => t = { s with tre := t.tre }
  | .tallyFlushTimer .. | .tallyBlockErase .. => t = { s with evt := t.evt }
  | .invalLine .. | .invalRange .. | .invalAll .. | .unlock .. | .unlockAll .. => t = { s with fcc := t.fcc }
  | .lnkTrainRetry .. => t = { s with links := t.links }
  | .unlockExpiry .. | .unlockRefusalEnd .. | .tapReset .. | .extest .. | .extestPulse .. | .extestTrain .. => t = { s with diag := t.diag }
  | .cplAcked .. => t = { s with ptn := t.ptn }
  | .ptnPlan .. => t = { s with fan := t.fan }
  | .pwrFailNHigh .. => t = { s with pwr := t.pwr }
  | .chopperOn .. | .chopperOff .. => t = { s with spn := t.spn, tx := t.tx }
  | .alignDone .. | .windingREstimate .. => t = { s with spn := t.spn, spc := t.spc }
  | .pinWaitExpiry .. => t = { s with mpd := t.mpd, slu := t.slu }
  | .mqPopWatchdog .. => t = { s with mqs := t.mqs, tx := t.tx }
  | .tallyEventPost .. => t = { s with evt := t.evt, gov := t.gov }
  | .quietTimerExpiry .. => t = { s with flt := t.flt, gov := t.gov }
  | .prefetchIssue .. => t = { s with fls := t.fls, fcc := t.fcc }
  | .lock .. => t = { s with fcc := t.fcc, tx := t.tx }
  | .takeoverResume .. => t = { s with ptn := t.ptn, arms := t.arms }
  | .cmdCtx .. => t = { s with ptn := t.ptn, hop := t.hop }
  | .ptnCpl .. => t = { s with ptn := t.ptn, mpd := t.mpd }
  | .ptnRowCommit .. => t = { s with diag := t.diag, mpd := t.mpd }
  | .ptnLayout .. => t = { s with layout := t.layout, heads := t.heads }
  | .jtagUnlockLock .. | .samplePreload .. | .idcode .. | .bypass .. => t = { s with diag := t.diag, tx := t.tx }
  | .droopTrip .. | .vin12SenseFault .. => t = { s with pwr := t.pwr, evt := t.evt, gov := t.gov }
  | .observerLock .. => t = { s with flt := t.flt, gov := t.gov, spn := t.spn }
  | .dataWindowEntry .. => t = { s with flt := t.flt, spn := t.spn, spc := t.spc }
  | .observerHandoff .. => t = { s with gov := t.gov, spn := t.spn, spc := t.spc }
  | .sparePatternTest .. | .spareChannelTrainingLoss .. => t = { s with evt := t.evt, gov := t.gov, mpd := t.mpd }
  | .firstErrorCopy .. => t = { s with flt := t.flt, evt := t.evt, gov := t.gov }
  | .lnkTrainTimeout .. | .linkRxSilence .. | .laneMapDone .. => t = { s with evt := t.evt, gov := t.gov, links := t.links }
  | .gapTimerExpiry .. | .ackDelayExpiry .. | .idleKeepalive .. | .laneMapRepeat .. | .fetchRequest .. | .stoppedArbitrateTick .. =>
      t = { s with
        links := t.links, injs := t.injs, tx := t.tx }
  | .writeGrant .. => t = { s with diag := t.diag, mpd := t.mpd, hop := t.hop }
  | .budgetPwmSilence .. => t = { s with pwr := t.pwr, slu := t.slu, free := t.free }
  | .resyncDone .. => t = { s with evt := t.evt, ptn := t.ptn, gov := t.gov }
  | .jtagUnlockChallenge .. => t = { s with diag := t.diag, tx := t.tx, free := t.free }
  | .jtagUnlockResponse .. => t = { s with idn := t.idn, diag := t.diag, tx := t.tx }
  | .fuseProg .. => t = { s with fuses := t.fuses, diag := t.diag, tx := t.tx }
  | .slackMonitorRead .. => t = { s with pwr := t.pwr, evt := t.evt, gov := t.gov, fan := t.fan }
  | .shortBrakeSwitch .. => t = { s with gov := t.gov, spn := t.spn, spc := t.spc, tx := t.tx }
  | .islandTablesLoaded .. => t = { s with alks := t.alks, islands := t.islands, heads := t.heads, tx := t.tx }
  | .replayTimerExpiry .. => t = { s with evt := t.evt, gov := t.gov, links := t.links, tx := t.tx }
  | .cplFrameSend .. => t = { s with links := t.links, injs := t.injs, hop := t.hop, tx := t.tx }
  | .avsRepeatWrite .. => t = { s with pwr := t.pwr, flt := t.flt, evt := t.evt, gov := t.gov, tx := t.tx }
  | .overcurrentRecatch .. | .slowWaitDone .. | .catchAt1000 .. | .brakeStart .. =>
      t = { s with
        gov := t.gov, spn := t.spn, spc := t.spc, slu := t.slu, tx := t.tx }
  | .lawReplace .. => t = { s with gov := t.gov, links := t.links, injs := t.injs, fan := t.fan, tx := t.tx }
  | .lnkLaneErrorWindow .. | .lnkLaneLockLoss .. | .nak .. | .laneMap .. =>
      t = { s with
        evt := t.evt, gov := t.gov, links := t.links, injs := t.injs, tx := t.tx }
  | .mdata .. => t = { s with hold := t.hold, diag := t.diag, mpd := t.mpd, links := t.links, injs := t.injs, tx := t.tx }
  | .headSuspendTick .. =>
      t = { s with
        mqs := t.mqs, alks := t.alks, islands := t.islands, bol := t.bol, heads := t.heads, tx := t.tx, free := t.free }
  | .migrationComplete .. => t = { s with flt := t.flt, evt := t.evt, mqs := t.mqs, gov := t.gov, mpd := t.mpd, tx := t.tx, free := t.free }
  | .lnkTrainAttempt .. | .heartbeat .. =>
      t = { s with
        evt := t.evt, ptn := t.ptn, gov := t.gov, mpd := t.mpd, links := t.links, injs := t.injs, tx := t.tx }
  | .rdataFrameSend .. => t = { s with diag := t.diag, mrc := t.mrc, mpd := t.mpd, links := t.links, injs := t.injs, hop := t.hop, tx := t.tx }
  | .ment .. => t = { s with hold := t.hold, diag := t.diag, mpd := t.mpd, links := t.links, injs := t.injs, hop := t.hop, tx := t.tx }
  | .busOvRecover .. =>
      t = { s with
        dev := t.dev, start := t.start, gov := t.gov, spn := t.spn, spc := t.spc, hop := t.hop, slu := t.slu, tx := t.tx }
  | .armCoastTimeout .. | .armUnload .. =>
      t = { s with
        alks := t.alks, islands := t.islands, heads := t.heads, arms := t.arms, gov := t.gov, mrc := t.mrc, slu := t.slu, tx := t.tx }
  | .rawCheck .. =>
      t = { s with
        evt := t.evt, mqs := t.mqs, islands := t.islands, gov := t.gov, slu := t.slu, fan := t.fan, tx := t.tx, free := t.free }
  | .confirm .. => t = { s with diag := t.diag, mrc := t.mrc, mpd := t.mpd, links := t.links, injs := t.injs, hop := t.hop, slu := t.slu, tx := t.tx }
  | .ptnDeferred .. =>
      t = { s with
        evt := t.evt, mqs := t.mqs, gov := t.gov, links := t.links, injs := t.injs, hop := t.hop, tx := t.tx, free := t.free }
  | .nvmBusyTimeout .. =>
      t = { s with
        diag := t.diag, nvm := t.nvm, mrc := t.mrc, mpd := t.mpd, links := t.links, injs := t.injs, hop := t.hop, tx := t.tx }
  | .headResumeTick .. =>
      t = { s with
        evt := t.evt, mqs := t.mqs, alks := t.alks, islands := t.islands, bol := t.bol, heads := t.heads, gov := t.gov, tx := t.tx, free := t.free }
  | .rowBuild .. | .dirtyAgeExpiry .. =>
      t = { s with
        diag := t.diag, mrc := t.mrc, mpd := t.mpd, rows := t.rows, links := t.links, injs := t.injs, hop := t.hop, slu := t.slu, tx := t.tx }
  | .holdLimitExpiry .. =>
      t = { s with
        evt := t.evt, diag := t.diag, gov := t.gov, mrc := t.mrc, mpd := t.mpd, links := t.links, injs := t.injs, hop := t.hop, tx := t.tx }
  | .bpwmHoldExpiry .. | .pwmRiseSettle .. =>
      t = { s with
        dev := t.dev, start := t.start, evt := t.evt, gov := t.gov, spn := t.spn, spc := t.spc, hop := t.hop, slu := t.slu, tx := t.tx }
  | .heartbeatTick .. =>
      t = { s with
        ptn := t.ptn, arms := t.arms, gov := t.gov, spn := t.spn, spc := t.spc, links := t.links, injs := t.injs, slu := t.slu, tx := t.tx }
  | .fetchReply .. =>
      t = { s with
        ptn := t.ptn, diag := t.diag, mrc := t.mrc, mpd := t.mpd, links := t.links, injs := t.injs, hop := t.hop, slu := t.slu, tx := t.tx }
  | .budgetPwmPeriod .. =>
      t = { s with
        dev := t.dev, start := t.start, pwr := t.pwr, evt := t.evt, gov := t.gov, spn := t.spn, spc := t.spc, hop := t.hop, slu := t.slu, tx := t.tx }
  | .replan .. =>
      t = { s with
        pwr := t.pwr, evt := t.evt, img := t.img, alks := t.alks, islands := t.islands, gov := t.gov, links := t.links, injs := t.injs, fan := t.fan,
        tx := t.tx }
  | .handoverActive .. =>
      t = { s with
        evt := t.evt, ptn := t.ptn, diag := t.diag, gov := t.gov, mrc := t.mrc, mpd := t.mpd, links := t.links, injs := t.injs, hop := t.hop,
        tx := t.tx }
  | .arbitrationTimeout .. =>
      t = { s with
        dev := t.dev, start := t.start, evt := t.evt, ptn := t.ptn, alks := t.alks, gov := t.gov, spn := t.spn, spc := t.spc, hop := t.hop,
        slu := t.slu, tx := t.tx }
  | .dataWindowTimeout .. =>
      t = { s with
        dev := t.dev, flt := t.flt, evt := t.evt, alks := t.alks, islands := t.islands, heads := t.heads, gov := t.gov, mrc := t.mrc, slu := t.slu,
        fan := t.fan, tx := t.tx }
  | .spinupComplete .. =>
      t = { s with
        dev := t.dev, start := t.start, pwr := t.pwr, evt := t.evt, hold := t.hold, img := t.img, islands := t.islands, arms := t.arms, gov := t.gov,
        spn := t.spn, fan := t.fan }
  | .wedgeLossRun .. | .readerDisagreeRun .. | .mqPacketWrite .. | .mqPop .. | .faultReport .. =>
      t = { s with
        dev := t.dev, flt := t.flt, evt := t.evt, mqs := t.mqs, alks := t.alks, islands := t.islands, heads := t.heads, gov := t.gov, mrc := t.mrc,
        slu := t.slu, fan := t.fan, tx := t.tx, free := t.free }
  | .avsStep .. =>
      t = { s with
        dev := t.dev, pwr := t.pwr, flt := t.flt, evt := t.evt, mqs := t.mqs, alks := t.alks, islands := t.islands, heads := t.heads, gov := t.gov,
        mrc := t.mrc, slu := t.slu, fan := t.fan, tx := t.tx, free := t.free }
  | .strokeLimitRun .. | .settleTimeout .. =>
      t = { s with
        dev := t.dev, flt := t.flt, evt := t.evt, mqs := t.mqs, alks := t.alks, islands := t.islands, heads := t.heads, arms := t.arms, gov := t.gov,
        mrc := t.mrc, slu := t.slu, fan := t.fan, tx := t.tx, free := t.free }
  | .mqProducerTimeout .. | .alkUplinkSilence .. | .portStatusTimeout .. =>
      t = { s with
        dev := t.dev, flt := t.flt, evt := t.evt, mqs := t.mqs, alks := t.alks, islands := t.islands, heads := t.heads, gov := t.gov, mrc := t.mrc,
        rows := t.rows, slu := t.slu, fan := t.fan, tx := t.tx, free := t.free }
  | .flashProgram .. =>
      t = { s with
        dev := t.dev, flt := t.flt, evt := t.evt, mqs := t.mqs, alks := t.alks, islands := t.islands, heads := t.heads, gov := t.gov, mrc := t.mrc,
        fls := t.fls, slu := t.slu, fan := t.fan, tx := t.tx, free := t.free }
  | .replayReadDone .. =>
      t = { s with
        start := t.start, evt := t.evt, mqs := t.mqs, hold := t.hold, diag := t.diag, layout := t.layout, heads := t.heads, gov := t.gov,
        mpd := t.mpd, links := t.links, injs := t.injs, hop := t.hop, tx := t.tx, free := t.free }
  | .generatorExhausted .. =>
      t = { s with
        dev := t.dev, flt := t.flt, evt := t.evt, mqs := t.mqs, alks := t.alks, islands := t.islands, heads := t.heads, gov := t.gov, spn := t.spn,
        spc := t.spc, mrc := t.mrc, slu := t.slu, fan := t.fan, tx := t.tx, free := t.free }
  | .retractedWaitTimeout .. =>
      t = { s with
        dev := t.dev, flt := t.flt, evt := t.evt, mqs := t.mqs, alks := t.alks, islands := t.islands, heads := t.heads, arms := t.arms, gov := t.gov,
        mrc := t.mrc, rows := t.rows, slu := t.slu, fan := t.fan, tx := t.tx, free := t.free }
  | .fetchFill .. =>
      t = { s with
        dev := t.dev, flt := t.flt, evt := t.evt, mqs := t.mqs, alks := t.alks, islands := t.islands, heads := t.heads, gov := t.gov, mrc := t.mrc,
        fls := t.fls, fcc := t.fcc, slu := t.slu, fan := t.fan, tx := t.tx, free := t.free }
  | .diagAccRead .. =>
      t = { s with
        dev := t.dev, idn := t.idn, flt := t.flt, evt := t.evt, mqs := t.mqs, diag := t.diag, alks := t.alks, islands := t.islands, heads := t.heads,
        gov := t.gov, mrc := t.mrc, slu := t.slu, fan := t.fan, tx := t.tx, free := t.free }
  | .lanePllUnlock .. =>
      t = { s with
        dev := t.dev, clk := t.clk, flt := t.flt, evt := t.evt, mqs := t.mqs, alks := t.alks, islands := t.islands, heads := t.heads, gov := t.gov,
        mrc := t.mrc, rows := t.rows, links := t.links, slu := t.slu, fan := t.fan, tx := t.tx, free := t.free }
  | .descriptorStart .. | .treRetry .. | .treRestart .. =>
      t = { s with
        dev := t.dev, flt := t.flt, evt := t.evt, mqs := t.mqs, diag := t.diag, alks := t.alks, islands := t.islands, heads := t.heads, gov := t.gov,
        mrc := t.mrc, rows := t.rows, tre := t.tre, slu := t.slu, fan := t.fan, tx := t.tx, free := t.free }
  | .flashPageRead .. =>
      t = { s with
        dev := t.dev, flt := t.flt, evt := t.evt, mqs := t.mqs, alks := t.alks, islands := t.islands, heads := t.heads, gov := t.gov, mrc := t.mrc,
        rows := t.rows, tre := t.tre, fls := t.fls, slu := t.slu, fan := t.fan, tx := t.tx, free := t.free }
  | .fetchLookup .. =>
      t = { s with
        dev := t.dev, flt := t.flt, evt := t.evt, mqs := t.mqs, alks := t.alks, islands := t.islands, heads := t.heads, gov := t.gov, mrc := t.mrc,
        rows := t.rows, tre := t.tre, fls := t.fls, fcc := t.fcc, slu := t.slu, fan := t.fan, tx := t.tx, free := t.free }
  | .dumpStart .. | .dumpChunkCommit .. | .dumpBusLow .. =>
      t = { s with
        dev := t.dev, start := t.start, flt := t.flt, evt := t.evt, ptn := t.ptn, hold := t.hold, alks := t.alks, islands := t.islands,
        heads := t.heads, arms := t.arms, gov := t.gov, spn := t.spn, spc := t.spc, mrc := t.mrc, hop := t.hop, slu := t.slu, fan := t.fan,
        tx := t.tx }
  | .fltClearCounts .. | .fltClearFirst .. | .traceCfgWrite .. | .traceArm .. | .traceFire .. | .injFltReportGo .. | .injEccGo .. | .injTreHaltGo ..
  | .injLnkCfgWrite .. | .registerWrite .. | .diagAccWrite .. =>
      t.aon = s.aon ∧ t.start = s.start ∧ t.fuses = s.fuses ∧ t.clk = s.clk ∧ t.pwr = s.pwr ∧ t.ptn = s.ptn ∧ t.hold = s.hold ∧ t.img = s.img ∧
      t.nvm = s.nvm ∧ t.layout = s.layout ∧ t.bol = s.bol ∧ t.arms = s.arms ∧ t.spn = s.spn ∧ t.spc = s.spc ∧ t.fls = s.fls ∧ t.fcc = s.fcc ∧
      t.links = s.links ∧ t.hop = s.hop ∧ t.pending = s.pending
  | .descriptorDone .. | .channelHalt .. | .treCancel .. =>
      t.aon = s.aon ∧ t.start = s.start ∧ t.idn = s.idn ∧ t.fuses = s.fuses ∧ t.clk = s.clk ∧ t.pwr = s.pwr ∧ t.ptn = s.ptn ∧ t.hold = s.hold ∧
      t.img = s.img ∧ t.nvm = s.nvm ∧ t.layout = s.layout ∧ t.bol = s.bol ∧ t.arms = s.arms ∧ t.spn = s.spn ∧ t.spc = s.spc ∧ t.fcc = s.fcc ∧
      t.hop = s.hop ∧ t.pending = s.pending
  | .spindleStopped .. =>
      t.aon = s.aon ∧ t.idn = s.idn ∧ t.fuses = s.fuses ∧ t.clk = s.clk ∧ t.pwr = s.pwr ∧ t.mqs = s.mqs ∧ t.hold = s.hold ∧ t.img = s.img ∧
      t.nvm = s.nvm ∧ t.layout = s.layout ∧ t.bol = s.bol ∧ t.rows = s.rows ∧ t.tre = s.tre ∧ t.fls = s.fls ∧ t.fcc = s.fcc ∧ t.free = s.free ∧
      t.pending = s.pending
  | .wdataTimeout .. =>
      t.aon = s.aon ∧ t.start = s.start ∧ t.idn = s.idn ∧ t.fuses = s.fuses ∧ t.clk = s.clk ∧ t.pwr = s.pwr ∧ t.ptn = s.ptn ∧ t.hold = s.hold ∧
      t.img = s.img ∧ t.nvm = s.nvm ∧ t.layout = s.layout ∧ t.bol = s.bol ∧ t.arms = s.arms ∧ t.spn = s.spn ∧ t.spc = s.spc ∧ t.fcc = s.fcc ∧
      t.pending = s.pending
  | .handoverRequest .. | .resyncStart .. =>
      t.aon = s.aon ∧ t.start = s.start ∧ t.idn = s.idn ∧ t.fuses = s.fuses ∧ t.clk = s.clk ∧ t.pwr = s.pwr ∧ t.flt = s.flt ∧ t.mqs = s.mqs ∧
      t.hold = s.hold ∧ t.img = s.img ∧ t.nvm = s.nvm ∧ t.layout = s.layout ∧ t.bol = s.bol ∧ t.fls = s.fls ∧ t.fcc = s.fcc ∧ t.free = s.free ∧
      t.pending = s.pending
  | .millpondUe .. =>
      t.aon = s.aon ∧ t.start = s.start ∧ t.idn = s.idn ∧ t.fuses = s.fuses ∧ t.clk = s.clk ∧ t.pwr = s.pwr ∧ t.hold = s.hold ∧ t.img = s.img ∧
      t.nvm = s.nvm ∧ t.bol = s.bol ∧ t.arms = s.arms ∧ t.spn = s.spn ∧ t.spc = s.spc ∧ t.fls = s.fls ∧ t.fcc = s.fcc ∧ t.pending = s.pending
  | .sessionOpen .. | .sessionClose .. | .linkHoldExpiry .. =>
      t.aon = s.aon ∧ t.start = s.start ∧ t.idn = s.idn ∧ t.fuses = s.fuses ∧ t.clk = s.clk ∧ t.pwr = s.pwr ∧ t.hold = s.hold ∧ t.img = s.img ∧
      t.nvm = s.nvm ∧ t.layout = s.layout ∧ t.bol = s.bol ∧ t.arms = s.arms ∧ t.spn = s.spn ∧ t.spc = s.spc ∧ t.fcc = s.fcc ∧ t.pending = s.pending
  | .operationGrant .. =>
      t.dev = s.dev ∧ t.aon = s.aon ∧ t.start = s.start ∧ t.idn = s.idn ∧ t.fuses = s.fuses ∧ t.clk = s.clk ∧ t.flt = s.flt ∧ t.ptn = s.ptn ∧
      t.hold = s.hold ∧ t.nvm = s.nvm ∧ t.spn = s.spn ∧ t.spc = s.spc ∧ t.fls = s.fls ∧ t.fcc = s.fcc ∧ t.pending = s.pending
  | .unloadComplete .. =>
      t.aon = s.aon ∧ t.idn = s.idn ∧ t.fuses = s.fuses ∧ t.clk = s.clk ∧ t.pwr = s.pwr ∧ t.mqs = s.mqs ∧ t.hold = s.hold ∧ t.img = s.img ∧
      t.nvm = s.nvm ∧ t.bol = s.bol ∧ t.fls = s.fls ∧ t.fcc = s.fcc ∧ t.free = s.free ∧ t.pending = s.pending
  | .unloadTimeout .. =>
      t.aon = s.aon ∧ t.idn = s.idn ∧ t.fuses = s.fuses ∧ t.clk = s.clk ∧ t.pwr = s.pwr ∧ t.hold = s.hold ∧ t.img = s.img ∧ t.nvm = s.nvm ∧
      t.bol = s.bol ∧ t.fls = s.fls ∧ t.fcc = s.fcc ∧ t.pending = s.pending
  | .loadingComplete .. =>
      t.aon = s.aon ∧ t.idn = s.idn ∧ t.fuses = s.fuses ∧ t.clk = s.clk ∧ t.pwr = s.pwr ∧ t.flt = s.flt ∧ t.img = s.img ∧ t.nvm = s.nvm ∧
      t.bol = s.bol ∧ t.fls = s.fls ∧ t.fcc = s.fcc ∧ t.pending = s.pending
  | .pwmPeriod .. | .observerLockLoss .. | .senseFault .. | .busUndervoltage .. | .chopperFault .. | .voltageLimitFault .. | .speedSample ..
  | .speedSourceTimeout .. | .windowEntryTimeout .. | .offsetMeasureDone .. | .slowWaitTimeout .. | .handoffTimeout .. | .suTimeout .. | .armLoad ..
  | .vcmReload .. | .vcmReloadTimeout .. | .loopExecute .. | .failStop .. | .coreTrap .. | .blockRefresh .. | .alkTrainAttempt ..
  | .alkTrainTimeout .. | .identity .. | .alkLaneErrorWindow .. | .alkLaneLockLoss .. | .tempTelemetry .. | .sensorUnreported .. | .portStatus .. =>
      t.aon = s.aon ∧ t.idn = s.idn ∧ t.fuses = s.fuses ∧ t.clk = s.clk ∧ t.pwr = s.pwr ∧ t.img = s.img ∧ t.nvm = s.nvm ∧ t.bol = s.bol ∧
      t.rows = s.rows ∧ t.fcc = s.fcc ∧ t.pending = s.pending
  | .thermalSensorRead .. | .vin12Window .. | .pwrFailNLow .. =>
      t.aon = s.aon ∧ t.idn = s.idn ∧ t.fuses = s.fuses ∧ t.clk = s.clk ∧ t.img = s.img ∧ t.nvm = s.nvm ∧ t.bol = s.bol ∧ t.rows = s.rows ∧
      t.fcc = s.fcc ∧ t.pending = s.pending
  | .dataWindowMean .. | .servoWedge .. | .vcmDiFrame .. | .migrationStart .. | .scrubRead .. | .flashEraseDone .. | .alkUplinkUncorr ..
  | .ackTimeout .. | .ackTelemetry .. | .arbitrate .. =>
      t.aon = s.aon ∧ t.idn = s.idn ∧ t.fuses = s.fuses ∧ t.clk = s.clk ∧ t.pwr = s.pwr ∧ t.img = s.img ∧ t.nvm = s.nvm ∧ t.bol = s.bol ∧
      t.fcc = s.fcc ∧ t.pending = s.pending
  | .catchMeasureDone .. | .surfaceMismatch .. | .reacquireTimeout .. | .loadAcquireTimeout .. | .loopSwitchTimeout .. | .engineTimeout ..
  | .horizonCompute .. =>
      t.aon = s.aon ∧ t.idn = s.idn ∧ t.fuses = s.fuses ∧ t.clk = s.clk ∧ t.pwr = s.pwr ∧ t.img = s.img ∧ t.nvm = s.nvm ∧ t.rows = s.rows ∧
      t.fcc = s.fcc ∧ t.pending = s.pending
  | .flashErase .. | .dumpRetire .. =>
      t.aon = s.aon ∧ t.idn = s.idn ∧ t.fuses = s.fuses ∧ t.clk = s.clk ∧ t.pwr = s.pwr ∧ t.img = s.img ∧ t.nvm = s.nvm ∧ t.bol = s.bol ∧
      t.rows = s.rows ∧ t.pending = s.pending
  | .clearanceEstimate .. | .preambleSearch .. | .secondCandidateRebuild .. | .rawResultHandle .. | .islandFail .. | .islandReassign ..
  | .decodeDone .. | .queueSlotUe .. | .rowCommit .. | .headFailDeclare .. | .faultTelemetry .. =>
      t.aon = s.aon ∧ t.idn = s.idn ∧ t.fuses = s.fuses ∧ t.clk = s.clk ∧ t.pwr = s.pwr ∧ t.img = s.img ∧ t.nvm = s.nvm ∧ t.fcc = s.fcc ∧
      t.pending = s.pending
  | .faultHoldRelease .. =>
      t.idn = s.idn ∧ t.fuses = s.fuses ∧ t.clk = s.clk ∧ t.pwr = s.pwr ∧ t.img = s.img ∧ t.nvm = s.nvm ∧ t.bol = s.bol ∧ t.fcc = s.fcc ∧
      t.pending = s.pending
  | .flashProgramDone .. | .fillComplete .. =>
      t.aon = s.aon ∧ t.idn = s.idn ∧ t.fuses = s.fuses ∧ t.clk = s.clk ∧ t.pwr = s.pwr ∧ t.img = s.img ∧ t.nvm = s.nvm ∧ t.bol = s.bol ∧
      t.pending = s.pending
  | .slackPeriodEval .. | .laneEyeEval .. =>
      t.aon = s.aon ∧ t.idn = s.idn ∧ t.fuses = s.fuses ∧ t.clk = s.clk ∧ t.nvm = s.nvm ∧ t.bol = s.bol ∧ t.rows = s.rows ∧ t.fcc = s.fcc ∧
      t.pending = s.pending
  | .sramPatrol .. =>
      t.aon = s.aon ∧ t.idn = s.idn ∧ t.fuses = s.fuses ∧ t.clk = s.clk ∧ t.pwr = s.pwr ∧ t.img = s.img ∧ t.nvm = s.nvm ∧ t.pending = s.pending
  | .partnerWindow .. | .partnerHungRecheck .. | .activeInFall .. | .ptnFailstop .. | .handoverReleased .. =>
      t.aon = s.aon ∧ t.idn = s.idn ∧ t.fuses = s.fuses ∧ t.clk = s.clk ∧ t.nvm = s.nvm ∧ t.bol = s.bol ∧ t.fcc = s.fcc ∧ t.pending = s.pending
  | .islandGateOff .. | .hourlyEvaluation .. =>
      t.aon = s.aon ∧ t.idn = s.idn ∧ t.fuses = s.fuses ∧ t.clk = s.clk ∧ t.nvm = s.nvm ∧ t.fcc = s.fcc ∧ t.pending = s.pending
  | .wdataReceive .. | .nvmProgramDone .. =>
      t.aon = s.aon ∧ t.fuses = s.fuses ∧ t.clk = s.clk ∧ t.pwr = s.pwr ∧ t.bol = s.bol ∧ t.fcc = s.fcc ∧ t.pending = s.pending
  | .read .. | .write .. | .verify .. | .flush .. | .abort .. | .identify .. | .getState .. | .setBudget .. | .logRead .. | .logClear ..
  | .deferredRead .. | .timeSet .. | .spinPolicy .. | .spinUp .. | .spinDown .. | .selfCheck .. | .diagRead .. | .diagWrite .. | .inject ..
  | .traceControl .. | .ucodeBankWrite .. | .ucodeBankCommit .. | .imageCopyWrite .. | .imageCopyCommit .. | .unlockChallenge .. | .unlockResponse ..
  | .unlockLock .. | .handover .. => t.fuses = s.fuses ∧ t.clk = s.clk ∧ t.pwr = s.pwr ∧ t.bol = s.bol ∧ t.pending = s.pending
  | .frameReceive .. => t.fuses = s.fuses ∧ t.clk = s.clk ∧ t.bol = s.bol ∧ t.pending = s.pending
  | .resetRelease .. => t.fuses = s.fuses ∧ t.rows = s.rows ∧ t.pending = s.pending
  | .powerOnReset .. | .resetNAssert .. | .refclkLoss .. | .corePllUnlock .. | .supplyFault .. =>
      Lasting s t ∧ t.pending = s.pending

/-- A step that goes on. -/
def State.goesOn (s : State) : Prop := ∃ t, step s = .next t

/-- `exec c` on `s` answers a next state, and `P` holds of it. -/
def Completes (c : Instr) (s : State) (P : State → Prop) : Prop := ∃ t, exec c s = .next t ∧ P t

/-- Every domain but the always-on one stands at its reset values (R587): registers, buffers, queues, and units of the part. What flash, NVM and
fuses keep is not among them. -/
def DomainsReset (t : State) : Prop :=
  t.dev = .unconfigured ∧ t.clk = {} ∧ t.flt = {} ∧ t.mqs = [] ∧ t.ptn = {} ∧ t.diag = {} ∧ t.img = {} ∧ t.alks = [] ∧ t.islands = [] ∧ t.bol = {} ∧
    t.heads = [] ∧ t.arms = [] ∧ t.gov = {} ∧ t.spn = {} ∧ t.spc = {} ∧ t.mrc = {} ∧ t.mpd = {} ∧ t.rows = [] ∧ t.tre = {} ∧ t.fcc = {} ∧
    t.links = [] ∧ t.injs = [] ∧ t.slu = {}

/-- States in which heads are loaded or on their way and a fault leads to R272, Fault-hold or the sequence of Table 17.5: Loading, Ready, Fault-hold,
Takeover. -/
def inService (d : DevState) : Bool := d == .loading || d == .ready || d == .faultHold || d == .takeover

/-- The way to Stopped with `cause` is taken in `t` from a state in service `s` (R272, R398, R523): nothing more is admitted, and the part is in Stopped
or in a step of Table 17.5; with a SYNCED partner that it drives for, it is in Stopped with ACTIVE_OUT deasserted. -/
def StopBegun (cause : BitVec 8) (s t : State) : Prop :=
  t.hop.closed = true ∧ t.hop.stopCause = cause ∧ (t.dev = .stopped ∨ 2 ≤ t.flt.stopStep) ∧
    (s.ptn.synced = true → s.ptn.role = 1 → t.dev = .stopped ∧ t.ptn.activeOut = false)

/-- A condition of Table 8.5 has been taken (R271): its event is the spindle's last; in Configuring, Parked and Spinning-up the part is Stopped with its
gates low; in Hold-up, and where no spindle runs, the device state stands; in service `P` holds. -/
def SpindleFaulted (code : BitVec 8) (s t : State) (P : Prop) : Prop :=
  t.spn.lastEvent = code ∧
    (s.dev = .holdUp ∨ s.dev = .unconfigured ∨ s.dev = .stopped ∨ s.dev = .standby → t.dev = s.dev) ∧
    (s.dev = .configuring ∨ s.dev = .parked ∨ s.dev = .spinningUp → s.flt.stopStep = 0 → t.dev = .stopped ∧ t.spc.gates = false ∧ t.ptn.activeOut = false) ∧
    (inService s.dev = true → s.flt.stopStep = 0 → P)

/-- Head `n` is declared failed between `s` and `t` (R472): it stands on the list, and one beyond HEAD_FAIL_MAX stops the part from service (R37). -/
def HeadDeclared (n : Nat) (s t : State) : Prop :=
  (getHead s n).failed = false →
    (getHead t n).failed = true ∧ (n / 8, n % 8) ∈ t.layout.failedHeads ∧
      (s.img.headFailMax ≤ s.layout.failedHeads.length → inService s.dev = true → s.flt.stopStep = 0 → StopBegun 0x62 s t)

/-- Arm `a` unloads in `t` (R202): its velocity loop runs outward at UNLOAD_VEL, and its position loop is off. -/
def Unloading (a : Nat) (s t : State) : Prop :=
  (getArm t a).state = 6 ∧ (getCtx t (140 + a)).enable = true ∧ (getCtx t (140 + a)).setpoint = -(unloadVel s.img : Int) ∧ (getCtx t a).enable = false

/-- The rows that bring capsule `c` on port `p`; a well-formed one is the row of the capsule's opcode (Table 12.5). What the capsule meets is with the
rows that name it: the checks that fail, the registers whose memory gives an error, the verdict on a microcode bank. -/
def capsuleRows (p : Port) (c : Capsule) (failed : BitVec 5) (ue : List Nat) (ok : Bool) (version : BitVec 32) : List Instr :=
  [.read p c, .write p c, .verify p c, .flush p c, .abort p c, .identify p c, .getState p c, .setBudget p c, .logRead p c, .logClear p c,
    .deferredRead p c, .timeSet p c, .spinPolicy p c, .spinUp p c, .spinDown p c, .selfCheck p c failed, .diagRead p c ue, .diagWrite p c,
    .inject p c, .traceControl p c, .ucodeBankWrite p c, .ucodeBankCommit p c ok version, .imageCopyWrite p c, .imageCopyCommit p c,
    .unlockChallenge p c, .unlockResponse p c, .unlockLock p c, .handover p c]

/-- The partner record `r` is on its way in `t`: in a frame not yet acknowledged on the partner link, or waiting for its credit (R449, R450). -/
def ToPartner (r : CtlRec) (t : State) : Prop := (∃ f ∈ (getLink t 2).unacked, f.body = .mirror r) ∨ r ∈ (getLink t 2).txWait

/-- The commands that act while the part is in reset or without its clocks: the resets and their release, and the JTAG scans, which run on TCK
(R587, R614, R658). -/
def alwaysOn (c : Instr) : Bool :=
  match c with
  | .powerOnReset .. | .resetNAssert | .resetRelease .. | .diagAccRead .. | .diagAccWrite .. | .jtagUnlockChallenge | .jtagUnlockResponse ..
  | .jtagUnlockLock | .tapReset | .fuseProg .. | .extest .. | .samplePreload .. | .idcode | .extestPulse .. | .extestTrain .. | .bypass .. => true
  | _ => false

end Sys2Proof.Machine
end

