-- ==== Sys2Proof/WellFormed.lean ====
section
/-! DEFINITION. What a command of each row may carry, where its type says less: the opcode of its capsule (Table 12.5), field lengths of a
frame or a packet, ranges of sampled values. -/

namespace Sys2Proof

/-- A capsule is well formed for a row: its opcode is the row's. -/
def Capsule.isOp (c : Capsule) (op : BitVec 8) : Bool := c.opcode == op
/-- The sub-operation field ARG32 1:0 (SPIN_CONTROL ACTION, MICROCODE_WRITE TARGET, SERVICE_UNLOCK STEP; Table 12.5). An invalid value comes
on the first row of its opcode. -/
def Capsule.sub (c : Capsule) : Nat := c.arg32.toNat % 4
/-- Key of the lane or channel: within a link's receive lanes. -/
def laneOk (l : LinkId) (lane : Nat) : Bool := match l with | .partner => decide (lane < 9) | .port _ => true
def inInt (lo hi x : Int) : Bool := decide (lo ≤ x) && decide (x ≤ hi)

/-- A conversion has 12 bits (Table 21.6). -/
def codeOk (c : Option Nat) : Bool := c.all fun k => decide (k < 4096)

/-- Instants in rising order, before the end of their window. -/
def risingBelow (n : Nat) : List Nat → Bool
  | [] => true
  | [x] => decide (x < n)
  | x :: y :: r => decide (x < y) && risingBelow n (y :: r)

/-- The operands of a command are ones that its row admits. -/
def Instr.wellFormed : Instr → Bool
  | .thermalSensorRead t => t.toList.all fun x => inInt (-32768) 32767 x
  | .slackMonitorRead ps => ps.toList.all fun x => inInt (-128) 127 x
  | .avsStep _ r => decide (r < 1024)
  | .avsRepeatWrite _ r => decide (r < 1024)
  | .vin12Window a b c d => [a, b, c, d].all fun x => decide (x < 65536)
  | .vin12SenseFault _ r => decide (r < 65536)
  | .pwmPeriod m => [m.shunt, m.volt, m.volt2].all (fun p => codeOk p.a && codeOk p.b && codeOk p.c) && codeOk m.vbus && codeOk m.ichop
  | .chopperOn k => codeOk (some k)
  | .chopperOff k => codeOk (some k)
  | .chopperFault _ k => codeOk (some k)
  | .loopExecute n x _ => decide (n.val < 160) && inInt (-2147483648) 2147483647 x
  | .lawReplace _ b es _ => decide (b + es.length ≤ 2048) && decide (es.length ≤ 16)
  | .preambleSearch _ slot => decide (slot < 8192)
  | .rawCheck _ slot => decide (slot < 8192)
  | .sampleWord _ _ => true
  | .millpondUe _ (.slot k) => decide (k < 24576)
  | .millpondUe _ (.frame f _) => decide (f < 1048576)
  | .millpondUe _ (.bothCopies f _) => decide (f < 8192) || (decide (16384 ≤ f) && decide (f < 18432))
  | .mqPacketWrite _ ws => decide (0 < ws.length) && decide (ws.length ≤ 64)
  | .tallyEventPost _ _ _ p => decide (p.length ≤ 40)
  | .flashProgram _ _ first ss => decide (0 < ss.length) && decide (first.val + ss.length ≤ 16)
  | .flashErase _ _ _ b => decide (b < 512)
  | .blockRefresh _ b => decide (b < 512)
  | .invalRange _ base n => decide (0 < n) && decide (base.toNat + n ≤ 2 ^ 28)
  | .nak _ qs => decide (0 < qs.length) && decide (qs.length ≤ 15)
  | .lnkLaneErrorWindow l lane _ _ => laneOk l lane.val
  | .lnkLaneLockLoss l lane => laneOk l lane.val
  | .laneMap l lane _ => laneOk l lane.val
  | .laneMapDone l lane => laneOk l lane.val
  | .read _ c => c.isOp 0x01
  | .write _ c => c.isOp 0x02
  | .verify _ c => c.isOp 0x03
  | .flush _ c => c.isOp 0x04
  | .abort _ c => c.isOp 0x05
  | .identify _ c => c.isOp 0x10
  | .getState _ c => c.isOp 0x11
  | .setBudget _ c => c.isOp 0x12
  | .logRead _ c => c.isOp 0x13
  | .logClear _ c => c.isOp 0x14
  | .deferredRead _ c => c.isOp 0x15
  | .timeSet _ c => c.isOp 0x16
  | .spinPolicy _ c => c.isOp 0x20 && (c.sub == 0 || c.sub == 3)
  | .spinUp _ c => c.isOp 0x20 && c.sub == 1
  | .spinDown _ c => c.isOp 0x20 && c.sub == 2
  | .selfCheck _ c _ => c.isOp 0x21
  | .diagRead _ c _ => c.isOp 0x30
  | .diagWrite _ c => c.isOp 0x31
  | .inject _ c => c.isOp 0x32
  | .traceControl _ c => c.isOp 0x33
  | .ucodeBankWrite _ c => c.isOp 0x40 && c.sub != 1 && !c.arg32.getLsbD 2
  | .ucodeBankCommit _ c _ _ => c.isOp 0x40 && c.sub != 1 && c.arg32.getLsbD 2
  | .imageCopyWrite _ c => c.isOp 0x40 && c.sub == 1 && !c.arg32.getLsbD 2
  | .imageCopyCommit _ c => c.isOp 0x40 && c.sub == 1 && c.arg32.getLsbD 2
  | .unlockChallenge _ c => c.isOp 0x41 && (c.sub == 0 || c.sub == 3)
  | .unlockResponse _ c => c.isOp 0x41 && c.sub == 1
  | .unlockLock _ c => c.isOp 0x41 && c.sub == 2
  | .handover _ c => c.isOp 0x50
  | .budgetPwmPeriod p h => decide (0 < p) && decide (h ≤ p)
  | .partnerWindow ts _ _ => risingBelow 200000 ts
  | .partnerHungRecheck ts _ _ => risingBelow 200000 ts
  | .ment es => decide (0 < es.length)
  | .confirm fs => decide (0 < fs.length)
  | .extest d => decide (0 < d.length)
  | _ => true

end Sys2Proof
end

