-- ==== Sys2Proof/Certificates/Slice0/Obligations.lean ====
section
/-! DEFINITION. The statements of this row, for the provers: what each command of the block does when it completes, what every step keeps, and what
reset leaves. A statement gives its commands' own effect as the next state of `exec`, under hypotheses on the state and the operands alone. -/

open Sys2Proof Sys2Proof.Machine

/-- R587, R613, R589: either reset puts every domain but the always-on one at its reset values and keeps what outlasts it. The power-on reset clears
device time and is released only when every rail is in range; RESET_N keeps device time and the return times and latches the cause, the device state
and whether dirty frames were held. While the power-on reset is asserted RESET_N adds nothing. -/
def Obligations.ResetsClearTheDomains : Prop := ∀ s : State,
  (∀ railsOk, Completes (.powerOnReset railsOk) s fun t =>
    DomainsReset t ∧ Lasting s t ∧ t.aon = {} ∧ t.start = { inReset := true, powerOnReset := !railsOk, railsLate := !railsOk }) ∧
  Completes .resetNAssert s fun t =>
    if s.start.powerOnReset then t = s
    else
      DomainsReset t ∧ Lasting s t ∧ t.start = { inReset := true, powerOnReset := false } ∧ t.aon.time = s.aon.time ∧ t.aon.returns = s.aon.returns ∧
        t.aon.cause = true ∧
        (awake s = true → t.aon.prevState = s.dev ∧ t.aon.prevDirty = holdsDirty s)

/-- R610, R618, R587: a clock fault, or a supply fault of a rail other than VAON with no power failure before it, stops every clock but the always-on
one. The part is Stopped with ACTIVE_OUT deasserted and its gates and chopper low, the cause and the device state are latched, and the event of the
next start is owed.
R610: loss of lock of a lane PLL is counted, its lock bit falls, and it is loss of lock on the PLL's link: the arm link's response of Table 3.10,
or a Lanlet port or the partner link that goes down with reason 0 (R356, R447).
That the stopped domains stand at their reset values is the model's reading (log entry 23). -/
def Obligations.ClockAndSupplyFaultsAreTaken : Prop :=
  (∀ s : State, awake s = true →
    let stopped (kind : Nat) (t : State) : Prop :=
      t.dev = .stopped ∧ t.start.clocksStopped = true ∧ awake t = false ∧ t.ptn.activeOut = false ∧ t.spc.gates = false ∧ t.spn.chopOn = false ∧
        (s.spc.gates = true → .gates false ∈ t.tx) ∧ (s.spn.chopOn = true → .chopper false ∈ t.tx) ∧
        t.aon.time = s.aon.time ∧ t.aon.prevState = s.dev ∧ t.aon.prevDirty = holdsDirty s ∧ t.aon.faultKind = kind
    Completes .refclkLoss s (fun t => stopped 2 t ∧ t.aon.clockFaultPending = true) ∧
    Completes .corePllUnlock s (fun t => stopped 3 t ∧ t.aon.clockFaultPending = true) ∧
    ∀ rail first, Completes (.supplyFault rail first) s fun t =>
      if rail = 0 ∨ first = true then t = s
      else stopped 1 t ∧ t.aon.supplyFaultPending = true ∧ t.aon.faultRail = rail.val ∧ t.pwr.good.getLsbD (6 - rail.val) = false) ∧
  (∀ (s : State) (pll : Fin 11), awake s = true →
    Completes (.lanePllUnlock pll) s fun t =>
      t.clk.laneLock = s.clk.laneLock &&& ~~~(BitVec.twoPow 11 pll) ∧ t.clk.laneLoss = satInc 16 s.clk.laneLoss ∧
        (pll.val < 8 → alkUp s pll.val = true → (getAlk t pll.val).link = 1 ∧ (getAlk t pll.val).retrain = true) ∧
        (8 ≤ pll.val → linkUp s (pll.val - 8) = true →
          (getLink t (pll.val - 8)).link = 1 ∧ ((getLink s (pll.val - 8)).session = 1 → (getLink t (pll.val - 8)).session = 2)))

/-- R612: a trip of a droop detector stretches the clock of a domain that may be stretched, and is counted; the trip of any other domain changes
nothing.
R620 to R622, R624: the slack that shows is the least, and one below half of SLACK_MIN raises the target by 10 mV up to 850 mV; while no AVSBus fault is
open a step that is due writes 5 mV nearer to the target and no further, and three answers in a row that fail open the fault; while it is open the target
stands and the last write is repeated, and the third good readback in a row closes it.
That a good readback is within 15 mV of the last value written is the model's reading (log entry 38). -/
def Obligations.DroopsAreRiddenAndTheCoreVoltageHeld : Prop :=
  (∀ (s : State) (d : Fin 100), awake s = true →
    Completes (.droopTrip d) s fun t =>
      if (88 ≤ d.val ∧ d.val ≤ 96) ∨ d.val = 99 then t.pwr.stretch = satInc 16 s.pwr.stretch else t = s) ∧
  (∀ s : State, awake s = true →
    (∀ ps : Vector Int 32, Completes (.slackMonitorRead ps) s fun t =>
      let least := ps.toList.foldl min (ps.toList.headD 0)
      t.pwr.slack = satInt 8 least ∧
        t.pwr.target = if 2 * least < (slackMin s.img : Int) ∧ s.pwr.target < 850 ∧ s.pwr.avsFault = false ∧ s.dev ≠ .stopped
          then min 850 (s.pwr.target + 10) else s.pwr.target) ∧
    (∀ acked readback, Completes (.avsStep acked readback) s fun t =>
      t.pwr.target = s.pwr.target ∧
      (s.pwr.avsFault = true → t = s) ∧
      (s.pwr.avsFault = false →
        (∀ w, avsNext s = some w → t.pwr.wrote = w ∧ .avs w ∈ t.tx) ∧ (avsNext s = none → t.pwr.wrote = s.pwr.wrote) ∧
        t.pwr.readback = (if acked then readback else s.pwr.readback) ∧
        (acked = false → s.pwr.avsBad = 2 → t.pwr.avsFault = true ∧ (holdsFrom s.dev = true → t.dev = .faultHold)))) ∧
    ∀ acked readback, Completes (.avsRepeatWrite acked readback) s fun t =>
      t.pwr.target = s.pwr.target ∧ t.pwr.wrote = s.pwr.wrote ∧
      (s.pwr.avsFault = false → t = s) ∧
      (s.pwr.avsFault = true → .avs s.pwr.wrote ∈ t.tx ∧
        (acked = true ∧ readback ≤ s.pwr.wrote + 15 ∧ s.pwr.wrote ≤ readback + 15 ∧ 2 ≤ s.pwr.avsGood ↔ t.pwr.avsFault = false ∧ 2 ≤ s.pwr.avsGood)))

/-- R623, R410: a die reading outside −40 °C to 150 °C (units of 0.0625 °C) marks its sensor failed for good; while fewer than 12 work the part die's
record stands still, else it takes the highest working reading into its mean and its level. A TEMP word (Table 3.3) gives the readings of its arm's
FZA816 and head stack. A sensor that goes unreported counts as at CRIT at least until it reports again, and its readings' own level then goes on
from where it stood; the sensors of an absent arm are none.
The rounding of a mean is the model's choice (log entry 15). -/
def Obligations.ThermalReadingsSetLevels : Prop := ∀ s : State, awake s = true →
  let levelRead (s : State) (k : Nat) : Nat := if (getTherm s k).unreported then (getTherm s k).was else (getTherm s k).level
  (∀ ts : Vector Int 16, Completes (.thermalSensorRead ts) s fun t =>
    let bad (i : Nat) : Bool := s.pwr.tempFailed.getLsbD i || decide (ts.toList.getD i 0 < -640) || decide (2400 < ts.toList.getD i 0)
    let works := (List.range 16).filter fun i => !bad i
    (∀ i : Fin 16, t.pwr.tempFailed.getLsbD i = bad i) ∧
    (works.length < 12 → getTherm t 0 = getTherm s 0) ∧
    (12 ≤ works.length → (getTherm t 0).unreported = false ∧
      (getTherm t 0).reports = thermWindow s 0 ((getTherm s 0).reports ++ [(now s, (works.map fun i => ts.toList.getD i 0).foldl max (-640))]) ∧
      (getTherm t 0).mean = thermMean (getTherm t 0).reports ∧
      (getTherm t 0).level = levelFor s 0 (levelRead s 0) (getTherm t 0).mean)) ∧
  (∀ (arm : Fin 8) (word : Word), Completes (.tempTelemetry arm word) s fun t =>
    let took (k : Nat) (v : Int) : Prop :=
      (getTherm t k).unreported = false ∧ (getTherm t k).reports = thermWindow s k ((getTherm s k).reports ++ [(now s, v)]) ∧
        (getTherm t k).mean = thermMean (getTherm t k).reports ∧ (getTherm t k).level = levelFor s k (levelRead s k) (getTherm t k).mean
    took (1 + arm.val) (signedOf 16 (bitsOf 47 32 word.toNat)) ∧ took (9 + arm.val) (signedOf 16 (bitsOf 31 16 word.toNat))) ∧
  ∀ k : Fin 17, Completes (.sensorUnreported k) s fun t =>
    if k.val ≠ 0 ∧ s.img.arms ≤ (k.val - 1) % 8 then t = s
    else
      (getTherm t k.val).unreported = true ∧
        ((getTherm s k.val).unreported = false → (getTherm t k.val).was = (getTherm s k.val).level ∧ 2 ≤ (getTherm t k.val).level)

/-- R463, R464, R7, R603, R640, R641: the fifth window in a row whose mean is below VIN_FAIL, or a low PWR_FAIL_N, is a power failure. From Spinning-up, Ready, Standby
or Takeover it leads to Hold-up, from Loading (and from a Fault-hold entered there) to Stopped without a dump, and in Unconfigured, Configuring and
Parked flash programs stop. A sense fault is only recorded, and never itself a power failure. VIN12 is converted once domain 95 has left reset, in step
9 of Table 19.2 (R614); before that its windows and faults change nothing. Hold-up ends only in Stopped or by a reset.
That an arbitration does not end Hold-up is the model's reading (log entry 40). -/
def Obligations.PowerFailureEntersHoldUp : Prop := ∀ s : State, awake s = true →
  let fromLoading : Prop := s.dev = .loading ∨ (s.dev = .faultHold ∧ s.flt.from_ = .loading)
  let failed (t : State) : Prop :=
    (holdUpFrom s.dev = true → if fromLoading then t.dev = .stopped else t.dev = .holdUp) ∧
    (holdUpFrom s.dev = true → t.hop.closed = true ∧ t.hold.flashStopped = true) ∧
    (s.dev = .unconfigured ∨ s.dev = .configuring ∨ s.dev = .parked → t.dev = s.dev ∧ t.hold.flashStopped = true)
  (∀ c0 c1 c2 c3, Completes (.vin12Window c0 c1 c2 c3) s fun t =>
    let low : Prop := c0 + c1 + c2 + c3 < 4 * vinFail s.img
    (converts s = false → t = s) ∧
    (converts s = true →
      t.pwr.vin12 = (c0 + c1 + c2 + c3) / 4 ∧ t.pwr.lowRun = (if low then min 5 (s.pwr.lowRun + 1) else 0) ∧
        (low → s.pwr.lowRun = 4 → failed t) ∧ (¬ low ∨ s.pwr.lowRun ≠ 4 → s.pwr.lowRun ≤ 5 → t.dev = s.dev))) ∧
  Completes .pwrFailNLow s (fun t => t.pwr.pfailN = false ∧ failed t) ∧
  Completes .pwrFailNHigh s (fun t => t = { s with pwr := { s.pwr with pfailN := true } }) ∧
  (∀ timeout reading, Completes (.vin12SenseFault timeout reading) s fun t =>
    t.dev = s.dev ∧ t.hold = s.hold ∧ (converts s = false → t = s) ∧
      (converts s = true → (timeout = true → t.pwr.snsTimeout = true ∧ t.pwr.lowRun = 0) ∧ (timeout = false → t.pwr.vinHigh = true))) ∧
  ∀ c t, s.dev = .holdUp → alwaysOn c = false → exec c s = .next t → t.dev = .holdUp ∨ t.dev = .stopped

/-- R465 to R468: a dump that is owed goes into the armed area, its header first, or ends at once without one; each chunk that reads back is committed and
counted; the last chunk, or the DC bus below V_DUMP_MIN, ends the dump, and Hold-up then ends in Stopped. -/
def Obligations.DumpRunsToStopped : Prop := ∀ s : State, awake s = true →
  Completes .dumpStart s (fun t =>
    (s.hold.owed = false → t = s) ∧
    (s.hold.owed = true → s.hold.state ≠ 2 → s.hold.areaOk = true →
      t.hold.state = 2 ∧ t.hold.areaOk = false ∧ t.hold.plan = dumpPlan s ∧ t.hold.plan.head? = some .header ∧
        t.hold.chunksPlanned = (dumpPlan s).length ∧ t.hold.chunksDone = 0 ∧ t.dev = s.dev) ∧
    (s.hold.owed = true → s.hold.state ≠ 2 → s.hold.areaOk = false → s.dev = .holdUp → t.dev = .stopped ∧ t.hold.chunksDone = 0)) ∧
  (∀ readsBack, Completes (.dumpChunkCommit readsBack) s fun t =>
    (s.hold.state ≠ 2 ∨ s.hold.plan = [] → t = s) ∧
    ∀ c rest, s.hold.state = 2 → s.hold.plan = c :: rest →
      t.hold.chunksDone = (if readsBack then s.hold.chunksDone + 1 else s.hold.chunksDone) ∧ t.hold.plan = rest ∧
        (rest ≠ [] → t.hold.state = 2 ∧ t.dev = s.dev) ∧
        (rest = [] → t.hold.state = 3 ∧ (s.dev = .holdUp → t.dev = .stopped))) ∧
  Completes .dumpBusLow s fun t =>
    (s.hold.state = 2 → t.hold.state = 4 ∧ t.hold.plan = [] ∧ t.hold.chunksDone = s.hold.chunksDone ∧ (s.dev = .holdUp → t.dev = .stopped)) ∧
    (s.hold.state ≠ 2 → s.dev ≠ .holdUp → t = s)

/-- R587, R590, R642, Tables 19.1 and 19.2: the release of a reset samples TMODE and ROLE, counts a boot and starts the steps. A high TMODE leaves the part in
Unconfigured; a PLL that does not lock ends the start at step 1; a failed SRAM or mask ROM stops it at step 2; an unreadable directory, or two invalid
microcode banks, at step 3. A part still in Configuring afterwards has its image loaded and trains every arm link of it.
R469, R596, R601, R607, R23: dumps are read in rising order of DUMP_ID and the drain begins after the last; a dump whose blocks are settled is retired, its area
erased and armed; and Loading ends in Ready, with the time of it, once everything it waits for holds. -/
def Obligations.StartsRunThroughToReady : Prop :=
  (∀ (s : State) (o : StartObs),
    Completes (.resetRelease o) s fun t =>
      (s.start.inReset = false ∨ s.start.powerOnReset = true → t = s) ∧
      (s.start.inReset = true → s.start.powerOnReset = false →
        t.start.inReset = false ∧ t.start.releasedAt = now s ∧ t.pwr.tmode = o.tmode ∧ t.pwr.role = o.role ∧ t.idn.boot = (s.idn.boot + 1) % 65536 ∧
        (o.tmode = true → t.dev = s.dev) ∧
        (o.tmode = false → o.pllOk = false → t.dev = s.dev ∧ t.start.failStep = 1) ∧
        (o.tmode = false → o.pllOk = true → t.clk.coreLock = true ∧ t.clk.laneLock = 0x7FF) ∧
        (s.dev = .unconfigured → s.flt.stopStep = 0 → o.tmode = false → o.pllOk = true → o.bistOther = true ∨ o.romOk = false →
          t.dev = .stopped ∧ t.start.failStep = 2) ∧
        (s.dev = .unconfigured → s.flt.stopStep = 0 → o.tmode = false → o.pllOk = true → o.bistOther = false → o.romOk = true → o.bistIslands = [] →
          o.bistEngines = [] → o.dirOk = false ∨ (o.ucodeA = false ∧ o.ucodeB = false) → t.dev = .stopped ∧ t.start.failStep = 3) ∧
        (s.dev = .unconfigured → s.flt.stopStep = 0 → t.dev = .configuring → t.start.imageLoaded = true ∧ t.start.step = 9 ∧ ∀ a < t.img.arms, (getAlk t a).link = 1))) ∧
  (∀ s : State, awake s = true →
    (∀ (area : Fin 2) unreadable, Completes (.replayReadDone area unreadable) s fun t =>
      (s.dev ≠ .loading ∨ s.hold.toRead.head? ≠ some area.val → t = s) ∧
      (s.dev = .loading → ∀ rest, s.hold.toRead = area.val :: rest →
        t.hold.toRead = rest ∧ (rest = [] → t.start.replayRead = true ∧ t.hold.state = 6 ∧ t.hold.missing = []))) ∧
    (∀ area : Fin 2, Completes (.dumpRetire area) s fun t =>
      s.ptn.role ≠ 2 → s.start.replayRead = true → area.val ∈ s.hold.replay → (∀ p ∈ s.hold.replayed, p.2 ≠ area.val) →
        area.val ∉ t.hold.replay ∧ t.hold.areas[area].armed = true ∧ t.hold.areas[area].unretired = false ∧ t.hold.areaOk = true) ∧
    Completes .loadingComplete s fun t =>
      (s.dev = .loading ∨ s.dev = .takeover → mayEnterReady s = true → t.start.everReady = true ∧ ((∀ d ∈ s.hop.cmds, d.phase ≠ .held) → t.dev = .ready ∧ t.start.step = 18)) ∧
      (¬ (s.dev = .loading ∨ s.dev = .takeover) ∨ mayEnterReady s = false → t = s))

/-- R242, R256 to R261, Table 8.3: the means of 1,024 samples are kept as offsets and the catch measurement follows, or one beyond ±5% of full scale is a
sense fault; the catch is classified by Table 8.3, with the check of R258 for a spindle that is not below 60 rpm; a wait below 60 rpm ends in a start
from rest, which aligns, drives open-loop, hands the angle to the locked observer at N_HANDOFF within ±10% of the open-loop speed, and at 1,000 rpm
makes a catch again; the one more start after a failed handoff begins with the offsets as every start does; and Spinning-up ends once the speed has been within ±0.5% of N_SVC, when Loading begins and every arm's load falls due. What the
catch measurement makes of its samples, where zero current stands among the codes, and that the sender keeps the 100 ms are the model's choices
(log entry 45). -/
def Obligations.SpindleStartsInOrder : Prop := ∀ s : State, awake s = true →
  (let a := offsetOf s.spc.offsetSum.1 1024
   let b := offsetOf s.spc.offsetSum.2.1 1024
   let c := offsetOf s.spc.offsetSum.2.2 1024
   Completes .offsetMeasureDone s fun t =>
    (s.spn.mode ≠ 1 ∨ s.spc.offsetN ≠ 1024 → t = s) ∧
    (s.spn.mode = 1 → s.spc.offsetN = 1024 →
      (offsetBad a = false → offsetBad b = false → offsetBad c = false →
        t.spn.mode = 2 ∧ t.spc.offA = a ∧ t.spc.offB = b ∧ t.spc.offC = c ∧ t.spc.offsetsDone = true ∧ t.spc.gates = false) ∧
      (offsetBad a = true ∨ offsetBad b = true ∨ offsetBad c = true → SpindleFaulted 0x29 s t (StopBegun 0x29 s t)))) ∧
  (let rpm := catchSpeed s
   let slow := catchSlow s
   Completes .catchMeasureDone s fun t =>
    (s.spn.mode ≠ 2 ∨ catchEnough s = false → t = s) ∧
    (s.spn.mode = 2 → catchEnough s = true →
      t.spn.catches = satInc 8 s.spn.catches ∧ t.spn.catchRpm = satInt 16 rpm ∧ t.spn.dir = decide (rpm < 0)) ∧
    (s.spn.mode = 2 → catchEnough s = true → s.dev = .spinningUp → slow = true ∨ (keCheck rpm (catchAmplitude s) s).1 = true → mayDrive s = true →
      t.spn.mode = (if slow = true then 3 else if 300 < rpm then 5 else 11) ∧
      (slow = true ∨ 300 < rpm → t.spc.gates = true ∧ (getCtx t 136).enable = true ∧ (getCtx t 137).enable = true) ∧
      (slow = false → t.spn.lastEvent = if catchSb s.img = 1 ∧ rpm ≤ 300 then 0x2C else if rpm < 0 then 0x22 else 0x21)) ∧
    (s.spn.mode = 2 → catchEnough s = true → s.dev = .spinningUp → slow = false → (keCheck rpm (catchAmplitude s) s).1 = false →
      s.flt.stopStep = 0 → t.dev = .stopped ∧ t.spn.lastEvent = 0x24 ∧ t.spc.gates = false)) ∧
  Completes .slowWaitDone s (fun t =>
    (s.spn.mode ≠ 11 ∨ underSixty s = false → t = s) ∧
    (s.spn.mode = 11 → underSixty s = true → t.spn.mode = if mayDrive s = false then 9 else if s.spc.restart then 1 else 3)) ∧
  Completes .alignDone s (fun t =>
    (s.spn.mode ≠ 3 → t = s) ∧ (s.spn.mode = 3 → t.spn.mode = 4 ∧ t.spc.iqSet = 1000 * (iIf s.img : Int) ∧ t.spc.openAt = now s)) ∧
  (let due : Prop := s.spn.mode = 4 ∧ s.spn.lock = true ∧ (nHandoff s.img : Rat) ≤ openRpm s ∧ 10 * |obsRpm s - openRpm s| ≤ openRpm s
   Completes .observerHandoff s fun t =>
    (¬ due → t = s) ∧
    (due → t.spn.mode = 5 ∧ t.spn.speed = satInt 32 (roundHalfUp (65536 * obsRpm s)) ∧ t.spc.iqSet = 0 ∧ (getCtx t 138).enable = true)) ∧
  Completes .catchAt1000 s (fun t =>
    (s.spn.mode = 5 → s.spc.fromRest = true → rpm16 1000 ≤ s.spn.speed → t.spn.mode = 2 ∧ t.spc.gates = false ∧ t.spc.fromRest = false) ∧
    (s.spn.mode ≠ 5 ∨ s.spc.fromRest = false ∨ s.spn.speed < rpm16 1000 → t = s)) ∧
  Completes .spinupComplete s fun t =>
    s.dev = .spinningUp → s.spn.mode = 5 → (getCtx s 138).enable = true → s.spc.nearSince ≠ none →
      t.dev = .loading ∧ t.start.step = 13 ∧ t.spn.lastEvent = 0x20 ∧ (∀ a < s.img.arms, (getArm t a).loadDue = some (now s)) ∧
        (getCtx t 138).setpoint = rpm16 (nSvc s.img)

/-- Table 8.5, R271, R272, R247, R259 to R261, R264, R266, R600: a sense fault, a wait that runs out, a second failure of the handoff, SU_TIMEOUT, and a
window that is not entered in time stop the part by the device state, in service under R272; a voltage limit fault, a chopper that shows a condition of
R264 and a bus below 10.5 V lead to Fault-hold there. Waits are measured by the sender, but SU_TIMEOUT, from which budget pauses are taken away, by the
part (log entry 45). -/
def Obligations.SpindleFaultsFollowTheDeviceState : Prop := ∀ s : State, awake s = true →
  let held (t : State) : Prop := t.dev = .faultHold
  (∀ offsets, Completes (.senseFault offsets) s fun t =>
    let bad : Prop := (offsets = true ∧ offsetsBad s = true) ∨ (offsets = false ∧ 2 ≤ s.spc.badPeriods)
    (bad → SpindleFaulted 0x29 s t (StopBegun 0x29 s t)) ∧ (¬ bad → t = s)) ∧
  Completes .slowWaitTimeout s (fun t =>
    (s.spn.mode = 11 → SpindleFaulted 0x23 s t (StopBegun 0x23 s t)) ∧ (s.spn.mode ≠ 11 → t = s)) ∧
  Completes .handoffTimeout s (fun t =>
    (s.spn.mode = 4 → 1 ≤ s.spc.handoffFails → SpindleFaulted 0x25 s t (StopBegun 0x25 s t)) ∧
    (s.spn.mode = 4 → s.spc.handoffFails = 0 → t.spn.mode = 11 ∧ t.spc.handoffFails = 1 ∧ t.spc.restart = true) ∧ (s.spn.mode ≠ 4 → t = s)) ∧
  Completes .suTimeout s (fun t =>
    let run : Prop := suTimeout s.img * oneSec ≤ since s s.spc.startAt - s.spc.pausedFor
    (run → s.dev = .spinningUp ∧ s.spn.budgetPause = false ∨ s.dev = .takeover → SpindleFaulted 0x26 s t (StopBegun 0x26 s t)) ∧
    (¬ run ∨ ((s.dev ≠ .spinningUp ∨ s.spn.budgetPause = true) ∧ s.dev ≠ .takeover) → t = s)) ∧
  Completes .windowEntryTimeout s (fun t =>
    s.spn.window = false → s.spc.everWindow = false → (getCtx s 138).rEff = rpm16 (nSvc s.img) → inService s.dev = true →
      SpindleFaulted 0x28 s t (StopBegun 0x28 s t)) ∧
  Completes .voltageLimitFault s (fun t =>
    (s.spc.satSince ≠ none → SpindleFaulted 0x27 s t (held t)) ∧ (s.spc.satSince = none → t = s)) ∧
  (∀ which ichop, Completes (.chopperFault which ichop) s fun t =>
    let bad : Prop := ∃ i ∈ chopOf s ichop, chopperBad which i s = true
    (¬ bad → t = s) ∧
    (bad →
      SpindleFaulted 0x2B s t (held t) ∧ t.spn.chopFault = which.val + 1 ∧ t.spn.chopper = satInc 8 s.spn.chopper ∧
        (s.spn.mode = 7 → inService s.dev = true → which ≠ 2 → t.spn.mode = 8))) ∧
  Completes .busUndervoltage s fun t =>
    (s.dev ≠ .holdUp → s.hold.source = 0 → s.spn.vbus < 10500 → SpindleFaulted 0x2D s t (held t)) ∧
    (s.dev = .holdUp ∨ s.hold.source ≠ 0 ∨ 10500 ≤ s.spn.vbus → t = s)

/-- R241, R243, R263, R265, R266, R268, R269, Table 8.5: a period that lacks a conversion that it needs is a bad one and moves no gate; a bus above 16.0 V
turns gates and chopper off; a current above I_OC turns the gates off and is counted, and its catch begins with the offsets; the chopper follows its
thresholds; with the bus below V_CHOP_ON again a stop that is due goes on, and the spindle is caught where it must turn; and a generator below GEN_MIN, or 10 ms at its limit with the
bus below 10.0 V, turns the gates off for the rest of the Hold-up.
That an overvoltage turns gates and chopper off in every state, and that a bad period runs no loop step, are the model's readings
(log entries 28, 45). -/
def Obligations.BusAndCurrentLimitsHold : Prop := ∀ s : State, awake s = true →
  (∀ m : PwmSample, Completes (.pwmPeriod m) s fun t =>
    t.spc.badPeriods = (if periodOk s m then 0 else min 3 (s.spc.badPeriods + 1)) ∧
    (convIn 0 4079 m.vbus = none → t.spn.vbus = s.spn.vbus ∧ t.spc.gates = s.spc.gates ∧ t.spc.duty = s.spc.duty ∧ t.dev = s.dev) ∧
    ∀ k, convIn 0 4079 m.vbus = some k →
      let v := (roundHalfUp (scaled (vbusGain s.img) k)).toNat
      t.spn.vbus = min 65535 v ∧
      (16000 < v → s.spc.overvolt = false → t.spc.gates = false ∧ t.spn.chopOn = false ∧ t.spc.overvolt = true ∧ t.spn.lastEvent = 0x2D) ∧
      (v ≤ 16000 → periodOk s m = false → t.spc.gates = s.spc.gates ∧ t.spc.duty = s.spc.duty ∧ t.dev = s.dev) ∧
      (v ≤ 16000 → periodOk s m = true → s.spc.gates = true → s.spn.mode ≠ 1 → s.spn.mode ≠ 2 → s.spc.gatesOffPeriods = 0 → s.dev ≠ .holdUp →
        ∀ ia ib ic, phaseCurrents s m = some (ia, ib, ic) → 1000 * iOc s.img < max ia.natAbs (max ib.natAbs ic.natAbs) →
          t.spn.overcurrent = satInc 8 s.spn.overcurrent ∧
          .gates false ∈ t.tx ∧
          SpindleFaulted 0x2A s t ((2 ≤ (recent s oneSec s.spc.ocTimes).length → StopBegun 0x2A s t) ∧
            ((recent s oneSec s.spc.ocTimes).length < 2 → t.dev = .faultHold ∧ t.spc.gates = false ∧ t.spc.recatchDue = true)))) ∧
  Completes .overcurrentRecatch s (fun t =>
    (s.spc.recatchDue = true → s.spn.mode = 9 → inService s.dev = true → t.spn.mode = 1 ∧ t.spc.gates = false ∧ t.spc.recatchDue = false) ∧
    (s.spc.recatchDue = false ∨ s.spn.mode ≠ 9 → t = s)) ∧
  (∀ vbus, Completes (.chopperOn vbus) s fun t =>
    (busOf s vbus = none → t = s) ∧ (s.spn.chopOn = false → t.spn.chopOn = true → .chopper true ∈ t.tx) ∧
      ∀ v ∈ busOf s vbus, t.spn.chopOn = (s.spn.chopOn || (mayDrive s && decide (chopOnAt s < v)))) ∧
  (∀ vbus, Completes (.chopperOff vbus) s fun t =>
    (busOf s vbus = none → t = s) ∧ (s.spn.chopOn = true → t.spn.chopOn = false → .chopper false ∈ t.tx) ∧
      ∀ v ∈ busOf s vbus, t.spn.chopOn = (s.spn.chopOn && decide (chopOffAt s ≤ v))) ∧
  Completes .busOvRecover s (fun t =>
    (s.spc.overvolt = true → s.spn.vbus < vChopOn s.img →
      t.spc.overvolt = false ∧
        (s.ptn.activeOut = true → stopDue s = false → mustTurn s = true → t.spn.mode = 1) ∧
        (s.ptn.activeOut = true → stopDue s = true → s.dev ≠ .parked → s.dev ≠ .holdUp → t.spc.stopping = true)) ∧
    (s.spc.overvolt = false ∨ vChopOn s.img ≤ s.spn.vbus → t = s)) ∧
  Completes .generatorExhausted s fun t =>
    (s.dev = .holdUp → s.spn.mode = 10 → generatorSpent s = true →
      t.spn.mode = 9 ∧ t.spc.gates = false ∧ t.spc.generatorEnded = true ∧ t.spn.lastEvent = 0x2E) ∧
    (s.dev ≠ .holdUp ∨ s.spn.mode ≠ 10 ∨ generatorSpent s = false → t = s)

/-- R249 to R253, R600: a sample falls due after 10 periods of the observer or 18 wedges, and takes the wedges' speed once it is the source and the
observer's with no wedges; each wedge's speed enters the mean of the last 96, and the window is entered after 960 good means in
a row and left at the first mean beyond ±0.01%, which gates every writer; 100 ms outside it leads to Fault-hold, and 10 s without the wedges as source to
Stopped; the observer's lock closes the speed loop, and its loss turns the gates off and leads to Fault-hold. -/
def Obligations.SpeedAndTheServiceWindow : Prop := ∀ s : State, awake s = true →
  (∀ o, Completes (.speedSample o) s fun t =>
    (s.spc.decim < sampleEvery s → t = s) ∧
    (sampleEvery s ≤ s.spc.decim →
      t.spc.decim = 0 ∧
      (paceW s = [] → t.spn.speed = satInt 32 (roundHalfUp (65536 * obsRpm s)) ∧ t.spc.source = false) ∧
      (paceW s ≠ [] → paceKept (paceW s) = paceW s → s.spc.source = true → t.spn.speed = satInt 32 (wedgeSpeed s (meanRat (paceW s)))))) ∧
  Completes .speedSourceTimeout s (fun t =>
    (s.spc.source = true ∨ (∀ a < s.img.arms, (getArm s a).state ≠ 5) → t = s) ∧
    (∀ a < s.img.arms, (getArm s a).state = 5 → s.spc.source = false → inService s.dev = true → s.flt.stopStep = 0 → StopBegun 0x3C s t)) ∧
  (let kept := paceKept (paceW s)
   let ms := (wedgeSpeed s (meanRat kept) :: s.spc.means).take 96
   let speed := roundHalfUp (meanRat ms)
   Completes .dataWindowMean s fun t =>
    (kept = [] → t = s) ∧
    (kept ≠ [] → t.spc.means = ms) ∧
    (kept ≠ [] → ms.length < 96 → t.spn.window = s.spn.window ∧ t.spc.goodMeans = s.spc.goodMeans) ∧
    (kept ≠ [] → ms.length = 96 →
      t.spc.goodMeans = (if withinService s 8 speed then min 960 (s.spc.goodMeans + 1) else 0) ∧
      (s.spn.window = false ∨ withinService s 10 speed = true → t.spn.window = s.spn.window ∧ t.dev = s.dev) ∧
      (s.spn.window = true → withinService s 10 speed = false → inService s.dev = true →
        t.spn.window = false ∧ t.spn.windowExit = satInc 8 s.spn.windowExit ∧ t.spc.outSince = some (now s) ∧ t.dev = s.dev ∧
          ∀ n ∈ allHeads s, (getHead t n).writing = false))) ∧
  Completes .dataWindowEntry s (fun t =>
    (s.spn.window = false → s.spc.goodMeans = 960 → t.spn.window = true ∧ t.spc.everWindow = true ∧ t.spc.outSince = none) ∧
    (s.spn.window = true ∨ s.spc.goodMeans ≠ 960 → t = s)) ∧
  Completes .dataWindowTimeout s (fun t =>
    (s.spn.window = false → s.spc.everWindow = true → s.spc.outSince ≠ none → holdsFrom s.dev = true → t.dev = .faultHold ∧ t.flt.holdCause = 0x28) ∧
    (s.spn.window = true ∨ s.spc.everWindow = false → t = s)) ∧
  Completes .observerLock s (fun t =>
    (s.spc.gates = false ∨ s.spn.lock = true ∨ lockHolds s = false → t = s) ∧
    (s.spc.gates = true → s.spn.lock = false → braking s = false → lockHolds s = true → t.spn.lock = true ∧ (s.spn.mode = 5 ∨ s.spn.mode = 6 → (getCtx t 138).enable = true))) ∧
  Completes .observerLockLoss s fun t =>
    (s.spn.lock = false ∨ lockGone s = false → t = s) ∧ (lockGone s = true → t.spn.lock = false) ∧
    (s.spn.lock = true → lockGone s = true → s.spn.mode ≠ 3 → s.spn.mode ≠ 4 → SpindleFaulted 0x2F s t (t.dev = .faultHold ∧ t.spc.gates = false ∧ t.spn.mode = 1))

/-- R262, Table 19.5: once every arm has unloaded a stop that is due runs by STOP_MODE, braking from a speed above N_HANDOFF with −BRAKE_I first; it
gives way to short-brake at N_HANDOFF; below 60 rpm
the gates are held off and the mode is 0, and a park that waited for it ends in Parked. -/
def Obligations.SpindleStopsByStopMode : Prop := ∀ s : State, awake s = true →
  Completes .brakeStart s (fun t =>
    let due : Prop := (∀ a < s.img.arms, armOut s a = false) ∧ s.spc.stopping = false ∧ (s.start.parkStep = 5 ∨ s.flt.stopStep = 3)
    (¬ due → t = s) ∧
    (due → s.spn.mode ≠ 0 → t.spc.stopping = true ∧
      t.spn.mode = if stopMode s.img = 0 ∨ mayDrive s = false then 9 else if stopMode s.img = 1 ∧ atHandoff s = false then 7 else 8) ∧
    (due → s.spn.mode ≠ 0 → stopMode s.img = 1 → mayDrive s = true → atHandoff s = false →
      t.spc.iqSet = -(1000 * (brakeI s.img : Int)) ∧ t.spc.gates = true ∧ (getCtx t 136).enable = true ∧ (getCtx t 137).enable = true ∧
        (getCtx t 138).enable = false)) ∧
  Completes .shortBrakeSwitch s (fun t => (s.spn.mode = 7 → atHandoff s = true → t.spn.mode = 8) ∧ (s.spn.mode ≠ 7 ∨ atHandoff s = false → t = s)) ∧
  Completes .spindleStopped s fun t =>
    ((s.spc.stopping = false ∧ s.dev ≠ .stopped) ∨ underSixty s = false → t = s) ∧
    (s.spc.stopping = true → underSixty s = true → s.start.parkStep = 5 → s.dev ≠ .faultHold → s.dev ≠ .stopped → s.dev ≠ .holdUp → s.hop.autoSpin = false → s.hop.spinWait = false →
      t.dev = .parked ∧ t.start.parkStep = 0 ∧ t.spc.gates = false ∧ t.spn.mode = 0)

/-- R177, R178, R181 to R183, R195, R201: a wedge of a head on servo, demodulated from the samples of its two readers (a failed island yields nothing),
runs its timing filter; a valid one gives its position and clears the lost run, a lost one carries the estimate on and is counted; a writer that meets a
reason of R195 is gated; the fourth good wedge in a row acquires a head; and while its arm unloads, the fourth wedge without a SAM takes a head off servo.
R197 to R199: an estimate is formed from 32 valid wedges and begins a new count; at or above CLR_MIN the clearance loop sets the read heater from 0 to
HTR_MAX; below it the heater power falls by 20% at once and is counted.
The rounding of the timing filter, the four wedges of a head off servo, and that a calibration's own estimates act on nothing are the model's choices
(log entries 30, 44). -/
def Obligations.WedgesGivePositionsAndClearances : Prop :=
  (∀ s : State, awake s = true →
    ∀ arm head : Fin 8, Completes (.servoWedge arm head) s fun t =>
      let n := 8 * arm.val + head.val
      let h := getHead s n
      let i := getIsl s h.island
      let d : Demod := if i.failed then {} else demod s n
      let wrong : Bool := d.found && d.header.any fun x => decide (x.2 ≠ i.surf)
      (h.failed = true ∨ headFitted s.img n = false ∨ (armLoaded s arm.val = false ∧ (getArm s arm).state ≠ 6) ∨ h.state = 0 → t = s) ∧
      (h.failed = false → headFitted s.img n = true → (getArm s arm).state = 6 → h.state ≠ 0 →
        (getHead t n).tHat = (timing d h).tHat ∧ (getHead t n).lostRun = (if d.found then 0 else min 255 (h.lostRun + 1)) ∧
        (getHead t n).state = if d.found = false ∧ 3 ≤ h.lostRun then 0 else h.state) ∧
      (h.failed = false → headFitted s.img n = true → armLoaded s arm.val = true → (getArm s arm).state ≠ 6 → 2 ≤ h.state →
        (getHead t n).tHat = (timing d h).tHat ∧ (getHead t n).wHat = (timing d h).wHat ∧
        (∀ y, d.pos = some y → wrong = false →
          (getHead t n).pos = y ∧ (getHead t n).dPos = y - h.pos ∧ (getHead t n).lostRun = 0 ∧ (getHead t n).lostWedge = h.lostWedge) ∧
        (d.pos = none ∨ wrong = true →
          (getHead t n).pos = h.pos + h.dPos ∧ (getHead t n).lostWedge = satInc 16 h.lostWedge ∧ (getHead t n).lostRun = min 255 (h.lostRun + 1) ∧
            (h.writing = true → (getHead t n).writing = false)) ∧
        (∀ y, d.pos = some y → wrong = false → h.writing = true → 492 ≤ (satInt 16 (y - h.target)).natAbs → (getHead t n).writing = false ∧ (getHead t n).gated = true)) ∧
      (h.failed = false → headFitted s.img n = true → armLoaded s arm.val = true → (getArm s arm).state ≠ 6 → h.state = 1 → h.acqRun = 3 → d.found = true →
        d.header.any (fun x => decide (x.2 = i.surf)) = true → 100 * (d.tSam - h.tSam - nominalW s).natAbs ≤ (nominalW s).natAbs →
        2 ≤ (getHead t n).state ∧ (getHead t n).everAcquired = true)) ∧
  (∀ s : State, awake s = true → ∀ arm head : Fin 8,
    Completes (.clearanceEstimate arm head) s fun t =>
      let n := 8 * arm.val + head.val
      let h := getHead s n
      (h.hrCount < 32 → t = s) ∧
      (32 ≤ h.hrCount → (getHead t n).hrCount = 0 ∧ (getHead t n).hrSum = 0 ∧ (getHead t n).clearance = clearanceOf s n) ∧
      (32 ≤ h.hrCount → calibrating s n = true → (getHead t n).readPwr = h.readPwr ∧ (getHead t n).contact = h.contact) ∧
      (32 ≤ h.hrCount → calibrating s n = false → (clrMin s.img : Int) ≤ clearanceOf s n →
        ((getCtx s (72 + n)).enable = true → (getHead t n).readPwr ≤ htrMax s.img) ∧ ((getCtx s (72 + n)).enable = false → (getHead t n).readPwr = h.readPwr)) ∧
      (32 ≤ h.hrCount → calibrating s n = false → clearanceOf s n < (clrMin s.img : Int) → (getHead t n).readPwr = h.readPwr * 4 / 5 ∧ (getHead t n).contact = satInc 8 h.contact))

/-- Table 6.8, R183, R193: a coasting arm that does not re-acquire is unloaded to load again; four wrong surface numbers fail a head in service and stop
the part during a load; lost wedges make a head re-acquire with its actuator at its preset, and 100 ms without success fail it; the stroke limit seeks again;
reader disagreement is reported only; a settle is given once more time and is then a seek error.
That a head goes on re-acquiring during a seek or a settle is the model's reading (log entry 39). -/
def Obligations.ServoConditionsAreAnswered : Prop := ∀ s : State, awake s = true →
  (∀ arm : Fin 8, Completes (.armCoastTimeout arm) s fun t =>
    ((getArm s arm).coast = false → t = s) ∧
    ((getArm s arm).coast = true → armLoaded s arm = true → Unloading arm s t ∧ (getArm t arm).again = true)) ∧
  (∀ arm head : Fin 8,
    let n := 8 * arm.val + head.val
    let h := getHead s n
    Completes (.surfaceMismatch arm head) s (fun t =>
      (h.wrongSurf < 4 ∨ armLoaded s arm = false → t = s) ∧
      (4 ≤ h.wrongSurf → armLoaded s arm = true → (getArm s arm).tracked = true → HeadDeclared n s t) ∧
      (4 ≤ h.wrongSurf → armLoaded s arm = true → (getArm s arm).tracked = false → (getArm t arm).state = 6 ∧
        (inService s.dev = true → s.flt.stopStep = 0 → StopBegun 0x37 s t))) ∧
    Completes (.wedgeLossRun arm head) s (fun t =>
      let due : Prop := (4 ≤ h.lostRun ∨ 3 ≤ h.badIdRun) ∧ 2 ≤ h.state ∧ h.state ≤ 5
      (¬ due → t = s) ∧
      (due → (getHead t n).state = 6 ∧ (getHead t n).mu = h.preset ∧ (getHead t n).onRead = false ∧ (getHead t n).onWrite = false ∧ t.dev = s.dev)) ∧
    Completes (.reacquireTimeout arm head) s (fun t => (h.state ≠ 6 → t = s) ∧ (h.state = 6 → HeadDeclared n s t)) ∧
    Completes (.strokeLimitRun arm head) s (fun t =>
      let due : Prop := 8 ≤ h.strokeRun ∧ 4 ≤ (getArm s arm).state ∧ (getArm s arm).state ≤ 5
      (¬ due → t = s) ∧
      (due → (getHead t n).strokeRun = 0 ∧ (getArm t arm).state = 3 ∧ ((getArm t arm).seek.any fun k => !k.micro) = true ∧
        ∀ k ∈ loadedHeads s arm, (getHead s k).state ≠ 6 → (getHead t k).state = 2)) ∧
    Completes (.readerDisagreeRun arm head) s (fun t =>
      (h.disagreeRun < 64 → t = s) ∧ (64 ≤ h.disagreeRun → (getHead t n).disagreeRun = 0 ∧ (getHead t n).state = h.state ∧ t.dev = s.dev)) ∧
    Completes (.settleTimeout arm head) s fun t =>
      ((getArm s arm).seek = none → t = s) ∧
      ∀ k, (getArm s arm).seek = some k →
        (h.onRead = true ∨ k.settle < settleMax s.img ∨ armLoaded s arm = false → t = s) ∧
        (h.onRead = false → settleMax s.img ≤ k.settle → armLoaded s arm = true →
          (k.repeated = false → (getArm t arm).seek = some { k with settle := 0, repeated := true } ∧ t.dev = s.dev) ∧
          (k.repeated = true → (getArm t arm).state = 3 ∧
            (2 ≤ (recent s oneSec (getArm s arm).seekErrors).length → holdsFrom s.dev = true → t.dev = .faultHold) ∧
            ((recent s oneSec (getArm s arm).seekErrors).length < 2 → t.dev = s.dev ∧ now s ∈ (getArm t arm).seekErrors))))

/-- R200 to R202, R272, Table 6.6a: an arm whose load is due waits for the spindle and for RETRACTED and then leaves the ramp at LOAD_VEL; in Fault-hold
a spindle below 97% of N_SVC ends the reload under R272; heads that are not
acquired in time lead to another attempt, and after three to Stopped where none is acquired; where some are, a head that never was acquired is declared
failed and one that was re-acquires. An unload runs outward at UNLOAD_VEL and ends on the ramp, with |V_EMF| below 5% of UNLOAD_VEL, or by RETRACT when it takes too long; RETRACT is then the
next frame on the drive port, in both cases. The image gives both velocities as magnitudes (chapter 18). -/
def Obligations.ArmsLoadAndUnload : Prop := ∀ s : State, awake s = true → ∀ arm : Fin 8,
  let r := getArm s arm
  Completes (.armLoad arm) s (fun t =>
    let due : Prop := r.loadDue ≠ none ∧ loadState s.dev = true ∧ (r.state = 0 ∨ r.state = 7)
    (¬ due → t = s) ∧
    (due → s.dev = .faultHold → speedHeld s = false → s.flt.stopStep = 0 → StopBegun s.flt.holdCause s t) ∧
    (due → s.dev ≠ .faultHold ∨ speedHeld s = true → spindleAtSpeed s = false ∨ r.flags.getLsbD 2 = false → (getArm t arm).state = r.state ∧ (getArm t arm).loadDue = r.loadDue ∧ (getArm t arm).attempts = r.attempts) ∧
    (due → s.dev ≠ .faultHold ∨ speedHeld s = true → spindleAtSpeed s = true → r.flags.getLsbD 2 = true →
      (getArm t arm).state = 1 ∧ (getArm t arm).attempts = r.attempts + 1 ∧ (getArm t arm).loadDue = none ∧
        (getCtx t (140 + arm)).enable = true ∧ (getCtx t (140 + arm)).setpoint = loadVel s.img ∧
        ∀ n ∈ armHeads s arm, (getHead t n).state = 1 ∧ (getHead t n).zone = 0 ∧ (getHead t n).laserOpI = 0 ∧ (getHead t n).readPwr = 0)) ∧
  Completes (.loadAcquireTimeout arm) s (fun t =>
    let missing := (armHeads s arm).filter fun n => decide ((getHead s n).state < 2)
    (r.state ≠ 1 ∧ r.state ≠ 2 ∨ missing = [] → t = s) ∧
    (r.state = 1 ∨ r.state = 2 → missing ≠ [] → r.faulted = false → r.attempts < 3 → Unloading arm s t ∧ (getArm t arm).again = true) ∧
    (r.state = 1 ∨ r.state = 2 → missing ≠ [] → r.faulted = true → r.reloads < 3 → Unloading arm s t) ∧
    (r.state = 1 ∨ r.state = 2 → missing ≠ [] → r.faulted = false → 3 ≤ r.attempts → loadedHeads s arm = [] →
      inService s.dev = true → s.flt.stopStep = 0 → StopBegun 0x3C s t) ∧
    (r.state = 1 ∨ r.state = 2 → missing ≠ [] → r.faulted = false → 3 ≤ r.attempts → loadedHeads s arm ≠ [] → ∀ n ∈ missing,
      (getHead s n).failed = false →
      if (getHead s n).everAcquired then (getHead t n).state = 6 else (getHead t n).failed = true ∧ (n / 8, n % 8) ∈ t.layout.failedHeads)) ∧
  Completes (.armUnload arm) s (fun t => (armLoaded s arm = false → t = s) ∧ (armLoaded s arm = true → Unloading arm s t)) ∧
  Completes (.unloadComplete arm) s (fun t =>
    let still : Prop := 100 * (5 * r.vEmf.natAbs) < 5 * unloadVel s.img
    (r.state ≠ 6 ∨ ¬ still → t = s) ∧
    (r.state = 6 → still → (getArm t arm).state = 0 ∧ (getCtx t (140 + arm)).enable = false ∧ (getArm t arm).due = [2])) ∧
  Completes (.unloadTimeout arm) s fun t =>
    (r.state ≠ 6 → t = s) ∧ (r.state = 6 → (getArm t arm).state = 7 ∧ (getCtx t (140 + arm)).enable = false ∧ (getArm t arm).due = [2])

/-- R200, R205, R206, Tables 6.6b, 6.7 and 21.8: a DI frame of an arm that is not fitted is ignored. One with a bad CRC or an old echo is counted and
discarded, and three of them in a row are a fault of the part that drives, as are the driver's own fault flags with the arm off its ramp: RETRACT is the
next frame, the writers are gated, and Fault-hold is entered. A good frame gives I_SENSE, V_EMF and FLAGS. RETRACTED that does not come in 1 s is a fault
too. The arm is loaded again at most three times and within 10 s, in Fault-hold with the spindle at 97% of N_SVC or more (R272), else the part stops. That SEQ_ECHO and the port's own faults count only while this
part's ACTIVE_OUT is asserted is the model's reading (log entry 30). -/
def Obligations.VcmPortFaultsRetract : Prop := ∀ s : State, awake s = true → ∀ arm : Fin 8,
  let r := getArm s arm
  let out : Prop := 1 ≤ r.state ∧ r.state ≤ 6
  let fault (t : State) : Prop :=
    (getArm t arm).faulted = true ∧ (getArm t arm).state = 7 ∧ (getArm t arm).due = [2] ∧ (∀ n ∈ armHeads s arm, (getHead t n).writing = false) ∧
      (holdsFrom s.dev = true → t.dev = .faultHold)
  (∀ f : DiFrame, Completes (.vcmDiFrame arm f) s fun t =>
    let w := f.bits.toNat
    let flags := BitVec.ofNat 6 (bitsOf 27 22 w)
    (s.img.arms ≤ arm.val → t = s) ∧
    (arm.val < s.img.arms → diBad s arm w = true →
      (getArm t arm).frameErr = satInc 16 r.frameErr ∧ (getArm t arm).iSense = r.iSense ∧ (2 ≤ r.badRun → s.ptn.activeOut = true → fault t)) ∧
    (arm.val < s.img.arms → diBad s arm w = false → (getArm t arm).iSense = signedOf 16 (bitsOf 55 40 w) ∧ (getArm t arm).vEmf = signedOf 12 (bitsOf 39 28 w) ∧
      (getArm t arm).flags = flags ∧ (getArm t arm).frameErr = r.frameErr ∧
      (out → flags.getLsbD 0 = true ∨ flags.getLsbD 4 = true ∨ flags.getLsbD 5 = true → fault t))) ∧
  Completes (.retractedWaitTimeout arm) s (fun t =>
    (r.loadDue = none ∨ r.flags.getLsbD 2 = true → t = s) ∧ (r.loadDue ≠ none → r.flags.getLsbD 2 = false → fault t ∧ (getArm t arm).loadDue = none)) ∧
  Completes (.vcmReload arm) s (fun t =>
    let due : Prop := r.faulted = true ∧ (r.state = 0 ∨ r.state = 7) ∧ r.flags.getLsbD 2 = true ∧ r.loadDue = none
    (¬ due → t = s) ∧
    (due → r.reloads < 3 → s.dev ≠ .faultHold ∨ speedHeld s = true →
      (getArm t arm).reloads = r.reloads + 1 ∧ (getArm t arm).loadDue = some (now s) ∧ t.dev = s.dev) ∧
    (due → r.reloads < 3 → s.dev = .faultHold → speedHeld s = false → s.flt.stopStep = 0 → StopBegun s.flt.holdCause s t) ∧
    (due → 3 ≤ r.reloads → inService s.dev = true → s.flt.stopStep = 0 → StopBegun 0x3A s t)) ∧
  Completes (.vcmReloadTimeout arm) s fun t =>
    (r.faulted = false → t = s) ∧ (r.faulted = true → inService s.dev = true → s.flt.stopStep = 0 → StopBegun 0x3A s t)

/-- R188, R189, R198, R215, R223, R225, R232, R233: a context that is enabled runs its law on its input and leaves its output within its limits, with what
was saturated, and a servo context passes it on: a VCM or velocity loop as the demand of the next frame, a microactuator loop as μ about its preset, a
clearance loop as the read heater's power. A test context is enabled by the request that runs it. One that still runs or misses its deadline keeps its
last output and counts OVERRUN; a data error takes a loop out of its service law into its start law with Fault-hold, and a position other than the last
that stays full for 16 samples is a failure too; the switch to the service law is made when it has been asked for, the error has stayed within SW_LIMIT
for SW_COUNT samples and no position is frozen; and a switch that does not come in 65,536 samples reloads the arm, declares the head failed, or stops the
part.
R228, R231, R235 to R237, R439, R441: a law that meets R216, R224, R231 and PM_MIN goes into free entries of the store; a spindle context moves to it at
once, and a servo context's waits for a row boundary of its arm. A sine starts only in Ready, on a context in its service format that R433 leaves quiet,
within its limit; a trigger stops an armed capture after its share and keeps the time of it; a channel that has recorded its share is done.
Which contexts take set-point minus measurement, a test context's deadline, and the scale of start-format taps are the model's choices
(log entries 12, 27). -/
def Obligations.TheGovernorRunsItsContexts : Prop :=
  (∀ s : State, awake s = true → ∀ ctx : Fin 160,
    let n := ctx.val
    let s1 := if 148 ≤ n ∧ (getCtx s n).enable = false then enableCtx n s else s
    let c := getCtx s1 n
    let own : Prop := 148 ≤ n ∨ (136 ≤ n ∧ n ≤ 139)
    let a := if n < 8 then n else if n < 72 then (n - 8) / 8 else (n - 72) / 8
    (∀ input (o : LoopObs), Completes (.loopExecute ctx input o) s fun t =>
      let u := getCtx t n
      (c.enable = false → t = s) ∧
      (own → c.enable = true → o.romBad = true → now s ∈ u.failTimes ∧ (inService s.dev = true → s.flt.stopStep = 0 → StopBegun 0x3F s t)) ∧
      (own → c.enable = true → o.romBad = false → o.ue = false → o.running = true ∨ ctxDeadline s n < o.latency →
        u.out = c.out ∧ u.overrun = satInc 8 c.overrun ∧ u.latency = min o.latency 65535 ∧ (c.ovrRun = 0 → u.secs = c.secs ∧ t.dev = s.dev)) ∧
      (own → c.enable = true → o.romBad = false → o.ue = false → o.running = false → o.latency ≤ ctxDeadline s n →
        let in_ := softStart s1 n (if c.inSign = true ∧ n < 139 then -input else input)
        let e := in_.2.1
        let law := lawOfStart n
        let inj := if c.fmt then e + sineValue s1 n else e
        let q := cascade (if c.fmt then 32 else 16) c.sat (positions s1 n) c.secs
          (if c.fmt then satInt 32 inj else satInt 16 (roundHalfUp ((inj : Rat) / (2 : Rat) ^ law.inSh)))
        let v := if c.fmt then q.y else q.y * 2 ^ law.outSh
        let full : Prop := ∃ p ∈ q.states.dropLast, 16 ≤ p.satRun
        let switches : Prop := c.fmt = false ∧ c.request ≠ none ∧ serviceState s.dev = true ∧
          c.swCount ≤ (if e.natAbs ≤ c.swLimit then c.inRun + 1 else 0) ∧ q.frozen = false
        u.out = min (max v (clampLo s1 n)) (clampHi s1 n) ∧ u.latency = min o.latency 65535 ∧ u.rEff = in_.1 ∧
          (full → now s ∈ u.failTimes) ∧
          (¬ full → u.ovrRun = 0 ∧ u.sat = (if clampHi s1 n < v then 1 else if v < clampLo s1 n then 2 else 0) ∧
            (switches → u.fmt = true ∧ u.failed = false) ∧ (¬ switches → u.fmt = c.fmt ∧ u.secs = q.states ∧ u.rampK = in_.2.2))) ∧
      (own → c.enable = true → o.romBad = false → o.ue = true → c.fmt = true → u.fmt = false ∧ u.failed = true ∧ now s ∈ u.failTimes ∧
        (recent s (86400 * oneSec) c.failTimes = [] → holdsFrom s.dev = true → t.dev = .faultHold)) ∧
      (o.ue = false → o.running = false → o.latency ≤ ctxDeadline s n → c.enable = true →
        (n < 8 → (getArm s n).coast = false → (getArm s n).seek = none → (getArm t n).wanted = satInt 16 u.out) ∧
        (8 ≤ n → n < 72 → 3 ≤ (getHead s (n - 8)).state → (getHead s (n - 8)).state ≤ 5 → (getHead s (n - 8)).lostRun = 0 →
          (getHead t (n - 8)).mu = (getHead s (n - 8)).preset + u.out) ∧
        (72 ≤ n → n < 136 → calibrating s (n - 72) = false → (getHead t (n - 72)).readPwr = (clampInt 0 (htrMax s.img) u.out).toNat) ∧
        (140 ≤ n → n < 148 → (getArm t (n - 140)).wanted = satInt 16 u.out))) ∧
    Completes (.loopSwitchTimeout ctx) s fun t =>
      let due := (getCtx s n).request.any fun k => decide (65536 ≤ k)
      (due = false ∨ (getCtx s n).fmt = true → t = s) ∧
      (due = true → (getCtx s n).fmt = false → n < 136 → (getArm s a).attempts < 3 → armLoaded s a = true → Unloading a s t ∧ (getArm t a).again = true) ∧
      (due = true → (getCtx s n).fmt = false → n < 8 → 3 ≤ (getArm s n).attempts → inService s.dev = true → s.flt.stopStep = 0 → StopBegun 0x3C s t) ∧
      (due = true → (getCtx s n).fmt = false → 8 ≤ n → n < 136 → 3 ≤ (getArm s a).attempts → HeadDeclared (if n < 72 then n - 8 else n - 72) s t) ∧
      (due = true → (getCtx s n).fmt = false → 136 ≤ n → inService s.dev = true → s.flt.stopStep = 0 → StopBegun 0x3C s t)) ∧
  (∀ s : State, awake s = true →
    (∀ (ctx : Fin 160) base (entries : List (BitVec 256)) phaseMargin, Completes (.lawReplace ctx base entries phaseMargin) s fun t =>
      let len := entries.length
      let may : Prop := fantailHalted s = false ∧ hasService s ctx = true ∧ base + len ≤ 2048 ∧ lawOk entries = true ∧ pmMin s.img ≤ phaseMargin ∧
        burstWith s ctx len ≤ 2624 ∧ ∀ k < len, entryUsed s (base + k) = false
      (¬ may → t = s) ∧
      (may → (∀ k < len, tabGet 0 t.gov.store (base + k) = entries.getD k 0) ∧ (ctx.val, base, entries) ∈ t.fan.laws ∧
        (ctx.val < 136 → (ctx.val, base, len) ∈ t.fan.dueLaws ∧ getCtx t ctx = getCtx s ctx) ∧
        (136 ≤ ctx.val → (getCtx t ctx).servBase = base ∧ (getCtx t ctx).nServ = len ∧
          (len = (getCtx s ctx).nServ → (getCtx t ctx).secs = (getCtx s ctx).secs)))) ∧
    (∀ (gen : Fin 4) (ctx : Fin 160) amplitude frequency periods, Completes (.sineInjectStart gen ctx amplitude frequency periods) s fun t =>
      let may : Prop := s.dev = .ready ∧ (getCtx s ctx).enable = true ∧ (getCtx s ctx).fmt = true ∧ amplitude ≤ sineMax s ctx ∧ sineQuiet s ctx = true
      (may → getSine t gen = { on := true, ctx := ctx.val, amplitude, freq := frequency, periods }) ∧ (¬ may → t = s)) ∧
    Completes .traceTrigger s (fun t =>
      (s.gov.armed = false → t = s) ∧
      (s.gov.armed = true → t.gov.armed = false ∧ t.gov.traceTime = devTime s ∧
        ∀ c : Fin 8, getTrace t c = if (getTrace s c).state = 1
          then { getTrace s c with state := 2, trigIdx := (getTrace s c).writeIdx, left := 65536 - 1024 * s.gov.pre } else getTrace s c)) ∧
    ∀ ch : Fin 8, Completes (.traceCaptureDone ch) s fun t =>
      getTrace t ch = if (getTrace s ch).state = 2 ∧ (getTrace s ch).left = 0 then { getTrace s ch with state := 3 } else getTrace s ch)

/-- R75, R77: a sample word goes to the stream that it names, as erased samples between a lost block and the next mark; a mark names a word that is still
to come by its WSEQ, and its time stands for that word; when the word count disagrees, the samples since the last mark are erased, the stream goes on at
the word named, and MSG_ERR counts it (Table 3.11).
That a count disagrees when words are known to be lost, or the word named lies more than 720 words ahead, and that the part keeps 16,384 words and 32
marks of a stream, are the model's choices (log entry 43). -/
def Obligations.SampleStreamsAreAnchored : Prop := ∀ s : State, awake s = true → ∀ (arm : Fin 8) (word : Word),
  let w := word.toNat
  let stream (s : State) (x : Nat) : Stream := tabGet {} (getAlk s arm).streams x
  Completes (.sampleWord arm word) s (fun t =>
    let x := bitsOf 63 60 w
    let d := stream s x
    (alkUp s arm = false → t = s) ∧
    (alkUp s arm = true → (stream t x).running = true ∧ (stream t x).next = d.next + 1 ∧
      (stream t x).words = (d.next, if d.broken then erasedWord else word) :: d.words ∧ (stream t x).marks = d.marks ∧ ∀ y : Fin 16, y.val ≠ x → stream t y = stream s y)) ∧
  Completes (.streamMark arm word) s fun t =>
    let x := bitsOf 55 52 w
    let d := stream s x
    let e := stream t x
    let named := d.next + (bitsOf 51 40 w + 4096 - d.next % 4096) % 4096
    let bad : Prop := d.running = true ∧ (d.broken = true ∨ 720 < named - d.next)
    (alkUp s arm = false → t = s) ∧
    (alkUp s arm = true →
      e.running = true ∧ e.broken = false ∧ e.next = (if bad ∨ d.running = false then named else d.next) ∧
      (getAlk t arm).msgErr = (if bad then satInc 16 (getAlk s arm).msgErr else (getAlk s arm).msgErr) ∧
      (e.marks.head?.map fun m => (m.1, m.2 % 2 ^ 40)) = some (named, (bitsOf 39 0 w : Int)) ∧ e.marks.tail = d.marks.take 31 ∧
      (∀ p ∈ e.words, named < p.1 + 16384 ∧ (p ∈ d.words ∨ (bad ∧ p.2 = erasedWord))) ∧
      (bad → ∀ p ∈ e.words, lastMark d ≤ p.1 → p.2 = erasedWord))

/-- R107 to R124, R140, R152, R154, R194: a frame of a reading head takes a sample-buffer entry, and gives its codewords to the queue when it has a preamble, its clock is in
range, its sync mark passes its threshold and at most 1,024 cells are erased: those of the sectors whose rungs take the lowest channel set, and on a
first pass of both tracks; else the failure is counted and nothing is queued. CHN_TIMING shows a frame
with an accepted sync mark. The oldest request for a second candidate is served next, from its entry's samples, and the codeword is queued as such.
What acquisition and detection make of the samples follows the model's choices of rounding and order (log entries 31, 43). -/
def Obligations.FramesGiveCodewords : Prop := ∀ s : State, awake s = true → ∀ island : Fin 68,
  let i := getIsl s island
  let n := 8 * i.arm + i.head
  let h := getHead s n
  (∀ slot, Completes (.preambleSearch island slot) s fun t =>
    let xs := passSectors (secsAt s i.arm i.head slot)
    let set := rungSet ((xs.map (·.rung)).foldl max 1)
    let e := frameEntry s island slot set (xs.any (·.missed))
    let reading : Prop := i.assigned = true ∧ i.failed = false ∧ i.state = 2 ∧ h.suspended = false ∧ h.failed = false
    let host : Prop := reading ∧ ((visitStep s n).filter fun x => x.2.1.kind = 0) = none ∧ xs ≠ []
    let onTrack : Prop := host ∧ h.onRead = true ∧ h.lostRun < 2
    let j := getIsl t island
    let wanted := ladderTracks s (secsAt s i.arm i.head slot) xs
    (¬ reading → t = s) ∧
    (reading → (visitStep s n).filter (fun x => x.2.1.kind = 0) = none → xs = [] → t = s) ∧
    (host → j.frames = i.frames + 1 ∧ ∃ d ∈ j.sbuf, d.frame = i.frames ∧ d.slot = slot) ∧
    (host → ¬ onTrack → t.bol.queue = s.bol.queue ∧ j.miss = i.miss ∧ j.loopRange = i.loopRange ∧ j.freqOfs = i.freqOfs) ∧
    (onTrack → (acquireEntry s island e).2 = none → t.bol.queue = s.bol.queue ∧ j.miss = satInc 16 i.miss ∧ j.freqOfs = i.freqOfs) ∧
    ∀ q, (acquireEntry s island e).2 = some q → onTrack →
      let cs := detCells q fun _ => none
      let lam := detectFrame s.img n i.zone set cs
      (q.loop.lost = true → t.bol.queue = s.bol.queue ∧ j.loopRange = satInc 16 i.loopRange ∧ j.freqOfs = i.freqOfs) ∧
      ∀ c1 c2, syncSearch (syncScore lam) q.sync (if e.wide then 96 else 48) = (some c1, c2) → q.loop.lost = false →
        (c1.2 < (syncThr s.img n i.zone set : Int) → t.bol.queue = s.bol.queue ∧ j.miss = satInc 16 i.miss ∧ j.freqOfs = i.freqOfs) ∧
        ((syncThr s.img n i.zone set : Int) ≤ c1.2 →
          j.freqOfs = satInt 24 (freqOffset (acquireEntry s island e).1 q.loop) ∧ j.score1 = c1.2.toNat) ∧
        ((syncThr s.img n i.zone set : Int) ≤ c1.2 → 1024 < erasedCells cs c1.1 →
          t.bol.queue = s.bol.queue ∧ j.erasedFrames = satInc 16 i.erasedFrames) ∧
        ((syncThr s.img n i.zone set : Int) ≤ c1.2 → erasedCells cs c1.1 ≤ 1024 → 1024 < s.bol.queue.length + wanted.length →
          t.bol.queue = s.bol.queue ∧ t.bol.queueFull = satInc 16 s.bol.queueFull ∧ (getHead t n).suspended = true) ∧
        ((syncThr s.img n i.zone set : Int) ≤ c1.2 → erasedCells cs c1.1 ≤ 1024 → s.bol.queue.length + wanted.length ≤ 1024 →
          (t.bol.queue.drop s.bol.queue.length).map (fun q => (q.2.arm, q.2.head, q.2.track, q.2.slot, q.2.cand, q.2.rung, q.2.expAddr)) =
            wanted.map fun k => (n / 8, n % 8, k.1, slot, 0, k.2.1, paddrOf s.layout.fmtId k.2.2))) ∧
  Completes (.secondCandidateRebuild island) s fun t =>
    let ok : Prop := i.assigned = true ∧ i.failed = false ∧ (i.state = 2 ∨ i.state = 3)
    (i.requests = [] ∨ ¬ ok → t = s) ∧
    ∀ p rest, i.requests = p :: rest → ok →
      ∀ e, i.sbuf.find? (fun e => e.frame = p.1) = some e → ∀ c2, e.cand2 = some c2 → ∀ q, (acquireEntry s island e).2 = some q →
        ∀ x more, waiting s island e.slot p.2 = x :: more →
          let cs := detCells q (knownAt c2.toNat)
          (s.bol.queue.length < 1024 → (getIsl t island).cand2Used = satInc 16 i.cand2Used) ∧
          (s.bol.queue.length = 1024 → t.bol.queue = s.bol.queue ∧ (getIsl t island).cand2Used = i.cand2Used) ∧
          (s.bol.queue.length < 1024 → 1024 < erasedCells cs c2.toNat →
            t.bol.queue = s.bol.queue ∧ (getIsl t island).erasedFrames = satInc 16 i.erasedFrames) ∧
          (s.bol.queue.length < 1024 → erasedCells cs c2.toNat ≤ 1024 → freeQueueSlot s ≠ none →
            (t.bol.queue.drop s.bol.queue.length).map (fun q => (q.2.arm, q.2.head, q.2.track, q.2.slot, q.2.cand, q.2.rung)) =
              [(i.arm, i.head, p.2, e.slot, 1, x.rung)])

/-- R129 to R133: the check of a frame of a writing head passes, is marginal or fails by the limits of the channel set, is counted once and gives its
result word to the arm's queue; a check that a gating has made void, so that its sector waits for no check, is counted nowhere. The oldest result word is taken: a pass settles its sector, and a
remap outside a row write enters the defect table (R54).
The places of the fields in a result word, and what a check with no sync mark shows, are the model's choices (log entries 16, 43). -/
def Obligations.ReadAfterWriteChecksCount : Prop := ∀ s : State, awake s = true → ∀ island : Fin 68,
  let i := getIsl s island
  let n := 8 * i.arm + i.head
  (∀ slot, Completes (.rawCheck island slot) s fun t =>
    let j := getIsl t island
    let written := (writtenFrames s i.arm i.head).find? fun p => p.1.slot = slot
    (i.assigned = false ∨ i.state ≠ 3 ∨ written = none → t = s) ∧
    ∀ f, written = some f → i.assigned = true → i.state = 3 →
      let track := f.1.track % 2
      let c := checkFrame s n i.zone slot track (frameBits track f.2)
      let res := rawResult s n i.zone c.1
      let void : Prop := i.failed = true ∨ (isVisit s i.arm 1 = true ∧ (getHead s n).gated = true) ∨
        (isVisit s i.arm 1 = false ∧ repairTarget s i.arm = none ∧ underCheck s i.arm i.head track slot = [])
      (void → t = s) ∧
      (¬ void → j.rawMse = if c.1.synced then min c.1.mse 4095 else i.rawMse) ∧
      (¬ void → isVisit s i.arm 1 = false →
        j.rawPass = (if res = 0 then satInc 32 i.rawPass else i.rawPass) ∧ j.rawMarginal = (if res = 1 then satInc 16 i.rawMarginal else i.rawMarginal) ∧
          j.rawFail = (if res = 2 then satInc 16 i.rawFail else i.rawFail) ∧
          (1 ≤ mqRoom s i.arm → (getMq s i.arm).waiting = [] → (getMq s i.arm).stalled = false →
            ((getMq t i.arm).words.drop (getMq s i.arm).words.length).map (fun w => (bitsOf 63 57 w.1.toNat, bitsOf 43 41 w.1.toNat)) =
              [(island.val, 4 * track + res)] ∧
            (c.1.synced = true → (getMq t i.arm).words = (getMq s i.arm).words ++ [(rawWord island slot track res c.1, true)]))) ∧
      (¬ void → isVisit s i.arm 1 = true →
        j.rawPass = i.rawPass ∧ j.rawMarginal = i.rawMarginal ∧ j.rawFail = i.rawFail)) ∧
  Completes (.rawResultHandle island) s fun t =>
    ((getMq s i.arm).words = [] → t = s) ∧
    ∀ w rest, (getMq s i.arm).words = w :: rest →
      let j := getIsl s (bitsOf 63 57 w.1.toNat)
      let mine := underCheck s j.arm j.head (bitsOf 43 43 w.1.toNat) (bitsOf 56 44 w.1.toNat)
      (getMq t i.arm).words = rest ∧
      (∀ x more, mine = x :: more → bitsOf 42 41 w.1.toNat = 0 → ((rowBuildOf t x.1.row).map fun r => (rowSec r x.2).st) = some 2) ∧
      ∀ r, repairTarget s j.arm = some r → mine = [] → bitsOf 42 41 w.1.toNat = 0 → remapEntry r.1 r.2.1 r.2.2 ∈ t.layout.defects

/-- R100 to R103: an island fails once, loses its buffer, and its head is steered to the lowest free spare; with none free the part enters Fault-hold. A reassigned head uses
a free good island, which loads its tables first, and then goes on in the mode of the operation that its arm runs.
A planned change waits for a row boundary on the head, and up to 32 µs for the requests of the island that it leaves.
R154 to R156, R422: while the queue stands at or above its lower mark under pressure the reading head with the highest recent mean is suspended; once it has
fallen below, the heads resume in order of suspension, where the budget and the limits allow, and then the fantail. -/
def Obligations.IslandsAreSteeredAndHeadsSuspended : Prop :=
  (∀ s : State, awake s = true → ∀ island : Fin 68,
    let i := getIsl s island
    (∀ why, Completes (.islandFail island why) s fun t =>
      (i.failed = true → t = s) ∧
      (i.failed = false → (getIsl t island).failed = true ∧ (getIsl t island).state = 5 ∧ (getIsl t island).sbuf = [] ∧
        (getIsl t island).steering = (if i.assigned then freeSpare s else none) ∧
        (i.assigned = true → (getHead t (8 * i.arm + i.head)).failed = false → (getHead t (8 * i.arm + i.head)).suspended = true) ∧
        ((∀ x ∈ s.bol.sectors, x.followUp = false) →
          (i.assigned = true → freeSpare s = none → holdsFrom s.dev = true → t.dev = .faultHold) ∧ (i.assigned = false ∨ freeSpare s ≠ none → t.dev = s.dev)))) ∧
    (∀ arm head : Fin 8, Completes (.islandReassign arm head island) s fun t =>
      let n := 8 * arm.val + head.val
      let old := (getHead s n).island
      let may : Prop := i.assigned = false ∧ i.failed = false ∧ (getHead s n).failed = false ∧ headFitted s.img n = true
      let asked := if (getIsl s old).steering = some island.val then s else modIsl s old fun i => { i with steering := some island.val, steerAt := now s }
      (¬ may → t = s) ∧
      (may → steerWaits n asked = true → t = asked) ∧
      (may → steerWaits n asked = false → (getIsl t island).assigned = true ∧ (getIsl t island).arm = arm.val ∧ (getIsl t island).head = head.val ∧ (getIsl t island).state = 4 ∧
        (getHead t n).island = island.val ∧ (getHead t n).suspended = true ∧
        (old ≠ island.val → (getIsl s old).arm = arm.val → (getIsl s old).head = head.val → (getIsl t old).assigned = false))) ∧
    Completes (.islandTablesLoaded island) s fun t =>
      (i.state ≠ 4 ∨ i.assigned = false → t = s) ∧
      (i.state = 4 → i.assigned = true →
        let n := 8 * i.arm + i.head
        let waits := s.bol.suspended.contains (i.arm, i.head)
        (getHead t n).suspended = waits ∧
        (opOf s i.arm = none → (getIsl t island).state = 1) ∧
        ∀ o, opOf s i.arm = some o → (getHead s n).island = island.val →
          let write : Bool := writesMedium o.kind || o.visit.any fun v => v.kind = 1
          (getIsl t island).state =
            if o.heads.contains i.head = true ∧ (o.visit.any fun v => v.kind = 2) = false ∧ (getHead s n).failed = false ∧ (write = true ∨ waits = false)
            then (if write then 3 else 2) else 1)) ∧
  (∀ s : State, awake s = true →
    Completes .headSuspendTick s (fun t =>
      let due : Prop := s.bol.pressure = 1 ∧ queueLwm s.img ≤ s.bol.queue.length
      (¬ due ∨ readingHeads s = [] → t = s) ∧
      (due → readingHeads s ≠ [] → ∃ n ∈ readingHeads s, (∀ m ∈ readingHeads s, recentMean s m ≤ recentMean s n) ∧
        (getHead t n).suspended = true ∧ t.bol.suspended = s.bol.suspended ++ [(n / 8, n % 8)])) ∧
    Completes .headResumeTick s fun t =>
      let due : Prop := s.bol.pressure = 2
      (¬ due → t = s) ∧
      (due → s.bol.suspended = [] → t.bol.pressure = 0 ∧ t.bol.fantailSuspended = false) ∧
      ∀ p rest, s.bol.suspended = p :: rest → due →
        (resumeFits s (8 * p.1 + p.2) = false → t = s) ∧
        (resumeFits s (8 * p.1 + p.2) = true → t.bol.suspended = rest ∧
          ((getIsl s (getHead s (8 * p.1 + p.2)).island).state ≤ 3 → (getHead t (8 * p.1 + p.2)).suspended = false)))

/-- R148 to R153, R166, R167: a free engine of the pool takes the next codeword, a retry before a first decode; a decode frees its slot and its engine, and a wrong check sum or
address is counted; an engine that fails, by no result in time, an uncorrectable error or a parity error, gives its place to the lowest free spare, and the
fifth failure stops the part; a spare that fails outside the pool is only marked; a queue slot in error is freed. A good check sum with reserved bits
that are not 0 counts as a miscorrection alone, whatever PADDR says (log entry 54). -/
def Obligations.EnginesDecodeTheQueue : Prop := ∀ s : State, awake s = true →
  (∀ engine : Fin 100,
    let free : Prop := inPool s engine = true ∧ (getEngine s engine).busy = none
    Completes (.codewordTake engine) s (fun t =>
      (¬ free ∨ nextCodeword s = none → t = s) ∧
      (∀ q, nextCodeword s = some q → free → (getEngine t engine).busy = some q.1 ∧ q.1 ∉ takenSlots s ∧ q ∈ s.bol.queue ∧
        ((∃ p ∈ s.bol.queue, p.1 ∉ takenSlots s ∧ 2 ≤ p.2.rung) → 2 ≤ q.2.rung))) ∧
    Completes (.decodeDone engine) s (fun t =>
      let work := (getEngine s engine).busy.bind fun k => s.bol.queue.find? fun q => q.1 = k
      (work = none → t = s) ∧
      ∀ q, work = some q → (∀ p ∈ t.bol.queue, p.1 ≠ q.1) ∧ ((getEngine s engine).failed = false → (getEngine t engine).busy ≠ some q.1) ∧
        let limit := if q.2.rung = 1 then iterMax s.img (8 * q.2.arm + q.2.head) q.2.zone else 20
        let out := ldpcDecode limit q.2.soft
        let info : Info := out.2.setWidth 33152
        let good : Prop := infoCrcOf info = infoCrc info ∧ infoReserved info = 0
        (out.1 ≠ none → ¬ good → t.bol.miscorrect = satInc 16 s.bol.miscorrect ∧ t.bol.addrMismatch = s.bol.addrMismatch) ∧
        (out.1 ≠ none → good → infoPaddr info ≠ q.2.expAddr → t.bol.miscorrect = s.bol.miscorrect ∧ t.bol.addrMismatch = satInc 16 s.bol.addrMismatch) ∧
        (out.1 = none ∨ (good ∧ infoPaddr info = q.2.expAddr) → t.bol.miscorrect = s.bol.miscorrect ∧ t.bol.addrMismatch = s.bol.addrMismatch)) ∧
    ∀ why : Fin 3, Completes (.engineTimeout engine why) s fun t =>
      let spare := [0, 1, 2, 3].find? fun k => !(s.bol.spareMap.any fun m => m.1 = k) && !(getEngine s (96 + k)).failed && decide (engine.val ≠ 96 + k)
      ((getEngine s engine).failed = true ∨ (why = 0 ∧ (getEngine s engine).busy = none) → t = s) ∧
      (inPool s engine = false → (getEngine s engine).failed = false → why ≠ 0 →
        (getEngine t engine).failed = true ∧ t.bol.spareMap = s.bol.spareMap ∧ t.dev = s.dev) ∧
      (inPool s engine = true → (why = 0 → (getEngine s engine).busy ≠ none) → (getEngine t engine).failed = true ∧ (getEngine t engine).busy = none ∧
        (∀ k, spare = some k → k ∈ t.bol.spareMap.map (·.1) ∧ t.dev = s.dev ∧ (engine.val < 96 → (k, engine.val) ∈ t.bol.spareMap)) ∧
        (spare = none → inService s.dev = true → s.flt.stopStep = 0 → StopBegun 0x4F s t))) ∧
  ∀ slot : Fin 1024, Completes (.queueSlotUe slot) s fun t =>
    let q := s.bol.queue.find? fun q => decide (q.1 = slot.val)
    (q = none → t = s) ∧ (q ≠ none → ∀ p ∈ t.bol.queue, p.1 ≠ slot.val)

/-- R66, R67, R290, R294, R299, R666: a full row goes first, of the arm whose turn it is, then the oldest (within a rule: log entry 46); a row is built from its HELD
blocks, which become BUILDING; a reader's pin of a block on the medium holds the build back until the pinned blocks are read in; a row whose sectors have all passed commits with its record, and its blocks are HELD or in build no more; a flush
of the records empties them. A head that fails is declared so.
The bytes of a pending commit record, and that a row whose run goes on from another row's waits for that row's commit and is built again when that row was
abandoned, are the model's choices (log entries 29, 41). -/
def Obligations.RowsAreBuiltAndCommitted : Prop := ∀ s : State, awake s = true →
  Completes .rowBuild s (fun t =>
    let may := (heldRows s).filter (mayBuild s)
    let turns (row : Nat) : Nat := (armOfRow s.img row + s.img.arms - s.mpd.turn % s.img.arms) % s.img.arms
    (may = [] → t = s) ∧
    (may ≠ [] → ∃ row ∈ may,
      (∀ x ∈ may, fullRow s x = true → fullRow s row = true ∧ turns row ≤ turns x ∧ (armOfRow s.img x = armOfRow s.img row → oldestHeld s row ≤ oldestHeld s x)) ∧
      (∀ x ∈ may, fullRow s row = false → drainsPartial s = true → oldestHeld s row ≤ oldestHeld s x) ∧
      t.mpd.turn = (if fullRow s row then (armOfRow s.img row + 1) % s.img.arms else s.mpd.turn) ∧
      rowBuildOf s row = none ∧ pinnedBlocks s row = [] ∧
      t.rows.map (·.row) = s.rows.map (·.row) ++ [row] ∧ (∀ fe ∈ heldBlocks t row, (currentVersion s fe.2.lba.toNat).map (·.1) ≠ some fe.1) ∧
      row ∉ t.mpd.dueRows ∧ (∀ fe ∈ heldBlocks s row, (getEntry t fe.1).lba = fe.2.lba) ∧
      ∀ r, rowBuildOf t row = some r → r.arm = row % s.img.arms ∧ r.q = row / s.img.arms ∧ r.kind = 0 ∧ (∀ x ∈ s.rows, x.staging ≠ r.staging))) ∧
  (∀ lba, Completes (.dirtyAgeExpiry lba) s fun t =>
    let row := rowOf s.img lba.toNat
    (currentVersion s lba.toNat = none → t = s) ∧
    ∀ fe, currentVersion s lba.toNat = some fe → (fe.2.state ≠ 1 → t = s) ∧ (fe.2.state = 1 → row ∈ t.mpd.dueRows ∨ row ∈ t.rows.map (·.row))) ∧
  (∀ row, Completes (.pinWaitExpiry row) s fun t =>
    let due : Prop := buildsRows s = true ∧ rowBuildOf s row = none ∧ buildNow s row = true ∧ pinnedBlocks s row ≠ [] ∧ row ∉ s.mpd.pinRows
    (¬ due → t = s) ∧ (due → t.mpd.pinRows = s.mpd.pinRows ++ [row] ∧ t.rows = s.rows ∧ ∀ w ∈ s.slu.work, w ∈ t.slu.work)) ∧
  (∀ row, Completes (.rowCommit row) s fun t =>
    (rowBuildOf s row = none → t = s) ∧
    ∀ r, rowBuildOf s row = some r →
      let bytes := (s.mpd.commits.map commitBytes).sum + 16 + 16 * r.defects.length + 32 * r.runs.length
      let may : Prop := rowPassed s r = true ∧ r.sectors ≠ [] ∧ bytes ≤ 8388608 ∧ runWaits s r = false
      (¬ may → t = s) ∧
      (may → runGap s r = true → t.mpd.commits = s.mpd.commits ∧ t.layout.runs = s.layout.runs ∧ t.layout.defects = s.layout.defects) ∧
      (may → runGap s r = false →
        (t.mpd.commits.map fun c => (c.row, c.time, c.defects)) = (s.mpd.commits.map fun c => (c.row, c.time, c.defects)) ++ [(row, devTime s, r.defects)] ∧
        (r.kind = 0 → (∀ fe ∈ t.mpd.ledger, fe.2.valid = true → fe.2.row.toNat = row → fe.2.state ≠ 2 ∧ fe.2.state ≠ 3) ∧ (∀ l ∈ r.standIns, lbaOf s.img row l ∉ t.layout.unrecoverable)) ∧
        (s.dev = .ready → s.flt.stopStep = 0 → s.hop.closed = false → row ∉ t.rows.map (·.row)))) ∧
  Completes .commitRecordFlush s (fun t => t.mpd.commits = (if s.hold.flashStopped then s.mpd.commits else [])) ∧
  ∀ arm head : Fin 8, Completes (.headFailDeclare arm head) s fun t =>
    let n := 8 * arm.val + head.val
    (headFitted s.img n = false → t = s) ∧ (headFitted s.img n = true → HeadDeclared n s t)

/-- R28, R414 to R420: at its decision point an idle arm on track is granted the one piece of work that is eligible for it and fits the budget; work that does not fit waits as
the arm's choice, and the wait is counted; a floor that the budget does not carry is counted once. An operation that is done ends, and its head time counts in its share.
R403 to R405: a valid period of the budget input joins the last eight, and the least value decoded over 100 ms is in force, with the lower of it and the host's budget granted;
silence holds it, and the loss value follows when the hold ends. -/
def Obligations.TheSluiceGrantsWithinTheBudget : Prop :=
  (∀ s : State, awake s = true → ∀ arm : Fin 8,
    let a := arm.val
    Completes (.operationGrant arm) s (fun t =>
      let free : Prop := (getArm s a).state = 5 ∧ opOf s a = none ∧ alkUp s a = true ∧ servedFirst s a = false
      let plain : Prop := s.fan.due = [] ∧ s.layout.failedHeads = [] ∧ s.dev = .loading ∧ s.bol.sectors = [] ∧ s.mpd.gone = [] ∧ s.mpd.clean = []
      let under := (budgetMw s).any fun b => decide (b < floorPower s)
      (t.slu.short = under ∧ t.slu.floorShort = (if under = true ∧ s.slu.short = false then satInc 16 s.slu.floorShort else s.slu.floorShort)) ∧
      (¬ free → t.slu = { s.slu with short := under, floorShort := t.slu.floorShort, floorEventAt := t.slu.floorEventAt } ∧ t.heads = s.heads ∧ t.islands = s.islands) ∧
      ∀ w, s.slu.work = [w] → free → plain → w.arm = a → w.visit = none → w.kind = .rowWrite → (∀ n < 64, (getHead s n).failed = false) →
        let fits := fitsPower s a (opOfWork w)
        (eligible s w = true → fits = true →
          (opOf t a).map (fun o => (o.kind, o.lArm, o.row, o.want, o.heads, o.at_)) = some (w.kind, w.lArm, w.row, w.want, w.heads, now s) ∧
          w ∉ t.slu.work ∧ tabGet 0 t.slu.lastGrant a = now s ∧ a ∉ t.slu.line ∧ tabGet none t.slu.chosen a = none) ∧
        (eligible s w = false ∨ fits = false → opOf t a = none ∧ tabGet 0 t.slu.lastGrant a = tabGet 0 s.slu.lastGrant a) ∧
        (eligible s w = true → fits = false → tabGet none t.slu.chosen a = some w ∧
          (tabGet none s.slu.chosen a = none → a ∈ t.slu.line ∧ t.slu.powerWait = satInc 16 s.slu.powerWait) ∧
          (tabGet none s.slu.chosen a = some w → t.slu.powerWait = s.slu.powerWait))) ∧
    Completes (.islandGateOff arm) s fun t =>
      (opOf s a = none → t = s) ∧
      ∀ o, opOf s a = some o → (opDone s a o = false → t = s) ∧
        (opDone s a o = true → opOf t a = none ∧ (t.slu.shares.getLast?.map fun e => (e.1, e.2.2.1, e.2.2.2)) = some (a, now s, since s o.at_) ∧
          ∀ h ∈ o.heads, h < 8 → (getHead s (8 * a + h)).failed = false → (getHead t (8 * a + h)).writing = false)) ∧
  (∀ s : State, awake s = true →
    (∀ period high, Completes (.budgetPwmPeriod period high) s fun t =>
      let valid : Prop := decodesPwm s = true ∧ 200000 ≤ period ∧ period ≤ 5000000 ∧ high ≤ period
      let ds := (if s.slu.pwmState = 3 then [] else s.slu.duties) ++ [(high, period)]
      t.pwr.bpwm = true ∧
      (¬ valid → t = { s with pwr := t.pwr }) ∧
      (valid → (∀ d, s.slu.decoded.getLast? = some d → (now s, d.2) ∈ t.slu.decoded) ∧ t.slu.pwmState = 1 ∧ t.slu.duties = ds.drop (ds.length - 8) ∧ t.slu.pwm = pwmInForce t ∧ t.slu.granted = minBudget s.slu.host (pwmInForce t) ∧
        t.slu.decoded.getLast? = some (now s, pwmValue s (medianDuty t.slu.duties)) ∧ ∀ d ∈ t.slu.decoded, now s < d.1 + 100000000)) ∧
    Completes .budgetPwmSilence s (fun t =>
      t.slu.pwmState = (if decodesPwm s = true ∧ s.slu.pwmState = 1 then 2 else s.slu.pwmState) ∧ t.slu.granted = s.slu.granted) ∧
    Completes .bpwmHoldExpiry s (fun t =>
      let due : Prop := decodesPwm s = true ∧ s.slu.pwmState = 2
      (¬ due → t = s) ∧
      (due → t.slu.pwmState = 3 ∧ t.slu.duties = [] ∧ t.slu.decoded.getLast? = some (now s, lossValue s) ∧ t.slu.granted = minBudget s.slu.host (pwmInForce t))) ∧
    Completes .pwmRiseSettle s fun t =>
      let due : Prop := decodesPwm s = true ∧ (s.slu.decoded.getLast?.map (·.2)) ≠ some (pwmInForce s)
      (¬ due → t = s) ∧
      (due → t.slu.decoded = s.slu.decoded.filter (fun d => d.2 ≠ pwmInForce s) ∧ t.slu.granted = minBudget s.slu.host (pwmInForce t)))

/-- R285 to R287, R306 to R309, Table 9.5: an uncorrectable error is counted on the channel of the frame that it hits and its burst kept for scrub to
confirm; a clean frame is dropped, a dirty one that the partner holds is fetched back, and both copies of a page gone lead to Fault-hold; scrub reads the
bursts in turn as transfer-engine channel 63 and counts the errors of their beats, and an uncorrectable one found again at its burst, or too many
corrected ones, migrate the channel to the spare, which takes over when the copy is complete; with no spare left the pond admits nothing more. Refresh and
calibration go on in turn.
The kinds of what an error hits are numbered by the model (log entry 33). -/
def Obligations.MillpondErrorsAndMigration : Prop := ∀ s : State, awake s = true →
  (∀ requester k, Completes (.millpondUe requester (.slot k)) s fun t =>
    (∀ p < 9, getChan t p = getChan s p) ∧ (s.hop.cmds = [] → ∀ n, getSlot t n = getSlot s n)) ∧
  (∀ requester f burst,
    let p := frameChan s f
    let e := getEntry s f
    let counted (t : State) : Prop := (getChan t p).ue = satInc 16 (getChan s p).ue ∧ 64 * (f / 8) + burst.val ∈ (getChan t p).ueBursts ∧
      ∀ o < 9, o ≠ p → getChan t o = getChan s o
    Completes (.millpondUe requester (.frame f burst)) s (fun t => counted t ∧
      ((tabGet {} s.mpd.clean f).valid = true → 118784 ≤ f → (getEntry s f).valid = false → s.ptn.synced = false → s.hop.cmds = [] →
        (tabGet {} t.mpd.clean f).valid = false ∧ getFrame t f = 0) ∧
      (118784 ≤ f → (tabGet {} s.mpd.clean f).valid = false → e.valid = true → e.mirrored = true → landedEntry e = true → linkUp s 2 = true → s.ptn.synced = true →
        (f, e.vseq.toNat) ∈ t.ptn.fetches ∧ getFrame t f = getFrame s f)) ∧
    Completes (.millpondUe requester (.bothCopies f burst)) s fun t => counted t ∧ (holdsFrom s.dev = true → t.dev = .faultHold)) ∧
  (∀ (logical : Fin 8) (cause : Fin 4), Completes (.migrationStart logical cause) s fun t =>
    let p := physOf s logical
    let due : Prop := p ≠ none ∧ (s.mpd.state = 2 ∨ (s.mpd.state = 3 ∧ s.mpd.migLogical ≠ logical))
    (¬ due → t = s) ∧
    ∀ x, p = some x → due →
      (s.mpd.spare ≠ 15 → s.mpd.spare ≠ x → t.mpd.state = 3 ∧ t.mpd.migLogical = logical.val ∧ t.mpd.spare = 15 ∧ t.mpd.migCursor = 0 ∧ t.mpd.migLost = decide (cause.val = 3) ∧
        (getChan t x).role = 3 ∧
        (getChan t s.mpd.spare).role = 4 ∧ (getChan t s.mpd.spare).logical = logical.val ∧ (cause.val = 3 → holdsFrom s.dev = true → t.dev = .faultHold)) ∧
      (s.mpd.spare = 15 → t.mpd.state = 4 ∧ t.hop.closed = true ∧ t.hop.stopCause = 0xAC ∧ (getChan t x).role = 5)) ∧
  Completes .migrationComplete s (fun t =>
    let due : Prop := s.mpd.state = 3 ∧ (s.mpd.migLost = true ∨ s.mpd.migCursor = 131072)
    (¬ due → t = s) ∧
    (due → t.mpd.state = 2 ∧ t.mpd.migLogical = 15 ∧ t.mpd.migCursor = 0 ∧
      ∀ p < 9, (getChan t p).role = if (getChan s p).role = 3 then 5 else if (getChan s p).role = 4 then 1 else (getChan s p).role)) ∧
  (∀ (channel : Fin 9) syndromes, Completes (.scrubRead channel syndromes) s fun t =>
    let m := getChan s channel
    let serves : Prop := (m.role = 1 ∨ m.role = 3) ∧ pondRuns s = true
    let fixed := (syndromes.toList.filter fun y => y ≠ 0 && correctable y).length
    let bad := (syndromes.toList.filter fun y => y ≠ 0 && !correctable y).length
    let errors := (recent s (86400 * oneSec) m.ceTimes).length + fixed
    let failing : Prop := (0 < bad ∧ m.scrub ∈ m.ueBursts) ∨ ceLimit s.img < errors
    (¬ serves → t = s) ∧
    (serves → (getChan t channel).scrub = (m.scrub + 1) % 2 ^ 23 ∧ (getChan t channel).ce = (if fixed = 0 then m.ce else satAdd 32 m.ce fixed) ∧ (getChan t channel).ue = (if bad = 0 then m.ue else satAdd 16 m.ue bad) ∧
      (bad = 0 → m.scrub ∉ (getChan t channel).ueBursts) ∧ (0 < bad → ¬ failing → m.scrub ∈ (getChan t channel).ueBursts) ∧
      (¬ failing → t.mpd.state = s.mpd.state ∧ t.mpd.spare = s.mpd.spare) ∧
      (failing → s.mpd.state = 2 → s.mpd.spare < 9 → physOf s m.logical = some channel.val → s.mpd.spare ≠ channel.val →
        t.mpd.state = 3 ∧ t.mpd.migLogical = m.logical ∧ (getChan t s.mpd.spare).role = 4) ∧
      (failing → s.mpd.state = 2 → s.mpd.spare = 15 → physOf s m.logical = some channel.val → t.mpd.state = 4 ∧ t.hop.closed = true))) ∧
  (∀ pass, Completes (.sparePatternTest pass) s fun t =>
    (s.mpd.spare = 15 → t = s) ∧
    (s.mpd.spare ≠ 15 → t.mpd.spareTestAt = now s ∧ (pass = true → t.mpd.spare = s.mpd.spare) ∧ (pass = false → t.mpd.spare = 15 ∧ (getChan t s.mpd.spare).role = 5))) ∧
  Completes .spareChannelTrainingLoss s (fun t =>
    (s.mpd.spare = 15 → t = s) ∧ (s.mpd.spare ≠ 15 → t.mpd.spare = 15 ∧ (getChan t s.mpd.spare).role = 5 ∧ (getChan t s.mpd.spare).trained = false)) ∧
  ∀ channel : Fin 9,
    Completes (.dramRefresh channel) s (fun t => (getChan t channel).refreshRow = (if s.mpd.state = 0 then (getChan s channel).refreshRow else ((getChan s channel).refreshRow + 1) % 131072) ∧
      t.mpd.frames = s.mpd.frames) ∧
    Completes (.zqCalShort channel) s fun t => (getChan t channel).calAt = if s.mpd.state = 0 then (getChan s channel).calAt else now s

/-- R314, R316 to R332, R656: a ring holds up to 256 descriptors; an idle channel with an owner starts the first unless a check, an injected halt or a cancel stops it; a done
descriptor leaves the ring with its pulse, and a COPY or a FILL within the block frames leaves its elements there; a SCATTER of a stream waits for its blocks; a halt counts
and reports; pause, resume, flush, cancel, retry, restart and skip act at the boundaries. A part that holds up its data, stops or has stopped runs
channel 62 alone. How far a running descriptor has gone when a cancel stops it is open (log entry 47). -/
def Obligations.TransferChannelsRunDescriptors : Prop := ∀ s : State, awake s = true → ∀ ch : Fin 64,
  let c := getTre s ch
  let idle : Prop := c.state = 0 ∧ treRuns s ch = true
  let halted : Prop := c.state = 3 ∧ c.ring ≠ []
  let after : Nat := if c.pausing = true ∧ c.flushing = false then 2 else 0
  let starts (d : Descriptor × Bool) (t : State) : Prop :=
    (hasOwner s ch = false → d.1.event = 0 → t = s) ∧
    (hasOwner s ch = true ∨ d.1.event ≠ 0 →
      (d.2 = true → (getTre t ch).ring = (if c.flushing then [] else c.ring.tail) ∧ (getTre t ch).running = false ∧ (getTre t ch).state = after) ∧
      (d.2 = false → ch.val ∈ s.diag.treHaltPending → (getTre t ch).state = 3 ∧ (getTre t ch).cause = 10 ∧ (getTre t ch).injected = true ∧ ch.val ∉ t.diag.treHaltPending) ∧
      (d.2 = false → ch.val ∉ s.diag.treHaltPending → ∀ cause, checkDesc s ch d.1 = some cause → (getTre t ch).state = 3 ∧ (getTre t ch).cause = cause ∧ (getTre t ch).injected = false ∧
        (getTre t ch).halts = satInc 6 c.halts ∧ (getTre t ch).ring = c.ring) ∧
      (d.2 = false → ch.val ∉ s.diag.treHaltPending → checkDesc s ch d.1 = none → (getTre t ch).state = 1 ∧ (getTre t ch).running = true ∧ (getTre t ch).elemIdx = 0 ∧
        (getTre t ch).ring = c.ring))
  (∀ d, Completes (.descriptorPost ch d) s fun t => (getTre t ch).ring = if c.ring.length < 256 then c.ring ++ [(d, false)] else c.ring) ∧
  Completes (.descriptorStart ch) s (fun t =>
    (¬ idle → t = s) ∧ (idle → c.ring = [] → (getTre t ch).state = 0 ∧ (getTre t ch).running = false) ∧ ∀ d rest, c.ring = d :: rest → idle → starts d t) ∧
  Completes (.descriptorDone ch) s (fun t =>
    let runs : Prop := c.state = 1 ∧ c.running = true ∧ c.ring ≠ [] ∧ treRuns s ch = true
    (¬ runs → t = s) ∧
    ∀ d rest, c.ring = d :: rest → runs →
      let n := dCount d.1
      let src := d.1.srcBase.toNat
      let dst := d.1.dstBase.toNat
      let waits : Prop := streamShort s d.1 c.elemIdx = true ∨ (d.1.type = 6 ∧ 128 ≤ s.tre.placements.length) ∨
        ∃ k ∈ List.range n, c.elemIdx ≤ k ∧ flashBusy s d.1 k = true
      let line := 64 + 3 * ch.val + d.1.event.toNat - 1
      let ends : Prop := (getTre t ch).ring = (if c.flushing then [] else rest) ∧ (getTre t ch).running = false ∧ (getTre t ch).state = after ∧
        (getTre t ch).descIdx = (c.descIdx + if c.flushing then c.ring.length else 1) % 256 ∧ (d.1.event ≠ 0 → tabGet 0 t.tre.events line = tabGet 0 s.tre.events line + 1)
      let frames (x : Nat) : Prop := 118784 ≤ x ∧ x + n ≤ 2 ^ 20
      (waits → t = s) ∧
      (¬ waits → ends ∨ ((getTre t ch).state = 3 ∧ (getTre t ch).cause ∈ [5, 9] ∧ (getTre t ch).ring = c.ring ∧ (getTre t ch).halts = satInc 6 c.halts)) ∧
      (¬ waits → d.1.type = 8 → ends) ∧
      (¬ waits → d.1.type = 1 → frames src → frames dst → src + n ≤ dst ∨ dst + n ≤ src →
        ends ∧ ∀ k < n, getFrame t (dst + k) = getFrame (if c.elemIdx ≤ k then s else t) (if c.elemIdx ≤ k then src + k else dst + k)) ∧
      (¬ waits → d.1.type = 7 → frames dst → ends ∧ ∀ k < n, c.elemIdx ≤ k → ∀ w < 1024,
        (getFrame t (dst + k) >>> (32 * w)).setWidth 32 = d.1.arg.setWidth 32)) ∧
  (∀ cause address element, Completes (.channelHalt ch cause address element) s fun t =>
    let runs : Prop := c.state = 1 ∧ c.running = true ∧ c.ring ≠ []
    let fetch : Prop := idle ∧ cause = .fetchUe ∧ c.ring ≠ []
    (¬ runs → ¬ fetch → t = s) ∧
    (fetch → (getTre t ch).state = 3 ∧ (getTre t ch).cause = 6 ∧ (getTre t ch).halts = satInc 6 c.halts ∧ (getTre t ch).elemIdx = 0) ∧
    (runs → (getTre t ch).state = 3 ∧ (getTre t ch).halts = satInc 6 c.halts ∧ ((getTre t ch).cause = haltCode cause ∨ (getTre t ch).cause ∈ [5, 9]) ∧ (getTre t ch).ring = c.ring)) ∧
  Completes (.trePause ch) s (fun t =>
    (getTre t ch).state = (if c.state = 0 then 2 else c.state) ∧ (getTre t ch).pausing = (if c.state = 1 ∨ c.state = 3 then true else c.pausing) ∧
      (getTre t ch).ring = c.ring ∧ (getTre t ch).elemIdx = c.elemIdx) ∧
  Completes (.treResume ch) s (fun t => (getTre t ch).pausing = false ∧ (getTre t ch).state = (if c.state = 2 then 0 else c.state) ∧ (getTre t ch).ring = c.ring) ∧
  Completes (.treFlush ch) s (fun t =>
    (c.state = 1 → (getTre t ch).flushing = true ∧ (getTre t ch).ring = c.ring ∧ (getTre t ch).state = 1) ∧
    (c.state ≠ 1 → (getTre t ch).ring = [] ∧ (getTre t ch).state = 0 ∧ (getTre t ch).running = false ∧ (getTre t ch).pausing = false)) ∧
  (∀ ctx sourcePresent, Completes (.treCancel ch ctx sourcePresent) s fun t =>
    let mine (d : Descriptor) : Prop := d.ctxV = true ∧ d.ctx = ctx
    (c.ring = [] → (getTre t ch).ring = []) ∧
    ∀ d rest, c.ring = d :: rest →
      let runs : Prop := mine d.1 ∧ c.running = true ∧ (c.state = 1 ∨ c.state = 3)
      (¬ runs → (getTre t ch).ring.map (·.1) = c.ring.map (·.1) ∧ (getTre t ch).state = c.state ∧ (∀ x ∈ (getTre t ch).ring.tail, mine x.1 → x.2 = true) ∧
        (c.running = false → ∀ x ∈ (getTre t ch).ring, mine x.1 → x.2 = true)) ∧
      (runs → (getTre t ch).ring.map (·.1) = (if c.flushing then [] else rest.map (·.1)) ∧ (getTre t ch).state = after ∧ (getTre t ch).running = false ∧
        (∀ x ∈ (getTre t ch).ring, mine x.1 → x.2 = true))) ∧
  Completes (.treRetry ch) s (fun t =>
    (¬ halted ∨ treRuns s ch = false → t = s) ∧ ∀ d rest, c.ring = d :: rest → halted → treRuns s ch = true →
      let early : Prop := earlyHalt c.cause = true ∨ (c.cause = 10 ∧ c.elemIdx = 0)
      (d.1.type = 5 → t = s) ∧
      (d.1.type ≠ 5 → early → starts d t) ∧
      (d.1.type ≠ 5 → ¬ early → (getTre t ch).state = 1 ∧ (getTre t ch).running = true ∧ (getTre t ch).elemIdx = c.elemIdx ∧ (getTre t ch).ring = c.ring)) ∧
  Completes (.treRestart ch) s (fun t =>
    (¬ halted ∨ treRuns s ch = false → t = s) ∧ ∀ d rest, c.ring = d :: rest → halted → treRuns s ch = true → starts d t) ∧
  Completes (.treSkip ch) s fun t =>
    (¬ halted → t = s) ∧ ∀ d rest, c.ring = d :: rest → halted →
      (getTre t ch).ring = (if c.flushing then [] else rest) ∧ (getTre t ch).state = after ∧ (getTre t ch).running = false

/-- R531 to R536: an event that finds a token is staged with the next index, or dropped and counted; the flush timer programs what is staged with pads; a block whose records
are all released is erased and adds to the free blocks, but where the tally has stopped it is the only one, and exempt codes alone are written then. -/
def Obligations.TallyKeepsEvents : Prop := ∀ s : State, awake s = true →
  (∀ code injected source payload, Completes (.tallyEventPost code injected source payload) s fun t =>
    let r := { plainRecord s code source [] with injected, payload := payload.take 40 ++ List.replicate (40 - payload.length) 0 }
    let full : Prop := s.evt.full = 2 ∨ (s.evt.running = true ∧ s.evt.full = 1 ∧ exemptCode code = false) ∨ (s.evt.running = false ∧ 512 ≤ s.evt.staging.length)
    (full → t.evt.droppedFull = satInc 16 s.evt.droppedFull ∧ t.evt.next = s.evt.next ∧ t.evt.staging = s.evt.staging ∧ t.evt.written = s.evt.written) ∧
    (¬ full → s.evt.running = false → t.evt.staging = s.evt.staging ++ [r] ∧ t.evt.next = s.evt.next) ∧
    (¬ full → s.evt.running = true → exemptCode code = true → s.evt.next + 1 < 2 ^ 64 → s.evt.full = 0 → s.evt.staging.length < 15 → s.dev ≠ .holdUp →
      t.evt.next = s.evt.next + 1 ∧ t.evt.staging = s.evt.staging ++ [{ r with index := s.evt.next }]) ∧
    (¬ full → s.evt.running = true → exemptCode code = false → (bucketNow s code injected).used + oneSec > eventBurst s.img code.toNat * oneSec →
      t.evt.staging = s.evt.staging ∧ t.evt.next = s.evt.next ∧ (bucketNow t code injected).suppressed = satInc 16 (bucketNow s code injected).suppressed)) ∧
  Completes .tallyFlushTimer s (fun t =>
    let due : Prop := s.evt.running = true ∧ s.evt.staging ≠ [] ∧ s.hold.flashStopped = false
    (¬ due → t = s) ∧
    (due → t.evt.written = s.evt.written ++ s.evt.staging.take 16 ++ List.replicate (16 - s.evt.staging.length) padRecord ∧
      (s.evt.blockFill + 16 < blockRecords → t.evt.blockFill = s.evt.blockFill + 16 ∧ t.evt.staging = s.evt.staging.drop 16 ∧ t.evt.freeBlocks = s.evt.freeBlocks) ∧
      (blockRecords ≤ s.evt.blockFill + 16 → t.evt.blockFill = 0 ∧ t.evt.freeBlocks = s.evt.freeBlocks - 1))) ∧
  Completes .tallyBlockErase s fun t =>
    let may : Prop := s.evt.running = true ∧ s.evt.written ≠ [] ∧ blockRecords + s.evt.blockFill ≤ s.evt.written.length ∧ (∀ r ∈ s.evt.written.take blockRecords, r.pad = true ∨ r.index < s.evt.released) ∧ s.hold.flashStopped = false
    (¬ may → t = s) ∧ (may → t.evt.written = s.evt.written.drop blockRecords ∧
      (s.evt.full ≠ 2 → t.evt.freeBlocks = s.evt.freeBlocks + 1 ∧ t.evt.full = 0) ∧ (s.evt.full = 2 → t.evt.freeBlocks = s.evt.freeBlocks ∧ t.evt.full = 1))

/-- R537 to R541: a packet is appended whole where the queue has room and nobody waits, else it waits; a pop takes one word, and an uncorrectable word its whole packet; a pop of an
empty queue stalls, and takes the first word that comes, or the watchdog answers it; a wait that is too long drops the oldest waiting packet and holds; the packets that wait behind it, or for a pop, enter as
far as there is room. -/
def Obligations.MessageQueuesKeepPackets : Prop := ∀ s : State, awake s = true → ∀ q : Fin 32,
  let m := getMq s q
  (∀ words, Completes (.mqPacketWrite q words) s fun t =>
    let fits : Prop := words.length ≤ mqRoom s q ∧ m.waiting = []
    (words = [] → t = s) ∧
    (words ≠ [] → words.length ≤ 64 → fits →
      let after := m.words ++ words.zip (List.replicate (words.length - 1) false ++ [true])
      let bell : List Tx := if m.packets + 1 = mqThresh s.img q then [.doorbell q] else []
      (getMq t q).stalled = false ∧
      (m.stalled = false → (getMq t q).packets = m.packets + 1 ∧ (getMq t q).words = after ∧ t.tx = s.tx ++ bell) ∧
      (m.stalled = true → (getMq t q).words = after.tail ∧ ∀ w rest, after = w :: rest →
        (getMq t q).packets = (if w.2 then m.packets else m.packets + 1) ∧ t.tx = s.tx ++ bell ++ [.popped q 0 w.1])) ∧
    (words ≠ [] → words.length ≤ 64 → ¬ fits → (getMq t q).words = m.words ∧ (getMq t q).waiting = m.waiting ++ [words]) ∧
    (64 < words.length → q.val ≠ 20 → (getMq t q).words = m.words ∧ t.flt.real.other = satInc 12 s.flt.real.other)) ∧
  (∀ producer, Completes (.mqProducerTimeout q producer) s fun t =>
    (m.waiting = [] → t = s) ∧
    ∀ ws rest, m.waiting = ws :: rest → (q.val ≠ 20 →
        (∀ w, rest.head? = some w → mqRoom s q < w.length → (getMq t q).waiting = rest ∧ (getMq t q).words = m.words) ∧
        (rest = [] → (getMq t q).waiting = [] ∧ (getMq t q).words = m.words) ∧
        (∀ w, rest = [w] → w ≠ [] → w.length ≤ mqRoom s q → m.stalled = false →
          (getMq t q).waiting = [] ∧ (getMq t q).words = m.words ++ w.zip (List.replicate (w.length - 1) false ++ [true]))) ∧ (getMq t q).overflow = satInc 8 m.overflow ∧ (holdsFrom s.dev = true → t.dev = .faultHold ∧ t.flt.holdCause = 0xA4)) ∧
  (∀ ue, Completes (.mqPop q ue) s fun t =>
    (m.words = [] → getMq t q = { m with stalled := true } ∧ t.tx = s.tx) ∧
    (ue = false → m.stalled = false → ∀ w rest x, m.words = w :: rest → m.waiting = [x] → x ≠ [] → rest.length + x.length ≤ mqDepth s.img q →
      (getMq t q).words = rest ++ x.zip (List.replicate (x.length - 1) false ++ [true]) ∧ (getMq t q).waiting = []) ∧
    ∀ w rest, m.words = w :: rest → m.waiting = [] →
      (ue = false → (getMq t q).words = rest ∧ (getMq t q).packets = (if w.2 then m.packets - 1 else m.packets) ∧ t.tx = s.tx ++ [.popped q 0 w.1]) ∧
      (ue = true → q.val ≠ 20 → (getMq t q).words = (m.words.dropWhile fun x => !x.2).drop 1 ∧ (getMq t q).packets = m.packets - 1 ∧ t.flt.real.uncorrected = satInc 16 s.flt.real.uncorrected)) ∧
  Completes (.mqPopWatchdog q) s fun t => 
    (m.stalled = false → t = s) ∧ (m.stalled = true → (getMq t q).wdog = satInc 8 m.wdog ∧ (getMq t q).stalled = false ∧ t.tx = s.tx ++ [.popped q 2 0])

/-- R513 to R523, R527, R530, R664: reports are counted, the first error that the rules capture is kept, and one that holds leads to Fault-hold, whose quiet timer, release conditions
and return limit lead back or to a stop; a stop is taken by the state it comes from; a core that traps twice in a second fails; the patrol corrects, counts and answers words; one bad
copy of a hopper context is written again from the other, and two stop the part (log entry 53).
The unit that a patrolled word belongs to is a free value where the manual lays no memory out (log entry 34). -/
def Obligations.ReportsHoldReleaseAndStop : Prop := ∀ s : State, awake s = true →
  (∀ rs, Completes (.faultReport rs) s fun t =>
    (rs.any (fun r => r.hold) = false → t.dev = s.dev) ∧
    (rs.any (fun r => r.hold) = true → holdsFrom s.dev = true → t.dev = .faultHold ∧ t.flt.from_ = s.dev ∧ t.flt.quietSince = some (now s) ∧ t.flt.awaiting = false) ∧
    (rs.filter captured = [] → t.flt.first = s.flt.first) ∧
    (∀ r, chosen (rs.filter captured) = some r →
      (s.flt.first.valid = false → t.flt.first = firstOf s r false (satAdd 16 0 ((rs.filter captured).length - 1))) ∧
      (s.flt.first.valid = true → s.flt.first.injected = true → r.injected = false → t.flt.first = firstOf s r true (satAdd 16 s.flt.first.more ((rs.filter captured).length - 1))) ∧
      (s.flt.first.valid = true → ¬ (s.flt.first.injected = true ∧ r.injected = false) → t.flt.first = { s.flt.first with more := satAdd 16 s.flt.first.more (rs.filter captured).length })) ∧
    ∀ r rest, rs = r :: rest → rest = [] → (r.injected = true → t.flt.real = s.flt.real) ∧ (r.injected = false → t.flt.inj = s.flt.inj) ∧
      (r.injected = false → r.cause = 1 → t.flt.real.corrected = satInc 24 s.flt.real.corrected) ∧ (r.injected = false → r.cause = 3 → t.flt.real.bus = satInc 12 s.flt.real.bus) ∧
      (r.injected = false → r.cause = 2 ∨ r.cause = 4 ∨ r.cause = 6 → t.flt.real.uncorrected = satInc 16 s.flt.real.uncorrected)) ∧
  Completes .firstErrorCopy s (fun t =>
    let may : Prop := s.flt.first.valid = true ∧ s.evt.running = true ∧ s.evt.full ≠ 2
    (¬ may → t = s) ∧ (may → t.flt.first.valid = false ∧ t.flt.first.more = 0)) ∧
  Completes .quietTimerExpiry s (fun t =>
    let runs : Prop := s.dev = .faultHold ∧ s.flt.quietSince ≠ none
    (¬ runs → t = s) ∧ (runs → t.flt.awaiting = true ∧ t.flt.quietSince = none ∧ t.dev = .faultHold)) ∧
  Completes .faultHoldRelease s (fun t =>
    let may : Prop := s.dev = .faultHold ∧ s.flt.awaiting = true ∧ (∀ c ∈ s.flt.open_, c.event = 0x3F) ∧ loopsInService s = true
    let calm : Prop := s.flt.from_ = .loading ∨ s.flt.from_ = .takeover
    (¬ may → t = s) ∧
    (may → s.flt.realSeen = false → t.flt.injRecov = satInc 8 s.flt.injRecov ∧ t.aon.returns = s.aon.returns ∧ (calm → t.dev = s.flt.from_ ∧ t.flt.awaiting = false)) ∧
    (may → s.flt.realSeen = true → recoveryCount s < recoveryLimit s.img → t.aon.returns = dayReturns s ++ [devTime s] ∧ t.flt.open_ = [] ∧ (calm → t.dev = s.flt.from_)) ∧
    (may → s.flt.realSeen = true → recoveryLimit s.img ≤ recoveryCount s → s.flt.stopStep = 0 → StopBegun 0xA3 s t)) ∧
  (∀ cause, Completes (.failStop cause) s fun t =>
    (s.dev = .holdUp ∨ s.dev = .stopped → t = s) ∧ (s.flt.stopStep ≠ 0 → t.dev = s.dev ∧ t.hop = s.hop) ∧
    (s.flt.stopStep = 0 → s.dev = .unconfigured ∨ s.dev = .configuring ∨ s.dev = .parked ∨ s.dev = .spinningUp ∨ s.dev = .standby →
      t.dev = .stopped ∧ t.hop.closed = true ∧ t.hop.stopCause = cause ∧ t.ptn.activeOut = false ∧ t.ptn.hbOn = false) ∧
    (s.flt.stopStep = 0 → inService s.dev = true → StopBegun cause s t)) ∧
  (∀ (core : Fin 4) mem inHandler injected, Completes (.coreTrap core mem inHandler injected) s fun t =>
    let again : Prop := s.flt.coreTraps.any (fun x => x.1 = core.val && decide (now s < x.2 + oneSec)) = true
    let failed : Prop := s.flt.coreFailed.getLsbD core = true
    (failed → t = s) ∧
    (¬ failed → (core.val, now s) ∈ t.flt.coreTraps ∧
      (if injected then t.flt.real = s.flt.real else t.flt.real.uncorrected = satInc 16 s.flt.real.uncorrected)) ∧
    (¬ failed → ¬ again → inHandler = false → t.flt.coreFailed = s.flt.coreFailed ∧ (holdsFrom s.dev = true → t.dev = .faultHold ∧ t.flt.holdCause = 0xA5)) ∧
    (¬ failed → again ∨ inHandler = true → t.flt.coreFailed.getLsbD core = true ∧
      ((injected = false ∨ s.diag.allowStop = true) → inService s.dev = true → s.flt.stopStep = 0 → StopBegun 0xA6 s t) ∧
      (injected = true → s.diag.allowStop = false → holdsFrom s.dev = true → t.dev = .faultHold))) ∧
  ∀ mem offset data check live_ otherBad, Completes (.sramPatrol mem offset data check live_ otherBad) s fun t =>
    let tagged : Prop := eccTag s mem.toNat offset.toNat = some (syndromeOf data check)
    (eccRead data check = .clean → t = s) ∧
    (syndromeOf data check ≠ 0 → eccRead data check ≠ .uncorrectable →
      eccTag t mem.toNat offset.toNat = none ∧ (tagged → t.flt.inj.corrected = satInc 24 s.flt.inj.corrected ∧ t.flt.real = s.flt.real) ∧
      (¬ tagged → t.flt.real.corrected = satInc 24 s.flt.real.corrected ∧ t.flt.inj = s.flt.inj)) ∧
    (eccRead data check = .uncorrectable → live_ = false → t.dev = s.dev ∧ eccTag t mem.toNat offset.toNat = none ∧
      (tagged → t.flt.inj.uncorrected = satInc 16 s.flt.inj.uncorrected) ∧ (¬ tagged → t.flt.real.uncorrected = satInc 16 s.flt.real.uncorrected)) ∧
    (eccRead data check = .uncorrectable → live_ = true → mem = 0x59 →
      (otherBad = false → t.dev = s.dev ∧ eccTag t mem.toNat offset.toNat = none) ∧ 
      (otherBad = true → (¬ tagged ∨ s.diag.allowStop = true) → inService s.dev = true → s.flt.stopStep = 0 → StopBegun 0 s t))

/-- R483 to R496: a page is read through the retry steps, at once or when its bank is free; a program goes to erased sectors in order and is written when it ends; an erase empties its block and counts; a region's owner
alone may write it, a busy bank and a bad place answer so, and a block that fails is retired. -/
def Obligations.FlashReadsProgramsAndErases : Prop := ∀ s : State, awake s = true →
  let answered (t : State) (who : FlashReq) (st : Nat) : Prop := .flashStatus who st ∈ t.tx.drop s.tx.length
  (∀ who p (sector : Fin 16) steps, Completes (.flashPageRead who p sector steps) s fun t =>
    (pageOk s p = none → answered t who 5) ∧
    ∀ r, pageOk s p = some r →
      let b := (pagePlace r p.page).1
      let sec := 16 * windowPage s p + sector.val
      let may : Prop := r.access ≠ 0 ∨ who = .update ∨ who = .controller
      (¬ may → answered t who 5) ∧
      (may → 2 ≤ (getBank s b).op → (isCore who = true → answered t who 4 ∧ t.fls.busyFault = satInc 16 s.fls.busyFault) ∧ 
        (isCore who = false → t = { s with fls := { s.fls with waits := s.fls.waits ++ [{ who := some who, sec, steps }] } })) ∧
      (may → (getBank s b).op < 2 → ∀ n, (steps.take 9).findIdx? (·.1) = some n →
        answered t who (if flashErased s sec then 1 else 0) ∧ .flashData who (flashData s sec) ∈ t.tx.drop s.tx.length ∧ (getBank t b).register = some (windowPage s p) ∧
          (1 ≤ n → tabGet 0 t.fls.retry (n - 1) = satInc 8 (tabGet 0 s.fls.retry (n - 1)))) ∧
      (may → (getBank s b).op < 2 → (steps.take 9).findIdx? (·.1) = none → 9 ≤ steps.length →
        (getBank t b).ueSect = satInc 16 (getBank s b).ueSect ∧ answered t who 6 ∧
        ∀ ch, who = .tre ch → (getTre s ch).state = 1 → (getTre s ch).running = true → (getTre t ch).state = 3 ∧ (getTre t ch).cause = 8)) ∧
  (∀ who p (first : Fin 16) sectors, Completes (.flashProgram who p first sectors) s fun t =>
    (pageOk s p = none → answered t who 5) ∧
    ∀ r, pageOk s p = some r →
      let b := (pagePlace r p.page).1
      let pg := (pagePlace r p.page).2.2
      let blk := physBlock s p.kind b (pagePlace r p.page).2.1
      let secs := ((sectors.take (16 - first.val)).zipIdx).map fun x => (16 * windowPage s p + first.val + x.2, x.1)
      let starts : Prop := ownsRegion who p.kind = true ∧ mayProgram s who = true ∧ (getBank s b).op = 0 ∧ secs ≠ []
      let ordered : Prop := inOrder s r (512 * b + blk) pg (first.val = 0 && sectors.length = 16) = true
      let erased : Prop := ∀ x ∈ secs, flashErased s x.1 = true
      (ownsRegion who p.kind = false → answered t who 5 ∧ t.fls.banks = s.fls.banks) ∧
      (starts → ¬ ordered → answered t who 3 ∧ t.fls.outOfOrder = satInc 16 s.fls.outOfOrder) ∧
      (starts → ordered → ¬ erased → answered t who 2 ∧ t.fls.notErased = satInc 16 s.fls.notErased ∧ t.fls.sectors = s.fls.sectors) ∧
      (starts → ordered → erased → (getBank t b).op = 2 ∧ (getBank t b).block = blk ∧ (getBank t b).page = pg ∧ (getBank t b).pending = secs ∧ (getBank t b).who = some who ∧ t.fls.sectors = s.fls.sectors)) ∧
  (∀ (bank : Fin 8) ok, Completes (.flashProgramDone bank ok) s fun t =>
    let k := getBank s bank
    (k.op ≠ 2 → t = s) ∧
    (k.op = 2 → (getBank t bank).op = 0 ∧ (∀ w, k.who = some w → answered t w (if ok then 0 else 7)) ∧
      (ok = true → (k.pending.map (·.1)).Nodup → ∀ x ∈ k.pending, tabGet none t.fls.sectors x.1 = some x.2) ∧
      (ok = false → s.dev ≠ .ready → t.fls.retiredCnt = satInc 8 s.fls.retiredCnt ∧ (getBlk t (512 * bank.val + physBlock s k.kind bank k.rblock)).retired = true))) ∧
  (∀ who (kind : Fin 16) (bank : Fin 8) block, Completes (.flashErase who kind bank block) s fun t =>
    let r := (regionOf s kind).filter fun r => decide (block < r.blocks / 8)
    (r = none ∨ ownsRegion who kind = false → answered t who 5 ∧ t.fls.banks = s.fls.banks) ∧
    ∀ x, r = some x → ownsRegion who kind = true → s.hold.flashStopped = false → (getBank s bank).op = 0 →
      (getBlk s (512 * bank.val + physBlock s kind bank block)).eraseCount < ratedErases x →
      (getBank t bank).op = 3 ∧ (getBank t bank).rblock = block ∧ (getBank t bank).kind = kind.val ∧ (getBank t bank).who = some who ∧
        (getBlk t (512 * bank.val + physBlock s kind bank block)).flag = ((getBlk s (512 * bank.val + physBlock s kind bank block)).flag || x.eflag)) ∧
  (∀ (bank : Fin 8) ok, Completes (.flashEraseDone bank ok) s fun t =>
    let k := getBank s bank
    let d := getBlk s (512 * bank.val + k.block)
    (k.op ≠ 3 → t = s) ∧
    (k.op = 3 → (getBank t bank).op = 0 ∧ (∀ w, k.who = some w → answered t w (if ok then 0 else 7)) ∧
      (ok = true → (getBlk t (512 * bank.val + k.block)).eraseCount = d.eraseCount + 1 ∧ (getBlk t (512 * bank.val + k.block)).flag = false ∧ (getBlk t (512 * bank.val + k.block)).nextPage = 0 ∧
        (getBlk t (512 * bank.val + k.block)).torn = 0 ∧ ∀ r, regionOf s k.kind = some r → ∀ x ∈ t.fls.sectors, blockSectors s r bank k.rblock x.1 = false))) ∧
  ∀ (bank : Fin 8) block, Completes (.blockRefresh bank block) s fun t =>
    let d := getBlk s (512 * bank.val + block)
    let due : Prop := d.closed = true ∧ d.refreshDue = true ∧ s.hold.flashStopped = false ∧ (getBank s bank).op = 0
    ((mappedBlocks s bank).find? (fun m => m.2.2 = block) = none ∨ ¬ due → t = s) ∧
    ∀ m, (mappedBlocks s bank).find? (fun m => m.2.2 = block) = some m → due →
      (d.refreshedAt.any (fun e => decide (d.eraseCount < e + 100)) = true → s.dev ≠ .ready → (getBlk t (512 * bank.val + block)).retired = true) ∧
      (d.refreshedAt.any (fun e => decide (d.eraseCount < e + 100)) = false → leastWorn s bank ≠ none →
        (getBlk t (512 * bank.val + block)).eraseCount = d.eraseCount + 1 ∧ (getBlk t (512 * bank.val + block)).closed = false ∧ some (physBlock t m.1 bank m.2.1) = leastWorn s bank)

/-- R500 to R507: a look-up answers from a valid entry and counts a hit, waits for a fill on a miss, and is refused where its region may not be read; one fill runs at a time and is installed
in the entry chosen for it, unless its line has been invalidated or the read is uncorrectable; invalidation, locks and prefetches act on the entries of their lines alone. -/
def Obligations.FetchCacheServesLines : Prop := ∀ s : State, awake s = true →
  (∀ (q : Fin 6) addr access ue steps, Completes (.fetchLookup q addr access ue steps) s fun t =>
    let line := addr.toNat / 256
    (mayFetch s q line access.toNat = false → t.tx.getLast? = some (.fetched q.val 5 0) ∧ t.fcc = s.fcc) ∧
    (mayFetch s q line access.toNat = true → ∀ e, entryOf s line = some e → ue = false →
      t.tx = s.tx ++ [.fetched q.val 0 (getFce s e).data] ∧ (getFcq t q).hits = satInc 32 (getFcq s q).hits ∧ (getFce t e).prefetched = false ∧ (getFce t e).data = (getFce s e).data) ∧
    (mayFetch s q line access.toNat = true → entryOf s line = none → (getFcq t q).misses = satInc 16 (getFcq s q).misses ∧ t.fcc.entries = s.fcc.entries ∧
      (lineBusy s line = true → q.val ≠ 4 → .fetched q.val 4 0 ∈ t.tx) ∧
      (lineBusy s line = false → s.fcc.fill = none → ¬ (q.val = 4 ∧ fcMask s.img 4 = 0) → (q.val, line, false, access.toNat) ∈ t.fcc.waiters ∧ t.tx = s.tx))) ∧
  Completes .fetchFill s (fun t =>
    let next := s.fcc.waiters.find? fun w => !(w.1 = 4 && lineBusy s w.2.1)
    (s.fcc.fill ≠ none ∨ next = none → t = s) ∧
    ∀ w, next = some w → s.fcc.fill = none →
      (lineBusy s w.2.1 = false → t.fcc.waiters = s.fcc.waiters.filter (fun x => x.2.1 ≠ w.2.1) ∧
        (t.fcc.fill.map fun f => (f.line, f.requester, f.prefetch, f.killed, f.data)) = some (w.2.1, w.1, false, false, lineData s w.2.1)) ∧
      (lineBusy s w.2.1 = true → t.fcc.fill = none ∧ t.fcc.waiters = s.fcc.waiters.filter (fun x => !(decide (x.2.1 = w.2.1) && decide (x.1 ≠ 4))) ∧ .fetched w.1 4 0 ∈ t.tx)) ∧
  (∀ steps, Completes (.fillComplete steps) s fun t =>
    (s.fcc.fill = none → t = s) ∧
    ∀ f, s.fcc.fill = some f → t.fcc.fill = none ∧
      let good : Prop := ladder steps ≠ none
      (good → t.tx = s.tx ++ f.waiting.map (fun w => .fetched w.1 0 f.data)) ∧
      (¬ good → (pageAt s (f.line / 64)).isSome = true → (∀ w ∈ f.waiting, .fetched w.1 6 0 ∈ t.tx) ∧ t.fcc.entries = s.fcc.entries) ∧
      (f.killed = true → t.fcc.entries = s.fcc.entries) ∧
      ∀ e, f.entry = some e → f.killed = false → good →
        (getFce t e).valid = true ∧ (getFce t e).line = f.line ∧ (getFce t e).data = f.data ∧ (getFce t e).prefetched = f.prefetch) ∧
  (∀ q : Fin 6, Completes (.prefetchIssue q) s fun t =>
    let next := s.fcc.prefetches.find? fun p => p.1 = q.val
    (s.fcc.fill ≠ none ∨ s.fcc.waiters ≠ [] ∨ next = none → t = s) ∧
    ∀ p, next = some p → s.fcc.fill = none → s.fcc.waiters = [] → t.fcc.prefetches = s.fcc.prefetches.erase (q.val, p.2) ∧ t.tx = s.tx ∧
      ∀ f, t.fcc.fill = some f → f.line = p.2 ∧ f.requester = q.val ∧ f.prefetch = true ∧ f.waiting = []) ∧
  (∀ (core : Fin 4) addr, Completes (.invalLine core addr) s fun t =>
    ∀ e < 48, let d := getFce s e
      if d.valid = true ∧ d.line = addr.toNat / 256 then (getFce t e).valid = false ∧ (getFce t e).locked = d.locked ∧ (getFce t e).owner = d.owner else getFce t e = d) ∧
  (∀ (core : Fin 4) base lines, Completes (.invalRange core base lines) s fun t =>
    let legal : Prop := 1 ≤ lines ∧ lines ≤ 65536
    (¬ legal → t = s) ∧
    (legal → ∀ e < 48, let d := getFce s e
      if d.valid = true ∧ base.toNat ≤ d.line ∧ d.line < base.toNat + lines then (getFce t e).valid = false ∧ (getFce t e).locked = d.locked else getFce t e = d)) ∧
  (∀ core : Fin 4, Completes (.invalAll core) s fun t => ∀ e < 48, (getFce s e).line < 2 ^ 28 → (getFce t e).valid = false ∧ (getFce t e).locked = (getFce s e).locked) ∧
  (∀ (core : Fin 4) addr, Completes (.lock core addr) s fun t =>
    let line := addr.toNat / 256
    let full : Prop := maskSize s core < 2 * (lockedFor s core + 1) ∨ 16 ≤ lockedAll s
    (∀ e, entryOf s line = some e → (getFce s e).locked = false → inMask s core e = true → ¬ full → getFce t e = { getFce s e with locked := true, owner := core.val }) ∧
    (∀ e, entryOf s line = some e → (getFce s e).locked = false → inMask s core e = false ∨ full → t.tx = s.tx ++ [.fetched core.val 5 0] ∧ t.fcc = s.fcc) ∧
    (entryOf s line = none → full ∨ mayFetch s core line 2 = false → t.tx = s.tx ++ [.fetched core.val 5 0] ∧ t.fcc = s.fcc) ∧
    (entryOf s line = none → ¬ full → mayFetch s core line 2 = true → s.fcc.fill = none → (core.val, line, true, 3) ∈ t.fcc.waiters)) ∧
  (∀ (core : Fin 4) addr, Completes (.unlock core addr) s fun t =>
    ∀ e < 48, let d := getFce s e
      getFce t e = if d.locked = true ∧ d.owner = core.val ∧ d.line = addr.toNat / 256 then { d with locked := false, owner := 0 } else d) ∧
  ∀ core : Fin 4, Completes (.unlockAll core) s fun t =>
    ∀ e < 48, let d := getFce s e
      getFce t e = if d.locked = true ∧ d.owner = core.val then { d with locked := false, owner := 0 } else d

/-- R92 to R97, Tables 3.9 and 3.10: an arm link trains by attempts, three of which that fail stop the part; an IDENTITY that passes
is followed by TIME_SET, TELEM_SET and LANE_MAP, whose acknowledgements bring the link up; a failing lane is swapped onto the spare, and
without one the part stops; uncorrectable uplink blocks lose their samples; silence or a missing port status is a link loss.
Which physical lane is the spare, how blocks are counted, and the payload of event 0x07 are the model's choices (log entries 18, 20, 25). -/
def Obligations.ArmLinksTrainAndSpareLanes : Prop := ∀ s : State, awake s = true → ∀ arm : Fin 8,
  let k := getAlk s arm
  let lost (t : State) : Prop := (alkUp s arm = false → t = s) ∧
    (alkUp s arm = true → (getAlk t arm).link = 1 ∧ (getAlk t arm).retrain = true ∧ (getAlk t arm).unacked = [] ∧ (holdsFrom s.dev = true → t.dev = .faultHold ∧ t.flt.holdCause = 0x7B))
  let swapped (up atOnce : Bool) (lane : Nat) (t : State) : Prop :=
    let out := if up then (alkOut k).1 else (alkOut k).2
    let free : Prop := out = if up then 31 else 3
    let spare : Prop := lane = if up then 18 else 2
    let spareOk := if up then k.upSpareOk else k.dnSpareOk
    let outAfter := if up then (alkOut (getAlk t arm)).1 else (alkOut (getAlk t arm)).2
    let laneMap : AlkMsg := {
      type := 0x0E, ackReq := true, seq := k.seq, imm := atOnce, apply := if atOnce then 0 else (linkTick s + 560000) % 2 ^ 39,
      payload := [BitVec.ofNat 64 (if up then lane + 256 * (alkOut k).2 else (alkOut k).1 + 256 * lane)] }
    let okAfter := if up then (getAlk t arm).upSpareOk else (getAlk t arm).dnSpareOk
    (alkUp s arm = false ∨ out = lane → outAfter = out ∧ (getAlk t arm).link = k.link ∧ t.dev = s.dev) ∧
    (alkUp s arm = true → out ≠ lane → free → spare → outAfter = out ∧ okAfter = false ∧ t.dev = s.dev) ∧
    (alkUp s arm = true → free → ¬ spare → spareOk = true → out ≠ lane → outAfter = lane ∧ okAfter = false ∧ (getAlk t arm).link = 3 ∧
      (if atOnce then (getAlk t arm).mapAt = none else (getAlk t arm).mapAt.map (·.1) = some (linkTick s + 560000) ∧ (getAlk t arm).upOut = k.upOut ∧ (getAlk t arm).dnOut = k.dnOut) ∧
      (k.muted = false → .alk arm laneMap ∈ t.tx)) ∧
    (alkUp s arm = true → out ≠ lane → ¬ free ∨ (¬ spare ∧ spareOk = false) → inService s.dev = true → s.flt.stopStep = 0 → StopBegun 0x7B s t)
  (∀ upFail downFail reachesExchange, Completes (.alkTrainAttempt arm upFail downFail reachesExchange) s fun t =>
    let may : Prop := arm.val < s.img.arms ∧ k.link ≤ 1 ∧ k.attempting = false ∧ k.idle = false
    let bad : Prop := 2 ≤ upFail.eraseDups.length ∨ 2 ≤ downFail.eraseDups.length
    (¬ may → t = s) ∧
    (may → (getAlk t arm).trainCount = min (k.trainCount + 1) (2 ^ 32 - 1)) ∧
    (may → ¬ bad → (getAlk t arm).link = 1 ∧ (getAlk t arm).attempting = true ∧ (getAlk t arm).waitIdentity = reachesExchange ∧
      (getAlk t arm).upOut = (upFail.map (·.val)).headD 31 ∧ (getAlk t arm).dnOut = (downFail.map (·.val)).headD 3 ∧
      (getAlk t arm).upSpareOk = upFail.isEmpty ∧ (getAlk t arm).dnSpareOk = downFail.isEmpty) ∧
    (may → bad → (getAlk t arm).attempts = k.attempts + 1 ∧ (getAlk t arm).attempting = false ∧ (k.attempts < 2 → (getAlk t arm).idle = true ∧ (getAlk t arm).link = 1) ∧
      (2 ≤ k.attempts → (getAlk t arm).link = 4))) ∧
  Completes (.alkTrainTimeout arm) s (fun t =>
    (k.attempting = false → t = s) ∧
    (k.attempting = true → (getAlk t arm).attempts = k.attempts + 1 ∧ (getAlk t arm).attempting = false ∧ (k.attempts < 2 → (getAlk t arm).idle = true) ∧
      (2 ≤ k.attempts → (getAlk t arm).link = 4 ∧ (s.dev = .configuring → s.flt.stopStep = 0 → t.dev = .stopped ∧ t.start.failStep = 9)))) ∧
  Completes (.alkTrainRetry arm) s (fun t => (getAlk t arm).idle = (if k.idle = true ∧ k.link = 1 then false else k.idle) ∧ (getAlk t arm).link = k.link) ∧
  (∀ word, Completes (.identity arm word) s fun t =>
    (getAlk t arm).ident = some word ∧ (getAlk t arm).fzaPort = word.getLsbD 19 ∧
    (k.waitIdentity = false → (getAlk t arm).link = k.link) ∧
    (k.waitIdentity = true → bitsOf 47 32 word.toNat = Config.fza816Code.toNat → s.img.heads ≤ bitsOf 23 20 word.toNat →
      (getAlk t arm).settling = true ∧ (getAlk t arm).waitIdentity = false ∧ (getAlk t arm).link = k.link ∧
        (k.muted = false → ((getAlk t arm).unacked.drop k.unacked.length).map (fun m => (m.1.type, m.2)) = [(0x0C, false), (0x0D, false), (0x0E, false)])) ∧
    (k.waitIdentity = true → bitsOf 47 32 word.toNat ≠ Config.fza816Code.toNat ∨ bitsOf 23 20 word.toNat < s.img.heads → (getAlk t arm).link = 4)) ∧
  (∀ up (lane : Fin 19) corrected uncorrectable, Completes (.alkLaneErrorWindow arm up lane corrected uncorrectable) s fun t =>
    let n := if up then lane.val else 32 + lane.val
    let e := tabGet {} k.lanes n
    let tooMany : Prop := alkCorrLimit s.img < corrected ∨ 3 ≤ uncorrectable
    (up = false → 3 ≤ lane.val → t = s) ∧
    (up = true ∨ lane.val < 3 → (tabGet {} (getAlk t arm).lanes n).corrSym = satAdd 32 e.corrSym corrected ∧ (tooMany → swapped up false lane t) ∧
      (¬ tooMany → (getAlk t arm).upOut = k.upOut ∧ (getAlk t arm).dnOut = k.dnOut))) ∧
  (∀ up (lane : Fin 19), Completes (.alkLaneLockLoss arm up lane) s fun t => (up = false → 3 ≤ lane.val → t = s) ∧ (up = true ∨ lane.val < 3 → swapped up true lane t)) ∧
  (∀ (lane : Fin 19) (streams : List (Fin 16)), Completes (.alkUplinkUncorr arm lane streams) s fun t =>
    (alkUp s arm = false → t = s) ∧
    (alkUp s arm = true → (tabGet {} (getAlk t arm).lanes lane.val).uncorr = satInc 16 (tabGet {} k.lanes lane.val).uncorr ∧
      (∀ x ∈ streams, let d := tabGet {} k.streams x.val; let e := tabGet {} (getAlk t arm).streams x.val
        e.broken = true ∧ e.next = d.next ∧ e.words.map (·.1) = d.words.map (·.1) ∧ ∀ y ∈ e.words, lastMark d ≤ y.1 → y.2 = erasedWord) ∧
      ∀ x : Fin 16, x ∉ streams → tabGet {} (getAlk t arm).streams x.val = tabGet {} k.streams x.val)) ∧
  Completes (.alkUplinkSilence arm) s lost ∧ Completes (.portStatusTimeout arm) s lost

/-- R78, R83, R87, R90, R92, Tables 3.3, 3.7 and 3.10: an unanswered message is sent once more and then is a link loss; an answer ends its message and settles a claim, a lane swap or
a training, and FULL has it sent again (log entry 42);
telemetry words stand in the fields that Table 3.3 gives them, faults of a head have their responses, and another owner of an arm stops the part.
When a flag that stays set is a new instance is the model's choice (log entry 19). -/
def Obligations.ArmTelemetryIsTaken : Prop := ∀ s : State, awake s = true → ∀ arm : Fin 8,
  let k := getAlk s arm
  let msg (q : Nat) : Option (AlkMsg × Bool) := k.unacked.find? fun m => m.1.seq = q
  (∀ seq, Completes (.ackTimeout arm seq) s fun t =>
    (msg seq.toNat = none → t = s) ∧
    ∀ m, msg seq.toNat = some m →
      (m.2 = false → t.tx = s.tx ++ [.alk arm m.1] ∧ (getAlk t arm).unacked.map (·.1) = k.unacked.map (·.1) ∧ ∀ x ∈ (getAlk t arm).unacked, x.1.seq = seq.toNat → x.2 = true) ∧
      (m.2 = true → k.settling = false → alkUp s arm = true → (getAlk t arm).link = 1 ∧ (getAlk t arm).retrain = true ∧ (getAlk t arm).unacked = []) ∧
      (m.2 = true → k.settling = true → (getAlk t arm).attempts = k.attempts + 1 ∧ (getAlk t arm).settling = false ∧ (getAlk t arm).unacked = [])) ∧
  (∀ word, Completes (.ackTelemetry arm word) s fun t =>
    let seq := bitsOf 50 40 word.toNat
    let status := bitsOf 3 0 word.toNat
    (msg seq = none → t = s) ∧
    ∀ m, msg seq = some m →
      let refused : Prop := m.1.type = 0x0F ∧ status = 5 ∧ s.dev = .takeover
      let rest := k.unacked.filter fun x => x.1.seq ≠ seq
      let up : Prop := k.settling = true ∧ ∀ x ∈ rest, x.1.type ≠ 0x0C ∧ x.1.type ≠ 0x0D ∧ x.1.type ≠ 0x0E
      let ends : Prop := up ∧ status ≠ 2 ∧ s.dev = .configuring ∧ s.start.step = 9
      (ends → ptnOn s = false → (∀ a ∈ armList s, a = arm.val ∨ alkUp s a = true) → arm.val < s.img.arms → t.ptn.activeOut = true ∧ (t.dev = .parked ∧ t.start.step = 0 ∨ t.dev = .spinningUp ∧ t.start.step = 11) ∧ ∀ a ∈ armList s, (getAlk t a).owner = 2) ∧
      (¬ ends → (getAlk t arm).owner = if m.1.type = 0x0F then (if status = 0 ∨ status = 1 ∨ status = 6 then 1 else 0) else k.owner) ∧
      (refused → s.flt.stopStep = 0 → StopBegun 0x7C s t) ∧
      (¬ refused → status = 2 → (getAlk t arm).unacked = rest ++ [m] ∧ t.tx = s.tx ++ [.alk arm m.1]) ∧
      (¬ refused → status ≠ 2 → ¬ ends → (getAlk t arm).unacked = rest ∧
        (getAlk t arm).link = (if up then 2 else if m.1.type = 0x0E ∧ k.link = 3 then 2 else k.link) ∧ (getAlk t arm).settling = (if up then false else k.settling))) ∧
  (∀ word : Word,
    let w := word.toNat
    let h := bitsOf 55 53 w
    let mon (t : State) : HeadMon := tabGet {} (getAlk t arm).mons h
    Completes (.laserMon arm word) s (fun t => (mon t).laserI = bitsOf 31 16 w ∧ (mon t).photo = bitsOf 15 0 w ∧ (mon t).heaterR = (mon s).heaterR) ∧
    Completes (.heaterMon arm word) s (fun t => (mon t).heaterR = bitsOf 31 16 w ∧ (mon t).contact = bitsOf 15 0 w ∧ (mon t).laserI = (mon s).laserI) ∧
    Completes (.readerMon arm word) s (fun t => (mon t).readerA = bitsOf 31 16 w ∧ (mon t).readerB = bitsOf 15 0 w ∧ (mon t).laserI = (mon s).laserI) ∧
    Completes (.supplyTelemetry arm word) s (fun t => (getAlk t arm).supply = [bitsOf 47 32 w, bitsOf 31 16 w, bitsOf 15 0 w]) ∧
    Completes (.wfifoTelemetry arm word) s (fun t => (mon t).wfifo = bitsOf 10 0 w) ∧
    Completes (.telemetryUndefined arm word) s (fun t => (getAlk t arm).msgErr = (if 0x0B < bitsOf 63 56 w then satInc 16 k.msgErr else k.msgErr)) ∧
    Completes (.faultTelemetry arm word) s fun t =>
      let n := 8 * arm.val + h
      let old : BitVec 14 := if since s (mon s).flagsAt ≤ 100000 then (mon s).flags else 0
      let fresh (i : Nat) : Prop := word.getLsbD i = true ∧ old.getLsbD i = false
      (mon t).flags = word.setWidth 14 ∧ (mon t).flagsAt = now s ∧
      ((∃ i < 7, fresh i) → HeadDeclared n s t) ∧
      (word.getLsbD 9 = true ∨ word.getLsbD 11 = true ∨ word.getLsbD 12 = true ∨ word.getLsbD 13 = true → holdsFrom s.dev = true → (∀ i < 9, word.getLsbD i = false) → t.dev = .faultHold ∧ t.flt.holdCause = 0x7D) ∧
      ((∀ i < 14, word.getLsbD i = false) → t.dev = s.dev ∧ t.heads = s.heads)) ∧
  ∀ word, Completes (.portStatus arm word) s fun t =>
    let st := bitsOf 1 0 word.toNat
    let taken_ : Prop := k.owner = 1 ∧ st = 0 ∧ (s.dev = .loading ∨ s.dev = .ready ∨ s.dev = .faultHold)
    (getAlk t arm).port = st ∧ (getAlk t arm).otherPort = word.getLsbD 2 ∧
    (¬ taken_ → t.dev = s.dev ∧ (getAlk t arm).owner = k.owner) ∧
    (taken_ → s.flt.stopStep = 0 → StopBegun 0x7C s t ∧ ∀ a < 8, (getAlk t a).owner ≠ 1)

/-- R353 to R356, Tables 11.4 and 11.12: a link trains by attempts, with at most one lane mapped out in each direction; a failing receive lane is reported to the peer and mapped out on its
answer, a failing transmit lane moves to the spare on the peer's report, and a link without a spare or a good frame goes down with its session held.
Which physical lane is the spare and the fields of the swap event are the model's choices (log entries 20, 22). -/
def Obligations.LinksTrainAndMapLanes : Prop := ∀ s : State, awake s = true → ∀ l : LinkId,
  let n := l.num
  let k := getLink s n
  let up : Prop := linkUp s n = true
  let down (t : State) : Prop := (getLink t n).link = 1 ∧ (getLink t n).session = (if k.session = 1 then 2 else k.session)
  let sent (t : State) (r : CtlRec) : Prop := .lctl n r (ackOf s n) (crClassOf s n) (crTotalOf s n) ∈ t.tx.drop s.tx.length
  let reported (lane reason : Nat) (t : State) : Prop :=
    (¬ up ∨ k.rxOut = lane ∨ laneSpare n < lane → (getLink t n).link = k.link ∧ (getLink t n).mapping = k.mapping) ∧
    (up → k.rxOut = laneNone n → lane ≤ laneSpare n → k.mapping = none →
      (lane = laneSpare n → (getLink t n).rxSpareOk = false ∧ (getLink t n).link = k.link) ∧
      (lane ≠ laneSpare n → k.rxSpareOk = true → (getLink t n).mapping = some (lane, reason) ∧ (getLink t n).link = 3 ∧ sent t (.laneMap lane reason)) ∧
      (lane ≠ laneSpare n → k.rxSpareOk = false → down t)) ∧
    (up → k.rxOut ≠ laneNone n → k.rxOut ≠ lane → lane ≤ laneSpare n → k.mapping = none → down t)
  (∀ (rxFail txFail : List (Fin 17)) peerPresent, Completes (.lnkTrainAttempt l rxFail txFail peerPresent) s fun t =>
    let may : Prop := linkEnabled s n = true ∧ k.link ≤ 1 ∧ k.attempts < 3
    let rx := ((rxFail.map (·.val)).filter fun x => decide (x ≤ laneSpare n)).eraseDups
    let tx := ((txFail.map (·.val)).filter fun x => decide (x ≤ laneSpare n)).eraseDups
    let bad : Prop := 2 ≤ rx.length ∨ 2 ≤ tx.length
    (¬ may → t = s) ∧ (may → peerPresent = false → (getLink t n).link = 1 ∧ (getLink t n).attempts = k.attempts) ∧
    (may → peerPresent = true → bad → (k.wasUp = true → (getLink t n).link = 4) ∧ (k.wasUp = false → (getLink t n).link = 1 ∧ (getLink t n).attempts = k.attempts + 1)) ∧
    (may → peerPresent = true → ¬ bad → (getLink t n).link = 2 ∧ (getLink t n).wasUp = true ∧ (getLink t n).attempts = 0 ∧ (getLink t n).rxOut = rx.headD (laneNone n) ∧
      (getLink t n).txOut = tx.headD (laneNone n) ∧ (getLink t n).rxSpareOk = rx.isEmpty ∧ (getLink t n).txSpareOk = tx.isEmpty)) ∧
  Completes (.lnkTrainTimeout l) s (fun t =>
    let due : Prop := k.link = 1 ∧ k.attempts < 3
    (¬ due → t = s) ∧ (due → (getLink t n).attempts = k.attempts + 1 ∧ (getLink t n).link = 1)) ∧
  Completes (.lnkTrainRetry l) s (fun t => (getLink t n).attempts = (if k.link = 1 ∧ 3 ≤ k.attempts then 0 else k.attempts) ∧ (getLink t n).link = k.link) ∧
  Completes (.linkRxSilence l) s (fun t => (¬ up → t = s) ∧ (up → down t)) ∧
  (∀ (lane : Fin 17) corrected uncorrectable, Completes (.lnkLaneErrorWindow l lane corrected uncorrectable) s fun t =>
    let e := tabGet {} k.lanes lane.val
    (laneSpare n < lane.val → t = s) ∧
    (lane.val ≤ laneSpare n → (tabGet {} (getLink t n).lanes lane.val).corrSym = satAdd 32 e.corrSym corrected ∧ (tabGet {} (getLink t n).lanes lane.val).uncorr = satAdd 16 e.uncorr uncorrectable ∧
      (3 ≤ uncorrectable → reported lane 1 t) ∧ (uncorrectable < 3 → corrLimit s.img < corrected → reported lane 0 t) ∧
      (uncorrectable < 3 → corrected ≤ corrLimit s.img → (getLink t n).link = k.link ∧ t.tx = s.tx))) ∧
  (∀ lane : Fin 17, Completes (.lnkLaneLockLoss l lane) s (reported lane.val 2)) ∧
  Completes (.laneMapRepeat l) s (fun t =>
    (k.mapping = none ∨ ¬ up → t = s) ∧ ∀ m, k.mapping = some m → up → t.tx = s.tx ++ [.lctl n (.laneMap m.1 m.2) (ackOf s n) (crClassOf s n) (crTotalOf s n)]) ∧
  (∀ (lane : Fin 17) reason, Completes (.laneMap l lane reason) s fun t =>
    (¬ up ∨ laneSpare n < lane.val → t = s) ∧
    (up → lane.val ≤ laneSpare n → k.txOut = lane.val → sent t (.laneMapDone lane)) ∧
    (up → lane.val < laneSpare n → k.txOut = laneNone n → k.txSpareOk = true → (getLink t n).txOut = lane.val ∧ (getLink t n).txSpareOk = false ∧ sent t (.laneMapDone lane)) ∧
    (up → lane.val < laneSpare n → k.txOut ≠ lane.val → k.txOut ≠ laneNone n ∨ k.txSpareOk = false → down t)) ∧
  ∀ lane : Fin 17, Completes (.laneMapDone l lane) s fun t =>
    (k.mapping.map (·.1) ≠ some lane.val → t = s) ∧
    (k.mapping.map (·.1) = some lane.val → (getLink t n).mapping = none ∧ (getLink t n).rxOut = lane.val ∧ (getLink t n).rxSpareOk = false ∧ (getLink t n).link = if k.link = 3 then 2 else k.link)

/-- R340 to R349, R356 to R360, R374, R375: a frame with a bad code is counted and lost, one of bad form is a protocol error; a numbered frame at NEXT is delivered and one behind it is a
duplicate; gaps are asked for again, unacknowledged frames are sent again, the sixteenth sending brings the link down; write data lands in the frames that were granted.
What a frame cannot show of its command's surroundings is a free value (log entry 37). -/
def Obligations.FramesAreReceivedInOrder : Prop := ∀ s : State, awake s = true →
  (∀ l : LinkId,
    let n := l.num
    let k := getLink s n
    let up : Prop := linkUp s n = true
    (∀ f : LinkFrame, Completes (.frameReceive l f) s fun t =>
      let whole : Prop := f.fecOk = true ∧ crcGood f = true
      let off := (frSeq f - k.next).toNat
      let plain : Prop := up ∧ whole ∧ formOk n f = true ∧ isNumbered f = true ∧ (n = 2 ∨ (k.session = 1 ∧ (getInj s n).action ≠ 1 ∧ (getInj s n).action ≠ 3 ∧ (getInj s n).delayed = []))
      (¬ up → t = s) ∧ (up → ¬ whole → (getLink t n).crcErr = satInc 16 k.crcErr ∧ (getLink t n).next = k.next ∧ t.hop = s.hop ∧ t.mpd = s.mpd) ∧
      (up → whole → formOk n f = false → (getLink t n).proto = satInc 16 k.proto ∧ (getLink t n).next = k.next ∧ t.hop = s.hop ∧ t.mpd = s.mpd) ∧
      (plain → overCredit s n f = true → (getLink t n).creditViol = satInc 16 k.creditViol ∧ (getLink t n).next = k.next) ∧
      (plain → 32768 ≤ off → (getLink t n).next = k.next ∧ t.hop = s.hop ∧
        (if n < 2 ∧ frSeq f ∈ (getInj s n).late then (getLink t n).dup = k.dup else (getLink t n).dup = satInc 16 k.dup)) ∧
      (plain → 256 ≤ off → off < 32768 → (getLink t n).outWindow = satInc 16 k.outWindow ∧ (getLink t n).next = k.next) ∧
      (plain → overCredit s n f = false → off = 0 → k.held = [] → (getLink t n).next = k.next + 1 ∧ (getLink t n).held = []) ∧
      (plain → overCredit s n f = false → 0 < off → off < 256 → k.held = [] → (getLink t n).next = k.next ∧ (getLink t n).held = [(frSeq f, f)] ∧ (getLink t n).gapTimer = true)) ∧
    Completes (.gapTimerExpiry l) s (fun t =>
      let seqs := (missingSeqs k).take 15
      let due : Prop := k.gapTimer = true ∧ up
      (¬ due → t = s) ∧ (due → seqs = [] → (getLink t n).gapTimer = false ∧ t.tx = s.tx) ∧
      (due → seqs ≠ [] → (getLink t n).gapTimer = true ∧ t.tx = s.tx ++ [.lctl n (.nak seqs) (ackOf s n) (crClassOf s n) (crTotalOf s n)] ∧
        ((∀ q ∈ seqs, q ∉ (getInj s n).dropped ∧ ∀ d ∈ (getInj s n).delayed, BitVec.ofNat 16 (hdr d.1 59 44) ≠ q) → (getLink t n).nakSent = satInc 16 k.nakSent) ∧
        (n < 2 → ∀ q ∈ seqs, q ∈ (getInj s n).dropped → (getLink t n).nakSent = k.nakSent ∧ (getInj t n).nakInduced = satInc 16 (getInj s n).nakInduced))) ∧
    (∀ seq, Completes (.replayTimerExpiry l seq) s fun t =>
      let f := k.unacked.find? fun f => f.seq = seq
      (f = none ∨ ¬ up → t = s) ∧
      ∀ g, f = some g → up → (getLink t n).timerReplay = (if g.corrupted then k.timerReplay else satInc 16 k.timerReplay) ∧ .frame n seq (rebuilt s n g.body) (ackOf s n) (crClassOf s n) (crTotalOf s n) none ∈ t.tx.drop s.tx.length ∧
        (15 ≤ g.sends → (getLink t n).link = 1) ∧ (g.sends < 15 → (getLink t n).link = k.link)) ∧
    Completes (.ackDelayExpiry l) s (fun t =>
      let due : Prop := k.ackDue = true ∧ up
      (¬ due → t = s) ∧ (due → (getLink t n).ackDue = false ∧ t.tx = s.tx ++ [.lctl n (.keepalive (BitVec.ofNat 64 (devTime s))) (ackOf s n) (crClassOf s n) (crTotalOf s n)])) ∧
    Completes (.idleKeepalive l) s (fun t =>
      (¬ up → t = s) ∧ (up → t.tx = s.tx ++ [.lctl n (.keepalive (BitVec.ofNat 64 (devTime s))) (ackOf s n) (crClassOf s n) (crTotalOf s n)])) ∧
    Completes (.keepalive l) s (fun t => t = s) ∧
    ∀ seqs, Completes (.nak l seqs) s fun t =>
      (¬ up → t = s) ∧
      (up → (∀ f ∈ k.unacked, f.seq ∈ seqs → f.corrupted = false) → (getLink t n).nakRcvd = satInc 16 k.nakRcvd) ∧
      (up → ∀ f ∈ k.unacked, f.seq ∈ seqs → (∀ g ∈ k.unacked, g.seq = f.seq → g = f) → ∃ x ∈ t.tx.drop s.tx.length, x = .frame n f.seq (rebuilt s n f.body) (ackOf s n) 0 (tabGet 0 k.granted 0 % 4096) none ∨
        x = .frame n f.seq (rebuilt s n f.body) (ackOf s n) 1 (tabGet 0 k.granted 1 % 4096) none)) ∧
  ∀ (p : Port) (w : WData), Completes (.wdataReceive p w) s fun t =>
    let c := cmdOfTag s p.num w.tag
    let awaited : Prop := c.any (fun c => takesData c && c.phase = .running && decide (w.blk.toNat < c.granted) && !c.landed.contains w.blk.toNat) = true
    (¬ awaited → (getHopPort t p.num).dataStray = satInc 16 (getHopPort s p.num).dataStray ∧ t.mpd = s.mpd ∧ t.nvm = s.nvm) ∧
    ∀ d, c = some d → awaited → d.cap.opcode = 0x02 → ∀ x, (d.frames.find? fun x => x.1 = w.blk.toNat) = some x →
      let parts := tabGet 0 s.mpd.parts x.2
      let more := parts ||| (1 <<< w.fib.toNat)
      (parts.toNat.testBit w.fib.toNat = true → (getHopPort t p.num).dataStray = satInc 16 (getHopPort s p.num).dataStray ∧ t.mpd = s.mpd) ∧
      (parts.toNat.testBit w.fib.toNat = false → more ≠ 255 → tabGet 0 t.mpd.parts x.2 = more ∧
        getFrame t x.2 = getFrame s x.2 ||| (w.data.setWidth 32768 <<< (4096 * w.fib.toNat))) ∧
      (parts.toNat.testBit w.fib.toNat = false → more = 255 → ∀ e, cmdOf t d.arrival = some e → (∀ y ∈ s.hop.cmds, y.arrival = d.arrival → y = d) → e.landed = d.landed ++ [w.blk.toNat])

/-- R350 to R353, R366, R368, R373, R374, R376, R396: a session opens or resumes when its fields are allowed, and its end drops its commands; completions and read data go out in order against
credit; a grant gives block frames to the first command in arrival order that may be granted (log entry 49), a WRITE while the
dirty limit has room and no mirror record waits; a WRITE whose data does not come is aborted, and one held too long ends. -/
def Obligations.SessionsAndTheirTransfers : Prop := ∀ s : State, awake s = true → ∀ p : Port,
  let n := p.num
  let k := getLink s n
  let ended (t : State) : Prop := (∀ c ∈ t.hop.cmds, c.port ≠ n) ∧ (getHopPort t n).cpls = [] ∧ (getLink t n).session = 0 ∧ (getLink t n).unacked = []
  (∀ r, Completes (.sessionOpen p r) s fun t =>
    let fields : Prop := r.sid ≠ 0 ∧ 16 ≤ r.cplCredits.toNat ∧ 256 ≤ r.rdataCredits.toNat ∧ (modeAllow s.img).testBit (2 * n + b2n r.compat) = true
    let up : Prop := linkUp s n = true
    let set : Prop := up ∧ s.dev ≠ .unconfigured ∧ s.dev ≠ .configuring
    (¬ up → t = s) ∧
    (up → ¬ set ∨ (r.resume = true ∧ (k.session = 0 ∨ k.sid ≠ r.sid ∨ k.compat ≠ r.compat)) ∨ ¬ fields → (getLink t n).session = k.session ∧ (getLink t n).sid = k.sid ∧ t.hop = s.hop ∧ t.tx.length = s.tx.length + 1) ∧
    (set → r.resume = true → k.session ≠ 0 → k.sid = r.sid → k.compat = r.compat → fields → (getLink t n).session = 1 ∧ (getLink t n).next = k.next ∧ (getLink t n).txSeq = k.txSeq) ∧
    (set → r.resume = false → fields → (getLink t n).session = 1 ∧ (getLink t n).sid = r.sid ∧ (getLink t n).compat = r.compat ∧ (getLink t n).next = 0 ∧ (getLink t n).txSeq = 0 ∧ (getLink t n).unacked = [] ∧
      (k.session ≠ 0 → s.ptn.role ≠ 1 → ∀ c ∈ t.hop.cmds, c.port ≠ n))) ∧
  (∀ sid reason, Completes (.sessionClose p sid reason) s fun t =>
    let mine : Prop := k.session ≠ 0 ∧ k.sid = sid
    (¬ mine → t = s) ∧ (mine → ended t)) ∧
  Completes (.linkHoldExpiry p) s (fun t => (k.session ≠ 2 → t = s) ∧ (k.session = 2 → ended t)) ∧
  Completes (.cplFrameSend p) s (fun t =>
    let rs := (getHopPort s n).cpls.take 32
    let may : Prop := k.session = 1 ∧ rs ≠ [] ∧ maySend s n 2 = true
    (¬ may → t = s) ∧
    (may → (getHopPort t n).cpls = (getHopPort s n).cpls.drop 32 ∧ (getLink t n).txSeq = k.txSeq + 1 ∧ (getLink t n).unacked.map (fun f => (f.seq, f.body)) = k.unacked.map (fun f => (f.seq, f.body)) ++ [(k.txSeq, .cpl rs)] ∧
      tabGet 0 (getLink t n).credit 2 = tabGet 0 k.credit 2 - 1)) ∧
  Completes (.rdataFrameSend p) s (fun t =>
    let c := s.hop.cmds.find? fun c => c.port = n && (nextData s c).isSome
    let may : Prop := k.session = 1 ∧ maySend s n 3 = true
    (¬ may ∨ c = none → t = s) ∧
    ∀ d, c = some d → may → ∀ b, nextData s d = some b →
      (getLink t n).txSeq = k.txSeq + 1 ∧ (getLink t n).unacked.map (fun f => (f.seq, f.body)) = k.unacked.map (fun f => (f.seq, f.body)) ++ [(k.txSeq, .rdata d.cap.tag d.sent d.fib 0)] ∧
        .frame n k.txSeq (.rdata d.cap.tag d.sent d.fib (partOf b d.fib)) (ackOf s n) (crClassOf s n) (crTotalOf s n) (injectTx n (ftypeOf (.rdata d.cap.tag d.sent d.fib (partOf b d.fib))) s).1 ∈ t.tx.drop s.tx.length ∧
        tabGet 0 (getLink t n).credit 3 = tabGet 0 k.credit 3 - 1 ∧
        ((∀ e ∈ s.hop.cmds, e.arrival = d.arrival → e = d) → ∀ e, cmdOf t d.arrival = some e → (e.sent, e.fib) = if d.fib = 7 then (d.sent + 1, 0) else (d.sent, d.fib + 1))) ∧
  Completes .writeGrant s (fun t =>
    let may (c : Cmd) : Bool := takesData c && c.phase = .running && decide (0 < grantRoom s c) &&
      (c.cap.opcode ≠ 0x02 || (decide (dirtyFrames s < 524288) && !(mirrorOn s && !(getLink s 2).txWait.isEmpty)))
    let c := s.hop.cmds.find? may
    (s.dev = .faultHold ∨ c = none → t = s) ∧
    ∀ d, c = some d → s.dev ≠ .faultHold → (∀ e ∈ s.hop.cmds, e.arrival = d.arrival → e = d) → ∀ e, cmdOf t d.arrival = some e →
      d.granted ≤ e.granted ∧ e.granted ≤ d.granted + grantRoom s d ∧ (d.cap.opcode = 0x02 → e.granted ≤ d.granted + (524288 - dirtyFrames s)) ∧ (d.cap.opcode = 0x40 → e.granted = d.granted + grantRoom s d) ∧
      (d.granted < e.granted → e.grants = d.grants ++ [(d.granted, e.granted - d.granted, now s)] ∧
        (getHopPort t d.port).cpls = (getHopPort s d.port).cpls ++ [.inr (d.cap.tag, d.granted, e.granted - d.granted)])) ∧
  (∀ tag, Completes (.wdataTimeout p tag) s fun t =>
    let c := cmdOfTag s n tag
    let due : Prop := c.any (fun c => c.cap.opcode = 0x02 && c.phase = .running && decide (c.landed.length < c.granted)) = true
    (¬ due → t = s) ∧
    ∀ d, c = some d → due → (getHopPort t n).wdataTo = satInc 16 (getHopPort s n).wdataTo ∧
      ((∀ e ∈ s.hop.cmds, e.arrival = d.arrival → e = d) → .inl { tag := d.cap.tag, status := 0x30, opcode := d.cap.opcode, arrival := BitVec.ofNat 40 d.arrival, info := 1 } ∈ (getHopPort t n).cpls)) ∧
  ∀ tag, Completes (.holdLimitExpiry p tag) s fun t =>
    let c := cmdOfTag s n tag
    (c.any (fun c => c.phase = .held) = false → t = s) ∧
    ∀ d, c = some d → d.phase = .held → (getHopPort t n).holdLimit = satInc 16 (getHopPort s n).holdLimit ∧
      ((∀ e ∈ s.hop.cmds, e.arrival = d.arrival → e = d) → .inl { tag := d.cap.tag, status := 0x21, opcode := d.cap.opcode, arrival := BitVec.ofNat 40 d.arrival, info := BitVec.ofNat 48 (devCode s.dev) } ∈ (getHopPort t n).cpls)

/-- R350, R367, R370 to R372, R395: a capsule meets a port's session, the tag rule, the checks of Table 12.4 in order, and the rule of Table 12.7 for the device state, whatever its row; one refused or
turned away has none of its command's effect, and one held keeps its tag and its context. -/
def Obligations.CapsulesAreChecked : Prop := ∀ s : State, awake s = true → ∀ p : Port, ∀ c failed ue ok version,
  ∀ i ∈ capsuleRows p c failed ue ok version, i.wellFormed = true → Completes i s fun t =>
    let a := s.hop.nextArrival
    let inUse : Prop := (cmdOfTag s p.num c.tag).isSome = true
    let rule := stateRule s c.opcode.toNat
    let admits : Prop := Arrives s p c ∧ admissionFault s p c = none
    (takesCapsules s p = false → t = s) ∧
    (takesCapsules s p = true → inUse ∨ 8192 ≤ tagsInUse s p.num → t.hop = { s.hop with nextArrival := (a + 1) % 2 ^ 40, ports := t.hop.ports } ∧ (∀ q : Port, q ≠ p → getHopPort t q.num = getHopPort s q.num) ∧
      getHopPort t p.num = { getHopPort s p.num with tagInUse := satInc 16 (getHopPort s p.num).tagInUse, cpls := (getHopPort s p.num).cpls ++
        [.inl { tag := c.tag, status := 0x14, rej := true, opcode := c.opcode, arrival := BitVec.ofNat 40 a, info := if (cmdOfTag s p.num c.tag).isSome then 0 else 1 }] }) ∧
    (Arrives s p c → t.hop.nextArrival = (a + 1) % 2 ^ 40 ∧ (cmdOfTag t p.num c.tag).isSome = true) ∧
    (Arrives s p c → ∀ status info, admissionFault s p c = some (status, info) → Answered s t p c status info ∧ t.slu = s.slu ∧ t.aon = s.aon ∧ t.evt = s.evt ∧ t.dev = s.dev ∧ t.diag = s.diag ∧ t.tx = s.tx) ∧
    (admits → rule = .conflict ∨ (rule = .hold ∧ c.nowait = true) → Answered s t p c 0x20 (devCode s.dev) ∧ t.dev = s.dev ∧ t.slu = s.slu) ∧
    (admits → (rule = .hold ∧ c.nowait = false) ∨ rule = .holdAlways → t.dev = s.dev ∧ (cmdOf t a).isSome = true ∧
      ∀ d, cmdOf t a = some d → d.cap = c ∧ d.port = p.num ∧ d.phase = .held ∧ d.admitted = true ∧ d.at_ = now s)

/-- R298, R373, R374, R378, R379, R386, R387, R456: a READ takes each block from the version that it selects and pins it; a WRITE waits for its grants; VERIFY and FLUSH wait for the versions of
their range that are still to come, dirty, or superseded by one that is dirty; an ABORT ends a target that it wins, and completes after it. -/
def Obligations.MediaCommandsBegin : Prop := ∀ s : State, awake s = true → ∀ p : Port,
  let a := s.hop.nextArrival
  let waitsFor (c : Capsule) (all : Bool) (d : Cmd) : Prop :=
    let covers (l : Nat) : Prop := all = true ∨ (c.lba.toNat ≤ l ∧ l < c.lba.toNat + c.count.toNat)
    (∀ x ∈ s.hop.cmds, x.cap.opcode = 0x02 → x.phase = .running → ∀ i < x.cap.count.toNat, (∀ f ∈ x.frames, f.1 ≠ i) → covers (x.cap.lba.toNat + i) →
      ∀ w, selectedWrite s (x.cap.lba.toNat + i) a = some w → (x.cap.lba.toNat + i, w) ∈ d.waits) ∧
    ∀ x ∈ s.mpd.ledger, x.2.valid = true → covers x.2.lba.toNat → selectedWrite s x.2.lba.toNat a = none → ∀ e, selectVersion s x.2.lba.toNat a = some e →
      e.2.state ≠ 5 → (e.2.state = 4 → ∃ y ∈ s.mpd.ledger, y.2.valid = true ∧ y.2.lba = x.2.lba ∧ dirtyEntry y.2 = true ∧ seqLt e.2.vseq y.2.vseq = true) →
      (x.2.lba.toNat, e.2.vseq.toNat) ∈ d.waits
  (∀ c, c.isOp 0x01 = true → Completes (.read p c) s fun t => Executes s p c →
    (cmdOf t a).isSome = true ∧ ∀ d, cmdOf t a = some d → d.cap = c ∧ d.port = p.num ∧ d.srcs.length = c.count.toNat ∧
      (d.srcs.head? = some .lost → d.phase = .issued ∧ Answered s t p c 0x40 c.lba.toNat) ∧ (d.srcs.head? ≠ some .lost → d.phase = .running) ∧
      ∀ k < c.count.toNat,
        let b := chooseSrc s (c.lba.toNat + k) a
        (b = .medium ∨ b = .lost → d.srcs[k]? = some b) ∧
        (b = .medium → d.phase = .running → (c.lba.toNat + k, a) ∈ t.mpd.mediumPins) ∧
        (∀ f, b = .frame f → d.phase = .running → (d.srcs[k]? = some b ∧ (f, a) ∈ t.mpd.pins) ∨ ∃ e ∈ t.mrc.slots, d.srcs[k]? = some (.slot e.1) ∧ e.2.data = getFrame s f)) ∧
  (∀ c, c.isOp 0x02 = true → Completes (.write p c) s fun t => Executes s p c →
    (∃ d, Running s t p c d ∧ d.granted = 0 ∧ d.landed = [] ∧ d.needMirror = s.ptn.synced) ∧ (s.ptn.synced = false → ptnOn s = true → s.ptn.role = 1 → t.ptn.solo = true)) ∧
  (∀ c, c.isOp 0x03 = true → Completes (.verify p c) s fun t => Executes s p c →
    (cmdOf t a).isSome = true ∧ ∀ d, cmdOf t a = some d → d.cap = c ∧ d.port = p.num ∧ waitsFor c false d ∧
      (d.waits ≠ [] → d.phase = .waiting) ∧ (d.waits = [] → d.phase = .running ∧ d.srcs.length = c.count.toNat)) ∧
  (∀ c, c.isOp 0x04 = true → Completes (.flush p c) s fun t => Executes s p c →
    (cmdOf t a).isSome = true ∧ ∀ d, cmdOf t a = some d → d.cap = c ∧ d.port = p.num ∧ waitsFor c (flushAll c) d ∧
      (d.waits ≠ [] → d.phase = .waiting) ∧ (d.waits = [] → d.phase = .issued ∧ Answered s t p c (goodStatus s p) 0)) ∧
  ∀ c, c.isOp 0x05 = true → Completes (.abort p c) s fun t => Executes s p c →
    let target := BitVec.ofNat 16 c.arg32.toNat
    let d := s.hop.cmds.find? fun d => d.port = p.num && d.cap.tag = target && d.phase ≠ .issued
    (d = none → target ≠ c.tag → Answered s t p c 0x31 target.toNat) ∧
    ∀ e, d = some e → target ≠ c.tag →
      (e.cap.opcode = 0x05 → Answered s t p c 0x11 176) ∧
      (e.cap.opcode ≠ 0x05 → abortable e.cap.opcode.toNat = false → (cmdOf t a).any (fun r => r.cap = c && r.phase = .waiting) = true) ∧
      (abortable e.cap.opcode.toNat = true → (∀ x ∈ s.hop.cmds, x.arrival = e.arrival → x = e) → Answered s t p c (goodStatus s p) 0 ∧
        .inl { tag := e.cap.tag, status := 0x30, opcode := e.cap.opcode, arrival := BitVec.ofNat 40 e.arrival, info := 0 } ∈ (getHopPort t p.num).cpls ∧
        (∀ x ∈ t.hop.cmds, x.arrival = e.arrival → x.phase = .issued))

/-- R11, R380 to R382, R389, R393, R461, R535: the management commands that end at once or return blocks of their own. -/
def Obligations.ManagementCommandsReply : Prop := ∀ s : State, awake s = true → ∀ p : Port,
  let a := s.hop.nextArrival
  (∀ c, c.isOp 0x10 = true → Completes (.identify p c) s fun t => Executes s p c → Replies s t p c [identifyBlock s p] 0) ∧
  (∀ c, c.isOp 0x11 = true → Completes (.getState p c) s fun t => Executes s p c → Answered s t p c (goodStatus s p) (stateInfo s p)) ∧
  (∀ c, c.isOp 0x12 = true → Completes (.setBudget p c) s fun t => Executes s p c →
    let host := if c.arg32 = 0xFFFFFFFF then none else some c.arg32.toNat
    t.slu.host = host ∧ t.slu.granted = minBudget host (pwmInForce s) ∧ Answered s t p c (goodStatus s p) 0) ∧
  (∀ c, c.isOp 0x13 = true → Completes (.logRead p c) s fun t => Executes s p c →
    let rs := logRecords s c.arg64.toNat c.count.toNat (c.arg32.toNat % 256) (c.arg32.toNat / 256 % 256)
    Replies s t p c (logBlocks rs c.count.toNat) rs.length ∧ rs.length ≤ c.count.toNat ∧ ∀ r ∈ rs, r.pad = false ∧ c.arg64.toNat ≤ r.index ∧ s.evt.released ≤ r.index) ∧
  (∀ c, c.isOp 0x14 = true → Completes (.logClear p c) s fun t => Executes s p c →
    (c.arg64.toNat < s.evt.next → t.evt.released = max s.evt.released (c.arg64.toNat + 1)) ∧ s.evt.released ≤ t.evt.released ∧ Answered s t p c (goodStatus s p) 0) ∧
  (∀ c, c.isOp 0x15 = true → Completes (.deferredRead p c) s fun t => Executes s p c →
    ((getHopPort s p.num).deferred = [] → Replies s t p c [0] 0) ∧
    ∀ r rest, (getHopPort s p.num).deferred = r :: rest → Replies s t p c [BitVec.ofNat 32768 (deferredWord r)] 0 ∧ (getHopPort t p.num).deferred = rest) ∧
  (∀ c, c.isOp 0x16 = true → Completes (.timeSet p c) s fun t => Executes s p c → t.aon.time = c.arg64.toNat ∧ Answered s t p c (goodStatus s p) 0) ∧
  (∀ failed c, c.isOp 0x21 = true → Completes (.selfCheck p c failed) s fun t => Executes s p c → Answered s t p c (goodStatus s p) (failed.toNat &&& (c.arg32.toNat % 32))) ∧
  (∀ ue c, c.isOp 0x30 = true → Completes (.diagRead p c ue) s fun t => Executes s p c →
    let u := taken s p c {}
    let n := c.count.toNat
    (runOk u c.arg64.toNat n = false → Answered s t p c 0x11 112 ∧ t.idn.denied = satInc 16 s.idn.denied) ∧
    (runOk u c.arg64.toNat n = true → Replies s t p c [runBlock u c.arg64.toNat n (ueOf n ue)] (ueOf n ue).length)) ∧
  (∀ c, ∀ i ∈ [Instr.diagWrite p c, .inject p c, .traceControl p c], i.wellFormed = true → Completes i s fun t => Executes s p c →
    let v : Word := c.argx.setWidth 64
    let verdict := writeVerdict c.opcode.toNat (.port p) c.arg64.toNat v s
    (verdict = .done → t.idn.writes = satInc 16 s.idn.writes ∧ Answered s t p c (goodStatus s p) 0) ∧ (verdict = .badValue → Answered s t p c 0x11 208) ∧
    (verdict ≠ .done → t.idn.denied = satInc 16 s.idn.denied ∧ t.idn.writes = s.idn.writes)) ∧
  ∀ c, c.isOp 0x50 = true → Completes (.handover p c) s fun t => Executes s p c → s.dev = .ready →
    let begins : Prop := s.ptn.role = 1 ∧ s.ptn.handStage = 0 ∧ s.ptn.synced = true ∧ ∀ d ∈ s.hop.cmds, ¬ (d.cap.opcode = 0x50 ∧ d.phase = .held)
    (begins → t.ptn.handStage ≠ 0 ∧ t.ptn.handoverReason = BitVec.ofNat 8 (c.arg32.toNat % 2) ∧ (∃ d, Running s t p c d) ∧
      ToPartner (.handover 0 (BitVec.ofNat 8 (c.arg32.toNat % 2))) t) ∧
    (s.ptn.role = 1 → s.ptn.synced = false → s.ptn.handStage = 0 → (cmdOf t a).any (fun d => d.phase = .held) = true ∧ t.ptn.handStage = 0)

/-- R254, R382, Tables 12.7, 19.5: SPIN_CONTROL sets the policy and acts by ACTION: 0 at once, 1 completes in Ready, 2 in Parked with the policy manual. -/
def Obligations.SpinControlActs : Prop := ∀ s : State, awake s = true → ∀ p : Port,
  let a := s.hop.nextArrival
  let runs (t : State) (c : Capsule) : Prop := (cmdOf t a).any (fun d => d.cap = c && d.phase = .running) = true
  (∀ c : Capsule, c.isOp 0x20 = true → c.sub = 0 → Completes (.spinPolicy p c) s fun t => Executes s p c →
    t.hop.autoSpin = c.arg32.getLsbD 2 ∧ Answered s t p c (goodStatus s p) 0 ∧ (s.dev ≠ .parked → t.dev = s.dev) ∧
      (s.dev = .parked → c.arg32.getLsbD 2 = false → s.hop.spinWait = false → t.dev = .parked)) ∧
  (∀ c : Capsule, c.isOp 0x20 = true → c.sub = 1 → Completes (.spinUp p c) s fun t => Executes s p c →
    t.hop.autoSpin = c.arg32.getLsbD 2 ∧
    (s.dev = .ready → s.start.parkStep = 0 → Answered s t p c (goodStatus s p) 0 ∧ t.dev = .ready) ∧
    (s.dev = .spinningUp → runs t c ∧ t.dev = .spinningUp) ∧
    (s.dev = .parked → (budgetAtLeast s (bOn s) = false → runs t c ∧ t.hop.spinWait = true ∧ t.dev = .parked) ∧
      (budgetAtLeast s (bOn s) = true → mayDrive s = true → s.hop.closed = false → t.dev ≠ .parked))) ∧
  ∀ c : Capsule, c.isOp 0x20 = true → c.sub = 2 → Completes (.spinDown p c) s fun t => Executes s p c →
    t.hop.autoSpin = false ∧ t.hop.spinWait = false ∧
    (s.dev = .parked → Answered s t p c (goodStatus s p) 0 ∧ t.dev = .parked) ∧
    (s.dev = .ready → runs t c ∧ t.start.parkStep ≠ 0 ∧ (s.start.parkStep = 0 → (∃ d ∈ s.hop.cmds, dataOp d = true ∧ d.phase ≠ .issued ∧ d.arrival < a) → t.start.parkStep = 1))

/-- R381, R462, R497, R498, R582, R583, R640, Tables 18.8, 21.8: MICROCODE_WRITE begins at offset 0, with its target erased, or at the write point; COMMIT selects a bank that verifies and a copy
that validates with a higher GEN; each erase and program of the NVM ends, or the write fails. -/
def Obligations.MicrocodeAndImagesAreWritten : Prop := ∀ s : State, awake s = true →
  let a := s.hop.nextArrival
  let runs (t : State) (c : Capsule) : Prop := (cmdOf t a).any (fun d => d.cap = c && d.phase = .running && decide (d.granted = 0)) = true
  let bank (p : Port) (c : Capsule) (t : State) : Prop :=
    let off := c.lba.toNat
    (off ≠ 0 → s.fls.ucodeWrite ≠ some off → Answered s t p c 0x11 32 ∧ t.fls = s.fls) ∧
    (off ≠ 0 → s.fls.ucodeWrite = some off → runs t c ∧ t.fls = s.fls) ∧
    (off = 0 → runs t c ∧ t.fls.ucodeWrite = some 0 ∧ t.fls.ucodePending = false ∧ t.fls.ucodeB = s.fls.ucodeB ∧
      ∀ x ∈ t.fls.sectors, ∀ r, regionOf s (otherBank s) = some r → ¬ (16 * regionBase s (otherBank s) ≤ x.1 ∧ x.1 < 16 * (regionBase s (otherBank s) + r.blocks * pagesPer r)))
  let copy (p : Port) (c : Capsule) (t : State) : Prop :=
    let off := c.lba.toNat
    (off ≠ 0 → s.nvm.writePoint ≠ some off → Answered s t p c 0x11 32 ∧ t.nvm = s.nvm) ∧
    (off ≠ 0 → s.nvm.writePoint = some off → runs t c ∧ t.nvm.serving = some a ∧ t.nvm.busy = s.nvm.busy) ∧
    (off = 0 → runs t c ∧ t.nvm.writePoint = some 0 ∧ t.nvm.busy = true ∧ t.nvm.erasing = true ∧ t.nvm.serving = some a ∧ t.nvm.blocks = s.nvm.blocks)
  (∀ p : Port,
    (∀ c : Capsule, c.isOp 0x40 = true → c.sub = 0 → c.arg32.getLsbD 2 = false → Completes (.ucodeBankWrite p c) s fun t => Executes s p c → bank p c t) ∧
    (∀ ok version, ∀ c : Capsule, c.isOp 0x40 = true → c.sub = 0 → c.arg32.getLsbD 2 = true → Completes (.ucodeBankCommit p c ok version) s fun t => Executes s p c → bank p c t ∧
      (c.lba = 0 → (cmdOf t a).any (fun d => d.verdict == some (ok, version)) = true)) ∧
    (∀ c : Capsule, c.isOp 0x40 = true → c.sub = 1 → c.arg32.getLsbD 2 = false → Completes (.imageCopyWrite p c) s fun t => Executes s p c → copy p c t) ∧
    ∀ c : Capsule, c.isOp 0x40 = true → c.sub = 1 → c.arg32.getLsbD 2 = true → Completes (.imageCopyCommit p c) s fun t => Executes s p c → copy p c t) ∧
  Completes .nvmProgramDone s (fun t =>
    let base := copyBase (!s.img.copyB) / 4096
    let calm : Prop := s.nvm.serving = none
    let served := s.nvm.serving.bind fun n => cmdOf s n
    (s.nvm.busy = false → t = s) ∧
    (s.nvm.busy = true → s.nvm.erasing = true → calm → t.nvm.erasing = false ∧ t.nvm.busy = !s.nvm.toProgram.isEmpty ∧ (∀ x ∈ t.nvm.blocks, ¬ (base ≤ x.1 ∧ x.1 < base + 4096)) ∧
      ∀ x ∈ s.nvm.blocks, ¬ (base ≤ x.1 ∧ x.1 < base + 4096) → x ∈ t.nvm.blocks) ∧
    (s.nvm.busy = true → s.nvm.erasing = false → calm → ∀ b rest, s.nvm.toProgram = b :: rest → tabGet (BitVec.allOnes 32768) t.nvm.blocks b.1 = b.2 ∧ t.nvm.toProgram = rest ∧ t.nvm.busy = !rest.isEmpty) ∧
    ∀ d, served = some d → s.nvm.busy = true → d.cap.opcode = 0x40 → toImage d.cap = true → d.phase = .running → (s.nvm.toProgram = [] ∨ s.nvm.erasing = false ∧ s.nvm.toProgram.length = 1) → landedRun d = d.cap.count.toNat →
      (bitOf 2 d.cap.arg32.toNat = false → (cmdOf t d.arrival).any (fun e => e.phase = .issued) = true ∧
        .inl { tag := d.cap.tag, status := BitVec.ofNat 8 (b2n (deferredPending s d.port)), opcode := d.cap.opcode, arrival := BitVec.ofNat 40 d.arrival, info := 0 } ∈ (getHopPort t d.port).cpls) ∧
      (bitOf 2 d.cap.arg32.toNat = true → s.nvm.blocks = [] → s.nvm.toProgram = [] →
        .inl { tag := d.cap.tag, status := 0x11, opcode := d.cap.opcode, arrival := BitVec.ofNat 40 d.arrival, info := 176 } ∈ (getHopPort t d.port).cpls ∧ t.dev = s.dev ∧ t.img.pendingCommit = s.img.pendingCommit)) ∧
  Completes .nvmBusyTimeout s (fun t =>
    (s.nvm.busy = false → t = s) ∧
    (s.nvm.busy = true → t.nvm.busy = false ∧ t.nvm.writePoint = none ∧ t.nvm.toProgram = [] ∧ t.nvm.serving = none ∧ t.nvm.blocks = s.nvm.blocks) ∧
    ∀ d, (s.nvm.serving.bind fun n => cmdOf s n) = some d → s.nvm.busy = true → d.phase ≠ .issued →
      .inl { tag := d.cap.tag, status := 0x11, opcode := d.cap.opcode, arrival := BitVec.ofNat 40 d.arrival, info := 176 } ∈ (getHopPort t d.port).cpls)

/-- R389, R657, R660, R661: a challenge is fresh and serves one response; the HMAC of it under the fused key unlocks the path; three wrong responses in a row refuse it; STEP 2, the end of UNLOCK_TIME
and, on JTAG, Test-Logic-Reset lock it again.
The challenge is a free value (log entry 3). -/
def Obligations.UnlockIsByChallenge : Prop := ∀ s : State, awake s = true →
  let responds (path : Path) (r : BitVec 256) (t : State) : Prop :=
    let u := pathUnlock s path
    (u.challenge = none → pathUnlock t path = u) ∧
    ∀ x, u.challenge = some x →
      (responseOk s path x r = true → pathUnlock t path = { u with challenge := none, wrong := 0, until_ := some (now s + unlockTime s.img * oneSec) }) ∧
      (responseOk s path x r = false → (pathUnlock t path).challenge = none ∧ (pathUnlock t path).until_ = u.until_ ∧ t.idn.unlockFail = satInc 16 s.idn.unlockFail ∧
        (2 ≤ u.wrong → (pathUnlock t path).refused = some (now s) ∧ (pathUnlock t path).wrong = 0) ∧
        (u.wrong < 2 → (pathUnlock t path).refused = u.refused ∧ (pathUnlock t path).wrong = u.wrong + 1))
  (∀ p : Port,
    (∀ c : Capsule, c.isOp 0x41 = true → c.sub = 0 → Completes (.unlockChallenge p c) s fun t => Executes s p c →
      (refusing s (.port p) = true → Answered s t p c 0x60 (refusalLeft s (.port p)) ∧ t.diag.unlockA = s.diag.unlockA ∧ t.diag.unlockB = s.diag.unlockB) ∧
      (refusing s (.port p) = false → pathUnlock t (.port p) = { pathUnlock s (.port p) with challenge := (pathUnlock t (.port p)).challenge, key := unlockKey s } ∧
        ((pathUnlock t (.port p)).challenge).isSome = true ∧ t.free ≠ s.free ∧
        ∀ x, (pathUnlock t (.port p)).challenge = some x → Replies s t p c [x.setWidth 32768] 0)) ∧
    (∀ c : Capsule, c.isOp 0x41 = true → c.sub = 1 → Completes (.unlockResponse p c) s fun t => Executes s p c →
      (refusing s (.port p) = true → Answered s t p c 0x60 (refusalLeft s (.port p)) ∧ pathUnlock t (.port p) = pathUnlock s (.port p)) ∧
      (refusing s (.port p) = false → responds (.port p) c.argx t ∧
        (((pathUnlock s (.port p)).challenge.any fun x => responseOk s (.port p) x c.argx) = true → Answered s t p c (goodStatus s p) 0) ∧
        (((pathUnlock s (.port p)).challenge.any fun x => responseOk s (.port p) x c.argx) = false → Answered s t p c 0x60 (refusalLeft t (.port p))))) ∧
    ∀ c : Capsule, c.isOp 0x41 = true → c.sub = 2 → Completes (.unlockLock p c) s fun t => Executes s p c →
      (refusing s (.port p) = true → Answered s t p c 0x60 (refusalLeft s (.port p)) ∧ pathUnlock t (.port p) = pathUnlock s (.port p)) ∧
      (refusing s (.port p) = false → pathUnlock t (.port p) = { pathUnlock s (.port p) with until_ := none } ∧ Answered s t p c (goodStatus s p) 0)) ∧
  (∀ path, Completes (.unlockExpiry path) s fun t => pathUnlock t path = { pathUnlock s path with until_ := none }) ∧
  (∀ path, Completes (.unlockRefusalEnd path) s fun t => pathUnlock t path = { pathUnlock s path with refused := none }) ∧
  (let acts : Prop := jtagClocked s = true ∧ refusing s .jtag = false
   Completes .jtagUnlockChallenge s (fun t => (¬ acts → t.diag.unlockJ = s.diag.unlockJ) ∧
      (acts → t.diag.unlockJ = { s.diag.unlockJ with challenge := t.diag.unlockJ.challenge, key := unlockKey s } ∧ t.diag.unlockJ.challenge.isSome = true ∧ t.free ≠ s.free)) ∧
    (∀ r, Completes (.jtagUnlockResponse r) s fun t => (¬ acts → t.diag.unlockJ = s.diag.unlockJ) ∧ (acts → responds .jtag r t)) ∧
    Completes .jtagUnlockLock s (fun t => (¬ acts → t.diag.unlockJ = s.diag.unlockJ) ∧ (acts → t.diag.unlockJ = { s.diag.unlockJ with until_ := none }))) ∧
  Completes .tapReset s (fun t => t.diag.unlockJ = { s.diag.unlockJ with until_ := none } ∧ t.diag.jtagIr = 0x02 ∧ t.diag.bscanDrives = false)

/-- R27, R31, R434, R437 to R440, R442 to R444, Tables 14.3, 14.4: margins are judged, and an exhausted one has its response; a value moves by at most its step, within its limits, and is committed to
the plan store before its unit has it; daily points are kept, and the horizon follows; lanes and the core voltage follow their eyes and their slack. A channel visit confirms or restores the set adopted last,
or adopts the candidate where it is better; a calibration visit replaces its pair of values.
What the margins' series, the probe levels and the ranks of waiting values are follows the model's choices (log entry 44). -/
def Obligations.FantailRePlans : Prop := ∀ s : State, awake s = true →
  let old (k : Nat) (l : Loc) := (committed s k l).1
  let new (k : Nat) (l : Loc) (want : Int) := stepTo s k (imageVal s k l).1 (old k l) want
  let kept (k : Nat) (l : Loc) (v : Int) (t : State) : Prop := (∃ x ∈ t.fan.plan, x.kind = k ∧ x.loc = l ∧ x.value = v) ∧ t.fan.planDigest = s.img.digest ∧ t.fan.replans = satInc 16 s.fan.replans ∧
    (k ≤ 8 → ∃ x ∈ t.fan.due, x.kind = k ∧ x.loc = l ∧ x.value = v) ∧ (k = 9 → t.pwr.target = v.toNat)
  let moved (k : Nat) (l : Loc) (want : Int) (t : State) : Prop := (new k l want ≠ old k l → kept k l (new k l want) t) ∧ (new k l want = old k l → (committed s k l).2 = 0 → t.fan.plan = s.fan.plan ∧ t.pwr = s.pwr) ∧
    ((limitsOf s k (imageVal s k l).1).1 ≤ (limitsOf s k (imageVal s k l).1).2 →
      (limitsOf s k (imageVal s k l).1).1 ≤ new k l want ∧ new k l want ≤ (limitsOf s k (imageVal s k l).1).2)
  (∀ loops eyes, Completes (.hourlyEvaluation loops eyes) s fun t =>
    let chan (p : Nat) : Int := if (getChan s p).trained then ((eyes.toList.getD p 0).toNat : Int) else (getChan s p).margin
    let lowEye (p : Nat) : Prop := (getChan s p).role = 1 ∧ marginOf s .millpondEye { zone := p } (chan p) < 0
    let heads := (allHeads s).filter fun n => (getCtx s (72 + n)).enable && !(getHead s n).failed
    let lowHeater (n : Nat) : Prop := marginOf s .heater { arm := n / 8, head := n % 8, zone := (getHead s n).zone } (heaterNeed s n) < 0
    let quiet : Prop := (∀ p < 9, ¬ lowEye p) ∧ (∀ n ∈ heads, ¬ lowHeater n) ∧ s.fan.iters = [] ∧ s.fan.kts = []
    (fantailHalted s = true → t = s) ∧
    (fantailHalted s = false →
      t.fan.iters = [] ∧ t.fan.checks = [] ∧ t.fan.kts = [] ∧
      (∀ p < 9, (getChan t p).margin = chan p) ∧
      (∀ n ∈ heads, lowHeater n → HeadDeclared n s t) ∧
      (∀ p < 9, lowEye p → (∀ q < 9, q ≠ p → ¬ lowEye q) → s.mpd.state = 2 → s.mpd.spare < 9 → s.mpd.spare ≠ p → physOf s (getChan s p).logical = some p →
        t.mpd.state = 3 ∧ t.mpd.migLogical = (getChan s p).logical ∧ (getChan t p).role = 3) ∧
      (s.fan.kts = [] → ∀ k c, s.fan.iters = [(k, c)] →
        if 0 < c.sum ∧ headFitted s.img (k / 64) = true then moved 1 (visitLoc (k / 64) (k % 64)) (iterWant c) t else t.fan.plan = s.fan.plan) ∧
      (s.fan.iters = [] → ∀ a r, s.fan.kts = [(a, r)] →
        let l : Loc := { arm := a }
        let want := if r ≤ 0 then (imageVal s 8 l).1 else roundHalfUp (((imageVal s 8 l).1 * 32768 : Int) / r)
        if 50 * (want - old 8 l).natAbs ≤ (old 8 l).natAbs then t.fan.plan = s.fan.plan else moved 8 l want t) ∧
      (quiet → loops = [] → t.dev = s.dev ∧ t.fan.plan = s.fan.plan ∧ t.fan.exhausted = s.fan.exhausted ∧ t.fan.watch = s.fan.watch) ∧
      (quiet → ∀ n m, loops = [(n, m)] →
        let l : Loc := if n.val < 8 then { arm := n.val } else { arm := ctxArm n.val, head := (n.val - 8) % 8 }
        let low : Prop := m < pmMin s.img
        (low → lawAtLimit s l = true → t.fan.exhausted = (if (4, l) ∈ s.fan.spent then s.fan.exhausted else satInc 16 s.fan.exhausted) ∧ (4, l) ∈ t.fan.spent ∧ t.fan.watch = s.fan.watch) ∧
        (low → lawAtLimit s l = false → t.fan.exhausted = s.fan.exhausted ∧ (l, now s) ∈ t.fan.watch) ∧
        (¬ low → t.fan.exhausted = s.fan.exhausted ∧ (4, l) ∉ t.fan.spent ∧ t.fan.watch = s.fan.watch)))) ∧
  (∀ (arm : Fin 8) o v, opOf s arm = some o → o.visit = some v → opDone s arm o = true → fantailHalted s = false →
    Completes (.islandGateOff arm) s fun t =>
      opOf t arm = none ∧ t.fan.visits = satInc 16 s.fan.visits ∧ tabGet 0 t.fan.visitAt (visitKey arm v) = now s ∧
      ∀ h < 8, o.heads = [h] → (getHead s (8 * arm.val + h)).failed = false →
        let l : Loc := { arm := arm.val, head := h, zone := v.zone }
        let q (k : Nat) : VisitSum := tabGet {} o.sums (64 * h + k)
        let better (x y : VisitSum) : Prop := 2048 ≤ x.words ∧ 2048 ≤ y.words ∧ 100 * x.iters * y.words ≤ 97 * y.iters * x.words ∧ x.fails ≤ y.fails ∧ x.sum * y.count ≤ y.sum * x.count
        let put (k : Nat) (x : Int) (t : State) : Prop := ∃ y ∈ t.fan.plan, y.kind = k ∧ y.loc = l ∧ y.value = x
        let stays (k : Nat) (t : State) : Prop := t.fan.plan.find? (sameLoc k l) = s.fan.plan.find? (sameLoc k l)
        let cm := marginOf s .cm l (((q 0).sum : Rat) / (2 * (q 0).count))
        (v.kind = 0 → (q 0).count ≠ 0 → cm < 0 → HeadDeclared (8 * arm.val + h) s t) ∧
        (v.kind = 0 → (q 0).count = 0 ∨ 0 ≤ cm → (q 0).words ≠ 0 → (q 1).words ≠ 0 → (s.fan.due.any fun x => x.kind = 0 && x.loc = l) = false →
          (l ∈ s.fan.confirm → l ∉ t.fan.confirm ∧
            (better (q 0) (q 1) → stays 0 t) ∧ (¬ better (q 0) (q 1) → put 0 (chanSet s.img (8 * arm.val + h) v.zone 3) t)) ∧
          (l ∉ s.fan.confirm → ∀ c, s.fan.cands.find? (fun c => c.1 = l) = some c →
            let set := candidateSet c.2 (imageVal s 0 l).1.toNat
            (∀ x ∈ t.fan.cands, x.1 ≠ l) ∧ (¬ better (q 1) (q 0) → stays 0 t) ∧
            (better (q 1) (q 0) → chanLimits set (imageVal s 0 l).1.toNat = true → set ≠ (old 0 l).toNat → put 0 set t ∧ l ∈ t.fan.confirm))) ∧
        (v.kind = 2 → ∀ c, o.cals.find? (fun c => c.1 = h) = some c → (100 < (c.2.2 - (imageVal s 5 l).2).natAbs → stays 5 t) ∧
          ((c.2.2 - (imageVal s 5 l).2).natAbs ≤ 100 → c.2 ≠ committed s 5 l → put 5 c.2.1 t))) ∧
  (∀ kind loc value second phaseMargin, Completes (.replan kind loc value second phaseMargin) s fun t =>
    (fantailHalted s = true → t = s) ∧
    (fantailHalted s = false →
      (kind = .channelSet → t.fan = { s.fan with cands := s.fan.cands.filter (fun c => c.1 ≠ loc) ++ [(loc, value.toNat)] }) ∧
      (kind = .hrCal → (100 < (second - (imageVal s 5 loc).2).natAbs → t = s) ∧
        ((second - (imageVal s 5 loc).2).natAbs ≤ 100 → (value, second) ≠ committed s 5 loc → kept 5 loc value t ∧ ∃ x ∈ t.fan.plan, x.kind = 5 ∧ x.loc = loc ∧ x.second = second)) ∧
      (kind = .clr → t.fan.plan = s.fan.plan ∨ ∃ x ∈ t.fan.plan, x.kind = 4 ∧ x.loc = loc ∧ x.value = new 4 loc (min value (old 4 loc)) ∧ x.value ≤ max (old 4 loc) (limitsOf s 4 (imageVal s 4 loc).1).1) ∧
      (kind = .notch → 50 * (value - old 6 loc).natAbs ≤ old 6 loc → t = s) ∧
      (kind = .lawGain ∨ (kind = .notch ∧ old 6 loc < 50 * (value - old 6 loc).natAbs) → (phaseMargin < pmMin s.img → t = s) ∧ (pmMin s.img ≤ phaseMargin → moved (planNum kind) loc value t)) ∧
      (kind = .vdd → let may : Prop := s.pwr.avsFault = false ∧ (s.pwr.target ≤ value ∨ s.dev = .ready ∨ s.dev = .parked ∨ s.dev = .standby)
        (¬ may → t = s) ∧ (may → moved 9 {} value t)) ∧
      (kind = .lanePreset → (laneSpareOk s loc = false → t = s) ∧ (laneSpareOk s loc = true → moved 10 loc value t)) ∧
      (kind = .iterMax ∨ kind = .rdOfs ∨ kind = .opI ∨ kind = .kff → moved (planNum kind) loc value t))) ∧
  (∀ day, Completes (.horizonCompute day) s fun t =>
    let point (k : Nat) (l : Loc) (v : Int) (n : Nat) : Prop := ∃ x ∈ t.fan.trends, x.kind = k ∧ x.loc = l ∧ x.points.getLast? = some (day, satInt 32 v, min 32767 n)
    let short : Prop := ∀ x ∈ s.fan.trends, x.points.length < 128
    (fantailHalted s = true → t = s) ∧
    (fantailHalted s = false → t.fan.computed = day % 65536 ∧ t.fan.today = [] ∧ (worstSeries t (day % 65536) = none → t.fan.days = 65535) ∧
      (∀ w, worstSeries t (day % 65536) = some w → t.fan.days = min 65534 w.1 ∧ t.fan.kind = w.2.kind % 16) ∧
      (short → (s.fan.today.map fun p => (p.1, p.2.1)).Nodup → ∀ p ∈ s.fan.today, p.2.2.2 ≠ 0 → ¬ (p.1 = 14 ∧ p.2.1 = {}) →
        point p.1 p.2.1 (roundHalfUp ((p.2.2.1 : Rat) / p.2.2.2)) p.2.2.2) ∧
      (short → (∀ p ∈ s.fan.today, ¬ (p.1 = 14 ∧ p.2.1 = {})) → point 14 {} (65536 * erasesLeft s) 1) ∧
      t.fan.exhausted = (if erasesLeft s < 0 ∧ (10, {}) ∉ s.fan.spent then satInc 16 s.fan.exhausted else s.fan.exhausted))) ∧
  Completes .windingREstimate s (fun t =>
    (fantailHalted s = true → t = s) ∧
    (fantailHalted s = false → t.spc.rSum = 0 ∧ t.spc.rCount = 0 ∧
      t.spn.rEst = (if s.spc.rCount = 0 then s.spn.rEst else min 65535 (roundHalfUp (10000 * s.spc.rSum / s.spc.rCount)).toNat))) ∧
  Completes .slackPeriodEval s (fun t =>
    let judged : Prop := fantailHalted s = false ∧ s.fan.slackSeen = true
    let settled : Prop := s.dev = .ready ∨ s.dev = .parked ∨ s.dev = .standby
    (¬ judged → t = s) ∧
    (judged → t.fan.slackSeen = false) ∧
    (judged → s.fan.slackLow < slackMin s.img → (850 ≤ s.pwr.target → s.fan.coreStop = false → t.hop.closed = true ∧ t.hop.stopCause = 0xB3) ∧
      (s.pwr.target < 850 → s.pwr.avsFault = false → t.pwr.target = (new 9 {} (s.pwr.target + 5)).toNat) ∧ (s.pwr.target < 850 → s.pwr.avsFault = true → t.pwr = s.pwr)) ∧
    (judged → (slackMin s.img : Int) ≤ s.fan.slackLow → s.fan.slackLow ≤ (slackMin s.img : Int) + 20 → t.pwr = s.pwr ∧ t.fan.slackHighSince = none) ∧
    (judged → (slackMin s.img : Int) + 20 < s.fan.slackLow → (s.fan.slackHighSince = none → t.fan.slackHighSince = some (now s) ∧ t.pwr = s.pwr) ∧
      ∀ x, s.fan.slackHighSince = some x → t.fan.slackHighSince = some x ∧
        ((86400 * oneSec ≤ since s x ∧ s.pwr.avsFault = false ∧ settled → t.pwr.target = (new 9 {} ((s.pwr.target : Int) - 5)).toNat) ∧
        (¬ (86400 * oneSec ≤ since s x ∧ s.pwr.avsFault = false ∧ settled) → t.pwr = s.pwr)))) ∧
  ∀ l lane eyeH eyeV, Completes (.laneEyeEval l lane eyeH eyeV) s fun t =>
    (∀ k, l = .inl k → fantailHalted s = true ∨ eyeMin s.img + 16 ≤ eyeH →
      (tabGet ({} : LaneErr) (getLink t k.num).lanes lane).eyeH = min 255 eyeH ∧ (tabGet ({} : LaneErr) (getLink t k.num).lanes lane).eyeV = min 255 eyeV ∧ t.fan = { s.fan with today := t.fan.today, spent := t.fan.spent }) ∧
    (∀ a, l = .inr a → fantailHalted s = true ∨ eyeMin s.img + 16 ≤ eyeH →
      (tabGet ({} : LaneErr) (getAlk t a).lanes lane).eyeH = min 255 eyeH ∧ (tabGet ({} : LaneErr) (getAlk t a).lanes lane).eyeV = min 255 eyeV ∧ t.fan = { s.fan with today := t.fan.today, spent := t.fan.spent }) ∧
    (fantailHalted s = false → eyeH < eyeMin s.img + 16 →
      let loc : Loc := Sum.elim (fun k => { head := k.num, zone := lane }) (fun a => { arm := a.val, zone := lane }) l
      (atLimit s 10 loc = true → eyeH < eyeMin s.img → t.fan.exhausted = (if (6, loc) ∈ s.fan.spent then s.fan.exhausted else satInc 16 s.fan.exhausted) ∧ t.fan.plan = s.fan.plan) ∧
      (atLimit s 10 loc = false ∨ eyeMin s.img ≤ eyeH → (laneSpareOk s loc = false → t.fan = { s.fan with today := t.fan.today, spent := t.fan.spent }) ∧
        (laneSpareOk s loc = true → t.free = s.free + 1 ∧ (t.fan.plan = s.fan.plan ∨ kept 10 loc (new 10 loc (old 10 loc + 1)) t ∨ kept 10 loc (new 10 loc (old 10 loc - 1)) t))))

/-- R305, R452, R454, R456, R458, R461, Table 15.3: a part shows its heartbeat while it is served; a standby judges its partner's signals, and takes over when it is SYNCED and ACTIVE_IN is deasserted,
with the mirror as its write cache; otherwise it stays. A gap of the heartbeat counts once, when it first exceeds 50 µs (log entry 51).
What a fall of ACTIVE_IN means while a handover is announced is the model's reading (log entry 35). -/
def Obligations.StandbysTakeOver : Prop := ∀ s : State, awake s = true →
  let can : Prop := s.dev = .standby ∧ s.ptn.role = 2 ∧ s.ptn.synced = true ∧ s.ptn.withheld = false
  let took (planned : Bool) (t : State) : Prop :=
    ((∃ a ∈ armList s, alkUp s a = false) → s.flt.stopStep = 0 → t.hop.closed = true ∧ t.hop.stopCause = 0x7E) ∧
    ((∀ a ∈ armList s, alkUp s a = true) → t.dev = .takeover ∧ t.ptn.role = 1 ∧ t.ptn.activeOut = true ∧ t.ptn.synced = planned ∧ t.ptn.resumed = false ∧ t.rows = [] ∧
      t.ptn.takeovers = (if planned then s.ptn.takeovers else satInc 16 s.ptn.takeovers) ∧
      (let landed := s.mpd.ledger.filter fun e => landedEntry e.2
       t.mpd.ledger = (landed.filter fun e => landed.all fun x => !(x.2.lba == e.2.lba && seqLt e.2.vseq x.2.vseq)).map fun e =>
         (e.1, { e.2 with state := 1, acked := landed.any fun x => x.2.lba == e.2.lba && x.2.acked, mirrored := planned })))
  let stays (t : State) : Prop := t.dev = s.dev ∧ t.ptn.role = s.ptn.role ∧ t.ptn.activeOut = s.ptn.activeOut ∧ t.mpd = s.mpd
  let judged (edges : List Nat) (frames activeIn : Bool) (t : State) : Prop :=
    let toggles : Bool := !edges.isEmpty
    let counted (longs : List Bool) : Nat := satAdd 16 s.ptn.hbGaps (longs.filter id).length
    let row := if !toggles && !frames then (if activeIn then 2 else 1) else if toggles && !frames then 3 else if !toggles then 4 else 0
    t.ptn.hbInOk = toggles ∧
    (s.ptn.hbGaps < 2 ^ 16 → edges = [] → t.ptn.hbGap = s.ptn.hbGap + 200000 ∧ t.ptn.hbGaps = counted [!s.ptn.gapSeen && decide (50000 < s.ptn.hbGap + 200000)]) ∧
    (s.ptn.hbGaps < 2 ^ 16 → ∀ x, edges = [x] → x ≤ 200000 → t.ptn.hbGap = 200000 - x ∧
      t.ptn.hbGaps = counted [!s.ptn.gapSeen && decide (50000 < s.ptn.hbGap + x), decide (50000 < 200000 - x)]) ∧
    (row = 1 → s.ptn.seen ≠ 1 → can → took false t) ∧ (row = 1 → s.dev = .standby → s.ptn.role = 2 → ¬ can → stays t) ∧ (row = 2 ∨ row = 4 ∨ row = 0 → s.dev = .standby → s.ptn.role = 2 → stays t ∧ t.ptn.synced = s.ptn.synced) ∧
    (row = 3 → s.dev = .standby → s.ptn.role = 2 → stays t ∧ t.ptn.synced = false) ∧ (s.ptn.role = 1 → frames = false → t.ptn.synced = false) ∧ (row ≠ 1 ∨ s.dev ≠ .standby → t.ptn.seen = row)
  let lost (t : State) : Prop := (can → t.ptn.activeIn = false → took false t) ∧ (s.dev = .standby → s.ptn.role = 2 → ¬ can → stays t)
  (∀ served, Completes (.heartbeatTick served) s fun t =>
    let fresh : Prop := since s (if served then now s else s.ptn.servedAt) ≤ 100000
    (ptnOn s = false → t = s) ∧
    (ptnOn s = true → s.dev ≠ .stopped → s.flt.stopStep = 0 → fresh → t.ptn.hbOn = true ∧ t.ptn.hbOut = !s.ptn.hbOut ∧
      (s.ptn.role ≠ 0 → ToPartner (.heartbeat (decide (s.ptn.role = 2)) (BitVec.ofNat 8 (devCode s.dev)) (BitVec.ofNat 64 (devTime s)) (BitVec.ofNat 32 (dirtyFrames s))) t)) ∧
    (ptnOn s = true → s.dev = .stopped ∨ s.flt.stopStep ≠ 0 ∨ ¬ fresh → t.ptn.hbOut = s.ptn.hbOut ∧ t.ptn.hbOn = false ∧
      (s.ptn.hbOn = true → s.flt.stopStep = 0 → t.ptn.activeOut = false ∧ t.spc.gates = false) ∧ (s.flt.stopStep ≠ 0 → t.ptn.activeOut = s.ptn.activeOut ∧ t.spc.gates = s.spc.gates))) ∧
  (∀ standby state time dirty, Completes (.heartbeat standby state time dirty) s fun t =>
    (ptnOn s = false → t = s) ∧
    (ptnOn s = true → t.ptn.peerHb = some (standby, state, time, dirty) ∧ t.ptn.heard = true ∧ (s.ptn.alone = true → ToPartner (.arbitrate (arbRec s)) t) ∧
      (s.ptn.alone = false → s.ptn.role = 2 → s.dev = .standby → s.ptn.synced = false → s.ptn.asked = false → t.ptn.asked = true ∧ t.mpd.ledger = [] ∧ ToPartner (.resync 0 0) t))) ∧
  (∀ g f i, Completes (.partnerWindow g f i) s fun t => (ptnOn s = false → t = s) ∧ (ptnOn s = true → judged g f i t)) ∧
  (∀ g f i, Completes (.partnerHungRecheck g f i) s fun t => (ptnOn s = false ∨ s.ptn.seen ≠ 2 → t = s) ∧ (ptnOn s = true → s.ptn.seen = 2 → judged g f i t)) ∧
  Completes .activeInFall s (fun t => (ptnOn s = false → t = s) ∧ (ptnOn s = true → t.ptn.activeIn = false ∧
    (s.ptn.released = true ∨ s.ptn.requested = true → stays t) ∧ (s.ptn.released = false → s.ptn.requested = false → lost t))) ∧
  (∀ cause, Completes (.ptnFailstop cause) s fun t => (ptnOn s = false ∨ s.dev ≠ .standby → t = s) ∧
    (ptnOn s = true → s.dev = .standby → (cause = 0xC6 → t.ptn.withheld = true ∧ stays t) ∧ (cause ≠ 0xC6 → s.ptn.activeIn = true → stays t) ∧ (cause ≠ 0xC6 → s.ptn.activeIn = false → lost t))) ∧
  (∀ reason, Completes (.handoverReleased reason) s fun t => (ptnOn s = false ∨ s.dev ≠ .standby ∨ s.ptn.role ≠ 2 → t = s) ∧
    (ptnOn s = true → s.dev = .standby → s.ptn.role = 2 → t.ptn.handoverReason = reason ∧ (s.ptn.synced = true → took true t) ∧ (s.ptn.synced = false → stays t ∧ t.ptn.released = true))) ∧
  Completes .takeoverResume s (fun t =>
    let may : Prop := s.dev = .takeover ∧ s.ptn.resumed = false ∧ ∀ a ∈ armList s, (getArm s a).flags.getLsbD 2 = true
    (¬ may → t = s) ∧ (may → t.ptn.resumed = true ∧ ∀ a ∈ armList s, (getArm t a).loadDue = some (now s) ∧ (getArm t a).attempts = 0 ∧ 3 ∈ (getArm t a).due))

/-- R455, R595, R643, R667, Table 15.4: arbitration takes the first row that applies; equal ROLE straps stop the part before any row; a part that was alone keeps its role, or yields it with strap 1 when
both were alone; a standby whose partner is in Configuring again arbitrates again (log entry 51). -/
def Obligations.ArbitrationSettlesTheRole : Prop := ∀ s : State, awake s = true →
  let active (alone : Bool) (t : State) : Prop := t.ptn.role = 1 ∧ t.ptn.activeOut = true ∧ t.ptn.alone = alone ∧ (t.dev = .parked ∨ t.dev = .spinningUp)
  let standby (t : State) : Prop := t.dev = .standby ∧ t.ptn.role = 2 ∧ t.ptn.alone = false ∧ t.ptn.synced = false ∧ t.ptn.asked = true ∧ t.mpd.ledger = []
  (∀ r, Completes (.arbitrate r) s fun t =>
    let takes : Prop := ptnOn s = true ∧ s.dev ≠ .unconfigured ∧ s.dev ≠ .stopped
    let settles : Prop := takes ∧ r.role ≠ s.pwr.role ∧ s.dev = .configuring ∧ s.start.step = 10 ∧ s.ptn.role = 0 ∧ s.flt.stopStep = 0
    let differs : Prop := r.compat ≠ s.img.compat
    (¬ takes → t = s) ∧ (takes → t.ptn.peer = some r ∧ t.ptn.heard = true) ∧
    (takes → r.role = s.pwr.role → s.dev = .configuring ∨ s.dev = .parked ∨ s.dev = .standby → s.flt.stopStep = 0 → t.dev = .stopped ∧ t.hop.stopCause = 0x8E) ∧
    (takes → r.role ≠ s.pwr.role → s.dev = .holdUp ∨ (s.dev = .configuring ∧ s.start.step ≠ 10) → t = { s with ptn := { s.ptn with heard := true, peer := some r } }) ∧
    (settles → differs → peerActive s r = true ∨ s.pwr.role = true → t.dev = .stopped ∧ t.hop.stopCause = 0x8A) ∧
    (settles → ¬ differs → peerActive s r = true → standby t) ∧
    (settles → ¬ differs → peerActive s r = false → r.state.toNat = devCode .stopped → active false t) ∧
    (settles → ¬ differs → peerActive s r = false → r.state.toNat ≠ devCode .stopped → (s.pwr.role = false → active false t) ∧ (s.pwr.role = true → standby t)) ∧
    (takes → r.role ≠ s.pwr.role → s.dev ≠ .configuring → s.dev ≠ .holdUp → s.ptn.role = 1 → s.ptn.alone = true → s.ptn.activeIn = true → s.pwr.role = true → ¬ differs → standby t ∧ t.ptn.activeOut = false) ∧
    (takes → r.role ≠ s.pwr.role → s.dev ≠ .configuring → s.dev ≠ .holdUp → s.ptn.role = 1 → s.ptn.alone = false ∨ s.ptn.activeIn = false ∨ s.pwr.role = false →
      t.dev = s.dev ∧ t.ptn.role = 1 ∧ t.ptn.activeOut = s.ptn.activeOut ∧ t.ptn.alone = false ∧ t.ptn.synced = false ∧ (r.state.toNat = devCode .configuring → ToPartner (.arbitrate (arbRec s)) t)) ∧
    (takes → r.role ≠ s.pwr.role → s.dev ≠ .configuring → s.dev ≠ .holdUp → s.ptn.role = 2 →
      let again : Prop := s.dev = .standby ∧ r.state.toNat = devCode .configuring ∧ peerActive s r = false
      (¬ again → t.dev = s.dev ∧ t.ptn.role = 2 ∧ t.ptn.synced = s.ptn.synced) ∧
      (again → s.pwr.role = true → t.ptn.synced = false ∧ (¬ differs → t.dev = .standby ∧ t.ptn.role = 2 ∧ t.ptn.withheld = false) ∧
        (differs → s.flt.stopStep = 0 → t.dev = .stopped ∧ t.hop.stopCause = 0x8A)) ∧
      (again → s.pwr.role = false → active false t ∧ t.ptn.synced = false ∧ t.mpd.ledger = []))) ∧
  Completes .arbitrationTimeout s (fun t =>
    let due : Prop := ptnOn s = true ∧ s.dev = .configuring ∧ s.start.step = 10 ∧ s.ptn.heard = false
    (¬ due → t = s) ∧ (due → active true t)) ∧
  Completes .stoppedArbitrateTick s (fun t =>
    let due : Prop := s.dev = .stopped ∧ linkUp s 2 = true ∧ ptnOn s = true
    (¬ due → t = s) ∧ (due → ToPartner (.arbitrate (arbRec s)) t))

/-- R296, R303, R304, R306, R377, R399, R441, R449, R450, R457, R470: the standby keeps what the active part sends it, in its own ledger, contexts, layout and plan, and confirms a block whose parts and
entry are here; a resync sends everything again; a lost frame is fetched from the other part.
The places of the fields of LAYOUT and PLAN records are the model's choice (log entry 36). -/
def Obligations.TheMirrorIsKept : Prop := ∀ s : State, awake s = true →
  let keeps : Prop := mirrors s = true
  let takes : Prop := takesDump s = true
  (∀ frame fib data, Completes (.mdata frame fib data) s fun t =>
    let f := frame.toNat
    let may : Prop := f < 1048576 ∧ keeps
    let old := (s.hold.inbound.find? fun x => x.1 = f).getD (f, 0, 0)
    let whole : Prop := tabGet 0 s.mpd.parts f ||| (1 <<< fib.toNat) = 0xFF
    (¬ may → ¬ (f < 1048576 ∧ takes) → t = s) ∧
    (¬ keeps → takes → f < 1048576 → t.mpd = s.mpd ∧ t.hold.inbound = s.hold.inbound.filter (fun x => x.1 ≠ f) ++ [(f, old.2.1 ||| (1 <<< fib.toNat), putPart fib.toNat data old.2.2)]) ∧
    (may → partOf (getFrame t f) fib.toNat = data ∧ (tabGet 0 s.mpd.parts f ≠ 0 ∨ (getEntry s f).valid = true → ∀ k : Fin 8, k.val ≠ fib.toNat → partOf (getFrame t f) k.val = partOf (getFrame s f) k.val) ∧
      (¬ (keeps ∧ whole ∧ landedEntry (getEntry s f) = true) → tabGet 0 t.mpd.parts f = tabGet 0 s.mpd.parts f ||| (1 <<< fib.toNat)) ∧
      (keeps → whole → landedEntry (getEntry s f) = true → ToPartner (.confirm [f]) t ∧ tabGet 0 t.mpd.parts f = 0))) ∧
  (∀ es, Completes (.ment es) s fun t =>
    (¬ keeps → ¬ takes → t = s) ∧
    (keeps → ∀ e, es = [e] →
      let f := e.frame.toNat
      (e.valid = false ∨ 4 ≤ e.state.toNat → (getEntry t f).valid = false ∧ getFrame t f = 0) ∧
      (e.valid = true → e.state.toNat < 4 → getEntry t f = e ∧ seqLt e.vseq (BitVec.ofNat 40 t.hop.nextArrival) = true ∧
        (tabGet 0 s.mpd.parts f = 0xFF → landedEntry e = true → ToPartner (.confirm [f]) t ∧ tabGet 0 t.mpd.parts f = 0))) ∧
    (¬ keeps → takes → ∀ e, es = [e] →
      let f := e.frame.toNat
      let here := s.hold.inbound.find? fun x => x.1 = f
      let newer : Prop := ∃ x ∈ entriesOf s e.lba.toNat, seqLt x.2.vseq e.vseq = false
      (e.valid = false → t = s) ∧ (e.valid = true → here.any (fun x => x.2.1 = 0xFF) = false → e ∈ t.hold.missing ∧ t.mpd = s.mpd) ∧
      ∀ y, here = some y → e.valid = true → y.2.1 = 0xFF → (newer → t.mpd = s.mpd) ∧
        (¬ newer → freeFrame s ≠ none → ∃ p ∈ t.hold.replayed, p.2 = 2 ∧ getEntry t p.1 = { e with frame := BitVec.ofNat 20 p.1, state := 1, mirrored := false } ∧ getFrame t p.1 = y.2.2))) ∧
  (∀ frames, Completes (.confirm frames) s fun t => (s.ptn.role ≠ 1 → t = s) ∧
    (s.ptn.role = 1 → ∀ f ∈ frames, (getEntry s f.toNat).valid = true → (getEntry t f.toNat).mirrored = true ∨ (getEntry t f.toNat).valid = false)) ∧
  (∀ p tag arrival op lba count, Completes (.cmdCtx p tag arrival op lba count) s fun t =>
    (¬ keeps → t = s) ∧ (keeps → t.ptn.ctxs = s.ptn.ctxs.filter (fun x => x.arrival ≠ arrival) ++ [{ port := p.num, tag, arrival, opcode := op, lba, count }] ∧
      seqLt arrival (BitVec.ofNat 40 t.hop.nextArrival) = true)) ∧
  (∀ p r, Completes (.ptnCpl p r) s fun t => (¬ keeps → t = s) ∧
    (keeps → t.ptn.ctxs = s.ptn.ctxs.map fun x => if x.port = p.num ∧ x.arrival = r.arrival then { x with cpl := some r } else x) ∧
    (keeps → r.status.toNat ≤ 1 → ∀ x ∈ s.ptn.ctxs, x.port = p.num → x.arrival = r.arrival → x.opcode = 0x02 → ∀ e ∈ s.mpd.ledger, landedEntry e.2 = true →
      x.lba.toNat ≤ e.2.lba.toNat → e.2.lba.toNat < x.lba.toNat + x.count.toNat → seqLt e.2.vseq x.arrival = false → (e.1, { e.2 with acked := true }) ∈ t.mpd.ledger)) ∧
  (∀ p tag arrival, Completes (.cplAcked p tag arrival) s fun t => t.ptn.ctxs = s.ptn.ctxs.filter fun x => ¬ (x.port = p.num ∧ x.tag = tag ∧ x.arrival = arrival)) ∧
  (∀ row time, Completes (.ptnRowCommit row time) s fun t =>
    let out (e : LedgerEntry) : Prop := e.valid = true ∧ (e.state = 2 ∨ e.state = 3) ∧ e.row.toNat = row.toNat
    (¬ keeps → t = s) ∧ (keeps → ∀ e ∈ s.mpd.ledger, (out e.2 → (getEntry t e.1).valid = false ∧ getFrame t e.1 = 0) ∧
      ((∀ x ∈ s.mpd.ledger, x.1 = e.1 → ¬ out x.2) → getEntry t e.1 = getEntry s e.1 ∧ getFrame t e.1 = getFrame s e.1))) ∧
  (∀ r, Completes (.ptnLayout r) s fun t => (¬ keeps → ¬ takes → t = s) ∧
    (keeps ∨ takes → (∀ d, r = .defect d → (d.valid = true → d ∈ t.layout.defects) ∧ (d.valid = false → d ∉ t.layout.defects)) ∧ (∀ x, r = .run x → t.layout = if x.count = 0 then s.layout else enterRun s.img x s.layout) ∧
      (∀ a h, r = .failedHead a h → (a.val, h.val) ∈ t.layout.failedHeads ∧ (getHead t (8 * a.val + h.val)).failed = true) ∧
      (∀ a h q, r = .cursor a h q → ∀ b ∈ t.layout.rebuilds, b.state ≠ 0 → b.arm = a.val → b.head = h.val → b.cursor = q.toNat ∧ b.savedCursor = q.toNat) ∧
      (∀ a h q listed, r = .skipped a h q listed → ∀ b ∈ t.layout.rebuilds, b.state ≠ 0 → b.arm = a.val → b.head = h.val →
        (q.toNat ∈ b.skip ↔ listed = true) ∧ b.savedSkip = b.skip))) ∧
  (∀ r, Completes (.ptnPlan r) s fun t => (¬ keeps → t = s) ∧
    (keeps → r.trend = false → r.part < r.parts → r.parts ≠ 1 → s.fan.parts = [] → t.fan = { s.fan with parts := [r] }) ∧
    (keeps → r.trend = false → r.part = 0 → r.parts = 1 → r.kind = 11 → (r.loc.zone, r.second.toNat, [BitVec.ofInt 256 r.value]) ∈ t.fan.laws ∧ t.fan.planDigest = s.img.digest) ∧
    (keeps → r.trend = false → r.part = 0 → r.parts = 1 → r.kind ≠ 11 → t.fan.planDigest = s.img.digest ∧ ∃ x ∈ t.fan.plan, x.kind = r.kind ∧ x.loc = r.loc ∧ x.value = r.value ∧ x.second = r.second) ∧
    (keeps → r.trend = true → r.samples ≠ 0 → (∀ x ∈ s.fan.trends, x.points.length < 128) → ∃ x ∈ t.fan.trends, x.kind = r.kind ∧ x.loc = r.loc ∧ x.points.getLast? = some (r.day, satInt 32 r.value, min 32767 r.samples))) ∧
  (∀ r, Completes (.ptnDeferred r) s fun t =>
    let h := getHopPort s (b2n r.portB)
    let after := (getHopPort t (b2n r.portB)).deferred
    let counts : Prop := 1 ≤ r.count.toNat ∧ r.count.toNat ≤ 65536
    let covered (q : DeferredRec) : Prop := q.index = r.index ∨ (q.cause = r.cause ∧ q.arrival = r.arrival ∧ q.tag = r.tag ∧ r.lba.toNat ≤ q.lba.toNat ∧ q.lba.toNat + q.count.toNat ≤ r.lba.toNat + r.count.toNat)
    (¬ counts ∨ (¬ keeps ∧ ¬ takes) → t = s) ∧
    (counts → keeps → r ∈ after ∧ (∀ q ∈ h.deferred, ¬ covered q → q ∈ after) ∧ (∀ q ∈ after, q = r ∨ (q ∈ h.deferred ∧ ¬ covered q)) ∧ ((∀ q ∈ h.deferred, ¬ covered q) → after = h.deferred ++ [r])) ∧
    (counts → ¬ keeps → takes → h.deferred.length < 256 → ∃ q ∈ after, q.cause = 2 ∧ q.count = r.count ∧ q.lba = BitVec.allOnes 48 ∧ q.index.toNat = s.hop.nextDeferred % 2 ^ 32)) ∧
  (∀ frames, Completes (.resyncStart frames) s fun t =>
    (ptnOn s = false ∨ s.ptn.role ≠ 1 → t = s) ∧
    (ptnOn s = true → s.ptn.role = 1 → t.ptn.resyncs = satInc 16 s.ptn.resyncs ∧ ToPartner (.resync 1 (s.mpd.ledger.filter fun e => landedEntry e.2).length) t ∧
      (s.ptn.handStage = 0 → s.dev ≠ .ready → t.ptn.synced = true ∧ t.ptn.solo = false) ∧
      (∀ e ∈ s.mpd.ledger, landedEntry e.2 = true → ToPartner (.ment [e.2]) t ∧ ∀ k : Fin 8, ToPartner (.mdata e.1 k.val (partOf (getFrame s e.1) k.val)) t) ∧
      ∀ c ∈ s.hop.cmds, c.phase ≠ .issued → ToPartner (.cmdCtx c.port c.cap.tag (BitVec.ofNat 40 c.arrival) c.cap.opcode c.cap.lba c.cap.count) t)) ∧
  (∀ frames, Completes (.resyncDone frames) s fun t =>
    (¬ keeps → t = s) ∧ (keeps → t.ptn.synced = true ∧ t.ptn.asked = false ∧ t.ptn.resyncs = satInc 16 s.ptn.resyncs)) ∧
  (∀ frame vseq, Completes (.fetchRequest frame vseq) s fun t =>
    let f := frame.toNat
    let has : Prop := ptnOn s = true ∧ (getEntry s f).valid = true ∧ (getEntry s f).vseq = vseq
    (¬ has → t = s) ∧ (has → ToPartner (.fetch 1 f vseq) t ∧ ∀ k : Fin 8, ToPartner (.mdata f k.val (partOf (getFrame s f) k.val)) t)) ∧
  ∀ frame vseq data, Completes (.fetchReply frame vseq data) s fun t =>
    let f := frame.toNat
    let asked : Prop := (f, vseq.toNat) ∈ s.ptn.fetches
    (¬ asked → t = s) ∧ (asked → (f, vseq.toNat) ∉ t.ptn.fetches ∧ ((getEntry s f).valid = true → (getEntry s f).vseq = vseq → (getEntry t f).valid = true → getFrame t f = data))

/-- R461, R367: a handover is begun by a SYNCED active part in Ready, which holds new data commands and ends those in flight; the HANDOVER command completes once the partner is active.
That data commands are held from the announcement on is the model's reading (log entry 35). -/
def Obligations.HandoversAreAnnounced : Prop := ∀ s : State, awake s = true →
  (∀ reason, Completes (.handoverRequest reason) s fun t =>
    let begins : Prop := ptnOn s = true ∧ s.ptn.role = 1 ∧ s.dev = .ready ∧ s.ptn.synced = true ∧ s.ptn.handStage = 0
    (ptnOn s = false → t = s) ∧ (ptnOn s = true → s.ptn.role = 1 → ¬ begins → t = s) ∧
    (begins → t.ptn.handStage ≠ 0 ∧ t.ptn.handoverReason = reason ∧ ToPartner (.handover 0 reason) t ∧
      (t.ptn.handStage = 3 → t.dev = .standby ∧ t.ptn.role = 2 ∧ t.ptn.activeOut = false ∧ ToPartner (.handover 1 reason) t)) ∧
    (ptnOn s = true → s.ptn.role ≠ 1 → t = { s with ptn := { s.ptn with handover := 0, handoverReason := reason, requested := true } })) ∧
  ∀ reason, Completes (.handoverActive reason) s fun t =>
    let due : Prop := ptnOn s = true ∧ s.ptn.handStage = 3
    (¬ due → t = s) ∧
    (due → t.ptn.handStage = 0 ∧ t.ptn.handover = 2 ∧ t.ptn.handoverReason = reason ∧ t.ptn.handovers = satInc 16 s.ptn.handovers ∧
      ∀ c ∈ s.hop.cmds, c.cap.opcode = 0x50 → c.phase = .running → (∀ d ∈ s.hop.cmds, d.arrival = c.arrival → d = c) →
        .inl { tag := c.cap.tag, status := BitVec.ofNat 8 (b2n (deferredPending s c.port)), opcode := 0x50, arrival := BitVec.ofNat 40 c.arrival, info := 0 } ∈ (getHopPort t c.port).cpls)

/-- R236, R237, R361, R517, R528, R542, R654 to R656: a register is written over a port or over JTAG only when its opcode permits it, the path is unlocked where that is asked, and the value is in its
range; each write is counted, and so is each refused one, which has no other effect. -/
def Obligations.RegistersAreWrittenOverPaths : Prop := ∀ s : State, awake s = true → ∀ path : Path,
  let wrote (a : Nat) (v : Word) (t : State) (effect : Prop) : Prop :=
    let clocked : Prop := path = .jtag → jtagClocked s = true
    let done : Prop := writeVerdict (wayOf path a) path a v s = .done
    (¬ clocked → t = s) ∧ (clocked → ¬ done → t = { s with idn := { s.idn with denied := satInc 16 s.idn.denied } }) ∧
      (clocked → done → t.idn.writes = satInc 16 s.idn.writes ∧ t.idn.denied = s.idn.denied ∧ effect)
  let trig (v : Word) (t : State) : Prop := t.gov.src = bitsOf 62 60 v.toNat ∧ t.gov.trigCh = bitsOf 59 57 v.toNat ∧ t.gov.pre = bitsOf 48 42 v.toNat ∧ t.gov.edge = bitOf 41 v.toNat ∧
    t.gov.trigEvent = BitVec.ofNat 8 (bitsOf 56 49 v.toNat) ∧ t.gov.level = signedOf 32 (bitsOf 31 0 v.toNat)
  Completes (.fltClearCounts path) s (fun t => wrote 0x20020 2 t (t.flt = { s.flt with real := {}, inj := {} })) ∧
  Completes (.fltClearFirst path) s (fun t => wrote 0x20020 1 t (t.flt = { s.flt with first := {} })) ∧
  (∀ (ch : Fin 8) v, Completes (.traceCfgWrite path ch v) s fun t => wrote (0x404000 + 8 * ch.val) v t
    (t.gov.armed = false ∧ (getTrace t ch.val).mode = bitsOf 63 62 v.toNat ∧ (getTrace t ch.val).ctx = bitsOf 61 54 v.toNat ∧ (getTrace t ch.val).tap = bitsOf 53 49 v.toNat ∧
      (getTrace t ch.val).decim = bitsOf 48 33 v.toNat ∧ ∀ k : Fin 8, s.gov.armed = true → (getTrace t k.val).state ≠ 1)) ∧
  (∀ w, let v : Word := w ||| BitVec.twoPow 64 63
    Completes (.traceArm path w) s fun t => wrote 0x404040 v t (trig v t ∧
      (bitOf 40 v.toNat = false ∨ bitsOf 62 60 v.toNat ≠ 0 → t.gov.armed = true ∧ ∀ k : Fin 8, (getTrace s k.val).mode ≠ 0 → (getTrace t k.val).state = 1 ∧ (getTrace t k.val).left = 0) ∧
      (bitOf 40 v.toNat = true → bitsOf 62 60 v.toNat = 0 → t.gov.armed = false ∧ t.gov.traceTime = devTime s))) ∧
  (∀ w, let v : Word := w ||| BitVec.twoPow 64 40
    Completes (.traceFire path w) s fun t => wrote 0x404040 v t (trig v t ∧
      (bitOf 63 v.toNat = false → bitsOf 62 60 v.toNat = 0 → s.gov.armed = true → t.gov.armed = false ∧ t.gov.traceTime = devTime s ∧
        ∀ k : Fin 8, (getTrace s k.val).state = 1 → (getTrace t k.val).state = 2 ∧ (getTrace t k.val).trigIdx = (getTrace s k.val).writeIdx ∧ (getTrace t k.val).left = 65536 - 1024 * bitsOf 48 42 v.toNat) ∧
      (bitOf 63 v.toNat = false → bitsOf 62 60 v.toNat ≠ 0 → t.gov.armed = s.gov.armed ∧ t.gov.trace = s.gov.trace))) ∧
  (∀ w, let v : Word := w ||| BitVec.twoPow 64 63
    Completes (.injFltReportGo path w) s fun t => wrote 0x800008 v t (t.diag.fltReport = (v &&& 0x7FFFFFFFFFFFFFFF) ∧ t.flt.real = s.flt.real ∧
      (bitOf 62 v.toNat = false → t.dev = s.dev) ∧ (bitOf 62 v.toNat = true → holdsFrom s.dev = true → t.dev = .faultHold ∧ t.flt.from_ = s.dev))) ∧
  (∀ w, let v : Word := w ||| BitVec.twoPow 64 63
    Completes (.injEccGo path w) s fun t => wrote 0x800118 v t
      ((testWord s = none → t.diag.eccStatus = 1 ∧ t.diag.eccTags = s.diag.eccTags ∧ t.mpd = s.mpd ∧ t.mrc = s.mrc) ∧
      ∀ x, testWord s = some x →
        let rest := s.diag.eccTags.filter fun y => ¬ (y.1 = x.1 ∧ y.2.1 = x.2)
        (16 ≤ rest.length → t.diag.eccStatus = 2 ∧ t.diag.eccTags = s.diag.eccTags) ∧
        (rest.length < 16 → t.diag.eccStatus = 0 ∧ t.diag.eccTags = rest ++ [(x.1, x.2, s.diag.eccCheck ^^^ secDedCheck s.diag.eccData)]))) ∧
  (∀ w, let v : Word := w ||| BitVec.twoPow 64 63
    Completes (.injTreHaltGo path w) s fun t => let ch := bitsOf 61 56 v.toNat
      wrote 0x800200 v t (t.diag.treHaltChannel.toNat = ch ∧
        (s.diag.treHaltPending.contains ch = false → (getTre s ch).state = 1 → (getTre s ch).running = true → (getTre t ch).state = 3) ∧
        (s.diag.treHaltPending.contains ch = false → (getTre s ch).state ≠ 3 → (getTre s ch).state ≠ 1 ∨ (getTre s ch).running = false → t.diag.treHaltPending = s.diag.treHaltPending ++ [ch] ∧ t.tre = s.tre))) ∧
  (∀ port v, Completes (.injLnkCfgWrite path port v) s fun t => wrote (0x800400 + 0x20 * port.num) v t
    (getInj t port.num = { getInj s port.num with
      action := bitsOf 63 62 v.toNat, byProb := bitOf 61 v.toNat, mask := BitVec.ofNat 6 (bitsOf 60 55 v.toNat), countN := bitsOf 54 39 v.toNat, limit := bitsOf 38 23 v.toNat,
      reorderD := bitsOf 22 19 v.toNat, corruptBit := bitsOf 18 6 v.toNat, left := bitsOf 38 23 v.toNat, seen := 0, draws := if bitsOf 63 62 v.toNat = 0 then (getInj s port.num).draws else 0 })) ∧
  ∀ a v : Word, Completes (.registerWrite path a v) s fun t => wrote a.toNat v t
    ((a = 0x20020 → t.flt = { s.flt with real := if bitOf 1 v.toNat then {} else s.flt.real, inj := if bitOf 1 v.toNat then {} else s.flt.inj, first := if bitOf 0 v.toNat then {} else s.flt.first }) ∧
    (a = 0x800000 → t.diag = { s.diag with allowStop := bitOf 63 v.toNat }) ∧ (a = 0x800100 → t.diag = { s.diag with eccAddr := v }) ∧ (a = 0x800108 → t.diag = { s.diag with eccData := v }) ∧
    (a = 0x800110 → t.diag = { s.diag with eccCheck := v.setWidth 8 }) ∧ (a = 0x404040 → trig v t) ∧
    ∀ p : Port, a.toNat = 0x800408 + 0x20 * p.num → getInj t p.num = { getInj s p.num with prob := bitsOf 31 0 v.toNat })

/-- R638, R651, R652, R658 to R661: JTAG scans act whatever the part's state; an access reads or writes a register and its result is captured by the next scan; fuses are programmed once, unlocked and in
a state that allows it; boundary cells drive under the EXTEST instructions alone. -/
def Obligations.JtagInstructionsAct : Prop := ∀ s : State,
  let clocked : Prop := jtagClocked s = true
  let captured (v : BitVec 264) (t : State) : Prop := t.tx.take (s.tx.length + 1) = s.tx ++ [.jtag v]
  let ir (code : BitVec 8) (drives : Bool) (t : State) : Prop := t.diag.jtagIr = code ∧ t.diag.bscanDrives = drives
  (∀ (a : Word) ue, Completes (.diagAccRead a ue) s fun t =>
    let n := a.toNat
    let named : Prop := n % 8 = 0 ∧ (blockOf n).isSome = true
    captured (accCapture s) t ∧ ir 0x20 false t ∧ (¬ clocked → t.diag.jtagData = s.diag.jtagData ∧ t.idn = s.idn) ∧
    (clocked → ¬ named → t.diag.jtagData = 0 ∧ t.diag.jtagStatus = 2 ∧ t.diag.jtagUe = false ∧ t.idn.denied = satInc 16 s.idn.denied) ∧
    (clocked → named → t.diag.jtagStatus = 0 ∧ (ue = true → (regAt s n).isSome = true → t.diag.jtagUe = true ∧ t.diag.jtagData = 0 ∧ t.idn.ue = satInc 16 s.idn.ue) ∧
      (ue = false → t.diag.jtagUe = false ∧ t.idn = s.idn ∧ t.diag.jtagData = readAt s n))) ∧
  (∀ a v : Word, Completes (.diagAccWrite a v) s fun t =>
    let verdict := writeVerdict 0x31 .jtag a.toNat v s
    captured (accCapture s) t ∧ ir 0x20 false t ∧ (¬ clocked → t.idn = s.idn ∧ t.diag.jtagStatus = s.diag.jtagStatus) ∧
    (clocked → verdict = .done → t.diag.jtagStatus = 0 ∧ t.idn.writes = satInc 16 s.idn.writes) ∧ (clocked → verdict ≠ .done → t.diag.jtagStatus = 2 ∧ t.idn.denied = satInc 16 s.idn.denied)) ∧
  (∀ go group value vioOk, Completes (.fuseProg go group value vioOk) s fun t =>
    let may : Prop := unlocked s s.diag.unlockJ = true ∧ s.fuses.openBlown = false ∧ group ≠ 3 ∧ (group = 0 → s.fuses.unlockKey = none) ∧ (group = 1 → s.fuses.keyHash = none) ∧
      (s.dev = .unconfigured ∨ s.dev = .configuring ∨ s.dev = .parked ∨ s.dev = .stopped) ∧ vioOk = true
    captured (fuseCapture s) t ∧ ir 0x22 false t ∧ (go = false → t.fuses = s.fuses ∧ t.diag.fuseStatus = s.diag.fuseStatus) ∧ (go = true → ¬ clocked → t.fuses = s.fuses ∧ t.diag.fuseStatus = 3) ∧
    (go = true → clocked → ¬ may → t.fuses = s.fuses ∧ t.diag.fuseStatus = 2) ∧
    (go = true → clocked → may → t.diag.fuseStatus = 0 ∧ (group = 0 → t.fuses = { s.fuses with unlockKey := some value }) ∧ (group = 1 → t.fuses = { s.fuses with keyHash := some value }) ∧
      (group = 2 → t.fuses = { s.fuses with openBlown := true }))) ∧
  (∀ cells, Completes (.extest cells) s fun t => ir 0x00 true t ∧ t.diag.bscan = cells ∧ t.tx = s.tx) ∧
  (∀ cells, Completes (.extestPulse cells) s fun t => ir 0x08 true t ∧ t.diag.bscan = cells ∧ t.tx = s.tx) ∧
  (∀ cells, Completes (.extestTrain cells) s fun t => ir 0x09 true t ∧ t.diag.bscan = cells ∧ t.tx = s.tx) ∧
  (∀ sample preload, Completes (.samplePreload sample preload) s fun t => ir 0x01 false t ∧ t.diag.bscan = preload ∧ t.tx = s.tx ++ [.bscan sample]) ∧
  Completes .idcode s (fun t => ir 0x02 false t ∧ t.tx = s.tx ++ [.jtag (s.idn.idcode.setWidth 264)] ∧ t.diag.unlockJ = s.diag.unlockJ) ∧
  ∀ code, Completes (.bypass code) s fun t => ir code false t ∧ t.tx = s.tx ++ [.jtag 0] ∧ t.diag.bscan = s.diag.bscan

/-- A step takes the command at the front of the queue and runs it with the queue's rest. With no command waiting the clocks advance by one tick (R609; log
entries 1, 60): device time, and no more than what runs on its own: the rounds of the arm links and their messages, the codewords of the links, the frames
of the VCM drive port (R204), of which at most one begins in a tick, and the copy of a migrating channel (R308);
write data that has waited for its intake channels then moves on (R349; log entry 47). A part in reset or without its clocks
keeps time alone, and one in its power-on reset not even that. -/
def Obligations.StepRunsTheFrontCommand : Prop :=
  (∀ (s : State) (c : Instr) (rest : List Instr), step { s with pending := c :: rest } = exec c { s with pending := rest }) ∧
  ∀ s : State, s.pending = [] → ∃ u t, step s = .next t ∧
    (let time := if s.start.powerOnReset then s.aon.time else (s.aon.time + 40) % 2 ^ 64
     let up := if s.start.powerOnReset then s.aon.up else s.aon.up + 40
     let s' := { s with aon := { s.aon with time, up } }
     (awake s = false → t = s') ∧
      (awake s = true → t = drainPorts u) ∧ ((∀ l < 2, (getLink u l).intake = []) → t = u) ∧
      (∀ l : Fin 2, ∀ w, awake s = true → (getLink u l).intake = [w] → (getLink u (1 - l.val)).intake = [] →
        t = if intakeHeld u l then u else returnCredit l 1 (takeWdata l w (modLink u l fun k => { k with intake := [] }))) ∧
      u = { s' with alks := u.alks, links := u.links, injs := u.injs, arms := u.arms, mpd := { s.mpd with migCursor := u.mpd.migCursor }, tx := u.tx } ∧
      (awake s = false → u = s') ∧
      (s.mpd.state ≠ 3 ∨ s.mpd.migLost = true ∨ pondRuns s = false → u.mpd = s.mpd) ∧
      (awake s = true → s.mpd.state = 3 → s.mpd.migLost = false → pondRuns s = true → u.mpd.migCursor = min 131072 (s.mpd.migCursor + (up / 2048 - s.aon.up / 2048))) ∧
      (s.ptn.activeOut = false ∨ up / 2000 = s.aon.up / 2000 → u.arms = s.arms) ∧
      (awake s = true → s.ptn.activeOut = true → up / 2000 = s.aon.up / 2000 + 1 → ∀ a < s.img.arms, a < 8 →
        let r := getArm s a
        let cmd := r.due.headD 0
        getArm u a = { r with
          due := r.due.drop 1, seq := (r.seq + 1) % 256, cmd := if cmd = 0 then r.cmd else cmd, demand := if cmd = 1 then r.wanted else r.demand } ∧
          .vcm a (doFrame cmd ((r.seq + 1) % 256) (if cmd = 1 then r.wanted else 0)) ∈ u.tx) ∧
      (∀ l, linkUp s l = false → getLink u l = getLink s l) ∧ ((∀ j : Nat × Injector, j ∈ s.injs → j.2.action ≠ 2) → u.injs = s.injs))

/-- The memories of the block keep their canonical form in every step. -/
def Obligations.EveryStepKeepsTheMemoriesCanonical : Prop := ∀ s t : State, s.memWf = true → step s = .next t → t.memWf = true

/-- What reset leaves (R587, R609): the part Unconfigured and in its power-on reset, no register file with an entry that differs from its reset value, no command waiting, and every memory canonical. -/
def Obligations.ResetLeavesThePartUnconfigured : Prop := State.reset.memWf = true ∧ DomainsReset State.reset ∧ State.reset.start.inReset = true ∧ State.reset.aon.time = 0 ∧ State.reset.pending = [] ∧ State.reset.fan.days = 0xFFFF ∧
    State.reset.diag.unlockA.until_ = none ∧ State.reset.diag.unlockB.until_ = none ∧ State.reset.diag.unlockJ.until_ = none

/-- Every command leaves the units of the block that its row does not name: `Frame` says which, row by row, and no command touches the queue. -/
def Obligations.EveryCommandKeepsItsFrame : Prop := ∀ (c : Instr) (s t : State), exec c s = .next t → Frame c s t ∧ t.pending = s.pending

/-- R587, R610, R658: while the part is in reset or its clocks have stopped, only the always-on domain's commands and the JTAG scans act. -/
def Obligations.ASleepingPartIsStill : Prop := ∀ (c : Instr) (s t : State), awake s = false → alwaysOn c = false → exec c s = .next t → t = s

/-- R661: a fuse group once programmed keeps its value in every step; only FUSE_PROG programs one. -/
def Obligations.FusesAreProgrammedOnce : Prop := ∀ (c : Instr) (s t : State), exec c s = .next t →
  (s.fuses.unlockKey ≠ none → t.fuses.unlockKey = s.fuses.unlockKey) ∧ (s.fuses.keyHash ≠ none → t.fuses.keyHash = s.fuses.keyHash) ∧ (s.fuses.openBlown = true → t.fuses = s.fuses) ∧
    ((∀ go group value vio, c ≠ .fuseProg go group value vio) → t.fuses = s.fuses)

/-- R8: Stopped is left by RESET_N and by the power-on reset alone. (A part whose reset is asserted is Unconfigured.) -/
def Obligations.StoppedIsLeftByResetAlone : Prop := ∀ (c : Instr) (s t : State), s.dev = .stopped → s.start.inReset = false → exec c s = .next t →
  (∀ railsOk, c ≠ .powerOnReset railsOk) → c ≠ .resetNAssert → t.dev = .stopped

/-- R31: in Fault-hold, Hold-up, Takeover and Stopped no command starts a visit of the fantail, and none commits a re-planned value. -/
def Obligations.TheFantailHaltsOutOfService : Prop := ∀ (c : Instr) (s t : State), s.dev = .faultHold ∨ s.dev = .holdUp ∨ s.dev = .takeover ∨ s.dev = .stopped → exec c s = .next t →
  (∀ v ∈ t.fan.plan, v ∈ s.fan.plan) ∧ t.fan.replans ≤ s.fan.replans ∧ ∀ a o, opOf t a = some o → o.visit ≠ none → ∃ q, opOf s a = some q ∧ q.visit ≠ none

/-- R514: the collector counts every report by its cause, the injected ones apart from the real ones, and each count saturates at its field's width (Table 17.12). -/
def Obligations.ReportsAreCountedBySource : Prop := ∀ s : State, awake s = true → ∀ rs, Completes (.faultReport rs) s fun t =>
  let n (injected : Bool) (p : Nat → Bool) : Nat := (rs.filter fun r => r.injected == injected && p r.cause.toNat).length
  let counted (injected : Bool) (a b : FaultCounts) : Prop := a.corrected < 2 ^ 24 → a.uncorrected < 2 ^ 16 → a.bus < 2 ^ 12 → a.other < 2 ^ 12 →
    b.corrected = satAdd 24 a.corrected (n injected fun k => k = 1) ∧ b.uncorrected = satAdd 16 a.uncorrected (n injected fun k => k = 2 || k = 4 || k = 6) ∧
      b.bus = satAdd 12 a.bus (n injected fun k => k = 3) ∧ b.other = satAdd 12 a.other (n injected fun k => !(k = 1 || k = 2 || k = 3 || k = 4 || k = 6))
  counted false s.flt.real t.flt.real ∧ counted true s.flt.inj t.flt.inj ∧ (rs.all (fun r => r.injected) = true → t.flt.real = s.flt.real) ∧ (rs.all (fun r => !r.injected) = true → t.flt.inj = s.flt.inj)

/-- No command of the block ends in a fault or a refusal, in any state. -/
def Obligations.EveryStepGoesOn : Prop := ∀ s : State, s.goesOn

/-- Every command completes, in every state: `exec` answers a next state, which keeps what the command's row does not name (`Frame`) and the queue. What
that state holds, row by row, the other statements say. -/
def Obligations.EveryCommandCompletes : Prop := ∀ (c : Instr) (s : State), ∃ t, exec c s = .next t ∧ Frame c s t ∧ t.pending = s.pending
end

