-- ==== Sys2Proof/Laws/State.lean ====
section
/-! SUPPORT. The state's record updates: what no command but its own may change, that a loop of steps keeps what each step keeps. -/

namespace Sys2Proof.Machine

/-- A loop keeps what each of its steps keeps. -/
theorem each_proj {α β : Type} (p : State → β) (xs : List α) (f : α → State → State) (s : State) (h : ∀ x s, p (f x s) = p s) :
    p (each xs f s) = p s := by
  unfold each
  induction xs generalizing s with
  | nil => rfl
  | cons x xs ih => simp only [List.foldl_cons]; rw [ih, h]

/-- What no unit writes: the queue of commands, the fuses, and the part's identity. -/
def State.fixed (s : State) : List Instr × Fuses × BitVec 16 × BitVec 8 × BitVec 8 × BitVec 32 × Word :=
  (s.pending, s.fuses, s.idn.part, s.idn.stepLetter, s.idn.stepDigit, s.idn.idcode, s.idn.serial)

theorem State.fixed_ite (c : Prop) [Decidable c] (a b : State) : (if c then a else b).fixed = if c then a.fixed else b.fixed := by
  split <;> rfl
/-- An update of any other field keeps it. -/
theorem State.fixed_mk (t : State) (dev aon start clk pwr flt evt mqs ptn hold diag img nvm layout alks islands bol heads arms gov spn spc mrc mpd
    rows tre fls fcc links injs hop slu fan tx free) :
    (State.mk dev aon start t.idn t.fuses clk pwr flt evt mqs ptn hold diag img nvm layout alks islands bol heads arms gov spn spc mrc mpd
      rows tre fls fcc links injs hop slu fan tx free t.pending).fixed = t.fixed := rfl
/-- So does an update of the counters beside the identity. -/
theorem State.fixed_idn (t : State) (v : BitVec 32) (w : BitVec 32) (n1 n2 n3 n4 n5 : Nat) (dev aon start clk pwr flt evt mqs ptn hold diag img nvm
    layout alks islands bol heads arms gov spn spc mrc mpd rows tre fls fcc links injs hop slu fan tx free) :
    (State.mk dev aon start (Idn.mk t.idn.part t.idn.stepLetter t.idn.stepDigit t.idn.idcode t.idn.serial v w n1 n2 n3 n4 n5) t.fuses clk pwr flt
      evt mqs ptn hold diag img nvm layout alks islands bol heads arms gov spn spc mrc mpd rows tre fls fcc links injs hop slu fan tx free
      t.pending).fixed = t.fixed := rfl
theorem each_fixed {α : Type} (xs : List α) (f : α → State → State) (s : State) (h : ∀ x s, (f x s).fixed = s.fixed) :
    (each xs f s).fixed = s.fixed := each_proj State.fixed xs f s h
theorem when_fixed (c : Bool) (f : State → State) (s : State) (h : ∀ s, (f s).fixed = s.fixed) : (when_ c f s).fixed = s.fixed := by
  unfold when_; split
  · exact h s
  · rfl

/-- A command whose next state keeps it. -/
def Keeps (o : Host.Outcome State Fault Refusal) (s : State) : Prop := ∀ t, o = .next t → t.fixed = s.fixed
theorem keeps_next (t s : State) : Keeps (.next t) s ↔ t.fixed = s.fixed :=
  ⟨fun h => h t rfl, fun h u e => by cases e; exact h⟩
theorem keeps_live (s : State) (f : State → Host.Outcome State Fault Refusal) (h : Keeps (f s) s) : Keeps (live s f) s := by
  unfold live; split
  · exact h
  · exact (keeps_next s s).2 rfl

end Sys2Proof.Machine
end

