-- ==== Sys2Proof/Laws/Tables.lean ====
section
/-! SUPPORT. Tables: what a write reads back as, that it leaves every other number alone, and that every write keeps the canonical form. -/

namespace Sys2Proof.Machine

variable {α : Type}

/-- A write leaves every other number as it was. -/
theorem tabPut_other (d v : α) (t : Tab α) {k j : Nat} (h : j ≠ k) : tabGet d (tabPut k v t) j = tabGet d t j := by
  induction t with
  | nil => simp [tabPut, tabGet, Ne.symm h]
  | cons e t ih =>
    obtain ⟨i, w⟩ := e
    simp only [tabPut]
    split
    · simp [tabGet, Ne.symm h]
    · split
      · rename_i hk; subst hk; simp [tabGet, Ne.symm h]
      · simp only [tabGet, ih]
theorem tabDel_other (d : α) (t : Tab α) {k j : Nat} (h : j ≠ k) : tabGet d (tabDel k t) j = tabGet d t j := by
  induction t with
  | nil => rfl
  | cons e t ih =>
    obtain ⟨i, w⟩ := e
    simp only [tabDel]
    split
    · rename_i hi; subst hi; simp only [tabGet, ih]; rw [if_neg (Ne.symm h)]
    · simp only [tabGet, ih]
theorem tabSet_other [DecidableEq α] (d v : α) (t : Tab α) {k j : Nat} (h : j ≠ k) : tabGet d (tabSet d t k v) j = tabGet d t j := by
  unfold tabSet; split
  · exact tabDel_other d t h
  · exact tabPut_other d v t h
theorem tabMod_other [DecidableEq α] (d : α) (t : Tab α) (f : α → α) {k j : Nat} (h : j ≠ k) : tabGet d (tabMod d t k f) j = tabGet d t j :=
  tabSet_other d _ t h

theorem tabPut_same (d v : α) (t : Tab α) (k : Nat) : tabGet d (tabPut k v t) k = v := by
  induction t with
  | nil => simp [tabPut, tabGet]
  | cons e t ih =>
    obtain ⟨i, w⟩ := e
    simp only [tabPut]
    split
    · simp [tabGet]
    · split
      · simp [tabGet]
      · rename_i h; simp only [tabGet, ih]; simp [Ne.symm h]

variable [DecidableEq α]

omit [DecidableEq α] in
theorem tabDel_same (d : α) (t : Tab α) (k : Nat) : tabGet d (tabDel k t) k = d := by
  induction t with
  | nil => rfl
  | cons e t ih =>
    obtain ⟨i, w⟩ := e
    simp only [tabDel]
    split
    · exact ih
    · rename_i hi; simp only [tabGet, if_neg hi]; exact ih
/-- A write reads back as what was written. -/
theorem tabSet_same (d v : α) (t : Tab α) (k : Nat) : tabGet d (tabSet d t k v) k = v := by
  unfold tabSet; split
  · rename_i hv; rw [hv]; exact tabDel_same d t k
  · exact tabPut_same d v t k
theorem tabMod_same (d : α) (t : Tab α) (k : Nat) (f : α → α) : tabGet d (tabMod d t k f) k = f (tabGet d t k) :=
  tabSet_same d _ t k

theorem tabWfFrom_mono (d : α) (t : Tab α) {b c : Nat} (h : tabWfFrom d c t = true) (hb : b ≤ c) : tabWfFrom d b t = true := by
  cases t with
  | nil => rfl
  | cons e t =>
    obtain ⟨i, w⟩ := e
    simp only [tabWfFrom, Bool.and_eq_true, decide_eq_true_eq] at h ⊢
    exact ⟨⟨by omega, h.1.2⟩, h.2⟩
theorem tabPut_wf (d v : α) (hv : v ≠ d) (t : Tab α) {b k : Nat} (h : tabWfFrom d b t = true) (hb : b ≤ k) :
    tabWfFrom d b (tabPut k v t) = true := by
  induction t generalizing b with
  | nil => simp [tabPut, tabWfFrom, hb, hv]
  | cons e t ih =>
    obtain ⟨i, w⟩ := e
    simp only [tabWfFrom, Bool.and_eq_true, decide_eq_true_eq] at h
    simp only [tabPut]
    split
    · simp only [tabWfFrom, Bool.and_eq_true, decide_eq_true_eq]
      exact ⟨⟨hb, hv⟩, ⟨by omega, h.1.2⟩, h.2⟩
    · split
      · rename_i hk; subst hk
        simp only [tabWfFrom, Bool.and_eq_true, decide_eq_true_eq]
        exact ⟨⟨hb, hv⟩, h.2⟩
      · simp only [tabWfFrom, Bool.and_eq_true, decide_eq_true_eq]
        exact ⟨h.1, ih h.2 (by omega)⟩
theorem tabDel_wf (d : α) (t : Tab α) {b : Nat} (k : Nat) (h : tabWfFrom d b t = true) : tabWfFrom d b (tabDel k t) = true := by
  induction t generalizing b with
  | nil => rfl
  | cons e t ih =>
    obtain ⟨i, w⟩ := e
    simp only [tabWfFrom, Bool.and_eq_true, decide_eq_true_eq] at h
    simp only [tabDel]
    split
    · exact tabWfFrom_mono d _ (ih h.2) (by omega)
    · simp only [tabWfFrom, Bool.and_eq_true, decide_eq_true_eq]
      exact ⟨h.1, ih h.2⟩
/-- A write keeps the canonical form. -/
theorem tabSet_wf (d v : α) (t : Tab α) (k : Nat) (h : tabWf d t = true) : tabWf d (tabSet d t k v) = true := by
  unfold tabSet; split
  · exact tabDel_wf d t k h
  · exact tabPut_wf d v ‹_› t h (Nat.zero_le k)
theorem tabMod_wf (d : α) (t : Tab α) (k : Nat) (f : α → α) (h : tabWf d t = true) : tabWf d (tabMod d t k f) = true :=
  tabSet_wf d _ t k h
theorem tabFilterFrom_wf (d : α) (p : Nat × α → Bool) (t : Tab α) {b : Nat} (h : tabWfFrom d b t = true) :
    tabWfFrom d b (t.filter p) = true := by
  induction t generalizing b with
  | nil => rfl
  | cons e t ih =>
    obtain ⟨i, w⟩ := e
    simp only [tabWfFrom, Bool.and_eq_true, decide_eq_true_eq] at h
    simp only [List.filter_cons]
    split
    · simp only [tabWfFrom, Bool.and_eq_true, decide_eq_true_eq]
      exact ⟨h.1, ih h.2⟩
    · exact tabWfFrom_mono d _ (ih h.2) (by omega)
/-- So does dropping entries. -/
theorem tabFilter_wf (d : α) (p : Nat × α → Bool) (t : Tab α) (h : tabWf d t = true) : tabWf d (t.filter p) = true := tabFilterFrom_wf d p t h
theorem tabMapFrom_wf (d : α) (f : Nat × α → α) (t : Tab α) {b : Nat} (hf : ∀ e ∈ t, f e ≠ d) (h : tabWfFrom d b t = true) :
    tabWfFrom d b (t.map fun e => (e.1, f e)) = true := by
  induction t generalizing b with
  | nil => rfl
  | cons e t ih =>
    obtain ⟨i, w⟩ := e
    simp only [tabWfFrom, Bool.and_eq_true, decide_eq_true_eq] at h
    simp only [List.map_cons, tabWfFrom, Bool.and_eq_true, decide_eq_true_eq]
    exact ⟨⟨h.1.1, hf _ (List.mem_cons_self ..)⟩, ih (fun x hx => hf x (List.mem_cons_of_mem _ hx)) h.2⟩
/-- And changing contents to others that are not the default. -/
theorem tabMap_wf (d : α) (f : Nat × α → α) (t : Tab α) (hf : ∀ e ∈ t, f e ≠ d) (h : tabWf d t = true) :
    tabWf d (t.map fun e => (e.1, f e)) = true := tabMapFrom_wf d f t hf h
/-- Writes one after another keep it. -/
theorem tabFold_wf {β : Type} (d : α) (g : β → Nat × α) (xs : List β) (t : Tab α) (h : tabWf d t = true) :
    tabWf d (xs.foldl (fun t x => tabSet d t (g x).1 (g x).2) t) = true := by
  induction xs generalizing t with
  | nil => exact h
  | cons x xs ih => exact ih _ (tabSet_wf d _ t _ h)

end Sys2Proof.Machine
end

