-- ==== Sys2Proof/Laws/Memory.lean ====
section
/-! SUPPORT. The canonical form of the block's memories: what an update of the state means for it, and the operations that write a memory. -/

namespace Sys2Proof.Machine

theorem State.memWf_mk (dev aon start idn fuses clk pwr flt evt mqs ptn hold diag img) (nvm : Nvm) (layout alks islands bol heads arms) (gov : Gov) (spn spc)
    (mrc : Millrace) (mpd : Millpond) (rows tre) (fls : Flash) (fcc links injs hop slu fan tx free pending) :
    (State.mk dev aon start idn fuses clk pwr flt evt mqs ptn hold diag img nvm layout alks islands bol heads arms gov spn spc mrc mpd
      rows tre fls fcc links injs hop slu fan tx free pending).memWf =
      (tabWf 0 mpd.frames && tabWf {} mpd.ledger && tabWf {} mrc.slots && tabWf none fls.sectors &&
        tabWf (BitVec.allOnes 32768) nvm.blocks && tabWf 0 gov.store) := rfl
theorem State.memWf_fold (t : State) :
    (tabWf 0 t.mpd.frames && tabWf {} t.mpd.ledger && tabWf {} t.mrc.slots && tabWf none t.fls.sectors &&
      tabWf (BitVec.allOnes 32768) t.nvm.blocks && tabWf 0 t.gov.store) = t.memWf := rfl
theorem State.memWf_ite (c : Prop) [Decidable c] (a b : State) : (if c then a else b).memWf = if c then a.memWf else b.memWf := by split <;> rfl
theorem each_memWf {α : Type} (xs : List α) (f : α → State → State) (s : State) (h : ∀ x s, (f x s).memWf = s.memWf) :
    (each xs f s).memWf = s.memWf := each_proj State.memWf xs f s h
/-- The form, memory by memory. -/
theorem State.memWf_iff (s : State) : s.memWf = true ↔ tabWf 0 s.mpd.frames = true ∧ tabWf {} s.mpd.ledger = true ∧ tabWf {} s.mrc.slots = true ∧
    tabWf none s.fls.sectors = true ∧ tabWf (BitVec.allOnes 32768) s.nvm.blocks = true ∧ tabWf 0 s.gov.store = true := by
  simp only [State.memWf, Bool.and_eq_true, and_assoc]
/-- A loop whose steps keep the form keeps it. -/
theorem each_keepsForm {α : Type} (xs : List α) (f : α → State → State) (s : State) (h : ∀ x s, s.memWf = true → (f x s).memWf = true) (hs : s.memWf = true) :
    (each xs f s).memWf = true := by
  unfold each
  induction xs generalizing s with
  | nil => exact hs
  | cons x xs ih => exact ih _ (h x s hs)
/-- A command whose next state keeps the form. -/
def KeepsForm (o : Host.Outcome State Fault Refusal) (s : State) : Prop := ∀ t, o = .next t → s.memWf = true → t.memWf = true
theorem keepsForm_next (t s : State) : KeepsForm (.next t) s ↔ (s.memWf = true → t.memWf = true) :=
  ⟨fun h => h t rfl, fun h u e => by cases e; exact h⟩
theorem keepsForm_live (s : State) (f : State → Host.Outcome State Fault Refusal) (h : KeepsForm (f s) s) : KeepsForm (live s f) s := by
  unfold live; split
  · exact h
  · exact (keepsForm_next s s).2 id
theorem reset_memWf : State.reset.memWf = true := by decide

end Sys2Proof.Machine
end

