-- ==== Sys2Proof/Laws/Ops.lean ====
section
/-! SUPPORT. The register files of the state: what an entry reads after a change of the same or of another entry, and that a change of one file leaves
every other field of the state as it is. -/

namespace Sys2Proof.Machine

-- An entry after a change of it, and of another.
@[simp] theorem getHead_modHead (s : State) (n : Nat) (f : Head → Head) : getHead (modHead s n f) n = f (getHead s n) := tabMod_same ..
theorem getHead_modHead_other (s : State) (f : Head → Head) {n k : Nat} (h : k ≠ n) : getHead (modHead s n f) k = getHead s k := tabMod_other _ _ _ h
@[simp] theorem getArm_modArm (s : State) (n : Nat) (f : Arm → Arm) : getArm (modArm s n f) n = f (getArm s n) := tabMod_same ..
theorem getArm_modArm_other (s : State) (f : Arm → Arm) {n k : Nat} (h : k ≠ n) : getArm (modArm s n f) k = getArm s k := tabMod_other _ _ _ h
@[simp] theorem getAlk_modAlk (s : State) (n : Nat) (f : ArmLink → ArmLink) : getAlk (modAlk s n f) n = f (getAlk s n) := tabMod_same ..
theorem getAlk_modAlk_other (s : State) (f : ArmLink → ArmLink) {n k : Nat} (h : k ≠ n) : getAlk (modAlk s n f) k = getAlk s k := tabMod_other _ _ _ h
@[simp] theorem getIsl_modIsl (s : State) (n : Nat) (f : Island → Island) : getIsl (modIsl s n f) n = f (getIsl s n) := tabMod_same ..
theorem getIsl_modIsl_other (s : State) (f : Island → Island) {n k : Nat} (h : k ≠ n) : getIsl (modIsl s n f) k = getIsl s k := tabMod_other _ _ _ h
@[simp] theorem getCtx_modCtx (s : State) (n : Nat) (f : Ctx → Ctx) : getCtx (modCtx s n f) n = f (getCtx s n) := tabMod_same ..
theorem getCtx_modCtx_other (s : State) (f : Ctx → Ctx) {n k : Nat} (h : k ≠ n) : getCtx (modCtx s n f) k = getCtx s k := tabMod_other _ _ _ h
@[simp] theorem getTrace_modTrace (s : State) (n : Nat) (f : TraceCh → TraceCh) : getTrace (modTrace s n f) n = f (getTrace s n) := tabMod_same ..
theorem getTrace_modTrace_other (s : State) (f : TraceCh → TraceCh) {n k : Nat} (h : k ≠ n) : getTrace (modTrace s n f) k = getTrace s k := tabMod_other _ _ _ h
@[simp] theorem getSine_modSine (s : State) (n : Nat) (f : Sine → Sine) : getSine (modSine s n f) n = f (getSine s n) := tabMod_same ..
theorem getSine_modSine_other (s : State) (f : Sine → Sine) {n k : Nat} (h : k ≠ n) : getSine (modSine s n f) k = getSine s k := tabMod_other _ _ _ h
@[simp] theorem getEngine_modEngine (s : State) (n : Nat) (f : Engine → Engine) : getEngine (modEngine s n f) n = f (getEngine s n) := tabMod_same ..
theorem getEngine_modEngine_other (s : State) (f : Engine → Engine) {n k : Nat} (h : k ≠ n) : getEngine (modEngine s n f) k = getEngine s k := tabMod_other _ _ _ h
@[simp] theorem getSlot_modSlot (s : State) (n : Nat) (f : Slot → Slot) : getSlot (modSlot s n f) n = f (getSlot s n) := tabMod_same ..
theorem getSlot_modSlot_other (s : State) (f : Slot → Slot) {n k : Nat} (h : k ≠ n) : getSlot (modSlot s n f) k = getSlot s k := tabMod_other _ _ _ h
@[simp] theorem getChan_modChan (s : State) (n : Nat) (f : MpdChan → MpdChan) : getChan (modChan s n f) n = f (getChan s n) := tabMod_same ..
theorem getChan_modChan_other (s : State) (f : MpdChan → MpdChan) {n k : Nat} (h : k ≠ n) : getChan (modChan s n f) k = getChan s k := tabMod_other _ _ _ h
@[simp] theorem getTre_modTre (s : State) (n : Nat) (f : TreCh → TreCh) : getTre (modTre s n f) n = f (getTre s n) := tabMod_same ..
theorem getTre_modTre_other (s : State) (f : TreCh → TreCh) {n k : Nat} (h : k ≠ n) : getTre (modTre s n f) k = getTre s k := tabMod_other _ _ _ h
@[simp] theorem getMq_modMq (s : State) (n : Nat) (f : Mq → Mq) : getMq (modMq s n f) n = f (getMq s n) := tabMod_same ..
theorem getMq_modMq_other (s : State) (f : Mq → Mq) {n k : Nat} (h : k ≠ n) : getMq (modMq s n f) k = getMq s k := tabMod_other _ _ _ h
@[simp] theorem getBank_modBank (s : State) (n : Nat) (f : Bank → Bank) : getBank (modBank s n f) n = f (getBank s n) := tabMod_same ..
theorem getBank_modBank_other (s : State) (f : Bank → Bank) {n k : Nat} (h : k ≠ n) : getBank (modBank s n f) k = getBank s k := tabMod_other _ _ _ h
@[simp] theorem getBlk_modBlk (s : State) (n : Nat) (f : FlashBlock → FlashBlock) : getBlk (modBlk s n f) n = f (getBlk s n) := tabMod_same ..
theorem getBlk_modBlk_other (s : State) (f : FlashBlock → FlashBlock) {n k : Nat} (h : k ≠ n) : getBlk (modBlk s n f) k = getBlk s k := tabMod_other _ _ _ h
@[simp] theorem getFce_modFce (s : State) (n : Nat) (f : FcEntry → FcEntry) : getFce (modFce s n f) n = f (getFce s n) := tabMod_same ..
theorem getFce_modFce_other (s : State) (f : FcEntry → FcEntry) {n k : Nat} (h : k ≠ n) : getFce (modFce s n f) k = getFce s k := tabMod_other _ _ _ h
@[simp] theorem getFcq_modFcq (s : State) (n : Nat) (f : FcReq → FcReq) : getFcq (modFcq s n f) n = f (getFcq s n) := tabMod_same ..
theorem getFcq_modFcq_other (s : State) (f : FcReq → FcReq) {n k : Nat} (h : k ≠ n) : getFcq (modFcq s n f) k = getFcq s k := tabMod_other _ _ _ h
@[simp] theorem getInj_modInj (s : State) (n : Nat) (f : Injector → Injector) : getInj (modInj s n f) n = f (getInj s n) := tabMod_same ..
theorem getInj_modInj_other (s : State) (f : Injector → Injector) {n k : Nat} (h : k ≠ n) : getInj (modInj s n f) k = getInj s k := tabMod_other _ _ _ h
@[simp] theorem getHopPort_modHopPort (s : State) (n : Nat) (f : HopPort → HopPort) : getHopPort (modHopPort s n f) n = f (getHopPort s n) := tabMod_same ..
theorem getHopPort_modHopPort_other (s : State) (f : HopPort → HopPort) {n k : Nat} (h : k ≠ n) : getHopPort (modHopPort s n f) k = getHopPort s k := tabMod_other _ _ _ h
@[simp] theorem getTherm_modTherm (s : State) (n : Nat) (f : Thermal → Thermal) : getTherm (modTherm s n f) n = f (getTherm s n) := tabMod_same ..
theorem getTherm_modTherm_other (s : State) (f : Thermal → Thermal) {n k : Nat} (h : k ≠ n) : getTherm (modTherm s n f) k = getTherm s k := tabMod_other _ _ _ h
@[simp] theorem getLink_modLink (s : State) (n : Nat) (f : Link → Link) : getLink (modLink s n f) n = f (getLink s n) := tabMod_same ..

-- The other fields after a change of `heads`.
section
variable (s : State) (n : Nat) (f : Head → Head)
@[simp] theorem modHead_dev : (modHead s n f).dev = s.dev := rfl
@[simp] theorem modHead_aon : (modHead s n f).aon = s.aon := rfl
@[simp] theorem modHead_start : (modHead s n f).start = s.start := rfl
@[simp] theorem modHead_idn : (modHead s n f).idn = s.idn := rfl
@[simp] theorem modHead_fuses : (modHead s n f).fuses = s.fuses := rfl
@[simp] theorem modHead_clk : (modHead s n f).clk = s.clk := rfl
@[simp] theorem modHead_pwr : (modHead s n f).pwr = s.pwr := rfl
@[simp] theorem modHead_flt : (modHead s n f).flt = s.flt := rfl
@[simp] theorem modHead_evt : (modHead s n f).evt = s.evt := rfl
@[simp] theorem modHead_mqs : (modHead s n f).mqs = s.mqs := rfl
@[simp] theorem modHead_ptn : (modHead s n f).ptn = s.ptn := rfl
@[simp] theorem modHead_hold : (modHead s n f).hold = s.hold := rfl
@[simp] theorem modHead_diag : (modHead s n f).diag = s.diag := rfl
@[simp] theorem modHead_img : (modHead s n f).img = s.img := rfl
@[simp] theorem modHead_nvm : (modHead s n f).nvm = s.nvm := rfl
@[simp] theorem modHead_layout : (modHead s n f).layout = s.layout := rfl
@[simp] theorem modHead_alks : (modHead s n f).alks = s.alks := rfl
@[simp] theorem modHead_islands : (modHead s n f).islands = s.islands := rfl
@[simp] theorem modHead_bol : (modHead s n f).bol = s.bol := rfl
@[simp] theorem modHead_arms : (modHead s n f).arms = s.arms := rfl
@[simp] theorem modHead_gov : (modHead s n f).gov = s.gov := rfl
@[simp] theorem modHead_spn : (modHead s n f).spn = s.spn := rfl
@[simp] theorem modHead_spc : (modHead s n f).spc = s.spc := rfl
@[simp] theorem modHead_mrc : (modHead s n f).mrc = s.mrc := rfl
@[simp] theorem modHead_mpd : (modHead s n f).mpd = s.mpd := rfl
@[simp] theorem modHead_rows : (modHead s n f).rows = s.rows := rfl
@[simp] theorem modHead_tre : (modHead s n f).tre = s.tre := rfl
@[simp] theorem modHead_fls : (modHead s n f).fls = s.fls := rfl
@[simp] theorem modHead_fcc : (modHead s n f).fcc = s.fcc := rfl
@[simp] theorem modHead_links : (modHead s n f).links = s.links := rfl
@[simp] theorem modHead_injs : (modHead s n f).injs = s.injs := rfl
@[simp] theorem modHead_hop : (modHead s n f).hop = s.hop := rfl
@[simp] theorem modHead_slu : (modHead s n f).slu = s.slu := rfl
@[simp] theorem modHead_fan : (modHead s n f).fan = s.fan := rfl
@[simp] theorem modHead_tx : (modHead s n f).tx = s.tx := rfl
@[simp] theorem modHead_free : (modHead s n f).free = s.free := rfl
@[simp] theorem modHead_pending : (modHead s n f).pending = s.pending := rfl
end

-- The other fields after a change of `arms`.
section
variable (s : State) (n : Nat) (f : Arm → Arm)
@[simp] theorem modArm_dev : (modArm s n f).dev = s.dev := rfl
@[simp] theorem modArm_aon : (modArm s n f).aon = s.aon := rfl
@[simp] theorem modArm_start : (modArm s n f).start = s.start := rfl
@[simp] theorem modArm_idn : (modArm s n f).idn = s.idn := rfl
@[simp] theorem modArm_fuses : (modArm s n f).fuses = s.fuses := rfl
@[simp] theorem modArm_clk : (modArm s n f).clk = s.clk := rfl
@[simp] theorem modArm_pwr : (modArm s n f).pwr = s.pwr := rfl
@[simp] theorem modArm_flt : (modArm s n f).flt = s.flt := rfl
@[simp] theorem modArm_evt : (modArm s n f).evt = s.evt := rfl
@[simp] theorem modArm_mqs : (modArm s n f).mqs = s.mqs := rfl
@[simp] theorem modArm_ptn : (modArm s n f).ptn = s.ptn := rfl
@[simp] theorem modArm_hold : (modArm s n f).hold = s.hold := rfl
@[simp] theorem modArm_diag : (modArm s n f).diag = s.diag := rfl
@[simp] theorem modArm_img : (modArm s n f).img = s.img := rfl
@[simp] theorem modArm_nvm : (modArm s n f).nvm = s.nvm := rfl
@[simp] theorem modArm_layout : (modArm s n f).layout = s.layout := rfl
@[simp] theorem modArm_alks : (modArm s n f).alks = s.alks := rfl
@[simp] theorem modArm_islands : (modArm s n f).islands = s.islands := rfl
@[simp] theorem modArm_bol : (modArm s n f).bol = s.bol := rfl
@[simp] theorem modArm_heads : (modArm s n f).heads = s.heads := rfl
@[simp] theorem modArm_gov : (modArm s n f).gov = s.gov := rfl
@[simp] theorem modArm_spn : (modArm s n f).spn = s.spn := rfl
@[simp] theorem modArm_spc : (modArm s n f).spc = s.spc := rfl
@[simp] theorem modArm_mrc : (modArm s n f).mrc = s.mrc := rfl
@[simp] theorem modArm_mpd : (modArm s n f).mpd = s.mpd := rfl
@[simp] theorem modArm_rows : (modArm s n f).rows = s.rows := rfl
@[simp] theorem modArm_tre : (modArm s n f).tre = s.tre := rfl
@[simp] theorem modArm_fls : (modArm s n f).fls = s.fls := rfl
@[simp] theorem modArm_fcc : (modArm s n f).fcc = s.fcc := rfl
@[simp] theorem modArm_links : (modArm s n f).links = s.links := rfl
@[simp] theorem modArm_injs : (modArm s n f).injs = s.injs := rfl
@[simp] theorem modArm_hop : (modArm s n f).hop = s.hop := rfl
@[simp] theorem modArm_slu : (modArm s n f).slu = s.slu := rfl
@[simp] theorem modArm_fan : (modArm s n f).fan = s.fan := rfl
@[simp] theorem modArm_tx : (modArm s n f).tx = s.tx := rfl
@[simp] theorem modArm_free : (modArm s n f).free = s.free := rfl
@[simp] theorem modArm_pending : (modArm s n f).pending = s.pending := rfl
end

-- The other fields after a change of `alks`.
section
variable (s : State) (n : Nat) (f : ArmLink → ArmLink)
@[simp] theorem modAlk_dev : (modAlk s n f).dev = s.dev := rfl
@[simp] theorem modAlk_aon : (modAlk s n f).aon = s.aon := rfl
@[simp] theorem modAlk_start : (modAlk s n f).start = s.start := rfl
@[simp] theorem modAlk_idn : (modAlk s n f).idn = s.idn := rfl
@[simp] theorem modAlk_fuses : (modAlk s n f).fuses = s.fuses := rfl
@[simp] theorem modAlk_clk : (modAlk s n f).clk = s.clk := rfl
@[simp] theorem modAlk_pwr : (modAlk s n f).pwr = s.pwr := rfl
@[simp] theorem modAlk_flt : (modAlk s n f).flt = s.flt := rfl
@[simp] theorem modAlk_evt : (modAlk s n f).evt = s.evt := rfl
@[simp] theorem modAlk_mqs : (modAlk s n f).mqs = s.mqs := rfl
@[simp] theorem modAlk_ptn : (modAlk s n f).ptn = s.ptn := rfl
@[simp] theorem modAlk_hold : (modAlk s n f).hold = s.hold := rfl
@[simp] theorem modAlk_diag : (modAlk s n f).diag = s.diag := rfl
@[simp] theorem modAlk_img : (modAlk s n f).img = s.img := rfl
@[simp] theorem modAlk_nvm : (modAlk s n f).nvm = s.nvm := rfl
@[simp] theorem modAlk_layout : (modAlk s n f).layout = s.layout := rfl
@[simp] theorem modAlk_islands : (modAlk s n f).islands = s.islands := rfl
@[simp] theorem modAlk_bol : (modAlk s n f).bol = s.bol := rfl
@[simp] theorem modAlk_heads : (modAlk s n f).heads = s.heads := rfl
@[simp] theorem modAlk_arms : (modAlk s n f).arms = s.arms := rfl
@[simp] theorem modAlk_gov : (modAlk s n f).gov = s.gov := rfl
@[simp] theorem modAlk_spn : (modAlk s n f).spn = s.spn := rfl
@[simp] theorem modAlk_spc : (modAlk s n f).spc = s.spc := rfl
@[simp] theorem modAlk_mrc : (modAlk s n f).mrc = s.mrc := rfl
@[simp] theorem modAlk_mpd : (modAlk s n f).mpd = s.mpd := rfl
@[simp] theorem modAlk_rows : (modAlk s n f).rows = s.rows := rfl
@[simp] theorem modAlk_tre : (modAlk s n f).tre = s.tre := rfl
@[simp] theorem modAlk_fls : (modAlk s n f).fls = s.fls := rfl
@[simp] theorem modAlk_fcc : (modAlk s n f).fcc = s.fcc := rfl
@[simp] theorem modAlk_links : (modAlk s n f).links = s.links := rfl
@[simp] theorem modAlk_injs : (modAlk s n f).injs = s.injs := rfl
@[simp] theorem modAlk_hop : (modAlk s n f).hop = s.hop := rfl
@[simp] theorem modAlk_slu : (modAlk s n f).slu = s.slu := rfl
@[simp] theorem modAlk_fan : (modAlk s n f).fan = s.fan := rfl
@[simp] theorem modAlk_tx : (modAlk s n f).tx = s.tx := rfl
@[simp] theorem modAlk_free : (modAlk s n f).free = s.free := rfl
@[simp] theorem modAlk_pending : (modAlk s n f).pending = s.pending := rfl
end

-- The other fields after a change of `islands`.
section
variable (s : State) (n : Nat) (f : Island → Island)
@[simp] theorem modIsl_dev : (modIsl s n f).dev = s.dev := rfl
@[simp] theorem modIsl_aon : (modIsl s n f).aon = s.aon := rfl
@[simp] theorem modIsl_start : (modIsl s n f).start = s.start := rfl
@[simp] theorem modIsl_idn : (modIsl s n f).idn = s.idn := rfl
@[simp] theorem modIsl_fuses : (modIsl s n f).fuses = s.fuses := rfl
@[simp] theorem modIsl_clk : (modIsl s n f).clk = s.clk := rfl
@[simp] theorem modIsl_pwr : (modIsl s n f).pwr = s.pwr := rfl
@[simp] theorem modIsl_flt : (modIsl s n f).flt = s.flt := rfl
@[simp] theorem modIsl_evt : (modIsl s n f).evt = s.evt := rfl
@[simp] theorem modIsl_mqs : (modIsl s n f).mqs = s.mqs := rfl
@[simp] theorem modIsl_ptn : (modIsl s n f).ptn = s.ptn := rfl
@[simp] theorem modIsl_hold : (modIsl s n f).hold = s.hold := rfl
@[simp] theorem modIsl_diag : (modIsl s n f).diag = s.diag := rfl
@[simp] theorem modIsl_img : (modIsl s n f).img = s.img := rfl
@[simp] theorem modIsl_nvm : (modIsl s n f).nvm = s.nvm := rfl
@[simp] theorem modIsl_layout : (modIsl s n f).layout = s.layout := rfl
@[simp] theorem modIsl_alks : (modIsl s n f).alks = s.alks := rfl
@[simp] theorem modIsl_bol : (modIsl s n f).bol = s.bol := rfl
@[simp] theorem modIsl_heads : (modIsl s n f).heads = s.heads := rfl
@[simp] theorem modIsl_arms : (modIsl s n f).arms = s.arms := rfl
@[simp] theorem modIsl_gov : (modIsl s n f).gov = s.gov := rfl
@[simp] theorem modIsl_spn : (modIsl s n f).spn = s.spn := rfl
@[simp] theorem modIsl_spc : (modIsl s n f).spc = s.spc := rfl
@[simp] theorem modIsl_mrc : (modIsl s n f).mrc = s.mrc := rfl
@[simp] theorem modIsl_mpd : (modIsl s n f).mpd = s.mpd := rfl
@[simp] theorem modIsl_rows : (modIsl s n f).rows = s.rows := rfl
@[simp] theorem modIsl_tre : (modIsl s n f).tre = s.tre := rfl
@[simp] theorem modIsl_fls : (modIsl s n f).fls = s.fls := rfl
@[simp] theorem modIsl_fcc : (modIsl s n f).fcc = s.fcc := rfl
@[simp] theorem modIsl_links : (modIsl s n f).links = s.links := rfl
@[simp] theorem modIsl_injs : (modIsl s n f).injs = s.injs := rfl
@[simp] theorem modIsl_hop : (modIsl s n f).hop = s.hop := rfl
@[simp] theorem modIsl_slu : (modIsl s n f).slu = s.slu := rfl
@[simp] theorem modIsl_fan : (modIsl s n f).fan = s.fan := rfl
@[simp] theorem modIsl_tx : (modIsl s n f).tx = s.tx := rfl
@[simp] theorem modIsl_free : (modIsl s n f).free = s.free := rfl
@[simp] theorem modIsl_pending : (modIsl s n f).pending = s.pending := rfl
end

-- The other fields after a change of `mqs`.
section
variable (s : State) (n : Nat) (f : Mq → Mq)
@[simp] theorem modMq_dev : (modMq s n f).dev = s.dev := rfl
@[simp] theorem modMq_aon : (modMq s n f).aon = s.aon := rfl
@[simp] theorem modMq_start : (modMq s n f).start = s.start := rfl
@[simp] theorem modMq_idn : (modMq s n f).idn = s.idn := rfl
@[simp] theorem modMq_fuses : (modMq s n f).fuses = s.fuses := rfl
@[simp] theorem modMq_clk : (modMq s n f).clk = s.clk := rfl
@[simp] theorem modMq_pwr : (modMq s n f).pwr = s.pwr := rfl
@[simp] theorem modMq_flt : (modMq s n f).flt = s.flt := rfl
@[simp] theorem modMq_evt : (modMq s n f).evt = s.evt := rfl
@[simp] theorem modMq_ptn : (modMq s n f).ptn = s.ptn := rfl
@[simp] theorem modMq_hold : (modMq s n f).hold = s.hold := rfl
@[simp] theorem modMq_diag : (modMq s n f).diag = s.diag := rfl
@[simp] theorem modMq_img : (modMq s n f).img = s.img := rfl
@[simp] theorem modMq_nvm : (modMq s n f).nvm = s.nvm := rfl
@[simp] theorem modMq_layout : (modMq s n f).layout = s.layout := rfl
@[simp] theorem modMq_alks : (modMq s n f).alks = s.alks := rfl
@[simp] theorem modMq_islands : (modMq s n f).islands = s.islands := rfl
@[simp] theorem modMq_bol : (modMq s n f).bol = s.bol := rfl
@[simp] theorem modMq_heads : (modMq s n f).heads = s.heads := rfl
@[simp] theorem modMq_arms : (modMq s n f).arms = s.arms := rfl
@[simp] theorem modMq_gov : (modMq s n f).gov = s.gov := rfl
@[simp] theorem modMq_spn : (modMq s n f).spn = s.spn := rfl
@[simp] theorem modMq_spc : (modMq s n f).spc = s.spc := rfl
@[simp] theorem modMq_mrc : (modMq s n f).mrc = s.mrc := rfl
@[simp] theorem modMq_mpd : (modMq s n f).mpd = s.mpd := rfl
@[simp] theorem modMq_rows : (modMq s n f).rows = s.rows := rfl
@[simp] theorem modMq_tre : (modMq s n f).tre = s.tre := rfl
@[simp] theorem modMq_fls : (modMq s n f).fls = s.fls := rfl
@[simp] theorem modMq_fcc : (modMq s n f).fcc = s.fcc := rfl
@[simp] theorem modMq_links : (modMq s n f).links = s.links := rfl
@[simp] theorem modMq_injs : (modMq s n f).injs = s.injs := rfl
@[simp] theorem modMq_hop : (modMq s n f).hop = s.hop := rfl
@[simp] theorem modMq_slu : (modMq s n f).slu = s.slu := rfl
@[simp] theorem modMq_fan : (modMq s n f).fan = s.fan := rfl
@[simp] theorem modMq_tx : (modMq s n f).tx = s.tx := rfl
@[simp] theorem modMq_free : (modMq s n f).free = s.free := rfl
@[simp] theorem modMq_pending : (modMq s n f).pending = s.pending := rfl
end

-- The other fields after a change of `links`.
section
variable (s : State) (n : Nat) (f : Link → Link)
@[simp] theorem modLink_dev : (modLink s n f).dev = s.dev := rfl
@[simp] theorem modLink_aon : (modLink s n f).aon = s.aon := rfl
@[simp] theorem modLink_start : (modLink s n f).start = s.start := rfl
@[simp] theorem modLink_idn : (modLink s n f).idn = s.idn := rfl
@[simp] theorem modLink_fuses : (modLink s n f).fuses = s.fuses := rfl
@[simp] theorem modLink_clk : (modLink s n f).clk = s.clk := rfl
@[simp] theorem modLink_pwr : (modLink s n f).pwr = s.pwr := rfl
@[simp] theorem modLink_flt : (modLink s n f).flt = s.flt := rfl
@[simp] theorem modLink_evt : (modLink s n f).evt = s.evt := rfl
@[simp] theorem modLink_mqs : (modLink s n f).mqs = s.mqs := rfl
@[simp] theorem modLink_ptn : (modLink s n f).ptn = s.ptn := rfl
@[simp] theorem modLink_hold : (modLink s n f).hold = s.hold := rfl
@[simp] theorem modLink_diag : (modLink s n f).diag = s.diag := rfl
@[simp] theorem modLink_img : (modLink s n f).img = s.img := rfl
@[simp] theorem modLink_nvm : (modLink s n f).nvm = s.nvm := rfl
@[simp] theorem modLink_layout : (modLink s n f).layout = s.layout := rfl
@[simp] theorem modLink_alks : (modLink s n f).alks = s.alks := rfl
@[simp] theorem modLink_islands : (modLink s n f).islands = s.islands := rfl
@[simp] theorem modLink_bol : (modLink s n f).bol = s.bol := rfl
@[simp] theorem modLink_heads : (modLink s n f).heads = s.heads := rfl
@[simp] theorem modLink_arms : (modLink s n f).arms = s.arms := rfl
@[simp] theorem modLink_gov : (modLink s n f).gov = s.gov := rfl
@[simp] theorem modLink_spn : (modLink s n f).spn = s.spn := rfl
@[simp] theorem modLink_spc : (modLink s n f).spc = s.spc := rfl
@[simp] theorem modLink_mrc : (modLink s n f).mrc = s.mrc := rfl
@[simp] theorem modLink_mpd : (modLink s n f).mpd = s.mpd := rfl
@[simp] theorem modLink_rows : (modLink s n f).rows = s.rows := rfl
@[simp] theorem modLink_tre : (modLink s n f).tre = s.tre := rfl
@[simp] theorem modLink_fls : (modLink s n f).fls = s.fls := rfl
@[simp] theorem modLink_fcc : (modLink s n f).fcc = s.fcc := rfl
@[simp] theorem modLink_injs : (modLink s n f).injs = s.injs := rfl
@[simp] theorem modLink_hop : (modLink s n f).hop = s.hop := rfl
@[simp] theorem modLink_slu : (modLink s n f).slu = s.slu := rfl
@[simp] theorem modLink_fan : (modLink s n f).fan = s.fan := rfl
@[simp] theorem modLink_tx : (modLink s n f).tx = s.tx := rfl
@[simp] theorem modLink_free : (modLink s n f).free = s.free := rfl
@[simp] theorem modLink_pending : (modLink s n f).pending = s.pending := rfl
end

-- The other fields after a change of `injs`.
section
variable (s : State) (n : Nat) (f : Injector → Injector)
@[simp] theorem modInj_dev : (modInj s n f).dev = s.dev := rfl
@[simp] theorem modInj_aon : (modInj s n f).aon = s.aon := rfl
@[simp] theorem modInj_start : (modInj s n f).start = s.start := rfl
@[simp] theorem modInj_idn : (modInj s n f).idn = s.idn := rfl
@[simp] theorem modInj_fuses : (modInj s n f).fuses = s.fuses := rfl
@[simp] theorem modInj_clk : (modInj s n f).clk = s.clk := rfl
@[simp] theorem modInj_pwr : (modInj s n f).pwr = s.pwr := rfl
@[simp] theorem modInj_flt : (modInj s n f).flt = s.flt := rfl
@[simp] theorem modInj_evt : (modInj s n f).evt = s.evt := rfl
@[simp] theorem modInj_mqs : (modInj s n f).mqs = s.mqs := rfl
@[simp] theorem modInj_ptn : (modInj s n f).ptn = s.ptn := rfl
@[simp] theorem modInj_hold : (modInj s n f).hold = s.hold := rfl
@[simp] theorem modInj_diag : (modInj s n f).diag = s.diag := rfl
@[simp] theorem modInj_img : (modInj s n f).img = s.img := rfl
@[simp] theorem modInj_nvm : (modInj s n f).nvm = s.nvm := rfl
@[simp] theorem modInj_layout : (modInj s n f).layout = s.layout := rfl
@[simp] theorem modInj_alks : (modInj s n f).alks = s.alks := rfl
@[simp] theorem modInj_islands : (modInj s n f).islands = s.islands := rfl
@[simp] theorem modInj_bol : (modInj s n f).bol = s.bol := rfl
@[simp] theorem modInj_heads : (modInj s n f).heads = s.heads := rfl
@[simp] theorem modInj_arms : (modInj s n f).arms = s.arms := rfl
@[simp] theorem modInj_gov : (modInj s n f).gov = s.gov := rfl
@[simp] theorem modInj_spn : (modInj s n f).spn = s.spn := rfl
@[simp] theorem modInj_spc : (modInj s n f).spc = s.spc := rfl
@[simp] theorem modInj_mrc : (modInj s n f).mrc = s.mrc := rfl
@[simp] theorem modInj_mpd : (modInj s n f).mpd = s.mpd := rfl
@[simp] theorem modInj_rows : (modInj s n f).rows = s.rows := rfl
@[simp] theorem modInj_tre : (modInj s n f).tre = s.tre := rfl
@[simp] theorem modInj_fls : (modInj s n f).fls = s.fls := rfl
@[simp] theorem modInj_fcc : (modInj s n f).fcc = s.fcc := rfl
@[simp] theorem modInj_links : (modInj s n f).links = s.links := rfl
@[simp] theorem modInj_hop : (modInj s n f).hop = s.hop := rfl
@[simp] theorem modInj_slu : (modInj s n f).slu = s.slu := rfl
@[simp] theorem modInj_fan : (modInj s n f).fan = s.fan := rfl
@[simp] theorem modInj_tx : (modInj s n f).tx = s.tx := rfl
@[simp] theorem modInj_free : (modInj s n f).free = s.free := rfl
@[simp] theorem modInj_pending : (modInj s n f).pending = s.pending := rfl
end

end Sys2Proof.Machine
end

