-- ==== Sys2Proof/Tests/Slice0.lean ====
section
/-! SUPPORT. Tests of the model by the manual's figures, and a concrete state and operands for the hypotheses of each statement: what a command may not
carry, then one step on a small state, family by family. -/

set_option maxRecDepth 20000
set_option Elab.async false

namespace Sys2Proof.Tests

open Sys2Proof.Machine

/-- A part out of reset with its clocks running, in Unconfigured. -/
def up : State := { start := { inReset := false, powerOnReset := false } }
/-- The same in another device state. -/
def upIn (d : DevState) : State := { up with dev := d }
/-- `exec c` on `s` answers a next state of which `p` holds. -/
def after (c : Instr) (s : State) (p : State → Bool) : Bool := match exec c s with | .next t => p t | _ => false
/-- `c` leaves `s` as it is. -/
def still (c : Instr) (s : State) : Prop := exec c s = .next s
def okPort : State := { upIn .ready with links := [(0, { link := 2, session := 1 })] }

-- What a command may not carry: one ill-formed term for each check of `Instr.wellFormed`.

theorem test_wf_thermal : (Instr.thermalSensorRead (Vector.replicate 16 40000)).wellFormed = false := by decide
theorem test_wf_slack : (Instr.slackMonitorRead (Vector.replicate 32 128)).wellFormed = false := by decide
theorem test_wf_avs_step : (Instr.avsStep true 1024).wellFormed = false := by decide
theorem test_wf_avs_repeat : (Instr.avsRepeatWrite true 1024).wellFormed = false := by decide
theorem test_wf_vin12 : (Instr.vin12Window 1 2 3 65536).wellFormed = false := by decide
theorem test_wf_vin12_sense : (Instr.vin12SenseFault true 65536).wellFormed = false := by decide
theorem test_wf_pwm_vbus : (Instr.pwmPeriod { vbus := some 4096 }).wellFormed = false := by decide
theorem test_wf_pwm_ichop : (Instr.pwmPeriod { ichop := some 4096 }).wellFormed = false := by decide
theorem test_wf_pwm_phase : (Instr.pwmPeriod { shunt := { b := some 4096 } }).wellFormed = false := by decide
theorem test_wf_chopper : (Instr.chopperOn 4096).wellFormed = false ∧ (Instr.chopperOff 4096).wellFormed = false ∧ (Instr.chopperFault 0 4096).wellFormed = false := by decide
theorem test_wf_loop_input : (Instr.loopExecute 0 2147483648 {}).wellFormed = false := by decide
theorem test_wf_law_store : (Instr.lawReplace 0 2047 [0, 0] 60).wellFormed = false := by decide
theorem test_wf_law_sections : (Instr.lawReplace 0 0 (List.replicate 17 0) 60).wellFormed = false := by decide
theorem test_wf_slot : (Instr.preambleSearch 0 8192).wellFormed = false := by decide
theorem test_wf_raw_slot : (Instr.rawCheck 0 8192).wellFormed = false := by decide
theorem test_wf_ue_slot : (Instr.millpondUe 0 (.slot 24576)).wellFormed = false := by decide
theorem test_wf_ue_frame : (Instr.millpondUe 0 (.frame 1048576 0)).wellFormed = false := by decide
theorem test_wf_ue_copies : (Instr.millpondUe 0 (.bothCopies 8192 0)).wellFormed = false ∧ (Instr.millpondUe 0 (.bothCopies 18432 0)).wellFormed = false := by decide
theorem test_wf_partner_rising : (Instr.partnerWindow [4, 4] 0 true).wellFormed = false ∧ (Instr.partnerHungRecheck [200000] 0 true).wellFormed = false := by decide
theorem test_wf_mq_empty : (Instr.mqPacketWrite 0 []).wellFormed = false := by decide
theorem test_wf_mq_long : (Instr.mqPacketWrite 0 (List.replicate 65 0)).wellFormed = false := by decide
theorem test_wf_payload : (Instr.tallyEventPost 1 false 0 (List.replicate 41 0)).wellFormed = false := by decide
theorem test_wf_program : (Instr.flashProgram .tally ⟨3, 0⟩ 15 [0, 0]).wellFormed = false := by decide
theorem test_wf_program_empty : (Instr.flashProgram .tally ⟨3, 0⟩ 0 []).wellFormed = false := by decide
theorem test_wf_erase : (Instr.flashErase .tally 3 0 512).wellFormed = false := by decide
theorem test_wf_refresh : (Instr.blockRefresh 0 512).wellFormed = false := by decide
theorem test_wf_inval_empty : (Instr.invalRange 0 0 0).wellFormed = false := by decide
theorem test_wf_inval_end : (Instr.invalRange 0 1 268435456).wellFormed = false := by decide
theorem test_wf_nak : (Instr.nak .partner (List.replicate 16 0)).wellFormed = false := by decide
theorem test_wf_lane_window : (Instr.lnkLaneErrorWindow .partner 9 0 0).wellFormed = false := by decide
theorem test_wf_lane_lock : (Instr.lnkLaneLockLoss .partner 9).wellFormed = false := by decide
theorem test_wf_lane_map : (Instr.laneMap .partner 9 0).wellFormed = false := by decide
theorem test_wf_lane_done : (Instr.laneMapDone .partner 9).wellFormed = false := by decide
theorem test_wf_row_opcode : ((capsuleRows .A {} 0 [] true 0).all fun i => !i.wellFormed) = true := by decide
theorem test_wf_spin_action : (Instr.spinUp .A { opcode := 0x20, arg32 := 2 }).wellFormed = false := by decide
theorem test_wf_commit : (Instr.ucodeBankCommit .A { opcode := 0x40 } true 0).wellFormed = false := by decide
theorem test_wf_unlock_step : (Instr.unlockLock .A { opcode := 0x41, arg32 := 1 }).wellFormed = false := by decide
theorem test_wf_pwm_budget : (Instr.budgetPwmPeriod 10 11).wellFormed = false := by decide
theorem test_wf_ment : (Instr.ment []).wellFormed = false := by decide
theorem test_wf_confirm : (Instr.confirm []).wellFormed = false := by decide
theorem test_wf_extest : (Instr.extest []).wellFormed = false := by decide
/-- Table 12.5: one capsule of each opcode, in the order of its rows, is well formed on its row. -/
theorem test_wf_rows_accept : (([0x01, 0x02, 0x03, 0x04, 0x05, 0x10, 0x11, 0x12, 0x13, 0x14, 0x15, 0x16] : List (BitVec 8)).all fun op =>
    ((capsuleRows .A { opcode := op } 0 [] true 0).filter fun i => i.wellFormed).length == 1) = true := by decide

-- The step, reset and what sleeps.

/-- The queue is served first in, first out (witness of StepRunsTheFrontCommand). -/
theorem test_step_takes_the_front : step { up with pending := [.droopTrip 88, .pwrFailNHigh] } = exec (.droopTrip 88) { up with pending := [.pwrFailNHigh] } := rfl
/-- An empty queue is one tick of 40 ns of device time (R609; log entry 1), and none while the power-on reset is asserted (R613). -/
theorem test_idle_ticks : (match step up with | .next t => t.aon.time == 40 | _ => false) = true := by decide
theorem test_idle_in_power_on_reset : (match step State.reset with | .next t => t.aon.time == 0 | _ => false) = true := by decide
/-- No word spells a command: the table gives no row any bits. -/
theorem test_no_word_spells : decodeTableWord 8 0 = none ∧ up.withFetchWord 8 0 = up := ⟨rfl, rfl⟩
theorem test_reset_is_canonical : State.reset.memWf = true := by decide
/-- Witnesses of EveryStepKeepsTheMemoriesCanonical, EveryStepGoesOn, ASleepingPartIsStill, StoppedIsLeftByResetAlone, FusesAreProgrammedOnce. -/
theorem test_witness_canonical_step : up.memWf = true ∧ step up = .next (idleTick up) := ⟨by decide, rfl⟩
theorem test_witness_asleep : awake State.reset = false ∧ alwaysOn .refclkLoss = false ∧ still .refclkLoss State.reset := ⟨rfl, rfl, rfl⟩
theorem test_witness_stopped : (upIn .stopped).start.inReset = false ∧ after (.droopTrip 0) (upIn .stopped) (fun t => t.dev == .stopped) = true := by decide
theorem test_stopped_left_by_reset : after .resetNAssert (upIn .stopped) (fun t => t.dev == .unconfigured) = true := by decide
theorem test_witness_fuse_kept : after (.fuseProg true 0 7 true)
    { up with fuses := { unlockKey := some 5 }, diag := { unlockJ := { until_ := some 1000 } } } (fun t => t.fuses.unlockKey == some 5) = true := by decide
theorem test_fuse_programmed : after (.fuseProg true 0 7 true)
    { up with clk := { coreLock := true }, diag := { unlockJ := { until_ := some 1000 } } } (fun t => t.fuses.unlockKey == some 7 && t.diag.fuseStatus == 0) = true := by decide
/-- Witness of EveryCommandKeepsItsFrame: PWR_FAIL_N_HIGH changes the power record alone. -/
theorem test_witness_frame : exec .pwrFailNHigh up = .next { up with pwr := { up.pwr with pfailN := true } } := rfl
/-- Witness of TheFantailHaltsOutOfService (R31): a re-plan asked for in Fault-hold is not committed. -/
theorem test_witness_no_replan : after (.replan .iterMax { arm := 0, head := 0, zone := 0 } 10 0 60) (upIn .faultHold)
    (fun t => t.fan.plan == [] && t.fan.replans == 0) = true := by decide
/-- Witness of ReportsAreCountedBySource (R514): one real corrected report, one injected report of another cause. -/
theorem test_reports_counted : after (.faultReport [{ master := 0x4F, cause := 1 }, { master := 0x4F, cause := 8, injected := true }]) up
    (fun t => t.flt.real.corrected == 1 && t.flt.real.other == 0 && t.flt.inj.other == 1 && t.flt.inj.corrected == 0) = true := by decide
theorem test_reports_saturate : after (.faultReport [{ master := 0x4F, cause := 3 }]) { up with flt := { real := { bus := 4095 } } }
    (fun t => t.flt.real.bus == 4095) = true := by decide


-- Resets, clocks, supplies and hold-up (chapters 15, 19 to 21).

/-- R613: the power-on reset is released only when every rail is in range. -/
theorem test_power_on_rails_late : after (.powerOnReset false) up (fun t => t.start.powerOnReset && t.aon.time == 0) = true := by decide
theorem test_power_on_rails_ok : after (.powerOnReset true) up (fun t => t.start.inReset && !t.start.powerOnReset) = true := by decide
/-- R589: RESET_N keeps device time and latches the cause and the device state. -/
theorem test_reset_n_latches : after .resetNAssert { upIn .ready with aon := { time := 5 } }
    (fun t => t.aon.time == 5 && t.aon.cause && t.aon.prevState == .ready && t.start.inReset) = true := by decide
theorem test_reset_n_under_power_on : still .resetNAssert State.reset := rfl
/-- R610: loss of REFCLK in Ready stops the part with its gates low. -/
theorem test_refclk_loss : after .refclkLoss { upIn .ready with spc := { gates := true } }
    (fun t => t.dev == .stopped && !awake t && t.tx.contains (.gates false) && t.aon.faultKind == 2) = true := by decide
theorem test_core_pll : after .corePllUnlock (upIn .parked) (fun t => t.dev == .stopped && t.aon.faultKind == 3 && t.aon.prevState == .parked) = true := by decide
/-- R610: lane PLL 8 is port A's; its link goes down and the session is held. -/
theorem test_lane_pll_port : after (.lanePllUnlock 8) { okPort with clk := { laneLock := 0x7FF } }
    (fun t => (getLink t 0).link == 1 && (getLink t 0).session == 2 && t.clk.laneLock == 0x6FF && t.clk.laneLoss == 1) = true := by decide
/-- R618: rail 0 is VAON, whose fault is the power-on reset's; a fault after a power failure is no supply fault. -/
theorem test_supply_vaon : still (.supplyFault 0 false) up := rfl
theorem test_supply_rail : after (.supplyFault 1 false) up (fun t => t.dev == .stopped && t.aon.faultRail == 1 && t.aon.supplyFaultPending) = true := by decide
theorem test_droop_stretched : after (.droopTrip 88) up (fun t => t.pwr.stretch == 1) = true := by decide
theorem test_droop_not_stretched : still (.droopTrip 97) up := rfl
/-- R621: a slack of 12 is below half of 25, and 13 is not. -/
theorem test_slack_low : after (.slackMonitorRead (Vector.replicate 32 12)) up (fun t => t.pwr.target == 760 && t.pwr.slack == 12) = true := by decide
theorem test_slack_enough : after (.slackMonitorRead (Vector.replicate 32 13)) up (fun t => t.pwr.target == 750) = true := by decide
/-- R620: 5 mV towards the target. -/
theorem test_avs_step : after (.avsStep true 750) { up with pwr := { target := 760, readback := 750 } } (fun t => t.pwr.wrote == 755) = true := by decide
theorem test_avs_third_failure : after (.avsStep false 0) { upIn .ready with pwr := { avsBad := 2 } }
    (fun t => t.pwr.avsFault && t.dev == .faultHold) = true := by decide
theorem test_avs_repeat_closes : after (.avsRepeatWrite true 765) { up with pwr := { avsFault := true, avsGood := 2 } }
    (fun t => !t.pwr.avsFault) = true := by decide
theorem test_avs_repeat_off : after (.avsRepeatWrite true 766) { up with pwr := { avsFault := true, avsGood := 2 } }
    (fun t => t.pwr.avsFault && t.pwr.avsGood == 0) = true := by decide
/-- R623: 150 °C is 2,400 units of 0.0625 °C. -/
theorem test_thermal_limit : after (.thermalSensorRead (Vector.ofFn fun i => if i.val < 2 then 2400 + i.val else 800)) up
    (fun t => t.pwr.tempFailed == 2 && (getTherm t 0).mean == 2400) = true := by decide
theorem test_thermal_too_few : after (.thermalSensorRead (Vector.ofFn fun i => if i.val < 5 then 2401 else 800)) up
    (fun t => getTherm t 0 == getTherm up 0) = true := by decide
/-- Table 3.3: a TEMP word with −1 as the head stack's reading and 80 °C as the FZA816's. -/
theorem test_temp_word : after (.tempTelemetry 2 0x00000500FFFF0000) up
    (fun t => (getTherm t 3).mean == 1280 && (getTherm t 11).mean == -1) = true := by decide
theorem test_sensor_unreported : after (.sensorUnreported 16) { up with img := { arms := 8 } } (fun t => (getTherm t 16).unreported && (getTherm t 16).level == 2) = true := by decide
/-- R463: the fifth window below 11,200 mV from Ready; a mean of exactly 11,200 mV is not below. -/
theorem test_vin_fifth_low : after (.vin12Window 11199 11200 11200 11200) { upIn .ready with pwr := { lowRun := 4 } }
    (fun t => t.dev == .holdUp && t.hop.closed) = true := by decide
theorem test_vin_at_limit : after (.vin12Window 11200 11200 11200 11200) { upIn .ready with pwr := { lowRun := 4 } }
    (fun t => t.dev == .ready && t.pwr.lowRun == 0) = true := by decide
theorem test_vin_sense_timeout : after (.vin12SenseFault true 0) { upIn .ready with pwr := { lowRun := 4 } }
    (fun t => t.dev == .ready && t.pwr.snsTimeout && t.pwr.lowRun == 0) = true := by decide
/-- R7, R603: by the device state. -/
theorem test_power_fail_loading : after .pwrFailNLow (upIn .loading) (fun t => t.dev == .stopped) = true := by decide
theorem test_power_fail_parked : after .pwrFailNLow (upIn .parked) (fun t => t.dev == .parked && t.hold.flashStopped) = true := by decide
theorem test_power_fail_high : after .pwrFailNHigh up (fun t => t.pwr.pfailN) = true := by decide
/-- Witness of the last clause of PowerFailureEntersHoldUp. -/
theorem test_hold_up_stays : alwaysOn (.arbitrationTimeout) = false ∧ after .arbitrationTimeout (upIn .holdUp) (fun t => t.dev == .holdUp) = true := by decide
/-- R465 to R468. -/
theorem test_dump_starts : after .dumpStart { upIn .holdUp with hold := { owed := true, areaOk := true } }
    (fun t => t.hold.state == 2 && t.hold.chunksPlanned == 1 && t.dev == .holdUp) = true := by decide +kernel
theorem test_dump_no_area : after .dumpStart { upIn .holdUp with hold := { owed := true } } (fun t => t.dev == .stopped) = true := by decide
theorem test_dump_last_chunk : after (.dumpChunkCommit true) { upIn .holdUp with hold := { owed := true, state := 2, plan := [.header] } }
    (fun t => t.dev == .stopped && t.hold.state == 3 && t.hold.chunksDone == 1) = true := by decide
theorem test_dump_next_chunk : after (.dumpChunkCommit false) { upIn .holdUp with hold := { owed := true, state := 2, plan := [.header, .index []] } }
    (fun t => t.dev == .holdUp && t.hold.state == 2 && t.hold.chunksDone == 0) = true := by decide
theorem test_dump_bus_low : after .dumpBusLow { upIn .holdUp with hold := { owed := true, state := 2, plan := [.header] } }
    (fun t => t.dev == .stopped && t.hold.state == 4) = true := by decide

-- Start (chapter 19).

/-- A part whose RESET_N is asserted with the rails in range. -/
def held : State := { start := { inReset := true, powerOnReset := false } }
theorem test_release_under_power_on : still (.resetRelease {}) State.reset := rfl
/-- R642: a high TMODE keeps the part in Unconfigured. -/
theorem test_release_tmode : after (.resetRelease { tmode := true, role := true }) held
    (fun t => !t.start.inReset && t.dev == .unconfigured && t.pwr.role && t.idn.boot == 1) = true := by decide
theorem test_release_no_lock : after (.resetRelease { pllOk := false }) held (fun t => t.dev == .unconfigured && t.start.failStep == 1) = true := by decide
theorem test_release_rom : after (.resetRelease { romOk := false }) held (fun t => t.dev == .stopped && t.start.failStep == 2) = true := by decide +kernel
theorem test_release_banks : after (.resetRelease { ucodeA := false, ucodeB := false }) held (fun t => t.dev == .stopped && t.start.failStep == 3) = true := by decide +kernel
/-- R469: the last area read opens the drain. -/
theorem test_replay_last : after (.replayReadDone 1 []) { upIn .loading with hold := { toRead := [1] } }
    (fun t => t.hold.toRead == [] && t.start.replayRead && t.hold.state == 6) = true := by decide
theorem test_replay_order : still (.replayReadDone 1 []) { upIn .loading with hold := { toRead := [0, 1] } } := rfl
/-- A dump whose blocks are settled may be retired (witness of the clause of DUMP_RETIRE). -/
def retires : State := { upIn .ready with ptn := { role := 1 }, start := { inReset := false, powerOnReset := false, replayRead := true }, hold := { replay := [1] } }
theorem test_witness_dump_retire : awake retires = true ∧ retires.ptn.role ≠ 2 ∧ retires.start.replayRead = true ∧ (1 : Fin 2).val ∈ retires.hold.replay ∧
    ∀ p ∈ retires.hold.replayed, p.2 ≠ 1 := by decide
theorem test_loading_waits : still .loadingComplete (upIn .ready) := rfl

-- Spindle (chapter 8).

theorem test_offsets_at_limit : after .offsetMeasureDone { upIn .spinningUp with spn := { mode := 1 }, spc := { offsetN := 1024, offsetSum := (2252 * 1024, 1844 * 1024, 2048 * 1024) } }
    (fun t => t.spn.mode == 2 && t.spc.offA == 2252 && t.spc.offB == 1844 && t.spc.offsetsDone) = true := by decide +kernel
theorem test_offsets_beyond : after .offsetMeasureDone { upIn .spinningUp with spn := { mode := 1 }, spc := { offsetN := 1024, offsetSum := (2253 * 1024, 2048 * 1024, 2048 * 1024) } }
    (fun t => t.dev == .stopped && t.spn.lastEvent == 0x29) = true := by decide +kernel
/-- R257: the measurement takes 40 ms, 3,840 samples, unless two electrical cycles come first. -/
theorem test_catch_enough : catchEnough { up with spc := { catchN := 3840 } } = true := rfl
/-- Table 8.3: forward at more than 300 rpm the loops close with the observer; at 300 rpm the spindle still coasts down. -/
theorem test_catch_class : (classifyCatch 300 false 467 { upIn .spinningUp with ptn := { activeOut := true } }).spn.mode = 11 ∧
    (classifyCatch 30 true 0 { upIn .spinningUp with ptn := { activeOut := true } }).spn.mode = 3 := by decide +kernel
theorem test_slow_wait_done : after .slowWaitDone { upIn .spinningUp with spn := { mode := 11 } } (fun t => t.spn.mode == 9 || t.spn.mode == 3) = true := by decide
theorem test_slow_wait_timeout : after .slowWaitTimeout { upIn .spinningUp with spn := { mode := 11 } }
    (fun t => t.dev == .stopped && t.spn.lastEvent == 0x23) = true := by decide
theorem test_align_done : after .alignDone { upIn .spinningUp with spn := { mode := 3 } }
    (fun t => t.spn.mode == 4 && t.spc.iqSet == 15000) = true := by decide
theorem test_handoff_second_failure : after .handoffTimeout { upIn .spinningUp with spn := { mode := 4 }, spc := { handoffFails := 1 } }
    (fun t => t.dev == .stopped && t.spn.lastEvent == 0x25) = true := by decide
theorem test_handoff_first_failure : after .handoffTimeout { upIn .spinningUp with spn := { mode := 4 } }
    (fun t => t.spn.mode == 11 && t.dev == .spinningUp) = true := by decide
/-- R261: 0.5% of 5,400 rpm is 27 rpm. -/
def atSpeed (rpm : Int) : State := { upIn .spinningUp with
  img := { arms := 1 }, spn := { mode := 5, speed := 65536 * rpm }, spc := { nearSince := if nearService up (65536 * rpm) then some 0 else none },
  gov := { ctxs := [(138, { enable := true })] } }
theorem test_spinup_at_limit : after .spinupComplete (atSpeed 5373) (fun t => t.dev == .loading && (getArm t 0).loadDue == some 0) = true := by decide
theorem test_spinup_below : after .spinupComplete (atSpeed 5372) (fun t => t.dev == .spinningUp) = true := by decide
theorem test_catch_at_1000 : after .catchAt1000 { atSpeed 1000 with spc := { fromRest := true } } (fun t => t.spn.mode == 2 && !t.spc.fromRest) = true := by decide
theorem test_catch_at_999 : still .catchAt1000 { atSpeed 999 with spc := { fromRest := true } } := rfl
theorem test_sense_fault_third : after (.senseFault false) { upIn .spinningUp with spc := { badPeriods := 2 } }
    (fun t => t.dev == .stopped && t.spn.lastEvent == 0x29) = true := by decide
theorem test_su_timeout : after .suTimeout { upIn .spinningUp with aon := { up := 180000000000 } } (fun t => t.dev == .stopped && t.spn.lastEvent == 0x26) = true := by decide
theorem test_su_timeout_paused : still .suTimeout { upIn .spinningUp with aon := { up := 180000000000 }, spn := { budgetPause := true } } := rfl
theorem test_window_entry_timeout : after .windowEntryTimeout { upIn .loading with gov := { ctxs := [(138, { rEff := 353894400 })] } }
    (fun t => t.hop.closed && t.hop.stopCause == 0x28) = true := by decide
theorem test_voltage_limit : after .voltageLimitFault { upIn .ready with spn := { mode := 5, vlimit := true }, spc := { satSince := some 0 } } (fun t => t.dev == .faultHold) = true := by decide
/-- An image whose conversions are 4 mV and 1 mA a step. -/
def gains : Image := { lists := [(0x30, [(103, 4000), (104, 1000)])] }
/-- R264: on, and less than CHOP_I_MIN of 1,000 mA. -/
theorem test_chopper_fault : after (.chopperFault 0 999) { upIn .ready with img := gains, spn := { chopOn := true } }
    (fun t => t.dev == .faultHold && t.spn.chopFault == 1 && t.spn.chopper == 1) = true := by decide +kernel
theorem test_bus_undervoltage : after .busUndervoltage (upIn .ready) (fun t => t.dev == .faultHold && t.spn.lastEvent == 0x2D) = true := by decide
/-- R241, R266: a bad period; a bus above 16.0 V. -/
theorem test_period_bad : after (.pwmPeriod {}) up (fun t => t.spc.badPeriods == 1) = true := by decide
theorem test_overcurrent_recatch : after .overcurrentRecatch { upIn .faultHold with spn := { mode := 9 }, spc := { recatchDue := true } }
    (fun t => t.spn.mode == 1 && !t.spc.recatchDue) = true := by decide
/-- R263: 13.2 V is not above V_CHOP_ON; 12.8 V is not below V_CHOP_OFF. -/
theorem test_chopper_on : after (.chopperOn 3301) { upIn .ready with img := gains, ptn := { activeOut := true } } (fun t => t.spn.chopOn) = true := by decide +kernel
theorem test_chopper_on_at_limit : after (.chopperOn 3300) { upIn .ready with img := gains, ptn := { activeOut := true } } (fun t => !t.spn.chopOn) = true := by decide +kernel
theorem test_chopper_off : after (.chopperOff 3199) { upIn .ready with img := gains, spn := { chopOn := true } } (fun t => !t.spn.chopOn && t.tx == [.chopper false]) = true := by decide +kernel
theorem test_chopper_off_at_limit : after (.chopperOff 3200) { upIn .ready with img := gains, spn := { chopOn := true } } (fun t => t.spn.chopOn) = true := by decide +kernel
theorem test_bus_ov_recover : after .busOvRecover { upIn .ready with ptn := { activeOut := true }, spc := { overvolt := true } }
    (fun t => !t.spc.overvolt && t.spn.mode == 1) = true := by decide
theorem test_generator_exhausted : after .generatorExhausted { upIn .holdUp with spn := { mode := 10 } }
    (fun t => t.spn.mode == 9 && t.spc.generatorEnded && t.spn.lastEvent == 0x2E) = true := by decide
/-- R250: a sample takes 10 periods of the observer. -/
theorem test_speed_sample_not_due : still (.speedSample {}) { up with spc := { decim := 9 } } := rfl
theorem test_speed_source_timeout : after .speedSourceTimeout { upIn .ready with img := { arms := 1 }, arms := [(0, { state := 5 })] }
    (fun t => t.hop.stopCause == 0x3C) = true := by decide
/-- R252: 0.008% of 5,400 rpm is 0.432 rpm, 0.01% is 0.54 rpm. -/
theorem test_mean_good : (judgeMean (65536 * 5400 + 28311) up).spc.goodMeans = 1 := by decide
theorem test_mean_bad : (judgeMean (65536 * 5400 + 28312) up).spc.goodMeans = 0 := by decide
theorem test_mean_leaves : (judgeMean (65536 * 5400 + 35390) { upIn .ready with spn := { window := true } }).spn.window = false := by decide
theorem test_mean_stays : (judgeMean (65536 * 5400 + 35389) { upIn .ready with spn := { window := true } }).spn.window = true := by decide
theorem test_window_entered : after .dataWindowEntry { upIn .loading with spc := { goodMeans := 960 } } (fun t => t.spn.window && t.spc.everWindow) = true := by decide
theorem test_window_not_yet : still .dataWindowEntry { upIn .loading with spc := { goodMeans := 959 } } := rfl
theorem test_window_timeout : after .dataWindowTimeout { upIn .ready with spc := { everWindow := true, outSince := some 0 } }
    (fun t => t.dev == .faultHold && t.flt.holdCause == 0x28) = true := by decide
theorem test_observer_lock : after .observerLock { upIn .spinningUp with spc := { gates := true, lockRun := 48, lockEps := List.replicate 48 0 }, spn := { mode := 5 } }
    (fun t => t.spn.lock && (getCtx t 138).enable) = true := by decide +kernel
theorem test_observer_lock_loss : after .observerLockLoss { upIn .ready with spn := { mode := 5, lock := true }, spc := { epsRun := 96 } }
    (fun t => !t.spn.lock && t.dev == .faultHold) = true := by decide
theorem test_brake_starts : after .brakeStart { upIn .parked with ptn := { activeOut := true }, start := { inReset := false, powerOnReset := false, parkStep := 5 }, spn := { mode := 5, speed := 65536 * 5400 } }
    (fun t => t.spc.stopping && t.spn.mode == 7 && t.spc.iqSet == -15000) = true := by decide
theorem test_short_brake_switch : after .shortBrakeSwitch { up with spn := { mode := 7 } } (fun t => t.spn.mode == 8) = true := by decide
theorem test_spindle_stopped_parks : after .spindleStopped { upIn .ready with start := { inReset := false, powerOnReset := false, parkStep := 5 }, spc := { stopping := true }, spn := { mode := 8 } }
    (fun t => t.dev == .parked && t.spn.mode == 0) = true := by decide

def starting : State := { upIn .spinningUp with ptn := { activeOut := true }, spn := { mode := 2 } }
theorem test_catch_at_rest : (let t := classifyCatch 59 true 0 starting; t.spn.mode = 3 ∧ t.spc.gates = true) := by decide
theorem test_catch_slow : (let t := classifyCatch 60 false 0 starting; t.spn.mode = 11 ∧ t.spn.lastEvent = 0x21) := by decide
theorem test_catch_backward : (let t := classifyCatch (-60) false 0 starting; t.spn.mode = 11 ∧ t.spn.lastEvent = 0x22) := by decide
theorem test_catch_fast : (keCheck 1000 (keNom starting.img) starting).1 = true ∧ (classifyCatch 1000 false (keNom starting.img) starting).spn.mode = 5 := by decide +kernel
/-- Witness of the clause of OBSERVER_HANDOFF, at an N_HANDOFF of 0. -/
def handing : State := { upIn .spinningUp with img := { lists := [(0x30, [(15, 0)])] }, spn := { mode := 4, lock := true } }
theorem test_witness_handoff : awake handing = true ∧ handing.spn.mode = 4 ∧ handing.spn.lock = true ∧ (nHandoff handing.img : Rat) ≤ openRpm handing ∧
    10 * |obsRpm handing - openRpm handing| ≤ openRpm handing := by
  have h : nHandoff handing.img = 0 := by decide
  have ho : openRpm handing = 0 := by simp [openRpm, openTime, since, now, handing, upIn, up]
  have hr : obsRpm handing = 0 := by simp [obsRpm, handing, upIn, up]
  exact ⟨by decide, by decide, by decide, by simp [h, ho], by simp [ho, hr]⟩
theorem test_handoff_early : still .observerHandoff { upIn .spinningUp with spn := { mode := 4 } } := rfl
def loaded : State := { upIn .loading with
  img := { arms := 1 }, arms := [(0, { state := 5 })], spn := { window := true }, hold := { areaOk := true },
  start := { inReset := false, powerOnReset := false, replayRead := true },
  gov := { ctxs := [] } }
theorem test_loading_complete : after .loadingComplete loaded (fun t => t.dev == .ready && t.start.everReady && t.start.step == 18) = true := by decide
theorem test_retire : after (.dumpRetire 1) { retires with fls := { plan := some [{ kind := 2, dense := true, blocks := 32 }] } } (fun t => t.hold.replay == [] && t.hold.areas[1].armed && t.hold.areaOk) = true := by decide +kernel


-- Servo (chapter 6).

/-- One arm on track with one head, in Ready. -/
def onArm (r : Arm) (h : Head) : State := { upIn .ready with img := { arms := 1, heads := 1, wedges := 500 }, arms := [(0, r)], heads := [(0, h)] }
/-- A failed island yields nothing (R103), whatever the samples are. -/
def deaf (r : Arm) (h : Head) : State := { onArm r { h with island := 9 } with islands := [(9, { failed := true })] }
/-- R182, R183: a wedge that neither reader finds is lost; the estimate goes on, and a writer is gated. -/
theorem test_wedge_lost : after (.servoWedge 0 0) (deaf { state := 5 } { state := 2, pos := 100, dPos := 7, lostRun := 254, writing := true })
    (fun t => (getHead t 0).pos == 107 && (getHead t 0).lostWedge == 1 && (getHead t 0).lostRun == 255 && !(getHead t 0).writing) = true := by decide
/-- What WedgesGivePositionsAndClearances says of a wedge that was found, on the result of demodulation itself: what the samples give passes through filter
taps that are free (log entry 43). A position beyond 12% of a track gates the writer (R195). -/
theorem test_wedge_position : (let t := trackWedge 0 { found := true, tSam := 0, header := some (3, 0), idOk := true, pos := some 491 } { onArm { state := 5 } { state := 2, pos := 100, lostRun := 3, writing := true } with spn := { window := true } }
    ((getHead t 0).pos, (getHead t 0).dPos, (getHead t 0).lostRun, (getHead t 0).wedge, (getHead t 0).gated) = (491, 391, 0, 3, false)) := by decide
theorem test_wedge_gated : (let t := trackWedge 0 { found := true, tSam := 0, header := some (3, 0), idOk := true, pos := some 492 } { onArm { state := 5 } { state := 2, pos := 100, writing := true } with spn := { window := true } }
    (getHead t 0).writing = false ∧ (getHead t 0).gated = true) := by decide
theorem test_wedge_wrong_surface : (let t := trackWedge 0 { found := true, tSam := 0, header := some (3, 1), idOk := true, pos := some 491 } (onArm { state := 5 } { state := 2, pos := 100, wrongSurf := 2 })
    ((getHead t 0).pos, (getHead t 0).wrongSurf, (getHead t 0).lostRun) = (100, 3, 1)) := by decide
/-- The fourth good wedge in a row, one nominal interval after the third (R201). -/
theorem test_wedge_acquires : (let s := onArm { state := 2 } { state := 1, acqRun := 3 }
    let t := acquireWedge 0 { found := true, tSam := nominalW s, header := some (3, 0), pos := some 491 } s;
    (getHead t 0).state = 2 ∧ (getHead t 0).everAcquired = true) := by decide
/-- R202: the fourth wedge without a SAM takes a head off servo while its arm unloads. -/
theorem test_wedge_off : after (.servoWedge 0 0) (deaf { state := 6 } { state := 2, lostRun := 3 }) (fun t => (getHead t 0).state == 0) = true ∧
    after (.servoWedge 0 0) (deaf { state := 6 } { state := 2, lostRun := 2 }) (fun t => (getHead t 0).state == 2) = true := by decide
theorem test_wedge_parked : still (.servoWedge 0 0) (onArm {} { state := 2 }) := rfl
/-- R197: 31 valid wedges are too few. -/
theorem test_clearance_early : still (.clearanceEstimate 0 0) (onArm { state := 5 } { state := 2, hrCount := 31 }) := rfl
theorem test_witness_clearance : let s := onArm { state := 5 } { state := 2, hrCount := 32, readPwr := 100 }
    awake s = true ∧ 32 ≤ (getHead s 0).hrCount ∧ (getCtx s 72).enable = false := by decide
theorem test_coast_timeout : after (.armCoastTimeout 0) (onArm { state := 5, coast := true } { state := 2 })
    (fun t => (getArm t 0).state == 6 && (getArm t 0).again) = true := by decide
/-- R183: the fourth wrong surface number. -/
theorem test_surface_fourth : after (.surfaceMismatch 0 0) (onArm { state := 5, tracked := true } { state := 2, wrongSurf := 4 })
    (fun t => (getHead t 0).failed && t.layout.failedHeads == [(0, 0)]) = true := by decide
theorem test_surface_third : still (.surfaceMismatch 0 0) (onArm { state := 5, tracked := true } { state := 2, wrongSurf := 3 }) := rfl
/-- Table 6.8: four lost wedges, or three invalid track numbers. -/
theorem test_loss_run : after (.wedgeLossRun 0 0) (onArm { state := 5 } { state := 5, lostRun := 4, preset := 9, onRead := true })
    (fun t => (getHead t 0).state == 6 && (getHead t 0).mu == 9 && !(getHead t 0).onRead) = true := by decide
theorem test_loss_run_short : still (.wedgeLossRun 0 0) (onArm { state := 5 } { state := 5, lostRun := 3, badIdRun := 2 }) := rfl
theorem test_reacquire_timeout : after (.reacquireTimeout 0 0) (onArm { state := 5 } { state := 6 }) (fun t => (getHead t 0).failed) = true := by decide
theorem test_stroke_short : still (.strokeLimitRun 0 0) (onArm { state := 5 } { state := 2, strokeRun := 7 }) := rfl
theorem test_disagree : after (.readerDisagreeRun 0 0) (onArm { state := 5 } { state := 2, disagreeRun := 64 })
    (fun t => (getHead t 0).disagreeRun == 0 && t.dev == .ready) = true := by decide
/-- R193: SETTLE_MAX is 24 wedges; a first timeout gives the settle once more time. -/
theorem test_settle_once_more : after (.settleTimeout 0 0) (onArm { state := 4, seek := some { settle := 24 } } { state := 4 })
    (fun t => ((getArm t 0).seek.map fun k => (k.settle, k.repeated)) == some (0, true)) = true := by decide
theorem test_settle_early : still (.settleTimeout 0 0) (onArm { state := 4, seek := some { settle := 23 } } { state := 4 }) := rfl
/-- R200: an arm waits for the spindle. -/
theorem test_load_waits : after (.armLoad 0) (onArm { loadDue := some 0, flags := 4 } {}) (fun t => (getArm t 0).state == 0 && (getArm t 0).loadDue == some 0) = true := by decide
theorem test_load_not_due : still (.armLoad 0) (onArm { flags := 4 } {}) := rfl
theorem test_acquire_timeout_again : after (.loadAcquireTimeout 0) (onArm { state := 2, attempts := 2 } { state := 1 })
    (fun t => (getArm t 0).state == 6 && (getArm t 0).again) = true := by decide
theorem test_acquire_timeout_stops : after (.loadAcquireTimeout 0) (onArm { state := 2, attempts := 3 } { state := 1 })
    (fun t => t.hop.stopCause == 0x3C) = true := by decide
theorem test_arm_unload : after (.armUnload 0) (onArm { state := 5 } { state := 2 })
    (fun t => (getArm t 0).state == 6 && (getCtx t 140).enable && !(getCtx t 0).enable) = true := by decide
theorem test_unload_complete : after (.unloadComplete 0) { onArm { state := 6, seq := 255, vEmf := 3 } {} with img := { arms := 1, lists := [(0x20, [(13, 301)])] } } (fun t => (getArm t 0).state == 0 && (getArm t 0).due == [2]) = true := by decide
theorem test_unload_timeout : after (.unloadTimeout 0) (onArm { state := 6 } {}) (fun t => (getArm t 0).state == 7) = true := by decide
/-- R206: the third bad frame in a row with the arm off its ramp. An all-zero frame's CRC is not zero. -/
theorem test_di_third_bad : after (.vcmDiFrame 0 ⟨0⟩) { onArm { state := 5, badRun := 2 } { state := 2 } with ptn := { activeOut := true } }
    (fun t => (getArm t 0).frameErr == 1 && (getArm t 0).faulted && (getArm t 0).state == 7 && t.dev == .faultHold) = true := by decide
theorem test_di_on_ramp : after (.vcmDiFrame 0 ⟨0⟩) (onArm { badRun := 2 } {}) (fun t => (getArm t 0).frameErr == 1 && !(getArm t 0).faulted) = true := by decide
theorem test_retracted_wait : after (.retractedWaitTimeout 0) (onArm { loadDue := some 0 } {}) (fun t => (getArm t 0).faulted && t.dev == .faultHold) = true := by decide
theorem test_vcm_reload : after (.vcmReload 0) (onArm { faulted := true, flags := 4, reloads := 2 } {})
    (fun t => (getArm t 0).reloads == 3 && (getArm t 0).loadDue == some 0) = true := by decide
theorem test_vcm_reload_fourth : after (.vcmReload 0) (onArm { faulted := true, flags := 4, reloads := 3 } {}) (fun t => t.hop.stopCause == 0x3A) = true := by decide
theorem test_vcm_reload_timeout : after (.vcmReloadTimeout 0) (onArm { faulted := true } {}) (fun t => t.hop.stopCause == 0x3A) = true := by decide

-- Governor (chapter 7).

def ctxIn (d : DevState) (n : Nat) (c : Ctx) : State := { upIn d with gov := { ctxs := [(n, c)] } }
theorem test_loop_disabled : still (.loopExecute 136 5 {}) (ctxIn .ready 136 { out := 9 }) := rfl
/-- R232: a context that still runs keeps its output and counts. -/
theorem test_loop_overrun : after (.loopExecute 136 5 { running := true, latency := 65536 }) (ctxIn .ready 136 { enable := true, out := 9 })
    (fun t => (getCtx t 136).out == 9 && (getCtx t 136).overrun == 1 && (getCtx t 136).latency == 65535) = true := by decide
/-- R233: a data error takes the loop into its start law with Fault-hold. -/
theorem test_loop_data_error : after (.loopExecute 150 5 { ue := true }) (ctxIn .ready 150 { enable := true, fmt := true })
    (fun t => !(getCtx t 150).fmt && (getCtx t 150).failed && t.dev == .faultHold) = true := by decide
theorem test_switch_timeout_spindle : after (.loopSwitchTimeout 138) (ctxIn .ready 138 { enable := true, request := some 65536 })
    (fun t => t.hop.stopCause == 0x3C) = true := by decide
theorem test_switch_early : still (.loopSwitchTimeout 138) (ctxIn .ready 138 { enable := true, request := some 65535 }) := rfl
/-- A section of zeros whose five binary points are at 16 (R216). -/
def section0 : BitVec 256 := BitVec.ofNat 256 (16 * (2 ^ 66 + 2 ^ 72 + 2 ^ 78 + 2 ^ 84 + 2 ^ 90))
theorem test_law_replaced : after (.lawReplace 150 2047 [section0] 30) { ctxIn .ready 150 { nServ := 1, servBase := 3 } with start := { up.start with imageLoaded := true } }
    (fun t => (getCtx t 150).servBase == 2047 && tabGet 0 t.gov.store 2047 == section0) = true := by decide +kernel
/-- PM_MIN is 30 degrees. -/
theorem test_law_margin : after (.lawReplace 150 2047 [section0] 29) { ctxIn .ready 150 { nServ := 1, servBase := 3 } with start := { up.start with imageLoaded := true } }
    (fun t => (getCtx t 150).servBase == 3) = true := by decide +kernel
theorem test_law_in_use : still (.lawReplace 136 3 [section0] 30) (ctxIn .ready 136 { enable := true, nServ := 1, servBase := 3 }) := rfl
theorem test_sine_out_of_service : still (.sineInjectStart 0 150 0 100 5) (ctxIn .faultHold 150 { enable := true, fmt := true }) := rfl
theorem test_sine_starts : after (.sineInjectStart 0 150 0 100 5) (ctxIn .ready 150 { enable := true, fmt := true })
    (fun t => (getSine t 0).on && (getSine t 0).periods == 5) = true := by decide
theorem test_trace_trigger : after .traceTrigger { up with gov := { armed := true, pre := 64, trace := [(3, { state := 1, writeIdx := 12 })] } }
    (fun t => !t.gov.armed && (getTrace t 3).state == 2 && (getTrace t 3).trigIdx == 12 && (getTrace t 3).left == 0) = true := by decide
theorem test_trace_done : after (.traceCaptureDone 3) { up with gov := { trace := [(3, { state := 2 })] } } (fun t => (getTrace t 3).state == 3) = true := by decide

-- Channel and bolter (chapters 3 to 5).

def armUp (k : ArmLink) : State := { upIn .ready with img := { arms := 1, heads := 2 }, alks := [(0, { k with link := 2 })] }
/-- R75: the stream is in bits 63:60. -/
theorem test_sample_stream : after (.sampleWord 0 0x3000000000000000) (armUp {}) (fun t => (tabGet {} (getAlk t 0).streams 3).words == [(0, 0x3000000000000000)]) = true := by decide
theorem test_sample_link_down : still (.sampleWord 0 0x3000000000000000) (upIn .ready) := rfl
/-- R77: a mark may name a word still to come, but the next 720 words at most (log entry 43). -/
theorem test_mark_ahead : after (.streamMark 0 0x0030020000000005) (armUp { streams := [(3, { running := true, next := 1, words := [(0, 7)] })] })
    (fun t => let d := tabGet {} (getAlk t 0).streams 3; d.next == 1 && d.marks == [(2, 5)] && d.words == [(0, 7)] && (getAlk t 0).msgErr == 0) = true := by decide
/-- R77: a mark whose word count does not follow erases what came since the last one. -/
theorem test_mark_gap : after (.streamMark 0 0x0033200000000005) (armUp { streams := [(3, { running := true, next := 1, words := [(0, 7)] })] })
    (fun t => let d := tabGet {} (getAlk t 0).streams 3; d.next == 800 && d.marks == [(800, 5)] && d.words == [(0, erasedWord)] && (getAlk t 0).msgErr == 1) = true := by decide
def islandOn (i : Island) (h : Head) : State := { armUp {} with islands := [(5, i)], heads := [(0, h)] }
theorem test_frame_not_reading : still (.preambleSearch 5 0) (islandOn { assigned := true, state := 1 } {}) := rfl
/-- Witness of the clauses of FramesGiveCodewords: a head that reads, on track, for a sector that waits at the place. -/
theorem test_witness_frame_reading : let s := { islandOn { assigned := true, state := 2 } { onRead := true } with bol := { sectors := [{}] } }
    awake s = true ∧ (getIsl s 5).state = 2 ∧ (getHead s 0).suspended = false ∧ (getHead s 0).onRead = true ∧ (getHead s 0).lostRun < 2 := by decide
/-- Witness of the clauses of FramesGiveCodewords up to the frame's acquisition: an operation of the arm whose sector waits at slot 0. With no samples there is
no preamble: the frame is missed, and its entry kept. -/
def reads : State := { islandOn { assigned := true, state := 2 } { onRead := true } with
  bol := { sectors := [{}] }, slu := { ops := [(0, some { kind := .rowRead, want := List.range 64, heads := [0, 1] })] } }
theorem test_witness_reads : secsAt reads 0 0 0 = [{}] ∧ ((visitStep reads 0).filter fun x => x.2.1.kind = 0) = none := by decide
theorem test_frame_off_track : after (.preambleSearch 5 0) { reads with heads := [(0, {})] } (fun t => (getIsl t 5).frames == 1 && (getIsl t 5).miss == 0) = true := by decide
theorem test_frame_missed : after (.preambleSearch 5 0) reads (fun t => (getIsl t 5).frames == 1 && (getIsl t 5).miss == 1 && t.bol.queue.isEmpty) = true := by decide +kernel
theorem test_second_not_asked : still (.secondCandidateRebuild 5) (islandOn { assigned := true, state := 2 } {}) := rfl
/-- R130: 1,025 erased cells fail the check, and a gated head's frames are not counted. -/
theorem test_raw_limits : (let s := islandOn { assigned := true, state := 3 } {}
    rawResult s 0 0 { synced := true, erased := 1024 } = 0 ∧ rawResult s 0 0 { synced := true, erased := 1025 } = 2 ∧ rawResult s 0 0 {} = 2) := by decide
theorem test_raw_nothing_written : still (.rawCheck 5 0) (islandOn { assigned := true, state := 3 } {}) := rfl
/-- R122: eight entries; the ninth frame overwrites the oldest. -/
theorem test_ninth_frame : (let s := (List.range 9).foldl (fun s k => pushEntry 5 { frame := k } s) (islandOn { assigned := true, state := 2 } {})
    (getIsl s 5).frames = 9 ∧ ((getIsl s 5).sbuf.map fun e => e.frame) = [1, 2, 3, 4, 5, 6, 7, 8]) := by decide
theorem test_raw_result_taken : after (.rawResultHandle 5) { islandOn { assigned := true, state := 3 } {} with mqs := [(0, { words := [(0, true)] })] }
    (fun t => (getMq t 0).words == []) = true := by decide
/-- R101: the head of a failed island is suspended and steered to the lowest free spare. -/
theorem test_island_fails : after (.islandFail 5 0) (islandOn { assigned := true, state := 2 } {})
    (fun t => (getIsl t 5).failed && (getIsl t 5).steering == some 64 && (getHead t 0).suspended && t.dev == .ready) = true := by decide
theorem test_island_reassigned : after (.islandReassign 0 1 64) (islandOn { assigned := true, state := 2 } {})
    (fun t => (getIsl t 64).assigned && (getIsl t 64).state == 4 && (getHead t 1).island == 64) = true := by decide +kernel
theorem test_island_tables : after (.islandTablesLoaded 5) (islandOn { assigned := true, state := 4 } { suspended := true })
    (fun t => (getIsl t 5).state == 1 && !(getHead t 0).suspended) = true := by decide
theorem test_no_pressure : still .headSuspendTick up := rfl
theorem test_pressure_over : after .headResumeTick { up with bol := { pressure := 2, fantailSuspended := true } }
    (fun t => t.bol.pressure == 0 && !t.bol.fantailSuspended) = true := by decide
/-- R152: a retry goes before a first decode that waited longer. -/
def queued : State := { upIn .ready with bol := { queue := [(3, { rung := 1 }), (4, { rung := 2 })] } }
theorem test_take_retry : after (.codewordTake 0) queued (fun t => (getEngine t 0).busy == some 4) = true := by decide
theorem test_take_spare : still (.codewordTake 96) queued := rfl
theorem test_decode_idle : still (.decodeDone 0) queued := rfl
/-- Witness of the clauses of DECODE_DONE: an engine that decodes slot 3. -/
theorem test_witness_decode : let s := { queued with bol := { queued.bol with engines := [(0, { busy := some 3 })] } }
    (((getEngine s 0).busy.bind fun k => s.bol.queue.find? fun q => q.1 = k).map (·.1)) = some 3 := by decide
theorem test_engine_spared : after (.engineTimeout 7 1) queued (fun t => (getEngine t 7).failed && t.bol.spareMap == [(0, 7)] && t.dev == .ready) = true := by decide
theorem test_engine_fifth : after (.engineTimeout 7 2) { queued with bol := { queued.bol with spareMap := [(0, 1), (1, 2), (2, 3), (3, 4)] } }
    (fun t => t.hop.stopCause == 0x4F) = true := by decide
theorem test_slot_error : after (.queueSlotUe 3) queued (fun t => t.bol.queue.all fun p => p.1 != 3) = true := by decide
theorem test_slot_empty : still (.queueSlotUe 5) queued := rfl


-- Rows, sluice and millpond (chapters 2, 9, 13).

/-- A drive of one arm with two heads in Ready. -/
def drive : State := { upIn .ready with img := { arms := 1, heads := 2 }, ptn := { role := 1 } }
theorem test_row_nothing_due : still .rowBuild { up with img := { arms := 1 } } := rfl
theorem test_age_no_version : still (.dirtyAgeExpiry 5) drive := rfl
theorem test_pin_wait_idle : still (.pinWaitExpiry 0) up := rfl
/-- R294: a row whose sectors have all passed commits with its record. -/
def passedRow : State := { drive with rows := [{ row := 3, kind := 1, sectors := [(0, { st := 2 })] }] }
theorem test_witness_row_commit : (passedRow.rows.find? fun r => r.row = 3).isSome = true ∧ awake passedRow = true := by decide
theorem test_row_not_under_write : still (.rowCommit 4) passedRow := rfl
theorem test_commit_flush : after .commitRecordFlush { drive with mpd := { commits := [{ row := 3 }] } } (fun t => t.mpd.commits == []) = true := by decide
theorem test_commit_flush_stopped : after .commitRecordFlush { drive with mpd := { commits := [{ row := 3 }] }, hold := { flashStopped := true } }
    (fun t => t.mpd.commits == [{ row := 3 }]) = true := by decide
theorem test_head_declared : after (.headFailDeclare 0 1) { drive with img := { arms := 1, heads := 2, headFailMax := 2 } }
    (fun t => (getHead t 1).failed && t.layout.failedHeads == [(0, 1)] && t.dev == .ready) = true := by decide
theorem test_head_not_fitted : still (.headFailDeclare 0 2) drive := rfl
theorem test_grant_no_link : still (.operationGrant 0) { drive with arms := [(0, { state := 5 })] } := rfl
/-- Witness of the clauses of OPERATION_GRANT: an arm on track with one row write and nothing else to do. -/
def waits1 : State := { upIn .loading with
  img := { arms := 1, heads := 2 }, arms := [(0, { state := 5 })], alks := [(0, { link := 2 })], slu := { work := [{ arm := 0, kind := .rowWrite }] } }
theorem test_witness_grant : awake waits1 = true ∧ (getArm waits1 0).state = 5 ∧ opOf waits1 0 = none ∧ alkUp waits1 0 = true ∧ waits1.slu.granted = none ∧
    waits1.fan.due = [] ∧ waits1.mpd.clean = [] := by decide
theorem test_gate_off_idle : still (.islandGateOff 0) drive := rfl
/-- R404: BPWM_EN set, periods from 0.2 ms to 5 ms. -/
def pwmIn (l : Sluice) : State := { upIn .parked with img := { lists := [(0x40, [(1, 1), (2, 100), (3, 200)])] }, slu := l }
theorem test_pwm_period : after (.budgetPwmPeriod 200000 100000) (pwmIn {}) (fun t => t.slu.pwmState == 1 && t.slu.duties == [(100000, 200000)]) = true := by decide +kernel
theorem test_pwm_period_short : after (.budgetPwmPeriod 199999 100) (pwmIn {}) (fun t => t.slu.pwmState == 0 && t.slu.duties == [] && t.pwr.bpwm) = true := by decide +kernel
theorem test_pwm_silence : after .budgetPwmSilence (pwmIn { pwmState := 1 }) (fun t => t.slu.pwmState == 2) = true := by decide
theorem test_pwm_hold_ends : after .bpwmHoldExpiry (pwmIn { pwmState := 2 }) (fun t => t.slu.pwmState == 3 && t.slu.duties == []) = true := by decide +kernel
theorem test_pwm_rise : after .pwmRiseSettle (pwmIn { pwmState := 1, decoded := [(0, some 100), (0, some 200)] })
    (fun t => t.slu.decoded == [(0, some 200)]) = true := by decide +kernel
/-- R307: an uncorrectable error of a slot of the millrace is no channel's. -/
theorem test_ue_counted : after (.millpondUe 0x4F (.bothCopies 2 0)) drive (fun t => (getChan t 2).ue == 1 && t.dev == .faultHold) = true := by decide
theorem test_ue_slot : after (.millpondUe 0x4F (.slot 0)) drive (fun t => (getChan t 2).ue == 0) = true := by decide
def pond (m : Millpond) : State := { drive with mpd := { m with chans := [(0, { role := 1, logical := 0 }), (1, { role := 1, logical := 1 }), (8, { role := 2 })] } }
theorem test_migration_starts : after (.migrationStart 1 0) (pond { state := 2, spare := 8 })
    (fun t => t.mpd.state == 3 && t.mpd.spare == 15 && (getChan t 1).role == 3 && (getChan t 8).role == 4 && (getChan t 8).logical == 1) = true := by decide
theorem test_migration_no_spare : after (.migrationStart 1 0) (pond { state := 2 }) (fun t => t.mpd.state == 4 && t.hop.closed && t.hop.stopCause == 0xAC) = true := by decide
theorem test_migration_complete : after .migrationComplete { drive with mpd := { state := 3, migLogical := 1, migCursor := 131072, chans := [(1, { role := 3 }), (8, { role := 4 })] } }
    (fun t => t.mpd.state == 2 && (getChan t 1).role == 5 && (getChan t 8).role == 1) = true := by decide
/-- R524: a syndrome of one set bit is correctable (a check bit). -/
theorem test_scrub_corrected : after (.scrubRead 0 ((Vector.replicate 8 0).set 7 1)) (pond { state := 2 }) (fun t => (getChan t 0).ce == 1 && (getChan t 0).ue == 0) = true := by decide
theorem test_scrub_spare : still (.scrubRead 8 (Vector.replicate 8 1)) (pond { state := 2 }) := rfl
theorem test_spare_fails : after (.sparePatternTest false) (pond { state := 2, spare := 8 }) (fun t => t.mpd.spare == 15 && (getChan t 8).role == 5) = true := by decide
theorem test_spare_training : after .spareChannelTrainingLoss (pond { state := 2, spare := 8 }) (fun t => t.mpd.spare == 15) = true := by decide
theorem test_refresh_wraps : after (.dramRefresh 1) { drive with mpd := { state := 2, chans := [(1, { refreshRow := 131071 })] } } (fun t => (getChan t 1).refreshRow == 0) = true := by decide
theorem test_calibration : after (.zqCalShort 1) { drive with aon := { up := 9 }, mpd := { state := 2 } } (fun t => (getChan t 1).calAt == 9) = true := by decide

-- Transfer engine (chapter 10).

def chan (c : TreCh) : State := { drive with tre := { chans := [(5, c)] } }
def plain : Descriptor := { type := 1, count := 1 }
theorem test_post : after (.descriptorPost 5 plain) drive (fun t => (getTre t 5).ring == [(plain, false)]) = true := by decide
/-- R321: a descriptor of no elements is invalid. -/
theorem test_start_invalid : after (.descriptorStart 5) (chan { ring := [({ plain with count := 0 }, false)] })
    (fun t => (getTre t 5).state == 3 && (getTre t 5).cause == 1 && (getTre t 5).halts == 1) = true := by decide
theorem test_start_cancelled : after (.descriptorStart 5) (chan { ring := [(plain, true)] }) (fun t => (getTre t 5).ring == [] && (getTre t 5).state == 0) = true := by decide
theorem test_done_idle : still (.descriptorDone 5) (chan { ring := [(plain, false)] }) := rfl
theorem test_halt_source : after (.channelHalt 5 .sourceUe 64 0) (chan { ring := [(plain, false)], state := 1, running := true })
    (fun t => (getTre t 5).state == 3 && (getTre t 5).halts == 1 && (getTre t 5).ring == [(plain, false)]) = true := by decide
theorem test_halt_idle : still (.channelHalt 5 .sourceUe 64 0) (chan { ring := [(plain, false)] }) := rfl
theorem test_pause_running : after (.trePause 5) (chan { state := 1, running := true }) (fun t => (getTre t 5).pausing && (getTre t 5).state == 1) = true := by decide
theorem test_pause_idle : after (.trePause 5) (chan {}) (fun t => (getTre t 5).state == 2) = true := by decide
theorem test_resume : after (.treResume 5) (chan { state := 2, pausing := true }) (fun t => (getTre t 5).state == 0 && !(getTre t 5).pausing) = true := by decide
theorem test_flush_halted : after (.treFlush 5) (chan { state := 3, ring := [(plain, false)] }) (fun t => (getTre t 5).ring == [] && (getTre t 5).state == 0) = true := by decide
theorem test_cancel_waiting : after (.treCancel 5 7 false) (chan { ring := [(plain, false), ({ plain with ctxV := true, ctx := 7 }, false)] })
    (fun t => (getTre t 5).ring.map (·.2) == [false, true]) = true := by decide
theorem test_retry_not_halted : still (.treRetry 5) (chan { ring := [(plain, false)] }) := rfl
theorem test_retry_goes_on : after (.treRetry 5) (chan { state := 3, running := true, cause := 8, elemIdx := 4, ring := [(plain, false)] })
    (fun t => (getTre t 5).state == 1 && (getTre t 5).elemIdx == 4) = true := by decide
theorem test_restart_checks : after (.treRestart 5) (chan { state := 3, cause := 8, elemIdx := 4, ring := [({ plain with count := 0 }, false)] })
    (fun t => (getTre t 5).state == 3 && (getTre t 5).cause == 1) = true := by decide
theorem test_skip : after (.treSkip 5) (chan { state := 3, cause := 8, ring := [(plain, false)] }) (fun t => (getTre t 5).ring == [] && (getTre t 5).state == 0) = true := by decide

-- Tally, message queues, faults (chapter 17).

theorem test_event_before_tally : after (.tallyEventPost 0x20 false 1 [5]) up (fun t => t.evt.staging.map (·.payload.take 2) == [[5, 0]] && t.evt.next == 0) = true := by decide
theorem test_event_indexed : after (.tallyEventPost 0x20 false 1 []) { up with evt := { running := true, next := 9 } }
    (fun t => t.evt.next == 10 && t.evt.staging.map (·.index) == [9]) = true := by decide
theorem test_event_full : after (.tallyEventPost 0x20 false 1 []) { up with evt := { running := true, full := 2 } } (fun t => t.evt.droppedFull == 1 && t.evt.staging == []) = true := by decide
theorem test_tally_flush : after .tallyFlushTimer { up with evt := { running := true, next := 1, staging := [{ code := 0x20 }], freeBlocks := 3 } }
    (fun t => t.evt.written.length == 16 && t.evt.written.map (·.pad) == false :: List.replicate 15 true && t.evt.staging == []) = true := by decide
theorem test_tally_flush_empty : still .tallyFlushTimer { up with evt := { running := true } } := rfl
theorem test_tally_erase_nothing : still .tallyBlockErase up := rfl
theorem test_packet_whole : after (.mqPacketWrite 3 [1, 2]) up (fun t => (getMq t 3).words == [(1, false), (2, true)] && (getMq t 3).packets == 1 && t.tx == [.doorbell 3]) = true := by decide
/-- R539: a queue of 4,096 words with one of them taken has no room for a producer behind another that waits. -/
theorem test_packet_waits : after (.mqPacketWrite 3 [1]) { up with mqs := [(3, { waiting := [[7]] })] } (fun t => (getMq t 3).waiting == [[7], [1]]) = true := by decide
theorem test_producer_timeout : after (.mqProducerTimeout 3 0) { drive with mqs := [(3, { waiting := [[7]] })] }
    (fun t => (getMq t 3).waiting == [] && (getMq t 3).overflow == 1 && t.dev == .faultHold && t.flt.holdCause == 0xA4) = true := by decide
theorem test_pop : after (.mqPop 3 false) { up with mqs := [(3, { words := [(7, true)], packets := 1 })] } (fun t => getMq t 3 == {} && t.tx == [.popped 3 0 7]) = true := by decide
theorem test_pop_stalls : after (.mqPop 3 false) up (fun t => (getMq t 3).stalled && t.tx == []) = true := by decide
theorem test_pop_bad_word : after (.mqPop 3 true) { up with mqs := [(3, { words := [(7, false), (8, true), (9, true)], packets := 2 })] }
    (fun t => (getMq t 3).words == [(9, true)] && (getMq t 3).packets == 1) = true := by decide
theorem test_pop_watchdog : after (.mqPopWatchdog 3) { up with mqs := [(3, { stalled := true })] } (fun t => (getMq t 3).wdog == 1 && t.tx == [.popped 3 2 0]) = true := by decide
theorem test_report_holds : after (.faultReport [{ master := 0x52, cause := 7, event := 0x2B, hold := true }]) (upIn .ready)
    (fun t => t.dev == .faultHold && t.flt.from_ == .ready && t.flt.quietSince == some 0 && t.flt.real.other == 1) = true := by decide
theorem test_first_error_copied : after .firstErrorCopy { up with flt := { first := { valid := true, more := 3 } }, evt := { running := true } }
    (fun t => !t.flt.first.valid && t.flt.first.more == 0) = true := by decide
theorem test_first_error_kept : still .firstErrorCopy { up with flt := { first := { valid := true } } } := rfl
def holding : State := { upIn .faultHold with flt := { awaiting := true, from_ := .loading, realSeen := true } }
theorem test_quiet : after .quietTimerExpiry { upIn .faultHold with flt := { quietSince := some 0 } } (fun t => t.flt.awaiting && t.flt.quietSince == none) = true := by decide
theorem test_release_returns : after .faultHoldRelease holding (fun t => t.dev == .loading && t.aon.returns == [0]) = true := by decide
/-- R520: the seventeenth return within 24 hours stops the part. -/
theorem test_release_limit : after .faultHoldRelease { holding with aon := { time := 100, returns := List.replicate 16 50 } }
    (fun t => t.hop.stopCause == 0xA3) = true := by decide
theorem test_release_open_cause : still .faultHoldRelease { holding with flt := { holding.flt with open_ := [{ event := 0x1D }] } } := rfl
theorem test_fail_stop_parked : after (.failStop 0x61) (upIn .parked) (fun t => t.dev == .stopped && t.hop.stopCause == 0x61) = true := by decide
theorem test_fail_stop_hold_up : still (.failStop 0x61) (upIn .holdUp) := rfl
theorem test_trap_first : after (.coreTrap 2 0 false false) (upIn .ready) (fun t => t.dev == .faultHold && t.flt.holdCause == 0xA5 && t.flt.coreFailed == 0) = true := by decide
theorem test_trap_second : after (.coreTrap 2 0 false false) { upIn .ready with aon := { up := 999999999 }, flt := { coreTraps := [(2, 0)] } }
    (fun t => t.flt.coreFailed == 4 && t.hop.stopCause == 0xA6) = true := by decide
theorem test_patrol_clean : still (.sramPatrol 0x48 0 0 (secDedCheck 0) true false) up := rfl
/-- R524: a check bit in error is corrected and counted. -/
theorem test_patrol_corrects : after (.sramPatrol 0x48 0 0 (secDedCheck 0 ^^^ 1) true false) up (fun t => t.flt.real.corrected == 1 && t.dev == .unconfigured) = true := by decide

-- Flash and fetch cache (chapter 16).

def cores : FlashReq := .mc 0
/-- A flash whose plan is one data region of 64 blocks, kind 4. -/
def onFlash (f : Flash) : State := { up with fls := { f with plan := some [{ kind := 4, dense := false, access := 3, blocks := 64 }] } }
/-- R483: no region has kind 9. -/
theorem test_read_no_region : after (.flashPageRead cores ⟨9, 0⟩ 0 []) (onFlash {}) (fun t => t.tx.contains (.flashStatus cores 5)) = true := by decide +kernel
theorem test_read_busy : after (.flashPageRead cores ⟨4, 0⟩ 0 [(true, 0)]) (onFlash { banks := [(0, { op := 2 })] })
    (fun t => t.tx.contains (.flashStatus cores 4) && t.fls.busyFault == 1) = true := by decide +kernel
theorem test_program_not_owner : after (.flashProgram .tally ⟨4, 0⟩ 0 [0]) (onFlash {}) (fun t => t.tx.contains (.flashStatus .tally 5) && t.fls.banks == []) = true := by decide +kernel
theorem test_program_done_idle : still (.flashProgramDone 2 true) up := rfl
theorem test_program_done : after (.flashProgramDone 2 true) { up with fls := { banks := [(2, { op := 2, who := some .tally, pending := [(77, 5)] })] } }
    (fun t => (getBank t 2).op == 0 && tabGet none t.fls.sectors 77 == some 5 && t.tx.contains (.flashStatus .tally 0)) = true := by decide +kernel
theorem test_erase_no_region : after (.flashErase .tally 9 0 0) (onFlash {}) (fun t => t.tx.contains (.flashStatus .tally 5)) = true := by decide +kernel
theorem test_erase_done : after (.flashEraseDone 2 true) { up with fls := { banks := [(2, { op := 3, block := 7, kind := 4 })], blocks := [(1031, { flag := true, eraseCount := 4, nextPage := 3 })] } }
    (fun t => (getBank t 2).op == 0 && (getBlk t 1031).eraseCount == 5 && !(getBlk t 1031).flag) = true := by decide
theorem test_refresh_not_due : after (.blockRefresh 2 7) (onFlash {}) (fun t => t.fls.banks == [] && t.fls.blocks == []) = true := by decide +kernel
/-- R500: line 2 is bytes 512 to 767. -/
def cached : State := { up with fcc := { entries := [(4, { valid := true, line := 2, data := 9 })] } }
/-- Witnesses of the clauses of FETCH_LOOKUP: a line of no region, and a line that is cached. -/
theorem test_witness_no_access : mayFetch { onFlash {} with fcc := cached.fcc } 0 0xFFFFFFF 2 = false := by decide +kernel
theorem test_lookup_hit : after (.fetchLookup 0 512 2 false []) { onFlash {} with fcc := cached.fcc } (fun t => t.tx == [.fetched 0 0 9] && (getFcq t 0).hits == 1) = true := by decide +kernel
theorem test_fill_none : still .fetchFill cached := rfl
theorem test_fill_complete : after (.fillComplete [(true, 0)]) { onFlash {} with fcc := { cached.fcc with fill := some { line := 8, requester := 1, entry := some 3, waiting := [1], data := 6 } } }
    (fun t => (getFce t 3).valid && (getFce t 3).line == 8 && t.tx == [.fetched 1 0 6] && t.fcc.fill == none) = true := by decide +kernel
theorem test_fill_killed : after (.fillComplete [(true, 0)]) { onFlash {} with fcc := { cached.fcc with fill := some { line := 8, entry := some 3, killed := true } } }
    (fun t => t.fcc.entries == cached.fcc.entries) = true := by decide +kernel
theorem test_prefetch_none : still (.prefetchIssue 1) cached := rfl
theorem test_inval_line : after (.invalLine 0 767) cached (fun t => !(getFce t 4).valid) = true := by decide
theorem test_inval_next_line : after (.invalLine 0 768) cached (fun t => (getFce t 4).valid) = true := by decide
theorem test_inval_range_end : after (.invalRange 0 1 1) cached (fun t => (getFce t 4).valid) = true := by decide
theorem test_inval_range : after (.invalRange 0 1 2) cached (fun t => !(getFce t 4).valid) = true := by decide
theorem test_inval_all : after (.invalAll 0) cached (fun t => !(getFce t 4).valid) = true := by decide
theorem test_lock_hit : after (.lock 0 512) cached (fun t => (getFce t 4).locked && (getFce t 4).owner == 0) = true := by decide
theorem test_lock_other_mask : after (.lock 1 512) cached (fun t => !(getFce t 4).locked && t.tx == [.fetched 1 5 0]) = true := by decide +kernel
def lockedLine : State := { up with fcc := { entries := [(4, { valid := true, line := 2, locked := true, owner := 1 })] } }
theorem test_unlock_owner : after (.unlock 1 512) lockedLine (fun t => !(getFce t 4).locked) = true := by decide
theorem test_unlock_other : still (.unlock 0 512) lockedLine := rfl
theorem test_unlock_all : after (.unlockAll 1) lockedLine (fun t => !(getFce t 4).locked) = true := by decide


-- Arm links (chapter 3).

theorem test_alk_attempt : after (.alkTrainAttempt 0 [5] [] true) { upIn .configuring with img := { arms := 1 } }
    (fun t => let k := getAlk t 0; k.link == 1 && k.attempting && k.upOut == 5 && k.dnOut == 3 && !k.upSpareOk && k.dnSpareOk && k.trainCount == 1) = true := by decide
theorem test_alk_two_lanes : after (.alkTrainAttempt 0 [5, 6] [] true) { upIn .configuring with img := { arms := 1 } }
    (fun t => (getAlk t 0).attempts == 1 && (getAlk t 0).idle) = true := by decide
/-- R93: the third failed attempt of a start stops the part at step 9. -/
theorem test_alk_third_timeout : after (.alkTrainTimeout 0) { upIn .configuring with img := { arms := 1 }, alks := [(0, { link := 1, attempting := true, attempts := 2 })] }
    (fun t => t.dev == .stopped && t.start.failStep == 9 && (getAlk t 0).link == 4) = true := by decide
theorem test_alk_retry : after (.alkTrainRetry 0) { upIn .configuring with alks := [(0, { link := 1, idle := true })] } (fun t => !(getAlk t 0).idle) = true := by decide
theorem test_identity_kept : after (.identity 0 5) (armUp {}) (fun t => (getAlk t 0).ident == some 5 && (getAlk t 0).link == 2) = true := by decide
/-- R95: 112 corrected symbols are within the limit, 113 are not; three uncorrectable blocks swap the lane as well. -/
theorem test_alk_window_ok : after (.alkLaneErrorWindow 0 true 4 112 2) (armUp { upSpareOk := true }) (fun t => (getAlk t 0).upOut == 31) = true := by decide
theorem test_alk_window_swaps : after (.alkLaneErrorWindow 0 true 4 113 0) (armUp { upSpareOk := true })
    (fun t => alkOut (getAlk t 0) == (4, 3) && (getAlk t 0).upOut == 31 && (getAlk t 0).link == 3 && !(getAlk t 0).upSpareOk) = true := by decide
theorem test_alk_lock_loss_no_spare : after (.alkLaneLockLoss 0 true 4) (armUp {}) (fun t => t.hop.stopCause == 0x7B) = true := by decide
theorem test_alk_no_such_lane : still (.alkLaneLockLoss 0 false 3) (armUp {}) := rfl
theorem test_uplink_erased : after (.alkUplinkUncorr 0 4 [3]) (armUp { streams := [(3, { next := 2, words := [(1, 5), (0, 7)], marks := [(1, 0)] })] })
    (fun t => (tabGet {} (getAlk t 0).streams 3).words == [(1, erasedWord), (0, 7)] && (tabGet {} (getAlk t 0).streams 3).broken && (tabGet {} (getAlk t 0).lanes 4).uncorr == 1) = true := by decide
theorem test_uplink_silence : after (.alkUplinkSilence 0) (armUp {}) (fun t => (getAlk t 0).link == 1 && t.dev == .faultHold && t.flt.holdCause == 0x7B) = true := by decide
theorem test_port_status_lost : after (.portStatusTimeout 0) (armUp {}) (fun t => (getAlk t 0).retrain && t.dev == .faultHold) = true := by decide
/-- R87: sent once more, then a link loss. -/
theorem test_ack_first_timeout : after (.ackTimeout 0 7) (armUp { unacked := [({ type := 0x0C, seq := 7 }, false)] })
    (fun t => t.tx == [.alk 0 { type := 0x0C, seq := 7 }] && (getAlk t 0).unacked.map (·.2) == [true]) = true := by decide
theorem test_ack_second_timeout : after (.ackTimeout 0 7) (armUp { unacked := [({ type := 0x0C, seq := 7 }, true)] }) (fun t => (getAlk t 0).link == 1) = true := by decide
theorem test_ack_claim : after (.ackTelemetry 0 (7 <<< 40)) (armUp { owner := 2, unacked := [({ type := 0x0F, seq := 7 }, false)] })
    (fun t => (getAlk t 0).owner == 1 && (getAlk t 0).unacked == []) = true := by decide
/-- Table 3.3: head 5 in bits 55:53. -/
def telWord : Word := 5 <<< 53 ||| 0x00070009
theorem test_laser_mon : after (.laserMon 0 telWord) up (fun t => let m := tabGet {} (getAlk t 0).mons 5; m.laserI == 7 && m.photo == 9) = true := by decide
theorem test_heater_mon : after (.heaterMon 0 telWord) up (fun t => let m := tabGet {} (getAlk t 0).mons 5; m.heaterR == 7 && m.contact == 9) = true := by decide
theorem test_reader_mon : after (.readerMon 0 telWord) up (fun t => let m := tabGet {} (getAlk t 0).mons 5; m.readerA == 7 && m.readerB == 9) = true := by decide
theorem test_supply : after (.supplyTelemetry 0 0x000100020003) up (fun t => (getAlk t 0).supply == [1, 2, 3]) = true := by decide
theorem test_wfifo : after (.wfifoTelemetry 0 (5 <<< 53 ||| 0x7FF)) up (fun t => (tabGet {} (getAlk t 0).mons 5).wfifo == 2047) = true := by decide
theorem test_telemetry_undefined : after (.telemetryUndefined 0 (0x0C <<< 56)) up (fun t => (getAlk t 0).msgErr == 1) = true := by decide
theorem test_telemetry_defined : still (.telemetryUndefined 0 (0x0B <<< 56)) up := rfl
theorem test_fault_overtemp : after (.faultTelemetry 0 (1 <<< 11)) (armUp {}) (fun t => t.dev == .faultHold && t.flt.holdCause == 0x7D) = true := by decide
theorem test_fault_head : after (.faultTelemetry 0 (1 <<< 53 ||| 1)) { armUp {} with img := { arms := 1, heads := 2, headFailMax := 2 } } (fun t => (getHead t 1).failed) = true := by decide
theorem test_port_taken : after (.portStatus 0 0) (armUp { owner := 1 }) (fun t => t.hop.stopCause == 0x7C && (getAlk t 0).owner == 0) = true := by decide
theorem test_port_status : after (.portStatus 0 5) (armUp { owner := 1 }) (fun t => (getAlk t 0).port == 1 && (getAlk t 0).otherPort && t.dev == .ready) = true := by decide

-- Lanlet links (chapter 11).

def portA : LinkId := .port .A
def onPort (k : Link) : State := { upIn .ready with start := { inReset := false, powerOnReset := false, imageLoaded := true }, links := [(0, k)] }
def linked (k : Link) : State := onPort { k with link := 2, session := 1 }
/-- The completion issued last on port A: its status and INFO. -/
def lastCpl (t : State) : Option (Nat × Nat) :=
  (getHopPort t 0).cpls.getLast?.bind fun x => match x with | .inl r => some (r.status.toNat, r.info.toNat) | .inr _ => none
theorem test_train_up : after (.lnkTrainAttempt portA [3] [] true) (onPort { link := 1 })
    (fun t => let k := getLink t 0; k.link == 2 && k.rxOut == 3 && k.txOut == 31 && !k.rxSpareOk && k.txSpareOk) = true := by decide
theorem test_train_two_lanes : after (.lnkTrainAttempt portA [3, 4] [] true) (onPort { link := 1, attempts := 1 }) (fun t => (getLink t 0).link == 1 && (getLink t 0).attempts == 2) = true := by decide
theorem test_train_timeout : after (.lnkTrainTimeout portA) (onPort { link := 1, attempts := 1 }) (fun t => (getLink t 0).attempts == 2) = true := by decide
theorem test_train_retry : after (.lnkTrainRetry portA) (onPort { link := 1, attempts := 3 }) (fun t => (getLink t 0).attempts == 0) = true := by decide
theorem test_rx_silence : after (.linkRxSilence portA) (linked {}) (fun t => (getLink t 0).link == 1 && (getLink t 0).session == 2) = true := by decide
/-- R355: 1,024 corrected symbols are within the limit. -/
theorem test_lane_window_ok : after (.lnkLaneErrorWindow portA 4 1024 2) (linked { rxSpareOk := true }) (fun t => (getLink t 0).mapping == none && t.tx == []) = true := by decide
theorem test_lane_window_maps : after (.lnkLaneErrorWindow portA 4 1025 0) (linked { rxSpareOk := true }) (fun t => (getLink t 0).mapping == some (4, 0) && (getLink t 0).link == 3) = true := by decide
theorem test_lane_lock_no_spare : after (.lnkLaneLockLoss portA 4) (linked {}) (fun t => (getLink t 0).link == 1) = true := by decide
theorem test_lane_map_repeat : after (.laneMapRepeat portA) (linked { mapping := some (4, 2) }) (fun t => t.tx.length == 1) = true := by decide
theorem test_lane_map_taken : after (.laneMap portA 4 2) (linked { txSpareOk := true }) (fun t => (getLink t 0).txOut == 4 && !(getLink t 0).txSpareOk) = true := by decide
theorem test_lane_map_done : after (.laneMapDone portA 4) (linked { mapping := some (4, 2) }) (fun t => (getLink t 0).mapping == none && (getLink t 0).rxOut == 4) = true := by decide
theorem test_lane_map_done_other : still (.laneMapDone portA 5) (linked { mapping := some (4, 2) }) := rfl
theorem test_frame_bad_code : after (.frameReceive portA { fecOk := false }) (linked {}) (fun t => (getLink t 0).crcErr == 1 && (getLink t 0).next == 0) = true := by decide
theorem test_frame_link_down : still (.frameReceive portA { fecOk := false }) (onPort { link := 1 }) := rfl
theorem test_write_data_stray : after (.wdataReceive .A ⟨5, 0, 0, 0⟩) (linked {}) (fun t => (getHopPort t 0).dataStray == 1) = true := by decide
theorem test_gap_closed : after (.gapTimerExpiry portA) (linked { gapTimer := true }) (fun t => !(getLink t 0).gapTimer && t.tx == []) = true := by decide
/-- R345: the sixteenth sending brings the link down. -/
theorem test_replay_sixteenth : after (.replayTimerExpiry portA 5) (linked { unacked := [{ seq := 5, body := .cpl [], sends := 15 }] })
    (fun t => (getLink t 0).timerReplay == 1 && (getLink t 0).link == 1) = true := by decide
theorem test_replay_fifteenth : after (.replayTimerExpiry portA 5) (linked { unacked := [{ seq := 5, body := .cpl [], sends := 14 }] }) (fun t => (getLink t 0).link == 2) = true := by decide
theorem test_ack_delay : after (.ackDelayExpiry portA) (linked { ackDue := true }) (fun t => !(getLink t 0).ackDue && t.tx.length == 1) = true := by decide
theorem test_idle_keepalive : after (.idleKeepalive portA) (linked {}) (fun t => t.tx.length == 1) = true := by decide
theorem test_keepalive : still (.keepalive portA) (linked {}) := rfl
theorem test_nak : after (.nak portA [5]) (linked { unacked := [{ seq := 5, body := .cpl [] }] }) (fun t => (getLink t 0).nakRcvd == 1 && t.tx.length == 1) = true := by decide
/-- R350: 256 RDATA credits and 16 CPL credits are the least. -/
def opens (rdata : BitVec 16) : SessionOpen := { compat := false, resume := false, sid := 9, cplCredits := 16, rdataCredits := rdata, peerNext := 0 }
theorem test_session_opens : after (.sessionOpen .A (opens 256)) (onPort { link := 2 }) (fun t => (getLink t 0).session == 1 && (getLink t 0).sid == 9) = true := by decide
theorem test_session_refused : after (.sessionOpen .A (opens 255)) (onPort { link := 2 }) (fun t => (getLink t 0).session == 0 && t.tx.length == 1) = true := by decide
theorem test_session_closes : after (.sessionClose .A 9 0) { linked { sid := 9 } with hop := { cmds := [{ arrival := 1 }] } }
    (fun t => (getLink t 0).session == 0 && t.hop.cmds == []) = true := by decide
theorem test_hold_expires : after (.linkHoldExpiry .A) (onPort { link := 1, session := 2, sid := 9 }) (fun t => (getLink t 0).session == 0) = true := by decide
theorem test_cpl_sent : after (.cplFrameSend .A) { linked { credit := [(2, 1)] } with hop := { ports := [(0, { cpls := [.inl {}] })] } }
    (fun t => (getHopPort t 0).cpls == [] && (getLink t 0).txSeq == 1 && tabGet 0 (getLink t 0).credit 2 == 0) = true := by decide
theorem test_cpl_no_credit : still (.cplFrameSend .A) { linked {} with hop := { ports := [(0, { cpls := [.inl {}] })] } } := rfl
theorem test_rdata_nothing : still (.rdataFrameSend .A) (linked { credit := [(3, 1)] }) := rfl
theorem test_grant_nothing : still .writeGrant (linked {}) := rfl

-- Commands of the host (chapter 12).

def hosted (cs : List Cmd) : State := { linked {} with img := { arms := 1, heads := 2, capacity := 100 }, hop := { cmds := cs, nextArrival := 50 } }
def writing : Cmd := { arrival := 7, cap := { opcode := 2, tag := 3, count := 4 }, phase := .running, granted := 1 }
theorem test_wdata_timeout : after (.wdataTimeout .A 3) (hosted [writing]) (fun t => lastCpl t == some (0x30, 1) && (getHopPort t 0).wdataTo == 1) = true := by decide
theorem test_hold_limit : after (.holdLimitExpiry .A 3) (hosted [{ writing with phase := .held }]) (fun t => lastCpl t == some (0x21, devCode .ready) && (getHopPort t 0).holdLimit == 1) = true := by decide
/-- Witness of Executes: a capsule whose LBA and COUNT end at the capacity. -/
theorem test_witness_executes : Executes (hosted []) .A { opcode := 1, lba := 99, count := 1 } := by unfold Executes Arrives; decide
theorem test_read_beyond : after (.read .A { opcode := 1, lba := 100, count := 1 }) (hosted []) (fun t => lastCpl t == some (0x13, 100)) = true := by decide
/-- R371: a tag in use is refused, and leaves only its completion and the count. -/
theorem test_tag_in_use : after (.read .A { opcode := 1, tag := 3, count := 1 }) (hosted [writing])
    (fun t => t.hop.cmds == [writing] && (getHopPort t 0).tagInUse == 1 && (getHopPort t 0).cpls == [.inl { tag := 3, status := 0x14, rej := true, opcode := 1, arrival := 50 }]) = true := by decide
theorem test_write_runs : after (.write .A { opcode := 2, tag := 4, count := 1 }) (hosted []) (fun t => (cmdOf t 50).any fun d => d.phase = .running && d.granted = 0) = true := by decide
theorem test_write_reserved : after (.write .A { opcode := 2, count := 1, resHi := 1 }) (hosted []) (fun t => lastCpl t == some (0x11, 464)) = true := by decide
theorem test_verify_count : after (.verify .A { opcode := 3 }) (hosted []) (fun t => lastCpl t == some (0x12, 0)) = true := by decide
theorem test_flush_clean : after (.flush .A { opcode := 4, arg32 := 1 }) (hosted []) (fun t => lastCpl t == some (0, 0)) = true := by decide
theorem test_abort_none : after (.abort .A { opcode := 5, tag := 9, arg32 := 6 }) (hosted []) (fun t => lastCpl t == some (0x31, 6)) = true := by decide
theorem test_abort_write : after (.abort .A { opcode := 5, tag := 9, arg32 := 3 }) (hosted [writing]) (fun t => lastCpl t == some (0, 0)) = true := by decide
/-- Table 12.7: in Parked a data command is held, or conflicts with NOWAIT. -/
theorem test_parked_holds : after (.read .A { opcode := 1, count := 1 }) { hosted [] with dev := .parked } (fun t => (cmdOf t 50).any fun d => d.phase = .held) = true := by decide
theorem test_parked_nowait : after (.read .A { opcode := 1, count := 1, nowait := true }) { hosted [] with dev := .parked } (fun t => lastCpl t == some (0x20, devCode .parked)) = true := by decide
theorem test_stopped_answers : after (.flush .A { opcode := 4, arg32 := 1 }) { hosted [] with dev := .stopped } (fun t => (lastCpl t).map (·.1) == some 0x50) = true := by decide
theorem test_identify : after (.identify .A { opcode := 0x10, tag := 4 }) (hosted []) (fun t => (cmdOf t 50).any fun d => d.phase = .running && d.reply.length = 1) = true := by decide
theorem test_get_state : after (.getState .A { opcode := 0x11 }) (hosted []) (fun t => (lastCpl t).map (·.1) == some 0) = true := by decide
theorem test_set_budget : after (.setBudget .A { opcode := 0x12, arg32 := 500 }) (hosted []) (fun t => t.slu.host == some 500 && lastCpl t == some (0, 0)) = true := by decide +kernel
theorem test_set_budget_zero : after (.setBudget .A { opcode := 0x12 }) (hosted []) (fun t => lastCpl t == some (0x11, 176)) = true := by decide
theorem test_log_read_empty : after (.logRead .A { opcode := 0x13, count := 1 }) (hosted []) (fun t => (cmdOf t 50).any fun d => d.reply.length = 1) = true := by decide
theorem test_log_clear_locked : after (.logClear .A { opcode := 0x14 }) (hosted []) (fun t => (lastCpl t).map (·.1) == some 0x60) = true := by decide
theorem test_deferred_none : after (.deferredRead .A { opcode := 0x15 }) (hosted []) (fun t => (cmdOf t 50).any fun d => d.reply = [0]) = true := by decide +kernel
theorem test_time_set : after (.timeSet .A { opcode := 0x16, arg64 := 1234 }) (hosted []) (fun t => t.aon.time == 1234 && lastCpl t == some (0, 0)) = true := by decide
/-- R382: SPIN_CONTROL. -/
theorem test_spin_policy : after (.spinPolicy .A { opcode := 0x20, arg32 := 4 }) (hosted []) (fun t => t.hop.autoSpin && lastCpl t == some (0, 0)) = true := by decide
theorem test_spin_action_3 : after (.spinPolicy .A { opcode := 0x20, arg32 := 3 }) (hosted []) (fun t => lastCpl t == some (0x11, 176)) = true := by decide
theorem test_spin_up_ready : after (.spinUp .A { opcode := 0x20, arg32 := 5 }) (hosted []) (fun t => t.hop.autoSpin && lastCpl t == some (0, 0)) = true := by decide
theorem test_spin_down_parked : after (.spinDown .A { opcode := 0x20, arg32 := 2 }) { hosted [] with dev := .parked } (fun t => !t.hop.autoSpin && lastCpl t == some (0, 0) && t.dev == .parked) = true := by decide
theorem test_self_check : after (.selfCheck .A { opcode := 0x21, arg32 := 2 } 6) (hosted []) (fun t => lastCpl t == some (0, 2)) = true := by decide +kernel
theorem test_diag_read : after (.diagRead .A { opcode := 0x30, arg64 := 0x20020, count := 1 } []) (hosted []) (fun t => t.hop.nextArrival == 51) = true := by decide
/-- A port that is unlocked for 1,000 s. -/
def service (s : State) : State := { s with diag := { unlockA := { until_ := some 1000000000000 } } }
theorem test_diag_write_denied : after (.diagWrite .A { opcode := 0x31, arg64 := 8 }) (service (hosted [])) (fun t => t.idn.denied == 1 && t.idn.writes == 0) = true := by decide
theorem test_inject_locked : after (.inject .A { opcode := 0x32, arg64 := 0x800000 }) (hosted []) (fun t => (lastCpl t).map (·.1) == some 0x60) = true := by decide
theorem test_trace_control : after (.traceControl .A { opcode := 0x33, arg64 := 0x404000 }) (hosted []) (fun t => t.idn.writes + t.idn.denied == 1) = true := by decide
theorem test_image_write_starts : after (.imageCopyWrite .A { opcode := 0x40, arg32 := 1, count := 1 }) (service (hosted []))
    (fun t => t.nvm.busy && t.nvm.erasing && t.nvm.writePoint == some 0) = true := by decide
theorem test_image_commit_offset : after (.imageCopyCommit .A { opcode := 0x40, arg32 := 5, lba := 3, count := 1 }) (service (hosted [])) (fun t => lastCpl t == some (0x11, 32)) = true := by decide
theorem test_bank_write_locked : after (.ucodeBankWrite .A { opcode := 0x40, count := 1 }) { hosted [] with fls := { plan := some [{ kind := 2, dense := true, blocks := 32 }] } }
    (fun t => (lastCpl t).map (·.1) == some 0x60) = true := by decide +kernel
theorem test_bank_commit_beyond : after (.ucodeBankCommit .A { opcode := 0x40, arg32 := 4, count := 1 } true 0) (service { hosted [] with fls := { plan := some [] } })
    (fun t => lastCpl t == some (0x13, 0)) = true := by decide +kernel
theorem test_nvm_idle : still .nvmProgramDone (hosted []) := rfl
theorem test_nvm_timeout : after .nvmBusyTimeout { hosted [] with nvm := { busy := true, writePoint := some 3 } } (fun t => !t.nvm.busy && t.nvm.writePoint == none) = true := by decide
theorem test_challenge : after (.unlockChallenge .A { opcode := 0x41 }) (hosted []) (fun t => t.free == 1 && t.diag.unlockA.challenge.isSome) = true := by decide
theorem test_response_unasked : after (.unlockResponse .A { opcode := 0x41, arg32 := 1 }) (hosted []) (fun t => t.diag.unlockA.until_ == none) = true := by decide
theorem test_unlock_lock : after (.unlockLock .A { opcode := 0x41, arg32 := 2 }) (service (hosted [])) (fun t => t.diag.unlockA.until_ == none) = true := by decide
theorem test_unlock_expires : after (.unlockExpiry (.port .A)) (service { hosted [] with aon := { up := 1000000000000 } }) (fun t => t.diag.unlockA.until_ == none) = true := by decide
theorem test_refusal_ends : after (.unlockRefusalEnd (.port .A)) { hosted [] with aon := { up := 60000000000 }, diag := { unlockA := { refused := some 0 } } }
    (fun t => t.diag.unlockA.refused == none) = true := by decide
theorem test_handover_locked : after (.handover .A { opcode := 0x50 }) (hosted []) (fun t => (lastCpl t).map (·.1) == some 0x60) = true := by decide


-- The fantail (chapter 14).

/-- A part in Ready with its image loaded. -/
def tuned : State := { upIn .ready with start := { inReset := false, powerOnReset := false, imageLoaded := true }, img := { arms := 1, heads := 2 } }
/-- Every first decode converged in 6 iterations: ITER_MAX moves toward 6 by its step of 2, from its 20 (Table 14.3). -/
theorem test_hourly_iter_max : after (.hourlyEvaluation [] (Vector.replicate 9 0)) { tuned with fan := { iters := [(64, [0, 0, 0, 0, 0, 9] ++ List.replicate 15 0)] } }
    (fun t => t.fan.plan.map (fun v => (v.kind, v.value)) == [(1, 18)] && t.fan.replans == 1) = true := by decide
/-- R437, R442: PM_MIN is 30 degrees. -/
theorem test_hourly_loop_low : after (.hourlyEvaluation [(0, 29)] (Vector.replicate 9 0)) tuned (fun t => t.fan.watch == [({ arm := 0 }, 0)]) = true := by decide +kernel
theorem test_hourly_loop_enough : after (.hourlyEvaluation [(0, 30)] (Vector.replicate 9 0)) tuned (fun t => t.fan.watch == [] && t.fan.exhausted == 0) = true := by decide +kernel
/-- R442: a Ke outside its margin (KE_RATIO of 0.8 in 2^-15) is exhausted. -/
theorem test_ke_exhausted : (judgeMargin .ke {} 26214 tuned).fan.exhausted = 1 ∧ (judgeMargin .ke {} 32768 tuned).fan.exhausted = 0 := by decide +kernel
/-- R440: VDD goes down only with no AVSBus fault open. -/
theorem test_replan_vdd : after (.replan .vdd {} 780 0 0) { tuned with pwr := { target := 800, avsFault := true } } (fun t => t.pwr.target == 800 && t.fan.replans == 0) = true := by decide
theorem test_replan_vdd_step : after (.replan .vdd {} 780 0 0) { tuned with pwr := { target := 800 } } (fun t => t.pwr.target == 795 && t.fan.replans == 1) = true := by decide
theorem test_replan_law_failed : still (.replan .notch { arm := 0, head := 0, zone := 0 } 1000 0 29) tuned := rfl
/-- Measurements of the day, in a part whose flash plan is one data region. -/
def measured (xs : List (Nat × Loc × Int × Nat)) : State :=
  { tuned with fan := { today := xs }, fls := { plan := some [{ kind := 4, dense := false, access := 3, blocks := 64 }] } }
/-- R443: no measurement, no point; a series of one point has no horizon. -/
theorem test_horizon_none : after (.horizonCompute 7) (measured [(1, {}, 5, 0)]) (fun t => t.fan.trends.map (·.kind) == [14] && t.fan.days == 65535 && t.fan.computed == 7) = true := by decide +kernel
theorem test_horizon_point : after (.horizonCompute 7) (measured [(1, {}, 16, 3)]) (fun t => (t.fan.trends.find? fun x => x.kind = 1).map (·.points) == some [(7, 5, 3)]) = true := by decide +kernel
/-- R434: two periods of 0.5 Ω, which is 5,000 of 0.1 mΩ; without a period of 2 A the estimate stands. -/
theorem test_winding : after .windingREstimate { tuned with spc := { rSum := 1, rCount := 2 } } (fun t => t.spn.rEst == 5000 && t.spc.rCount == 0) = true := by decide +kernel
theorem test_winding_below : after .windingREstimate { tuned with spn := { rEst := 7 } } (fun t => t.spn.rEst == 7) = true := by decide +kernel
theorem test_slack_raises : after .slackPeriodEval { tuned with img := { lists := [(0x02, [(0, 0)])] }, pwr := { target := 800 }, fan := { slackSeen := true, slackLow := -1 } }
    (fun t => !t.fan.slackSeen && t.pwr.target == 805) = true := by decide
theorem test_slack_unseen : still .slackPeriodEval tuned := rfl
theorem test_eye_kept : after (.laneEyeEval (.inr 0) 33 300 40) tuned (fun t => let e := tabGet {} (getAlk t 0).lanes 33; e.eyeH == 255 && e.eyeV == 40 && t.free == 0) = true := by decide

-- The partner (chapter 15).

/-- A part whose image configures a partner, with that link up. -/
def pair (role : Nat) (d : DevState) : State :=
  { upIn d with start := { inReset := false, powerOnReset := false, imageLoaded := true }, img := { lists := [(0x52, [(1, 1)])] }, ptn := { role }, links := [(2, { link := 2 })] }
/-- `r` waits for its credit, or has been sent. -/
def told (r : CtlRec) (t : State) : Bool := (getLink t 2).txWait.contains r || (getLink t 2).unacked.any fun f => f.body = .mirror r
def standby : State := pair 2 .standby
def mirrored : State := { standby with ptn := { role := 2, synced := true } }
theorem test_heartbeat_stops : after (.heartbeatTick false) { pair 1 .ready with aon := { up := 100001 }, ptn := { role := 1, hbOn := true, activeOut := true } }
    (fun t => !t.ptn.hbOn && !t.ptn.activeOut) = true := by decide
theorem test_heartbeat_toggles : after (.heartbeatTick true) { pair 1 .ready with aon := { up := 100001 } } (fun t => t.ptn.hbOn && t.ptn.hbOut) = true := by decide
theorem test_heartbeat_asks : after (.heartbeat false 5 9 0) standby (fun t => t.ptn.heard && t.ptn.asked && told (.resync 0 0) t) = true := by decide
/-- Table 15.3 row 1: no toggles, no frames, ACTIVE_IN deasserted. A SYNCED standby takes over; another stays. -/
theorem test_window_takes_over : after (.partnerWindow [] false false) mirrored (fun t => t.dev == .takeover && t.ptn.activeOut && t.ptn.role == 1 && t.ptn.takeovers == 1) = true := by decide
theorem test_window_unsynced : after (.partnerWindow [] false false) standby (fun t => t.dev == .standby && t.ptn.seen == 1) = true := by decide
theorem test_window_hung : after (.partnerWindow [] false true) mirrored (fun t => t.dev == .standby && t.ptn.seen == 2 && t.ptn.synced) = true := by decide
/-- Table 15.13: a gap of more than 50 µs counts once. -/
theorem test_gap_once : after (.partnerWindow [40000, 80000, 130001, 170000] true true) mirrored (fun t => t.ptn.hbGaps == 1 && t.ptn.hbGap == 30000) = true := by decide
theorem test_window_mirror_lost : after (.partnerWindow [25000] false true) mirrored (fun t => t.dev == .standby && !t.ptn.synced) = true := by decide
theorem test_recheck_clears : after (.partnerHungRecheck [25000] true true) { mirrored with ptn := { role := 2, synced := true, seen := 2 } } (fun t => t.ptn.seen == 0) = true := by decide
theorem test_recheck_not_hung : still (.partnerHungRecheck [] false false) mirrored := rfl
theorem test_active_falls : after .activeInFall { mirrored with ptn := { role := 2, synced := true, activeIn := true } } (fun t => t.dev == .takeover) = true := by decide
theorem test_failstop_withheld : after (.ptnFailstop 0xC6) mirrored (fun t => t.ptn.withheld && t.dev == .standby) = true := by decide
theorem test_failstop_takes_over : after (.ptnFailstop 0x7C) mirrored (fun t => t.dev == .takeover) = true := by decide
theorem test_released : after (.handoverReleased 3) mirrored (fun t => t.dev == .takeover && t.ptn.planned && t.ptn.takeovers == 0 && t.ptn.synced) = true := by decide
theorem test_resume_now : after .takeoverResume { pair 1 .takeover with img := { arms := 1 }, arms := [(0, { flags := 4 })] } (fun t => t.ptn.resumed && (getArm t 0).loadDue == some 0) = true := by decide
theorem test_resume_wait : still .takeoverResume { pair 1 .takeover with img := { arms := 1 } } := rfl
def arb (role : Bool) (state : BitVec 8) : ArbRec := { role, state, dump := false, synced := false, dumpId := 0, imageVer := 0, compat := 0 }
/-- A part at step 10 of a start, with this strap. -/
def arbitrating (strap : Bool) : State := { pair 0 .configuring with start := { inReset := false, powerOnReset := false, imageLoaded := true, step := 10 }, pwr := { role := strap } }
theorem test_equal_straps : after (.arbitrate (arb false 0)) (arbitrating false) (fun t => t.dev == .stopped && t.hop.stopCause == 0x8E) = true := by decide
theorem test_compat_differs : after (.arbitrate { arb false 0 with compat := 1 }) (arbitrating true) (fun t => t.dev == .stopped && t.hop.stopCause == 0x8A) = true := by decide
theorem test_peer_active : after (.arbitrate (arb true (BitVec.ofNat 8 (devCode .ready)))) (arbitrating false) (fun t => t.dev == .standby && t.ptn.role == 2) = true := by decide
theorem test_strap_zero_active : after (.arbitrate (arb true (BitVec.ofNat 8 (devCode .configuring)))) (arbitrating false) (fun t => (t.dev == .parked || t.dev == .spinningUp) && t.ptn.activeOut) = true := by decide
theorem test_arbitration_alone : after .arbitrationTimeout (arbitrating true) (fun t => (t.dev == .parked || t.dev == .spinningUp) && t.ptn.role == 1 && t.ptn.alone) = true := by decide
theorem test_hold_up_arbitration : after (.arbitrate (arb true 0)) { pair 1 .holdUp with ptn := { role := 1, alone := true, activeIn := true } } (fun t => t.dev == .holdUp && t.ptn.role == 1) = true := by decide
theorem test_stopped_arbitrates : after .stoppedArbitrateTick (pair 1 .stopped) (fun t => told (.arbitrate (arbRec (pair 1 .stopped))) t) = true := by decide

-- The mirror.

def dirtyEntry : LedgerEntry := { lba := 7, frame := 5, vseq := 9, state := 1, valid := true }
def holdsEntry : State := { mirrored with mpd := { mirrored.mpd with ledger := [(5, dirtyEntry)], frames := [(5, 3)] } }
/-- Bytes 512 to 1,023 of the block. -/
theorem test_mdata : after (.mdata 5 1 255) mirrored (fun t => getFrame t 5 == BitVec.ofNat 32768 (255 * 2 ^ 4096) && tabGet 0 t.mpd.parts 5 == 2) = true := by decide +kernel
theorem test_mdata_confirms : after (.mdata 5 7 1) { holdsEntry with mpd := { holdsEntry.mpd with parts := [(5, 127)] } } (fun t => told (.confirm [5]) t && tabGet 0 t.mpd.parts 5 == 0) = true := by decide
theorem test_ment : after (.ment [dirtyEntry]) mirrored (fun t => getEntry t 5 == dirtyEntry && t.hop.nextArrival == 10) = true := by decide
theorem test_ment_withdrawn : after (.ment [{ dirtyEntry with valid := false }]) holdsEntry (fun t => !(getEntry t 5).valid && getFrame t 5 == 0) = true := by decide +kernel
theorem test_confirm : after (.confirm [5]) { holdsEntry with ptn := { role := 1, synced := true } } (fun t => (getEntry t 5).mirrored) = true := by decide
theorem test_cmd_ctx : after (.cmdCtx .B 3 20 2 100 4) mirrored (fun t => t.ptn.ctxs == [{ port := 1, tag := 3, arrival := 20, opcode := 2, lba := 100, count := 4 }] && t.hop.nextArrival == 21) = true := by decide
def context : State := { mirrored with ptn := { mirrored.ptn with ctxs := [{ port := 1, tag := 3, arrival := 20 }] } }
theorem test_ptn_cpl : after (.ptnCpl .B { tag := 3, arrival := 20 }) context (fun t => t.ptn.ctxs.map (·.cpl) == [some { tag := 3, arrival := 20 }]) = true := by decide
theorem test_cpl_acked : after (.cplAcked .B 3 20) context (fun t => t.ptn.ctxs == []) = true := by decide
theorem test_cpl_acked_other : still (.cplAcked .A 3 20) context := rfl
theorem test_row_commit_mirrored : after (.ptnRowCommit 0 1) { holdsEntry with mpd := { holdsEntry.mpd with ledger := [(5, { dirtyEntry with state := 2 })] } } (fun t => !(getEntry t 5).valid) = true := by decide
theorem test_layout_failed_head : after (.ptnLayout (.failedHead 2 3)) mirrored (fun t => t.layout.failedHeads == [(2, 3)] && (getHead t 19).failed) = true := by decide
theorem test_plan_mirrored : after (.ptnPlan { kind := 9, value := 805 }) mirrored (fun t => t.fan.plan.map (fun v => (v.kind, v.value)) == [(9, 805)]) = true := by decide
theorem test_deferred_mirrored : after (.ptnDeferred { index := 4, count := 1 }) mirrored (fun t => (getHopPort t 0).deferred == [{ index := 4, count := 1 }] && t.hop.nextDeferred == 5) = true := by decide
theorem test_resync : after (.resyncStart 0) (pair 1 .parked) (fun t => t.ptn.synced && t.ptn.resyncs == 1 && told (.resync 1 0) t) = true := by decide
theorem test_resync_done : after (.resyncDone 0) standby (fun t => t.ptn.synced && t.ptn.resyncs == 1) = true := by decide
theorem test_fetch : after (.fetchRequest 5 9) holdsEntry (fun t => told (.fetch 1 5 9) t && told (.mdata 5 0 3) t && told (.mdata 5 7 0) t) = true := by decide +kernel
theorem test_fetch_stale : still (.fetchRequest 5 8) holdsEntry := rfl
theorem test_fetch_reply : after (.fetchReply 5 9 77) { holdsEntry with ptn := { role := 2, fetches := [(5, 9)] } } (fun t => getFrame t 5 == 77 && t.ptn.fetches == []) = true := by decide +kernel

-- Handover.

theorem test_handover_begins : after (.handoverRequest 2) { pair 1 .ready with ptn := { role := 1, synced := true } }
    (fun t => t.ptn.handoverReason == 2 && t.ptn.handStage == 3 && t.dev == .standby && told (.handover 0 2) t && told (.handover 1 2) t) = true := by decide
theorem test_handover_asked : after (.handoverRequest 2) standby (fun t => t.ptn.requested && t.ptn.handoverReason == 2) = true := by decide
theorem test_handover_completes : after (.handoverActive 2) { pair 2 .standby with ptn := { role := 2, handStage := 3 }, hop := { cmds := [{ arrival := 7, cap := { opcode := 0x50, tag := 3 }, phase := .running }] } }
    (fun t => t.ptn.handStage == 0 && t.ptn.handovers == 1 && lastCpl t == some (0, 0)) = true := by decide

-- Registers and JTAG (chapters 17, 18 and 22).

/-- Port A unlocked for 1,000 s. -/
def opened : State := service up
def pA : Path := .port .A
theorem test_clear_counts : after (.fltClearCounts pA) { opened with flt := { real := { corrected := 5 }, inj := { bus := 2 }, first := {} } } (fun t => t.flt.real == {} && t.flt.inj == {} && t.idn.writes == 1) = true := by decide
theorem test_clear_counts_locked : after (.fltClearCounts pA) { up with flt := { real := { corrected := 5 } } } (fun t => t.flt.real.corrected == 5 && t.idn.denied == 1) = true := by decide
theorem test_clear_first : after (.fltClearFirst pA) { opened with flt := { first := { valid := true } } } (fun t => t.flt.first == {}) = true := by decide
/-- Table 7.6: MODE 63:62, CTX 61:54, TAP 53:49, DECIM 48:33. A port needs no unlock for it. -/
theorem test_trace_cfg : after (.traceCfgWrite pA 2 (BitVec.ofNat 64 (2 ^ 62 + 5 * 2 ^ 54 + 3 * 2 ^ 49 + 2 ^ 33))) up
    (fun t => let c := getTrace t 2; c.mode == 1 && c.ctx == 5 && c.tap == 3 && c.decim == 1) = true := by decide
theorem test_trace_cfg_context : after (.traceCfgWrite pA 2 (BitVec.ofNat 64 (2 ^ 62 + 160 * 2 ^ 54 + 2 ^ 33))) up (fun t => t.idn.denied == 1 && t.gov == up.gov) = true := by decide
def tracing : State := { up with gov := { trace := [(0, { mode := 1 })] } }
theorem test_trace_arm : after (.traceArm pA 0) tracing (fun t => t.gov.armed && (getTrace t 0).state == 1 && (getTrace t 1).state == 0) = true := by decide
theorem test_trace_fire : after (.traceFire pA (BitVec.ofNat 64 (64 * 2 ^ 42))) { up with gov := { armed := true, trace := [(0, { mode := 1, state := 1, writeIdx := 9 })] } }
    (fun t => !t.gov.armed && (getTrace t 0).state == 2 && (getTrace t 0).trigIdx == 9 && (getTrace t 0).left == 0) = true := by decide
/-- Table 17.6: CAUSE 61:58, MASTER 57:50, MEM 49:43, EVENT 42:35. -/
theorem test_inject_report : after (.injFltReportGo pA (BitVec.ofNat 64 (2 ^ 58 + 0x4F * 2 ^ 50))) opened (fun t => t.flt.inj.corrected == 1 && t.flt.real == {}) = true := by decide
theorem test_inject_report_cause : after (.injFltReportGo pA (BitVec.ofNat 64 (9 * 2 ^ 58))) opened (fun t => t.idn.denied == 1 && t.flt == up.flt) = true := by decide
/-- R528: word 0 of the millrace is tagged; its code bits flipped as INJ_ECC_CHECK says. -/
theorem test_inject_ecc : after (.injEccGo pA 0) { opened with diag := { opened.diag with eccAddr := BitVec.ofNat 64 (0x48 * 2 ^ 57 + 2 ^ 32), eccCheck := 3 } }
    (fun t => t.diag.eccTags == [(0x48, 0, 3)] && t.diag.eccStatus == 0) = true := by decide
theorem test_inject_ecc_address : after (.injEccGo pA 0) { opened with diag := { opened.diag with eccAddr := 4 } } (fun t => t.diag.eccStatus == 1 && t.diag.eccTags == []) = true := by decide
theorem test_inject_halt_later : after (.injTreHaltGo pA (BitVec.ofNat 64 (9 * 2 ^ 56))) opened (fun t => t.diag.treHaltPending == [9] && t.diag.treHaltChannel == 9) = true := by decide
theorem test_inject_link : after (.injLnkCfgWrite pA .B (BitVec.ofNat 64 (2 ^ 62 + 3 * 2 ^ 39 + 7 * 2 ^ 23 + 2 ^ 19))) opened
    (fun t => let j := getInj t 1; j.action == 1 && j.countN == 3 && j.limit == 7 && j.left == 7) = true := by decide
theorem test_inject_link_count : after (.injLnkCfgWrite pA .B 0) opened (fun t => t.idn.denied == 1) = true := by decide
theorem test_register_write : after (.registerWrite pA 0x800108 99) opened (fun t => t.diag.eccData == 99 && t.idn.writes == 1) = true := by decide
theorem test_register_absent : after (.registerWrite pA 0x800109 99) opened (fun t => t.idn.denied == 1) = true := by decide

/-- A part whose clocks JTAG reaches. -/
def scanned : State := { up with clk := { coreLock := true } }
theorem test_acc_read : after (.diagAccRead 0x800108 false) { scanned with diag := { eccData := 99 } } (fun t => t.diag.jtagData == 99 && t.diag.jtagStatus == 0) = true := by decide
theorem test_acc_read_odd : after (.diagAccRead 0x800109 false) scanned (fun t => t.diag.jtagStatus == 2 && t.idn.denied == 1) = true := by decide
/-- R659: STATUS 3 in bits 65:64 while the part has no clocks. -/
theorem test_acc_read_unclocked : after (.diagAccRead 0x800108 false) State.reset (fun t => t.tx == [.jtag (BitVec.ofNat 264 (3 * 2 ^ 64))] && t.diag.jtagIr == 0x20) = true := by decide +kernel
theorem test_acc_write_locked : after (.diagAccWrite 0x800108 5) scanned (fun t => t.diag.jtagStatus == 2 && t.diag.eccData == 0) = true := by decide
theorem test_acc_write : after (.diagAccWrite 0x800108 5) { scanned with diag := { unlockJ := { until_ := some 1000 } } } (fun t => t.diag.jtagStatus == 0 && t.diag.eccData == 5) = true := by decide
theorem test_jtag_challenge : after .jtagUnlockChallenge scanned (fun t => t.diag.unlockJ.challenge.isSome && t.free == 1) = true := by decide
theorem test_jtag_response_unasked : after (.jtagUnlockResponse 0) scanned (fun t => t.diag.unlockJ.until_ == none && t.diag.jtagIr == 0x21) = true := by decide
theorem test_jtag_lock : after .jtagUnlockLock { scanned with diag := { unlockJ := { until_ := some 1000 } } } (fun t => t.diag.unlockJ.until_ == none) = true := by decide
theorem test_tap_reset : after .tapReset { scanned with diag := { unlockJ := { until_ := some 1000 }, bscanDrives := true } } (fun t => t.diag.unlockJ.until_ == none && !t.diag.bscanDrives && t.diag.jtagIr == 2) = true := by decide
theorem test_extest : after (.extest [true]) State.reset (fun t => t.diag.bscanDrives && t.diag.bscan == [true] && t.diag.jtagIr == 0) = true := by decide
theorem test_extest_pulse : after (.extestPulse [true]) State.reset (fun t => t.diag.bscanDrives && t.diag.jtagIr == 8) = true := by decide
theorem test_extest_train : after (.extestTrain [true]) State.reset (fun t => t.diag.bscanDrives && t.diag.jtagIr == 9) = true := by decide
theorem test_sample : after (.samplePreload [false] [true]) State.reset (fun t => t.tx == [.bscan [false]] && t.diag.bscan == [true] && !t.diag.bscanDrives) = true := by decide
theorem test_idcode : after .idcode State.reset (fun t => t.tx == [.jtag (State.reset.idn.idcode.setWidth 264)] && t.diag.jtagIr == 2) = true := by decide
theorem test_bypass : after (.bypass 0xFF) State.reset (fun t => t.tx == [.jtag 0] && t.diag.jtagIr == 0xFF) = true := by decide +kernel


-- Concrete states for clauses that need more than one condition.

/-- Witness of the overcurrent clause of PWM_PERIOD (R265): 101 is MOTOR_I_MAX, of which the sampled current is more. -/
def overCur : State := { upIn .ready with img := { lists := [(0x30, [(101, 30000), (103, 3000)])] }, spc := { gates := true }, spn := { mode := 5 } }
def overM : PwmSample := { shunt := ⟨some 4000, some 2048, some 2048⟩, volt := ⟨some 1, some 1, some 1⟩, vbus := some 4000, ichop := some 0 }
theorem test_overcurrent : after (.pwmPeriod overM) overCur (fun t => t.spn.overcurrent == 1 && t.dev == .faultHold && t.spc.recatchDue) = true := by decide +kernel
/-- Witness of the clauses of SPEED_SAMPLE and DATA_WINDOW_MEAN: the pace wedge of 81,555 SSP leaves a mean of 5,400 rpm. -/
def paced : State :=
  { onArm { state := 5 } { state := 2, wHat := 81555911111 } with spc := { source := true, decim := 18, means := List.replicate 95 (65536 * 5400) } }
theorem test_speed_decimated : after (.speedSample {}) paced (fun t => t.spc.decim == 0) = true := by decide +kernel
theorem test_window_mean : after .dataWindowMean paced (fun t => t.spc.goodMeans == 1 && t.spc.means.length == 96) = true := by decide +kernel
/-- Witness of the clause of CATCH_MEASURE_DONE at rest (R257): enough samples, and a speed below 60 rpm. -/
def catching : State := { starting with spc := { catchN := 3840 } }
theorem test_witness_catch_slow : catchEnough catching = true ∧ catchSlow catching ∧ mayDrive catching = true ∧ catching.dev = .spinningUp := by
  refine ⟨by decide, ?_, by decide, rfl⟩
  have h : keNom catching.img = 1556 := by decide
  simp [catchSlow, h]; norm_num [catching, starting]
/-- Witness of the clause of ROW_BUILD that starts a row (R288). -/
def dueRow : State := { drive with mpd := { ledger := [(5, { lba := 0, frame := 5, state := 1, valid := true })], dueRows := [0] } }
theorem test_witness_row_due : heldRows dueRow = [0] ∧ pinnedBlocks dueRow 0 = [] := by decide +kernel
theorem test_row_starts : after .rowBuild dueRow (fun t => t.rows.map (·.row) == [0]) = true := by decide +kernel
/-- R294: all 64 sectors have passed, and the row commits with its record. -/
def full : State := { drive with rows := [{ row := 3, sectors := (List.range 64).map fun k => (k, { st := 2 }) }] }
theorem test_row_commits : after (.rowCommit 3) full (fun t => t.rows.isEmpty && t.mpd.commits.map (·.row) == [3]) = true := by decide +kernel
/-- Witness of the clauses of ISLAND_GATE_OFF (R421): the operation that runs has nothing left to read. -/
def ends : State := { drive with
  arms := [(0, { state := 5 })], aon := { time := 100 }, slu := { ops := [(0, some { kind := .rowRead, heads := [0, 1], at_ := 40 })] } }
theorem test_operation_ends : after (.islandGateOff 0) ends (fun t => (opOf t 0).isNone && t.slu.shares.length == 1) = true := by decide +kernel
/-- R155: the one reading head is suspended at the tick. -/
def reading : State := { islandOn { assigned := true, state := 2 } { island := 5 } with bol := { pressure := 1, queue := (List.range 256).map fun k => (k, {}) }, img := { arms := 1, heads := 1 } }
theorem test_head_suspended : (reading.bol.pressure = 1 ∧ readingHeads reading = [0]) ∧ queueLwm reading.img = 256 ∧
    after .headSuspendTick reading (fun t => (getHead t 0).suspended && t.bol.suspended == [(0, 0)]) = true := by decide +kernel
/-- R156: the suspended head is the next to resume. -/
theorem test_head_resumed : after .headResumeTick { drive with heads := [(0, { suspended := true })], bol := { pressure := 2, suspended := [(0, 0)] } }
    (fun t => t.bol.suspended == [] && !(getHead t 0).suspended && t.bol.pressure == 2) = true := by decide +kernel
/-- R101: the tables of an island are loaded: the head's work goes on. -/
theorem test_tables_loaded : after (.islandTablesLoaded 5) (islandOn { assigned := true, state := 4 } { suspended := true }) (fun t => (getIsl t 5).state == 1 && !(getHead t 0).suspended) = true := by decide +kernel
/-- R101: a spare is steered to a head with no operation at once. -/
theorem test_island_steered : after (.islandReassign 0 0 66) { drive with heads := [(0, { island := 0 })], islands := [(0, { assigned := true, state := 1 }), (66, {})] }
    (fun t => (getHead t 0).island == 66 && (getIsl t 66).assigned && (getIsl t 66).state == 4) = true := by decide +kernel
/-- R103, Table 5.9: an engine fails by its control state though it holds no codeword; no time limit fails an idle one. -/
theorem test_engine_control : after (.engineTimeout 97 1) up (fun t => (getEngine t 97).failed) = true := by decide +kernel
theorem test_engine_idle : still (.engineTimeout 97 0) up := rfl
/-- R308: a source that is lost completes the migration at once. -/
theorem test_migration_lost : after .migrationComplete { drive with mpd := {
      state := 3, spare := 15, migLogical := 1, migLost := true, chans := [(1, { role := 3, logical := 1 }), (8, { role := 4, logical := 1 })] } }
    (fun t => t.mpd.state == 2 && (getChan t 8).role == 1 && (getChan t 1).role == 5 && !t.mpd.migLost) = true := by decide +kernel
/-- R95: a lane that loses its lock is mapped out at once. -/
theorem test_lane_swapped : after (.alkLaneLockLoss 0 true 4) { drive with alks := [(0, { link := 2, upSpareOk := true })] }
    (fun t => (getAlk t 0).upOut == 4 && !(getAlk t 0).upSpareOk && (getAlk t 0).link == 3) = true := by decide +kernel
theorem bits_of_identity {n : Nat} (h : n < 2 ^ 16) :
    bitsOf 47 32 (BitVec.ofNat 64 (n * 4294967296 + 2097152)).toNat = n ∧ 2 ≤ bitsOf 23 20 (BitVec.ofNat 64 (n * 4294967296 + 2097152)).toNat := by
  norm_num [bitsOf] at *
  omega
/-- R94: an identity that passes the check. -/
theorem test_witness_identity : ∃ word : Word, bitsOf 47 32 word.toNat = Config.fza816Code.toNat ∧ drive.img.heads ≤ bitsOf 23 20 word.toNat :=
  ⟨BitVec.ofNat 64 (Config.fza816Code.toNat * 4294967296 + 2097152), bits_of_identity Config.fza816Code.isLt⟩
/-- R483, R486: a program and a read of a bank that is free. -/
theorem test_program_starts : after (.flashProgram (.tre 61) ⟨4, 0⟩ 0 [5]) (onFlash {}) (fun t => (getBank t 0).op == 2) = true := by decide +kernel
theorem test_read_page : after (.flashPageRead .controller ⟨4, 0⟩ 0 [(true, 0)]) (onFlash {}) (fun t => t.tx.any fun x => match x with | .flashStatus _ 5 => false | _ => true) = true := by decide +kernel
/-- R528: a patrol read of tagged test data counts as injected; a bad word of the hopper in both copies stops the part. -/
theorem test_patrol_stop : after (.sramPatrol 0x59 0 0 3 true true) up (fun t => t.dev == .stopped && t.hop.stopCause == 0) = true := by decide +kernel
theorem test_patrol_copy : after (.sramPatrol 0x59 0 0 3 true false) up (fun t => t.dev != .stopped) = true := by decide +kernel
/-- Witness of the grant of OPERATION_GRANT (R407, R414): eligible work is granted without a limit, and not beyond a budget of 0.1 W. -/
def grants : State := { waits1 with start := { waits1.start with replayRead := true } }
theorem test_operation_granted : after (.operationGrant 0) grants (fun t => (opOf t 0).isSome && t.slu.work.isEmpty) = true := by decide +kernel
theorem test_operation_beyond_budget : after (.operationGrant 0) { grants with slu := { grants.slu with granted := some 1 } }
    (fun t => (opOf t 0).isNone && t.slu.work.length == 1) = true := by decide +kernel

-- Positive cases of the commands whose tests above leave the state as it is.

/-- Table 6.8: the eighth wedge at the stroke limit in a row. -/
theorem test_stroke_limit : after (.strokeLimitRun 0 0) (onArm { state := 5 } { state := 2, strokeRun := 8 }) (fun t => (getHead t 0).strokeRun == 0) = true := by decide +kernel
theorem test_fill_begins : after .fetchFill { onFlash {} with fcc := { waiters := [(1, 5, false, 4)] } }
    (fun t => (t.fcc.fill.map (·.line)) == some 5 && t.fcc.waiters == []) = true := by decide +kernel
theorem test_prefetch_begins : after (.prefetchIssue 1) { onFlash {} with fcc := { prefetches := [(1, 5)] } }
    (fun t => (t.fcc.fill.map (·.prefetch)) == some true && t.fcc.prefetches == []) = true := by decide +kernel
theorem test_rdata_sent : after (.rdataFrameSend .A) { linked { credit := [(3, 1)] } with hop := { cmds := [{ arrival := 7, cap := { opcode := 0x10, tag := 3 }, phase := .running, reply := [9] }] } }
    (fun t => (getLink t 0).txSeq == 1 && tabGet 0 (getLink t 0).credit 3 == 0) = true := by decide +kernel
/-- R374: a MICROCODE_WRITE is granted its blocks. -/
theorem test_write_granted : after .writeGrant (hosted [{ writing with cap := { opcode := 0x40, tag := 3, count := 4 }, granted := 0 }])
    (fun t => (getHopPort t 0).cpls == [.inr (3, 0, 4)]) = true := by decide +kernel
theorem test_nvm_programmed : after .nvmProgramDone { hosted [] with nvm := { busy := true, toProgram := [(5, 9)] } } (fun t => t.nvm.blocks == [(5, 9)] && !t.nvm.busy) = true := by decide +kernel
theorem test_descriptor_ends : after (.descriptorDone 5) (chan { ring := [(plain, false)], state := 1, running := true })
    (fun t => (getTre t 5).ring == [] && (getTre t 5).state == 0) = true := by decide +kernel
/-- R290 rule 3: the row of a block that has been dirty for its time is due. -/
theorem test_age_due : after (.dirtyAgeExpiry 7) { drive with mpd := { ledger := [(5, { lba := 7, frame := 5, state := 1, valid := true })] } } (fun t => !t.rows.isEmpty || !t.mpd.dueRows.isEmpty) = true := by decide +kernel
/-- R299: the pinned block of a due row is read into a frame. -/
theorem test_pin_wait_reads : after (.pinWaitExpiry 0) { dueRow with mpd := { dueRow.mpd with mediumPins := [(0, 9)] } } (fun t => t.mpd.pinRows == [0] && !t.slu.work.isEmpty) = true := by decide +kernel
theorem test_catch_idle : still .catchMeasureDone { starting with spn := { mode := 5 } } := rfl

end Sys2Proof.Tests
end

section
/-! The device state under the functions that never write it (O56, R8). Each lemma says of one function of the model that the next state has the device state
of the state before; the lemmas stand in the order of the functions in the model, and each cites those of the functions that its function calls. -/

namespace Sys2Proof.Machine

/-- `t` is in the device state of `s`: what a loop asks of its body (`each_dev`). -/
def SameDev (s t : State) : Prop := t.dev = s.dev
@[simp] theorem sameDev_iff (s t : State) : SameDev s t ↔ t.dev = s.dev := Iff.rfl

@[simp] theorem dev_ite (c : Prop) [Decidable c] (a b : State) : (if c then a else b).dev = if c then a.dev else b.dev := apply_ite State.dev c a b
/-- Both branches of a choice are in device state `d`, and so is the choice. -/
theorem dev_ite_eq {c : Prop} [Decidable c] {a b : State} {d : DevState} (ha : a.dev = d) (hb : b.dev = d) : (if c then a else b).dev = d := by
  rw [dev_ite, ha, hb, ite_self]
@[simp] theorem each_dev {α : Type} {xs : List α} {f : α → State → State} {s : State} (h : ∀ x s, SameDev s (f x s)) : (each xs f s).dev = s.dev :=
  each_proj State.dev xs f s h
@[simp] theorem foldl_dev {α : Type} {xs : List α} {f : State → α → State} {s : State} (h : ∀ x s, SameDev s (f s x)) : (xs.foldl f s).dev = s.dev :=
  each_dev (f := fun x s => f s x) h
/-- A function that answers a value beside its state, taken apart by a match. -/
theorem snd_dev_of_eq {α : Type} {p : α × State} {x : α} {s t : State} (h : p.2.dev = s.dev) (e : p = (x, t)) : t.dev = s.dev := by
  rw [← h, e]

-- Functions of Machine/Ops.lean.
@[simp] theorem modCtx_dev (s n f) : (modCtx s n f).dev = s.dev := rfl
@[simp] theorem modTrace_dev (s c f) : (modTrace s c f).dev = s.dev := rfl
@[simp] theorem modSine_dev (s g f) : (modSine s g f).dev = s.dev := rfl
@[simp] theorem modEngine_dev (s e f) : (modEngine s e f).dev = s.dev := rfl
@[simp] theorem modSlot_dev (s k f) : (modSlot s k f).dev = s.dev := rfl
@[simp] theorem freeInner_dev (p s) : (freeInner p s).dev = s.dev := rfl
@[simp] theorem takeInner_dev (a keys s) : (takeInner a keys s).dev = s.dev := by simp [takeInner]
@[simp] theorem modChan_dev (s p f) : (modChan s p f).dev = s.dev := rfl
@[simp] theorem modTre_dev (s n f) : (modTre s n f).dev = s.dev := rfl
@[simp] theorem modBank_dev (s b f) : (modBank s b f).dev = s.dev := rfl
@[simp] theorem modBlk_dev (s k f) : (modBlk s k f).dev = s.dev := rfl
@[simp] theorem modFce_dev (s e f) : (modFce s e f).dev = s.dev := rfl
@[simp] theorem modFcq_dev (s q f) : (modFcq s q f).dev = s.dev := rfl
@[simp] theorem modHopPort_dev (s p f) : (modHopPort s p f).dev = s.dev := rfl
@[simp] theorem modTherm_dev (s k f) : (modTherm s k f).dev = s.dev := rfl
@[simp] theorem setEntry_dev (s f e) : (setEntry s f e).dev = s.dev := rfl
@[simp] theorem dropTags_dev (memLo memHi lo len s) : (dropTags memLo memHi lo len s).dev = s.dev := rfl
@[simp] theorem setFrame_dev (s f b) : (setFrame s f b).dev = s.dev := rfl
@[simp] theorem writeSlot_dev (k f s) : (writeSlot k f s).dev = s.dev := rfl
@[simp] theorem nextFree_dev (s) : (nextFree s).dev = s.dev := rfl
@[simp] theorem send_dev (t s) : (send t s).dev = s.dev := rfl
@[simp] theorem traceFire_dev (s) : (traceFire s).dev = s.dev := by
  simp only [traceFire, each_dev, sameDev_iff, implies_true, modTrace_dev, dev_ite, ite_self]
@[simp] theorem stageRecord_dev (r s) : (stageRecord r s).dev = s.dev := rfl
@[simp] theorem programSector_dev (s) : (programSector s).dev = s.dev := by simp only [programSector, stageRecord_dev, dev_ite, ite_self]
@[simp] theorem programIfDue_dev (s) : (programIfDue s).dev = s.dev := by
  simp only [programIfDue, each_dev, sameDev_iff, implies_true, programSector_dev, dev_ite, ite_self]
@[simp] theorem setBucket_dev (s code inj b) : (setBucket s code inj b).dev = s.dev := rfl
@[simp] theorem takeEvent_dev (r s) : (takeEvent r s).dev = s.dev := by
  unfold takeEvent
  refine dev_ite_eq (dev_ite_eq rfl rfl) (dev_ite_eq rfl ?_)
  extract_lets b
  refine dev_ite_eq ?_ (dev_ite_eq ?_ ?_)
  · rw [programIfDue_dev, stageRecord_dev]
  · rw [programIfDue_dev, stageRecord_dev, setBucket_dev]
  · rw [setBucket_dev]
@[simp] theorem postInj_dev (inj code source fs s) : (postInj inj code source fs s).dev = s.dev := by
  simp only [postInj, traceFire_dev, takeEvent_dev, dev_ite, ite_self]
@[simp] theorem post_dev (code source fs s) : (post code source fs s).dev = s.dev := by simp only [post, postInj_dev]
@[simp] theorem mqTake_dev (q s) : (mqTake q s).dev = s.dev := by
  unfold mqTake
  split <;> simp only [modMq_dev, send_dev]
@[simp] theorem mqAppend_dev (q ws s) : (mqAppend q ws s).dev = s.dev := by simp only [mqAppend, modMq_dev, send_dev, mqTake_dev, dev_ite, ite_self]
@[simp] theorem mqSend_dev (q ws s) : (mqSend q ws s).dev = s.dev := by simp only [mqSend, mqAppend_dev, modMq_dev, dev_ite, ite_self]

-- Functions of Machine/Sectors.lean.
@[simp] theorem putFlash_dev (w d s) : (putFlash w d s).dev = s.dev := rfl
@[simp] theorem putFlashBlock_dev (w b s) : (putFlashBlock w b s).dev = s.dev := by
  simp only [putFlashBlock, each_dev, sameDev_iff, implies_true, putFlash_dev]

-- Functions of Machine/Elements.lean.
@[simp] theorem writeElem_dev (u b s) : (writeElem u b s).dev = s.dev := by
  unfold writeElem
  split <;> simp only [setFrame_dev, writeSlot_dev, putFlashBlock_dev]
@[simp] theorem pulse_dev (l s) : (pulse l s).dev = s.dev := rfl
@[simp] theorem pulseDone_dev (ch d s) : (pulseDone ch d s).dev = s.dev := by simp only [pulseDone, pulse_dev, dev_ite, ite_self]
@[simp] theorem mirrorUnit_dev {send u s} (h : ∀ r s, SameDev s (send r s)) : (mirrorUnit send u s).dev = s.dev := by
  have hs (r s) : (send r s).dev = s.dev := h r s
  unfold mirrorUnit
  split <;> simp [hs]
@[simp] theorem takeStream_dev (p s) : (takeStream p s).2.dev = s.dev := rfl
@[simp] theorem moveUnit_dev (n d s) : (moveUnit n d s).2.dev = s.dev := by
  simp only [moveUnit]
  repeat' split
  all_goals simp

-- Functions of Machine/OpsMotion.lean.
@[simp] theorem handover_dev (n u s) : (handover n u s).dev = s.dev := rfl
@[simp] theorem traceSwitch_dev (n s) : (traceSwitch n s).dev = s.dev := by
  simp only [traceSwitch, each_dev, sameDev_iff, implies_true, modTrace_dev, traceFire_dev, dev_ite, ite_self]
@[simp] theorem endSines_dev (n s) : (endSines n s).dev = s.dev := by
  simp only [endSines, each_dev, sameDev_iff, implies_true, modSine_dev, dev_ite, ite_self]
@[simp] theorem setFormat_dev (n fmt s) : (setFormat n fmt s).dev = s.dev := by
  simp only [setFormat, modCtx_dev, endSines_dev, traceSwitch_dev, handover_dev, dev_ite, ite_self]
@[simp] theorem enableCtx_dev (n s) : (enableCtx n s).dev = s.dev := rfl
@[simp] theorem disableCtx_dev (n s) : (disableCtx n s).dev = s.dev := by simp only [disableCtx, endSines_dev, modCtx_dev]
@[simp] theorem takeOver_dev (new old s) : (takeOver new old s).dev = s.dev := by
  simp only [takeOver, enableCtx_dev, disableCtx_dev, handover_dev, modCtx_dev]
@[simp] theorem setSetpoint_dev (n v s) : (setSetpoint n v s).dev = s.dev := rfl
@[simp] theorem requestSwitch_dev (n s) : (requestSwitch n s).dev = s.dev := by simp only [requestSwitch, modCtx_dev, dev_ite, ite_self]
@[simp] theorem alkPut_dev (a m s) : (alkPut a m s).dev = s.dev := rfl
@[simp] theorem alkSend_dev (a type head imm apply payload s) : (alkSend a type head imm apply payload s).dev = s.dev := by
  simp only [alkSend, alkPut_dev, modAlk_dev, dev_ite, ite_self]
@[simp] theorem sendTimeSet_dev (a s) : (sendTimeSet a s).dev = s.dev := by simp only [sendTimeSet, alkSend_dev]
@[simp] theorem sendTelemSet_dev (a s) : (sendTelemSet a s).dev = s.dev := by simp only [sendTelemSet, alkSend_dev]
@[simp] theorem sendWgate_dev (a mask s) : (sendWgate a mask s).dev = s.dev := by simp only [sendWgate, modAlk_dev, alkSend_dev]
@[simp] theorem sendMode_dev (a h mode raw s) : (sendMode a h mode raw s).dev = s.dev := by
  simp only [sendMode, modHead_dev, alkSend_dev]
@[simp] theorem sendHeater_dev (a h rd wr imm s) : (sendHeater a h rd wr imm s).dev = s.dev := by
  simp only [sendHeater, alkSend_dev]
@[simp] theorem sendLaser_dev (a h op bias lead s) : (sendLaser a h op bias lead s).dev = s.dev := by
  simp only [sendLaser, modHead_dev, alkSend_dev]
@[simp] theorem sendUa_dev (a h demand imm apply s) : (sendUa a h demand imm apply s).dev = s.dev := by
  simp only [sendUa, alkSend_dev]
@[simp] theorem sendZone_dev (a h z s) : (sendZone a h z s).dev = s.dev := by
  simp only [sendZone, modHead_dev, alkSend_dev, nextFree_dev]
@[simp] theorem handServo_dev (n s) : (handServo n s).dev = s.dev := rfl
@[simp] theorem sendTables_dev (n z s) : (sendTables n z s).dev = s.dev := by
  simp only [sendTables, handServo_dev, sendZone_dev, alkSend_dev, nextFree_dev]
@[simp] theorem stopWriter_dev (n s) : (stopWriter n s).dev = s.dev := by simp only [stopWriter, modHead_dev, sendWgate_dev]
@[simp] theorem gateArm_dev (a s) : (gateArm a s).dev = s.dev := by
  simp only [gateArm, sendWgate_dev, each_dev, sameDev_iff, implies_true, modHead_dev]
@[simp] theorem coolHead_dev (n s) : (coolHead n s).dev = s.dev := by
  simp only [coolHead, modHead_dev, sendHeater_dev, sendLaser_dev]
@[simp] theorem gateIsland_dev (n s) : (gateIsland n s).dev = s.dev := rfl
@[simp] theorem laserOff_dev (a h write s) : (laserOff a h write s).dev = s.dev := by
  simp only [laserOff, modHead_dev, sendLaser_dev, dev_ite, ite_self]
@[simp] theorem restHead_dev (a h write s) : (restHead a h write s).dev = s.dev := by
  simp only [restHead, laserOff_dev, sendMode_dev, gateIsland_dev, dev_ite, ite_self]
@[simp] theorem vcmSend_dev (a cmd demand s) : (vcmSend a cmd demand s).dev = s.dev := rfl
@[simp] theorem vcmFrame_dev (a s) : (vcmFrame a s).dev = s.dev := rfl
@[simp] theorem disableArm_dev (a s) : (disableArm a s).dev = s.dev := by
  simp only [disableArm, each_dev, sameDev_iff, implies_true, disableCtx_dev]
@[simp] theorem uaRamp_dev (n s) : (uaRamp n s).dev = s.dev := by
  simp only [uaRamp, modHead_dev, each_dev, sameDev_iff, implies_true, sendUa_dev]
@[simp] theorem armSafe_dev (a s) : (armSafe a s).dev = s.dev := by
  simp only [armSafe, each_dev, sameDev_iff, implies_true, uaRamp_dev, coolHead_dev, gateIsland_dev, gateArm_dev]
@[simp] theorem unloadArm_dev (a s) : (unloadArm a s).dev = s.dev := by
  simp only [unloadArm, armSafe_dev, each_dev, sameDev_iff, implies_true, disableCtx_dev, takeOver_dev, setSetpoint_dev, freeInner_dev, modArm_dev, dev_ite, ite_self]
@[simp] theorem unloadAll_dev (s) : (unloadAll s).dev = s.dev := by
  simp only [unloadAll, each_dev, sameDev_iff, implies_true, unloadArm_dev]
@[simp] theorem headsOff_dev (a s) : (headsOff a s).dev = s.dev := by
  simp only [headsOff, each_dev, sameDev_iff, implies_true, modHead_dev, sendMode_dev]
@[simp] theorem retractArm_dev (a s) : (retractArm a s).dev = s.dev := by
  simp only [retractArm, modArm_dev, disableArm_dev, vcmSend_dev]
@[simp] theorem spnEvent_dev (code fs s) : (spnEvent code fs s).dev = s.dev := by simp only [spnEvent, post_dev]
@[simp] theorem gatesOff_dev (s) : (gatesOff s).dev = s.dev := by simp only [gatesOff, send_dev, dev_ite, ite_self]
@[simp] theorem gatesOn_dev (s) : (gatesOn s).dev = s.dev := by simp only [gatesOn, send_dev, dev_ite, ite_self]
@[simp] theorem setSpnMode_dev (m s) : (setSpnMode m s).dev = s.dev := rfl
@[simp] theorem spnCtxOff_dev (s) : (spnCtxOff s).dev = s.dev := by
  simp only [spnCtxOff, each_dev, sameDev_iff, implies_true, disableCtx_dev]
@[simp] theorem inverterOff_dev (s) : (inverterOff s).dev = s.dev := by simp only [inverterOff, gatesOff_dev, spnCtxOff_dev]
@[simp] theorem startOffsets_dev (s) : (startOffsets s).dev = s.dev := by simp only [startOffsets, inverterOff_dev]
@[simp] theorem startCatch_dev (s) : (startCatch s).dev = s.dev := by simp only [startCatch, inverterOff_dev]
@[simp] theorem noCurve_dev (s) : (noCurve s).dev = s.dev := rfl
@[simp] theorem startShortBrake_dev (s) : (startShortBrake s).dev = s.dev := by
  simp only [startShortBrake, setSpnMode_dev, gatesOn_dev, spnCtxOff_dev, noCurve_dev]
@[simp] theorem startCoast_dev (s) : (startCoast s).dev = s.dev := by
  simp only [startCoast, setSpnMode_dev, noCurve_dev, inverterOff_dev]
@[simp] theorem spindleStop_dev (s) : (spindleStop s).dev = s.dev := by
  simp only [spindleStop, noCurve_dev, startCoast_dev, gatesOn_dev, each_dev, sameDev_iff, implies_true, enableCtx_dev, disableCtx_dev, startShortBrake_dev, dev_ite, ite_self]
@[simp] theorem startGenerator_dev (s) : (startGenerator s).dev = s.dev := by
  simp only [startGenerator, each_dev, sameDev_iff, implies_true, setFormat_dev, enableCtx_dev, setSetpoint_dev, takeOver_dev, disableCtx_dev, gatesOn_dev, noCurve_dev, post_dev, dev_ite, ite_self]
@[simp] theorem checkFloor_dev (s) : (checkFloor s).dev = s.dev := by simp only [checkFloor, post_dev, dev_ite, ite_self]

-- Functions of Machine/OpsHost.lean.
@[simp] theorem queueOut_dev (l f s) : (queueOut l f s).dev = s.dev := rfl
@[simp] theorem frameSent_dev (l s) : (frameSent l s).dev = s.dev := rfl
@[simp] theorem putFrame_dev (l seq body flip new s) : (putFrame l seq body flip new s).dev = s.dev := rfl
@[simp] theorem injectTx_dev (l ftype s) : (injectTx l ftype s).2.dev = s.dev := by
  simp only [injectTx]
  repeat' split
  all_goals simp
@[simp] theorem putLctl_dev (l r s) : (putLctl l r s).dev = s.dev := by
  simp only [putLctl]
  simp
@[simp] theorem sendNumbered_dev (l body s) : (sendNumbered l body s).dev = s.dev := by
  simp only [sendNumbered]
  simp
@[simp] theorem sendAgain_dev (l f s) : (sendAgain l f s).dev = s.dev := by simp only [sendAgain, modLink_dev, putFrame_dev]
@[simp] theorem ptnSend_dev (r s) : (ptnSend r s).dev = s.dev := by simp only [ptnSend, sendNumbered_dev, modLink_dev, dev_ite, ite_self]
@[simp] theorem ptnFlush_dev (s) : (ptnFlush s).dev = s.dev := by
  simp only [ptnFlush, each_dev, sameDev_iff, implies_true, sendNumbered_dev, modLink_dev, dev_ite, ite_self]
@[simp] theorem mirror_dev (r s) : (mirror r s).dev = s.dev := by simp only [mirror, ptnSend_dev, dev_ite, ite_self]
@[simp] theorem sendArb_dev (s) : (sendArb s).dev = s.dev := by simp only [sendArb, ptnSend_dev, dev_ite, ite_self]
@[simp] theorem askResync_dev (s) : (askResync s).dev = s.dev := by simp only [askResync, ptnSend_dev, post_dev]
@[simp] theorem modCmd_dev (s arr f) : (modCmd s arr f).dev = s.dev := rfl
@[simp] theorem freeSlots_dev (arr s) : (freeSlots arr s).dev = s.dev := rfl
@[simp] theorem unpin_dev (arr s) : (unpin arr s).dev = s.dev := rfl
@[simp] theorem pruneCommitted_dev (s) : (pruneCommitted s).dev = s.dev := by simp only [pruneCommitted, dev_ite, ite_self]
@[simp] theorem releaseFrames_dev (s) : (releaseFrames s).dev = s.dev := by
  simp only [releaseFrames, pruneCommitted_dev, each_dev, sameDev_iff, implies_true, setEntry_dev, setFrame_dev, dev_ite, ite_self]
@[simp] theorem issueRec_dev (p r s) : (issueRec p r s).dev = s.dev := by simp only [issueRec, mirror_dev, modHopPort_dev, dev_ite, ite_self]
@[simp] theorem dropGrants_dev (p tag s) : (dropGrants p tag s).dev = s.dev := rfl
@[simp] theorem completeOne_dev (arr status info s) : (completeOne arr status info s).dev = s.dev := by
  unfold completeOne
  split <;> simp only [modCmd_dev, releaseFrames_dev, unpin_dev, freeSlots_dev, issueRec_dev, dropGrants_dev, dev_ite, ite_self]
@[simp] theorem complete_dev (arr status info s) : (complete arr status info s).dev = s.dev := by
  unfold complete
  split <;> simp only [each_dev, sameDev_iff, implies_true, completeOne_dev]
@[simp] theorem dropClean_dev (lba s) : (dropClean lba s).dev = s.dev := by
  simp only [dropClean, each_dev, sameDev_iff, implies_true, setFrame_dev, dev_ite, ite_self]
@[simp] theorem setState_dev (f st s) : (setState f st s).dev = s.dev := by simp only [setState, setEntry_dev, mirror_dev, dev_ite, ite_self]
@[simp] theorem addWork_dev (w s) : (addWork w s).dev = s.dev := by simp only [addWork, dev_ite, ite_self]
@[simp] theorem readWorks_dev (kind a q keys arrival repair s) : (readWorks kind a q keys arrival repair s).dev = s.dev := by
  simp only [readWorks, each_dev, sameDev_iff, implies_true, addWork_dev]
@[simp] theorem fetchRow_dev (arr row lbas s) : (fetchRow arr row lbas s).dev = s.dev := by simp only [fetchRow, readWorks_dev, dev_ite, ite_self]
@[simp] theorem takeBlock_dev (arr i lba s) : (takeBlock arr i lba s).dev = s.dev := by
  simp only [takeBlock]
  repeat' split
  all_goals simp
@[simp] theorem retakeBlock_dev (arr i lba s) : (retakeBlock arr i lba s).dev = s.dev := by
  simp only [retakeBlock]
  repeat' split
  all_goals simp
@[simp] theorem withdraw_dev (f s) : (withdraw f s).dev = s.dev := by
  unfold withdraw
  dsimp only
  rw [each_dev]
  · simp
  · intro arr s
    repeat' split
    all_goals simp
@[simp] theorem passWrite_dev (w s) : (passWrite w s).dev = s.dev := by
  unfold passWrite
  refine each_dev fun x s => ?_
  repeat' split
  all_goals simp
@[simp] theorem withdrawLanding_dev (c s) : (withdrawLanding c s).dev = s.dev := by
  simp only [withdrawLanding, passWrite_dev, modCmd_dev, each_dev, sameDev_iff, implies_true, withdraw_dev, dev_ite, ite_self]
@[simp] theorem ackEntries_dev (c s) : (ackEntries c s).dev = s.dev := by
  simp only [ackEntries, each_dev, sameDev_iff, implies_true, setEntry_dev, dev_ite, ite_self]
@[simp] theorem beginVerify_dev (arr s) : (beginVerify arr s).dev = s.dev := by
  unfold beginVerify
  split <;> simp only [modCmd_dev, each_dev, sameDev_iff, implies_true, fetchRow_dev]
@[simp] theorem recheck_dev (s) : (recheck s).dev = s.dev := by
  unfold recheck
  refine each_dev fun x s => ?_
  repeat' split
  all_goals simp
@[simp] theorem mqNote_dev (q s) : (mqNote q s).dev = s.dev := by simp only [mqNote, mqSend_dev, nextFree_dev]
@[simp] theorem listBlock_dev (lba s) : (listBlock lba s).dev = s.dev := by simp only [listBlock, dev_ite, ite_self]
@[simp] theorem storeDeferred_dev (r s) : (storeDeferred r s).dev = s.dev := rfl
@[simp] theorem addDeferred_dev (r s) : (addDeferred r s).dev = s.dev := by
  simp only [addDeferred]
  repeat' split
  all_goals simp
@[simp] theorem raiseDeferred_dev (portB cause lba arrival tag s) : (raiseDeferred portB cause lba arrival tag s).dev = s.dev := by
  simp only [raiseDeferred]
  repeat' split
  all_goals simp

-- Functions of Machine/Stops.lean.
@[simp] theorem countReport_dev (r s) : (countReport r s).dev = s.dev := by simp only [countReport, dev_ite, ite_self]
@[simp] theorem captureFirst_dev (rs s) : (captureFirst rs s).dev = s.dev := by
  simp only [captureFirst]
  repeat' split
  all_goals simp
@[simp] theorem cutVisit_dev (a s) : (cutVisit a s).dev = s.dev := by
  unfold cutVisit
  split <;> simp only [freeInner_dev, each_dev, sameDev_iff, implies_true, restHead_dev, post_dev, dev_ite, ite_self]
@[simp] theorem openCause_dev (event unit injected s) : (openCause event unit injected s).dev = s.dev := by simp only [openCause, dev_ite, ite_self]
@[simp] theorem closeCause_dev (event unit s) : (closeCause event unit s).dev = s.dev := rfl
@[simp] theorem dropActive_dev (s) : (dropActive s).dev = s.dev := by
  simp only [dropActive, each_dev, sameDev_iff, implies_true, vcmFrame_dev, inverterOff_dev, startCoast_dev, send_dev, dev_ite, ite_self]
@[simp] theorem startRebuild_dev (a h s) : (startRebuild a h s).dev = s.dev := by simp only [startRebuild, post_dev]

-- Functions of Machine/OpsRows.lean.
@[simp] theorem dropWork_dev (f s) : (dropWork f s).dev = s.dev := rfl
@[simp] theorem reserveSlot_dev (arr pos lba s) : (reserveSlot arr pos lba s).dev = s.dev := by
  unfold reserveSlot
  repeat' split
  all_goals simp only [modSlot_dev]
@[simp] theorem fillSlot_dev (arr pos lba data s) : (fillSlot arr pos lba data s).2.dev = s.dev := by
  simp only [fillSlot]
  repeat' split
  all_goals simp
@[simp] theorem setSrc_dev (arr i b s) : (setSrc arr i b s).dev = s.dev := rfl
@[simp] theorem pumpRead_dev (arr s) : (pumpRead arr s).dev = s.dev := by
  unfold pumpRead
  split
  · rfl
  · split
    · rfl
    · rw [releaseFrames_dev]
      split
      all_goals simp only [complete_dev]
      all_goals
        refine each_dev fun i s => ?_
        split
        · split
          · split
            · next h => simp [snd_dev_of_eq (fillSlot_dev ..) h]
            · next h => exact snd_dev_of_eq (fillSlot_dev ..) h
          · rfl
        · rfl
@[simp] theorem pumpVerify_dev (arr s) : (pumpVerify arr s).dev = s.dev := by
  unfold pumpVerify
  repeat' split
  all_goals simp only [complete_dev]
@[simp] theorem deliverHost_dev (lba data htag s) : (deliverHost lba data htag s).dev = s.dev := by
  refine each_dev fun ri s => ?_
  dsimp only
  split
  · rfl
  · split
    · split
      · rfl
      · split
        · next h => simp [snd_dev_of_eq (fillSlot_dev ..) h]
        · next h => exact snd_dev_of_eq (fillSlot_dev ..) h
    · simp
@[simp] theorem loseHost_dev (lba s) : (loseHost lba s).dev = s.dev := by
  simp only [loseHost, each_dev, sameDev_iff, implies_true, pumpVerify_dev, pumpRead_dev, setSrc_dev]
@[simp] theorem modRow_dev (row f s) : (modRow row f s).dev = s.dev := rfl
@[simp] theorem reclaim_dev (f s) : (reclaim f s).dev = s.dev := rfl
theorem takeFrame_dev {s f t} (h : takeFrame s = some (f, t)) : t.dev = s.dev := by
  unfold takeFrame at h
  split at h
  · cases h; rfl
  · obtain ⟨g, _, hg⟩ := Option.map_eq_some_iff.1 h
    cases hg
    exact reclaim_dev ..
@[simp] theorem prefetchIn_dev (lba data htag s) : (prefetchIn lba data htag s).dev = s.dev := by
  unfold prefetchIn
  repeat' split
  all_goals simp only [setFrame_dev]
@[simp] theorem prefetchParity_dev (row k data htag s) : (prefetchParity row k data htag s).dev = s.dev := by
  unfold prefetchParity
  repeat' split
  all_goals simp only [setFrame_dev]
@[simp] theorem dropParity_dev (row s) : (dropParity row s).dev = s.dev := by
  simp only [dropParity, each_dev, sameDev_iff, implies_true, setFrame_dev]
@[simp] theorem keepRead_dev (lba data htag whole s) : (keepRead lba data htag whole s).dev = s.dev := by
  unfold keepRead
  refine dev_ite_eq ?_ rfl
  split
  · next h => simp [takeFrame_dev h]
  · rfl
@[simp] theorem modRowSec_dev (row k f s) : (modRowSec row k f s).dev = s.dev := rfl
@[simp] theorem putParityAt_dev (base sl data htag poison s) : (putParityAt base sl data htag poison s).dev = s.dev := rfl
@[simp] theorem putParity_dev (r t sl data htag poison s) : (putParity r t sl data htag poison s).dev = s.dev := rfl
@[simp] theorem buildParity_dev (r s) : (buildParity r s).dev = s.dev := by
  simp only [buildParity, each_dev, sameDev_iff, implies_true, putParity_dev]
@[simp] theorem rowReady_dev (row s) : (rowReady row s).dev = s.dev := by
  unfold rowReady
  split <;> simp only [buildParity_dev, each_dev, sameDev_iff, implies_true, modRowSec_dev, addWork_dev, dev_ite, ite_self]
@[simp] theorem readersToRow_dev (r s) : (readersToRow r s).dev = s.dev := by
  unfold readersToRow
  refine each_dev fun arr s => each_dev fun o s => ?_
  dsimp only
  split <;> simp
@[simp] theorem pumpReaders_dev (s) : (pumpReaders s).dev = s.dev := by
  simp only [pumpReaders, each_dev, sameDev_iff, implies_true, pumpRead_dev]
@[simp] theorem loseStaged_dev (f s) : (loseStaged f s).dev = s.dev := by
  simp only [loseStaged, each_dev, sameDev_iff, implies_true, pumpRead_dev, modCmd_dev]
@[simp] theorem startBuild_dev (row s) : (startBuild row s).dev = s.dev := by
  unfold startBuild
  split
  · rfl
  · rfl
  · dsimp only
    split
    · refine each_dev fun o s => ?_
      repeat' split
      all_goals simp
    · simp only [dev_ite, rowReady_dev, readWorks_dev, readersToRow_dev, ite_self]
      refine each_dev fun o s => ?_
      repeat' split
      all_goals simp
@[simp] theorem startIfUnpinned_dev (row s) : (startIfUnpinned row s).dev = s.dev := by simp only [startIfUnpinned, startBuild_dev, dev_ite, ite_self]
@[simp] theorem readIn_dev (lba data htag s) : (readIn lba data htag s).dev = s.dev := by
  simp only [readIn]
  repeat' split
  all_goals simp
@[simp] theorem parityIn_dev (a q h t sl i s) : (parityIn a q h t sl i s).dev = s.dev := by
  unfold parityIn
  split <;> simp only [putParity_dev, rowReady_dev, dev_ite, ite_self]
@[simp] theorem rewriteRow_dev (row s) : (rewriteRow row s).dev = s.dev := rfl
@[simp] theorem shareLost_dev (a q h s) : (shareLost a q h s).dev = s.dev := by
  unfold shareLost
  split <;> simp only [rewriteRow_dev]
@[simp] theorem poisonIn_dev (lba s) : (poisonIn lba s).dev = s.dev := by
  simp only [poisonIn]
  repeat' split
  all_goals simp
@[simp] theorem readInLost_dev (lba s) : (readInLost lba s).dev = s.dev := by
  simp only [readInLost]
  repeat' split
  all_goals simp
@[simp] theorem pinCopy_dev (lba data htag s) : (pinCopy lba data htag s).dev = s.dev := by
  simp only [pinCopy]
  split
  · split
    · rfl
    · next h => simp [takeFrame_dev h]
  · simp
@[simp] theorem putSec_dev (x s) : (putSec x s).dev = s.dev := rfl
@[simp] theorem dropSec_dev (x s) : (dropSec x s).dev = s.dev := rfl
@[simp] theorem enterRung_dev (n s) : (enterRung n s).dev = s.dev := rfl
@[simp] theorem leaveRung_dev (n s) : (leaveRung n s).dev = s.dev := rfl
@[simp] theorem wantSec_dev (a q h t sl s) : (wantSec a q h t sl s).dev = s.dev := by
  simp only [wantSec, putSec_dev, each_dev, sameDev_iff, implies_true, dev_ite, ite_self]
@[simp] theorem rereadWork_dev (x extra s) : (rereadWork x extra s).dev = s.dev := by
  simp only [rereadWork, each_dev, sameDev_iff, implies_true, addWork_dev]
@[simp] theorem unrecoverable_dev (lba s) : (unrecoverable lba s).dev = s.dev := by
  simp only [unrecoverable, mqNote_dev, post_dev, listBlock_dev, startIfUnpinned_dev, readInLost_dev, loseHost_dev, dev_ite, ite_self]
@[simp] theorem placeBlock_dev (a q h t sl data s) : (placeBlock a q h t sl data s).dev = s.dev := by
  unfold placeBlock
  split <;> simp only [writeSlot_dev, dev_ite, ite_self]
@[simp] theorem deliverInfo_dev (x i s) : (deliverInfo x i s).dev = s.dev := by
  simp only [deliverInfo]
  repeat' split
  all_goals simp
@[simp] theorem noteLimit_dev (ds a h z s) : (noteLimit ds a h z s).dev = s.dev := by simp only [noteLimit, post_dev, dev_ite, ite_self]
@[simp] theorem cutProbes_dev (s) : (cutProbes s).dev = s.dev := by
  unfold cutProbes
  refine each_dev fun x s => ?_
  repeat' split
  all_goals simp
@[simp] theorem enterDefect_dev (d s) : (enterDefect d s).dev = s.dev := by
  simp only [enterDefect, mqNote_dev, post_dev, cutProbes_dev, noteLimit_dev, mirror_dev]
@[simp] theorem askSecond_dev (island frame track s) : (askSecond island frame track s).dev = s.dev := rfl
@[simp] theorem dropReread_dev (x s) : (dropReread x s).dev = s.dev := rfl
@[simp] theorem followUp_dev (y s) : (followUp y s).dev = s.dev := by
  simp only [followUp, enterRung_dev, rereadWork_dev, modHead_dev, putSec_dev, dev_ite, ite_self]
@[simp] theorem settleLost_dev (a q s) : (settleLost a q s).dev = s.dev := by
  unfold settleLost
  refine each_dev fun x s => ?_
  dsimp only
  repeat' split
  all_goals simp
@[simp] theorem forgetRow_dev (a q s) : (forgetRow a q s).dev = s.dev := by simp only [forgetRow, dev_ite, ite_self]
@[simp] theorem endFollowUp_dev (x s) : (endFollowUp x s).dev = s.dev := rfl
@[simp] theorem rewriteWork_dev (r k s) : (rewriteWork r k s).dev = s.dev := by simp only [rewriteWork, addWork_dev]
@[simp] theorem voidSector_dev (row k s) : (voidSector row k s).dev = s.dev := by
  unfold voidSector
  split <;> simp only [rewriteWork_dev, modRowSec_dev, dev_ite, ite_self]
@[simp] theorem passesEnded_dev (o s) : (passesEnded o s).dev = s.dev := by
  unfold passesEnded
  split <;> simp only [each_dev, sameDev_iff, implies_true, setState_dev, dev_ite, ite_self]
@[simp] theorem voidRepair_dev (a s) : (voidRepair a s).dev = s.dev := by
  unfold voidRepair
  split <;> simp only [addWork_dev, dev_ite, ite_self]
@[simp] theorem voidArm_dev (hit a heads s) : (voidArm hit a heads s).dev = s.dev := by
  unfold voidArm
  split <;> simp only [each_dev, sameDev_iff, implies_true, voidSector_dev, voidRepair_dev, dev_ite, ite_self]
@[simp] theorem abandonRow_dev (row s) : (abandonRow row s).dev = s.dev := by
  unfold abandonRow
  split
  · rfl
  · dsimp only
    rw [each_dev]
    · simp
    · intro fe s
      repeat' split
      all_goals simp
@[simp] theorem modRebuild_dev (k f s) : (modRebuild k f s).dev = s.dev := rfl
@[simp] theorem saveCursor_dev (k s) : (saveCursor k s).dev = s.dev := by simp only [saveCursor, mirror_dev, modRebuild_dev]

-- Functions of Machine/Lanlet.lean.
@[simp] theorem linkDown_dev (l cause inj s) : (linkDown l cause inj s).dev = s.dev := by
  simp only [linkDown, postInj_dev, modLink_dev, dev_ite, ite_self]
@[simp] theorem ackedFrame_dev (l f s) : (ackedFrame l f s).dev = s.dev := by
  unfold ackedFrame
  repeat' split
  all_goals simp
@[simp] theorem takeAck_dev (l ack s) : (takeAck l ack s).dev = s.dev := by
  unfold takeAck
  split <;> simp only [modLink_dev, each_dev, sameDev_iff, implies_true, ackedFrame_dev]
@[simp] theorem takeCredit_dev (l cls total s) : (takeCredit l cls total s).dev = s.dev := by simp only [takeCredit, modLink_dev, dev_ite, ite_self]
@[simp] theorem returnCredit_dev (l cls s) : (returnCredit l cls s).dev = s.dev := rfl
@[simp] theorem resend_dev (l f s) : (resend l f s).dev = s.dev := by simp only [resend, sendAgain_dev, linkDown_dev, postInj_dev, dev_ite, ite_self]
@[simp] theorem trainFailed_dev (l s) : (trainFailed l s).dev = s.dev := by simp only [trainFailed, modLink_dev, post_dev, dev_ite, ite_self]
@[simp] theorem trainLanes_dev (l peerPresent s) : (trainLanes l peerPresent s).dev = s.dev := by
  simp only [trainLanes, each_dev, sameDev_iff, implies_true, send_dev, dev_ite, ite_self]
@[simp] theorem partnerUp_dev (first s) : (execLnkTrainAttempt.partnerUp first s).dev = s.dev := by
  simp only [execLnkTrainAttempt.partnerUp]
  repeat' split
  all_goals simp
@[simp] theorem swapEvent_dev (l dir lane reason s) : (swapEvent l dir lane reason s).dev = s.dev := by
  simp only [swapEvent, post_dev, dev_ite, ite_self]
@[simp] theorem reportLane_dev (l lane reason s) : (reportLane l lane reason s).dev = s.dev := by
  simp only [reportLane, linkDown_dev, putLctl_dev, modLink_dev, dev_ite, ite_self]
@[simp] theorem takeLaneMap_dev (l lane reason s) : (takeLaneMap l lane reason s).dev = s.dev := by
  simp only [takeLaneMap, putLctl_dev, swapEvent_dev, modLink_dev, linkDown_dev, dev_ite, ite_self]
@[simp] theorem takeLaneMapDone_dev (l lane s) : (takeLaneMapDone l lane s).dev = s.dev := by
  unfold takeLaneMapDone
  split <;> simp only [modLink_dev, swapEvent_dev, dev_ite, ite_self]
@[simp] theorem takeNak_dev (l seqs s) : (takeNak l seqs s).dev = s.dev := by
  simp only [takeNak, modInj_dev, modLink_dev, each_dev, sameDev_iff, implies_true, resend_dev, dev_ite, ite_self]
@[simp] theorem takeoverCompletions_dev (p s) : (takeoverCompletions p s).dev = s.dev := by
  simp only [takeoverCompletions, each_dev, sameDev_iff, implies_true, modHopPort_dev, dev_ite, ite_self]

-- Functions of Machine/PlanOps.lean.
@[simp] theorem applyPlan_dev (v s) : (applyPlan v s).dev = s.dev := by
  unfold applyPlan
  split <;> simp only [handServo_dev]
@[simp] theorem commitPlan_dev (v old s) : (commitPlan v old s).dev = s.dev := by
  simp only [commitPlan, post_dev, each_dev, sameDev_iff, implies_true, mirror_dev, applyPlan_dev, dev_ite, ite_self]
@[simp] theorem replanTo_dev (k l want want2 s) : (replanTo k l want want2 s).dev = s.dev := by
  simp only [replanTo, commitPlan_dev, dev_ite, ite_self]

-- Functions of Machine/Margins.lean.
@[simp] theorem recomputeHorizon_dev (today s) : (recomputeHorizon today s).dev = s.dev := by
  simp only [recomputeHorizon, post_dev, dev_ite, ite_self]
@[simp] theorem noteMargin_dev (kind l v s) : (noteMargin kind l v s).dev = s.dev := rfl
@[simp] theorem exhaustedWith_dev {row l more s} (h : ∀ s, SameDev s (more s)) : (exhaustedWith row l more s).dev = s.dev := by
  refine dev_ite_eq rfl ?_
  rw [recomputeHorizon_dev]
  exact (h _).trans (by simp)
@[simp] theorem exhausted_dev (row l s) : (exhausted row l s).dev = s.dev := exhaustedWith_dev fun _ => rfl
@[simp] theorem recovered_dev (row l s) : (recovered row l s).dev = s.dev := rfl
@[simp] theorem roomLeft_dev (l s) : (roomLeft l s).dev = s.dev := by simp only [roomLeft, post_dev]

-- Functions of Machine/Visits.lean.
@[simp] theorem planVisits_dev (a s) : (planVisits a s).dev = s.dev := by
  simp only [planVisits]
  repeat' split
  all_goals simp
@[simp] theorem probePass_dev (a h step v s) : (probePass a h step v s).dev = s.dev := by
  simp only [probePass, modHead_dev, sendLaser_dev]
@[simp] theorem modOp_dev (a f s) : (modOp a f s).dev = s.dev := rfl
@[simp] theorem gather_dev (n step f s) : (gather n step f s).dev = s.dev := rfl
@[simp] theorem dropGathered_dev (n s) : (dropGathered n s).dev = s.dev := rfl
@[simp] theorem loadTrial_dev (n z s) : (loadTrial n z s).dev = s.dev := by
  unfold loadTrial
  split <;> simp only [modIsl_dev]
@[simp] theorem beginStep_dev (a h step v s) : (beginStep a h step v s).dev = s.dev := by
  unfold beginStep
  split <;> simp only [modHead_dev, modIsl_dev, loadTrial_dev, probePass_dev, sendHeater_dev, post_dev, dev_ite, ite_self]
@[simp] theorem setSteps_dev (a f s) : (setSteps a f s).dev = s.dev := rfl
@[simp] theorem visitWedge_dev (n hr s) : (visitWedge n hr s).dev = s.dev := by
  unfold visitWedge
  repeat' split
  all_goals simp only [gather_dev, setSteps_dev, beginStep_dev, dev_ite, ite_self]
@[simp] theorem calContact_dev (n s) : (calContact n s).dev = s.dev := by
  unfold calContact
  split <;> simp only [modOp_dev, setSteps_dev, dev_ite, ite_self]
@[simp] theorem lowerClearance_dev (l above s) : (lowerClearance l above s).dev = s.dev := by
  simp only [lowerClearance, replanTo_dev, dev_ite, ite_self]
@[simp] theorem confirmSet_dev (l passed s) : (confirmSet l passed s).dev = s.dev := by
  simp only [confirmSet, post_dev, commitPlan_dev, dev_ite, ite_self]
@[simp] theorem adoptSet_dev (l cand s) : (adoptSet l cand s).dev = s.dev := by simp only [adoptSet, commitPlan_dev, dev_ite, ite_self]
@[simp] theorem adoptCal_dev (l hr clr s) : (adoptCal l hr clr s).dev = s.dev := by simp only [adoptCal, commitPlan_dev, dev_ite, ite_self]
@[simp] theorem moveLaw_dev (n base len s) : (moveLaw n base len s).dev = s.dev := by simp only [moveLaw, modCtx_dev, handover_dev, dev_ite, ite_self]
@[simp] theorem applyDue_dev (a s) : (applyDue a s).dev = s.dev := by
  simp only [applyDue, each_dev, sameDev_iff, implies_true, moveLaw_dev, applyPlan_dev, dev_ite, ite_self]

-- Functions of Machine/ArmLink.lean.
@[simp] theorem sendLaneMap_dev (a atOnce up dn s) : (sendLaneMap a atOnce up dn s).dev = s.dev := by
  simp only [sendLaneMap, modAlk_dev, alkSend_dev]
@[simp] theorem modMon_dev (a h f s) : (modMon a h f s).dev = s.dev := rfl

-- Functions of Machine/Turns.lean.
@[simp] theorem applySetpoint_dev (s) : (applySetpoint s).dev = s.dev := by simp only [applySetpoint, modCtx_dev, setSetpoint_dev, dev_ite, ite_self]
@[simp] theorem saveCursors_dev (s) : (saveCursors s).dev = s.dev := by
  simp only [saveCursors, each_dev, sameDev_iff, implies_true, saveCursor_dev, dev_ite, ite_self]
@[simp] theorem parkSteps_dev (s) : (parkSteps s).dev = s.dev := by
  simp only [parkSteps]
  repeat' split
  all_goals simp

-- Functions of Machine/Governor.lean.
@[simp] theorem sineStep_dev (n e out s) : (sineStep n e out s).dev = s.dev := by
  simp only [sineStep, each_dev, sameDev_iff, implies_true, modSine_dev, mqSend_dev, dev_ite, ite_self]
@[simp] theorem traceRecord_dev (c v s) : (traceRecord c v s).dev = s.dev := by
  simp only [traceRecord, modTrace_dev, traceFire_dev, dev_ite, ite_self]
@[simp] theorem traceTaps_dev (n fmt x r e outs u v s) : (traceTaps n fmt x r e outs u v s).dev = s.dev := by
  simp only [traceTaps, each_dev, sameDev_iff, implies_true, traceRecord_dev, dev_ite, ite_self]
@[simp] theorem trySwitch_dev (n e s) : (trySwitch n e s).dev = s.dev := by
  simp only [trySwitch, closeCause_dev, modCtx_dev, setFormat_dev, dev_ite, ite_self]

-- Functions of Machine/Spindle.lean.
@[simp] theorem observerStep_dev (iA iB s) : (observerStep iA iB s).dev = s.dev := rfl
@[simp] theorem sendDuty_dev (a b c s) : (sendDuty a b c s).dev = s.dev := rfl
@[simp] theorem setObsV_dev (vA vB s) : (setObsV vA vB s).dev = s.dev := rfl
@[simp] theorem noteDq_dev (iA iB s) : (noteDq iA iB s).dev = s.dev := rfl
@[simp] theorem shortBrakePeriod_dev (ia ib imax s) : (shortBrakePeriod ia ib imax s).dev = s.dev := by
  simp only [shortBrakePeriod, setObsV_dev, observerStep_dev, noteDq_dev, gatesOff_dev, sendDuty_dev, dev_ite, ite_self]
@[simp] theorem gatherOffsets_dev (m s) : (gatherOffsets m s).dev = s.dev := by
  unfold gatherOffsets
  split <;> simp only [dev_ite, ite_self]
@[simp] theorem gatherEmf_dev (p s) : (gatherEmf p s).dev = s.dev := by
  unfold gatherEmf
  split <;> simp only [dev_ite, ite_self]
@[simp] theorem coastPeriod_dev (m s) : (coastPeriod m s).dev = s.dev := by
  unfold coastPeriod
  split <;> simp only [observerStep_dev, setObsV_dev]
@[simp] theorem presetObserver_dev (rpm s) : (presetObserver rpm s).dev = s.dev := rfl
@[simp] theorem startFromRest_dev (s) : (startFromRest s).dev = s.dev := by
  simp only [startFromRest, gatesOn_dev, enableCtx_dev, inverterOff_dev]
@[simp] theorem closeLoops_dev (rpm s) : (closeLoops rpm s).dev = s.dev := by
  simp only [closeLoops, gatesOn_dev, enableCtx_dev, inverterOff_dev, presetObserver_dev]
@[simp] theorem closeSpeedLoop_dev (s) : (closeSpeedLoop s).dev = s.dev := by
  simp only [closeSpeedLoop, applySetpoint_dev, enableCtx_dev, dev_ite, ite_self]
@[simp] theorem speedOf_dev (s) : (speedOf s).2.dev = s.dev := by
  simp only [speedOf]
  repeat' split
  all_goals simp
@[simp] theorem spindleOff_dev (s) : (spindleOff s).dev = s.dev := by simp only [spindleOff, inverterOff_dev]

-- Functions of Machine/Power.lean.
@[simp] theorem modArea_dev (k f s) : (modArea k f s).dev = s.dev := rfl

-- Functions of Machine/WriteStream.lean.
@[simp] theorem sendGrid_dev (n s) : (sendGrid n s).dev = s.dev := by simp only [sendGrid, modAlk_dev, alkSend_dev]
@[simp] theorem startStream_dev (n s) : (startStream n s).dev = s.dev := by
  simp only [startStream]
  repeat' split
  all_goals simp
@[simp] theorem followStream_dev (n s) : (followStream n s).dev = s.dev := by
  simp only [followStream]
  repeat' split
  all_goals simp

-- Functions of Machine/Servo.lean.
@[simp] theorem uaSet_dev (n mu s) : (uaSet n mu s).dev = s.dev := by simp only [uaSet, sendUa_dev, modHead_dev]
@[simp] theorem uaPreset_dev (n mu s) : (uaPreset n mu s).dev = s.dev := by simp only [uaPreset, sendUa_dev, modHead_dev]
@[simp] theorem moveArm_dev (a ts s) : (moveArm a ts s).dev = s.dev := by
  simp only [moveArm, each_dev, sameDev_iff, implies_true, modHead_dev, modArm_dev, uaPreset_dev, dev_ite, ite_self]
@[simp] theorem reseek_dev (a s) : (reseek a s).dev = s.dev := by simp only [reseek, moveArm_dev, modArm_dev]
@[simp] theorem sendWindow_dev (n s) : (sendWindow n s).dev = s.dev := by simp only [sendWindow, alkSend_dev]
@[simp] theorem windowHead_dev (n s) : (windowHead n s).dev = s.dev := by simp only [windowHead, sendWindow_dev, sendMode_dev]
@[simp] theorem closePosition_dev (a s) : (closePosition a s).dev = s.dev := by
  simp only [closePosition, each_dev, sameDev_iff, implies_true, windowHead_dev, takeOver_dev, moveArm_dev, modArm_dev]
@[simp] theorem endSeek_dev (a s) : (endSeek a s).dev = s.dev := by
  simp only [endSeek, modArm_dev, each_dev, sameDev_iff, implies_true, modHead_dev, enableCtx_dev, setSetpoint_dev, dev_ite, ite_self]
@[simp] theorem rebasePhases_dev (a s) : (rebasePhases a s).dev = s.dev := by
  unfold rebasePhases
  split <;> simp only [each_dev, sameDev_iff, implies_true, modHead_dev]
@[simp] theorem coastOver_dev (a s) : (coastOver a s).dev = s.dev := rfl
@[simp] theorem acquireWedge_dev (n d s) : (acquireWedge n d s).dev = s.dev := by
  simp only [acquireWedge, modHead_dev, rebasePhases_dev, closePosition_dev, windowHead_dev, coastOver_dev, dev_ite, ite_self]
@[simp] theorem validWedge_dev (n y d s) : (validWedge n y d s).dev = s.dev := by
  simp only [validWedge, modHead_dev, modArm_dev, coastOver_dev, dev_ite, ite_self]
@[simp] theorem seekKt_dev (a k v s) : (seekKt a k v s).dev = s.dev := by simp only [seekKt, dev_ite, ite_self]
@[simp] theorem armWriter_dev (n s) : (armWriter n s).dev = s.dev := by simp only [armWriter, followStream_dev, startStream_dev, dev_ite, ite_self]
@[simp] theorem unloadWedge_dev (n d s) : (unloadWedge n d s).dev = s.dev := by
  simp only [unloadWedge, modHead_dev, sendWindow_dev, sendMode_dev, dev_ite, ite_self]
@[simp] theorem unloadAgain_dev (a s) : (unloadAgain a s).dev = s.dev := by simp only [unloadAgain, unloadArm_dev, modArm_dev]

-- Functions of Machine/Channel.lean.
@[simp] theorem modStream_dev (a x f s) : (modStream a x f s).dev = s.dev := rfl
@[simp] theorem suspendHead_dev (n s) : (suspendHead n s).dev = s.dev := by
  simp only [suspendHead, gateIsland_dev, sendMode_dev, modHead_dev, mqNote_dev, dev_ite, ite_self]
@[simp] theorem pressureUp_dev (s) : (pressureUp s).dev = s.dev := by
  simp only [pressureUp, post_dev, each_dev, sameDev_iff, implies_true, cutVisit_dev, dev_ite, ite_self]
@[simp] theorem enqueue_dev (c s) : (enqueue c s).dev = s.dev := by
  unfold enqueue
  split <;> simp only [pressureUp_dev]
@[simp] theorem loopRange_dev (island s) : (loopRange island s).dev = s.dev := by simp only [loopRange, post_dev, modIsl_dev]
@[simp] theorem tooErased_dev (island s) : (tooErased island s).dev = s.dev := by simp only [tooErased, post_dev, modIsl_dev]
@[simp] theorem noteTiming_dev (island r q s1 s2 s) : (noteTiming island r q s1 s2 s).dev = s.dev := rfl
@[simp] theorem queueFrame_dev (island n e wanted visit c1 score1 cs lam s) : (queueFrame island n e wanted visit c1 score1 cs lam s).dev = s.dev := by
  simp only [queueFrame, suspendHead_dev, post_dev, modIsl_dev, each_dev, sameDev_iff, implies_true, enqueue_dev, enterRung_dev, dev_ite, ite_self]
@[simp] theorem postCheck_dev (island slot t c s) : (postCheck island slot t c s).dev = s.dev := by
  unfold postCheck
  repeat' split
  all_goals simp only [nextFree_dev, noteTiming_dev, modIsl_dev, loopRange_dev, mqSend_dev, gather_dev, post_dev, dev_ite, ite_self]
@[simp] theorem repairDone_dev (a res x origin t s) : (repairDone a res x origin t s).dev = s.dev := by
  unfold repairDone
  split <;> simp only [dropSec_dev, enterDefect_dev, addWork_dev, dev_ite, ite_self]
@[simp] theorem engageHead_dev (a h o s) : (engageHead a h o s).dev = s.dev := by
  simp only [engageHead, modIsl_dev, sendMode_dev, sendLaser_dev, modHead_dev, dev_ite, ite_self]
@[simp] theorem stopHead_dev (n s) : (stopHead n s).dev = s.dev := by simp only [stopHead, voidArm_dev, stopWriter_dev, dev_ite, ite_self]

-- Functions of Machine/Bolter.lean.
@[simp] theorem pressureDown_dev (s) : (pressureDown s).dev = s.dev := by simp only [pressureDown, dev_ite, ite_self]
@[simp] theorem freeCodeword_dev (k c s) : (freeCodeword k c s).dev = s.dev := by
  simp only [freeCodeword, modIsl_dev, pressureDown_dev]
@[simp] theorem countIterations_dev (c it limit s) : (countIterations c it limit s).dev = s.dev := by simp only [countIterations, dev_ite, ite_self]
@[simp] theorem visitDecoded_dev (k c ok iters s) : (visitDecoded k c ok iters s).dev = s.dev := by
  unfold visitDecoded
  split <;> simp only [freeCodeword_dev, gather_dev, dev_ite, ite_self]

-- Functions of Machine/Rows.lean.
@[simp] theorem tryBuild_dev (row s) : (tryBuild row s).dev = s.dev := by simp only [tryBuild, startBuild_dev, dev_ite, ite_self]
@[simp] theorem refetchRow_dev (r s) : (refetchRow r s).dev = s.dev := by
  unfold refetchRow
  refine each_dev fun x s => ?_
  dsimp only
  repeat' split
  all_goals simp
@[simp] theorem settleWaits_dev (lba v s) : (settleWaits lba v s).dev = s.dev := rfl
@[simp] theorem loseWaits_dev (lba v s) : (loseWaits lba v s).dev = s.dev := rfl
@[simp] theorem releaseRow_dev (row s) : (releaseRow row s).dev = s.dev := by
  simp only [releaseRow, each_dev, sameDev_iff, implies_true, setEntry_dev, dropClean_dev, settleWaits_dev, setState_dev, dev_ite, ite_self]
@[simp] theorem listRow_dev (k q listed s) : (listRow k q listed s).dev = s.dev := by
  simp only [listRow, saveCursor_dev, mirror_dev, modRebuild_dev, dev_ite, ite_self]
@[simp] theorem stepCursor_dev (k s) : (stepCursor k s).dev = s.dev := by simp only [stepCursor, modRebuild_dev, saveCursor_dev, dev_ite, ite_self]
@[simp] theorem rebuiltRow_dev (a q heads s) : (rebuiltRow a q heads s).dev = s.dev := by
  simp only [rebuiltRow, each_dev, sameDev_iff, implies_true, listRow_dev, stepCursor_dev, dev_ite, ite_self]
@[simp] theorem recordRun_dev (x s) : (recordRun x s).dev = s.dev := by simp only [recordRun, mirror_dev]
@[simp] theorem movedRow_dev (s) : (movedRow s).dev = s.dev := by
  unfold movedRow
  split <;> simp only [post_dev, recordRun_dev]
@[simp] theorem restartRow_dev (row s) : (restartRow row s).dev = s.dev := by
  unfold restartRow
  split <;> simp only [refetchRow_dev, abandonRow_dev, tryBuild_dev, dev_ite, ite_self]
@[simp] theorem mendFailed_dev (a s) : (mendFailed a s).dev = s.dev := by
  simp only [mendFailed, each_dev, sameDev_iff, implies_true, endFollowUp_dev, putSec_dev, readWorks_dev, dropWork_dev, restartRow_dev, dev_ite, ite_self]
@[simp] theorem walkCursor_dev (k n s) : (walkCursor k n s).dev = s.dev := by
  induction n generalizing s with
  | zero => rfl
  | succ n ih => simp [walkCursor, ih]
@[simp] theorem beginShare_dev (kind a q h runs s) : (beginShare kind a q h runs s).dev = s.dev := by
  unfold beginShare
  repeat' split
  all_goals simp only [rewriteRow_dev, readWorks_dev]
@[simp] theorem beginMove_dev (k a q h s) : (beginMove k a q h s).dev = s.dev := by
  unfold beginMove
  split <;> simp only [modRebuild_dev]
@[simp] theorem stepRebuild_dev (a s) : (stepRebuild a s).dev = s.dev := by
  unfold stepRebuild
  split
  · rfl
  · refine each_dev fun k s => ?_
    dsimp only
    repeat' split
    all_goals simp

-- Functions of Machine/Losses.lean.
@[simp] theorem retakeReaders_dev (f s) : (retakeReaders f s).dev = s.dev := by
  unfold retakeReaders
  refine each_dev fun x s => ?_
  repeat' split
  all_goals simp
@[simp] theorem loseReaders_dev (f s) : (loseReaders f s).dev = s.dev := by
  simp only [loseReaders, each_dev, sameDev_iff, implies_true, pumpRead_dev, modCmd_dev]
@[simp] theorem freeEntry_dev (f s) : (freeEntry f s).dev = s.dev := by
  simp only [freeEntry, setFrame_dev, setEntry_dev, mirror_dev]
@[simp] theorem grantAgain_dev (f arr idx s) : (grantAgain f arr idx s).dev = s.dev := by
  simp only [grantAgain]
  repeat' split
  all_goals simp
@[simp] theorem loseDirty_dev (f s) : (loseDirty f s).dev = s.dev := by
  simp only [loseDirty]
  repeat' split
  all_goals simp
@[simp] theorem ueFrame_dev (f s) : (ueFrame f s).dev = s.dev := by
  unfold ueFrame
  repeat' split
  all_goals simp only [retakeReaders_dev, setFrame_dev, restartRow_dev, ptnSend_dev, freeEntry_dev, loseReaders_dev, loseDirty_dev, abandonRow_dev, dev_ite, ite_self]
@[simp] theorem loseGone_dev (row s) : (loseGone row s).dev = s.dev := by
  simp only [loseGone, each_dev, sameDev_iff, implies_true, loseDirty_dev, abandonRow_dev, dev_ite, ite_self]

-- Functions of Machine/Sluice.lean.
@[simp] theorem fromCache_dev (a s) : (fromCache a s).dev = s.dev := by
  refine each_dev fun w s => each_dev fun k s => ?_
  dsimp only
  repeat' split
  all_goals simp
@[simp] theorem planPrefetch_dev (a s) : (planPrefetch a s).dev = s.dev := by
  unfold planPrefetch
  split
  · rfl
  · refine each_dev fun w s => each_dev fun f s => ?_
    dsimp only
    split
    · rfl
    · simp
@[simp] theorem noteFantail_dev (a s) : (noteFantail a s).dev = s.dev := by simp only [noteFantail, post_dev, dev_ite, ite_self]
@[simp] theorem setZone_dev (n z s) : (setZone n z s).dev = s.dev := by simp only [setZone, sendTables_dev, dev_ite, ite_self]
@[simp] theorem openSectors_dev (o s) : (openSectors o s).dev = s.dev := by
  unfold openSectors
  split
  · split <;> simp
  · refine each_dev fun e s => ?_
    dsimp only
    repeat' split
    all_goals simp
@[simp] theorem endArmSines_dev (a s) : (endArmSines a s).dev = s.dev := by
  simp only [endArmSines, each_dev, sameDev_iff, implies_true, endSines_dev]
@[simp] theorem restLeft_dev (a keep s) : (restLeft a keep s).dev = s.dev := by
  simp only [restLeft, each_dev, sameDev_iff, implies_true, restHead_dev, dev_ite, ite_self]
@[simp] theorem grant_dev (w s) : (grant w s).dev = s.dev := by
  simp only [grant]
  repeat' split
  all_goals simp
@[simp] theorem noteHeat_dev (a s) : (noteHeat a s).dev = s.dev := rfl

-- Functions of Machine/Millpond.lean.
@[simp] theorem refillSlot_dev (k s) : (refillSlot k s).dev = s.dev := by
  simp only [refillSlot]
  repeat' split
  all_goals simp
@[simp] theorem ueResponse_dev (c s) : (ueResponse c s).dev = s.dev := by
  unfold ueResponse
  split <;> simp only [refillSlot_dev, ptnSend_dev, ueFrame_dev, each_dev, sameDev_iff, implies_true, dev_ite, ite_self]
@[simp] theorem noteUe_dev (p burst s) : (noteUe p burst s).dev = s.dev := rfl
@[simp] theorem ueCounted_dev (c s) : (ueCounted c s).dev = s.dev := by
  unfold ueCounted
  split <;> simp only [noteUe_dev]
@[simp] theorem post'_dev (injected f s) : (scrubBeat.post' injected f s).dev = s.dev := by rw [scrubBeat.post', postInj_dev]
@[simp] theorem loseSpare_dev (trained s) : (loseSpare trained s).dev = s.dev := by simp only [loseSpare, modChan_dev, post_dev, dev_ite, ite_self]

-- Functions of Machine/Transfer.lean.
@[simp] theorem endPass_dev (d s) : (endPass d s).dev = s.dev := rfl
@[simp] theorem cutPass_dev (d n s) : (cutPass d n s).dev = s.dev := by
  simp only [cutPass, voidArm_dev, each_dev, sameDev_iff, implies_true, stopWriter_dev]
@[simp] theorem dropDesc_dev (ch s) : (dropDesc ch s).dev = s.dev := rfl
@[simp] theorem noteRefused_dev (addr s) : (noteRefused addr s).dev = s.dev := by
  unfold noteRefused
  split <;> simp only [post_dev, dev_ite, ite_self]
@[simp] theorem sendSector_dev (n d s) : (sendSector n d s).dev = s.dev := by simp only [sendSector, putParityAt_dev, dev_ite, ite_self]
@[simp] theorem moveElem_dev (n d s) : (moveElem n d s).2.dev = s.dev := by
  simp only [moveElem]
  split
  · split
    · rfl
    · simp
  · split
    · split <;> rfl
    · split
      · rfl
      · next h => simp [snd_dev_of_eq (moveUnit_dev ..) h]
@[simp] theorem finishDesc_dev (d s) : (finishDesc d s).dev = s.dev := by simp only [finishDesc, endPass_dev, dev_ite, ite_self]
@[simp] theorem skipHalt_dev (ch s) : (skipHalt ch s).dev = s.dev := rfl

-- Functions of Machine/Admit.lean.
@[simp] theorem beginRead_dev (arr s) : (beginRead arr s).dev = s.dev := by
  simp only [beginRead]
  repeat' split
  all_goals simp
@[simp] theorem beginWaits_dev (arr all s) : (beginWaits arr all s).dev = s.dev := by
  unfold beginWaits
  split <;> simp only [recheck_dev, modCmd_dev]
@[simp] theorem beginMedia_dev (arr s) : (beginMedia arr s).dev = s.dev := by
  unfold beginMedia
  split <;> simp only [beginRead_dev, modCmd_dev, beginWaits_dev, dev_ite, ite_self]
@[simp] theorem claimFrame_dev (w lba f s) : (claimFrame w lba f s).dev = s.dev := by
  simp only [claimFrame, each_dev, sameDev_iff, implies_true, modCmd_dev]
@[simp] theorem grantBlock_dev (arr i s) : (grantBlock arr i s).dev = s.dev := by
  unfold grantBlock
  split
  · rfl
  · split
    · rfl
    · next h => simp [takeFrame_dev h]

-- Functions of Machine/Faults.lean.
@[simp] theorem mqServe_dev (q ws s) : (mqServe q ws s).dev = s.dev := by
  induction ws generalizing s with
  | nil => rfl
  | cons w ws ih => simp [mqServe, ih]
@[simp] theorem mqAdvance_dev (q s) : (mqAdvance q s).dev = s.dev := by simp only [mqAdvance, mqServe_dev]
@[simp] theorem dropPacket_dev (q k s) : (dropPacket q k s).dev = s.dev := rfl
@[simp] theorem dropTag_dev (mem offset s) : (dropTag mem offset s).dev = s.dev := rfl
@[simp] theorem loseLine_dev (e s) : (loseLine e s).dev = s.dev := by simp only [loseLine, post_dev, modFce_dev]
@[simp] theorem loseHeldFrame_dev (l v s) : (loseHeldFrame l v s).dev = s.dev := by
  unfold loseHeldFrame
  split <;> simp only [modLink_dev]

-- Functions of Machine/Flash.lean.
@[simp] theorem notePool_dev (s) : (notePool s).dev = s.dev := by simp only [notePool, post_dev, dev_ite, ite_self]
@[simp] theorem flashAnswer_dev (who status s) : (flashAnswer who status s).dev = s.dev := by
  simp only [flashAnswer, mqNote_dev, send_dev]
@[simp] theorem invalidate_dev (base lines s) : (invalidate base lines s).dev = s.dev := by
  simp only [invalidate, each_dev, sameDev_iff, implies_true, modFce_dev, modFcq_dev, dev_ite, ite_self]
@[simp] theorem fetchAnswer_dev (q status data s) : (fetchAnswer q status data s).dev = s.dev := rfl
@[simp] theorem readDone_dev (b blk n bits s) : (readDone b blk n bits s).dev = s.dev := by
  simp only [readDone, modBank_dev, modBlk_dev, dev_ite, ite_self]

-- Functions of Machine/FetchCache.lean.
@[simp] theorem seeLine_dev (q line s) : (seeLine q line s).dev = s.dev := by
  simp only [seeLine]
  repeat' split
  all_goals simp
@[simp] theorem joinFill_dev (q line lock access s) : (joinFill q line lock access s).dev = s.dev := by
  unfold joinFill
  split <;> simp only [dev_ite, ite_self]
@[simp] theorem pickEntry_dev (q prefetch s) : (pickEntry q prefetch s).2.dev = s.dev := by
  simp only [pickEntry]
  repeat' split
  all_goals simp
@[simp] theorem beginFill_dev (q line prefetch lock waiting s) : (beginFill q line prefetch lock waiting s).dev = s.dev := by
  simp only [beginFill]
  repeat' split
  all_goals simp

-- Functions of Machine/Fantail.lean.
@[simp] theorem retrainLane_dev (l s) : (retrainLane l s).dev = s.dev := by simp only [retrainLane, modAlk_dev, sendLaneMap_dev, dev_ite, ite_self]
@[simp] theorem storePoint_dev (kind l day v samples s) : (storePoint kind l day v samples s).dev = s.dev := by
  simp only [storePoint, dev_ite, ite_self]

-- Functions of Machine/Partner.lean.
@[simp] theorem enterSolo_dev (s) : (enterSolo s).dev = s.dev := by simp only [enterSolo, post_dev, dev_ite, ite_self]
@[simp] theorem loseStandby_dev (s) : (loseStandby s).dev = s.dev := by
  simp only [loseStandby, recheck_dev, each_dev, sameDev_iff, implies_true, ueFrame_dev, enterSolo_dev, dev_ite, ite_self]
@[simp] theorem countGaps_dev (toggles s) : (countGaps toggles s).dev = s.dev := rfl
@[simp] theorem sendBlock_dev (f e s) : (sendBlock f e s).dev = s.dev := by
  simp only [sendBlock, ptnSend_dev, each_dev, sameDev_iff, implies_true]
@[simp] theorem arrivalAbove_dev (v s) : (arrivalAbove v s).dev = s.dev := by simp only [arrivalAbove, dev_ite, ite_self]
@[simp] theorem clearParts_dev (f s) : (clearParts f s).dev = s.dev := rfl
@[simp] theorem confirmIf_dev (f s) : (confirmIf f s).dev = s.dev := by simp only [confirmIf, ptnSend_dev, clearParts_dev, dev_ite, ite_self]
@[simp] theorem freeMirror_dev (f s) : (freeMirror f s).dev = s.dev := rfl
@[simp] theorem mirrorEntry_dev (e s) : (mirrorEntry e s).dev = s.dev := by
  simp only [mirrorEntry, freeMirror_dev, confirmIf_dev, setEntry_dev, arrivalAbove_dev, dev_ite, ite_self]
@[simp] theorem replayBlock_dev (area e data s) : (replayBlock area e data s).dev = s.dev := by
  simp only [replayBlock]
  repeat' split
  all_goals simp
@[simp] theorem missBlock_dev (e s) : (missBlock e s).dev = s.dev := rfl
@[simp] theorem dumpEntry_dev (e s) : (dumpEntry e s).dev = s.dev := by
  simp only [dumpEntry]
  repeat' split
  all_goals simp
@[simp] theorem confirmFrame_dev (f s) : (confirmFrame f s).dev = s.dev := by simp only [confirmFrame, setEntry_dev, dev_ite, ite_self]
@[simp] theorem ackMirror_dev (x r s) : (ackMirror x r s).dev = s.dev := by simp only [ackMirror, dev_ite, ite_self]
@[simp] theorem eachRebuild_dev (a h f s) : (eachRebuild a h f s).dev = s.dev := rfl
@[simp] theorem putLayout_dev (r s) : (putLayout r s).dev = s.dev := by
  unfold putLayout
  split <;> simp only [modHead_dev, eachRebuild_dev, dev_ite, ite_self]
@[simp] theorem keepPlan_dev (r pieces s) : (keepPlan r pieces s).dev = s.dev := by simp only [keepPlan, dev_ite, ite_self]

-- Functions of Machine/Diag.lean.
@[simp] theorem setUnlock_dev (path u s) : (setUnlock path u s).dev = s.dev := by
  unfold setUnlock
  split <;> simp only
@[simp] theorem putTraceCfg_dev (c v s) : (putTraceCfg c v s).dev = s.dev := by
  simp only [putTraceCfg, each_dev, sameDev_iff, implies_true, modTrace_dev, dev_ite, ite_self]
@[simp] theorem armTrace_dev (s) : (armTrace s).dev = s.dev := by
  simp only [armTrace, each_dev, sameDev_iff, implies_true, modTrace_dev]
@[simp] theorem putTraceTrig_dev (v s) : (putTraceTrig v s).dev = s.dev := by simp only [putTraceTrig, armTrace_dev, traceFire_dev, dev_ite, ite_self]
@[simp] theorem storeTest_dev (mem at_ d s) : (storeTest mem at_ d s).dev = s.dev := by simp only [storeTest, modSlot_dev, dev_ite, ite_self]
@[simp] theorem eccGo_dev (source s) : (eccGo source s).dev = s.dev := by
  unfold eccGo
  split <;> simp only [dropTag_dev, storeTest_dev, post_dev, dev_ite, ite_self]
@[simp] theorem putLinkCfg_dev (p v s) : (putLinkCfg p v s).dev = s.dev := rfl
@[simp] theorem countDenied_dev (s) : (countDenied s).dev = s.dev := rfl
@[simp] theorem countWrite_dev (s) : (countWrite s).dev = s.dev := rfl
@[simp] theorem newChallenge_dev (path s) : (newChallenge path s).dev = s.dev := by
  simp only [newChallenge, nextFree_dev, setUnlock_dev]
@[simp] theorem takeResponse_dev (path response s) : (takeResponse path response s).2.dev = s.dev := by
  simp only [takeResponse]
  repeat' split
  all_goals simp
@[simp] theorem endUnlock_dev (path s) : (endUnlock path s).dev = s.dev := by simp only [endUnlock, setUnlock_dev]
@[simp] theorem setIr_dev (code drives s) : (setIr code drives s).dev = s.dev := rfl
@[simp] theorem accResult_dev (data status ue s) : (accResult data status ue s).dev = s.dev := rfl
@[simp] theorem jtagUnlock_dev {f s} (h : ∀ s, SameDev s (f s)) : (jtagUnlock f s).dev = s.dev := by
  have hf (s) : (f s).dev = s.dev := h s
  simp [jtagUnlock, hf]
@[simp] theorem fuseResult_dev (status s) : (fuseResult status s).dev = s.dev := rfl
@[simp] theorem setCells_dev (cells s) : (setCells cells s).dev = s.dev := rfl

-- Functions of Machine/Commands.lean.
@[simp] theorem replyWith_dev (arr blocks info s) : (replyWith arr blocks info s).dev = s.dev := rfl
@[simp] theorem readDeferred_dev (arr p s) : (readDeferred arr p s).dev = s.dev := by
  unfold readDeferred
  split <;> simp only [replyWith_dev, modHopPort_dev, post_dev, dev_ite, ite_self]
@[simp] theorem clearLog_dev (index s) : (clearLog index s).dev = s.dev := by simp only [clearLog, post_dev]
@[simp] theorem doUnlock_dev (arr p c s) : (doUnlock arr p c s).dev = s.dev := by
  simp only [doUnlock]
  repeat' split
  · simp
  · simp
  · next h => simp [snd_dev_of_eq (takeResponse_dev ..) h]
  · next h => simp [snd_dev_of_eq (takeResponse_dev ..) h]
  · simp
@[simp] theorem addCmd_dev (arr p c x admitted s) : (addCmd arr p c x admitted s).dev = s.dev := rfl
@[simp] theorem noteDenied_dev (c status s) : (noteDenied c status s).dev = s.dev := by simp only [noteDenied, countDenied_dev, dev_ite, ite_self]
@[simp] theorem refuseTag_dev (arr p c s) : (refuseTag arr p c s).dev = s.dev := by
  simp only [refuseTag, issueRec_dev, modHopPort_dev]

-- Functions of Machine/Sessions.lean.
@[simp] theorem lockPort_dev (p s) : (lockPort p s).dev = s.dev := by simp only [lockPort, dev_ite, ite_self]

-- Functions of Machine/Frames.lean.
@[simp] theorem landBlock_dev (arr i f s) : (landBlock arr i f s).dev = s.dev := by
  unfold landBlock
  split <;> simp only [modCmd_dev, setEntry_dev, each_dev, sameDev_iff, implies_true, mirror_dev, setState_dev, releaseFrames_dev, recheck_dev, pumpRead_dev, dev_ite, ite_self]
@[simp] theorem strayData_dev (p s) : (strayData p s).dev = s.dev := rfl
@[simp] theorem toStream_dev (p b s) : (toStream p b s).dev = s.dev := by simp only [toStream, dev_ite, ite_self]
@[simp] theorem takeWritePart_dev (c w s) : (takeWritePart c w s).dev = s.dev := by
  simp only [takeWritePart]
  repeat' split
  all_goals simp
@[simp] theorem protoError_dev (l s) : (protoError l s).dev = s.dev := by simp only [protoError, modLink_dev, post_dev, dev_ite, ite_self]

end Sys2Proof.Machine
end

section
/-! Stopped stays Stopped (O56, R8): the functions that may write the device state, from a state that is Stopped, and the commands. What enters another state
asks first which state the part is in; reports end in `enterHold`, which leaves Stopped alone (R518), and a stop sequence in Stopped changes nothing (R523). -/

namespace Sys2Proof.Machine

/-- A loop over steps that keep Stopped. -/
theorem each_stopped {α : Type} {xs : List α} {f : α → State → State} {s : State} (h : s.dev = .stopped)
    (hf : ∀ x s, s.dev = .stopped → (f x s).dev = .stopped) : (each xs f s).dev = .stopped := by
  unfold each
  induction xs generalizing s with
  | nil => exact h
  | cons x xs ih => exact ih (hf x s h)
theorem snd_stopped_of_eq {α : Type} {p : α × State} {x : α} {t : State} (h : p.2.dev = .stopped) (e : p = (x, t)) : t.dev = .stopped := by
  rw [← h, e]

/-- A command whose next state, if it answers one, is Stopped. -/
def EndsStopped (o : Host.Outcome State Fault Refusal) : Prop := ∀ t, o = .next t → t.dev = .stopped
@[simp] theorem endsStopped_next (t : State) : EndsStopped (.next t) ↔ t.dev = .stopped :=
  ⟨fun h => h t rfl, fun h u e => by cases e; exact h⟩
theorem live_stopped {s : State} {f : State → Host.Outcome State Fault Refusal} (h : s.dev = .stopped) (hf : EndsStopped (f s)) : EndsStopped (live s f) := by
  unfold live
  split
  · exact hf
  · exact (endsStopped_next s).2 h
/-- A command that a frame brings. -/
theorem after_stopped {f : State → Host.Outcome State Fault Refusal} {s : State} (h : s.dev = .stopped) (hf : EndsStopped (f s)) : (after f s).dev = .stopped := by
  unfold after
  split
  · next t e => exact hf t e
  · exact h

@[simp] theorem enterHold_of_stopped {event injected} {s : State} (h : s.dev = .stopped) : enterHold event injected s = s := by
  simp [enterHold, holdsFrom, h]
@[simp] theorem enterStopped_dev (cause s) : (enterStopped cause s).dev = .stopped := rfl

-- Functions of Machine/Stops.lean.
@[simp] theorem reportAll_stopped {rs s} (h : s.dev = .stopped) : (reportAll rs s).dev = .stopped := by
  refine each_stopped ?_ fun r s h => ?_
  · simpa using h
  · rw [enterHold_of_stopped h, h]
@[simp] theorem report_stopped {r s} (h : s.dev = .stopped) : (report r s).dev = .stopped := by simp [report, h]
@[simp] theorem condition_stopped {code master cause hold fs s} (h : s.dev = .stopped) : (condition code master cause hold fs s).dev = .stopped := by
  simp [condition, h]
@[simp] theorem spnReport_stopped {code fs hold s} (h : s.dev = .stopped) : (spnReport code fs hold s).dev = .stopped := by simp [spnReport, h]
@[simp] theorem generatorEnd_stopped {s} (h : s.dev = .stopped) : (generatorEnd s).dev = .stopped := by simp [generatorEnd, h]
@[simp] theorem finalStop_dev (cause s) : (finalStop cause s).dev = .stopped := rfl
@[simp] theorem advanceStop_stopped {s} (h : s.dev = .stopped) : (advanceStop s).dev = .stopped := by simp [advanceStop, h]
@[simp] theorem stopSequence_stopped {solo cause s} (h : s.dev = .stopped) : (stopSequence solo cause s).dev = .stopped := by simp [stopSequence, h]
@[simp] theorem failStopInj_stopped {injected cause s} (h : s.dev = .stopped) : (failStopInj injected cause s).dev = .stopped := by
  simp [failStopInj, h]
@[simp] theorem failStop_stopped {cause s} (h : s.dev = .stopped) : (failStop cause s).dev = .stopped := by simp [failStop, h]
@[simp] theorem powerFailed_stopped {source s} (h : s.dev = .stopped) : (powerFailed source s).dev = .stopped := by
  simp [powerFailed, holdUpFrom, h]
@[simp] theorem declareFailed_stopped {n s} (h : s.dev = .stopped) : (declareFailed n s).dev = .stopped := by simp [declareFailed, h]

-- Functions of Machine/OpsRows.lean.
@[simp] theorem remapOutside_stopped {x origin s} (h : s.dev = .stopped) : (remapOutside x origin s).dev = .stopped := by
  simp only [remapOutside]
  repeat' split
  all_goals simp [h]
@[simp] theorem markDefective_stopped {x s} (h : s.dev = .stopped) : (markDefective x s).dev = .stopped := by simp [markDefective, h]
@[simp] theorem tryReconstruct_stopped {again x s} (h : s.dev = .stopped) : (tryReconstruct again x s).dev = .stopped := by
  unfold tryReconstruct
  extract_lets infos lost t
  have ht : t.dev = .stopped := by simp [t, h]
  clear_value t
  refine dev_ite_eq h (dev_ite_eq ?_ h)
  split
  · next i _ =>
    extract_lets u y
    have hu : u.dev = .stopped := by simp [u, ht]
    clear_value u
    exact dev_ite_eq (by simp [hu]) (dev_ite_eq (markDefective_stopped hu) (by simp [hu]))
  · simp [ht]
@[simp] theorem tryEquation_stopped {again a q t sl s} (h : s.dev = .stopped) : (tryEquation again a q t sl s).dev = .stopped := by
  refine each_stopped h fun x s h => ?_
  split
  · exact tryReconstruct_stopped h
  · exact h
@[simp] theorem climb_stopped {n x s} (h : s.dev = .stopped) : (climb n x s).dev = .stopped := by
  simp only [climb]
  repeat' split
  all_goals simp [h]
@[simp] theorem rungFailed_stopped {x island frame missed s} (h : s.dev = .stopped) : (rungFailed x island frame missed s).dev = .stopped := by
  simp only [rungFailed]
  repeat' split
  all_goals simp [h]
@[simp] theorem rungPassed_stopped {rung x i s} (h : s.dev = .stopped) : (rungPassed rung x i s).dev = .stopped := by simp [rungPassed, h]
@[simp] theorem remapRow_stopped {r k s} (h : s.dev = .stopped) : (remapRow r k s).dev = .stopped := by
  simp only [remapRow]
  repeat' split
  all_goals simp [h]

-- Functions of Machine/Lanlet.lean.
@[simp] theorem execLnkTrainAttempt_stopped {l rxFail txFail peerPresent s} (h : s.dev = .stopped) : EndsStopped (execLnkTrainAttempt l rxFail txFail peerPresent s) :=
  live_stopped h (by simp [h])
@[simp] theorem execLnkTrainTimeout_stopped {l s} (h : s.dev = .stopped) : EndsStopped (execLnkTrainTimeout l s) := live_stopped h (by simp [h])
@[simp] theorem execLnkTrainRetry_stopped {l s} (h : s.dev = .stopped) : EndsStopped (execLnkTrainRetry l s) := live_stopped h (by simp [h])
@[simp] theorem execGapTimerExpiry_stopped {l s} (h : s.dev = .stopped) : EndsStopped (execGapTimerExpiry l s) := live_stopped h (by simp [h])
@[simp] theorem execReplayTimerExpiry_stopped {l seq s} (h : s.dev = .stopped) : EndsStopped (execReplayTimerExpiry l seq s) := by
  refine live_stopped h ((endsStopped_next _).2 ?_)
  repeat' split
  all_goals simp [h]
@[simp] theorem execAckDelayExpiry_stopped {l s} (h : s.dev = .stopped) : EndsStopped (execAckDelayExpiry l s) := live_stopped h (by simp [h])
@[simp] theorem execIdleKeepalive_stopped {l s} (h : s.dev = .stopped) : EndsStopped (execIdleKeepalive l s) := live_stopped h (by simp [h])
@[simp] theorem execLinkRxSilence_stopped {l s} (h : s.dev = .stopped) : EndsStopped (execLinkRxSilence l s) := live_stopped h (by simp [h])
@[simp] theorem execLnkLaneErrorWindow_stopped {l lane corrected uncorrectable s} (h : s.dev = .stopped) : EndsStopped (execLnkLaneErrorWindow l lane corrected uncorrectable s) := by
  refine live_stopped h ?_
  simp only [endsStopped_next]
  repeat' split
  all_goals simp [h]
@[simp] theorem execLnkLaneLockLoss_stopped {l lane s} (h : s.dev = .stopped) : EndsStopped (execLnkLaneLockLoss l lane s) := live_stopped h (by simp [h])
@[simp] theorem execLaneMapRepeat_stopped {l s} (h : s.dev = .stopped) : EndsStopped (execLaneMapRepeat l s) := by
  refine live_stopped h ((endsStopped_next _).2 ?_)
  repeat' split
  all_goals simp [h]
@[simp] theorem execLaneMap_stopped {l lane reason s} (h : s.dev = .stopped) : EndsStopped (execLaneMap l lane reason s) := live_stopped h (by simp [h])
@[simp] theorem execLaneMapDone_stopped {l lane s} (h : s.dev = .stopped) : EndsStopped (execLaneMapDone l lane s) := live_stopped h (by simp [h])
@[simp] theorem execNak_stopped {l seqs s} (h : s.dev = .stopped) : EndsStopped (execNak l seqs s) := live_stopped h (by simp [h])
@[simp] theorem execKeepalive_stopped {_l s} (h : s.dev = .stopped) : EndsStopped (execKeepalive _l s) := live_stopped h (by simp [h])
@[simp] theorem execCplFrameSend_stopped {p s} (h : s.dev = .stopped) : EndsStopped (execCplFrameSend p s) := live_stopped h (by simp [h])
@[simp] theorem execRdataFrameSend_stopped {p s} (h : s.dev = .stopped) : EndsStopped (execRdataFrameSend p s) := by
  refine live_stopped h ((endsStopped_next _).2 ?_)
  repeat' split
  all_goals simp [h]

-- Functions of Machine/Margins.lean.
@[simp] theorem judgeMargin_stopped {k l m s} (h : s.dev = .stopped) : (judgeMargin k l m s).dev = .stopped := by
  simp only [judgeMargin]
  repeat' split
  all_goals simp [h]

-- Functions of Machine/Visits.lean.
@[simp] theorem channelResult_stopped {o n z s} (h : s.dev = .stopped) : (channelResult o n z s).dev = .stopped := by
  unfold channelResult
  extract_lets l q m t out in_ committedNow u
  have ht : t.dev = .stopped := dev_ite_eq h (by simp [h])
  have hu : u.dev = .stopped := dev_ite_eq ht (dev_ite_eq (by simpa using ht) (dev_ite_eq (by simpa using ht) ht))
  refine dev_ite_eq ht (dev_ite_eq hu (dev_ite_eq (by simpa using hu) ?_))
  split
  · exact dev_ite_eq (by simpa using hu) hu
  · exact hu
@[simp] theorem probeResult_stopped {o n z s} (h : s.dev = .stopped) : (probeResult o n z s).dev = .stopped := by simp [probeResult, h]
@[simp] theorem visitEnded_stopped {a o s} (h : s.dev = .stopped) : (visitEnded a o s).dev = .stopped := by
  unfold visitEnded
  split
  · exact h
  · refine each_stopped h fun k s h => ?_
    dsimp only
    repeat' split
    all_goals simp [h]

-- Functions of Machine/ArmLink.lean.
@[simp] theorem alkCondition_stopped {a code cause hold s} (h : s.dev = .stopped) : (alkCondition a code cause hold s).dev = .stopped := by
  simp [alkCondition, h]
@[simp] theorem alkLoss_stopped {a s} (h : s.dev = .stopped) : (alkLoss a s).dev = .stopped := by simp [alkLoss, h]
@[simp] theorem alkTrainFailed_stopped {a s} (h : s.dev = .stopped) : (alkTrainFailed a s).dev = .stopped := by simp [alkTrainFailed, h]
@[simp] theorem alkAttemptFailed_stopped {a s} (h : s.dev = .stopped) : (alkAttemptFailed a s).dev = .stopped := by simp [alkAttemptFailed, h]
@[simp] theorem alkSwap_stopped {a up lane atOnce s} (h : s.dev = .stopped) : (alkSwap a up lane atOnce s).dev = .stopped := by simp [alkSwap, h]
@[simp] theorem execAlkTrainAttempt_stopped {arm upFail downFail reachesExchange s} (h : s.dev = .stopped) : EndsStopped (execAlkTrainAttempt arm upFail downFail reachesExchange s) :=
  live_stopped h (by simp [h])
@[simp] theorem execAlkTrainTimeout_stopped {arm s} (h : s.dev = .stopped) : EndsStopped (execAlkTrainTimeout arm s) := live_stopped h (by simp [h])
@[simp] theorem execAlkTrainRetry_stopped {arm s} (h : s.dev = .stopped) : EndsStopped (execAlkTrainRetry arm s) := live_stopped h (by simp [h])
@[simp] theorem execAlkLaneErrorWindow_stopped {arm up lane corrected uncorrectable s} (h : s.dev = .stopped) : EndsStopped (execAlkLaneErrorWindow arm up lane corrected uncorrectable s) :=
  live_stopped h (by simp [h])
@[simp] theorem execAlkLaneLockLoss_stopped {arm up lane s} (h : s.dev = .stopped) : EndsStopped (execAlkLaneLockLoss arm up lane s) :=
  live_stopped h (by simp [h])
@[simp] theorem execAlkUplinkUncorr_stopped {arm lane streams s} (h : s.dev = .stopped) : EndsStopped (execAlkUplinkUncorr arm lane streams s) :=
  live_stopped h (by simp [h])
@[simp] theorem execAlkUplinkSilence_stopped {arm s} (h : s.dev = .stopped) : EndsStopped (execAlkUplinkSilence arm s) := live_stopped h (by simp [h])
@[simp] theorem execPortStatusTimeout_stopped {arm s} (h : s.dev = .stopped) : EndsStopped (execPortStatusTimeout arm s) := live_stopped h (by simp [h])
@[simp] theorem execAckTimeout_stopped {arm seq s} (h : s.dev = .stopped) : EndsStopped (execAckTimeout arm seq s) := by
  refine live_stopped h ((endsStopped_next _).2 ?_)
  repeat' split
  all_goals simp [h]
@[simp] theorem execLaserMon_stopped {arm word s} (h : s.dev = .stopped) : EndsStopped (execLaserMon arm word s) := live_stopped h (by simp [h])
@[simp] theorem execHeaterMon_stopped {arm word s} (h : s.dev = .stopped) : EndsStopped (execHeaterMon arm word s) := live_stopped h (by simp [h])
@[simp] theorem execReaderMon_stopped {arm word s} (h : s.dev = .stopped) : EndsStopped (execReaderMon arm word s) := live_stopped h (by simp [h])
@[simp] theorem execSupplyTelemetry_stopped {arm word s} (h : s.dev = .stopped) : EndsStopped (execSupplyTelemetry arm word s) := live_stopped h (by simp [h])
@[simp] theorem execWfifoTelemetry_stopped {arm word s} (h : s.dev = .stopped) : EndsStopped (execWfifoTelemetry arm word s) := live_stopped h (by simp [h])
@[simp] theorem writeGate_stopped {n s} (h : s.dev = .stopped) : (writeGate n s).dev = .stopped := by simp [writeGate, h]
@[simp] theorem contactAct_stopped {n contact s} (h : s.dev = .stopped) : (contactAct n contact s).dev = .stopped := by
  unfold contactAct
  extract_lets h0 rd wr s1 s2 s3 s4 s5 s6
  have h3 : s3.dev = .stopped := by simp [s3, s2, s1, h]
  clear_value s3
  have h4 : s4.dev = .stopped := dev_ite_eq (writeGate_stopped h3) h3
  clear_value s4
  have h5 : s5.dev = .stopped := condition_stopped h4
  clear_value s5
  have h6 : s6.dev = .stopped := dev_ite_eq (by simp [h5]) h5
  exact dev_ite_eq (dev_ite_eq (declareFailed_stopped h6) h6) h5
@[simp] theorem execFaultTelemetry_stopped {arm word s} (h : s.dev = .stopped) : EndsStopped (execFaultTelemetry arm word s) := by
  refine live_stopped h ?_
  extract_lets hd n m old flags new s1 s2 s3 s4 s5 s6 again s7 s8
  have ha (f : AlkMsg → Bool) {t : State} (ht : t.dev = .stopped) : (again f t).dev = .stopped :=
    each_stopped ht fun x s h => by rw [alkPut_dev, h]
  have h1 : s1.dev = .stopped := by simp [s1, h]
  clear_value again new s1
  have h2 : s2.dev = .stopped := dev_ite_eq (declareFailed_stopped (alkCondition_stopped (writeGate_stopped h1))) h1
  have h3 : s3.dev = .stopped := dev_ite_eq (contactAct_stopped (alkCondition_stopped h2)) h2
  have h4 : s4.dev = .stopped := dev_ite_eq (by rw [voidArm_dev]; exact alkCondition_stopped h3) h3
  have h5 : s5.dev = .stopped := dev_ite_eq (alkCondition_stopped h4) h4
  have h6 : s6.dev = .stopped := dev_ite_eq (by rw [voidArm_dev, h5]) h5
  have h7 : s7.dev = .stopped := dev_ite_eq (ha _ h6) h6
  have h8 : s8.dev = .stopped := dev_ite_eq (ha _ (by rw [voidArm_dev]; exact alkCondition_stopped h7)) h7
  exact (endsStopped_next _).2 (dev_ite_eq (alkCondition_stopped h8) h8)
@[simp] theorem execPortStatus_stopped {arm word s} (h : s.dev = .stopped) : EndsStopped (execPortStatus arm word s) := live_stopped h (by simp [h])
@[simp] theorem execTelemetryUndefined_stopped {arm word s} (h : s.dev = .stopped) : EndsStopped (execTelemetryUndefined arm word s) :=
  live_stopped h (by simp [h])

-- Functions of Machine/Turns.lean.
@[simp] theorem trySpinUp_stopped {s} (h : s.dev = .stopped) : (trySpinUp s).dev = .stopped := by simp [trySpinUp, h]
@[simp] theorem followBudget_stopped {s} (h : s.dev = .stopped) : (followBudget s).dev = .stopped := by simp [followBudget, h]
@[simp] theorem advanceHandover_stopped {s} (h : s.dev = .stopped) : (advanceHandover s).dev = .stopped := by simp [advanceHandover, h]
@[simp] theorem advancePark_stopped {s} (h : s.dev = .stopped) : (advancePark s).dev = .stopped := by simp [advancePark, h]
@[simp] theorem spindleLost_stopped {cause s} (h : s.dev = .stopped) : (spindleLost cause s).dev = .stopped := by simp [spindleLost, h]
@[simp] theorem spindleFault_stopped {code hold fs inService s} (h : s.dev = .stopped) : (spindleFault code hold fs inService s).dev = .stopped := by
  simp [spindleFault, h]

-- Functions of Machine/Governor.lean.
@[simp] theorem governorFail_stopped {n cause s} (h : s.dev = .stopped) : (governorFail n cause s).dev = .stopped := by simp [governorFail, h]
@[simp] theorem romFail_stopped {n s} (h : s.dev = .stopped) : (romFail n s).dev = .stopped := by simp [romFail, h]
@[simp] theorem governorCorrected_stopped {s} (h : s.dev = .stopped) : (governorCorrected s).dev = .stopped := by simp [governorCorrected, h]
@[simp] theorem runCtx_stopped {n input o s} (h : s.dev = .stopped) : (runCtx n input o s).dev = .stopped := by simp [runCtx, h]
@[simp] theorem runClean_stopped {n input s} (h : s.dev = .stopped) : (runClean n input s).dev = .stopped := by simp [runClean, h]
@[simp] theorem runTest_stopped {n s} (h : s.dev = .stopped) : (runTest n s).dev = .stopped := by
  rw [runTest, disableCtx_dev]
  exact each_stopped (by simp [h]) fun x s h => runClean_stopped h
@[simp] theorem runTests_stopped {s} (h : s.dev = .stopped) : (runTests s).dev = .stopped := each_stopped h fun _ _ h => runTest_stopped h
@[simp] theorem execLawReplace_stopped {ctx base entries phaseMargin s} (h : s.dev = .stopped) : EndsStopped (execLawReplace ctx base entries phaseMargin s) :=
  live_stopped h (by simp [h])
@[simp] theorem execSineInjectStart_stopped {gen ctx amplitude frequency periods s} (h : s.dev = .stopped) : EndsStopped (execSineInjectStart gen ctx amplitude frequency periods s) :=
  live_stopped h (by simp [h])
@[simp] theorem execTraceTrigger_stopped {s} (h : s.dev = .stopped) : EndsStopped (execTraceTrigger s) := live_stopped h (by simp [h])
@[simp] theorem execTraceCaptureDone_stopped {ch s} (h : s.dev = .stopped) : EndsStopped (execTraceCaptureDone ch s) := live_stopped h (by simp [h])

-- Functions of Machine/Spindle.lean.
@[simp] theorem focStep_stopped {m ia ib ic vbus s} (h : s.dev = .stopped) : (focStep m ia ib ic vbus s).dev = .stopped := by
  simp only [focStep, checkFloor_dev, sendDuty_dev, observerStep_dev, dev_ite, modCtx_dev, ite_self]
  refine runCtx_stopped (runCtx_stopped ?_)
  simp only [setSetpoint_dev]
  exact dev_ite_eq (runCtx_stopped h) h
@[simp] theorem overvoltage_stopped {s} (h : s.dev = .stopped) : (overvoltage s).dev = .stopped := by simp [overvoltage, h]
@[simp] theorem overcurrent_stopped {s} (h : s.dev = .stopped) : (overcurrent s).dev = .stopped := by simp [overcurrent, h]
@[simp] theorem holdUpBus_stopped {vbus s} (h : s.dev = .stopped) : (holdUpBus vbus s).dev = .stopped := by simp [holdUpBus, h]
@[simp] theorem runPeriod_stopped {m vbus s} (h : s.dev = .stopped) : (runPeriod m vbus s).dev = .stopped := by
  unfold runPeriod
  extract_lets t spc u
  have ht : t.dev = .stopped := by simp [t, h]
  have hu : u.dev = .stopped := ht
  refine dev_ite_eq (by simp [ht]) (dev_ite_eq (by simp [ht]) (dev_ite_eq (dev_ite_eq (by simp [hu]) hu) (dev_ite_eq ht ?_)))
  split
  · exact ht
  · exact dev_ite_eq (overcurrent_stopped ht) (dev_ite_eq (by simp [ht]) (focStep_stopped ht))
@[simp] theorem goodPeriod_stopped {ok m vbus s} (h : s.dev = .stopped) : (goodPeriod ok m vbus s).dev = .stopped := by simp [goodPeriod, h]
@[simp] theorem execPwmPeriod_stopped {m s} (h : s.dev = .stopped) : EndsStopped (execPwmPeriod m s) := by
  refine live_stopped h ((endsStopped_next _).2 ?_)
  repeat' split
  all_goals simp [h]
@[simp] theorem startSlowWait_stopped {s} (h : s.dev = .stopped) : (startSlowWait s).dev = .stopped := by simp [startSlowWait, h]
@[simp] theorem execOffsetMeasureDone_stopped {s} (h : s.dev = .stopped) : EndsStopped (execOffsetMeasureDone s) := live_stopped h (by simp [h])
@[simp] theorem keCheck_stopped {rpm amplitude s} (h : s.dev = .stopped) : (keCheck rpm amplitude s).2.dev = .stopped := by
  simp only [keCheck]
  repeat' split
  all_goals simp [h]
@[simp] theorem classifyCatch_stopped {rpm slow amplitude s} (h : s.dev = .stopped) : (classifyCatch rpm slow amplitude s).dev = .stopped := by
  simp only [classifyCatch]
  repeat' split
  all_goals simp [h]
@[simp] theorem execCatchMeasureDone_stopped {s} (h : s.dev = .stopped) : EndsStopped (execCatchMeasureDone s) := live_stopped h (by simp [h])
@[simp] theorem execSlowWaitDone_stopped {s} (h : s.dev = .stopped) : EndsStopped (execSlowWaitDone s) := live_stopped h (by simp [h])
@[simp] theorem execSlowWaitTimeout_stopped {s} (h : s.dev = .stopped) : EndsStopped (execSlowWaitTimeout s) := live_stopped h (by simp [h])
@[simp] theorem execAlignDone_stopped {s} (h : s.dev = .stopped) : EndsStopped (execAlignDone s) := live_stopped h (by simp [h])
@[simp] theorem execObserverHandoff_stopped {s} (h : s.dev = .stopped) : EndsStopped (execObserverHandoff s) := live_stopped h (by simp [h])
@[simp] theorem execHandoffTimeout_stopped {s} (h : s.dev = .stopped) : EndsStopped (execHandoffTimeout s) := live_stopped h (by simp [h])
@[simp] theorem execCatchAt1000_stopped {s} (h : s.dev = .stopped) : EndsStopped (execCatchAt1000 s) := live_stopped h (by simp [h])
@[simp] theorem execSpinupComplete_stopped {s} (h : s.dev = .stopped) : EndsStopped (execSpinupComplete s) := live_stopped h (by simp [h])
@[simp] theorem execSuTimeout_stopped {s} (h : s.dev = .stopped) : EndsStopped (execSuTimeout s) := live_stopped h (by simp [h])
@[simp] theorem execObserverLock_stopped {s} (h : s.dev = .stopped) : EndsStopped (execObserverLock s) := live_stopped h (by simp [h])
@[simp] theorem execObserverLockLoss_stopped {s} (h : s.dev = .stopped) : EndsStopped (execObserverLockLoss s) := live_stopped h (by simp [h])
@[simp] theorem execOvercurrentRecatch_stopped {s} (h : s.dev = .stopped) : EndsStopped (execOvercurrentRecatch s) := live_stopped h (by simp [h])
@[simp] theorem execSenseFault_stopped {offsets s} (h : s.dev = .stopped) : EndsStopped (execSenseFault offsets s) := live_stopped h (by simp [h])
@[simp] theorem execBusOvRecover_stopped {s} (h : s.dev = .stopped) : EndsStopped (execBusOvRecover s) := live_stopped h (by simp [h])
@[simp] theorem execBusUndervoltage_stopped {s} (h : s.dev = .stopped) : EndsStopped (execBusUndervoltage s) := live_stopped h (by simp [h])
@[simp] theorem execChopperOn_stopped {vbus s} (h : s.dev = .stopped) : EndsStopped (execChopperOn vbus s) := by
  refine live_stopped h ((endsStopped_next _).2 ?_)
  repeat' split
  all_goals simp [h]
@[simp] theorem execChopperOff_stopped {vbus s} (h : s.dev = .stopped) : EndsStopped (execChopperOff vbus s) := by
  refine live_stopped h ((endsStopped_next _).2 ?_)
  repeat' split
  all_goals simp [h]
@[simp] theorem execChopperFault_stopped {which ichop s} (h : s.dev = .stopped) : EndsStopped (execChopperFault which ichop s) := live_stopped h (by simp [h])
@[simp] theorem execGeneratorExhausted_stopped {s} (h : s.dev = .stopped) : EndsStopped (execGeneratorExhausted s) := live_stopped h (by simp [h])
@[simp] theorem execVoltageLimitFault_stopped {s} (h : s.dev = .stopped) : EndsStopped (execVoltageLimitFault s) := live_stopped h (by simp [h])
@[simp] theorem execSpeedSample_stopped {o s} (h : s.dev = .stopped) : EndsStopped (execSpeedSample o s) := live_stopped h (by simp [h])
@[simp] theorem execSpeedSourceTimeout_stopped {s} (h : s.dev = .stopped) : EndsStopped (execSpeedSourceTimeout s) := live_stopped h (by simp [h])
@[simp] theorem gateWriting_stopped {s} (h : s.dev = .stopped) : (gateWriting s).dev = .stopped := by
  unfold gateWriting
  exact each_stopped h fun x s h => by simp [h]
@[simp] theorem judgeMean_stopped {speed s} (h : s.dev = .stopped) : (judgeMean speed s).dev = .stopped := by simp [judgeMean, h]
@[simp] theorem execDataWindowMean_stopped {s} (h : s.dev = .stopped) : EndsStopped (execDataWindowMean s) := live_stopped h (by simp [h])
@[simp] theorem execDataWindowEntry_stopped {s} (h : s.dev = .stopped) : EndsStopped (execDataWindowEntry s) := live_stopped h (by simp [h])
@[simp] theorem execDataWindowTimeout_stopped {s} (h : s.dev = .stopped) : EndsStopped (execDataWindowTimeout s) := live_stopped h (by simp [h])
@[simp] theorem execWindowEntryTimeout_stopped {s} (h : s.dev = .stopped) : EndsStopped (execWindowEntryTimeout s) := live_stopped h (by simp [h])
@[simp] theorem execBrakeStart_stopped {s} (h : s.dev = .stopped) : EndsStopped (execBrakeStart s) := live_stopped h (by simp [h])
@[simp] theorem execShortBrakeSwitch_stopped {s} (h : s.dev = .stopped) : EndsStopped (execShortBrakeSwitch s) := live_stopped h (by simp [h])
@[simp] theorem spindleAtRest_stopped {s} (h : s.dev = .stopped) : (spindleAtRest s).dev = .stopped := by simp [spindleAtRest, h]
@[simp] theorem execSpindleStopped_stopped {s} (h : s.dev = .stopped) : EndsStopped (execSpindleStopped s) := live_stopped h (by simp [h])

-- Functions of Machine/Power.lean.
@[simp] theorem execRefclkLoss_stopped {s} (h : s.dev = .stopped) : EndsStopped (execRefclkLoss s) := live_stopped h ((endsStopped_next _).2 rfl)
@[simp] theorem execCorePllUnlock_stopped {s} (h : s.dev = .stopped) : EndsStopped (execCorePllUnlock s) := live_stopped h ((endsStopped_next _).2 rfl)
@[simp] theorem execLanePllUnlock_stopped {pll s} (h : s.dev = .stopped) : EndsStopped (execLanePllUnlock pll s) := live_stopped h (by simp [h])
@[simp] theorem execSupplyFault_stopped {rail powerFailFirst s} (h : s.dev = .stopped) : EndsStopped (execSupplyFault rail powerFailFirst s) :=
  live_stopped h ((endsStopped_next _).2 (dev_ite_eq h rfl))
@[simp] theorem execDroopTrip_stopped {domain s} (h : s.dev = .stopped) : EndsStopped (execDroopTrip domain s) := live_stopped h (by simp [h])
@[simp] theorem execSlackMonitorRead_stopped {ps s} (h : s.dev = .stopped) : EndsStopped (execSlackMonitorRead ps s) := live_stopped h (by simp [h])
@[simp] theorem avsAnswer_stopped {acked readback s} (h : s.dev = .stopped) : (avsAnswer acked readback s).dev = .stopped := by simp [avsAnswer, h]
@[simp] theorem execAvsStep_stopped {acked readback s} (h : s.dev = .stopped) : EndsStopped (execAvsStep acked readback s) := by
  refine live_stopped h ((endsStopped_next _).2 (dev_ite_eq h ?_))
  split
  · exact avsAnswer_stopped h
  · exact avsAnswer_stopped h
@[simp] theorem execAvsRepeatWrite_stopped {acked readback s} (h : s.dev = .stopped) : EndsStopped (execAvsRepeatWrite acked readback s) :=
  live_stopped h (by simp [h])
@[simp] theorem execVin12Window_stopped {c0 c1 c2 c3 s} (h : s.dev = .stopped) : EndsStopped (execVin12Window c0 c1 c2 c3 s) := by
  refine live_stopped h ?_
  simp only
  repeat' split
  all_goals simp [h]
@[simp] theorem execVin12SenseFault_stopped {timeout reading s} (h : s.dev = .stopped) : EndsStopped (execVin12SenseFault timeout reading s) := by
  refine live_stopped h ?_
  simp only
  repeat' split
  all_goals simp [h]
@[simp] theorem execPwrFailNLow_stopped {s} (h : s.dev = .stopped) : EndsStopped (execPwrFailNLow s) := live_stopped h (by simp [h])
@[simp] theorem execPwrFailNHigh_stopped {s} (h : s.dev = .stopped) : EndsStopped (execPwrFailNHigh s) := live_stopped h (by simp [h])
@[simp] theorem dumpOver_stopped {s} (h : s.dev = .stopped) : (dumpOver s).dev = .stopped := by simp [dumpOver, h]
@[simp] theorem dumpEndedEarly_stopped {s} (h : s.dev = .stopped) : (dumpEndedEarly s).dev = .stopped := by simp [dumpEndedEarly, h]
@[simp] theorem execDumpStart_stopped {s} (h : s.dev = .stopped) : EndsStopped (execDumpStart s) := live_stopped h (by simp [h])
@[simp] theorem execDumpChunkCommit_stopped {readsBack s} (h : s.dev = .stopped) : EndsStopped (execDumpChunkCommit readsBack s) := by
  refine live_stopped h ((endsStopped_next _).2 ?_)
  repeat' split
  all_goals simp [h]
@[simp] theorem execDumpBusLow_stopped {s} (h : s.dev = .stopped) : EndsStopped (execDumpBusLow s) := live_stopped h (by simp [h])

-- Functions of Machine/Servo.lean.
@[simp] theorem servoCondition_stopped {code hold fs s} (h : s.dev = .stopped) : (servoCondition code hold fs s).dev = .stopped := by
  simp [servoCondition, h]
@[simp] theorem reloadSpeed_stopped {s} (h : s.dev = .stopped) : (reloadSpeed s).dev = .stopped := by simp [reloadSpeed, h]
@[simp] theorem enterTrack_stopped {a s} (h : s.dev = .stopped) : (enterTrack a s).dev = .stopped := by simp [enterTrack, h]
@[simp] theorem coastArm_stopped {a s} (h : s.dev = .stopped) : (coastArm a s).dev = .stopped := by
  have hs : (each (loadedHeads s a) (fun k s => modHead (writeGate k s) k fun h => { h with state := 5, gated := true, onWrite := false, wrRun := 0 }) s).dev = .stopped :=
    each_stopped h fun k s h => by simp [h]
  simp [coastArm, hs]
@[simp] theorem lostWedge_stopped {n s} (h : s.dev = .stopped) : (lostWedge n s).dev = .stopped := by simp [lostWedge, h]
@[simp] theorem paceWedge_stopped {a s} (h : s.dev = .stopped) : (paceWedge a s).dev = .stopped := by
  simp only [paceWedge]
  repeat' split
  all_goals simp [h]
@[simp] theorem trackWedge_stopped {n d s} (h : s.dev = .stopped) : (trackWedge n d s).dev = .stopped := by
  unfold trackWedge
  extract_lets s1 h1 wrong s2 s3 pred pos s4 s5 s6 s7 s8 spc s9
  have h3 : s3.dev = .stopped := by simp only [s3, s2, s1, modHead_dev, h]
  clear_value s3 pos
  have h4 : s4.dev = .stopped := by
    cases pos with
    | none => exact lostWedge_stopped h3
    | some y => exact (validWedge_dev ..).trans h3
  clear_value s4
  have h5 : s5.dev = .stopped := h4
  clear_value s5
  have h6 : s6.dev = .stopped := dev_ite_eq (writeGate_stopped h5) (by rw [armWriter_dev, h5])
  clear_value s6
  have h7 : s7.dev = .stopped := dev_ite_eq (by rw [requestSwitch_dev, requestSwitch_dev, h6]) h6
  clear_value s7
  have h8 : s8.dev = .stopped := dev_ite_eq (paceWedge_stopped (dev_ite_eq (by rw [requestSwitch_dev, h7]) h7)) h7
  clear_value s8
  have h9 : s9.dev = .stopped := dev_ite_eq h8 h8
  exact dev_ite_eq (by rw [sendWindow_dev, h9]) h9
@[simp] theorem execServoWedge_stopped {arm head s} (h : s.dev = .stopped) : EndsStopped (execServoWedge arm head s) := by
  refine live_stopped h ((endsStopped_next _).2 ?_)
  refine dev_ite_eq h (dev_ite_eq ?_ (dev_ite_eq h (dev_ite_eq ?_ ?_)))
  · rw [unloadWedge_dev, h]
  · rw [acquireWedge_dev, modArm_dev, h]
  · rw [visitWedge_dev, trackWedge_stopped h]
@[simp] theorem execArmCoastTimeout_stopped {arm s} (h : s.dev = .stopped) : EndsStopped (execArmCoastTimeout arm s) := live_stopped h (by simp [h])
@[simp] theorem execSurfaceMismatch_stopped {arm head s} (h : s.dev = .stopped) : EndsStopped (execSurfaceMismatch arm head s) := live_stopped h (by simp [h])
@[simp] theorem execWedgeLossRun_stopped {arm head s} (h : s.dev = .stopped) : EndsStopped (execWedgeLossRun arm head s) := live_stopped h (by simp [h])
@[simp] theorem execReacquireTimeout_stopped {arm head s} (h : s.dev = .stopped) : EndsStopped (execReacquireTimeout arm head s) :=
  live_stopped h (by simp [h])
@[simp] theorem execStrokeLimitRun_stopped {arm head s} (h : s.dev = .stopped) : EndsStopped (execStrokeLimitRun arm head s) := live_stopped h (by simp [h])
@[simp] theorem execReaderDisagreeRun_stopped {arm head s} (h : s.dev = .stopped) : EndsStopped (execReaderDisagreeRun arm head s) :=
  live_stopped h (by simp [h])
@[simp] theorem execSettleTimeout_stopped {arm head s} (h : s.dev = .stopped) : EndsStopped (execSettleTimeout arm head s) := by
  refine live_stopped h ((endsStopped_next _).2 ?_)
  repeat' split
  all_goals simp [h]
@[simp] theorem clearanceRun_stopped {n o s} (h : s.dev = .stopped) : (clearanceRun n o s).dev = .stopped := by simp [clearanceRun, h]
@[simp] theorem execClearanceEstimate_stopped {arm head s} (h : s.dev = .stopped) : EndsStopped (execClearanceEstimate arm head s) := by
  refine live_stopped h ?_
  simp only [endsStopped_next]
  repeat' split
  all_goals simp [h]
@[simp] theorem execArmLoad_stopped {arm s} (h : s.dev = .stopped) : EndsStopped (execArmLoad arm s) := live_stopped h (by simp [h])
@[simp] theorem loadFailure_stopped {s} (h : s.dev = .stopped) : (loadFailure s).dev = .stopped := by simp [loadFailure, h]
@[simp] theorem execLoadAcquireTimeout_stopped {arm s} (h : s.dev = .stopped) : EndsStopped (execLoadAcquireTimeout arm s) := by
  refine live_stopped h ((endsStopped_next _).2 ?_)
  have hd (xs : List Nat) : (each xs declareFailed s).dev = .stopped := each_stopped h fun n s h => by simp [h]
  refine dev_ite_eq h (dev_ite_eq (dev_ite_eq ?_ ?_) (dev_ite_eq ?_ (dev_ite_eq ?_ ?_)))
  · simp [h]
  · simp [hd]
  · simp [h]
  · simp [h]
  · simp [hd]
@[simp] theorem vcmFault_stopped {a s} (h : s.dev = .stopped) : (vcmFault a s).dev = .stopped := by
  have hw : (each (armHeads s a) writeGate s).dev = .stopped := each_stopped h fun n s h => writeGate_stopped h
  refine servoCondition_stopped ?_
  rw [openCause_dev, modArm_dev, headsOff_dev, retractArm_dev, gateArm_dev, voidArm_dev, hw]
@[simp] theorem execRetractedWaitTimeout_stopped {arm s} (h : s.dev = .stopped) : EndsStopped (execRetractedWaitTimeout arm s) := live_stopped h (by simp [h])
@[simp] theorem execArmUnload_stopped {arm s} (h : s.dev = .stopped) : EndsStopped (execArmUnload arm s) := live_stopped h (by simp [h])
@[simp] theorem unloaded_stopped {a state s} (h : s.dev = .stopped) : (unloaded a state s).dev = .stopped := by simp [unloaded, h]
@[simp] theorem execUnloadComplete_stopped {arm s} (h : s.dev = .stopped) : EndsStopped (execUnloadComplete arm s) := live_stopped h (by simp [h])
@[simp] theorem execUnloadTimeout_stopped {arm s} (h : s.dev = .stopped) : EndsStopped (execUnloadTimeout arm s) := live_stopped h (by simp [h])
@[simp] theorem velocityRun_stopped {a o s} (h : s.dev = .stopped) : (velocityRun a o s).dev = .stopped := by simp [velocityRun, h]
@[simp] theorem execVcmDiFrame_stopped {arm f s} (h : s.dev = .stopped) : EndsStopped (execVcmDiFrame arm f s) := live_stopped h (by simp [h])
@[simp] theorem execVcmReload_stopped {arm s} (h : s.dev = .stopped) : EndsStopped (execVcmReload arm s) := live_stopped h (by simp [h])
@[simp] theorem execVcmReloadTimeout_stopped {arm s} (h : s.dev = .stopped) : EndsStopped (execVcmReloadTimeout arm s) := live_stopped h (by simp [h])
@[simp] theorem vcmRun_stopped {a o s} (h : s.dev = .stopped) : (vcmRun a o s).dev = .stopped := by simp [vcmRun, h]
@[simp] theorem uaRun_stopped {n o s} (h : s.dev = .stopped) : (uaRun n o s).dev = .stopped := by simp [uaRun, h]
@[simp] theorem execLoopExecute_stopped {ctx input o s} (h : s.dev = .stopped) : EndsStopped (execLoopExecute ctx input o s) := live_stopped h (by simp [h])
@[simp] theorem execLoopSwitchTimeout_stopped {ctx s} (h : s.dev = .stopped) : EndsStopped (execLoopSwitchTimeout ctx s) := live_stopped h (by simp [h])

-- Functions of Machine/Channel.lean.
@[simp] theorem execSampleWord_stopped {arm word s} (h : s.dev = .stopped) : EndsStopped (execSampleWord arm word s) := live_stopped h (by simp [h])
@[simp] theorem execStreamMark_stopped {arm word s} (h : s.dev = .stopped) : EndsStopped (execStreamMark arm word s) := live_stopped h (by simp [h])
@[simp] theorem lostFrame_stopped {xs missed s} (h : s.dev = .stopped) : (lostFrame xs missed s).dev = .stopped := by
  unfold lostFrame
  exact each_stopped h fun x s h => by simp [h]
@[simp] theorem offTrackFrame_stopped {xs s} (h : s.dev = .stopped) : (offTrackFrame xs s).dev = .stopped := by simp [offTrackFrame, h]
@[simp] theorem dropRequests_stopped {island lost s} (h : s.dev = .stopped) : (dropRequests island lost s).dev = .stopped := by simp [dropRequests, h]
@[simp] theorem pushEntry_stopped {island e s} (h : s.dev = .stopped) : (pushEntry island e s).dev = .stopped := by simp [pushEntry, h]
@[simp] theorem syncMiss_stopped {island slot xs best s} (h : s.dev = .stopped) : (syncMiss island slot xs best s).dev = .stopped := by
  simp [syncMiss, h]
@[simp] theorem detectEntry_stopped {img island e xs wanted visit s} (h : s.dev = .stopped) : (detectEntry img island e xs wanted visit s).dev = .stopped := by
  simp only [detectEntry]
  repeat' split
  all_goals simp [h]
@[simp] theorem visitFrame_stopped {island n slot o step s} (h : s.dev = .stopped) : (visitFrame island n slot o step s).dev = .stopped := by
  simp only [visitFrame]
  repeat' split
  all_goals simp [h]
@[simp] theorem execPreambleSearch_stopped {island slot s} (h : s.dev = .stopped) : EndsStopped (execPreambleSearch island slot s) := by
  refine live_stopped h ((endsStopped_next _).2 ?_)
  repeat' split
  all_goals simp [h]
@[simp] theorem execSecondCandidateRebuild_stopped {island s} (h : s.dev = .stopped) : EndsStopped (execSecondCandidateRebuild island s) := by
  refine live_stopped h ?_
  simp only [endsStopped_next]
  repeat' split
  all_goals simp [h]
@[simp] theorem execRawCheck_stopped {island slot s} (h : s.dev = .stopped) : EndsStopped (execRawCheck island slot s) := by
  refine live_stopped h ((endsStopped_next _).2 ?_)
  repeat' split
  all_goals simp [h]
@[simp] theorem checkDone_stopped {row k res s} (h : s.dev = .stopped) : (checkDone row k res s).dev = .stopped := by
  simp only [checkDone]
  repeat' split
  all_goals simp [h]
@[simp] theorem execRawResultHandle_stopped {island s} (h : s.dev = .stopped) : EndsStopped (execRawResultHandle island s) := by
  refine live_stopped h ?_
  simp only [endsStopped_next]
  repeat' split
  all_goals simp [h]
@[simp] theorem failIsland_stopped {island why own s} (h : s.dev = .stopped) : (failIsland island why own s).dev = .stopped := by simp [failIsland, h]
@[simp] theorem execIslandFail_stopped {island why s} (h : s.dev = .stopped) : EndsStopped (execIslandFail island why s) := live_stopped h (by simp [h])
@[simp] theorem steerHead_stopped {n island s} (h : s.dev = .stopped) : (steerHead n island s).dev = .stopped := by simp [steerHead, h]
@[simp] theorem execIslandReassign_stopped {arm head island s} (h : s.dev = .stopped) : EndsStopped (execIslandReassign arm head island s) :=
  live_stopped h (by simp [h])
@[simp] theorem execIslandTablesLoaded_stopped {island s} (h : s.dev = .stopped) : EndsStopped (execIslandTablesLoaded island s) := by
  refine live_stopped h ?_
  simp only [endsStopped_next]
  repeat' split
  all_goals simp [h]

-- Functions of Machine/Thermal.lean.
@[simp] theorem thermalShut_stopped {k s} (h : s.dev = .stopped) : (thermalShut k s).dev = .stopped := by simp [thermalShut, h]
@[simp] theorem setLevel_stopped {k level t s} (h : s.dev = .stopped) : (setLevel k level t s).dev = .stopped := by simp [setLevel, h]
@[simp] theorem thermalReading_stopped {k t s} (h : s.dev = .stopped) : (thermalReading k t s).dev = .stopped := by simp [thermalReading, h]
@[simp] theorem thermalUnreported_stopped {k s} (h : s.dev = .stopped) : (thermalUnreported k s).dev = .stopped := by simp [thermalUnreported, h]
@[simp] theorem execThermalSensorRead_stopped {t s} (h : s.dev = .stopped) : EndsStopped (execThermalSensorRead t s) := live_stopped h (by simp [h])
@[simp] theorem execTempTelemetry_stopped {arm word s} (h : s.dev = .stopped) : EndsStopped (execTempTelemetry arm word s) := live_stopped h (by simp [h])
@[simp] theorem execSensorUnreported_stopped {sensor s} (h : s.dev = .stopped) : EndsStopped (execSensorUnreported sensor s) := live_stopped h (by simp [h])

-- Functions of Machine/Budget.lean.
@[simp] theorem refreshBudget_stopped {source s} (h : s.dev = .stopped) : (refreshBudget source s).dev = .stopped := by simp [refreshBudget, h]

-- Functions of Machine/Bolter.lean.
@[simp] theorem execCodewordTake_stopped {engine s} (h : s.dev = .stopped) : EndsStopped (execCodewordTake engine s) := by
  refine live_stopped h ((endsStopped_next _).2 ?_)
  repeat' split
  all_goals simp [h]
@[simp] theorem codewordFailed_stopped {k c s} (h : s.dev = .stopped) : (codewordFailed k c s).dev = .stopped := by
  simp only [codewordFailed]
  repeat' split
  all_goals simp [h]
@[simp] theorem codewordPassed_stopped {k c i s} (h : s.dev = .stopped) : (codewordPassed k c i s).dev = .stopped := by
  simp only [codewordPassed]
  repeat' split
  all_goals simp [h]
@[simp] theorem execDecodeDone_stopped {engine s} (h : s.dev = .stopped) : EndsStopped (execDecodeDone engine s) := by
  refine live_stopped h ((endsStopped_next _).2 ?_)
  split
  · exact h
  · next k c _ =>
    have hc (it limit) : (countIterations c it limit s).dev = .stopped := by simp [h]
    have hf (a v) {t : State} (ht : t.dev = .stopped) : (if c.visit.isSome then visitDecoded k c a v t else codewordFailed k c t).dev = .stopped :=
      dev_ite_eq (by simp [ht]) (codewordFailed_stopped ht)
    refine dev_ite_eq (hf _ _ (hc ..)) (dev_ite_eq (hf _ _ ?_) (dev_ite_eq (hf _ _ ?_) (dev_ite_eq ?_ ?_)))
    · rw [post_dev]; exact hc ..
    · rw [post_dev]; exact hc ..
    · rw [visitDecoded_dev]; exact hc ..
    · exact codewordPassed_stopped (hc ..)
@[simp] theorem failEngine_stopped {e cause own s} (h : s.dev = .stopped) : (failEngine e cause own s).dev = .stopped := by
  simp only [failEngine]
  repeat' split
  all_goals simp [h]
@[simp] theorem execEngineTimeout_stopped {engine why s} (h : s.dev = .stopped) : EndsStopped (execEngineTimeout engine why s) := live_stopped h (by simp [h])
@[simp] theorem execQueueSlotUe_stopped {slot s} (h : s.dev = .stopped) : EndsStopped (execQueueSlotUe slot s) := by
  refine live_stopped h ((endsStopped_next _).2 ?_)
  repeat' split
  all_goals simp [h]
@[simp] theorem execHeadSuspendTick_stopped {s} (h : s.dev = .stopped) : EndsStopped (execHeadSuspendTick s) := by
  refine live_stopped h ?_
  simp only [endsStopped_next]
  repeat' split
  all_goals simp [h]
@[simp] theorem execHeadResumeTick_stopped {s} (h : s.dev = .stopped) : EndsStopped (execHeadResumeTick s) := by
  refine live_stopped h ((endsStopped_next _).2 ?_)
  repeat' split
  all_goals simp [h]

-- Functions of Machine/Rows.lean.
@[simp] theorem execRowBuild_stopped {s} (h : s.dev = .stopped) : EndsStopped (execRowBuild s) := by
  refine live_stopped h ((endsStopped_next _).2 ?_)
  repeat' split
  all_goals simp [h]
@[simp] theorem execDirtyAgeExpiry_stopped {lba s} (h : s.dev = .stopped) : EndsStopped (execDirtyAgeExpiry lba s) := by
  refine live_stopped h ((endsStopped_next _).2 ?_)
  repeat' split
  all_goals simp [h]
@[simp] theorem execPinWaitExpiry_stopped {row s} (h : s.dev = .stopped) : EndsStopped (execPinWaitExpiry row s) := live_stopped h (by simp [h])
@[simp] theorem advanceDrain_stopped {s} (h : s.dev = .stopped) : (advanceDrain s).dev = .stopped := by simp [advanceDrain, h]
@[simp] theorem commitRow_stopped {r s} (h : s.dev = .stopped) : (commitRow r s).dev = .stopped := by simp [commitRow, h]
@[simp] theorem execRowCommit_stopped {row s} (h : s.dev = .stopped) : EndsStopped (execRowCommit row s) := by
  refine live_stopped h ((endsStopped_next _).2 ?_)
  repeat' split
  all_goals simp [h]
@[simp] theorem execCommitRecordFlush_stopped {s} (h : s.dev = .stopped) : EndsStopped (execCommitRecordFlush s) := live_stopped h (by simp [h])
@[simp] theorem execHeadFailDeclare_stopped {arm head s} (h : s.dev = .stopped) : EndsStopped (execHeadFailDeclare arm head s) := live_stopped h (by simp [h])

-- Functions of Machine/Sluice.lean.
@[simp] theorem execOperationGrant_stopped {arm s} (h : s.dev = .stopped) : EndsStopped (execOperationGrant arm s) := by
  refine live_stopped h ?_
  simp only [endsStopped_next]
  repeat' split
  all_goals simp [h]
@[simp] theorem execIslandGateOff_stopped {arm s} (h : s.dev = .stopped) : EndsStopped (execIslandGateOff arm s) := by
  refine live_stopped h ((endsStopped_next _).2 ?_)
  repeat' split
  all_goals simp [h]
@[simp] theorem decodedPwm_stopped {v s} (h : s.dev = .stopped) : (decodedPwm v s).dev = .stopped := by simp [decodedPwm, h]
@[simp] theorem execBudgetPwmPeriod_stopped {period high s} (h : s.dev = .stopped) : EndsStopped (execBudgetPwmPeriod period high s) :=
  live_stopped h (by simp [h])
@[simp] theorem execBudgetPwmSilence_stopped {s} (h : s.dev = .stopped) : EndsStopped (execBudgetPwmSilence s) := live_stopped h (by simp [h])
@[simp] theorem execBpwmHoldExpiry_stopped {s} (h : s.dev = .stopped) : EndsStopped (execBpwmHoldExpiry s) := live_stopped h (by simp [h])
@[simp] theorem execPwmRiseSettle_stopped {s} (h : s.dev = .stopped) : EndsStopped (execPwmRiseSettle s) := live_stopped h (by simp [h])

-- Functions of Machine/Millpond.lean.
@[simp] theorem noSpare_stopped {s} (h : s.dev = .stopped) : (noSpare s).dev = .stopped := by simp [noSpare, h]
@[simp] theorem migrate_stopped {logical cause s} (h : s.dev = .stopped) : (migrate logical cause s).dev = .stopped := by
  simp only [migrate]
  repeat' split
  all_goals simp [h]
@[simp] theorem execMigrationStart_stopped {logical cause s} (h : s.dev = .stopped) : EndsStopped (execMigrationStart logical cause s) :=
  live_stopped h (by simp [h])
@[simp] theorem execMigrationComplete_stopped {s} (h : s.dev = .stopped) : EndsStopped (execMigrationComplete s) := live_stopped h (by simp [h])
@[simp] theorem scrubBeat_stopped {p burst beat syn s} (h : s.dev = .stopped) : (scrubBeat p burst beat syn s).dev = .stopped := by
  simp [scrubBeat, h]
@[simp] theorem execScrubRead_stopped {channel syndromes s} (h : s.dev = .stopped) : EndsStopped (execScrubRead channel syndromes s) := by
  refine live_stopped h ((endsStopped_next _).2 (dev_ite_eq h ?_))
  extract_lets s1 s2
  have hs : s2.dev = .stopped := each_stopped (by simp [s1, h]) fun y s h => by simp [h]
  exact dev_ite_eq (migrate_stopped hs) (dev_ite_eq (migrate_stopped hs) hs)
@[simp] theorem execSparePatternTest_stopped {pass s} (h : s.dev = .stopped) : EndsStopped (execSparePatternTest pass s) := live_stopped h (by simp [h])
@[simp] theorem execSpareChannelTrainingLoss_stopped {s} (h : s.dev = .stopped) : EndsStopped (execSpareChannelTrainingLoss s) := live_stopped h (by simp [h])
@[simp] theorem execDramRefresh_stopped {channel s} (h : s.dev = .stopped) : EndsStopped (execDramRefresh channel s) := live_stopped h (by simp [h])
@[simp] theorem execZqCalShort_stopped {channel s} (h : s.dev = .stopped) : EndsStopped (execZqCalShort channel s) := live_stopped h (by simp [h])

-- Functions of Machine/Transfer.lean.
@[simp] theorem haltChannelAs_stopped {write ch cause addr elem inj s} (h : s.dev = .stopped) : (haltChannelAs write ch cause addr elem inj s).dev = .stopped := by
  simp only [haltChannelAs]
  repeat' split
  all_goals simp [h]
@[simp] theorem haltChannel_stopped {ch cause addr elem inj s} (h : s.dev = .stopped) : (haltChannel ch cause addr elem inj s).dev = .stopped := by
  simp [haltChannel, h]
@[simp] theorem moveElems_stopped {ch d k n s} (h : s.dev = .stopped) : (moveElems ch d k n s).2.dev = .stopped := by
  induction k generalizing n s with
  | zero => exact h
  | succ k ih =>
    unfold moveElems
    split
    · refine haltChannelAs_stopped ?_
      rw [noteRefused_dev, h]
    · split
      · next e => exact haltChannel_stopped ((snd_dev_of_eq (moveElem_dev ..) e).trans h)
      · next e => exact ih ((snd_dev_of_eq (moveElem_dev ..) e).trans h)
@[simp] theorem startDesc_stopped {ch s} (h : s.dev = .stopped) : (startDesc ch s).dev = .stopped := by
  simp only [startDesc]
  repeat' split
  all_goals simp [h]
@[simp] theorem execDescriptorPost_stopped {ch d s} (h : s.dev = .stopped) : EndsStopped (execDescriptorPost ch d s) := live_stopped h (by simp [h])
@[simp] theorem execDescriptorStart_stopped {ch s} (h : s.dev = .stopped) : EndsStopped (execDescriptorStart ch s) := live_stopped h (by simp [h])
@[simp] theorem execDescriptorDone_stopped {ch s} (h : s.dev = .stopped) : EndsStopped (execDescriptorDone ch s) := by
  refine live_stopped h ((endsStopped_next _).2 ?_)
  split
  · exact h
  · refine dev_ite_eq h ?_
    split
    · next e => exact snd_stopped_of_eq (moveElems_stopped h) e
    · next e => simp [snd_stopped_of_eq (moveElems_stopped h) e]
@[simp] theorem execChannelHalt_stopped {ch cause address element s} (h : s.dev = .stopped) : EndsStopped (execChannelHalt ch cause address element s) := by
  refine live_stopped h ((endsStopped_next _).2 ?_)
  split
  · exact h
  · refine dev_ite_eq ?_ (dev_ite_eq (haltChannel_stopped h) h)
    split
    · next e => exact snd_stopped_of_eq (moveElems_stopped h) e
    · next e => exact haltChannel_stopped (snd_stopped_of_eq (moveElems_stopped h) e)
@[simp] theorem execTrePause_stopped {ch s} (h : s.dev = .stopped) : EndsStopped (execTrePause ch s) := live_stopped h (by simp [h])
@[simp] theorem execTreResume_stopped {ch s} (h : s.dev = .stopped) : EndsStopped (execTreResume ch s) := live_stopped h (by simp [h])
@[simp] theorem execTreFlush_stopped {ch s} (h : s.dev = .stopped) : EndsStopped (execTreFlush ch s) := live_stopped h (by simp [h])
@[simp] theorem haltRequester_stopped {m addr s} (h : s.dev = .stopped) : (haltRequester m addr s).dev = .stopped := by
  simp only [haltRequester]
  repeat' split
  all_goals simp [h]
@[simp] theorem execMillpondUe_stopped {requester c s} (h : s.dev = .stopped) : EndsStopped (execMillpondUe requester c s) := live_stopped h (by simp [h])
@[simp] theorem cancelCtx_stopped {ch ctx sourcePresent s} (h : s.dev = .stopped) : (cancelCtx ch ctx sourcePresent s).dev = .stopped := by
  unfold cancelCtx
  extract_lets c mine s1
  have hs : s1.dev = .stopped := h
  split
  · exact hs
  · refine dev_ite_eq hs (dev_ite_eq (by simp [hs]) (dev_ite_eq ?_ hs))
    have hn : (nextFree s1).dev = .stopped := hs
    dsimp only
    split
    · next e => simp [snd_stopped_of_eq (moveElems_stopped hn) e]
    · next e => simp [snd_stopped_of_eq (moveElems_stopped hn) e]
@[simp] theorem execTreCancel_stopped {ch ctx sourcePresent s} (h : s.dev = .stopped) : EndsStopped (execTreCancel ch ctx sourcePresent s) :=
  live_stopped h (by simp [h])
@[simp] theorem execTreRetry_stopped {ch s} (h : s.dev = .stopped) : EndsStopped (execTreRetry ch s) := by
  refine live_stopped h ((endsStopped_next _).2 ?_)
  repeat' split
  all_goals simp [h]
@[simp] theorem execTreRestart_stopped {ch s} (h : s.dev = .stopped) : EndsStopped (execTreRestart ch s) := live_stopped h (by simp [h])
@[simp] theorem execTreSkip_stopped {ch s} (h : s.dev = .stopped) : EndsStopped (execTreSkip ch s) := live_stopped h (by simp [h])
@[simp] theorem injectHalt_stopped {ch s} (h : s.dev = .stopped) : (injectHalt ch s).dev = .stopped := by simp [injectHalt, h]

-- Functions of Machine/Admit.lean.
@[simp] theorem beginSpin_stopped {arr s} (h : s.dev = .stopped) : (beginSpin arr s).dev = .stopped := by
  simp only [beginSpin]
  repeat' split
  all_goals simp [h]
@[simp] theorem execHoldLimitExpiry_stopped {p tag s} (h : s.dev = .stopped) : EndsStopped (execHoldLimitExpiry p tag s) := by
  refine live_stopped h ((endsStopped_next _).2 ?_)
  repeat' split
  all_goals simp [h]
@[simp] theorem execWriteGrant_stopped {s} (h : s.dev = .stopped) : EndsStopped (execWriteGrant s) := by
  refine live_stopped h ((endsStopped_next _).2 ?_)
  repeat' split
  all_goals simp [h]
@[simp] theorem cancelDescs_stopped {c s} (h : s.dev = .stopped) : (cancelDescs c s).dev = .stopped := by
  unfold cancelDescs
  exact each_stopped h fun x s h => by simp [h]
@[simp] theorem abortCmd_stopped {c info s} (h : s.dev = .stopped) : (abortCmd c info s).dev = .stopped := by simp [abortCmd, h]
@[simp] theorem execWdataTimeout_stopped {p tag s} (h : s.dev = .stopped) : EndsStopped (execWdataTimeout p tag s) := by
  refine live_stopped h ((endsStopped_next _).2 ?_)
  repeat' split
  all_goals simp [h]
@[simp] theorem beginAbort_stopped {arr s} (h : s.dev = .stopped) : (beginAbort arr s).dev = .stopped := by
  simp only [beginAbort]
  repeat' split
  all_goals simp [h]

-- Functions of Machine/Faults.lean.
@[simp] theorem execMqPacketWrite_stopped {q words s} (h : s.dev = .stopped) : EndsStopped (execMqPacketWrite q words s) := live_stopped h (by simp [h])
@[simp] theorem execMqProducerTimeout_stopped {q producer s} (h : s.dev = .stopped) : EndsStopped (execMqProducerTimeout q producer s) := by
  refine live_stopped h ((endsStopped_next _).2 ?_)
  repeat' split
  all_goals simp [h]
@[simp] theorem execMqPop_stopped {q ue s} (h : s.dev = .stopped) : EndsStopped (execMqPop q ue s) := by
  refine live_stopped h ((endsStopped_next _).2 ?_)
  repeat' split
  all_goals simp [h]
@[simp] theorem execMqPopWatchdog_stopped {q s} (h : s.dev = .stopped) : EndsStopped (execMqPopWatchdog q s) := live_stopped h (by simp [h])
@[simp] theorem execTallyEventPost_stopped {code injected source payload s} (h : s.dev = .stopped) : EndsStopped (execTallyEventPost code injected source payload s) :=
  live_stopped h (by simp [h])
@[simp] theorem execTallyFlushTimer_stopped {s} (h : s.dev = .stopped) : EndsStopped (execTallyFlushTimer s) := live_stopped h (by simp [h])
@[simp] theorem execTallyBlockErase_stopped {s} (h : s.dev = .stopped) : EndsStopped (execTallyBlockErase s) := live_stopped h (by simp [h])
@[simp] theorem execFaultReport_stopped {rs s} (h : s.dev = .stopped) : EndsStopped (execFaultReport rs s) := live_stopped h (by simp [h])
@[simp] theorem execFirstErrorCopy_stopped {s} (h : s.dev = .stopped) : EndsStopped (execFirstErrorCopy s) := live_stopped h (by simp [h])
@[simp] theorem execQuietTimerExpiry_stopped {s} (h : s.dev = .stopped) : EndsStopped (execQuietTimerExpiry s) := live_stopped h (by simp [h])
@[simp] theorem execFaultHoldRelease_stopped {s} (h : s.dev = .stopped) : EndsStopped (execFaultHoldRelease s) := live_stopped h (by simp [h])
@[simp] theorem execFailStop_stopped {cause s} (h : s.dev = .stopped) : EndsStopped (execFailStop cause s) := live_stopped h (by simp [h])
@[simp] theorem coreTrap_stopped {core mem inHandler injected s} (h : s.dev = .stopped) : (coreTrap core mem inHandler injected s).dev = .stopped := by
  simp [coreTrap, h]
@[simp] theorem execCoreTrap_stopped {core mem inHandler injected s} (h : s.dev = .stopped) : EndsStopped (execCoreTrap core mem inHandler injected s) :=
  live_stopped h (by simp [h])
@[simp] theorem countCorrected_stopped {mem s} (h : s.dev = .stopped) : (countCorrected mem s).dev = .stopped := by simp [countCorrected, h]
@[simp] theorem patrolResponse_stopped {mem offset s} (h : s.dev = .stopped) : (patrolResponse mem offset s).dev = .stopped := by
  have hn : (nextFree s).dev = .stopped := h
  unfold patrolResponse
  extract_lets v c k ch chS q
  refine dev_ite_eq (failIsland_stopped h) (dev_ite_eq (by simp [h]) (dev_ite_eq (by simp [h]) (dev_ite_eq ?_ (dev_ite_eq (failEngine_stopped hn) ?_))))
  · split
    · exact codewordFailed_stopped hn
    · exact h
  refine dev_ite_eq (dev_ite_eq (governorFail_stopped hn) hn) (dev_ite_eq (dev_ite_eq h (haltChannel_stopped h)) ?_)
  refine dev_ite_eq (dev_ite_eq (haltChannel_stopped h) h) (dev_ite_eq (dev_ite_eq h (by simp [h])) ?_)
  refine dev_ite_eq (by simp [h]) (dev_ite_eq (by simp [h]) (dev_ite_eq (by simp [h]) (dev_ite_eq h h)))
@[simp] theorem execSramPatrol_stopped {mem offset data check live_ otherBad s} (h : s.dev = .stopped) : EndsStopped (execSramPatrol mem offset data check live_ otherBad s) := by
  refine live_stopped h ((endsStopped_next _).2 ?_)
  repeat' split
  all_goals simp [h]

-- Functions of Machine/Flash.lean.
@[simp] theorem poolEmpty_stopped {s} (h : s.dev = .stopped) : (poolEmpty s).dev = .stopped := by simp [poolEmpty, h]
@[simp] theorem moveBlock_stopped {kind bank rblock s} (h : s.dev = .stopped) : (moveBlock kind bank rblock s).dev = .stopped := by
  unfold moveBlock
  split
  · rw [notePool_dev]; exact h
  · exact poolEmpty_stopped h
@[simp] theorem retireBlock_stopped {kind bank rblock s} (h : s.dev = .stopped) : (retireBlock kind bank rblock s).dev = .stopped := by
  simp [retireBlock, h]
@[simp] theorem busReport_stopped {master access event addr s} (h : s.dev = .stopped) : (busReport master access event addr s).dev = .stopped := by
  simp [busReport, h]
@[simp] theorem flashFault_stopped {who write event sector s} (h : s.dev = .stopped) : (flashFault who write event sector s).dev = .stopped := by
  simp [flashFault, h]
@[simp] theorem flashRefused_stopped {who write sector s} (h : s.dev = .stopped) : (flashRefused who write sector s).dev = .stopped := by
  simp [flashRefused, h]
@[simp] theorem readLost_stopped {b sec r s} (h : s.dev = .stopped) : (readLost b sec r s).dev = .stopped := by simp [readLost, h]
@[simp] theorem haltReader_stopped {ch sec s} (h : s.dev = .stopped) : (haltReader ch sec s).dev = .stopped := by simp [haltReader, h]
@[simp] theorem readSector_stopped {who sec steps s} (h : s.dev = .stopped) : (readSector who sec steps s).dev = .stopped := by
  simp only [readSector]
  repeat' split
  all_goals simp [h]
@[simp] theorem readLineDirect_stopped {line steps s} (h : s.dev = .stopped) : (readLineDirect line steps s).dev = .stopped := by
  unfold readLineDirect
  split
  · exact h
  · dsimp only
    split
    · simp [h]
    · exact dev_ite_eq h (each_stopped (by simp [h]) fun ch s h => by simp [h])
@[simp] theorem serveWaits_stopped {s} (h : s.dev = .stopped) : (serveWaits s).dev = .stopped := by
  refine each_stopped h fun w s h => ?_
  split
  · exact readLineDirect_stopped h
  · split
    · exact readSector_stopped h
    · exact h
@[simp] theorem execFlashPageRead_stopped {who p sector steps s} (h : s.dev = .stopped) : EndsStopped (execFlashPageRead who p sector steps s) := by
  refine live_stopped h ((endsStopped_next _).2 ?_)
  repeat' split
  all_goals simp [h]
@[simp] theorem execFlashProgram_stopped {who p first sectors s} (h : s.dev = .stopped) : EndsStopped (execFlashProgram who p first sectors s) := by
  refine live_stopped h ?_
  simp only [endsStopped_next]
  repeat' split
  all_goals simp [h]
@[simp] theorem execFlashProgramDone_stopped {bank ok s} (h : s.dev = .stopped) : EndsStopped (execFlashProgramDone bank ok s) := by
  refine live_stopped h ((endsStopped_next _).2 ?_)
  repeat' split
  all_goals simp [h]
@[simp] theorem eraseRegion_stopped {kind s} (h : s.dev = .stopped) : (eraseRegion kind s).dev = .stopped := by
  unfold eraseRegion
  dsimp only
  rw [invalidate_dev]
  refine each_stopped h fun bank s h => each_stopped h fun rb s h => ?_
  rw [modBlk_dev]
  refine dev_ite_eq (dev_ite_eq ?_ (poolEmpty_stopped h)) h
  rw [post_dev, moveBlock_stopped h]
@[simp] theorem execFlashErase_stopped {who kind bank block s} (h : s.dev = .stopped) : EndsStopped (execFlashErase who kind bank block s) := by
  refine live_stopped h ((endsStopped_next _).2 ?_)
  repeat' split
  all_goals simp [h]
@[simp] theorem execFlashEraseDone_stopped {bank ok s} (h : s.dev = .stopped) : EndsStopped (execFlashEraseDone bank ok s) := by
  refine live_stopped h ((endsStopped_next _).2 (dev_ite_eq h (dev_ite_eq (serveWaits_stopped ?_) (serveWaits_stopped ?_))))
  · split
    · rw [flashAnswer_dev]; exact h
    · exact h
  · have hr (s : State) (h : s.dev = .stopped) : (retireBlock (getBank s bank).kind bank (getBank s bank).rblock s).dev = .stopped := retireBlock_stopped h
    split
    · rw [flashAnswer_dev]; exact retireBlock_stopped h
    · exact retireBlock_stopped h
@[simp] theorem execBlockRefresh_stopped {bank block s} (h : s.dev = .stopped) : EndsStopped (execBlockRefresh bank block s) := by
  refine live_stopped h ((endsStopped_next _).2 ?_)
  repeat' split
  all_goals simp [h]

-- Functions of Machine/FetchCache.lean.
@[simp] theorem busyFault_stopped {q line access s} (h : s.dev = .stopped) : (busyFault q line access s).dev = .stopped := by simp [busyFault, h]
@[simp] theorem execFetchLookup_stopped {q addr access ue steps s} (h : s.dev = .stopped) : EndsStopped (execFetchLookup q addr access ue steps s) := by
  refine live_stopped h ?_
  simp only [endsStopped_next]
  repeat' split
  all_goals simp [h]
@[simp] theorem execFetchFill_stopped {s} (h : s.dev = .stopped) : EndsStopped (execFetchFill s) := by
  refine live_stopped h ((endsStopped_next _).2 ?_)
  split
  · exact dev_ite_eq (each_stopped h fun w s h => by simp [h]) (by simp [h])
  · exact h
@[simp] theorem fillFailed_stopped {line w s} (h : s.dev = .stopped) : (fillFailed line w s).dev = .stopped := by
  have hs : (fetchAnswer w.1 6 0 s).dev = .stopped := by simp [h]
  exact dev_ite_eq (each_stopped hs fun ch s h => by simp [h]) (dev_ite_eq (coreTrap_stopped hs) hs)
@[simp] theorem fillLadder_stopped {f steps s} (h : s.dev = .stopped) : (fillLadder f steps s).2.dev = .stopped := by
  simp only [fillLadder]
  repeat' split
  all_goals simp [h]
@[simp] theorem execFillComplete_stopped {steps s} (h : s.dev = .stopped) : EndsStopped (execFillComplete steps s) := by
  refine live_stopped h ((endsStopped_next _).2 ?_)
  split
  · exact h
  · next f _ =>
    have hl : (fillLadder f steps { s with fcc := { s.fcc with fill := none } }).2.dev = .stopped := fillLadder_stopped h
    revert hl
    generalize fillLadder f steps _ = p
    intro hl
    refine dev_ite_eq (each_stopped hl fun w s h => fillFailed_stopped h) ?_
    dsimp only
    split
    · exact dev_ite_eq (by simpa using hl) (by simpa using hl)
    · simpa using hl
@[simp] theorem execPrefetchIssue_stopped {q s} (h : s.dev = .stopped) : EndsStopped (execPrefetchIssue q s) := by
  refine live_stopped h ((endsStopped_next _).2 ?_)
  repeat' split
  all_goals simp [h]
@[simp] theorem execInvalLine_stopped {_core addr s} (h : s.dev = .stopped) : EndsStopped (execInvalLine _core addr s) := live_stopped h (by simp [h])
@[simp] theorem execInvalRange_stopped {_core base lines s} (h : s.dev = .stopped) : EndsStopped (execInvalRange _core base lines s) :=
  live_stopped h (by simp [h])
@[simp] theorem execInvalAll_stopped {_core s} (h : s.dev = .stopped) : EndsStopped (execInvalAll _core s) := live_stopped h (by simp [h])
@[simp] theorem execLock_stopped {core addr s} (h : s.dev = .stopped) : EndsStopped (execLock core addr s) := by
  refine live_stopped h ((endsStopped_next _).2 ?_)
  repeat' split
  all_goals simp [h]
@[simp] theorem execUnlock_stopped {core addr s} (h : s.dev = .stopped) : EndsStopped (execUnlock core addr s) := live_stopped h (by simp [h])
@[simp] theorem execUnlockAll_stopped {core s} (h : s.dev = .stopped) : EndsStopped (execUnlockAll core s) := live_stopped h (by simp [h])

-- Functions of Machine/Fantail.lean.
@[simp] theorem slackExhausted_stopped {s} (h : s.dev = .stopped) : (slackExhausted s).dev = .stopped := by simp [slackExhausted, h]
@[simp] theorem laneOut_stopped {l s} (h : s.dev = .stopped) : (laneOut l s).dev = .stopped := by simp [laneOut, h]
@[simp] theorem execHourlyEvaluation_stopped {loops eyes s} (h : s.dev = .stopped) : EndsStopped (execHourlyEvaluation loops eyes s) := by
  have hh : fantailHalted s = true := by simp [fantailHalted, h]
  refine live_stopped h ((endsStopped_next _).2 ?_)
  rw [if_pos hh, h]
@[simp] theorem execReplan_stopped {k loc value second phaseMargin s} (h : s.dev = .stopped) : EndsStopped (execReplan k loc value second phaseMargin s) := by
  refine live_stopped h ((endsStopped_next _).2 ?_)
  repeat' split
  all_goals simp [h]
@[simp] theorem execHorizonCompute_stopped {day s} (h : s.dev = .stopped) : EndsStopped (execHorizonCompute day s) := live_stopped h (by simp [h])
@[simp] theorem execWindingREstimate_stopped {s} (h : s.dev = .stopped) : EndsStopped (execWindingREstimate s) := live_stopped h (by simp [h])
@[simp] theorem execSlackPeriodEval_stopped {s} (h : s.dev = .stopped) : EndsStopped (execSlackPeriodEval s) := live_stopped h (by simp [h])
@[simp] theorem execLaneEyeEval_stopped {l lane eyeH eyeV s} (h : s.dev = .stopped) : EndsStopped (execLaneEyeEval l lane eyeH eyeV s) := by
  refine live_stopped h ((endsStopped_next _).2 ?_)
  repeat' split
  all_goals simp [h]

-- Functions of Machine/Partner.lean.
@[simp] theorem execHeartbeatTick_stopped {served s} (h : s.dev = .stopped) : EndsStopped (execHeartbeatTick served s) := by
  refine live_stopped h ?_
  simp only [endsStopped_next]
  repeat' split
  all_goals simp [h]
@[simp] theorem execHeartbeat_stopped {standby state time dirty s} (h : s.dev = .stopped) : EndsStopped (execHeartbeat standby state time dirty s) :=
  live_stopped h (by simp [h])
@[simp] theorem tryTakeover_stopped {s} (h : s.dev = .stopped) : (tryTakeover s).dev = .stopped := by simp [tryTakeover, h]
@[simp] theorem execTakeoverResume_stopped {s} (h : s.dev = .stopped) : EndsStopped (execTakeoverResume s) := live_stopped h (by simp [h])
@[simp] theorem judge_stopped {toggles frames activeIn s} (h : s.dev = .stopped) : (judge toggles frames activeIn s).dev = .stopped := by
  simp [judge, h]
@[simp] theorem execPartnerWindow_stopped {toggles frames activeIn s} (h : s.dev = .stopped) : EndsStopped (execPartnerWindow toggles frames activeIn s) :=
  live_stopped h (by simp [h])
@[simp] theorem execPartnerHungRecheck_stopped {toggles frames activeIn s} (h : s.dev = .stopped) : EndsStopped (execPartnerHungRecheck toggles frames activeIn s) :=
  live_stopped h (by simp [h])
@[simp] theorem execActiveInFall_stopped {s} (h : s.dev = .stopped) : EndsStopped (execActiveInFall s) := live_stopped h (by simp [h])
@[simp] theorem execPtnFailstop_stopped {cause s} (h : s.dev = .stopped) : EndsStopped (execPtnFailstop cause s) := live_stopped h (by simp [h])
@[simp] theorem execArbitrate_stopped {r s} (h : s.dev = .stopped) : EndsStopped (execArbitrate r s) := live_stopped h (by simp [h])
@[simp] theorem execArbitrationTimeout_stopped {s} (h : s.dev = .stopped) : EndsStopped (execArbitrationTimeout s) := live_stopped h (by simp [h])
@[simp] theorem execStoppedArbitrateTick_stopped {s} (h : s.dev = .stopped) : EndsStopped (execStoppedArbitrateTick s) := live_stopped h (by simp [h])
@[simp] theorem execResyncStart_stopped {_frames s} (h : s.dev = .stopped) : EndsStopped (execResyncStart _frames s) := live_stopped h (by simp [h])
@[simp] theorem execResyncDone_stopped {_frames s} (h : s.dev = .stopped) : EndsStopped (execResyncDone _frames s) := live_stopped h (by simp [h])
@[simp] theorem execMdata_stopped {frame fib data s} (h : s.dev = .stopped) : EndsStopped (execMdata frame fib data s) := by
  refine live_stopped h ((endsStopped_next _).2 (dev_ite_eq h (dev_ite_eq ?_ (dev_ite_eq h h))))
  rw [confirmIf_dev]
  exact h
@[simp] theorem execMent_stopped {es s} (h : s.dev = .stopped) : EndsStopped (execMent es s) := live_stopped h (by simp [h])
@[simp] theorem execConfirm_stopped {frames s} (h : s.dev = .stopped) : EndsStopped (execConfirm frames s) := live_stopped h (by simp [h])
@[simp] theorem execCmdCtx_stopped {p tag arrival opcode lba count s} (h : s.dev = .stopped) : EndsStopped (execCmdCtx p tag arrival opcode lba count s) :=
  live_stopped h (by simp [h])
@[simp] theorem execPtnCpl_stopped {p r s} (h : s.dev = .stopped) : EndsStopped (execPtnCpl p r s) := live_stopped h (by simp [h])
@[simp] theorem execCplAcked_stopped {p tag arrival s} (h : s.dev = .stopped) : EndsStopped (execCplAcked p tag arrival s) := live_stopped h (by simp [h])
@[simp] theorem execPtnRowCommit_stopped {row _time s} (h : s.dev = .stopped) : EndsStopped (execPtnRowCommit row _time s) := live_stopped h (by simp [h])
@[simp] theorem execPtnLayout_stopped {r s} (h : s.dev = .stopped) : EndsStopped (execPtnLayout r s) := live_stopped h (by simp [h])
@[simp] theorem execPtnPlan_stopped {r s} (h : s.dev = .stopped) : EndsStopped (execPtnPlan r s) := live_stopped h (by simp [h])
@[simp] theorem execPtnDeferred_stopped {r s} (h : s.dev = .stopped) : EndsStopped (execPtnDeferred r s) := live_stopped h (by simp [h])
@[simp] theorem execFetchRequest_stopped {frame vseq s} (h : s.dev = .stopped) : EndsStopped (execFetchRequest frame vseq s) := live_stopped h (by simp [h])
@[simp] theorem execFetchReply_stopped {frame vseq data s} (h : s.dev = .stopped) : EndsStopped (execFetchReply frame vseq data s) :=
  live_stopped h (by simp [h])
@[simp] theorem execHandoverRequest_stopped {reason s} (h : s.dev = .stopped) : EndsStopped (execHandoverRequest reason s) := live_stopped h (by simp [h])
@[simp] theorem execHandoverReleased_stopped {reason s} (h : s.dev = .stopped) : EndsStopped (execHandoverReleased reason s) := live_stopped h (by simp [h])
@[simp] theorem execHandoverActive_stopped {reason s} (h : s.dev = .stopped) : EndsStopped (execHandoverActive reason s) := live_stopped h (by simp [h])

-- Functions of Machine/Start.lean.
@[simp] theorem armArea_stopped {k s} (h : s.dev = .stopped) : (armArea k s).dev = .stopped := by simp [armArea, h]
@[simp] theorem finishStart_stopped {s} (h : s.dev = .stopped) : (finishStart s).dev = .stopped := by simp [finishStart, h]
@[simp] theorem linkSettled_stopped {a s} (h : s.dev = .stopped) : (linkSettled a s).dev = .stopped := by simp [linkSettled, h]
@[simp] theorem execAckTelemetry_stopped {arm word s} (h : s.dev = .stopped) : EndsStopped (execAckTelemetry arm word s) := by
  refine live_stopped h ((endsStopped_next _).2 ?_)
  repeat' split
  all_goals simp [h]
@[simp] theorem execIdentity_stopped {arm word s} (h : s.dev = .stopped) : EndsStopped (execIdentity arm word s) := live_stopped h (by simp [h])
@[simp] theorem execReplayReadDone_stopped {area unreadable s} (h : s.dev = .stopped) : EndsStopped (execReplayReadDone area unreadable s) :=
  live_stopped h (by simp [h])
@[simp] theorem execDumpRetire_stopped {area s} (h : s.dev = .stopped) : EndsStopped (execDumpRetire area s) := live_stopped h (by simp [h])
@[simp] theorem execLoadingComplete_stopped {s} (h : s.dev = .stopped) : EndsStopped (execLoadingComplete s) := live_stopped h (by simp [h])

-- Functions of Machine/Diag.lean.
@[simp] theorem putFltReport_stopped {v s} (h : s.dev = .stopped) : (putFltReport v s).dev = .stopped := by simp [putFltReport, h]
@[simp] theorem putTreHalt_stopped {v s} (h : s.dev = .stopped) : (putTreHalt v s).dev = .stopped := by simp [putTreHalt, h]
@[simp] theorem landWrite_stopped {source a v s} (h : s.dev = .stopped) : (landWrite source a v s).dev = .stopped := by
  simp only [landWrite]
  repeat' split
  all_goals simp [h]
@[simp] theorem diagWriteAs_stopped {op path a v s} (h : s.dev = .stopped) : (diagWriteAs op path a v s).dev = .stopped := by
  simp only [diagWriteAs]
  repeat' split
  all_goals simp [h]
@[simp] theorem pathWrite_stopped {path a v s} (h : s.dev = .stopped) : (pathWrite path a v s).dev = .stopped := by simp [pathWrite, h]
@[simp] theorem reportUe_stopped {path as s} (h : s.dev = .stopped) : (reportUe path as s).dev = .stopped := each_stopped h fun _ _ h => report_stopped h
@[simp] theorem execFltClearCounts_stopped {path s} (h : s.dev = .stopped) : EndsStopped (execFltClearCounts path s) := live_stopped h (by simp [h])
@[simp] theorem execFltClearFirst_stopped {path s} (h : s.dev = .stopped) : EndsStopped (execFltClearFirst path s) := live_stopped h (by simp [h])
@[simp] theorem execTraceCfgWrite_stopped {path ch value s} (h : s.dev = .stopped) : EndsStopped (execTraceCfgWrite path ch value s) :=
  live_stopped h (by simp [h])
@[simp] theorem execTraceArm_stopped {path value s} (h : s.dev = .stopped) : EndsStopped (execTraceArm path value s) := live_stopped h (by simp [h])
@[simp] theorem execTraceFire_stopped {path value s} (h : s.dev = .stopped) : EndsStopped (execTraceFire path value s) := live_stopped h (by simp [h])
@[simp] theorem execInjFltReportGo_stopped {path value s} (h : s.dev = .stopped) : EndsStopped (execInjFltReportGo path value s) :=
  live_stopped h (by simp [h])
@[simp] theorem execInjEccGo_stopped {path value s} (h : s.dev = .stopped) : EndsStopped (execInjEccGo path value s) := live_stopped h (by simp [h])
@[simp] theorem execInjTreHaltGo_stopped {path value s} (h : s.dev = .stopped) : EndsStopped (execInjTreHaltGo path value s) := live_stopped h (by simp [h])
@[simp] theorem execInjLnkCfgWrite_stopped {path port value s} (h : s.dev = .stopped) : EndsStopped (execInjLnkCfgWrite path port value s) :=
  live_stopped h (by simp [h])
@[simp] theorem execRegisterWrite_stopped {path address value s} (h : s.dev = .stopped) : EndsStopped (execRegisterWrite path address value s) :=
  live_stopped h (by simp [h])
@[simp] theorem execUnlockExpiry_stopped {path s} (h : s.dev = .stopped) : EndsStopped (execUnlockExpiry path s) := live_stopped h (by simp [h])
@[simp] theorem execUnlockRefusalEnd_stopped {path s} (h : s.dev = .stopped) : EndsStopped (execUnlockRefusalEnd path s) := live_stopped h (by simp [h])
@[simp] theorem execDiagAccRead_stopped {address ue s} (h : s.dev = .stopped) : EndsStopped (execDiagAccRead address ue s) := by
  simp [execDiagAccRead, h]
@[simp] theorem execDiagAccWrite_stopped {address value s} (h : s.dev = .stopped) : EndsStopped (execDiagAccWrite address value s) := by
  simp [execDiagAccWrite, h]
@[simp] theorem execJtagUnlockChallenge_stopped {s} (h : s.dev = .stopped) : EndsStopped (execJtagUnlockChallenge s) := by
  simp [execJtagUnlockChallenge, h]
@[simp] theorem execJtagUnlockResponse_stopped {response s} (h : s.dev = .stopped) : EndsStopped (execJtagUnlockResponse response s) := by
  simp [execJtagUnlockResponse, h]
@[simp] theorem execJtagUnlockLock_stopped {s} (h : s.dev = .stopped) : EndsStopped (execJtagUnlockLock s) := by simp [execJtagUnlockLock, h]
@[simp] theorem execTapReset_stopped {s} (h : s.dev = .stopped) : EndsStopped (execTapReset s) := by simp [execTapReset, h]
@[simp] theorem execFuseProg_stopped {go group value vioOk s} (h : s.dev = .stopped) : EndsStopped (execFuseProg go group value vioOk s) := by
  simp [execFuseProg, h]
@[simp] theorem execExtest_stopped {drive s} (h : s.dev = .stopped) : EndsStopped (execExtest drive s) := by simp [execExtest, h]
@[simp] theorem execSamplePreload_stopped {sample preload s} (h : s.dev = .stopped) : EndsStopped (execSamplePreload sample preload s) := by
  simp [execSamplePreload, h]
@[simp] theorem execIdcode_stopped {s} (h : s.dev = .stopped) : EndsStopped (execIdcode s) := by simp [execIdcode, h]
@[simp] theorem execExtestPulse_stopped {drive s} (h : s.dev = .stopped) : EndsStopped (execExtestPulse drive s) := by simp [execExtestPulse, h]
@[simp] theorem execExtestTrain_stopped {drive s} (h : s.dev = .stopped) : EndsStopped (execExtestTrain drive s) := by simp [execExtestTrain, h]
@[simp] theorem execBypass_stopped {code s} (h : s.dev = .stopped) : EndsStopped (execBypass code s) := by simp [execBypass, h]

-- Functions of Machine/Commands.lean.
@[simp] theorem commitBank_stopped {c s} (h : s.dev = .stopped) : (commitBank c s).dev = .stopped := by simp [commitBank, h]
@[simp] theorem commitImage_stopped {c s} (h : s.dev = .stopped) : (commitImage c s).dev = .stopped := by
  simp only [commitImage]
  split
  · simp [copyInvalid, h]
  · simp [h]
@[simp] theorem microDone_stopped {arr s} (h : s.dev = .stopped) : (microDone arr s).dev = .stopped := by
  simp only [microDone]
  repeat' split
  all_goals simp [h]
@[simp] theorem beginMicro_stopped {arr s} (h : s.dev = .stopped) : (beginMicro arr s).dev = .stopped := by
  simp only [beginMicro]
  repeat' split
  all_goals simp [h]
@[simp] theorem landMicro_stopped {arr i data s} (h : s.dev = .stopped) : (landMicro arr i data s).dev = .stopped := by
  simp only [landMicro]
  repeat' split
  all_goals simp [h]
@[simp] theorem execNvmProgramDone_stopped {s} (h : s.dev = .stopped) : EndsStopped (execNvmProgramDone s) := by
  refine live_stopped h ?_
  simp only [endsStopped_next]
  repeat' split
  all_goals simp [h]
@[simp] theorem execNvmBusyTimeout_stopped {s} (h : s.dev = .stopped) : EndsStopped (execNvmBusyTimeout s) := by
  refine live_stopped h ?_
  simp only [endsStopped_next]
  repeat' split
  all_goals simp [h]
@[simp] theorem doDiagRead_stopped {arr p c ue s} (h : s.dev = .stopped) : (doDiagRead arr p c ue s).dev = .stopped := by simp [doDiagRead, h]
@[simp] theorem doDiagWrite_stopped {arr p c s} (h : s.dev = .stopped) : (doDiagWrite arr p c s).dev = .stopped := by
  simp only [doDiagWrite]
  repeat' split
  all_goals simp [h]
@[simp] theorem startCommand_stopped {arr p c x s} (h : s.dev = .stopped) : (startCommand arr p c x s).dev = .stopped := by
  simp only [startCommand]
  repeat' split
  all_goals simp [h]
@[simp] theorem arrive_stopped {p c x s} (h : s.dev = .stopped) : (arrive p c x s).dev = .stopped := by
  simp only [arrive]
  repeat' split
  all_goals simp [h]
@[simp] theorem arriveAs_stopped {op p c x s} (h : s.dev = .stopped) : EndsStopped (arriveAs op p c x s) :=
  live_stopped h ((endsStopped_next _).2 (arrive_stopped h))
@[simp] theorem arriveArg_stopped {op subs commit p c x s} (h : s.dev = .stopped) : EndsStopped (arriveArg op subs commit p c x s) := by
  simp [arriveArg, h]
@[simp] theorem execRead_stopped {p c s} (h : s.dev = .stopped) : EndsStopped (execRead p c s) := arriveAs_stopped h
@[simp] theorem execWrite_stopped {p c s} (h : s.dev = .stopped) : EndsStopped (execWrite p c s) := arriveAs_stopped h
@[simp] theorem execVerify_stopped {p c s} (h : s.dev = .stopped) : EndsStopped (execVerify p c s) := arriveAs_stopped h
@[simp] theorem execFlush_stopped {p c s} (h : s.dev = .stopped) : EndsStopped (execFlush p c s) := arriveAs_stopped h
@[simp] theorem execAbort_stopped {p c s} (h : s.dev = .stopped) : EndsStopped (execAbort p c s) := arriveAs_stopped h
@[simp] theorem execIdentify_stopped {p c s} (h : s.dev = .stopped) : EndsStopped (execIdentify p c s) := arriveAs_stopped h
@[simp] theorem execGetState_stopped {p c s} (h : s.dev = .stopped) : EndsStopped (execGetState p c s) := arriveAs_stopped h
@[simp] theorem execSetBudget_stopped {p c s} (h : s.dev = .stopped) : EndsStopped (execSetBudget p c s) := arriveAs_stopped h
@[simp] theorem execLogRead_stopped {p c s} (h : s.dev = .stopped) : EndsStopped (execLogRead p c s) := arriveAs_stopped h
@[simp] theorem execLogClear_stopped {p c s} (h : s.dev = .stopped) : EndsStopped (execLogClear p c s) := arriveAs_stopped h
@[simp] theorem execDeferredRead_stopped {p c s} (h : s.dev = .stopped) : EndsStopped (execDeferredRead p c s) := arriveAs_stopped h
@[simp] theorem execTimeSet_stopped {p c s} (h : s.dev = .stopped) : EndsStopped (execTimeSet p c s) := arriveAs_stopped h
@[simp] theorem execSpinPolicy_stopped {p c s} (h : s.dev = .stopped) : EndsStopped (execSpinPolicy p c s) := arriveArg_stopped h
@[simp] theorem execSpinUp_stopped {p c s} (h : s.dev = .stopped) : EndsStopped (execSpinUp p c s) := arriveArg_stopped h
@[simp] theorem execSpinDown_stopped {p c s} (h : s.dev = .stopped) : EndsStopped (execSpinDown p c s) := arriveArg_stopped h
@[simp] theorem execSelfCheck_stopped {p c failed s} (h : s.dev = .stopped) : EndsStopped (execSelfCheck p c failed s) := arriveAs_stopped h
@[simp] theorem execDiagRead_stopped {p c ueRegs s} (h : s.dev = .stopped) : EndsStopped (execDiagRead p c ueRegs s) := arriveAs_stopped h
@[simp] theorem execDiagWrite_stopped {p c s} (h : s.dev = .stopped) : EndsStopped (execDiagWrite p c s) := arriveAs_stopped h
@[simp] theorem execInject_stopped {p c s} (h : s.dev = .stopped) : EndsStopped (execInject p c s) := arriveAs_stopped h
@[simp] theorem execTraceControl_stopped {p c s} (h : s.dev = .stopped) : EndsStopped (execTraceControl p c s) := arriveAs_stopped h
@[simp] theorem execUcodeBankWrite_stopped {p c s} (h : s.dev = .stopped) : EndsStopped (execUcodeBankWrite p c s) := arriveArg_stopped h
@[simp] theorem execUcodeBankCommit_stopped {p c bankOk version s} (h : s.dev = .stopped) : EndsStopped (execUcodeBankCommit p c bankOk version s) := arriveArg_stopped h
@[simp] theorem execImageCopyWrite_stopped {p c s} (h : s.dev = .stopped) : EndsStopped (execImageCopyWrite p c s) := arriveArg_stopped h
@[simp] theorem execImageCopyCommit_stopped {p c s} (h : s.dev = .stopped) : EndsStopped (execImageCopyCommit p c s) := arriveArg_stopped h
@[simp] theorem execUnlockChallenge_stopped {p c s} (h : s.dev = .stopped) : EndsStopped (execUnlockChallenge p c s) := arriveArg_stopped h
@[simp] theorem execUnlockResponse_stopped {p c s} (h : s.dev = .stopped) : EndsStopped (execUnlockResponse p c s) := arriveArg_stopped h
@[simp] theorem execUnlockLock_stopped {p c s} (h : s.dev = .stopped) : EndsStopped (execUnlockLock p c s) := arriveArg_stopped h
@[simp] theorem execHandover_stopped {p c s} (h : s.dev = .stopped) : EndsStopped (execHandover p c s) := arriveAs_stopped h

-- Functions of Machine/Sessions.lean.
@[simp] theorem endCommands_stopped {p s} (h : s.dev = .stopped) : (endCommands p s).dev = .stopped := by
  simp only [endCommands, recheck_dev, each_dev, sameDev_iff, pumpRead_dev, releaseFrames_dev, modHopPort_dev, implies_true]
  exact each_stopped h fun c s h => by simp [h]
@[simp] theorem endSession_stopped {p reason s} (h : s.dev = .stopped) : (endSession p reason s).dev = .stopped := by simp [endSession, h]
@[simp] theorem takeSessionOpen_stopped {p r s} (h : s.dev = .stopped) : (takeSessionOpen p r s).dev = .stopped := by simp [takeSessionOpen, h]
@[simp] theorem execSessionOpen_stopped {p r s} (h : s.dev = .stopped) : EndsStopped (execSessionOpen p r s) := live_stopped h (by simp [h])
@[simp] theorem takeSessionClose_stopped {p sid reason s} (h : s.dev = .stopped) : (takeSessionClose p sid reason s).dev = .stopped := by
  simp [takeSessionClose, h]
@[simp] theorem execSessionClose_stopped {p sid reason s} (h : s.dev = .stopped) : EndsStopped (execSessionClose p sid reason s) :=
  live_stopped h (by simp [h])
@[simp] theorem execLinkHoldExpiry_stopped {p s} (h : s.dev = .stopped) : EndsStopped (execLinkHoldExpiry p s) := live_stopped h (by simp [h])

-- Functions of Machine/Frames.lean.
@[simp] theorem takeMicroPart_stopped {c w s} (h : s.dev = .stopped) : (takeMicroPart c w s).dev = .stopped := by simp [takeMicroPart, h]
@[simp] theorem takeWdata_stopped {p w s} (h : s.dev = .stopped) : (takeWdata p w s).dev = .stopped := by
  simp only [takeWdata]
  repeat' split
  all_goals simp [h]
@[simp] theorem execWdataReceive_stopped {p w s} (h : s.dev = .stopped) : EndsStopped (execWdataReceive p w s) := live_stopped h (by simp [h])
@[simp] theorem deliverCapsule_stopped {p c s} (h : s.dev = .stopped) : (deliverCapsule p c s).dev = .stopped := by simp [deliverCapsule, h]
@[simp] theorem deliverLctl_stopped {l f r s} (h : s.dev = .stopped) : (deliverLctl l f r s).dev = .stopped := by
  simp only [deliverLctl]
  repeat' split
  all_goals simp [h]
@[simp] theorem deliverMctl_stopped {r s} (h : s.dev = .stopped) : (deliverMctl r s).dev = .stopped := by
  simp only [deliverMctl]
  repeat' split
  all_goals simp [h, after_stopped]
@[simp] theorem deliverMdata_stopped {frame fib data s} (h : s.dev = .stopped) : (deliverMdata frame fib data s).dev = .stopped := by
  unfold deliverMdata
  split
  · exact after_stopped h (execMdata_stopped h)
  · exact dev_ite_eq (after_stopped h (execFetchReply_stopped h)) h
@[simp] theorem drainIntake_stopped {l s} (h : s.dev = .stopped) : (drainIntake l s).dev = .stopped := dev_ite_eq h (each_stopped h fun w s h => by simp [h])
@[simp] theorem deliverFrame_stopped {l f s} (h : s.dev = .stopped) : (deliverFrame l f s).dev = .stopped := by
  unfold deliverFrame
  dsimp only
  split
  · rw [returnCredit_dev]
    exact each_stopped h fun i s h => deliverCapsule_stopped h
  · exact drainIntake_stopped h
  · rw [returnCredit_dev]
    exact deliverMdata_stopped h
  · rw [returnCredit_dev]
    exact after_stopped h (execMent_stopped h)
  · rw [returnCredit_dev]
    exact each_stopped h fun i s h => by simp [h]
  · exact h
@[simp] theorem deliverHeld_stopped {l n s} (h : s.dev = .stopped) : (deliverHeld l n s).dev = .stopped := by
  induction n generalizing s with
  | zero => exact h
  | succ n ih =>
    unfold deliverHeld
    dsimp only
    split
    · exact h
    · exact ih (deliverFrame_stopped h)
@[simp] theorem takeNumbered_stopped {l f s} (h : s.dev = .stopped) : (takeNumbered l f s).dev = .stopped := by simp [takeNumbered, h]
@[simp] theorem presentFrame_stopped {l f s} (h : s.dev = .stopped) : (presentFrame l f s).dev = .stopped := by
  unfold presentFrame
  refine dev_ite_eq h ?_
  extract_lets s1 s2 s3
  have h2 : s2.dev = .stopped := by simp [s1, s2, h]
  have h3 : s3.dev = .stopped :=
    dev_ite_eq (each_stopped h2 fun i s h => by simp [h]) (dev_ite_eq (by simp [h2]) h2)
  exact dev_ite_eq (by simp [h3]) h3
@[simp] theorem ageDelayed_stopped {l s} (h : s.dev = .stopped) : (ageDelayed l s).dev = .stopped := by
  unfold ageDelayed
  exact each_stopped h fun x s h => by simp [h]
@[simp] theorem injectRx_stopped {l f s} (h : s.dev = .stopped) : (injectRx l f s).dev = .stopped := by
  simp only [injectRx]
  repeat' split
  all_goals simp [h]
@[simp] theorem execFrameReceive_stopped {l f s} (h : s.dev = .stopped) : EndsStopped (execFrameReceive l f s) := live_stopped h (by simp [h])

end Sys2Proof.Machine
end

section
/-! The statement of R8 (O56). -/

namespace Sys2Proof.Machine

/-- The release of a reset does nothing where none is asserted (R590). -/
theorem execResetRelease_stopped {o s} (h : s.dev = .stopped) (hr : s.start.inReset = false) : EndsStopped (execResetRelease o s) := by
  simp [execResetRelease, h, hr]

/-- Every command but the two resets leaves a Stopped part Stopped. -/
theorem exec_stopped {c : Instr} {s : State} (h : s.dev = .stopped) (hr : s.start.inReset = false) (hp : ∀ railsOk, c ≠ .powerOnReset railsOk)
    (hn : c ≠ .resetNAssert) : EndsStopped (exec c s) := by
  unfold exec
  cases c with
  | powerOnReset railsOk => exact absurd rfl (hp railsOk)
  | resetNAssert => exact absurd rfl hn
  | resetRelease o => exact execResetRelease_stopped h hr
  | arbitrationTimeout => exact execArbitrationTimeout_stopped h
  | refclkLoss => exact execRefclkLoss_stopped h
  | corePllUnlock => exact execCorePllUnlock_stopped h
  | lanePllUnlock pll => exact execLanePllUnlock_stopped h
  | supplyFault rail powerFailFirst => exact execSupplyFault_stopped h
  | droopTrip domain => exact execDroopTrip_stopped h
  | thermalSensorRead t => exact execThermalSensorRead_stopped h
  | slackMonitorRead ps => exact execSlackMonitorRead_stopped h
  | avsStep acked readback => exact execAvsStep_stopped h
  | avsRepeatWrite acked readback => exact execAvsRepeatWrite_stopped h
  | vin12Window c0 c1 c2 c3 => exact execVin12Window_stopped h
  | vin12SenseFault timeout reading => exact execVin12SenseFault_stopped h
  | pwrFailNLow => exact execPwrFailNLow_stopped h
  | dumpStart => exact execDumpStart_stopped h
  | dumpChunkCommit readsBack => exact execDumpChunkCommit_stopped h
  | dumpBusLow => exact execDumpBusLow_stopped h
  | pwmPeriod m => exact execPwmPeriod_stopped h
  | observerLock => exact execObserverLock_stopped h
  | observerLockLoss => exact execObserverLockLoss_stopped h
  | overcurrentRecatch => exact execOvercurrentRecatch_stopped h
  | senseFault offsets => exact execSenseFault_stopped h
  | busOvRecover => exact execBusOvRecover_stopped h
  | busUndervoltage => exact execBusUndervoltage_stopped h
  | chopperOn vbus => exact execChopperOn_stopped h
  | chopperOff vbus => exact execChopperOff_stopped h
  | chopperFault which ichop => exact execChopperFault_stopped h
  | generatorExhausted => exact execGeneratorExhausted_stopped h
  | voltageLimitFault => exact execVoltageLimitFault_stopped h
  | speedSample o => exact execSpeedSample_stopped h
  | speedSourceTimeout => exact execSpeedSourceTimeout_stopped h
  | dataWindowMean => exact execDataWindowMean_stopped h
  | dataWindowEntry => exact execDataWindowEntry_stopped h
  | dataWindowTimeout => exact execDataWindowTimeout_stopped h
  | windowEntryTimeout => exact execWindowEntryTimeout_stopped h
  | offsetMeasureDone => exact execOffsetMeasureDone_stopped h
  | catchMeasureDone => exact execCatchMeasureDone_stopped h
  | slowWaitDone => exact execSlowWaitDone_stopped h
  | slowWaitTimeout => exact execSlowWaitTimeout_stopped h
  | alignDone => exact execAlignDone_stopped h
  | observerHandoff => exact execObserverHandoff_stopped h
  | handoffTimeout => exact execHandoffTimeout_stopped h
  | catchAt1000 => exact execCatchAt1000_stopped h
  | spinupComplete => exact execSpinupComplete_stopped h
  | suTimeout => exact execSuTimeout_stopped h
  | brakeStart => exact execBrakeStart_stopped h
  | shortBrakeSwitch => exact execShortBrakeSwitch_stopped h
  | spindleStopped => exact execSpindleStopped_stopped h
  | servoWedge arm head => exact execServoWedge_stopped h
  | armCoastTimeout arm => exact execArmCoastTimeout_stopped h
  | surfaceMismatch arm head => exact execSurfaceMismatch_stopped h
  | wedgeLossRun arm head => exact execWedgeLossRun_stopped h
  | reacquireTimeout arm head => exact execReacquireTimeout_stopped h
  | strokeLimitRun arm head => exact execStrokeLimitRun_stopped h
  | readerDisagreeRun arm head => exact execReaderDisagreeRun_stopped h
  | settleTimeout arm head => exact execSettleTimeout_stopped h
  | clearanceEstimate arm head => exact execClearanceEstimate_stopped h
  | armLoad arm => exact execArmLoad_stopped h
  | loadAcquireTimeout arm => exact execLoadAcquireTimeout_stopped h
  | retractedWaitTimeout arm => exact execRetractedWaitTimeout_stopped h
  | armUnload arm => exact execArmUnload_stopped h
  | unloadComplete arm => exact execUnloadComplete_stopped h
  | unloadTimeout arm => exact execUnloadTimeout_stopped h
  | vcmDiFrame arm f => exact execVcmDiFrame_stopped h
  | vcmReload arm => exact execVcmReload_stopped h
  | vcmReloadTimeout arm => exact execVcmReloadTimeout_stopped h
  | loopExecute ctx input o => exact execLoopExecute_stopped h
  | loopSwitchTimeout ctx => exact execLoopSwitchTimeout_stopped h
  | lawReplace ctx base entries phaseMargin => exact execLawReplace_stopped h
  | sineInjectStart gen ctx amplitude frequency periods => exact execSineInjectStart_stopped h
  | traceTrigger => exact execTraceTrigger_stopped h
  | traceCaptureDone ch => exact execTraceCaptureDone_stopped h
  | sampleWord arm word => exact execSampleWord_stopped h
  | streamMark arm word => exact execStreamMark_stopped h
  | preambleSearch island slot => exact execPreambleSearch_stopped h
  | secondCandidateRebuild island => exact execSecondCandidateRebuild_stopped h
  | rawCheck island slot => exact execRawCheck_stopped h
  | rawResultHandle island => exact execRawResultHandle_stopped h
  | islandFail island why => exact execIslandFail_stopped h
  | islandReassign arm head island => exact execIslandReassign_stopped h
  | islandTablesLoaded island => exact execIslandTablesLoaded_stopped h
  | codewordTake engine => exact execCodewordTake_stopped h
  | decodeDone engine => exact execDecodeDone_stopped h
  | engineTimeout engine why => exact execEngineTimeout_stopped h
  | queueSlotUe slot => exact execQueueSlotUe_stopped h
  | headSuspendTick => exact execHeadSuspendTick_stopped h
  | headResumeTick => exact execHeadResumeTick_stopped h
  | operationGrant arm => exact execOperationGrant_stopped h
  | islandGateOff arm => exact execIslandGateOff_stopped h
  | rowBuild => exact execRowBuild_stopped h
  | dirtyAgeExpiry lba => exact execDirtyAgeExpiry_stopped h
  | pinWaitExpiry row => exact execPinWaitExpiry_stopped h
  | rowCommit row => exact execRowCommit_stopped h
  | commitRecordFlush => exact execCommitRecordFlush_stopped h
  | headFailDeclare arm head => exact execHeadFailDeclare_stopped h
  | millpondUe requester c => exact execMillpondUe_stopped h
  | migrationStart logical cause => exact execMigrationStart_stopped h
  | migrationComplete => exact execMigrationComplete_stopped h
  | scrubRead channel syndromes => exact execScrubRead_stopped h
  | sparePatternTest pass => exact execSparePatternTest_stopped h
  | dramRefresh channel => exact execDramRefresh_stopped h
  | zqCalShort channel => exact execZqCalShort_stopped h
  | descriptorPost ch d => exact execDescriptorPost_stopped h
  | descriptorStart ch => exact execDescriptorStart_stopped h
  | descriptorDone ch => exact execDescriptorDone_stopped h
  | channelHalt ch cause address element => exact execChannelHalt_stopped h
  | trePause ch => exact execTrePause_stopped h
  | treResume ch => exact execTreResume_stopped h
  | treFlush ch => exact execTreFlush_stopped h
  | treCancel ch ctx sourcePresent => exact execTreCancel_stopped h
  | treRetry ch => exact execTreRetry_stopped h
  | treRestart ch => exact execTreRestart_stopped h
  | treSkip ch => exact execTreSkip_stopped h
  | mqPacketWrite q words => exact execMqPacketWrite_stopped h
  | mqProducerTimeout q producer => exact execMqProducerTimeout_stopped h
  | mqPop q ue => exact execMqPop_stopped h
  | mqPopWatchdog q => exact execMqPopWatchdog_stopped h
  | tallyEventPost code injected source payload => exact execTallyEventPost_stopped h
  | tallyFlushTimer => exact execTallyFlushTimer_stopped h
  | tallyBlockErase => exact execTallyBlockErase_stopped h
  | faultReport rs => exact execFaultReport_stopped h
  | firstErrorCopy => exact execFirstErrorCopy_stopped h
  | quietTimerExpiry => exact execQuietTimerExpiry_stopped h
  | faultHoldRelease => exact execFaultHoldRelease_stopped h
  | failStop cause => exact execFailStop_stopped h
  | coreTrap core mem inHandler injected => exact execCoreTrap_stopped h
  | sramPatrol mem offset data check live otherBad => exact execSramPatrol_stopped h
  | flashPageRead who p sector steps => exact execFlashPageRead_stopped h
  | flashProgram who p first sectors => exact execFlashProgram_stopped h
  | flashProgramDone bank ok => exact execFlashProgramDone_stopped h
  | flashErase who kind bank block => exact execFlashErase_stopped h
  | flashEraseDone bank ok => exact execFlashEraseDone_stopped h
  | blockRefresh bank block => exact execBlockRefresh_stopped h
  | fetchLookup q addr access ue steps => exact execFetchLookup_stopped h
  | fetchFill => exact execFetchFill_stopped h
  | fillComplete steps => exact execFillComplete_stopped h
  | prefetchIssue q => exact execPrefetchIssue_stopped h
  | invalLine core addr => exact execInvalLine_stopped h
  | invalRange core base lines => exact execInvalRange_stopped h
  | invalAll core => exact execInvalAll_stopped h
  | lock core addr => exact execLock_stopped h
  | unlock core addr => exact execUnlock_stopped h
  | unlockAll core => exact execUnlockAll_stopped h
  | alkTrainAttempt arm upFail downFail reachesExchange => exact execAlkTrainAttempt_stopped h
  | alkTrainTimeout arm => exact execAlkTrainTimeout_stopped h
  | alkTrainRetry arm => exact execAlkTrainRetry_stopped h
  | identity arm word => exact execIdentity_stopped h
  | alkLaneErrorWindow arm up lane corrected uncorrectable => exact execAlkLaneErrorWindow_stopped h
  | alkLaneLockLoss arm up lane => exact execAlkLaneLockLoss_stopped h
  | alkUplinkUncorr arm lane streams => exact execAlkUplinkUncorr_stopped h
  | alkUplinkSilence arm => exact execAlkUplinkSilence_stopped h
  | portStatusTimeout arm => exact execPortStatusTimeout_stopped h
  | ackTimeout arm seq => exact execAckTimeout_stopped h
  | ackTelemetry arm word => exact execAckTelemetry_stopped h
  | tempTelemetry arm word => exact execTempTelemetry_stopped h
  | sensorUnreported sensor => exact execSensorUnreported_stopped h
  | laserMon arm word => exact execLaserMon_stopped h
  | heaterMon arm word => exact execHeaterMon_stopped h
  | readerMon arm word => exact execReaderMon_stopped h
  | supplyTelemetry arm word => exact execSupplyTelemetry_stopped h
  | wfifoTelemetry arm word => exact execWfifoTelemetry_stopped h
  | faultTelemetry arm word => exact execFaultTelemetry_stopped h
  | portStatus arm word => exact execPortStatus_stopped h
  | telemetryUndefined arm word => exact execTelemetryUndefined_stopped h
  | lnkTrainAttempt l rxFail txFail peerPresent => exact execLnkTrainAttempt_stopped h
  | lnkTrainTimeout l => exact execLnkTrainTimeout_stopped h
  | lnkTrainRetry l => exact execLnkTrainRetry_stopped h
  | frameReceive l f => exact execFrameReceive_stopped h
  | wdataReceive p w => exact execWdataReceive_stopped h
  | gapTimerExpiry l => exact execGapTimerExpiry_stopped h
  | replayTimerExpiry l seq => exact execReplayTimerExpiry_stopped h
  | ackDelayExpiry l => exact execAckDelayExpiry_stopped h
  | idleKeepalive l => exact execIdleKeepalive_stopped h
  | linkRxSilence l => exact execLinkRxSilence_stopped h
  | lnkLaneErrorWindow l lane corrected uncorrectable => exact execLnkLaneErrorWindow_stopped h
  | lnkLaneLockLoss l lane => exact execLnkLaneLockLoss_stopped h
  | laneMapRepeat l => exact execLaneMapRepeat_stopped h
  | sessionOpen p r => exact execSessionOpen_stopped h
  | sessionClose p sid reason => exact execSessionClose_stopped h
  | nak l seqs => exact execNak_stopped h
  | keepalive l => exact execKeepalive_stopped h
  | laneMap l lane reason => exact execLaneMap_stopped h
  | laneMapDone l lane => exact execLaneMapDone_stopped h
  | linkHoldExpiry p => exact execLinkHoldExpiry_stopped h
  | cplFrameSend p => exact execCplFrameSend_stopped h
  | rdataFrameSend p => exact execRdataFrameSend_stopped h
  | writeGrant => exact execWriteGrant_stopped h
  | wdataTimeout p tag => exact execWdataTimeout_stopped h
  | holdLimitExpiry p tag => exact execHoldLimitExpiry_stopped h
  | read p c => exact execRead_stopped h
  | write p c => exact execWrite_stopped h
  | verify p c => exact execVerify_stopped h
  | flush p c => exact execFlush_stopped h
  | abort p c => exact execAbort_stopped h
  | identify p c => exact execIdentify_stopped h
  | getState p c => exact execGetState_stopped h
  | setBudget p c => exact execSetBudget_stopped h
  | logRead p c => exact execLogRead_stopped h
  | logClear p c => exact execLogClear_stopped h
  | deferredRead p c => exact execDeferredRead_stopped h
  | timeSet p c => exact execTimeSet_stopped h
  | spinPolicy p c => exact execSpinPolicy_stopped h
  | spinUp p c => exact execSpinUp_stopped h
  | spinDown p c => exact execSpinDown_stopped h
  | selfCheck p c failed => exact execSelfCheck_stopped h
  | diagRead p c ueRegs => exact execDiagRead_stopped h
  | diagWrite p c => exact execDiagWrite_stopped h
  | inject p c => exact execInject_stopped h
  | traceControl p c => exact execTraceControl_stopped h
  | ucodeBankWrite p c => exact execUcodeBankWrite_stopped h
  | ucodeBankCommit p c bankOk version => exact execUcodeBankCommit_stopped h
  | imageCopyWrite p c => exact execImageCopyWrite_stopped h
  | imageCopyCommit p c => exact execImageCopyCommit_stopped h
  | unlockChallenge p c => exact execUnlockChallenge_stopped h
  | unlockResponse p c => exact execUnlockResponse_stopped h
  | unlockLock p c => exact execUnlockLock_stopped h
  | unlockExpiry path => exact execUnlockExpiry_stopped h
  | unlockRefusalEnd path => exact execUnlockRefusalEnd_stopped h
  | handover p c => exact execHandover_stopped h
  | budgetPwmPeriod period high => exact execBudgetPwmPeriod_stopped h
  | budgetPwmSilence => exact execBudgetPwmSilence_stopped h
  | bpwmHoldExpiry => exact execBpwmHoldExpiry_stopped h
  | pwmRiseSettle => exact execPwmRiseSettle_stopped h
  | hourlyEvaluation loops eyes => exact execHourlyEvaluation_stopped h
  | replan k loc value second phaseMargin => exact execReplan_stopped h
  | horizonCompute day => exact execHorizonCompute_stopped h
  | windingREstimate => exact execWindingREstimate_stopped h
  | slackPeriodEval => exact execSlackPeriodEval_stopped h
  | laneEyeEval l lane eyeH eyeV => exact execLaneEyeEval_stopped h
  | heartbeatTick served => exact execHeartbeatTick_stopped h
  | partnerWindow toggles frames activeIn => exact execPartnerWindow_stopped h
  | partnerHungRecheck toggles frames activeIn => exact execPartnerHungRecheck_stopped h
  | activeInFall => exact execActiveInFall_stopped h
  | takeoverResume => exact execTakeoverResume_stopped h
  | arbitrate r => exact execArbitrate_stopped h
  | heartbeat standby state time dirty => exact execHeartbeat_stopped h
  | mdata frame fib data => exact execMdata_stopped h
  | ment es => exact execMent_stopped h
  | confirm frames => exact execConfirm_stopped h
  | cmdCtx p tag arrival opcode lba count => exact execCmdCtx_stopped h
  | ptnCpl p r => exact execPtnCpl_stopped h
  | cplAcked p tag arrival => exact execCplAcked_stopped h
  | ptnRowCommit row time => exact execPtnRowCommit_stopped h
  | ptnLayout r => exact execPtnLayout_stopped h
  | ptnPlan r => exact execPtnPlan_stopped h
  | ptnDeferred r => exact execPtnDeferred_stopped h
  | ptnFailstop cause => exact execPtnFailstop_stopped h
  | handoverRequest reason => exact execHandoverRequest_stopped h
  | handoverReleased reason => exact execHandoverReleased_stopped h
  | handoverActive reason => exact execHandoverActive_stopped h
  | resyncStart frames => exact execResyncStart_stopped h
  | resyncDone frames => exact execResyncDone_stopped h
  | fetchRequest frame vseq => exact execFetchRequest_stopped h
  | fetchReply frame vseq data => exact execFetchReply_stopped h
  | replayReadDone area unreadable => exact execReplayReadDone_stopped h
  | dumpRetire area => exact execDumpRetire_stopped h
  | loadingComplete => exact execLoadingComplete_stopped h
  | fltClearCounts path => exact execFltClearCounts_stopped h
  | fltClearFirst path => exact execFltClearFirst_stopped h
  | traceCfgWrite path ch value => exact execTraceCfgWrite_stopped h
  | traceArm path value => exact execTraceArm_stopped h
  | traceFire path value => exact execTraceFire_stopped h
  | injFltReportGo path value => exact execInjFltReportGo_stopped h
  | injEccGo path value => exact execInjEccGo_stopped h
  | injTreHaltGo path value => exact execInjTreHaltGo_stopped h
  | injLnkCfgWrite path port value => exact execInjLnkCfgWrite_stopped h
  | registerWrite path address value => exact execRegisterWrite_stopped h
  | diagAccRead address ue => exact execDiagAccRead_stopped h
  | diagAccWrite address value => exact execDiagAccWrite_stopped h
  | jtagUnlockChallenge => exact execJtagUnlockChallenge_stopped h
  | jtagUnlockResponse response => exact execJtagUnlockResponse_stopped h
  | jtagUnlockLock => exact execJtagUnlockLock_stopped h
  | tapReset => exact execTapReset_stopped h
  | fuseProg go group value vioOk => exact execFuseProg_stopped h
  | extest drive => exact execExtest_stopped h
  | samplePreload sample preload => exact execSamplePreload_stopped h
  | idcode => exact execIdcode_stopped h
  | extestPulse drive => exact execExtestPulse_stopped h
  | extestTrain drive => exact execExtestTrain_stopped h
  | bypass code => exact execBypass_stopped h
  | stoppedArbitrateTick => exact execStoppedArbitrateTick_stopped h
  | nvmProgramDone => exact execNvmProgramDone_stopped h
  | nvmBusyTimeout => exact execNvmBusyTimeout_stopped h
  | spareChannelTrainingLoss => exact execSpareChannelTrainingLoss_stopped h
  | pwrFailNHigh => exact execPwrFailNHigh_stopped h

/-- Settles O56: no command but the power-on reset and RESET_N takes the part out of Stopped, by cases on the command. -/
theorem stoppedIsLeftByResetAlone : Obligations.StoppedIsLeftByResetAlone := by
  unfold Obligations.StoppedIsLeftByResetAlone
  intro c s t h hr hexec hp hn
  exact exec_stopped h hr hp hn t hexec

end Sys2Proof.Machine
end

section
/-! The statement of R371 (O37). It fails where an ABORT waits for a tag that no command of its port holds: a refused capsule that brings the tag ends that
ABORT as well (R386), and with a SYNCED partner the ABORT's completion goes to the partner first (R399), so that a frame is sent. The statement ranges over
every state, and with that over such an ABORT, which `beginAbort` does not make: there, an ABORT waits for a command of its port that has not completed. -/

namespace Sys2Proof.Machine

/-- An admitted ABORT on port A that waits for the completion of tag 7. -/
def strayAbort : Cmd := { arrival := 3, cap := { opcode := 0x05, tag := 9, arg32 := 7 }, phase := .waiting }
/-- A part in Ready that drives for a SYNCED partner whose link has credit; port A is in session, and the stray ABORT is its one command. -/
def strayAbortState : State := {
  dev := .ready, start := { inReset := false, powerOnReset := false }, ptn := { role := 1, synced := true },
  links := [(0, { link := 2, session := 1 }), (2, { link := 2, credit := [(1, 1)] })], hop := { cmds := [strayAbort], nextArrival := 50 } }
/-- A READ of no blocks under tag 7. -/
def emptyRead : Capsule := { opcode := 0x01, tag := 7 }

/-- The capsule is a new command of its port: tag 7 is free. -/
theorem strayAbortState_arrives : Arrives strayAbortState .A emptyRead := by
  unfold Arrives
  decide
/-- It fails at step 6 of Table 12.4, so that it is refused. -/
theorem strayAbortState_admissionFault : admissionFault strayAbortState .A emptyRead = some (0x12, 0) := by decide
/-- The completion that the refused capsule brings to the stray ABORT is mirrored: it is the frame that the partner link sends. -/
theorem strayAbortState_read_sends : ∃ t, exec (.read .A emptyRead) strayAbortState = .next t ∧
    t.tx = [.frame 2 0 (.mirror (.cpl 0 { tag := 9, status := 0x31, opcode := 0x05, arrival := 3, info := 7 })) (-1) 1 0 none] :=
  ⟨arrive .A emptyRead {} strayAbortState, rfl, by decide⟩

/-- Refutes O37: in `strayAbortState` the refused `emptyRead` ends the ABORT that waits for its tag, whose mirrored completion is sent to the partner, so
that the clause `t.tx = s.tx` of a refused capsule fails. -/
theorem not_capsulesAreChecked : ¬ Obligations.CapsulesAreChecked := by
  unfold Obligations.CapsulesAreChecked
  intro h
  obtain ⟨t, hexec, -, -, -, hrefused, -⟩ :=
    h strayAbortState (by decide) .A emptyRead 0 [] true 0 (.read .A emptyRead) List.mem_cons_self (by decide)
  obtain ⟨-, -, -, -, -, -, htx⟩ := hrefused strayAbortState_arrives _ _ strayAbortState_admissionFault
  obtain ⟨u, hu, hsent⟩ := strayAbortState_read_sends
  obtain rfl : t = u := Host.Outcome.next.inj (hexec.symm.trans hu)
  have hnone : t.tx = [] := htx
  simp [hnone] at hsent

end Sys2Proof.Machine
end

section
/-! The counts of the fault collector (O58, R514). Of the functions that a report runs through, `countReport` alone writes the counts: what posts events, sends
to message queues, ends visits or triggers a trace leaves the collector as it is, and the first-error record and Fault-hold are other fields of it. The
lemmas stand in the order of the functions in the model; then the counts of one source, real or injected, are the fold of `countIn` over its reports. -/

namespace Sys2Proof.Machine

-- The whole collector, under what never writes it.

@[simp] theorem flt_ite (c : Prop) [Decidable c] (a b : State) : (if c then a else b).flt = if c then a.flt else b.flt := apply_ite State.flt c a b
/-- Both branches of a choice leave the collector as `f`, and so does the choice. -/
theorem flt_ite_eq {c : Prop} [Decidable c] {a b : State} {f : Flt} (ha : a.flt = f) (hb : b.flt = f) : (if c then a else b).flt = f := by
  rw [flt_ite, ha, hb, ite_self]
theorem each_flt {α : Type} {xs : List α} {f : α → State → State} {s : State} (h : ∀ x s, (f x s).flt = s.flt) : (each xs f s).flt = s.flt :=
  each_proj State.flt xs f s h

-- Functions of Machine/Ops.lean.
@[simp] theorem modTrace_flt (s c f) : (modTrace s c f).flt = s.flt := rfl
@[simp] theorem modSine_flt (s g f) : (modSine s g f).flt = s.flt := rfl
@[simp] theorem freeInner_flt (p s) : (freeInner p s).flt = s.flt := rfl
@[simp] theorem nextFree_flt (s) : (nextFree s).flt = s.flt := rfl
@[simp] theorem send_flt (t s) : (send t s).flt = s.flt := rfl
@[simp] theorem traceFire_flt (s) : (traceFire s).flt = s.flt := flt_ite_eq (each_flt fun _ _ => modTrace_flt ..) rfl
@[simp] theorem stageRecord_flt (r s) : (stageRecord r s).flt = s.flt := rfl
@[simp] theorem programSector_flt (s) : (programSector s).flt = s.flt := by simp only [programSector, stageRecord_flt, flt_ite, ite_self]
@[simp] theorem programIfDue_flt (s) : (programIfDue s).flt = s.flt := by
  have hloop (n : Nat) : (each (List.range n) (fun _ s => programSector s) s).flt = s.flt := each_flt fun _ s => programSector_flt s
  simp only [programIfDue, hloop, programSector_flt, flt_ite, ite_self]
@[simp] theorem setBucket_flt (s code inj b) : (setBucket s code inj b).flt = s.flt := rfl
@[simp] theorem takeEvent_flt (r s) : (takeEvent r s).flt = s.flt := by
  unfold takeEvent
  refine flt_ite_eq (flt_ite_eq rfl rfl) (flt_ite_eq rfl ?_)
  extract_lets b
  refine flt_ite_eq ?_ (flt_ite_eq ?_ (setBucket_flt ..))
  · rw [programIfDue_flt, stageRecord_flt]
  · rw [programIfDue_flt, stageRecord_flt, setBucket_flt]
@[simp] theorem postInj_flt (inj code source fs s) : (postInj inj code source fs s).flt = s.flt := by
  simp only [postInj, takeEvent_flt, traceFire_flt, flt_ite, ite_self]
@[simp] theorem post_flt (code source fs s) : (post code source fs s).flt = s.flt := postInj_flt ..
@[simp] theorem mqTake_flt (q s) : (mqTake q s).flt = s.flt := by
  unfold mqTake
  split
  · rfl
  · rw [modMq_flt, send_flt]
@[simp] theorem mqAppend_flt (q ws s) : (mqAppend q ws s).flt = s.flt := by simp only [mqAppend, mqTake_flt, modMq_flt, send_flt, flt_ite, ite_self]
@[simp] theorem mqSend_flt (q ws s) : (mqSend q ws s).flt = s.flt := by simp only [mqSend, mqAppend_flt, modMq_flt, flt_ite, ite_self]

-- Functions of Machine/OpsMotion.lean.
@[simp] theorem alkPut_flt (a m s) : (alkPut a m s).flt = s.flt := rfl
@[simp] theorem alkSend_flt (a type head imm apply payload s) : (alkSend a type head imm apply payload s).flt = s.flt := by
  simp only [alkSend, alkPut_flt, modAlk_flt, flt_ite, ite_self]
@[simp] theorem sendMode_flt (a h mode raw s) : (sendMode a h mode raw s).flt = s.flt := by simp only [sendMode, alkSend_flt, modHead_flt]
@[simp] theorem sendLaser_flt (a h op bias lead s) : (sendLaser a h op bias lead s).flt = s.flt := by simp only [sendLaser, alkSend_flt, modHead_flt]
@[simp] theorem gateIsland_flt (n s) : (gateIsland n s).flt = s.flt := rfl
@[simp] theorem laserOff_flt (a h write s) : (laserOff a h write s).flt = s.flt := by simp only [laserOff, sendLaser_flt, modHead_flt, flt_ite, ite_self]
@[simp] theorem restHead_flt (a h write s) : (restHead a h write s).flt = s.flt := by
  simp only [restHead, laserOff_flt, sendMode_flt, gateIsland_flt, flt_ite, ite_self]

-- Functions of Machine/OpsHost.lean and Machine/Stops.lean.
@[simp] theorem mqNote_flt (q s) : (mqNote q s).flt = s.flt := by simp only [mqNote, mqSend_flt, nextFree_flt]
@[simp] theorem cutVisit_flt (a s) : (cutVisit a s).flt = s.flt := by
  have hrest (hs : List Nat) (write : Bool) (t : State) : (each hs (fun h s => restHead a h write s) t).flt = t.flt := each_flt fun _ _ => restHead_flt ..
  unfold cutVisit
  split
  · rfl
  · simp only [hrest, post_flt, freeInner_flt, flt_ite, ite_self]
@[simp] theorem endVisits_flt (s) : (endVisits s).flt = s.flt := by
  have hvisits (t : State) : (each (List.range 8) cutVisit t).flt = t.flt := each_flt cutVisit_flt
  simp only [endVisits, hvisits]
  exact each_flt fun _ _ => flt_ite_eq (modSine_flt ..) rfl

-- The counts of one source.

/-- The counts of the injected reports or of the real ones: FLT_CNT_INJ or FLT_CNT_REAL (Table 17.12). -/
def countsOf (injected : Bool) (f : Flt) : FaultCounts := if injected then f.inj else f.real
/-- Counts after the reports of one source, in their order. -/
def countSource (injected : Bool) (rs : List Report) (c : FaultCounts) : FaultCounts :=
  (rs.filter fun r => r.injected == injected).foldl (fun c r => countIn c r.cause.toNat) c

/-- A report advances the counts of its own source alone. -/
theorem countsOf_countReport (injected : Bool) (r : Report) (s : State) :
    countsOf injected (countReport r s).flt = countSource injected [r] (countsOf injected s.flt) := by
  cases injected <;> cases h : r.injected <;> simp [countsOf, countSource, countReport, h]
theorem countSource_cons (injected : Bool) (r : Report) (rs : List Report) (c : FaultCounts) :
    countSource injected (r :: rs) c = countSource injected rs (countSource injected [r] c) := by
  simp only [countSource, ← List.foldl_append, ← List.filter_append, List.singleton_append]
theorem countsOf_countReports (injected : Bool) (rs : List Report) (s : State) :
    countsOf injected (each rs (fun r s => mqNote 20 (countReport r s)) s).flt = countSource injected rs (countsOf injected s.flt) := by
  induction rs generalizing s with
  | nil => rfl
  | cons r rs ih =>
    calc countsOf injected (each rs (fun r s => mqNote 20 (countReport r s)) (mqNote 20 (countReport r s))).flt
      _ = countSource injected rs (countsOf injected (mqNote 20 (countReport r s)).flt) := ih _
      _ = countSource injected rs (countSource injected [r] (countsOf injected s.flt)) := by rw [mqNote_flt, countsOf_countReport]
      _ = countSource injected (r :: rs) (countsOf injected s.flt) := (countSource_cons ..).symm
/-- The first-error record stands beside the counts. -/
theorem countsOf_captureFirst (injected : Bool) (rs : List Report) (s : State) :
    countsOf injected (captureFirst rs s).flt = countsOf injected s.flt := by
  unfold captureFirst
  extract_lets cs
  split
  · rfl
  · split
    · rw [flt_ite, traceFire_flt, ite_self]; rfl
    · split <;> rfl
/-- So does what Fault-hold keeps. -/
theorem countsOf_enterHold (injected : Bool) (event : BitVec 8) (inj : Bool) (s : State) :
    countsOf injected (enterHold event inj s).flt = countsOf injected s.flt := by
  unfold enterHold
  split
  · rw [post_flt, endVisits_flt]; rfl
  · split <;> rfl
/-- The reports of one cycle advance the counts of each source by that source's reports. -/
theorem countsOf_reportAll (injected : Bool) (rs : List Report) (s : State) :
    countsOf injected (reportAll rs s).flt = countSource injected rs (countsOf injected s.flt) := by
  have hholds (t : State) : countsOf injected (each (rs.filter (·.hold)) (fun r s => enterHold r.event r.injected s) t).flt = countsOf injected t.flt :=
    each_proj (fun s => countsOf injected s.flt) _ _ t fun r s => countsOf_enterHold injected r.event r.injected s
  rw [reportAll, hholds, countsOf_captureFirst, countsOf_countReports]
/-- Reports of the other source alone leave the counts. -/
theorem countSource_of_other (injected : Bool) {rs : List Report} (h : ∀ r ∈ rs, r.injected ≠ injected) (c : FaultCounts) :
    countSource injected rs c = c := by
  have hnone : (rs.filter fun r => r.injected == injected) = [] := by simpa using h
  rw [countSource, hnone, List.foldl_nil]

-- Saturation.

theorem satInc_lt (w n : Nat) : satInc w n < 2 ^ w := by
  have := Nat.two_pow_pos w
  unfold satInc
  omega
theorem satAdd_zero {w n : Nat} (h : n < 2 ^ w) : satAdd w n 0 = n := by
  unfold satAdd
  omega
theorem satAdd_satInc (w n k : Nat) : satAdd w (satInc w n) k = satAdd w n (k + 1) := by
  unfold satAdd satInc
  omega

/-- A field of `w` bits that `countIn` advances for the causes in `p`. -/
def FieldCounts (w : Nat) (p : Nat → Bool) (field : FaultCounts → Nat) : Prop :=
  ∀ c k, field (countIn c k) = if p k then satInc w (field c) else field c

/-- The four fields of Table 17.12, by the branches of `countIn`. -/
theorem countIn_fieldCounts : FieldCounts 24 (fun k => k = 1) FaultCounts.corrected ∧
    FieldCounts 16 (fun k => k = 2 || k = 4 || k = 6) FaultCounts.uncorrected ∧ FieldCounts 12 (fun k => k = 3) FaultCounts.bus ∧
    FieldCounts 12 (fun k => !(k = 1 || k = 2 || k = 3 || k = 4 || k = 6)) FaultCounts.other := by
  simp only [FieldCounts, ← forall_and]
  intro c k
  unfold countIn
  split
  · next hcorrected => simp [hcorrected]
  · split
    · next huncorrected =>
      have hk : k = 2 ∨ k = 4 ∨ k = 6 := by simpa [or_assoc] using huncorrected
      rcases hk with rfl | rfl | rfl <;> simp
    · split
      · next hbus => simp [hbus]
      · simp_all

/-- Such a field counts the source's reports of those causes, and saturates. -/
theorem FieldCounts.saturates {w : Nat} {p : Nat → Bool} {field : FaultCounts → Nat} (hf : FieldCounts w p field) (injected : Bool) (rs : List Report)
    {c : FaultCounts} (hc : field c < 2 ^ w) :
    field (countSource injected rs c) = satAdd w (field c) (rs.filter fun r => r.injected == injected && p r.cause.toNat).length := by
  induction rs generalizing c with
  | nil => exact (satAdd_zero hc).symm
  | cons r rs ih =>
    by_cases hsrc : r.injected = injected
    · have hone : countSource injected [r] c = countIn c r.cause.toNat := by simp [countSource, hsrc]
      rw [countSource_cons, hone]
      by_cases hp : p r.cause.toNat = true
      · have hinc : field (countIn c r.cause.toNat) = satInc w (field c) := by rw [hf, if_pos hp]
        rw [ih (hinc ▸ satInc_lt ..), hinc, satAdd_satInc]
        simp [hsrc, hp]
      · have hsame : field (countIn c r.cause.toNat) = field c := by rw [hf, if_neg hp]
        rw [ih (hsame ▸ hc), hsame]
        simp [hp]
    · have hskip : countSource injected [r] c = c := countSource_of_other injected (by simpa using hsrc) c
      rw [countSource_cons, hskip, ih hc]
      simp [hsrc]

/-- Every field of one source's counts, with its width and causes of Table 17.12. -/
theorem countSource_saturates (injected : Bool) (rs : List Report) (c : FaultCounts) :
    let n (p : Nat → Bool) := (rs.filter fun r => r.injected == injected && p r.cause.toNat).length
    c.corrected < 2 ^ 24 → c.uncorrected < 2 ^ 16 → c.bus < 2 ^ 12 → c.other < 2 ^ 12 →
      (countSource injected rs c).corrected = satAdd 24 c.corrected (n fun k => k = 1) ∧
      (countSource injected rs c).uncorrected = satAdd 16 c.uncorrected (n fun k => k = 2 || k = 4 || k = 6) ∧
      (countSource injected rs c).bus = satAdd 12 c.bus (n fun k => k = 3) ∧
      (countSource injected rs c).other = satAdd 12 c.other (n fun k => !(k = 1 || k = 2 || k = 3 || k = 4 || k = 6)) := by
  obtain ⟨hcorrected, huncorrected, hbus, hother⟩ := countIn_fieldCounts
  exact fun h24 h16 h12 h12' =>
    ⟨hcorrected.saturates injected rs h24, huncorrected.saturates injected rs h16, hbus.saturates injected rs h12, hother.saturates injected rs h12'⟩

/-- Settles O58: `countsOf_reportAll` gives the counts of each source as a fold over its reports, and `countSource_saturates` each field of that fold. -/
theorem reportsAreCountedBySource : Obligations.ReportsAreCountedBySource := by
  unfold Obligations.ReportsAreCountedBySource
  intro s hs rs
  have hreal : (reportAll rs s).flt.real = countSource false rs s.flt.real := countsOf_reportAll false rs s
  have hinj : (reportAll rs s).flt.inj = countSource true rs s.flt.inj := countsOf_reportAll true rs s
  refine ⟨reportAll rs s, if_pos hs, ?_⟩
  beta_reduce
  rw [hreal, hinj]
  refine ⟨countSource_saturates false rs _, countSource_saturates true rs _, fun hall => ?_, fun hall => ?_⟩
  · exact countSource_of_other false (by simpa using hall) _
  · exact countSource_of_other true (by simpa using hall) _

end Sys2Proof.Machine
end

section
/-! Which units a function of the model may change (O53), with the facts that ride along: the memories' canonical form (O51), what has been
sent stays sent, and the write data that waits for its intake channels (O50) stays. `Only m s t` says of the next state `t` that it is `s` outside the units of `m`; such facts compose. -/

namespace Sys2Proof.Machine

/-- A set of the state's units; `intake` stands for the write data of the links that waits, beside `links`. -/
structure Units where
  dev : Bool := false
  aon : Bool := false
  start : Bool := false
  idn : Bool := false
  fuses : Bool := false
  clk : Bool := false
  pwr : Bool := false
  flt : Bool := false
  evt : Bool := false
  mqs : Bool := false
  ptn : Bool := false
  hold : Bool := false
  diag : Bool := false
  img : Bool := false
  nvm : Bool := false
  layout : Bool := false
  alks : Bool := false
  islands : Bool := false
  bol : Bool := false
  heads : Bool := false
  arms : Bool := false
  gov : Bool := false
  spn : Bool := false
  spc : Bool := false
  mrc : Bool := false
  mpd : Bool := false
  rows : Bool := false
  tre : Bool := false
  fls : Bool := false
  fcc : Bool := false
  links : Bool := false
  injs : Bool := false
  hop : Bool := false
  slu : Bool := false
  fan : Bool := false
  tx : Bool := false
  free : Bool := false
  pending : Bool := false
  intake : Bool := false

/-- Every unit of `a` is one of `b`. -/
def Units.le : Units → Units → Bool
  | ⟨dev, aon, start, idn, fuses, clk, pwr, flt, evt, mqs, ptn, hold, diag, img, nvm, layout, alks, islands, bol, heads, arms, gov, spn, spc, mrc, mpd, rows, tre, fls, fcc, links, injs, hop, slu, fan, tx, free, pending, intake⟩,
    ⟨dev', aon', start', idn', fuses', clk', pwr', flt', evt', mqs', ptn', hold', diag', img', nvm', layout', alks', islands', bol', heads', arms', gov', spn', spc', mrc', mpd', rows', tre', fls', fcc', links', injs', hop', slu', fan', tx', free', pending', intake'⟩ =>
    (!dev || dev') && (!aon || aon') && (!start || start') && (!idn || idn') && (!fuses || fuses') && (!clk || clk') && (!pwr || pwr') && (!flt || flt') && (!evt || evt') && (!mqs || mqs') && (!ptn || ptn') && (!hold || hold') && (!diag || diag') && (!img || img') && (!nvm || nvm') && (!layout || layout') && (!alks || alks') && (!islands || islands') && (!bol || bol') && (!heads || heads') && (!arms || arms') && (!gov || gov') && (!spn || spn') && (!spc || spc') && (!mrc || mrc') && (!mpd || mpd') && (!rows || rows') && (!tre || tre') && (!fls || fls') && (!fcc || fcc') && (!links || links') && (!injs || injs') && (!hop || hop') && (!slu || slu') && (!fan || fan') && (!tx || tx') && (!free || free') && (!pending || pending') && (!intake || intake')

/-- `x`, or `d` in its place. -/
@[reducible] def blank {α : Type} (b : Bool) (d x : α) : α := match b with | true => d | false => x
/-- Every unit but those of `m`. -/
@[reducible] def Units.but (m : Units) : Units where
  dev := blank m.dev false true
  aon := blank m.aon false true
  start := blank m.start false true
  idn := blank m.idn false true
  fuses := blank m.fuses false true
  clk := blank m.clk false true
  pwr := blank m.pwr false true
  flt := blank m.flt false true
  evt := blank m.evt false true
  mqs := blank m.mqs false true
  ptn := blank m.ptn false true
  hold := blank m.hold false true
  diag := blank m.diag false true
  img := blank m.img false true
  nvm := blank m.nvm false true
  layout := blank m.layout false true
  alks := blank m.alks false true
  islands := blank m.islands false true
  bol := blank m.bol false true
  heads := blank m.heads false true
  arms := blank m.arms false true
  gov := blank m.gov false true
  spn := blank m.spn false true
  spc := blank m.spc false true
  mrc := blank m.mrc false true
  mpd := blank m.mpd false true
  rows := blank m.rows false true
  tre := blank m.tre false true
  fls := blank m.fls false true
  fcc := blank m.fcc false true
  links := blank m.links false true
  injs := blank m.injs false true
  hop := blank m.hop false true
  slu := blank m.slu false true
  fan := blank m.fan false true
  tx := blank m.tx false true
  free := blank m.free false true
  pending := blank m.pending false true
  intake := blank m.intake false true
/-- The state with the units of `m` blanked out: two states that agree here agree outside `m`. -/
@[reducible] def State.without (m : Units) (s : State) : State where
  dev := blank m.dev .unconfigured s.dev
  aon := blank m.aon {} s.aon
  start := blank m.start {} s.start
  idn := blank m.idn {} s.idn
  fuses := blank m.fuses {} s.fuses
  clk := blank m.clk {} s.clk
  pwr := blank m.pwr {} s.pwr
  flt := blank m.flt {} s.flt
  evt := blank m.evt {} s.evt
  mqs := blank m.mqs [] s.mqs
  ptn := blank m.ptn {} s.ptn
  hold := blank m.hold {} s.hold
  diag := blank m.diag {} s.diag
  img := blank m.img {} s.img
  nvm := blank m.nvm {} s.nvm
  layout := blank m.layout {} s.layout
  alks := blank m.alks [] s.alks
  islands := blank m.islands [] s.islands
  bol := blank m.bol {} s.bol
  heads := blank m.heads [] s.heads
  arms := blank m.arms [] s.arms
  gov := blank m.gov {} s.gov
  spn := blank m.spn {} s.spn
  spc := blank m.spc {} s.spc
  mrc := blank m.mrc {} s.mrc
  mpd := blank m.mpd {} s.mpd
  rows := blank m.rows [] s.rows
  tre := blank m.tre {} s.tre
  fls := blank m.fls {} s.fls
  fcc := blank m.fcc {} s.fcc
  links := blank m.links [] s.links
  injs := blank m.injs [] s.injs
  hop := blank m.hop {} s.hop
  slu := blank m.slu {} s.slu
  fan := blank m.fan {} s.fan
  tx := blank m.tx [] s.tx
  free := blank m.free 0 s.free
  pending := blank m.pending [] s.pending

/-- The write data that waits at each link is the same. -/
def IntakeKept (s t : State) : Prop := ∀ l, (getLink t l).intake = (getLink s l).intake
theorem IntakeKept.refl (s : State) : IntakeKept s s := fun _ => rfl
theorem IntakeKept.trans {s t u : State} (h : IntakeKept s t) (k : IntakeKept t u) : IntakeKept s u := fun l => (k l).trans (h l)
theorem IntakeKept.of_eq {s t : State} (h : t.links = s.links := by with_reducible rfl) : IntakeKept s t := fun l => by rw [getLink, getLink, h]

/-- `t` is `s` outside the units of `m`, canonical where `s` is, and has sent what `s` has. -/
structure Only (m : Units) (s t : State) : Prop where
  same : t.without m = s.without m
  kept : m.intake = false → IntakeKept s t
  mem : s.memWf = true → t.memWf = true
  sent : s.tx <+: t.tx

theorem Only.refl {m : Units} {s : State} : Only m s s := ⟨rfl, fun _ => .refl s, id, List.prefix_rfl⟩

/-- Blanking out what a larger set blanks out again adds nothing. -/
theorem cond_absorb {α : Type} {a b : Bool} {x y : α} (h : a = false ∨ b = true) : blank b x (blank a x y) = blank b x y := by
  rcases h with rfl | rfl <;> rfl
theorem State.without_le {a b : Units} (h : a.le b = true) (s : State) : (s.without a).without b = s.without b := by
  cases a
  cases b
  simp only [Units.le, Bool.and_eq_true, and_assoc, Bool.or_eq_true, Bool.not_eq_true'] at h
  obtain ⟨hdev, haon, hstart, hidn, hfuses, hclk, hpwr, hflt, hevt, hmqs, hptn, hhold, hdiag, himg, hnvm, hlayout, halks, hislands, hbol, hheads, harms, hgov, hspn, hspc, hmrc, hmpd, hrows, htre, hfls, hfcc, hlinks, hinjs, hhop, hslu, hfan, htx, hfree, hpending, -⟩ := h
  simp only [State.without, State.mk.injEq]
  refine ⟨?_, ?_, ?_, ?_, ?_, ?_, ?_, ?_, ?_, ?_, ?_, ?_, ?_, ?_, ?_, ?_, ?_, ?_, ?_, ?_, ?_, ?_, ?_, ?_, ?_, ?_, ?_, ?_, ?_, ?_, ?_, ?_, ?_, ?_, ?_, ?_, ?_, ?_⟩
  all_goals exact cond_absorb ‹_›

theorem Units.le_intake {a b : Units} (h : a.le b = true) (k : b.intake = false) : a.intake = false := by
  cases a
  cases b
  subst k
  simp only [Units.le, Bool.and_eq_true, Bool.or_false, Bool.not_eq_true'] at h
  exact h.2
theorem Only.mono {a b : Units} {s t : State} (h : Only a s t) (le : a.le b = true := by rfl) : Only b s t where
  same := by rw [← State.without_le le t, h.same, State.without_le le s]
  kept k := h.kept (Units.le_intake le k)
  mem := h.mem
  sent := h.sent
theorem Only.trans {m : Units} {s t u : State} (h : Only m s t) (k : Only m t u) : Only m s u where
  same := k.same.trans h.same
  kept hm := (h.kept hm).trans (k.kept hm)
  mem hs := k.mem (h.mem hs)
  sent := h.sent.trans k.sent
/-- A function's fact, after what led to its argument. -/
theorem Only.after {a m : Units} {s t u : State} (k : Only a t u) (h : Only m s t) (le : a.le m = true := by rfl) : Only m s u := h.trans (k.mono le)

theorem Only.dev {m : Units} {s t : State} (h : Only m s t) (hm : m.dev = false := by rfl) : t.dev = s.dev := by
  simpa only [State.without, hm, blank] using congrArg State.dev h.same
theorem Only.aon {m : Units} {s t : State} (h : Only m s t) (hm : m.aon = false := by rfl) : t.aon = s.aon := by
  simpa only [State.without, hm, blank] using congrArg State.aon h.same
theorem Only.start {m : Units} {s t : State} (h : Only m s t) (hm : m.start = false := by rfl) : t.start = s.start := by
  simpa only [State.without, hm, blank] using congrArg State.start h.same
theorem Only.idn {m : Units} {s t : State} (h : Only m s t) (hm : m.idn = false := by rfl) : t.idn = s.idn := by
  simpa only [State.without, hm, blank] using congrArg State.idn h.same
theorem Only.fuses {m : Units} {s t : State} (h : Only m s t) (hm : m.fuses = false := by rfl) : t.fuses = s.fuses := by
  simpa only [State.without, hm, blank] using congrArg State.fuses h.same
theorem Only.clk {m : Units} {s t : State} (h : Only m s t) (hm : m.clk = false := by rfl) : t.clk = s.clk := by
  simpa only [State.without, hm, blank] using congrArg State.clk h.same
theorem Only.pwr {m : Units} {s t : State} (h : Only m s t) (hm : m.pwr = false := by rfl) : t.pwr = s.pwr := by
  simpa only [State.without, hm, blank] using congrArg State.pwr h.same
theorem Only.flt {m : Units} {s t : State} (h : Only m s t) (hm : m.flt = false := by rfl) : t.flt = s.flt := by
  simpa only [State.without, hm, blank] using congrArg State.flt h.same
theorem Only.evt {m : Units} {s t : State} (h : Only m s t) (hm : m.evt = false := by rfl) : t.evt = s.evt := by
  simpa only [State.without, hm, blank] using congrArg State.evt h.same
theorem Only.mqs {m : Units} {s t : State} (h : Only m s t) (hm : m.mqs = false := by rfl) : t.mqs = s.mqs := by
  simpa only [State.without, hm, blank] using congrArg State.mqs h.same
theorem Only.ptn {m : Units} {s t : State} (h : Only m s t) (hm : m.ptn = false := by rfl) : t.ptn = s.ptn := by
  simpa only [State.without, hm, blank] using congrArg State.ptn h.same
theorem Only.hold {m : Units} {s t : State} (h : Only m s t) (hm : m.hold = false := by rfl) : t.hold = s.hold := by
  simpa only [State.without, hm, blank] using congrArg State.hold h.same
theorem Only.diag {m : Units} {s t : State} (h : Only m s t) (hm : m.diag = false := by rfl) : t.diag = s.diag := by
  simpa only [State.without, hm, blank] using congrArg State.diag h.same
theorem Only.img {m : Units} {s t : State} (h : Only m s t) (hm : m.img = false := by rfl) : t.img = s.img := by
  simpa only [State.without, hm, blank] using congrArg State.img h.same
theorem Only.nvm {m : Units} {s t : State} (h : Only m s t) (hm : m.nvm = false := by rfl) : t.nvm = s.nvm := by
  simpa only [State.without, hm, blank] using congrArg State.nvm h.same
theorem Only.layout {m : Units} {s t : State} (h : Only m s t) (hm : m.layout = false := by rfl) : t.layout = s.layout := by
  simpa only [State.without, hm, blank] using congrArg State.layout h.same
theorem Only.alks {m : Units} {s t : State} (h : Only m s t) (hm : m.alks = false := by rfl) : t.alks = s.alks := by
  simpa only [State.without, hm, blank] using congrArg State.alks h.same
theorem Only.islands {m : Units} {s t : State} (h : Only m s t) (hm : m.islands = false := by rfl) : t.islands = s.islands := by
  simpa only [State.without, hm, blank] using congrArg State.islands h.same
theorem Only.bol {m : Units} {s t : State} (h : Only m s t) (hm : m.bol = false := by rfl) : t.bol = s.bol := by
  simpa only [State.without, hm, blank] using congrArg State.bol h.same
theorem Only.heads {m : Units} {s t : State} (h : Only m s t) (hm : m.heads = false := by rfl) : t.heads = s.heads := by
  simpa only [State.without, hm, blank] using congrArg State.heads h.same
theorem Only.arms {m : Units} {s t : State} (h : Only m s t) (hm : m.arms = false := by rfl) : t.arms = s.arms := by
  simpa only [State.without, hm, blank] using congrArg State.arms h.same
theorem Only.gov {m : Units} {s t : State} (h : Only m s t) (hm : m.gov = false := by rfl) : t.gov = s.gov := by
  simpa only [State.without, hm, blank] using congrArg State.gov h.same
theorem Only.spn {m : Units} {s t : State} (h : Only m s t) (hm : m.spn = false := by rfl) : t.spn = s.spn := by
  simpa only [State.without, hm, blank] using congrArg State.spn h.same
theorem Only.spc {m : Units} {s t : State} (h : Only m s t) (hm : m.spc = false := by rfl) : t.spc = s.spc := by
  simpa only [State.without, hm, blank] using congrArg State.spc h.same
theorem Only.mrc {m : Units} {s t : State} (h : Only m s t) (hm : m.mrc = false := by rfl) : t.mrc = s.mrc := by
  simpa only [State.without, hm, blank] using congrArg State.mrc h.same
theorem Only.mpd {m : Units} {s t : State} (h : Only m s t) (hm : m.mpd = false := by rfl) : t.mpd = s.mpd := by
  simpa only [State.without, hm, blank] using congrArg State.mpd h.same
theorem Only.rows {m : Units} {s t : State} (h : Only m s t) (hm : m.rows = false := by rfl) : t.rows = s.rows := by
  simpa only [State.without, hm, blank] using congrArg State.rows h.same
theorem Only.tre {m : Units} {s t : State} (h : Only m s t) (hm : m.tre = false := by rfl) : t.tre = s.tre := by
  simpa only [State.without, hm, blank] using congrArg State.tre h.same
theorem Only.fls {m : Units} {s t : State} (h : Only m s t) (hm : m.fls = false := by rfl) : t.fls = s.fls := by
  simpa only [State.without, hm, blank] using congrArg State.fls h.same
theorem Only.fcc {m : Units} {s t : State} (h : Only m s t) (hm : m.fcc = false := by rfl) : t.fcc = s.fcc := by
  simpa only [State.without, hm, blank] using congrArg State.fcc h.same
theorem Only.links {m : Units} {s t : State} (h : Only m s t) (hm : m.links = false := by rfl) : t.links = s.links := by
  simpa only [State.without, hm, blank] using congrArg State.links h.same
theorem Only.injs {m : Units} {s t : State} (h : Only m s t) (hm : m.injs = false := by rfl) : t.injs = s.injs := by
  simpa only [State.without, hm, blank] using congrArg State.injs h.same
theorem Only.hop {m : Units} {s t : State} (h : Only m s t) (hm : m.hop = false := by rfl) : t.hop = s.hop := by
  simpa only [State.without, hm, blank] using congrArg State.hop h.same
theorem Only.slu {m : Units} {s t : State} (h : Only m s t) (hm : m.slu = false := by rfl) : t.slu = s.slu := by
  simpa only [State.without, hm, blank] using congrArg State.slu h.same
theorem Only.fan {m : Units} {s t : State} (h : Only m s t) (hm : m.fan = false := by rfl) : t.fan = s.fan := by
  simpa only [State.without, hm, blank] using congrArg State.fan h.same
theorem Only.tx {m : Units} {s t : State} (h : Only m s t) (hm : m.tx = false := by rfl) : t.tx = s.tx := by
  simpa only [State.without, hm, blank] using congrArg State.tx h.same
theorem Only.free {m : Units} {s t : State} (h : Only m s t) (hm : m.free = false := by rfl) : t.free = s.free := by
  simpa only [State.without, hm, blank] using congrArg State.free h.same
theorem Only.pending {m : Units} {s t : State} (h : Only m s t) (hm : m.pending = false := by rfl) : t.pending = s.pending := by
  simpa only [State.without, hm, blank] using congrArg State.pending h.same

/-- An update of units of `m` that leaves the memories, the links and what has been sent as they are. -/
theorem Only.upd {m : Units} {s t : State} {dev aon start idn fuses clk pwr flt evt mqs ptn hold diag img nvm layout alks islands bol heads arms gov spn spc mrc mpd rows tre fls fcc links injs hop slu fan tx free} (h : Only m s t)
    (same : (State.mk dev aon start idn fuses clk pwr flt evt mqs ptn hold diag img nvm layout alks islands bol heads arms gov spn spc mrc mpd rows tre fls fcc links injs hop slu fan tx free t.pending).without m = t.without m := by with_reducible rfl)
    (mem : (mpd.frames, mpd.ledger, mrc.slots, fls.sectors, nvm.blocks, gov.store) = (t.mpd.frames, t.mpd.ledger, t.mrc.slots, t.fls.sectors, t.nvm.blocks, t.gov.store) := by with_reducible rfl)
    (outer : (links, tx) = (t.links, t.tx) := by with_reducible rfl) :
    Only m s (State.mk dev aon start idn fuses clk pwr flt evt mqs ptn hold diag img nvm layout alks islands bol heads arms gov spn spc mrc mpd rows tre fls fcc links injs hop slu fan tx free t.pending) := by
  simp only [Prod.mk.injEq] at outer mem
  refine h.trans ⟨same, fun _ => .of_eq outer.1, fun hs => ?_, outer.2 ▸ List.prefix_rfl⟩
  rwa [State.memWf_iff, mem.1, mem.2.1, mem.2.2.1, mem.2.2.2.1, mem.2.2.2.2.1, mem.2.2.2.2.2, ← State.memWf_iff]
/-- The memories' form stands, memory by memory where one is written. -/
def FormKept (s t : State) : Prop := s.memWf = true → t.memWf = true
theorem FormKept.of_eq {s t : State} (h : (t.mpd.frames, t.mpd.ledger, t.mrc.slots, t.fls.sectors, t.nvm.blocks, t.gov.store) =
    (s.mpd.frames, s.mpd.ledger, s.mrc.slots, s.fls.sectors, s.nvm.blocks, s.gov.store) := by with_reducible rfl) : FormKept s t := fun hs => by
  simp only [Prod.mk.injEq] at h
  rwa [State.memWf_iff, h.1, h.2.1, h.2.2.1, h.2.2.2.1, h.2.2.2.2.1, h.2.2.2.2.2, ← State.memWf_iff]
/-- Each memory keeps its form. -/
theorem FormKept.of_parts {s t : State} (frames : tabWf 0 s.mpd.frames = true → tabWf 0 t.mpd.frames = true := by exact id)
    (ledger : tabWf {} s.mpd.ledger = true → tabWf {} t.mpd.ledger = true := by exact id)
    (slots : tabWf {} s.mrc.slots = true → tabWf {} t.mrc.slots = true := by exact id)
    (sectors : tabWf none s.fls.sectors = true → tabWf none t.fls.sectors = true := by exact id)
    (blocks : tabWf (BitVec.allOnes 32768) s.nvm.blocks = true → tabWf (BitVec.allOnes 32768) t.nvm.blocks = true := by exact id)
    (store : tabWf 0 s.gov.store = true → tabWf 0 t.gov.store = true := by exact id) : FormKept s t := fun hs => by
  obtain ⟨h1, h2, h3, h4, h5, h6⟩ := (State.memWf_iff s).1 hs
  exact (State.memWf_iff t).2 ⟨frames h1, ledger h2, slots h3, sectors h4, blocks h5, store h6⟩
/-- An update that writes a memory. -/
theorem Only.updWith {m : Units} {s t : State} {dev aon start idn fuses clk pwr flt evt mqs ptn hold diag img nvm layout alks islands bol heads arms gov spn spc mrc mpd rows tre fls fcc links injs hop slu fan tx free} (h : Only m s t)
    (mem : FormKept t (State.mk dev aon start idn fuses clk pwr flt evt mqs ptn hold diag img nvm layout alks islands bol heads arms gov spn spc mrc mpd rows tre fls fcc links injs hop slu fan tx free t.pending))
    (outer : (links, tx) = (t.links, t.tx) := by with_reducible rfl)
    (same : (State.mk dev aon start idn fuses clk pwr flt evt mqs ptn hold diag img nvm layout alks islands bol heads arms gov spn spc mrc mpd rows tre fls fcc links injs hop slu fan tx free t.pending).without m = t.without m := by with_reducible rfl) :
    Only m s (State.mk dev aon start idn fuses clk pwr flt evt mqs ptn hold diag img nvm layout alks islands bol heads arms gov spn spc mrc mpd rows tre fls fcc links injs hop slu fan tx free t.pending) := by
  simp only [Prod.mk.injEq] at outer
  exact h.trans ⟨same, fun _ => .of_eq outer.1, mem, outer.2 ▸ List.prefix_rfl⟩

theorem Only.ite {m : Units} {s t u : State} {c : Prop} [Decidable c] (h : Only m s t) (k : Only m s u) : Only m s (if c then t else u) := by
  split
  · exact h
  · exact k
/-- A choice between two functions. -/
theorem Only.iteApp {m : Units} {s t : State} {c : Prop} [Decidable c] {f g : State → State} (h : Only m s (f t)) (k : Only m s (g t)) :
    Only m s ((if c then f else g) t) := by
  split
  · exact h
  · exact k
theorem Only.each {m : Units} {s t : State} {α : Type} {xs : List α} {f : α → State → State} (hf : ∀ x u, Only m u (f x u)) (h : Only m s t) :
    Only m s (each xs f t) := by
  unfold Machine.each
  induction xs generalizing t with
  | nil => exact h
  | cons x xs ih => exact ih (h.trans (hf x t))
theorem Only.foldl {m : Units} {s t : State} {α : Type} {xs : List α} {f : State → α → State} (hf : ∀ u x, Only m u (f u x)) (h : Only m s t) :
    Only m s (xs.foldl f t) := Only.each (f := fun x u => f u x) (fun x u => hf u x) h
theorem Only.when {m : Units} {s t : State} {c : Bool} {f : State → State} (hf : ∀ u, Only m u (f u)) (h : Only m s t) : Only m s (when_ c f t) :=
  .ite (h.trans (hf t)) h
/-- The state of a pair, taken apart by a match. -/
theorem Only.of_eq_snd {m : Units} {s t : State} {α : Type} {p : α × State} {x : α} (h : Only m s p.2) (e : p = (x, t)) : Only m s t := by
  rw [e] at h
  exact h

theorem Only.of_eq_fst {m : Units} {s t : State} {α : Type} {p : State × α} {x : α} (h : Only m s p.1) (e : p = (t, x)) : Only m s t := by
  rw [e] at h
  exact h

theorem landedEntry_valid {e : LedgerEntry} (h : landedEntry e = true) : e.valid = true := by
  simp only [landedEntry, Bool.and_eq_true] at h
  exact h.1.1
/-- A landed entry is not the default, whatever its STATE, ACKED and MIRRORED. -/
theorem landedEntry_change_ne {e : LedgerEntry} {st : BitVec 3} {k n : Bool} (h : landedEntry e = true) :
    ({ e with state := st, acked := k, mirrored := n } : LedgerEntry) ≠ {} := fun hd => by
  have := congrArg LedgerEntry.valid hd
  simp [landedEntry_valid h] at this
theorem tabWfFrom_ne {α : Type} [DecidableEq α] {d : α} {b : Nat} {t : Tab α} (h : tabWfFrom d b t = true) : ∀ e ∈ t, e.2 ≠ d := by
  induction t generalizing b with
  | nil => exact fun _ he => nomatch he
  | cons x t ih =>
    simp only [tabWfFrom, Bool.and_eq_true, decide_eq_true_eq] at h
    intro e he
    rcases List.mem_cons.1 he with rfl | he
    · exact h.1.2
    · exact ih h.2 e he
/-- Setting ACKED on valid entries keeps the ledger's form. -/
theorem ackMap_wf {p : Nat × LedgerEntry → Bool} {t : Tab LedgerEntry} (hp : ∀ fe, p fe = true → fe.2.valid = true) (h : tabWf {} t = true) :
    tabWf {} (t.map fun fe => if p fe then (fe.1, { fe.2 with acked := true }) else fe) = true := by
  have e : (t.map fun fe => if p fe then (fe.1, { fe.2 with acked := true }) else fe) =
      t.map fun fe => (fe.1, if p fe then { fe.2 with acked := true } else fe.2) := List.map_congr_left fun fe _ => by split <;> rfl
  rw [e]
  refine tabMap_wf _ _ _ (fun fe hfe => ?_) h
  split
  · next hv =>
    intro hd
    have := congrArg LedgerEntry.valid hd
    simp [hp fe hv] at this
  · exact tabWfFrom_ne h fe hfe

/-- Whatever next state a command answers, it is `s` outside the units of `m`. -/
def OnlyNext (m : Units) (s : State) (o : Host.Outcome State Fault Refusal) : Prop := ∃ t, o = .next t ∧ Only m s t
theorem Only.next {m : Units} {s t : State} (h : Only m s t) : OnlyNext m s (.next t) := ⟨t, rfl, h⟩
theorem OnlyNext.mono {a b : Units} {s : State} {o : Host.Outcome State Fault Refusal} (h : OnlyNext a s o) (le : a.le b = true := by rfl) : OnlyNext b s o :=
  let ⟨t, e, k⟩ := h
  ⟨t, e, k.mono le⟩
/-- A command run within another, after what led to its state. -/
theorem OnlyNext.after {a m : Units} {s t : State} {f : State → Host.Outcome State Fault Refusal} (k : OnlyNext a t (f t)) (h : Only m s t)
    (le : a.le m = true := by rfl) : Only m s (Machine.after f t) := by
  obtain ⟨u, e, hu⟩ := k
  rw [Machine.after, e]
  exact h.trans (hu.mono le)
theorem OnlyNext.live {m : Units} {s : State} {f : State → Host.Outcome State Fault Refusal} (h : OnlyNext m s (f s)) : OnlyNext m s (live s f) := by
  unfold Machine.live
  split
  · exact h
  · exact Only.refl.next
theorem OnlyNext.ite {m : Units} {s : State} {c : Prop} [Decidable c] {o p : Host.Outcome State Fault Refusal} (h : OnlyNext m s o) (k : OnlyNext m s p) :
    OnlyNext m s (if c then o else p) := by
  split
  · exact h
  · exact k

/-- `s` with the units of `m` as in `t`. -/
@[reducible] def State.fill (m : Units) (s t : State) : State where
  dev := blank m.dev t.dev s.dev
  aon := blank m.aon t.aon s.aon
  start := blank m.start t.start s.start
  idn := blank m.idn t.idn s.idn
  fuses := blank m.fuses t.fuses s.fuses
  clk := blank m.clk t.clk s.clk
  pwr := blank m.pwr t.pwr s.pwr
  flt := blank m.flt t.flt s.flt
  evt := blank m.evt t.evt s.evt
  mqs := blank m.mqs t.mqs s.mqs
  ptn := blank m.ptn t.ptn s.ptn
  hold := blank m.hold t.hold s.hold
  diag := blank m.diag t.diag s.diag
  img := blank m.img t.img s.img
  nvm := blank m.nvm t.nvm s.nvm
  layout := blank m.layout t.layout s.layout
  alks := blank m.alks t.alks s.alks
  islands := blank m.islands t.islands s.islands
  bol := blank m.bol t.bol s.bol
  heads := blank m.heads t.heads s.heads
  arms := blank m.arms t.arms s.arms
  gov := blank m.gov t.gov s.gov
  spn := blank m.spn t.spn s.spn
  spc := blank m.spc t.spc s.spc
  mrc := blank m.mrc t.mrc s.mrc
  mpd := blank m.mpd t.mpd s.mpd
  rows := blank m.rows t.rows s.rows
  tre := blank m.tre t.tre s.tre
  fls := blank m.fls t.fls s.fls
  fcc := blank m.fcc t.fcc s.fcc
  links := blank m.links t.links s.links
  injs := blank m.injs t.injs s.injs
  hop := blank m.hop t.hop s.hop
  slu := blank m.slu t.slu s.slu
  fan := blank m.fan t.fan s.fan
  tx := blank m.tx t.tx s.tx
  free := blank m.free t.free s.free
  pending := blank m.pending t.pending s.pending
theorem blank_eq {α : Type} {b : Bool} {x y : α} (h : b = false → y = x) : y = blank b y x := by
  cases b with
  | false => exact h rfl
  | true => rfl
/-- What `Only` says, as an equation for the next state. -/
theorem Only.eq_fill {m : Units} {s t : State} (h : Only m s t) : t = s.fill m t := by
  cases t
  simp only [State.fill, State.mk.injEq]
  exact ⟨blank_eq (h.dev ·), blank_eq (h.aon ·), blank_eq (h.start ·), blank_eq (h.idn ·), blank_eq (h.fuses ·), blank_eq (h.clk ·), blank_eq (h.pwr ·), blank_eq (h.flt ·), blank_eq (h.evt ·), blank_eq (h.mqs ·), blank_eq (h.ptn ·), blank_eq (h.hold ·), blank_eq (h.diag ·), blank_eq (h.img ·), blank_eq (h.nvm ·), blank_eq (h.layout ·), blank_eq (h.alks ·), blank_eq (h.islands ·), blank_eq (h.bol ·), blank_eq (h.heads ·), blank_eq (h.arms ·), blank_eq (h.gov ·), blank_eq (h.spn ·), blank_eq (h.spc ·), blank_eq (h.mrc ·), blank_eq (h.mpd ·), blank_eq (h.rows ·), blank_eq (h.tre ·), blank_eq (h.fls ·), blank_eq (h.fcc ·), blank_eq (h.links ·), blank_eq (h.injs ·), blank_eq (h.hop ·), blank_eq (h.slu ·), blank_eq (h.fan ·), blank_eq (h.tx ·), blank_eq (h.free ·), blank_eq (h.pending ·)⟩

end Sys2Proof.Machine
end

section
/-! What each function of the model may change, in the order of its definitions: `f_only` for a function of the state, and for a command what it
answers. A caller's lemma is assembled from its callees' in the order in which it runs them. -/

namespace Sys2Proof.Machine
set_option Elab.async false

theorem modHead_only (s n f) : Only { heads := true } s (modHead s n f) := by
  unfold modHead
  exact .upd .refl
theorem modArm_only (s a f) : Only { arms := true } s (modArm s a f) := by
  unfold modArm
  exact .upd .refl
theorem modAlk_only (s a f) : Only { alks := true } s (modAlk s a f) := by
  unfold modAlk
  exact .upd .refl
theorem modIsl_only (s i f) : Only { islands := true } s (modIsl s i f) := by
  unfold modIsl
  exact .upd .refl
theorem modCtx_only (s n f) : Only { gov := true } s (modCtx s n f) := by
  unfold modCtx
  exact .upd .refl
theorem modTrace_only (s c f) : Only { gov := true } s (modTrace s c f) := by
  unfold modTrace
  exact .upd .refl
theorem modSine_only (s g f) : Only { gov := true } s (modSine s g f) := by
  unfold modSine
  exact .upd .refl
theorem modEngine_only (s e f) : Only { bol := true } s (modEngine s e f) := by
  unfold modEngine
  exact .upd .refl
theorem modSlot_only (s k f) : Only { mrc := true } s (modSlot s k f) := by
  unfold modSlot
  exact .updWith .refl (.of_parts (slots := tabMod_wf _ _ _ _))
theorem freeInner_only (p s) : Only { mrc := true } s (freeInner p s) := by
  unfold freeInner
  exact .updWith .refl (.of_parts (slots := tabFilter_wf _ _ _))
theorem takeInner_only (a keys s) : Only { mrc := true } s (takeInner a keys s) := by
  unfold takeInner
  exact .foldl (fun _ _ => (modSlot_only ..).mono) .refl
theorem modChan_only (s p f) : Only { mpd := true } s (modChan s p f) := by
  unfold modChan
  exact .upd .refl
theorem modTre_only (s n f) : Only { tre := true } s (modTre s n f) := by
  unfold modTre
  exact .upd .refl
theorem modMq_only (s q f) : Only { mqs := true } s (modMq s q f) := by
  unfold modMq
  exact .upd .refl
theorem modBank_only (s b f) : Only { fls := true } s (modBank s b f) := by
  unfold modBank
  exact .upd .refl
theorem modBlk_only (s k f) : Only { fls := true } s (modBlk s k f) := by
  unfold modBlk
  exact .upd .refl
theorem modFce_only (s e f) : Only { fcc := true } s (modFce s e f) := by
  unfold modFce
  exact .upd .refl
theorem modFcq_only (s q f) : Only { fcc := true } s (modFcq s q f) := by
  unfold modFcq
  exact .upd .refl
theorem tabGet_tabSet_other {α : Type} [DecidableEq α] (c d v : α) (t : Tab α) {k j : Nat} (h : j ≠ k) : tabGet c (tabSet d t k v) j = tabGet c t j := by
  unfold tabSet
  split
  · exact tabDel_other c t h
  · exact tabPut_other c v t h
theorem getLink_modLink_other (s : State) {l j : Nat} (f : Link → Link) (h : j ≠ l) : getLink (modLink s l f) j = getLink s j :=
  tabGet_tabSet_other _ _ _ _ h
theorem modLink_only (s l f) (hf : (f (getLink s l)).intake = (getLink s l).intake := by rfl) : Only { links := true } s (modLink s l f) := by
  refine ⟨rfl, fun _ j => ?_, id, List.prefix_rfl⟩
  by_cases hj : j = l
  · rw [hj, getLink_modLink, hf]
  · rw [getLink_modLink_other _ _ hj]
/-- A change of a link that may touch the write data that waits. -/
theorem modLink_any (s l f) : Only { links := true, intake := true } s (modLink s l f) := ⟨rfl, (nomatch ·), id, List.prefix_rfl⟩
theorem modInj_only (s p f) : Only { injs := true } s (modInj s p f) := by
  unfold modInj
  exact .upd .refl
theorem modHopPort_only (s p f) : Only { hop := true } s (modHopPort s p f) := by
  unfold modHopPort
  exact .upd .refl
theorem modTherm_only (s k f) : Only { slu := true } s (modTherm s k f) := by
  unfold modTherm
  exact .upd .refl
theorem setEntry_only (s f e) : Only { mpd := true } s (setEntry s f e) := by
  unfold setEntry
  exact .updWith .refl (.of_parts (ledger := tabSet_wf _ _ _ _))
theorem dropTags_only (memLo memHi lo len s) : Only { diag := true } s (dropTags memLo memHi lo len s) := by
  unfold dropTags
  exact .upd .refl
theorem setFrame_only (s f b) : Only { diag := true, mpd := true } s (setFrame s f b) := by
  unfold setFrame
  exact (dropTags_only ..).after (.updWith .refl (.of_parts (frames := tabSet_wf _ _ _ _)))
theorem writeSlot_only (k f s) : Only { diag := true, mrc := true } s (writeSlot k f s) := by
  unfold writeSlot
  exact (dropTags_only ..).after ((modSlot_only ..).mono)
theorem idleTick_only (s) : Only { aon := true } s (idleTick s) := by
  unfold idleTick
  exact .ite .refl (.upd .refl)
theorem nextFree_only (s) : Only { free := true } s (nextFree s) := by
  unfold nextFree
  exact .upd .refl
theorem send_only (t s) : Only { tx := true } s (send t s) := ⟨rfl, fun _ _ => rfl, id, List.prefix_append ..⟩
theorem traceFire_only (s) : Only { gov := true } s (traceFire s) := by
  unfold traceFire
  exact .ite (.each (fun _ _ => (modTrace_only ..).mono) (.upd .refl)) .refl
theorem stageRecord_only (r s) : Only { evt := true } s (stageRecord r s) := by
  unfold stageRecord
  exact .upd .refl
theorem programSector_only (s) : Only { evt := true } s (programSector s) := by
  unfold programSector
  exact .ite (.upd .refl) (.ite (.upd .refl) (.ite ((stageRecord_only ..).after (.upd .refl)) (.upd .refl)))
theorem programIfDue_only (s) : Only { evt := true } s (programIfDue s) := by
  unfold programIfDue
  exact .ite .refl (.ite (.ite (.each (fun _ _ => (programSector_only ..).mono) .refl) .refl) (.ite ((programSector_only ..).mono) .refl))
theorem setBucket_only (s code inj b) : Only { evt := true } s (setBucket s code inj b) := by
  unfold setBucket
  exact .upd .refl
theorem takeEvent_only (r s) : Only { evt := true } s (takeEvent r s) := by
  unfold takeEvent
  exact .ite (.ite (.upd .refl) (.upd .refl)) (.ite (.upd .refl) (.ite ((programIfDue_only ..).after ((stageRecord_only ..).mono)) (.ite ((programIfDue_only ..).after ((stageRecord_only ..).after ((setBucket_only ..).mono))) ((setBucket_only ..).mono))))
theorem postInj_only (inj code source fs s) : Only { evt := true, gov := true } s (postInj inj code source fs s) := by
  unfold postInj
  exact (takeEvent_only ..).after (.ite ((traceFire_only ..).mono) .refl)
theorem post_only (code source fs s) : Only { evt := true, gov := true } s (post code source fs s) := by
  unfold post
  exact (postInj_only ..).mono
theorem mqTake_only (q s) : Only { mqs := true, tx := true } s (mqTake q s) := by
  unfold mqTake
  split
  · exact .refl
  · exact (modMq_only ..).after ((send_only ..).mono)
theorem mqAppend_only (q ws s) : Only { mqs := true, tx := true } s (mqAppend q ws s) := by
  unfold mqAppend
  exact .ite ((mqTake_only ..).after (.upd (.ite ((send_only ..).after ((modMq_only ..).mono)) ((modMq_only ..).mono)))) (.ite ((send_only ..).after ((modMq_only ..).mono)) ((modMq_only ..).mono))
theorem mqSend_only (q ws s) : Only { mqs := true, tx := true } s (mqSend q ws s) := by
  unfold mqSend
  exact .ite .refl (.ite ((mqAppend_only ..).mono) ((modMq_only ..).mono))
theorem putFlash_only (w d s) : Only { fls := true } s (putFlash w d s) := by
  unfold putFlash
  exact .updWith .refl (.of_parts (sectors := fun h => by convert tabSet_wf _ _ _ _ h))
theorem putFlashBlock_only (w b s) : Only { fls := true } s (putFlashBlock w b s) := by
  unfold putFlashBlock
  exact .each (fun _ _ => (putFlash_only ..).mono) .refl
theorem cutBank_only (b s) : Only { fls := true } s (cutBank b s) := by
  unfold cutBank
  exact .ite ((modBlk_only ..).mono) (.ite ((modBlk_only ..).mono) .refl)
theorem writeElem_only (u b s) : Only { diag := true, mrc := true, mpd := true, tre := true, fls := true } s (writeElem u b s) := by
  unfold writeElem
  split
  · exact (setFrame_only ..).mono
  · exact (writeSlot_only ..).mono
  · exact (putFlashBlock_only ..).mono
  · exact .upd .refl
  · exact .refl
theorem pulse_only (l s) : Only { tre := true } s (pulse l s) := by
  unfold pulse
  exact .upd .refl
theorem pulseDone_only (ch d s) : Only { tre := true } s (pulseDone ch d s) := by
  unfold pulseDone
  exact .ite .refl ((pulse_only ..).mono)
theorem takeStream_only (p s) : Only { tre := true } s (takeStream p s).2 := by
  unfold takeStream
  exact .upd .refl
theorem moveUnit_only (n d s) : Only { diag := true, mrc := true, mpd := true, tre := true, fls := true } s (moveUnit n d s).2 := by
  unfold moveUnit
  extract_lets
  split
  · split
    · exact .refl
    · exact (writeElem_only ..).mono
  · split
    · exact .refl
    · split
      · exact (writeElem_only ..).after ((takeStream_only ..).mono)
      · exact (writeElem_only ..).mono
  · split
    · exact .refl
    · split
      · exact .refl
      · exact (writeElem_only ..).mono
  · exact (writeElem_only ..).mono
  · exact .ite ((writeElem_only ..).mono) .refl
theorem moveUntil_only (d k n s) : Only { diag := true, mrc := true, mpd := true, tre := true, fls := true } s (moveUntil d k n s) := by
  induction k generalizing n s with
  | zero => exact .refl
  | succ k ih =>
    unfold moveUntil
    refine .ite .refl ?_
    split
    · exact .refl
    · exact (ih ..).after (Only.of_eq_snd (moveUnit_only ..) ‹_›).mono
theorem stopChannel_only (ch s) : Only { diag := true, mrc := true, mpd := true, tre := true, fls := true, free := true } s (stopChannel ch s) := by
  unfold stopChannel
  refine (modTre_only ..).after ?_
  split
  · exact .ite ((moveUntil_only ..).after ((nextFree_only ..).mono)) .refl
  · exact .refl
theorem dataRound_only (a r s) : Only { alks := true, tx := true } s (dataRound a r s) := by
  unfold dataRound
  exact .each (fun _ _ => (send_only ..).mono) ((modAlk_only ..).mono)
theorem alignRound_only (a r s) : Only { tx := true } s (alignRound a r s) := by
  unfold alignRound
  exact .each (fun _ _ => (send_only ..).mono) .refl
theorem followMap_only (a r s) : Only { alks := true } s (followMap a r s) := by
  unfold followMap
  split
  · exact .ite ((modAlk_only ..).mono) .refl
  · exact .refl
theorem alkRound_only (a r s) : Only { alks := true, tx := true } s (alkRound a r s) := by
  unfold alkRound
  exact .ite ((alignRound_only ..).after ((followMap_only ..).mono)) ((dataRound_only ..).after ((followMap_only ..).mono))
theorem alkRounds_only (t0 t1 s) : Only { alks := true, tx := true } s (alkRounds t0 t1 s) := by
  unfold alkRounds
  exact .each (fun _ _ => .ite (.each (fun _ _ => (alkRound_only ..).mono) .refl) (.ite (.each (fun _ _ => (alignRound_only ..).mono) .refl) .refl)) .refl
theorem handover_only (n u s) : Only { gov := true } s (handover n u s) := by
  unfold handover
  exact (modCtx_only ..).mono
theorem traceSwitch_only (n s) : Only { gov := true } s (traceSwitch n s) := by
  unfold traceSwitch
  exact .ite ((traceFire_only ..).after (.each (fun _ _ => (modTrace_only ..).mono) .refl)) (.each (fun _ _ => (modTrace_only ..).mono) .refl)
theorem endSines_only (n s) : Only { gov := true } s (endSines n s) := by
  unfold endSines
  exact .each (fun _ _ => .ite ((modSine_only ..).mono) .refl) .refl
theorem setFormat_only (n fmt s) : Only { gov := true } s (setFormat n fmt s) := by
  unfold setFormat
  exact .ite .refl ((traceSwitch_only ..).after ((handover_only ..).after (.ite ((modCtx_only ..).mono) ((endSines_only ..).after ((modCtx_only ..).mono)))))
theorem enableCtx_only (n s) : Only { gov := true } s (enableCtx n s) := by
  unfold enableCtx
  exact (modCtx_only ..).mono
theorem disableCtx_only (n s) : Only { gov := true } s (disableCtx n s) := by
  unfold disableCtx
  exact (modCtx_only ..).after ((endSines_only ..).mono)
theorem takeOver_only (new old s) : Only { gov := true } s (takeOver new old s) := by
  unfold takeOver
  exact (handover_only ..).after ((modCtx_only ..).after ((enableCtx_only ..).after ((disableCtx_only ..).mono)))
theorem setSetpoint_only (n v s) : Only { gov := true } s (setSetpoint n v s) := by
  unfold setSetpoint
  exact (modCtx_only ..).mono
theorem requestSwitch_only (n s) : Only { gov := true } s (requestSwitch n s) := by
  unfold requestSwitch
  exact .ite ((modCtx_only ..).mono) .refl
theorem alkPut_only (a m s) : Only { alks := true, tx := true } s (alkPut a m s) := by
  unfold alkPut
  exact (send_only ..).after ((modAlk_only ..).mono)
theorem alkSend_only (a type head imm apply payload s) : Only { alks := true, tx := true } s (alkSend a type head imm apply payload s) := by
  unfold alkSend
  exact .ite ((alkPut_only ..).after ((modAlk_only ..).mono)) .refl
theorem alkDrop_only (s) : Only { alks := true } s (alkDrop s) := by
  unfold alkDrop
  exact .each (fun _ _ => (modAlk_only ..).mono) .refl
theorem alkClose_only (s) : Only { alks := true } s (alkClose s) := by
  unfold alkClose
  exact .each (fun _ _ => (modAlk_only ..).mono) .refl
theorem alkMute_only (s) : Only { alks := true } s (alkMute s) := by
  unfold alkMute
  exact (alkClose_only ..).after ((alkDrop_only ..).mono)
theorem sendTimeSet_only (a s) : Only { alks := true, tx := true } s (sendTimeSet a s) := by
  unfold sendTimeSet
  exact (alkSend_only ..).mono
theorem sendTelemSet_only (a s) : Only { alks := true, tx := true } s (sendTelemSet a s) := by
  unfold sendTelemSet
  exact (alkSend_only ..).mono
theorem sendClaim_only (a force s) : Only { alks := true, tx := true } s (sendClaim a force s) := by
  unfold sendClaim
  exact .ite ((alkSend_only ..).after ((modAlk_only ..).mono)) .refl
theorem claimArms_only (force s) : Only { alks := true, tx := true } s (claimArms force s) := by
  unfold claimArms
  exact .each (fun _ _ => (sendTelemSet_only ..).after ((sendTimeSet_only ..).after ((sendClaim_only ..).mono))) .refl
theorem releaseArms_only (s) : Only { alks := true, tx := true } s (releaseArms s) := by
  unfold releaseArms
  exact .each (fun _ _ => .ite ((modAlk_only ..).after ((alkSend_only ..).mono)) .refl) .refl
theorem sendWgate_only (a mask s) : Only { alks := true, tx := true } s (sendWgate a mask s) := by
  unfold sendWgate
  exact (alkSend_only ..).after ((modAlk_only ..).mono)
theorem sendMode_only (a h mode raw s) : Only { alks := true, heads := true, tx := true } s (sendMode a h mode raw s) := by
  unfold sendMode
  exact (alkSend_only ..).after ((modHead_only ..).mono)
theorem sendHeater_only (a h rd wr imm s) : Only { alks := true, tx := true } s (sendHeater a h rd wr imm s) := by
  unfold sendHeater
  exact (alkSend_only ..).mono
theorem sendLaser_only (a h op bias lead s) : Only { alks := true, heads := true, tx := true } s (sendLaser a h op bias lead s) := by
  unfold sendLaser
  exact (alkSend_only ..).after ((modHead_only ..).mono)
theorem sendUa_only (a h demand imm apply s) : Only { alks := true, tx := true } s (sendUa a h demand imm apply s) := by
  unfold sendUa
  exact (alkSend_only ..).mono
theorem sendZone_only (a h z s) : Only { alks := true, heads := true, tx := true, free := true } s (sendZone a h z s) := by
  unfold sendZone
  exact (alkSend_only ..).after ((nextFree_only ..).after ((modHead_only ..).mono))
theorem handServo_only (n s) : Only { islands := true } s (handServo n s) := by
  unfold handServo
  exact (modIsl_only ..).mono
theorem sendTables_only (n z s) : Only { alks := true, islands := true, heads := true, tx := true, free := true } s (sendTables n z s) := by
  unfold sendTables
  exact (alkSend_only ..).after ((nextFree_only ..).after ((alkSend_only ..).after ((handServo_only ..).after ((sendZone_only ..).mono))))
theorem stopWriter_only (n s) : Only { alks := true, heads := true, tx := true } s (stopWriter n s) := by
  unfold stopWriter
  exact (modHead_only ..).after ((sendWgate_only ..).mono)
theorem gateArm_only (a s) : Only { alks := true, heads := true, tx := true } s (gateArm a s) := by
  unfold gateArm
  exact .each (fun _ _ => (modHead_only ..).mono) ((sendWgate_only ..).mono)
theorem coolHead_only (n s) : Only { alks := true, heads := true, tx := true } s (coolHead n s) := by
  unfold coolHead
  exact (modHead_only ..).after ((sendHeater_only ..).after ((sendLaser_only ..).mono))
theorem gateIsland_only (n s) : Only { islands := true } s (gateIsland n s) := by
  unfold gateIsland
  exact (modIsl_only ..).mono
theorem armDark_only (a s) : Only { islands := true, heads := true } s (armDark a s) := by
  unfold armDark
  exact .each (fun _ _ => (modHead_only ..).after ((gateIsland_only ..).mono)) .refl
theorem laserOff_only (a h write s) : Only { alks := true, heads := true, tx := true } s (laserOff a h write s) := by
  unfold laserOff
  exact .ite ((sendLaser_only ..).after ((modHead_only ..).mono)) ((modHead_only ..).mono)
theorem restHead_only (a h write s) : Only { alks := true, islands := true, heads := true, tx := true } s (restHead a h write s) := by
  unfold restHead
  exact .ite .refl ((laserOff_only ..).after ((sendMode_only ..).after ((gateIsland_only ..).mono)))
theorem vcmSend_only (a cmd demand s) : Only { arms := true } s (vcmSend a cmd demand s) := by
  unfold vcmSend
  exact (modArm_only ..).mono
theorem vcmFrame_only (a s) : Only { arms := true, tx := true } s (vcmFrame a s) := by
  unfold vcmFrame
  exact (send_only ..).after ((modArm_only ..).mono)
theorem vcmFrames_only (t0 t1 s) : Only { arms := true, tx := true } s (vcmFrames t0 t1 s) := by
  unfold vcmFrames
  exact .ite (.each (fun _ _ => .each (fun _ _ => (vcmFrame_only ..).mono) .refl) .refl) .refl
theorem disableArm_only (a s) : Only { gov := true } s (disableArm a s) := by
  unfold disableArm
  exact .each (fun _ _ => (disableCtx_only ..).mono) .refl
theorem uaRamp_only (n s) : Only { alks := true, heads := true, tx := true } s (uaRamp n s) := by
  unfold uaRamp
  exact (modHead_only ..).after (.each (fun _ _ => (sendUa_only ..).mono) .refl)
theorem armSafe_only (a s) : Only { alks := true, islands := true, heads := true, tx := true } s (armSafe a s) := by
  unfold armSafe
  exact .each (fun _ _ => (uaRamp_only ..).after ((coolHead_only ..).after ((gateIsland_only ..).mono))) ((gateArm_only ..).mono)
theorem unloadArm_only (a s) : Only { alks := true, islands := true, heads := true, arms := true, gov := true, mrc := true, slu := true, tx := true } s (unloadArm a s) := by
  unfold unloadArm
  exact .ite ((modArm_only ..).after ((freeInner_only ..).after (.upd ((setSetpoint_only ..).after (.ite ((disableCtx_only ..).after (.each (fun _ _ => (disableCtx_only ..).mono) ((armSafe_only ..).mono))) ((takeOver_only ..).after (.each (fun _ _ => (disableCtx_only ..).mono) ((armSafe_only ..).mono)))))))) .refl
theorem unloadAll_only (s) : Only { alks := true, islands := true, heads := true, arms := true, gov := true, mrc := true, slu := true, tx := true } s (unloadAll s) := by
  unfold unloadAll
  exact .each (fun _ _ => (unloadArm_only ..).mono) .refl
theorem headsOff_only (a s) : Only { alks := true, heads := true, tx := true } s (headsOff a s) := by
  unfold headsOff
  exact .each (fun _ _ => (modHead_only ..).after ((sendMode_only ..).mono)) .refl
theorem retractArm_only (a s) : Only { arms := true, gov := true } s (retractArm a s) := by
  unfold retractArm
  exact (modArm_only ..).after ((disableArm_only ..).after ((vcmSend_only ..).mono))
theorem spnEvent_only (code fs s) : Only { evt := true, gov := true, spn := true } s (spnEvent code fs s) := by
  unfold spnEvent
  exact (post_only ..).after (.upd .refl)
theorem gatesOff_only (s) : Only { spc := true, slu := true, tx := true } s (gatesOff s) := by
  unfold gatesOff
  exact .ite ((send_only ..).after (.upd (.upd .refl))) (.upd (.upd .refl))
theorem gatesOn_only (s) : Only { spc := true, tx := true } s (gatesOn s) := by
  unfold gatesOn
  exact .ite .refl ((send_only ..).after (.upd .refl))
theorem setSpnMode_only (m s) : Only { spn := true } s (setSpnMode m s) := by
  unfold setSpnMode
  exact .upd .refl
theorem spnCtxOff_only (s) : Only { gov := true } s (spnCtxOff s) := by
  unfold spnCtxOff
  exact .each (fun _ _ => (disableCtx_only ..).mono) .refl
theorem inverterOff_only (s) : Only { gov := true, spn := true, spc := true, slu := true, tx := true } s (inverterOff s) := by
  unfold inverterOff
  exact (gatesOff_only ..).after ((spnCtxOff_only ..).after (.upd .refl))
theorem startOffsets_only (s) : Only { gov := true, spn := true, spc := true, slu := true, tx := true } s (startOffsets s) := by
  unfold startOffsets
  exact .upd ((inverterOff_only ..).mono)
theorem startCatch_only (s) : Only { gov := true, spn := true, spc := true, slu := true, tx := true } s (startCatch s) := by
  unfold startCatch
  exact .upd ((inverterOff_only ..).mono)
theorem noCurve_only (s) : Only { spn := true } s (noCurve s) := by
  unfold noCurve
  exact .upd .refl
theorem startShortBrake_only (s) : Only { gov := true, spn := true, spc := true, tx := true } s (startShortBrake s) := by
  unfold startShortBrake
  exact (setSpnMode_only ..).after ((gatesOn_only ..).after ((spnCtxOff_only ..).after ((noCurve_only ..).after (.upd .refl))))
theorem startCoast_only (s) : Only { gov := true, spn := true, spc := true, slu := true, tx := true } s (startCoast s) := by
  unfold startCoast
  exact (setSpnMode_only ..).after ((noCurve_only ..).after ((inverterOff_only ..).mono))
theorem spindleStop_only (s) : Only { gov := true, spn := true, spc := true, slu := true, tx := true } s (spindleStop s) := by
  unfold spindleStop
  exact .ite ((noCurve_only ..).after (.upd .refl)) (.ite ((startCoast_only ..).after ((noCurve_only ..).after (.upd .refl))) (.ite (.upd ((gatesOn_only ..).after (.each (fun _ _ => .ite .refl ((enableCtx_only ..).mono)) (.each (fun _ _ => (disableCtx_only ..).mono) ((noCurve_only ..).after (.upd .refl)))))) ((startShortBrake_only ..).after ((noCurve_only ..).after (.upd .refl)))))
theorem startGenerator_only (s) : Only { evt := true, gov := true, spn := true, spc := true, tx := true } s (startGenerator s) := by
  unfold startGenerator
  exact (post_only ..).after ((noCurve_only ..).after (.upd ((gatesOn_only ..).after (.ite ((takeOver_only ..).after ((setSetpoint_only ..).after (.each (fun _ _ => .ite ((setFormat_only ..).mono) ((enableCtx_only ..).mono)) .refl))) ((enableCtx_only ..).after ((disableCtx_only ..).after ((setSetpoint_only ..).after (.each (fun _ _ => .ite ((setFormat_only ..).mono) ((enableCtx_only ..).mono)) .refl))))))))
theorem checkFloor_only (s) : Only { evt := true, gov := true, slu := true } s (checkFloor s) := by
  unfold checkFloor
  exact .ite (.upd .refl) (.ite ((post_only ..).after (.upd (.ite .refl (.upd .refl)))) (.ite .refl (.upd .refl)))
theorem queueOut_only (l f s) : Only { links := true } s (queueOut l f s) := by
  unfold queueOut
  exact (modLink_only ..).mono
theorem frameSent_only (l s) : Only { links := true } s (frameSent l s) := by
  unfold frameSent
  exact (modLink_only ..).mono
theorem putFrame_only (l seq body flip new s) : Only { links := true, tx := true } s (putFrame l seq body flip new s) := by
  unfold putFrame
  exact (frameSent_only ..).after ((queueOut_only ..).after ((send_only ..).mono))
theorem injectTx_only (l ftype s) : Only { injs := true } s (injectTx l ftype s).2 := by
  unfold injectTx
  extract_lets
  split
  · split
    · split
      · exact (modInj_only ..).mono
      · exact (modInj_only ..).mono
  · exact .refl
theorem putLctl_only (l r s) : Only { links := true, injs := true, tx := true } s (putLctl l r s) := by
  unfold putLctl
  exact .ite ((frameSent_only ..).after ((queueOut_only ..).after ((send_only ..).after ((injectTx_only ..).mono)))) .refl
theorem sendNumbered_only (l body s) : Only { links := true, injs := true, tx := true } s (sendNumbered l body s) := by
  unfold sendNumbered
  exact (putFrame_only ..).after ((modLink_only ..).after ((injectTx_only ..).mono))
theorem sendAgain_only (l f s) : Only { links := true, tx := true } s (sendAgain l f s) := by
  unfold sendAgain
  exact (putFrame_only ..).after ((modLink_only ..).mono)
theorem ptnSend_only (r s) : Only { links := true, injs := true, tx := true } s (ptnSend r s) := by
  unfold ptnSend
  exact .ite ((sendNumbered_only ..).mono) ((modLink_only ..).mono)
theorem ptnFlush_only (s) : Only { links := true, injs := true, tx := true } s (ptnFlush s) := by
  unfold ptnFlush
  exact .each (fun _ _ => .ite ((sendNumbered_only ..).after ((modLink_only ..).mono)) .refl) .refl
theorem mirror_only (r s) : Only { links := true, injs := true, tx := true } s (mirror r s) := by
  unfold mirror
  exact .ite ((ptnSend_only ..).mono) .refl
theorem mirrorUnit_only (u s) : Only { links := true, injs := true, tx := true } s (mirrorUnit mirror u s) := by
  unfold mirrorUnit
  split
  · exact .ite ((mirror_only ..).after (.each (fun _ _ => mirror_only ..) .refl)) (.each (fun _ _ => mirror_only ..) .refl)
  · exact .refl
theorem sendArb_only (s) : Only { links := true, injs := true, tx := true } s (sendArb s) := by
  unfold sendArb
  exact .ite ((ptnSend_only ..).mono) .refl
theorem askResync_only (s) : Only { evt := true, ptn := true, gov := true, mpd := true, links := true, injs := true, tx := true } s (askResync s) := by
  unfold askResync
  exact (ptnSend_only ..).after ((post_only ..).after (.updWith .refl (.of_parts (frames := fun _ => rfl) (ledger := fun _ => rfl))))
theorem modCmd_only (s arr f) : Only { hop := true } s (modCmd s arr f) := by
  unfold modCmd
  exact .upd .refl
theorem freeSlots_only (arr s) : Only { mrc := true } s (freeSlots arr s) := by
  unfold freeSlots
  exact .updWith .refl (.of_parts (slots := tabFilter_wf _ _ _))
theorem unpin_only (arr s) : Only { mpd := true } s (unpin arr s) := by
  unfold unpin
  exact .upd .refl
theorem pruneCommitted_only (s) : Only { mpd := true } s (pruneCommitted s) := by
  unfold pruneCommitted
  exact .ite .refl (.upd .refl)
theorem releaseFrames_only (s) : Only { diag := true, mpd := true } s (releaseFrames s) := by
  unfold releaseFrames
  exact (pruneCommitted_only ..).after (.each (fun _ _ => .ite (.ite (.upd (.upd ((setEntry_only ..).mono))) ((setFrame_only ..).after (.upd ((setEntry_only ..).mono)))) .refl) .refl)
theorem issueRec_only (p r s) : Only { links := true, injs := true, hop := true, tx := true } s (issueRec p r s) := by
  unfold issueRec
  exact (modHopPort_only ..).after (.ite ((mirror_only ..).mono) .refl)
theorem dropGrants_only (p tag s) : Only { hop := true } s (dropGrants p tag s) := by
  unfold dropGrants
  exact (modHopPort_only ..).mono
theorem completeOne_only (arr status info s) : Only { diag := true, mrc := true, mpd := true, links := true, injs := true, hop := true, tx := true } s (completeOne arr status info s) := by
  unfold completeOne
  split
  · exact .refl
  · exact .ite .refl ((issueRec_only ..).after ((dropGrants_only ..).after ((releaseFrames_only ..).after ((unpin_only ..).after (.ite ((modCmd_only ..).mono) ((freeSlots_only ..).after ((modCmd_only ..).mono)))))))
theorem complete_only (arr status info s) : Only { diag := true, mrc := true, mpd := true, links := true, injs := true, hop := true, tx := true } s (complete arr status info s) := by
  unfold complete
  split
  · exact .refl
  · exact .each (fun _ _ => (completeOne_only ..).mono) ((completeOne_only ..).mono)
theorem dropClean_only (lba s) : Only { diag := true, mpd := true } s (dropClean lba s) := by
  unfold dropClean
  exact .each (fun _ _ => .ite (.upd .refl) ((setFrame_only ..).after (.upd .refl))) .refl
theorem setState_only (f st s) : Only { mpd := true, links := true, injs := true, tx := true } s (setState f st s) := by
  unfold setState
  exact .ite ((setEntry_only ..).mono) ((mirror_only ..).after ((setEntry_only ..).mono))
theorem addWork_only (w s) : Only { slu := true } s (addWork w s) := by
  unfold addWork
  exact .ite .refl (.upd .refl)
theorem readWorks_only (kind a q keys arrival repair s) : Only { slu := true } s (readWorks kind a q keys arrival repair s) := by
  unfold readWorks
  exact .each (fun _ _ => (addWork_only ..).mono) .refl
theorem fetchRow_only (arr row lbas s) : Only { slu := true } s (fetchRow arr row lbas s) := by
  unfold fetchRow
  exact .ite .refl (.ite ((readWorks_only ..).mono) ((readWorks_only ..).mono))
theorem takeBlock_only (arr i lba s) : Only { mpd := true, hop := true } s (takeBlock arr i lba s) := by
  unfold takeBlock
  extract_lets b t
  have ht : Only { mpd := true, hop := true } s t := (modCmd_only ..).mono
  clear_value b t
  split
  · exact .ite (.upd (.upd ht)) (.upd ht)
  · exact .upd ht
  · exact ht
theorem retakeBlock_only (arr i lba s) : Only { mpd := true, hop := true, slu := true } s (retakeBlock arr i lba s) := by
  unfold retakeBlock
  extract_lets
  split
  · exact (fetchRow_only ..).after ((takeBlock_only ..).mono)
  · exact (takeBlock_only ..).mono
theorem withdraw_only (f s) : Only { diag := true, mpd := true, links := true, injs := true, hop := true, slu := true, tx := true } s (withdraw f s) := by
  unfold withdraw
  refine .each (fun _ _ => ?_) ((mirror_only ..).after (.upd ((setFrame_only ..).after ((setEntry_only ..).mono))))
  split
  · exact .refl
  · refine (modCmd_only ..).after ?_
    split
    · exact (retakeBlock_only ..).mono
    · exact .refl
theorem passWrite_only (w s) : Only { mpd := true, hop := true, slu := true } s (passWrite w s) := by
  unfold passWrite
  refine .each (fun _ _ => ?_) .refl
  split
  · exact .refl
  · exact (modCmd_only ..).after (.each (fun _ _ => (retakeBlock_only ..).mono) .refl)
theorem withdrawLanding_only (c s) : Only { diag := true, mpd := true, links := true, injs := true, hop := true, slu := true, tx := true } s (withdrawLanding c s) := by
  unfold withdrawLanding
  exact .each (fun _ _ => .ite ((withdraw_only ..).mono) .refl) ((passWrite_only ..).after ((modCmd_only ..).mono))
theorem ackEntries_only (c s) : Only { mpd := true } s (ackEntries c s) := by
  unfold ackEntries
  exact .each (fun _ _ => .each (fun _ _ => .ite ((setEntry_only ..).mono) .refl) .refl) .refl
theorem beginVerify_only (arr s) : Only { hop := true, slu := true } s (beginVerify arr s) := by
  unfold beginVerify
  split
  · exact .refl
  · exact .each (fun _ _ => (fetchRow_only ..).mono) ((modCmd_only ..).mono)
theorem recheck_only (s) : Only { diag := true, mrc := true, mpd := true, links := true, injs := true, hop := true, slu := true, tx := true } s (recheck s) := by
  unfold recheck
  refine .each (fun _ _ => ?_) .refl
  split
  · exact .refl
  · exact .ite ((complete_only ..).after ((ackEntries_only ..).mono)) (.ite ((complete_only ..).mono) (.ite ((beginVerify_only ..).mono) .refl))
theorem mqNote_only (q s) : Only { mqs := true, tx := true, free := true } s (mqNote q s) := by
  unfold mqNote
  exact (mqSend_only ..).after ((nextFree_only ..).mono)
theorem listBlock_only (lba s) : Only { layout := true } s (listBlock lba s) := by
  unfold listBlock
  exact .ite .refl (.upd .refl)
theorem storeDeferred_only (r s) : Only { hop := true } s (storeDeferred r s) := by
  unfold storeDeferred
  exact (modHopPort_only ..).mono
theorem addDeferred_only (r s) : Only { evt := true, mqs := true, gov := true, links := true, injs := true, hop := true, tx := true, free := true } s (addDeferred r s) := by
  unfold addDeferred
  refine .ite ?_ ((mqNote_only ..).after ((mirror_only ..).after ((post_only ..).after ((storeDeferred_only ..).after (.upd .refl)))))
  split
  · exact .ite .refl ((mirror_only ..).after ((storeDeferred_only ..).mono))
  · exact .refl
theorem raiseDeferred_only (portB cause lba arrival tag s) : Only { evt := true, mqs := true, layout := true, gov := true, links := true, injs := true, hop := true, tx := true, free := true } s (raiseDeferred portB cause lba arrival tag s) := by
  unfold raiseDeferred
  extract_lets
  split
  · exact (addDeferred_only ..).after ((listBlock_only ..).mono)
  · exact (mirror_only ..).after ((storeDeferred_only ..).after ((listBlock_only ..).mono))
theorem takeReady_intake (k : Link) : (takeReady k).2.intake = k.intake := by
  unfold takeReady
  split
  · split <;> rfl
  · rfl
theorem startRun_only (l lane s) : Only { links := true, injs := true } s (startRun l lane s) := by
  unfold startRun
  split
  · exact .refl
  · next f k hk =>
    have hi (c : Prop) [Decidable c] : Only { links := true, injs := true } s (if c then injectTx l 0 s else (none, s)).2 := by
      split
      · exact (injectTx_only ..).mono
      · exact .refl
    have hk : k.intake = (getLink s l).intake := (congrArg (·.2.intake) hk).symm.trans (takeReady_intake _)
    split
    next second k' hk' =>
    have hk' : k'.intake = k.intake := (congrArg (·.2.intake) hk').symm.trans (takeReady_intake _)
    exact (modLink_only _ _ _ ((hk'.trans hk).trans ((hi _).kept rfl l).symm)).after (hi _)
theorem nextBlock_only (l lane s) : Only { links := true, injs := true } s (nextBlock l lane s).2 := by
  unfold nextBlock
  extract_lets
  split
  · exact (modLink_only ..).mono
  · split
    · exact (modLink_only ..).mono
    · split
      · exact (modLink_only ..).after (.ite ((startRun_only ..).mono) .refl)
      · exact .ite ((startRun_only ..).mono) .refl
theorem laneBlocks_only (l n acc s) : Only { links := true, injs := true } s (laneBlocks l n acc s).2 := by
  have hfold (es : List (Nat × List (BitVec 257))) (p : List (Nat × List (BitVec 257)) × State) :
      Only { links := true, injs := true } p.2 (es.foldl (fun p e => (p.1 ++ [(e.1, e.2 ++ [(nextBlock l e.1 p.2).1])], (nextBlock l e.1 p.2).2)) p).2 := by
    induction es generalizing p with
    | nil => exact .refl
    | cons e es ih => exact (nextBlock_only ..).trans (ih (p.1 ++ [(e.1, e.2 ++ [(nextBlock l e.1 p.2).1])], (nextBlock l e.1 p.2).2))
  induction n generalizing acc s with
  | zero => exact .refl
  | succ n ih => exact (hfold acc ([], s)).trans (ih ..)
theorem sendCodewords_only (l s) : Only { links := true, injs := true, tx := true } s (sendCodewords l s) := by
  have h := laneBlocks_only l 20 ((List.range (laneSpare l + 1)).map fun n => (n, [])) s
  unfold sendCodewords
  revert h
  generalize laneBlocks l 20 ((List.range (laneSpare l + 1)).map fun n => (n, [])) s = p
  exact fun h => .each (fun _ _ => (send_only ..).mono) ((modLink_only ..).after h.mono)
theorem laneRounds_only (t0 t1 s) : Only { links := true, injs := true, tx := true } s (laneRounds t0 t1 s) := by
  unfold laneRounds
  exact .each (fun _ _ => .ite (.each (fun _ _ => (sendCodewords_only ..).mono) .refl) .refl) .refl
theorem countReport_only (r s) : Only { flt := true } s (countReport r s) := by
  unfold countReport
  exact .ite (.upd .refl) (.upd .refl)
theorem captureFirst_only (rs s) : Only { flt := true, gov := true } s (captureFirst rs s) := by
  unfold captureFirst
  extract_lets
  split
  · exact .refl
  · exact .ite (.ite ((traceFire_only ..).after (.upd .refl)) (.upd .refl)) (.ite (.upd .refl) (.upd .refl))
theorem cutVisit_only (a s) : Only { evt := true, alks := true, islands := true, heads := true, gov := true, mrc := true, slu := true, fan := true, tx := true } s (cutVisit a s) := by
  unfold cutVisit
  split
  · exact .refl
  · exact .ite (.upd (.each (fun _ _ => (restHead_only ..).mono) (.upd ((freeInner_only ..).mono)))) ((post_only ..).after (.upd (.each (fun _ _ => (restHead_only ..).mono) (.upd ((freeInner_only ..).mono)))))
theorem endVisits_only (s) : Only { evt := true, alks := true, islands := true, heads := true, gov := true, mrc := true, slu := true, fan := true, tx := true } s (endVisits s) := by
  unfold endVisits
  exact .upd (.each (fun _ _ => (cutVisit_only ..).mono) (.each (fun _ _ => .ite ((modSine_only ..).mono) .refl) .refl))
theorem openCause_only (event unit injected s) : Only { flt := true } s (openCause event unit injected s) := by
  unfold openCause
  exact .ite .refl (.upd .refl)
theorem closeCause_only (event unit s) : Only { flt := true } s (closeCause event unit s) := by
  unfold closeCause
  exact .upd .refl
theorem enterHold_only (event injected s) : Only { dev := true, flt := true, evt := true, alks := true, islands := true, heads := true, gov := true, mrc := true, slu := true, fan := true, tx := true } s (enterHold event injected s) := by
  unfold enterHold
  exact .ite ((post_only ..).after ((endVisits_only ..).after (.upd .refl))) (.ite (.upd .refl) .refl)
theorem reportAll_only (rs s) : Only { dev := true, flt := true, evt := true, mqs := true, alks := true, islands := true, heads := true, gov := true, mrc := true, slu := true, fan := true, tx := true, free := true } s (reportAll rs s) := by
  unfold reportAll
  exact .each (fun _ _ => (enterHold_only ..).mono) ((captureFirst_only ..).after (.each (fun _ _ => (mqNote_only ..).after ((countReport_only ..).mono)) .refl))
theorem report_only (r s) : Only { dev := true, flt := true, evt := true, mqs := true, alks := true, islands := true, heads := true, gov := true, mrc := true, slu := true, fan := true, tx := true, free := true } s (report r s) := by
  unfold report
  exact (reportAll_only ..).mono
theorem condition_only (code master cause hold fs s) : Only { dev := true, flt := true, evt := true, mqs := true, alks := true, islands := true, heads := true, gov := true, mrc := true, slu := true, fan := true, tx := true, free := true } s (condition code master cause hold fs s) := by
  unfold condition
  exact (report_only ..).after ((post_only ..).mono)
theorem spnReport_only (code fs hold s) : Only { dev := true, flt := true, evt := true, mqs := true, alks := true, islands := true, heads := true, gov := true, spn := true, mrc := true, slu := true, fan := true, tx := true, free := true } s (spnReport code fs hold s) := by
  unfold spnReport
  exact (report_only ..).after ((spnEvent_only ..).mono)
theorem generatorEnd_only (s) : Only { dev := true, flt := true, evt := true, mqs := true, alks := true, islands := true, heads := true, gov := true, spn := true, spc := true, mrc := true, slu := true, fan := true, tx := true, free := true } s (generatorEnd s) := by
  unfold generatorEnd
  exact (spnReport_only ..).after (.upd ((startCoast_only ..).mono))
theorem dropActive_only (s) : Only { ptn := true, arms := true, gov := true, spn := true, spc := true, slu := true, tx := true } s (dropActive s) := by
  unfold dropActive
  exact .upd (.ite ((send_only ..).after (.upd (.ite ((inverterOff_only ..).after (.ite (.each (fun _ _ => (vcmFrame_only ..).mono) .refl) .refl)) ((startCoast_only ..).after (.ite (.each (fun _ _ => (vcmFrame_only ..).mono) .refl) .refl))))) (.ite ((inverterOff_only ..).after (.ite (.each (fun _ _ => (vcmFrame_only ..).mono) .refl) .refl)) ((startCoast_only ..).after (.ite (.each (fun _ _ => (vcmFrame_only ..).mono) .refl) .refl))))
theorem enterStopped_only (cause s) : Only { dev := true, start := true, flt := true, evt := true, ptn := true, alks := true, islands := true, heads := true, arms := true, gov := true, spn := true, spc := true, mrc := true, hop := true, slu := true, fan := true, tx := true } s (enterStopped cause s) := by
  unfold enterStopped
  exact .upd (.each (fun _ _ => (armDark_only ..).mono) ((endVisits_only ..).after ((dropActive_only ..).mono)))
theorem holdBackEntries_only (c s) : Only { mpd := true } s (holdBackEntries c s) := by
  unfold holdBackEntries
  exact .each (fun _ _ => (setEntry_only ..).mono) .refl
theorem completeAll_only (cause s) : Only { diag := true, mrc := true, mpd := true, links := true, injs := true, hop := true, tx := true } s (completeAll cause s) := by
  unfold completeAll
  refine .each (fun _ _ => ?_) (.upd .refl)
  split
  · exact .refl
  · exact .ite .refl (.ite ((complete_only ..).after ((ackEntries_only ..).mono)) ((complete_only ..).after (.ite ((holdBackEntries_only ..).mono) .refl)))
theorem finalStop_only (cause s) : Only { dev := true, start := true, flt := true, evt := true, ptn := true, alks := true, islands := true, heads := true, arms := true, gov := true, spn := true, spc := true, mrc := true, hop := true, slu := true, fan := true, tx := true } s (finalStop cause s) := by
  unfold finalStop
  exact (enterStopped_only ..).after ((post_only ..).after ((releaseArms_only ..).mono))
theorem stopChannels_only (s) : Only { diag := true, mrc := true, mpd := true, tre := true, fls := true, free := true } s (stopChannels s) := by
  unfold stopChannels
  exact .each (fun _ _ => .ite ((stopChannel_only ..).mono) .refl) .refl
theorem advanceStop_only (s) : Only { dev := true, start := true, flt := true, evt := true, ptn := true, alks := true, islands := true, heads := true, arms := true, gov := true, spn := true, spc := true, mrc := true, hop := true, slu := true, fan := true, tx := true } s (advanceStop s) := by
  unfold advanceStop
  exact .ite ((finalStop_only ..).after (.ite (.ite ((startCoast_only ..).after (.upd .refl)) (.ite ((spindleStop_only ..).after (.upd .refl)) (.upd .refl))) .refl)) (.ite (.ite ((startCoast_only ..).after (.upd .refl)) (.ite ((spindleStop_only ..).after (.upd .refl)) (.upd .refl))) .refl)
theorem dropGone_only (s) : Only { evt := true, mqs := true, layout := true, gov := true, mpd := true, links := true, injs := true, hop := true, tx := true, free := true } s (dropGone s) := by
  unfold dropGone
  exact .upd (.each (fun _ _ => .ite ((raiseDeferred_only ..).after ((post_only ..).after ((setEntry_only ..).mono))) ((setEntry_only ..).mono)) .refl)
theorem stopSequence_only (solo cause s) : Only (.but { aon := true, idn := true, fuses := true, clk := true, pwr := true, img := true, nvm := true, bol := true, rows := true, fcc := true, pending := true, intake := true }) s (stopSequence solo cause s) := by
  unfold stopSequence
  refine .ite .refl ?_
  split
  · exact (finalStop_only ..).after ((stopChannels_only ..).after ((completeAll_only ..).mono))
  · exact (finalStop_only ..).after ((stopChannels_only ..).after ((completeAll_only ..).mono))
  · exact (finalStop_only ..).after ((stopChannels_only ..).after ((completeAll_only ..).mono))
  · exact (finalStop_only ..).after ((stopChannels_only ..).after ((completeAll_only ..).mono))
  · exact (finalStop_only ..).after ((stopChannels_only ..).after ((completeAll_only ..).mono))
  · exact .refl
  · exact .refl
  · exact .ite ((finalStop_only ..).after ((dropActive_only ..).after (.upd ((post_only ..).after ((ptnSend_only ..).after (.upd ((stopChannels_only ..).after ((completeAll_only ..).after ((endVisits_only ..).after (.upd .refl)))))))))) ((advanceStop_only ..).after (.upd ((dropGone_only ..).after (.upd (.ite ((unloadAll_only ..).after (.ite ((post_only ..).after ((ptnSend_only ..).after (.upd ((stopChannels_only ..).after ((completeAll_only ..).after ((endVisits_only ..).after (.upd .refl))))))) (.upd ((stopChannels_only ..).after ((completeAll_only ..).after ((endVisits_only ..).after (.upd .refl))))))) (.ite ((post_only ..).after ((ptnSend_only ..).after (.upd ((stopChannels_only ..).after ((completeAll_only ..).after ((endVisits_only ..).after (.upd .refl))))))) (.upd ((stopChannels_only ..).after ((completeAll_only ..).after ((endVisits_only ..).after (.upd .refl)))))))))))
theorem failStopInj_only (injected cause s) : Only (.but { aon := true, idn := true, fuses := true, clk := true, pwr := true, img := true, nvm := true, bol := true, rows := true, fcc := true, pending := true, intake := true }) s (failStopInj injected cause s) := by
  unfold failStopInj
  exact .ite ((enterHold_only ..).mono) ((stopSequence_only ..).after (.upd .refl))
theorem failStop_only (cause s) : Only (.but { aon := true, idn := true, fuses := true, clk := true, pwr := true, img := true, nvm := true, bol := true, rows := true, fcc := true, pending := true, intake := true }) s (failStop cause s) := by
  unfold failStop
  exact (failStopInj_only ..).mono
theorem holdUpSpindle_only (s) : Only { dev := true, flt := true, evt := true, mqs := true, alks := true, islands := true, heads := true, gov := true, spn := true, spc := true, mrc := true, slu := true, fan := true, tx := true, free := true } s (holdUpSpindle s) := by
  unfold holdUpSpindle
  exact .ite .refl (.ite (.ite ((startGenerator_only ..).mono) ((generatorEnd_only ..).mono)) (.ite (.ite .refl ((generatorEnd_only ..).mono)) (.ite (.ite ((startGenerator_only ..).mono) ((generatorEnd_only ..).mono)) (.ite (.ite (.ite ((startCatch_only ..).mono) .refl) ((generatorEnd_only ..).mono)) (.ite (.ite (.ite ((startCatch_only ..).mono) ((startOffsets_only ..).mono)) ((generatorEnd_only ..).mono)) ((generatorEnd_only ..).mono))))))
theorem quiesceFlash_only (s) : Only { evt := true, hold := true, gov := true, fls := true } s (quiesceFlash s) := by
  unfold quiesceFlash
  exact .each (fun _ _ => .ite ((post_only ..).after ((modBank_only ..).after ((cutBank_only ..).mono))) .refl) (.upd .refl)
theorem holdUpRetract_only (s) : Only { alks := true, islands := true, heads := true, arms := true, gov := true, tx := true } s (holdUpRetract s) := by
  unfold holdUpRetract
  exact .each (fun _ _ => (retractArm_only ..).after (.each (fun _ _ => (modHead_only ..).after ((sendMode_only ..).after ((coolHead_only ..).after ((gateIsland_only ..).mono)))) ((sendWgate_only ..).mono))) .refl
theorem enterHoldUp_only (source s) : Only (.but { aon := true, idn := true, fuses := true, clk := true, pwr := true, img := true, nvm := true, bol := true, rows := true, fcc := true, pending := true, intake := true }) s (enterHoldUp source s) := by
  unfold enterHoldUp
  exact .ite ((enterStopped_only ..).after ((post_only ..).after ((freeInner_only ..).after (.upd ((stopChannels_only ..).after ((quiesceFlash_only ..).after ((alkClose_only ..).after ((holdUpRetract_only ..).after ((alkDrop_only ..).after ((holdUpSpindle_only ..).after ((dropGone_only ..).after ((completeAll_only ..).after ((post_only ..).after ((endVisits_only ..).after (.upd .refl))))))))))))))) ((freeInner_only ..).after (.upd ((stopChannels_only ..).after ((quiesceFlash_only ..).after ((alkClose_only ..).after ((holdUpRetract_only ..).after ((alkDrop_only ..).after ((holdUpSpindle_only ..).after ((dropGone_only ..).after ((completeAll_only ..).after ((post_only ..).after ((endVisits_only ..).after (.upd .refl)))))))))))))
theorem powerFailed_only (source s) : Only (.but { aon := true, idn := true, fuses := true, clk := true, pwr := true, img := true, nvm := true, bol := true, rows := true, fcc := true, pending := true, intake := true }) s (powerFailed source s) := by
  unfold powerFailed
  refine .ite ((enterHoldUp_only ..).mono) ?_
  split
  · exact .ite (.upd .refl) ((post_only ..).after (.upd .refl))
  · exact .ite (.upd .refl) ((post_only ..).after (.upd .refl))
  · exact .ite (.upd .refl) ((post_only ..).after (.upd .refl))
  · exact .upd .refl
theorem startRebuild_only (a h s) : Only { evt := true, layout := true, gov := true } s (startRebuild a h s) := by
  unfold startRebuild
  exact (post_only ..).after (.upd .refl)
theorem declareFailed_only (n s) : Only (.but { aon := true, idn := true, fuses := true, clk := true, pwr := true, img := true, nvm := true, rows := true, fcc := true, pending := true, intake := true }) s (declareFailed n s) := by
  unfold declareFailed
  exact .ite .refl (.ite ((failStop_only ..).after ((post_only ..).after ((mirror_only ..).after (.upd ((modHead_only ..).after ((modIsl_only ..).after ((disableCtx_only ..).after ((disableCtx_only ..).after ((sendUa_only ..).after ((sendMode_only ..).after ((coolHead_only ..).after ((stopWriter_only ..).mono)))))))))))) ((startRebuild_only ..).after ((post_only ..).after ((mirror_only ..).after (.upd ((modHead_only ..).after ((modIsl_only ..).after ((disableCtx_only ..).after ((disableCtx_only ..).after ((sendUa_only ..).after ((sendMode_only ..).after ((coolHead_only ..).after ((stopWriter_only ..).mono)))))))))))))
theorem dropWork_only (f s) : Only { tre := true, slu := true } s (dropWork f s) := by
  unfold dropWork
  exact .upd .refl
theorem reserveSlot_only (arr pos lba s) : Only { mrc := true } s (reserveSlot arr pos lba s) := by
  unfold reserveSlot
  refine .ite .refl ?_
  split
  · exact (modSlot_only ..).mono
  · exact .refl
theorem fillSlot_only (arr pos lba data s) : Only { diag := true, mrc := true } s (fillSlot arr pos lba data s).2 := by
  unfold fillSlot
  have ht : Only { diag := true, mrc := true } s (reserveSlot arr pos lba s) := (reserveSlot_only ..).mono
  generalize reserveSlot arr pos lba s = t at ht
  dsimp only
  split
  · exact (writeSlot_only ..).after ht
  · exact ht
theorem setSrc_only (arr i b s) : Only { hop := true } s (setSrc arr i b s) := by
  unfold setSrc
  exact (modCmd_only ..).mono
theorem pumpRead_only (arr s) : Only { diag := true, mrc := true, mpd := true, links := true, injs := true, hop := true, tx := true } s (pumpRead arr s) := by
  unfold pumpRead
  split
  · exact .refl
  · refine .ite .refl ?_
    refine (releaseFrames_only ..).after ?_
    split
    · refine (complete_only ..).after ?_
      refine .each (fun _ _ => ?_) .refl
      split
      · refine .ite ?_ .refl
        split
        · exact .upd ((setSrc_only ..).after (Only.of_eq_snd ((fillSlot_only ..).mono) ‹_›))
        · exact Only.of_eq_snd ((fillSlot_only ..).mono) ‹_›
      · exact .refl
    · refine (complete_only ..).after ?_
      refine .each (fun _ _ => ?_) .refl
      split
      · refine .ite ?_ .refl
        split
        · exact .upd ((setSrc_only ..).after (Only.of_eq_snd ((fillSlot_only ..).mono) ‹_›))
        · exact Only.of_eq_snd ((fillSlot_only ..).mono) ‹_›
      · exact .refl
    · refine .each (fun _ _ => ?_) .refl
      split
      · refine .ite ?_ .refl
        split
        · exact .upd ((setSrc_only ..).after (Only.of_eq_snd ((fillSlot_only ..).mono) ‹_›))
        · exact Only.of_eq_snd ((fillSlot_only ..).mono) ‹_›
      · exact .refl
theorem pumpVerify_only (arr s) : Only { diag := true, mrc := true, mpd := true, links := true, injs := true, hop := true, tx := true } s (pumpVerify arr s) := by
  unfold pumpVerify
  split
  · exact .refl
  · refine .ite .refl ?_
    split
    · exact (complete_only ..).mono
    · exact .ite ((complete_only ..).mono) .refl
theorem deliverHost_only (lba data htag s) : Only { diag := true, mrc := true, mpd := true, links := true, injs := true, hop := true, tx := true } s (deliverHost lba data htag s) := by
  unfold deliverHost
  refine .each (fun _ _ => ?_) .refl
  split
  · exact .refl
  · refine .ite ?_ ((pumpVerify_only ..).after ((setSrc_only ..).after (.ite ((modCmd_only ..).mono) .refl)))
    refine .ite .refl ?_
    split
    · exact (pumpRead_only ..).after (.upd ((setSrc_only ..).after (Only.of_eq_snd ((fillSlot_only ..).mono) ‹_›)))
    · exact Only.of_eq_snd ((fillSlot_only ..).mono) ‹_›
theorem loseHost_only (lba s) : Only { diag := true, mrc := true, mpd := true, links := true, injs := true, hop := true, tx := true } s (loseHost lba s) := by
  unfold loseHost
  exact .each (fun _ _ => (pumpVerify_only ..).after ((pumpRead_only ..).after ((setSrc_only ..).mono))) (.upd .refl)
theorem modRow_only (row f s) : Only { rows := true } s (modRow row f s) := by
  unfold modRow
  exact .upd .refl
theorem reclaim_only (f s) : Only { mpd := true } s (reclaim f s) := by
  unfold reclaim
  exact .upd .refl
theorem takeFrame_only {f s t} (h : takeFrame s = some (f, t)) : Only { mpd := true } s t := by
  unfold takeFrame at h
  split at h
  · cases h
    exact .refl
  · obtain ⟨f, -, e⟩ := Option.map_eq_some_iff.1 h
    cases e
    exact (reclaim_only ..).mono
theorem prefetchIn_only (lba data htag s) : Only { diag := true, mpd := true } s (prefetchIn lba data htag s) := by
  unfold prefetchIn
  refine .ite ?_ .refl
  split
  · exact (setFrame_only ..).after (.upd .refl)
  · exact .refl
theorem prefetchParity_only (row k data htag s) : Only { diag := true, mpd := true } s (prefetchParity row k data htag s) := by
  unfold prefetchParity
  refine .ite .refl ?_
  split
  · exact (setFrame_only ..).after (.upd .refl)
  · exact .refl
theorem dropParity_only (row s) : Only { diag := true, mpd := true } s (dropParity row s) := by
  unfold dropParity
  exact .each (fun _ _ => (setFrame_only ..).after (.upd .refl)) .refl
theorem keepRead_only (lba data htag whole s) : Only { diag := true, mpd := true } s (keepRead lba data htag whole s) := by
  unfold keepRead
  refine .ite ?_ .refl
  split
  · exact (setFrame_only ..).after (.upd ((takeFrame_only ‹_›).mono))
  · exact .refl
theorem modRowSec_only (row k f s) : Only { rows := true } s (modRowSec row k f s) := by
  unfold modRowSec
  exact (modRow_only ..).mono
theorem putParityAt_only (base sl data htag poison s) : Only { diag := true, mpd := true } s (putParityAt base sl data htag poison s) := by
  unfold putParityAt
  exact (setFrame_only ..).after ((setFrame_only ..).mono)
theorem putParity_only (r t sl data htag poison s) : Only { diag := true, mpd := true } s (putParity r t sl data htag poison s) := by
  unfold putParity
  exact (putParityAt_only ..).mono
theorem buildParity_only (r s) : Only { diag := true, mpd := true } s (buildParity r s) := by
  unfold buildParity
  exact .each (fun _ _ => .each (fun _ _ => (putParity_only ..).mono) .refl) .refl
theorem rowReady_only (row s) : Only { diag := true, mpd := true, rows := true, slu := true } s (rowReady row s) := by
  unfold rowReady
  split
  · exact .refl
  · exact .each (fun _ _ => .each (fun _ _ => (addWork_only ..).mono) .refl) (.each (fun _ _ => (modRowSec_only ..).mono) (.ite ((buildParity_only ..).mono) .refl))
theorem readersToRow_only (r s) : Only { diag := true, mrc := true, mpd := true, links := true, injs := true, hop := true, tx := true } s (readersToRow r s) := by
  unfold readersToRow
  refine .each (fun _ _ => ?_) .refl
  refine .each (fun _ _ => ?_) .refl
  extract_lets
  split
  · exact .refl
  · exact (pumpRead_only ..).after (.ite ((setSrc_only ..).after (.upd .refl)) ((setSrc_only ..).after (.upd (.upd .refl))))
theorem pumpReaders_only (s) : Only { diag := true, mrc := true, mpd := true, links := true, injs := true, hop := true, tx := true } s (pumpReaders s) := by
  unfold pumpReaders
  exact .each (fun _ _ => (pumpRead_only ..).mono) .refl
theorem loseStaged_only (f s) : Only { diag := true, mrc := true, mpd := true, links := true, injs := true, hop := true, tx := true } s (loseStaged f s) := by
  unfold loseStaged
  exact .each (fun _ _ => (pumpRead_only ..).after ((modCmd_only ..).mono)) .refl
theorem startBuild_only (row s) : Only { diag := true, mrc := true, mpd := true, rows := true, links := true, injs := true, hop := true, slu := true, tx := true } s (startBuild row s) := by
  unfold startBuild
  split
  · exact .refl
  · exact .refl
  · extract_lets
    split
    · refine .each (fun _ _ => ?_) (.upd .refl)
      refine .ite ((modRow_only ..).after ((setFrame_only ..).mono)) ?_
      split
      · exact (modRow_only ..).after ((setState_only ..).after ((setEntry_only ..).mono))
      · refine .ite ((modRow_only ..).mono) ?_
        split
        · exact (modRow_only ..).after ((setFrame_only ..).mono)
        · exact .refl
    · refine .ite ?_ ?_
      · refine (rowReady_only ..).after ?_
        refine (readersToRow_only ..).after ?_
        refine .each (fun _ _ => ?_) (.upd .refl)
        refine .ite ((modRow_only ..).after ((setFrame_only ..).mono)) ?_
        split
        · exact (modRow_only ..).after ((setState_only ..).after ((setEntry_only ..).mono))
        · refine .ite ((modRow_only ..).mono) ?_
          split
          · exact (modRow_only ..).after ((setFrame_only ..).mono)
          · exact .refl
      · refine (readWorks_only ..).after ?_
        refine (readersToRow_only ..).after ?_
        refine .each (fun _ _ => ?_) (.upd .refl)
        refine .ite ((modRow_only ..).after ((setFrame_only ..).mono)) ?_
        split
        · exact (modRow_only ..).after ((setState_only ..).after ((setEntry_only ..).mono))
        · refine .ite ((modRow_only ..).mono) ?_
          split
          · exact (modRow_only ..).after ((setFrame_only ..).mono)
          · exact .refl
theorem startIfUnpinned_only (row s) : Only { diag := true, mrc := true, mpd := true, rows := true, links := true, injs := true, hop := true, slu := true, tx := true } s (startIfUnpinned row s) := by
  unfold startIfUnpinned
  exact .ite ((startBuild_only ..).mono) .refl
theorem readIn_only (lba data htag s) : Only { diag := true, mrc := true, mpd := true, rows := true, links := true, injs := true, hop := true, slu := true, tx := true } s (readIn lba data htag s) := by
  unfold readIn
  split
  · exact .refl
  · refine .ite ?_ .refl
    extract_lets
    split
    · exact .ite ((rowReady_only ..).after ((pumpReaders_only ..).after ((setFrame_only ..).after ((modRow_only ..).mono)))) ((pumpReaders_only ..).after ((setFrame_only ..).after ((modRow_only ..).mono)))
    · exact (pumpReaders_only ..).after ((setFrame_only ..).after ((modRow_only ..).mono))
theorem parityIn_only (a q h t sl i s) : Only { diag := true, mpd := true, rows := true, slu := true } s (parityIn a q h t sl i s) := by
  unfold parityIn
  split
  · exact .refl
  · exact .ite ((rowReady_only ..).after ((putParity_only ..).mono)) ((putParity_only ..).mono)
theorem rewriteRow_only (row s) : Only { mpd := true, rows := true } s (rewriteRow row s) := by
  unfold rewriteRow
  exact .upd .refl
theorem shareLost_only (a q h s) : Only { mpd := true, rows := true } s (shareLost a q h s) := by
  unfold shareLost
  split
  · exact .refl
  · exact (rewriteRow_only ..).mono
theorem poisonIn_only (lba s) : Only { diag := true, mpd := true, rows := true, slu := true } s (poisonIn lba s) := by
  unfold poisonIn
  split
  · exact .refl
  · refine .ite .refl ?_
    extract_lets
    split
    · exact .ite ((rowReady_only ..).after ((modRow_only ..).mono)) ((modRow_only ..).mono)
    · exact (modRow_only ..).mono
theorem readInLost_only (lba s) : Only { diag := true, mrc := true, mpd := true, rows := true, links := true, injs := true, hop := true, slu := true, tx := true } s (readInLost lba s) := by
  unfold readInLost
  split
  · exact .refl
  · refine .ite (.ite .refl ((rewriteRow_only ..).mono)) ?_
    refine .ite ?_ .refl
    extract_lets
    split
    · exact .ite ((rowReady_only ..).after ((loseStaged_only ..).after ((modRow_only ..).mono))) ((loseStaged_only ..).after ((modRow_only ..).mono))
    · exact (loseStaged_only ..).after ((modRow_only ..).mono)
theorem pinCopy_only (lba data htag s) : Only { diag := true, mrc := true, mpd := true, rows := true, links := true, injs := true, hop := true, slu := true, tx := true } s (pinCopy lba data htag s) := by
  unfold pinCopy
  refine .ite ?_ ((startIfUnpinned_only ..).mono)
  split
  · exact .refl
  · exact (startIfUnpinned_only ..).after (.each (fun _ _ => (pumpRead_only ..).mono) (.each (fun _ _ => (modCmd_only ..).mono) (.upd ((setFrame_only ..).after ((setEntry_only ..).after ((takeFrame_only ‹_›).mono))))))
theorem putSec_only (x s) : Only { bol := true } s (putSec x s) := by
  unfold putSec
  exact .upd .refl
theorem dropSec_only (x s) : Only { bol := true } s (dropSec x s) := by
  unfold dropSec
  exact .upd .refl
theorem enterRung_only (n s) : Only { bol := true } s (enterRung n s) := by
  unfold enterRung
  exact .upd .refl
theorem leaveRung_only (n s) : Only { bol := true } s (leaveRung n s) := by
  unfold leaveRung
  exact .upd .refl
theorem wantSec_only (a q h t sl s) : Only { bol := true } s (wantSec a q h t sl s) := by
  unfold wantSec
  exact .ite .refl (.ite (.each (fun _ _ => .ite .refl ((putSec_only ..).mono)) ((putSec_only ..).mono)) ((putSec_only ..).mono))
theorem rereadWork_only (x extra s) : Only { slu := true } s (rereadWork x extra s) := by
  unfold rereadWork
  exact .each (fun _ _ => (addWork_only ..).mono) .refl
theorem unrecoverable_only (lba s) : Only { evt := true, mqs := true, diag := true, layout := true, gov := true, mrc := true, mpd := true, rows := true, links := true, injs := true, hop := true, slu := true, tx := true, free := true } s (unrecoverable lba s) := by
  unfold unrecoverable
  exact (startIfUnpinned_only ..).after ((readInLost_only ..).after ((loseHost_only ..).after (.ite .refl ((mqNote_only ..).after ((post_only ..).after ((listBlock_only ..).mono))))))
theorem placeBlock_only (a q h t sl data s) : Only { diag := true, mrc := true, tre := true } s (placeBlock a q h t sl data s) := by
  unfold placeBlock
  split
  · exact .refl
  · exact .ite .refl (.upd ((writeSlot_only ..).mono))
theorem deliverInfo_only (x i s) : Only { evt := true, mqs := true, diag := true, layout := true, gov := true, mrc := true, mpd := true, rows := true, tre := true, links := true, injs := true, hop := true, slu := true, tx := true, free := true } s (deliverInfo x i s) := by
  unfold deliverInfo
  extract_lets
  split
  · exact .ite ((prefetchParity_only ..).after ((parityIn_only ..).after ((freeInner_only ..).mono))) ((parityIn_only ..).after ((freeInner_only ..).mono))
  · exact .ite ((unrecoverable_only ..).after ((poisonIn_only ..).after ((post_only ..).after ((freeInner_only ..).mono)))) (.ite ((prefetchIn_only ..).after (.ite ((keepRead_only ..).after ((pinCopy_only ..).after ((readIn_only ..).after ((deliverHost_only ..).after ((placeBlock_only ..).after ((freeInner_only ..).mono)))))) ((pinCopy_only ..).after ((readIn_only ..).after ((deliverHost_only ..).after ((placeBlock_only ..).after ((freeInner_only ..).mono))))))) (.ite ((keepRead_only ..).after ((pinCopy_only ..).after ((readIn_only ..).after ((deliverHost_only ..).after ((placeBlock_only ..).after ((freeInner_only ..).mono)))))) ((pinCopy_only ..).after ((readIn_only ..).after ((deliverHost_only ..).after ((placeBlock_only ..).after ((freeInner_only ..).mono)))))))
theorem noteLimit_only (ds a h z s) : Only { evt := true, layout := true, gov := true } s (noteLimit ds a h z s) := by
  unfold noteLimit
  exact .ite ((post_only ..).after (.upd .refl)) .refl
theorem cutProbes_only (s) : Only { evt := true, alks := true, islands := true, heads := true, gov := true, mrc := true, slu := true, fan := true, tx := true } s (cutProbes s) := by
  unfold cutProbes
  refine .each (fun _ _ => ?_) .refl
  split
  · exact .ite ((cutVisit_only ..).mono) .refl
  · exact .refl
theorem enterDefect_only (d s) : Only { evt := true, mqs := true, layout := true, alks := true, islands := true, heads := true, gov := true, mrc := true, links := true, injs := true, slu := true, fan := true, tx := true, free := true } s (enterDefect d s) := by
  unfold enterDefect
  exact (noteLimit_only ..).after ((mirror_only ..).after ((cutProbes_only ..).after ((mqNote_only ..).after ((post_only ..).after (.upd .refl)))))
theorem remapOutside_only (x origin s) : Only (.but { aon := true, idn := true, fuses := true, clk := true, pwr := true, img := true, nvm := true, rows := true, fcc := true, pending := true, intake := true }) s (remapOutside x origin s) := by
  unfold remapOutside
  extract_lets
  split
  · exact (addWork_only ..).mono
  · exact (declareFailed_only ..).mono
theorem askSecond_only (island frame track s) : Only { islands := true } s (askSecond island frame track s) := by
  unfold askSecond
  exact (modIsl_only ..).mono
theorem markDefective_only (x s) : Only (.but { aon := true, idn := true, fuses := true, clk := true, pwr := true, img := true, nvm := true, rows := true, fcc := true, pending := true, intake := true }) s (markDefective x s) := by
  unfold markDefective
  exact (remapOutside_only ..).after ((putSec_only ..).after ((post_only ..).after ((mqNote_only ..).mono)))
theorem dropReread_only (x s) : Only { slu := true } s (dropReread x s) := by
  unfold dropReread
  exact .upd .refl
theorem followUp_only (y s) : Only { bol := true, heads := true, slu := true } s (followUp y s) := by
  unfold followUp
  exact .ite ((rereadWork_only ..).after ((modHead_only ..).after ((putSec_only ..).after (.ite ((enterRung_only ..).mono) .refl)))) ((putSec_only ..).mono)
theorem tryReconstruct_only (again x s) : Only (.but { aon := true, idn := true, fuses := true, clk := true, pwr := true, img := true, nvm := true, fcc := true, pending := true, intake := true }) s (tryReconstruct again x s) := by
  unfold tryReconstruct
  refine .ite .refl ?_
  refine .ite ?_ .refl
  extract_lets
  split
  · exact .ite ((putSec_only ..).after ((dropReread_only ..).after ((deliverInfo_only ..).after ((post_only ..).after (.ite (.ite .refl ((enterRung_only ..).mono)) ((leaveRung_only ..).after (.ite .refl ((enterRung_only ..).mono)))))))) (.ite ((markDefective_only ..).after ((dropReread_only ..).after ((deliverInfo_only ..).after ((post_only ..).after (.ite (.ite .refl ((enterRung_only ..).mono)) ((leaveRung_only ..).after (.ite .refl ((enterRung_only ..).mono)))))))) ((followUp_only ..).after ((dropReread_only ..).after ((deliverInfo_only ..).after ((post_only ..).after (.ite (.ite .refl ((enterRung_only ..).mono)) ((leaveRung_only ..).after (.ite .refl ((enterRung_only ..).mono)))))))))
  · exact (putSec_only ..).after (.ite .refl ((enterRung_only ..).mono))
theorem tryEquation_only (again a q t sl s) : Only (.but { aon := true, idn := true, fuses := true, clk := true, pwr := true, img := true, nvm := true, fcc := true, pending := true, intake := true }) s (tryEquation again a q t sl s) := by
  unfold tryEquation
  refine .each (fun _ _ => ?_) .refl
  split
  · exact (tryReconstruct_only ..).mono
  · exact .refl
theorem settleLost_only (a q s) : Only { evt := true, mqs := true, diag := true, layout := true, bol := true, gov := true, mrc := true, mpd := true, rows := true, links := true, injs := true, hop := true, slu := true, tx := true, free := true } s (settleLost a q s) := by
  unfold settleLost
  refine .each (fun _ _ => ?_) .refl
  refine .ite .refl ?_
  extract_lets
  split
  · exact (unrecoverable_only ..).after (.upd ((putSec_only ..).mono))
  · exact (shareLost_only ..).after ((putSec_only ..).mono)
theorem forgetRow_only (a q s) : Only { bol := true } s (forgetRow a q s) := by
  unfold forgetRow
  exact .ite (.upd .refl) .refl
theorem endFollowUp_only (x s) : Only { bol := true, heads := true } s (endFollowUp x s) := by
  unfold endFollowUp
  exact (modHead_only ..).after ((dropSec_only ..).mono)
theorem climb_only (n x s) : Only (.but { aon := true, idn := true, fuses := true, clk := true, pwr := true, img := true, nvm := true, fcc := true, pending := true, intake := true }) s (climb n x s) := by
  unfold climb
  refine .ite ?_ (.ite ((markDefective_only ..).after ((endFollowUp_only ..).mono)) ((settleLost_only ..).after ((tryEquation_only ..).after ((putSec_only ..).mono))))
  extract_lets
  split
  · exact .ite ((tryEquation_only ..).after (.each (fun _ _ => (wantSec_only ..).mono) ((enterRung_only ..).after ((putSec_only ..).mono)))) (.ite ((tryEquation_only ..).after (.each (fun _ _ => (wantSec_only ..).mono) ((enterRung_only ..).after ((putSec_only ..).mono)))) ((rereadWork_only ..).after ((tryEquation_only ..).after (.each (fun _ _ => (wantSec_only ..).mono) ((enterRung_only ..).after ((putSec_only ..).mono))))))
  · exact (tryEquation_only ..).after (.each (fun _ _ => (wantSec_only ..).mono) ((enterRung_only ..).after ((putSec_only ..).mono)))
theorem rungFailed_only (x island frame missed s) : Only (.but { aon := true, idn := true, fuses := true, clk := true, pwr := true, img := true, nvm := true, fcc := true, pending := true, intake := true }) s (rungFailed x island frame missed s) := by
  unfold rungFailed
  refine .ite ?_ (.ite ((askSecond_only ..).after ((putSec_only ..).mono)) ((climb_only ..).mono))
  extract_lets
  split
  · exact .ite ((tryEquation_only ..).after ((putSec_only ..).mono)) ((askSecond_only ..).after ((tryEquation_only ..).after ((putSec_only ..).mono)))
  · exact (tryEquation_only ..).after ((putSec_only ..).mono)
theorem rungPassed_only (rung x i s) : Only (.but { aon := true, idn := true, fuses := true, clk := true, pwr := true, img := true, nvm := true, fcc := true, pending := true, intake := true }) s (rungPassed rung x i s) := by
  unfold rungPassed
  exact .ite ((endFollowUp_only ..).after (.ite ((mqNote_only ..).after (.ite ((post_only ..).after ((leaveRung_only ..).mono)) ((leaveRung_only ..).mono))) (.ite ((post_only ..).after ((leaveRung_only ..).mono)) ((leaveRung_only ..).mono)))) ((settleLost_only ..).after ((tryEquation_only ..).after ((deliverInfo_only ..).after ((putSec_only ..).after (.ite ((mqNote_only ..).after (.ite ((post_only ..).after ((leaveRung_only ..).mono)) ((leaveRung_only ..).mono))) (.ite ((post_only ..).after ((leaveRung_only ..).mono)) ((leaveRung_only ..).mono)))))))
theorem rewriteWork_only (r k s) : Only { slu := true } s (rewriteWork r k s) := by
  unfold rewriteWork
  exact (addWork_only ..).mono
theorem voidSector_only (row k s) : Only { rows := true, slu := true } s (voidSector row k s) := by
  unfold voidSector
  split
  · exact .refl
  · exact .ite ((rewriteWork_only ..).after ((modRowSec_only ..).mono)) .refl
theorem passesEnded_only (o s) : Only { mpd := true, links := true, injs := true, tx := true } s (passesEnded o s) := by
  unfold passesEnded
  split
  · exact .refl
  · exact .ite .refl (.each (fun _ _ => .ite ((setState_only ..).mono) .refl) .refl)
theorem voidRepair_only (a s) : Only { slu := true } s (voidRepair a s) := by
  unfold voidRepair
  split
  · exact .refl
  · exact .ite .refl ((addWork_only ..).after (.upd .refl))
theorem voidArm_only (hit a heads s) : Only { rows := true, slu := true } s (voidArm hit a heads s) := by
  unfold voidArm
  extract_lets
  split
  · exact .refl
  · exact .ite (.each (fun _ _ => .each (fun _ _ => (voidSector_only ..).mono) .refl) .refl) (.ite ((voidRepair_only ..).mono) .refl)
theorem remapRow_only (r k s) : Only (.but { aon := true, idn := true, fuses := true, clk := true, pwr := true, img := true, nvm := true, fcc := true, pending := true, intake := true }) s (remapRow r k s) := by
  unfold remapRow
  extract_lets
  split
  · exact (declareFailed_only ..).mono
  · exact (modRow_only ..).after ((noteLimit_only ..).mono)
theorem abandonRow_only (row s) : Only { mpd := true, rows := true, tre := true, links := true, injs := true, slu := true, tx := true } s (abandonRow row s) := by
  unfold abandonRow
  split
  · exact .refl
  · refine .each (fun _ _ => ?_) ((dropWork_only ..).after (.ite ((rewriteRow_only ..).after (.upd .refl)) (.upd .refl)))
    refine .ite ?_ .refl
    split
    · exact (setState_only ..).mono
    · exact .ite ((setState_only ..).mono) ((setState_only ..).after (.ite ((setState_only ..).after ((setEntry_only ..).mono)) .refl))
theorem modRebuild_only (k f s) : Only { layout := true } s (modRebuild k f s) := by
  unfold modRebuild
  exact .upd .refl
theorem saveCursor_only (k s) : Only { layout := true, links := true, injs := true, tx := true } s (saveCursor k s) := by
  unfold saveCursor
  exact (mirror_only ..).after ((modRebuild_only ..).mono)
theorem linkDown_only (l cause inj s) : Only { evt := true, gov := true, links := true } s (linkDown l cause inj s) := by
  unfold linkDown
  exact .ite ((postInj_only ..).after ((modLink_only ..).mono)) .refl
theorem ackedFrame_only (l f s) : Only { ptn := true, mrc := true, links := true, injs := true, hop := true, tx := true } s (ackedFrame l f s) := by
  unfold ackedFrame
  split
  · split
    · exact .ite .refl (.updWith .refl (.of_parts (slots := tabFilter_wf _ _ _)))
    · exact .refl
  · refine .each (fun _ _ => ?_) .refl
    split
    · exact .ite .refl (.ite ((mirror_only ..).after (.upd (.upd .refl))) (.upd (.upd .refl)))
    · exact .refl
  · exact .refl
theorem takeAck_only (l ack s) : Only { ptn := true, mrc := true, links := true, injs := true, hop := true, tx := true } s (takeAck l ack s) := by
  unfold takeAck
  split
  · exact .refl
  · exact .each (fun _ _ => (ackedFrame_only ..).mono) ((modLink_only ..).mono)
theorem takeCredit_only (l cls total s) : Only { links := true } s (takeCredit l cls total s) := by
  unfold takeCredit
  exact .ite .refl (.ite ((modLink_only ..).mono) .refl)
theorem returnCredit_only (l cls s) : Only { links := true } s (returnCredit l cls s) := by
  unfold returnCredit
  exact (modLink_only ..).mono
theorem resend_only (l f s) : Only { evt := true, gov := true, links := true, tx := true } s (resend l f s) := by
  unfold resend
  exact .ite ((linkDown_only ..).after ((postInj_only ..).after ((sendAgain_only ..).mono))) ((sendAgain_only ..).mono)
theorem trainFailed_only (l s) : Only { evt := true, gov := true, links := true } s (trainFailed l s) := by
  unfold trainFailed
  exact .ite ((post_only ..).after ((modLink_only ..).after ((modLink_only ..).mono))) ((modLink_only ..).mono)
theorem trainLanes_only (l peerPresent s) : Only { tx := true } s (trainLanes l peerPresent s) := by
  unfold trainLanes
  exact .each (fun _ _ => .ite ((send_only ..).after ((send_only ..).mono)) ((send_only ..).mono)) .refl
theorem execLnkTrainAttempt_partnerUp_only (first s) : Only { evt := true, ptn := true, gov := true, mpd := true, links := true, injs := true, tx := true } s (execLnkTrainAttempt.partnerUp first s) := by
  unfold execLnkTrainAttempt.partnerUp
  exact .ite ((sendArb_only ..).after (.ite ((modLink_only ..).mono) (.each (fun _ _ => (sendAgain_only ..).mono) .refl))) (.ite ((askResync_only ..).after (.ite ((modLink_only ..).mono) (.each (fun _ _ => (sendAgain_only ..).mono) .refl))) (.ite ((modLink_only ..).mono) (.each (fun _ _ => (sendAgain_only ..).mono) .refl)))
theorem execLnkTrainAttempt_only (l rxFail txFail peerPresent s) : OnlyNext { evt := true, ptn := true, gov := true, mpd := true, links := true, injs := true, tx := true } s (execLnkTrainAttempt l rxFail txFail peerPresent s) := by
  unfold execLnkTrainAttempt
  exact .live (Only.next (.ite (.ite ((trainLanes_only ..).after ((modLink_only ..).mono)) (.ite (.ite ((post_only ..).after ((modLink_only ..).after ((trainLanes_only ..).after ((modLink_only ..).mono)))) ((trainFailed_only ..).after ((trainLanes_only ..).after ((modLink_only ..).mono)))) (.ite ((execLnkTrainAttempt_partnerUp_only ..).after ((post_only ..).after ((putLctl_only ..).after ((modLink_only ..).after ((trainLanes_only ..).after ((modLink_only ..).mono)))))) ((post_only ..).after ((putLctl_only ..).after ((modLink_only ..).after ((trainLanes_only ..).after ((modLink_only ..).mono)))))))) .refl))
theorem execLnkTrainTimeout_only (l s) : OnlyNext { evt := true, gov := true, links := true } s (execLnkTrainTimeout l s) := by
  unfold execLnkTrainTimeout
  exact .live (Only.next (.ite ((trainFailed_only ..).mono) .refl))
theorem execLnkTrainRetry_only (l s) : OnlyNext { links := true } s (execLnkTrainRetry l s) := by
  unfold execLnkTrainRetry
  exact .live (Only.next (.ite ((modLink_only ..).mono) .refl))
theorem execGapTimerExpiry_only (l s) : OnlyNext { links := true, injs := true, tx := true } s (execGapTimerExpiry l s) := by
  unfold execGapTimerExpiry
  exact .live (Only.next (.ite (.ite ((modLink_only ..).mono) ((putLctl_only ..).after (.ite ((modInj_only ..).mono) ((modLink_only ..).mono)))) .refl))
theorem execReplayTimerExpiry_only (l seq s) : OnlyNext { evt := true, gov := true, links := true, tx := true } s (execReplayTimerExpiry l seq s) := by
  unfold execReplayTimerExpiry
  refine .live ?_
  refine Only.next ?_
  split
  · exact .ite ((resend_only ..).after ((modLink_only ..).mono)) .refl
  · exact .refl
theorem execAckDelayExpiry_only (l s) : OnlyNext { links := true, injs := true, tx := true } s (execAckDelayExpiry l s) := by
  unfold execAckDelayExpiry
  exact .live (Only.next (.ite ((putLctl_only ..).mono) .refl))
theorem execIdleKeepalive_only (l s) : OnlyNext { links := true, injs := true, tx := true } s (execIdleKeepalive l s) := by
  unfold execIdleKeepalive
  exact .live (Only.next ((putLctl_only ..).mono))
theorem execLinkRxSilence_only (l s) : OnlyNext { evt := true, gov := true, links := true } s (execLinkRxSilence l s) := by
  unfold execLinkRxSilence
  exact .live (Only.next ((linkDown_only ..).mono))
theorem swapEvent_only (l dir lane reason s) : Only { evt := true, gov := true } s (swapEvent l dir lane reason s) := by
  unfold swapEvent
  exact .ite ((post_only ..).mono) ((post_only ..).mono)
theorem reportLane_only (l lane reason s) : Only { evt := true, gov := true, links := true, injs := true, tx := true } s (reportLane l lane reason s) := by
  unfold reportLane
  exact .ite .refl (.ite (.ite .refl ((linkDown_only ..).mono)) (.ite ((putLctl_only ..).after ((modLink_only ..).mono)) (.ite ((putLctl_only ..).after ((modLink_only ..).mono)) ((linkDown_only ..).mono))))
theorem execLnkLaneErrorWindow_only (l lane corrected uncorrectable s) : OnlyNext { evt := true, gov := true, links := true, injs := true, tx := true } s (execLnkLaneErrorWindow l lane corrected uncorrectable s) := by
  unfold execLnkLaneErrorWindow
  exact .live (Only.next (.ite .refl (.ite ((reportLane_only ..).after ((modLink_only ..).mono)) (.ite ((reportLane_only ..).after ((modLink_only ..).mono)) ((modLink_only ..).mono)))))
theorem execLnkLaneLockLoss_only (l lane s) : OnlyNext { evt := true, gov := true, links := true, injs := true, tx := true } s (execLnkLaneLockLoss l lane s) := by
  unfold execLnkLaneLockLoss
  exact .live (Only.next ((reportLane_only ..).mono))
theorem execLaneMapRepeat_only (l s) : OnlyNext { links := true, injs := true, tx := true } s (execLaneMapRepeat l s) := by
  unfold execLaneMapRepeat
  refine .live ?_
  refine Only.next ?_
  split
  · exact (putLctl_only ..).mono
  · exact .refl
theorem takeLaneMap_only (l lane reason s) : Only { evt := true, gov := true, links := true, injs := true, tx := true } s (takeLaneMap l lane reason s) := by
  unfold takeLaneMap
  exact .ite .refl (.ite ((putLctl_only ..).mono) (.ite ((swapEvent_only ..).after ((putLctl_only ..).after ((modLink_only ..).mono))) (.ite ((putLctl_only ..).after ((modLink_only ..).mono)) ((linkDown_only ..).mono))))
theorem takeLaneMapDone_only (l lane s) : Only { evt := true, gov := true, links := true } s (takeLaneMapDone l lane s) := by
  unfold takeLaneMapDone
  split
  · exact .ite ((modLink_only ..).mono) (.ite ((swapEvent_only ..).after ((modLink_only ..).mono)) .refl)
  · exact .refl
theorem execLaneMap_only (l lane reason s) : OnlyNext { evt := true, gov := true, links := true, injs := true, tx := true } s (execLaneMap l lane reason s) := by
  unfold execLaneMap
  exact .live (Only.next ((takeLaneMap_only ..).mono))
theorem execLaneMapDone_only (l lane s) : OnlyNext { evt := true, gov := true, links := true } s (execLaneMapDone l lane s) := by
  unfold execLaneMapDone
  exact .live (Only.next ((takeLaneMapDone_only ..).mono))
theorem takeNak_only (l seqs s) : Only { evt := true, gov := true, links := true, injs := true, tx := true } s (takeNak l seqs s) := by
  unfold takeNak
  exact .ite (.each (fun _ _ => (resend_only ..).mono) (.ite ((modInj_only ..).mono) ((modLink_only ..).mono))) .refl
theorem execNak_only (l seqs s) : OnlyNext { evt := true, gov := true, links := true, injs := true, tx := true } s (execNak l seqs s) := by
  unfold execNak
  exact .live (Only.next ((takeNak_only ..).mono))
theorem execKeepalive_only (_l s) : OnlyNext {} s (execKeepalive _l s) := by
  unfold execKeepalive
  exact .live (Only.next .refl)
theorem takeoverCompletions_only (p s) : Only { ptn := true, hop := true } s (takeoverCompletions p s) := by
  unfold takeoverCompletions
  exact .ite (.each (fun _ _ => .ite .refl ((modHopPort_only ..).after (.upd .refl))) (.upd .refl)) .refl
theorem execCplFrameSend_only (p s) : OnlyNext { links := true, injs := true, hop := true, tx := true } s (execCplFrameSend p s) := by
  unfold execCplFrameSend
  exact .live (Only.next (.ite ((sendNumbered_only ..).after ((modHopPort_only ..).mono)) .refl))
theorem execRdataFrameSend_only (p s) : OnlyNext { diag := true, mrc := true, mpd := true, links := true, injs := true, hop := true, tx := true } s (execRdataFrameSend p s) := by
  unfold execRdataFrameSend
  refine .live ?_
  refine Only.next ?_
  refine .ite ?_ .refl
  split
  · exact .refl
  · split
    · exact .refl
    · exact .ite ((modCmd_only ..).after ((sendNumbered_only ..).mono)) (.ite ((pumpRead_only ..).after ((modCmd_only ..).after ((sendNumbered_only ..).mono))) (.ite ((complete_only ..).after ((modCmd_only ..).after ((sendNumbered_only ..).mono))) ((modCmd_only ..).after ((sendNumbered_only ..).mono))))
theorem applyPlan_only (v s) : Only { pwr := true, img := true, islands := true } s (applyPlan v s) := by
  unfold applyPlan
  refine (handServo_only ..).after ?_
  split
  · exact .upd .refl
  · exact .upd .refl
  · exact .upd .refl
  · exact .upd .refl
  · exact .upd .refl
  · exact .upd .refl
  · exact .upd .refl
  · exact .upd .refl
  · exact .upd .refl
  · exact .refl
theorem putLaw_only (n base es s) : Only { gov := true } s (putLaw n base es s) := by
  unfold putLaw
  exact (modCtx_only ..).after (.updWith .refl (.of_parts (store := tabFold_wf _ (fun e : BitVec 256 × Nat => (base + e.2, e.1)) _ _)))
theorem useStore_only (s) : Only { pwr := true, img := true, islands := true, gov := true } s (useStore s) := by
  unfold useStore
  exact .each (fun _ _ => (putLaw_only ..).mono) (.each (fun _ _ => .ite .refl ((applyPlan_only ..).mono)) .refl)
theorem restorePlan_only (s) : Only { pwr := true, evt := true, img := true, islands := true, gov := true, fan := true } s (restorePlan s) := by
  unfold restorePlan
  refine .ite ?_ ((post_only ..).after (.upd .refl))
  extract_lets
  split
  · exact .upd ((useStore_only ..).mono)
  · exact (useStore_only ..).mono
theorem commitPlan_only (v old s) : Only { pwr := true, evt := true, img := true, islands := true, gov := true, links := true, injs := true, fan := true, tx := true } s (commitPlan v old s) := by
  unfold commitPlan
  exact .ite (.upd (.each (fun _ _ => (mirror_only ..).mono) ((post_only ..).after (.upd .refl)))) ((applyPlan_only ..).after (.each (fun _ _ => (mirror_only ..).mono) ((post_only ..).after (.upd .refl))))
theorem replanTo_only (k l want want2 s) : Only { pwr := true, evt := true, img := true, islands := true, gov := true, links := true, injs := true, fan := true, tx := true } s (replanTo k l want want2 s) := by
  unfold replanTo
  exact .ite .refl ((commitPlan_only ..).mono)
theorem recomputeHorizon_only (today s) : Only { evt := true, gov := true, fan := true } s (recomputeHorizon today s) := by
  unfold recomputeHorizon
  exact .ite ((post_only ..).after (.upd .refl)) (.upd .refl)
theorem noteMargin_only (kind l v s) : Only { fan := true } s (noteMargin kind l v s) := by
  unfold noteMargin
  exact .upd .refl
/-- The response of a margin that is exhausted, with what follows on it. -/
theorem Only.exhaustedWith {m : Units} {s t : State} {row : Nat} {l : Loc} {more : State → State} (hf : ∀ u, Only m u (more u)) (h : Only m s t)
    (le : ({ evt := true, gov := true, fan := true } : Units).le m = true := by rfl) : Only m s (Machine.exhaustedWith row l more t) := by
  refine h.trans ?_
  unfold Machine.exhaustedWith
  refine .ite .refl ?_
  have hp (u : State) : Only { evt := true, gov := true, fan := true } u (post 0xB3 mFantail ([b1 row] ++ locFields l ++ [b1 row]) { u with fan := { u.fan with
      exhausted := satInc 16 u.fan.exhausted, spent := u.fan.spent ++ [(row, l)] } }) := (post_only ..).after (.upd .refl)
  have hr (d : Nat) (u : State) : Only { evt := true, gov := true, fan := true } u (recomputeHorizon d u) := (recomputeHorizon_only ..).mono
  exact (((hp t).mono le).trans (hf _)).trans ((hr ..).mono le)
theorem exhausted_only (row l s) : Only { evt := true, gov := true, fan := true } s (exhausted row l s) := by
  unfold exhausted
  exact Only.exhaustedWith (fun _ => .refl) .refl
theorem recovered_only (row l s) : Only { fan := true } s (recovered row l s) := by
  unfold recovered
  exact .upd .refl
theorem roomLeft_only (l s) : Only { evt := true, gov := true, fan := true } s (roomLeft l s) := by
  unfold roomLeft
  exact (post_only ..).after (.upd .refl)
theorem judgeMargin_only (k l m s) : Only (.but { aon := true, idn := true, fuses := true, clk := true, pwr := true, img := true, nvm := true, rows := true, fcc := true, pending := true, intake := true }) s (judgeMargin k l m s) := by
  unfold judgeMargin
  extract_lets
  split
  · exact .ite ((declareFailed_only ..).after ((exhausted_only ..).after ((noteMargin_only ..).after (.ite .refl ((recovered_only ..).mono))))) (.ite ((roomLeft_only ..).after ((noteMargin_only ..).after (.ite .refl ((recovered_only ..).mono)))) ((noteMargin_only ..).after (.ite .refl ((recovered_only ..).mono))))
  · exact .ite ((noteMargin_only ..).after (.ite .refl ((recovered_only ..).mono))) (.ite ((declareFailed_only ..).after ((exhausted_only ..).after ((noteMargin_only ..).after (.ite .refl ((recovered_only ..).mono))))) ((roomLeft_only ..).after ((noteMargin_only ..).after (.ite .refl ((recovered_only ..).mono)))))
  · exact .ite ((declareFailed_only ..).after ((exhausted_only ..).after ((noteMargin_only ..).after (.ite .refl ((recovered_only ..).mono))))) ((noteMargin_only ..).after (.ite .refl ((recovered_only ..).mono)))
  · exact .ite ((noteMargin_only ..).after (.ite .refl ((recovered_only ..).mono))) (.ite (Only.exhaustedWith (fun _ => (post_only ..).mono) ((noteMargin_only ..).after (.ite .refl ((recovered_only ..).mono)))) ((roomLeft_only ..).after ((noteMargin_only ..).after (.ite .refl ((recovered_only ..).mono)))))
  · exact .ite ((exhausted_only ..).after ((noteMargin_only ..).after (.ite .refl ((recovered_only ..).mono)))) ((noteMargin_only ..).after (.ite .refl ((recovered_only ..).mono)))
  · exact .ite ((noteMargin_only ..).after (.ite .refl ((recovered_only ..).mono))) (.ite (Only.exhaustedWith (fun _ => (post_only ..).mono) ((noteMargin_only ..).after (.ite .refl ((recovered_only ..).mono)))) ((roomLeft_only ..).after ((noteMargin_only ..).after (.ite .refl ((recovered_only ..).mono)))))
  · exact .ite ((exhausted_only ..).after ((noteMargin_only ..).after (.ite .refl ((recovered_only ..).mono)))) ((noteMargin_only ..).after (.ite .refl ((recovered_only ..).mono)))
  · exact (noteMargin_only ..).after (.ite .refl ((recovered_only ..).mono))
  · exact (noteMargin_only ..).after (.ite .refl ((recovered_only ..).mono))
  · exact (noteMargin_only ..).after (.ite .refl ((recovered_only ..).mono))
theorem planVisits_only (a s) : Only { slu := true } s (planVisits a s) := by
  unfold planVisits
  refine .ite .refl ?_
  extract_lets
  split
  · exact (addWork_only ..).mono
  · exact .refl
theorem probePass_only (a h step v s) : Only { alks := true, heads := true, tx := true } s (probePass a h step v s) := by
  unfold probePass
  exact (modHead_only ..).after ((sendLaser_only ..).mono)
theorem modOp_only (a f s) : Only { slu := true } s (modOp a f s) := by
  unfold modOp
  exact .upd .refl
theorem gather_only (n step f s) : Only { slu := true } s (gather n step f s) := by
  unfold gather
  exact (modOp_only ..).mono
theorem dropGathered_only (n s) : Only { slu := true } s (dropGathered n s) := by
  unfold dropGathered
  exact (modOp_only ..).mono
theorem loadTrial_only (n z s) : Only { islands := true } s (loadTrial n z s) := by
  unfold loadTrial
  split
  · exact (modIsl_only ..).mono
  · exact .refl
theorem beginStep_only (a h step v s) : Only { evt := true, alks := true, islands := true, heads := true, gov := true, tx := true } s (beginStep a h step v s) := by
  unfold beginStep
  extract_lets
  split
  · exact .ite ((loadTrial_only ..).after ((modIsl_only ..).mono)) (.ite ((modHead_only ..).after ((modIsl_only ..).mono)) (.ite ((modHead_only ..).after ((modIsl_only ..).mono)) (.ite ((modHead_only ..).after ((modIsl_only ..).mono)) ((modIsl_only ..).mono))))
  · exact .ite ((probePass_only ..).mono) .refl
  · exact .ite ((modHead_only ..).after ((sendHeater_only ..).mono)) ((post_only ..).after ((modHead_only ..).after ((sendHeater_only ..).mono)))
theorem setSteps_only (a f s) : Only { slu := true } s (setSteps a f s) := by
  unfold setSteps
  exact (modOp_only ..).mono
theorem visitWedge_only (n hr s) : Only { evt := true, alks := true, islands := true, heads := true, gov := true, slu := true, tx := true } s (visitWedge n hr s) := by
  unfold visitWedge
  split
  · exact .refl
  · refine .ite .refl ?_
    refine .ite ?_ ?_
    · refine (setSteps_only ..).after ?_
      split
      · exact .ite ((gather_only ..).mono) .refl
      · exact .refl
    · refine (beginStep_only ..).after ?_
      refine (setSteps_only ..).after ?_
      split
      · exact .ite ((gather_only ..).mono) .refl
      · exact .refl
theorem calContact_only (n s) : Only { slu := true } s (calContact n s) := by
  unfold calContact
  split
  · exact .ite ((setSteps_only ..).after (.ite ((modOp_only ..).mono) .refl)) .refl
  · exact .refl
theorem lowerClearance_only (l above s) : Only { pwr := true, evt := true, img := true, islands := true, gov := true, links := true, injs := true, fan := true, tx := true } s (lowerClearance l above s) := by
  unfold lowerClearance
  exact .ite ((replanTo_only ..).mono) .refl
theorem confirmSet_only (l passed s) : Only { pwr := true, evt := true, img := true, islands := true, gov := true, links := true, injs := true, fan := true, tx := true } s (confirmSet l passed s) := by
  unfold confirmSet
  exact .ite (.upd .refl) ((post_only ..).after ((commitPlan_only ..).after (.upd .refl)))
theorem adoptSet_only (l cand s) : Only { pwr := true, evt := true, img := true, islands := true, gov := true, links := true, injs := true, fan := true, tx := true } s (adoptSet l cand s) := by
  unfold adoptSet
  exact .ite .refl ((commitPlan_only ..).after (.upd .refl))
theorem adoptCal_only (l hr clr s) : Only { pwr := true, evt := true, img := true, islands := true, gov := true, links := true, injs := true, fan := true, tx := true } s (adoptCal l hr clr s) := by
  unfold adoptCal
  exact .ite .refl ((commitPlan_only ..).mono)
theorem channelResult_only (o n z s) : Only (.but { aon := true, idn := true, fuses := true, clk := true, nvm := true, rows := true, fcc := true, pending := true, intake := true }) s (channelResult o n z s) := by
  unfold channelResult
  refine .ite (.ite .refl ((lowerClearance_only ..).after ((judgeMargin_only ..).mono))) ?_
  refine .ite (.ite (.ite .refl ((lowerClearance_only ..).after ((judgeMargin_only ..).mono))) (.ite ((replanTo_only ..).after (.ite .refl ((lowerClearance_only ..).after ((judgeMargin_only ..).mono)))) (.ite ((replanTo_only ..).after (.ite .refl ((lowerClearance_only ..).after ((judgeMargin_only ..).mono)))) (.ite .refl ((lowerClearance_only ..).after ((judgeMargin_only ..).mono)))))) ?_
  refine .ite ((confirmSet_only ..).after (.ite (.ite .refl ((lowerClearance_only ..).after ((judgeMargin_only ..).mono))) (.ite ((replanTo_only ..).after (.ite .refl ((lowerClearance_only ..).after ((judgeMargin_only ..).mono)))) (.ite ((replanTo_only ..).after (.ite .refl ((lowerClearance_only ..).after ((judgeMargin_only ..).mono)))) (.ite .refl ((lowerClearance_only ..).after ((judgeMargin_only ..).mono))))))) ?_
  split
  · exact .ite ((adoptSet_only ..).after (.upd (.ite (.ite .refl ((lowerClearance_only ..).after ((judgeMargin_only ..).mono))) (.ite ((replanTo_only ..).after (.ite .refl ((lowerClearance_only ..).after ((judgeMargin_only ..).mono)))) (.ite ((replanTo_only ..).after (.ite .refl ((lowerClearance_only ..).after ((judgeMargin_only ..).mono)))) (.ite .refl ((lowerClearance_only ..).after ((judgeMargin_only ..).mono)))))))) (.upd (.ite (.ite .refl ((lowerClearance_only ..).after ((judgeMargin_only ..).mono))) (.ite ((replanTo_only ..).after (.ite .refl ((lowerClearance_only ..).after ((judgeMargin_only ..).mono)))) (.ite ((replanTo_only ..).after (.ite .refl ((lowerClearance_only ..).after ((judgeMargin_only ..).mono)))) (.ite .refl ((lowerClearance_only ..).after ((judgeMargin_only ..).mono)))))))
  · exact .ite (.ite .refl ((lowerClearance_only ..).after ((judgeMargin_only ..).mono))) (.ite ((replanTo_only ..).after (.ite .refl ((lowerClearance_only ..).after ((judgeMargin_only ..).mono)))) (.ite ((replanTo_only ..).after (.ite .refl ((lowerClearance_only ..).after ((judgeMargin_only ..).mono)))) (.ite .refl ((lowerClearance_only ..).after ((judgeMargin_only ..).mono)))))
theorem probeResult_only (o n z s) : Only (.but { aon := true, idn := true, fuses := true, clk := true, nvm := true, rows := true, fcc := true, pending := true, intake := true }) s (probeResult o n z s) := by
  unfold probeResult
  exact .ite (.ite .refl ((lowerClearance_only ..).after ((judgeMargin_only ..).after ((noteMargin_only ..).mono)))) ((replanTo_only ..).after (.ite .refl ((lowerClearance_only ..).after ((judgeMargin_only ..).after ((noteMargin_only ..).mono)))))
theorem visitEnded_only (a o s) : Only (.but { aon := true, idn := true, fuses := true, clk := true, nvm := true, rows := true, fcc := true, pending := true, intake := true }) s (visitEnded a o s) := by
  unfold visitEnded
  split
  · exact .refl
  · refine .each (fun _ _ => ?_) (.upd .refl)
    refine .ite ((mqSend_only ..).mono) ?_
    refine .ite ((channelResult_only ..).after ((mqSend_only ..).mono)) ?_
    refine .ite ((probeResult_only ..).after ((mqSend_only ..).mono)) ?_
    split
    · exact (adoptCal_only ..).after ((mqSend_only ..).mono)
    · exact (mqSend_only ..).mono
theorem moveLaw_only (n base len s) : Only { gov := true } s (moveLaw n base len s) := by
  unfold moveLaw
  exact .ite ((modCtx_only ..).after (.upd .refl)) ((handover_only ..).after ((modCtx_only ..).after (.upd .refl)))
theorem applyDue_only (a s) : Only { pwr := true, img := true, islands := true, gov := true, fan := true } s (applyDue a s) := by
  unfold applyDue
  exact .ite .refl (.each (fun _ _ => (moveLaw_only ..).mono) (.each (fun _ _ => (applyPlan_only ..).mono) (.upd .refl)))
theorem alkCondition_only (a code cause hold s) : Only { dev := true, flt := true, evt := true, mqs := true, alks := true, islands := true, heads := true, gov := true, mrc := true, slu := true, fan := true, tx := true, free := true } s (alkCondition a code cause hold s) := by
  unfold alkCondition
  exact (condition_only ..).mono
theorem alkLoss_only (a s) : Only { dev := true, flt := true, evt := true, mqs := true, alks := true, islands := true, heads := true, gov := true, mrc := true, rows := true, slu := true, fan := true, tx := true, free := true } s (alkLoss a s) := by
  unfold alkLoss
  exact .ite ((alkCondition_only ..).after ((openCause_only ..).after ((modAlk_only ..).after ((voidArm_only ..).mono)))) .refl
theorem startFail_only (step cause s) : Only { start := true, evt := true, gov := true } s (startFail step cause s) := by
  unfold startFail
  exact (post_only ..).after (.upd .refl)
theorem alkTrainFailed_only (a s) : Only (.but { aon := true, idn := true, fuses := true, clk := true, pwr := true, img := true, nvm := true, bol := true, rows := true, fcc := true, pending := true, intake := true }) s (alkTrainFailed a s) := by
  unfold alkTrainFailed
  exact (failStop_only ..).after ((alkCondition_only ..).after (.ite ((startFail_only ..).after ((modAlk_only ..).mono)) ((modAlk_only ..).mono)))
theorem alkAttemptFailed_only (a s) : Only (.but { aon := true, idn := true, fuses := true, clk := true, pwr := true, img := true, nvm := true, bol := true, rows := true, fcc := true, pending := true, intake := true }) s (alkAttemptFailed a s) := by
  unfold alkAttemptFailed
  exact .ite ((alkTrainFailed_only ..).after ((modAlk_only ..).mono)) (.each (fun _ _ => (send_only ..).mono) ((modAlk_only ..).mono))
theorem sendLaneMap_only (a atOnce up dn s) : Only { alks := true, tx := true } s (sendLaneMap a atOnce up dn s) := by
  unfold sendLaneMap
  exact (alkSend_only ..).after ((modAlk_only ..).mono)
theorem alkSwap_only (a up lane atOnce s) : Only (.but { aon := true, idn := true, fuses := true, clk := true, pwr := true, img := true, nvm := true, bol := true, rows := true, fcc := true, pending := true, intake := true }) s (alkSwap a up lane atOnce s) := by
  unfold alkSwap
  exact .ite .refl (.ite ((modAlk_only ..).mono) (.ite ((alkCondition_only ..).after ((sendLaneMap_only ..).after ((modAlk_only ..).mono))) ((failStop_only ..).after ((alkCondition_only ..).mono))))
theorem execAlkTrainAttempt_only (arm upFail downFail reachesExchange s) : OnlyNext (.but { aon := true, idn := true, fuses := true, clk := true, pwr := true, img := true, nvm := true, bol := true, rows := true, fcc := true, pending := true, intake := true }) s (execAlkTrainAttempt arm upFail downFail reachesExchange s) := by
  unfold execAlkTrainAttempt
  exact .live (Only.next (.ite (.ite ((alkAttemptFailed_only ..).after (.each (fun _ _ => (send_only ..).mono) ((modAlk_only ..).mono))) ((modAlk_only ..).after (.each (fun _ _ => (send_only ..).mono) ((modAlk_only ..).mono)))) .refl))
theorem execAlkTrainTimeout_only (arm s) : OnlyNext (.but { aon := true, idn := true, fuses := true, clk := true, pwr := true, img := true, nvm := true, bol := true, rows := true, fcc := true, pending := true, intake := true }) s (execAlkTrainTimeout arm s) := by
  unfold execAlkTrainTimeout
  exact .live (Only.next (.ite ((alkAttemptFailed_only ..).mono) .refl))
theorem execAlkTrainRetry_only (arm s) : OnlyNext { alks := true } s (execAlkTrainRetry arm s) := by
  unfold execAlkTrainRetry
  exact .live (Only.next (.ite ((modAlk_only ..).mono) .refl))
theorem execAlkLaneErrorWindow_only (arm up lane corrected uncorrectable s) : OnlyNext (.but { aon := true, idn := true, fuses := true, clk := true, pwr := true, img := true, nvm := true, bol := true, rows := true, fcc := true, pending := true, intake := true }) s (execAlkLaneErrorWindow arm up lane corrected uncorrectable s) := by
  unfold execAlkLaneErrorWindow
  exact .live (Only.next (.ite .refl (.ite ((alkSwap_only ..).after ((modAlk_only ..).mono)) ((modAlk_only ..).mono))))
theorem execAlkLaneLockLoss_only (arm up lane s) : OnlyNext (.but { aon := true, idn := true, fuses := true, clk := true, pwr := true, img := true, nvm := true, bol := true, rows := true, fcc := true, pending := true, intake := true }) s (execAlkLaneLockLoss arm up lane s) := by
  unfold execAlkLaneLockLoss
  exact .live (Only.next (.ite .refl ((alkSwap_only ..).mono)))
theorem execAlkUplinkUncorr_only (arm lane streams s) : OnlyNext (.but { aon := true, idn := true, fuses := true, clk := true, pwr := true, img := true, nvm := true, bol := true, fcc := true, pending := true, intake := true }) s (execAlkUplinkUncorr arm lane streams s) := by
  unfold execAlkUplinkUncorr
  exact .live (Only.next (.ite (.ite ((alkSwap_only ..).after ((alkCondition_only ..).after ((voidArm_only ..).after ((modAlk_only ..).mono)))) ((alkCondition_only ..).after ((voidArm_only ..).after ((modAlk_only ..).mono)))) .refl))
theorem execAlkUplinkSilence_only (arm s) : OnlyNext { dev := true, flt := true, evt := true, mqs := true, alks := true, islands := true, heads := true, gov := true, mrc := true, rows := true, slu := true, fan := true, tx := true, free := true } s (execAlkUplinkSilence arm s) := by
  unfold execAlkUplinkSilence
  exact .live (Only.next ((alkLoss_only ..).mono))
theorem execPortStatusTimeout_only (arm s) : OnlyNext { dev := true, flt := true, evt := true, mqs := true, alks := true, islands := true, heads := true, gov := true, mrc := true, rows := true, slu := true, fan := true, tx := true, free := true } s (execPortStatusTimeout arm s) := by
  unfold execPortStatusTimeout
  exact .live (Only.next ((alkLoss_only ..).mono))
theorem execAckTimeout_only (arm seq s) : OnlyNext (.but { aon := true, idn := true, fuses := true, clk := true, pwr := true, img := true, nvm := true, bol := true, fcc := true, pending := true, intake := true }) s (execAckTimeout arm seq s) := by
  unfold execAckTimeout
  refine .live ?_
  refine Only.next ?_
  split
  · exact .refl
  · exact (alkPut_only ..).after ((modAlk_only ..).mono)
  · exact .ite ((alkAttemptFailed_only ..).mono) ((alkLoss_only ..).mono)
theorem modMon_only (a h f s) : Only { alks := true } s (modMon a h f s) := by
  unfold modMon
  exact (modAlk_only ..).mono
theorem execLaserMon_only (arm word s) : OnlyNext { alks := true } s (execLaserMon arm word s) := by
  unfold execLaserMon
  exact .live (Only.next ((modMon_only ..).mono))
theorem execHeaterMon_only (arm word s) : OnlyNext { alks := true } s (execHeaterMon arm word s) := by
  unfold execHeaterMon
  exact .live (Only.next ((modMon_only ..).mono))
theorem execReaderMon_only (arm word s) : OnlyNext { alks := true } s (execReaderMon arm word s) := by
  unfold execReaderMon
  exact .live (Only.next ((modMon_only ..).mono))
theorem execSupplyTelemetry_only (arm word s) : OnlyNext { alks := true } s (execSupplyTelemetry arm word s) := by
  unfold execSupplyTelemetry
  exact .live (Only.next ((modAlk_only ..).mono))
theorem execWfifoTelemetry_only (arm word s) : OnlyNext { alks := true } s (execWfifoTelemetry arm word s) := by
  unfold execWfifoTelemetry
  exact .live (Only.next ((modMon_only ..).mono))
theorem writeGate_only (n s) : Only { dev := true, flt := true, evt := true, mqs := true, alks := true, islands := true, heads := true, gov := true, mrc := true, rows := true, slu := true, fan := true, tx := true, free := true } s (writeGate n s) := by
  unfold writeGate
  exact .ite ((condition_only ..).after ((modHead_only ..).after ((stopWriter_only ..).after ((voidArm_only ..).mono)))) .refl
theorem contactAct_only (n contact s) : Only (.but { aon := true, idn := true, fuses := true, clk := true, pwr := true, img := true, nvm := true, fcc := true, pending := true, intake := true }) s (contactAct n contact s) := by
  unfold contactAct
  exact .ite (.ite ((declareFailed_only ..).after (.ite ((calContact_only ..).after ((condition_only ..).after (.ite ((writeGate_only ..).after (.ite ((handover_only ..).after ((modCtx_only ..).after ((modHead_only ..).after ((sendHeater_only ..).mono)))) ((modHead_only ..).after ((sendHeater_only ..).mono)))) (.ite ((handover_only ..).after ((modCtx_only ..).after ((modHead_only ..).after ((sendHeater_only ..).mono)))) ((modHead_only ..).after ((sendHeater_only ..).mono)))))) ((modHead_only ..).after ((condition_only ..).after (.ite ((writeGate_only ..).after (.ite ((handover_only ..).after ((modCtx_only ..).after ((modHead_only ..).after ((sendHeater_only ..).mono)))) ((modHead_only ..).after ((sendHeater_only ..).mono)))) (.ite ((handover_only ..).after ((modCtx_only ..).after ((modHead_only ..).after ((sendHeater_only ..).mono)))) ((modHead_only ..).after ((sendHeater_only ..).mono)))))))) (.ite ((calContact_only ..).after ((condition_only ..).after (.ite ((writeGate_only ..).after (.ite ((handover_only ..).after ((modCtx_only ..).after ((modHead_only ..).after ((sendHeater_only ..).mono)))) ((modHead_only ..).after ((sendHeater_only ..).mono)))) (.ite ((handover_only ..).after ((modCtx_only ..).after ((modHead_only ..).after ((sendHeater_only ..).mono)))) ((modHead_only ..).after ((sendHeater_only ..).mono)))))) ((modHead_only ..).after ((condition_only ..).after (.ite ((writeGate_only ..).after (.ite ((handover_only ..).after ((modCtx_only ..).after ((modHead_only ..).after ((sendHeater_only ..).mono)))) ((modHead_only ..).after ((sendHeater_only ..).mono)))) (.ite ((handover_only ..).after ((modCtx_only ..).after ((modHead_only ..).after ((sendHeater_only ..).mono)))) ((modHead_only ..).after ((sendHeater_only ..).mono)))))))) ((condition_only ..).after (.ite ((writeGate_only ..).after (.ite ((handover_only ..).after ((modCtx_only ..).after ((modHead_only ..).after ((sendHeater_only ..).mono)))) ((modHead_only ..).after ((sendHeater_only ..).mono)))) (.ite ((handover_only ..).after ((modCtx_only ..).after ((modHead_only ..).after ((sendHeater_only ..).mono)))) ((modHead_only ..).after ((sendHeater_only ..).mono)))))
theorem execFaultTelemetry_only (arm word s) : OnlyNext (.but { aon := true, idn := true, fuses := true, clk := true, pwr := true, img := true, nvm := true, fcc := true, pending := true, intake := true }) s (execFaultTelemetry arm word s) := by
  unfold execFaultTelemetry
  exact .live (Only.next (.ite ((alkCondition_only ..).after (.ite (.each (fun _ _ => (alkPut_only ..).mono) ((voidArm_only ..).after ((alkCondition_only ..).after (.ite (.each (fun _ _ => (alkPut_only ..).mono) (.ite ((voidArm_only ..).after (.ite ((alkCondition_only ..).after (.ite ((voidArm_only ..).after ((alkCondition_only ..).after ((modHead_only ..).after (.ite ((contactAct_only ..).after ((alkCondition_only ..).after (.ite ((declareFailed_only ..).after ((alkCondition_only ..).after ((writeGate_only ..).after ((mqSend_only ..).after ((modMon_only ..).mono))))) ((mqSend_only ..).after ((modMon_only ..).mono))))) (.ite ((declareFailed_only ..).after ((alkCondition_only ..).after ((writeGate_only ..).after ((mqSend_only ..).after ((modMon_only ..).mono))))) ((mqSend_only ..).after ((modMon_only ..).mono))))))) (.ite ((contactAct_only ..).after ((alkCondition_only ..).after (.ite ((declareFailed_only ..).after ((alkCondition_only ..).after ((writeGate_only ..).after ((mqSend_only ..).after ((modMon_only ..).mono))))) ((mqSend_only ..).after ((modMon_only ..).mono))))) (.ite ((declareFailed_only ..).after ((alkCondition_only ..).after ((writeGate_only ..).after ((mqSend_only ..).after ((modMon_only ..).mono))))) ((mqSend_only ..).after ((modMon_only ..).mono)))))) (.ite ((voidArm_only ..).after ((alkCondition_only ..).after ((modHead_only ..).after (.ite ((contactAct_only ..).after ((alkCondition_only ..).after (.ite ((declareFailed_only ..).after ((alkCondition_only ..).after ((writeGate_only ..).after ((mqSend_only ..).after ((modMon_only ..).mono))))) ((mqSend_only ..).after ((modMon_only ..).mono))))) (.ite ((declareFailed_only ..).after ((alkCondition_only ..).after ((writeGate_only ..).after ((mqSend_only ..).after ((modMon_only ..).mono))))) ((mqSend_only ..).after ((modMon_only ..).mono))))))) (.ite ((contactAct_only ..).after ((alkCondition_only ..).after (.ite ((declareFailed_only ..).after ((alkCondition_only ..).after ((writeGate_only ..).after ((mqSend_only ..).after ((modMon_only ..).mono))))) ((mqSend_only ..).after ((modMon_only ..).mono))))) (.ite ((declareFailed_only ..).after ((alkCondition_only ..).after ((writeGate_only ..).after ((mqSend_only ..).after ((modMon_only ..).mono))))) ((mqSend_only ..).after ((modMon_only ..).mono))))))) (.ite ((alkCondition_only ..).after (.ite ((voidArm_only ..).after ((alkCondition_only ..).after ((modHead_only ..).after (.ite ((contactAct_only ..).after ((alkCondition_only ..).after (.ite ((declareFailed_only ..).after ((alkCondition_only ..).after ((writeGate_only ..).after ((mqSend_only ..).after ((modMon_only ..).mono))))) ((mqSend_only ..).after ((modMon_only ..).mono))))) (.ite ((declareFailed_only ..).after ((alkCondition_only ..).after ((writeGate_only ..).after ((mqSend_only ..).after ((modMon_only ..).mono))))) ((mqSend_only ..).after ((modMon_only ..).mono))))))) (.ite ((contactAct_only ..).after ((alkCondition_only ..).after (.ite ((declareFailed_only ..).after ((alkCondition_only ..).after ((writeGate_only ..).after ((mqSend_only ..).after ((modMon_only ..).mono))))) ((mqSend_only ..).after ((modMon_only ..).mono))))) (.ite ((declareFailed_only ..).after ((alkCondition_only ..).after ((writeGate_only ..).after ((mqSend_only ..).after ((modMon_only ..).mono))))) ((mqSend_only ..).after ((modMon_only ..).mono)))))) (.ite ((voidArm_only ..).after ((alkCondition_only ..).after ((modHead_only ..).after (.ite ((contactAct_only ..).after ((alkCondition_only ..).after (.ite ((declareFailed_only ..).after ((alkCondition_only ..).after ((writeGate_only ..).after ((mqSend_only ..).after ((modMon_only ..).mono))))) ((mqSend_only ..).after ((modMon_only ..).mono))))) (.ite ((declareFailed_only ..).after ((alkCondition_only ..).after ((writeGate_only ..).after ((mqSend_only ..).after ((modMon_only ..).mono))))) ((mqSend_only ..).after ((modMon_only ..).mono))))))) (.ite ((contactAct_only ..).after ((alkCondition_only ..).after (.ite ((declareFailed_only ..).after ((alkCondition_only ..).after ((writeGate_only ..).after ((mqSend_only ..).after ((modMon_only ..).mono))))) ((mqSend_only ..).after ((modMon_only ..).mono))))) (.ite ((declareFailed_only ..).after ((alkCondition_only ..).after ((writeGate_only ..).after ((mqSend_only ..).after ((modMon_only ..).mono))))) ((mqSend_only ..).after ((modMon_only ..).mono)))))))) (.ite ((voidArm_only ..).after (.ite ((alkCondition_only ..).after (.ite ((voidArm_only ..).after ((alkCondition_only ..).after ((modHead_only ..).after (.ite ((contactAct_only ..).after ((alkCondition_only ..).after (.ite ((declareFailed_only ..).after ((alkCondition_only ..).after ((writeGate_only ..).after ((mqSend_only ..).after ((modMon_only ..).mono))))) ((mqSend_only ..).after ((modMon_only ..).mono))))) (.ite ((declareFailed_only ..).after ((alkCondition_only ..).after ((writeGate_only ..).after ((mqSend_only ..).after ((modMon_only ..).mono))))) ((mqSend_only ..).after ((modMon_only ..).mono))))))) (.ite ((contactAct_only ..).after ((alkCondition_only ..).after (.ite ((declareFailed_only ..).after ((alkCondition_only ..).after ((writeGate_only ..).after ((mqSend_only ..).after ((modMon_only ..).mono))))) ((mqSend_only ..).after ((modMon_only ..).mono))))) (.ite ((declareFailed_only ..).after ((alkCondition_only ..).after ((writeGate_only ..).after ((mqSend_only ..).after ((modMon_only ..).mono))))) ((mqSend_only ..).after ((modMon_only ..).mono)))))) (.ite ((voidArm_only ..).after ((alkCondition_only ..).after ((modHead_only ..).after (.ite ((contactAct_only ..).after ((alkCondition_only ..).after (.ite ((declareFailed_only ..).after ((alkCondition_only ..).after ((writeGate_only ..).after ((mqSend_only ..).after ((modMon_only ..).mono))))) ((mqSend_only ..).after ((modMon_only ..).mono))))) (.ite ((declareFailed_only ..).after ((alkCondition_only ..).after ((writeGate_only ..).after ((mqSend_only ..).after ((modMon_only ..).mono))))) ((mqSend_only ..).after ((modMon_only ..).mono))))))) (.ite ((contactAct_only ..).after ((alkCondition_only ..).after (.ite ((declareFailed_only ..).after ((alkCondition_only ..).after ((writeGate_only ..).after ((mqSend_only ..).after ((modMon_only ..).mono))))) ((mqSend_only ..).after ((modMon_only ..).mono))))) (.ite ((declareFailed_only ..).after ((alkCondition_only ..).after ((writeGate_only ..).after ((mqSend_only ..).after ((modMon_only ..).mono))))) ((mqSend_only ..).after ((modMon_only ..).mono))))))) (.ite ((alkCondition_only ..).after (.ite ((voidArm_only ..).after ((alkCondition_only ..).after ((modHead_only ..).after (.ite ((contactAct_only ..).after ((alkCondition_only ..).after (.ite ((declareFailed_only ..).after ((alkCondition_only ..).after ((writeGate_only ..).after ((mqSend_only ..).after ((modMon_only ..).mono))))) ((mqSend_only ..).after ((modMon_only ..).mono))))) (.ite ((declareFailed_only ..).after ((alkCondition_only ..).after ((writeGate_only ..).after ((mqSend_only ..).after ((modMon_only ..).mono))))) ((mqSend_only ..).after ((modMon_only ..).mono))))))) (.ite ((contactAct_only ..).after ((alkCondition_only ..).after (.ite ((declareFailed_only ..).after ((alkCondition_only ..).after ((writeGate_only ..).after ((mqSend_only ..).after ((modMon_only ..).mono))))) ((mqSend_only ..).after ((modMon_only ..).mono))))) (.ite ((declareFailed_only ..).after ((alkCondition_only ..).after ((writeGate_only ..).after ((mqSend_only ..).after ((modMon_only ..).mono))))) ((mqSend_only ..).after ((modMon_only ..).mono)))))) (.ite ((voidArm_only ..).after ((alkCondition_only ..).after ((modHead_only ..).after (.ite ((contactAct_only ..).after ((alkCondition_only ..).after (.ite ((declareFailed_only ..).after ((alkCondition_only ..).after ((writeGate_only ..).after ((mqSend_only ..).after ((modMon_only ..).mono))))) ((mqSend_only ..).after ((modMon_only ..).mono))))) (.ite ((declareFailed_only ..).after ((alkCondition_only ..).after ((writeGate_only ..).after ((mqSend_only ..).after ((modMon_only ..).mono))))) ((mqSend_only ..).after ((modMon_only ..).mono))))))) (.ite ((contactAct_only ..).after ((alkCondition_only ..).after (.ite ((declareFailed_only ..).after ((alkCondition_only ..).after ((writeGate_only ..).after ((mqSend_only ..).after ((modMon_only ..).mono))))) ((mqSend_only ..).after ((modMon_only ..).mono))))) (.ite ((declareFailed_only ..).after ((alkCondition_only ..).after ((writeGate_only ..).after ((mqSend_only ..).after ((modMon_only ..).mono))))) ((mqSend_only ..).after ((modMon_only ..).mono))))))))))) (.ite (.each (fun _ _ => (alkPut_only ..).mono) (.ite ((voidArm_only ..).after (.ite ((alkCondition_only ..).after (.ite ((voidArm_only ..).after ((alkCondition_only ..).after ((modHead_only ..).after (.ite ((contactAct_only ..).after ((alkCondition_only ..).after (.ite ((declareFailed_only ..).after ((alkCondition_only ..).after ((writeGate_only ..).after ((mqSend_only ..).after ((modMon_only ..).mono))))) ((mqSend_only ..).after ((modMon_only ..).mono))))) (.ite ((declareFailed_only ..).after ((alkCondition_only ..).after ((writeGate_only ..).after ((mqSend_only ..).after ((modMon_only ..).mono))))) ((mqSend_only ..).after ((modMon_only ..).mono))))))) (.ite ((contactAct_only ..).after ((alkCondition_only ..).after (.ite ((declareFailed_only ..).after ((alkCondition_only ..).after ((writeGate_only ..).after ((mqSend_only ..).after ((modMon_only ..).mono))))) ((mqSend_only ..).after ((modMon_only ..).mono))))) (.ite ((declareFailed_only ..).after ((alkCondition_only ..).after ((writeGate_only ..).after ((mqSend_only ..).after ((modMon_only ..).mono))))) ((mqSend_only ..).after ((modMon_only ..).mono)))))) (.ite ((voidArm_only ..).after ((alkCondition_only ..).after ((modHead_only ..).after (.ite ((contactAct_only ..).after ((alkCondition_only ..).after (.ite ((declareFailed_only ..).after ((alkCondition_only ..).after ((writeGate_only ..).after ((mqSend_only ..).after ((modMon_only ..).mono))))) ((mqSend_only ..).after ((modMon_only ..).mono))))) (.ite ((declareFailed_only ..).after ((alkCondition_only ..).after ((writeGate_only ..).after ((mqSend_only ..).after ((modMon_only ..).mono))))) ((mqSend_only ..).after ((modMon_only ..).mono))))))) (.ite ((contactAct_only ..).after ((alkCondition_only ..).after (.ite ((declareFailed_only ..).after ((alkCondition_only ..).after ((writeGate_only ..).after ((mqSend_only ..).after ((modMon_only ..).mono))))) ((mqSend_only ..).after ((modMon_only ..).mono))))) (.ite ((declareFailed_only ..).after ((alkCondition_only ..).after ((writeGate_only ..).after ((mqSend_only ..).after ((modMon_only ..).mono))))) ((mqSend_only ..).after ((modMon_only ..).mono))))))) (.ite ((alkCondition_only ..).after (.ite ((voidArm_only ..).after ((alkCondition_only ..).after ((modHead_only ..).after (.ite ((contactAct_only ..).after ((alkCondition_only ..).after (.ite ((declareFailed_only ..).after ((alkCondition_only ..).after ((writeGate_only ..).after ((mqSend_only ..).after ((modMon_only ..).mono))))) ((mqSend_only ..).after ((modMon_only ..).mono))))) (.ite ((declareFailed_only ..).after ((alkCondition_only ..).after ((writeGate_only ..).after ((mqSend_only ..).after ((modMon_only ..).mono))))) ((mqSend_only ..).after ((modMon_only ..).mono))))))) (.ite ((contactAct_only ..).after ((alkCondition_only ..).after (.ite ((declareFailed_only ..).after ((alkCondition_only ..).after ((writeGate_only ..).after ((mqSend_only ..).after ((modMon_only ..).mono))))) ((mqSend_only ..).after ((modMon_only ..).mono))))) (.ite ((declareFailed_only ..).after ((alkCondition_only ..).after ((writeGate_only ..).after ((mqSend_only ..).after ((modMon_only ..).mono))))) ((mqSend_only ..).after ((modMon_only ..).mono)))))) (.ite ((voidArm_only ..).after ((alkCondition_only ..).after ((modHead_only ..).after (.ite ((contactAct_only ..).after ((alkCondition_only ..).after (.ite ((declareFailed_only ..).after ((alkCondition_only ..).after ((writeGate_only ..).after ((mqSend_only ..).after ((modMon_only ..).mono))))) ((mqSend_only ..).after ((modMon_only ..).mono))))) (.ite ((declareFailed_only ..).after ((alkCondition_only ..).after ((writeGate_only ..).after ((mqSend_only ..).after ((modMon_only ..).mono))))) ((mqSend_only ..).after ((modMon_only ..).mono))))))) (.ite ((contactAct_only ..).after ((alkCondition_only ..).after (.ite ((declareFailed_only ..).after ((alkCondition_only ..).after ((writeGate_only ..).after ((mqSend_only ..).after ((modMon_only ..).mono))))) ((mqSend_only ..).after ((modMon_only ..).mono))))) (.ite ((declareFailed_only ..).after ((alkCondition_only ..).after ((writeGate_only ..).after ((mqSend_only ..).after ((modMon_only ..).mono))))) ((mqSend_only ..).after ((modMon_only ..).mono)))))))) (.ite ((voidArm_only ..).after (.ite ((alkCondition_only ..).after (.ite ((voidArm_only ..).after ((alkCondition_only ..).after ((modHead_only ..).after (.ite ((contactAct_only ..).after ((alkCondition_only ..).after (.ite ((declareFailed_only ..).after ((alkCondition_only ..).after ((writeGate_only ..).after ((mqSend_only ..).after ((modMon_only ..).mono))))) ((mqSend_only ..).after ((modMon_only ..).mono))))) (.ite ((declareFailed_only ..).after ((alkCondition_only ..).after ((writeGate_only ..).after ((mqSend_only ..).after ((modMon_only ..).mono))))) ((mqSend_only ..).after ((modMon_only ..).mono))))))) (.ite ((contactAct_only ..).after ((alkCondition_only ..).after (.ite ((declareFailed_only ..).after ((alkCondition_only ..).after ((writeGate_only ..).after ((mqSend_only ..).after ((modMon_only ..).mono))))) ((mqSend_only ..).after ((modMon_only ..).mono))))) (.ite ((declareFailed_only ..).after ((alkCondition_only ..).after ((writeGate_only ..).after ((mqSend_only ..).after ((modMon_only ..).mono))))) ((mqSend_only ..).after ((modMon_only ..).mono)))))) (.ite ((voidArm_only ..).after ((alkCondition_only ..).after ((modHead_only ..).after (.ite ((contactAct_only ..).after ((alkCondition_only ..).after (.ite ((declareFailed_only ..).after ((alkCondition_only ..).after ((writeGate_only ..).after ((mqSend_only ..).after ((modMon_only ..).mono))))) ((mqSend_only ..).after ((modMon_only ..).mono))))) (.ite ((declareFailed_only ..).after ((alkCondition_only ..).after ((writeGate_only ..).after ((mqSend_only ..).after ((modMon_only ..).mono))))) ((mqSend_only ..).after ((modMon_only ..).mono))))))) (.ite ((contactAct_only ..).after ((alkCondition_only ..).after (.ite ((declareFailed_only ..).after ((alkCondition_only ..).after ((writeGate_only ..).after ((mqSend_only ..).after ((modMon_only ..).mono))))) ((mqSend_only ..).after ((modMon_only ..).mono))))) (.ite ((declareFailed_only ..).after ((alkCondition_only ..).after ((writeGate_only ..).after ((mqSend_only ..).after ((modMon_only ..).mono))))) ((mqSend_only ..).after ((modMon_only ..).mono))))))) (.ite ((alkCondition_only ..).after (.ite ((voidArm_only ..).after ((alkCondition_only ..).after ((modHead_only ..).after (.ite ((contactAct_only ..).after ((alkCondition_only ..).after (.ite ((declareFailed_only ..).after ((alkCondition_only ..).after ((writeGate_only ..).after ((mqSend_only ..).after ((modMon_only ..).mono))))) ((mqSend_only ..).after ((modMon_only ..).mono))))) (.ite ((declareFailed_only ..).after ((alkCondition_only ..).after ((writeGate_only ..).after ((mqSend_only ..).after ((modMon_only ..).mono))))) ((mqSend_only ..).after ((modMon_only ..).mono))))))) (.ite ((contactAct_only ..).after ((alkCondition_only ..).after (.ite ((declareFailed_only ..).after ((alkCondition_only ..).after ((writeGate_only ..).after ((mqSend_only ..).after ((modMon_only ..).mono))))) ((mqSend_only ..).after ((modMon_only ..).mono))))) (.ite ((declareFailed_only ..).after ((alkCondition_only ..).after ((writeGate_only ..).after ((mqSend_only ..).after ((modMon_only ..).mono))))) ((mqSend_only ..).after ((modMon_only ..).mono)))))) (.ite ((voidArm_only ..).after ((alkCondition_only ..).after ((modHead_only ..).after (.ite ((contactAct_only ..).after ((alkCondition_only ..).after (.ite ((declareFailed_only ..).after ((alkCondition_only ..).after ((writeGate_only ..).after ((mqSend_only ..).after ((modMon_only ..).mono))))) ((mqSend_only ..).after ((modMon_only ..).mono))))) (.ite ((declareFailed_only ..).after ((alkCondition_only ..).after ((writeGate_only ..).after ((mqSend_only ..).after ((modMon_only ..).mono))))) ((mqSend_only ..).after ((modMon_only ..).mono))))))) (.ite ((contactAct_only ..).after ((alkCondition_only ..).after (.ite ((declareFailed_only ..).after ((alkCondition_only ..).after ((writeGate_only ..).after ((mqSend_only ..).after ((modMon_only ..).mono))))) ((mqSend_only ..).after ((modMon_only ..).mono))))) (.ite ((declareFailed_only ..).after ((alkCondition_only ..).after ((writeGate_only ..).after ((mqSend_only ..).after ((modMon_only ..).mono))))) ((mqSend_only ..).after ((modMon_only ..).mono)))))))))) (.ite (.each (fun _ _ => (alkPut_only ..).mono) ((voidArm_only ..).after ((alkCondition_only ..).after (.ite (.each (fun _ _ => (alkPut_only ..).mono) (.ite ((voidArm_only ..).after (.ite ((alkCondition_only ..).after (.ite ((voidArm_only ..).after ((alkCondition_only ..).after ((modHead_only ..).after (.ite ((contactAct_only ..).after ((alkCondition_only ..).after (.ite ((declareFailed_only ..).after ((alkCondition_only ..).after ((writeGate_only ..).after ((mqSend_only ..).after ((modMon_only ..).mono))))) ((mqSend_only ..).after ((modMon_only ..).mono))))) (.ite ((declareFailed_only ..).after ((alkCondition_only ..).after ((writeGate_only ..).after ((mqSend_only ..).after ((modMon_only ..).mono))))) ((mqSend_only ..).after ((modMon_only ..).mono))))))) (.ite ((contactAct_only ..).after ((alkCondition_only ..).after (.ite ((declareFailed_only ..).after ((alkCondition_only ..).after ((writeGate_only ..).after ((mqSend_only ..).after ((modMon_only ..).mono))))) ((mqSend_only ..).after ((modMon_only ..).mono))))) (.ite ((declareFailed_only ..).after ((alkCondition_only ..).after ((writeGate_only ..).after ((mqSend_only ..).after ((modMon_only ..).mono))))) ((mqSend_only ..).after ((modMon_only ..).mono)))))) (.ite ((voidArm_only ..).after ((alkCondition_only ..).after ((modHead_only ..).after (.ite ((contactAct_only ..).after ((alkCondition_only ..).after (.ite ((declareFailed_only ..).after ((alkCondition_only ..).after ((writeGate_only ..).after ((mqSend_only ..).after ((modMon_only ..).mono))))) ((mqSend_only ..).after ((modMon_only ..).mono))))) (.ite ((declareFailed_only ..).after ((alkCondition_only ..).after ((writeGate_only ..).after ((mqSend_only ..).after ((modMon_only ..).mono))))) ((mqSend_only ..).after ((modMon_only ..).mono))))))) (.ite ((contactAct_only ..).after ((alkCondition_only ..).after (.ite ((declareFailed_only ..).after ((alkCondition_only ..).after ((writeGate_only ..).after ((mqSend_only ..).after ((modMon_only ..).mono))))) ((mqSend_only ..).after ((modMon_only ..).mono))))) (.ite ((declareFailed_only ..).after ((alkCondition_only ..).after ((writeGate_only ..).after ((mqSend_only ..).after ((modMon_only ..).mono))))) ((mqSend_only ..).after ((modMon_only ..).mono))))))) (.ite ((alkCondition_only ..).after (.ite ((voidArm_only ..).after ((alkCondition_only ..).after ((modHead_only ..).after (.ite ((contactAct_only ..).after ((alkCondition_only ..).after (.ite ((declareFailed_only ..).after ((alkCondition_only ..).after ((writeGate_only ..).after ((mqSend_only ..).after ((modMon_only ..).mono))))) ((mqSend_only ..).after ((modMon_only ..).mono))))) (.ite ((declareFailed_only ..).after ((alkCondition_only ..).after ((writeGate_only ..).after ((mqSend_only ..).after ((modMon_only ..).mono))))) ((mqSend_only ..).after ((modMon_only ..).mono))))))) (.ite ((contactAct_only ..).after ((alkCondition_only ..).after (.ite ((declareFailed_only ..).after ((alkCondition_only ..).after ((writeGate_only ..).after ((mqSend_only ..).after ((modMon_only ..).mono))))) ((mqSend_only ..).after ((modMon_only ..).mono))))) (.ite ((declareFailed_only ..).after ((alkCondition_only ..).after ((writeGate_only ..).after ((mqSend_only ..).after ((modMon_only ..).mono))))) ((mqSend_only ..).after ((modMon_only ..).mono)))))) (.ite ((voidArm_only ..).after ((alkCondition_only ..).after ((modHead_only ..).after (.ite ((contactAct_only ..).after ((alkCondition_only ..).after (.ite ((declareFailed_only ..).after ((alkCondition_only ..).after ((writeGate_only ..).after ((mqSend_only ..).after ((modMon_only ..).mono))))) ((mqSend_only ..).after ((modMon_only ..).mono))))) (.ite ((declareFailed_only ..).after ((alkCondition_only ..).after ((writeGate_only ..).after ((mqSend_only ..).after ((modMon_only ..).mono))))) ((mqSend_only ..).after ((modMon_only ..).mono))))))) (.ite ((contactAct_only ..).after ((alkCondition_only ..).after (.ite ((declareFailed_only ..).after ((alkCondition_only ..).after ((writeGate_only ..).after ((mqSend_only ..).after ((modMon_only ..).mono))))) ((mqSend_only ..).after ((modMon_only ..).mono))))) (.ite ((declareFailed_only ..).after ((alkCondition_only ..).after ((writeGate_only ..).after ((mqSend_only ..).after ((modMon_only ..).mono))))) ((mqSend_only ..).after ((modMon_only ..).mono)))))))) (.ite ((voidArm_only ..).after (.ite ((alkCondition_only ..).after (.ite ((voidArm_only ..).after ((alkCondition_only ..).after ((modHead_only ..).after (.ite ((contactAct_only ..).after ((alkCondition_only ..).after (.ite ((declareFailed_only ..).after ((alkCondition_only ..).after ((writeGate_only ..).after ((mqSend_only ..).after ((modMon_only ..).mono))))) ((mqSend_only ..).after ((modMon_only ..).mono))))) (.ite ((declareFailed_only ..).after ((alkCondition_only ..).after ((writeGate_only ..).after ((mqSend_only ..).after ((modMon_only ..).mono))))) ((mqSend_only ..).after ((modMon_only ..).mono))))))) (.ite ((contactAct_only ..).after ((alkCondition_only ..).after (.ite ((declareFailed_only ..).after ((alkCondition_only ..).after ((writeGate_only ..).after ((mqSend_only ..).after ((modMon_only ..).mono))))) ((mqSend_only ..).after ((modMon_only ..).mono))))) (.ite ((declareFailed_only ..).after ((alkCondition_only ..).after ((writeGate_only ..).after ((mqSend_only ..).after ((modMon_only ..).mono))))) ((mqSend_only ..).after ((modMon_only ..).mono)))))) (.ite ((voidArm_only ..).after ((alkCondition_only ..).after ((modHead_only ..).after (.ite ((contactAct_only ..).after ((alkCondition_only ..).after (.ite ((declareFailed_only ..).after ((alkCondition_only ..).after ((writeGate_only ..).after ((mqSend_only ..).after ((modMon_only ..).mono))))) ((mqSend_only ..).after ((modMon_only ..).mono))))) (.ite ((declareFailed_only ..).after ((alkCondition_only ..).after ((writeGate_only ..).after ((mqSend_only ..).after ((modMon_only ..).mono))))) ((mqSend_only ..).after ((modMon_only ..).mono))))))) (.ite ((contactAct_only ..).after ((alkCondition_only ..).after (.ite ((declareFailed_only ..).after ((alkCondition_only ..).after ((writeGate_only ..).after ((mqSend_only ..).after ((modMon_only ..).mono))))) ((mqSend_only ..).after ((modMon_only ..).mono))))) (.ite ((declareFailed_only ..).after ((alkCondition_only ..).after ((writeGate_only ..).after ((mqSend_only ..).after ((modMon_only ..).mono))))) ((mqSend_only ..).after ((modMon_only ..).mono))))))) (.ite ((alkCondition_only ..).after (.ite ((voidArm_only ..).after ((alkCondition_only ..).after ((modHead_only ..).after (.ite ((contactAct_only ..).after ((alkCondition_only ..).after (.ite ((declareFailed_only ..).after ((alkCondition_only ..).after ((writeGate_only ..).after ((mqSend_only ..).after ((modMon_only ..).mono))))) ((mqSend_only ..).after ((modMon_only ..).mono))))) (.ite ((declareFailed_only ..).after ((alkCondition_only ..).after ((writeGate_only ..).after ((mqSend_only ..).after ((modMon_only ..).mono))))) ((mqSend_only ..).after ((modMon_only ..).mono))))))) (.ite ((contactAct_only ..).after ((alkCondition_only ..).after (.ite ((declareFailed_only ..).after ((alkCondition_only ..).after ((writeGate_only ..).after ((mqSend_only ..).after ((modMon_only ..).mono))))) ((mqSend_only ..).after ((modMon_only ..).mono))))) (.ite ((declareFailed_only ..).after ((alkCondition_only ..).after ((writeGate_only ..).after ((mqSend_only ..).after ((modMon_only ..).mono))))) ((mqSend_only ..).after ((modMon_only ..).mono)))))) (.ite ((voidArm_only ..).after ((alkCondition_only ..).after ((modHead_only ..).after (.ite ((contactAct_only ..).after ((alkCondition_only ..).after (.ite ((declareFailed_only ..).after ((alkCondition_only ..).after ((writeGate_only ..).after ((mqSend_only ..).after ((modMon_only ..).mono))))) ((mqSend_only ..).after ((modMon_only ..).mono))))) (.ite ((declareFailed_only ..).after ((alkCondition_only ..).after ((writeGate_only ..).after ((mqSend_only ..).after ((modMon_only ..).mono))))) ((mqSend_only ..).after ((modMon_only ..).mono))))))) (.ite ((contactAct_only ..).after ((alkCondition_only ..).after (.ite ((declareFailed_only ..).after ((alkCondition_only ..).after ((writeGate_only ..).after ((mqSend_only ..).after ((modMon_only ..).mono))))) ((mqSend_only ..).after ((modMon_only ..).mono))))) (.ite ((declareFailed_only ..).after ((alkCondition_only ..).after ((writeGate_only ..).after ((mqSend_only ..).after ((modMon_only ..).mono))))) ((mqSend_only ..).after ((modMon_only ..).mono))))))))))) (.ite (.each (fun _ _ => (alkPut_only ..).mono) (.ite ((voidArm_only ..).after (.ite ((alkCondition_only ..).after (.ite ((voidArm_only ..).after ((alkCondition_only ..).after ((modHead_only ..).after (.ite ((contactAct_only ..).after ((alkCondition_only ..).after (.ite ((declareFailed_only ..).after ((alkCondition_only ..).after ((writeGate_only ..).after ((mqSend_only ..).after ((modMon_only ..).mono))))) ((mqSend_only ..).after ((modMon_only ..).mono))))) (.ite ((declareFailed_only ..).after ((alkCondition_only ..).after ((writeGate_only ..).after ((mqSend_only ..).after ((modMon_only ..).mono))))) ((mqSend_only ..).after ((modMon_only ..).mono))))))) (.ite ((contactAct_only ..).after ((alkCondition_only ..).after (.ite ((declareFailed_only ..).after ((alkCondition_only ..).after ((writeGate_only ..).after ((mqSend_only ..).after ((modMon_only ..).mono))))) ((mqSend_only ..).after ((modMon_only ..).mono))))) (.ite ((declareFailed_only ..).after ((alkCondition_only ..).after ((writeGate_only ..).after ((mqSend_only ..).after ((modMon_only ..).mono))))) ((mqSend_only ..).after ((modMon_only ..).mono)))))) (.ite ((voidArm_only ..).after ((alkCondition_only ..).after ((modHead_only ..).after (.ite ((contactAct_only ..).after ((alkCondition_only ..).after (.ite ((declareFailed_only ..).after ((alkCondition_only ..).after ((writeGate_only ..).after ((mqSend_only ..).after ((modMon_only ..).mono))))) ((mqSend_only ..).after ((modMon_only ..).mono))))) (.ite ((declareFailed_only ..).after ((alkCondition_only ..).after ((writeGate_only ..).after ((mqSend_only ..).after ((modMon_only ..).mono))))) ((mqSend_only ..).after ((modMon_only ..).mono))))))) (.ite ((contactAct_only ..).after ((alkCondition_only ..).after (.ite ((declareFailed_only ..).after ((alkCondition_only ..).after ((writeGate_only ..).after ((mqSend_only ..).after ((modMon_only ..).mono))))) ((mqSend_only ..).after ((modMon_only ..).mono))))) (.ite ((declareFailed_only ..).after ((alkCondition_only ..).after ((writeGate_only ..).after ((mqSend_only ..).after ((modMon_only ..).mono))))) ((mqSend_only ..).after ((modMon_only ..).mono))))))) (.ite ((alkCondition_only ..).after (.ite ((voidArm_only ..).after ((alkCondition_only ..).after ((modHead_only ..).after (.ite ((contactAct_only ..).after ((alkCondition_only ..).after (.ite ((declareFailed_only ..).after ((alkCondition_only ..).after ((writeGate_only ..).after ((mqSend_only ..).after ((modMon_only ..).mono))))) ((mqSend_only ..).after ((modMon_only ..).mono))))) (.ite ((declareFailed_only ..).after ((alkCondition_only ..).after ((writeGate_only ..).after ((mqSend_only ..).after ((modMon_only ..).mono))))) ((mqSend_only ..).after ((modMon_only ..).mono))))))) (.ite ((contactAct_only ..).after ((alkCondition_only ..).after (.ite ((declareFailed_only ..).after ((alkCondition_only ..).after ((writeGate_only ..).after ((mqSend_only ..).after ((modMon_only ..).mono))))) ((mqSend_only ..).after ((modMon_only ..).mono))))) (.ite ((declareFailed_only ..).after ((alkCondition_only ..).after ((writeGate_only ..).after ((mqSend_only ..).after ((modMon_only ..).mono))))) ((mqSend_only ..).after ((modMon_only ..).mono)))))) (.ite ((voidArm_only ..).after ((alkCondition_only ..).after ((modHead_only ..).after (.ite ((contactAct_only ..).after ((alkCondition_only ..).after (.ite ((declareFailed_only ..).after ((alkCondition_only ..).after ((writeGate_only ..).after ((mqSend_only ..).after ((modMon_only ..).mono))))) ((mqSend_only ..).after ((modMon_only ..).mono))))) (.ite ((declareFailed_only ..).after ((alkCondition_only ..).after ((writeGate_only ..).after ((mqSend_only ..).after ((modMon_only ..).mono))))) ((mqSend_only ..).after ((modMon_only ..).mono))))))) (.ite ((contactAct_only ..).after ((alkCondition_only ..).after (.ite ((declareFailed_only ..).after ((alkCondition_only ..).after ((writeGate_only ..).after ((mqSend_only ..).after ((modMon_only ..).mono))))) ((mqSend_only ..).after ((modMon_only ..).mono))))) (.ite ((declareFailed_only ..).after ((alkCondition_only ..).after ((writeGate_only ..).after ((mqSend_only ..).after ((modMon_only ..).mono))))) ((mqSend_only ..).after ((modMon_only ..).mono)))))))) (.ite ((voidArm_only ..).after (.ite ((alkCondition_only ..).after (.ite ((voidArm_only ..).after ((alkCondition_only ..).after ((modHead_only ..).after (.ite ((contactAct_only ..).after ((alkCondition_only ..).after (.ite ((declareFailed_only ..).after ((alkCondition_only ..).after ((writeGate_only ..).after ((mqSend_only ..).after ((modMon_only ..).mono))))) ((mqSend_only ..).after ((modMon_only ..).mono))))) (.ite ((declareFailed_only ..).after ((alkCondition_only ..).after ((writeGate_only ..).after ((mqSend_only ..).after ((modMon_only ..).mono))))) ((mqSend_only ..).after ((modMon_only ..).mono))))))) (.ite ((contactAct_only ..).after ((alkCondition_only ..).after (.ite ((declareFailed_only ..).after ((alkCondition_only ..).after ((writeGate_only ..).after ((mqSend_only ..).after ((modMon_only ..).mono))))) ((mqSend_only ..).after ((modMon_only ..).mono))))) (.ite ((declareFailed_only ..).after ((alkCondition_only ..).after ((writeGate_only ..).after ((mqSend_only ..).after ((modMon_only ..).mono))))) ((mqSend_only ..).after ((modMon_only ..).mono)))))) (.ite ((voidArm_only ..).after ((alkCondition_only ..).after ((modHead_only ..).after (.ite ((contactAct_only ..).after ((alkCondition_only ..).after (.ite ((declareFailed_only ..).after ((alkCondition_only ..).after ((writeGate_only ..).after ((mqSend_only ..).after ((modMon_only ..).mono))))) ((mqSend_only ..).after ((modMon_only ..).mono))))) (.ite ((declareFailed_only ..).after ((alkCondition_only ..).after ((writeGate_only ..).after ((mqSend_only ..).after ((modMon_only ..).mono))))) ((mqSend_only ..).after ((modMon_only ..).mono))))))) (.ite ((contactAct_only ..).after ((alkCondition_only ..).after (.ite ((declareFailed_only ..).after ((alkCondition_only ..).after ((writeGate_only ..).after ((mqSend_only ..).after ((modMon_only ..).mono))))) ((mqSend_only ..).after ((modMon_only ..).mono))))) (.ite ((declareFailed_only ..).after ((alkCondition_only ..).after ((writeGate_only ..).after ((mqSend_only ..).after ((modMon_only ..).mono))))) ((mqSend_only ..).after ((modMon_only ..).mono))))))) (.ite ((alkCondition_only ..).after (.ite ((voidArm_only ..).after ((alkCondition_only ..).after ((modHead_only ..).after (.ite ((contactAct_only ..).after ((alkCondition_only ..).after (.ite ((declareFailed_only ..).after ((alkCondition_only ..).after ((writeGate_only ..).after ((mqSend_only ..).after ((modMon_only ..).mono))))) ((mqSend_only ..).after ((modMon_only ..).mono))))) (.ite ((declareFailed_only ..).after ((alkCondition_only ..).after ((writeGate_only ..).after ((mqSend_only ..).after ((modMon_only ..).mono))))) ((mqSend_only ..).after ((modMon_only ..).mono))))))) (.ite ((contactAct_only ..).after ((alkCondition_only ..).after (.ite ((declareFailed_only ..).after ((alkCondition_only ..).after ((writeGate_only ..).after ((mqSend_only ..).after ((modMon_only ..).mono))))) ((mqSend_only ..).after ((modMon_only ..).mono))))) (.ite ((declareFailed_only ..).after ((alkCondition_only ..).after ((writeGate_only ..).after ((mqSend_only ..).after ((modMon_only ..).mono))))) ((mqSend_only ..).after ((modMon_only ..).mono)))))) (.ite ((voidArm_only ..).after ((alkCondition_only ..).after ((modHead_only ..).after (.ite ((contactAct_only ..).after ((alkCondition_only ..).after (.ite ((declareFailed_only ..).after ((alkCondition_only ..).after ((writeGate_only ..).after ((mqSend_only ..).after ((modMon_only ..).mono))))) ((mqSend_only ..).after ((modMon_only ..).mono))))) (.ite ((declareFailed_only ..).after ((alkCondition_only ..).after ((writeGate_only ..).after ((mqSend_only ..).after ((modMon_only ..).mono))))) ((mqSend_only ..).after ((modMon_only ..).mono))))))) (.ite ((contactAct_only ..).after ((alkCondition_only ..).after (.ite ((declareFailed_only ..).after ((alkCondition_only ..).after ((writeGate_only ..).after ((mqSend_only ..).after ((modMon_only ..).mono))))) ((mqSend_only ..).after ((modMon_only ..).mono))))) (.ite ((declareFailed_only ..).after ((alkCondition_only ..).after ((writeGate_only ..).after ((mqSend_only ..).after ((modMon_only ..).mono))))) ((mqSend_only ..).after ((modMon_only ..).mono)))))))))))
theorem execPortStatus_only (arm word s) : OnlyNext (.but { aon := true, idn := true, fuses := true, clk := true, pwr := true, img := true, nvm := true, bol := true, rows := true, fcc := true, pending := true, intake := true }) s (execPortStatus arm word s) := by
  unfold execPortStatus
  exact .live (Only.next (.ite ((failStop_only ..).after ((alkCondition_only ..).after (.each (fun _ _ => (armDark_only ..).after ((modAlk_only ..).mono)) ((alkMute_only ..).after ((modAlk_only ..).mono))))) ((modAlk_only ..).mono)))
theorem execTelemetryUndefined_only (arm word s) : OnlyNext { alks := true } s (execTelemetryUndefined arm word s) := by
  unfold execTelemetryUndefined
  exact .live (Only.next (.ite ((modAlk_only ..).mono) .refl))
theorem hardReset_only (s) : Only (.but { aon := true, fuses := true, tx := true, free := true, pending := true }) s (hardReset s) := by
  have hc : Only (.but { aon := true, fuses := true, tx := true, free := true, pending := true }) s (each (List.range 8) cutBank s) := .each (fun _ _ => (cutBank_only ..).mono) .refl
  unfold hardReset
  revert hc
  generalize each (List.range 8) cutBank s = t
  intro hc
  refine hc.trans ⟨rfl, (nomatch ·), ?_, List.prefix_rfl⟩
  exact FormKept.of_parts (fun _ => rfl) (fun _ => rfl) (fun _ => rfl) id id (fun _ => rfl)
theorem outputsLow_only (s) : Only { tx := true } s (outputsLow s) := by
  unfold outputsLow
  exact .ite ((send_only ..).after (.ite ((send_only ..).mono) .refl)) (.ite ((send_only ..).mono) .refl)
theorem clockFault_only (kind rail s) : Only (.but { fuses := true, free := true, pending := true }) s (clockFault kind rail s) := by
  unfold clockFault
  exact .upd ((hardReset_only ..).after ((outputsLow_only ..).mono))
theorem applySetpoint_only (s) : Only { gov := true, spn := true } s (applySetpoint s) := by
  unfold applySetpoint
  exact .ite ((setSetpoint_only ..).after (.upd ((modCtx_only ..).mono))) ((setSetpoint_only ..).after (.upd ((modCtx_only ..).mono)))
theorem enterSpinningUp_only (s) : Only { dev := true, start := true, gov := true, spn := true, spc := true, hop := true, slu := true, tx := true } s (enterSpinningUp s) := by
  unfold enterSpinningUp
  exact (applySetpoint_only ..).after ((startOffsets_only ..).after (.upd .refl))
theorem trySpinUp_only (s) : Only { dev := true, start := true, gov := true, spn := true, spc := true, hop := true, slu := true, tx := true } s (trySpinUp s) := by
  unfold trySpinUp
  exact .ite ((enterSpinningUp_only ..).mono) .refl
theorem followBudget_only (s) : Only { dev := true, start := true, gov := true, spn := true, spc := true, hop := true, slu := true, tx := true } s (followBudget s) := by
  unfold followBudget
  exact .ite ((trySpinUp_only ..).mono) (.ite (.ite (.ite ((applySetpoint_only ..).after ((startOffsets_only ..).after (.upd .refl))) .refl) (.ite (.upd ((startCoast_only ..).mono)) ((applySetpoint_only ..).mono))) .refl)
theorem enterParked_only (s) : Only { dev := true, start := true, gov := true, spn := true, spc := true, hop := true, slu := true, tx := true } s (enterParked s) := by
  unfold enterParked
  exact (trySpinUp_only ..).after (.upd .refl)
theorem enterLoading_only (s) : Only { dev := true, start := true, pwr := true, evt := true, hold := true, img := true, islands := true, arms := true, gov := true, spn := true, fan := true } s (enterLoading s) := by
  unfold enterLoading
  exact .ite (.upd (.each (fun _ _ => (modArm_only ..).mono) (.each (fun _ _ => (requestSwitch_only ..).mono) ((applySetpoint_only ..).after ((restorePlan_only ..).after (.upd .refl)))))) ((post_only ..).after (.upd (.upd (.each (fun _ _ => (modArm_only ..).mono) (.each (fun _ _ => (requestSwitch_only ..).mono) ((applySetpoint_only ..).after ((restorePlan_only ..).after (.upd .refl))))))))
theorem completeSpin_only (action s) : Only { diag := true, mrc := true, mpd := true, links := true, injs := true, hop := true, tx := true } s (completeSpin action s) := by
  unfold completeSpin
  refine .each (fun _ _ => ?_) .refl
  split
  · exact .refl
  · exact .ite ((complete_only ..).mono) .refl
theorem saveCursors_only (s) : Only { layout := true, links := true, injs := true, tx := true } s (saveCursors s) := by
  unfold saveCursors
  exact .each (fun _ _ => .ite ((saveCursor_only ..).mono) .refl) .refl
theorem parkSteps_only (s) : Only { start := true, evt := true, layout := true, alks := true, islands := true, heads := true, arms := true, gov := true, mrc := true, links := true, injs := true, slu := true, tx := true } s (parkSteps s) := by
  unfold parkSteps
  exact .ite (.upd (.ite ((unloadAll_only ..).after (.ite (.iteApp ((saveCursors_only ..).after (.upd (.ite (.upd .refl) .refl))) ((programSector_only ..).after ((saveCursors_only ..).after (.upd (.ite (.upd .refl) .refl))))) (.ite (.upd .refl) .refl))) (.ite (.iteApp ((saveCursors_only ..).after (.upd (.ite (.upd .refl) .refl))) ((programSector_only ..).after ((saveCursors_only ..).after (.upd (.ite (.upd .refl) .refl))))) (.ite (.upd .refl) .refl)))) (.ite ((unloadAll_only ..).after (.ite (.iteApp ((saveCursors_only ..).after (.upd (.ite (.upd .refl) .refl))) ((programSector_only ..).after ((saveCursors_only ..).after (.upd (.ite (.upd .refl) .refl))))) (.ite (.upd .refl) .refl))) (.ite (.iteApp ((saveCursors_only ..).after (.upd (.ite (.upd .refl) .refl))) ((programSector_only ..).after ((saveCursors_only ..).after (.upd (.ite (.upd .refl) .refl))))) (.ite (.upd .refl) .refl)))
theorem beginHandover_only (reason s) : Only { evt := true, ptn := true, gov := true, links := true, injs := true, tx := true } s (beginHandover reason s) := by
  unfold beginHandover
  exact (ptnSend_only ..).after ((post_only ..).after (.upd .refl))
theorem handOver_only (s) : Only (.but { aon := true, start := true, idn := true, fuses := true, clk := true, pwr := true, flt := true, mqs := true, hold := true, img := true, nvm := true, layout := true, bol := true, fls := true, fcc := true, free := true, pending := true, intake := true }) s (handOver s) := by
  unfold handOver
  exact .upd ((freeInner_only ..).after (.each (fun _ _ => (complete_only ..).mono) ((ptnSend_only ..).after ((dropActive_only ..).after ((startCoast_only ..).after ((releaseArms_only ..).after ((endVisits_only ..).mono)))))))
theorem advanceHandover_only (s) : Only (.but { aon := true, start := true, idn := true, fuses := true, clk := true, pwr := true, flt := true, mqs := true, hold := true, img := true, nvm := true, layout := true, bol := true, fls := true, fcc := true, free := true, pending := true, intake := true }) s (advanceHandover s) := by
  unfold advanceHandover
  refine .ite .refl ?_
  refine .ite ?_ ?_
  · refine (handOver_only ..).after ?_
    refine .ite ?_ ?_
    · refine (unloadAll_only ..).after ?_
      refine .upd ?_
      split
      · exact .ite ((beginHandover_only ..).after ((modCmd_only ..).mono)) .refl
      · exact .refl
    · split
      · exact .ite ((beginHandover_only ..).after ((modCmd_only ..).mono)) .refl
      · exact .refl
  · refine .ite ?_ ?_
    · refine (unloadAll_only ..).after ?_
      refine .upd ?_
      split
      · exact .ite ((beginHandover_only ..).after ((modCmd_only ..).mono)) .refl
      · exact .refl
    · split
      · exact .ite ((beginHandover_only ..).after ((modCmd_only ..).mono)) .refl
      · exact .refl
theorem advancePark_only (s) : Only (.but { aon := true, idn := true, fuses := true, clk := true, pwr := true, flt := true, mqs := true, hold := true, img := true, nvm := true, bol := true, fls := true, fcc := true, free := true, pending := true, intake := true }) s (advancePark s) := by
  unfold advancePark
  exact (advanceHandover_only ..).after ((parkSteps_only ..).mono)
theorem spindleLost_only (cause s) : Only (.but { aon := true, idn := true, fuses := true, clk := true, pwr := true, img := true, nvm := true, bol := true, rows := true, fcc := true, pending := true, intake := true }) s (spindleLost cause s) := by
  unfold spindleLost
  exact (failStop_only ..).after (.ite ((unloadAll_only ..).after (.upd .refl)) (.upd .refl))
/-- A condition of Table 8.5, with its response in service. -/
theorem Only.spindleFault {m : Units} {s t : State} {code : BitVec 8} {hold : Bool} {fs : List PayField} {inService : State → State}
    (hf : ∀ u, Only m u (inService u)) (h : Only m s t)
    (le : ((.but { aon := true, idn := true, fuses := true, clk := true, pwr := true, img := true, nvm := true, bol := true, rows := true, fcc := true, pending := true, intake := true }) : Units).le m = true := by rfl) :
    Only m s (Machine.spindleFault code hold fs inService t) := by
  have hr (r : Report) (u : State) : Only (.but { aon := true, idn := true, fuses := true, clk := true, pwr := true, img := true, nvm := true, bol := true, rows := true, fcc := true, pending := true, intake := true }) u (report r u) := (report_only ..).mono
  have hs (r : Report) (u : State) : Only (.but { aon := true, idn := true, fuses := true, clk := true, pwr := true, img := true, nvm := true, bol := true, rows := true, fcc := true, pending := true, intake := true }) u (failStop code (gatesOff (report r u))) := (failStop_only ..).after ((gatesOff_only ..).after (hr ..))
  refine (h.trans (((mqNote_only ..).after (spnEvent_only ..).mono : Only (.but { aon := true, idn := true, fuses := true, clk := true, pwr := true, img := true, nvm := true, bol := true, rows := true, fcc := true, pending := true, intake := true }) t (mqNote 27 (spnEvent code fs t))).mono le)).trans ?_
  unfold Machine.spindleFault
  extract_lets u
  split
  · exact (hr ..).mono le
  · exact (hs ..).mono le
  · exact (hs ..).mono le
  · exact (hs ..).mono le
  · exact (hr ..).mono le
  · exact (hr ..).mono le
  · exact (hr ..).mono le
  · exact ((hr ..).mono le).trans (hf _)
theorem catchOwed_only (s) : Only { gov := true, spn := true, spc := true, slu := true, tx := true } s (catchOwed s) := by
  unfold catchOwed
  exact .upd ((startCoast_only ..).mono)
theorem governorFail_only (n cause s) : Only (.but { aon := true, idn := true, fuses := true, clk := true, pwr := true, img := true, nvm := true, bol := true, rows := true, fcc := true, pending := true, intake := true }) s (governorFail n cause s) := by
  unfold governorFail
  exact .ite (.ite ((failStop_only ..).after ((mqNote_only ..).after ((condition_only ..).after ((openCause_only ..).after ((setFormat_only ..).after ((modCtx_only ..).mono)))))) ((mqNote_only ..).after ((condition_only ..).after ((openCause_only ..).after ((setFormat_only ..).after ((modCtx_only ..).mono)))))) (.ite ((mqNote_only ..).after ((condition_only ..).after ((modCtx_only ..).mono))) ((failStop_only ..).after ((mqNote_only ..).after ((condition_only ..).after ((modCtx_only ..).mono)))))
theorem romFail_only (n s) : Only (.but { aon := true, idn := true, fuses := true, clk := true, pwr := true, img := true, nvm := true, bol := true, rows := true, fcc := true, pending := true, intake := true }) s (romFail n s) := by
  unfold romFail
  exact .ite ((mqNote_only ..).after ((condition_only ..).after ((modCtx_only ..).mono))) ((failStop_only ..).after ((mqNote_only ..).after ((condition_only ..).after ((modCtx_only ..).mono))))
theorem governorCorrected_only (s) : Only { dev := true, flt := true, evt := true, mqs := true, alks := true, islands := true, heads := true, gov := true, mrc := true, slu := true, fan := true, tx := true, free := true } s (governorCorrected s) := by
  unfold governorCorrected
  exact (report_only ..).after (.upd .refl)
theorem sineStep_only (n e out s) : Only { mqs := true, gov := true, tx := true } s (sineStep n e out s) := by
  unfold sineStep
  exact .each (fun _ _ => .ite (.ite ((mqSend_only ..).after ((modSine_only ..).after ((modSine_only ..).mono))) ((modSine_only ..).mono)) .refl) .refl
theorem traceRecord_only (c v s) : Only { gov := true } s (traceRecord c v s) := by
  unfold traceRecord
  exact .ite (.ite ((modTrace_only ..).mono) ((modTrace_only ..).after (.ite ((traceFire_only ..).mono) .refl))) .refl
theorem traceTaps_only (n fmt x r e outs u v s) : Only { gov := true } s (traceTaps n fmt x r e outs u v s) := by
  unfold traceTaps
  exact .each (fun _ _ => .ite ((traceRecord_only ..).mono) .refl) .refl
theorem trySwitch_only (n e s) : Only { flt := true, gov := true } s (trySwitch n e s) := by
  unfold trySwitch
  exact .ite .refl (.ite ((closeCause_only ..).after ((modCtx_only ..).after ((setFormat_only ..).mono))) ((modCtx_only ..).mono))
theorem runCtx_only (n input o s) : Only (.but { aon := true, idn := true, fuses := true, clk := true, pwr := true, img := true, nvm := true, bol := true, rows := true, fcc := true, pending := true, intake := true }) s (runCtx n input o s) := by
  unfold runCtx
  exact .ite .refl (.ite ((romFail_only ..).after (.ite ((governorCorrected_only ..).after ((modCtx_only ..).mono)) ((modCtx_only ..).mono))) (.ite ((governorFail_only ..).after (.ite ((governorCorrected_only ..).after ((modCtx_only ..).mono)) ((modCtx_only ..).mono))) (.ite (.ite ((governorFail_only ..).after ((modCtx_only ..).after (.ite ((governorCorrected_only ..).after ((modCtx_only ..).mono)) ((modCtx_only ..).mono)))) ((modCtx_only ..).after (.ite ((governorCorrected_only ..).after ((modCtx_only ..).mono)) ((modCtx_only ..).mono)))) (.ite ((governorFail_only ..).after ((trySwitch_only ..).after (.ite (.ite ((sineStep_only ..).after ((traceTaps_only ..).after ((modCtx_only ..).after (.ite ((governorCorrected_only ..).after ((modCtx_only ..).mono)) ((modCtx_only ..).mono))))) ((endSines_only ..).after ((traceTaps_only ..).after ((modCtx_only ..).after (.ite ((governorCorrected_only ..).after ((modCtx_only ..).mono)) ((modCtx_only ..).mono)))))) ((traceTaps_only ..).after ((modCtx_only ..).after (.ite ((governorCorrected_only ..).after ((modCtx_only ..).mono)) ((modCtx_only ..).mono))))))) ((trySwitch_only ..).after (.ite (.ite ((sineStep_only ..).after ((traceTaps_only ..).after ((modCtx_only ..).after (.ite ((governorCorrected_only ..).after ((modCtx_only ..).mono)) ((modCtx_only ..).mono))))) ((endSines_only ..).after ((traceTaps_only ..).after ((modCtx_only ..).after (.ite ((governorCorrected_only ..).after ((modCtx_only ..).mono)) ((modCtx_only ..).mono)))))) ((traceTaps_only ..).after ((modCtx_only ..).after (.ite ((governorCorrected_only ..).after ((modCtx_only ..).mono)) ((modCtx_only ..).mono))))))))))
theorem runClean_only (n input s) : Only (.but { aon := true, idn := true, fuses := true, clk := true, pwr := true, img := true, nvm := true, bol := true, rows := true, fcc := true, pending := true, intake := true }) s (runClean n input s) := by
  unfold runClean
  exact (runCtx_only ..).mono
theorem runTest_only (n s) : Only (.but { aon := true, idn := true, fuses := true, clk := true, pwr := true, img := true, nvm := true, bol := true, rows := true, fcc := true, pending := true, intake := true }) s (runTest n s) := by
  unfold runTest
  exact (disableCtx_only ..).after (.each (fun _ _ => (runClean_only ..).mono) ((enableCtx_only ..).mono))
theorem runTests_only (s) : Only (.but { aon := true, idn := true, fuses := true, clk := true, pwr := true, img := true, nvm := true, bol := true, rows := true, fcc := true, pending := true, intake := true }) s (runTests s) := by
  unfold runTests
  exact .each (fun _ _ => (runTest_only ..).mono) .refl
theorem execLawReplace_only (ctx base entries phaseMargin s) : OnlyNext { gov := true, links := true, injs := true, fan := true, tx := true } s (execLawReplace ctx base entries phaseMargin s) := by
  unfold execLawReplace
  exact .live (Only.next (.ite (.ite (.upd (.each (fun _ _ => (mirror_only ..).mono) (.updWith .refl (.of_parts (store := tabFold_wf _ (fun e : BitVec 256 × Nat => (base + e.2, e.1)) _ _))))) ((moveLaw_only ..).after (.each (fun _ _ => (mirror_only ..).mono) (.updWith .refl (.of_parts (store := tabFold_wf _ (fun e : BitVec 256 × Nat => (base + e.2, e.1)) _ _)))))) .refl))
theorem execSineInjectStart_only (gen ctx amplitude frequency periods s) : OnlyNext { gov := true } s (execSineInjectStart gen ctx amplitude frequency periods s) := by
  unfold execSineInjectStart
  exact .live (Only.next (.ite ((modSine_only ..).mono) .refl))
theorem execTraceTrigger_only (s) : OnlyNext { gov := true } s (execTraceTrigger s) := by
  unfold execTraceTrigger
  exact .live (Only.next ((traceFire_only ..).mono))
theorem execTraceCaptureDone_only (ch s) : OnlyNext { gov := true } s (execTraceCaptureDone ch s) := by
  unfold execTraceCaptureDone
  exact .live (Only.next (.ite ((modTrace_only ..).mono) .refl))
theorem observerStep_only (iA iB s) : Only { spc := true } s (observerStep iA iB s) := by
  unfold observerStep
  exact .upd .refl
theorem sendDuty_only (a b c s) : Only { spc := true, tx := true } s (sendDuty a b c s) := by
  unfold sendDuty
  exact (send_only ..).after (.upd .refl)
theorem focStep_only (m ia ib ic vbus s) : Only (.but { aon := true, idn := true, fuses := true, clk := true, pwr := true, img := true, nvm := true, bol := true, rows := true, fcc := true, pending := true, intake := true }) s (focStep m ia ib ic vbus s) := by
  unfold focStep
  exact (checkFloor_only ..).after ((sendDuty_only ..).after (.upd (.upd ((observerStep_only ..).after (.ite (.upd (.ite (.upd (.ite (.upd (.upd (.ite ((modCtx_only ..).after ((modCtx_only ..).after (.upd ((runCtx_only ..).after ((runCtx_only ..).after ((setSetpoint_only ..).after ((setSetpoint_only ..).after (.ite ((runCtx_only ..).mono) .refl)))))))) (.upd ((runCtx_only ..).after ((runCtx_only ..).after ((setSetpoint_only ..).after ((setSetpoint_only ..).after (.ite ((runCtx_only ..).mono) .refl))))))))) (.upd (.ite ((modCtx_only ..).after ((modCtx_only ..).after (.upd ((runCtx_only ..).after ((runCtx_only ..).after ((setSetpoint_only ..).after ((setSetpoint_only ..).after (.ite ((runCtx_only ..).mono) .refl)))))))) (.upd ((runCtx_only ..).after ((runCtx_only ..).after ((setSetpoint_only ..).after ((setSetpoint_only ..).after (.ite ((runCtx_only ..).mono) .refl)))))))))) (.ite (.upd (.upd (.ite ((modCtx_only ..).after ((modCtx_only ..).after (.upd ((runCtx_only ..).after ((runCtx_only ..).after ((setSetpoint_only ..).after ((setSetpoint_only ..).after (.ite ((runCtx_only ..).mono) .refl)))))))) (.upd ((runCtx_only ..).after ((runCtx_only ..).after ((setSetpoint_only ..).after ((setSetpoint_only ..).after (.ite ((runCtx_only ..).mono) .refl))))))))) (.upd (.ite ((modCtx_only ..).after ((modCtx_only ..).after (.upd ((runCtx_only ..).after ((runCtx_only ..).after ((setSetpoint_only ..).after ((setSetpoint_only ..).after (.ite ((runCtx_only ..).mono) .refl)))))))) (.upd ((runCtx_only ..).after ((runCtx_only ..).after ((setSetpoint_only ..).after ((setSetpoint_only ..).after (.ite ((runCtx_only ..).mono) .refl))))))))))) (.ite (.upd (.ite (.upd (.upd (.ite ((modCtx_only ..).after ((modCtx_only ..).after (.upd ((runCtx_only ..).after ((runCtx_only ..).after ((setSetpoint_only ..).after ((setSetpoint_only ..).after (.ite ((runCtx_only ..).mono) .refl)))))))) (.upd ((runCtx_only ..).after ((runCtx_only ..).after ((setSetpoint_only ..).after ((setSetpoint_only ..).after (.ite ((runCtx_only ..).mono) .refl))))))))) (.upd (.ite ((modCtx_only ..).after ((modCtx_only ..).after (.upd ((runCtx_only ..).after ((runCtx_only ..).after ((setSetpoint_only ..).after ((setSetpoint_only ..).after (.ite ((runCtx_only ..).mono) .refl)))))))) (.upd ((runCtx_only ..).after ((runCtx_only ..).after ((setSetpoint_only ..).after ((setSetpoint_only ..).after (.ite ((runCtx_only ..).mono) .refl)))))))))) (.ite (.upd (.upd (.ite ((modCtx_only ..).after ((modCtx_only ..).after (.upd ((runCtx_only ..).after ((runCtx_only ..).after ((setSetpoint_only ..).after ((setSetpoint_only ..).after (.ite ((runCtx_only ..).mono) .refl)))))))) (.upd ((runCtx_only ..).after ((runCtx_only ..).after ((setSetpoint_only ..).after ((setSetpoint_only ..).after (.ite ((runCtx_only ..).mono) .refl))))))))) (.upd (.ite ((modCtx_only ..).after ((modCtx_only ..).after (.upd ((runCtx_only ..).after ((runCtx_only ..).after ((setSetpoint_only ..).after ((setSetpoint_only ..).after (.ite ((runCtx_only ..).mono) .refl)))))))) (.upd ((runCtx_only ..).after ((runCtx_only ..).after ((setSetpoint_only ..).after ((setSetpoint_only ..).after (.ite ((runCtx_only ..).mono) .refl)))))))))))))))
theorem overvoltage_only (s) : Only { dev := true, flt := true, evt := true, mqs := true, alks := true, islands := true, heads := true, gov := true, spn := true, spc := true, mrc := true, slu := true, fan := true, tx := true, free := true } s (overvoltage s) := by
  unfold overvoltage
  exact (report_only ..).after ((spnEvent_only ..).after (.upd (.ite ((send_only ..).after (.upd ((startCoast_only ..).mono))) ((startCoast_only ..).mono))))
theorem overcurrent_only (s) : Only (.but { aon := true, idn := true, fuses := true, clk := true, pwr := true, img := true, nvm := true, bol := true, rows := true, fcc := true, pending := true, intake := true }) s (overcurrent s) := by
  unfold overcurrent
  exact Only.spindleFault (fun _ => .ite ((spindleLost_only ..).mono) ((openCause_only ..).after ((catchOwed_only ..).mono))) (.ite (.upd .refl) ((gatesOff_only ..).after (.upd .refl)))
theorem setObsV_only (vA vB s) : Only { spc := true } s (setObsV vA vB s) := by
  unfold setObsV
  exact .upd .refl
theorem noteDq_only (iA iB s) : Only { spn := true } s (noteDq iA iB s) := by
  unfold noteDq
  exact .upd .refl
theorem holdUpBus_only (vbus s) : Only { dev := true, flt := true, evt := true, mqs := true, alks := true, islands := true, heads := true, gov := true, spn := true, spc := true, mrc := true, slu := true, fan := true, tx := true, free := true } s (holdUpBus vbus s) := by
  unfold holdUpBus
  exact .ite .refl (.ite (.upd ((spnReport_only ..).after ((startShortBrake_only ..).mono))) (.ite ((generatorEnd_only ..).after (.upd .refl)) .refl))
theorem shortBrakePeriod_only (ia ib imax s) : Only { spn := true, spc := true, slu := true, tx := true } s (shortBrakePeriod ia ib imax s) := by
  unfold shortBrakePeriod
  exact .ite (.upd ((gatesOff_only ..).after ((setObsV_only ..).after ((observerStep_only ..).after ((noteDq_only ..).mono))))) ((sendDuty_only ..).after ((setObsV_only ..).after ((observerStep_only ..).after ((noteDq_only ..).mono))))
theorem gatherOffsets_only (m s) : Only { spc := true } s (gatherOffsets m s) := by
  unfold gatherOffsets
  split
  · exact .ite (.upd .refl) .refl
  · exact .refl
theorem gatherEmf_only (p s) : Only { spc := true } s (gatherEmf p s) := by
  unfold gatherEmf
  split
  · exact .refl
  · exact .ite .refl (.upd .refl)
theorem coastPeriod_only (m s) : Only { spc := true } s (coastPeriod m s) := by
  unfold coastPeriod
  split
  · exact (observerStep_only ..).after ((setObsV_only ..).mono)
  · exact .refl
theorem runPeriod_only (m vbus s) : Only (.but { aon := true, idn := true, fuses := true, clk := true, pwr := true, img := true, nvm := true, bol := true, rows := true, fcc := true, pending := true, intake := true }) s (runPeriod m vbus s) := by
  unfold runPeriod
  refine .ite ((gatherOffsets_only ..).after (.ite .refl ((coastPeriod_only ..).mono))) ?_
  refine .ite ((gatherEmf_only ..).after ((gatherEmf_only ..).after (.ite .refl ((coastPeriod_only ..).mono)))) ?_
  refine .ite (.ite ((gatesOn_only ..).after (.upd (.ite .refl ((coastPeriod_only ..).mono)))) (.upd (.ite .refl ((coastPeriod_only ..).mono)))) ?_
  refine .ite (.ite .refl ((coastPeriod_only ..).mono)) ?_
  split
  · exact .ite .refl ((coastPeriod_only ..).mono)
  · exact .ite ((overcurrent_only ..).after (.ite .refl ((coastPeriod_only ..).mono))) (.ite ((shortBrakePeriod_only ..).after (.ite .refl ((coastPeriod_only ..).mono))) ((focStep_only ..).after (.ite .refl ((coastPeriod_only ..).mono))))
theorem goodPeriod_only (ok m vbus s) : Only (.but { aon := true, idn := true, fuses := true, clk := true, pwr := true, img := true, nvm := true, bol := true, rows := true, fcc := true, pending := true, intake := true }) s (goodPeriod ok m vbus s) := by
  unfold goodPeriod
  exact .ite ((runPeriod_only ..).after ((holdUpBus_only ..).mono)) .refl
theorem execPwmPeriod_only (m s) : OnlyNext (.but { aon := true, idn := true, fuses := true, clk := true, pwr := true, img := true, nvm := true, bol := true, rows := true, fcc := true, pending := true, intake := true }) s (execPwmPeriod m s) := by
  unfold execPwmPeriod
  refine .live ?_
  refine Only.next ?_
  split
  · split
    · exact .upd (.upd (.upd .refl))
    · exact .upd (.upd .refl)
  · refine .ite ?_ ?_
    · refine .ite ?_ ?_
      · refine .upd ?_
        split
        · exact .upd (.upd (.upd .refl))
        · exact .upd (.upd .refl)
      · refine (overvoltage_only ..).after ?_
        refine .upd ?_
        split
        · exact .upd (.upd (.upd .refl))
        · exact .upd (.upd .refl)
    · refine (goodPeriod_only ..).after ?_
      refine .upd ?_
      split
      · exact .upd (.upd (.upd .refl))
      · exact .upd (.upd .refl)
theorem senseLost_only (s) : Only (.but { aon := true, idn := true, fuses := true, clk := true, pwr := true, img := true, nvm := true, bol := true, rows := true, fcc := true, pending := true, intake := true }) s (senseLost s) := by
  unfold senseLost
  exact .ite ((spindleLost_only ..).mono) ((failStop_only ..).after ((startCoast_only ..).mono))
theorem presetObserver_only (rpm s) : Only { spn := true, spc := true } s (presetObserver rpm s) := by
  unfold presetObserver
  exact .upd .refl
theorem startFromRest_only (s) : Only { gov := true, spn := true, spc := true, slu := true, tx := true } s (startFromRest s) := by
  unfold startFromRest
  exact .upd ((gatesOn_only ..).after ((enableCtx_only ..).after ((enableCtx_only ..).after ((inverterOff_only ..).mono))))
theorem startSlowWait_only (s) : Only { dev := true, flt := true, evt := true, mqs := true, alks := true, islands := true, heads := true, gov := true, spn := true, spc := true, mrc := true, slu := true, fan := true, tx := true, free := true } s (startSlowWait s) := by
  unfold startSlowWait
  exact .ite ((spnReport_only ..).after ((gatesOn_only ..).after (.upd ((inverterOff_only ..).mono)))) (.upd ((inverterOff_only ..).mono))
theorem closeLoops_only (rpm s) : Only { gov := true, spn := true, spc := true, slu := true, tx := true } s (closeLoops rpm s) := by
  unfold closeLoops
  exact .upd ((presetObserver_only ..).after ((gatesOn_only ..).after ((enableCtx_only ..).after ((enableCtx_only ..).after ((inverterOff_only ..).mono)))))
theorem closeSpeedLoop_only (s) : Only { gov := true, spn := true } s (closeSpeedLoop s) := by
  unfold closeSpeedLoop
  exact .ite .refl ((applySetpoint_only ..).after ((enableCtx_only ..).mono))
theorem execOffsetMeasureDone_only (s) : OnlyNext (.but { aon := true, idn := true, fuses := true, clk := true, pwr := true, img := true, nvm := true, bol := true, rows := true, fcc := true, pending := true, intake := true }) s (execOffsetMeasureDone s) := by
  unfold execOffsetMeasureDone
  exact .live (Only.next (.ite (.ite (Only.spindleFault (fun _ => (senseLost_only ..).mono) .refl) ((startCatch_only ..).after (.upd .refl))) .refl))
theorem keCheck_only (rpm amplitude s) : Only (.but { aon := true, idn := true, fuses := true, clk := true, pwr := true, img := true, nvm := true, rows := true, fcc := true, pending := true, intake := true }) s (keCheck rpm amplitude s).2 := by
  unfold keCheck
  split
  · exact .refl
  · exact .ite (.upd .refl) ((judgeMargin_only ..).after (.upd .refl))
theorem classifyCatch_only (rpm slow amplitude s) : Only (.but { aon := true, idn := true, fuses := true, clk := true, pwr := true, img := true, nvm := true, rows := true, fcc := true, pending := true, intake := true }) s (classifyCatch rpm slow amplitude s) := by
  unfold classifyCatch
  have hk : Only (.but { aon := true, idn := true, fuses := true, clk := true, pwr := true, img := true, nvm := true, rows := true, fcc := true, pending := true, intake := true }) s (if slow then (true, s) else keCheck rpm amplitude s).2 := by
    split
    · exact .refl
    · exact (keCheck_only ..).mono
  generalize (if slow then (true, s) else keCheck rpm amplitude s) = p at hk
  obtain ⟨ok, t⟩ := p
  dsimp only at hk ⊢
  have he (code : BitVec 8) (u : State) : Only (.but { aon := true, idn := true, fuses := true, clk := true, pwr := true, img := true, nvm := true, rows := true, fcc := true, pending := true, intake := true }) u (spnEvent code [] u) := (spnEvent_only ..).mono
  refine .ite (.ite ?_ ?_) (.ite ?_ (.ite ?_ (.ite ?_ (.ite ?_ (.ite ?_ ?_)))))
  · exact (startGenerator_only ..).after ((closeLoops_only ..).after ((he ..).after (.ite hk (hk.trans (he ..)))))
  · exact (generatorEnd_only ..).after (.ite hk (hk.trans (he ..)))
  · exact .spindleFault (fun _ => (spindleLost_only ..).mono) ((gatesOff_only ..).after (.ite hk (hk.trans (he ..))))
  · exact (spindleLost_only ..).after (.ite hk (hk.trans (he ..)))
  · exact (startCoast_only ..).after (.ite hk (hk.trans (he ..)))
  · exact (startFromRest_only ..).after (.ite hk (hk.trans (he ..)))
  · exact (closeLoops_only ..).after (.ite hk (hk.trans (he ..)))
  · exact (startSlowWait_only ..).after (.ite hk (hk.trans (he ..)))
theorem execCatchMeasureDone_only (s) : OnlyNext (.but { aon := true, idn := true, fuses := true, clk := true, pwr := true, img := true, nvm := true, rows := true, fcc := true, pending := true, intake := true }) s (execCatchMeasureDone s) := by
  unfold execCatchMeasureDone
  exact .live (Only.next (.ite ((classifyCatch_only ..).after (.upd .refl)) .refl))
theorem execSlowWaitDone_only (s) : OnlyNext { gov := true, spn := true, spc := true, slu := true, tx := true } s (execSlowWaitDone s) := by
  unfold execSlowWaitDone
  exact .live (Only.next (.ite .refl (.ite ((startCoast_only ..).mono) (.ite ((startOffsets_only ..).mono) ((startFromRest_only ..).mono)))))
theorem execSlowWaitTimeout_only (s) : OnlyNext (.but { aon := true, idn := true, fuses := true, clk := true, pwr := true, img := true, nvm := true, bol := true, rows := true, fcc := true, pending := true, intake := true }) s (execSlowWaitTimeout s) := by
  unfold execSlowWaitTimeout
  exact .live (Only.next (.ite (Only.spindleFault (fun _ => (spindleLost_only ..).mono) ((startCoast_only ..).mono)) .refl))
theorem execAlignDone_only (s) : OnlyNext { spn := true, spc := true } s (execAlignDone s) := by
  unfold execAlignDone
  exact .live (Only.next (.ite (.upd .refl) .refl))
theorem execObserverHandoff_only (s) : OnlyNext { gov := true, spn := true, spc := true } s (execObserverHandoff s) := by
  unfold execObserverHandoff
  exact .live (Only.next (.ite ((closeSpeedLoop_only ..).after (.upd .refl)) .refl))
theorem execHandoffTimeout_only (s) : OnlyNext (.but { aon := true, idn := true, fuses := true, clk := true, pwr := true, img := true, nvm := true, bol := true, rows := true, fcc := true, pending := true, intake := true }) s (execHandoffTimeout s) := by
  unfold execHandoffTimeout
  exact .live (Only.next (.ite (.ite (Only.spindleFault (fun _ => (spindleLost_only ..).mono) ((startCoast_only ..).after (.upd .refl))) ((startSlowWait_only ..).after (.upd (.upd .refl)))) .refl))
theorem execCatchAt1000_only (s) : OnlyNext { gov := true, spn := true, spc := true, slu := true, tx := true } s (execCatchAt1000 s) := by
  unfold execCatchAt1000
  exact .live (Only.next (.ite ((startCatch_only ..).after (.upd .refl)) .refl))
theorem execSpinupComplete_only (s) : OnlyNext { dev := true, start := true, pwr := true, evt := true, hold := true, img := true, islands := true, arms := true, gov := true, spn := true, fan := true } s (execSpinupComplete s) := by
  unfold execSpinupComplete
  exact .live (Only.next (.ite ((enterLoading_only ..).after ((spnEvent_only ..).mono)) .refl))
theorem execSuTimeout_only (s) : OnlyNext (.but { aon := true, idn := true, fuses := true, clk := true, pwr := true, img := true, nvm := true, bol := true, rows := true, fcc := true, pending := true, intake := true }) s (execSuTimeout s) := by
  unfold execSuTimeout
  exact .live (Only.next (.ite (Only.spindleFault (fun _ => (spindleLost_only ..).mono) .refl) .refl))
theorem execObserverLock_only (s) : OnlyNext { flt := true, gov := true, spn := true } s (execObserverLock s) := by
  unfold execObserverLock
  exact .live (Only.next (.ite (.ite ((closeSpeedLoop_only ..).after ((closeCause_only ..).after ((closeCause_only ..).after (.upd .refl)))) (.upd .refl)) .refl))
theorem execObserverLockLoss_only (s) : OnlyNext (.but { aon := true, idn := true, fuses := true, clk := true, pwr := true, img := true, nvm := true, bol := true, rows := true, fcc := true, pending := true, intake := true }) s (execObserverLockLoss s) := by
  unfold execObserverLockLoss
  exact .live (Only.next (.ite (.ite (Only.spindleFault (fun _ => (startOffsets_only ..).after ((openCause_only ..).after ((catchOwed_only ..).mono))) (.ite (.upd .refl) ((gatesOff_only ..).after (.upd .refl)))) (.upd .refl)) .refl))
theorem execOvercurrentRecatch_only (s) : OnlyNext { gov := true, spn := true, spc := true, slu := true, tx := true } s (execOvercurrentRecatch s) := by
  unfold execOvercurrentRecatch
  exact .live (Only.next (.ite ((startOffsets_only ..).mono) .refl))
theorem execSenseFault_only (offsets s) : OnlyNext (.but { aon := true, idn := true, fuses := true, clk := true, pwr := true, img := true, nvm := true, bol := true, rows := true, fcc := true, pending := true, intake := true }) s (execSenseFault offsets s) := by
  unfold execSenseFault
  exact .live (Only.next (.ite (Only.spindleFault (fun _ => (senseLost_only ..).mono) (.upd .refl)) .refl))
theorem execBusOvRecover_only (s) : OnlyNext { dev := true, start := true, gov := true, spn := true, spc := true, hop := true, slu := true, tx := true } s (execBusOvRecover s) := by
  unfold execBusOvRecover
  exact .live (Only.next (.ite (.ite ((trySpinUp_only ..).after (.upd .refl)) (.ite (.upd .refl) (.ite ((spindleStop_only ..).after (.upd .refl)) (.ite ((startOffsets_only ..).after (.upd .refl)) (.ite (.ite ((startCatch_only ..).after (.upd .refl)) ((startOffsets_only ..).after (.upd .refl))) (.upd .refl)))))) .refl))
theorem execBusUndervoltage_only (s) : OnlyNext (.but { aon := true, idn := true, fuses := true, clk := true, pwr := true, img := true, nvm := true, bol := true, rows := true, fcc := true, pending := true, intake := true }) s (execBusUndervoltage s) := by
  unfold execBusUndervoltage
  exact .live (Only.next (.ite .refl (Only.spindleFault (fun _ => .refl) .refl)))
theorem execChopperOn_only (vbus s) : OnlyNext { spn := true, tx := true } s (execChopperOn vbus s) := by
  unfold execChopperOn
  refine .live ?_
  refine Only.next ?_
  split
  · exact .ite ((send_only ..).after (.upd .refl)) .refl
  · exact .refl
theorem execChopperOff_only (vbus s) : OnlyNext { spn := true, tx := true } s (execChopperOff vbus s) := by
  unfold execChopperOff
  refine .live ?_
  refine Only.next ?_
  split
  · exact .ite ((send_only ..).after (.upd .refl)) .refl
  · exact .refl
theorem execChopperFault_only (which ichop s) : OnlyNext (.but { aon := true, idn := true, fuses := true, clk := true, pwr := true, img := true, nvm := true, bol := true, rows := true, fcc := true, pending := true, intake := true }) s (execChopperFault which ichop s) := by
  unfold execChopperFault
  exact .live (Only.next (.ite (Only.spindleFault (fun _ => .refl) (.ite ((startShortBrake_only ..).after (.upd .refl)) (.upd .refl))) .refl))
theorem execGeneratorExhausted_only (s) : OnlyNext { dev := true, flt := true, evt := true, mqs := true, alks := true, islands := true, heads := true, gov := true, spn := true, spc := true, mrc := true, slu := true, fan := true, tx := true, free := true } s (execGeneratorExhausted s) := by
  unfold execGeneratorExhausted
  exact .live (Only.next (.ite ((generatorEnd_only ..).mono) .refl))
theorem execVoltageLimitFault_only (s) : OnlyNext (.but { aon := true, idn := true, fuses := true, clk := true, pwr := true, img := true, nvm := true, bol := true, rows := true, fcc := true, pending := true, intake := true }) s (execVoltageLimitFault s) := by
  unfold execVoltageLimitFault
  exact .live (Only.next (.ite (Only.spindleFault (fun _ => .refl) .refl) .refl))
theorem speedOf_only (s) : Only { evt := true, gov := true, spn := true, spc := true } s (speedOf s).2 := by
  unfold speedOf
  extract_lets
  split
  · exact .upd .refl
  · split
    · exact (spnEvent_only ..).after (.upd (.upd .refl))
    · split
      · exact .upd .refl
      · split
        · exact .upd (.upd .refl)
        · exact .upd .refl
theorem execSpeedSample_only (o s) : OnlyNext (.but { aon := true, idn := true, fuses := true, clk := true, pwr := true, img := true, nvm := true, bol := true, rows := true, fcc := true, pending := true, intake := true }) s (execSpeedSample o s) := by
  unfold execSpeedSample
  exact .live (Only.next (.ite .refl ((runCtx_only ..).after (.ite (.each (fun _ _ => (requestSwitch_only ..).mono) (.upd ((speedOf_only ..).after (.upd .refl)))) (.upd ((speedOf_only ..).after (.upd .refl)))))))
theorem execSpeedSourceTimeout_only (s) : OnlyNext (.but { aon := true, idn := true, fuses := true, clk := true, pwr := true, img := true, nvm := true, bol := true, rows := true, fcc := true, pending := true, intake := true }) s (execSpeedSourceTimeout s) := by
  unfold execSpeedSourceTimeout
  exact .live (Only.next (.ite ((failStop_only ..).after ((condition_only ..).mono)) .refl))
theorem gateWriting_only (s) : Only { dev := true, flt := true, evt := true, mqs := true, alks := true, islands := true, heads := true, gov := true, mrc := true, rows := true, slu := true, fan := true, tx := true, free := true } s (gateWriting s) := by
  unfold gateWriting
  exact .each (fun _ _ => (writeGate_only ..).mono) .refl
theorem judgeMean_only (speed s) : Only (.but { aon := true, idn := true, fuses := true, clk := true, pwr := true, img := true, nvm := true, bol := true, fcc := true, pending := true, intake := true }) s (judgeMean speed s) := by
  unfold judgeMean
  exact .ite (Only.spindleFault (fun _ => .refl) ((gateWriting_only ..).after (.upd (.upd .refl)))) (.upd .refl)
theorem execDataWindowMean_only (s) : OnlyNext (.but { aon := true, idn := true, fuses := true, clk := true, pwr := true, img := true, nvm := true, bol := true, fcc := true, pending := true, intake := true }) s (execDataWindowMean s) := by
  unfold execDataWindowMean
  exact .live (Only.next (.ite .refl (.ite ((judgeMean_only ..).after (.upd .refl)) (.upd .refl))))
theorem execDataWindowEntry_only (s) : OnlyNext { flt := true, spn := true, spc := true } s (execDataWindowEntry s) := by
  unfold execDataWindowEntry
  exact .live (Only.next (.ite ((closeCause_only ..).after (.upd .refl)) .refl))
theorem execDataWindowTimeout_only (s) : OnlyNext { dev := true, flt := true, evt := true, alks := true, islands := true, heads := true, gov := true, mrc := true, slu := true, fan := true, tx := true } s (execDataWindowTimeout s) := by
  unfold execDataWindowTimeout
  exact .live (Only.next (.ite ((enterHold_only ..).after ((openCause_only ..).mono)) .refl))
theorem execWindowEntryTimeout_only (s) : OnlyNext (.but { aon := true, idn := true, fuses := true, clk := true, pwr := true, img := true, nvm := true, bol := true, rows := true, fcc := true, pending := true, intake := true }) s (execWindowEntryTimeout s) := by
  unfold execWindowEntryTimeout
  exact .live (Only.next (.ite (Only.spindleFault (fun _ => (spindleLost_only ..).mono) .refl) .refl))
theorem execBrakeStart_only (s) : OnlyNext { gov := true, spn := true, spc := true, slu := true, tx := true } s (execBrakeStart s) := by
  unfold execBrakeStart
  exact .live (Only.next (.ite ((spindleStop_only ..).mono) .refl))
theorem execShortBrakeSwitch_only (s) : OnlyNext { gov := true, spn := true, spc := true, tx := true } s (execShortBrakeSwitch s) := by
  unfold execShortBrakeSwitch
  exact .live (Only.next (.ite ((startShortBrake_only ..).mono) .refl))
theorem parkDone_only (s) : Only { dev := true, start := true, evt := true, diag := true, gov := true, spn := true, spc := true, mrc := true, mpd := true, links := true, injs := true, hop := true, slu := true, tx := true } s (parkDone s) := by
  unfold parkDone
  exact (enterParked_only ..).after ((completeSpin_only ..).after ((post_only ..).after (.upd .refl)))
theorem spindleOff_only (s) : Only { gov := true, spn := true, spc := true, slu := true, tx := true } s (spindleOff s) := by
  unfold spindleOff
  exact .upd ((inverterOff_only ..).mono)
theorem spindleAtRest_only (s) : Only (.but { aon := true, idn := true, fuses := true, clk := true, pwr := true, mqs := true, hold := true, img := true, nvm := true, layout := true, bol := true, rows := true, tre := true, fls := true, fcc := true, free := true, pending := true, intake := true }) s (spindleAtRest s) := by
  unfold spindleAtRest
  exact .ite (.ite ((spindleOff_only ..).mono) ((parkDone_only ..).after ((spindleOff_only ..).mono))) ((advanceStop_only ..).after ((spindleOff_only ..).mono))
theorem execSpindleStopped_only (s) : OnlyNext (.but { aon := true, idn := true, fuses := true, clk := true, pwr := true, mqs := true, hold := true, img := true, nvm := true, layout := true, bol := true, rows := true, tre := true, fls := true, fcc := true, free := true, pending := true, intake := true }) s (execSpindleStopped s) := by
  unfold execSpindleStopped
  exact .live (Only.next (.ite ((spindleAtRest_only ..).mono) .refl))
theorem execPowerOnReset_only (railsOk s) : OnlyNext (.but { fuses := true, free := true, pending := true }) s (execPowerOnReset railsOk s) := by
  unfold execPowerOnReset
  exact Only.next (.upd ((hardReset_only ..).after ((outputsLow_only ..).mono)))
theorem execResetNAssert_only (s) : OnlyNext (.but { fuses := true, free := true, pending := true }) s (execResetNAssert s) := by
  unfold execResetNAssert
  exact Only.next (.ite .refl (.upd ((hardReset_only ..).after ((outputsLow_only ..).mono))))
theorem execRefclkLoss_only (s) : OnlyNext (.but { fuses := true, free := true, pending := true }) s (execRefclkLoss s) := by
  unfold execRefclkLoss
  exact .live (Only.next ((clockFault_only ..).mono))
theorem execCorePllUnlock_only (s) : OnlyNext (.but { fuses := true, free := true, pending := true }) s (execCorePllUnlock s) := by
  unfold execCorePllUnlock
  exact .live (Only.next ((clockFault_only ..).mono))
theorem execLanePllUnlock_only (pll s) : OnlyNext { dev := true, clk := true, flt := true, evt := true, mqs := true, alks := true, islands := true, heads := true, gov := true, mrc := true, rows := true, links := true, slu := true, fan := true, tx := true, free := true } s (execLanePllUnlock pll s) := by
  unfold execLanePllUnlock
  exact .live (Only.next (.ite ((alkLoss_only ..).after (.upd .refl)) ((linkDown_only ..).after (.upd .refl))))
theorem execSupplyFault_only (rail powerFailFirst s) : OnlyNext (.but { fuses := true, free := true, pending := true }) s (execSupplyFault rail powerFailFirst s) := by
  unfold execSupplyFault
  exact .live (Only.next (.ite .refl ((clockFault_only ..).mono)))
theorem execDroopTrip_only (domain s) : OnlyNext { pwr := true, evt := true, gov := true } s (execDroopTrip domain s) := by
  unfold execDroopTrip
  exact .live (Only.next (.ite (.ite ((post_only ..).after (.upd (.upd .refl))) (.upd .refl)) .refl))
theorem execSlackMonitorRead_only (ps s) : OnlyNext { pwr := true, evt := true, gov := true, fan := true } s (execSlackMonitorRead ps s) := by
  unfold execSlackMonitorRead
  exact .live (Only.next (.ite ((post_only ..).after (.upd (.upd .refl))) (.upd .refl)))
theorem avsAnswer_only (acked readback s) : Only { dev := true, pwr := true, flt := true, evt := true, mqs := true, alks := true, islands := true, heads := true, gov := true, mrc := true, slu := true, fan := true, tx := true, free := true } s (avsAnswer acked readback s) := by
  unfold avsAnswer
  exact .ite ((condition_only ..).after ((openCause_only ..).after (.upd (.upd .refl)))) (.upd .refl)
theorem execAvsStep_only (acked readback s) : OnlyNext { dev := true, pwr := true, flt := true, evt := true, mqs := true, alks := true, islands := true, heads := true, gov := true, mrc := true, slu := true, fan := true, tx := true, free := true } s (execAvsStep acked readback s) := by
  unfold execAvsStep
  refine .live ?_
  refine Only.next ?_
  refine .ite .refl ?_
  split
  · exact (avsAnswer_only ..).after ((send_only ..).after (.upd .refl))
  · exact (avsAnswer_only ..).mono
theorem execAvsRepeatWrite_only (acked readback s) : OnlyNext { pwr := true, flt := true, evt := true, gov := true, tx := true } s (execAvsRepeatWrite acked readback s) := by
  unfold execAvsRepeatWrite
  exact .live (Only.next (.ite (.ite ((post_only ..).after ((closeCause_only ..).after (.upd ((send_only ..).after (.upd .refl))))) ((send_only ..).after (.upd .refl))) .refl))
theorem execVin12Window_only (c0 c1 c2 c3 s) : OnlyNext (.but { aon := true, idn := true, fuses := true, clk := true, img := true, nvm := true, bol := true, rows := true, fcc := true, pending := true, intake := true }) s (execVin12Window c0 c1 c2 c3 s) := by
  unfold execVin12Window
  exact .live (.ite (Only.next .refl) (Only.next (.ite ((powerFailed_only ..).after (.upd .refl)) (.ite ((post_only ..).after (.upd (.upd .refl))) (.upd .refl)))))
theorem execVin12SenseFault_only (timeout reading s) : OnlyNext { pwr := true, evt := true, gov := true } s (execVin12SenseFault timeout reading s) := by
  unfold execVin12SenseFault
  exact .live (.ite (Only.next .refl) (Only.next (.ite ((post_only ..).after (.upd (.upd .refl))) (.upd .refl))))
theorem execPwrFailNLow_only (s) : OnlyNext (.but { aon := true, idn := true, fuses := true, clk := true, img := true, nvm := true, bol := true, rows := true, fcc := true, pending := true, intake := true }) s (execPwrFailNLow s) := by
  unfold execPwrFailNLow
  exact .live (Only.next ((powerFailed_only ..).after (.upd .refl)))
theorem execPwrFailNHigh_only (s) : OnlyNext { pwr := true } s (execPwrFailNHigh s) := by
  unfold execPwrFailNHigh
  exact .live (Only.next (.upd .refl))
theorem modArea_only (k f s) : Only { hold := true } s (modArea k f s) := by
  unfold modArea
  exact .upd .refl
theorem dumpOver_only (s) : Only { dev := true, start := true, flt := true, evt := true, ptn := true, hold := true, alks := true, islands := true, heads := true, arms := true, gov := true, spn := true, spc := true, mrc := true, hop := true, slu := true, fan := true, tx := true } s (dumpOver s) := by
  unfold dumpOver
  exact .ite ((enterStopped_only ..).mono) ((advanceStop_only ..).after (.upd .refl))
theorem dumpEndedEarly_only (s) : Only { dev := true, start := true, flt := true, evt := true, ptn := true, hold := true, alks := true, islands := true, heads := true, arms := true, gov := true, spn := true, spc := true, mrc := true, hop := true, slu := true, fan := true, tx := true } s (dumpEndedEarly s) := by
  unfold dumpEndedEarly
  exact (dumpOver_only ..).after ((post_only ..).after (.upd .refl))
theorem execDumpStart_only (s) : OnlyNext { dev := true, start := true, flt := true, evt := true, ptn := true, hold := true, alks := true, islands := true, heads := true, arms := true, gov := true, spn := true, spc := true, mrc := true, hop := true, slu := true, fan := true, tx := true } s (execDumpStart s) := by
  unfold execDumpStart
  exact .live (Only.next (.ite .refl (.ite (.upd .refl) (.ite ((dumpEndedEarly_only ..).after (.upd .refl)) (.upd ((modArea_only ..).mono))))))
theorem execDumpChunkCommit_only (readsBack s) : OnlyNext { dev := true, start := true, flt := true, evt := true, ptn := true, hold := true, alks := true, islands := true, heads := true, arms := true, gov := true, spn := true, spc := true, mrc := true, hop := true, slu := true, fan := true, tx := true } s (execDumpChunkCommit readsBack s) := by
  unfold execDumpChunkCommit
  refine .live ?_
  refine Only.next ?_
  refine .ite .refl ?_
  split
  · exact .refl
  · exact .ite ((dumpOver_only ..).after ((post_only ..).after (.upd (.ite ((modArea_only ..).after (.upd .refl)) (.upd .refl))))) (.ite ((modArea_only ..).after (.upd .refl)) (.upd .refl))
theorem execDumpBusLow_only (s) : OnlyNext { dev := true, start := true, flt := true, evt := true, ptn := true, hold := true, alks := true, islands := true, heads := true, arms := true, gov := true, spn := true, spc := true, mrc := true, hop := true, slu := true, fan := true, tx := true } s (execDumpBusLow s) := by
  unfold execDumpBusLow
  exact .live (Only.next (.ite ((dumpEndedEarly_only ..).mono) .refl))
theorem sendGrid_only (n s) : Only { alks := true, tx := true } s (sendGrid n s) := by
  unfold sendGrid
  exact (alkSend_only ..).after ((modAlk_only ..).mono)
theorem startStream_only (n s) : Only { alks := true, heads := true, tx := true } s (startStream n s) := by
  unfold startStream
  extract_lets
  split
  · exact .refl
  · exact .ite ((alkSend_only ..).after ((sendGrid_only ..).after ((modHead_only ..).after ((modAlk_only ..).mono)))) .refl
theorem followStream_only (n s) : Only { alks := true, heads := true, mpd := true, links := true, injs := true, tx := true } s (followStream n s) := by
  unfold followStream
  refine .ite ?_ ((sendGrid_only ..).mono)
  extract_lets
  split
  · exact (passesEnded_only ..).after ((modHead_only ..).after ((modAlk_only ..).mono))
  · exact (modHead_only ..).after ((modAlk_only ..).mono)
theorem servoCondition_only (code hold fs s) : Only { dev := true, flt := true, evt := true, mqs := true, alks := true, islands := true, heads := true, gov := true, mrc := true, slu := true, fan := true, tx := true, free := true } s (servoCondition code hold fs s) := by
  unfold servoCondition
  exact (condition_only ..).mono
theorem uaSet_only (n mu s) : Only { alks := true, heads := true, tx := true } s (uaSet n mu s) := by
  unfold uaSet
  exact (sendUa_only ..).after ((modHead_only ..).mono)
theorem uaPreset_only (n mu s) : Only { alks := true, heads := true, tx := true } s (uaPreset n mu s) := by
  unfold uaPreset
  exact (sendUa_only ..).after ((modHead_only ..).mono)
theorem moveArm_only (a ts s) : Only { alks := true, heads := true, arms := true, tx := true } s (moveArm a ts s) := by
  unfold moveArm
  exact .ite ((modArm_only ..).after (.each (fun _ _ => (modHead_only ..).mono) .refl)) ((modArm_only ..).after (.each (fun _ _ => (uaPreset_only ..).after ((modHead_only ..).mono)) .refl))
theorem reseek_only (a s) : Only { alks := true, heads := true, arms := true, tx := true } s (reseek a s) := by
  unfold reseek
  exact (moveArm_only ..).after ((modArm_only ..).mono)
theorem sendWindow_only (n s) : Only { alks := true, tx := true } s (sendWindow n s) := by
  unfold sendWindow
  exact (alkSend_only ..).mono
theorem windowHead_only (n s) : Only { alks := true, heads := true, tx := true } s (windowHead n s) := by
  unfold windowHead
  exact (sendWindow_only ..).after ((sendMode_only ..).mono)
theorem closePosition_only (a s) : Only { alks := true, heads := true, arms := true, gov := true, tx := true } s (closePosition a s) := by
  unfold closePosition
  exact (moveArm_only ..).after ((modArm_only ..).after ((takeOver_only ..).after (.each (fun _ _ => (windowHead_only ..).mono) .refl)))
theorem endSeek_only (a s) : Only { heads := true, arms := true, gov := true } s (endSeek a s) := by
  unfold endSeek
  exact .each (fun _ _ => .ite ((modHead_only ..).mono) ((setSetpoint_only ..).after ((enableCtx_only ..).after ((enableCtx_only ..).after ((modHead_only ..).mono))))) ((modArm_only ..).mono)
theorem reloadSpeed_only (s) : Only (.but { aon := true, idn := true, fuses := true, clk := true, pwr := true, img := true, nvm := true, bol := true, rows := true, fcc := true, pending := true, intake := true }) s (reloadSpeed s) := by
  unfold reloadSpeed
  exact .ite ((spindleLost_only ..).mono) .refl
theorem enterTrack_only (a s) : Only (.but { aon := true, idn := true, fuses := true, clk := true, pwr := true, img := true, nvm := true, bol := true, rows := true, fcc := true, pending := true, intake := true }) s (enterTrack a s) := by
  unfold enterTrack
  exact (reloadSpeed_only ..).after ((closeCause_only ..).after ((closeCause_only ..).after ((modArm_only ..).after (.each (fun _ _ => (modHead_only ..).mono) .refl))))
theorem rebasePhases_only (a s) : Only { heads := true } s (rebasePhases a s) := by
  unfold rebasePhases
  split
  · exact .refl
  · exact .each (fun _ _ => (modHead_only ..).mono) .refl
theorem coastOver_only (a s) : Only { arms := true } s (coastOver a s) := by
  unfold coastOver
  exact (modArm_only ..).mono
theorem acquireWedge_only (n d s) : Only { alks := true, heads := true, arms := true, gov := true, tx := true } s (acquireWedge n d s) := by
  unfold acquireWedge
  exact .ite ((modHead_only ..).after ((modHead_only ..).mono)) (.ite (.ite ((closePosition_only ..).after ((rebasePhases_only ..).after ((modHead_only ..).after ((modHead_only ..).after ((modHead_only ..).mono))))) ((rebasePhases_only ..).after ((modHead_only ..).after ((modHead_only ..).after ((modHead_only ..).mono))))) ((coastOver_only ..).after ((windowHead_only ..).after ((rebasePhases_only ..).after ((modHead_only ..).after ((modHead_only ..).after ((modHead_only ..).mono)))))))
theorem coastArm_only (a s) : Only { dev := true, flt := true, evt := true, mqs := true, alks := true, islands := true, heads := true, arms := true, gov := true, mrc := true, rows := true, slu := true, fan := true, tx := true, free := true } s (coastArm a s) := by
  unfold coastArm
  exact (servoCondition_only ..).after ((modArm_only ..).after (.each (fun _ _ => (modHead_only ..).after ((writeGate_only ..).mono)) .refl))
theorem lostWedge_only (n s) : Only { dev := true, flt := true, evt := true, mqs := true, alks := true, islands := true, heads := true, arms := true, gov := true, mrc := true, rows := true, slu := true, fan := true, tx := true, free := true } s (lostWedge n s) := by
  unfold lostWedge
  exact .ite ((coastArm_only ..).after ((modArm_only ..).after ((servoCondition_only ..).after ((modHead_only ..).after ((modHead_only ..).mono))))) ((modArm_only ..).after ((servoCondition_only ..).after ((modHead_only ..).after ((modHead_only ..).mono))))
theorem validWedge_only (n y d s) : Only { heads := true, arms := true } s (validWedge n y d s) := by
  unfold validWedge
  exact .ite ((coastOver_only ..).after ((modHead_only ..).after ((modArm_only ..).after ((modHead_only ..).mono)))) (.ite (.ite ((coastOver_only ..).after ((modHead_only ..).after ((modArm_only ..).after ((modHead_only ..).mono)))) ((modHead_only ..).after ((modArm_only ..).after ((modHead_only ..).mono)))) ((modArm_only ..).after ((modHead_only ..).mono)))
theorem seekKt_only (a k v s) : Only { fan := true } s (seekKt a k v s) := by
  unfold seekKt
  exact .ite (.upd .refl) .refl
theorem paceWedge_only (a s) : Only (.but { aon := true, idn := true, fuses := true, clk := true, pwr := true, img := true, nvm := true, bol := true, rows := true, fcc := true, pending := true, intake := true }) s (paceWedge a s) := by
  unfold paceWedge
  extract_lets
  split
  · exact (modArm_only ..).mono
  · exact .ite (.ite (.ite ((modArm_only ..).after (.each (fun _ _ => (modHead_only ..).mono) ((modArm_only ..).mono))) ((modArm_only ..).after (.each (fun _ _ => (modHead_only ..).mono) ((modArm_only ..).mono)))) ((modArm_only ..).after (.each (fun _ _ => (modHead_only ..).mono) ((modArm_only ..).mono)))) (.ite (.ite ((modArm_only ..).after ((seekKt_only ..).after ((modArm_only ..).mono))) (.ite ((endSeek_only ..).after ((modArm_only ..).after ((seekKt_only ..).after ((modArm_only ..).mono)))) ((modArm_only ..).after ((seekKt_only ..).after ((modArm_only ..).mono))))) (.ite (.ite ((enterTrack_only ..).after ((modArm_only ..).mono)) ((modArm_only ..).after ((modArm_only ..).mono))) ((modArm_only ..).mono)))
theorem armWriter_only (n s) : Only { alks := true, heads := true, mpd := true, links := true, injs := true, tx := true } s (armWriter n s) := by
  unfold armWriter
  exact .ite ((followStream_only ..).mono) (.ite ((startStream_only ..).mono) .refl)
theorem trackWedge_only (n d s) : Only (.but { aon := true, idn := true, fuses := true, clk := true, pwr := true, img := true, nvm := true, bol := true, fcc := true, pending := true, intake := true }) s (trackWedge n d s) := by
  unfold trackWedge
  refine .ite ?_ ?_
  · refine (sendWindow_only ..).after ?_
    refine .ite ?_ ?_
    · refine .upd ?_
      refine .ite ?_ ?_
      · refine (paceWedge_only ..).after ?_
        refine .ite ?_ ?_
        · refine (requestSwitch_only ..).after ?_
          refine .ite ?_ ?_
          · refine (requestSwitch_only ..).after ?_
            refine (requestSwitch_only ..).after ?_
            refine .ite ?_ ?_
            · refine (writeGate_only ..).after ?_
              refine (modHead_only ..).after ?_
              split
              · exact (validWedge_only ..).after ((modHead_only ..).after ((modHead_only ..).after ((modHead_only ..).mono)))
              · exact (lostWedge_only ..).after ((modHead_only ..).after ((modHead_only ..).after ((modHead_only ..).mono)))
            · refine (armWriter_only ..).after ?_
              refine (modHead_only ..).after ?_
              split
              · exact (validWedge_only ..).after ((modHead_only ..).after ((modHead_only ..).after ((modHead_only ..).mono)))
              · exact (lostWedge_only ..).after ((modHead_only ..).after ((modHead_only ..).after ((modHead_only ..).mono)))
          · refine .ite ?_ ?_
            · refine (writeGate_only ..).after ?_
              refine (modHead_only ..).after ?_
              split
              · exact (validWedge_only ..).after ((modHead_only ..).after ((modHead_only ..).after ((modHead_only ..).mono)))
              · exact (lostWedge_only ..).after ((modHead_only ..).after ((modHead_only ..).after ((modHead_only ..).mono)))
            · refine (armWriter_only ..).after ?_
              refine (modHead_only ..).after ?_
              split
              · exact (validWedge_only ..).after ((modHead_only ..).after ((modHead_only ..).after ((modHead_only ..).mono)))
              · exact (lostWedge_only ..).after ((modHead_only ..).after ((modHead_only ..).after ((modHead_only ..).mono)))
        · refine .ite ?_ ?_
          · refine (requestSwitch_only ..).after ?_
            refine (requestSwitch_only ..).after ?_
            refine .ite ?_ ?_
            · refine (writeGate_only ..).after ?_
              refine (modHead_only ..).after ?_
              split
              · exact (validWedge_only ..).after ((modHead_only ..).after ((modHead_only ..).after ((modHead_only ..).mono)))
              · exact (lostWedge_only ..).after ((modHead_only ..).after ((modHead_only ..).after ((modHead_only ..).mono)))
            · refine (armWriter_only ..).after ?_
              refine (modHead_only ..).after ?_
              split
              · exact (validWedge_only ..).after ((modHead_only ..).after ((modHead_only ..).after ((modHead_only ..).mono)))
              · exact (lostWedge_only ..).after ((modHead_only ..).after ((modHead_only ..).after ((modHead_only ..).mono)))
          · refine .ite ?_ ?_
            · refine (writeGate_only ..).after ?_
              refine (modHead_only ..).after ?_
              split
              · exact (validWedge_only ..).after ((modHead_only ..).after ((modHead_only ..).after ((modHead_only ..).mono)))
              · exact (lostWedge_only ..).after ((modHead_only ..).after ((modHead_only ..).after ((modHead_only ..).mono)))
            · refine (armWriter_only ..).after ?_
              refine (modHead_only ..).after ?_
              split
              · exact (validWedge_only ..).after ((modHead_only ..).after ((modHead_only ..).after ((modHead_only ..).mono)))
              · exact (lostWedge_only ..).after ((modHead_only ..).after ((modHead_only ..).after ((modHead_only ..).mono)))
      · refine .ite ?_ ?_
        · refine (requestSwitch_only ..).after ?_
          refine (requestSwitch_only ..).after ?_
          refine .ite ?_ ?_
          · refine (writeGate_only ..).after ?_
            refine (modHead_only ..).after ?_
            split
            · exact (validWedge_only ..).after ((modHead_only ..).after ((modHead_only ..).after ((modHead_only ..).mono)))
            · exact (lostWedge_only ..).after ((modHead_only ..).after ((modHead_only ..).after ((modHead_only ..).mono)))
          · refine (armWriter_only ..).after ?_
            refine (modHead_only ..).after ?_
            split
            · exact (validWedge_only ..).after ((modHead_only ..).after ((modHead_only ..).after ((modHead_only ..).mono)))
            · exact (lostWedge_only ..).after ((modHead_only ..).after ((modHead_only ..).after ((modHead_only ..).mono)))
        · refine .ite ?_ ?_
          · refine (writeGate_only ..).after ?_
            refine (modHead_only ..).after ?_
            split
            · exact (validWedge_only ..).after ((modHead_only ..).after ((modHead_only ..).after ((modHead_only ..).mono)))
            · exact (lostWedge_only ..).after ((modHead_only ..).after ((modHead_only ..).after ((modHead_only ..).mono)))
          · refine (armWriter_only ..).after ?_
            refine (modHead_only ..).after ?_
            split
            · exact (validWedge_only ..).after ((modHead_only ..).after ((modHead_only ..).after ((modHead_only ..).mono)))
            · exact (lostWedge_only ..).after ((modHead_only ..).after ((modHead_only ..).after ((modHead_only ..).mono)))
    · refine .ite ?_ ?_
      · refine (paceWedge_only ..).after ?_
        refine .ite ?_ ?_
        · refine (requestSwitch_only ..).after ?_
          refine .ite ?_ ?_
          · refine (requestSwitch_only ..).after ?_
            refine (requestSwitch_only ..).after ?_
            refine .ite ?_ ?_
            · refine (writeGate_only ..).after ?_
              refine (modHead_only ..).after ?_
              split
              · exact (validWedge_only ..).after ((modHead_only ..).after ((modHead_only ..).after ((modHead_only ..).mono)))
              · exact (lostWedge_only ..).after ((modHead_only ..).after ((modHead_only ..).after ((modHead_only ..).mono)))
            · refine (armWriter_only ..).after ?_
              refine (modHead_only ..).after ?_
              split
              · exact (validWedge_only ..).after ((modHead_only ..).after ((modHead_only ..).after ((modHead_only ..).mono)))
              · exact (lostWedge_only ..).after ((modHead_only ..).after ((modHead_only ..).after ((modHead_only ..).mono)))
          · refine .ite ?_ ?_
            · refine (writeGate_only ..).after ?_
              refine (modHead_only ..).after ?_
              split
              · exact (validWedge_only ..).after ((modHead_only ..).after ((modHead_only ..).after ((modHead_only ..).mono)))
              · exact (lostWedge_only ..).after ((modHead_only ..).after ((modHead_only ..).after ((modHead_only ..).mono)))
            · refine (armWriter_only ..).after ?_
              refine (modHead_only ..).after ?_
              split
              · exact (validWedge_only ..).after ((modHead_only ..).after ((modHead_only ..).after ((modHead_only ..).mono)))
              · exact (lostWedge_only ..).after ((modHead_only ..).after ((modHead_only ..).after ((modHead_only ..).mono)))
        · refine .ite ?_ ?_
          · refine (requestSwitch_only ..).after ?_
            refine (requestSwitch_only ..).after ?_
            refine .ite ?_ ?_
            · refine (writeGate_only ..).after ?_
              refine (modHead_only ..).after ?_
              split
              · exact (validWedge_only ..).after ((modHead_only ..).after ((modHead_only ..).after ((modHead_only ..).mono)))
              · exact (lostWedge_only ..).after ((modHead_only ..).after ((modHead_only ..).after ((modHead_only ..).mono)))
            · refine (armWriter_only ..).after ?_
              refine (modHead_only ..).after ?_
              split
              · exact (validWedge_only ..).after ((modHead_only ..).after ((modHead_only ..).after ((modHead_only ..).mono)))
              · exact (lostWedge_only ..).after ((modHead_only ..).after ((modHead_only ..).after ((modHead_only ..).mono)))
          · refine .ite ?_ ?_
            · refine (writeGate_only ..).after ?_
              refine (modHead_only ..).after ?_
              split
              · exact (validWedge_only ..).after ((modHead_only ..).after ((modHead_only ..).after ((modHead_only ..).mono)))
              · exact (lostWedge_only ..).after ((modHead_only ..).after ((modHead_only ..).after ((modHead_only ..).mono)))
            · refine (armWriter_only ..).after ?_
              refine (modHead_only ..).after ?_
              split
              · exact (validWedge_only ..).after ((modHead_only ..).after ((modHead_only ..).after ((modHead_only ..).mono)))
              · exact (lostWedge_only ..).after ((modHead_only ..).after ((modHead_only ..).after ((modHead_only ..).mono)))
      · refine .ite ?_ ?_
        · refine (requestSwitch_only ..).after ?_
          refine (requestSwitch_only ..).after ?_
          refine .ite ?_ ?_
          · refine (writeGate_only ..).after ?_
            refine (modHead_only ..).after ?_
            split
            · exact (validWedge_only ..).after ((modHead_only ..).after ((modHead_only ..).after ((modHead_only ..).mono)))
            · exact (lostWedge_only ..).after ((modHead_only ..).after ((modHead_only ..).after ((modHead_only ..).mono)))
          · refine (armWriter_only ..).after ?_
            refine (modHead_only ..).after ?_
            split
            · exact (validWedge_only ..).after ((modHead_only ..).after ((modHead_only ..).after ((modHead_only ..).mono)))
            · exact (lostWedge_only ..).after ((modHead_only ..).after ((modHead_only ..).after ((modHead_only ..).mono)))
        · refine .ite ?_ ?_
          · refine (writeGate_only ..).after ?_
            refine (modHead_only ..).after ?_
            split
            · exact (validWedge_only ..).after ((modHead_only ..).after ((modHead_only ..).after ((modHead_only ..).mono)))
            · exact (lostWedge_only ..).after ((modHead_only ..).after ((modHead_only ..).after ((modHead_only ..).mono)))
          · refine (armWriter_only ..).after ?_
            refine (modHead_only ..).after ?_
            split
            · exact (validWedge_only ..).after ((modHead_only ..).after ((modHead_only ..).after ((modHead_only ..).mono)))
            · exact (lostWedge_only ..).after ((modHead_only ..).after ((modHead_only ..).after ((modHead_only ..).mono)))
  · refine .ite ?_ ?_
    · refine .upd ?_
      refine .ite ?_ ?_
      · refine (paceWedge_only ..).after ?_
        refine .ite ?_ ?_
        · refine (requestSwitch_only ..).after ?_
          refine .ite ?_ ?_
          · refine (requestSwitch_only ..).after ?_
            refine (requestSwitch_only ..).after ?_
            refine .ite ?_ ?_
            · refine (writeGate_only ..).after ?_
              refine (modHead_only ..).after ?_
              split
              · exact (validWedge_only ..).after ((modHead_only ..).after ((modHead_only ..).after ((modHead_only ..).mono)))
              · exact (lostWedge_only ..).after ((modHead_only ..).after ((modHead_only ..).after ((modHead_only ..).mono)))
            · refine (armWriter_only ..).after ?_
              refine (modHead_only ..).after ?_
              split
              · exact (validWedge_only ..).after ((modHead_only ..).after ((modHead_only ..).after ((modHead_only ..).mono)))
              · exact (lostWedge_only ..).after ((modHead_only ..).after ((modHead_only ..).after ((modHead_only ..).mono)))
          · refine .ite ?_ ?_
            · refine (writeGate_only ..).after ?_
              refine (modHead_only ..).after ?_
              split
              · exact (validWedge_only ..).after ((modHead_only ..).after ((modHead_only ..).after ((modHead_only ..).mono)))
              · exact (lostWedge_only ..).after ((modHead_only ..).after ((modHead_only ..).after ((modHead_only ..).mono)))
            · refine (armWriter_only ..).after ?_
              refine (modHead_only ..).after ?_
              split
              · exact (validWedge_only ..).after ((modHead_only ..).after ((modHead_only ..).after ((modHead_only ..).mono)))
              · exact (lostWedge_only ..).after ((modHead_only ..).after ((modHead_only ..).after ((modHead_only ..).mono)))
        · refine .ite ?_ ?_
          · refine (requestSwitch_only ..).after ?_
            refine (requestSwitch_only ..).after ?_
            refine .ite ?_ ?_
            · refine (writeGate_only ..).after ?_
              refine (modHead_only ..).after ?_
              split
              · exact (validWedge_only ..).after ((modHead_only ..).after ((modHead_only ..).after ((modHead_only ..).mono)))
              · exact (lostWedge_only ..).after ((modHead_only ..).after ((modHead_only ..).after ((modHead_only ..).mono)))
            · refine (armWriter_only ..).after ?_
              refine (modHead_only ..).after ?_
              split
              · exact (validWedge_only ..).after ((modHead_only ..).after ((modHead_only ..).after ((modHead_only ..).mono)))
              · exact (lostWedge_only ..).after ((modHead_only ..).after ((modHead_only ..).after ((modHead_only ..).mono)))
          · refine .ite ?_ ?_
            · refine (writeGate_only ..).after ?_
              refine (modHead_only ..).after ?_
              split
              · exact (validWedge_only ..).after ((modHead_only ..).after ((modHead_only ..).after ((modHead_only ..).mono)))
              · exact (lostWedge_only ..).after ((modHead_only ..).after ((modHead_only ..).after ((modHead_only ..).mono)))
            · refine (armWriter_only ..).after ?_
              refine (modHead_only ..).after ?_
              split
              · exact (validWedge_only ..).after ((modHead_only ..).after ((modHead_only ..).after ((modHead_only ..).mono)))
              · exact (lostWedge_only ..).after ((modHead_only ..).after ((modHead_only ..).after ((modHead_only ..).mono)))
      · refine .ite ?_ ?_
        · refine (requestSwitch_only ..).after ?_
          refine (requestSwitch_only ..).after ?_
          refine .ite ?_ ?_
          · refine (writeGate_only ..).after ?_
            refine (modHead_only ..).after ?_
            split
            · exact (validWedge_only ..).after ((modHead_only ..).after ((modHead_only ..).after ((modHead_only ..).mono)))
            · exact (lostWedge_only ..).after ((modHead_only ..).after ((modHead_only ..).after ((modHead_only ..).mono)))
          · refine (armWriter_only ..).after ?_
            refine (modHead_only ..).after ?_
            split
            · exact (validWedge_only ..).after ((modHead_only ..).after ((modHead_only ..).after ((modHead_only ..).mono)))
            · exact (lostWedge_only ..).after ((modHead_only ..).after ((modHead_only ..).after ((modHead_only ..).mono)))
        · refine .ite ?_ ?_
          · refine (writeGate_only ..).after ?_
            refine (modHead_only ..).after ?_
            split
            · exact (validWedge_only ..).after ((modHead_only ..).after ((modHead_only ..).after ((modHead_only ..).mono)))
            · exact (lostWedge_only ..).after ((modHead_only ..).after ((modHead_only ..).after ((modHead_only ..).mono)))
          · refine (armWriter_only ..).after ?_
            refine (modHead_only ..).after ?_
            split
            · exact (validWedge_only ..).after ((modHead_only ..).after ((modHead_only ..).after ((modHead_only ..).mono)))
            · exact (lostWedge_only ..).after ((modHead_only ..).after ((modHead_only ..).after ((modHead_only ..).mono)))
    · refine .ite ?_ ?_
      · refine (paceWedge_only ..).after ?_
        refine .ite ?_ ?_
        · refine (requestSwitch_only ..).after ?_
          refine .ite ?_ ?_
          · refine (requestSwitch_only ..).after ?_
            refine (requestSwitch_only ..).after ?_
            refine .ite ?_ ?_
            · refine (writeGate_only ..).after ?_
              refine (modHead_only ..).after ?_
              split
              · exact (validWedge_only ..).after ((modHead_only ..).after ((modHead_only ..).after ((modHead_only ..).mono)))
              · exact (lostWedge_only ..).after ((modHead_only ..).after ((modHead_only ..).after ((modHead_only ..).mono)))
            · refine (armWriter_only ..).after ?_
              refine (modHead_only ..).after ?_
              split
              · exact (validWedge_only ..).after ((modHead_only ..).after ((modHead_only ..).after ((modHead_only ..).mono)))
              · exact (lostWedge_only ..).after ((modHead_only ..).after ((modHead_only ..).after ((modHead_only ..).mono)))
          · refine .ite ?_ ?_
            · refine (writeGate_only ..).after ?_
              refine (modHead_only ..).after ?_
              split
              · exact (validWedge_only ..).after ((modHead_only ..).after ((modHead_only ..).after ((modHead_only ..).mono)))
              · exact (lostWedge_only ..).after ((modHead_only ..).after ((modHead_only ..).after ((modHead_only ..).mono)))
            · refine (armWriter_only ..).after ?_
              refine (modHead_only ..).after ?_
              split
              · exact (validWedge_only ..).after ((modHead_only ..).after ((modHead_only ..).after ((modHead_only ..).mono)))
              · exact (lostWedge_only ..).after ((modHead_only ..).after ((modHead_only ..).after ((modHead_only ..).mono)))
        · refine .ite ?_ ?_
          · refine (requestSwitch_only ..).after ?_
            refine (requestSwitch_only ..).after ?_
            refine .ite ?_ ?_
            · refine (writeGate_only ..).after ?_
              refine (modHead_only ..).after ?_
              split
              · exact (validWedge_only ..).after ((modHead_only ..).after ((modHead_only ..).after ((modHead_only ..).mono)))
              · exact (lostWedge_only ..).after ((modHead_only ..).after ((modHead_only ..).after ((modHead_only ..).mono)))
            · refine (armWriter_only ..).after ?_
              refine (modHead_only ..).after ?_
              split
              · exact (validWedge_only ..).after ((modHead_only ..).after ((modHead_only ..).after ((modHead_only ..).mono)))
              · exact (lostWedge_only ..).after ((modHead_only ..).after ((modHead_only ..).after ((modHead_only ..).mono)))
          · refine .ite ?_ ?_
            · refine (writeGate_only ..).after ?_
              refine (modHead_only ..).after ?_
              split
              · exact (validWedge_only ..).after ((modHead_only ..).after ((modHead_only ..).after ((modHead_only ..).mono)))
              · exact (lostWedge_only ..).after ((modHead_only ..).after ((modHead_only ..).after ((modHead_only ..).mono)))
            · refine (armWriter_only ..).after ?_
              refine (modHead_only ..).after ?_
              split
              · exact (validWedge_only ..).after ((modHead_only ..).after ((modHead_only ..).after ((modHead_only ..).mono)))
              · exact (lostWedge_only ..).after ((modHead_only ..).after ((modHead_only ..).after ((modHead_only ..).mono)))
      · refine .ite ?_ ?_
        · refine (requestSwitch_only ..).after ?_
          refine (requestSwitch_only ..).after ?_
          refine .ite ?_ ?_
          · refine (writeGate_only ..).after ?_
            refine (modHead_only ..).after ?_
            split
            · exact (validWedge_only ..).after ((modHead_only ..).after ((modHead_only ..).after ((modHead_only ..).mono)))
            · exact (lostWedge_only ..).after ((modHead_only ..).after ((modHead_only ..).after ((modHead_only ..).mono)))
          · refine (armWriter_only ..).after ?_
            refine (modHead_only ..).after ?_
            split
            · exact (validWedge_only ..).after ((modHead_only ..).after ((modHead_only ..).after ((modHead_only ..).mono)))
            · exact (lostWedge_only ..).after ((modHead_only ..).after ((modHead_only ..).after ((modHead_only ..).mono)))
        · refine .ite ?_ ?_
          · refine (writeGate_only ..).after ?_
            refine (modHead_only ..).after ?_
            split
            · exact (validWedge_only ..).after ((modHead_only ..).after ((modHead_only ..).after ((modHead_only ..).mono)))
            · exact (lostWedge_only ..).after ((modHead_only ..).after ((modHead_only ..).after ((modHead_only ..).mono)))
          · refine (armWriter_only ..).after ?_
            refine (modHead_only ..).after ?_
            split
            · exact (validWedge_only ..).after ((modHead_only ..).after ((modHead_only ..).after ((modHead_only ..).mono)))
            · exact (lostWedge_only ..).after ((modHead_only ..).after ((modHead_only ..).after ((modHead_only ..).mono)))
theorem unloadWedge_only (n d s) : Only { alks := true, heads := true, tx := true } s (unloadWedge n d s) := by
  unfold unloadWedge
  exact .ite ((sendWindow_only ..).after ((modHead_only ..).mono)) ((modHead_only ..).after ((sendMode_only ..).after ((modHead_only ..).mono)))
theorem execServoWedge_only (arm head s) : OnlyNext (.but { aon := true, idn := true, fuses := true, clk := true, pwr := true, img := true, nvm := true, bol := true, fcc := true, pending := true, intake := true }) s (execServoWedge arm head s) := by
  unfold execServoWedge
  exact .live (Only.next (.ite .refl (.ite ((unloadWedge_only ..).mono) (.ite .refl (.ite ((acquireWedge_only ..).after ((modArm_only ..).mono)) ((visitWedge_only ..).after ((trackWedge_only ..).mono)))))))
theorem unloadAgain_only (a s) : Only { alks := true, islands := true, heads := true, arms := true, gov := true, mrc := true, slu := true, tx := true } s (unloadAgain a s) := by
  unfold unloadAgain
  exact (unloadArm_only ..).after ((modArm_only ..).mono)
theorem execArmCoastTimeout_only (arm s) : OnlyNext { alks := true, islands := true, heads := true, arms := true, gov := true, mrc := true, slu := true, tx := true } s (execArmCoastTimeout arm s) := by
  unfold execArmCoastTimeout
  exact .live (Only.next (.ite ((unloadAgain_only ..).after ((modArm_only ..).mono)) .refl))
theorem execSurfaceMismatch_only (arm head s) : OnlyNext (.but { aon := true, idn := true, fuses := true, clk := true, pwr := true, img := true, nvm := true, rows := true, fcc := true, pending := true, intake := true }) s (execSurfaceMismatch arm head s) := by
  unfold execSurfaceMismatch
  exact .live (Only.next (.ite (.ite ((declareFailed_only ..).after ((servoCondition_only ..).after ((modHead_only ..).mono))) ((failStop_only ..).after ((unloadArm_only ..).after ((servoCondition_only ..).after ((modHead_only ..).mono))))) .refl))
theorem execWedgeLossRun_only (arm head s) : OnlyNext { dev := true, flt := true, evt := true, mqs := true, alks := true, islands := true, heads := true, gov := true, mrc := true, slu := true, fan := true, tx := true, free := true } s (execWedgeLossRun arm head s) := by
  unfold execWedgeLossRun
  exact .live (Only.next (.ite ((uaPreset_only ..).after ((modHead_only ..).after ((servoCondition_only ..).mono))) .refl))
theorem execReacquireTimeout_only (arm head s) : OnlyNext (.but { aon := true, idn := true, fuses := true, clk := true, pwr := true, img := true, nvm := true, rows := true, fcc := true, pending := true, intake := true }) s (execReacquireTimeout arm head s) := by
  unfold execReacquireTimeout
  exact .live (Only.next (.ite ((declareFailed_only ..).mono) .refl))
theorem execStrokeLimitRun_only (arm head s) : OnlyNext { dev := true, flt := true, evt := true, mqs := true, alks := true, islands := true, heads := true, arms := true, gov := true, mrc := true, slu := true, fan := true, tx := true, free := true } s (execStrokeLimitRun arm head s) := by
  unfold execStrokeLimitRun
  exact .live (Only.next (.ite ((reseek_only ..).after ((servoCondition_only ..).after ((modHead_only ..).mono))) .refl))
theorem execReaderDisagreeRun_only (arm head s) : OnlyNext { dev := true, flt := true, evt := true, mqs := true, alks := true, islands := true, heads := true, gov := true, mrc := true, slu := true, fan := true, tx := true, free := true } s (execReaderDisagreeRun arm head s) := by
  unfold execReaderDisagreeRun
  exact .live (Only.next (.ite ((mqNote_only ..).after ((servoCondition_only ..).after ((modHead_only ..).mono))) .refl))
theorem execSettleTimeout_only (arm head s) : OnlyNext { dev := true, flt := true, evt := true, mqs := true, alks := true, islands := true, heads := true, arms := true, gov := true, mrc := true, slu := true, fan := true, tx := true, free := true } s (execSettleTimeout arm head s) := by
  unfold execSettleTimeout
  refine .live ?_
  refine Only.next ?_
  split
  · exact .refl
  · exact .ite .refl (.ite ((servoCondition_only ..).after ((modArm_only ..).mono)) ((reseek_only ..).after ((servoCondition_only ..).after ((modArm_only ..).mono))))
theorem clearanceRun_only (n o s) : Only (.but { aon := true, idn := true, fuses := true, clk := true, pwr := true, img := true, nvm := true, bol := true, rows := true, fcc := true, pending := true, intake := true }) s (clearanceRun n o s) := by
  unfold clearanceRun
  exact .ite ((checkFloor_only ..).after ((sendHeater_only ..).after ((modHead_only ..).after ((runCtx_only ..).after ((setSetpoint_only ..).mono))))) .refl
theorem execClearanceEstimate_only (arm head s) : OnlyNext (.but { aon := true, idn := true, fuses := true, clk := true, pwr := true, img := true, nvm := true, fcc := true, pending := true, intake := true }) s (execClearanceEstimate arm head s) := by
  unfold execClearanceEstimate
  exact .live (Only.next (.ite .refl (.ite ((modHead_only ..).mono) (.ite ((contactAct_only ..).after ((modHead_only ..).mono)) ((clearanceRun_only ..).after ((modHead_only ..).mono))))))
theorem execArmLoad_only (arm s) : OnlyNext (.but { aon := true, idn := true, fuses := true, clk := true, pwr := true, img := true, nvm := true, bol := true, rows := true, fcc := true, pending := true, intake := true }) s (execArmLoad arm s) := by
  unfold execArmLoad
  exact .live (Only.next (.ite .refl (.ite ((reloadSpeed_only ..).mono) (.ite (.each (fun _ _ => (sendMode_only ..).after ((sendTables_only ..).after ((coolHead_only ..).mono))) .refl) ((checkFloor_only ..).after ((modArm_only ..).after ((setSetpoint_only ..).after ((enableCtx_only ..).after ((vcmSend_only ..).after (.each (fun _ _ => (modHead_only ..).mono) (.each (fun _ _ => (sendMode_only ..).after ((sendTables_only ..).after ((coolHead_only ..).mono))) .refl)))))))))))
theorem loadFailure_only (s) : Only (.but { aon := true, idn := true, fuses := true, clk := true, pwr := true, img := true, nvm := true, bol := true, rows := true, fcc := true, pending := true, intake := true }) s (loadFailure s) := by
  unfold loadFailure
  exact (failStop_only ..).after ((servoCondition_only ..).mono)
theorem execLoadAcquireTimeout_only (arm s) : OnlyNext (.but { aon := true, idn := true, fuses := true, clk := true, pwr := true, img := true, nvm := true, rows := true, fcc := true, pending := true, intake := true }) s (execLoadAcquireTimeout arm s) := by
  unfold execLoadAcquireTimeout
  exact .live (Only.next (.ite .refl (.ite (.ite ((unloadArm_only ..).mono) ((failStop_only ..).after (.each (fun _ _ => (declareFailed_only ..).mono) .refl))) (.ite ((unloadAgain_only ..).mono) (.ite ((loadFailure_only ..).mono) (.ite (.each (fun _ _ => (modHead_only ..).mono) (.each (fun _ _ => (declareFailed_only ..).mono) .refl)) ((closePosition_only ..).after (.each (fun _ _ => (modHead_only ..).mono) (.each (fun _ _ => (declareFailed_only ..).mono) .refl)))))))))
theorem vcmFault_only (a s) : Only { dev := true, flt := true, evt := true, mqs := true, alks := true, islands := true, heads := true, arms := true, gov := true, mrc := true, rows := true, slu := true, fan := true, tx := true, free := true } s (vcmFault a s) := by
  unfold vcmFault
  exact (servoCondition_only ..).after ((openCause_only ..).after ((modArm_only ..).after ((headsOff_only ..).after ((retractArm_only ..).after ((gateArm_only ..).after ((voidArm_only ..).after (.each (fun _ _ => (writeGate_only ..).mono) .refl)))))))
theorem execRetractedWaitTimeout_only (arm s) : OnlyNext { dev := true, flt := true, evt := true, mqs := true, alks := true, islands := true, heads := true, arms := true, gov := true, mrc := true, rows := true, slu := true, fan := true, tx := true, free := true } s (execRetractedWaitTimeout arm s) := by
  unfold execRetractedWaitTimeout
  exact .live (Only.next (.ite ((vcmFault_only ..).mono) .refl))
theorem execArmUnload_only (arm s) : OnlyNext { alks := true, islands := true, heads := true, arms := true, gov := true, mrc := true, slu := true, tx := true } s (execArmUnload arm s) := by
  unfold execArmUnload
  exact .live (Only.next ((unloadArm_only ..).mono))
theorem unloaded_only (a state s) : Only (.but { aon := true, idn := true, fuses := true, clk := true, pwr := true, mqs := true, hold := true, img := true, nvm := true, bol := true, fls := true, fcc := true, free := true, pending := true, intake := true }) s (unloaded a state s) := by
  unfold unloaded
  exact (advancePark_only ..).after ((advanceStop_only ..).after ((modArm_only ..).after ((headsOff_only ..).after ((disableCtx_only ..).after ((vcmSend_only ..).mono)))))
theorem execUnloadComplete_only (arm s) : OnlyNext (.but { aon := true, idn := true, fuses := true, clk := true, pwr := true, mqs := true, hold := true, img := true, nvm := true, bol := true, fls := true, fcc := true, free := true, pending := true, intake := true }) s (execUnloadComplete arm s) := by
  unfold execUnloadComplete
  exact .live (Only.next (.ite ((unloaded_only ..).mono) .refl))
theorem execUnloadTimeout_only (arm s) : OnlyNext (.but { aon := true, idn := true, fuses := true, clk := true, pwr := true, hold := true, img := true, nvm := true, bol := true, fls := true, fcc := true, pending := true, intake := true }) s (execUnloadTimeout arm s) := by
  unfold execUnloadTimeout
  exact .live (Only.next (.ite ((unloaded_only ..).after ((servoCondition_only ..).mono)) .refl))
theorem velocityRun_only (a o s) : Only (.but { aon := true, idn := true, fuses := true, clk := true, pwr := true, img := true, nvm := true, bol := true, rows := true, fcc := true, pending := true, intake := true }) s (velocityRun a o s) := by
  unfold velocityRun
  exact .ite ((vcmSend_only ..).after ((runCtx_only ..).mono)) .refl
theorem execVcmDiFrame_only (arm f s) : OnlyNext (.but { aon := true, idn := true, fuses := true, clk := true, pwr := true, img := true, nvm := true, bol := true, fcc := true, pending := true, intake := true }) s (execVcmDiFrame arm f s) := by
  unfold execVcmDiFrame
  exact .live (Only.next (.ite .refl (.ite (.ite ((vcmFault_only ..).after ((servoCondition_only ..).after ((modArm_only ..).mono))) ((servoCondition_only ..).after ((modArm_only ..).mono))) (.ite ((vcmFault_only ..).after ((modArm_only ..).mono)) (.ite ((velocityRun_only ..).after ((modArm_only ..).mono)) ((modArm_only ..).mono))))))
theorem execVcmReload_only (arm s) : OnlyNext (.but { aon := true, idn := true, fuses := true, clk := true, pwr := true, img := true, nvm := true, bol := true, rows := true, fcc := true, pending := true, intake := true }) s (execVcmReload arm s) := by
  unfold execVcmReload
  exact .live (Only.next (.ite (.ite ((reloadSpeed_only ..).after ((modArm_only ..).mono)) ((failStop_only ..).mono)) .refl))
theorem execVcmReloadTimeout_only (arm s) : OnlyNext (.but { aon := true, idn := true, fuses := true, clk := true, pwr := true, img := true, nvm := true, bol := true, rows := true, fcc := true, pending := true, intake := true }) s (execVcmReloadTimeout arm s) := by
  unfold execVcmReloadTimeout
  exact .live (Only.next (.ite ((failStop_only ..).mono) .refl))
theorem vcmRun_only (a o s) : Only (.but { aon := true, idn := true, fuses := true, clk := true, pwr := true, img := true, nvm := true, bol := true, rows := true, fcc := true, pending := true, intake := true }) s (vcmRun a o s) := by
  unfold vcmRun
  exact .ite .refl (.ite ((vcmSend_only ..).mono) ((vcmSend_only ..).after ((runCtx_only ..).mono)))
theorem uaRun_only (n o s) : Only (.but { aon := true, idn := true, fuses := true, clk := true, pwr := true, img := true, nvm := true, bol := true, rows := true, fcc := true, pending := true, intake := true }) s (uaRun n o s) := by
  unfold uaRun
  exact .ite .refl ((uaSet_only ..).after ((runCtx_only ..).mono))
theorem execLoopExecute_only (ctx input o s) : OnlyNext (.but { aon := true, idn := true, fuses := true, clk := true, pwr := true, img := true, nvm := true, bol := true, rows := true, fcc := true, pending := true, intake := true }) s (execLoopExecute ctx input o s) := by
  unfold execLoopExecute
  exact .live (Only.next (.ite ((vcmRun_only ..).mono) (.ite ((uaRun_only ..).mono) (.ite ((clearanceRun_only ..).mono) (.ite ((velocityRun_only ..).mono) (.ite ((runCtx_only ..).after ((enableCtx_only ..).mono)) ((runCtx_only ..).mono)))))))
theorem execLoopSwitchTimeout_only (ctx s) : OnlyNext (.but { aon := true, idn := true, fuses := true, clk := true, pwr := true, img := true, nvm := true, rows := true, fcc := true, pending := true, intake := true }) s (execLoopSwitchTimeout ctx s) := by
  unfold execLoopSwitchTimeout
  exact .live (Only.next (.ite .refl (.ite (.ite ((unloadAgain_only ..).after ((report_only ..).after ((modCtx_only ..).mono))) (.ite ((loadFailure_only ..).after ((modCtx_only ..).mono)) ((declareFailed_only ..).after ((report_only ..).after ((modCtx_only ..).mono))))) ((failStop_only ..).after ((servoCondition_only ..).after ((modCtx_only ..).mono))))))
theorem modStream_only (a x f s) : Only { alks := true } s (modStream a x f s) := by
  unfold modStream
  exact (modAlk_only ..).mono
theorem execSampleWord_only (arm word s) : OnlyNext { alks := true } s (execSampleWord arm word s) := by
  unfold execSampleWord
  exact .live (Only.next (.ite ((modStream_only ..).mono) .refl))
theorem execStreamMark_only (arm word s) : OnlyNext { alks := true } s (execStreamMark arm word s) := by
  unfold execStreamMark
  exact .live (Only.next (.ite ((modStream_only ..).after (.ite ((modAlk_only ..).mono) .refl)) .refl))
theorem suspendHead_only (n s) : Only { mqs := true, alks := true, islands := true, bol := true, heads := true, tx := true, free := true } s (suspendHead n s) := by
  unfold suspendHead
  exact .ite .refl ((mqNote_only ..).after (.upd ((modHead_only ..).after ((gateIsland_only ..).after ((sendMode_only ..).mono)))))
theorem pressureUp_only (s) : Only { evt := true, alks := true, islands := true, bol := true, heads := true, gov := true, mrc := true, slu := true, fan := true, tx := true } s (pressureUp s) := by
  unfold pressureUp
  exact .ite ((post_only ..).after (.each (fun _ _ => .ite ((cutVisit_only ..).mono) .refl) (.upd .refl))) .refl
theorem enqueue_only (c s) : Only { evt := true, alks := true, islands := true, bol := true, heads := true, gov := true, mrc := true, slu := true, fan := true, tx := true } s (enqueue c s) := by
  unfold enqueue
  split
  · exact (pressureUp_only ..).after (.upd .refl)
  · exact .refl
theorem lostFrame_only (xs missed s) : Only (.but { aon := true, idn := true, fuses := true, clk := true, pwr := true, img := true, nvm := true, fcc := true, pending := true, intake := true }) s (lostFrame xs missed s) := by
  unfold lostFrame
  exact .each (fun _ _ => (climb_only ..).mono) .refl
theorem offTrackFrame_only (xs s) : Only { dev := true, flt := true, evt := true, mqs := true, alks := true, islands := true, heads := true, gov := true, mrc := true, slu := true, fan := true, tx := true, free := true } s (offTrackFrame xs s) := by
  unfold offTrackFrame
  exact .each (fun _ _ => (rereadWork_only ..).mono) ((servoCondition_only ..).mono)
theorem dropRequests_only (island lost s) : Only (.but { aon := true, idn := true, fuses := true, clk := true, pwr := true, img := true, nvm := true, fcc := true, pending := true, intake := true }) s (dropRequests island lost s) := by
  unfold dropRequests
  exact (lostFrame_only ..).after ((modIsl_only ..).mono)
theorem pushEntry_only (island e s) : Only (.but { aon := true, idn := true, fuses := true, clk := true, pwr := true, img := true, nvm := true, fcc := true, pending := true, intake := true }) s (pushEntry island e s) := by
  unfold pushEntry
  exact (modIsl_only ..).after ((dropRequests_only ..).mono)
theorem loopRange_only (island s) : Only { evt := true, islands := true, gov := true } s (loopRange island s) := by
  unfold loopRange
  exact (post_only ..).after ((modIsl_only ..).mono)
theorem tooErased_only (island s) : Only { evt := true, islands := true, gov := true } s (tooErased island s) := by
  unfold tooErased
  exact (post_only ..).after ((modIsl_only ..).mono)
theorem noteTiming_only (island r q s1 s2 s) : Only { islands := true } s (noteTiming island r q s1 s2 s) := by
  unfold noteTiming
  exact (modIsl_only ..).mono
theorem queueFrame_only (island n e wanted visit c1 score1 cs lam s) : Only { evt := true, mqs := true, alks := true, islands := true, bol := true, heads := true, gov := true, mrc := true, slu := true, fan := true, tx := true, free := true } s (queueFrame island n e wanted visit c1 score1 cs lam s) := by
  unfold queueFrame
  exact .ite ((suspendHead_only ..).after ((post_only ..).after (.upd .refl))) (.each (fun _ _ => (enqueue_only ..).after (.ite ((enterRung_only ..).mono) .refl)) ((modIsl_only ..).mono))
theorem syncMiss_only (island slot xs best s) : Only (.but { aon := true, idn := true, fuses := true, clk := true, pwr := true, img := true, nvm := true, fcc := true, pending := true, intake := true }) s (syncMiss island slot xs best s) := by
  unfold syncMiss
  exact (lostFrame_only ..).after ((post_only ..).after ((modIsl_only ..).mono))
theorem detectEntry_only (img island e xs wanted visit s) : Only (.but { aon := true, idn := true, fuses := true, clk := true, pwr := true, img := true, nvm := true, fcc := true, pending := true, intake := true }) s (detectEntry img island e xs wanted visit s) := by
  unfold detectEntry
  extract_lets
  split
  · exact (syncMiss_only ..).mono
  · refine .ite ((lostFrame_only ..).after ((loopRange_only ..).mono)) ?_
    extract_lets
    split
    · exact (syncMiss_only ..).mono
    · refine .ite ((syncMiss_only ..).mono) ?_
      refine .ite ((lostFrame_only ..).after ((tooErased_only ..).after ((modIsl_only ..).after ((noteTiming_only ..).mono)))) ?_
      refine (queueFrame_only ..).after ?_
      split
      · exact (gather_only ..).after ((modIsl_only ..).after ((noteTiming_only ..).mono))
      · exact (modIsl_only ..).after ((noteTiming_only ..).mono)
theorem visitFrame_only (island n slot o step s) : Only (.but { aon := true, idn := true, fuses := true, clk := true, pwr := true, img := true, nvm := true, fcc := true, pending := true, intake := true }) s (visitFrame island n slot o step s) := by
  unfold visitFrame
  extract_lets i place
  clear_value place
  split
  · exact .refl
  · exact .ite .refl (.ite ((pushEntry_only ..).after (modIsl_only ..).mono) ((detectEntry_only ..).after ((pushEntry_only ..).after (modIsl_only ..).mono)))
theorem execPreambleSearch_only (island slot s) : OnlyNext (.but { aon := true, idn := true, fuses := true, clk := true, pwr := true, img := true, nvm := true, fcc := true, pending := true, intake := true }) s (execPreambleSearch island slot s) := by
  unfold execPreambleSearch
  refine .live ?_
  refine Only.next ?_
  refine .ite .refl ?_
  split
  · exact (visitFrame_only ..).mono
  · exact .ite .refl (.ite ((offTrackFrame_only ..).after ((pushEntry_only ..).after ((modIsl_only ..).mono))) ((detectEntry_only ..).after ((pushEntry_only ..).after ((modIsl_only ..).mono))))
theorem execSecondCandidateRebuild_only (island s) : OnlyNext (.but { aon := true, idn := true, fuses := true, clk := true, pwr := true, img := true, nvm := true, fcc := true, pending := true, intake := true }) s (execSecondCandidateRebuild island s) := by
  unfold execSecondCandidateRebuild
  refine .live ?_
  refine Only.next ?_
  split
  · exact .refl
  · refine .ite .refl ?_
    extract_lets
    split
    · exact (modIsl_only ..).mono
    · split
      · exact .ite ((lostFrame_only ..).after ((modIsl_only ..).mono)) (.ite ((lostFrame_only ..).after ((tooErased_only ..).after ((modIsl_only ..).after (.ite ((enterRung_only ..).after ((modIsl_only ..).mono)) ((modIsl_only ..).mono))))) ((enqueue_only ..).after ((modIsl_only ..).after ((modIsl_only ..).after (.ite ((enterRung_only ..).after ((modIsl_only ..).mono)) ((modIsl_only ..).mono))))))
      · exact (lostFrame_only ..).after ((modIsl_only ..).mono)
theorem postCheck_only (island slot t c s) : Only { evt := true, mqs := true, islands := true, gov := true, slu := true, fan := true, tx := true, free := true } s (postCheck island slot t c s) := by
  unfold postCheck
  refine .ite ?_ ?_
  · refine (mqSend_only ..).after ?_
    refine .ite ?_ ?_
    · refine (gather_only ..).after ?_
      split
      · exact .ite ((noteTiming_only ..).after ((modIsl_only ..).after (.ite .refl ((nextFree_only ..).mono)))) (.ite ((loopRange_only ..).after (.ite .refl ((nextFree_only ..).mono))) (.ite .refl ((nextFree_only ..).mono)))
      · exact .ite .refl ((nextFree_only ..).mono)
    · split
      · exact .ite ((noteTiming_only ..).after ((modIsl_only ..).after (.ite .refl ((nextFree_only ..).mono)))) (.ite ((loopRange_only ..).after (.ite .refl ((nextFree_only ..).mono))) (.ite .refl ((nextFree_only ..).mono)))
      · exact .ite .refl ((nextFree_only ..).mono)
  · refine (mqSend_only ..).after ?_
    refine .upd ?_
    refine .ite ?_ ?_
    · refine (post_only ..).after ?_
      refine (modIsl_only ..).after ?_
      split
      · exact .ite ((noteTiming_only ..).after ((modIsl_only ..).after (.ite .refl ((nextFree_only ..).mono)))) (.ite ((loopRange_only ..).after (.ite .refl ((nextFree_only ..).mono))) (.ite .refl ((nextFree_only ..).mono)))
      · exact .ite .refl ((nextFree_only ..).mono)
    · refine .ite ?_ ?_
      · refine (post_only ..).after ?_
        refine (modIsl_only ..).after ?_
        split
        · exact .ite ((noteTiming_only ..).after ((modIsl_only ..).after (.ite .refl ((nextFree_only ..).mono)))) (.ite ((loopRange_only ..).after (.ite .refl ((nextFree_only ..).mono))) (.ite .refl ((nextFree_only ..).mono)))
        · exact .ite .refl ((nextFree_only ..).mono)
      · refine (modIsl_only ..).after ?_
        split
        · exact .ite ((noteTiming_only ..).after ((modIsl_only ..).after (.ite .refl ((nextFree_only ..).mono)))) (.ite ((loopRange_only ..).after (.ite .refl ((nextFree_only ..).mono))) (.ite .refl ((nextFree_only ..).mono)))
        · exact .ite .refl ((nextFree_only ..).mono)
theorem execRawCheck_only (island slot s) : OnlyNext { evt := true, mqs := true, islands := true, gov := true, slu := true, fan := true, tx := true, free := true } s (execRawCheck island slot s) := by
  unfold execRawCheck
  refine .live ?_
  refine Only.next ?_
  refine .ite .refl ?_
  split
  · exact .refl
  · exact .ite .refl ((postCheck_only ..).mono)
theorem checkDone_only (row k res s) : Only (.but { aon := true, idn := true, fuses := true, clk := true, pwr := true, img := true, nvm := true, fcc := true, pending := true, intake := true }) s (checkDone row k res s) := by
  unfold checkDone
  split
  · exact .refl
  · refine .ite ((modRowSec_only ..).mono) ?_
    extract_lets
    split
    · exact (rewriteWork_only ..).after (.ite ((remapRow_only ..).after ((modRowSec_only ..).mono)) ((modRowSec_only ..).mono))
    · exact .ite ((remapRow_only ..).after ((modRowSec_only ..).mono)) ((modRowSec_only ..).mono)
theorem repairDone_only (a res x origin t s) : Only { evt := true, mqs := true, layout := true, alks := true, islands := true, bol := true, heads := true, gov := true, mrc := true, links := true, injs := true, slu := true, fan := true, tx := true, free := true } s (repairDone a res x origin t s) := by
  unfold repairDone
  split
  · exact .refl
  · exact .ite ((dropSec_only ..).after ((enterDefect_only ..).after (.upd .refl))) ((addWork_only ..).after (.upd .refl))
theorem execRawResultHandle_only (island s) : OnlyNext (.but { aon := true, idn := true, fuses := true, clk := true, pwr := true, img := true, nvm := true, fcc := true, pending := true, intake := true }) s (execRawResultHandle island s) := by
  unfold execRawResultHandle
  refine .live ?_
  refine Only.next ?_
  split
  · exact .refl
  · extract_lets
    split
    · exact (checkDone_only ..).after ((modMq_only ..).mono)
    · exact (repairDone_only ..).after ((modMq_only ..).mono)
    · exact (modMq_only ..).mono
theorem engageHead_only (a h o s) : Only { alks := true, islands := true, heads := true, tx := true } s (engageHead a h o s) := by
  unfold engageHead
  exact .ite .refl (.ite ((sendLaser_only ..).after ((modHead_only ..).after (.ite ((modIsl_only ..).mono) ((sendMode_only ..).after ((modIsl_only ..).mono))))) (.ite ((modIsl_only ..).mono) ((sendMode_only ..).after ((modIsl_only ..).mono))))
theorem stopHead_only (n s) : Only { alks := true, heads := true, rows := true, slu := true, tx := true } s (stopHead n s) := by
  unfold stopHead
  exact .ite ((stopWriter_only ..).after ((voidArm_only ..).mono)) ((voidArm_only ..).mono)
theorem failIsland_only (island why own s) : Only (.but { aon := true, idn := true, fuses := true, clk := true, pwr := true, img := true, nvm := true, fcc := true, pending := true, intake := true }) s (failIsland island why own s) := by
  unfold failIsland
  exact .ite .refl (.ite ((condition_only ..).after (.ite ((modHead_only ..).after ((modIsl_only ..).after ((dropRequests_only ..).after (.ite ((stopHead_only ..).mono) .refl)))) ((modIsl_only ..).after ((dropRequests_only ..).after (.ite ((stopHead_only ..).mono) .refl))))) ((post_only ..).after (.ite ((modHead_only ..).after ((modIsl_only ..).after ((dropRequests_only ..).after (.ite ((stopHead_only ..).mono) .refl)))) ((modIsl_only ..).after ((dropRequests_only ..).after (.ite ((stopHead_only ..).mono) .refl))))))
theorem execIslandFail_only (island why s) : OnlyNext (.but { aon := true, idn := true, fuses := true, clk := true, pwr := true, img := true, nvm := true, fcc := true, pending := true, intake := true }) s (execIslandFail island why s) := by
  unfold execIslandFail
  exact .live (Only.next ((failIsland_only ..).mono))
theorem steerHead_only (n island s) : Only (.but { aon := true, idn := true, fuses := true, clk := true, pwr := true, img := true, nvm := true, fcc := true, pending := true, intake := true }) s (steerHead n island s) := by
  unfold steerHead
  exact (post_only ..).after ((handServo_only ..).after ((modHead_only ..).after ((modIsl_only ..).after ((modIsl_only ..).after ((dropGathered_only ..).after ((dropRequests_only ..).after ((stopHead_only ..).mono)))))))
theorem execIslandReassign_only (arm head island s) : OnlyNext (.but { aon := true, idn := true, fuses := true, clk := true, pwr := true, img := true, nvm := true, fcc := true, pending := true, intake := true }) s (execIslandReassign arm head island s) := by
  unfold execIslandReassign
  exact .live (Only.next (.ite .refl (.ite (.ite .refl ((modIsl_only ..).mono)) ((steerHead_only ..).after (.ite .refl ((modIsl_only ..).mono))))))
theorem execIslandTablesLoaded_only (island s) : OnlyNext { alks := true, islands := true, heads := true, tx := true } s (execIslandTablesLoaded island s) := by
  unfold execIslandTablesLoaded
  refine .live ?_
  refine Only.next ?_
  refine .ite ?_ .refl
  extract_lets
  split
  · exact .ite ((engageHead_only ..).after ((modHead_only ..).after ((modIsl_only ..).mono))) ((modHead_only ..).after ((modIsl_only ..).mono))
  · exact (modHead_only ..).after ((modIsl_only ..).mono)
theorem thermalShut_only (k s) : Only (.but { aon := true, idn := true, fuses := true, clk := true, pwr := true, img := true, nvm := true, bol := true, rows := true, fcc := true, pending := true, intake := true }) s (thermalShut k s) := by
  unfold thermalShut
  exact .ite ((stopSequence_only ..).after (.upd ((post_only ..).mono))) ((failStop_only ..).after ((post_only ..).mono))
theorem setLevel_only (k level t s) : Only (.but { aon := true, idn := true, fuses := true, clk := true, pwr := true, img := true, nvm := true, bol := true, rows := true, fcc := true, pending := true, intake := true }) s (setLevel k level t s) := by
  unfold setLevel
  exact .ite ((thermalShut_only ..).after (.ite ((post_only ..).after (.ite ((post_only ..).after (.ite ((post_only ..).after ((modTherm_only ..).mono)) ((modTherm_only ..).mono))) (.ite ((post_only ..).after ((modTherm_only ..).mono)) ((modTherm_only ..).mono)))) (.ite ((post_only ..).after (.ite ((post_only ..).after ((modTherm_only ..).mono)) ((modTherm_only ..).mono))) (.ite ((post_only ..).after ((modTherm_only ..).mono)) ((modTherm_only ..).mono))))) (.ite ((post_only ..).after (.ite ((post_only ..).after (.ite ((post_only ..).after ((modTherm_only ..).mono)) ((modTherm_only ..).mono))) (.ite ((post_only ..).after ((modTherm_only ..).mono)) ((modTherm_only ..).mono)))) (.ite ((post_only ..).after (.ite ((post_only ..).after ((modTherm_only ..).mono)) ((modTherm_only ..).mono))) (.ite ((post_only ..).after ((modTherm_only ..).mono)) ((modTherm_only ..).mono))))
theorem thermalReading_only (k t s) : Only (.but { aon := true, idn := true, fuses := true, clk := true, pwr := true, img := true, nvm := true, bol := true, rows := true, fcc := true, pending := true, intake := true }) s (thermalReading k t s) := by
  unfold thermalReading
  exact (setLevel_only ..).after ((modTherm_only ..).mono)
theorem thermalUnreported_only (k s) : Only (.but { aon := true, idn := true, fuses := true, clk := true, pwr := true, img := true, nvm := true, bol := true, rows := true, fcc := true, pending := true, intake := true }) s (thermalUnreported k s) := by
  unfold thermalUnreported
  exact .ite .refl ((setLevel_only ..).after ((post_only ..).after ((modTherm_only ..).mono)))
theorem execThermalSensorRead_only (t s) : OnlyNext (.but { aon := true, idn := true, fuses := true, clk := true, img := true, nvm := true, bol := true, rows := true, fcc := true, pending := true, intake := true }) s (execThermalSensorRead t s) := by
  unfold execThermalSensorRead
  exact .live (Only.next (.ite (.upd .refl) ((thermalReading_only ..).after (.upd .refl))))
theorem execTempTelemetry_only (arm word s) : OnlyNext (.but { aon := true, idn := true, fuses := true, clk := true, pwr := true, img := true, nvm := true, bol := true, rows := true, fcc := true, pending := true, intake := true }) s (execTempTelemetry arm word s) := by
  unfold execTempTelemetry
  exact .live (Only.next ((thermalReading_only ..).after ((thermalReading_only ..).after ((modAlk_only ..).mono))))
theorem execSensorUnreported_only (sensor s) : OnlyNext (.but { aon := true, idn := true, fuses := true, clk := true, pwr := true, img := true, nvm := true, bol := true, rows := true, fcc := true, pending := true, intake := true }) s (execSensorUnreported sensor s) := by
  unfold execSensorUnreported
  exact .live (Only.next ((thermalUnreported_only ..).mono))
theorem zoned_only (a o s) : Only { heads := true } s (zoned a o s) := by
  unfold zoned
  exact .each (fun _ _ => (modHead_only ..).mono) .refl
theorem refreshBudget_only (source s) : Only { dev := true, start := true, evt := true, gov := true, spn := true, spc := true, hop := true, slu := true, tx := true } s (refreshBudget source s) := by
  unfold refreshBudget
  exact .ite .refl ((checkFloor_only ..).after ((followBudget_only ..).after ((post_only ..).after (.upd .refl))))
theorem execCodewordTake_only (engine s) : OnlyNext { bol := true } s (execCodewordTake engine s) := by
  unfold execCodewordTake
  refine .live ?_
  refine Only.next ?_
  refine .ite ?_ .refl
  split
  · exact (modEngine_only ..).mono
  · exact .refl
theorem pressureDown_only (s) : Only { bol := true } s (pressureDown s) := by
  unfold pressureDown
  exact .ite (.upd .refl) .refl
theorem freeCodeword_only (k c s) : Only { islands := true, bol := true } s (freeCodeword k c s) := by
  unfold freeCodeword
  exact (pressureDown_only ..).after (.upd ((modIsl_only ..).mono))
theorem codewordFailed_only (k c s) : Only (.but { aon := true, idn := true, fuses := true, clk := true, pwr := true, img := true, nvm := true, fcc := true, pending := true, intake := true }) s (codewordFailed k c s) := by
  unfold codewordFailed
  extract_lets x
  clear_value x
  split
  · exact (rungFailed_only ..).after (freeCodeword_only ..).mono
  · exact (freeCodeword_only ..).mono
theorem codewordPassed_only (k c i s) : Only (.but { aon := true, idn := true, fuses := true, clk := true, pwr := true, img := true, nvm := true, fcc := true, pending := true, intake := true }) s (codewordPassed k c i s) := by
  unfold codewordPassed
  extract_lets x t u
  have hu : Only (.but { aon := true, idn := true, fuses := true, clk := true, pwr := true, img := true, nvm := true, fcc := true, pending := true, intake := true }) s u := .ite ((post_only ..).after (freeCodeword_only ..).mono) (freeCodeword_only ..).mono
  clear_value x u
  split
  · exact (rungPassed_only ..).after hu
  · exact (leaveRung_only ..).after hu
theorem countIterations_only (c it limit s) : Only { bol := true, fan := true } s (countIterations c it limit s) := by
  unfold countIterations
  exact .ite .refl (.upd (.ite (.upd .refl) .refl))
theorem visitDecoded_only (k c ok iters s) : Only { islands := true, bol := true, slu := true } s (visitDecoded k c ok iters s) := by
  unfold visitDecoded
  extract_lets
  split
  · exact .ite ((gather_only ..).after ((freeCodeword_only ..).mono)) ((freeCodeword_only ..).mono)
  · exact (freeCodeword_only ..).mono
theorem execDecodeDone_only (engine s) : OnlyNext (.but { aon := true, idn := true, fuses := true, clk := true, pwr := true, img := true, nvm := true, fcc := true, pending := true, intake := true }) s (execDecodeDone engine s) := by
  unfold execDecodeDone
  refine .live ?_
  refine Only.next ?_
  split
  · exact .refl
  · extract_lets
    split <;> exact .ite (.ite ((visitDecoded_only ..).after ((countIterations_only ..).mono)) ((codewordFailed_only ..).after ((countIterations_only ..).mono))) (.ite (.ite ((visitDecoded_only ..).after ((post_only ..).after (.upd ((countIterations_only ..).mono)))) ((codewordFailed_only ..).after ((post_only ..).after (.upd ((countIterations_only ..).mono))))) (.ite (.ite ((visitDecoded_only ..).after ((post_only ..).after (.upd ((countIterations_only ..).mono)))) ((codewordFailed_only ..).after ((post_only ..).after (.upd ((countIterations_only ..).mono))))) (.ite ((visitDecoded_only ..).after ((countIterations_only ..).mono)) ((codewordPassed_only ..).after ((countIterations_only ..).mono)))))
theorem failEngine_only (e cause own s) : Only (.but { aon := true, idn := true, fuses := true, clk := true, pwr := true, img := true, nvm := true, rows := true, fcc := true, pending := true, intake := true }) s (failEngine e cause own s) := by
  unfold failEngine
  refine .ite .refl ?_
  refine .ite (.ite ((condition_only ..).after ((modEngine_only ..).mono)) ((post_only ..).after ((modEngine_only ..).mono))) ?_
  extract_lets
  split
  · exact .ite ((condition_only ..).after (.upd ((modEngine_only ..).mono))) ((post_only ..).after (.upd ((modEngine_only ..).mono)))
  · exact (failStop_only ..).after (.ite ((condition_only ..).after ((modEngine_only ..).mono)) ((post_only ..).after ((modEngine_only ..).mono)))
theorem execEngineTimeout_only (engine why s) : OnlyNext (.but { aon := true, idn := true, fuses := true, clk := true, pwr := true, img := true, nvm := true, rows := true, fcc := true, pending := true, intake := true }) s (execEngineTimeout engine why s) := by
  unfold execEngineTimeout
  exact .live (Only.next (.ite .refl ((failEngine_only ..).mono)))
theorem execQueueSlotUe_only (slot s) : OnlyNext (.but { aon := true, idn := true, fuses := true, clk := true, pwr := true, img := true, nvm := true, fcc := true, pending := true, intake := true }) s (execQueueSlotUe slot s) := by
  unfold execQueueSlotUe
  refine .live ?_
  refine Only.next ?_
  split
  · exact (codewordFailed_only ..).after ((report_only ..).mono)
  · exact .refl
theorem execHeadSuspendTick_only (s) : OnlyNext { mqs := true, alks := true, islands := true, bol := true, heads := true, tx := true, free := true } s (execHeadSuspendTick s) := by
  unfold execHeadSuspendTick
  refine .live (Only.next (.ite ?_ .refl))
  extract_lets best
  clear_value best
  split
  · exact (suspendHead_only ..).mono
  · exact .refl
theorem execHeadResumeTick_only (s) : OnlyNext { evt := true, mqs := true, alks := true, islands := true, bol := true, heads := true, gov := true, tx := true, free := true } s (execHeadResumeTick s) := by
  unfold execHeadResumeTick
  refine .live ?_
  refine Only.next ?_
  refine .ite .refl ?_
  split
  · exact (post_only ..).after (.upd .refl)
  · exact .ite .refl (.ite ((mqNote_only ..).after ((sendMode_only ..).after ((modIsl_only ..).after ((modHead_only ..).after (.upd .refl))))) ((mqNote_only ..).after ((modHead_only ..).after (.upd .refl))))
theorem tryBuild_only (row s) : Only { diag := true, mrc := true, mpd := true, rows := true, links := true, injs := true, hop := true, slu := true, tx := true } s (tryBuild row s) := by
  unfold tryBuild
  exact .ite ((startBuild_only ..).mono) .refl
theorem execRowBuild_only (s) : OnlyNext { diag := true, mrc := true, mpd := true, rows := true, links := true, injs := true, hop := true, slu := true, tx := true } s (execRowBuild s) := by
  unfold execRowBuild
  refine .live ?_
  refine Only.next ?_
  split
  · exact .refl
  · exact (startBuild_only ..).after (.ite (.upd .refl) .refl)
theorem execDirtyAgeExpiry_only (lba s) : OnlyNext { diag := true, mrc := true, mpd := true, rows := true, links := true, injs := true, hop := true, slu := true, tx := true } s (execDirtyAgeExpiry lba s) := by
  unfold execDirtyAgeExpiry
  refine .live ?_
  refine Only.next ?_
  extract_lets
  split
  · exact .ite ((tryBuild_only ..).after (.ite .refl (.upd .refl))) .refl
  · exact .refl
theorem execPinWaitExpiry_only (row s) : OnlyNext { mpd := true, slu := true } s (execPinWaitExpiry row s) := by
  unfold execPinWaitExpiry
  exact .live (Only.next (.ite ((readWorks_only ..).after (.upd .refl)) .refl))
theorem refetchRow_only (r s) : Only { mpd := true, hop := true, slu := true } s (refetchRow r s) := by
  unfold refetchRow
  refine .each (fun _ _ => ?_) .refl
  split
  · exact .refl
  · refine .ite .refl ?_
    extract_lets
    split
    · exact (modCmd_only ..).after (.upd .refl)
    · exact (fetchRow_only ..).after ((modCmd_only ..).after (.upd .refl))
theorem settleWaits_only (lba v s) : Only { hop := true } s (settleWaits lba v s) := by
  unfold settleWaits
  exact .upd .refl
theorem loseWaits_only (lba v s) : Only { hop := true } s (loseWaits lba v s) := by
  unfold loseWaits
  exact .upd .refl
theorem releaseRow_only (row s) : Only { hold := true, diag := true, mpd := true, links := true, injs := true, hop := true, tx := true } s (releaseRow row s) := by
  unfold releaseRow
  exact .each (fun _ _ => .ite (.upd (.upd ((settleWaits_only ..).after ((setState_only ..).after (.each (fun _ _ => (setEntry_only ..).mono) ((dropClean_only ..).mono)))))) .refl) .refl
theorem listRow_only (k q listed s) : Only { layout := true, links := true, injs := true, tx := true } s (listRow k q listed s) := by
  unfold listRow
  exact .ite .refl ((saveCursor_only ..).after ((mirror_only ..).after ((modRebuild_only ..).mono)))
theorem stepCursor_only (k s) : Only { layout := true, links := true, injs := true, tx := true } s (stepCursor k s) := by
  unfold stepCursor
  exact .ite ((saveCursor_only ..).after ((modRebuild_only ..).mono)) ((modRebuild_only ..).mono)
theorem rebuiltRow_only (a q heads s) : Only { layout := true, links := true, injs := true, tx := true } s (rebuiltRow a q heads s) := by
  unfold rebuiltRow
  exact .each (fun _ _ => .ite (.ite ((stepCursor_only ..).after ((listRow_only ..).mono)) ((listRow_only ..).mono)) .refl) .refl
theorem recordRun_only (x s) : Only { layout := true, links := true, injs := true, tx := true } s (recordRun x s) := by
  unfold recordRun
  exact (mirror_only ..).after (.upd .refl)
theorem movedRow_only (s) : Only { evt := true, layout := true, gov := true, links := true, injs := true, tx := true } s (movedRow s) := by
  unfold movedRow
  split
  · exact .refl
  · exact (post_only ..).after ((recordRun_only ..).after (.upd .refl))
theorem advanceDrain_only (s) : Only (.but { aon := true, idn := true, fuses := true, clk := true, pwr := true, img := true, nvm := true, bol := true, rows := true, fcc := true, pending := true, intake := true }) s (advanceDrain s) := by
  unfold advanceDrain
  exact .ite (.ite (.ite ((beginHandover_only ..).mono) .refl) ((failStop_only ..).after (.ite ((post_only ..).mono) .refl))) .refl
theorem commitRow_only (r s) : Only (.but { aon := true, idn := true, fuses := true, clk := true, pwr := true, img := true, nvm := true, fcc := true, pending := true, intake := true }) s (commitRow r s) := by
  unfold commitRow
  exact (advanceDrain_only ..).after ((advancePark_only ..).after ((recheck_only ..).after ((releaseFrames_only ..).after ((refetchRow_only ..).after (.ite ((mirror_only ..).after ((releaseRow_only ..).after ((dropParity_only ..).after (.ite (.upd (.each (fun _ _ => (dropClean_only ..).mono) (.ite (.each (fun _ _ => (enterDefect_only ..).mono) (.ite ((movedRow_only ..).after (.each (fun _ _ => .ite ((endFollowUp_only ..).mono) ((dropSec_only ..).mono)) .refl)) (.each (fun _ _ => (recordRun_only ..).mono) (.each (fun _ _ => .ite ((endFollowUp_only ..).mono) ((dropSec_only ..).mono)) .refl)))) ((cutProbes_only ..).after (.each (fun _ _ => (enterDefect_only ..).mono) (.ite ((movedRow_only ..).after (.each (fun _ _ => .ite ((endFollowUp_only ..).mono) ((dropSec_only ..).mono)) .refl)) (.each (fun _ _ => (recordRun_only ..).mono) (.each (fun _ _ => .ite ((endFollowUp_only ..).mono) ((dropSec_only ..).mono)) .refl)))))))) ((rebuiltRow_only ..).after (.upd (.each (fun _ _ => (dropClean_only ..).mono) (.ite (.each (fun _ _ => (enterDefect_only ..).mono) (.ite ((movedRow_only ..).after (.each (fun _ _ => .ite ((endFollowUp_only ..).mono) ((dropSec_only ..).mono)) .refl)) (.each (fun _ _ => (recordRun_only ..).mono) (.each (fun _ _ => .ite ((endFollowUp_only ..).mono) ((dropSec_only ..).mono)) .refl)))) ((cutProbes_only ..).after (.each (fun _ _ => (enterDefect_only ..).mono) (.ite ((movedRow_only ..).after (.each (fun _ _ => .ite ((endFollowUp_only ..).mono) ((dropSec_only ..).mono)) .refl)) (.each (fun _ _ => (recordRun_only ..).mono) (.each (fun _ _ => .ite ((endFollowUp_only ..).mono) ((dropSec_only ..).mono)) .refl))))))))))))) ((dropParity_only ..).after (.ite (.upd (.each (fun _ _ => (dropClean_only ..).mono) (.ite (.each (fun _ _ => (enterDefect_only ..).mono) (.ite ((movedRow_only ..).after (.each (fun _ _ => .ite ((endFollowUp_only ..).mono) ((dropSec_only ..).mono)) .refl)) (.each (fun _ _ => (recordRun_only ..).mono) (.each (fun _ _ => .ite ((endFollowUp_only ..).mono) ((dropSec_only ..).mono)) .refl)))) ((cutProbes_only ..).after (.each (fun _ _ => (enterDefect_only ..).mono) (.ite ((movedRow_only ..).after (.each (fun _ _ => .ite ((endFollowUp_only ..).mono) ((dropSec_only ..).mono)) .refl)) (.each (fun _ _ => (recordRun_only ..).mono) (.each (fun _ _ => .ite ((endFollowUp_only ..).mono) ((dropSec_only ..).mono)) .refl)))))))) ((rebuiltRow_only ..).after (.upd (.each (fun _ _ => (dropClean_only ..).mono) (.ite (.each (fun _ _ => (enterDefect_only ..).mono) (.ite ((movedRow_only ..).after (.each (fun _ _ => .ite ((endFollowUp_only ..).mono) ((dropSec_only ..).mono)) .refl)) (.each (fun _ _ => (recordRun_only ..).mono) (.each (fun _ _ => .ite ((endFollowUp_only ..).mono) ((dropSec_only ..).mono)) .refl)))) ((cutProbes_only ..).after (.each (fun _ _ => (enterDefect_only ..).mono) (.ite ((movedRow_only ..).after (.each (fun _ _ => .ite ((endFollowUp_only ..).mono) ((dropSec_only ..).mono)) .refl)) (.each (fun _ _ => (recordRun_only ..).mono) (.each (fun _ _ => .ite ((endFollowUp_only ..).mono) ((dropSec_only ..).mono)) .refl))))))))))))))))
theorem restartRow_only (row s) : Only { diag := true, mrc := true, mpd := true, rows := true, tre := true, links := true, injs := true, hop := true, slu := true, tx := true } s (restartRow row s) := by
  unfold restartRow
  split
  · exact .refl
  · exact .ite ((tryBuild_only ..).after (.upd ((refetchRow_only ..).after ((abandonRow_only ..).mono)))) ((refetchRow_only ..).after ((abandonRow_only ..).mono))
theorem execRowCommit_only (row s) : OnlyNext (.but { aon := true, idn := true, fuses := true, clk := true, pwr := true, img := true, nvm := true, fcc := true, pending := true, intake := true }) s (execRowCommit row s) := by
  unfold execRowCommit
  refine .live ?_
  refine Only.next ?_
  split
  · exact .refl
  · exact .ite .refl (.ite ((restartRow_only ..).mono) ((commitRow_only ..).mono))
theorem execCommitRecordFlush_only (s) : OnlyNext { mpd := true } s (execCommitRecordFlush s) := by
  unfold execCommitRecordFlush
  exact .live (Only.next (.ite .refl (.upd .refl)))
theorem mendFailed_only (a s) : Only { diag := true, bol := true, heads := true, mrc := true, mpd := true, rows := true, tre := true, links := true, injs := true, hop := true, slu := true, tx := true } s (mendFailed a s) := by
  unfold mendFailed
  exact .each (fun _ _ => (restartRow_only ..).mono) (.each (fun _ _ => .ite ((readWorks_only ..).after (.upd ((dropWork_only ..).mono))) (.upd ((dropWork_only ..).mono))) (.each (fun _ _ => .ite (.ite ((endFollowUp_only ..).mono) ((putSec_only ..).mono)) ((readWorks_only ..).after (.ite ((endFollowUp_only ..).mono) ((putSec_only ..).mono)))) .refl))
theorem execHeadFailDeclare_only (arm head s) : OnlyNext (.but { aon := true, idn := true, fuses := true, clk := true, pwr := true, img := true, nvm := true, fcc := true, pending := true, intake := true }) s (execHeadFailDeclare arm head s) := by
  unfold execHeadFailDeclare
  exact .live (Only.next (.ite ((mendFailed_only ..).after ((declareFailed_only ..).mono)) .refl))
theorem walkCursor_only (k n s) : Only { layout := true, links := true, injs := true, tx := true } s (walkCursor k n s) := by
  induction n generalizing s with
  | zero => exact .refl
  | succ n ih =>
    unfold walkCursor
    exact .ite .refl (.ite ((ih ..).after (stepCursor_only ..).mono) (.ite ((ih ..).after ((stepCursor_only ..).after (listRow_only ..).mono)) .refl))
theorem beginShare_only (kind a q h runs s) : Only { mpd := true, rows := true, slu := true } s (beginShare kind a q h runs s) := by
  unfold beginShare
  refine .ite ((rewriteRow_only ..).mono) ?_
  split
  · exact .refl
  · exact (readWorks_only ..).after (.upd .refl)
theorem beginMove_only (k a q h s) : Only { layout := true } s (beginMove k a q h s) := by
  unfold beginMove
  split
  · exact .refl
  · exact (modRebuild_only ..).after (.upd .refl)
theorem stepRebuild_only (a s) : Only { evt := true, layout := true, gov := true, mpd := true, rows := true, links := true, injs := true, slu := true, tx := true } s (stepRebuild a s) := by
  unfold stepRebuild
  refine .ite .refl ?_
  refine .each (fun _ _ => ?_) .refl
  refine .ite .refl ?_
  refine .ite ?_ ?_
  · split
    · exact .refl
    · exact .ite .refl ((beginShare_only ..).mono)
  · refine .ite .refl ?_
    extract_lets
    split
    · refine .ite ((rebuiltRow_only ..).after ((walkCursor_only ..).mono)) ?_
      split
      · exact (beginMove_only ..).after ((walkCursor_only ..).mono)
      · exact (beginShare_only ..).after ((walkCursor_only ..).mono)
    · exact .ite ((post_only ..).after ((saveCursor_only ..).after ((modRebuild_only ..).after ((walkCursor_only ..).mono)))) ((walkCursor_only ..).mono)
theorem retakeReaders_only (f s) : Only { diag := true, mrc := true, mpd := true, links := true, injs := true, hop := true, slu := true, tx := true } s (retakeReaders f s) := by
  unfold retakeReaders
  refine .each (fun _ _ => ?_) (.upd .refl)
  split
  · exact .refl
  · split
    · exact (pumpRead_only ..).after ((retakeBlock_only ..).mono)
    · exact .refl
theorem loseReaders_only (f s) : Only { diag := true, mrc := true, mpd := true, links := true, injs := true, hop := true, tx := true } s (loseReaders f s) := by
  unfold loseReaders
  exact .each (fun _ _ => (pumpRead_only ..).after ((modCmd_only ..).mono)) (.upd .refl)
theorem freeEntry_only (f s) : Only { diag := true, mpd := true, links := true, injs := true, tx := true } s (freeEntry f s) := by
  unfold freeEntry
  exact (mirror_only ..).after (.upd ((setFrame_only ..).after ((setEntry_only ..).mono)))
theorem grantAgain_only (f arr idx s) : Only { diag := true, mpd := true, hop := true } s (grantAgain f arr idx s) := by
  unfold grantAgain
  extract_lets
  split
  · exact .upd ((setFrame_only ..).after ((setEntry_only ..).mono))
  · exact (modHopPort_only ..).after ((modCmd_only ..).after (.upd ((setFrame_only ..).after ((setEntry_only ..).mono))))
theorem loseDirty_only (f s) : Only { evt := true, mqs := true, diag := true, layout := true, gov := true, mrc := true, mpd := true, links := true, injs := true, hop := true, slu := true, tx := true, free := true } s (loseDirty f s) := by
  unfold loseDirty
  extract_lets
  split
  · exact .ite ((complete_only ..).after ((withdrawLanding_only ..).after ((withdraw_only ..).mono))) ((grantAgain_only ..).mono)
  · exact .ite ((recheck_only ..).after ((loseWaits_only ..).after ((raiseDeferred_only ..).after ((post_only ..).after ((freeEntry_only ..).after ((loseReaders_only ..).mono)))))) ((recheck_only ..).after ((withdraw_only ..).mono))
theorem ueFrame_only (f s) : Only { evt := true, mqs := true, ptn := true, diag := true, layout := true, gov := true, mrc := true, mpd := true, rows := true, tre := true, links := true, injs := true, hop := true, slu := true, tx := true, free := true } s (ueFrame f s) := by
  unfold ueFrame
  refine .ite ((retakeReaders_only ..).after ((setFrame_only ..).after (.upd .refl))) ?_
  refine .ite ?_ (.ite .refl (.ite ((ptnSend_only ..).after (.upd .refl)) (.ite ((retakeReaders_only ..).after ((freeEntry_only ..).mono)) (.ite ((freeEntry_only ..).after ((loseReaders_only ..).mono)) (.ite (.ite (.upd .refl) ((loseDirty_only ..).after ((abandonRow_only ..).mono))) ((loseDirty_only ..).mono))))))
  split
  · exact (restartRow_only ..).mono
  · exact .refl
theorem loseGone_only (row s) : Only { evt := true, mqs := true, diag := true, layout := true, gov := true, mrc := true, mpd := true, rows := true, tre := true, links := true, injs := true, hop := true, slu := true, tx := true, free := true } s (loseGone row s) := by
  unfold loseGone
  exact .ite .refl (.each (fun _ _ => (loseDirty_only ..).mono) ((abandonRow_only ..).mono))
theorem fromCache_only (a s) : Only { bol := true } s (fromCache a s) := by
  unfold fromCache
  refine .each (fun _ _ => ?_) .refl
  refine .each (fun _ _ => ?_) .refl
  split
  · exact .ite ((putSec_only ..).mono) .refl
  · exact .refl
theorem planPrefetch_only (a s) : Only { slu := true } s (planPrefetch a s) := by
  unfold planPrefetch
  refine .ite .refl ?_
  refine .each (fun _ _ => ?_) .refl
  refine .each (fun _ _ => ?_) .refl
  split
  · exact .refl
  · exact .ite .refl ((addWork_only ..).mono)
theorem noteFantail_only (a s) : Only { evt := true, gov := true, slu := true } s (noteFantail a s) := by
  unfold noteFantail
  exact .ite ((post_only ..).after (.upd .refl)) .refl
theorem setZone_only (n z s) : Only { alks := true, islands := true, heads := true, tx := true, free := true } s (setZone n z s) := by
  unfold setZone
  exact .ite .refl ((sendTables_only ..).mono)
theorem openSectors_only (o s) : Only { evt := true, mqs := true, diag := true, layout := true, bol := true, gov := true, mrc := true, mpd := true, rows := true, tre := true, links := true, injs := true, hop := true, slu := true, tx := true, free := true } s (openSectors o s) := by
  unfold openSectors
  refine .ite ?_ ?_
  · split
    · exact .refl
    · exact .each (fun _ _ => (modRowSec_only ..).mono) (.ite ((modRow_only ..).mono) .refl)
  · refine .each (fun _ _ => ?_) .refl
    extract_lets
    split
    · split
      · exact .ite .refl ((deliverInfo_only ..).mono)
      · exact .refl
    · exact (wantSec_only ..).mono
theorem endArmSines_only (a s) : Only { gov := true } s (endArmSines a s) := by
  unfold endArmSines
  exact .each (fun _ _ => (endSines_only ..).mono) .refl
theorem restLeft_only (a keep s) : Only { alks := true, islands := true, heads := true, tx := true } s (restLeft a keep s) := by
  unfold restLeft
  exact .each (fun _ _ => .ite ((restHead_only ..).mono) .refl) .refl
theorem grant_only (w s) : Only { evt := true, mqs := true, diag := true, layout := true, alks := true, islands := true, bol := true, heads := true, arms := true, gov := true, mrc := true, mpd := true, rows := true, tre := true, links := true, injs := true, hop := true, slu := true, tx := true, free := true } s (grant w s) := by
  unfold grant
  refine (openSectors_only ..).after ?_
  split
  · exact .each (fun _ _ => (beginStep_only ..).mono) (.ite (.ite (.each (fun _ _ => (setZone_only ..).mono) ((restLeft_only ..).after (.ite ((endArmSines_only ..).after (.upd (.each (fun _ _ => (reserveSlot_only ..).mono) ((takeInner_only ..).mono)))) (.upd (.each (fun _ _ => (reserveSlot_only ..).mono) ((takeInner_only ..).mono)))))) ((moveArm_only ..).after (.each (fun _ _ => (setZone_only ..).mono) ((restLeft_only ..).after (.ite ((endArmSines_only ..).after (.upd (.each (fun _ _ => (reserveSlot_only ..).mono) ((takeInner_only ..).mono)))) (.upd (.each (fun _ _ => (reserveSlot_only ..).mono) ((takeInner_only ..).mono)))))))) (.each (fun _ _ => (engageHead_only ..).mono) (.ite (.each (fun _ _ => (setZone_only ..).mono) ((restLeft_only ..).after (.ite ((endArmSines_only ..).after (.upd (.each (fun _ _ => (reserveSlot_only ..).mono) ((takeInner_only ..).mono)))) (.upd (.each (fun _ _ => (reserveSlot_only ..).mono) ((takeInner_only ..).mono)))))) ((moveArm_only ..).after (.each (fun _ _ => (setZone_only ..).mono) ((restLeft_only ..).after (.ite ((endArmSines_only ..).after (.upd (.each (fun _ _ => (reserveSlot_only ..).mono) ((takeInner_only ..).mono)))) (.upd (.each (fun _ _ => (reserveSlot_only ..).mono) ((takeInner_only ..).mono))))))))))
  · exact .ite (.ite (.each (fun _ _ => (setZone_only ..).mono) ((restLeft_only ..).after (.ite ((endArmSines_only ..).after (.upd (.each (fun _ _ => (reserveSlot_only ..).mono) ((takeInner_only ..).mono)))) (.upd (.each (fun _ _ => (reserveSlot_only ..).mono) ((takeInner_only ..).mono)))))) ((moveArm_only ..).after (.each (fun _ _ => (setZone_only ..).mono) ((restLeft_only ..).after (.ite ((endArmSines_only ..).after (.upd (.each (fun _ _ => (reserveSlot_only ..).mono) ((takeInner_only ..).mono)))) (.upd (.each (fun _ _ => (reserveSlot_only ..).mono) ((takeInner_only ..).mono)))))))) (.each (fun _ _ => (engageHead_only ..).mono) (.ite (.each (fun _ _ => (setZone_only ..).mono) ((restLeft_only ..).after (.ite ((endArmSines_only ..).after (.upd (.each (fun _ _ => (reserveSlot_only ..).mono) ((takeInner_only ..).mono)))) (.upd (.each (fun _ _ => (reserveSlot_only ..).mono) ((takeInner_only ..).mono)))))) ((moveArm_only ..).after (.each (fun _ _ => (setZone_only ..).mono) ((restLeft_only ..).after (.ite ((endArmSines_only ..).after (.upd (.each (fun _ _ => (reserveSlot_only ..).mono) ((takeInner_only ..).mono)))) (.upd (.each (fun _ _ => (reserveSlot_only ..).mono) ((takeInner_only ..).mono)))))))))
theorem noteHeat_only (a s) : Only { slu := true } s (noteHeat a s) := by
  unfold noteHeat
  exact .upd .refl
theorem execOperationGrant_only (arm s) : OnlyNext (.but { dev := true, aon := true, start := true, idn := true, fuses := true, clk := true, flt := true, ptn := true, hold := true, nvm := true, spn := true, spc := true, fls := true, fcc := true, pending := true, intake := true }) s (execOperationGrant arm s) := by
  unfold execOperationGrant
  refine .live ?_
  refine Only.next ?_
  refine .ite ((checkFloor_only ..).mono) ?_
  extract_lets
  split
  · exact (restLeft_only ..).after ((noteHeat_only ..).after (.ite ((dropWork_only ..).after ((noteFantail_only ..).after ((planVisits_only ..).after ((planPrefetch_only ..).after ((fromCache_only ..).after ((stepRebuild_only ..).after ((mendFailed_only ..).after ((applyDue_only ..).after ((checkFloor_only ..).mono))))))))) (.upd ((dropWork_only ..).after ((noteFantail_only ..).after ((planVisits_only ..).after ((planPrefetch_only ..).after ((fromCache_only ..).after ((stepRebuild_only ..).after ((mendFailed_only ..).after ((applyDue_only ..).after ((checkFloor_only ..).mono))))))))))))
  · exact .ite ((loseGone_only ..).after ((noteHeat_only ..).after (.ite ((dropWork_only ..).after ((noteFantail_only ..).after ((planVisits_only ..).after ((planPrefetch_only ..).after ((fromCache_only ..).after ((stepRebuild_only ..).after ((mendFailed_only ..).after ((applyDue_only ..).after ((checkFloor_only ..).mono))))))))) (.upd ((dropWork_only ..).after ((noteFantail_only ..).after ((planVisits_only ..).after ((planPrefetch_only ..).after ((fromCache_only ..).after ((stepRebuild_only ..).after ((mendFailed_only ..).after ((applyDue_only ..).after ((checkFloor_only ..).mono))))))))))))) (.ite ((grant_only ..).after ((noteHeat_only ..).after (.ite ((dropWork_only ..).after ((noteFantail_only ..).after ((planVisits_only ..).after ((planPrefetch_only ..).after ((fromCache_only ..).after ((stepRebuild_only ..).after ((mendFailed_only ..).after ((applyDue_only ..).after ((checkFloor_only ..).mono))))))))) (.upd ((dropWork_only ..).after ((noteFantail_only ..).after ((planVisits_only ..).after ((planPrefetch_only ..).after ((fromCache_only ..).after ((stepRebuild_only ..).after ((mendFailed_only ..).after ((applyDue_only ..).after ((checkFloor_only ..).mono))))))))))))) (.ite ((restLeft_only ..).after ((noteHeat_only ..).after (.ite ((dropWork_only ..).after ((noteFantail_only ..).after ((planVisits_only ..).after ((planPrefetch_only ..).after ((fromCache_only ..).after ((stepRebuild_only ..).after ((mendFailed_only ..).after ((applyDue_only ..).after ((checkFloor_only ..).mono))))))))) (.upd ((dropWork_only ..).after ((noteFantail_only ..).after ((planVisits_only ..).after ((planPrefetch_only ..).after ((fromCache_only ..).after ((stepRebuild_only ..).after ((mendFailed_only ..).after ((applyDue_only ..).after ((checkFloor_only ..).mono))))))))))))) ((restLeft_only ..).after (.upd ((noteHeat_only ..).after (.ite ((dropWork_only ..).after ((noteFantail_only ..).after ((planVisits_only ..).after ((planPrefetch_only ..).after ((fromCache_only ..).after ((stepRebuild_only ..).after ((mendFailed_only ..).after ((applyDue_only ..).after ((checkFloor_only ..).mono))))))))) (.upd ((dropWork_only ..).after ((noteFantail_only ..).after ((planVisits_only ..).after ((planPrefetch_only ..).after ((fromCache_only ..).after ((stepRebuild_only ..).after ((mendFailed_only ..).after ((applyDue_only ..).after ((checkFloor_only ..).mono))))))))))))))))
theorem execIslandGateOff_only (arm s) : OnlyNext (.but { aon := true, idn := true, fuses := true, clk := true, nvm := true, fcc := true, pending := true, intake := true }) s (execIslandGateOff arm s) := by
  unfold execIslandGateOff
  refine .live ?_
  refine Only.next ?_
  split
  · exact .refl
  · exact .ite .refl ((advancePark_only ..).after (.each (fun _ _ => (forgetRow_only ..).mono) ((passesEnded_only ..).after (.upd (.ite (.upd ((freeInner_only ..).after ((visitEnded_only ..).after (.each (fun _ _ => .ite ((laserOff_only ..).mono) ((restHead_only ..).mono)) .refl)))) ((freeInner_only ..).after ((visitEnded_only ..).after (.each (fun _ _ => .ite ((laserOff_only ..).mono) ((restHead_only ..).mono)) .refl))))))))
theorem decodedPwm_only (v s) : Only { dev := true, start := true, evt := true, gov := true, spn := true, spc := true, hop := true, slu := true, tx := true } s (decodedPwm v s) := by
  unfold decodedPwm
  exact (refreshBudget_only ..).after (.upd (.upd .refl))
theorem startPwm_only (s) : Only { dev := true, start := true, evt := true, gov := true, spn := true, spc := true, hop := true, slu := true, tx := true } s (startPwm s) := by
  unfold startPwm
  exact .ite ((refreshBudget_only ..).after (.upd (.upd .refl))) .refl
theorem leaveConfiguring_only (s) : Only { dev := true, start := true, evt := true, gov := true, spn := true, spc := true, hop := true, slu := true, tx := true } s (leaveConfiguring s) := by
  unfold leaveConfiguring
  exact .ite .refl (.ite ((startPwm_only ..).mono) ((startPwm_only ..).after ((refreshBudget_only ..).after (.upd .refl))))
theorem execBudgetPwmPeriod_only (period high s) : OnlyNext { dev := true, start := true, pwr := true, evt := true, gov := true, spn := true, spc := true, hop := true, slu := true, tx := true } s (execBudgetPwmPeriod period high s) := by
  unfold execBudgetPwmPeriod
  exact .live (Only.next (.ite ((decodedPwm_only ..).after (.upd (.upd .refl))) (.upd .refl)))
theorem execBudgetPwmSilence_only (s) : OnlyNext { pwr := true, slu := true, free := true } s (execBudgetPwmSilence s) := by
  unfold execBudgetPwmSilence
  exact .live (Only.next (.ite (.upd ((nextFree_only ..).after (.upd .refl))) ((nextFree_only ..).after (.upd .refl))))
theorem execBpwmHoldExpiry_only (s) : OnlyNext { dev := true, start := true, evt := true, gov := true, spn := true, spc := true, hop := true, slu := true, tx := true } s (execBpwmHoldExpiry s) := by
  unfold execBpwmHoldExpiry
  exact .live (Only.next (.ite ((decodedPwm_only ..).after ((post_only ..).after (.upd .refl))) .refl))
theorem execPwmRiseSettle_only (s) : OnlyNext { dev := true, start := true, evt := true, gov := true, spn := true, spc := true, hop := true, slu := true, tx := true } s (execPwmRiseSettle s) := by
  unfold execPwmRiseSettle
  exact .live (Only.next (.ite ((refreshBudget_only ..).after (.upd (.upd .refl))) .refl))
theorem refillSlot_only (k s) : Only { diag := true, mrc := true, mpd := true, links := true, injs := true, hop := true, slu := true, tx := true } s (refillSlot k s) := by
  unfold refillSlot
  refine .ite ?_ .refl
  split
  · exact .ite ((pumpRead_only ..).after ((retakeBlock_only ..).after ((modSlot_only ..).mono))) .refl
  · exact .refl
theorem ueResponse_only (c s) : Only { evt := true, mqs := true, ptn := true, diag := true, layout := true, gov := true, mrc := true, mpd := true, rows := true, tre := true, links := true, injs := true, hop := true, slu := true, tx := true, free := true } s (ueResponse c s) := by
  unfold ueResponse
  split
  · exact (refillSlot_only ..).mono
  · exact .ite .refl (.ite ((ptnSend_only ..).after (.upd .refl)) ((ueFrame_only ..).mono))
  · exact .ite .refl (.each (fun _ _ => .ite ((ueFrame_only ..).mono) .refl) .refl)
theorem noteUe_only (p burst s) : Only { mpd := true } s (noteUe p burst s) := by
  unfold noteUe
  exact (modChan_only ..).mono
theorem ueCounted_only (c s) : Only { mpd := true } s (ueCounted c s) := by
  unfold ueCounted
  split
  · exact .refl
  · exact (noteUe_only ..).mono
  · exact (noteUe_only ..).mono
theorem noSpare_only (s) : Only (.but { aon := true, idn := true, fuses := true, clk := true, pwr := true, img := true, nvm := true, bol := true, rows := true, fcc := true, pending := true, intake := true }) s (noSpare s) := by
  unfold noSpare
  exact .ite ((failStop_only ..).after ((post_only ..).after (.upd .refl))) ((advanceDrain_only ..).after (.upd .refl))
theorem migrate_only (logical cause s) : Only (.but { aon := true, idn := true, fuses := true, clk := true, pwr := true, img := true, nvm := true, bol := true, fcc := true, pending := true, intake := true }) s (migrate logical cause s) := by
  unfold migrate
  split
  · exact .refl
  · exact .ite .refl (.ite (.ite .refl ((noSpare_only ..).after (.ite (.each (fun _ _ => (ueResponse_only ..).after ((post_only ..).mono)) ((modChan_only ..).mono)) ((modChan_only ..).mono)))) (.ite (.each (fun _ _ => (ueResponse_only ..).after ((post_only ..).mono)) (.ite ((openCause_only ..).after ((report_only ..).after ((mqNote_only ..).after ((post_only ..).after (.upd ((modChan_only ..).after ((modChan_only ..).mono))))))) ((mqNote_only ..).after ((post_only ..).after (.upd ((modChan_only ..).after ((modChan_only ..).mono))))))) (.ite ((openCause_only ..).after ((report_only ..).after ((mqNote_only ..).after ((post_only ..).after (.upd ((modChan_only ..).after ((modChan_only ..).mono))))))) ((mqNote_only ..).after ((post_only ..).after (.upd ((modChan_only ..).after ((modChan_only ..).mono))))))))
theorem execMigrationStart_only (logical cause s) : OnlyNext (.but { aon := true, idn := true, fuses := true, clk := true, pwr := true, img := true, nvm := true, bol := true, fcc := true, pending := true, intake := true }) s (execMigrationStart logical cause s) := by
  unfold execMigrationStart
  exact .live (Only.next (.ite ((migrate_only ..).mono) .refl))
theorem copyUnits_only (t0 t1 s) : Only { mpd := true } s (copyUnits t0 t1 s) := by
  unfold copyUnits
  exact .ite (.upd .refl) .refl
theorem execMigrationComplete_only (s) : OnlyNext { flt := true, evt := true, mqs := true, gov := true, mpd := true, tx := true, free := true } s (execMigrationComplete s) := by
  unfold execMigrationComplete
  exact .live (Only.next (.ite ((mqNote_only ..).after ((post_only ..).after ((closeCause_only ..).after (.upd (.each (fun _ _ => (modChan_only ..).mono) .refl))))) .refl))
theorem scrubBeat_post_only (injected f s) : Only { evt := true, gov := true } s (scrubBeat.post' injected f s) := by
  unfold scrubBeat.post'
  exact (postInj_only ..).mono
theorem scrubBeat_only (p burst beat syn s) : Only (.but { aon := true, start := true, idn := true, fuses := true, clk := true, pwr := true, hold := true, img := true, nvm := true, bol := true, arms := true, spn := true, spc := true, fls := true, fcc := true, pending := true, intake := true }) s (scrubBeat p burst beat syn s) := by
  unfold scrubBeat
  exact .ite .refl (.ite ((report_only ..).after ((dropTags_only ..).after ((modChan_only ..).mono))) ((ueResponse_only ..).after ((report_only ..).after ((scrubBeat_post_only ..).after ((noteUe_only ..).mono)))))
theorem execScrubRead_only (channel syndromes s) : OnlyNext (.but { aon := true, idn := true, fuses := true, clk := true, pwr := true, img := true, nvm := true, bol := true, fcc := true, pending := true, intake := true }) s (execScrubRead channel syndromes s) := by
  unfold execScrubRead
  exact .live (Only.next (.ite .refl (.ite ((migrate_only ..).after (.each (fun _ _ => (scrubBeat_only ..).mono) (.ite ((modChan_only ..).mono) ((mqNote_only ..).after ((modChan_only ..).mono))))) (.ite ((migrate_only ..).after (.each (fun _ _ => (scrubBeat_only ..).mono) (.ite ((modChan_only ..).mono) ((mqNote_only ..).after ((modChan_only ..).mono))))) (.each (fun _ _ => (scrubBeat_only ..).mono) (.ite ((modChan_only ..).mono) ((mqNote_only ..).after ((modChan_only ..).mono))))))))
theorem loseSpare_only (trained s) : Only { evt := true, gov := true, mpd := true } s (loseSpare trained s) := by
  unfold loseSpare
  exact .ite .refl ((post_only ..).after (.upd ((modChan_only ..).mono)))
theorem execSparePatternTest_only (pass s) : OnlyNext { evt := true, gov := true, mpd := true } s (execSparePatternTest pass s) := by
  unfold execSparePatternTest
  exact .live (Only.next (.ite .refl (.ite (.upd .refl) ((loseSpare_only ..).after (.upd .refl)))))
theorem execSpareChannelTrainingLoss_only (s) : OnlyNext { evt := true, gov := true, mpd := true } s (execSpareChannelTrainingLoss s) := by
  unfold execSpareChannelTrainingLoss
  exact .live (Only.next ((loseSpare_only ..).mono))
theorem execDramRefresh_only (channel s) : OnlyNext { mpd := true } s (execDramRefresh channel s) := by
  unfold execDramRefresh
  exact .live (Only.next (.ite .refl ((modChan_only ..).mono)))
theorem execZqCalShort_only (channel s) : OnlyNext { mpd := true } s (execZqCalShort channel s) := by
  unfold execZqCalShort
  exact .live (Only.next (.ite .refl ((modChan_only ..).mono)))
theorem endPass_only (d s) : Only { tre := true } s (endPass d s) := by
  unfold endPass
  exact .upd .refl
theorem cutPass_only (d n s) : Only { alks := true, heads := true, rows := true, slu := true, tx := true } s (cutPass d n s) := by
  unfold cutPass
  exact .each (fun _ _ => (stopWriter_only ..).mono) ((voidArm_only ..).mono)
theorem haltChannelAs_only (write ch cause addr elem inj s) : Only { dev := true, flt := true, evt := true, mqs := true, alks := true, islands := true, heads := true, gov := true, mrc := true, rows := true, tre := true, slu := true, fan := true, tx := true, free := true } s (haltChannelAs write ch cause addr elem inj s) := by
  unfold haltChannelAs
  extract_lets
  split
  · exact .ite ((endPass_only ..).after ((cutPass_only ..).after ((report_only ..).after ((mqSend_only ..).after ((pulse_only ..).after ((modTre_only ..).mono)))))) ((report_only ..).after ((mqSend_only ..).after ((pulse_only ..).after ((modTre_only ..).mono))))
  · exact (report_only ..).after ((mqSend_only ..).after ((pulse_only ..).after ((modTre_only ..).mono)))
theorem haltChannel_only (ch cause addr elem inj s) : Only { dev := true, flt := true, evt := true, mqs := true, alks := true, islands := true, heads := true, gov := true, mrc := true, rows := true, tre := true, slu := true, fan := true, tx := true, free := true } s (haltChannel ch cause addr elem inj s) := by
  unfold haltChannel
  exact (haltChannelAs_only ..).mono
theorem dropDesc_only (ch s) : Only { tre := true } s (dropDesc ch s) := by
  unfold dropDesc
  exact (modTre_only ..).mono
theorem noteRefused_only (addr s) : Only { evt := true, gov := true, fls := true } s (noteRefused addr s) := by
  unfold noteRefused
  split
  · exact .ite ((post_only ..).after (.upd .refl)) .refl
  · exact .refl
theorem sendSector_only (n d s) : Only { diag := true, mpd := true, tre := true } s (sendSector n d s) := by
  unfold sendSector
  split <;> exact .upd (.ite .refl ((putParityAt_only ..).mono))
theorem moveElem_only (n d s) : Only { diag := true, mrc := true, mpd := true, tre := true, fls := true, links := true, injs := true, tx := true } s (moveElem n d s).2 := by
  unfold moveElem
  extract_lets
  split
  · split
    · exact .refl
    · exact (sendSector_only ..).mono
  · split
    · split
      · exact .refl
      · exact .refl
    · split
      · exact .refl
      · exact .ite ((mirrorUnit_only ..).after (Only.of_eq_snd ((moveUnit_only ..).mono) ‹_›)) (Only.of_eq_snd ((moveUnit_only ..).mono) ‹_›)
theorem moveElems_only (ch d k n s) : Only { dev := true, flt := true, evt := true, mqs := true, diag := true, alks := true, islands := true, heads := true, gov := true, mrc := true, mpd := true, rows := true, tre := true, fls := true, links := true, injs := true, slu := true, fan := true, tx := true, free := true } s (moveElems ch d k n s).2 := by
  induction k generalizing n s with
  | zero => exact .refl
  | succ k ih =>
    unfold moveElems
    split
    · exact (haltChannelAs_only ..).after (noteRefused_only ..).mono
    · split
      · exact (haltChannel_only ..).after (Only.of_eq_snd (moveElem_only ..) ‹_›).mono
      · exact (ih ..).after (Only.of_eq_snd (moveElem_only ..) ‹_›).mono
theorem finishDesc_only (d s) : Only { tre := true } s (finishDesc d s) := by
  unfold finishDesc
  exact .ite ((endPass_only ..).mono) (.ite (.ite .refl (.upd .refl)) .refl)
theorem startDesc_only (ch s) : Only { dev := true, flt := true, evt := true, mqs := true, diag := true, alks := true, islands := true, heads := true, gov := true, mrc := true, rows := true, tre := true, slu := true, fan := true, tx := true, free := true } s (startDesc ch s) := by
  unfold startDesc
  extract_lets
  split
  · exact (modTre_only ..).mono
  · refine .ite .refl ?_
    refine .ite ((dropDesc_only ..).after ((pulseDone_only ..).mono)) ?_
    refine .ite ((haltChannel_only ..).after (.upd .refl)) ?_
    split
    · exact (haltChannel_only ..).mono
    · exact .ite (.upd ((modTre_only ..).mono)) ((modTre_only ..).mono)
theorem execDescriptorPost_only (ch d s) : OnlyNext { tre := true } s (execDescriptorPost ch d s) := by
  unfold execDescriptorPost
  exact .live (Only.next ((modTre_only ..).mono))
theorem execDescriptorStart_only (ch s) : OnlyNext { dev := true, flt := true, evt := true, mqs := true, diag := true, alks := true, islands := true, heads := true, gov := true, mrc := true, rows := true, tre := true, slu := true, fan := true, tx := true, free := true } s (execDescriptorStart ch s) := by
  unfold execDescriptorStart
  exact .live (Only.next (.ite ((startDesc_only ..).mono) .refl))
theorem execDescriptorDone_only (ch s) : OnlyNext { dev := true, flt := true, evt := true, mqs := true, diag := true, alks := true, islands := true, heads := true, gov := true, mrc := true, mpd := true, rows := true, tre := true, fls := true, links := true, injs := true, slu := true, fan := true, tx := true, free := true } s (execDescriptorDone ch s) := by
  unfold execDescriptorDone
  refine .live ?_
  refine Only.next ?_
  split
  · exact .refl
  · refine .ite .refl ?_
    split
    · exact Only.of_eq_snd ((moveElems_only ..).mono) ‹_›
    · exact (dropDesc_only ..).after ((pulseDone_only ..).after ((finishDesc_only ..).after (Only.of_eq_snd ((moveElems_only ..).mono) ‹_›)))
theorem execChannelHalt_only (ch cause address element s) : OnlyNext { dev := true, flt := true, evt := true, mqs := true, diag := true, alks := true, islands := true, heads := true, gov := true, mrc := true, mpd := true, rows := true, tre := true, fls := true, links := true, injs := true, slu := true, fan := true, tx := true, free := true } s (execChannelHalt ch cause address element s) := by
  unfold execChannelHalt
  refine .live ?_
  refine Only.next ?_
  split
  · exact .refl
  · refine .ite ?_ (.ite ((haltChannel_only ..).mono) .refl)
    split
    · exact Only.of_eq_snd ((moveElems_only ..).mono) ‹_›
    · exact (haltChannel_only ..).after (Only.of_eq_snd ((moveElems_only ..).mono) ‹_›)
theorem execTrePause_only (ch s) : OnlyNext { tre := true } s (execTrePause ch s) := by
  unfold execTrePause
  exact .live (Only.next ((modTre_only ..).mono))
theorem execTreResume_only (ch s) : OnlyNext { tre := true } s (execTreResume ch s) := by
  unfold execTreResume
  exact .live (Only.next ((modTre_only ..).mono))
theorem execTreFlush_only (ch s) : OnlyNext { tre := true } s (execTreFlush ch s) := by
  unfold execTreFlush
  exact .live (Only.next ((modTre_only ..).mono))
theorem haltRequester_only (m addr s) : Only { dev := true, flt := true, evt := true, mqs := true, alks := true, islands := true, heads := true, gov := true, mrc := true, rows := true, tre := true, slu := true, fan := true, tx := true, free := true } s (haltRequester m addr s) := by
  unfold haltRequester
  split
  · exact .refl
  · extract_lets
    split
    · exact .ite ((haltChannel_only ..).mono) .refl
    · exact .refl
theorem execMillpondUe_only (requester c s) : OnlyNext (.but { aon := true, start := true, idn := true, fuses := true, clk := true, pwr := true, hold := true, img := true, nvm := true, bol := true, arms := true, spn := true, spc := true, fls := true, fcc := true, pending := true, intake := true }) s (execMillpondUe requester c s) := by
  unfold execMillpondUe
  exact .live (Only.next ((ueResponse_only ..).after ((haltRequester_only ..).after ((report_only ..).after ((post_only ..).after ((ueCounted_only ..).mono))))))
theorem skipHalt_only (ch s) : Only { tre := true } s (skipHalt ch s) := by
  unfold skipHalt
  exact (dropDesc_only ..).mono
theorem cancelCtx_only (ch ctx sourcePresent s) : Only { dev := true, flt := true, evt := true, mqs := true, diag := true, alks := true, islands := true, heads := true, gov := true, mrc := true, mpd := true, rows := true, tre := true, fls := true, links := true, injs := true, slu := true, fan := true, tx := true, free := true } s (cancelCtx ch ctx sourcePresent s) := by
  unfold cancelCtx
  extract_lets
  split
  · exact (modTre_only ..).mono
  · refine .ite ((modTre_only ..).mono) ?_
    refine .ite ((skipHalt_only ..).after ((modTre_only ..).mono)) ?_
    refine .ite ?_ ((modTre_only ..).mono)
    extract_lets
    split
    · exact (skipHalt_only ..).after (Only.of_eq_snd ((moveElems_only ..).after ((nextFree_only ..).after ((modTre_only ..).mono))) ‹_›)
    · exact (dropDesc_only ..).after ((pulseDone_only ..).after ((endPass_only ..).after (Only.of_eq_snd ((moveElems_only ..).after ((nextFree_only ..).after ((modTre_only ..).mono))) ‹_›)))
theorem execTreCancel_only (ch ctx sourcePresent s) : OnlyNext { dev := true, flt := true, evt := true, mqs := true, diag := true, alks := true, islands := true, heads := true, gov := true, mrc := true, mpd := true, rows := true, tre := true, fls := true, links := true, injs := true, slu := true, fan := true, tx := true, free := true } s (execTreCancel ch ctx sourcePresent s) := by
  unfold execTreCancel
  exact .live (Only.next ((cancelCtx_only ..).mono))
theorem execTreRetry_only (ch s) : OnlyNext { dev := true, flt := true, evt := true, mqs := true, diag := true, alks := true, islands := true, heads := true, gov := true, mrc := true, rows := true, tre := true, slu := true, fan := true, tx := true, free := true } s (execTreRetry ch s) := by
  unfold execTreRetry
  refine .live ?_
  refine Only.next ?_
  split
  · exact .ite .refl (.ite ((startDesc_only ..).mono) ((modTre_only ..).mono))
  · exact .refl
theorem execTreRestart_only (ch s) : OnlyNext { dev := true, flt := true, evt := true, mqs := true, diag := true, alks := true, islands := true, heads := true, gov := true, mrc := true, rows := true, tre := true, slu := true, fan := true, tx := true, free := true } s (execTreRestart ch s) := by
  unfold execTreRestart
  exact .live (Only.next (.ite ((startDesc_only ..).mono) .refl))
theorem execTreSkip_only (ch s) : OnlyNext { tre := true } s (execTreSkip ch s) := by
  unfold execTreSkip
  exact .live (Only.next (.ite ((skipHalt_only ..).mono) .refl))
theorem injectHalt_only (ch s) : Only { dev := true, flt := true, evt := true, mqs := true, diag := true, alks := true, islands := true, heads := true, gov := true, mrc := true, rows := true, tre := true, slu := true, fan := true, tx := true, free := true } s (injectHalt ch s) := by
  unfold injectHalt
  exact .ite .refl (.ite ((haltChannel_only ..).mono) (.upd .refl))
theorem beginRead_only (arr s) : Only { diag := true, mrc := true, mpd := true, links := true, injs := true, hop := true, slu := true, tx := true } s (beginRead arr s) := by
  unfold beginRead
  split
  · exact .refl
  · extract_lets
    split
    · exact .each (fun _ _ => (takeBlock_only ..).mono) ((modCmd_only ..).mono)
    · exact (pumpRead_only ..).after (.each (fun _ _ => (fetchRow_only ..).mono) (.each (fun _ _ => (takeBlock_only ..).mono) ((modCmd_only ..).mono)))
theorem beginWaits_only (arr all s) : Only { diag := true, mrc := true, mpd := true, links := true, injs := true, hop := true, slu := true, tx := true } s (beginWaits arr all s) := by
  unfold beginWaits
  split
  · exact .refl
  · exact (recheck_only ..).after ((modCmd_only ..).mono)
theorem beginMedia_only (arr s) : Only { diag := true, mrc := true, mpd := true, links := true, injs := true, hop := true, slu := true, tx := true } s (beginMedia arr s) := by
  unfold beginMedia
  split
  · exact .refl
  · exact .ite ((beginRead_only ..).mono) (.ite ((modCmd_only ..).mono) (.ite ((beginWaits_only ..).mono) ((beginWaits_only ..).mono)))
theorem beginSpin_only (arr s) : Only (.but { aon := true, idn := true, fuses := true, clk := true, pwr := true, flt := true, mqs := true, hold := true, img := true, nvm := true, bol := true, fls := true, fcc := true, free := true, pending := true, intake := true }) s (beginSpin arr s) := by
  unfold beginSpin
  split
  · exact .refl
  · exact .ite ((trySpinUp_only ..).after ((complete_only ..).after (.upd .refl))) (.ite (.ite ((complete_only ..).after ((modCmd_only ..).after (.upd .refl))) (.ite ((trySpinUp_only ..).after (.upd ((modCmd_only ..).after (.upd .refl)))) ((modCmd_only ..).after (.upd .refl)))) (.ite ((complete_only ..).after (.upd ((modCmd_only ..).after (.upd .refl)))) (.ite (.upd ((modCmd_only ..).after (.upd .refl))) ((advancePark_only ..).after (.upd (.upd ((modCmd_only ..).after (.upd .refl))))))))
theorem releaseHeld_only (s) : Only (.but { aon := true, idn := true, fuses := true, clk := true, pwr := true, flt := true, mqs := true, hold := true, img := true, nvm := true, bol := true, fls := true, fcc := true, free := true, pending := true, intake := true }) s (releaseHeld s) := by
  unfold releaseHeld
  refine .each (fun _ _ => ?_) .refl
  split
  · exact .refl
  · exact .ite (.ite ((beginSpin_only ..).mono) .refl) (.ite .refl (.ite ((beginMedia_only ..).mono) .refl))
theorem enterReady_only (s) : Only (.but { aon := true, idn := true, fuses := true, clk := true, pwr := true, flt := true, mqs := true, hold := true, img := true, nvm := true, bol := true, fls := true, fcc := true, free := true, pending := true, intake := true }) s (enterReady s) := by
  unfold enterReady
  exact (recheck_only ..).after (.each (fun _ _ => (pumpRead_only ..).mono) ((releaseHeld_only ..).after ((completeSpin_only ..).after (.upd .refl))))
theorem execHoldLimitExpiry_only (p tag s) : OnlyNext { evt := true, diag := true, gov := true, mrc := true, mpd := true, links := true, injs := true, hop := true, tx := true } s (execHoldLimitExpiry p tag s) := by
  unfold execHoldLimitExpiry
  refine .live ?_
  refine Only.next ?_
  split
  · exact .refl
  · exact .ite .refl (.ite ((post_only ..).after ((modHopPort_only ..).after ((modHopPort_only ..).after ((complete_only ..).mono)))) ((modHopPort_only ..).after ((complete_only ..).mono)))
theorem claimFrame_only (w lba f s) : Only { mpd := true, hop := true } s (claimFrame w lba f s) := by
  unfold claimFrame
  exact .each (fun _ _ => .upd ((modCmd_only ..).mono)) .refl
theorem grantBlock_only (arr i s) : Only { diag := true, mpd := true, hop := true } s (grantBlock arr i s) := by
  unfold grantBlock
  split
  · exact .refl
  · split
    · exact .refl
    · exact (claimFrame_only ..).after ((modCmd_only ..).after ((setFrame_only ..).after ((setEntry_only ..).after ((takeFrame_only ‹_›).mono))))
theorem execWriteGrant_only (s) : OnlyNext { diag := true, mpd := true, hop := true } s (execWriteGrant s) := by
  unfold execWriteGrant
  refine .live ?_
  refine Only.next ?_
  refine .ite .refl ?_
  split
  · exact .refl
  · exact .ite (.ite (.each (fun _ _ => (grantBlock_only ..).mono) .refl) ((modCmd_only ..).mono)) ((modHopPort_only ..).after ((modCmd_only ..).after (.ite (.each (fun _ _ => (grantBlock_only ..).mono) .refl) ((modCmd_only ..).mono))))
theorem cancelDescs_only (c s) : Only { dev := true, flt := true, evt := true, mqs := true, diag := true, alks := true, islands := true, heads := true, gov := true, mrc := true, mpd := true, rows := true, tre := true, fls := true, links := true, injs := true, slu := true, fan := true, tx := true, free := true } s (cancelDescs c s) := by
  unfold cancelDescs
  exact .each (fun _ _ => (cancelCtx_only ..).mono) .refl
theorem abortCmd_only (c info s) : Only (.but { aon := true, start := true, idn := true, fuses := true, clk := true, pwr := true, ptn := true, hold := true, img := true, nvm := true, layout := true, bol := true, arms := true, spn := true, spc := true, fcc := true, pending := true, intake := true }) s (abortCmd c info s) := by
  unfold abortCmd
  exact (recheck_only ..).after (.each (fun _ _ => (pumpRead_only ..).mono) ((complete_only ..).after ((cancelDescs_only ..).after (.ite ((withdrawLanding_only ..).mono) .refl))))
theorem execWdataTimeout_only (p tag s) : OnlyNext (.but { aon := true, start := true, idn := true, fuses := true, clk := true, pwr := true, ptn := true, hold := true, img := true, nvm := true, layout := true, bol := true, arms := true, spn := true, spc := true, fcc := true, pending := true, intake := true }) s (execWdataTimeout p tag s) := by
  unfold execWdataTimeout
  refine .live ?_
  refine Only.next ?_
  split
  · exact .ite ((abortCmd_only ..).after ((modHopPort_only ..).mono)) .refl
  · exact .refl
theorem beginAbort_only (arr s) : Only (.but { aon := true, start := true, idn := true, fuses := true, clk := true, pwr := true, ptn := true, hold := true, img := true, nvm := true, layout := true, bol := true, arms := true, spn := true, spc := true, fcc := true, pending := true, intake := true }) s (beginAbort arr s) := by
  unfold beginAbort
  split
  · exact .refl
  · extract_lets
    split
    · exact (complete_only ..).mono
    · exact .ite ((complete_only ..).mono) (.ite ((complete_only ..).after ((abortCmd_only ..).mono)) ((modCmd_only ..).mono))
theorem execMqPacketWrite_only (q words s) : OnlyNext { dev := true, flt := true, evt := true, mqs := true, alks := true, islands := true, heads := true, gov := true, mrc := true, slu := true, fan := true, tx := true, free := true } s (execMqPacketWrite q words s) := by
  unfold execMqPacketWrite
  exact .live (Only.next (.ite ((report_only ..).mono) ((mqSend_only ..).mono)))
theorem mqServe_only (q waiting s) : Only { mqs := true, tx := true } s (mqServe q waiting s) := by
  induction waiting generalizing s with
  | nil => exact (modMq_only ..).mono
  | cons ws rest ih =>
    unfold mqServe
    exact .ite ((ih ..).after (mqAppend_only ..).mono) (modMq_only ..).mono
theorem mqAdvance_only (q s) : Only { mqs := true, tx := true } s (mqAdvance q s) := by
  unfold mqAdvance
  exact (mqServe_only ..).mono
theorem execMqProducerTimeout_only (q producer s) : OnlyNext { dev := true, flt := true, evt := true, mqs := true, alks := true, islands := true, heads := true, gov := true, mrc := true, rows := true, slu := true, fan := true, tx := true, free := true } s (execMqProducerTimeout q producer s) := by
  unfold execMqProducerTimeout
  refine .live ?_
  refine Only.next ?_
  split
  · exact .refl
  · extract_lets
    split
    · exact .ite (.each (fun _ _ => (voidSector_only ..).mono) ((report_only ..).after ((post_only ..).after ((mqAdvance_only ..).after ((modMq_only ..).mono))))) ((report_only ..).after ((post_only ..).after ((mqAdvance_only ..).after ((modMq_only ..).mono))))
    · exact (report_only ..).after ((post_only ..).after ((mqAdvance_only ..).after ((modMq_only ..).mono)))
theorem dropPacket_only (q k s) : Only { mqs := true } s (dropPacket q k s) := by
  unfold dropPacket
  exact (modMq_only ..).mono
theorem execMqPop_only (q ue s) : OnlyNext { dev := true, flt := true, evt := true, mqs := true, alks := true, islands := true, heads := true, gov := true, mrc := true, slu := true, fan := true, tx := true, free := true } s (execMqPop q ue s) := by
  unfold execMqPop
  refine .live ?_
  refine Only.next ?_
  split
  · exact (modMq_only ..).mono
  · exact .ite ((mqAdvance_only ..).after ((report_only ..).after ((dropPacket_only ..).after ((send_only ..).mono)))) ((mqAdvance_only ..).after ((mqTake_only ..).mono))
theorem execMqPopWatchdog_only (q s) : OnlyNext { mqs := true, tx := true } s (execMqPopWatchdog q s) := by
  unfold execMqPopWatchdog
  exact .live (Only.next (.ite ((send_only ..).after ((modMq_only ..).mono)) .refl))
theorem execTallyEventPost_only (code injected source payload s) : OnlyNext { evt := true, gov := true } s (execTallyEventPost code injected source payload s) := by
  unfold execTallyEventPost
  exact .live (Only.next ((takeEvent_only ..).after (.ite ((traceFire_only ..).mono) .refl)))
theorem execTallyFlushTimer_only (s) : OnlyNext { evt := true } s (execTallyFlushTimer s) := by
  unfold execTallyFlushTimer
  exact .live (Only.next (.ite ((programSector_only ..).mono) .refl))
theorem execTallyBlockErase_only (s) : OnlyNext { evt := true } s (execTallyBlockErase s) := by
  unfold execTallyBlockErase
  exact .live (Only.next (.ite (.upd .refl) .refl))
theorem execFaultReport_only (rs s) : OnlyNext { dev := true, flt := true, evt := true, mqs := true, alks := true, islands := true, heads := true, gov := true, mrc := true, slu := true, fan := true, tx := true, free := true } s (execFaultReport rs s) := by
  unfold execFaultReport
  exact .live (Only.next ((reportAll_only ..).mono))
theorem execFirstErrorCopy_only (s) : OnlyNext { flt := true, evt := true, gov := true } s (execFirstErrorCopy s) := by
  unfold execFirstErrorCopy
  exact .live (Only.next (.ite ((postInj_only ..).after (.upd .refl)) .refl))
theorem execQuietTimerExpiry_only (s) : OnlyNext { flt := true, gov := true } s (execQuietTimerExpiry s) := by
  unfold execQuietTimerExpiry
  exact .live (Only.next (.ite (.each (fun _ _ => .ite ((requestSwitch_only ..).mono) .refl) (.upd .refl)) .refl))
theorem resumeFrom_only (s) : Only (.but { aon := true, idn := true, fuses := true, clk := true, pwr := true, mqs := true, hold := true, img := true, nvm := true, bol := true, fls := true, fcc := true, free := true, pending := true, intake := true }) s (resumeFrom s) := by
  unfold resumeFrom
  exact .ite (.ite ((parkDone_only ..).after ((enterReady_only ..).after ((post_only ..).after (.upd .refl)))) ((advancePark_only ..).after ((enterReady_only ..).after ((post_only ..).after (.upd .refl))))) ((post_only ..).after (.upd .refl))
theorem execFaultHoldRelease_only (s) : OnlyNext (.but { idn := true, fuses := true, clk := true, pwr := true, img := true, nvm := true, bol := true, fcc := true, pending := true, intake := true }) s (execFaultHoldRelease s) := by
  unfold execFaultHoldRelease
  exact .live (Only.next (.ite (.ite ((resumeFrom_only ..).after (.upd .refl)) (.ite ((failStop_only ..).after ((post_only ..).mono)) ((resumeFrom_only ..).after (.upd .refl)))) .refl))
theorem execFailStop_only (cause s) : OnlyNext (.but { aon := true, idn := true, fuses := true, clk := true, pwr := true, img := true, nvm := true, bol := true, rows := true, fcc := true, pending := true, intake := true }) s (execFailStop cause s) := by
  unfold execFailStop
  exact .live (Only.next ((failStop_only ..).mono))
theorem coreTrap_only (core mem inHandler injected s) : Only (.but { aon := true, idn := true, fuses := true, clk := true, pwr := true, img := true, nvm := true, bol := true, rows := true, fcc := true, pending := true, intake := true }) s (coreTrap core mem inHandler injected s) := by
  unfold coreTrap
  exact .ite .refl (.ite ((failStopInj_only ..).after ((postInj_only ..).after (.upd ((report_only ..).after ((postInj_only ..).after (.upd .refl)))))) ((report_only ..).after ((postInj_only ..).after (.upd .refl))))
theorem execCoreTrap_only (core mem inHandler injected s) : OnlyNext (.but { aon := true, idn := true, fuses := true, clk := true, pwr := true, img := true, nvm := true, bol := true, rows := true, fcc := true, pending := true, intake := true }) s (execCoreTrap core mem inHandler injected s) := by
  unfold execCoreTrap
  exact .live (Only.next ((coreTrap_only ..).mono))
theorem dropTag_only (mem offset s) : Only { diag := true } s (dropTag mem offset s) := by
  unfold dropTag
  exact .upd .refl
theorem countCorrected_only (mem s) : Only (.but { aon := true, idn := true, fuses := true, clk := true, pwr := true, img := true, nvm := true, fcc := true, pending := true, intake := true }) s (countCorrected mem s) := by
  unfold countCorrected
  exact .ite ((modIsl_only ..).mono) (.ite (.upd .refl) (.ite (.upd .refl) (.ite (.upd .refl) (.ite (.ite ((migrate_only ..).after ((modChan_only ..).mono)) ((modChan_only ..).mono)) .refl))))
theorem loseLine_only (e s) : Only { evt := true, gov := true, fcc := true } s (loseLine e s) := by
  unfold loseLine
  exact (post_only ..).after ((modFce_only ..).mono)
theorem loseHeldFrame_only (l v s) : Only { links := true } s (loseHeldFrame l v s) := by
  unfold loseHeldFrame
  split
  · exact .refl
  · exact (modLink_only ..).mono
theorem patrolResponse_only (mem offset s) : Only (.but { aon := true, idn := true, fuses := true, clk := true, pwr := true, img := true, nvm := true, pending := true, intake := true }) s (patrolResponse mem offset s) := by
  unfold patrolResponse
  refine .ite ((failIsland_only ..).mono) ?_
  refine .ite ((ueResponse_only ..).after ((post_only ..).mono)) ?_
  refine .ite ((ueResponse_only ..).after ((post_only ..).after ((noteUe_only ..).mono))) ?_
  refine .ite ?_ (.ite ((failEngine_only ..).after ((nextFree_only ..).mono)) (.ite (.ite ((governorFail_only ..).after ((nextFree_only ..).mono)) ((nextFree_only ..).mono)) (.ite (.ite .refl ((haltChannel_only ..).mono)) (.ite (.ite ((haltChannel_only ..).mono) .refl) (.ite (.ite .refl ((mqAdvance_only ..).after ((dropPacket_only ..).after ((nextFree_only ..).mono)))) (.ite ((loseLine_only ..).mono) (.ite ((loseHeldFrame_only ..).after ((nextFree_only ..).mono)) (.ite ((voidArm_only ..).after ((post_only ..).mono)) (.ite (.upd .refl) .refl)))))))))
  split
  · exact (codewordFailed_only ..).after ((nextFree_only ..).mono)
  · exact .refl
theorem execSramPatrol_only (mem offset data check live_ otherBad s) : OnlyNext (.but { aon := true, idn := true, fuses := true, clk := true, pwr := true, img := true, nvm := true, pending := true, intake := true }) s (execSramPatrol mem offset data check live_ otherBad s) := by
  unfold execSramPatrol
  refine .live ?_
  refine Only.next ?_
  split
  · exact .refl
  · exact (countCorrected_only ..).after ((report_only ..).after ((dropTag_only ..).mono))
  · exact .ite ((report_only ..).after (.ite .refl ((dropTag_only ..).mono))) (.ite (.ite ((failStopInj_only ..).after ((report_only ..).after (.ite .refl ((dropTag_only ..).mono)))) ((dropTag_only ..).after ((report_only ..).after (.ite .refl ((dropTag_only ..).mono))))) ((patrolResponse_only ..).after ((report_only ..).after (.ite .refl ((dropTag_only ..).mono)))))
theorem notePool_only (s) : Only { evt := true, gov := true, fls := true } s (notePool s) := by
  unfold notePool
  exact .ite ((post_only ..).after (.upd .refl)) (.upd .refl)
theorem poolEmpty_only (s) : Only (.but { aon := true, idn := true, fuses := true, clk := true, pwr := true, img := true, nvm := true, bol := true, rows := true, fcc := true, pending := true, intake := true }) s (poolEmpty s) := by
  unfold poolEmpty
  exact .ite .refl ((advanceDrain_only ..).after (.upd .refl))
theorem moveBlock_only (kind bank rblock s) : Only (.but { aon := true, idn := true, fuses := true, clk := true, pwr := true, img := true, nvm := true, bol := true, rows := true, fcc := true, pending := true, intake := true }) s (moveBlock kind bank rblock s) := by
  unfold moveBlock
  split
  · exact (notePool_only ..).after (.upd ((modBlk_only ..).mono))
  · exact (poolEmpty_only ..).mono
theorem retireBlock_only (kind bank rblock s) : Only (.but { aon := true, idn := true, fuses := true, clk := true, pwr := true, img := true, nvm := true, bol := true, rows := true, fcc := true, pending := true, intake := true }) s (retireBlock kind bank rblock s) := by
  unfold retireBlock
  exact (notePool_only ..).after ((post_only ..).after ((moveBlock_only ..).after (.upd ((modBlk_only ..).mono))))
theorem flashAnswer_only (who status s) : Only { mqs := true, tx := true, free := true } s (flashAnswer who status s) := by
  unfold flashAnswer
  exact (mqNote_only ..).after ((send_only ..).mono)
theorem busReport_only (master access event addr s) : Only { dev := true, flt := true, evt := true, mqs := true, alks := true, islands := true, heads := true, gov := true, mrc := true, slu := true, fan := true, tx := true, free := true } s (busReport master access event addr s) := by
  unfold busReport
  exact (report_only ..).after ((post_only ..).mono)
theorem flashFault_only (who write event sector s) : Only { dev := true, flt := true, evt := true, mqs := true, alks := true, islands := true, heads := true, gov := true, mrc := true, slu := true, fan := true, tx := true, free := true } s (flashFault who write event sector s) := by
  unfold flashFault
  exact (busReport_only ..).mono
theorem flashRefused_only (who write sector s) : Only { dev := true, flt := true, evt := true, mqs := true, alks := true, islands := true, heads := true, gov := true, mrc := true, slu := true, fan := true, tx := true, free := true } s (flashRefused who write sector s) := by
  unfold flashRefused
  exact (flashAnswer_only ..).after ((flashFault_only ..).mono)
theorem invalidate_only (base lines s) : Only { fcc := true } s (invalidate base lines s) := by
  unfold invalidate
  exact .upd (.each (fun _ _ => .ite (.ite ((modFcq_only ..).after ((modFce_only ..).mono)) ((modFce_only ..).mono)) .refl) .refl)
theorem fetchAnswer_only (q status data s) : Only { tx := true } s (fetchAnswer q status data s) := by
  unfold fetchAnswer
  exact (send_only ..).mono
theorem readDone_only (b blk n bits s) : Only { fls := true } s (readDone b blk n bits s) := by
  unfold readDone
  exact .ite ((modBlk_only ..).after (.ite (.ite .refl (.upd .refl)) ((modBank_only ..).after (.ite .refl (.upd .refl))))) (.ite (.ite .refl (.upd .refl)) ((modBank_only ..).after (.ite .refl (.upd .refl))))
theorem readLost_only (b sec r s) : Only { dev := true, flt := true, evt := true, mqs := true, alks := true, islands := true, heads := true, gov := true, mrc := true, fls := true, slu := true, fan := true, tx := true, free := true } s (readLost b sec r s) := by
  unfold readLost
  exact (report_only ..).after ((post_only ..).after ((modBank_only ..).mono))
theorem haltReader_only (ch sec s) : Only { dev := true, flt := true, evt := true, mqs := true, alks := true, islands := true, heads := true, gov := true, mrc := true, rows := true, tre := true, slu := true, fan := true, tx := true, free := true } s (haltReader ch sec s) := by
  unfold haltReader
  exact .ite ((haltChannel_only ..).mono) .refl
theorem readSector_only (who sec steps s) : Only { dev := true, flt := true, evt := true, mqs := true, alks := true, islands := true, heads := true, gov := true, mrc := true, rows := true, tre := true, fls := true, slu := true, fan := true, tx := true, free := true } s (readSector who sec steps s) := by
  unfold readSector
  split
  · exact .refl
  · split
    · extract_lets
      split
      · exact (flashAnswer_only ..).after ((send_only ..).after ((readDone_only ..).after ((modBank_only ..).mono)))
      · refine .ite ((modBank_only ..).mono) ?_
        extract_lets
        split
        · exact (haltReader_only ..).after ((flashAnswer_only ..).after ((readLost_only ..).after ((modBank_only ..).mono)))
        · exact (flashAnswer_only ..).after ((readLost_only ..).after ((modBank_only ..).mono))
theorem readLineDirect_only (line steps s) : Only { dev := true, flt := true, evt := true, mqs := true, alks := true, islands := true, heads := true, gov := true, mrc := true, rows := true, tre := true, fls := true, slu := true, fan := true, tx := true, free := true } s (readLineDirect line steps s) := by
  unfold readLineDirect
  split
  · exact .refl
  · split
    · extract_lets
      split
      · exact (fetchAnswer_only ..).after ((readDone_only ..).after ((modBank_only ..).mono))
      · exact .ite ((modBank_only ..).mono) (.each (fun _ _ => (haltReader_only ..).mono) ((fetchAnswer_only ..).after ((readLost_only ..).after ((modBank_only ..).mono))))
theorem serveWaits_only (s) : Only { dev := true, flt := true, evt := true, mqs := true, alks := true, islands := true, heads := true, gov := true, mrc := true, rows := true, tre := true, fls := true, slu := true, fan := true, tx := true, free := true } s (serveWaits s) := by
  unfold serveWaits
  refine .each (fun _ _ => ?_) (.upd .refl)
  split
  · exact (readLineDirect_only ..).mono
  · split
    · exact (readSector_only ..).mono
    · exact .refl
theorem execFlashPageRead_only (who p sector steps s) : OnlyNext { dev := true, flt := true, evt := true, mqs := true, alks := true, islands := true, heads := true, gov := true, mrc := true, rows := true, tre := true, fls := true, slu := true, fan := true, tx := true, free := true } s (execFlashPageRead who p sector steps s) := by
  unfold execFlashPageRead
  refine .live ?_
  refine Only.next ?_
  extract_lets
  split
  · exact (flashRefused_only ..).mono
  · exact .ite ((flashRefused_only ..).mono) (.ite (.ite ((flashAnswer_only ..).after ((flashFault_only ..).after (.upd .refl))) (.upd .refl)) ((readSector_only ..).mono))
theorem execFlashProgram_only (who p first sectors s) : OnlyNext { dev := true, flt := true, evt := true, mqs := true, alks := true, islands := true, heads := true, gov := true, mrc := true, fls := true, slu := true, fan := true, tx := true, free := true } s (execFlashProgram who p first sectors s) := by
  unfold execFlashProgram
  refine .live ?_
  refine Only.next ?_
  split
  · exact (flashRefused_only ..).mono
  · split
    · refine .ite ((flashRefused_only ..).mono) ?_
      refine .ite .refl ?_
      refine .ite ((flashAnswer_only ..).after ((post_only ..).after (.upd .refl))) ?_
      split
      · exact (flashAnswer_only ..).after ((flashFault_only ..).after (.upd .refl))
      · exact (modBank_only ..).mono
theorem execFlashProgramDone_only (bank ok s) : OnlyNext (.but { aon := true, idn := true, fuses := true, clk := true, pwr := true, img := true, nvm := true, bol := true, pending := true, intake := true }) s (execFlashProgramDone bank ok s) := by
  unfold execFlashProgramDone
  refine .live ?_
  refine Only.next ?_
  refine .ite .refl ?_
  refine .ite ?_ ?_
  · refine (serveWaits_only ..).after ?_
    split
    · exact (flashAnswer_only ..).after ((invalidate_only ..).after ((modBlk_only ..).after (.each (fun _ _ => (putFlash_only ..).mono) ((modBank_only ..).mono))))
    · exact (invalidate_only ..).after ((modBlk_only ..).after (.each (fun _ _ => (putFlash_only ..).mono) ((modBank_only ..).mono)))
  · refine (serveWaits_only ..).after ?_
    split
    · exact (flashAnswer_only ..).after ((retireBlock_only ..).after ((modBank_only ..).mono))
    · exact (retireBlock_only ..).after ((modBank_only ..).mono)
theorem eraseRegion_only (kind s) : Only (.but { aon := true, idn := true, fuses := true, clk := true, pwr := true, img := true, nvm := true, bol := true, rows := true, pending := true, intake := true }) s (eraseRegion kind s) := by
  unfold eraseRegion
  exact (invalidate_only ..).after (.updWith (.each (fun _ _ => .each (fun _ _ => (modBlk_only ..).after (.ite (.ite ((post_only ..).after ((moveBlock_only ..).mono)) ((poolEmpty_only ..).mono)) .refl)) .refl) .refl) (.of_parts (sectors := tabFilter_wf _ _ _)))
theorem execFlashErase_only (who kind bank block s) : OnlyNext (.but { aon := true, idn := true, fuses := true, clk := true, pwr := true, img := true, nvm := true, bol := true, rows := true, pending := true, intake := true }) s (execFlashErase who kind bank block s) := by
  unfold execFlashErase
  refine .live ?_
  refine Only.next ?_
  split
  · exact (flashRefused_only ..).mono
  · exact .ite ((flashRefused_only ..).mono) (.ite .refl (.ite (.ite (.ite ((post_only ..).after ((moveBlock_only ..).mono)) ((poolEmpty_only ..).mono)) .refl) (.each (fun _ _ => (invalidate_only ..).mono) ((modBank_only ..).after (.ite ((modBlk_only ..).after (.ite (.ite ((post_only ..).after ((moveBlock_only ..).mono)) ((poolEmpty_only ..).mono)) .refl)) (.ite (.ite ((post_only ..).after ((moveBlock_only ..).mono)) ((poolEmpty_only ..).mono)) .refl))))))
theorem execFlashEraseDone_only (bank ok s) : OnlyNext (.but { aon := true, idn := true, fuses := true, clk := true, pwr := true, img := true, nvm := true, bol := true, fcc := true, pending := true, intake := true }) s (execFlashEraseDone bank ok s) := by
  unfold execFlashEraseDone
  refine .live ?_
  refine Only.next ?_
  refine .ite .refl ?_
  refine .ite ?_ ?_
  · refine (serveWaits_only ..).after ?_
    split
    · exact (flashAnswer_only ..).after ((modBlk_only ..).after (.updWith ((modBank_only ..).mono) (.of_parts (sectors := tabFilter_wf _ _ _))))
    · exact (modBlk_only ..).after (.updWith ((modBank_only ..).mono) (.of_parts (sectors := tabFilter_wf _ _ _)))
  · refine (serveWaits_only ..).after ?_
    split
    · exact (flashAnswer_only ..).after ((retireBlock_only ..).after ((modBank_only ..).mono))
    · exact (retireBlock_only ..).after ((modBank_only ..).mono)
theorem execBlockRefresh_only (bank block s) : OnlyNext (.but { aon := true, idn := true, fuses := true, clk := true, pwr := true, img := true, nvm := true, bol := true, rows := true, fcc := true, pending := true, intake := true }) s (execBlockRefresh bank block s) := by
  unfold execBlockRefresh
  refine .live ?_
  refine Only.next ?_
  split
  · exact .refl
  · exact .ite .refl (.ite ((retireBlock_only ..).mono) (.ite .refl ((post_only ..).after ((modBlk_only ..).after ((moveBlock_only ..).mono)))))
theorem seeLine_only (q line s) : Only { fcc := true } s (seeLine q line s) := by
  unfold seeLine
  extract_lets
  split
  · exact (modFcq_only ..).mono
  · exact .ite .refl (.ite (.upd (.ite ((modFcq_only ..).mono) (.ite ((modFcq_only ..).mono) ((modFcq_only ..).mono)))) (.ite ((modFcq_only ..).mono) (.ite ((modFcq_only ..).mono) ((modFcq_only ..).mono))))
theorem joinFill_only (q line lock access s) : Only { fcc := true } s (joinFill q line lock access s) := by
  unfold joinFill
  split
  · exact .ite (.upd .refl) (.upd .refl)
  · exact .upd .refl
theorem busyFault_only (q line access s) : Only { dev := true, flt := true, evt := true, mqs := true, alks := true, islands := true, heads := true, gov := true, mrc := true, fls := true, slu := true, fan := true, tx := true, free := true } s (busyFault q line access s) := by
  unfold busyFault
  exact (fetchAnswer_only ..).after ((busReport_only ..).after (.upd .refl))
theorem execFetchLookup_only (q addr access ue steps s) : OnlyNext { dev := true, flt := true, evt := true, mqs := true, alks := true, islands := true, heads := true, gov := true, mrc := true, rows := true, tre := true, fls := true, fcc := true, slu := true, fan := true, tx := true, free := true } s (execFetchLookup q addr access ue steps s) := by
  unfold execFetchLookup
  refine .live (Only.next (.ite ((fetchAnswer_only ..).after (busReport_only ..).mono) ?_))
  extract_lets t missed
  have ht : Only { dev := true, flt := true, evt := true, mqs := true, alks := true, islands := true, heads := true, gov := true, mrc := true, rows := true, tre := true, fls := true, fcc := true, slu := true, fan := true, tx := true, free := true } s t := by
    unfold t
    split
    · exact .ite ((report_only ..).after (loseLine_only ..).mono) .refl
    · exact .refl
  clear_value t
  split
  · exact (seeLine_only ..).after ((fetchAnswer_only ..).after ((modFce_only ..).after ((modFcq_only ..).after ht)))
  · have hm := (seeLine_only q (addr.toNat / 256) _).after ((modFcq_only t q fun r => { r with misses := satInc 16 r.misses }).after ht)
    exact .ite (.ite (.upd hm) ((readLineDirect_only ..).after hm)) (.ite ((busyFault_only ..).after hm) ((joinFill_only ..).after hm))
theorem pickEntry_only (q prefetch s) : Only { fcc := true } s (pickEntry q prefetch s).2 := by
  unfold pickEntry
  split
  · exact .refl
  · exact .upd .refl
theorem beginFill_only (q line prefetch lock waiting s) : Only { fls := true, fcc := true } s (beginFill q line prefetch lock waiting s) := by
  unfold beginFill
  split
  · refine .upd ?_
    split
    · refine (modBank_only ..).after ?_
      split
      · exact (modFce_only ..).after (Only.of_eq_snd ((pickEntry_only ..).mono) ‹_›)
      · exact Only.of_eq_snd ((pickEntry_only ..).mono) ‹_›
    · split
      · exact (modFce_only ..).after (Only.of_eq_snd ((pickEntry_only ..).mono) ‹_›)
      · exact Only.of_eq_snd ((pickEntry_only ..).mono) ‹_›
theorem execFetchFill_only (s) : OnlyNext { dev := true, flt := true, evt := true, mqs := true, alks := true, islands := true, heads := true, gov := true, mrc := true, fls := true, fcc := true, slu := true, fan := true, tx := true, free := true } s (execFetchFill s) := by
  unfold execFetchFill
  refine .live ?_
  refine Only.next ?_
  split
  · exact .ite (.each (fun _ _ => (busyFault_only ..).mono) (.upd .refl)) ((beginFill_only ..).after (.upd .refl))
  · exact .refl
theorem fillFailed_only (line w s) : Only (.but { aon := true, idn := true, fuses := true, clk := true, pwr := true, img := true, nvm := true, bol := true, fcc := true, pending := true, intake := true }) s (fillFailed line w s) := by
  unfold fillFailed
  exact .ite (.each (fun _ _ => (haltReader_only ..).mono) ((fetchAnswer_only ..).mono)) (.ite ((coreTrap_only ..).after ((fetchAnswer_only ..).mono)) ((fetchAnswer_only ..).mono))
theorem fillLadder_only (f steps s) : Only { dev := true, flt := true, evt := true, mqs := true, alks := true, islands := true, heads := true, gov := true, mrc := true, fls := true, slu := true, fan := true, tx := true, free := true } s (fillLadder f steps s).2 := by
  unfold fillLadder
  split
  · exact .refl
  · split
    · split
      · exact (readDone_only ..).mono
      · exact (readLost_only ..).mono
theorem execFillComplete_only (steps s) : OnlyNext (.but { aon := true, idn := true, fuses := true, clk := true, pwr := true, img := true, nvm := true, bol := true, pending := true, intake := true }) s (execFillComplete steps s) := by
  unfold execFillComplete
  refine .live (Only.next ?_)
  split
  · exact .refl
  · next f _ =>
    have hl : Only (.but { aon := true, idn := true, fuses := true, clk := true, pwr := true, img := true, nvm := true, bol := true, pending := true, intake := true }) s (fillLadder f steps { s with fcc := { s.fcc with fill := none } }).2 := (fillLadder_only ..).after (.upd .refl)
    generalize fillLadder f steps { s with fcc := { s.fcc with fill := none } } = p at hl
    obtain ⟨status, t⟩ := p
    refine .ite (.each (fun _ _ => (fillFailed_only ..).mono) hl) ?_
    have ha : Only (.but { aon := true, idn := true, fuses := true, clk := true, pwr := true, img := true, nvm := true, bol := true, pending := true, intake := true }) s (each f.waiting (fun w s => fetchAnswer w.1 0 f.data s) t) := .each (fun _ _ => (fetchAnswer_only ..).mono) hl
    split
    · exact .ite ha ((modFce_only ..).after ha)
    · exact ha
theorem execPrefetchIssue_only (q s) : OnlyNext { fls := true, fcc := true } s (execPrefetchIssue q s) := by
  unfold execPrefetchIssue
  refine .live ?_
  refine Only.next ?_
  refine .ite .refl ?_
  split
  · exact .refl
  · exact .ite (.upd .refl) ((beginFill_only ..).after (.upd .refl))
theorem execInvalLine_only (_core addr s) : OnlyNext { fcc := true } s (execInvalLine _core addr s) := by
  unfold execInvalLine
  exact .live (Only.next ((invalidate_only ..).mono))
theorem execInvalRange_only (_core base lines s) : OnlyNext { fcc := true } s (execInvalRange _core base lines s) := by
  unfold execInvalRange
  exact .live (Only.next (.ite ((invalidate_only ..).mono) .refl))
theorem execInvalAll_only (_core s) : OnlyNext { fcc := true } s (execInvalAll _core s) := by
  unfold execInvalAll
  exact .live (Only.next ((invalidate_only ..).mono))
theorem execLock_only (core addr s) : OnlyNext { fcc := true, tx := true } s (execLock core addr s) := by
  unfold execLock
  refine .live ?_
  refine Only.next ?_
  split
  · exact .ite .refl (.ite ((fetchAnswer_only ..).mono) ((modFce_only ..).mono))
  · exact .ite ((fetchAnswer_only ..).mono) ((joinFill_only ..).mono)
theorem execUnlock_only (core addr s) : OnlyNext { fcc := true } s (execUnlock core addr s) := by
  unfold execUnlock
  exact .live (Only.next (.each (fun _ _ => .ite ((modFce_only ..).mono) .refl) .refl))
theorem execUnlockAll_only (core s) : OnlyNext { fcc := true } s (execUnlockAll core s) := by
  unfold execUnlockAll
  exact .live (Only.next (.each (fun _ _ => .ite ((modFce_only ..).mono) .refl) .refl))
theorem slackExhausted_only (s) : Only (.but { aon := true, idn := true, fuses := true, clk := true, pwr := true, img := true, nvm := true, bol := true, rows := true, fcc := true, pending := true, intake := true }) s (slackExhausted s) := by
  unfold slackExhausted
  exact .ite .refl ((advanceDrain_only ..).after ((exhausted_only ..).after (.upd .refl)))
theorem laneOut_only (l s) : Only (.but { aon := true, idn := true, fuses := true, clk := true, pwr := true, img := true, nvm := true, bol := true, rows := true, fcc := true, pending := true, intake := true }) s (laneOut l s) := by
  unfold laneOut
  exact .ite ((alkSwap_only ..).mono) ((reportLane_only ..).mono)
theorem judgeChannel_only (p s) : Only (.but { aon := true, idn := true, fuses := true, clk := true, pwr := true, img := true, nvm := true, bol := true, fcc := true, pending := true, intake := true }) s (judgeChannel p s) := by
  unfold judgeChannel
  exact .ite ((migrate_only ..).after ((exhausted_only ..).after ((noteMargin_only ..).after (.ite .refl ((recovered_only ..).mono))))) ((noteMargin_only ..).after (.ite .refl ((recovered_only ..).mono)))
theorem evalIterations_only (s) : Only { pwr := true, evt := true, img := true, islands := true, gov := true, links := true, injs := true, fan := true, tx := true } s (evalIterations s) := by
  unfold evalIterations
  exact .upd (.each (fun _ _ => .ite ((replanTo_only ..).mono) .refl) .refl)
theorem evalKt_only (a r s) : Only (.but { aon := true, idn := true, fuses := true, clk := true, nvm := true, rows := true, fcc := true, pending := true, intake := true }) s (evalKt a r s) := by
  unfold evalKt
  exact (judgeMargin_only ..).after (.ite .refl ((replanTo_only ..).mono))
theorem execHourlyEvaluation_only (loops eyes s) : OnlyNext (.but { aon := true, idn := true, fuses := true, clk := true, nvm := true, fcc := true, pending := true, intake := true }) s (execHourlyEvaluation loops eyes s) := by
  unfold execHourlyEvaluation
  exact .live (Only.next (.ite .refl (.each (fun _ _ => .ite .refl ((judgeMargin_only ..).mono)) (.each (fun _ _ => (evalKt_only ..).mono) (.upd (.each (fun _ _ => (judgeChannel_only ..).mono) (.each (fun _ _ => (modChan_only ..).mono) (.each (fun _ _ => (judgeMargin_only ..).mono) ((evalIterations_only ..).mono)))))))))
theorem retrainLane_only (l s) : Only { alks := true, tx := true } s (retrainLane l s) := by
  unfold retrainLane
  exact .ite .refl (.ite ((modAlk_only ..).mono) ((sendLaneMap_only ..).after ((modAlk_only ..).after ((sendLaneMap_only ..).mono))))
theorem execReplan_only (k loc value second phaseMargin s) : OnlyNext { pwr := true, evt := true, img := true, alks := true, islands := true, gov := true, links := true, injs := true, fan := true, tx := true } s (execReplan k loc value second phaseMargin s) := by
  unfold execReplan
  refine .live ?_
  refine Only.next ?_
  refine .ite .refl ?_
  split
  · exact .ite ((loadTrial_only ..).after (.upd .refl)) (.upd .refl)
  · exact (adoptCal_only ..).mono
  · exact (replanTo_only ..).mono
  · exact .ite ((replanTo_only ..).mono) .refl
  · exact .ite ((replanTo_only ..).mono) .refl
  · exact .ite .refl ((replanTo_only ..).mono)
  · exact .ite ((retrainLane_only ..).after ((replanTo_only ..).mono)) .refl
  · exact (replanTo_only ..).mono
theorem storePoint_only (kind l day v samples s) : Only { fan := true } s (storePoint kind l day v samples s) := by
  unfold storePoint
  exact .ite .refl (.upd .refl)
theorem execHorizonCompute_only (day s) : OnlyNext (.but { aon := true, idn := true, fuses := true, clk := true, pwr := true, img := true, nvm := true, rows := true, fcc := true, pending := true, intake := true }) s (execHorizonCompute day s) := by
  unfold execHorizonCompute
  exact .live (Only.next (.ite .refl ((recomputeHorizon_only ..).after (.upd (.each (fun _ _ => .ite .refl ((mirror_only ..).after ((storePoint_only ..).mono))) ((judgeMargin_only ..).mono))))))
theorem execWindingREstimate_only (s) : OnlyNext { spn := true, spc := true } s (execWindingREstimate s) := by
  unfold execWindingREstimate
  exact .live (Only.next (.ite .refl (.upd .refl)))
theorem execSlackPeriodEval_only (s) : OnlyNext (.but { aon := true, idn := true, fuses := true, clk := true, nvm := true, bol := true, rows := true, fcc := true, pending := true, intake := true }) s (execSlackPeriodEval s) := by
  unfold execSlackPeriodEval
  exact .live (Only.next (.ite .refl (.ite (.ite ((slackExhausted_only ..).after (.upd ((noteMargin_only ..).mono))) (.ite (.upd ((noteMargin_only ..).mono)) ((replanTo_only ..).after (.upd ((noteMargin_only ..).mono))))) (.ite ((replanTo_only ..).after (.upd ((noteMargin_only ..).mono))) (.upd ((noteMargin_only ..).mono))))))
theorem execLaneEyeEval_only (l lane eyeH eyeV s) : OnlyNext (.but { aon := true, idn := true, fuses := true, clk := true, nvm := true, bol := true, rows := true, fcc := true, pending := true, intake := true }) s (execLaneEyeEval l lane eyeH eyeV s) := by
  unfold execLaneEyeEval
  refine .live ?_
  extract_lets
  split
  · refine Only.next ?_
    refine .ite ?_ ?_
    · refine Only.of_eq_snd ?_ ‹_›
      split
      · exact (modLink_only ..).mono
      · exact (modAlk_only ..).mono
    · refine .ite ?_ ?_
      · refine (noteMargin_only ..).after ?_
        refine .ite ?_ ?_
        · refine Only.of_eq_snd ?_ ‹_›
          split
          · exact (modLink_only ..).mono
          · exact (modAlk_only ..).mono
        · refine (recovered_only ..).after ?_
          refine Only.of_eq_snd ?_ ‹_›
          split
          · exact (modLink_only ..).mono
          · exact (modAlk_only ..).mono
      · refine .ite ?_ ?_
        · refine (laneOut_only ..).after ?_
          refine (exhausted_only ..).after ?_
          refine (noteMargin_only ..).after ?_
          refine .ite ?_ ?_
          · refine Only.of_eq_snd ?_ ‹_›
            split
            · exact (modLink_only ..).mono
            · exact (modAlk_only ..).mono
          · refine (recovered_only ..).after ?_
            refine Only.of_eq_snd ?_ ‹_›
            split
            · exact (modLink_only ..).mono
            · exact (modAlk_only ..).mono
        · refine .ite ?_ ?_
          · refine (retrainLane_only ..).after ?_
            refine (replanTo_only ..).after ?_
            refine (nextFree_only ..).after ?_
            refine (noteMargin_only ..).after ?_
            refine .ite ?_ ?_
            · refine Only.of_eq_snd ?_ ‹_›
              split
              · exact (modLink_only ..).mono
              · exact (modAlk_only ..).mono
            · refine (recovered_only ..).after ?_
              refine Only.of_eq_snd ?_ ‹_›
              split
              · exact (modLink_only ..).mono
              · exact (modAlk_only ..).mono
          · refine (noteMargin_only ..).after ?_
            refine .ite ?_ ?_
            · refine Only.of_eq_snd ?_ ‹_›
              split
              · exact (modLink_only ..).mono
              · exact (modAlk_only ..).mono
            · refine (recovered_only ..).after ?_
              refine Only.of_eq_snd ?_ ‹_›
              split
              · exact (modLink_only ..).mono
              · exact (modAlk_only ..).mono
theorem enterSolo_only (s) : Only { evt := true, ptn := true, gov := true } s (enterSolo s) := by
  unfold enterSolo
  exact .ite ((post_only ..).after (.upd .refl)) .refl
theorem loseStandby_only (s) : Only { evt := true, mqs := true, ptn := true, diag := true, layout := true, gov := true, mrc := true, mpd := true, rows := true, tre := true, links := true, injs := true, hop := true, slu := true, tx := true, free := true } s (loseStandby s) := by
  unfold loseStandby
  exact .ite ((recheck_only ..).after (.each (fun _ _ => (ueFrame_only ..).mono) ((enterSolo_only ..).after (.upd .refl)))) .refl
theorem execHeartbeatTick_only (served s) : OnlyNext { ptn := true, arms := true, gov := true, spn := true, spc := true, links := true, injs := true, slu := true, tx := true } s (execHeartbeatTick served s) := by
  unfold execHeartbeatTick
  exact .live (Only.next (.ite .refl (.ite ((ptnSend_only ..).after (.upd (.ite (.upd .refl) .refl))) (.ite (.iteApp ((dropActive_only ..).after (.upd (.ite (.upd .refl) .refl))) (.upd (.ite (.upd .refl) .refl))) (.ite (.upd .refl) .refl)))))
theorem execHeartbeat_only (standby state time dirty s) : OnlyNext { evt := true, ptn := true, gov := true, mpd := true, links := true, injs := true, tx := true } s (execHeartbeat standby state time dirty s) := by
  unfold execHeartbeat
  exact .live (Only.next (.ite .refl (.ite ((sendArb_only ..).after (.upd .refl)) (.ite ((askResync_only ..).after (.upd .refl)) (.upd .refl)))))
theorem adoptMirror_only (planned s) : Only { mpd := true, rows := true } s (adoptMirror planned s) := by
  unfold adoptMirror
  exact .updWith .refl (.of_parts (ledger := fun h => tabMap_wf _ _ _ (fun e he => landedEntry_change_ne (Bool.and_eq_true _ _ ▸ (List.mem_filter.1 he).2).1) (tabFilter_wf _ _ _ h)))
theorem takeover_only (planned s) : Only (.but { aon := true, idn := true, fuses := true, clk := true, nvm := true, bol := true, fcc := true, pending := true, intake := true }) s (takeover planned s) := by
  unfold takeover
  exact .ite ((failStop_only ..).after ((claimArms_only ..).after (.ite (.upd .refl) ((post_only ..).after (.upd .refl))))) ((startOffsets_only ..).after (.upd (.ite (.each (fun _ _ => .ite ((takeoverCompletions_only ..).mono) .refl) (.ite ((useStore_only ..).after ((adoptMirror_only ..).after ((claimArms_only ..).after (.ite (.upd .refl) ((post_only ..).after (.upd .refl)))))) ((adoptMirror_only ..).after ((claimArms_only ..).after (.ite (.upd .refl) ((post_only ..).after (.upd .refl))))))) ((enterSolo_only ..).after (.each (fun _ _ => .ite ((takeoverCompletions_only ..).mono) .refl) (.ite ((useStore_only ..).after ((adoptMirror_only ..).after ((claimArms_only ..).after (.ite (.upd .refl) ((post_only ..).after (.upd .refl)))))) ((adoptMirror_only ..).after ((claimArms_only ..).after (.ite (.upd .refl) ((post_only ..).after (.upd .refl)))))))))))
theorem tryTakeover_only (s) : Only (.but { aon := true, idn := true, fuses := true, clk := true, nvm := true, bol := true, fcc := true, pending := true, intake := true }) s (tryTakeover s) := by
  unfold tryTakeover
  exact .ite .refl (.ite ((takeover_only ..).mono) ((post_only ..).mono))
theorem execTakeoverResume_only (s) : OnlyNext { ptn := true, arms := true } s (execTakeoverResume s) := by
  unfold execTakeoverResume
  exact .live (Only.next (.ite (.each (fun _ _ => (modArm_only ..).after ((vcmSend_only ..).mono)) (.upd .refl)) .refl))
theorem countGaps_only (toggles s) : Only { ptn := true } s (countGaps toggles s) := by
  unfold countGaps
  exact .upd .refl
theorem judge_only (toggles frames activeIn s) : Only (.but { aon := true, idn := true, fuses := true, clk := true, nvm := true, bol := true, fcc := true, pending := true, intake := true }) s (judge toggles frames activeIn s) := by
  unfold judge
  exact .ite (.ite (.upd .refl) ((loseStandby_only ..).after (.upd .refl))) (.ite (.upd .refl) (.ite (.ite ((tryTakeover_only ..).after (.ite (.upd .refl) ((post_only ..).after (.upd .refl)))) (.upd .refl)) (.ite (.ite ((post_only ..).after (.upd .refl)) (.upd .refl)) (.ite (.ite ((post_only ..).after (.upd (.upd .refl))) (.upd .refl)) (.ite (.ite ((post_only ..).after (.upd .refl)) (.upd .refl)) (.upd .refl))))))
theorem execPartnerWindow_only (toggles frames activeIn s) : OnlyNext (.but { aon := true, idn := true, fuses := true, clk := true, nvm := true, bol := true, fcc := true, pending := true, intake := true }) s (execPartnerWindow toggles frames activeIn s) := by
  unfold execPartnerWindow
  exact .live (Only.next (.ite ((judge_only ..).after ((countGaps_only ..).mono)) .refl))
theorem execPartnerHungRecheck_only (toggles frames activeIn s) : OnlyNext (.but { aon := true, idn := true, fuses := true, clk := true, nvm := true, bol := true, fcc := true, pending := true, intake := true }) s (execPartnerHungRecheck toggles frames activeIn s) := by
  unfold execPartnerHungRecheck
  exact .live (Only.next (.ite ((judge_only ..).after ((countGaps_only ..).mono)) .refl))
theorem execActiveInFall_only (s) : OnlyNext (.but { aon := true, idn := true, fuses := true, clk := true, nvm := true, bol := true, fcc := true, pending := true, intake := true }) s (execActiveInFall s) := by
  unfold execActiveInFall
  exact .live (Only.next (.ite .refl (.ite (.upd .refl) ((tryTakeover_only ..).after (.upd .refl)))))
theorem execPtnFailstop_only (cause s) : OnlyNext (.but { aon := true, idn := true, fuses := true, clk := true, nvm := true, bol := true, fcc := true, pending := true, intake := true }) s (execPtnFailstop cause s) := by
  unfold execPtnFailstop
  exact .live (Only.next (.ite .refl (.ite ((post_only ..).after (.upd .refl)) ((tryTakeover_only ..).mono))))
theorem becomeActive_only (alone s) : Only { dev := true, start := true, evt := true, ptn := true, alks := true, gov := true, spn := true, spc := true, hop := true, slu := true, tx := true } s (becomeActive alone s) := by
  unfold becomeActive
  exact (enterParked_only ..).after ((post_only ..).after (.upd ((claimArms_only ..).after ((leaveConfiguring_only ..).mono))))
theorem sendDump_only (area s) : Only { links := true, injs := true, tx := true } s (sendDump area s) := by
  unfold sendDump
  refine .each (fun _ _ => .each (fun _ _ => (ptnSend_only ..).mono) .refl) ?_
  refine .each (fun _ _ => ?_) (.each (fun _ _ => (ptnSend_only ..).mono) .refl)
  refine (ptnSend_only ..).after ?_
  split
  · exact .each (fun _ _ => (ptnSend_only ..).mono) .refl
  · exact .refl
theorem becomeStandby_only (s) : Only { dev := true, start := true, evt := true, ptn := true, gov := true, spn := true, spc := true, mpd := true, links := true, injs := true, hop := true, slu := true, tx := true } s (becomeStandby s) := by
  unfold becomeStandby
  exact .each (fun _ _ => (sendDump_only ..).mono) ((askResync_only ..).after ((post_only ..).after (.upd ((leaveConfiguring_only ..).mono))))
theorem yieldActive_only (s) : Only { dev := true, start := true, evt := true, ptn := true, alks := true, islands := true, heads := true, arms := true, gov := true, spn := true, spc := true, mrc := true, mpd := true, links := true, injs := true, hop := true, slu := true, tx := true } s (yieldActive s) := by
  unfold yieldActive
  exact (becomeStandby_only ..).after ((dropActive_only ..).after ((startCoast_only ..).after ((releaseArms_only ..).after (.ite ((unloadAll_only ..).mono) .refl))))
theorem compatStop_only (s) : Only (.but { aon := true, idn := true, fuses := true, clk := true, pwr := true, img := true, nvm := true, bol := true, rows := true, fcc := true, pending := true, intake := true }) s (compatStop s) := by
  unfold compatStop
  exact (failStop_only ..).after ((post_only ..).mono)
theorem againFromStandby_only (differs s) : Only (.but { aon := true, idn := true, fuses := true, clk := true, pwr := true, img := true, nvm := true, bol := true, rows := true, fcc := true, pending := true, intake := true }) s (againFromStandby differs s) := by
  unfold againFromStandby
  exact .ite (.ite ((compatStop_only ..).after (.upd .refl)) (.upd .refl)) ((becomeActive_only ..).after (.updWith (.ite ((post_only ..).after (.upd .refl)) (.upd .refl)) (.of_parts (frames := fun _ => rfl) (ledger := fun _ => rfl))))
theorem arbitrated_only (r s) : Only (.but { aon := true, idn := true, fuses := true, clk := true, pwr := true, img := true, nvm := true, bol := true, fcc := true, pending := true, intake := true }) s (arbitrated r s) := by
  unfold arbitrated
  exact .ite (.ite (.ite ((compatStop_only ..).mono) ((yieldActive_only ..).mono)) (.ite ((post_only ..).after (.ite ((loseStandby_only ..).after (.upd .refl)) (.upd .refl))) (.ite ((loseStandby_only ..).after (.upd .refl)) (.upd .refl)))) (.ite (.ite ((againFromStandby_only ..).mono) .refl) (.ite ((compatStop_only ..).mono) (.ite ((becomeStandby_only ..).after (.ite ((post_only ..).mono) .refl)) (.ite ((becomeActive_only ..).after (.ite ((post_only ..).mono) .refl)) (.ite ((becomeStandby_only ..).after (.ite ((post_only ..).mono) .refl)) ((becomeActive_only ..).after (.ite ((post_only ..).mono) .refl)))))))
theorem execArbitrate_only (r s) : OnlyNext (.but { aon := true, idn := true, fuses := true, clk := true, pwr := true, img := true, nvm := true, bol := true, fcc := true, pending := true, intake := true }) s (execArbitrate r s) := by
  unfold execArbitrate
  exact .live (Only.next (.ite .refl (.ite ((failStop_only ..).after ((post_only ..).after (.upd .refl))) (.ite (.upd .refl) ((arbitrated_only ..).after (.ite ((sendArb_only ..).after (.upd .refl)) (.upd .refl)))))))
theorem execArbitrationTimeout_only (s) : OnlyNext { dev := true, start := true, evt := true, ptn := true, alks := true, gov := true, spn := true, spc := true, hop := true, slu := true, tx := true } s (execArbitrationTimeout s) := by
  unfold execArbitrationTimeout
  exact .live (Only.next (.ite ((becomeActive_only ..).mono) .refl))
theorem execStoppedArbitrateTick_only (s) : OnlyNext { links := true, injs := true, tx := true } s (execStoppedArbitrateTick s) := by
  unfold execStoppedArbitrateTick
  exact .live (Only.next (.ite ((sendArb_only ..).mono) .refl))
theorem sendBlock_only (f e s) : Only { links := true, injs := true, tx := true } s (sendBlock f e s) := by
  unfold sendBlock
  exact (ptnSend_only ..).after (.each (fun _ _ => (ptnSend_only ..).mono) .refl)
theorem execResyncStart_only (_frames s) : OnlyNext (.but { aon := true, start := true, idn := true, fuses := true, clk := true, pwr := true, flt := true, mqs := true, hold := true, img := true, nvm := true, layout := true, bol := true, fls := true, fcc := true, free := true, pending := true, intake := true }) s (execResyncStart _frames s) := by
  unfold execResyncStart
  exact .live (Only.next (.ite .refl ((advanceHandover_only ..).after ((recheck_only ..).after ((post_only ..).after (.upd ((ptnSend_only ..).after (.each (fun _ _ => (sendBlock_only ..).mono) (.each (fun _ _ => (ptnSend_only ..).mono) (.each (fun _ _ => (ptnSend_only ..).mono) (.each (fun _ _ => (ptnSend_only ..).mono) ((post_only ..).mono))))))))))))
theorem execResyncDone_only (_frames s) : OnlyNext { evt := true, ptn := true, gov := true } s (execResyncDone _frames s) := by
  unfold execResyncDone
  exact .live (Only.next (.ite ((post_only ..).after (.upd .refl)) .refl))
theorem arrivalAbove_only (v s) : Only { hop := true } s (arrivalAbove v s) := by
  unfold arrivalAbove
  exact .ite .refl (.upd .refl)
theorem clearParts_only (f s) : Only { mpd := true } s (clearParts f s) := by
  unfold clearParts
  exact .upd .refl
theorem confirmIf_only (f s) : Only { mpd := true, links := true, injs := true, tx := true } s (confirmIf f s) := by
  unfold confirmIf
  exact .ite ((ptnSend_only ..).after ((clearParts_only ..).mono)) .refl
theorem execMdata_only (frame fib data s) : OnlyNext { hold := true, diag := true, mpd := true, links := true, injs := true, tx := true } s (execMdata frame fib data s) := by
  unfold execMdata
  exact .live (Only.next (.ite .refl (.ite ((confirmIf_only ..).after (.upd ((setFrame_only ..).mono))) (.ite (.upd .refl) .refl))))
theorem freeMirror_only (f s) : Only { diag := true, mpd := true } s (freeMirror f s) := by
  unfold freeMirror
  exact (clearParts_only ..).after ((setFrame_only ..).after ((setEntry_only ..).mono))
theorem mirrorEntry_only (e s) : Only { diag := true, mpd := true, links := true, injs := true, hop := true, tx := true } s (mirrorEntry e s) := by
  unfold mirrorEntry
  exact .ite ((freeMirror_only ..).mono) ((confirmIf_only ..).after ((setEntry_only ..).after ((arrivalAbove_only ..).mono)))
theorem replayBlock_only (area e data s) : Only { hold := true, diag := true, mpd := true, hop := true } s (replayBlock area e data s) := by
  unfold replayBlock
  refine .ite .refl ?_
  extract_lets t own f
  have ht : Only { hold := true, diag := true, mpd := true, hop := true } s t := .each (fun _ _ => .upd (freeMirror_only ..).mono) .refl
  clear_value t f
  split
  · exact ht
  · exact .upd ((setFrame_only ..).after ((setEntry_only ..).after ((arrivalAbove_only ..).after ht)))
theorem missBlock_only (e s) : Only { hold := true } s (missBlock e s) := by
  unfold missBlock
  exact .upd .refl
theorem dumpEntry_only (e s) : Only { hold := true, diag := true, mpd := true, hop := true } s (dumpEntry e s) := by
  unfold dumpEntry
  refine .ite .refl ?_
  extract_lets
  split
  · exact .ite ((replayBlock_only ..).after (.upd .refl)) ((missBlock_only ..).after (.upd .refl))
  · exact (missBlock_only ..).after (.upd .refl)
theorem execMent_only (es s) : OnlyNext { hold := true, diag := true, mpd := true, links := true, injs := true, hop := true, tx := true } s (execMent es s) := by
  unfold execMent
  exact .live (Only.next (.ite (.each (fun _ _ => (mirrorEntry_only ..).mono) .refl) (.ite (.each (fun _ _ => (dumpEntry_only ..).mono) .refl) .refl)))
theorem confirmFrame_only (f s) : Only { mpd := true, hop := true } s (confirmFrame f s) := by
  unfold confirmFrame
  exact .ite .refl (.upd ((setEntry_only ..).mono))
theorem execConfirm_only (frames s) : OnlyNext { diag := true, mrc := true, mpd := true, links := true, injs := true, hop := true, slu := true, tx := true } s (execConfirm frames s) := by
  unfold execConfirm
  exact .live (Only.next (.ite .refl ((recheck_only ..).after (.each (fun _ _ => (confirmFrame_only ..).mono) .refl))))
theorem execCmdCtx_only (p tag arrival opcode lba count s) : OnlyNext { ptn := true, hop := true } s (execCmdCtx p tag arrival opcode lba count s) := by
  unfold execCmdCtx
  exact .live (Only.next (.ite (.upd ((arrivalAbove_only ..).mono)) .refl))
theorem ackMirror_only (x r s) : Only { mpd := true } s (ackMirror x r s) := by
  unfold ackMirror
  exact .ite (.updWith .refl (.of_parts (ledger := fun h => ackMap_wf (fun fe hp => landedEntry_valid (by simp only [Bool.and_eq_true] at hp; exact hp.1.1)) h))) .refl
theorem execPtnCpl_only (p r s) : OnlyNext { ptn := true, mpd := true } s (execPtnCpl p r s) := by
  unfold execPtnCpl
  exact .live (Only.next (.ite (.upd (.each (fun _ _ => (ackMirror_only ..).mono) .refl)) .refl))
theorem execCplAcked_only (p tag arrival s) : OnlyNext { ptn := true } s (execCplAcked p tag arrival s) := by
  unfold execCplAcked
  exact .live (Only.next (.upd .refl))
theorem execPtnRowCommit_only (row _time s) : OnlyNext { diag := true, mpd := true } s (execPtnRowCommit row _time s) := by
  unfold execPtnRowCommit
  exact .live (Only.next (.ite (.each (fun _ _ => (freeMirror_only ..).mono) .refl) .refl))
theorem eachRebuild_only (a h f s) : Only { layout := true } s (eachRebuild a h f s) := by
  unfold eachRebuild
  exact .upd .refl
theorem putLayout_only (r s) : Only { layout := true, heads := true } s (putLayout r s) := by
  unfold putLayout
  split
  · exact .upd .refl
  · exact .ite .refl (.upd .refl)
  · exact (modHead_only ..).after (.ite .refl (.upd .refl))
  · exact (eachRebuild_only ..).mono
  · exact (eachRebuild_only ..).mono
theorem execPtnLayout_only (r s) : OnlyNext { layout := true, heads := true } s (execPtnLayout r s) := by
  unfold execPtnLayout
  exact .live (Only.next (.ite ((putLayout_only ..).mono) .refl))
theorem keepPlan_only (r pieces s) : Only { fan := true } s (keepPlan r pieces s) := by
  unfold keepPlan
  exact .ite (.upd .refl) (.upd .refl)
theorem execPtnPlan_only (r s) : OnlyNext { fan := true } s (execPtnPlan r s) := by
  unfold execPtnPlan
  exact .live (Only.next (.ite .refl (.ite ((storePoint_only ..).mono) (.ite (.upd .refl) ((keepPlan_only ..).after (.upd .refl))))))
theorem execPtnDeferred_only (r s) : OnlyNext { evt := true, mqs := true, gov := true, links := true, injs := true, hop := true, tx := true, free := true } s (execPtnDeferred r s) := by
  unfold execPtnDeferred
  exact .live (Only.next (.ite ((storeDeferred_only ..).after (.upd .refl)) (.ite ((addDeferred_only ..).mono) .refl)))
theorem execFetchRequest_only (frame vseq s) : OnlyNext { links := true, injs := true, tx := true } s (execFetchRequest frame vseq s) := by
  unfold execFetchRequest
  exact .live (Only.next (.ite (.each (fun _ _ => (ptnSend_only ..).mono) ((ptnSend_only ..).mono)) .refl))
theorem execFetchReply_only (frame vseq data s) : OnlyNext { ptn := true, diag := true, mrc := true, mpd := true, links := true, injs := true, hop := true, slu := true, tx := true } s (execFetchReply frame vseq data s) := by
  unfold execFetchReply
  exact .live (Only.next (.ite (.ite ((recheck_only ..).after (.each (fun _ _ => (pumpRead_only ..).mono) ((setFrame_only ..).after (.upd .refl)))) (.upd .refl)) .refl))
theorem execHandoverRequest_only (reason s) : OnlyNext (.but { aon := true, start := true, idn := true, fuses := true, clk := true, pwr := true, flt := true, mqs := true, hold := true, img := true, nvm := true, layout := true, bol := true, fls := true, fcc := true, free := true, pending := true, intake := true }) s (execHandoverRequest reason s) := by
  unfold execHandoverRequest
  exact .live (Only.next (.ite .refl (.ite (.ite ((advanceHandover_only ..).after ((beginHandover_only ..).mono)) .refl) (.upd .refl))))
theorem execHandoverReleased_only (reason s) : OnlyNext (.but { aon := true, idn := true, fuses := true, clk := true, nvm := true, bol := true, fcc := true, pending := true, intake := true }) s (execHandoverReleased reason s) := by
  unfold execHandoverReleased
  exact .live (Only.next (.ite .refl (.ite ((takeover_only ..).after (.upd .refl)) ((post_only ..).after (.upd .refl)))))
theorem execHandoverActive_only (reason s) : OnlyNext { evt := true, ptn := true, diag := true, gov := true, mrc := true, mpd := true, links := true, injs := true, hop := true, tx := true } s (execHandoverActive reason s) := by
  unfold execHandoverActive
  exact .live (Only.next (.ite .refl (.each (fun _ _ => (complete_only ..).mono) ((post_only ..).after (.upd .refl)))))
theorem startStop_only (step cause s) : Only (.but { aon := true, idn := true, fuses := true, clk := true, pwr := true, img := true, nvm := true, bol := true, rows := true, fcc := true, pending := true, intake := true }) s (startStop step cause s) := by
  unfold startStop
  exact (failStop_only ..).after ((startFail_only ..).mono)
theorem atStep_only (n s) : Only { start := true } s (atStep n s) := by
  unfold atStep
  exact .upd .refl
theorem bist_only {o s t} (h : bist o s = some t) : Only { evt := true, islands := true, bol := true, gov := true } s t := by
  unfold bist at h
  extract_lets isl eng badI badE goodI goodE s1 s2 s3 at h
  split at h
  · cases h
  · obtain rfl := Option.some.inj h
    exact .upd (.each (fun _ _ => (post_only ..).after (modEngine_only ..).mono) (.each (fun _ _ => (post_only ..).after (modIsl_only ..).mono) .refl))
theorem blankBlock_only (blk s) : Only { fls := true } s (blankBlock blk s) := by
  unfold blankBlock
  refine (modBlk_only ..).after ?_
  split
  · exact .updWith .refl (.of_parts (sectors := tabFilter_wf _ _ _))
  · exact .refl
theorem flagSweep_only (o s) : Only (.but { aon := true, idn := true, fuses := true, clk := true, pwr := true, img := true, nvm := true, bol := true, rows := true, fcc := true, pending := true, intake := true }) s (flagSweep o s) := by
  unfold flagSweep
  refine .each (fun _ _ => ?_) .refl
  refine .ite ?_ ((blankBlock_only ..).after ((post_only ..).after (.upd .refl)))
  split
  · exact (retireBlock_only ..).after ((post_only ..).after (.upd .refl))
  · exact (post_only ..).after ((modBlk_only ..).after (.upd ((post_only ..).after (.upd .refl))))
theorem startTally_only (absent s) : Only { aon := true, evt := true, gov := true } s (startTally absent s) := by
  unfold startTally
  exact .upd (.ite ((post_only ..).after (.ite ((post_only ..).after ((post_only ..).after (.each (fun _ _ => (takeEvent_only ..).mono) (.ite ((post_only ..).after (.upd .refl)) ((post_only ..).after ((post_only ..).after (.upd .refl))))))) ((post_only ..).after (.each (fun _ _ => (takeEvent_only ..).mono) (.ite ((post_only ..).after (.upd .refl)) ((post_only ..).after ((post_only ..).after (.upd .refl)))))))) (.ite ((post_only ..).after ((post_only ..).after (.each (fun _ _ => (takeEvent_only ..).mono) (.ite ((post_only ..).after (.upd .refl)) ((post_only ..).after ((post_only ..).after (.upd .refl))))))) ((post_only ..).after (.each (fun _ _ => (takeEvent_only ..).mono) (.ite ((post_only ..).after (.upd .refl)) ((post_only ..).after ((post_only ..).after (.upd .refl))))))))
theorem sweepAndTally_only (o s) : Only (.but { idn := true, fuses := true, clk := true, pwr := true, img := true, nvm := true, bol := true, rows := true, fcc := true, pending := true, intake := true }) s (sweepAndTally o s) := by
  unfold sweepAndTally
  exact .ite ((startTally_only ..).after (.upd ((atStep_only ..).after ((flagSweep_only ..).after ((atStep_only ..).mono))))) ((startFail_only ..).after (.upd (.upd ((atStep_only ..).after ((flagSweep_only ..).after ((atStep_only ..).mono))))))
theorem copyInvalid_only (b step off s) : Only { evt := true, img := true, gov := true } s (copyInvalid b step off s) := by
  unfold copyInvalid
  exact (post_only ..).after (.ite (.upd .refl) (.upd .refl))
theorem loadGovernor_only (i s) : Only { gov := true } s (loadGovernor i s) := by
  unfold loadGovernor
  exact .each (fun _ _ => (modCtx_only ..).mono) (.updWith .refl (.of_parts (store := fun _ => tabFold_wf 0 (fun e => (e, BitVec.ofNat 256 (imgAt i 0x23 0 (32 * e) 32))) _ [] rfl)))
theorem assignIslands_only (s) : Only { islands := true, heads := true } s (assignIslands s) := by
  unfold assignIslands
  exact .each (fun _ _ => .ite ((modHead_only ..).mono) ((handServo_only ..).after (.ite .refl ((modIsl_only ..).after ((modHead_only ..).mono))))) .refl
theorem loadImage_only (i s) : Only { start := true, evt := true, img := true, islands := true, heads := true, gov := true, spn := true, fls := true } s (loadImage i s) := by
  unfold loadImage
  exact (assignIslands_only ..).after ((loadGovernor_only ..).after (.ite ((post_only ..).after ((post_only ..).after (.upd .refl))) ((post_only ..).after (.upd .refl))))
theorem selectImage_only (s) : Only { start := true, evt := true, img := true, islands := true, heads := true, gov := true, spn := true, fls := true } s (selectImage s).1 := by
  unfold selectImage
  extract_lets
  split
  · exact (loadImage_only ..).mono
  · extract_lets
    split
    · exact (loadImage_only ..).after (copyInvalid_only ..).mono
    · exact (copyInvalid_only ..).after (copyInvalid_only ..).mono
theorem trainMillpond_only (good s) : Only { mpd := true } s (trainMillpond good s) := by
  unfold trainMillpond
  exact .upd (.each (fun _ _ => (modChan_only ..).mono) .refl)
theorem armArea_only (k s) : Only (.but { aon := true, idn := true, fuses := true, clk := true, pwr := true, img := true, nvm := true, bol := true, rows := true, pending := true, intake := true }) s (armArea k s) := by
  unfold armArea
  exact (post_only ..).after (.upd ((modArea_only ..).after ((eraseRegion_only ..).mono)))
theorem readDumpHeaders_only {s t} (h : readDumpHeaders s = some t) : Only (.but { aon := true, idn := true, fuses := true, clk := true, pwr := true, img := true, nvm := true, bol := true, rows := true, pending := true, intake := true }) s t := by
  unfold readDumpHeaders at h
  extract_lets held s1 ready at h
  split at h
  · cases h
  · obtain rfl := Option.some.inj h
    exact .upd (.each (fun _ _ => (armArea_only ..).mono) .refl)
theorem finishStart_only (s) : Only (.but { aon := true, idn := true, fuses := true, clk := true, pwr := true, img := true, nvm := true, bol := true, fcc := true, pending := true, intake := true }) s (finishStart s) := by
  unfold finishStart
  refine .ite .refl ?_
  refine .ite ?_ ((enterParked_only ..).after (.upd ((claimArms_only ..).after ((leaveConfiguring_only ..).mono))))
  extract_lets
  split
  · exact (arbitrated_only ..).after (.ite ((sendArb_only ..).after ((atStep_only ..).mono)) ((atStep_only ..).mono))
  · exact .ite ((sendArb_only ..).after ((atStep_only ..).mono)) ((atStep_only ..).mono)
theorem configure_only (o s) : Only (.but { idn := true, fuses := true, clk := true, pwr := true, bol := true, rows := true, pending := true, intake := true }) s (configure o s) := by
  unfold configure
  extract_lets
  split
  · refine .ite ((startStop_only ..).after ((post_only ..).after ((Only.of_eq_fst (selectImage_only ..) ‹_›).after ((atStep_only ..).after (.upd .refl))))) ?_
    refine .ite ((startStop_only ..).after ((atStep_only ..).after (.ite ((atStep_only ..).after ((sweepAndTally_only ..).after ((Only.of_eq_fst (selectImage_only ..) ‹_›).after ((atStep_only ..).after (.upd .refl))))) ((Only.of_eq_fst (selectImage_only ..) ‹_›).after ((atStep_only ..).after (.upd .refl)))))) ?_
    refine .ite ((startStop_only ..).after ((atStep_only ..).after ((trainMillpond_only ..).after ((atStep_only ..).after (.ite ((atStep_only ..).after ((sweepAndTally_only ..).after ((Only.of_eq_fst (selectImage_only ..) ‹_›).after ((atStep_only ..).after (.upd .refl))))) ((Only.of_eq_fst (selectImage_only ..) ‹_›).after ((atStep_only ..).after (.upd .refl)))))))) ?_
    split
    · exact (startStop_only ..).after ((post_only ..).after ((atStep_only ..).after ((trainMillpond_only ..).after ((atStep_only ..).after (.ite ((atStep_only ..).after ((sweepAndTally_only ..).after ((Only.of_eq_fst (selectImage_only ..) ‹_›).after ((atStep_only ..).after (.upd .refl))))) ((Only.of_eq_fst (selectImage_only ..) ‹_›).after ((atStep_only ..).after (.upd .refl))))))))
    · exact .each (fun _ _ => .ite ((modLink_only ..).mono) .refl) (.each (fun _ _ => (modAlk_only ..).mono) ((atStep_only ..).after ((readDumpHeaders_only ‹_›).after ((atStep_only ..).after ((trainMillpond_only ..).after ((atStep_only ..).after (.ite ((atStep_only ..).after ((sweepAndTally_only ..).after ((Only.of_eq_fst (selectImage_only ..) ‹_›).after ((atStep_only ..).after (.upd .refl))))) ((Only.of_eq_fst (selectImage_only ..) ‹_›).after ((atStep_only ..).after (.upd .refl))))))))))
theorem execResetRelease_only (o s) : OnlyNext (.but { fuses := true, rows := true, pending := true, intake := true }) s (execResetRelease o s) := by
  unfold execResetRelease
  refine Only.next ?_
  refine .ite .refl ?_
  refine .ite (.upd (.upd .refl)) ?_
  refine .ite ((startFail_only ..).after (.upd .refl)) ?_
  extract_lets
  split
  · exact (startStop_only ..).after ((atStep_only ..).after (.upd (.upd .refl)))
  · exact .ite ((startStop_only ..).after ((post_only ..).after (.upd ((atStep_only ..).after ((bist_only ‹_›).after ((atStep_only ..).after (.upd (.upd .refl)))))))) (.ite ((startStop_only ..).after ((atStep_only ..).after ((bist_only ‹_›).after ((atStep_only ..).after (.upd (.upd .refl)))))) ((configure_only ..).after (.ite ((atStep_only ..).after (.upd (.upd (.ite ((atStep_only ..).after ((bist_only ‹_›).after ((atStep_only ..).after (.upd (.upd .refl))))) ((post_only ..).after ((atStep_only ..).after ((bist_only ‹_›).after ((atStep_only ..).after (.upd (.upd .refl)))))))))) ((sweepAndTally_only ..).after ((atStep_only ..).after (.upd (.upd (.ite ((atStep_only ..).after ((bist_only ‹_›).after ((atStep_only ..).after (.upd (.upd .refl))))) ((post_only ..).after ((atStep_only ..).after ((bist_only ‹_›).after ((atStep_only ..).after (.upd (.upd .refl))))))))))))))
theorem linkSettled_only (a s) : Only (.but { aon := true, idn := true, fuses := true, clk := true, pwr := true, img := true, nvm := true, bol := true, fcc := true, pending := true, intake := true }) s (linkSettled a s) := by
  unfold linkSettled
  exact .ite ((finishStart_only ..).after ((closeCause_only ..).after ((alkCondition_only ..).after ((modAlk_only ..).mono)))) .refl
theorem execAckTelemetry_only (arm word s) : OnlyNext (.but { aon := true, idn := true, fuses := true, clk := true, pwr := true, img := true, nvm := true, bol := true, fcc := true, pending := true, intake := true }) s (execAckTelemetry arm word s) := by
  unfold execAckTelemetry
  refine .live ?_
  refine Only.next ?_
  split
  · exact .refl
  · exact .ite ((failStop_only ..).after ((alkCondition_only ..).after (.ite (.ite ((modAlk_only ..).after ((modAlk_only ..).mono)) ((modAlk_only ..).after ((modAlk_only ..).mono))) (.ite ((modAlk_only ..).after ((modAlk_only ..).mono)) ((modAlk_only ..).mono))))) (.ite ((alkPut_only ..).after ((modAlk_only ..).after (.ite (.ite ((modAlk_only ..).after ((modAlk_only ..).mono)) ((modAlk_only ..).after ((modAlk_only ..).mono))) (.ite ((modAlk_only ..).after ((modAlk_only ..).mono)) ((modAlk_only ..).mono))))) ((linkSettled_only ..).after (.ite (.ite ((modAlk_only ..).after ((modAlk_only ..).mono)) ((modAlk_only ..).after ((modAlk_only ..).mono))) (.ite ((modAlk_only ..).after ((modAlk_only ..).mono)) ((modAlk_only ..).mono)))))
theorem execIdentity_only (arm word s) : OnlyNext (.but { aon := true, idn := true, fuses := true, clk := true, pwr := true, img := true, nvm := true, bol := true, rows := true, fcc := true, pending := true, intake := true }) s (execIdentity arm word s) := by
  unfold execIdentity
  exact .live (Only.next (.ite (.ite ((sendLaneMap_only ..).after ((sendTelemSet_only ..).after ((sendTimeSet_only ..).after ((modAlk_only ..).after ((modAlk_only ..).mono))))) ((alkTrainFailed_only ..).after ((modAlk_only ..).mono))) ((modAlk_only ..).mono)))
theorem reconfigure_only (s) : Only (.but { aon := true, idn := true, fuses := true, clk := true, pwr := true, nvm := true, bol := true, fcc := true, pending := true, intake := true }) s (reconfigure s) := by
  unfold reconfigure
  exact .ite ((startStop_only ..).after ((post_only ..).after ((selectImage_only ..).after ((atStep_only ..).after (.upd .refl))))) ((finishStart_only ..).after ((atStep_only ..).after ((selectImage_only ..).after ((atStep_only ..).after (.upd .refl)))))
theorem replayArea_only (k unreadable s) : Only { evt := true, mqs := true, hold := true, diag := true, layout := true, heads := true, gov := true, mpd := true, links := true, injs := true, hop := true, tx := true, free := true } s (replayArea k unreadable s) := by
  unfold replayArea
  refine .each (fun _ _ => .each (fun _ _ => (addDeferred_only ..).mono) .refl) ?_
  refine .each (fun _ _ => ?_) (.each (fun _ _ => (putLayout_only ..).mono) .refl)
  split
  · exact (replayBlock_only ..).mono
  · exact (missBlock_only ..).mono
theorem settleMissing_only (s) : Only { evt := true, mqs := true, hold := true, layout := true, gov := true, links := true, injs := true, hop := true, tx := true, free := true } s (settleMissing s) := by
  unfold settleMissing
  exact .ite (.each (fun _ _ => .ite ((raiseDeferred_only ..).mono) ((listBlock_only ..).mono)) (.upd .refl)) ((post_only ..).after (.each (fun _ _ => .ite ((raiseDeferred_only ..).mono) ((listBlock_only ..).mono)) (.upd .refl)))
theorem execReplayReadDone_only (area unreadable s) : OnlyNext { start := true, evt := true, mqs := true, hold := true, diag := true, layout := true, heads := true, gov := true, mpd := true, links := true, injs := true, hop := true, tx := true, free := true } s (execReplayReadDone area unreadable s) := by
  unfold execReplayReadDone
  exact .live (Only.next (.ite .refl (.ite ((settleMissing_only ..).after (.upd (.upd ((replayArea_only ..).mono)))) (.upd ((replayArea_only ..).mono)))))
theorem execDumpRetire_only (area s) : OnlyNext (.but { aon := true, idn := true, fuses := true, clk := true, pwr := true, img := true, nvm := true, bol := true, rows := true, pending := true, intake := true }) s (execDumpRetire area s) := by
  unfold execDumpRetire
  exact .live (Only.next (.ite (.ite ((armArea_only ..).after (.upd .refl)) .refl) (.ite (.ite ((post_only ..).after (.upd ((armArea_only ..).after (.upd .refl)))) ((armArea_only ..).after (.upd .refl))) .refl)))
theorem execLoadingComplete_only (s) : OnlyNext (.but { aon := true, idn := true, fuses := true, clk := true, pwr := true, flt := true, img := true, nvm := true, bol := true, fls := true, fcc := true, pending := true, intake := true }) s (execLoadingComplete s) := by
  unfold execLoadingComplete
  exact .live (Only.next (.ite .refl (.ite ((post_only ..).after (.ite ((enterReady_only ..).after (.upd (.ite ((settleMissing_only ..).mono) ((enterSolo_only ..).after ((settleMissing_only ..).mono))))) (.upd ((enterReady_only ..).after (.upd (.ite ((settleMissing_only ..).mono) ((enterSolo_only ..).after ((settleMissing_only ..).mono)))))))) (.ite ((post_only ..).after ((ptnSend_only ..).after (.upd ((post_only ..).after (.ite ((enterReady_only ..).after (.upd (.ite ((settleMissing_only ..).mono) ((enterSolo_only ..).after ((settleMissing_only ..).mono))))) (.upd ((enterReady_only ..).after (.upd (.ite ((settleMissing_only ..).mono) ((enterSolo_only ..).after ((settleMissing_only ..).mono))))))))))) ((post_only ..).after ((post_only ..).after (.ite ((enterReady_only ..).after (.upd (.ite ((settleMissing_only ..).mono) ((enterSolo_only ..).after ((settleMissing_only ..).mono))))) (.upd ((enterReady_only ..).after (.upd (.ite ((settleMissing_only ..).mono) ((enterSolo_only ..).after ((settleMissing_only ..).mono)))))))))))))
theorem setUnlock_only (path u s) : Only { diag := true } s (setUnlock path u s) := by
  unfold setUnlock
  split <;> exact .upd .refl
theorem putTraceCfg_only (c v s) : Only { gov := true } s (putTraceCfg c v s) := by
  unfold putTraceCfg
  exact (modTrace_only ..).after (.ite (.each (fun _ _ => (modTrace_only ..).mono) (.upd .refl)) .refl)
theorem armTrace_only (s) : Only { gov := true } s (armTrace s) := by
  unfold armTrace
  exact .each (fun _ _ => (modTrace_only ..).mono) (.upd .refl)
theorem putTraceTrig_only (v s) : Only { gov := true } s (putTraceTrig v s) := by
  unfold putTraceTrig
  exact .ite ((traceFire_only ..).after (.ite ((armTrace_only ..).after (.upd .refl)) (.upd .refl))) (.ite ((armTrace_only ..).after (.upd .refl)) (.upd .refl))
theorem putFltReport_only (v s) : Only { dev := true, flt := true, evt := true, mqs := true, diag := true, alks := true, islands := true, heads := true, gov := true, mrc := true, slu := true, fan := true, tx := true, free := true } s (putFltReport v s) := by
  unfold putFltReport
  exact .ite ((report_only ..).after (.upd .refl)) (.upd .refl)
theorem storeTest_only (mem at_ d s) : Only { mrc := true, mpd := true, tre := true } s (storeTest mem at_ d s) := by
  unfold storeTest
  exact .ite ((modSlot_only ..).mono) (.ite (.updWith .refl (.of_parts (frames := tabSet_wf _ _ _ _))) (.ite (.upd .refl) .refl))
theorem eccGo_only (source s) : Only { evt := true, diag := true, gov := true, mrc := true, mpd := true, tre := true } s (eccGo source s) := by
  unfold eccGo
  split
  · exact .upd .refl
  · exact .ite (.upd .refl) ((post_only ..).after (.upd ((storeTest_only ..).after ((dropTag_only ..).mono))))
theorem putTreHalt_only (v s) : Only { dev := true, flt := true, evt := true, mqs := true, diag := true, alks := true, islands := true, heads := true, gov := true, mrc := true, rows := true, tre := true, slu := true, fan := true, tx := true, free := true } s (putTreHalt v s) := by
  unfold putTreHalt
  exact .ite ((injectHalt_only ..).after (.upd .refl)) (.upd .refl)
theorem putLinkCfg_only (p v s) : Only { injs := true } s (putLinkCfg p v s) := by
  unfold putLinkCfg
  exact (modInj_only ..).mono
theorem landWrite_only (source a v s) : Only { dev := true, flt := true, evt := true, mqs := true, diag := true, alks := true, islands := true, heads := true, gov := true, mrc := true, mpd := true, rows := true, tre := true, injs := true, slu := true, fan := true, tx := true, free := true } s (landWrite source a v s) := by
  unfold landWrite
  refine .ite (.ite (.upd (.ite (.upd .refl) .refl)) (.ite (.upd .refl) .refl)) ?_
  refine .ite ((putTraceTrig_only ..).mono) ?_
  refine .ite (.upd .refl) ?_
  refine .ite ((putFltReport_only ..).mono) ?_
  refine .ite (.upd .refl) ?_
  refine .ite (.upd .refl) ?_
  refine .ite (.upd .refl) ?_
  refine .ite (.ite ((eccGo_only ..).mono) .refl) ?_
  refine .ite ((putTreHalt_only ..).mono) ?_
  split
  · exact (putTraceCfg_only ..).mono
  · split
    · exact (putLinkCfg_only ..).mono
    · split
      · exact (modInj_only ..).mono
      · exact .refl
theorem countDenied_only (s) : Only { idn := true } s (countDenied s) := by
  unfold countDenied
  exact .upd .refl
theorem countWrite_only (s) : Only { idn := true } s (countWrite s) := by
  unfold countWrite
  exact .upd .refl
theorem diagWriteAs_only (op path a v s) : Only { dev := true, idn := true, flt := true, evt := true, mqs := true, diag := true, alks := true, islands := true, heads := true, gov := true, mrc := true, mpd := true, rows := true, tre := true, injs := true, slu := true, fan := true, tx := true, free := true } s (diagWriteAs op path a v s) := by
  unfold diagWriteAs
  split
  · exact (countWrite_only ..).after ((landWrite_only ..).mono)
  · exact (countDenied_only ..).mono
theorem pathWrite_only (path a v s) : Only { dev := true, idn := true, flt := true, evt := true, mqs := true, diag := true, alks := true, islands := true, heads := true, gov := true, mrc := true, mpd := true, rows := true, tre := true, injs := true, slu := true, fan := true, tx := true, free := true } s (pathWrite path a v s) := by
  unfold pathWrite
  exact .ite .refl ((diagWriteAs_only ..).mono)
theorem reportUe_only (path as s) : Only { dev := true, idn := true, flt := true, evt := true, mqs := true, alks := true, islands := true, heads := true, gov := true, mrc := true, slu := true, fan := true, tx := true, free := true } s (reportUe path as s) := by
  unfold reportUe
  exact .each (fun _ _ => (report_only ..).after ((nextFree_only ..).after (.upd .refl))) .refl
theorem execFltClearCounts_only (path s) : OnlyNext { dev := true, idn := true, flt := true, evt := true, mqs := true, diag := true, alks := true, islands := true, heads := true, gov := true, mrc := true, mpd := true, rows := true, tre := true, injs := true, slu := true, fan := true, tx := true, free := true } s (execFltClearCounts path s) := by
  unfold execFltClearCounts
  exact .live (Only.next ((pathWrite_only ..).mono))
theorem execFltClearFirst_only (path s) : OnlyNext { dev := true, idn := true, flt := true, evt := true, mqs := true, diag := true, alks := true, islands := true, heads := true, gov := true, mrc := true, mpd := true, rows := true, tre := true, injs := true, slu := true, fan := true, tx := true, free := true } s (execFltClearFirst path s) := by
  unfold execFltClearFirst
  exact .live (Only.next ((pathWrite_only ..).mono))
theorem execTraceCfgWrite_only (path ch value s) : OnlyNext { dev := true, idn := true, flt := true, evt := true, mqs := true, diag := true, alks := true, islands := true, heads := true, gov := true, mrc := true, mpd := true, rows := true, tre := true, injs := true, slu := true, fan := true, tx := true, free := true } s (execTraceCfgWrite path ch value s) := by
  unfold execTraceCfgWrite
  exact .live (Only.next ((pathWrite_only ..).mono))
theorem execTraceArm_only (path value s) : OnlyNext { dev := true, idn := true, flt := true, evt := true, mqs := true, diag := true, alks := true, islands := true, heads := true, gov := true, mrc := true, mpd := true, rows := true, tre := true, injs := true, slu := true, fan := true, tx := true, free := true } s (execTraceArm path value s) := by
  unfold execTraceArm
  exact .live (Only.next ((pathWrite_only ..).mono))
theorem execTraceFire_only (path value s) : OnlyNext { dev := true, idn := true, flt := true, evt := true, mqs := true, diag := true, alks := true, islands := true, heads := true, gov := true, mrc := true, mpd := true, rows := true, tre := true, injs := true, slu := true, fan := true, tx := true, free := true } s (execTraceFire path value s) := by
  unfold execTraceFire
  exact .live (Only.next ((pathWrite_only ..).mono))
theorem execInjFltReportGo_only (path value s) : OnlyNext { dev := true, idn := true, flt := true, evt := true, mqs := true, diag := true, alks := true, islands := true, heads := true, gov := true, mrc := true, mpd := true, rows := true, tre := true, injs := true, slu := true, fan := true, tx := true, free := true } s (execInjFltReportGo path value s) := by
  unfold execInjFltReportGo
  exact .live (Only.next ((pathWrite_only ..).mono))
theorem execInjEccGo_only (path value s) : OnlyNext { dev := true, idn := true, flt := true, evt := true, mqs := true, diag := true, alks := true, islands := true, heads := true, gov := true, mrc := true, mpd := true, rows := true, tre := true, injs := true, slu := true, fan := true, tx := true, free := true } s (execInjEccGo path value s) := by
  unfold execInjEccGo
  exact .live (Only.next ((pathWrite_only ..).mono))
theorem execInjTreHaltGo_only (path value s) : OnlyNext { dev := true, idn := true, flt := true, evt := true, mqs := true, diag := true, alks := true, islands := true, heads := true, gov := true, mrc := true, mpd := true, rows := true, tre := true, injs := true, slu := true, fan := true, tx := true, free := true } s (execInjTreHaltGo path value s) := by
  unfold execInjTreHaltGo
  exact .live (Only.next ((pathWrite_only ..).mono))
theorem execInjLnkCfgWrite_only (path port value s) : OnlyNext { dev := true, idn := true, flt := true, evt := true, mqs := true, diag := true, alks := true, islands := true, heads := true, gov := true, mrc := true, mpd := true, rows := true, tre := true, injs := true, slu := true, fan := true, tx := true, free := true } s (execInjLnkCfgWrite path port value s) := by
  unfold execInjLnkCfgWrite
  exact .live (Only.next ((pathWrite_only ..).mono))
theorem execRegisterWrite_only (path address value s) : OnlyNext { dev := true, idn := true, flt := true, evt := true, mqs := true, diag := true, alks := true, islands := true, heads := true, gov := true, mrc := true, mpd := true, rows := true, tre := true, injs := true, slu := true, fan := true, tx := true, free := true } s (execRegisterWrite path address value s) := by
  unfold execRegisterWrite
  exact .live (Only.next ((pathWrite_only ..).mono))
theorem newChallenge_only (path s) : Only { diag := true, free := true } s (newChallenge path s) := by
  unfold newChallenge
  exact (nextFree_only ..).after ((setUnlock_only ..).mono)
theorem takeResponse_only (path response s) : Only { idn := true, diag := true } s (takeResponse path response s).2 := by
  unfold takeResponse
  extract_lets
  split
  · exact .refl
  · split
    · exact (setUnlock_only ..).mono
    · exact (setUnlock_only ..).after (.upd .refl)
theorem endUnlock_only (path s) : Only { diag := true } s (endUnlock path s) := by
  unfold endUnlock
  exact (setUnlock_only ..).mono
theorem execUnlockExpiry_only (path s) : OnlyNext { diag := true } s (execUnlockExpiry path s) := by
  unfold execUnlockExpiry
  exact .live (Only.next ((endUnlock_only ..).mono))
theorem execUnlockRefusalEnd_only (path s) : OnlyNext { diag := true } s (execUnlockRefusalEnd path s) := by
  unfold execUnlockRefusalEnd
  exact .live (Only.next ((setUnlock_only ..).mono))
theorem setIr_only (code drives s) : Only { diag := true } s (setIr code drives s) := by
  unfold setIr
  exact .upd .refl
theorem accResult_only (data status ue s) : Only { diag := true } s (accResult data status ue s) := by
  unfold accResult
  exact .upd .refl
theorem execDiagAccRead_only (address ue s) : OnlyNext { dev := true, idn := true, flt := true, evt := true, mqs := true, diag := true, alks := true, islands := true, heads := true, gov := true, mrc := true, slu := true, fan := true, tx := true, free := true } s (execDiagAccRead address ue s) := by
  unfold execDiagAccRead
  exact Only.next (.ite ((setIr_only ..).after ((send_only ..).mono)) (.ite ((accResult_only ..).after ((countDenied_only ..).after ((setIr_only ..).after ((send_only ..).mono)))) (.ite ((accResult_only ..).after ((reportUe_only ..).after ((setIr_only ..).after ((send_only ..).mono)))) ((accResult_only ..).after ((setIr_only ..).after ((send_only ..).mono))))))
theorem execDiagAccWrite_only (address value s) : OnlyNext { dev := true, idn := true, flt := true, evt := true, mqs := true, diag := true, alks := true, islands := true, heads := true, gov := true, mrc := true, mpd := true, rows := true, tre := true, injs := true, slu := true, fan := true, tx := true, free := true } s (execDiagAccWrite address value s) := by
  unfold execDiagAccWrite
  exact Only.next (.ite ((setIr_only ..).after ((send_only ..).mono)) ((accResult_only ..).after ((diagWriteAs_only ..).after ((setIr_only ..).after ((send_only ..).mono)))))
/-- JTAG_UNLOCK, with the step that is taken (R660). -/
theorem Only.jtagUnlock {m : Units} {s t : State} {f : State → State} (hf : ∀ u, Only m u (f u)) (h : Only m s t)
    (le : ({ diag := true, tx := true } : Units).le m = true := by rfl) : Only m s (Machine.jtagUnlock f t) := by
  have hu : Only m t (setIr 0x21 false (send (.jtag (unlockCapture t)) t)) := ((setIr_only ..).after (send_only ..).mono : Only { diag := true, tx := true } _ _).mono le
  unfold Machine.jtagUnlock
  exact .ite (h.trans hu) ((h.trans hu).trans (hf _))
theorem execJtagUnlockChallenge_only (s) : OnlyNext { diag := true, tx := true, free := true } s (execJtagUnlockChallenge s) := by
  unfold execJtagUnlockChallenge
  exact Only.next (Only.jtagUnlock (fun _ => (newChallenge_only ..).mono) .refl)
theorem execJtagUnlockResponse_only (response s) : OnlyNext { idn := true, diag := true, tx := true } s (execJtagUnlockResponse response s) := by
  unfold execJtagUnlockResponse
  exact Only.next (Only.jtagUnlock (fun _ => (takeResponse_only ..).mono) .refl)
theorem execJtagUnlockLock_only (s) : OnlyNext { diag := true, tx := true } s (execJtagUnlockLock s) := by
  unfold execJtagUnlockLock
  exact Only.next (Only.jtagUnlock (fun _ => (endUnlock_only ..).mono) .refl)
theorem execTapReset_only (s) : OnlyNext { diag := true } s (execTapReset s) := by
  unfold execTapReset
  exact Only.next ((setIr_only ..).after ((endUnlock_only ..).mono))
theorem fuseResult_only (status s) : Only { diag := true } s (fuseResult status s) := by
  unfold fuseResult
  exact .upd .refl
theorem execFuseProg_only (go group value vioOk s) : OnlyNext { fuses := true, diag := true, tx := true } s (execFuseProg go group value vioOk s) := by
  unfold execFuseProg
  exact Only.next (.ite ((setIr_only ..).after ((send_only ..).mono)) (.ite ((fuseResult_only ..).after ((setIr_only ..).after ((send_only ..).mono))) (.ite ((fuseResult_only ..).after ((setIr_only ..).after ((send_only ..).mono))) (.ite ((fuseResult_only ..).after (.upd ((setIr_only ..).after ((send_only ..).mono)))) (.ite ((fuseResult_only ..).after (.upd ((setIr_only ..).after ((send_only ..).mono)))) ((fuseResult_only ..).after (.upd ((setIr_only ..).after ((send_only ..).mono)))))))))
theorem setCells_only (cells s) : Only { diag := true } s (setCells cells s) := by
  unfold setCells
  exact .upd .refl
theorem execExtest_only (drive s) : OnlyNext { diag := true } s (execExtest drive s) := by
  unfold execExtest
  exact Only.next ((setCells_only ..).after ((setIr_only ..).mono))
theorem execSamplePreload_only (sample preload s) : OnlyNext { diag := true, tx := true } s (execSamplePreload sample preload s) := by
  unfold execSamplePreload
  exact Only.next ((setCells_only ..).after ((setIr_only ..).after ((send_only ..).mono)))
theorem execIdcode_only (s) : OnlyNext { diag := true, tx := true } s (execIdcode s) := by
  unfold execIdcode
  exact Only.next ((setIr_only ..).after ((send_only ..).mono))
theorem execExtestPulse_only (drive s) : OnlyNext { diag := true } s (execExtestPulse drive s) := by
  unfold execExtestPulse
  exact Only.next ((setCells_only ..).after ((setIr_only ..).mono))
theorem execExtestTrain_only (drive s) : OnlyNext { diag := true } s (execExtestTrain drive s) := by
  unfold execExtestTrain
  exact Only.next ((setCells_only ..).after ((setIr_only ..).mono))
theorem execBypass_only (code s) : OnlyNext { diag := true, tx := true } s (execBypass code s) := by
  unfold execBypass
  exact Only.next ((setIr_only ..).after ((send_only ..).mono))
theorem replyWith_only (arr blocks info s) : Only { hop := true } s (replyWith arr blocks info s) := by
  unfold replyWith
  exact (modCmd_only ..).mono
theorem readDeferred_only (arr p s) : Only { evt := true, gov := true, hop := true } s (readDeferred arr p s) := by
  unfold readDeferred
  split
  · exact (replyWith_only ..).mono
  · exact (replyWith_only ..).after (.ite ((post_only ..).after ((modHopPort_only ..).mono)) ((modHopPort_only ..).mono))
theorem clearLog_only (index s) : Only { evt := true, gov := true } s (clearLog index s) := by
  unfold clearLog
  exact (post_only ..).after (.upd .refl)
theorem commitBank_only (c s) : Only (.but { aon := true, fuses := true, clk := true, pwr := true, nvm := true, bol := true, fcc := true, pending := true, intake := true }) s (commitBank c s) := by
  unfold commitBank
  exact .ite ((complete_only ..).mono) (.ite ((reconfigure_only ..).after (.upd ((complete_only ..).after ((post_only ..).after (.upd .refl))))) ((complete_only ..).after ((post_only ..).after (.upd .refl))))
theorem commitImage_only (c s) : Only (.but { aon := true, idn := true, fuses := true, clk := true, pwr := true, bol := true, fcc := true, pending := true, intake := true }) s (commitImage c s) := by
  unfold commitImage
  extract_lets
  split
  · exact (complete_only ..).after ((copyInvalid_only ..).mono)
  · exact .ite ((complete_only ..).mono) (.ite ((reconfigure_only ..).after ((complete_only ..).after ((post_only ..).after (.upd .refl)))) ((complete_only ..).after ((post_only ..).after (.upd .refl))))
theorem microDone_only (arr s) : Only (.but { aon := true, fuses := true, clk := true, pwr := true, bol := true, fcc := true, pending := true, intake := true }) s (microDone arr s) := by
  unfold microDone
  split
  · exact .refl
  · exact .ite .refl (.ite ((complete_only ..).mono) (.ite ((commitImage_only ..).mono) ((commitBank_only ..).mono)))
theorem beginMicro_only (arr s) : Only (.but { aon := true, idn := true, fuses := true, clk := true, pwr := true, bol := true, rows := true, pending := true, intake := true }) s (beginMicro arr s) := by
  unfold beginMicro
  split
  · exact .refl
  · exact .ite ((complete_only ..).mono) (.ite (.ite (.upd ((modCmd_only ..).mono)) (.upd ((modCmd_only ..).mono))) (.ite ((eraseRegion_only ..).after (.upd ((modCmd_only ..).mono))) ((modCmd_only ..).mono)))
theorem landMicro_only (arr i data s) : Only (.but { aon := true, fuses := true, clk := true, pwr := true, bol := true, fcc := true, pending := true, intake := true }) s (landMicro arr i data s) := by
  unfold landMicro
  split
  · exact .refl
  · exact (microDone_only ..).after (.ite (.upd ((modCmd_only ..).mono)) (.ite (.upd ((modCmd_only ..).mono)) ((putFlashBlock_only ..).after (.upd ((modCmd_only ..).mono)))))
theorem execNvmProgramDone_only (s) : OnlyNext (.but { aon := true, fuses := true, clk := true, pwr := true, bol := true, fcc := true, pending := true, intake := true }) s (execNvmProgramDone s) := by
  unfold execNvmProgramDone
  refine .live (Only.next (.ite .refl ?_))
  extract_lets base n0 n1 t
  have ht : Only (.but { aon := true, fuses := true, clk := true, pwr := true, bol := true, fcc := true, pending := true, intake := true }) s t := .updWith .refl (.of_parts (blocks := fun h => by
    dsimp only [n1, n0]
    split
    · exact tabFilter_wf _ _ _ h
    · split
      · exact h
      · exact tabSet_wf _ _ _ _ h))
  clear_value t
  split
  · exact (microDone_only ..).after ht
  · exact ht
theorem execNvmBusyTimeout_only (s) : OnlyNext { diag := true, nvm := true, mrc := true, mpd := true, links := true, injs := true, hop := true, tx := true } s (execNvmBusyTimeout s) := by
  unfold execNvmBusyTimeout
  refine .live (Only.next (.ite .refl ?_))
  extract_lets by_ n t
  have ht : Only { diag := true, nvm := true, mrc := true, mpd := true, links := true, injs := true, hop := true, tx := true } s t := .upd .refl
  clear_value by_ t
  split
  · exact (complete_only ..).after ht
  · exact ht
theorem doDiagRead_only (arr p c ue s) : Only { dev := true, idn := true, flt := true, evt := true, mqs := true, diag := true, alks := true, islands := true, heads := true, gov := true, mrc := true, mpd := true, links := true, injs := true, hop := true, slu := true, fan := true, tx := true, free := true } s (doDiagRead arr p c ue s) := by
  unfold doDiagRead
  exact .ite ((complete_only ..).after ((countDenied_only ..).mono)) ((replyWith_only ..).after ((reportUe_only ..).mono))
theorem doDiagWrite_only (arr p c s) : Only (.but { aon := true, start := true, fuses := true, clk := true, pwr := true, ptn := true, hold := true, img := true, nvm := true, layout := true, bol := true, arms := true, spn := true, spc := true, fls := true, fcc := true, pending := true, intake := true }) s (doDiagWrite arr p c s) := by
  unfold doDiagWrite
  have hw : Only (.but { aon := true, start := true, fuses := true, clk := true, pwr := true, ptn := true, hold := true, img := true, nvm := true, layout := true, bol := true, arms := true, spn := true, spc := true, fls := true, fcc := true, pending := true, intake := true }) s (diagWriteAs c.opcode.toNat (.port p) c.arg64.toNat (c.argx.setWidth 64) s) := (diagWriteAs_only ..).mono
  extract_lets op a v ended
  have he (r : Access) : Only (.but { aon := true, start := true, fuses := true, clk := true, pwr := true, ptn := true, hold := true, img := true, nvm := true, layout := true, bol := true, arms := true, spn := true, spc := true, fls := true, fcc := true, pending := true, intake := true }) s (ended r (diagWriteAs op (.port p) a v s)) := by
    cases r <;> exact (complete_only ..).after hw
  exact he _
theorem doUnlock_only (arr p c s) : Only { idn := true, diag := true, mrc := true, mpd := true, links := true, injs := true, hop := true, tx := true, free := true } s (doUnlock arr p c s) := by
  unfold doUnlock
  refine .ite ((complete_only ..).mono) ?_
  refine .ite ((replyWith_only ..).after ((newChallenge_only ..).mono)) ?_
  refine .ite ?_ ((complete_only ..).after ((endUnlock_only ..).mono))
  split <;> exact (complete_only ..).after (Only.of_eq_snd ((takeResponse_only ..).mono) ‹_›)
theorem startCommand_only (arr p c x s) : Only (.but { fuses := true, clk := true, pwr := true, bol := true, pending := true, intake := true }) s (startCommand arr p c x s) := by
  unfold startCommand
  split
  · exact (beginMedia_only ..).mono
  · exact (beginMedia_only ..).mono
  · exact (beginMedia_only ..).mono
  · exact (beginMedia_only ..).after (.ite .refl ((enterSolo_only ..).mono))
  · exact (beginAbort_only ..).mono
  · exact (replyWith_only ..).mono
  · exact (complete_only ..).mono
  · exact (complete_only ..).after ((refreshBudget_only ..).after (.upd .refl))
  · exact (replyWith_only ..).mono
  · exact (complete_only ..).after ((clearLog_only ..).mono)
  · exact (readDeferred_only ..).mono
  · exact (complete_only ..).after (.upd .refl)
  · exact (beginSpin_only ..).mono
  · exact (complete_only ..).after ((mqNote_only ..).after (.ite ((runTests_only ..).mono) .refl))
  · exact (doDiagRead_only ..).mono
  · exact (doDiagWrite_only ..).mono
  · exact (doDiagWrite_only ..).mono
  · exact (doDiagWrite_only ..).mono
  · exact (beginMicro_only ..).mono
  · exact (doUnlock_only ..).mono
  · exact (advanceHandover_only ..).after ((modCmd_only ..).mono)
theorem addCmd_only (arr p c x admitted s) : Only { hop := true } s (addCmd arr p c x admitted s) := by
  unfold addCmd
  exact .upd .refl
theorem noteDenied_only (c status s) : Only { idn := true } s (noteDenied c status s) := by
  unfold noteDenied
  exact .ite ((countDenied_only ..).mono) .refl
theorem refuseTag_only (arr p c s) : Only { links := true, injs := true, hop := true, tx := true } s (refuseTag arr p c s) := by
  unfold refuseTag
  exact (issueRec_only ..).after ((modHopPort_only ..).mono)
theorem arrive_only (p c x s) : Only (.but { fuses := true, clk := true, pwr := true, bol := true, pending := true, intake := true }) s (arrive p c x s) := by
  unfold arrive
  refine .ite .refl ?_
  refine .ite ((refuseTag_only ..).after (.upd .refl)) ?_
  split
  · exact (complete_only ..).after ((noteDenied_only ..).after ((addCmd_only ..).after (.upd .refl)))
  · extract_lets
    split
    · exact (startCommand_only ..).after ((mirror_only ..).after ((addCmd_only ..).after (.upd .refl)))
    · exact (complete_only ..).after ((addCmd_only ..).after (.upd .refl))
    · exact .ite ((complete_only ..).after ((addCmd_only ..).after (.upd .refl))) ((mqNote_only ..).after ((modCmd_only ..).after ((mirror_only ..).after ((addCmd_only ..).after (.upd .refl)))))
    · exact (mqNote_only ..).after ((modCmd_only ..).after ((mirror_only ..).after ((addCmd_only ..).after (.upd .refl))))
theorem arriveAs_only (op p c x s) : OnlyNext (.but { fuses := true, clk := true, pwr := true, bol := true, pending := true, intake := true }) s (arriveAs op p c x s) := by
  unfold arriveAs
  exact .live (Only.next ((arrive_only ..).mono))
theorem arriveArg_only (op subs commit p c x s) : OnlyNext (.but { fuses := true, clk := true, pwr := true, bol := true, pending := true, intake := true }) s (arriveArg op subs commit p c x s) := by
  unfold arriveArg
  exact (arriveAs_only ..).mono
theorem execRead_only (p c s) : OnlyNext (.but { fuses := true, clk := true, pwr := true, bol := true, pending := true, intake := true }) s (execRead p c s) := by
  unfold execRead
  exact (arriveAs_only ..).mono
theorem execWrite_only (p c s) : OnlyNext (.but { fuses := true, clk := true, pwr := true, bol := true, pending := true, intake := true }) s (execWrite p c s) := by
  unfold execWrite
  exact (arriveAs_only ..).mono
theorem execVerify_only (p c s) : OnlyNext (.but { fuses := true, clk := true, pwr := true, bol := true, pending := true, intake := true }) s (execVerify p c s) := by
  unfold execVerify
  exact (arriveAs_only ..).mono
theorem execFlush_only (p c s) : OnlyNext (.but { fuses := true, clk := true, pwr := true, bol := true, pending := true, intake := true }) s (execFlush p c s) := by
  unfold execFlush
  exact (arriveAs_only ..).mono
theorem execAbort_only (p c s) : OnlyNext (.but { fuses := true, clk := true, pwr := true, bol := true, pending := true, intake := true }) s (execAbort p c s) := by
  unfold execAbort
  exact (arriveAs_only ..).mono
theorem execIdentify_only (p c s) : OnlyNext (.but { fuses := true, clk := true, pwr := true, bol := true, pending := true, intake := true }) s (execIdentify p c s) := by
  unfold execIdentify
  exact (arriveAs_only ..).mono
theorem execGetState_only (p c s) : OnlyNext (.but { fuses := true, clk := true, pwr := true, bol := true, pending := true, intake := true }) s (execGetState p c s) := by
  unfold execGetState
  exact (arriveAs_only ..).mono
theorem execSetBudget_only (p c s) : OnlyNext (.but { fuses := true, clk := true, pwr := true, bol := true, pending := true, intake := true }) s (execSetBudget p c s) := by
  unfold execSetBudget
  exact (arriveAs_only ..).mono
theorem execLogRead_only (p c s) : OnlyNext (.but { fuses := true, clk := true, pwr := true, bol := true, pending := true, intake := true }) s (execLogRead p c s) := by
  unfold execLogRead
  exact (arriveAs_only ..).mono
theorem execLogClear_only (p c s) : OnlyNext (.but { fuses := true, clk := true, pwr := true, bol := true, pending := true, intake := true }) s (execLogClear p c s) := by
  unfold execLogClear
  exact (arriveAs_only ..).mono
theorem execDeferredRead_only (p c s) : OnlyNext (.but { fuses := true, clk := true, pwr := true, bol := true, pending := true, intake := true }) s (execDeferredRead p c s) := by
  unfold execDeferredRead
  exact (arriveAs_only ..).mono
theorem execTimeSet_only (p c s) : OnlyNext (.but { fuses := true, clk := true, pwr := true, bol := true, pending := true, intake := true }) s (execTimeSet p c s) := by
  unfold execTimeSet
  exact (arriveAs_only ..).mono
theorem execSpinPolicy_only (p c s) : OnlyNext (.but { fuses := true, clk := true, pwr := true, bol := true, pending := true, intake := true }) s (execSpinPolicy p c s) := by
  unfold execSpinPolicy
  exact (arriveArg_only ..).mono
theorem execSpinUp_only (p c s) : OnlyNext (.but { fuses := true, clk := true, pwr := true, bol := true, pending := true, intake := true }) s (execSpinUp p c s) := by
  unfold execSpinUp
  exact (arriveArg_only ..).mono
theorem execSpinDown_only (p c s) : OnlyNext (.but { fuses := true, clk := true, pwr := true, bol := true, pending := true, intake := true }) s (execSpinDown p c s) := by
  unfold execSpinDown
  exact (arriveArg_only ..).mono
theorem execSelfCheck_only (p c failed s) : OnlyNext (.but { fuses := true, clk := true, pwr := true, bol := true, pending := true, intake := true }) s (execSelfCheck p c failed s) := by
  unfold execSelfCheck
  exact (arriveAs_only ..).mono
theorem execDiagRead_only (p c ueRegs s) : OnlyNext (.but { fuses := true, clk := true, pwr := true, bol := true, pending := true, intake := true }) s (execDiagRead p c ueRegs s) := by
  unfold execDiagRead
  exact (arriveAs_only ..).mono
theorem execDiagWrite_only (p c s) : OnlyNext (.but { fuses := true, clk := true, pwr := true, bol := true, pending := true, intake := true }) s (execDiagWrite p c s) := by
  unfold execDiagWrite
  exact (arriveAs_only ..).mono
theorem execInject_only (p c s) : OnlyNext (.but { fuses := true, clk := true, pwr := true, bol := true, pending := true, intake := true }) s (execInject p c s) := by
  unfold execInject
  exact (arriveAs_only ..).mono
theorem execTraceControl_only (p c s) : OnlyNext (.but { fuses := true, clk := true, pwr := true, bol := true, pending := true, intake := true }) s (execTraceControl p c s) := by
  unfold execTraceControl
  exact (arriveAs_only ..).mono
theorem execUcodeBankWrite_only (p c s) : OnlyNext (.but { fuses := true, clk := true, pwr := true, bol := true, pending := true, intake := true }) s (execUcodeBankWrite p c s) := by
  unfold execUcodeBankWrite
  exact (arriveArg_only ..).mono
theorem execUcodeBankCommit_only (p c bankOk version s) : OnlyNext (.but { fuses := true, clk := true, pwr := true, bol := true, pending := true, intake := true }) s (execUcodeBankCommit p c bankOk version s) := by
  unfold execUcodeBankCommit
  exact (arriveArg_only ..).mono
theorem execImageCopyWrite_only (p c s) : OnlyNext (.but { fuses := true, clk := true, pwr := true, bol := true, pending := true, intake := true }) s (execImageCopyWrite p c s) := by
  unfold execImageCopyWrite
  exact (arriveArg_only ..).mono
theorem execImageCopyCommit_only (p c s) : OnlyNext (.but { fuses := true, clk := true, pwr := true, bol := true, pending := true, intake := true }) s (execImageCopyCommit p c s) := by
  unfold execImageCopyCommit
  exact (arriveArg_only ..).mono
theorem execUnlockChallenge_only (p c s) : OnlyNext (.but { fuses := true, clk := true, pwr := true, bol := true, pending := true, intake := true }) s (execUnlockChallenge p c s) := by
  unfold execUnlockChallenge
  exact (arriveArg_only ..).mono
theorem execUnlockResponse_only (p c s) : OnlyNext (.but { fuses := true, clk := true, pwr := true, bol := true, pending := true, intake := true }) s (execUnlockResponse p c s) := by
  unfold execUnlockResponse
  exact (arriveArg_only ..).mono
theorem execUnlockLock_only (p c s) : OnlyNext (.but { fuses := true, clk := true, pwr := true, bol := true, pending := true, intake := true }) s (execUnlockLock p c s) := by
  unfold execUnlockLock
  exact (arriveArg_only ..).mono
theorem execHandover_only (p c s) : OnlyNext (.but { fuses := true, clk := true, pwr := true, bol := true, pending := true, intake := true }) s (execHandover p c s) := by
  unfold execHandover
  exact (arriveAs_only ..).mono
theorem lockPort_only (p s) : Only { diag := true } s (lockPort p s) := by
  unfold lockPort
  exact .ite (.upd .refl) (.upd .refl)
theorem endCommands_only (p s) : Only (.but { aon := true, start := true, idn := true, fuses := true, clk := true, pwr := true, hold := true, img := true, nvm := true, layout := true, bol := true, arms := true, spn := true, spc := true, fcc := true, pending := true, intake := true }) s (endCommands p s) := by
  unfold endCommands
  exact (recheck_only ..).after (.each (fun _ _ => (pumpRead_only ..).mono) ((releaseFrames_only ..).after ((modHopPort_only ..).after (.upd (.each (fun _ _ => .ite ((freeSlots_only ..).after ((unpin_only ..).after (.ite ((mirror_only ..).mono) .refl))) ((withdrawLanding_only ..).after ((cancelDescs_only ..).after ((freeSlots_only ..).after ((unpin_only ..).after (.ite ((mirror_only ..).mono) .refl)))))) .refl)))))
theorem endSession_only (p reason s) : Only (.but { aon := true, start := true, idn := true, fuses := true, clk := true, pwr := true, hold := true, img := true, nvm := true, layout := true, bol := true, arms := true, spn := true, spc := true, fcc := true, pending := true }) s (endSession p reason s) := by
  unfold endSession
  exact (post_only ..).after (.ite (.upd ((lockPort_only ..).after ((endCommands_only ..).after ((modLink_any ..).mono)))) (.upd ((lockPort_only ..).after ((endCommands_only ..).after ((modLink_any ..).mono)))))
theorem takeSessionOpen_only (p r s) : Only (.but { aon := true, start := true, idn := true, fuses := true, clk := true, pwr := true, hold := true, img := true, nvm := true, layout := true, bol := true, arms := true, spn := true, spc := true, fcc := true, pending := true }) s (takeSessionOpen p r s) := by
  unfold takeSessionOpen
  exact .ite .refl (.ite ((putLctl_only ..).mono) (.ite (.ite ((putLctl_only ..).mono) (.ite ((putLctl_only ..).mono) (.each (fun _ _ => (sendAgain_only ..).mono) ((post_only ..).after ((putLctl_only ..).after ((takeAck_only ..).after ((modLink_only ..).mono))))))) (.ite ((putLctl_only ..).mono) ((takeoverCompletions_only ..).after ((post_only ..).after ((putLctl_only ..).after ((modLink_any ..).after (.ite .refl ((endSession_only ..).mono)))))))))
theorem execSessionOpen_only (p r s) : OnlyNext (.but { aon := true, start := true, idn := true, fuses := true, clk := true, pwr := true, hold := true, img := true, nvm := true, layout := true, bol := true, arms := true, spn := true, spc := true, fcc := true, pending := true }) s (execSessionOpen p r s) := by
  unfold execSessionOpen
  exact .live (Only.next ((takeSessionOpen_only ..).mono))
theorem takeSessionClose_only (p sid reason s) : Only (.but { aon := true, start := true, idn := true, fuses := true, clk := true, pwr := true, hold := true, img := true, nvm := true, layout := true, bol := true, arms := true, spn := true, spc := true, fcc := true, pending := true }) s (takeSessionClose p sid reason s) := by
  unfold takeSessionClose
  exact .ite ((endSession_only ..).mono) .refl
theorem execSessionClose_only (p sid reason s) : OnlyNext (.but { aon := true, start := true, idn := true, fuses := true, clk := true, pwr := true, hold := true, img := true, nvm := true, layout := true, bol := true, arms := true, spn := true, spc := true, fcc := true, pending := true }) s (execSessionClose p sid reason s) := by
  unfold execSessionClose
  exact .live (Only.next ((takeSessionClose_only ..).mono))
theorem execLinkHoldExpiry_only (p s) : OnlyNext (.but { aon := true, start := true, idn := true, fuses := true, clk := true, pwr := true, hold := true, img := true, nvm := true, layout := true, bol := true, arms := true, spn := true, spc := true, fcc := true, pending := true }) s (execLinkHoldExpiry p s) := by
  unfold execLinkHoldExpiry
  exact .live (Only.next (.ite ((endSession_only ..).mono) .refl))
theorem landBlock_only (arr i f s) : Only { diag := true, layout := true, mrc := true, mpd := true, links := true, injs := true, hop := true, slu := true, tx := true } s (landBlock arr i f s) := by
  unfold landBlock
  split
  · exact .refl
  · exact (releaseFrames_only ..).after ((recheck_only ..).after (.each (fun _ _ => (pumpRead_only ..).mono) (.ite (.upd (.ite ((setState_only ..).after (.ite ((setEntry_only ..).after (.each (fun _ _ => (mirror_only ..).mono) (.upd ((setEntry_only ..).after ((modCmd_only ..).mono))))) (.each (fun _ _ => (mirror_only ..).mono) (.upd ((setEntry_only ..).after ((modCmd_only ..).mono)))))) (.each (fun _ _ => (setState_only ..).mono) ((setState_only ..).after (.ite ((setEntry_only ..).after (.each (fun _ _ => (mirror_only ..).mono) (.upd ((setEntry_only ..).after ((modCmd_only ..).mono))))) (.each (fun _ _ => (mirror_only ..).mono) (.upd ((setEntry_only ..).after ((modCmd_only ..).mono))))))))) (.ite ((setState_only ..).after (.ite ((setEntry_only ..).after (.each (fun _ _ => (mirror_only ..).mono) (.upd ((setEntry_only ..).after ((modCmd_only ..).mono))))) (.each (fun _ _ => (mirror_only ..).mono) (.upd ((setEntry_only ..).after ((modCmd_only ..).mono)))))) (.each (fun _ _ => (setState_only ..).mono) ((setState_only ..).after (.ite ((setEntry_only ..).after (.each (fun _ _ => (mirror_only ..).mono) (.upd ((setEntry_only ..).after ((modCmd_only ..).mono))))) (.each (fun _ _ => (mirror_only ..).mono) (.upd ((setEntry_only ..).after ((modCmd_only ..).mono)))))))))))
theorem strayData_only (p s) : Only { hop := true } s (strayData p s) := by
  unfold strayData
  exact (modHopPort_only ..).mono
theorem toStream_only (p b s) : Only { tre := true } s (toStream p b s) := by
  unfold toStream
  exact .ite (.upd .refl) .refl
theorem takeWritePart_only (c w s) : Only { diag := true, layout := true, mrc := true, mpd := true, tre := true, links := true, injs := true, hop := true, slu := true, tx := true } s (takeWritePart c w s) := by
  unfold takeWritePart
  split
  · exact (strayData_only ..).mono
  · exact .ite ((strayData_only ..).mono) (.ite ((landBlock_only ..).after ((toStream_only ..).after (.upd ((setFrame_only ..).mono)))) (.upd ((setFrame_only ..).mono)))
theorem takeMicroPart_only (c w s) : Only (.but { aon := true, fuses := true, clk := true, pwr := true, bol := true, fcc := true, pending := true, intake := true }) s (takeMicroPart c w s) := by
  unfold takeMicroPart
  exact .ite ((strayData_only ..).mono) (.ite ((modCmd_only ..).mono) ((landMicro_only ..).after ((modCmd_only ..).mono)))
theorem takeWdata_only (p w s) : Only (.but { aon := true, fuses := true, clk := true, pwr := true, bol := true, fcc := true, pending := true, intake := true }) s (takeWdata p w s) := by
  unfold takeWdata
  split
  · exact (strayData_only ..).mono
  · exact .ite ((strayData_only ..).mono) (.ite ((takeWritePart_only ..).mono) ((takeMicroPart_only ..).mono))
theorem execWdataReceive_only (p w s) : OnlyNext (.but { aon := true, fuses := true, clk := true, pwr := true, bol := true, fcc := true, pending := true, intake := true }) s (execWdataReceive p w s) := by
  unfold execWdataReceive
  exact .live (Only.next ((takeWdata_only ..).mono))
theorem protoError_only (l s) : Only { evt := true, gov := true, links := true } s (protoError l s) := by
  unfold protoError
  exact .ite ((post_only ..).after ((modLink_only ..).mono)) ((modLink_only ..).mono)
theorem deliverCapsule_only (p c s) : Only (.but { fuses := true, clk := true, pwr := true, bol := true, pending := true, intake := true }) s (deliverCapsule p c s) := by
  unfold deliverCapsule
  exact .ite ((arrive_only ..).after ((nextFree_only ..).mono)) ((arrive_only ..).mono)
theorem deliverLctl_only (l f r s) : Only (.but { aon := true, start := true, idn := true, fuses := true, clk := true, pwr := true, hold := true, img := true, nvm := true, layout := true, bol := true, arms := true, spn := true, spc := true, fcc := true, pending := true }) s (deliverLctl l f r s) := by
  unfold deliverLctl
  split
  · exact .ite ((protoError_only ..).mono) ((takeSessionOpen_only ..).mono)
  · exact .ite ((protoError_only ..).mono) ((takeSessionClose_only ..).mono)
  · exact .ite ((protoError_only ..).mono) ((takeNak_only ..).mono)
  · exact .refl
  · exact (takeLaneMap_only ..).mono
  · exact (takeLaneMapDone_only ..).mono
  · exact (protoError_only ..).mono
theorem deliverMctl_only (r s) : Only (.but { aon := true, idn := true, fuses := true, clk := true, nvm := true, bol := true, fcc := true, pending := true, intake := true }) s (deliverMctl r s) := by
  unfold deliverMctl
  extract_lets
  split
  · exact (execArbitrate_only ..).after .refl
  · exact (execHeartbeat_only ..).after .refl
  · exact .ite ((protoError_only ..).mono) ((execConfirm_only ..).after .refl)
  · exact (execCmdCtx_only ..).after .refl
  · exact (execPtnCpl_only ..).after .refl
  · exact (execCplAcked_only ..).after .refl
  · exact (execPtnRowCommit_only ..).after .refl
  · exact .ite ((execPtnLayout_only ..).after .refl) ((protoError_only ..).mono)
  · exact (execPtnPlan_only ..).after .refl
  · exact .ite ((execPtnDeferred_only ..).after .refl) ((protoError_only ..).mono)
  · exact (execPtnFailstop_only ..).after .refl
  · split
    · exact (execHandoverRequest_only ..).after .refl
    · exact (execHandoverReleased_only ..).after .refl
    · exact (execHandoverActive_only ..).after .refl
  · exact .ite ((execResyncStart_only ..).after .refl) ((execResyncDone_only ..).after .refl)
  · exact .ite ((execFetchRequest_only ..).after .refl) .refl
  · exact (protoError_only ..).mono
theorem deliverMdata_only (frame fib data s) : Only { ptn := true, hold := true, diag := true, mrc := true, mpd := true, links := true, injs := true, hop := true, slu := true, tx := true } s (deliverMdata frame fib data s) := by
  unfold deliverMdata
  split
  · exact (execMdata_only ..).after .refl
  · exact .ite ((execFetchReply_only ..).after ((clearParts_only ..).after (.upd ((setFrame_only ..).mono)))) (.upd ((setFrame_only ..).mono))
theorem drainIntake_only (l s) : Only (.but { aon := true, fuses := true, clk := true, pwr := true, bol := true, fcc := true, pending := true }) s (drainIntake l s) := by
  unfold drainIntake
  exact .ite .refl (.each (fun _ _ => (returnCredit_only ..).after ((takeWdata_only ..).mono)) ((modLink_any ..).mono))
theorem deliverFrame_only (l f s) : Only (.but { fuses := true, clk := true, bol := true, pending := true }) s (deliverFrame l f s) := by
  unfold deliverFrame
  extract_lets
  split
  · exact (returnCredit_only ..).after (.each (fun _ _ => (deliverCapsule_only ..).mono) .refl)
  · exact (drainIntake_only ..).after ((modLink_any ..).mono)
  · exact (returnCredit_only ..).after ((deliverMdata_only ..).mono)
  · exact (returnCredit_only ..).after ((execMent_only ..).after .refl)
  · exact (returnCredit_only ..).after (.each (fun _ _ => (mqNote_only ..).after ((deliverMctl_only ..).mono)) .refl)
  · exact .refl
theorem deliverHeld_only (l n s) : Only (.but { fuses := true, clk := true, bol := true, pending := true }) s (deliverHeld l n s) := by
  induction n generalizing s with
  | zero => exact .refl
  | succ n ih =>
    unfold deliverHeld
    extract_lets
    split
    · exact .refl
    · exact (ih ..).after ((deliverFrame_only ..).after (modLink_only ..).mono)
theorem takeNumbered_only (l f s) : Only (.but { fuses := true, clk := true, bol := true, pending := true }) s (takeNumbered l f s) := by
  unfold takeNumbered
  exact .ite (.ite ((modInj_only ..).mono) ((modLink_only ..).mono)) (.ite ((modLink_only ..).mono) (.ite .refl ((modLink_only ..).after ((deliverHeld_only ..).after (.ite ((modInj_only ..).after ((modLink_only ..).mono)) ((modLink_only ..).mono))))))
theorem presentFrame_only (l f s) : Only (.but { fuses := true, clk := true, bol := true, pending := true }) s (presentFrame l f s) := by
  unfold presentFrame
  exact .ite ((modLink_only ..).mono) (.ite ((ptnFlush_only ..).after (.ite (.each (fun _ _ => (deliverLctl_only ..).mono) ((takeCredit_only ..).after (.ite ((takeAck_only ..).mono) .refl))) (.ite ((takeNumbered_only ..).after ((takeCredit_only ..).after (.ite ((takeAck_only ..).mono) .refl))) ((takeCredit_only ..).after (.ite ((takeAck_only ..).mono) .refl))))) (.ite (.each (fun _ _ => (deliverLctl_only ..).mono) ((takeCredit_only ..).after (.ite ((takeAck_only ..).mono) .refl))) (.ite ((takeNumbered_only ..).after ((takeCredit_only ..).after (.ite ((takeAck_only ..).mono) .refl))) ((takeCredit_only ..).after (.ite ((takeAck_only ..).mono) .refl)))))
theorem ageDelayed_only (l s) : Only (.but { fuses := true, clk := true, bol := true, pending := true }) s (ageDelayed l s) := by
  unfold ageDelayed
  exact .each (fun _ _ => (presentFrame_only ..).mono) ((modInj_only ..).mono)
theorem injectRx_only (l f s) : Only (.but { fuses := true, clk := true, bol := true, pending := true }) s (injectRx l f s) := by
  unfold injectRx
  refine .ite ((presentFrame_only ..).mono) ?_
  refine .ite ((ageDelayed_only ..).after ((presentFrame_only ..).mono)) ?_
  split
  · exact (ageDelayed_only ..).after ((presentFrame_only ..).after ((modInj_only ..).mono))
  · exact .ite ((modInj_only ..).mono) ((modInj_only ..).mono)
theorem execFrameReceive_only (l f s) : OnlyNext (.but { fuses := true, clk := true, bol := true, pending := true }) s (execFrameReceive l f s) := by
  unfold execFrameReceive
  exact .live (Only.next (.ite (.ite (.each (fun _ _ => (protoError_only ..).mono) .refl) .refl) (.ite ((modLink_only ..).after (.ite (.each (fun _ _ => (protoError_only ..).mono) .refl) .refl)) (.ite ((protoError_only ..).after (.ite (.each (fun _ _ => (protoError_only ..).mono) .refl) .refl)) ((injectRx_only ..).after (.ite (.each (fun _ _ => (protoError_only ..).mono) .refl) .refl))))))
theorem drainPorts_only (s) : Only (.but { aon := true, fuses := true, clk := true, pwr := true, bol := true, fcc := true, pending := true }) s (drainPorts s) := by
  unfold drainPorts
  exact .each (fun _ _ => .ite .refl ((drainIntake_only ..).mono)) .refl
theorem tick_only (s) : Only (.but { fuses := true, clk := true, pwr := true, bol := true, fcc := true, pending := true }) s (tick s) := by
  unfold tick
  exact .ite ((drainPorts_only ..).after ((copyUnits_only ..).after ((vcmFrames_only ..).after ((laneRounds_only ..).after ((alkRounds_only ..).after ((idleTick_only ..).mono)))))) ((idleTick_only ..).mono)

end Sys2Proof.Machine
end

section
/-! What outlasts a reset or the loss of the clocks (R587, R610): the cells of flash and NVM with their bookkeeping, and torn pages besides. -/

namespace Sys2Proof.Machine
set_option Elab.async false

/-- `t` is `s` but for torn pages of flash blocks. -/
def CutState (s t : State) : Prop := t = { s with fls := { s.fls with blocks := t.fls.blocks } } ∧ CutOnly s t

theorem CutOnly.refl (s : State) : CutOnly s s := fun _ => ⟨rfl, BitVec.and_self⟩
theorem CutOnly.trans {s t u : State} (h : CutOnly s t) (k : CutOnly t u) : CutOnly s u := fun p => by
  obtain ⟨hrest, htorn⟩ := h p
  obtain ⟨krest, ktorn⟩ := k p
  refine ⟨krest.trans hrest, ?_⟩
  rw [← htorn, ← BitVec.and_assoc, ktorn]
theorem CutState.trans {s t u : State} (h : CutState s t) (k : CutState t u) : CutState s u := by
  obtain ⟨ht, hcut⟩ := h
  obtain ⟨hu, kcut⟩ := k
  refine ⟨?_, hcut.trans kcut⟩
  rw [ht] at hu
  exact hu

theorem or_and_absorb {w : Nat} (a x : BitVec w) : (a ||| x) &&& a = a :=
  BitVec.eq_of_getLsbD_eq fun i _ => by
    rw [BitVec.getLsbD_and, BitVec.getLsbD_or]
    cases a.getLsbD i <;> simp
/-- Tearing more pages of a block leaves the rest of its bookkeeping. -/
theorem modBlk_torn_cut (s : State) (n : Nat) (x : BitVec 1024) : CutState s (modBlk s n fun d => { d with torn := d.torn ||| x }) := by
  refine ⟨rfl, fun p => ?_⟩
  by_cases hp : p = n
  · subst hp
    simp only [getBlk, modBlk, tabMod_same]
    exact ⟨trivial, or_and_absorb ..⟩
  · simp only [getBlk, modBlk, tabMod_other _ _ _ hp]
    exact ⟨trivial, BitVec.and_self⟩
theorem cutBank_cut (b : Nat) (s : State) : CutState s (cutBank b s) := by
  unfold cutBank
  dsimp only
  split
  · exact modBlk_torn_cut ..
  · split
    · refine ⟨rfl, fun p => ?_⟩
      by_cases hp : p = 512 * b + (getBank s b).block
      · subst hp
        simp only [getBlk, modBlk, tabMod_same]
        exact ⟨trivial, BitVec.allOnes_and⟩
      · simp only [getBlk, modBlk, tabMod_other _ _ _ hp]
        exact ⟨trivial, BitVec.and_self⟩
    · exact ⟨rfl, .refl s⟩
theorem cutBanks_cut (bs : List Nat) (s : State) : CutState s (each bs cutBank s) := by
  unfold each
  induction bs generalizing s with
  | nil => exact ⟨rfl, .refl s⟩
  | cons b bs ih => exact (cutBank_cut b s).trans (ih (cutBank b s))

/-- What a reset leaves (R587), with the cells of flash as they are. -/
theorem hardReset_lasting (s : State) : Lasting s (hardReset s) := by
  obtain ⟨hsame, hcut⟩ := cutBanks_cut (List.range 8) s
  unfold hardReset
  generalize each (List.range 8) cutBank s = t at hsame hcut
  rw [hsame] at hcut ⊢
  exact ⟨rfl, hcut, rfl, rfl, rfl, rfl, rfl, rfl⟩
/-- `Lasting` speaks of six units alone. -/
theorem Lasting.of_eq {s t u v : State} (h : Lasting s t)
    (hs : (u.fls, u.nvm, u.evt, u.hold, u.fuses, u.idn) = (s.fls, s.nvm, s.evt, s.hold, s.fuses, s.idn))
    (ht : (v.fls, v.nvm, v.evt, v.hold, v.fuses, v.idn) = (t.fls, t.nvm, t.evt, t.hold, t.fuses, t.idn)) : Lasting u v := by
  simp only [Prod.mk.injEq] at hs ht
  obtain ⟨hfls, hnvm, hevt, hhold, hfuses, hidn⟩ := hs
  obtain ⟨kfls, knvm, kevt, khold, kfuses, kidn⟩ := ht
  unfold Lasting CutOnly getBlk at *
  rw [hfls, hnvm, hevt, hhold, hfuses, hidn, kfls, knvm, kevt, khold, kfuses, kidn]
  exact h
theorem Lasting.refl (s : State) : Lasting s s := ⟨rfl, .refl s, rfl, rfl, rfl, rfl, rfl, rfl⟩
theorem hardReset_outputsLow_lasting (s : State) : Lasting s (hardReset (outputsLow s)) :=
  have h : Only { tx := true } s (outputsLow s) := (outputsLow_only s).mono
  (hardReset_lasting _).of_eq (by rw [h.fls, h.nvm, h.evt, h.hold, h.fuses, h.idn]) rfl
theorem clockFault_lasting (kind rail : Nat) (s : State) : Lasting s (clockFault kind rail s) := by
  have h := hardReset_outputsLow_lasting s
  unfold clockFault
  generalize hardReset (outputsLow s) = t at h
  exact h.of_eq rfl rfl
theorem live_lasting {s t u : State} (hu : Lasting s u) (h : live s (fun _ => .next u) = .next t) : Lasting s t := by
  unfold live at h
  split at h
  · exact Host.Outcome.next.inj h ▸ hu
  · exact Host.Outcome.next.inj h ▸ .refl s
theorem execRefclkLoss_lasting {s t : State} (h : execRefclkLoss s = .next t) : Lasting s t := live_lasting (clockFault_lasting 2 0 s) h
theorem execCorePllUnlock_lasting {s t : State} (h : execCorePllUnlock s = .next t) : Lasting s t := live_lasting (clockFault_lasting 3 0 s) h
theorem execSupplyFault_lasting {rail : Fin 7} {powerFailFirst : Bool} {s t : State} (h : execSupplyFault rail powerFailFirst s = .next t) : Lasting s t := by
  refine live_lasting (u := if rail = 0 || powerFailFirst then s else clockFault 1 rail s) ?_ h
  split
  · exact .refl s
  · exact clockFault_lasting ..
theorem execPowerOnReset_lasting {railsOk : Bool} {s t : State} (h : execPowerOnReset railsOk s = .next t) : Lasting s t := by
  have hr := hardReset_outputsLow_lasting s
  unfold execPowerOnReset at h
  generalize hardReset (outputsLow s) = u at hr h
  rw [← Host.Outcome.next.inj h]
  exact hr.of_eq rfl rfl
theorem execResetNAssert_lasting {s t : State} (h : execResetNAssert s = .next t) : Lasting s t := by
  have hr := hardReset_outputsLow_lasting s
  unfold execResetNAssert at h
  generalize hardReset (outputsLow s) = u at hr h
  rw [← Host.Outcome.next.inj h]
  split
  · exact .refl s
  · exact hr.of_eq rfl rfl

end Sys2Proof.Machine
end

section
/-! The frame of every command (O53, O60), and with it the canonical memories of O51. -/

namespace Sys2Proof.Machine
set_option Elab.async false

/-- The units that a command may change, by its row in `Frame`, with `intake` where it may deliver or drop write data. -/
def unitsOf (c : Instr) : Units :=
  match c with
  | .keepalive .. =>
      {  }
  | .sineInjectStart .. | .traceTrigger .. | .traceCaptureDone .. =>
      { gov := true }
  | .sampleWord .. | .streamMark .. | .alkTrainRetry .. | .laserMon .. | .heaterMon .. | .readerMon .. | .supplyTelemetry .. | .wfifoTelemetry ..
    | .telemetryUndefined .. =>
      { alks := true }
  | .codewordTake .. =>
      { bol := true }
  | .commitRecordFlush .. | .dramRefresh .. | .zqCalShort .. =>
      { mpd := true }
  | .descriptorPost .. | .trePause .. | .treResume .. | .treFlush .. | .treSkip .. =>
      { tre := true }
  | .tallyFlushTimer .. | .tallyBlockErase .. =>
      { evt := true }
  | .invalLine .. | .invalRange .. | .invalAll .. | .unlock .. | .unlockAll .. =>
      { fcc := true }
  | .lnkTrainRetry .. =>
      { links := true }
  | .unlockExpiry .. | .unlockRefusalEnd .. | .tapReset .. | .extest .. | .extestPulse .. | .extestTrain .. =>
      { diag := true }
  | .cplAcked .. =>
      { ptn := true }
  | .ptnPlan .. =>
      { fan := true }
  | .pwrFailNHigh .. =>
      { pwr := true }
  | .chopperOn .. | .chopperOff .. =>
      { spn := true, tx := true }
  | .alignDone .. | .windingREstimate .. =>
      { spn := true, spc := true }
  | .pinWaitExpiry .. =>
      { mpd := true, slu := true }
  | .mqPopWatchdog .. =>
      { mqs := true, tx := true }
  | .tallyEventPost .. =>
      { evt := true, gov := true }
  | .quietTimerExpiry .. =>
      { flt := true, gov := true }
  | .prefetchIssue .. =>
      { fls := true, fcc := true }
  | .lock .. =>
      { fcc := true, tx := true }
  | .takeoverResume .. =>
      { ptn := true, arms := true }
  | .cmdCtx .. =>
      { ptn := true, hop := true }
  | .ptnCpl .. =>
      { ptn := true, mpd := true }
  | .ptnRowCommit .. =>
      { diag := true, mpd := true }
  | .ptnLayout .. =>
      { layout := true, heads := true }
  | .jtagUnlockLock .. | .samplePreload .. | .idcode .. | .bypass .. =>
      { diag := true, tx := true }
  | .droopTrip .. | .vin12SenseFault .. =>
      { pwr := true, evt := true, gov := true }
  | .observerLock .. =>
      { flt := true, gov := true, spn := true }
  | .dataWindowEntry .. =>
      { flt := true, spn := true, spc := true }
  | .observerHandoff .. =>
      { gov := true, spn := true, spc := true }
  | .sparePatternTest .. | .spareChannelTrainingLoss .. =>
      { evt := true, gov := true, mpd := true }
  | .firstErrorCopy .. =>
      { flt := true, evt := true, gov := true }
  | .lnkTrainTimeout .. | .linkRxSilence .. | .laneMapDone .. =>
      { evt := true, gov := true, links := true }
  | .gapTimerExpiry .. | .ackDelayExpiry .. | .idleKeepalive .. | .laneMapRepeat .. | .fetchRequest .. | .stoppedArbitrateTick .. =>
      { links := true, injs := true, tx := true }
  | .writeGrant .. =>
      { diag := true, mpd := true, hop := true }
  | .budgetPwmSilence .. =>
      { pwr := true, slu := true, free := true }
  | .resyncDone .. =>
      { evt := true, ptn := true, gov := true }
  | .jtagUnlockChallenge .. =>
      { diag := true, tx := true, free := true }
  | .jtagUnlockResponse .. =>
      { idn := true, diag := true, tx := true }
  | .fuseProg .. =>
      { fuses := true, diag := true, tx := true }
  | .slackMonitorRead .. =>
      { pwr := true, evt := true, gov := true, fan := true }
  | .shortBrakeSwitch .. =>
      { gov := true, spn := true, spc := true, tx := true }
  | .islandTablesLoaded .. =>
      { alks := true, islands := true, heads := true, tx := true }
  | .replayTimerExpiry .. =>
      { evt := true, gov := true, links := true, tx := true }
  | .cplFrameSend .. =>
      { links := true, injs := true, hop := true, tx := true }
  | .avsRepeatWrite .. =>
      { pwr := true, flt := true, evt := true, gov := true, tx := true }
  | .overcurrentRecatch .. | .slowWaitDone .. | .catchAt1000 .. | .brakeStart .. =>
      { gov := true, spn := true, spc := true, slu := true, tx := true }
  | .lawReplace .. =>
      { gov := true, links := true, injs := true, fan := true, tx := true }
  | .lnkLaneErrorWindow .. | .lnkLaneLockLoss .. | .nak .. | .laneMap .. =>
      { evt := true, gov := true, links := true, injs := true, tx := true }
  | .mdata .. =>
      { hold := true, diag := true, mpd := true, links := true, injs := true, tx := true }
  | .headSuspendTick .. =>
      { mqs := true, alks := true, islands := true, bol := true, heads := true, tx := true, free := true }
  | .migrationComplete .. =>
      { flt := true, evt := true, mqs := true, gov := true, mpd := true, tx := true, free := true }
  | .lnkTrainAttempt .. | .heartbeat .. =>
      { evt := true, ptn := true, gov := true, mpd := true, links := true, injs := true, tx := true }
  | .rdataFrameSend .. =>
      { diag := true, mrc := true, mpd := true, links := true, injs := true, hop := true, tx := true }
  | .ment .. =>
      { hold := true, diag := true, mpd := true, links := true, injs := true, hop := true, tx := true }
  | .busOvRecover .. =>
      { dev := true, start := true, gov := true, spn := true, spc := true, hop := true, slu := true, tx := true }
  | .armCoastTimeout .. | .armUnload .. =>
      { alks := true, islands := true, heads := true, arms := true, gov := true, mrc := true, slu := true, tx := true }
  | .rawCheck .. =>
      { evt := true, mqs := true, islands := true, gov := true, slu := true, fan := true, tx := true, free := true }
  | .confirm .. =>
      { diag := true, mrc := true, mpd := true, links := true, injs := true, hop := true, slu := true, tx := true }
  | .ptnDeferred .. =>
      { evt := true, mqs := true, gov := true, links := true, injs := true, hop := true, tx := true, free := true }
  | .nvmBusyTimeout .. =>
      { diag := true, nvm := true, mrc := true, mpd := true, links := true, injs := true, hop := true, tx := true }
  | .headResumeTick .. =>
      { evt := true, mqs := true, alks := true, islands := true, bol := true, heads := true, gov := true, tx := true, free := true }
  | .rowBuild .. | .dirtyAgeExpiry .. =>
      { diag := true, mrc := true, mpd := true, rows := true, links := true, injs := true, hop := true, slu := true, tx := true }
  | .holdLimitExpiry .. =>
      { evt := true, diag := true, gov := true, mrc := true, mpd := true, links := true, injs := true, hop := true, tx := true }
  | .bpwmHoldExpiry .. | .pwmRiseSettle .. =>
      { dev := true, start := true, evt := true, gov := true, spn := true, spc := true, hop := true, slu := true, tx := true }
  | .heartbeatTick .. =>
      { ptn := true, arms := true, gov := true, spn := true, spc := true, links := true, injs := true, slu := true, tx := true }
  | .fetchReply .. =>
      { ptn := true, diag := true, mrc := true, mpd := true, links := true, injs := true, hop := true, slu := true, tx := true }
  | .budgetPwmPeriod .. =>
      { dev := true, start := true, pwr := true, evt := true, gov := true, spn := true, spc := true, hop := true, slu := true, tx := true }
  | .replan .. =>
      { pwr := true, evt := true, img := true, alks := true, islands := true, gov := true, links := true, injs := true, fan := true, tx := true }
  | .handoverActive .. =>
      { evt := true, ptn := true, diag := true, gov := true, mrc := true, mpd := true, links := true, injs := true, hop := true, tx := true }
  | .arbitrationTimeout .. =>
      { dev := true, start := true, evt := true, ptn := true, alks := true, gov := true, spn := true, spc := true, hop := true, slu := true, tx := true }
  | .dataWindowTimeout .. =>
      { dev := true, flt := true, evt := true, alks := true, islands := true, heads := true, gov := true, mrc := true, slu := true, fan := true, tx := true }
  | .spinupComplete .. =>
      { dev := true, start := true, pwr := true, evt := true, hold := true, img := true, islands := true, arms := true, gov := true, spn := true, fan := true }
  | .wedgeLossRun .. | .readerDisagreeRun .. | .mqPacketWrite .. | .mqPop .. | .faultReport .. =>
      { dev := true, flt := true, evt := true, mqs := true, alks := true, islands := true, heads := true, gov := true, mrc := true, slu := true, fan := true, tx := true, free := true }
  | .avsStep .. =>
      { dev := true, pwr := true, flt := true, evt := true, mqs := true, alks := true, islands := true, heads := true, gov := true, mrc := true, slu := true, fan := true, tx := true, free := true }
  | .strokeLimitRun .. | .settleTimeout .. =>
      { dev := true, flt := true, evt := true, mqs := true, alks := true, islands := true, heads := true, arms := true, gov := true, mrc := true, slu := true, fan := true, tx := true, free := true }
  | .mqProducerTimeout .. | .alkUplinkSilence .. | .portStatusTimeout .. =>
      { dev := true, flt := true, evt := true, mqs := true, alks := true, islands := true, heads := true, gov := true, mrc := true, rows := true, slu := true, fan := true, tx := true, free := true }
  | .flashProgram .. =>
      { dev := true, flt := true, evt := true, mqs := true, alks := true, islands := true, heads := true, gov := true, mrc := true, fls := true, slu := true, fan := true, tx := true, free := true }
  | .replayReadDone .. =>
      { start := true, evt := true, mqs := true, hold := true, diag := true, layout := true, heads := true, gov := true, mpd := true, links := true, injs := true, hop := true, tx := true, free := true }
  | .generatorExhausted .. =>
      { dev := true, flt := true, evt := true, mqs := true, alks := true, islands := true, heads := true, gov := true, spn := true, spc := true, mrc := true, slu := true, fan := true, tx := true, free := true }
  | .retractedWaitTimeout .. =>
      { dev := true, flt := true, evt := true, mqs := true, alks := true, islands := true, heads := true, arms := true, gov := true, mrc := true, rows := true, slu := true, fan := true, tx := true, free := true }
  | .fetchFill .. =>
      { dev := true, flt := true, evt := true, mqs := true, alks := true, islands := true, heads := true, gov := true, mrc := true, fls := true, fcc := true, slu := true, fan := true, tx := true, free := true }
  | .diagAccRead .. =>
      { dev := true, idn := true, flt := true, evt := true, mqs := true, diag := true, alks := true, islands := true, heads := true, gov := true, mrc := true, slu := true, fan := true, tx := true, free := true }
  | .lanePllUnlock .. =>
      { dev := true, clk := true, flt := true, evt := true, mqs := true, alks := true, islands := true, heads := true, gov := true, mrc := true, rows := true, links := true, slu := true, fan := true, tx := true, free := true }
  | .descriptorStart .. | .treRetry .. | .treRestart .. =>
      { dev := true, flt := true, evt := true, mqs := true, diag := true, alks := true, islands := true, heads := true, gov := true, mrc := true, rows := true, tre := true, slu := true, fan := true, tx := true, free := true }
  | .flashPageRead .. =>
      { dev := true, flt := true, evt := true, mqs := true, alks := true, islands := true, heads := true, gov := true, mrc := true, rows := true, tre := true, fls := true, slu := true, fan := true, tx := true, free := true }
  | .fetchLookup .. =>
      { dev := true, flt := true, evt := true, mqs := true, alks := true, islands := true, heads := true, gov := true, mrc := true, rows := true, tre := true, fls := true, fcc := true, slu := true, fan := true, tx := true, free := true }
  | .dumpStart .. | .dumpChunkCommit .. | .dumpBusLow .. =>
      { dev := true, start := true, flt := true, evt := true, ptn := true, hold := true, alks := true, islands := true, heads := true, arms := true, gov := true, spn := true, spc := true, mrc := true, hop := true, slu := true, fan := true, tx := true }
  | .fltClearCounts .. | .fltClearFirst .. | .traceCfgWrite .. | .traceArm .. | .traceFire .. | .injFltReportGo .. | .injEccGo .. | .injTreHaltGo ..
    | .injLnkCfgWrite .. | .registerWrite .. | .diagAccWrite .. =>
      { dev := true, idn := true, flt := true, evt := true, mqs := true, diag := true, alks := true, islands := true, heads := true, gov := true, mrc := true, mpd := true, rows := true, tre := true, injs := true, slu := true, fan := true, tx := true, free := true }
  | .descriptorDone .. | .channelHalt .. | .treCancel .. =>
      { dev := true, flt := true, evt := true, mqs := true, diag := true, alks := true, islands := true, heads := true, gov := true, mrc := true, mpd := true, rows := true, tre := true, fls := true, links := true, injs := true, slu := true, fan := true, tx := true, free := true }
  | .spindleStopped .. =>
      .but { aon := true, idn := true, fuses := true, clk := true, pwr := true, mqs := true, hold := true, img := true, nvm := true, layout := true, bol := true, rows := true, tre := true, fls := true, fcc := true, free := true, pending := true, intake := true }
  | .wdataTimeout .. =>
      .but { aon := true, start := true, idn := true, fuses := true, clk := true, pwr := true, ptn := true, hold := true, img := true, nvm := true, layout := true, bol := true, arms := true, spn := true, spc := true, fcc := true, pending := true, intake := true }
  | .handoverRequest .. | .resyncStart .. =>
      .but { aon := true, start := true, idn := true, fuses := true, clk := true, pwr := true, flt := true, mqs := true, hold := true, img := true, nvm := true, layout := true, bol := true, fls := true, fcc := true, free := true, pending := true, intake := true }
  | .millpondUe .. =>
      .but { aon := true, start := true, idn := true, fuses := true, clk := true, pwr := true, hold := true, img := true, nvm := true, bol := true, arms := true, spn := true, spc := true, fls := true, fcc := true, pending := true, intake := true }
  | .sessionOpen .. | .sessionClose .. | .linkHoldExpiry .. =>
      .but { aon := true, start := true, idn := true, fuses := true, clk := true, pwr := true, hold := true, img := true, nvm := true, layout := true, bol := true, arms := true, spn := true, spc := true, fcc := true, pending := true }
  | .operationGrant .. =>
      .but { dev := true, aon := true, start := true, idn := true, fuses := true, clk := true, flt := true, ptn := true, hold := true, nvm := true, spn := true, spc := true, fls := true, fcc := true, pending := true, intake := true }
  | .unloadComplete .. =>
      .but { aon := true, idn := true, fuses := true, clk := true, pwr := true, mqs := true, hold := true, img := true, nvm := true, bol := true, fls := true, fcc := true, free := true, pending := true, intake := true }
  | .unloadTimeout .. =>
      .but { aon := true, idn := true, fuses := true, clk := true, pwr := true, hold := true, img := true, nvm := true, bol := true, fls := true, fcc := true, pending := true, intake := true }
  | .loadingComplete .. =>
      .but { aon := true, idn := true, fuses := true, clk := true, pwr := true, flt := true, img := true, nvm := true, bol := true, fls := true, fcc := true, pending := true, intake := true }
  | .pwmPeriod .. | .observerLockLoss .. | .senseFault .. | .busUndervoltage .. | .chopperFault .. | .voltageLimitFault .. | .speedSample ..
    | .speedSourceTimeout .. | .windowEntryTimeout .. | .offsetMeasureDone .. | .slowWaitTimeout .. | .handoffTimeout .. | .suTimeout .. | .armLoad ..
    | .vcmReload .. | .vcmReloadTimeout .. | .loopExecute .. | .failStop .. | .coreTrap .. | .blockRefresh .. | .alkTrainAttempt .. | .alkTrainTimeout ..
    | .identity .. | .alkLaneErrorWindow .. | .alkLaneLockLoss .. | .tempTelemetry .. | .sensorUnreported .. | .portStatus .. =>
      .but { aon := true, idn := true, fuses := true, clk := true, pwr := true, img := true, nvm := true, bol := true, rows := true, fcc := true, pending := true, intake := true }
  | .thermalSensorRead .. | .vin12Window .. | .pwrFailNLow .. =>
      .but { aon := true, idn := true, fuses := true, clk := true, img := true, nvm := true, bol := true, rows := true, fcc := true, pending := true, intake := true }
  | .dataWindowMean .. | .servoWedge .. | .vcmDiFrame .. | .migrationStart .. | .scrubRead .. | .flashEraseDone .. | .alkUplinkUncorr .. | .ackTimeout ..
    | .ackTelemetry .. | .arbitrate .. =>
      .but { aon := true, idn := true, fuses := true, clk := true, pwr := true, img := true, nvm := true, bol := true, fcc := true, pending := true, intake := true }
  | .catchMeasureDone .. | .surfaceMismatch .. | .reacquireTimeout .. | .loadAcquireTimeout .. | .loopSwitchTimeout .. | .engineTimeout .. | .horizonCompute .. =>
      .but { aon := true, idn := true, fuses := true, clk := true, pwr := true, img := true, nvm := true, rows := true, fcc := true, pending := true, intake := true }
  | .flashErase .. | .dumpRetire .. =>
      .but { aon := true, idn := true, fuses := true, clk := true, pwr := true, img := true, nvm := true, bol := true, rows := true, pending := true, intake := true }
  | .clearanceEstimate .. | .preambleSearch .. | .secondCandidateRebuild .. | .rawResultHandle .. | .islandFail .. | .islandReassign .. | .decodeDone ..
    | .queueSlotUe .. | .rowCommit .. | .headFailDeclare .. | .faultTelemetry .. =>
      .but { aon := true, idn := true, fuses := true, clk := true, pwr := true, img := true, nvm := true, fcc := true, pending := true, intake := true }
  | .faultHoldRelease .. =>
      .but { idn := true, fuses := true, clk := true, pwr := true, img := true, nvm := true, bol := true, fcc := true, pending := true, intake := true }
  | .flashProgramDone .. | .fillComplete .. =>
      .but { aon := true, idn := true, fuses := true, clk := true, pwr := true, img := true, nvm := true, bol := true, pending := true, intake := true }
  | .slackPeriodEval .. | .laneEyeEval .. =>
      .but { aon := true, idn := true, fuses := true, clk := true, nvm := true, bol := true, rows := true, fcc := true, pending := true, intake := true }
  | .sramPatrol .. =>
      .but { aon := true, idn := true, fuses := true, clk := true, pwr := true, img := true, nvm := true, pending := true, intake := true }
  | .partnerWindow .. | .partnerHungRecheck .. | .activeInFall .. | .ptnFailstop .. | .handoverReleased .. =>
      .but { aon := true, idn := true, fuses := true, clk := true, nvm := true, bol := true, fcc := true, pending := true, intake := true }
  | .islandGateOff .. | .hourlyEvaluation .. =>
      .but { aon := true, idn := true, fuses := true, clk := true, nvm := true, fcc := true, pending := true, intake := true }
  | .wdataReceive .. | .nvmProgramDone .. =>
      .but { aon := true, fuses := true, clk := true, pwr := true, bol := true, fcc := true, pending := true, intake := true }
  | .read .. | .write .. | .verify .. | .flush .. | .abort .. | .identify .. | .getState .. | .setBudget .. | .logRead .. | .logClear .. | .deferredRead ..
    | .timeSet .. | .spinPolicy .. | .spinUp .. | .spinDown .. | .selfCheck .. | .diagRead .. | .diagWrite .. | .inject .. | .traceControl ..
    | .ucodeBankWrite .. | .ucodeBankCommit .. | .imageCopyWrite .. | .imageCopyCommit .. | .unlockChallenge .. | .unlockResponse .. | .unlockLock ..
    | .handover .. =>
      .but { fuses := true, clk := true, pwr := true, bol := true, pending := true, intake := true }
  | .frameReceive .. =>
      .but { fuses := true, clk := true, bol := true, pending := true }
  | .resetRelease .. =>
      .but { fuses := true, rows := true, pending := true, intake := true }
  | .powerOnReset .. | .resetNAssert .. | .refclkLoss .. | .corePllUnlock .. | .supplyFault .. =>
      .but { pending := true }

/-- Every command answers a next state that differs in its row's units alone. -/
theorem exec_only : ∀ (c : Instr) (s : State), OnlyNext (unitsOf c) s (exec c s)
  | .powerOnReset railsOk, s => (execPowerOnReset_only railsOk s).mono
  | .resetNAssert, s => (execResetNAssert_only  s).mono
  | .resetRelease o, s => (execResetRelease_only o s).mono
  | .arbitrationTimeout, s => (execArbitrationTimeout_only  s).mono
  | .refclkLoss, s => (execRefclkLoss_only  s).mono
  | .corePllUnlock, s => (execCorePllUnlock_only  s).mono
  | .lanePllUnlock pll, s => (execLanePllUnlock_only pll s).mono
  | .supplyFault rail powerFailFirst, s => (execSupplyFault_only rail powerFailFirst s).mono
  | .droopTrip domain, s => (execDroopTrip_only domain s).mono
  | .thermalSensorRead t, s => (execThermalSensorRead_only t s).mono
  | .slackMonitorRead ps, s => (execSlackMonitorRead_only ps s).mono
  | .avsStep acked readback, s => (execAvsStep_only acked readback s).mono
  | .avsRepeatWrite acked readback, s => (execAvsRepeatWrite_only acked readback s).mono
  | .vin12Window c0 c1 c2 c3, s => (execVin12Window_only c0 c1 c2 c3 s).mono
  | .vin12SenseFault timeout reading, s => (execVin12SenseFault_only timeout reading s).mono
  | .pwrFailNLow, s => (execPwrFailNLow_only  s).mono
  | .dumpStart, s => (execDumpStart_only  s).mono
  | .dumpChunkCommit readsBack, s => (execDumpChunkCommit_only readsBack s).mono
  | .dumpBusLow, s => (execDumpBusLow_only  s).mono
  | .pwmPeriod m, s => (execPwmPeriod_only m s).mono
  | .observerLock, s => (execObserverLock_only  s).mono
  | .observerLockLoss, s => (execObserverLockLoss_only  s).mono
  | .overcurrentRecatch, s => (execOvercurrentRecatch_only  s).mono
  | .senseFault offsets, s => (execSenseFault_only offsets s).mono
  | .busOvRecover, s => (execBusOvRecover_only  s).mono
  | .busUndervoltage, s => (execBusUndervoltage_only  s).mono
  | .chopperOn vbus, s => (execChopperOn_only vbus s).mono
  | .chopperOff vbus, s => (execChopperOff_only vbus s).mono
  | .chopperFault which ichop, s => (execChopperFault_only which ichop s).mono
  | .generatorExhausted, s => (execGeneratorExhausted_only  s).mono
  | .voltageLimitFault, s => (execVoltageLimitFault_only  s).mono
  | .speedSample o, s => (execSpeedSample_only o s).mono
  | .speedSourceTimeout, s => (execSpeedSourceTimeout_only  s).mono
  | .dataWindowMean, s => (execDataWindowMean_only  s).mono
  | .dataWindowEntry, s => (execDataWindowEntry_only  s).mono
  | .dataWindowTimeout, s => (execDataWindowTimeout_only  s).mono
  | .windowEntryTimeout, s => (execWindowEntryTimeout_only  s).mono
  | .offsetMeasureDone, s => (execOffsetMeasureDone_only  s).mono
  | .catchMeasureDone, s => (execCatchMeasureDone_only  s).mono
  | .slowWaitDone, s => (execSlowWaitDone_only  s).mono
  | .slowWaitTimeout, s => (execSlowWaitTimeout_only  s).mono
  | .alignDone, s => (execAlignDone_only  s).mono
  | .observerHandoff, s => (execObserverHandoff_only  s).mono
  | .handoffTimeout, s => (execHandoffTimeout_only  s).mono
  | .catchAt1000, s => (execCatchAt1000_only  s).mono
  | .spinupComplete, s => (execSpinupComplete_only  s).mono
  | .suTimeout, s => (execSuTimeout_only  s).mono
  | .brakeStart, s => (execBrakeStart_only  s).mono
  | .shortBrakeSwitch, s => (execShortBrakeSwitch_only  s).mono
  | .spindleStopped, s => (execSpindleStopped_only  s).mono
  | .servoWedge arm head, s => (execServoWedge_only arm head s).mono
  | .armCoastTimeout arm, s => (execArmCoastTimeout_only arm s).mono
  | .surfaceMismatch arm head, s => (execSurfaceMismatch_only arm head s).mono
  | .wedgeLossRun arm head, s => (execWedgeLossRun_only arm head s).mono
  | .reacquireTimeout arm head, s => (execReacquireTimeout_only arm head s).mono
  | .strokeLimitRun arm head, s => (execStrokeLimitRun_only arm head s).mono
  | .readerDisagreeRun arm head, s => (execReaderDisagreeRun_only arm head s).mono
  | .settleTimeout arm head, s => (execSettleTimeout_only arm head s).mono
  | .clearanceEstimate arm head, s => (execClearanceEstimate_only arm head s).mono
  | .armLoad arm, s => (execArmLoad_only arm s).mono
  | .loadAcquireTimeout arm, s => (execLoadAcquireTimeout_only arm s).mono
  | .retractedWaitTimeout arm, s => (execRetractedWaitTimeout_only arm s).mono
  | .armUnload arm, s => (execArmUnload_only arm s).mono
  | .unloadComplete arm, s => (execUnloadComplete_only arm s).mono
  | .unloadTimeout arm, s => (execUnloadTimeout_only arm s).mono
  | .vcmDiFrame arm f, s => (execVcmDiFrame_only arm f s).mono
  | .vcmReload arm, s => (execVcmReload_only arm s).mono
  | .vcmReloadTimeout arm, s => (execVcmReloadTimeout_only arm s).mono
  | .loopExecute ctx input o, s => (execLoopExecute_only ctx input o s).mono
  | .loopSwitchTimeout ctx, s => (execLoopSwitchTimeout_only ctx s).mono
  | .lawReplace ctx base entries phaseMargin, s => (execLawReplace_only ctx base entries phaseMargin s).mono
  | .sineInjectStart gen ctx amplitude frequency periods, s => (execSineInjectStart_only gen ctx amplitude frequency periods s).mono
  | .traceTrigger, s => (execTraceTrigger_only  s).mono
  | .traceCaptureDone ch, s => (execTraceCaptureDone_only ch s).mono
  | .sampleWord arm word, s => (execSampleWord_only arm word s).mono
  | .streamMark arm word, s => (execStreamMark_only arm word s).mono
  | .preambleSearch island slot, s => (execPreambleSearch_only island slot s).mono
  | .secondCandidateRebuild island, s => (execSecondCandidateRebuild_only island s).mono
  | .rawCheck island slot, s => (execRawCheck_only island slot s).mono
  | .rawResultHandle island, s => (execRawResultHandle_only island s).mono
  | .islandFail island why, s => (execIslandFail_only island why s).mono
  | .islandReassign arm head island, s => (execIslandReassign_only arm head island s).mono
  | .islandTablesLoaded island, s => (execIslandTablesLoaded_only island s).mono
  | .codewordTake engine, s => (execCodewordTake_only engine s).mono
  | .decodeDone engine, s => (execDecodeDone_only engine s).mono
  | .engineTimeout engine why, s => (execEngineTimeout_only engine why s).mono
  | .queueSlotUe slot, s => (execQueueSlotUe_only slot s).mono
  | .headSuspendTick, s => (execHeadSuspendTick_only  s).mono
  | .headResumeTick, s => (execHeadResumeTick_only  s).mono
  | .operationGrant arm, s => (execOperationGrant_only arm s).mono
  | .islandGateOff arm, s => (execIslandGateOff_only arm s).mono
  | .rowBuild, s => (execRowBuild_only  s).mono
  | .dirtyAgeExpiry lba, s => (execDirtyAgeExpiry_only lba s).mono
  | .pinWaitExpiry row, s => (execPinWaitExpiry_only row s).mono
  | .rowCommit row, s => (execRowCommit_only row s).mono
  | .commitRecordFlush, s => (execCommitRecordFlush_only  s).mono
  | .headFailDeclare arm head, s => (execHeadFailDeclare_only arm head s).mono
  | .millpondUe requester c, s => (execMillpondUe_only requester c s).mono
  | .migrationStart logical cause, s => (execMigrationStart_only logical cause s).mono
  | .migrationComplete, s => (execMigrationComplete_only  s).mono
  | .scrubRead channel syndromes, s => (execScrubRead_only channel syndromes s).mono
  | .sparePatternTest pass, s => (execSparePatternTest_only pass s).mono
  | .dramRefresh channel, s => (execDramRefresh_only channel s).mono
  | .zqCalShort channel, s => (execZqCalShort_only channel s).mono
  | .descriptorPost ch d, s => (execDescriptorPost_only ch d s).mono
  | .descriptorStart ch, s => (execDescriptorStart_only ch s).mono
  | .descriptorDone ch, s => (execDescriptorDone_only ch s).mono
  | .channelHalt ch cause address element, s => (execChannelHalt_only ch cause address element s).mono
  | .trePause ch, s => (execTrePause_only ch s).mono
  | .treResume ch, s => (execTreResume_only ch s).mono
  | .treFlush ch, s => (execTreFlush_only ch s).mono
  | .treCancel ch ctx sourcePresent, s => (execTreCancel_only ch ctx sourcePresent s).mono
  | .treRetry ch, s => (execTreRetry_only ch s).mono
  | .treRestart ch, s => (execTreRestart_only ch s).mono
  | .treSkip ch, s => (execTreSkip_only ch s).mono
  | .mqPacketWrite q words, s => (execMqPacketWrite_only q words s).mono
  | .mqProducerTimeout q producer, s => (execMqProducerTimeout_only q producer s).mono
  | .mqPop q ue, s => (execMqPop_only q ue s).mono
  | .mqPopWatchdog q, s => (execMqPopWatchdog_only q s).mono
  | .tallyEventPost code injected source payload, s => (execTallyEventPost_only code injected source payload s).mono
  | .tallyFlushTimer, s => (execTallyFlushTimer_only  s).mono
  | .tallyBlockErase, s => (execTallyBlockErase_only  s).mono
  | .faultReport rs, s => (execFaultReport_only rs s).mono
  | .firstErrorCopy, s => (execFirstErrorCopy_only  s).mono
  | .quietTimerExpiry, s => (execQuietTimerExpiry_only  s).mono
  | .faultHoldRelease, s => (execFaultHoldRelease_only  s).mono
  | .failStop cause, s => (execFailStop_only cause s).mono
  | .coreTrap core mem inHandler injected, s => (execCoreTrap_only core mem inHandler injected s).mono
  | .sramPatrol mem offset data check live otherBad, s => (execSramPatrol_only mem offset data check live otherBad s).mono
  | .flashPageRead who p sector steps, s => (execFlashPageRead_only who p sector steps s).mono
  | .flashProgram who p first sectors, s => (execFlashProgram_only who p first sectors s).mono
  | .flashProgramDone bank ok, s => (execFlashProgramDone_only bank ok s).mono
  | .flashErase who kind bank block, s => (execFlashErase_only who kind bank block s).mono
  | .flashEraseDone bank ok, s => (execFlashEraseDone_only bank ok s).mono
  | .blockRefresh bank block, s => (execBlockRefresh_only bank block s).mono
  | .fetchLookup q addr access ue steps, s => (execFetchLookup_only q addr access ue steps s).mono
  | .fetchFill, s => (execFetchFill_only  s).mono
  | .fillComplete steps, s => (execFillComplete_only steps s).mono
  | .prefetchIssue q, s => (execPrefetchIssue_only q s).mono
  | .invalLine core addr, s => (execInvalLine_only core addr s).mono
  | .invalRange core base lines, s => (execInvalRange_only core base lines s).mono
  | .invalAll core, s => (execInvalAll_only core s).mono
  | .lock core addr, s => (execLock_only core addr s).mono
  | .unlock core addr, s => (execUnlock_only core addr s).mono
  | .unlockAll core, s => (execUnlockAll_only core s).mono
  | .alkTrainAttempt arm upFail downFail reachesExchange, s => (execAlkTrainAttempt_only arm upFail downFail reachesExchange s).mono
  | .alkTrainTimeout arm, s => (execAlkTrainTimeout_only arm s).mono
  | .alkTrainRetry arm, s => (execAlkTrainRetry_only arm s).mono
  | .identity arm word, s => (execIdentity_only arm word s).mono
  | .alkLaneErrorWindow arm up lane corrected uncorrectable, s => (execAlkLaneErrorWindow_only arm up lane corrected uncorrectable s).mono
  | .alkLaneLockLoss arm up lane, s => (execAlkLaneLockLoss_only arm up lane s).mono
  | .alkUplinkUncorr arm lane streams, s => (execAlkUplinkUncorr_only arm lane streams s).mono
  | .alkUplinkSilence arm, s => (execAlkUplinkSilence_only arm s).mono
  | .portStatusTimeout arm, s => (execPortStatusTimeout_only arm s).mono
  | .ackTimeout arm seq, s => (execAckTimeout_only arm seq s).mono
  | .ackTelemetry arm word, s => (execAckTelemetry_only arm word s).mono
  | .tempTelemetry arm word, s => (execTempTelemetry_only arm word s).mono
  | .sensorUnreported sensor, s => (execSensorUnreported_only sensor s).mono
  | .laserMon arm word, s => (execLaserMon_only arm word s).mono
  | .heaterMon arm word, s => (execHeaterMon_only arm word s).mono
  | .readerMon arm word, s => (execReaderMon_only arm word s).mono
  | .supplyTelemetry arm word, s => (execSupplyTelemetry_only arm word s).mono
  | .wfifoTelemetry arm word, s => (execWfifoTelemetry_only arm word s).mono
  | .faultTelemetry arm word, s => (execFaultTelemetry_only arm word s).mono
  | .portStatus arm word, s => (execPortStatus_only arm word s).mono
  | .telemetryUndefined arm word, s => (execTelemetryUndefined_only arm word s).mono
  | .lnkTrainAttempt l rxFail txFail peerPresent, s => (execLnkTrainAttempt_only l rxFail txFail peerPresent s).mono
  | .lnkTrainTimeout l, s => (execLnkTrainTimeout_only l s).mono
  | .lnkTrainRetry l, s => (execLnkTrainRetry_only l s).mono
  | .frameReceive l f, s => (execFrameReceive_only l f s).mono
  | .wdataReceive p w, s => (execWdataReceive_only p w s).mono
  | .gapTimerExpiry l, s => (execGapTimerExpiry_only l s).mono
  | .replayTimerExpiry l seq, s => (execReplayTimerExpiry_only l seq s).mono
  | .ackDelayExpiry l, s => (execAckDelayExpiry_only l s).mono
  | .idleKeepalive l, s => (execIdleKeepalive_only l s).mono
  | .linkRxSilence l, s => (execLinkRxSilence_only l s).mono
  | .lnkLaneErrorWindow l lane corrected uncorrectable, s => (execLnkLaneErrorWindow_only l lane corrected uncorrectable s).mono
  | .lnkLaneLockLoss l lane, s => (execLnkLaneLockLoss_only l lane s).mono
  | .laneMapRepeat l, s => (execLaneMapRepeat_only l s).mono
  | .sessionOpen p r, s => (execSessionOpen_only p r s).mono
  | .sessionClose p sid reason, s => (execSessionClose_only p sid reason s).mono
  | .nak l seqs, s => (execNak_only l seqs s).mono
  | .keepalive l, s => (execKeepalive_only l s).mono
  | .laneMap l lane reason, s => (execLaneMap_only l lane reason s).mono
  | .laneMapDone l lane, s => (execLaneMapDone_only l lane s).mono
  | .linkHoldExpiry p, s => (execLinkHoldExpiry_only p s).mono
  | .cplFrameSend p, s => (execCplFrameSend_only p s).mono
  | .rdataFrameSend p, s => (execRdataFrameSend_only p s).mono
  | .writeGrant, s => (execWriteGrant_only  s).mono
  | .wdataTimeout p tag, s => (execWdataTimeout_only p tag s).mono
  | .holdLimitExpiry p tag, s => (execHoldLimitExpiry_only p tag s).mono
  | .read p c, s => (execRead_only p c s).mono
  | .write p c, s => (execWrite_only p c s).mono
  | .verify p c, s => (execVerify_only p c s).mono
  | .flush p c, s => (execFlush_only p c s).mono
  | .abort p c, s => (execAbort_only p c s).mono
  | .identify p c, s => (execIdentify_only p c s).mono
  | .getState p c, s => (execGetState_only p c s).mono
  | .setBudget p c, s => (execSetBudget_only p c s).mono
  | .logRead p c, s => (execLogRead_only p c s).mono
  | .logClear p c, s => (execLogClear_only p c s).mono
  | .deferredRead p c, s => (execDeferredRead_only p c s).mono
  | .timeSet p c, s => (execTimeSet_only p c s).mono
  | .spinPolicy p c, s => (execSpinPolicy_only p c s).mono
  | .spinUp p c, s => (execSpinUp_only p c s).mono
  | .spinDown p c, s => (execSpinDown_only p c s).mono
  | .selfCheck p c failed, s => (execSelfCheck_only p c failed s).mono
  | .diagRead p c ueRegs, s => (execDiagRead_only p c ueRegs s).mono
  | .diagWrite p c, s => (execDiagWrite_only p c s).mono
  | .inject p c, s => (execInject_only p c s).mono
  | .traceControl p c, s => (execTraceControl_only p c s).mono
  | .ucodeBankWrite p c, s => (execUcodeBankWrite_only p c s).mono
  | .ucodeBankCommit p c bankOk version, s => (execUcodeBankCommit_only p c bankOk version s).mono
  | .imageCopyWrite p c, s => (execImageCopyWrite_only p c s).mono
  | .imageCopyCommit p c, s => (execImageCopyCommit_only p c s).mono
  | .unlockChallenge p c, s => (execUnlockChallenge_only p c s).mono
  | .unlockResponse p c, s => (execUnlockResponse_only p c s).mono
  | .unlockLock p c, s => (execUnlockLock_only p c s).mono
  | .unlockExpiry path, s => (execUnlockExpiry_only path s).mono
  | .unlockRefusalEnd path, s => (execUnlockRefusalEnd_only path s).mono
  | .handover p c, s => (execHandover_only p c s).mono
  | .budgetPwmPeriod period high, s => (execBudgetPwmPeriod_only period high s).mono
  | .budgetPwmSilence, s => (execBudgetPwmSilence_only  s).mono
  | .bpwmHoldExpiry, s => (execBpwmHoldExpiry_only  s).mono
  | .pwmRiseSettle, s => (execPwmRiseSettle_only  s).mono
  | .hourlyEvaluation loops eyes, s => (execHourlyEvaluation_only loops eyes s).mono
  | .replan k loc value second phaseMargin, s => (execReplan_only k loc value second phaseMargin s).mono
  | .horizonCompute day, s => (execHorizonCompute_only day s).mono
  | .windingREstimate, s => (execWindingREstimate_only  s).mono
  | .slackPeriodEval, s => (execSlackPeriodEval_only  s).mono
  | .laneEyeEval l lane eyeH eyeV, s => (execLaneEyeEval_only l lane eyeH eyeV s).mono
  | .heartbeatTick served, s => (execHeartbeatTick_only served s).mono
  | .partnerWindow toggles frames activeIn, s => (execPartnerWindow_only toggles frames activeIn s).mono
  | .partnerHungRecheck toggles frames activeIn, s => (execPartnerHungRecheck_only toggles frames activeIn s).mono
  | .activeInFall, s => (execActiveInFall_only  s).mono
  | .takeoverResume, s => (execTakeoverResume_only  s).mono
  | .arbitrate r, s => (execArbitrate_only r s).mono
  | .heartbeat standby state time dirty, s => (execHeartbeat_only standby state time dirty s).mono
  | .mdata frame fib data, s => (execMdata_only frame fib data s).mono
  | .ment es, s => (execMent_only es s).mono
  | .confirm frames, s => (execConfirm_only frames s).mono
  | .cmdCtx p tag arrival opcode lba count, s => (execCmdCtx_only p tag arrival opcode lba count s).mono
  | .ptnCpl p r, s => (execPtnCpl_only p r s).mono
  | .cplAcked p tag arrival, s => (execCplAcked_only p tag arrival s).mono
  | .ptnRowCommit row time, s => (execPtnRowCommit_only row time s).mono
  | .ptnLayout r, s => (execPtnLayout_only r s).mono
  | .ptnPlan r, s => (execPtnPlan_only r s).mono
  | .ptnDeferred r, s => (execPtnDeferred_only r s).mono
  | .ptnFailstop cause, s => (execPtnFailstop_only cause s).mono
  | .handoverRequest reason, s => (execHandoverRequest_only reason s).mono
  | .handoverReleased reason, s => (execHandoverReleased_only reason s).mono
  | .handoverActive reason, s => (execHandoverActive_only reason s).mono
  | .resyncStart frames, s => (execResyncStart_only frames s).mono
  | .resyncDone frames, s => (execResyncDone_only frames s).mono
  | .fetchRequest frame vseq, s => (execFetchRequest_only frame vseq s).mono
  | .fetchReply frame vseq data, s => (execFetchReply_only frame vseq data s).mono
  | .replayReadDone area unreadable, s => (execReplayReadDone_only area unreadable s).mono
  | .dumpRetire area, s => (execDumpRetire_only area s).mono
  | .loadingComplete, s => (execLoadingComplete_only  s).mono
  | .fltClearCounts path, s => (execFltClearCounts_only path s).mono
  | .fltClearFirst path, s => (execFltClearFirst_only path s).mono
  | .traceCfgWrite path ch value, s => (execTraceCfgWrite_only path ch value s).mono
  | .traceArm path value, s => (execTraceArm_only path value s).mono
  | .traceFire path value, s => (execTraceFire_only path value s).mono
  | .injFltReportGo path value, s => (execInjFltReportGo_only path value s).mono
  | .injEccGo path value, s => (execInjEccGo_only path value s).mono
  | .injTreHaltGo path value, s => (execInjTreHaltGo_only path value s).mono
  | .injLnkCfgWrite path port value, s => (execInjLnkCfgWrite_only path port value s).mono
  | .registerWrite path address value, s => (execRegisterWrite_only path address value s).mono
  | .diagAccRead address ue, s => (execDiagAccRead_only address ue s).mono
  | .diagAccWrite address value, s => (execDiagAccWrite_only address value s).mono
  | .jtagUnlockChallenge, s => (execJtagUnlockChallenge_only  s).mono
  | .jtagUnlockResponse response, s => (execJtagUnlockResponse_only response s).mono
  | .jtagUnlockLock, s => (execJtagUnlockLock_only  s).mono
  | .tapReset, s => (execTapReset_only  s).mono
  | .fuseProg go group value vioOk, s => (execFuseProg_only go group value vioOk s).mono
  | .extest drive, s => (execExtest_only drive s).mono
  | .samplePreload sample preload, s => (execSamplePreload_only sample preload s).mono
  | .idcode, s => (execIdcode_only  s).mono
  | .extestPulse drive, s => (execExtestPulse_only drive s).mono
  | .extestTrain drive, s => (execExtestTrain_only drive s).mono
  | .bypass code, s => (execBypass_only code s).mono
  | .stoppedArbitrateTick, s => (execStoppedArbitrateTick_only  s).mono
  | .nvmProgramDone, s => (execNvmProgramDone_only  s).mono
  | .nvmBusyTimeout, s => (execNvmBusyTimeout_only  s).mono
  | .spareChannelTrainingLoss, s => (execSpareChannelTrainingLoss_only  s).mono
  | .pwrFailNHigh, s => (execPwrFailNHigh_only  s).mono

/-- The rows that stand for a reset or for the loss of the clocks. -/
def losesClocks : Instr → Bool
  | .powerOnReset .. | .resetNAssert .. | .refclkLoss .. | .corePllUnlock .. | .supplyFault .. => true
  | _ => false

/-- What a row's units leave is its frame. -/
theorem frame_of_only {c : Instr} {s t : State} (h : Only (unitsOf c) s t) (hlast : losesClocks c = true → Lasting s t) : Frame c s t := by
  cases c with
  | fltClearCounts | fltClearFirst | traceCfgWrite | traceArm | traceFire | injFltReportGo | injEccGo | injTreHaltGo | injLnkCfgWrite | registerWrite
    | diagAccWrite =>
    exact ⟨h.aon, h.start, h.fuses, h.clk, h.pwr, h.ptn, h.hold, h.img, h.nvm, h.layout, h.bol, h.arms, h.spn, h.spc, h.fls, h.fcc, h.links, h.hop, h.pending⟩
  | descriptorDone | channelHalt | treCancel =>
    exact ⟨h.aon, h.start, h.idn, h.fuses, h.clk, h.pwr, h.ptn, h.hold, h.img, h.nvm, h.layout, h.bol, h.arms, h.spn, h.spc, h.fcc, h.hop, h.pending⟩
  | spindleStopped =>
    exact ⟨h.aon, h.idn, h.fuses, h.clk, h.pwr, h.mqs, h.hold, h.img, h.nvm, h.layout, h.bol, h.rows, h.tre, h.fls, h.fcc, h.free, h.pending⟩
  | wdataTimeout =>
    exact ⟨h.aon, h.start, h.idn, h.fuses, h.clk, h.pwr, h.ptn, h.hold, h.img, h.nvm, h.layout, h.bol, h.arms, h.spn, h.spc, h.fcc, h.pending⟩
  | handoverRequest | resyncStart =>
    exact ⟨h.aon, h.start, h.idn, h.fuses, h.clk, h.pwr, h.flt, h.mqs, h.hold, h.img, h.nvm, h.layout, h.bol, h.fls, h.fcc, h.free, h.pending⟩
  | millpondUe =>
    exact ⟨h.aon, h.start, h.idn, h.fuses, h.clk, h.pwr, h.hold, h.img, h.nvm, h.bol, h.arms, h.spn, h.spc, h.fls, h.fcc, h.pending⟩
  | sessionOpen | sessionClose | linkHoldExpiry =>
    exact ⟨h.aon, h.start, h.idn, h.fuses, h.clk, h.pwr, h.hold, h.img, h.nvm, h.layout, h.bol, h.arms, h.spn, h.spc, h.fcc, h.pending⟩
  | operationGrant =>
    exact ⟨h.dev, h.aon, h.start, h.idn, h.fuses, h.clk, h.flt, h.ptn, h.hold, h.nvm, h.spn, h.spc, h.fls, h.fcc, h.pending⟩
  | unloadComplete =>
    exact ⟨h.aon, h.idn, h.fuses, h.clk, h.pwr, h.mqs, h.hold, h.img, h.nvm, h.bol, h.fls, h.fcc, h.free, h.pending⟩
  | unloadTimeout =>
    exact ⟨h.aon, h.idn, h.fuses, h.clk, h.pwr, h.hold, h.img, h.nvm, h.bol, h.fls, h.fcc, h.pending⟩
  | loadingComplete =>
    exact ⟨h.aon, h.idn, h.fuses, h.clk, h.pwr, h.flt, h.img, h.nvm, h.bol, h.fls, h.fcc, h.pending⟩
  | pwmPeriod | observerLockLoss | senseFault | busUndervoltage | chopperFault | voltageLimitFault | speedSample | speedSourceTimeout | windowEntryTimeout
    | offsetMeasureDone | slowWaitTimeout | handoffTimeout | suTimeout | armLoad | vcmReload | vcmReloadTimeout | loopExecute | failStop | coreTrap
    | blockRefresh | alkTrainAttempt | alkTrainTimeout | identity | alkLaneErrorWindow | alkLaneLockLoss | tempTelemetry | sensorUnreported | portStatus =>
    exact ⟨h.aon, h.idn, h.fuses, h.clk, h.pwr, h.img, h.nvm, h.bol, h.rows, h.fcc, h.pending⟩
  | thermalSensorRead | vin12Window | pwrFailNLow =>
    exact ⟨h.aon, h.idn, h.fuses, h.clk, h.img, h.nvm, h.bol, h.rows, h.fcc, h.pending⟩
  | dataWindowMean | servoWedge | vcmDiFrame | migrationStart | scrubRead | flashEraseDone | alkUplinkUncorr | ackTimeout | ackTelemetry | arbitrate =>
    exact ⟨h.aon, h.idn, h.fuses, h.clk, h.pwr, h.img, h.nvm, h.bol, h.fcc, h.pending⟩
  | catchMeasureDone | surfaceMismatch | reacquireTimeout | loadAcquireTimeout | loopSwitchTimeout | engineTimeout | horizonCompute =>
    exact ⟨h.aon, h.idn, h.fuses, h.clk, h.pwr, h.img, h.nvm, h.rows, h.fcc, h.pending⟩
  | flashErase | dumpRetire =>
    exact ⟨h.aon, h.idn, h.fuses, h.clk, h.pwr, h.img, h.nvm, h.bol, h.rows, h.pending⟩
  | clearanceEstimate | preambleSearch | secondCandidateRebuild | rawResultHandle | islandFail | islandReassign | decodeDone | queueSlotUe | rowCommit
    | headFailDeclare | faultTelemetry =>
    exact ⟨h.aon, h.idn, h.fuses, h.clk, h.pwr, h.img, h.nvm, h.fcc, h.pending⟩
  | faultHoldRelease =>
    exact ⟨h.idn, h.fuses, h.clk, h.pwr, h.img, h.nvm, h.bol, h.fcc, h.pending⟩
  | flashProgramDone | fillComplete =>
    exact ⟨h.aon, h.idn, h.fuses, h.clk, h.pwr, h.img, h.nvm, h.bol, h.pending⟩
  | slackPeriodEval | laneEyeEval =>
    exact ⟨h.aon, h.idn, h.fuses, h.clk, h.nvm, h.bol, h.rows, h.fcc, h.pending⟩
  | sramPatrol =>
    exact ⟨h.aon, h.idn, h.fuses, h.clk, h.pwr, h.img, h.nvm, h.pending⟩
  | partnerWindow | partnerHungRecheck | activeInFall | ptnFailstop | handoverReleased =>
    exact ⟨h.aon, h.idn, h.fuses, h.clk, h.nvm, h.bol, h.fcc, h.pending⟩
  | islandGateOff | hourlyEvaluation =>
    exact ⟨h.aon, h.idn, h.fuses, h.clk, h.nvm, h.fcc, h.pending⟩
  | wdataReceive | nvmProgramDone =>
    exact ⟨h.aon, h.fuses, h.clk, h.pwr, h.bol, h.fcc, h.pending⟩
  | read | write | verify | flush | abort | identify | getState | setBudget | logRead | logClear | deferredRead | timeSet | spinPolicy | spinUp | spinDown
    | selfCheck | diagRead | diagWrite | inject | traceControl | ucodeBankWrite | ucodeBankCommit | imageCopyWrite | imageCopyCommit | unlockChallenge
    | unlockResponse | unlockLock | handover =>
    exact ⟨h.fuses, h.clk, h.pwr, h.bol, h.pending⟩
  | frameReceive =>
    exact ⟨h.fuses, h.clk, h.bol, h.pending⟩
  | resetRelease =>
    exact ⟨h.fuses, h.rows, h.pending⟩
  | powerOnReset | resetNAssert | refclkLoss | corePllUnlock | supplyFault => exact ⟨hlast rfl, h.pending⟩
  | _ => exact h.eq_fill

theorem exec_lasting {c : Instr} {s t : State} (hc : losesClocks c = true) (h : exec c s = .next t) : Lasting s t := by
  cases c with
  | powerOnReset railsOk => exact execPowerOnReset_lasting h
  | resetNAssert => exact execResetNAssert_lasting h
  | refclkLoss => exact execRefclkLoss_lasting h
  | corePllUnlock => exact execCorePllUnlock_lasting h
  | supplyFault rail powerFailFirst => exact execSupplyFault_lasting h
  | _ => cases hc

/-- Every command completes within its frame. -/
theorem exec_frame (c : Instr) (s : State) : ∃ t, exec c s = .next t ∧ Only (unitsOf c) s t ∧ Frame c s t :=
  let ⟨t, h, ho⟩ := exec_only c s
  ⟨t, h, ho, frame_of_only ho fun hc => exec_lasting hc h⟩

/-- No command touches the queue. -/
theorem unitsOf_pending (c : Instr) : (unitsOf c).pending = false := by cases c <;> rfl

/-- Settles O53, by the units that each command's function may change. -/
theorem everyCommandKeepsItsFrame : Obligations.EveryCommandKeepsItsFrame := by
  unfold Obligations.EveryCommandKeepsItsFrame
  intro c s t h
  obtain ⟨u, hu, ho, hf⟩ := exec_frame c s
  obtain rfl := Host.Outcome.next.inj (hu.symm.trans h)
  exact ⟨hf, ho.pending (unitsOf_pending c)⟩

/-- Settles O60: the frame of O53, with the next state that every command answers. -/
theorem everyCommandCompletes : Obligations.EveryCommandCompletes := by
  unfold Obligations.EveryCommandCompletes
  intro c s
  obtain ⟨t, h, ho, hf⟩ := exec_frame c s
  exact ⟨t, h, hf, ho.pending (unitsOf_pending c)⟩

/-- A step changes any unit, and keeps the memories' form. -/
theorem step_memWf {s t : State} (hs : s.memWf = true) (h : step s = .next t) : t.memWf = true := by
  unfold step at h
  split at h
  · next c rest _ =>
    obtain ⟨u, hu, ho, -⟩ := exec_frame c { s with pending := rest }
    obtain rfl := Host.Outcome.next.inj (hu.symm.trans h)
    exact ho.mem hs
  · obtain rfl := Host.Outcome.next.inj h
    exact (tick_only s).mem hs

/-- Settles O51: each function that a command or a tick runs keeps the memories' form. -/
theorem everyStepKeepsTheMemoriesCanonical : Obligations.EveryStepKeepsTheMemoriesCanonical := by
  unfold Obligations.EveryStepKeepsTheMemoriesCanonical
  exact fun _ _ => step_memWf

end Sys2Proof.Machine
end

section
/-! Every step goes on (O59), what reset leaves (O52), and the fuses (O55). -/

namespace Sys2Proof.Machine
set_option Elab.async false

/-- Settles O59: every command answers a next state, and so does a tick. -/
theorem everyStepGoesOn : Obligations.EveryStepGoesOn := by
  unfold Obligations.EveryStepGoesOn State.goesOn step
  intro s
  split
  · next c rest _ =>
    obtain ⟨t, h, -⟩ := exec_only c { s with pending := rest }
    exact ⟨t, h⟩
  · exact ⟨_, rfl⟩

/-- Settles O52, by evaluation. -/
theorem resetLeavesThePartUnconfigured : Obligations.ResetLeavesThePartUnconfigured := by
  unfold Obligations.ResetLeavesThePartUnconfigured DomainsReset
  refine ⟨reset_memWf, ?_⟩
  exact ⟨⟨rfl, rfl, rfl, rfl, rfl, rfl, rfl, rfl, rfl, rfl, rfl, rfl, rfl, rfl, rfl, rfl, rfl, rfl, rfl, rfl, rfl, rfl, rfl⟩, rfl, rfl, rfl, rfl, rfl, rfl, rfl⟩

/-- FUSE_PROG is the one row that programs a fuse. -/
theorem fuses_of_ne_fuseProg {c : Instr} {s t : State} (h : exec c s = .next t) (hc : ∀ go group value vio, c ≠ .fuseProg go group value vio) : t.fuses = s.fuses := by
  obtain ⟨u, hu, ho, -⟩ := exec_frame c s
  obtain rfl := Host.Outcome.next.inj (hu.symm.trans h)
  by_cases hl : losesClocks c = true
  · obtain ⟨-, -, -, -, -, -, hfuses, -⟩ := exec_lasting hl h
    exact hfuses
  · refine ho.fuses ?_
    cases c with
    | fuseProg go group value vio => exact (hc _ _ _ _ rfl).elim
    | powerOnReset | resetNAssert | refclkLoss | corePllUnlock | supplyFault => exact absurd rfl hl
    | _ => rfl

/-- A refusal keeps a group that is programmed, or every one once OPEN_BLOWN is (R661). -/
theorem fuseRefused_of_programmed {group : BitVec 2} {vioOk : Bool} {s : State}
    (h : s.fuses.openBlown = true ∨ group = 0 ∧ s.fuses.unlockKey ≠ none ∨ group = 1 ∧ s.fuses.keyHash ≠ none) : fuseRefused group vioOk s = true := by
  rcases h with h | ⟨rfl, h⟩ | ⟨rfl, h⟩
  · simp [fuseRefused, h]
  · simp [fuseRefused, Option.isSome_iff_ne_none.2 h]
  · simp [fuseRefused, Option.isSome_iff_ne_none.2 h]

/-- What FUSE_PROG may change of the fuses: the group that it names, where it is not refused. -/
theorem execFuseProg_fuses {go : Bool} {group : BitVec 2} {value : BitVec 256} {vioOk : Bool} {s t : State} (h : execFuseProg go group value vioOk s = .next t) :
    t.fuses = s.fuses ∨ fuseRefused group vioOk s = false ∧
      (group = 0 ∧ t.fuses = { s.fuses with unlockKey := some value } ∨ group = 1 ∧ t.fuses = { s.fuses with keyHash := some value } ∨
        group ≠ 0 ∧ group ≠ 1 ∧ t.fuses = { s.fuses with openBlown := true }) := by
  have hfuses : (setIr 0x22 false (send (.jtag (fuseCapture s)) s)).fuses = s.fuses := rfl
  have hrefused : fuseRefused group vioOk (setIr 0x22 false (send (.jtag (fuseCapture s)) s)) = fuseRefused group vioOk s := rfl
  obtain rfl := Host.Outcome.next.inj h
  generalize setIr 0x22 false (send (.jtag (fuseCapture s)) s) = u at hfuses hrefused
  simp only [hrefused, ← hfuses]
  split
  · exact .inl rfl
  split
  · exact .inl rfl
  split
  · exact .inl rfl
  next hopen =>
  refine .inr ⟨Bool.eq_false_iff.2 hopen, ?_⟩
  split
  · next h0 => exact .inl ⟨h0, rfl⟩
  split
  · next h1 => exact .inr (.inl ⟨h1, rfl⟩)
  · next h0 h1 => exact .inr (.inr ⟨h0, h1, rfl⟩)

/-- Settles O55: FUSE_PROG is refused for a group that is programmed, and no other command writes a fuse. -/
theorem fusesAreProgrammedOnce : Obligations.FusesAreProgrammedOnce := by
  unfold Obligations.FusesAreProgrammedOnce
  intro c s t h
  by_cases hc : ∀ go group value vio, c ≠ .fuseProg go group value vio
  · have hsame := fuses_of_ne_fuseProg h hc
    exact ⟨fun _ => by rw [hsame], fun _ => by rw [hsame], fun _ => hsame, fun _ => hsame⟩
  · push Not at hc
    obtain ⟨go, group, value, vio, rfl⟩ := hc
    refine ⟨fun hkey => ?_, fun hhash => ?_, fun hblown => ?_, fun hne => absurd rfl (hne go group value vio)⟩
    all_goals obtain hsame | ⟨hopen, hwritten⟩ := execFuseProg_fuses h
    · rw [hsame]
    · obtain ⟨rfl, -⟩ | ⟨-, hw⟩ | ⟨-, -, hw⟩ := hwritten
      · cases hopen.symm.trans (fuseRefused_of_programmed (.inr (.inl ⟨rfl, hkey⟩)))
      · rw [hw]
      · rw [hw]
    · rw [hsame]
    · obtain ⟨-, hw⟩ | ⟨rfl, -⟩ | ⟨-, -, hw⟩ := hwritten
      · rw [hw]
      · cases hopen.symm.trans (fuseRefused_of_programmed (.inr (.inr ⟨rfl, hhash⟩)))
      · rw [hw]
    · exact hsame
    · cases hopen.symm.trans (fuseRefused_of_programmed (.inl hblown))

end Sys2Proof.Machine
end

section
/-! A part in reset or without its clocks (O54). -/

namespace Sys2Proof.Machine
set_option Elab.async false

theorem live_asleep {s t : State} {f : State → Host.Outcome State Fault Refusal} (ha : awake s = false) (h : live s f = .next t) : t = s := by
  rw [live, ha] at h
  exact (Host.Outcome.next.inj h).symm
theorem arriveAs_asleep {op : BitVec 8} {p : Port} {c : Capsule} {x : Extra} {s t : State} (ha : awake s = false) (h : arriveAs op p c x s = .next t) : t = s :=
  live_asleep ha h
theorem arriveArg_asleep {op : BitVec 8} {subs : List Nat} {commit : Option Bool} {p : Port} {c : Capsule} {x : Extra} {s t : State} (ha : awake s = false)
    (h : arriveArg op subs commit p c x s = .next t) : t = s := arriveAs_asleep ha h

/-- Settles O54: every row but those of `alwaysOn` runs only in a part that is awake. -/
theorem aSleepingPartIsStill : Obligations.ASleepingPartIsStill := by
  unfold Obligations.ASleepingPartIsStill
  intro c s t ha hc h
  cases c with
  | powerOnReset | resetNAssert | resetRelease | diagAccRead | diagAccWrite | jtagUnlockChallenge | jtagUnlockResponse | jtagUnlockLock | tapReset | fuseProg
  | extest | samplePreload | idcode | extestPulse | extestTrain | bypass => cases hc
  | read | write | verify | flush | abort | identify | getState | setBudget | logRead | logClear | deferredRead | timeSet | selfCheck | diagRead | diagWrite
  | inject | traceControl | handover =>
    simp only [exec] at h
    exact arriveAs_asleep ha h
  | spinPolicy | spinUp | spinDown | ucodeBankWrite | ucodeBankCommit | imageCopyWrite | imageCopyCommit | unlockChallenge | unlockResponse | unlockLock =>
    simp only [exec] at h
    exact arriveArg_asleep ha h
  | _ =>
    simp only [exec] at h
    exact live_asleep ha h

end Sys2Proof.Machine
end

section
/-! The fantail out of service (O57). The statement speaks of the device state at the beginning of a command; a frame of the partner link brings several
records, and the first may change the state under which the next is taken. -/

namespace Sys2Proof.Machine
set_option Elab.async false

/-- The FCRC register keeps its width in every step. -/
theorem crc32c_lt (bs : List Bool) : crc32c bs < 2 ^ 32 := by
  have hfold : ∀ (bs : List Bool) (c : Nat), c < 2 ^ 32 →
      bs.foldl (fun c b => if (c % 2 = 1) != b then Nat.xor (c / 2) 0x82F63B78 else c / 2) c < 2 ^ 32 := by
    intro bs
    induction bs with
    | nil => exact fun _ hc => hc
    | cons b bs ih =>
      intro c hc
      refine ih _ ?_
      dsimp only
      split
      · exact Nat.xor_lt_two_pow (by omega) (by decide)
      · omega
  exact Nat.xor_lt_two_pow (by decide) (hfold bs _ (by decide))

/-- The frame with its FCRC in the trailer. -/
def withCrc (f : LinkFrame) : LinkFrame := { f with trailer := BitVec.ofNat 64 (frameCrc { f with trailer := 0 } * 2 ^ 32) }
/-- FCRC covers the header, the payload, and the low half of the trailer. -/
theorem frameCrc_congr {f g : LinkFrame} (hheader : f.header = g.header) (hpayload : f.payload = g.payload)
    (hlow : (List.range 32).map (fun i => f.trailer.getLsbD i) = (List.range 32).map fun i => g.trailer.getLsbD i) : frameCrc f = frameCrc g := by
  unfold frameCrc
  rw [hheader, hpayload, hlow]
theorem frameCrc_withCrc (f : LinkFrame) : frameCrc (withCrc f) = frameCrc { f with trailer := 0 } :=
  frameCrc_congr rfl rfl (List.map_congr_left fun i hi => by
    have hi : i < 32 := List.mem_range.1 hi
    simp only [withCrc, BitVec.getLsbD_ofNat, Nat.testBit_mul_two_pow]
    simp [show ¬ 32 ≤ i by omega])
theorem crcGood_withCrc (f : LinkFrame) : crcGood (withCrc f) = true := by
  have hlt : frameCrc { f with trailer := 0 } < 2 ^ 32 := crc32c_lt _
  have htrailer : (withCrc f).trailer = BitVec.ofNat 64 (frameCrc { f with trailer := 0 } * 2 ^ 32) := rfl
  rw [crcGood, decide_eq_true_eq, frameCrc_withCrc, htrailer]
  generalize frameCrc { f with trailer := 0 } = c at hlt
  simp only [BitVec.toNat_ofNat, bitsOf]
  omega

/-- A part in Fault-hold that drives alone beside another active part, with strap 1: R667 has it yield when the two meet. -/
def yieldingState : State := {
  dev := .faultHold, start := { inReset := false, powerOnReset := false, imageLoaded := true }, img := { lists := [(0x52, [(1, 1)])] },
  pwr := { role := true }, ptn := { role := 1, alone := true, activeIn := true }, links := [(2, { link := 2, granted := [(1, 1)] })] }
/-- A frame of two MCTL records: ARB of the other part, with strap 0 and in Ready, then PLAN with a value of the core voltage. -/
def arbThenPlan : LinkFrame := withCrc { header := 0xA000000000000020, payload := 0x050001 + 2 ^ 512 * (9 + 9 * 2 ^ 64 + 2 ^ 104) }

theorem yieldingState_takes_arbThenPlan : execFrameReceive .partner arbThenPlan yieldingState = .next (injectRx 2 arbThenPlan yieldingState) := by
  have hup : linkUp yieldingState 2 = true := by decide
  have hform : formOk 2 arbThenPlan = true := by decide +kernel
  have hcrc : crcGood arbThenPlan = true := crcGood_withCrc _
  have hctl : arbThenPlan.ctl = [] := rfl
  have hfec : arbThenPlan.fecOk = true := rfl
  have hlive : awake yieldingState = true := by decide
  simp only [execFrameReceive, live, hlive, LinkId.num, hup, hctl, hcrc, hform, hfec, List.filter_nil, if_true, each, List.foldl_nil]
  rfl
/-- The record after ARB finds a standby, which keeps the partner's plan. -/
theorem yieldingState_keeps_plan : (injectRx 2 arbThenPlan yieldingState).fan.plan ≠ [] := by decide +kernel

/-- Refutes O57: a frame that brings a part in Fault-hold the other active part's ARB record and after it a PLAN record makes the part a standby in between
(R667), and the standby keeps the value (R450). -/
theorem not_theFantailHaltsOutOfService : ¬ Obligations.TheFantailHaltsOutOfService := by
  unfold Obligations.TheFantailHaltsOutOfService
  intro h
  obtain ⟨hplan, -, -⟩ := h (.frameReceive .partner arbThenPlan) yieldingState _ (.inl rfl) yieldingState_takes_arbThenPlan
  exact yieldingState_keeps_plan (List.eq_nil_iff_forall_not_mem.2 fun v hv => nomatch hplan v hv)

end Sys2Proof.Machine
end

section
/-! What runs on its own in a tick (O50): the rounds of the links that are up, the drive ports' frames (R204), and the copy of a migrating channel (R308). -/

namespace Sys2Proof.Machine
set_option Elab.async false

theorem each_cons {α : Type} (x : α) (xs : List α) (f : α → State → State) (s : State) : each (x :: xs) f s = each xs f (f x s) := rfl

/-- Link `l` alone differs, and the injectors where one of them corrupts what is sent. -/
def LinkOnly (l : Nat) (s t : State) : Prop :=
  (∀ j, j ≠ l → getLink t j = getLink s j) ∧ ((∀ j ∈ s.injs, j.2.action ≠ 2) → t.injs = s.injs)
theorem LinkOnly.refl (l : Nat) (s : State) : LinkOnly l s s := ⟨fun _ _ => rfl, fun _ => rfl⟩
theorem LinkOnly.trans {l : Nat} {s t u : State} (h : LinkOnly l s t) (k : LinkOnly l t u) : LinkOnly l s u :=
  ⟨fun j hj => (k.1 j hj).trans (h.1 j hj), fun hq => (k.2 (by rwa [h.2 hq])).trans (h.2 hq)⟩
theorem LinkOnly.each {α : Type} {l : Nat} {xs : List α} {f : α → State → State} (hf : ∀ x s, LinkOnly l s (f x s)) (s : State) :
    LinkOnly l s (each xs f s) := by
  unfold Machine.each
  induction xs generalizing s with
  | nil => exact .refl ..
  | cons x xs ih => exact (hf x s).trans (ih (f x s))
theorem modLink_linkOnly (s : State) (l : Nat) (f : Link → Link) : LinkOnly l s (modLink s l f) := ⟨fun _ hj => getLink_modLink_other _ _ hj, fun _ => rfl⟩

theorem tabGet_mem_or_default {α : Type} (d : α) (t : Tab α) (k : Nat) : tabGet d t k = d ∨ (k, tabGet d t k) ∈ t := by
  induction t with
  | nil => exact .inl rfl
  | cons e t ih =>
    unfold tabGet
    split
    · next h => exact .inr (h ▸ List.mem_cons_self)
    · exact ih.imp_right (List.mem_cons_of_mem _)
/-- Without an injector that corrupts, nothing of the injectors is used up. -/
theorem injectTx_linkOnly (l ftype : Nat) (s : State) : LinkOnly l s (injectTx l ftype s).2 := by
  refine ⟨fun j _ => ?_, fun hq => ?_⟩
  · rw [getLink, (injectTx_only l ftype s).links, getLink]
  · have hact : (getInj s l).action ≠ 2 := by
      rcases tabGet_mem_or_default {} s.injs l with h | h
      · rw [getInj, h]; decide
      · exact hq _ h
    simp [injectTx, hact]

theorem startRun_linkOnly (l lane : Nat) (s : State) : LinkOnly l s (startRun l lane s) := by
  unfold startRun
  split
  · exact .refl ..
  · have hi (c : Prop) [Decidable c] : LinkOnly l s (if c then injectTx l 0 s else (none, s)).2 := by
      split
      · exact injectTx_linkOnly ..
      · exact .refl ..
    split
    exact (hi _).trans (modLink_linkOnly ..)
theorem nextBlock_linkOnly (l lane : Nat) (s : State) : LinkOnly l s (nextBlock l lane s).2 := by
  have hrun : LinkOnly l s (if laneActive (getLink s l) l lane then startRun l lane s else s) := by
    split
    · exact startRun_linkOnly ..
    · exact .refl ..
  unfold nextBlock
  extract_lets
  split
  · exact modLink_linkOnly ..
  split
  · exact modLink_linkOnly ..
  split
  · exact hrun.trans (modLink_linkOnly ..)
  · exact hrun
theorem laneBlocks_linkOnly (l n : Nat) (acc : List (Nat × List (BitVec 257))) (s : State) : LinkOnly l s (laneBlocks l n acc s).2 := by
  have hrow (es : List (Nat × List (BitVec 257))) (p : List (Nat × List (BitVec 257)) × State) :
      LinkOnly l p.2 (es.foldl (fun (p : List (Nat × List (BitVec 257)) × State) e =>
        let (b, s) := nextBlock l e.1 p.2
        (p.1 ++ [(e.1, e.2 ++ [b])], s)) p).2 := by
    induction es generalizing p with
    | nil => exact .refl ..
    | cons e es ih => exact (nextBlock_linkOnly l e.1 p.2).trans (ih _)
  induction n generalizing acc s with
  | zero => exact .refl ..
  | succ n ih => exact (hrow acc ([], s)).trans (ih ..)
theorem send_linkOnly (l : Nat) (x : Tx) (s : State) : LinkOnly l s (send x s) := ⟨fun _ _ => rfl, fun _ => rfl⟩
theorem sendCodewords_linkOnly (l : Nat) (s : State) : LinkOnly l s (sendCodewords l s) := by
  have hblocks := laneBlocks_linkOnly l 20 ((List.range (laneSpare l + 1)).map fun n => (n, [])) s
  unfold sendCodewords
  generalize laneBlocks l 20 ((List.range (laneSpare l + 1)).map fun n => (n, [])) s = p at hblocks
  exact hblocks.trans ((modLink_linkOnly ..).trans (.each (fun _ _ => send_linkOnly ..) _))

/-- The lanes of a link that is down send nothing, and use nothing of it up. -/
theorem laneRounds_links (t0 t1 : Nat) (s : State) :
    (∀ l, linkUp s l = false → getLink (laneRounds t0 t1 s) l = getLink s l) ∧ ((∀ j ∈ s.injs, j.2.action ≠ 2) → (laneRounds t0 t1 s).injs = s.injs) := by
  unfold laneRounds each
  generalize [0, 1, 2] = ls
  induction ls generalizing s with
  | nil => exact ⟨fun _ _ => rfl, fun _ => rfl⟩
  | cons x ls ih =>
    rw [List.foldl_cons]
    dsimp only
    split
    · next hx =>
      have hone : LinkOnly x s (each (List.range (codewordAt t1 - codewordAt t0)) (fun _ s => sendCodewords x s) s) := .each (fun _ _ => sendCodewords_linkOnly ..) s
      obtain ⟨hlinks, hinjs⟩ := ih (each (List.range (codewordAt t1 - codewordAt t0)) (fun _ s => sendCodewords x s) s)
      refine ⟨fun l hl => ?_, fun hq => (hinjs (by rwa [hone.2 hq])).trans (hone.2 hq)⟩
      have hne : l ≠ x := fun h => by rw [h, hx] at hl; cases hl
      have hsame := hone.1 l hne
      exact (hlinks l (by rw [linkUp, hsame]; exact hl)).trans hsame
    · exact ih s

/-- The frame that the VCM drive port of an arm sends next, and what is left to send (R204). -/
def framed (r : Arm) : Arm :=
  { r with
    due := r.due.drop 1, seq := (r.seq + 1) % 256, cmd := if r.due.headD 0 = 0 then r.cmd else r.due.headD 0,
    demand := if r.due.headD 0 = 1 then r.wanted else r.demand }
theorem vcmFrame_arm (a b : Nat) (s : State) : getArm (vcmFrame a s) b = getArm (modArm s a framed) b := rfl
theorem vcmFrame_same (a : Nat) (s : State) : getArm (vcmFrame a s) a = framed (getArm s a) ∧
    .vcm a (doFrame ((getArm s a).due.headD 0) (((getArm s a).seq + 1) % 256) (if (getArm s a).due.headD 0 = 1 then (getArm s a).wanted else 0)) ∈ (vcmFrame a s).tx :=
  ⟨(vcmFrame_arm ..).trans (getArm_modArm ..), List.mem_append_right _ (List.mem_singleton.2 rfl)⟩
theorem vcmFrame_other {a b : Nat} (s : State) (h : b ≠ a) : getArm (vcmFrame a s) b = getArm s b :=
  (vcmFrame_arm ..).trans (getArm_modArm_other _ _ h)
theorem vcmFrames_arm {as : List Nat} (hn : as.Nodup) (s : State) : ∀ a, getArm (each as vcmFrame s) a = (if a ∈ as then framed (getArm s a) else getArm s a) ∧
    (a ∈ as → .vcm a (doFrame ((getArm s a).due.headD 0) (((getArm s a).seq + 1) % 256) (if (getArm s a).due.headD 0 = 1 then (getArm s a).wanted else 0)) ∈ (each as vcmFrame s).tx) := by
  induction as generalizing s with
  | nil => exact fun a => ⟨rfl, fun h => nomatch h⟩
  | cons b as ih =>
    obtain ⟨hb, hn⟩ := List.nodup_cons.1 hn
    intro a
    have hrest := ih hn (vcmFrame b s) a
    by_cases hab : a = b
    · subst hab
      obtain ⟨hsame, hsent⟩ := vcmFrame_same a s
      rw [if_neg hb, hsame] at hrest
      refine ⟨?_, fun _ => ?_⟩
      · rw [if_pos List.mem_cons_self]
        exact hrest.1
      · exact (Only.each (m := { arms := true, tx := true }) (fun x u => (vcmFrame_only x u).mono) Only.refl : Only _ (vcmFrame a s) (each as vcmFrame (vcmFrame a s))).sent.subset hsent
    · rw [vcmFrame_other s hab] at hrest
      simpa only [each_cons, List.mem_cons, hab, false_or] using hrest

/-- The state that a tick leaves, before write data that waited moves on. -/
def clocked (s : State) : State :=
  let t := idleTick s
  copyUnits (now s) (now t) (vcmFrames (now s) (now t) (laneRounds (now s) (now t) (alkRounds (now s) (now t) t)))
theorem tick_eq (s : State) : tick s = if awake s then drainPorts (clocked s) else idleTick s := rfl

/-- Device time and the time since power-on advance, but in the power-on reset. -/
theorem idleTick_eq (s : State) : idleTick s = { s with aon := { s.aon with
    time := if s.start.powerOnReset then s.aon.time else (s.aon.time + 40) % 2 ^ 64, up := if s.start.powerOnReset then s.aon.up else s.aon.up + 40 } } := by
  unfold idleTick
  split <;> rfl

theorem rounds_only (s : State) (t0 t1 : Nat) : Only { alks := true, links := true, injs := true, arms := true, tx := true } s
    (vcmFrames t0 t1 (laneRounds t0 t1 (alkRounds t0 t1 s))) :=
  (vcmFrames_only ..).after ((laneRounds_only ..).after ((alkRounds_only ..).mono))

theorem clocked_eq_rounds (s : State) : ∃ v, Only { alks := true, links := true, injs := true, arms := true, tx := true } (idleTick s) v ∧
    v = vcmFrames (now s) (now (idleTick s)) (laneRounds (now s) (now (idleTick s)) (alkRounds (now s) (now (idleTick s)) (idleTick s))) ∧
    clocked s = copyUnits (now s) (now (idleTick s)) v := ⟨_, rounds_only .., rfl, rfl⟩
theorem clocked_mpd (s : State) : (clocked s).mpd =
    if s.mpd.state = 3 && !s.mpd.migLost && pondRuns s then { s.mpd with migCursor := min 131072 (s.mpd.migCursor + (now (idleTick s) / 2048 - now s / 2048)) } else s.mpd := by
  obtain ⟨v, hv, -, hc⟩ := clocked_eq_rounds s
  have hmpd : v.mpd = s.mpd := by rw [hv.mpd, idleTick_eq]
  have hruns : pondRuns v = pondRuns s := by
    simp only [pondRuns, getTre, hv.tre, hv.dev, idleTick_eq]
    rfl
  rw [hc, copyUnits, hmpd, hruns]
  split
  · rfl
  · exact hmpd
theorem clocked_only (s : State) : Only { alks := true, links := true, injs := true, arms := true, mpd := true, tx := true } (idleTick s) (clocked s) :=
  (copyUnits_only ..).after (rounds_only ..).mono
/-- What runs on its own in a tick, and what it leaves. -/
theorem clocked_units (s : State) : clocked s = { idleTick s with
    alks := (clocked s).alks, links := (clocked s).links, injs := (clocked s).injs, arms := (clocked s).arms,
    mpd := { s.mpd with migCursor := (clocked s).mpd.migCursor }, tx := (clocked s).tx } := by
  have hmpd : { s.mpd with migCursor := (clocked s).mpd.migCursor } = (clocked s).mpd := by
    rw [clocked_mpd]
    split <;> rfl
  rw [hmpd]
  exact (clocked_only s).eq_fill
theorem clocked_of_rounds {s v : State} (hv : clocked s = copyUnits (now s) (now (idleTick s)) v) :
    (clocked s).alks = v.alks ∧ (clocked s).links = v.links ∧ (clocked s).injs = v.injs ∧ (clocked s).arms = v.arms ∧ (clocked s).tx = v.tx := by
  rw [hv, copyUnits]
  split <;> exact ⟨rfl, rfl, rfl, rfl, rfl⟩

/-- One frame of the drive port of each arm that is fitted begins where a frame's time does (R204). -/
theorem clocked_arms {s : State} (hs : awake s = true) (hout : s.ptn.activeOut = true) (hdue : now (idleTick s) / 2000 = now s / 2000 + 1) {a : Nat} (ha : a < s.img.arms) :
    getArm (clocked s) a = framed (getArm s a) ∧
      .vcm a (doFrame ((getArm s a).due.headD 0) (((getArm s a).seq + 1) % 256) (if (getArm s a).due.headD 0 = 1 then (getArm s a).wanted else 0)) ∈ (clocked s).tx := by
  have hr : Only { alks := true, links := true, injs := true, tx := true } (idleTick s)
      (laneRounds (now s) (now (idleTick s)) (alkRounds (now s) (now (idleTick s)) (idleTick s))) := (laneRounds_only ..).after (alkRounds_only ..).mono
  obtain ⟨-, -, -, harms, htx⟩ := clocked_of_rounds (s := s) rfl
  have hfr : ∀ w, awake w = true → w.ptn.activeOut = true → vcmFrames (now s) (now (idleTick s)) w = each (armList w) vcmFrame w := fun w hw hp => by
    simp [vcmFrames, hw, hp, hdue, each, List.range_succ]
  generalize laneRounds (now s) (now (idleTick s)) (alkRounds (now s) (now (idleTick s)) (idleTick s)) = w at hr harms htx
  have hstart : w.start = s.start := by rw [hr.start, idleTick_eq]
  have hptn : w.ptn = s.ptn := by rw [hr.ptn, idleTick_eq]
  have himg : w.img = s.img := by rw [hr.img, idleTick_eq]
  have harm : ∀ b, getArm w b = getArm s b := fun b => by rw [getArm, hr.arms, idleTick_eq, getArm]
  have hawake : awake w = true := by
    rw [awake, hstart]
    exact hs
  have hdrives : w.ptn.activeOut = true := by
    rw [hptn]
    exact hout
  rw [hfr w hawake hdrives] at harms htx
  obtain ⟨hone, hsent⟩ := vcmFrames_arm (as := armList w) List.nodup_range w a
  have hmem : a ∈ armList w := List.mem_range.2 (himg ▸ ha)
  rw [if_pos hmem, harm] at hone
  rw [harm] at hsent
  exact ⟨by rw [getArm, harms]; exact hone, by rw [htx]; exact hsent hmem⟩
theorem clocked_arms_same {s : State} (h : s.ptn.activeOut = false ∨ now (idleTick s) / 2000 = now s / 2000) : (clocked s).arms = s.arms := by
  have hr : Only { alks := true, links := true, injs := true, tx := true } (idleTick s)
      (laneRounds (now s) (now (idleTick s)) (alkRounds (now s) (now (idleTick s)) (idleTick s))) := (laneRounds_only ..).after (alkRounds_only ..).mono
  obtain ⟨-, -, -, harms, -⟩ := clocked_of_rounds (s := s) rfl
  generalize laneRounds (now s) (now (idleTick s)) (alkRounds (now s) (now (idleTick s)) (idleTick s)) = w at hr harms
  have hptn : w.ptn = s.ptn := by rw [hr.ptn, idleTick_eq]
  have hsame : vcmFrames (now s) (now (idleTick s)) w = w := by
    rcases h with h | h
    · simp [vcmFrames, hptn, h]
    · simp [vcmFrames, h, each]
  rw [harms, hsame, hr.arms, idleTick_eq]
theorem clocked_links (s : State) :
    (∀ l, linkUp s l = false → getLink (clocked s) l = getLink s l) ∧ ((∀ j ∈ s.injs, j.2.action ≠ 2) → (clocked s).injs = s.injs) := by
  have ha : Only { alks := true, tx := true } (idleTick s) (alkRounds (now s) (now (idleTick s)) (idleTick s)) := alkRounds_only ..
  obtain ⟨-, hlinks, hinjs, -, -⟩ := clocked_of_rounds (s := s) rfl
  generalize alkRounds (now s) (now (idleTick s)) (idleTick s) = w at ha hlinks hinjs
  obtain ⟨klinks, kinjs⟩ := laneRounds_links (now s) (now (idleTick s)) w
  have hv := vcmFrames_only (now s) (now (idleTick s)) (laneRounds (now s) (now (idleTick s)) w)
  have hwl : ∀ l, getLink w l = getLink s l := fun l => by rw [getLink, ha.links, idleTick_eq, getLink]
  have hwi : w.injs = s.injs := by rw [ha.injs, idleTick_eq]
  refine ⟨fun l hl => ?_, fun hq => ?_⟩
  · rw [getLink, hlinks, hv.links, ← getLink, klinks l (by rwa [linkUp, hwl]), hwl]
  · rw [hinjs, hv.injs, kinjs (by rwa [hwi]), hwi]

end Sys2Proof.Machine
end

section
/-! Write data that waited for its intake channels moves on (R349), and with that the step of O50. -/

namespace Sys2Proof.Machine
set_option Elab.async false

theorem drainPorts_eq (s : State) : drainPorts s =
    let t := if (getLink s 0).intake.isEmpty then s else drainIntake 0 s
    if (getLink t 1).intake.isEmpty then t else drainIntake 1 t := rfl
theorem drainPorts_of_empty {s : State} (h : ∀ l < 2, (getLink s l).intake = []) : drainPorts s = s := by
  simp [drainPorts_eq, h 0 (by decide), h 1 (by decide)]
/-- One word waits: it alone moves on, with its credit, once a channel of its port may. -/
theorem drainIntake_singleton {s : State} {l : Nat} {w : WData} (h : (getLink s l).intake = [w]) :
    drainIntake l s = if intakeHeld s l then s else returnCredit l 1 (takeWdata l w (modLink s l fun k => { k with intake := [] })) := by
  rw [drainIntake, h]
  rfl
/-- What moves on at one port leaves the other's. -/
theorem drainIntake_other {s : State} {l j : Nat} {w : WData} (h : (getLink s l).intake = [w]) (hj : j ≠ l) :
    (getLink (drainIntake l s) j).intake = (getLink s j).intake := by
  rw [drainIntake_singleton h]
  split
  · rfl
  · rw [(returnCredit_only ..).kept rfl, (takeWdata_only ..).kept rfl, getLink_modLink_other _ _ hj]
theorem drainPorts_of_singleton {s : State} {l : Fin 2} {w : WData} (h : (getLink s l).intake = [w]) (ho : (getLink s (1 - l.val)).intake = []) :
    drainPorts s = if intakeHeld s l then s else returnCredit l 1 (takeWdata l w (modLink s l fun k => { k with intake := [] })) := by
  rw [← drainIntake_singleton h, drainPorts_eq]
  match l with
  | 0 =>
    have hother := (drainIntake_other h (j := 1) (by decide)).trans ho
    simp only [Fin.val_zero] at h hother ⊢
    simp [h, hother]
  | 1 =>
    simp only [Fin.val_one, Nat.sub_self] at h ho ⊢
    simp [h, ho]

/-- Settles O50: `clocked` is the state before write data that waited moves on. -/
theorem stepRunsTheFrontCommand : Obligations.StepRunsTheFrontCommand := by
  unfold Obligations.StepRunsTheFrontCommand
  refine ⟨fun _ _ _ => rfl, fun s hs => ?_⟩
  have hstep : step s = .next (tick s) := by rw [step, hs]
  have hidle := idleTick_eq s
  have hnow : now (idleTick s) = (if s.start.powerOnReset then s.aon.up else s.aon.up + 40) := by rw [hidle, now]
  cases ha : awake s with
  | false =>
    have htick : tick s = idleTick s := by rw [tick_eq, ha]; rfl
    refine ⟨idleTick s, idleTick s, htick ▸ hstep, fun _ => hidle, nofun, fun _ => rfl, fun _ _ h => (nomatch h), ?_, fun _ => hidle, fun _ => ?_, nofun, fun _ => ?_,
      nofun, fun l _ => ?_, fun _ => ?_⟩
    all_goals rw [hidle]
    rfl
  | true =>
    have htick : tick s = drainPorts (clocked s) := by rw [tick_eq, ha]; rfl
    have hcursor : (clocked s).mpd.migCursor = _ := congrArg Millpond.migCursor (clocked_mpd s)
    refine ⟨clocked s, _, htick ▸ hstep, nofun, fun _ => rfl, drainPorts_of_empty, fun l w _ hw ho => drainPorts_of_singleton hw ho, ?_, nofun, fun h => ?_,
      fun _ h3 hlost hruns => ?_, fun h => ?_, fun _ hout hdue a himg _ => ?_, (clocked_links s).1, (clocked_links s).2⟩
    · conv_lhs => rw [clocked_units, hidle]
    · rw [clocked_mpd, if_neg]
      rcases h with h | h | h <;> simp [h]
    · rw [hcursor, h3, hlost, hruns, hnow]
      rfl
    · exact clocked_arms_same (h.imp_right fun h => by rw [hnow]; exact h)
    · exact clocked_arms ha hout (by rw [hnow]; exact hdue) himg

end Sys2Proof.Machine
end

section
/-! What the scans of JTAG leave (O49): the registers do not see the scan that reads them, and a write over a path keeps the scan's instruction. -/

namespace Sys2Proof.Machine
set_option Elab.async false

/-- What has been sent before a command's own frames stays in front of them. -/
theorem take_of_prefix {α : Type} {l m : List α} (h : l <+: m) : m.take l.length = l := List.prefix_iff_eq_take.1 h ▸ rfl
section
variable (code : BitVec 8) (drives : Bool) (x : Tx) (s : State)
theorem repairOf_nth_setIr_send (j : Nat) (k : Sector) (ds : List Remap) : repairOf.nth j (setIr code drives (send x s)) k ds = repairOf.nth j s k ds := by
  have hsame (ds : List Remap) : remapTarget (setIr code drives (send x s)).img (setIr code drives (send x s)).layout ds [] (heldRuns (setIr code drives (send x s))) k.arm k.head k.row =
      remapTarget s.img s.layout ds [] (heldRuns s) k.arm k.head k.row := rfl
  induction j generalizing ds with
  | zero =>
    unfold repairOf.nth
    rw [hsame]
    cases remapTarget s.img s.layout ds [] (heldRuns s) k.arm k.head k.row <;> rfl
  | succ j ih =>
    unfold repairOf.nth
    rw [hsame]
    cases remapTarget s.img s.layout ds [] (heldRuns s) k.arm k.head k.row with
    | none => rfl
    | some target => exact ih _
theorem repairOf_setIr_send : repairOf (setIr code drives (send x s)) = repairOf s := by
  funext o
  simp only [repairOf, repairOf_nth_setIr_send]
  rfl
theorem keyPlace_setIr_send : keyPlace (setIr code drives (send x s)) = keyPlace s := by
  unfold keyPlace
  rw [repairOf_setIr_send]
  rfl
theorem opPlaces_setIr_send : opPlaces (setIr code drives (send x s)) = opPlaces s := by
  unfold opPlaces
  rw [keyPlace_setIr_send]
theorem headPlaces_setIr_send : headPlaces (setIr code drives (send x s)) = headPlaces s := by
  unfold headPlaces
  rw [opPlaces_setIr_send]
  rfl
theorem opRate_setIr_send : opRate (setIr code drives (send x s)) = opRate s := by
  unfold opRate
  rw [headPlaces_setIr_send]
  rfl
theorem dataSectors_setIr_send : dataSectors (setIr code drives (send x s)) = dataSectors s := by
  unfold dataSectors
  rw [keyPlace_setIr_send]
  rfl
theorem sectorsOn_setIr_send : sectorsOn (setIr code drives (send x s)) = sectorsOn s := by
  unfold sectorsOn
  rw [opPlaces_setIr_send]
theorem opPower_setIr_send : opPower (setIr code drives (send x s)) = opPower s := by
  unfold opPower
  rw [opRate_setIr_send, dataSectors_setIr_send, headPlaces_setIr_send]
  rfl
theorem decodeRate_setIr_send : decodeRate (setIr code drives (send x s)) = decodeRate s := by
  unfold decodeRate
  rw [opRate_setIr_send, sectorsOn_setIr_send]
  rfl
theorem rwWork_setIr_send : rwWork (setIr code drives (send x s)) = rwWork s := by
  unfold rwWork
  rw [opPower_setIr_send, decodeRate_setIr_send]
  rfl
theorem modelPower_setIr_send : modelPower (setIr code drives (send x s)) = modelPower s := by
  unfold modelPower
  rw [rwWork_setIr_send]
  rfl
theorem regSlu_setIr_send (a : Nat) : regSlu (setIr code drives (send x s)) a = regSlu s a := by
  unfold regSlu
  rw [modelPower_setIr_send, rwWork_setIr_send]
  rfl
theorem regAt_setIr_send (a : Nat) : regAt (setIr code drives (send x s)) a = regAt s a := by
  unfold regAt
  rw [regSlu_setIr_send]
  rfl
end

/-- What a scan and its data registers rest on stays in `t`: the instruction that is loaded, and whether the cells drive. -/
def ScanKept (s t : State) : Prop := t.diag.jtagIr = s.diag.jtagIr ∧ t.diag.bscanDrives = s.diag.bscanDrives

theorem ScanKept.of_only {m : Units} {s t : State} (h : Only m s t) (hm : m.diag = false := by rfl) : ScanKept s t := by
  rw [ScanKept, h.diag hm]
  exact ⟨rfl, rfl⟩
theorem ScanKept.trans {s t u : State} (hst : ScanKept s t) (htu : ScanKept t u) : ScanKept s u := ⟨htu.1.trans hst.1, htu.2.trans hst.2⟩

theorem ScanKept.after {s t u : State} (htu : ScanKept t u) (hst : ScanKept s t) : ScanKept s u := hst.trans htu
theorem ScanKept.rfl {s : State} : ScanKept s s := ⟨Eq.refl _, Eq.refl _⟩
theorem ScanKept.ite {p : Prop} [Decidable p] {s t u : State} (ht : ScanKept s t) (hu : ScanKept s u) : ScanKept s (if p then t else u) := by
  split <;> assumption

theorem injectHalt_scan (ch : Nat) (s : State) : ScanKept s (injectHalt ch s) := by
  unfold injectHalt
  exact .ite .rfl (.ite (.of_only (haltChannel_only ..)) ⟨rfl, rfl⟩)
theorem eccGo_scan (source : BitVec 8) (s : State) : ScanKept s (eccGo source s) := by
  unfold eccGo
  split
  · exact ⟨rfl, rfl⟩
  · next mem at_ _ =>
    have hstore : ScanKept s (storeTest mem at_ s.diag.eccData (dropTag mem at_ s)) := .trans (t := dropTag mem at_ s) ⟨rfl, rfl⟩ (.of_only (storeTest_only ..))
    have hpost (u : State) : ScanKept u (post 0xAE source [] u) := .of_only (post_only ..)
    exact .ite ⟨rfl, rfl⟩ ((hpost _).after (hstore.trans ⟨rfl, rfl⟩))
theorem putFltReport_scan (v : Word) (s : State) : ScanKept s (putFltReport v s) := by
  unfold putFltReport
  exact .ite ((ScanKept.of_only (report_only ..)).after ⟨rfl, rfl⟩) ⟨rfl, rfl⟩
theorem putTreHalt_scan (v : Word) (s : State) : ScanKept s (putTreHalt v s) := by
  unfold putTreHalt
  exact .ite ((injectHalt_scan ..).after ⟨rfl, rfl⟩) ⟨rfl, rfl⟩
theorem landWrite_scan (source : BitVec 8) (a : Nat) (v : Word) (s : State) : ScanKept s (landWrite source a v s) := by
  unfold landWrite
  refine .ite (.of_only (m := { flt := true }) (.ite (.upd (.ite (.upd .refl) .refl)) (.ite (.upd .refl) .refl))) ?_
  refine .ite (.of_only (putTraceTrig_only ..)) ?_
  refine .ite ⟨rfl, rfl⟩ ?_
  refine .ite (putFltReport_scan ..) ?_
  refine .ite ⟨rfl, rfl⟩ (.ite ⟨rfl, rfl⟩ (.ite ⟨rfl, rfl⟩ ?_))
  refine .ite (.ite (eccGo_scan ..) .rfl) ?_
  refine .ite (putTreHalt_scan ..) ?_
  split
  · exact .of_only (putTraceCfg_only ..)
  split
  · exact .of_only (putLinkCfg_only ..)
  split
  · exact .of_only (modInj_only ..)
  · exact .rfl

/-- A write over a path that lands is counted, and one that does not is counted as refused (R654). -/
theorem diagWriteAs_idn (op : Nat) (path : Path) (a : Nat) (v : Word) (s : State) :
    (diagWriteAs op path a v s).idn =
      if writeVerdict op path a v s = .done then { s.idn with writes := satInc 16 s.idn.writes } else { s.idn with denied := satInc 16 s.idn.denied } := by
  have hland : (landWrite (pathMaster path) a v s).idn = s.idn := (landWrite_only ..).idn
  unfold diagWriteAs
  cases writeVerdict op path a v s with
  | done => exact congrArg (fun i : Idn => { i with writes := satInc 16 i.writes }) hland
  | _ => rfl
theorem diagWriteAs_scan (op : Nat) (path : Path) (a : Nat) (v : Word) (s : State) : ScanKept s (diagWriteAs op path a v s) := by
  unfold diagWriteAs
  split
  · exact landWrite_scan ..
  · exact ⟨rfl, rfl⟩

/-- One word that reads with an uncorrectable error is counted (R530). -/
theorem reportUe_idn (path : Path) (a : Nat) (s : State) : (reportUe path [a] s).idn = { s.idn with ue := satInc 16 s.idn.ue } :=
  (report_only _ (nextFree { s with idn := { s.idn with ue := satInc 16 s.idn.ue } })).idn

end Sys2Proof.Machine
end

section
/-! The outcomes of a JTAG access and of FUSE_PROG (R659, R661). -/

namespace Sys2Proof.Machine
set_option Elab.async false

/-- The scan of instruction `code` that began in `s` and captured `x` has ended in `t` (R658): `x` stands behind what was sent before, and no cell drives. -/
def Scanned (code : BitVec 8) (x : Tx) (s t : State) : Prop :=
  t.tx.take (s.tx.length + 1) = s.tx ++ [x] ∧ t.diag.jtagIr = code ∧ t.diag.bscanDrives = false
theorem Scanned.of_only {m : Units} {code : BitVec 8} {x : Tx} {s t : State} (h : Only m (setIr code false (send x s)) t)
    (hk : ScanKept (setIr code false (send x s)) t) : Scanned code x s t := by
  have hsent : s.tx ++ [x] <+: t.tx := h.sent
  exact ⟨by simpa using take_of_prefix hsent, hk⟩
theorem Scanned.refl {code : BitVec 8} {x : Tx} {s : State} : Scanned code x s (setIr code false (send x s)) := .of_only (m := {}) .refl .rfl
theorem Scanned.ite {p : Prop} [Decidable p] {code : BitVec 8} {x : Tx} {s t u : State} (ht : Scanned code x s t) (hu : Scanned code x s u) :
    Scanned code x s (if p then t else u) := by
  split <;> assumption
theorem Scanned.accResult {code : BitVec 8} {x : Tx} {s t : State} {data : Word} {status : Nat} {ue : Bool} (h : Scanned code x s t) :
    Scanned code x s (accResult data status ue t) := h
theorem Scanned.fuseResult {code : BitVec 8} {x : Tx} {s t : State} {status : Nat} (h : Scanned code x s t) :
    Scanned code x s (fuseResult status t) := h
theorem Scanned.fuses {code : BitVec 8} {x : Tx} {s t : State} {f : Fuses} (h : Scanned code x s t) : Scanned code x s { t with fuses := f } := h

theorem execDiagAccRead_eq (a : Word) (ue : Bool) (s : State) :
    execDiagAccRead a ue s = .next (
      let u := setIr 0x20 false (send (.jtag (accCapture s)) s)
      if !jtagClocked s then u
      else if a.toNat % 8 ≠ 0 || (blockOf a.toNat).isNone then accResult 0 2 false (countDenied u)
      else if ue && (regAt s a.toNat).isSome then accResult 0 0 true (reportUe .jtag [a.toNat] u)
      else accResult (readAt s a.toNat) 0 false u) := by
  unfold execDiagAccRead readAt
  rw [← regAt_setIr_send 0x20 false (.jtag (accCapture s)) s]
  rfl
theorem execDiagAccRead_scanned (a : Word) (ue : Bool) (s t : State) (h : execDiagAccRead a ue s = .next t) : Scanned 0x20 (.jtag (accCapture s)) s t := by
  rw [execDiagAccRead_eq] at h
  obtain rfl := Host.Outcome.next.inj h
  exact .ite .refl (.ite (.accResult .refl) (.ite (.accResult (.of_only (reportUe_only ..) (.of_only (reportUe_only ..)))) (.accResult .refl)))
theorem execDiagAccWrite_scanned (a v : Word) (s t : State) (h : execDiagAccWrite a v s = .next t) : Scanned 0x20 (.jtag (accCapture s)) s t := by
  obtain rfl := Host.Outcome.next.inj h
  exact .ite .refl (.accResult (.of_only (diagWriteAs_only ..) (diagWriteAs_scan ..)))
theorem execFuseProg_scanned (go : Bool) (group : BitVec 2) (value : BitVec 256) (vioOk : Bool) (s t : State) (h : execFuseProg go group value vioOk s = .next t) :
    Scanned 0x22 (.jtag (fuseCapture s)) s t := by
  obtain rfl := Host.Outcome.next.inj h
  exact .ite .refl (.ite (.fuseResult .refl) (.ite (.fuseResult .refl)
    (.ite (.fuseResult (.fuses .refl)) (.ite (.fuseResult (.fuses .refl)) (.fuseResult (.fuses .refl))))))
theorem fuseRefused_iff (group : BitVec 2) (vioOk : Bool) (s : State) : fuseRefused group vioOk s = false ↔
    unlocked s s.diag.unlockJ = true ∧ s.fuses.openBlown = false ∧ group ≠ 3 ∧ (group = 0 → s.fuses.unlockKey = none) ∧ (group = 1 → s.fuses.keyHash = none) ∧
      (s.dev = .unconfigured ∨ s.dev = .configuring ∨ s.dev = .parked ∨ s.dev = .stopped) ∧ vioOk = true := by
  simp only [fuseRefused, Bool.or_eq_false_iff, Bool.and_eq_false_iff, Bool.not_eq_false', Bool.or_eq_true, decide_eq_true_eq, decide_eq_false_iff_not,
    Option.isSome_eq_false_iff, Option.isNone_iff_eq_none, and_assoc, or_assoc, imp_iff_not_or, ne_eq]

end Sys2Proof.Machine
end

section
/-! JTAG scans (O49). -/

namespace Sys2Proof.Machine
set_option Elab.async false

theorem jtagClocked_setIr_send (code : BitVec 8) (drives : Bool) (x : Tx) (s : State) : jtagClocked (setIr code drives (send x s)) = jtagClocked s := rfl
/-- A read of a register that is clocked answers its word, or is counted as refused or as an uncorrectable word (R659, R530). -/
theorem execDiagAccRead_clocked (a : Word) (ue : Bool) (s t : State) (hclk : jtagClocked s = true) (h : execDiagAccRead a ue s = .next t) :
    let named : Prop := a.toNat % 8 = 0 ∧ (blockOf a.toNat).isSome = true
    (¬ named → t.diag.jtagData = 0 ∧ t.diag.jtagStatus = 2 ∧ t.diag.jtagUe = false ∧ t.idn.denied = satInc 16 s.idn.denied) ∧
      (named → t.diag.jtagStatus = 0 ∧ (ue = true → (regAt s a.toNat).isSome = true → t.diag.jtagUe = true ∧ t.diag.jtagData = 0 ∧ t.idn.ue = satInc 16 s.idn.ue) ∧
        (ue = false → t.diag.jtagUe = false ∧ t.idn = s.idn ∧ t.diag.jtagData = readAt s a.toNat)) := by
  rw [execDiagAccRead_eq] at h
  obtain rfl := Host.Outcome.next.inj h
  intro named
  have hbad : (decide (a.toNat % 8 ≠ 0) || (blockOf a.toNat).isNone) = true ↔ ¬ named := by
    simp only [named, Bool.or_eq_true, decide_eq_true_eq, not_and_or, ← Option.not_isSome, Bool.not_eq_true']
    simp
  rw [if_neg (by simp [hclk])]
  by_cases hn : named
  · rw [if_neg fun hb => hbad.1 hb hn]
    refine ⟨fun hc => (hc hn).elim, fun _ => ?_⟩
    split
    · next hword =>
      obtain ⟨rfl, -⟩ := (Bool.and_eq_true ..).mp hword
      exact ⟨rfl, fun _ _ => ⟨rfl, rfl, congrArg Idn.ue (reportUe_idn ..)⟩, nofun⟩
    · next hword =>
      exact ⟨rfl, fun hue hreg => (hword (by simp [hue, hreg])).elim, fun _ => ⟨rfl, rfl, rfl⟩⟩
  · rw [if_pos (hbad.2 hn)]
    exact ⟨fun _ => ⟨rfl, rfl, rfl, rfl⟩, fun hc => (hn hc).elim⟩

/-- Settles O49: each scan leaves what it captured behind what was sent before and its instruction in the register; an access acts on the registers where they are
clocked, and FUSE_PROG on the fuses where nothing refuses it. -/
theorem jtagInstructionsAct : Obligations.JtagInstructionsAct := by
  unfold Obligations.JtagInstructionsAct
  intro s clocked captured ir
  refine ⟨fun a ue => ?_, fun a v => ?_, fun go group value vioOk => ?_, fun cells => ⟨_, rfl, ⟨rfl, rfl⟩, rfl, rfl⟩, fun cells => ⟨_, rfl, ⟨rfl, rfl⟩, rfl, rfl⟩,
    fun cells => ⟨_, rfl, ⟨rfl, rfl⟩, rfl, rfl⟩, fun sample preload => ⟨_, rfl, ⟨rfl, rfl⟩, rfl, rfl⟩, ⟨_, rfl, ⟨rfl, rfl⟩, rfl, rfl⟩,
    fun code => ⟨_, rfl, ⟨rfl, rfl⟩, rfl, rfl⟩⟩
  · obtain ⟨hcaptured, hir⟩ := execDiagAccRead_scanned a ue s _ rfl
    refine ⟨_, rfl, hcaptured, hir, fun hclk => ?_, fun hclk => (execDiagAccRead_clocked a ue s _ hclk rfl).1, fun hclk => (execDiagAccRead_clocked a ue s _ hclk rfl).2⟩
    have hstill : (!jtagClocked (setIr 0x20 false (send (.jtag (accCapture s)) s))) = true := by simpa [clocked, jtagClocked_setIr_send] using hclk
    rw [if_pos hstill]
    exact ⟨rfl, rfl⟩
  · obtain ⟨hcaptured, hir⟩ := execDiagAccWrite_scanned a v s _ rfl
    refine ⟨_, rfl, hcaptured, hir, fun hclk => ?_, fun hclk hdone => ?_, fun hclk hrefused => ?_⟩
    · have hstill : (!jtagClocked (setIr 0x20 false (send (.jtag (accCapture s)) s))) = true := by simpa [clocked, jtagClocked_setIr_send] using hclk
      rw [if_pos hstill]
      exact ⟨rfl, rfl⟩
    · have hruns : ¬ (!jtagClocked (setIr 0x20 false (send (.jtag (accCapture s)) s))) = true := by simpa [clocked, jtagClocked_setIr_send] using hclk
      have hverdict : writeVerdict 0x31 .jtag a.toNat v (setIr 0x20 false (send (.jtag (accCapture s)) s)) = .done := hdone
      rw [if_neg hruns, if_pos hverdict]
      exact ⟨rfl, congrArg Idn.writes ((diagWriteAs_idn ..).trans (if_pos hverdict))⟩
    · have hruns : ¬ (!jtagClocked (setIr 0x20 false (send (.jtag (accCapture s)) s))) = true := by simpa [clocked, jtagClocked_setIr_send] using hclk
      have hverdict : writeVerdict 0x31 .jtag a.toNat v (setIr 0x20 false (send (.jtag (accCapture s)) s)) ≠ .done := hrefused
      rw [if_neg hruns, if_neg hverdict]
      exact ⟨rfl, congrArg Idn.denied ((diagWriteAs_idn ..).trans (if_neg hverdict))⟩
  · obtain ⟨hcaptured, hir⟩ := execFuseProg_scanned go group value vioOk s _ rfl
    refine ⟨_, rfl, hcaptured, hir, ?_⟩
    have hrefused : fuseRefused group vioOk (setIr 0x22 false (send (.jtag (fuseCapture s)) s)) = fuseRefused group vioOk s := rfl
    rw [jtagClocked_setIr_send, hrefused, ← fuseRefused_iff group vioOk s]
    refine ⟨fun hgo => ?_, fun hgo hclk => ?_, fun hgo hclk hno => ?_, fun hgo hclk hyes => ?_⟩
    · rw [if_pos (by simp [hgo])]
      exact ⟨rfl, rfl⟩
    · rw [if_neg (by simp [hgo]), if_pos (by simpa [clocked] using hclk)]
      exact ⟨rfl, rfl⟩
    · rw [if_neg (by simp [hgo]), if_neg (by simpa [clocked] using hclk), if_pos (by simpa using hno)]
      exact ⟨rfl, rfl⟩
    · rw [if_neg (by simp [hgo]), if_neg (by simpa [clocked] using hclk), if_neg (by simp [hyes])]
      split
      · next h0 => exact ⟨rfl, fun _ => rfl, by simp [h0], by simp [h0]⟩
      split
      · next h1 => exact ⟨rfl, by simp [h1], fun _ => rfl, by simp [h1]⟩
      · next h0 h1 => exact ⟨rfl, fun h => (h0 h).elim, fun h => (h1 h).elim, fun _ => rfl⟩

end Sys2Proof.Machine
end

section
/-! The first of two parks names the data commands that are waited for (O40). -/

namespace Sys2Proof.Machine
set_option Elab.async false

/-- A part in Ready that has a SPIN_CONTROL with ACTION 2 of an earlier time still running, and a later READ. -/
def parkedTwiceState : State := {
  dev := .ready, start := { inReset := false, powerOnReset := false }, links := [(0, { session := 1 })],
  hop := { nextArrival := 2, cmds := [{ arrival := 0, cap := { opcode := 0x20, tag := 1, arg32 := 2 }, phase := .running }, { arrival := 1, cap := { opcode := 0x01, tag := 2 } }] } }
def parkAgain : Capsule := { opcode := 0x20, tag := 3, arg32 := 2 }
theorem parkedTwiceState_executes : Executes parkedTwiceState .A parkAgain := by
  unfold Executes Arrives
  decide +kernel
theorem parkedTwiceState_goes_on : (match exec (.spinDown .A parkAgain) parkedTwiceState with | .next t => t.start.parkStep | _ => 1) ≠ 1 := by decide +kernel

/-- Refutes O40: with two of them, the first SPIN_CONTROL with ACTION 2 that runs is the one whose earlier data commands a park waits for. -/
theorem not_spinControlActs : ¬ Obligations.SpinControlActs := by
  unfold Obligations.SpinControlActs
  intro h
  obtain ⟨-, -, hdown⟩ := h parkedTwiceState rfl .A
  obtain ⟨t, ht, hruns⟩ := hdown parkAgain rfl rfl
  obtain ⟨-, -, -, hready⟩ := hruns parkedTwiceState_executes
  obtain ⟨-, -, hstep⟩ := hready rfl
  have hone := hstep rfl ⟨_, .tail _ (.head _), rfl, nofun, by decide⟩
  have hne := parkedTwiceState_goes_on
  rw [ht] at hne
  exact hne hone

end Sys2Proof.Machine
end

section
/-! What a completion leaves of the spindle's policy, and the enable bits of the governor's contexts. -/

namespace Sys2Proof.Machine
set_option Elab.async false

/-- What of the hopper no completion touches: the policy of the spindle, and whether the part has closed. -/
def spinPolicyOf (s : State) : Bool × Bool × Bool := (s.hop.autoSpin, s.hop.spinWait, s.hop.closed)
theorem spinPolicyOf_of_only {m : Units} {s t : State} (h : Only m s t) (hm : m.hop = false := by rfl) : spinPolicyOf t = spinPolicyOf s := by
  unfold spinPolicyOf
  rw [h.hop hm]
theorem spinPolicyOf_modHopPort (s : State) (p : Nat) (f : HopPort → HopPort) : spinPolicyOf (modHopPort s p f) = spinPolicyOf s := rfl
theorem spinPolicyOf_modCmd (s : State) (arr : Nat) (f : Cmd → Cmd) : spinPolicyOf (modCmd s arr f) = spinPolicyOf s := rfl
theorem spinPolicyOf_issueRec (p : Nat) (r : CplRec) (s : State) : spinPolicyOf (issueRec p r s) = spinPolicyOf s := by
  unfold issueRec
  rw [spinPolicyOf_modHopPort]
  split
  · exact spinPolicyOf_of_only (mirror_only ..)
  · rfl
theorem spinPolicyOf_dropGrants (p : Nat) (tag : BitVec 16) (s : State) : spinPolicyOf (dropGrants p tag s) = spinPolicyOf s := rfl
theorem spinPolicyOf_completeOne (arr status info : Nat) (s : State) : spinPolicyOf (completeOne arr status info s) = spinPolicyOf s := by
  unfold completeOne
  split
  · rfl
  split
  · rfl
  rw [spinPolicyOf_issueRec, spinPolicyOf_dropGrants, spinPolicyOf_of_only (releaseFrames_only _), spinPolicyOf_of_only (unpin_only ..)]
  exact (spinPolicyOf_of_only (m := { mrc := true }) (.ite .refl (freeSlots_only ..))).trans (spinPolicyOf_modCmd ..)
theorem spinPolicyOf_complete (arr status info : Nat) (s : State) : spinPolicyOf (complete arr status info s) = spinPolicyOf s := by
  unfold complete
  split
  · rfl
  · exact (each_proj spinPolicyOf _ _ _ fun _ _ => spinPolicyOf_completeOne ..).trans (spinPolicyOf_completeOne ..)
theorem spinPolicyOf_completeSpin (action : Nat) (s : State) : spinPolicyOf (completeSpin action s) = spinPolicyOf s := by
  unfold completeSpin
  refine each_proj spinPolicyOf _ _ _ fun arr s => ?_
  split
  · rfl
  split
  · exact spinPolicyOf_complete ..
  · rfl
theorem trySpinUp_of_no_policy {s : State} (ha : s.hop.autoSpin = false) (hw : s.hop.spinWait = false) : trySpinUp s = s := by
  simp [trySpinUp, ha, hw]

/-- The enable bit of a context that a step of another context does not touch. -/
theorem getCtx_endSines (n k : Nat) (s : State) : getCtx (endSines n s) k = getCtx s k := by
  unfold endSines
  exact each_proj (getCtx · k) _ _ _ fun g s => by split <;> rfl
theorem getCtx_disableCtx (n : Nat) (s : State) : (getCtx (disableCtx n s) n).enable = false := by
  unfold disableCtx
  rw [getCtx_modCtx]
theorem getCtx_disableCtx_other {n k : Nat} (s : State) (h : k ≠ n) : getCtx (disableCtx n s) k = getCtx s k := by
  unfold disableCtx
  rw [getCtx_modCtx_other _ _ h, getCtx_endSines]
theorem getCtx_enableCtx (n : Nat) (s : State) : (getCtx (enableCtx n s) n).enable = true := by
  unfold enableCtx
  rw [getCtx_modCtx]
theorem getCtx_enableCtx_other {n k : Nat} (s : State) (h : k ≠ n) : getCtx (enableCtx n s) k = getCtx s k := getCtx_modCtx_other _ _ h
theorem getCtx_of_only {m : Units} {s t : State} (n : Nat) (h : Only m s t) (hm : m.gov = false := by rfl) : getCtx t n = getCtx s n := by
  unfold getCtx
  rw [h.gov hm]

end Sys2Proof.Machine
end

section
/-! How the spindle stops (O12). -/

namespace Sys2Proof.Machine
set_option Elab.async false

/-- A command of a domain that runs completes with what its body makes of an awake part. -/
theorem Completes.of_live {c : Instr} {s : State} {P : State → Prop} {f : State → State} (ha : awake s = true) (hc : exec c s = live s fun s => .next (f s))
    (hp : P (f s)) : Completes c s P := ⟨_, hc.trans (if_pos ha), hp⟩
theorem each_nil {α : Type} (f : α → State → State) (s : State) : each [] f s = s := rfl
/-- All arms are on their ramps: the condition of a stop, over the arms of the image. -/
theorem no_armOut_iff (s : State) : (armList s).any (armOut s) = false ↔ ∀ a < s.img.arms, armOut s a = false := by
  simp [armList]


theorem startShortBrake_mode (s : State) : (startShortBrake s).spn.mode = 8 := rfl
theorem startCoast_mode (s : State) : (startCoast s).spn.mode = 9 := rfl
theorem gatesOff_stopping (s : State) : (gatesOff s).spc.stopping = s.spc.stopping := by
  unfold gatesOff
  dsimp only
  split <;> rfl
theorem gatesOff_gates (s : State) : (gatesOff s).spc.gates = false := by
  unfold gatesOff
  dsimp only
  split
  · rfl
  · next h => simpa using h
theorem gatesOn_stopping (s : State) : (gatesOn s).spc.stopping = s.spc.stopping := by
  unfold gatesOn
  split <;> rfl
theorem gatesOn_gates {s : State} (h : mayDrive s = true) : (gatesOn s).spc.gates = true := by
  unfold gatesOn
  split
  · next hon => simpa [h] using hon
  · rfl

theorem startShortBrake_stopping (s : State) : (startShortBrake s).spc.stopping = s.spc.stopping := by
  unfold startShortBrake setSpnMode
  rw [gatesOn_stopping, (spnCtxOff_only _).spc]
  rfl
theorem startCoast_stopping (s : State) : (startCoast s).spc.stopping = s.spc.stopping := by
  unfold startCoast setSpnMode inverterOff
  rw [(noCurve_only _).spc, gatesOff_stopping, (spnCtxOff_only _).spc]

/-- Context `n` runs: one that already does goes on. -/
def ensureCtx (n : Nat) (s : State) : State := if (getCtx s n).enable then s else enableCtx n s
theorem ensureCtx_only (n : Nat) (s : State) : Only { gov := true } s (ensureCtx n s) := .ite .refl (enableCtx_only ..)
theorem ensureCtx_enable (n : Nat) (s : State) : (getCtx (ensureCtx n s) n).enable = true := by
  unfold ensureCtx
  split
  · assumption
  · exact getCtx_enableCtx ..
theorem getCtx_ensureCtx_other {n k : Nat} (s : State) (h : k ≠ n) : getCtx (ensureCtx n s) k = getCtx s k := by
  unfold ensureCtx
  split
  · rfl
  · exact getCtx_enableCtx_other s h
/-- The loops that brake (R262). -/
def brakeLoops (s : State) : State := each [136, 137] (fun n s => if (getCtx s n).enable then s else enableCtx n s) (each [138, 139] disableCtx s)
theorem brakeLoops_eq (s : State) : brakeLoops s = ensureCtx 137 (ensureCtx 136 (disableCtx 139 (disableCtx 138 s))) := by
  have hensure : (fun n s => if (getCtx s n).enable then s else enableCtx n s) = ensureCtx := rfl
  simp only [brakeLoops, hensure, each_cons, each_nil]
theorem brakeLoops_only (s : State) : Only { gov := true } s (brakeLoops s) :=
  .each (fun _ _ => .ite .refl (enableCtx_only ..)) (.each (fun _ _ => disableCtx_only ..) .refl)
theorem brakeLoops_ctxs (s : State) : (getCtx (brakeLoops s) 136).enable = true ∧ (getCtx (brakeLoops s) 137).enable = true ∧ (getCtx (brakeLoops s) 138).enable = false := by
  rw [brakeLoops_eq]
  refine ⟨?_, ensureCtx_enable .., ?_⟩
  · rw [getCtx_ensureCtx_other _ (by decide)]
    exact ensureCtx_enable ..
  · rw [getCtx_ensureCtx_other _ (by decide), getCtx_ensureCtx_other _ (by decide), getCtx_disableCtx_other _ (by decide)]
    exact getCtx_disableCtx ..

/-- A stop begins: the speed has no source and no curve any more (R262). -/
def stopWindow (s : State) : State := noCurve { s with spc := { s.spc with stopping := true, source := false, outSince := none, satSince := none } }
/-- Regenerative braking at −BRAKE_I (R262). -/
def brakeAt (s : State) : State := { s with spn := { s.spn with mode := 7 }, spc := { s.spc with iqSet := -(1000 * brakeI s.img : Int) } }
theorem spindleStop_eq (s : State) : spindleStop s =
    if (stopWindow s).spn.mode = 0 then stopWindow s
    else if stopMode (stopWindow s).img = 0 || !mayDrive (stopWindow s) then startCoast (stopWindow s)
    else if stopMode (stopWindow s).img = 1 && !atHandoff (stopWindow s) then brakeAt (gatesOn (brakeLoops (stopWindow s)))
    else startShortBrake (stopWindow s) := by
  unfold spindleStop stopWindow brakeAt brakeLoops
  rfl
theorem stopWindow_mode (s : State) : (stopWindow s).spn.mode = s.spn.mode := rfl
theorem stopWindow_img (s : State) : (stopWindow s).img = s.img := rfl
theorem stopWindow_mayDrive (s : State) : mayDrive (stopWindow s) = mayDrive s := rfl
theorem stopWindow_atHandoff (s : State) : atHandoff (stopWindow s) = atHandoff s := rfl
theorem stopWindow_stopping (s : State) : (stopWindow s).spc.stopping = true := rfl

/-- The three ways in which a spindle that turns is stopped (R262). -/
theorem spindleStop_of_turning {s : State} (hmode : s.spn.mode ≠ 0) : spindleStop s =
    if stopMode s.img = 0 ∨ mayDrive s = false then startCoast (stopWindow s)
    else if stopMode s.img = 1 ∧ atHandoff s = false then brakeAt (gatesOn (brakeLoops (stopWindow s)))
    else startShortBrake (stopWindow s) := by
  rw [spindleStop_eq, stopWindow_mode, if_neg hmode, stopWindow_img, stopWindow_mayDrive, stopWindow_atHandoff]
  simp only [Bool.or_eq_true, Bool.and_eq_true, decide_eq_true_eq, Bool.not_eq_true']
theorem brakeLoops_mayDrive (s : State) : mayDrive (brakeLoops s) = mayDrive s := by
  unfold mayDrive
  rw [(brakeLoops_only _).ptn, (brakeLoops_only _).spc]
theorem brakeAt_stopping (s : State) : (brakeAt s).spc.stopping = s.spc.stopping := rfl
theorem brakeAt_mode (s : State) : (brakeAt s).spn.mode = 7 := rfl
theorem brakeAt_iqSet (s : State) : (brakeAt s).spc.iqSet = -(1000 * (brakeI s.img : Int)) := rfl
theorem brakeAt_gates (s : State) : (brakeAt s).spc.gates = s.spc.gates := rfl
theorem getCtx_brakeAt (s : State) (n : Nat) : getCtx (brakeAt s) n = getCtx s n := rfl
theorem spindleStop_stopping {s : State} (hmode : s.spn.mode ≠ 0) : (spindleStop s).spc.stopping = true := by
  rw [spindleStop_of_turning hmode]
  split
  · rw [startCoast_stopping, stopWindow_stopping]
  split
  · rw [brakeAt_stopping, gatesOn_stopping, (brakeLoops_only _).spc, stopWindow_stopping]
  · rw [startShortBrake_stopping, stopWindow_stopping]
theorem spindleStop_mode {s : State} (hmode : s.spn.mode ≠ 0) :
    (spindleStop s).spn.mode = if stopMode s.img = 0 ∨ mayDrive s = false then 9 else if stopMode s.img = 1 ∧ atHandoff s = false then 7 else 8 := by
  rw [spindleStop_of_turning hmode]
  split
  · exact startCoast_mode _
  split
  · exact brakeAt_mode _
  · exact startShortBrake_mode _
/-- A spindle that brakes regenerates −BRAKE_I through the current loops, without the speed loop. -/
theorem spindleStop_brakes {s : State} (hmode : s.spn.mode ≠ 0) (hstop : stopMode s.img = 1) (hmay : mayDrive s = true) (hat : atHandoff s = false) :
    (spindleStop s).spc.iqSet = -(1000 * (brakeI s.img : Int)) ∧ (spindleStop s).spc.gates = true ∧ (getCtx (spindleStop s) 136).enable = true ∧
      (getCtx (spindleStop s) 137).enable = true ∧ (getCtx (spindleStop s) 138).enable = false := by
  rw [spindleStop_of_turning hmode, if_neg (by simp [hstop, hmay]), if_pos ⟨hstop, hat⟩]
  have himg : (gatesOn (brakeLoops (stopWindow s))).img = s.img := (gatesOn_only _).img.trans (brakeLoops_only _).img
  refine ⟨?_, ?_, ?_⟩
  · rw [brakeAt_iqSet, himg]
  · rw [brakeAt_gates]
    exact gatesOn_gates (by rw [brakeLoops_mayDrive, stopWindow_mayDrive, hmay])
  · simp only [getCtx_brakeAt, getCtx_of_only _ (gatesOn_only _)]
    exact brakeLoops_ctxs ..

/-- The gates are off, and the spindle off, once it has come to rest. -/
theorem spindleOff_mode (s : State) : (spindleOff s).spn.mode = 0 := rfl
theorem inverterOff_gates (s : State) : (inverterOff s).spc.gates = false := by
  unfold inverterOff
  exact gatesOff_gates _
theorem spindleOff_gates (s : State) : (spindleOff s).spc.gates = false := by
  have h := inverterOff_gates s
  unfold spindleOff
  generalize inverterOff s = t at h ⊢
  exact h
theorem spindleOff_hop (s : State) : (spindleOff s).hop = s.hop := (spindleOff_only s).hop
/-- What the end of a park records before it completes its SPIN_CONTROL (Table 19.5). -/
def parkRecorded (s : State) : State := post 0x09 mStart [] { s with dev := .parked, start := { s.start with parkStep := 0, step := 0 } }
theorem parkRecorded_only (s : State) : Only { dev := true, start := true, evt := true, gov := true } s (parkRecorded s) := (post_only ..).after (.upd .refl)
theorem parkRecorded_parkStep (s : State) : (parkRecorded s).start.parkStep = 0 := congrArg Start.parkStep (post_only ..).start
theorem parkDone_eq {s : State} (ha : s.hop.autoSpin = false) (hw : s.hop.spinWait = false) : parkDone s = { completeSpin 2 (parkRecorded s) with dev := .parked } := by
  have hpolicy : spinPolicyOf (completeSpin 2 (parkRecorded s)) = spinPolicyOf s := (spinPolicyOf_completeSpin ..).trans (spinPolicyOf_of_only (parkRecorded_only _))
  simp only [spinPolicyOf, Prod.mk.injEq] at hpolicy
  obtain ⟨hauto, hwait, -⟩ := hpolicy
  exact trySpinUp_of_no_policy (hauto.trans ha) (hwait.trans hw)
theorem parkDone_keeps {s : State} (ha : s.hop.autoSpin = false) (hw : s.hop.spinWait = false) :
    Only (.but { spn := true, spc := true }) s (parkDone s) := by
  rw [parkDone_eq ha hw]
  exact .upd ((completeSpin_only ..).after (parkRecorded_only ..).mono)
theorem parkDone_parkStep {s : State} (ha : s.hop.autoSpin = false) (hw : s.hop.spinWait = false) : (parkDone s).start.parkStep = 0 := by
  rw [parkDone_eq ha hw]
  exact (congrArg Start.parkStep (completeSpin_only ..).start).trans (parkRecorded_parkStep s)

/-- Settles O12: STOP_MODE chooses among coasting, braking and the short brake, and a spindle at rest ends the park that waited for it. -/
theorem spindleStopsByStopMode : Obligations.SpindleStopsByStopMode := by
  unfold Obligations.SpindleStopsByStopMode
  intro s hawake
  refine ⟨?_, ?_, ?_⟩
  · refine .of_live hawake rfl ?_
    intro due
    have hdue : (!((armList s).any (armOut s)) && !s.spc.stopping && (s.start.parkStep = 5 || s.flt.stopStep = 3)) = true ↔ due := by
      simp only [due, Bool.and_eq_true, Bool.not_eq_true', no_armOut_iff, Bool.or_eq_true, decide_eq_true_eq, and_assoc]
    refine ⟨fun hn => if_neg (hdue.not.2 hn), fun hd hmode => ?_, fun hd hmode hstop hmay hat => ?_⟩
    all_goals rw [if_pos (hdue.2 hd)]
    · exact ⟨spindleStop_stopping hmode, spindleStop_mode hmode⟩
    · exact spindleStop_brakes hmode hstop hmay hat
  · refine .of_live hawake rfl ⟨fun hmode hat => ?_, fun hn => if_neg ?_⟩
    · rw [if_pos (by simp [hmode, hat])]
      exact startShortBrake_mode s
    · rcases hn with hn | hn <;> simp [hn]
  · refine .of_live hawake rfl ⟨fun hn => if_neg ?_, fun hstop hslow hpark hf hs hh ha hw => ?_⟩
    · rcases hn with ⟨hn, hs⟩ | hn
      · simp [hn, hs]
      · simp [hn]
    · have hrest : spindleAtRest s = parkDone (spindleOff s) := by
        unfold spindleAtRest
        rw [if_pos hpark, if_neg (by simp [hf, hs, hh])]
      rw [if_pos (by simp [hstop, hslow]), hrest]
      have hoff := spindleOff_hop s
      rw [← hoff] at ha hw
      refine ⟨?_, parkDone_parkStep ha hw, ?_, ?_⟩
      · rw [parkDone_eq ha hw]
      · rw [(parkDone_keeps ha hw).spc, spindleOff_gates]
      · rw [(parkDone_keeps ha hw).spn, spindleOff_mode]

end Sys2Proof.Machine
end

section
/-! The message queues step by step, and what a report leaves (R514, R518). -/

namespace Sys2Proof.Machine
set_option Elab.async false

/-- The queue of a step that leaves the queues alone. -/
theorem getMq_of_only {m : Units} {s t : State} (q : Nat) (h : Only m s t) (hm : m.mqs = false := by rfl) : getMq t q = getMq s q := by
  unfold getMq
  rw [h.mqs hm]
theorem mqTake_cons {q : Nat} {s : State} {w : Word × Bool} {rest : List (Word × Bool)} (h : (getMq s q).words = w :: rest) :
    mqTake q s = modMq (send (.popped q 0 w.1) s) q fun m => { m with words := rest, packets := if w.2 then m.packets - 1 else m.packets } := by
  unfold mqTake
  rw [h]
theorem getMq_mqTake_other {q k : Nat} (s : State) (h : k ≠ q) : getMq (mqTake q s) k = getMq s k := by
  unfold mqTake
  split
  · rfl
  · exact getMq_modMq_other _ _ h

/-- The words of a packet, the last of them marked as its end (R537). -/
def packetWords (ws : List Word) : List (Word × Bool) := ws.dropLast.map (fun w => (w, false)) ++ (ws.getLast?.map fun w => (w, true)).toList
theorem packetWords_eq {ws : List Word} (h : ws ≠ []) : packetWords ws = ws.zip (List.replicate (ws.length - 1) false ++ [true]) := by
  have hmap (l : List Word) : l.map (fun w => (w, false)) = l.zip (List.replicate l.length false) := by
    induction l with
    | nil => rfl
    | cons w l ih => rw [List.map_cons, ih, List.length_cons, List.replicate_succ, List.zip_cons_cons]
  obtain ⟨init, last, rfl⟩ : ∃ init last, ws = init ++ [last] := ⟨_, _, (List.dropLast_append_getLast h).symm⟩
  simp only [packetWords, List.dropLast_concat, List.getLast?_concat, List.length_append, List.length_singleton, Nat.add_sub_cancel, hmap, Option.map_some,
    Option.toList_some]
  rw [List.zip_append (by simp)]
  rfl
/-- A packet stands in its queue, and the doorbell has rung where the count has come to THRESH (R540). -/
def mqStored (q : Nat) (ws : List Word) (s : State) : State :=
  let t := modMq s q fun m => { m with words := m.words ++ packetWords ws, packets := m.packets + 1 }
  if (getMq s q).packets + 1 = mqThresh s.img q then send (.doorbell q) t else t
theorem mqAppend_eq (q : Nat) (ws : List Word) (s : State) :
    mqAppend q ws s = if (getMq s q).stalled then mqTake q (modMq (mqStored q ws s) q fun m => { m with stalled := false }) else mqStored q ws s := rfl
theorem getMq_mqStored (q : Nat) (ws : List Word) (s : State) :
    getMq (mqStored q ws s) q = { getMq s q with words := (getMq s q).words ++ packetWords ws, packets := (getMq s q).packets + 1 } := by
  unfold mqStored
  dsimp only
  split
  · exact (getMq_of_only q (send_only ..)).trans (getMq_modMq ..)
  · exact getMq_modMq ..
theorem getMq_mqStored_other {q k : Nat} (ws : List Word) (s : State) (h : k ≠ q) : getMq (mqStored q ws s) k = getMq s k := by
  unfold mqStored
  dsimp only
  split
  · exact (getMq_of_only k (send_only ..)).trans (getMq_modMq_other _ _ h)
  · exact getMq_modMq_other _ _ h
theorem mqStored_tx (q : Nat) (ws : List Word) (s : State) :
    (mqStored q ws s).tx = s.tx ++ if (getMq s q).packets + 1 = mqThresh s.img q then [.doorbell q] else [] := by
  unfold mqStored
  dsimp only
  split
  · rfl
  · exact (List.append_nil _).symm
theorem getMq_mqAppend_other {q k : Nat} (ws : List Word) (s : State) (h : k ≠ q) : getMq (mqAppend q ws s) k = getMq s k := by
  rw [mqAppend_eq]
  split
  · rw [getMq_mqTake_other _ h, getMq_modMq_other _ _ h, getMq_mqStored_other _ _ h]
  · exact getMq_mqStored_other _ _ h
theorem getMq_mqSend_other {q k : Nat} (ws : List Word) (s : State) (h : k ≠ q) : getMq (mqSend q ws s) k = getMq s k := by
  unfold mqSend
  split
  · rfl
  split
  · exact getMq_mqAppend_other _ _ h
  · exact getMq_modMq_other _ _ h
theorem getMq_mqNote_other {q k : Nat} (s : State) (h : k ≠ q) : getMq (mqNote q s) k = getMq s k := getMq_mqSend_other _ (nextFree s) h

-- Reports.

/-- Reports go to queue 20 alone (R514). -/
theorem getMq_report {k : Nat} (r : Report) (s : State) (h : k ≠ 20) : getMq (report r s) k = getMq s k := by
  have hholds (t : State) : getMq (each ([r].filter (·.hold)) (fun r s => enterHold r.event r.injected s) t) k = getMq t k :=
    each_proj (getMq · k) _ _ _ fun r s => getMq_of_only k (enterHold_only ..)
  have hcapture (t : State) : getMq (captureFirst [r] t) k = getMq t k := getMq_of_only k (captureFirst_only ..)
  have hcount : getMq (countReport r s) k = getMq s k := getMq_of_only k (countReport_only ..)
  unfold report reportAll
  rw [hholds, hcapture, each_cons, each_nil, getMq_mqNote_other _ h, hcount]
/-- A real report is counted under its cause (R514). -/
theorem report_real {r : Report} (s : State) (h : r.injected = false) : (report r s).flt.real = countIn s.flt.real r.cause.toNat := by
  have hcounts : (report r s).flt.real = countSource false [r] s.flt.real := countsOf_reportAll false [r] s
  simpa [countSource, h] using hcounts
theorem enterHold_of_holds {event : BitVec 8} {injected : Bool} {s : State} (h : holdsFrom s.dev = true) :
    (enterHold event injected s).dev = .faultHold ∧ (enterHold event injected s).flt.holdCause = event := by
  unfold enterHold
  rw [if_pos h]
  refine ⟨?_, ?_⟩
  · rw [(post_only ..).dev, (endVisits_only _).dev]
  · rw [(post_only ..).flt, endVisits_flt]
/-- A report that holds leads to Fault-hold from the states of R518, with its event as the cause. -/
theorem report_holds {r : Report} {s : State} (hold : r.hold = true) (h : holdsFrom s.dev = true) :
    (report r s).dev = .faultHold ∧ (report r s).flt.holdCause = r.event := by
  have hdev : (captureFirst [r] (each [r] (fun r s => mqNote 20 (countReport r s)) s)).dev = s.dev := by
    rw [(captureFirst_only ..).dev, each_cons, each_nil, (mqNote_only ..).dev, (countReport_only ..).dev]
  unfold report reportAll
  rw [List.filter_cons_of_pos hold, List.filter_nil, each_cons (xs := []), each_nil]
  exact enterHold_of_holds (hdev ▸ h)

end Sys2Proof.Machine
end

section
/-! What stays in a queue, and the packets that wait for one (R539). -/

namespace Sys2Proof.Machine
set_option Elab.async false

-- What a queue counts of its overflows stays in whatever is written to it or taken from it.
theorem overflow_modMq (q k : Nat) (s : State) (f : Mq → Mq) (h : ∀ m, (f m).overflow = m.overflow) : (getMq (modMq s q f) k).overflow = (getMq s k).overflow := by
  by_cases hk : k = q
  · rw [hk, getMq_modMq, h]
  · rw [getMq_modMq_other _ _ hk]
theorem overflow_mqTake (q k : Nat) (s : State) : (getMq (mqTake q s) k).overflow = (getMq s k).overflow := by
  unfold mqTake
  split
  · rfl
  · exact overflow_modMq _ _ _ _ fun _ => rfl
theorem overflow_mqStored (q k : Nat) (ws : List Word) (s : State) : (getMq (mqStored q ws s) k).overflow = (getMq s k).overflow := by
  by_cases hk : k = q
  · rw [hk, getMq_mqStored]
  · rw [getMq_mqStored_other _ _ hk]
theorem overflow_mqAppend (q k : Nat) (ws : List Word) (s : State) : (getMq (mqAppend q ws s) k).overflow = (getMq s k).overflow := by
  rw [mqAppend_eq]
  split
  · rw [overflow_mqTake, overflow_modMq, overflow_mqStored]
    exact fun _ => rfl
  · exact overflow_mqStored ..
theorem overflow_mqSend (q k : Nat) (ws : List Word) (s : State) : (getMq (mqSend q ws s) k).overflow = (getMq s k).overflow := by
  unfold mqSend
  split
  · rfl
  split
  · exact overflow_mqAppend ..
  · exact overflow_modMq _ _ _ _ fun _ => rfl
theorem overflow_mqServe (q k : Nat) (wss : List (List Word)) (s : State) : (getMq (mqServe q wss s) k).overflow = (getMq s k).overflow := by
  induction wss generalizing s with
  | nil => exact overflow_modMq _ _ _ _ fun _ => rfl
  | cons ws rest ih =>
    rw [mqServe]
    split
    · exact (ih _).trans (overflow_mqAppend ..)
    · exact overflow_modMq _ _ _ _ fun _ => rfl
theorem overflow_report (k : Nat) (r : Report) (s : State) : (getMq (report r s) k).overflow = (getMq s k).overflow := by
  have hholds (t : State) : getMq (each ([r].filter (·.hold)) (fun r s => enterHold r.event r.injected s) t) k = getMq t k :=
    each_proj (getMq · k) _ _ _ fun r s => getMq_of_only k (enterHold_only ..)
  have hcapture (t : State) : getMq (captureFirst [r] t) k = getMq t k := getMq_of_only k (captureFirst_only ..)
  have hcount : getMq (countReport r s) k = getMq s k := getMq_of_only k (countReport_only ..)
  have hfree : getMq (nextFree (countReport r s)) k = getMq (countReport r s) k := getMq_of_only k (nextFree_only _)
  unfold report reportAll
  rw [hholds, hcapture, each_cons, each_nil, mqNote, overflow_mqSend, hfree, hcount]

-- Packets that wait (R539).

theorem getMq_mqAdvance_nil {q : Nat} {s : State} (h : (getMq s q).waiting = []) : getMq (mqAdvance q s) q = getMq s q := by
  rw [mqAdvance, h, mqServe, getMq_modMq, ← h]
theorem getMq_mqAdvance_full {q : Nat} {s : State} {w : List Word} {rest : List (List Word)} (h : (getMq s q).waiting = w :: rest) (hfull : mqRoom s q < w.length) :
    getMq (mqAdvance q s) q = getMq s q := by
  rw [mqAdvance, h, mqServe, if_neg (Nat.not_le.2 hfull), getMq_modMq, ← h]
theorem getMq_mqAdvance_one {q : Nat} {s : State} {w : List Word} (h : (getMq s q).waiting = [w]) (hfits : w.length ≤ mqRoom s q)
    (hruns : (getMq s q).stalled = false) :
    (getMq (mqAdvance q s) q).words = (getMq s q).words ++ packetWords w ∧ (getMq (mqAdvance q s) q).waiting = [] := by
  rw [mqAdvance, h, mqServe, if_pos hfits, mqServe, getMq_modMq, mqAppend_eq, if_neg (by simp [hruns]), getMq_mqStored]
  exact ⟨rfl, rfl⟩
theorem mqAdvance_nil_tx {q : Nat} {s : State} (h : (getMq s q).waiting = []) : (mqAdvance q s).tx = s.tx := by
  rw [mqAdvance, h]
  rfl
theorem mqTake_tx_cons {q : Nat} {s : State} {w : Word × Bool} {rest : List (Word × Bool)} (h : (getMq s q).words = w :: rest) :
    (mqTake q s).tx = s.tx ++ [.popped q 0 w.1] := by
  rw [mqTake_cons h]
  rfl
theorem getMq_mqTake_cons {q : Nat} {s : State} {w : Word × Bool} {rest : List (Word × Bool)} (h : (getMq s q).words = w :: rest) :
    getMq (mqTake q s) q = { getMq s q with words := rest, packets := if w.2 then (getMq s q).packets - 1 else (getMq s q).packets } := by
  rw [mqTake_cons h]
  exact getMq_modMq ..
theorem withoutPacket_zero (ws : List (Word × Bool)) : withoutPacket 0 ws = (ws.dropWhile fun x => !x.2).drop 1 := by
  induction ws with
  | nil => rfl
  | cons w ws ih =>
    rw [withoutPacket, List.dropWhile_cons]
    cases w.2
    · simpa using ih
    · rfl

end Sys2Proof.Machine
end

section
/-! The message queues (O28). -/

namespace Sys2Proof.Machine
set_option Elab.async false

theorem packetWords_length {ws : List Word} (h : ws ≠ []) : (packetWords ws).length = ws.length := by
  rw [packetWords_eq h, List.length_zip, List.length_append, List.length_replicate, List.length_singleton]
  have := List.length_pos_iff.2 h
  omega

/-- A packet that fits is written whole; a pop that stalls takes its first word at once (R538, R541). -/
theorem mqAppend_outcome (q : Nat) {words : List Word} (hne : words ≠ []) (s : State) :
    let m := getMq s q
    let after := m.words ++ words.zip (List.replicate (words.length - 1) false ++ [true])
    let bell : List Tx := if m.packets + 1 = mqThresh s.img q then [.doorbell q] else []
    let t := mqAppend q words s
    (getMq t q).stalled = false ∧
      (m.stalled = false → (getMq t q).packets = m.packets + 1 ∧ (getMq t q).words = after ∧ t.tx = s.tx ++ bell) ∧
      (m.stalled = true → (getMq t q).words = after.tail ∧ ∀ w rest, after = w :: rest →
        (getMq t q).packets = (if w.2 then m.packets else m.packets + 1) ∧ t.tx = s.tx ++ bell ++ [.popped q 0 w.1]) := by
  intro m after bell t
  have hstored : getMq (mqStored q words s) q = { m with words := after, packets := m.packets + 1 } := by rw [getMq_mqStored, packetWords_eq hne]
  have htx : (mqStored q words s).tx = s.tx ++ bell := mqStored_tx ..
  by_cases hstall : m.stalled = true
  · have ht : t = mqTake q (modMq (mqStored q words s) q fun m => { m with stalled := false }) := (mqAppend_eq ..).trans (if_pos hstall)
    have hopen : getMq (modMq (mqStored q words s) q fun m => { m with stalled := false }) q = { m with words := after, packets := m.packets + 1, stalled := false } := by
      rw [getMq_modMq, hstored]
    obtain ⟨w, rest, hcons⟩ : ∃ w rest, after = w :: rest := by
      refine List.exists_cons_of_ne_nil (List.append_ne_nil_of_right_ne_nil _ ?_)
      rw [← packetWords_eq hne]
      exact List.ne_nil_of_length_pos (packetWords_length hne ▸ List.length_pos_iff.2 hne)
    have hfront : (getMq (modMq (mqStored q words s) q fun m => { m with stalled := false }) q).words = w :: rest := by rw [hopen, hcons]
    rw [ht, getMq_mqTake_cons hfront, mqTake_tx_cons hfront, hopen, hcons]
    refine ⟨rfl, fun hrun => (Bool.eq_false_iff.1 hrun hstall).elim, fun _ => ⟨rfl, fun w' rest' heq => ?_⟩⟩
    obtain ⟨rfl, rfl⟩ := List.cons_eq_cons.1 heq
    exact ⟨rfl, congrArg (· ++ [Tx.popped q 0 w.1]) htx⟩
  · have ht : t = mqStored q words s := (mqAppend_eq ..).trans (if_neg hstall)
    rw [ht, hstored]
    exact ⟨Bool.eq_false_iff.2 hstall, fun _ => ⟨rfl, rfl, htx⟩, fun h => (hstall h).elim⟩

/-- What a dropped packet leaves in its queue: the next waits on, or enters (R539). -/
theorem mqDropped (q : Nat) (rest : List (List Word)) (s : State) :
    let m := getMq s q
    let t := mqAdvance q (modMq s q fun m => { m with waiting := rest, overflow := satInc 8 m.overflow })
    (∀ w, rest.head? = some w → mqRoom s q < w.length → (getMq t q).waiting = rest ∧ (getMq t q).words = m.words) ∧
      (rest = [] → (getMq t q).waiting = [] ∧ (getMq t q).words = m.words) ∧
      (∀ w, rest = [w] → w ≠ [] → w.length ≤ mqRoom s q → m.stalled = false →
        (getMq t q).waiting = [] ∧ (getMq t q).words = m.words ++ w.zip (List.replicate (w.length - 1) false ++ [true])) ∧
      (getMq t q).overflow = satInc 8 m.overflow := by
  intro m t
  have hmid : getMq (modMq s q fun m => { m with waiting := rest, overflow := satInc 8 m.overflow }) q = { m with waiting := rest, overflow := satInc 8 m.overflow } :=
    getMq_modMq ..
  have hroom : mqRoom (modMq s q fun m => { m with waiting := rest, overflow := satInc 8 m.overflow }) q = mqRoom s q := by
    rw [mqRoom, hmid]
    rfl
  refine ⟨fun w hw hfull => ?_, fun hnil => ?_, fun w hw hne hfits hrun => ?_, ?_⟩
  · obtain ⟨tail, rfl⟩ : ∃ tail, rest = w :: tail := by
      cases rest with
      | nil => cases hw
      | cons x tail => exact ⟨tail, by rw [Option.some.inj hw]⟩
    have ht : getMq t q = _ := getMq_mqAdvance_full (congrArg Mq.waiting hmid) (hroom ▸ hfull)
    rw [ht, hmid]
    exact ⟨rfl, rfl⟩
  · subst hnil
    have ht : getMq t q = _ := getMq_mqAdvance_nil (congrArg Mq.waiting hmid)
    rw [ht, hmid]
    exact ⟨rfl, rfl⟩
  · subst hw
    obtain ⟨hwords, hwait⟩ := getMq_mqAdvance_one (congrArg Mq.waiting hmid) (hroom ▸ hfits) ((congrArg Mq.stalled hmid).trans hrun)
    rw [hmid, packetWords_eq hne] at hwords
    exact ⟨hwait, hwords⟩
  · exact (overflow_mqServe ..).trans (congrArg Mq.overflow hmid)

/-- A dropped packet of a queue of read-after-write results makes its check void (R539). -/
def mqVoided (q : Nat) (ws : List Word) (s : State) : State :=
  match ws with
  | w :: _ =>
    if q < 8 then
      let i := getIsl s (bitsOf 63 57 w.toNat)
      each (underCheck s i.arm i.head (bitsOf 43 43 w.toNat) (bitsOf 56 44 w.toNat)) (fun x s => voidSector x.1.row x.2 s) s
    else s
  | [] => s
theorem mqVoided_only (q : Nat) (ws : List Word) (s : State) : Only { rows := true, slu := true } s (mqVoided q ws s) := by
  unfold mqVoided
  split
  · exact .ite (.each (fun _ _ => voidSector_only ..) .refl) .refl
  · exact .refl
/-- The report of a packet that waited too long (R539). -/
def overflowReport (producer : BitVec 8) : Report := { master := producer, cause := 5, mem := 0x57, event := 0xA4, hold := true }
theorem execMqProducerTimeout_cons {q : Fin 32} {s : State} {ws : List Word} {rest : List (List Word)} (producer : BitVec 8) (ha : awake s = true)
    (hw : (getMq s q).waiting = ws :: rest) :
    execMqProducerTimeout q producer s = .next (mqVoided q ws (report (overflowReport producer) (post 0xA4 mCollector [b1 q.val, b1 producer.toNat]
      (mqAdvance q (modMq s q fun m => { m with waiting := rest, overflow := satInc 8 m.overflow }))))) := by
  unfold execMqProducerTimeout live
  rw [if_pos ha]
  beta_reduce
  rw [hw]
  rfl

/-- Settles O28: a packet is written whole or waits, and what a pop or a dropped packet leaves room for enters in its order. -/
theorem messageQueuesKeepPackets : Obligations.MessageQueuesKeepPackets := by
  unfold Obligations.MessageQueuesKeepPackets
  intro s hawake q m
  refine ⟨fun words => ⟨_, if_pos hawake, ?_⟩, fun producer => ?_, fun ue => ⟨_, if_pos hawake, ?_⟩, .of_live hawake rfl ?_⟩
  · beta_reduce
    intro fits
    have hfits : (decide (words.length ≤ mqRoom s q) && (getMq s q).waiting.isEmpty) = true ↔ fits := by simp [fits, m]
    refine ⟨fun hnil => ?_, fun hne hlen hyes => ?_, fun hne hlen hno => ?_, fun hlong hq => ?_⟩
    · subst hnil
      rfl
    · have hsend : mqSend q words s = mqAppend q words s := by
        unfold mqSend
        rw [if_neg (by simpa using hne), if_pos (hfits.2 hyes)]
      rw [if_neg (Nat.not_lt.2 hlen), hsend]
      exact mqAppend_outcome q hne s
    · have hsend : mqSend q words s = modMq s q fun m => { m with waiting := m.waiting ++ [words] } := by
        unfold mqSend
        rw [if_neg (by simpa using hne), if_neg (hfits.not.2 hno)]
      rw [if_neg (Nat.not_lt.2 hlen), hsend, getMq_modMq]
      exact ⟨rfl, rfl⟩
    · rw [if_pos hlong]
      refine ⟨congrArg Mq.words (getMq_report _ _ hq), ?_⟩
      rw [report_real _ rfl]
      rfl
  · cases hw : (getMq s q).waiting with
    | nil =>
      refine ⟨s, ?_, fun _ => rfl, fun ws rest hwait => (nomatch hwait)⟩
      show execMqProducerTimeout q producer s = _
      unfold execMqProducerTimeout live
      rw [if_pos hawake]
      beta_reduce
      rw [hw]
    | cons ws rest =>
      refine ⟨_, execMqProducerTimeout_cons producer hawake hw, fun hnone => (nomatch hnone), fun ws' rest' hwait => ?_⟩
      obtain ⟨rfl, rfl⟩ := List.cons_eq_cons.1 hwait
      obtain ⟨hfull, hempty, hone, hover⟩ := mqDropped q rest s
      have hdev : (mqAdvance q (modMq s q fun m => { m with waiting := rest, overflow := satInc 8 m.overflow })).dev = s.dev :=
        (mqAdvance_only ..).dev.trans (modMq_only ..).dev
      generalize mqAdvance q (modMq s q fun m => { m with waiting := rest, overflow := satInc 8 m.overflow }) = u at *
      have hpost (k : Nat) : getMq (post 0xA4 mCollector [b1 q.val, b1 producer.toNat] u) k = getMq u k := getMq_of_only k (post_only ..)
      have hposted : (post 0xA4 mCollector [b1 q.val, b1 producer.toNat] u).dev = s.dev := (post_only ..).dev.trans hdev
      generalize post 0xA4 mCollector [b1 q.val, b1 producer.toNat] u = v at *
      rw [getMq_of_only _ (mqVoided_only ..), (mqVoided_only ..).dev, (mqVoided_only ..).flt, overflow_report, hpost]
      refine ⟨fun hq => ?_, hover, fun hs => report_holds rfl (hposted ▸ hs)⟩
      rw [getMq_report _ _ hq, hpost]
      exact ⟨hfull, hempty, hone⟩
  · refine ⟨fun hnone => ?_, fun hok hrun w rest x hwords hwait hne hfits => ?_, fun w rest hwords hwait => ?_⟩
    · rw [show (getMq s q).words = [] from hnone, getMq_modMq]
      exact ⟨by simp only [m, ← hnone], rfl⟩
    · rw [show (getMq s q).words = w :: rest from hwords]
      have hrest : getMq (mqTake q s) q = { m with words := rest, packets := if w.2 then m.packets - 1 else m.packets } := getMq_mqTake_cons hwords
      have hroom : mqRoom (mqTake q s) q = mqDepth s.img q - rest.length := by rw [mqRoom, hrest, (mqTake_only ..).img]
      obtain ⟨hin, hnone⟩ := getMq_mqAdvance_one (s := mqTake q s) (w := x) (by rw [hrest, hwait]) (by omega) (by rw [hrest, hrun])
      rw [hrest, packetWords_eq hne] at hin
      subst hok
      exact ⟨hin, hnone⟩
    · rw [show (getMq s q).words = w :: rest from hwords]
      refine ⟨fun hok => ?_, fun hue hq => ?_⟩
      · subst hok
        have hrest : getMq (mqTake q s) q = { m with words := rest, packets := if w.2 then m.packets - 1 else m.packets } := getMq_mqTake_cons hwords
        have hnone : (getMq (mqTake q s) q).waiting = [] := by rw [hrest, hwait]
        have hkeep : getMq (mqAdvance q (mqTake q s)) q = _ := getMq_mqAdvance_nil hnone
        have htx : (mqAdvance q (mqTake q s)).tx = s.tx ++ [.popped q 0 w.1] := (mqAdvance_nil_tx hnone).trans (mqTake_tx_cons hwords)
        rw [hrest] at hkeep
        exact ⟨congrArg Mq.words hkeep, congrArg Mq.packets hkeep, htx⟩
      · subst hue
        have hdropped : getMq (dropPacket q 0 (send (.popped q 1 0) s)) q = { m with words := (m.words.dropWhile fun x => !x.2).drop 1, packets := m.packets - 1 } := by
          rw [dropPacket, getMq_modMq, getMq_of_only _ (send_only ..), withoutPacket_zero]
        have hreported (r : Report) := (getMq_report r (dropPacket q 0 (send (.popped q 1 0) s)) hq).trans hdropped
        have hkeep (r : Report) := getMq_mqAdvance_nil (s := report r (dropPacket q 0 (send (.popped q 1 0) s))) (q := q) (by rw [hreported, hwait])
        have hflt (u : State) : (mqAdvance q u).flt = u.flt := (mqAdvance_only ..).flt
        refine ⟨(congrArg Mq.words ((hkeep _).trans (hreported _))).trans (by rw [hwords]), congrArg Mq.packets ((hkeep _).trans (hreported _)), ?_⟩
        rw [if_pos rfl, hflt, report_real _ rfl]
        exact congrArg (fun c => (countIn c 2).uncorrected) (congrArg Flt.real (modMq_flt ..))
  · refine ⟨fun hrun => ?_, fun hstall => ?_⟩
    · rw [if_neg (by simpa [m] using hrun)]
    · rw [if_pos (by simpa [m] using hstall)]
      refine ⟨?_, ?_, rfl⟩
      · rw [getMq_of_only _ (send_only ..), getMq_modMq]
      · rw [getMq_of_only _ (send_only ..), getMq_modMq]

end Sys2Proof.Machine
end

section
/-! The fetch cache: maintenance, and what the stride detector leaves. -/

namespace Sys2Proof.Machine
set_option Elab.async false

/-- A step for each key that touches its own entry alone: the entry of a key after all of them. -/
theorem get_each {β : Type} {get : State → Nat → β} {g : Nat → β → β} {f : Nat → State → State} (hsame : ∀ k s, get (f k s) k = g k (get s k))
    (hother : ∀ k e s, e ≠ k → get (f k s) e = get s e) {l : List Nat} (hl : l.Nodup) (e : Nat) (s : State) :
    get (each l f s) e = if e ∈ l then g e (get s e) else get s e := by
  induction l generalizing s with
  | nil => rfl
  | cons k l ih =>
    obtain ⟨hk, hl⟩ := List.nodup_cons.1 hl
    rw [each_cons, ih hl]
    by_cases he : e = k
    · subst he
      rw [if_neg hk, if_pos (List.mem_cons_self ..), hsame]
    · simp only [List.mem_cons, he, false_or, hother k e s he]
theorem get_each_range {β : Type} {get : State → Nat → β} {g : Nat → β → β} {f : Nat → State → State} (hsame : ∀ k s, get (f k s) k = g k (get s k))
    (hother : ∀ k e s, e ≠ k → get (f k s) e = get s e) {n e : Nat} (he : e < n) (s : State) : get (each (List.range n) f s) e = g e (get s e) := by
  rw [get_each hsame hother List.nodup_range, if_pos (List.mem_range.2 he)]

-- The fetch cache: maintenance (R505, R506).

/-- What an invalidation of the lines from `base` leaves in an entry. -/
def invalidated (base lines : Nat) (d : FcEntry) : FcEntry :=
  if (d.valid && (decide (base ≤ d.line) && decide (d.line < base + lines))) = true then { d with valid := false, prefetched := false } else d
theorem getFce_modFcq (s : State) (q : Nat) (f : FcReq → FcReq) (e : Nat) : getFce (modFcq s q f) e = getFce s e := rfl
def invalidateEntry (base lines e : Nat) (s : State) : State :=
  let d := getFce s e
  if d.valid && (decide (base ≤ d.line) && decide (d.line < base + lines)) then
    let s := modFce s e fun d => { d with valid := false, prefetched := false }
    if d.locked then modFcq s d.owner fun q => { q with lockInval := satInc 8 q.lockInval } else s
  else s
theorem getFce_invalidateEntry (base lines e : Nat) (s : State) : getFce (invalidateEntry base lines e s) e = invalidated base lines (getFce s e) := by
  unfold invalidateEntry invalidated
  dsimp only
  split
  · split
    · rw [getFce_modFcq, getFce_modFce]
    · rw [getFce_modFce]
  · rfl
theorem getFce_invalidateEntry_other (base lines : Nat) {k e : Nat} (s : State) (h : e ≠ k) : getFce (invalidateEntry base lines k s) e = getFce s e := by
  unfold invalidateEntry
  dsimp only
  split
  · split
    · rw [getFce_modFcq, getFce_modFce_other _ _ h]
    · rw [getFce_modFce_other _ _ h]
  · rfl
theorem getFce_invalidate (base lines : Nat) (s : State) {e : Nat} (he : e < 48) : getFce (invalidate base lines s) e = invalidated base lines (getFce s e) := by
  have hentries : (invalidate base lines s).fcc.entries = (each (List.range 48) (invalidateEntry base lines) s).fcc.entries := by
    unfold invalidate invalidateEntry
    dsimp only
  have heach : getFce (each (List.range 48) (invalidateEntry base lines) s) e = invalidated base lines (getFce s e) :=
    get_each_range (g := fun _ => invalidated base lines) (getFce_invalidateEntry base lines) (fun k e s h => getFce_invalidateEntry_other base lines s h) he s
  unfold getFce at heach ⊢
  rw [hentries, heach]
theorem getFce_unlock {p : FcEntry → Bool} {e : Nat} (he : e < 48) (s : State) :
    getFce (each (List.range 48) (fun e s => if p (getFce s e) then modFce s e fun d => { d with locked := false, owner := 0 } else s) s) e =
      if p (getFce s e) then { getFce s e with locked := false, owner := 0 } else getFce s e := by
  refine get_each_range (get := getFce) (g := fun _ d => if p d then { d with locked := false, owner := 0 } else d) (fun k s => ?_) (fun k e s hne => ?_) he s
  · split
    · exact getFce_modFce ..
    · rfl
  · split
    · exact getFce_modFce_other _ _ hne
    · rfl
/-- What the stride detector leaves: it keeps its own record of the requester, and prefetches. -/
structure StrideOnly (q : Nat) (s t : State) : Prop where
  entries : t.fcc.entries = s.fcc.entries
  fill : t.fcc.fill = s.fcc.fill
  waiters : t.fcc.waiters = s.fcc.waiters
  hits : (getFcq t q).hits = (getFcq s q).hits
  misses : (getFcq t q).misses = (getFcq s q).misses
theorem seeLine_strideOnly (q line : Nat) (s : State) : StrideOnly q s (seeLine q line s) := by
  have hmod (s : State) (f : FcReq → FcReq) (hh : ∀ r, (f r).hits = r.hits) (hm : ∀ r, (f r).misses = r.misses) : StrideOnly q s (modFcq s q f) :=
    ⟨rfl, rfl, rfl, by rw [getFcq_modFcq, hh], by rw [getFcq_modFcq, hm]⟩
  have hite (p : Prop) [Decidable p] (t u : State) (ht : StrideOnly q s t) (hu : StrideOnly q s u) : StrideOnly q s (if p then t else u) := by split <;> assumption
  unfold seeLine
  extract_lets r
  split
  · exact hmod _ _ (fun _ => rfl) fun _ => rfl
  · refine hite _ _ _ ⟨rfl, rfl, rfl, rfl, rfl⟩ ?_
    extract_lets d u
    have hu : StrideOnly q s u := by
      unfold u
      split
      · exact hmod _ _ (fun _ => rfl) fun _ => rfl
      split
      · exact hmod _ _ (fun _ => rfl) fun _ => rfl
      · exact hmod _ _ (fun _ => rfl) fun _ => rfl
    exact hite _ _ _ ⟨hu.entries, hu.fill, hu.waiters, hu.hits, hu.misses⟩ hu

end Sys2Proof.Machine
end

section
/-! The fetch cache: look-ups and fills (O31). -/

namespace Sys2Proof.Machine
set_option Elab.async false

theorem getFce_of_entries {s t : State} (h : t.fcc.entries = s.fcc.entries) (e : Nat) : getFce t e = getFce s e := by
  unfold getFce
  rw [h]
theorem readLineDirect_fcc (line : Nat) (steps : List (Bool × Nat)) (s : State) : (readLineDirect line steps s).fcc = s.fcc := (readLineDirect_only ..).fcc
theorem regions_of_only {m : Units} {s t : State} (h : Only m s t) (hfls : m.fls = false := by rfl) : regions t = regions s := by
  unfold regions
  rw [h.fls hfls]
theorem pageAt_of_only {m : Units} {s t : State} (h : Only m s t) (hfls : m.fls = false := by rfl) : pageAt t = pageAt s := by
  have hbase : regionBase t = regionBase s := by
    unfold regionBase
    rw [regions_of_only h hfls]
  unfold pageAt
  rw [regions_of_only h hfls, hbase]
theorem lineBusy_of_only {m : Units} {s t : State} {line : Nat} (h : Only m s t) (hfls : m.fls = false := by rfl) : lineBusy t line = lineBusy s line := by
  have hbank : getBank t = getBank s := by
    unfold getBank
    rw [h.fls hfls]
  unfold lineBusy pageBusy
  rw [pageAt_of_only h hfls, hbank]
theorem fetched_mem_fetchAnswer (q status : Nat) (data : BitVec 2048) (s : State) : .fetched q status data ∈ (fetchAnswer q status data s).tx :=
  List.mem_append_right _ (List.mem_singleton_self _)


/-- A look-up that hits (R500). -/
theorem lookup_hit (q line e : Nat) (s : State) :
    let d := getFce s e
    let u := modFcq s q fun r => { r with hits := satInc 32 r.hits, pfUsed := if d.prefetched then satInc 8 r.pfUsed else r.pfUsed }
    let t := seeLine q line (fetchAnswer q 0 d.data (modFce u e fun d => { d with prefetched := false }))
    t.tx = s.tx ++ [.fetched q 0 d.data] ∧ (getFcq t q).hits = satInc 32 (getFcq s q).hits ∧ (getFce t e).prefetched = false ∧ (getFce t e).data = d.data := by
  intro d u t
  have hsee : StrideOnly q (fetchAnswer q 0 d.data (modFce u e fun d => { d with prefetched := false })) t := seeLine_strideOnly ..
  have htx : t.tx = s.tx ++ [.fetched q 0 d.data] := (seeLine_only ..).tx
  have hfce : getFce t e = { d with prefetched := false } := (getFce_of_entries hsee.entries e).trans (getFce_modFce ..)
  have hhits : (getFcq t q).hits = (getFcq u q).hits := hsee.hits
  rw [hhits, getFcq_modFcq, hfce]
  exact ⟨htx, rfl, rfl, rfl⟩
/-- A miss is counted, whatever then becomes of it, and leaves the entries (R501). -/
theorem counted_miss (q line : Nat) (s : State) :
    let t := seeLine q line (modFcq s q fun r => { r with misses := satInc 16 r.misses })
    (getFcq t q).misses = satInc 16 (getFcq s q).misses ∧ t.fcc.entries = s.fcc.entries ∧ t.fcc.fill = s.fcc.fill ∧ t.tx = s.tx := by
  intro t
  have hsee : StrideOnly q (modFcq s q fun r => { r with misses := satInc 16 r.misses }) t := seeLine_strideOnly ..
  refine ⟨?_, hsee.entries, hsee.fill, (seeLine_only ..).tx⟩
  rw [hsee.misses, getFcq_modFcq]
theorem joinFill_none {q line access : Nat} {lock : Bool} {s : State} (h : s.fcc.fill = none) :
    joinFill q line lock access s = { s with fcc := { s.fcc with waiters := s.fcc.waiters ++ [(q, line, lock, access)] } } := by
  unfold joinFill
  rw [h]
theorem joinFill_entries (q line access : Nat) (lock : Bool) (s : State) :
    (joinFill q line lock access s).fcc.entries = s.fcc.entries ∧ (joinFill q line lock access s).fcc.reqs = s.fcc.reqs := by
  unfold joinFill
  split
  · split <;> exact ⟨rfl, rfl⟩
  · exact ⟨rfl, rfl⟩
theorem getFcq_of_reqs {s t : State} (h : t.fcc.reqs = s.fcc.reqs) (q : Nat) : getFcq t q = getFcq s q := by
  unfold getFcq
  rw [h]
theorem busyFault_fcc (q line access : Nat) (s : State) : (busyFault q line access s).fcc = s.fcc := (busyFault_only ..).fcc
theorem fetched_mem_busyFault (q line access : Nat) (s : State) : .fetched q 4 0 ∈ (busyFault q line access s).tx := fetched_mem_fetchAnswer ..

/-- What becomes of a miss (R490, R501, R502). -/
def served (q : Fin 6) (line access : Nat) (steps : List (Bool × Nat)) (s : State) : State :=
  if q = 4 && fcMask s.img 4 = 0 then
    (if lineBusy s line then { s with fls := { s.fls with waits := s.fls.waits ++ [{ sec := line / 4, line := some line, steps }] } } else readLineDirect line steps s)
  else if lineBusy s line && q ≠ 4 then busyFault q line access s
  else joinFill q line false access s
theorem served_keeps (q : Fin 6) (line access : Nat) (steps : List (Bool × Nat)) (s : State) :
    (served q line access steps s).fcc.entries = s.fcc.entries ∧ (served q line access steps s).fcc.reqs = s.fcc.reqs := by
  have hite (p : Prop) [Decidable p] (t u : State) (ht : t.fcc.entries = s.fcc.entries ∧ t.fcc.reqs = s.fcc.reqs) (hu : u.fcc.entries = s.fcc.entries ∧ u.fcc.reqs = s.fcc.reqs) :
      (if p then t else u).fcc.entries = s.fcc.entries ∧ (if p then t else u).fcc.reqs = s.fcc.reqs := by split <;> assumption
  unfold served
  refine hite _ _ _ (hite _ _ _ ⟨rfl, rfl⟩ ?_) (hite _ _ _ ?_ (joinFill_entries ..))
  · rw [readLineDirect_fcc]
    exact ⟨rfl, rfl⟩
  · rw [busyFault_fcc]
    exact ⟨rfl, rfl⟩
theorem served_busy {q : Fin 6} {line access : Nat} {steps : List (Bool × Nat)} {s : State} (hbusy : lineBusy s line = true) (hq : q.val ≠ 4) :
    .fetched q.val 4 0 ∈ (served q line access steps s).tx := by
  have hq : q ≠ 4 := fun h => hq (by rw [h]; rfl)
  unfold served
  rw [if_neg (by simp [hq]), if_pos (by simp [hbusy, hq])]
  exact fetched_mem_busyFault ..
theorem served_waits {q : Fin 6} {line access : Nat} {steps : List (Bool × Nat)} {s : State} (hbusy : lineBusy s line = false) (hfill : s.fcc.fill = none)
    (hq : ¬ (q.val = 4 ∧ fcMask s.img 4 = 0)) : (q.val, line, false, access) ∈ (served q line access steps s).fcc.waiters ∧ (served q line access steps s).tx = s.tx := by
  have hq : ¬ (q = 4 ∧ fcMask s.img 4 = 0) := fun ⟨h, hm⟩ => hq ⟨by rw [h]; rfl, hm⟩
  unfold served
  rw [if_neg (by simpa using hq), if_neg (by simp [hbusy]), joinFill_none hfill]
  exact ⟨List.mem_append_right _ (List.mem_singleton_self _), rfl⟩

-- Fills (R501).

theorem lineData_eq_of_fls {s t : State} (hfls : t.fls = s.fls) (hfree : t.free = s.free) (line : Nat) : lineData t line = lineData s line := by
  have hregions : regions t = regions s := by
    unfold regions
    rw [hfls]
  have hpage : pageAt t = pageAt s := by
    have hbase : regionBase t = regionBase s := by
      unfold regionBase
      rw [hregions]
    unfold pageAt
    rw [hregions, hbase]
  have hphys : physBlock t = physBlock s := by
    unfold physBlock
    rw [hregions, hfls]
  have htorn : flashTorn t = flashTorn s := by
    unfold flashTorn flashPlace getBlk
    rw [hpage, hphys, hfls]
  unfold lineData flashData
  rw [htorn, hfls, hfree]
theorem lineData_modBank (b : Nat) (f : Bank → Bank) (s : State) (line : Nat) : lineData (modBank s b f) line = lineData s line := rfl
/-- The line goes to the bank's register (R487). -/
def loadRegister (line : Nat) (s : State) : State :=
  match lineRegion s line with | some (_, page) => modBank s (page % 8) fun k => { k with register := some (line / 64) } | none => s
theorem lineData_loadRegister (line : Nat) (s : State) (l : Nat) : lineData (loadRegister line s) l = lineData s l := by
  unfold loadRegister
  split
  · exact lineData_modBank ..
  · rfl
theorem loadRegister_fcc (line : Nat) (s : State) : (loadRegister line s).fcc = s.fcc := by
  unfold loadRegister
  split <;> rfl
/-- The entry that is chosen gives up its line. -/
def giveUp (e : Option Nat) (s : State) : State := match e with | some e => modFce s e fun d => { d with valid := false, prefetched := false } | none => s
theorem giveUp_only (e : Option Nat) (s : State) : Only { fcc := true } s (giveUp e s) := by
  unfold giveUp
  split
  · exact modFce_only ..
  · exact .refl
/-- The queues of the cache, which a choice of an entry leaves. -/
def cacheQueues (s : State) : List (Nat × Nat × Bool × Nat) × List (Nat × Nat) := (s.fcc.waiters, s.fcc.prefetches)
theorem cacheQueues_giveUp (e : Option Nat) (s : State) : cacheQueues (giveUp e s) = cacheQueues s := by
  unfold giveUp
  split <;> rfl
theorem cacheQueues_pickEntry (q : Nat) (prefetch : Bool) (s : State) : cacheQueues (pickEntry q prefetch s).2 = cacheQueues s := by
  unfold pickEntry
  split <;> rfl
theorem beginFill_eq (q line : Nat) (prefetch lock : Bool) (waiting : List (Nat × Nat)) (s : State) :
    beginFill q line prefetch lock waiting s =
      let u := loadRegister line (giveUp (pickEntry q prefetch s).1 (pickEntry q prefetch s).2)
      { u with fcc := { u.fcc with fill := some { line, requester := q, prefetch, entry := (pickEntry q prefetch s).1, waiting, lock, data := lineData u line } } } := rfl
/-- The fill that begins; the queues stay. -/
theorem beginFill_fill (q line : Nat) (prefetch lock : Bool) (waiting : List (Nat × Nat)) (s : State) :
    ((beginFill q line prefetch lock waiting s).fcc.fill.map fun f => (f.line, f.requester, f.prefetch, f.killed, f.data)) =
        some (line, q, prefetch, false, lineData s line) ∧
      (∀ f, (beginFill q line prefetch lock waiting s).fcc.fill = some f → f.line = line ∧ f.requester = q ∧ f.prefetch = prefetch ∧ f.waiting = waiting) ∧
      (beginFill q line prefetch lock waiting s).fcc.waiters = s.fcc.waiters ∧ (beginFill q line prefetch lock waiting s).fcc.prefetches = s.fcc.prefetches := by
  have hgive : Only { fcc := true } s (giveUp (pickEntry q prefetch s).1 (pickEntry q prefetch s).2) := (giveUp_only ..).after (pickEntry_only ..)
  have hdata : lineData (loadRegister line (giveUp (pickEntry q prefetch s).1 (pickEntry q prefetch s).2)) line = lineData s line :=
    (lineData_loadRegister ..).trans (lineData_eq_of_fls hgive.fls hgive.free line)
  have hqueues : cacheQueues (loadRegister line (giveUp (pickEntry q prefetch s).1 (pickEntry q prefetch s).2)) = cacheQueues s := by
    rw [cacheQueues, loadRegister_fcc]
    exact (cacheQueues_giveUp ..).trans (cacheQueues_pickEntry ..)
  rw [beginFill_eq]
  dsimp only
  refine ⟨?_, fun f hf => ?_, congrArg Prod.fst hqueues, congrArg Prod.snd hqueues⟩
  · rw [hdata]
    rfl
  · obtain rfl := Option.some.inj hf
    exact ⟨rfl, rfl, rfl, rfl⟩

theorem busyFaults_fcc (line : Nat) (ws : List (Nat × Nat × Bool × Nat)) (s : State) : (each ws (fun w s => busyFault w.1 line w.2.2.2 s) s).fcc = s.fcc :=
  each_proj State.fcc _ _ _ fun _ _ => busyFault_fcc ..
/-- What each of several steps sends is among what has been sent after them. -/
theorem mem_each_tx {α : Type} {f : α → State → State} {x : Tx} {l : List α} {a : α} (hf : ∀ a s, s.tx <+: (f a s).tx) (ha : a ∈ l)
    (hsent : ∀ s, x ∈ (f a s).tx) (s : State) : x ∈ (each l f s).tx := by
  have hrest (l : List α) (s : State) : s.tx <+: (each l f s).tx := by
    induction l generalizing s with
    | nil => exact List.prefix_refl _
    | cons b l ih => exact (hf b s).trans (ih _)
  induction l generalizing s with
  | nil => cases ha
  | cons b l ih =>
    rw [each_cons]
    rcases List.mem_cons.1 ha with rfl | ha
    · exact (hrest l _).subset (hsent s)
    · exact ih ha _
theorem fetched_mem_busyFaults (line : Nat) {ws : List (Nat × Nat × Bool × Nat)} {w : Nat × Nat × Bool × Nat} (hw : w ∈ ws) (s : State) :
    .fetched w.1 4 0 ∈ (each ws (fun w s => busyFault w.1 line w.2.2.2 s) s).tx := by
  refine mem_each_tx (f := fun (w : Nat × Nat × Bool × Nat) s => busyFault w.1 line w.2.2.2 s) (fun w s => ?_) hw (fun s => ?_) s
  · exact (busyFault_only ..).sent
  · exact fetched_mem_busyFault ..
/-- A ladder that ends well: nothing is sent (R493). -/
theorem fillLadder_good {f : Fill} {steps : List (Bool × Nat)} (h : ladder steps ≠ none) (s : State) :
    (fillLadder f steps s).1 = 0 ∧ (fillLadder f steps s).2.tx = s.tx := by
  obtain ⟨r, hr⟩ := Option.ne_none_iff_exists'.1 h
  unfold fillLadder
  rw [hr]
  cases lineRegion s f.line with
  | none => exact ⟨rfl, rfl⟩
  | some r => exact ⟨rfl, (readDone_only ..).tx⟩
/-- One that ends uncorrectable, of a line of the plan (R492). -/
theorem fillLadder_lost {f : Fill} {steps : List (Bool × Nat)} {s : State} (h : ladder steps = none) (hpage : (lineRegion s f.line).isSome = true) :
    (fillLadder f steps s).1 = 6 := by
  obtain ⟨r, hr⟩ := Option.isSome_iff_exists.1 hpage
  unfold fillLadder
  rw [hr, h]
theorem fillFailed_fcc (line : Nat) (w : Nat × Nat) (s : State) : (fillFailed line w s).fcc = s.fcc := (fillFailed_only ..).fcc
theorem fetched_mem_fillFailed (line : Nat) (w : Nat × Nat) (s : State) : .fetched w.1 6 0 ∈ (fillFailed line w s).tx := by
  have hrest : Only (.but { aon := true, idn := true, fuses := true, clk := true, pwr := true, img := true, nvm := true, bol := true, fcc := true, pending := true, intake := true })
      (fetchAnswer w.1 6 0 s) (fillFailed line w s) := by
    unfold fillFailed
    exact .ite (.each (fun _ _ => (haltReader_only ..).mono) .refl) (.ite (coreTrap_only ..).mono .refl)
  exact hrest.sent.subset (fetched_mem_fetchAnswer ..)
theorem answers_tx (data : BitVec 2048) (ws : List (Nat × Nat)) (s : State) :
    (each ws (fun w s => fetchAnswer w.1 0 data s) s).tx = s.tx ++ ws.map fun w => .fetched w.1 0 data := by
  induction ws generalizing s with
  | nil => exact (List.append_nil _).symm
  | cons w ws ih =>
    rw [each_cons, ih]
    exact (List.append_assoc ..).trans rfl
theorem answers_fcc (data : BitVec 2048) (ws : List (Nat × Nat)) (s : State) : (each ws (fun w s => fetchAnswer w.1 0 data s) s).fcc = s.fcc :=
  each_proj State.fcc _ _ _ fun _ _ => rfl
/-- A fill that has been read goes to its entry, unless its line has been invalidated (R501, R505). -/
def install (f : Fill) (s : State) : State :=
  match f.entry with
  | some e =>
    if f.killed then s
    else modFce s e fun d => { d with
      valid := true, line := f.line, locked := d.locked || f.lock, owner := if d.locked then d.owner else f.requester, prefetched := f.prefetch, data := f.data }
  | none => s
theorem install_fill (f : Fill) (s : State) : (install f s).fcc.fill = s.fcc.fill ∧ (install f s).tx = s.tx := by
  unfold install
  split
  · split <;> exact ⟨rfl, rfl⟩
  · exact ⟨rfl, rfl⟩
theorem install_killed {f : Fill} (h : f.killed = true) (s : State) : install f s = s := by
  unfold install
  split
  · rw [if_pos h]
  · rfl
theorem install_entry {f : Fill} {e : Nat} (he : f.entry = some e) (h : f.killed = false) (s : State) :
    (getFce (install f s) e).valid = true ∧ (getFce (install f s) e).line = f.line ∧ (getFce (install f s) e).data = f.data ∧
      (getFce (install f s) e).prefetched = f.prefetch := by
  have hin : install f s = modFce s e fun d => { d with
      valid := true, line := f.line, locked := d.locked || f.lock, owner := if d.locked then d.owner else f.requester, prefetched := f.prefetch, data := f.data } := by
    unfold install
    rw [he, h]
    rfl
  rw [hin, getFce_modFce]
  exact ⟨rfl, rfl, rfl, rfl⟩
/-- The end of a fill, by what its ladder has shown. -/
def endFill (f : Fill) (steps : List (Bool × Nat)) (s : State) : State :=
  if (fillLadder f steps s).1 ≠ 0 then each f.waiting (fillFailed f.line) (fillLadder f steps s).2
  else install f (each f.waiting (fun w s => fetchAnswer w.1 0 f.data s) (fillLadder f steps s).2)
theorem execFillComplete_some {s : State} {f : Fill} (steps : List (Bool × Nat)) (ha : awake s = true) (hf : s.fcc.fill = some f) :
    execFillComplete steps s = .next (endFill f steps { s with fcc := { s.fcc with fill := none } }) := by
  unfold execFillComplete live
  rw [if_pos ha]
  beta_reduce
  rw [hf]
  rfl

/-- What an invalidation leaves in an entry, by whether it holds one of the lines. -/
theorem invalidated_hit {base lines : Nat} {d : FcEntry} (hv : d.valid = true) (h1 : base ≤ d.line) (h2 : d.line < base + lines) :
    invalidated base lines d = { d with valid := false, prefetched := false } := if_pos (by simp [hv, h1, h2])
theorem invalidated_other {base lines : Nat} {d : FcEntry} (h : ¬ (d.valid = true ∧ base ≤ d.line ∧ d.line < base + lines)) : invalidated base lines d = d :=
  if_neg (by simpa using h)
theorem invalidated_locked (base lines : Nat) (d : FcEntry) : (invalidated base lines d).locked = d.locked := by
  unfold invalidated
  split <;> rfl

/-- Settles O31: look-ups, fills, prefetches, invalidations and locks act on the entries of their lines. -/
theorem fetchCacheServesLines : Obligations.FetchCacheServesLines := by
  unfold Obligations.FetchCacheServesLines
  intro s hawake
  refine ⟨fun q addr access ue steps => ⟨_, if_pos hawake, ?_⟩, ⟨_, if_pos hawake, ?_⟩, fun steps => ?_, fun q => ⟨_, if_pos hawake, ?_⟩,
    fun core addr => ⟨_, if_pos hawake, ?_⟩, fun core base lines => ⟨_, if_pos hawake, ?_⟩, fun core => ⟨_, if_pos hawake, ?_⟩, fun core addr => ⟨_, if_pos hawake, ?_⟩,
    fun core addr => ⟨_, if_pos hawake, ?_⟩, fun core => ⟨_, if_pos hawake, ?_⟩⟩
  · beta_reduce
    intro line
    refine ⟨fun hmay => ?_, fun hmay e he hue => ?_, fun hmay hnone => ?_⟩
    · rw [if_pos (by simp [hmay, line])]
      exact ⟨List.getLast?_concat .., (busReport_only ..).fcc⟩
    · subst hue
      rw [if_neg (by simp [hmay, line])]
      simp only [line] at he
      simp only [he, Bool.false_eq_true, if_false]
      exact lookup_hit ..
    · rw [if_neg (by simp [hmay, line])]
      simp only [line] at hnone
      simp only [hnone]
      obtain ⟨hmiss, hentries, hfill, htx⟩ := counted_miss q line s
      have himg : (seeLine q line (modFcq s q fun r => { r with misses := satInc 16 r.misses })).img = s.img := (seeLine_only ..).img.trans (modFcq_only ..).img
      have hbusy : lineBusy (seeLine q line (modFcq s q fun r => { r with misses := satInc 16 r.misses })) line = lineBusy s line := by
        exact lineBusy_of_only ((seeLine_only ..).after (modFcq_only ..))
      change lineBusy _ (addr.toNat / 256) = lineBusy s (addr.toNat / 256) at hbusy
      simp only [line] at hmiss hentries hfill htx hbusy himg ⊢
      generalize seeLine q (addr.toNat / 256) (modFcq s q fun r => { r with misses := satInc 16 r.misses }) = u at hmiss hentries hfill htx hbusy himg ⊢
      obtain ⟨hkeep, hreqs⟩ := served_keeps q (addr.toNat / 256) access.toNat steps u
      refine ⟨(congrArg FcReq.misses (getFcq_of_reqs hreqs q)).trans hmiss, hkeep.trans hentries, fun hb hq => served_busy (hbusy.trans hb) hq, fun hb hf hq => ?_⟩
      rw [← himg] at hq
      obtain ⟨hwait, hsent⟩ := served_waits (access := access.toNat) (steps := steps) (hbusy.trans hb) (hfill.trans hf) hq
      exact ⟨hwait, hsent.trans htx⟩
  · beta_reduce
    intro next
    refine ⟨fun hn => ?_, fun w hw hfill => ?_⟩
    · rcases hn with hfill | hnone
      · obtain ⟨f, hf⟩ := Option.ne_none_iff_exists'.1 hfill
        rw [hf]
      · simp only [next] at hnone
        rw [hnone]
        cases s.fcc.fill <;> rfl
    · split
      · next q line lock access _ hfound =>
        obtain rfl : (q, line, lock, access) = w := Option.some.inj (hfound.symm.trans hw)
        refine ⟨fun hfree => ?_, fun hbusy => ?_⟩
        · rw [if_neg (by simp [hfree])]
          obtain ⟨hbegun, -, hwaiters, -⟩ := beginFill_fill q line false (lock || (s.fcc.waiters.filter fun w => w.2.1 = line).any (·.2.2.1))
            (((s.fcc.waiters.filter fun w => w.2.1 = line).filter fun w => !w.2.2.1).map fun w => (w.1, w.2.2.2))
            { s with fcc := { s.fcc with waiters := s.fcc.waiters.filter fun w => w.2.1 ≠ line } }
          exact ⟨hwaiters, hbegun⟩
        · rw [if_pos hbusy, busyFaults_fcc]
          have hq : q ≠ 4 := fun hq => by simpa [hq, hbusy] using List.find?_some hfound
          have hmem : (q, line, lock, access) ∈ s.fcc.waiters := List.mem_of_find?_eq_some hfound
          refine ⟨hfill, List.filter_congr fun x hx => ?_, ?_⟩
          · simp [hx, Bool.or_comm]
          · exact fetched_mem_busyFaults line (w := (q, line, lock, access)) (by simp [hmem, hq]) _
      · next hno => exact (hno _ _ _ _ hfill hw).elim
  · cases hf : s.fcc.fill with
    | none =>
      refine ⟨s, ?_, fun _ => rfl, fun f h => (nomatch h)⟩
      show execFillComplete steps s = _
      unfold execFillComplete live
      rw [if_pos hawake]
      beta_reduce
      rw [hf]
    | some f =>
      refine ⟨_, execFillComplete_some steps hawake hf, fun h => (nomatch h), fun f' h => ?_⟩
      obtain rfl := Option.some.inj h
      generalize hu : ({ s with fcc := { s.fcc with fill := none } } : State) = u
      have hufill : u.fcc.fill = none := by rw [← hu]
      have huentries : u.fcc.entries = s.fcc.entries := by rw [← hu]
      have hutx : u.tx = s.tx := by rw [← hu]
      have hupage : lineRegion u = lineRegion s := by
        rw [← hu]
        rfl
      have hladder : (fillLadder f steps u).2.fcc = u.fcc := (fillLadder_only ..).fcc
      have hfailed (v : State) : (each f.waiting (fillFailed f.line) v).fcc = v.fcc := each_proj State.fcc _ _ _ fun _ _ => fillFailed_fcc ..
      have hinstalled (v : State) : (each f.waiting (fun w s => fetchAnswer w.1 0 f.data s) v).fcc = v.fcc := answers_fcc ..
      refine ⟨?_, fun hgood => ?_, fun hbad hpage => ?_, fun hkilled => ?_, fun e he hlive hgood => ?_⟩
      all_goals unfold endFill
      · split
        · rw [hfailed, hladder, hufill]
        · rw [(install_fill ..).1, hinstalled, hladder, hufill]
      · obtain ⟨hok, hsent⟩ := fillLadder_good (f := f) hgood u
        rw [if_neg (by simp [hok]), (install_fill ..).2, answers_tx, hsent, hutx]
      · have hlost : (fillLadder f steps u).1 = 6 := fillLadder_lost (not_not.1 hbad) (hupage ▸ hpage)
        rw [if_pos (by simp [hlost]), hfailed, hladder]
        refine ⟨fun w hw => ?_, huentries⟩
        exact mem_each_tx (f := fillFailed f.line) (fun w s => (fillFailed_only f.line w s).sent) hw (fun s => fetched_mem_fillFailed f.line w s) _
      · split
        · rw [hfailed, hladder, huentries]
        · rw [install_killed hkilled, hinstalled, hladder, huentries]
      · obtain ⟨hok, -⟩ := fillLadder_good (f := f) hgood u
        rw [if_neg (by simp [hok])]
        exact install_entry he hlive _
  · beta_reduce
    intro next
    refine ⟨fun hn => ?_, fun p hp hfill hwait => ?_⟩
    · rcases hn with hfill | hwait | hnone
      · exact if_pos (by simp [Option.isSome_iff_ne_none.2 hfill])
      · exact if_pos (by simp [hwait])
      · simp only [next] at hnone
        simp only [hnone, ite_self]
    · rw [if_neg (by simp [hfill, hwait])]
      split
      · next hnone => exact nomatch hnone.symm.trans hp
      · next p1 line hfound =>
        obtain rfl : (p1, line) = p := Option.some.inj (hfound.symm.trans hp)
        obtain rfl : p1 = q.val := by simpa using List.find?_some hfound
        dsimp only
        split
        · exact ⟨rfl, rfl, fun f hf => (nomatch hfill.symm.trans hf)⟩
        · obtain ⟨-, hbegun, -, hprefetches⟩ := beginFill_fill q.val line true false [] { s with fcc := { s.fcc with prefetches := s.fcc.prefetches.erase (q.val, line) } }
          exact ⟨hprefetches, (beginFill_only ..).tx, hbegun⟩
  · intro e he d
    rw [getFce_invalidate _ _ _ he]
    split
    · next h =>
      obtain ⟨hv, hline⟩ := h
      rw [invalidated_hit (d := getFce s e) hv hline.ge (Nat.lt_succ_of_le hline.le)]
      exact ⟨rfl, rfl, rfl⟩
    · next h => exact invalidated_other fun ⟨hv, h1, h2⟩ => h ⟨hv, Nat.le_antisymm (Nat.le_of_lt_succ h2) h1⟩
  · beta_reduce
    intro legal
    refine ⟨fun hill => if_neg (by simpa [legal] using hill), fun hl e he => ?_⟩
    have hrun : (decide (1 ≤ lines) && decide (lines ≤ 65536)) = true := by simpa [legal] using hl
    rw [if_pos hrun, getFce_invalidate _ _ _ he]
    dsimp only
    split
    · next h =>
      obtain ⟨hv, h1, h2⟩ := h
      rw [invalidated_hit (d := getFce s e) hv h1 h2]
      exact ⟨rfl, rfl⟩
    · next h => exact invalidated_other h
  · intro e he hline
    rw [getFce_invalidate _ _ _ he, invalidated_locked]
    refine ⟨?_, rfl⟩
    by_cases hv : (getFce s e).valid = true
    · rw [invalidated_hit hv (Nat.zero_le _) (by omega)]
    · rw [invalidated_other fun h => hv h.1]
      exact Bool.eq_false_iff.2 hv
  · beta_reduce
    intro line full
    have hfull : (decide (maskSize s core.val < 2 * (lockedFor s core.val + 1)) || decide (16 ≤ lockedAll s)) = true ↔ full := by simp [full]
    refine ⟨fun e he hl hm hroom => ?_, fun e he hl hno => ?_, fun hnone hno => ?_, fun hnone hroom hmay hfill => ?_⟩
    · simp only [line] at he
      simp only [he, hl]
      rw [if_neg (by simp), if_neg (by simpa [hm, full] using hroom)]
      exact getFce_modFce ..
    · simp only [line] at he
      simp only [he, hl]
      rw [if_neg (by simp), if_pos (hno.elim (fun hno => by simp [hno]) fun hno => by simp [hfull.2 hno])]
      exact ⟨rfl, rfl⟩
    · simp only [line] at hnone hno
      simp only [hnone]
      rw [if_pos (hno.elim (fun hno => by simp [hfull.2 hno]) fun hno => by simp [hno])]
      exact ⟨rfl, rfl⟩
    · simp only [line] at hnone hmay
      simp only [hnone]
      rw [if_neg (by simpa [hmay, full] using hroom), joinFill_none hfill]
      exact List.mem_append_right _ (List.mem_singleton_self _)
  · intro e he d
    exact (getFce_unlock (p := fun d => d.locked && d.owner = core.val && d.line = addr.toNat / 256) he s).trans (by simp [d, and_assoc])
  · intro e he d
    exact (getFce_unlock (p := fun d => d.locked && d.owner = core.val) he s).trans (by simp [d])

end Sys2Proof.Machine
end

section
/-! The state of a capsule that is taken and executed, and its completion record. -/

namespace Sys2Proof.Machine
set_option Elab.async false

-- The state of a capsule that the part takes and executes.

theorem cmdOf_of_only {m : Units} {s t : State} (arr : Nat) (h : Only m s t) (hm : m.hop = false := by rfl) : cmdOf t arr = cmdOf s arr := by
  unfold cmdOf
  rw [h.hop hm]
theorem getHopPort_of_only {m : Units} {s t : State} (p : Nat) (h : Only m s t) (hm : m.hop = false := by rfl) : getHopPort t p = getHopPort s p := by
  unfold getHopPort
  rw [h.hop hm]
/-- The command of a capsule that has just been taken. -/
def newCmd (s : State) (p : Port) (c : Capsule) (x : Extra) : Cmd :=
  { port := p.num, arrival := s.hop.nextArrival, cap := c, phase := .running, admitted := true, at_ := now s, needMirror := s.ptn.synced, verdict := x.verdict }
theorem taken_only (s : State) (p : Port) (c : Capsule) (x : Extra) : Only { links := true, injs := true, hop := true, tx := true } s (taken s p c x) :=
  (mirror_only ..).after (.upd (.upd .refl))
theorem taken_hop (s : State) (p : Port) (c : Capsule) (x : Extra) :
    (taken s p c x).hop = { s.hop with nextArrival := (s.hop.nextArrival + 1) % 2 ^ 40, cmds := s.hop.cmds ++ [newCmd s p c x] } := (mirror_only ..).hop
theorem getHopPort_taken (s : State) (p : Port) (c : Capsule) (x : Extra) (k : Nat) : getHopPort (taken s p c x) k = getHopPort s k := by
  unfold getHopPort
  rw [taken_hop]
theorem cmdOf_taken {s : State} {p : Port} {c : Capsule} (h : Arrives s p c) (x : Extra) : cmdOf (taken s p c x) s.hop.nextArrival = some (newCmd s p c x) := by
  obtain ⟨-, -, -, -, hfresh⟩ := h
  unfold cmdOf
  rw [taken_hop]
  dsimp only
  rw [List.find?_append, List.find?_eq_none.2 (by simpa using hfresh)]
  simp [newCmd]
/-- An admitted capsule that the device state lets execute begins (R370, R395). -/
theorem arrive_executes {s : State} {p : Port} {c : Capsule} (h : Executes s p c) (x : Extra) : arrive p c x s = startCommand s.hop.nextArrival p c x (taken s p c x) := by
  obtain ⟨⟨-, htakes, htag, htags, -⟩, hfault, hrule⟩ := h
  have hfault' : admissionFault { s with hop := { s.hop with nextArrival := (s.hop.nextArrival + 1) % 2 ^ 40 } } p c = none := hfault
  have hrule' : stateRule { s with hop := { s.hop with nextArrival := (s.hop.nextArrival + 1) % 2 ^ 40 } } c.opcode.toNat = .execute := hrule
  have htag' : cmdOfTag { s with hop := { s.hop with nextArrival := (s.hop.nextArrival + 1) % 2 ^ 40 } } p.num c.tag = none := htag
  have htags' : tagsInUse { s with hop := { s.hop with nextArrival := (s.hop.nextArrival + 1) % 2 ^ 40 } } p.num < 8192 := htags
  unfold arrive
  rw [if_neg (by simp [htakes])]
  dsimp only
  rw [htag', hfault', hrule', if_neg (by simpa using htags')]
  rfl
theorem capsule_isOp {c : Capsule} {op : BitVec 8} (h : c.isOp op = true) : { c with opcode := op } = c := by
  have hop : c.opcode = op := by simpa [Capsule.isOp] using h
  rw [← hop]
theorem arriveAs_executes {s : State} {p : Port} {c : Capsule} {op : BitVec 8} (hop : c.isOp op = true) (h : Executes s p c) (x : Extra) :
    arriveAs op p c x s = .next (startCommand s.hop.nextArrival p c x (taken s p c x)) := by
  obtain ⟨hawake, -⟩ := h.1
  unfold arriveAs
  rw [live, if_pos hawake, capsule_isOp hop, arrive_executes h]
/-- A row of one sub-operation takes a capsule that names it as it is. -/
theorem arriveArg_executes {s : State} {p : Port} {c : Capsule} {op : BitVec 8} {subs : List Nat} (hsub : subs.contains c.sub = true) (hop : c.isOp op = true)
    (h : Executes s p c) (x : Extra) : arriveArg op subs none p c x s = .next (startCommand s.hop.nextArrival p c x (taken s p c x)) := by
  have harg : BitVec.ofNat 32 c.arg32.toNat = c.arg32 := BitVec.ofNat_toNat ..
  unfold arriveArg
  dsimp only
  rw [show (if subs.contains (c.arg32.toNat % 4) then c.arg32.toNat else c.arg32.toNat / 4 * 4 + subs.headD 0) = c.arg32.toNat from if_pos hsub, harg]
  exact arriveAs_executes hop h x
/-- Every capsule row answers a next state. -/
theorem Completes.of_executes {i : Instr} {s : State} {p : Port} {c : Capsule} {P : State → Prop} (hnext : ∃ t, exec i s = .next t)
    (h : Executes s p c → ∀ t, exec i s = .next t → P t) : Completes i s fun t => Executes s p c → P t := by
  obtain ⟨t, ht⟩ := hnext
  exact ⟨t, ht, fun hx => h hx t ht⟩

-- Completions (R367, R386).

theorem cmdOf_modCmd {s : State} {arr : Nat} {d : Cmd} {f : Cmd → Cmd} (hf : ∀ c, (f c).arrival = c.arrival) (h : cmdOf s arr = some d) :
    cmdOf (modCmd s arr f) arr = some (f d) := by
  have hkey (c : Cmd) : decide ((if c.arrival = arr then f c else c).arrival = arr) = decide (c.arrival = arr) := by
    split
    · rw [hf]
    · rfl
  unfold cmdOf at h ⊢
  have harr : d.arrival = arr := by simpa using List.find?_some h
  show List.find? _ (List.map _ _) = _
  rw [List.find?_map]
  simp only [Function.comp_def, hkey, h, Option.map_some, if_pos harr]
/-- A completion record stands in its port's queue. -/
def Recorded (t : State) (p : Nat) (r : CplRec) : Prop := .inl r ∈ (getHopPort t p).cpls
theorem Recorded.of_only {m : Units} {s t : State} {p : Nat} {r : CplRec} (h : Recorded s p r) (ho : Only m s t) (hm : m.hop = false := by rfl) : Recorded t p r := by
  unfold Recorded
  rwa [getHopPort_of_only p ho hm]
theorem Recorded.modHopPort {s : State} {p k : Nat} {r : CplRec} {f : HopPort → HopPort} (h : Recorded s p r) (hf : ∀ h, .inl r ∈ h.cpls → .inl r ∈ (f h).cpls) :
    Recorded (modHopPort s k f) p r := by
  unfold Recorded at h ⊢
  by_cases hk : p = k
  · subst hk
    rw [getHopPort_modHopPort]
    exact hf _ h
  · rwa [getHopPort_modHopPort_other _ _ hk]
theorem Recorded.modCmd {s : State} {p arr : Nat} {r : CplRec} {f : Cmd → Cmd} (h : Recorded s p r) : Recorded (modCmd s arr f) p r := h
theorem Recorded.issueRec {s : State} {p k : Nat} {r q : CplRec} (h : Recorded s p r) : Recorded (issueRec k q s) p r := by
  unfold Machine.issueRec
  refine .modHopPort ?_ fun _ hr => List.mem_append_left _ hr
  split
  · exact h.of_only (mirror_only ..)
  · exact h
theorem recorded_issueRec (p : Nat) (r : CplRec) (s : State) : Recorded (issueRec p r s) p r := by
  unfold Recorded issueRec
  rw [getHopPort_modHopPort]
  exact List.mem_append_right _ (List.mem_singleton_self _)
theorem Recorded.dropGrants {s : State} {p k : Nat} {tag : BitVec 16} {r : CplRec} (h : Recorded s p r) : Recorded (dropGrants k tag s) p r :=
  h.modHopPort fun _ hr => List.mem_filter.2 ⟨hr, rfl⟩
/-- The record of a command that ends with `status` and `info` (R367, R393). -/
def endRecord (s : State) (d : Cmd) (arr status info : Nat) : CplRec :=
  { tag := d.cap.tag, status := BitVec.ofNat 8 (if status = 0 && deferredPending s d.port then 1 else status), opcode := d.cap.opcode,
    arrival := BitVec.ofNat 40 arr, info := BitVec.ofNat 48 info }
theorem Recorded.completeOne {s : State} {p arr status info : Nat} {r : CplRec} (h : Recorded s p r) : Recorded (completeOne arr status info s) p r := by
  unfold Machine.completeOne
  split
  · exact h
  split
  · exact h
  dsimp only
  refine .issueRec (.dropGrants (.of_only (.of_only ?_ (unpin_only ..)) (releaseFrames_only _)))
  exact Recorded.of_only (m := { mrc := true }) h.modCmd (.ite .refl (freeSlots_only ..))
theorem recorded_completeOne {s : State} {arr : Nat} {d : Cmd} (status info : Nat) (h : cmdOf s arr = some d) (hd : d.phase ≠ .issued) :
    Recorded (completeOne arr status info s) d.port (endRecord s d arr status info) := by
  unfold completeOne
  rw [h]
  dsimp only
  rw [if_neg hd]
  exact recorded_issueRec ..
theorem Recorded.completeEach {s : State} {p : Nat} {r : CplRec} (h : Recorded s p r) (l : List (Nat × Nat)) :
    Recorded (each l (fun a s => Machine.completeOne a.1 0x31 a.2 s) s) p r := by
  induction l generalizing s with
  | nil => exact h
  | cons a l ih => exact ih h.completeOne
theorem Recorded.complete {s : State} {p arr status info : Nat} {r : CplRec} (h : Recorded s p r) : Recorded (complete arr status info s) p r := by
  unfold Machine.complete
  split
  · exact h
  · exact h.completeOne.completeEach _
theorem recorded_complete {s : State} {arr : Nat} {d : Cmd} (status info : Nat) (h : cmdOf s arr = some d) (hd : d.phase ≠ .issued) :
    Recorded (complete arr status info s) d.port (endRecord s d arr status info) := by
  unfold complete
  rw [h]
  exact (recorded_completeOne status info h hd).completeEach _
/-- The command of capsule `c` completes. -/
theorem answered_complete {s u : State} {p : Port} {c : Capsule} {d : Cmd} (status info : Nat) (h : cmdOf u s.hop.nextArrival = some d) (hcap : d.cap = c) (hport : d.port = p.num)
    (hd : d.phase ≠ .issued) :
    Answered s (complete s.hop.nextArrival status info u) p c (if status = 0 && deferredPending u p.num then 1 else status) info := by
  have hrec := recorded_complete status info h hd
  unfold endRecord at hrec
  rw [hcap, hport] at hrec
  exact hrec
/-- A command that ends with GOOD, on a port whose deferred records are those of the beginning. -/
theorem answered_good {s u : State} {p : Port} {c : Capsule} {d : Cmd} (info : Nat) (h : cmdOf u s.hop.nextArrival = some d) (hcap : d.cap = c) (hport : d.port = p.num)
    (hd : d.phase ≠ .issued) (hports : getHopPort u p.num = getHopPort s p.num) : Answered s (complete s.hop.nextArrival 0 info u) p c (goodStatus s p) info := by
  have hans := answered_complete 0 info h hcap hport hd
  have hpending : deferredPending u p.num = deferredPending s p.num := by
    unfold deferredPending
    rw [hports]
  rw [hpending] at hans
  simpa [goodStatus] using hans
/-- The command goes on to return blocks. -/
theorem replies_replyWith {s u : State} {p : Port} {c : Capsule} {d : Cmd} (blocks : List Block) (info : Nat) (h : cmdOf u s.hop.nextArrival = some d) (hcap : d.cap = c)
    (hport : d.port = p.num) (hadm : d.admitted = true) : Replies s (replyWith s.hop.nextArrival blocks info u) p c blocks info :=
  ⟨_, ⟨cmdOf_modCmd (fun _ => rfl) h, hcap, hport, hadm, rfl⟩, rfl, rfl⟩

end Sys2Proof.Machine
end

section
/-! The links and the unlocks beside a completion, and what a response makes of an unlock. -/

namespace Sys2Proof.Machine
set_option Elab.async false

-- The links of the ports while something goes to the partner.

theorem getLink_of_only {m : Units} {s t : State} (l : Nat) (h : Only m s t) (hm : m.links = false := by rfl) : getLink t l = getLink s l := by
  unfold getLink
  rw [h.links hm]
theorem getLink_sendNumbered_other {l j : Nat} (body : TxBody) (s : State) (h : j ≠ l) : getLink (sendNumbered l body s) j = getLink s j := by
  unfold sendNumbered putFrame frameSent queueOut
  dsimp only
  rw [getLink_modLink_other _ _ h, getLink_modLink_other _ _ h, getLink_of_only j (send_only ..), getLink_modLink_other _ _ h, getLink_of_only j (injectTx_only ..)]
theorem getLink_mirror_other {j : Nat} (r : CtlRec) (s : State) (h : j ≠ 2) : getLink (mirror r s) j = getLink s j := by
  unfold mirror ptnSend
  split
  · split
    · exact getLink_sendNumbered_other _ _ h
    · exact getLink_modLink_other _ _ h
  · rfl
theorem port_num_ne_two (p : Port) : p.num ≠ 2 := by cases p <;> decide
theorem getLink_taken {s : State} {p : Port} {c : Capsule} {x : Extra} {j : Nat} (h : j ≠ 2) : getLink (taken s p c x) j = getLink s j := getLink_mirror_other _ _ h

-- The unlock of each path.

/-- The unlocks of the three paths (R389, R657). -/
def unlocksOf (s : State) : Unlock × Unlock × Unlock := (s.diag.unlockA, s.diag.unlockB, s.diag.unlockJ)
theorem unlocksOf_of_only {m : Units} {s t : State} (h : Only m s t) (hm : m.diag = false := by rfl) : unlocksOf t = unlocksOf s := by
  unfold unlocksOf
  rw [h.diag hm]
theorem pathUnlock_of_unlocks {s t : State} (h : unlocksOf t = unlocksOf s) (path : Path) : pathUnlock t path = pathUnlock s path := by
  simp only [unlocksOf, Prod.mk.injEq] at h
  obtain ⟨hA, hB, hJ⟩ := h
  cases path with
  | port p => simp only [pathUnlock, portUnlock, hA, hB]
  | jtag => exact hJ
theorem unlocksOf_setFrame (s : State) (f : Nat) (b : Block) : unlocksOf (setFrame s f b) = unlocksOf s := rfl
theorem unlocksOf_releaseFrames (s : State) : unlocksOf (releaseFrames s) = unlocksOf s := by
  unfold releaseFrames
  rw [unlocksOf_of_only (pruneCommitted_only _)]
  refine each_proj unlocksOf _ _ _ fun fe s => ?_
  dsimp only
  split
  · split
    · rfl
    · exact unlocksOf_setFrame ..
  · rfl
theorem unlocksOf_completeOne (arr status info : Nat) (s : State) : unlocksOf (completeOne arr status info s) = unlocksOf s := by
  unfold completeOne
  split
  · rfl
  split
  · rfl
  rw [unlocksOf_of_only (issueRec_only ..), unlocksOf_of_only (dropGrants_only ..), unlocksOf_releaseFrames, unlocksOf_of_only (unpin_only ..)]
  exact unlocksOf_of_only (m := { mrc := true, hop := true }) (s := s) (.ite (modCmd_only ..).mono ((freeSlots_only ..).after (modCmd_only ..).mono))
theorem unlocksOf_complete (arr status info : Nat) (s : State) : unlocksOf (complete arr status info s) = unlocksOf s := by
  unfold complete
  split
  · rfl
  · exact (each_proj unlocksOf _ _ _ fun _ _ => unlocksOf_completeOne ..).trans (unlocksOf_completeOne ..)
theorem pathUnlock_setUnlock (path : Path) (u : Unlock) (s : State) : pathUnlock (setUnlock path u s) path = u := by
  rcases path with p | _
  · cases p <;> rfl
  · rfl

-- What a step of the unlock rests on, in the state of a capsule that has just been taken.

theorem pathUnlock_taken (s : State) (p : Port) (c : Capsule) (x : Extra) (path : Path) : pathUnlock (taken s p c x) path = pathUnlock s path :=
  pathUnlock_of_unlocks (unlocksOf_of_only (taken_only ..)) path
theorem refusing_taken (s : State) (p : Port) (c : Capsule) (x : Extra) (path : Path) : refusing (taken s p c x) path = refusing s path := by
  unfold refusing
  rw [pathUnlock_taken]
theorem now_of_only {m : Units} {s t : State} (h : Only m s t) (hm : m.aon = false := by rfl) : now t = now s := by
  unfold now
  rw [h.aon hm]
theorem refusalLeft_eq {s t : State} {path : Path} (hp : pathUnlock t path = pathUnlock s path) (hn : now t = now s) : refusalLeft t path = refusalLeft s path := by
  unfold refusalLeft
  rw [hp, hn]
theorem refusalLeft_taken (s : State) (p : Port) (c : Capsule) (x : Extra) (path : Path) : refusalLeft (taken s p c x) path = refusalLeft s path :=
  refusalLeft_eq (pathUnlock_taken ..) (now_of_only (taken_only ..))
theorem responseOk_taken (s : State) (p q : Port) (c : Capsule) (x : Extra) (challenge response : BitVec 256) :
    responseOk (taken s p c x) (.port q) challenge response = responseOk s (.port q) challenge response := by
  have htail : unlockTail (taken s p c x) (.port q) = unlockTail s (.port q) := by
    unfold unlockTail
    dsimp only
    rw [getLink_taken (port_num_ne_two q)]
  unfold responseOk
  rw [pathUnlock_taken, htail]

/-- What a response makes of its path's unlock (R389). -/
def Responds (s : State) (path : Path) (r : BitVec 256) (t : State) : Prop :=
  let u := pathUnlock s path
  (u.challenge = none → pathUnlock t path = u) ∧
  ∀ x, u.challenge = some x →
    (responseOk s path x r = true → pathUnlock t path = { u with challenge := none, wrong := 0, until_ := some (now s + unlockTime s.img * oneSec) }) ∧
    (responseOk s path x r = false → (pathUnlock t path).challenge = none ∧ (pathUnlock t path).until_ = u.until_ ∧ t.idn.unlockFail = satInc 16 s.idn.unlockFail ∧
      (2 ≤ u.wrong → (pathUnlock t path).refused = some (now s) ∧ (pathUnlock t path).wrong = 0) ∧
      (u.wrong < 2 → (pathUnlock t path).refused = u.refused ∧ (pathUnlock t path).wrong = u.wrong + 1))
theorem setUnlock_idn (path : Path) (u : Unlock) (s : State) : (setUnlock path u s).idn = s.idn := by
  rcases path with p | _
  · cases p <;> rfl
  · rfl
theorem takeResponse_responds (path : Path) (r : BitVec 256) (s : State) : Responds s path r (takeResponse path r s).2 := by
  unfold Responds takeResponse
  dsimp only
  refine ⟨fun hnone => ?_, fun x hx => ⟨fun hok => ?_, fun hbad => ?_⟩⟩
  · rw [hnone]
  · rw [hx]
    dsimp only
    rw [if_pos hok, pathUnlock_setUnlock]
  · rw [hx]
    dsimp only
    rw [if_neg (by simp [hbad])]
    dsimp only
    rw [pathUnlock_setUnlock, setUnlock_idn]
    split
    · next hw => exact ⟨rfl, rfl, rfl, fun _ => ⟨rfl, rfl⟩, fun h => (Nat.not_le.2 h hw).elim⟩
    · next hw => exact ⟨rfl, rfl, rfl, fun h => (hw h).elim, fun _ => ⟨rfl, rfl⟩⟩
theorem takeResponse_verdict (path : Path) (r : BitVec 256) (s : State) :
    (takeResponse path r s).1 = (pathUnlock s path).challenge.any fun x => responseOk s path x r := by
  unfold takeResponse
  dsimp only
  split
  · next hnone => rw [hnone]; rfl
  · next x hx =>
    rw [hx]
    split
    · next hok => exact hok.symm
    · next hbad => exact (Bool.eq_false_iff.2 hbad).symm

theorem Responds.of_taken {s t : State} {p q : Port} {c : Capsule} {x : Extra} {r : BitVec 256} (h : Responds (taken s p c x) (.port q) r t) : Responds s (.port q) r t := by
  have hnow : now (taken s p c x) = now s := now_of_only (taken_only ..)
  have himg : (taken s p c x).img = s.img := (taken_only ..).img
  have hidn : (taken s p c x).idn = s.idn := (taken_only ..).idn
  unfold Responds at h ⊢
  simpa only [pathUnlock_taken, responseOk_taken, hnow, himg, hidn] using h
theorem Responds.of_unlocks {s t u : State} {path : Path} {r : BitVec 256} (h : Responds s path r t) (hu : unlocksOf u = unlocksOf t) (hi : u.idn = t.idn) : Responds s path r u := by
  unfold Responds at h ⊢
  rwa [pathUnlock_of_unlocks hu, hi]

/-- What SERVICE_UNLOCK makes of an unlock while its path is refused (R389). -/
theorem doUnlock_refused {s : State} {p : Port} {c : Capsule} (x : Extra) (h : Arrives s p c) (hr : refusing s (.port p) = true) :
    let t := doUnlock s.hop.nextArrival p c (taken s p c x)
    Answered s t p c 0x60 (refusalLeft s (.port p)) ∧ unlocksOf t = unlocksOf s := by
  intro t
  have ht : t = complete s.hop.nextArrival 0x60 (refusalLeft s (.port p)) (taken s p c x) := by
    unfold t doUnlock
    dsimp only
    rw [if_pos (by rw [refusing_taken, hr]), refusalLeft_taken]
  rw [ht, unlocksOf_complete, unlocksOf_of_only (taken_only ..)]
  exact ⟨answered_complete 0x60 _ (cmdOf_taken h x) rfl rfl nofun, rfl⟩

end Sys2Proof.Machine
end

section
/-! The unlock by challenge (O42). -/

namespace Sys2Proof.Machine
set_option Elab.async false

theorem newChallenge_path (path : Path) (s : State) :
    pathUnlock (newChallenge path s) path = { pathUnlock s path with challenge := some (freeVal s), key := unlockKey s } := by
  have hfree (t : State) : pathUnlock (nextFree t) path = pathUnlock t path := pathUnlock_of_unlocks (unlocksOf_of_only (nextFree_only _)) path
  unfold newChallenge
  rw [hfree, pathUnlock_setUnlock]
theorem newChallenge_free (path : Path) (s : State) : (newChallenge path s).free ≠ s.free := by
  have hset : (setUnlock path { pathUnlock s path with challenge := some (freeVal s), key := unlockKey s } s).free = s.free := (setUnlock_only ..).free
  show (setUnlock path { pathUnlock s path with challenge := some (freeVal s), key := unlockKey s } s).free + 1 ≠ s.free
  omega
theorem unlockKey_taken (s : State) (p : Port) (c : Capsule) (x : Extra) : unlockKey (taken s p c x) = unlockKey s := by
  unfold unlockKey
  rw [(taken_only ..).fuses]
theorem unlocksOf_replyWith (arr : Nat) (blocks : List Block) (info : Nat) (s : State) : unlocksOf (replyWith arr blocks info s) = unlocksOf s := rfl

/-- STEP 0: a fresh challenge is returned (R389). -/
theorem doUnlock_challenge {s : State} {p : Port} {c : Capsule} (x : Extra) (h : Arrives s p c) (hr : refusing s (.port p) = false) (hstep : c.sub = 0) :
    let t := doUnlock s.hop.nextArrival p c (taken s p c x)
    pathUnlock t (.port p) = { pathUnlock s (.port p) with challenge := (pathUnlock t (.port p)).challenge, key := unlockKey s } ∧
      (pathUnlock t (.port p)).challenge.isSome = true ∧ t.free ≠ s.free ∧ ∀ x, (pathUnlock t (.port p)).challenge = some x → Replies s t p c [x.setWidth 32768] 0 := by
  intro t
  have ht : t = replyWith s.hop.nextArrival [((pathUnlock (newChallenge (.port p) (taken s p c x)) (.port p)).challenge.getD 0).setWidth 32768] 0
      (newChallenge (.port p) (taken s p c x)) := by
    unfold t doUnlock
    unfold Capsule.sub at hstep
    dsimp only
    rw [if_neg (by rw [refusing_taken, hr]; decide), if_pos hstep]
  have hpath : pathUnlock t (.port p) = { pathUnlock s (.port p) with challenge := some (freeVal (taken s p c x)), key := unlockKey s } := by
    rw [ht, pathUnlock_of_unlocks (unlocksOf_replyWith ..), newChallenge_path, pathUnlock_taken, unlockKey_taken]
  have hfree : t.free ≠ s.free := by
    rw [ht]
    exact fun heq => newChallenge_free (.port p) (taken s p c x) (heq.trans (taken_only ..).free.symm)
  rw [hpath]
  refine ⟨rfl, rfl, hfree, fun y hy => ?_⟩
  obtain rfl : freeVal (taken s p c x) = y := Option.some.inj hy
  have hcmd : cmdOf (newChallenge (.port p) (taken s p c x)) s.hop.nextArrival = some (newCmd s p c x) := by
    rw [cmdOf_of_only _ (newChallenge_only ..), cmdOf_taken h]
  rw [ht, newChallenge_path]
  exact replies_replyWith _ 0 hcmd rfl rfl rfl
/-- STEP 1: the response is judged, and answered by what it is (R389). -/
theorem doUnlock_response {s : State} {p : Port} {c : Capsule} (x : Extra) (h : Arrives s p c) (hr : refusing s (.port p) = false) (hstep : c.sub = 1) :
    let t := doUnlock s.hop.nextArrival p c (taken s p c x)
    let ok := (pathUnlock s (.port p)).challenge.any fun x => responseOk s (.port p) x c.argx
    Responds s (.port p) c.argx t ∧ (ok = true → Answered s t p c (goodStatus s p) 0) ∧ (ok = false → Answered s t p c 0x60 (refusalLeft t (.port p))) := by
  intro t ok
  obtain ⟨v, hv⟩ : ∃ v, v = (takeResponse (.port p) c.argx (taken s p c x)).2 := ⟨_, rfl⟩
  have hverdict : (takeResponse (.port p) c.argx (taken s p c x)).1 = ok := by
    rw [takeResponse_verdict]
    simp only [pathUnlock_taken, responseOk_taken, ok]
  have hresponds : Responds s (.port p) c.argx v := .of_taken (hv ▸ takeResponse_responds ..)
  have hcmd : cmdOf v s.hop.nextArrival = some (newCmd s p c x) := by
    rw [hv, cmdOf_of_only _ (takeResponse_only ..), cmdOf_taken h]
  have hport : getHopPort v p.num = getHopPort s p.num := by
    rw [hv, getHopPort_of_only _ (takeResponse_only ..), getHopPort_taken]
  have ht : t = if ok then complete s.hop.nextArrival 0 0 v else complete s.hop.nextArrival 0x60 (refusalLeft v (.port p)) v := by
    unfold t doUnlock
    unfold Capsule.sub at hstep
    dsimp only
    rw [if_neg (by rw [refusing_taken, hr]; decide), if_neg (by omega), if_pos hstep]
    have hpair : takeResponse (.port p) c.argx (taken s p c x) = (ok, v) := by rw [hv, ← hverdict]
    rw [hpair]
    cases ok <;> rfl
  cases hok : ok with
  | true =>
    rw [ht, hok, if_pos rfl]
    exact ⟨hresponds.of_unlocks (unlocksOf_complete ..) (complete_only ..).idn, fun _ => answered_good 0 hcmd rfl rfl nofun hport, nofun⟩
  | false =>
    rw [ht, hok, if_neg nofun, refusalLeft_eq (pathUnlock_of_unlocks (unlocksOf_complete ..) _) (now_of_only (complete_only ..))]
    exact ⟨hresponds.of_unlocks (unlocksOf_complete ..) (complete_only ..).idn, nofun, fun _ => answered_complete 0x60 _ hcmd rfl rfl nofun⟩
/-- STEP 2 locks the path (R389). -/
theorem doUnlock_lock {s : State} {p : Port} {c : Capsule} (x : Extra) (h : Arrives s p c) (hr : refusing s (.port p) = false) (hstep : c.sub = 2) :
    let t := doUnlock s.hop.nextArrival p c (taken s p c x)
    pathUnlock t (.port p) = { pathUnlock s (.port p) with until_ := none } ∧ Answered s t p c (goodStatus s p) 0 := by
  intro t
  have ht : t = complete s.hop.nextArrival 0 0 (endUnlock (.port p) (taken s p c x)) := by
    unfold t doUnlock
    unfold Capsule.sub at hstep
    dsimp only
    rw [if_neg (by rw [refusing_taken, hr]; decide), if_neg (by omega), if_neg (by omega)]
  have hcmd : cmdOf (endUnlock (.port p) (taken s p c x)) s.hop.nextArrival = some (newCmd s p c x) := by
    rw [cmdOf_of_only _ (endUnlock_only ..), cmdOf_taken h]
  have hport : getHopPort (endUnlock (.port p) (taken s p c x)) p.num = getHopPort s p.num := by
    rw [getHopPort_of_only _ (endUnlock_only ..), getHopPort_taken]
  have hpath : pathUnlock (endUnlock (.port p) (taken s p c x)) (.port p) = { pathUnlock s (.port p) with until_ := none } := by
    rw [endUnlock, pathUnlock_setUnlock, pathUnlock_taken]
  rw [ht, pathUnlock_of_unlocks (unlocksOf_complete ..)]
  exact ⟨hpath, answered_good 0 hcmd rfl rfl nofun hport⟩

theorem startCommand_unlock {c : Capsule} (hop : c.isOp 0x41 = true) (arr : Nat) (p : Port) (x : Extra) (s : State) : startCommand arr p c x s = doUnlock arr p c s := by
  have hopcode : c.opcode = 0x41 := by simpa [Capsule.isOp] using hop
  unfold startCommand
  rw [hopcode]
  rfl
/-- What a JTAG step of the unlock acts on (R657, R660). -/
theorem jtagUnlock_unlockJ (f : State → State) (s : State) :
    let acts : Prop := jtagClocked s = true ∧ refusing s .jtag = false
    (¬ acts → jtagUnlock f s = setIr 0x21 false (send (.jtag (unlockCapture s)) s)) ∧ (acts → jtagUnlock f s = f (setIr 0x21 false (send (.jtag (unlockCapture s)) s))) := by
  intro acts
  have hcond : (!jtagClocked (setIr 0x21 false (send (.jtag (unlockCapture s)) s)) || refusing (setIr 0x21 false (send (.jtag (unlockCapture s)) s)) .jtag) = true ↔ ¬ acts := by
    rw [jtagClocked_setIr_send]
    show (!jtagClocked s || refusing s .jtag) = true ↔ _
    simp [acts, imp_iff_not_or]
  exact ⟨fun h => if_pos (hcond.2 h), fun h => if_neg fun hc => hcond.1 hc h⟩

/-- Settles O42: a challenge serves one response, the HMAC unlocks, the third wrong response in a row refuses, and each path's end locks it. -/
theorem unlockIsByChallenge : Obligations.UnlockIsByChallenge := by
  unfold Obligations.UnlockIsByChallenge
  intro s hawake responds
  refine ⟨fun p => ⟨fun c hop hstep => ?_, fun c hop hstep => ?_, fun c hop hstep => ?_⟩, fun path => ⟨_, if_pos hawake, pathUnlock_setUnlock ..⟩,
    fun path => ⟨_, if_pos hawake, pathUnlock_setUnlock ..⟩, ?_, ⟨_, rfl, rfl, rfl, rfl⟩⟩
  · refine .of_executes ⟨_, if_pos hawake⟩ fun h t ht => ?_
    obtain rfl := Host.Outcome.next.inj (ht.symm.trans (arriveArg_executes (by rw [hstep]; decide) hop h {}))
    rw [startCommand_unlock hop]
    refine ⟨fun hr => ?_, fun hr => doUnlock_challenge {} h.1 hr hstep⟩
    obtain ⟨hans, hsame⟩ := doUnlock_refused {} h.1 hr
    exact ⟨hans, congrArg Prod.fst hsame, congrArg (fun u => u.2.1) hsame⟩
  · refine .of_executes ⟨_, if_pos hawake⟩ fun h t ht => ?_
    obtain rfl := Host.Outcome.next.inj (ht.symm.trans (arriveArg_executes (by rw [hstep]; decide) hop h {}))
    rw [startCommand_unlock hop]
    refine ⟨fun hr => ?_, fun hr => doUnlock_response {} h.1 hr hstep⟩
    obtain ⟨hans, hsame⟩ := doUnlock_refused {} h.1 hr
    exact ⟨hans, pathUnlock_of_unlocks hsame _⟩
  · refine .of_executes ⟨_, if_pos hawake⟩ fun h t ht => ?_
    obtain rfl := Host.Outcome.next.inj (ht.symm.trans (arriveArg_executes (by rw [hstep]; decide) hop h {}))
    rw [startCommand_unlock hop]
    refine ⟨fun hr => ?_, fun hr => doUnlock_lock {} h.1 hr hstep⟩
    obtain ⟨hans, hsame⟩ := doUnlock_refused {} h.1 hr
    exact ⟨hans, pathUnlock_of_unlocks hsame _⟩
  · intro acts
    refine ⟨⟨_, rfl, fun hn => ?_, fun ha => ?_⟩, fun r => ⟨_, rfl, fun hn => ?_, fun ha => ?_⟩, ⟨_, rfl, fun hn => ?_, fun ha => ?_⟩⟩
    · rw [(jtagUnlock_unlockJ ..).1 hn]
      rfl
    · rw [(jtagUnlock_unlockJ ..).2 ha]
      exact ⟨rfl, rfl, newChallenge_free .jtag _⟩
    · rw [(jtagUnlock_unlockJ ..).1 hn]
      rfl
    · rw [(jtagUnlock_unlockJ ..).2 ha]
      exact takeResponse_responds .jtag r (setIr 0x21 false (send (.jtag (unlockCapture s)) s))
    · rw [(jtagUnlock_unlockJ ..).1 hn]
      rfl
    · rw [(jtagUnlock_unlockJ ..).2 ha]
      rfl

end Sys2Proof.Machine
end

section
/-! What a report leaves of the arm links, the heads and the islands. -/

namespace Sys2Proof.Machine
set_option Elab.async false

-- What a report leaves of the arm links, the heads and the islands (R514, R518).

/-- An arm link but for the messages on their way. -/
def linkState (k : ArmLink) : ArmLink := { k with seq := 0, unacked := [], msgs := [] }
/-- A head but for what a gating sets. -/
def headState (d : Head) : Head := { d with mode := 0, raw := 0, writing := false, laserOpI := 0 }
/-- An island but for its state. -/
def islandState (i : Island) : Island := { i with state := 0 }
/-- Between the two states heads were gated and messages sent at most. -/
structure Rested (s t : State) : Prop where
  link : ∀ a, linkState (getAlk t a) = linkState (getAlk s a)
  head : ∀ n, headState (getHead t n) = headState (getHead s n)
  island : ∀ i, islandState (getIsl t i) = islandState (getIsl s i)

theorem getAlk_of_only {m : Units} {s t : State} (a : Nat) (h : Only m s t) (hm : m.alks = false := by rfl) : getAlk t a = getAlk s a := by
  unfold getAlk
  rw [h.alks hm]
theorem getHead_of_only {m : Units} {s t : State} (n : Nat) (h : Only m s t) (hm : m.heads = false := by rfl) : getHead t n = getHead s n := by
  unfold getHead
  rw [h.heads hm]
theorem getIsl_of_only {m : Units} {s t : State} (i : Nat) (h : Only m s t) (hm : m.islands = false := by rfl) : getIsl t i = getIsl s i := by
  unfold getIsl
  rw [h.islands hm]

theorem Rested.refl {s : State} : Rested s s := ⟨fun _ => rfl, fun _ => rfl, fun _ => rfl⟩
theorem Rested.after {s t u : State} (h₂ : Rested t u) (h₁ : Rested s t) : Rested s u :=
  ⟨fun a => (h₂.link a).trans (h₁.link a), fun n => (h₂.head n).trans (h₁.head n), fun i => (h₂.island i).trans (h₁.island i)⟩
theorem Rested.of_only {m : Units} {s t : State} (h : Only m s t) (ha : m.alks = false := by rfl) (hh : m.heads = false := by rfl)
    (hi : m.islands = false := by rfl) : Rested s t :=
  ⟨fun a => congrArg linkState (getAlk_of_only a h ha), fun n => congrArg headState (getHead_of_only n h hh),
    fun i => congrArg islandState (getIsl_of_only i h hi)⟩
theorem Rested.ite {s t u : State} {c : Prop} [Decidable c] (h₁ : Rested s t) (h₂ : Rested s u) : Rested s (if c then t else u) := by
  split
  · exact h₁
  · exact h₂
theorem Rested.each {α : Type} {f : α → State → State} (hf : ∀ x s, Rested s (f x s)) (xs : List α) (s : State) : Rested s (each xs f s) := by
  refine ⟨fun a => ?_, fun n => ?_, fun i => ?_⟩
  · exact each_proj (fun t => linkState (getAlk t a)) xs f s fun x s => (hf x s).link a
  · exact each_proj (fun t => headState (getHead t n)) xs f s fun x s => (hf x s).head n
  · exact each_proj (fun t => islandState (getIsl t i)) xs f s fun x s => (hf x s).island i

theorem modAlk_rested {a : Nat} {f : ArmLink → ArmLink} (s : State) (hf : ∀ k, linkState (f k) = linkState k) : Rested s (modAlk s a f) := by
  refine ⟨fun b => ?_, fun n => ?_, fun i => ?_⟩
  · by_cases hb : b = a
    · subst hb
      rw [getAlk_modAlk, hf]
    · rw [getAlk_modAlk_other _ _ hb]
  · rw [getHead_of_only n (modAlk_only ..)]
  · rw [getIsl_of_only i (modAlk_only ..)]
theorem modHead_rested {n : Nat} {f : Head → Head} (s : State) (hf : ∀ k, headState (f k) = headState k) : Rested s (modHead s n f) := by
  refine ⟨fun b => ?_, fun m => ?_, fun i => ?_⟩
  · rw [getAlk_of_only b (modHead_only ..)]
  · by_cases hm : m = n
    · subst hm
      rw [getHead_modHead, hf]
    · rw [getHead_modHead_other _ _ hm]
  · rw [getIsl_of_only i (modHead_only ..)]
theorem modIsl_rested {n : Nat} {f : Island → Island} (s : State) (hf : ∀ k, islandState (f k) = islandState k) : Rested s (modIsl s n f) := by
  refine ⟨fun b => ?_, fun m => ?_, fun i => ?_⟩
  · rw [getAlk_of_only b (modIsl_only ..)]
  · rw [getHead_of_only m (modIsl_only ..)]
  · by_cases hi : i = n
    · subst hi
      rw [getIsl_modIsl, hf]
    · rw [getIsl_modIsl_other _ _ hi]
theorem alkPut_rested (a : Nat) (m : AlkMsg) (s : State) : Rested s (alkPut a m s) :=
  (Rested.of_only (send_only ..)).after (modAlk_rested s fun _ => rfl)
theorem alkSend_rested (a type head : Nat) (imm : Bool) (apply : Nat) (payload : List Word) (s : State) :
    Rested s (alkSend a type head imm apply payload s) := by
  unfold alkSend
  exact .ite ((alkPut_rested ..).after (modAlk_rested s fun _ => rfl)) .refl
theorem sendMode_rested (a h mode raw : Nat) (s : State) : Rested s (sendMode a h mode raw s) := by
  unfold sendMode
  exact (alkSend_rested ..).after (modHead_rested s fun _ => rfl)
theorem sendLaser_rested (a h op bias lead : Nat) (s : State) : Rested s (sendLaser a h op bias lead s) := by
  unfold sendLaser
  exact (alkSend_rested ..).after (modHead_rested s fun _ => rfl)
theorem laserOff_rested (a h : Nat) (write : Bool) (s : State) : Rested s (laserOff a h write s) := by
  unfold laserOff
  exact .ite ((sendLaser_rested ..).after (modHead_rested s fun _ => rfl)) (modHead_rested s fun _ => rfl)
theorem gateIsland_rested (n : Nat) (s : State) : Rested s (gateIsland n s) := by
  unfold gateIsland
  refine modIsl_rested s fun i => ?_
  split
  · rfl
  · rfl
theorem restHead_rested (a h : Nat) (write : Bool) (s : State) : Rested s (restHead a h write s) := by
  unfold restHead
  exact .ite .refl ((laserOff_rested ..).after ((sendMode_rested ..).after (gateIsland_rested ..)))
theorem cutVisit_rested (a : Nat) (s : State) : Rested s (cutVisit a s) := by
  unfold cutVisit
  split
  · exact .refl
  next o v _ =>
    have hheads (t : State) : Rested t (each o.heads (fun h s => restHead a h (decide (v.kind = 1)) s) t) := .each (fun _ _ => restHead_rested ..) _ _
    have hfree : Rested s (freeInner (fun e => e.1 = a) s) := .of_only (freeInner_only ..)
    exact .ite (.after (.of_only (m := { fan := true }) (.upd .refl)) ((hheads _).after (.after (.of_only (m := { slu := true }) (.upd .refl)) hfree)))
      (.after (.of_only (post_only ..)) (.after (.of_only (m := { fan := true }) (.upd .refl))
        ((hheads _).after (.after (.of_only (m := { slu := true }) (.upd .refl)) hfree))))
theorem endVisits_rested (s : State) : Rested s (endVisits s) := by
  unfold endVisits
  exact .after (.of_only (m := { slu := true }) (.upd .refl)) (.after (.each (fun _ _ => cutVisit_rested ..) _ _)
    (.each (fun _ _ => .ite (.of_only (modSine_only ..)) .refl) _ _))
theorem enterHold_rested (event : BitVec 8) (injected : Bool) (s : State) : Rested s (enterHold event injected s) := by
  unfold enterHold
  exact .ite (.after (.of_only (post_only ..)) (.after (endVisits_rested _) (.of_only (m := { dev := true, flt := true }) (.upd .refl))))
    (.ite (.of_only (m := { flt := true }) (.upd .refl)) .refl)
theorem reportAll_rested (rs : List Report) (s : State) : Rested s (reportAll rs s) := by
  unfold reportAll
  exact .after (.each (fun _ _ => enterHold_rested ..) _ _) (.after (.of_only (captureFirst_only ..))
    (.each (fun _ _ => .after (.of_only (mqNote_only ..)) (.of_only (countReport_only ..))) _ _))
theorem report_rested (r : Report) (s : State) : Rested s (report r s) := by
  unfold report
  exact reportAll_rested ..
theorem condition_rested (code master : BitVec 8) (cause : Nat) (hold : Bool) (fs : List PayField) (s : State) :
    Rested s (condition code master cause hold fs s) := by
  unfold condition
  exact .after (report_rested ..) (.of_only (post_only ..))
theorem alkCondition_rested (a : Nat) (code : BitVec 8) (cause : Nat) (hold : Bool) (s : State) : Rested s (alkCondition a code cause hold s) := by
  unfold alkCondition
  exact condition_rested ..

end Sys2Proof.Machine
end

section
/-! Clock and supply faults (O2). -/

namespace Sys2Proof.Machine
set_option Elab.async false

-- Clock and supply faults (R610, R618).

theorem hardReset_gates (s : State) : (hardReset s).spc.gates = false ∧ (hardReset s).spn.chopOn = false ∧ (hardReset s).ptn.activeOut = false := by
  unfold hardReset
  generalize each (List.range 8) cutBank s = t
  exact ⟨rfl, rfl, rfl⟩
theorem outputsLow_gates {s : State} (h : s.spc.gates = true) : .gates false ∈ (outputsLow s).tx := by
  unfold outputsLow
  rw [if_pos h]
  have hsent : Tx.gates false ∈ (send (.gates false) s).tx := List.mem_append_right _ (List.mem_singleton_self _)
  dsimp only
  split
  · exact List.mem_append_left _ hsent
  · exact hsent
theorem outputsLow_chopper {s : State} (h : s.spn.chopOn = true) : .chopper false ∈ (outputsLow s).tx := by
  have hspn : (if s.spc.gates then send (.gates false) s else s).spn = s.spn := by
    split
    · rfl
    · rfl
  unfold outputsLow
  dsimp only
  rw [hspn, if_pos h]
  exact List.mem_append_right _ (List.mem_singleton_self _)

/-- What a clock or supply fault leaves of the part (R610, R618). -/
structure ClockStopped (kind : Nat) (s t : State) : Prop where
  dev : t.dev = .stopped
  clocks : t.start.clocksStopped = true
  activeOut : t.ptn.activeOut = false
  gates : t.spc.gates = false
  chopper : t.spn.chopOn = false
  gatesLow : s.spc.gates = true → .gates false ∈ t.tx
  chopperLow : s.spn.chopOn = true → .chopper false ∈ t.tx
  time : t.aon.time = s.aon.time
  prevState : t.aon.prevState = s.dev
  prevDirty : t.aon.prevDirty = holdsDirty s
  faultKind : t.aon.faultKind = kind
theorem ClockStopped.awake {kind : Nat} {s t : State} (h : ClockStopped kind s t) : awake t = false := by
  simp [Machine.awake, h.clocks]
theorem clockFault_stopped (kind rail : Nat) (s : State) : ClockStopped kind s (clockFault kind rail s) := by
  obtain ⟨hgates, hchop, hactive⟩ := hardReset_gates (outputsLow s)
  have htx : (hardReset (outputsLow s)).tx = (outputsLow s).tx := (hardReset_only _).tx
  unfold clockFault
  dsimp only
  generalize hardReset (outputsLow s) = t at hgates hchop hactive htx
  exact ⟨rfl, rfl, hactive, hgates, hchop, fun h => htx ▸ outputsLow_gates h, fun h => htx ▸ outputsLow_chopper h, rfl, rfl, rfl, rfl⟩

theorem alkLoss_of_up {a : Nat} {s : State} (h : alkUp s a = true) : (getAlk (alkLoss a s) a).link = 1 ∧ (getAlk (alkLoss a s) a).retrain = true := by
  unfold alkLoss
  rw [if_pos h]
  extract_lets t u
  have hkept := (Rested.after (alkCondition_rested a 0x7B 8 true (openCause 0x7B a false u)) (.of_only (openCause_only ..))).link a
  have hdown : linkState (getAlk u a) = linkState (getAlk (modAlk t a fun k => { k with
      link := 1, retrain := true, attempts := 0, attempting := false, idle := false, waitIdentity := false, settling := false,
      mapAt := none, unacked := [], msgs := [], msgRest := [], sentIn := [], outs := [] }) a) := rfl
  rw [hdown, getAlk_modAlk] at hkept
  exact ⟨congrArg (·.link) hkept, congrArg (·.retrain) hkept⟩
theorem linkDown_of_up {l cause : Nat} {inj : Bool} {s : State} (h : linkUp s l = true) :
    (getLink (linkDown l cause inj s) l).link = 1 ∧ ((getLink s l).session = 1 → (getLink (linkDown l cause inj s) l).session = 2) := by
  unfold linkDown
  rw [if_pos h, getLink_of_only l (postInj_only ..), getLink_modLink]
  exact ⟨rfl, fun hopen => if_pos hopen⟩
theorem alkLoss_clk (a : Nat) (s : State) : (alkLoss a s).clk = s.clk := (alkLoss_only a s).clk
theorem linkDown_clk (l cause : Nat) (inj : Bool) (s : State) : (linkDown l cause inj s).clk = s.clk := (linkDown_only l cause inj s).clk

/-- Settles O2: a stopped part is the hard reset with its causes latched; a lane PLL's loss of lock is its link's. -/
theorem clockAndSupplyFaultsAreTaken : Obligations.ClockAndSupplyFaultsAreTaken := by
  unfold Obligations.ClockAndSupplyFaultsAreTaken
  refine ⟨fun s hawake => ?_, fun s pll hawake => ?_⟩
  · refine ⟨?_, ?_, fun rail first => ?_⟩
    · refine ⟨_, if_pos hawake, ?_⟩
      have h := clockFault_stopped 2 0 s
      exact ⟨⟨h.dev, h.clocks, h.awake, h.activeOut, h.gates, h.chopper, h.gatesLow, h.chopperLow, h.time, h.prevState, h.prevDirty, h.faultKind⟩, Bool.or_true _⟩
    · refine ⟨_, if_pos hawake, ?_⟩
      have h := clockFault_stopped 3 0 s
      exact ⟨⟨h.dev, h.clocks, h.awake, h.activeOut, h.gates, h.chopper, h.gatesLow, h.chopperLow, h.time, h.prevState, h.prevDirty, h.faultKind⟩, Bool.or_true _⟩
    · refine ⟨_, if_pos hawake, ?_⟩
      beta_reduce
      split
      next hnone => rw [if_pos (by simpa using hnone)]
      next hsome =>
        rw [if_neg (by simpa using hsome)]
        have h := clockFault_stopped 1 rail.val s
        refine ⟨⟨h.dev, h.clocks, h.awake, h.activeOut, h.gates, h.chopper, h.gatesLow, h.chopperLow, h.time, h.prevState, h.prevDirty, h.faultKind⟩, Bool.or_true _, rfl, ?_⟩
        show (s.pwr.good &&& ~~~(BitVec.twoPow 7 (6 - rail.val))).getLsbD (6 - rail.val) = false
        simp
  · refine ⟨_, if_pos hawake, ?_⟩
    by_cases hlane : pll.val < 8
    · beta_reduce
      rw [if_pos hlane, alkLoss_clk]
      exact ⟨rfl, rfl, fun _ hup => alkLoss_of_up hup, fun hlow => absurd hlane (Nat.not_lt.mpr hlow)⟩
    · beta_reduce
      rw [if_neg hlane, linkDown_clk]
      exact ⟨rfl, rfl, fun h => absurd h hlane, fun _ hup => linkDown_of_up hup⟩

end Sys2Proof.Machine
end

section
/-! Sample streams and their marks (O18). -/

namespace Sys2Proof.Machine
set_option Elab.async false

-- Sample streams (R75, R77).

/-- Stream `x` of an arm link. -/
def armStream (s : State) (arm x : Nat) : Stream := tabGet {} (getAlk s arm).streams x
theorem armStream_modStream (arm x : Nat) (f : Stream → Stream) (s : State) : armStream (modStream arm x f s) arm x = f (armStream s arm x) := by
  unfold armStream modStream
  rw [getAlk_modAlk]
  exact tabMod_same ..
theorem armStream_modStream_other {arm x y : Nat} (f : Stream → Stream) (s : State) (h : y ≠ x) :
    armStream (modStream arm x f s) arm y = armStream s arm y := by
  unfold armStream modStream
  rw [getAlk_modAlk]
  exact tabMod_other _ _ _ h
theorem msgErr_modStream (arm x : Nat) (f : Stream → Stream) (s : State) : (getAlk (modStream arm x f s) arm).msgErr = (getAlk s arm).msgErr := by
  unfold modStream
  rw [getAlk_modAlk]
theorem armStream_countError (arm x : Nat) (s : State) (c : Bool) :
    armStream (if c = true then modAlk s arm fun k => { k with msgErr := satInc 16 k.msgErr } else s) arm x = armStream s arm x := by
  unfold armStream
  split
  · rw [getAlk_modAlk]
  · rfl
theorem msgErr_countError (arm : Nat) (s : State) (c : Bool) :
    (getAlk (if c = true then modAlk s arm fun k => { k with msgErr := satInc 16 k.msgErr } else s) arm).msgErr =
      if c = true then satInc 16 (getAlk s arm).msgErr else (getAlk s arm).msgErr := by
  split
  · rw [getAlk_modAlk]
  · rfl

/-- The time of a mark keeps its 40 bits. -/
theorem unwrap40_emod {time : Nat} (near : Int) (h : time < 2 ^ 40) : unwrap40 time near % 2 ^ 40 = time := by
  unfold unwrap40 signedOf twos
  split
  · omega
  · omega
theorem markBad_iff (wseq : Nat) (d : Stream) : markBad wseq d = true ↔ d.running = true ∧ (d.broken = true ∨ 720 < markAhead wseq d) := by
  simp [markBad]
theorem mem_eraseSince {p : Nat × Word} {d : Stream} (h : p ∈ eraseSince d) : p ∈ d.words ∨ p.2 = erasedWord := by
  obtain ⟨x, hx, hp⟩ := List.mem_map.mp h
  split at hp
  · exact .inr (hp ▸ rfl)
  · exact .inl (hp ▸ hx)
theorem mem_eraseSince_since {p : Nat × Word} {d : Stream} (h : p ∈ eraseSince d) (hsince : lastMark d ≤ p.1) : p.2 = erasedWord := by
  obtain ⟨x, _, hp⟩ := List.mem_map.mp h
  split at hp
  · exact hp ▸ rfl
  · exact absurd (hp ▸ hsince) ‹_›
theorem mem_takeMark_words {wseq time tick : Nat} {d : Stream} {p : Nat × Word} (h : p ∈ (takeMark wseq time tick d).words) :
    d.next + markAhead wseq d < p.1 + 16384 ∧ p ∈ (if markBad wseq d then eraseSince d else d.words) :=
  have hp := List.mem_filter.mp h
  ⟨of_decide_eq_true hp.2, hp.1⟩

/-- Settles O18: a word enters the stream that it names, and a mark anchors its stream. -/
theorem sampleStreamsAreAnchored : Obligations.SampleStreamsAreAnchored := by
  unfold Obligations.SampleStreamsAreAnchored
  intro s hawake arm word
  refine ⟨⟨_, if_pos hawake, ?_⟩, ⟨_, if_pos hawake, ?_⟩⟩
  · beta_reduce
    refine ⟨fun hdown => by simp [hdown], fun hup => ?_⟩
    rw [if_pos hup]
    have hstream := armStream_modStream arm (bitsOf 63 60 word.toNat) (takeWord word) s
    unfold armStream at hstream
    rw [hstream]
    exact ⟨rfl, rfl, rfl, rfl, fun y hy => armStream_modStream_other (arm := arm) _ _ hy⟩
  · beta_reduce
    intro x d e named bad
    refine ⟨fun hdown => by simp [hdown], fun hup => ?_⟩
    have hbad : markBad (bitsOf 51 40 word.toNat) d = true ↔ bad := by
      rw [markBad_iff]
      show _ ↔ d.running = true ∧ (d.broken = true ∨ 720 < d.next + markAhead (bitsOf 51 40 word.toNat) d - d.next)
      rw [Nat.add_sub_cancel_left]
    have he : e = takeMark (bitsOf 51 40 word.toNat) (bitsOf 39 0 word.toNat) (linkTick s) d := by
      show armStream _ arm x = _
      rw [if_pos hup, armStream_modStream, armStream_countError]
      rfl
    rw [if_pos hup, msgErr_modStream, msgErr_countError]
    rw [he]
    refine ⟨rfl, rfl, ?_, ?_, ?_, rfl, fun p hp => ?_, fun hb p hp hsince => ?_⟩
    · by_cases hb : bad
      · simp [takeMark, hb, hbad.mpr hb, named, markAhead]
      · have hnot : markBad (bitsOf 51 40 word.toNat) d = false := by simpa [hb] using hbad
        simp [takeMark, hb, hnot, named, markAhead]
    · exact if_congr hbad rfl rfl
    · have htime : bitsOf 39 0 word.toNat < 2 ^ 40 := Nat.mod_lt _ (Nat.two_pow_pos _)
      simp only [takeMark, List.head?_cons, Option.map_some, unwrap40_emod _ htime]
      rfl
    · obtain ⟨hkept, hmem⟩ := mem_takeMark_words hp
      refine ⟨hkept, ?_⟩
      split at hmem
      next hb => exact (mem_eraseSince hmem).imp_right fun herased => ⟨hbad.mp hb, herased⟩
      next => exact .inl hmem
    · obtain ⟨_, hmem⟩ := mem_takeMark_words hp
      rw [if_pos (hbad.mpr hb)] at hmem
      exact mem_eraseSince_since hmem hsince

end Sys2Proof.Machine
end

section
/-! A repair that passes its check and notes its defect on the queue that was read (O20). -/

namespace Sys2Proof.Machine
set_option Elab.async false

/-- An island that stands under number 11 as its arm's: its result queue is the one that defect entries are reported on (R54). Its word
names island 1, whose arm 0 writes a repaired sector. -/
def repairUnderCheckState : State := {
  dev := .ready, start := { inReset := false, powerOnReset := false }, img := { heads := 1, zones := [(0, [{}])] },
  layout := { defects := [remapEntry { arm := 0, head := 0, row := 5 } 1 (0, 3, 1)] },
  islands := [(0, { arm := 11 })], mqs := [(11, { words := [(w64 (2 ^ 57), true)], packets := 1 })],
  slu := { ops := [(0, some { kind := .repair, want := [0] })] } }
theorem repairUnderCheckState_reports :
    (match exec (.rawResultHandle 0) repairUnderCheckState with | .next t => (getMq t 11).words.length | _ => 0) ≠ 0 := by decide +kernel

/-- Refutes O20: a pass of a repair enters a defect, and its note takes the place of the word that was read where the island's arm has the
number of that queue. -/
theorem not_readAfterWriteChecksCount : ¬ Obligations.ReadAfterWriteChecksCount := by
  unfold Obligations.ReadAfterWriteChecksCount
  intro h
  obtain ⟨-, t, ht, -, htaken⟩ := h repairUnderCheckState rfl 0
  obtain ⟨hrest, -⟩ := htaken (w64 (2 ^ 57), true) [] rfl
  have hreports := repairUnderCheckState_reports
  rw [ht] at hreports
  exact hreports (congrArg List.length hrest)

end Sys2Proof.Machine
end

section
/-! Droops and the core voltage (O3). -/

namespace Sys2Proof.Machine
set_option Elab.async false

-- Droops and the core voltage (R612, R620 to R624).

theorem stretches_iff (d : Fin 100) : stretches d = true ↔ (88 ≤ d.val ∧ d.val ≤ 96) ∨ d.val = 99 := by
  simp [stretches]
/-- A condition that holds leads to Fault-hold from the states of R518. -/
theorem condition_holds {code master : BitVec 8} {cause : Nat} {fs : List PayField} {s : State} (h : holdsFrom s.dev = true) :
    (condition code master cause true fs s).dev = .faultHold ∧ (condition code master cause true fs s).flt.holdCause = code := by
  unfold condition
  have hdev : (post code master fs s).dev = s.dev := (post_only ..).dev
  exact report_holds rfl (hdev.symm ▸ h)
theorem mem_tx_of_only {m : Units} {s t : State} {x : Tx} (h : Only m s t) (hx : x ∈ s.tx) : x ∈ t.tx := h.sent.subset hx
theorem mem_tx_send (x : Tx) (s : State) : x ∈ (send x s).tx := List.mem_append_right _ (List.mem_singleton_self _)

theorem avsAnswer_written (acked : Bool) (readback : Nat) (s : State) :
    (avsAnswer acked readback s).pwr.target = s.pwr.target ∧ (avsAnswer acked readback s).pwr.wrote = s.pwr.wrote ∧
      (avsAnswer acked readback s).pwr.readback = if acked then readback else s.pwr.readback := by
  unfold avsAnswer
  extract_lets off src t bad
  split
  · rw [(condition_only ..).pwr, (openCause_only ..).pwr]
    exact ⟨rfl, rfl, rfl⟩
  · exact ⟨rfl, rfl, rfl⟩
theorem mem_avsAnswer {x : Tx} {acked : Bool} {readback : Nat} {s : State} (h : x ∈ s.tx) : x ∈ (avsAnswer acked readback s).tx :=
  mem_tx_of_only (avsAnswer_only ..) h
/-- The third answer in a row that is not acknowledged opens the fault (R622). -/
theorem avsAnswer_third {readback : Nat} {s : State} (hbad : s.pwr.avsBad = 2) (hfault : s.pwr.avsFault = false) :
    (avsAnswer false readback s).pwr.avsFault = true ∧ (holdsFrom s.dev = true → (avsAnswer false readback s).dev = .faultHold) := by
  unfold avsAnswer
  extract_lets off src t bad
  have hopens : (bad && !t.pwr.avsFault) = true := by simp [bad, t, src, hbad, hfault]
  rw [if_pos hopens]
  refine ⟨?_, fun h => ?_⟩
  · rw [(condition_only ..).pwr, (openCause_only ..).pwr]
  · exact (condition_holds (by rw [(openCause_only ..).dev]; exact h)).1

/-- What AVS_STEP writes, if it is due. -/
def avsWritten (s : State) : State :=
  match avsNext s with
  | some w => send (.avs w) { s with pwr := { s.pwr with wrote := w } }
  | none => s
theorem avsWritten_pwr (s : State) : (avsWritten s).pwr = { s.pwr with wrote := (avsNext s).getD s.pwr.wrote } := by
  unfold avsWritten
  split
  next w h => rw [h]; rfl
  next h => rw [h]; rfl
theorem avsWritten_dev (s : State) : (avsWritten s).dev = s.dev := by
  unfold avsWritten
  split
  · rfl
  · rfl
theorem mem_avsWritten {w : Nat} {s : State} (h : avsNext s = some w) : .avs w ∈ (avsWritten s).tx := by
  unfold avsWritten
  rw [h]
  exact mem_tx_send ..
theorem execAvsStep_eq (acked : Bool) (readback : Nat) (s : State) :
    execAvsStep acked readback s = live s fun s => .next (if s.pwr.avsFault then s else avsAnswer acked readback (avsWritten s)) := by
  unfold execAvsStep avsWritten
  congr 1
  funext s
  split
  · rfl
  · cases avsNext s with
    | none => rfl
    | some w => rfl

/-- A step of the core voltage (R622) that is acknowledged or not. -/
theorem avsStep_completes {s : State} (hawake : awake s = true) (acked : Bool) (readback : Nat) : Completes (.avsStep acked readback) s fun t =>
    t.pwr.target = s.pwr.target ∧
    (s.pwr.avsFault = true → t = s) ∧
    (s.pwr.avsFault = false →
      (∀ w, avsNext s = some w → t.pwr.wrote = w ∧ .avs w ∈ t.tx) ∧ (avsNext s = none → t.pwr.wrote = s.pwr.wrote) ∧
      t.pwr.readback = (if acked then readback else s.pwr.readback) ∧
      (acked = false → s.pwr.avsBad = 2 → t.pwr.avsFault = true ∧ (holdsFrom s.dev = true → t.dev = .faultHold))) := by
  refine ⟨_, (execAvsStep_eq ..).trans (if_pos hawake), ?_⟩
  beta_reduce
  obtain ⟨htarget, hwrote, hread⟩ := avsAnswer_written acked readback (avsWritten s)
  rw [avsWritten_pwr] at htarget hwrote hread
  by_cases hfault : s.pwr.avsFault = true
  · rw [if_pos hfault]
    exact ⟨rfl, fun _ => rfl, fun hnone => absurd (hfault.symm.trans hnone) nofun⟩
  · rw [if_neg hfault]
    refine ⟨htarget, fun h => absurd h hfault, fun hnone => ⟨fun w hw => ⟨?_, mem_avsAnswer (mem_avsWritten hw)⟩, fun hw => ?_, hread, ?_⟩⟩
    · rw [hwrote, hw]; rfl
    · rw [hwrote, hw]; rfl
    · rintro rfl htwo
      have hthird := avsAnswer_third (readback := readback) (s := avsWritten s) (by rw [avsWritten_pwr]; exact htwo) (by rw [avsWritten_pwr]; exact hnone)
      rw [avsWritten_dev] at hthird
      exact hthird

/-- Settles O3: each command of the core voltage by its guard, with one lemma on what an AVSBus answer leaves. -/
theorem droopsAreRiddenAndTheCoreVoltageHeld : Obligations.DroopsAreRiddenAndTheCoreVoltageHeld := by
  unfold Obligations.DroopsAreRiddenAndTheCoreVoltageHeld
  refine ⟨fun s d hawake => ⟨_, if_pos hawake, ?_⟩, fun s hawake => ⟨fun ps => ⟨_, if_pos hawake, ?_⟩, avsStep_completes hawake,
    fun acked readback => ⟨_, if_pos hawake, ?_⟩⟩⟩
  · beta_reduce
    rw [← if_congr (stretches_iff d) rfl rfl]
    split
    · extract_lets times t
      split
      · rw [(post_only ..).pwr]
      · rfl
    · rfl
  · dsimp only
    split
    next h =>
      rw [(post_only ..).pwr]
      have hraise : 2 * ps.toList.foldl min (ps.toList.headD 0) < (slackMin s.img : Int) ∧ s.pwr.target < 850 ∧ s.pwr.avsFault = false ∧ s.dev ≠ .stopped := by
        simpa [and_assoc] using h
      exact ⟨rfl, (if_pos hraise).symm⟩
    next h =>
      have hstays : ¬ (2 * ps.toList.foldl min (ps.toList.headD 0) < (slackMin s.img : Int) ∧ s.pwr.target < 850 ∧ s.pwr.avsFault = false ∧ s.dev ≠ .stopped) := by
        simpa [and_assoc] using h
      exact ⟨rfl, (if_neg hstays).symm⟩
  · by_cases hfault : s.pwr.avsFault = true
    · rw [if_pos hfault]
      have hmem : Tx.avs s.pwr.wrote ∈ s.tx ++ [.avs s.pwr.wrote] := List.mem_append_right _ (List.mem_singleton_self _)
      by_cases hclose : 3 ≤ if (acked && decide (readback ≤ s.pwr.wrote + 15) && decide (s.pwr.wrote ≤ readback + 15)) = true then s.pwr.avsGood + 1 else 0
      · dsimp only [send]
        rw [if_pos hclose, (post_only ..).pwr]
        refine ⟨rfl, rfl, fun hnone => absurd (hfault.symm.trans hnone) nofun, fun _ => ⟨mem_tx_of_only (post_only ..) (mem_tx_of_only (closeCause_only ..) hmem), ?_⟩⟩
        split at hclose
        next hgood => exact ⟨fun h => ⟨rfl, h.2.2.2⟩, fun h => by simpa [and_assoc, h.2] using hgood⟩
        next => exact absurd hclose (by decide)
      · dsimp only [send]
        rw [if_neg hclose]
        refine ⟨rfl, rfl, fun hnone => absurd (hfault.symm.trans hnone) nofun, fun _ => ⟨hmem, fun ⟨hacked, hhigh, hlow, htwo⟩ => ?_, fun h => absurd (hfault.symm.trans h.1) nofun⟩⟩
        rw [if_pos (by simp [hacked, hhigh, hlow])] at hclose
        exact absurd (Nat.succ_le_succ htwo) hclose
    · rw [if_neg hfault]
      exact ⟨rfl, rfl, fun _ => rfl, fun h => absurd h hfault⟩

end Sys2Proof.Machine
end

section
/-! The report of an unused spare lane (O34). -/

namespace Sys2Proof.Machine
set_option Elab.async false

/-- A part that has reported its unused spare lane of port A to the peer (R355). -/
def spareReportedState : State := {
  dev := .ready, start := { inReset := false, powerOnReset := false }, links := [(0, { link := 2, rxSpareOk := false, mapping := some (16, 0) })] }
theorem spareReportedState_keeps_lanes :
    (match exec (.laneMapDone (.port .A) 16) spareReportedState with | .next t => (getLink t 0).rxOut | _ => 16) ≠ 16 := by decide +kernel

/-- Refutes O34: the answer to the report of an unused spare ends the report and maps no lane out. -/
theorem not_linksTrainAndMapLanes : ¬ Obligations.LinksTrainAndMapLanes := by
  unfold Obligations.LinksTrainAndMapLanes
  intro h
  obtain ⟨-, -, -, -, -, -, -, -, hdone⟩ := h spareReportedState rfl (.port .A)
  obtain ⟨t, ht, -, hmapped⟩ := hdone 16
  obtain ⟨-, hlane, -⟩ := hmapped rfl
  have hkeeps := spareReportedState_keeps_lanes
  rw [ht] at hkeeps
  exact hkeeps hlane

end Sys2Proof.Machine
end

section
/-! A decode beside an engine that stands twice (O22). -/

namespace Sys2Proof.Machine
set_option Elab.async false

-- The decode of a visit's codeword (R150, R438) and an engine that stands twice in the table of engines.

theorem pressureDown_engines (s : State) : (pressureDown s).bol.engines = s.bol.engines := by
  unfold pressureDown
  split
  · rfl
  · rfl
theorem freeCodeword_engines (k : Nat) (c : Codeword) (s : State) :
    (freeCodeword k c s).bol.engines = s.bol.engines.filter fun e => e.2.failed || e.2.busy ≠ some k := by
  unfold freeCodeword
  rw [pressureDown_engines]
  rfl
theorem visitDecoded_engines (k : Nat) (c : Codeword) (ok : Bool) (iters : Nat) (s : State) :
    (visitDecoded k c ok iters s).bol.engines = s.bol.engines.filter fun e => e.2.failed || e.2.busy ≠ some k := by
  rw [← freeCodeword_engines k c s]
  unfold visitDecoded
  split
  · dsimp only
    split
    · rw [(gather_only ..).bol]
    · rfl
  · rfl
/-- Whatever the decoder finds, a visit's codeword leaves the engines that have not failed. -/
theorem decodeDone_visit_engines {engine : Fin 100} {s t : State} {k : Nat} {c : Codeword} (hawake : awake s = true)
    (hwork : ((getEngine s engine).busy.bind fun k => s.bol.queue.find? fun q => q.1 = k) = some (k, c)) (hrung : c.rung ≠ 1) (hvisit : c.visit.isSome = true)
    (h : exec (.decodeDone engine) s = .next t) : t.bol.engines = s.bol.engines.filter fun e => e.2.failed || e.2.busy ≠ some k := by
  have hexec := (show execDecodeDone engine s = .next t from h)
  unfold execDecodeDone live at hexec
  rw [if_pos hawake] at hexec
  have ht := Host.Outcome.next.inj hexec
  rw [hwork] at ht
  unfold countIterations at ht
  dsimp only at ht
  rw [if_pos hrung] at ht
  generalize ldpcDecode _ _ = p at ht
  obtain ⟨it, bits⟩ := p
  simp only [hvisit, if_true] at ht
  subst ht
  split
  · exact visitDecoded_engines ..
  split
  · rw [visitDecoded_engines, (post_only ..).bol]
  split
  · rw [visitDecoded_engines, (post_only ..).bol]
  · exact visitDecoded_engines ..

/-- An engine that stands in the table once as decoding a visit's codeword, and behind that as failed with the same codeword. -/
def doubledEngineState : State := {
  dev := .ready, start := { inReset := false, powerOnReset := false },
  bol := { queue := [(3, { rung := 2, visit := some (0, 0) })], engines := [(0, { busy := some 3 }), (0, { failed := true, busy := some 3 })] } }

/-- Refutes O22: the decode ends the entry of the engine that was read, and the one behind it shows. -/
theorem not_enginesDecodeTheQueue : ¬ Obligations.EnginesDecodeTheQueue := by
  unfold Obligations.EnginesDecodeTheQueue
  intro h
  obtain ⟨hengine, -⟩ := h doubledEngineState rfl
  obtain ⟨-, ⟨t, ht, -, hdecoded⟩, -⟩ := hengine 0
  obtain ⟨-, hidle, -⟩ := hdecoded (3, { rung := 2, visit := some (0, 0) }) rfl
  refine hidle rfl ?_
  unfold getEngine
  rw [decodeDone_visit_engines (engine := 0) rfl rfl (by decide) rfl ht]
  rfl

end Sys2Proof.Machine
end

section
/-! What a halt leaves of the transfer engine (R331), and the traces' triggers (R236). -/

namespace Sys2Proof.Machine
set_option Elab.async false

-- What a halt leaves of the transfer engine (R331), and the traces' triggers (R236).

theorem getTre_of_tre {s t : State} (h : t.tre.chans = s.tre.chans) (ch : Nat) : getTre t ch = getTre s ch := by
  unfold getTre
  rw [h]
theorem getTre_of_only {m : Units} {s t : State} (ch : Nat) (h : Only m s t) (hm : m.tre = false := by rfl) : getTre t ch = getTre s ch :=
  getTre_of_tre (congrArg (·.chans) (h.tre hm)) ch
/-- A channel that halts (R331). -/
def haltedCh (cause elem : Nat) (inj : Bool) (c : TreCh) : TreCh :=
  { c with state := 3, cause, halts := satInc 6 c.halts, injected := inj, elemIdx := elem, running := true }
/-- The state of a halted channel before its pass ends. -/
theorem getTre_haltChannelAs (write : Bool) (ch cause addr elem : Nat) (inj : Bool) (s : State) (k : Nat) :
    getTre (haltChannelAs write ch cause addr elem inj s) k = getTre (modTre s ch (haltedCh cause elem inj)) k := by
  unfold haltChannelAs
  dsimp only
  generalize hr : report _ _ = r
  have hkept : getTre r k = getTre (modTre s ch (haltedCh cause elem inj)) k := by
    rw [← hr, getTre_of_only k (report_only ..), getTre_of_only k (mqSend_only ..)]
    rfl
  split
  · split
    · exact (getTre_of_only (s := r) k (cutPass_only ..)).trans hkept
    · exact hkept
  · exact hkept
theorem getTre_haltChannel (ch cause addr elem : Nat) (inj : Bool) (s : State) (k : Nat) :
    getTre (haltChannel ch cause addr elem inj s) k = getTre (modTre s ch (haltedCh cause elem inj)) k := getTre_haltChannelAs ..

/-- The trace registers but for the channels. -/
def traceRegs (g : Gov) : Gov := { g with trace := [] }
theorem traceRegs_eachTrace (f : TraceCh → TraceCh) (s : State) : traceRegs (each (List.range 8) (fun k s => modTrace s k f) s).gov = traceRegs s.gov :=
  each_proj (fun s => traceRegs s.gov) _ _ _ fun _ _ => rfl
theorem getTrace_eachTrace (f : TraceCh → TraceCh) (s : State) {k : Nat} (hk : k < 8) :
    getTrace (each (List.range 8) (fun k s => modTrace s k f) s) k = f (getTrace s k) :=
  get_each_range (g := fun _ => f) (fun _ _ => getTrace_modTrace ..) (fun _ _ _ h => getTrace_modTrace_other _ _ h) hk s
theorem traceRegs_armTrace (s : State) : traceRegs (armTrace s).gov = { traceRegs s.gov with armed := true } := traceRegs_eachTrace ..
theorem getTrace_armTrace (s : State) {k : Nat} (hk : k < 8) : getTrace (armTrace s) k =
    if (getTrace s k).mode = 0 then getTrace s k else { getTrace s k with state := 1, left := 0, execs := 0, last := 0, swSeen := false } :=
  getTrace_eachTrace _ { s with gov := { s.gov with armed := true } } hk
theorem traceFire_of_idle {s : State} (h : s.gov.armed = false) : traceFire s = s := by simp [traceFire, h]
theorem traceRegs_traceFire {s : State} (h : s.gov.armed = true) :
    traceRegs (traceFire s).gov = { traceRegs s.gov with armed := false, traceTime := devTime s } := by
  unfold traceFire
  rw [if_pos h]
  exact each_proj (fun s => traceRegs s.gov) _ _ _ fun _ _ => rfl
/-- A channel whose capture is triggered (R237). -/
def fired (pre : Nat) (t : TraceCh) : TraceCh := if t.state = 1 then { t with state := 2, trigIdx := t.writeIdx, left := 65536 - 1024 * pre } else t
theorem eachFired_eq (l : List Nat) (s : State) :
    each l (fun c s => modTrace s c (fired s.gov.pre)) s = each l (fun c s' => modTrace s' c (fired s.gov.pre)) s := by
  induction l generalizing s with
  | nil => rfl
  | cons c l ih =>
    rw [each_cons, each_cons]
    exact ih _
theorem getTrace_traceFire {s : State} (h : s.gov.armed = true) {k : Nat} (hk : k < 8) : getTrace (traceFire s) k = fired s.gov.pre (getTrace s k) := by
  unfold traceFire
  rw [if_pos h]
  refine (congrArg (getTrace · k) (eachFired_eq (List.range 8) { s with gov := { s.gov with armed := false, traceTime := devTime s } })).trans ?_
  exact getTrace_eachTrace _ _ hk

end Sys2Proof.Machine
end

section
/-! Registers written over a path (R654), and the trace registers. -/

namespace Sys2Proof.Machine
set_option Elab.async false

-- Registers written over a path (R654 to R656).

section
variable {source : BitVec 8} {v : Word} {s : State}
theorem landWrite_clear : landWrite source 0x20020 v s =
    { s with flt := { s.flt with real := if bitOf 1 v.toNat then {} else s.flt.real, inj := if bitOf 1 v.toNat then {} else s.flt.inj,
                                 first := if bitOf 0 v.toNat then {} else s.flt.first } } := by
  unfold landWrite
  rw [if_pos rfl]
  split
  · split
    · rfl
    · rfl
  · split
    · rfl
    · rfl
theorem landWrite_trig : landWrite source 0x404040 v s = putTraceTrig v s := rfl
theorem landWrite_fltReport : landWrite source 0x800008 v s = putFltReport v s := rfl
theorem landWrite_ecc : landWrite source 0x800118 v s = if bitOf 63 v.toNat then eccGo source s else s := rfl
theorem landWrite_treHalt : landWrite source 0x800200 v s = putTreHalt v s := rfl
theorem landWrite_traceCfg (c : Fin 8) : landWrite source (0x404000 + 8 * c.val) v s = putTraceCfg c.val v s := by
  have hreg : regIdx 0x404000 8 8 (0x404000 + 8 * c.val) = some c.val := by simp [regIdx]
  unfold landWrite
  rw [if_neg (by omega), if_neg (by omega), if_neg (by omega), if_neg (by omega), if_neg (by omega), if_neg (by omega), if_neg (by omega), if_neg (by omega),
    if_neg (by omega), hreg]
theorem landWrite_linkCfg (p : Port) : landWrite source (0x800400 + 0x20 * p.num) v s = putLinkCfg p.num v s := by
  cases p with
  | A => rfl
  | B => rfl
theorem landWrite_prob (p : Port) : landWrite source (0x800408 + 0x20 * p.num) v s = modInj s p.num fun j => { j with prob := bitsOf 31 0 v.toNat } := by
  cases p with
  | A => rfl
  | B => rfl
end

/-- A write over a path: JTAG reaches the registers with their clock alone, a refused write is counted, and one that lands has its effect. -/
theorem Completes.of_pathWrite {c : Instr} {path : Path} {a : Nat} {v : Word} {s : State} {effect : State → Prop} (hawake : awake s = true)
    (hc : exec c s = live s fun s => .next (pathWrite path a v s)) (heffect : effect (countWrite (landWrite (pathMaster path) a v s))) :
    Completes c s fun t =>
      (¬ (path = .jtag → jtagClocked s = true) → t = s) ∧
      ((path = .jtag → jtagClocked s = true) → ¬ writeVerdict (wayOf path a) path a v s = .done →
        t = { s with idn := { s.idn with denied := satInc 16 s.idn.denied } }) ∧
      ((path = .jtag → jtagClocked s = true) → writeVerdict (wayOf path a) path a v s = .done →
        t.idn.writes = satInc 16 s.idn.writes ∧ t.idn.denied = s.idn.denied ∧ effect t) := by
  refine .of_live (f := pathWrite path a v) hawake hc ?_
  unfold pathWrite
  by_cases hclock : path = .jtag → jtagClocked s = true
  · rw [if_neg (by simpa using hclock)]
    refine ⟨fun h => absurd hclock h, fun _ hrefused => ?_, fun _ hdone => ?_⟩
    · unfold diagWriteAs
      split
      next h => exact absurd h hrefused
      next => rfl
    · have hidn := diagWriteAs_idn (wayOf path a) path a v s
      rw [if_pos hdone] at hidn
      refine ⟨congrArg (·.writes) hidn, congrArg (·.denied) hidn, ?_⟩
      unfold diagWriteAs
      rw [hdone]
      exact heffect
  · rw [if_pos (by simpa using hclock)]
    exact ⟨fun _ => rfl, fun h => absurd h hclock, fun h => absurd h hclock⟩

/-- The trigger fields as GOV_TRACE_TRIG gives them (Table 7.7). -/
def Triggers (v : Word) (t : State) : Prop :=
  t.gov.src = bitsOf 62 60 v.toNat ∧ t.gov.trigCh = bitsOf 59 57 v.toNat ∧ t.gov.pre = bitsOf 48 42 v.toNat ∧ t.gov.edge = bitOf 41 v.toNat ∧
    t.gov.trigEvent = BitVec.ofNat 8 (bitsOf 56 49 v.toNat) ∧ t.gov.level = signedOf 32 (bitsOf 31 0 v.toNat)
/-- The trigger fields are written, before the capture is armed or triggered. -/
def trigWritten (v : Word) (s : State) : State :=
  { s with gov := { s.gov with
    src := bitsOf 62 60 v.toNat, trigCh := bitsOf 59 57 v.toNat, trigEvent := BitVec.ofNat 8 (bitsOf 56 49 v.toNat), pre := bitsOf 48 42 v.toNat, edge := bitOf 41 v.toNat,
    fire := bitOf 40 v.toNat, level := signedOf 32 (bitsOf 31 0 v.toNat) } }
theorem putTraceTrig_eq (v : Word) (s : State) : putTraceTrig v s =
    if bitOf 40 v.toNat && bitsOf 62 60 v.toNat = 0 then traceFire (if bitOf 63 v.toNat then armTrace (trigWritten v s) else trigWritten v s)
    else if bitOf 63 v.toNat then armTrace (trigWritten v s) else trigWritten v s := rfl
/-- Arming and triggering leave the trigger fields. -/
theorem Triggers.of_regs {v : Word} {s t : State} (h : Triggers v s)
    (ht : ∃ armed time, traceRegs t.gov = { traceRegs s.gov with armed := armed, traceTime := time }) : Triggers v t := by
  obtain ⟨armed, time, ht⟩ := ht
  obtain ⟨hsrc, hch, hpre, hedge, hevent, hlevel⟩ := h
  exact ⟨(congrArg (·.src) ht).trans hsrc, (congrArg (·.trigCh) ht).trans hch, (congrArg (·.pre) ht).trans hpre, (congrArg (·.edge) ht).trans hedge,
    (congrArg (·.trigEvent) ht).trans hevent, (congrArg (·.level) ht).trans hlevel⟩
theorem Triggers.armTrace {v : Word} {s : State} (h : Triggers v s) : Triggers v (armTrace s) := h.of_regs ⟨_, _, traceRegs_armTrace s⟩
theorem Triggers.traceFire {v : Word} {s : State} (h : Triggers v s) : Triggers v (traceFire s) := by
  by_cases harmed : s.gov.armed = true
  · exact h.of_regs ⟨_, _, traceRegs_traceFire harmed⟩
  · rwa [traceFire_of_idle (by simpa using harmed)]
theorem trigWritten_triggers (v : Word) (s : State) : Triggers v (trigWritten v s) := ⟨rfl, rfl, rfl, rfl, rfl, rfl⟩
theorem putTraceTrig_triggers (v : Word) (s : State) : Triggers v (putTraceTrig v s) := by
  have harm : Triggers v (if bitOf 63 v.toNat then armTrace (trigWritten v s) else trigWritten v s) := by
    split
    · exact (trigWritten_triggers v s).armTrace
    · exact trigWritten_triggers v s
  rw [putTraceTrig_eq]
  split
  · exact harm.traceFire
  · exact harm

theorem armed_armTrace (s : State) : (armTrace s).gov.armed = true := congrArg (·.armed) (traceRegs_armTrace s)
theorem fired_triggered {s : State} (h : s.gov.armed = true) : (traceFire s).gov.armed = false ∧ (traceFire s).gov.traceTime = devTime s :=
  ⟨congrArg (·.armed) (traceRegs_traceFire h), congrArg (·.traceTime) (traceRegs_traceFire h)⟩
theorem devTime_armTrace (s : State) : devTime (armTrace s) = devTime s := by
  unfold devTime
  rw [(armTrace_only s).aon]

/-- ARM with or without FIRE (R236). -/
theorem putTraceTrig_armed {v : Word} (s : State) (harm : bitOf 63 v.toNat = true) :
    (bitOf 40 v.toNat = false ∨ bitsOf 62 60 v.toNat ≠ 0 → (putTraceTrig v s).gov.armed = true ∧
      ∀ k : Fin 8, (getTrace s k.val).mode ≠ 0 → (getTrace (putTraceTrig v s) k.val).state = 1 ∧ (getTrace (putTraceTrig v s) k.val).left = 0) ∧
    (bitOf 40 v.toNat = true → bitsOf 62 60 v.toNat = 0 → (putTraceTrig v s).gov.armed = false ∧ (putTraceTrig v s).gov.traceTime = devTime s) := by
  rw [putTraceTrig_eq, if_pos harm]
  refine ⟨fun hwait => ?_, fun hfire hsrc => ?_⟩
  · rw [if_neg (by simpa using fun h => hwait.resolve_left (by simp [h]))]
    refine ⟨armed_armTrace _, fun k hmode => ?_⟩
    have hused : (getTrace (trigWritten v s) k.val).mode ≠ 0 := hmode
    have hk := getTrace_armTrace (trigWritten v s) k.isLt
    rw [if_neg hused] at hk
    exact ⟨congrArg (·.state) hk, congrArg (·.left) hk⟩
  · rw [if_pos (by simp [hfire, hsrc])]
    obtain ⟨harmed, htime⟩ := fired_triggered (armed_armTrace (trigWritten v s))
    exact ⟨harmed, htime.trans (devTime_armTrace _)⟩
/-- FIRE with or without ARM (R236, R237). -/
theorem putTraceTrig_fired {v : Word} (s : State) (hfire : bitOf 40 v.toNat = true) :
    (bitOf 63 v.toNat = false → bitsOf 62 60 v.toNat = 0 → s.gov.armed = true →
      (putTraceTrig v s).gov.armed = false ∧ (putTraceTrig v s).gov.traceTime = devTime s ∧
        ∀ k : Fin 8, (getTrace s k.val).state = 1 → (getTrace (putTraceTrig v s) k.val).state = 2 ∧
          (getTrace (putTraceTrig v s) k.val).trigIdx = (getTrace s k.val).writeIdx ∧
          (getTrace (putTraceTrig v s) k.val).left = 65536 - 1024 * bitsOf 48 42 v.toNat) ∧
    (bitOf 63 v.toNat = false → bitsOf 62 60 v.toNat ≠ 0 → (putTraceTrig v s).gov.armed = s.gov.armed ∧ (putTraceTrig v s).gov.trace = s.gov.trace) := by
  rw [putTraceTrig_eq]
  refine ⟨fun harm hsrc harmed => ?_, fun harm hsrc => ?_⟩
  · rw [if_pos (by simp [hfire, hsrc]), if_neg (by simp [harm])]
    have hwas : (trigWritten v s).gov.armed = true := harmed
    obtain ⟨hoff, htime⟩ := fired_triggered hwas
    refine ⟨hoff, htime, fun k hruns => ?_⟩
    have hk := getTrace_traceFire hwas k.isLt
    have hstate : (getTrace (trigWritten v s) k.val).state = 1 := hruns
    rw [fired, if_pos hstate] at hk
    exact ⟨congrArg (·.state) hk, congrArg (·.trigIdx) hk, congrArg (·.left) hk⟩
  · rw [if_neg (by simp [hsrc]), if_neg (by simp [harm])]
    exact ⟨rfl, rfl⟩
theorem armed_eachTrace (f : TraceCh → TraceCh) (s : State) : (each (List.range 8) (fun k s => modTrace s k f) s).gov.armed = s.gov.armed :=
  congrArg (·.armed) (traceRegs_eachTrace f s)
/-- An armed capture is disarmed (R237). -/
def disarmed (s : State) : State :=
  if s.gov.armed then
    each (List.range 8) (fun k s => modTrace s k fun t => if t.state = 1 then { t with state := 0 } else t) { s with gov := { s.gov with armed := false } }
  else s
theorem disarmed_armed (s : State) : (disarmed s).gov.armed = false := by
  unfold disarmed
  split
  · rw [armed_eachTrace]
  next h => simpa using h
theorem getTrace_disarmed {s : State} (h : s.gov.armed = true) (k : Fin 8) : (getTrace (disarmed s) k.val).state ≠ 1 := by
  unfold disarmed
  rw [if_pos h, getTrace_eachTrace _ _ k.isLt]
  split
  · exact Nat.zero_ne_one
  · assumption
/-- GOV_TRACE_CFG_c (R237). -/
theorem putTraceCfg_written (c : Fin 8) (v : Word) (s : State) :
    (putTraceCfg c.val v s).gov.armed = false ∧ (getTrace (putTraceCfg c.val v s) c.val).mode = bitsOf 63 62 v.toNat ∧
      (getTrace (putTraceCfg c.val v s) c.val).ctx = bitsOf 61 54 v.toNat ∧ (getTrace (putTraceCfg c.val v s) c.val).tap = bitsOf 53 49 v.toNat ∧
      (getTrace (putTraceCfg c.val v s) c.val).decim = bitsOf 48 33 v.toNat ∧
      ∀ k : Fin 8, s.gov.armed = true → (getTrace (putTraceCfg c.val v s) k.val).state ≠ 1 := by
  have hput : putTraceCfg c.val v s = modTrace (disarmed s) c.val fun t =>
      { t with mode := bitsOf 63 62 v.toNat, ctx := bitsOf 61 54 v.toNat, tap := bitsOf 53 49 v.toNat, decim := bitsOf 48 33 v.toNat } := rfl
  rw [hput, getTrace_modTrace]
  refine ⟨disarmed_armed s, rfl, rfl, rfl, rfl, fun k h => ?_⟩
  by_cases hk : k.val = c.val
  · rw [hk, getTrace_modTrace]
    exact hk ▸ getTrace_disarmed h k
  · rw [getTrace_modTrace_other _ _ hk]
    exact getTrace_disarmed h k

end Sys2Proof.Machine
end

section
/-! The injectors' registers, and the writes over a path (O48). -/

namespace Sys2Proof.Machine
set_option Elab.async false

-- The registers of the injectors (R655, R656) and the writes of O48.

theorem bitOf_or_twoPow (w : Word) {k : Nat} (hk : k < 64) : bitOf k (w ||| BitVec.twoPow 64 k).toNat = true := by
  unfold bitOf
  rw [BitVec.testBit_toNat]
  simp [hk]

theorem reportAll_head_dev (r : Report) (s : State) :
    (captureFirst [r] (each [r] (fun r s => mqNote 20 (countReport r s)) s)).dev = s.dev := by
  rw [(captureFirst_only ..).dev, each_cons, each_nil, (mqNote_only ..).dev, (countReport_only ..).dev]
/-- A report that does not hold leaves the device state. -/
theorem report_dev_of_not_hold {r : Report} (s : State) (h : r.hold = false) : (report r s).dev = s.dev := by
  unfold report reportAll
  rw [List.filter_cons_of_neg (by simp [h]), List.filter_nil, each_nil]
  exact reportAll_head_dev r s
theorem enterHold_from {event : BitVec 8} {injected : Bool} {s : State} (h : holdsFrom s.dev = true) : (enterHold event injected s).flt.from_ = s.dev := by
  unfold enterHold
  rw [if_pos h, (post_only ..).flt, endVisits_flt]
theorem report_from {r : Report} {s : State} (hold : r.hold = true) (h : holdsFrom s.dev = true) : (report r s).flt.from_ = s.dev := by
  have hdev := reportAll_head_dev r s
  unfold report reportAll
  rw [List.filter_cons_of_pos hold, List.filter_nil, each_cons (xs := []), each_nil]
  rw [enterHold_from (hdev.symm ▸ h), hdev]
theorem report_real_of_injected {r : Report} (s : State) (h : r.injected = true) : (report r s).flt.real = s.flt.real := by
  have hcounts : (report r s).flt.real = countSource false [r] s.flt.real := countsOf_reportAll false [r] s
  simpa [countSource, h] using hcounts

/-- The report of INJ_FLT_REPORT (R655). -/
def injectedReport (v : Word) : Report := {
  master := BitVec.ofNat 8 (bitsOf 57 50 v.toNat), cause := BitVec.ofNat 4 (bitsOf 61 58 v.toNat), mem := BitVec.ofNat 7 (bitsOf 49 43 v.toNat),
  event := BitVec.ofNat 8 (bitsOf 42 35 v.toNat), hold := bitOf 62 v.toNat, injected := true }
theorem putFltReport_of_go {v : Word} (s : State) (hgo : bitOf 63 v.toNat = true) : ∃ t : State,
    putFltReport v s = report (injectedReport v) t ∧ t.diag.fltReport = (v &&& 0x7FFFFFFFFFFFFFFF) ∧ t.flt = s.flt ∧ t.dev = s.dev :=
  ⟨_, if_pos hgo, rfl, rfl, rfl⟩
/-- An injected report is counted as injected, and holds where the write asks for it (R655). -/
theorem putFltReport_reports {v : Word} (s : State) (hgo : bitOf 63 v.toNat = true) :
    (putFltReport v s).diag.fltReport = (v &&& 0x7FFFFFFFFFFFFFFF) ∧ (putFltReport v s).flt.real = s.flt.real ∧
      (bitOf 62 v.toNat = false → (putFltReport v s).dev = s.dev) ∧
      (bitOf 62 v.toNat = true → holdsFrom s.dev = true → (putFltReport v s).dev = .faultHold ∧ (putFltReport v s).flt.from_ = s.dev) := by
  obtain ⟨t, hput, hdiag, hflt, hdev⟩ := putFltReport_of_go s hgo
  rw [hput, (report_only ..).diag, report_real_of_injected t rfl, hdiag, hflt]
  refine ⟨rfl, rfl, fun hfree => (report_dev_of_not_hold t hfree).trans hdev, fun hold h => ?_⟩
  rw [← hdev] at h ⊢
  exact ⟨(report_holds hold h).1, report_from hold h⟩

theorem storeTest_diag (mem at_ : Nat) (d : Word) (s : State) : (storeTest mem at_ d s).diag = s.diag := (storeTest_only ..).diag
/-- A test write (R528, R529) tags the word that it names, where it names one and the table has room. -/
theorem eccGo_outcome (source : BitVec 8) (s : State) :
    (testWord s = none → (eccGo source s).diag.eccStatus = 1 ∧ (eccGo source s).diag.eccTags = s.diag.eccTags ∧ (eccGo source s).mpd = s.mpd ∧
      (eccGo source s).mrc = s.mrc) ∧
    ∀ x, testWord s = some x → ∀ rest, rest = s.diag.eccTags.filter (fun y => ¬ (y.1 = x.1 ∧ y.2.1 = x.2)) →
      (16 ≤ rest.length → (eccGo source s).diag.eccStatus = 2 ∧ (eccGo source s).diag.eccTags = s.diag.eccTags) ∧
      (rest.length < 16 → (eccGo source s).diag.eccStatus = 0 ∧
        (eccGo source s).diag.eccTags = rest ++ [(x.1, x.2, s.diag.eccCheck ^^^ secDedCheck s.diag.eccData)]) := by
  refine ⟨fun hnone => ?_, fun x hx rest hrest => ?_⟩
  · unfold eccGo
    rw [hnone]
    exact ⟨rfl, rfl, rfl, rfl⟩
  · have hrest : (dropTag x.1 x.2 s).diag.eccTags = rest := by
      rw [hrest]
      refine List.filter_congr fun y _ => ?_
      simp
    unfold eccGo
    rw [hx]
    dsimp only
    rw [hrest]
    refine ⟨fun hfull => ?_, fun hroom => ?_⟩
    · rw [if_pos hfull]
      exact ⟨rfl, rfl⟩
    · rw [if_neg (Nat.not_le.mpr hroom), (post_only ..).diag]
      refine ⟨rfl, ?_⟩
      dsimp only
      rw [storeTest_diag, hrest]

theorem injectHalt_of_running {ch : Nat} {s : State} (hfree : s.diag.treHaltPending.contains ch = false) (hstate : (getTre s ch).state = 1)
    (hruns : (getTre s ch).running = true) : (getTre (injectHalt ch s) ch).state = 3 := by
  unfold injectHalt
  rw [hfree, hstate, hruns, if_neg (by decide), if_pos (by decide), getTre_haltChannel, getTre_modTre]
  rfl
theorem injectHalt_of_idle {ch : Nat} {s : State} (hfree : s.diag.treHaltPending.contains ch = false) (hstate : (getTre s ch).state ≠ 3)
    (hidle : (getTre s ch).state ≠ 1 ∨ (getTre s ch).running = false) :
    injectHalt ch s = { s with diag := { s.diag with treHaltPending := s.diag.treHaltPending ++ [ch] } } := by
  unfold injectHalt
  rw [hfree, if_neg (by simp [hstate]), if_neg]
  rcases hidle with h | h
  · simp [h]
  · simp [h]
theorem injectHalt_channel (ch : Nat) (s : State) : (injectHalt ch s).diag.treHaltChannel = s.diag.treHaltChannel := by
  unfold injectHalt
  split
  · rfl
  split
  · rw [(haltChannel_only ..).diag]
  · rfl
theorem putTreHalt_of_go {v : Word} (s : State) (hgo : bitOf 63 v.toNat = true) :
    putTreHalt v s = injectHalt (bitsOf 61 56 v.toNat) { s with diag := { s.diag with treHaltChannel := BitVec.ofNat 6 (bitsOf 61 56 v.toNat) } } := if_pos hgo
/-- INJ_TRE_HALT (R656) at once, or before the channel's next descriptor. -/
theorem putTreHalt_outcome {v : Word} (s : State) (hgo : bitOf 63 v.toNat = true) :
    (putTreHalt v s).diag.treHaltChannel.toNat = bitsOf 61 56 v.toNat ∧
      (s.diag.treHaltPending.contains (bitsOf 61 56 v.toNat) = false → (getTre s (bitsOf 61 56 v.toNat)).state = 1 →
        (getTre s (bitsOf 61 56 v.toNat)).running = true → (getTre (putTreHalt v s) (bitsOf 61 56 v.toNat)).state = 3) ∧
      (s.diag.treHaltPending.contains (bitsOf 61 56 v.toNat) = false → (getTre s (bitsOf 61 56 v.toNat)).state ≠ 3 →
        (getTre s (bitsOf 61 56 v.toNat)).state ≠ 1 ∨ (getTre s (bitsOf 61 56 v.toNat)).running = false →
        (putTreHalt v s).diag.treHaltPending = s.diag.treHaltPending ++ [bitsOf 61 56 v.toNat] ∧ (putTreHalt v s).tre = s.tre) := by
  rw [putTreHalt_of_go s hgo]
  refine ⟨?_, fun hfree hstate hruns => injectHalt_of_running hfree hstate hruns, fun hfree hstate hidle => ?_⟩
  · rw [injectHalt_channel]
    exact Nat.mod_eq_of_lt (Nat.mod_lt _ (Nat.two_pow_pos _))
  · have h := injectHalt_of_idle (s := { s with diag := { s.diag with treHaltChannel := BitVec.ofNat 6 (bitsOf 61 56 v.toNat) } }) hfree hstate hidle
    exact ⟨congrArg (·.diag.treHaltPending) h, congrArg (·.tre) h⟩

theorem getInj_countWrite (s : State) (n : Nat) : getInj (countWrite s) n = getInj s n := rfl
/-- Settles O48: a write over a path is refused, counted, or lands; what each register's write does is said register by register. -/
theorem registersAreWrittenOverPaths : Obligations.RegistersAreWrittenOverPaths := by
  unfold Obligations.RegistersAreWrittenOverPaths
  intro s hawake path wrote trig
  have hgo (w : Word) : bitOf 63 (w ||| BitVec.twoPow 64 63).toNat = true := bitOf_or_twoPow w (by decide)
  refine ⟨?_, ?_, fun ch v => ?_, fun w => ?_, fun w => ?_, fun w => ?_, fun w => ?_, fun w => ?_, fun port v => ?_, fun a v => ?_⟩
  · refine .of_pathWrite hawake rfl ?_
    rw [landWrite_clear]
    rfl
  · refine .of_pathWrite hawake rfl ?_
    rw [landWrite_clear]
    rfl
  · refine .of_pathWrite hawake rfl ?_
    rw [landWrite_traceCfg]
    exact putTraceCfg_written ch v s
  · refine .of_pathWrite hawake rfl ?_
    rw [landWrite_trig]
    exact ⟨putTraceTrig_triggers _ s, putTraceTrig_armed s (hgo w)⟩
  · refine .of_pathWrite hawake rfl ?_
    rw [landWrite_trig]
    exact ⟨putTraceTrig_triggers _ s, putTraceTrig_fired s (bitOf_or_twoPow w (by decide))⟩
  · refine .of_pathWrite hawake rfl ?_
    rw [landWrite_fltReport]
    exact putFltReport_reports s (hgo w)
  · refine .of_pathWrite hawake rfl ?_
    rw [landWrite_ecc, if_pos (hgo w)]
    obtain ⟨hnone, hsome⟩ := eccGo_outcome (pathMaster path) s
    exact ⟨hnone, fun x hx => hsome x hx _ rfl⟩
  · refine .of_pathWrite hawake rfl ?_
    rw [landWrite_treHalt]
    exact putTreHalt_outcome s (hgo w)
  · refine .of_pathWrite hawake rfl ?_
    rw [landWrite_linkCfg]
    unfold putLinkCfg
    rw [getInj_countWrite, getInj_modInj]
  · refine .of_pathWrite hawake rfl ?_
    refine ⟨fun ha => ?_, fun ha => ?_, fun ha => ?_, fun ha => ?_, fun ha => ?_, fun ha => ?_, fun p ha => ?_⟩
    · rw [ha]
      exact congrArg (·.flt) landWrite_clear
    · rw [ha]; rfl
    · rw [ha]; rfl
    · rw [ha]; rfl
    · rw [ha]; rfl
    · rw [ha]
      exact putTraceTrig_triggers v s
    · rw [ha, landWrite_prob, getInj_countWrite, getInj_modInj]

end Sys2Proof.Machine
end

section
/-! A lost request that stops the part (O21). -/

namespace Sys2Proof.Machine
set_option Elab.async false

theorem infoOf_address_eq (p : Word) : ∃ c : Nat, c = infoCrcOf (p.setWidth 33152 <<< 32832) ∧
    infoOf 0 0 false p = (p.setWidth 33152 <<< 32832) ||| ((BitVec.ofNat 33152 c) <<< 33120) := by
  refine ⟨_, rfl, ?_⟩
  have hb : (BitVec.setWidth 33152 (0 : Block) ||| BitVec.setWidth 33152 (0 : Word) <<< 32768 ||| p.setWidth 33152 <<< 32832 ||| (if false = true then BitVec.twoPow 33152 32896 else 0))
      = p.setWidth 33152 <<< 32832 := by
    simp
  unfold infoOf
  dsimp only
  rw [hb]
theorem infoData_address (p : Word) : infoData (infoOf 0 0 false p) = 0 := by
  obtain ⟨c, -, h⟩ := infoOf_address_eq p
  rw [h]
  unfold infoData
  refine BitVec.eq_of_getLsbD_eq fun i hi => ?_
  simp [BitVec.getLsbD_or]
theorem infoHtag_address (p : Word) : infoHtag (infoOf 0 0 false p) = 0 := by
  obtain ⟨c, -, h⟩ := infoOf_address_eq p
  rw [h]
  unfold infoHtag
  refine BitVec.eq_of_getLsbD_eq fun i hi => ?_
  simp [BitVec.getLsbD_setWidth, BitVec.getLsbD_or, BitVec.getLsbD_shiftLeft]
  omega
theorem infoPoison_address (p : Word) : infoPoison (infoOf 0 0 false p) = false := by
  obtain ⟨c, -, h⟩ := infoOf_address_eq p
  rw [h]
  unfold infoPoison
  simp [BitVec.getLsbD_setWidth, BitVec.getLsbD_or, BitVec.getLsbD_shiftLeft]
theorem infoPaddr_address (p : Word) : infoPaddr (infoOf 0 0 false p) = p := by
  obtain ⟨c, -, h⟩ := infoOf_address_eq p
  rw [h]
  unfold infoPaddr
  refine BitVec.eq_of_getLsbD_eq fun i hi => ?_
  simp [BitVec.getLsbD_setWidth, BitVec.getLsbD_or, BitVec.getLsbD_shiftLeft]
  simp only [show i < 64 from hi, show 32832 + i < 33152 from by omega, show i < 33152 from by omega, show 32832 + i < 33120 from by omega]
  simp
theorem infoReserved_address (p : Word) : infoReserved (infoOf 0 0 false p) = 0 := by
  obtain ⟨c, -, h⟩ := infoOf_address_eq p
  rw [h]
  unfold infoReserved
  refine BitVec.eq_of_getLsbD_eq fun i hi => ?_
  simp [BitVec.getLsbD_setWidth, BitVec.getLsbD_or, BitVec.getLsbD_shiftLeft]
  exact fun _ => ⟨fun _ _ _ => BitVec.getLsbD_of_ge _ _ (by omega), fun _ _ => by omega⟩
theorem xor_infoCrcOf_of_eq {a b : Info} (h : a = b) : Nat.xor (infoCrcOf a) (infoCrcOf b) = 0 := by
  subst h
  exact Nat.xor_self _
theorem shifted_zero : BitVec.setWidth 33152 0#64 <<< 32832 = (0 : Info) := by
  rw [BitVec.setWidth_zero, BitVec.zero_shiftLeft]
  rfl
theorem addrCrc_eq_zero {a : Word} (h : a.setWidth 33152 <<< 32832 = (0 : Info)) : addrCrc a = 0 := by
  unfold addrCrc
  exact xor_infoCrcOf_of_eq h
/-- A lost sector whose one other member shows the lost one's own address, and carries it alone, is reconstructed as that member (R160). -/
theorem reconstruct_same_address {m : Info} {p : Word} (hbits : infoOf (infoData m) (infoHtag m) (infoPoison m) p = m) (haddress : infoPaddr m = p)
    (hreserved : infoReserved m = 0) : reconstruct [m] p = some m := by
  have hx : (0 : Info) ^^^ m = m := BitVec.zero_xor
  have hc : Nat.xor 0 (infoCrc m) = infoCrc m := Nat.zero_xor _
  unfold reconstruct
  simp only [List.foldl_cons, List.foldl_nil, hx, haddress, BitVec.xor_self, addrCrc_eq_zero shifted_zero, hbits, hreserved]
  simp only [Bool.and_eq_true, decide_eq_true_eq]
  exact if_pos ⟨hc.symm, trivial⟩
theorem reconstruct_address (p : Word) : reconstruct [infoOf 0 0 false p] p = some (infoOf 0 0 false p) :=
  reconstruct_same_address (by rw [infoData_address, infoHtag_address, infoPoison_address]) (infoPaddr_address p) (infoReserved_address p)

/-- A sector on rung 7 that is reconstructed stands in a defective place (R160). -/
theorem tryReconstruct_last_rung {s : State} {x : Sector} {m : Info} {p : Word}
    (hopen : (x.info.isSome || decide (x.rung < 2) || decide (x.rung = 8) || x.followUp || (x.tried && !false)) = false) (htried : x.tried = false) (hrung : x.rung = 7)
    (hinfos : (members s x).map (fun h => (findSec s x.arm x.row h x.track x.slot).bind (·.info)) = [some m]) (hkept : secLostHead s x = false)
    (hpaddr : paddrOf (enterRung 7 s).layout.fmtId (secPlace (enterRung 7 s) x) = p) (hrec : reconstruct [m] p = some m) (hpoison : infoPoison m = false) :
    tryReconstruct false x s = markDefective { x with info := some m, tried := true } (dropReread x (deliverInfo x m (post 0x49 mBolter [] (leaveRung 7 (enterRung 7 s))))) := by
  have hall : ([some m].all fun i => i.isSome) = true := rfl
  have hread : [some m].filterMap id = [m] := rfl
  unfold tryReconstruct
  rw [if_neg (ne_true_of_eq_false hopen), hinfos]
  dsimp only
  rw [if_pos hall, hkept, htried, if_neg (by decide), hpaddr, hread, hrec]
  dsimp only
  rw [if_neg Bool.false_ne_true, hpoison, Bool.and_false, if_neg (by decide), if_pos hrung]

/-- The sector that was read: it carries the lost one's address. -/
def goodInfo : Info := infoOf 0 0 false (paddrOf 0 { arm := 0, head := 0, zone := 1, track := 32, slot := 0 })
/-- Island 0 reads arm 0, head 0, and a sector there waits on the last rung for its second candidate. The other head of the row has its sector,
so that the lost one is reconstructed at rung 7 and its place is defective; the image gives no zone that could take it. -/
def lastCandidateState : State := {
  dev := .parked, start := { inReset := false, powerOnReset := false },
  img := { heads := 2, zones := [(0, [{}])] },
  islands := [(0, { assigned := true, requests := [(0, 0)], sbuf := [{}] })],
  bol := { sectors := [{ head := 1, info := some goodInfo }, { rung := 6, second := true }] } }
/-- The lost sector on rung 7. -/
def lostSector : Sector := { rung := 7 }
/-- The lost sector enters rung 7. -/
def lastRungState : State := putSec lostSector (modIsl (stopHead 0 lastCandidateState) 0 fun i => { i with requests := [] })
def reconstructedState : State :=
  markDefective { lostSector with info := some goodInfo, tried := true }
    (dropReread lostSector (deliverInfo lostSector goodInfo (post 0x49 mBolter [] (leaveRung 7 (enterRung 7 lastRungState)))))

theorem lostSector_infos : (members lastRungState lostSector).map (fun h =>
    (findSec lastRungState lostSector.arm lostSector.row h lostSector.track lostSector.slot).bind (·.info)) = [some goodInfo] := rfl
theorem lostSector_paddr : paddrOf (enterRung 7 lastRungState).layout.fmtId (secPlace (enterRung 7 lastRungState) lostSector) =
    paddrOf 0 { arm := 0, head := 0, zone := 1, track := 32, slot := 0 } := by decide +kernel
theorem lostSector_headFitted : secLostHead lastRungState lostSector = false := by decide +kernel
theorem reconstruct_goodInfo : reconstruct [goodInfo] (paddrOf 0 { arm := 0, head := 0, zone := 1, track := 32, slot := 0 }) = some goodInfo := by
  unfold goodInfo
  exact reconstruct_address _
theorem goodInfo_not_poisoned : infoPoison goodInfo = false := by
  unfold goodInfo
  exact infoPoison_address _
theorem tryReconstruct_lostSector : tryReconstruct false lostSector lastRungState = reconstructedState :=
  tryReconstruct_last_rung (by decide +kernel) rfl rfl lostSector_infos lostSector_headFitted lostSector_paddr reconstruct_goodInfo goodInfo_not_poisoned
/-- The sectors of the row: the member is there already, and the lost one is reconstructed. -/
theorem tryEquation_lastRung : tryEquation false 0 0 0 0 lastRungState = reconstructedState := by
  unfold tryEquation
  have hsectors : (lastRungState.bol.sectors.filter fun x => x.arm = 0 && x.row = 0 && x.track = 0 && x.slot = 0) = [{ head := 1, info := some goodInfo }, lostSector] := rfl
  rw [hsectors, each_cons, each_cons, each_nil]
  have hmember : tryReconstruct false { head := 1, info := some goodInfo } lastRungState = lastRungState := rfl
  have hfirst : findSec lastRungState 0 0 1 0 0 = some { head := 1, info := some goodInfo } := rfl
  have hsecond : findSec lastRungState 0 0 0 0 0 = some lostSector := rfl
  dsimp only
  rw [hfirst]
  dsimp only
  rw [hmember]
  rw [show lostSector.head = 0 from rfl, hsecond]
  exact tryReconstruct_lostSector
theorem climb_lostSector : climb 7 { rung := 6, second := true } (modIsl (stopHead 0 lastCandidateState) 0 fun i => { i with requests := [] }) =
    settleLost 0 0 reconstructedState := by
  rw [← tryEquation_lastRung]
  unfold climb
  rw [if_neg (by decide), if_neg (by decide)]
  rfl
theorem dropRequests_lastCandidate : dropRequests 0 (fun _ => true) (stopHead 0 lastCandidateState) = settleLost 0 0 reconstructedState := by
  have hgone : ((getIsl (stopHead 0 lastCandidateState) 0).requests.filter fun _ => true).flatMap (fun q => (((getIsl (stopHead 0 lastCandidateState) 0).sbuf.filter fun e => e.frame = q.1).flatMap
      fun e => waiting (stopHead 0 lastCandidateState) 0 e.slot q.2)) = [{ rung := 6, second := true }] := by decide +kernel
  have hleft : ∀ s : State, modIsl s 0 (fun i => { i with requests := i.requests.filter fun _ => !true }) = modIsl s 0 fun i => { i with requests := [] } := fun s =>
    congrArg (modIsl s 0) (funext fun i => by rw [show (i.requests.filter fun _ => !true) = [] by simp])
  unfold dropRequests
  dsimp only
  rw [hgone, hleft]
  unfold lostFrame
  rw [each_cons, each_nil]
  exact climb_lostSector

/-- The island that has failed, with its head suspended, after the row's last sector is settled. -/
def failedIslandState : State :=
  modHead (modIsl (settleLost 0 0 reconstructedState) 0 fun i => { i with failed := true, state := 5, sbuf := [], steering := some 64 }) 0 fun h => { h with suspended := true }
theorem failIsland_lastCandidate : failIsland 0 0 true lastCandidateState = condition 0x46 mIsland 2 false [b1 0] failedIslandState := by
  have hassigned : (getIsl lastCandidateState 0).assigned = true := rfl
  have hhead : 8 * (getIsl lastCandidateState 0).arm + (getIsl lastCandidateState 0).head = 0 := rfl
  have hspare : freeSpare lastCandidateState = some 64 := by decide +kernel
  unfold failIsland
  dsimp only
  rw [if_neg (by decide +kernel), hhead, hassigned, if_pos rfl, if_pos rfl, if_pos rfl, if_pos rfl, if_pos rfl, hspare, dropRequests_lastCandidate]
  rfl
theorem failedIslandState_stops : (condition 0x46 mIsland 2 false [b1 0] failedIslandState).dev ≠ .parked := by decide +kernel
theorem exec_islandFail {s : State} (hawake : awake s = true) (island : Fin 68) (why : Fin 3) :
    exec (.islandFail island why) s = .next (failIsland island why true s) := if_pos hawake

/-- Refutes O21: a lost request may be the last of a sector whose other members are there; reconstructed at rung 7, the sector's place is
defective, and where no place can take it the head fails, beyond what the image allows, so that the part stops although the island has a spare. -/
theorem not_islandsAreSteeredAndHeadsSuspended : ¬ Obligations.IslandsAreSteeredAndHeadsSuspended := by
  unfold Obligations.IslandsAreSteeredAndHeadsSuspended
  intro h
  obtain ⟨hisland, -⟩ := h
  obtain ⟨hfail, -⟩ := hisland lastCandidateState rfl 0
  obtain ⟨t, ht, -, hbody⟩ := hfail 0
  obtain ⟨-, -, -, -, -, hdev⟩ := hbody rfl
  have hfollow : ∀ x ∈ lastCandidateState.bol.sectors, x.followUp = false := by
    intro x hx
    rcases List.mem_pair.1 hx with rfl | rfl
    · rfl
    · rfl
  have hspare : freeSpare lastCandidateState ≠ none := by decide +kernel
  have hexec : exec (.islandFail 0 0) lastCandidateState = .next (failIsland 0 0 true lastCandidateState) := exec_islandFail rfl 0 0
  have hnext := Host.Outcome.next.inj (hexec.symm.trans ht)
  rw [failIsland_lastCandidate] at hnext
  exact failedIslandState_stops ((congrArg State.dev hnext).trans ((hdev hfollow).2 (.inr hspare)))

end Sys2Proof.Machine
end

section
/-! A frame that stands twice in the ledger (O23). -/

namespace Sys2Proof.Machine
set_option Elab.async false

/-- Two dirty versions of one row stand under the same frame, in a table that no step of the part leaves so. -/
def doubledFrameState : State := {
  dev := .ready, start := { inReset := false, powerOnReset := false }, img := { arms := 1, heads := 2 },
  mpd := { dueRows := [0], ledger := [(0, { valid := true, state := 1, lba := 0 }), (0, { valid := true, state := 1, lba := 1 })] } }
theorem doubledFrameState_may : (heldRows doubledFrameState).filter (mayBuild doubledFrameState) = [0] := by decide +kernel
theorem doubledFrameState_held : heldBlocks doubledFrameState 0 = doubledFrameState.mpd.ledger := by decide +kernel

/-- Refutes O23: where a frame stands twice in the ledger, both of its entries are HELD blocks of the row, and after the build of the row the
frame's entry cannot have the address of both. -/
theorem not_rowsAreBuiltAndCommitted : ¬ Obligations.RowsAreBuiltAndCommitted := by
  unfold Obligations.RowsAreBuiltAndCommitted
  intro h
  obtain ⟨⟨t, -, -, hbuilt⟩, -⟩ := h doubledFrameState rfl
  rw [doubledFrameState_may] at hbuilt
  obtain ⟨row, hrow, -, -, -, -, -, -, -, -, hlba, -⟩ := hbuilt (List.cons_ne_nil _ _)
  rw [List.mem_singleton.1 hrow, doubledFrameState_held] at hlba
  have hfirst : (getEntry t 0).lba = 0 := hlba (0, { valid := true, state := 1, lba := 0 }) (.head _)
  have hsecond : (getEntry t 0).lba = 1 := hlba (0, { valid := true, state := 1, lba := 1 }) (.tail _ (.head _))
  exact absurd (hfirst.symm.trans hsecond) (by decide)

end Sys2Proof.Machine
end

section
/-! An unload that ends in the step of a stop (O15). -/

namespace Sys2Proof.Machine
set_option Elab.async false

/-- The last arm runs onto its ramp while a stop waits for it (Table 17.5), with the spindle at rest. -/
def stopWaitsForArmState : State := {
  dev := .ready, start := { inReset := false, powerOnReset := false }, img := { arms := 1, heads := 2, lists := [(0x20, [(13, 100)])] },
  flt := { stopStep := 2 }, ptn := { activeOut := true }, arms := [(0, { state := 6 })] }
theorem stopWaitsForArmState_retracts :
    (match exec (.unloadComplete 0) stopWaitsForArmState with | .next t => (getArm t 0).due | _ => [2]) ≠ [2] := by decide +kernel

/-- Refutes O15: where the unload that ends lets a stop go on to Stopped, ACTIVE_OUT falls in the same step, and RETRACT has then gone out on the
drive port and is due no more. -/
theorem not_armsLoadAndUnload : ¬ Obligations.ArmsLoadAndUnload := by
  unfold Obligations.ArmsLoadAndUnload
  intro h
  obtain ⟨-, -, -, ⟨t, ht, -, hramp⟩, -⟩ := h stopWaitsForArmState rfl 0
  obtain ⟨-, -, hdue⟩ := hramp rfl (by decide)
  have hretracts := stopWaitsForArmState_retracts
  rw [ht] at hretracts
  exact hretracts hdue

end Sys2Proof.Machine
end

section
/-! What stands of the hopper while commands complete, and what Stopped shows (R523, Table 17.5). -/

namespace Sys2Proof.Machine
set_option Elab.async false

-- What of the hopper stands while commands complete.

/-- A part of the hopper that commands, ports and deferred records have no share in. -/
structure HopPart {α : Type} (p : State → α) : Prop where
  modCmd : ∀ s arr f, p (modCmd s arr f) = p s
  modHopPort : ∀ s q f, p (modHopPort s q f) = p s
  nextDeferred : ∀ (s : State) n, p { s with hop := { s.hop with nextDeferred := n } } = p s
  of_only : ∀ {m : Units} {s t : State}, Only m s t → m.hop = false → p t = p s

variable {α : Type} {p : State → α}

theorem HopPart.issueRec (h : HopPart p) (q : Nat) (r : CplRec) (s : State) : p (issueRec q r s) = p s := by
  unfold Machine.issueRec
  rw [h.modHopPort]
  split
  · exact h.of_only (mirror_only ..) rfl
  · rfl
theorem HopPart.completeOne (h : HopPart p) (arr status info : Nat) (s : State) : p (completeOne arr status info s) = p s := by
  unfold Machine.completeOne
  split
  · rfl
  split
  · rfl
  rw [h.issueRec, dropGrants, h.modHopPort, h.of_only (releaseFrames_only _) rfl, h.of_only (unpin_only ..) rfl]
  exact (h.of_only (m := { mrc := true }) (.ite .refl (freeSlots_only ..)) rfl).trans (h.modCmd ..)
theorem HopPart.complete (h : HopPart p) (arr status info : Nat) (s : State) : p (complete arr status info s) = p s := by
  unfold Machine.complete
  split
  · rfl
  · exact (each_proj p _ _ _ fun _ _ => h.completeOne ..).trans (h.completeOne ..)
/-- The completion of every command on the way to Stopped, once the hopper has closed. -/
theorem HopPart.completeAll (h : HopPart p) (cause : BitVec 8) (s : State) :
    p (completeAll cause s) = p { s with hop := { s.hop with closed := true, stopCause := cause } } := by
  unfold Machine.completeAll
  refine each_proj p _ _ _ fun arr s => ?_
  split
  · rfl
  split
  · rfl
  split
  · exact (h.complete ..).trans (h.of_only (ackEntries_only ..) rfl)
  · refine (h.complete ..).trans ?_
    split
    · exact h.of_only (holdBackEntries_only ..) rfl
    · rfl
theorem HopPart.storeDeferred (h : HopPart p) (r : DeferredRec) (s : State) : p (storeDeferred r s) = p s := h.modHopPort ..
theorem HopPart.addDeferred (h : HopPart p) (r : DeferredRec) (s : State) : p (addDeferred r s) = p s := by
  unfold Machine.addDeferred
  dsimp only
  split
  · split
    · split
      · rfl
      · exact (h.of_only (mirror_only ..) rfl).trans (h.storeDeferred ..)
    · rfl
  · rw [h.of_only (mqNote_only ..) rfl, h.of_only (mirror_only ..) rfl, h.of_only (post_only ..) rfl]
    exact (h.storeDeferred ..).trans (h.nextDeferred ..)
theorem HopPart.raiseDeferred (h : HopPart p) (portB : Bool) (cause lba arrival : Nat) (tag : BitVec 16) (s : State) :
    p (raiseDeferred portB cause lba arrival tag s) = p s := by
  unfold Machine.raiseDeferred
  have hlisted := h.of_only (listBlock_only lba s) rfl
  dsimp only
  split
  · exact (h.addDeferred ..).trans hlisted
  · exact (h.of_only (mirror_only ..) rfl).trans ((h.storeDeferred ..).trans hlisted)
theorem HopPart.dropGone (h : HopPart p) (s : State) : p (dropGone s) = p s := by
  unfold Machine.dropGone
  refine (h.of_only (m := { mpd := true }) (.upd .refl) rfl).trans (each_proj p _ _ _ fun f s => ?_)
  dsimp only
  split
  · exact (h.raiseDeferred ..).trans ((h.of_only (post_only ..) rfl).trans (h.of_only (setEntry_only ..) rfl))
  · exact h.of_only (setEntry_only ..) rfl

/-- Whether nothing more is admitted, and why (R523). -/
def admission (s : State) : Bool × BitVec 8 := (s.hop.closed, s.hop.stopCause)
theorem admission_of_only {m : Units} {s t : State} (h : Only m s t) (hm : m.hop = false := by rfl) : admission t = admission s :=
  congrArg (fun hop : Hopper => (hop.closed, hop.stopCause)) (h.hop hm)
theorem admission_hopPart : HopPart admission := ⟨fun _ _ _ => rfl, fun _ _ _ => rfl, fun _ _ => rfl, fun h hm => admission_of_only h hm⟩
theorem completeAll_admission (cause : BitVec 8) (s : State) : admission (completeAll cause s) = (true, cause) := admission_hopPart.completeAll cause s

-- The end of a stop: the part in Stopped.

theorem startCoast_gates (s : State) : (startCoast s).spc.gates = false := by
  unfold startCoast setSpnMode
  rw [(noCurve_only _).spc, inverterOff_gates]
theorem dropActive_activeOut (s : State) : (dropActive s).ptn.activeOut = false := rfl
theorem dropActive_gates (s : State) : (dropActive s).spc.gates = false := by
  unfold dropActive
  extract_lets r u _ v
  have hu : u.spc.gates = false := by
    unfold u
    split
    · exact inverterOff_gates _
    · exact startCoast_gates _
  have hv : v.spc = u.spc := by
    unfold v
    split
    · rfl
    · rfl
  exact (congrArg SpindleCtl.gates hv).trans hu
theorem enterStopped_spc (cause : BitVec 8) (s : State) : (enterStopped cause s).spc = { (dropActive s).spc with stopping := false } := by
  have hdark : (each (List.range 8) armDark (endVisits (dropActive s))).spc = (dropActive s).spc :=
    (Only.each (m := { islands := true, heads := true }) (fun a s => armDark_only a s) .refl).spc.trans (endVisits_only _).spc
  unfold enterStopped
  dsimp only
  rw [hdark]
/-- What Stopped shows (Table 17.5): nothing is admitted, the gates are low and ACTIVE_OUT and the heartbeat are off. -/
structure StoppedBy (cause : BitVec 8) (t : State) : Prop where
  dev : t.dev = .stopped
  admission : admission t = (true, cause)
  activeOut : t.ptn.activeOut = false
  hbOn : t.ptn.hbOn = false
  gates : t.spc.gates = false
theorem enterStopped_stoppedBy (cause : BitVec 8) (s : State) : StoppedBy cause (enterStopped cause s) where
  dev := rfl
  admission := rfl
  activeOut := by
    have hdark : (each (List.range 8) armDark (endVisits (dropActive s))).ptn = (dropActive s).ptn :=
      (Only.each (m := { islands := true, heads := true }) (fun a s => armDark_only a s) .refl).ptn.trans (endVisits_only _).ptn
    unfold enterStopped
    dsimp only
    rw [hdark, dropActive_activeOut]
  hbOn := rfl
  gates := by rw [enterStopped_spc]; exact dropActive_gates s
theorem finalStop_stoppedBy (cause : BitVec 8) (s : State) : StoppedBy cause (finalStop cause s) := enterStopped_stoppedBy cause _

end Sys2Proof.Machine
end

section
/-! The way to Stopped (R272, R523). -/

namespace Sys2Proof.Machine
set_option Elab.async false

-- The way to Stopped (Table 17.5).

/-- A part of the state that no step of a stop changes before the part is in Stopped. -/
theorem stopWindow_only (s : State) :
    Only { gov := true, spn := true, spc := true, slu := true, tx := true } s
      (if s.spc.lost then startCoast s else if mayDrive s && !(lostArms s) then spindleStop s else s) :=
  .ite (startCoast_only s) (.ite (spindleStop_only s) .refl)
/-- A stop that waits for the arms or the spindle goes on, or is over (R523). -/
theorem advanceStop_begun {cause : BitVec 8} {s : State} (hstep : s.flt.stopStep = 2) (hcause : s.flt.stopCause = cause) (hclosed : admission s = (true, cause)) :
    admission (advanceStop s) = (true, cause) ∧ ((advanceStop s).dev = .stopped ∨ 2 ≤ (advanceStop s).flt.stopStep) := by
  have hlast : ∀ t : State, admission t = (true, cause) → t.flt.stopCause = cause → 2 ≤ t.flt.stopStep →
      admission (if t.flt.stopStep = 3 && (t.spn.mode = 0 || !t.ptn.activeOut || lostArms t || t.spc.lost) then finalStop t.flt.stopCause t else t) = (true, cause) ∧
      ((if t.flt.stopStep = 3 && (t.spn.mode = 0 || !t.ptn.activeOut || lostArms t || t.spc.lost) then finalStop t.flt.stopCause t else t).dev = .stopped ∨
        2 ≤ (if t.flt.stopStep = 3 && (t.spn.mode = 0 || !t.ptn.activeOut || lostArms t || t.spc.lost) then finalStop t.flt.stopCause t else t).flt.stopStep) := by
    intro t ht hc hs
    split
    · have hfinal := finalStop_stoppedBy t.flt.stopCause t
      exact ⟨hfinal.admission.trans (congrArg (Prod.mk true) hc), .inl hfinal.dev⟩
    · exact ⟨ht, .inr hs⟩
  unfold advanceStop
  refine hlast _ ?_ ?_ ?_
  · split
    · exact (admission_of_only (stopWindow_only { s with flt := { s.flt with stopStep := 3 } })).trans hclosed
    · exact hclosed
  · split
    · exact (congrArg (·.stopCause) (stopWindow_only { s with flt := { s.flt with stopStep := 3 } }).flt).trans hcause
    · exact hcause
  · split
    · exact Nat.le_of_lt (congrArg (·.stopStep) (stopWindow_only { s with flt := { s.flt with stopStep := 3 } }).flt).ge
    · exact hstep.ge
/-- From a state that the part cannot leave with its arms out, a stop is Stopped at once. -/
def stopsAtOnce (d : DevState) : Bool := d == .unconfigured || d == .configuring || d == .parked || d == .spinningUp || d == .standby
theorem stopsAtOnce_iff {d : DevState} : stopsAtOnce d = true ↔ d = .unconfigured ∨ d = .configuring ∨ d = .parked ∨ d = .spinningUp ∨ d = .standby := by
  cases d <;> decide
theorem stopSequence_atOnce {solo : Bool} {cause : BitVec 8} {s : State} (hdev : stopsAtOnce s.dev = true) (hstep : s.flt.stopStep = 0) :
    stopSequence solo cause s = finalStop cause (stopChannels (completeAll cause s)) := by
  unfold stopSequence
  rw [if_neg (not_not_intro hstep)]
  rcases stopsAtOnce_iff.1 hdev with h | h | h | h | h <;> rw [h]
theorem inService_iff {d : DevState} : inService d = true ↔ d = .loading ∨ d = .ready ∨ d = .faultHold ∨ d = .takeover := by
  cases d <;> decide
/-- What a stop from a state in service begins with: the commands have completed with its cause. -/
def stopOpened (cause : BitVec 8) (s : State) : State :=
  let t := stopChannels (completeAll cause (endVisits { s with start := { s.start with parkStep := 0 } }))
  { t with flt := { t.flt with stopCause := cause } }
/-- Its arms unload, where the part has them, and lost blocks are recorded. -/
def stopWaits (solo : Bool) (cause : BitVec 8) (s : State) : State :=
  let s := if solo && linkUp s 2 then post 0x85 mPartner [] (ptnSend (.failstop cause) s) else s
  let s := if ownsArms s then unloadAll s else s
  let fromLoading := s.dev == .loading || (s.dev == .faultHold && s.flt.from_ == .loading)
  let s := dropGone { s with hold := { s.hold with owed := !fromLoading, mirrorCopy := s.ptn.role = 2 || s.dev == .takeover } }
  { s with flt := { s.flt with stopStep := 2 } }
theorem stopSequence_inService {solo : Bool} {cause : BitVec 8} {s : State} (hdev : inService s.dev = true) (hstep : s.flt.stopStep = 0) :
    stopSequence solo cause s =
      (let t := stopOpened cause s
       if t.ptn.synced && t.ptn.role = 1 && !solo then
        let s := post 0x85 mPartner [] (ptnSend (.failstop cause) t)
        finalStop cause (dropActive { s with ptn := { s.ptn with hbOn := false } })
       else advanceStop (stopWaits solo cause t)) := by
  unfold stopSequence
  rw [if_neg (not_not_intro hstep)]
  split
  case h_8 =>
    unfold stopOpened
    generalize stopChannels (completeAll cause (endVisits { s with start := { s.start with parkStep := 0 } })) = t
    rfl
  all_goals next h => exact absurd (inService_iff.1 hdev) (by rw [h]; decide)
/-- The part notes that it stops (R523). -/
def stopMarked (s : State) : State := { s with flt := { s.flt with failstop := s.flt.failstop || (s.dev != .stopped && s.dev != .holdUp) } }
theorem failStop_eq (cause : BitVec 8) (s : State) : failStop cause s = stopSequence false cause (stopMarked s) := by
  unfold failStop failStopInj
  rw [Bool.false_and, if_neg Bool.false_ne_true]
  rfl
theorem failStop_stoppedBy {cause : BitVec 8} {s : State} (hdev : stopsAtOnce s.dev = true) (hstep : s.flt.stopStep = 0) : StoppedBy cause (failStop cause s) := by
  rw [failStop_eq, stopSequence_atOnce (s := stopMarked s) hdev hstep]
  exact finalStop_stoppedBy ..
theorem stopOpened_only (cause : BitVec 8) (s : State) :
    Only { start := true, flt := true, evt := true, alks := true, islands := true, heads := true, gov := true, mrc := true, slu := true, fan := true, tx := true, diag := true, mpd := true, links := true, injs := true, hop := true, tre := true, fls := true, free := true } s (stopOpened cause s) :=
  .upd ((stopChannels_only _).after ((completeAll_only ..).after ((endVisits_only _).after (.upd .refl))))
theorem admission_flt (s : State) (f : Flt) : admission { s with flt := f } = admission s := rfl
theorem stopOpened_admission (cause : BitVec 8) (s : State) : admission (stopOpened cause s) = (true, cause) := by
  unfold stopOpened
  dsimp only
  rw [admission_flt, admission_of_only (stopChannels_only _), completeAll_admission]
theorem stopWaits_begun {solo : Bool} {cause : BitVec 8} {s : State} (hadmission : admission s = (true, cause)) (hcause : s.flt.stopCause = cause) :
    (stopWaits solo cause s).flt.stopStep = 2 ∧ (stopWaits solo cause s).flt.stopCause = cause ∧ admission (stopWaits solo cause s) = (true, cause) := by
  unfold stopWaits
  extract_lets t u fromLoading _ v
  have ht : admission t = admission s ∧ t.flt = s.flt := by
    unfold t
    split
    · exact ⟨(admission_of_only (post_only ..)).trans (admission_of_only (ptnSend_only ..)), (post_only ..).flt.trans (ptnSend_only ..).flt⟩
    · exact ⟨rfl, rfl⟩
  have hu : admission u = admission t ∧ u.flt = t.flt := by
    unfold u
    split
    · exact ⟨admission_of_only (unloadAll_only _), (unloadAll_only _).flt⟩
    · exact ⟨rfl, rfl⟩
  have hv : admission v = admission u ∧ v.flt = u.flt := ⟨admission_hopPart.dropGone _, (dropGone_only _).flt⟩
  have hflt : v.flt.stopCause = cause := by rw [hv.2, hu.2, ht.2, hcause]
  exact ⟨rfl, hflt, hv.1.trans (hu.1.trans (ht.1.trans hadmission))⟩
theorem admission_iff {t : State} {cause : BitVec 8} : admission t = (true, cause) ↔ t.hop.closed = true ∧ t.hop.stopCause = cause := Prod.mk_inj
theorem StoppedBy.begun {cause : BitVec 8} {t : State} (s : State) (h : StoppedBy cause t) : StopBegun cause s t := by
  obtain ⟨hclosed, hcause⟩ := admission_iff.1 h.admission
  exact ⟨hclosed, hcause, .inl h.dev, fun _ _ => ⟨h.dev, h.activeOut⟩⟩
theorem stopSequence_begun {cause : BitVec 8} {s : State} (hdev : inService s.dev = true) (hstep : s.flt.stopStep = 0) : StopBegun cause s (stopSequence false cause s) := by
  rw [stopSequence_inService hdev hstep]
  have hptn := (stopOpened_only cause s).ptn
  dsimp only
  split
  · exact (finalStop_stoppedBy cause _).begun s
  next hsolo =>
    obtain ⟨hwait, hcause, hadmission⟩ := stopWaits_begun (solo := false) (stopOpened_admission cause s) rfl
    obtain ⟨hadmitted, hstopped⟩ := advanceStop_begun hwait hcause hadmission
    obtain ⟨hclosed, hcause⟩ := admission_iff.1 hadmitted
    refine ⟨hclosed, hcause, hstopped, fun hsync hrole => absurd ?_ hsolo⟩
    rw [hptn, hsync, hrole]
    rfl
/-- `StopBegun` speaks of the state before the stop only by the partner's terms. -/
theorem StopBegun.of_ptn {cause : BitVec 8} {s s' t : State} (h : StopBegun cause s' t) (hptn : s'.ptn = s.ptn) : StopBegun cause s t := by
  obtain ⟨hclosed, hcause, hstopped, hpartner⟩ := h
  exact ⟨hclosed, hcause, hstopped, by rw [← hptn]; exact hpartner⟩
/-- A stop from a state in service is the way to Stopped (R272, R523). -/
theorem failStop_begun {cause : BitVec 8} {s : State} (hdev : inService s.dev = true) (hstep : s.flt.stopStep = 0) : StopBegun cause s (failStop cause s) := by
  rw [failStop_eq]
  exact (stopSequence_begun (s := stopMarked s) hdev hstep).of_ptn rfl
theorem down_iff {d : DevState} : (d = .holdUp ∨ d = .stopped) ↔ stopsAtOnce d = false ∧ inService d = false := by
  cases d <;> decide
theorem stopSequence_of_down {solo : Bool} {cause : BitVec 8} {s : State} (hdev : s.dev = .holdUp ∨ s.dev = .stopped) : stopSequence solo cause s = s := by
  unfold stopSequence
  split
  · rfl
  · rcases hdev with h | h <;> rw [h]
theorem stopMarked_of_down {s : State} (hdev : s.dev = .holdUp ∨ s.dev = .stopped) : stopMarked s = s := by
  have hkept : (s.flt.failstop || (s.dev != .stopped && s.dev != .holdUp)) = s.flt.failstop := by
    rcases hdev with h | h <;> rw [h] <;> exact Bool.or_false _
  unfold stopMarked
  rw [hkept]
theorem failStop_of_down {cause : BitVec 8} {s : State} (hdev : s.dev = .holdUp ∨ s.dev = .stopped) : failStop cause s = s := by
  rw [failStop_eq, stopMarked_of_down hdev, stopSequence_of_down hdev]
theorem failStop_of_stopping {cause : BitVec 8} {s : State} (hstep : s.flt.stopStep ≠ 0) : failStop cause s = stopMarked s := by
  rw [failStop_eq]
  exact if_pos hstep

end Sys2Proof.Machine
end

section
/-! What the spindle has measured and counted stands while it is driven or stopped. -/

namespace Sys2Proof.Machine
set_option Elab.async false

-- What the spindle has measured, counted and reported stands while it is driven or stopped.

/-- The spindle without its mode of drive and the choices that go with it. -/
def spindleLog (s : State) : Spindle × SpindleCtl :=
  ({ s.spn with mode := 0, lock := false, vlimit := false, chopOn := false, budgetPause := false, curvePt := 0 },
   { s.spc with
     gates := false, iqSet := 0, duty := (0, 0, 0), satSince := none, genLow := 0, stopping := false, source := false, outSince := none, lost := false })
theorem spindleLog_of_only {m : Units} {s t : State} (h : Only m s t) (hn : m.spn = false := by rfl) (hc : m.spc = false := by rfl) :
    spindleLog t = spindleLog s := by
  unfold spindleLog
  rw [h.spn hn, h.spc hc]
theorem spindleLog_ptn (s : State) (p : Ptn) : spindleLog { s with ptn := p } = spindleLog s := rfl
theorem spindleLog_gatesOff (s : State) : spindleLog (gatesOff s) = spindleLog s := by
  unfold gatesOff
  dsimp only
  split
  · rfl
  · rfl
theorem spindleLog_gatesOn (s : State) : spindleLog (gatesOn s) = spindleLog s := by
  unfold gatesOn
  split
  · rfl
  · rfl
theorem spindleLog_setSpnMode (m : Nat) (s : State) : spindleLog (setSpnMode m s) = spindleLog s := rfl
theorem spindleLog_noCurve (s : State) : spindleLog (noCurve s) = spindleLog s := rfl
theorem spindleLog_inverterOff (s : State) : spindleLog (inverterOff s) = spindleLog s := by
  unfold inverterOff
  rw [spindleLog_gatesOff, spindleLog_of_only (spnCtxOff_only _)]
  rfl
theorem spindleLog_startCoast (s : State) : spindleLog (startCoast s) = spindleLog s := by
  unfold startCoast
  rw [spindleLog_setSpnMode, spindleLog_noCurve, spindleLog_inverterOff]
theorem spindleLog_startShortBrake (s : State) : spindleLog (startShortBrake s) = spindleLog s := by
  unfold startShortBrake
  rw [spindleLog_setSpnMode, spindleLog_gatesOn, spindleLog_of_only (spnCtxOff_only _), spindleLog_noCurve]
  rfl
theorem spindleLog_brakeAt (s : State) : spindleLog (brakeAt s) = spindleLog s := rfl
theorem spindleLog_spindleStop (s : State) : spindleLog (spindleStop s) = spindleLog s := by
  have hwindow : spindleLog (stopWindow s) = spindleLog s := rfl
  rw [spindleStop_eq]
  split
  · exact hwindow
  split
  · exact (spindleLog_startCoast _).trans hwindow
  split
  · rw [spindleLog_brakeAt, spindleLog_gatesOn, spindleLog_of_only (brakeLoops_only _)]
    exact hwindow
  · exact (spindleLog_startShortBrake _).trans hwindow
theorem spindleLog_dropActive (s : State) : spindleLog (dropActive s) = spindleLog s := by
  unfold dropActive
  extract_lets r u _ v
  have hr : spindleLog r = spindleLog s := by
    unfold r
    split
    · exact spindleLog_of_only (m := { arms := true, tx := true }) (.each (fun a s => vcmFrame_only a s) .refl)
    · rfl
  have hu : spindleLog u = spindleLog r := by
    unfold u
    split
    · exact spindleLog_inverterOff _
    · exact spindleLog_startCoast _
  have hv : spindleLog v = spindleLog u := by
    unfold v
    split
    · rfl
    · rfl
  exact hv.trans (hu.trans hr)
theorem spindleLog_enterStopped (cause : BitVec 8) (s : State) : spindleLog (enterStopped cause s) = spindleLog s := by
  have hspn : (each (List.range 8) armDark (endVisits (dropActive s))).spn = (dropActive s).spn :=
    (Only.each (m := { islands := true, heads := true }) (fun a s => armDark_only a s) .refl).spn.trans (endVisits_only _).spn
  have hstopped : (enterStopped cause s).spn = { (dropActive s).spn with mode := if (dropActive s).spn.mode = 0 then 0 else 9 } := by
    unfold enterStopped
    dsimp only
    rw [hspn]
  refine Eq.trans ?_ (spindleLog_dropActive s)
  unfold spindleLog
  rw [hstopped, enterStopped_spc]
theorem spindleLog_finalStop (cause : BitVec 8) (s : State) : spindleLog (finalStop cause s) = spindleLog s := by
  unfold finalStop
  rw [spindleLog_enterStopped, spindleLog_of_only (post_only ..), spindleLog_of_only (releaseArms_only _)]
theorem spindleLog_advanceStop (s : State) : spindleLog (advanceStop s) = spindleLog s := by
  have hlast : ∀ t : State, spindleLog (if t.flt.stopStep = 3 && (t.spn.mode = 0 || !t.ptn.activeOut || lostArms t || t.spc.lost) then finalStop t.flt.stopCause t else t) = spindleLog t := by
    intro t
    split
    · exact spindleLog_finalStop ..
    · rfl
  unfold advanceStop
  refine (hlast _).trans ?_
  split
  · dsimp only
    split
    · exact spindleLog_startCoast _
    split
    · exact spindleLog_spindleStop _
    · rfl
  · rfl
theorem spindleLog_stopOpened (cause : BitVec 8) (s : State) : spindleLog (stopOpened cause s) = spindleLog s := spindleLog_of_only (stopOpened_only ..)
theorem stopWaits_only (solo : Bool) (cause : BitVec 8) (s : State) :
    Only (.but { dev := true, spn := true, spc := true, img := true }) s (stopWaits solo cause s) :=
  .upd ((dropGone_only _).after (.upd (.ite ((unloadAll_only _).after (.ite ((post_only ..).after ((ptnSend_only ..).mono)) .refl)) (.ite ((post_only ..).after ((ptnSend_only ..).mono)) .refl))))
theorem spindleLog_stopSequence (solo : Bool) (cause : BitVec 8) (s : State) : spindleLog (stopSequence solo cause s) = spindleLog s := by
  by_cases hstep : s.flt.stopStep = 0
  · by_cases honce : stopsAtOnce s.dev = true
    · rw [stopSequence_atOnce honce hstep, spindleLog_finalStop, spindleLog_of_only (stopChannels_only _), spindleLog_of_only (completeAll_only ..)]
    by_cases hservice : inService s.dev = true
    · rw [stopSequence_inService hservice hstep]
      dsimp only
      split
      · rw [spindleLog_finalStop, spindleLog_dropActive]
        rw [spindleLog_ptn, spindleLog_of_only (post_only ..), spindleLog_of_only (ptnSend_only ..), spindleLog_stopOpened]
      · rw [spindleLog_advanceStop, spindleLog_of_only (stopWaits_only ..), spindleLog_stopOpened]
    · rw [stopSequence_of_down (down_iff.2 ⟨Bool.eq_false_iff.2 honce, Bool.eq_false_iff.2 hservice⟩)]
  · rw [stopSequence, if_pos hstep]
theorem spindleLog_failStop (cause : BitVec 8) (s : State) : spindleLog (failStop cause s) = spindleLog s := by
  rw [failStop_eq, spindleLog_stopSequence]
  rfl
theorem spindleLog_spindleLost (cause : BitVec 8) (s : State) : spindleLog (spindleLost cause s) = spindleLog s := by
  unfold spindleLost
  rw [spindleLog_failStop]
  split
  · rw [spindleLog_of_only (unloadAll_only _)]
    rfl
  · rfl

end Sys2Proof.Machine
end

section
/-! What a report leaves of a stop, and the conditions of Table 8.5 by the device state (R271). -/

namespace Sys2Proof.Machine
set_option Elab.async false

-- What a report leaves of the Fault-hold and of a stop, and the conditions of Table 8.5.

/-- The part of the fault records that a report has no share in: a stop and its cause, the causes that are open, and the cores. -/
def stopRecord (s : State) : Nat × BitVec 8 × List OpenCause × List (Nat × Nat) × BitVec 4 :=
  (s.flt.stopStep, s.flt.stopCause, s.flt.open_, s.flt.coreTraps, s.flt.coreFailed)
theorem stopRecord_of_only {m : Units} {s t : State} (h : Only m s t) (hm : m.flt = false := by rfl) : stopRecord t = stopRecord s := by
  unfold stopRecord
  rw [h.flt hm]
theorem stopRecord_countReport (r : Report) (s : State) : stopRecord (countReport r s) = stopRecord s := by
  unfold countReport
  split
  · rfl
  · rfl
theorem stopRecord_captureFirst (rs : List Report) (s : State) : stopRecord (captureFirst rs s) = stopRecord s := by
  unfold captureFirst
  dsimp only
  split
  · rfl
  split
  · split
    · rw [stopRecord_of_only (traceFire_only _)]
      rfl
    · rfl
  split
  · rfl
  · rfl
theorem stopRecord_enterHold (event : BitVec 8) (injected : Bool) (s : State) : stopRecord (enterHold event injected s) = stopRecord s := by
  unfold enterHold
  split
  · rw [stopRecord_of_only (post_only ..), stopRecord_of_only (endVisits_only _)]
    rfl
  split
  · rfl
  · rfl
theorem stopRecord_reportAll (rs : List Report) (s : State) : stopRecord (reportAll rs s) = stopRecord s := by
  unfold reportAll
  rw [each_proj stopRecord _ _ _ fun r s => stopRecord_enterHold .., stopRecord_captureFirst]
  exact each_proj stopRecord _ _ _ fun r s => (stopRecord_of_only (mqNote_only ..)).trans (stopRecord_countReport ..)
theorem stopRecord_report (r : Report) (s : State) : stopRecord (report r s) = stopRecord s := stopRecord_reportAll ..
theorem report_stopStep (r : Report) (s : State) : (report r s).flt.stopStep = s.flt.stopStep := congrArg Prod.fst (stopRecord_report r s)
theorem enterHold_dev_of_not_holdsFrom {event : BitVec 8} {injected : Bool} {s : State} (h : holdsFrom s.dev = false) : (enterHold event injected s).dev = s.dev := by
  unfold enterHold
  rw [if_neg (ne_true_of_eq_false h)]
  split
  · rfl
  · rfl
/-- A report leaves the device state that no Fault-hold is entered from. -/
theorem report_dev_of_not_holdsFrom {r : Report} {s : State} (h : holdsFrom s.dev = false) : (report r s).dev = s.dev := by
  have hdev := reportAll_head_dev r s
  cases hr : r.hold with
  | false => exact report_dev_of_not_hold s hr
  | true =>
    unfold report reportAll
    rw [List.filter_cons_of_pos hr, List.filter_nil, each_cons (xs := []), each_nil, enterHold_dev_of_not_holdsFrom (hdev.symm ▸ h), hdev]
theorem report_inService {r : Report} {s : State} (h : inService s.dev = true) : inService (report r s).dev = true := by
  cases hfrom : holdsFrom s.dev with
  | false => rwa [report_dev_of_not_holdsFrom hfrom]
  | true =>
    cases hr : r.hold with
    | false => rwa [report_dev_of_not_hold s hr]
    | true => rw [(report_holds hr hfrom).1]; rfl
/-- From a state in service a report that holds leaves the part in Fault-hold (R518). -/
theorem report_faultHold {r : Report} {s : State} (hold : r.hold = true) (h : inService s.dev = true) : (report r s).dev = .faultHold := by
  cases hfrom : holdsFrom s.dev with
  | true => exact (report_holds hold hfrom).1
  | false =>
    have hdev : s.dev = .faultHold := by
      rcases inService_iff.1 h with h | h | h | h
      · rw [h] at hfrom; exact absurd hfrom (by decide)
      · rw [h] at hfrom; exact absurd hfrom (by decide)
      · exact h
      · rw [h] at hfrom; exact absurd hfrom (by decide)
    rw [report_dev_of_not_holdsFrom hfrom, hdev]

/-- The report and the event of a spindle fault (Table 8.5). -/
def spindleReported (code : BitVec 8) (hold : Bool) (fs : List PayField) (s : State) : State :=
  report { master := mMotion, cause := 7, event := code, hold } (mqNote 27 (spnEvent code fs s))
theorem spindleReported_only (code : BitVec 8) (hold : Bool) (fs : List PayField) (s : State) :
    Only (.but { aon := true, start := true, idn := true, fuses := true, clk := true, pwr := true, ptn := true, hop := true, layout := true, spc := true, img := true, arms := true, links := true })
      s (spindleReported code hold fs s) := (report_only ..).after ((mqNote_only ..).after (spnEvent_only ..).mono)
theorem spindleReported_spn (code : BitVec 8) (hold : Bool) (fs : List PayField) (s : State) : (spindleReported code hold fs s).spn = { s.spn with lastEvent := code } := by
  unfold spindleReported
  rw [(report_only ..).spn, (mqNote_only ..).spn]
  unfold spnEvent
  rw [(post_only ..).spn]
theorem spnEvent_noted_dev (code : BitVec 8) (fs : List PayField) (s : State) : (mqNote 27 (spnEvent code fs s)).dev = s.dev :=
  (mqNote_only ..).dev.trans (spnEvent_only ..).dev
theorem spindleReported_stopStep (code : BitVec 8) (hold : Bool) (fs : List PayField) (s : State) : (spindleReported code hold fs s).flt.stopStep = s.flt.stopStep :=
  (report_stopStep ..).trans (congrArg (·.stopStep) ((mqNote_only ..).flt.trans (spnEvent_only ..).flt))
theorem spindleReported_ptn (code : BitVec 8) (hold : Bool) (fs : List PayField) (s : State) : (spindleReported code hold fs s).ptn = s.ptn := (spindleReported_only ..).ptn
theorem spindleReported_lastEvent (code : BitVec 8) (hold : Bool) (fs : List PayField) (s : State) : (spindleLog (spindleReported code hold fs s)).1.lastEvent = code :=
  congrArg Spindle.lastEvent (spindleReported_spn code hold fs s)
theorem spindleLog_lastEvent (s : State) : (spindleLog s).1.lastEvent = s.spn.lastEvent := rfl
/-- The ways of a spindle fault by the device state (Table 8.5, R271). -/
theorem spindleFault_inService {code : BitVec 8} {hold : Bool} {fs : List PayField} {f : State → State} {s : State} (h : inService s.dev = true) :
    spindleFault code hold fs f s = f (spindleReported code hold fs s) := by
  have hdev := spnEvent_noted_dev code fs s
  unfold spindleFault spindleReported
  rcases inService_iff.1 h with h | h | h | h <;> rw [h] at hdev <;> dsimp only <;> rw [hdev]
theorem spindleFault_atOnce {code : BitVec 8} {hold : Bool} {fs : List PayField} {f : State → State} {s : State} (h : s.dev = .configuring ∨ s.dev = .parked ∨ s.dev = .spinningUp) :
    spindleFault code hold fs f s = failStop code (gatesOff (spindleReported code false fs s)) := by
  have hdev := spnEvent_noted_dev code fs s
  unfold spindleFault spindleReported
  rcases h with h | h | h <;> rw [h] at hdev <;> dsimp only <;> rw [hdev]
theorem spindleFault_resting {code : BitVec 8} {hold : Bool} {fs : List PayField} {f : State → State} {s : State}
    (h : s.dev = .holdUp ∨ s.dev = .unconfigured ∨ s.dev = .stopped ∨ s.dev = .standby) :
    ∃ hold', spindleFault code hold fs f s = spindleReported code hold' fs s := by
  have hdev := spnEvent_noted_dev code fs s
  unfold spindleFault spindleReported
  rcases h with h | h | h | h <;> rw [h] at hdev <;> dsimp only <;> rw [hdev] <;> exact ⟨_, rfl⟩
theorem devState_cases (d : DevState) : inService d = true ∨ (d = .configuring ∨ d = .parked ∨ d = .spinningUp) ∨ (d = .holdUp ∨ d = .unconfigured ∨ d = .stopped ∨ d = .standby) := by
  cases d <;> decide
/-- A condition of Table 8.5: what it does in service is `f` after its report. -/
theorem spindleFault_faulted {code : BitVec 8} {hold : Bool} {fs : List PayField} {f : State → State} {s : State} {P : Prop}
    (hlog : ∀ t, (spindleLog (f t)).1.lastEvent = (spindleLog t).1.lastEvent)
    (hservice : inService s.dev = true → s.flt.stopStep = 0 → P) :
    SpindleFaulted code s (spindleFault code hold fs f s) P := by
  refine ⟨?_, ?_, ?_, hservice⟩
  · rw [← spindleLog_lastEvent]
    rcases devState_cases s.dev with h | h | h
    · rw [spindleFault_inService h, hlog, spindleReported_lastEvent]
    · rw [spindleFault_atOnce h, spindleLog_failStop, spindleLog_gatesOff, spindleReported_lastEvent]
    · obtain ⟨hold', heq⟩ := spindleFault_resting (code := code) (hold := hold) (fs := fs) (f := f) h
      rw [heq, spindleReported_lastEvent]
  · intro h
    obtain ⟨hold', heq⟩ := spindleFault_resting (code := code) (hold := hold) (fs := fs) (f := f) h
    rw [heq]
    have hdev := spnEvent_noted_dev code fs s
    refine (report_dev_of_not_holdsFrom (hdev.symm ▸ ?_)).trans hdev
    rcases h with h | h | h | h <;> rw [h] <;> rfl
  · intro h hstep
    rw [spindleFault_atOnce h]
    have hreport : (gatesOff (spindleReported code false fs s)).dev = s.dev :=
      (gatesOff_only _).dev.trans ((report_dev_of_not_hold _ rfl).trans (spnEvent_noted_dev code fs s))
    have honce : stopsAtOnce (gatesOff (spindleReported code false fs s)).dev = true := by
      rw [hreport]
      rcases h with h | h | h <;> rw [h] <;> rfl
    have hwaits : (gatesOff (spindleReported code false fs s)).flt.stopStep = 0 :=
      (congrArg (·.stopStep) (gatesOff_only _).flt).trans ((spindleReported_stopStep ..).trans hstep)
    have hstopped := failStop_stoppedBy (cause := code) honce hwaits
    exact ⟨hstopped.dev, hstopped.gates, hstopped.activeOut⟩
theorem SpindleFaulted.of_same {code : BitVec 8} {s s' t : State} {P : Prop} (h : SpindleFaulted code s' t P) (hdev : s'.dev = s.dev)
    (hstep : s'.flt.stopStep = s.flt.stopStep) : SpindleFaulted code s t P := by
  unfold SpindleFaulted at h ⊢
  rwa [hdev, hstep] at h
theorem spindleLost_begun {cause : BitVec 8} {s : State} (hdev : inService s.dev = true) (hstep : s.flt.stopStep = 0) : StopBegun cause s (spindleLost cause s) := by
  unfold spindleLost
  split
  · have hunload := unloadAll_only { s with spc := { s.spc with lost := true } }
    exact (failStop_begun (by rw [hunload.dev]; exact hdev) (by rw [hunload.flt]; exact hstep)).of_ptn hunload.ptn
  · exact (failStop_begun (s := { s with spc := { s.spc with lost := true } }) hdev hstep).of_ptn rfl
theorem spindleReported_begun {code : BitVec 8} {hold : Bool} {fs : List PayField} {cause : BitVec 8} {s t : State}
    (h : StopBegun cause (spindleReported code hold fs s) t) : StopBegun cause s t := h.of_ptn (spindleReported_ptn ..)
theorem spindleReported_inService {code : BitVec 8} {hold : Bool} {fs : List PayField} {s : State} (h : inService s.dev = true) :
    inService (spindleReported code hold fs s).dev = true := report_inService (by rw [spnEvent_noted_dev]; exact h)
/-- A condition of Table 8.5 that is answered, in service, with a stop that turns the gates off after its unload (R272). -/
theorem spindleFault_lost {code : BitVec 8} {hold : Bool} {fs : List PayField} {s : State} :
    SpindleFaulted code s (spindleFault code hold fs (spindleLost code) s) (StopBegun code s (spindleFault code hold fs (spindleLost code) s)) :=
  spindleFault_faulted (fun t => congrArg (·.1.lastEvent) (spindleLog_spindleLost code t)) fun hdev hstep => by
    rw [spindleFault_inService hdev]
    exact spindleReported_begun (spindleLost_begun (spindleReported_inService hdev) ((spindleReported_stopStep ..).trans hstep))
theorem spindleReported_faultHold {code : BitVec 8} {fs : List PayField} {s : State} (h : inService s.dev = true) : (spindleReported code true fs s).dev = .faultHold := by
  unfold spindleReported
  exact report_faultHold rfl (by rw [spnEvent_noted_dev]; exact h)
/-- A condition of Table 8.5 that is answered, in service, with Fault-hold alone. -/
theorem spindleFault_held {code : BitVec 8} {fs : List PayField} {s : State} :
    SpindleFaulted code s (spindleFault code true fs id s) ((spindleFault code true fs id s).dev = .faultHold) :=
  spindleFault_faulted (fun _ => rfl) fun hdev _ => by
    rw [spindleFault_inService hdev]
    exact (congrArg State.dev (id_eq _)).trans (spindleReported_faultHold hdev)

end Sys2Proof.Machine
end

section
/-! Spindle faults (O9). -/

namespace Sys2Proof.Machine
set_option Elab.async false

theorem spindleLog_senseLost (s : State) : spindleLog (senseLost s) = spindleLog s := by
  unfold senseLost
  split
  · exact spindleLog_spindleLost ..
  · rw [spindleLog_failStop, spindleLog_startCoast]
theorem startCoast_stopStep (s : State) : (startCoast s).flt.stopStep = s.flt.stopStep := congrArg Flt.stopStep (startCoast_only s).flt
theorem senseLost_begun {s : State} (hdev : inService s.dev = true) (hstep : s.flt.stopStep = 0) : StopBegun 0x29 s (senseLost s) := by
  unfold senseLost
  split
  · exact spindleLost_begun hdev hstep
  · exact (failStop_begun ((startCoast_dev s).symm ▸ hdev) ((startCoast_stopStep s).trans hstep)).of_ptn (startCoast_only s).ptn
/-- A sense fault stops the part from service (Table 8.5). -/
theorem spindleFault_sense {fs : List PayField} {s : State} :
    SpindleFaulted 0x29 s (spindleFault 0x29 false fs senseLost s) (StopBegun 0x29 s (spindleFault 0x29 false fs senseLost s)) :=
  spindleFault_faulted (fun t => by rw [spindleLog_senseLost]) fun hdev hstep => by
    rw [spindleFault_inService hdev]
    exact spindleReported_begun (senseLost_begun (spindleReported_inService hdev) ((spindleReported_stopStep ..).trans hstep))

theorem SpindleFaulted.iff_of {code : BitVec 8} {s t : State} {P Q : Prop} (h : SpindleFaulted code s t P) (hPQ : P → Q) : SpindleFaulted code s t Q := by
  obtain ⟨hevent, hrest, honce, hservice⟩ := h
  exact ⟨hevent, hrest, honce, fun hd hs => hPQ (hservice hd hs)⟩
/-- A stop by a spindle that is lost, from the state that a step before it has left. -/
theorem spindleFault_lost_after {code : BitVec 8} {hold : Bool} {fs : List PayField} {s s' : State} (hdev : s'.dev = s.dev) (hflt : s'.flt = s.flt) (hptn : s'.ptn = s.ptn) :
    SpindleFaulted code s (spindleFault code hold fs (spindleLost code) s') (StopBegun code s (spindleFault code hold fs (spindleLost code) s')) :=
  (spindleFault_lost.of_same hdev (congrArg Flt.stopStep hflt)).iff_of fun h => h.of_ptn hptn
theorem spnReport_spn (code : BitVec 8) (fs : List PayField) (hold : Bool) (s : State) : (spnReport code fs hold s).spn = { s.spn with lastEvent := code } := by
  unfold spnReport spnEvent
  rw [(report_only ..).spn, (post_only ..).spn]
theorem spnReport_spc (code : BitVec 8) (fs : List PayField) (hold : Bool) (s : State) : (spnReport code fs hold s).spc = s.spc := (spnReport_only ..).spc
theorem setSpnMode_spc (m : Nat) (s : State) : (setSpnMode m s).spc = s.spc := rfl
theorem setSpnMode_mayDrive (m : Nat) (s : State) : mayDrive (setSpnMode m s) = mayDrive s := rfl
theorem startSlowWait_eq (s : State) : startSlowWait s =
    if catchSb (setSpnMode 11 (inverterOff s)).img = 1 && mayDrive (setSpnMode 11 (inverterOff s)) then spnReport 0x2C [] false (gatesOn (setSpnMode 11 (inverterOff s)))
    else setSpnMode 11 (inverterOff s) := rfl
theorem startSlowWait_mode (s : State) : (startSlowWait s).spn.mode = 11 := by
  rw [startSlowWait_eq]
  split
  · rw [spnReport_spn, (gatesOn_only _).spn]
    rfl
  · rfl
theorem gatesOff_kept (s : State) : (gatesOff s).spc = { s.spc with gates := false, iqSet := 0 } := by
  unfold gatesOff
  dsimp only
  split
  · rfl
  next h => rw [← Bool.eq_false_iff.2 h]
theorem inverterOff_spc (s : State) : (inverterOff s).spc = { s.spc with gates := false, iqSet := 0, satSince := none, genLow := 0 } := by
  unfold inverterOff
  rw [gatesOff_kept, (spnCtxOff_only _).spc]
theorem inverterOff_spn (s : State) : (inverterOff s).spn = { s.spn with lock := false, vlimit := false } := by
  unfold inverterOff
  rw [(gatesOff_only _).spn, (spnCtxOff_only _).spn]
theorem gatesOn_spc (s : State) : ∃ g d, (gatesOn s).spc = { s.spc with gates := g, duty := d } := by
  unfold gatesOn
  split
  · exact ⟨_, _, rfl⟩
  · exact ⟨_, _, rfl⟩
theorem startSlowWait_spc (s : State) : (startSlowWait s).spc.handoffFails = s.spc.handoffFails ∧ (startSlowWait s).spc.restart = s.spc.restart := by
  have hoff : (setSpnMode 11 (inverterOff s)).spc = { s.spc with gates := false, iqSet := 0, satSince := none, genLow := 0 } := by
    rw [setSpnMode_spc, inverterOff_spc]
  rw [startSlowWait_eq]
  split
  · obtain ⟨g, d, hon⟩ := gatesOn_spc (setSpnMode 11 (inverterOff s))
    rw [spnReport_spc, hon, hoff]
    exact ⟨rfl, rfl⟩
  · rw [hoff]
    exact ⟨rfl, rfl⟩
theorem afterReport_mode (code : BitVec 8) (hold : Bool) (fs : List PayField) (f : State → State) (hf : ∀ t, (f t).spn = t.spn) {s : State} (h : inService s.dev = true) :
    (spindleFault code hold fs f s).spn.mode = s.spn.mode := by
  rw [spindleFault_inService h, hf, spindleReported_spn]

theorem inService_iff_holds {d : DevState} : inService d = true ↔ holdsFrom d = true ∨ d = .faultHold := by
  cases d <;> decide
theorem spindleFault_sense_after {fs : List PayField} {s s' : State} (hdev : s'.dev = s.dev) (hflt : s'.flt = s.flt) (hptn : s'.ptn = s.ptn) :
    SpindleFaulted 0x29 s (spindleFault 0x29 false fs senseLost s') (StopBegun 0x29 s (spindleFault 0x29 false fs senseLost s')) :=
  (spindleFault_sense.of_same hdev (congrArg Flt.stopStep hflt)).iff_of fun h => h.of_ptn hptn
/-- What a chopper fault does before its report: it is counted, and a brake in service becomes a short-brake (R264). -/
def chopperNoted (which : Fin 3) (s : State) : State :=
  let s := { s with spn := { s.spn with chopFault := which.val + 1, chopper := satInc 8 s.spn.chopper } }
  if which ≠ 2 && s.spn.mode = 7 && s.dev ≠ .holdUp then startShortBrake s else s
theorem chopperNoted_only (which : Fin 3) (s : State) : Only { gov := true, spn := true, spc := true, tx := true } s (chopperNoted which s) :=
  .ite ((startShortBrake_only _).after (.upd .refl)) (.upd .refl)
theorem chopperNoted_log (which : Fin 3) (s : State) : (spindleLog (chopperNoted which s)).1.chopFault = which.val + 1 ∧ (spindleLog (chopperNoted which s)).1.chopper = satInc 8 s.spn.chopper := by
  unfold chopperNoted
  dsimp only
  split
  · rw [spindleLog_startShortBrake]
    exact ⟨rfl, rfl⟩
  · exact ⟨rfl, rfl⟩
theorem chopperNoted_mode {which : Fin 3} {s : State} (hmode : s.spn.mode = 7) (hdev : s.dev ≠ .holdUp) (hwhich : which ≠ 2) : (chopperNoted which s).spn.mode = 8 := by
  unfold chopperNoted
  dsimp only
  rw [if_pos (by simp [hwhich, hmode, hdev])]
  exact startShortBrake_mode _
theorem spindleLog_spindleReported (code : BitVec 8) (hold : Bool) (fs : List PayField) (s : State) :
    spindleLog (spindleReported code hold fs s) = ({ (spindleLog s).1 with lastEvent := code }, (spindleLog s).2) := by
  unfold spindleLog
  rw [spindleReported_spn, (spindleReported_only ..).spc]
/-- A condition changes of the spindle's records the last event alone, where its answer changes none. -/
theorem spindleLog_spindleFault {code : BitVec 8} {hold : Bool} {fs : List PayField} {f : State → State} (hf : ∀ t, spindleLog (f t) = spindleLog t) (s : State) :
    spindleLog (spindleFault code hold fs f s) = ({ (spindleLog s).1 with lastEvent := code }, (spindleLog s).2) := by
  rcases devState_cases s.dev with h | h | h
  · rw [spindleFault_inService h, hf, spindleLog_spindleReported]
  · rw [spindleFault_atOnce h, spindleLog_failStop, spindleLog_gatesOff, spindleLog_spindleReported]
  · obtain ⟨hold', heq⟩ := spindleFault_resting (code := code) (hold := hold) (fs := fs) (f := f) h
    rw [heq, spindleLog_spindleReported]
theorem spindleLog_chopFault (s : State) : (spindleLog s).1.chopFault = s.spn.chopFault ∧ (spindleLog s).1.chopper = s.spn.chopper := ⟨rfl, rfl⟩
theorem chopperFaulted (which : Fin 3) (ichop : Nat) (s : State) :
    let t := if (chopOf s ichop).any fun i => chopperBad which i s then spindleFault 0x2B true [] id (chopperNoted which s) else s
    let bad : Prop := ∃ i ∈ chopOf s ichop, chopperBad which i s = true
    (¬ bad → t = s) ∧
    (bad → SpindleFaulted 0x2B s t (t.dev = .faultHold) ∧ t.spn.chopFault = which.val + 1 ∧ t.spn.chopper = satInc 8 s.spn.chopper ∧
      (s.spn.mode = 7 → inService s.dev = true → which ≠ 2 → t.spn.mode = 8)) := by
  have hbad : ((chopOf s ichop).any fun i => chopperBad which i s) = true ↔ ∃ i ∈ chopOf s ichop, chopperBad which i s = true := by
    cases chopOf s ichop <;> simp
  have hnoted := chopperNoted_only which s
  dsimp only
  split
  next h =>
    refine ⟨fun hn => absurd (hbad.1 h) hn, fun _ => ⟨?_, ?_, ?_, fun hmode hdev hwhich => ?_⟩⟩
    · exact spindleFault_held.of_same hnoted.dev (congrArg Flt.stopStep hnoted.flt)
    · rw [← (spindleLog_chopFault _).1, spindleLog_spindleFault (f := id) fun _ => rfl]
      exact (chopperNoted_log which s).1
    · rw [← (spindleLog_chopFault _).2, spindleLog_spindleFault (f := id) fun _ => rfl]
      exact (chopperNoted_log which s).2
    · have hup : s.dev ≠ .holdUp := fun h => by rw [h] at hdev; exact absurd hdev (by decide)
      rw [afterReport_mode _ _ _ id (fun _ => rfl) (hnoted.dev.symm ▸ hdev), chopperNoted_mode hmode hup hwhich]
  next h => exact ⟨fun _ => rfl, fun hb => absurd (hbad.2 hb) h⟩
/-- Settles O9: each condition of Table 8.5 goes by the device state, and in service to a stop or to Fault-hold. -/
theorem spindleFaultsFollowTheDeviceState : Obligations.SpindleFaultsFollowTheDeviceState := by
  unfold Obligations.SpindleFaultsFollowTheDeviceState
  intro s hawake
  refine ⟨fun offsets => ⟨_, if_pos hawake, ?_⟩, ⟨_, if_pos hawake, ?_⟩, ⟨_, if_pos hawake, ?_⟩, ⟨_, if_pos hawake, ?_⟩, ⟨_, if_pos hawake, ?_⟩, ⟨_, if_pos hawake, ?_⟩,
    fun which ichop => ⟨_, if_pos hawake, ?_⟩, ⟨_, if_pos hawake, ?_⟩⟩
  · dsimp only
    have hbad : (if offsets then offsetsBad s else decide (2 ≤ s.spc.badPeriods)) = true ↔
        (offsets = true ∧ offsetsBad s = true) ∨ (offsets = false ∧ 2 ≤ s.spc.badPeriods) := by
      cases offsets <;> simp
    by_cases h : (if offsets then offsetsBad s else decide (2 ≤ s.spc.badPeriods)) = true
    · rw [if_pos h]
      exact ⟨fun _ => spindleFault_sense_after rfl rfl rfl, fun hn => absurd (hbad.1 h) hn⟩
    · rw [if_neg h]
      exact ⟨fun hb => absurd (hbad.2 hb) h, fun _ => rfl⟩
  · split
    next h => exact ⟨fun _ => spindleFault_lost_after (startCoast_only s).dev (startCoast_only s).flt (startCoast_only s).ptn, fun hne => absurd h hne⟩
    next h => exact ⟨fun hm => absurd hm h, fun _ => rfl⟩
  · dsimp only
    split
    next h =>
      split
      next hfails =>
        have hcoast := startCoast_only { s with spc := { s.spc with handoffFails := s.spc.handoffFails + 1 } }
        exact ⟨fun _ _ => spindleFault_lost_after hcoast.dev hcoast.flt hcoast.ptn, fun _ hnone => absurd hfails (by rw [hnone]; decide), fun hne => absurd h hne⟩
      next hfails =>
        refine ⟨fun _ hone => absurd (Nat.succ_le_succ hone) hfails, fun _ hnone => ⟨startSlowWait_mode _, ?_⟩, fun hne => absurd h hne⟩
        rw [(startSlowWait_spc _).1, (startSlowWait_spc _).2]
        exact ⟨congrArg Nat.succ hnone, rfl⟩
    next h => exact ⟨fun hm => absurd hm h, fun hm => absurd hm h, fun _ => rfl⟩
  · dsimp only
    split
    next h =>
      rw [Bool.and_eq_true, decide_eq_true_eq] at h
      refine ⟨fun _ _ => spindleFault_lost_after rfl rfl rfl, ?_⟩
      rintro (hn | ⟨hpause, htakeover⟩)
      · exact absurd h.2 hn
      · refine absurd h.1 ?_
        simpa [htakeover, imp_iff_not_or] using hpause
    next h =>
      refine ⟨fun hrun hdev => absurd ?_ h, fun _ => rfl⟩
      rw [Bool.and_eq_true, decide_eq_true_eq]
      exact ⟨by simpa using hdev, hrun⟩
  · intro hwindow hever hcurve hdev
    rw [if_pos (by simpa [hwindow, hever, hcurve] using inService_iff_holds.1 hdev)]
    exact spindleFault_lost_after rfl rfl rfl
  · split
    next h => exact ⟨fun _ => spindleFault_held, fun hn => by rw [hn] at h; exact absurd h (by decide)⟩
    next h => exact ⟨fun hne => absurd (Option.isSome_iff_ne_none.2 hne) h, fun _ => rfl⟩
  · exact chopperFaulted which ichop s
  · dsimp only
    split
    next h =>
      refine ⟨fun hup hsource hlow => absurd h ?_, fun _ => rfl⟩
      simp [hup, hsource, hlow]
    next h =>
      refine ⟨fun _ _ _ => spindleFault_held, fun hc => absurd ?_ h⟩
      simpa [or_assoc] using hc

end Sys2Proof.Machine
end

section
/-! How the spindle drives after a catch (R257 to R260). -/

namespace Sys2Proof.Machine
set_option Elab.async false

-- How the catch is classified and the start goes on (R256 to R261, Table 8.3).

/-- What the catch measurement counts and shows (Table 8.9, 8.10). -/
def catchShown (s : State) : Nat × Int × Bool := (s.spn.catches, s.spn.catchRpm, s.spn.dir)
theorem catchShown_of_spn {s t : State} (h : t.spn = s.spn) : catchShown t = catchShown s := by
  unfold catchShown
  rw [h]
theorem catchShown_of_log {s t : State} (h : spindleLog t = spindleLog s) : catchShown t = catchShown s :=
  congrArg (fun l : Spindle × SpindleCtl => (l.1.catches, l.1.catchRpm, l.1.dir)) h
/-- The current loops run and the gates switch: how a start and a catch begin to drive. -/
def drives (s : State) : State := gatesOn (enableCtx 137 (enableCtx 136 (inverterOff s)))
theorem drives_spn (s : State) : (drives s).spn = { s.spn with lock := false, vlimit := false } := by
  unfold drives
  rw [(gatesOn_only _).spn, (enableCtx_only ..).spn, (enableCtx_only ..).spn, inverterOff_spn]
theorem mayDrive_of_same {s t : State} (hptn : t.ptn = s.ptn) (hspc : t.spc.overvolt = s.spc.overvolt) : mayDrive t = mayDrive s := by
  unfold mayDrive
  rw [hptn, hspc]
theorem inverterOff_mayDrive (s : State) : mayDrive (inverterOff s) = mayDrive s :=
  mayDrive_of_same (inverterOff_only s).ptn (by rw [inverterOff_spc])
theorem enableCtx_mayDrive (n : Nat) (s : State) : mayDrive (enableCtx n s) = mayDrive s :=
  mayDrive_of_same (enableCtx_only ..).ptn (by rw [(enableCtx_only ..).spc])
theorem getCtx_of_gov {s t : State} (n : Nat) (h : t.gov = s.gov) : getCtx t n = getCtx s n := by
  unfold getCtx
  rw [h]
theorem drives_gates {s : State} (h : mayDrive s = true) : (drives s).spc.gates = true := by
  unfold drives
  exact gatesOn_gates (by rw [enableCtx_mayDrive, enableCtx_mayDrive, inverterOff_mayDrive, h])
theorem drives_ctxs (s : State) : (getCtx (drives s) 136).enable = true ∧ (getCtx (drives s) 137).enable = true := by
  unfold drives
  rw [getCtx_of_gov 136 (gatesOn_only _).gov, getCtx_of_gov 137 (gatesOn_only _).gov, getCtx_enableCtx_other _ (by decide)]
  exact ⟨getCtx_enableCtx .., getCtx_enableCtx ..⟩
/-- Alignment: what a start from rest sets once it drives (R259). -/
def aligned (s : State) : State := { s with
  spn := { s.spn with mode := 3 },
  spc := { s.spc with iqSet := 1000 * iAlign s.img, fromRest := true, obs := {}, lockEps := [], lockRun := 0, epsRun := 0, faintRun := 0 } }
theorem startFromRest_eq (s : State) : startFromRest s = aligned (drives s) := by
  unfold startFromRest aligned drives
  rfl
/-- The observer takes over at the speed of the catch. -/
def observed (s : State) : State := { s with
  spn := { s.spn with mode := 5 },
  spc := { s.spc with iqSet := 0, everWindow := false, goodMeans := 0, means := [], outSince := none, source := false, fromRest := false } }
theorem closeLoops_eq (rpm : Int) (s : State) : closeLoops rpm s = observed (presetObserver rpm (drives s)) := by
  unfold closeLoops observed drives
  rfl
theorem aligned_left (s : State) : (aligned s).spn = { s.spn with mode := 3 } ∧ (aligned s).spc.gates = s.spc.gates ∧ (aligned s).gov = s.gov := ⟨rfl, rfl, rfl⟩
theorem observed_left (rpm : Int) (s : State) : (observed (presetObserver rpm s)).spn = { s.spn with mode := 5, speed := 65536 * rpm } ∧
    (observed (presetObserver rpm s)).spc.gates = s.spc.gates ∧ (observed (presetObserver rpm s)).gov = s.gov := ⟨rfl, rfl, rfl⟩
theorem startFromRest_spn (s : State) : (startFromRest s).spn = { s.spn with mode := 3, lock := false, vlimit := false } := by
  rw [startFromRest_eq, (aligned_left _).1, drives_spn]
theorem closeLoops_spn (rpm : Int) (s : State) : (closeLoops rpm s).spn = { s.spn with mode := 5, speed := 65536 * rpm, lock := false, vlimit := false } := by
  rw [closeLoops_eq, (observed_left ..).1, drives_spn]
theorem startFromRest_drives {s : State} (h : mayDrive s = true) :
    (startFromRest s).spc.gates = true ∧ (getCtx (startFromRest s) 136).enable = true ∧ (getCtx (startFromRest s) 137).enable = true := by
  obtain ⟨-, hgates, hgov⟩ := aligned_left (drives s)
  rw [startFromRest_eq, hgates, getCtx_of_gov 136 hgov, getCtx_of_gov 137 hgov]
  exact ⟨drives_gates h, drives_ctxs s⟩
theorem closeLoops_drives (rpm : Int) {s : State} (h : mayDrive s = true) :
    (closeLoops rpm s).spc.gates = true ∧ (getCtx (closeLoops rpm s) 136).enable = true ∧ (getCtx (closeLoops rpm s) 137).enable = true := by
  obtain ⟨-, hgates, hgov⟩ := observed_left rpm (drives s)
  rw [closeLoops_eq, hgates, getCtx_of_gov 136 hgov, getCtx_of_gov 137 hgov]
  exact ⟨drives_gates h, drives_ctxs s⟩
theorem setSpnMode_spn (m : Nat) (s : State) : (setSpnMode m s).spn = { s.spn with mode := m } := rfl
theorem startSlowWait_spn (s : State) : ∃ e, (startSlowWait s).spn = { s.spn with mode := 11, lock := false, vlimit := false, lastEvent := e } ∧
    (e = if catchSb s.img = 1 ∧ mayDrive s = true then 0x2C else s.spn.lastEvent) := by
  have himg : (setSpnMode 11 (inverterOff s)).img = s.img := (setSpnMode_only ..).img.trans (inverterOff_only s).img
  rw [startSlowWait_eq, himg, setSpnMode_mayDrive, inverterOff_mayDrive]
  by_cases h : catchSb s.img = 1 ∧ mayDrive s = true
  · refine ⟨0x2C, ?_, (if_pos h).symm⟩
    rw [if_pos (by simp [h]), spnReport_spn, (gatesOn_only _).spn]
    rw [setSpnMode_spn, inverterOff_spn]
  · refine ⟨s.spn.lastEvent, ?_, (if_neg h).symm⟩
    rw [if_neg (by simpa using h)]
    rw [setSpnMode_spn, inverterOff_spn]
/-- The check of the flux writes the measured constant and its margin, and no more of the spindle (R258). -/
theorem judgeMargin_ke_only (l : Loc) (m : Rat) (s : State) : Only { evt := true, gov := true, fan := true } s (judgeMargin .ke l m s) :=
  .ite ((exhausted_only ..).after ((noteMargin_only ..).after (.ite .refl (recovered_only ..).mono))) ((noteMargin_only ..).after (.ite .refl (recovered_only ..).mono))

end Sys2Proof.Machine
end

section
/-! The classification of a catch (Table 8.3). -/

namespace Sys2Proof.Machine
set_option Elab.async false

theorem keCheck_fst_of_same {rpm : Int} {amplitude : Rat} {s t : State} (himg : t.img = s.img) (halks : t.alks = s.alks) :
    (keCheck rpm amplitude t).1 = (keCheck rpm amplitude s).1 := by
  have hke : keComp t = keComp s := by
    unfold keComp motorTemp getAlk
    rw [himg, halks]
  unfold keCheck
  rw [hke]
  split
  · rfl
  · rfl
/-- The check of the flux constant (R258) leaves what the catch has shown and what drives the spindle. -/
theorem keCheck_left (rpm : Int) (amplitude : Rat) (s : State) :
    Only { spn := true, spc := true, evt := true, gov := true, fan := true } s (keCheck rpm amplitude s).2 ∧
    catchShown (keCheck rpm amplitude s).2 = catchShown s ∧ (keCheck rpm amplitude s).2.spc.overvolt = s.spc.overvolt ∧
    (keCheck rpm amplitude s).2.spn.lastEvent = s.spn.lastEvent := by
  unfold keCheck
  split
  · exact ⟨.refl, rfl, rfl, rfl⟩
  · extract_lets ke ratio _ _ t
    have hjudged : Only { evt := true, gov := true, fan := true } t (if fantailHalted t then t else judgeMargin .ke {} (ratio * 32768) t) := .ite .refl (judgeMargin_ke_only ..)
    have ht : catchShown t = catchShown s ∧ t.spc.overvolt = s.spc.overvolt ∧ t.spn.lastEvent = s.spn.lastEvent := ⟨rfl, rfl, rfl⟩
    obtain ⟨hshown, hvolt, hevent⟩ := ht
    exact ⟨hjudged.after (.upd .refl), (catchShown_of_spn hjudged.spn).trans hshown, (congrArg SpindleCtl.overvolt hjudged.spc).trans hvolt,
      (congrArg Spindle.lastEvent hjudged.spn).trans hevent⟩

/-- The classification of a catch (Table 8.3): what it leaves of the check of the flux. -/
def catchChecked (rpm : Int) (slow : Bool) (amplitude : Rat) (s : State) : Bool × State := if slow then (true, s) else keCheck rpm amplitude s
theorem catchChecked_left (rpm : Int) (slow : Bool) (amplitude : Rat) (s : State) :
    Only { spn := true, spc := true, evt := true, gov := true, fan := true } s (catchChecked rpm slow amplitude s).2 ∧
    catchShown (catchChecked rpm slow amplitude s).2 = catchShown s ∧ mayDrive (catchChecked rpm slow amplitude s).2 = mayDrive s := by
  unfold catchChecked
  split
  · exact ⟨.refl, rfl, rfl⟩
  · obtain ⟨honly, hshown, hvolt, -⟩ := keCheck_left rpm amplitude s
    exact ⟨honly, hshown, mayDrive_of_same honly.ptn hvolt⟩
/-- A catch outside Hold-up, after its check. -/
def classified (rpm : Int) (slow keOk : Bool) (s : State) : State :=
  if !keOk then spindleFault 0x24 false [] (spindleLost 0x24) (gatesOff s)
  else if afterHoldState s.dev && (slow || !(speedHeld s)) then spindleLost s.flt.holdCause s
  else if !mayDrive s then startCoast s
  else if slow then startFromRest s
  else if 300 < rpm then closeLoops rpm s
  else startSlowWait s
/-- A catch in Hold-up, after its check (R268). -/
def classifiedUp (rpm : Int) (slow keOk : Bool) (s : State) : State :=
  let s := if keOk then s else spnEvent 0x24 [] s
  if !slow && (genMin s.img : Int) ≤ rpm && mayDrive s then startGenerator (closeLoops rpm (spnEvent 0x21 [] s)) else generatorEnd s
theorem classifyCatch_eq (rpm : Int) (slow : Bool) (amplitude : Rat) (s : State) : classifyCatch rpm slow amplitude s =
    (if (catchChecked rpm slow amplitude s).2.dev = .holdUp then classifiedUp rpm slow (catchChecked rpm slow amplitude s).1 (catchChecked rpm slow amplitude s).2
     else classified rpm slow (catchChecked rpm slow amplitude s).1
       (if slow then (catchChecked rpm slow amplitude s).2 else spnEvent (if rpm < 0 then 0x22 else 0x21) [] (catchChecked rpm slow amplitude s).2)) := by
  unfold classifyCatch
  rfl
theorem catchShown_spnEvent (code : BitVec 8) (fs : List PayField) (s : State) : catchShown (spnEvent code fs s) = catchShown s := by
  have hspn : (spnEvent code fs s).spn = { s.spn with lastEvent := code } := by
    unfold spnEvent
    rw [(post_only ..).spn]
  unfold catchShown
  rw [hspn]
theorem catchShown_spindleFault {code : BitVec 8} {hold : Bool} {fs : List PayField} {f : State → State} (hf : ∀ t, spindleLog (f t) = spindleLog t) (s : State) :
    catchShown (spindleFault code hold fs f s) = catchShown s :=
  congrArg (fun l : Spindle × SpindleCtl => (l.1.catches, l.1.catchRpm, l.1.dir)) (spindleLog_spindleFault hf s)
theorem catchShown_classified (rpm : Int) (slow keOk : Bool) (s : State) : catchShown (classified rpm slow keOk s) = catchShown s := by
  unfold classified
  split
  · exact (catchShown_spindleFault (fun t => spindleLog_spindleLost ..) _).trans (catchShown_of_spn (gatesOff_only _).spn)
  split
  · exact catchShown_of_log (spindleLog_spindleLost ..)
  split
  · exact catchShown_of_log (spindleLog_startCoast _)
  split
  · unfold catchShown
    rw [startFromRest_spn]
  split
  · unfold catchShown
    rw [closeLoops_spn]
  · obtain ⟨e, hspn, -⟩ := startSlowWait_spn s
    unfold catchShown
    rw [hspn]
theorem catchShown_startGenerator (s : State) : catchShown (startGenerator s) = catchShown s := by
  have hloops : ∀ t : State, (each [136, 137] (fun n s => if (getCtx s n).enable then setFormat n false s else enableCtx n s) t).spn = t.spn := fun t =>
    (Only.each (m := { gov := true }) (fun n s => .ite (setFormat_only ..) (enableCtx_only ..)) .refl).spn
  have hhanded : ∀ t : State, (if (getCtx t 138).enable then takeOver 139 138 t else enableCtx 139 (disableCtx 138 t)).spn = t.spn := fun t =>
    (Only.ite (m := { gov := true }) (takeOver_only ..) ((enableCtx_only ..).after (disableCtx_only ..))).spn
  unfold startGenerator
  extract_lets t u v w _ _ x
  have hw : w.spn = s.spn := (gatesOn_only v).spn.trans ((hhanded u).trans ((setSetpoint_only ..).spn.trans (hloops s)))
  have hx : catchShown x = catchShown w := rfl
  exact (catchShown_of_spn (post_only ..).spn).trans (hx.trans (catchShown_of_spn hw))
theorem catchShown_spnReport (code : BitVec 8) (fs : List PayField) (hold : Bool) (s : State) : catchShown (spnReport code fs hold s) = catchShown s := by
  unfold catchShown
  rw [spnReport_spn]
theorem catchShown_spc (s : State) (c : SpindleCtl) : catchShown { s with spc := c } = catchShown s := rfl
theorem catchShown_generatorEnd (s : State) : catchShown (generatorEnd s) = catchShown s := by
  unfold generatorEnd
  dsimp only
  rw [catchShown_spnReport, catchShown_spc]
  exact catchShown_of_log (spindleLog_startCoast s)
theorem catchShown_closeLoops (rpm : Int) (s : State) : catchShown (closeLoops rpm s) = catchShown s := by
  unfold catchShown
  rw [closeLoops_spn]
theorem catchShown_classifiedUp (rpm : Int) (slow keOk : Bool) (s : State) : catchShown (classifiedUp rpm slow keOk s) = catchShown s := by
  have hevent : catchShown (if keOk then s else spnEvent 0x24 [] s) = catchShown s := by
    split
    · rfl
    · exact catchShown_spnEvent ..
  unfold classifiedUp
  rw [← hevent]
  generalize (if keOk then s else spnEvent 0x24 [] s) = t
  dsimp only
  split
  · rw [catchShown_startGenerator, catchShown_closeLoops, catchShown_spnEvent]
  · exact catchShown_generatorEnd _
theorem catchShown_classifyCatch (rpm : Int) (slow : Bool) (amplitude : Rat) (s : State) : catchShown (classifyCatch rpm slow amplitude s) = catchShown s := by
  obtain ⟨-, hchecked, -⟩ := catchChecked_left rpm slow amplitude s
  rw [classifyCatch_eq, ← hchecked]
  split
  · exact catchShown_classifiedUp ..
  · rw [catchShown_classified]
    split
    · rfl
    · exact catchShown_spnEvent ..
theorem spnEvent_spn (code : BitVec 8) (fs : List PayField) (s : State) : (spnEvent code fs s).spn = { s.spn with lastEvent := code } := by
  unfold spnEvent
  rw [(post_only ..).spn]
theorem spnEvent_mayDrive (code : BitVec 8) (fs : List PayField) (s : State) : mayDrive (spnEvent code fs s) = mayDrive s :=
  mayDrive_of_same (spnEvent_only ..).ptn (by rw [(spnEvent_only ..).spc])
/-- What a start goes on with, once the catch has passed its check outside service. -/
theorem classified_passed {rpm : Int} {slow : Bool} {s : State} (hdev : s.dev = .spinningUp) (hmay : mayDrive s = true) :
    classified rpm slow true s = if slow then startFromRest s else if 300 < rpm then closeLoops rpm s else startSlowWait s := by
  unfold classified
  rw [if_neg (by decide), if_neg (by rw [hdev, show afterHoldState .spinningUp = false from rfl, Bool.false_and]; decide), if_neg (by rw [hmay]; decide)]
theorem classified_rest {rpm : Int} {s : State} (hdev : s.dev = .spinningUp) (hmay : mayDrive s = true) :
    (classified rpm true true s).spn.mode = 3 ∧ (classified rpm true true s).spc.gates = true ∧
      (getCtx (classified rpm true true s) 136).enable = true ∧ (getCtx (classified rpm true true s) 137).enable = true := by
  rw [classified_passed hdev hmay, if_pos rfl, startFromRest_spn]
  exact ⟨rfl, startFromRest_drives hmay⟩
theorem classified_fast {rpm : Int} {s : State} (hdev : s.dev = .spinningUp) (hmay : mayDrive s = true) (hfast : 300 < rpm) :
    (classified rpm false true s).spn.mode = 5 ∧ ((classified rpm false true s).spc.gates = true ∧
      (getCtx (classified rpm false true s) 136).enable = true ∧ (getCtx (classified rpm false true s) 137).enable = true) ∧
      (classified rpm false true s).spn.lastEvent = s.spn.lastEvent := by
  rw [classified_passed hdev hmay, if_neg Bool.false_ne_true, if_pos hfast, closeLoops_spn]
  exact ⟨rfl, closeLoops_drives rpm hmay, rfl⟩
theorem classified_waits {rpm : Int} {s : State} (hdev : s.dev = .spinningUp) (hmay : mayDrive s = true) (hwait : ¬ 300 < rpm) :
    (classified rpm false true s).spn.mode = 11 ∧ (classified rpm false true s).spn.lastEvent = if catchSb s.img = 1 then 0x2C else s.spn.lastEvent := by
  obtain ⟨e, hspn, he⟩ := startSlowWait_spn s
  rw [classified_passed hdev hmay, if_neg Bool.false_ne_true, if_neg hwait, hspn]
  refine ⟨rfl, he.trans ?_⟩
  rw [hmay]
  simp
/-- From Spinning-up a catch that passes its check goes on with the start (Table 8.3). -/
theorem classifyCatch_goesOn {rpm : Int} {slow : Bool} {amplitude : Rat} {s : State} (hdev : s.dev = .spinningUp)
    (hok : slow = true ∨ (keCheck rpm amplitude s).1 = true) (hmay : mayDrive s = true) :
    (classifyCatch rpm slow amplitude s).spn.mode = (if slow = true then 3 else if 300 < rpm then 5 else 11) ∧
    (slow = true ∨ 300 < rpm → (classifyCatch rpm slow amplitude s).spc.gates = true ∧ (getCtx (classifyCatch rpm slow amplitude s) 136).enable = true ∧
      (getCtx (classifyCatch rpm slow amplitude s) 137).enable = true) ∧
    (slow = false → (classifyCatch rpm slow amplitude s).spn.lastEvent = if catchSb s.img = 1 ∧ rpm ≤ 300 then 0x2C else if rpm < 0 then 0x22 else 0x21) := by
  obtain ⟨honly, -, hdrive⟩ := catchChecked_left rpm slow amplitude s
  have hpassed : (catchChecked rpm slow amplitude s).1 = true := by
    unfold catchChecked
    split
    · rfl
    next hslow => exact hok.resolve_left hslow
  have hchecked := honly.dev.trans hdev
  have himg := honly.img
  have hmay' := hdrive.trans hmay
  rw [classifyCatch_eq, if_neg (by rw [hchecked]; decide), hpassed]
  generalize (catchChecked rpm slow amplitude s).2 = u at hchecked himg hmay'
  cases slow with
  | true =>
    rw [if_pos rfl, if_pos rfl]
    obtain ⟨hmode, hdrives⟩ := classified_rest hchecked hmay'
    exact ⟨hmode, fun _ => hdrives, fun h => absurd h (by decide)⟩
  | false =>
    rw [if_neg Bool.false_ne_true, if_neg Bool.false_ne_true]
    have hevent : (spnEvent (if rpm < 0 then 0x22 else 0x21) [] u).spn.lastEvent = if rpm < 0 then 0x22 else 0x21 := by rw [spnEvent_spn]
    have hdev' : (spnEvent (if rpm < 0 then 0x22 else 0x21) [] u).dev = .spinningUp := (spnEvent_only ..).dev.trans hchecked
    have hmay'' := (spnEvent_mayDrive (if rpm < 0 then 0x22 else 0x21) [] u).trans hmay'
    have himg' : (spnEvent (if rpm < 0 then 0x22 else 0x21) [] u).img = s.img := (spnEvent_only ..).img.trans himg
    by_cases hfast : 300 < rpm
    · obtain ⟨hmode, hdrives, hlast⟩ := classified_fast hdev' hmay'' hfast
      exact ⟨hmode.trans (if_pos hfast).symm, fun _ => hdrives, fun _ =>
        (hlast.trans hevent).trans (if_neg fun h : catchSb s.img = 1 ∧ rpm ≤ 300 => absurd h.2 (not_le.2 hfast)).symm⟩
    · obtain ⟨hmode, hlast⟩ := classified_waits hdev' hmay'' hfast
      refine ⟨hmode.trans (if_neg hfast).symm, fun h => ?_, fun _ => ?_⟩
      · exact absurd h (by simpa using hfast)
      · rw [hlast, hevent, himg']
        simp [not_lt.1 hfast]
/-- From Spinning-up a catch that fails its check stops the part (R258). -/
theorem classifyCatch_stops {rpm : Int} {amplitude : Rat} {s : State} (hdev : s.dev = .spinningUp) (hstep : s.flt.stopStep = 0) (hbad : (keCheck rpm amplitude s).1 = false) :
    (classifyCatch rpm false amplitude s).dev = .stopped ∧ (classifyCatch rpm false amplitude s).spn.lastEvent = 0x24 ∧ (classifyCatch rpm false amplitude s).spc.gates = false := by
  obtain ⟨honly, -, -⟩ := catchChecked_left rpm false amplitude s
  have hfailed : (catchChecked rpm false amplitude s).1 = false := hbad
  rw [classifyCatch_eq, if_neg (by rw [honly.dev, hdev]; decide), hfailed, if_neg Bool.false_ne_true]
  generalize (catchChecked rpm false amplitude s).2 = u at honly
  have hoff := (gatesOff_only (spnEvent (if rpm < 0 then 0x22 else 0x21) [] u)).after (m := .but { dev := true, flt := true, ptn := true }) (spnEvent_only ..).mono
  obtain ⟨hlast, -, hstops, -⟩ := (spindleFault_lost (code := 0x24) (hold := false) (fs := [])).of_same
    (s := s) (hoff.dev.trans honly.dev) (congrArg Flt.stopStep (hoff.flt.trans honly.flt))
  obtain ⟨hstopped, hgates, -⟩ := hstops (.inr (.inr hdev)) hstep
  exact ⟨hstopped, hlast, hgates⟩

end Sys2Proof.Machine
end

section
/-! Loading begins, and the speed loop's set-point. -/

namespace Sys2Proof.Machine
set_option Elab.async false

theorem getCtx_setSetpoint (n : Nat) (v : Int) (s : State) : (getCtx (setSetpoint n v s) n).setpoint = v ∧ (getCtx (setSetpoint n v s) n).enable = (getCtx s n).enable := by
  unfold setSetpoint
  rw [getCtx_modCtx]
  split
  next h => exact ⟨h, rfl⟩
  next h => exact ⟨rfl, rfl⟩
theorem applySetpoint_spn (s : State) : ∃ k, (applySetpoint s).spn = { s.spn with curvePt := k } := by
  unfold applySetpoint
  split
  · exact ⟨_, rfl⟩
  · exact ⟨_, rfl⟩
theorem applySetpoint_lastEvent (s : State) : (applySetpoint s).spn.lastEvent = s.spn.lastEvent := by
  obtain ⟨k, hk⟩ := applySetpoint_spn s
  rw [hk]
theorem getCtx_spn (s : State) (p : Spindle) (n : Nat) : getCtx { s with spn := p } n = getCtx s n := rfl
theorem applySetpoint_enable (s : State) : (getCtx (applySetpoint s) 138).enable = (getCtx s 138).enable := by
  unfold applySetpoint
  split
  · dsimp only
    rw [(getCtx_setSetpoint ..).2, getCtx_spn, getCtx_modCtx]
  · dsimp only
    rw [(getCtx_setSetpoint ..).2, getCtx_spn, getCtx_modCtx]
/-- Past Spinning-up the speed loop runs to N_SVC (R600). -/
theorem applySetpoint_setpoint {s : State} (h : s.dev ≠ .spinningUp) : (getCtx (applySetpoint s) 138).setpoint = rpm16 (nSvc s.img) := by
  unfold applySetpoint
  rw [if_neg h]
  exact (getCtx_setSetpoint ..).1
theorem closeSpeedLoop_enable (s : State) : (getCtx (closeSpeedLoop s) 138).enable = true := by
  unfold closeSpeedLoop
  split
  · assumption
  · rw [applySetpoint_enable]
    exact getCtx_enableCtx ..
theorem closeSpeedLoop_spn (s : State) : ∃ k, (closeSpeedLoop s).spn = { s.spn with curvePt := k } := by
  unfold closeSpeedLoop
  split
  · exact ⟨_, rfl⟩
  · obtain ⟨k, hk⟩ := applySetpoint_spn (enableCtx 138 s)
    exact ⟨k, hk.trans (by rw [(enableCtx_only ..).spn])⟩
theorem getCtx_requestSwitch (n k : Nat) (s : State) : (getCtx (requestSwitch n s) k).setpoint = (getCtx s k).setpoint := by
  unfold requestSwitch
  split
  · by_cases h : k = n
    · rw [h, getCtx_modCtx]
    · rw [getCtx_modCtx_other _ _ h]
  · rfl

/-- The values of an image's lists and the number of its arms: what no restored value of the plan changes (R556). -/
def imageLists (i : Image) : Tab (List (Nat × Nat)) × Nat := (i.lists, i.arms)
theorem imageLists_putImg (i : Image) (type inst off len v : Nat) : imageLists (putImg i type inst off len v) = imageLists i := by
  unfold putImg
  dsimp only
  split
  · rfl
  · rfl
theorem imageLists_applyPlan (v : PlanVal) (s : State) : imageLists (applyPlan v s).img = imageLists s.img := by
  unfold applyPlan
  rw [(handServo_only ..).img]
  split
  all_goals first | rfl | (dsimp only [putChan, putOff]; simp only [imageLists_putImg])
theorem imageLists_useStore (s : State) : imageLists (useStore s).img = imageLists s.img := by
  unfold useStore
  rw [(Only.each (m := { gov := true }) (fun l s => putLaw_only ..) .refl).img]
  refine each_proj (fun s => imageLists s.img) _ _ _ fun v s => ?_
  split
  · rfl
  · exact imageLists_applyPlan ..
theorem imageLists_restorePlan (s : State) : imageLists (restorePlan s).img = imageLists s.img := by
  unfold restorePlan
  split
  · dsimp only
    split
    · exact imageLists_useStore s
    · exact imageLists_useStore s
  · rw [(post_only ..).img]
theorem arms_of_lists {i j : Image} (h : imageLists i = imageLists j) : i.arms = j.arms := congrArg Prod.snd h
theorem nSvc_of_lists {i j : Image} (h : imageLists i = imageLists j) : nSvc i = nSvc j := by
  unfold nSvc imgField
  rw [show i.lists = j.lists from congrArg Prod.fst h]

/-- The arms' loads fall due as Loading begins (R200, R600). -/
def loadsDue (s : State) : State := each (armList s) (fun a s => modArm s a fun r => { r with attempts := 0, reloads := 0, loadDue := some (now s) }) s
theorem loadsDue_only (s : State) : Only { arms := true } s (loadsDue s) := .each (fun _ _ => .upd .refl) .refl
theorem getArm_of_arms {s t : State} (a : Nat) (h : t.arms = s.arms) : getArm t a = getArm s a := by
  unfold getArm
  rw [h]
theorem getArm_loadsDue {s : State} {a : Nat} (h : a < s.img.arms) : (getArm (loadsDue s) a).loadDue = some (now s) := by
  have heach := get_each_range (get := fun s a => ((getArm s a).loadDue, now s)) (g := fun _ p => (some p.2, p.2))
    (f := fun a s => modArm s a fun r => { r with attempts := 0, reloads := 0, loadDue := some (now s) })
    (fun k s => by
      dsimp only
      rw [getArm_modArm]
      rfl)
    (fun k e s he => by
      rw [getArm_modArm_other _ _ he]
      rfl) h s
  exact congrArg Prod.fst heach
theorem getCtx_traceFire (s : State) (n : Nat) : getCtx (traceFire s) n = getCtx s n := by
  unfold traceFire
  split
  · exact each_proj (getCtx · n) (List.range 8) _ _ fun c s => rfl
  · rfl
theorem getCtx_post (code source : BitVec 8) (fs : List PayField) (s : State) (n : Nat) : getCtx (post code source fs s) n = getCtx s n := by
  unfold post postInj
  dsimp only
  rw [getCtx_of_only n (takeEvent_only ..)]
  split
  · exact getCtx_traceFire s n
  · rfl
/-- What stands of Loading once the arms' loads are due: the note of a replay alone follows. -/
structure LoadingNoted (s t : State) : Prop where
  dev : t.dev = s.dev
  start : t.start = s.start
  spn : t.spn = s.spn
  arms : t.arms = s.arms
  ctx : getCtx t 138 = getCtx s 138
theorem loadingNoted (s : State) (h : HoldUp) : LoadingNoted s (if s.hold.replay.isEmpty then s else post 0x14 mStart [] { s with hold := h }) := by
  split
  · exact ⟨rfl, rfl, rfl, rfl, rfl⟩
  · have hpost := post_only 0x14 mStart [] { s with hold := h }
    exact ⟨hpost.dev, hpost.start, hpost.spn, hpost.arms, getCtx_post ..⟩
theorem startSet_kept (s : State) (p : Start) : { s with start := p }.spn = s.spn ∧ { s with start := p }.arms = s.arms ∧ { s with start := p }.gov = s.gov ∧ { s with start := p }.dev = s.dev :=
  ⟨rfl, rfl, rfl, rfl⟩
/-- Loading begins: the speed loop runs to N_SVC and every arm's load is due (R600). -/
theorem enterLoading_begun (s : State) : (enterLoading s).dev = .loading ∧ (enterLoading s).start.step = 13 ∧ (enterLoading s).spn.lastEvent = s.spn.lastEvent ∧
    (∀ a < s.img.arms, (getArm (enterLoading s) a).loadDue = some (now s)) ∧ (getCtx (enterLoading s) 138).setpoint = rpm16 (nSvc s.img) := by
  unfold enterLoading
  extract_lets _ s₁ s₂ s₃ s₄ s₅ _ s₆ _
  have hlists : imageLists s₂.img = imageLists s.img := imageLists_restorePlan s₁
  have hrestored := restorePlan_only s₁
  have hset := applySetpoint_only s₂
  have hswitch : Only { gov := true } s₃ s₄ := .each (fun _ _ => requestSwitch_only ..) .refl
  have hloads₅ : s₅ = loadsDue s₄ := rfl
  have harms : Only { arms := true } s₄ s₅ := loadsDue_only s₄
  have hready : s₆.spn = s₅.spn ∧ s₆.arms = s₅.arms ∧ s₆.gov = s₅.gov ∧ s₆.dev = s₅.dev := startSet_kept s₅ _
  obtain ⟨hspn₆, harms₆, hgov₆, hdev₆⟩ := hready
  obtain ⟨hdev, hstart, hspn, harm, hctx⟩ := loadingNoted s₆ { s₆.hold with state := 5 }
  have himg : s₄.img = s₂.img := hswitch.img.trans hset.img
  have hnow₂ := now_of_only hrestored
  have hnow₃ := now_of_only hset
  have hnow₄ := now_of_only hswitch
  have hnow : now s₄ = now s := hnow₄.trans (hnow₃.trans hnow₂)
  have hloading : s₂.dev = .loading := hrestored.dev
  refine ⟨hdev.trans (hdev₆.trans <| harms.dev.trans (hswitch.dev.trans (hset.dev.trans hrestored.dev))), ?_, ?_, fun a ha => ?_, ?_⟩
  · rw [hstart]
  · have hlast₃ : s₃.spn.lastEvent = s₂.spn.lastEvent := applySetpoint_lastEvent s₂
    have hlast₂ : s₂.spn.lastEvent = s.spn.lastEvent := congrArg Spindle.lastEvent hrestored.spn
    have hspn₄ := hspn.trans (hspn₆.trans (harms.spn.trans hswitch.spn))
    rw [hspn₄, hlast₃, hlast₂]
  · have hfitted : a < s₄.img.arms := by
      rw [himg, arms_of_lists hlists]
      exact ha
    have hdue := getArm_loadsDue hfitted
    rw [hnow] at hdue
    have harm₅ := harm.trans harms₆
    rw [getArm_of_arms a harm₅, hloads₅]
    exact hdue
  · have hpoint : (getCtx s₃ 138).setpoint = rpm16 (nSvc s₂.img) := applySetpoint_setpoint (by rw [hloading]; decide)
    have hasked : (getCtx s₄ 138).setpoint = (getCtx s₃ 138).setpoint := each_proj (fun s => (getCtx s 138).setpoint) _ _ _ fun n s => getCtx_requestSwitch n 138 s
    have hloads : getCtx s₆ 138 = getCtx s₄ 138 := (getCtx_of_gov 138 hgov₆).trans (getCtx_of_only 138 harms)
    rw [hctx, hloads, hasked, hpoint, nSvc_of_lists hlists]

end Sys2Proof.Machine
end

section
/-! The start of the spindle (O8). -/

namespace Sys2Proof.Machine
set_option Elab.async false

theorem startCatch_left (s : State) : (startCatch s).spn.mode = 2 ∧ (startCatch s).spc.gates = false ∧ (startCatch s).spc.offA = s.spc.offA ∧ (startCatch s).spc.offB = s.spc.offB ∧
    (startCatch s).spc.offC = s.spc.offC ∧ (startCatch s).spc.offsetsDone = s.spc.offsetsDone ∧ (startCatch s).spc.fromRest = s.spc.fromRest := by
  unfold startCatch
  dsimp only
  rw [inverterOff_spc]
  exact ⟨rfl, rfl, rfl, rfl, rfl, rfl, rfl⟩
theorem startOffsets_mode (s : State) : (startOffsets s).spn.mode = 1 := by
  unfold startOffsets
  rfl
theorem offsetsBad_iff {s : State} (hmode : s.spn.mode = 1) (hn : s.spc.offsetN = 1024) : offsetsBad s = true ↔
    offsetBad (offsetOf s.spc.offsetSum.1 1024) = true ∨ offsetBad (offsetOf s.spc.offsetSum.2.1 1024) = true ∨ offsetBad (offsetOf s.spc.offsetSum.2.2 1024) = true := by
  unfold offsetsBad
  rw [hmode, hn]
  simp

theorem startCatch_closed (s : State) : (startCatch { s with spc := { s.spc with fromRest := false } }).spn.mode = 2 ∧
    (startCatch { s with spc := { s.spc with fromRest := false } }).spc.gates = false ∧ (startCatch { s with spc := { s.spc with fromRest := false } }).spc.fromRest = false := by
  obtain ⟨hmode, hgates, -, -, -, -, hrest⟩ := startCatch_left { s with spc := { s.spc with fromRest := false } }
  exact ⟨hmode, hgates, hrest⟩
/-- The offsets that a measurement of 1,024 samples gives (R241). -/
def withOffsets (a b c : Int) (s : State) : State := { s with spc := { s.spc with offA := a, offB := b, offC := c, offsetsDone := true } }
theorem startCatch_withOffsets (a b c : Int) (s : State) : (startCatch (withOffsets a b c s)).spn.mode = 2 ∧ (startCatch (withOffsets a b c s)).spc.offA = a ∧
    (startCatch (withOffsets a b c s)).spc.offB = b ∧ (startCatch (withOffsets a b c s)).spc.offC = c ∧ (startCatch (withOffsets a b c s)).spc.offsetsDone = true ∧
    (startCatch (withOffsets a b c s)).spc.gates = false := by
  obtain ⟨hcatch, hgates, ha, hb, hc, hdone, -⟩ := startCatch_left (withOffsets a b c s)
  exact ⟨hcatch, ha, hb, hc, hdone, hgates⟩
/-- What a catch has shown, before it is classified (R257). -/
def catchCounted (rpm : Int) (s : State) : State :=
  { s with
    spc := { s.spc with unmeasured := false },
    spn := { s.spn with catches := satInc 8 s.spn.catches, catchRpm := satInt 16 rpm, dir := decide (rpm < 0), speed := satInt 32 (65536 * rpm) } }
theorem catchShown_catchCounted (rpm : Int) (s : State) : catchShown (catchCounted rpm s) = (satInc 8 s.spn.catches, satInt 16 rpm, decide (rpm < 0)) := rfl
theorem keCheck_catchCounted (r rpm : Int) (amplitude : Rat) (s : State) : (keCheck rpm amplitude (catchCounted r s)).1 = (keCheck rpm amplitude s).1 :=
  keCheck_fst_of_same rfl rfl
theorem mayDrive_catchCounted (rpm : Int) (s : State) : mayDrive (catchCounted rpm s) = mayDrive s := rfl

theorem offsetMeasureDone_completes {s : State} (hawake : awake s = true) :
    (let a := offsetOf s.spc.offsetSum.1 1024
     let b := offsetOf s.spc.offsetSum.2.1 1024
     let c := offsetOf s.spc.offsetSum.2.2 1024
     Completes .offsetMeasureDone s fun t =>
      (s.spn.mode ≠ 1 ∨ s.spc.offsetN ≠ 1024 → t = s) ∧
      (s.spn.mode = 1 → s.spc.offsetN = 1024 →
        (offsetBad a = false → offsetBad b = false → offsetBad c = false →
          t.spn.mode = 2 ∧ t.spc.offA = a ∧ t.spc.offB = b ∧ t.spc.offC = c ∧ t.spc.offsetsDone = true ∧ t.spc.gates = false) ∧
        (offsetBad a = true ∨ offsetBad b = true ∨ offsetBad c = true → SpindleFaulted 0x29 s t (StopBegun 0x29 s t)))) := by
  intro a b c
  refine ⟨_, if_pos hawake, ?_⟩
  have hstart : startCatch { s with spc := { s.spc with offA := offsetOf s.spc.offsetSum.1 1024, offB := offsetOf s.spc.offsetSum.2.1 1024, offC := offsetOf s.spc.offsetSum.2.2 1024, offsetsDone := true } } =
      startCatch (withOffsets a b c s) := rfl
  beta_reduce
  rw [hstart]
  have ha' : offsetOf s.spc.offsetSum.1 1024 = a := rfl
  have hb' : offsetOf s.spc.offsetSum.2.1 1024 = b := rfl
  have hc' : offsetOf s.spc.offsetSum.2.2 1024 = c := rfl
  split
  next h =>
    rw [Bool.and_eq_true, decide_eq_true_eq, decide_eq_true_eq] at h
    obtain ⟨hmode, hn⟩ := h
    refine ⟨fun hne => absurd hne (not_or.2 ⟨not_not_intro hmode, not_not_intro hn⟩), fun _ _ => ?_⟩
    have hbad := offsetsBad_iff hmode hn
    rw [ha', hb', hc'] at hbad
    clear_value a b c
    split
    next hb =>
      refine ⟨fun ha hb' hc => absurd (hbad.1 hb) (by rw [ha, hb', hc]; decide), fun _ => spindleFault_sense⟩
    next hb =>
      exact ⟨fun _ _ _ => startCatch_withOffsets _ _ _ s, fun hnot => absurd (hbad.2 hnot) hb⟩
  next h =>
    refine ⟨fun _ => rfl, fun hmode hn => absurd ?_ h⟩
    simp [hmode, hn]
theorem catchMeasureDone_completes {s : State} (hawake : awake s = true) :
    (let rpm := catchSpeed s
     let slow := catchSlow s
     Completes .catchMeasureDone s fun t =>
      (s.spn.mode ≠ 2 ∨ catchEnough s = false → t = s) ∧
      (s.spn.mode = 2 → catchEnough s = true →
        t.spn.catches = satInc 8 s.spn.catches ∧ t.spn.catchRpm = satInt 16 rpm ∧ t.spn.dir = decide (rpm < 0)) ∧
      (s.spn.mode = 2 → catchEnough s = true → s.dev = .spinningUp → slow = true ∨ (keCheck rpm (catchAmplitude s) s).1 = true → mayDrive s = true →
        t.spn.mode = (if slow = true then 3 else if 300 < rpm then 5 else 11) ∧
        (slow = true ∨ 300 < rpm → t.spc.gates = true ∧ (getCtx t 136).enable = true ∧ (getCtx t 137).enable = true) ∧
        (slow = false → t.spn.lastEvent = if catchSb s.img = 1 ∧ rpm ≤ 300 then 0x2C else if rpm < 0 then 0x22 else 0x21)) ∧
      (s.spn.mode = 2 → catchEnough s = true → s.dev = .spinningUp → slow = false → (keCheck rpm (catchAmplitude s) s).1 = false →
        s.flt.stopStep = 0 → t.dev = .stopped ∧ t.spn.lastEvent = 0x24 ∧ t.spc.gates = false)) := by
  refine ⟨_, if_pos hawake, ?_⟩
  beta_reduce
  split
  next h =>
    rw [Bool.and_eq_true, decide_eq_true_eq] at h
    obtain ⟨hmode, henough⟩ := h
    refine ⟨fun hne => absurd hne (not_or.2 ⟨not_not_intro hmode, by rw [henough]; decide⟩), fun _ _ => ?_, fun _ _ hdev hok hmay => ?_, fun _ _ hdev hslow hbad hstep => ?_⟩
    · have hshown := (catchShown_classifyCatch (catchSpeed s) (catchSlow s) (catchAmplitude s) (catchCounted (catchSpeed s) s)).trans (catchShown_catchCounted ..)
      rw [catchShown, Prod.mk.injEq, Prod.mk.injEq] at hshown
      exact hshown
    · exact classifyCatch_goesOn (s := catchCounted (catchSpeed s) s) hdev (by rwa [keCheck_catchCounted]) (by rwa [mayDrive_catchCounted])
    · rw [hslow]
      exact classifyCatch_stops (s := catchCounted (catchSpeed s) s) hdev hstep (by rwa [keCheck_catchCounted])
  next h =>
    have hno : ∀ P : Prop, s.spn.mode = 2 → catchEnough s = true → P := fun P hm he => absurd (by simp [hm, he]) h
    exact ⟨fun _ => rfl, hno _, hno _, hno _⟩
theorem slowWaitDone_completes {s : State} (hawake : awake s = true) :
    Completes .slowWaitDone s (fun t =>
      (s.spn.mode ≠ 11 ∨ underSixty s = false → t = s) ∧
      (s.spn.mode = 11 → underSixty s = true → t.spn.mode = if mayDrive s = false then 9 else if s.spc.restart then 1 else 3)) := by
  refine ⟨_, if_pos hawake, ?_⟩
  beta_reduce
  split
  next h => exact ⟨fun _ => rfl, fun hmode hslow => absurd h (by simp [hmode, hslow])⟩
  next h =>
    refine ⟨fun hnot => absurd ?_ h, fun _ _ => ?_⟩
    · simpa using hnot
    cases hmay : mayDrive s with
    | false => exact startCoast_mode s
    | true =>
      cases hrestart : s.spc.restart with
      | true => exact startOffsets_mode s
      | false => exact congrArg Spindle.mode (startFromRest_spn s)
theorem alignDone_completes {s : State} (hawake : awake s = true) :
    Completes .alignDone s (fun t =>
      (s.spn.mode ≠ 3 → t = s) ∧ (s.spn.mode = 3 → t.spn.mode = 4 ∧ t.spc.iqSet = 1000 * (iIf s.img : Int) ∧ t.spc.openAt = now s)) := by
  refine ⟨_, if_pos hawake, ?_⟩
  split
  next h => exact ⟨fun hne => absurd h hne, fun _ => ⟨rfl, rfl, rfl⟩⟩
  next h => exact ⟨fun _ => rfl, fun hm => absurd hm h⟩
theorem observerHandoff_completes {s : State} (hawake : awake s = true) :
    (let due : Prop := s.spn.mode = 4 ∧ s.spn.lock = true ∧ (nHandoff s.img : Rat) ≤ openRpm s ∧ 10 * |obsRpm s - openRpm s| ≤ openRpm s
     Completes .observerHandoff s fun t =>
      (¬ due → t = s) ∧
      (due → t.spn.mode = 5 ∧ t.spn.speed = satInt 32 (roundHalfUp (65536 * obsRpm s)) ∧ t.spc.iqSet = 0 ∧ (getCtx t 138).enable = true)) := by
  refine ⟨_, if_pos hawake, ?_⟩
  beta_reduce
  split
  next h =>
    obtain ⟨k, hspn⟩ := closeSpeedLoop_spn { s with
      spn := { s.spn with mode := 5, speed := satInt 32 (roundHalfUp (65536 * obsRpm s)) }, spc := { s.spc with iqSet := 0, source := false } }
    refine ⟨fun hn => absurd ?_ hn, fun _ => ⟨?_, ?_, ?_, closeSpeedLoop_enable _⟩⟩
    · simpa [and_assoc] using h
    · rw [hspn]
    · rw [hspn]
    · rw [(closeSpeedLoop_only _).spc]
  next h =>
    refine ⟨fun _ => rfl, fun hdue => absurd ?_ h⟩
    simpa [and_assoc] using hdue
theorem catchAt1000_completes {s : State} (hawake : awake s = true) :
    Completes .catchAt1000 s (fun t =>
      (s.spn.mode = 5 → s.spc.fromRest = true → rpm16 1000 ≤ s.spn.speed → t.spn.mode = 2 ∧ t.spc.gates = false ∧ t.spc.fromRest = false) ∧
      (s.spn.mode ≠ 5 ∨ s.spc.fromRest = false ∨ s.spn.speed < rpm16 1000 → t = s)) := by
  refine ⟨_, if_pos hawake, ?_⟩
  split
  next h =>
    refine ⟨fun _ _ _ => startCatch_closed s, fun hnot => ?_⟩
    simp only [Bool.and_eq_true, decide_eq_true_eq] at h
    obtain ⟨⟨hm, hr⟩, hs⟩ := h
    rcases hnot with hn | hn | hn
    · exact absurd hm hn
    · rw [hr] at hn; exact absurd hn (by decide)
    · exact absurd hs (not_le.2 hn)
  next h =>
    refine ⟨fun hm hr hs => absurd ?_ h, fun _ => rfl⟩
    simp [hm, hr, hs]
theorem spinupComplete_completes {s : State} (hawake : awake s = true) :
    Completes .spinupComplete s fun t =>
      s.dev = .spinningUp → s.spn.mode = 5 → (getCtx s 138).enable = true → s.spc.nearSince ≠ none →
        t.dev = .loading ∧ t.start.step = 13 ∧ t.spn.lastEvent = 0x20 ∧ (∀ a < s.img.arms, (getArm t a).loadDue = some (now s)) ∧
          (getCtx t 138).setpoint = rpm16 (nSvc s.img) := by
  refine ⟨_, if_pos hawake, ?_⟩
  intro hdev hmode hon hnear
  rw [if_pos (by simp [hdev, hmode, hon, Option.isSome_iff_ne_none.2 hnear])]
  have hevent := spnEvent_only 0x20 [] s
  obtain ⟨h1, h2, h3, h4, h5⟩ := enterLoading_begun (spnEvent 0x20 [] s)
  rw [spnEvent_spn] at h3
  rw [hevent.img] at h4 h5
  rw [now_of_only hevent] at h4
  exact ⟨h1, h2, h3, h4, h5⟩

/-- Settles O8: each row of Table 8.3 by the branch of the start that takes it. -/
theorem spindleStartsInOrder : Obligations.SpindleStartsInOrder := by
  unfold Obligations.SpindleStartsInOrder
  intro s hawake
  exact ⟨offsetMeasureDone_completes hawake, catchMeasureDone_completes hawake, slowWaitDone_completes hawake, alignDone_completes hawake, observerHandoff_completes hawake,
    catchAt1000_completes hawake, spinupComplete_completes hawake⟩

end Sys2Proof.Machine
end

section
/-! What gates writers lets none write again (R195). -/

namespace Sys2Proof.Machine
set_option Elab.async false

-- What gates writers (R195) lets none write again, and a report neither.

/-- No head writes afterwards that did not write before. -/
structure WritersRest (s t : State) : Prop where
  rest : ∀ n, (getHead s n).writing = false → (getHead t n).writing = false
theorem WritersRest.refl {s : State} : WritersRest s s := ⟨fun _ h => h⟩
theorem WritersRest.after {s t u : State} (h₂ : WritersRest t u) (h₁ : WritersRest s t) : WritersRest s u := ⟨fun n h => h₂.rest n (h₁.rest n h)⟩
theorem WritersRest.of_only {m : Units} {s t : State} (h : Only m s t) (hm : m.heads = false := by rfl) : WritersRest s t := ⟨fun n hn => by rwa [getHead_of_only n h hm]⟩
theorem WritersRest.ite {s t u : State} {c : Prop} [Decidable c] (h₁ : WritersRest s t) (h₂ : WritersRest s u) : WritersRest s (if c then t else u) := by
  split
  · exact h₁
  · exact h₂
theorem WritersRest.each {α : Type} {f : α → State → State} (hf : ∀ x s, WritersRest s (f x s)) (xs : List α) (s : State) : WritersRest s (each xs f s) := by
  induction xs generalizing s with
  | nil => exact .refl
  | cons x xs ih =>
    rw [each_cons]
    exact (ih _).after (hf x s)
theorem modHead_writersRest {n : Nat} {f : Head → Head} (s : State) (hf : ∀ d, d.writing = false → (f d).writing = false) : WritersRest s (modHead s n f) := by
  refine ⟨fun m hm => ?_⟩
  by_cases hmn : m = n
  · subst hmn
    rw [getHead_modHead]
    exact hf _ hm
  · rwa [getHead_modHead_other _ _ hmn]
theorem sendMode_writersRest (a h mode raw : Nat) (s : State) : WritersRest s (sendMode a h mode raw s) := by
  unfold sendMode
  exact .after (.of_only (alkSend_only ..)) (modHead_writersRest s fun _ hd => hd)
theorem laserOff_writersRest (a h : Nat) (write : Bool) (s : State) : WritersRest s (laserOff a h write s) := by
  unfold laserOff sendLaser
  exact .ite (.after (.of_only (alkSend_only ..)) (.after (modHead_writersRest _ fun _ hd => hd) (modHead_writersRest s fun _ _ => rfl))) (modHead_writersRest s fun _ _ => rfl)
theorem restHead_writersRest (a h : Nat) (write : Bool) (s : State) : WritersRest s (restHead a h write s) := by
  unfold restHead
  exact .ite .refl ((laserOff_writersRest ..).after ((sendMode_writersRest ..).after (.of_only (gateIsland_only ..))))
theorem cutVisit_writersRest (a : Nat) (s : State) : WritersRest s (cutVisit a s) := by
  unfold cutVisit
  split
  · exact .refl
  next o v _ =>
    have hheads (t : State) : WritersRest t (each o.heads (fun h s => restHead a h (decide (v.kind = 1)) s) t) := .each (fun _ _ => restHead_writersRest ..) _ _
    have hfree : WritersRest s (freeInner (fun e => e.1 = a) s) := .of_only (freeInner_only ..)
    exact .ite (.after (.of_only (m := { fan := true }) (.upd .refl)) ((hheads _).after (.after (.of_only (m := { slu := true }) (.upd .refl)) hfree)))
      (.after (.of_only (post_only ..)) (.after (.of_only (m := { fan := true }) (.upd .refl))
        ((hheads _).after (.after (.of_only (m := { slu := true }) (.upd .refl)) hfree))))
theorem enterHold_writersRest (event : BitVec 8) (injected : Bool) (s : State) : WritersRest s (enterHold event injected s) := by
  have hvisits (t : State) : WritersRest t (endVisits t) := by
    unfold endVisits
    exact .after (.of_only (m := { slu := true }) (.upd .refl)) (.after (.each (fun _ _ => cutVisit_writersRest ..) _ _)
      (.each (fun _ _ => .ite (.of_only (modSine_only ..)) .refl) _ _))
  unfold enterHold
  exact .ite (.after (.of_only (post_only ..)) (.after (hvisits _) (.of_only (m := { dev := true, flt := true }) (.upd .refl))))
    (.ite (.of_only (m := { flt := true }) (.upd .refl)) .refl)
theorem report_writersRest (r : Report) (s : State) : WritersRest s (report r s) := by
  unfold report reportAll
  exact .after (.each (fun _ _ => enterHold_writersRest ..) _ _) (.after (.of_only (captureFirst_only ..))
    (.each (fun _ _ => .after (.of_only (mqNote_only ..)) (.of_only (countReport_only ..))) _ _))
theorem condition_writersRest (code master : BitVec 8) (cause : Nat) (hold : Bool) (fs : List PayField) (s : State) :
    WritersRest s (condition code master cause hold fs s) := by
  unfold condition
  exact .after (report_writersRest ..) (.of_only (post_only ..))
theorem stopWriter_writersRest (n : Nat) (s : State) : WritersRest s (stopWriter n s) := by
  unfold stopWriter
  exact .after (modHead_writersRest _ fun _ _ => rfl) (.of_only (sendWgate_only ..))
theorem stopWriter_writing (n : Nat) (s : State) : (getHead (stopWriter n s) n).writing = false := by
  unfold stopWriter
  rw [getHead_modHead]
theorem gatedHead_writersRest (n : Nat) (s : State) : WritersRest (stopWriter n s) (condition 0x33 mMotion 7 false [] (modHead (stopWriter n s) n fun h => { h with wgate := satInc 16 h.wgate })) :=
  (condition_writersRest ..).after (modHead_writersRest _ fun _ hd => hd)
theorem writeGate_writersRest (n : Nat) (s : State) : WritersRest s (writeGate n s) := by
  unfold writeGate
  exact .ite ((gatedHead_writersRest ..).after ((stopWriter_writersRest ..).after (.of_only (voidArm_only ..)))) .refl
theorem writeGate_writing (n : Nat) (s : State) : (getHead (writeGate n s) n).writing = false := by
  unfold writeGate
  split
  · exact (gatedHead_writersRest _ _).rest _ (stopWriter_writing ..)
  next h => exact Bool.eq_false_iff.2 h
/-- Of the heads that are gated in turn none writes at the end. -/
theorem each_writeGate_writing {n : Nat} {ns : List Nat} (h : n ∈ ns) (s : State) : (getHead (each ns writeGate s) n).writing = false := by
  induction ns generalizing s with
  | nil => exact absurd h List.not_mem_nil
  | cons m ns ih =>
    rw [each_cons]
    rcases List.mem_cons.1 h with rfl | h
    · exact (WritersRest.each (fun _ _ => writeGate_writersRest ..) _ _).rest _ (writeGate_writing ..)
    · exact ih h _
theorem gateWriting_writing {n : Nat} {s : State} (h : n ∈ allHeads s) : (getHead (gateWriting s) n).writing = false :=
  each_writeGate_writing h s

end Sys2Proof.Machine
end

section
/-! A loop context that runs (R223), and the sources of the speed while a part stops. -/

namespace Sys2Proof.Machine
set_option Elab.async false

-- A loop context that runs (R223), and the wedges as source of the speed while a part stops.

/-- The units that a loop context reaches, but for a stop it may take. -/
def ctxUnits : Units :=
  { dev := true, flt := true, evt := true, mqs := true, alks := true, islands := true, heads := true, gov := true, mrc := true, slu := true, fan := true, tx := true, free := true }
/-- A run that ends within its units, or with the stop of the part for cause 0x3F. -/
structure RunsTo (s t : State) : Prop where
  ends : ∃ u, Only ctxUnits s u ∧ (t = u ∨ t = failStop 0x3F u)
theorem RunsTo.of_only {s t : State} (h : Only ctxUnits s t) : RunsTo s t := ⟨t, h, .inl rfl⟩
theorem RunsTo.of_failStop {s t : State} (h : Only ctxUnits s t) : RunsTo s (failStop 0x3F t) := ⟨t, h, .inr rfl⟩
theorem RunsTo.after {s t u : State} (h₂ : RunsTo t u) (h₁ : Only ctxUnits s t) : RunsTo s u := by
  obtain ⟨v, hv, hu⟩ := h₂.ends
  exact ⟨v, hv.after h₁, hu⟩
theorem RunsTo.ite {s t u : State} {c : Prop} [Decidable c] (h₁ : RunsTo s t) (h₂ : RunsTo s u) : RunsTo s (if c then t else u) := by
  split
  · exact h₁
  · exact h₂
theorem governorFail_runsTo (n cause : Nat) (s : State) : RunsTo s (governorFail n cause s) := by
  have hheld (t : State) : Only ctxUnits t (mqNote 27 (condition 0x3F mMotion cause true [] (openCause 0x3F n false (setFormat n false t)))) :=
    (mqNote_only ..).after ((condition_only ..).after ((openCause_only ..).after ((setFormat_only ..).mono)))
  have hnoted (t : State) : Only ctxUnits t (mqNote 27 (condition 0x3F mMotion cause false [] t)) := (mqNote_only ..).after ((condition_only ..).mono)
  unfold governorFail
  exact .ite (.ite (.of_failStop ((hheld _).after ((modCtx_only ..).mono))) (.of_only ((hheld _).after ((modCtx_only ..).mono))))
    (.ite (.of_only ((hnoted _).after ((modCtx_only ..).mono))) (.of_failStop ((hnoted _).after ((modCtx_only ..).mono))))
theorem romFail_runsTo (n : Nat) (s : State) : RunsTo s (romFail n s) := by
  have hnoted (t : State) : Only ctxUnits t (mqNote 27 (condition 0x3F mMotion 6 false [] t)) := (mqNote_only ..).after ((condition_only ..).mono)
  unfold romFail
  exact .ite (.of_only ((hnoted _).after ((modCtx_only ..).mono))) (.of_failStop ((hnoted _).after ((modCtx_only ..).mono)))
theorem runCtx_runsTo (n : Nat) (input : Int) (o : LoopObs) (s : State) : RunsTo s (runCtx n input o s) := by
  unfold runCtx
  extract_lets c t u
  have hu : Only ctxUnits s u := .ite ((governorCorrected_only ..).after ((modCtx_only ..).mono)) ((modCtx_only ..).mono)
  refine .ite (.of_only .refl) (.ite ((romFail_runsTo ..).after hu) (.ite ((governorFail_runsTo ..).after hu) (.ite ?_ ?_)))
  · exact .ite ((governorFail_runsTo ..).after ((modCtx_only ..).after hu)) (.of_only ((modCtx_only ..).after hu))
  · dsimp only
    have hsine (b : Prop) [Decidable b] (e out : Int) (v : State) : Only ctxUnits v (if b then sineStep n e out v else endSines n v) := .ite ((sineStep_only ..).mono) ((endSines_only ..).mono)
    have hlaw (b c : Prop) [Decidable b] [Decidable c] (e out : Int) (v : State) :
        Only ctxUnits v (trySwitch n e (if b then (if c then sineStep n e out v else endSines n v) else v)) :=
      (trySwitch_only ..).after (.ite (hsine ..) .refl)
    have hout {v : State} (hv : Only ctxUnits s v) (x r e : Int) (outs : List Int) (w y : Int) : Only ctxUnits s (traceTaps n c.fmt x r e outs w y v) :=
      (traceTaps_only ..).after hv
    exact .ite ((governorFail_runsTo ..).after ((hlaw ..).after (hout ((modCtx_only ..).after hu) ..))) (.of_only ((hlaw ..).after (hout ((modCtx_only ..).after hu) ..)))

/-- Neither are the wedges a source of the speed afterwards, nor is the observer locked, where they were not before. -/
structure Sourceless (s t : State) : Prop where
  wedges : s.spc.source = false → t.spc.source = false
  lock : s.spn.lock = false → t.spn.lock = false
theorem Sourceless.refl {s : State} : Sourceless s s := ⟨fun h => h, fun h => h⟩
theorem Sourceless.after {s t u : State} (h₂ : Sourceless t u) (h₁ : Sourceless s t) : Sourceless s u :=
  ⟨fun h => h₂.wedges (h₁.wedges h), fun h => h₂.lock (h₁.lock h)⟩
theorem Sourceless.of_same {s t : State} (hc : t.spc.source = s.spc.source) (hn : t.spn.lock = s.spn.lock) : Sourceless s t := ⟨fun hs => hc.trans hs, fun hs => hn.trans hs⟩
theorem Sourceless.of_only {m : Units} {s t : State} (h : Only m s t) (hc : m.spc = false := by rfl) (hn : m.spn = false := by rfl) : Sourceless s t :=
  .of_same (congrArg SpindleCtl.source (h.spc hc)) (congrArg Spindle.lock (h.spn hn))
theorem Sourceless.ite {s t u : State} {c : Prop} [Decidable c] (h₁ : Sourceless s t) (h₂ : Sourceless s u) : Sourceless s (if c then t else u) := by
  split
  · exact h₁
  · exact h₂
theorem inverterOff_sourceless (s : State) : Sourceless s (inverterOff s) :=
  ⟨fun h => by rw [inverterOff_spc]; exact h, fun _ => by rw [inverterOff_spn]⟩
theorem setSpnMode_sourceless (m : Nat) (s : State) : Sourceless s (setSpnMode m s) := .of_same rfl rfl
theorem noCurve_sourceless (s : State) : Sourceless s (noCurve s) := .of_same rfl rfl
theorem brakeAt_sourceless (s : State) : Sourceless s (brakeAt s) := .of_same rfl rfl
theorem ptnSet_sourceless (s : State) (p : Ptn) : Sourceless s { s with ptn := p } := .of_same rfl rfl
theorem fltSet_sourceless (s : State) (f : Flt) : Sourceless s { s with flt := f } := .of_same rfl rfl
theorem startCoast_sourceless (s : State) : Sourceless s (startCoast s) := by
  unfold startCoast
  exact (setSpnMode_sourceless ..).after ((noCurve_sourceless _).after (inverterOff_sourceless s))
theorem gatesOn_sourceless (s : State) : Sourceless s (gatesOn s) := by
  obtain ⟨g, d, h⟩ := gatesOn_spc s
  exact .of_same (by rw [h]) (by rw [(gatesOn_only s).spn])
theorem startShortBrake_sourceless (s : State) : Sourceless s (startShortBrake s) := by
  unfold startShortBrake
  dsimp only
  exact (setSpnMode_sourceless ..).after ((gatesOn_sourceless _).after (.after (.of_only (spnCtxOff_only _)) ((noCurve_sourceless _).after ⟨fun h => h, fun _ => rfl⟩)))
theorem spindleStop_sourceless (s : State) : Sourceless s (spindleStop s) := by
  have hwindow : Sourceless s (stopWindow s) := ⟨fun _ => rfl, fun h => h⟩
  rw [spindleStop_eq]
  exact .ite hwindow (.ite ((startCoast_sourceless _).after hwindow)
    (.ite ((brakeAt_sourceless _).after ((gatesOn_sourceless _).after (.after (.of_only (brakeLoops_only _)) hwindow))) ((startShortBrake_sourceless _).after hwindow)))
theorem dropActive_sourceless (s : State) : Sourceless s (dropActive s) := by
  unfold dropActive
  extract_lets r u _ v
  have hr : Sourceless s r := .ite (.of_only (m := { arms := true, tx := true }) (.each (fun a s => vcmFrame_only a s) .refl)) .refl
  have hu : Sourceless r u := .ite (inverterOff_sourceless r) (startCoast_sourceless r)
  have hv : Sourceless u v := .ite (.of_same rfl rfl) .refl
  exact (ptnSet_sourceless ..).after (hv.after (hu.after hr))
theorem enterStopped_spn (cause : BitVec 8) (s : State) :
    (enterStopped cause s).spn = { (dropActive s).spn with mode := if (dropActive s).spn.mode = 0 then 0 else 9 } := by
  have hspn : (each (List.range 8) armDark (endVisits (dropActive s))).spn = (dropActive s).spn :=
    (Only.each (m := { islands := true, heads := true }) (fun a s => armDark_only a s) .refl).spn.trans (endVisits_only _).spn
  unfold enterStopped
  dsimp only
  rw [hspn]
theorem finalStop_sourceless (cause : BitVec 8) (s : State) : Sourceless s (finalStop cause s) := by
  have hstopped (t : State) : Sourceless t (enterStopped cause t) := by
    refine .after (.of_same ?_ ?_) (dropActive_sourceless t)
    · rw [enterStopped_spc]
    · rw [enterStopped_spn]
  unfold finalStop
  exact (hstopped _).after (.after (.of_only (post_only ..)) (.of_only (releaseArms_only _)))
theorem advanceStop_sourceless (s : State) : Sourceless s (advanceStop s) := by
  unfold advanceStop
  dsimp only
  refine .after (.ite (finalStop_sourceless ..) .refl) (.ite ?_ .refl)
  exact .after (.ite (startCoast_sourceless _) (.ite (spindleStop_sourceless _) .refl)) (fltSet_sourceless ..)
theorem stopSequence_sourceless (solo : Bool) (cause : BitVec 8) (s : State) : Sourceless s (stopSequence solo cause s) := by
  by_cases hstep : s.flt.stopStep = 0
  · have hopened : Sourceless s (stopOpened cause s) := .of_only (stopOpened_only ..)
    by_cases honce : stopsAtOnce s.dev = true
    · rw [stopSequence_atOnce honce hstep]
      exact (finalStop_sourceless ..).after (.after (.of_only (stopChannels_only _)) (.of_only (completeAll_only ..)))
    by_cases hservice : inService s.dev = true
    · rw [stopSequence_inService hservice hstep]
      exact .ite ((finalStop_sourceless ..).after ((dropActive_sourceless _).after ((ptnSet_sourceless ..).after (.after (.of_only (post_only ..)) (.after (.of_only (ptnSend_only ..)) hopened)))))
        ((advanceStop_sourceless _).after (.after (.of_only (stopWaits_only ..)) hopened))
    · rw [stopSequence_of_down (down_iff.2 ⟨Bool.eq_false_iff.2 honce, Bool.eq_false_iff.2 hservice⟩)]
      exact .refl
  · rw [stopSequence, if_pos hstep]
    exact .refl
theorem failStop_sourceless (cause : BitVec 8) (s : State) : Sourceless s (failStop cause s) := by
  rw [failStop_eq]
  exact (stopSequence_sourceless ..).after (fltSet_sourceless ..)
theorem runCtx_sourceless (n : Nat) (input : Int) (o : LoopObs) (s : State) : Sourceless s (runCtx n input o s) := by
  obtain ⟨u, hu, h | h⟩ := (runCtx_runsTo n input o s).ends
  · rw [h]
    exact .of_only hu
  · rw [h]
    exact (failStop_sourceless ..).after (.of_only hu)
theorem spindleLog_runCtx (n : Nat) (input : Int) (o : LoopObs) (s : State) : spindleLog (runCtx n input o s) = spindleLog s := by
  obtain ⟨u, hu, h | h⟩ := (runCtx_runsTo n input o s).ends
  · rw [h, spindleLog_of_only hu]
  · rw [h, spindleLog_failStop, spindleLog_of_only hu]

end Sys2Proof.Machine
end

section
/-! The speed and the window of data service (O11). -/

namespace Sys2Proof.Machine
set_option Elab.async false

-- The speed and its source, the window of data service, and the observer's lock (R249 to R253, R600).

theorem report_sourceless (r : Report) (s : State) : Sourceless s (report r s) := .of_only (report_only ..)
theorem spindleReported_sourceless (code : BitVec 8) (hold : Bool) (fs : List PayField) (s : State) : Sourceless s (spindleReported code hold fs s) :=
  .of_same (by rw [(spindleReported_only ..).spc]) (by rw [spindleReported_spn])
theorem gatesOff_sourceless (s : State) : Sourceless s (gatesOff s) := .of_same (by rw [gatesOff_kept]) (by rw [(gatesOff_only s).spn])
theorem spindleFault_sourceless {code : BitVec 8} {hold : Bool} {fs : List PayField} {f : State → State} (hf : ∀ t, Sourceless t (f t)) (s : State) :
    Sourceless s (spindleFault code hold fs f s) := by
  rcases devState_cases s.dev with h | h | h
  · rw [spindleFault_inService h]
    exact (hf _).after (spindleReported_sourceless ..)
  · rw [spindleFault_atOnce h]
    exact (failStop_sourceless ..).after ((gatesOff_sourceless _).after (spindleReported_sourceless ..))
  · obtain ⟨hold', heq⟩ := spindleFault_resting (code := code) (hold := hold) (fs := fs) (f := f) h
    rw [heq]
    exact spindleReported_sourceless ..
/-- What the loss of the observer's lock leads to in service: the gates off, and a catch that begins with the offsets (R252). -/
def lockLost (s : State) : State := startOffsets (openCause 0x2F 1 false (catchOwed s))
theorem startOffsets_spn (s : State) : (startOffsets s).spn = { s.spn with lock := false, vlimit := false, mode := 1, budgetPause := false } := by
  unfold startOffsets
  dsimp only
  rw [inverterOff_spn]
theorem startOffsets_gates (s : State) : (startOffsets s).spc.gates = false := by
  unfold startOffsets
  dsimp only
  rw [inverterOff_spc]
theorem startOffsets_source (s : State) : (startOffsets s).spc.source = s.spc.source := by
  unfold startOffsets
  dsimp only
  rw [inverterOff_spc]
theorem noCurve_spn (s : State) : (noCurve s).spn = { s.spn with curvePt := 0, budgetPause := false } := rfl
theorem setSpnMode_mode_spn (m : Nat) (s : State) : (setSpnMode m s).spn = { s.spn with mode := m } := rfl
theorem catchOwed_spn_eq (s : State) : (catchOwed s).spn = (startCoast s).spn := by
  unfold catchOwed
  generalize startCoast s = t
  rfl
theorem catchOwed_source (s : State) : (catchOwed s).spc.source = (startCoast s).spc.source := by
  unfold catchOwed
  generalize startCoast s = t
  rfl
theorem catchOwed_spn (s : State) : (catchOwed s).spn = { s.spn with lock := false, vlimit := false, curvePt := 0, budgetPause := false, mode := 9 } := by
  rw [catchOwed_spn_eq]
  unfold startCoast
  rw [setSpnMode_mode_spn, noCurve_spn, inverterOff_spn]
theorem lockLost_sourceless (s : State) : Sourceless s (lockLost s) := by
  unfold lockLost
  refine ⟨fun h => ?_, fun _ => by rw [startOffsets_spn]⟩
  rw [startOffsets_source, (openCause_only ..).spc, catchOwed_source]
  exact (startCoast_sourceless s).wedges h
theorem lockLost_lastEvent (s : State) : (lockLost s).spn.lastEvent = s.spn.lastEvent := by
  unfold lockLost
  rw [startOffsets_spn, (openCause_only ..).spn, catchOwed_spn]
theorem lockLost_dev (s : State) : (lockLost s).dev = s.dev := by
  unfold lockLost
  rw [(startOffsets_only _).dev, (openCause_only ..).dev, (catchOwed_only _).dev]
theorem lockLost_gates (s : State) : (lockLost s).spc.gates = false := startOffsets_gates _
theorem lockLost_mode (s : State) : (lockLost s).spn.mode = 1 := startOffsets_mode _
theorem spindleFault_lockLost (s : State) :
    SpindleFaulted 0x2F s (spindleFault 0x2F true [b1 1] lockLost s) ((spindleFault 0x2F true [b1 1] lockLost s).dev = .faultHold ∧
      (spindleFault 0x2F true [b1 1] lockLost s).spc.gates = false ∧ (spindleFault 0x2F true [b1 1] lockLost s).spn.mode = 1) :=
  spindleFault_faulted (fun t => (spindleLog_lastEvent _).trans (lockLost_lastEvent t)) fun hdev _ => by
    rw [spindleFault_inService hdev]
    have hdev' := (lockLost_dev (spindleReported 0x2F true [b1 1] s)).trans (spindleReported_faultHold hdev)
    exact ⟨hdev', lockLost_gates _, lockLost_mode _⟩
theorem speedOf_none {s : State} (h : paceW s = []) : speedOf s = (roundHalfUp (65536 * obsRpm s), { s with spc := { s.spc with source := false } }) := by
  unfold speedOf
  rw [h]
  rfl
theorem speedOf_wedges {s : State} (h : paceW s ≠ []) (hkept : paceKept (paceW s) = paceW s) (hsource : s.spc.source = true) :
    (speedOf s).1 = wedgeSpeed s (meanRat (paceW s)) := by
  unfold speedOf
  dsimp only
  rw [hkept, Nat.sub_self, if_neg (by simpa using h), if_neg (by simp)]
  exact (congrArg Prod.fst (if_pos hsource)).trans rfl
theorem speedOf_decim (s : State) : (speedOf s).2.spc.decim = s.spc.decim := by
  have hevent (t : State) : (spnEvent 0x2F [b1 2] t).spc = t.spc := (spnEvent_only ..).spc
  unfold speedOf
  dsimp only
  split
  · rfl
  split
  · dsimp only
    rw [hevent]
  split
  · rfl
  split
  · rfl
  · rfl
theorem mem_armList {s : State} {a : Nat} : a ∈ armList s ↔ a < s.img.arms := List.mem_range
theorem runCtx_decim (n : Nat) (input : Int) (o : LoopObs) (s : State) : (runCtx n input o s).spc.decim = s.spc.decim :=
  congrArg (fun l : Spindle × SpindleCtl => l.2.decim) (spindleLog_runCtx n input o s)
theorem runCtx_speed (n : Nat) (input : Int) (o : LoopObs) (s : State) : (runCtx n input o s).spn.speed = s.spn.speed :=
  congrArg (fun l : Spindle × SpindleCtl => l.1.speed) (spindleLog_runCtx n input o s)
/-- The sample shows the speed, with the mode by its source, and how long it has been near to N_SVC (R249, R261). -/
def speedShown (v : Int) (s : State) : State :=
  { s with
    spn := { s.spn with speed := satInt 32 v, mode := if s.spn.mode = 5 || s.spn.mode = 6 then (if s.spc.source then 6 else 5) else s.spn.mode },
    spc := { s.spc with nearSince := if nearService s v then some (s.spc.nearSince.getD (now s)) else none } }
theorem speedShown_decim (v : Int) (s : State) : (speedShown v s).spc.decim = s.spc.decim := rfl
theorem speedShown_source (v : Int) (s : State) : (speedShown v s).spc.source = s.spc.source := rfl
theorem speedShown_speed (v : Int) (s : State) : (speedShown v s).spn.speed = satInt 32 v := rfl
def sampleBegun (s : State) : State := { s with spc := { s.spc with decim := 0 } }
theorem paceW_sampleBegun (s : State) : paceW (sampleBegun s) = paceW s := rfl
theorem obsRpm_sampleBegun (s : State) : obsRpm (sampleBegun s) = obsRpm s := rfl
theorem wedgeSpeed_sampleBegun (s : State) (w : Rat) : wedgeSpeed (sampleBegun s) w = wedgeSpeed s w := rfl
theorem switchAsked_only (b : Bool) (s : State) : Only { gov := true } s (if b then each [136, 137, 138] requestSwitch s else s) :=
  .ite (.each (fun n s => requestSwitch_only n s) .refl) .refl
theorem speedSample_completes {s : State} (hawake : awake s = true) (o : LoopObs) :
    Completes (.speedSample o) s fun t =>
    (s.spc.decim < sampleEvery s → t = s) ∧
    (sampleEvery s ≤ s.spc.decim →
      t.spc.decim = 0 ∧
      (paceW s = [] → t.spn.speed = satInt 32 (roundHalfUp (65536 * obsRpm s)) ∧ t.spc.source = false) ∧
      (paceW s ≠ [] → paceKept (paceW s) = paceW s → s.spc.source = true → t.spn.speed = satInt 32 (wedgeSpeed s (meanRat (paceW s))))) := by
  refine ⟨_, if_pos hawake, ?_⟩
  beta_reduce
  split
  next h => exact ⟨fun _ => rfl, fun h' => absurd h (not_lt.2 h')⟩
  next h =>
    refine ⟨fun h' => absurd h' h, fun _ => ?_⟩
    have hran : ∀ (v : Int) (r : State) (b : Bool), (runCtx 138 v o (if b then each [136, 137, 138] requestSwitch (speedShown v r) else speedShown v r)).spc.decim = r.spc.decim ∧
        (runCtx 138 v o (if b then each [136, 137, 138] requestSwitch (speedShown v r) else speedShown v r)).spn.speed = satInt 32 v ∧
        (r.spc.source = false → (runCtx 138 v o (if b then each [136, 137, 138] requestSwitch (speedShown v r) else speedShown v r)).spc.source = false) := fun v r b => by
      have hasked := switchAsked_only b (speedShown v r)
      refine ⟨?_, ?_, fun hr => (runCtx_sourceless ..).wedges ?_⟩
      · rw [runCtx_decim, hasked.spc, speedShown_decim]
      · rw [runCtx_speed, hasked.spn, speedShown_speed]
      · rw [hasked.spc, speedShown_source, hr]
    obtain ⟨hdecim, hspeed, hsource⟩ := hran (speedOf (sampleBegun s)).1 (speedOf (sampleBegun s)).2
      (serviceState (speedShown (speedOf (sampleBegun s)).1 (speedOf (sampleBegun s)).2).dev && nearService (speedShown (speedOf (sampleBegun s)).1 (speedOf (sampleBegun s)).2) (speedOf (sampleBegun s)).1)
    refine ⟨hdecim.trans (speedOf_decim _), fun hnone => ⟨hspeed.trans ?_, hsource ?_⟩, fun hws hkept hs => hspeed.trans ?_⟩
    · rw [speedOf_none (s := sampleBegun s) hnone, obsRpm_sampleBegun]
    · rw [speedOf_none (s := sampleBegun s) hnone]
    · rw [speedOf_wedges (s := sampleBegun s) hws hkept hs, wedgeSpeed_sampleBegun, paceW_sampleBegun]
theorem condition_stopStep (code master : BitVec 8) (cause : Nat) (hold : Bool) (fs : List PayField) (s : State) :
    (condition code master cause hold fs s).flt.stopStep = s.flt.stopStep := by
  unfold condition
  rw [report_stopStep, (post_only ..).flt]
theorem condition_inService {code master : BitVec 8} {cause : Nat} {hold : Bool} {fs : List PayField} {s : State} (h : inService s.dev = true) :
    inService (condition code master cause hold fs s).dev = true := by
  unfold condition
  exact report_inService (by rwa [(post_only ..).dev])
theorem speedSourceTimeout_completes {s : State} (hawake : awake s = true) :
    Completes .speedSourceTimeout s (fun t =>
    (s.spc.source = true ∨ (∀ a < s.img.arms, (getArm s a).state ≠ 5) → t = s) ∧
    (∀ a < s.img.arms, (getArm s a).state = 5 → s.spc.source = false → inService s.dev = true → s.flt.stopStep = 0 → StopBegun 0x3C s t)) := by
  refine ⟨_, if_pos hawake, ?_⟩
  beta_reduce
  split
  next h =>
    rw [Bool.and_eq_true, List.any_eq_true] at h
    obtain ⟨hsource, a, ha, hstate⟩ := h
    refine ⟨fun hnot => ?_, fun _ _ _ _ hdev hstep => ?_⟩
    · rcases hnot with hs | hn
      · simp [hs] at hsource
      · exact absurd (by simpa using hstate) (hn a (mem_armList.1 ha))
    · exact (failStop_begun (cause := 0x3C) (condition_inService hdev) ((condition_stopStep ..).trans hstep)).of_ptn (condition_only ..).ptn
  next h =>
    refine ⟨fun _ => rfl, fun a ha hstate hsource => absurd ?_ h⟩
    rw [Bool.and_eq_true, List.any_eq_true]
    exact ⟨by simp [hsource], a, mem_armList.2 ha, by simp [hstate]⟩
/-- The window is left: its writers are gated, and the fault of Table 8.5 is shown (R253). -/
def windowLeft (s : State) : State :=
  { s with
    spn := { s.spn with window := false, windowExit := satInc 8 s.spn.windowExit },
    spc := { s.spc with outSince := some (now s) } }
def meanCounted (speed : Int) (s : State) : State :=
  { s with spc := { s.spc with goodMeans := if withinService s 8 speed then min 960 (s.spc.goodMeans + 1) else 0 } }
theorem judgeMean_eq (speed : Int) (s : State) : judgeMean speed s =
    if s.spn.window && !(withinService s 10 speed) then spindleFault 0x28 false [] id (gateWriting (windowLeft (meanCounted speed s))) else meanCounted speed s := rfl
theorem spindleCtl_windowFault (s : State) : (spindleLog (spindleFault 0x28 false [] id (gateWriting s))).2 = (spindleLog s).2 := by
  rw [spindleLog_spindleFault (f := id) (fun _ => rfl), spindleLog_of_only (gateWriting_only s)]
theorem judgeMean_spc (speed : Int) (s : State) : (judgeMean speed s).spc.means = s.spc.means ∧
    (judgeMean speed s).spc.goodMeans = if withinService s 8 speed then min 960 (s.spc.goodMeans + 1) else 0 := by
  rw [judgeMean_eq]
  split
  · have hlog := spindleCtl_windowFault (windowLeft (meanCounted speed s))
    have hmeans : ∀ t : State, (spindleLog t).2.means = t.spc.means ∧ (spindleLog t).2.goodMeans = t.spc.goodMeans := fun _ => ⟨rfl, rfl⟩
    rw [← (hmeans _).1, ← (hmeans (spindleFault ..)).2, hlog]
    exact ⟨rfl, rfl⟩
  · exact ⟨rfl, rfl⟩
theorem spindleReported_dev {code : BitVec 8} {fs : List PayField} {s : State} : (spindleReported code false fs s).dev = s.dev :=
  (report_dev_of_not_hold _ rfl).trans (spnEvent_noted_dev ..)
theorem spindleReported_writersRest (code : BitVec 8) (hold : Bool) (fs : List PayField) (s : State) : WritersRest s (spindleReported code hold fs s) :=
  (report_writersRest ..).after (.after (.of_only (mqNote_only ..)) (.of_only (spnEvent_only ..)))
theorem condition_dev {code master : BitVec 8} {cause : Nat} {fs : List PayField} {s : State} : (condition code master cause false fs s).dev = s.dev := by
  unfold condition
  rw [report_dev_of_not_hold _ rfl, (post_only ..).dev]
/-- The means of the last 96 wedges, with the newest of them. -/
def meansTaken (ms : List Int) (s : State) : State := { s with spc := { s.spc with means := ms } }
theorem withinService_meansTaken (ms : List Int) (s : State) (n : Nat) (v : Int) : withinService (meansTaken ms s) n v = withinService s n v := rfl
theorem meanStays (ms : List Int) {speed : Int} {s : State} (h : s.spn.window = false ∨ withinService s 10 speed = true) :
    judgeMean speed (meansTaken ms s) = meanCounted speed (meansTaken ms s) := by
  rw [judgeMean_eq, withinService_meansTaken]
  refine if_neg ?_
  rcases h with h | h
  · rw [show (meansTaken ms s).spn.window = false from h, Bool.false_and]
    decide
  · rw [h]
    simp
theorem meanLeaves (ms : List Int) {speed : Int} {s : State} (hw : s.spn.window = true) (hout : withinService s 10 speed = false) :
    judgeMean speed (meansTaken ms s) = spindleFault 0x28 false [] id (gateWriting (windowLeft (meanCounted speed (meansTaken ms s)))) := by
  rw [judgeMean_eq, withinService_meansTaken]
  refine if_pos ?_
  rw [show (meansTaken ms s).spn.window = true from hw, hout]
  rfl
theorem meanCounted_kept (speed : Int) (ms : List Int) (s : State) : (meanCounted speed (meansTaken ms s)).spn.window = s.spn.window ∧ (meanCounted speed (meansTaken ms s)).dev = s.dev := ⟨rfl, rfl⟩
theorem windowLeft_mean (speed : Int) (ms : List Int) (s : State) : (windowLeft (meanCounted speed (meansTaken ms s))).spn.window = false ∧
    (windowLeft (meanCounted speed (meansTaken ms s))).spn.windowExit = satInc 8 s.spn.windowExit ∧
    (windowLeft (meanCounted speed (meansTaken ms s))).spc.outSince = some (now s) ∧ (windowLeft (meanCounted speed (meansTaken ms s))).dev = s.dev ∧
    allHeads (windowLeft (meanCounted speed (meansTaken ms s))) = allHeads s := ⟨rfl, rfl, rfl, rfl, rfl⟩
theorem writeGate_dev (n : Nat) (s : State) : (writeGate n s).dev = s.dev := by
  unfold writeGate
  split
  · dsimp only
    rw [condition_dev, (modHead_only ..).dev, (stopWriter_only ..).dev, (voidArm_only ..).dev]
  · rfl
theorem gateWriting_dev (s : State) : (gateWriting s).dev = s.dev := each_proj State.dev _ _ _ writeGate_dev
/-- In service the mean that leaves the window gates every writer, and holds nothing (Table 8.5). -/
theorem windowFault_inService {s : State} (h : inService s.dev = true) :
    (spindleFault 0x28 false [] id (gateWriting s)).spn.window = s.spn.window ∧ (spindleFault 0x28 false [] id (gateWriting s)).spn.windowExit = s.spn.windowExit ∧
    (spindleFault 0x28 false [] id (gateWriting s)).spc.outSince = s.spc.outSince ∧ (spindleFault 0x28 false [] id (gateWriting s)).dev = s.dev ∧
    ∀ n ∈ allHeads s, (getHead (spindleFault 0x28 false [] id (gateWriting s)) n).writing = false := by
  rw [spindleFault_inService (by rwa [gateWriting_dev])]
  have hgated := gateWriting_only s
  refine ⟨?_, ?_, ?_, ?_, fun n hn => ?_⟩
  · rw [id, spindleReported_spn, hgated.spn]
  · rw [id, spindleReported_spn, hgated.spn]
  · rw [id, (spindleReported_only ..).spc, hgated.spc]
  · rw [id, spindleReported_dev, gateWriting_dev]
  · rw [id]
    exact (spindleReported_writersRest ..).rest _ (gateWriting_writing hn)
theorem dataWindowMean_completes {s : State} (hawake : awake s = true) :
    let kept := paceKept (paceW s)
    let ms := (wedgeSpeed s (meanRat kept) :: s.spc.means).take 96
    let speed := roundHalfUp (meanRat ms)
    Completes .dataWindowMean s fun t =>
    (kept = [] → t = s) ∧
    (kept ≠ [] → t.spc.means = ms) ∧
    (kept ≠ [] → ms.length < 96 → t.spn.window = s.spn.window ∧ t.spc.goodMeans = s.spc.goodMeans) ∧
    (kept ≠ [] → ms.length = 96 →
      t.spc.goodMeans = (if withinService s 8 speed then min 960 (s.spc.goodMeans + 1) else 0) ∧
      (s.spn.window = false ∨ withinService s 10 speed = true → t.spn.window = s.spn.window ∧ t.dev = s.dev) ∧
      (s.spn.window = true → withinService s 10 speed = false → inService s.dev = true →
        t.spn.window = false ∧ t.spn.windowExit = satInc 8 s.spn.windowExit ∧ t.spc.outSince = some (now s) ∧ t.dev = s.dev ∧
          ∀ n ∈ allHeads s, (getHead t n).writing = false)) := by
  intro kept ms speed
  refine ⟨_, if_pos hawake, ?_⟩
  beta_reduce
  split
  next h => 
    have hkept : kept = [] := List.isEmpty_iff.1 h
    exact ⟨fun _ => rfl, fun hn => absurd hkept hn, fun hn => absurd hkept hn, fun hn => absurd hkept hn⟩
  next h => 
    have htaken : ∀ v, judgeMean v { s with spc := { s.spc with means := ms } } = judgeMean v (meansTaken ms s) := fun _ => rfl
    by_cases hfull : ms.length = 96
    · rw [if_pos hfull, htaken]
      obtain ⟨hmeans, hgood⟩ := judgeMean_spc speed (meansTaken ms s)
      refine ⟨fun hn => absurd (List.isEmpty_iff.2 hn) h, fun _ => hmeans, fun _ hshort => absurd hfull hshort.ne, fun _ _ => ⟨hgood, fun hstays => ?_, fun hw hout hdev => ?_⟩⟩
      · rw [meanStays ms hstays]
        exact meanCounted_kept ..
      · rw [meanLeaves ms hw hout]
        obtain ⟨h1, h2, h3, h4, h5⟩ := windowLeft_mean speed ms s
        have hleft := windowFault_inService (s := windowLeft (meanCounted speed (meansTaken ms s))) (by rwa [h4])
        rwa [h1, h2, h3, h4, h5] at hleft
    · rw [if_neg hfull]
      exact ⟨fun hn => absurd (List.isEmpty_iff.2 hn) h, fun _ => rfl, fun _ _ => ⟨rfl, rfl⟩, fun _ h => absurd h hfull⟩
theorem dataWindowEntry_completes {s : State} (hawake : awake s = true) :
    Completes .dataWindowEntry s (fun t =>
    (s.spn.window = false → s.spc.goodMeans = 960 → t.spn.window = true ∧ t.spc.everWindow = true ∧ t.spc.outSince = none) ∧
    (s.spn.window = true ∨ s.spc.goodMeans ≠ 960 → t = s)) := by
  refine ⟨_, if_pos hawake, ?_⟩
  split
  next h => exact ⟨fun _ _ => ⟨rfl, rfl, rfl⟩, fun hn => by
      rw [Bool.and_eq_true, Bool.not_eq_true', decide_eq_true_eq] at h
      exact absurd h (by rintro ⟨hw, hg⟩; rcases hn with hn | hn; · rw [hw] at hn; cases hn
                         · exact hn hg)⟩
  next h => exact ⟨fun hw hg => absurd (by simp [hw, hg]) h, fun _ => rfl⟩
theorem dataWindowTimeout_completes {s : State} (hawake : awake s = true) :
    Completes .dataWindowTimeout s (fun t =>
    (s.spn.window = false → s.spc.everWindow = true → s.spc.outSince ≠ none → holdsFrom s.dev = true → t.dev = .faultHold ∧ t.flt.holdCause = 0x28) ∧
    (s.spn.window = true ∨ s.spc.everWindow = false → t = s)) := by
  refine ⟨_, if_pos hawake, ?_⟩
  split
  next h =>
    simp only [Bool.and_eq_true, Bool.not_eq_true'] at h
    obtain ⟨⟨⟨hw, he⟩, -⟩, -⟩ := h
    refine ⟨fun _ _ _ hdev => enterHold_of_holds ?_, fun hn => ?_⟩
    · rw [(openCause_only ..).dev]
      exact hdev
    · rw [hw, he] at hn
      exact absurd hn (by decide)
  next h =>
    refine ⟨fun hw he hsince hdev => absurd ?_ h, fun _ => rfl⟩
    simp [hw, he, hdev, Option.isSome_iff_ne_none.2 hsince]
theorem observerLock_completes {s : State} (hawake : awake s = true) :
    Completes .observerLock s (fun t =>
    (s.spc.gates = false ∨ s.spn.lock = true ∨ lockHolds s = false → t = s) ∧
    (s.spc.gates = true → s.spn.lock = false → braking s = false → lockHolds s = true → t.spn.lock = true ∧ (s.spn.mode = 5 ∨ s.spn.mode = 6 → (getCtx t 138).enable = true))) := by
  refine ⟨_, if_pos hawake, ?_⟩
  split
  next h =>
    simp only [Bool.and_eq_true, Bool.not_eq_true'] at h
    obtain ⟨⟨⟨hg, hl⟩, -⟩, hh⟩ := h
    refine ⟨fun hn => ?_, fun _ _ _ _ => ?_⟩
    · rw [hg, hl, hh] at hn
      exact absurd hn (by decide)
    dsimp only
    split
    · obtain ⟨k, hk⟩ := closeSpeedLoop_spn (closeCause 0x2A 0 (closeCause 0x2F 1 { s with spn := { s.spn with lock := true } }))
      exact ⟨by rw [hk, (closeCause_only ..).spn, (closeCause_only ..).spn], fun _ => closeSpeedLoop_enable _⟩
    next hmode => exact ⟨rfl, fun hm => absurd (by simpa using hm) hmode⟩
  next h =>
    refine ⟨fun _ => rfl, fun hg hl hb hh => absurd ?_ h⟩
    simp [hg, hl, hb, hh]
/-- The lock is gone, and the gates are off but in Hold-up. -/
def lockDropped (s : State) : State := { s with spn := { s.spn with lock := false } }
theorem gatedUnlocked_only (b : Prop) [Decidable b] (s : State) : Only { spc := true, gov := true, spn := true, slu := true, tx := true } s (if b then lockDropped s else gatesOff (lockDropped s)) :=
  .ite (.upd .refl) ((gatesOff_only _).after (.upd .refl))
theorem gatedUnlocked_dev (b : Prop) [Decidable b] (s : State) : (if b then lockDropped s else gatesOff (lockDropped s)).dev = s.dev := (gatedUnlocked_only b s).dev
theorem gatedUnlocked_flt (b : Prop) [Decidable b] (s : State) : (if b then lockDropped s else gatesOff (lockDropped s)).flt = s.flt := (gatedUnlocked_only b s).flt
theorem gatedUnlocked_lock (b : Prop) [Decidable b] (s : State) : (if b then lockDropped s else gatesOff (lockDropped s)).spn.lock = false := by
  split
  · rfl
  · rw [(gatesOff_only _).spn]
    rfl
theorem observerLockLoss_completes {s : State} (hawake : awake s = true) :
    Completes .observerLockLoss s fun t =>
    (s.spn.lock = false ∨ lockGone s = false → t = s) ∧ (lockGone s = true → t.spn.lock = false) ∧
    (s.spn.lock = true → lockGone s = true → s.spn.mode ≠ 3 → s.spn.mode ≠ 4 → SpindleFaulted 0x2F s t (t.dev = .faultHold ∧ t.spc.gates = false ∧ t.spn.mode = 1)) := by
  refine ⟨_, if_pos hawake, ?_⟩
  beta_reduce
  split
  next h =>
    rw [Bool.and_eq_true] at h
    obtain ⟨hlock, hgone⟩ := h
    refine ⟨fun hn => absurd hn (by rw [hlock, hgone]; decide), fun _ => ?_, fun _ _ h3 h4 => ?_⟩
    · dsimp only
      split
      · refine (spindleFault_sourceless lockLost_sourceless _).lock ?_
        exact gatedUnlocked_lock _ s
      · rfl
    · dsimp only
      rw [if_pos (by simp [h3, h4])]
      exact (spindleFault_lockLost _).of_same (gatedUnlocked_dev _ s) (congrArg Flt.stopStep (gatedUnlocked_flt _ s))
  next h =>
    refine ⟨fun _ => rfl, fun hgone => ?_, fun hlock hgone => absurd (by simp [hlock, hgone]) h⟩
    cases hlock : s.spn.lock with
    | true => exact absurd (by simp [hlock, hgone]) h
    | false => rfl
/-- Settles O11: the speed's sample by its source, the window by the means, and the lock of the observer by what it turns on and off. -/
theorem speedAndTheServiceWindow : Obligations.SpeedAndTheServiceWindow := by
  unfold Obligations.SpeedAndTheServiceWindow
  intro s hawake
  exact ⟨speedSample_completes hawake, speedSourceTimeout_completes hawake, dataWindowMean_completes hawake, dataWindowEntry_completes hawake,
    dataWindowTimeout_completes hawake, observerLock_completes hawake, observerLockLoss_completes hawake⟩

end Sys2Proof.Machine
end

section
/-! What a period keeps (R241, R243). -/

namespace Sys2Proof.Machine
set_option Elab.async false

-- What one period keeps of the bus and of the counters of the currents (R241, R243).

/-- The bus as it was read, the overcurrents, and the bad periods. -/
def periodLog (s : State) : Nat × Nat × Nat := (s.spn.vbus, s.spn.overcurrent, s.spc.badPeriods)
theorem periodLog_of_log {s t : State} (h : spindleLog t = spindleLog s) : periodLog t = periodLog s :=
  congrArg (fun l : Spindle × SpindleCtl => (l.1.vbus, l.1.overcurrent, l.2.badPeriods)) h
theorem periodLog_of_only {m : Units} {s t : State} (h : Only m s t) (hn : m.spn = false := by rfl) (hc : m.spc = false := by rfl) : periodLog t = periodLog s :=
  periodLog_of_log (spindleLog_of_only h hn hc)
theorem periodLog_ite {c : Prop} [Decidable c] {s t u : State} (ht : periodLog t = periodLog s) (hu : periodLog u = periodLog s) : periodLog (if c then t else u) = periodLog s := by
  split
  · exact ht
  · exact hu
theorem periodLog_spindleReported (code : BitVec 8) (hold : Bool) (fs : List PayField) (s : State) : periodLog (spindleReported code hold fs s) = periodLog s := by
  unfold periodLog
  rw [spindleReported_spn, (spindleReported_only ..).spc]
theorem periodLog_spindleFault {code : BitVec 8} {hold : Bool} {fs : List PayField} {f : State → State} (hf : ∀ t, periodLog (f t) = periodLog t) (s : State) :
    periodLog (spindleFault code hold fs f s) = periodLog s := by
  rcases devState_cases s.dev with h | h | h
  · rw [spindleFault_inService h, hf, periodLog_spindleReported]
  · rw [spindleFault_atOnce h, periodLog_of_log (spindleLog_failStop ..), periodLog_of_log (spindleLog_gatesOff _)]
    exact periodLog_spindleReported ..
  · obtain ⟨hold', heq⟩ := spindleFault_resting (code := code) (hold := hold) (fs := fs) (f := f) h
    rw [heq, periodLog_spindleReported]
theorem periodLog_spnReport (code : BitVec 8) (fs : List PayField) (hold : Bool) (s : State) : periodLog (spnReport code fs hold s) = periodLog s := by
  unfold periodLog
  rw [spnReport_spn, spnReport_spc]
theorem catchOwed_spc (s : State) : (catchOwed s).spc = { (startCoast s).spc with recatchDue := true } := by
  unfold catchOwed
  generalize startCoast s = t
  rfl
theorem periodLog_catchOwed (s : State) : periodLog (catchOwed s) = periodLog s := by
  rw [← periodLog_of_log (spindleLog_startCoast s)]
  unfold periodLog
  rw [catchOwed_spn_eq, catchOwed_spc]
theorem periodLog_spcSet (s : State) (c : SpindleCtl) (h : c.badPeriods = s.spc.badPeriods) : periodLog { s with spc := c } = periodLog s := by
  unfold periodLog
  rw [← h]
theorem periodLog_spnSet (s : State) (d : Spindle) (hv : d.vbus = s.spn.vbus) (ho : d.overcurrent = s.spn.overcurrent) : periodLog { s with spn := d } = periodLog s := by
  unfold periodLog
  rw [← hv, ← ho]
theorem periodLog_observerStep (iA iB : Rat) (s : State) : periodLog (observerStep iA iB s) = periodLog s := periodLog_spcSet s _ rfl
theorem periodLog_gatherOffsets (m : PwmSample) (s : State) : periodLog (gatherOffsets m s) = periodLog s := by
  unfold gatherOffsets
  split
  · exact periodLog_ite (periodLog_spcSet s _ rfl) rfl
  · rfl
theorem periodLog_gatherEmf (p : PhaseCodes) (s : State) : periodLog (gatherEmf p s) = periodLog s := by
  unfold gatherEmf
  split
  · rfl
  · exact periodLog_ite rfl (periodLog_spcSet s _ rfl)
theorem periodLog_setObsV (a b : Rat) (s : State) : periodLog (setObsV a b s) = periodLog s := periodLog_spcSet s _ rfl
theorem periodLog_coastPeriod (m : PwmSample) (s : State) : periodLog (coastPeriod m s) = periodLog s := by
  unfold coastPeriod
  split
  · rw [periodLog_observerStep, periodLog_setObsV]
  · rfl
theorem periodLog_noteDq (iA iB : Rat) (s : State) : periodLog (noteDq iA iB s) = periodLog s := periodLog_spnSet s _ rfl rfl
theorem periodLog_sendDuty (a b c : Rat) (s : State) : periodLog (sendDuty a b c s) = periodLog s := by
  unfold sendDuty
  rw [periodLog_of_only (send_only ..)]
  exact periodLog_spcSet s _ rfl
theorem periodLog_shortBrakePeriod (ia ib : Int) (imax : Nat) (s : State) : periodLog (shortBrakePeriod ia ib imax s) = periodLog s := by
  have hnoted (iA iB : Rat) : periodLog (setObsV 0 0 (observerStep iA iB (noteDq iA iB s))) = periodLog s := by
    rw [periodLog_setObsV, periodLog_observerStep, periodLog_noteDq]
  unfold shortBrakePeriod
  dsimp only
  refine periodLog_ite ?_ ?_
  · exact (periodLog_spcSet (gatesOff _) _ rfl).trans ((periodLog_of_log (spindleLog_gatesOff _)).trans (hnoted _ _))
  · rw [periodLog_sendDuty]
    exact hnoted _ _
theorem periodLog_runCtx (n : Nat) (input : Int) (o : LoopObs) (s : State) : periodLog (runCtx n input o s) = periodLog s := periodLog_of_log (spindleLog_runCtx ..)
theorem periodLog_focStep (m : PwmSample) (ia ib ic : Int) (vbus : Nat) (s : State) : periodLog (focStep m ia ib ic vbus s) = periodLog s := by
  unfold focStep
  extract_lets th co si iA iB iD iQ s₁ s₂ s₃ w l vd0 vq0 lim vd qLim vq limited _ s₄ s₅ s₆ slow _ s₇ _ s₈ low _ s₉ dead alpha beta va vb vc lo hi mid dMax scale _ s₁₀ s₁₁ _ _ s₁₂ mw _ s₁₃ d shift
  have h₁ : periodLog s₁ = periodLog s := periodLog_ite (periodLog_runCtx ..) rfl
  have h₂ : periodLog s₂ = periodLog s₁ := periodLog_of_only ((setSetpoint_only ..).after (setSetpoint_only ..))
  have h₃ : periodLog s₃ = periodLog s₂ := (periodLog_runCtx ..).trans (periodLog_runCtx ..)
  have h₄ : periodLog s₄ = periodLog s₃ := periodLog_spnSet s₃ _ rfl rfl
  have h₆ : periodLog s₆ = periodLog s₄ := periodLog_ite (periodLog_of_only ((modCtx_only ..).after (modCtx_only ..))) rfl
  have h₇ : periodLog s₇ = periodLog s₆ := periodLog_spcSet s₆ _ rfl
  have h₈ : periodLog s₈ = periodLog s₇ := periodLog_ite (periodLog_spcSet s₇ _ rfl) rfl
  have h₉ : periodLog s₉ = periodLog s₈ := periodLog_ite (periodLog_spcSet s₈ _ rfl) rfl
  have h₁₀ : periodLog s₁₀ = periodLog s₉ := periodLog_ite (periodLog_spnSet s₉ _ rfl rfl) rfl
  have h₁₁ : periodLog s₁₁ = periodLog s₁₀ := periodLog_observerStep ..
  have h₁₂ : periodLog s₁₂ = periodLog s₁₁ := periodLog_spcSet s₁₁ _ rfl
  have h₁₃ : periodLog s₁₃ = periodLog s₁₂ := periodLog_of_only (m := { slu := true }) (.upd .refl)
  rw [periodLog_of_only (checkFloor_only _), periodLog_sendDuty, h₁₃, h₁₂, h₁₁, h₁₀, h₉, h₈, h₇, h₆, h₄, h₃, h₂, h₁]

end Sys2Proof.Machine
end

section
/-! Overcurrent and overvoltage (R243, R263). -/

namespace Sys2Proof.Machine
set_option Elab.async false

-- The limits of currents and bus, period by period (O10).

/-- What an overcurrent leads to in service: after three in a second the stop, else a catch that begins with the offsets (R243). -/
def overcurrentAnswer (n : Nat) (s : State) : State := if 3 ≤ n then spindleLost 0x2A s else openCause 0x2A 0 false (catchOwed s)
def overcurrentCounted (s : State) : State :=
  { s with
    spc := { s.spc with ocTimes := now s :: recent s oneSec s.spc.ocTimes },
    spn := { s.spn with overcurrent := satInc 8 s.spn.overcurrent } }
theorem overcurrent_eq (s : State) : overcurrent s = spindleFault 0x2A true [] (overcurrentAnswer ((recent s oneSec s.spc.ocTimes).length + 1))
    (if s.dev = .holdUp then overcurrentCounted s else gatesOff (overcurrentCounted s)) := by
  unfold overcurrent
  rfl
theorem overcurrentAnswer_lost {n : Nat} (h : 3 ≤ n) (s : State) : overcurrentAnswer n s = spindleLost 0x2A s := if_pos h
theorem overcurrentAnswer_owed {n : Nat} (h : ¬ 3 ≤ n) (s : State) : overcurrentAnswer n s = openCause 0x2A 0 false (catchOwed s) := if_neg h
theorem periodLog_overcurrentAnswer (n : Nat) (s : State) : periodLog (overcurrentAnswer n s) = periodLog s := by
  by_cases h : 3 ≤ n
  · rw [overcurrentAnswer_lost h, periodLog_of_log (spindleLog_spindleLost ..)]
  · rw [overcurrentAnswer_owed h, periodLog_of_only (openCause_only ..), periodLog_catchOwed]
theorem overcurrentAnswer_lastEvent (n : Nat) (s : State) : (overcurrentAnswer n s).spn.lastEvent = s.spn.lastEvent := by
  by_cases h : 3 ≤ n
  · rw [overcurrentAnswer_lost h]
    exact congrArg (fun l : Spindle × SpindleCtl => l.1.lastEvent) (spindleLog_spindleLost 0x2A s)
  · rw [overcurrentAnswer_owed h, (openCause_only ..).spn, catchOwed_spn]
theorem overcurrentCounted_kept (s : State) : (overcurrentCounted s).dev = s.dev ∧ (overcurrentCounted s).flt = s.flt ∧ (overcurrentCounted s).ptn = s.ptn ∧
    (overcurrentCounted s).spc.gates = s.spc.gates := ⟨rfl, rfl, rfl, rfl⟩
theorem periodLog_overcurrent (s : State) : periodLog (overcurrent s) = (s.spn.vbus, satInc 8 s.spn.overcurrent, s.spc.badPeriods) := by
  have hcounted : periodLog (overcurrentCounted s) = (s.spn.vbus, satInc 8 s.spn.overcurrent, s.spc.badPeriods) := rfl
  rw [overcurrent_eq, periodLog_spindleFault (periodLog_overcurrentAnswer _), ← hcounted]
  exact periodLog_ite rfl (periodLog_of_log (spindleLog_gatesOff _))
theorem mem_tx_spindleFault {code : BitVec 8} {hold : Bool} {fs : List PayField} {f : State → State} {x : Tx} {s : State} (hf : ∀ t, x ∈ t.tx → x ∈ (f t).tx) (hx : x ∈ s.tx) :
    x ∈ (spindleFault code hold fs f s).tx := by
  have hreported (hold' : Bool) : x ∈ (spindleReported code hold' fs s).tx := mem_tx_of_only (spindleReported_only ..) hx
  rcases devState_cases s.dev with h | h | h
  · rw [spindleFault_inService h]
    exact hf _ (hreported _)
  · rw [spindleFault_atOnce h]
    exact mem_tx_of_only (failStop_only ..) (mem_tx_of_only (gatesOff_only _) (hreported _))
  · obtain ⟨hold', heq⟩ := spindleFault_resting (code := code) (hold := hold) (fs := fs) (f := f) h
    rw [heq]
    exact hreported _
theorem overcurrentAnswer_only (n : Nat) (s : State) :
    Only (.but { aon := true, idn := true, fuses := true, clk := true, pwr := true, img := true, nvm := true, bol := true, rows := true, fcc := true, pending := true, intake := true }) s (overcurrentAnswer n s) :=
  .ite (spindleLost_only ..).mono ((openCause_only ..).after (catchOwed_only _).mono)
theorem gatesOff_sends {s : State} (h : s.spc.gates = true) : .gates false ∈ (gatesOff s).tx := by
  unfold gatesOff
  dsimp only
  rw [if_pos h]
  exact mem_tx_send ..
theorem openCause_owed_kept (s : State) : (openCause 0x2A 0 false (catchOwed s)).dev = s.dev ∧ (openCause 0x2A 0 false (catchOwed s)).spc.gates = false ∧
    (openCause 0x2A 0 false (catchOwed s)).spc.recatchDue = true := by
  have hopened := openCause_only 0x2A 0 false (catchOwed s)
  have howed : (catchOwed s).spc.gates = false ∧ (catchOwed s).spc.recatchDue = true := by
    have hcoast := startCoast_gates s
    rw [catchOwed_spc]
    generalize (startCoast s).spc = c at hcoast
    exact ⟨hcoast, rfl⟩
  rw [hopened.dev, hopened.spc, (catchOwed_only s).dev]
  exact ⟨rfl, howed⟩
/-- An overcurrent in service: the gates are off at once (Table 8.5). -/
theorem overcurrent_answered {s : State} (hgates : s.spc.gates = true) (hdev : s.dev ≠ .holdUp) :
    (overcurrent s).spn.overcurrent = satInc 8 s.spn.overcurrent ∧ .gates false ∈ (overcurrent s).tx ∧
      SpindleFaulted 0x2A s (overcurrent s) ((2 ≤ (recent s oneSec s.spc.ocTimes).length → StopBegun 0x2A s (overcurrent s)) ∧
        ((recent s oneSec s.spc.ocTimes).length < 2 → (overcurrent s).dev = .faultHold ∧ (overcurrent s).spc.gates = false ∧ (overcurrent s).spc.recatchDue = true)) := by
  obtain ⟨hd, hf, hp, hg⟩ := overcurrentCounted_kept s
  have hoff := gatesOff_only (overcurrentCounted s)
  refine ⟨congrArg (fun l : Nat × Nat × Nat => l.2.1) (periodLog_overcurrent s), ?_, ?_⟩
  · rw [overcurrent_eq, if_neg hdev]
    exact mem_tx_spindleFault (fun t => mem_tx_of_only (overcurrentAnswer_only ..)) (gatesOff_sends (hg.trans hgates))
  · rw [overcurrent_eq, if_neg hdev]
    refine (spindleFault_faulted (fun t => ?_) fun hserves hstep => ⟨fun hmany => ?_, fun hfew => ?_⟩).of_same (hoff.dev.trans hd) (congrArg Flt.stopStep (hoff.flt.trans hf))
    · exact (spindleLog_lastEvent _).trans (overcurrentAnswer_lastEvent ..)
    · rw [spindleFault_inService hserves, overcurrentAnswer_lost (Nat.succ_le_succ hmany)]
      exact (spindleReported_begun (spindleLost_begun (spindleReported_inService hserves) ((spindleReported_stopStep ..).trans hstep))).of_ptn (hoff.ptn.trans hp)
    · rw [spindleFault_inService hserves, overcurrentAnswer_owed (by omega)]
      obtain ⟨h1, h2, h3⟩ := openCause_owed_kept (spindleReported 0x2A true [] (gatesOff (overcurrentCounted s)))
      exact ⟨h1.trans (spindleReported_faultHold hserves), h2, h3⟩
/-- What every period leaves of the bus and the bad periods. -/
def busKept (s : State) : Nat × Nat := (s.spn.vbus, s.spc.badPeriods)
theorem busKept_of_log {s t : State} (h : periodLog t = periodLog s) : busKept t = busKept s := congrArg (fun l : Nat × Nat × Nat => (l.1, l.2.2)) h
theorem busKept_overcurrent (s : State) : busKept (overcurrent s) = busKept s := congrArg (fun l : Nat × Nat × Nat => (l.1, l.2.2)) (periodLog_overcurrent s)
theorem busKept_runPeriod (m : PwmSample) (vbus : Nat) (s : State) : busKept (runPeriod m vbus s) = busKept s := by
  have hcoast : busKept (if s.spc.gates then s else coastPeriod m s) = busKept s := busKept_of_log (periodLog_ite rfl (periodLog_coastPeriod ..))
  unfold runPeriod
  dsimp only
  generalize (if s.spc.gates then s else coastPeriod m s) = u at hcoast
  rw [← hcoast]
  split
  · exact busKept_of_log (periodLog_gatherOffsets ..)
  split
  · exact busKept_of_log ((periodLog_gatherEmf ..).trans (periodLog_gatherEmf ..))
  split
  · have hwaited : periodLog { u with spc := { u.spc with gatesOffPeriods := u.spc.gatesOffPeriods - 1 } } = periodLog u := periodLog_spcSet u _ rfl
    exact busKept_of_log (periodLog_ite ((periodLog_of_log (spindleLog_gatesOn _)).trans hwaited) hwaited)
  split
  · rfl
  split
  · rfl
  split
  · exact busKept_overcurrent u
  split
  · exact busKept_of_log (periodLog_shortBrakePeriod ..)
  · exact busKept_of_log (periodLog_focStep ..)
theorem periodLog_generatorEnd (s : State) : periodLog (generatorEnd s) = periodLog s := by
  unfold generatorEnd
  rw [periodLog_spnReport, ← periodLog_of_log (spindleLog_startCoast s)]
  generalize startCoast s = u
  exact periodLog_spcSet u _ rfl
theorem periodLog_holdUpBus (vbus : Nat) (s : State) : periodLog (holdUpBus vbus s) = periodLog s := by
  unfold holdUpBus
  have hbraked : periodLog (spnReport 0x2C [] false (startShortBrake s)) = periodLog s := by
    rw [periodLog_spnReport, periodLog_of_log (spindleLog_startShortBrake s)]
  dsimp only
  generalize spnReport 0x2C [] false (startShortBrake s) = u at hbraked
  refine periodLog_ite rfl (periodLog_ite ?_ (periodLog_ite ?_ rfl))
  · exact (periodLog_spcSet u _ rfl).trans hbraked
  · rw [periodLog_generatorEnd]
    exact periodLog_spcSet s _ rfl
theorem busKept_goodPeriod (ok : Bool) (m : PwmSample) (vbus : Nat) (s : State) : busKept (goodPeriod ok m vbus s) = busKept s := by
  unfold goodPeriod
  split
  · rw [busKept_runPeriod, busKept_of_log (periodLog_holdUpBus ..)]
  · rfl
/-- The chopper off, and the bus over its limit (R263). -/
def chopperShut (s : State) : State := if s.spn.chopOn then send (.chopper false) { s with spn := { s.spn with chopOn := false } } else s
def overvolted (s : State) : State := { s with spc := { s.spc with overvolt := true } }
theorem overvoltage_eq (s : State) : overvoltage s = report { master := mMotion, cause := 7, event := 0x2D } (spnEvent 0x2D [] (overvolted (chopperShut (startCoast s)))) := by
  simp only [overvoltage, overvolted, chopperShut]
theorem chopperShut_left (s : State) : (chopperShut s).spc = s.spc ∧ (chopperShut s).spn.chopOn = false ∧ (chopperShut s).spn.vbus = s.spn.vbus := by
  unfold chopperShut
  split
  · rw [(send_only ..).spn, (send_only ..).spc]
    exact ⟨rfl, rfl, rfl⟩
  next h => exact ⟨rfl, Bool.eq_false_iff.2 h, rfl⟩
theorem overvolted_left (s : State) : (overvolted s).spc = { s.spc with overvolt := true } ∧ (overvolted s).spn = s.spn := ⟨rfl, rfl⟩
theorem overvoltage_left (s : State) : (overvoltage s).spc.gates = false ∧ (overvoltage s).spn.chopOn = false ∧ (overvoltage s).spc.overvolt = true ∧
    (overvoltage s).spn.lastEvent = 0x2D ∧ busKept (overvoltage s) = busKept s := by
  obtain ⟨hspc, hchop, hbus⟩ := chopperShut_left (startCoast s)
  obtain ⟨hc, hn⟩ := overvolted_left (chopperShut (startCoast s))
  have hgates := startCoast_gates s
  have hkept : busKept (startCoast s) = busKept s := busKept_of_log (periodLog_of_log (spindleLog_startCoast s))
  have hspn' : (overvoltage s).spn = { (chopperShut (startCoast s)).spn with lastEvent := 0x2D } := by rw [overvoltage_eq, (report_only ..).spn, spnEvent_spn, hn]
  have hspc' : (overvoltage s).spc = { (startCoast s).spc with overvolt := true } := by rw [overvoltage_eq, (report_only ..).spc, (spnEvent_only ..).spc, hc, hspc]
  have hbus' : busKept (overvoltage s) = busKept (startCoast s) := by
    unfold busKept
    rw [hspn', hspc']
    dsimp only
    rw [hbus]
  rw [hbus', hspn', hspc', hkept]
  dsimp only
  exact ⟨hgates, hchop, rfl, rfl, rfl⟩
/-- The period before its bus is looked at: the count of bad ones, and the chopper's current as far as it was converted (R241). -/
def periodBegun (m : PwmSample) (s : State) : State :=
  let ok := periodOk s m
  let s := { s with spc := { s.spc with
    badPeriods := if ok then 0 else min 3 (s.spc.badPeriods + 1), decim := if bySource s then s.spc.decim else min 31 (s.spc.decim + 1) } }
  let s := { s with spn := { s.spn with vlimit := false, iD := 0, iQ := 0 } }
  match convIn 0 4079 m.ichop with
  | some k => { s with spn := { s.spn with ichop := min 65535 (roundHalfUp (scaled (ichopGain s.img) k)).toNat } }
  | none => s
def busRead (v : Nat) (s : State) : State := { s with spn := { s.spn with vbus := min 65535 v }, spc := { s.spc with vbusRises := decide (s.spn.vbus < v) } }
/-- What the period's count and its chopper current leave. -/
structure PeriodBegun (s t : State) : Prop where
  gates : t.spc.gates = s.spc.gates
  duty : t.spc.duty = s.spc.duty
  overvolt : t.spc.overvolt = s.spc.overvolt
  offPeriods : t.spc.gatesOffPeriods = s.spc.gatesOffPeriods
  offsets : (t.spc.offA, t.spc.offB, t.spc.offC) = (s.spc.offA, s.spc.offB, s.spc.offC)
  ocTimes : t.spc.ocTimes = s.spc.ocTimes
  mode : t.spn.mode = s.spn.mode
  overcurrent : t.spn.overcurrent = s.spn.overcurrent
  rest : Only { spn := true, spc := true } s t
theorem periodBegun_kept (m : PwmSample) (s : State) : PeriodBegun s (periodBegun m s) ∧ (periodBegun m s).spn.vbus = s.spn.vbus ∧
    (periodBegun m s).spc.badPeriods = if periodOk s m then 0 else min 3 (s.spc.badPeriods + 1) := by
  unfold periodBegun
  dsimp only
  split
  · exact ⟨⟨rfl, rfl, rfl, rfl, rfl, rfl, rfl, rfl, .upd .refl⟩, rfl, rfl⟩
  · exact ⟨⟨rfl, rfl, rfl, rfl, rfl, rfl, rfl, rfl, .upd .refl⟩, rfl, rfl⟩
theorem busRead_kept (v : Nat) (s : State) : PeriodBegun s (busRead v s) ∧ (busRead v s).spn.vbus = min 65535 v ∧ (busRead v s).spc.badPeriods = s.spc.badPeriods :=
  ⟨⟨rfl, rfl, rfl, rfl, rfl, rfl, rfl, rfl, .upd .refl⟩, rfl, rfl⟩

end Sys2Proof.Machine
end

section
/-! The limits of currents and bus (O10). -/

namespace Sys2Proof.Machine
set_option Elab.async false

-- The limits of currents and bus (O10), command by command.

/-- A period once its bus is read (R241). -/
def periodJudged (ok volted : Bool) (m : PwmSample) (v : Nat) (s : State) : State :=
  if 16000 < v then (if volted then s else overvoltage s) else goodPeriod ok m v s
def periodRead (ok : Bool) (m : PwmSample) (k : Int) (s : State) : State :=
  periodJudged ok s.spc.overvolt m (roundHalfUp (scaled (vbusGain s.img) k)).toNat (busRead (roundHalfUp (scaled (vbusGain s.img) k)).toNat s)
def pwmRun (m : PwmSample) (s : State) : State :=
  match convIn 0 4079 m.vbus with
  | none => periodBegun m s
  | some k => periodRead (periodOk s m) m k (periodBegun m s)
theorem execPwmPeriod_eq (m : PwmSample) (s : State) : execPwmPeriod m s = live s fun s => .next (pwmRun m s) := by
  unfold execPwmPeriod
  refine congrArg (live s) (funext fun s => ?_)
  extract_lets ok _ a _ b _ c _ _
  have hc : c = periodBegun m s := rfl
  clear_value c
  subst hc
  unfold pwmRun
  cases convIn 0 4079 m.vbus with
  | none => rfl
  | some k => rfl
theorem exec_pwmPeriod {s : State} (hawake : awake s = true) (m : PwmSample) : exec (.pwmPeriod m) s = .next (pwmRun m s) :=
  (execPwmPeriod_eq m s).trans (if_pos hawake)
theorem PeriodBegun.trans {s t u : State} (h₁ : PeriodBegun s t) (h₂ : PeriodBegun t u) : PeriodBegun s u where
  gates := h₂.gates.trans h₁.gates
  duty := h₂.duty.trans h₁.duty
  overvolt := h₂.overvolt.trans h₁.overvolt
  offPeriods := h₂.offPeriods.trans h₁.offPeriods
  offsets := h₂.offsets.trans h₁.offsets
  ocTimes := h₂.ocTimes.trans h₁.ocTimes
  mode := h₂.mode.trans h₁.mode
  overcurrent := h₂.overcurrent.trans h₁.overcurrent
  rest := h₂.rest.after h₁.rest
theorem phaseCurrents_of_begun {s t : State} (h : PeriodBegun s t) (m : PwmSample) : phaseCurrents t m = phaseCurrents s m := by
  have hoff := h.offsets
  rw [Prod.mk.injEq, Prod.mk.injEq] at hoff
  obtain ⟨ha, hb, hc⟩ := hoff
  have hwindow : ∀ d, hasWindow t d = hasWindow s d := fun d => by
    unfold hasWindow
    rw [h.rest.img, h.gates]
  have hcurrent : ∀ o c, currentOf t o c = currentOf s o c := fun o c => by
    unfold currentOf
    rw [h.rest.img]
  unfold phaseCurrents
  simp only [h.duty, ha, hb, hc, hwindow, hcurrent]
/-- A good period of a spindle that turns under its currents, with one above I_OC (R243). -/
theorem runPeriod_overcurrent {m : PwmSample} {vbus : Nat} {s : State} {ia ib ic : Int} (hgates : s.spc.gates = true) (h1 : s.spn.mode ≠ 1) (h2 : s.spn.mode ≠ 2)
    (hoff : s.spc.gatesOffPeriods = 0) (hcur : phaseCurrents s m = some (ia, ib, ic)) (hover : 1000 * iOc s.img < max ia.natAbs (max ib.natAbs ic.natAbs)) :
    runPeriod m vbus s = overcurrent s := by
  unfold runPeriod
  rw [if_pos hgates, if_neg h1, if_neg h2, if_neg (by rw [hoff]; decide), if_neg (by simp [hgates]), hcur]
  exact if_pos hover
theorem holdUpBus_other {vbus : Nat} {s : State} (h : s.dev ≠ .holdUp) : holdUpBus vbus s = s := if_pos h
theorem recent_of_only {m : Units} {s t : State} {w : Nat} {ts : List Nat} (h : Only m s t) (hm : m.aon = false := by rfl) : recent t w ts = recent s w ts := by
  unfold recent
  rw [now_of_only h hm]
theorem busKept_periodJudged (ok volted : Bool) (m : PwmSample) (v : Nat) (s : State) : busKept (periodJudged ok volted m v s) = busKept s := by
  unfold periodJudged
  split
  · split
    · rfl
    · obtain ⟨-, -, -, -, h⟩ := overvoltage_left s
      exact h
  · exact busKept_goodPeriod ..
theorem pwmPeriod_completes {s : State} (hawake : awake s = true) (m : PwmSample) : Completes (.pwmPeriod m) s fun t =>
    t.spc.badPeriods = (if periodOk s m then 0 else min 3 (s.spc.badPeriods + 1)) ∧
    (convIn 0 4079 m.vbus = none → t.spn.vbus = s.spn.vbus ∧ t.spc.gates = s.spc.gates ∧ t.spc.duty = s.spc.duty ∧ t.dev = s.dev) ∧
    ∀ k, convIn 0 4079 m.vbus = some k →
      let v := (roundHalfUp (scaled (vbusGain s.img) k)).toNat
      t.spn.vbus = min 65535 v ∧
      (16000 < v → s.spc.overvolt = false → t.spc.gates = false ∧ t.spn.chopOn = false ∧ t.spc.overvolt = true ∧ t.spn.lastEvent = 0x2D) ∧
      (v ≤ 16000 → periodOk s m = false → t.spc.gates = s.spc.gates ∧ t.spc.duty = s.spc.duty ∧ t.dev = s.dev) ∧
      (v ≤ 16000 → periodOk s m = true → s.spc.gates = true → s.spn.mode ≠ 1 → s.spn.mode ≠ 2 → s.spc.gatesOffPeriods = 0 → s.dev ≠ .holdUp →
        ∀ ia ib ic, phaseCurrents s m = some (ia, ib, ic) → 1000 * iOc s.img < max ia.natAbs (max ib.natAbs ic.natAbs) →
          t.spn.overcurrent = satInc 8 s.spn.overcurrent ∧
          .gates false ∈ t.tx ∧
          SpindleFaulted 0x2A s t ((2 ≤ (recent s oneSec s.spc.ocTimes).length → StopBegun 0x2A s t) ∧
            ((recent s oneSec s.spc.ocTimes).length < 2 → t.dev = .faultHold ∧ t.spc.gates = false ∧ t.spc.recatchDue = true))) := by
  obtain ⟨hbegun, hbus, hbad⟩ := periodBegun_kept m s
  refine ⟨_, exec_pwmPeriod hawake m, ?_⟩
  unfold pwmRun
  cases hconv : convIn 0 4079 m.vbus with
  | none => exact ⟨hbad, fun _ => ⟨hbus, hbegun.gates, hbegun.duty, hbegun.rest.dev⟩, fun k hk => absurd hk (by simp)⟩
  | some k =>
    dsimp only
    rw [periodRead, hbegun.rest.img, hbegun.overvolt]
    generalize hv : (roundHalfUp (scaled (vbusGain s.img) k)).toNat = v
    obtain ⟨hread, hbus', hbad'⟩ := busRead_kept v (periodBegun m s)
    have hall := hbegun.trans hread
    have hkept := busKept_periodJudged (periodOk s m) s.spc.overvolt m v (busRead v (periodBegun m s))
    rw [busKept, busKept, Prod.mk.injEq, hbus', hbad', hbad] at hkept
    refine ⟨hkept.2, fun h => absurd h (by simp), fun k' hk' => ?_⟩
    obtain rfl : k = k' := by simpa using hk'
    rw [hv]
    refine ⟨hkept.1, fun hover hvolt => ?_, fun hv' hbad => ?_, fun hv' hok hgates h1 h2 hoff hdev ia ib ic hcur hover => ?_⟩
    · rw [periodJudged, if_pos hover, if_neg (by rw [hvolt]; decide)]
      obtain ⟨h1, h2, h3, h4, -⟩ := overvoltage_left (busRead v (periodBegun m s))
      exact ⟨h1, h2, h3, h4⟩
    · rw [periodJudged, if_neg (not_lt.2 hv'), goodPeriod, if_neg (by rw [hbad]; decide)]
      exact ⟨hall.gates, hall.duty, hall.rest.dev⟩
    · have hdev' : (busRead v (periodBegun m s)).dev ≠ .holdUp := by rwa [hall.rest.dev]
      rw [periodJudged, if_neg (not_lt.2 hv'), goodPeriod, if_pos hok, holdUpBus_other hdev',
        runPeriod_overcurrent (hall.gates.trans hgates) (by rwa [hall.mode]) (by rwa [hall.mode]) (hall.offPeriods.trans hoff)
          ((phaseCurrents_of_begun hall m).trans hcur) (by rwa [hall.rest.img])]
      obtain ⟨hcount, hsent, hfault⟩ := overcurrent_answered (s := busRead v (periodBegun m s)) (hall.gates.trans hgates) hdev'
      rw [hall.overcurrent] at hcount
      rw [hall.ocTimes, recent_of_only hall.rest] at hfault
      refine ⟨hcount, hsent, (hfault.of_same hall.rest.dev (congrArg Flt.stopStep hall.rest.flt)).iff_of ?_⟩
      rintro ⟨hstop, hheld⟩
      exact ⟨fun hmany => (hstop hmany).of_ptn hall.rest.ptn, hheld⟩
theorem overcurrentRecatch_completes {s : State} (hawake : awake s = true) : Completes .overcurrentRecatch s (fun t =>
    (s.spc.recatchDue = true → s.spn.mode = 9 → inService s.dev = true → t.spn.mode = 1 ∧ t.spc.gates = false ∧ t.spc.recatchDue = false) ∧
    (s.spc.recatchDue = false ∨ s.spn.mode ≠ 9 → t = s)) := by
  refine ⟨_, if_pos hawake, ?_⟩
  split
  next h =>
    rw [Bool.and_eq_true, Bool.and_eq_true, decide_eq_true_eq] at h
    obtain ⟨⟨hdue, hmode⟩, -⟩ := h
    refine ⟨fun _ _ _ => ⟨startOffsets_mode s, startOffsets_gates s, ?_⟩, fun hn => ?_⟩
    · unfold startOffsets
      rfl
    · rcases hn with hn | hn
      · rw [hdue] at hn
        exact absurd hn (by decide)
      · exact absurd hmode hn
  next h =>
    refine ⟨fun hdue hmode hdev => absurd ?_ h, fun _ => rfl⟩
    rw [hdue, hmode]
    rcases inService_iff.1 hdev with hd | hd | hd | hd <;> rw [hd] <;> decide
theorem chopperOn_completes {s : State} (hawake : awake s = true) (vbus : Nat) : Completes (.chopperOn vbus) s fun t =>
    (busOf s vbus = none → t = s) ∧ (s.spn.chopOn = false → t.spn.chopOn = true → .chopper true ∈ t.tx) ∧
      ∀ v ∈ busOf s vbus, t.spn.chopOn = (s.spn.chopOn || (mayDrive s && decide (chopOnAt s < v))) := by
  refine ⟨_, if_pos hawake, ?_⟩
  split
  next v hv =>
    rw [hv]
    refine ⟨fun h => (by simp at h), ?_, fun w hw => ?_⟩
    · split
      · exact fun _ _ => mem_tx_send ..
      · exact fun h h' => absurd h' (by rw [h]; decide)
    · obtain rfl : v = w := by simpa using hw
      split
      next h =>
        simp only [Bool.and_eq_true, Bool.not_eq_true', decide_eq_true_eq] at h
        rw [(send_only ..).spn, h.1.1, decide_eq_true h.2]
        simp
      next h => 
        cases hc : s.spn.chopOn with
        | true => rfl
        | false => simpa [hc] using h
  next hv =>
    rw [hv]
    exact ⟨fun _ => rfl, fun h h' => absurd h' (by rw [h]; decide), fun w hw => absurd hw (by simp)⟩
theorem chopperOff_completes {s : State} (hawake : awake s = true) (vbus : Nat) : Completes (.chopperOff vbus) s fun t =>
    (busOf s vbus = none → t = s) ∧ (s.spn.chopOn = true → t.spn.chopOn = false → .chopper false ∈ t.tx) ∧
      ∀ v ∈ busOf s vbus, t.spn.chopOn = (s.spn.chopOn && decide (chopOffAt s ≤ v)) := by
  refine ⟨_, if_pos hawake, ?_⟩
  split
  next v hv =>
    rw [hv]
    refine ⟨fun h => (by simp at h), ?_, fun w hw => ?_⟩
    · split
      · exact fun _ _ => mem_tx_send ..
      · exact fun h h' => absurd h' (by rw [h]; decide)
    · obtain rfl : v = w := by simpa using hw
      split
      next h =>
        rw [Bool.and_eq_true, decide_eq_true_eq] at h
        rw [(send_only ..).spn, decide_eq_false (not_le.2 h.2), Bool.and_false]
      next h =>
        cases hc : s.spn.chopOn with
        | true => simpa [hc] using h
        | false => rfl
  next hv =>
    rw [hv]
    exact ⟨fun _ => rfl, fun h h' => absurd h' (by rw [h]; decide), fun w hw => absurd hw (by simp)⟩
/-- What goes on once the bus is low again (R269). -/
def busRecovered (s : State) : State :=
  if s.dev = .parked then trySpinUp s
  else if !s.ptn.activeOut then s
  else if stopDue s && s.dev ≠ .holdUp then spindleStop s
  else if mustTurn s then startOffsets s
  else if s.dev = .holdUp && !s.spc.generatorEnded then (if s.spc.offsetsDone then startCatch s else startOffsets s)
  else s
def voltRecovered (s : State) : State := { s with spc := { s.spc with overvolt := false } }
theorem startOffsets_overvolt (s : State) : (startOffsets s).spc.overvolt = s.spc.overvolt := by
  unfold startOffsets
  dsimp only
  rw [inverterOff_spc]
theorem trySpinUp_overvolt (s : State) : (trySpinUp s).spc.overvolt = s.spc.overvolt := by
  unfold trySpinUp
  split
  · unfold enterSpinningUp
    rw [(applySetpoint_only _).spc, startOffsets_overvolt]
  · rfl
theorem spindleStop_overvolt (s : State) : (spindleStop s).spc.overvolt = s.spc.overvolt :=
  congrArg (fun l : Spindle × SpindleCtl => l.2.overvolt) (spindleLog_spindleStop s)
theorem startCatch_overvolt (s : State) : (startCatch s).spc.overvolt = s.spc.overvolt := by
  unfold startCatch
  dsimp only
  rw [inverterOff_spc]
theorem busRecovered_overvolt (s : State) : (busRecovered s).spc.overvolt = s.spc.overvolt := by
  unfold busRecovered
  split
  · exact trySpinUp_overvolt s
  split
  · rfl
  split
  · exact spindleStop_overvolt s
  split
  · exact startOffsets_overvolt s
  split
  · split
    · exact startCatch_overvolt s
    · exact startOffsets_overvolt s
  · rfl
theorem spindleStop_stops (s : State) : (spindleStop s).spc.stopping = true := by
  by_cases hmode : s.spn.mode = 0
  · rw [spindleStop_eq, if_pos (show (stopWindow s).spn.mode = 0 from hmode)]
    rfl
  · exact spindleStop_stopping hmode
theorem busRecovered_left (s : State) : (busRecovered (voltRecovered s)).spc.overvolt = false ∧
    (s.ptn.activeOut = true → stopDue s = false → mustTurn s = true → (busRecovered (voltRecovered s)).spn.mode = 1) ∧
    (s.ptn.activeOut = true → stopDue s = true → s.dev ≠ .parked → s.dev ≠ .holdUp → (busRecovered (voltRecovered s)).spc.stopping = true) := by
  have hdev : (voltRecovered s).dev = s.dev := rfl
  have hactive : (voltRecovered s).ptn = s.ptn := rfl
  have hdue : stopDue (voltRecovered s) = stopDue s := rfl
  have hturn : mustTurn (voltRecovered s) = mustTurn s := rfl
  have hvolt : (voltRecovered s).spc.overvolt = false := rfl
  refine ⟨(busRecovered_overvolt _).trans hvolt, fun ha hs hm => ?_, fun ha hs hp hh => ?_⟩
  · have hnot : s.dev ≠ .parked := fun h => absurd hm (by rw [mustTurn, h]; simp [afterHoldState])
    rw [busRecovered, if_neg (by rwa [hdev]), if_neg (by rw [hactive, ha]; decide), if_neg (by rw [hdue, hs]; simp), if_pos (by rwa [hturn])]
    exact startOffsets_mode _
  · rw [busRecovered, if_neg (by rwa [hdev]), if_neg (by rw [hactive, ha]; decide), if_pos (by rw [hdue, hs, hdev]; simp [hh])]
    exact spindleStop_stops _
theorem busOvRecover_completes {s : State} (hawake : awake s = true) : Completes .busOvRecover s (fun t =>
    (s.spc.overvolt = true → s.spn.vbus < vChopOn s.img →
      t.spc.overvolt = false ∧
        (s.ptn.activeOut = true → stopDue s = false → mustTurn s = true → t.spn.mode = 1) ∧
        (s.ptn.activeOut = true → stopDue s = true → s.dev ≠ .parked → s.dev ≠ .holdUp → t.spc.stopping = true)) ∧
    (s.spc.overvolt = false ∨ vChopOn s.img ≤ s.spn.vbus → t = s)) := by
  refine ⟨_, if_pos hawake, ?_⟩
  beta_reduce
  split
  next h =>
    rw [Bool.and_eq_true, decide_eq_true_eq] at h
    obtain ⟨hover, hlow⟩ := h
    refine ⟨fun _ _ => ?_, fun hn => ?_⟩
    · exact busRecovered_left s
    · rcases hn with hn | hn
      · rw [hover] at hn
        exact absurd hn (by decide)
      · exact absurd hlow (not_lt.2 hn)
  next h => exact ⟨fun hover hlow => absurd (by simp [hover, hlow]) h, fun _ => rfl⟩
theorem generatorEnd_left (s : State) : (generatorEnd s).spn.mode = 9 ∧ (generatorEnd s).spc.gates = false ∧ (generatorEnd s).spc.generatorEnded = true ∧ (generatorEnd s).spn.lastEvent = 0x2E := by
  have hgates := startCoast_gates s
  have hmode := startCoast_mode s
  unfold generatorEnd
  dsimp only
  generalize startCoast s = u at hgates hmode
  rw [spnReport_spn, spnReport_spc]
  exact ⟨hmode, hgates, rfl, rfl⟩
theorem generatorExhausted_completes {s : State} (hawake : awake s = true) : Completes .generatorExhausted s fun t =>
    (s.dev = .holdUp → s.spn.mode = 10 → generatorSpent s = true →
      t.spn.mode = 9 ∧ t.spc.gates = false ∧ t.spc.generatorEnded = true ∧ t.spn.lastEvent = 0x2E) ∧
    (s.dev ≠ .holdUp ∨ s.spn.mode ≠ 10 ∨ generatorSpent s = false → t = s) := by
  refine ⟨_, if_pos hawake, ?_⟩
  split
  next h =>
    rw [Bool.and_eq_true, Bool.and_eq_true, decide_eq_true_eq, decide_eq_true_eq] at h
    obtain ⟨⟨hdev, hmode⟩, hspent⟩ := h
    refine ⟨fun _ _ _ => ?_, fun hn => absurd hn ?_⟩
    · exact generatorEnd_left s
    · rw [hdev, hmode, hspent]
      decide
  next h =>
    refine ⟨fun hdev hmode hspent => absurd ?_ h, fun _ => rfl⟩
    simp [hdev, hmode, hspent]
/-- Settles O10: each limit by the branch of the period that meets it. -/
theorem busAndCurrentLimitsHold : Obligations.BusAndCurrentLimitsHold := by
  unfold Obligations.BusAndCurrentLimitsHold
  intro s hawake
  exact ⟨pwmPeriod_completes hawake, overcurrentRecatch_completes hawake, chopperOn_completes hawake, chopperOff_completes hawake, busOvRecover_completes hawake,
    generatorExhausted_completes hawake⟩

end Sys2Proof.Machine
end

section
/-! What keeps through a stop (R523). -/

namespace Sys2Proof.Machine
set_option Elab.async false

-- What keeps through a stop: a relation that each piece of the stop sequence has (R523, Table 17.5).

/-- The units that the plain pieces of a stop write. -/
abbrev stopUnits : Units :=
  { dev := true, start := true, evt := true, ptn := true, gov := true, spn := true, spc := true, mrc := true, slu := true, links := true, injs := true, hold := true, hop := true, tx := true }
/-- What of the fault record a stop does not write. -/
def faultRecord (s : State) : Flt := { s.flt with stopStep := 0, stopCause := 0, quietSince := none, awaiting := false, failstop := false }
/-- A relation that every piece of a stop has. -/
structure StopStable (R : State → State → Prop) : Prop where
  refl : ∀ s, R s s
  trans : ∀ {s t u}, R s t → R t u → R s u
  plain : ∀ {s t}, Only stopUnits s t → R s t
  noted : ∀ {s t}, Only { flt := true } s t → faultRecord t = faultRecord s → R s t
  completed : ∀ cause s, R s (completeAll cause s)
  channels : ∀ s, R s (stopChannels s)
  gone : ∀ s, R s (dropGone s)
  released : ∀ s, R s (releaseArms s)
  unload : ∀ a s, R s (unloadArm a s)
  frame : ∀ a s, R s (vcmFrame a s)
  visits : ∀ s, R s (endVisits s)
  dark : ∀ a s, R s (armDark a s)
variable {R : State → State → Prop}
theorem StopStable.ite (_ : StopStable R) {s t u : State} {c : Prop} [Decidable c] (h₁ : R s t) (h₂ : R s u) : R s (if c then t else u) := by
  split
  · exact h₁
  · exact h₂
theorem StopStable.each (hR : StopStable R) {α : Type} {f : α → State → State} (hf : ∀ x s, R s (f x s)) (xs : List α) (s : State) : R s (each xs f s) := by
  induction xs generalizing s with
  | nil => exact hR.refl s
  | cons x xs ih =>
    rw [each_cons]
    exact hR.trans (hf x s) (ih _)
theorem StopStable.dropActive (hR : StopStable R) (s : State) : R s (dropActive s) := by
  unfold Machine.dropActive
  extract_lets r u _ v
  have hr : R s r := hR.ite (hR.each hR.frame _ _) (hR.refl s)
  have hu : R r u := hR.ite (hR.plain ((inverterOff_only r).mono)) (hR.plain ((startCoast_only r).mono))
  have hv : R u v := hR.plain (.ite ((send_only ..).after (.upd .refl)) .refl)
  exact hR.trans hr (hR.trans hu (hR.trans hv (hR.plain (.upd .refl))))
def stopTimed (s : State) : State := { s with flt := { s.flt with stopStep := 0, quietSince := none, awaiting := false } }
def stoppedPlain (cause : BitVec 8) (s : State) : State :=
  { s with
    dev := .stopped, start := { s.start with parkStep := 0 }, spc := { s.spc with stopping := false }, hop := { s.hop with closed := true, stopCause := cause }, ptn := { s.ptn with hbOn := false },
    spn := { s.spn with mode := if s.spn.mode = 0 then 0 else 9 } }
theorem stoppedPlain_only (cause : BitVec 8) (s : State) : Only stopUnits s (stoppedPlain cause s) := .upd .refl
theorem stopTimed_only (s : State) : Only { flt := true } s (stopTimed s) := .upd .refl
theorem stopTimed_record (s : State) : faultRecord (stopTimed s) = faultRecord s := rfl
theorem stopped_eq (cause : BitVec 8) (s : State) : ({ s with
    dev := .stopped, start := { s.start with parkStep := 0 }, spc := { s.spc with stopping := false }, hop := { s.hop with closed := true, stopCause := cause }, ptn := { s.ptn with hbOn := false },
    flt := { s.flt with stopStep := 0, quietSince := none, awaiting := false },
    spn := { s.spn with mode := if s.spn.mode = 0 then 0 else 9 } } : State) = stopTimed (stoppedPlain cause s) := rfl
theorem enterStopped_eq (cause : BitVec 8) (s : State) :
    enterStopped cause s = stopTimed (stoppedPlain cause (Machine.each (List.range 8) armDark (endVisits (Machine.dropActive s)))) := by
  unfold Machine.enterStopped
  exact stopped_eq cause (Machine.each (List.range 8) armDark (endVisits (Machine.dropActive s)))
theorem StopStable.enterStopped (hR : StopStable R) (cause : BitVec 8) (s : State) : R s (enterStopped cause s) := by
  have hdark : R s (Machine.each (List.range 8) armDark (endVisits (Machine.dropActive s))) :=
    hR.trans (hR.dropActive s) (hR.trans (hR.visits _) (hR.each hR.dark _ _))
  rw [enterStopped_eq]
  exact hR.trans hdark (hR.trans (hR.plain (stoppedPlain_only cause _)) (hR.noted (stopTimed_only _) (stopTimed_record _)))
theorem StopStable.finalStop (hR : StopStable R) (cause : BitVec 8) (s : State) : R s (finalStop cause s) := by
  unfold Machine.finalStop
  exact hR.trans (hR.released s) (hR.trans (hR.plain ((post_only ..).mono)) (hR.enterStopped cause _))
theorem StopStable.spindleStop (hR : StopStable R) (s : State) : R s (spindleStop s) := hR.plain ((spindleStop_only s).mono)
def stopStepped (n : Nat) (s : State) : State := { s with flt := { s.flt with stopStep := n } }
theorem StopStable.advanceStop (hR : StopStable R) (s : State) : R s (advanceStop s) := by
  have hlast (t : State) : R t (if t.flt.stopStep = 3 && (t.spn.mode = 0 || !t.ptn.activeOut || lostArms t || t.spc.lost) then Machine.finalStop t.flt.stopCause t else t) :=
    hR.ite (hR.finalStop ..) (hR.refl t)
  unfold Machine.advanceStop
  refine hR.trans (hR.ite ?_ (hR.refl s)) (hlast _)
  exact hR.trans (hR.noted (t := stopStepped 3 s) (.upd .refl) rfl) (hR.ite (hR.plain ((startCoast_only _).mono)) (hR.ite (hR.spindleStop _) (hR.refl _)))
theorem StopStable.stopOpened (hR : StopStable R) (cause : BitVec 8) (s : State) : R s (stopOpened cause s) := by
  have hbegun : R s (stopChannels (completeAll cause (endVisits { s with start := { s.start with parkStep := 0 } }))) :=
    hR.trans (hR.plain (.upd .refl)) (hR.trans (hR.visits _) (hR.trans (hR.completed ..) (hR.channels _)))
  unfold Machine.stopOpened
  generalize stopChannels (completeAll cause (endVisits { s with start := { s.start with parkStep := 0 } })) = t at hbegun
  exact hR.trans hbegun (hR.noted (.upd .refl) rfl)
theorem StopStable.stopWaits (hR : StopStable R) (solo : Bool) (cause : BitVec 8) (s : State) : R s (stopWaits solo cause s) := by
  unfold Machine.stopWaits
  extract_lets t u fromLoading _ v
  have ht : R s t := hR.plain (.ite ((post_only ..).after ((ptnSend_only ..).mono)) .refl)
  have hu : R t u := hR.ite (hR.each hR.unload _ _) (hR.refl t)
  have hv : R u v := hR.trans (hR.plain (.upd .refl)) (hR.gone _)
  exact hR.trans ht (hR.trans hu (hR.trans hv (hR.noted (t := stopStepped 2 v) (.upd .refl) rfl)))
theorem StopStable.stopSequence (hR : StopStable R) (solo : Bool) (cause : BitVec 8) (s : State) : R s (stopSequence solo cause s) := by
  by_cases hstep : s.flt.stopStep = 0
  · by_cases honce : stopsAtOnce s.dev = true
    · rw [stopSequence_atOnce honce hstep]
      exact hR.trans (hR.completed ..) (hR.trans (hR.channels _) (hR.finalStop ..))
    by_cases hservice : inService s.dev = true
    · rw [stopSequence_inService hservice hstep]
      refine hR.trans (hR.stopOpened cause s) (hR.ite ?_ (hR.trans (hR.stopWaits ..) (hR.advanceStop _)))
      exact hR.trans (hR.plain (.upd ((post_only ..).after ((ptnSend_only ..).mono)))) (hR.trans (hR.dropActive _) (hR.finalStop ..))
    · rw [stopSequence_of_down (down_iff.2 ⟨Bool.eq_false_iff.2 honce, Bool.eq_false_iff.2 hservice⟩)]
      exact hR.refl s
  · rw [Machine.stopSequence, if_pos hstep]
    exact hR.refl s
theorem StopStable.failStop (hR : StopStable R) (cause : BitVec 8) (s : State) : R s (failStop cause s) := by
  rw [failStop_eq]
  exact hR.trans (hR.noted (t := stopMarked s) (.upd .refl) rfl) (hR.stopSequence ..)

end Sys2Proof.Machine
end

section
/-! Counters and heads through a stop. -/

namespace Sys2Proof.Machine
set_option Elab.async false

-- The counters, the heads, the layout and the arms through a stop.

theorem faultRecord_of_only {m : Units} {s t : State} (h : Only m s t) (hm : m.flt = false := by rfl) : faultRecord t = faultRecord s := by
  unfold faultRecord
  rw [h.flt hm]
theorem stopStable_faultRecord : StopStable fun s t => faultRecord t = faultRecord s where
  refl _ := rfl
  trans h₁ h₂ := h₂.trans h₁
  plain h := faultRecord_of_only h
  noted _ h := h
  completed cause s := faultRecord_of_only (completeAll_only cause s)
  channels s := faultRecord_of_only (stopChannels_only s)
  gone s := faultRecord_of_only (dropGone_only s)
  released s := faultRecord_of_only (releaseArms_only s)
  unload a s := faultRecord_of_only (unloadArm_only a s)
  frame a s := faultRecord_of_only (vcmFrame_only a s)
  visits s := faultRecord_of_only (endVisits_only s)
  dark a s := faultRecord_of_only (armDark_only a s)
/-- What of a head neither a gating nor a stop changes. -/
def headCore (s : State) (n : Nat) : Bool × Nat := ((getHead s n).failed, (getHead s n).state)
theorem headCore_of_only {m : Units} {s t : State} (h : Only m s t) (n : Nat) (hm : m.heads = false := by rfl) : headCore t n = headCore s n := by
  unfold headCore
  rw [getHead_of_only n h hm]
theorem headCore_of_rested {s t : State} (h : Rested s t) (n : Nat) : headCore t n = headCore s n := by
  have hcore (d : Head) : (d.failed, d.state) = ((headState d).failed, (headState d).state) := rfl
  unfold headCore
  rw [hcore, h.head n, ← hcore]
theorem headCore_modHead (m : Nat) (f : Head → Head) (s : State) (n : Nat) (hfailed : ∀ d, (f d).failed = d.failed := by exact fun _ => rfl)
    (hstate : ∀ d, (f d).state = d.state := by exact fun _ => rfl) : headCore (modHead s m f) n = headCore s n := by
  unfold headCore
  by_cases h : n = m
  · subst h
    rw [getHead_modHead, hfailed, hstate]
  · rw [getHead_modHead_other _ _ h]
theorem headCore_coolHead (m : Nat) (s : State) (n : Nat) : headCore (coolHead m s) n = headCore s n := by
  unfold coolHead sendHeater
  refine (headCore_modHead _ _ _ n).trans ?_
  rw [headCore_of_only (alkSend_only ..), headCore_of_rested (sendLaser_rested ..)]
theorem headCore_uaRamp (m : Nat) (s : State) (n : Nat) : headCore (uaRamp m s) n = headCore s n := by
  unfold uaRamp
  refine (headCore_modHead _ _ _ n).trans ?_
  exact each_proj (headCore · n) _ _ s fun _ _ => headCore_of_only (sendUa_only ..) n
theorem headCore_gateArm (a : Nat) (s : State) (n : Nat) : headCore (gateArm a s) n = headCore s n := by
  unfold gateArm
  exact (each_proj (headCore · n) _ _ _ fun _ _ => headCore_modHead _ _ _ n).trans (headCore_of_only (sendWgate_only ..) n)
theorem headCore_armSafe (a : Nat) (s : State) (n : Nat) : headCore (armSafe a s) n = headCore s n := by
  unfold armSafe
  refine (each_proj (headCore · n) _ _ _ fun h t => ?_).trans (headCore_gateArm a s n)
  rw [headCore_uaRamp, headCore_coolHead, headCore_of_only (gateIsland_only ..)]
/-- What an unload does once the arm's heads are safe: its loops, its operation and its own state. -/
def unloadBegun (a : Nat) (s : State) : State :=
  let s := each ((List.range 8).map (8 + 8 * a + ·) ++ (List.range 8).map (72 + 8 * a + ·)) disableCtx s
  let s := if (getCtx s (140 + a)).enable then disableCtx a s else takeOver (140 + a) a s
  let s := setSetpoint (140 + a) (-(unloadVel s.img : Int)) s
  let s := freeInner (fun e => e.1 = a) { s with slu := { s.slu with ops := tabSet none s.slu.ops a none } }
  modArm s a fun r => { r with state := 6, seek := none, coast := false, loadDue := none }
theorem unloadBegun_only (a : Nat) (s : State) : Only { arms := true, gov := true, mrc := true, slu := true } s (unloadBegun a s) := by
  have hloops : Only { gov := true } s (each ((List.range 8).map (8 + 8 * a + ·) ++ (List.range 8).map (72 + 8 * a + ·)) disableCtx s) := .each (fun _ _ => disableCtx_only ..) .refl
  unfold unloadBegun
  exact (modArm_only ..).after ((freeInner_only ..).after (.upd ((setSetpoint_only ..).after (.ite ((disableCtx_only ..).after hloops.mono)
    ((takeOver_only ..).after hloops.mono)))))
theorem unloadArm_eq (a : Nat) (s : State) : unloadArm a s = if armLoaded s a then unloadBegun a (armSafe a s) else s := by
  unfold unloadArm unloadBegun
  rfl
theorem headCore_unloadArm (a : Nat) (s : State) (n : Nat) : headCore (unloadArm a s) n = headCore s n := by
  rw [unloadArm_eq]
  split
  · rw [headCore_of_only (unloadBegun_only ..), headCore_armSafe]
  · rfl
theorem headCore_armDark (a : Nat) (s : State) (n : Nat) : headCore (armDark a s) n = headCore s n := by
  unfold armDark
  exact each_proj (headCore · n) _ _ s fun h t => (headCore_modHead _ _ _ n).trans (headCore_of_only (gateIsland_only ..) n)
theorem stopStable_headCore (n : Nat) : StopStable fun s t => headCore t n = headCore s n where
  refl _ := rfl
  trans h₁ h₂ := h₂.trans h₁
  plain h := headCore_of_only h n
  noted h _ := headCore_of_only h n
  completed cause s := headCore_of_only (completeAll_only cause s) n
  channels s := headCore_of_only (stopChannels_only s) n
  gone s := headCore_of_only (dropGone_only s) n
  released s := headCore_of_only (releaseArms_only s) n
  unload a s := headCore_unloadArm a s n
  frame a s := headCore_of_only (vcmFrame_only a s) n
  visits s := headCore_of_rested (endVisits_rested s) n
  dark a s := headCore_armDark a s n

end Sys2Proof.Machine
end

section
/-! A head that is declared failed (R472). -/

namespace Sys2Proof.Machine
set_option Elab.async false

-- A head that is declared failed (R472), and the arms, through a stop.

/-- The heads on the list of the failed. -/
def failedList (s : State) : List (Nat × Nat) := s.layout.failedHeads
theorem failedList_of_only {m : Units} {s t : State} (h : Only m s t) (hm : m.layout = false := by rfl) : failedList t = failedList s := by
  unfold failedList
  rw [h.layout hm]
theorem failedList_listBlock (lba : Nat) (s : State) : failedList (listBlock lba s) = failedList s := by
  unfold listBlock
  split
  · rfl
  · rfl
theorem failedList_raiseDeferred (portB : Bool) (cause lba arrival : Nat) (tag : BitVec 16) (s : State) : failedList (raiseDeferred portB cause lba arrival tag s) = failedList s := by
  unfold raiseDeferred
  dsimp only
  split
  · rw [failedList_of_only (addDeferred_only ..), failedList_listBlock]
  · rw [failedList_of_only (mirror_only ..), failedList_of_only (storeDeferred_only ..), failedList_listBlock]
theorem failedList_dropGone (s : State) : failedList (dropGone s) = failedList s := by
  unfold dropGone
  refine Eq.trans (failedList_of_only (m := { mpd := true }) (.upd .refl)) (each_proj failedList _ _ s fun f t => ?_)
  dsimp only
  split
  · rw [failedList_raiseDeferred, failedList_of_only (post_only ..), failedList_of_only (setEntry_only ..)]
  · rw [failedList_of_only (setEntry_only ..)]
theorem stopStable_failedList : StopStable fun s t => failedList t = failedList s where
  refl _ := rfl
  trans h₁ h₂ := h₂.trans h₁
  plain h := failedList_of_only h
  noted h _ := failedList_of_only h
  completed cause s := failedList_of_only (completeAll_only cause s)
  channels s := failedList_of_only (stopChannels_only s)
  gone s := failedList_dropGone s
  released s := failedList_of_only (releaseArms_only s)
  unload a s := failedList_of_only (unloadArm_only a s)
  frame a s := failedList_of_only (vcmFrame_only a s)
  visits s := failedList_of_only (endVisits_only s)
  dark a s := failedList_of_only (armDark_only a s)
/-- The head is off, its loops and its island are free (R472). -/
def headOff (n : Nat) (s : State) : State :=
  let a := n / 8
  let h := n % 8
  let s := sendUa a h 0 true 0 (sendMode a h 0 0 (coolHead n (stopWriter n s)))
  let s := disableCtx (72 + n) (disableCtx (8 + n) s)
  let s := modIsl s (getHead s n).island fun i => if i.assigned && 8 * i.arm + i.head == n then { i with assigned := false, state := if i.failed then 5 else 0 } else i
  modHead s n fun d => { d with failed := true, state := 0, onRead := false, onWrite := false, suspended := false }
/-- The head stands on the list, and the event is posted. -/
def headListed (n : Nat) (s : State) : State :=
  post 0x62 mCore [] (mirror (.layout (.failedHead (Fin.ofNat 8 (n / 8)) (Fin.ofNat 8 (n % 8)))) { s with
    layout := { s.layout with failedHeads := s.layout.failedHeads ++ [(n / 8, n % 8)] },
    bol := { s.bol with suspended := s.bol.suspended.filter (· ≠ (n / 8, n % 8)) } })
def headStops (n : Nat) (s : State) : Bool :=
  decide (s.img.headFailMax ≤ s.layout.failedHeads.length) || s.layout.rebuilds.toList.any fun r => r.arm = n / 8 && (r.state = 1 || r.state = 3)
theorem declareFailed_eq {n : Nat} {s : State} (h : (getHead s n).failed = false) :
    declareFailed n s = if headStops n s then failStop 0x62 (headListed n (headOff n s)) else startRebuild (n / 8) (n % 8) (headListed n (headOff n s)) := by
  unfold declareFailed
  rw [if_neg (by rw [h]; decide)]
  rfl
theorem headOff_only (n : Nat) (s : State) : Only { alks := true, islands := true, heads := true, gov := true, tx := true } s (headOff n s) := by
  unfold headOff
  exact (modHead_only ..).after ((modIsl_only ..).after ((disableCtx_only ..).after ((disableCtx_only ..).after ((sendUa_only ..).after ((sendMode_only ..).after ((coolHead_only ..).after ((stopWriter_only ..).mono)))))))
theorem headListed_only (n : Nat) (s : State) : Only { evt := true, gov := true, layout := true, bol := true, links := true, injs := true, tx := true } s (headListed n s) := by
  unfold headListed
  exact (post_only ..).after ((mirror_only ..).after (.upd .refl))
theorem headOff_failed (n : Nat) (s : State) : (getHead (headOff n s) n).failed = true := by
  unfold headOff
  rw [getHead_modHead]
theorem headListed_listed (n : Nat) (s : State) : failedList (headListed n s) = failedList s ++ [(n / 8, n % 8)] := by
  unfold headListed
  rw [failedList_of_only (post_only ..), failedList_of_only (mirror_only ..)]
  rfl
theorem failedList_startRebuild (a h : Nat) (s : State) : failedList (startRebuild a h s) = failedList s := by
  unfold startRebuild
  rw [failedList_of_only (post_only ..)]
  rfl
theorem failed_of_core {s t : State} {n : Nat} (h : headCore t n = headCore s n) (hs : (getHead s n).failed = true) : (getHead t n).failed = true := (congrArg Prod.fst h).trans hs
theorem listed_of_same {s t : State} {p : Nat × Nat} (h : failedList t = failedList s) (hs : p ∈ failedList s) : p ∈ t.layout.failedHeads := by
  rwa [← h] at hs
theorem headListed_declared (n : Nat) (s : State) : (getHead (headListed n (headOff n s)) n).failed = true ∧ (n / 8, n % 8) ∈ failedList (headListed n (headOff n s)) := by
  refine ⟨?_, ?_⟩
  · rw [getHead_of_only n (headListed_only ..), headOff_failed]
  · rw [headListed_listed]
    exact List.mem_append_right _ (List.mem_singleton_self _)
theorem headListed_kept (n : Nat) (s : State) : Only (.but { ptn := true, dev := true, flt := true, img := true }) s (headListed n (headOff n s)) :=
  (headListed_only ..).after (headOff_only n s).mono
/-- A head that is declared failed stands on the list, and one beyond HEAD_FAIL_MAX stops the part from service (R37, R472). -/
theorem declareFailed_declared (n : Nat) (s : State) : HeadDeclared n s (declareFailed n s) := by
  intro hsound
  obtain ⟨hfailed, hmem⟩ := headListed_declared n s
  have hkept := headListed_kept n s
  rw [declareFailed_eq hsound]
  generalize headListed n (headOff n s) = t at hfailed hmem hkept
  split
  · refine ⟨failed_of_core ((stopStable_headCore n).failStop 0x62 t) hfailed, listed_of_same (stopStable_failedList.failStop 0x62 t) hmem, fun _ hdev hstep => ?_⟩
    exact (failStop_begun (by rwa [hkept.dev]) (by rwa [hkept.flt])).of_ptn hkept.ptn
  next hgoes =>
    refine ⟨failed_of_core (headCore_of_only (startRebuild_only ..) n) hfailed, listed_of_same (failedList_startRebuild ..) hmem, fun hmax => absurd ?_ hgoes⟩
    unfold headStops
    rw [decide_eq_true hmax, Bool.true_or]

end Sys2Proof.Machine
end

section
/-! An arm that unloads (R202). -/

namespace Sys2Proof.Machine
set_option Elab.async false

-- An arm that unloads (R202), and what a stop leaves of it.

theorem disableCtx_enable_other {n k : Nat} (s : State) (h : k ≠ n) : (getCtx (disableCtx n s) k).enable = (getCtx s k).enable := by
  rw [getCtx_disableCtx_other s h]
theorem getCtx_handover_enable (n k : Nat) (u : Int) (s : State) : (getCtx (handover n u s) k).enable = (getCtx s k).enable := by
  unfold handover
  by_cases h : k = n
  · subst h
    rw [getCtx_modCtx]
  · rw [getCtx_modCtx_other _ _ h]
theorem takeOver_enable {new old : Nat} (s : State) (h : new ≠ old) : (getCtx (takeOver new old s) new).enable = true ∧ (getCtx (takeOver new old s) old).enable = false := by
  unfold takeOver
  rw [getCtx_handover_enable, getCtx_handover_enable, getCtx_modCtx, getCtx_modCtx_other _ _ h.symm, getCtx_enableCtx, getCtx_enableCtx_other _ h.symm, getCtx_disableCtx]
  exact ⟨rfl, rfl⟩
/-- The loops of an unload: the position loop is off, and the velocity loop runs outward at UNLOAD_VEL. -/
theorem unloadBegun_ctx (a : Nat) (s : State) : (getCtx (unloadBegun a s) (140 + a)).enable = true ∧
    (getCtx (unloadBegun a s) (140 + a)).setpoint = -(unloadVel s.img : Int) ∧ (getCtx (unloadBegun a s) a).enable = false := by
  unfold unloadBegun
  extract_lets t u v _ w
  have ht : Only { gov := true } s t := .each (fun _ _ => disableCtx_only ..) .refl
  have hu : Only { gov := true } t u := .ite ((disableCtx_only ..).mono) ((takeOver_only ..).mono)
  have hne : 140 + a ≠ a := by omega
  have hruns : (getCtx u (140 + a)).enable = true ∧ (getCtx u a).enable = false := by
    unfold u
    split
    next hon =>
      rw [getCtx_disableCtx_other t hne, getCtx_disableCtx]
      exact ⟨hon, rfl⟩
    · exact takeOver_enable t hne
  have hkept (k : Nat) : getCtx (modArm w a fun r => { r with state := 6, seek := none, coast := false, loadDue := none }) k = getCtx v k := by
    rw [getCtx_of_only k (modArm_only ..), getCtx_of_only k ((freeInner_only ..).after (m := { mrc := true, slu := true }) (.upd .refl))]
  have himg : u.img = s.img := hu.img.trans ht.img
  obtain ⟨hset, hon⟩ := getCtx_setSetpoint (140 + a) (-(unloadVel u.img : Int)) u
  rw [hkept, hkept]
  refine ⟨hon.trans hruns.1, hset.trans (by rw [himg]), ?_⟩
  unfold v setSetpoint
  rw [getCtx_modCtx_other _ _ hne.symm]
  exact hruns.2
def unloadedArm (r : Arm) : Arm := { r with state := 6, seek := none, coast := false, loadDue := none }
theorem getArm_unloadBegun (a b : Nat) (s : State) : getArm (unloadBegun a s) b = if b = a then unloadedArm (getArm s b) else getArm s b := by
  unfold unloadBegun
  extract_lets t u v _ w
  have ht : Only { gov := true } s t := .each (fun _ _ => disableCtx_only ..) .refl
  have hu : Only { gov := true } t u := .ite ((disableCtx_only ..).mono) ((takeOver_only ..).mono)
  have hv : Only { gov := true } s v := (setSetpoint_only ..).after (hu.after ht)
  have hw : Only { gov := true, mrc := true, slu := true } s w := (freeInner_only ..).after (.upd hv.mono)
  split
  next h =>
    subst h
    rw [getArm_modArm, getArm_of_arms b hw.arms]
    rfl
  next h => rw [getArm_modArm_other _ _ h, getArm_of_arms b hw.arms]
/-- An arm off its ramp unloads (R202). -/
theorem unloadArm_unloading {a : Nat} {s : State} (h : armLoaded s a = true) : Unloading a s (unloadArm a s) := by
  have hsafe := armSafe_only a s
  obtain ⟨hon, hset, hoff⟩ := unloadBegun_ctx a (armSafe a s)
  rw [unloadArm_eq, if_pos h]
  refine ⟨?_, hon, ?_, hoff⟩
  · rw [getArm_unloadBegun, if_pos rfl]
    rfl
  · rw [hset, hsafe.img]
theorem getArm_unloadArm (a b : Nat) (s : State) : getArm (unloadArm a s) b = if armLoaded s a = true ∧ b = a then unloadedArm (getArm s b) else getArm s b := by
  rw [unloadArm_eq]
  by_cases h : armLoaded s a = true
  · rw [if_pos h, getArm_unloadBegun, getArm_of_arms b (armSafe_only a s).arms]
    simp [h]
  · rw [if_neg h, if_neg fun h' => h h'.1]
theorem getArm_vcmFrame_state (a b : Nat) (s : State) : (getArm (vcmFrame a s) b).state = (getArm s b).state := by
  unfold vcmFrame
  dsimp only
  rw [getArm_of_arms b (send_only ..).arms]
  by_cases h : b = a
  · subst h
    rw [getArm_modArm]
  · rw [getArm_modArm_other _ _ h]
/-- An arm that unloads goes on unloading through a stop. -/
theorem stopStable_unloading (a : Nat) : StopStable fun s t => (getArm s a).state = 6 → (getArm t a).state = 6 where
  refl _ := id
  trans h₁ h₂ := h₂ ∘ h₁
  plain h hs := by rwa [getArm_of_arms a h.arms]
  noted h _ hs := by rwa [getArm_of_arms a h.arms]
  completed cause s hs := by rwa [getArm_of_arms a (completeAll_only cause s).arms]
  channels s hs := by rwa [getArm_of_arms a (stopChannels_only s).arms]
  gone s hs := by rwa [getArm_of_arms a (dropGone_only s).arms]
  released s hs := by rwa [getArm_of_arms a (releaseArms_only s).arms]
  unload b s hs := by
    rw [getArm_unloadArm]
    split
    · rfl
    · exact hs
  frame b s hs := by rwa [getArm_vcmFrame_state]
  visits s hs := by rwa [getArm_of_arms a (endVisits_only s).arms]
  dark b s hs := by rwa [getArm_of_arms a (armDark_only b s).arms]

end Sys2Proof.Machine
end

section
/-! A seek that begins again (R186). -/

namespace Sys2Proof.Machine
set_option Elab.async false

-- The conditions of a servo and their answers (O14).

theorem servoCondition_rested (code : BitVec 8) (hold : Bool) (fs : List PayField) (s : State) : Rested s (servoCondition code hold fs s) := condition_rested ..
theorem servoCondition_dev {code : BitVec 8} {fs : List PayField} {s : State} : (servoCondition code false fs s).dev = s.dev := condition_dev
theorem servoCondition_inService {code : BitVec 8} {hold : Bool} {fs : List PayField} {s : State} (h : inService s.dev = true) : inService (servoCondition code hold fs s).dev = true := condition_inService h
theorem servoCondition_stopStep (code : BitVec 8) (hold : Bool) (fs : List PayField) (s : State) : (servoCondition code hold fs s).flt.stopStep = s.flt.stopStep := condition_stopStep ..
theorem headCore_servoCondition (code : BitVec 8) (hold : Bool) (fs : List PayField) (s : State) (n : Nat) : headCore (servoCondition code hold fs s) n = headCore s n :=
  headCore_of_rested (servoCondition_rested ..) n
theorem loadedHeads_of_core {s t : State} (a : Nat) (himg : t.img = s.img) (h : ∀ n, headCore t n = headCore s n) : loadedHeads t a = loadedHeads s a := by
  have hfailed (n : Nat) : (getHead t n).failed = (getHead s n).failed := congrArg Prod.fst (h n)
  have hstate (n : Nat) : (getHead t n).state = (getHead s n).state := congrArg Prod.snd (h n)
  unfold loadedHeads armHeads
  simp only [himg, hfailed, hstate]
theorem getHead_uaPreset (n k : Nat) (mu : Int) (s : State) : getHead (uaPreset n mu s) k = if k = n then { getHead s k with mu } else getHead s k := by
  unfold uaPreset
  rw [getHead_of_only k (sendUa_only ..)]
  split
  next h =>
    subst h
    rw [getHead_modHead]
  next h => rw [getHead_modHead_other _ _ h]
/-- A head that its arm's seek takes along: off its track, to its new preset (R184). -/
def soughtHead (goal p : Int) (h : Head) : Head := { offTrack h with state := if h.state = 6 then 6 else 2, target := goal, goal := goal, preset := p }
def seekHead (xStar : Int) (t : Nat × Int) (s : State) : State :=
  let p := t.2 - offCO s.img t.1 (getHead s t.1).zone - xStar
  uaPreset t.1 p (modHead s t.1 (soughtHead t.2 p))
theorem seekHead_state (xStar : Int) (t : Nat × Int) (s : State) (n : Nat) :
    (getHead (seekHead xStar t s) n).state = if n = t.1 ∧ (getHead s n).state ≠ 6 then 2 else (getHead s n).state := by
  unfold seekHead
  dsimp only
  rw [getHead_uaPreset]
  by_cases h : n = t.1
  · subst h
    rw [if_pos rfl, getHead_modHead]
    by_cases h6 : (getHead s t.1).state = 6
    · simp [soughtHead, h6]
    · simp [soughtHead, h6]
  · rw [if_neg h, getHead_modHead_other _ _ h, if_neg fun h' => h h'.1]
theorem seekHead_strokeRun (xStar : Int) (t : Nat × Int) (s : State) (n : Nat) : (getHead (seekHead xStar t s) n).strokeRun = (getHead s n).strokeRun := by
  unfold seekHead
  dsimp only
  rw [getHead_uaPreset]
  by_cases h : n = t.1
  · subst h
    rw [if_pos rfl, getHead_modHead]
    rfl
  · rw [if_neg h, getHead_modHead_other _ _ h]
theorem seekHead_only (xStar : Int) (t : Nat × Int) (s : State) : Only { alks := true, heads := true, tx := true } s (seekHead xStar t s) :=
  (uaPreset_only ..).after ((modHead_only ..).mono)
theorem each_seekHead_state {xStar : Int} {n : Nat} {ts : List (Nat × Int)} {s : State} (h6 : (getHead s n).state ≠ 6) (h : n ∈ ts.map (·.1) ∨ (getHead s n).state = 2) :
    (getHead (each ts (seekHead xStar) s) n).state = 2 := by
  induction ts generalizing s with
  | nil => exact h.resolve_left List.not_mem_nil
  | cons t ts ih =>
    rw [each_cons]
    have hstep := seekHead_state xStar t s n
    by_cases hn : n = t.1
    · rw [if_pos ⟨hn, h6⟩] at hstep
      exact ih (by rw [hstep]; decide) (.inr hstep)
    · rw [if_neg fun h' => hn h'.1] at hstep
      refine ih (by rwa [hstep]) (h.imp (fun hm => ?_) fun h2 => hstep.trans h2)
      rw [List.map_cons, List.mem_cons] at hm
      exact hm.resolve_left hn
/-- An arm that seeks again from the start, with all its heads (R186). -/
structure Resought (a : Nat) (s t : State) : Prop where
  arm : (getArm t a).state = 3
  full : ((getArm t a).seek.any fun k => !k.micro) = true
  errors : (getArm t a).seekErrors = (getArm s a).seekErrors
  heads : ∀ n ∈ loadedHeads s a, (getHead s n).state ≠ 6 → (getHead t n).state = 2
  stroke : ∀ n, (getHead t n).strokeRun = (getHead s n).strokeRun
  dev : t.dev = s.dev
theorem reseek_resought (a : Nat) (s : State) : Resought a s (reseek a s) := by
  unfold reseek moveArm
  extract_lets ts xStar micro u x w
  have hmicro : micro = false := by
    unfold micro
    rw [getArm_modArm]
    rfl
  rw [if_neg (by rw [hmicro]; decide)]
  have hw : w = each ts (seekHead xStar) (modArm s a fun r => { r with state := 4 }) := rfl
  have honly : Only { alks := true, heads := true, tx := true } (modArm s a fun r => { r with state := 4 }) w := by
    rw [hw]
    exact .each (fun _ _ => seekHead_only ..) .refl
  have hhead (n : Nat) : getHead (modArm s a fun r => { r with state := 4 }) n = getHead s n := getHead_of_only n (modArm_only ..)
  refine ⟨?_, ?_, ?_, fun n hn h6 => ?_, fun n => ?_, ?_⟩
  · rw [getArm_modArm]
  · rw [getArm_modArm]
    rfl
  · rw [getArm_modArm, getArm_of_arms a honly.arms, getArm_modArm]
  · rw [getHead_of_only n (modArm_only ..), hw]
    refine each_seekHead_state (by rwa [hhead]) (.inl ?_)
    rw [List.map_map]
    exact List.mem_map.2 ⟨n, hn, rfl⟩
  · rw [getHead_of_only n (modArm_only ..), hw, each_proj (fun t => (getHead t n).strokeRun) _ _ _ fun t s => seekHead_strokeRun xStar t s n, hhead]
  · rw [(modArm_only ..).dev, honly.dev, (modArm_only ..).dev]

end Sys2Proof.Machine
end

section
/-! The conditions of a servo (O14). -/

namespace Sys2Proof.Machine
set_option Elab.async false

-- The conditions of Table 6.8 (O14), command by command.


theorem Unloading.of_img {a : Nat} {s s' t : State} (h : Unloading a s' t) (himg : s'.img = s.img) : Unloading a s t := by
  unfold Unloading at h ⊢
  rwa [himg] at h
theorem HeadDeclared.of_same {n : Nat} {s s' t : State} (h : HeadDeclared n s' t) (hfailed : (getHead s' n).failed = (getHead s n).failed) (himg : s'.img = s.img)
    (hlayout : s'.layout = s.layout) (hptn : s'.ptn = s.ptn) (hdev : inService s.dev = true → inService s'.dev = true) (hstep : s'.flt.stopStep = s.flt.stopStep) :
    HeadDeclared n s t := by
  intro hsound
  obtain ⟨hf, hl, hstop⟩ := h (hfailed.trans hsound)
  rw [himg, hlayout, hstep] at hstop
  exact ⟨hf, hl, fun hmax hd hs => (hstop hmax (hdev hd) hs).of_ptn hptn⟩
theorem armCoastTimeout_completes {s : State} (hawake : awake s = true) (arm : Fin 8) : Completes (.armCoastTimeout arm) s fun t =>
    ((getArm s arm).coast = false → t = s) ∧
    ((getArm s arm).coast = true → armLoaded s arm = true → Unloading arm s t ∧ (getArm t arm).again = true) := by
  refine ⟨_, if_pos hawake, ?_⟩
  split
  next h =>
    refine ⟨fun hc => absurd h (by rw [hc]; decide), fun _ hloaded => ?_⟩
    have hloaded' : armLoaded (modArm (modArm s arm fun r => { r with attempts := 0, tracked := false }) arm fun r => { r with again := true }) arm = true := by
      unfold armLoaded at hloaded ⊢
      rw [getArm_modArm, getArm_modArm]
      exact hloaded
    refine ⟨(unloadArm_unloading hloaded').of_img ((modArm_only ..).img.trans (modArm_only ..).img), ?_⟩
    unfold unloadAgain
    rw [getArm_unloadArm, if_pos ⟨hloaded', rfl⟩, getArm_modArm]
    rfl
  next h => exact ⟨fun _ => rfl, fun hc => absurd hc h⟩
/-- The wrong surfaces of a head are counted, and the condition of Table 6.8 is shown. -/
def surfaceNoted (n : Nat) (s : State) : State := servoCondition 0x37 false [] (modHead s n fun h => { h with wrongSurf := 0 })
theorem surfaceNoted_kept (n : Nat) (s : State) : Only (.but { arms := true, ptn := true, img := true, layout := true }) s (surfaceNoted n s) := (servoCondition_only ..).after (modHead_only ..).mono
theorem surfaceNoted_failed (n : Nat) (s : State) : (getHead (surfaceNoted n s) n).failed = (getHead s n).failed := by
  have hcore : headCore (surfaceNoted n s) n = headCore s n := (headCore_servoCondition ..).trans (headCore_modHead ..)
  exact congrArg Prod.fst hcore
def surfaceAnswered (a n : Nat) (s : State) : State :=
  if (getArm (surfaceNoted n s) a).tracked then declareFailed n (surfaceNoted n s) else failStop 0x37 (unloadArm a (surfaceNoted n s))
theorem surfaceMismatch_completes {s : State} (hawake : awake s = true) (arm head : Fin 8) :
    let n := 8 * arm.val + head.val
    let h := getHead s n
    Completes (.surfaceMismatch arm head) s (fun t =>
      (h.wrongSurf < 4 ∨ armLoaded s arm = false → t = s) ∧
      (4 ≤ h.wrongSurf → armLoaded s arm = true → (getArm s arm).tracked = true → HeadDeclared n s t) ∧
      (4 ≤ h.wrongSurf → armLoaded s arm = true → (getArm s arm).tracked = false → (getArm t arm).state = 6 ∧
        (inService s.dev = true → s.flt.stopStep = 0 → StopBegun 0x37 s t))) := by
  intro n h
  refine ⟨if 4 ≤ h.wrongSurf && armLoaded s arm then surfaceAnswered arm n s else s, if_pos hawake, ?_⟩
  dsimp only
  split
  next hc =>
    rw [Bool.and_eq_true, decide_eq_true_eq] at hc
    obtain ⟨hwrong, hloaded⟩ := hc
    have hnoted := surfaceNoted_kept n s
    have harm : getArm (surfaceNoted n s) arm = getArm s arm := getArm_of_arms _ hnoted.arms
    refine ⟨fun hno => ?_, fun _ _ htracked => ?_, fun _ _ htracked => ?_⟩
    · rcases hno with hno | hno
      · exact absurd hno (not_lt.2 hwrong)
      · rw [hloaded] at hno
        exact absurd hno (by decide)
    · have htracked' : (getArm (surfaceNoted n s) arm).tracked = true := by rw [harm, htracked]
      rw [surfaceAnswered, if_pos htracked']
      exact (declareFailed_declared n (surfaceNoted n s)).of_same (surfaceNoted_failed n s) hnoted.img hnoted.layout hnoted.ptn
        (fun hdev => servoCondition_inService hdev) (servoCondition_stopStep ..)
    · have htracked' : ¬ (getArm (surfaceNoted n s) arm).tracked = true := by rw [harm, htracked]; decide
      have hloaded' : armLoaded (surfaceNoted n s) arm = true := by
        unfold armLoaded at hloaded ⊢
        rwa [harm]
      rw [surfaceAnswered, if_neg htracked']
      obtain ⟨hstate, -, -, -⟩ := unloadArm_unloading hloaded'
      have hunload := unloadArm_only arm.val (surfaceNoted n s)
      refine ⟨(stopStable_unloading arm).failStop 0x37 _ hstate, fun hdev hstep => ?_⟩
      exact (failStop_begun (by rw [hunload.dev]; exact servoCondition_inService hdev) (by rw [hunload.flt]; exact (servoCondition_stopStep ..).trans hstep)).of_ptn (hunload.ptn.trans hnoted.ptn)
  next hc =>
    have hno : ∀ P : Prop, 4 ≤ h.wrongSurf → armLoaded s arm = true → P := fun P hw hl => absurd (by simpa [hl] using hw) hc
    exact ⟨fun _ => rfl, fun hw hl => hno _ hw hl, fun hw hl => hno _ hw hl⟩
theorem wedgeLossRun_completes {s : State} (hawake : awake s = true) (arm head : Fin 8) :
    let n := 8 * arm.val + head.val
    let h := getHead s n
    Completes (.wedgeLossRun arm head) s (fun t =>
      let due : Prop := (4 ≤ h.lostRun ∨ 3 ≤ h.badIdRun) ∧ 2 ≤ h.state ∧ h.state ≤ 5
      (¬ due → t = s) ∧
      (due → (getHead t n).state = 6 ∧ (getHead t n).mu = h.preset ∧ (getHead t n).onRead = false ∧ (getHead t n).onWrite = false ∧ t.dev = s.dev)) := by
  intro n h
  refine ⟨_, if_pos hawake, ?_⟩
  dsimp only
  split
  next hc =>
    refine ⟨fun hno => absurd ?_ hno, fun _ => ?_⟩
    · simpa [and_assoc] using hc
    · rw [getHead_uaPreset, if_pos rfl, getHead_modHead]
      exact ⟨rfl, rfl, rfl, rfl, (uaPreset_only ..).dev.trans ((modHead_only ..).dev.trans servoCondition_dev)⟩
  next hc => exact ⟨fun _ => rfl, fun hdue => absurd (by simpa [and_assoc] using hdue) hc⟩
theorem reacquireTimeout_completes {s : State} (hawake : awake s = true) (arm head : Fin 8) :
    let n := 8 * arm.val + head.val
    let h := getHead s n
    Completes (.reacquireTimeout arm head) s (fun t => (h.state ≠ 6 → t = s) ∧ (h.state = 6 → HeadDeclared n s t)) := by
  intro n h
  refine ⟨_, if_pos hawake, ?_⟩
  dsimp only
  split
  next hc => exact ⟨fun hno => absurd hc hno, fun _ => declareFailed_declared n s⟩
  next hc => exact ⟨fun _ => rfl, fun hdue => absurd hdue hc⟩
/-- The run at the stroke limit begins again, and the condition is shown. -/
def strokeNoted (n : Nat) (s : State) : State := servoCondition 0x36 false [] (modHead s n fun h => { h with strokeRun := 0 })
theorem strokeNoted_kept (n : Nat) (s : State) : Only (.but { img := true, arms := true }) s (strokeNoted n s) := (servoCondition_only ..).after (modHead_only ..).mono
theorem headCore_strokeNoted (n k : Nat) (s : State) : headCore (strokeNoted n s) k = headCore s k := (headCore_servoCondition ..).trans (headCore_modHead ..)
theorem strokeRun_of_rested {s t : State} (h : Rested s t) (n : Nat) : (getHead t n).strokeRun = (getHead s n).strokeRun ∧ (getHead t n).disagreeRun = (getHead s n).disagreeRun := by
  have hrun (d : Head) : d.strokeRun = (headState d).strokeRun ∧ d.disagreeRun = (headState d).disagreeRun := ⟨rfl, rfl⟩
  rw [(hrun _).1, (hrun _).2, h.head n]
  exact ⟨rfl, rfl⟩
theorem state_of_core {s t : State} {n : Nat} (h : headCore t n = headCore s n) : (getHead t n).state = (getHead s n).state := congrArg Prod.snd h
theorem strokeNoted_strokeRun (n : Nat) (s : State) : (getHead (strokeNoted n s) n).strokeRun = 0 := by
  unfold strokeNoted
  rw [(strokeRun_of_rested (servoCondition_rested ..) n).1, getHead_modHead]
theorem strokeLimitRun_completes {s : State} (hawake : awake s = true) (arm head : Fin 8) :
    let n := 8 * arm.val + head.val
    let h := getHead s n
    Completes (.strokeLimitRun arm head) s (fun t =>
      let due : Prop := 8 ≤ h.strokeRun ∧ 4 ≤ (getArm s arm).state ∧ (getArm s arm).state ≤ 5
      (¬ due → t = s) ∧
      (due → (getHead t n).strokeRun = 0 ∧ (getArm t arm).state = 3 ∧ ((getArm t arm).seek.any fun k => !k.micro) = true ∧
        ∀ k ∈ loadedHeads s arm, (getHead s k).state ≠ 6 → (getHead t k).state = 2)) := by
  intro n h
  refine ⟨_, if_pos hawake, ?_⟩
  dsimp only
  split
  next hc =>
    refine ⟨fun hno => absurd ?_ hno, fun _ => ?_⟩
    · simpa [and_assoc] using hc
    · have hkept := strokeNoted_kept n s
      obtain ⟨harm, hfull, -, hheads, hstroke, -⟩ := reseek_resought arm (strokeNoted n s)
      refine ⟨(hstroke n).trans (strokeNoted_strokeRun n s), harm, hfull, fun k hk h6 => hheads k ?_ ?_⟩
      · rwa [loadedHeads_of_core arm hkept.img fun k => headCore_strokeNoted n k s]
      · rwa [state_of_core (headCore_strokeNoted n k s)]
  next hc => exact ⟨fun _ => rfl, fun hdue => absurd (by simpa [and_assoc] using hdue) hc⟩
theorem disagreeNoted_left (n : Nat) (s : State) :
    (getHead (mqNote 8 (servoCondition 0x38 false [] (modHead s n fun h => { h with disagreeRun := 0 }))) n).disagreeRun = 0 ∧
    (getHead (mqNote 8 (servoCondition 0x38 false [] (modHead s n fun h => { h with disagreeRun := 0 }))) n).state = (getHead s n).state ∧
    (mqNote 8 (servoCondition 0x38 false [] (modHead s n fun h => { h with disagreeRun := 0 }))).dev = s.dev := by
  have hcore : headCore (servoCondition 0x38 false [] (modHead s n fun h => { h with disagreeRun := 0 })) n = headCore s n := (headCore_servoCondition ..).trans (headCore_modHead ..)
  rw [getHead_of_only n (mqNote_only ..), (mqNote_only ..).dev, servoCondition_dev, (modHead_only ..).dev, (strokeRun_of_rested (servoCondition_rested ..) n).2, getHead_modHead]
  exact ⟨rfl, congrArg Prod.snd hcore, rfl⟩
theorem readerDisagreeRun_completes {s : State} (hawake : awake s = true) (arm head : Fin 8) :
    let n := 8 * arm.val + head.val
    let h := getHead s n
    Completes (.readerDisagreeRun arm head) s (fun t =>
      (h.disagreeRun < 64 → t = s) ∧ (64 ≤ h.disagreeRun → (getHead t n).disagreeRun = 0 ∧ (getHead t n).state = h.state ∧ t.dev = s.dev)) := by
  intro n h
  refine ⟨_, if_pos hawake, ?_⟩
  dsimp only
  split
  next hc =>
    exact ⟨fun hno => absurd hc (not_le.2 hno), fun _ => disagreeNoted_left n s⟩
  next hc => exact ⟨fun _ => rfl, fun hdue => absurd hdue hc⟩
/-- What a settle that runs out leads to: once more time, then a seek error and the seek again (R187). -/
def seekErred (a : Nat) (s : State) : State :=
  servoCondition 0x35 (decide (3 ≤ (now s :: recent s oneSec (getArm s a).seekErrors).length)) []
    (modArm s a fun r => { r with seekErrors := if 3 ≤ (now s :: recent s oneSec (getArm s a).seekErrors).length then [] else now s :: recent s oneSec (getArm s a).seekErrors })
def settleAnswered (a : Nat) (k : Seek) (s : State) : State :=
  if !k.repeated then servoCondition 0x34 false [] (modArm s a fun r => { r with seek := some { k with settle := 0, repeated := true } })
  else reseek a (seekErred a s)
def settleRun (a n : Nat) (s : State) : State :=
  match (getArm s a).seek with
  | none => s
  | some k => if (getHead s n).onRead || k.settle < settleMax s.img || !(armLoaded s a) then s else settleAnswered a k s
theorem exec_settleTimeout {s : State} (hawake : awake s = true) (arm head : Fin 8) : exec (.settleTimeout arm head) s = .next (settleRun arm (8 * arm.val + head.val) s) := by
  refine (if_pos hawake).trans ?_
  unfold settleRun
  dsimp only
  cases (getArm s arm).seek with
  | none => rfl
  | some k => rfl
theorem settleAnswered_again {a : Nat} {k : Seek} {s : State} (h : k.repeated = false) :
    (getArm (settleAnswered a k s) a).seek = some { k with settle := 0, repeated := true } ∧ (settleAnswered a k s).dev = s.dev := by
  rw [settleAnswered, if_pos (by rw [h]; decide), servoCondition_dev, getArm_of_arms a (servoCondition_only ..).arms, getArm_modArm, (modArm_only ..).dev]
  exact ⟨rfl, rfl⟩
theorem getArm_seekErred (a : Nat) (s : State) : (getArm (seekErred a s) a).seekErrors =
    if 3 ≤ (now s :: recent s oneSec (getArm s a).seekErrors).length then [] else now s :: recent s oneSec (getArm s a).seekErrors := by
  unfold seekErred
  rw [getArm_of_arms a (servoCondition_only ..).arms, getArm_modArm]
theorem servoCondition_holds {code : BitVec 8} {fs : List PayField} {s : State} (h : holdsFrom s.dev = true) : (servoCondition code true fs s).dev = .faultHold := (condition_holds h).1
theorem settleAnswered_error {a : Nat} {k : Seek} {s : State} (h : k.repeated = true) :
    (getArm (settleAnswered a k s) a).state = 3 ∧
      (2 ≤ (recent s oneSec (getArm s a).seekErrors).length → holdsFrom s.dev = true → (settleAnswered a k s).dev = .faultHold) ∧
      ((recent s oneSec (getArm s a).seekErrors).length < 2 → (settleAnswered a k s).dev = s.dev ∧ now s ∈ (getArm (settleAnswered a k s) a).seekErrors) := by
  rw [settleAnswered, if_neg (by rw [h]; decide)]
  obtain ⟨harm, -, herrors, -, -, hdev⟩ := reseek_resought a (seekErred a s)
  refine ⟨harm, fun hmany hholds => hdev.trans ?_, fun hfew => ⟨hdev.trans ?_, ?_⟩⟩
  · unfold seekErred
    rw [decide_eq_true (by rw [List.length_cons]; omega)]
    exact servoCondition_holds (by rwa [(modArm_only ..).dev])
  · unfold seekErred
    rw [decide_eq_false (by rw [List.length_cons]; omega), servoCondition_dev, (modArm_only ..).dev]
  · rw [herrors, getArm_seekErred, if_neg (by rw [List.length_cons]; omega)]
    exact List.mem_cons_self
theorem settleTimeout_completes {s : State} (hawake : awake s = true) (arm head : Fin 8) :
    let n := 8 * arm.val + head.val
    let h := getHead s n
    Completes (.settleTimeout arm head) s fun t =>
      ((getArm s arm).seek = none → t = s) ∧
      ∀ k, (getArm s arm).seek = some k →
        (h.onRead = true ∨ k.settle < settleMax s.img ∨ armLoaded s arm = false → t = s) ∧
        (h.onRead = false → settleMax s.img ≤ k.settle → armLoaded s arm = true →
          (k.repeated = false → (getArm t arm).seek = some { k with settle := 0, repeated := true } ∧ t.dev = s.dev) ∧
          (k.repeated = true → (getArm t arm).state = 3 ∧
            (2 ≤ (recent s oneSec (getArm s arm).seekErrors).length → holdsFrom s.dev = true → t.dev = .faultHold) ∧
            ((recent s oneSec (getArm s arm).seekErrors).length < 2 → t.dev = s.dev ∧ now s ∈ (getArm t arm).seekErrors))) := by
  intro n h
  refine ⟨_, exec_settleTimeout hawake arm head, ?_⟩
  unfold settleRun
  cases hseek : (getArm s arm).seek with
  | none => exact ⟨fun _ => rfl, fun k hk => absurd hk (by simp)⟩
  | some k =>
    refine ⟨fun hk => absurd hk (by simp), fun k' hk' => ?_⟩
    obtain rfl : k = k' := by simpa using hk'
    dsimp only
    split
    next hc =>
      simp only [Bool.or_eq_true, Bool.not_eq_true', decide_eq_true_eq, or_assoc] at hc
      refine ⟨fun _ => rfl, fun hread hset hloaded => absurd hc ?_⟩
      rintro (h1 | h2 | h3)
      · rw [show (getHead s n).onRead = false from hread] at h1
        exact absurd h1 (by decide)
      · omega
      · rw [hloaded] at h3
        exact absurd h3 (by decide)
    next hc =>
      simp only [Bool.or_eq_true, Bool.not_eq_true', decide_eq_true_eq, or_assoc] at hc
      exact ⟨fun hno => absurd hno hc, fun _ _ _ => ⟨fun hr => settleAnswered_again hr, fun hr => settleAnswered_error hr⟩⟩
/-- Settles O14: each condition of Table 6.8 by the answer that its command gives. -/
theorem servoConditionsAreAnswered : Obligations.ServoConditionsAreAnswered := by
  unfold Obligations.ServoConditionsAreAnswered
  intro s hawake
  exact ⟨armCoastTimeout_completes hawake, fun arm head => ⟨surfaceMismatch_completes hawake arm head, wedgeLossRun_completes hawake arm head,
    reacquireTimeout_completes hawake arm head, strokeLimitRun_completes hawake arm head, readerDisagreeRun_completes hawake arm head,
    settleTimeout_completes hawake arm head⟩⟩

end Sys2Proof.Machine
end

section
/-! A fault of a VCM port (R205, R206). -/

namespace Sys2Proof.Machine
set_option Elab.async false

-- The VCM drive ports: what their frames give, and what a fault retracts (R205, R206).

/-- What the last frame of a port has given. -/
def portView (s : State) (a : Nat) : Int × Int × BitVec 6 × Nat := ((getArm s a).iSense, (getArm s a).vEmf, (getArm s a).flags, (getArm s a).frameErr)
theorem portView_of_only {m : Units} {s t : State} (h : Only m s t) (a : Nat) (hm : m.arms = false := by rfl) : portView t a = portView s a := by
  unfold portView
  rw [getArm_of_arms a (h.arms hm)]
/-- The port's frame is kept by a write of the arm's other fields. -/
theorem portView_modArm (b : Nat) (f : Arm → Arm) (s : State) (a : Nat) (hi : ∀ r, (f r).iSense = r.iSense := by exact fun _ => rfl) (hv : ∀ r, (f r).vEmf = r.vEmf := by exact fun _ => rfl)
    (hf : ∀ r, (f r).flags = r.flags := by exact fun _ => rfl) (he : ∀ r, (f r).frameErr = r.frameErr := by exact fun _ => rfl) : portView (modArm s b f) a = portView s a := by
  unfold portView
  by_cases h : a = b
  · subst h
    rw [getArm_modArm, hi, hv, hf, he]
  · rw [getArm_modArm_other _ _ h]
theorem portView_vcmFrame (b : Nat) (s : State) (a : Nat) : portView (vcmFrame b s) a = portView s a := by
  unfold vcmFrame
  dsimp only
  rw [portView_of_only (send_only ..)]
  exact portView_modArm ..
theorem portView_unloadArm (b : Nat) (s : State) (a : Nat) : portView (unloadArm b s) a = portView s a := by
  unfold portView
  rw [getArm_unloadArm]
  split
  · rfl
  · rfl
theorem stopStable_portView (a : Nat) : StopStable fun s t => portView t a = portView s a where
  refl _ := rfl
  trans h₁ h₂ := h₂.trans h₁
  plain h := portView_of_only h a
  noted h _ := portView_of_only h a
  completed cause s := portView_of_only (completeAll_only cause s) a
  channels s := portView_of_only (stopChannels_only s) a
  gone s := portView_of_only (dropGone_only s) a
  released s := portView_of_only (releaseArms_only s) a
  unload b s := portView_unloadArm b s a
  frame b s := portView_vcmFrame b s a
  visits s := portView_of_only (endVisits_only s) a
  dark b s := portView_of_only (armDark_only b s) a
theorem portView_runCtx (n : Nat) (input : Int) (o : LoopObs) (s : State) (a : Nat) : portView (runCtx n input o s) a = portView s a := by
  obtain ⟨u, hu, h | h⟩ := (runCtx_runsTo n input o s).ends
  · rw [h, portView_of_only hu]
  · rw [h]
    exact ((stopStable_portView a).failStop 0x3F u).trans (portView_of_only hu a)
theorem portView_vcmSend (b cmd : Nat) (demand : Int) (s : State) (a : Nat) : portView (vcmSend b cmd demand s) a = portView s a := by
  unfold vcmSend
  exact portView_modArm ..
theorem portView_velocityRun (b : Nat) (o : LoopObs) (s : State) (a : Nat) : portView (velocityRun b o s) a = portView s a := by
  unfold velocityRun
  split
  · dsimp only
    rw [portView_vcmSend, portView_runCtx]
  · rfl
theorem gateArm_writersRest (a : Nat) (s : State) : WritersRest s (gateArm a s) := by
  unfold gateArm
  exact .after (.each (fun _ _ => modHead_writersRest _ fun _ _ => rfl) _ _) (.of_only (sendWgate_only ..))
theorem headsOff_writersRest (a : Nat) (s : State) : WritersRest s (headsOff a s) := by
  unfold headsOff
  refine .each (fun _ _ => .after (modHead_writersRest _ ?_) (sendMode_writersRest ..)) _ _
  exact fun _ hd => hd
/-- The part that drives gates the writers, retracts the arm and turns its heads off (R206). -/
def armRetracted (a : Nat) (s : State) : State :=
  headsOff a (retractArm a (gateArm a (voidArm unwritten a (List.range 8) (each (armHeads s a) writeGate s))))
def faultedArm (t : Nat) (r : Arm) : Arm := { r with faulted := true, faultAt := if r.faulted then r.faultAt else t, badRun := 0, offRun := 0, loadDue := none, tracked := false }
theorem vcmFault_eq (a : Nat) (s : State) : vcmFault a s = servoCondition 0x3A true [] (openCause 0x3A a false (modArm (armRetracted a s) a (faultedArm (now (armRetracted a s))))) := by
  unfold vcmFault armRetracted
  rfl
theorem armRetracted_only (a : Nat) (s : State) : Only (.but { img := true, ptn := true, spn := true, layout := true }) s (armRetracted a s) := by
  unfold armRetracted
  exact (headsOff_only ..).after ((retractArm_only ..).after ((gateArm_only ..).after ((voidArm_only ..).after (.each (fun n s => (writeGate_only n s).mono) .refl))))
theorem armRetracted_dev (a : Nat) (s : State) : (armRetracted a s).dev = s.dev := by
  unfold armRetracted
  rw [(headsOff_only ..).dev, (retractArm_only ..).dev, (gateArm_only ..).dev, (voidArm_only ..).dev]
  exact each_proj State.dev _ _ _ writeGate_dev
theorem armRetracted_writing {a n : Nat} {s : State} (h : n ∈ armHeads s a) : (getHead (armRetracted a s) n).writing = false := by
  have hgated := each_writeGate_writing h s
  refine (WritersRest.after (headsOff_writersRest ..) (.after (.of_only (retractArm_only ..)) ((gateArm_writersRest ..).after (.of_only (voidArm_only ..))))).rest n hgated
theorem getArm_retractArm (a : Nat) (s : State) : getArm (retractArm a s) a = { getArm s a with due := [2], state := 7, seek := none, coast := false } := by
  have hloops : Only { gov := true } (vcmSend a 2 0 s) (disableArm a (vcmSend a 2 0 s)) := .each (fun _ _ => disableCtx_only ..) .refl
  unfold retractArm
  rw [getArm_modArm, getArm_of_arms a hloops.arms]
  unfold vcmSend
  rw [getArm_modArm]
  rfl
theorem getArm_armRetracted (a : Nat) (s : State) : getArm (armRetracted a s) a = { getArm s a with due := [2], state := 7, seek := none, coast := false } := by
  have hgated : Only (.but { arms := true }) s (gateArm a (voidArm unwritten a (List.range 8) (each (armHeads s a) writeGate s))) :=
    (gateArm_only ..).after ((voidArm_only ..).after (.each (fun n s => (writeGate_only n s).mono) .refl))
  unfold armRetracted
  rw [getArm_of_arms a (headsOff_only ..).arms, getArm_retractArm, getArm_of_arms a hgated.arms]
theorem getArm_vcmFault (a : Nat) (s : State) : getArm (vcmFault a s) a = faultedArm (now (armRetracted a s)) { getArm s a with due := [2], state := 7, seek := none, coast := false } := by
  rw [vcmFault_eq, getArm_of_arms a (servoCondition_only ..).arms, getArm_of_arms a (openCause_only ..).arms, getArm_modArm, getArm_armRetracted]
theorem portView_vcmFault (a : Nat) (s : State) : portView (vcmFault a s) a = portView s a := by
  have hkept (r : Arm) (t : Nat) : ((faultedArm t { r with due := [2], state := 7, seek := none, coast := false }).iSense, (faultedArm t { r with due := [2], state := 7, seek := none, coast := false }).vEmf,
    (faultedArm t { r with due := [2], state := 7, seek := none, coast := false }).flags, (faultedArm t { r with due := [2], state := 7, seek := none, coast := false }).frameErr) =
      (r.iSense, r.vEmf, r.flags, r.frameErr) := rfl
  unfold portView
  rw [getArm_vcmFault, hkept]
theorem vcmFault_writing {a n : Nat} {s : State} (h : n ∈ armHeads s a) : (getHead (vcmFault a s) n).writing = false := by
  rw [vcmFault_eq]
  exact (WritersRest.after (condition_writersRest ..) (.after (.of_only (openCause_only ..)) (.of_only (modArm_only ..)))).rest n (armRetracted_writing h)
theorem vcmFault_dev {a : Nat} {s : State} (h : holdsFrom s.dev = true) : (vcmFault a s).dev = .faultHold := by
  rw [vcmFault_eq]
  exact servoCondition_holds (by rwa [(openCause_only ..).dev, (modArm_only ..).dev, armRetracted_dev])
/-- A fault of the port or its driver, as R206 has it answered. -/
def PortFaulted (a : Nat) (s t : State) : Prop :=
  (getArm t a).faulted = true ∧ (getArm t a).state = 7 ∧ (getArm t a).due = [2] ∧ (∀ n ∈ armHeads s a, (getHead t n).writing = false) ∧ (holdsFrom s.dev = true → t.dev = .faultHold)
theorem vcmFault_faulted {a : Nat} {s s' : State} (hheads : armHeads s' a = armHeads s a) (hdev : s'.dev = s.dev) : PortFaulted a s (vcmFault a s') := by
  have harm := getArm_vcmFault a s'
  refine ⟨?_, ?_, ?_, fun n hn => vcmFault_writing (by rwa [hheads]), fun h => vcmFault_dev (by rwa [hdev])⟩
  · rw [harm]
    rfl
  · rw [harm]
    rfl
  · rw [harm]
    rfl
theorem armHeads_of_core {s t : State} (a : Nat) (himg : t.img = s.img) (h : ∀ n, headCore t n = headCore s n) : armHeads t a = armHeads s a := by
  have hfailed (n : Nat) : (getHead t n).failed = (getHead s n).failed := congrArg Prod.fst (h n)
  unfold armHeads
  simp only [himg, hfailed]

end Sys2Proof.Machine
end

section
/-! The VCM drive ports (O16). -/

namespace Sys2Proof.Machine
set_option Elab.async false

-- The VCM drive ports (O16), command by command.

/-- A frame that is discarded is counted (R205). -/
def frameCounted (a : Nat) (s : State) : State := servoCondition 0x39 false [] (modArm s a fun r => { r with frameErr := satInc 16 r.frameErr, badRun := min 3 (r.badRun + 1) })
def frameRead (a w : Nat) (s : State) : State :=
  modArm s a fun r => { r with
    iSense := signedOf 16 (bitsOf 55 40 w), vEmf := signedOf 12 (bitsOf 39 28 w), flags := BitVec.ofNat 6 (bitsOf 27 22 w), badRun := 0,
    offRun := if currentOff (getArm s a) (signedOf 16 (bitsOf 55 40 w)) then min 16 (r.offRun + 1) else 0, velFrames := (r.velFrames + 1) % 4,
    state := if r.state = 7 && (BitVec.ofNat 6 (bitsOf 27 22 w)).getLsbD 2 then 0 else r.state }
def frameAnswered (out : Bool) (a w : Nat) (s : State) : State :=
  if (16 ≤ (getArm s a).offRun && s.ptn.activeOut) || (out && ((BitVec.ofNat 6 (bitsOf 27 22 w)).getLsbD 0 || (BitVec.ofNat 6 (bitsOf 27 22 w)).getLsbD 4 || (BitVec.ofNat 6 (bitsOf 27 22 w)).getLsbD 5))
  then vcmFault a s else if (getArm s a).velFrames = 0 then velocityRun a {} s else s
def diRun (a w : Nat) (s : State) : State :=
  if s.img.arms ≤ a then s
  else if diBad s a w then if 3 ≤ (getArm (frameCounted a s) a).badRun && (frameCounted a s).ptn.activeOut then vcmFault a (frameCounted a s) else frameCounted a s
  else frameAnswered (armLoaded s a || (getArm s a).state = 6) a w (frameRead a w s)
theorem exec_vcmDiFrame {s : State} (hawake : awake s = true) (arm : Fin 8) (f : DiFrame) : exec (.vcmDiFrame arm f) s = .next (diRun arm f.bits.toNat s) := by
  refine (if_pos hawake).trans ?_
  rfl
theorem armHeads_frameCounted (a b : Nat) (s : State) : armHeads (frameCounted a s) b = armHeads s b :=
  armHeads_of_core b ((servoCondition_only ..).img.trans (modArm_only ..).img) fun n => (headCore_servoCondition ..).trans (headCore_of_only (modArm_only ..) n)
theorem frameCounted_dev (a : Nat) (s : State) : (frameCounted a s).dev = s.dev := servoCondition_dev.trans (modArm_only ..).dev
theorem frameCounted_ptn (a : Nat) (s : State) : (frameCounted a s).ptn = s.ptn := (servoCondition_only ..).ptn.trans (modArm_only ..).ptn
theorem getArm_frameCounted (a : Nat) (s : State) : getArm (frameCounted a s) a = { getArm s a with frameErr := satInc 16 (getArm s a).frameErr, badRun := min 3 ((getArm s a).badRun + 1) } := by
  unfold frameCounted
  rw [getArm_of_arms a (servoCondition_only ..).arms, getArm_modArm]
theorem frameErr_of_view {s t : State} {a : Nat} (h : portView t a = portView s a) : (getArm t a).frameErr = (getArm s a).frameErr ∧ (getArm t a).iSense = (getArm s a).iSense := by
  unfold portView at h
  rw [Prod.mk.injEq, Prod.mk.injEq, Prod.mk.injEq] at h
  exact ⟨h.2.2.2, h.1⟩
theorem portView_frameAnswered (out : Bool) (a w : Nat) (s : State) : portView (frameAnswered out a w s) a = portView s a := by
  unfold frameAnswered
  split
  · exact portView_vcmFault a s
  split
  · exact portView_velocityRun ..
  · rfl
theorem portView_frameRead (a w : Nat) (s : State) :
    portView (frameRead a w s) a = (signedOf 16 (bitsOf 55 40 w), signedOf 12 (bitsOf 39 28 w), BitVec.ofNat 6 (bitsOf 27 22 w), (getArm s a).frameErr) := by
  unfold portView frameRead
  rw [getArm_modArm]
theorem armHeads_frameRead (a w b : Nat) (s : State) : armHeads (frameRead a w s) b = armHeads s b :=
  armHeads_of_core b (modArm_only ..).img fun n => headCore_of_only (modArm_only ..) n
theorem vcmDiFrame_completes {s : State} (hawake : awake s = true) (arm : Fin 8) :
    let r := getArm s arm
    let out : Prop := 1 ≤ r.state ∧ r.state ≤ 6
    ∀ f : DiFrame, Completes (.vcmDiFrame arm f) s fun t =>
    let w := f.bits.toNat
    let flags := BitVec.ofNat 6 (bitsOf 27 22 w)
    (s.img.arms ≤ arm.val → t = s) ∧
    (arm.val < s.img.arms → diBad s arm w = true →
      (getArm t arm).frameErr = satInc 16 r.frameErr ∧ (getArm t arm).iSense = r.iSense ∧ (2 ≤ r.badRun → s.ptn.activeOut = true → PortFaulted arm s t)) ∧
    (arm.val < s.img.arms → diBad s arm w = false → (getArm t arm).iSense = signedOf 16 (bitsOf 55 40 w) ∧ (getArm t arm).vEmf = signedOf 12 (bitsOf 39 28 w) ∧
      (getArm t arm).flags = flags ∧ (getArm t arm).frameErr = r.frameErr ∧
      (out → flags.getLsbD 0 = true ∨ flags.getLsbD 4 = true ∨ flags.getLsbD 5 = true → PortFaulted arm s t)) := by
  intro r out f
  refine ⟨_, exec_vcmDiFrame hawake arm f, ?_⟩
  beta_reduce
  intro w flags
  refine ⟨fun h => if_pos h, fun hfit hbad => ?_, fun hfit hgood => ?_⟩
  · have hview : portView (diRun arm w s) arm = portView (frameCounted arm s) arm := by
      rw [diRun, if_neg (not_le.2 hfit), if_pos hbad]
      split
      · exact portView_vcmFault ..
      · rfl
    obtain ⟨herr, hi⟩ := frameErr_of_view hview
    rw [getArm_frameCounted] at herr hi
    refine ⟨herr, hi, fun hrun hact => ?_⟩
    have hthird : (decide (3 ≤ (getArm (frameCounted arm s) arm).badRun) && (frameCounted arm s).ptn.activeOut) = true := by
      rw [getArm_frameCounted, frameCounted_ptn, hact, Bool.and_true, decide_eq_true_eq]
      exact le_min le_rfl (Nat.succ_le_succ hrun)
    rw [diRun, if_neg (not_le.2 hfit), if_pos hbad, if_pos hthird]
    exact vcmFault_faulted (armHeads_frameCounted ..) (frameCounted_dev ..)
  · have heq : diRun arm w s = frameAnswered (armLoaded s arm || (getArm s arm).state = 6) arm w (frameRead arm w s) := by
      rw [diRun, if_neg (not_le.2 hfit), if_neg (by rw [hgood]; decide)]
    have hview := (portView_frameAnswered (armLoaded s arm || (getArm s arm).state = 6) arm w (frameRead arm w s)).trans (portView_frameRead arm w s)
    rw [← heq, portView, Prod.mk.injEq, Prod.mk.injEq, Prod.mk.injEq] at hview
    obtain ⟨h1, h2, h3, h4⟩ := hview
    refine ⟨h1, h2, h3, h4, fun hout hflags => ?_⟩
    have hfault : frameAnswered (armLoaded s arm || (getArm s arm).state = 6) arm w (frameRead arm w s) = vcmFault arm (frameRead arm w s) := by
      refine if_pos ?_
      have hoff : (armLoaded s arm || decide ((getArm s arm).state = 6)) = true := by
        unfold armLoaded
        simp only [Bool.or_eq_true, Bool.and_eq_true, decide_eq_true_eq]
        have hl : 1 ≤ (getArm s arm).state := hout.1
        have hu : (getArm s arm).state ≤ 6 := hout.2
        omega
      rw [hoff]
      rcases hflags with h | h | h
      · simp [show (BitVec.ofNat 6 (bitsOf 27 22 w)).getLsbD 0 = true from h]
      · simp [show (BitVec.ofNat 6 (bitsOf 27 22 w)).getLsbD 4 = true from h]
      · simp [show (BitVec.ofNat 6 (bitsOf 27 22 w)).getLsbD 5 = true from h]
    rw [heq, hfault]
    exact vcmFault_faulted (armHeads_frameRead ..) (modArm_only ..).dev
theorem retractedWaitTimeout_completes {s : State} (hawake : awake s = true) (arm : Fin 8) :
    let r := getArm s arm
    Completes (.retractedWaitTimeout arm) s (fun t =>
    (r.loadDue = none ∨ r.flags.getLsbD 2 = true → t = s) ∧ (r.loadDue ≠ none → r.flags.getLsbD 2 = false → PortFaulted arm s t ∧ (getArm t arm).loadDue = none)) := by
  intro r
  refine ⟨_, if_pos hawake, ?_⟩
  split
  next h =>
    rw [Bool.and_eq_true, Option.isSome_iff_ne_none, Bool.not_eq_true'] at h
    obtain ⟨hdue, hout⟩ := h
    refine ⟨fun hno => ?_, fun _ _ => ⟨vcmFault_faulted rfl rfl, ?_⟩⟩
    · rcases hno with hno | hno
      · exact absurd hno hdue
      · exact absurd (hout.symm.trans hno) (by decide)
    · rw [getArm_vcmFault]
      rfl
  next h =>
    refine ⟨fun _ => rfl, fun hdue hout => absurd ?_ h⟩
    rw [Bool.and_eq_true, Option.isSome_iff_ne_none, Bool.not_eq_true']
    exact ⟨hdue, hout⟩
/-- The reload is counted and falls due (R206). -/
def reloadDue (a : Nat) (s : State) : State := modArm s a fun r => { r with reloads := r.reloads + 1, loadDue := some (now s) }
theorem reloadDue_dev (a : Nat) (s : State) : (reloadDue a s).dev = s.dev := (modArm_only ..).dev
theorem vcmReload_completes {s : State} (hawake : awake s = true) (arm : Fin 8) :
    let r := getArm s arm
    Completes (.vcmReload arm) s (fun t =>
    let due : Prop := r.faulted = true ∧ (r.state = 0 ∨ r.state = 7) ∧ r.flags.getLsbD 2 = true ∧ r.loadDue = none
    (¬ due → t = s) ∧
    (due → r.reloads < 3 → s.dev ≠ .faultHold ∨ speedHeld s = true →
      (getArm t arm).reloads = r.reloads + 1 ∧ (getArm t arm).loadDue = some (now s) ∧ t.dev = s.dev) ∧
    (due → r.reloads < 3 → s.dev = .faultHold → speedHeld s = false → s.flt.stopStep = 0 → StopBegun s.flt.holdCause s t) ∧
    (due → 3 ≤ r.reloads → inService s.dev = true → s.flt.stopStep = 0 → StopBegun 0x3A s t)) := by
  intro r
  refine ⟨_, if_pos hawake, ?_⟩
  beta_reduce
  intro due
  have hdue : (r.faulted && (r.state = 0 || r.state = 7) && r.flags.getLsbD 2 && r.loadDue.isNone) = true ↔ due := by
    simp only [Bool.and_eq_true, Bool.or_eq_true, decide_eq_true_eq, Option.isNone_iff_eq_none, and_assoc]
    exact Iff.rfl
  by_cases h : due
  · have h' := hdue.2 h
    rw [if_pos h']
    by_cases hfew : r.reloads < 3
    · rw [if_pos hfew]
      refine ⟨fun hno => absurd h hno, fun _ _ hfree => ?_, fun _ _ hdev hslow hstep => ?_, fun _ hmany => absurd hfew (not_lt.2 hmany)⟩
      · have hgoes : ¬ (((reloadDue arm s).dev = .faultHold && !speedHeld (reloadDue arm s)) = true) := by
          rw [Bool.and_eq_true, decide_eq_true_eq, Bool.not_eq_true']
          rintro ⟨hd, hs⟩
          rcases hfree with hf | hf
          · exact hf hd
          · exact absurd (hf.symm.trans hs) (by decide)
        have heq : reloadSpeed (reloadDue arm s) = reloadDue arm s := if_neg hgoes
        have hleft : (getArm (reloadDue arm s) arm).reloads = r.reloads + 1 ∧ (getArm (reloadDue arm s) arm).loadDue = some (now s) ∧ (reloadDue arm s).dev = s.dev := by
          unfold reloadDue
          rw [getArm_modArm]
          exact ⟨rfl, rfl, rfl⟩
        rw [← heq] at hleft
        exact hleft
      · have hslow' : ((reloadDue arm s).dev = .faultHold && !speedHeld (reloadDue arm s)) = true := by
          rw [Bool.and_eq_true, decide_eq_true_eq, Bool.not_eq_true']
          exact ⟨hdev, hslow⟩
        have heq : reloadSpeed (reloadDue arm s) = spindleLost s.flt.holdCause (reloadDue arm s) := if_pos hslow'
        have hbegun := spindleLost_begun (cause := s.flt.holdCause) (s := reloadDue arm s) (by rw [reloadDue_dev, hdev]; rfl) hstep
        rw [← heq] at hbegun
        exact hbegun.of_ptn (modArm_only ..).ptn
    · rw [if_neg hfew]
      exact ⟨fun hno => absurd h hno, fun _ hf => absurd hf hfew, fun _ hf => absurd hf hfew, fun _ _ hdev hstep => failStop_begun hdev hstep⟩
  · rw [if_neg fun h' => h (hdue.1 h')]
    exact ⟨fun _ => rfl, fun hd => absurd hd h, fun hd => absurd hd h, fun hd => absurd hd h⟩
theorem vcmReloadTimeout_completes {s : State} (hawake : awake s = true) (arm : Fin 8) :
    let r := getArm s arm
    Completes (.vcmReloadTimeout arm) s fun t =>
    (r.faulted = false → t = s) ∧ (r.faulted = true → inService s.dev = true → s.flt.stopStep = 0 → StopBegun 0x3A s t) := by
  intro r
  refine ⟨_, if_pos hawake, ?_⟩
  split
  next h => exact ⟨fun hno => absurd (h.symm.trans hno) (by decide), fun _ hdev hstep => failStop_begun hdev hstep⟩
  next h => exact ⟨fun _ => rfl, fun hf => absurd hf h⟩
/-- Settles O16: a frame by what it is judged, a fault of the port by R206, a reload by its count and the spindle's speed. -/
theorem vcmPortFaultsRetract : Obligations.VcmPortFaultsRetract := by
  unfold Obligations.VcmPortFaultsRetract
  intro s hawake arm
  exact ⟨vcmDiFrame_completes hawake arm, retractedWaitTimeout_completes hawake arm, vcmReload_completes hawake arm, vcmReloadTimeout_completes hawake arm⟩

end Sys2Proof.Machine
end

section
/-! What reports, unloads and stops leave of an arm link (R78, R514). -/

namespace Sys2Proof.Machine
set_option Elab.async false

-- What reports, unloads and stops leave of an arm link (R78, R514).

/-- An arm link but for its messages, its grids and its owner. -/
def linkCore (s : State) (a : Nat) : ArmLink := { getAlk s a with seq := 0, unacked := [], msgs := [], owner := 0, outs := [] }
/-- Between the two states the link has sent or lost messages, or its arm was released, and a link that is down has sent nothing. -/
structure LinkStays (a : Nat) (s t : State) : Prop where
  core : linkCore t a = linkCore s a
  owner : (getAlk t a).owner = (getAlk s a).owner ∨ (getAlk t a).owner = 0
  quiet : alkUp s a = false → (getAlk s a).settling = false → (getAlk s a).unacked = [] → (getAlk t a).unacked = []
theorem linkCore_fields (s : State) (a : Nat) : (linkCore s a).link = (getAlk s a).link ∧ (linkCore s a).settling = (getAlk s a).settling ∧
    (linkCore s a).attempts = (getAlk s a).attempts ∧ (linkCore s a).retrain = (getAlk s a).retrain ∧ (linkCore s a).mons = (getAlk s a).mons ∧
    (linkCore s a).port = (getAlk s a).port ∧ (linkCore s a).otherPort = (getAlk s a).otherPort := ⟨rfl, rfl, rfl, rfl, rfl, rfl, rfl⟩
theorem LinkStays.link {a : Nat} {s t : State} (h : LinkStays a s t) : (getAlk t a).link = (getAlk s a).link := by
  rw [← (linkCore_fields t a).1, h.core, (linkCore_fields s a).1]
theorem LinkStays.settling {a : Nat} {s t : State} (h : LinkStays a s t) : (getAlk t a).settling = (getAlk s a).settling := by
  rw [← (linkCore_fields t a).2.1, h.core, (linkCore_fields s a).2.1]
theorem LinkStays.fields {a : Nat} {s t : State} (h : LinkStays a s t) : (getAlk t a).attempts = (getAlk s a).attempts ∧ (getAlk t a).retrain = (getAlk s a).retrain ∧
    (getAlk t a).mons = (getAlk s a).mons ∧ (getAlk t a).port = (getAlk s a).port ∧ (getAlk t a).otherPort = (getAlk s a).otherPort := by
  obtain ⟨-, -, h1, h2, h3, h4, h5⟩ := linkCore_fields t a
  obtain ⟨-, -, k1, k2, k3, k4, k5⟩ := linkCore_fields s a
  rw [← h1, ← h2, ← h3, ← h4, ← h5, h.core]
  exact ⟨k1, k2, k3, k4, k5⟩
theorem LinkStays.alkUp {a : Nat} {s t : State} (h : LinkStays a s t) : alkUp t a = alkUp s a := by
  unfold Machine.alkUp
  rw [h.link]
theorem LinkStays.of_alk {a : Nat} {s t : State} (h : getAlk t a = getAlk s a) : LinkStays a s t := by
  refine ⟨?_, .inl (by rw [h]), fun _ _ hq => by rw [h, hq]⟩
  unfold linkCore
  rw [h]
theorem LinkStays.of_only {m : Units} {a : Nat} {s t : State} (h : Only m s t) (hm : m.alks = false := by rfl) : LinkStays a s t := .of_alk (getAlk_of_only a h hm)
theorem LinkStays.refl {a : Nat} {s : State} : LinkStays a s s := .of_alk rfl
theorem LinkStays.after {a : Nat} {s t u : State} (h₂ : LinkStays a t u) (h₁ : LinkStays a s t) : LinkStays a s u :=
  ⟨h₂.core.trans h₁.core, h₂.owner.elim (fun h => h₁.owner.imp h.trans h.trans) .inr,
    fun hup hset hq => h₂.quiet (h₁.alkUp.trans hup) (h₁.settling.trans hset) (h₁.quiet hup hset hq)⟩
theorem LinkStays.ite {a : Nat} {s t u : State} {c : Prop} [Decidable c] (h₁ : LinkStays a s t) (h₂ : LinkStays a s u) : LinkStays a s (if c then t else u) := by
  split
  · exact h₁
  · exact h₂
theorem LinkStays.each {a : Nat} {α : Type} {f : α → State → State} (hf : ∀ x s, LinkStays a s (f x s)) (xs : List α) (s : State) : LinkStays a s (each xs f s) := by
  induction xs generalizing s with
  | nil => exact .refl
  | cons x xs ih =>
    rw [each_cons]
    exact (ih _).after (hf x s)
/-- A write of another link, or of the parts that `LinkStays` leaves open. -/
theorem modAlk_linkStays {a b : Nat} {s : State} {f : ArmLink → ArmLink} (hf : b = a → LinkStays a s (modAlk s b f)) : LinkStays a s (modAlk s b f) := by
  by_cases h : a = b
  · exact hf h.symm
  · exact .of_alk (getAlk_modAlk_other _ _ h)
theorem alkPut_linkStays (a b : Nat) (m : AlkMsg) (s : State) : LinkStays a s (alkPut b m s) := by
  unfold alkPut
  refine .after (.of_only (send_only ..)) (modAlk_linkStays fun h => ?_)
  subst h
  refine ⟨?_, .inl ?_, fun _ _ hq => ?_⟩
  · unfold linkCore
    rw [getAlk_modAlk]
  · rw [getAlk_modAlk]
  · rw [getAlk_modAlk]
    exact hq
theorem alkSend_linkStays (a b type head : Nat) (imm : Bool) (apply : Nat) (payload : List Word) (s : State) : LinkStays a s (alkSend b type head imm apply payload s) := by
  unfold alkSend
  dsimp only
  split
  next h =>
    refine .after (alkPut_linkStays ..) (modAlk_linkStays fun hb => ?_)
    subst hb
    refine ⟨?_, .inl ?_, fun hup hset _ => absurd h ?_⟩
    · unfold linkCore
      rw [getAlk_modAlk]
    · rw [getAlk_modAlk]
    · rw [hup, hset]
      simp
  · exact .refl
theorem sendMode_linkStays (a b h mode raw : Nat) (s : State) : LinkStays a s (sendMode b h mode raw s) := by
  unfold sendMode
  exact (alkSend_linkStays ..).after (.of_only (modHead_only ..))
theorem sendLaser_linkStays (a b h op bias lead : Nat) (s : State) : LinkStays a s (sendLaser b h op bias lead s) := by
  unfold sendLaser
  exact (alkSend_linkStays ..).after (.of_only (modHead_only ..))
theorem sendHeater_linkStays (a b h rd wr : Nat) (imm : Bool) (s : State) : LinkStays a s (sendHeater b h rd wr imm s) := by
  unfold sendHeater
  exact alkSend_linkStays ..
theorem sendUa_linkStays (a b h : Nat) (demand : Int) (imm : Bool) (apply : Nat) (s : State) : LinkStays a s (sendUa b h demand imm apply s) := by
  unfold sendUa
  exact alkSend_linkStays ..
theorem sendWgate_linkStays (a b mask : Nat) (s : State) : LinkStays a s (sendWgate b mask s) := by
  unfold sendWgate
  refine (alkSend_linkStays ..).after (modAlk_linkStays fun h => ?_)
  subst h
  refine ⟨?_, .inl ?_, fun _ _ hq => ?_⟩
  · unfold linkCore
    rw [getAlk_modAlk]
  · rw [getAlk_modAlk]
  · rw [getAlk_modAlk]
    exact hq
theorem laserOff_linkStays (a b h : Nat) (write : Bool) (s : State) : LinkStays a s (laserOff b h write s) := by
  unfold laserOff
  exact .ite ((sendLaser_linkStays ..).after (.of_only (modHead_only ..))) (.of_only (modHead_only ..))
theorem restHead_linkStays (a b h : Nat) (write : Bool) (s : State) : LinkStays a s (restHead b h write s) := by
  unfold restHead
  exact .ite .refl ((laserOff_linkStays ..).after ((sendMode_linkStays ..).after (.of_only (gateIsland_only ..))))
theorem cutVisit_linkStays (a b : Nat) (s : State) : LinkStays a s (cutVisit b s) := by
  unfold cutVisit
  split
  · exact .refl
  next o v _ =>
    have hheads (t : State) : LinkStays a t (Machine.each o.heads (fun h s => restHead b h (decide (v.kind = 1)) s) t) := .each (fun _ _ => restHead_linkStays ..) _ _
    have hfree : LinkStays a s (freeInner (fun e => e.1 = b) s) := .of_only (freeInner_only ..)
    exact .ite (.after (.of_only (m := { fan := true }) (.upd .refl)) ((hheads _).after (.after (.of_only (m := { slu := true }) (.upd .refl)) hfree)))
      (.after (.of_only (post_only ..)) (.after (.of_only (m := { fan := true }) (.upd .refl))
        ((hheads _).after (.after (.of_only (m := { slu := true }) (.upd .refl)) hfree))))
theorem endVisits_linkStays (a : Nat) (s : State) : LinkStays a s (endVisits s) := by
  unfold endVisits
  exact .after (.of_only (m := { slu := true }) (.upd .refl)) (.after (.each (fun _ _ => cutVisit_linkStays ..) _ _)
    (.each (fun _ _ => .ite (.of_only (modSine_only ..)) .refl) _ _))
theorem enterHold_linkStays (a : Nat) (event : BitVec 8) (injected : Bool) (s : State) : LinkStays a s (enterHold event injected s) := by
  unfold enterHold
  exact .ite (.after (.of_only (post_only ..)) (.after (endVisits_linkStays ..) (.of_only (m := { dev := true, flt := true }) (.upd .refl))))
    (.ite (.of_only (m := { flt := true }) (.upd .refl)) .refl)
theorem report_linkStays (a : Nat) (r : Report) (s : State) : LinkStays a s (report r s) := by
  unfold report reportAll
  exact .after (.each (fun _ _ => enterHold_linkStays ..) _ _) (.after (.of_only (captureFirst_only ..))
    (.each (fun _ _ => .after (.of_only (mqNote_only ..)) (.of_only (countReport_only ..))) _ _))
theorem condition_linkStays (a : Nat) (code master : BitVec 8) (cause : Nat) (hold : Bool) (fs : List PayField) (s : State) : LinkStays a s (condition code master cause hold fs s) := by
  unfold condition
  exact (report_linkStays ..).after (.of_only (post_only ..))
theorem alkCondition_linkStays (a b : Nat) (code : BitVec 8) (cause : Nat) (hold : Bool) (s : State) : LinkStays a s (alkCondition b code cause hold s) := by
  unfold alkCondition
  exact condition_linkStays ..
theorem coolHead_linkStays (a n : Nat) (s : State) : LinkStays a s (coolHead n s) := by
  unfold coolHead
  exact .after (.of_only (modHead_only ..)) ((sendHeater_linkStays ..).after (sendLaser_linkStays ..))
theorem stopWriter_linkStays (a n : Nat) (s : State) : LinkStays a s (stopWriter n s) := by
  unfold stopWriter
  exact .after (.of_only (modHead_only ..)) (sendWgate_linkStays ..)
theorem armSafe_linkStays (a b : Nat) (s : State) : LinkStays a s (armSafe b s) := by
  have hramp (n : Nat) (t : State) : LinkStays a t (uaRamp n t) := by
    unfold uaRamp
    exact .after (.of_only (modHead_only ..)) (.each (fun _ _ => sendUa_linkStays ..) _ _)
  have hgate : LinkStays a s (gateArm b s) := by
    unfold gateArm
    exact .after (.each (fun _ _ => .of_only (modHead_only ..)) _ _) (sendWgate_linkStays ..)
  unfold armSafe
  exact .after (.each (fun _ _ => (hramp ..).after ((coolHead_linkStays ..).after (.of_only (gateIsland_only ..)))) _ _) hgate
theorem unloadArm_linkStays (a b : Nat) (s : State) : LinkStays a s (unloadArm b s) := by
  rw [unloadArm_eq]
  exact .ite (.after (.of_only (unloadBegun_only ..)) (armSafe_linkStays ..)) .refl
theorem releaseArms_linkStays (a : Nat) (s : State) : LinkStays a s (releaseArms s) := by
  unfold releaseArms
  refine .each (fun b t => .ite (.after (modAlk_linkStays fun h => ?_) (alkSend_linkStays ..)) .refl) _ _
  subst h
  refine ⟨?_, .inr ?_, fun _ _ hq => ?_⟩
  · unfold linkCore
    rw [getAlk_modAlk]
  · rw [getAlk_modAlk]
  · rw [getAlk_modAlk]
    exact hq
theorem stopStable_linkStays (a : Nat) : StopStable (LinkStays a) where
  refl _ := .refl
  trans h₁ h₂ := h₂.after h₁
  plain h := .of_only h
  noted h _ := .of_only h
  completed cause s := .of_only (completeAll_only cause s)
  channels s := .of_only (stopChannels_only s)
  gone s := .of_only (dropGone_only s)
  released s := releaseArms_linkStays a s
  unload b s := unloadArm_linkStays a b s
  frame b s := .of_only (vcmFrame_only b s)
  visits s := endVisits_linkStays a s
  dark b s := .of_only (armDark_only b s)
theorem failStop_linkStays (a : Nat) (cause : BitVec 8) (s : State) : LinkStays a s (failStop cause s) := (stopStable_linkStays a).failStop cause s

end Sys2Proof.Machine
end

section
/-! The messages of an arm that wait for their answers (R87). -/

namespace Sys2Proof.Machine
set_option Elab.async false

-- The messages and the telemetry of an arm (R78, R83, R87).

theorem mqSend_modMon_dev (a h : Nat) (f : HeadMon → HeadMon) (q : Nat) (ws : List Word) (s : State) : Only { alks := true, mqs := true, tx := true } s (mqSend q ws (modMon a h f s)) :=
  (mqSend_only ..).after ((modMon_only ..).mono)
theorem unacked_alkPut (a b : Nat) (m : AlkMsg) (s : State) : (getAlk (alkPut a m s) b).unacked = (getAlk s b).unacked ∧ (getAlk (alkPut a m s) b).link = (getAlk s b).link ∧
    (getAlk (alkPut a m s) b).settling = (getAlk s b).settling ∧ (getAlk (alkPut a m s) b).owner = (getAlk s b).owner := by
  unfold alkPut
  rw [getAlk_of_only b (send_only ..)]
  by_cases h : b = a
  · subst h
    rw [getAlk_modAlk]
    exact ⟨rfl, rfl, rfl, rfl⟩
  · rw [getAlk_modAlk_other _ _ h]
    exact ⟨rfl, rfl, rfl, rfl⟩
theorem tx_alkPut (a : Nat) (m : AlkMsg) (s : State) : (alkPut a m s).tx = s.tx ++ [.alk a m] := rfl
/-- A link that is lost: it trains again, and nothing waits for an answer (R92). -/
def lostLink (k : ArmLink) : ArmLink := { k with
  link := 1, retrain := true, attempts := 0, attempting := false, idle := false, waitIdentity := false, settling := false,
  mapAt := none, unacked := [], msgs := [], msgRest := [], sentIn := [], outs := [] }
theorem alkLoss_left {a : Nat} {s : State} (h : alkUp s a = true) :
    (getAlk (alkLoss a s) a).link = 1 ∧ (getAlk (alkLoss a s) a).retrain = true ∧ (getAlk (alkLoss a s) a).unacked = [] := by
  obtain ⟨hlink, hretrain⟩ := alkLoss_of_up h
  refine ⟨hlink, hretrain, ?_⟩
  have heq : alkLoss a s = alkCondition a 0x7B 8 true (openCause 0x7B a false (modAlk (voidArm unwritten a (List.range 8) s) a lostLink)) := if_pos h
  have hlost : getAlk (openCause 0x7B a false (modAlk (voidArm unwritten a (List.range 8) s) a lostLink)) a = lostLink (getAlk (voidArm unwritten a (List.range 8) s) a) := by
    rw [getAlk_of_only a (openCause_only ..), getAlk_modAlk]
  rw [heq]
  refine (alkCondition_linkStays a a 0x7B 8 true _).quiet ?_ ?_ ?_
  · unfold alkUp
    rw [hlost]
    rfl
  · rw [hlost]
    rfl
  · rw [hlost]
    rfl
/-- An attempt at training has failed (R93). -/
def failedAttempt (k : ArmLink) : ArmLink := { k with attempts := k.attempts + 1, attempting := false, waitIdentity := false, settling := false, idle := true, unacked := [], msgs := [], msgRest := [] }
def untrained (k : ArmLink) : ArmLink := { k with link := 4, attempting := false, idle := false, waitIdentity := false, settling := false }
theorem alkTrainFailed_left (a : Nat) {s : State} (hunacked : (getAlk s a).unacked = []) :
    (getAlk (alkTrainFailed a s) a).attempts = (getAlk s a).attempts ∧ (getAlk (alkTrainFailed a s) a).settling = false ∧ (getAlk (alkTrainFailed a s) a).unacked = [] := by
  have hstays : LinkStays a (modAlk s a untrained) (alkTrainFailed a s) := by
    unfold alkTrainFailed
    exact (failStop_linkStays ..).after ((alkCondition_linkStays ..).after (.ite (.of_only (startFail_only ..)) .refl))
  have hfailed : getAlk (modAlk s a untrained) a = untrained (getAlk s a) := getAlk_modAlk ..
  have hset : (getAlk (modAlk s a untrained) a).settling = false := by
    rw [hfailed]
    rfl
  obtain ⟨hattempts, -⟩ := hstays.fields
  refine ⟨hattempts.trans ?_, hstays.settling.trans hset, hstays.quiet ?_ hset ?_⟩
  · rw [hfailed]
    rfl
  · unfold alkUp
    rw [hfailed]
    rfl
  · rw [hfailed]
    exact hunacked
theorem alkAttemptFailed_left (a : Nat) (s : State) : (getAlk (alkAttemptFailed a s) a).attempts = (getAlk s a).attempts + 1 ∧
    (getAlk (alkAttemptFailed a s) a).settling = false ∧ (getAlk (alkAttemptFailed a s) a).unacked = [] := by
  have hfailed : getAlk (modAlk s a failedAttempt) a = failedAttempt (getAlk s a) := getAlk_modAlk ..
  have heq : alkAttemptFailed a s = if 3 ≤ (getAlk (modAlk s a failedAttempt) a).attempts then alkTrainFailed a (modAlk s a failedAttempt)
      else each [0, 1, 2] (fun p s => send (.quiet a p) s) (modAlk s a failedAttempt) := rfl
  rw [heq]
  split
  · obtain ⟨h1, h2, h3⟩ := alkTrainFailed_left a (s := modAlk s a failedAttempt) (by rw [hfailed]; rfl)
    exact ⟨h1.trans (by rw [hfailed]; rfl), h2, h3⟩
  · have hquiet : Only { tx := true } (modAlk s a failedAttempt) (each [0, 1, 2] (fun p s => send (.quiet a p) s) (modAlk s a failedAttempt)) := .each (fun _ _ => send_only ..) .refl
    rw [getAlk_of_only a hquiet, hfailed]
    exact ⟨rfl, rfl, rfl⟩
theorem ackTimeout_completes {s : State} (hawake : awake s = true) (arm : Fin 8) :
    let k := getAlk s arm
    let msg (q : Nat) : Option (AlkMsg × Bool) := k.unacked.find? fun m => m.1.seq = q
    ∀ seq, Completes (.ackTimeout arm seq) s fun t =>
    (msg seq.toNat = none → t = s) ∧
    ∀ m, msg seq.toNat = some m →
      (m.2 = false → t.tx = s.tx ++ [.alk arm m.1] ∧ (getAlk t arm).unacked.map (·.1) = k.unacked.map (·.1) ∧ ∀ x ∈ (getAlk t arm).unacked, x.1.seq = seq.toNat → x.2 = true) ∧
      (m.2 = true → k.settling = false → alkUp s arm = true → (getAlk t arm).link = 1 ∧ (getAlk t arm).retrain = true ∧ (getAlk t arm).unacked = []) ∧
      (m.2 = true → k.settling = true → (getAlk t arm).attempts = k.attempts + 1 ∧ (getAlk t arm).settling = false ∧ (getAlk t arm).unacked = []) := by
  intro k msg seq
  refine ⟨_, if_pos hawake, ?_⟩
  beta_reduce
  cases hmsg : (getAlk s arm).unacked.find? fun m => m.1.seq = seq.toNat with
  | none => exact ⟨fun _ => rfl, fun m hm => absurd (hmsg.symm.trans hm) (by simp)⟩
  | some m =>
    refine ⟨fun hm => absurd (hmsg.symm.trans hm) (by simp), fun m' hm' => ?_⟩
    obtain rfl : m = m' := by simpa using hmsg.symm.trans hm'
    obtain ⟨m, sent⟩ := m
    cases sent with
    | false =>
      refine ⟨fun _ => ⟨rfl, ?_, ?_⟩, fun h => absurd h Bool.false_ne_true, fun h => absurd h Bool.false_ne_true⟩
      · rw [(unacked_alkPut ..).1, getAlk_modAlk, List.map_map]
        refine List.map_congr_left fun x _ => ?_
        rw [Function.comp_apply]
        split
        · rfl
        · rfl
      · rw [(unacked_alkPut ..).1, getAlk_modAlk]
        intro x hx hseq
        obtain ⟨y, -, rfl⟩ := List.mem_map.1 hx
        split at hseq
        next h => rw [if_pos h]
        next h => exact absurd hseq h
    | true =>
      refine ⟨fun h => absurd h (Ne.symm Bool.false_ne_true), fun _ hset hup => ?_, fun _ hset => ?_⟩
      · have heq : (if (getAlk s arm).settling then alkAttemptFailed arm s else alkLoss arm s) = alkLoss arm s := if_neg (by rw [show (getAlk s arm).settling = false from hset]; decide)
        dsimp only
        rw [heq]
        exact alkLoss_left hup
      · have heq : (if (getAlk s arm).settling then alkAttemptFailed arm s else alkLoss arm s) = alkAttemptFailed arm s := if_pos hset
        dsimp only
        rw [heq]
        exact alkAttemptFailed_left arm s
/-- The owner that an answer to a claim gives (R90). -/
def claimAnswered (status : Nat) : Nat := if status = 0 ∨ status = 1 ∨ status = 6 then 1 else 0
/-- A message has its answer: it waits no more, and a claim and a lane swap are settled by it. -/
def answered (a type status seq : Nat) (s : State) : State :=
  let s := modAlk s a fun k => { k with unacked := k.unacked.filter fun x => x.1.seq ≠ seq }
  if type = 0x0F then (if status = 0 || status = 1 || status = 6 then modAlk s a fun k => { k with owner := 1 } else modAlk s a fun k => { k with owner := 0 })
  else if type = 0x0E && (getAlk s a).link = 3 then modAlk s a fun k => { k with link := 2 }
  else s
theorem answered_only (a type status seq : Nat) (s : State) : Only { alks := true } s (answered a type status seq s) := by
  unfold answered
  exact .ite (.ite ((modAlk_only ..).after (modAlk_only ..)) ((modAlk_only ..).after (modAlk_only ..))) (.ite ((modAlk_only ..).after (modAlk_only ..)) (modAlk_only ..))
theorem getAlk_answered_other (a type status seq : Nat) (s : State) {b : Nat} (h : b ≠ a) : getAlk (answered a type status seq s) b = getAlk s b := by
  unfold answered
  dsimp only
  split
  · split
    · rw [getAlk_modAlk_other _ _ h, getAlk_modAlk_other _ _ h]
    · rw [getAlk_modAlk_other _ _ h, getAlk_modAlk_other _ _ h]
  split
  · rw [getAlk_modAlk_other _ _ h, getAlk_modAlk_other _ _ h]
  · rw [getAlk_modAlk_other _ _ h]
theorem getAlk_answered (a type status seq : Nat) (s : State) :
    (getAlk (answered a type status seq s) a).unacked = ((getAlk s a).unacked.filter fun x => x.1.seq ≠ seq) ∧
    (getAlk (answered a type status seq s) a).owner = (if type = 0x0F then claimAnswered status else (getAlk s a).owner) ∧
    (getAlk (answered a type status seq s) a).link = (if type = 0x0E ∧ (getAlk s a).link = 3 then 2 else (getAlk s a).link) ∧
    (getAlk (answered a type status seq s) a).settling = (getAlk s a).settling := by
  unfold answered claimAnswered
  dsimp only
  by_cases hclaim : type = 0x0F
  · rw [if_pos hclaim, if_pos hclaim, if_neg (show ¬(type = 0x0E ∧ (getAlk s a).link = 3) from fun h => absurd (hclaim.symm.trans h.1) (by decide))]
    by_cases hgiven : status = 0 ∨ status = 1 ∨ status = 6
    · rw [if_pos (show (decide (status = 0) || decide (status = 1) || decide (status = 6)) = true by simpa [or_assoc] using hgiven), if_pos hgiven, getAlk_modAlk, getAlk_modAlk]
      exact ⟨rfl, rfl, rfl, rfl⟩
    · rw [if_neg (show ¬(decide (status = 0) || decide (status = 1) || decide (status = 6)) = true by simpa [or_assoc] using hgiven), if_neg hgiven, getAlk_modAlk, getAlk_modAlk]
      exact ⟨rfl, rfl, rfl, rfl⟩
  · rw [if_neg hclaim, if_neg hclaim, getAlk_modAlk]
    by_cases hswap : type = 0x0E ∧ (getAlk s a).link = 3
    · rw [if_pos (by simpa using hswap), if_pos hswap, getAlk_modAlk, getAlk_modAlk]
      exact ⟨rfl, rfl, rfl, rfl⟩
    · rw [if_neg (by simpa using hswap), if_neg hswap, getAlk_modAlk]
      exact ⟨rfl, rfl, rfl, rfl⟩

end Sys2Proof.Machine
end

section
/-! The acknowledgements of an arm (R87, R90). -/

namespace Sys2Proof.Machine
set_option Elab.async false

-- The acknowledgements of an arm (R87, R90, R590).

theorem report_quiet_only {r : Report} (h : r.hold = false) (s : State) : Only { flt := true, mqs := true, gov := true, tx := true, free := true } s (report r s) := by
  unfold report reportAll
  rw [List.filter_cons_of_neg (by simp [h]), List.filter_nil]
  exact (captureFirst_only ..).after (.each (fun _ _ => (mqNote_only ..).after ((countReport_only ..).mono)) .refl)
/-- A condition that does not hold leaves the arms, their heads and the device state. -/
theorem condition_quiet_only (code master : BitVec 8) (cause : Nat) (fs : List PayField) (s : State) :
    Only { evt := true, flt := true, mqs := true, gov := true, tx := true, free := true } s (condition code master cause false fs s) := by
  unfold condition
  exact (report_quiet_only rfl _).after (post_only ..).mono
/-- Between the two states no link came up or went down, and an arm that was claimed is claimed. -/
structure ClaimStays (b : Nat) (s t : State) : Prop where
  up : alkUp t b = alkUp s b
  claimed : (getAlk s b).owner = 2 → (getAlk t b).owner = 2
theorem ClaimStays.after {b : Nat} {s t u : State} (h₂ : ClaimStays b t u) (h₁ : ClaimStays b s t) : ClaimStays b s u :=
  ⟨h₂.up.trans h₁.up, fun h => h₂.claimed (h₁.claimed h)⟩
theorem ClaimStays.of_alk {b : Nat} {s t : State} (h : (getAlk t b).link = (getAlk s b).link) (ho : (getAlk t b).owner = (getAlk s b).owner) : ClaimStays b s t :=
  ⟨by unfold alkUp; rw [h], fun hc => ho.trans hc⟩
theorem alkSend_owner (a b type head : Nat) (imm : Bool) (apply : Nat) (payload : List Word) (s : State) : (getAlk (alkSend a type head imm apply payload s) b).owner = (getAlk s b).owner := by
  unfold alkSend
  dsimp only
  split
  · obtain ⟨-, -, -, howner⟩ := unacked_alkPut a b { type, head, ackReq := !noAck type, seq := (getAlk s a).seq, imm, apply := apply % 2 ^ 39, payload }
      (modAlk s a fun k => { k with seq := ((getAlk s a).seq + 1) % 2048, unacked := if noAck type then k.unacked else k.unacked ++ [({ type, head, ackReq := !noAck type, seq := (getAlk s a).seq, imm, apply := apply % 2 ^ 39, payload }, false)] })
    refine howner.trans ?_
    by_cases h : b = a
    · subst h
      rw [getAlk_modAlk]
    · rw [getAlk_modAlk_other _ _ h]
  · rfl
theorem alkSend_claimStays (a b type head : Nat) (imm : Bool) (apply : Nat) (payload : List Word) (s : State) : ClaimStays b s (alkSend a type head imm apply payload s) :=
  .of_alk (alkSend_linkStays ..).link (alkSend_owner ..)
theorem sendClaim_claimStays (a b : Nat) (force : Bool) (s : State) : ClaimStays b s (sendClaim a force s) := by
  unfold sendClaim
  split
  · refine (alkSend_claimStays ..).after ?_
    by_cases h : b = a
    · subst h
      exact ⟨by unfold alkUp; rw [getAlk_modAlk], fun _ => by rw [getAlk_modAlk]⟩
    · exact .of_alk (by rw [getAlk_modAlk_other _ _ h]) (by rw [getAlk_modAlk_other _ _ h])
  · exact .of_alk rfl rfl
theorem sendClaim_claims {a : Nat} {force : Bool} {s : State} (h : alkUp s a = true) : (getAlk (sendClaim a force s) a).owner = 2 := by
  unfold sendClaim
  rw [if_pos h, alkSend_owner, getAlk_modAlk]
/-- What a part sends to an arm that it claims (R90). -/
def claimArm (force : Bool) (a : Nat) (s : State) : State := sendTelemSet a (sendTimeSet a (sendClaim a force s))
theorem claimArm_claimStays (force : Bool) (a b : Nat) (s : State) : ClaimStays b s (claimArm force a s) :=
  (alkSend_claimStays ..).after ((alkSend_claimStays ..).after (sendClaim_claimStays ..))
theorem claimArm_claims {force : Bool} {a : Nat} {s : State} (h : alkUp s a = true) : (getAlk (claimArm force a s) a).owner = 2 := by
  unfold claimArm sendTelemSet sendTimeSet
  rw [alkSend_owner, alkSend_owner, sendClaim_claims h]
theorem each_claimArm_claims {force : Bool} (xs : List Nat) {s : State} (hup : ∀ a ∈ xs, alkUp s a = true) {a : Nat} (ha : a ∈ xs ∨ (getAlk s a).owner = 2) :
    (getAlk (each xs (claimArm force) s) a).owner = 2 := by
  induction xs generalizing s with
  | nil => exact ha.resolve_left List.not_mem_nil
  | cons x xs ih =>
    rw [each_cons]
    refine ih (fun b hb => ((claimArm_claimStays force x b s).up).trans (hup b (List.mem_cons_of_mem _ hb))) ?_
    rcases ha with ha | ha
    · rcases List.mem_cons.1 ha with rfl | ha
      · exact .inr (claimArm_claims (hup a List.mem_cons_self))
      · exact .inl ha
    · exact .inr ((claimArm_claimStays force x a s).claimed ha)
/-- Every arm of the part has been sent its claim (R90). -/
theorem claimArms_claims {force : Bool} {s : State} (hup : ∀ a ∈ armList s, alkUp s a = true) : ∀ a ∈ armList s, (getAlk (claimArms force s) a).owner = 2 :=
  fun _ ha => each_claimArm_claims _ hup (.inl ha)
theorem enterParked_left (s : State) :
    (enterParked s).dev = .parked ∧ (enterParked s).start.step = s.start.step ∨ (enterParked s).dev = .spinningUp ∧ (enterParked s).start.step = 11 := by
  have hspinning (t : State) : (enterSpinningUp t).dev = .spinningUp ∧ (enterSpinningUp t).start.step = 11 := by
    unfold enterSpinningUp
    extract_lets u
    rw [(applySetpoint_only ..).dev, (startOffsets_only ..).dev, (applySetpoint_only ..).start, (startOffsets_only ..).start]
    exact ⟨rfl, rfl⟩
  unfold enterParked trySpinUp
  split
  · exact .inr (hspinning _)
  · exact .inl ⟨rfl, rfl⟩
/-- A part alone has its arms claimed and leaves Configuring (R590). -/
def startedAlone (s : State) : State :=
  let s := claimArms false (leaveConfiguring s)
  { s with ptn := { s.ptn with activeOut := true }, start := { s.start with step := 0 } }
theorem startedAlone_owner {s : State} (hup : ∀ a ∈ armList s, alkUp s a = true) {a : Nat} (ha : a ∈ armList s) : (getAlk (startedAlone s) a).owner = 2 := by
  have hleft := leaveConfiguring_only s
  have harms : armList (leaveConfiguring s) = armList s := by
    unfold armList
    rw [hleft.img]
  refine claimArms_claims (s := leaveConfiguring s) (fun b hb => ?_) a (harms.symm ▸ ha)
  unfold alkUp
  rw [getAlk_of_only b hleft]
  exact hup b (harms ▸ hb)
theorem finishStart_alone {s : State} (hdev : s.dev = .configuring) (hstep : s.start.step = 9) (hup : ∀ a ∈ armList s, alkUp s a = true) (hptn : ptnOn s = false) :
    (finishStart s).ptn.activeOut = true ∧
      ((finishStart s).dev = .parked ∧ (finishStart s).start.step = 0 ∨ (finishStart s).dev = .spinningUp ∧ (finishStart s).start.step = 11) ∧
      ∀ a ∈ armList s, (getAlk (finishStart s) a).owner = 2 := by
  have hready : ¬(decide (s.dev ≠ .configuring) || decide (s.start.step ≠ 9) || (armList s).any fun a => !alkUp s a) = true := by
    simp only [hdev, hstep, ne_eq, not_true, decide_false, Bool.false_or, List.any_eq_true, not_exists, not_and]
    exact fun a ha => by rw [hup a ha]; decide
  have heq : finishStart s = enterParked (startedAlone s) := by
    unfold finishStart
    rw [if_neg hready, if_neg (by rw [hptn]; decide)]
    rfl
  have hptn' : (startedAlone s).ptn.activeOut = true := rfl
  have hstep' : (startedAlone s).start.step = 0 := rfl
  have howner : ∀ a ∈ armList s, (getAlk (startedAlone s) a).owner = 2 := fun a ha => startedAlone_owner hup ha
  rw [heq]
  generalize startedAlone s = t at *
  obtain hleft := enterParked_left t
  refine ⟨by rw [(enterParked_only ..).ptn]; exact hptn', ?_, fun a ha => ?_⟩
  · rw [hstep'] at hleft
    exact hleft
  · rw [getAlk_of_only a (enterParked_only ..)]
    exact howner a ha
theorem finishStart_of_not {s : State} (h : ¬(s.dev = .configuring ∧ s.start.step = 9)) : finishStart s = s := by
  refine if_pos ?_
  rw [Bool.or_eq_true, Bool.or_eq_true, decide_eq_true_eq, decide_eq_true_eq]
  exact .inl (not_and_or.1 h)
/-- A link that is up after its training (R93). -/
def settledLink (k : ArmLink) : ArmLink := { k with link := 2, settling := false, attempting := false, idle := false, attempts := 0, retrain := false }
def linkUpAgain (a : Nat) (s : State) : State := closeCause 0x7B a (alkCondition a 0x78 8 false (modAlk s a settledLink))
/-- Every message of a link that has trained has its answer (R93). -/
def linkSettles (k : ArmLink) : Prop := k.settling = true ∧ ∀ x ∈ k.unacked, x.1.type ≠ 0x0C ∧ x.1.type ≠ 0x0D ∧ x.1.type ≠ 0x0E
theorem linkSettled_of_settles {a : Nat} {s : State} (h : linkSettles (getAlk s a)) : linkSettled a s = finishStart (linkUpAgain a s) := by
  obtain ⟨hset, hrest⟩ := h
  refine if_pos ?_
  rw [hset, Bool.true_and, Bool.not_eq_true', List.any_eq_false]
  intro x hx
  obtain ⟨h1, h2, h3⟩ := hrest x hx
  simp [h1, h2, h3]
theorem linkSettled_of_not {a : Nat} {s : State} (h : ¬linkSettles (getAlk s a)) : linkSettled a s = s := by
  refine if_neg fun hc => h ?_
  rw [Bool.and_eq_true, Bool.not_eq_true', List.any_eq_false] at hc
  obtain ⟨hset, hrest⟩ := hc
  exact ⟨hset, fun x hx => by simpa [not_or, and_assoc] using hrest x hx⟩
theorem linkUpAgain_only (a : Nat) (s : State) : Only { evt := true, flt := true, mqs := true, alks := true, gov := true, tx := true, free := true } s (linkUpAgain a s) := by
  unfold linkUpAgain alkCondition
  exact (closeCause_only ..).after (((condition_quiet_only ..).mono : Only { evt := true, flt := true, mqs := true, alks := true, gov := true, tx := true, free := true } _ _).after (modAlk_only ..).mono)
theorem getAlk_linkUpAgain (a b : Nat) (s : State) : getAlk (linkUpAgain a s) b = getAlk (modAlk s a settledLink) b := by
  unfold linkUpAgain alkCondition
  rw [getAlk_of_only b (closeCause_only ..), getAlk_of_only b (condition_quiet_only ..)]
/-- What an answer makes of its link where the start does not end with it. -/
theorem linkSettled_left {a : Nat} {s : State} (h : linkSettles (getAlk s a) → ¬(s.dev = .configuring ∧ s.start.step = 9)) :
    (getAlk (linkSettled a s) a).unacked = (getAlk s a).unacked ∧ (getAlk (linkSettled a s) a).owner = (getAlk s a).owner ∧
    (linkSettles (getAlk s a) → (getAlk (linkSettled a s) a).link = 2 ∧ (getAlk (linkSettled a s) a).settling = false) ∧
    (¬linkSettles (getAlk s a) → (getAlk (linkSettled a s) a).link = (getAlk s a).link ∧ (getAlk (linkSettled a s) a).settling = (getAlk s a).settling) := by
  by_cases hset : linkSettles (getAlk s a)
  · have hstart : ¬((linkUpAgain a s).dev = .configuring ∧ (linkUpAgain a s).start.step = 9) := by
      rw [(linkUpAgain_only ..).dev, (linkUpAgain_only ..).start]
      exact h hset
    rw [linkSettled_of_settles hset, finishStart_of_not hstart, getAlk_linkUpAgain, getAlk_modAlk]
    exact ⟨rfl, rfl, fun _ => ⟨rfl, rfl⟩, fun hn => absurd hset hn⟩
  · rw [linkSettled_of_not hset]
    exact ⟨rfl, rfl, fun hs => absurd hs hset, fun _ => ⟨rfl, rfl⟩⟩
/-- The last link that comes up ends the start of a part alone (R590). -/
theorem linkSettled_ends {a : Nat} {s : State} (hset : linkSettles (getAlk s a)) (hdev : s.dev = .configuring) (hstep : s.start.step = 9) (hptn : ptnOn s = false)
    (hup : ∀ b ∈ armList s, b = a ∨ alkUp s b = true) :
    (linkSettled a s).ptn.activeOut = true ∧
      ((linkSettled a s).dev = .parked ∧ (linkSettled a s).start.step = 0 ∨ (linkSettled a s).dev = .spinningUp ∧ (linkSettled a s).start.step = 11) ∧
      ∀ b ∈ armList s, (getAlk (linkSettled a s) b).owner = 2 := by
  have honly := linkUpAgain_only a s
  have harms : armList (linkUpAgain a s) = armList s := by
    unfold armList
    rw [honly.img]
  rw [linkSettled_of_settles hset, ← harms]
  refine finishStart_alone (honly.dev.trans hdev) ((congrArg _ honly.start).trans hstep) (fun b hb => ?_) ?_
  · unfold alkUp
    rw [getAlk_linkUpAgain]
    by_cases hba : b = a
    · subst hba
      rw [getAlk_modAlk]
      rfl
    · rw [getAlk_modAlk_other _ _ hba]
      exact (hup b (harms ▸ hb)).resolve_left hba
  · unfold ptnOn
    rw [honly.start, honly.img]
    exact hptn
/-- What an answer does: a refused claim stops a takeover, FULL has its message sent again, and a link that waits for no more is up. -/
def ackTaken (a : Nat) (m : AlkMsg) (again : Bool) (status seq : Nat) (s : State) : State :=
  let s := answered a m.type status seq s
  if m.type = 0x0F && status = 5 && s.dev = .takeover then failStop 0x7C (alkCondition a 0x7C 8 false s)
  else if status = 2 then alkPut a m (modAlk s a fun k => { k with unacked := k.unacked ++ [(m, again)] })
  else linkSettled a s
theorem ackTaken_refused {a : Nat} {m : AlkMsg} {again : Bool} {status seq : Nat} {s : State} (h : m.type = 0x0F ∧ status = 5 ∧ s.dev = .takeover) :
    ackTaken a m again status seq s = failStop 0x7C (alkCondition a 0x7C 8 false (answered a m.type status seq s)) := by
  refine if_pos ?_
  rw [(answered_only ..).dev]
  simpa [and_assoc] using h
theorem ackTaken_of_not {a : Nat} {m : AlkMsg} {again : Bool} {status seq : Nat} {s : State} (h : ¬(m.type = 0x0F ∧ status = 5 ∧ s.dev = .takeover)) :
    ackTaken a m again status seq s = if status = 2 then alkPut a m (modAlk (answered a m.type status seq s) a fun k => { k with unacked := k.unacked ++ [(m, again)] })
      else linkSettled a (answered a m.type status seq s) := by
  refine if_neg ?_
  rw [(answered_only ..).dev]
  simpa [and_assoc] using h
section
variable {a status seq : Nat} {m : AlkMsg} {again : Bool} {s : State}
theorem ackTaken_refused_left (h : m.type = 0x0F ∧ status = 5 ∧ s.dev = .takeover) :
    (getAlk (ackTaken a m again status seq s) a).owner = 0 ∧ (s.flt.stopStep = 0 → StopBegun 0x7C s (ackTaken a m again status seq s)) := by
  rw [ackTaken_refused h]
  obtain ⟨htype, hstatus, hdev⟩ := h
  have honly := answered_only a m.type status seq s
  have hzero : (getAlk (answered a m.type status seq s) a).owner = 0 := by
    rw [(getAlk_answered ..).2.1, if_pos htype, hstatus]
    rfl
  generalize answered a m.type status seq s = u at honly hzero
  refine ⟨((failStop_linkStays ..).after (alkCondition_linkStays ..)).owner.elim (fun h => h.trans hzero) id, fun hstep => ?_⟩
  refine (failStop_begun (condition_inService (by rw [honly.dev, hdev]; rfl)) ?_).of_ptn ((alkCondition_only ..).ptn.trans honly.ptn)
  rw [condition_stopStep, honly.flt]
  exact hstep
theorem ackTaken_full_left (h : ¬(m.type = 0x0F ∧ status = 5 ∧ s.dev = .takeover)) (hfull : status = 2) :
    (getAlk (ackTaken a m again status seq s) a).owner = (getAlk (answered a m.type status seq s) a).owner ∧
    (getAlk (ackTaken a m again status seq s) a).unacked = ((getAlk s a).unacked.filter fun x => x.1.seq ≠ seq) ++ [(m, again)] ∧
    (ackTaken a m again status seq s).tx = s.tx ++ [.alk a m] := by
  rw [ackTaken_of_not h, if_pos hfull, tx_alkPut, (modAlk_only ..).tx, (answered_only ..).tx, (unacked_alkPut ..).1, (unacked_alkPut ..).2.2.2, getAlk_modAlk,
    (getAlk_answered ..).1]
  exact ⟨rfl, rfl, rfl⟩
theorem ackTaken_settles (h : ¬(m.type = 0x0F ∧ status = 5 ∧ s.dev = .takeover)) (hfull : status ≠ 2) :
    ackTaken a m again status seq s = linkSettled a (answered a m.type status seq s) := (ackTaken_of_not h).trans (if_neg hfull)
/-- The link settles with the answer: those that still wait are not its training's (R93). -/
theorem linkSettles_answered (a type status seq : Nat) (s : State) : linkSettles (getAlk (answered a type status seq s) a) ↔
    (getAlk s a).settling = true ∧ ∀ x ∈ (getAlk s a).unacked.filter fun x => x.1.seq ≠ seq, x.1.type ≠ 0x0C ∧ x.1.type ≠ 0x0D ∧ x.1.type ≠ 0x0E := by
  obtain ⟨hunacked, -, -, hsettling⟩ := getAlk_answered a type status seq s
  unfold linkSettles
  rw [hsettling, hunacked]
theorem linkSettled_answered_ends {type : Nat} (hset : linkSettles (getAlk (answered a type status seq s) a)) (hdev : s.dev = .configuring) (hstep : s.start.step = 9)
    (hptn : ptnOn s = false) (hup : ∀ b ∈ armList s, b = a ∨ alkUp s b = true) :
    (linkSettled a (answered a type status seq s)).ptn.activeOut = true ∧
      ((linkSettled a (answered a type status seq s)).dev = .parked ∧ (linkSettled a (answered a type status seq s)).start.step = 0 ∨
        (linkSettled a (answered a type status seq s)).dev = .spinningUp ∧ (linkSettled a (answered a type status seq s)).start.step = 11) ∧
      ∀ b ∈ armList s, (getAlk (linkSettled a (answered a type status seq s)) b).owner = 2 := by
  have honly := answered_only a type status seq s
  have hothers := fun b (h : b ≠ a) => getAlk_answered_other a type status seq s h
  generalize answered a type status seq s = u at honly hothers hset
  have hlist : armList u = armList s := by
    unfold armList
    rw [honly.img]
  rw [← hlist]
  refine linkSettled_ends hset (honly.dev.trans hdev) ((congrArg _ honly.start).trans hstep) ?_ fun b hb => ?_
  · unfold ptnOn
    rw [honly.start, honly.img]
    exact hptn
  · by_cases hba : b = a
    · exact .inl hba
    · refine .inr ?_
      unfold alkUp
      rw [hothers b hba]
      exact (hup b (hlist ▸ hb)).resolve_left hba
theorem linkSettled_answered_left {type : Nat} (h : linkSettles (getAlk (answered a type status seq s) a) → ¬(s.dev = .configuring ∧ s.start.step = 9)) :
    (getAlk (linkSettled a (answered a type status seq s)) a).unacked = (getAlk (answered a type status seq s) a).unacked ∧
    (getAlk (linkSettled a (answered a type status seq s)) a).owner = (getAlk (answered a type status seq s) a).owner ∧
    (linkSettles (getAlk (answered a type status seq s) a) →
      (getAlk (linkSettled a (answered a type status seq s)) a).link = 2 ∧ (getAlk (linkSettled a (answered a type status seq s)) a).settling = false) ∧
    (¬linkSettles (getAlk (answered a type status seq s) a) →
      (getAlk (linkSettled a (answered a type status seq s)) a).link = (getAlk (answered a type status seq s) a).link ∧
      (getAlk (linkSettled a (answered a type status seq s)) a).settling = (getAlk (answered a type status seq s) a).settling) := by
  refine linkSettled_left ?_
  rw [(answered_only ..).dev, (answered_only ..).start]
  exact h
end
theorem ackTelemetry_completes {s : State} (hawake : awake s = true) (arm : Fin 8) :
    let k := getAlk s arm
    let msg (q : Nat) : Option (AlkMsg × Bool) := k.unacked.find? fun m => m.1.seq = q
    ∀ word, Completes (.ackTelemetry arm word) s fun t =>
    let seq := bitsOf 50 40 word.toNat
    let status := bitsOf 3 0 word.toNat
    (msg seq = none → t = s) ∧
    ∀ m, msg seq = some m →
      let refused : Prop := m.1.type = 0x0F ∧ status = 5 ∧ s.dev = .takeover
      let rest := k.unacked.filter fun x => x.1.seq ≠ seq
      let up : Prop := k.settling = true ∧ ∀ x ∈ rest, x.1.type ≠ 0x0C ∧ x.1.type ≠ 0x0D ∧ x.1.type ≠ 0x0E
      let ends : Prop := up ∧ status ≠ 2 ∧ s.dev = .configuring ∧ s.start.step = 9
      (ends → ptnOn s = false → (∀ a ∈ armList s, a = arm.val ∨ alkUp s a = true) → arm.val < s.img.arms → t.ptn.activeOut = true ∧ (t.dev = .parked ∧ t.start.step = 0 ∨ t.dev = .spinningUp ∧ t.start.step = 11) ∧ ∀ a ∈ armList s, (getAlk t a).owner = 2) ∧
      (¬ ends → (getAlk t arm).owner = if m.1.type = 0x0F then (if status = 0 ∨ status = 1 ∨ status = 6 then 1 else 0) else k.owner) ∧
      (refused → s.flt.stopStep = 0 → StopBegun 0x7C s t) ∧
      (¬ refused → status = 2 → (getAlk t arm).unacked = rest ++ [m] ∧ t.tx = s.tx ++ [.alk arm m.1]) ∧
      (¬ refused → status ≠ 2 → ¬ ends → (getAlk t arm).unacked = rest ∧
        (getAlk t arm).link = (if up then 2 else if m.1.type = 0x0E ∧ k.link = 3 then 2 else k.link) ∧ (getAlk t arm).settling = (if up then false else k.settling)) := by
  intro k msg word
  refine ⟨match (getAlk s arm).unacked.find? fun m => m.1.seq = bitsOf 50 40 word.toNat with
    | none => s
    | some (m, again) => ackTaken arm m again (bitsOf 3 0 word.toNat) (bitsOf 50 40 word.toNat) s, if_pos hawake, ?_⟩
  beta_reduce
  intro seq status
  cases hmsg : (getAlk s arm).unacked.find? fun m => m.1.seq = bitsOf 50 40 word.toNat with
  | none => exact ⟨fun _ => rfl, fun m hm => absurd (hmsg.symm.trans hm) (by simp)⟩
  | some m =>
    refine ⟨fun hm => absurd (hmsg.symm.trans hm) (by simp), fun m' hm' => ?_⟩
    obtain rfl : m = m' := by simpa using hmsg.symm.trans hm'
    obtain ⟨m, again⟩ := m
    intro refused rest up ends
    obtain ⟨hunacked, howner, hlink, hsettling⟩ := getAlk_answered arm m.type status seq s
    have hup : linkSettles (getAlk (answered arm m.type status seq s) arm) ↔ up := linkSettles_answered ..
    dsimp only
    by_cases hr : refused
    · obtain ⟨hzero, hbegun⟩ := ackTaken_refused_left (a := arm) (again := again) (seq := seq) hr
      refine ⟨fun he => absurd (he.2.2.1.symm.trans hr.2.2) (by decide), fun _ => ?_, fun _ hstep => hbegun hstep, fun hn => absurd hr hn, fun hn => absurd hr hn⟩
      rw [if_pos hr.1, hr.2.1]
      exact hzero
    by_cases hfull : status = 2
    · obtain ⟨ho, hunack, htx⟩ := ackTaken_full_left (a := arm) (again := again) (seq := seq) hr hfull
      exact ⟨fun he => absurd hfull he.2.1, fun _ => ho.trans howner, fun h => absurd h hr, fun _ _ => ⟨hunack, htx⟩, fun _ h => absurd hfull h⟩
    rw [ackTaken_settles hr hfull]
    by_cases he : ends
    · exact ⟨fun he hptn hups _ => linkSettled_answered_ends (hup.2 he.1) he.2.2.1 he.2.2.2 hptn hups, fun hn => absurd he hn, fun h => absurd h hr, fun _ h => absurd h hfull,
        fun _ _ hn => absurd he hn⟩
    obtain ⟨hunack, ho, hyes, hno⟩ := linkSettled_answered_left (a := arm.val) (status := status) (seq := seq) (s := s) (type := m.type) fun hs hd => he ⟨hup.1 hs, hfull, hd⟩
    refine ⟨fun h => absurd h he, fun _ => ho.trans howner, fun h => absurd h hr, fun _ h => absurd h hfull, fun _ _ _ => ⟨hunack.trans hunacked, ?_⟩⟩
    by_cases hu : up
    · rw [if_pos hu, if_pos hu]
      exact hyes (hup.2 hu)
    · obtain ⟨h1, h2⟩ := hno fun h => hu (hup.1 h)
      rw [if_neg hu, if_neg hu]
      exact ⟨h1.trans hlink, h2.trans hsettling⟩

end Sys2Proof.Machine
end

section
/-! The monitors and the port status of an arm (R78, R92). -/

namespace Sys2Proof.Machine
set_option Elab.async false

-- The monitors, the faults and the port status of an arm (O33).

theorem modMon_completes {s : State} (a h : Nat) (f : HeadMon → HeadMon) : tabGet {} (getAlk (modMon a h f s) a).mons h = f (tabGet {} (getAlk s a).mons h) := by
  unfold modMon
  rw [getAlk_modAlk]
  exact tabMod_same _ _ _ _
theorem monitors_complete {s : State} (hawake : awake s = true) (arm : Fin 8) (word : Word) :
    let k := getAlk s arm
    let w := word.toNat
    let h := bitsOf 55 53 w
    let mon (t : State) : HeadMon := tabGet {} (getAlk t arm).mons h
    Completes (.laserMon arm word) s (fun t => (mon t).laserI = bitsOf 31 16 w ∧ (mon t).photo = bitsOf 15 0 w ∧ (mon t).heaterR = (mon s).heaterR) ∧
    Completes (.heaterMon arm word) s (fun t => (mon t).heaterR = bitsOf 31 16 w ∧ (mon t).contact = bitsOf 15 0 w ∧ (mon t).laserI = (mon s).laserI) ∧
    Completes (.readerMon arm word) s (fun t => (mon t).readerA = bitsOf 31 16 w ∧ (mon t).readerB = bitsOf 15 0 w ∧ (mon t).laserI = (mon s).laserI) ∧
    Completes (.supplyTelemetry arm word) s (fun t => (getAlk t arm).supply = [bitsOf 47 32 w, bitsOf 31 16 w, bitsOf 15 0 w]) ∧
    Completes (.wfifoTelemetry arm word) s (fun t => (mon t).wfifo = bitsOf 10 0 w) ∧
    Completes (.telemetryUndefined arm word) s (fun t => (getAlk t arm).msgErr = (if 0x0B < bitsOf 63 56 w then satInc 16 k.msgErr else k.msgErr)) := by
  intro k w h mon
  have hmon (f : HeadMon → HeadMon) : mon (modMon arm h f s) = f (mon s) := modMon_completes ..
  refine ⟨⟨_, if_pos hawake, ?_⟩, ⟨_, if_pos hawake, ?_⟩, ⟨_, if_pos hawake, ?_⟩, ⟨_, if_pos hawake, ?_⟩, ⟨_, if_pos hawake, ?_⟩, ⟨_, if_pos hawake, ?_⟩⟩
  · exact ⟨congrArg HeadMon.laserI (hmon _), congrArg HeadMon.photo (hmon _), (congrArg HeadMon.heaterR (hmon _)).trans rfl⟩
  · exact ⟨congrArg HeadMon.heaterR (hmon _), congrArg HeadMon.contact (hmon _), (congrArg HeadMon.laserI (hmon _)).trans rfl⟩
  · exact ⟨congrArg HeadMon.readerA (hmon _), congrArg HeadMon.readerB (hmon _), (congrArg HeadMon.laserI (hmon _)).trans rfl⟩
  · exact congrArg ArmLink.supply (getAlk_modAlk ..)
  · exact congrArg HeadMon.wfifo (hmon _)
  · split
    next hu => exact congrArg ArmLink.msgErr (getAlk_modAlk s arm fun k => { k with msgErr := satInc 16 k.msgErr })
    next hu => rfl

/-- What PORT_STATUS shows of a link (R92). -/
def portFields (s : State) (a : Nat) : Nat × Bool := ((getAlk s a).port, (getAlk s a).otherPort)
theorem shown_of_portFields {t : State} {a p : Nat} {o : Bool} (h : portFields t a = (p, o)) : (getAlk t a).port = p ∧ (getAlk t a).otherPort = o :=
  ⟨congrArg Prod.fst h, congrArg Prod.snd h⟩
theorem portFields_modAlk (b : Nat) (f : ArmLink → ArmLink) (s : State) (a : Nat) (hp : ∀ k, (f k).port = k.port := by exact fun _ => rfl)
    (ho : ∀ k, (f k).otherPort = k.otherPort := by exact fun _ => rfl) : portFields (modAlk s b f) a = portFields s a := by
  unfold portFields
  by_cases h : a = b
  · subst h
    rw [getAlk_modAlk, hp, ho]
  · rw [getAlk_modAlk_other _ _ h]
theorem portFields_of_stays {a : Nat} {s t : State} (h : LinkStays a s t) : portFields t a = portFields s a := by
  obtain ⟨-, -, -, hport, hother⟩ := h.fields
  exact Prod.ext hport hother
/-- The arms are another's: nothing more is sent to them, and their heads are dark (R92). -/
def armLost (a : Nat) (s : State) : State := armDark a (modAlk s a fun k => { k with owner := 0 })
def armsLost (s : State) : State := each (List.range 8) armLost (alkMute s)
theorem portFields_armsLost (s : State) (a : Nat) : portFields (armsLost s) a = portFields s a := by
  have hmute : portFields (alkMute s) a = portFields s a := by
    unfold alkMute alkClose alkDrop
    exact (each_proj (portFields · a) _ _ _ fun b t => portFields_modAlk ..).trans (each_proj (portFields · a) _ _ _ fun b t => portFields_modAlk ..)
  unfold armsLost
  refine (each_proj (portFields · a) _ _ _ fun b t => ?_).trans hmute
  unfold armLost portFields
  rw [getAlk_of_only a (armDark_only ..)]
  exact portFields_modAlk ..
theorem owner_armsLost (s : State) {a : Nat} (ha : a < 8) : (getAlk (armsLost s) a).owner = 0 := by
  have hdark (b e : Nat) (t : State) : getAlk (armLost b t) e = getAlk (modAlk t b fun k => { k with owner := 0 }) e := getAlk_of_only e (armDark_only ..)
  have hlost := get_each_range (get := getAlk) (g := fun _ k => { k with owner := 0 }) (f := armLost) (fun b t => by rw [hdark, getAlk_modAlk])
    (fun b e t h => by rw [hdark, getAlk_modAlk_other _ _ h]) ha (alkMute s)
  unfold armsLost
  rw [hlost]
theorem armsLost_only (s : State) : Only { alks := true, islands := true, heads := true } s (armsLost s) := by
  unfold armsLost
  exact .each (fun _ _ => (armDark_only ..).after ((modAlk_only ..).mono)) (alkMute_only s).mono
def portTaken (a : Nat) (s : State) : State := failStop 0x7C (alkCondition a 0x7C 8 false (armsLost s))
theorem portTaken_left {a : Nat} {s : State} (hdev : inService s.dev = true) (hstep : s.flt.stopStep = 0) :
    StopBegun 0x7C s (portTaken a s) ∧ (∀ b < 8, (getAlk (portTaken a s) b).owner ≠ 1) := by
  have honly := armsLost_only s
  have howner : ∀ b < 8, (getAlk (armsLost s) b).owner = 0 := fun b hb => owner_armsLost s hb
  unfold portTaken
  generalize armsLost s = u at honly howner
  refine ⟨(failStop_begun (condition_inService (by rwa [honly.dev])) ?_).of_ptn ((alkCondition_only ..).ptn.trans honly.ptn), fun b hb hone => ?_⟩
  · rw [condition_stopStep, honly.flt]
    exact hstep
  · rcases ((failStop_linkStays b 0x7C (alkCondition a 0x7C 8 false u)).after (alkCondition_linkStays ..)).owner with h | h
    · exact absurd (hone.symm.trans (h.trans (howner b hb))) (by decide)
    · exact absurd (hone.symm.trans h) (by decide)
theorem portFields_portTaken (a b : Nat) (s : State) : portFields (portTaken a s) b = portFields s b := by
  unfold portTaken
  exact (portFields_of_stays ((failStop_linkStays ..).after (alkCondition_linkStays ..))).trans (portFields_armsLost s b)
/-- The port status is noted. -/
def portNoted (a st : Nat) (other : Bool) (s : State) : State := modAlk s a fun k => { k with port := st, otherPort := other }
/-- Another owner of an arm that the part holds stops it (R92). -/
def portAnswered (a st : Nat) (s : State) : State :=
  if (getAlk s a).owner = 1 && st = 0 && (s.dev == .loading || s.dev == .ready || s.dev == .faultHold) then portTaken a s else s
theorem taken_inService {d : DevState} : d = .loading ∨ d = .ready ∨ d = .faultHold → inService d = true := by
  cases d <;> decide
theorem portStatus_completes {s : State} (hawake : awake s = true) (arm : Fin 8) : ∀ word, Completes (.portStatus arm word) s fun t =>
    let st := bitsOf 1 0 word.toNat
    let taken_ : Prop := (getAlk s arm).owner = 1 ∧ st = 0 ∧ (s.dev = .loading ∨ s.dev = .ready ∨ s.dev = .faultHold)
    (getAlk t arm).port = st ∧ (getAlk t arm).otherPort = word.getLsbD 2 ∧
    (¬ taken_ → t.dev = s.dev ∧ (getAlk t arm).owner = (getAlk s arm).owner) ∧
    (taken_ → s.flt.stopStep = 0 → StopBegun 0x7C s t ∧ ∀ a < 8, (getAlk t a).owner ≠ 1) := by
  intro word
  refine ⟨portAnswered arm (bitsOf 1 0 word.toNat) (portNoted arm (bitsOf 1 0 word.toNat) (word.getLsbD 2) s), if_pos hawake, ?_⟩
  beta_reduce
  intro st taken_
  have hnoted : getAlk (portNoted arm st (word.getLsbD 2) s) arm = { getAlk s arm with port := st, otherPort := word.getLsbD 2 } := getAlk_modAlk ..
  have honly : Only { alks := true } s (portNoted arm st (word.getLsbD 2) s) := modAlk_only ..
  have hfields : portFields (portNoted arm st (word.getLsbD 2) s) arm = (st, word.getLsbD 2) := by
    unfold portFields
    rw [hnoted]
  have howner : (getAlk (portNoted arm st (word.getLsbD 2) s) arm).owner = (getAlk s arm).owner := by rw [hnoted]
  have heq (u : State) (ho : (getAlk u arm).owner = (getAlk s arm).owner) (hd : u.dev = s.dev) : portAnswered arm st u = if taken_ then portTaken arm u else u := by
    refine if_congr ?_ rfl rfl
    rw [ho, hd]
    simp [taken_, and_assoc, or_assoc]
  rw [heq _ howner honly.dev]
  generalize portNoted arm st (word.getLsbD 2) s = u at *
  by_cases ht : taken_
  · rw [if_pos ht]
    obtain ⟨hport, hother⟩ := shown_of_portFields ((portFields_portTaken ..).trans hfields)
    refine ⟨hport, hother, fun h => absurd ht h, fun _ hstep => ?_⟩
    obtain ⟨hbegun, hnone⟩ := portTaken_left (a := arm) (s := u) (honly.dev ▸ taken_inService ht.2.2) ((congrArg Flt.stopStep honly.flt).trans hstep)
    exact ⟨hbegun.of_ptn honly.ptn, hnone⟩
  · rw [if_neg ht]
    exact ⟨congrArg Prod.fst hfields, congrArg Prod.snd hfields, fun _ => ⟨honly.dev, howner⟩, fun h => absurd h ht⟩

end Sys2Proof.Machine
end

section
/-! The faults that an arm reports of a head (Table 3.7). -/

namespace Sys2Proof.Machine
set_option Elab.async false

-- The faults that an arm reports of a head (R92, Table 3.7).

/-- Between the two states a head that was declared failed has stayed so, and so has a stop that was begun with it. -/
structure DeclaredStays (n : Nat) (s t : State) : Prop where
  core : headCore t n = headCore s n
  listed : failedList t = failedList s
  hop : t.hop = s.hop
  ptn : t.ptn = s.ptn
  step : t.flt.stopStep = s.flt.stopStep
  stopped : s.dev = .stopped → t.dev = .stopped
theorem DeclaredStays.refl {n : Nat} {s : State} : DeclaredStays n s s := ⟨rfl, rfl, rfl, rfl, rfl, id⟩
theorem DeclaredStays.after {n : Nat} {s t u : State} (h₂ : DeclaredStays n t u) (h₁ : DeclaredStays n s t) : DeclaredStays n s u :=
  ⟨h₂.core.trans h₁.core, h₂.listed.trans h₁.listed, h₂.hop.trans h₁.hop, h₂.ptn.trans h₁.ptn, h₂.step.trans h₁.step, fun h => h₂.stopped (h₁.stopped h)⟩
theorem DeclaredStays.ite {n : Nat} {s t u : State} {c : Prop} [Decidable c] (h₁ : DeclaredStays n s t) (h₂ : DeclaredStays n s u) : DeclaredStays n s (if c then t else u) := by
  split
  · exact h₁
  · exact h₂
theorem DeclaredStays.of_only {m : Units} {n : Nat} {s t : State} (h : Only m s t) (hm : m.le { alks := true, islands := true, rows := true, gov := true, slu := true, mqs := true, tx := true } = true := by rfl) :
    DeclaredStays n s t := by
  have h' : Only { alks := true, islands := true, rows := true, gov := true, slu := true, mqs := true, tx := true } s t := h.mono hm
  exact ⟨headCore_of_only h' n, failedList_of_only h', h'.hop, h'.ptn, congrArg Flt.stopStep h'.flt, h'.dev.trans⟩
theorem condition_declaredStays (n : Nat) (code master : BitVec 8) (cause : Nat) (hold : Bool) (fs : List PayField) (s : State) : DeclaredStays n s (condition code master cause hold fs s) := by
  have honly := condition_only code master cause hold fs s
  refine ⟨headCore_of_rested (condition_rested ..) n, failedList_of_only honly, honly.hop, honly.ptn, condition_stopStep .., fun h => ?_⟩
  unfold condition
  rw [report_dev_of_not_holdsFrom, (post_only ..).dev]
  · exact h
  · rw [(post_only ..).dev, h]
    rfl
theorem modHead_declaredStays (n m : Nat) (f : Head → Head) (s : State) (hfailed : ∀ d, (f d).failed = d.failed := by exact fun _ => rfl)
    (hstate : ∀ d, (f d).state = d.state := by exact fun _ => rfl) : DeclaredStays n s (modHead s m f) :=
  ⟨headCore_modHead _ _ _ _ hfailed hstate, rfl, rfl, rfl, rfl, id⟩
theorem stopWriter_declaredStays (n m : Nat) (s : State) : DeclaredStays n s (stopWriter m s) := by
  unfold stopWriter
  exact .after (modHead_declaredStays ..) (.of_only (sendWgate_only ..))
theorem writeGate_declaredStays (n m : Nat) (s : State) : DeclaredStays n s (writeGate m s) := by
  unfold writeGate
  refine .ite (.after (condition_declaredStays ..) (.after (modHead_declaredStays ..) (.after (stopWriter_declaredStays ..) (.of_only (voidArm_only ..))))) .refl
theorem declareFailed_of_failed {n : Nat} {s : State} (h : (getHead s n).failed = true) : declareFailed n s = s := if_pos h
theorem HeadDeclared.stays {n : Nat} {s t u : State} (h : HeadDeclared n s t) (hs : DeclaredStays n t u) : HeadDeclared n s u := by
  intro hsound
  obtain ⟨hf, hl, hstop⟩ := h hsound
  refine ⟨failed_of_core hs.core hf, listed_of_same hs.listed hl, fun hmax hdev hstep => ?_⟩
  obtain ⟨hclosed, hcause, hwhere, hsolo⟩ := hstop hmax hdev hstep
  refine ⟨by rw [hs.hop]; exact hclosed, by rw [hs.hop]; exact hcause, hwhere.imp hs.stopped fun h => by rw [hs.step]; exact h, fun hsync hrole => ?_⟩
  obtain ⟨hd, ha⟩ := hsolo hsync hrole
  exact ⟨hs.stopped hd, by rw [hs.ptn]; exact ha⟩
theorem writeGate_linkStays (a n : Nat) (s : State) : LinkStays a s (writeGate n s) := by
  unfold writeGate
  exact .ite (.after (condition_linkStays ..) (.after (.of_only (modHead_only ..)) (.after (stopWriter_linkStays ..) (.of_only (voidArm_only ..))))) .refl
theorem declareFailed_linkStays (a n : Nat) (s : State) : LinkStays a s (declareFailed n s) := by
  have hoff : LinkStays a s (headOff n s) := by
    unfold headOff
    exact .after (.of_only (modHead_only ..)) (.after (.of_only (modIsl_only ..)) (.after (.of_only (disableCtx_only ..)) (.after (.of_only (disableCtx_only ..))
      (.after (sendUa_linkStays ..) (.after (sendMode_linkStays ..) (.after (coolHead_linkStays ..) (stopWriter_linkStays ..)))))))
  by_cases h : (getHead s n).failed = true
  · rw [declareFailed_of_failed h]
    exact .refl
  · rw [declareFailed_eq (Bool.not_eq_true _ ▸ h)]
    exact .ite (.after (failStop_linkStays ..) (.after (.of_only (headListed_only ..)) hoff)) (.after (.of_only (startRebuild_only ..)) (.after (.of_only (headListed_only ..)) hoff))
/-- A contact takes a fifth of the head's power back (R199). -/
def contactPowered (n rd wr : Nat) (s : State) : State :=
  modHead (sendHeater (n / 8) (n % 8) rd wr true s) n fun d => { d with readPwr := rd, contact := satInc 8 d.contact }
def contactHanded (n rd : Nat) (s : State) : State :=
  if (getCtx s (72 + n)).enable then handover (72 + n) rd (modCtx s (72 + n) fun c => { c with out := rd }) else s
def contactCooled (n : Nat) (s : State) : State :=
  let rd := (getHead s n).readPwr * 4 / 5
  condition 0x3E mMotion 7 false [] (writeGate n (contactHanded n rd (contactPowered n rd (writePwr s n (getHead s n).readPwr * 4 / 5) s)))
def contactNoted (n : Nat) (s : State) : State :=
  if isVisit s (n / 8) 2 then calContact n s else modHead s n fun d => { d with contacts := now s :: recent s oneSec d.contacts }
theorem contactAct_eq (n : Nat) (s : State) : contactAct n true s =
    if 3 ≤ (getHead (contactNoted n (contactCooled n s)) n).contacts.length then declareFailed n (contactNoted n (contactCooled n s)) else contactNoted n (contactCooled n s) := by
  unfold contactAct
  extract_lets h rd wr _ _ _ _ cooled
  have hcooled : cooled = contactCooled n s := by
    unfold contactCooled
    rfl
  clear_value cooled
  subst hcooled
  exact if_pos rfl
theorem contactHanded_only (n rd : Nat) (s : State) : Only { gov := true } s (contactHanded n rd s) := by
  unfold contactHanded
  exact .ite ((handover_only ..).after (modCtx_only ..)) .refl
theorem contactPowered_declaredStays (k n rd wr : Nat) (s : State) : DeclaredStays k s (contactPowered n rd wr s) := by
  unfold contactPowered
  exact .after (modHead_declaredStays ..) (.of_only (sendHeater_only ..))
theorem contactPowered_linkStays (a n rd wr : Nat) (s : State) : LinkStays a s (contactPowered n rd wr s) := by
  unfold contactPowered
  exact .after (.of_only (modHead_only ..)) (sendHeater_linkStays ..)
theorem contactCooled_declaredStays (k n : Nat) (s : State) : DeclaredStays k s (contactCooled n s) := by
  unfold contactCooled
  exact .after (condition_declaredStays ..) (.after (writeGate_declaredStays ..) (.after (.of_only (contactHanded_only ..)) (contactPowered_declaredStays ..)))
theorem contactCooled_linkStays (a n : Nat) (s : State) : LinkStays a s (contactCooled n s) := by
  unfold contactCooled
  exact .after (condition_linkStays ..) (.after (writeGate_linkStays ..) (.after (.of_only (contactHanded_only ..)) (contactPowered_linkStays ..)))
theorem contactAct_declaredStays {n : Nat} {s : State} (h : (getHead s n).failed = true) : DeclaredStays n s (contactAct n true s) := by
  have hnoted : DeclaredStays n s (contactNoted n (contactCooled n s)) := by
    unfold contactNoted
    exact .ite (.after (.of_only (calContact_only ..)) (contactCooled_declaredStays ..)) (.after (modHead_declaredStays ..) (contactCooled_declaredStays ..))
  rw [contactAct_eq, declareFailed_of_failed (failed_of_core hnoted.core h), ite_self]
  exact hnoted
theorem contactAct_linkStays (a n : Nat) (s : State) : LinkStays a s (contactAct n true s) := by
  have hnoted : LinkStays a s (contactNoted n (contactCooled n s)) := by
    unfold contactNoted
    exact .ite (.after (.of_only (calContact_only ..)) (contactCooled_linkStays ..)) (.after (.of_only (modHead_only ..)) (contactCooled_linkStays ..))
  rw [contactAct_eq]
  exact .ite ((declareFailed_linkStays ..).after hnoted) hnoted
/-- The word is noted with its time (R78). -/
def faultNoted (arm h : Nat) (word : Word) (s : State) : State :=
  mqSend (12 + arm) [word] (modMon arm h (fun m => { m with flags := word.setWidth 14, flagsAt := now s }) s)
section
variable (n arm h : Nat) (new : Nat → Bool)
def writerFaults (s : State) : State := if (List.range 7).any new then declareFailed n (alkCondition arm 0x7D 7 false (writeGate n s)) else s
def contactFault (s : State) : State := if new 7 then contactAct n true (alkCondition arm 0x7D 7 false s) else s
def underrunFault (s : State) : State :=
  if new 8 then voidArm cutFrame arm [h] (alkCondition arm 0x7D 7 false (modHead s n fun d => { d with writing := false })) else s
def heldFault (held : Bool) (s : State) : State := if held then alkCondition arm 0x7D 7 true s else s
def voidedFault (s : State) : State := if new 9 || new 13 then voidArm cutFrame arm [h] s else s
def sentAgain (f : AlkMsg → Bool) (s : State) : State := each ((getAlk s arm).unacked.filter fun x => f x.1) (fun x s => alkPut arm x.1 s) s
def resentFault (s : State) : State := if new 13 then sentAgain arm (fun m => m.head = h) s else s
def blockFault (block : Nat) (s : State) : State :=
  if new 10 then sentAgain arm (fun m => (getAlk s arm).sentIn.contains (m.seq, block)) (voidArm cutFrame arm (List.range 8) (alkCondition arm 0x7A 8 false s)) else s
/-- What follows the faults of a writer (Table 3.7). -/
def laterFaults (flags : BitVec 14) (block : Nat) (s : State) : State :=
  heldFault arm (flags.getLsbD 11 || flags.getLsbD 12) (blockFault arm new block (resentFault arm h new (voidedFault arm h new
    (heldFault arm (flags.getLsbD 9 || flags.getLsbD 13) (underrunFault n arm h new (contactFault n arm new s))))))
theorem sentAgain_only (f : AlkMsg → Bool) (s : State) : Only { alks := true, tx := true } s (sentAgain arm f s) := by
  unfold sentAgain
  exact .each (fun _ _ => alkPut_only ..) .refl
theorem sentAgain_linkStays (a : Nat) (f : AlkMsg → Bool) (s : State) : LinkStays a s (sentAgain arm f s) := by
  unfold sentAgain
  exact .each (fun _ _ => alkPut_linkStays ..) _ _
theorem alkCondition_declaredStays (k : Nat) (code : BitVec 8) (cause : Nat) (hold : Bool) (s : State) : DeclaredStays k s (alkCondition arm code cause hold s) := by
  unfold alkCondition
  exact condition_declaredStays ..
theorem heldFault_declaredStays (held : Bool) (s : State) : DeclaredStays n s (heldFault arm held s) := by
  unfold heldFault
  exact .ite (alkCondition_declaredStays ..) .refl
theorem heldFault_linkStays (a : Nat) (held : Bool) (s : State) : LinkStays a s (heldFault arm held s) := by
  unfold heldFault
  exact .ite (alkCondition_linkStays ..) .refl
theorem voidedFault_only (s : State) : Only { rows := true, slu := true } s (voidedFault arm h new s) := by
  unfold voidedFault
  exact .ite (voidArm_only ..) .refl
theorem resentFault_only (s : State) : Only { alks := true, tx := true } s (resentFault arm h new s) := by
  unfold resentFault
  exact .ite (sentAgain_only ..) .refl
theorem resentFault_linkStays (a : Nat) (s : State) : LinkStays a s (resentFault arm h new s) := by
  unfold resentFault
  exact .ite (sentAgain_linkStays ..) .refl
theorem blockFault_declaredStays (block : Nat) (s : State) : DeclaredStays n s (blockFault arm new block s) := by
  unfold blockFault
  exact .ite (.after (.of_only (sentAgain_only ..)) (.after (.of_only (voidArm_only ..)) (alkCondition_declaredStays ..))) .refl
theorem blockFault_linkStays (a block : Nat) (s : State) : LinkStays a s (blockFault arm new block s) := by
  unfold blockFault
  exact .ite (.after (sentAgain_linkStays ..) (.after (.of_only (voidArm_only ..)) (alkCondition_linkStays ..))) .refl
theorem underrunFault_declaredStays (s : State) : DeclaredStays n s (underrunFault n arm h new s) := by
  unfold underrunFault
  exact .ite (.after (.of_only (voidArm_only ..)) (.after (alkCondition_declaredStays ..) (modHead_declaredStays ..))) .refl
theorem underrunFault_linkStays (a : Nat) (s : State) : LinkStays a s (underrunFault n arm h new s) := by
  unfold underrunFault
  exact .ite (.after (.of_only (voidArm_only ..)) (.after (alkCondition_linkStays ..) (.of_only (modHead_only ..)))) .refl
theorem contactFault_linkStays (a : Nat) (s : State) : LinkStays a s (contactFault n arm new s) := by
  unfold contactFault
  exact .ite (.after (contactAct_linkStays ..) (alkCondition_linkStays ..)) .refl
theorem contactFault_declaredStays {s : State} (hf : (getHead s n).failed = true) : DeclaredStays n s (contactFault n arm new s) := by
  have hnoted := alkCondition_declaredStays arm n 0x7D 7 false s
  unfold contactFault
  exact .ite (.after (contactAct_declaredStays (failed_of_core hnoted.core hf)) hnoted) .refl
theorem laterFaults_linkStays (a : Nat) (flags : BitVec 14) (block : Nat) (s : State) : LinkStays a s (laterFaults n arm h new flags block s) := by
  unfold laterFaults
  exact .after (heldFault_linkStays ..) (.after (blockFault_linkStays ..) (.after (resentFault_linkStays ..) (.after (.of_only (voidedFault_only ..))
    (.after (heldFault_linkStays ..) (.after (underrunFault_linkStays ..) (contactFault_linkStays ..))))))
theorem laterFaults_declaredStays (flags : BitVec 14) (block : Nat) {s : State} (hf : (getHead s n).failed = true) : DeclaredStays n s (laterFaults n arm h new flags block s) := by
  unfold laterFaults
  exact .after (heldFault_declaredStays ..) (.after (blockFault_declaredStays ..) (.after (.of_only (resentFault_only ..)) (.after (.of_only (voidedFault_only ..))
    (.after (heldFault_declaredStays ..) (.after (underrunFault_declaredStays ..) (contactFault_declaredStays n arm new hf))))))
theorem writerFaults_linkStays (a : Nat) (s : State) : LinkStays a s (writerFaults n arm new s) := by
  unfold writerFaults
  exact .ite (.after (declareFailed_linkStays ..) (.after (alkCondition_linkStays ..) (writeGate_linkStays ..))) .refl
/-- A fault of its writer has the head declared failed (Table 3.7). -/
theorem writerFaults_declared {i : Nat} (hi : i < 7) (hnew : new i = true) (s : State) : HeadDeclared n s (writerFaults n arm new s) := by
  have hany : (List.range 7).any new = true := List.any_eq_true.2 ⟨i, List.mem_range.2 hi, hnew⟩
  have hstays : DeclaredStays n s (alkCondition arm 0x7D 7 false (writeGate n s)) := (alkCondition_declaredStays ..).after (writeGate_declaredStays ..)
  have hdev : (alkCondition arm 0x7D 7 false (writeGate n s)).dev = s.dev := condition_dev.trans (writeGate_dev ..)
  have honly : (alkCondition arm 0x7D 7 false (writeGate n s)).img = s.img ∧ (alkCondition arm 0x7D 7 false (writeGate n s)).layout = s.layout :=
    ⟨(alkCondition_only ..).img.trans (writeGate_only ..).img, (alkCondition_only ..).layout.trans (writeGate_only ..).layout⟩
  rw [writerFaults, if_pos hany]
  generalize alkCondition arm 0x7D 7 false (writeGate n s) = u at *
  exact (declareFailed_declared n u).of_same (congrArg Prod.fst hstays.core) honly.1 honly.2 hstays.ptn (fun h => by rwa [hdev]) hstays.step
theorem laterFaults_declared {i : Nat} (hi : i < 7) (hnew : new i = true) (flags : BitVec 14) (block : Nat) (s : State) :
    HeadDeclared n s (laterFaults n arm h new flags block (writerFaults n arm new s)) := by
  intro hsound
  have hdecl := writerFaults_declared n arm new hi hnew s
  exact hdecl.stays (laterFaults_declaredStays n arm h new flags block (hdecl hsound).1) hsound
end

end Sys2Proof.Machine
end

section
/-! The telemetry of an arm (O33). -/

namespace Sys2Proof.Machine
set_option Elab.async false

-- The faults that hold the part (Table 3.7), and the telemetry of an arm (O33).

/-- Between the two states the part was neither held nor released, and what holds it stands. -/
structure HoldStays (s t : State) : Prop where
  dev : t.dev = s.dev
  cause : t.flt.holdCause = s.flt.holdCause
theorem HoldStays.refl {s : State} : HoldStays s s := ⟨rfl, rfl⟩
theorem HoldStays.after {s t u : State} (h₂ : HoldStays t u) (h₁ : HoldStays s t) : HoldStays s u := ⟨h₂.dev.trans h₁.dev, h₂.cause.trans h₁.cause⟩
theorem HoldStays.ite {s t u : State} {c : Prop} [Decidable c] (h₁ : HoldStays s t) (h₂ : HoldStays s u) : HoldStays s (if c then t else u) := by
  split
  · exact h₁
  · exact h₂
theorem HoldStays.of_only {m : Units} {s t : State} (h : Only m s t) (hd : m.dev = false := by rfl) (hf : m.flt = false := by rfl) : HoldStays s t :=
  ⟨h.dev hd, congrArg Flt.holdCause (h.flt hf)⟩
theorem captureFirst_holdCause (rs : List Report) (s : State) : (captureFirst rs s).flt.holdCause = s.flt.holdCause := by
  unfold captureFirst
  extract_lets cs
  split
  · rfl
  · extract_lets
    split
    · split
      · rw [(traceFire_only ..).flt]
      · rfl
    · split
      · rfl
      · rfl
theorem countReport_holdCause (r : Report) (s : State) : (countReport r s).flt.holdCause = s.flt.holdCause := by
  unfold countReport
  split
  · rfl
  · rfl
/-- What a report does before it holds the part. -/
def reportNoted (r : Report) (s : State) : State := captureFirst [r] (mqNote 20 (countReport r s))
theorem reportNoted_holdStays (r : Report) (s : State) : HoldStays s (reportNoted r s) := by
  unfold reportNoted
  exact .after ⟨(captureFirst_only ..).dev, captureFirst_holdCause ..⟩ (.after (.of_only (mqNote_only ..)) ⟨(countReport_only ..).dev, countReport_holdCause ..⟩)
theorem report_eq (r : Report) (s : State) : report r s = if r.hold then enterHold r.event r.injected (reportNoted r s) else reportNoted r s := by
  unfold report reportAll
  cases h : r.hold with
  | false =>
    rw [List.filter_cons_of_neg (by simp [h]), List.filter_nil]
    rfl
  | true =>
    rw [List.filter_cons_of_pos h, List.filter_nil]
    rfl
theorem condition_holdStays (code master : BitVec 8) (cause : Nat) (fs : List PayField) (s : State) : HoldStays s (condition code master cause false fs s) := by
  unfold condition
  rw [report_eq]
  exact .after (reportNoted_holdStays ..) (.of_only (post_only ..))
/-- The part is held by `code`. -/
def HeldBy (code : BitVec 8) (s : State) : Prop := s.dev = .faultHold ∧ s.flt.holdCause = code
theorem HeldBy.stays {code : BitVec 8} {s t : State} (h : HeldBy code s) (hs : HoldStays s t) : HeldBy code t := ⟨hs.dev.trans h.1, hs.cause.trans h.2⟩
theorem enterHold_held {code : BitVec 8} {injected : Bool} {s : State} (h : holdsFrom s.dev = true ∨ s.dev = .faultHold) : HeldBy code (enterHold code injected s) := by
  by_cases hfrom : holdsFrom s.dev = true
  · exact enterHold_of_holds hfrom
  · have hdev := h.resolve_left hfrom
    unfold enterHold
    rw [if_neg hfrom, if_pos hdev]
    exact ⟨hdev, rfl⟩
theorem condition_held {code master : BitVec 8} {cause : Nat} {fs : List PayField} {s : State} (h : holdsFrom s.dev = true ∨ s.dev = .faultHold) :
    HeldBy code (condition code master cause true fs s) := by
  unfold condition
  rw [report_eq]
  refine enterHold_held ?_
  rwa [(reportNoted_holdStays ..).dev, (post_only ..).dev]
/-- The part is held where `held`, and else may be. -/
def MayHold (held : Bool) (s : State) : Prop := if held then HeldBy 0x7D s else holdsFrom s.dev = true
theorem MayHold.stays {held : Bool} {s t : State} (h : MayHold held s) (hs : HoldStays s t) : MayHold held t := by
  cases held with
  | false => exact (congrArg holdsFrom hs.dev).trans h
  | true => exact HeldBy.stays h hs
theorem heldFault_mayHold (arm : Nat) (held more : Bool) {s : State} (h : MayHold held s) : MayHold (held || more) (heldFault arm more s) := by
  cases more with
  | false =>
    rw [Bool.or_false]
    exact h
  | true =>
    rw [Bool.or_true]
    refine condition_held ?_
    cases held with
    | false => exact .inl h
    | true => exact .inr (And.left h)
theorem blockFault_holdStays (arm : Nat) (new : Nat → Bool) (block : Nat) (s : State) : HoldStays s (blockFault arm new block s) := by
  unfold blockFault alkCondition
  exact .ite (.after (.of_only (sentAgain_only ..)) (.after (.of_only (voidArm_only ..)) (condition_holdStays ..))) .refl
theorem laterFaults_of_held {n arm h : Nat} {new : Nat → Bool} {flags : BitVec 14} {block : Nat} {s : State} (h7 : new 7 = false) (h8 : new 8 = false)
    (hfrom : holdsFrom s.dev = true) : MayHold ((flags.getLsbD 9 || flags.getLsbD 13) || (flags.getLsbD 11 || flags.getLsbD 12)) (laterFaults n arm h new flags block s) := by
  have hcontact : contactFault n arm new s = s := if_neg (by rw [h7]; decide)
  have hunderrun : underrunFault n arm h new s = s := if_neg (by rw [h8]; decide)
  unfold laterFaults
  rw [hcontact, hunderrun]
  refine heldFault_mayHold arm _ _ (.stays (.stays (.stays ?_ (.of_only (voidedFault_only ..))) (.of_only (resentFault_only ..))) (blockFault_holdStays ..))
  exact heldFault_mayHold arm false _ hfrom
/-- A word that shows no fault has none answered. -/
theorem laterFaults_of_none {n arm h : Nat} {new : Nat → Bool} {flags : BitVec 14} {block : Nat} {s : State} (hnew : ∀ i, 7 ≤ i → i < 14 → new i = false)
    (hflags : ∀ i, 9 ≤ i → i < 14 → flags.getLsbD i = false) : laterFaults n arm h new flags block s = s := by
  have hheld (u : State) : heldFault arm false u = u := rfl
  unfold laterFaults contactFault underrunFault voidedFault resentFault blockFault
  rw [hflags 9 (by omega) (by omega), hflags 11 (by omega) (by omega), hflags 12 (by omega) (by omega), hflags 13 (by omega) (by omega)]
  simp [hnew, hheld]
theorem writerFaults_of_none {n arm : Nat} {new : Nat → Bool} {s : State} (hnew : ∀ i < 7, new i = false) : writerFaults n arm new s = s := by
  refine if_neg ?_
  rw [List.any_eq_true]
  rintro ⟨i, hi, h⟩
  rw [hnew i (List.mem_range.1 hi)] at h
  exact absurd h (by decide)
theorem faultNoted_only (arm h : Nat) (word : Word) (s : State) : Only { alks := true, mqs := true, tx := true } s (faultNoted arm h word s) := by
  unfold faultNoted
  exact mqSend_modMon_dev ..
theorem faultNoted_mon (arm h : Nat) (word : Word) (s : State) :
    (tabGet {} (getAlk (faultNoted arm h word s) arm).mons h).flags = word.setWidth 14 ∧ (tabGet {} (getAlk (faultNoted arm h word s) arm).mons h).flagsAt = now s := by
  unfold faultNoted
  rw [getAlk_of_only arm (mqSend_only ..), modMon_completes]
  exact ⟨rfl, rfl⟩
theorem faultTelemetry_completes {s : State} (hawake : awake s = true) (arm : Fin 8) (word : Word) :
    let h := bitsOf 55 53 word.toNat
    let mon (t : State) : HeadMon := tabGet {} (getAlk t arm).mons h
    Completes (.faultTelemetry arm word) s fun t =>
      let n := 8 * arm.val + h
      let old : BitVec 14 := if since s (mon s).flagsAt ≤ 100000 then (mon s).flags else 0
      let fresh (i : Nat) : Prop := word.getLsbD i = true ∧ old.getLsbD i = false
      (mon t).flags = word.setWidth 14 ∧ (mon t).flagsAt = now s ∧
      ((∃ i < 7, fresh i) → HeadDeclared n s t) ∧
      (word.getLsbD 9 = true ∨ word.getLsbD 11 = true ∨ word.getLsbD 12 = true ∨ word.getLsbD 13 = true → holdsFrom s.dev = true → (∀ i < 9, word.getLsbD i = false) → t.dev = .faultHold ∧ t.flt.holdCause = 0x7D) ∧
      ((∀ i < 14, word.getLsbD i = false) → t.dev = s.dev ∧ t.heads = s.heads) := by
  intro h mon
  refine ⟨laterFaults (8 * arm.val + h) arm h (fun i => (word.setWidth 14 : BitVec 14).getLsbD i && !(if since s (mon s).flagsAt ≤ 100000 then (mon s).flags else 0).getLsbD i)
    (word.setWidth 14) (bitsOf 40 32 word.toNat) (writerFaults (8 * arm.val + h) arm
      (fun i => (word.setWidth 14 : BitVec 14).getLsbD i && !(if since s (mon s).flagsAt ≤ 100000 then (mon s).flags else 0).getLsbD i) (faultNoted arm h word s)), if_pos hawake, ?_⟩
  beta_reduce
  intro n old fresh
  have hflag (i : Nat) (hi : i < 14) : (word.setWidth 14 : BitVec 14).getLsbD i = word.getLsbD i := by
    rw [BitVec.getLsbD_setWidth, decide_eq_true hi, Bool.true_and]
  have hnew (i : Nat) (hi : i < 14) : ((word.setWidth 14 : BitVec 14).getLsbD i && !old.getLsbD i) = (word.getLsbD i && !old.getLsbD i) := by rw [hflag i hi]
  have hnone (i : Nat) (hi : i < 14) (hw : word.getLsbD i = false) : ((word.setWidth 14 : BitVec 14).getLsbD i && !old.getLsbD i) = false := by rw [hnew i hi, hw, Bool.false_and]
  have honly := faultNoted_only arm h word s
  obtain ⟨hflags, hat⟩ := faultNoted_mon arm h word s
  have hstay : LinkStays arm (faultNoted arm h word s) (laterFaults n arm h (fun i => (word.setWidth 14 : BitVec 14).getLsbD i && !old.getLsbD i) (word.setWidth 14) (bitsOf 40 32 word.toNat)
    (writerFaults n arm (fun i => (word.setWidth 14 : BitVec 14).getLsbD i && !old.getLsbD i) (faultNoted arm h word s))) := (laterFaults_linkStays ..).after (writerFaults_linkStays ..)
  obtain ⟨-, -, hmons, -⟩ := hstay.fields
  refine ⟨?_, ?_, ?_, fun hheld hfrom hrest => ?_, fun hrest => ?_⟩
  · exact (congrArg (fun ms => (tabGet {} ms h : HeadMon).flags) hmons).trans hflags
  · exact (congrArg (fun ms => (tabGet {} ms h : HeadMon).flagsAt) hmons).trans hat
  · rintro ⟨i, hi, hw, ho⟩
    refine (laterFaults_declared n arm h _ hi ?_ _ _ _).of_same ?_ honly.img honly.layout honly.ptn (fun hd => by rwa [honly.dev]) (congrArg Flt.stopStep honly.flt)
    · rw [hnew i (by omega), hw, ho]
      rfl
    · rw [getHead_of_only n honly]
  · rw [writerFaults_of_none fun i hi => hnone i (by omega) (hrest i (by omega))]
    have hmay := laterFaults_of_held (n := n) (arm := arm) (h := h) (new := fun i => (word.setWidth 14 : BitVec 14).getLsbD i && !old.getLsbD i) (flags := word.setWidth 14)
      (block := bitsOf 40 32 word.toNat) (s := faultNoted arm h word s) (hnone 7 (by omega) (hrest 7 (by omega))) (hnone 8 (by omega) (hrest 8 (by omega))) (by rwa [honly.dev])
    have hany : (((word.setWidth 14 : BitVec 14).getLsbD 9 || (word.setWidth 14 : BitVec 14).getLsbD 13) || ((word.setWidth 14 : BitVec 14).getLsbD 11 || (word.setWidth 14 : BitVec 14).getLsbD 12)) = true := by
      rw [hflag 9 (by omega), hflag 11 (by omega), hflag 12 (by omega), hflag 13 (by omega)]
      rcases hheld with hw | hw | hw | hw
      · rw [hw]; simp
      · rw [hw]; simp
      · rw [hw]; simp
      · rw [hw]; simp
    rw [hany] at hmay
    exact hmay
  · rw [writerFaults_of_none fun i hi => hnone i (by omega) (hrest i (by omega)),
      laterFaults_of_none (fun i _ hi => hnone i hi (hrest i hi)) fun i _ hi => (hflag i hi).trans (hrest i hi)]
    exact ⟨honly.dev, honly.heads⟩
/-- Settles O33, command by command: answers settle their messages and the link that waits for them, telemetry stands in its fields, and faults are
followed through the stops and reports that they lead to. -/
theorem armTelemetryIsTaken : Obligations.ArmTelemetryIsTaken := by
  unfold Obligations.ArmTelemetryIsTaken
  intro s hawake arm k msg
  refine ⟨ackTimeout_completes hawake arm, ackTelemetry_completes hawake arm, fun word => ?_, portStatus_completes hawake arm⟩
  obtain ⟨hlaser, hheater, hreader, hsupply, hfifo, hundefined⟩ := monitors_complete hawake arm word
  exact ⟨hlaser, hheater, hreader, hsupply, hfifo, hundefined, faultTelemetry_completes hawake arm word⟩

end Sys2Proof.Machine
end

section
/-! Lane swaps of an arm link (R95, R96). -/

namespace Sys2Proof.Machine
set_option Elab.async false

-- Lane swaps of an arm link (R95, R96).

/-- The lane that a link leaves out in a direction, as its last LANE_MAP has it. -/
def mappedOut (up : Bool) (k : ArmLink) : Nat := if up then (alkOut k).1 else (alkOut k).2
def spareGood (up : Bool) (k : ArmLink) : Bool := if up then k.upSpareOk else k.dnSpareOk
/-- What of a link speaks of its lanes. -/
structure LaneView where
  link : Nat
  upOut : Nat
  dnOut : Nat
  upSpareOk : Bool
  dnSpareOk : Bool
  mapAt : Option (Nat × Nat × Nat)
def laneView (k : ArmLink) : LaneView := ⟨k.link, k.upOut, k.dnOut, k.upSpareOk, k.dnSpareOk, k.mapAt⟩
def LaneView.out (v : LaneView) : Nat × Nat := match v.mapAt with
  | some (_, up, dn) => (up, dn)
  | none => (v.upOut, v.dnOut)
theorem laneView_out (k : ArmLink) : (laneView k).out = alkOut k := rfl
theorem mappedOut_of_view {up : Bool} {k k' : ArmLink} (h : laneView k' = laneView k) : mappedOut up k' = mappedOut up k := by
  unfold mappedOut
  rw [← laneView_out, ← laneView_out, h]
theorem spareGood_of_view {up : Bool} {k k' : ArmLink} (h : laneView k' = laneView k) : spareGood up k' = spareGood up k := by
  unfold spareGood
  rw [show k'.upSpareOk = k.upSpareOk from congrArg LaneView.upSpareOk h, show k'.dnSpareOk = k.dnSpareOk from congrArg LaneView.dnSpareOk h]
theorem LinkStays.view {a : Nat} {s t : State} (h : LinkStays a s t) : laneView (getAlk t a) = laneView (getAlk s a) :=
  (rfl : laneView (getAlk t a) = laneView (linkCore t a)).trans ((congrArg laneView h.core).trans rfl)
/-- The spare of the direction is taken, and LANE_MAP goes out (R95). -/
def spareTaken (up : Bool) (k : ArmLink) : ArmLink := if up then { k with upSpareOk := false, link := 3 } else { k with dnSpareOk := false, link := 3 }
def spareFailed (up : Bool) (k : ArmLink) : ArmLink := if up then { k with upSpareOk := false } else { k with dnSpareOk := false }
theorem spareTaken_fields (up : Bool) (k : ArmLink) : (spareTaken up k).link = 3 ∧ spareGood up (spareTaken up k) = false ∧ (spareTaken up k).seq = k.seq ∧
    (spareTaken up k).muted = k.muted ∧ (spareTaken up k).upOut = k.upOut ∧ (spareTaken up k).dnOut = k.dnOut := by
  cases up with
  | false => exact ⟨rfl, rfl, rfl, rfl, rfl, rfl⟩
  | true => exact ⟨rfl, rfl, rfl, rfl, rfl, rfl⟩
theorem spareFailed_fields (up : Bool) (k : ArmLink) : mappedOut up (spareFailed up k) = mappedOut up k ∧ spareGood up (spareFailed up k) = false := by
  cases up with
  | false => exact ⟨rfl, rfl⟩
  | true => exact ⟨rfl, rfl⟩
/-- LANE_MAP is sent (R95): at once, or with the tick from which it holds. -/
def laneMapNoted (atOnce : Bool) (tick u d : Nat) (k : ArmLink) : ArmLink := if atOnce then { k with upOut := u, dnOut := d, mapAt := none } else { k with mapAt := some (tick, u, d) }
theorem laneMapNoted_fields (atOnce : Bool) (tick u d : Nat) (k : ArmLink) : alkOut (laneMapNoted atOnce tick u d k) = (u, d) ∧ (laneMapNoted atOnce tick u d k).link = k.link ∧
    (∀ up, spareGood up (laneMapNoted atOnce tick u d k) = spareGood up k) ∧
    (laneMapNoted atOnce tick u d k).seq = k.seq ∧ (laneMapNoted atOnce tick u d k).muted = k.muted ∧
    (if atOnce then (laneMapNoted atOnce tick u d k).mapAt = none else (laneMapNoted atOnce tick u d k).mapAt.map (·.1) = some tick ∧
      (laneMapNoted atOnce tick u d k).upOut = k.upOut ∧ (laneMapNoted atOnce tick u d k).dnOut = k.dnOut) := by
  cases atOnce with
  | false => exact ⟨rfl, rfl, fun _ => rfl, rfl, rfl, rfl, rfl, rfl⟩
  | true => exact ⟨rfl, rfl, fun _ => rfl, rfl, rfl, rfl⟩
theorem sendLaneMap_eq (a : Nat) (atOnce : Bool) (u d : Nat) (s : State) : sendLaneMap a atOnce u d s =
    alkSend a 0x0E 0 atOnce (if atOnce then 0 else linkTick s + 560000) [w64 (u + 256 * d)] (modAlk s a (laneMapNoted atOnce (linkTick s + 560000) u d)) := rfl
theorem sendLaneMap_view (a : Nat) (atOnce : Bool) (u d : Nat) (s : State) :
    laneView (getAlk (sendLaneMap a atOnce u d s) a) = laneView (laneMapNoted atOnce (linkTick s + 560000) u d (getAlk s a)) := by
  rw [sendLaneMap_eq, (alkSend_linkStays ..).view, getAlk_modAlk]
theorem alkSend_sends {a type head : Nat} {imm : Bool} {apply : Nat} {payload : List Word} {s : State} (hup : alkUp s a = true) (hmuted : (getAlk s a).muted = false) :
    .alk a { type, head, ackReq := !noAck type, seq := (getAlk s a).seq, imm, apply := apply % 2 ^ 39, payload } ∈ (alkSend a type head imm apply payload s).tx := by
  unfold alkSend
  rw [if_pos (by rw [hup, hmuted]; rfl), tx_alkPut]
  exact List.mem_append_right _ (List.mem_singleton_self _)
theorem sendLaneMap_sends {a : Nat} {atOnce : Bool} {u d : Nat} {s : State} (hup : alkUp s a = true) (hmuted : (getAlk s a).muted = false) :
    .alk a { type := 0x0E, ackReq := true, seq := (getAlk s a).seq, imm := atOnce, apply := if atOnce then 0 else (linkTick s + 560000) % 2 ^ 39, payload := [BitVec.ofNat 64 (u + 256 * d)] } ∈
      (sendLaneMap a atOnce u d s).tx := by
  obtain ⟨-, hlink, -, hseq, hm, -⟩ := laneMapNoted_fields atOnce (linkTick s + 560000) u d (getAlk s a)
  have hsent := alkSend_sends (a := a) (type := 0x0E) (head := 0) (imm := atOnce) (apply := if atOnce then 0 else linkTick s + 560000) (payload := [w64 (u + 256 * d)])
    (s := modAlk s a (laneMapNoted atOnce (linkTick s + 560000) u d)) (by unfold alkUp at hup ⊢; rw [getAlk_modAlk, hlink]; exact hup) (by rw [getAlk_modAlk, hm]; exact hmuted)
  rw [getAlk_modAlk, hseq] at hsent
  rw [sendLaneMap_eq]
  have happly : (if atOnce then 0 else linkTick s + 560000) % 2 ^ 39 = if atOnce then 0 else (linkTick s + 560000) % 2 ^ 39 := by
    cases atOnce with
    | false => simp only [Bool.false_eq_true, if_false]
    | true => simp only [if_true, Nat.zero_mod]
  rw [happly] at hsent
  exact hsent
/-- What a failing lane leads to (R95, R96). -/
def LaneSwapped (arm : Fin 8) (up atOnce : Bool) (lane : Nat) (s t : State) : Prop :=
  let k := getAlk s arm
  let out := if up then (alkOut k).1 else (alkOut k).2
  let free : Prop := out = if up then 31 else 3
  let spare : Prop := lane = if up then 18 else 2
  let spareOk := if up then k.upSpareOk else k.dnSpareOk
  let outAfter := if up then (alkOut (getAlk t arm)).1 else (alkOut (getAlk t arm)).2
  let laneMap : AlkMsg := {
    type := 0x0E, ackReq := true, seq := k.seq, imm := atOnce, apply := if atOnce then 0 else (linkTick s + 560000) % 2 ^ 39,
    payload := [BitVec.ofNat 64 (if up then lane + 256 * (alkOut k).2 else (alkOut k).1 + 256 * lane)] }
  let okAfter := if up then (getAlk t arm).upSpareOk else (getAlk t arm).dnSpareOk
  (alkUp s arm = false ∨ out = lane → outAfter = out ∧ (getAlk t arm).link = k.link ∧ t.dev = s.dev) ∧
  (alkUp s arm = true → out ≠ lane → free → spare → outAfter = out ∧ okAfter = false ∧ t.dev = s.dev) ∧
  (alkUp s arm = true → free → ¬ spare → spareOk = true → out ≠ lane → outAfter = lane ∧ okAfter = false ∧ (getAlk t arm).link = 3 ∧
    (if atOnce then (getAlk t arm).mapAt = none else (getAlk t arm).mapAt.map (·.1) = some (linkTick s + 560000) ∧ (getAlk t arm).upOut = k.upOut ∧ (getAlk t arm).dnOut = k.dnOut) ∧
    (k.muted = false → .alk arm laneMap ∈ t.tx)) ∧
  (alkUp s arm = true → out ≠ lane → ¬ free ∨ (¬ spare ∧ spareOk = false) → inService s.dev = true → s.flt.stopStep = 0 → StopBegun 0x7B s t)
/-- The pair of lanes out with `lane` in the failing direction. -/
def mappedPair (up : Bool) (lane : Nat) (o : Nat × Nat) : Nat × Nat := (if up then lane else o.1, if up then o.2 else lane)
def swapMapped (a : Nat) (up atOnce : Bool) (lane : Nat) (s : State) : State :=
  sendLaneMap a atOnce (mappedPair up lane (alkOut (getAlk s a))).1 (mappedPair up lane (alkOut (getAlk s a))).2 (modAlk s a (spareTaken up))
def noLaneOut (up : Bool) : Nat := if up then 31 else 3
def spareLaneOf (up : Bool) : Nat := if up then 18 else 2
theorem alkSwap_eq (a : Nat) (up : Bool) (lane : Nat) (atOnce : Bool) (s : State) : alkSwap a up lane atOnce s =
    if !alkUp s a || mappedOut up (getAlk s a) = lane then s
    else if mappedOut up (getAlk s a) = noLaneOut up && lane = spareLaneOf up then modAlk s a (spareFailed up)
    else if mappedOut up (getAlk s a) = noLaneOut up && spareGood up (getAlk s a) then alkCondition a 0x79 8 false (swapMapped a up atOnce lane s)
    else failStop 0x7B (alkCondition a 0x7B 8 false s) := rfl
theorem swapMapped_left (a : Nat) (up atOnce : Bool) (lane : Nat) (s : State) :
    laneView (getAlk (swapMapped a up atOnce lane s) a) =
      laneView (laneMapNoted atOnce (linkTick s + 560000) (mappedPair up lane (alkOut (getAlk s a))).1 (mappedPair up lane (alkOut (getAlk s a))).2 (spareTaken up (getAlk s a))) := by
  unfold swapMapped
  rw [sendLaneMap_view, getAlk_modAlk]
  rfl
theorem swapMapped_sends {a : Nat} {up atOnce : Bool} {lane : Nat} {s : State} (hmuted : (getAlk s a).muted = false) :
    .alk a { type := 0x0E, ackReq := true, seq := (getAlk s a).seq, imm := atOnce, apply := if atOnce then 0 else (linkTick s + 560000) % 2 ^ 39, payload := [BitVec.ofNat 64 ((mappedPair up lane (alkOut (getAlk s a))).1 + 256 * (mappedPair up lane (alkOut (getAlk s a))).2)] } ∈ (swapMapped a up atOnce lane s).tx := by
  obtain ⟨hlink, -, hseq, hm, -⟩ := spareTaken_fields up (getAlk s a)
  have hsent := sendLaneMap_sends (a := a) (atOnce := atOnce) (u := (mappedPair up lane (alkOut (getAlk s a))).1) (d := (mappedPair up lane (alkOut (getAlk s a))).2)
    (s := modAlk s a (spareTaken up)) (by unfold alkUp; rw [getAlk_modAlk, hlink]; rfl) (by rw [getAlk_modAlk, hm]; exact hmuted)
  rw [getAlk_modAlk, hseq] at hsent
  exact hsent
theorem alkCondition_quiet_only (a : Nat) (code : BitVec 8) (cause : Nat) (s : State) :
    Only { evt := true, flt := true, mqs := true, gov := true, tx := true, free := true } s (alkCondition a code cause false s) := condition_quiet_only ..
theorem pairPayload (up : Bool) (lane : Nat) (o : Nat × Nat) :
    (mappedPair up lane o).1 + 256 * (mappedPair up lane o).2 = if up then lane + 256 * o.2 else o.1 + 256 * lane := by
  cases up with
  | false => rfl
  | true => rfl
theorem mappedPair_out (up : Bool) (lane : Nat) (o : Nat × Nat) : (if up then (mappedPair up lane o).1 else (mappedPair up lane o).2) = lane := by
  cases up with
  | false => rfl
  | true => rfl
/-- What LANE_MAP leaves of the link (R95). -/
theorem laneMapSent_left {up atOnce : Bool} {lane tick : Nat} {k k' : ArmLink}
    (h : laneView k' = laneView (laneMapNoted atOnce tick (mappedPair up lane (alkOut k)).1 (mappedPair up lane (alkOut k)).2 (spareTaken up k))) :
    (if up then (alkOut k').1 else (alkOut k').2) = lane ∧ (if up then k'.upSpareOk else k'.dnSpareOk) = false ∧ k'.link = 3 ∧
      (if atOnce then k'.mapAt = none else k'.mapAt.map (·.1) = some tick ∧ k'.upOut = k.upOut ∧ k'.dnOut = k.dnOut) := by
  obtain ⟨hlink3, hok, -, -, hu, hd⟩ := spareTaken_fields up k
  obtain ⟨hpair, hlink, hgood, -, -, hat⟩ := laneMapNoted_fields atOnce tick (mappedPair up lane (alkOut k)).1 (mappedPair up lane (alkOut k)).2 (spareTaken up k)
  refine ⟨?_, (spareGood_of_view h).trans ((hgood up).trans hok), (congrArg LaneView.link h).trans (hlink.trans hlink3), ?_⟩
  · refine (mappedOut_of_view (up := up) h).trans ?_
    unfold mappedOut
    rw [hpair]
    exact mappedPair_out ..
  · have hmapAt := congrArg LaneView.mapAt h
    have hupOut := congrArg LaneView.upOut h
    have hdnOut := congrArg LaneView.dnOut h
    cases atOnce with
    | true => exact hmapAt.trans hat
    | false =>
      obtain ⟨h1, h2, h3⟩ := hat
      exact ⟨(congrArg (Option.map Prod.fst) hmapAt).trans h1, hupOut.trans (h2.trans hu), hdnOut.trans (h3.trans hd)⟩
/-- The four answers to a failing lane: none, the spare's own failure, its LANE_MAP, and the stop (R95, R96). -/
theorem alkSwap_swapped (arm : Fin 8) (up atOnce : Bool) (lane : Nat) (s : State) : LaneSwapped arm up atOnce lane s (alkSwap arm up lane atOnce s) := by
  rw [alkSwap_eq]
  by_cases hstill : alkUp s arm = false ∨ mappedOut up (getAlk s arm) = lane
  · rw [if_pos (by simpa using hstill)]
    have hne (hup : alkUp s arm = true) : mappedOut up (getAlk s arm) = lane := hstill.resolve_left (by rw [hup]; decide)
    exact ⟨fun _ => ⟨rfl, rfl, rfl⟩, fun hup hout => absurd (hne hup) hout, fun hup _ _ _ hout => absurd (hne hup) hout, fun hup hout => absurd (hne hup) hout⟩
  rw [if_neg (by simpa using hstill)]
  by_cases hspare : mappedOut up (getAlk s arm) = noLaneOut up ∧ lane = spareLaneOf up
  · rw [if_pos (by simpa using hspare)]
    obtain ⟨hout, hok⟩ := spareFailed_fields up (getAlk s arm)
    have hk : getAlk (modAlk s arm (spareFailed up)) arm = spareFailed up (getAlk s arm) := getAlk_modAlk ..
    refine ⟨fun h => absurd h hstill, fun _ _ _ _ => ⟨?_, ?_, rfl⟩, fun _ _ h => absurd hspare.2 h, fun _ _ h => absurd h ?_⟩
    · exact (congrArg (mappedOut up) hk).trans hout
    · exact (congrArg (spareGood up) hk).trans hok
    · rintro (h | ⟨h, -⟩)
      · exact h hspare.1
      · exact h hspare.2
  rw [if_neg (by simpa using hspare)]
  by_cases hmap : mappedOut up (getAlk s arm) = noLaneOut up ∧ spareGood up (getAlk s arm) = true
  · rw [if_pos (by simpa using hmap)]
    have honly := alkCondition_quiet_only arm 0x79 8 (swapMapped arm up atOnce lane s)
    have hleft := laneMapSent_left ((congrArg laneView (getAlk_of_only arm honly)).trans (swapMapped_left arm up atOnce lane s))
    have hsent (hmuted : (getAlk s arm).muted = false) := mem_tx_of_only honly (swapMapped_sends (up := up) (atOnce := atOnce) (lane := lane) hmuted)
    rw [pairPayload] at hsent
    generalize alkCondition arm 0x79 8 false (swapMapped arm up atOnce lane s) = t at hleft hsent
    obtain ⟨hout, hok, hlink, hat⟩ := hleft
    refine ⟨fun h => absurd h hstill, fun _ _ hf hs => absurd ⟨hf, hs⟩ hspare, fun _ _ _ _ _ => ⟨hout, hok, hlink, hat, hsent⟩, fun _ _ h => absurd h ?_⟩
    rintro (h | ⟨-, h⟩)
    · exact h hmap.1
    · exact absurd (hmap.2.symm.trans h) (by decide)
  rw [if_neg (by simpa using hmap)]
  refine ⟨fun h => absurd h hstill, fun _ _ hf hs => absurd ⟨hf, hs⟩ hspare, fun _ hf _ hok => absurd ⟨hf, hok⟩ hmap, fun _ _ _ hdev hstep => ?_⟩
  refine (failStop_begun (condition_inService hdev) ?_).of_ptn (alkCondition_only ..).ptn
  exact (condition_stopStep ..).trans hstep

end Sys2Proof.Machine
end

section
/-! The lanes of an arm link and their errors (R95). -/

namespace Sys2Proof.Machine
set_option Elab.async false

-- The training of an arm link and its lanes (O32).

/-- A swap depends on the lanes of the link alone: a count of their errors before it changes nothing. -/
theorem LaneSwapped.of_same {arm : Fin 8} {up atOnce : Bool} {lane : Nat} {s s' t : State} (h : LaneSwapped arm up atOnce lane s' t)
    (hview : laneView (getAlk s' arm) = laneView (getAlk s arm)) (hseq : (getAlk s' arm).seq = (getAlk s arm).seq) (hmuted : (getAlk s' arm).muted = (getAlk s arm).muted)
    (hdev : s'.dev = s.dev) (hflt : s'.flt = s.flt) (hptn : s'.ptn = s.ptn) (haon : s'.aon = s.aon) : LaneSwapped arm up atOnce lane s t := by
  have hup : alkUp s' arm = alkUp s arm := by
    unfold alkUp
    rw [show (getAlk s' arm).link = (getAlk s arm).link from congrArg LaneView.link hview]
  have hout : alkOut (getAlk s' arm) = alkOut (getAlk s arm) := congrArg LaneView.out hview
  have hticks : linkTick s' = linkTick s := by
    unfold linkTick now
    rw [haon]
  have hlink : (getAlk s' arm).link = (getAlk s arm).link := congrArg LaneView.link hview
  have h1 : (getAlk s' arm).upOut = (getAlk s arm).upOut := congrArg LaneView.upOut hview
  have h2 : (getAlk s' arm).dnOut = (getAlk s arm).dnOut := congrArg LaneView.dnOut hview
  have h3 : (getAlk s' arm).upSpareOk = (getAlk s arm).upSpareOk := congrArg LaneView.upSpareOk hview
  have h4 : (getAlk s' arm).dnSpareOk = (getAlk s arm).dnSpareOk := congrArg LaneView.dnSpareOk hview
  unfold LaneSwapped at h ⊢
  dsimp only at h ⊢
  rw [hup, hout, hticks, hlink, h1, h2, h3, h4, hseq, hmuted, hdev, hflt] at h
  obtain ⟨hstill, hspare, hmap, hstop⟩ := h
  exact ⟨hstill, hspare, hmap, fun ha hb hc hd he => (hstop ha hb hc hd he).of_ptn hptn⟩
/-- The errors of a lane in a window are counted. -/
def laneNoted (a n corrected : Nat) (uncorr : Nat → Nat) (s : State) : State :=
  modAlk s a fun k => { k with lanes := tabMod {} k.lanes n fun e => { e with corrSym := satAdd 32 e.corrSym corrected, uncorr := uncorr e.uncorr } }
theorem getAlk_laneNoted (a n corrected : Nat) (uncorr : Nat → Nat) (s : State) :
    getAlk (laneNoted a n corrected uncorr s) a = { getAlk s a with lanes := tabMod {} (getAlk s a).lanes n fun e => { e with corrSym := satAdd 32 e.corrSym corrected, uncorr := uncorr e.uncorr } } :=
  getAlk_modAlk ..
/-- What of a link a swap leaves: the counts of its lanes and its samples. -/
def laneCounts (s : State) (a : Nat) := ((getAlk s a).lanes, (getAlk s a).streams)
theorem laneCounts_of_stays {a : Nat} {s t : State} (h : LinkStays a s t) : laneCounts t a = laneCounts s a :=
  (rfl : laneCounts t a = ((linkCore t a).lanes, (linkCore t a).streams)).trans ((congrArg (fun k => (k.lanes, k.streams)) h.core).trans rfl)
theorem laneCounts_modAlk (a : Nat) (f : ArmLink → ArmLink) (s : State) (hl : ∀ k, (f k).lanes = k.lanes) (hs : ∀ k, (f k).streams = k.streams) : laneCounts (modAlk s a f) a = laneCounts s a := by
  unfold laneCounts
  rw [getAlk_modAlk, hl, hs]
theorem laneCounts_sendLaneMap (a : Nat) (atOnce : Bool) (u d : Nat) (s : State) : laneCounts (sendLaneMap a atOnce u d s) a = laneCounts s a := by
  rw [sendLaneMap_eq, laneCounts_of_stays (alkSend_linkStays ..)]
  cases atOnce with
  | false => exact laneCounts_modAlk _ _ _ (fun _ => rfl) fun _ => rfl
  | true => exact laneCounts_modAlk _ _ _ (fun _ => rfl) fun _ => rfl
theorem laneCounts_alkSwap (a : Nat) (up : Bool) (lane : Nat) (atOnce : Bool) (s : State) : laneCounts (alkSwap a up lane atOnce s) a = laneCounts s a := by
  rw [alkSwap_eq]
  split
  · rfl
  split
  · cases up with
    | false => exact laneCounts_modAlk _ _ _ (fun _ => rfl) fun _ => rfl
    | true => exact laneCounts_modAlk _ _ _ (fun _ => rfl) fun _ => rfl
  split
  · rw [laneCounts_of_stays (alkCondition_linkStays ..)]
    unfold swapMapped
    rw [laneCounts_sendLaneMap]
    cases up with
    | false => exact laneCounts_modAlk _ _ _ (fun _ => rfl) fun _ => rfl
    | true => exact laneCounts_modAlk _ _ _ (fun _ => rfl) fun _ => rfl
  · exact laneCounts_of_stays ((failStop_linkStays ..).after (alkCondition_linkStays ..))
theorem corrSym_of_counts {s t : State} {a : Nat} (h : laneCounts t a = laneCounts s a) (n : Nat) : (tabGet {} (getAlk t a).lanes n).corrSym = (tabGet {} (getAlk s a).lanes n).corrSym :=
  congrArg (fun c : Tab LaneErr × Tab Stream => (tabGet {} c.1 n).corrSym) h
theorem alkLaneErrorWindow_completes {s : State} (hawake : awake s = true) (arm : Fin 8) : ∀ up (lane : Fin 19) corrected uncorrectable,
    Completes (.alkLaneErrorWindow arm up lane corrected uncorrectable) s fun t =>
    let k := getAlk s arm
    let n := if up then lane.val else 32 + lane.val
    let e := tabGet {} k.lanes n
    let tooMany : Prop := alkCorrLimit s.img < corrected ∨ 3 ≤ uncorrectable
    (up = false → 3 ≤ lane.val → t = s) ∧
    (up = true ∨ lane.val < 3 → (tabGet {} (getAlk t arm).lanes n).corrSym = satAdd 32 e.corrSym corrected ∧ (tooMany → LaneSwapped arm up false lane s t) ∧
      (¬ tooMany → (getAlk t arm).upOut = k.upOut ∧ (getAlk t arm).dnOut = k.dnOut)) := by
  intro up lane corrected uncorrectable
  refine ⟨if !up && 3 ≤ lane.val then s else if alkCorrLimit s.img < corrected || 3 ≤ uncorrectable
    then alkSwap arm up lane false (laneNoted arm (if up then lane.val else 32 + lane.val) corrected (fun u => if up then u else satAdd 16 u uncorrectable) s)
    else laneNoted arm (if up then lane.val else 32 + lane.val) corrected (fun u => if up then u else satAdd 16 u uncorrectable) s, if_pos hawake, ?_⟩
  beta_reduce
  intro k n e tooMany
  by_cases hno : up = false ∧ 3 ≤ lane.val
  · rw [if_pos (by simpa using hno)]
    exact ⟨fun _ _ => rfl, fun h => absurd hno (by rcases h with h | h <;> simp [h])⟩
  rw [if_neg (by simpa using hno)]
  have hk := getAlk_laneNoted arm n corrected (fun u => if up then u else satAdd 16 u uncorrectable) s
  have honly : Only { alks := true } s (laneNoted arm n corrected (fun u => if up then u else satAdd 16 u uncorrectable) s) := modAlk_only ..
  have hcorr : (tabGet {} (getAlk (laneNoted arm n corrected (fun u => if up then u else satAdd 16 u uncorrectable) s) arm).lanes n).corrSym = satAdd 32 e.corrSym corrected := by
    rw [hk, tabMod_same]
  have hview : laneView (getAlk (laneNoted arm n corrected (fun u => if up then u else satAdd 16 u uncorrectable) s) arm) = laneView k := (congrArg laneView hk).trans rfl
  have hseq : (getAlk (laneNoted arm n corrected (fun u => if up then u else satAdd 16 u uncorrectable) s) arm).seq = k.seq := (congrArg ArmLink.seq hk).trans rfl
  have hmuted : (getAlk (laneNoted arm n corrected (fun u => if up then u else satAdd 16 u uncorrectable) s) arm).muted = k.muted := (congrArg ArmLink.muted hk).trans rfl
  refine ⟨fun h1 h2 => absurd ⟨h1, h2⟩ hno, fun _ => ?_⟩
  generalize laneNoted arm n corrected (fun u => if up then u else satAdd 16 u uncorrectable) s = u at *
  by_cases hmany : tooMany
  · rw [if_pos (by simpa using hmany)]
    exact ⟨(corrSym_of_counts (laneCounts_alkSwap ..) n).trans hcorr,
      fun _ => (alkSwap_swapped arm up false lane u).of_same hview hseq hmuted honly.dev honly.flt honly.ptn honly.aon, fun h => absurd hmany h⟩
  · rw [if_neg (by simpa [tooMany] using hmany)]
    exact ⟨hcorr, fun h => absurd h hmany, fun _ => ⟨congrArg LaneView.upOut hview, congrArg LaneView.dnOut hview⟩⟩
theorem alkLaneLockLoss_completes {s : State} (hawake : awake s = true) (arm : Fin 8) : ∀ up (lane : Fin 19), Completes (.alkLaneLockLoss arm up lane) s fun t =>
    (up = false → 3 ≤ lane.val → t = s) ∧ (up = true ∨ lane.val < 3 → LaneSwapped arm up true lane s t) := by
  intro up lane
  refine ⟨if !up && 3 ≤ lane.val then s else alkSwap arm up lane true s, if_pos hawake, ?_⟩
  by_cases hno : up = false ∧ 3 ≤ lane.val
  · rw [if_pos (by simpa using hno)]
    exact ⟨fun _ _ => rfl, fun h => absurd hno (by rcases h with h | h <;> simp [h])⟩
  · rw [if_neg (by simpa using hno)]
    exact ⟨fun h1 h2 => absurd ⟨h1, h2⟩ hno, fun _ => alkSwap_swapped ..⟩

end Sys2Proof.Machine
end

section
/-! Lost blocks of an uplink, and silence (R75, R92). -/

namespace Sys2Proof.Machine
set_option Elab.async false

-- Lost blocks of an uplink, silence, and the training of a link (O32).

/-- A stream that has lost blocks: the samples since its last mark are erased (R75). -/
structure StreamLost (d e : Stream) : Prop where
  broken : e.broken = true
  next : e.next = d.next
  marks : e.marks = d.marks
  places : e.words.map (·.1) = d.words.map (·.1)
  erased : ∀ y ∈ e.words, lastMark d ≤ y.1 → y.2 = erasedWord
theorem eraseSince_places (d : Stream) : (eraseSince d).map (·.1) = d.words.map (·.1) := by
  unfold eraseSince
  rw [List.map_map]
  refine List.map_congr_left fun x _ => ?_
  rw [Function.comp_apply]
  split
  · rfl
  · rfl
theorem erased_of_mem_eraseSince {d : Stream} {y : Nat × Word} (h : y ∈ eraseSince d) (hm : lastMark d ≤ y.1) : y.2 = erasedWord := by
  obtain ⟨x, -, rfl⟩ := List.mem_map.1 h
  by_cases hx : lastMark d ≤ x.1
  · rw [if_pos hx]
  · rw [if_neg hx] at hm
    exact absurd hm hx
theorem loseBlock_lost (d : Stream) : StreamLost d (loseBlock d) := ⟨rfl, rfl, rfl, eraseSince_places d, fun _ h hm => erased_of_mem_eraseSince h hm⟩
theorem StreamLost.again {d e : Stream} (h : StreamLost d e) : StreamLost d (loseBlock e) := by
  have hmark : lastMark e = lastMark d := by
    unfold lastMark
    rw [h.marks, h.next]
  exact ⟨rfl, h.next, h.marks, (eraseSince_places e).trans h.places, fun _ hy hm => erased_of_mem_eraseSince hy (hmark ▸ hm)⟩
theorem loseBlocks_lost {d : Stream} {j : Nat} (xs : List (Fin 16)) {t : Tab Stream} (h : j ∈ xs.map (·.val) ∧ tabGet {} t j = d ∨ StreamLost d (tabGet {} t j)) :
    StreamLost d (tabGet {} (xs.foldl (fun t x => tabMod {} t x.val loseBlock) t) j) := by
  induction xs generalizing t with
  | nil => exact h.resolve_left fun h => absurd h.1 List.not_mem_nil
  | cons x xs ih =>
    refine ih ?_
    by_cases hx : j = x.val
    · subst hx
      rw [tabMod_same]
      rcases h with ⟨-, hd⟩ | hl
      · exact .inr (hd ▸ loseBlock_lost _)
      · exact .inr hl.again
    · have hother : tabGet {} (tabMod {} t x.val loseBlock) j = tabGet {} t j := tabGet_tabSet_other _ _ _ _ hx
      rw [hother]
      refine h.imp_left fun h => ⟨?_, h.2⟩
      exact (List.mem_cons.1 h.1).resolve_left hx
theorem loseBlocks_other {j : Nat} (xs : List (Fin 16)) {t : Tab Stream} (h : j ∉ xs.map (·.val)) : tabGet {} (xs.foldl (fun t x => tabMod {} t x.val loseBlock) t) j = tabGet {} t j := by
  induction xs generalizing t with
  | nil => rfl
  | cons x xs ih =>
    obtain ⟨hx, hxs⟩ := not_or.1 (mt List.mem_cons.2 h)
    exact (ih hxs).trans (tabGet_tabSet_other _ _ _ _ hx)
/-- The lost block is counted and its streams are broken (R96). -/
def blockLost (a lane : Nat) (streams : List (Fin 16)) (s : State) : State := modAlk s a fun k => { k with
  lanes := tabMod {} k.lanes lane (fun e => { e with uncorr := satInc 16 e.uncorr }),
  uncorrTimes := ((lane, now s) :: k.uncorrTimes).filter (fun e => decide (now s < e.2 + oneMs)),
  streams := streams.foldl (fun t x => tabMod {} t x.val loseBlock) k.streams }
def blockVoided (a lane : Nat) (streams : List (Fin 16)) (s : State) : State :=
  alkCondition a 0x7A 8 false (voidArm nearFrame a (streams.map fun x => x.val / 2).eraseDups (blockLost a lane streams s))
theorem laneCounts_blockVoided (a lane : Nat) (streams : List (Fin 16)) (s : State) : laneCounts (blockVoided a lane streams s) a =
    (tabMod {} (getAlk s a).lanes lane (fun e => { e with uncorr := satInc 16 e.uncorr }), streams.foldl (fun t x => tabMod {} t x.val loseBlock) (getAlk s a).streams) := by
  unfold blockVoided
  rw [laneCounts_of_stays ((alkCondition_linkStays ..).after (.of_only (voidArm_only ..)))]
  unfold blockLost laneCounts
  rw [getAlk_modAlk]
theorem alkUplinkUncorr_completes {s : State} (hawake : awake s = true) (arm : Fin 8) : ∀ (lane : Fin 19) (streams : List (Fin 16)), Completes (.alkUplinkUncorr arm lane streams) s fun t =>
    let k := getAlk s arm
    (alkUp s arm = false → t = s) ∧
    (alkUp s arm = true → (tabGet {} (getAlk t arm).lanes lane.val).uncorr = satInc 16 (tabGet {} k.lanes lane.val).uncorr ∧
      (∀ x ∈ streams, let d := tabGet {} k.streams x.val; let e := tabGet {} (getAlk t arm).streams x.val
        e.broken = true ∧ e.next = d.next ∧ e.words.map (·.1) = d.words.map (·.1) ∧ ∀ y ∈ e.words, lastMark d ≤ y.1 → y.2 = erasedWord) ∧
      ∀ x : Fin 16, x ∉ streams → tabGet {} (getAlk t arm).streams x.val = tabGet {} k.streams x.val) := by
  intro lane streams
  refine ⟨if alkUp s arm then (if 3 ≤ ((getAlk (blockVoided arm lane streams s) arm).uncorrTimes.filter fun e => e.1 = lane.val).length
    then alkSwap arm true lane false (blockVoided arm lane streams s) else blockVoided arm lane streams s) else s, if_pos hawake, ?_⟩
  split
  next hup =>
    have hcounts : laneCounts (if 3 ≤ ((getAlk (blockVoided arm lane streams s) arm).uncorrTimes.filter fun e => e.1 = lane.val).length
        then alkSwap arm true lane false (blockVoided arm lane streams s) else blockVoided arm lane streams s) arm =
        (tabMod {} (getAlk s arm).lanes lane (fun e => { e with uncorr := satInc 16 e.uncorr }), streams.foldl (fun t x => tabMod {} t x.val loseBlock) (getAlk s arm).streams) := by
      split
      · exact (laneCounts_alkSwap ..).trans (laneCounts_blockVoided ..)
      · exact laneCounts_blockVoided ..
    generalize (if 3 ≤ ((getAlk (blockVoided arm lane streams s) arm).uncorrTimes.filter fun e => e.1 = lane.val).length
        then alkSwap arm true lane false (blockVoided arm lane streams s) else blockVoided arm lane streams s) = t at hcounts
    have hlanes : (getAlk t arm).lanes = _ := congrArg Prod.fst hcounts
    have hstreams : (getAlk t arm).streams = _ := congrArg Prod.snd hcounts
    dsimp only at hlanes hstreams ⊢
    rw [hlanes, hstreams]
    refine ⟨fun h => absurd (hup.symm.trans h) (by decide), fun _ => ⟨?_, fun x hx => ?_, fun x hx => loseBlocks_other _ ?_⟩⟩
    · rw [tabMod_same]
    · have hlost := loseBlocks_lost (d := tabGet {} (getAlk s arm).streams x.val) (j := x.val) streams (.inl ⟨List.mem_map_of_mem hx, rfl⟩)
      exact ⟨hlost.broken, hlost.next, hlost.places, hlost.erased⟩
    · intro hmem
      obtain ⟨y, hy, hxy⟩ := List.mem_map.1 hmem
      exact hx (Fin.ext hxy ▸ hy)
  next hup => exact ⟨fun _ => rfl, fun h => absurd h hup⟩
/-- A link that is lost holds the part (R92). -/
theorem alkLoss_lost (arm : Fin 8) (s : State) : (alkUp s arm = false → alkLoss arm s = s) ∧
    (alkUp s arm = true → (getAlk (alkLoss arm s) arm).link = 1 ∧ (getAlk (alkLoss arm s) arm).retrain = true ∧ (getAlk (alkLoss arm s) arm).unacked = [] ∧
      (holdsFrom s.dev = true → (alkLoss arm s).dev = .faultHold ∧ (alkLoss arm s).flt.holdCause = 0x7B)) := by
  refine ⟨fun h => if_neg (by rw [h]; decide), fun h => ?_⟩
  obtain ⟨hlink, hretrain, hunacked⟩ := alkLoss_left h
  refine ⟨hlink, hretrain, hunacked, fun hfrom => ?_⟩
  have heq : alkLoss arm s = alkCondition arm 0x7B 8 true (openCause 0x7B arm false (modAlk (voidArm unwritten arm (List.range 8) s) arm lostLink)) := if_pos h
  rw [heq]
  refine condition_holds ?_
  rw [(openCause_only ..).dev, (modAlk_only ..).dev, (voidArm_only ..).dev]
  exact hfrom

end Sys2Proof.Machine
end

section
/-! The training of an arm link (O32). -/

namespace Sys2Proof.Machine
set_option Elab.async false

-- The attempts at training an arm link and its IDENTITY (R92 to R94).

/-- What of a link speaks of its training. -/
structure TrainView where
  link : Nat
  attempts : Nat
  attempting : Bool
  idle : Bool
  trainCount : Nat
  ident : Option Word
  fzaPort : Bool
def trainView (k : ArmLink) : TrainView := ⟨k.link, k.attempts, k.attempting, k.idle, k.trainCount, k.ident, k.fzaPort⟩
theorem LinkStays.train {a : Nat} {s t : State} (h : LinkStays a s t) : trainView (getAlk t a) = trainView (getAlk s a) :=
  (rfl : trainView (getAlk t a) = trainView (linkCore t a)).trans ((congrArg trainView h.core).trans rfl)
theorem alkTrainFailed_stays (a : Nat) (s : State) : LinkStays a (modAlk s a untrained) (alkTrainFailed a s) := by
  unfold alkTrainFailed
  exact (failStop_linkStays ..).after ((alkCondition_linkStays ..).after (.ite (.of_only (startFail_only ..)) .refl))
theorem alkTrainFailed_train (a : Nat) (s : State) : trainView (getAlk (alkTrainFailed a s) a) = trainView (untrained (getAlk s a)) := by
  rw [(alkTrainFailed_stays a s).train, getAlk_modAlk]
theorem alkAttemptFailed_eq (a : Nat) (s : State) : alkAttemptFailed a s = if 3 ≤ (getAlk s a).attempts + 1 then alkTrainFailed a (modAlk s a failedAttempt)
    else each [0, 1, 2] (fun p s => send (.quiet a p) s) (modAlk s a failedAttempt) := by
  have hk : (getAlk (modAlk s a failedAttempt) a).attempts = (getAlk s a).attempts + 1 := by
    rw [getAlk_modAlk]
    rfl
  rw [← hk]
  rfl
/-- Three failed attempts end the training of a link (R93). -/
theorem alkAttemptFailed_train (a : Nat) (s : State) : trainView (getAlk (alkAttemptFailed a s) a) =
    trainView (if 3 ≤ (getAlk s a).attempts + 1 then untrained (failedAttempt (getAlk s a)) else failedAttempt (getAlk s a)) := by
  rw [alkAttemptFailed_eq]
  split
  · rw [alkTrainFailed_train, getAlk_modAlk]
  · have hquiet : Only { tx := true } (modAlk s a failedAttempt) (each [0, 1, 2] (fun p s => send (.quiet a p) s) (modAlk s a failedAttempt)) := .each (fun _ _ => send_only ..) .refl
    rw [getAlk_of_only a hquiet, getAlk_modAlk]
theorem alkAttemptFailed_fields (a : Nat) (s : State) :
    (getAlk (alkAttemptFailed a s) a).attempts = (getAlk s a).attempts + 1 ∧ (getAlk (alkAttemptFailed a s) a).attempting = false ∧
    (getAlk (alkAttemptFailed a s) a).trainCount = (getAlk s a).trainCount ∧
    ((getAlk s a).attempts < 2 → (getAlk (alkAttemptFailed a s) a).idle = true ∧ (getAlk (alkAttemptFailed a s) a).link = (getAlk s a).link) ∧
    (2 ≤ (getAlk s a).attempts → (getAlk (alkAttemptFailed a s) a).link = 4) := by
  have hview := alkAttemptFailed_train a s
  generalize getAlk (alkAttemptFailed a s) a = k at hview ⊢
  by_cases h : 3 ≤ (getAlk s a).attempts + 1
  · rw [if_pos h] at hview
    exact ⟨congrArg TrainView.attempts hview, congrArg TrainView.attempting hview, congrArg TrainView.trainCount hview, fun hlt => by omega, fun _ => congrArg TrainView.link hview⟩
  · rw [if_neg h] at hview
    exact ⟨congrArg TrainView.attempts hview, congrArg TrainView.attempting hview, congrArg TrainView.trainCount hview,
      fun _ => ⟨congrArg TrainView.idle hview, congrArg TrainView.link hview⟩, fun hlt => by omega⟩
theorem enterStopped_failStep (cause : BitVec 8) (s : State) : (enterStopped cause s).start.failStep = s.start.failStep := by
  have hkept : (each (List.range 8) armDark (endVisits (dropActive s))).start = s.start :=
    (Only.each (m := { islands := true, heads := true }) (fun a s => armDark_only a s) .refl).start.trans ((endVisits_only _).start.trans (dropActive_only _).start)
  unfold enterStopped
  dsimp only
  rw [hkept]
/-- A stop from Configuring keeps the step that failed (R590). -/
theorem failStop_failStep {cause : BitVec 8} {s : State} (hdev : stopsAtOnce s.dev = true) (hstep : s.flt.stopStep = 0) : (failStop cause s).start.failStep = s.start.failStep := by
  rw [failStop_eq, stopSequence_atOnce (s := stopMarked s) hdev hstep]
  unfold finalStop
  rw [enterStopped_failStep, (post_only ..).start, (releaseArms_only ..).start, (stopChannels_only ..).start, (completeAll_only ..).start]
  rfl
theorem startFail_failStep (step cause : Nat) (s : State) : (startFail step cause s).start.failStep = step := by
  unfold startFail
  rw [(post_only ..).start]
/-- In Configuring the step that failed is shown (R590). -/
def trainShown (a : Nat) (s : State) : State :=
  let s := modAlk s a untrained
  if s.dev = .configuring then startFail 9 0x7E s else s
theorem alkTrainFailed_eq (a : Nat) (s : State) :
    alkTrainFailed a s = failStop (if (getAlk s a).retrain then 0x7B else 0x7E) (alkCondition a 0x7E 8 false (trainShown a s)) := rfl
theorem alkTrainFailed_configuring {a : Nat} {s : State} (hdev : s.dev = .configuring) (hstep : s.flt.stopStep = 0) :
    (alkTrainFailed a s).dev = .stopped ∧ (alkTrainFailed a s).start.failStep = 9 := by
  have hshown : trainShown a s = startFail 9 0x7E (modAlk s a untrained) := if_pos hdev
  have honly := alkCondition_quiet_only a 0x7E 8 (trainShown a s)
  have hnoted : (alkCondition a 0x7E 8 false (trainShown a s)).dev = .configuring := honly.dev.trans (by rw [hshown, (startFail_only ..).dev]; exact hdev)
  have hat : (alkCondition a 0x7E 8 false (trainShown a s)).flt.stopStep = 0 := (condition_stopStep ..).trans (by rw [hshown, (startFail_only ..).flt]; exact hstep)
  have hfail : (alkCondition a 0x7E 8 false (trainShown a s)).start.failStep = 9 := by rw [honly.start, hshown, startFail_failStep]
  rw [alkTrainFailed_eq]
  generalize alkCondition a 0x7E 8 false (trainShown a s) = u at hnoted hat hfail
  exact ⟨(failStop_stoppedBy (by rw [hnoted]; rfl) hat).dev, (failStop_failStep (by rw [hnoted]; rfl) hat).trans hfail⟩
theorem alkTrainTimeout_completes {s : State} (hawake : awake s = true) (arm : Fin 8) : Completes (.alkTrainTimeout arm) s fun t =>
    let k := getAlk s arm
    (k.attempting = false → t = s) ∧
    (k.attempting = true → (getAlk t arm).attempts = k.attempts + 1 ∧ (getAlk t arm).attempting = false ∧ (k.attempts < 2 → (getAlk t arm).idle = true) ∧
      (2 ≤ k.attempts → (getAlk t arm).link = 4 ∧ (s.dev = .configuring → s.flt.stopStep = 0 → t.dev = .stopped ∧ t.start.failStep = 9))) := by
  refine ⟨_, if_pos hawake, ?_⟩
  split
  next h =>
    obtain ⟨hattempts, hattempting, -, hidle, hlink⟩ := alkAttemptFailed_fields arm s
    refine ⟨fun hn => absurd (h.symm.trans hn) (by decide), fun _ => ⟨hattempts, hattempting, fun hlt => (hidle hlt).1, fun hge => ⟨hlink hge, fun hdev hstep => ?_⟩⟩⟩
    rw [alkAttemptFailed_eq, if_pos (by omega)]
    exact alkTrainFailed_configuring (s := modAlk s arm failedAttempt) hdev hstep
  next h => exact ⟨fun _ => rfl, fun hn => absurd hn h⟩
theorem alkTrainRetry_completes {s : State} (hawake : awake s = true) (arm : Fin 8) : Completes (.alkTrainRetry arm) s fun t =>
    let k := getAlk s arm
    (getAlk t arm).idle = (if k.idle = true ∧ k.link = 1 then false else k.idle) ∧ (getAlk t arm).link = k.link := by
  refine ⟨if (getAlk s arm).idle && (getAlk s arm).link = 1 then modAlk s arm fun k => { k with idle := false } else s, if_pos hawake, ?_⟩
  by_cases h : (getAlk s arm).idle = true ∧ (getAlk s arm).link = 1
  · dsimp only
    rw [if_pos (by simpa using h), if_pos h, getAlk_modAlk]
    exact ⟨rfl, rfl⟩
  · dsimp only
    rw [if_neg (by simpa using h), if_neg h]
    exact ⟨rfl, rfl⟩
/-- An attempt at training begins: its presets, and PRBS on the lanes (R93). -/
def attemptBegun (i : Image) (a : Nat) (k : ArmLink) : ArmLink := { k with
  link := 1, attempting := true, mapAt := none, presets := (List.range 3).map fun l => imgAt i 0x61 0 (3 * a + l) 1, trainCount := min (k.trainCount + 1) (2 ^ 32 - 1) }
def trainBegun (a : Nat) (s : State) : State := each [0, 1, 2] (fun p s => send (.prbs a p (imgAt s.img 0x61 0 (3 * a + p) 1)) s) (modAlk s a (attemptBegun s.img a))
/-- The lanes that the attempt leaves out (R94). -/
def lanesChosen (upFail : List (Fin 19)) (downFail : List (Fin 3)) (reaches : Bool) (k : ArmLink) : ArmLink := { k with
  upOut := match upFail with | l :: _ => l.val | [] => 31, dnOut := match downFail with | l :: _ => l.val | [] => 3, upSpareOk := upFail.isEmpty, dnSpareOk := downFail.isEmpty, waitIdentity := reaches }
theorem getAlk_trainBegun (a : Nat) (s : State) : getAlk (trainBegun a s) a = attemptBegun s.img a (getAlk s a) := by
  have hprbs : Only { tx := true } (modAlk s a (attemptBegun s.img a)) (trainBegun a s) := .each (fun _ _ => send_only ..) .refl
  rw [getAlk_of_only a hprbs, getAlk_modAlk]
theorem lanesChosen_outs (upFail : List (Fin 19)) (downFail : List (Fin 3)) (reaches : Bool) (k : ArmLink) :
    (lanesChosen upFail downFail reaches k).upOut = (upFail.map (·.val)).headD 31 ∧ (lanesChosen upFail downFail reaches k).dnOut = (downFail.map (·.val)).headD 3 := by
  refine ⟨?_, ?_⟩
  · cases upFail with
    | nil => rfl
    | cons x xs => rfl
  · cases downFail with
    | nil => rfl
    | cons x xs => rfl
theorem alkTrainAttempt_completes {s : State} (hawake : awake s = true) (arm : Fin 8) : ∀ upFail downFail reachesExchange, Completes (.alkTrainAttempt arm upFail downFail reachesExchange) s fun t =>
    let k := getAlk s arm
    let may : Prop := arm.val < s.img.arms ∧ k.link ≤ 1 ∧ k.attempting = false ∧ k.idle = false
    let bad : Prop := 2 ≤ upFail.eraseDups.length ∨ 2 ≤ downFail.eraseDups.length
    (¬ may → t = s) ∧
    (may → (getAlk t arm).trainCount = min (k.trainCount + 1) (2 ^ 32 - 1)) ∧
    (may → ¬ bad → (getAlk t arm).link = 1 ∧ (getAlk t arm).attempting = true ∧ (getAlk t arm).waitIdentity = reachesExchange ∧
      (getAlk t arm).upOut = (upFail.map (·.val)).headD 31 ∧ (getAlk t arm).dnOut = (downFail.map (·.val)).headD 3 ∧
      (getAlk t arm).upSpareOk = upFail.isEmpty ∧ (getAlk t arm).dnSpareOk = downFail.isEmpty) ∧
    (may → bad → (getAlk t arm).attempts = k.attempts + 1 ∧ (getAlk t arm).attempting = false ∧ (k.attempts < 2 → (getAlk t arm).idle = true ∧ (getAlk t arm).link = 1) ∧
      (2 ≤ k.attempts → (getAlk t arm).link = 4)) := by
  intro upFail downFail reaches
  refine ⟨if decide (arm.val < s.img.arms) && decide ((getAlk s arm).link ≤ 1) && !(getAlk s arm).attempting && !(getAlk s arm).idle then
      (if 2 ≤ upFail.eraseDups.length || 2 ≤ downFail.eraseDups.length then alkAttemptFailed arm (trainBegun arm s)
        else modAlk (trainBegun arm s) arm (lanesChosen upFail downFail reaches)) else s, if_pos hawake, ?_⟩
  beta_reduce
  intro k may bad
  by_cases hmay : may
  · rw [if_pos (by simpa [may, and_assoc] using hmay)]
    have hbegun := getAlk_trainBegun arm s
    by_cases hbad : bad
    · rw [if_pos (by simpa [bad] using hbad)]
      obtain ⟨hattempts, hattempting, htrain, hidle, hlink⟩ := alkAttemptFailed_fields arm (trainBegun arm s)
      generalize getAlk (alkAttemptFailed arm (trainBegun arm s)) arm = k' at *
      rw [hbegun] at hattempts htrain hidle hlink
      exact ⟨fun h => absurd hmay h, fun _ => htrain, fun _ h => absurd hbad h, fun _ _ => ⟨hattempts, hattempting, hidle, hlink⟩⟩
    · rw [if_neg (by simpa [bad] using hbad), getAlk_modAlk, hbegun]
      exact ⟨fun h => absurd hmay h, fun _ => rfl, fun _ _ => ⟨rfl, rfl, rfl, (lanesChosen_outs ..).1, (lanesChosen_outs ..).2, rfl, rfl⟩, fun _ h => absurd h hbad⟩
  · rw [if_neg (by simpa [may, and_assoc] using hmay)]
    exact ⟨fun _ => rfl, fun h => absurd h hmay, fun h => absurd h hmay, fun h => absurd h hmay⟩
/-- A link that is being trained has one message more that waits for its answer (R94). -/
def Queued (a type : Nat) (s t : State) : Prop := (getAlk s a).settling = true → (getAlk s a).muted = false →
  (∃ m : AlkMsg, m.type = type ∧ (getAlk t a).unacked = (getAlk s a).unacked ++ [(m, false)]) ∧ (getAlk t a).settling = true ∧ (getAlk t a).muted = false
theorem alkSend_queued (a type head : Nat) (imm : Bool) (apply : Nat) (payload : List Word) (s : State) (hack : noAck type = false) : Queued a type s (alkSend a type head imm apply payload s) := by
  intro hset hmuted
  have hstays := alkSend_linkStays a a type head imm apply payload s
  refine ⟨⟨{ type, head, ackReq := !noAck type, seq := (getAlk s a).seq, imm, apply := apply % 2 ^ 39, payload }, rfl, ?_⟩, hstays.settling.trans hset,
    (congrArg ArmLink.muted hstays.core).trans hmuted⟩
  unfold alkSend
  rw [if_pos (by rw [hset, hmuted, Bool.or_true]; rfl), (unacked_alkPut ..).1, getAlk_modAlk, hack]
  rfl
theorem sendLaneMap_queued (a : Nat) (u d : Nat) (s : State) : Queued a 0x0E s (sendLaneMap a true u d s) := by
  intro hset hmuted
  have hk : getAlk (modAlk s a (laneMapNoted true (linkTick s + 560000) u d)) a = laneMapNoted true (linkTick s + 560000) u d (getAlk s a) := getAlk_modAlk ..
  have hqueued := alkSend_queued a 0x0E 0 true 0 [w64 (u + 256 * d)] (modAlk s a (laneMapNoted true (linkTick s + 560000) u d)) rfl
  unfold Queued at hqueued
  rw [hk] at hqueued
  exact hqueued hset hmuted
/-- The word of IDENTITY is noted (R93). -/
def identNoted (word : Word) (k : ArmLink) : ArmLink := { k with ident := some word, fzaPort := word.getLsbD 19 }
def identPassed (k : ArmLink) : ArmLink := { k with waitIdentity := false, settling := true }
/-- What follows an IDENTITY that passes (R94). -/
def identAnswered (a : Nat) (s : State) : State :=
  sendLaneMap a true (getAlk s a).upOut (getAlk s a).dnOut (sendTelemSet a (sendTimeSet a (modAlk s a identPassed)))
theorem identAnswered_core (a : Nat) (s : State) : linkCore (identAnswered a s) a =
    laneMapNoted true 0 (getAlk s a).upOut (getAlk s a).dnOut { identPassed (getAlk s a) with seq := 0, unacked := [], msgs := [], owner := 0, outs := [] } := by
  have hsent : linkCore (sendTelemSet a (sendTimeSet a (modAlk s a identPassed))) a = linkCore (modAlk s a identPassed) a :=
    (LinkStays.after (alkSend_linkStays a a 0x0D 0 true 0 [w64 0x7FF] (sendTimeSet a (modAlk s a identPassed))) (alkSend_linkStays ..)).core
  unfold identAnswered
  generalize sendTelemSet a (sendTimeSet a (modAlk s a identPassed)) = u at hsent
  rw [sendLaneMap_eq, (alkSend_linkStays ..).core]
  have hmapped : linkCore (modAlk u a (laneMapNoted true (linkTick u + 560000) (getAlk s a).upOut (getAlk s a).dnOut)) a = laneMapNoted true 0 (getAlk s a).upOut (getAlk s a).dnOut (linkCore u a) := by
    unfold linkCore
    rw [getAlk_modAlk]
    rfl
  rw [hmapped, hsent]
  unfold linkCore
  rw [getAlk_modAlk]
theorem identAnswered_unacked {a : Nat} {s : State} (hmuted : (getAlk s a).muted = false) : ∃ m₁ m₂ m₃ : AlkMsg, m₁.type = 0x0C ∧ m₂.type = 0x0D ∧ m₃.type = 0x0E ∧
    (getAlk (identAnswered a s) a).unacked = (getAlk s a).unacked ++ [(m₁, false)] ++ [(m₂, false)] ++ [(m₃, false)] := by
  have hk : getAlk (modAlk s a identPassed) a = identPassed (getAlk s a) := getAlk_modAlk ..
  have htime : Queued a 0x0C (modAlk s a identPassed) (sendTimeSet a (modAlk s a identPassed)) := alkSend_queued _ _ _ _ _ _ _ rfl
  have htelem : Queued a 0x0D (sendTimeSet a (modAlk s a identPassed)) (sendTelemSet a (sendTimeSet a (modAlk s a identPassed))) := alkSend_queued _ _ _ _ _ _ _ rfl
  obtain ⟨⟨m₁, ht₁, hu₁⟩, hset₁, hm₁⟩ := htime (by rw [hk]; rfl) (by rw [hk]; exact hmuted)
  obtain ⟨⟨m₂, ht₂, hu₂⟩, hset₂, hm₂⟩ := htelem hset₁ hm₁
  obtain ⟨⟨m₃, ht₃, hu₃⟩, -, -⟩ := sendLaneMap_queued a (getAlk s a).upOut (getAlk s a).dnOut _ hset₂ hm₂
  refine ⟨m₁, m₂, m₃, ht₁, ht₂, ht₃, hu₃.trans ?_⟩
  rw [hu₂, hu₁, hk]
  rfl
theorem identity_completes {s : State} (hawake : awake s = true) (arm : Fin 8) : ∀ word, Completes (.identity arm word) s fun t =>
    let k := getAlk s arm
    (getAlk t arm).ident = some word ∧ (getAlk t arm).fzaPort = word.getLsbD 19 ∧
    (k.waitIdentity = false → (getAlk t arm).link = k.link) ∧
    (k.waitIdentity = true → bitsOf 47 32 word.toNat = Config.fza816Code.toNat → s.img.heads ≤ bitsOf 23 20 word.toNat →
      (getAlk t arm).settling = true ∧ (getAlk t arm).waitIdentity = false ∧ (getAlk t arm).link = k.link ∧
        (k.muted = false → ((getAlk t arm).unacked.drop k.unacked.length).map (fun m => (m.1.type, m.2)) = [(0x0C, false), (0x0D, false), (0x0E, false)])) ∧
    (k.waitIdentity = true → bitsOf 47 32 word.toNat ≠ Config.fza816Code.toNat ∨ bitsOf 23 20 word.toNat < s.img.heads → (getAlk t arm).link = 4) := by
  intro word
  refine ⟨if (getAlk (modAlk s arm (identNoted word)) arm).waitIdentity then
      (if bitsOf 47 32 word.toNat = Config.fza816Code.toNat ∧ s.img.heads ≤ bitsOf 23 20 word.toNat then identAnswered arm (modAlk s arm (identNoted word))
        else alkTrainFailed arm (modAlk s arm (identNoted word))) else modAlk s arm (identNoted word), if_pos hawake, ?_⟩
  have hk : getAlk (modAlk s arm (identNoted word)) arm = identNoted word (getAlk s arm) := getAlk_modAlk ..
  have hwait : (identNoted word (getAlk s arm)).waitIdentity = (getAlk s arm).waitIdentity := rfl
  beta_reduce
  intro k
  rw [hk, hwait]
  by_cases hw : k.waitIdentity = true
  · rw [if_pos hw]
    by_cases hok : bitsOf 47 32 word.toNat = Config.fza816Code.toNat ∧ s.img.heads ≤ bitsOf 23 20 word.toNat
    · rw [if_pos hok]
      have hcore := identAnswered_core arm (modAlk s arm (identNoted word))
      have hunacked (hm : k.muted = false) := identAnswered_unacked (a := arm) (s := modAlk s arm (identNoted word)) (by rw [hk]; exact hm)
      rw [hk] at hcore hunacked
      generalize identAnswered arm (modAlk s arm (identNoted word)) = t at hcore hunacked ⊢
      refine ⟨congrArg ArmLink.ident hcore, congrArg ArmLink.fzaPort hcore, fun h => absurd (hw.symm.trans h) (by decide), fun _ _ _ => ⟨congrArg ArmLink.settling hcore,
        congrArg ArmLink.waitIdentity hcore, (congrArg ArmLink.link hcore).trans rfl, fun hm => ?_⟩, fun _ h => absurd h ?_⟩
      · obtain ⟨m₁, m₂, m₃, h₁, h₂, h₃, hu⟩ := hunacked hm
        have hkept : (identNoted word k).unacked = k.unacked := rfl
        rw [hu, hkept, List.append_assoc, List.append_assoc, List.drop_left]
        simp [h₁, h₂, h₃]
      · rintro (h | h)
        · exact h hok.1
        · exact absurd hok.2 (not_le.2 h)
    · rw [if_neg hok]
      have hview := alkTrainFailed_train arm (modAlk s arm (identNoted word))
      rw [hk] at hview
      generalize alkTrainFailed arm (modAlk s arm (identNoted word)) = t at hview ⊢
      exact ⟨congrArg TrainView.ident hview, congrArg TrainView.fzaPort hview, fun h => absurd (hw.symm.trans h) (by decide), fun _ h₁ h₂ => absurd ⟨h₁, h₂⟩ hok,
        fun _ _ => congrArg TrainView.link hview⟩
  · rw [if_neg hw, hk]
    exact ⟨rfl, rfl, fun _ => rfl, fun h => absurd h hw, fun h => absurd h hw⟩
/-- Settles O32, command by command: attempts count up to three, a passing IDENTITY has its three messages sent, a failing lane is swapped or stops the
part, and what is lost is voided and shown. -/
theorem armLinksTrainAndSpareLanes : Obligations.ArmLinksTrainAndSpareLanes := by
  unfold Obligations.ArmLinksTrainAndSpareLanes
  intro s hawake arm k lost swapped
  exact ⟨alkTrainAttempt_completes hawake arm, alkTrainTimeout_completes hawake arm, alkTrainRetry_completes hawake arm, identity_completes hawake arm,
    alkLaneErrorWindow_completes hawake arm, alkLaneLockLoss_completes hawake arm, alkUplinkUncorr_completes hawake arm, ⟨_, if_pos hawake, alkLoss_lost arm s⟩,
    ⟨_, if_pos hawake, alkLoss_lost arm s⟩⟩

end Sys2Proof.Machine
end

section
/-! The tags of the check-bit test mode through a stop (R528). -/

namespace Sys2Proof.Machine
set_option Elab.async false

-- The tags of the check-bit test mode are only taken away by the rest of the part (R528).

/-- The tags of `t` are among those of `s`. -/
structure TagsFall (s t : State) : Prop where
  kept : t.diag.eccTags.Sublist s.diag.eccTags
theorem TagsFall.refl {s : State} : TagsFall s s := ⟨List.Sublist.refl _⟩
theorem TagsFall.after {s t u : State} (h₂ : TagsFall t u) (h₁ : TagsFall s t) : TagsFall s u := ⟨h₂.kept.trans h₁.kept⟩
theorem TagsFall.of_only {m : Units} {s t : State} (h : Only m s t) (hm : m.diag = false := by rfl) : TagsFall s t := ⟨by rw [h.diag hm]⟩
theorem TagsFall.ite {s t u : State} {c : Prop} [Decidable c] (h₁ : TagsFall s t) (h₂ : TagsFall s u) : TagsFall s (if c then t else u) := by
  split
  · exact h₁
  · exact h₂
theorem TagsFall.each {α : Type} {f : α → State → State} (hf : ∀ x s, TagsFall s (f x s)) (xs : List α) (s : State) : TagsFall s (each xs f s) := by
  induction xs generalizing s with
  | nil => exact .refl
  | cons x xs ih =>
    rw [each_cons]
    exact (ih _).after (hf x s)
theorem eccTag_eq_none {s : State} {m o : Nat} : eccTag s m o = none ↔ ∀ x ∈ s.diag.eccTags, ¬(x.1 = m ∧ x.2.1 = o) := by
  unfold eccTag
  rw [Option.map_eq_none_iff, List.find?_eq_none]
  simp
theorem TagsFall.none {s t : State} (h : TagsFall s t) {m o : Nat} (hn : eccTag s m o = none) : eccTag t m o = none :=
  eccTag_eq_none.2 fun x hx => eccTag_eq_none.1 hn x (h.kept.subset hx)
theorem eccTag_dropTag (m o : Nat) (s : State) : eccTag (dropTag m o s) m o = none := by
  refine eccTag_eq_none.2 fun x hx h => ?_
  have hkept := (List.mem_filter.1 hx).2
  simp [h] at hkept
theorem dropTags_falls (memLo memHi lo len : Nat) (s : State) : TagsFall s (dropTags memLo memHi lo len s) := ⟨List.filter_sublist⟩
theorem setFrame_falls (s : State) (f : Nat) (b : Block) : TagsFall s (setFrame s f b) := by
  unfold setFrame
  exact ⟨(dropTags_falls 0x49 0x51 (4096 * f) 4096 { s with mpd := { s.mpd with frames := tabSet 0 s.mpd.frames f b } }).kept⟩
theorem writeSlot_falls (k : Nat) (f : Slot → Slot) (s : State) : TagsFall s (writeSlot k f s) := by
  unfold writeSlot
  exact .after (dropTags_falls ..) (.of_only (modSlot_only ..))
theorem releaseFrames_falls (s : State) : TagsFall s (releaseFrames s) := by
  unfold releaseFrames
  refine .after (.of_only (pruneCommitted_only _)) (.each (fun fe t => .ite ?_ .refl) _ _)
  have hdropped (u : State) : TagsFall u { u with mpd := { u.mpd with dirtySince := tabDel fe.1 u.mpd.dirtySince, parts := tabDel fe.1 u.mpd.parts } } := .of_only (m := { mpd := true }) (.upd .refl)
  exact .ite (.after (.of_only (m := { mpd := true }) (.upd .refl)) ((hdropped _).after (.of_only (setEntry_only ..)))) (.after (setFrame_falls ..) ((hdropped _).after (.of_only (setEntry_only ..))))
theorem completeOne_falls (arr status info : Nat) (s : State) : TagsFall s (completeOne arr status info s) := by
  unfold completeOne
  split
  · exact .refl
  next c hc =>
    refine .ite .refl ?_
    extract_lets st r t
    have ht : TagsFall s t := .of_only (modCmd_only ..)
    exact .after (.of_only (issueRec_only ..)) (.after (.of_only (dropGrants_only ..)) (.after (releaseFrames_falls _) (.after (.of_only (unpin_only ..)) (.ite ht (.after (.of_only (freeSlots_only ..)) ht)))))
theorem complete_falls (arr status info : Nat) (s : State) : TagsFall s (complete arr status info s) := by
  unfold complete
  split
  · exact .refl
  · exact .after (.each (fun _ _ => completeOne_falls ..) _ _) (completeOne_falls ..)
theorem completeAll_falls (cause : BitVec 8) (s : State) : TagsFall s (completeAll cause s) := by
  unfold completeAll
  refine .after (.each (fun arr t => ?_) _ _) (.of_only (m := { hop := true }) (.upd .refl))
  split
  · exact .refl
  · exact .ite .refl (.ite (.after (complete_falls ..) (.of_only (ackEntries_only ..))) (.after (complete_falls ..) (.ite (.of_only (holdBackEntries_only ..)) .refl)))
theorem writeElem_falls (u : Nat) (b : Block) (s : State) : TagsFall s (writeElem u b s) := by
  unfold writeElem
  split
  · exact setFrame_falls ..
  · exact writeSlot_falls ..
  · exact .of_only (putFlashBlock_only ..)
  · exact .of_only (m := { tre := true }) (.upd .refl)
  · exact .refl
theorem moveUnit_falls (n : Nat) (d : Descriptor) (s : State) : TagsFall s (moveUnit n d s).2 := by
  unfold moveUnit
  extract_lets u
  split
  · split
    · exact .refl
    · exact writeElem_falls ..
  · split
    · exact .refl
    · split
      · exact .after (writeElem_falls ..) (.of_only (takeStream_only ..))
      · exact writeElem_falls ..
  · split
    · exact .refl
    · split
      · exact .refl
      · exact writeElem_falls ..
  · exact writeElem_falls ..
  · exact .ite (writeElem_falls ..) .refl
theorem moveUntil_falls (d : Descriptor) (k n : Nat) (s : State) : TagsFall s (moveUntil d k n s) := by
  induction k generalizing n s with
  | zero => exact .refl
  | succ k ih =>
    unfold moveUntil
    refine .ite .refl ?_
    have hmoved := moveUnit_falls n d s
    split
    · exact .refl
    next t ht =>
      rw [ht] at hmoved
      exact (ih _ _).after hmoved
theorem stopChannel_falls (ch : Nat) (s : State) : TagsFall s (stopChannel ch s) := by
  unfold stopChannel
  refine .after (.of_only (modTre_only ..)) ?_
  split
  · exact .ite (.after (moveUntil_falls ..) (.of_only (nextFree_only _))) .refl
  · exact .refl
theorem stopChannels_falls (s : State) : TagsFall s (stopChannels s) := by
  unfold stopChannels
  exact .each (fun _ _ => .ite (stopChannel_falls ..) .refl) _ _
/-- A stop takes tags away at most. -/
theorem stopStable_tagsFall : StopStable TagsFall where
  refl _ := .refl
  trans h₁ h₂ := h₂.after h₁
  plain h := .of_only h
  noted h _ := .of_only h
  completed cause s := completeAll_falls cause s
  channels s := stopChannels_falls s
  gone s := .of_only (dropGone_only s)
  released s := .of_only (releaseArms_only s)
  unload a s := .of_only (unloadArm_only a s)
  frame a s := .of_only (vcmFrame_only a s)
  visits s := .of_only (endVisits_only s)
  dark a s := .of_only (armDark_only a s)

end Sys2Proof.Machine
end

section
/-! What a set of reports leaves (R514 to R518). -/

namespace Sys2Proof.Machine
set_option Elab.async false

-- What a set of reports leaves: the counts, the first error and the hold (R514 to R518).

theorem enterHold_first (event : BitVec 8) (injected : Bool) (s : State) : (enterHold event injected s).flt.first = s.flt.first := by
  unfold enterHold
  split
  · rw [(post_only ..).flt, endVisits_flt]
  split
  · rfl
  · rfl
theorem countReport_first (r : Report) (s : State) : (countReport r s).flt.first = s.flt.first := by
  unfold countReport
  split
  · rfl
  · rfl
/-- The reports are counted, and each is noted to the core (R514). -/
def reportsCounted (rs : List Report) (s : State) : State := each rs (fun r s => mqNote 20 (countReport r s)) s
theorem reportsCounted_only (rs : List Report) (s : State) : Only { flt := true, mqs := true, tx := true, free := true } s (reportsCounted rs s) := by
  unfold reportsCounted
  exact .each (fun _ _ => (mqNote_only ..).after ((countReport_only ..).mono)) .refl
theorem reportsCounted_first (rs : List Report) (s : State) : (reportsCounted rs s).flt.first = s.flt.first :=
  each_proj (fun t : State => t.flt.first) _ _ s fun r t => (congrArg Flt.first (mqNote_only ..).flt).trans (countReport_first r t)
/-- What a captured report makes of the first-error record (R515, R516). -/
def firstAfter (s : State) (rs : List Report) : FirstError :=
  match chosen (rs.filter captured) with
  | none => s.flt.first
  | some r =>
    if s.flt.first.valid = false then firstOf s r false (satAdd 16 0 ((rs.filter captured).length - 1))
    else if s.flt.first.injected = true ∧ r.injected = false then firstOf s r true (satAdd 16 s.flt.first.more ((rs.filter captured).length - 1))
    else { s.flt.first with more := satAdd 16 s.flt.first.more (rs.filter captured).length }
theorem captureFirst_first (rs : List Report) (s : State) : (captureFirst rs s).flt.first = firstAfter s rs := by
  unfold captureFirst firstAfter
  dsimp only
  cases chosen (rs.filter captured) with
  | none => rfl
  | some r =>
    dsimp only
    by_cases hv : s.flt.first.valid = false
    · rw [if_pos hv, if_pos (by rw [hv]; rfl)]
      split
      · rw [(traceFire_only ..).flt]
      · rfl
    · rw [if_neg hv, if_neg (by simpa using hv)]
      by_cases hi : s.flt.first.injected = true ∧ r.injected = false
      · rw [if_pos hi, if_pos (by simpa using hi)]
      · rw [if_neg hi, if_neg (by simpa using hi)]
theorem firstAfter_of_same {s t : State} {rs : List Report} (hfirst : t.flt.first = s.flt.first) (haon : t.aon = s.aon) : firstAfter t rs = firstAfter s rs := by
  have hof (r : Report) (b : Bool) (n : Nat) : firstOf t r b n = firstOf s r b n := by
    unfold firstOf devTime
    rw [haon]
  unfold firstAfter
  rw [hfirst]
  simp only [hof]
theorem reportAll_eq (rs : List Report) (s : State) :
    reportAll rs s = each (rs.filter (·.hold)) (fun r s => enterHold r.event r.injected s) (captureFirst rs (reportsCounted rs s)) := rfl
theorem reportAll_first (rs : List Report) (s : State) : (reportAll rs s).flt.first = firstAfter s rs := by
  rw [reportAll_eq, each_proj (fun t : State => t.flt.first) _ _ _ fun _ _ => enterHold_first .., captureFirst_first]
  exact firstAfter_of_same (reportsCounted_first rs s) (reportsCounted_only rs s).aon
/-- The part is in Fault-hold from `d` since `n`, and no timer has run out (R518). -/
structure HeldFrom (d : DevState) (n : Nat) (t : State) : Prop where
  dev : t.dev = .faultHold
  from_ : t.flt.from_ = d
  since_ : t.flt.quietSince = some n
  awaiting : t.flt.awaiting = false
  time : now t = n
theorem enterHold_heldFrom {event : BitVec 8} {injected : Bool} {s : State} (h : holdsFrom s.dev = true) : HeldFrom s.dev (now s) (enterHold event injected s) := by
  refine ⟨(enterHold_of_holds h).1, enterHold_from h, ?_, ?_, now_of_only (enterHold_only ..)⟩
  · unfold enterHold
    rw [if_pos h, (post_only ..).flt, endVisits_flt]
  · unfold enterHold
    rw [if_pos h, (post_only ..).flt, endVisits_flt]
theorem HeldFrom.again {d : DevState} {n : Nat} {event : BitVec 8} {injected : Bool} {s : State} (h : HeldFrom d n s) : HeldFrom d n (enterHold event injected s) := by
  have hnot : ¬holdsFrom s.dev = true := by
    rw [h.dev]
    decide
  unfold enterHold
  rw [if_neg hnot, if_pos h.dev]
  exact ⟨h.dev, h.from_, congrArg some h.time, rfl, h.time⟩
theorem each_heldFrom {d : DevState} {n : Nat} (rs : List Report) {s : State} (h : HeldFrom d n s) : HeldFrom d n (each rs (fun r s => enterHold r.event r.injected s) s) := by
  induction rs generalizing s with
  | nil => exact h
  | cons r rs ih =>
    rw [each_cons]
    exact ih h.again
theorem capturedCounted_same (rs : List Report) (s : State) : (captureFirst rs (reportsCounted rs s)).dev = s.dev ∧ now (captureFirst rs (reportsCounted rs s)) = now s :=
  ⟨(captureFirst_only ..).dev.trans (reportsCounted_only ..).dev, (now_of_only (captureFirst_only ..)).trans (now_of_only (reportsCounted_only ..))⟩
theorem reportAll_heldFrom {rs : List Report} {s : State} (hany : rs.any (fun r => r.hold) = true) (h : holdsFrom s.dev = true) : HeldFrom s.dev (now s) (reportAll rs s) := by
  obtain ⟨hdev, hnow⟩ := capturedCounted_same rs s
  rw [reportAll_eq]
  cases hheld : rs.filter (·.hold) with
  | nil =>
    obtain ⟨r, hr, hhold⟩ := List.any_eq_true.1 hany
    exact absurd hhold (List.filter_eq_nil_iff.1 hheld r hr)
  | cons r rest =>
    rw [each_cons]
    have hfirst : HeldFrom s.dev (now s) (enterHold r.event r.injected (captureFirst rs (reportsCounted rs s))) := by
      rw [← hdev, ← hnow]
      exact enterHold_heldFrom (by rwa [hdev])
    exact each_heldFrom rest hfirst
theorem reportAll_dev_of_none {rs : List Report} {s : State} (hany : rs.any (fun r => r.hold) = false) : (reportAll rs s).dev = s.dev := by
  have hnone : rs.filter (·.hold) = [] := List.filter_eq_nil_iff.2 (List.any_eq_false.1 hany)
  rw [reportAll_eq, hnone]
  exact (capturedCounted_same rs s).1
theorem real_reportAll_one (r : Report) (s : State) : (reportAll [r] s).flt.real = if r.injected then s.flt.real else countIn s.flt.real r.cause.toNat := by
  cases h : r.injected with
  | false => exact report_real s h
  | true => exact report_real_of_injected s h
theorem inj_reportAll_one (r : Report) (s : State) : (reportAll [r] s).flt.inj = if r.injected then countIn s.flt.inj r.cause.toNat else s.flt.inj := by
  have hcounts : (reportAll [r] s).flt.inj = countSource true [r] s.flt.inj := countsOf_reportAll true [r] s
  cases h : r.injected with
  | false => simpa [countSource, h] using hcounts
  | true => simpa [countSource, h] using hcounts
theorem countIn_corrected (c : FaultCounts) : (countIn c 1).corrected = satInc 24 c.corrected := rfl
theorem countIn_bus (c : FaultCounts) : (countIn c 3).bus = satInc 12 c.bus := rfl
theorem countIn_uncorrected (c : FaultCounts) {k : Nat} (h : k = 2 ∨ k = 4 ∨ k = 6) : (countIn c k).uncorrected = satInc 16 c.uncorrected := by
  rcases h with rfl | rfl | rfl
  · rfl
  · rfl
  · rfl
theorem faultReport_completes {s : State} (hawake : awake s = true) : ∀ rs, Completes (.faultReport rs) s fun t =>
    (rs.any (fun r => r.hold) = false → t.dev = s.dev) ∧
    (rs.any (fun r => r.hold) = true → holdsFrom s.dev = true → t.dev = .faultHold ∧ t.flt.from_ = s.dev ∧ t.flt.quietSince = some (now s) ∧ t.flt.awaiting = false) ∧
    (rs.filter captured = [] → t.flt.first = s.flt.first) ∧
    (∀ r, chosen (rs.filter captured) = some r →
      (s.flt.first.valid = false → t.flt.first = firstOf s r false (satAdd 16 0 ((rs.filter captured).length - 1))) ∧
      (s.flt.first.valid = true → s.flt.first.injected = true → r.injected = false → t.flt.first = firstOf s r true (satAdd 16 s.flt.first.more ((rs.filter captured).length - 1))) ∧
      (s.flt.first.valid = true → ¬ (s.flt.first.injected = true ∧ r.injected = false) → t.flt.first = { s.flt.first with more := satAdd 16 s.flt.first.more (rs.filter captured).length })) ∧
    ∀ r rest, rs = r :: rest → rest = [] → (r.injected = true → t.flt.real = s.flt.real) ∧ (r.injected = false → t.flt.inj = s.flt.inj) ∧
      (r.injected = false → r.cause = 1 → t.flt.real.corrected = satInc 24 s.flt.real.corrected) ∧ (r.injected = false → r.cause = 3 → t.flt.real.bus = satInc 12 s.flt.real.bus) ∧
      (r.injected = false → r.cause = 2 ∨ r.cause = 4 ∨ r.cause = 6 → t.flt.real.uncorrected = satInc 16 s.flt.real.uncorrected) := by
  intro rs
  refine ⟨reportAll rs s, if_pos hawake, reportAll_dev_of_none, fun hany hfrom => ?_, fun hnone => ?_, fun r hr => ⟨fun hv => ?_, fun hv hi hr' => ?_, fun hv hn => ?_⟩, ?_⟩
  · have h := reportAll_heldFrom hany hfrom
    exact ⟨h.dev, h.from_, h.since_, h.awaiting⟩
  · rw [reportAll_first, firstAfter, hnone]
    rfl
  · rw [reportAll_first, firstAfter, hr]
    exact if_pos hv
  · rw [reportAll_first, firstAfter, hr]
    exact (if_neg (by rw [hv]; decide)).trans (if_pos ⟨hi, hr'⟩)
  · rw [reportAll_first, firstAfter, hr]
    exact (if_neg (by rw [hv]; decide)).trans (if_neg hn)
  · rintro r rest rfl rfl
    rw [real_reportAll_one, inj_reportAll_one]
    refine ⟨fun h => if_pos h, fun h => if_neg (by rw [h]; decide), fun h hc => ?_, fun h hc => ?_, fun h hc => ?_⟩
    · rw [if_neg (by rw [h]; decide), hc]
      exact countIn_corrected _
    · rw [if_neg (by rw [h]; decide), hc]
      exact countIn_bus _
    · rw [if_neg (by rw [h]; decide)]
      refine countIn_uncorrected _ ?_
      rcases hc with hc | hc | hc
      · rw [hc]; exact .inl rfl
      · rw [hc]; exact .inr (.inl rfl)
      · rw [hc]; exact .inr (.inr rfl)

end Sys2Proof.Machine
end

section
/-! Release and stop of Fault-hold, and traps (R519 to R523). -/

namespace Sys2Proof.Machine
set_option Elab.async false

-- Release and stop of Fault-hold, traps and the patrol (O29).

theorem firstErrorCopy_completes {s : State} (hawake : awake s = true) : Completes .firstErrorCopy s fun t =>
    let may : Prop := s.flt.first.valid = true ∧ s.evt.running = true ∧ s.evt.full ≠ 2
    (¬ may → t = s) ∧ (may → t.flt.first.valid = false ∧ t.flt.first.more = 0) := by
  refine ⟨_, if_pos hawake, ?_⟩
  beta_reduce
  intro may
  split
  next h =>
    refine ⟨fun hn => absurd (by simpa [and_assoc] using h) hn, fun _ => ?_⟩
    rw [(postInj_only ..).flt]
    exact ⟨rfl, rfl⟩
  next h => exact ⟨fun _ => rfl, fun hm => absurd (by simpa [may, and_assoc] using hm) h⟩
theorem quietTimerExpiry_completes {s : State} (hawake : awake s = true) : Completes .quietTimerExpiry s fun t =>
    let runs : Prop := s.dev = .faultHold ∧ s.flt.quietSince ≠ none
    (¬ runs → t = s) ∧ (runs → t.flt.awaiting = true ∧ t.flt.quietSince = none ∧ t.dev = .faultHold) := by
  refine ⟨_, if_pos hawake, ?_⟩
  beta_reduce
  intro runs
  split
  next h =>
    have hruns : runs := by simpa [runs, Option.isSome_iff_ne_none] using h
    refine ⟨fun hn => absurd hruns hn, fun _ => ?_⟩
    have honly (u : State) : Only { gov := true } u (each u.gov.ctxs (fun c s => if (getCtx s c.1).failed then requestSwitch c.1 s else s) u) := .each (fun _ _ => .ite (requestSwitch_only ..) .refl) .refl
    rw [(honly _).flt, (honly _).dev]
    exact ⟨rfl, rfl, hruns.1⟩
  next h => exact ⟨fun _ => rfl, fun hr => absurd (by simpa [runs, Option.isSome_iff_ne_none] using hr) h⟩
/-- Fault-hold is left for the state that it came from (R520). -/
def heldReleased (s : State) : State :=
  post 0xA2 mCollector [b1 (recoveryCount s), b1 (devCode s.flt.from_)]
    { s with dev := s.flt.from_, flt := { s.flt with quietSince := none, awaiting := false, open_ := [], realSeen := false } }
theorem heldReleased_left (s : State) : (heldReleased s).dev = s.flt.from_ ∧ (heldReleased s).flt.open_ = [] ∧ (heldReleased s).flt.awaiting = false ∧
    (heldReleased s).flt.injRecov = s.flt.injRecov ∧ (heldReleased s).aon = s.aon := by
  unfold heldReleased
  rw [(post_only ..).dev, (post_only ..).flt, (post_only ..).aon]
  exact ⟨rfl, rfl, rfl, rfl, rfl⟩
def readyAgain (s : State) : State :=
  let s := enterReady s
  if s.start.parkStep = 5 && s.spn.mode = 0 then parkDone s else advancePark s
theorem resumeFrom_eq (s : State) : resumeFrom s = if (heldReleased s).dev = .ready then readyAgain (heldReleased s) else heldReleased s := by
  unfold resumeFrom readyAgain heldReleased
  rfl
theorem readyAgain_kept (s : State) : (readyAgain s).flt = s.flt ∧ (readyAgain s).aon = s.aon := by
  unfold readyAgain
  dsimp only
  split
  · exact ⟨(parkDone_only _).flt.trans (enterReady_only s).flt, (parkDone_only _).aon.trans (enterReady_only s).aon⟩
  · exact ⟨(advancePark_only _).flt.trans (enterReady_only s).flt, (advancePark_only _).aon.trans (enterReady_only s).aon⟩
theorem resumeFrom_left (s : State) : (resumeFrom s).flt.open_ = [] ∧ (resumeFrom s).flt.injRecov = s.flt.injRecov ∧ (resumeFrom s).aon = s.aon ∧
    (s.flt.from_ = .loading ∨ s.flt.from_ = .takeover → (resumeFrom s).dev = s.flt.from_ ∧ (resumeFrom s).flt.awaiting = false) := by
  obtain ⟨hdev, hopen, hawaiting, hrecov, haon⟩ := heldReleased_left s
  rw [resumeFrom_eq]
  split
  next h =>
    obtain ⟨hflt, ha⟩ := readyAgain_kept (heldReleased s)
    rw [hflt, ha]
    refine ⟨hopen, hrecov, haon, fun hcalm => ?_⟩
    rw [hdev] at h
    rw [h] at hcalm
    exact absurd hcalm (by decide)
  next h => exact ⟨hopen, hrecov, haon, fun _ => ⟨hdev, hawaiting⟩⟩
theorem causesOpen_eq_false {s : State} : causesOpen s = false ↔ ∀ c ∈ s.flt.open_, c.event = 0x3F := by
  unfold causesOpen
  rw [List.any_eq_false]
  simp
/-- Fault-hold is left, or its returns are spent (R519, R520). -/
def holdReleased (s : State) : State :=
  if !s.flt.realSeen then resumeFrom { s with flt := { s.flt with injRecov := satInc 8 s.flt.injRecov } }
  else if recoveryLimit s.img ≤ recoveryCount s then failStop 0xA3 (post 0xA3 mCollector [] s)
  else resumeFrom { s with aon := { s.aon with returns := dayReturns s ++ [devTime s] } }
theorem faultHoldRelease_completes {s : State} (hawake : awake s = true) : Completes .faultHoldRelease s fun t =>
    let may : Prop := s.dev = .faultHold ∧ s.flt.awaiting = true ∧ (∀ c ∈ s.flt.open_, c.event = 0x3F) ∧ loopsInService s = true
    let calm : Prop := s.flt.from_ = .loading ∨ s.flt.from_ = .takeover
    (¬ may → t = s) ∧
    (may → s.flt.realSeen = false → t.flt.injRecov = satInc 8 s.flt.injRecov ∧ t.aon.returns = s.aon.returns ∧ (calm → t.dev = s.flt.from_ ∧ t.flt.awaiting = false)) ∧
    (may → s.flt.realSeen = true → recoveryCount s < recoveryLimit s.img → t.aon.returns = dayReturns s ++ [devTime s] ∧ t.flt.open_ = [] ∧ (calm → t.dev = s.flt.from_)) ∧
    (may → s.flt.realSeen = true → recoveryLimit s.img ≤ recoveryCount s → s.flt.stopStep = 0 → StopBegun 0xA3 s t) := by
  refine ⟨if s.dev = .faultHold && s.flt.awaiting && !(causesOpen s) && loopsInService s then holdReleased s else s, if_pos hawake, ?_⟩
  beta_reduce
  intro may calm
  have hmay : (s.dev = .faultHold && s.flt.awaiting && !(causesOpen s) && loopsInService s) = true ↔ may := by
    simp only [Bool.and_eq_true, decide_eq_true_eq, Bool.not_eq_true', causesOpen_eq_false, and_assoc, may]
  by_cases h : may
  · rw [if_pos (hmay.2 h)]
    unfold holdReleased
    refine ⟨fun hn => absurd h hn, fun _ hreal => ?_, fun _ hreal hlt => ?_, fun _ hreal hge hstep => ?_⟩
    · rw [if_pos (by rw [hreal]; rfl)]
      obtain ⟨-, hrecov, haon, hcalm⟩ := resumeFrom_left { s with flt := { s.flt with injRecov := satInc 8 s.flt.injRecov } }
      exact ⟨hrecov, by rw [haon], hcalm⟩
    · rw [if_neg (by rw [hreal]; decide), if_neg (not_le.2 hlt)]
      obtain ⟨hopen, -, haon, hcalm⟩ := resumeFrom_left { s with aon := { s.aon with returns := dayReturns s ++ [devTime s] } }
      exact ⟨by rw [haon], hopen, fun hc => (hcalm hc).1⟩
    · rw [if_neg (by rw [hreal]; decide), if_pos hge]
      refine (failStop_begun ?_ ?_).of_ptn (post_only ..).ptn
      · rw [(post_only ..).dev, h.1]
        rfl
      · rw [(post_only ..).flt]
        exact hstep
  · rw [if_neg (mt hmay.1 h)]
    exact ⟨fun _ => rfl, fun hm => absurd hm h, fun hm => absurd hm h, fun hm => absurd hm h⟩
theorem failStop_completes {s : State} (hawake : awake s = true) : ∀ cause, Completes (.failStop cause) s fun t =>
    (s.dev = .holdUp ∨ s.dev = .stopped → t = s) ∧ (s.flt.stopStep ≠ 0 → t.dev = s.dev ∧ t.hop = s.hop) ∧
    (s.flt.stopStep = 0 → s.dev = .unconfigured ∨ s.dev = .configuring ∨ s.dev = .parked ∨ s.dev = .spinningUp ∨ s.dev = .standby →
      t.dev = .stopped ∧ t.hop.closed = true ∧ t.hop.stopCause = cause ∧ t.ptn.activeOut = false ∧ t.ptn.hbOn = false) ∧
    (s.flt.stopStep = 0 → inService s.dev = true → StopBegun cause s t) := by
  intro cause
  refine ⟨failStop cause s, if_pos hawake, failStop_of_down, fun hstep => ?_, fun hstep hdev => ?_, fun hstep hdev => failStop_begun hdev hstep⟩
  · rw [failStop_of_stopping hstep]
    exact ⟨rfl, rfl⟩
  · have h := failStop_stoppedBy (cause := cause) (stopsAtOnce_iff.2 hdev) hstep
    obtain ⟨hclosed, hcause⟩ := admission_iff.1 h.admission
    exact ⟨h.dev, hclosed, hcause, h.activeOut, h.hbOn⟩
theorem failStopInj_real {injected : Bool} {cause : BitVec 8} {s : State} (h : injected = false ∨ s.diag.allowStop = true) : failStopInj injected cause s = failStop cause s := by
  have hno : ¬(injected && !s.diag.allowStop) = true := by
    rcases h with h | h
    · rw [h, Bool.false_and]
      decide
    · rw [h, Bool.not_true, Bool.and_false]
      decide
  unfold failStop failStopInj
  rw [if_neg hno, Bool.false_and, if_neg (by decide)]
theorem failStopInj_held {cause : BitVec 8} {s : State} (h : s.diag.allowStop = false) : failStopInj true cause s = enterHold cause true s := if_pos (by rw [h]; rfl)
/-- What a trap does before it stops a core that trapped before: it is kept, shown and counted (R522). -/
def trapNoted (core : Nat) (mem : BitVec 7) (injected : Bool) (s : State) : State :=
  report { master := mCore, cause := 4, mem, event := 0xA5, hold := true, injected } (postInj injected 0xA5 mCore [b1 core, b1 mem.toNat]
    { s with flt := { s.flt with coreTraps := (core, now s) :: s.flt.coreTraps.filter fun t => decide (now s < t.2 + oneSec) } })
/-- The core has failed (R522). -/
def coreLost (core : Nat) (injected : Bool) (s : State) : State :=
  failStopInj injected 0xA6 (postInj injected 0xA6 mCore [] { s with flt := { s.flt with coreFailed := s.flt.coreFailed ||| BitVec.twoPow 4 core } })
theorem coreTrap_eq (core : Nat) (mem : BitVec 7) (inHandler injected : Bool) (s : State) : coreTrap core mem inHandler injected s =
    if s.flt.coreFailed.getLsbD core then s
    else if (s.flt.coreTraps.any fun t => t.1 = core && decide (now s < t.2 + oneSec)) || inHandler then coreLost core injected (trapNoted core mem injected s)
    else trapNoted core mem injected s := rfl
/-- What of the fault record traps change, and reports do not. -/
def coreRecord (s : State) : List (Nat × Nat) × BitVec 4 := (s.flt.coreTraps, s.flt.coreFailed)
theorem coreRecord_of_only {m : Units} {s t : State} (h : Only m s t) (hm : m.flt = false := by rfl) : coreRecord t = coreRecord s := by
  unfold coreRecord
  rw [h.flt hm]
theorem coreRecord_enterHold (event : BitVec 8) (injected : Bool) (s : State) : coreRecord (enterHold event injected s) = coreRecord s := by
  unfold enterHold coreRecord
  split
  · rw [(post_only ..).flt, endVisits_flt]
  split
  · rfl
  · rfl
theorem coreRecord_captureFirst (rs : List Report) (s : State) : coreRecord (captureFirst rs s) = coreRecord s := by
  unfold captureFirst coreRecord
  extract_lets cs
  split
  · rfl
  · extract_lets
    split
    · split
      · rw [(traceFire_only ..).flt]
      · rfl
    · split
      · rfl
      · rfl
theorem coreRecord_report (r : Report) (s : State) : coreRecord (report r s) = coreRecord s := by
  have hnoted : coreRecord (reportNoted r s) = coreRecord s := by
    unfold reportNoted
    rw [coreRecord_captureFirst, coreRecord_of_only (mqNote_only ..)]
    unfold countReport coreRecord
    split
    · rfl
    · rfl
  rw [report_eq]
  split
  · exact (coreRecord_enterHold ..).trans hnoted
  · exact hnoted
theorem coreRecord_of_fault {s t : State} (h : faultRecord t = faultRecord s) : coreRecord t = coreRecord s :=
  (rfl : coreRecord t = ((faultRecord t).coreTraps, (faultRecord t).coreFailed)).trans ((congrArg (fun f : Flt => (f.coreTraps, f.coreFailed)) h).trans rfl)
theorem real_of_fault {s t : State} (h : faultRecord t = faultRecord s) : t.flt.real = s.flt.real := (rfl : t.flt.real = (faultRecord t).real).trans ((congrArg Flt.real h).trans rfl)
theorem inj_of_fault {s t : State} (h : faultRecord t = faultRecord s) : t.flt.inj = s.flt.inj := (rfl : t.flt.inj = (faultRecord t).inj).trans ((congrArg Flt.inj h).trans rfl)
section
variable {core : Fin 4} {mem : BitVec 7} {injected : Bool} {s : State}
theorem trapNoted_record : coreRecord (trapNoted core mem injected s) = ((core.val, now s) :: s.flt.coreTraps.filter fun t => decide (now s < t.2 + oneSec), s.flt.coreFailed) := by
  unfold trapNoted
  rw [coreRecord_report, coreRecord_of_only (postInj_only ..)]
  rfl
theorem trapNoted_real : (trapNoted core mem injected s).flt.real = if injected then s.flt.real else countIn s.flt.real 4 := by
  unfold trapNoted
  refine (real_reportAll_one _ _).trans ?_
  rw [(postInj_only ..).flt]
  rfl
theorem trapNoted_held (h : holdsFrom s.dev = true) : (trapNoted core mem injected s).dev = .faultHold ∧ (trapNoted core mem injected s).flt.holdCause = 0xA5 := by
  unfold trapNoted
  exact report_holds rfl (by rw [(postInj_only ..).dev]; exact h)
theorem trapNoted_inService (h : inService s.dev = true) : inService (trapNoted core mem injected s).dev = true := by
  unfold trapNoted
  exact report_inService (by rw [(postInj_only ..).dev]; exact h)
theorem trapNoted_kept : (trapNoted core mem injected s).flt.stopStep = s.flt.stopStep ∧ (trapNoted core mem injected s).ptn = s.ptn ∧ (trapNoted core mem injected s).diag = s.diag := by
  unfold trapNoted
  rw [report_stopStep, (report_only ..).ptn, (report_only ..).diag, (postInj_only ..).flt, (postInj_only ..).ptn, (postInj_only ..).diag]
  exact ⟨rfl, rfl, rfl⟩
/-- The failed core is shown. -/
def coreShown (core : Nat) (injected : Bool) (s : State) : State :=
  postInj injected 0xA6 mCore [] { s with flt := { s.flt with coreFailed := s.flt.coreFailed ||| BitVec.twoPow 4 core } }
theorem coreShown_left : coreRecord (coreShown core injected s) = (s.flt.coreTraps, s.flt.coreFailed ||| BitVec.twoPow 4 core) ∧ (coreShown core injected s).flt.real = s.flt.real ∧
    (coreShown core injected s).dev = s.dev ∧ (coreShown core injected s).flt.stopStep = s.flt.stopStep ∧ (coreShown core injected s).ptn = s.ptn ∧ (coreShown core injected s).diag = s.diag := by
  unfold coreShown
  rw [coreRecord_of_only (postInj_only ..), (postInj_only ..).flt, (postInj_only ..).dev, (postInj_only ..).ptn, (postInj_only ..).diag]
  exact ⟨rfl, rfl, rfl, rfl, rfl, rfl⟩
theorem failStopInj_record (cause : BitVec 8) : coreRecord (failStopInj injected cause s) = coreRecord s ∧ (failStopInj injected cause s).flt.real = s.flt.real := by
  by_cases h : injected = false ∨ s.diag.allowStop = true
  · rw [failStopInj_real h]
    have hrecord := stopStable_faultRecord.failStop cause s
    exact ⟨coreRecord_of_fault hrecord, real_of_fault hrecord⟩
  · obtain ⟨hi, ha⟩ := not_or.1 h
    rw [Bool.not_eq_false] at hi
    subst hi
    rw [failStopInj_held (Bool.not_eq_true _ ▸ ha)]
    exact ⟨coreRecord_enterHold .., countsOf_enterHold false cause true s⟩
theorem coreLost_record : coreRecord (coreLost core injected s) = (s.flt.coreTraps, s.flt.coreFailed ||| BitVec.twoPow 4 core) ∧ (coreLost core injected s).flt.real = s.flt.real := by
  obtain ⟨hrecord, hreal, -⟩ := coreShown_left (core := core) (injected := injected) (s := s)
  obtain ⟨hr, hc⟩ := failStopInj_record (injected := injected) (s := coreShown core injected s) 0xA6
  exact ⟨hr.trans hrecord, hc.trans hreal⟩
theorem coreLost_begun (h : injected = false ∨ s.diag.allowStop = true) (hdev : inService s.dev = true) (hstep : s.flt.stopStep = 0) : StopBegun 0xA6 s (coreLost core injected s) := by
  obtain ⟨-, -, hd, hs, hp, hg⟩ := coreShown_left (core := core) (injected := injected) (s := s)
  have heq : coreLost core injected s = failStop 0xA6 (coreShown core injected s) := failStopInj_real (s := coreShown core injected s) (h.imp_right fun ha => by rw [hg]; exact ha)
  rw [heq]
  exact (failStop_begun (by rwa [hd]) (hs.trans hstep)).of_ptn hp
theorem coreLost_held (hinj : injected = true) (hallow : s.diag.allowStop = false) (hdev : s.dev = .faultHold) : (coreLost core injected s).dev = .faultHold := by
  subst hinj
  obtain ⟨-, -, hd, -, -, hg⟩ := coreShown_left (core := core) (injected := true) (s := s)
  have heq : coreLost core true s = enterHold 0xA6 true (coreShown core true s) := failStopInj_held (s := coreShown core true s) (by rw [hg]; exact hallow)
  rw [heq]
  exact (enterHold_held (.inr (hd.trans hdev))).1
theorem twoPow_core : (BitVec.twoPow 4 core.val).getLsbD core = true := by
  rw [BitVec.getLsbD_twoPow]
  simp
theorem traps_of_record {t : State} {l : List (Nat × Nat)} {f : BitVec 4} (h : coreRecord t = (l, f)) : t.flt.coreTraps = l ∧ t.flt.coreFailed = f :=
  ⟨congrArg Prod.fst h, congrArg Prod.snd h⟩
end
theorem coreTrap_completes {s : State} (hawake : awake s = true) : ∀ (core : Fin 4) mem inHandler injected, Completes (.coreTrap core mem inHandler injected) s fun t =>
    let again : Prop := s.flt.coreTraps.any (fun x => x.1 = core.val && decide (now s < x.2 + oneSec)) = true
    let failed : Prop := s.flt.coreFailed.getLsbD core = true
    (failed → t = s) ∧
    (¬ failed → (core.val, now s) ∈ t.flt.coreTraps ∧
      (if injected then t.flt.real = s.flt.real else t.flt.real.uncorrected = satInc 16 s.flt.real.uncorrected)) ∧
    (¬ failed → ¬ again → inHandler = false → t.flt.coreFailed = s.flt.coreFailed ∧ (holdsFrom s.dev = true → t.dev = .faultHold ∧ t.flt.holdCause = 0xA5)) ∧
    (¬ failed → again ∨ inHandler = true → t.flt.coreFailed.getLsbD core = true ∧
      ((injected = false ∨ s.diag.allowStop = true) → inService s.dev = true → s.flt.stopStep = 0 → StopBegun 0xA6 s t) ∧
      (injected = true → s.diag.allowStop = false → holdsFrom s.dev = true → t.dev = .faultHold)) := by
  intro core mem inHandler injected
  refine ⟨coreTrap core mem inHandler injected s, if_pos hawake, ?_⟩
  beta_reduce
  intro again failed
  rw [coreTrap_eq]
  by_cases hfailed : failed
  · rw [if_pos hfailed]
    exact ⟨fun _ => rfl, fun h => absurd hfailed h, fun h => absurd hfailed h, fun h => absurd hfailed h⟩
  rw [if_neg hfailed]
  obtain ⟨htraps, hcores⟩ := traps_of_record (trapNoted_record (core := core) (mem := mem) (injected := injected) (s := s))
  have hreal := trapNoted_real (core := core) (mem := mem) (injected := injected) (s := s)
  obtain ⟨hstep, hptn, hdiag⟩ := trapNoted_kept (core := core) (mem := mem) (injected := injected) (s := s)
  have hheld (h : holdsFrom s.dev = true) := trapNoted_held (core := core) (mem := mem) (injected := injected) h
  have hserv (h : inService s.dev = true) := trapNoted_inService (core := core) (mem := mem) (injected := injected) h
  have hcount (t : State) (h : t.flt.real = if injected then s.flt.real else countIn s.flt.real 4) :
      if injected then t.flt.real = s.flt.real else t.flt.real.uncorrected = satInc 16 s.flt.real.uncorrected := by
    cases injected with
    | true => exact h
    | false => exact (congrArg FaultCounts.uncorrected h).trans rfl
  generalize trapNoted core mem injected s = u at *
  by_cases hlost : again ∨ inHandler = true
  · rw [if_pos (by simpa [again] using hlost)]
    obtain ⟨hrecord, hr⟩ := coreLost_record (core := core) (injected := injected) (s := u)
    obtain ⟨ht, hc⟩ := traps_of_record hrecord
    refine ⟨fun h => absurd h hfailed, fun _ => ⟨?_, hcount _ (hr.trans hreal)⟩, fun _ hn hh => absurd hlost (by rintro (h | h); exact hn h; rw [hh] at h; exact absurd h (by decide)), fun _ _ => ⟨?_, ?_, ?_⟩⟩
    · rw [ht, htraps]
      exact List.mem_cons_self
    · rw [hc, BitVec.getLsbD_or, twoPow_core, Bool.or_true]
    · exact fun hs hd h0 => (coreLost_begun (hs.imp_right fun ha => by rw [hdiag]; exact ha) (hserv hd) (hstep.trans h0)).of_ptn hptn
    · exact fun hi ha hd => coreLost_held hi (by rw [hdiag]; exact ha) (hheld hd).1
  · rw [if_neg (by simpa [again] using hlost)]
    refine ⟨fun h => absurd h hfailed, fun _ => ⟨?_, hcount _ hreal⟩, fun _ _ _ => ⟨hcores, hheld⟩, fun _ h => absurd h hlost⟩
    rw [htraps]
    exact List.mem_cons_self

end Sys2Proof.Machine
end

section
/-! The patrol of the memories, and the reports (O29). -/

namespace Sys2Proof.Machine
set_option Elab.async false

-- The patrol of the memories (R526 to R530), and the reports (O29).

/-- Between the two states tags were taken away at most, and the fault record stands. -/
structure PatrolKeeps (s t : State) : Prop where
  tags : TagsFall s t
  record : faultRecord t = faultRecord s
theorem PatrolKeeps.refl {s : State} : PatrolKeeps s s := ⟨.refl, rfl⟩
theorem PatrolKeeps.after {s t u : State} (h₂ : PatrolKeeps t u) (h₁ : PatrolKeeps s t) : PatrolKeeps s u := ⟨h₂.tags.after h₁.tags, h₂.record.trans h₁.record⟩
theorem PatrolKeeps.ite {s t u : State} {c : Prop} [Decidable c] (h₁ : PatrolKeeps s t) (h₂ : PatrolKeeps s u) : PatrolKeeps s (if c then t else u) := by
  split
  · exact h₁
  · exact h₂
theorem PatrolKeeps.of_only {m : Units} {s t : State} (h : Only m s t) (hd : m.diag = false := by rfl) (hf : m.flt = false := by rfl) : PatrolKeeps s t := ⟨.of_only h hd, faultRecord_of_only h hf⟩
theorem failStop_keeps (cause : BitVec 8) (s : State) : PatrolKeeps s (failStop cause s) := ⟨stopStable_tagsFall.failStop cause s, stopStable_faultRecord.failStop cause s⟩
theorem advanceDrain_keeps (s : State) : PatrolKeeps s (advanceDrain s) := by
  unfold advanceDrain
  exact .ite (.ite (.ite (.of_only (beginHandover_only ..)) .refl) ((failStop_keeps ..).after (.ite (.of_only (post_only ..)) .refl))) .refl
/-- The pond admits nothing more (R309). -/
def pondClosed (s : State) : State := { s with mpd := { s.mpd with state := 4, migLogical := 15 }, hop := { s.hop with closed := true, stopCause := 0xAC } }
theorem noSpare_keeps (s : State) : PatrolKeeps s (noSpare s) := by
  have hclosed : PatrolKeeps s (pondClosed s) := ⟨⟨List.Sublist.refl _⟩, rfl⟩
  have heq : noSpare s = if mirrorOn (pondClosed s) then failStop 0xAC (post 0xAC mMillpond [] (pondClosed s)) else advanceDrain (pondClosed s) := rfl
  rw [heq]
  exact .ite ((failStop_keeps ..).after (.after (.of_only (post_only ..)) hclosed)) ((advanceDrain_keeps _).after hclosed)
/-- The channel takes the spare's place step by step (R307). -/
def migrationBegun (logical p t : Nat) (s : State) : State :=
  let s := modChan (modChan s p fun m => { m with role := 3, ueBursts := [] }) t fun m => { m with role := 4, logical }
  mqNote 26 (post 0xAA mMillpond [b1 logical, b1 p, b1 t, b1 1]
    { s with mpd := { s.mpd with state := 3, spare := 15, migLogical := logical, migCursor := 0, migLost := decide ((1 : Nat) = 3) } })
theorem migrate_corrected {logical p : Nat} {s : State} (hp : physOf s logical = some p) : migrate logical 1 s =
    if s.mpd.state = 3 && s.mpd.migLogical = logical then s
    else if s.mpd.spare = 15 then (if s.mpd.state = 4 then s else noSpare (modChan s p fun m => { m with role := 5 }))
    else migrationBegun logical p s.mpd.spare s := by
  unfold migrate
  rw [hp]
  rfl
theorem migrationBegun_keeps (logical p t : Nat) (s : State) : PatrolKeeps s (migrationBegun logical p t s) := by
  unfold migrationBegun
  have hchans : PatrolKeeps s (modChan (modChan s p fun m => { m with role := 3, ueBursts := [] }) t fun m => { m with role := 4, logical }) :=
    .after (.of_only (modChan_only ..)) (.of_only (modChan_only ..))
  generalize modChan (modChan s p fun m => { m with role := 3, ueBursts := [] }) t (fun m => { m with role := 4, logical }) = u at hchans
  exact .after (.of_only (mqNote_only ..)) (.after (.of_only (post_only ..)) ⟨⟨hchans.tags.kept⟩, hchans.record⟩)
theorem migrate_corrected_keeps (logical : Nat) (s : State) : PatrolKeeps s (migrate logical 1 s) := by
  cases hp : physOf s logical with
  | none =>
    have heq : migrate logical 1 s = s := by
      unfold migrate
      rw [hp]
    rw [heq]
    exact .refl
  | some p =>
    rw [migrate_corrected hp]
    exact .ite .refl (.ite (.ite .refl ((noSpare_keeps _).after (.of_only (modChan_only ..)))) (migrationBegun_keeps ..))
/-- A corrected word is counted in its memory, and a channel of the millpond may migrate by it (R306). -/
theorem countCorrected_keeps (mem : Nat) (s : State) : PatrolKeeps s (countCorrected mem s) := by
  have hchan : PatrolKeeps s (modChan s (mem - 0x49) fun m => { m with ce := satInc 32 m.ce, ceTimes := recent s (86400 * oneSec) m.ceTimes ++ [now s] }) := .of_only (modChan_only ..)
  unfold countCorrected
  refine .ite (.of_only (modIsl_only ..)) (.ite ⟨⟨List.Sublist.refl _⟩, rfl⟩ (.ite ⟨⟨List.Sublist.refl _⟩, rfl⟩ (.ite ⟨⟨List.Sublist.refl _⟩, rfl⟩ (.ite ?_ .refl))))
  exact .ite ((migrate_corrected_keeps ..).after hchan) hchan
theorem eccRead_clean {d : Word} {c : BitVec 8} (h : eccRead d c = .clean) : syndromeOf d c = 0 := by
  unfold eccRead at h
  dsimp only at h
  split at h
  next hs => exact BitVec.eq_of_toNat_eq hs
  next hs =>
    split at h
    · exact absurd h (by simp)
    · split at h
      · exact absurd h (by simp)
      · exact absurd h (by simp)
theorem eccRead_syndrome {d : Word} {c : BitVec 8} (h : eccRead d c ≠ .clean) : syndromeOf d c ≠ 0 := by
  intro hz
  refine h ?_
  unfold eccRead
  rw [hz]
  rfl
/-- The word is corrected: its tag goes, and the report counts it (R527). -/
def wordCorrected (mem : BitVec 7) (offset : BitVec 48) (syn : BitVec 8) (injected : Bool) (s : State) : State :=
  report { master := patrolMaster mem.toNat, addr := offset, cause := 1, mem, syndrome := syn, injected } (dropTag mem.toNat offset.toNat s)
def badReport (s : State) (mem : BitVec 7) (offset : BitVec 48) (syn : BitVec 8) (live_ injected : Bool) : Report := {
  master := patrolMaster mem.toNat, addr := offset, cause := 2, mem, syndrome := syn, event := if live_ then patrolEvent mem.toNat else 0, injected, hold := live_ && patrolHold s mem.toNat }
/-- A word that cannot be corrected is reported, and answered where something lives there (R530). -/
def wordBad (mem : BitVec 7) (offset : BitVec 48) (syn : BitVec 8) (live_ otherBad injected : Bool) (s : State) : State :=
  let s := if live_ then s else dropTag mem.toNat offset.toNat s
  let s := report (badReport s mem offset syn live_ injected) s
  if !live_ then s
  else if mem.toNat = 0x59 then (if otherBad then failStopInj injected 0 s else dropTag mem.toNat offset.toNat s)
  else patrolResponse mem.toNat offset.toNat s
theorem exec_sramPatrol {s : State} (hawake : awake s = true) (mem : BitVec 7) (offset : BitVec 48) (data : Word) (check : BitVec 8) (live_ otherBad : Bool) :
    exec (.sramPatrol mem offset data check live_ otherBad) s = .next (match eccRead data check with
      | .clean => s
      | .fixed _ => countCorrected mem.toNat (wordCorrected mem offset (syndromeOf data check) (eccTag s mem.toNat offset.toNat = some (syndromeOf data check)) s)
      | .uncorrectable => wordBad mem offset (syndromeOf data check) live_ otherBad (eccTag s mem.toNat offset.toNat = some (syndromeOf data check)) s) := by
  refine (if_pos hawake).trans ?_
  cases eccRead data check with
  | clean => rfl
  | fixed w => rfl
  | uncorrectable => rfl
section
variable {mem : BitVec 7} {offset : BitVec 48} {syn : BitVec 8} {s : State}
theorem report_tagsFall (r : Report) (s : State) : TagsFall s (report r s) := .of_only (report_only ..)
theorem wordCorrected_left (injected : Bool) : eccTag (wordCorrected mem offset syn injected s) mem.toNat offset.toNat = none ∧
    (wordCorrected mem offset syn injected s).flt.real = (if injected then s.flt.real else countIn s.flt.real 1) ∧
    (wordCorrected mem offset syn injected s).flt.inj = (if injected then countIn s.flt.inj 1 else s.flt.inj) := by
  unfold wordCorrected
  exact ⟨(report_tagsFall ..).none (eccTag_dropTag ..), real_reportAll_one _ _, inj_reportAll_one _ _⟩
/-- A corrected word has no tag more, and is counted as injected where it had one (R527). -/
theorem patrolFixed_left (injected : Bool) : let t := countCorrected mem.toNat (wordCorrected mem offset syn injected s)
    eccTag t mem.toNat offset.toNat = none ∧ (injected = true → t.flt.inj.corrected = satInc 24 s.flt.inj.corrected ∧ t.flt.real = s.flt.real) ∧
      (injected = false → t.flt.real.corrected = satInc 24 s.flt.real.corrected ∧ t.flt.inj = s.flt.inj) := by
  obtain ⟨htag, hreal, hinj⟩ := wordCorrected_left (mem := mem) (offset := offset) (syn := syn) (s := s) injected
  obtain ⟨htags, hrecord⟩ := countCorrected_keeps mem.toNat (wordCorrected mem offset syn injected s)
  dsimp only
  rw [real_of_fault hrecord, inj_of_fault hrecord, hreal, hinj]
  refine ⟨htags.none htag, fun h => ?_, fun h => ?_⟩
  · rw [if_pos h, if_pos h]
    exact ⟨rfl, rfl⟩
  · subst h
    exact ⟨rfl, rfl⟩
theorem wordBad_dead (otherBad injected : Bool) : let t := wordBad mem offset syn false otherBad injected s
    t.dev = s.dev ∧ eccTag t mem.toNat offset.toNat = none ∧ (injected = true → t.flt.inj.uncorrected = satInc 16 s.flt.inj.uncorrected) ∧
      (injected = false → t.flt.real.uncorrected = satInc 16 s.flt.real.uncorrected) := by
  have heq : wordBad mem offset syn false otherBad injected s = report (badReport (dropTag mem.toNat offset.toNat s) mem offset syn false injected) (dropTag mem.toNat offset.toNat s) := rfl
  dsimp only
  rw [heq]
  refine ⟨report_dev_of_not_hold _ rfl, (report_tagsFall ..).none (eccTag_dropTag ..), fun h => ?_, fun h => ?_⟩
  · subst h
    exact (congrArg FaultCounts.uncorrected (inj_reportAll_one _ _)).trans rfl
  · subst h
    exact (congrArg FaultCounts.uncorrected (real_reportAll_one _ _)).trans rfl
theorem patrolHold_context (s : State) : patrolHold s 0x59 = false := by
  unfold patrolHold
  rw [if_neg (by decide), if_neg (by decide), decide_eq_false (by decide), Bool.false_and]
/-- A hopper context that has a good copy is written again from it (log entry 53). -/
theorem wordBad_copied (hmem : mem.toNat = 0x59) (injected : Bool) : let t := wordBad mem offset syn true false injected s
    t.dev = s.dev ∧ eccTag t mem.toNat offset.toNat = none := by
  have heq : wordBad mem offset syn true false injected s = dropTag mem.toNat offset.toNat (report (badReport s mem offset syn true injected) s) := if_pos hmem
  have hhold : (badReport s mem offset syn true injected).hold = false := by
    show (true && patrolHold s mem.toNat) = false
    rw [hmem, patrolHold_context, Bool.and_false]
  dsimp only
  rw [heq, (dropTag_only ..).dev]
  exact ⟨report_dev_of_not_hold _ hhold, eccTag_dropTag ..⟩
/-- Two bad copies of one stop the part (log entry 53). -/
theorem wordBad_begun (hmem : mem.toNat = 0x59) {injected : Bool} (hreal : injected = false ∨ s.diag.allowStop = true) (hdev : inService s.dev = true) (hstep : s.flt.stopStep = 0) :
    StopBegun 0 s (wordBad mem offset syn true true injected s) := by
  have heq : wordBad mem offset syn true true injected s = failStopInj injected 0 (report (badReport s mem offset syn true injected) s) := if_pos hmem
  rw [heq, failStopInj_real (hreal.imp_right fun ha => by rw [(report_only ..).diag]; exact ha)]
  exact (failStop_begun (report_inService hdev) ((report_stopStep ..).trans hstep)).of_ptn (report_only ..).ptn
end
theorem sramPatrol_completes {s : State} (hawake : awake s = true) : ∀ mem offset data check live_ otherBad, Completes (.sramPatrol mem offset data check live_ otherBad) s fun t =>
    let tagged : Prop := eccTag s mem.toNat offset.toNat = some (syndromeOf data check)
    (eccRead data check = .clean → t = s) ∧
    (syndromeOf data check ≠ 0 → eccRead data check ≠ .uncorrectable →
      eccTag t mem.toNat offset.toNat = none ∧ (tagged → t.flt.inj.corrected = satInc 24 s.flt.inj.corrected ∧ t.flt.real = s.flt.real) ∧
      (¬ tagged → t.flt.real.corrected = satInc 24 s.flt.real.corrected ∧ t.flt.inj = s.flt.inj)) ∧
    (eccRead data check = .uncorrectable → live_ = false → t.dev = s.dev ∧ eccTag t mem.toNat offset.toNat = none ∧
      (tagged → t.flt.inj.uncorrected = satInc 16 s.flt.inj.uncorrected) ∧ (¬ tagged → t.flt.real.uncorrected = satInc 16 s.flt.real.uncorrected)) ∧
    (eccRead data check = .uncorrectable → live_ = true → mem = 0x59 →
      (otherBad = false → t.dev = s.dev ∧ eccTag t mem.toNat offset.toNat = none) ∧
      (otherBad = true → (¬ tagged ∨ s.diag.allowStop = true) → inService s.dev = true → s.flt.stopStep = 0 → StopBegun 0 s t)) := by
  intro mem offset data check live_ otherBad
  refine ⟨_, exec_sramPatrol hawake mem offset data check live_ otherBad, ?_⟩
  beta_reduce
  intro tagged
  have hyes (h : tagged) : decide (eccTag s mem.toNat offset.toNat = some (syndromeOf data check)) = true := decide_eq_true h
  have hno (h : ¬tagged) : decide (eccTag s mem.toNat offset.toNat = some (syndromeOf data check)) = false := decide_eq_false h
  generalize decide (eccTag s mem.toNat offset.toNat = some (syndromeOf data check)) = injected at hyes hno ⊢
  cases hread : eccRead data check with
  | clean => exact ⟨fun _ => rfl, fun hs => absurd (eccRead_clean hread) hs, fun h => absurd h (by simp), fun h => absurd h (by simp)⟩
  | fixed w =>
    obtain ⟨htag, hinj, hreal⟩ := patrolFixed_left (mem := mem) (offset := offset) (syn := syndromeOf data check) (s := s) injected
    exact ⟨fun h => absurd h (by simp), fun _ _ => ⟨htag, fun h => hinj (hyes h), fun h => hreal (hno h)⟩, fun h => absurd h (by simp), fun h => absurd h (by simp)⟩
  | uncorrectable =>
    refine ⟨fun h => absurd h (by simp), fun _ h => absurd rfl h, fun _ hlive => ?_, fun _ hlive hmem => ⟨fun hother => ?_, fun hother hreal hdev hstep => ?_⟩⟩
    · subst hlive
      obtain ⟨hdev, htag, hinj, hreal⟩ := wordBad_dead (mem := mem) (offset := offset) (syn := syndromeOf data check) (s := s) otherBad injected
      exact ⟨hdev, htag, fun h => hinj (hyes h), fun h => hreal (hno h)⟩
    · subst hlive hother
      exact wordBad_copied (congrArg BitVec.toNat hmem) injected
    · subst hlive hother
      exact wordBad_begun (congrArg BitVec.toNat hmem) (hreal.imp_left hno) hdev hstep
/-- Settles O29: a set of reports is counted and captured before it holds, and what a patrolled word leads to takes tags away at most. -/
theorem reportsHoldReleaseAndStop : Obligations.ReportsHoldReleaseAndStop := by
  unfold Obligations.ReportsHoldReleaseAndStop
  intro s hawake
  exact ⟨faultReport_completes hawake, firstErrorCopy_completes hawake, quietTimerExpiry_completes hawake, faultHoldRelease_completes hawake, failStop_completes hawake,
    coreTrap_completes hawake, sramPatrol_completes hawake⟩

end Sys2Proof.Machine
end

section
/-! Two margins that run out in one evaluation (O43). -/

namespace Sys2Proof.Machine
set_option Elab.async false

-- Out of margin twice: a head's heater and an eye of the millpond in the same hour (O43).

/-- A part of one head in Ready whose heater has no room left, beside a channel of the millpond whose eye is below its limit, with no spare channel. -/
def twoMarginsState : State := {
  dev := .ready, start := { inReset := false, powerOnReset := false, imageLoaded := true }, img := { arms := 1, heads := 1 },
  gov := { ctxs := [(72, { enable := true, out := 1 })] }, mpd := { state := 2, spare := 15, chans := [(0, { role := 1 })] } }
/-- The head's stop has begun when the channel's migration finds no spare, which gives the stop its own cause (R309). -/
theorem twoMarginsState_closes : ∀ t, exec (.hourlyEvaluation [] (Vector.replicate 9 0)) twoMarginsState = .next t → t.hop.stopCause = 0xAC := by
  have hcause : (match exec (.hourlyEvaluation [] (Vector.replicate 9 0)) twoMarginsState with | .next t => t.hop.stopCause | _ => 0) = 0xAC := by decide +kernel
  intro t ht
  rw [ht] at hcause
  exact hcause
theorem twoMarginsState_heater : marginOf twoMarginsState .heater { arm := 0, head := 0, zone := (getHead twoMarginsState 0).zone } (heaterNeed twoMarginsState 0) < 0 := by decide +kernel
/-- Refutes O43: a head whose heater has run out of margin stops the part with cause 0x62, but in the same evaluation an eye of the millpond below its
limit, with no spare channel, puts 0xAC in the place of that cause. -/
theorem not_fantailRePlans : ¬ Obligations.FantailRePlans := by
  unfold Obligations.FantailRePlans
  intro h
  obtain ⟨hhourly, -⟩ := h twoMarginsState rfl
  obtain ⟨t, ht, -, hrun⟩ := hhourly [] (Vector.replicate 9 0)
  obtain ⟨-, -, -, -, hheads, -⟩ := hrun (by decide)
  have hmember : 0 ∈ (allHeads twoMarginsState).filter fun n => (getCtx twoMarginsState (72 + n)).enable && !(getHead twoMarginsState n).failed := by decide +kernel
  obtain ⟨-, -, hstop⟩ := hheads 0 hmember twoMarginsState_heater (by decide)
  obtain ⟨-, hcause, -⟩ := hstop (by decide) (by decide) (by decide)
  rw [twoMarginsState_closes t ht] at hcause
  exact absurd hcause (by decide)

end Sys2Proof.Machine
end

section
/-! The pages of the flash's window (R479). -/

namespace Sys2Proof.Machine
set_option Elab.async false

-- A transmission, and the pages of the flash's window (R479, R480).

/-- `x` is among what a step from `s` to `t` sends. -/
def SentBy (x : Tx) (s t : State) : Prop := x ∈ t.tx.drop s.tx.length
theorem SentBy.then {x : Tx} {m : Units} {s t u : State} (h : SentBy x s t) (hu : Only m t u) : SentBy x s u := (hu.sent.drop _).subset h
theorem SentBy.since {x : Tx} {m : Units} {s t u : State} (hs : Only m s t) (h : SentBy x t u) : SentBy x s u := List.drop_subset_drop_left _ hs.sent.length_le h
theorem sentBy_send (x : Tx) (s : State) : SentBy x s (send x s) := by
  unfold SentBy send
  simp
theorem flashAnswer_sent (who : FlashReq) (st : Nat) (s : State) : SentBy (.flashStatus who st) s (flashAnswer who st s) := by
  unfold flashAnswer
  exact (sentBy_send _ s).then (mqNote_only ..)
theorem flashRefused_sent (who : FlashReq) (write : Bool) (sec : Nat) (s : State) : SentBy (.flashStatus who 5) s (flashRefused who write sec s) := by
  unfold flashRefused
  exact .since (flashFault_only ..) (flashAnswer_sent ..)
theorem regions_sorted (s : State) : (regions s).Pairwise fun a b => a.kind ≤ b.kind := by
  have h := List.pairwise_mergeSort (le := fun a b : Region => decide (a.kind ≤ b.kind)) (fun a b c hab hbc => by simp at *; omega) (fun a b => by simp; omega)
    ((s.fls.plan.getD defaultPlan).filter fun r => r.kind ≠ 0)
  exact h.imp fun hab => by simpa using hab
/-- The first window page of the regions before `kind`. -/
def pagesBefore (rs : List Region) (kind : Nat) : Nat := ((rs.takeWhile fun r => r.kind < kind).map fun r => r.blocks * pagesPer r).sum
theorem regionBase_eq (s : State) (kind : Nat) : regionBase s kind = pagesBefore (regions s) kind := rfl
/-- The pages of a region lie before those of the regions of a later kind. -/
theorem pagesBefore_add_le {rs : List Region} {q : Region} {kind : Nat} (hsorted : rs.Pairwise fun a b => a.kind ≤ b.kind) (hq : q ∈ rs) (hlt : q.kind < kind) :
    pagesBefore rs q.kind + q.blocks * pagesPer q ≤ pagesBefore rs kind := by
  induction rs with
  | nil => cases hq
  | cons a rs ih =>
    obtain ⟨ha, hsorted⟩ := List.pairwise_cons.1 hsorted
    have hfirst (k : Nat) : pagesBefore (a :: rs) k = if a.kind < k then a.blocks * pagesPer a + pagesBefore rs k else 0 := by
      unfold pagesBefore
      rw [List.takeWhile_cons]
      by_cases h : a.kind < k <;> simp [h]
    rcases List.mem_cons.1 hq with rfl | hq
    · rw [hfirst, hfirst, if_neg (Nat.lt_irrefl _), if_pos hlt]
      omega
    · have hrest := ih hsorted hq
      have hle := ha q hq
      rw [hfirst, hfirst, if_pos (by omega : a.kind < kind)]
      split <;> omega
/-- A page of the first region of a kind is a window page of that region alone. -/
theorem pageAt_windowPage {s : State} {p : PageRef} {r : Region} (h : pageOk s p = some r) : pageAt s (windowPage s p) = some (r, p.page) := by
  unfold pageOk at h
  obtain ⟨hr, hpage⟩ := Option.filter_eq_some_iff.1 h
  have hpage : p.page < r.blocks * pagesPer r := by simpa using hpage
  unfold regionOf at hr
  obtain ⟨hkind, before, after, hlist, hbefore⟩ := List.find?_eq_some_iff_append.1 hr
  have hkind : r.kind = p.kind := by simpa using hkind
  have hsorted := regions_sorted s
  have hnone : before.findSome? (fun q => if regionBase s q.kind ≤ windowPage s p && windowPage s p < regionBase s q.kind + q.blocks * pagesPer q then
      some (q, windowPage s p - regionBase s q.kind) else none) = none := by
    refine List.findSome?_eq_none_iff.2 fun q hq => if_neg ?_
    have hmem : q ∈ regions s := by
      rw [hlist]
      exact List.mem_append_left _ hq
    have hle : q.kind ≤ r.kind := by
      rw [hlist] at hsorted
      exact (List.pairwise_append.1 hsorted).2.2 q hq r List.mem_cons_self
    have hne : q.kind ≠ p.kind := by simpa using hbefore q hq
    have hadd := pagesBefore_add_le hsorted hmem (show q.kind < p.kind by omega)
    have hwindow : windowPage s p = pagesBefore (regions s) p.kind + p.page := rfl
    rw [hwindow, regionBase_eq]
    simp
    omega
  unfold pageAt
  rw [hlist, List.findSome?_append, hnone, Option.none_or, List.findSome?_cons]
  have hwindow : windowPage s p = regionBase s r.kind + p.page := by
    rw [hkind]
    rfl
  rw [hwindow]
  simp [hpage]
theorem pageBusy_windowPage {s : State} {p : PageRef} {r : Region} (h : pageOk s p = some r) :
    pageBusy s (windowPage s p) = decide (2 ≤ (getBank s (pagePlace r p.page).1).op) := by
  unfold pageBusy
  rw [pageAt_windowPage h]
  rfl

end Sys2Proof.Machine
end

section
/-! A page of the flash is read (R483, R490 to R492). -/

namespace Sys2Proof.Machine
set_option Elab.async false

-- A page of the flash is read (R483, R490 to R492).

/-- A busy bank refuses the read of a core. -/
def busyCounted (s : State) : State := { s with fls := { s.fls with busyFault := satInc 16 s.fls.busyFault } }
/-- The page register of the bank that reads. -/
def pageTaken (sec : Nat) (r : Region) (page : Nat) (s : State) : State :=
  modBank s (pagePlace r page).1 fun k => { k with register := some (sec / 16), block := physBlock s r.kind (pagePlace r page).1 (pagePlace r page).2.1, page := (pagePlace r page).2.2 }
theorem pageTaken_only (sec : Nat) (r : Region) (page : Nat) (s : State) : Only { fls := true } s (pageTaken sec r page s) := modBank_only ..
theorem ladder_from (steps : List (Bool × Nat)) (k : Nat) :
    ((steps.zipIdx k).find? fun x => x.1.1).map (·.2) = (steps.findIdx? (·.1)).map (· + k) := by
  induction steps generalizing k with
  | nil => rfl
  | cons x xs ih =>
    rw [List.zipIdx_cons, List.find?_cons, List.findIdx?_cons]
    cases hx : x.1 with
    | true => simp
    | false =>
      simp only [Bool.false_eq_true, if_false]
      rw [ih, Option.map_map]
      congr 1
      funext n
      simp only [Function.comp_apply]
      omega
theorem ladder_index (steps : List (Bool × Nat)) : (ladder steps).map (·.1) = (steps.take 9).findIdx? (·.1) := by
  have h := ladder_from (steps.take 9) 0
  unfold ladder
  rw [Option.map_map]
  simpa [Function.comp_def] using h
theorem flashErased_pageTaken (sec : Nat) (r : Region) (page : Nat) (s : State) (w : Nat) : flashErased (pageTaken sec r page s) w = flashErased s w := rfl
theorem flashData_pageTaken (sec : Nat) (r : Region) (page : Nat) (s : State) (w : Nat) : flashData (pageTaken sec r page s) w = flashData s w := rfl
theorem readDone_register (b blk n bits : Nat) (s : State) (k : Nat) : (getBank (readDone b blk n bits s) k).register = (getBank s k).register := by
  have hblk (u : State) (c : Prop) [Decidable c] : getBank (if c then modBlk u blk fun d => { d with refreshDue := true } else u) k = getBank u k := by split <;> rfl
  have hbank (u : State) : (getBank (if bits = 0 then u else modBank u b fun k => { k with ceSect := satInc 16 k.ceSect }) k).register = (getBank u k).register := by
    split
    · rfl
    · by_cases hk : k = b
      · subst hk
        rw [getBank_modBank]
      · rw [getBank_modBank_other _ _ hk]
  unfold readDone
  dsimp only
  rw [hblk, hbank]
  split <;> rfl
theorem readDone_retry {n : Nat} (b blk bits : Nat) (s : State) (hn : 1 ≤ n) : tabGet 0 (readDone b blk n bits s).fls.retry (n - 1) = satInc 8 (tabGet 0 s.fls.retry (n - 1)) := by
  unfold readDone
  rw [if_neg (by omega : ¬ n = 0)]
  have hsame (u : State) (c : Prop) [Decidable c] : (if c then modBlk u blk fun d => { d with refreshDue := true } else u).fls.retry = u.fls.retry := by split <;> rfl
  have hbank (u : State) : (if bits = 0 then u else modBank u b fun k => { k with ceSect := satInc 16 k.ceSect }).fls.retry = u.fls.retry := by split <;> rfl
  dsimp only
  rw [hsame, hbank]
  exact tabMod_same ..
/-- A read that the ladder brings to an end. -/
def sectorRead (who : FlashReq) (sec : Nat) (r : Region) (page n bits : Nat) (s : State) : State :=
  flashAnswer who (if flashErased s sec then 1 else 0)
    (send (.flashData who (flashData s sec)) (readDone (pagePlace r page).1 (512 * (pagePlace r page).1 + physBlock s r.kind (pagePlace r page).1 (pagePlace r page).2.1) n bits (pageTaken sec r page s)))
theorem readSector_read {who : FlashReq} {sec : Nat} {steps : List (Bool × Nat)} {s : State} {r : Region} {page n bits : Nat} (hp : pageAt s (sec / 16) = some (r, page))
    (hl : ladder steps = some (n, bits)) : readSector who sec steps s = sectorRead who sec r page n bits s := by
  unfold readSector
  rw [hp]
  dsimp only
  rw [hl]
  rfl
/-- What a sector that was read leaves (R490, R491). -/
structure SectorRead (who : FlashReq) (sec b n : Nat) (s t : State) : Prop where
  answered : SentBy (.flashStatus who (if flashErased s sec then 1 else 0)) s t
  data : SentBy (.flashData who (flashData s sec)) s t
  register : (getBank t b).register = some (sec / 16)
  retried : 1 ≤ n → tabGet 0 t.fls.retry (n - 1) = satInc 8 (tabGet 0 s.fls.retry (n - 1))
theorem getBank_of_only {m : Units} {s t : State} (b : Nat) (h : Only m s t) (hm : m.fls = false := by rfl) : getBank t b = getBank s b := by
  unfold getBank
  rw [h.fls hm]
theorem sectorRead_reads (who : FlashReq) (sec : Nat) (r : Region) (page n bits : Nat) (s : State) :
    SectorRead who sec (pagePlace r page).1 n s (sectorRead who sec r page n bits s) := by
  unfold sectorRead
  generalize 512 * (pagePlace r page).1 + physBlock s r.kind (pagePlace r page).1 (pagePlace r page).2.1 = blk
  have hread := (readDone_only (pagePlace r page).1 blk n bits (pageTaken sec r page s)).after (pageTaken_only ..)
  generalize hv : readDone (pagePlace r page).1 blk n bits (pageTaken sec r page s) = v at hread ⊢
  have hregister : (getBank v (pagePlace r page).1).register = some (sec / 16) := by
    rw [← hv, readDone_register]
    unfold pageTaken
    rw [getBank_modBank]
  have hretry (hn : 1 ≤ n) : tabGet 0 v.fls.retry (n - 1) = satInc 8 (tabGet 0 s.fls.retry (n - 1)) := by
    rw [← hv, readDone_retry _ _ _ _ hn]
    rfl
  refine ⟨.since hread (.since (send_only ..) (flashAnswer_sent ..)), .since hread ((sentBy_send ..).then (flashAnswer_only ..)), ?_, fun hn => ?_⟩
  · rw [getBank_of_only _ (flashAnswer_only ..)]
    exact hregister
  · rw [(flashAnswer_only ..).fls rfl]
    exact hretry hn
/-- A read that the ladder did not bring to an end. -/
def sectorLost (who : FlashReq) (sec : Nat) (r : Region) (page : Nat) (s : State) : State :=
  flashAnswer who 6 (readLost (pagePlace r page).1 sec { master := flashMaster who, access := BitVec.ofNat 3 (flashAccess who false), cause := if isCore who then 3 else 2 } (pageTaken sec r page s))
theorem readSector_lost {who : FlashReq} {sec : Nat} {steps : List (Bool × Nat)} {s : State} {r : Region} {page : Nat} (hp : pageAt s (sec / 16) = some (r, page))
    (hl : ladder steps = none) (hsteps : 9 ≤ steps.length) :
    readSector who sec steps s = match who with
      | .tre ch => haltReader ch sec (sectorLost who sec r page s)
      | _ => sectorLost who sec r page s := by
  unfold readSector
  rw [hp]
  dsimp only
  rw [hl]
  dsimp only
  rw [if_neg (by omega)]
  rfl
theorem sectorLost_only (who : FlashReq) (sec : Nat) (r : Region) (page : Nat) (s : State) : Only { dev := true, flt := true, evt := true, mqs := true, alks := true, islands := true, heads := true, gov := true, mrc := true, fls := true, slu := true, fan := true, tx := true, free := true } s (sectorLost who sec r page s) := by
  unfold sectorLost
  exact (flashAnswer_only ..).after ((readLost_only ..).after ((pageTaken_only ..).mono))
theorem readLost_ueSect (b sec : Nat) (r : Report) (s : State) : (getBank (readLost b sec r s) b).ueSect = satInc 16 (getBank s b).ueSect := by
  unfold readLost
  dsimp only
  rw [getBank_of_only _ (report_only ..), getBank_of_only _ (post_only ..), getBank_modBank]
/-- What a sector that could not be read leaves (R492). -/
structure SectorLost (who : FlashReq) (b : Nat) (s t : State) : Prop where
  counted : (getBank t b).ueSect = satInc 16 (getBank s b).ueSect
  answered : SentBy (.flashStatus who 6) s t
theorem sectorLost_loses (who : FlashReq) (sec : Nat) (r : Region) (page : Nat) (s : State) : SectorLost who (pagePlace r page).1 s (sectorLost who sec r page s) := by
  unfold sectorLost
  refine ⟨?_, .since (pageTaken_only ..) (.since (readLost_only ..) (flashAnswer_sent ..))⟩
  rw [getBank_of_only _ (flashAnswer_only ..), readLost_ueSect]
  unfold pageTaken
  rw [getBank_modBank]
theorem SectorLost.then {who : FlashReq} {b : Nat} {m : Units} {s t u : State} (h : SectorLost who b s t) (hu : Only m t u) (hm : m.fls = false := by rfl) : SectorLost who b s u :=
  ⟨(congrArg Bank.ueSect (getBank_of_only b hu hm)).trans h.counted, h.answered.then hu⟩
theorem haltReader_halts {ch sec : Nat} {s : State} (hstate : (getTre s ch).state = 1) (hruns : (getTre s ch).running = true) :
    (getTre (haltReader ch sec s) ch).state = 3 ∧ (getTre (haltReader ch sec s) ch).cause = 8 := by
  unfold haltReader
  rw [if_pos (by simp [hstate, hruns]), getTre_haltChannel, getTre_modTre]
  exact ⟨rfl, rfl⟩
theorem readSector_loses {who : FlashReq} {sec : Nat} {steps : List (Bool × Nat)} {s : State} {r : Region} {page : Nat} (hp : pageAt s (sec / 16) = some (r, page))
    (hl : ladder steps = none) (hsteps : 9 ≤ steps.length) :
    SectorLost who (pagePlace r page).1 s (readSector who sec steps s) ∧
    ∀ ch, who = .tre ch → (getTre s ch).state = 1 → (getTre s ch).running = true → (getTre (readSector who sec steps s) ch).state = 3 ∧ (getTre (readSector who sec steps s) ch).cause = 8 := by
  rw [readSector_lost hp hl hsteps]
  have hlost := sectorLost_loses who sec r page s
  have hsame (ch : Nat) : getTre (sectorLost who sec r page s) ch = getTre s ch := getTre_of_only ch (sectorLost_only ..)
  cases who with
  | tre ch =>
    refine ⟨hlost.then (haltReader_only ..), fun k hk hstate hruns => ?_⟩
    cases hk
    exact haltReader_halts (by rw [hsame]; exact hstate) (by rw [hsame]; exact hruns)
  | mc c => exact ⟨hlost, nofun⟩
  | diag => exact ⟨hlost, nofun⟩
  | tally => exact ⟨hlost, nofun⟩
  | update => exact ⟨hlost, nofun⟩
  | controller => exact ⟨hlost, nofun⟩

end Sys2Proof.Machine
end

section
/-! What reads and stops leave of the flash, and a block that is retired (R495). -/

namespace Sys2Proof.Machine
set_option Elab.async false

-- What reads and stops leave of the flash (R490, R523), and a block that is retired (R495).

/-- A block but for the mark that it is due for a refresh. -/
def blockBase (d : FlashBlock) : FlashBlock := { d with refreshDue := false }
/-- Reads leave the contents of the flash, its operations, and its blocks but for their refresh. -/
structure ReadsKeep (s t : State) : Prop where
  sectors : t.fls.sectors = s.fls.sectors
  op : ∀ b, (getBank t b).op = (getBank s b).op
  block : ∀ k, blockBase (getBlk t k) = blockBase (getBlk s k)
  retiredCnt : t.fls.retiredCnt = s.fls.retiredCnt
theorem ReadsKeep.refl {s : State} : ReadsKeep s s := ⟨rfl, fun _ => rfl, fun _ => rfl, rfl⟩
theorem ReadsKeep.after {s t u : State} (h₂ : ReadsKeep t u) (h₁ : ReadsKeep s t) : ReadsKeep s u :=
  ⟨h₂.sectors.trans h₁.sectors, fun b => (h₂.op b).trans (h₁.op b), fun k => (h₂.block k).trans (h₁.block k), h₂.retiredCnt.trans h₁.retiredCnt⟩
theorem ReadsKeep.of_fls {s t : State} (h : t.fls = s.fls) : ReadsKeep s t :=
  ⟨by rw [h], fun b => by unfold getBank; rw [h], fun k => by unfold getBlk; rw [h], by rw [h]⟩
theorem ReadsKeep.of_only {m : Units} {s t : State} (h : Only m s t) (hm : m.fls = false := by rfl) : ReadsKeep s t := .of_fls (h.fls hm)
theorem ReadsKeep.ite {s t u : State} {c : Prop} [Decidable c] (h₁ : ReadsKeep s t) (h₂ : ReadsKeep s u) : ReadsKeep s (if c then t else u) := by
  split
  · exact h₁
  · exact h₂
theorem ReadsKeep.each {α : Type} {f : α → State → State} (hf : ∀ x s, ReadsKeep s (f x s)) (xs : List α) (s : State) : ReadsKeep s (each xs f s) := by
  induction xs generalizing s with
  | nil => exact .refl
  | cons x xs ih =>
    rw [each_cons]
    exact (ih _).after (hf x s)
theorem modBank_keeps {f : Bank → Bank} (hf : ∀ k, (f k).op = k.op) (b : Nat) (s : State) : ReadsKeep s (modBank s b f) := by
  refine ⟨rfl, fun k => ?_, fun _ => rfl, rfl⟩
  by_cases hk : k = b
  · subst hk
    rw [getBank_modBank, hf]
  · rw [getBank_modBank_other _ _ hk]
theorem refreshMarked_keeps (k : Nat) (s : State) : ReadsKeep s (modBlk s k fun d => { d with refreshDue := true }) := by
  refine ⟨rfl, fun _ => rfl, fun j => ?_, rfl⟩
  by_cases hj : j = k
  · subst hj
    rw [getBlk_modBlk]
    rfl
  · rw [getBlk_modBlk_other _ _ hj]
theorem readDone_keeps (b blk n bits : Nat) (s : State) : ReadsKeep s (readDone b blk n bits s) := by
  have hretry : ReadsKeep s (if n = 0 then s else { s with fls := { s.fls with retry := tabMod 0 s.fls.retry (n - 1) (satInc 8) } }) :=
    .ite .refl ⟨rfl, fun _ => rfl, fun _ => rfl, rfl⟩
  unfold readDone
  dsimp only
  generalize (if n = 0 then s else { s with fls := { s.fls with retry := tabMod 0 s.fls.retry (n - 1) (satInc 8) } }) = u at hretry ⊢
  have hbits : ReadsKeep s (if bits = 0 then u else modBank u b fun k => { k with ceSect := satInc 16 k.ceSect }) :=
    .ite hretry ((modBank_keeps (by exact fun _ => rfl) b u).after hretry)
  exact .ite ((refreshMarked_keeps blk _).after hbits) hbits
theorem readLost_keeps (b sec : Nat) (r : Report) (s : State) : ReadsKeep s (readLost b sec r s) := by
  unfold readLost
  exact .after (.of_only (report_only ..)) (.after (.of_only (post_only ..)) (modBank_keeps (by exact fun _ => rfl) b s))
theorem readSector_keeps (who : FlashReq) (sec : Nat) (steps : List (Bool × Nat)) (s : State) : ReadsKeep s (readSector who sec steps s) := by
  unfold readSector
  split
  · exact .refl
  next r page _ =>
    have hp : ReadsKeep s (pageTaken sec r page s) := modBank_keeps (by exact fun _ => rfl) _ s
    dsimp only
    split
    · exact .after (.of_only (flashAnswer_only ..)) (.after (.of_only (send_only ..)) ((readDone_keeps ..).after hp))
    · refine .ite hp ?_
      have hlost : ReadsKeep s (sectorLost who sec r page s) := .after (.of_only (flashAnswer_only ..)) ((readLost_keeps ..).after hp)
      split
      · exact .after (.of_only (haltReader_only ..)) hlost
      · exact hlost
theorem readLineDirect_keeps (line : Nat) (steps : List (Bool × Nat)) (s : State) : ReadsKeep s (readLineDirect line steps s) := by
  unfold readLineDirect
  split
  · exact .refl
  next r page _ =>
    have hp : ReadsKeep s (modBank s (pagePlace r page).1 fun k => { k with register := some (line / 64), block := physBlock s r.kind (pagePlace r page).1 (pagePlace r page).2.1, page := (pagePlace r page).2.2 }) :=
      modBank_keeps (by exact fun _ => rfl) _ s
    dsimp only
    split
    · exact .after (.of_only (fetchAnswer_only ..)) ((readDone_keeps ..).after hp)
    · exact .ite hp (.after (.each (fun _ _ => .of_only (haltReader_only ..)) _ _) (.after (.of_only (fetchAnswer_only ..)) ((readLost_keeps ..).after hp)))
theorem serveWaits_keeps (s : State) : ReadsKeep s (serveWaits s) := by
  unfold serveWaits
  refine .after (.each (fun w t => ?_) _ _) ⟨rfl, fun _ => rfl, fun _ => rfl, rfl⟩
  split
  · exact readLineDirect_keeps ..
  · split
    · exact readSector_keeps ..
    · exact .refl

/-- A stop leaves the banks and blocks of the flash. -/
structure FlashKept (s t : State) : Prop where
  banks : t.fls.banks = s.fls.banks
  blocks : t.fls.blocks = s.fls.blocks
  retiredCnt : t.fls.retiredCnt = s.fls.retiredCnt
theorem FlashKept.refl {s : State} : FlashKept s s := ⟨rfl, rfl, rfl⟩
theorem FlashKept.after {s t u : State} (h₂ : FlashKept t u) (h₁ : FlashKept s t) : FlashKept s u :=
  ⟨h₂.banks.trans h₁.banks, h₂.blocks.trans h₁.blocks, h₂.retiredCnt.trans h₁.retiredCnt⟩
theorem FlashKept.of_only {m : Units} {s t : State} (h : Only m s t) (hm : m.fls = false := by rfl) : FlashKept s t := by
  have hfls := h.fls hm
  exact ⟨by rw [hfls], by rw [hfls], by rw [hfls]⟩
theorem FlashKept.ite {s t u : State} {c : Prop} [Decidable c] (h₁ : FlashKept s t) (h₂ : FlashKept s u) : FlashKept s (if c then t else u) := by
  split
  · exact h₁
  · exact h₂
theorem FlashKept.each {α : Type} {f : α → State → State} (hf : ∀ x s, FlashKept s (f x s)) (xs : List α) (s : State) : FlashKept s (each xs f s) := by
  induction xs generalizing s with
  | nil => exact .refl
  | cons x xs ih =>
    rw [each_cons]
    exact (ih _).after (hf x s)
theorem putFlash_kept (w : Nat) (d : BitVec 8192) (s : State) : FlashKept s (putFlash w d s) := ⟨rfl, rfl, rfl⟩
theorem writeElem_flashKept (u : Nat) (b : Block) (s : State) : FlashKept s (writeElem u b s) := by
  unfold writeElem
  split
  · exact .of_only (setFrame_only ..)
  · exact .of_only (writeSlot_only ..)
  · unfold putFlashBlock
    exact .each (fun _ _ => putFlash_kept ..) _ _
  · exact .of_only (m := { tre := true }) (.upd .refl)
  · exact .refl
theorem moveUnit_flashKept (n : Nat) (d : Descriptor) (s : State) : FlashKept s (moveUnit n d s).2 := by
  unfold moveUnit
  extract_lets u
  split
  · split
    · exact .refl
    · exact writeElem_flashKept ..
  · split
    · exact .refl
    · split
      · exact .after (writeElem_flashKept ..) (.of_only (takeStream_only ..))
      · exact writeElem_flashKept ..
  · split
    · exact .refl
    · split
      · exact .refl
      · exact writeElem_flashKept ..
  · exact writeElem_flashKept ..
  · exact .ite (writeElem_flashKept ..) .refl
theorem moveUntil_flashKept (d : Descriptor) (k n : Nat) (s : State) : FlashKept s (moveUntil d k n s) := by
  induction k generalizing n s with
  | zero => exact .refl
  | succ k ih =>
    unfold moveUntil
    refine .ite .refl ?_
    have hmoved := moveUnit_flashKept n d s
    split
    · exact .refl
    next t ht =>
      rw [ht] at hmoved
      exact (ih _ _).after hmoved
theorem stopChannels_flashKept (s : State) : FlashKept s (stopChannels s) := by
  unfold stopChannels
  refine .each (fun ch t => .ite ?_ .refl) _ _
  unfold stopChannel
  refine .after (.of_only (modTre_only ..)) ?_
  split
  · exact .ite (.after (moveUntil_flashKept ..) (.of_only (nextFree_only _))) .refl
  · exact .refl
theorem stopStable_flashKept : StopStable FlashKept where
  refl _ := .refl
  trans h₁ h₂ := h₂.after h₁
  plain h := .of_only h
  noted h _ := .of_only h
  completed cause s := .of_only (completeAll_only ..)
  channels s := stopChannels_flashKept s
  gone s := .of_only (dropGone_only s)
  released s := .of_only (releaseArms_only s)
  unload a s := .of_only (unloadArm_only a s)
  frame a s := .of_only (vcmFrame_only a s)
  visits s := .of_only (endVisits_only s)
  dark a s := .of_only (armDark_only a s)
theorem advanceDrain_flashKept (s : State) : FlashKept s (advanceDrain s) := by
  unfold advanceDrain
  exact .ite (.ite (.ite (.of_only (beginHandover_only ..)) .refl) (.after (stopStable_flashKept.failStop ..) (.ite (.of_only (post_only ..)) .refl))) .refl
theorem poolEmpty_flashKept (s : State) : FlashKept s (poolEmpty s) := by
  unfold poolEmpty
  exact .ite .refl (.after (advanceDrain_flashKept _) ⟨rfl, rfl, rfl⟩)
theorem notePool_flashKept (s : State) : FlashKept s (notePool s) := by
  unfold notePool
  exact .ite (.after (.of_only (post_only ..)) ⟨rfl, rfl, rfl⟩) ⟨rfl, rfl, rfl⟩
theorem FlashKept.bank {s t : State} (h : FlashKept s t) (b : Nat) : getBank t b = getBank s b := by
  unfold getBank
  rw [h.banks]
theorem FlashKept.block {s t : State} (h : FlashKept s t) (k : Nat) : getBlk t k = getBlk s k := by
  unfold getBlk
  rw [h.blocks]
/-- A step that keeps the operations of the banks and the retired blocks. -/
structure RetiredStay (s t : State) : Prop where
  banks : t.fls.banks = s.fls.banks
  retired : ∀ k, (getBlk t k).retired = (getBlk s k).retired
  retiredCnt : t.fls.retiredCnt = s.fls.retiredCnt
theorem RetiredStay.of_kept {s t : State} (h : FlashKept s t) : RetiredStay s t := ⟨h.banks, fun k => congrArg _ (h.block k), h.retiredCnt⟩
theorem RetiredStay.after {s t u : State} (h₂ : RetiredStay t u) (h₁ : RetiredStay s t) : RetiredStay s u :=
  ⟨h₂.banks.trans h₁.banks, fun k => (h₂.retired k).trans (h₁.retired k), h₂.retiredCnt.trans h₁.retiredCnt⟩
/-- What a region block's physical block holds goes to block `b` of the pool. -/
def movedTo (old : FlashBlock) (d : FlashBlock) : FlashBlock := { d with nextPage := old.nextPage, closed := old.closed, refreshDue := false, torn := old.torn }
def blockMoved (kind bank rblock b : Nat) (s : State) : State :=
  { modBlk s (512 * bank + b) (movedTo (getBlk s (512 * bank + physBlock s kind bank rblock))) with
    fls := { (modBlk s (512 * bank + b) (movedTo (getBlk s (512 * bank + physBlock s kind bank rblock)))).fls with map := tabSet 0 s.fls.map (mapKey kind bank rblock) b } }
theorem moveBlock_of_some {kind bank rblock b : Nat} {s : State} (h : leastWorn s bank = some b) : moveBlock kind bank rblock s = notePool (blockMoved kind bank rblock b s) := by
  unfold moveBlock
  rw [h]
  rfl
theorem moveBlock_of_none {kind bank rblock : Nat} {s : State} (h : leastWorn s bank = none) : moveBlock kind bank rblock s = poolEmpty s := by
  unfold moveBlock
  rw [h]
theorem getBlk_blockMoved (kind bank rblock b k : Nat) (s : State) : getBlk (blockMoved kind bank rblock b s) k =
    if k = 512 * bank + b then movedTo (getBlk s (512 * bank + physBlock s kind bank rblock)) (getBlk s k) else getBlk s k := by
  split
  next h =>
    subst h
    exact getBlk_modBlk ..
  next h => exact getBlk_modBlk_other _ _ h
theorem blockMoved_retiredStay (kind bank rblock b : Nat) (s : State) : RetiredStay s (blockMoved kind bank rblock b s) := by
  refine ⟨rfl, fun k => ?_, rfl⟩
  rw [getBlk_blockMoved]
  split <;> rfl
theorem moveBlock_retiredStay (kind bank rblock : Nat) (s : State) : RetiredStay s (moveBlock kind bank rblock s) := by
  cases h : leastWorn s bank with
  | none =>
    rw [moveBlock_of_none h]
    exact .of_kept (poolEmpty_flashKept s)
  | some b =>
    rw [moveBlock_of_some h]
    exact .after (.of_kept (notePool_flashKept _)) (blockMoved_retiredStay ..)
/-- What a block that is retired leaves (R495). -/
structure Retired (b : Nat) (s t : State) : Prop where
  banks : t.fls.banks = s.fls.banks
  retired : (getBlk t b).retired = true
  counted : t.fls.retiredCnt = satInc 8 s.fls.retiredCnt
def retiredMark (d : FlashBlock) : FlashBlock := { d with retired := true, flag := false }
def blockRetired (b : Nat) (s : State) : State := { modBlk s b retiredMark with fls := { (modBlk s b retiredMark).fls with retiredCnt := satInc 8 s.fls.retiredCnt } }
theorem retireBlock_eq (kind bank rblock : Nat) (s : State) :
    retireBlock kind bank rblock s = notePool (post 0x95 mFlash [] (moveBlock kind bank rblock (blockRetired (512 * bank + physBlock s kind bank rblock) s))) := rfl
theorem retireBlock_retires (kind bank rblock : Nat) (s : State) : Retired (512 * bank + physBlock s kind bank rblock) s (retireBlock kind bank rblock s) := by
  rw [retireBlock_eq]
  generalize 512 * bank + physBlock s kind bank rblock = b
  have hstay := ((RetiredStay.of_kept (notePool_flashKept _)).after (.of_kept (.of_only (post_only 0x95 mFlash [] _)))).after (moveBlock_retiredStay kind bank rblock (blockRetired b s))
  have hmarked : (getBlk (blockRetired b s) b).retired = true := by
    have h : getBlk (blockRetired b s) b = retiredMark (getBlk s b) := getBlk_modBlk ..
    rw [h]
    rfl
  exact ⟨hstay.banks, (hstay.retired b).trans hmarked, hstay.retiredCnt⟩

end Sys2Proof.Machine
end

section
/-! The flash under its owners (O30). -/

namespace Sys2Proof.Machine
set_option Elab.async false

-- The pages of the flash are read, programmed and erased under their owners (O30).

theorem Completes.live {c : Instr} {s t₀ : State} {P : State → Prop} (h : exec c s = .next t₀) (hP : ∀ t, t = t₀ → P t) : Completes c s P := ⟨t₀, h, hP _ rfl⟩
theorem sentBy_answer {m : Units} (who : FlashReq) (st : Nat) {s u : State} (h : Only m s u) : SentBy (.flashStatus who st) s (flashAnswer who st u) := .since h (flashAnswer_sent ..)
/-- O30's first part, a page that is read (R483, R490 to R492). -/
theorem flashPageRead_reads {s : State} (hawake : awake s = true) (who : FlashReq) (p : PageRef) (sector : Fin 16) (steps : List (Bool × Nat)) :
    Completes (.flashPageRead who p sector steps) s fun t =>
      (pageOk s p = none → SentBy (.flashStatus who 5) s t) ∧
      ∀ r, pageOk s p = some r →
        let b := (pagePlace r p.page).1
        let sec := 16 * windowPage s p + sector.val
        let may : Prop := r.access ≠ 0 ∨ who = .update ∨ who = .controller
        (¬ may → SentBy (.flashStatus who 5) s t) ∧
        (may → 2 ≤ (getBank s b).op → (isCore who = true → SentBy (.flashStatus who 4) s t ∧ t.fls.busyFault = satInc 16 s.fls.busyFault) ∧
          (isCore who = false → t = { s with fls := { s.fls with waits := s.fls.waits ++ [{ who := some who, sec, steps }] } })) ∧
        (may → (getBank s b).op < 2 → ∀ n, (steps.take 9).findIdx? (·.1) = some n → SectorRead who sec b n s t) ∧
        (may → (getBank s b).op < 2 → (steps.take 9).findIdx? (·.1) = none → 9 ≤ steps.length → SectorLost who b s t ∧
          ∀ ch, who = .tre ch → (getTre s ch).state = 1 → (getTre s ch).running = true → (getTre t ch).state = 3 ∧ (getTre t ch).cause = 8) := by
  refine Completes.live (if_pos hawake) fun t ht => ⟨fun hnone => ?_, fun r hr => ?_⟩
  · rw [hnone] at ht
    rw [ht]
    exact flashRefused_sent ..
  rw [hr] at ht
  dsimp only at ht
  have hrefuse : (r.access = 0 && who ≠ .update && who ≠ .controller) = true ↔ ¬(r.access ≠ 0 ∨ who = .update ∨ who = .controller) := by simp [and_assoc]
  refine ⟨fun hmay => ?_, fun hmay hbusy => ?_, fun hmay hfree n hn => ?_, fun hmay hfree hn hsteps => ?_⟩
  · rw [if_pos (hrefuse.2 hmay)] at ht
    rw [ht]
    exact flashRefused_sent ..
  · rw [if_neg (fun h => hrefuse.1 h hmay), if_pos (by rw [pageBusy_windowPage hr]; simpa using hbusy)] at ht
    refine ⟨fun hcore => ?_, fun hcore => ?_⟩
    · rw [if_pos hcore] at ht
      rw [ht]
      refine ⟨.since (s := s) (t := busyCounted s) (m := { fls := true }) (.upd .refl) (sentBy_answer who 4 (flashFault_only ..)), ?_⟩
      rw [(flashAnswer_only ..).fls rfl, (flashFault_only ..).fls rfl]
    · rw [if_neg (by simp [hcore])] at ht
      exact ht
  all_goals
    rw [if_neg (fun h => hrefuse.1 h hmay), if_neg (by rw [pageBusy_windowPage hr]; simpa using hfree)] at ht
    have hpage : pageAt s ((16 * windowPage s p + sector.val) / 16) = some (r, p.page) := by
      rw [show (16 * windowPage s p + sector.val) / 16 = windowPage s p by omega]
      exact pageAt_windowPage hr
    have hladder := ladder_index steps
    rw [hn] at hladder
  · obtain ⟨⟨_, bits⟩, hl, rfl⟩ := Option.map_eq_some_iff.1 hladder
    rw [readSector_read hpage hl] at ht
    rw [ht]
    exact sectorRead_reads ..
  · rw [ht]
    exact readSector_loses hpage (Option.map_eq_none_iff.1 hladder) hsteps
/-- O30's second part, sectors that are programmed (R484 to R486). -/
theorem flashProgram_programs {s : State} (hawake : awake s = true) (who : FlashReq) (p : PageRef) (first : Fin 16) (sectors : List (BitVec 8192)) :
    Completes (.flashProgram who p first sectors) s fun t =>
      (pageOk s p = none → SentBy (.flashStatus who 5) s t) ∧
      ∀ r, pageOk s p = some r →
        let b := (pagePlace r p.page).1
        let pg := (pagePlace r p.page).2.2
        let blk := physBlock s p.kind b (pagePlace r p.page).2.1
        let secs := ((sectors.take (16 - first.val)).zipIdx).map fun x => (16 * windowPage s p + first.val + x.2, x.1)
        let starts : Prop := ownsRegion who p.kind = true ∧ mayProgram s who = true ∧ (getBank s b).op = 0 ∧ secs ≠ []
        let ordered : Prop := inOrder s r (512 * b + blk) pg (first.val = 0 && sectors.length = 16) = true
        let erased : Prop := ∀ x ∈ secs, flashErased s x.1 = true
        (ownsRegion who p.kind = false → SentBy (.flashStatus who 5) s t ∧ t.fls.banks = s.fls.banks) ∧
        (starts → ¬ ordered → SentBy (.flashStatus who 3) s t ∧ t.fls.outOfOrder = satInc 16 s.fls.outOfOrder) ∧
        (starts → ordered → ¬ erased → SentBy (.flashStatus who 2) s t ∧ t.fls.notErased = satInc 16 s.fls.notErased ∧ t.fls.sectors = s.fls.sectors) ∧
        (starts → ordered → erased → (getBank t b).op = 2 ∧ (getBank t b).block = blk ∧ (getBank t b).page = pg ∧ (getBank t b).pending = secs ∧ (getBank t b).who = some who ∧ t.fls.sectors = s.fls.sectors) := by
  refine Completes.live (if_pos hawake) fun t ht => ⟨fun hnone => ?_, fun r hr => ?_⟩
  · rw [hnone] at ht
    rw [ht]
    exact flashRefused_sent ..
  rw [hr] at ht
  dsimp only at ht
  intro b pg blk secs starts ordered erased
  have hbegun (h : starts) : ¬(!ownsRegion who p.kind) = true ∧ ¬(!mayProgram s who || (getBank s b).op ≠ 0 || secs.isEmpty) = true := by
    obtain ⟨howns, hmay, hop, hsecs⟩ := h
    simp [howns, hmay, hop, hsecs]
  refine ⟨fun howns => ?_, fun hstarts hordered => ?_, fun hstarts hordered herased => ?_, fun hstarts hordered herased => ?_⟩
  · rw [if_pos (by simp [howns])] at ht
    rw [ht]
    refine ⟨flashRefused_sent .., ?_⟩
    rw [(flashRefused_only ..).fls rfl]
  · rw [if_neg (hbegun hstarts).1, if_neg (hbegun hstarts).2, if_pos (by rw [Bool.not_eq_true']; exact Bool.eq_false_iff.2 hordered)] at ht
    rw [ht]
    refine ⟨.since (s := s) (t := { s with fls := { s.fls with outOfOrder := satInc 16 s.fls.outOfOrder } }) (m := { fls := true }) (.upd .refl) (sentBy_answer who 3 (post_only ..)), ?_⟩
    rw [(flashAnswer_only ..).fls rfl, (post_only ..).fls rfl]
  all_goals rw [if_neg (hbegun hstarts).1, if_neg (hbegun hstarts).2, if_neg (by rw [Bool.not_eq_true']; exact fun h => Bool.false_ne_true (h.symm.trans hordered))] at ht
  · have hsome : (secs.find? fun x => !(flashErased s x.1)).isSome = true := by
      rw [List.find?_isSome]
      by_contra hall
      exact herased fun x hx => by_contra fun hx' => hall ⟨x, hx, by simp [hx']⟩
    obtain ⟨x, hx⟩ := Option.isSome_iff_exists.1 hsome
    rw [hx] at ht
    rw [ht]
    refine ⟨.since (s := s) (t := { s with fls := { s.fls with notErased := satInc 16 s.fls.notErased } }) (m := { fls := true }) (.upd .refl) (sentBy_answer who 2 (flashFault_only ..)), ?_, ?_⟩
    all_goals rw [(flashAnswer_only ..).fls rfl, (flashFault_only ..).fls rfl]
  · have hnone : (secs.find? fun x => !(flashErased s x.1)) = none := List.find?_eq_none.2 fun x hx => by simp [herased x hx]
    rw [hnone] at ht
    rw [ht]
    have hbank := getBank_modBank s b
    refine ⟨?_, ?_, ?_, ?_, ?_, rfl⟩
    all_goals
      dsimp only
      rw [hbank]

theorem sectors_putFlash (x : Nat × BitVec 8192) (s : State) : tabGet none (putFlash x.1 x.2 s).fls.sectors x.1 = some x.2 :=
  tabSet_same (none : Option (BitVec 8192)) (some x.2) s.fls.sectors x.1
theorem putFlashes_only (xs : List (Nat × BitVec 8192)) (s : State) : Only { fls := true } s (each xs (fun x s => putFlash x.1 x.2 s) s) := .each (fun _ _ => putFlash_only ..) .refl
/-- Sectors that are put, each once, all stand. -/
theorem sectors_putFlashes {xs : List (Nat × BitVec 8192)} (hnodup : (xs.map (·.1)).Nodup) (s : State) {x : Nat × BitVec 8192} (hx : x ∈ xs) :
    tabGet none (each xs (fun x s => putFlash x.1 x.2 s) s).fls.sectors x.1 = some x.2 := by
  have hother (ys : List (Nat × BitVec 8192)) (t : State) (k : Nat) (hk : k ∉ ys.map (·.1)) :
      tabGet none (each ys (fun x s => putFlash x.1 x.2 s) t).fls.sectors k = tabGet none t.fls.sectors k := by
    induction ys generalizing t with
    | nil => rfl
    | cons y ys ih =>
      rw [each_cons, ih _ fun h => hk (List.mem_cons_of_mem _ h)]
      exact tabGet_tabSet_other (none : Option (BitVec 8192)) none (some y.2) t.fls.sectors fun h : k = y.1 => hk (by simp [h])
  induction xs generalizing s with
  | nil => cases hx
  | cons y ys ih =>
    obtain ⟨hy, hnodup⟩ := List.nodup_cons.1 hnodup
    rw [each_cons]
    rcases List.mem_cons.1 hx with rfl | hx
    · rw [hother _ _ _ hy]
      exact sectors_putFlash ..
    · exact ih hnodup _ hx
/-- The answer to the requester of an operation that has ended. -/
def answerTo (who : Option FlashReq) (st : Nat) (s : State) : State := match who with | some w => flashAnswer w st s | none => s
theorem answerTo_only (who : Option FlashReq) (st : Nat) (s : State) : Only { mqs := true, tx := true, free := true } s (answerTo who st s) := by
  unfold answerTo
  split
  · exact flashAnswer_only ..
  · exact .refl
theorem answerTo_sent {m : Units} {who : Option FlashReq} {w : FlashReq} (hw : who = some w) (st : Nat) {s u : State} (h : Only m s u) : SentBy (.flashStatus w st) s (serveWaits (answerTo who st u)) := by
  subst hw
  exact (sentBy_answer w st h).then (serveWaits_only _)
theorem ended_keeps (who : Option FlashReq) (st : Nat) (s : State) : ReadsKeep s (serveWaits (answerTo who st s)) := (serveWaits_keeps _).after (.of_only (answerTo_only ..))
/-- A bank whose program or erase has ended. -/
def bankEnded (k : Bank) : Bank := { k with op := 0, pending := [], who := none }
def bankErased (k : Bank) : Bank := { k with op := 0, who := none }
/-- A program that ended well, before its requester is answered. -/
def programEnded (bank : Nat) (s : State) : State :=
  let k := getBank s bank
  let t := each k.pending (fun x s => putFlash x.1 x.2 s) (modBank s bank bankEnded)
  let full := k.page + 1 = ((regionOf t k.kind).map pagesPer).getD 512 && k.pending.any fun x => x.1 % 16 = 15
  invalidate ((((k.pending.head?).map (·.1)).getD 0) / 16 * 64) 64
    (modBlk t (512 * bank + k.block) fun d => { d with nextPage := max d.nextPage (k.page + 1), closed := d.closed || full })
theorem programEnded_only (bank : Nat) (s : State) : Only { fls := true, fcc := true } s (programEnded bank s) := by
  unfold programEnded
  exact (invalidate_only ..).after ((modBlk_only ..).after ((putFlashes_only ..).after ((modBank_only ..).mono)))
theorem programEnded_fls (bank : Nat) (s : State) : (programEnded bank s).fls.sectors = (each (getBank s bank).pending (fun x s => putFlash x.1 x.2 s) (modBank s bank bankEnded)).fls.sectors ∧
    (programEnded bank s).fls.banks = (each (getBank s bank).pending (fun x s => putFlash x.1 x.2 s) (modBank s bank bankEnded)).fls.banks := by
  unfold programEnded
  dsimp only
  rw [(invalidate_only ..).fls rfl]
  exact ⟨rfl, rfl⟩
/-- O30's third part, a program that ends (R486, R495). -/
theorem flashProgramDone_ends {s : State} (hawake : awake s = true) (bank : Fin 8) (ok : Bool) :
    Completes (.flashProgramDone bank ok) s fun t =>
      let k := getBank s bank
      (k.op ≠ 2 → t = s) ∧
      (k.op = 2 → (getBank t bank).op = 0 ∧ (∀ w, k.who = some w → SentBy (.flashStatus w (if ok then 0 else 7)) s t) ∧
        (ok = true → (k.pending.map (·.1)).Nodup → ∀ x ∈ k.pending, tabGet none t.fls.sectors x.1 = some x.2) ∧
        (ok = false → s.dev ≠ .ready → t.fls.retiredCnt = satInc 8 s.fls.retiredCnt ∧ (getBlk t (512 * bank.val + physBlock s k.kind bank k.rblock)).retired = true)) := by
  refine Completes.live (if_pos hawake) fun t ht => ?_
  dsimp only at ht ⊢
  refine ⟨fun hop => by rw [ht, if_pos (by simpa using hop)], fun hop => ?_⟩
  rw [if_neg (by simpa using hop)] at ht
  have hbank (u : State) : getBank (modBank u bank bankEnded) bank = bankEnded (getBank u bank) := getBank_modBank ..
  cases ok with
  | true =>
    rw [if_pos rfl] at ht
    replace ht : t = serveWaits (answerTo (getBank s bank).who 0 (programEnded bank s)) := ht
    have hkeep := ended_keeps (getBank s bank).who 0 (programEnded bank s)
    obtain ⟨hsectors, hbanks⟩ := programEnded_fls bank s
    have hop0 : (getBank (programEnded bank s) bank).op = 0 := by
      have heach : (each (getBank s bank).pending (fun x s => putFlash x.1 x.2 s) (modBank s bank bankEnded)).fls.banks = (modBank s bank bankEnded).fls.banks :=
        each_proj (fun s => s.fls.banks) _ _ _ fun _ _ => rfl
      have hsame : getBank (programEnded bank s) bank = getBank (modBank s bank bankEnded) bank := by
        unfold getBank
        rw [hbanks, heach]
      rw [hsame, hbank]
      rfl
    rw [← ht] at hkeep
    refine ⟨(hkeep.op _).trans hop0, fun w hw => ?_, fun _ hnodup x hx => ?_, nofun⟩
    · rw [ht]
      exact answerTo_sent hw 0 (programEnded_only ..)
    · rw [hkeep.sectors, hsectors]
      exact sectors_putFlashes hnodup _ hx
  | false =>
    rw [if_neg nofun] at ht
    have hphys : physBlock (modBank s bank bankEnded) (getBank s bank).kind bank (getBank s bank).rblock = physBlock s (getBank s bank).kind bank (getBank s bank).rblock := rfl
    have hretired := retireBlock_retires (getBank s bank).kind bank (getBank s bank).rblock (modBank s bank bankEnded)
    rw [hphys] at hretired
    have honly := retireBlock_only (getBank s bank).kind bank (getBank s bank).rblock (modBank s bank bankEnded)
    replace ht : t = serveWaits (answerTo (getBank s bank).who 7 (retireBlock (getBank s bank).kind bank (getBank s bank).rblock (modBank s bank bankEnded))) := ht
    have hkeep := ended_keeps (getBank s bank).who 7 (retireBlock (getBank s bank).kind bank (getBank s bank).rblock (modBank s bank bankEnded))
    generalize retireBlock (getBank s bank).kind bank (getBank s bank).rblock (modBank s bank bankEnded) = u at *
    rw [← ht] at hkeep
    refine ⟨?_, fun w hw => ?_, nofun, fun _ _ => ⟨hkeep.retiredCnt.trans hretired.counted, ?_⟩⟩
    · have hsame : getBank u bank = getBank (modBank s bank bankEnded) bank := by
        unfold getBank
        rw [hretired.banks]
      rw [hkeep.op, hsame, hbank]
      rfl
    · rw [ht]
      exact .since (modBank_only s bank bankEnded) (answerTo_sent hw 7 honly)
    · exact (congrArg FlashBlock.retired (hkeep.block _)).trans hretired.retired

/-- A bank whose erase begins. -/
def eraseBegun (blk kind block : Nat) (who : FlashReq) (k : Bank) : Bank :=
  { k with op := 3, suspended := false, block := blk, page := 0, kind := kind, rblock := block, register := none, who := some who }
/-- O30's fourth part, a block that is erased (R487, R488). -/
theorem flashErase_erases {s : State} (hawake : awake s = true) (who : FlashReq) (kind : Fin 16) (bank : Fin 8) (block : Nat) :
    Completes (.flashErase who kind bank block) s fun t =>
      let r := (regionOf s kind).filter fun r => decide (block < r.blocks / 8)
      (r = none ∨ ownsRegion who kind = false → SentBy (.flashStatus who 5) s t ∧ t.fls.banks = s.fls.banks) ∧
      ∀ x, r = some x → ownsRegion who kind = true → s.hold.flashStopped = false → (getBank s bank).op = 0 →
        (getBlk s (512 * bank.val + physBlock s kind bank block)).eraseCount < ratedErases x →
        (getBank t bank).op = 3 ∧ (getBank t bank).rblock = block ∧ (getBank t bank).kind = kind.val ∧ (getBank t bank).who = some who ∧
          (getBlk t (512 * bank.val + physBlock s kind bank block)).flag = ((getBlk s (512 * bank.val + physBlock s kind bank block)).flag || x.eflag) := by
  refine Completes.live (if_pos hawake) fun t ht => ?_
  dsimp only
  have hrefused (sec : Nat) (h : t = flashRefused who true sec s) : SentBy (.flashStatus who 5) s t ∧ t.fls.banks = s.fls.banks := by
    rw [h]
    exact ⟨flashRefused_sent .., by rw [(flashRefused_only ..).fls rfl]⟩
  cases hr : (regionOf s kind).filter fun r => decide (block < r.blocks / 8) with
  | none =>
    rw [hr] at ht
    exact ⟨fun _ => hrefused _ ht, nofun⟩
  | some r =>
    rw [hr] at ht
    dsimp only at ht
    refine ⟨fun h => ?_, fun x hx howns hstopped hop hworn => ?_⟩
    · rw [if_pos (by simpa using h)] at ht
      exact hrefused _ ht
    · cases hx
      have hfresh : ¬ decide (ratedErases r ≤ (getBlk s (512 * bank.val + physBlock s kind bank block)).eraseCount) = true := by simpa using hworn
      rw [if_neg (by simp [howns]), if_neg (by simp [hstopped, hop]), if_neg hfresh, if_neg (by simp [hfresh])] at ht
      generalize hu : (if r.eflag = true then modBlk s (512 * bank.val + physBlock s kind bank block) (fun d => { d with flag := true }) else s) = u at ht
      have hfls : t.fls = (modBank u bank (eraseBegun (physBlock s kind bank block) kind block who)).fls := by
        rw [ht]
        exact each_proj (fun s => s.fls) _ _ _ fun _ _ => (invalidate_only ..).fls rfl
      have hbank : getBank t bank = eraseBegun (physBlock s kind bank block) kind block who (getBank u bank) := by
        rw [← getBank_modBank u bank (eraseBegun (physBlock s kind bank block) kind block who)]
        unfold getBank
        rw [hfls]
      have hflag : (getBlk u (512 * bank.val + physBlock s kind bank block)).flag = ((getBlk s (512 * bank.val + physBlock s kind bank block)).flag || r.eflag) := by
        rw [← hu]
        cases r.eflag with
        | true =>
          rw [if_pos rfl, getBlk_modBlk]
          simp
        | false => simp
      rw [hbank]
      refine ⟨rfl, rfl, rfl, rfl, ?_⟩
      rw [← hflag]
      unfold getBlk
      rw [hfls]
      rfl
/-- A block that is erased. -/
def blkErased (d : FlashBlock) : FlashBlock := { d with eraseCount := d.eraseCount + 1, flag := false, nextPage := 0, closed := false, refreshDue := false, torn := 0 }
/-- An erase that ended well, before its requester is answered. -/
def eraseEnded (bank : Nat) (s : State) : State :=
  let k := getBank s bank
  let t := modBank s bank bankErased
  modBlk { t with fls := { t.fls with sectors := t.fls.sectors.filter fun x => !(blockSectors t ((regionOf t k.kind).getD {}) bank k.rblock x.1) } } (512 * bank + k.block) blkErased
theorem eraseEnded_only (bank : Nat) (s : State) : Only { fls := true } s (eraseEnded bank s) := by
  unfold eraseEnded
  exact (modBlk_only ..).after (.updWith ((modBank_only ..).mono) (.of_parts (sectors := tabFilter_wf _ _ _)))
/-- O30's fifth part, an erase that ends (R487, R495). -/
theorem flashEraseDone_ends {s : State} (hawake : awake s = true) (bank : Fin 8) (ok : Bool) :
    Completes (.flashEraseDone bank ok) s fun t =>
      let k := getBank s bank
      let d := getBlk s (512 * bank.val + k.block)
      (k.op ≠ 3 → t = s) ∧
      (k.op = 3 → (getBank t bank).op = 0 ∧ (∀ w, k.who = some w → SentBy (.flashStatus w (if ok then 0 else 7)) s t) ∧
        (ok = true → (getBlk t (512 * bank.val + k.block)).eraseCount = d.eraseCount + 1 ∧ (getBlk t (512 * bank.val + k.block)).flag = false ∧ (getBlk t (512 * bank.val + k.block)).nextPage = 0 ∧
          (getBlk t (512 * bank.val + k.block)).torn = 0 ∧ ∀ r, regionOf s k.kind = some r → ∀ x ∈ t.fls.sectors, blockSectors s r bank k.rblock x.1 = false)) := by
  refine Completes.live (if_pos hawake) fun t ht => ?_
  dsimp only at ht ⊢
  refine ⟨fun hop => by rw [ht, if_pos (by simpa using hop)], fun hop => ?_⟩
  rw [if_neg (by simpa using hop)] at ht
  have hbank : getBank (modBank s bank bankErased) bank = bankErased (getBank s bank) := getBank_modBank ..
  cases ok with
  | true =>
    rw [if_pos rfl] at ht
    replace ht : t = serveWaits (answerTo (getBank s bank).who 0 (eraseEnded bank s)) := ht
    have hkeep := ended_keeps (getBank s bank).who 0 (eraseEnded bank s)
    have hblk : getBlk (eraseEnded bank s) (512 * bank.val + (getBank s bank).block) = blkErased (getBlk s (512 * bank.val + (getBank s bank).block)) := getBlk_modBlk ..
    rw [← ht] at hkeep
    have hbase := hkeep.block (512 * bank.val + (getBank s bank).block)
    rw [hblk] at hbase
    refine ⟨(hkeep.op _).trans (congrArg Bank.op hbank), fun w hw => ?_, fun _ => ⟨?_, ?_, ?_, ?_, fun r hr x hx => ?_⟩⟩
    · rw [ht]
      exact answerTo_sent hw 0 (eraseEnded_only ..)
    · exact congrArg FlashBlock.eraseCount hbase
    · exact congrArg FlashBlock.flag hbase
    · exact congrArg FlashBlock.nextPage hbase
    · exact congrArg FlashBlock.torn hbase
    · rw [hkeep.sectors] at hx
      have hkept := (List.mem_filter.1 hx).2
      have hregion : (regionOf (modBank s bank bankErased) (getBank s bank).kind).getD {} = r := by
        show (regionOf s (getBank s bank).kind).getD {} = r
        rw [hr]
        rfl
      rw [hregion] at hkept
      exact Bool.eq_false_iff.2 fun h => by
        have : blockSectors (modBank s bank bankErased) r bank (getBank s bank).rblock x.1 = true := h
        rw [this] at hkept
        cases hkept
  | false =>
    rw [if_neg nofun] at ht
    have hretired := retireBlock_retires (getBank s bank).kind bank (getBank s bank).rblock (modBank s bank bankErased)
    have honly := retireBlock_only (getBank s bank).kind bank (getBank s bank).rblock (modBank s bank bankErased)
    replace ht : t = serveWaits (answerTo (getBank s bank).who 7 (retireBlock (getBank s bank).kind bank (getBank s bank).rblock (modBank s bank bankErased))) := ht
    have hkeep := ended_keeps (getBank s bank).who 7 (retireBlock (getBank s bank).kind bank (getBank s bank).rblock (modBank s bank bankErased))
    generalize retireBlock (getBank s bank).kind bank (getBank s bank).rblock (modBank s bank bankErased) = u at *
    rw [← ht] at hkeep
    refine ⟨?_, fun w hw => ?_, nofun⟩
    · have hsame : getBank u bank = getBank (modBank s bank bankErased) bank := by
        unfold getBank
        rw [hretired.banks]
      rw [hkeep.op, hsame, hbank]
      rfl
    · rw [ht]
      exact .since (modBank_only s bank bankErased) (answerTo_sent hw 7 honly)
/-- The block that a refresh leaves. -/
def blkRefreshed (d : FlashBlock) : FlashBlock := { d with eraseCount := d.eraseCount + 1, nextPage := 0, closed := false, refreshDue := false, torn := 0, refreshedAt := some d.eraseCount }
theorem leastWorn_mem {s : State} {bank b : Nat} (h : leastWorn s bank = some b) : b ∈ poolBlocks s bank := by
  have hfold (xs : List Nat) (o : Option Nat) (hb : xs.foldl (fun b k => match b with
      | none => some k
      | some j => if (getBlk s (512 * bank + k)).eraseCount < (getBlk s (512 * bank + j)).eraseCount then some k else some j) o = some b) : b ∈ xs ∨ o = some b := by
    induction xs generalizing o with
    | nil => exact .inr hb
    | cons x xs ih =>
      rcases ih _ hb with h | h
      · exact .inl (List.mem_cons_of_mem _ h)
      · cases o with
        | none => exact .inl (by cases h; exact List.mem_cons_self)
        | some j =>
          dsimp only at h
          split at h
          · exact .inl (by cases h; exact List.mem_cons_self)
          · exact .inr h
  exact (hfold _ _ h).resolve_right nofun
theorem modBlk_map (s : State) (k : Nat) (f : FlashBlock → FlashBlock) : (modBlk s k f).fls.map = s.fls.map := rfl
theorem notePool_map (s : State) : (notePool s).fls.map = s.fls.map := by
  unfold notePool
  dsimp only
  split
  · rw [(post_only ..).fls rfl]
  · rfl
/-- O30's last part, a block that is refreshed (R494, R495). -/
theorem blockRefresh_refreshes {s : State} (hawake : awake s = true) (bank : Fin 8) (block : Nat) : Completes (.blockRefresh bank block) s fun t =>
    let d := getBlk s (512 * bank.val + block)
    let due : Prop := d.closed = true ∧ d.refreshDue = true ∧ s.hold.flashStopped = false ∧ (getBank s bank).op = 0
    ((mappedBlocks s bank).find? (fun m => m.2.2 = block) = none ∨ ¬ due → t = s) ∧
    ∀ m, (mappedBlocks s bank).find? (fun m => m.2.2 = block) = some m → due →
      (d.refreshedAt.any (fun e => decide (d.eraseCount < e + 100)) = true → s.dev ≠ .ready → (getBlk t (512 * bank.val + block)).retired = true) ∧
      (d.refreshedAt.any (fun e => decide (d.eraseCount < e + 100)) = false → leastWorn s bank ≠ none →
        (getBlk t (512 * bank.val + block)).eraseCount = d.eraseCount + 1 ∧ (getBlk t (512 * bank.val + block)).closed = false ∧ some (physBlock t m.1 bank m.2.1) = leastWorn s bank) := by
  refine Completes.live (if_pos hawake) fun t ht => ?_
  dsimp only at ht ⊢
  cases hm : (mappedBlocks s bank).find? fun m => m.2.2 = block with
  | none =>
    rw [hm] at ht
    exact ⟨fun _ => ht, nofun⟩
  | some m =>
    rw [hm] at ht
    dsimp only at ht
    have hphys : physBlock s m.1 bank m.2.1 = block := by
      have hblock : m.2.2 = block := by simpa using List.find?_some hm
      obtain ⟨r, -, hk⟩ := List.mem_flatMap.1 (List.mem_of_find?_eq_some hm)
      obtain ⟨k, -, rfl⟩ := List.mem_map.1 hk
      exact hblock
    refine ⟨fun h => ?_, fun x hx hdue => ?_⟩
    · have hdue := h.resolve_left nofun
      rw [if_pos (by
        by_contra hnot
        exact hdue (by simpa [and_assoc] using hnot))] at ht
      exact ht
    · cases hx
      obtain ⟨hclosed, hrefresh, hstopped, hop⟩ := hdue
      rw [if_neg (by simp [hclosed, hrefresh, hstopped, hop])] at ht
      refine ⟨fun hworn _ => ?_, fun hworn hpool => ?_⟩
      · rw [if_pos hworn] at ht
        have hretired := (retireBlock_retires m.1 bank m.2.1 s).retired
        rw [hphys, ← ht] at hretired
        exact hretired
      · obtain ⟨b, hb⟩ := Option.ne_none_iff_exists'.1 hpool
        rw [if_neg (by rw [hworn]; nofun), if_neg (by simp [hb]), moveBlock_of_some hb] at ht
        replace ht : t = post 0x93 mFlash [] (modBlk (notePool (blockMoved m.1 bank m.2.1 b s)) (512 * bank.val + block) blkRefreshed) := ht
        have hpost : t.fls = (modBlk (notePool (blockMoved m.1 bank m.2.1 b s)) (512 * bank.val + block) blkRefreshed).fls := by
          rw [ht, (post_only ..).fls rfl]
        have hkept := notePool_flashKept (blockMoved m.1 bank m.2.1 b s)
        have hblk : getBlk t (512 * bank.val + block) = blkRefreshed (getBlk (blockMoved m.1 bank m.2.1 b s) (512 * bank.val + block)) := by
          have hsame : getBlk t (512 * bank.val + block) = getBlk (modBlk (notePool (blockMoved m.1 bank m.2.1 b s)) (512 * bank.val + block) blkRefreshed) (512 * bank.val + block) := by
            unfold getBlk
            rw [hpost]
          rw [hsame, getBlk_modBlk, hkept.block]
        have hcount : (getBlk (blockMoved m.1 bank m.2.1 b s) (512 * bank.val + block)).eraseCount = (getBlk s (512 * bank.val + block)).eraseCount := by
          rw [getBlk_blockMoved]
          split <;> rfl
        refine ⟨?_, congrArg FlashBlock.closed hblk, ?_⟩
        · rw [hblk]
          exact congrArg (· + 1) hcount
        · have hmem := leastWorn_mem hb
          have hpos : b ≠ 0 := by
            obtain ⟨hrange, -⟩ := List.mem_filter.1 hmem
            obtain ⟨j, -, rfl⟩ := List.mem_map.1 hrange
            exact Nat.succ_ne_zero j
          have hmap : t.fls.map = tabSet 0 s.fls.map (mapKey m.1 bank m.2.1) b := by
            rw [hpost, modBlk_map, notePool_map]
            rfl
          rw [hb]
          unfold physBlock
          rw [hmap, tabSet_same]
          cases b with
          | zero => exact absurd rfl hpos
          | succ n => rfl

/-- Settles O30: each part is the equation of its row, reads that waited leave what the statement names, and a stop leaves the banks and blocks. -/
theorem flashReadsProgramsAndErases : Obligations.FlashReadsProgramsAndErases := by
  unfold Obligations.FlashReadsProgramsAndErases
  intro s hawake
  refine ⟨fun who p sector steps => ?_, flashProgram_programs hawake, flashProgramDone_ends hawake, flashErase_erases hawake, flashEraseDone_ends hawake, blockRefresh_refreshes hawake⟩
  obtain ⟨t, ht, hrefused, hread⟩ := flashPageRead_reads hawake who p sector steps
  refine ⟨t, ht, hrefused, fun r hr => ?_⟩
  obtain ⟨hmay, hbusy, hdone, hlost⟩ := hread r hr
  refine ⟨hmay, hbusy, fun h hfree n hn => ?_, fun h hfree hn hsteps => ?_⟩
  · obtain ⟨hanswer, hdata, hregister, hretry⟩ := hdone h hfree n hn
    refine ⟨hanswer, hdata, hregister.trans (congrArg some ?_), hretry⟩
    omega
  · obtain ⟨⟨hcounted, hanswer⟩, hhalt⟩ := hlost h hfree hn hsteps
    exact ⟨hcounted, hanswer, hhalt⟩

end Sys2Proof.Machine
end

section
/-! The channels of the millpond beside the work of its frames (R285 to R287, R306). -/

namespace Sys2Proof.Machine
set_option Elab.async false

-- The channels of the millpond beside the work of its frames (R285 to R287, R306).

/-- Of the millpond: its channels, its spare and its migration. -/
def pondView (s : State) : List (Nat × MpdChan) × Nat × Nat × Nat × Nat × Bool × Nat :=
  (s.mpd.chans, s.mpd.state, s.mpd.spare, s.mpd.migLogical, s.mpd.migCursor, s.mpd.migLost, s.mpd.spareTestAt)
/-- The channels, the spare and the migration stand. -/
structure PondSame (s t : State) : Prop where
  view : pondView t = pondView s
theorem PondSame.refl {s : State} : PondSame s s := ⟨rfl⟩
theorem PondSame.after {s t u : State} (h₂ : PondSame t u) (h₁ : PondSame s t) : PondSame s u := ⟨h₂.view.trans h₁.view⟩
theorem PondSame.of_only {m : Units} {s t : State} (h : Only m s t) (hm : m.mpd = false := by rfl) : PondSame s t := ⟨by unfold pondView; rw [h.mpd hm]⟩
theorem PondSame.upd {s t : State} {dev aon start idn fuses clk pwr flt evt mqs ptn hold diag img nvm layout alks islands bol heads arms gov spn spc mrc mpd rows tre fls fcc links injs hop slu fan tx free} (h : PondSame s t)
    (hv : (mpd.chans, mpd.state, mpd.spare, mpd.migLogical, mpd.migCursor, mpd.migLost, mpd.spareTestAt) =
      (t.mpd.chans, t.mpd.state, t.mpd.spare, t.mpd.migLogical, t.mpd.migCursor, t.mpd.migLost, t.mpd.spareTestAt) := by with_reducible rfl) :
    PondSame s (State.mk dev aon start idn fuses clk pwr flt evt mqs ptn hold diag img nvm layout alks islands bol heads arms gov spn spc mrc mpd rows tre fls fcc links injs hop slu fan tx free t.pending) := ⟨hv.trans h.view⟩
theorem PondSame.ite {s t u : State} {c : Prop} [Decidable c] (h₁ : PondSame s t) (h₂ : PondSame s u) : PondSame s (if c then t else u) := by
  split
  · exact h₁
  · exact h₂
theorem PondSame.each {α : Type} {f : α → State → State} {s : State} (hf : ∀ x s, PondSame s (f x s)) {xs : List α} {t : State} (ht : PondSame s t) : PondSame s (each xs f t) := by
  induction xs generalizing t with
  | nil => exact ht
  | cons x xs ih =>
    rw [each_cons]
    exact ih ((hf x t).after ht)
theorem PondSame.of_eq_snd {α : Type} {p : α × State} {x : α} {s t : State} (h : PondSame s p.2) (e : p = (x, t)) : PondSame s t := by
  rw [e] at h
  exact h
theorem setEntry_pond (s f e) : PondSame s (setEntry s f e) := by
  unfold setEntry
  exact .upd .refl
theorem setFrame_pond (s f b) : PondSame s (setFrame s f b) := by
  unfold setFrame
  exact (PondSame.of_only (dropTags_only ..)).after (.upd .refl)
theorem unpin_pond (arr s) : PondSame s (unpin arr s) := by
  unfold unpin
  exact .upd .refl
theorem pruneCommitted_pond (s) : PondSame s (pruneCommitted s) := by
  unfold pruneCommitted
  exact .ite .refl (.upd .refl)
theorem releaseFrames_pond (s) : PondSame s (releaseFrames s) := by
  unfold releaseFrames
  exact (pruneCommitted_pond ..).after (.each (fun _ _ => .ite (.ite (.upd (.upd ((setEntry_pond ..)))) ((setFrame_pond ..).after (.upd ((setEntry_pond ..))))) .refl) .refl)
theorem completeOne_pond (arr status info s) : PondSame s (completeOne arr status info s) := by
  unfold completeOne
  split
  · exact .refl
  · exact .ite .refl ((PondSame.of_only (issueRec_only ..)).after ((PondSame.of_only (dropGrants_only ..)).after ((releaseFrames_pond ..).after ((unpin_pond ..).after (.ite ((.of_only (modCmd_only ..))) ((PondSame.of_only (freeSlots_only ..)).after ((.of_only (modCmd_only ..)))))))))
theorem complete_pond (arr status info s) : PondSame s (complete arr status info s) := by
  unfold complete
  split
  · exact .refl
  · exact .each (fun _ _ => (completeOne_pond ..)) ((completeOne_pond ..))
theorem pumpRead_pond (arr s) : PondSame s (pumpRead arr s) := by
  unfold pumpRead
  split
  · exact .refl
  · refine .ite .refl ?_
    refine (releaseFrames_pond ..).after ?_
    split
    · refine (complete_pond ..).after ?_
      refine .each (fun _ _ => ?_) .refl
      split
      · refine .ite ?_ .refl
        split
        · exact .upd ((PondSame.of_only (setSrc_only ..)).after (PondSame.of_eq_snd ((.of_only (fillSlot_only ..))) ‹_›))
        · exact PondSame.of_eq_snd ((.of_only (fillSlot_only ..))) ‹_›
      · exact .refl
    · refine (complete_pond ..).after ?_
      refine .each (fun _ _ => ?_) .refl
      split
      · refine .ite ?_ .refl
        split
        · exact .upd ((PondSame.of_only (setSrc_only ..)).after (PondSame.of_eq_snd ((.of_only (fillSlot_only ..))) ‹_›))
        · exact PondSame.of_eq_snd ((.of_only (fillSlot_only ..))) ‹_›
      · exact .refl
    · refine .each (fun _ _ => ?_) .refl
      split
      · refine .ite ?_ .refl
        split
        · exact .upd ((PondSame.of_only (setSrc_only ..)).after (PondSame.of_eq_snd ((.of_only (fillSlot_only ..))) ‹_›))
        · exact PondSame.of_eq_snd ((.of_only (fillSlot_only ..))) ‹_›
      · exact .refl
theorem pumpVerify_pond (arr s) : PondSame s (pumpVerify arr s) := by
  unfold pumpVerify
  split
  · exact .refl
  · refine .ite .refl ?_
    split
    · exact (complete_pond ..)
    · exact .ite ((complete_pond ..)) .refl
theorem ackEntries_pond (c s) : PondSame s (ackEntries c s) := by
  unfold ackEntries
  exact .each (fun _ _ => .each (fun _ _ => .ite ((setEntry_pond ..)) .refl) .refl) .refl
theorem setState_pond (f st s) : PondSame s (setState f st s) := by
  unfold setState
  exact .ite ((setEntry_pond ..)) ((PondSame.of_only (mirror_only ..)).after ((setEntry_pond ..)))
theorem rewriteRow_pond (row s) : PondSame s (rewriteRow row s) := by
  unfold rewriteRow
  exact .upd .refl
theorem abandonRow_pond (row s) : PondSame s (abandonRow row s) := by
  unfold abandonRow
  split
  · exact .refl
  · refine .each (fun _ _ => ?_) ((PondSame.of_only (dropWork_only ..)).after (.ite ((rewriteRow_pond ..).after (.upd .refl)) (.upd .refl)))
    refine .ite ?_ .refl
    split
    · exact (setState_pond ..)
    · exact .ite ((setState_pond ..)) ((setState_pond ..).after (.ite ((setState_pond ..).after ((setEntry_pond ..))) .refl))
theorem takeBlock_pond (arr i lba s) : PondSame s (takeBlock arr i lba s) := by
  unfold takeBlock
  extract_lets b t
  have ht : PondSame s t := (.of_only (modCmd_only ..))
  clear_value b t
  split
  · exact .ite (.upd (.upd ht)) (.upd ht)
  · exact .upd ht
  · exact ht
theorem retakeBlock_pond (arr i lba s) : PondSame s (retakeBlock arr i lba s) := by
  unfold retakeBlock
  extract_lets
  split
  · exact (PondSame.of_only (fetchRow_only ..)).after ((takeBlock_pond ..))
  · exact (takeBlock_pond ..)
theorem refetchRow_pond (r s) : PondSame s (refetchRow r s) := by
  unfold refetchRow
  refine .each (fun _ _ => ?_) .refl
  split
  · exact .refl
  · refine .ite .refl ?_
    extract_lets
    split
    · exact (PondSame.of_only (modCmd_only ..)).after (.upd .refl)
    · exact (PondSame.of_only (fetchRow_only ..)).after ((PondSame.of_only (modCmd_only ..)).after (.upd .refl))
theorem readersToRow_pond (r s) : PondSame s (readersToRow r s) := by
  unfold readersToRow
  refine .each (fun _ _ => ?_) .refl
  refine .each (fun _ _ => ?_) .refl
  extract_lets
  split
  · exact .refl
  · exact (pumpRead_pond ..).after (.ite ((PondSame.of_only (setSrc_only ..)).after (.upd .refl)) ((PondSame.of_only (setSrc_only ..)).after (.upd (.upd .refl))))
theorem putParityAt_pond (base sl data htag poison s) : PondSame s (putParityAt base sl data htag poison s) := by
  unfold putParityAt
  exact (setFrame_pond ..).after ((setFrame_pond ..))
theorem putParity_pond (r t sl data htag poison s) : PondSame s (putParity r t sl data htag poison s) := by
  unfold putParity
  exact (putParityAt_pond ..)
theorem buildParity_pond (r s) : PondSame s (buildParity r s) := by
  unfold buildParity
  exact .each (fun _ _ => .each (fun _ _ => (putParity_pond ..)) .refl) .refl
theorem rowReady_pond (row s) : PondSame s (rowReady row s) := by
  unfold rowReady
  split
  · exact .refl
  · exact .each (fun _ _ => .each (fun _ _ => (.of_only (addWork_only ..))) .refl) (.each (fun _ _ => (.of_only (modRowSec_only ..))) (.ite ((buildParity_pond ..)) .refl))
theorem startBuild_pond (row s) : PondSame s (startBuild row s) := by
  unfold startBuild
  split
  · exact .refl
  · exact .refl
  · extract_lets
    split
    · refine .each (fun _ _ => ?_) (.upd .refl)
      refine .ite ((PondSame.of_only (modRow_only ..)).after ((setFrame_pond ..))) ?_
      split
      · exact (PondSame.of_only (modRow_only ..)).after ((setState_pond ..).after ((setEntry_pond ..)))
      · refine .ite ((.of_only (modRow_only ..))) ?_
        split
        · exact (PondSame.of_only (modRow_only ..)).after ((setFrame_pond ..))
        · exact .refl
    · refine .ite ?_ ?_
      · refine (rowReady_pond ..).after ?_
        refine (readersToRow_pond ..).after ?_
        refine .each (fun _ _ => ?_) (.upd .refl)
        refine .ite ((PondSame.of_only (modRow_only ..)).after ((setFrame_pond ..))) ?_
        split
        · exact (PondSame.of_only (modRow_only ..)).after ((setState_pond ..).after ((setEntry_pond ..)))
        · refine .ite ((.of_only (modRow_only ..))) ?_
          split
          · exact (PondSame.of_only (modRow_only ..)).after ((setFrame_pond ..))
          · exact .refl
      · refine (PondSame.of_only (readWorks_only ..)).after ?_
        refine (readersToRow_pond ..).after ?_
        refine .each (fun _ _ => ?_) (.upd .refl)
        refine .ite ((PondSame.of_only (modRow_only ..)).after ((setFrame_pond ..))) ?_
        split
        · exact (PondSame.of_only (modRow_only ..)).after ((setState_pond ..).after ((setEntry_pond ..)))
        · refine .ite ((.of_only (modRow_only ..))) ?_
          split
          · exact (PondSame.of_only (modRow_only ..)).after ((setFrame_pond ..))
          · exact .refl
theorem tryBuild_pond (row s) : PondSame s (tryBuild row s) := by
  unfold tryBuild
  exact .ite ((startBuild_pond ..)) .refl
theorem startIfUnpinned_pond (row s) : PondSame s (startIfUnpinned row s) := by
  unfold startIfUnpinned
  exact .ite ((startBuild_pond ..)) .refl
theorem restartRow_pond (row s) : PondSame s (restartRow row s) := by
  unfold restartRow
  split
  · exact .refl
  · exact .ite ((tryBuild_pond ..).after (.upd ((refetchRow_pond ..).after ((abandonRow_pond ..))))) ((refetchRow_pond ..).after ((abandonRow_pond ..)))
theorem passWrite_pond (w s) : PondSame s (passWrite w s) := by
  unfold passWrite
  refine .each (fun _ _ => ?_) .refl
  split
  · exact .refl
  · exact (PondSame.of_only (modCmd_only ..)).after (.each (fun _ _ => (retakeBlock_pond ..)) .refl)
theorem withdraw_pond (f s) : PondSame s (withdraw f s) := by
  unfold withdraw
  refine .each (fun _ _ => ?_) ((PondSame.of_only (mirror_only ..)).after (.upd ((setFrame_pond ..).after ((setEntry_pond ..)))))
  split
  · exact .refl
  · refine (PondSame.of_only (modCmd_only ..)).after ?_
    split
    · exact (retakeBlock_pond ..)
    · exact .refl
theorem withdrawLanding_pond (c s) : PondSame s (withdrawLanding c s) := by
  unfold withdrawLanding
  exact .each (fun _ _ => .ite ((withdraw_pond ..)) .refl) ((passWrite_pond ..).after ((.of_only (modCmd_only ..))))
theorem grantAgain_pond (f arr idx s) : PondSame s (grantAgain f arr idx s) := by
  unfold grantAgain
  extract_lets
  split
  · exact .upd ((setFrame_pond ..).after ((setEntry_pond ..)))
  · exact (PondSame.of_only (modHopPort_only ..)).after ((PondSame.of_only (modCmd_only ..)).after (.upd ((setFrame_pond ..).after ((setEntry_pond ..)))))
theorem freeEntry_pond (f s) : PondSame s (freeEntry f s) := by
  unfold freeEntry
  exact (PondSame.of_only (mirror_only ..)).after (.upd ((setFrame_pond ..).after ((setEntry_pond ..))))
theorem loseReaders_pond (f s) : PondSame s (loseReaders f s) := by
  unfold loseReaders
  exact .each (fun _ _ => (pumpRead_pond ..).after ((.of_only (modCmd_only ..)))) (.upd .refl)
theorem recheck_pond (s) : PondSame s (recheck s) := by
  unfold recheck
  refine .each (fun _ _ => ?_) .refl
  split
  · exact .refl
  · exact .ite ((complete_pond ..).after ((ackEntries_pond ..))) (.ite ((complete_pond ..)) (.ite ((.of_only (beginVerify_only ..))) .refl))
theorem loseDirty_pond (f s) : PondSame s (loseDirty f s) := by
  unfold loseDirty
  extract_lets
  split
  · exact .ite ((complete_pond ..).after ((withdrawLanding_pond ..).after ((withdraw_pond ..)))) ((grantAgain_pond ..))
  · exact .ite ((recheck_pond ..).after ((PondSame.of_only (loseWaits_only ..)).after ((PondSame.of_only (raiseDeferred_only ..)).after ((PondSame.of_only (post_only ..)).after ((freeEntry_pond ..).after ((loseReaders_pond ..))))))) ((recheck_pond ..).after ((withdraw_pond ..)))
theorem retakeReaders_pond (f s) : PondSame s (retakeReaders f s) := by
  unfold retakeReaders
  refine .each (fun _ _ => ?_) (.upd .refl)
  split
  · exact .refl
  · split
    · exact (pumpRead_pond ..).after ((retakeBlock_pond ..))
    · exact .refl
theorem refillSlot_pond (k s) : PondSame s (refillSlot k s) := by
  unfold refillSlot
  refine .ite ?_ .refl
  split
  · exact .ite ((pumpRead_pond ..).after ((retakeBlock_pond ..).after ((.of_only (modSlot_only ..))))) .refl
  · exact .refl
theorem ueFrame_pond (f s) : PondSame s (ueFrame f s) := by
  unfold ueFrame
  refine .ite ((retakeReaders_pond ..).after ((setFrame_pond ..).after (.upd .refl))) ?_
  refine .ite ?_ (.ite .refl (.ite ((PondSame.of_only (ptnSend_only ..)).after (.upd .refl)) (.ite ((retakeReaders_pond ..).after ((freeEntry_pond ..))) (.ite ((freeEntry_pond ..).after ((loseReaders_pond ..))) (.ite (.ite (.upd .refl) ((loseDirty_pond ..).after ((abandonRow_pond ..)))) ((loseDirty_pond ..)))))))
  split
  · exact (restartRow_pond ..)
  · exact .refl
theorem ueResponse_pond (c s) : PondSame s (ueResponse c s) := by
  unfold ueResponse
  split
  · exact (refillSlot_pond ..)
  · exact .ite .refl (.ite ((PondSame.of_only (ptnSend_only ..)).after (.upd .refl)) ((ueFrame_pond ..)))
  · exact .ite .refl (.each (fun _ _ => .ite ((ueFrame_pond ..)) .refl) .refl)

end Sys2Proof.Machine
end

section
/-! The channels of the millpond through a stop, and halts that do not hold. -/

namespace Sys2Proof.Machine
set_option Elab.async false

-- The channels of the millpond through a stop, and what a halt that does not hold leaves.

theorem getChan_of_pond {s t : State} (h : PondSame s t) (p : Nat) : getChan t p = getChan s p := by
  unfold getChan
  rw [show t.mpd.chans = s.mpd.chans from congrArg (·.1) h.view]
theorem physOf_of_pond {s t : State} (h : PondSame s t) (l : Nat) : physOf t l = physOf s l := by
  unfold physOf
  simp only [getChan_of_pond h]
theorem holdBackEntries_pond (c s) : PondSame s (holdBackEntries c s) := by
  unfold holdBackEntries
  exact .each (fun _ _ => setEntry_pond ..) .refl
theorem completeAll_pond (cause s) : PondSame s (completeAll cause s) := by
  unfold completeAll
  refine .each (fun arr t => ?_) (.of_only (m := { hop := true }) (.upd .refl))
  split
  · exact .refl
  · exact .ite .refl (.ite ((complete_pond ..).after (ackEntries_pond ..)) ((complete_pond ..).after (.ite (holdBackEntries_pond ..) .refl)))
theorem writeElem_pond (u : Nat) (b : Block) (s : State) : PondSame s (writeElem u b s) := by
  unfold writeElem
  split
  · exact setFrame_pond ..
  · exact .of_only (writeSlot_only ..)
  · exact .of_only (putFlashBlock_only ..)
  · exact .of_only (m := { tre := true }) (.upd .refl)
  · exact .refl
theorem moveUnit_pond (n : Nat) (d : Descriptor) (s : State) : PondSame s (moveUnit n d s).2 := by
  unfold moveUnit
  extract_lets u
  split
  · split
    · exact .refl
    · exact writeElem_pond ..
  · split
    · exact .refl
    · split
      · exact .after (writeElem_pond ..) (.of_only (takeStream_only ..))
      · exact writeElem_pond ..
  · split
    · exact .refl
    · split
      · exact .refl
      · exact writeElem_pond ..
  · exact writeElem_pond ..
  · exact .ite (writeElem_pond ..) .refl
theorem moveUntil_pond (d : Descriptor) (k n : Nat) (s : State) : PondSame s (moveUntil d k n s) := by
  induction k generalizing n s with
  | zero => exact .refl
  | succ k ih =>
    unfold moveUntil
    refine .ite .refl ?_
    have hmoved := moveUnit_pond n d s
    split
    · exact .refl
    next t ht =>
      rw [ht] at hmoved
      exact (ih _ _).after hmoved
theorem stopChannels_pond (s : State) : PondSame s (stopChannels s) := by
  unfold stopChannels
  refine .each (fun ch t => .ite ?_ .refl) .refl
  unfold stopChannel
  refine .after (.of_only (modTre_only ..)) ?_
  split
  · exact .ite (.after (moveUntil_pond ..) (.of_only (nextFree_only _))) .refl
  · exact .refl
theorem dropGone_pond (s : State) : PondSame s (dropGone s) := by
  unfold dropGone
  exact .upd (.each (fun _ _ => .ite (.after (.of_only (raiseDeferred_only ..)) (.after (.of_only (post_only ..)) (setEntry_pond ..))) (setEntry_pond ..)) .refl)
theorem stopStable_pondSame : StopStable PondSame where
  refl _ := .refl
  trans h₁ h₂ := h₂.after h₁
  plain h := .of_only h
  noted h _ := .of_only h
  completed cause s := completeAll_pond cause s
  channels s := stopChannels_pond s
  gone s := dropGone_pond s
  released s := .of_only (releaseArms_only s)
  unload a s := .of_only (unloadArm_only a s)
  frame a s := .of_only (vcmFrame_only a s)
  visits s := .of_only (endVisits_only s)
  dark a s := .of_only (armDark_only a s)
theorem advanceDrain_pond (s : State) : PondSame s (advanceDrain s) := by
  unfold advanceDrain
  exact .ite (.ite (.ite (.of_only (beginHandover_only ..)) .refl) (.after (stopStable_pondSame.failStop ..) (.ite (.of_only (post_only ..)) .refl))) .refl
/-- A stop by the cause for which nothing more is admitted leaves that. -/
theorem failStop_admission {cause : BitVec 8} {s : State} (h : admission s = (true, cause)) : admission (failStop cause s) = (true, cause) := by
  by_cases hdown : s.dev = .holdUp ∨ s.dev = .stopped
  · rw [failStop_of_down hdown]
    exact h
  by_cases hstep : s.flt.stopStep = 0
  · by_cases honce : stopsAtOnce s.dev = true
    · exact (failStop_stoppedBy (cause := cause) honce hstep).admission
    · have hservice : inService s.dev = true := by
        by_contra hnot
        exact hdown (down_iff.2 ⟨Bool.eq_false_iff.2 honce, Bool.eq_false_iff.2 hnot⟩)
      obtain ⟨hclosed, hcause, -⟩ := failStop_begun (cause := cause) hservice hstep
      exact admission_iff.2 ⟨hclosed, hcause⟩
  · rw [failStop_of_stopping hstep]
    exact h
theorem advanceDrain_admission {s : State} (hstate : s.mpd.state = 4) (h : admission s = (true, 0xAC)) : admission (advanceDrain s) = (true, 0xAC) := by
  have hcause := (admission_iff.1 h).2
  unfold advanceDrain
  split
  · rw [if_neg (by simp [hstate]), hcause]
    refine failStop_admission ?_
    split
    · rw [admission_of_only (post_only ..)]
      exact h
    · exact h
  · exact h
/-- What no spare channel leaves (R309). -/
structure PondClosed (s t : State) : Prop where
  chans : t.mpd.chans = s.mpd.chans
  state : t.mpd.state = 4
  spare : t.mpd.spare = s.mpd.spare
  closed : t.hop.closed = true
  cause : t.hop.stopCause = 0xAC
theorem noSpare_closes (s : State) : PondClosed s (noSpare s) := by
  have heq : noSpare s = if mirrorOn (pondClosed s) then failStop 0xAC (post 0xAC mMillpond [] (pondClosed s)) else advanceDrain (pondClosed s) := rfl
  have hpond : PondSame (pondClosed s) (noSpare s) := by
    rw [heq]
    exact .ite (.after (stopStable_pondSame.failStop ..) (.of_only (post_only ..))) (advanceDrain_pond _)
  have hadmission : admission (noSpare s) = (true, 0xAC) := by
    rw [heq]
    split
    · exact failStop_admission (by rw [admission_of_only (post_only ..)]; rfl)
    · exact advanceDrain_admission rfl rfl
  obtain ⟨hclosed, hcause⟩ := admission_iff.1 hadmission
  have hview := hpond.view
  exact ⟨congrArg (·.1) hview, congrArg (·.2.1) hview, congrArg (·.2.2.1) hview, hclosed, hcause⟩

/-- A halted channel by what it changes (R331). -/
theorem haltChannel_quiet_only (ch cause addr elem : Nat) (inj : Bool) (s : State) :
    Only { flt := true, mqs := true, gov := true, alks := true, heads := true, rows := true, tre := true, slu := true, tx := true, free := true } s (haltChannel ch cause addr elem inj s) := by
  unfold haltChannel haltChannelAs
  extract_lets
  split
  · exact .ite ((endPass_only ..).after ((cutPass_only ..).after ((report_quiet_only rfl _).after ((mqSend_only ..).after ((pulse_only ..).after ((modTre_only ..).mono)))))) ((report_quiet_only rfl _).after ((mqSend_only ..).after ((pulse_only ..).after ((modTre_only ..).mono))))
  · exact (report_quiet_only rfl _).after ((mqSend_only ..).after ((pulse_only ..).after ((modTre_only ..).mono)))
theorem haltRequester_quiet_only (m : BitVec 8) (addr : Nat) (s : State) :
    Only { flt := true, mqs := true, gov := true, alks := true, heads := true, rows := true, tre := true, slu := true, tx := true, free := true } s (haltRequester m addr s) := by
  unfold haltRequester
  split
  · exact .refl
  · extract_lets
    split
    · exact .ite (haltChannel_quiet_only ..) .refl
    · exact .refl

end Sys2Proof.Machine
end

section
/-! An uncorrectable error of the millpond (R285 to R287, Table 9.5). -/

namespace Sys2Proof.Machine
set_option Elab.async false

-- An uncorrectable error of the millpond (R285 to R287, Table 9.5).

/-- An uncorrectable error is counted, reported, and halts the channel that asked. -/
def ueReport (both : Bool) (requester : BitVec 8) (c : UeContent) (s : State) : Report :=
  { master := requester, addr := BitVec.ofNat 48 (ueSite s c).1, cause := 2, mem := BitVec.ofNat 7 (ueSite s c).2, event := 0xA9, hold := both }
def uePosted (c : UeContent) (s : State) : State := post 0xA9 mMillpond [b1 (ueKind s c).1, b8 (ueKind s c).2] (ueCounted c s)
def ueReported (both : Bool) (requester : BitVec 8) (c : UeContent) (s : State) : State :=
  haltRequester requester (ueSite s c).1 (report (ueReport both requester c s) (uePosted c s))
theorem execMillpondUe_slot {s : State} (hawake : awake s = true) (requester : BitVec 8) (k : Nat) :
    exec (.millpondUe requester (.slot k)) s = .next (refillSlot k (ueReported false requester (.slot k) s)) := if_pos hawake
theorem execMillpondUe_frame {s : State} (hawake : awake s = true) (requester : BitVec 8) (f : Nat) (burst : Fin 64) :
    exec (.millpondUe requester (.frame f burst)) s = .next (ueResponse (.frame f burst) (ueReported false requester (.frame f burst) s)) := if_pos hawake
theorem execMillpondUe_bothCopies {s : State} (hawake : awake s = true) (requester : BitVec 8) (f : Nat) (burst : Fin 64) :
    exec (.millpondUe requester (.bothCopies f burst)) s = .next (ueResponse (.bothCopies f burst) (ueReported true requester (.bothCopies f burst) s)) := if_pos hawake
/-- What an error that does not hold changes before its response. -/
theorem ueReported_quiet_only (requester : BitVec 8) (c : UeContent) (s : State) :
    Only { evt := true, flt := true, mqs := true, gov := true, alks := true, heads := true, rows := true, tre := true, slu := true, tx := true, free := true } (ueCounted c s) (ueReported false requester c s) := by
  unfold ueReported uePosted
  exact (haltRequester_quiet_only ..).after ((report_quiet_only rfl _).after ((post_only ..).mono))
theorem ueReported_pond (both : Bool) (requester : BitVec 8) (c : UeContent) (s : State) : PondSame (ueCounted c s) (ueReported both requester c s) := by
  unfold ueReported uePosted
  exact (PondSame.of_only (haltRequester_quiet_only ..)).after ((PondSame.of_only (report_only ..)).after (.of_only (post_only ..)))
/-- An error is counted on its channel, and its burst kept for scrub (R306). -/
structure UeCounted (p burst : Nat) (s t : State) : Prop where
  ue : (getChan t p).ue = satInc 16 (getChan s p).ue
  burst : burst ∈ (getChan t p).ueBursts
  others : ∀ o < 9, o ≠ p → getChan t o = getChan s o
theorem noteUe_counts (p burst : Nat) (s : State) : UeCounted p burst s (noteUe p burst s) := by
  refine ⟨?_, ?_, fun o _ ho => getChan_modChan_other _ _ ho⟩
  · unfold noteUe
    rw [getChan_modChan]
  · unfold noteUe
    rw [getChan_modChan]
    dsimp only
    split
    next h => exact List.contains_iff_mem.1 h
    next => simp
theorem UeCounted.then {p burst : Nat} {s t u : State} (h : UeCounted p burst s t) (hu : PondSame t u) : UeCounted p burst s u := by
  refine ⟨?_, ?_, fun o ho hne => ?_⟩
  · rw [getChan_of_pond hu]
    exact h.ue
  · rw [getChan_of_pond hu]
    exact h.burst
  · rw [getChan_of_pond hu]
    exact h.others o ho hne
theorem retakeReaders_of_none (f : Nat) {s : State} (h : s.hop.cmds = []) : retakeReaders f s = { s with mpd := { s.mpd with pins := s.mpd.pins.filter fun q => q.1 ≠ f } } := by
  unfold retakeReaders
  dsimp only
  rw [h]
  rfl
theorem getFrame_setFrame (s : State) (f : Nat) (b : Block) : getFrame (setFrame s f b) f = b := tabSet_same (0 : Block) b s.mpd.frames f
theorem getFrame_pins (s : State) (ps : List (Nat × Nat)) (f : Nat) : getFrame { s with mpd := { s.mpd with pins := ps } } f = getFrame s f := rfl
theorem clean_setFrame (s : State) (f : Nat) (b : Block) : (setFrame s f b).mpd.clean = s.mpd.clean := rfl
/-- A clean frame that is dropped with no command under way. -/
theorem ueFrame_clean {f : Nat} {s : State} (hclean : (tabGet {} s.mpd.clean f).valid = true) (hcmds : s.hop.cmds = []) :
    (tabGet {} (ueFrame f s).mpd.clean f).valid = false ∧ getFrame (ueFrame f s) f = 0 := by
  unfold ueFrame
  dsimp only
  rw [if_pos hclean, retakeReaders_of_none f (by rw [(setFrame_only ..).hop rfl]; exact hcmds)]
  rw [getFrame_pins, getFrame_setFrame]
  dsimp only
  rw [clean_setFrame, tabDel_same]
  exact ⟨rfl, rfl⟩
/-- Whether a frame of the write cache is fetched back from the partner (R287, R305). -/
theorem ueResponse_mirrored {f : Nat} {burst : Fin 64} {s : State} (hf : 118784 ≤ f) (hclean : (tabGet {} s.mpd.clean f).valid = false) (hvalid : (getEntry s f).valid = true)
    (hmirrored : (getEntry s f).mirrored = true) (hlanded : landedEntry (getEntry s f) = true) (hup : linkUp s 2 = true) (hsynced : s.ptn.synced = true) :
    (f, (getEntry s f).vseq.toNat) ∈ (ueResponse (.frame f burst) s).ptn.fetches ∧ getFrame (ueResponse (.frame f burst) s) f = getFrame s f := by
  have hsent : (f, (getEntry s f).vseq.toNat) ∈ (ptnSend (.fetch 0 f (getEntry s f).vseq) { s with ptn := { s.ptn with fetches := s.ptn.fetches ++ [(f, (getEntry s f).vseq.toNat)] } }).ptn.fetches ∧
      getFrame (ptnSend (.fetch 0 f (getEntry s f).vseq) { s with ptn := { s.ptn with fetches := s.ptn.fetches ++ [(f, (getEntry s f).vseq.toNat)] } }) f = getFrame s f := by
    unfold getFrame
    rw [(ptnSend_only ..).ptn rfl, (ptnSend_only ..).mpd rfl]
    exact ⟨by simp, rfl⟩
  unfold ueResponse
  dsimp only
  rw [if_neg (by omega)]
  split
  · exact hsent
  · unfold ueFrame
    dsimp only
    rw [if_neg (by rw [hclean]; nofun), if_neg (by omega), if_neg (by simp [hvalid]), if_pos (by simp [hmirrored, hup, hsynced, hlanded])]
    exact hsent
/-- O25's first part (R285 to R287, R306). -/
theorem millpondUe_slot {s : State} (hawake : awake s = true) (requester : BitVec 8) (k : Nat) :
    Completes (.millpondUe requester (.slot k)) s fun t =>
      (∀ p < 9, getChan t p = getChan s p) ∧ (s.hop.cmds = [] → ∀ n, getSlot t n = getSlot s n) := by
  have honly := ueReported_quiet_only requester (.slot k) s
  refine ⟨_, execMillpondUe_slot hawake requester k, fun p _ => ?_, fun hcmds n => ?_⟩
  · rw [getChan_of_pond (refillSlot_pond ..), getChan_of_pond (ueReported_pond ..)]
    rfl
  · have hsame : refillSlot k (ueReported false requester (.slot k) s) = ueReported false requester (.slot k) s := by
      unfold refillSlot
      dsimp only
      have hnone : cmdOf (ueReported false requester (.slot k) s) (getSlot (ueReported false requester (.slot k) s) k).arrival = none := by
        unfold cmdOf
        rw [honly.hop rfl, show (ueCounted (.slot k) s).hop.cmds = [] from hcmds]
        rfl
      rw [hnone]
      exact ite_self _
    rw [hsame]
    unfold getSlot
    rw [honly.mrc rfl]
    rfl
/-- O25's second part, one copy (R285 to R287, R306, Table 9.5). -/
theorem millpondUe_frame {s : State} (hawake : awake s = true) (requester : BitVec 8) (f : Nat) (burst : Fin 64) :
    Completes (.millpondUe requester (.frame f burst)) s fun t => UeCounted (frameChan s f) (frameBurst f burst) s t ∧
      ((tabGet {} s.mpd.clean f).valid = true → 118784 ≤ f → (getEntry s f).valid = false → s.ptn.synced = false → s.hop.cmds = [] →
        (tabGet {} t.mpd.clean f).valid = false ∧ getFrame t f = 0) ∧
      (118784 ≤ f → (tabGet {} s.mpd.clean f).valid = false → (getEntry s f).valid = true → (getEntry s f).mirrored = true → landedEntry (getEntry s f) = true → linkUp s 2 = true → s.ptn.synced = true →
        (f, (getEntry s f).vseq.toNat) ∈ t.ptn.fetches ∧ getFrame t f = getFrame s f) := by
  have honly := ueReported_quiet_only requester (.frame f burst) s
  have hcounted := (noteUe_counts (frameChan s f) (frameBurst f burst) s).then (ueReported_pond false requester (.frame f burst) s)
  refine ⟨_, execMillpondUe_frame hawake requester f burst, hcounted.then (ueResponse_pond ..), ?_, ?_⟩
  all_goals
    have hmpd : (ueReported false requester (.frame f burst) s).mpd = (ueCounted (.frame f burst) s).mpd := honly.mpd rfl
    have hentry : getEntry (ueReported false requester (.frame f burst) s) f = getEntry s f := by
      unfold getEntry
      rw [hmpd]
      rfl
    have hclean : (ueReported false requester (.frame f burst) s).mpd.clean = s.mpd.clean := by
      rw [hmpd]
      rfl
    have hframe : getFrame (ueReported false requester (.frame f burst) s) f = getFrame s f := by
      unfold getFrame
      rw [hmpd]
      rfl
    have hptn : (ueReported false requester (.frame f burst) s).ptn = s.ptn := (honly.ptn rfl).trans rfl
    have hlink : linkUp (ueReported false requester (.frame f burst) s) 2 = linkUp s 2 := by
      unfold linkUp getLink
      rw [honly.links rfl]
      rfl
    have hcmds : (ueReported false requester (.frame f burst) s).hop.cmds = s.hop.cmds := by
      rw [honly.hop rfl]
      rfl
    generalize ueReported false requester (.frame f burst) s = u at hentry hclean hframe hptn hlink hcmds ⊢
  · intro hvalid hf hentryOut _ hnone
    have heq : ueResponse (.frame f burst) u = ueFrame f u := by
      unfold ueResponse
      dsimp only
      rw [if_neg (by omega), if_neg (by simp [mirrorFrame, hentry, hentryOut])]
    rw [heq]
    exact ueFrame_clean (by rw [hclean]; exact hvalid) (hcmds.trans hnone)
  · intro hf hcleanOut hvalid hmirrored hlanded hup hsynced
    rw [← hframe, ← hentry]
    exact ueResponse_mirrored hf (by rw [hclean]; exact hcleanOut) (by rw [hentry]; exact hvalid) (by rw [hentry]; exact hmirrored) (by rw [hentry]; exact hlanded)
      (hlink.trans hup) (by rw [hptn]; exact hsynced)
/-- O25's second part, both copies (R287). -/
theorem millpondUe_bothCopies {s : State} (hawake : awake s = true) (requester : BitVec 8) (f : Nat) (burst : Fin 64) :
    Completes (.millpondUe requester (.bothCopies f burst)) s fun t => UeCounted (frameChan s f) (frameBurst f burst) s t ∧ (holdsFrom s.dev = true → t.dev = .faultHold) := by
  have hcounted := (noteUe_counts (frameChan s f) (frameBurst f burst) s).then (ueReported_pond true requester (.bothCopies f burst) s)
  refine ⟨_, execMillpondUe_bothCopies hawake requester f burst, hcounted.then (ueResponse_pond ..), fun hfrom => ?_⟩
  have hposted : (uePosted (.bothCopies f burst) s).dev = s.dev := (post_only ..).dev
  have hheld : (report (ueReport true requester (.bothCopies f burst) s) (uePosted (.bothCopies f burst) s)).dev = .faultHold :=
    (reportAll_heldFrom (rs := [ueReport true requester (.bothCopies f burst) s]) rfl (by rw [hposted]; exact hfrom)).dev
  rw [(ueResponse_only ..).dev]
  unfold ueReported
  rw [(haltRequester_quiet_only ..).dev]
  exact hheld

end Sys2Proof.Machine
end

section
/-! A channel of the millpond that migrates to the spare (R307 to R309). -/

namespace Sys2Proof.Machine
set_option Elab.async false

-- A channel of the millpond that migrates to the spare (R307 to R309).

/-- What a lost channel held is fetched back or counted lost (R308). -/
def channelRecovered (logical cause : Nat) (s : State) : State :=
  if cause = 3 then each (channelFrames s logical) (fun f s => ueResponse (.frame f 0) (post 0xA9 mMillpond [b1 (ueKind s (.frame f 0)).1, b8 (ueKind s (.frame f 0)).2] s)) s else s
theorem channelRecovered_pond (logical cause : Nat) (s : State) : PondSame s (channelRecovered logical cause s) := by
  unfold channelRecovered
  exact .ite (.each (fun _ _ => (ueResponse_pond ..).after (.of_only (post_only ..))) .refl) .refl
theorem channelRecovered_dev (logical cause : Nat) (s : State) : (channelRecovered logical cause s).dev = s.dev := by
  unfold channelRecovered
  split
  · exact each_proj (·.dev) _ _ _ fun _ _ => (ueResponse_only ..).dev.trans (post_only ..).dev
  · rfl
/-- Channel `t` takes the place of channel `p` (R307). -/
def migrationRoles (logical p t : Nat) (s : State) : State :=
  modChan (modChan s p fun m => { m with role := 3, ueBursts := [] }) t fun m => { m with role := 4, logical }
def migrationSet (logical p t cause : Nat) (s : State) : State :=
  { migrationRoles logical p t s with mpd := { (migrationRoles logical p t s).mpd with state := 3, spare := 15, migLogical := logical, migCursor := 0, migLost := cause = 3 } }
def migrationPosted (logical p t cause : Nat) (s : State) : State := mqNote 26 (post 0xAA mMillpond [b1 logical, b1 p, b1 t, b1 cause] (migrationSet logical p t cause s))
def migrationHeld (logical p cause : Nat) (s : State) : State :=
  if cause = 3 then openCause 0xAA logical false (report { master := mMillpond, cause := 5, mem := BitVec.ofNat 7 (0x49 + p), event := 0xAA, hold := true } s) else s
def migrationStarted (logical p t cause : Nat) (s : State) : State := channelRecovered logical cause (migrationHeld logical p cause (migrationPosted logical p t cause s))
theorem migrate_of_none {logical cause : Nat} {s : State} (hp : physOf s logical = none) : migrate logical cause s = s := by
  unfold migrate
  rw [hp]
theorem migrate_of_some {logical cause p : Nat} {s : State} (hp : physOf s logical = some p) : migrate logical cause s =
    if s.mpd.state = 3 && s.mpd.migLogical = logical then s
    else if s.mpd.spare = 15 then (if s.mpd.state = 4 then s else noSpare (channelRecovered logical cause (modChan s p fun m => { m with role := 5 })))
    else migrationStarted logical p s.mpd.spare cause s := by
  unfold migrate
  rw [hp]
  rfl
theorem migrationPosted_pond (logical p t cause : Nat) (s : State) : PondSame (migrationSet logical p t cause s) (migrationPosted logical p t cause s) :=
  (PondSame.of_only (mqNote_only ..)).after (.of_only (post_only ..))
theorem migrationHeld_pond (logical p cause : Nat) (s : State) : PondSame s (migrationHeld logical p cause s) := by
  unfold migrationHeld
  exact .ite ((PondSame.of_only (openCause_only ..)).after (.of_only (report_only ..))) .refl
theorem migrationStarted_pond (logical p t cause : Nat) (s : State) : PondSame (migrationSet logical p t cause s) (migrationStarted logical p t cause s) :=
  (channelRecovered_pond ..).after ((migrationHeld_pond ..).after (migrationPosted_pond ..))
theorem migrationStarted_holds {logical p t cause : Nat} {s : State} (hcause : cause = 3) (hfrom : holdsFrom s.dev = true) : (migrationStarted logical p t cause s).dev = .faultHold := by
  have hposted : (migrationPosted logical p t cause s).dev = s.dev := (mqNote_only ..).dev.trans ((post_only ..).dev.trans rfl)
  unfold migrationStarted migrationHeld
  rw [channelRecovered_dev, if_pos hcause, (openCause_only ..).dev]
  exact (reportAll_heldFrom rfl (by rw [hposted]; exact hfrom)).dev
/-- What the begin of a migration leaves (R307). -/
structure Migrating (logical p t cause : Nat) (s u : State) : Prop where
  state : u.mpd.state = 3
  moved : u.mpd.migLogical = logical
  spare : u.mpd.spare = 15
  cursor : u.mpd.migCursor = 0
  lost : u.mpd.migLost = decide (cause = 3)
  chans : ∀ o, getChan u o = getChan (migrationRoles logical p t s) o
theorem migrationStarted_migrates (logical p t cause : Nat) (s : State) : Migrating logical p t cause s (migrationStarted logical p t cause s) := by
  have h := migrationStarted_pond logical p t cause s
  have hview := h.view
  exact ⟨congrArg (·.2.1) hview, congrArg (·.2.2.2.1) hview, congrArg (·.2.2.1) hview, congrArg (·.2.2.2.2.1) hview, congrArg (·.2.2.2.2.2.1) hview, fun o => (getChan_of_pond h o).trans rfl⟩
theorem getChan_migrationRoles_new (logical p t : Nat) (s : State) : (getChan (migrationRoles logical p t s) t).role = 4 ∧ (getChan (migrationRoles logical p t s) t).logical = logical := by
  unfold migrationRoles
  rw [getChan_modChan]
  exact ⟨rfl, rfl⟩
theorem getChan_migrationRoles_old {logical p t : Nat} {s : State} (h : p ≠ t) : (getChan (migrationRoles logical p t s) p).role = 3 := by
  unfold migrationRoles
  rw [getChan_modChan_other _ _ h, getChan_modChan]
/-- What the loss of the last spare leaves (R309). -/
theorem noSpare_recovered (logical cause p : Nat) (s : State) :
    PondClosed (modChan s p fun m => { m with role := 5 }) (noSpare (channelRecovered logical cause (modChan s p fun m => { m with role := 5 }))) := by
  have hclosed := noSpare_closes (channelRecovered logical cause (modChan s p fun m => { m with role := 5 }))
  have hview := (channelRecovered_pond logical cause (modChan s p fun m => { m with role := 5 })).view
  exact ⟨hclosed.chans.trans (congrArg (·.1) hview), hclosed.state, hclosed.spare.trans (congrArg (·.2.2.1) hview), hclosed.closed, hclosed.cause⟩
theorem getChan_of_chans {s t : State} (h : t.mpd.chans = s.mpd.chans) (o : Nat) : getChan t o = getChan s o := by
  unfold getChan
  rw [h]
/-- O25's third part (R307 to R309). -/
theorem migrationStart_migrates {s : State} (hawake : awake s = true) (logical : Fin 8) (cause : Fin 4) : Completes (.migrationStart logical cause) s fun t =>
    let p := physOf s logical
    let due : Prop := p ≠ none ∧ (s.mpd.state = 2 ∨ (s.mpd.state = 3 ∧ s.mpd.migLogical ≠ logical))
    (¬ due → t = s) ∧
    ∀ x, p = some x → due →
      (s.mpd.spare ≠ 15 → s.mpd.spare ≠ x → t.mpd.state = 3 ∧ t.mpd.migLogical = logical.val ∧ t.mpd.spare = 15 ∧ t.mpd.migCursor = 0 ∧ t.mpd.migLost = decide (cause.val = 3) ∧
        (getChan t x).role = 3 ∧
        (getChan t s.mpd.spare).role = 4 ∧ (getChan t s.mpd.spare).logical = logical.val ∧ (cause.val = 3 → holdsFrom s.dev = true → t.dev = .faultHold)) ∧
      (s.mpd.spare = 15 → t.mpd.state = 4 ∧ t.hop.closed = true ∧ t.hop.stopCause = 0xAC ∧ (getChan t x).role = 5) := by
  refine Completes.live (if_pos hawake) fun t ht => ?_
  dsimp only
  have hstates : (s.mpd.state = 2 || s.mpd.state = 3) = true ↔ s.mpd.state = 2 ∨ s.mpd.state = 3 := by simp
  refine ⟨fun hnot => ?_, fun x hx hdue => ?_⟩
  · rw [ht]
    split
    next h =>
      cases hp : physOf s logical with
      | none => exact migrate_of_none hp
      | some x =>
        have h3 : s.mpd.state = 3 ∧ s.mpd.migLogical = logical.val := by
          rcases hstates.1 h with h2 | h3
          · exact absurd ⟨by rw [hp]; nofun, .inl h2⟩ hnot
          · exact ⟨h3, by_contra fun hne => hnot ⟨by rw [hp]; nofun, .inr ⟨h3, hne⟩⟩⟩
        rw [migrate_of_some hp, if_pos (by simpa using h3)]
    next => rfl
  · have hdue := hdue.2
    have hrunning : ¬(s.mpd.state = 3 && s.mpd.migLogical = logical.val) = true := by
      rcases hdue with h | ⟨-, h⟩
      · simp [h]
      · simp [h]
    rw [if_pos (hstates.2 (hdue.imp id And.left)), migrate_of_some hx, if_neg hrunning] at ht
    refine ⟨fun hspare hother => ?_, fun hspare => ?_⟩
    · rw [if_neg hspare] at ht
      have hmigrates := migrationStarted_migrates logical x s.mpd.spare cause s
      rw [← ht] at hmigrates
      refine ⟨hmigrates.state, hmigrates.moved, hmigrates.spare, hmigrates.cursor, hmigrates.lost, ?_, ?_, ?_, fun hcause hfrom => ?_⟩
      · rw [hmigrates.chans]
        exact getChan_migrationRoles_old (Ne.symm hother)
      · rw [hmigrates.chans]
        exact (getChan_migrationRoles_new ..).1
      · rw [hmigrates.chans]
        exact (getChan_migrationRoles_new ..).2
      · rw [ht]
        exact migrationStarted_holds hcause hfrom
    · have hopen : ¬ s.mpd.state = 4 := by omega
      rw [if_pos hspare, if_neg hopen] at ht
      have hclosed := noSpare_recovered logical cause x s
      rw [← ht] at hclosed
      refine ⟨hclosed.state, hclosed.closed, hclosed.cause, ?_⟩
      rw [getChan_of_chans hclosed.chans, getChan_modChan]
/-- A channel's role when a migration is complete (R308). -/
def roleCompleted (r : Nat) : Nat := if r = 3 then 5 else if r = 4 then 1 else r
def chanCompleted (m : MpdChan) : MpdChan := if m.role = 3 then { m with role := 5, logical := 0 } else if m.role = 4 then { m with role := 1 } else m
def chansCompleted (s : State) : State := each (List.range 9) (fun p s => modChan s p chanCompleted) s
theorem chanCompleted_role (m : MpdChan) : (chanCompleted m).role = roleCompleted m.role := by
  unfold chanCompleted roleCompleted
  split
  · rfl
  · split <;> rfl
theorem getChan_chansCompleted (s : State) {p : Nat} (hp : p < 9) : getChan (chansCompleted s) p = chanCompleted (getChan s p) :=
  get_each_range (get := getChan) (g := fun _ => chanCompleted) (fun _ _ => getChan_modChan ..) (fun _ _ _ h => getChan_modChan_other _ _ h) hp s
def migrationCleared (s : State) : State := { s with mpd := { s.mpd with state := 2, migLogical := 15, migCursor := 0, migLost := false } }
theorem getChan_migrationCleared (s : State) (p : Nat) : getChan (migrationCleared s) p = getChan s p := rfl
theorem migrationCleared_view (s : State) : (migrationCleared s).mpd.state = 2 ∧ (migrationCleared s).mpd.migLogical = 15 ∧ (migrationCleared s).mpd.migCursor = 0 := ⟨rfl, rfl, rfl⟩
theorem PondSame.fields {s t : State} (h : PondSame s t) : t.mpd.state = s.mpd.state ∧ t.mpd.spare = s.mpd.spare ∧ t.mpd.migLogical = s.mpd.migLogical ∧ t.mpd.migCursor = s.mpd.migCursor := by
  have hview := h.view
  exact ⟨congrArg (·.2.1) hview, congrArg (·.2.2.1) hview, congrArg (·.2.2.2.1) hview, congrArg (·.2.2.2.2.1) hview⟩
/-- O25's fourth part (R308). -/
theorem migrationComplete_completes {s : State} (hawake : awake s = true) : Completes .migrationComplete s fun t =>
    let due : Prop := s.mpd.state = 3 ∧ (s.mpd.migLost = true ∨ s.mpd.migCursor = 131072)
    (¬ due → t = s) ∧
    (due → t.mpd.state = 2 ∧ t.mpd.migLogical = 15 ∧ t.mpd.migCursor = 0 ∧
      ∀ p < 9, (getChan t p).role = if (getChan s p).role = 3 then 5 else if (getChan s p).role = 4 then 1 else (getChan s p).role) := by
  refine Completes.live (if_pos hawake) fun t ht => ?_
  dsimp only
  have hdue : (s.mpd.state = 3 && (s.mpd.migLost || s.mpd.migCursor = 131072)) = true ↔ s.mpd.state = 3 ∧ (s.mpd.migLost = true ∨ s.mpd.migCursor = 131072) := by simp
  refine ⟨fun hnot => by rw [ht, if_neg fun h => hnot (hdue.1 h)], fun h => ?_⟩
  rw [if_pos (hdue.2 h)] at ht
  replace ht : t = mqNote 26 (post 0xAB mMillpond [] (closeCause 0xAA s.mpd.migLogical (migrationCleared (chansCompleted s)))) := ht
  have hpond : PondSame (migrationCleared (chansCompleted s)) t := by
    rw [ht]
    exact (PondSame.of_only (mqNote_only ..)).after ((PondSame.of_only (post_only ..)).after (.of_only (closeCause_only ..)))
  obtain ⟨hstate, -, hlogical, hcursor⟩ := hpond.fields
  obtain ⟨hstate', hlogical', hcursor'⟩ := migrationCleared_view (chansCompleted s)
  refine ⟨hstate.trans hstate', hlogical.trans hlogical', hcursor.trans hcursor', fun p hp => ?_⟩
  rw [getChan_of_pond hpond, getChan_migrationCleared, getChan_chansCompleted s hp]
  exact chanCompleted_role _

end Sys2Proof.Machine
end

section
/-! Scrub of the millpond, its spare, and its refresh (O25). -/

namespace Sys2Proof.Machine
set_option Elab.async false

-- Scrub of a channel of the millpond (R306, R307).

/-- What a beat of a scrubbed burst makes of its channel. -/
def beatChan (n burst : Nat) (m : MpdChan) (syn : BitVec 8) : MpdChan :=
  if syn = 0 then m
  else if correctable syn then { m with ce := satInc 32 m.ce, ceTimes := (m.ceTimes.filter fun t => decide (n < t + 86400 * oneSec)) ++ [n] }
  else { m with ue := satInc 16 m.ue, ueBursts := if m.ueBursts.contains burst then m.ueBursts else m.ueBursts ++ [burst] }
/-- Channel `p` alone changes, to `m`. -/
structure ChanNow (p : Nat) (m : MpdChan) (s t : State) : Prop where
  chan : getChan t p = m
  others : ∀ o, o ≠ p → getChan t o = getChan s o
  state : t.mpd.state = s.mpd.state
  spare : t.mpd.spare = s.mpd.spare
  moved : t.mpd.migLogical = s.mpd.migLogical
  now : now t = now s
  img : t.img = s.img
theorem ChanNow.refl (p : Nat) (s : State) : ChanNow p (getChan s p) s s := ⟨rfl, fun _ _ => rfl, rfl, rfl, rfl, rfl, rfl⟩
theorem ChanNow.after {p : Nat} {m m' : MpdChan} {s t u : State} (h₂ : ChanNow p m' t u) (h₁ : ChanNow p m s t) : ChanNow p m' s u :=
  ⟨h₂.chan, fun o ho => (h₂.others o ho).trans (h₁.others o ho), h₂.state.trans h₁.state, h₂.spare.trans h₁.spare, h₂.moved.trans h₁.moved, h₂.now.trans h₁.now, h₂.img.trans h₁.img⟩
theorem modChan_now (s : State) (p : Nat) (f : MpdChan → MpdChan) : ChanNow p (f (getChan s p)) s (modChan s p f) :=
  ⟨getChan_modChan .., fun _ ho => getChan_modChan_other _ _ ho, rfl, rfl, rfl, rfl, rfl⟩
theorem ChanNow.then {p : Nat} {m : MpdChan} {s t u : State} {us : Units} (h : ChanNow p m s t) (hpond : PondSame t u) (honly : Only us t u) (hus : us.aon = false ∧ us.img = false := by exact ⟨rfl, rfl⟩) : ChanNow p m s u := by
  obtain ⟨hstate, hspare, hmoved, -⟩ := hpond.fields
  exact ⟨(getChan_of_pond hpond p).trans h.chan, fun o ho => (getChan_of_pond hpond o).trans (h.others o ho), hstate.trans h.state, hspare.trans h.spare, hmoved.trans h.moved,
    (now_of_only honly hus.1).trans h.now, (honly.img hus.2).trans h.img⟩
theorem scrubBeat_now (p burst beat : Nat) (syn : BitVec 8) (s : State) : ChanNow p (beatChan (now s) burst (getChan s p) syn) s (scrubBeat p burst beat syn s) := by
  unfold scrubBeat beatChan
  dsimp only
  split
  · exact .refl p s
  split
  · have hchan := modChan_now s p fun m => { m with ce := satInc 32 m.ce, ceTimes := recent s (86400 * oneSec) m.ceTimes ++ [now s] }
    exact (hchan.then (.of_only (dropTags_only ..)) (dropTags_only ..)).then (.of_only (report_only ..)) (report_only ..)
  · have hchan := modChan_now s p fun m => { m with ue := satInc 16 m.ue, ueBursts := if m.ueBursts.contains burst then m.ueBursts else m.ueBursts ++ [burst] }
    have hposted := hchan.then (.of_only (postInj_only ..)) (postInj_only (beatTagged s (0x49 + p) (burstAddr (getChan s p).logical burst + 8 * beat) syn) 0xA9 mMillpond
      [b1 (ueKind (noteUe p burst s) (.frame (8 * (burst / 64) + (getChan s p).logical) 0)).1, b8 (8 * (burst / 64) + (getChan s p).logical)] _)
    exact (hposted.then (.of_only (report_only ..)) (report_only ..)).then (ueResponse_pond ..) (ueResponse_only ..)
theorem scrubBeats_now (p burst : Nat) (ys : List (BitVec 8)) (k : Nat) (s : State) :
    ChanNow p (ys.foldl (beatChan (now s) burst) (getChan s p)) s (each (ys.zipIdx k) (fun y s => scrubBeat p burst y.2 y.1 s) s) := by
  induction ys generalizing k s with
  | nil => exact .refl p s
  | cons y ys ih =>
    have hfirst := scrubBeat_now p burst k y s
    have hrest := ih (k + 1) (scrubBeat p burst k y s)
    rw [hfirst.chan, hfirst.now] at hrest
    exact hrest.after hfirst
/-- The beats that scrub corrects, and those that it cannot. -/
def fixedBeats (ys : List (BitVec 8)) : Nat := (ys.filter fun y => y ≠ 0 && correctable y).length
def badBeats (ys : List (BitVec 8)) : Nat := (ys.filter fun y => y ≠ 0 && !correctable y).length
/-- What the beats of a burst leave of their channel. -/
structure Beaten (n burst fixed bad : Nat) (m m' : MpdChan) : Prop where
  role : m'.role = m.role
  logical : m'.logical = m.logical
  scrub : m'.scrub = m.scrub
  ce : m'.ce = if fixed = 0 then m.ce else satAdd 32 m.ce fixed
  ue : m'.ue = if bad = 0 then m.ue else satAdd 16 m.ue bad
  times : (m'.ceTimes.filter fun t => decide (n < t + 86400 * oneSec)).length = (m.ceTimes.filter fun t => decide (n < t + 86400 * oneSec)).length + fixed
  bursts : burst ∈ m'.ueBursts ↔ burst ∈ m.ueBursts ∨ 0 < bad
theorem satAdd_one (w n : Nat) : satAdd w n 1 = satInc w n := rfl
theorem satTimes_succ (w n k : Nat) : (if k = 0 then satInc w n else satAdd w (satInc w n) k) = satAdd w n (k + 1) := by
  split
  next h => rw [h, satAdd_one]
  next => exact satAdd_satInc ..
theorem beats_leave (n burst : Nat) (ys : List (BitVec 8)) (m : MpdChan) : Beaten n burst (fixedBeats ys) (badBeats ys) m (ys.foldl (beatChan n burst) m) := by
  induction ys generalizing m with
  | nil => exact ⟨rfl, rfl, rfl, rfl, rfl, rfl, by simp [badBeats]⟩
  | cons y ys ih =>
    have hrest := ih (beatChan n burst m y)
    rw [List.foldl_cons]
    by_cases hy : y = 0
    · subst hy
      have hchan : beatChan n burst m 0 = m := if_pos rfl
      rw [hchan] at hrest ⊢
      exact hrest
    by_cases hfix : correctable y = true
    · have hchan : beatChan n burst m y = { m with ce := satInc 32 m.ce, ceTimes := (m.ceTimes.filter fun t => decide (n < t + 86400 * oneSec)) ++ [n] } := by
        unfold beatChan
        rw [if_neg hy, if_pos hfix]
      have hfixed : fixedBeats (y :: ys) = fixedBeats ys + 1 := congrArg List.length (List.filter_cons_of_pos (by simpa [hfix] using hy))
      have hbad : badBeats (y :: ys) = badBeats ys := by simp [badBeats, hfix]
      rw [hchan] at hrest ⊢
      rw [hfixed, hbad]
      obtain ⟨hrole, hlogical, hscrub, hce, hue, htimes, hbursts⟩ := hrest
      refine ⟨hrole, hlogical, hscrub, hce.trans ((satTimes_succ ..).trans (if_neg (Nat.succ_ne_zero _)).symm), hue, ?_, hbursts⟩
      rw [htimes]
      have hnow : decide (n < n + 86400 * oneSec) = true := by simp [oneSec]
      simp only [List.filter_append, List.filter_filter, Bool.and_self, List.length_append, List.filter_cons, hnow, if_true, List.filter_nil, List.length_cons, List.length_nil]
      omega
    · have hchan : beatChan n burst m y = { m with ue := satInc 16 m.ue, ueBursts := if m.ueBursts.contains burst then m.ueBursts else m.ueBursts ++ [burst] } := by
        unfold beatChan
        rw [if_neg hy, if_neg hfix]
      have hfixed : fixedBeats (y :: ys) = fixedBeats ys := by simp [fixedBeats, hfix]
      have hbad : badBeats (y :: ys) = badBeats ys + 1 := congrArg List.length (List.filter_cons_of_pos (by simpa [hfix] using hy))
      rw [hchan] at hrest ⊢
      rw [hfixed, hbad]
      obtain ⟨hrole, hlogical, hscrub, hce, hue, htimes, hbursts⟩ := hrest
      refine ⟨hrole, hlogical, hscrub, hce, hue.trans ((satTimes_succ ..).trans (if_neg (Nat.succ_ne_zero _)).symm), htimes, hbursts.trans ?_⟩
      dsimp only
      split
      next h => simp [List.contains_iff_mem.1 h]
      next => simp

/-- A migration leaves a channel's scrub and counts, and names no further burst. -/
structure ScrubStays (m m' : MpdChan) : Prop where
  scrub : m'.scrub = m.scrub
  ce : m'.ce = m.ce
  ue : m'.ue = m.ue
  bursts : m'.ueBursts ⊆ m.ueBursts
theorem ScrubStays.refl (m : MpdChan) : ScrubStays m m := ⟨rfl, rfl, rfl, List.Subset.refl _⟩
theorem ScrubStays.of_eq {m m' : MpdChan} (h : m' = m) : ScrubStays m m' := by
  rw [h]
  exact .refl m
theorem ScrubStays.after {m m' m'' : MpdChan} (h₂ : ScrubStays m' m'') (h₁ : ScrubStays m m') : ScrubStays m m'' :=
  ⟨h₂.scrub.trans h₁.scrub, h₂.ce.trans h₁.ce, h₂.ue.trans h₁.ue, List.Subset.trans h₂.bursts h₁.bursts⟩
theorem modChan_scrubStays {f : MpdChan → MpdChan} (hf : ∀ m, ScrubStays m (f m)) (s : State) (p o : Nat) : ScrubStays (getChan s o) (getChan (modChan s p f) o) := by
  by_cases ho : o = p
  · subst ho
    rw [getChan_modChan]
    exact hf _
  · exact .of_eq (getChan_modChan_other _ _ ho)
theorem migrationRoles_scrubStays (logical p t : Nat) (s : State) (o : Nat) : ScrubStays (getChan s o) (getChan (migrationRoles logical p t s) o) := by
  unfold migrationRoles
  exact (modChan_scrubStays (by exact fun _ => ⟨rfl, rfl, rfl, List.Subset.refl _⟩) _ t o).after (modChan_scrubStays (by exact fun _ => ⟨rfl, rfl, rfl, List.nil_subset _⟩) s p o)
theorem migrate_scrubStays (logical cause : Nat) (s : State) (o : Nat) : ScrubStays (getChan s o) (getChan (migrate logical cause s) o) := by
  cases hp : physOf s logical with
  | none =>
    rw [migrate_of_none hp]
    exact .refl _
  | some p =>
    rw [migrate_of_some hp]
    split
    · exact .refl _
    split
    · split
      · exact .refl _
      · rw [getChan_of_chans (noSpare_recovered logical cause p s).chans]
        exact modChan_scrubStays (by exact fun _ => ⟨rfl, rfl, rfl, List.Subset.refl _⟩) s p o
    · rw [(migrationStarted_migrates ..).chans]
      exact migrationRoles_scrubStays ..
/-- The channel whose burst scrub has read (R306). -/
def scrubbedChan (bad : Bool) (m : MpdChan) : MpdChan :=
  { m with scrub := (m.scrub + 1) % 2 ^ 23, ueBursts := if bad then m.ueBursts else m.ueBursts.filter (· ≠ m.scrub) }
/-- The state once the beats of a burst have been taken. -/
def scrubbed (p : Nat) (ys : List (BitVec 8)) (s : State) : State :=
  let u := modChan s p (scrubbedChan (ys.any fun y => y ≠ 0 && !correctable y))
  let burst := (getChan s p).scrub
  each ys.zipIdx (fun y s => scrubBeat p burst y.2 y.1 s) (if ys.all (· = 0) then u else mqNote 26 u)
theorem badBeats_pos (ys : List (BitVec 8)) : (ys.any fun y => y ≠ 0 && !correctable y) = decide (0 < badBeats ys) := by
  unfold badBeats
  rw [Bool.eq_iff_iff, decide_eq_true_iff, List.length_pos_iff_exists_mem, List.any_eq_true]
  exact ⟨fun ⟨y, hy, h⟩ => ⟨y, List.mem_filter.2 ⟨hy, h⟩⟩, fun ⟨y, hy⟩ => ⟨y, List.mem_filter.1 hy⟩⟩
theorem scrubbed_now (p : Nat) (ys : List (BitVec 8)) (s : State) :
    ∃ m', ChanNow p m' s (scrubbed p ys s) ∧ Beaten (now s) (getChan s p).scrub (fixedBeats ys) (badBeats ys) (scrubbedChan (decide (0 < badBeats ys)) (getChan s p)) m' := by
  have hfirst := modChan_now s p (scrubbedChan (decide (0 < badBeats ys)))
  have hnoted : ChanNow p (scrubbedChan (decide (0 < badBeats ys)) (getChan s p)) s
      (if ys.all (· = 0) then modChan s p (scrubbedChan (decide (0 < badBeats ys))) else mqNote 26 (modChan s p (scrubbedChan (decide (0 < badBeats ys))))) := by
    split
    · exact hfirst
    · exact hfirst.then (.of_only (mqNote_only ..)) (mqNote_only ..)
  unfold scrubbed
  rw [badBeats_pos]
  dsimp only
  generalize (if ys.all (· = 0) then modChan s p (scrubbedChan (decide (0 < badBeats ys))) else mqNote 26 (modChan s p (scrubbedChan (decide (0 < badBeats ys))))) = u at hnoted ⊢
  have hbeats := scrubBeats_now p (getChan s p).scrub ys 0 u
  rw [hnoted.chan, hnoted.now] at hbeats
  exact ⟨_, hbeats.after hnoted, beats_leave ..⟩
theorem scrubBad_iff (bad : Bool) (burst : Nat) (m : MpdChan) (h : m.scrub = burst) : burst ∈ (scrubbedChan bad m).ueBursts ↔ bad = true ∧ burst ∈ m.ueBursts := by
  subst h
  unfold scrubbedChan
  cases bad <;> simp
theorem physOf_scrubbed {p : Nat} {m' : MpdChan} {s t : State} (h : ChanNow p m' s t) (hrole : m'.role = (getChan s p).role) (hlogical : m'.logical = (getChan s p).logical) (l : Nat) :
    physOf t l = physOf s l := by
  have hsame (o : Nat) : (getChan t o).role = (getChan s o).role ∧ (getChan t o).logical = (getChan s o).logical := by
    by_cases ho : o = p
    · subst ho
      rw [h.chan]
      exact ⟨hrole, hlogical⟩
    · rw [h.others o ho]
      exact ⟨rfl, rfl⟩
  unfold physOf
  simp only [hsame]
theorem recent_length (s : State) (ts : List Nat) : (recent s (86400 * oneSec) ts).length = (ts.filter fun t => decide (now s < t + 86400 * oneSec)).length := rfl
/-- Scrub ends in the migration of a failing channel, or with the beats taken. -/
theorem scrubRead_ends {s : State} (hawake : awake s = true) (channel : Fin 9) (syndromes : Vector (BitVec 8) 8)
    (hserves : ((getChan s channel).role = 1 ∨ (getChan s channel).role = 3) ∧ pondRuns s = true) :
    ∃ t, exec (.scrubRead channel syndromes) s = .next t ∧
      ((((0 < badBeats syndromes.toList ∧ (getChan s channel).scrub ∈ (getChan s channel).ueBursts) ∨ ceLimit s.img < (recent s (86400 * oneSec) (getChan s channel).ceTimes).length + fixedBeats syndromes.toList) ∧
          (t = migrate (getChan s channel).logical 0 (scrubbed channel syndromes.toList s) ∨ t = migrate (getChan s channel).logical 1 (scrubbed channel syndromes.toList s))) ∨
        (¬((0 < badBeats syndromes.toList ∧ (getChan s channel).scrub ∈ (getChan s channel).ueBursts) ∨ ceLimit s.img < (recent s (86400 * oneSec) (getChan s channel).ceTimes).length + fixedBeats syndromes.toList) ∧
          t = scrubbed channel syndromes.toList s)) := by
  obtain ⟨m', hnow, hbeaten⟩ := scrubbed_now channel syndromes.toList s
  have hserved : ¬(((getChan s channel).role ≠ 1 && (getChan s channel).role ≠ 3) || !pondRuns s) = true := by
    obtain ⟨hrole, hruns⟩ := hserves
    rcases hrole with h | h <;> simp [h, hruns]
  refine ⟨_, (if_pos hawake).trans (congrArg _ (if_neg hserved)), ?_⟩
  have hue : ((syndromes.toList.any fun y => y ≠ 0 && !correctable y) && (getChan s channel).ueBursts.contains (getChan s channel).scrub) = true ↔
      0 < badBeats syndromes.toList ∧ (getChan s channel).scrub ∈ (getChan s channel).ueBursts := by
    rw [badBeats_pos]
    simp
  have hce : (recent (scrubbed channel syndromes.toList s) (86400 * oneSec) (getChan (scrubbed channel syndromes.toList s) channel).ceTimes).length =
      (recent s (86400 * oneSec) (getChan s channel).ceTimes).length + fixedBeats syndromes.toList := by
    rw [hnow.chan, recent_length, hnow.now, hbeaten.times]
    rfl
  by_cases hbad : 0 < badBeats syndromes.toList ∧ (getChan s channel).scrub ∈ (getChan s channel).ueBursts
  · exact .inl ⟨.inl hbad, .inl (if_pos (hue.2 hbad))⟩
  by_cases hlimit : ceLimit s.img < (recent s (86400 * oneSec) (getChan s channel).ceTimes).length + fixedBeats syndromes.toList
  · refine .inl ⟨.inr hlimit, .inr ((if_neg fun h => hbad (hue.1 h)).trans (if_pos ?_))⟩
    show ceLimit (scrubbed channel syndromes.toList s).img < (recent (scrubbed channel syndromes.toList s) (86400 * oneSec) (getChan (scrubbed channel syndromes.toList s) channel).ceTimes).length
    rw [hce, hnow.img]
    exact hlimit
  · refine .inr ⟨fun h => h.elim hbad hlimit, (if_neg fun h => hbad (hue.1 h)).trans (if_neg ?_)⟩
    show ¬ ceLimit (scrubbed channel syndromes.toList s).img < (recent (scrubbed channel syndromes.toList s) (86400 * oneSec) (getChan (scrubbed channel syndromes.toList s) channel).ceTimes).length
    rw [hce, hnow.img]
    exact hlimit
/-- A channel that fails migrates, where it is the channel of its number (R307). -/
theorem migrate_to_spare {logical cause x : Nat} {s : State} (hstate : s.mpd.state = 2) (hspare : s.mpd.spare < 9) (hp : physOf s logical = some x) :
    (migrate logical cause s).mpd.state = 3 ∧ (migrate logical cause s).mpd.migLogical = logical ∧ (getChan (migrate logical cause s) s.mpd.spare).role = 4 := by
  rw [migrate_of_some hp, if_neg (by simp [hstate]), if_neg (by omega)]
  have h := migrationStarted_migrates logical x s.mpd.spare cause s
  exact ⟨h.state, h.moved, by rw [h.chans]; exact (getChan_migrationRoles_new ..).1⟩
theorem migrate_no_spare {logical cause x : Nat} {s : State} (hstate : s.mpd.state = 2) (hspare : s.mpd.spare = 15) (hp : physOf s logical = some x) :
    (migrate logical cause s).mpd.state = 4 ∧ (migrate logical cause s).hop.closed = true := by
  rw [migrate_of_some hp, if_neg (by simp [hstate]), if_pos hspare, if_neg (by omega)]
  have h := noSpare_recovered logical cause x s
  exact ⟨h.state, h.closed⟩
/-- O25's fifth part (R306, R307). -/
theorem scrubRead_scrubs {s : State} (hawake : awake s = true) (channel : Fin 9) (syndromes : Vector (BitVec 8) 8) : Completes (.scrubRead channel syndromes) s fun t =>
    let m := getChan s channel
    let serves : Prop := (m.role = 1 ∨ m.role = 3) ∧ pondRuns s = true
    let fixed := fixedBeats syndromes.toList
    let bad := badBeats syndromes.toList
    let errors := (recent s (86400 * oneSec) m.ceTimes).length + fixed
    let failing : Prop := (0 < bad ∧ m.scrub ∈ m.ueBursts) ∨ ceLimit s.img < errors
    (¬ serves → t = s) ∧
    (serves → (getChan t channel).scrub = (m.scrub + 1) % 2 ^ 23 ∧ (getChan t channel).ce = (if fixed = 0 then m.ce else satAdd 32 m.ce fixed) ∧ (getChan t channel).ue = (if bad = 0 then m.ue else satAdd 16 m.ue bad) ∧
      (bad = 0 → m.scrub ∉ (getChan t channel).ueBursts) ∧ (0 < bad → ¬ failing → m.scrub ∈ (getChan t channel).ueBursts) ∧
      (¬ failing → t.mpd.state = s.mpd.state ∧ t.mpd.spare = s.mpd.spare) ∧
      (failing → s.mpd.state = 2 → s.mpd.spare < 9 → physOf s m.logical = some channel.val → s.mpd.spare ≠ channel.val →
        t.mpd.state = 3 ∧ t.mpd.migLogical = m.logical ∧ (getChan t s.mpd.spare).role = 4) ∧
      (failing → s.mpd.state = 2 → s.mpd.spare = 15 → physOf s m.logical = some channel.val → t.mpd.state = 4 ∧ t.hop.closed = true)) := by
  by_cases hserves : ((getChan s channel).role = 1 ∨ (getChan s channel).role = 3) ∧ pondRuns s = true
  swap
  · have hnot : (((getChan s channel).role ≠ 1 && (getChan s channel).role ≠ 3) || !pondRuns s) = true := by
      by_contra h
      exact hserves (by simpa [or_iff_not_imp_left] using h)
    exact ⟨s, (if_pos hawake).trans (congrArg _ (if_pos hnot)), fun _ => rfl, fun h => absurd h hserves⟩
  obtain ⟨t, ht, hends⟩ := scrubRead_ends hawake channel syndromes hserves
  obtain ⟨m', hnow, hbeaten⟩ := scrubbed_now channel syndromes.toList s
  have hchan := hnow.chan
  have hphys (l : Nat) : physOf (scrubbed channel syndromes.toList s) l = physOf s l := physOf_scrubbed hnow hbeaten.role hbeaten.logical l
  have hstays : ScrubStays m' (getChan t channel) := by
    rw [← hchan]
    rcases hends with ⟨-, rfl | rfl⟩ | ⟨-, rfl⟩
    · exact migrate_scrubStays ..
    · exact migrate_scrubStays ..
    · exact .refl _
  refine ⟨t, ht, fun h => absurd hserves h, fun _ => ⟨hstays.scrub.trans hbeaten.scrub, hstays.ce.trans hbeaten.ce, hstays.ue.trans hbeaten.ue, fun hbad hmem => ?_, fun hbad hnot => ?_, fun hnot => ?_,
    fun hfails hstate hspare hp _ => ?_, fun hfails hstate hspare hp => ?_⟩⟩
  · rcases hbeaten.bursts.1 (hstays.bursts hmem) with h | h
    · have hscrub := (scrubBad_iff _ _ _ rfl).1 h
      exact absurd hscrub.1 (by simp; omega)
    · omega
  · have hsame := (hends.resolve_left fun h => hnot h.1).2
    rw [hsame, hchan]
    exact hbeaten.bursts.2 (.inr hbad)
  · have hsame := (hends.resolve_left fun h => hnot h.1).2
    rw [hsame]
    exact ⟨hnow.state, hnow.spare⟩
  · have hstate' := hnow.state.trans hstate
    have hp' := (hphys (getChan s channel).logical).trans hp
    rcases hends with ⟨-, rfl | rfl⟩ | ⟨hnot, -⟩
    · rw [← hnow.spare] at hspare ⊢
      exact migrate_to_spare hstate' hspare hp'
    · rw [← hnow.spare] at hspare ⊢
      exact migrate_to_spare hstate' hspare hp'
    · exact absurd hfails hnot
  · have hstate' := hnow.state.trans hstate
    have hp' := (hphys (getChan s channel).logical).trans hp
    rcases hends with ⟨-, rfl | rfl⟩ | ⟨hnot, -⟩
    · exact migrate_no_spare hstate' (hnow.spare.trans hspare) hp'
    · exact migrate_no_spare hstate' (hnow.spare.trans hspare) hp'
    · exact absurd hfails hnot
/-- The spare channel is lost (R309). -/
def spareLost (trained : Bool) (m : MpdChan) : MpdChan := { m with role := 5, trained := m.trained && trained }
def spareGone (trained : Bool) (s : State) : State :=
  { modChan s s.mpd.spare (spareLost trained) with mpd := { (modChan s s.mpd.spare (spareLost trained)).mpd with spare := 15 } }
theorem loseSpare_eq {trained : Bool} {s : State} (h : s.mpd.spare ≠ 15) : loseSpare trained s = post 0xA8 mMillpond [] (spareGone trained s) := if_neg h
theorem getChan_spareGone (trained : Bool) (s : State) : getChan (spareGone trained s) s.mpd.spare = spareLost trained (getChan s s.mpd.spare) :=
  (getChan_of_chans rfl _).trans (getChan_modChan s s.mpd.spare (spareLost trained))
theorem loseSpare_loses {trained : Bool} {s : State} (h : s.mpd.spare ≠ 15) : (loseSpare trained s).mpd.spare = 15 ∧
    getChan (loseSpare trained s) s.mpd.spare = spareLost trained (getChan s s.mpd.spare) ∧ (loseSpare trained s).mpd.spareTestAt = s.mpd.spareTestAt := by
  rw [loseSpare_eq h]
  have hmpd := (post_only 0xA8 mMillpond [] (spareGone trained s)).mpd rfl
  exact ⟨congrArg (·.spare) hmpd, (getChan_of_chans (congrArg (·.chans) hmpd) _).trans (getChan_spareGone trained s), congrArg (·.spareTestAt) hmpd⟩
def spareTested (s : State) : State := { s with mpd := { s.mpd with spareTestAt := now s } }
/-- O25's sixth part (R309). -/
theorem sparePatternTest_tests {s : State} (hawake : awake s = true) (pass : Bool) : Completes (.sparePatternTest pass) s fun t =>
    (s.mpd.spare = 15 → t = s) ∧
    (s.mpd.spare ≠ 15 → t.mpd.spareTestAt = now s ∧ (pass = true → t.mpd.spare = s.mpd.spare) ∧ (pass = false → t.mpd.spare = 15 ∧ (getChan t s.mpd.spare).role = 5)) := by
  refine Completes.live (if_pos hawake) fun t ht => ⟨fun h => by rw [ht, if_pos h], fun h => ?_⟩
  rw [if_neg h] at ht
  cases pass with
  | true =>
    rw [if_pos rfl] at ht
    rw [ht]
    exact ⟨rfl, fun _ => rfl, nofun⟩
  | false =>
    rw [if_neg nofun] at ht
    replace ht : t = loseSpare true (spareTested s) := ht
    obtain ⟨hspare, hchan, htested⟩ := loseSpare_loses (trained := true) (s := spareTested s) h
    rw [← ht] at hspare hchan htested
    exact ⟨htested, nofun, fun _ => ⟨hspare, congrArg MpdChan.role hchan⟩⟩
/-- O25's seventh part (R309). -/
theorem spareChannelTrainingLoss_loses {s : State} (hawake : awake s = true) : Completes .spareChannelTrainingLoss s fun t =>
    (s.mpd.spare = 15 → t = s) ∧ (s.mpd.spare ≠ 15 → t.mpd.spare = 15 ∧ (getChan t s.mpd.spare).role = 5 ∧ (getChan t s.mpd.spare).trained = false) := by
  refine Completes.live (if_pos hawake) fun t ht => ⟨fun h => ht.trans (if_pos h), fun h => ?_⟩
  obtain ⟨hspare, hchan, -⟩ := loseSpare_loses (trained := false) h
  rw [← ht] at hspare hchan
  exact ⟨hspare, congrArg MpdChan.role hchan, (congrArg MpdChan.trained hchan).trans (Bool.and_false _)⟩
/-- O25's last part (R306). -/
theorem dramRefresh_refreshes {s : State} (hawake : awake s = true) (channel : Fin 9) : Completes (.dramRefresh channel) s fun t =>
    (getChan t channel).refreshRow = (if s.mpd.state = 0 then (getChan s channel).refreshRow else ((getChan s channel).refreshRow + 1) % 131072) ∧ t.mpd.frames = s.mpd.frames := by
  refine Completes.live (if_pos hawake) fun t ht => ?_
  rw [ht]
  split
  · exact ⟨rfl, rfl⟩
  · rw [getChan_modChan]
    exact ⟨rfl, rfl⟩
theorem zqCalShort_calibrates {s : State} (hawake : awake s = true) (channel : Fin 9) : Completes (.zqCalShort channel) s fun t =>
    (getChan t channel).calAt = if s.mpd.state = 0 then (getChan s channel).calAt else now s := by
  refine Completes.live (if_pos hawake) fun t ht => ?_
  rw [ht]
  split
  · rfl
  · rw [getChan_modChan]
/-- Settles O25: reports, halts and the responses to an error leave the channels, the spare and the migration, and a stop leaves them and the cause of the closed hopper. -/
theorem millpondErrorsAndMigration : Obligations.MillpondErrorsAndMigration := by
  unfold Obligations.MillpondErrorsAndMigration
  intro s hawake
  refine ⟨millpondUe_slot hawake, fun requester f burst => ⟨?_, ?_⟩, migrationStart_migrates hawake, migrationComplete_completes hawake, scrubRead_scrubs hawake,
    sparePatternTest_tests hawake, spareChannelTrainingLoss_loses hawake, fun channel => ⟨dramRefresh_refreshes hawake channel, zqCalShort_calibrates hawake channel⟩⟩
  · obtain ⟨t, ht, ⟨hue, hburst, hothers⟩, hclean, hmirrored⟩ := millpondUe_frame hawake requester f burst
    exact ⟨t, ht, ⟨hue, hburst, hothers⟩, hclean, hmirrored⟩
  · obtain ⟨t, ht, ⟨hue, hburst, hothers⟩, hheld⟩ := millpondUe_bothCopies hawake requester f burst
    exact ⟨t, ht, ⟨hue, hburst, hothers⟩, hheld⟩

end Sys2Proof.Machine
end

section
/-! The channels of the transfer engine beside the elements that a descriptor moves (R319, R325, R331). -/

namespace Sys2Proof.Machine
set_option Elab.async false

-- The transfer engine's channels beside the elements that a descriptor moves (R319, R325, R331).

/-- The channels and their pulses stand. -/
structure TreSame (s t : State) : Prop where
  chans : t.tre.chans = s.tre.chans
  events : t.tre.events = s.tre.events
theorem TreSame.refl {s : State} : TreSame s s := ⟨rfl, rfl⟩
theorem TreSame.after {s t u : State} (h₂ : TreSame t u) (h₁ : TreSame s t) : TreSame s u := ⟨h₂.chans.trans h₁.chans, h₂.events.trans h₁.events⟩
theorem TreSame.of_only {m : Units} {s t : State} (h : Only m s t) (hm : m.tre = false := by rfl) : TreSame s t := ⟨congrArg (·.chans) (h.tre hm), congrArg (·.events) (h.tre hm)⟩
theorem TreSame.ite {s t u : State} {c : Prop} [Decidable c] (h₁ : TreSame s t) (h₂ : TreSame s u) : TreSame s (if c then t else u) := by
  split
  · exact h₁
  · exact h₂
theorem writeElem_tre (u : Nat) (b : Block) (s : State) : TreSame s (writeElem u b s) := by
  unfold writeElem
  split
  · exact .of_only (setFrame_only ..)
  · exact .of_only (writeSlot_only ..)
  · exact .of_only (putFlashBlock_only ..)
  · exact ⟨rfl, rfl⟩
  · exact .refl
theorem moveUnit_tre (n : Nat) (d : Descriptor) (s : State) : TreSame s (moveUnit n d s).2 := by
  unfold moveUnit
  extract_lets u
  split
  · split
    · exact .refl
    · exact writeElem_tre ..
  · split
    · exact .refl
    · split
      · exact .after (writeElem_tre ..) ⟨rfl, rfl⟩
      · exact writeElem_tre ..
  · split
    · exact .refl
    · split
      · exact .refl
      · exact writeElem_tre ..
  · exact writeElem_tre ..
  · exact .ite (writeElem_tre ..) .refl
theorem TreSame.sent {s t : State} (h : TreSame s t) (xs : List ((Nat × Nat) × Block × Word × Bool)) : TreSame s { t with tre := { t.tre with sent := xs } } := ⟨h.chans, h.events⟩
theorem sendSector_tre (n : Nat) (d : Descriptor) (s : State) : TreSame s (sendSector n d s) := by
  unfold sendSector
  split
  refine TreSame.sent ?_ _
  split
  · exact .refl
  · exact .of_only (putParityAt_only ..)
theorem moveElem_tre (n : Nat) (d : Descriptor) (s : State) : TreSame s (moveElem n d s).2 := by
  unfold moveElem
  extract_lets
  split
  · split
    · exact .refl
    · exact sendSector_tre ..
  split
  · split
    · exact .refl
    · exact .refl
  · have hmoved := moveUnit_tre n d s
    split
    · exact .refl
    next t ht =>
      rw [ht] at hmoved
      exact .ite (.after (.of_only (mirrorUnit_only ..)) hmoved) hmoved
/-- An element that a descriptor may not move is an entry out of range. -/
theorem moveElem_cause {n : Nat} {d : Descriptor} {s : State} {cause addr : Nat} (h : (moveElem n d s).1 = some (cause, addr)) : cause = 5 := by
  unfold moveElem at h
  extract_lets at h
  split at h
  · split at h
    · exact (Prod.mk.inj (Option.some.inj h)).1.symm
    · cases h
  split at h
  · split at h
    · exact (Prod.mk.inj (Option.some.inj h)).1.symm
    · cases h
  · split at h
    · exact (Prod.mk.inj (Option.some.inj h)).1.symm
    · cases h
theorem getTre_of_same {s t : State} (h : TreSame s t) (ch : Nat) : getTre t ch = getTre s ch := getTre_of_tre h.chans ch
/-- The elements of a descriptor are moved, or halt their channel. -/
inductive Moved (ch : Nat) (s : State) : Bool × State → Prop
  | all (t : State) : TreSame s t → Moved ch s (true, t)
  | halted (t : State) (cause elem : Nat) : cause ∈ [5, 9] → getTre t ch = haltedCh cause elem false (getTre s ch) → Moved ch s (false, t)
theorem moveElems_moved (ch : Nat) (d : Descriptor) (k n : Nat) (s : State) : Moved ch s (moveElems ch d k n s) := by
  induction k generalizing n s with
  | zero => exact .all s .refl
  | succ k ih =>
    unfold moveElems
    split
    next addr write _ =>
      refine .halted _ 9 n (by simp) ?_
      rw [getTre_haltChannelAs, getTre_modTre, getTre_of_only ch (noteRefused_only addr s)]
    · have hsame := moveElem_tre n d s
      have hcause := @moveElem_cause n d s
      split
      next cause addr t ht =>
        rw [ht] at hsame hcause
        have h5 := hcause rfl
        subst h5
        refine .halted _ 5 n (by simp) ?_
        rw [getTre_haltChannel, getTre_modTre, getTre_of_same hsame]
      next t ht =>
        rw [ht] at hsame
        rcases hrest : moveElems ch d k (n + 1) t with ⟨done, u⟩
        have hmoved := ih (n + 1) t
        rw [hrest] at hmoved
        cases hmoved with
        | all _ h => exact .all u (h.after hsame)
        | halted _ cause elem hc h => exact .halted u cause elem hc (by rw [h, getTre_of_same hsame])
/-- The channel once its first descriptor has left the ring (R322). -/
def droppedCh (c : TreCh) : TreCh :=
  { c with
    ring := if c.flushing then [] else c.ring.drop 1, running := false, elemIdx := 0,
    descIdx := (c.descIdx + if c.flushing then c.ring.length else 1) % 256,
    state := if c.pausing && !c.flushing then 2 else 0, pausing := false, flushing := false }
theorem getTre_dropDesc (ch : Nat) (s : State) : getTre (dropDesc ch s) ch = droppedCh (getTre s ch) := getTre_modTre ..
theorem pulseDone_chans (ch : Nat) (d : Descriptor) (s : State) : (pulseDone ch d s).tre.chans = s.tre.chans := by
  unfold pulseDone
  split <;> rfl
theorem finishDesc_tre (d : Descriptor) (s : State) : TreSame s (finishDesc d s) := by
  unfold finishDesc
  split
  · exact ⟨rfl, rfl⟩
  split
  · dsimp only
    split
    · exact .refl
    · exact ⟨rfl, rfl⟩
  · exact .refl
theorem dropDesc_events (ch : Nat) (s : State) : (dropDesc ch s).tre.events = s.tre.events := rfl
theorem pulseDone_events {ch : Nat} {d : Descriptor} {s : State} (h : d.event ≠ 0) :
    tabGet 0 (pulseDone ch d s).tre.events (64 + 3 * ch + d.event.toNat - 1) = tabGet 0 s.tre.events (64 + 3 * ch + d.event.toNat - 1) + 1 := by
  unfold pulseDone
  rw [if_neg h]
  exact tabMod_same 0 s.tre.events _ (· + 1)
/-- State after the boundary: idle, or paused where that was asked for. -/
def stateAfter (c : TreCh) : Nat := if c.pausing = true ∧ c.flushing = false then 2 else 0
theorem droppedCh_state (c : TreCh) : (droppedCh c).state = stateAfter c := by
  unfold droppedCh stateAfter
  cases c.pausing <;> cases c.flushing <;> rfl

end Sys2Proof.Machine
end

section
/-! A descriptor that starts, and one that is cancelled (R316, R320, R329). -/

namespace Sys2Proof.Machine
set_option Elab.async false

-- A descriptor that starts, and one that is cancelled (R316, R320, R329).

/-- What the start of a channel's first descriptor leaves (R316, R320). -/
def DescStarts (s : State) (ch : Nat) (d : Descriptor × Bool) (t : State) : Prop :=
  (hasOwner s ch = false → d.1.event = 0 → t = s) ∧
  (hasOwner s ch = true ∨ d.1.event ≠ 0 →
    (d.2 = true → (getTre t ch).ring = (if (getTre s ch).flushing then [] else (getTre s ch).ring.tail) ∧ (getTre t ch).running = false ∧ (getTre t ch).state = stateAfter (getTre s ch)) ∧
    (d.2 = false → ch ∈ s.diag.treHaltPending → (getTre t ch).state = 3 ∧ (getTre t ch).cause = 10 ∧ (getTre t ch).injected = true ∧ ch ∉ t.diag.treHaltPending) ∧
    (d.2 = false → ch ∉ s.diag.treHaltPending → ∀ cause, checkDesc s ch d.1 = some cause → (getTre t ch).state = 3 ∧ (getTre t ch).cause = cause ∧ (getTre t ch).injected = false ∧
      (getTre t ch).halts = satInc 6 (getTre s ch).halts ∧ (getTre t ch).ring = (getTre s ch).ring) ∧
    (d.2 = false → ch ∉ s.diag.treHaltPending → checkDesc s ch d.1 = none → (getTre t ch).state = 1 ∧ (getTre t ch).running = true ∧ (getTre t ch).elemIdx = 0 ∧
      (getTre t ch).ring = (getTre s ch).ring))
def startedCh (c : TreCh) : TreCh := { c with state := 1, running := true, elemIdx := 0, cut := false }
theorem startDesc_starts {ch : Nat} {d : Descriptor × Bool} {rest : List (Descriptor × Bool)} {s : State} (h : (getTre s ch).ring = d :: rest) : DescStarts s ch d (startDesc ch s) := by
  obtain ⟨d, gone⟩ := d
  have heq : startDesc ch s = if !hasOwner s ch && d.event = 0 then s
      else if gone then dropDesc ch (pulseDone ch d s)
      else if s.diag.treHaltPending.contains ch then haltChannel ch 10 0 0 true { s with diag := { s.diag with treHaltPending := s.diag.treHaltPending.filter (· ≠ ch) } }
      else match checkDesc s ch d with
        | some cause => haltChannel ch cause (descAddr s ch) 0 false s
        | none => if d.type = 5 then { modTre s ch startedCh with tre := { (modTre s ch startedCh).tre with tailrace := (modTre s ch startedCh).tre.tailrace ++ [(argArm d, d)] } } else modTre s ch startedCh := by
    unfold startDesc
    dsimp only
    rw [h]
    rfl
  rw [heq]
  refine ⟨fun howner hevent => ?_, fun hstart => ?_⟩
  · dsimp only at hevent
    rw [if_pos (by simp [howner, hevent])]
  have hgo : ¬(!hasOwner s ch && d.event = 0) = true := by
    rcases hstart with h | h
    · simp [h]
    · simpa using fun _ => h
  rw [if_neg hgo]
  refine ⟨fun hgone => ?_, fun hgone hpending => ?_, fun hgone hpending cause hcause => ?_, fun hgone hpending hcause => ?_⟩
  · rw [if_pos hgone, getTre_dropDesc, getTre_of_tre (pulseDone_chans ..)]
    refine ⟨?_, rfl, droppedCh_state _⟩
    unfold droppedCh
    rw [List.drop_one]
  all_goals
    dsimp only at hgone
    rw [if_neg (by rw [hgone]; nofun)]
  · rw [if_pos (List.contains_iff_mem.2 hpending), getTre_haltChannel, getTre_modTre, (haltChannel_only ..).diag rfl]
    exact ⟨rfl, rfl, rfl, by simp⟩
  all_goals rw [if_neg (fun h => hpending (List.contains_iff_mem.1 h))]
  · dsimp only at hcause
    rw [hcause]
    dsimp only
    rw [getTre_haltChannel, getTre_modTre]
    exact ⟨rfl, rfl, rfl, rfl, rfl⟩
  · dsimp only at hcause
    rw [hcause]
    have hsame (t : State) (xs : List (Nat × Descriptor)) : getTre (if d.type = 5 then { t with tre := { t.tre with tailrace := xs } } else t) ch = getTre t ch := by split <;> rfl
    dsimp only
    rw [hsame, getTre_modTre]
    exact ⟨rfl, rfl, rfl, rfl⟩

/-- A cancelled ring: every descriptor of the context but the running one is marked (R329). -/
def cancelledRing (mine : Descriptor → Bool) (running : Bool) (ring : List (Descriptor × Bool)) (k : Nat) : List (Descriptor × Bool) :=
  (ring.zipIdx k).map fun x => (x.1.1, x.1.2 || (mine x.1.1 && !(x.2 = 0 && running)))
theorem cancelledRing_descs (mine : Descriptor → Bool) (running : Bool) (ring : List (Descriptor × Bool)) (k : Nat) : (cancelledRing mine running ring k).map (·.1) = ring.map (·.1) := by
  unfold cancelledRing
  rw [List.map_map]
  induction ring generalizing k with
  | nil => rfl
  | cons x xs ih =>
    rw [List.zipIdx_cons, List.map_cons, ih]
    rfl
theorem cancelledRing_marked {mine : Descriptor → Bool} {running : Bool} {ring : List (Descriptor × Bool)} {k : Nat} (h : k ≠ 0 ∨ running = false) :
    ∀ x ∈ cancelledRing mine running ring k, mine x.1 = true → x.2 = true := by
  intro x hx hmine
  obtain ⟨⟨y, i⟩, hy, rfl⟩ := List.mem_map.1 hx
  have hi := List.le_snd_of_mem_zipIdx hy
  dsimp only at hmine hi ⊢
  rcases h with h | h
  · have : i ≠ 0 := by omega
    simp [hmine, this]
  · simp [hmine, h]
theorem cancelledRing_cons (mine : Descriptor → Bool) (running : Bool) (x : Descriptor × Bool) (xs : List (Descriptor × Bool)) :
    cancelledRing mine running (x :: xs) 0 = (x.1, x.2 || (mine x.1 && !running)) :: cancelledRing mine running xs 1 := by
  unfold cancelledRing
  rw [List.zipIdx_cons, List.map_cons]
  simp
def cancelledCh (mine : Descriptor → Bool) (c : TreCh) : TreCh := { c with ring := cancelledRing mine c.running c.ring 0 }
/-- What the cancel of a running descriptor leaves (R329). -/
structure CancelEnds (mine : Descriptor → Bool) (c : TreCh) (rest : List (Descriptor × Bool)) (c' : TreCh) : Prop where
  descs : c'.ring.map (·.1) = if c.flushing then [] else rest.map (·.1)
  state : c'.state = stateAfter c
  running : c'.running = false
  marked : ∀ x ∈ c'.ring, mine x.1 = true → x.2 = true
/-- A channel that differs from `c` in what a halt and the marks of its ring change. -/
theorem droppedCh_cancels {mine : Descriptor → Bool} {c c₁ : TreCh} {x : Descriptor × Bool} {rest : List (Descriptor × Bool)} (hring : c.ring = x :: rest) (hring₁ : c₁.ring = (cancelledCh mine c).ring)
    (hflush : c₁.flushing = c.flushing) (hpause : c₁.pausing = c.pausing) : CancelEnds mine c rest (droppedCh c₁) := by
  have htail : (droppedCh c₁).ring = if c.flushing then [] else cancelledRing mine c.running rest 1 := by
    unfold droppedCh
    dsimp only
    rw [hflush, hring₁]
    unfold cancelledCh
    rw [hring, cancelledRing_cons]
    rfl
  refine ⟨?_, ?_, rfl, fun y hy => ?_⟩
  · rw [htail]
    split
    · rfl
    · exact cancelledRing_descs ..
  · rw [droppedCh_state]
    unfold stateAfter
    rw [hflush, hpause]
  · rw [htail] at hy
    split at hy
    · cases hy
    · exact cancelledRing_marked (.inl Nat.one_ne_zero) y hy
theorem cancelCtx_eq (ch : Nat) (ctx : BitVec 14) (sourcePresent : Bool) (s : State) {d : Descriptor} {gone : Bool} {rest : List (Descriptor × Bool)} (h : (getTre s ch).ring = (d, gone) :: rest) :
    cancelCtx ch ctx sourcePresent s =
      (let mine (d : Descriptor) : Bool := d.ctxV && d.ctx = ctx
      let c := getTre s ch
      let u := modTre s ch (cancelledCh mine)
      if !(mine d && c.running) then u
      else if c.state = 3 then dropDesc ch u
      else if c.state = 1 then
        match moveElems ch d (min (dCount d - c.elemIdx) (if sourcePresent then (if dCount d - c.elemIdx = 0 then 0 else (freeVal u).toNat % (dCount d - c.elemIdx)) + 1 else
          if dCount d - c.elemIdx = 0 then 0 else (freeVal u).toNat % (dCount d - c.elemIdx))) c.elemIdx (nextFree u) with
        | (false, t) => dropDesc ch t
        | (true, t) => dropDesc ch (pulseDone ch d (endPass d t))
      else u) := by
  unfold cancelCtx
  dsimp only
  rw [h]
  rfl
/-- A cancel of a descriptor that runs ends it (R329). -/
theorem cancelCtx_running {ch : Nat} {ctx : BitVec 14} {sourcePresent : Bool} {s : State} {d : Descriptor} {gone : Bool} {rest : List (Descriptor × Bool)} (h : (getTre s ch).ring = (d, gone) :: rest)
    (hmine : (d.ctxV && d.ctx = ctx) = true) (hruns : (getTre s ch).running = true) (hstate : (getTre s ch).state = 1 ∨ (getTre s ch).state = 3) :
    CancelEnds (fun d => d.ctxV && d.ctx = ctx) (getTre s ch) rest (getTre (cancelCtx ch ctx sourcePresent s) ch) := by
  rw [cancelCtx_eq ch ctx sourcePresent s h]
  dsimp only
  rw [if_neg (by rw [hmine, hruns]; nofun)]
  have hu : getTre (modTre s ch (cancelledCh fun d => d.ctxV && d.ctx = ctx)) ch = cancelledCh (fun d => d.ctxV && d.ctx = ctx) (getTre s ch) := getTre_modTre ..
  generalize modTre s ch (cancelledCh fun d => d.ctxV && d.ctx = ctx) = u at hu ⊢
  rcases hstate with hstate | hstate
  · rw [if_neg (by omega), if_pos hstate]
    generalize min (dCount d - (getTre s ch).elemIdx) _ = k
    have hnext : getTre (nextFree u) ch = getTre u ch := getTre_of_only ch (nextFree_only u)
    rcases hm : moveElems ch d k (getTre s ch).elemIdx (nextFree u) with ⟨done, t⟩
    have hmoved := moveElems_moved ch d k (getTre s ch).elemIdx (nextFree u)
    rw [hm] at hmoved
    cases hmoved with
    | all _ hsame =>
      have ht : getTre t ch = cancelledCh (fun d => d.ctxV && d.ctx = ctx) (getTre s ch) := by rw [getTre_of_same hsame, hnext, hu]
      dsimp only
      rw [getTre_dropDesc, getTre_of_tre (pulseDone_chans ..), show getTre (endPass d t) ch = getTre t ch from rfl, ht]
      exact droppedCh_cancels h rfl rfl rfl
    | halted _ cause elem _ hhalt =>
      dsimp only
      rw [getTre_dropDesc, hhalt, hnext, hu]
      exact droppedCh_cancels h rfl rfl rfl
  · rw [if_pos hstate, getTre_dropDesc, hu]
    exact droppedCh_cancels h rfl rfl rfl
/-- A cancel where no descriptor of the context runs only marks (R329). -/
theorem cancelCtx_waiting {ch : Nat} {ctx : BitVec 14} {sourcePresent : Bool} {s : State} {d : Descriptor} {gone : Bool} {rest : List (Descriptor × Bool)} (h : (getTre s ch).ring = (d, gone) :: rest)
    (hnot : ¬((d.ctxV && d.ctx = ctx) = true ∧ (getTre s ch).running = true ∧ ((getTre s ch).state = 1 ∨ (getTre s ch).state = 3))) :
    getTre (cancelCtx ch ctx sourcePresent s) ch = cancelledCh (fun d => d.ctxV && d.ctx = ctx) (getTre s ch) := by
  rw [cancelCtx_eq ch ctx sourcePresent s h]
  dsimp only
  by_cases hruns : ((d.ctxV && d.ctx = ctx) && (getTre s ch).running) = true
  · have hboth : (d.ctxV && d.ctx = ctx) = true ∧ (getTre s ch).running = true := (Bool.and_eq_true_iff).1 hruns
    have hstate : ¬((getTre s ch).state = 1 ∨ (getTre s ch).state = 3) := fun hs => hnot ⟨hboth.1, hboth.2, hs⟩
    rw [if_neg (by rw [hruns]; nofun), if_neg (fun h => hstate (.inr h)), if_neg (fun h => hstate (.inl h)), getTre_modTre]
  · rw [if_pos (by rw [Bool.eq_false_iff.2 hruns]; rfl), getTre_modTre]

end Sys2Proof.Machine
end

section
/-! A COPY and a FILL within the block frames (R319). -/

namespace Sys2Proof.Machine
set_option Elab.async false

-- A COPY and a FILL within the block frames (R319).

theorem getFrame_setFrame_other (s : State) {f k : Nat} (b : Block) (h : k ≠ f) : getFrame (setFrame s f b) k = getFrame s k := tabGet_tabSet_other (0 : Block) 0 b s.mpd.frames h
theorem fabricOf_frame {u : Nat} (h : u < 2 ^ 20) : fabricOf u = .millpond u := if_pos h
theorem getFrame_of_only {m : Units} {s t : State} (f : Nat) (h : Only m s t) (hm : m.mpd = false := by rfl) : getFrame t f = getFrame s f := by
  unfold getFrame
  rw [h.mpd hm]
/-- The value of an element that is filled (R319). -/
def fillBlock (arg : BitVec 32) : Block := (List.range 1024).foldl (fun b i => b ||| (arg.setWidth 32768 <<< (32 * i))) 0
theorem fill_bit (arg : BitVec 32) (is : List Nat) (b : Block) (j : Nat) (hj : j < 32768) :
    (is.foldl (fun b i => b ||| (arg.setWidth 32768 <<< (32 * i))) b).getLsbD j = (b.getLsbD j || is.any fun i => decide (32 * i ≤ j) && arg.getLsbD (j - 32 * i)) := by
  induction is generalizing b with
  | nil => simp
  | cons i is ih =>
    rw [List.foldl_cons, ih, BitVec.getLsbD_or, BitVec.getLsbD_shiftLeft, BitVec.getLsbD_setWidth, List.any_cons]
    by_cases h : 32 * i ≤ j
    · have hlt : j - 32 * i < 32768 := by omega
      simp [hj, h, hlt, Nat.not_lt.2 h, Bool.or_assoc]
    · simp [h, Nat.lt_of_not_le h]
theorem fillBlock_word (arg : BitVec 32) {w : Nat} (hw : w < 1024) : (fillBlock arg >>> (32 * w)).setWidth 32 = arg := by
  refine BitVec.eq_of_getLsbD_eq fun j hj => ?_
  rw [BitVec.getLsbD_setWidth, BitVec.getLsbD_ushiftRight]
  unfold fillBlock
  rw [fill_bit _ _ _ _ (by omega)]
  have hzero : (0 : Block).getLsbD (32 * w + j) = false := BitVec.getLsbD_zero
  rw [hzero, Bool.false_or, decide_eq_true hj, Bool.true_and, Bool.eq_iff_iff, List.any_eq_true]
  refine ⟨fun ⟨i, _, hi⟩ => ?_, fun hbit => ⟨w, List.mem_range.2 hw, ?_⟩⟩
  · obtain ⟨hle, hbit⟩ := Bool.and_eq_true_iff.1 hi
    have hle : 32 * i ≤ 32 * w + j := by simpa using hle
    have hlt : 32 * w + j - 32 * i < 32 := by
      by_contra hge
      rw [BitVec.getLsbD_of_ge _ _ (by omega)] at hbit
      cases hbit
    have heq : i = w := by omega
    subst heq
    rwa [Nat.add_sub_cancel_left] at hbit
  · simp [hbit]
/-- The elements from `n` on are written into the frames from `dst`, each with `v`, and no other frame is. -/
structure Written (dst n k : Nat) (v : Nat → Block) (s t : State) : Prop where
  written : ∀ j, n ≤ j → j < n + k → getFrame t (dst + j) = v j
  others : ∀ f, (∀ j, n ≤ j → j < n + k → f ≠ dst + j) → getFrame t f = getFrame s f
theorem moveElem_frame {d : Descriptor} {n : Nat} {v : Block} {s : State} (hdst : d.dstBase.toNat + n < 2 ^ 20)
    (hunit : moveUnit n d s = (none, writeElem (d.dstBase.toNat + n) v s)) (h5 : d.type ≠ 5) (h6 : d.type ≠ 6) :
    ∃ t, moveElem n d s = (none, t) ∧ getFrame t (d.dstBase.toNat + n) = v ∧ ∀ f, f ≠ d.dstBase.toNat + n → getFrame t f = getFrame s f := by
  have heq : moveElem n d s = (none, if d.mirror then mirrorUnit mirror (elemUnits s d n).2 (writeElem (d.dstBase.toNat + n) v s) else writeElem (d.dstBase.toNat + n) v s) := by
    unfold moveElem
    extract_lets
    rw [if_neg h5, if_neg h6, hunit]
  have hwrite : writeElem (d.dstBase.toNat + n) v s = setFrame s (d.dstBase.toNat + n) v := by
    unfold writeElem
    rw [fabricOf_frame hdst]
  have hsame (f : Nat) : getFrame (if d.mirror then mirrorUnit mirror (elemUnits s d n).2 (setFrame s (d.dstBase.toNat + n) v) else setFrame s (d.dstBase.toNat + n) v) f = getFrame (setFrame s (d.dstBase.toNat + n) v) f := by
    split
    · exact getFrame_of_only f (mirrorUnit_only ..)
    · rfl
  refine ⟨_, heq, ?_, fun f hf => ?_⟩
  · rw [hwrite, hsame, getFrame_setFrame]
  · rw [hwrite, hsame, getFrame_setFrame_other _ _ hf]
theorem flashRefuses_frames {d : Descriptor} {n : Nat} {s : State} (hsrc : d.type = 7 ∨ d.srcBase.toNat + n < 2 ^ 20) (hdst : d.dstBase.toNat + n < 2 ^ 20) (htype : d.type = 1 ∨ d.type = 7) :
    flashRefuses s d n = none := by
  have hunits : elemUnits s d n = (d.srcBase.toNat + n, d.dstBase.toNat + n) := by
    unfold elemUnits
    rcases htype with h | h <;> rw [h] <;> rfl
  unfold flashRefuses
  rw [hunits]
  dsimp only
  rw [fabricOf_frame hdst]
  rcases htype with h | h
  · rw [fabricOf_frame (hsrc.resolve_left (by rw [h]; decide))]
    simp
  · simp [h]
theorem moveElems_succ {ch n k : Nat} {d : Descriptor} {s t : State} (hflash : flashRefuses s d n = none) (h : moveElem n d s = (none, t)) : moveElems ch d (k + 1) n s = moveElems ch d k (n + 1) t := by
  rw [moveElems, hflash, ite_self, h]
/-- A FILL within the block frames (R319). -/
theorem moveElems_fills (ch : Nat) {d : Descriptor} (htype : d.type = 7) (k n : Nat) (s : State) (hdst : d.dstBase.toNat + (n + k) ≤ 2 ^ 20) :
    ∃ t, moveElems ch d k n s = (true, t) ∧ Written d.dstBase.toNat n k (fun _ => fillBlock d.arg) s t := by
  induction k generalizing n s with
  | zero => exact ⟨s, rfl, fun j _ _ => by omega, fun _ _ => rfl⟩
  | succ k ih =>
    have hn : d.dstBase.toNat + n < 2 ^ 20 := by omega
    have hunit : moveUnit n d s = (none, writeElem (d.dstBase.toNat + n) (fillBlock d.arg) s) := by
      unfold moveUnit elemUnits
      rw [htype]
      rfl
    obtain ⟨t, ht, hv, hothers⟩ := moveElem_frame hn hunit (by rw [htype]; decide) (by rw [htype]; decide)
    obtain ⟨u, hu, hwritten, hrest⟩ := ih (n + 1) t (by omega)
    refine ⟨u, (moveElems_succ (flashRefuses_frames (.inl htype) hn (.inr htype)) ht).trans hu, fun j hj hlt => ?_, fun f hf => ?_⟩
    · by_cases hjn : j = n
      · subst hjn
        rw [hrest _ fun i hi _ => by omega]
        exact hv
      · exact hwritten j (by omega) (by omega)
    · rw [hrest f fun i hi hlt => hf i (by omega) (by omega)]
      exact hothers f (hf n (by omega) (by omega))
/-- A COPY within the block frames, between frames apart (R319). -/
theorem moveElems_copies (ch : Nat) {d : Descriptor} (htype : d.type = 1) (k n : Nat) (s : State) (hlow : 118784 ≤ d.srcBase.toNat) (hsrc : d.srcBase.toNat + (n + k) ≤ 2 ^ 20) (hdst : d.dstBase.toNat + (n + k) ≤ 2 ^ 20)
    (hapart : d.srcBase.toNat + (n + k) ≤ d.dstBase.toNat ∨ d.dstBase.toNat + (n + k) ≤ d.srcBase.toNat) :
    ∃ t, moveElems ch d k n s = (true, t) ∧ Written d.dstBase.toNat n k (fun j => getFrame s (d.srcBase.toNat + j)) s t := by
  induction k generalizing n s with
  | zero => exact ⟨s, rfl, fun j _ _ => by omega, fun _ _ => rfl⟩
  | succ k ih =>
    have hn : d.dstBase.toNat + n < 2 ^ 20 := by omega
    have hn' : d.srcBase.toNat + n < 2 ^ 20 := by omega
    have hread : readElem s (d.srcBase.toNat + n) = getFrame s (d.srcBase.toNat + n) := by
      unfold readElem
      rw [fabricOf_frame hn']
      dsimp only
      unfold frameView
      rw [if_neg (by omega), if_neg (by omega)]
    have hunit : moveUnit n d s = (none, writeElem (d.dstBase.toNat + n) (getFrame s (d.srcBase.toNat + n)) s) := by
      rw [← hread]
      have hmoves : moves d = true := by simp [moves, htype]
      unfold moveUnit elemUnits
      rw [htype, hmoves]
      rfl
    obtain ⟨t, ht, hv, hothers⟩ := moveElem_frame hn hunit (by rw [htype]; decide) (by rw [htype]; decide)
    obtain ⟨u, hu, hwritten, hrest⟩ := ih (n + 1) t (by omega) (by omega) (by omega)
    refine ⟨u, (moveElems_succ (flashRefuses_frames (.inr hn') hn (.inl htype)) ht).trans hu, fun j hj hlt => ?_, fun f hf => ?_⟩
    · by_cases hjn : j = n
      · subst hjn
        rw [hrest _ fun i hi _ => by omega]
        exact hv
      · rw [hwritten j (by omega) (by omega)]
        exact hothers _ (by omega)
    · rw [hrest f fun i hi hlt => hf i (by omega) (by omega)]
      exact hothers f (hf n (by omega) (by omega))

end Sys2Proof.Machine
end

section
/-! The descriptors of the transfer engine (O26). -/

namespace Sys2Proof.Machine
set_option Elab.async false

-- The transfer engine's descriptors (O26).

/-- What the end of a descriptor leaves (R322, R327). -/
structure DescEnds (s : State) (ch : Nat) (d : Descriptor) (rest : List (Descriptor × Bool)) (t : State) : Prop where
  ring : (getTre t ch).ring = if (getTre s ch).flushing then [] else rest
  running : (getTre t ch).running = false
  state : (getTre t ch).state = stateAfter (getTre s ch)
  descIdx : (getTre t ch).descIdx = ((getTre s ch).descIdx + if (getTre s ch).flushing then (getTre s ch).ring.length else 1) % 256
  pulsed : d.event ≠ 0 → tabGet 0 t.tre.events (64 + 3 * ch + d.event.toNat - 1) = tabGet 0 s.tre.events (64 + 3 * ch + d.event.toNat - 1) + 1
theorem dropped_ends {ch : Nat} {d : Descriptor} {gone : Bool} {rest : List (Descriptor × Bool)} {s u : State} (hring : (getTre s ch).ring = (d, gone) :: rest) (hsame : TreSame s u) :
    DescEnds s ch d rest (dropDesc ch (pulseDone ch d (finishDesc d u))) := by
  have hfinish := (finishDesc_tre d u).after hsame
  have hch : getTre (dropDesc ch (pulseDone ch d (finishDesc d u))) ch = droppedCh (getTre s ch) := by
    rw [getTre_dropDesc, getTre_of_tre (pulseDone_chans ..), getTre_of_same hfinish]
  refine ⟨?_, ?_, ?_, ?_, fun h => ?_⟩
  · rw [hch]
    unfold droppedCh
    rw [hring]
    rfl
  · rw [hch]
    rfl
  · rw [hch]
    exact droppedCh_state _
  · rw [hch]
    rfl
  · rw [dropDesc_events, pulseDone_events h, hfinish.events]
theorem getFrame_dropped (ch : Nat) (d : Descriptor) (u : State) (f : Nat) : getFrame (dropDesc ch (pulseDone ch d (finishDesc d u))) f = getFrame u f := by
  rw [getFrame_of_only f (dropDesc_only ..), getFrame_of_only f (pulseDone_only ..), getFrame_of_only f (finishDesc_only ..)]
/-- A PAD moves nothing (R319). -/
theorem moveElem_pad {d : Descriptor} (htype : d.type = 8) (n : Nat) (s : State) : ∃ t, moveElem n d s = (none, t) := by
  have hmoves : moves d = false := by simp [moves, htype]
  have hunit : moveUnit n d s = (none, s) := by
    unfold moveUnit
    rw [htype, hmoves]
    rfl
  unfold moveElem
  extract_lets
  rw [if_neg (by rw [htype]; decide), if_neg (by rw [htype]; decide), hunit]
  exact ⟨_, rfl⟩
theorem moveElems_pad (ch : Nat) {d : Descriptor} (htype : d.type = 8) (k n : Nat) (s : State) : ∃ t, moveElems ch d k n s = (true, t) := by
  have hmoves : moves d = false := by simp [moves, htype]
  induction k generalizing n s with
  | zero => exact ⟨s, rfl⟩
  | succ k ih =>
    obtain ⟨t, ht⟩ := moveElem_pad htype n s
    obtain ⟨u, hu⟩ := ih (n + 1) t
    refine ⟨u, ?_⟩
    rw [moveElems, hmoves, if_neg nofun, ht]
    exact hu
/-- O26's third part, a descriptor that is done (R319 to R327). -/
theorem descriptorDone_ends {s : State} (hawake : awake s = true) (ch : Fin 64) : Completes (.descriptorDone ch) s fun t =>
    let c := getTre s ch
    let runs : Prop := c.state = 1 ∧ c.running = true ∧ c.ring ≠ [] ∧ treRuns s ch = true
    (¬ runs → t = s) ∧
    ∀ d rest, c.ring = d :: rest → runs →
      let n := dCount d.1
      let src := d.1.srcBase.toNat
      let dst := d.1.dstBase.toNat
      let waits : Prop := streamShort s d.1 c.elemIdx = true ∨ (d.1.type = 6 ∧ 128 ≤ s.tre.placements.length) ∨
        ∃ k ∈ List.range n, c.elemIdx ≤ k ∧ flashBusy s d.1 k = true
      let frames (x : Nat) : Prop := 118784 ≤ x ∧ x + n ≤ 2 ^ 20
      (waits → t = s) ∧
      (¬ waits → DescEnds s ch d.1 rest t ∨ ((getTre t ch).state = 3 ∧ (getTre t ch).cause ∈ [5, 9] ∧ (getTre t ch).ring = c.ring ∧ (getTre t ch).halts = satInc 6 c.halts)) ∧
      (¬ waits → d.1.type = 8 → DescEnds s ch d.1 rest t) ∧
      (¬ waits → d.1.type = 1 → frames src → frames dst → src + n ≤ dst ∨ dst + n ≤ src →
        DescEnds s ch d.1 rest t ∧ ∀ k < n, getFrame t (dst + k) = getFrame (if c.elemIdx ≤ k then s else t) (if c.elemIdx ≤ k then src + k else dst + k)) ∧
      (¬ waits → d.1.type = 7 → frames dst → DescEnds s ch d.1 rest t ∧ ∀ k < n, c.elemIdx ≤ k → ∀ w < 1024,
        (getFrame t (dst + k) >>> (32 * w)).setWidth 32 = d.1.arg.setWidth 32) := by
  refine Completes.live (if_pos hawake) fun t ht => ?_
  dsimp only at ht ⊢
  cases hring : (getTre s ch).ring with
  | nil =>
    rw [hring] at ht
    exact ⟨fun _ => ht, nofun⟩
  | cons x rest =>
    obtain ⟨d, gone⟩ := x
    rw [hring] at ht
    dsimp only at ht
    refine ⟨fun hnot => ?_, fun d' rest' hcons hruns => ?_⟩
    · rw [ht, if_pos]
      by_contra h
      exact hnot (by simp_all)
    · cases hcons
      obtain ⟨hstate, hrunning, -, htre⟩ := hruns
      have hwaits : ((getTre s ch).state ≠ 1 || !(getTre s ch).running || !treRuns s ch || streamShort s d (getTre s ch).elemIdx || (d.type = 6 && decide (128 ≤ s.tre.placements.length)) ||
          ((List.range (dCount d)).any fun n => decide ((getTre s ch).elemIdx ≤ n) && flashBusy s d n)) = true ↔
          streamShort s d (getTre s ch).elemIdx = true ∨ (d.type = 6 ∧ 128 ≤ s.tre.placements.length) ∨ ∃ k ∈ List.range (dCount d), (getTre s ch).elemIdx ≤ k ∧ flashBusy s d k = true := by
        simp [hstate, hrunning, htre, or_assoc]
      refine ⟨fun h => by rw [ht, if_pos (hwaits.2 h)], ?_⟩
      have hgo (h : ¬(streamShort s d (getTre s ch).elemIdx = true ∨ (d.type = 6 ∧ 128 ≤ s.tre.placements.length) ∨ ∃ k ∈ List.range (dCount d), (getTre s ch).elemIdx ≤ k ∧ flashBusy s d k = true)) :
          t = match moveElems ch d (dCount d - (getTre s ch).elemIdx) (getTre s ch).elemIdx s with
            | (false, s) => s
            | (true, s) => dropDesc ch (pulseDone ch d (finishDesc d s)) := ht.trans (if_neg fun h' => h (hwaits.1 h'))
      clear ht
      have hmoved := moveElems_moved ch d (dCount d - (getTre s ch).elemIdx) (getTre s ch).elemIdx s
      have hdone {u : State} (hu : moveElems ch d (dCount d - (getTre s ch).elemIdx) (getTre s ch).elemIdx s = (true, u)) :
          DescEnds s ch d rest (dropDesc ch (pulseDone ch d (finishDesc d u))) := by
        rw [hu] at hmoved
        cases hmoved with
        | all _ hsame => exact dropped_ends hring hsame
      refine ⟨fun h => ?_, fun h htype => ?_, fun h htype hsrc hdst hapart => ?_, fun h htype hdst => ?_⟩
      all_goals replace hgo := hgo h
      · rcases hm : moveElems ch d (dCount d - (getTre s ch).elemIdx) (getTre s ch).elemIdx s with ⟨done, u⟩
        rw [hm] at hgo hmoved
        cases hmoved with
        | all _ hsame =>
          rw [hgo]
          exact .inl (dropped_ends hring hsame)
        | halted _ cause elem hcause hhalt =>
          dsimp only at hgo
          rw [hgo, hhalt]
          exact .inr ⟨rfl, hcause, hring, rfl⟩
      · obtain ⟨u, hu⟩ := moveElems_pad ch htype (dCount d - (getTre s ch).elemIdx) (getTre s ch).elemIdx s
        rw [hu] at hgo
        rw [hgo]
        exact hdone hu
      · by_cases hpast : dCount d ≤ (getTre s ch).elemIdx
        · have hnone : dCount d - (getTre s ch).elemIdx = 0 := by omega
          have hu : moveElems ch d (dCount d - (getTre s ch).elemIdx) (getTre s ch).elemIdx s = (true, s) := by rw [hnone]; rfl
          rw [hu] at hgo
          rw [hgo]
          refine ⟨hdone hu, fun k hk => ?_⟩
          have hk : k < dCount d := hk
          rw [if_neg (by omega), if_neg (by omega)]
        · have hspan : (getTre s ch).elemIdx + (dCount d - (getTre s ch).elemIdx) = dCount d := by omega
          obtain ⟨u, hu, hwritten⟩ := moveElems_copies ch htype (dCount d - (getTre s ch).elemIdx) (getTre s ch).elemIdx s hsrc.1 (by rw [hspan]; exact hsrc.2) (by rw [hspan]; exact hdst.2) (by rw [hspan]; exact hapart)
          rw [hu] at hgo
          rw [hgo]
          refine ⟨hdone hu, fun k hk => ?_⟩
          have hk : k < dCount d := hk
          by_cases hle : (getTre s ch).elemIdx ≤ k
          · rw [if_pos hle, if_pos hle, getFrame_dropped]
            exact hwritten.written k hle (by omega)
          · rw [if_neg hle, if_neg hle]
      · by_cases hpast : dCount d ≤ (getTre s ch).elemIdx
        · have hnone : dCount d - (getTre s ch).elemIdx = 0 := by omega
          have hu : moveElems ch d (dCount d - (getTre s ch).elemIdx) (getTre s ch).elemIdx s = (true, s) := by rw [hnone]; rfl
          rw [hu] at hgo
          rw [hgo]
          exact ⟨hdone hu, fun k hk hle => absurd (show k < dCount d from hk) (by omega)⟩
        · have hspan : (getTre s ch).elemIdx + (dCount d - (getTre s ch).elemIdx) = dCount d := by omega
          obtain ⟨u, hu, hwritten⟩ := moveElems_fills ch htype (dCount d - (getTre s ch).elemIdx) (getTre s ch).elemIdx s (by rw [hspan]; exact hdst.2)
          rw [hu] at hgo
          rw [hgo]
          refine ⟨hdone hu, fun k hk hle w hw => ?_⟩
          have hk : k < dCount d := hk
          rw [getFrame_dropped, hwritten.written k hle (by omega), BitVec.setWidth_eq]
          exact fillBlock_word _ hw

/-- O26's fourth part, a channel that halts (R331). -/
theorem channelHalt_halts {s : State} (hawake : awake s = true) (ch : Fin 64) (cause : HaltCause) (address : BitVec 48) (element : Nat) : Completes (.channelHalt ch cause address element) s fun t =>
    let c := getTre s ch
    let runs : Prop := c.state = 1 ∧ c.running = true ∧ c.ring ≠ []
    let fetch : Prop := (c.state = 0 ∧ treRuns s ch = true) ∧ cause = .fetchUe ∧ c.ring ≠ []
    (¬ runs → ¬ fetch → t = s) ∧
    (fetch → (getTre t ch).state = 3 ∧ (getTre t ch).cause = 6 ∧ (getTre t ch).halts = satInc 6 c.halts ∧ (getTre t ch).elemIdx = 0) ∧
    (runs → (getTre t ch).state = 3 ∧ (getTre t ch).halts = satInc 6 c.halts ∧ ((getTre t ch).cause = haltCode cause ∨ (getTre t ch).cause ∈ [5, 9]) ∧ (getTre t ch).ring = c.ring) := by
  refine Completes.live (if_pos hawake) fun t ht => ?_
  dsimp only at ht ⊢
  cases hring : (getTre s ch).ring with
  | nil =>
    rw [hring] at ht
    exact ⟨fun _ _ => ht, fun h => absurd rfl h.2.2, fun h => absurd rfl h.2.2⟩
  | cons x rest =>
    obtain ⟨d, gone⟩ := x
    rw [hring] at ht
    dsimp only at ht
    refine ⟨fun hruns hfetch => ?_, fun hfetch => ?_, fun hruns => ?_⟩
    · rw [if_neg (by
          intro h
          obtain ⟨hstate, hrunning⟩ := Bool.and_eq_true_iff.1 h
          exact hruns ⟨by simpa using hstate, hrunning, nofun⟩), if_neg (by
          intro h
          simp only [Bool.and_eq_true, decide_eq_true_eq] at h
          exact hfetch ⟨h.1, h.2, nofun⟩)] at ht
      exact ht
    · obtain ⟨⟨hstate, htre⟩, hcause, -⟩ := hfetch
      rw [if_neg (by simp [hstate]), if_pos (by simp [hstate, htre, hcause])] at ht
      rw [ht, getTre_haltChannel, getTre_modTre]
      exact ⟨rfl, rfl, rfl, rfl⟩
    · obtain ⟨hstate, hrunning, -⟩ := hruns
      rw [if_pos (by simp [hstate, hrunning])] at ht
      have hmoved := moveElems_moved ch d (min element (dCount d - 1) - (getTre s ch).elemIdx) (getTre s ch).elemIdx s
      rcases hm : moveElems ch d (min element (dCount d - 1) - (getTre s ch).elemIdx) (getTre s ch).elemIdx s with ⟨done, u⟩
      rw [hm] at ht hmoved
      cases hmoved with
      | all _ hsame =>
        dsimp only at ht
        rw [ht, getTre_haltChannel, getTre_modTre, getTre_of_same hsame]
        exact ⟨rfl, rfl, .inl rfl, hring⟩
      | halted _ code elem hcode hhalt =>
        dsimp only at ht
        rw [ht, hhalt]
        exact ⟨rfl, rfl, .inr hcode, hring⟩
theorem cancelledCh_ring (mine : Descriptor → Bool) (c : TreCh) : (cancelledCh mine c).ring = cancelledRing mine c.running c.ring 0 := rfl
/-- O26's eighth part, a context that is cancelled (R329). -/
theorem treCancel_cancels {s : State} (hawake : awake s = true) (ch : Fin 64) (ctx : BitVec 14) (sourcePresent : Bool) : Completes (.treCancel ch ctx sourcePresent) s fun t =>
    let c := getTre s ch
    let mine (d : Descriptor) : Prop := d.ctxV = true ∧ d.ctx = ctx
    (c.ring = [] → (getTre t ch).ring = []) ∧
    ∀ d rest, c.ring = d :: rest →
      let runs : Prop := mine d.1 ∧ c.running = true ∧ (c.state = 1 ∨ c.state = 3)
      (¬ runs → (getTre t ch).ring.map (·.1) = c.ring.map (·.1) ∧ (getTre t ch).state = c.state ∧ (∀ x ∈ (getTre t ch).ring.tail, mine x.1 → x.2 = true) ∧
        (c.running = false → ∀ x ∈ (getTre t ch).ring, mine x.1 → x.2 = true)) ∧
      (runs → (getTre t ch).ring.map (·.1) = (if c.flushing then [] else rest.map (·.1)) ∧ (getTre t ch).state = stateAfter c ∧ (getTre t ch).running = false ∧
        (∀ x ∈ (getTre t ch).ring, mine x.1 → x.2 = true)) := by
  have hmine (d : Descriptor) : (d.ctxV && d.ctx = ctx) = true ↔ d.ctxV = true ∧ d.ctx = ctx := by simp
  refine ⟨_, if_pos hawake, fun hring => ?_, fun d rest hring => ⟨fun hnot => ?_, fun hruns => ?_⟩⟩
  · unfold cancelCtx
    dsimp only
    rw [hring]
    dsimp only
    rw [getTre_modTre]
    dsimp only
    rw [hring]
    rfl
  · obtain ⟨d, gone⟩ := d
    rw [cancelCtx_waiting hring (fun h => hnot ⟨(hmine d).1 h.1, h.2⟩)]
    rw [cancelledCh_ring]
    refine ⟨cancelledRing_descs .., rfl, ?_, fun hstill x hx hx' => cancelledRing_marked (.inr hstill) x hx ((hmine _).2 hx')⟩
    rw [hring, cancelledRing_cons]
    exact fun x hx hx' => cancelledRing_marked (mine := fun d => d.ctxV && d.ctx = ctx) (.inl Nat.one_ne_zero) x hx ((hmine _).2 hx')
  · obtain ⟨d, gone⟩ := d
    obtain ⟨hd, hrunning, hstate⟩ := hruns
    have hends := cancelCtx_running (sourcePresent := sourcePresent) hring ((hmine d).2 hd) hrunning hstate
    exact ⟨hends.descs, hends.state, hends.running, fun x hx hx' => hends.marked x hx ((hmine _).2 hx')⟩
theorem haltedDesc_of_halted {s : State} {ch : Nat} {d : Descriptor × Bool} {rest : List (Descriptor × Bool)} (hring : (getTre s ch).ring = d :: rest) (hstate : (getTre s ch).state = 3) : haltedDesc s ch = some d.1 := by
  unfold haltedDesc
  rw [if_pos hstate, hring]
  rfl
theorem haltedDesc_none {s : State} {ch : Nat} (h : ¬((getTre s ch).state = 3 ∧ (getTre s ch).ring ≠ [])) : haltedDesc s ch = none := by
  unfold haltedDesc
  split
  next hstate =>
    have hring : (getTre s ch).ring = [] := by_contra fun hne => h ⟨hstate, hne⟩
    rw [hring]
    rfl
  next => rfl
/-- O26's parts for a halted channel (R332). -/
theorem treRetry_retries {s : State} (hawake : awake s = true) (ch : Fin 64) : Completes (.treRetry ch) s fun t =>
    let c := getTre s ch
    let halted : Prop := c.state = 3 ∧ c.ring ≠ []
    (¬ halted ∨ treRuns s ch = false → t = s) ∧ ∀ d rest, c.ring = d :: rest → halted → treRuns s ch = true →
      let early : Prop := earlyHalt c.cause = true ∨ (c.cause = 10 ∧ c.elemIdx = 0)
      (d.1.type = 5 → t = s) ∧
      (d.1.type ≠ 5 → early → DescStarts s ch d t) ∧
      (d.1.type ≠ 5 → ¬ early → (getTre t ch).state = 1 ∧ (getTre t ch).running = true ∧ (getTre t ch).elemIdx = c.elemIdx ∧ (getTre t ch).ring = c.ring) := by
  refine Completes.live (if_pos hawake) fun t ht => ?_
  dsimp only
  refine ⟨fun h => ?_, fun d rest hring hhalted htre => ?_⟩
  · rcases h with h | h
    · rw [haltedDesc_none h] at ht
      exact ht
    · cases hd : haltedDesc s ch with
      | none =>
        rw [hd] at ht
        exact ht
      | some d =>
        rw [hd] at ht
        exact ht.trans (if_pos (by simp [h]))
  · rw [haltedDesc_of_halted hring hhalted.1] at ht
    dsimp only at ht
    have hearly : (earlyHalt (getTre s ch).cause || ((getTre s ch).cause = 10 && (getTre s ch).elemIdx = 0)) = true ↔ earlyHalt (getTre s ch).cause = true ∨ ((getTre s ch).cause = 10 ∧ (getTre s ch).elemIdx = 0) := by simp
    refine ⟨fun h5 => by rw [ht, if_pos (by simp [h5])], fun h5 h => ?_, fun h5 h => ?_⟩
    · rw [if_neg (by simpa [htre] using h5), if_pos (hearly.2 h)] at ht
      rw [ht]
      exact startDesc_starts hring
    · rw [if_neg (by simpa [htre] using h5), if_neg fun h' => h (hearly.1 h')] at ht
      rw [ht, getTre_modTre]
      exact ⟨rfl, rfl, rfl, rfl⟩
theorem treRestart_restarts {s : State} (hawake : awake s = true) (ch : Fin 64) : Completes (.treRestart ch) s fun t =>
    let c := getTre s ch
    let halted : Prop := c.state = 3 ∧ c.ring ≠ []
    (¬ halted ∨ treRuns s ch = false → t = s) ∧ ∀ d rest, c.ring = d :: rest → halted → treRuns s ch = true → DescStarts s ch d t := by
  refine Completes.live (if_pos hawake) fun t ht => ⟨fun h => ?_, fun d rest hring hhalted htre => ?_⟩
  · rw [ht, if_neg]
    rcases h with h | h
    · simp [haltedDesc_none h]
    · simp [h]
  · rw [if_pos (by simp [haltedDesc_of_halted hring hhalted.1, htre])] at ht
    rw [ht]
    exact startDesc_starts hring
theorem treSkip_skips {s : State} (hawake : awake s = true) (ch : Fin 64) : Completes (.treSkip ch) s fun t =>
    let c := getTre s ch
    let halted : Prop := c.state = 3 ∧ c.ring ≠ []
    (¬ halted → t = s) ∧ ∀ d rest, c.ring = d :: rest → halted →
      (getTre t ch).ring = (if c.flushing then [] else rest) ∧ (getTre t ch).state = stateAfter c ∧ (getTre t ch).running = false := by
  refine Completes.live (if_pos hawake) fun t ht => ⟨fun h => by rw [ht, haltedDesc_none h]; rfl, fun d rest hring hhalted => ?_⟩
  rw [if_pos (by rw [haltedDesc_of_halted hring hhalted.1]; rfl)] at ht
  rw [ht]
  unfold skipHalt
  rw [getTre_dropDesc]
  refine ⟨?_, droppedCh_state _, rfl⟩
  unfold droppedCh
  rw [hring]
  rfl
/-- O26's second part (R316, R320). -/
theorem descriptorStart_starts {s : State} (hawake : awake s = true) (ch : Fin 64) : Completes (.descriptorStart ch) s fun t =>
    let c := getTre s ch
    let idle : Prop := c.state = 0 ∧ treRuns s ch = true
    (¬ idle → t = s) ∧ (idle → c.ring = [] → (getTre t ch).state = 0 ∧ (getTre t ch).running = false) ∧ ∀ d rest, c.ring = d :: rest → idle → DescStarts s ch d t := by
  have hidle : ((getTre s ch).state = 0 && treRuns s ch) = true ↔ (getTre s ch).state = 0 ∧ treRuns s ch = true := by simp
  refine Completes.live (if_pos hawake) fun t ht => ⟨fun h => by rw [ht, if_neg fun h' => h (hidle.1 h')], fun h hring => ?_, fun d rest hring h => ?_⟩
  all_goals rw [if_pos (hidle.2 h)] at ht
  · rw [ht]
    unfold startDesc
    dsimp only
    rw [hring]
    dsimp only
    rw [getTre_modTre]
    exact ⟨rfl, rfl⟩
  · rw [ht]
    exact startDesc_starts hring
/-- Settles O26: each row's equation, over what the moved elements leave of the channels and what a dropped, halted or cancelled channel is. -/
theorem transferChannelsRunDescriptors : Obligations.TransferChannelsRunDescriptors := by
  unfold Obligations.TransferChannelsRunDescriptors
  intro s hawake ch
  refine ⟨fun d => ?_, descriptorStart_starts hawake ch, ?_, channelHalt_halts hawake ch, ?_, ?_, ?_, treCancel_cancels hawake ch, treRetry_retries hawake ch, treRestart_restarts hawake ch, treSkip_skips hawake ch⟩
  · refine Completes.live (if_pos hawake) fun t ht => ?_
    rw [ht, getTre_modTre]
    split <;> rfl
  · obtain ⟨t, ht, hnot, hends⟩ := descriptorDone_ends hawake ch
    refine ⟨t, ht, hnot, fun d rest hring hruns => ?_⟩
    obtain ⟨hwaits, hany, hpad, hcopy, hfill⟩ := hends d rest hring hruns
    have hstated (h : DescEnds s ch d.1 rest t) := And.intro h.ring (And.intro h.running (And.intro h.state (And.intro h.descIdx h.pulsed)))
    exact ⟨hwaits, fun h => (hany h).imp hstated id, fun h h8 => hstated (hpad h h8), fun h h1 hsrc hdst hapart => (hcopy h h1 hsrc hdst hapart).imp hstated id,
      fun h h7 hdst => (hfill h h7 hdst).imp hstated id⟩
  · refine Completes.live (if_pos hawake) fun t ht => ?_
    rw [ht, getTre_modTre]
    by_cases h : (getTre s ch).state = 1 ∨ (getTre s ch).state = 3
    · rw [if_pos (by simpa using h), if_pos h, if_neg (by omega)]
      exact ⟨rfl, rfl, rfl, rfl⟩
    · rw [if_neg (by simpa using h), if_neg h]
      split
      · exact ⟨rfl, rfl, rfl, rfl⟩
      · exact ⟨rfl, rfl, rfl, rfl⟩
  · refine Completes.live (if_pos hawake) fun t ht => ?_
    rw [ht, getTre_modTre]
    exact ⟨rfl, rfl, rfl⟩
  · refine Completes.live (if_pos hawake) fun t ht => ?_
    rw [ht, getTre_modTre]
    refine ⟨fun h => ?_, fun h => ?_⟩
    · rw [if_pos h]
      exact ⟨rfl, rfl, h⟩
    · rw [if_neg h]
      exact ⟨rfl, rfl, rfl, rfl⟩

end Sys2Proof.Machine
end

section
/-! Two blocks of a READ in one slot of the millrace (O38). -/

namespace Sys2Proof.Machine
set_option Elab.async false

-- Two blocks of a READ in one slot of the millrace (O38).

/-- Two current versions of two blocks, and a millrace whose entry 5 stands in its table three times, twice for the two blocks of the next command. -/
def sharedSlotState : State := {
  dev := .ready, start := { inReset := false, powerOnReset := false }, links := [(0, { link := 2, session := 1 })], img := { arms := 1, heads := 2, capacity := 100 },
  hop := { nextArrival := 50 },
  mpd := { ledger := [(118784, { valid := true, state := 1, lba := 0, vseq := 1 }), (118785, { valid := true, state := 1, lba := 1, vseq := 2 })],
           frames := [(118784, 1), (118785, 2)] },
  mrc := { slots := [(5, { used := true, arrival := 999 }), (5, { used := true, arrival := 50, pos := 0 }), (5, { used := true, arrival := 50, pos := 1 })] } }
def twoBlockRead : Capsule := { opcode := 1, lba := 0, count := 2 }
theorem twoBlockRead_executes : Executes sharedSlotState .A twoBlockRead := by unfold Executes Arrives; decide
/-- The command runs with slot 5 as its first source, and no entry of slot 5 has the data of that block's version. -/
theorem twoBlockRead_shares : ∀ t, exec (.read .A twoBlockRead) sharedSlotState = .next t →
    (cmdOf t 50).any (fun d => d.phase = .running && decide (d.srcs[0]? = some (.slot 5))) = true ∧
    t.mrc.slots.all (fun e => !(decide (e.1 = 5) && decide (e.2.data = 1))) = true := by
  have hrun : (match exec (.read .A twoBlockRead) sharedSlotState with
      | .next t => (cmdOf t 50).any (fun d => d.phase = .running && decide (d.srcs[0]? = some (.slot 5))) &&
          t.mrc.slots.all (fun e => !(decide (e.1 = 5) && decide (e.2.data = 1)))
      | _ => false) = true := by decide +kernel
  intro t ht
  rw [ht] at hrun
  exact (Bool.and_eq_true _ _).mp hrun
theorem twoBlockRead_version : chooseSrc sharedSlotState 0 50 = .frame 118784 := by decide +kernel

/-- Refutes O38: where the millrace's table has one slot under two entries, both blocks of a READ are written to the first of them, so that the slot named
as the first block's source has the second block's data. -/
theorem not_mediaCommandsBegin : ¬ Obligations.MediaCommandsBegin := by
  unfold Obligations.MediaCommandsBegin
  intro h
  obtain ⟨hread, -⟩ := h sharedSlotState rfl .A
  obtain ⟨t, ht, hrun⟩ := hread twoBlockRead rfl
  obtain ⟨hsome, hcmd⟩ := hrun twoBlockRead_executes
  obtain ⟨hslot, hdata⟩ := twoBlockRead_shares t ht
  obtain ⟨d, hd⟩ := Option.isSome_iff_exists.1 hsome
  obtain ⟨-, -, -, -, -, hblocks⟩ := hcmd d hd
  have hd' : cmdOf t 50 = some d := hd
  rw [hd', Option.any_some, Bool.and_eq_true, decide_eq_true_eq, decide_eq_true_eq] at hslot
  obtain ⟨-, -, hsrc⟩ := hblocks 0 (by decide)
  rcases hsrc 118784 twoBlockRead_version hslot.1 with ⟨hframe, -⟩ | ⟨e, he, hkey, hval⟩
  · rw [hslot.2, Option.some_inj] at hframe
    exact BlockSrc.noConfusion (hframe.trans twoBlockRead_version)
  · rw [hslot.2, Option.some_inj, BlockSrc.slot.injEq] at hkey
    have hnot := List.all_eq_true.1 hdata e he
    have hval1 : e.2.data = 1 := hval
    simp [← hkey, hval1] at hnot

end Sys2Proof.Machine
end

section
/-! Steps that keep a view of the state. -/

namespace Sys2Proof.Machine
set_option Elab.async false

-- Steps that keep a view of the state.

/-- The view of the state is the same before and after. -/
structure Kept {β : Type} (view : State → β) (s t : State) : Prop where
  view : view t = view s
section
variable {β : Type} {view : State → β}
theorem Kept.refl {s : State} : Kept view s s := ⟨rfl⟩
theorem Kept.after {s t u : State} (h₂ : Kept view t u) (h₁ : Kept view s t) : Kept view s u := ⟨h₂.view.trans h₁.view⟩
theorem Kept.upd {s t : State} {dev aon start idn fuses clk pwr flt evt mqs ptn hold diag img nvm layout alks islands bol heads arms gov spn spc mrc mpd rows tre fls fcc links injs hop slu fan tx free} (h : Kept view s t)
    (hv : view (State.mk dev aon start idn fuses clk pwr flt evt mqs ptn hold diag img nvm layout alks islands bol heads arms gov spn spc mrc mpd rows tre fls fcc links injs hop slu fan tx free t.pending) = view t := by with_reducible rfl) :
    Kept view s (State.mk dev aon start idn fuses clk pwr flt evt mqs ptn hold diag img nvm layout alks islands bol heads arms gov spn spc mrc mpd rows tre fls fcc links injs hop slu fan tx free t.pending) := ⟨hv.trans h.view⟩
theorem Kept.ite {s t u : State} {c : Prop} [Decidable c] (h₁ : Kept view s t) (h₂ : Kept view s u) : Kept view s (if c then t else u) := by
  split
  · exact h₁
  · exact h₂
theorem Kept.each {α : Type} {f : α → State → State} {s : State} (hf : ∀ x s, Kept view s (f x s)) {xs : List α} {t : State} (ht : Kept view s t) : Kept view s (each xs f t) := by
  induction xs generalizing t with
  | nil => exact ht
  | cons x xs ih =>
    rw [each_cons]
    exact ih ((hf x t).after ht)
theorem Kept.of_eq_snd {α : Type} {p : α × State} {x : α} {s t : State} (h : Kept view s p.2) (e : p = (x, t)) : Kept view s t := by
  rw [e] at h
  exact h
end

end Sys2Proof.Machine
end

section
/-! The sensors of the sluice beside a stop (R410, R523). -/

namespace Sys2Proof.Machine
set_option Elab.async false

-- The sensors of the sluice beside a stop (R410, R523).

/-- The sensors' records. -/
abbrev thermals (s : State) : Tab Thermal := s.slu.thermal
theorem thermals_of_only {m : Units} {s t : State} (h : Only m s t) (hm : m.slu = false := by rfl) : Kept thermals s t := ⟨by unfold thermals; rw [h.slu hm]⟩
theorem unloadArm_therm (a s) : Kept thermals s (unloadArm a s) := by
  unfold unloadArm
  exact .ite ((thermals_of_only (modArm_only ..)).after ((thermals_of_only (freeInner_only ..)).after (.upd ((thermals_of_only (setSetpoint_only ..)).after (.ite ((thermals_of_only (disableCtx_only ..)).after (.each (fun _ _ => (thermals_of_only (disableCtx_only ..))) ((thermals_of_only (armSafe_only ..))))) ((thermals_of_only (takeOver_only ..)).after (.each (fun _ _ => (thermals_of_only (disableCtx_only ..))) ((thermals_of_only (armSafe_only ..)))))))))) .refl
theorem unloadAll_therm (s) : Kept thermals s (unloadAll s) := by
  unfold unloadAll
  exact .each (fun _ _ => (unloadArm_therm ..)) .refl
theorem gatesOff_therm (s) : Kept thermals s (gatesOff s) := by
  unfold gatesOff
  exact .ite ((thermals_of_only (send_only ..)).after (.upd (.upd .refl))) (.upd (.upd .refl))
theorem inverterOff_therm (s) : Kept thermals s (inverterOff s) := by
  unfold inverterOff
  exact (gatesOff_therm ..).after ((thermals_of_only (spnCtxOff_only ..)).after (.upd .refl))
theorem startCoast_therm (s) : Kept thermals s (startCoast s) := by
  unfold startCoast
  exact (thermals_of_only (setSpnMode_only ..)).after ((thermals_of_only (noCurve_only ..)).after ((inverterOff_therm ..)))
theorem spindleStop_therm (s) : Kept thermals s (spindleStop s) := by
  unfold spindleStop
  exact .ite ((thermals_of_only (noCurve_only ..)).after (.upd .refl)) (.ite ((startCoast_therm ..).after ((thermals_of_only (noCurve_only ..)).after (.upd .refl))) (.ite (.upd ((thermals_of_only (gatesOn_only ..)).after (.each (fun _ _ => .ite .refl ((thermals_of_only (enableCtx_only ..)))) (.each (fun _ _ => (thermals_of_only (disableCtx_only ..))) ((thermals_of_only (noCurve_only ..)).after (.upd .refl)))))) ((thermals_of_only (startShortBrake_only ..)).after ((thermals_of_only (noCurve_only ..)).after (.upd .refl)))))
theorem cutVisit_therm (a s) : Kept thermals s (cutVisit a s) := by
  unfold cutVisit
  split
  · exact .refl
  · exact .ite (.upd (.each (fun _ _ => (thermals_of_only (restHead_only ..))) (.upd ((thermals_of_only (freeInner_only ..)))))) ((thermals_of_only (post_only ..)).after (.upd (.each (fun _ _ => (thermals_of_only (restHead_only ..))) (.upd ((thermals_of_only (freeInner_only ..)))))))
theorem endVisits_therm (s) : Kept thermals s (endVisits s) := by
  unfold endVisits
  exact .upd (.each (fun _ _ => (cutVisit_therm ..)) (.each (fun _ _ => .ite ((thermals_of_only (modSine_only ..))) .refl) .refl))
theorem enterHold_therm (event injected s) : Kept thermals s (enterHold event injected s) := by
  unfold enterHold
  exact .ite ((thermals_of_only (post_only ..)).after ((endVisits_therm ..).after (.upd .refl))) (.ite (.upd .refl) .refl)
theorem dropActive_therm (s) : Kept thermals s (dropActive s) := by
  unfold dropActive
  exact .upd (.ite ((thermals_of_only (send_only ..)).after (.upd (.ite ((inverterOff_therm ..).after (.ite (.each (fun _ _ => (thermals_of_only (vcmFrame_only ..))) .refl) .refl)) ((startCoast_therm ..).after (.ite (.each (fun _ _ => (thermals_of_only (vcmFrame_only ..))) .refl) .refl))))) (.ite ((inverterOff_therm ..).after (.ite (.each (fun _ _ => (thermals_of_only (vcmFrame_only ..))) .refl) .refl)) ((startCoast_therm ..).after (.ite (.each (fun _ _ => (thermals_of_only (vcmFrame_only ..))) .refl) .refl))))
theorem enterStopped_therm (cause s) : Kept thermals s (enterStopped cause s) := by
  unfold enterStopped
  exact .upd (.each (fun _ _ => (thermals_of_only (armDark_only ..))) ((endVisits_therm ..).after ((dropActive_therm ..))))
theorem finalStop_therm (cause s) : Kept thermals s (finalStop cause s) := by
  unfold finalStop
  exact (enterStopped_therm ..).after ((thermals_of_only (post_only ..)).after ((thermals_of_only (releaseArms_only ..))))
theorem advanceStop_therm (s) : Kept thermals s (advanceStop s) := by
  unfold advanceStop
  exact .ite ((finalStop_therm ..).after (.ite (.ite ((startCoast_therm ..).after (.upd .refl)) (.ite ((spindleStop_therm ..).after (.upd .refl)) (.upd .refl))) .refl)) (.ite (.ite ((startCoast_therm ..).after (.upd .refl)) (.ite ((spindleStop_therm ..).after (.upd .refl)) (.upd .refl))) .refl)
theorem stopSequence_therm (solo cause s) : Kept thermals s (stopSequence solo cause s) := by
  unfold stopSequence
  refine .ite .refl ?_
  split
  · exact (finalStop_therm ..).after ((thermals_of_only (stopChannels_only ..)).after ((thermals_of_only (completeAll_only ..))))
  · exact (finalStop_therm ..).after ((thermals_of_only (stopChannels_only ..)).after ((thermals_of_only (completeAll_only ..))))
  · exact (finalStop_therm ..).after ((thermals_of_only (stopChannels_only ..)).after ((thermals_of_only (completeAll_only ..))))
  · exact (finalStop_therm ..).after ((thermals_of_only (stopChannels_only ..)).after ((thermals_of_only (completeAll_only ..))))
  · exact (finalStop_therm ..).after ((thermals_of_only (stopChannels_only ..)).after ((thermals_of_only (completeAll_only ..))))
  · exact .refl
  · exact .refl
  · exact .ite ((finalStop_therm ..).after ((dropActive_therm ..).after (.upd ((thermals_of_only (post_only ..)).after ((thermals_of_only (ptnSend_only ..)).after (.upd ((thermals_of_only (stopChannels_only ..)).after ((thermals_of_only (completeAll_only ..)).after ((endVisits_therm ..).after (.upd .refl)))))))))) ((advanceStop_therm ..).after (.upd ((thermals_of_only (dropGone_only ..)).after (.upd (.ite ((unloadAll_therm ..).after (.ite ((thermals_of_only (post_only ..)).after ((thermals_of_only (ptnSend_only ..)).after (.upd ((thermals_of_only (stopChannels_only ..)).after ((thermals_of_only (completeAll_only ..)).after ((endVisits_therm ..).after (.upd .refl))))))) (.upd ((thermals_of_only (stopChannels_only ..)).after ((thermals_of_only (completeAll_only ..)).after ((endVisits_therm ..).after (.upd .refl))))))) (.ite ((thermals_of_only (post_only ..)).after ((thermals_of_only (ptnSend_only ..)).after (.upd ((thermals_of_only (stopChannels_only ..)).after ((thermals_of_only (completeAll_only ..)).after ((endVisits_therm ..).after (.upd .refl))))))) (.upd ((thermals_of_only (stopChannels_only ..)).after ((thermals_of_only (completeAll_only ..)).after ((endVisits_therm ..).after (.upd .refl)))))))))))
theorem failStopInj_therm (injected cause s) : Kept thermals s (failStopInj injected cause s) := by
  unfold failStopInj
  exact .ite ((enterHold_therm ..)) ((stopSequence_therm ..).after (.upd .refl))
theorem failStop_therm (cause s) : Kept thermals s (failStop cause s) := by
  unfold failStop
  exact (failStopInj_therm ..)
theorem thermalShut_therm (k s) : Kept thermals s (thermalShut k s) := by
  unfold thermalShut
  exact .ite ((stopSequence_therm ..).after (.upd ((thermals_of_only (post_only ..))))) ((failStop_therm ..).after ((thermals_of_only (post_only ..))))

end Sys2Proof.Machine
end

section
/-! The readings of the sensors and their levels (O4). -/

namespace Sys2Proof.Machine
set_option Elab.async false

-- The readings of the sensors and their levels (O4).

theorem Kept.getTherm {s t : State} (h : Kept thermals s t) (k : Nat) : getTherm t k = getTherm s k := by
  unfold Machine.getTherm
  exact congrArg (tabGet {} · k) h.view
theorem img_of_only {m : Units} {s t : State} (h : Only m s t) (hm : m.img = false := by rfl) : t.img = s.img := h.img hm
/-- A level that is set is the sensor's level, and nothing else of the sensors changes (R411). -/
theorem setLevel_kept (k level : Nat) (v : Int) (s : State) : Kept thermals (modTherm s k fun d => { d with level }) (setLevel k level v s) := by
  unfold setLevel
  extract_lets old s₁ s₂ s₃ s₄
  have h₂ : Kept thermals s₁ s₂ := .ite (thermals_of_only (post_only ..)) .refl
  have h₃ : Kept thermals s₂ s₃ := .ite (thermals_of_only (post_only ..)) .refl
  have h₄ : Kept thermals s₃ s₄ := .ite (thermals_of_only (post_only ..)) .refl
  exact .ite ((thermalShut_therm ..).after (h₄.after (h₃.after h₂))) (h₄.after (h₃.after h₂))
theorem getTherm_setLevel_same (k level : Nat) (v : Int) (s : State) : getTherm (setLevel k level v s) k = { getTherm s k with level } := by
  rw [(setLevel_kept k level v s).getTherm, getTherm_modTherm]
theorem getTherm_setLevel_other {k j : Nat} (level : Nat) (v : Int) (s : State) (h : j ≠ k) : getTherm (setLevel k level v s) j = getTherm s j := by
  rw [(setLevel_kept k level v s).getTherm, getTherm_modTherm_other _ _ h]
theorem levelFor_congr {s t : State} (h : t.img = s.img) (k old : Nat) (v : Int) : levelFor t k old v = levelFor s k old v := by
  unfold levelFor inLevel thermThr
  rw [h]
theorem thermWindow_congr {s t : State} (h : now t = now s) (k : Nat) (rs : List (Nat × Int)) : thermWindow t k rs = thermWindow s k rs := by
  unfold thermWindow
  rw [h]
/-- The level that a sensor's next reading goes on from (R410). -/
def levelBefore (s : State) (k : Nat) : Nat := if (getTherm s k).unreported then (getTherm s k).was else (getTherm s k).level
/-- Sensor `k` has taken the reading `v` into its mean and its level (R410). -/
def TookReading (s t : State) (k : Nat) (v : Int) : Prop :=
  (getTherm t k).unreported = false ∧ (getTherm t k).reports = thermWindow s k ((getTherm s k).reports ++ [(now s, v)]) ∧
    (getTherm t k).mean = thermMean (getTherm t k).reports ∧ (getTherm t k).level = levelFor s k (levelBefore s k) (getTherm t k).mean
theorem thermalReading_took (k : Nat) (v : Int) (s : State) : TookReading s (thermalReading k v s) k v := by
  unfold TookReading thermalReading
  rw [getTherm_setLevel_same, getTherm_modTherm]
  exact ⟨rfl, rfl, rfl, levelFor_congr (img_of_only (modTherm_only ..)) ..⟩
theorem getTherm_thermalReading_other {k j : Nat} (v : Int) (s : State) (h : j ≠ k) : getTherm (thermalReading k v s) j = getTherm s j := by
  unfold thermalReading
  rw [getTherm_setLevel_other _ _ _ h, getTherm_modTherm_other _ _ h]
theorem TookReading.congr_before {s s' t : State} {k : Nat} {v : Int} (h : TookReading s' t k v) (himg : s'.img = s.img) (hnow : now s' = now s)
    (hk : getTherm s' k = getTherm s k) : TookReading s t k v := by
  unfold TookReading levelBefore at *
  rw [hk, hnow, thermWindow_congr hnow, levelFor_congr himg] at h
  exact h
theorem TookReading.congr_after {s t u : State} {k : Nat} {v : Int} (h : TookReading s t k v) (hk : getTherm u k = getTherm t k) : TookReading s u k v := by
  unfold TookReading at *
  rw [hk]
  exact h

/-- The sensors of the die that count as failed once readings have come (R623). -/
theorem getLsbD_foldl_twoPow (bad : Nat → Bool) (xs : List Nat) (hxs : ∀ x ∈ xs, x < 16) (b : BitVec 16) (i : Nat) :
    (xs.foldl (fun (b : BitVec 16) j => if bad j then b ||| BitVec.twoPow 16 j else b) b).getLsbD i = (b.getLsbD i || (decide (i ∈ xs) && bad i)) := by
  induction xs generalizing b with
  | nil => simp
  | cons x xs ih =>
    rw [List.foldl_cons, ih fun y hy => hxs y (List.mem_cons_of_mem _ hy)]
    have hx := hxs x List.mem_cons_self
    by_cases hi : i = x
    · subst hi
      cases bad i <;> simp [hx]
    · split <;> simp [BitVec.getLsbD_twoPow, hi, Ne.symm hi]
/-- Readings of two sensors one after the other are both taken. -/
theorem thermalReading_both {j k : Nat} (h : j ≠ k) (v w : Int) (s : State) :
    TookReading s (thermalReading k w (thermalReading j v s)) j v ∧ TookReading s (thermalReading k w (thermalReading j v s)) k w :=
  ⟨(thermalReading_took j v s).congr_after (getTherm_thermalReading_other w _ h),
    (thermalReading_took k w (thermalReading j v s)).congr_before (img_of_only (thermalReading_only ..)) (now_of_only (thermalReading_only ..))
      (getTherm_thermalReading_other v s h.symm)⟩
theorem thermalReading_pwr (k : Nat) (v : Int) (s : State) : (thermalReading k v s).pwr = s.pwr := (thermalReading_only ..).pwr rfl
/-- A sensor that goes unreported counts as at CRIT at least, and what its level was is kept (R410). -/
theorem thermalUnreported_unreported {k : Nat} {s : State} (hfitted : k = 0 ∨ (k - 1) % 8 < s.img.arms) :
    (getTherm (thermalUnreported k s) k).unreported = true ∧ ((getTherm s k).unreported = false →
      (getTherm (thermalUnreported k s) k).was = (getTherm s k).level ∧ 2 ≤ (getTherm (thermalUnreported k s) k).level) := by
  unfold thermalUnreported
  split
  next hskip =>
    have hwas : (getTherm s k).unreported = true := by
      rw [Bool.or_eq_true, Bool.and_eq_true, decide_eq_true_eq, decide_eq_true_eq] at hskip
      exact hskip.resolve_right fun ⟨hk, harms⟩ => hfitted.elim hk (Nat.not_lt.2 harms)
    exact ⟨hwas, fun hnot => Bool.noConfusion (hwas.symm.trans hnot)⟩
  · rw [getTherm_setLevel_same, (thermals_of_only (post_only ..)).getTherm, getTherm_modTherm]
    exact ⟨rfl, fun _ => ⟨rfl, le_max_left ..⟩⟩
/-- Sensor `i` of the die counts as failed once the readings `ts` have come (R623). -/
def dieBad (ts : Vector Int 16) (s : State) (i : Nat) : Bool :=
  s.pwr.tempFailed.getLsbD i || decide (ts.toList.getD i 0 < -640) || decide (2400 < ts.toList.getD i 0)
/-- The readings stand in the record of the supplies, with the sensors that they mark as failed. -/
def dieTaken (ts : Vector Int 16) (s : State) : State :=
  { s with pwr := { s.pwr with
    tempFailed := (List.range 16).foldl (fun (b : BitVec 16) i => if dieBad ts s i then b ||| BitVec.twoPow 16 i else b) 0
    temps := Vector.ofFn fun (i : Fin 16) => if dieBad ts s i.val then (-32768 : Int) else ts[i] } }
theorem dieTaken_only (ts : Vector Int 16) (s : State) : Only { pwr := true } s (dieTaken ts s) := .upd .refl
theorem dieTaken_failed (ts : Vector Int 16) (s : State) (i : Fin 16) : (dieTaken ts s).pwr.tempFailed.getLsbD i = dieBad ts s i := by
  unfold dieTaken
  rw [getLsbD_foldl_twoPow _ _ fun x hx => List.mem_range.1 hx]
  simp
/-- Settles O4: each reading goes through one sensor's record, and what a level brings, a stop among it, leaves every sensor's record as it is. -/
theorem thermalReadingsSetLevels : Obligations.ThermalReadingsSetLevels := by
  unfold Obligations.ThermalReadingsSetLevels
  intro s hawake
  refine ⟨fun ts => ?_, fun arm word => ?_, fun k => ?_⟩
  · refine Completes.live (if_pos hawake) fun t ht => ?_
    extract_lets bad works
    change t = if works.length < 12 then dieTaken ts s else thermalReading 0 ((works.map fun i => ts.toList.getD i 0).foldl max (-640)) (dieTaken ts s) at ht
    by_cases hfew : works.length < 12
    · rw [if_pos hfew] at ht
      subst ht
      exact ⟨dieTaken_failed ts s, fun _ => rfl, fun h => absurd h (Nat.not_le.2 hfew)⟩
    · rw [if_neg hfew] at ht
      subst ht
      exact ⟨fun i => (congrArg (·.tempFailed.getLsbD i) (thermalReading_pwr ..)).trans (dieTaken_failed ts s i), fun h => absurd h hfew,
        fun _ => (thermalReading_took 0 _ (dieTaken ts s)).congr_before (img_of_only (dieTaken_only ts s)) (now_of_only (dieTaken_only ts s)) ((thermals_of_only (dieTaken_only ts s)).getTherm 0)⟩
  · refine Completes.live (if_pos hawake) fun t ht => ?_
    extract_lets took
    subst ht
    have hne : 1 + arm.val ≠ 9 + arm.val := by omega
    obtain ⟨hdie, hstack⟩ := thermalReading_both hne (signedOf 16 (bitsOf 47 32 word.toNat)) (signedOf 16 (bitsOf 31 16 word.toNat))
      (modAlk s arm fun k => { k with dieTemp := some (signedOf 16 (bitsOf 47 32 word.toNat)), stackTemp := some (signedOf 16 (bitsOf 31 16 word.toNat)) })
    have hlink {f : ArmLink → ArmLink} := modAlk_only s arm f
    exact ⟨hdie.congr_before (img_of_only hlink) (now_of_only hlink) ((thermals_of_only hlink).getTherm _),
      hstack.congr_before (img_of_only hlink) (now_of_only hlink) ((thermals_of_only hlink).getTherm _)⟩
  · refine Completes.live (if_pos hawake) fun t ht => ?_
    subst ht
    split
    next habsent =>
      refine if_pos ?_
      rw [Bool.or_eq_true, Bool.and_eq_true, decide_eq_true_eq, decide_eq_true_eq]
      exact .inr habsent
    next hfitted => exact thermalUnreported_unreported (by omega)

end Sys2Proof.Machine
end

section
/-! Steps that keep a property of the state; records on their way to the partner (R449, R450). -/

namespace Sys2Proof.Machine
set_option Elab.async false

-- Steps that keep a property of the state.

/-- Where the property holds of the view before, it holds of it after. -/
structure Holding {β : Type} (view : State → β) (P : β → Prop) (s t : State) : Prop where
  keeps : P (view s) → P (view t)
section
variable {β : Type} {view : State → β} {P : β → Prop}
theorem Holding.refl {s : State} : Holding view P s s := ⟨id⟩
theorem Holding.after {s t u : State} (h₂ : Holding view P t u) (h₁ : Holding view P s t) : Holding view P s u := ⟨h₂.keeps ∘ h₁.keeps⟩
theorem Kept.holding {s t : State} (h : Kept view s t) : Holding view P s t := ⟨by rw [h.view]; exact id⟩
theorem Holding.upd {s t : State} {dev aon start idn fuses clk pwr flt evt mqs ptn hold diag img nvm layout alks islands bol heads arms gov spn spc mrc mpd rows tre fls fcc links injs hop slu fan tx free} (h : Holding view P s t)
    (hv : view (State.mk dev aon start idn fuses clk pwr flt evt mqs ptn hold diag img nvm layout alks islands bol heads arms gov spn spc mrc mpd rows tre fls fcc links injs hop slu fan tx free t.pending) = view t := by with_reducible rfl) :
    Holding view P s (State.mk dev aon start idn fuses clk pwr flt evt mqs ptn hold diag img nvm layout alks islands bol heads arms gov spn spc mrc mpd rows tre fls fcc links injs hop slu fan tx free t.pending) :=
  (Kept.holding ⟨hv⟩).after h
theorem Holding.ite {s t u : State} {c : Prop} [Decidable c] (h₁ : Holding view P s t) (h₂ : Holding view P s u) : Holding view P s (if c then t else u) := by
  split
  · exact h₁
  · exact h₂
theorem Holding.each {α : Type} {f : α → State → State} {s : State} (hf : ∀ x s, Holding view P s (f x s)) {xs : List α} {t : State} (ht : Holding view P s t) : Holding view P s (each xs f t) := by
  induction xs generalizing t with
  | nil => exact ht
  | cons x xs ih =>
    rw [each_cons]
    exact ih ((hf x t).after ht)
theorem Holding.of_eq_snd {α : Type} {p : α × State} {x : α} {s t : State} (h : Holding view P s p.2) (e : p = (x, t)) : Holding view P s t := by
  rw [e] at h
  exact h
end

/-- The record is in an unacknowledged frame of the link or waits for credit. -/
def PtnQueued (r : CtlRec) (k : Link) : Prop := (∃ f ∈ k.unacked, f.body = .mirror r) ∨ r ∈ k.txWait
/-- The partner record is on its way. -/
def underWay (r : CtlRec) (ls : Tab Link) : Prop := PtnQueued r (tabGet (linkDef 2) ls 2)
/-- The links' records. -/
abbrev linkTab (s : State) : Tab Link := s.links
theorem toPartner_iff (r : CtlRec) (s : State) : ToPartner r s ↔ underWay r (linkTab s) := Iff.rfl
section
variable {awaited : CtlRec}
theorem underWay_of_only {m : Units} {s t : State} (h : Only m s t) (hm : m.links = false := by rfl) : Holding linkTab (underWay awaited) s t := ⟨by unfold linkTab; rw [h.links hm]; exact id⟩
theorem Holding.modLink {s : State} {l : Nat} {f : Link → Link} (hf : ∀ k, PtnQueued awaited k → PtnQueued awaited (f k)) : Holding linkTab (underWay awaited) s (modLink s l f) := by
  refine ⟨fun h => ?_⟩
  change PtnQueued awaited (getLink (Machine.modLink s l f) 2)
  by_cases hl : l = 2
  · subst hl
    rw [getLink_modLink]
    exact hf _ h
  · rw [getLink_modLink_other _ _ (Ne.symm hl)]
    exact h
theorem PtnQueued.append {r : CtlRec} {k : Link} (f : TxFrame) (h : PtnQueued r k) {k' : Link} (hu : k'.unacked = k.unacked ++ [f]) (hw : k'.txWait = k.txWait) : PtnQueued r k' := by
  obtain ⟨g, hg, hbody⟩ | hwait := h
  · exact .inl ⟨g, hu ▸ List.mem_append_left _ hg, hbody⟩
  · exact .inr (hw ▸ hwait)
theorem queueOut_way (l : Nat) (f : OutFrame) (s : State) : Holding linkTab (underWay awaited) s (queueOut l f s) := Holding.modLink fun _ h => h
theorem frameSent_way (l : Nat) (s : State) : Holding linkTab (underWay awaited) s (frameSent l s) := Holding.modLink fun _ h => h
theorem putFrame_way (l seq body flip new s) : Holding linkTab (underWay awaited) s (putFrame l seq body flip new s) := by
  unfold putFrame
  exact (frameSent_way ..).after ((queueOut_way ..).after (underWay_of_only (send_only ..)))
theorem sendNumbered_way (l body s) : Holding linkTab (underWay awaited) s (sendNumbered l body s) := by
  unfold sendNumbered
  refine (putFrame_way ..).after (.after (Holding.modLink ?_) (underWay_of_only (injectTx_only l (ftypeOf body) s)))
  exact fun _ h => h.append _ rfl rfl
theorem ptnSend_way (q s) : Holding linkTab (underWay awaited) s (ptnSend q s) := by
  unfold ptnSend
  exact .ite (sendNumbered_way ..) (Holding.modLink fun _ h => h.imp_right (List.mem_append_left _))
theorem mirror_way (r s) : Holding linkTab (underWay awaited) s (mirror r s) := by
  unfold mirror
  exact .ite ((ptnSend_way ..)) .refl
theorem issueRec_way (p r s) : Holding linkTab (underWay awaited) s (issueRec p r s) := by
  unfold issueRec
  exact (underWay_of_only (modHopPort_only ..)).after (.ite ((mirror_way ..)) .refl)
theorem completeOne_way (arr status info s) : Holding linkTab (underWay awaited) s (completeOne arr status info s) := by
  unfold completeOne
  split
  · exact .refl
  · exact .ite .refl ((issueRec_way ..).after ((underWay_of_only (dropGrants_only ..)).after ((underWay_of_only (releaseFrames_only ..)).after ((underWay_of_only (unpin_only ..)).after (.ite ((underWay_of_only (modCmd_only ..))) ((underWay_of_only (freeSlots_only ..)).after ((underWay_of_only (modCmd_only ..)))))))))
theorem complete_way (arr status info s) : Holding linkTab (underWay awaited) s (complete arr status info s) := by
  unfold complete
  split
  · exact .refl
  · exact .each (fun _ _ => (completeOne_way ..)) ((completeOne_way ..))
theorem setState_way (f st s) : Holding linkTab (underWay awaited) s (setState f st s) := by
  unfold setState
  exact .ite ((underWay_of_only (setEntry_only ..))) ((mirror_way ..).after ((underWay_of_only (setEntry_only ..))))
theorem withdraw_way (f s) : Holding linkTab (underWay awaited) s (withdraw f s) := by
  unfold withdraw
  refine .each (fun _ _ => ?_) ((mirror_way ..).after (.upd ((underWay_of_only (setFrame_only ..)).after ((underWay_of_only (setEntry_only ..))))))
  split
  · exact .refl
  · refine (underWay_of_only (modCmd_only ..)).after ?_
    split
    · exact (underWay_of_only (retakeBlock_only ..))
    · exact .refl
theorem withdrawLanding_way (c s) : Holding linkTab (underWay awaited) s (withdrawLanding c s) := by
  unfold withdrawLanding
  exact .each (fun _ _ => .ite ((withdraw_way ..)) .refl) ((underWay_of_only (passWrite_only ..)).after ((underWay_of_only (modCmd_only ..))))
theorem recheck_way (s) : Holding linkTab (underWay awaited) s (recheck s) := by
  unfold recheck
  refine .each (fun _ _ => ?_) .refl
  split
  · exact .refl
  · exact .ite ((complete_way ..).after ((underWay_of_only (ackEntries_only ..)))) (.ite ((complete_way ..)) (.ite ((underWay_of_only (beginVerify_only ..))) .refl))
theorem addDeferred_way (r s) : Holding linkTab (underWay awaited) s (addDeferred r s) := by
  unfold addDeferred
  refine .ite ?_ ((underWay_of_only (mqNote_only ..)).after ((mirror_way ..).after ((underWay_of_only (post_only ..)).after ((underWay_of_only (storeDeferred_only ..)).after (.upd .refl)))))
  split
  · exact .ite .refl ((mirror_way ..).after ((underWay_of_only (storeDeferred_only ..))))
  · exact .refl
theorem raiseDeferred_way (portB cause lba arrival tag s) : Holding linkTab (underWay awaited) s (raiseDeferred portB cause lba arrival tag s) := by
  unfold raiseDeferred
  extract_lets
  split
  · exact (addDeferred_way ..).after ((underWay_of_only (listBlock_only ..)))
  · exact (mirror_way ..).after ((underWay_of_only (storeDeferred_only ..)).after ((underWay_of_only (listBlock_only ..))))
theorem pumpRead_way (arr s) : Holding linkTab (underWay awaited) s (pumpRead arr s) := by
  unfold pumpRead
  split
  · exact .refl
  · refine .ite .refl ?_
    refine (underWay_of_only (releaseFrames_only ..)).after ?_
    split
    · refine (complete_way ..).after ?_
      refine .each (fun _ _ => ?_) .refl
      split
      · refine .ite ?_ .refl
        split
        · exact .upd ((underWay_of_only (setSrc_only ..)).after (Holding.of_eq_snd ((underWay_of_only (fillSlot_only ..))) ‹_›))
        · exact Holding.of_eq_snd ((underWay_of_only (fillSlot_only ..))) ‹_›
      · exact .refl
    · refine (complete_way ..).after ?_
      refine .each (fun _ _ => ?_) .refl
      split
      · refine .ite ?_ .refl
        split
        · exact .upd ((underWay_of_only (setSrc_only ..)).after (Holding.of_eq_snd ((underWay_of_only (fillSlot_only ..))) ‹_›))
        · exact Holding.of_eq_snd ((underWay_of_only (fillSlot_only ..))) ‹_›
      · exact .refl
    · refine .each (fun _ _ => ?_) .refl
      split
      · refine .ite ?_ .refl
        split
        · exact .upd ((underWay_of_only (setSrc_only ..)).after (Holding.of_eq_snd ((underWay_of_only (fillSlot_only ..))) ‹_›))
        · exact Holding.of_eq_snd ((underWay_of_only (fillSlot_only ..))) ‹_›
      · exact .refl
theorem readersToRow_way (r s) : Holding linkTab (underWay awaited) s (readersToRow r s) := by
  unfold readersToRow
  refine .each (fun _ _ => ?_) .refl
  refine .each (fun _ _ => ?_) .refl
  extract_lets
  split
  · exact .refl
  · exact (pumpRead_way ..).after (.ite ((underWay_of_only (setSrc_only ..)).after (.upd .refl)) ((underWay_of_only (setSrc_only ..)).after (.upd (.upd .refl))))
theorem startBuild_way (row s) : Holding linkTab (underWay awaited) s (startBuild row s) := by
  unfold startBuild
  split
  · exact .refl
  · exact .refl
  · extract_lets
    split
    · refine .each (fun _ _ => ?_) (.upd .refl)
      refine .ite ((underWay_of_only (modRow_only ..)).after ((underWay_of_only (setFrame_only ..)))) ?_
      split
      · exact (underWay_of_only (modRow_only ..)).after ((setState_way ..).after ((underWay_of_only (setEntry_only ..))))
      · refine .ite ((underWay_of_only (modRow_only ..))) ?_
        split
        · exact (underWay_of_only (modRow_only ..)).after ((underWay_of_only (setFrame_only ..)))
        · exact .refl
    · refine .ite ?_ ?_
      · refine (underWay_of_only (rowReady_only ..)).after ?_
        refine (readersToRow_way ..).after ?_
        refine .each (fun _ _ => ?_) (.upd .refl)
        refine .ite ((underWay_of_only (modRow_only ..)).after ((underWay_of_only (setFrame_only ..)))) ?_
        split
        · exact (underWay_of_only (modRow_only ..)).after ((setState_way ..).after ((underWay_of_only (setEntry_only ..))))
        · refine .ite ((underWay_of_only (modRow_only ..))) ?_
          split
          · exact (underWay_of_only (modRow_only ..)).after ((underWay_of_only (setFrame_only ..)))
          · exact .refl
      · refine (underWay_of_only (readWorks_only ..)).after ?_
        refine (readersToRow_way ..).after ?_
        refine .each (fun _ _ => ?_) (.upd .refl)
        refine .ite ((underWay_of_only (modRow_only ..)).after ((underWay_of_only (setFrame_only ..)))) ?_
        split
        · exact (underWay_of_only (modRow_only ..)).after ((setState_way ..).after ((underWay_of_only (setEntry_only ..))))
        · refine .ite ((underWay_of_only (modRow_only ..))) ?_
          split
          · exact (underWay_of_only (modRow_only ..)).after ((underWay_of_only (setFrame_only ..)))
          · exact .refl
theorem abandonRow_way (row s) : Holding linkTab (underWay awaited) s (abandonRow row s) := by
  unfold abandonRow
  split
  · exact .refl
  · refine .each (fun _ _ => ?_) ((underWay_of_only (dropWork_only ..)).after (.ite ((underWay_of_only (rewriteRow_only ..)).after (.upd .refl)) (.upd .refl)))
    refine .ite ?_ .refl
    split
    · exact (setState_way ..)
    · exact .ite ((setState_way ..)) ((setState_way ..).after (.ite ((setState_way ..).after ((underWay_of_only (setEntry_only ..)))) .refl))
theorem tryBuild_way (row s) : Holding linkTab (underWay awaited) s (tryBuild row s) := by
  unfold tryBuild
  exact .ite ((startBuild_way ..)) .refl
theorem restartRow_way (row s) : Holding linkTab (underWay awaited) s (restartRow row s) := by
  unfold restartRow
  split
  · exact .refl
  · exact .ite ((tryBuild_way ..).after (.upd ((underWay_of_only (refetchRow_only ..)).after ((abandonRow_way ..))))) ((underWay_of_only (refetchRow_only ..)).after ((abandonRow_way ..)))
theorem retakeReaders_way (f s) : Holding linkTab (underWay awaited) s (retakeReaders f s) := by
  unfold retakeReaders
  refine .each (fun _ _ => ?_) (.upd .refl)
  split
  · exact .refl
  · split
    · exact (pumpRead_way ..).after ((underWay_of_only (retakeBlock_only ..)))
    · exact .refl
theorem loseReaders_way (f s) : Holding linkTab (underWay awaited) s (loseReaders f s) := by
  unfold loseReaders
  exact .each (fun _ _ => (pumpRead_way ..).after ((underWay_of_only (modCmd_only ..)))) (.upd .refl)
theorem freeEntry_way (f s) : Holding linkTab (underWay awaited) s (freeEntry f s) := by
  unfold freeEntry
  exact (mirror_way ..).after (.upd ((underWay_of_only (setFrame_only ..)).after ((underWay_of_only (setEntry_only ..)))))
theorem loseDirty_way (f s) : Holding linkTab (underWay awaited) s (loseDirty f s) := by
  unfold loseDirty
  extract_lets
  split
  · exact .ite ((complete_way ..).after ((withdrawLanding_way ..).after ((withdraw_way ..)))) ((underWay_of_only (grantAgain_only ..)))
  · exact .ite ((recheck_way ..).after ((underWay_of_only (loseWaits_only ..)).after ((raiseDeferred_way ..).after ((underWay_of_only (post_only ..)).after ((freeEntry_way ..).after ((loseReaders_way ..))))))) ((recheck_way ..).after ((withdraw_way ..)))
theorem ueFrame_way (f s) : Holding linkTab (underWay awaited) s (ueFrame f s) := by
  unfold ueFrame
  refine .ite ((retakeReaders_way ..).after ((underWay_of_only (setFrame_only ..)).after (.upd .refl))) ?_
  refine .ite ?_ (.ite .refl (.ite ((ptnSend_way ..).after (.upd .refl)) (.ite ((retakeReaders_way ..).after ((freeEntry_way ..))) (.ite ((freeEntry_way ..).after ((loseReaders_way ..))) (.ite (.ite (.upd .refl) ((loseDirty_way ..).after ((abandonRow_way ..)))) ((loseDirty_way ..)))))))
  split
  · exact (restartRow_way ..)
  · exact .refl
theorem sendDump_way (area s) : Holding linkTab (underWay awaited) s (sendDump area s) := by
  unfold sendDump
  refine .each (fun _ _ => .each (fun _ _ => (ptnSend_way ..)) .refl) ?_
  refine .each (fun _ _ => ?_) (.each (fun _ _ => (ptnSend_way ..)) .refl)
  refine (ptnSend_way ..).after ?_
  split
  · exact .each (fun _ _ => (ptnSend_way ..)) .refl
  · exact .refl
/-- A record that is sent to the partner is on its way (R449, R450). -/
theorem toPartner_ptnSend (r : CtlRec) (s : State) : ToPartner r (ptnSend r s) := by
  rw [toPartner_iff]
  unfold ptnSend
  split
  · unfold sendNumbered
    refine (putFrame_way ..).keeps ?_
    change PtnQueued r (getLink (modLink _ 2 _) 2)
    rw [getLink_modLink]
    exact .inl ⟨_, List.mem_append_right _ List.mem_cons_self, rfl⟩
  · change PtnQueued r (getLink (modLink _ 2 _) 2)
    rw [getLink_modLink]
    exact .inr (List.mem_append_right _ List.mem_cons_self)
end

end Sys2Proof.Machine
end

section
/-! What a part has heard of its partner, and what a stop leaves of that unit (R452, R455). -/

namespace Sys2Proof.Machine
set_option Elab.async false

-- What a part has heard of its partner (R452, R455).

/-- The partner's record and whether anything was heard. -/
abbrev heardFrom (s : State) : Option ArbRec × Bool := (s.ptn.peer, s.ptn.heard)
theorem heardFrom_of_only {m : Units} {s t : State} (h : Only m s t) (hm : m.ptn = false := by rfl) : Kept heardFrom s t := ⟨by unfold heardFrom; rw [h.ptn hm]⟩
theorem askResync_heard (s) : Kept heardFrom s (askResync s) := by
  unfold askResync
  exact (heardFrom_of_only (ptnSend_only ..)).after ((heardFrom_of_only (post_only ..)).after (.upd .refl))
theorem dropActive_heard (s) : Kept heardFrom s (dropActive s) := by
  unfold dropActive
  exact .upd (.ite ((heardFrom_of_only (send_only ..)).after (.upd (.ite ((heardFrom_of_only (inverterOff_only ..)).after (.ite (.each (fun _ _ => (heardFrom_of_only (vcmFrame_only ..))) .refl) .refl)) ((heardFrom_of_only (startCoast_only ..)).after (.ite (.each (fun _ _ => (heardFrom_of_only (vcmFrame_only ..))) .refl) .refl))))) (.ite ((heardFrom_of_only (inverterOff_only ..)).after (.ite (.each (fun _ _ => (heardFrom_of_only (vcmFrame_only ..))) .refl) .refl)) ((heardFrom_of_only (startCoast_only ..)).after (.ite (.each (fun _ _ => (heardFrom_of_only (vcmFrame_only ..))) .refl) .refl))))
theorem enterStopped_heard (cause s) : Kept heardFrom s (enterStopped cause s) := by
  unfold enterStopped
  exact .upd (.each (fun _ _ => (heardFrom_of_only (armDark_only ..))) ((heardFrom_of_only (endVisits_only ..)).after ((dropActive_heard ..))))
theorem finalStop_heard (cause s) : Kept heardFrom s (finalStop cause s) := by
  unfold finalStop
  exact (enterStopped_heard ..).after ((heardFrom_of_only (post_only ..)).after ((heardFrom_of_only (releaseArms_only ..))))
theorem advanceStop_heard (s) : Kept heardFrom s (advanceStop s) := by
  unfold advanceStop
  exact .ite ((finalStop_heard ..).after (.ite (.ite ((heardFrom_of_only (startCoast_only ..)).after (.upd .refl)) (.ite ((heardFrom_of_only (spindleStop_only ..)).after (.upd .refl)) (.upd .refl))) .refl)) (.ite (.ite ((heardFrom_of_only (startCoast_only ..)).after (.upd .refl)) (.ite ((heardFrom_of_only (spindleStop_only ..)).after (.upd .refl)) (.upd .refl))) .refl)
theorem stopSequence_heard (solo cause s) : Kept heardFrom s (stopSequence solo cause s) := by
  unfold stopSequence
  refine .ite .refl ?_
  split
  · exact (finalStop_heard ..).after ((heardFrom_of_only (stopChannels_only ..)).after ((heardFrom_of_only (completeAll_only ..))))
  · exact (finalStop_heard ..).after ((heardFrom_of_only (stopChannels_only ..)).after ((heardFrom_of_only (completeAll_only ..))))
  · exact (finalStop_heard ..).after ((heardFrom_of_only (stopChannels_only ..)).after ((heardFrom_of_only (completeAll_only ..))))
  · exact (finalStop_heard ..).after ((heardFrom_of_only (stopChannels_only ..)).after ((heardFrom_of_only (completeAll_only ..))))
  · exact (finalStop_heard ..).after ((heardFrom_of_only (stopChannels_only ..)).after ((heardFrom_of_only (completeAll_only ..))))
  · exact .refl
  · exact .refl
  · exact .ite ((finalStop_heard ..).after ((dropActive_heard ..).after (.upd ((heardFrom_of_only (post_only ..)).after ((heardFrom_of_only (ptnSend_only ..)).after (.upd ((heardFrom_of_only (stopChannels_only ..)).after ((heardFrom_of_only (completeAll_only ..)).after ((heardFrom_of_only (endVisits_only ..)).after (.upd .refl)))))))))) ((advanceStop_heard ..).after (.upd ((heardFrom_of_only (dropGone_only ..)).after (.upd (.ite ((heardFrom_of_only (unloadAll_only ..)).after (.ite ((heardFrom_of_only (post_only ..)).after ((heardFrom_of_only (ptnSend_only ..)).after (.upd ((heardFrom_of_only (stopChannels_only ..)).after ((heardFrom_of_only (completeAll_only ..)).after ((heardFrom_of_only (endVisits_only ..)).after (.upd .refl))))))) (.upd ((heardFrom_of_only (stopChannels_only ..)).after ((heardFrom_of_only (completeAll_only ..)).after ((heardFrom_of_only (endVisits_only ..)).after (.upd .refl))))))) (.ite ((heardFrom_of_only (post_only ..)).after ((heardFrom_of_only (ptnSend_only ..)).after (.upd ((heardFrom_of_only (stopChannels_only ..)).after ((heardFrom_of_only (completeAll_only ..)).after ((heardFrom_of_only (endVisits_only ..)).after (.upd .refl))))))) (.upd ((heardFrom_of_only (stopChannels_only ..)).after ((heardFrom_of_only (completeAll_only ..)).after ((heardFrom_of_only (endVisits_only ..)).after (.upd .refl)))))))))))
theorem failStopInj_heard (injected cause s) : Kept heardFrom s (failStopInj injected cause s) := by
  unfold failStopInj
  exact .ite ((heardFrom_of_only (enterHold_only ..))) ((stopSequence_heard ..).after (.upd .refl))
theorem failStop_heard (cause s) : Kept heardFrom s (failStop cause s) := by
  unfold failStop
  exact (failStopInj_heard ..)
theorem ueFrame_heard (f s) : Kept heardFrom s (ueFrame f s) := by
  unfold ueFrame
  refine .ite ((heardFrom_of_only (retakeReaders_only ..)).after ((heardFrom_of_only (setFrame_only ..)).after (.upd .refl))) ?_
  refine .ite ?_ (.ite .refl (.ite ((heardFrom_of_only (ptnSend_only ..)).after (.upd .refl)) (.ite ((heardFrom_of_only (retakeReaders_only ..)).after ((heardFrom_of_only (freeEntry_only ..)))) (.ite ((heardFrom_of_only (freeEntry_only ..)).after ((heardFrom_of_only (loseReaders_only ..)))) (.ite (.ite (.upd .refl) ((heardFrom_of_only (loseDirty_only ..)).after ((heardFrom_of_only (abandonRow_only ..))))) ((heardFrom_of_only (loseDirty_only ..))))))))
  split
  · exact (heardFrom_of_only (restartRow_only ..))
  · exact .refl
theorem enterSolo_heard (s) : Kept heardFrom s (enterSolo s) := by
  unfold enterSolo
  exact .ite ((heardFrom_of_only (post_only ..)).after (.upd .refl)) .refl
theorem loseStandby_heard (s) : Kept heardFrom s (loseStandby s) := by
  unfold loseStandby
  exact .ite ((heardFrom_of_only (recheck_only ..)).after (.each (fun _ _ => (ueFrame_heard ..)) ((enterSolo_heard ..).after (.upd .refl)))) .refl
theorem becomeActive_heard (alone s) : Kept heardFrom s (becomeActive alone s) := by
  unfold becomeActive
  exact (heardFrom_of_only (enterParked_only ..)).after ((heardFrom_of_only (post_only ..)).after (.upd ((heardFrom_of_only (claimArms_only ..)).after ((heardFrom_of_only (leaveConfiguring_only ..))))))
theorem becomeStandby_heard (s) : Kept heardFrom s (becomeStandby s) := by
  unfold becomeStandby
  exact .each (fun _ _ => (heardFrom_of_only (sendDump_only ..))) ((askResync_heard ..).after ((heardFrom_of_only (post_only ..)).after (.upd ((heardFrom_of_only (leaveConfiguring_only ..))))))
theorem yieldActive_heard (s) : Kept heardFrom s (yieldActive s) := by
  unfold yieldActive
  exact (becomeStandby_heard ..).after ((dropActive_heard ..).after ((heardFrom_of_only (startCoast_only ..)).after ((heardFrom_of_only (releaseArms_only ..)).after (.ite ((heardFrom_of_only (unloadAll_only ..))) .refl))))
theorem compatStop_heard (s) : Kept heardFrom s (compatStop s) := by
  unfold compatStop
  exact (failStop_heard ..).after ((heardFrom_of_only (post_only ..)))
theorem againFromStandby_heard (differs s) : Kept heardFrom s (againFromStandby differs s) := by
  unfold againFromStandby
  exact .ite (.ite ((compatStop_heard ..).after (.upd .refl)) (.upd .refl)) ((becomeActive_heard ..).after (.upd (.ite ((heardFrom_of_only (post_only ..)).after (.upd .refl)) (.upd .refl))))
theorem arbitrated_heard (r s) : Kept heardFrom s (arbitrated r s) := by
  unfold arbitrated
  exact .ite (.ite (.ite ((compatStop_heard ..)) ((yieldActive_heard ..))) (.ite ((heardFrom_of_only (post_only ..)).after (.ite ((loseStandby_heard ..).after (.upd .refl)) (.upd .refl))) (.ite ((loseStandby_heard ..).after (.upd .refl)) (.upd .refl)))) (.ite (.ite ((againFromStandby_heard ..)) .refl) (.ite ((compatStop_heard ..)) (.ite ((becomeStandby_heard ..).after (.ite ((heardFrom_of_only (post_only ..))) .refl)) (.ite ((becomeActive_heard ..).after (.ite ((heardFrom_of_only (post_only ..))) .refl)) (.ite ((becomeStandby_heard ..).after (.ite ((heardFrom_of_only (post_only ..))) .refl)) ((becomeActive_heard ..).after (.ite ((heardFrom_of_only (post_only ..))) .refl)))))))
/-- What a stop leaves of the partner's unit: all but the outputs. -/
abbrev ptnUnstopped (s : State) : Ptn := { s.ptn with activeOut := false, hbOn := false }
theorem ptnUnstopped_of_only {m : Units} {s t : State} (h : Only m s t) (hm : m.ptn = false := by rfl) : Kept ptnUnstopped s t := ⟨by unfold ptnUnstopped; rw [h.ptn hm]⟩
theorem dropActive_unstopped (s) : Kept ptnUnstopped s (dropActive s) := by
  unfold dropActive
  exact .upd (.ite ((ptnUnstopped_of_only (send_only ..)).after (.upd (.ite ((ptnUnstopped_of_only (inverterOff_only ..)).after (.ite (.each (fun _ _ => (ptnUnstopped_of_only (vcmFrame_only ..))) .refl) .refl)) ((ptnUnstopped_of_only (startCoast_only ..)).after (.ite (.each (fun _ _ => (ptnUnstopped_of_only (vcmFrame_only ..))) .refl) .refl))))) (.ite ((ptnUnstopped_of_only (inverterOff_only ..)).after (.ite (.each (fun _ _ => (ptnUnstopped_of_only (vcmFrame_only ..))) .refl) .refl)) ((ptnUnstopped_of_only (startCoast_only ..)).after (.ite (.each (fun _ _ => (ptnUnstopped_of_only (vcmFrame_only ..))) .refl) .refl))))
theorem enterStopped_unstopped (cause s) : Kept ptnUnstopped s (enterStopped cause s) := by
  unfold enterStopped
  exact .upd (.each (fun _ _ => (ptnUnstopped_of_only (armDark_only ..))) ((ptnUnstopped_of_only (endVisits_only ..)).after ((dropActive_unstopped ..))))
theorem finalStop_unstopped (cause s) : Kept ptnUnstopped s (finalStop cause s) := by
  unfold finalStop
  exact (enterStopped_unstopped ..).after ((ptnUnstopped_of_only (post_only ..)).after ((ptnUnstopped_of_only (releaseArms_only ..))))
theorem advanceStop_unstopped (s) : Kept ptnUnstopped s (advanceStop s) := by
  unfold advanceStop
  exact .ite ((finalStop_unstopped ..).after (.ite (.ite ((ptnUnstopped_of_only (startCoast_only ..)).after (.upd .refl)) (.ite ((ptnUnstopped_of_only (spindleStop_only ..)).after (.upd .refl)) (.upd .refl))) .refl)) (.ite (.ite ((ptnUnstopped_of_only (startCoast_only ..)).after (.upd .refl)) (.ite ((ptnUnstopped_of_only (spindleStop_only ..)).after (.upd .refl)) (.upd .refl))) .refl)
theorem stopSequence_unstopped (solo cause s) : Kept ptnUnstopped s (stopSequence solo cause s) := by
  unfold stopSequence
  refine .ite .refl ?_
  split
  · exact (finalStop_unstopped ..).after ((ptnUnstopped_of_only (stopChannels_only ..)).after ((ptnUnstopped_of_only (completeAll_only ..))))
  · exact (finalStop_unstopped ..).after ((ptnUnstopped_of_only (stopChannels_only ..)).after ((ptnUnstopped_of_only (completeAll_only ..))))
  · exact (finalStop_unstopped ..).after ((ptnUnstopped_of_only (stopChannels_only ..)).after ((ptnUnstopped_of_only (completeAll_only ..))))
  · exact (finalStop_unstopped ..).after ((ptnUnstopped_of_only (stopChannels_only ..)).after ((ptnUnstopped_of_only (completeAll_only ..))))
  · exact (finalStop_unstopped ..).after ((ptnUnstopped_of_only (stopChannels_only ..)).after ((ptnUnstopped_of_only (completeAll_only ..))))
  · exact .refl
  · exact .refl
  · exact .ite ((finalStop_unstopped ..).after ((dropActive_unstopped ..).after (.upd ((ptnUnstopped_of_only (post_only ..)).after ((ptnUnstopped_of_only (ptnSend_only ..)).after (.upd ((ptnUnstopped_of_only (stopChannels_only ..)).after ((ptnUnstopped_of_only (completeAll_only ..)).after ((ptnUnstopped_of_only (endVisits_only ..)).after (.upd .refl)))))))))) ((advanceStop_unstopped ..).after (.upd ((ptnUnstopped_of_only (dropGone_only ..)).after (.upd (.ite ((ptnUnstopped_of_only (unloadAll_only ..)).after (.ite ((ptnUnstopped_of_only (post_only ..)).after ((ptnUnstopped_of_only (ptnSend_only ..)).after (.upd ((ptnUnstopped_of_only (stopChannels_only ..)).after ((ptnUnstopped_of_only (completeAll_only ..)).after ((ptnUnstopped_of_only (endVisits_only ..)).after (.upd .refl))))))) (.upd ((ptnUnstopped_of_only (stopChannels_only ..)).after ((ptnUnstopped_of_only (completeAll_only ..)).after ((ptnUnstopped_of_only (endVisits_only ..)).after (.upd .refl))))))) (.ite ((ptnUnstopped_of_only (post_only ..)).after ((ptnUnstopped_of_only (ptnSend_only ..)).after (.upd ((ptnUnstopped_of_only (stopChannels_only ..)).after ((ptnUnstopped_of_only (completeAll_only ..)).after ((ptnUnstopped_of_only (endVisits_only ..)).after (.upd .refl))))))) (.upd ((ptnUnstopped_of_only (stopChannels_only ..)).after ((ptnUnstopped_of_only (completeAll_only ..)).after ((ptnUnstopped_of_only (endVisits_only ..)).after (.upd .refl)))))))))))
theorem failStopInj_unstopped (injected cause s) : Kept ptnUnstopped s (failStopInj injected cause s) := by
  unfold failStopInj
  exact .ite ((ptnUnstopped_of_only (enterHold_only ..))) ((stopSequence_unstopped ..).after (.upd .refl))
theorem failStop_unstopped (cause s) : Kept ptnUnstopped s (failStop cause s) := by
  unfold failStop
  exact (failStopInj_unstopped ..)

end Sys2Proof.Machine
end

section
/-! What an arbitration makes of the part (R455, R667). -/

namespace Sys2Proof.Machine
set_option Elab.async false

-- What an arbitration makes of the part (R455, R667).

/-- What stands of the partner's unit but its fetches and its solo acknowledgement. -/
abbrev ptnShown (s : State) : Ptn := { s.ptn with fetches := [], solo := false }
theorem ptnShown_of_only {m : Units} {s t : State} (h : Only m s t) (hm : m.ptn = false := by rfl) : Kept ptnShown s t := ⟨by unfold ptnShown; rw [h.ptn hm]⟩
theorem ueFrame_shown (f s) : Kept ptnShown s (ueFrame f s) := by
  unfold ueFrame
  refine .ite ((ptnShown_of_only (retakeReaders_only ..)).after ((ptnShown_of_only (setFrame_only ..)).after (.upd .refl))) ?_
  refine .ite ?_ (.ite .refl (.ite ((ptnShown_of_only (ptnSend_only ..)).after (.upd .refl)) (.ite ((ptnShown_of_only (retakeReaders_only ..)).after ((ptnShown_of_only (freeEntry_only ..)))) (.ite ((ptnShown_of_only (freeEntry_only ..)).after ((ptnShown_of_only (loseReaders_only ..)))) (.ite (.ite (.upd .refl) ((ptnShown_of_only (loseDirty_only ..)).after ((ptnShown_of_only (abandonRow_only ..))))) ((ptnShown_of_only (loseDirty_only ..))))))))
  split
  · exact (ptnShown_of_only (restartRow_only ..))
  · exact .refl
theorem enterSolo_shown (s) : Kept ptnShown s (enterSolo s) := by
  unfold enterSolo
  exact .ite ((ptnShown_of_only (post_only ..)).after (.upd .refl)) .refl
/-- A standby that is lost leaves the part unsynced, and its state and role as they were (R456). -/
theorem loseStandby_shown {s : State} (hrole : s.ptn.role = 1) : ptnShown (loseStandby s) = { ptnShown s with synced := false } := by
  unfold loseStandby
  by_cases hsynced : s.ptn.synced = true
  · rw [if_pos (by rw [hrole, hsynced]; rfl)]
    have h : Kept ptnShown { s with ptn := { s.ptn with synced := false, fetches := [] } } (recheck (each (s.ptn.fetches.map (·.1)) ueFrame
        (enterSolo { s with ptn := { s.ptn with synced := false, fetches := [] } }))) :=
      (ptnShown_of_only (recheck_only ..)).after (.each (fun _ _ => ueFrame_shown ..) (enterSolo_shown _))
    exact h.view
  · rw [if_neg (by rw [Bool.and_eq_true]; exact fun h => hsynced h.2)]
    rw [Bool.not_eq_true] at hsynced
    exact (congrArg (fun b => { ptnShown s with synced := b }) hsynced.symm).symm ▸ rfl

/-- The part is active in Parked, or starts its spindle from there. -/
abbrev ActiveNow (alone : Bool) (t : State) : Prop :=
  t.ptn.role = 1 ∧ t.ptn.activeOut = true ∧ t.ptn.alone = alone ∧ (t.dev = .parked ∨ t.dev = .spinningUp)
theorem trySpinUp_dev {s : State} (h : s.dev = .parked) : (trySpinUp s).dev = .parked ∨ (trySpinUp s).dev = .spinningUp := by
  unfold trySpinUp
  split
  · unfold enterSpinningUp
    rw [(applySetpoint_only _).dev rfl, (startOffsets_only _).dev rfl]
    exact .inr rfl
  · exact .inl h
theorem becomeActive_shown (alone : Bool) (s : State) : (becomeActive alone s).ptn = { s.ptn with role := 1, activeOut := true, alone } := by
  unfold becomeActive enterParked
  rw [(trySpinUp_only _).ptn rfl]
  change (post 0x80 mPartner [] _).ptn = _
  rw [(post_only ..).ptn rfl, (claimArms_only ..).ptn rfl, (leaveConfiguring_only _).ptn rfl]
theorem becomeActive_active (alone : Bool) (s : State) : ActiveNow alone (becomeActive alone s) := by
  have hptn := becomeActive_shown alone s
  refine ⟨by rw [hptn], by rw [hptn], by rw [hptn], ?_⟩
  unfold becomeActive enterParked
  exact trySpinUp_dev rfl
theorem becomeActive_mpd (alone : Bool) (s : State) : (becomeActive alone s).mpd = s.mpd := (becomeActive_only ..).mpd rfl

/-- The part is a standby that has asked for a resync. -/
abbrev StandbyNow (t : State) : Prop :=
  t.dev = .standby ∧ t.ptn.role = 2 ∧ t.ptn.alone = false ∧ t.ptn.synced = false ∧ t.ptn.asked = true ∧ t.mpd.ledger = []
theorem askResync_ptn (s : State) : (askResync s).ptn = { s.ptn with synced := false, asked := true, ctxs := [] } := by
  unfold askResync
  rw [(ptnSend_only ..).ptn rfl, (post_only ..).ptn rfl]
theorem askResync_ledger (s : State) : (askResync s).mpd.ledger = [] := by
  unfold askResync
  rw [(ptnSend_only ..).mpd rfl, (post_only ..).mpd rfl]
/-- The unit of a part that becomes a standby. -/
theorem becomeStandby_eqs (s : State) : (becomeStandby s).dev = .standby ∧ (becomeStandby s).ptn = { s.ptn with role := 2, alone := false, synced := false, asked := true, ctxs := [] } ∧
    (becomeStandby s).mpd.ledger = [] := by
  unfold becomeStandby
  have hdumps (areas : List DumpArea) (w : State) : Only { links := true, injs := true, tx := true } w (each areas sendDump w) := .each (fun _ _ => sendDump_only ..) .refl
  dsimp only
  refine ⟨?_, ?_, ?_⟩
  · rw [(hdumps ..).dev rfl, (askResync_only _).dev rfl, (post_only ..).dev rfl]
  · rw [(hdumps ..).ptn rfl, askResync_ptn, (post_only ..).ptn rfl, (leaveConfiguring_only _).ptn rfl]
  · rw [(hdumps ..).mpd rfl, askResync_ledger]
theorem becomeStandby_standby (s : State) : StandbyNow (becomeStandby s) := by
  obtain ⟨hdev, hptn, hledger⟩ := becomeStandby_eqs s
  exact ⟨hdev, by rw [hptn], by rw [hptn], by rw [hptn], by rw [hptn], hledger⟩
theorem yieldActive_standby (s : State) : StandbyNow (yieldActive s) := by
  unfold yieldActive
  exact becomeStandby_standby _
theorem yieldActive_activeOut (s : State) : (yieldActive s).ptn.activeOut = false := by
  unfold yieldActive
  rw [(becomeStandby_eqs _).2.1]
  rfl
/-- The other part's image differs, and this one stops (Table 15.4). -/
theorem compatStop_stopped {s : State} (hdev : stopsAtOnce s.dev = true) (hstep : s.flt.stopStep = 0) : StoppedBy 0x8A (compatStop s) := by
  unfold compatStop
  exact failStop_stoppedBy (by rw [(post_only ..).dev rfl]; exact hdev) (by rw [(post_only ..).flt rfl]; exact hstep)

end Sys2Proof.Machine
end

section
/-! An arbitration record, and an arbitration that no record answers. -/

namespace Sys2Proof.Machine
set_option Elab.async false

-- An arbitration record, and an arbitration that no record answers (O45).

/-- The record has been heard. -/
def heardNow (r : ArbRec) (s : State) : State := { s with ptn := { s.ptn with heard := true, peer := some r } }
/-- A part with a settled role answers a part that is in Configuring (R455). -/
def answeredArb (r : ArbRec) (s : State) : State := if s.ptn.role ≠ 0 && r.state.toNat = devCode .configuring then sendArb s else s
theorem answeredArb_only (r : ArbRec) (s : State) : Only { links := true, injs := true, tx := true } s (answeredArb r s) := by
  unfold answeredArb
  exact .ite (sendArb_only ..) .refl
theorem answeredArb_ptn (r : ArbRec) (s : State) : (answeredArb r s).ptn = s.ptn := (answeredArb_only r s).ptn rfl
theorem arbRec_heardNow (r : ArbRec) (s : State) : arbRec (heardNow r s) = arbRec s := rfl
theorem toPartner_sendArb {s : State} (hon : ptnOn s = true) : ToPartner (.arbitrate (arbRec s)) (sendArb s) := by
  unfold sendArb
  rw [if_pos hon]
  exact toPartner_ptnSend ..
theorem toPartner_answeredArb {r : ArbRec} {s : State} (hon : ptnOn s = true) (hrole : s.ptn.role ≠ 0) (hconf : r.state.toNat = devCode .configuring) :
    ToPartner (.arbitrate (arbRec s)) (answeredArb r s) := by
  unfold answeredArb
  rw [if_pos (by rw [Bool.and_eq_true, decide_eq_true_eq, decide_eq_true_eq]; exact ⟨hrole, hconf⟩)]
  exact toPartner_sendArb hon
theorem loseStandby_way {awaited : CtlRec} (s : State) : Holding linkTab (underWay awaited) s (loseStandby s) := by
  unfold loseStandby
  exact .ite ((recheck_way ..).after (.each (fun _ _ => ueFrame_way ..) ((underWay_of_only (enterSolo_only ..)).after (.upd .refl)))) .refl
/-- The part no longer acts alone, and has no synced standby. -/
def withPartner (s : State) : State := if s.ptn.synced then loseStandby { s with ptn := { s.ptn with alone := false } } else { s with ptn := { s.ptn with alone := false } }
theorem withPartner_shown {s : State} (hrole : s.ptn.role = 1) : ptnShown (withPartner s) = { ptnShown s with alone := false, synced := false } := by
  unfold withPartner
  split
  · exact loseStandby_shown (s := { s with ptn := { s.ptn with alone := false } }) hrole
  next hsynced =>
    rw [Bool.not_eq_true] at hsynced
    unfold ptnShown
    rw [← hsynced]
theorem withPartner_dev (s : State) : (withPartner s).dev = s.dev := by
  unfold withPartner
  split
  · exact loseStandby_dev _
  · rfl
theorem withPartner_way {q : CtlRec} (s : State) : Holding linkTab (underWay q) s (withPartner s) := by
  unfold withPartner
  exact .ite ((loseStandby_way _).after (.upd .refl)) (.upd .refl)
/-- The active part stays active when it hears an arbitration that does not make it yield (R455, R667). -/
structure StaysActive (s t : State) : Prop where
  dev : t.dev = s.dev
  shown : ptnShown t = { ptnShown s with alone := false, synced := false }
  way : ∀ q, ToPartner q s → ToPartner q t
theorem arbitrated_stays {r : ArbRec} {s : State} (hrole : s.ptn.role = 1) (hkeeps : (s.ptn.alone && s.ptn.activeIn && s.pwr.role) = false) :
    StaysActive s (arbitrated r s) := by
  have heq : arbitrated r s = if r.compat ≠ s.img.compat then post 0x8A mPartner [] (withPartner s) else withPartner s := by
    unfold arbitrated
    rw [if_pos hrole, hkeeps, if_neg Bool.false_ne_true]
    simp only
    rfl
  have hpost : Only { evt := true, gov := true } (withPartner s) (arbitrated r s) := by
    rw [heq]
    exact .ite (post_only ..) .refl
  exact ⟨(hpost.dev rfl).trans (withPartner_dev s), ((ptnShown_of_only hpost).view).trans (withPartner_shown hrole),
    fun q hq => ((underWay_of_only hpost).after (withPartner_way s)).keeps hq⟩
theorem execArbitrate_eq {s : State} (hawake : awake s = true) (r : ArbRec) : exec (.arbitrate r) s = .next (
    if !ptnOn s || s.dev = .unconfigured || s.dev = .stopped then s
    else if r.role = s.pwr.role then failStop 0x8E (post 0x8E mPartner [] (heardNow r s))
    else if s.dev = .holdUp || (s.dev = .configuring && s.start.step ≠ 10) then heardNow r s
    else arbitrated r (answeredArb r (heardNow r s))) := if_pos hawake
/-- A standby that hears a partner in Configuring, with no part active (R454, R455). -/
theorem arbitrated_again {r : ArbRec} {s : State} (hdev : s.dev = .standby) (hrole : s.ptn.role = 2) (hconf : r.state.toNat = devCode .configuring) (hpeer : peerActive s r = false) :
    arbitrated r s = againFromStandby (r.compat ≠ s.img.compat) s := by
  unfold arbitrated
  rw [if_neg (by rw [hrole]; decide), if_pos hrole, if_pos (by rw [hdev, hconf, hpeer]; rfl)]
theorem arbitrated_standby {r : ArbRec} {s : State} (hrole : s.ptn.role = 2) (hnot : ¬(s.dev = .standby ∧ r.state.toNat = devCode .configuring ∧ peerActive s r = false)) :
    arbitrated r s = s := by
  unfold arbitrated
  rw [if_neg (by rw [hrole]; decide), if_pos hrole, if_neg]
  simpa [and_assoc] using hnot
theorem againFromStandby_role1 {differs : Bool} {s : State} (hrole : s.pwr.role = true) :
    againFromStandby differs s = if differs then compatStop { s with ptn := { s.ptn with withheld := false, synced := false, asked := false } }
      else { s with ptn := { s.ptn with withheld := false, synced := false, asked := false } } := by
  unfold againFromStandby
  exact if_pos hrole
theorem againFromStandby_role0 {differs : Bool} {s : State} (hrole : s.pwr.role = false) : ActiveNow false (againFromStandby differs s) ∧
    (againFromStandby differs s).ptn.synced = false ∧ (againFromStandby differs s).mpd.ledger = [] := by
  unfold againFromStandby
  rw [if_neg (by rw [hrole]; exact Bool.false_ne_true)]
  refine ⟨becomeActive_active .., ?_, ?_⟩
  · rw [becomeActive_shown]
    split
    · rw [(post_only ..).ptn rfl]
    · rfl
  · rw [becomeActive_mpd]
/-- The rows of Table 15.4 for a part whose role is open. -/
theorem arbitrated_open {r : ArbRec} {s : State} (hrole : s.ptn.role = 0) :
    (r.compat ≠ s.img.compat → peerActive s r = true ∨ s.pwr.role = true → arbitrated r s = compatStop s) ∧
    (r.compat = s.img.compat → arbitrated r s = if peerActive s r then becomeStandby s else if r.state.toNat = devCode .stopped then becomeActive false s
      else if s.pwr.role then becomeStandby s else becomeActive false s) := by
  unfold arbitrated
  rw [if_neg (by rw [hrole]; decide), if_neg (by rw [hrole]; decide)]
  refine ⟨fun hdiffers hwho => if_pos ?_, fun hsame => ?_⟩
  · simpa [hdiffers] using hwho
  · simp [hsame]
theorem arbitrated_yields {r : ArbRec} {s : State} (hrole : s.ptn.role = 1) (hyields : (s.ptn.alone && s.ptn.activeIn && s.pwr.role) = true) (hsame : r.compat = s.img.compat) :
    arbitrated r s = yieldActive s := by
  unfold arbitrated
  rw [if_pos hrole, if_pos hyields, if_neg (by simp [hsame])]

end Sys2Proof.Machine
end

section
/-! Arbitration settles the role (O45). -/

namespace Sys2Proof.Machine
set_option Elab.async false

-- O45.

theorem heardFrom_step {r : ArbRec} {s t : State} (h : Kept heardFrom (heardNow r s) t) : t.ptn.peer = some r ∧ t.ptn.heard = true :=
  ⟨congrArg Prod.fst h.view, congrArg Prod.snd h.view⟩
theorem answeredArb_heard (r : ArbRec) (s : State) : Kept heardFrom s (answeredArb r s) := heardFrom_of_only (answeredArb_only r s)
/-- What the arbitration works on differs from the state before in what was heard alone. -/
structure HeardOnly (r : ArbRec) (s u : State) : Prop where
  dev : u.dev = s.dev
  ptn : u.ptn = { s.ptn with heard := true, peer := some r }
  pwr : u.pwr = s.pwr
  img : u.img = s.img
  flt : u.flt = s.flt
theorem answeredArb_heardOnly (r : ArbRec) (s : State) : HeardOnly r s (answeredArb r (heardNow r s)) :=
  have h := answeredArb_only r (heardNow r s)
  ⟨h.dev rfl, h.ptn rfl, h.pwr rfl, h.img rfl, h.flt rfl⟩
theorem HeardOnly.peerActive {r : ArbRec} {s u : State} (h : HeardOnly r s u) : peerActive u r = peerActive s r := by
  unfold Machine.peerActive
  rw [h.ptn]
/-- A stop by a cause, in the words of the statement. -/
theorem StoppedBy.stopped {cause : BitVec 8} {t : State} (h : StoppedBy cause t) : t.dev = .stopped ∧ t.hop.stopCause = cause :=
  ⟨h.dev, (admission_iff.1 h.admission).2⟩
section
variable {r : ArbRec} {s u : State}
theorem HeardOnly.differs (h : HeardOnly r s u) (hdev : stopsAtOnce s.dev = true) (hrole : s.ptn.role = 0) (hstep : s.flt.stopStep = 0) (hdiffers : r.compat ≠ s.img.compat)
    (hwho : Machine.peerActive s r = true ∨ s.pwr.role = true) : (arbitrated r u).dev = .stopped ∧ (arbitrated r u).hop.stopCause = 0x8A := by
  rw [(arbitrated_open (by rw [h.ptn]; exact hrole)).1 (by rw [h.img]; exact hdiffers) (by rw [h.peerActive, h.pwr]; exact hwho)]
  exact (compatStop_stopped (by rw [h.dev]; exact hdev) (by rw [h.flt]; exact hstep)).stopped
theorem HeardOnly.same (h : HeardOnly r s u) (hrole : s.ptn.role = 0) (hsame : r.compat = s.img.compat) :
    arbitrated r u = if Machine.peerActive s r then becomeStandby u else if r.state.toNat = devCode .stopped then becomeActive false u
      else if s.pwr.role then becomeStandby u else becomeActive false u := by
  rw [(arbitrated_open (by rw [h.ptn]; exact hrole)).2 (by rw [h.img]; exact hsame), h.peerActive, h.pwr]
theorem HeardOnly.yields (h : HeardOnly r s u) (hrole : s.ptn.role = 1) (halone : s.ptn.alone = true) (hin : s.ptn.activeIn = true) (hpwr : s.pwr.role = true) (hsame : r.compat = s.img.compat) :
    StandbyNow (arbitrated r u) ∧ (arbitrated r u).ptn.activeOut = false := by
  rw [arbitrated_yields (by rw [h.ptn]; exact hrole) (by rw [h.ptn, h.pwr, halone, hin, hpwr]; rfl) (by rw [h.img]; exact hsame)]
  exact ⟨yieldActive_standby u, yieldActive_activeOut u⟩
theorem HeardOnly.stays (h : HeardOnly r s u) (hrole : s.ptn.role = 1) (hnot : s.ptn.alone = false ∨ s.ptn.activeIn = false ∨ s.pwr.role = false) :
    (arbitrated r u).dev = s.dev ∧ (arbitrated r u).ptn.role = 1 ∧ (arbitrated r u).ptn.activeOut = s.ptn.activeOut ∧ (arbitrated r u).ptn.alone = false ∧
      (arbitrated r u).ptn.synced = false ∧ ∀ q, ToPartner q u → ToPartner q (arbitrated r u) := by
  have hstays : StaysActive u (arbitrated r u) := arbitrated_stays (by rw [h.ptn]; exact hrole) (by
    rw [h.ptn, h.pwr]
    rcases hnot with hn | hn | hn <;> simp [hn])
  have hfield {β : Type} (f : Ptn → β) : f (ptnShown (arbitrated r u)) = f { ptnShown u with alone := false, synced := false } := congrArg f hstays.shown
  exact ⟨hstays.dev.trans h.dev, (hfield Ptn.role).trans ((congrArg Ptn.role h.ptn).trans hrole), (hfield Ptn.activeOut).trans (congrArg (·.activeOut) h.ptn : u.ptn.activeOut = s.ptn.activeOut),
    hfield Ptn.alone, hfield Ptn.synced, hstays.way⟩
theorem HeardOnly.idle (h : HeardOnly r s u) (hrole : s.ptn.role = 2) (hnot : ¬(s.dev = .standby ∧ r.state.toNat = devCode .configuring ∧ Machine.peerActive s r = false)) :
    arbitrated r u = u := arbitrated_standby (by rw [h.ptn]; exact hrole) (by rw [h.dev, h.peerActive]; exact hnot)
theorem HeardOnly.again (h : HeardOnly r s u) (hrole : s.ptn.role = 2) (hagain : s.dev = .standby ∧ r.state.toNat = devCode .configuring ∧ Machine.peerActive s r = false) :
    arbitrated r u = againFromStandby (r.compat ≠ s.img.compat) u := by
  obtain ⟨hdev, hconf, hpeer⟩ := hagain
  rw [arbitrated_again (by rw [h.dev]; exact hdev) (by rw [h.ptn]; exact hrole) hconf (by rw [h.peerActive]; exact hpeer), h.img]
theorem HeardOnly.again_role1 (h : HeardOnly r s u) (hdev : s.dev = .standby) (hrole : s.ptn.role = 2) (hpwr : s.pwr.role = true) :
    let t := againFromStandby (r.compat ≠ s.img.compat) u
    t.ptn.synced = false ∧ (r.compat = s.img.compat → t.dev = .standby ∧ t.ptn.role = 2 ∧ t.ptn.withheld = false) ∧
      (r.compat ≠ s.img.compat → s.flt.stopStep = 0 → t.dev = .stopped ∧ t.hop.stopCause = 0x8A) := by
  intro t
  have ht : t = _ := againFromStandby_role1 (by rw [h.pwr]; exact hpwr)
  by_cases hdiffers : r.compat = s.img.compat
  · rw [if_neg (by simp [hdiffers])] at ht
    rw [ht]
    exact ⟨rfl, fun _ => ⟨h.dev.trans hdev, (congrArg Ptn.role h.ptn).trans hrole, rfl⟩, fun hne => absurd hdiffers hne⟩
  · rw [if_pos (by simp [hdiffers])] at ht
    rw [ht]
    refine ⟨?_, fun heq => absurd heq hdiffers, fun _ hstep => (compatStop_stopped ?_ ?_).stopped⟩
    · exact congrArg Ptn.synced ((failStop_unstopped ..).after (ptnUnstopped_of_only (post_only ..))).view
    · exact stopsAtOnce_iff.2 (by simp [h.dev, hdev])
    · exact (congrArg Flt.stopStep h.flt).trans hstep
end
/-- O45's first part, an arbitration record (R455, R643, R667, Table 15.4). -/
theorem arbitrate_settles (s : State) (hawake : awake s = true) (r : ArbRec) : Completes (.arbitrate r) s fun t =>
    let takes : Prop := ptnOn s = true ∧ s.dev ≠ .unconfigured ∧ s.dev ≠ .stopped
    let settles : Prop := takes ∧ r.role ≠ s.pwr.role ∧ s.dev = .configuring ∧ s.start.step = 10 ∧ s.ptn.role = 0 ∧ s.flt.stopStep = 0
    let differs : Prop := r.compat ≠ s.img.compat
    (¬ takes → t = s) ∧ (takes → t.ptn.peer = some r ∧ t.ptn.heard = true) ∧
    (takes → r.role = s.pwr.role → s.dev = .configuring ∨ s.dev = .parked ∨ s.dev = .standby → s.flt.stopStep = 0 → t.dev = .stopped ∧ t.hop.stopCause = 0x8E) ∧
    (takes → r.role ≠ s.pwr.role → s.dev = .holdUp ∨ (s.dev = .configuring ∧ s.start.step ≠ 10) → t = { s with ptn := { s.ptn with heard := true, peer := some r } }) ∧
    (settles → differs → peerActive s r = true ∨ s.pwr.role = true → t.dev = .stopped ∧ t.hop.stopCause = 0x8A) ∧
    (settles → ¬ differs → peerActive s r = true → StandbyNow t) ∧
    (settles → ¬ differs → peerActive s r = false → r.state.toNat = devCode .stopped → ActiveNow false t) ∧
    (settles → ¬ differs → peerActive s r = false → r.state.toNat ≠ devCode .stopped → (s.pwr.role = false → ActiveNow false t) ∧ (s.pwr.role = true → StandbyNow t)) ∧
    (takes → r.role ≠ s.pwr.role → s.dev ≠ .configuring → s.dev ≠ .holdUp → s.ptn.role = 1 → s.ptn.alone = true → s.ptn.activeIn = true → s.pwr.role = true → ¬ differs →
      StandbyNow t ∧ t.ptn.activeOut = false) ∧
    (takes → r.role ≠ s.pwr.role → s.dev ≠ .configuring → s.dev ≠ .holdUp → s.ptn.role = 1 → s.ptn.alone = false ∨ s.ptn.activeIn = false ∨ s.pwr.role = false →
      t.dev = s.dev ∧ t.ptn.role = 1 ∧ t.ptn.activeOut = s.ptn.activeOut ∧ t.ptn.alone = false ∧ t.ptn.synced = false ∧ (r.state.toNat = devCode .configuring → ToPartner (.arbitrate (arbRec s)) t)) ∧
    (takes → r.role ≠ s.pwr.role → s.dev ≠ .configuring → s.dev ≠ .holdUp → s.ptn.role = 2 →
      let again : Prop := s.dev = .standby ∧ r.state.toNat = devCode .configuring ∧ peerActive s r = false
      (¬ again → t.dev = s.dev ∧ t.ptn.role = 2 ∧ t.ptn.synced = s.ptn.synced) ∧
      (again → s.pwr.role = true → t.ptn.synced = false ∧ (¬ differs → t.dev = .standby ∧ t.ptn.role = 2 ∧ t.ptn.withheld = false) ∧
        (differs → s.flt.stopStep = 0 → t.dev = .stopped ∧ t.hop.stopCause = 0x8A)) ∧
      (again → s.pwr.role = false → ActiveNow false t ∧ t.ptn.synced = false ∧ t.mpd.ledger = [])) := by
  refine Completes.live (execArbitrate_eq hawake r) fun t ht => ?_
  extract_lets takes settles differs
  by_cases htakes : takes
  case neg =>
    have hidle : (!ptnOn s || decide (s.dev = .unconfigured) || decide (s.dev = .stopped)) = true := by
      by_contra h
      exact htakes (by simpa [takes, and_assoc] using h)
    rw [if_pos hidle] at ht
    exact ⟨fun _ => ht, fun h => absurd h htakes, fun h => absurd h htakes, fun h => absurd h htakes, fun h => absurd h.1 htakes, fun h => absurd h.1 htakes,
      fun h => absurd h.1 htakes, fun h => absurd h.1 htakes, fun h => absurd h htakes, fun h => absurd h htakes, fun h => absurd h htakes⟩
  have hon : ptnOn s = true := htakes.1
  have hgo : ¬((!ptnOn s || decide (s.dev = .unconfigured) || decide (s.dev = .stopped)) = true) := by
    simpa [takes, and_assoc] using htakes
  rw [if_neg hgo] at ht
  by_cases hsame : r.role = s.pwr.role
  case pos =>
    rw [if_pos hsame] at ht
    refine ⟨fun h => absurd htakes h, fun _ => ?_, fun _ _ hdev hstep => ?_, fun _ hne => absurd hsame hne, fun h => absurd hsame h.2.1, fun h => absurd hsame h.2.1,
      fun h => absurd hsame h.2.1, fun h => absurd hsame h.2.1, fun _ hne => absurd hsame hne, fun _ hne => absurd hsame hne, fun _ hne => absurd hsame hne⟩
    · rw [ht]
      exact heardFrom_step ((failStop_heard ..).after (heardFrom_of_only (post_only ..)))
    · rw [ht]
      refine (failStop_stoppedBy ?_ ?_).stopped
      · rw [(post_only ..).dev rfl]
        exact stopsAtOnce_iff.2 (by rcases hdev with h | h | h <;> simp [heardNow, h])
      · rw [(post_only ..).flt rfl]
        exact hstep
  rw [if_neg hsame] at ht
  by_cases hstill : s.dev = .holdUp ∨ (s.dev = .configuring ∧ s.start.step ≠ 10)
  case pos =>
    rw [if_pos (by simpa using hstill)] at ht
    have hopen (hdev : s.dev = .configuring) (hstep : s.start.step = 10) : False := by
      simp [hdev, hstep] at hstill
    have hgone (hconf : s.dev ≠ .configuring) (hup : s.dev ≠ .holdUp) : False := hstill.elim hup fun h => hconf h.1
    exact ⟨fun h => absurd htakes h, fun _ => by rw [ht]; exact ⟨rfl, rfl⟩, fun _ h => absurd h hsame, fun _ _ _ => ht, fun ⟨_, _, hdev, hstep, _⟩ => (hopen hdev hstep).elim,
      fun ⟨_, _, hdev, hstep, _⟩ => (hopen hdev hstep).elim, fun ⟨_, _, hdev, hstep, _⟩ => (hopen hdev hstep).elim, fun ⟨_, _, hdev, hstep, _⟩ => (hopen hdev hstep).elim,
      fun _ _ hconf hup => (hgone hconf hup).elim, fun _ _ hconf hup => (hgone hconf hup).elim, fun _ _ hconf hup => (hgone hconf hup).elim⟩
  rw [if_neg (by simpa using hstill)] at ht
  have hu := answeredArb_heardOnly r s
  have hheard := heardFrom_step ((arbitrated_heard r (answeredArb r (heardNow r s))).after (answeredArb_heard ..))
  have hanswer (hrole : s.ptn.role ≠ 0) (hconf : r.state.toNat = devCode .configuring) : ToPartner (.arbitrate (arbRec s)) (answeredArb r (heardNow r s)) :=
    toPartner_answeredArb (s := heardNow r s) hon hrole hconf
  rw [← ht] at hheard
  generalize answeredArb r (heardNow r s) = u at hu hanswer ht
  subst ht
  refine ⟨fun h => absurd htakes h, fun _ => hheard, fun _ h => absurd h hsame, fun _ _ h => absurd h hstill, ?_, ?_, ?_, ?_, ?_, ?_, ?_⟩
  · exact fun ⟨_, _, hdev, _, hrole, hstep⟩ hdiffers hwho => hu.differs (stopsAtOnce_iff.2 (by simp [hdev])) hrole hstep hdiffers hwho
  · intro ⟨_, _, _, _, hrole, _⟩ hmatch hpeer
    rw [hu.same hrole (not_not.1 hmatch), if_pos hpeer]
    exact becomeStandby_standby u
  · intro ⟨_, _, _, _, hrole, _⟩ hmatch hpeer hstopped
    rw [hu.same hrole (not_not.1 hmatch), if_neg (by simp [hpeer]), if_pos hstopped]
    exact becomeActive_active ..
  · intro ⟨_, _, _, _, hrole, _⟩ hmatch hpeer hstopped
    rw [hu.same hrole (not_not.1 hmatch), if_neg (by simp [hpeer]), if_neg hstopped]
    refine ⟨fun hpwr => ?_, fun hpwr => ?_⟩
    · rw [if_neg (by simp [hpwr])]
      exact becomeActive_active ..
    · rw [if_pos hpwr]
      exact becomeStandby_standby u
  · exact fun _ _ _ _ hrole halone hin hpwr hmatch => hu.yields hrole halone hin hpwr (not_not.1 hmatch)
  · intro _ _ _ _ hrole hnot
    obtain ⟨hdev, hrole', hout, halone, hsynced, hway⟩ := hu.stays hrole hnot
    exact ⟨hdev, hrole', hout, halone, hsynced, fun hconf => hway _ (hanswer (by rw [hrole]; decide) hconf)⟩
  · intro _ _ _ _ hrole
    refine ⟨fun hnot => ?_, fun hagain hpwr => ?_, fun hagain hpwr => ?_⟩
    · rw [hu.idle hrole hnot]
      exact ⟨hu.dev, (congrArg Ptn.role hu.ptn).trans hrole, (congrArg (·.synced) hu.ptn : u.ptn.synced = s.ptn.synced)⟩
    · rw [hu.again hrole hagain]
      obtain ⟨hsynced, hstays, hstops⟩ := hu.again_role1 hagain.1 hrole hpwr
      exact ⟨hsynced, fun hmatch => hstays (not_not.1 hmatch), hstops⟩
    · rw [hu.again hrole hagain]
      exact againFromStandby_role0 (by rw [hu.pwr]; exact hpwr)
/-- Settles O45: the rows of Table 15.4 in their order, over a part that has only heard the record, and may have answered it. -/
theorem arbitrationSettlesTheRole : Obligations.ArbitrationSettlesTheRole := by
  unfold Obligations.ArbitrationSettlesTheRole
  intro s hawake active standby
  refine ⟨arbitrate_settles s hawake, ?_, ?_⟩
  · refine Completes.live (if_pos hawake) fun t ht => ?_
    extract_lets due
    by_cases hdue : due
    · rw [if_pos (by simpa [due, and_assoc] using hdue)] at ht
      subst ht
      exact ⟨fun h => absurd hdue h, fun _ => becomeActive_active true s⟩
    · rw [if_neg (by simpa [due, and_assoc] using hdue)] at ht
      exact ⟨fun _ => ht, fun h => absurd h hdue⟩
  · refine Completes.live (if_pos hawake) fun t ht => ?_
    extract_lets due
    by_cases hsends : s.dev = .stopped ∧ linkUp s 2 = true
    · rw [if_pos (by simpa using hsends)] at ht
      subst ht
      refine ⟨fun hnot => if_neg fun hon => hnot ⟨hsends.1, hsends.2, hon⟩, fun hdue => toPartner_sendArb hdue.2.2⟩
    · rw [if_neg (by simpa using hsends)] at ht
      exact ⟨fun _ => ht, fun hdue => absurd ⟨hdue.1, hdue.2.1⟩ hsends⟩

end Sys2Proof.Machine
end

section
/-! A takeover (R305, R458). -/

namespace Sys2Proof.Machine
set_option Elab.async false

-- A takeover (R305, R458).

/-- What stands of the partner's unit but the contexts and the solo acknowledgement. -/
abbrev ptnServed (s : State) : Ptn := { s.ptn with ctxs := [], solo := false }
theorem ptnServed_of_only {m : Units} {s t : State} (h : Only m s t) (hm : m.ptn = false := by rfl) : Kept ptnServed s t := ⟨by unfold ptnServed; rw [h.ptn hm]⟩
theorem takeoverCompletions_served (p s) : Kept ptnServed s (takeoverCompletions p s) := by
  unfold takeoverCompletions
  exact .ite (.each (fun _ _ => .ite .refl ((ptnServed_of_only (modHopPort_only ..)).after (.upd .refl))) (.upd .refl)) .refl
theorem enterSolo_served (s) : Kept ptnServed s (enterSolo s) := by
  unfold enterSolo
  exact .ite ((ptnServed_of_only (post_only ..)).after (.upd .refl)) .refl
theorem alkUp_modAlk {s : State} {b : Nat} {f : ArmLink → ArmLink} (hf : ∀ k, (f k).link = k.link) (a : Nat) : alkUp (modAlk s b f) a = alkUp s a := by
  unfold alkUp
  by_cases h : a = b
  · subst h
    rw [getAlk_modAlk, hf]
  · rw [getAlk_modAlk_other _ _ h]
theorem alkUp_alkSend (b type head : Nat) (imm : Bool) (apply : Nat) (payload : List Word) (s : State) (a : Nat) : alkUp (alkSend b type head imm apply payload s) a = alkUp s a :=
  (alkSend_linkStays a b type head imm apply payload s).alkUp
theorem alkUp_claimArms (force : Bool) (s : State) (a : Nat) : alkUp (claimArms force s) a = alkUp s a := by
  unfold claimArms
  refine each_proj (alkUp · a) _ _ s fun b t => ?_
  unfold sendTelemSet sendTimeSet sendClaim
  rw [alkUp_alkSend, alkUp_alkSend]
  split
  · rw [alkUp_alkSend]
    refine alkUp_modAlk ?_ a
    exact fun _ => rfl
  · rfl
/-- The mirror's ledger once it is the write cache (R305, log entry 62). -/
def adopted (planned : Bool) (ledger : Tab LedgerEntry) : Tab LedgerEntry :=
  let landed := ledger.filter fun e => landedEntry e.2
  (landed.filter fun e => landed.all fun x => !(x.2.lba == e.2.lba && seqLt e.2.vseq x.2.vseq)).map fun e =>
    (e.1, { e.2 with state := 1, acked := landed.any fun x => x.2.lba == e.2.lba && x.2.acked, mirrored := planned })
theorem adoptMirror_ledger (planned : Bool) (s : State) : (adoptMirror planned s).mpd.ledger = adopted planned s.mpd.ledger := by
  have hall (p : Nat × LedgerEntry → Bool) (xs : Tab LedgerEntry) : (!xs.any p) = xs.all fun x => !p x := List.not_any_eq_all_not ..
  unfold adoptMirror adopted
  simp only [List.filter_filter, List.any_filter, List.all_filter, Bool.and_assoc, hall, Bool.not_and]
  refine congrArg (List.map _) (List.filter_congr fun e _ => ?_)
  rw [Bool.and_comm]
/-- The part's own unit at the start of a takeover. -/
def takeoverBegun (planned : Bool) (s : State) : State :=
  { s with
    dev := .takeover,
    ptn := { s.ptn with
      role := 1, activeOut := true, synced := planned, planned, takeoverAt := some (now s), resumed := false, seen := 0, solo := false, requested := false, released := false,
      takeovers := if planned then s.ptn.takeovers else satInc 16 s.ptn.takeovers, ctxs := if planned then [] else s.ptn.ctxs } }
/-- The event of a takeover, and the claims of every arm. -/
def takeoverClaims (planned : Bool) (s : State) : State := claimArms (!planned) (if planned then takeoverBegun planned s else post 0x83 mPartner [] (takeoverBegun planned s))
/-- The steps of a takeover once the mirror is the write cache: the plan, the completions and the spindle. -/
def takeoverServes (planned : Bool) (s : State) : State :=
  let s := if s.fan.planDigest = s.img.digest then useStore s else s
  let s := each [0, 1] (fun p s => if (getLink s p).session = 1 then takeoverCompletions p s else s) s
  let s := if planned then s else enterSolo s
  startOffsets { s with spc := { s.spc with startAt := now s, pausedFor := 0, fromRest := false, restart := false, stopping := false, unmeasured := true } }
theorem takeover_eq (planned : Bool) (s : State) : takeover planned s = if (armList (takeoverClaims planned s)).any (fun a => !alkUp (takeoverClaims planned s) a)
    then failStop 0x7E (takeoverClaims planned s) else takeoverServes planned (adoptMirror planned (takeoverClaims planned s)) := rfl
theorem takeoverClaims_only (planned : Bool) (s : State) : Only { evt := true, alks := true, gov := true, tx := true } (takeoverBegun planned s) (takeoverClaims planned s) := by
  unfold takeoverClaims
  exact ((claimArms_only ..).after (.ite .refl (post_only ..).mono))
theorem takeoverServes_only (planned : Bool) (s : State) :
    Only { evt := true, ptn := true, islands := true, img := true, pwr := true, gov := true, hop := true, slu := true, spn := true, spc := true, tx := true } s (takeoverServes planned s) := by
  unfold takeoverServes
  extract_lets u v w
  have hu : Only { islands := true, img := true, pwr := true, gov := true } s u := .ite (useStore_only ..).mono .refl
  have hv : Only { ptn := true, hop := true } u v := .each (fun _ _ => .ite (takeoverCompletions_only ..) .refl) .refl
  have hw : Only { evt := true, ptn := true, gov := true } v w := .ite .refl (enterSolo_only ..)
  exact (startOffsets_only ..).after (.upd (hw.after (hv.after hu.mono)))
theorem takeoverServes_served (planned : Bool) (s : State) : Kept ptnServed s (takeoverServes planned s) := by
  unfold takeoverServes
  extract_lets u v w
  have hu : Kept ptnServed s u := .ite (ptnServed_of_only (useStore_only ..)) .refl
  have hv : Kept ptnServed u v := .each (fun _ _ => .ite (takeoverCompletions_served ..) .refl) .refl
  have hw : Kept ptnServed v w := .ite .refl (enterSolo_served _)
  exact (ptnServed_of_only (startOffsets_only ..)).after (.upd (hw.after (hv.after hu)))
/-- What was seen of the partner's heartbeat and of ACTIVE_IN, and the reason of a handover. -/
abbrev heartView (s : State) : Bool × Nat × Nat × Bool × BitVec 8 := (s.ptn.hbInOk, s.ptn.hbGap, s.ptn.hbGaps, s.ptn.activeIn, s.ptn.handoverReason)
theorem heart_of_unstopped {s t : State} (h : Kept ptnUnstopped s t) : Kept heartView s t := ⟨(congrArg (fun p : Ptn => (p.hbInOk, p.hbGap, p.hbGaps, p.activeIn, p.handoverReason)) h.view :)⟩
theorem heart_of_served {s t : State} (h : Kept ptnServed s t) : Kept heartView s t := ⟨(congrArg (fun p : Ptn => (p.hbInOk, p.hbGap, p.hbGaps, p.activeIn, p.handoverReason)) h.view :)⟩
theorem heart_of_shown {s t : State} (h : Kept ptnShown s t) : Kept heartView s t := ⟨(congrArg (fun p : Ptn => (p.hbInOk, p.hbGap, p.hbGaps, p.activeIn, p.handoverReason)) h.view :)⟩
theorem heart_of_only {m : Units} {s t : State} (h : Only m s t) (hm : m.ptn = false := by rfl) : Kept heartView s t := ⟨by unfold heartView; rw [h.ptn hm]⟩
/-- What a takeover leaves (R458): a stop where an arm link is down, else the mirror as the write cache. -/
structure TookOver (s : State) (planned : Bool) (t : State) : Prop where
  armDown : (∃ a ∈ armList s, alkUp s a = false) → s.flt.stopStep = 0 → t.hop.closed = true ∧ t.hop.stopCause = 0x7E
  dev : (∀ a ∈ armList s, alkUp s a = true) → t.dev = .takeover
  served : (∀ a ∈ armList s, alkUp s a = true) → ptnServed t = ptnServed (takeoverBegun planned s)
  rows : (∀ a ∈ armList s, alkUp s a = true) → t.rows = []
  ledger : (∀ a ∈ armList s, alkUp s a = true) → t.mpd.ledger = adopted planned s.mpd.ledger
  heart : Kept heartView s t
theorem takeoverClaims_links (planned : Bool) (s : State) : ((armList (takeoverClaims planned s)).any fun a => !alkUp (takeoverClaims planned s) a) = (armList s).any fun a => !alkUp s a := by
  have hup (a : Nat) : alkUp (takeoverClaims planned s) a = alkUp s a := by
    unfold takeoverClaims
    rw [alkUp_claimArms]
    split
    · rfl
    · unfold alkUp
      rw [getAlk_of_only a (post_only ..)]
      rfl
  have harms : armList (takeoverClaims planned s) = armList s := by
    unfold armList
    rw [(takeoverClaims_only planned s).img rfl]
    rfl
  rw [harms]
  simp only [hup]
/-- A takeover with every arm link up. -/
theorem takeover_serves {planned : Bool} {s : State} (hup : ∀ a ∈ armList s, alkUp s a = true) :
    takeover planned s = takeoverServes planned (adoptMirror planned (takeoverClaims planned s)) := by
  rw [takeover_eq, takeoverClaims_links, if_neg]
  simpa using hup
theorem takeover_took (planned : Bool) (s : State) : TookOver s planned (takeover planned s) := by
  have hclaims := takeoverClaims_only planned s
  refine ⟨fun hdown hstep => ?_, fun hup => ?_, fun hup => ?_, fun hup => ?_, fun hup => ?_, ?_⟩
  · rw [takeover_eq, takeoverClaims_links, if_pos (by simpa using hdown)]
    obtain ⟨hclosed, hcause, -⟩ := failStop_begun (cause := 0x7E) (s := takeoverClaims planned s) (by rw [hclaims.dev rfl]; rfl) (by rw [hclaims.flt rfl]; exact hstep)
    exact ⟨hclosed, hcause⟩
  · rw [takeover_serves hup, (takeoverServes_only ..).dev rfl, (adoptMirror_only ..).dev rfl, hclaims.dev rfl]
    rfl
  · rw [takeover_serves hup, (takeoverServes_served ..).view, (ptnServed_of_only (adoptMirror_only ..)).view, (ptnServed_of_only hclaims).view]
  · rw [takeover_serves hup, (takeoverServes_only ..).rows rfl]
    rfl
  · rw [takeover_serves hup, (takeoverServes_only ..).mpd rfl, adoptMirror_ledger, hclaims.mpd rfl]
    rfl
  · have hbegun : Kept heartView s (takeoverBegun planned s) := ⟨rfl⟩
    have hbefore : Kept heartView s (takeoverClaims planned s) := (heart_of_only hclaims).after hbegun
    rw [takeover_eq]
    exact .ite ((heart_of_unstopped (failStop_unstopped ..)).after hbefore)
      ((heart_of_served (takeoverServes_served ..)).after ((heart_of_only (adoptMirror_only ..)).after hbefore))

end Sys2Proof.Machine
end

section
/-! What a standby concludes from its partner's signals (R452, R454). -/

namespace Sys2Proof.Machine
set_option Elab.async false

-- What a standby concludes from its partner's signals (R452, R454).

/-- A takeover in the words of O44. -/
abbrev Took (s : State) (planned : Bool) (t : State) : Prop :=
  ((∃ a ∈ armList s, alkUp s a = false) → s.flt.stopStep = 0 → t.hop.closed = true ∧ t.hop.stopCause = 0x7E) ∧
  ((∀ a ∈ armList s, alkUp s a = true) → t.dev = .takeover ∧ t.ptn.role = 1 ∧ t.ptn.activeOut = true ∧ t.ptn.synced = planned ∧ t.ptn.resumed = false ∧ t.rows = [] ∧
    t.ptn.takeovers = (if planned then s.ptn.takeovers else satInc 16 s.ptn.takeovers) ∧ t.mpd.ledger = adopted planned s.mpd.ledger)
theorem TookOver.took {planned : Bool} {s x t : State} (h : TookOver x planned t) (hx : Only { evt := true, ptn := true, gov := true } s x) (htimes : x.ptn.takeovers = s.ptn.takeovers) :
    Took s planned t := by
  have harms : armList x = armList s := by
    unfold armList
    rw [hx.img rfl]
  have hup (a : Nat) : alkUp x a = alkUp s a := by
    unfold alkUp
    rw [getAlk_of_only a hx]
  have hmpd := hx.mpd rfl
  have hflt := hx.flt rfl
  obtain ⟨hdown, hdev, hserved, hrows, hledger, -⟩ := h
  simp only [harms, hup, hmpd, hflt] at hdown hdev hserved hrows hledger
  refine ⟨hdown, fun hall => ?_⟩
  have hfield {β : Type} (f : Ptn → β) : f (ptnServed t) = f (ptnServed (takeoverBegun planned x)) := congrArg f (hserved hall)
  exact ⟨hdev hall, hfield (·.role), hfield (·.activeOut), hfield (·.synced), hfield (·.resumed), hrows hall, (hfield (·.takeovers)).trans (by rw [← htimes]; rfl), hledger hall⟩
/-- The part stays what it is. -/
abbrev StaysAsIs (s t : State) : Prop := t.dev = s.dev ∧ t.ptn.role = s.ptn.role ∧ t.ptn.activeOut = s.ptn.activeOut ∧ t.mpd = s.mpd
/-- A standby may take over once its partner has gone (R454). -/
abbrev MayTake (s : State) : Prop := s.dev = .standby ∧ s.ptn.role = 2 ∧ s.ptn.synced = true ∧ s.ptn.withheld = false
/-- `x` is `s` but for the partner's signals as they were last seen. -/
structure SeenOnly (s x : State) : Prop where
  only : Only { evt := true, ptn := true, gov := true } s x
  role : x.ptn.role = s.ptn.role
  activeOut : x.ptn.activeOut = s.ptn.activeOut
  synced : x.ptn.synced = s.ptn.synced
  withheld : x.ptn.withheld = s.ptn.withheld
  takeovers : x.ptn.takeovers = s.ptn.takeovers
theorem SeenOnly.stays {s x : State} (h : SeenOnly s x) : StaysAsIs s x := ⟨h.only.dev rfl, h.role, h.activeOut, h.only.mpd rfl⟩
theorem SeenOnly.posted {s x : State} (h : SeenOnly s x) (code master : BitVec 8) (fs : List PayField) : SeenOnly s (post code master fs x) := by
  have hptn : (post code master fs x).ptn = x.ptn := (post_only ..).ptn rfl
  exact ⟨(post_only ..).after h.only.mono, by rw [hptn, h.role], by rw [hptn, h.activeOut], by rw [hptn, h.synced], by rw [hptn, h.withheld], by rw [hptn, h.takeovers]⟩
/-- A standby whose partner has gone (R454, R458). -/
theorem SeenOnly.tried {s x : State} (h : SeenOnly s x) : (MayTake s → x.ptn.activeIn = false → Took s false (tryTakeover x)) ∧ (¬(MayTake s ∧ x.ptn.activeIn = false) → StaysAsIs s (tryTakeover x)) := by
  have hdev := h.only.dev rfl
  refine ⟨fun ⟨hstandby, hrole, hsynced, hheld⟩ hin => ?_, fun hnot => ?_⟩
  · have htakes : tryTakeover x = takeover false x := by
      unfold tryTakeover
      rw [hdev, h.role, h.synced, h.withheld, hstandby, hrole, hsynced, hheld, hin]
      rfl
    rw [htakes]
    exact (takeover_took false x).took h.only h.takeovers
  · have hstays : tryTakeover x = x ∨ tryTakeover x = post 0x8B mPartner [] x := by
      unfold tryTakeover
      split
      · exact .inl rfl
      next hstandby =>
        rw [if_neg]
        · exact .inr rfl
        · intro hgo
          simp [hdev, h.role] at hstandby
          simp [h.synced, h.withheld] at hgo
          exact hnot ⟨⟨hstandby.1, hstandby.2, hgo.1.1, hgo.2⟩, hgo.1.2⟩
    obtain hsame | hevent := hstays
    · rw [hsame]
      exact h.stays
    · rw [hevent]
      exact (h.posted ..).stays

end Sys2Proof.Machine
end

section
/-! The window over the partner's signals (R454, Table 15.3). -/

namespace Sys2Proof.Machine
set_option Elab.async false

-- The window over the partner's signals (R454, Table 15.3).

/-- One toggle of PTN_HB_IN (Table 15.13). -/
def gapStep (p : Ptn × Nat) (t : Nat) : Ptn × Nat :=
  let long := decide (50000 < p.1.hbGap + t - p.2) && !p.1.gapSeen
  ({ p.1 with hbGap := 0, gapSeen := false, hbGaps := if long then satInc 16 p.1.hbGaps else p.1.hbGaps }, t)
/-- The end of a window after its last toggle. -/
def gapEnd (p : Ptn × Nat) : Ptn :=
  let gap := p.1.hbGap + 200000 - p.2
  let long := decide (50000 < gap) && !p.1.gapSeen
  { p.1 with hbGap := gap, gapSeen := decide (50000 < gap), hbGaps := if long then satInc 16 p.1.hbGaps else p.1.hbGaps }
theorem countGaps_eq (toggles : List Nat) (s : State) : countGaps toggles s = { s with ptn := gapEnd (toggles.foldl gapStep (s.ptn, 0)) } := rfl
/-- The partner's unit but its count of heartbeat gaps. -/
def gapless (p : Ptn) : Ptn := { p with hbGap := 0, gapSeen := false, hbGaps := 0 }
theorem gapless_foldl (toggles : List Nat) (p : Ptn × Nat) : gapless (toggles.foldl gapStep p).1 = gapless p.1 := by
  induction toggles generalizing p with
  | nil => rfl
  | cons t ts ih =>
    rw [List.foldl_cons, ih]
    rfl
theorem gapless_counted (p : Ptn) (gap : Nat) (seen : Bool) (gaps : Nat) : gapless { p with hbGap := gap, gapSeen := seen, hbGaps := gaps } = gapless p := rfl
theorem gapless_gapEnd (p : Ptn × Nat) : gapless (gapEnd p) = gapless p.1 := by
  unfold gapEnd
  exact gapless_counted ..
theorem countGaps_gapless (toggles : List Nat) (s : State) : gapless (countGaps toggles s).ptn = gapless s.ptn := by
  rw [countGaps_eq]
  exact (gapless_gapEnd _).trans (gapless_foldl toggles (s.ptn, 0))
theorem satAdd_flag {g : Nat} (hg : g < 2 ^ 16) (b : Bool) : satAdd 16 g (([b] : List Bool).filter id).length = if b then satInc 16 g else g := by
  unfold satAdd satInc
  cases b
  · simp
    omega
  · simp
theorem satAdd_flags {g : Nat} (hg : g < 2 ^ 16) (b c : Bool) :
    satAdd 16 g (([b, c] : List Bool).filter id).length = if c then satInc 16 (if b then satInc 16 g else g) else if b then satInc 16 g else g := by
  unfold satAdd satInc
  cases b <;> cases c <;> simp <;> omega
theorem countGaps_none {s : State} (hg : s.ptn.hbGaps < 2 ^ 16) : (countGaps [] s).ptn.hbGap = s.ptn.hbGap + 200000 ∧
    (countGaps [] s).ptn.hbGaps = satAdd 16 s.ptn.hbGaps (([!s.ptn.gapSeen && decide (50000 < s.ptn.hbGap + 200000)] : List Bool).filter id).length := by
  rw [countGaps_eq]
  rw [satAdd_flag hg, Bool.and_comm]
  simp only [List.foldl_nil, gapEnd, Nat.sub_zero, true_and]
  rfl
theorem countGaps_one {s : State} {x : Nat} (hg : s.ptn.hbGaps < 2 ^ 16) : (countGaps [x] s).ptn.hbGap = 200000 - x ∧
    (countGaps [x] s).ptn.hbGaps = satAdd 16 s.ptn.hbGaps (([!s.ptn.gapSeen && decide (50000 < s.ptn.hbGap + x), decide (50000 < 200000 - x)] : List Bool).filter id).length := by
  rw [countGaps_eq]
  rw [satAdd_flags hg, Bool.and_comm]
  simp only [List.foldl_cons, List.foldl_nil, gapStep, gapEnd, Nat.sub_zero, Nat.zero_add, true_and, Bool.not_false, Bool.and_true]
/-- The row of Table 15.3. -/
def windowRow (toggles frames activeIn : Bool) : Nat :=
  if !toggles && !frames then (if activeIn then 2 else 1) else if toggles && !frames then 3 else if !toggles then 4 else 0
/-- The signals of the window stand in the partner's unit. -/
def signalsSeen (toggles frames activeIn : Bool) (s : State) : State := { s with ptn := { s.ptn with hbInOk := toggles, activeIn, seen := windowRow toggles frames activeIn } }
theorem judge_eq (toggles frames activeIn : Bool) (s : State) : judge toggles frames activeIn s =
    if s.ptn.role = 1 then (if frames then signalsSeen toggles frames activeIn s else loseStandby (signalsSeen toggles frames activeIn s))
    else if s.dev ≠ .standby then signalsSeen toggles frames activeIn s
    else if windowRow toggles frames activeIn = 1 then
      (if windowRow toggles frames activeIn ≠ s.ptn.seen then
        tryTakeover (if s.ptn.withheld then signalsSeen toggles frames activeIn s else post 0x81 mPartner [] (signalsSeen toggles frames activeIn s))
      else signalsSeen toggles frames activeIn s)
    else if windowRow toggles frames activeIn = 2 then
      (if windowRow toggles frames activeIn ≠ s.ptn.seen then post 0x8B mPartner [] (signalsSeen toggles frames activeIn s) else signalsSeen toggles frames activeIn s)
    else if windowRow toggles frames activeIn = 3 then
      (if s.ptn.synced then post 0x82 mPartner [] { signalsSeen toggles frames activeIn s with ptn := { (signalsSeen toggles frames activeIn s).ptn with synced := false, asked := false } }
      else signalsSeen toggles frames activeIn s)
    else if windowRow toggles frames activeIn = 4 then
      (if windowRow toggles frames activeIn ≠ s.ptn.seen then post 0x8C mPartner [] (signalsSeen toggles frames activeIn s) else signalsSeen toggles frames activeIn s)
    else signalsSeen toggles frames activeIn s := by
  unfold judge
  rfl

end Sys2Proof.Machine
end

section
/-! What a window over the partner's signals leaves (R454, R456). -/

namespace Sys2Proof.Machine
set_option Elab.async false

-- What a window over the partner's signals leaves (R454, R456).

theorem SeenOnly.of_gapless {s x : State} (honly : Only { evt := true, ptn := true, gov := true } s x) (h : gapless x.ptn = gapless s.ptn) : SeenOnly s x :=
  have hfield {β : Type} (f : Ptn → β) : f (gapless x.ptn) = f (gapless s.ptn) := congrArg f h
  ⟨honly, hfield (·.role), hfield (·.activeOut), hfield (·.synced), hfield (·.withheld), hfield (·.takeovers)⟩
theorem seen_of_gapless {p q : Ptn} (h : gapless p = gapless q) : p.seen = q.seen := (congrArg Ptn.seen h :)
theorem countGaps_seenOnly (toggles : List Nat) (s : State) : SeenOnly s (countGaps toggles s) := .of_gapless (countGaps_only ..).mono (countGaps_gapless toggles s)
theorem countGaps_seen (toggles : List Nat) (s : State) : (countGaps toggles s).ptn.seen = s.ptn.seen := seen_of_gapless (countGaps_gapless toggles s)
theorem SeenOnly.signals {s k : State} (h : SeenOnly s k) (toggles frames activeIn : Bool) : SeenOnly s (signalsSeen toggles frames activeIn k) :=
  ⟨.upd h.only, h.role, h.activeOut, h.synced, h.withheld, h.takeovers⟩
theorem loseStandby_heart (s : State) : Kept heartView s (loseStandby s) := by
  unfold loseStandby
  exact .ite ((heart_of_only (recheck_only ..)).after (.each (fun _ _ => heart_of_shown (ueFrame_shown ..)) ((heart_of_shown (enterSolo_shown _)).after (.upd .refl)))) .refl
theorem tryTakeover_heart (s : State) : Kept heartView s (tryTakeover s) := by
  unfold tryTakeover
  exact .ite .refl (.ite (takeover_took false s).heart (heart_of_only (post_only ..)))
section
variable (toggles frames activeIn : Bool) (k : State)
theorem judge_heart : Kept heartView (signalsSeen toggles frames activeIn k) (judge toggles frames activeIn k) := by
  have hpost {code : BitVec 8} {s : State} : Kept heartView s (post code mPartner [] s) := heart_of_only (post_only ..)
  rw [judge_eq]
  exact .ite (.ite .refl (loseStandby_heart _)) (.ite .refl (.ite (.ite ((tryTakeover_heart _).after (.ite .refl hpost)) .refl)
    (.ite (.ite hpost .refl) (.ite (.ite (hpost.after (.upd .refl)) .refl) (.ite (.ite hpost .refl) .refl)))))
/-- The row stands as the one seen, unless a standby took over for it. -/
theorem judge_seen (h : windowRow toggles frames activeIn ≠ 1 ∨ k.dev ≠ .standby) : (judge toggles frames activeIn k).ptn.seen = windowRow toggles frames activeIn := by
  rw [judge_eq]
  have hpost {code : BitVec 8} {s : State} : (post code mPartner [] s).ptn = s.ptn := (post_only ..).ptn rfl
  split
  next hrole =>
    split
    · rfl
    · exact congrArg Ptn.seen (loseStandby_shown (s := signalsSeen toggles frames activeIn k) hrole)
  split
  · rfl
  next hstandby =>
    rw [if_neg (h.resolve_right hstandby)]
    split
    · split
      · rw [hpost]
        rfl
      · rfl
    split
    · split
      · rw [hpost]
        rfl
      · rfl
    split
    · split
      · rw [hpost]
        rfl
      · rfl
    · rfl
/-- An active part without frames of its standby is unsynced (R456). -/
theorem judge_active (hrole : k.ptn.role = 1) (hframes : frames = false) : (judge toggles frames activeIn k).ptn.synced = false := by
  rw [judge_eq, if_pos hrole, hframes, if_neg Bool.false_ne_true]
  exact congrArg Ptn.synced (loseStandby_shown (s := signalsSeen toggles false activeIn k) hrole)
variable {toggles frames activeIn k}
variable {s : State}
/-- A standby whose partner has gone (Table 15.3, row 1). -/
theorem SeenOnly.judge_gone (h : SeenOnly s k) (hseen : k.ptn.seen = s.ptn.seen) (hrow : windowRow toggles frames activeIn = 1) :
    (s.ptn.seen ≠ 1 → MayTake s → Took s false (judge toggles frames activeIn k)) ∧
    (s.dev = .standby → s.ptn.role = 2 → ¬ MayTake s → StaysAsIs s (judge toggles frames activeIn k)) := by
  have hdev := h.only.dev rfl
  have hin : activeIn = false := by
    unfold windowRow at hrow
    revert hrow
    cases toggles <;> cases frames <;> cases activeIn <;> decide
  have hjudge (hstandby : s.dev = .standby) (hrole : s.ptn.role = 2) : judge toggles frames activeIn k = if 1 ≠ s.ptn.seen then
      tryTakeover (if k.ptn.withheld then signalsSeen toggles frames activeIn k else post 0x81 mPartner [] (signalsSeen toggles frames activeIn k))
      else signalsSeen toggles frames activeIn k := by
    rw [judge_eq, if_neg (by rw [h.role, hrole]; decide), if_neg (by rw [hdev, hstandby]; decide), if_pos hrow, hrow, hseen]
  have htried : SeenOnly s (if k.ptn.withheld then signalsSeen toggles frames activeIn k else post 0x81 mPartner [] (signalsSeen toggles frames activeIn k)) := by
    split
    · exact h.signals ..
    · exact (h.signals ..).posted ..
  refine ⟨fun hfresh hmay => ?_, fun hstandby hrole hnot => ?_⟩
  · rw [hjudge hmay.1 hmay.2.1, if_pos hfresh.symm]
    refine htried.tried.1 hmay ?_
    split
    · exact hin
    · rw [(post_only ..).ptn rfl]
      exact hin
  · rw [hjudge hstandby hrole]
    split
    · exact htried.tried.2 fun h => hnot h.1
    · exact (h.signals ..).stays
/-- A standby whose partner is there (Table 15.3, rows 2 to 4). -/
theorem SeenOnly.judge_there (h : SeenOnly s k) (hstandby : s.dev = .standby) (hrole : s.ptn.role = 2) (hrow : windowRow toggles frames activeIn ≠ 1) :
    StaysAsIs s (judge toggles frames activeIn k) ∧
    (judge toggles frames activeIn k).ptn.synced = if windowRow toggles frames activeIn = 3 then false else s.ptn.synced := by
  rw [judge_eq, if_neg (by rw [h.role, hrole]; decide), if_neg (by rw [h.only.dev rfl, hstandby]; decide), if_neg hrow]
  have hu := h.signals toggles frames activeIn
  have hpost (code : BitVec 8) {x : State} (hx : SeenOnly s x) : StaysAsIs s (post code mPartner [] x) ∧ (post code mPartner [] x).ptn.synced = s.ptn.synced :=
    ⟨(hx.posted ..).stays, (hx.posted ..).synced⟩
  by_cases h2 : windowRow toggles frames activeIn = 2
  · have h3 : ¬ windowRow toggles frames activeIn = 3 := by rw [h2]; decide
    rw [if_pos h2, if_neg h3]
    split
    · exact hpost _ hu
    · exact ⟨hu.stays, hu.synced⟩
  rw [if_neg h2]
  by_cases h3 : windowRow toggles frames activeIn = 3
  · rw [if_pos h3, if_pos h3]
    split
    · obtain ⟨hdev, hr, hout, hmpd⟩ := hu.stays
      refine ⟨⟨?_, ?_, ?_, ?_⟩, ?_⟩
      · rw [(post_only ..).dev rfl, hdev]
      · rw [(post_only ..).ptn rfl, hr]
      · rw [(post_only ..).ptn rfl, hout]
      · rw [(post_only ..).mpd rfl, hmpd]
      · rw [(post_only ..).ptn rfl]
    next hsynced =>
      refine ⟨hu.stays, ?_⟩
      rw [hu.synced, ← h.synced]
      exact Bool.not_eq_true _ ▸ hsynced
  rw [if_neg h3, if_neg h3]
  split
  · split
    · exact hpost _ hu
    · exact ⟨hu.stays, hu.synced⟩
  · exact ⟨hu.stays, hu.synced⟩
end

end Sys2Proof.Machine
end

section
/-! Standbys take over (O44). -/

namespace Sys2Proof.Machine
set_option Elab.async false

-- Standbys take over (O44).

/-- What a window over the partner's signals leaves, row by row (Table 15.3). -/
theorem window_judged (s : State) (edges : List Nat) (frames activeIn : Bool) :
    let t := judge (!edges.isEmpty) frames activeIn (countGaps edges s)
    let row := windowRow (!edges.isEmpty) frames activeIn
    t.ptn.hbInOk = !edges.isEmpty ∧ (t.ptn.hbGap, t.ptn.hbGaps) = ((countGaps edges s).ptn.hbGap, (countGaps edges s).ptn.hbGaps) ∧
    (row = 1 → s.ptn.seen ≠ 1 → MayTake s → Took s false t) ∧ (row = 1 → s.dev = .standby → s.ptn.role = 2 → ¬ MayTake s → StaysAsIs s t) ∧
    (row = 2 ∨ row = 4 ∨ row = 0 → s.dev = .standby → s.ptn.role = 2 → StaysAsIs s t ∧ t.ptn.synced = s.ptn.synced) ∧
    (row = 3 → s.dev = .standby → s.ptn.role = 2 → StaysAsIs s t ∧ t.ptn.synced = false) ∧ (s.ptn.role = 1 → frames = false → t.ptn.synced = false) ∧
    (row ≠ 1 ∨ s.dev ≠ .standby → t.ptn.seen = row) := by
  intro t row
  have hk := countGaps_seenOnly edges s
  have hheart := judge_heart (!edges.isEmpty) frames activeIn (countGaps edges s)
  refine ⟨congrArg (·.1) hheart.view, congrArg (fun v => (v.2.1, v.2.2.1)) hheart.view, fun hrow => (hk.judge_gone (countGaps_seen ..) hrow).1,
    fun hrow => (hk.judge_gone (countGaps_seen ..) hrow).2, fun hrow hstandby hrole => ?_, fun hrow hstandby hrole => ?_, fun hrole hframes => ?_, fun hrow => ?_⟩
  · have h1 : row ≠ 1 := by omega
    have h3 : row ≠ 3 := by omega
    obtain ⟨hstays, hsynced⟩ := hk.judge_there hstandby hrole h1
    exact ⟨hstays, hsynced.trans (if_neg h3)⟩
  · have h1 : row ≠ 1 := by omega
    obtain ⟨hstays, hsynced⟩ := hk.judge_there hstandby hrole h1
    exact ⟨hstays, hsynced.trans (if_pos hrow)⟩
  · exact judge_active _ _ _ _ (hk.role.trans hrole) hframes
  · exact judge_seen _ _ _ _ (hrow.imp_right fun h => by rw [hk.only.dev rfl]; exact h)
/-- O44's windows over the partner's signals (R454, R456). -/
theorem window_told (s : State) (edges : List Nat) (frames activeIn : Bool) {t : State} (ht : t = judge (!edges.isEmpty) frames activeIn (countGaps edges s)) :
    let toggles : Bool := !edges.isEmpty
    let counted (longs : List Bool) : Nat := satAdd 16 s.ptn.hbGaps (longs.filter id).length
    let row := windowRow toggles frames activeIn
    t.ptn.hbInOk = toggles ∧
    (s.ptn.hbGaps < 2 ^ 16 → edges = [] → t.ptn.hbGap = s.ptn.hbGap + 200000 ∧ t.ptn.hbGaps = counted [!s.ptn.gapSeen && decide (50000 < s.ptn.hbGap + 200000)]) ∧
    (s.ptn.hbGaps < 2 ^ 16 → ∀ x, edges = [x] → x ≤ 200000 → t.ptn.hbGap = 200000 - x ∧
      t.ptn.hbGaps = counted [!s.ptn.gapSeen && decide (50000 < s.ptn.hbGap + x), decide (50000 < 200000 - x)]) ∧
    (row = 1 → s.ptn.seen ≠ 1 → MayTake s → Took s false t) ∧ (row = 1 → s.dev = .standby → s.ptn.role = 2 → ¬ MayTake s → StaysAsIs s t) ∧
    (row = 2 ∨ row = 4 ∨ row = 0 → s.dev = .standby → s.ptn.role = 2 → StaysAsIs s t ∧ t.ptn.synced = s.ptn.synced) ∧
    (row = 3 → s.dev = .standby → s.ptn.role = 2 → StaysAsIs s t ∧ t.ptn.synced = false) ∧ (s.ptn.role = 1 → frames = false → t.ptn.synced = false) ∧
    (row ≠ 1 ∨ s.dev ≠ .standby → t.ptn.seen = row) := by
  subst ht
  obtain ⟨hok, hgaps, hgone, hnot, hthere, hlost, hactive, hseen⟩ := window_judged s edges frames activeIn
  obtain ⟨hgap, hgaps⟩ := Prod.mk.inj hgaps
  refine ⟨hok, fun hlt hnone => ?_, fun hlt x hone _ => ?_, hgone, hnot, hthere, hlost, hactive, hseen⟩
  · rw [hgap, hgaps, hnone]
    exact countGaps_none hlt
  · rw [hgap, hgaps, hone]
    exact countGaps_one hlt
theorem dropActive_ptn (s : State) : (dropActive s).ptn = { s.ptn with activeOut := false } := by
  unfold dropActive
  extract_lets r u _ v
  have hr : r.ptn = s.ptn := Only.ptn (m := { arms := true, tx := true }) (.ite (.each (fun _ _ => vcmFrame_only ..) .refl) .refl) rfl
  have hu : u.ptn = r.ptn := Only.ptn (m := { gov := true, spn := true, spc := true, slu := true, tx := true }) (.ite (inverterOff_only ..) (startCoast_only ..)) rfl
  have hv : v.ptn = u.ptn := Only.ptn (m := { spn := true, tx := true }) (.ite ((send_only ..).after (.upd .refl)) .refl) rfl
  exact congrArg (fun p : Ptn => { p with activeOut := false }) (hv.trans (hu.trans hr))
/-- The takeover core has served the unit, or has not (R452). -/
def servedNow (served : Bool) (s : State) : State := if served then { s with ptn := { s.ptn with servedAt := now s } } else s
theorem servedNow_only (served : Bool) (s : State) : Only { ptn := true } s (servedNow served s) := by
  unfold servedNow
  exact .ite (.upd .refl) .refl
theorem servedNow_ptn (served : Bool) (s : State) : (servedNow served s).ptn = { s.ptn with servedAt := if served then now s else s.ptn.servedAt } := by
  unfold servedNow
  cases served <;> rfl
theorem execHeartbeatTick_eq {s : State} (hawake : awake s = true) (hon : ptnOn s = true) (served : Bool) : exec (.heartbeatTick served) s = .next (
    let u := servedNow served s
    if u.dev ≠ .stopped && u.flt.stopStep = 0 && since u u.ptn.servedAt ≤ 100000 then
      ptnSend (.heartbeat (u.ptn.role = 2) (BitVec.ofNat 8 (devCode u.dev)) (BitVec.ofNat 64 (devTime u)) (BitVec.ofNat 32 (dirtyFrames u)))
        { u with ptn := { u.ptn with hbOn := true, hbOut := !u.ptn.hbOut } }
    else if u.ptn.hbOn then (if u.flt.stopStep = 0 then dropActive else id) { u with ptn := { u.ptn with hbOn := false } }
    else u) := by
  refine (if_pos hawake).trans ?_
  rw [if_neg (by simp [hon])]
  rfl
/-- A tick of the heartbeat (R452). -/
theorem heartbeatTick_shows {s : State} (hawake : awake s = true) (served : Bool) : Completes (.heartbeatTick served) s fun t =>
    let fresh : Prop := since s (if served then now s else s.ptn.servedAt) ≤ 100000
    (ptnOn s = false → t = s) ∧
    (ptnOn s = true → s.dev ≠ .stopped → s.flt.stopStep = 0 → fresh → t.ptn.hbOn = true ∧ t.ptn.hbOut = !s.ptn.hbOut ∧
      (s.ptn.role ≠ 0 → ToPartner (.heartbeat (decide (s.ptn.role = 2)) (BitVec.ofNat 8 (devCode s.dev)) (BitVec.ofNat 64 (devTime s)) (BitVec.ofNat 32 (dirtyFrames s))) t)) ∧
    (ptnOn s = true → s.dev = .stopped ∨ s.flt.stopStep ≠ 0 ∨ ¬ fresh → t.ptn.hbOut = s.ptn.hbOut ∧ t.ptn.hbOn = false ∧
      (s.ptn.hbOn = true → s.flt.stopStep = 0 → t.ptn.activeOut = false ∧ t.spc.gates = false) ∧ (s.flt.stopStep ≠ 0 → t.ptn.activeOut = s.ptn.activeOut ∧ t.spc.gates = s.spc.gates)) := by
  by_cases hon : ptnOn s = true
  case neg =>
    refine Completes.live (if_pos hawake) fun t ht => ?_
    rw [if_pos (by simpa using hon)] at ht
    exact ⟨fun _ => ht, fun h => absurd h hon, fun h => absurd h hon⟩
  refine Completes.live (execHeartbeatTick_eq hawake hon served) fun t ht => ?_
  extract_lets fresh
  have hu := servedNow_only served s
  have hptn := servedNow_ptn served s
  have hfresh : since (servedNow served s) (servedNow served s).ptn.servedAt ≤ 100000 ↔ fresh := by
    unfold since
    rw [now_of_only hu, hptn]
    rfl
  dsimp only at ht
  generalize servedNow served s = u at hu hptn hfresh ht
  have hdev := hu.dev rfl
  have hflt := hu.flt rfl
  by_cases hgo : s.dev ≠ .stopped ∧ s.flt.stopStep = 0 ∧ fresh
  · rw [if_pos (by simpa [hdev, hflt, hfresh, and_assoc] using hgo)] at ht
    refine ⟨fun h => absurd hon (by simp [h]), fun _ _ _ _ => ?_, fun _ hnot => ?_⟩
    · have htptn : t.ptn = { u.ptn with hbOn := true, hbOut := !u.ptn.hbOut } := by
        rw [ht, (ptnSend_only ..).ptn rfl]
      rw [htptn, hptn]
      refine ⟨rfl, rfl, fun _ => ?_⟩
      have hsent : ToPartner (.heartbeat (u.ptn.role = 2) (BitVec.ofNat 8 (devCode u.dev)) (BitVec.ofNat 64 (devTime u)) (BitVec.ofNat 32 (dirtyFrames u))) t := by
        rw [ht]
        exact toPartner_ptnSend ..
      have htime : devTime u = devTime s := by
        unfold devTime
        rw [hu.aon rfl]
      have hdirty : dirtyFrames u = dirtyFrames s := by
        unfold dirtyFrames
        rw [hu.mpd rfl]
      rw [hdev, htime, hdirty, hptn] at hsent
      exact hsent
    · exact absurd hgo (by tauto)
  · rw [if_neg (by simpa [hdev, hflt, hfresh, and_assoc] using hgo)] at ht
    refine ⟨fun h => absurd hon (by simp [h]), fun _ hdev' hstep hfr => absurd ⟨hdev', hstep, hfr⟩ hgo, fun _ _ => ?_⟩
    have hhb : u.ptn.hbOn = s.ptn.hbOn := congrArg (·.hbOn) hptn
    have hout : u.ptn.hbOut = s.ptn.hbOut := congrArg (·.hbOut) hptn
    have hactive : u.ptn.activeOut = s.ptn.activeOut := congrArg (·.activeOut) hptn
    have hgates : u.spc.gates = s.spc.gates := congrArg (·.gates) (hu.spc rfl)
    by_cases hshown : s.ptn.hbOn = true
    · rw [hhb, if_pos hshown] at ht
      by_cases hstep : s.flt.stopStep = 0
      · rw [if_pos (by rw [hflt]; exact hstep)] at ht
        subst ht
        refine ⟨?_, ?_, fun _ _ => ⟨dropActive_activeOut _, dropActive_gates _⟩, fun h => absurd hstep h⟩
        · rw [dropActive_ptn]
          exact hout
        · rw [dropActive_ptn]
      · rw [if_neg (by rw [hflt]; exact hstep)] at ht
        subst ht
        exact ⟨hout, rfl, fun _ h => absurd h hstep, fun _ => ⟨hactive, hgates⟩⟩
    · rw [hhb, if_neg hshown] at ht
      subst ht
      exact ⟨hout, hhb.trans (Bool.eq_false_iff.2 hshown), fun h => absurd h hshown, fun _ => ⟨hactive, hgates⟩⟩
/-- A heartbeat of the partner (R452). -/
theorem heartbeat_heard {s : State} (hawake : awake s = true) (standby : Bool) (state : BitVec 8) (time : Word) (dirty : BitVec 32) : Completes (.heartbeat standby state time dirty) s fun t =>
    (ptnOn s = false → t = s) ∧
    (ptnOn s = true → t.ptn.peerHb = some (standby, state, time, dirty) ∧ t.ptn.heard = true ∧ (s.ptn.alone = true → ToPartner (.arbitrate (arbRec s)) t) ∧
      (s.ptn.alone = false → s.ptn.role = 2 → s.dev = .standby → s.ptn.synced = false → s.ptn.asked = false → t.ptn.asked = true ∧ t.mpd.ledger = [] ∧ ToPartner (.resync 0 0) t)) := by
  refine Completes.live (if_pos hawake) fun t ht => ?_
  by_cases hon : ptnOn s = true
  case neg =>
    rw [if_pos (by simpa using hon)] at ht
    exact ⟨fun _ => ht, fun h => absurd h hon⟩
  rw [if_neg (by simpa using hon)] at ht
  refine ⟨fun h => absurd hon (by simp [h]), fun _ => ?_⟩
  dsimp only at ht
  by_cases halone : s.ptn.alone = true
  · rw [if_pos halone] at ht
    subst ht
    rw [(sendArb_only ..).ptn rfl]
    exact ⟨rfl, rfl, fun _ => toPartner_sendArb hon, fun h => absurd halone (by simp [h])⟩
  rw [if_neg halone] at ht
  by_cases hasks : (s.ptn.role = 2 && s.dev = .standby && !s.ptn.synced && !s.ptn.asked) = true
  · rw [if_pos hasks] at ht
    subst ht
    rw [askResync_ptn, askResync_ledger]
    exact ⟨rfl, rfl, fun h => absurd h halone, fun _ _ _ _ _ => ⟨rfl, rfl, toPartner_ptnSend ..⟩⟩
  · rw [if_neg hasks] at ht
    subst ht
    exact ⟨rfl, rfl, fun h => absurd h halone, fun _ hrole hdev hsynced hasked => absurd (by simp [hrole, hdev, hsynced, hasked]) hasks⟩
theorem SeenOnly.refl {s : State} : SeenOnly s s := ⟨.refl, rfl, rfl, rfl, rfl, rfl⟩
/-- A fall of ACTIVE_IN (R454). -/
theorem activeInFall_takes {s : State} (hawake : awake s = true) : Completes .activeInFall s fun t => (ptnOn s = false → t = s) ∧ (ptnOn s = true → t.ptn.activeIn = false ∧
    (s.ptn.released = true ∨ s.ptn.requested = true → StaysAsIs s t) ∧ (s.ptn.released = false → s.ptn.requested = false →
      (MayTake s → t.ptn.activeIn = false → Took s false t) ∧ (s.dev = .standby → s.ptn.role = 2 → ¬ MayTake s → StaysAsIs s t))) := by
  refine Completes.live (if_pos hawake) fun t ht => ?_
  by_cases hon : ptnOn s = true
  case neg =>
    rw [if_pos (by simpa using hon)] at ht
    exact ⟨fun _ => ht, fun h => absurd h hon⟩
  rw [if_neg (by simpa using hon)] at ht
  refine ⟨fun h => absurd hon (by simp [h]), fun _ => ?_⟩
  dsimp only at ht
  have hx : SeenOnly s { s with ptn := { s.ptn with activeIn := false } } := ⟨.upd .refl, rfl, rfl, rfl, rfl, rfl⟩
  by_cases hannounced : s.ptn.released = true ∨ s.ptn.requested = true
  · rw [if_pos (by simpa using hannounced)] at ht
    subst ht
    exact ⟨rfl, fun _ => hx.stays, fun hnot hnot' => absurd hannounced (by simp [hnot, hnot'])⟩
  · rw [if_neg (by simpa using hannounced)] at ht
    subst ht
    exact ⟨congrArg (fun v => v.2.2.2.1) (tryTakeover_heart _).view, fun h => absurd h hannounced, fun _ _ => ⟨fun hmay _ => hx.tried.1 hmay rfl, fun _ _ hnot => hx.tried.2 fun h => hnot h.1⟩⟩
/-- The partner's own word of its stop (R454). -/
theorem ptnFailstop_takes {s : State} (hawake : awake s = true) (cause : BitVec 8) : Completes (.ptnFailstop cause) s fun t => (ptnOn s = false ∨ s.dev ≠ .standby → t = s) ∧
    (ptnOn s = true → s.dev = .standby → (cause = 0xC6 → t.ptn.withheld = true ∧ StaysAsIs s t) ∧ (cause ≠ 0xC6 → s.ptn.activeIn = true → StaysAsIs s t) ∧
      (cause ≠ 0xC6 → s.ptn.activeIn = false → (MayTake s → t.ptn.activeIn = false → Took s false t) ∧ (s.dev = .standby → s.ptn.role = 2 → ¬ MayTake s → StaysAsIs s t))) := by
  refine Completes.live (if_pos hawake) fun t ht => ?_
  by_cases hgo : ptnOn s = true ∧ s.dev = .standby
  case neg =>
    rw [if_pos (by simpa [imp_iff_not_or] using hgo)] at ht
    exact ⟨fun _ => ht, fun hon hdev => absurd ⟨hon, hdev⟩ hgo⟩
  rw [if_neg (by simpa using hgo)] at ht
  refine ⟨fun h => absurd hgo (by rcases h with h | h <;> simp [h]), fun _ _ => ⟨fun hcause => ?_, fun hcause hin => ?_, fun hcause hin => ?_⟩⟩
  · rw [if_pos hcause] at ht
    subst ht
    have hevent {x : State} : Only { evt := true, gov := true } x (post 0x8B mPartner [] x) := post_only ..
    exact ⟨by rw [hevent.ptn rfl], hevent.dev rfl, by rw [hevent.ptn rfl], by rw [hevent.ptn rfl], hevent.mpd rfl⟩
  · rw [if_neg hcause] at ht
    subst ht
    exact SeenOnly.refl.tried.2 fun h => by simp [hin] at h
  · rw [if_neg hcause] at ht
    subst ht
    exact ⟨fun hmay _ => SeenOnly.refl.tried.1 hmay hin, fun _ _ hnot => SeenOnly.refl.tried.2 fun h => hnot h.1⟩
/-- The release of a planned handover (R461). -/
theorem handoverReleased_takes {s : State} (hawake : awake s = true) (reason : BitVec 8) : Completes (.handoverReleased reason) s fun t =>
    (ptnOn s = false ∨ s.dev ≠ .standby ∨ s.ptn.role ≠ 2 → t = s) ∧
    (ptnOn s = true → s.dev = .standby → s.ptn.role = 2 → t.ptn.handoverReason = reason ∧ (s.ptn.synced = true → Took s true t) ∧
      (s.ptn.synced = false → StaysAsIs s t ∧ t.ptn.released = true)) := by
  refine Completes.live (if_pos hawake) fun t ht => ?_
  by_cases hgo : ptnOn s = true ∧ s.dev = .standby ∧ s.ptn.role = 2
  case neg =>
    rw [if_pos (by simpa [imp_iff_not_or, or_assoc] using hgo)] at ht
    exact ⟨fun _ => ht, fun hon hdev hrole => absurd ⟨hon, hdev, hrole⟩ hgo⟩
  rw [if_neg (by simpa [and_assoc] using hgo)] at ht
  refine ⟨fun h => absurd hgo (by rcases h with h | h | h <;> simp [h]), fun _ _ _ => ?_⟩
  dsimp only at ht
  have hx : SeenOnly s { s with ptn := { s.ptn with handover := 1, handoverReason := reason, released := true, activeIn := false } } := ⟨.upd .refl, rfl, rfl, rfl, rfl, rfl⟩
  have hevent {x : State} : Only { evt := true, gov := true } x (post 0x8B mPartner [] x) := post_only ..
  by_cases hsynced : s.ptn.synced = true
  · rw [if_pos hsynced] at ht
    subst ht
    exact ⟨congrArg (fun v => v.2.2.2.2) (takeover_took true _).heart.view, fun _ => (takeover_took true _).took hx.only rfl, fun h => absurd hsynced (by simp [h])⟩
  · rw [if_neg hsynced] at ht
    subst ht
    exact ⟨congrArg Ptn.handoverReason (hevent.ptn rfl), fun h => absurd h hsynced, fun _ => ⟨(hx.posted ..).stays, congrArg Ptn.released (hevent.ptn rfl)⟩⟩
/-- Where each step of a loop reaches its own goal, and keeps the goals of the others, the loop reaches them all. -/
theorem each_reaches {α : Type} {f : α → State → State} {I : State → Prop} {Q : α → State → Prop} (hI : ∀ x s, I s → I (f x s)) (hreach : ∀ x s, I s → Q x (f x s))
    (hkeep : ∀ x y s, I s → Q x s → Q x (f y s)) (xs : List α) : ∀ s, I s → (∀ x, Q x s → Q x (each xs f s)) ∧ ∀ x ∈ xs, Q x (each xs f s) := by
  induction xs with
  | nil => exact fun s _ => ⟨fun _ h => h, fun _ h => absurd h List.not_mem_nil⟩
  | cons y ys ih =>
    intro s hs
    rw [each_cons]
    obtain ⟨hkeeps, hreaches⟩ := ih (f y s) (hI y s hs)
    refine ⟨fun x hx => hkeeps x (hkeep x y s hs hx), fun x hx => ?_⟩
    obtain rfl | hx := List.mem_cons.1 hx
    · exact hkeeps x (hreach x s hs)
    · exact hreaches x hx
/-- One arm of a takeover: RESUME, and a load that is due (R458 step 5). -/
def resumeArm (a : Nat) (s : State) : State := modArm (vcmSend a 3 0 s) a fun r => { r with attempts := 0, reloads := 0, loadDue := some (now s) }
/-- The arm loads from time `n` on, and RESUME is to go to its driver. -/
def Resumed (n a : Nat) (s : State) : Prop := (getArm s a).loadDue = some n ∧ (getArm s a).attempts = 0 ∧ 3 ∈ (getArm s a).due
theorem resumeArm_resumed (a : Nat) (s : State) : Resumed (now s) a (resumeArm a s) := by
  unfold Resumed resumeArm vcmSend
  rw [getArm_modArm, getArm_modArm]
  refine ⟨rfl, rfl, ?_⟩
  dsimp only
  rw [if_neg (by decide)]
  split
  next h => exact List.contains_iff_mem.1 h
  · exact List.mem_append_right _ List.mem_cons_self
theorem resumeArm_keeps {n a : Nat} (b : Nat) {s : State} (hnow : now s = n) (h : Resumed n a s) : Resumed n a (resumeArm b s) := by
  by_cases hab : a = b
  · subst hab hnow
    exact resumeArm_resumed a s
  · unfold Resumed resumeArm vcmSend at *
    rw [getArm_modArm_other _ _ hab, getArm_modArm_other _ _ hab]
    exact h
theorem resumeArm_only (a : Nat) (s : State) : Only { arms := true } s (resumeArm a s) := (modArm_only ..).after (vcmSend_only ..)
/-- TAKEOVER_RESUME (R458 step 5). -/
theorem takeoverResume_resumes {s : State} (hawake : awake s = true) : Completes .takeoverResume s fun t =>
    let may : Prop := s.dev = .takeover ∧ s.ptn.resumed = false ∧ ∀ a ∈ armList s, (getArm s a).flags.getLsbD 2 = true
    (¬ may → t = s) ∧ (may → t.ptn.resumed = true ∧ ∀ a ∈ armList s, (getArm t a).loadDue = some (now s) ∧ (getArm t a).attempts = 0 ∧ 3 ∈ (getArm t a).due) := by
  refine Completes.live (if_pos hawake) fun t ht => ?_
  extract_lets may
  by_cases hmay : may
  · rw [if_pos (by simpa [may, and_assoc] using hmay)] at ht
    have hall : Only { arms := true } { s with ptn := { s.ptn with resumed := true } } t := by
      rw [ht]
      exact .each (fun a u => resumeArm_only a u) .refl
    refine ⟨fun h => absurd hmay h, fun _ => ⟨by rw [hall.ptn rfl], ?_⟩⟩
    have hloop := each_reaches (f := resumeArm) (I := fun u => now u = now s) (Q := Resumed (now s)) (fun a u hu => (now_of_only (resumeArm_only a u)).trans hu)
      (fun a u hu => hu ▸ resumeArm_resumed a u) (fun a b u hu h => resumeArm_keeps b hu h) (armList s) { s with ptn := { s.ptn with resumed := true } } rfl
    rw [ht]
    exact hloop.2
  · rw [if_neg (by simpa [may, and_assoc] using hmay)] at ht
    exact ⟨fun _ => ht, fun h => absurd h hmay⟩
/-- Settles O44: the window's row decides, a takeover claims the arms and adopts the mirror, and a standby that may not take over stays as it is. -/
theorem standbysTakeOver : Obligations.StandbysTakeOver := by
  unfold Obligations.StandbysTakeOver
  intro s hawake
  refine ⟨heartbeatTick_shows hawake, heartbeat_heard hawake, fun edges frames activeIn => ?_, fun edges frames activeIn => ?_, activeInFall_takes hawake,
    ptnFailstop_takes hawake, handoverReleased_takes hawake, takeoverResume_resumes hawake⟩
  · refine Completes.live (if_pos hawake) fun t ht => ⟨fun hoff => ?_, fun hon => ?_⟩
    · rw [if_neg (by simp [hoff])] at ht
      exact ht
    · rw [if_pos hon] at ht
      exact window_told s edges frames activeIn ht
  · refine Completes.live (if_pos hawake) fun t ht => ⟨fun hidle => ?_, fun hon hseen => ?_⟩
    · rw [if_neg (by rcases hidle with h | h <;> simp [h])] at ht
      exact ht
    · rw [if_pos (by simp [hon, hseen])] at ht
      exact window_told s edges frames activeIn ht

end Sys2Proof.Machine
end

section
/-! The parts of a mirrored block (R303). -/

namespace Sys2Proof.Machine
set_option Elab.async false

-- The parts of a mirrored block (R303).

theorem getLsbD_putPart (fib : BitVec 3) (data : Part512) (b : Block) (i : Nat) (hi : i < 32768) : (putPart fib data b).getLsbD i =
    if 4096 * fib.toNat ≤ i ∧ i < 4096 * fib.toNat + 4096 then data.getLsbD (i - 4096 * fib.toNat) else b.getLsbD i := by
  unfold putPart
  simp only [BitVec.getLsbD_or, BitVec.getLsbD_and, BitVec.getLsbD_not, BitVec.getLsbD_shiftLeft, BitVec.getLsbD_ushiftRight, BitVec.getLsbD_allOnes, BitVec.getLsbD_setWidth, hi]
  split
  next h =>
    obtain ⟨hlo, hhi⟩ := h
    have h1 : 32768 - 4096 + (i - 4096 * fib.toNat) < 32768 := by omega
    have h2 : i - 4096 * fib.toNat < 32768 := by omega
    simp [Nat.not_lt.2 hlo, h1, h2]
  next h =>
    by_cases hlo : i < 4096 * fib.toNat
    · simp [hlo]
    · have h1 : ¬ (32768 - 4096 + (i - 4096 * fib.toNat) < 32768) := by omega
      have h2 : data.getLsbD (i - 4096 * fib.toNat) = false := BitVec.getLsbD_of_ge _ _ (by omega)
      simp [h1, h2]
theorem getLsbD_partOf (b : Block) (k i : Nat) : (partOf b k).getLsbD i = (decide (i < 4096) && b.getLsbD (4096 * k + i)) := by
  unfold partOf
  rw [BitVec.getLsbD_setWidth, BitVec.getLsbD_ushiftRight]
theorem partOf_putPart_same (fib : BitVec 3) (data : Part512) (b : Block) : partOf (putPart fib data b) fib.toNat = data := by
  have hfib := fib.isLt
  refine BitVec.eq_of_getLsbD_eq fun i hi => ?_
  rw [getLsbD_partOf, getLsbD_putPart _ _ _ _ (by omega), if_pos (by omega), decide_eq_true hi, Bool.true_and, Nat.add_sub_cancel_left]
theorem partOf_putPart_other {fib : BitVec 3} {k : Nat} (data : Part512) (b : Block) (hk : k < 8) (h : k ≠ fib.toNat) : partOf (putPart fib data b) k = partOf b k := by
  refine BitVec.eq_of_getLsbD_eq fun i hi => ?_
  rw [getLsbD_partOf, getLsbD_partOf, getLsbD_putPart _ _ _ _ (by omega), if_neg (by omega)]
/-- Part `fib` of a block stands in its frame, and among the parts that are here. -/
def partKept (f : Nat) (fib : BitVec 3) (b : Block) (s : State) : State :=
  { setFrame s f b with mpd := { (setFrame s f b).mpd with parts := tabMod 0 s.mpd.parts f (· ||| (1 <<< fib.toNat)) } }
theorem partKept_frame (f : Nat) (fib : BitVec 3) (b : Block) (s : State) : getFrame (partKept f fib b s) f = b := getFrame_setFrame s f b
theorem cast_partBit (fib : BitVec 3) : ((1 <<< fib.toNat : Nat) : BitVec 8) = (1 : BitVec 8) <<< fib.toNat := by
  revert fib
  decide
theorem partKept_parts (f : Nat) (fib : BitVec 3) (b : Block) (s : State) : tabGet 0 (partKept f fib b s).mpd.parts f = tabGet 0 s.mpd.parts f ||| (1 <<< fib.toNat) := by
  rw [cast_partBit]
  exact tabMod_same 0 s.mpd.parts f (· ||| (1 <<< fib.toNat))
theorem partKept_entry (f : Nat) (fib : BitVec 3) (b : Block) (s : State) (k : Nat) : getEntry (partKept f fib b s) k = getEntry s k := rfl
/-- A confirmation leaves the frames and the entries, and clears the parts that it answers (R303, R450). -/
theorem confirmIf_mpd (f : Nat) (s : State) : (confirmIf f s).mpd.ledger = s.mpd.ledger ∧ (confirmIf f s).mpd.frames = s.mpd.frames := by
  unfold confirmIf
  split
  · rw [(ptnSend_only ..).mpd rfl]
    exact ⟨rfl, rfl⟩
  · exact ⟨rfl, rfl⟩
theorem confirmIf_frame (f : Nat) (s : State) (k : Nat) : getFrame (confirmIf f s) k = getFrame s k := congrArg (tabGet (0 : Block) · k) (confirmIf_mpd f s).2
theorem confirmIf_entry (f : Nat) (s : State) (k : Nat) : getEntry (confirmIf f s) k = getEntry s k := congrArg (tabGet ({} : LedgerEntry) · k) (confirmIf_mpd f s).1
theorem confirmIf_hop (f : Nat) (s : State) : (confirmIf f s).hop = s.hop := by
  unfold confirmIf
  split
  · exact (ptnSend_only ..).hop rfl
  · rfl
/-- A whole block with a landed entry is confirmed to the partner. -/
theorem confirmIf_confirms {f : Nat} {s : State} (hparts : tabGet 0 s.mpd.parts f = 0xFF) (hentry : landedEntry (getEntry s f) = true) :
    ToPartner (.confirm [f]) (confirmIf f s) ∧ tabGet 0 (confirmIf f s).mpd.parts f = 0 := by
  have hif : confirmIf f s = ptnSend (.confirm [f]) (clearParts f s) := if_pos (by rw [hentry, Bool.and_true]; exact decide_eq_true hparts)
  rw [hif, (ptnSend_only ..).mpd rfl]
  exact ⟨toPartner_ptnSend .., tabDel_same ..⟩
theorem confirmIf_waits {f : Nat} {s : State} (h : ¬(tabGet 0 s.mpd.parts f = 0xFF ∧ landedEntry (getEntry s f) = true)) : confirmIf f s = s := by
  refine if_neg fun hgo => h ?_
  rw [Bool.and_eq_true] at hgo
  exact ⟨of_decide_eq_true hgo.1, hgo.2⟩
/-- O46's first part, a part of a mirrored block (R303, R470). -/
theorem mdata_mirrors {s : State} (hawake : awake s = true) (frame : BitVec 32) (fib : BitVec 3) (data : Part512) : Completes (.mdata frame fib data) s fun t =>
    let keeps : Prop := mirrors s = true
    let takes : Prop := takesDump s = true
    let f := frame.toNat
    let may : Prop := f < 1048576 ∧ keeps
    let old := (s.hold.inbound.find? fun x => x.1 = f).getD (f, 0, 0)
    let whole : Prop := tabGet 0 s.mpd.parts f ||| (1 <<< fib.toNat) = 0xFF
    (¬ may → ¬ (f < 1048576 ∧ takes) → t = s) ∧
    (¬ keeps → takes → f < 1048576 → t.mpd = s.mpd ∧ t.hold.inbound = s.hold.inbound.filter (fun x => x.1 ≠ f) ++ [(f, old.2.1 ||| (1 <<< fib.toNat), putPart fib.toNat data old.2.2)]) ∧
    (may → partOf (getFrame t f) fib.toNat = data ∧ (tabGet 0 s.mpd.parts f ≠ 0 ∨ (getEntry s f).valid = true → ∀ k : Fin 8, k.val ≠ fib.toNat → partOf (getFrame t f) k.val = partOf (getFrame s f) k.val) ∧
      (¬ (keeps ∧ whole ∧ landedEntry (getEntry s f) = true) → tabGet 0 t.mpd.parts f = tabGet 0 s.mpd.parts f ||| (1 <<< fib.toNat)) ∧
      (keeps → whole → landedEntry (getEntry s f) = true → ToPartner (.confirm [f]) t ∧ tabGet 0 t.mpd.parts f = 0)) := by
  refine Completes.live (if_pos hawake) fun t ht => ?_
  extract_lets keeps takes f may old whole
  by_cases hf : f < 1048576
  case neg =>
    rw [if_pos (Nat.not_lt.1 hf)] at ht
    exact ⟨fun _ _ => ht, fun _ _ h => absurd h hf, fun h => absurd h.1 hf⟩
  rw [if_neg (Nat.not_le.2 hf)] at ht
  by_cases hkeeps : keeps
  · rw [if_pos hkeeps] at ht
    have hkept : ∃ b, t = confirmIf f (partKept f fib (putPart fib data b) s) ∧ (tabGet 0 s.mpd.parts f ≠ 0 ∨ (getEntry s f).valid = true → b = getFrame s f) := by
      refine ⟨_, ht, fun hhere => if_neg fun hnone => ?_⟩
      rw [Bool.and_eq_true, decide_eq_true_eq, Bool.not_eq_true'] at hnone
      exact hhere.elim (fun h => h hnone.1) fun h => Bool.noConfusion (h.symm.trans hnone.2)
    obtain ⟨b, rfl, hold⟩ := hkept
    have hparts := partKept_parts f fib (putPart fib data b) s
    refine ⟨fun h => absurd ⟨hf, hkeeps⟩ h, fun h => absurd hkeeps h, fun _ => ⟨?_, fun hhere k hk => ?_, fun hnot => ?_, fun _ hwhole hlanded => ?_⟩⟩
    · rw [confirmIf_frame, partKept_frame, partOf_putPart_same]
    · rw [confirmIf_frame, partKept_frame, partOf_putPart_other _ _ k.isLt hk, hold hhere]
    · rw [confirmIf_waits, hparts]
      rw [hparts, partKept_entry]
      exact fun h => hnot ⟨hkeeps, h.1, h.2⟩
    · exact confirmIf_confirms (hparts.trans hwhole) hlanded
  · rw [if_neg hkeeps] at ht
    by_cases htakes : takes
    · rw [if_pos htakes] at ht
      subst ht
      have hfib : ((fib.toNat : Nat) : BitVec 3) = fib := by simp
      exact ⟨fun _ h => absurd ⟨hf, htakes⟩ h, fun _ _ _ => ⟨rfl, by rw [hfib]⟩, fun h => absurd h.2 hkeeps⟩
    · rw [if_neg htakes] at ht
      exact ⟨fun _ _ => ht, fun _ h => absurd h htakes, fun h => absurd h.2 hkeeps⟩

end Sys2Proof.Machine
end

section
/-! A mirrored entry, and a frame for a block of a dump. -/

namespace Sys2Proof.Machine
set_option Elab.async false

-- A mirrored entry, and a block of a dump (R296, R304, R449, R470).

theorem seqLt_succ (v : BitVec 40) : seqLt v (BitVec.ofNat 40 (v + 1).toNat) = true := by
  have hdiff : v + 1 - v = 1 := by rw [BitVec.add_comm, BitVec.add_sub_cancel]
  unfold seqLt
  rw [BitVec.ofNat_toNat, BitVec.setWidth_eq, hdiff]
  decide
/-- Arrival numbers go on above a VSEQ that was seen (R296). -/
theorem arrivalAbove_above (v : BitVec 40) (s : State) : seqLt v (BitVec.ofNat 40 (arrivalAbove v s).hop.nextArrival) = true := by
  unfold arrivalAbove
  split
  next h => exact h
  · exact seqLt_succ v
theorem freeMirror_entry (f : Nat) (s : State) : (getEntry (freeMirror f s) f) = {} := tabSet_same ({} : LedgerEntry) {} s.mpd.ledger f
theorem getFrame_clearParts (f : Nat) (s : State) (k : Nat) : getFrame (clearParts f s) k = getFrame s k := rfl
theorem getFrame_setEntry (s : State) (f : Nat) (e : LedgerEntry) (k : Nat) : getFrame (setEntry s f e) k = getFrame s k := rfl
theorem freeMirror_frame (f : Nat) (s : State) : getFrame (freeMirror f s) f = 0 := by
  unfold freeMirror
  rw [getFrame_clearParts, getFrame_setFrame]
theorem freeMirror_entry_other {f k : Nat} (s : State) (h : k ≠ f) : getEntry (freeMirror f s) k = getEntry s k := tabSet_other ({} : LedgerEntry) {} s.mpd.ledger h
theorem freeMirror_frame_other {f k : Nat} (s : State) (h : k ≠ f) : getFrame (freeMirror f s) k = getFrame s k := by
  unfold freeMirror
  rw [getFrame_clearParts, getFrame_setFrame_other _ _ h, getFrame_setEntry]
theorem mirrorEntry_kept {e : LedgerEntry} {s : State} (hvalid : e.valid = true) (hstate : e.state.toNat < 4) :
    getEntry (mirrorEntry e s) e.frame.toNat = e ∧ seqLt e.vseq (BitVec.ofNat 40 (mirrorEntry e s).hop.nextArrival) = true ∧
    (tabGet 0 s.mpd.parts e.frame.toNat = 0xFF → landedEntry e = true → ToPartner (.confirm [e.frame.toNat]) (mirrorEntry e s) ∧ tabGet 0 (mirrorEntry e s).mpd.parts e.frame.toNat = 0) := by
  have hkept : mirrorEntry e s = confirmIf e.frame.toNat (setEntry (arrivalAbove e.vseq s) e.frame.toNat e) := if_neg (by simp [hvalid, hstate])
  have hentry : getEntry (setEntry (arrivalAbove e.vseq s) e.frame.toNat e) e.frame.toNat = e := tabSet_same ..
  have hparts : (setEntry (arrivalAbove e.vseq s) e.frame.toNat e).mpd.parts = s.mpd.parts := by
    unfold setEntry arrivalAbove
    split <;> rfl
  rw [hkept, confirmIf_entry, confirmIf_hop]
  exact ⟨hentry, arrivalAbove_above e.vseq s, fun hall hlanded => confirmIf_confirms (by rw [hparts]; exact hall) (by rw [hentry]; exact hlanded)⟩
theorem mirrorEntry_freed {e : LedgerEntry} {s : State} (h : e.valid = false ∨ 4 ≤ e.state.toNat) : mirrorEntry e s = freeMirror e.frame.toNat s :=
  if_pos (by simpa using h)

theorem mem_keys_of_tabGet {α : Type} {d : α} {t : Tab α} {k : Nat} (h : tabGet d t k ≠ d) : k ∈ t.map (·.1) :=
  List.mem_map_of_mem (f := (·.1)) ((tabGet_mem_or_default d t k).resolve_left h)
/-- A block frame neither the ledger nor the read cache uses. -/
def FrameFree (s : State) (f : Nat) : Prop := 118784 ≤ f ∧ f < 1048576 ∧ (getEntry s f).valid = false ∧ (tabGet {} s.mpd.clean f : CleanFrame).valid = false
theorem freeFrame_free {s : State} {f : Nat} (h : freeFrame s = some f) : FrameFree s f := by
  unfold freeFrame at h
  have hin := List.mem_of_find?_eq_some h
  have hfree := List.find?_some h
  obtain ⟨k, -, rfl⟩ := List.mem_map.1 hin
  simp only [Bool.and_eq_true, Bool.not_eq_true', decide_eq_true_eq] at hfree
  exact ⟨Nat.le_add_left .., hfree.2, hfree.1.1, hfree.1.2⟩
/-- Where a block frame is free, one is found. -/
theorem freeFrame_ne_none {s : State} (h : ∃ f, FrameFree s f) : freeFrame s ≠ none := by
  classical
  obtain ⟨hlo, hhi, hentry, hclean⟩ := Nat.find_spec h
  generalize hm : Nat.find h = m at hlo hhi hentry hclean
  have hused : ((List.range (m - 118784)).map (· + 118784)) ⊆ s.mpd.ledger.map (·.1) ++ s.mpd.clean.map (·.1) := by
    intro g hg
    obtain ⟨k, hk, rfl⟩ := List.mem_map.1 hg
    rw [List.mem_range] at hk
    have hlt : k + 118784 < m := by omega
    have hnot := Nat.find_min h (hm ▸ hlt)
    rw [List.mem_append]
    by_contra hout
    rw [not_or] at hout
    refine hnot ⟨by omega, by omega, ?_, ?_⟩
    · have hd : getEntry s (k + 118784) = {} := not_not.1 fun hne => hout.1 (mem_keys_of_tabGet hne)
      rw [hd]
    · have hd : (tabGet {} s.mpd.clean (k + 118784) : CleanFrame) = {} := not_not.1 fun hne => hout.2 (mem_keys_of_tabGet hne)
      rw [hd]
  have hlen := (List.subperm_of_subset (List.nodup_range.map (add_left_injective 118784)) hused).length_le
  rw [List.length_map, List.length_range, List.length_append, List.length_map, List.length_map] at hlen
  intro hnone
  unfold freeFrame at hnone
  rw [List.find?_eq_none] at hnone
  refine hnone m (List.mem_map.2 ⟨m - 118784, List.mem_range.2 (by omega), by omega⟩) ?_
  rw [hentry, hclean, decide_eq_true hhi]
  rfl

end Sys2Proof.Machine
end

section
/-! A block of a dump at the active part. -/

namespace Sys2Proof.Machine
set_option Elab.async false

-- A block of a dump at the active part, and the mirrored entries (R449, R469, R470).

/-- An older version of a block is freed for the dump's. -/
def replaceVersion (f : Nat) (s : State) : State := { freeMirror f s with hold := { s.hold with replayed := s.hold.replayed.filter fun p => p.1 ≠ f } }
theorem getEntry_setFrame (s : State) (f : Nat) (b : Block) (k : Nat) : getEntry (setFrame s f b) k = getEntry s k := rfl
theorem frameFree_replaceVersion (g : Nat) {s : State} {f : Nat} (h : FrameFree s f) : FrameFree (replaceVersion g s) f := by
  obtain ⟨hlo, hhi, hentry, hclean⟩ := h
  have hsame : (replaceVersion g s).mpd.clean = s.mpd.clean := by
    change (freeMirror g s).mpd.clean = _
    unfold freeMirror
    exact clean_setFrame (setEntry s g {}) g 0
  refine ⟨hlo, hhi, ?_, by rw [hsame]; exact hclean⟩
  change (getEntry (freeMirror g s) f).valid = false
  by_cases hf : f = g
  · subst hf
    rw [freeMirror_entry]
  · rw [freeMirror_entry_other _ hf]
    exact hentry
theorem frameFree_replaced (xs : List (Nat × LedgerEntry)) {s : State} {f : Nat} (h : FrameFree s f) : FrameFree (each xs (fun fe s => replaceVersion fe.1 s) s) f := by
  induction xs generalizing s with
  | nil => exact h
  | cons x xs ih =>
    rw [each_cons]
    exact ih (frameFree_replaceVersion x.1 h)
/-- The dump's version stands in frame `f`, as HELD. -/
def replayedInto (area : Nat) (e : LedgerEntry) (data : Block) (f : Nat) (s : State) : State :=
  let s := setFrame (setEntry (arrivalAbove e.vseq s) f { e with frame := BitVec.ofNat 20 f, state := 1, mirrored := false, valid := true }) f data
  { s with
    mpd := { s.mpd with dirtySince := tabSet 0 s.mpd.dirtySince f (now s) },
    hold := { s.hold with replayed := s.hold.replayed ++ [(f, area)] } }
theorem replayedInto_stands (area : Nat) (e : LedgerEntry) (data : Block) (f : Nat) (s : State) :
    (f, area) ∈ (replayedInto area e data f s).hold.replayed ∧
    getEntry (replayedInto area e data f s) f = { e with frame := BitVec.ofNat 20 f, state := 1, mirrored := false, valid := true } ∧
    getFrame (replayedInto area e data f s) f = data := by
  unfold replayedInto
  extract_lets u
  have hentry : getEntry u f = { e with frame := BitVec.ofNat 20 f, state := 1, mirrored := false, valid := true } := by
    unfold u
    rw [getEntry_setFrame]
    exact tabSet_same ..
  have hframe : getFrame u f = data := getFrame_setFrame ..
  exact ⟨List.mem_append_right _ List.mem_cons_self, hentry, hframe⟩
theorem replayBlock_eq (area : Nat) (e : LedgerEntry) (data : Block) (s : State) : replayBlock area e data s =
    if (entriesOf s e.lba.toNat).any fun fe => !(seqLt fe.2.vseq e.vseq) then s
    else
      let u := each (entriesOf s e.lba.toNat) (fun fe s => replaceVersion fe.1 s) s
      match (if decide (118784 ≤ e.frame.toNat) && !(getEntry u e.frame.toNat).valid && !(tabGet ({} : CleanFrame) u.mpd.clean e.frame.toNat).valid then some e.frame.toNat else freeFrame u) with
      | none => u
      | some f => replayedInto area e data f u := by
  unfold replayBlock
  rfl
/-- A version newer than all that are here is loaded where a frame is free (R469). -/
theorem replayBlock_loads {area : Nat} {e : LedgerEntry} {data : Block} {s : State} (hvalid : e.valid = true) (hnewest : ¬∃ x ∈ entriesOf s e.lba.toNat, seqLt x.2.vseq e.vseq = false)
    (hfree : freeFrame s ≠ none) : ∃ p ∈ (replayBlock area e data s).hold.replayed, p.2 = area ∧
      getEntry (replayBlock area e data s) p.1 = { e with frame := BitVec.ofNat 20 p.1, state := 1, mirrored := false } ∧ getFrame (replayBlock area e data s) p.1 = data := by
  rw [replayBlock_eq, if_neg (by simpa using hnewest)]
  extract_lets u
  obtain ⟨f, hf⟩ := Option.ne_none_iff_exists'.1 hfree
  have hu : FrameFree u f := frameFree_replaced _ (freeFrame_free hf)
  have hplace : ∃ g, (if decide (118784 ≤ e.frame.toNat) && !(getEntry u e.frame.toNat).valid && !(tabGet ({} : CleanFrame) u.mpd.clean e.frame.toNat).valid then some e.frame.toNat else freeFrame u) = some g := by
    split
    · exact ⟨_, rfl⟩
    · exact Option.ne_none_iff_exists'.1 (freeFrame_ne_none ⟨f, hu⟩)
  obtain ⟨g, hg⟩ := hplace
  rw [hg]
  obtain ⟨hin, hentry, hframe⟩ := replayedInto_stands area e data g u
  refine ⟨(g, area), hin, rfl, ?_, hframe⟩
  rw [← hvalid] at hentry
  exact hentry
theorem replayBlock_newer {area : Nat} {e : LedgerEntry} {data : Block} {s : State} (h : ∃ x ∈ entriesOf s e.lba.toNat, seqLt x.2.vseq e.vseq = false) : replayBlock area e data s = s := by
  rw [replayBlock_eq, if_pos (by simpa using h)]
/-- O46's second part, mirrored entries and a dump's (R296, R304, R449, R470). -/
theorem ment_mirrors {s : State} (hawake : awake s = true) (es : List LedgerEntry) : Completes (.ment es) s fun t =>
    let keeps : Prop := mirrors s = true
    let takes : Prop := takesDump s = true
    (¬ keeps → ¬ takes → t = s) ∧
    (keeps → ∀ e, es = [e] →
      let f := e.frame.toNat
      (e.valid = false ∨ 4 ≤ e.state.toNat → (getEntry t f).valid = false ∧ getFrame t f = 0) ∧
      (e.valid = true → e.state.toNat < 4 → getEntry t f = e ∧ seqLt e.vseq (BitVec.ofNat 40 t.hop.nextArrival) = true ∧
        (tabGet 0 s.mpd.parts f = 0xFF → landedEntry e = true → ToPartner (.confirm [f]) t ∧ tabGet 0 t.mpd.parts f = 0))) ∧
    (¬ keeps → takes → ∀ e, es = [e] →
      let f := e.frame.toNat
      let here := s.hold.inbound.find? fun x => x.1 = f
      let newer : Prop := ∃ x ∈ entriesOf s e.lba.toNat, seqLt x.2.vseq e.vseq = false
      (e.valid = false → t = s) ∧ (e.valid = true → here.any (fun x => x.2.1 = 0xFF) = false → e ∈ t.hold.missing ∧ t.mpd = s.mpd) ∧
      ∀ y, here = some y → e.valid = true → y.2.1 = 0xFF → (newer → t.mpd = s.mpd) ∧
        (¬ newer → freeFrame s ≠ none → ∃ p ∈ t.hold.replayed, p.2 = 2 ∧ getEntry t p.1 = { e with frame := BitVec.ofNat 20 p.1, state := 1, mirrored := false } ∧ getFrame t p.1 = y.2.2)) := by
  refine Completes.live (if_pos hawake) fun t ht => ?_
  extract_lets keeps takes
  by_cases hkeeps : keeps
  · rw [if_pos hkeeps] at ht
    refine ⟨fun h => absurd hkeeps h, fun _ e hes => ?_, fun h => absurd hkeeps h⟩
    subst hes ht
    refine ⟨fun hfrees => ?_, fun hvalid hstate => mirrorEntry_kept hvalid hstate⟩
    change (getEntry (mirrorEntry e s) _).valid = false ∧ getFrame (mirrorEntry e s) _ = 0
    rw [mirrorEntry_freed hfrees, freeMirror_entry, freeMirror_frame]
    exact ⟨rfl, rfl⟩
  rw [if_neg hkeeps] at ht
  by_cases htakes : takes
  case neg =>
    rw [if_neg htakes] at ht
    exact ⟨fun _ _ => ht, fun h => absurd h hkeeps, fun _ h => absurd h htakes⟩
  rw [if_pos htakes] at ht
  refine ⟨fun _ h => absurd htakes h, fun h => absurd h hkeeps, fun _ _ e hes => ?_⟩
  subst hes
  change t = dumpEntry e s at ht
  extract_lets f here newer
  by_cases hvalid : e.valid = true
  case neg =>
    refine ⟨fun _ => ?_, fun h => absurd h hvalid, fun _ _ h => absurd h hvalid⟩
    rw [ht]
    exact if_pos (by simpa using hvalid)
  have hdump : t = match here with
      | some x => if x.2.1 = 0xFF then replayBlock 2 e x.2.2 { s with hold := { s.hold with inbound := s.hold.inbound.filter fun x => x.1 ≠ f } }
        else missBlock e { s with hold := { s.hold with inbound := s.hold.inbound.filter fun x => x.1 ≠ f } }
      | none => missBlock e { s with hold := { s.hold with inbound := s.hold.inbound.filter fun x => x.1 ≠ f } } := by
    rw [ht]
    exact if_neg (by simp [hvalid])
  refine ⟨fun h => absurd hvalid (by simp [h]), fun _ hmissing => ?_, fun y hy _ hwhole => ?_⟩
  · have hmiss : t = missBlock e { s with hold := { s.hold with inbound := s.hold.inbound.filter fun x => x.1 ≠ f } } := by
      rw [hdump]
      cases hhere : here with
      | none => rfl
      | some x =>
        rw [hhere, Option.any_some, decide_eq_false_iff_not] at hmissing
        exact if_neg hmissing
    rw [hmiss]
    exact ⟨List.mem_append_right _ List.mem_cons_self, rfl⟩
  · rw [hy] at hdump
    dsimp only at hdump
    rw [if_pos hwhole] at hdump
    refine ⟨fun hnewer => ?_, fun hnot hfree => ?_⟩
    · rw [hdump, replayBlock_newer (by exact hnewer)]
    · rw [hdump]
      exact replayBlock_loads hvalid hnot hfree

end Sys2Proof.Machine
end

section
/-! The entries and the frames beside completions (R295, R306). -/

namespace Sys2Proof.Machine
set_option Elab.async false

-- The entries and the frames beside completions (R295, R306).

/-- The ledger and the frames' data. -/
abbrev stored (s : State) : Tab LedgerEntry × Tab Block := (s.mpd.ledger, s.mpd.frames)
theorem stored_of_only {P : Tab LedgerEntry × Tab Block → Prop} {m : Units} {s t : State} (h : Only m s t) (hm : m.mpd = false := by rfl) : Holding stored P s t :=
  Kept.holding ⟨by unfold stored; rw [h.mpd hm]⟩
/-- What keeps where frames are released, and entries acknowledged. -/
structure Releasable (P : Tab LedgerEntry × Tab Block → Prop) : Prop where
  kept : ∀ {l b k}, P (l, b) → P (tabSet {} l k {}, b)
  freed : ∀ {l b k}, P (l, b) → P (tabSet {} l k {}, tabSet 0 b k 0)
  acked : ∀ {l b k}, P (l, b) → P (tabSet {} l k { tabGet {} l k with acked := true }, b)
theorem stored_setFrame (s : State) (k : Nat) (b : Block) : stored (setFrame s k b) = ((stored s).1, tabSet 0 (stored s).2 k b) := rfl
theorem pruneCommitted_stored {P : Tab LedgerEntry × Tab Block → Prop} (s) : Holding stored P s (pruneCommitted s) := by
  unfold pruneCommitted
  exact .ite .refl (.upd .refl)
theorem unpin_stored {P : Tab LedgerEntry × Tab Block → Prop} (arr s) : Holding stored P s (unpin arr s) := by
  unfold unpin
  exact .upd .refl
section
variable {P : Tab LedgerEntry × Tab Block → Prop} (hP : Releasable P)
include hP
theorem ackEntries_stored (c s) : Holding stored P s (ackEntries c s) := by
  unfold ackEntries
  exact .each (fun _ _ => .each (fun _ _ => .ite ⟨hP.acked⟩ .refl) .refl) .refl
theorem releaseFrames_stored (s) : Holding stored P s (releaseFrames s) := by
  unfold releaseFrames
  refine (pruneCommitted_stored _).after (.each (fun fe t => .ite (.ite ⟨hP.kept⟩ ⟨fun h => ?_⟩) .refl) .refl)
  rw [stored_setFrame]
  exact hP.freed h
theorem completeOne_stored (arr status info s) : Holding stored P s (completeOne arr status info s) := by
  unfold completeOne
  split
  · exact .refl
  · exact .ite .refl ((stored_of_only (issueRec_only ..)).after ((stored_of_only (dropGrants_only ..)).after ((releaseFrames_stored hP ..).after ((unpin_stored ..).after (.ite ((stored_of_only (modCmd_only ..))) ((stored_of_only (freeSlots_only ..)).after ((stored_of_only (modCmd_only ..)))))))))
theorem complete_stored (arr status info s) : Holding stored P s (complete arr status info s) := by
  unfold complete
  split
  · exact .refl
  · exact .each (fun _ _ => (completeOne_stored hP ..)) ((completeOne_stored hP ..))
theorem recheck_stored (s) : Holding stored P s (recheck s) := by
  unfold recheck
  refine .each (fun _ _ => ?_) .refl
  split
  · exact .refl
  · exact .ite ((complete_stored hP ..).after ((ackEntries_stored hP ..))) (.ite ((complete_stored hP ..)) (.ite ((stored_of_only (beginVerify_only ..))) .refl))
theorem pumpRead_stored (arr s) : Holding stored P s (pumpRead arr s) := by
  unfold pumpRead
  split
  · exact .refl
  · refine .ite .refl ?_
    refine (releaseFrames_stored hP ..).after ?_
    split
    · refine (complete_stored hP ..).after ?_
      refine .each (fun _ _ => ?_) .refl
      split
      · refine .ite ?_ .refl
        split
        · exact .upd ((stored_of_only (setSrc_only ..)).after (Holding.of_eq_snd ((stored_of_only (fillSlot_only ..))) ‹_›))
        · exact Holding.of_eq_snd ((stored_of_only (fillSlot_only ..))) ‹_›
      · exact .refl
    · refine (complete_stored hP ..).after ?_
      refine .each (fun _ _ => ?_) .refl
      split
      · refine .ite ?_ .refl
        split
        · exact .upd ((stored_of_only (setSrc_only ..)).after (Holding.of_eq_snd ((stored_of_only (fillSlot_only ..))) ‹_›))
        · exact Holding.of_eq_snd ((stored_of_only (fillSlot_only ..))) ‹_›
      · exact .refl
    · refine .each (fun _ _ => ?_) .refl
      split
      · refine .ite ?_ .refl
        split
        · exact .upd ((stored_of_only (setSrc_only ..)).after (Holding.of_eq_snd ((stored_of_only (fillSlot_only ..))) ‹_›))
        · exact Holding.of_eq_snd ((stored_of_only (fillSlot_only ..))) ‹_›
      · exact .refl
end

end Sys2Proof.Machine
end

section
/-! Confirmations, contexts and committed rows from the partner. -/

namespace Sys2Proof.Machine
set_option Elab.async false

-- Confirmations, contexts, committed rows and frames fetched (O46).

/-- The entry of the frame is MIRRORED, or none. -/
def MirroredOrGone (f : Nat) (v : Tab LedgerEntry × Tab Block) : Prop := (tabGet {} v.1 f : LedgerEntry).mirrored = true ∨ (tabGet {} v.1 f : LedgerEntry).valid = false
theorem mirroredOrGone_set {f k : Nat} {l : Tab LedgerEntry} {b c : Tab Block} {e : LedgerEntry} (h : MirroredOrGone f (l, b)) (he : k = f → e.mirrored = true ∨ e.valid = false) :
    MirroredOrGone f (tabSet {} l k e, c) := by
  unfold MirroredOrGone
  by_cases hk : k = f
  · subst hk
    rw [tabSet_same]
    exact he rfl
  · rw [tabSet_other _ _ _ (Ne.symm hk)]
    exact h
theorem mirroredOrGone_releasable (f : Nat) : Releasable (MirroredOrGone f) where
  kept h := mirroredOrGone_set h fun _ => .inr rfl
  freed h := mirroredOrGone_set h fun _ => .inr rfl
  acked h := mirroredOrGone_set h fun hk => hk ▸ h
theorem confirmFrame_settles (f : Nat) (s : State) : MirroredOrGone f (stored (confirmFrame f s)) := by
  unfold confirmFrame
  extract_lets e t
  split
  next h =>
    rw [Bool.not_eq_true'] at h
    exact .inr h
  · exact .inl (congrArg LedgerEntry.mirrored (tabSet_same ..))
theorem confirmFrame_keeps (f g : Nat) (s : State) : Holding stored (MirroredOrGone f) s (confirmFrame g s) := by
  unfold confirmFrame
  extract_lets e t
  exact .ite .refl (.upd ⟨fun h => mirroredOrGone_set h fun _ => .inl rfl⟩)
theorem freeMirror_gone (f g : Nat) {s : State} (h : (getEntry s f).valid = false ∧ getFrame s f = 0) : (getEntry (freeMirror g s) f).valid = false ∧ getFrame (freeMirror g s) f = 0 := by
  by_cases hf : f = g
  · subst hf
    rw [freeMirror_entry, freeMirror_frame]
    exact ⟨rfl, rfl⟩
  · rw [freeMirror_entry_other _ hf, freeMirror_frame_other _ hf]
    exact h
theorem each_freeMirror_other {f : Nat} (xs : List (Nat × LedgerEntry)) (s : State) (h : ∀ x ∈ xs, f ≠ x.1) :
    getEntry (each xs (fun fe u => freeMirror fe.1 u) s) f = getEntry s f ∧ getFrame (each xs (fun fe u => freeMirror fe.1 u) s) f = getFrame s f := by
  induction xs generalizing s with
  | nil => exact ⟨rfl, rfl⟩
  | cons x xs ih =>
    obtain ⟨hx, hxs⟩ := List.forall_mem_cons.1 h
    rw [each_cons, (ih _ hxs).1, (ih _ hxs).2, freeMirror_entry_other _ hx, freeMirror_frame_other _ hx]
    exact ⟨rfl, rfl⟩
/-- O46's third part (R303, R377, R450). -/
theorem confirm_mirrors {s : State} (hawake : awake s = true) (frames : List (BitVec 32)) : Completes (.confirm frames) s fun t => (s.ptn.role ≠ 1 → t = s) ∧
    (s.ptn.role = 1 → ∀ f ∈ frames, (getEntry s f.toNat).valid = true → (getEntry t f.toNat).mirrored = true ∨ (getEntry t f.toNat).valid = false) := by
  refine Completes.live (if_pos hawake) fun t ht => ⟨fun hrole => ?_, fun hrole f hf _ => ?_⟩
  · rw [if_pos hrole] at ht
    exact ht
  · rw [if_neg (not_not.2 hrole)] at ht
    subst ht
    have hmarked := (each_reaches (f := fun (g : BitVec 32) u => confirmFrame g.toNat u) (I := fun _ => True) (Q := fun g u => MirroredOrGone g.toNat (stored u)) (fun _ _ _ => trivial)
      (fun g u _ => confirmFrame_settles g.toNat u) (fun g k u _ h => (confirmFrame_keeps g.toNat k.toNat u).keeps h) frames s trivial).2 f hf
    exact (recheck_stored (mirroredOrGone_releasable f.toNat) _).keeps hmarked
/-- O46's fourth part (R296, R399). -/
theorem cmdCtx_kept {s : State} (hawake : awake s = true) (p : Port) (tag : BitVec 16) (arrival : BitVec 40) (op : BitVec 8) (lba : BitVec 48) (count : BitVec 32) :
    Completes (.cmdCtx p tag arrival op lba count) s fun t => (¬ mirrors s = true → t = s) ∧
      (mirrors s = true → t.ptn.ctxs = s.ptn.ctxs.filter (fun x => x.arrival ≠ arrival) ++ [{ port := p.num, tag, arrival, opcode := op, lba, count }] ∧
        seqLt arrival (BitVec.ofNat 40 t.hop.nextArrival) = true) := by
  refine Completes.live (if_pos hawake) fun t ht => ⟨fun hnot => ?_, fun hkeeps => ?_⟩
  · rw [if_neg hnot] at ht
    exact ht
  · rw [if_pos hkeeps] at ht
    subst ht
    have hctxs : (arrivalAbove arrival s).ptn = s.ptn := (arrivalAbove_only ..).ptn rfl
    exact ⟨congrArg (fun q : Ptn => q.ctxs.filter (fun x => x.arrival ≠ arrival) ++ [{ port := p.num, tag, arrival, opcode := op, lba, count }]) hctxs, arrivalAbove_above arrival s⟩
/-- A landed block that a context names is acknowledged, or waits to be. -/
def AckedOrNot (e : Nat × LedgerEntry) (l : Tab LedgerEntry) : Prop := e ∈ l ∨ (e.1, { e.2 with acked := true }) ∈ l
/-- The acknowledgement of one context, on one entry (R295, R377). -/
def ackedBy (x : MirrorCtx) (fe : Nat × LedgerEntry) : Nat × LedgerEntry :=
  if landedEntry fe.2 && (decide (x.lba.toNat ≤ fe.2.lba.toNat) && decide (fe.2.lba.toNat < x.lba.toNat + x.count.toNat)) && !(seqLt fe.2.vseq x.arrival) then (fe.1, { fe.2 with acked := true }) else fe
theorem ackMirror_ledger (x : MirrorCtx) (r : CplRec) (s : State) :
    (ackMirror x r s).mpd.ledger = if x.opcode = 0x02 && decide (r.status.toNat ≤ 1) then s.mpd.ledger.map (ackedBy x) else s.mpd.ledger := by
  unfold ackMirror ackedBy
  split <;> rfl
theorem ackedBy_acked (x : MirrorCtx) (e : Nat × LedgerEntry) : ackedBy x (e.1, { e.2 with acked := true }) = (e.1, { e.2 with acked := true }) := by
  unfold ackedBy
  split <;> rfl
theorem ackedBy_or (x : MirrorCtx) (e : Nat × LedgerEntry) : ackedBy x e = e ∨ ackedBy x e = (e.1, { e.2 with acked := true }) := by
  unfold ackedBy
  split
  · exact .inr rfl
  · exact .inl rfl
theorem ackMirror_keeps (x : MirrorCtx) (r : CplRec) (s : State) (e : Nat × LedgerEntry) :
    (AckedOrNot e s.mpd.ledger → AckedOrNot e (ackMirror x r s).mpd.ledger) ∧ ((e.1, { e.2 with acked := true }) ∈ s.mpd.ledger → (e.1, { e.2 with acked := true }) ∈ (ackMirror x r s).mpd.ledger) := by
  rw [ackMirror_ledger]
  split
  · have hacked (h : (e.1, { e.2 with acked := true }) ∈ s.mpd.ledger) : (e.1, { e.2 with acked := true }) ∈ s.mpd.ledger.map (ackedBy x) :=
      List.mem_map.2 ⟨_, h, ackedBy_acked x e⟩
    refine ⟨fun h => ?_, hacked⟩
    obtain h | h := h
    · rcases ackedBy_or x e with heq | heq
      · exact .inl (List.mem_map.2 ⟨e, h, heq⟩)
      · exact .inr (List.mem_map.2 ⟨e, h, heq⟩)
    · exact .inr (hacked h)
  · exact ⟨id, id⟩
theorem ackMirror_acks {x : MirrorCtx} {r : CplRec} {s : State} {e : Nat × LedgerEntry} (hgood : r.status.toNat ≤ 1) (hop : x.opcode = 0x02) (hlanded : landedEntry e.2 = true)
    (hlo : x.lba.toNat ≤ e.2.lba.toNat) (hhi : e.2.lba.toNat < x.lba.toNat + x.count.toNat) (hseq : seqLt e.2.vseq x.arrival = false) (h : AckedOrNot e s.mpd.ledger) :
    (e.1, { e.2 with acked := true }) ∈ (ackMirror x r s).mpd.ledger := by
  obtain h | h := h
  · rw [ackMirror_ledger, if_pos (by simp [hop, hgood])]
    refine List.mem_map.2 ⟨e, h, if_pos ?_⟩
    simp [hlanded, hlo, hhi, hseq]
  · exact (ackMirror_keeps x r s e).2 h
/-- O46's fifth part (R295, R377, R399). -/
theorem ptnCpl_acks {s : State} (hawake : awake s = true) (p : Port) (r : CplRec) : Completes (.ptnCpl p r) s fun t => (¬ mirrors s = true → t = s) ∧
    (mirrors s = true → t.ptn.ctxs = s.ptn.ctxs.map fun x => if x.port = p.num ∧ x.arrival = r.arrival then { x with cpl := some r } else x) ∧
    (mirrors s = true → r.status.toNat ≤ 1 → ∀ x ∈ s.ptn.ctxs, x.port = p.num → x.arrival = r.arrival → x.opcode = 0x02 → ∀ e ∈ s.mpd.ledger, landedEntry e.2 = true →
      x.lba.toNat ≤ e.2.lba.toNat → e.2.lba.toNat < x.lba.toNat + x.count.toNat → seqLt e.2.vseq x.arrival = false → (e.1, { e.2 with acked := true }) ∈ t.mpd.ledger) := by
  refine Completes.live (if_pos hawake) fun t ht => ?_
  by_cases hkeeps : mirrors s = true
  case neg =>
    rw [if_neg hkeeps] at ht
    exact ⟨fun _ => ht, fun h => absurd h hkeeps, fun h => absurd h hkeeps⟩
  rw [if_pos hkeeps] at ht
  have hloop : Only { mpd := true } s (each (s.ptn.ctxs.filter fun x => x.port = p.num && x.arrival = r.arrival) (fun x s => ackMirror x r s) s) :=
    .each (fun x u => ackMirror_only x r u) .refl
  refine ⟨fun h => absurd hkeeps h, fun _ => ?_, fun _ hgood x hx hport harrival hop e he hlanded hlo hhi hseq => ?_⟩
  · rw [ht]
    dsimp only
    rw [hloop.ptn rfl]
    simp only [Bool.and_eq_true, decide_eq_true_eq]
  · rw [ht]
    -- A context of this completion stands for every block inside it; the others keep what is acknowledged.
    have hreach := (each_reaches (f := fun x u => ackMirror x r u) (I := fun u => AckedOrNot e u.mpd.ledger)
      (Q := fun y u => y = x → (e.1, { e.2 with acked := true }) ∈ u.mpd.ledger) (fun y u h => (ackMirror_keeps y r u e).1 h)
      (fun y u h hy => hy ▸ ackMirror_acks hgood hop hlanded hlo hhi hseq h) (fun y z u _ h hy => (ackMirror_keeps z r u e).2 (h hy))
      (s.ptn.ctxs.filter fun x => x.port = p.num && x.arrival = r.arrival) s (.inl he)).2 x
    exact hreach (List.mem_filter.2 ⟨hx, by simp [hport, harrival]⟩) rfl
/-- O46's sixth part (R399). -/
theorem cplAcked_frees {s : State} (hawake : awake s = true) (p : Port) (tag : BitVec 16) (arrival : BitVec 40) :
    Completes (.cplAcked p tag arrival) s fun t => t.ptn.ctxs = s.ptn.ctxs.filter fun x => ¬ (x.port = p.num ∧ x.tag = tag ∧ x.arrival = arrival) := by
  refine Completes.live (if_pos hawake) fun t ht => ?_
  subst ht
  refine List.filter_congr fun x _ => ?_
  simp [beq_eq_decide, Bool.or_assoc]
/-- O46's seventh part, the frames of a committed row (R304, R449). -/
theorem ptnRowCommit_frees {s : State} (hawake : awake s = true) (row : BitVec 64) (time : Word) : Completes (.ptnRowCommit row time) s fun t =>
    let out (e : LedgerEntry) : Prop := e.valid = true ∧ (e.state = 2 ∨ e.state = 3) ∧ e.row.toNat = row.toNat
    (¬ mirrors s = true → t = s) ∧ (mirrors s = true → ∀ e ∈ s.mpd.ledger, (out e.2 → (getEntry t e.1).valid = false ∧ getFrame t e.1 = 0) ∧
      ((∀ x ∈ s.mpd.ledger, x.1 = e.1 → ¬ out x.2) → getEntry t e.1 = getEntry s e.1 ∧ getFrame t e.1 = getFrame s e.1)) := by
  refine Completes.live (if_pos hawake) fun t ht => ?_
  extract_lets out
  by_cases hkeeps : mirrors s = true
  case neg =>
    rw [if_neg hkeeps] at ht
    exact ⟨fun _ => ht, fun h => absurd h hkeeps⟩
  rw [if_pos hkeeps] at ht
  refine ⟨fun h => absurd hkeeps h, fun _ e he => ⟨fun hout => ?_, fun hnone => ?_⟩⟩
  · subst ht
    refine (each_reaches (f := fun (fe : Nat × LedgerEntry) u => freeMirror fe.1 u) (I := fun _ => True) (Q := fun fe u => (getEntry u fe.1).valid = false ∧ getFrame u fe.1 = 0)
      (fun _ _ _ => trivial) (fun fe u _ => ⟨by rw [freeMirror_entry], freeMirror_frame ..⟩) (fun fe ge u _ h => freeMirror_gone fe.1 ge.1 h) _ s trivial).2 e (List.mem_filter.2 ⟨he, ?_⟩)
    simpa [out, and_assoc] using hout
  · subst ht
    refine each_freeMirror_other _ s fun x hx heq => ?_
    obtain ⟨hin, hout⟩ := List.mem_filter.1 hx
    exact hnone x hin heq.symm (by simpa [out, and_assoc] using hout)

end Sys2Proof.Machine
end

section
/-! Layout, plan and deferred records from the partner (R441, R450). -/

namespace Sys2Proof.Machine
set_option Elab.async false

-- Layout, plan and deferred records from the partner (R441, R450).

theorem putLayout_defect (d : DefectEntry) (s : State) :
    (d.valid = true → d ∈ (putLayout (.defect d) s).layout.defects) ∧ (d.valid = false → d ∉ (putLayout (.defect d) s).layout.defects) := by
  unfold putLayout
  refine ⟨fun hvalid => ?_, fun hvalid hin => ?_⟩
  · simp [hvalid]
  · simp [hvalid] at hin
theorem putLayout_run (x : RunEntry) (s : State) : (putLayout (.run x) s).layout = if x.count = 0 then s.layout else enterRun s.img x s.layout := by
  unfold putLayout
  dsimp only
  split <;> rfl
theorem putLayout_failedHead (a h : Fin 8) (s : State) :
    (a.val, h.val) ∈ (putLayout (.failedHead a h) s).layout.failedHeads ∧ (getHead (putLayout (.failedHead a h) s) (8 * a.val + h.val)).failed = true := by
  unfold putLayout
  extract_lets u
  refine ⟨?_, by rw [getHead_modHead]⟩
  rw [(modHead_only ..).layout rfl]
  unfold u
  split
  next hin => exact List.contains_iff_mem.1 hin
  · exact List.mem_append_right _ List.mem_cons_self
/-- The record of a head's rebuild, in a table where each such record was changed alike. -/
theorem mem_eachRebuild {a h : Fin 8} {f : Rebuild → Rebuild} {s : State} {b : Rebuild} (hb : b ∈ (eachRebuild a h f s).layout.rebuilds) (hstate : b.state ≠ 0) (harm : b.arm = a.val)
    (hhead : b.head = h.val) : ∃ c, f c = b := by
  obtain ⟨c, -, rfl⟩ := Vector.mem_map.1 hb
  split
  · exact ⟨c, rfl⟩
  next hnot =>
    rw [if_neg hnot] at hstate harm hhead
    exact absurd (by simp [hstate, harm, hhead]) hnot
/-- O46's eighth part (R450). -/
theorem ptnLayout_kept {s : State} (hawake : awake s = true) (r : LayoutRec) : Completes (.ptnLayout r) s fun t =>
    let keeps : Prop := mirrors s = true
    let takes : Prop := takesDump s = true
    (¬ keeps → ¬ takes → t = s) ∧
    (keeps ∨ takes → (∀ d, r = .defect d → (d.valid = true → d ∈ t.layout.defects) ∧ (d.valid = false → d ∉ t.layout.defects)) ∧ (∀ x, r = .run x → t.layout = if x.count = 0 then s.layout else enterRun s.img x s.layout) ∧
      (∀ a h, r = .failedHead a h → (a.val, h.val) ∈ t.layout.failedHeads ∧ (getHead t (8 * a.val + h.val)).failed = true) ∧
      (∀ a h q, r = .cursor a h q → ∀ b ∈ t.layout.rebuilds, b.state ≠ 0 → b.arm = a.val → b.head = h.val → b.cursor = q.toNat ∧ b.savedCursor = q.toNat) ∧
      (∀ a h q listed, r = .skipped a h q listed → ∀ b ∈ t.layout.rebuilds, b.state ≠ 0 → b.arm = a.val → b.head = h.val →
        (q.toNat ∈ b.skip ↔ listed = true) ∧ b.savedSkip = b.skip)) := by
  refine Completes.live (if_pos hawake) fun t ht => ?_
  extract_lets keeps takes
  by_cases hgo : keeps ∨ takes
  case neg =>
    rw [if_neg (by simpa [keeps, takes] using hgo)] at ht
    exact ⟨fun _ _ => ht, fun h => absurd h hgo⟩
  rw [if_pos (by simpa [keeps, takes] using hgo)] at ht
  refine ⟨fun h h' => absurd hgo (by simp [h, h']), fun _ => ⟨?_, ?_, ?_, ?_, ?_⟩⟩
  · rintro d rfl
    subst ht
    exact putLayout_defect d s
  · rintro x rfl
    subst ht
    exact putLayout_run x s
  · rintro a h rfl
    subst ht
    exact putLayout_failedHead a h s
  · rintro a h q rfl
    subst ht
    intro b hb hstate harm hhead
    obtain ⟨c, rfl⟩ := mem_eachRebuild hb hstate harm hhead
    exact ⟨rfl, rfl⟩
  · rintro a h q listed rfl
    subst ht
    intro b hb hstate harm hhead
    obtain ⟨c, rfl⟩ := mem_eachRebuild hb hstate harm hhead
    refine ⟨?_, rfl⟩
    cases listed
    · simp
    · simp

/-- The pieces of a value or law that are here once the record has come (R441). -/
def piecesWith (r : PlanRec) (s : State) : List PlanRec :=
  s.fan.parts.filter (fun x => x.kind ≠ r.kind || x.loc ≠ r.loc || (x.part ≠ r.part && x.parts = r.parts && x.second = r.second)) ++ [r]
/-- The pieces of the record's own value or law. -/
def ownPieces (r : PlanRec) (s : State) : List PlanRec := (piecesWith r s).filter fun x => x.kind = r.kind && x.loc = r.loc
theorem find_ownPieces (r : PlanRec) (s : State) : (ownPieces r s).find? (fun x => x.part = r.part) = some r := by
  have hself : [r].filter (fun x => x.kind = r.kind && x.loc = r.loc) = [r] := by simp
  unfold ownPieces piecesWith
  rw [List.filter_append, hself, List.find?_append]
  have hnone : ((s.fan.parts.filter fun x => x.kind ≠ r.kind || x.loc ≠ r.loc || (x.part ≠ r.part && x.parts = r.parts && x.second = r.second)).filter fun x => x.kind = r.kind && x.loc = r.loc).find?
      (fun x => x.part = r.part) = none := by
    rw [List.find?_eq_none]
    intro x hx
    rw [List.mem_filter, List.mem_filter] at hx
    obtain ⟨⟨-, hother⟩, hmine⟩ := hx
    simp only [Bool.or_eq_true, Bool.and_eq_true, decide_eq_true_eq] at hother hmine
    rw [decide_eq_true_eq]
    exact fun hpart => hother.elim (fun h => h.elim (fun h => h hmine.1) fun h => h hmine.2) fun h => h.1.1 hpart
  rw [hnone]
  simp
theorem ownPieces_of_empty {r : PlanRec} {s : State} (h : s.fan.parts = []) : ownPieces r s = [r] := by
  unfold ownPieces piecesWith
  rw [h]
  simp
/-- A plan value kept without its other pieces. -/
def pieceDone (r : PlanRec) (s : State) : State := { s with fan := { s.fan with parts := (piecesWith r s).filter fun x => x.kind ≠ r.kind || x.loc ≠ r.loc } }
theorem keepPlan_law (r : PlanRec) (pieces : List Int) (s : State) (h : r.kind = 11) :
    (r.loc.zone, r.second.toNat, pieces.map fun x => BitVec.ofInt 256 x) ∈ (keepPlan r pieces s).fan.laws ∧ (keepPlan r pieces s).fan.planDigest = s.img.digest := by
  unfold keepPlan
  rw [if_pos h]
  exact ⟨List.mem_append_right _ List.mem_cons_self, rfl⟩
theorem keepPlan_value (r : PlanRec) (pieces : List Int) (s : State) (h : r.kind ≠ 11) (hparts : r.parts = 1) :
    (keepPlan r pieces s).fan.planDigest = s.img.digest ∧ ∃ x ∈ (keepPlan r pieces s).fan.plan, x.kind = r.kind ∧ x.loc = r.loc ∧ x.value = r.value ∧ x.second = r.second := by
  unfold keepPlan
  rw [if_neg h]
  extract_lets image value v
  refine ⟨rfl, v, List.mem_append_right _ List.mem_cons_self, rfl, rfl, ?_, rfl⟩
  exact if_pos hparts
theorem storePoint_stored {kind : Nat} {l : Loc} {day : Nat} {v : Int} {samples : Nat} {s : State} (hsamples : samples ≠ 0) (hshort : ∀ x ∈ s.fan.trends, x.points.length < 128) :
    ∃ x ∈ (storePoint kind l day v samples s).fan.trends, x.kind = kind ∧ x.loc = l ∧ x.points.getLast? = some (day, satInt 32 v, min 32767 samples) := by
  unfold storePoint
  rw [if_neg hsamples]
  extract_lets u w
  have hu : u.points.length < 128 ∧ u.kind = kind ∧ u.loc = l := by
    unfold u
    cases hfind : s.fan.trends.find? fun t => t.kind = kind && t.loc = l with
    | none => exact ⟨Nat.zero_lt_succ _, rfl, rfl⟩
    | some x =>
      have hx := List.find?_some hfind
      rw [Bool.and_eq_true, decide_eq_true_eq, decide_eq_true_eq] at hx
      exact ⟨hshort x (List.mem_of_find?_eq_some hfind), hx.1, hx.2⟩
  have hw : w = { u with points := u.points ++ [(day, satInt 32 v, min 32767 samples)] } := by
    unfold w foldDays
    exact if_pos (by rw [List.length_append, List.length_singleton]; omega)
  refine ⟨w, List.mem_append_right _ List.mem_cons_self, ?_⟩
  rw [hw]
  exact ⟨hu.2.1, hu.2.2, List.getLast?_concat⟩
/-- O46's ninth part (R441, R450). -/
theorem ptnPlan_kept {s : State} (hawake : awake s = true) (r : PlanRec) : Completes (.ptnPlan r) s fun t => (¬ mirrors s = true → t = s) ∧
    (mirrors s = true → r.trend = false → r.part < r.parts → r.parts ≠ 1 → s.fan.parts = [] → t.fan = { s.fan with parts := [r] }) ∧
    (mirrors s = true → r.trend = false → r.part = 0 → r.parts = 1 → r.kind = 11 → (r.loc.zone, r.second.toNat, [BitVec.ofInt 256 r.value]) ∈ t.fan.laws ∧ t.fan.planDigest = s.img.digest) ∧
    (mirrors s = true → r.trend = false → r.part = 0 → r.parts = 1 → r.kind ≠ 11 → t.fan.planDigest = s.img.digest ∧ ∃ x ∈ t.fan.plan, x.kind = r.kind ∧ x.loc = r.loc ∧ x.value = r.value ∧ x.second = r.second) ∧
    (mirrors s = true → r.trend = true → r.samples ≠ 0 → (∀ x ∈ s.fan.trends, x.points.length < 128) →
      ∃ x ∈ t.fan.trends, x.kind = r.kind ∧ x.loc = r.loc ∧ x.points.getLast? = some (r.day, satInt 32 r.value, min 32767 r.samples)) := by
  refine Completes.live (if_pos hawake) fun t ht => ?_
  by_cases hkeeps : mirrors s = true
  case neg =>
    rw [if_pos (by simpa using hkeeps)] at ht
    exact ⟨fun _ => ht, fun h => absurd h hkeeps, fun h => absurd h hkeeps, fun h => absurd h hkeeps, fun h => absurd h hkeeps⟩
  rw [if_neg (by simpa using hkeeps)] at ht
  by_cases htrend : r.trend = true
  · rw [if_pos htrend] at ht
    have hnot : r.trend ≠ false := by simp [htrend]
    refine ⟨fun h => absurd hkeeps h, fun _ h => absurd h hnot, fun _ h => absurd h hnot, fun _ h => absurd h hnot, fun _ _ hsamples hshort => ?_⟩
    rw [ht]
    exact storePoint_stored hsamples hshort
  rw [if_neg htrend] at ht
  change t = if !((List.range r.parts).all fun k => (ownPieces r s).any fun x => x.part = k) then { s with fan := { s.fan with parts := piecesWith r s } }
    else keepPlan r ((List.range r.parts).map fun k => (((ownPieces r s).find? fun x => x.part = k).map (·.value)).getD 0) (pieceDone r s) at ht
  have hone (hpart : r.part = 0) (hparts : r.parts = 1) : t = keepPlan r [r.value] (pieceDone r s) := by
    have hfind := find_ownPieces r s
    rw [hpart] at hfind
    have hany : (ownPieces r s).any (fun x => x.part = 0) = true :=
      List.any_eq_true.2 ⟨r, List.mem_of_find?_eq_some hfind, decide_eq_true hpart⟩
    rw [if_neg (by simp [hparts, List.range_one, hany]), hparts] at ht
    rw [ht, List.range_one, List.map_singleton, hfind]
    rfl
  refine ⟨fun h => absurd hkeeps h, fun _ _ hpart hparts hempty => ?_, fun _ _ hpart hparts hkind => ?_, fun _ _ hpart hparts hkind => ?_, fun _ h => absurd h htrend⟩
  · have hother : ∃ k < r.parts, k ≠ r.part := by
      by_cases hz : r.part = 0
      · exact ⟨1, by omega, by omega⟩
      · exact ⟨0, by omega, by omega⟩
    obtain ⟨k, hk, hne⟩ := hother
    have hpieces : piecesWith r s = [r] := by
      unfold piecesWith
      rw [hempty]
      rfl
    rw [if_pos, hpieces] at ht
    · rw [ht]
    · rw [ownPieces_of_empty hempty, Bool.not_eq_true', List.all_eq_false]
      exact ⟨k, List.mem_range.2 hk, by simpa using hne.symm⟩
  · rw [hone hpart hparts]
    exact keepPlan_law r [r.value] (pieceDone r s) hkind
  · rw [hone hpart hparts]
    exact keepPlan_value r [r.value] (pieceDone r s) hkind hparts
/-- A record that a new form of it, or a record joined of it and others, stands for. -/
def coveredBy (r q : DeferredRec) : Prop :=
  q.index = r.index ∨ (q.cause = r.cause ∧ q.arrival = r.arrival ∧ q.tag = r.tag ∧ r.lba.toNat ≤ q.lba.toNat ∧ q.lba.toNat + q.count.toNat ≤ r.lba.toNat + r.count.toNat)
/-- The records of a port once one more is kept. -/
def withDeferred (covered : DeferredRec → Bool) (r : DeferredRec) (qs : List DeferredRec) : List DeferredRec :=
  if qs.any covered then (qs.takeWhile fun q => !covered q) ++ r :: ((qs.dropWhile fun q => !covered q).filter fun q => !covered q) else qs ++ [r]
theorem withDeferred_spec (covered : DeferredRec → Bool) (r : DeferredRec) (qs : List DeferredRec) :
    r ∈ withDeferred covered r qs ∧ (∀ q ∈ qs, covered q = false → q ∈ withDeferred covered r qs) ∧ (∀ q ∈ withDeferred covered r qs, q = r ∨ (q ∈ qs ∧ covered q = false)) ∧
      ((∀ q ∈ qs, covered q = false) → withDeferred covered r qs = qs ++ [r]) := by
  unfold withDeferred
  split
  next hany =>
    refine ⟨by simp, fun q hq hnot => ?_, fun q hq => ?_, fun hnone => ?_⟩
    · rw [← List.takeWhile_append_dropWhile (p := fun q => !covered q) (l := qs), List.mem_append] at hq
      rw [List.mem_append, List.mem_cons, List.mem_filter]
      exact hq.imp_right fun h => .inr ⟨h, by rw [hnot]; rfl⟩
    · rw [List.mem_append, List.mem_cons, List.mem_filter] at hq
      rcases hq with hq | rfl | ⟨hq, hnot⟩
      · exact .inr ⟨(List.takeWhile_sublist _).subset hq, by simpa using List.mem_takeWhile_imp hq⟩
      · exact .inl rfl
      · exact .inr ⟨(List.dropWhile_sublist _).subset hq, by simpa using hnot⟩
    · obtain ⟨q, hq, hc⟩ := List.any_eq_true.1 hany
      exact absurd (hc.symm.trans (hnone q hq)) (by decide)
  next hnone =>
    refine ⟨by simp, fun q hq _ => List.mem_append_left _ hq, fun q hq => ?_, fun _ => rfl⟩
    rw [Bool.not_eq_true, List.any_eq_false] at hnone
    rw [List.mem_append, List.mem_singleton] at hq
    exact hq.symm.imp_right fun h => ⟨h, by simpa using hnone q h⟩
/-- Whether a record is covered, as the model asks it. -/
def coveredB (r q : DeferredRec) : Bool :=
  q.index = r.index || (q.cause = r.cause && q.arrival = r.arrival && q.tag = r.tag && decide (r.lba.toNat ≤ q.lba.toNat) && decide (q.lba.toNat + q.count.toNat ≤ r.lba.toNat + r.count.toNat))
theorem coveredB_iff (r q : DeferredRec) : coveredB r q = false ↔ ¬ coveredBy r q := by
  unfold coveredB coveredBy
  rw [← Bool.not_eq_true]
  simp [and_assoc]
theorem storeDeferred_deferred (r : DeferredRec) (s : State) :
    (getHopPort (storeDeferred r s) (b2n r.portB)).deferred = withDeferred (coveredB r) r (getHopPort s (b2n r.portB)).deferred := by
  unfold storeDeferred withDeferred
  rw [getHopPort_modHopPort]
  split
  next h => exact congrArg HopPort.deferred (if_pos h)
  next h => exact congrArg HopPort.deferred (if_neg h)
theorem storeDeferred_stores {r : DeferredRec} {s : State} :
    let after := (getHopPort (storeDeferred r s) (b2n r.portB)).deferred
    let before := (getHopPort s (b2n r.portB)).deferred
    r ∈ after ∧ (∀ q ∈ before, ¬ coveredBy r q → q ∈ after) ∧ (∀ q ∈ after, q = r ∨ (q ∈ before ∧ ¬ coveredBy r q)) ∧ ((∀ q ∈ before, ¬ coveredBy r q) → after = before ++ [r]) := by
  intro after before
  obtain ⟨hin, hkept, honly, hall⟩ := withDeferred_spec (coveredB r) r before
  have hafter : after = withDeferred (coveredB r) r before := storeDeferred_deferred r s
  rw [hafter]
  exact ⟨hin, fun q hq hnot => hkept q hq ((coveredB_iff r q).2 hnot), fun q hq => (honly q hq).imp_right fun h => ⟨h.1, (coveredB_iff r q).1 h.2⟩,
    fun hnone => hall fun q hq => (coveredB_iff r q).2 (hnone q hq)⟩
/-- A record that a port has room for is kept with the next index (R450). -/
theorem addDeferred_adds {r : DeferredRec} {s : State} (hroom : (getHopPort s (b2n r.portB)).deferred.length < 256) :
    ∃ q ∈ (getHopPort (addDeferred r s) (b2n r.portB)).deferred, q.cause = r.cause ∧ q.count = r.count ∧ q.lba = r.lba ∧ q.index.toNat = s.hop.nextDeferred % 2 ^ 32 := by
  unfold addDeferred
  rw [if_neg (Nat.not_le.2 hroom)]
  extract_lets idx q _ u
  have hhop : (mqNote 22 (mirror (.deferred q) (post 0x0C mHopper [b1 (b2n q.portB), b8 idx] u))).hop = u.hop :=
    ((mqNote_only ..).hop rfl).trans (((mirror_only ..).hop rfl).trans ((post_only ..).hop rfl))
  have hport : getHopPort (mqNote 22 (mirror (.deferred q) (post 0x0C mHopper [b1 (b2n q.portB), b8 idx] u))) (b2n r.portB) = getHopPort u (b2n r.portB) := by
    unfold getHopPort
    rw [hhop]
  rw [hport]
  exact ⟨q, (storeDeferred_stores (r := q)).1, rfl, rfl, rfl, BitVec.toNat_ofNat ..⟩
/-- O46's tenth part (R450, R460, R470). -/
theorem ptnDeferred_kept {s : State} (hawake : awake s = true) (r : DeferredRec) : Completes (.ptnDeferred r) s fun t =>
    let keeps : Prop := mirrors s = true
    let takes : Prop := takesDump s = true
    let h := getHopPort s (b2n r.portB)
    let after := (getHopPort t (b2n r.portB)).deferred
    let counts : Prop := 1 ≤ r.count.toNat ∧ r.count.toNat ≤ 65536
    (¬ counts ∨ (¬ keeps ∧ ¬ takes) → t = s) ∧
    (counts → keeps → r ∈ after ∧ (∀ q ∈ h.deferred, ¬ coveredBy r q → q ∈ after) ∧ (∀ q ∈ after, q = r ∨ (q ∈ h.deferred ∧ ¬ coveredBy r q)) ∧
      ((∀ q ∈ h.deferred, ¬ coveredBy r q) → after = h.deferred ++ [r])) ∧
    (counts → ¬ keeps → takes → h.deferred.length < 256 → ∃ q ∈ after, q.cause = 2 ∧ q.count = r.count ∧ q.lba = BitVec.allOnes 48 ∧ q.index.toNat = s.hop.nextDeferred % 2 ^ 32) := by
  refine Completes.live (if_pos hawake) fun t ht => ?_
  extract_lets keeps takes h after counts
  have hcounts : deferredOk r = true ↔ counts := by
    unfold deferredOk
    rw [Bool.and_eq_true, decide_eq_true_eq, decide_eq_true_eq]
  by_cases hc : counts
  case neg =>
    have hno : deferredOk r = false := Bool.eq_false_iff.2 fun hyes => hc (hcounts.1 hyes)
    rw [hno, Bool.and_false, Bool.and_false, if_neg Bool.false_ne_true, if_neg Bool.false_ne_true] at ht
    exact ⟨fun _ => ht, fun h => absurd h hc, fun h => absurd h hc⟩
  rw [hcounts.2 hc, Bool.and_true, Bool.and_true] at ht
  by_cases hkeeps : keeps
  · rw [if_pos hkeeps] at ht
    refine ⟨fun hnot => absurd hc (hnot.resolve_right fun h => h.1 hkeeps), fun _ _ => ?_, fun _ h => absurd hkeeps h⟩
    unfold after
    rw [ht]
    exact storeDeferred_stores
  rw [if_neg hkeeps] at ht
  by_cases htakes : takes
  · rw [if_pos htakes] at ht
    refine ⟨fun hnot => absurd hc (hnot.resolve_right fun h => h.2 htakes), fun _ h => absurd h hkeeps, fun _ _ _ hroom => ?_⟩
    obtain ⟨q, hq, hcause, hcount, hlba, hindex⟩ := addDeferred_adds (r := lostRecord r.portB r.count.toNat) (s := s) hroom
    unfold after
    rw [ht]
    exact ⟨q, hq, hcause, hcount.trans (by simp [lostRecord]), hlba, hindex⟩
  · rw [if_neg htakes] at ht
    exact ⟨fun _ => ht, fun _ h => absurd h hkeeps, fun _ _ h => absurd h htakes⟩

end Sys2Proof.Machine
end

section
/-! The mirror is kept (O46). -/

namespace Sys2Proof.Machine
set_option Elab.async false

-- Resynchronization and frames fetched (R306, R457); the mirror is kept (O46).

section
variable {awaited : CtlRec}
theorem beginHandover_way (reason s) : Holding linkTab (underWay awaited) s (beginHandover reason s) := by
  unfold beginHandover
  exact (ptnSend_way ..).after ((underWay_of_only (post_only ..)).after (.upd .refl))
theorem handOver_way (s) : Holding linkTab (underWay awaited) s (handOver s) := by
  unfold handOver
  exact .upd ((underWay_of_only (freeInner_only ..)).after (.each (fun _ _ => (complete_way ..)) ((ptnSend_way ..).after ((underWay_of_only (dropActive_only ..)).after ((underWay_of_only (startCoast_only ..)).after ((underWay_of_only (releaseArms_only ..)).after ((underWay_of_only (endVisits_only ..)))))))))
theorem advanceHandover_way (s) : Holding linkTab (underWay awaited) s (advanceHandover s) := by
  unfold advanceHandover
  refine .ite .refl ?_
  refine .ite ?_ ?_
  · refine (handOver_way ..).after ?_
    refine .ite ?_ ?_
    · refine (underWay_of_only (unloadAll_only ..)).after ?_
      refine .upd ?_
      split
      · exact .ite ((beginHandover_way ..).after ((underWay_of_only (modCmd_only ..)))) .refl
      · exact .refl
    · split
      · exact .ite ((beginHandover_way ..).after ((underWay_of_only (modCmd_only ..)))) .refl
      · exact .refl
  · refine .ite ?_ ?_
    · refine (underWay_of_only (unloadAll_only ..)).after ?_
      refine .upd ?_
      split
      · exact .ite ((beginHandover_way ..).after ((underWay_of_only (modCmd_only ..)))) .refl
      · exact .refl
    · split
      · exact .ite ((beginHandover_way ..).after ((underWay_of_only (modCmd_only ..)))) .refl
      · exact .refl
theorem sendBlock_way (f e s) : Holding linkTab (underWay awaited) s (sendBlock f e s) := by
  unfold sendBlock
  exact (ptnSend_way ..).after (.each (fun _ _ => ptnSend_way ..) .refl)
end
/-- The parts of a block, sent to the partner. -/
def sendParts (f : Nat) (s : State) : State := each (List.range 8) (fun fib s => ptnSend (.mdata f fib (partOf (getFrame s f) fib)) s) s
theorem sendParts_eq (f : Nat) (u : State) : sendParts f u = each (List.range 8) (fun fib s => ptnSend (.mdata f fib (partOf (getFrame s f) fib)) s) u := rfl
theorem sendParts_way {q : CtlRec} (f : Nat) (s : State) : Holding linkTab (underWay q) s (sendParts f s) := .each (fun _ _ => ptnSend_way ..) .refl
theorem sendParts_sends (f : Nat) (s : State) (k : Fin 8) : ToPartner (.mdata f k.val (partOf (getFrame s f) k.val)) (sendParts f s) :=
  (each_reaches (f := fun (fib : Nat) u => ptnSend (.mdata f fib (partOf (getFrame u f) fib)) u) (I := fun u => getFrame u f = getFrame s f)
    (Q := fun fib u => ToPartner (.mdata f fib (partOf (getFrame s f) fib)) u) (fun fib u hu => (getFrame_of_only f (ptnSend_only ..)).trans hu)
    (fun fib u hu => hu ▸ toPartner_ptnSend ..) (fun fib gib u _ h => (ptnSend_way ..).keeps h) (List.range 8) s rfl).2 k.val (List.mem_range.2 k.isLt)
/-- The partner records of one block are under way (R303). -/
theorem sendBlock_sends (f : Nat) (e : LedgerEntry) (s : State) : ToPartner (.ment [e]) (sendBlock f e s) ∧
    ∀ k : Fin 8, ToPartner (.mdata f k.val (partOf (getFrame s f) k.val)) (sendBlock f e s) :=
  ⟨toPartner_ptnSend .., fun k => (ptnSend_way ..).keeps (sendParts_sends f s k)⟩
/-- How often the mirror was brought up again. -/
abbrev resyncCount (s : State) : Nat := s.ptn.resyncs
theorem resyncs_of_only {m : Units} {s t : State} (h : Only m s t) (hm : m.ptn = false := by rfl) : Kept resyncCount s t := ⟨by unfold resyncCount; rw [h.ptn hm]⟩
theorem dropActive_resyncs (s) : Kept resyncCount s (dropActive s) := by
  unfold dropActive
  exact .upd (.ite ((resyncs_of_only (send_only ..)).after (.upd (.ite ((resyncs_of_only (inverterOff_only ..)).after (.ite (.each (fun _ _ => (resyncs_of_only (vcmFrame_only ..))) .refl) .refl)) ((resyncs_of_only (startCoast_only ..)).after (.ite (.each (fun _ _ => (resyncs_of_only (vcmFrame_only ..))) .refl) .refl))))) (.ite ((resyncs_of_only (inverterOff_only ..)).after (.ite (.each (fun _ _ => (resyncs_of_only (vcmFrame_only ..))) .refl) .refl)) ((resyncs_of_only (startCoast_only ..)).after (.ite (.each (fun _ _ => (resyncs_of_only (vcmFrame_only ..))) .refl) .refl))))
theorem beginHandover_resyncs (reason s) : Kept resyncCount s (beginHandover reason s) := by
  unfold beginHandover
  exact (resyncs_of_only (ptnSend_only ..)).after ((resyncs_of_only (post_only ..)).after (.upd .refl))
theorem handOver_resyncs (s) : Kept resyncCount s (handOver s) := by
  unfold handOver
  exact .upd ((resyncs_of_only (freeInner_only ..)).after (.each (fun _ _ => (resyncs_of_only (complete_only ..))) ((resyncs_of_only (ptnSend_only ..)).after ((dropActive_resyncs ..).after ((resyncs_of_only (startCoast_only ..)).after ((resyncs_of_only (releaseArms_only ..)).after ((resyncs_of_only (endVisits_only ..)))))))))
theorem advanceHandover_resyncs (s) : Kept resyncCount s (advanceHandover s) := by
  unfold advanceHandover
  refine .ite .refl ?_
  refine .ite ?_ ?_
  · refine (handOver_resyncs ..).after ?_
    refine .ite ?_ ?_
    · refine (resyncs_of_only (unloadAll_only ..)).after ?_
      refine .upd ?_
      split
      · exact .ite ((beginHandover_resyncs ..).after ((resyncs_of_only (modCmd_only ..)))) .refl
      · exact .refl
    · split
      · exact .ite ((beginHandover_resyncs ..).after ((resyncs_of_only (modCmd_only ..)))) .refl
      · exact .refl
  · refine .ite ?_ ?_
    · refine (resyncs_of_only (unloadAll_only ..)).after ?_
      refine .upd ?_
      split
      · exact .ite ((beginHandover_resyncs ..).after ((resyncs_of_only (modCmd_only ..)))) .refl
      · exact .refl
    · split
      · exact .ite ((beginHandover_resyncs ..).after ((resyncs_of_only (modCmd_only ..)))) .refl
      · exact .refl
/-- The commands under way, sent to a standby that asks for a resynchronization (R457). -/
def resyncCmds (s : State) : State := each (s.hop.cmds.filter fun c => c.phase ≠ .issued) (fun c s =>
  ptnSend (.cmdCtx c.port c.cap.tag (BitVec.ofNat 40 c.arrival) c.cap.opcode c.cap.lba c.cap.count) s) s
/-- Its deferred records, plan and laws. -/
def resyncRecords (s : State) : State :=
  let s := each ([0, 1].flatMap fun p => (getHopPort s p).deferred) (fun r s => ptnSend (.deferred r) s) s
  each (s.fan.plan.flatMap planRecs ++ s.fan.laws.flatMap fun l => lawRecs l.1 l.2.1 l.2.2) (fun r s => ptnSend (.plan r) s) s
/-- Its landed blocks, and the end of the resynchronization. -/
def resyncBlocks (s : State) : State := each (s.mpd.ledger.filter fun fe => landedEntry fe.2) (fun fe s => sendBlock fe.1 fe.2 s) s
def resynced (n : Nat) (s : State) : State :=
  let s := ptnSend (.resync 1 n) s
  { s with ptn := { s.ptn with synced := true, solo := false, resyncs := satInc 16 s.ptn.resyncs } }
abbrev sendingUnits : Units := { links := true, injs := true, tx := true }
theorem resyncCmds_only (s : State) : Only sendingUnits s (resyncCmds s) := .each (fun _ _ => ptnSend_only ..) .refl
theorem resyncRecords_only (s : State) : Only sendingUnits s (resyncRecords s) := .each (fun _ _ => ptnSend_only ..) (.each (fun _ _ => ptnSend_only ..) .refl)
theorem resyncBlocks_only (s : State) : Only sendingUnits s (resyncBlocks s) := .each (fun _ _ => sendBlock_only ..) .refl
theorem resyncRecords_way {q : CtlRec} (s : State) : Holding linkTab (underWay q) s (resyncRecords s) := .each (fun _ _ => ptnSend_way ..) (.each (fun _ _ => ptnSend_way ..) .refl)
theorem resyncBlocks_way {q : CtlRec} (s : State) : Holding linkTab (underWay q) s (resyncBlocks s) := .each (fun _ _ => sendBlock_way ..) .refl
theorem resynced_way {q : CtlRec} (n : Nat) (s : State) : Holding linkTab (underWay q) s (resynced n s) := .upd (ptnSend_way ..)
theorem resynced_ptn (n : Nat) (s : State) : (resynced n s).ptn = { s.ptn with synced := true, solo := false, resyncs := satInc 16 s.ptn.resyncs } := by
  unfold resynced
  dsimp only
  rw [(ptnSend_only ..).ptn rfl]
theorem resynced_dev (n : Nat) (s : State) : (resynced n s).dev = s.dev := (ptnSend_only ..).dev rfl
theorem execResyncStart_eq {s : State} (hawake : awake s = true) (hon : ptnOn s = true) (hrole : s.ptn.role = 1) (frames : BitVec 32) : exec (.resyncStart frames) s = .next (
    let u := resyncRecords (resyncCmds (post 0x88 mPartner [] s))
    advanceHandover (recheck (post 0x89 mPartner [] (resynced (u.mpd.ledger.filter fun fe => landedEntry fe.2).length (resyncBlocks u))))) := by
  refine (if_pos hawake).trans ?_
  rw [if_neg (by simp [hon, hrole])]
  simp only [resynced, resyncBlocks, resyncRecords, resyncCmds]
/-- O46's eleventh part (R456, R457). -/
theorem resyncStart_sends {s : State} (hawake : awake s = true) (frames : BitVec 32) : Completes (.resyncStart frames) s fun t =>
    (ptnOn s = false ∨ s.ptn.role ≠ 1 → t = s) ∧
    (ptnOn s = true → s.ptn.role = 1 → t.ptn.resyncs = satInc 16 s.ptn.resyncs ∧ ToPartner (.resync 1 (s.mpd.ledger.filter fun e => landedEntry e.2).length) t ∧
      (s.ptn.handStage = 0 → s.dev ≠ .ready → t.ptn.synced = true ∧ t.ptn.solo = false) ∧
      (∀ e ∈ s.mpd.ledger, landedEntry e.2 = true → ToPartner (.ment [e.2]) t ∧ ∀ k : Fin 8, ToPartner (.mdata e.1 k.val (partOf (getFrame s e.1) k.val)) t) ∧
      ∀ c ∈ s.hop.cmds, c.phase ≠ .issued → ToPartner (.cmdCtx c.port c.cap.tag (BitVec.ofNat 40 c.arrival) c.cap.opcode c.cap.lba c.cap.count) t) := by
  by_cases hgo : ptnOn s = true ∧ s.ptn.role = 1
  case neg =>
    refine Completes.live (if_pos hawake) fun t ht => ?_
    rw [if_pos (by simpa [imp_iff_not_or] using hgo)] at ht
    exact ⟨fun _ => ht, fun hon hrole => absurd ⟨hon, hrole⟩ hgo⟩
  refine Completes.live (execResyncStart_eq hawake hgo.1 hgo.2 frames) fun t ht => ⟨fun h => absurd hgo (by rcases h with h | h <;> simp [h]), fun _ _ => ?_⟩
  dsimp only at ht
  have hcmds : ∀ c ∈ s.hop.cmds, c.phase ≠ .issued →
      ToPartner (.cmdCtx c.port c.cap.tag (BitVec.ofNat 40 c.arrival) c.cap.opcode c.cap.lba c.cap.count) (resyncRecords (resyncCmds (post 0x88 mPartner [] s))) := by
    intro c hc hphase
    refine (resyncRecords_way _).keeps ?_
    have hpost : (post 0x88 mPartner [] s).hop = s.hop := (post_only ..).hop rfl
    refine (each_reaches (f := fun (c : Cmd) u => ptnSend (.cmdCtx c.port c.cap.tag (BitVec.ofNat 40 c.arrival) c.cap.opcode c.cap.lba c.cap.count) u) (I := fun _ => True)
      (Q := fun c u => ToPartner (.cmdCtx c.port c.cap.tag (BitVec.ofNat 40 c.arrival) c.cap.opcode c.cap.lba c.cap.count) u) (fun _ _ _ => trivial) (fun c u _ => toPartner_ptnSend ..)
      (fun c d u _ h => (ptnSend_way ..).keeps h) _ (post 0x88 mPartner [] s) trivial).2 c ?_
    rw [hpost]
    exact List.mem_filter.2 ⟨hc, decide_eq_true hphase⟩
  have hu : Only { evt := true, gov := true, links := true, injs := true, tx := true } s (resyncRecords (resyncCmds (post 0x88 mPartner [] s))) :=
    (resyncRecords_only _).after ((resyncCmds_only _).after (post_only ..).mono)
  generalize resyncRecords (resyncCmds (post 0x88 mPartner [] s)) = u at ht hcmds hu
  have hledger : u.mpd.ledger = s.mpd.ledger := congrArg (·.ledger) (hu.mpd rfl)
  have hblocks : ∀ e ∈ s.mpd.ledger, landedEntry e.2 = true → ToPartner (.ment [e.2]) (resyncBlocks u) ∧ ∀ k : Fin 8, ToPartner (.mdata e.1 k.val (partOf (getFrame s e.1) k.val)) (resyncBlocks u) := by
    intro e he hlanded
    have hframe (f : Nat) : getFrame u f = getFrame s f := getFrame_of_only f hu
    have hloop := (each_reaches (f := fun (fe : Nat × LedgerEntry) v => sendBlock fe.1 fe.2 v) (I := fun v => ∀ f, getFrame v f = getFrame s f)
      (Q := fun fe v => ToPartner (.ment [fe.2]) v ∧ ∀ k : Fin 8, ToPartner (.mdata fe.1 k.val (partOf (getFrame s fe.1) k.val)) v)
      (fun fe v hv f => (getFrame_of_only f (sendBlock_only ..)).trans (hv f)) (fun fe v hv => hv fe.1 ▸ sendBlock_sends fe.1 fe.2 v)
      (fun fe ge v _ h => ⟨(sendBlock_way ..).keeps h.1, fun k => (sendBlock_way ..).keeps (h.2 k)⟩) (u.mpd.ledger.filter fun fe => landedEntry fe.2) u hframe).2 e
    exact hloop (List.mem_filter.2 ⟨hledger ▸ he, hlanded⟩)
  have hfrom {q : CtlRec} {v : State} (hq : ToPartner q v) (hv : t = advanceHandover (recheck (post 0x89 mPartner [] v))) : ToPartner q t := by
    rw [hv]
    exact ((advanceHandover_way _).after ((recheck_way _).after (underWay_of_only (post_only ..)))).keeps hq
  rw [hledger] at ht
  have hsent : ToPartner (.resync 1 (s.mpd.ledger.filter fun e => landedEntry e.2).length) (resynced (s.mpd.ledger.filter fun fe => landedEntry fe.2).length (resyncBlocks u)) :=
    toPartner_ptnSend ..
  have hptn : (resynced (s.mpd.ledger.filter fun fe => landedEntry fe.2).length (resyncBlocks u)).ptn = { s.ptn with synced := true, solo := false, resyncs := satInc 16 s.ptn.resyncs } := by
    rw [resynced_ptn, (resyncBlocks_only _).ptn rfl, hu.ptn rfl]
  have hdev : (resynced (s.mpd.ledger.filter fun fe => landedEntry fe.2).length (resyncBlocks u)).dev = s.dev := by
    rw [resynced_dev, (resyncBlocks_only _).dev rfl, hu.dev rfl]
  have hway {q : CtlRec} (hq : ToPartner q (resyncBlocks u)) : ToPartner q (resynced (s.mpd.ledger.filter fun fe => landedEntry fe.2).length (resyncBlocks u)) := (resynced_way ..).keeps hq
  generalize resynced (s.mpd.ledger.filter fun fe => landedEntry fe.2).length (resyncBlocks u) = v at ht hsent hptn hdev hway
  refine ⟨?_, hfrom hsent ht, fun _ hready => ?_, fun e he hlanded => ?_, fun c hc hphase => hfrom (hway ((resyncBlocks_way _).keeps (hcmds c hc hphase))) ht⟩
  · have hcount : Kept resyncCount v t := by
      rw [ht]
      exact (advanceHandover_resyncs _).after ((resyncs_of_only (recheck_only _)).after (resyncs_of_only (post_only ..)))
    exact hcount.view.trans (congrArg (·.resyncs) hptn)
  · have hrest : Only { diag := true, mrc := true, mpd := true, links := true, injs := true, hop := true, slu := true, tx := true, evt := true, gov := true } v (recheck (post 0x89 mPartner [] v)) :=
      (recheck_only _).after (post_only ..).mono
    have hstill : t = recheck (post 0x89 mPartner [] v) := by
      rw [ht]
      exact if_pos (by rw [hrest.dev rfl, hdev, decide_eq_true hready, Bool.true_or])
    rw [hstill, hrest.ptn rfl, hptn]
    exact ⟨rfl, rfl⟩
  · obtain ⟨hment, hmdata⟩ := hblocks e he hlanded
    exact ⟨hfrom (hway hment) ht, fun k => hfrom (hway (hmdata k)) ht⟩
/-- O46's twelfth part (R457). -/
theorem resyncDone_synced {s : State} (hawake : awake s = true) (frames : BitVec 32) : Completes (.resyncDone frames) s fun t =>
    (¬ mirrors s = true → t = s) ∧ (mirrors s = true → t.ptn.synced = true ∧ t.ptn.asked = false ∧ t.ptn.resyncs = satInc 16 s.ptn.resyncs) := by
  refine Completes.live (if_pos hawake) fun t ht => ⟨fun hnot => ?_, fun hkeeps => ?_⟩
  · rw [if_neg (by exact hnot)] at ht
    exact ht
  · rw [if_pos (by exact hkeeps)] at ht
    rw [ht, (post_only ..).ptn rfl]
    exact ⟨rfl, rfl, rfl⟩
/-- O46's thirteenth part (R306). -/
theorem fetchRequest_answered {s : State} (hawake : awake s = true) (frame : BitVec 32) (vseq : BitVec 40) : Completes (.fetchRequest frame vseq) s fun t =>
    let f := frame.toNat
    let has : Prop := ptnOn s = true ∧ (getEntry s f).valid = true ∧ (getEntry s f).vseq = vseq
    (¬ has → t = s) ∧ (has → ToPartner (.fetch 1 f vseq) t ∧ ∀ k : Fin 8, ToPartner (.mdata f k.val (partOf (getFrame s f) k.val)) t) := by
  refine Completes.live (if_pos hawake) fun t ht => ?_
  extract_lets f has
  by_cases hhas : has
  · rw [if_pos (by simpa [has, and_assoc] using hhas), ← sendParts_eq] at ht
    rw [ht]
    refine ⟨fun h => absurd hhas h, fun _ => ⟨(sendParts_way ..).keeps (toPartner_ptnSend ..), fun k => ?_⟩⟩
    rw [← getFrame_of_only f (ptnSend_only (.fetch 1 f vseq) s)]
    exact sendParts_sends f _ k
  · rw [if_neg (by simpa [has, and_assoc] using hhas)] at ht
    exact ⟨fun _ => ht, fun h => absurd h hhas⟩
/-- The entry's block is this, or the frame has none. -/
def BlockOrGone (f : Nat) (data : Block) (v : Tab LedgerEntry × Tab Block) : Prop := (tabGet {} v.1 f : LedgerEntry).valid = true → tabGet 0 v.2 f = data
theorem blockOrGone_freed {f : Nat} {data : Block} {l : Tab LedgerEntry} {b c : Tab Block} {k : Nat} (h : BlockOrGone f data (l, b)) (hc : k ≠ f → tabGet 0 c f = tabGet 0 b f) :
    BlockOrGone f data (tabSet {} l k {}, c) := by
  unfold BlockOrGone
  by_cases hk : k = f
  · subst hk
    rw [tabSet_same]
    exact fun hv => Bool.noConfusion hv
  · rw [tabSet_other _ _ _ (Ne.symm hk), hc hk]
    exact h
theorem blockOrGone_releasable (f : Nat) (data : Block) : Releasable (BlockOrGone f data) where
  kept h := blockOrGone_freed h fun _ => rfl
  freed h := blockOrGone_freed h fun hk => tabSet_other _ _ _ (Ne.symm hk)
  acked {l b k} h := by
    unfold BlockOrGone
    by_cases hk : k = f
    · subst hk
      rw [tabSet_same]
      exact h
    · rw [tabSet_other _ _ _ (Ne.symm hk)]
      exact h
/-- The partner's copy has come for this version. -/
def fetched (f : Nat) (vseq : BitVec 40) (s : State) : State := { s with ptn := { s.ptn with fetches := s.ptn.fetches.filter (· ≠ (f, vseq.toNat)) } }
/-- O46's last part (R306). -/
theorem fetchReply_replaces {s : State} (hawake : awake s = true) (frame : BitVec 32) (vseq : BitVec 40) (data : Block) : Completes (.fetchReply frame vseq data) s fun t =>
    let f := frame.toNat
    let asked : Prop := (f, vseq.toNat) ∈ s.ptn.fetches
    (¬ asked → t = s) ∧ (asked → (f, vseq.toNat) ∉ t.ptn.fetches ∧ ((getEntry s f).valid = true → (getEntry s f).vseq = vseq → (getEntry t f).valid = true → getFrame t f = data)) := by
  refine Completes.live (if_pos hawake) fun t ht => ?_
  extract_lets f asked
  by_cases hasked : asked
  case neg =>
    rw [if_neg (by simpa [asked] using hasked)] at ht
    exact ⟨fun _ => ht, fun h => absurd h hasked⟩
  rw [if_pos (by simpa [asked] using hasked)] at ht
  change t = if (getEntry s f).valid && (getEntry s f).vseq = vseq then recheck (each (s.hop.cmds.map (·.arrival)) pumpRead (setFrame (fetched f vseq s) f data)) else fetched f vseq s at ht
  refine ⟨fun h => absurd hasked h, fun _ => ?_⟩
  have hgone (u : State) (hu : u.ptn = (fetched f vseq s).ptn) : (f, vseq.toNat) ∉ u.ptn.fetches := by
    rw [hu]
    simp [fetched]
  by_cases hhere : (getEntry s f).valid = true ∧ (getEntry s f).vseq = vseq
  · rw [if_pos (by simpa using hhere)] at ht
    have hpumped (u : State) : Only { diag := true, mrc := true, mpd := true, links := true, injs := true, hop := true, slu := true, tx := true } u (recheck (each (s.hop.cmds.map (·.arrival)) pumpRead u)) :=
      (recheck_only _).after (.each (fun arr v => (pumpRead_only arr v).mono) .refl)
    have hkept (u : State) : Holding stored (BlockOrGone f data) u (recheck (each (s.hop.cmds.map (·.arrival)) pumpRead u)) :=
      (recheck_stored (blockOrGone_releasable f data) _).after (.each (fun arr v => pumpRead_stored (blockOrGone_releasable f data) arr v) .refl)
    have hset (u : State) : BlockOrGone f data (stored (setFrame u f data)) := fun _ => getFrame_setFrame ..
    subst ht
    exact ⟨hgone _ (by rw [(hpumped _).ptn rfl, (setFrame_only ..).ptn rfl]), fun _ _ hvalid => (hkept _).keeps (hset _) hvalid⟩
  · rw [if_neg (by simpa using hhere)] at ht
    exact ⟨hgone t (by rw [ht]), fun hv hs => absurd ⟨hv, hs⟩ hhere⟩
/-- Settles O46: a standby's mirror, part by part, and what an active part takes of a dump. -/
theorem theMirrorIsKept : Obligations.TheMirrorIsKept := by
  unfold Obligations.TheMirrorIsKept
  intro s hawake
  exact ⟨mdata_mirrors hawake, ment_mirrors hawake, confirm_mirrors hawake, cmdCtx_kept hawake, ptnCpl_acks hawake, cplAcked_frees hawake, ptnRowCommit_frees hawake,
    ptnLayout_kept hawake, ptnPlan_kept hawake, ptnDeferred_kept hawake, resyncStart_sends hawake, resyncDone_synced hawake, fetchRequest_answered hawake, fetchReply_replaces hawake⟩

end Sys2Proof.Machine
end

section
/-! What the hopper keeps while commands complete (R367, R386). -/

namespace Sys2Proof.Machine
set_option Elab.async false

-- What the hopper keeps while commands complete (R367, R386).

/-- What of a command stays until its end is acknowledged. -/
def handled (c : Cmd) : Nat × Nat × Capsule × Nat × Nat × Nat := (c.arrival, c.port, c.cap, c.sent, c.fib, c.granted)
/-- The counts of a port's data and hold timers. -/
def timerCounts (h : HopPort) : Nat × Nat := (h.wdataTo, h.holdLimit)
/-- The commands and the queued completions stay, and a port without a command has no new completion. -/
structure HopKeeps (s t : State) : Prop where
  cmds : t.hop.cmds.map handled = s.hop.cmds.map handled
  counts : ∀ p, timerCounts (getHopPort t p) = timerCounts (getHopPort s p)
  recorded : ∀ p r, Recorded s p r → Recorded t p r
  quiet : ∀ p, (∀ c ∈ s.hop.cmds, c.port ≠ p) → (getHopPort t p).cpls = (getHopPort s p).cpls
theorem HopKeeps.of_hop {s t : State} (h : t.hop = s.hop) : HopKeeps s t where
  cmds := by rw [h]
  counts p := by unfold getHopPort; rw [h]
  recorded p r hr := by unfold Recorded getHopPort at *; rwa [h]
  quiet p _ := by unfold getHopPort; rw [h]
theorem HopKeeps.refl {s : State} : HopKeeps s s := .of_hop rfl
theorem no_port_of_handled {s t : State} {p : Nat} (h : t.hop.cmds.map handled = s.hop.cmds.map handled) (hs : ∀ c ∈ s.hop.cmds, c.port ≠ p) : ∀ c ∈ t.hop.cmds, c.port ≠ p := by
  intro c hc
  obtain ⟨d, hd, heq⟩ := List.mem_map.1 (h ▸ List.mem_map_of_mem (f := handled) hc)
  have hport : d.port = c.port := congrArg (·.2.1) heq
  exact hport ▸ hs d hd
theorem HopKeeps.after {s t u : State} (h₂ : HopKeeps t u) (h₁ : HopKeeps s t) : HopKeeps s u where
  cmds := h₂.cmds.trans h₁.cmds
  counts p := (h₂.counts p).trans (h₁.counts p)
  recorded p r hr := h₂.recorded p r (h₁.recorded p r hr)
  quiet p hp := (h₂.quiet p (no_port_of_handled h₁.cmds hp)).trans (h₁.quiet p hp)
theorem hopKeeps_of_only {m : Units} {s t : State} (h : Only m s t) (hm : m.hop = false := by rfl) : HopKeeps s t := .of_hop (h.hop hm)
theorem HopKeeps.upd {s t : State} {dev aon start idn fuses clk pwr flt evt mqs ptn hold diag img nvm layout alks islands bol heads arms gov spn spc mrc mpd rows tre fls fcc links injs slu fan tx free} (h : HopKeeps s t) :
    HopKeeps s (State.mk dev aon start idn fuses clk pwr flt evt mqs ptn hold diag img nvm layout alks islands bol heads arms gov spn spc mrc mpd rows tre fls fcc links injs t.hop slu fan tx free t.pending) :=
  ⟨h.cmds, h.counts, h.recorded, h.quiet⟩
theorem HopKeeps.ite {s t u : State} {c : Prop} [Decidable c] (h₁ : HopKeeps s t) (h₂ : HopKeeps s u) : HopKeeps s (if c then t else u) := by
  split
  · exact h₁
  · exact h₂
theorem HopKeeps.each {α : Type} {f : α → State → State} {s : State} (hf : ∀ x s, HopKeeps s (f x s)) {xs : List α} {t : State} (ht : HopKeeps s t) : HopKeeps s (each xs f t) := by
  induction xs generalizing t with
  | nil => exact ht
  | cons x xs ih =>
    rw [each_cons]
    exact ih ((hf x t).after ht)
theorem HopKeeps.of_eq_snd {α : Type} {p : α × State} {x : α} {s t : State} (h : HopKeeps s p.2) (e : p = (x, t)) : HopKeeps s t := by
  rw [e] at h
  exact h
theorem map_modCmd {α : Type} (g : Cmd → α) (s : State) (arr : Nat) (f : Cmd → Cmd) (hf : ∀ c, g (f c) = g c) : (modCmd s arr f).hop.cmds.map g = s.hop.cmds.map g := by
  show (s.hop.cmds.map _).map g = _
  rw [List.map_map]
  refine List.map_congr_left fun c _ => ?_
  rw [Function.comp_apply]
  split
  · exact hf c
  · rfl
theorem modCmd_hops (s : State) (arr : Nat) (f : Cmd → Cmd) (hf : ∀ c, handled (f c) = handled c := by intro; rfl) : HopKeeps s (modCmd s arr f) where
  cmds := map_modCmd handled s arr f hf
  counts _ := rfl
  recorded _ _ := id
  quiet _ _ := rfl
theorem getHopPort_issueRec (p : Nat) (r : CplRec) (s : State) : getHopPort (issueRec p r s) p = { getHopPort s p with cpls := (getHopPort s p).cpls ++ [.inl r] } := by
  unfold issueRec
  rw [getHopPort_modHopPort]
  split
  · rw [getHopPort_of_only p (mirror_only ..)]
  · rfl
theorem getHopPort_issueRec_other {p q : Nat} (r : CplRec) (s : State) (h : q ≠ p) : getHopPort (issueRec p r s) q = getHopPort s q := by
  unfold issueRec
  rw [getHopPort_modHopPort_other _ _ h]
  split
  · rw [getHopPort_of_only q (mirror_only ..)]
  · rfl
theorem issueRec_hops (p r s) : (issueRec p r s).hop.cmds = s.hop.cmds := by
  unfold issueRec
  show (if _ then _ else _ : State).hop.cmds = _
  split
  · rw [(mirror_only ..).hop rfl]
  · rfl
/-- A completion adds its record to the port of its command alone. -/
theorem issueDropped_hops {p : Nat} {r : CplRec} {tag : BitVec 16} {s : State} {c : Cmd} (hc : c ∈ s.hop.cmds) (hp : c.port = p) : HopKeeps s (issueRec p r (dropGrants p tag s)) where
  cmds := by rw [issueRec_hops]; rfl
  counts q := by
    by_cases hq : q = p
    · subst hq
      rw [getHopPort_issueRec, dropGrants, getHopPort_modHopPort]
      rfl
    · rw [getHopPort_issueRec_other _ _ hq, dropGrants, getHopPort_modHopPort_other _ _ hq]
  recorded q _ hr := .issueRec (.dropGrants hr)
  quiet q hq := by
    have hne : q ≠ p := fun h => hq c hc (hp.trans h.symm)
    rw [getHopPort_issueRec_other _ _ hne, dropGrants, getHopPort_modHopPort_other _ _ hne]
theorem completeOne_hops (arr status info s) : HopKeeps s (completeOne arr status info s) := by
  unfold completeOne
  split
  · exact .refl
  next c hc =>
    refine .ite .refl ?_
    extract_lets st r t
    have ht : HopKeeps s t := modCmd_hops ..
    have hu : HopKeeps s (releaseFrames (unpin arr (if st ≤ 1 then t else freeSlots arr t))) :=
      (hopKeeps_of_only (releaseFrames_only _)).after ((hopKeeps_of_only (unpin_only ..)).after (.ite ht ((hopKeeps_of_only (freeSlots_only ..)).after ht)))
    obtain ⟨d, hd, heq⟩ := List.mem_map.1 (hu.cmds ▸ List.mem_map_of_mem (f := handled) (List.mem_of_find?_eq_some hc))
    exact (issueDropped_hops hd (congrArg (·.2.1) heq)).after hu
theorem complete_hops (arr status info s) : HopKeeps s (complete arr status info s) := by
  unfold complete
  split
  · exact .refl
  · exact .each (fun _ _ => (completeOne_hops ..)) ((completeOne_hops ..))
theorem takeBlock_hops (arr i lba s) : HopKeeps s (takeBlock arr i lba s) := by
  unfold takeBlock
  extract_lets b t
  have ht : HopKeeps s t := (modCmd_hops ..)
  clear_value b t
  split
  · exact .ite (.upd (.upd ht)) (.upd ht)
  · exact .upd ht
  · exact ht
theorem retakeBlock_hops (arr i lba s) : HopKeeps s (retakeBlock arr i lba s) := by
  unfold retakeBlock
  extract_lets
  split
  · exact (hopKeeps_of_only (fetchRow_only ..)).after ((takeBlock_hops ..))
  · exact (takeBlock_hops ..)
theorem withdraw_hops (f s) : HopKeeps s (withdraw f s) := by
  unfold withdraw
  refine .each (fun _ _ => ?_) ((hopKeeps_of_only (mirror_only ..)).after (.upd ((hopKeeps_of_only (setFrame_only ..)).after ((hopKeeps_of_only (setEntry_only ..))))))
  split
  · exact .refl
  · refine (modCmd_hops ..).after ?_
    split
    · exact (retakeBlock_hops ..)
    · exact .refl
theorem passWrite_hops (w s) : HopKeeps s (passWrite w s) := by
  unfold passWrite
  refine .each (fun _ _ => ?_) .refl
  split
  · exact .refl
  · exact (modCmd_hops ..).after (.each (fun _ _ => (retakeBlock_hops ..)) .refl)
theorem withdrawLanding_hops (c s) : HopKeeps s (withdrawLanding c s) := by
  unfold withdrawLanding
  exact .each (fun _ _ => .ite ((withdraw_hops ..)) .refl) ((passWrite_hops ..).after ((modCmd_hops ..)))
theorem beginVerify_hops (arr s) : HopKeeps s (beginVerify arr s) := by
  unfold beginVerify
  split
  · exact .refl
  · exact .each (fun _ _ => (hopKeeps_of_only (fetchRow_only ..))) ((modCmd_hops ..))
theorem recheck_hops (s) : HopKeeps s (recheck s) := by
  unfold recheck
  refine .each (fun _ _ => ?_) .refl
  split
  · exact .refl
  · exact .ite ((complete_hops ..).after ((hopKeeps_of_only (ackEntries_only ..)))) (.ite ((complete_hops ..)) (.ite ((beginVerify_hops ..)) .refl))
theorem setSrc_hops (arr i b s) : HopKeeps s (setSrc arr i b s) := by
  unfold setSrc
  exact (modCmd_hops ..)
theorem pumpRead_hops (arr s) : HopKeeps s (pumpRead arr s) := by
  unfold pumpRead
  split
  · exact .refl
  · refine .ite .refl ?_
    refine (hopKeeps_of_only (releaseFrames_only ..)).after ?_
    split
    · refine (complete_hops ..).after ?_
      refine .each (fun _ _ => ?_) .refl
      split
      · refine .ite ?_ .refl
        split
        · exact .upd ((setSrc_hops ..).after (HopKeeps.of_eq_snd ((hopKeeps_of_only (fillSlot_only ..))) ‹_›))
        · exact HopKeeps.of_eq_snd ((hopKeeps_of_only (fillSlot_only ..))) ‹_›
      · exact .refl
    · refine (complete_hops ..).after ?_
      refine .each (fun _ _ => ?_) .refl
      split
      · refine .ite ?_ .refl
        split
        · exact .upd ((setSrc_hops ..).after (HopKeeps.of_eq_snd ((hopKeeps_of_only (fillSlot_only ..))) ‹_›))
        · exact HopKeeps.of_eq_snd ((hopKeeps_of_only (fillSlot_only ..))) ‹_›
      · exact .refl
    · refine .each (fun _ _ => ?_) .refl
      split
      · refine .ite ?_ .refl
        split
        · exact .upd ((setSrc_hops ..).after (HopKeeps.of_eq_snd ((hopKeeps_of_only (fillSlot_only ..))) ‹_›))
        · exact HopKeeps.of_eq_snd ((hopKeeps_of_only (fillSlot_only ..))) ‹_›
      · exact .refl
theorem abortCmd_hops (c info s) : HopKeeps s (abortCmd c info s) := by
  unfold abortCmd
  exact (recheck_hops ..).after (.each (fun _ _ => (pumpRead_hops ..)) ((complete_hops ..).after ((hopKeeps_of_only (cancelDescs_only ..)).after (.ite ((withdrawLanding_hops ..)) .refl))))

end Sys2Proof.Machine
end

section
/-! The links of the ports, and what goes out on a link (R366). -/

namespace Sys2Proof.Machine
set_option Elab.async false

-- The links of the two ports beside what goes to the partner.

/-- The links of the two ports. -/
abbrev hostLinks (s : State) : Link × Link := (tabGet (linkDef 0) s.links 0, tabGet (linkDef 1) s.links 1)
theorem getLink_of_ports {s t : State} (h : Kept hostLinks s t) (p : Port) : getLink t p.num = getLink s p.num := by
  cases p with
  | A => exact congrArg (·.1) h.view
  | B => exact congrArg (·.2) h.view
theorem hostLinks_of_only {m : Units} {s t : State} (h : Only m s t) (hm : m.links = false := by rfl) : Kept hostLinks s t := ⟨by unfold hostLinks; rw [h.links hm]⟩
theorem mirror_ports (r s) : Kept hostLinks s (mirror r s) := ⟨Prod.ext (getLink_mirror_other r s (by decide)) (getLink_mirror_other r s (by decide))⟩
theorem issueRec_ports (p r s) : Kept hostLinks s (issueRec p r s) := by
  unfold issueRec
  exact (hostLinks_of_only (modHopPort_only ..)).after (.ite ((mirror_ports ..)) .refl)
theorem completeOne_ports (arr status info s) : Kept hostLinks s (completeOne arr status info s) := by
  unfold completeOne
  split
  · exact .refl
  · exact .ite .refl ((issueRec_ports ..).after ((hostLinks_of_only (dropGrants_only ..)).after ((hostLinks_of_only (releaseFrames_only ..)).after ((hostLinks_of_only (unpin_only ..)).after (.ite ((hostLinks_of_only (modCmd_only ..))) ((hostLinks_of_only (freeSlots_only ..)).after ((hostLinks_of_only (modCmd_only ..)))))))))
theorem complete_ports (arr status info s) : Kept hostLinks s (complete arr status info s) := by
  unfold complete
  split
  · exact .refl
  · exact .each (fun _ _ => (completeOne_ports ..)) ((completeOne_ports ..))
theorem withdraw_ports (f s) : Kept hostLinks s (withdraw f s) := by
  unfold withdraw
  refine .each (fun _ _ => ?_) ((mirror_ports ..).after (.upd ((hostLinks_of_only (setFrame_only ..)).after ((hostLinks_of_only (setEntry_only ..))))))
  split
  · exact .refl
  · refine (hostLinks_of_only (modCmd_only ..)).after ?_
    split
    · exact (hostLinks_of_only (retakeBlock_only ..))
    · exact .refl
theorem withdrawLanding_ports (c s) : Kept hostLinks s (withdrawLanding c s) := by
  unfold withdrawLanding
  exact .each (fun _ _ => .ite ((withdraw_ports ..)) .refl) ((hostLinks_of_only (passWrite_only ..)).after ((hostLinks_of_only (modCmd_only ..))))
theorem recheck_ports (s) : Kept hostLinks s (recheck s) := by
  unfold recheck
  refine .each (fun _ _ => ?_) .refl
  split
  · exact .refl
  · exact .ite ((complete_ports ..).after ((hostLinks_of_only (ackEntries_only ..)))) (.ite ((complete_ports ..)) (.ite ((hostLinks_of_only (beginVerify_only ..))) .refl))
theorem pumpRead_ports (arr s) : Kept hostLinks s (pumpRead arr s) := by
  unfold pumpRead
  split
  · exact .refl
  · refine .ite .refl ?_
    refine (hostLinks_of_only (releaseFrames_only ..)).after ?_
    split
    · refine (complete_ports ..).after ?_
      refine .each (fun _ _ => ?_) .refl
      split
      · refine .ite ?_ .refl
        split
        · exact .upd ((hostLinks_of_only (setSrc_only ..)).after (Kept.of_eq_snd ((hostLinks_of_only (fillSlot_only ..))) ‹_›))
        · exact Kept.of_eq_snd ((hostLinks_of_only (fillSlot_only ..))) ‹_›
      · exact .refl
    · refine (complete_ports ..).after ?_
      refine .each (fun _ _ => ?_) .refl
      split
      · refine .ite ?_ .refl
        split
        · exact .upd ((hostLinks_of_only (setSrc_only ..)).after (Kept.of_eq_snd ((hostLinks_of_only (fillSlot_only ..))) ‹_›))
        · exact Kept.of_eq_snd ((hostLinks_of_only (fillSlot_only ..))) ‹_›
      · exact .refl
    · refine .each (fun _ _ => ?_) .refl
      split
      · refine .ite ?_ .refl
        split
        · exact .upd ((hostLinks_of_only (setSrc_only ..)).after (Kept.of_eq_snd ((hostLinks_of_only (fillSlot_only ..))) ‹_›))
        · exact Kept.of_eq_snd ((hostLinks_of_only (fillSlot_only ..))) ‹_›
      · exact .refl
theorem ackedFrame_ports (l f s) : Kept hostLinks s (ackedFrame l f s) := by
  unfold ackedFrame
  split
  · split
    · exact .ite .refl (.upd .refl)
    · exact .refl
  · refine .each (fun _ _ => ?_) .refl
    split
    · exact .ite .refl (.ite ((mirror_ports ..).after (.upd (.upd .refl))) (.upd (.upd .refl)))
    · exact .refl
  · exact .refl
theorem mirrorUnit_ports (u s) : Kept hostLinks s (mirrorUnit mirror u s) := by
  unfold mirrorUnit
  split
  · exact .ite ((mirror_ports ..).after (.each (fun _ _ => mirror_ports ..) .refl)) (.each (fun _ _ => mirror_ports ..) .refl)
  · exact .refl
theorem moveElem_ports (n d s) : Kept hostLinks s (moveElem n d s).2 := by
  unfold moveElem
  extract_lets
  split
  · split
    · exact .refl
    · exact hostLinks_of_only (sendSector_only ..)
  · split
    · split
      · exact .refl
      · exact .refl
    · split
      · exact .refl
      · exact .ite ((mirrorUnit_ports ..).after (Kept.of_eq_snd (hostLinks_of_only (moveUnit_only ..)) ‹_›)) (Kept.of_eq_snd (hostLinks_of_only (moveUnit_only ..)) ‹_›)
theorem moveElems_ports (ch d k n s) : Kept hostLinks s (moveElems ch d k n s).2 := by
  induction k generalizing n s with
  | zero => exact .refl
  | succ k ih =>
    unfold moveElems
    split
    · exact (hostLinks_of_only (haltChannelAs_only ..)).after (hostLinks_of_only (noteRefused_only ..))
    · split
      · exact (hostLinks_of_only (haltChannel_only ..)).after (Kept.of_eq_snd (moveElem_ports ..) ‹_›)
      · exact (ih ..).after (Kept.of_eq_snd (moveElem_ports ..) ‹_›)
theorem cancelCtx_ports (ch ctx sourcePresent s) : Kept hostLinks s (cancelCtx ch ctx sourcePresent s) := by
  unfold cancelCtx
  extract_lets
  split
  · exact (hostLinks_of_only (modTre_only ..))
  · refine .ite ((hostLinks_of_only (modTre_only ..))) ?_
    refine .ite ((hostLinks_of_only (skipHalt_only ..)).after ((hostLinks_of_only (modTre_only ..)))) ?_
    refine .ite ?_ ((hostLinks_of_only (modTre_only ..)))
    extract_lets
    split
    · exact (hostLinks_of_only (skipHalt_only ..)).after (Kept.of_eq_snd ((moveElems_ports ..).after ((hostLinks_of_only (nextFree_only ..)).after ((hostLinks_of_only (modTre_only ..))))) ‹_›)
    · exact (hostLinks_of_only (dropDesc_only ..)).after ((hostLinks_of_only (pulseDone_only ..)).after ((hostLinks_of_only (endPass_only ..)).after (Kept.of_eq_snd ((moveElems_ports ..).after ((hostLinks_of_only (nextFree_only ..)).after ((hostLinks_of_only (modTre_only ..))))) ‹_›)))
theorem cancelDescs_ports (c s) : Kept hostLinks s (cancelDescs c s) := by
  unfold cancelDescs
  exact .each (fun _ _ => (cancelCtx_ports ..)) .refl
theorem abortCmd_ports (c info s) : Kept hostLinks s (abortCmd c info s) := by
  unfold abortCmd
  exact (recheck_ports ..).after (.each (fun _ _ => (pumpRead_ports ..)) ((complete_ports ..).after ((cancelDescs_ports ..).after (.ite ((withdrawLanding_ports ..)) .refl))))
theorem endCommands_ports (p s) : Kept hostLinks s (endCommands p s) := by
  unfold endCommands
  exact (recheck_ports ..).after (.each (fun _ _ => (pumpRead_ports ..)) ((hostLinks_of_only (releaseFrames_only ..)).after ((hostLinks_of_only (modHopPort_only ..)).after (.upd (.each (fun _ _ => .ite ((hostLinks_of_only (freeSlots_only ..)).after ((hostLinks_of_only (unpin_only ..)).after (.ite ((mirror_ports ..)) .refl))) ((withdrawLanding_ports ..).after ((cancelDescs_ports ..).after ((hostLinks_of_only (freeSlots_only ..)).after ((hostLinks_of_only (unpin_only ..)).after (.ite ((mirror_ports ..)) .refl)))))) .refl)))))

-- What goes out on a link.

/-- What of a link stays while a frame of it goes out again. -/
def upright (k : Link) : Nat × BitVec 32 × Bool × BitVec 16 × BitVec 16 × Tab Nat × List (BitVec 16 × TxBody) :=
  (k.session, k.sid, k.compat, k.next, k.txSeq, k.credit, k.unacked.map fun f => (f.seq, f.body))
theorem getLink_putFrame (l seq body flip new s) : upright (getLink (putFrame l seq body flip new s) l) = upright (getLink s l) := by
  unfold putFrame frameSent queueOut
  rw [getLink_modLink, getLink_modLink, getLink_of_only l (send_only ..)]
  rfl
theorem putLctl_upright (l r s) : upright (getLink (putLctl l r s) l) = upright (getLink s l) := by
  unfold putLctl frameSent queueOut
  split
  · dsimp only
    rw [getLink_modLink, getLink_modLink, getLink_of_only l (send_only ..), ← getLink_of_only l (injectTx_only l 5 s)]
    rfl
  · rfl
theorem sendAgain_upright (l f s) : upright (getLink (sendAgain l f s) l) = upright (getLink s l) := by
  unfold sendAgain
  dsimp only
  rw [getLink_putFrame, getLink_modLink]
  unfold upright
  rw [List.map_map]
  refine congrArg (fun u => (_, _, _, _, _, _, u)) (List.map_congr_left fun g _ => ?_)
  rw [Function.comp_apply]
  split <;> rfl
/-- A numbered frame takes the next sequence number and a credit, and waits for its acknowledgement. -/
theorem sendNumbered_upright (l : Nat) (body : TxBody) (s : State) :
    upright (getLink (sendNumbered l body s) l) = ((getLink s l).session, (getLink s l).sid, (getLink s l).compat, (getLink s l).next, (getLink s l).txSeq + 1,
      tabMod 0 (getLink s l).credit (classOf body) (· - 1), (getLink s l).unacked.map (fun f => (f.seq, f.body)) ++ [((getLink s l).txSeq, keptBody body)]) := by
  unfold sendNumbered
  dsimp only
  rw [getLink_putFrame, getLink_modLink, getLink_of_only l (injectTx_only ..)]
  unfold upright
  rw [List.map_append]
  rfl

end Sys2Proof.Machine
end

section
/-! Completions and read data go out (R373, R376). -/

namespace Sys2Proof.Machine
set_option Elab.async false

-- Completions and read data go out against credit (R366, R368, R376).

theorem cmdOf_of_map {α : Type} {s t : State} (g : Cmd → Nat × α) (hg : ∀ c, (g c).1 = c.arrival) (h : t.hop.cmds.map g = s.hop.cmds.map g) (arr : Nat) :
    (cmdOf t arr).map g = (cmdOf s arr).map g := by
  have hfind (cs : List Cmd) : (cs.find? fun c => c.arrival = arr).map g = (cs.map g).find? fun x => x.1 = arr := by
    rw [List.find?_map]
    simp only [Function.comp_def, hg]
  unfold cmdOf
  rw [hfind, hfind, h]
theorem cmdOf_handled {s t : State} (h : HopKeeps s t) {arr : Nat} {d e : Cmd} (hd : cmdOf s arr = some d) (he : cmdOf t arr = some e) : handled e = handled d := by
  have hmap := cmdOf_of_map handled (fun _ => rfl) h.cmds arr
  rw [hd, he] at hmap
  exact Option.some.inj hmap
/-- A command that no other shares its number with is the one of its number. -/
theorem cmdOf_of_unique {s : State} {d : Cmd} (hd : d ∈ s.hop.cmds) (hu : ∀ e ∈ s.hop.cmds, e.arrival = d.arrival → e = d) : cmdOf s d.arrival = some d := by
  obtain ⟨e, he⟩ : ∃ e, cmdOf s d.arrival = some e := Option.isSome_iff_exists.1 (List.find?_isSome.2 ⟨d, hd, by simp⟩)
  rw [he, hu e (List.mem_of_find?_eq_some he) (by simpa using List.find?_some he)]
theorem sendNumbered_hop (l body s) : (sendNumbered l body s).hop = s.hop := (sendNumbered_only ..).hop
theorem putFrame_sent (l seq body flip new s) : SentBy (.frame l seq body (ackOf s l) (crClassOf s l) (crTotalOf s l) flip) s (putFrame l seq body flip new s) := by
  unfold putFrame
  exact (sentBy_send _ s).then ((frameSent_only ..).after (queueOut_only ..))
/-- A numbered frame goes out with the acknowledgement and the credit of its time. -/
theorem sendNumbered_sent (l : Nat) (body : TxBody) (s : State) :
    SentBy (.frame l (getLink s l).txSeq body (ackOf s l) (crClassOf s l) (crTotalOf s l) (injectTx l (ftypeOf body) s).1) s (sendNumbered l body s) := by
  unfold sendNumbered
  have hlink : getLink (injectTx l (ftypeOf body) s).2 l = getLink s l := getLink_of_only l (injectTx_only ..)
  have hu : Only { injs := true } s (injectTx l (ftypeOf body) s).2 := injectTx_only ..
  generalize injectTx l (ftypeOf body) s = x at hlink hu
  dsimp only
  have hsent := putFrame_sent l (getLink s l).txSeq body x.1 true (modLink x.2 l fun k => { k with
    txSeq := k.txSeq + 1, credit := tabMod 0 k.credit (classOf body) (· - 1),
    unacked := k.unacked ++ [{ seq := k.txSeq, body := keptBody body, sentAt := now x.2, corrupted := x.1.isSome, hit := x.1.isSome }] })
  unfold ackOf crTotalOf crClassOf at hsent ⊢
  rw [getLink_modLink, hlink] at hsent
  unfold SentBy at hsent ⊢
  rwa [show (modLink x.2 l _).tx = s.tx from hu.tx rfl] at hsent
/-- What a numbered frame makes of the sequence number, of the unacknowledged frames and of the credit. -/
structure Numbered (k : Link) (body : TxBody) (j : Link) : Prop where
  txSeq : j.txSeq = k.txSeq + 1
  unacked : j.unacked.map (fun f => (f.seq, f.body)) = k.unacked.map (fun f => (f.seq, f.body)) ++ [(k.txSeq, keptBody body)]
  credit : tabGet 0 j.credit (classOf body) = tabGet 0 k.credit (classOf body) - 1
theorem sendNumbered_numbered (l : Nat) (body : TxBody) (s : State) : Numbered (getLink s l) body (getLink (sendNumbered l body s) l) where
  txSeq := congrArg (·.2.2.2.2.1) (sendNumbered_upright l body s)
  unacked := congrArg (·.2.2.2.2.2.2) (sendNumbered_upright l body s)
  credit := by
    have hcredit : (getLink (sendNumbered l body s) l).credit = tabMod 0 (getLink s l).credit (classOf body) (· - 1) := congrArg (·.2.2.2.2.2.1) (sendNumbered_upright l body s)
    rw [hcredit]
    exact tabMod_same ..
/-- O36's fourth part (R376). -/
theorem cplFrameSend_sends {s : State} (hawake : awake s = true) (p : Port) : Completes (.cplFrameSend p) s (fun t =>
    let n := p.num
    let k := getLink s n
    let rs := (getHopPort s n).cpls.take 32
    let may : Prop := k.session = 1 ∧ rs ≠ [] ∧ maySend s n 2 = true
    (¬ may → t = s) ∧
    (may → (getHopPort t n).cpls = (getHopPort s n).cpls.drop 32 ∧ (getLink t n).txSeq = k.txSeq + 1 ∧ (getLink t n).unacked.map (fun f => (f.seq, f.body)) = k.unacked.map (fun f => (f.seq, f.body)) ++ [(k.txSeq, .cpl rs)] ∧
      tabGet 0 (getLink t n).credit 2 = tabGet 0 k.credit 2 - 1)) := by
  refine Completes.live (if_pos hawake) fun t ht => ?_
  extract_lets n k rs may
  have hcond : ((k.session = 1 && !rs.isEmpty && maySend s n 2) = true) ↔ may := by
    simp [may, and_assoc]
  by_cases hmay : may
  · rw [if_pos (hcond.2 hmay)] at ht
    subst ht
    refine ⟨fun h => absurd hmay h, fun _ => ?_⟩
    obtain ⟨hseq, hunacked, hcredit⟩ := sendNumbered_numbered n (.cpl rs) (modHopPort s n fun h => { h with cpls := h.cpls.drop 32 })
    refine ⟨?_, hseq, hunacked, hcredit⟩
    unfold getHopPort
    rw [sendNumbered_hop]
    exact congrArg HopPort.cpls (getHopPort_modHopPort ..)
  · rw [if_neg (fun h => hmay (hcond.1 h))] at ht
    exact ⟨fun _ => ht, fun h => absurd h hmay⟩

/-- A part of a block has gone out (R373). -/
def partSent (c : Cmd) : Cmd := if c.fib = 7 then { c with fib := 0, sent := c.sent + 1, srcs := c.srcs.set c.sent .sent } else { c with fib := c.fib + 1 }
theorem partSent_arrival (c : Cmd) : (partSent c).arrival = c.arrival := by
  unfold partSent
  split <;> rfl
theorem partSent_place (c : Cmd) : ((partSent c).sent, (partSent c).fib) = if c.fib = 7 then (c.sent + 1, 0) else (c.sent, c.fib + 1) := by
  unfold partSent
  split <;> rfl
/-- The next part of the block `b` of the command goes out on the port. -/
def sendPart (l : Nat) (c : Cmd) (b : Block) (s : State) : State :=
  modCmd (sendNumbered l (.rdata c.cap.tag c.sent c.fib (partOf b c.fib)) s) c.arrival partSent
/-- What follows the last part of a block. -/
def afterPart (c : Cmd) (s : State) : State :=
  if c.fib ≠ 7 then s
  else if c.cap.opcode = 0x01 then pumpRead c.arrival s
  else if c.reply.length ≤ c.sent + 1 then complete c.arrival 0 (c.result.map (·.info.toNat) |>.getD 0) s
  else s
theorem afterPart_hops (c s) : HopKeeps s (afterPart c s) := .ite .refl (.ite (pumpRead_hops ..) (.ite (complete_hops ..) .refl))
theorem afterPart_ports (c s) : Kept hostLinks s (afterPart c s) := .ite .refl (.ite (pumpRead_ports ..) (.ite (complete_ports ..) .refl))
theorem afterPart_only (c s) : Only { diag := true, mrc := true, mpd := true, links := true, injs := true, hop := true, tx := true } s (afterPart c s) :=
  .ite .refl (.ite (pumpRead_only ..).mono (.ite (complete_only ..).mono .refl))
/-- O36's fifth part (R368, R373). -/
theorem rdataFrameSend_sends {s : State} (hawake : awake s = true) (p : Port) : Completes (.rdataFrameSend p) s (fun t =>
    let n := p.num
    let k := getLink s n
    let c := s.hop.cmds.find? fun c => c.port = n && (nextData s c).isSome
    let may : Prop := k.session = 1 ∧ maySend s n 3 = true
    (¬ may ∨ c = none → t = s) ∧
    ∀ d, c = some d → may → ∀ b, nextData s d = some b →
      (getLink t n).txSeq = k.txSeq + 1 ∧ (getLink t n).unacked.map (fun f => (f.seq, f.body)) = k.unacked.map (fun f => (f.seq, f.body)) ++ [(k.txSeq, .rdata d.cap.tag d.sent d.fib 0)] ∧
        .frame n k.txSeq (.rdata d.cap.tag d.sent d.fib (partOf b d.fib)) (ackOf s n) (crClassOf s n) (crTotalOf s n) (injectTx n (ftypeOf (.rdata d.cap.tag d.sent d.fib (partOf b d.fib))) s).1 ∈ t.tx.drop s.tx.length ∧
        tabGet 0 (getLink t n).credit 3 = tabGet 0 k.credit 3 - 1 ∧
        ((∀ e ∈ s.hop.cmds, e.arrival = d.arrival → e = d) → ∀ e, cmdOf t d.arrival = some e → (e.sent, e.fib) = if d.fib = 7 then (d.sent + 1, 0) else (d.sent, d.fib + 1))) := by
  refine Completes.live (if_pos hawake) fun t ht => ?_
  extract_lets n k c may
  have hcond : ((k.session = 1 && maySend s n 3) = true) ↔ may := by
    simp [may]
  by_cases hmay : may
  case neg =>
    rw [if_neg (fun h => hmay (hcond.1 h))] at ht
    exact ⟨fun _ => ht, fun _ _ h => absurd h hmay⟩
  rw [if_pos (hcond.2 hmay)] at ht
  refine ⟨fun h => ?_, fun d hd _ b hb => ?_⟩
  · rw [show s.hop.cmds.find? _ = none from h.resolve_left (fun hn => hn hmay)] at ht
    exact ht
  rw [show s.hop.cmds.find? _ = some d from hd] at ht
  dsimp only at ht
  rw [hb] at ht
  change t = afterPart d (sendPart n d b s) at ht
  have hlink : getLink t n = getLink (sendNumbered n (.rdata d.cap.tag d.sent d.fib (partOf b d.fib)) s) n := by
    rw [ht, getLink_of_ports (afterPart_ports ..) p]
    rfl
  obtain ⟨hseq, hunacked, hcredit⟩ := sendNumbered_numbered n (.rdata d.cap.tag d.sent d.fib (partOf b d.fib)) s
  rw [hlink]
  refine ⟨hseq, hunacked, ?_, hcredit, fun hu e he => ?_⟩
  · rw [ht]
    exact ((sendNumbered_sent ..).then (modCmd_only _ d.arrival partSent)).then (afterPart_only d _)
  · have hcmd : cmdOf (sendNumbered n (.rdata d.cap.tag d.sent d.fib (partOf b d.fib)) s) d.arrival = some d := by
      rw [cmdOf, sendNumbered_hop]
      exact cmdOf_of_unique (List.mem_of_find?_eq_some hd) hu
    rw [ht] at he
    have hhandled := cmdOf_handled (afterPart_hops ..) (cmdOf_modCmd partSent_arrival hcmd) he
    rw [← partSent_place]
    exact congrArg (fun x : Nat × Nat × Capsule × Nat × Nat × Nat => (x.2.2.2.1, x.2.2.2.2.1)) hhandled

end Sys2Proof.Machine
end

section
/-! Sessions open, resume and end (R350 to R353). -/

namespace Sys2Proof.Machine
set_option Elab.async false

-- Sessions open, resume and end (R350 to R353).

/-- The port has no command and no completion waits on it. -/
def Quiet (p : Nat) (s : State) : Prop := (∀ c ∈ s.hop.cmds, c.port ≠ p) ∧ (getHopPort s p).cpls = []
theorem HopKeeps.quietly {s t : State} {p : Nat} (h : HopKeeps s t) (hs : Quiet p s) : Quiet p t :=
  ⟨no_port_of_handled h.cmds hs.1, (h.quiet p hs.1).trans hs.2⟩
theorem endCommands_quiet (p : Nat) (s : State) : Quiet p (endCommands p s) := by
  unfold endCommands
  refine HopKeeps.quietly ((recheck_hops _).after (.each (fun _ _ => pumpRead_hops ..) (hopKeeps_of_only (releaseFrames_only _)))) ⟨fun c hc => ?_, ?_⟩
  · exact of_decide_eq_true (List.mem_filter.1 hc).2
  · rw [getHopPort_modHopPort]
/-- The part's role (R451). -/
abbrev partRole (s : State) : Nat := s.ptn.role
theorem partRole_of_only {m : Units} {s t : State} (h : Only m s t) (hm : m.ptn = false := by rfl) : Kept partRole s t := ⟨by unfold partRole; rw [h.ptn hm]⟩
theorem endCommands_role (p : Nat) (s : State) : Kept partRole s (endCommands p s) := by
  unfold endCommands
  exact (partRole_of_only (recheck_only _)).after (.each (fun _ _ => partRole_of_only (pumpRead_only ..)) ((partRole_of_only (releaseFrames_only _)).after ((partRole_of_only (modHopPort_only ..)).after
    (.upd (.each (fun _ _ => .ite ((partRole_of_only (freeSlots_only ..)).after ((partRole_of_only (unpin_only ..)).after (.ite (partRole_of_only (mirror_only ..)) .refl)))
      ((partRole_of_only (withdrawLanding_only ..)).after ((partRole_of_only (cancelDescs_only ..)).after ((partRole_of_only (freeSlots_only ..)).after ((partRole_of_only (unpin_only ..)).after (.ite (partRole_of_only (mirror_only ..)) .refl)))))) .refl)))))
/-- What a session leaves when it ends. -/
def Ended (p : Nat) (t : State) : Prop := (∀ c ∈ t.hop.cmds, c.port ≠ p) ∧ (getHopPort t p).cpls = [] ∧ (getLink t p).session = 0 ∧ (getLink t p).unacked = []
/-- The link of a session that ends. -/
def severed (p : Nat) (s : State) : State := modLink s p fun k => { k with session := 0, unacked := [], ready := k.ready.filter (·.body.isRight), held := [], intake := [], gapTimer := false }
theorem endSession_after (p reason : Nat) (s : State) : Only { diag := true, evt := true, gov := true } (endCommands p (severed p s)) (endSession p reason s) := by
  unfold endSession
  exact (post_only ..).after (.ite (.upd (lockPort_only ..).mono) (.upd (lockPort_only ..).mono))
theorem endSession_ends (p : Port) (reason : Nat) (s : State) : Ended p.num (endSession p.num reason s) ∧ partRole (endSession p.num reason s) = partRole s := by
  have ht := endSession_after p.num reason s
  have hlink : getLink (endSession p.num reason s) p.num = getLink (severed p.num s) p.num := by
    rw [getLink_of_only _ ht, getLink_of_ports (endCommands_ports ..) p]
  rw [severed, getLink_modLink] at hlink
  obtain ⟨hcmds, hcpls⟩ := (hopKeeps_of_only ht).quietly (endCommands_quiet p.num _)
  refine ⟨⟨hcmds, hcpls, ?_, ?_⟩, ((partRole_of_only ht).after (endCommands_role ..)).view⟩
  · rw [hlink]
  · rw [hlink]
/-- O36's second part (R352). -/
theorem sessionClose_ends {s : State} (hawake : awake s = true) (p : Port) (sid : BitVec 32) (reason : BitVec 8) : Completes (.sessionClose p sid reason) s fun t =>
    let mine : Prop := (getLink s p.num).session ≠ 0 ∧ (getLink s p.num).sid = sid
    (¬ mine → t = s) ∧ (mine → Ended p.num t) := by
  refine Completes.live (if_pos hawake) fun t ht => ?_
  extract_lets mine
  unfold takeSessionClose at ht
  by_cases hmine : mine
  · rw [if_pos (by simpa [mine] using hmine)] at ht
    rw [ht]
    exact ⟨fun h => absurd hmine h, fun _ => (endSession_ends ..).1⟩
  · rw [if_neg (by simpa [mine] using hmine)] at ht
    exact ⟨fun _ => ht, fun h => absurd h hmine⟩
/-- O36's third part (R353). -/
theorem linkHoldExpiry_ends {s : State} (hawake : awake s = true) (p : Port) : Completes (.linkHoldExpiry p) s fun t =>
    ((getLink s p.num).session ≠ 2 → t = s) ∧ ((getLink s p.num).session = 2 → Ended p.num t) := by
  refine Completes.live (if_pos hawake) fun t ht => ?_
  by_cases hheld : (getLink s p.num).session = 2
  · rw [if_pos hheld] at ht
    rw [ht]
    exact ⟨fun h => absurd hheld h, fun _ => (endSession_ends ..).1⟩
  · rw [if_neg hheld] at ht
    exact ⟨fun _ => ht, fun h => absurd h hheld⟩

-- The opening of a session.

/-- The answer to an open (Table 11.9). -/
def sessionAnswer (p : Nat) (r : SessionOpen) (status : Nat) (next first : BitVec 16) (s : State) : State := putLctl p (.sessionAccept status r.compat r.sid 128 4096 next first) s
/-- The fields of an open are those that the part allows (R350). -/
def fieldsAllowed (s : State) (p : Nat) (r : SessionOpen) : Bool :=
  r.sid ≠ 0 && decide (16 ≤ r.cplCredits.toNat) && decide (256 ≤ r.rdataCredits.toNat) && (modeAllow s.img).testBit (2 * p + b2n r.compat)
/-- A session that goes on, before its frames go out again (R351). -/
def resumed (p : Nat) (r : SessionOpen) (s : State) : State :=
  post 0x70 mLink [b1 p, b8 r.sid.toNat, b1 (b2n r.compat)] (sessionAnswer p r 1 (getLink s p).next r.peerNext (takeAck p (r.peerNext - 1) (modLink s p fun k => { k with session := 1 })))
/-- A session that begins. -/
def opened (p : Nat) (r : SessionOpen) (s : State) : State :=
  takeoverCompletions p (post 0x70 mLink [b1 p, b8 r.sid.toNat, b1 (b2n r.compat)] (sessionAnswer p r 0 0 0 (modLink (if (getLink s p).session = 0 then s else endSession p 1 s) p (openLink r))))
theorem takeSessionOpen_eq (p : Nat) (r : SessionOpen) (s : State) : takeSessionOpen p r s =
    if !linkUp s p then s
    else if s.dev = .unconfigured || s.dev = .configuring then sessionAnswer p r 4 0 0 s
    else if r.resume then
      if (getLink s p).session = 0 || (getLink s p).sid ≠ r.sid then sessionAnswer p r 3 0 0 s
      else if (getLink s p).compat ≠ r.compat || !fieldsAllowed s p r then sessionAnswer p r 2 0 0 s
      else each (getLink (resumed p r s) p).unacked (sendAgain p) (resumed p r s)
    else if !fieldsAllowed s p r then sessionAnswer p r 2 0 0 s
    else opened p r s := rfl
/-- An open that is refused leaves the session as it is. -/
theorem sessionAnswer_refuses {s : State} {p : Nat} (hup : linkUp s p = true) (r : SessionOpen) (status : Nat) (next first : BitVec 16) :
    (getLink (sessionAnswer p r status next first s) p).session = (getLink s p).session ∧ (getLink (sessionAnswer p r status next first s) p).sid = (getLink s p).sid ∧
      (sessionAnswer p r status next first s).hop = s.hop ∧ (sessionAnswer p r status next first s).tx.length = s.tx.length + 1 := by
  have hupright := putLctl_upright p (.sessionAccept status r.compat r.sid 128 4096 next first) s
  refine ⟨congrArg (·.1) hupright, congrArg (·.2.1) hupright, (putLctl_only ..).hop, ?_⟩
  unfold sessionAnswer putLctl
  rw [if_pos hup]
  show ((injectTx p 5 s).2.tx ++ [_]).length = _
  rw [(injectTx_only ..).tx rfl, List.length_append]
  rfl
/-- The session of a link with what it counts. -/
def progress (k : Link) : Nat × BitVec 16 × BitVec 16 := (k.session, k.next, k.txSeq)
theorem progress_of_upright {k j : Link} (h : upright k = upright j) : progress k = progress j :=
  congrArg (fun x : Nat × BitVec 32 × Bool × BitVec 16 × BitVec 16 × Tab Nat × List (BitVec 16 × TxBody) => (x.1, x.2.2.2.1, x.2.2.2.2.1)) h
theorem takeAck_progress (p : Port) (ack : BitVec 16) (s : State) : progress (getLink (takeAck p.num ack s) p.num) = progress (getLink s p.num) := by
  unfold takeAck
  split
  · rfl
  · dsimp only
    rw [getLink_of_ports (.each (fun _ _ => ackedFrame_ports ..) .refl) p, getLink_modLink]
    rfl
theorem resumed_progress (p : Port) (r : SessionOpen) (s : State) : progress (getLink (resumed p.num r s) p.num) = (1, (getLink s p.num).next, (getLink s p.num).txSeq) := by
  unfold resumed sessionAnswer
  rw [getLink_of_only _ (post_only ..), progress_of_upright (putLctl_upright ..), takeAck_progress, getLink_modLink]
  rfl
theorem opened_upright (p : Port) (r : SessionOpen) (s : State) : ∃ k, upright (getLink (opened p.num r s) p.num) = upright (openLink r k) := by
  unfold opened sessionAnswer
  rw [getLink_of_only _ (takeoverCompletions_only ..), getLink_of_only _ (post_only ..), putLctl_upright, getLink_modLink]
  exact ⟨_, rfl⟩
/-- A session that has begun has nothing to acknowledge. -/
theorem opened_fresh (p : Port) (r : SessionOpen) (s : State) :
    (getLink (opened p.num r s) p.num).session = 1 ∧ (getLink (opened p.num r s) p.num).sid = r.sid ∧ (getLink (opened p.num r s) p.num).compat = r.compat ∧
      (getLink (opened p.num r s) p.num).next = 0 ∧ (getLink (opened p.num r s) p.num).txSeq = 0 ∧ (getLink (opened p.num r s) p.num).unacked = [] := by
  obtain ⟨k, hk⟩ := opened_upright p r s
  generalize getLink (opened p.num r s) p.num = j at hk
  simp only [upright, openLink, Prod.mk.injEq, List.map_nil, List.map_eq_nil_iff] at hk
  obtain ⟨hsession, hsid, hcompat, hnext, hseq, -, hunacked⟩ := hk
  exact ⟨hsession, hsid, hcompat, hnext, hseq, hunacked⟩
/-- A session that goes on keeps its place. -/
theorem resumed_goes (p : Port) (r : SessionOpen) (s : State) (t : State) (ht : t = each (getLink (resumed p.num r s) p.num).unacked (sendAgain p.num) (resumed p.num r s)) :
    (getLink t p.num).session = 1 ∧ (getLink t p.num).next = (getLink s p.num).next ∧ (getLink t p.num).txSeq = (getLink s p.num).txSeq := by
  have hagain : progress (getLink t p.num) = (1, (getLink s p.num).next, (getLink s p.num).txSeq) := by
    rw [ht, each_proj (fun s => progress (getLink s p.num)) _ _ _ fun f u => progress_of_upright (sendAgain_upright p.num f u)]
    exact resumed_progress p r s
  generalize getLink t p.num = j at hagain
  simp only [progress, Prod.mk.injEq] at hagain
  exact hagain
theorem opened_quiet {s : State} {p : Port} (r : SessionOpen) (hopen : (getLink s p.num).session ≠ 0) (hrole : s.ptn.role ≠ 1) : ∀ c ∈ (opened p.num r s).hop.cmds, c.port ≠ p.num := by
  have hended := endSession_ends p 1 s
  unfold opened sessionAnswer
  rw [if_neg hopen]
  generalize endSession p.num 1 s = u at hended
  obtain ⟨⟨hcmds, -⟩, hu⟩ := hended
  have honly : Only { links := true, injs := true, tx := true, evt := true, gov := true } (modLink u p.num (openLink r))
      (post 0x70 mLink [b1 p.num, b8 r.sid.toNat, b1 (b2n r.compat)] (putLctl p.num (.sessionAccept 0 r.compat r.sid 128 4096 0 0) (modLink u p.num (openLink r)))) :=
    (post_only ..).after (putLctl_only ..).mono
  unfold takeoverCompletions
  rw [if_neg (fun h => hrole (hu.symm.trans ((congrArg Ptn.role (honly.ptn rfl)).symm.trans h))), honly.hop rfl]
  exact hcmds
/-- O36's first part (R350, R351). -/
theorem sessionOpen_opens {s : State} (hawake : awake s = true) (p : Port) (r : SessionOpen) : Completes (.sessionOpen p r) s fun t =>
    let n := p.num
    let k := getLink s n
    let fields : Prop := r.sid ≠ 0 ∧ 16 ≤ r.cplCredits.toNat ∧ 256 ≤ r.rdataCredits.toNat ∧ (modeAllow s.img).testBit (2 * n + b2n r.compat) = true
    let up : Prop := linkUp s n = true
    let set : Prop := up ∧ s.dev ≠ .unconfigured ∧ s.dev ≠ .configuring
    (¬ up → t = s) ∧
    (up → ¬ set ∨ (r.resume = true ∧ (k.session = 0 ∨ k.sid ≠ r.sid ∨ k.compat ≠ r.compat)) ∨ ¬ fields → (getLink t n).session = k.session ∧ (getLink t n).sid = k.sid ∧ t.hop = s.hop ∧ t.tx.length = s.tx.length + 1) ∧
    (set → r.resume = true → k.session ≠ 0 → k.sid = r.sid → k.compat = r.compat → fields → (getLink t n).session = 1 ∧ (getLink t n).next = k.next ∧ (getLink t n).txSeq = k.txSeq) ∧
    (set → r.resume = false → fields → (getLink t n).session = 1 ∧ (getLink t n).sid = r.sid ∧ (getLink t n).compat = r.compat ∧ (getLink t n).next = 0 ∧ (getLink t n).txSeq = 0 ∧ (getLink t n).unacked = [] ∧
      (k.session ≠ 0 → s.ptn.role ≠ 1 → ∀ c ∈ t.hop.cmds, c.port ≠ n)) := by
  refine Completes.live (if_pos hawake) fun t ht => ?_
  extract_lets n k fields up set
  have hfields : fieldsAllowed s n r = true ↔ fields := by
    simp [fieldsAllowed, fields, and_assoc]
  rw [takeSessionOpen_eq] at ht
  by_cases hup : up
  case neg =>
    rw [if_pos (by simpa [up] using hup)] at ht
    exact ⟨fun _ => ht, fun h => absurd h hup, fun h => absurd h.1 hup, fun h => absurd h.1 hup⟩
  rw [if_neg (by simpa [up] using hup)] at ht
  have hrefuses (status : Nat) (next first : BitVec 16) := sessionAnswer_refuses (p := n) hup r status next first
  refine ⟨fun h => absurd hup h, ?_⟩
  by_cases hset : s.dev = .unconfigured ∨ s.dev = .configuring
  · rw [if_pos (by simpa using hset)] at ht
    have hnot : ¬ set := fun ⟨_, h₁, h₂⟩ => hset.elim h₁ h₂
    rw [ht]
    exact ⟨fun _ _ => hrefuses .., fun h => absurd h hnot, fun h => absurd h hnot⟩
  rw [if_neg (by simpa using hset)] at ht
  have hruns : set := ⟨hup, fun h => hset (.inl h), fun h => hset (.inr h)⟩
  by_cases hresume : r.resume = true
  · rw [if_pos hresume] at ht
    have hno {P : Prop} : r.resume = false → P := fun h => absurd (hresume.symm.trans h) (by decide)
    by_cases hgone : k.session = 0 ∨ k.sid ≠ r.sid
    · rw [if_pos (by simpa [k] using hgone)] at ht
      rw [ht]
      exact ⟨fun _ _ => hrefuses .., fun _ _ h₁ h₂ => absurd hgone (by simp [h₁, h₂]), fun _ h => hno h⟩
    rw [if_neg (by simpa [k] using hgone)] at ht
    by_cases hother : k.compat ≠ r.compat ∨ ¬ fields
    · rw [if_pos (by simpa [k, ← hfields] using hother)] at ht
      rw [ht]
      exact ⟨fun _ _ => hrefuses .., fun _ _ _ _ h₁ h₂ => absurd hother (by simp [h₁, h₂]), fun _ h => hno h⟩
    rw [if_neg (by simpa [k, ← hfields] using hother)] at ht
    obtain ⟨hsession, hsid⟩ := not_or.1 hgone
    obtain ⟨hcompat, hfit⟩ := not_or.1 hother
    refine ⟨fun _ h => absurd h ?_, fun _ _ _ _ _ _ => ?_, fun _ h => hno h⟩
    · simp only [not_or, not_and]
      exact ⟨fun h => h hruns, fun _ => ⟨hsession, hsid, hcompat⟩, hfit⟩
    exact resumed_goes p r s t ht
  rw [if_neg hresume] at ht
  by_cases hfit : fields
  case neg =>
    rw [if_pos (by simpa [← hfields] using hfit)] at ht
    rw [ht]
    exact ⟨fun _ _ => hrefuses .., fun _ h => absurd h hresume, fun _ _ h => absurd h hfit⟩
  rw [if_neg (by simpa [← hfields] using hfit)] at ht
  refine ⟨fun _ h => absurd h ?_, fun _ h => absurd h hresume, fun _ _ _ => ?_⟩
  · simp only [not_or, not_and]
    exact ⟨fun h => h hruns, fun h => absurd h hresume, fun h => h hfit⟩
  rw [ht]
  obtain ⟨h₁, h₂, h₃, h₄, h₅, h₆⟩ := opened_fresh p r s
  exact ⟨h₁, h₂, h₃, h₄, h₅, h₆, fun hopen hrole => opened_quiet r hopen hrole⟩

end Sys2Proof.Machine
end

section
/-! The timers of a command (R374, R396). -/

namespace Sys2Proof.Machine
set_option Elab.async false

-- A command while its landing is withdrawn.

/-- What of a command stays until it completes. -/
def phased (c : Cmd) : Nat × Nat × Capsule × Phase := (c.arrival, c.port, c.cap, c.phase)
/-- The commands of the hopper with their phases. -/
abbrev cmdPhases (s : State) : List (Nat × Nat × Capsule × Phase) := s.hop.cmds.map phased
theorem phases_of_only {m : Units} {s t : State} (h : Only m s t) (hm : m.hop = false := by rfl) : Kept cmdPhases s t := ⟨by unfold cmdPhases; rw [h.hop hm]⟩
theorem modCmd_phases (s : State) (arr : Nat) (f : Cmd → Cmd) (hf : ∀ c, phased (f c) = phased c := by intro; rfl) : Kept cmdPhases s (modCmd s arr f) := ⟨map_modCmd phased s arr f hf⟩
theorem takeBlock_phases (arr i lba s) : Kept cmdPhases s (takeBlock arr i lba s) := by
  unfold takeBlock
  extract_lets b t
  have ht : Kept cmdPhases s t := (modCmd_phases ..)
  clear_value b t
  split
  · exact .ite (.upd (.upd ht)) (.upd ht)
  · exact .upd ht
  · exact ht
theorem retakeBlock_phases (arr i lba s) : Kept cmdPhases s (retakeBlock arr i lba s) := by
  unfold retakeBlock
  extract_lets
  split
  · exact (phases_of_only (fetchRow_only ..)).after ((takeBlock_phases ..))
  · exact (takeBlock_phases ..)
theorem withdraw_phases (f s) : Kept cmdPhases s (withdraw f s) := by
  unfold withdraw
  refine .each (fun _ _ => ?_) ((phases_of_only (mirror_only ..)).after (.upd ((phases_of_only (setFrame_only ..)).after ((phases_of_only (setEntry_only ..))))))
  split
  · exact .refl
  · refine (modCmd_phases ..).after ?_
    split
    · exact (retakeBlock_phases ..)
    · exact .refl
theorem passWrite_phases (w s) : Kept cmdPhases s (passWrite w s) := by
  unfold passWrite
  refine .each (fun _ _ => ?_) .refl
  split
  · exact .refl
  · exact (modCmd_phases ..).after (.each (fun _ _ => (retakeBlock_phases ..)) .refl)
/-- A WRITE whose landing has been withdrawn waits. -/
theorem cmdOf_withdrawLanding {s : State} {c : Cmd} (h : cmdOf s c.arrival = some c) : ∃ d, cmdOf (withdrawLanding c s) c.arrival = some d ∧ d.port = c.port ∧ d.cap = c.cap ∧ d.phase = .waiting := by
  have hkept : Kept cmdPhases (modCmd s c.arrival fun c => { c with phase := .waiting }) (withdrawLanding c s) := by
    unfold withdrawLanding
    exact .each (fun _ _ => .ite (withdraw_phases ..) .refl) (passWrite_phases ..)
  have hmap := cmdOf_of_map phased (fun _ => rfl) hkept.view c.arrival
  have hwaits := cmdOf_modCmd (f := fun c => { c with phase := .waiting }) (fun _ => rfl) h
  rw [hwaits] at hmap
  obtain ⟨d, hd, heq⟩ := Option.map_eq_some_iff.1 hmap
  simp only [phased, Prod.mk.injEq] at heq
  obtain ⟨-, hport, hcap, hphase⟩ := heq
  exact ⟨d, hd, hport, hcap, hphase⟩

-- The timers of a command (R374, R396).

/-- The record of an aborted WRITE (R386). -/
theorem abortCmd_records {s : State} {c : Cmd} (info : Nat) (h : cmdOf s c.arrival = some c) (hop : c.cap.opcode = 0x02) :
    Recorded (abortCmd c info s) c.port { tag := c.cap.tag, status := 0x30, opcode := c.cap.opcode, arrival := BitVec.ofNat 40 c.arrival, info := BitVec.ofNat 48 info } := by
  obtain ⟨d, hd, hport, hcap, hphase⟩ := cmdOf_withdrawLanding h
  unfold abortCmd
  rw [if_pos hop]
  have hcancelled : cmdOf (cancelDescs c (withdrawLanding c s)) c.arrival = some d := (cmdOf_of_only _ (cancelDescs_only ..)).trans hd
  have hrec := recorded_complete 0x30 info hcancelled (by rw [hphase]; decide)
  rw [endRecord, hport, hcap] at hrec
  exact ((recheck_hops _).after (.each (fun _ _ => pumpRead_hops ..) .refl)).recorded _ _ hrec
theorem HopKeeps.timers {s t : State} (h : HopKeeps s t) (p : Nat) : (getHopPort t p).wdataTo = (getHopPort s p).wdataTo ∧ (getHopPort t p).holdLimit = (getHopPort s p).holdLimit := by
  have hcounts := h.counts p
  simp only [timerCounts, Prod.mk.injEq] at hcounts
  exact hcounts
/-- Data that did not come is counted (R374). -/
def dataLate (p : Nat) (s : State) : State := modHopPort s p fun h => { h with wdataTo := satInc 16 h.wdataTo }
/-- O36's seventh part (R374). -/
theorem wdataTimeout_aborts {s : State} (hawake : awake s = true) (p : Port) (tag : BitVec 16) : Completes (.wdataTimeout p tag) s fun t =>
    let n := p.num
    let c := cmdOfTag s n tag
    let due : Prop := c.any (fun c => c.cap.opcode = 0x02 && c.phase = .running && decide (c.landed.length < c.granted)) = true
    (¬ due → t = s) ∧
    ∀ d, c = some d → due → (getHopPort t n).wdataTo = satInc 16 (getHopPort s n).wdataTo ∧
      ((∀ e ∈ s.hop.cmds, e.arrival = d.arrival → e = d) → .inl { tag := d.cap.tag, status := 0x30, opcode := d.cap.opcode, arrival := BitVec.ofNat 40 d.arrival, info := 1 } ∈ (getHopPort t n).cpls) := by
  refine Completes.live (if_pos hawake) fun t ht => ?_
  extract_lets n c due
  cases hc : cmdOfTag s n tag with
  | none =>
    rw [hc] at ht
    exact ⟨fun _ => ht, fun d hd => absurd (hc.symm.trans hd) (by simp)⟩
  | some d =>
    rw [hc] at ht
    dsimp only at ht
    have hduef : due ↔ (d.cap.opcode = 0x02 && d.phase = .running && decide (d.landed.length < d.granted)) = true := by
      simp only [due, c, hc, Option.any_some]
    by_cases hdue : due
    case neg =>
      rw [if_neg (fun h => hdue (hduef.2 h))] at ht
      exact ⟨fun _ => ht, fun _ _ h => absurd h hdue⟩
    rw [if_pos (hduef.1 hdue)] at ht
    change t = abortCmd d 1 (dataLate n s) at ht
    refine ⟨fun h => absurd hdue h, fun e he _ => ?_⟩
    obtain rfl : d = e := Option.some.inj (hc.symm.trans he)
    have hfound := List.find?_some hc
    simp only [Bool.and_eq_true, decide_eq_true_eq] at hfound
    rw [ht]
    refine ⟨?_, fun hu => ?_⟩
    · rw [((abortCmd_hops d 1 (dataLate n s)).timers n).1, dataLate, getHopPort_modHopPort]
    · have hop : d.cap.opcode = 0x02 := by
        have hcase := hduef.1 hdue
        simp only [Bool.and_eq_true, decide_eq_true_eq] at hcase
        exact hcase.1.1
      have hrec := abortCmd_records (s := dataLate n s) 1 (cmdOf_of_unique (List.mem_of_find?_eq_some hc) hu) hop
      rw [hfound.1] at hrec
      exact hrec
/-- A hold that ran too long is counted, and its event comes once a second (R396). -/
def holdNoted (p : Nat) (s : State) : State :=
  let s := modHopPort s p fun h => { h with holdLimit := satInc 16 h.holdLimit, holdSince := satInc 16 h.holdSince }
  let h := getHopPort s p
  if h.holdEventAt.all fun t => decide (oneSec ≤ since s t) then
    post 0x0E mHopper [b1 p, b8 h.holdSince] (modHopPort s p fun h => { h with holdEventAt := some (now s), holdSince := 0 })
  else s
theorem holdNoted_port (p : Nat) (s : State) : ((getHopPort (holdNoted p s) p).holdLimit, (getHopPort (holdNoted p s) p).cpls) = (satInc 16 (getHopPort s p).holdLimit, (getHopPort s p).cpls) := by
  unfold holdNoted
  dsimp only
  split
  · rw [getHopPort_of_only _ (post_only ..), getHopPort_modHopPort, getHopPort_modHopPort]
  · rw [getHopPort_modHopPort]
/-- O36's last part (R396). -/
theorem holdLimitExpiry_ends {s : State} (hawake : awake s = true) (p : Port) (tag : BitVec 16) : Completes (.holdLimitExpiry p tag) s fun t =>
    let n := p.num
    let c := cmdOfTag s n tag
    (c.any (fun c => c.phase = .held) = false → t = s) ∧
    ∀ d, c = some d → d.phase = .held → (getHopPort t n).holdLimit = satInc 16 (getHopPort s n).holdLimit ∧
      ((∀ e ∈ s.hop.cmds, e.arrival = d.arrival → e = d) → .inl { tag := d.cap.tag, status := 0x21, opcode := d.cap.opcode, arrival := BitVec.ofNat 40 d.arrival, info := BitVec.ofNat 48 (devCode s.dev) } ∈ (getHopPort t n).cpls) := by
  refine Completes.live (if_pos hawake) fun t ht => ?_
  extract_lets n c
  cases hc : cmdOfTag s n tag with
  | none =>
    rw [hc] at ht
    exact ⟨fun _ => ht, fun d hd => absurd (hc.symm.trans hd) (by simp)⟩
  | some d =>
    rw [hc] at ht
    dsimp only at ht
    by_cases hheld : d.phase = .held
    case neg =>
      rw [if_pos hheld] at ht
      refine ⟨fun _ => ht, fun e he h => ?_⟩
      obtain rfl : d = e := Option.some.inj (hc.symm.trans he)
      exact absurd h hheld
    rw [if_neg (not_not.2 hheld)] at ht
    refine ⟨fun h => ?_, fun e he _ => ?_⟩
    · simp [c, hc, hheld] at h
    obtain rfl : d = e := Option.some.inj (hc.symm.trans he)
    have hfound := List.find?_some hc
    simp only [Bool.and_eq_true, decide_eq_true_eq] at hfound
    have hcount := ((complete_hops d.arrival 0x21 (devCode s.dev) s).timers n).2
    have hrec (hu : ∀ e ∈ s.hop.cmds, e.arrival = d.arrival → e = d) := recorded_complete 0x21 (devCode s.dev) (cmdOf_of_unique (List.mem_of_find?_eq_some hc) hu) (by rw [hheld]; decide)
    generalize complete d.arrival 0x21 (devCode s.dev) s = u at ht hcount hrec
    change t = holdNoted n u at ht
    have hnoted := holdNoted_port n u
    simp only [Prod.mk.injEq] at hnoted
    obtain ⟨hlimit, hcpls⟩ := hnoted
    rw [ht, hlimit, hcpls]
    refine ⟨congrArg (satInc 16) hcount, fun hu => ?_⟩
    have hhere := hrec hu
    rw [endRecord, hfound.1] at hhere
    exact hhere

end Sys2Proof.Machine
end

section
/-! Grants, and sessions with their transfers (O36). -/

namespace Sys2Proof.Machine
set_option Elab.async false

-- Grants of frames to a command that takes data (R366, R368).

/-- What of a command a grant changes. -/
def grantState (c : Cmd) : Nat × Nat × List (Nat × Nat × Nat) := (c.arrival, c.granted, c.grants)
/-- From `s` on the command of number `arr` has been granted up to `k` frames more, and nothing else is granted or completed. -/
structure GrantedUpTo (arr k : Nat) (s t : State) : Prop where
  cmd : ∀ d, cmdOf s arr = some d → ∃ e, cmdOf t arr = some e ∧ d.granted ≤ e.granted ∧ e.granted ≤ d.granted + k ∧ e.grants = d.grants
  ports : t.hop.ports = s.hop.ports
theorem GrantedUpTo.refl {arr : Nat} {s : State} : GrantedUpTo arr 0 s s := ⟨fun d hd => ⟨d, hd, Nat.le_refl _, Nat.le_refl _, rfl⟩, rfl⟩
theorem GrantedUpTo.after {arr j k : Nat} {s t u : State} (h₂ : GrantedUpTo arr j t u) (h₁ : GrantedUpTo arr k s t) : GrantedUpTo arr (k + j) s u where
  cmd d hd := by
    obtain ⟨e, he, hle, hup, hgrants⟩ := h₁.cmd d hd
    obtain ⟨f, hf, hle', hup', hgrants'⟩ := h₂.cmd e he
    exact ⟨f, hf, by omega, by omega, hgrants'.trans hgrants⟩
  ports := h₂.ports.trans h₁.ports
theorem claimFrame_grants (w lba f : Nat) (s : State) : (claimFrame w lba f s).hop.cmds.map grantState = s.hop.cmds.map grantState ∧ (claimFrame w lba f s).hop.ports = s.hop.ports := by
  unfold claimFrame
  constructor
  · exact each_proj (fun s => s.hop.cmds.map grantState) _ _ _ fun arr s => map_modCmd grantState s arr _ fun _ => rfl
  · exact each_proj (fun s => s.hop.ports) _ _ _ fun _ _ => rfl
theorem cmdOf_of_grants {s t : State} (h : t.hop.cmds.map grantState = s.hop.cmds.map grantState) {arr : Nat} {d : Cmd} (hd : cmdOf s arr = some d) :
    ∃ e, cmdOf t arr = some e ∧ e.granted = d.granted ∧ e.grants = d.grants := by
  have hmap := cmdOf_of_map grantState (fun _ => rfl) h arr
  rw [hd] at hmap
  obtain ⟨e, he, heq⟩ := Option.map_eq_some_iff.1 hmap
  simp only [grantState, Prod.mk.injEq] at heq
  exact ⟨e, he, heq.2⟩
theorem takeFrame_hop {s t : State} {f : Nat} (h : takeFrame s = some (f, t)) : t.hop = s.hop := by
  unfold takeFrame at h
  split at h
  · simp only [Option.some.injEq, Prod.mk.injEq] at h
    rw [← h.2]
  · obtain ⟨g, -, heq⟩ := Option.map_eq_some_iff.1 h
    simp only [Prod.mk.injEq] at heq
    rw [← heq.2]
    rfl
theorem grantBlock_grants (arr i : Nat) (s : State) : GrantedUpTo arr 1 s (grantBlock arr i s) := by
  unfold grantBlock
  cases hc : cmdOf s arr with
  | none => exact ⟨fun d hd => absurd (hc.symm.trans hd) (by simp), rfl⟩
  | some c =>
    dsimp only
    cases hf : takeFrame s with
    | none => exact ⟨fun d hd => ⟨d, hd, Nat.le_refl _, Nat.le_succ _, rfl⟩, rfl⟩
    | some x =>
      obtain ⟨f, u⟩ := x
      dsimp only
      have hhop := takeFrame_hop hf
      generalize hv : setEntry u f _ = v
      have hframe : (setFrame v f 0).hop = s.hop := by
        rw [(setFrame_only ..).hop rfl, ← hv]
        exact hhop
      generalize setFrame v f 0 = w at hframe
      obtain ⟨hclaimed, hports⟩ := claimFrame_grants arr (c.cap.lba.toNat + i) f (modCmd w arr fun c => { c with granted := c.granted + 1, frames := c.frames ++ [(i, f)] })
      refine ⟨fun d hd => ?_, hports.trans (show w.hop.ports = s.hop.ports by rw [hframe])⟩
      have hw : cmdOf w arr = some d := by
        unfold cmdOf at hd ⊢
        rwa [hframe]
      have hmod := cmdOf_modCmd (f := fun c => { c with granted := c.granted + 1, frames := c.frames ++ [(i, f)] }) (fun _ => rfl) hw
      obtain ⟨e, he, hgranted, hgrants⟩ := cmdOf_of_grants hclaimed hmod
      refine ⟨e, he, ?_, ?_, hgrants⟩
      · rw [hgranted]
        exact Nat.le_succ _
      · rw [hgranted]
theorem grantBlocks_grants (arr : Nat) (i : Nat → Nat) (ks : List Nat) (s : State) : GrantedUpTo arr ks.length s (each ks (fun k s => grantBlock arr (i k) s) s) := by
  induction ks generalizing s with
  | nil => exact .refl
  | cons k ks ih =>
    rw [each_cons, List.length_cons, Nat.add_comm]
    exact (ih _).after (grantBlock_grants ..)
/-- The frames that a grant asks for. -/
def grantAsk (s : State) (c : Cmd) : Nat := if c.cap.opcode = 0x02 then min (grantRoom s c) (524288 - dirtyFrames s) else grantRoom s c
/-- The command with its frames. -/
def framesGranted (s : State) (c : Cmd) : State :=
  if c.cap.opcode = 0x02 then each (List.range (grantAsk s c)) (fun k s => grantBlock c.arrival (c.granted + k) s) s
  else modCmd s c.arrival fun d => { d with granted := d.granted + grantAsk s c }
/-- A grant of `n` frames, told to the host. -/
def grantTold (c : Cmd) (n : Nat) (s : State) : State :=
  if n = 0 then s
  else modHopPort (modCmd s c.arrival fun d => { d with grants := d.grants ++ [(c.granted, n, now s)] }) c.port fun h => { h with cpls := h.cpls ++ [.inr (c.cap.tag, c.granted, n)] }
theorem framesGranted_grants (s : State) (d : Cmd) : GrantedUpTo d.arrival (grantAsk s d) s (framesGranted s d) := by
  unfold framesGranted
  split
  · have h := grantBlocks_grants d.arrival (fun k => d.granted + k) (List.range (grantAsk s d)) s
    rwa [List.length_range] at h
  · refine ⟨fun e he => ?_, rfl⟩
    have hmod := cmdOf_modCmd (f := fun e => { e with granted := e.granted + grantAsk s d }) (fun _ => rfl) he
    exact ⟨_, hmod, Nat.le_add_right .., Nat.le_refl _, rfl⟩
theorem framesGranted_only (s : State) (c : Cmd) : Only { diag := true, mpd := true, hop := true } s (framesGranted s c) :=
  .ite (.each (fun _ _ => (grantBlock_only ..).mono) .refl) (modCmd_only ..).mono
theorem grantTold_grants {d e : Cmd} {u : State} {n : Nat} (he : cmdOf u d.arrival = some e) (hn : n ≠ 0) :
    (∃ f, cmdOf (grantTold d n u) d.arrival = some f ∧ f.granted = e.granted ∧ f.grants = e.grants ++ [(d.granted, n, now u)]) ∧
      (getHopPort (grantTold d n u) d.port).cpls = (getHopPort u d.port).cpls ++ [.inr (d.cap.tag, d.granted, n)] := by
  unfold grantTold
  rw [if_neg hn, getHopPort_modHopPort]
  exact ⟨⟨_, cmdOf_modCmd (f := fun d' => { d' with grants := d'.grants ++ [(d.granted, n, now u)] }) (fun _ => rfl) he, rfl, rfl⟩, rfl⟩
/-- O36's sixth part (R366, R368). -/
theorem writeGrant_grants {s : State} (hawake : awake s = true) : Completes .writeGrant s (fun t =>
    let may (c : Cmd) : Bool := takesData c && c.phase = .running && decide (0 < grantRoom s c) &&
      (c.cap.opcode ≠ 0x02 || (decide (dirtyFrames s < 524288) && !(mirrorOn s && !(getLink s 2).txWait.isEmpty)))
    let c := s.hop.cmds.find? may
    (s.dev = .faultHold ∨ c = none → t = s) ∧
    ∀ d, c = some d → s.dev ≠ .faultHold → (∀ e ∈ s.hop.cmds, e.arrival = d.arrival → e = d) → ∀ e, cmdOf t d.arrival = some e →
      d.granted ≤ e.granted ∧ e.granted ≤ d.granted + grantRoom s d ∧ (d.cap.opcode = 0x02 → e.granted ≤ d.granted + (524288 - dirtyFrames s)) ∧ (d.cap.opcode = 0x40 → e.granted = d.granted + grantRoom s d) ∧
      (d.granted < e.granted → e.grants = d.grants ++ [(d.granted, e.granted - d.granted, now s)] ∧
        (getHopPort t d.port).cpls = (getHopPort s d.port).cpls ++ [.inr (d.cap.tag, d.granted, e.granted - d.granted)])) := by
  refine Completes.live (if_pos hawake) fun t ht => ?_
  extract_lets may c
  by_cases hheld : s.dev = .faultHold
  · rw [if_pos hheld] at ht
    exact ⟨fun _ => ht, fun _ _ h => absurd hheld h⟩
  rw [if_neg hheld] at ht
  refine ⟨fun h => ?_, fun d hd _ hu e he => ?_⟩
  · rw [show s.hop.cmds.find? (mayGrant s) = none from h.resolve_left hheld] at ht
    exact ht
  rw [show s.hop.cmds.find? (mayGrant s) = some d from hd] at ht
  change t = grantTold d (((cmdOf (framesGranted s d) d.arrival).map (·.granted)).getD d.granted - d.granted) (framesGranted s d) at ht
  have hcmd := cmdOf_of_unique (List.mem_of_find?_eq_some hd) hu
  obtain ⟨f, hf, hle, hup, hgrants⟩ := (framesGranted_grants s d).cmd d hcmd
  rw [hf, Option.map_some, Option.getD_some] at ht
  have hbound : f.granted ≤ d.granted + grantRoom s d ∧ (d.cap.opcode = 0x02 → f.granted ≤ d.granted + (524288 - dirtyFrames s)) := by
    unfold grantAsk at hup
    split at hup
    · exact ⟨by omega, fun _ => by omega⟩
    next hop => exact ⟨hup, fun h => absurd h hop⟩
  have hexact (hop : d.cap.opcode = 0x40) : f.granted = d.granted + grantRoom s d := by
    have hne : d.cap.opcode ≠ 0x02 := by
      rw [hop]
      decide
    have hmod := cmdOf_modCmd (f := fun e => { e with granted := e.granted + grantAsk s d }) (fun _ => rfl) hcmd
    rw [framesGranted, if_neg hne, hmod] at hf
    rw [← Option.some.inj hf]
    exact congrArg (d.granted + ·) (if_neg hne)
  have hports : getHopPort (framesGranted s d) d.port = getHopPort s d.port := by
    unfold getHopPort
    rw [(framesGranted_grants s d).ports]
  have hnow : now (framesGranted s d) = now s := now_of_only (framesGranted_only ..)
  by_cases hnone : f.granted - d.granted = 0
  · rw [hnone, grantTold, if_pos rfl] at ht
    obtain rfl : f = e := Option.some.inj ((hf.symm.trans (congrArg (cmdOf · d.arrival) ht).symm).trans he)
    exact ⟨hle, hbound.1, hbound.2, hexact, fun h => by omega⟩
  obtain ⟨⟨g, hg, hgranted, hgtold⟩, hcpls⟩ := grantTold_grants (d := d) hf hnone
  rw [← ht] at hg hcpls
  obtain rfl : g = e := Option.some.inj (hg.symm.trans he)
  rw [hgranted, hgtold, hgrants, hcpls, hports, hnow]
  exact ⟨hle, hbound.1, hbound.2, hexact, fun _ => ⟨rfl, rfl⟩⟩
/-- Settles O36: sessions, and what goes out for their commands, part by part. -/
theorem sessionsAndTheirTransfers : Obligations.SessionsAndTheirTransfers := by
  unfold Obligations.SessionsAndTheirTransfers
  intro s hawake p
  exact ⟨sessionOpen_opens hawake p, sessionClose_ends hawake p, linkHoldExpiry_ends hawake p, cplFrameSend_sends hawake p, rdataFrameSend_sends hawake p, writeGrant_grants hawake,
    wdataTimeout_aborts hawake p, holdLimitExpiry_ends hawake p⟩

end Sys2Proof.Machine
end

section
/-! Where a stop leads, and a stop in Configuring (R523, R590). -/

namespace Sys2Proof.Machine
set_option Elab.async false

-- Where a stop leads (R523).

/-- The device state stands, or it is Stopped. -/
def DevStops (s t : State) : Prop := t.dev = s.dev ∨ t.dev = .stopped
theorem advanceStop_devStops (s : State) : DevStops s (advanceStop s) := by
  have hlast (u : State) (hu : u.dev = s.dev) : DevStops s (if u.flt.stopStep = 3 && (u.spn.mode = 0 || !u.ptn.activeOut || lostArms u || u.spc.lost) then finalStop u.flt.stopCause u else u) := by
    split
    · exact .inr (finalStop_dev ..)
    · exact .inl hu
  unfold advanceStop
  refine hlast _ ?_
  split
  · dsimp only
    split
    · rw [startCoast_dev]
    · split
      · rw [spindleStop_dev]
      · rfl
  · rfl
theorem stopWaits_dev (solo : Bool) (cause : BitVec 8) (s : State) : (stopWaits solo cause s).dev = s.dev := by
  unfold stopWaits
  extract_lets t u _ _ v
  have ht : t.dev = s.dev := by
    unfold t
    split
    · rw [post_dev, ptnSend_dev]
    · rfl
  have hu : u.dev = t.dev := by
    unfold u
    split
    · rw [unloadAll_dev]
    · rfl
  exact ((dropGone_only _).dev rfl).trans (hu.trans ht)
theorem stopSequence_devStops (solo : Bool) (cause : BitVec 8) (s : State) : DevStops s (stopSequence solo cause s) := by
  by_cases hstep : s.flt.stopStep = 0
  · by_cases honce : stopsAtOnce s.dev = true
    · rw [stopSequence_atOnce honce hstep]
      exact .inr (finalStop_dev ..)
    by_cases hservice : inService s.dev = true
    · rw [stopSequence_inService hservice hstep]
      dsimp only
      split
      · exact .inr (finalStop_dev ..)
      · have hopened : (stopOpened cause s).dev = s.dev := (stopOpened_only cause s).dev rfl
        have hwaits := stopWaits_dev solo cause (stopOpened cause s)
        exact (advanceStop_devStops (stopWaits solo cause (stopOpened cause s))).imp_left fun h => h.trans (hwaits.trans hopened)
    · rw [stopSequence_of_down (down_iff.2 ⟨by simpa using honce, by simpa using hservice⟩)]
      exact .inl rfl
  · exact .inl (congrArg State.dev (if_pos hstep : stopSequence solo cause s = s))
theorem failStop_devStops (cause : BitVec 8) (s : State) : DevStops s (failStop cause s) := by
  rw [failStop_eq]
  exact stopSequence_devStops false cause (stopMarked s)

-- A part that has not left Configuring has no stop under way.

/-- The device state and the step of a stop. -/
abbrev stopState (s : State) : DevState × Nat := (s.dev, s.flt.stopStep)
/-- In Unconfigured and in Configuring no stop is under way. -/
def StartsClean (x : DevState × Nat) : Prop := x.1 = .configuring → x.2 = 0
theorem clean_of_only {m : Units} {s t : State} (h : Only m s t) (hd : m.dev = false := by rfl) (hf : m.flt = false := by rfl) : Holding stopState StartsClean s t :=
  ⟨by unfold stopState; rw [h.dev hd, h.flt hf]; exact id⟩
theorem failStop_clean (cause : BitVec 8) (s : State) : Holding stopState StartsClean s (failStop cause s) := by
  refine ⟨fun h hdev => ?_⟩
  have hstays : s.dev = .configuring := (failStop_devStops cause s).elim (fun heq => heq.symm.trans hdev) fun heq => absurd (heq.symm.trans hdev) (by decide)
  have hstopped := (failStop_stoppedBy (cause := cause) (s := s) (by rw [hstays]; rfl) (h hstays)).dev
  exact absurd (hstopped.symm.trans hdev) (by decide)
theorem advanceDrain_clean (s) : Holding stopState StartsClean s (advanceDrain s) := by
  unfold advanceDrain
  exact .ite (.ite (.ite ((clean_of_only (beginHandover_only ..))) .refl) ((failStop_clean ..).after (.ite ((clean_of_only (post_only ..))) .refl))) .refl
theorem poolEmpty_clean (s) : Holding stopState StartsClean s (poolEmpty s) := by
  unfold poolEmpty
  exact .ite .refl ((advanceDrain_clean ..).after (.upd .refl))
theorem moveBlock_clean (kind bank rblock s) : Holding stopState StartsClean s (moveBlock kind bank rblock s) := by
  unfold moveBlock
  split
  · exact (clean_of_only (notePool_only ..)).after (.upd ((clean_of_only (modBlk_only ..))))
  · exact (poolEmpty_clean ..)
theorem retireBlock_clean (kind bank rblock s) : Holding stopState StartsClean s (retireBlock kind bank rblock s) := by
  unfold retireBlock
  exact (clean_of_only (notePool_only ..)).after ((clean_of_only (post_only ..)).after ((moveBlock_clean ..).after (.upd ((clean_of_only (modBlk_only ..))))))
theorem eraseRegion_clean (kind s) : Holding stopState StartsClean s (eraseRegion kind s) := by
  unfold eraseRegion
  exact (clean_of_only (invalidate_only ..)).after (.upd (.each (fun _ _ => .each (fun _ _ => (clean_of_only (modBlk_only ..)).after (.ite (.ite ((clean_of_only (post_only ..)).after ((moveBlock_clean ..))) ((poolEmpty_clean ..))) .refl)) .refl) .refl))
theorem flagSweep_clean (o s) : Holding stopState StartsClean s (flagSweep o s) := by
  unfold flagSweep
  refine .each (fun _ _ => ?_) .refl
  refine .ite ?_ ((clean_of_only (blankBlock_only ..)).after ((clean_of_only (post_only ..)).after (.upd .refl)))
  split
  · exact (retireBlock_clean ..).after ((clean_of_only (post_only ..)).after (.upd .refl))
  · exact (clean_of_only (post_only ..)).after ((clean_of_only (modBlk_only ..)).after (.upd ((clean_of_only (post_only ..)).after (.upd .refl))))
theorem sweepAndTally_clean (o s) : Holding stopState StartsClean s (sweepAndTally o s) := by
  unfold sweepAndTally
  exact .ite ((clean_of_only (startTally_only ..)).after (.upd ((clean_of_only (atStep_only ..)).after ((flagSweep_clean ..).after ((clean_of_only (atStep_only ..))))))) ((clean_of_only (startFail_only ..)).after (.upd (.upd ((clean_of_only (atStep_only ..)).after ((flagSweep_clean ..).after ((clean_of_only (atStep_only ..))))))))
theorem armArea_clean (k s) : Holding stopState StartsClean s (armArea k s) := by
  unfold armArea
  exact (clean_of_only (post_only ..)).after (.upd ((clean_of_only (modArea_only ..)).after ((eraseRegion_clean ..))))

end Sys2Proof.Machine
end

section
/-! What the start keeps, and the image it loads (R587, R590). -/

namespace Sys2Proof.Machine
set_option Elab.async false

-- What the start keeps (R587, R590).

/-- The release, the image and the always-kept fields of the start. -/
abbrev startView (s : State) : Bool × Nat × Bool × Pwr × Clk × Nat := (s.start.inReset, s.start.releasedAt, s.start.imageLoaded, s.pwr, s.clk, s.idn.boot)
theorem startView_of_only {m : Units} {s t : State} (h : Only m s t) (hs : m.start = false := by rfl) (hp : m.pwr = false := by rfl) (hc : m.clk = false := by rfl) (hi : m.idn = false := by rfl) :
    Kept startView s t := ⟨by unfold startView; rw [h.start hs, h.pwr hp, h.clk hc, h.idn hi]⟩
theorem enterStopped_startView (cause s) : Kept startView s (enterStopped cause s) := by
  unfold enterStopped
  exact .upd (.each (fun _ _ => (startView_of_only (armDark_only ..))) ((startView_of_only (endVisits_only ..)).after ((startView_of_only (dropActive_only ..)))))
theorem finalStop_startView (cause s) : Kept startView s (finalStop cause s) := by
  unfold finalStop
  exact (enterStopped_startView ..).after ((startView_of_only (post_only ..)).after ((startView_of_only (releaseArms_only ..))))
theorem advanceStop_startView (s) : Kept startView s (advanceStop s) := by
  unfold advanceStop
  exact .ite ((finalStop_startView ..).after (.ite (.ite ((startView_of_only (startCoast_only ..)).after (.upd .refl)) (.ite ((startView_of_only (spindleStop_only ..)).after (.upd .refl)) (.upd .refl))) .refl)) (.ite (.ite ((startView_of_only (startCoast_only ..)).after (.upd .refl)) (.ite ((startView_of_only (spindleStop_only ..)).after (.upd .refl)) (.upd .refl))) .refl)
theorem stopSequence_startView (solo cause s) : Kept startView s (stopSequence solo cause s) := by
  unfold stopSequence
  refine .ite .refl ?_
  split
  · exact (finalStop_startView ..).after ((startView_of_only (stopChannels_only ..)).after ((startView_of_only (completeAll_only ..))))
  · exact (finalStop_startView ..).after ((startView_of_only (stopChannels_only ..)).after ((startView_of_only (completeAll_only ..))))
  · exact (finalStop_startView ..).after ((startView_of_only (stopChannels_only ..)).after ((startView_of_only (completeAll_only ..))))
  · exact (finalStop_startView ..).after ((startView_of_only (stopChannels_only ..)).after ((startView_of_only (completeAll_only ..))))
  · exact (finalStop_startView ..).after ((startView_of_only (stopChannels_only ..)).after ((startView_of_only (completeAll_only ..))))
  · exact .refl
  · exact .refl
  · exact .ite ((finalStop_startView ..).after ((startView_of_only (dropActive_only ..)).after (.upd ((startView_of_only (post_only ..)).after ((startView_of_only (ptnSend_only ..)).after (.upd ((startView_of_only (stopChannels_only ..)).after ((startView_of_only (completeAll_only ..)).after ((startView_of_only (endVisits_only ..)).after (.upd .refl)))))))))) ((advanceStop_startView ..).after (.upd ((startView_of_only (dropGone_only ..)).after (.upd (.ite ((startView_of_only (unloadAll_only ..)).after (.ite ((startView_of_only (post_only ..)).after ((startView_of_only (ptnSend_only ..)).after (.upd ((startView_of_only (stopChannels_only ..)).after ((startView_of_only (completeAll_only ..)).after ((startView_of_only (endVisits_only ..)).after (.upd .refl))))))) (.upd ((startView_of_only (stopChannels_only ..)).after ((startView_of_only (completeAll_only ..)).after ((startView_of_only (endVisits_only ..)).after (.upd .refl))))))) (.ite ((startView_of_only (post_only ..)).after ((startView_of_only (ptnSend_only ..)).after (.upd ((startView_of_only (stopChannels_only ..)).after ((startView_of_only (completeAll_only ..)).after ((startView_of_only (endVisits_only ..)).after (.upd .refl))))))) (.upd ((startView_of_only (stopChannels_only ..)).after ((startView_of_only (completeAll_only ..)).after ((startView_of_only (endVisits_only ..)).after (.upd .refl)))))))))))
theorem failStopInj_startView (injected cause s) : Kept startView s (failStopInj injected cause s) := by
  unfold failStopInj
  exact .ite ((startView_of_only (enterHold_only ..))) ((stopSequence_startView ..).after (.upd .refl))
theorem failStop_startView (cause s) : Kept startView s (failStop cause s) := by
  unfold failStop
  exact (failStopInj_startView ..)
theorem startFail_startView (step cause s) : Kept startView s (startFail step cause s) := by
  unfold startFail
  exact (startView_of_only (post_only ..)).after (.upd .refl)
theorem advanceDrain_startView (s) : Kept startView s (advanceDrain s) := by
  unfold advanceDrain
  exact .ite (.ite (.ite ((startView_of_only (beginHandover_only ..))) .refl) ((failStop_startView ..).after (.ite ((startView_of_only (post_only ..))) .refl))) .refl
theorem poolEmpty_startView (s) : Kept startView s (poolEmpty s) := by
  unfold poolEmpty
  exact .ite .refl ((advanceDrain_startView ..).after (.upd .refl))
theorem moveBlock_startView (kind bank rblock s) : Kept startView s (moveBlock kind bank rblock s) := by
  unfold moveBlock
  split
  · exact (startView_of_only (notePool_only ..)).after (.upd ((startView_of_only (modBlk_only ..))))
  · exact (poolEmpty_startView ..)
theorem retireBlock_startView (kind bank rblock s) : Kept startView s (retireBlock kind bank rblock s) := by
  unfold retireBlock
  exact (startView_of_only (notePool_only ..)).after ((startView_of_only (post_only ..)).after ((moveBlock_startView ..).after (.upd ((startView_of_only (modBlk_only ..))))))
theorem eraseRegion_startView (kind s) : Kept startView s (eraseRegion kind s) := by
  unfold eraseRegion
  exact (startView_of_only (invalidate_only ..)).after (.upd (.each (fun _ _ => .each (fun _ _ => (startView_of_only (modBlk_only ..)).after (.ite (.ite ((startView_of_only (post_only ..)).after ((moveBlock_startView ..))) ((poolEmpty_startView ..))) .refl)) .refl) .refl))
theorem startStop_startView (step cause s) : Kept startView s (startStop step cause s) := by
  unfold startStop
  exact (failStop_startView ..).after ((startFail_startView ..))
theorem atStep_startView (n s) : Kept startView s (atStep n s) := by
  unfold atStep
  exact .upd .refl
theorem flagSweep_startView (o s) : Kept startView s (flagSweep o s) := by
  unfold flagSweep
  refine .each (fun _ _ => ?_) .refl
  refine .ite ?_ ((startView_of_only (blankBlock_only ..)).after ((startView_of_only (post_only ..)).after (.upd .refl)))
  split
  · exact (retireBlock_startView ..).after ((startView_of_only (post_only ..)).after (.upd .refl))
  · exact (startView_of_only (post_only ..)).after ((startView_of_only (modBlk_only ..)).after (.upd ((startView_of_only (post_only ..)).after (.upd .refl))))
theorem sweepAndTally_startView (o s) : Kept startView s (sweepAndTally o s) := by
  unfold sweepAndTally
  exact .ite ((startView_of_only (startTally_only ..)).after (.upd ((atStep_startView ..).after ((flagSweep_startView ..).after ((atStep_startView ..)))))) ((startFail_startView ..).after (.upd (.upd ((atStep_startView ..).after ((flagSweep_startView ..).after ((atStep_startView ..)))))))
theorem armArea_startView (k s) : Kept startView s (armArea k s) := by
  unfold armArea
  exact (startView_of_only (post_only ..)).after (.upd ((startView_of_only (modArea_only ..)).after ((eraseRegion_startView ..))))
/-- What of the start the image leaves alone. -/
abbrev releaseView (s : State) : Bool × Nat × Pwr × Clk × Nat := (s.start.inReset, s.start.releasedAt, s.pwr, s.clk, s.idn.boot)
theorem Kept.released {s t : State} (h : Kept startView s t) : Kept releaseView s t :=
  ⟨congrArg (fun x : Bool × Nat × Bool × Pwr × Clk × Nat => (x.1, x.2.1, x.2.2.2)) h.view⟩
theorem Kept.loaded {s t : State} (h : Kept startView s t) : t.start.imageLoaded = s.start.imageLoaded :=
  congrArg (fun x : Bool × Nat × Bool × Pwr × Clk × Nat => x.2.2.1) h.view
/-- The image stands in the part. -/
def imageSet (i : Image) (s : State) : State :=
  { s with
    img := { i with stepA := s.img.stepA, offA := s.img.offA, stepB := s.img.stepB, offB := s.img.offB },
    start := { s.start with imageLoaded := true }, spn := { s.spn with rEst := 10 * rPh i }, fls := { s.fls with plan := some (s.fls.plan.getD (planOf i)) } }
theorem loadImage_view (i : Image) (s : State) : Kept startView (imageSet i s) (loadImage i s) := by
  unfold loadImage
  exact (startView_of_only (assignIslands_only ..)).after ((startView_of_only (loadGovernor_only ..)).after
    (.ite ((startView_of_only (post_only ..)).after (startView_of_only (post_only ..))) (startView_of_only (post_only ..))))
theorem loadImage_release (i : Image) (s : State) : Kept releaseView s (loadImage i s) := (loadImage_view i s).released.after (.upd .refl)
theorem loadImage_loaded (i : Image) (s : State) : (loadImage i s).start.imageLoaded = true :=
  (loadImage_view i s).loaded
theorem selectImage_release (s : State) : Kept releaseView s (selectImage s).1 := by
  unfold selectImage
  extract_lets
  split
  · exact loadImage_release ..
  · dsimp only
    split
    · exact (loadImage_release ..).after (startView_of_only (copyInvalid_only ..)).released
    · exact (startView_of_only (copyInvalid_only ..)).released.after (startView_of_only (copyInvalid_only ..)).released
theorem selectImage_loaded {s : State} (h : (selectImage s).2 = true) : (selectImage s).1.start.imageLoaded = true := by
  unfold selectImage at h ⊢
  extract_lets at h ⊢
  split
  · exact loadImage_loaded ..
  next hbad =>
    rw [hbad] at h
    dsimp only at h ⊢
    split
    · exact loadImage_loaded ..
    next hother =>
      rw [hother] at h
      exact absurd h Bool.false_ne_true

-- The start from Configuring on (Table 19.2).

/-- The part looks for its image. -/
def imageSought (o : StartObs) (s : State) : State := atStep 6 { s with nvm := { s.nvm with present := o.nvmOk } }
/-- The tally begins late where there was no plan before the image. -/
def tallied (o : StartObs) (late : Bool) (s : State) : State := if late then atStep 6 (sweepAndTally o s) else s
/-- The links begin to train (Table 19.2, step 9). -/
def linksBegun (s : State) : State :=
  each [0, 1, 2] (fun l s => if linkEnabled s l && (getLink s l).link = 0 then modLink s l fun k => { k with link := 1 } else s)
    (each (armList s) (fun a s => modAlk s a fun k => { k with link := 1 }) (atStep 9 s))
theorem configure_eq (o : StartObs) (s : State) : configure o s =
    if !(selectImage (imageSought o s)).2 then startStop 6 0x05 (post 0x05 mNvm [] (selectImage (imageSought o s)).1)
    else
      let u := atStep 7 (tallied o s.fls.plan.isNone (selectImage (imageSought o s)).1)
      if ((o.millpond.map (·.val)).eraseDups.mergeSort).length < 8 then startStop 7 0x07 u
      else
        let v := atStep 8 (trainMillpond (o.millpond.map (·.val)).eraseDups.mergeSort u)
        if !o.dumpOk then startStop 8 0x19 v
        else match readDumpHeaders v with
          | none => startStop 8 0x19 (post 0x19 mStart [] v)
          | some w => linksBegun w := by
  unfold configure imageSought tallied linksBegun
  dsimp only <;> cases selectImage (atStep 6 { s with nvm := { s.nvm with present := o.nvmOk } }) <;> rfl
/-- The start keeps the release, and a part in Configuring has no stop under way. -/
structure Starts (s t : State) : Prop where
  released : Kept releaseView s t
  clean : Holding stopState StartsClean s t
theorem Starts.after {s t u : State} (h₂ : Starts t u) (h₁ : Starts s t) : Starts s u := ⟨h₂.released.after h₁.released, h₂.clean.after h₁.clean⟩
theorem Starts.of_only {m : Units} {s t : State} (h : Only m s t) (hs : m.start = false := by rfl) (hp : m.pwr = false := by rfl) (hc : m.clk = false := by rfl) (hi : m.idn = false := by rfl)
    (hd : m.dev = false := by rfl) (hf : m.flt = false := by rfl) : Starts s t := ⟨(startView_of_only h hs hp hc hi).released, clean_of_only h hd hf⟩
theorem atStep_starts (n : Nat) (s : State) : Starts s (atStep n s) := ⟨(atStep_startView n s).released, clean_of_only (atStep_only ..)⟩
theorem tallied_starts (o : StartObs) (late : Bool) (s : State) : Starts s (tallied o late s) := by
  unfold tallied
  split
  · exact (atStep_starts ..).after ⟨(sweepAndTally_startView ..).released, sweepAndTally_clean ..⟩
  · exact ⟨.refl, .refl⟩
theorem tallied_loaded {s : State} (o : StartObs) (late : Bool) (h : s.start.imageLoaded = true) : (tallied o late s).start.imageLoaded = true := by
  unfold tallied
  split
  · exact ((atStep_startView ..).after (sweepAndTally_startView o s)).loaded.trans h
  · exact h
theorem readDumpHeaders_startView {s t : State} (h : readDumpHeaders s = some t) : Kept startView s t ∧ Holding stopState StartsClean s t := by
  unfold readDumpHeaders at h
  extract_lets held u ready at h
  split at h
  · cases h
  · obtain rfl := Option.some.inj h
    exact ⟨.upd (.each (fun _ _ => armArea_startView ..) .refl), .upd (.each (fun _ _ => armArea_clean ..) .refl)⟩
theorem selectImage_clean (s : State) : Holding stopState StartsClean s (selectImage s).1 := clean_of_only (selectImage_only s)
/-- The start ends in a stop, or with the image loaded and the links in training. -/
theorem configure_ends (o : StartObs) (s : State) : ∃ u, Starts s u ∧ ((∃ k c, configure o s = startStop k c u) ∨ (u.start.imageLoaded = true ∧ configure o s = linksBegun u)) := by
  have hsought : Starts s (imageSought o s) := (atStep_starts ..).after ⟨.upd .refl, .upd .refl⟩
  have himage : Starts s (selectImage (imageSought o s)).1 := .after ⟨selectImage_release _, selectImage_clean _⟩ hsought
  rw [configure_eq]
  split
  · exact ⟨_, (Starts.of_only (post_only ..)).after himage, .inl ⟨_, _, rfl⟩⟩
  next hok =>
    have hloaded := selectImage_loaded (s := imageSought o s) (by simpa using hok)
    generalize (selectImage (imageSought o s)).1 = x at himage hloaded
    extract_lets u v
    have hu : Starts s u := (atStep_starts ..).after ((tallied_starts ..).after himage)
    have hv : Starts s v := (atStep_starts ..).after ((Starts.of_only (trainMillpond_only ..)).after hu)
    have hvkept : Kept startView u v := (atStep_startView ..).after (startView_of_only (trainMillpond_only ..))
    have hvloaded : v.start.imageLoaded = true := hvkept.loaded.trans ((atStep_startView ..).loaded.trans (tallied_loaded o _ hloaded))
    clear_value u v
    split
    · exact ⟨u, hu, .inl ⟨_, _, rfl⟩⟩
    split
    · exact ⟨v, hv, .inl ⟨_, _, rfl⟩⟩
    split
    · exact ⟨_, (Starts.of_only (post_only ..)).after hv, .inl ⟨_, _, rfl⟩⟩
    next w hw =>
      obtain ⟨hview, hclean⟩ := readDumpHeaders_startView hw
      exact ⟨w, .after ⟨hview.released, hclean⟩ hv, .inr ⟨hview.loaded.trans hvloaded, rfl⟩⟩

end Sys2Proof.Machine
end

section
/-! The release of a reset (R587, R590, R642). -/

namespace Sys2Proof.Machine
set_option Elab.async false

-- The release of a reset (R587, R590, R642).

/-- The reset has been released (R587). -/
def releasedFrom (o : StartObs) (s : State) : State :=
  { s with
    start := { s.start with inReset := false, releasedAt := now s, step := 1 }, pwr := { s.pwr with tmode := o.tmode, role := o.role }, idn := { s.idn with boot := (s.idn.boot + 1) % 65536 } }
/-- The PLLs have locked (Table 19.2, step 2). -/
def clocksLocked (o : StartObs) (s : State) : State :=
  atStep 2 { s with
    clk := { s.clk with refclkOk := true, coreLock := true, laneLock := 0x7FF }, pwr := { s.pwr with target := 800, src := 0 }, start := { s.start with romOk := o.romOk } }
/-- The microcode is selected and the part goes into Configuring (Table 19.2, steps 3 and 4). -/
def microcodeUsed (o : StartObs) (s : State) : State :=
  let s := atStep 3 s
  let b := s.fls.selectedB
  let sel := if b then o.ucodeB else o.ucodeA
  let oth := if b then o.ucodeA else o.ucodeB
  let use := if sel then b else !b
  let s := if sel then s else post 0x98 mFlash [] s
  let s := { s with
    fls := { s.fls with state := 2, ucodeB := use, ucodeOtherOk := sel && oth }, idn := { s.idn with ucodeVer := if use then o.ucodeVerB else o.ucodeVerA, romVer := Config.romVersion } }
  atStep 4 { s with dev := .configuring }
/-- The tally begins where there is a plan. -/
def microcodeFound (o : StartObs) (s : State) : State := if (microcodeUsed o s).fls.plan.isNone then microcodeUsed o s else sweepAndTally o (microcodeUsed o s)
/-- The start after its self-test. -/
def afterBist (o : StartObs) (s : State) : State :=
  let sel := if s.fls.selectedB then o.ucodeB else o.ucodeA
  let oth := if s.fls.selectedB then o.ucodeA else o.ucodeB
  if !o.dirOk then startStop 3 0x9D (post 0x9D mFlash [] { atStep 3 s with fls := { s.fls with state := 5 } })
  else if !sel && !oth then startStop 3 0x07 (atStep 3 s)
  else configure o (microcodeFound o s)
theorem execResetRelease_eq (o : StartObs) (s : State) : execResetRelease o s = .next (
    if !s.start.inReset || s.start.powerOnReset then s
    else if o.tmode then { releasedFrom o s with start := { (releasedFrom o s).start with step := 0 } }
    else if !o.pllOk then startFail 1 0x07 (releasedFrom o s)
    else match bist o (clocksLocked o (releasedFrom o s)) with
      | none => startStop 2 0x07 (clocksLocked o (releasedFrom o s))
      | some u => afterBist o u) := rfl
theorem startStop_devStops (step : Nat) (cause : BitVec 8) (s : State) : DevStops s (startStop step cause s) := by
  unfold startStop
  exact (failStop_devStops cause (startFail step cause.toNat s)).imp_left fun h => h.trans ((startFail_only ..).dev rfl)
/-- A stop of the start from Unconfigured is Stopped at its step. -/
theorem startStop_fails {step : Nat} {cause : BitVec 8} {s : State} (hdev : s.dev = .unconfigured) (hstep : s.flt.stopStep = 0) :
    (startStop step cause s).dev = .stopped ∧ (startStop step cause s).start.failStep = step := by
  have hd : stopsAtOnce (startFail step cause.toNat s).dev = true := by
    rw [(startFail_only ..).dev rfl, hdev]
    rfl
  have hs : (startFail step cause.toNat s).flt.stopStep = 0 := by
    rw [(startFail_only ..).flt rfl]
    exact hstep
  unfold startStop
  exact ⟨(failStop_stoppedBy hd hs).dev, (failStop_failStep hd hs).trans (startFail_failStep ..)⟩
theorem startStop_leaves {step : Nat} {cause : BitVec 8} {s : State} (h : StartsClean (stopState s)) : (startStop step cause s).dev ≠ .configuring := by
  intro hdev
  have hstays : s.dev = .configuring := (startStop_devStops step cause s).elim (fun heq => heq.symm.trans hdev) fun heq => absurd (heq.symm.trans hdev) (by decide)
  have hd : stopsAtOnce (startFail step cause.toNat s).dev = true := by
    rw [(startFail_only ..).dev rfl, hstays]
    rfl
  have hs : (startFail step cause.toNat s).flt.stopStep = 0 := by
    rw [(startFail_only ..).flt rfl]
    exact h hstays
  unfold startStop at hdev
  exact absurd ((failStop_stoppedBy hd hs).dev.symm.trans hdev) (by decide)
theorem linksBegun_only (s : State) : Only { start := true, alks := true, links := true } s (linksBegun s) :=
  .each (fun _ _ => .ite (modLink_only ..).mono .refl) (.each (fun _ _ => (modAlk_only ..).mono) (atStep_only ..).mono)
theorem linksBegun_start (s : State) : (linksBegun s).start = { s.start with step := 9 } := by
  have h : Only { alks := true, links := true } (atStep 9 s) (linksBegun s) := .each (fun _ _ => .ite (modLink_only ..).mono .refl) (.each (fun _ _ => (modAlk_only ..).mono) .refl)
  exact h.start rfl
theorem linksBegun_trains (s : State) : ∀ a < (linksBegun s).img.arms, (getAlk (linksBegun s) a).link = 1 := by
  intro a ha
  rw [(linksBegun_only s).img rfl] at ha
  obtain ⟨-, hreach⟩ := each_reaches (f := fun a s => modAlk s a fun k => { k with link := 1 }) (I := fun _ => True) (Q := fun a s => (getAlk s a).link = 1) (fun _ _ _ => trivial)
    (fun x t _ => by rw [getAlk_modAlk]) (fun x y t _ h => by
      by_cases hxy : x = y
      · subst hxy
        rw [getAlk_modAlk]
      · rwa [getAlk_modAlk_other _ _ hxy]) (armList s) (atStep 9 s) trivial
  have hlinks : Only { links := true } (each (armList s) (fun a s => modAlk s a fun k => { k with link := 1 }) (atStep 9 s)) (linksBegun s) := .each (fun _ _ => .ite (modLink_only ..) .refl) .refl
  rw [getAlk_of_only a hlinks]
  exact hreach a (List.mem_range.2 ha)
theorem microcodeUsed_only (o : StartObs) (s : State) : Only { dev := true, start := true, idn := true, evt := true, gov := true, fls := true } s (microcodeUsed o s) := by
  unfold microcodeUsed
  exact (atStep_only ..).after (.upd (.upd (.ite (atStep_only ..).mono ((post_only ..).after (atStep_only ..).mono))))
theorem microcodeUsed_released (o : StartObs) (s : State) : Kept releaseView s (microcodeUsed o s) := by
  have hstep (n : Nat) (t : State) : Kept releaseView t (atStep n t) := (atStep_startView n t).released
  unfold microcodeUsed
  exact (hstep ..).after (.upd (.upd (.ite (hstep ..) ((startView_of_only (post_only ..)).released.after (hstep ..)))))
theorem microcodeFound_released (o : StartObs) (s : State) : Kept releaseView s (microcodeFound o s) :=
  .ite (microcodeUsed_released ..) ((sweepAndTally_startView ..).released.after (microcodeUsed_released ..))
theorem microcodeFound_clean {o : StartObs} {s : State} (hstep : s.flt.stopStep = 0) : StartsClean (stopState (microcodeFound o s)) := by
  have hused : StartsClean (stopState (microcodeUsed o s)) := fun _ => (congrArg Flt.stopStep ((microcodeUsed_only o s).flt rfl)).trans hstep
  unfold microcodeFound
  split
  · exact hused
  · exact (sweepAndTally_clean ..).keeps hused
theorem startStop_released (step : Nat) (cause : BitVec 8) (s : State) : Kept releaseView s (startStop step cause s) := (startStop_startView ..).released
theorem configure_released (o : StartObs) (s : State) : Kept releaseView s (configure o s) := by
  obtain ⟨u, hu, ⟨k, c, h⟩ | ⟨-, h⟩⟩ := configure_ends o s
  · rw [h]
    exact (startStop_released ..).after hu.released
  · rw [h]
    refine Kept.after ⟨?_⟩ hu.released
    unfold releaseView
    rw [linksBegun_start, (linksBegun_only u).pwr rfl, (linksBegun_only u).clk rfl, (linksBegun_only u).idn rfl]
/-- A start that is still in Configuring has its image and trains its links. -/
theorem configure_trains {o : StartObs} {s : State} (hclean : StartsClean (stopState s)) (hdev : (configure o s).dev = .configuring) :
    (configure o s).start.imageLoaded = true ∧ (configure o s).start.step = 9 ∧ ∀ a < (configure o s).img.arms, (getAlk (configure o s) a).link = 1 := by
  obtain ⟨u, hu, ⟨k, c, h⟩ | ⟨hloaded, h⟩⟩ := configure_ends o s
  · rw [h] at hdev
    exact absurd hdev (startStop_leaves (hu.clean.keeps hclean))
  · rw [h, linksBegun_start]
    exact ⟨hloaded, rfl, linksBegun_trains u⟩
theorem afterBist_released (o : StartObs) (s : State) : Kept releaseView s (afterBist o s) := by
  have hstep : Kept releaseView s (atStep 3 s) := (atStep_startView 3 s).released
  exact .ite ((startStop_released ..).after ((startView_of_only (post_only ..)).released.after (.upd hstep))) (.ite ((startStop_released ..).after hstep)
    ((configure_released ..).after (microcodeFound_released ..)))
/-- An unreadable directory, or two invalid banks, stop the part at step 3 (R590). -/
theorem afterBist_fails {o : StartObs} {s : State} (hdev : s.dev = .unconfigured) (hstep : s.flt.stopStep = 0) (hbad : o.dirOk = false ∨ (o.ucodeA = false ∧ o.ucodeB = false)) :
    (afterBist o s).dev = .stopped ∧ (afterBist o s).start.failStep = 3 := by
  unfold afterBist
  extract_lets sel oth
  by_cases hdir : o.dirOk = false
  · rw [if_pos (by rw [hdir]; rfl)]
    exact startStop_fails ((post_dev ..).trans hdev) ((congrArg Flt.stopStep ((post_only ..).flt rfl)).trans hstep)
  · obtain ⟨ha, hb⟩ := hbad.resolve_left hdir
    have hsel : sel = false := by
      unfold sel
      rw [ha, hb, ite_self]
    have hoth : oth = false := by
      unfold oth
      rw [ha, hb, ite_self]
    rw [if_neg (by simpa using hdir), hsel, hoth, if_pos (show (!false && !false) = true from rfl)]
    exact startStop_fails hdev hstep
theorem afterBist_trains {o : StartObs} {s : State} (hdev : s.dev = .unconfigured) (hstep : s.flt.stopStep = 0) (ht : (afterBist o s).dev = .configuring) :
    (afterBist o s).start.imageLoaded = true ∧ (afterBist o s).start.step = 9 ∧ ∀ a < (afterBist o s).img.arms, (getAlk (afterBist o s) a).link = 1 := by
  have hleaves {u : State} (hu : u.dev = .unconfigured) : StartsClean (stopState u) := fun h => absurd (hu.symm.trans h) (by decide)
  unfold afterBist at ht ⊢
  extract_lets at ht ⊢
  split
  next h =>
    rw [if_pos h] at ht
    exact absurd ht (startStop_leaves (hleaves ((post_dev ..).trans hdev)))
  next h =>
    rw [if_neg h] at ht
    split
    next h =>
      rw [if_pos h] at ht
      exact absurd ht (startStop_leaves (hleaves hdev))
    next h =>
      rw [if_neg h] at ht
      exact configure_trains (microcodeFound_clean hstep) ht
/-- The self-test fails by another memory or the mask ROM, and passes where nothing fails. -/
theorem bist_eq_none {o : StartObs} (s : State) (h : o.bistOther = true ∨ o.romOk = false) : bist o s = none := by
  unfold bist
  extract_lets isl eng badI badE goodI goodE u v w
  exact if_pos (by rcases h with h | h <;> simp [h])
theorem bist_eq_some {o : StartObs} (s : State) (hother : o.bistOther = false) (hrom : o.romOk = true) (hisl : o.bistIslands = []) (heng : o.bistEngines = []) : ∃ t, bist o s = some t := by
  unfold bist
  extract_lets isl eng badI badE goodI goodE u v w
  refine ⟨_, if_neg ?_⟩
  simp [hother, hrom, badI, badE, isl, eng, hisl, heng]
/-- A start whose PLLs have locked keeps what the release brought (R587, R642). -/
theorem released_shows {o : StartObs} {s t : State} (h : Kept releaseView (clocksLocked o (releasedFrom o s)) t) :
    (t.start.inReset = false ∧ t.start.releasedAt = now s ∧ t.pwr.tmode = o.tmode ∧ t.pwr.role = o.role ∧ t.idn.boot = (s.idn.boot + 1) % 65536) ∧ t.clk.coreLock = true ∧ t.clk.laneLock = 0x7FF := by
  have hview := h.view
  simp only [releaseView, Prod.mk.injEq] at hview
  obtain ⟨hreset, hat, hpwr, hclk, hboot⟩ := hview
  rw [hreset, hat, hpwr, hclk, hboot]
  exact ⟨⟨rfl, rfl, rfl, rfl, rfl⟩, rfl, rfl⟩
/-- What follows the lock of the PLLs. -/
def afterClocks (o : StartObs) (s : State) : State :=
  match bist o s with
  | none => startStop 2 0x07 s
  | some u => afterBist o u
theorem afterClocks_released (o : StartObs) (s : State) : Kept releaseView s (afterClocks o s) := by
  unfold afterClocks
  split
  · exact startStop_released ..
  next u hu => exact (afterBist_released ..).after (startView_of_only (bist_only hu)).released
/-- The start from Unconfigured by its first failure, or to the training of the links (R590, Table 19.2). -/
theorem afterClocks_goes {o : StartObs} {s : State} (hdev : s.dev = .unconfigured) (hstep : s.flt.stopStep = 0) :
    (o.bistOther = true ∨ o.romOk = false → (afterClocks o s).dev = .stopped ∧ (afterClocks o s).start.failStep = 2) ∧
    (o.bistOther = false → o.romOk = true → o.bistIslands = [] → o.bistEngines = [] → o.dirOk = false ∨ (o.ucodeA = false ∧ o.ucodeB = false) →
      (afterClocks o s).dev = .stopped ∧ (afterClocks o s).start.failStep = 3) ∧
    ((afterClocks o s).dev = .configuring → (afterClocks o s).start.imageLoaded = true ∧ (afterClocks o s).start.step = 9 ∧ ∀ a < (afterClocks o s).img.arms, (getAlk (afterClocks o s) a).link = 1) := by
  have hsome {u : State} (hu : bist o s = some u) : u.dev = .unconfigured ∧ u.flt.stopStep = 0 :=
    ⟨((bist_only hu).dev rfl).trans hdev, (congrArg Flt.stopStep ((bist_only hu).flt rfl)).trans hstep⟩
  unfold afterClocks
  refine ⟨fun hbad => ?_, fun hother hrom hisl heng hbad => ?_, fun ht => ?_⟩
  · rw [bist_eq_none s hbad]
    exact startStop_fails hdev hstep
  · obtain ⟨u, hu⟩ := bist_eq_some s hother hrom hisl heng
    obtain ⟨hud, hus⟩ := hsome hu
    rw [hu]
    exact afterBist_fails hud hus hbad
  · cases hb : bist o s with
    | none =>
      rw [hb] at ht
      exact absurd ht (startStop_leaves fun h => absurd (hdev.symm.trans h) (by decide))
    | some u =>
      obtain ⟨hud, hus⟩ := hsome hb
      rw [hb] at ht
      exact afterBist_trains hud hus ht
/-- O7's first part (R587, R590). -/
theorem resetRelease_starts (s : State) (o : StartObs) : Completes (.resetRelease o) s fun t =>
      (s.start.inReset = false ∨ s.start.powerOnReset = true → t = s) ∧
      (s.start.inReset = true → s.start.powerOnReset = false →
        t.start.inReset = false ∧ t.start.releasedAt = now s ∧ t.pwr.tmode = o.tmode ∧ t.pwr.role = o.role ∧ t.idn.boot = (s.idn.boot + 1) % 65536 ∧
        (o.tmode = true → t.dev = s.dev) ∧
        (o.tmode = false → o.pllOk = false → t.dev = s.dev ∧ t.start.failStep = 1) ∧
        (o.tmode = false → o.pllOk = true → t.clk.coreLock = true ∧ t.clk.laneLock = 0x7FF) ∧
        (s.dev = .unconfigured → s.flt.stopStep = 0 → o.tmode = false → o.pllOk = true → o.bistOther = true ∨ o.romOk = false →
          t.dev = .stopped ∧ t.start.failStep = 2) ∧
        (s.dev = .unconfigured → s.flt.stopStep = 0 → o.tmode = false → o.pllOk = true → o.bistOther = false → o.romOk = true → o.bistIslands = [] →
          o.bistEngines = [] → o.dirOk = false ∨ (o.ucodeA = false ∧ o.ucodeB = false) → t.dev = .stopped ∧ t.start.failStep = 3) ∧
        (s.dev = .unconfigured → s.flt.stopStep = 0 → t.dev = .configuring → t.start.imageLoaded = true ∧ t.start.step = 9 ∧ ∀ a < t.img.arms, (getAlk t a).link = 1)) := by
  refine ⟨_, execResetRelease_eq o s, ?_⟩
  by_cases hheld : s.start.inReset = true ∧ s.start.powerOnReset = false
  case neg =>
    rw [if_pos (by revert hheld; cases s.start.inReset <;> cases s.start.powerOnReset <;> simp)]
    exact ⟨fun _ => rfl, fun h₁ h₂ => absurd ⟨h₁, h₂⟩ hheld⟩
  obtain ⟨hreset, hpor⟩ := hheld
  rw [if_neg (by simp [hreset, hpor])]
  refine ⟨fun h => ?_, fun _ _ => ?_⟩
  · rw [hreset, hpor] at h
    exact absurd h (by decide)
  by_cases htmode : o.tmode = true
  · have hno {P : Prop} : o.tmode = false → P := fun h => absurd (htmode.symm.trans h) (by decide)
    rw [if_pos htmode]
    exact ⟨rfl, rfl, rfl, rfl, rfl, fun _ => rfl, hno, hno, fun _ _ => hno, fun _ _ => hno, fun hdev _ h => absurd (hdev.symm.trans h) (by decide)⟩
  rw [if_neg htmode]
  by_cases hpll : o.pllOk = false
  · have hno {P : Prop} : o.pllOk = true → P := fun h => absurd (h.symm.trans hpll) (by decide)
    have hdev : (startFail 1 0x07 (releasedFrom o s)).dev = s.dev := (startFail_only ..).dev rfl
    rw [if_pos (by rw [hpll]; rfl)]
    obtain ⟨hview⟩ := (startFail_startView 1 0x07 (releasedFrom o s)).released
    have hfail := startFail_failStep 1 0x07 (releasedFrom o s)
    generalize startFail 1 0x07 (releasedFrom o s) = t at hdev hview hfail
    simp only [releaseView, Prod.mk.injEq] at hview
    obtain ⟨hreset', hat, hpwr, -, hboot⟩ := hview
    refine ⟨hreset', hat, ?_, ?_, hboot, fun h => absurd h htmode, fun _ _ => ⟨hdev, hfail⟩, fun _ => hno, fun _ _ _ => hno, fun _ _ _ => hno,
      fun h _ ht => absurd (h.symm.trans (hdev.symm.trans ht)) (by decide)⟩
    · rw [hpwr]
      rfl
    · rw [hpwr]
      rfl
  rw [if_neg (by simpa using hpll)]
  have hgoes := afterClocks_goes (o := o) (s := clocksLocked o (releasedFrom o s))
  obtain ⟨⟨h₁, h₂, h₃, h₄, h₅⟩, hlocks⟩ := released_shows (afterClocks_released o (clocksLocked o (releasedFrom o s)))
  exact ⟨h₁, h₂, h₃, h₄, h₅, fun h => absurd h htmode, fun _ h => absurd h hpll, fun _ _ => hlocks, fun hd hs _ _ hbad => (hgoes hd hs).1 hbad,
    fun hd hs _ _ => (hgoes hd hs).2.1, fun hd hs => (hgoes hd hs).2.2⟩

end Sys2Proof.Machine
end

section
/-! Dumps at the start, the end of Loading, and the whole start (O7). -/

namespace Sys2Proof.Machine
set_option Elab.async false

-- The lists of dumps while blocks are loaded and a region is erased (R469, R596).

/-- The areas that this start replays, and those still to be read. -/
abbrev dumpLists (s : State) : List Nat × List Nat := (s.hold.replay, s.hold.toRead)
theorem lists_of_only {m : Units} {s t : State} (h : Only m s t) (hm : m.hold = false := by rfl) : Kept dumpLists s t := ⟨by unfold dumpLists; rw [h.hold hm]⟩
theorem Kept.replay {s t : State} (h : Kept dumpLists s t) : t.hold.replay = s.hold.replay := congrArg (·.1) h.view
theorem Kept.toRead {s t : State} (h : Kept dumpLists s t) : t.hold.toRead = s.hold.toRead := congrArg (·.2) h.view
theorem stopSequence_lists (solo cause s) : Kept dumpLists s (stopSequence solo cause s) := by
  unfold stopSequence
  refine .ite .refl ?_
  split
  · exact (lists_of_only (finalStop_only ..)).after ((lists_of_only (stopChannels_only ..)).after ((lists_of_only (completeAll_only ..))))
  · exact (lists_of_only (finalStop_only ..)).after ((lists_of_only (stopChannels_only ..)).after ((lists_of_only (completeAll_only ..))))
  · exact (lists_of_only (finalStop_only ..)).after ((lists_of_only (stopChannels_only ..)).after ((lists_of_only (completeAll_only ..))))
  · exact (lists_of_only (finalStop_only ..)).after ((lists_of_only (stopChannels_only ..)).after ((lists_of_only (completeAll_only ..))))
  · exact (lists_of_only (finalStop_only ..)).after ((lists_of_only (stopChannels_only ..)).after ((lists_of_only (completeAll_only ..))))
  · exact .refl
  · exact .refl
  · exact .ite ((lists_of_only (finalStop_only ..)).after ((lists_of_only (dropActive_only ..)).after (.upd ((lists_of_only (post_only ..)).after ((lists_of_only (ptnSend_only ..)).after (.upd ((lists_of_only (stopChannels_only ..)).after ((lists_of_only (completeAll_only ..)).after ((lists_of_only (endVisits_only ..)).after (.upd .refl)))))))))) ((lists_of_only (advanceStop_only ..)).after (.upd ((lists_of_only (dropGone_only ..)).after (.upd (.ite ((lists_of_only (unloadAll_only ..)).after (.ite ((lists_of_only (post_only ..)).after ((lists_of_only (ptnSend_only ..)).after (.upd ((lists_of_only (stopChannels_only ..)).after ((lists_of_only (completeAll_only ..)).after ((lists_of_only (endVisits_only ..)).after (.upd .refl))))))) (.upd ((lists_of_only (stopChannels_only ..)).after ((lists_of_only (completeAll_only ..)).after ((lists_of_only (endVisits_only ..)).after (.upd .refl))))))) (.ite ((lists_of_only (post_only ..)).after ((lists_of_only (ptnSend_only ..)).after (.upd ((lists_of_only (stopChannels_only ..)).after ((lists_of_only (completeAll_only ..)).after ((lists_of_only (endVisits_only ..)).after (.upd .refl))))))) (.upd ((lists_of_only (stopChannels_only ..)).after ((lists_of_only (completeAll_only ..)).after ((lists_of_only (endVisits_only ..)).after (.upd .refl)))))))))))
theorem failStopInj_lists (injected cause s) : Kept dumpLists s (failStopInj injected cause s) := by
  unfold failStopInj
  exact .ite ((lists_of_only (enterHold_only ..))) ((stopSequence_lists ..).after (.upd .refl))
theorem failStop_lists (cause s) : Kept dumpLists s (failStop cause s) := by
  unfold failStop
  exact (failStopInj_lists ..)
theorem advanceDrain_lists (s) : Kept dumpLists s (advanceDrain s) := by
  unfold advanceDrain
  exact .ite (.ite (.ite ((lists_of_only (beginHandover_only ..))) .refl) ((failStop_lists ..).after (.ite ((lists_of_only (post_only ..))) .refl))) .refl
theorem poolEmpty_lists (s) : Kept dumpLists s (poolEmpty s) := by
  unfold poolEmpty
  exact .ite .refl ((advanceDrain_lists ..).after (.upd .refl))
theorem moveBlock_lists (kind bank rblock s) : Kept dumpLists s (moveBlock kind bank rblock s) := by
  unfold moveBlock
  split
  · exact (lists_of_only (notePool_only ..)).after (.upd ((lists_of_only (modBlk_only ..))))
  · exact (poolEmpty_lists ..)
theorem eraseRegion_lists (kind s) : Kept dumpLists s (eraseRegion kind s) := by
  unfold eraseRegion
  exact (lists_of_only (invalidate_only ..)).after (.upd (.each (fun _ _ => .each (fun _ _ => (lists_of_only (modBlk_only ..)).after (.ite (.ite ((lists_of_only (post_only ..)).after ((moveBlock_lists ..))) ((poolEmpty_lists ..))) .refl)) .refl) .refl))
theorem replayBlock_lists (area e data s) : Kept dumpLists s (replayBlock area e data s) := by
  unfold replayBlock
  refine .ite .refl ?_
  extract_lets t own f
  have ht : Kept dumpLists s t := by
    refine .each (fun _ _ => ?_) .refl
    exact ⟨by with_reducible rfl⟩
  clear_value t f
  split
  · exact ht
  · exact .upd ((lists_of_only (setFrame_only ..)).after ((lists_of_only (setEntry_only ..)).after ((lists_of_only (arrivalAbove_only ..)).after ht)))
theorem missBlock_lists (e s) : Kept dumpLists s (missBlock e s) := by
  unfold missBlock
  exact .upd .refl
theorem replayArea_lists (k unreadable s) : Kept dumpLists s (replayArea k unreadable s) := by
  unfold replayArea
  refine .each (fun _ _ => .each (fun _ _ => (lists_of_only (addDeferred_only ..))) .refl) ?_
  refine .each (fun _ _ => ?_) (.each (fun _ _ => (lists_of_only (putLayout_only ..))) .refl)
  split
  · exact (replayBlock_lists ..)
  · exact (missBlock_lists ..)
/-- The lost blocks of the dumps are counted, and none is missing any more (R596). -/
theorem settleMissing_hold (s : State) : ∃ n, (settleMissing s).hold = { s.hold with missing := [], lostBlocks := n } := by
  unfold settleMissing
  extract_lets lost u
  have hu : (each lost (fun e s => if e.acked && !e.compat then raiseDeferred e.portB 2 e.lba.toNat e.vseq.toNat e.tag s else listBlock e.lba.toNat s)
      { s with hold := { s.hold with missing := [], lostBlocks := satAdd 20 s.hold.lostBlocks lost.length } }).hold = { s.hold with missing := [], lostBlocks := satAdd 20 s.hold.lostBlocks lost.length } :=
    (Only.each (m := { evt := true, mqs := true, layout := true, gov := true, links := true, injs := true, hop := true, tx := true, free := true })
      (fun e s => .ite (raiseDeferred_only ..).mono (listBlock_only ..).mono) .refl).hold
  refine ⟨satAdd 20 s.hold.lostBlocks lost.length, ?_⟩
  split
  · exact hu
  · exact ((post_only ..).hold).trans hu
/-- Every dump has been read (R596). -/
def dumpsRead (s : State) : State := { s with start := { s.start with replayRead := true, step := 16 }, hold := { s.hold with toRead := [], state := 6 } }
/-- O7's second part (R469, R596). -/
theorem replayReadDone_drains {s : State} (hawake : awake s = true) (area : Fin 2) (unreadable : List Nat) : Completes (.replayReadDone area unreadable) s fun t =>
      (s.dev ≠ .loading ∨ s.hold.toRead.head? ≠ some area.val → t = s) ∧
      (s.dev = .loading → ∀ rest, s.hold.toRead = area.val :: rest →
        t.hold.toRead = rest ∧ (rest = [] → t.start.replayRead = true ∧ t.hold.state = 6 ∧ t.hold.missing = [])) := by
  refine Completes.live (if_pos hawake) fun t ht => ⟨fun h => ?_, fun hdev rest hrest => ?_⟩
  · rw [if_pos (by simpa using h)] at ht
    exact ht
  rw [if_neg (by simp [hdev, hrest])] at ht
  dsimp only at ht
  have hread : (replayArea area unreadable s).hold.toRead = area.val :: rest := (replayArea_lists area unreadable s).toRead.trans hrest
  generalize replayArea area unreadable s = u at hread ht
  rw [hread] at ht
  cases rest with
  | nil =>
    change t = settleMissing (dumpsRead u) at ht
    obtain ⟨n, hn⟩ := settleMissing_hold (dumpsRead u)
    have hstart : (settleMissing (dumpsRead u)).start = (dumpsRead u).start := (settleMissing_only ..).start rfl
    rw [ht, hn, hstart]
    exact ⟨rfl, fun _ => ⟨rfl, rfl, rfl⟩⟩
  | cons k ks =>
    rw [ht]
    exact ⟨rfl, fun h => absurd h (by simp)⟩
/-- An area that is armed is empty and to hand (R465). -/
theorem armArea_arms (k : Fin 2) (s : State) : (armArea k s).hold.areas[k] = { armed := true } ∧ (armArea k s).hold.areaOk = true ∧ (armArea k s).hold.replay = s.hold.replay := by
  have hlist : (eraseRegion (3 + k.val) s).hold.replay = s.hold.replay := (eraseRegion_lists (3 + k.val) s).replay
  unfold armArea
  generalize eraseRegion (3 + k.val) s = u at hlist
  rw [(post_only ..).hold]
  refine ⟨?_, rfl, hlist⟩
  simp [modArea]
/-- O7's third part (R601). -/
theorem dumpRetire_retires {s : State} (hawake : awake s = true) (area : Fin 2) : Completes (.dumpRetire area) s fun t =>
      s.ptn.role ≠ 2 → s.start.replayRead = true → area.val ∈ s.hold.replay → (∀ p ∈ s.hold.replayed, p.2 ≠ area.val) →
        area.val ∉ t.hold.replay ∧ t.hold.areas[area].armed = true ∧ t.hold.areas[area].unretired = false ∧ t.hold.areaOk = true := by
  refine Completes.live (if_pos hawake) fun t ht hrole hread hmem hsettled => ?_
  rw [if_neg hrole, if_pos (by simpa [hread, hmem] using hsettled)] at ht
  dsimp only at ht
  obtain ⟨harea, hok, hreplay⟩ := armArea_arms area { s with hold := { s.hold with replay := s.hold.replay.filter (· ≠ area.val) } }
  generalize armArea area.val { s with hold := { s.hold with replay := s.hold.replay.filter (· ≠ area.val) } } = u at harea hok hreplay ht
  have hfacts : t.hold.replay = u.hold.replay ∧ t.hold.areas = u.hold.areas ∧ t.hold.areaOk = u.hold.areaOk := by
    rw [ht]
    split
    · rw [(post_only ..).hold]
      exact ⟨rfl, rfl, rfl⟩
    · exact ⟨rfl, rfl, rfl⟩
  obtain ⟨h₁, h₂, h₃⟩ := hfacts
  simp only [h₁, h₂, h₃, hreplay, harea, hok]
  simp

-- The end of Loading (R607, R23).

/-- The commands of the hopper. -/
abbrev hopCmds (s : State) : List Cmd := s.hop.cmds
/-- No command is held. -/
def NoneHeld (cs : List Cmd) : Prop := ∀ c ∈ cs, c.phase ≠ .held
theorem free_of_only {m : Units} {s t : State} (h : Only m s t) (hm : m.hop = false := by rfl) : Holding hopCmds NoneHeld s t := ⟨by unfold hopCmds; rw [h.hop hm]; exact id⟩
theorem modHopPort_free (s p f) : Holding hopCmds NoneHeld s (modHopPort s p f) := ⟨id⟩
theorem dropGrants_free (p tag s) : Holding hopCmds NoneHeld s (dropGrants p tag s) := ⟨id⟩
theorem issueRec_free (p r s) : Holding hopCmds NoneHeld s (issueRec p r s) := ⟨by unfold hopCmds; rw [issueRec_hops]; exact id⟩
theorem completeOne_free (arr status info s) : Holding hopCmds NoneHeld s (completeOne arr status info s) := by
  unfold completeOne
  split
  · exact .refl
  · refine .ite .refl ?_
    extract_lets st r t
    have ht : Holding hopCmds NoneHeld s t := by
      refine ⟨fun h c hc => ?_⟩
      obtain ⟨d, hd, rfl⟩ := List.mem_map.1 hc
      split
      · exact Phase.noConfusion
      · exact h d hd
    exact (issueRec_free ..).after ((dropGrants_free ..).after ((free_of_only (releaseFrames_only _)).after ((free_of_only (unpin_only ..)).after (.ite ht ((free_of_only (freeSlots_only ..)).after ht)))))
theorem complete_free (arr status info s) : Holding hopCmds NoneHeld s (complete arr status info s) := by
  unfold complete
  split
  · exact .refl
  · exact .each (fun _ _ => (completeOne_free ..)) ((completeOne_free ..))
theorem storeDeferred_free (r s) : Holding hopCmds NoneHeld s (storeDeferred r s) := by
  unfold storeDeferred
  exact (modHopPort_free ..)
theorem addDeferred_free (r s) : Holding hopCmds NoneHeld s (addDeferred r s) := by
  unfold addDeferred
  refine .ite ?_ ((free_of_only (mqNote_only ..)).after ((free_of_only (mirror_only ..)).after ((free_of_only (post_only ..)).after ((storeDeferred_free ..).after (.upd .refl)))))
  split
  · exact .ite .refl ((free_of_only (mirror_only ..)).after ((storeDeferred_free ..)))
  · exact .refl
theorem raiseDeferred_free (portB cause lba arrival tag s) : Holding hopCmds NoneHeld s (raiseDeferred portB cause lba arrival tag s) := by
  unfold raiseDeferred
  extract_lets
  split
  · exact (addDeferred_free ..).after ((free_of_only (listBlock_only ..)))
  · exact (free_of_only (mirror_only ..)).after ((storeDeferred_free ..).after ((free_of_only (listBlock_only ..))))
theorem completeSpin_free (action s) : Holding hopCmds NoneHeld s (completeSpin action s) := by
  unfold completeSpin
  refine .each (fun _ _ => ?_) .refl
  split
  · exact .refl
  · exact .ite ((complete_free ..)) .refl
theorem settleMissing_free (s) : Holding hopCmds NoneHeld s (settleMissing s) := by
  unfold settleMissing
  exact .ite (.each (fun _ _ => .ite ((raiseDeferred_free ..)) ((free_of_only (listBlock_only ..)))) (.upd .refl)) ((free_of_only (post_only ..)).after (.each (fun _ _ => .ite ((raiseDeferred_free ..)) ((free_of_only (listBlock_only ..)))) (.upd .refl)))
theorem releaseHeld_none {s : State} (h : NoneHeld (hopCmds s)) : releaseHeld s = s := by
  have hnone : (s.hop.cmds.filter fun c => c.phase = .held) = [] := List.filter_eq_nil_iff.2 fun c hc => by simpa using h c hc
  unfold releaseHeld
  rw [hnone]
  rfl
/-- Ready, where nothing was held (R23). -/
theorem enterReady_ready {s : State} (h : NoneHeld (hopCmds s)) : (enterReady s).dev = .ready ∧ (enterReady s).start = s.start := by
  have hspin : NoneHeld (hopCmds (completeSpin 1 { s with dev := .ready, spn := { s.spn with curvePt := 0 } })) := (completeSpin_free ..).keeps h
  have honly : Only { diag := true, mrc := true, mpd := true, links := true, injs := true, hop := true, slu := true, tx := true } { s with dev := .ready, spn := { s.spn with curvePt := 0 } } (enterReady s) := by
    unfold enterReady
    dsimp only
    rw [releaseHeld_none hspin]
    exact (recheck_only ..).after (.each (fun _ _ => (pumpRead_only ..).mono) ((completeSpin_only ..).mono))
  exact ⟨honly.dev rfl, honly.start rfl⟩
/-- The device state with the marks of the start that Ready sets. -/
abbrev readyView (s : State) : DevState × Bool × Nat := (s.dev, s.start.everReady, s.start.step)
theorem readyView_of_only {m : Units} {s t : State} (h : Only m s t) (hd : m.dev = false := by rfl) (hs : m.start = false := by rfl) : Kept readyView s t :=
  ⟨by unfold readyView; rw [h.dev hd, h.start hs]⟩
/-- What the end of Loading does (R607). -/
def readied (s : State) : State :=
      let taken := s.dev = .takeover
      let s := settleMissing s
      let s := if s.ptn.synced then s else enterSolo s
      let s := enterReady { s with start := { s.start with step := 18 } }
      let t := since s s.start.releasedAt
      let s := if s.start.everReady then s else { s with start := { s.start with everReady := true, tReady := min (2 ^ 24 - 1) (t / oneMs) } }
      let s := post 0x08 mStart [b8 t] s
      if !taken then s
      else if s.ptn.planned then
        post 0x87 mPartner [] (ptnSend (.handover 2 s.ptn.handoverReason) { s with ptn := { s.ptn with
          planned := false, handover := 2, handovers := satInc 16 s.ptn.handovers } })
      else post 0x84 mPartner [b8 (since s (s.ptn.takeoverAt.getD (now s)))] s
theorem execLoadingComplete_eq (s : State) : execLoadingComplete s = live s fun s => .next (if !((s.dev = .loading || s.dev = .takeover) && mayEnterReady s) then s else readied s) := rfl
/-- The end of Loading marks the start, and is Ready where nothing was held (R23, R607). -/
theorem readied_view (s : State) : (readied s).start.everReady = true ∧ (NoneHeld (hopCmds s) → (readied s).dev = .ready ∧ (readied s).start.step = 18) := by
  unfold readied
  extract_lets taken u v _ w t _ x y _
  have hw (h : NoneHeld (hopCmds s)) : w.dev = .ready ∧ w.start.step = 18 := by
    have hv : NoneHeld (hopCmds v) := (Holding.ite .refl (free_of_only (enterSolo_only _))).keeps ((settleMissing_free s).keeps h)
    obtain ⟨hdev, hstart⟩ := enterReady_ready (s := { v with start := { v.start with step := 18 } }) hv
    exact ⟨hdev, congrArg Start.step hstart⟩
  clear_value w
  have hx : readyView x = (w.dev, true, w.start.step) := by
    unfold x
    split
    next h => exact congrArg (fun b => (w.dev, b, w.start.step)) h
    · rfl
  clear_value x
  have hy : Kept readyView x y := readyView_of_only (post_only ..)
  have hview := (Kept.ite (c := (!decide taken) = true) hy (Kept.ite (c := y.ptn.planned = true) ((readyView_of_only (post_only 0x87 mPartner [] _)).after ((readyView_of_only (ptnSend_only (.handover 2 y.ptn.handoverReason)
    { y with ptn := { y.ptn with planned := false, handover := 2, handovers := satInc 16 y.ptn.handovers } })).after (.upd hy)))
      ((readyView_of_only (post_only 0x84 mPartner [b8 (since y (y.ptn.takeoverAt.getD (now y)))] y)).after hy))).view.trans hx
  rw [readyView, Prod.mk.injEq, Prod.mk.injEq] at hview
  obtain ⟨hd, hever, hs⟩ := hview
  exact ⟨hever, fun h => ⟨hd.trans (hw h).1, hs.trans (hw h).2⟩⟩
/-- O7's last part (R607, R23). -/
theorem loadingComplete_readies {s : State} (hawake : awake s = true) : Completes .loadingComplete s fun t =>
      (s.dev = .loading ∨ s.dev = .takeover → mayEnterReady s = true → t.start.everReady = true ∧ ((∀ d ∈ s.hop.cmds, d.phase ≠ .held) → t.dev = .ready ∧ t.start.step = 18)) ∧
      (¬ (s.dev = .loading ∨ s.dev = .takeover) ∨ mayEnterReady s = false → t = s) := by
  refine Completes.live ((execLoadingComplete_eq s).trans (if_pos hawake)) fun t ht => ?_
  have hcond : ((s.dev = .loading || s.dev = .takeover) && mayEnterReady s) = true ↔ (s.dev = .loading ∨ s.dev = .takeover) ∧ mayEnterReady s = true := by
    simp
  by_cases hmay : (s.dev = .loading ∨ s.dev = .takeover) ∧ mayEnterReady s = true
  case neg =>
    rw [Bool.eq_false_iff.2 fun h => hmay (hcond.1 h)] at ht
    exact ⟨fun h₁ h₂ => absurd ⟨h₁, h₂⟩ hmay, fun _ => ht⟩
  rw [hcond.2 hmay, if_neg (show ¬ (!true) = true by decide)] at ht
  obtain ⟨hdev, hready⟩ := hmay
  rw [ht]
  obtain ⟨hever, hgoes⟩ := readied_view s
  exact ⟨fun _ _ => ⟨hever, hgoes⟩, fun h => h.elim (fun h => absurd hdev h) fun h => absurd (hready.symm.trans h) (by decide)⟩
/-- Settles O7: the start from the release of a reset to Ready, step by step. -/
theorem startsRunThroughToReady : Obligations.StartsRunThroughToReady := by
  unfold Obligations.StartsRunThroughToReady
  exact ⟨resetRelease_starts, fun s hawake => ⟨fun area unreadable => replayReadDone_drains hawake area unreadable, fun area => dumpRetire_retires hawake area, loadingComplete_readies hawake⟩⟩

end Sys2Proof.Machine
end

section
/-! The device state in Hold-up and in Stopped (R464). -/

namespace Sys2Proof.Machine
set_option Elab.async false

-- In Hold-up and in Stopped no condition changes the device state but the end of Hold-up (R464).

/-- The device state. -/
abbrev devOf (s : State) : DevState := s.dev
/-- Hold-up, or Stopped. -/
def Down (d : DevState) : Prop := d = .holdUp ∨ d = .stopped
theorem devOf_of_only {P : DevState → Prop} {m : Units} {s t : State} (h : Only m s t) (hm : m.dev = false := by rfl) : Holding devOf P s t := ⟨by unfold devOf; rw [h.dev hm]; exact id⟩
theorem down_of_only {m : Units} {s t : State} (h : Only m s t) (hm : m.dev = false := by rfl) : Holding devOf Down s t := devOf_of_only h hm
/-- A step that another state allows alone. -/
theorem Holding.unless {s t u : State} {c : Prop} [Decidable c] (hc : Down s.dev → ¬ c) (hu : Holding devOf Down s u) : Holding devOf Down s (if c then t else u) := by
  refine ⟨fun h => ?_⟩
  rw [if_neg (hc h)]
  exact hu.keeps h
/-- A step that Hold-up and Stopped do not take. -/
theorem Holding.guarded {s t u : State} {c : Prop} [Decidable c] (hc : Down s.dev → c) (hu : Holding devOf Down s u) : Holding devOf Down s (if c then u else t) := by
  refine ⟨fun h => ?_⟩
  rw [if_pos (hc h)]
  exact hu.keeps h
theorem holdsFrom_of_down {d : DevState} (h : Down d) : holdsFrom d = false := by rcases h with rfl | rfl <;> rfl
theorem DevStops.down {s t : State} (h : DevStops s t) : Holding devOf Down s t := ⟨fun hd => h.elim (fun he => by unfold devOf; rw [he]; exact hd) .inr⟩
theorem enterHold_within {P : DevState → Prop} (hP : ∀ d, P d → Down d) (event injected s) : Holding devOf P s (enterHold event injected s) := by
  refine ⟨fun h => ?_⟩
  unfold enterHold
  rw [holdsFrom_of_down (hP _ h), if_neg Bool.false_ne_true, if_neg (by rcases hP _ h with h | h <;> simp [h])]
  exact h
theorem enterHold_down (event injected s) : Holding devOf Down s (enterHold event injected s) := enterHold_within (fun _ => id) ..
theorem Holding.exhaustedWith {row : Nat} {l : Loc} {more : State → State} {s t : State} (hf : ∀ u, Holding devOf Down u (more u)) (h : Holding devOf Down s t) :
    Holding devOf Down s (exhaustedWith row l more t) := by
  refine Holding.after ?_ h
  unfold Machine.exhaustedWith
  exact .ite .refl ((down_of_only (recomputeHorizon_only ..)).after ((hf _).after ((down_of_only (post_only ..)).after (.upd .refl))))
theorem reportAll_within {P : DevState → Prop} (hP : ∀ d, P d → Down d) (rs s) : Holding devOf P s (reportAll rs s) := by
  unfold reportAll
  exact .each (fun _ _ => (enterHold_within hP ..)) ((devOf_of_only (captureFirst_only ..)).after (.each (fun _ _ => (devOf_of_only (mqNote_only ..)).after ((devOf_of_only (countReport_only ..)))) .refl))
theorem reportAll_down (rs s) : Holding devOf Down s (reportAll rs s) := reportAll_within (fun _ => id) ..
theorem report_within {P : DevState → Prop} (hP : ∀ d, P d → Down d) (r s) : Holding devOf P s (report r s) := by
  unfold report
  exact (reportAll_within hP ..)
theorem report_down (r s) : Holding devOf Down s (report r s) := report_within (fun _ => id) ..
theorem condition_within {P : DevState → Prop} (hP : ∀ d, P d → Down d) (code master cause hold fs s) : Holding devOf P s (condition code master cause hold fs s) := by
  unfold condition
  exact (report_within hP ..).after ((devOf_of_only (post_only ..)))
theorem condition_down (code master cause hold fs s) : Holding devOf Down s (condition code master cause hold fs s) := condition_within (fun _ => id) ..
theorem spnReport_within {P : DevState → Prop} (hP : ∀ d, P d → Down d) (code fs hold s) : Holding devOf P s (spnReport code fs hold s) := by
  unfold spnReport
  exact (report_within hP ..).after ((devOf_of_only (spnEvent_only ..)))
theorem spnReport_down (code fs hold s) : Holding devOf Down s (spnReport code fs hold s) := spnReport_within (fun _ => id) ..
theorem generatorEnd_within {P : DevState → Prop} (hP : ∀ d, P d → Down d) (s) : Holding devOf P s (generatorEnd s) := by
  unfold generatorEnd
  exact (spnReport_within hP ..).after (.upd ((devOf_of_only (startCoast_only ..))))
theorem generatorEnd_down (s) : Holding devOf Down s (generatorEnd s) := generatorEnd_within (fun _ => id) ..
theorem enterStopped_down (cause s) : Holding devOf Down s (enterStopped cause s) := ⟨fun _ => .inr rfl⟩
theorem finalStop_down (cause s) : Holding devOf Down s (finalStop cause s) := ⟨fun _ => .inr rfl⟩
theorem advanceStop_down (s) : Holding devOf Down s (advanceStop s) := (advanceStop_devStops s).down
theorem stopSequence_down (solo cause s) : Holding devOf Down s (stopSequence solo cause s) := (stopSequence_devStops solo cause s).down
theorem failStopInj_down (injected cause s) : Holding devOf Down s (failStopInj injected cause s) := .ite (enterHold_down ..) ((stopSequence_down ..).after (.upd .refl))
theorem failStop_down (cause s) : Holding devOf Down s (failStop cause s) := (failStop_devStops cause s).down
theorem Holding.spindleFault {code : BitVec 8} {hold : Bool} {fs : List PayField} {inService : State → State} {s t : State} (hf : ∀ u, Holding devOf Down u (inService u)) (h : Holding devOf Down s t) :
    Holding devOf Down s (spindleFault code hold fs inService t) := by
  refine Holding.after ?_ h
  unfold Machine.spindleFault
  extract_lets u
  have hu : Holding devOf Down t u := (down_of_only (mqNote_only ..)).after (down_of_only (spnEvent_only ..))
  have hstops (r : Report) : Holding devOf Down t (failStop code (gatesOff (report r u))) := (failStop_down ..).after ((down_of_only (gatesOff_only ..)).after ((report_down ..).after hu))
  split
  · exact (report_down ..).after hu
  · exact hstops _
  · exact hstops _
  · exact hstops _
  · exact (report_down ..).after hu
  · exact (report_down ..).after hu
  · exact (report_down ..).after hu
  · exact (hf _).after ((report_down ..).after hu)
theorem holdUpSpindle_within {P : DevState → Prop} (hP : ∀ d, P d → Down d) (s) : Holding devOf P s (holdUpSpindle s) := by
  unfold holdUpSpindle
  exact .ite .refl (.ite (.ite ((devOf_of_only (startGenerator_only ..))) ((generatorEnd_within hP ..))) (.ite (.ite .refl ((generatorEnd_within hP ..))) (.ite (.ite ((devOf_of_only (startGenerator_only ..))) ((generatorEnd_within hP ..))) (.ite (.ite (.ite ((devOf_of_only (startCatch_only ..))) .refl) ((generatorEnd_within hP ..))) (.ite (.ite (.ite ((devOf_of_only (startCatch_only ..))) ((devOf_of_only (startOffsets_only ..)))) ((generatorEnd_within hP ..))) ((generatorEnd_within hP ..)))))))
theorem holdUpSpindle_down (s) : Holding devOf Down s (holdUpSpindle s) := holdUpSpindle_within (fun _ => id) ..
/-- Whether a power failure finds the part in Loading (R603). -/
def fromLoading (s : State) : Bool := s.dev == .loading || (s.dev == .faultHold && s.flt.from_ == .loading)
/-- The part in Hold-up, with what it gives up at its beginning given up (R464). -/
def holdUpEntered (loading : Bool) (source : Nat) (s : State) : State :=
  let s := endVisits { s with
    dev := .holdUp, start := { s.start with parkStep := 0 }, spc := { s.spc with stopping := false },
    hold := { s.hold with
      source, detectedAt := devTime s, fromLoading := loading, owed := !loading, returned := false, mirrorCopy := s.ptn.role = 2 || s.dev == .takeover },
    flt := { s.flt with stopStep := 0, quietSince := none, awaiting := false } }
  let s := post 0x10 mPower [b1 source] s
  let s := dropGone (completeAll 0x10 s)
  let s := holdUpSpindle s
  let s := alkClose (holdUpRetract (alkDrop s))
  let s := stopChannels (quiesceFlash s)
  freeInner (fun _ => true) { s with
    slu := { s.slu with ops := [], chosen := [], line := [], work := [] }, tre := { s.tre with placements := [], sent := [] } }
theorem enterHoldUp_eq (source : Nat) (s : State) :
    enterHoldUp source s = if fromLoading s then enterStopped 0x10 (post 0x1A mPower [] (holdUpEntered (fromLoading s) source s)) else holdUpEntered (fromLoading s) source s := by
  unfold enterHoldUp holdUpEntered fromLoading
  rfl
theorem holdUpEntered_dev (loading : Bool) (source : Nat) (s : State) : (holdUpEntered loading source s).dev = .holdUp := by
  unfold holdUpEntered
  extract_lets _ _ _ _ u v w x y z
  have hu : u.dev = .holdUp := (endVisits_only _).dev rfl
  have hv : v.dev = .holdUp := (post_dev ..).trans hu
  have hw : w.dev = .holdUp := by
    unfold w
    rw [(dropGone_only _).dev rfl, (completeAll_only ..).dev rfl]
    exact hv
  have hx : x.dev = .holdUp := (holdUpSpindle_within (P := (· = .holdUp)) (fun _ => .inl) w).keeps hw
  have hy : y.dev = .holdUp := ((alkClose_only _).dev rfl).trans (((holdUpRetract_only _).dev rfl).trans (((alkDrop_only x).dev rfl).trans hx))
  have hz : z.dev = .holdUp := by
    unfold z
    rw [(stopChannels_only _).dev rfl, (quiesceFlash_only _).dev rfl]
    exact hy
  clear_value z
  rw [freeInner_dev]
  exact hz
theorem enterHoldUp_dev (source : Nat) (s : State) : (enterHoldUp source s).dev = if fromLoading s then .stopped else .holdUp := by
  rw [enterHoldUp_eq]
  split
  · rfl
  · exact holdUpEntered_dev ..
theorem enterHoldUp_down (source s) : Holding devOf Down s (enterHoldUp source s) := by
  refine ⟨fun _ => ?_⟩
  unfold devOf
  rw [enterHoldUp_dev]
  split
  · exact .inr rfl
  · exact .inl rfl
theorem powerFailed_down (source s) : Holding devOf Down s (powerFailed source s) := by
  unfold powerFailed
  refine .ite ((enterHoldUp_down ..)) ?_
  split
  · exact .ite (.upd .refl) ((down_of_only (post_only ..)).after (.upd .refl))
  · exact .ite (.upd .refl) ((down_of_only (post_only ..)).after (.upd .refl))
  · exact .ite (.upd .refl) ((down_of_only (post_only ..)).after (.upd .refl))
  · exact .upd .refl
theorem declareFailed_down (n s) : Holding devOf Down s (declareFailed n s) := by
  unfold declareFailed
  exact .ite .refl (.ite ((failStop_down ..).after ((down_of_only (post_only ..)).after ((down_of_only (mirror_only ..)).after (.upd ((down_of_only (modHead_only ..)).after ((down_of_only (modIsl_only ..)).after ((down_of_only (disableCtx_only ..)).after ((down_of_only (disableCtx_only ..)).after ((down_of_only (sendUa_only ..)).after ((down_of_only (sendMode_only ..)).after ((down_of_only (coolHead_only ..)).after ((down_of_only (stopWriter_only ..)))))))))))))) ((down_of_only (startRebuild_only ..)).after ((down_of_only (post_only ..)).after ((down_of_only (mirror_only ..)).after (.upd ((down_of_only (modHead_only ..)).after ((down_of_only (modIsl_only ..)).after ((down_of_only (disableCtx_only ..)).after ((down_of_only (disableCtx_only ..)).after ((down_of_only (sendUa_only ..)).after ((down_of_only (sendMode_only ..)).after ((down_of_only (coolHead_only ..)).after ((down_of_only (stopWriter_only ..)))))))))))))))
theorem remapOutside_down (x origin s) : Holding devOf Down s (remapOutside x origin s) := by
  unfold remapOutside
  extract_lets
  split
  · exact (down_of_only (addWork_only ..))
  · exact (declareFailed_down ..)
theorem markDefective_down (x s) : Holding devOf Down s (markDefective x s) := by
  unfold markDefective
  exact (remapOutside_down ..).after ((down_of_only (putSec_only ..)).after ((down_of_only (post_only ..)).after ((down_of_only (mqNote_only ..)))))
theorem tryReconstruct_down (again x s) : Holding devOf Down s (tryReconstruct again x s) := by
  unfold tryReconstruct
  refine .ite .refl ?_
  refine .ite ?_ .refl
  extract_lets
  split
  · exact .ite ((down_of_only (putSec_only ..)).after ((down_of_only (dropReread_only ..)).after ((down_of_only (deliverInfo_only ..)).after ((down_of_only (post_only ..)).after (.ite (.ite .refl ((down_of_only (enterRung_only ..)))) ((down_of_only (leaveRung_only ..)).after (.ite .refl ((down_of_only (enterRung_only ..)))))))))) (.ite ((markDefective_down ..).after ((down_of_only (dropReread_only ..)).after ((down_of_only (deliverInfo_only ..)).after ((down_of_only (post_only ..)).after (.ite (.ite .refl ((down_of_only (enterRung_only ..)))) ((down_of_only (leaveRung_only ..)).after (.ite .refl ((down_of_only (enterRung_only ..)))))))))) ((down_of_only (followUp_only ..)).after ((down_of_only (dropReread_only ..)).after ((down_of_only (deliverInfo_only ..)).after ((down_of_only (post_only ..)).after (.ite (.ite .refl ((down_of_only (enterRung_only ..)))) ((down_of_only (leaveRung_only ..)).after (.ite .refl ((down_of_only (enterRung_only ..)))))))))))
  · exact (down_of_only (putSec_only ..)).after (.ite .refl ((down_of_only (enterRung_only ..))))
theorem tryEquation_down (again a q t sl s) : Holding devOf Down s (tryEquation again a q t sl s) := by
  unfold tryEquation
  refine .each (fun _ _ => ?_) .refl
  split
  · exact (tryReconstruct_down ..)
  · exact .refl
theorem climb_down (n x s) : Holding devOf Down s (climb n x s) := by
  unfold climb
  refine .ite ?_ (.ite ((markDefective_down ..).after ((down_of_only (endFollowUp_only ..)))) ((down_of_only (settleLost_only ..)).after ((tryEquation_down ..).after ((down_of_only (putSec_only ..))))))
  extract_lets
  split
  · exact .ite ((tryEquation_down ..).after (.each (fun _ _ => (down_of_only (wantSec_only ..))) ((down_of_only (enterRung_only ..)).after ((down_of_only (putSec_only ..)))))) (.ite ((tryEquation_down ..).after (.each (fun _ _ => (down_of_only (wantSec_only ..))) ((down_of_only (enterRung_only ..)).after ((down_of_only (putSec_only ..)))))) ((down_of_only (rereadWork_only ..)).after ((tryEquation_down ..).after (.each (fun _ _ => (down_of_only (wantSec_only ..))) ((down_of_only (enterRung_only ..)).after ((down_of_only (putSec_only ..))))))))
  · exact (tryEquation_down ..).after (.each (fun _ _ => (down_of_only (wantSec_only ..))) ((down_of_only (enterRung_only ..)).after ((down_of_only (putSec_only ..)))))
theorem rungFailed_down (x island frame missed s) : Holding devOf Down s (rungFailed x island frame missed s) := by
  unfold rungFailed
  refine .ite ?_ (.ite ((down_of_only (askSecond_only ..)).after ((down_of_only (putSec_only ..)))) ((climb_down ..)))
  extract_lets
  split
  · exact .ite ((tryEquation_down ..).after ((down_of_only (putSec_only ..)))) ((down_of_only (askSecond_only ..)).after ((tryEquation_down ..).after ((down_of_only (putSec_only ..)))))
  · exact (tryEquation_down ..).after ((down_of_only (putSec_only ..)))
theorem rungPassed_down (rung x i s) : Holding devOf Down s (rungPassed rung x i s) := by
  unfold rungPassed
  exact .ite ((down_of_only (endFollowUp_only ..)).after (.ite ((down_of_only (mqNote_only ..)).after (.ite ((down_of_only (post_only ..)).after ((down_of_only (leaveRung_only ..)))) ((down_of_only (leaveRung_only ..))))) (.ite ((down_of_only (post_only ..)).after ((down_of_only (leaveRung_only ..)))) ((down_of_only (leaveRung_only ..)))))) ((down_of_only (settleLost_only ..)).after ((tryEquation_down ..).after ((down_of_only (deliverInfo_only ..)).after ((down_of_only (putSec_only ..)).after (.ite ((down_of_only (mqNote_only ..)).after (.ite ((down_of_only (post_only ..)).after ((down_of_only (leaveRung_only ..)))) ((down_of_only (leaveRung_only ..))))) (.ite ((down_of_only (post_only ..)).after ((down_of_only (leaveRung_only ..)))) ((down_of_only (leaveRung_only ..)))))))))
theorem remapRow_down (r k s) : Holding devOf Down s (remapRow r k s) := by
  unfold remapRow
  extract_lets
  split
  · exact (declareFailed_down ..)
  · exact (down_of_only (modRow_only ..)).after ((down_of_only (noteLimit_only ..)))
theorem judgeMargin_down (k l m s) : Holding devOf Down s (judgeMargin k l m s) := by
  unfold judgeMargin
  extract_lets
  split
  · exact .ite ((declareFailed_down ..).after ((down_of_only (exhausted_only ..)).after ((down_of_only (noteMargin_only ..)).after (.ite .refl ((down_of_only (recovered_only ..))))))) (.ite ((down_of_only (roomLeft_only ..)).after ((down_of_only (noteMargin_only ..)).after (.ite .refl ((down_of_only (recovered_only ..)))))) ((down_of_only (noteMargin_only ..)).after (.ite .refl ((down_of_only (recovered_only ..))))))
  · exact .ite ((down_of_only (noteMargin_only ..)).after (.ite .refl ((down_of_only (recovered_only ..))))) (.ite ((declareFailed_down ..).after ((down_of_only (exhausted_only ..)).after ((down_of_only (noteMargin_only ..)).after (.ite .refl ((down_of_only (recovered_only ..))))))) ((down_of_only (roomLeft_only ..)).after ((down_of_only (noteMargin_only ..)).after (.ite .refl ((down_of_only (recovered_only ..)))))))
  · exact .ite ((declareFailed_down ..).after ((down_of_only (exhausted_only ..)).after ((down_of_only (noteMargin_only ..)).after (.ite .refl ((down_of_only (recovered_only ..))))))) ((down_of_only (noteMargin_only ..)).after (.ite .refl ((down_of_only (recovered_only ..)))))
  · exact .ite ((down_of_only (noteMargin_only ..)).after (.ite .refl ((down_of_only (recovered_only ..))))) (.ite (Holding.exhaustedWith (fun _ => (down_of_only (post_only ..))) ((down_of_only (noteMargin_only ..)).after (.ite .refl ((down_of_only (recovered_only ..)))))) ((down_of_only (roomLeft_only ..)).after ((down_of_only (noteMargin_only ..)).after (.ite .refl ((down_of_only (recovered_only ..)))))))
  · exact .ite ((down_of_only (exhausted_only ..)).after ((down_of_only (noteMargin_only ..)).after (.ite .refl ((down_of_only (recovered_only ..)))))) ((down_of_only (noteMargin_only ..)).after (.ite .refl ((down_of_only (recovered_only ..)))))
  · exact .ite ((down_of_only (noteMargin_only ..)).after (.ite .refl ((down_of_only (recovered_only ..))))) (.ite (Holding.exhaustedWith (fun _ => (down_of_only (post_only ..))) ((down_of_only (noteMargin_only ..)).after (.ite .refl ((down_of_only (recovered_only ..)))))) ((down_of_only (roomLeft_only ..)).after ((down_of_only (noteMargin_only ..)).after (.ite .refl ((down_of_only (recovered_only ..)))))))
  · exact .ite ((down_of_only (exhausted_only ..)).after ((down_of_only (noteMargin_only ..)).after (.ite .refl ((down_of_only (recovered_only ..)))))) ((down_of_only (noteMargin_only ..)).after (.ite .refl ((down_of_only (recovered_only ..)))))
  · exact (down_of_only (noteMargin_only ..)).after (.ite .refl ((down_of_only (recovered_only ..))))
  · exact (down_of_only (noteMargin_only ..)).after (.ite .refl ((down_of_only (recovered_only ..))))
  · exact (down_of_only (noteMargin_only ..)).after (.ite .refl ((down_of_only (recovered_only ..))))
theorem channelResult_down (o n z s) : Holding devOf Down s (channelResult o n z s) := by
  unfold channelResult
  refine .ite (.ite .refl ((down_of_only (lowerClearance_only ..)).after ((judgeMargin_down ..)))) ?_
  refine .ite (.ite (.ite .refl ((down_of_only (lowerClearance_only ..)).after ((judgeMargin_down ..)))) (.ite ((down_of_only (replanTo_only ..)).after (.ite .refl ((down_of_only (lowerClearance_only ..)).after ((judgeMargin_down ..))))) (.ite ((down_of_only (replanTo_only ..)).after (.ite .refl ((down_of_only (lowerClearance_only ..)).after ((judgeMargin_down ..))))) (.ite .refl ((down_of_only (lowerClearance_only ..)).after ((judgeMargin_down ..))))))) ?_
  refine .ite ((down_of_only (confirmSet_only ..)).after (.ite (.ite .refl ((down_of_only (lowerClearance_only ..)).after ((judgeMargin_down ..)))) (.ite ((down_of_only (replanTo_only ..)).after (.ite .refl ((down_of_only (lowerClearance_only ..)).after ((judgeMargin_down ..))))) (.ite ((down_of_only (replanTo_only ..)).after (.ite .refl ((down_of_only (lowerClearance_only ..)).after ((judgeMargin_down ..))))) (.ite .refl ((down_of_only (lowerClearance_only ..)).after ((judgeMargin_down ..)))))))) ?_
  split
  · exact .ite ((down_of_only (adoptSet_only ..)).after (.upd (.ite (.ite .refl ((down_of_only (lowerClearance_only ..)).after ((judgeMargin_down ..)))) (.ite ((down_of_only (replanTo_only ..)).after (.ite .refl ((down_of_only (lowerClearance_only ..)).after ((judgeMargin_down ..))))) (.ite ((down_of_only (replanTo_only ..)).after (.ite .refl ((down_of_only (lowerClearance_only ..)).after ((judgeMargin_down ..))))) (.ite .refl ((down_of_only (lowerClearance_only ..)).after ((judgeMargin_down ..))))))))) (.upd (.ite (.ite .refl ((down_of_only (lowerClearance_only ..)).after ((judgeMargin_down ..)))) (.ite ((down_of_only (replanTo_only ..)).after (.ite .refl ((down_of_only (lowerClearance_only ..)).after ((judgeMargin_down ..))))) (.ite ((down_of_only (replanTo_only ..)).after (.ite .refl ((down_of_only (lowerClearance_only ..)).after ((judgeMargin_down ..))))) (.ite .refl ((down_of_only (lowerClearance_only ..)).after ((judgeMargin_down ..))))))))
  · exact .ite (.ite .refl ((down_of_only (lowerClearance_only ..)).after ((judgeMargin_down ..)))) (.ite ((down_of_only (replanTo_only ..)).after (.ite .refl ((down_of_only (lowerClearance_only ..)).after ((judgeMargin_down ..))))) (.ite ((down_of_only (replanTo_only ..)).after (.ite .refl ((down_of_only (lowerClearance_only ..)).after ((judgeMargin_down ..))))) (.ite .refl ((down_of_only (lowerClearance_only ..)).after ((judgeMargin_down ..))))))
theorem probeResult_down (o n z s) : Holding devOf Down s (probeResult o n z s) := by
  unfold probeResult
  exact .ite (.ite .refl ((down_of_only (lowerClearance_only ..)).after ((judgeMargin_down ..).after ((down_of_only (noteMargin_only ..)))))) ((down_of_only (replanTo_only ..)).after (.ite .refl ((down_of_only (lowerClearance_only ..)).after ((judgeMargin_down ..).after ((down_of_only (noteMargin_only ..)))))))
theorem visitEnded_down (a o s) : Holding devOf Down s (visitEnded a o s) := by
  unfold visitEnded
  split
  · exact .refl
  · refine .each (fun _ _ => ?_) (.upd .refl)
    refine .ite ((down_of_only (mqSend_only ..))) ?_
    refine .ite ((channelResult_down ..).after ((down_of_only (mqSend_only ..)))) ?_
    refine .ite ((probeResult_down ..).after ((down_of_only (mqSend_only ..)))) ?_
    split
    · exact (down_of_only (adoptCal_only ..)).after ((down_of_only (mqSend_only ..)))
    · exact (down_of_only (mqSend_only ..))
theorem alkCondition_down (a code cause hold s) : Holding devOf Down s (alkCondition a code cause hold s) := by
  unfold alkCondition
  exact (condition_down ..)
theorem alkLoss_down (a s) : Holding devOf Down s (alkLoss a s) := by
  unfold alkLoss
  exact .ite ((alkCondition_down ..).after ((down_of_only (openCause_only ..)).after ((down_of_only (modAlk_only ..)).after ((down_of_only (voidArm_only ..)))))) .refl
theorem alkTrainFailed_down (a s) : Holding devOf Down s (alkTrainFailed a s) := by
  unfold alkTrainFailed
  exact (failStop_down ..).after ((alkCondition_down ..).after (.ite ((down_of_only (startFail_only ..)).after ((down_of_only (modAlk_only ..)))) ((down_of_only (modAlk_only ..)))))
theorem alkAttemptFailed_down (a s) : Holding devOf Down s (alkAttemptFailed a s) := by
  unfold alkAttemptFailed
  exact .ite ((alkTrainFailed_down ..).after ((down_of_only (modAlk_only ..)))) (.each (fun _ _ => (down_of_only (send_only ..))) ((down_of_only (modAlk_only ..))))
theorem alkSwap_down (a up lane atOnce s) : Holding devOf Down s (alkSwap a up lane atOnce s) := by
  unfold alkSwap
  exact .ite .refl (.ite ((down_of_only (modAlk_only ..))) (.ite ((alkCondition_down ..).after ((down_of_only (sendLaneMap_only ..)).after ((down_of_only (modAlk_only ..))))) ((failStop_down ..).after ((alkCondition_down ..)))))
theorem writeGate_down (n s) : Holding devOf Down s (writeGate n s) := by
  unfold writeGate
  exact .ite ((condition_down ..).after ((down_of_only (modHead_only ..)).after ((down_of_only (stopWriter_only ..)).after ((down_of_only (voidArm_only ..)))))) .refl
theorem contactAct_down (n contact s) : Holding devOf Down s (contactAct n contact s) := by
  unfold contactAct
  exact .ite (.ite ((declareFailed_down ..).after (.ite ((down_of_only (calContact_only ..)).after ((condition_down ..).after (.ite ((writeGate_down ..).after (.ite ((down_of_only (handover_only ..)).after ((down_of_only (modCtx_only ..)).after ((down_of_only (modHead_only ..)).after ((down_of_only (sendHeater_only ..)))))) ((down_of_only (modHead_only ..)).after ((down_of_only (sendHeater_only ..)))))) (.ite ((down_of_only (handover_only ..)).after ((down_of_only (modCtx_only ..)).after ((down_of_only (modHead_only ..)).after ((down_of_only (sendHeater_only ..)))))) ((down_of_only (modHead_only ..)).after ((down_of_only (sendHeater_only ..)))))))) ((down_of_only (modHead_only ..)).after ((condition_down ..).after (.ite ((writeGate_down ..).after (.ite ((down_of_only (handover_only ..)).after ((down_of_only (modCtx_only ..)).after ((down_of_only (modHead_only ..)).after ((down_of_only (sendHeater_only ..)))))) ((down_of_only (modHead_only ..)).after ((down_of_only (sendHeater_only ..)))))) (.ite ((down_of_only (handover_only ..)).after ((down_of_only (modCtx_only ..)).after ((down_of_only (modHead_only ..)).after ((down_of_only (sendHeater_only ..)))))) ((down_of_only (modHead_only ..)).after ((down_of_only (sendHeater_only ..)))))))))) (.ite ((down_of_only (calContact_only ..)).after ((condition_down ..).after (.ite ((writeGate_down ..).after (.ite ((down_of_only (handover_only ..)).after ((down_of_only (modCtx_only ..)).after ((down_of_only (modHead_only ..)).after ((down_of_only (sendHeater_only ..)))))) ((down_of_only (modHead_only ..)).after ((down_of_only (sendHeater_only ..)))))) (.ite ((down_of_only (handover_only ..)).after ((down_of_only (modCtx_only ..)).after ((down_of_only (modHead_only ..)).after ((down_of_only (sendHeater_only ..)))))) ((down_of_only (modHead_only ..)).after ((down_of_only (sendHeater_only ..)))))))) ((down_of_only (modHead_only ..)).after ((condition_down ..).after (.ite ((writeGate_down ..).after (.ite ((down_of_only (handover_only ..)).after ((down_of_only (modCtx_only ..)).after ((down_of_only (modHead_only ..)).after ((down_of_only (sendHeater_only ..)))))) ((down_of_only (modHead_only ..)).after ((down_of_only (sendHeater_only ..)))))) (.ite ((down_of_only (handover_only ..)).after ((down_of_only (modCtx_only ..)).after ((down_of_only (modHead_only ..)).after ((down_of_only (sendHeater_only ..)))))) ((down_of_only (modHead_only ..)).after ((down_of_only (sendHeater_only ..)))))))))) ((condition_down ..).after (.ite ((writeGate_down ..).after (.ite ((down_of_only (handover_only ..)).after ((down_of_only (modCtx_only ..)).after ((down_of_only (modHead_only ..)).after ((down_of_only (sendHeater_only ..)))))) ((down_of_only (modHead_only ..)).after ((down_of_only (sendHeater_only ..)))))) (.ite ((down_of_only (handover_only ..)).after ((down_of_only (modCtx_only ..)).after ((down_of_only (modHead_only ..)).after ((down_of_only (sendHeater_only ..)))))) ((down_of_only (modHead_only ..)).after ((down_of_only (sendHeater_only ..)))))))
theorem clockFault_down (kind rail s) : Holding devOf Down s (clockFault kind rail s) := ⟨fun _ => .inr rfl⟩
theorem trySpinUp_down (s) : Holding devOf Down s (trySpinUp s) := .unless (fun h => by rcases h with h | h <;> simp [h]) .refl
theorem followBudget_down (s) : Holding devOf Down s (followBudget s) := .unless (fun h => by rcases h with h | h <;> simp [h]) (.unless (fun h => by rcases h with h | h <;> simp [h]) .refl)
theorem advanceHandover_down (s) : Holding devOf Down s (advanceHandover s) := .guarded (fun h => by rcases h with h | h <;> simp [h]) .refl
theorem advancePark_down (s) : Holding devOf Down s (advancePark s) := by
  unfold advancePark
  exact (advanceHandover_down ..).after ((down_of_only (parkSteps_only ..)))
theorem spindleLost_down (cause s) : Holding devOf Down s (spindleLost cause s) := by
  unfold spindleLost
  exact (failStop_down ..).after (.ite ((down_of_only (unloadAll_only ..)).after (.upd .refl)) (.upd .refl))
theorem governorFail_down (n cause s) : Holding devOf Down s (governorFail n cause s) := by
  unfold governorFail
  exact .ite (.ite ((failStop_down ..).after ((down_of_only (mqNote_only ..)).after ((condition_down ..).after ((down_of_only (openCause_only ..)).after ((down_of_only (setFormat_only ..)).after ((down_of_only (modCtx_only ..)))))))) ((down_of_only (mqNote_only ..)).after ((condition_down ..).after ((down_of_only (openCause_only ..)).after ((down_of_only (setFormat_only ..)).after ((down_of_only (modCtx_only ..)))))))) (.ite ((down_of_only (mqNote_only ..)).after ((condition_down ..).after ((down_of_only (modCtx_only ..))))) ((failStop_down ..).after ((down_of_only (mqNote_only ..)).after ((condition_down ..).after ((down_of_only (modCtx_only ..)))))))
theorem romFail_down (n s) : Holding devOf Down s (romFail n s) := by
  unfold romFail
  exact .ite ((down_of_only (mqNote_only ..)).after ((condition_down ..).after ((down_of_only (modCtx_only ..))))) ((failStop_down ..).after ((down_of_only (mqNote_only ..)).after ((condition_down ..).after ((down_of_only (modCtx_only ..))))))
theorem governorCorrected_down (s) : Holding devOf Down s (governorCorrected s) := by
  unfold governorCorrected
  exact (report_down ..).after (.upd .refl)
theorem runCtx_down (n input o s) : Holding devOf Down s (runCtx n input o s) := by
  unfold runCtx
  exact .ite .refl (.ite ((romFail_down ..).after (.ite ((governorCorrected_down ..).after ((down_of_only (modCtx_only ..)))) ((down_of_only (modCtx_only ..))))) (.ite ((governorFail_down ..).after (.ite ((governorCorrected_down ..).after ((down_of_only (modCtx_only ..)))) ((down_of_only (modCtx_only ..))))) (.ite (.ite ((governorFail_down ..).after ((down_of_only (modCtx_only ..)).after (.ite ((governorCorrected_down ..).after ((down_of_only (modCtx_only ..)))) ((down_of_only (modCtx_only ..)))))) ((down_of_only (modCtx_only ..)).after (.ite ((governorCorrected_down ..).after ((down_of_only (modCtx_only ..)))) ((down_of_only (modCtx_only ..)))))) (.ite ((governorFail_down ..).after ((down_of_only (trySwitch_only ..)).after (.ite (.ite ((down_of_only (sineStep_only ..)).after ((down_of_only (traceTaps_only ..)).after ((down_of_only (modCtx_only ..)).after (.ite ((governorCorrected_down ..).after ((down_of_only (modCtx_only ..)))) ((down_of_only (modCtx_only ..))))))) ((down_of_only (endSines_only ..)).after ((down_of_only (traceTaps_only ..)).after ((down_of_only (modCtx_only ..)).after (.ite ((governorCorrected_down ..).after ((down_of_only (modCtx_only ..)))) ((down_of_only (modCtx_only ..)))))))) ((down_of_only (traceTaps_only ..)).after ((down_of_only (modCtx_only ..)).after (.ite ((governorCorrected_down ..).after ((down_of_only (modCtx_only ..)))) ((down_of_only (modCtx_only ..))))))))) ((down_of_only (trySwitch_only ..)).after (.ite (.ite ((down_of_only (sineStep_only ..)).after ((down_of_only (traceTaps_only ..)).after ((down_of_only (modCtx_only ..)).after (.ite ((governorCorrected_down ..).after ((down_of_only (modCtx_only ..)))) ((down_of_only (modCtx_only ..))))))) ((down_of_only (endSines_only ..)).after ((down_of_only (traceTaps_only ..)).after ((down_of_only (modCtx_only ..)).after (.ite ((governorCorrected_down ..).after ((down_of_only (modCtx_only ..)))) ((down_of_only (modCtx_only ..)))))))) ((down_of_only (traceTaps_only ..)).after ((down_of_only (modCtx_only ..)).after (.ite ((governorCorrected_down ..).after ((down_of_only (modCtx_only ..)))) ((down_of_only (modCtx_only ..))))))))))))

end Sys2Proof.Machine
end

section
/-! Heads, the governor and the spindle in Hold-up and in Stopped. -/

namespace Sys2Proof.Machine
set_option Elab.async false

-- Heads, the governor and the spindle in Hold-up and in Stopped.

theorem runClean_down (n input s) : Holding devOf Down s (runClean n input s) := by
  unfold runClean
  exact (runCtx_down ..)
theorem runTest_down (n s) : Holding devOf Down s (runTest n s) := by
  unfold runTest
  exact (down_of_only (disableCtx_only ..)).after (.each (fun _ _ => (runClean_down ..)) ((down_of_only (enableCtx_only ..))))
theorem runTests_down (s) : Holding devOf Down s (runTests s) := by
  unfold runTests
  exact .each (fun _ _ => (runTest_down ..)) .refl
theorem focStep_down (m ia ib ic vbus s) : Holding devOf Down s (focStep m ia ib ic vbus s) := by
  unfold focStep
  exact (down_of_only (checkFloor_only ..)).after ((down_of_only (sendDuty_only ..)).after (.upd (.upd ((down_of_only (observerStep_only ..)).after (.ite (.upd (.ite (.upd (.ite (.upd (.upd (.ite ((down_of_only (modCtx_only ..)).after ((down_of_only (modCtx_only ..)).after (.upd ((runCtx_down ..).after ((runCtx_down ..).after ((down_of_only (setSetpoint_only ..)).after ((down_of_only (setSetpoint_only ..)).after (.ite ((runCtx_down ..)) .refl)))))))) (.upd ((runCtx_down ..).after ((runCtx_down ..).after ((down_of_only (setSetpoint_only ..)).after ((down_of_only (setSetpoint_only ..)).after (.ite ((runCtx_down ..)) .refl))))))))) (.upd (.ite ((down_of_only (modCtx_only ..)).after ((down_of_only (modCtx_only ..)).after (.upd ((runCtx_down ..).after ((runCtx_down ..).after ((down_of_only (setSetpoint_only ..)).after ((down_of_only (setSetpoint_only ..)).after (.ite ((runCtx_down ..)) .refl)))))))) (.upd ((runCtx_down ..).after ((runCtx_down ..).after ((down_of_only (setSetpoint_only ..)).after ((down_of_only (setSetpoint_only ..)).after (.ite ((runCtx_down ..)) .refl)))))))))) (.ite (.upd (.upd (.ite ((down_of_only (modCtx_only ..)).after ((down_of_only (modCtx_only ..)).after (.upd ((runCtx_down ..).after ((runCtx_down ..).after ((down_of_only (setSetpoint_only ..)).after ((down_of_only (setSetpoint_only ..)).after (.ite ((runCtx_down ..)) .refl)))))))) (.upd ((runCtx_down ..).after ((runCtx_down ..).after ((down_of_only (setSetpoint_only ..)).after ((down_of_only (setSetpoint_only ..)).after (.ite ((runCtx_down ..)) .refl))))))))) (.upd (.ite ((down_of_only (modCtx_only ..)).after ((down_of_only (modCtx_only ..)).after (.upd ((runCtx_down ..).after ((runCtx_down ..).after ((down_of_only (setSetpoint_only ..)).after ((down_of_only (setSetpoint_only ..)).after (.ite ((runCtx_down ..)) .refl)))))))) (.upd ((runCtx_down ..).after ((runCtx_down ..).after ((down_of_only (setSetpoint_only ..)).after ((down_of_only (setSetpoint_only ..)).after (.ite ((runCtx_down ..)) .refl))))))))))) (.ite (.upd (.ite (.upd (.upd (.ite ((down_of_only (modCtx_only ..)).after ((down_of_only (modCtx_only ..)).after (.upd ((runCtx_down ..).after ((runCtx_down ..).after ((down_of_only (setSetpoint_only ..)).after ((down_of_only (setSetpoint_only ..)).after (.ite ((runCtx_down ..)) .refl)))))))) (.upd ((runCtx_down ..).after ((runCtx_down ..).after ((down_of_only (setSetpoint_only ..)).after ((down_of_only (setSetpoint_only ..)).after (.ite ((runCtx_down ..)) .refl))))))))) (.upd (.ite ((down_of_only (modCtx_only ..)).after ((down_of_only (modCtx_only ..)).after (.upd ((runCtx_down ..).after ((runCtx_down ..).after ((down_of_only (setSetpoint_only ..)).after ((down_of_only (setSetpoint_only ..)).after (.ite ((runCtx_down ..)) .refl)))))))) (.upd ((runCtx_down ..).after ((runCtx_down ..).after ((down_of_only (setSetpoint_only ..)).after ((down_of_only (setSetpoint_only ..)).after (.ite ((runCtx_down ..)) .refl)))))))))) (.ite (.upd (.upd (.ite ((down_of_only (modCtx_only ..)).after ((down_of_only (modCtx_only ..)).after (.upd ((runCtx_down ..).after ((runCtx_down ..).after ((down_of_only (setSetpoint_only ..)).after ((down_of_only (setSetpoint_only ..)).after (.ite ((runCtx_down ..)) .refl)))))))) (.upd ((runCtx_down ..).after ((runCtx_down ..).after ((down_of_only (setSetpoint_only ..)).after ((down_of_only (setSetpoint_only ..)).after (.ite ((runCtx_down ..)) .refl))))))))) (.upd (.ite ((down_of_only (modCtx_only ..)).after ((down_of_only (modCtx_only ..)).after (.upd ((runCtx_down ..).after ((runCtx_down ..).after ((down_of_only (setSetpoint_only ..)).after ((down_of_only (setSetpoint_only ..)).after (.ite ((runCtx_down ..)) .refl)))))))) (.upd ((runCtx_down ..).after ((runCtx_down ..).after ((down_of_only (setSetpoint_only ..)).after ((down_of_only (setSetpoint_only ..)).after (.ite ((runCtx_down ..)) .refl)))))))))))))))
theorem overvoltage_down (s) : Holding devOf Down s (overvoltage s) := by
  unfold overvoltage
  exact (report_down ..).after ((down_of_only (spnEvent_only ..)).after (.upd (.ite ((down_of_only (send_only ..)).after (.upd ((down_of_only (startCoast_only ..))))) ((down_of_only (startCoast_only ..))))))
theorem overcurrent_down (s) : Holding devOf Down s (overcurrent s) := by
  unfold overcurrent
  exact Holding.spindleFault (fun _ => .ite ((spindleLost_down ..)) ((down_of_only (openCause_only ..)).after ((down_of_only (catchOwed_only ..))))) (.ite (.upd .refl) ((down_of_only (gatesOff_only ..)).after (.upd .refl)))
theorem holdUpBus_down (vbus s) : Holding devOf Down s (holdUpBus vbus s) := by
  unfold holdUpBus
  exact .ite .refl (.ite (.upd ((spnReport_down ..).after ((down_of_only (startShortBrake_only ..))))) (.ite ((generatorEnd_down ..).after (.upd .refl)) .refl))
theorem runPeriod_down (m vbus s) : Holding devOf Down s (runPeriod m vbus s) := by
  unfold runPeriod
  refine .ite ((down_of_only (gatherOffsets_only ..)).after (.ite .refl ((down_of_only (coastPeriod_only ..))))) ?_
  refine .ite ((down_of_only (gatherEmf_only ..)).after ((down_of_only (gatherEmf_only ..)).after (.ite .refl ((down_of_only (coastPeriod_only ..)))))) ?_
  refine .ite (.ite ((down_of_only (gatesOn_only ..)).after (.upd (.ite .refl ((down_of_only (coastPeriod_only ..)))))) (.upd (.ite .refl ((down_of_only (coastPeriod_only ..)))))) ?_
  refine .ite (.ite .refl ((down_of_only (coastPeriod_only ..)))) ?_
  split
  · exact .ite .refl ((down_of_only (coastPeriod_only ..)))
  · exact .ite ((overcurrent_down ..).after (.ite .refl ((down_of_only (coastPeriod_only ..))))) (.ite ((down_of_only (shortBrakePeriod_only ..)).after (.ite .refl ((down_of_only (coastPeriod_only ..))))) ((focStep_down ..).after (.ite .refl ((down_of_only (coastPeriod_only ..))))))
theorem goodPeriod_down (ok m vbus s) : Holding devOf Down s (goodPeriod ok m vbus s) := by
  unfold goodPeriod
  exact .ite ((runPeriod_down ..).after ((holdUpBus_down ..))) .refl
theorem senseLost_down (s) : Holding devOf Down s (senseLost s) := by
  unfold senseLost
  exact .ite ((spindleLost_down ..)) ((failStop_down ..).after ((down_of_only (startCoast_only ..))))
theorem startSlowWait_down (s) : Holding devOf Down s (startSlowWait s) := by
  unfold startSlowWait
  exact .ite ((spnReport_down ..).after ((down_of_only (gatesOn_only ..)).after (.upd ((down_of_only (inverterOff_only ..)))))) (.upd ((down_of_only (inverterOff_only ..))))
theorem keCheck_down (rpm amplitude s) : Holding devOf Down s (keCheck rpm amplitude s).2 := by
  unfold keCheck
  split
  · exact .refl
  · exact .ite (.upd .refl) ((judgeMargin_down ..).after (.upd .refl))
theorem classifyCatch_down (rpm slow amplitude s) : Holding devOf Down s (classifyCatch rpm slow amplitude s) := by
  unfold classifyCatch
  have hk : Holding devOf Down s (if slow then (true, s) else keCheck rpm amplitude s).2 := by
    split
    · exact .refl
    · exact keCheck_down ..
  generalize (if slow then (true, s) else keCheck rpm amplitude s) = p at hk
  obtain ⟨ok, t⟩ := p
  dsimp only at hk ⊢
  have he (code : BitVec 8) (u : State) : Holding devOf Down u (spnEvent code [] u) := down_of_only (spnEvent_only ..)
  have hu : Holding devOf Down s (if slow then t else spnEvent (if rpm < 0 then 0x22 else 0x21) [] t) := .ite hk ((he ..).after hk)
  refine .ite (.ite ?_ ?_) (.ite ?_ (.ite ?_ (.ite ?_ (.ite ?_ (.ite ?_ ?_)))))
  · exact (down_of_only (startGenerator_only ..)).after ((down_of_only (closeLoops_only ..)).after ((he ..).after (.ite hk ((he ..).after hk))))
  · exact (generatorEnd_down ..).after (.ite hk ((he ..).after hk))
  · exact .spindleFault (fun _ => spindleLost_down ..) ((down_of_only (gatesOff_only ..)).after hu)
  · exact (spindleLost_down ..).after hu
  · exact (down_of_only (startCoast_only ..)).after hu
  · exact (down_of_only (startFromRest_only ..)).after hu
  · exact (down_of_only (closeLoops_only ..)).after hu
  · exact (startSlowWait_down ..).after hu
theorem gateWriting_down (s) : Holding devOf Down s (gateWriting s) := by
  unfold gateWriting
  exact .each (fun _ _ => (writeGate_down ..)) .refl
theorem judgeMean_down (speed s) : Holding devOf Down s (judgeMean speed s) := by
  unfold judgeMean
  exact .ite (Holding.spindleFault (fun _ => .refl) ((gateWriting_down ..).after (.upd (.upd .refl)))) (.upd .refl)
theorem spindleAtRest_down (s) : Holding devOf Down s (spindleAtRest s) :=
  .ite (.guarded (fun h => by rcases h with h | h <;> simp [h]) (down_of_only (spindleOff_only ..))) ((advanceStop_down ..).after (down_of_only (spindleOff_only ..)))
theorem avsAnswer_down (acked readback s) : Holding devOf Down s (avsAnswer acked readback s) := by
  unfold avsAnswer
  exact .ite ((condition_down ..).after ((down_of_only (openCause_only ..)).after (.upd (.upd .refl)))) (.upd .refl)
theorem dumpOver_down (s) : Holding devOf Down s (dumpOver s) := by
  unfold dumpOver
  exact .ite ((enterStopped_down ..)) ((advanceStop_down ..).after (.upd .refl))
theorem dumpEndedEarly_down (s) : Holding devOf Down s (dumpEndedEarly s) := by
  unfold dumpEndedEarly
  exact (dumpOver_down ..).after ((down_of_only (post_only ..)).after (.upd .refl))
theorem servoCondition_down (code hold fs s) : Holding devOf Down s (servoCondition code hold fs s) := by
  unfold servoCondition
  exact (condition_down ..)
theorem reloadSpeed_down (s) : Holding devOf Down s (reloadSpeed s) := by
  unfold reloadSpeed
  exact .ite ((spindleLost_down ..)) .refl
theorem enterTrack_down (a s) : Holding devOf Down s (enterTrack a s) := by
  unfold enterTrack
  exact (reloadSpeed_down ..).after ((down_of_only (closeCause_only ..)).after ((down_of_only (closeCause_only ..)).after ((down_of_only (modArm_only ..)).after (.each (fun _ _ => (down_of_only (modHead_only ..))) .refl))))
theorem coastArm_down (a s) : Holding devOf Down s (coastArm a s) := by
  unfold coastArm
  exact (servoCondition_down ..).after ((down_of_only (modArm_only ..)).after (.each (fun _ _ => (down_of_only (modHead_only ..)).after ((writeGate_down ..))) .refl))
theorem lostWedge_down (n s) : Holding devOf Down s (lostWedge n s) := by
  unfold lostWedge
  exact .ite ((coastArm_down ..).after ((down_of_only (modArm_only ..)).after ((servoCondition_down ..).after ((down_of_only (modHead_only ..)).after ((down_of_only (modHead_only ..))))))) ((down_of_only (modArm_only ..)).after ((servoCondition_down ..).after ((down_of_only (modHead_only ..)).after ((down_of_only (modHead_only ..))))))
theorem paceWedge_down (a s) : Holding devOf Down s (paceWedge a s) := by
  unfold paceWedge
  extract_lets
  split
  · exact (down_of_only (modArm_only ..))
  · exact .ite (.ite (.ite ((down_of_only (modArm_only ..)).after (.each (fun _ _ => (down_of_only (modHead_only ..))) ((down_of_only (modArm_only ..))))) ((down_of_only (modArm_only ..)).after (.each (fun _ _ => (down_of_only (modHead_only ..))) ((down_of_only (modArm_only ..)))))) ((down_of_only (modArm_only ..)).after (.each (fun _ _ => (down_of_only (modHead_only ..))) ((down_of_only (modArm_only ..)))))) (.ite (.ite ((down_of_only (modArm_only ..)).after ((down_of_only (seekKt_only ..)).after ((down_of_only (modArm_only ..))))) (.ite ((down_of_only (endSeek_only ..)).after ((down_of_only (modArm_only ..)).after ((down_of_only (seekKt_only ..)).after ((down_of_only (modArm_only ..)))))) ((down_of_only (modArm_only ..)).after ((down_of_only (seekKt_only ..)).after ((down_of_only (modArm_only ..))))))) (.ite (.ite ((enterTrack_down ..).after ((down_of_only (modArm_only ..)))) ((down_of_only (modArm_only ..)).after ((down_of_only (modArm_only ..))))) ((down_of_only (modArm_only ..)))))
theorem trackWedge_down (n d s) : Holding devOf Down s (trackWedge n d s) := by
  unfold trackWedge
  refine .ite ?_ ?_
  · refine (down_of_only (sendWindow_only ..)).after ?_
    refine .ite ?_ ?_
    · refine .upd ?_
      refine .ite ?_ ?_
      · refine (paceWedge_down ..).after ?_
        refine .ite ?_ ?_
        · refine (down_of_only (requestSwitch_only ..)).after ?_
          refine .ite ?_ ?_
          · refine (down_of_only (requestSwitch_only ..)).after ?_
            refine (down_of_only (requestSwitch_only ..)).after ?_
            refine .ite ?_ ?_
            · refine (writeGate_down ..).after ?_
              refine (down_of_only (modHead_only ..)).after ?_
              split
              · exact (down_of_only (validWedge_only ..)).after ((down_of_only (modHead_only ..)).after ((down_of_only (modHead_only ..)).after ((down_of_only (modHead_only ..)))))
              · exact (lostWedge_down ..).after ((down_of_only (modHead_only ..)).after ((down_of_only (modHead_only ..)).after ((down_of_only (modHead_only ..)))))
            · refine (down_of_only (armWriter_only ..)).after ?_
              refine (down_of_only (modHead_only ..)).after ?_
              split
              · exact (down_of_only (validWedge_only ..)).after ((down_of_only (modHead_only ..)).after ((down_of_only (modHead_only ..)).after ((down_of_only (modHead_only ..)))))
              · exact (lostWedge_down ..).after ((down_of_only (modHead_only ..)).after ((down_of_only (modHead_only ..)).after ((down_of_only (modHead_only ..)))))
          · refine .ite ?_ ?_
            · refine (writeGate_down ..).after ?_
              refine (down_of_only (modHead_only ..)).after ?_
              split
              · exact (down_of_only (validWedge_only ..)).after ((down_of_only (modHead_only ..)).after ((down_of_only (modHead_only ..)).after ((down_of_only (modHead_only ..)))))
              · exact (lostWedge_down ..).after ((down_of_only (modHead_only ..)).after ((down_of_only (modHead_only ..)).after ((down_of_only (modHead_only ..)))))
            · refine (down_of_only (armWriter_only ..)).after ?_
              refine (down_of_only (modHead_only ..)).after ?_
              split
              · exact (down_of_only (validWedge_only ..)).after ((down_of_only (modHead_only ..)).after ((down_of_only (modHead_only ..)).after ((down_of_only (modHead_only ..)))))
              · exact (lostWedge_down ..).after ((down_of_only (modHead_only ..)).after ((down_of_only (modHead_only ..)).after ((down_of_only (modHead_only ..)))))
        · refine .ite ?_ ?_
          · refine (down_of_only (requestSwitch_only ..)).after ?_
            refine (down_of_only (requestSwitch_only ..)).after ?_
            refine .ite ?_ ?_
            · refine (writeGate_down ..).after ?_
              refine (down_of_only (modHead_only ..)).after ?_
              split
              · exact (down_of_only (validWedge_only ..)).after ((down_of_only (modHead_only ..)).after ((down_of_only (modHead_only ..)).after ((down_of_only (modHead_only ..)))))
              · exact (lostWedge_down ..).after ((down_of_only (modHead_only ..)).after ((down_of_only (modHead_only ..)).after ((down_of_only (modHead_only ..)))))
            · refine (down_of_only (armWriter_only ..)).after ?_
              refine (down_of_only (modHead_only ..)).after ?_
              split
              · exact (down_of_only (validWedge_only ..)).after ((down_of_only (modHead_only ..)).after ((down_of_only (modHead_only ..)).after ((down_of_only (modHead_only ..)))))
              · exact (lostWedge_down ..).after ((down_of_only (modHead_only ..)).after ((down_of_only (modHead_only ..)).after ((down_of_only (modHead_only ..)))))
          · refine .ite ?_ ?_
            · refine (writeGate_down ..).after ?_
              refine (down_of_only (modHead_only ..)).after ?_
              split
              · exact (down_of_only (validWedge_only ..)).after ((down_of_only (modHead_only ..)).after ((down_of_only (modHead_only ..)).after ((down_of_only (modHead_only ..)))))
              · exact (lostWedge_down ..).after ((down_of_only (modHead_only ..)).after ((down_of_only (modHead_only ..)).after ((down_of_only (modHead_only ..)))))
            · refine (down_of_only (armWriter_only ..)).after ?_
              refine (down_of_only (modHead_only ..)).after ?_
              split
              · exact (down_of_only (validWedge_only ..)).after ((down_of_only (modHead_only ..)).after ((down_of_only (modHead_only ..)).after ((down_of_only (modHead_only ..)))))
              · exact (lostWedge_down ..).after ((down_of_only (modHead_only ..)).after ((down_of_only (modHead_only ..)).after ((down_of_only (modHead_only ..)))))
      · refine .ite ?_ ?_
        · refine (down_of_only (requestSwitch_only ..)).after ?_
          refine (down_of_only (requestSwitch_only ..)).after ?_
          refine .ite ?_ ?_
          · refine (writeGate_down ..).after ?_
            refine (down_of_only (modHead_only ..)).after ?_
            split
            · exact (down_of_only (validWedge_only ..)).after ((down_of_only (modHead_only ..)).after ((down_of_only (modHead_only ..)).after ((down_of_only (modHead_only ..)))))
            · exact (lostWedge_down ..).after ((down_of_only (modHead_only ..)).after ((down_of_only (modHead_only ..)).after ((down_of_only (modHead_only ..)))))
          · refine (down_of_only (armWriter_only ..)).after ?_
            refine (down_of_only (modHead_only ..)).after ?_
            split
            · exact (down_of_only (validWedge_only ..)).after ((down_of_only (modHead_only ..)).after ((down_of_only (modHead_only ..)).after ((down_of_only (modHead_only ..)))))
            · exact (lostWedge_down ..).after ((down_of_only (modHead_only ..)).after ((down_of_only (modHead_only ..)).after ((down_of_only (modHead_only ..)))))
        · refine .ite ?_ ?_
          · refine (writeGate_down ..).after ?_
            refine (down_of_only (modHead_only ..)).after ?_
            split
            · exact (down_of_only (validWedge_only ..)).after ((down_of_only (modHead_only ..)).after ((down_of_only (modHead_only ..)).after ((down_of_only (modHead_only ..)))))
            · exact (lostWedge_down ..).after ((down_of_only (modHead_only ..)).after ((down_of_only (modHead_only ..)).after ((down_of_only (modHead_only ..)))))
          · refine (down_of_only (armWriter_only ..)).after ?_
            refine (down_of_only (modHead_only ..)).after ?_
            split
            · exact (down_of_only (validWedge_only ..)).after ((down_of_only (modHead_only ..)).after ((down_of_only (modHead_only ..)).after ((down_of_only (modHead_only ..)))))
            · exact (lostWedge_down ..).after ((down_of_only (modHead_only ..)).after ((down_of_only (modHead_only ..)).after ((down_of_only (modHead_only ..)))))
    · refine .ite ?_ ?_
      · refine (paceWedge_down ..).after ?_
        refine .ite ?_ ?_
        · refine (down_of_only (requestSwitch_only ..)).after ?_
          refine .ite ?_ ?_
          · refine (down_of_only (requestSwitch_only ..)).after ?_
            refine (down_of_only (requestSwitch_only ..)).after ?_
            refine .ite ?_ ?_
            · refine (writeGate_down ..).after ?_
              refine (down_of_only (modHead_only ..)).after ?_
              split
              · exact (down_of_only (validWedge_only ..)).after ((down_of_only (modHead_only ..)).after ((down_of_only (modHead_only ..)).after ((down_of_only (modHead_only ..)))))
              · exact (lostWedge_down ..).after ((down_of_only (modHead_only ..)).after ((down_of_only (modHead_only ..)).after ((down_of_only (modHead_only ..)))))
            · refine (down_of_only (armWriter_only ..)).after ?_
              refine (down_of_only (modHead_only ..)).after ?_
              split
              · exact (down_of_only (validWedge_only ..)).after ((down_of_only (modHead_only ..)).after ((down_of_only (modHead_only ..)).after ((down_of_only (modHead_only ..)))))
              · exact (lostWedge_down ..).after ((down_of_only (modHead_only ..)).after ((down_of_only (modHead_only ..)).after ((down_of_only (modHead_only ..)))))
          · refine .ite ?_ ?_
            · refine (writeGate_down ..).after ?_
              refine (down_of_only (modHead_only ..)).after ?_
              split
              · exact (down_of_only (validWedge_only ..)).after ((down_of_only (modHead_only ..)).after ((down_of_only (modHead_only ..)).after ((down_of_only (modHead_only ..)))))
              · exact (lostWedge_down ..).after ((down_of_only (modHead_only ..)).after ((down_of_only (modHead_only ..)).after ((down_of_only (modHead_only ..)))))
            · refine (down_of_only (armWriter_only ..)).after ?_
              refine (down_of_only (modHead_only ..)).after ?_
              split
              · exact (down_of_only (validWedge_only ..)).after ((down_of_only (modHead_only ..)).after ((down_of_only (modHead_only ..)).after ((down_of_only (modHead_only ..)))))
              · exact (lostWedge_down ..).after ((down_of_only (modHead_only ..)).after ((down_of_only (modHead_only ..)).after ((down_of_only (modHead_only ..)))))
        · refine .ite ?_ ?_
          · refine (down_of_only (requestSwitch_only ..)).after ?_
            refine (down_of_only (requestSwitch_only ..)).after ?_
            refine .ite ?_ ?_
            · refine (writeGate_down ..).after ?_
              refine (down_of_only (modHead_only ..)).after ?_
              split
              · exact (down_of_only (validWedge_only ..)).after ((down_of_only (modHead_only ..)).after ((down_of_only (modHead_only ..)).after ((down_of_only (modHead_only ..)))))
              · exact (lostWedge_down ..).after ((down_of_only (modHead_only ..)).after ((down_of_only (modHead_only ..)).after ((down_of_only (modHead_only ..)))))
            · refine (down_of_only (armWriter_only ..)).after ?_
              refine (down_of_only (modHead_only ..)).after ?_
              split
              · exact (down_of_only (validWedge_only ..)).after ((down_of_only (modHead_only ..)).after ((down_of_only (modHead_only ..)).after ((down_of_only (modHead_only ..)))))
              · exact (lostWedge_down ..).after ((down_of_only (modHead_only ..)).after ((down_of_only (modHead_only ..)).after ((down_of_only (modHead_only ..)))))
          · refine .ite ?_ ?_
            · refine (writeGate_down ..).after ?_
              refine (down_of_only (modHead_only ..)).after ?_
              split
              · exact (down_of_only (validWedge_only ..)).after ((down_of_only (modHead_only ..)).after ((down_of_only (modHead_only ..)).after ((down_of_only (modHead_only ..)))))
              · exact (lostWedge_down ..).after ((down_of_only (modHead_only ..)).after ((down_of_only (modHead_only ..)).after ((down_of_only (modHead_only ..)))))
            · refine (down_of_only (armWriter_only ..)).after ?_
              refine (down_of_only (modHead_only ..)).after ?_
              split
              · exact (down_of_only (validWedge_only ..)).after ((down_of_only (modHead_only ..)).after ((down_of_only (modHead_only ..)).after ((down_of_only (modHead_only ..)))))
              · exact (lostWedge_down ..).after ((down_of_only (modHead_only ..)).after ((down_of_only (modHead_only ..)).after ((down_of_only (modHead_only ..)))))
      · refine .ite ?_ ?_
        · refine (down_of_only (requestSwitch_only ..)).after ?_
          refine (down_of_only (requestSwitch_only ..)).after ?_
          refine .ite ?_ ?_
          · refine (writeGate_down ..).after ?_
            refine (down_of_only (modHead_only ..)).after ?_
            split
            · exact (down_of_only (validWedge_only ..)).after ((down_of_only (modHead_only ..)).after ((down_of_only (modHead_only ..)).after ((down_of_only (modHead_only ..)))))
            · exact (lostWedge_down ..).after ((down_of_only (modHead_only ..)).after ((down_of_only (modHead_only ..)).after ((down_of_only (modHead_only ..)))))
          · refine (down_of_only (armWriter_only ..)).after ?_
            refine (down_of_only (modHead_only ..)).after ?_
            split
            · exact (down_of_only (validWedge_only ..)).after ((down_of_only (modHead_only ..)).after ((down_of_only (modHead_only ..)).after ((down_of_only (modHead_only ..)))))
            · exact (lostWedge_down ..).after ((down_of_only (modHead_only ..)).after ((down_of_only (modHead_only ..)).after ((down_of_only (modHead_only ..)))))
        · refine .ite ?_ ?_
          · refine (writeGate_down ..).after ?_
            refine (down_of_only (modHead_only ..)).after ?_
            split
            · exact (down_of_only (validWedge_only ..)).after ((down_of_only (modHead_only ..)).after ((down_of_only (modHead_only ..)).after ((down_of_only (modHead_only ..)))))
            · exact (lostWedge_down ..).after ((down_of_only (modHead_only ..)).after ((down_of_only (modHead_only ..)).after ((down_of_only (modHead_only ..)))))
          · refine (down_of_only (armWriter_only ..)).after ?_
            refine (down_of_only (modHead_only ..)).after ?_
            split
            · exact (down_of_only (validWedge_only ..)).after ((down_of_only (modHead_only ..)).after ((down_of_only (modHead_only ..)).after ((down_of_only (modHead_only ..)))))
            · exact (lostWedge_down ..).after ((down_of_only (modHead_only ..)).after ((down_of_only (modHead_only ..)).after ((down_of_only (modHead_only ..)))))
  · refine .ite ?_ ?_
    · refine .upd ?_
      refine .ite ?_ ?_
      · refine (paceWedge_down ..).after ?_
        refine .ite ?_ ?_
        · refine (down_of_only (requestSwitch_only ..)).after ?_
          refine .ite ?_ ?_
          · refine (down_of_only (requestSwitch_only ..)).after ?_
            refine (down_of_only (requestSwitch_only ..)).after ?_
            refine .ite ?_ ?_
            · refine (writeGate_down ..).after ?_
              refine (down_of_only (modHead_only ..)).after ?_
              split
              · exact (down_of_only (validWedge_only ..)).after ((down_of_only (modHead_only ..)).after ((down_of_only (modHead_only ..)).after ((down_of_only (modHead_only ..)))))
              · exact (lostWedge_down ..).after ((down_of_only (modHead_only ..)).after ((down_of_only (modHead_only ..)).after ((down_of_only (modHead_only ..)))))
            · refine (down_of_only (armWriter_only ..)).after ?_
              refine (down_of_only (modHead_only ..)).after ?_
              split
              · exact (down_of_only (validWedge_only ..)).after ((down_of_only (modHead_only ..)).after ((down_of_only (modHead_only ..)).after ((down_of_only (modHead_only ..)))))
              · exact (lostWedge_down ..).after ((down_of_only (modHead_only ..)).after ((down_of_only (modHead_only ..)).after ((down_of_only (modHead_only ..)))))
          · refine .ite ?_ ?_
            · refine (writeGate_down ..).after ?_
              refine (down_of_only (modHead_only ..)).after ?_
              split
              · exact (down_of_only (validWedge_only ..)).after ((down_of_only (modHead_only ..)).after ((down_of_only (modHead_only ..)).after ((down_of_only (modHead_only ..)))))
              · exact (lostWedge_down ..).after ((down_of_only (modHead_only ..)).after ((down_of_only (modHead_only ..)).after ((down_of_only (modHead_only ..)))))
            · refine (down_of_only (armWriter_only ..)).after ?_
              refine (down_of_only (modHead_only ..)).after ?_
              split
              · exact (down_of_only (validWedge_only ..)).after ((down_of_only (modHead_only ..)).after ((down_of_only (modHead_only ..)).after ((down_of_only (modHead_only ..)))))
              · exact (lostWedge_down ..).after ((down_of_only (modHead_only ..)).after ((down_of_only (modHead_only ..)).after ((down_of_only (modHead_only ..)))))
        · refine .ite ?_ ?_
          · refine (down_of_only (requestSwitch_only ..)).after ?_
            refine (down_of_only (requestSwitch_only ..)).after ?_
            refine .ite ?_ ?_
            · refine (writeGate_down ..).after ?_
              refine (down_of_only (modHead_only ..)).after ?_
              split
              · exact (down_of_only (validWedge_only ..)).after ((down_of_only (modHead_only ..)).after ((down_of_only (modHead_only ..)).after ((down_of_only (modHead_only ..)))))
              · exact (lostWedge_down ..).after ((down_of_only (modHead_only ..)).after ((down_of_only (modHead_only ..)).after ((down_of_only (modHead_only ..)))))
            · refine (down_of_only (armWriter_only ..)).after ?_
              refine (down_of_only (modHead_only ..)).after ?_
              split
              · exact (down_of_only (validWedge_only ..)).after ((down_of_only (modHead_only ..)).after ((down_of_only (modHead_only ..)).after ((down_of_only (modHead_only ..)))))
              · exact (lostWedge_down ..).after ((down_of_only (modHead_only ..)).after ((down_of_only (modHead_only ..)).after ((down_of_only (modHead_only ..)))))
          · refine .ite ?_ ?_
            · refine (writeGate_down ..).after ?_
              refine (down_of_only (modHead_only ..)).after ?_
              split
              · exact (down_of_only (validWedge_only ..)).after ((down_of_only (modHead_only ..)).after ((down_of_only (modHead_only ..)).after ((down_of_only (modHead_only ..)))))
              · exact (lostWedge_down ..).after ((down_of_only (modHead_only ..)).after ((down_of_only (modHead_only ..)).after ((down_of_only (modHead_only ..)))))
            · refine (down_of_only (armWriter_only ..)).after ?_
              refine (down_of_only (modHead_only ..)).after ?_
              split
              · exact (down_of_only (validWedge_only ..)).after ((down_of_only (modHead_only ..)).after ((down_of_only (modHead_only ..)).after ((down_of_only (modHead_only ..)))))
              · exact (lostWedge_down ..).after ((down_of_only (modHead_only ..)).after ((down_of_only (modHead_only ..)).after ((down_of_only (modHead_only ..)))))
      · refine .ite ?_ ?_
        · refine (down_of_only (requestSwitch_only ..)).after ?_
          refine (down_of_only (requestSwitch_only ..)).after ?_
          refine .ite ?_ ?_
          · refine (writeGate_down ..).after ?_
            refine (down_of_only (modHead_only ..)).after ?_
            split
            · exact (down_of_only (validWedge_only ..)).after ((down_of_only (modHead_only ..)).after ((down_of_only (modHead_only ..)).after ((down_of_only (modHead_only ..)))))
            · exact (lostWedge_down ..).after ((down_of_only (modHead_only ..)).after ((down_of_only (modHead_only ..)).after ((down_of_only (modHead_only ..)))))
          · refine (down_of_only (armWriter_only ..)).after ?_
            refine (down_of_only (modHead_only ..)).after ?_
            split
            · exact (down_of_only (validWedge_only ..)).after ((down_of_only (modHead_only ..)).after ((down_of_only (modHead_only ..)).after ((down_of_only (modHead_only ..)))))
            · exact (lostWedge_down ..).after ((down_of_only (modHead_only ..)).after ((down_of_only (modHead_only ..)).after ((down_of_only (modHead_only ..)))))
        · refine .ite ?_ ?_
          · refine (writeGate_down ..).after ?_
            refine (down_of_only (modHead_only ..)).after ?_
            split
            · exact (down_of_only (validWedge_only ..)).after ((down_of_only (modHead_only ..)).after ((down_of_only (modHead_only ..)).after ((down_of_only (modHead_only ..)))))
            · exact (lostWedge_down ..).after ((down_of_only (modHead_only ..)).after ((down_of_only (modHead_only ..)).after ((down_of_only (modHead_only ..)))))
          · refine (down_of_only (armWriter_only ..)).after ?_
            refine (down_of_only (modHead_only ..)).after ?_
            split
            · exact (down_of_only (validWedge_only ..)).after ((down_of_only (modHead_only ..)).after ((down_of_only (modHead_only ..)).after ((down_of_only (modHead_only ..)))))
            · exact (lostWedge_down ..).after ((down_of_only (modHead_only ..)).after ((down_of_only (modHead_only ..)).after ((down_of_only (modHead_only ..)))))
    · refine .ite ?_ ?_
      · refine (paceWedge_down ..).after ?_
        refine .ite ?_ ?_
        · refine (down_of_only (requestSwitch_only ..)).after ?_
          refine .ite ?_ ?_
          · refine (down_of_only (requestSwitch_only ..)).after ?_
            refine (down_of_only (requestSwitch_only ..)).after ?_
            refine .ite ?_ ?_
            · refine (writeGate_down ..).after ?_
              refine (down_of_only (modHead_only ..)).after ?_
              split
              · exact (down_of_only (validWedge_only ..)).after ((down_of_only (modHead_only ..)).after ((down_of_only (modHead_only ..)).after ((down_of_only (modHead_only ..)))))
              · exact (lostWedge_down ..).after ((down_of_only (modHead_only ..)).after ((down_of_only (modHead_only ..)).after ((down_of_only (modHead_only ..)))))
            · refine (down_of_only (armWriter_only ..)).after ?_
              refine (down_of_only (modHead_only ..)).after ?_
              split
              · exact (down_of_only (validWedge_only ..)).after ((down_of_only (modHead_only ..)).after ((down_of_only (modHead_only ..)).after ((down_of_only (modHead_only ..)))))
              · exact (lostWedge_down ..).after ((down_of_only (modHead_only ..)).after ((down_of_only (modHead_only ..)).after ((down_of_only (modHead_only ..)))))
          · refine .ite ?_ ?_
            · refine (writeGate_down ..).after ?_
              refine (down_of_only (modHead_only ..)).after ?_
              split
              · exact (down_of_only (validWedge_only ..)).after ((down_of_only (modHead_only ..)).after ((down_of_only (modHead_only ..)).after ((down_of_only (modHead_only ..)))))
              · exact (lostWedge_down ..).after ((down_of_only (modHead_only ..)).after ((down_of_only (modHead_only ..)).after ((down_of_only (modHead_only ..)))))
            · refine (down_of_only (armWriter_only ..)).after ?_
              refine (down_of_only (modHead_only ..)).after ?_
              split
              · exact (down_of_only (validWedge_only ..)).after ((down_of_only (modHead_only ..)).after ((down_of_only (modHead_only ..)).after ((down_of_only (modHead_only ..)))))
              · exact (lostWedge_down ..).after ((down_of_only (modHead_only ..)).after ((down_of_only (modHead_only ..)).after ((down_of_only (modHead_only ..)))))
        · refine .ite ?_ ?_
          · refine (down_of_only (requestSwitch_only ..)).after ?_
            refine (down_of_only (requestSwitch_only ..)).after ?_
            refine .ite ?_ ?_
            · refine (writeGate_down ..).after ?_
              refine (down_of_only (modHead_only ..)).after ?_
              split
              · exact (down_of_only (validWedge_only ..)).after ((down_of_only (modHead_only ..)).after ((down_of_only (modHead_only ..)).after ((down_of_only (modHead_only ..)))))
              · exact (lostWedge_down ..).after ((down_of_only (modHead_only ..)).after ((down_of_only (modHead_only ..)).after ((down_of_only (modHead_only ..)))))
            · refine (down_of_only (armWriter_only ..)).after ?_
              refine (down_of_only (modHead_only ..)).after ?_
              split
              · exact (down_of_only (validWedge_only ..)).after ((down_of_only (modHead_only ..)).after ((down_of_only (modHead_only ..)).after ((down_of_only (modHead_only ..)))))
              · exact (lostWedge_down ..).after ((down_of_only (modHead_only ..)).after ((down_of_only (modHead_only ..)).after ((down_of_only (modHead_only ..)))))
          · refine .ite ?_ ?_
            · refine (writeGate_down ..).after ?_
              refine (down_of_only (modHead_only ..)).after ?_
              split
              · exact (down_of_only (validWedge_only ..)).after ((down_of_only (modHead_only ..)).after ((down_of_only (modHead_only ..)).after ((down_of_only (modHead_only ..)))))
              · exact (lostWedge_down ..).after ((down_of_only (modHead_only ..)).after ((down_of_only (modHead_only ..)).after ((down_of_only (modHead_only ..)))))
            · refine (down_of_only (armWriter_only ..)).after ?_
              refine (down_of_only (modHead_only ..)).after ?_
              split
              · exact (down_of_only (validWedge_only ..)).after ((down_of_only (modHead_only ..)).after ((down_of_only (modHead_only ..)).after ((down_of_only (modHead_only ..)))))
              · exact (lostWedge_down ..).after ((down_of_only (modHead_only ..)).after ((down_of_only (modHead_only ..)).after ((down_of_only (modHead_only ..)))))
      · refine .ite ?_ ?_
        · refine (down_of_only (requestSwitch_only ..)).after ?_
          refine (down_of_only (requestSwitch_only ..)).after ?_
          refine .ite ?_ ?_
          · refine (writeGate_down ..).after ?_
            refine (down_of_only (modHead_only ..)).after ?_
            split
            · exact (down_of_only (validWedge_only ..)).after ((down_of_only (modHead_only ..)).after ((down_of_only (modHead_only ..)).after ((down_of_only (modHead_only ..)))))
            · exact (lostWedge_down ..).after ((down_of_only (modHead_only ..)).after ((down_of_only (modHead_only ..)).after ((down_of_only (modHead_only ..)))))
          · refine (down_of_only (armWriter_only ..)).after ?_
            refine (down_of_only (modHead_only ..)).after ?_
            split
            · exact (down_of_only (validWedge_only ..)).after ((down_of_only (modHead_only ..)).after ((down_of_only (modHead_only ..)).after ((down_of_only (modHead_only ..)))))
            · exact (lostWedge_down ..).after ((down_of_only (modHead_only ..)).after ((down_of_only (modHead_only ..)).after ((down_of_only (modHead_only ..)))))
        · refine .ite ?_ ?_
          · refine (writeGate_down ..).after ?_
            refine (down_of_only (modHead_only ..)).after ?_
            split
            · exact (down_of_only (validWedge_only ..)).after ((down_of_only (modHead_only ..)).after ((down_of_only (modHead_only ..)).after ((down_of_only (modHead_only ..)))))
            · exact (lostWedge_down ..).after ((down_of_only (modHead_only ..)).after ((down_of_only (modHead_only ..)).after ((down_of_only (modHead_only ..)))))
          · refine (down_of_only (armWriter_only ..)).after ?_
            refine (down_of_only (modHead_only ..)).after ?_
            split
            · exact (down_of_only (validWedge_only ..)).after ((down_of_only (modHead_only ..)).after ((down_of_only (modHead_only ..)).after ((down_of_only (modHead_only ..)))))
            · exact (lostWedge_down ..).after ((down_of_only (modHead_only ..)).after ((down_of_only (modHead_only ..)).after ((down_of_only (modHead_only ..)))))

end Sys2Proof.Machine
end

section
/-! Servo, reads and memories in Hold-up and in Stopped. -/

namespace Sys2Proof.Machine
set_option Elab.async false

-- Servo, reads and memories in Hold-up and in Stopped.

theorem clearanceRun_down (n o s) : Holding devOf Down s (clearanceRun n o s) := by
  unfold clearanceRun
  exact .ite ((down_of_only (checkFloor_only ..)).after ((down_of_only (sendHeater_only ..)).after ((down_of_only (modHead_only ..)).after ((runCtx_down ..).after ((down_of_only (setSetpoint_only ..))))))) .refl
theorem loadFailure_down (s) : Holding devOf Down s (loadFailure s) := by
  unfold loadFailure
  exact (failStop_down ..).after ((servoCondition_down ..))
theorem vcmFault_down (a s) : Holding devOf Down s (vcmFault a s) := by
  unfold vcmFault
  exact (servoCondition_down ..).after ((down_of_only (openCause_only ..)).after ((down_of_only (modArm_only ..)).after ((down_of_only (headsOff_only ..)).after ((down_of_only (retractArm_only ..)).after ((down_of_only (gateArm_only ..)).after ((down_of_only (voidArm_only ..)).after (.each (fun _ _ => (writeGate_down ..)) .refl)))))))
theorem unloaded_down (a state s) : Holding devOf Down s (unloaded a state s) := by
  unfold unloaded
  exact (advancePark_down ..).after ((advanceStop_down ..).after ((down_of_only (modArm_only ..)).after ((down_of_only (headsOff_only ..)).after ((down_of_only (disableCtx_only ..)).after ((down_of_only (vcmSend_only ..)))))))
theorem velocityRun_down (a o s) : Holding devOf Down s (velocityRun a o s) := by
  unfold velocityRun
  exact .ite ((down_of_only (vcmSend_only ..)).after ((runCtx_down ..))) .refl
theorem vcmRun_down (a o s) : Holding devOf Down s (vcmRun a o s) := by
  unfold vcmRun
  exact .ite .refl (.ite ((down_of_only (vcmSend_only ..))) ((down_of_only (vcmSend_only ..)).after ((runCtx_down ..))))
theorem uaRun_down (n o s) : Holding devOf Down s (uaRun n o s) := by
  unfold uaRun
  exact .ite .refl ((down_of_only (uaSet_only ..)).after ((runCtx_down ..)))
theorem lostFrame_down (xs missed s) : Holding devOf Down s (lostFrame xs missed s) := by
  unfold lostFrame
  exact .each (fun _ _ => (climb_down ..)) .refl
theorem offTrackFrame_down (xs s) : Holding devOf Down s (offTrackFrame xs s) := by
  unfold offTrackFrame
  exact .each (fun _ _ => (down_of_only (rereadWork_only ..))) ((servoCondition_down ..))
theorem dropRequests_down (island lost s) : Holding devOf Down s (dropRequests island lost s) := by
  unfold dropRequests
  exact (lostFrame_down ..).after ((down_of_only (modIsl_only ..)))
theorem pushEntry_down (island e s) : Holding devOf Down s (pushEntry island e s) := by
  unfold pushEntry
  exact (down_of_only (modIsl_only ..)).after ((dropRequests_down ..))
theorem syncMiss_down (island slot xs best s) : Holding devOf Down s (syncMiss island slot xs best s) := by
  unfold syncMiss
  exact (lostFrame_down ..).after ((down_of_only (post_only ..)).after ((down_of_only (modIsl_only ..))))
theorem detectEntry_down (img island e xs wanted visit s) : Holding devOf Down s (detectEntry img island e xs wanted visit s) := by
  unfold detectEntry
  extract_lets
  split
  · exact (syncMiss_down ..)
  · refine .ite ((lostFrame_down ..).after ((down_of_only (loopRange_only ..)))) ?_
    extract_lets
    split
    · exact (syncMiss_down ..)
    · refine .ite ((syncMiss_down ..)) ?_
      refine .ite ((lostFrame_down ..).after ((down_of_only (tooErased_only ..)).after ((down_of_only (modIsl_only ..)).after ((down_of_only (noteTiming_only ..)))))) ?_
      refine (down_of_only (queueFrame_only ..)).after ?_
      split
      · exact (down_of_only (gather_only ..)).after ((down_of_only (modIsl_only ..)).after ((down_of_only (noteTiming_only ..))))
      · exact (down_of_only (modIsl_only ..)).after ((down_of_only (noteTiming_only ..)))
theorem visitFrame_down (island n slot o step s) : Holding devOf Down s (visitFrame island n slot o step s) := by
  unfold visitFrame
  extract_lets i place
  clear_value place
  split
  · exact .refl
  · exact .ite .refl (.ite ((pushEntry_down ..).after (down_of_only (modIsl_only ..))) ((detectEntry_down ..).after ((pushEntry_down ..).after (down_of_only (modIsl_only ..)))))
theorem checkDone_down (row k res s) : Holding devOf Down s (checkDone row k res s) := by
  unfold checkDone
  split
  · exact .refl
  · refine .ite ((down_of_only (modRowSec_only ..))) ?_
    extract_lets
    split
    · exact (down_of_only (rewriteWork_only ..)).after (.ite ((remapRow_down ..).after ((down_of_only (modRowSec_only ..)))) ((down_of_only (modRowSec_only ..))))
    · exact .ite ((remapRow_down ..).after ((down_of_only (modRowSec_only ..)))) ((down_of_only (modRowSec_only ..)))
theorem failIsland_down (island why own s) : Holding devOf Down s (failIsland island why own s) := by
  unfold failIsland
  exact .ite .refl (.ite ((condition_down ..).after (.ite ((down_of_only (modHead_only ..)).after ((down_of_only (modIsl_only ..)).after ((dropRequests_down ..).after (.ite ((down_of_only (stopHead_only ..))) .refl)))) ((down_of_only (modIsl_only ..)).after ((dropRequests_down ..).after (.ite ((down_of_only (stopHead_only ..))) .refl))))) ((down_of_only (post_only ..)).after (.ite ((down_of_only (modHead_only ..)).after ((down_of_only (modIsl_only ..)).after ((dropRequests_down ..).after (.ite ((down_of_only (stopHead_only ..))) .refl)))) ((down_of_only (modIsl_only ..)).after ((dropRequests_down ..).after (.ite ((down_of_only (stopHead_only ..))) .refl))))))
theorem steerHead_down (n island s) : Holding devOf Down s (steerHead n island s) := by
  unfold steerHead
  exact (down_of_only (post_only ..)).after ((down_of_only (handServo_only ..)).after ((down_of_only (modHead_only ..)).after ((down_of_only (modIsl_only ..)).after ((down_of_only (modIsl_only ..)).after ((down_of_only (dropGathered_only ..)).after ((dropRequests_down ..).after ((down_of_only (stopHead_only ..)))))))))
theorem thermalShut_down (k s) : Holding devOf Down s (thermalShut k s) := by
  unfold thermalShut
  exact .ite ((stopSequence_down ..).after (.upd ((down_of_only (post_only ..))))) ((failStop_down ..).after ((down_of_only (post_only ..))))
theorem setLevel_down (k level t s) : Holding devOf Down s (setLevel k level t s) := by
  unfold setLevel
  exact .ite ((thermalShut_down ..).after (.ite ((down_of_only (post_only ..)).after (.ite ((down_of_only (post_only ..)).after (.ite ((down_of_only (post_only ..)).after ((down_of_only (modTherm_only ..)))) ((down_of_only (modTherm_only ..))))) (.ite ((down_of_only (post_only ..)).after ((down_of_only (modTherm_only ..)))) ((down_of_only (modTherm_only ..)))))) (.ite ((down_of_only (post_only ..)).after (.ite ((down_of_only (post_only ..)).after ((down_of_only (modTherm_only ..)))) ((down_of_only (modTherm_only ..))))) (.ite ((down_of_only (post_only ..)).after ((down_of_only (modTherm_only ..)))) ((down_of_only (modTherm_only ..))))))) (.ite ((down_of_only (post_only ..)).after (.ite ((down_of_only (post_only ..)).after (.ite ((down_of_only (post_only ..)).after ((down_of_only (modTherm_only ..)))) ((down_of_only (modTherm_only ..))))) (.ite ((down_of_only (post_only ..)).after ((down_of_only (modTherm_only ..)))) ((down_of_only (modTherm_only ..)))))) (.ite ((down_of_only (post_only ..)).after (.ite ((down_of_only (post_only ..)).after ((down_of_only (modTherm_only ..)))) ((down_of_only (modTherm_only ..))))) (.ite ((down_of_only (post_only ..)).after ((down_of_only (modTherm_only ..)))) ((down_of_only (modTherm_only ..))))))
theorem thermalReading_down (k t s) : Holding devOf Down s (thermalReading k t s) := by
  unfold thermalReading
  exact (setLevel_down ..).after ((down_of_only (modTherm_only ..)))
theorem thermalUnreported_down (k s) : Holding devOf Down s (thermalUnreported k s) := by
  unfold thermalUnreported
  exact .ite .refl ((setLevel_down ..).after ((down_of_only (post_only ..)).after ((down_of_only (modTherm_only ..)))))
theorem refreshBudget_down (source s) : Holding devOf Down s (refreshBudget source s) := by
  unfold refreshBudget
  exact .ite .refl ((down_of_only (checkFloor_only ..)).after ((followBudget_down ..).after ((down_of_only (post_only ..)).after (.upd .refl))))
theorem codewordFailed_down (k c s) : Holding devOf Down s (codewordFailed k c s) := by
  unfold codewordFailed
  extract_lets x
  clear_value x
  split
  · exact (rungFailed_down ..).after (down_of_only (freeCodeword_only ..))
  · exact (down_of_only (freeCodeword_only ..))
theorem codewordPassed_down (k c i s) : Holding devOf Down s (codewordPassed k c i s) := by
  unfold codewordPassed
  extract_lets x t u
  have hu : Holding devOf Down s u := .ite ((down_of_only (post_only ..)).after (down_of_only (freeCodeword_only ..))) (down_of_only (freeCodeword_only ..))
  clear_value x u
  split
  · exact (rungPassed_down ..).after hu
  · exact (down_of_only (leaveRung_only ..)).after hu
theorem failEngine_down (e cause own s) : Holding devOf Down s (failEngine e cause own s) := by
  unfold failEngine
  refine .ite .refl ?_
  refine .ite (.ite ((condition_down ..).after ((down_of_only (modEngine_only ..)))) ((down_of_only (post_only ..)).after ((down_of_only (modEngine_only ..))))) ?_
  extract_lets
  split
  · exact .ite ((condition_down ..).after (.upd ((down_of_only (modEngine_only ..))))) ((down_of_only (post_only ..)).after (.upd ((down_of_only (modEngine_only ..)))))
  · exact (failStop_down ..).after (.ite ((condition_down ..).after ((down_of_only (modEngine_only ..)))) ((down_of_only (post_only ..)).after ((down_of_only (modEngine_only ..)))))
theorem advanceDrain_down (s) : Holding devOf Down s (advanceDrain s) := by
  unfold advanceDrain
  exact .ite (.ite (.ite ((down_of_only (beginHandover_only ..))) .refl) ((failStop_down ..).after (.ite ((down_of_only (post_only ..))) .refl))) .refl
theorem commitRow_down (r s) : Holding devOf Down s (commitRow r s) := by
  unfold commitRow
  exact (advanceDrain_down ..).after ((advancePark_down ..).after ((down_of_only (recheck_only ..)).after ((down_of_only (releaseFrames_only ..)).after ((down_of_only (refetchRow_only ..)).after (.ite ((down_of_only (mirror_only ..)).after ((down_of_only (releaseRow_only ..)).after ((down_of_only (dropParity_only ..)).after (.ite (.upd (.each (fun _ _ => (down_of_only (dropClean_only ..))) (.ite (.each (fun _ _ => (down_of_only (enterDefect_only ..))) (.ite ((down_of_only (movedRow_only ..)).after (.each (fun _ _ => .ite ((down_of_only (endFollowUp_only ..))) ((down_of_only (dropSec_only ..)))) .refl)) (.each (fun _ _ => (down_of_only (recordRun_only ..))) (.each (fun _ _ => .ite ((down_of_only (endFollowUp_only ..))) ((down_of_only (dropSec_only ..)))) .refl)))) ((down_of_only (cutProbes_only ..)).after (.each (fun _ _ => (down_of_only (enterDefect_only ..))) (.ite ((down_of_only (movedRow_only ..)).after (.each (fun _ _ => .ite ((down_of_only (endFollowUp_only ..))) ((down_of_only (dropSec_only ..)))) .refl)) (.each (fun _ _ => (down_of_only (recordRun_only ..))) (.each (fun _ _ => .ite ((down_of_only (endFollowUp_only ..))) ((down_of_only (dropSec_only ..)))) .refl)))))))) ((down_of_only (rebuiltRow_only ..)).after (.upd (.each (fun _ _ => (down_of_only (dropClean_only ..))) (.ite (.each (fun _ _ => (down_of_only (enterDefect_only ..))) (.ite ((down_of_only (movedRow_only ..)).after (.each (fun _ _ => .ite ((down_of_only (endFollowUp_only ..))) ((down_of_only (dropSec_only ..)))) .refl)) (.each (fun _ _ => (down_of_only (recordRun_only ..))) (.each (fun _ _ => .ite ((down_of_only (endFollowUp_only ..))) ((down_of_only (dropSec_only ..)))) .refl)))) ((down_of_only (cutProbes_only ..)).after (.each (fun _ _ => (down_of_only (enterDefect_only ..))) (.ite ((down_of_only (movedRow_only ..)).after (.each (fun _ _ => .ite ((down_of_only (endFollowUp_only ..))) ((down_of_only (dropSec_only ..)))) .refl)) (.each (fun _ _ => (down_of_only (recordRun_only ..))) (.each (fun _ _ => .ite ((down_of_only (endFollowUp_only ..))) ((down_of_only (dropSec_only ..)))) .refl))))))))))))) ((down_of_only (dropParity_only ..)).after (.ite (.upd (.each (fun _ _ => (down_of_only (dropClean_only ..))) (.ite (.each (fun _ _ => (down_of_only (enterDefect_only ..))) (.ite ((down_of_only (movedRow_only ..)).after (.each (fun _ _ => .ite ((down_of_only (endFollowUp_only ..))) ((down_of_only (dropSec_only ..)))) .refl)) (.each (fun _ _ => (down_of_only (recordRun_only ..))) (.each (fun _ _ => .ite ((down_of_only (endFollowUp_only ..))) ((down_of_only (dropSec_only ..)))) .refl)))) ((down_of_only (cutProbes_only ..)).after (.each (fun _ _ => (down_of_only (enterDefect_only ..))) (.ite ((down_of_only (movedRow_only ..)).after (.each (fun _ _ => .ite ((down_of_only (endFollowUp_only ..))) ((down_of_only (dropSec_only ..)))) .refl)) (.each (fun _ _ => (down_of_only (recordRun_only ..))) (.each (fun _ _ => .ite ((down_of_only (endFollowUp_only ..))) ((down_of_only (dropSec_only ..)))) .refl)))))))) ((down_of_only (rebuiltRow_only ..)).after (.upd (.each (fun _ _ => (down_of_only (dropClean_only ..))) (.ite (.each (fun _ _ => (down_of_only (enterDefect_only ..))) (.ite ((down_of_only (movedRow_only ..)).after (.each (fun _ _ => .ite ((down_of_only (endFollowUp_only ..))) ((down_of_only (dropSec_only ..)))) .refl)) (.each (fun _ _ => (down_of_only (recordRun_only ..))) (.each (fun _ _ => .ite ((down_of_only (endFollowUp_only ..))) ((down_of_only (dropSec_only ..)))) .refl)))) ((down_of_only (cutProbes_only ..)).after (.each (fun _ _ => (down_of_only (enterDefect_only ..))) (.ite ((down_of_only (movedRow_only ..)).after (.each (fun _ _ => .ite ((down_of_only (endFollowUp_only ..))) ((down_of_only (dropSec_only ..)))) .refl)) (.each (fun _ _ => (down_of_only (recordRun_only ..))) (.each (fun _ _ => .ite ((down_of_only (endFollowUp_only ..))) ((down_of_only (dropSec_only ..)))) .refl))))))))))))))))
theorem decodedPwm_down (v s) : Holding devOf Down s (decodedPwm v s) := by
  unfold decodedPwm
  exact (refreshBudget_down ..).after (.upd (.upd .refl))
theorem startPwm_down (s) : Holding devOf Down s (startPwm s) := by
  unfold startPwm
  exact .ite ((refreshBudget_down ..).after (.upd (.upd .refl))) .refl
theorem leaveConfiguring_down (s) : Holding devOf Down s (leaveConfiguring s) := .guarded (fun h => by rcases h with h | h <;> simp [h]) .refl
theorem noSpare_down (s) : Holding devOf Down s (noSpare s) := by
  unfold noSpare
  exact .ite ((failStop_down ..).after ((down_of_only (post_only ..)).after (.upd .refl))) ((advanceDrain_down ..).after (.upd .refl))
theorem migrate_down (logical cause s) : Holding devOf Down s (migrate logical cause s) := by
  unfold migrate
  split
  · exact .refl
  · exact .ite .refl (.ite (.ite .refl ((noSpare_down ..).after (.ite (.each (fun _ _ => (down_of_only (ueResponse_only ..)).after ((down_of_only (post_only ..)))) ((down_of_only (modChan_only ..)))) ((down_of_only (modChan_only ..)))))) (.ite (.each (fun _ _ => (down_of_only (ueResponse_only ..)).after ((down_of_only (post_only ..)))) (.ite ((down_of_only (openCause_only ..)).after ((report_down ..).after ((down_of_only (mqNote_only ..)).after ((down_of_only (post_only ..)).after (.upd ((down_of_only (modChan_only ..)).after ((down_of_only (modChan_only ..))))))))) ((down_of_only (mqNote_only ..)).after ((down_of_only (post_only ..)).after (.upd ((down_of_only (modChan_only ..)).after ((down_of_only (modChan_only ..))))))))) (.ite ((down_of_only (openCause_only ..)).after ((report_down ..).after ((down_of_only (mqNote_only ..)).after ((down_of_only (post_only ..)).after (.upd ((down_of_only (modChan_only ..)).after ((down_of_only (modChan_only ..))))))))) ((down_of_only (mqNote_only ..)).after ((down_of_only (post_only ..)).after (.upd ((down_of_only (modChan_only ..)).after ((down_of_only (modChan_only ..))))))))))
theorem scrubBeat_down (p burst beat syn s) : Holding devOf Down s (scrubBeat p burst beat syn s) := by
  unfold scrubBeat
  exact .ite .refl (.ite ((report_down ..).after ((down_of_only (dropTags_only ..)).after ((down_of_only (modChan_only ..))))) ((down_of_only (ueResponse_only ..)).after ((report_down ..).after ((down_of_only (scrubBeat_post_only ..)).after ((down_of_only (noteUe_only ..)))))))
theorem haltChannelAs_down (write ch cause addr elem inj s) : Holding devOf Down s (haltChannelAs write ch cause addr elem inj s) := by
  unfold haltChannelAs
  extract_lets
  split
  · exact .ite ((down_of_only (endPass_only ..)).after ((down_of_only (cutPass_only ..)).after ((report_down ..).after ((down_of_only (mqSend_only ..)).after ((down_of_only (pulse_only ..)).after ((down_of_only (modTre_only ..)))))))) ((report_down ..).after ((down_of_only (mqSend_only ..)).after ((down_of_only (pulse_only ..)).after ((down_of_only (modTre_only ..))))))
  · exact (report_down ..).after ((down_of_only (mqSend_only ..)).after ((down_of_only (pulse_only ..)).after ((down_of_only (modTre_only ..)))))
theorem haltChannel_down (ch cause addr elem inj s) : Holding devOf Down s (haltChannel ch cause addr elem inj s) := by
  unfold haltChannel
  exact (haltChannelAs_down ..)
theorem startDesc_down (ch s) : Holding devOf Down s (startDesc ch s) := by
  unfold startDesc
  extract_lets
  split
  · exact (down_of_only (modTre_only ..))
  · refine .ite .refl ?_
    refine .ite ((down_of_only (dropDesc_only ..)).after ((down_of_only (pulseDone_only ..)))) ?_
    refine .ite ((haltChannel_down ..).after (.upd .refl)) ?_
    split
    · exact (haltChannel_down ..)
    · exact .ite (.upd ((down_of_only (modTre_only ..)))) ((down_of_only (modTre_only ..)))
theorem haltRequester_down (m addr s) : Holding devOf Down s (haltRequester m addr s) := by
  unfold haltRequester
  split
  · exact .refl
  · extract_lets
    split
    · exact .ite ((haltChannel_down ..)) .refl
    · exact .refl
theorem moveElems_down (ch d k n s) : Holding devOf Down s (moveElems ch d k n s).2 := by
  induction k generalizing n s with
  | zero => exact .refl
  | succ k ih =>
    unfold moveElems
    split
    · exact (haltChannelAs_down ..).after (down_of_only (noteRefused_only ..))
    · split
      · exact (haltChannel_down ..).after (Holding.of_eq_snd (down_of_only (moveElem_only ..)) ‹_›)
      · exact (ih ..).after (Holding.of_eq_snd (down_of_only (moveElem_only ..)) ‹_›)
theorem cancelCtx_down (ch ctx sourcePresent s) : Holding devOf Down s (cancelCtx ch ctx sourcePresent s) := by
  unfold cancelCtx
  extract_lets
  split
  · exact (down_of_only (modTre_only ..))
  · refine .ite ((down_of_only (modTre_only ..))) ?_
    refine .ite ((down_of_only (skipHalt_only ..)).after ((down_of_only (modTre_only ..)))) ?_
    refine .ite ?_ ((down_of_only (modTre_only ..)))
    extract_lets
    split
    · exact (down_of_only (skipHalt_only ..)).after (Holding.of_eq_snd ((moveElems_down ..).after ((down_of_only (nextFree_only ..)).after ((down_of_only (modTre_only ..))))) ‹_›)
    · exact (down_of_only (dropDesc_only ..)).after ((down_of_only (pulseDone_only ..)).after ((down_of_only (endPass_only ..)).after (Holding.of_eq_snd ((moveElems_down ..).after ((down_of_only (nextFree_only ..)).after ((down_of_only (modTre_only ..))))) ‹_›)))
theorem injectHalt_down (ch s) : Holding devOf Down s (injectHalt ch s) := by
  unfold injectHalt
  exact .ite .refl (.ite ((haltChannel_down ..)) (.upd .refl))
theorem beginSpin_down (arr s) : Holding devOf Down s (beginSpin arr s) := by
  unfold beginSpin
  split
  · exact .refl
  · exact .ite ((trySpinUp_down ..).after ((down_of_only (complete_only ..)).after (.upd .refl))) (.ite (.ite ((down_of_only (complete_only ..)).after ((down_of_only (modCmd_only ..)).after (.upd .refl))) (.ite ((trySpinUp_down ..).after (.upd ((down_of_only (modCmd_only ..)).after (.upd .refl)))) ((down_of_only (modCmd_only ..)).after (.upd .refl)))) (.ite ((down_of_only (complete_only ..)).after (.upd ((down_of_only (modCmd_only ..)).after (.upd .refl)))) (.ite (.upd ((down_of_only (modCmd_only ..)).after (.upd .refl))) ((advancePark_down ..).after (.upd (.upd ((down_of_only (modCmd_only ..)).after (.upd .refl))))))))
theorem releaseHeld_down (s) : Holding devOf Down s (releaseHeld s) := by
  unfold releaseHeld
  refine .each (fun _ _ => ?_) .refl
  split
  · exact .refl
  · exact .ite (.ite ((beginSpin_down ..)) .refl) (.ite .refl (.ite ((down_of_only (beginMedia_only ..))) .refl))
theorem cancelDescs_down (c s) : Holding devOf Down s (cancelDescs c s) := by
  unfold cancelDescs
  exact .each (fun _ _ => (cancelCtx_down ..)) .refl
theorem abortCmd_down (c info s) : Holding devOf Down s (abortCmd c info s) := by
  unfold abortCmd
  exact (down_of_only (recheck_only ..)).after (.each (fun _ _ => (down_of_only (pumpRead_only ..))) ((down_of_only (complete_only ..)).after ((cancelDescs_down ..).after (.ite ((down_of_only (withdrawLanding_only ..))) .refl))))
theorem beginAbort_down (arr s) : Holding devOf Down s (beginAbort arr s) := by
  unfold beginAbort
  split
  · exact .refl
  · extract_lets
    split
    · exact (down_of_only (complete_only ..))
    · exact .ite ((down_of_only (complete_only ..))) (.ite ((down_of_only (complete_only ..)).after ((abortCmd_down ..))) ((down_of_only (modCmd_only ..))))
theorem coreTrap_down (core mem inHandler injected s) : Holding devOf Down s (coreTrap core mem inHandler injected s) := by
  unfold coreTrap
  exact .ite .refl (.ite ((failStopInj_down ..).after ((down_of_only (postInj_only ..)).after (.upd ((report_down ..).after ((down_of_only (postInj_only ..)).after (.upd .refl)))))) ((report_down ..).after ((down_of_only (postInj_only ..)).after (.upd .refl))))
theorem countCorrected_down (mem s) : Holding devOf Down s (countCorrected mem s) := by
  unfold countCorrected
  exact .ite ((down_of_only (modIsl_only ..))) (.ite (.upd .refl) (.ite (.upd .refl) (.ite (.upd .refl) (.ite (.ite ((migrate_down ..).after ((down_of_only (modChan_only ..)))) ((down_of_only (modChan_only ..)))) .refl))))
theorem patrolResponse_down (mem offset s) : Holding devOf Down s (patrolResponse mem offset s) := by
  unfold patrolResponse
  refine .ite ((failIsland_down ..)) ?_
  refine .ite ((down_of_only (ueResponse_only ..)).after ((down_of_only (post_only ..)))) ?_
  refine .ite ((down_of_only (ueResponse_only ..)).after ((down_of_only (post_only ..)).after ((down_of_only (noteUe_only ..))))) ?_
  refine .ite ?_ (.ite ((failEngine_down ..).after ((down_of_only (nextFree_only ..)))) (.ite (.ite ((governorFail_down ..).after ((down_of_only (nextFree_only ..)))) ((down_of_only (nextFree_only ..)))) (.ite (.ite .refl ((haltChannel_down ..))) (.ite (.ite ((haltChannel_down ..)) .refl) (.ite (.ite .refl ((down_of_only (mqAdvance_only ..)).after ((down_of_only (dropPacket_only ..)).after ((down_of_only (nextFree_only ..)))))) (.ite ((down_of_only (loseLine_only ..))) (.ite ((down_of_only (loseHeldFrame_only ..)).after ((down_of_only (nextFree_only ..)))) (.ite ((down_of_only (voidArm_only ..)).after ((down_of_only (post_only ..)))) (.ite (.upd .refl) .refl)))))))))
  split
  · exact (codewordFailed_down ..).after ((down_of_only (nextFree_only ..)))
  · exact .refl
theorem poolEmpty_down (s) : Holding devOf Down s (poolEmpty s) := by
  unfold poolEmpty
  exact .ite .refl ((advanceDrain_down ..).after (.upd .refl))

end Sys2Proof.Machine
end

section
/-! Flash, margins and the partner in Hold-up and in Stopped. -/

namespace Sys2Proof.Machine
set_option Elab.async false

-- Flash, margins and the partner in Hold-up and in Stopped.

theorem moveBlock_down (kind bank rblock s) : Holding devOf Down s (moveBlock kind bank rblock s) := by
  unfold moveBlock
  split
  · exact (down_of_only (notePool_only ..)).after (.upd ((down_of_only (modBlk_only ..))))
  · exact (poolEmpty_down ..)
theorem retireBlock_down (kind bank rblock s) : Holding devOf Down s (retireBlock kind bank rblock s) := by
  unfold retireBlock
  exact (down_of_only (notePool_only ..)).after ((down_of_only (post_only ..)).after ((moveBlock_down ..).after (.upd ((down_of_only (modBlk_only ..))))))
theorem busReport_down (master access event addr s) : Holding devOf Down s (busReport master access event addr s) := by
  unfold busReport
  exact (report_down ..).after ((down_of_only (post_only ..)))
theorem flashFault_down (who write event sector s) : Holding devOf Down s (flashFault who write event sector s) := by
  unfold flashFault
  exact (busReport_down ..)
theorem flashRefused_down (who write sector s) : Holding devOf Down s (flashRefused who write sector s) := by
  unfold flashRefused
  exact (down_of_only (flashAnswer_only ..)).after ((flashFault_down ..))
theorem readLost_down (b sec r s) : Holding devOf Down s (readLost b sec r s) := by
  unfold readLost
  exact (report_down ..).after ((down_of_only (post_only ..)).after ((down_of_only (modBank_only ..))))
theorem haltReader_down (ch sec s) : Holding devOf Down s (haltReader ch sec s) := by
  unfold haltReader
  exact .ite ((haltChannel_down ..)) .refl
theorem readSector_down (who sec steps s) : Holding devOf Down s (readSector who sec steps s) := by
  unfold readSector
  split
  · exact .refl
  · split
    · extract_lets
      split
      · exact (down_of_only (flashAnswer_only ..)).after ((down_of_only (send_only ..)).after ((down_of_only (readDone_only ..)).after ((down_of_only (modBank_only ..)))))
      · refine .ite ((down_of_only (modBank_only ..))) ?_
        extract_lets
        split
        · exact (haltReader_down ..).after ((down_of_only (flashAnswer_only ..)).after ((readLost_down ..).after ((down_of_only (modBank_only ..)))))
        · exact (down_of_only (flashAnswer_only ..)).after ((readLost_down ..).after ((down_of_only (modBank_only ..))))
theorem readLineDirect_down (line steps s) : Holding devOf Down s (readLineDirect line steps s) := by
  unfold readLineDirect
  split
  · exact .refl
  · split
    · extract_lets
      split
      · exact (down_of_only (fetchAnswer_only ..)).after ((down_of_only (readDone_only ..)).after ((down_of_only (modBank_only ..))))
      · exact .ite ((down_of_only (modBank_only ..))) (.each (fun _ _ => (haltReader_down ..)) ((down_of_only (fetchAnswer_only ..)).after ((readLost_down ..).after ((down_of_only (modBank_only ..))))))
theorem serveWaits_down (s) : Holding devOf Down s (serveWaits s) := by
  unfold serveWaits
  refine .each (fun _ _ => ?_) (.upd .refl)
  split
  · exact (readLineDirect_down ..)
  · split
    · exact (readSector_down ..)
    · exact .refl
theorem eraseRegion_down (kind s) : Holding devOf Down s (eraseRegion kind s) := by
  unfold eraseRegion
  exact (down_of_only (invalidate_only ..)).after (.upd (.each (fun _ _ => .each (fun _ _ => (down_of_only (modBlk_only ..)).after (.ite (.ite ((down_of_only (post_only ..)).after ((moveBlock_down ..))) ((poolEmpty_down ..))) .refl)) .refl) .refl))
theorem busyFault_down (q line access s) : Holding devOf Down s (busyFault q line access s) := by
  unfold busyFault
  exact (down_of_only (fetchAnswer_only ..)).after ((busReport_down ..).after (.upd .refl))
theorem fillFailed_down (line w s) : Holding devOf Down s (fillFailed line w s) := by
  unfold fillFailed
  exact .ite (.each (fun _ _ => (haltReader_down ..)) ((down_of_only (fetchAnswer_only ..)))) (.ite ((coreTrap_down ..).after ((down_of_only (fetchAnswer_only ..)))) ((down_of_only (fetchAnswer_only ..))))
theorem slackExhausted_down (s) : Holding devOf Down s (slackExhausted s) := by
  unfold slackExhausted
  exact .ite .refl ((advanceDrain_down ..).after ((down_of_only (exhausted_only ..)).after (.upd .refl)))
theorem laneOut_down (l s) : Holding devOf Down s (laneOut l s) := by
  unfold laneOut
  exact .ite ((alkSwap_down ..)) ((down_of_only (reportLane_only ..)))
theorem judgeChannel_down (p s) : Holding devOf Down s (judgeChannel p s) := by
  unfold judgeChannel
  exact .ite ((migrate_down ..).after ((down_of_only (exhausted_only ..)).after ((down_of_only (noteMargin_only ..)).after (.ite .refl ((down_of_only (recovered_only ..))))))) ((down_of_only (noteMargin_only ..)).after (.ite .refl ((down_of_only (recovered_only ..)))))
theorem evalKt_down (a r s) : Holding devOf Down s (evalKt a r s) := by
  unfold evalKt
  exact (judgeMargin_down ..).after (.ite .refl ((down_of_only (replanTo_only ..))))
theorem tryTakeover_down (s) : Holding devOf Down s (tryTakeover s) := .guarded (fun h => by rcases h with h | h <;> simp [h]) .refl
theorem judge_down (toggles frames activeIn s) : Holding devOf Down s (judge toggles frames activeIn s) := by
  unfold judge
  exact .ite (.ite (.upd .refl) ((down_of_only (loseStandby_only ..)).after (.upd .refl))) (.ite (.upd .refl) (.ite (.ite ((tryTakeover_down ..).after (.ite (.upd .refl) ((down_of_only (post_only ..)).after (.upd .refl)))) (.upd .refl)) (.ite (.ite ((down_of_only (post_only ..)).after (.upd .refl)) (.upd .refl)) (.ite (.ite ((down_of_only (post_only ..)).after (.upd (.upd .refl))) (.upd .refl)) (.ite (.ite ((down_of_only (post_only ..)).after (.upd .refl)) (.upd .refl)) (.upd .refl))))))
theorem compatStop_down (s) : Holding devOf Down s (compatStop s) := by
  unfold compatStop
  exact (failStop_down ..).after ((down_of_only (post_only ..)))
theorem startStop_down (step cause s) : Holding devOf Down s (startStop step cause s) := by
  unfold startStop
  exact (failStop_down ..).after ((down_of_only (startFail_only ..)))
theorem flagSweep_down (o s) : Holding devOf Down s (flagSweep o s) := by
  unfold flagSweep
  refine .each (fun _ _ => ?_) .refl
  refine .ite ?_ ((down_of_only (blankBlock_only ..)).after ((down_of_only (post_only ..)).after (.upd .refl)))
  split
  · exact (retireBlock_down ..).after ((down_of_only (post_only ..)).after (.upd .refl))
  · exact (down_of_only (post_only ..)).after ((down_of_only (modBlk_only ..)).after (.upd ((down_of_only (post_only ..)).after (.upd .refl))))
theorem sweepAndTally_down (o s) : Holding devOf Down s (sweepAndTally o s) := by
  unfold sweepAndTally
  exact .ite ((down_of_only (startTally_only ..)).after (.upd ((down_of_only (atStep_only ..)).after ((flagSweep_down ..).after ((down_of_only (atStep_only ..))))))) ((down_of_only (startFail_only ..)).after (.upd (.upd ((down_of_only (atStep_only ..)).after ((flagSweep_down ..).after ((down_of_only (atStep_only ..))))))))
theorem armArea_down (k s) : Holding devOf Down s (armArea k s) := by
  unfold armArea
  exact (down_of_only (post_only ..)).after (.upd ((down_of_only (modArea_only ..)).after ((eraseRegion_down ..))))
theorem finishStart_down (s) : Holding devOf Down s (finishStart s) := .guarded (fun h => by rcases h with h | h <;> simp [h]) .refl
theorem linkSettled_down (a s) : Holding devOf Down s (linkSettled a s) := by
  unfold linkSettled
  exact .ite ((finishStart_down ..).after ((down_of_only (closeCause_only ..)).after ((alkCondition_down ..).after ((down_of_only (modAlk_only ..)))))) .refl
theorem putFltReport_down (v s) : Holding devOf Down s (putFltReport v s) := by
  unfold putFltReport
  exact .ite ((report_down ..).after (.upd .refl)) (.upd .refl)
theorem putTreHalt_down (v s) : Holding devOf Down s (putTreHalt v s) := by
  unfold putTreHalt
  exact .ite ((injectHalt_down ..).after (.upd .refl)) (.upd .refl)
theorem landWrite_down (source a v s) : Holding devOf Down s (landWrite source a v s) := by
  unfold landWrite
  refine .ite (.ite (.upd (.ite (.upd .refl) .refl)) (.ite (.upd .refl) .refl)) ?_
  refine .ite ((down_of_only (putTraceTrig_only ..))) ?_
  refine .ite (.upd .refl) ?_
  refine .ite ((putFltReport_down ..)) ?_
  refine .ite (.upd .refl) ?_
  refine .ite (.upd .refl) ?_
  refine .ite (.upd .refl) ?_
  refine .ite (.ite ((down_of_only (eccGo_only ..))) .refl) ?_
  refine .ite ((putTreHalt_down ..)) ?_
  split
  · exact (down_of_only (putTraceCfg_only ..))
  · split
    · exact (down_of_only (putLinkCfg_only ..))
    · split
      · exact (down_of_only (modInj_only ..))
      · exact .refl
theorem diagWriteAs_down (op path a v s) : Holding devOf Down s (diagWriteAs op path a v s) := by
  unfold diagWriteAs
  split
  · exact (down_of_only (countWrite_only ..)).after ((landWrite_down ..))
  · exact (down_of_only (countDenied_only ..))
theorem pathWrite_down (path a v s) : Holding devOf Down s (pathWrite path a v s) := by
  unfold pathWrite
  exact .ite .refl ((diagWriteAs_down ..))
theorem reportUe_down (path as s) : Holding devOf Down s (reportUe path as s) := by
  unfold reportUe
  exact .each (fun _ _ => (report_down ..).after ((down_of_only (nextFree_only ..)).after (.upd .refl))) .refl
theorem Holding.unlessIn {d : DevState} {s t u : State} (hd : ¬ Down d) (hu : Holding devOf Down s u) : Holding devOf Down s (if u.dev = d then t else u) := by
  refine ⟨fun h => ?_⟩
  rw [if_neg fun he : u.dev = d => hd (he ▸ hu.keeps h)]
  exact hu.keeps h
theorem commitBank_down (c s) : Holding devOf Down s (commitBank c s) := by
  unfold commitBank
  exact .ite (down_of_only (complete_only ..)) (.unlessIn (by simp [Down]) ((down_of_only (complete_only ..)).after ((down_of_only (post_only ..)).after (.upd .refl))))
theorem commitImage_down (c s) : Holding devOf Down s (commitImage c s) := by
  unfold commitImage
  extract_lets
  split
  · exact (down_of_only (complete_only ..)).after (down_of_only (copyInvalid_only ..))
  · exact .ite (down_of_only (complete_only ..)) (.unlessIn (by simp [Down]) ((down_of_only (complete_only ..)).after ((down_of_only (post_only ..)).after (.upd .refl))))
theorem microDone_down (arr s) : Holding devOf Down s (microDone arr s) := by
  unfold microDone
  split
  · exact .refl
  · exact .ite .refl (.ite ((down_of_only (complete_only ..))) (.ite ((commitImage_down ..)) ((commitBank_down ..))))
theorem beginMicro_down (arr s) : Holding devOf Down s (beginMicro arr s) := by
  unfold beginMicro
  split
  · exact .refl
  · exact .ite ((down_of_only (complete_only ..))) (.ite (.ite (.upd ((down_of_only (modCmd_only ..)))) (.upd ((down_of_only (modCmd_only ..))))) (.ite ((eraseRegion_down ..).after (.upd ((down_of_only (modCmd_only ..))))) ((down_of_only (modCmd_only ..)))))
theorem landMicro_down (arr i data s) : Holding devOf Down s (landMicro arr i data s) := by
  unfold landMicro
  split
  · exact .refl
  · exact (microDone_down ..).after (.ite (.upd ((down_of_only (modCmd_only ..)))) (.ite (.upd ((down_of_only (modCmd_only ..)))) ((down_of_only (putFlashBlock_only ..)).after (.upd ((down_of_only (modCmd_only ..)))))))
theorem doDiagRead_down (arr p c ue s) : Holding devOf Down s (doDiagRead arr p c ue s) := by
  unfold doDiagRead
  exact .ite ((down_of_only (complete_only ..)).after ((down_of_only (countDenied_only ..)))) ((down_of_only (replyWith_only ..)).after ((reportUe_down ..)))
theorem doDiagWrite_down (arr p c s) : Holding devOf Down s (doDiagWrite arr p c s) := by
  unfold doDiagWrite
  have hw : Holding devOf Down s (diagWriteAs c.opcode.toNat (.port p) c.arg64.toNat (c.argx.setWidth 64) s) := (diagWriteAs_down ..)
  extract_lets op a v ended
  have he (r : Access) : Holding devOf Down s (ended r (diagWriteAs op (.port p) a v s)) := by
    cases r <;> exact (down_of_only (complete_only ..)).after hw
  exact he _
theorem startCommand_down (arr p c x s) : Holding devOf Down s (startCommand arr p c x s) := by
  unfold startCommand
  split
  · exact (down_of_only (beginMedia_only ..))
  · exact (down_of_only (beginMedia_only ..))
  · exact (down_of_only (beginMedia_only ..))
  · exact (down_of_only (beginMedia_only ..)).after (.ite .refl ((down_of_only (enterSolo_only ..))))
  · exact (beginAbort_down ..)
  · exact (down_of_only (replyWith_only ..))
  · exact (down_of_only (complete_only ..))
  · exact (down_of_only (complete_only ..)).after ((refreshBudget_down ..).after (.upd .refl))
  · exact (down_of_only (replyWith_only ..))
  · exact (down_of_only (complete_only ..)).after ((down_of_only (clearLog_only ..)))
  · exact (down_of_only (readDeferred_only ..))
  · exact (down_of_only (complete_only ..)).after (.upd .refl)
  · exact (beginSpin_down ..)
  · exact (down_of_only (complete_only ..)).after ((down_of_only (mqNote_only ..)).after (.ite ((runTests_down ..)) .refl))
  · exact (doDiagRead_down ..)
  · exact (doDiagWrite_down ..)
  · exact (doDiagWrite_down ..)
  · exact (doDiagWrite_down ..)
  · exact (beginMicro_down ..)
  · exact (down_of_only (doUnlock_only ..))
  · exact (advanceHandover_down ..).after ((down_of_only (modCmd_only ..)))
theorem arrive_down (p c x s) : Holding devOf Down s (arrive p c x s) := by
  unfold arrive
  refine .ite .refl ?_
  refine .ite ((down_of_only (refuseTag_only ..)).after (.upd .refl)) ?_
  split
  · exact (down_of_only (complete_only ..)).after ((down_of_only (noteDenied_only ..)).after ((down_of_only (addCmd_only ..)).after (.upd .refl)))
  · extract_lets
    split
    · exact (startCommand_down ..).after ((down_of_only (mirror_only ..)).after ((down_of_only (addCmd_only ..)).after (.upd .refl)))
    · exact (down_of_only (complete_only ..)).after ((down_of_only (addCmd_only ..)).after (.upd .refl))
    · exact .ite ((down_of_only (complete_only ..)).after ((down_of_only (addCmd_only ..)).after (.upd .refl))) ((down_of_only (mqNote_only ..)).after ((down_of_only (modCmd_only ..)).after ((down_of_only (mirror_only ..)).after ((down_of_only (addCmd_only ..)).after (.upd .refl)))))
    · exact (down_of_only (mqNote_only ..)).after ((down_of_only (modCmd_only ..)).after ((down_of_only (mirror_only ..)).after ((down_of_only (addCmd_only ..)).after (.upd .refl))))
theorem endCommands_down (p s) : Holding devOf Down s (endCommands p s) := by
  unfold endCommands
  exact (down_of_only (recheck_only ..)).after (.each (fun _ _ => (down_of_only (pumpRead_only ..))) ((down_of_only (releaseFrames_only ..)).after ((down_of_only (modHopPort_only ..)).after (.upd (.each (fun _ _ => .ite ((down_of_only (freeSlots_only ..)).after ((down_of_only (unpin_only ..)).after (.ite ((down_of_only (mirror_only ..))) .refl))) ((down_of_only (withdrawLanding_only ..)).after ((cancelDescs_down ..).after ((down_of_only (freeSlots_only ..)).after ((down_of_only (unpin_only ..)).after (.ite ((down_of_only (mirror_only ..))) .refl)))))) .refl)))))
theorem endSession_down (p reason s) : Holding devOf Down s (endSession p reason s) := by
  unfold endSession
  exact (down_of_only (post_only ..)).after (.ite (.upd ((down_of_only (lockPort_only ..)).after ((endCommands_down ..).after ((down_of_only (modLink_any ..)))))) (.upd ((down_of_only (lockPort_only ..)).after ((endCommands_down ..).after ((down_of_only (modLink_any ..)))))))
theorem takeSessionOpen_down (p r s) : Holding devOf Down s (takeSessionOpen p r s) := by
  unfold takeSessionOpen
  exact .ite .refl (.ite ((down_of_only (putLctl_only ..))) (.ite (.ite ((down_of_only (putLctl_only ..))) (.ite ((down_of_only (putLctl_only ..))) (.each (fun _ _ => (down_of_only (sendAgain_only ..))) ((down_of_only (post_only ..)).after ((down_of_only (putLctl_only ..)).after ((down_of_only (takeAck_only ..)).after ((down_of_only (modLink_only ..))))))))) (.ite ((down_of_only (putLctl_only ..))) ((down_of_only (takeoverCompletions_only ..)).after ((down_of_only (post_only ..)).after ((down_of_only (putLctl_only ..)).after ((down_of_only (modLink_any ..)).after (.ite .refl ((endSession_down ..))))))))))
theorem takeSessionClose_down (p sid reason s) : Holding devOf Down s (takeSessionClose p sid reason s) := by
  unfold takeSessionClose
  exact .ite ((endSession_down ..)) .refl
theorem takeMicroPart_down (c w s) : Holding devOf Down s (takeMicroPart c w s) := by
  unfold takeMicroPart
  exact .ite ((down_of_only (strayData_only ..))) (.ite ((down_of_only (modCmd_only ..))) ((landMicro_down ..).after ((down_of_only (modCmd_only ..)))))
theorem takeWdata_down (p w s) : Holding devOf Down s (takeWdata p w s) := by
  unfold takeWdata
  split
  · exact (down_of_only (strayData_only ..))
  · exact .ite ((down_of_only (strayData_only ..))) (.ite ((down_of_only (takeWritePart_only ..))) ((takeMicroPart_down ..)))

end Sys2Proof.Machine
end

section
/-! Frames and capsules in Hold-up and in Stopped. -/

namespace Sys2Proof.Machine
set_option Elab.async false

-- Frames and capsules in Hold-up and in Stopped.

/-- Whatever next state a command answers is in Hold-up or in Stopped where `s` is. -/
def DownNext (s : State) (o : Host.Outcome State Fault Refusal) : Prop := ∃ t, o = .next t ∧ Holding devOf Down s t
theorem DownNext.next {s t : State} (h : Holding devOf Down s t) : DownNext s (.next t) := ⟨t, rfl, h⟩
theorem OnlyNext.down {m : Units} {s : State} {o : Host.Outcome State Fault Refusal} (h : OnlyNext m s o) (hm : m.dev = false := by rfl) : DownNext s o :=
  let ⟨t, he, ht⟩ := h
  ⟨t, he, down_of_only ht hm⟩
/-- A command run within another, after what led to its state. -/
theorem DownNext.after {s t : State} {f : State → Host.Outcome State Fault Refusal} (k : DownNext t (f t)) (h : Holding devOf Down s t) : Holding devOf Down s (Machine.after f t) := by
  obtain ⟨u, he, hu⟩ := k
  rw [Machine.after, he]
  exact hu.after h
theorem DownNext.live {s : State} {f : State → Host.Outcome State Fault Refusal} (h : DownNext s (f s)) : DownNext s (live s f) := by
  unfold Machine.live
  split
  · exact h
  · exact .next .refl
theorem DownNext.ite {s : State} {c : Prop} [Decidable c] {o p : Host.Outcome State Fault Refusal} (h : DownNext s o) (k : DownNext s p) : DownNext s (if c then o else p) := by
  split
  · exact h
  · exact k
theorem execArbitrate_down (r s) : DownNext s (execArbitrate r s) := by
  unfold execArbitrate
  refine .live (DownNext.next ⟨fun h => ?_⟩)
  split
  · exact h
  · next hon =>
    have hup : s.dev = .holdUp := h.elim id fun he => absurd (by simp [he]) hon
    extract_lets _ t
    have ht : t.dev = .holdUp := hup
    split
    · exact ((failStop_down ..).after (down_of_only (post_only ..))).keeps (.inl hup)
    · rw [if_pos (by simp [ht])]
      exact .inl hup
theorem execPtnFailstop_down (cause s) : DownNext s (execPtnFailstop cause s) := by
  unfold execPtnFailstop
  exact .live (DownNext.next (.ite .refl (.ite ((down_of_only (post_only ..)).after (.upd .refl)) ((tryTakeover_down ..)))))
theorem execHandoverRequest_down (reason s) : DownNext s (execHandoverRequest reason s) := by
  unfold execHandoverRequest
  exact .live (DownNext.next (.ite .refl (.ite (.ite ((advanceHandover_down ..).after ((down_of_only (beginHandover_only ..)))) .refl) (.upd .refl))))
theorem execHandoverReleased_down (reason s) : DownNext s (execHandoverReleased reason s) := by
  unfold execHandoverReleased
  exact .live (DownNext.next (.guarded (fun h => by rcases h with h | h <;> simp [h]) .refl))
theorem execResyncStart_down (_frames s) : DownNext s (execResyncStart _frames s) := by
  unfold execResyncStart
  exact .live (DownNext.next (.ite .refl ((advanceHandover_down ..).after ((down_of_only (recheck_only ..)).after ((down_of_only (post_only ..)).after (.upd ((down_of_only (ptnSend_only ..)).after (.each (fun _ _ => (down_of_only (sendBlock_only ..))) (.each (fun _ _ => (down_of_only (ptnSend_only ..))) (.each (fun _ _ => (down_of_only (ptnSend_only ..))) (.each (fun _ _ => (down_of_only (ptnSend_only ..))) ((down_of_only (post_only ..))))))))))))))
theorem deliverCapsule_down (p c s) : Holding devOf Down s (deliverCapsule p c s) := by
  unfold deliverCapsule
  exact .ite ((arrive_down ..).after ((down_of_only (nextFree_only ..)))) ((arrive_down ..))
theorem deliverLctl_down (l f r s) : Holding devOf Down s (deliverLctl l f r s) := by
  unfold deliverLctl
  split
  · exact .ite ((down_of_only (protoError_only ..))) ((takeSessionOpen_down ..))
  · exact .ite ((down_of_only (protoError_only ..))) ((takeSessionClose_down ..))
  · exact .ite ((down_of_only (protoError_only ..))) ((down_of_only (takeNak_only ..)))
  · exact .refl
  · exact (down_of_only (takeLaneMap_only ..))
  · exact (down_of_only (takeLaneMapDone_only ..))
  · exact (down_of_only (protoError_only ..))
theorem deliverMctl_down (r s) : Holding devOf Down s (deliverMctl r s) := by
  unfold deliverMctl
  extract_lets
  split
  · exact (execArbitrate_down ..).after .refl
  · exact (execHeartbeat_only ..).down.after .refl
  · exact .ite ((down_of_only (protoError_only ..))) ((execConfirm_only ..).down.after .refl)
  · exact (execCmdCtx_only ..).down.after .refl
  · exact (execPtnCpl_only ..).down.after .refl
  · exact (execCplAcked_only ..).down.after .refl
  · exact (execPtnRowCommit_only ..).down.after .refl
  · exact .ite ((execPtnLayout_only ..).down.after .refl) ((down_of_only (protoError_only ..)))
  · exact (execPtnPlan_only ..).down.after .refl
  · exact .ite ((execPtnDeferred_only ..).down.after .refl) ((down_of_only (protoError_only ..)))
  · exact (execPtnFailstop_down ..).after .refl
  · split
    · exact (execHandoverRequest_down ..).after .refl
    · exact (execHandoverReleased_down ..).after .refl
    · exact (execHandoverActive_only ..).down.after .refl
  · exact .ite ((execResyncStart_down ..).after .refl) ((execResyncDone_only ..).down.after .refl)
  · exact .ite ((execFetchRequest_only ..).down.after .refl) .refl
  · exact (down_of_only (protoError_only ..))
theorem drainIntake_down (l s) : Holding devOf Down s (drainIntake l s) := by
  unfold drainIntake
  exact .ite .refl (.each (fun _ _ => (down_of_only (returnCredit_only ..)).after ((takeWdata_down ..))) ((down_of_only (modLink_any ..))))
theorem deliverFrame_down (l f s) : Holding devOf Down s (deliverFrame l f s) := by
  unfold deliverFrame
  extract_lets
  split
  · exact (down_of_only (returnCredit_only ..)).after (.each (fun _ _ => (deliverCapsule_down ..)) .refl)
  · exact (drainIntake_down ..).after ((down_of_only (modLink_any ..)))
  · exact (down_of_only (returnCredit_only ..)).after ((down_of_only (deliverMdata_only ..)))
  · exact (down_of_only (returnCredit_only ..)).after ((execMent_only ..).down.after .refl)
  · exact (down_of_only (returnCredit_only ..)).after (.each (fun _ _ => (down_of_only (mqNote_only ..)).after ((deliverMctl_down ..))) .refl)
  · exact .refl
theorem deliverHeld_down (l n s) : Holding devOf Down s (deliverHeld l n s) := by
  induction n generalizing s with
  | zero => exact .refl
  | succ n ih =>
    unfold deliverHeld
    extract_lets
    split
    · exact .refl
    · exact (ih ..).after ((deliverFrame_down ..).after (down_of_only (modLink_only ..)))
theorem takeNumbered_down (l f s) : Holding devOf Down s (takeNumbered l f s) := by
  unfold takeNumbered
  exact .ite (.ite ((down_of_only (modInj_only ..))) ((down_of_only (modLink_only ..)))) (.ite ((down_of_only (modLink_only ..))) (.ite .refl ((down_of_only (modLink_only ..)).after ((deliverHeld_down ..).after (.ite ((down_of_only (modInj_only ..)).after ((down_of_only (modLink_only ..)))) ((down_of_only (modLink_only ..))))))))
theorem presentFrame_down (l f s) : Holding devOf Down s (presentFrame l f s) := by
  unfold presentFrame
  exact .ite ((down_of_only (modLink_only ..))) (.ite ((down_of_only (ptnFlush_only ..)).after (.ite (.each (fun _ _ => (deliverLctl_down ..)) ((down_of_only (takeCredit_only ..)).after (.ite ((down_of_only (takeAck_only ..))) .refl))) (.ite ((takeNumbered_down ..).after ((down_of_only (takeCredit_only ..)).after (.ite ((down_of_only (takeAck_only ..))) .refl))) ((down_of_only (takeCredit_only ..)).after (.ite ((down_of_only (takeAck_only ..))) .refl))))) (.ite (.each (fun _ _ => (deliverLctl_down ..)) ((down_of_only (takeCredit_only ..)).after (.ite ((down_of_only (takeAck_only ..))) .refl))) (.ite ((takeNumbered_down ..).after ((down_of_only (takeCredit_only ..)).after (.ite ((down_of_only (takeAck_only ..))) .refl))) ((down_of_only (takeCredit_only ..)).after (.ite ((down_of_only (takeAck_only ..))) .refl)))))
theorem ageDelayed_down (l s) : Holding devOf Down s (ageDelayed l s) := by
  unfold ageDelayed
  exact .each (fun _ _ => (presentFrame_down ..)) ((down_of_only (modInj_only ..)))
theorem injectRx_down (l f s) : Holding devOf Down s (injectRx l f s) := by
  unfold injectRx
  refine .ite ((presentFrame_down ..)) ?_
  refine .ite ((ageDelayed_down ..).after ((presentFrame_down ..))) ?_
  split
  · exact (ageDelayed_down ..).after ((presentFrame_down ..).after ((down_of_only (modInj_only ..))))
  · exact .ite ((down_of_only (modInj_only ..))) ((down_of_only (modInj_only ..)))

end Sys2Proof.Machine
end

section
/-! The commands of the arm links, the spindle and the servo in Hold-up and in Stopped. -/

namespace Sys2Proof.Machine
set_option Elab.async false

-- The commands of the arm links, the spindle and the servo in Hold-up and in Stopped.

theorem execAlkTrainAttempt_down (arm upFail downFail reachesExchange s) : DownNext s (execAlkTrainAttempt arm upFail downFail reachesExchange s) := by
  unfold execAlkTrainAttempt
  exact .live (DownNext.next (.ite (.ite ((alkAttemptFailed_down ..).after (.each (fun _ _ => (down_of_only (send_only ..))) ((down_of_only (modAlk_only ..))))) ((down_of_only (modAlk_only ..)).after (.each (fun _ _ => (down_of_only (send_only ..))) ((down_of_only (modAlk_only ..)))))) .refl))
theorem execAlkTrainTimeout_down (arm s) : DownNext s (execAlkTrainTimeout arm s) := by
  unfold execAlkTrainTimeout
  exact .live (DownNext.next (.ite ((alkAttemptFailed_down ..)) .refl))
theorem execAlkLaneErrorWindow_down (arm up lane corrected uncorrectable s) : DownNext s (execAlkLaneErrorWindow arm up lane corrected uncorrectable s) := by
  unfold execAlkLaneErrorWindow
  exact .live (DownNext.next (.ite .refl (.ite ((alkSwap_down ..).after ((down_of_only (modAlk_only ..)))) ((down_of_only (modAlk_only ..))))))
theorem execAlkLaneLockLoss_down (arm up lane s) : DownNext s (execAlkLaneLockLoss arm up lane s) := by
  unfold execAlkLaneLockLoss
  exact .live (DownNext.next (.ite .refl ((alkSwap_down ..))))
theorem execAlkUplinkUncorr_down (arm lane streams s) : DownNext s (execAlkUplinkUncorr arm lane streams s) := by
  unfold execAlkUplinkUncorr
  exact .live (DownNext.next (.ite (.ite ((alkSwap_down ..).after ((alkCondition_down ..).after ((down_of_only (voidArm_only ..)).after ((down_of_only (modAlk_only ..)))))) ((alkCondition_down ..).after ((down_of_only (voidArm_only ..)).after ((down_of_only (modAlk_only ..)))))) .refl))
theorem execAlkUplinkSilence_down (arm s) : DownNext s (execAlkUplinkSilence arm s) := by
  unfold execAlkUplinkSilence
  exact .live (DownNext.next ((alkLoss_down ..)))
theorem execPortStatusTimeout_down (arm s) : DownNext s (execPortStatusTimeout arm s) := by
  unfold execPortStatusTimeout
  exact .live (DownNext.next ((alkLoss_down ..)))
theorem execAckTimeout_down (arm seq s) : DownNext s (execAckTimeout arm seq s) := by
  unfold execAckTimeout
  refine .live ?_
  refine DownNext.next ?_
  split
  · exact .refl
  · exact (down_of_only (alkPut_only ..)).after ((down_of_only (modAlk_only ..)))
  · exact .ite ((alkAttemptFailed_down ..)) ((alkLoss_down ..))
theorem execFaultTelemetry_down (arm word s) : DownNext s (execFaultTelemetry arm word s) := by
  unfold execFaultTelemetry
  exact .live (DownNext.next (.ite ((alkCondition_down ..).after (.ite (.each (fun _ _ => (down_of_only (alkPut_only ..))) ((down_of_only (voidArm_only ..)).after ((alkCondition_down ..).after (.ite (.each (fun _ _ => (down_of_only (alkPut_only ..))) (.ite ((down_of_only (voidArm_only ..)).after (.ite ((alkCondition_down ..).after (.ite ((down_of_only (voidArm_only ..)).after ((alkCondition_down ..).after ((down_of_only (modHead_only ..)).after (.ite ((contactAct_down ..).after ((alkCondition_down ..).after (.ite ((declareFailed_down ..).after ((alkCondition_down ..).after ((writeGate_down ..).after ((down_of_only (mqSend_only ..)).after ((down_of_only (modMon_only ..))))))) ((down_of_only (mqSend_only ..)).after ((down_of_only (modMon_only ..))))))) (.ite ((declareFailed_down ..).after ((alkCondition_down ..).after ((writeGate_down ..).after ((down_of_only (mqSend_only ..)).after ((down_of_only (modMon_only ..))))))) ((down_of_only (mqSend_only ..)).after ((down_of_only (modMon_only ..))))))))) (.ite ((contactAct_down ..).after ((alkCondition_down ..).after (.ite ((declareFailed_down ..).after ((alkCondition_down ..).after ((writeGate_down ..).after ((down_of_only (mqSend_only ..)).after ((down_of_only (modMon_only ..))))))) ((down_of_only (mqSend_only ..)).after ((down_of_only (modMon_only ..))))))) (.ite ((declareFailed_down ..).after ((alkCondition_down ..).after ((writeGate_down ..).after ((down_of_only (mqSend_only ..)).after ((down_of_only (modMon_only ..))))))) ((down_of_only (mqSend_only ..)).after ((down_of_only (modMon_only ..)))))))) (.ite ((down_of_only (voidArm_only ..)).after ((alkCondition_down ..).after ((down_of_only (modHead_only ..)).after (.ite ((contactAct_down ..).after ((alkCondition_down ..).after (.ite ((declareFailed_down ..).after ((alkCondition_down ..).after ((writeGate_down ..).after ((down_of_only (mqSend_only ..)).after ((down_of_only (modMon_only ..))))))) ((down_of_only (mqSend_only ..)).after ((down_of_only (modMon_only ..))))))) (.ite ((declareFailed_down ..).after ((alkCondition_down ..).after ((writeGate_down ..).after ((down_of_only (mqSend_only ..)).after ((down_of_only (modMon_only ..))))))) ((down_of_only (mqSend_only ..)).after ((down_of_only (modMon_only ..))))))))) (.ite ((contactAct_down ..).after ((alkCondition_down ..).after (.ite ((declareFailed_down ..).after ((alkCondition_down ..).after ((writeGate_down ..).after ((down_of_only (mqSend_only ..)).after ((down_of_only (modMon_only ..))))))) ((down_of_only (mqSend_only ..)).after ((down_of_only (modMon_only ..))))))) (.ite ((declareFailed_down ..).after ((alkCondition_down ..).after ((writeGate_down ..).after ((down_of_only (mqSend_only ..)).after ((down_of_only (modMon_only ..))))))) ((down_of_only (mqSend_only ..)).after ((down_of_only (modMon_only ..))))))))) (.ite ((alkCondition_down ..).after (.ite ((down_of_only (voidArm_only ..)).after ((alkCondition_down ..).after ((down_of_only (modHead_only ..)).after (.ite ((contactAct_down ..).after ((alkCondition_down ..).after (.ite ((declareFailed_down ..).after ((alkCondition_down ..).after ((writeGate_down ..).after ((down_of_only (mqSend_only ..)).after ((down_of_only (modMon_only ..))))))) ((down_of_only (mqSend_only ..)).after ((down_of_only (modMon_only ..))))))) (.ite ((declareFailed_down ..).after ((alkCondition_down ..).after ((writeGate_down ..).after ((down_of_only (mqSend_only ..)).after ((down_of_only (modMon_only ..))))))) ((down_of_only (mqSend_only ..)).after ((down_of_only (modMon_only ..))))))))) (.ite ((contactAct_down ..).after ((alkCondition_down ..).after (.ite ((declareFailed_down ..).after ((alkCondition_down ..).after ((writeGate_down ..).after ((down_of_only (mqSend_only ..)).after ((down_of_only (modMon_only ..))))))) ((down_of_only (mqSend_only ..)).after ((down_of_only (modMon_only ..))))))) (.ite ((declareFailed_down ..).after ((alkCondition_down ..).after ((writeGate_down ..).after ((down_of_only (mqSend_only ..)).after ((down_of_only (modMon_only ..))))))) ((down_of_only (mqSend_only ..)).after ((down_of_only (modMon_only ..)))))))) (.ite ((down_of_only (voidArm_only ..)).after ((alkCondition_down ..).after ((down_of_only (modHead_only ..)).after (.ite ((contactAct_down ..).after ((alkCondition_down ..).after (.ite ((declareFailed_down ..).after ((alkCondition_down ..).after ((writeGate_down ..).after ((down_of_only (mqSend_only ..)).after ((down_of_only (modMon_only ..))))))) ((down_of_only (mqSend_only ..)).after ((down_of_only (modMon_only ..))))))) (.ite ((declareFailed_down ..).after ((alkCondition_down ..).after ((writeGate_down ..).after ((down_of_only (mqSend_only ..)).after ((down_of_only (modMon_only ..))))))) ((down_of_only (mqSend_only ..)).after ((down_of_only (modMon_only ..))))))))) (.ite ((contactAct_down ..).after ((alkCondition_down ..).after (.ite ((declareFailed_down ..).after ((alkCondition_down ..).after ((writeGate_down ..).after ((down_of_only (mqSend_only ..)).after ((down_of_only (modMon_only ..))))))) ((down_of_only (mqSend_only ..)).after ((down_of_only (modMon_only ..))))))) (.ite ((declareFailed_down ..).after ((alkCondition_down ..).after ((writeGate_down ..).after ((down_of_only (mqSend_only ..)).after ((down_of_only (modMon_only ..))))))) ((down_of_only (mqSend_only ..)).after ((down_of_only (modMon_only ..)))))))))) (.ite ((down_of_only (voidArm_only ..)).after (.ite ((alkCondition_down ..).after (.ite ((down_of_only (voidArm_only ..)).after ((alkCondition_down ..).after ((down_of_only (modHead_only ..)).after (.ite ((contactAct_down ..).after ((alkCondition_down ..).after (.ite ((declareFailed_down ..).after ((alkCondition_down ..).after ((writeGate_down ..).after ((down_of_only (mqSend_only ..)).after ((down_of_only (modMon_only ..))))))) ((down_of_only (mqSend_only ..)).after ((down_of_only (modMon_only ..))))))) (.ite ((declareFailed_down ..).after ((alkCondition_down ..).after ((writeGate_down ..).after ((down_of_only (mqSend_only ..)).after ((down_of_only (modMon_only ..))))))) ((down_of_only (mqSend_only ..)).after ((down_of_only (modMon_only ..))))))))) (.ite ((contactAct_down ..).after ((alkCondition_down ..).after (.ite ((declareFailed_down ..).after ((alkCondition_down ..).after ((writeGate_down ..).after ((down_of_only (mqSend_only ..)).after ((down_of_only (modMon_only ..))))))) ((down_of_only (mqSend_only ..)).after ((down_of_only (modMon_only ..))))))) (.ite ((declareFailed_down ..).after ((alkCondition_down ..).after ((writeGate_down ..).after ((down_of_only (mqSend_only ..)).after ((down_of_only (modMon_only ..))))))) ((down_of_only (mqSend_only ..)).after ((down_of_only (modMon_only ..)))))))) (.ite ((down_of_only (voidArm_only ..)).after ((alkCondition_down ..).after ((down_of_only (modHead_only ..)).after (.ite ((contactAct_down ..).after ((alkCondition_down ..).after (.ite ((declareFailed_down ..).after ((alkCondition_down ..).after ((writeGate_down ..).after ((down_of_only (mqSend_only ..)).after ((down_of_only (modMon_only ..))))))) ((down_of_only (mqSend_only ..)).after ((down_of_only (modMon_only ..))))))) (.ite ((declareFailed_down ..).after ((alkCondition_down ..).after ((writeGate_down ..).after ((down_of_only (mqSend_only ..)).after ((down_of_only (modMon_only ..))))))) ((down_of_only (mqSend_only ..)).after ((down_of_only (modMon_only ..))))))))) (.ite ((contactAct_down ..).after ((alkCondition_down ..).after (.ite ((declareFailed_down ..).after ((alkCondition_down ..).after ((writeGate_down ..).after ((down_of_only (mqSend_only ..)).after ((down_of_only (modMon_only ..))))))) ((down_of_only (mqSend_only ..)).after ((down_of_only (modMon_only ..))))))) (.ite ((declareFailed_down ..).after ((alkCondition_down ..).after ((writeGate_down ..).after ((down_of_only (mqSend_only ..)).after ((down_of_only (modMon_only ..))))))) ((down_of_only (mqSend_only ..)).after ((down_of_only (modMon_only ..))))))))) (.ite ((alkCondition_down ..).after (.ite ((down_of_only (voidArm_only ..)).after ((alkCondition_down ..).after ((down_of_only (modHead_only ..)).after (.ite ((contactAct_down ..).after ((alkCondition_down ..).after (.ite ((declareFailed_down ..).after ((alkCondition_down ..).after ((writeGate_down ..).after ((down_of_only (mqSend_only ..)).after ((down_of_only (modMon_only ..))))))) ((down_of_only (mqSend_only ..)).after ((down_of_only (modMon_only ..))))))) (.ite ((declareFailed_down ..).after ((alkCondition_down ..).after ((writeGate_down ..).after ((down_of_only (mqSend_only ..)).after ((down_of_only (modMon_only ..))))))) ((down_of_only (mqSend_only ..)).after ((down_of_only (modMon_only ..))))))))) (.ite ((contactAct_down ..).after ((alkCondition_down ..).after (.ite ((declareFailed_down ..).after ((alkCondition_down ..).after ((writeGate_down ..).after ((down_of_only (mqSend_only ..)).after ((down_of_only (modMon_only ..))))))) ((down_of_only (mqSend_only ..)).after ((down_of_only (modMon_only ..))))))) (.ite ((declareFailed_down ..).after ((alkCondition_down ..).after ((writeGate_down ..).after ((down_of_only (mqSend_only ..)).after ((down_of_only (modMon_only ..))))))) ((down_of_only (mqSend_only ..)).after ((down_of_only (modMon_only ..)))))))) (.ite ((down_of_only (voidArm_only ..)).after ((alkCondition_down ..).after ((down_of_only (modHead_only ..)).after (.ite ((contactAct_down ..).after ((alkCondition_down ..).after (.ite ((declareFailed_down ..).after ((alkCondition_down ..).after ((writeGate_down ..).after ((down_of_only (mqSend_only ..)).after ((down_of_only (modMon_only ..))))))) ((down_of_only (mqSend_only ..)).after ((down_of_only (modMon_only ..))))))) (.ite ((declareFailed_down ..).after ((alkCondition_down ..).after ((writeGate_down ..).after ((down_of_only (mqSend_only ..)).after ((down_of_only (modMon_only ..))))))) ((down_of_only (mqSend_only ..)).after ((down_of_only (modMon_only ..))))))))) (.ite ((contactAct_down ..).after ((alkCondition_down ..).after (.ite ((declareFailed_down ..).after ((alkCondition_down ..).after ((writeGate_down ..).after ((down_of_only (mqSend_only ..)).after ((down_of_only (modMon_only ..))))))) ((down_of_only (mqSend_only ..)).after ((down_of_only (modMon_only ..))))))) (.ite ((declareFailed_down ..).after ((alkCondition_down ..).after ((writeGate_down ..).after ((down_of_only (mqSend_only ..)).after ((down_of_only (modMon_only ..))))))) ((down_of_only (mqSend_only ..)).after ((down_of_only (modMon_only ..))))))))))))) (.ite (.each (fun _ _ => (down_of_only (alkPut_only ..))) (.ite ((down_of_only (voidArm_only ..)).after (.ite ((alkCondition_down ..).after (.ite ((down_of_only (voidArm_only ..)).after ((alkCondition_down ..).after ((down_of_only (modHead_only ..)).after (.ite ((contactAct_down ..).after ((alkCondition_down ..).after (.ite ((declareFailed_down ..).after ((alkCondition_down ..).after ((writeGate_down ..).after ((down_of_only (mqSend_only ..)).after ((down_of_only (modMon_only ..))))))) ((down_of_only (mqSend_only ..)).after ((down_of_only (modMon_only ..))))))) (.ite ((declareFailed_down ..).after ((alkCondition_down ..).after ((writeGate_down ..).after ((down_of_only (mqSend_only ..)).after ((down_of_only (modMon_only ..))))))) ((down_of_only (mqSend_only ..)).after ((down_of_only (modMon_only ..))))))))) (.ite ((contactAct_down ..).after ((alkCondition_down ..).after (.ite ((declareFailed_down ..).after ((alkCondition_down ..).after ((writeGate_down ..).after ((down_of_only (mqSend_only ..)).after ((down_of_only (modMon_only ..))))))) ((down_of_only (mqSend_only ..)).after ((down_of_only (modMon_only ..))))))) (.ite ((declareFailed_down ..).after ((alkCondition_down ..).after ((writeGate_down ..).after ((down_of_only (mqSend_only ..)).after ((down_of_only (modMon_only ..))))))) ((down_of_only (mqSend_only ..)).after ((down_of_only (modMon_only ..)))))))) (.ite ((down_of_only (voidArm_only ..)).after ((alkCondition_down ..).after ((down_of_only (modHead_only ..)).after (.ite ((contactAct_down ..).after ((alkCondition_down ..).after (.ite ((declareFailed_down ..).after ((alkCondition_down ..).after ((writeGate_down ..).after ((down_of_only (mqSend_only ..)).after ((down_of_only (modMon_only ..))))))) ((down_of_only (mqSend_only ..)).after ((down_of_only (modMon_only ..))))))) (.ite ((declareFailed_down ..).after ((alkCondition_down ..).after ((writeGate_down ..).after ((down_of_only (mqSend_only ..)).after ((down_of_only (modMon_only ..))))))) ((down_of_only (mqSend_only ..)).after ((down_of_only (modMon_only ..))))))))) (.ite ((contactAct_down ..).after ((alkCondition_down ..).after (.ite ((declareFailed_down ..).after ((alkCondition_down ..).after ((writeGate_down ..).after ((down_of_only (mqSend_only ..)).after ((down_of_only (modMon_only ..))))))) ((down_of_only (mqSend_only ..)).after ((down_of_only (modMon_only ..))))))) (.ite ((declareFailed_down ..).after ((alkCondition_down ..).after ((writeGate_down ..).after ((down_of_only (mqSend_only ..)).after ((down_of_only (modMon_only ..))))))) ((down_of_only (mqSend_only ..)).after ((down_of_only (modMon_only ..))))))))) (.ite ((alkCondition_down ..).after (.ite ((down_of_only (voidArm_only ..)).after ((alkCondition_down ..).after ((down_of_only (modHead_only ..)).after (.ite ((contactAct_down ..).after ((alkCondition_down ..).after (.ite ((declareFailed_down ..).after ((alkCondition_down ..).after ((writeGate_down ..).after ((down_of_only (mqSend_only ..)).after ((down_of_only (modMon_only ..))))))) ((down_of_only (mqSend_only ..)).after ((down_of_only (modMon_only ..))))))) (.ite ((declareFailed_down ..).after ((alkCondition_down ..).after ((writeGate_down ..).after ((down_of_only (mqSend_only ..)).after ((down_of_only (modMon_only ..))))))) ((down_of_only (mqSend_only ..)).after ((down_of_only (modMon_only ..))))))))) (.ite ((contactAct_down ..).after ((alkCondition_down ..).after (.ite ((declareFailed_down ..).after ((alkCondition_down ..).after ((writeGate_down ..).after ((down_of_only (mqSend_only ..)).after ((down_of_only (modMon_only ..))))))) ((down_of_only (mqSend_only ..)).after ((down_of_only (modMon_only ..))))))) (.ite ((declareFailed_down ..).after ((alkCondition_down ..).after ((writeGate_down ..).after ((down_of_only (mqSend_only ..)).after ((down_of_only (modMon_only ..))))))) ((down_of_only (mqSend_only ..)).after ((down_of_only (modMon_only ..)))))))) (.ite ((down_of_only (voidArm_only ..)).after ((alkCondition_down ..).after ((down_of_only (modHead_only ..)).after (.ite ((contactAct_down ..).after ((alkCondition_down ..).after (.ite ((declareFailed_down ..).after ((alkCondition_down ..).after ((writeGate_down ..).after ((down_of_only (mqSend_only ..)).after ((down_of_only (modMon_only ..))))))) ((down_of_only (mqSend_only ..)).after ((down_of_only (modMon_only ..))))))) (.ite ((declareFailed_down ..).after ((alkCondition_down ..).after ((writeGate_down ..).after ((down_of_only (mqSend_only ..)).after ((down_of_only (modMon_only ..))))))) ((down_of_only (mqSend_only ..)).after ((down_of_only (modMon_only ..))))))))) (.ite ((contactAct_down ..).after ((alkCondition_down ..).after (.ite ((declareFailed_down ..).after ((alkCondition_down ..).after ((writeGate_down ..).after ((down_of_only (mqSend_only ..)).after ((down_of_only (modMon_only ..))))))) ((down_of_only (mqSend_only ..)).after ((down_of_only (modMon_only ..))))))) (.ite ((declareFailed_down ..).after ((alkCondition_down ..).after ((writeGate_down ..).after ((down_of_only (mqSend_only ..)).after ((down_of_only (modMon_only ..))))))) ((down_of_only (mqSend_only ..)).after ((down_of_only (modMon_only ..)))))))))) (.ite ((down_of_only (voidArm_only ..)).after (.ite ((alkCondition_down ..).after (.ite ((down_of_only (voidArm_only ..)).after ((alkCondition_down ..).after ((down_of_only (modHead_only ..)).after (.ite ((contactAct_down ..).after ((alkCondition_down ..).after (.ite ((declareFailed_down ..).after ((alkCondition_down ..).after ((writeGate_down ..).after ((down_of_only (mqSend_only ..)).after ((down_of_only (modMon_only ..))))))) ((down_of_only (mqSend_only ..)).after ((down_of_only (modMon_only ..))))))) (.ite ((declareFailed_down ..).after ((alkCondition_down ..).after ((writeGate_down ..).after ((down_of_only (mqSend_only ..)).after ((down_of_only (modMon_only ..))))))) ((down_of_only (mqSend_only ..)).after ((down_of_only (modMon_only ..))))))))) (.ite ((contactAct_down ..).after ((alkCondition_down ..).after (.ite ((declareFailed_down ..).after ((alkCondition_down ..).after ((writeGate_down ..).after ((down_of_only (mqSend_only ..)).after ((down_of_only (modMon_only ..))))))) ((down_of_only (mqSend_only ..)).after ((down_of_only (modMon_only ..))))))) (.ite ((declareFailed_down ..).after ((alkCondition_down ..).after ((writeGate_down ..).after ((down_of_only (mqSend_only ..)).after ((down_of_only (modMon_only ..))))))) ((down_of_only (mqSend_only ..)).after ((down_of_only (modMon_only ..)))))))) (.ite ((down_of_only (voidArm_only ..)).after ((alkCondition_down ..).after ((down_of_only (modHead_only ..)).after (.ite ((contactAct_down ..).after ((alkCondition_down ..).after (.ite ((declareFailed_down ..).after ((alkCondition_down ..).after ((writeGate_down ..).after ((down_of_only (mqSend_only ..)).after ((down_of_only (modMon_only ..))))))) ((down_of_only (mqSend_only ..)).after ((down_of_only (modMon_only ..))))))) (.ite ((declareFailed_down ..).after ((alkCondition_down ..).after ((writeGate_down ..).after ((down_of_only (mqSend_only ..)).after ((down_of_only (modMon_only ..))))))) ((down_of_only (mqSend_only ..)).after ((down_of_only (modMon_only ..))))))))) (.ite ((contactAct_down ..).after ((alkCondition_down ..).after (.ite ((declareFailed_down ..).after ((alkCondition_down ..).after ((writeGate_down ..).after ((down_of_only (mqSend_only ..)).after ((down_of_only (modMon_only ..))))))) ((down_of_only (mqSend_only ..)).after ((down_of_only (modMon_only ..))))))) (.ite ((declareFailed_down ..).after ((alkCondition_down ..).after ((writeGate_down ..).after ((down_of_only (mqSend_only ..)).after ((down_of_only (modMon_only ..))))))) ((down_of_only (mqSend_only ..)).after ((down_of_only (modMon_only ..))))))))) (.ite ((alkCondition_down ..).after (.ite ((down_of_only (voidArm_only ..)).after ((alkCondition_down ..).after ((down_of_only (modHead_only ..)).after (.ite ((contactAct_down ..).after ((alkCondition_down ..).after (.ite ((declareFailed_down ..).after ((alkCondition_down ..).after ((writeGate_down ..).after ((down_of_only (mqSend_only ..)).after ((down_of_only (modMon_only ..))))))) ((down_of_only (mqSend_only ..)).after ((down_of_only (modMon_only ..))))))) (.ite ((declareFailed_down ..).after ((alkCondition_down ..).after ((writeGate_down ..).after ((down_of_only (mqSend_only ..)).after ((down_of_only (modMon_only ..))))))) ((down_of_only (mqSend_only ..)).after ((down_of_only (modMon_only ..))))))))) (.ite ((contactAct_down ..).after ((alkCondition_down ..).after (.ite ((declareFailed_down ..).after ((alkCondition_down ..).after ((writeGate_down ..).after ((down_of_only (mqSend_only ..)).after ((down_of_only (modMon_only ..))))))) ((down_of_only (mqSend_only ..)).after ((down_of_only (modMon_only ..))))))) (.ite ((declareFailed_down ..).after ((alkCondition_down ..).after ((writeGate_down ..).after ((down_of_only (mqSend_only ..)).after ((down_of_only (modMon_only ..))))))) ((down_of_only (mqSend_only ..)).after ((down_of_only (modMon_only ..)))))))) (.ite ((down_of_only (voidArm_only ..)).after ((alkCondition_down ..).after ((down_of_only (modHead_only ..)).after (.ite ((contactAct_down ..).after ((alkCondition_down ..).after (.ite ((declareFailed_down ..).after ((alkCondition_down ..).after ((writeGate_down ..).after ((down_of_only (mqSend_only ..)).after ((down_of_only (modMon_only ..))))))) ((down_of_only (mqSend_only ..)).after ((down_of_only (modMon_only ..))))))) (.ite ((declareFailed_down ..).after ((alkCondition_down ..).after ((writeGate_down ..).after ((down_of_only (mqSend_only ..)).after ((down_of_only (modMon_only ..))))))) ((down_of_only (mqSend_only ..)).after ((down_of_only (modMon_only ..))))))))) (.ite ((contactAct_down ..).after ((alkCondition_down ..).after (.ite ((declareFailed_down ..).after ((alkCondition_down ..).after ((writeGate_down ..).after ((down_of_only (mqSend_only ..)).after ((down_of_only (modMon_only ..))))))) ((down_of_only (mqSend_only ..)).after ((down_of_only (modMon_only ..))))))) (.ite ((declareFailed_down ..).after ((alkCondition_down ..).after ((writeGate_down ..).after ((down_of_only (mqSend_only ..)).after ((down_of_only (modMon_only ..))))))) ((down_of_only (mqSend_only ..)).after ((down_of_only (modMon_only ..)))))))))))) (.ite (.each (fun _ _ => (down_of_only (alkPut_only ..))) ((down_of_only (voidArm_only ..)).after ((alkCondition_down ..).after (.ite (.each (fun _ _ => (down_of_only (alkPut_only ..))) (.ite ((down_of_only (voidArm_only ..)).after (.ite ((alkCondition_down ..).after (.ite ((down_of_only (voidArm_only ..)).after ((alkCondition_down ..).after ((down_of_only (modHead_only ..)).after (.ite ((contactAct_down ..).after ((alkCondition_down ..).after (.ite ((declareFailed_down ..).after ((alkCondition_down ..).after ((writeGate_down ..).after ((down_of_only (mqSend_only ..)).after ((down_of_only (modMon_only ..))))))) ((down_of_only (mqSend_only ..)).after ((down_of_only (modMon_only ..))))))) (.ite ((declareFailed_down ..).after ((alkCondition_down ..).after ((writeGate_down ..).after ((down_of_only (mqSend_only ..)).after ((down_of_only (modMon_only ..))))))) ((down_of_only (mqSend_only ..)).after ((down_of_only (modMon_only ..))))))))) (.ite ((contactAct_down ..).after ((alkCondition_down ..).after (.ite ((declareFailed_down ..).after ((alkCondition_down ..).after ((writeGate_down ..).after ((down_of_only (mqSend_only ..)).after ((down_of_only (modMon_only ..))))))) ((down_of_only (mqSend_only ..)).after ((down_of_only (modMon_only ..))))))) (.ite ((declareFailed_down ..).after ((alkCondition_down ..).after ((writeGate_down ..).after ((down_of_only (mqSend_only ..)).after ((down_of_only (modMon_only ..))))))) ((down_of_only (mqSend_only ..)).after ((down_of_only (modMon_only ..)))))))) (.ite ((down_of_only (voidArm_only ..)).after ((alkCondition_down ..).after ((down_of_only (modHead_only ..)).after (.ite ((contactAct_down ..).after ((alkCondition_down ..).after (.ite ((declareFailed_down ..).after ((alkCondition_down ..).after ((writeGate_down ..).after ((down_of_only (mqSend_only ..)).after ((down_of_only (modMon_only ..))))))) ((down_of_only (mqSend_only ..)).after ((down_of_only (modMon_only ..))))))) (.ite ((declareFailed_down ..).after ((alkCondition_down ..).after ((writeGate_down ..).after ((down_of_only (mqSend_only ..)).after ((down_of_only (modMon_only ..))))))) ((down_of_only (mqSend_only ..)).after ((down_of_only (modMon_only ..))))))))) (.ite ((contactAct_down ..).after ((alkCondition_down ..).after (.ite ((declareFailed_down ..).after ((alkCondition_down ..).after ((writeGate_down ..).after ((down_of_only (mqSend_only ..)).after ((down_of_only (modMon_only ..))))))) ((down_of_only (mqSend_only ..)).after ((down_of_only (modMon_only ..))))))) (.ite ((declareFailed_down ..).after ((alkCondition_down ..).after ((writeGate_down ..).after ((down_of_only (mqSend_only ..)).after ((down_of_only (modMon_only ..))))))) ((down_of_only (mqSend_only ..)).after ((down_of_only (modMon_only ..))))))))) (.ite ((alkCondition_down ..).after (.ite ((down_of_only (voidArm_only ..)).after ((alkCondition_down ..).after ((down_of_only (modHead_only ..)).after (.ite ((contactAct_down ..).after ((alkCondition_down ..).after (.ite ((declareFailed_down ..).after ((alkCondition_down ..).after ((writeGate_down ..).after ((down_of_only (mqSend_only ..)).after ((down_of_only (modMon_only ..))))))) ((down_of_only (mqSend_only ..)).after ((down_of_only (modMon_only ..))))))) (.ite ((declareFailed_down ..).after ((alkCondition_down ..).after ((writeGate_down ..).after ((down_of_only (mqSend_only ..)).after ((down_of_only (modMon_only ..))))))) ((down_of_only (mqSend_only ..)).after ((down_of_only (modMon_only ..))))))))) (.ite ((contactAct_down ..).after ((alkCondition_down ..).after (.ite ((declareFailed_down ..).after ((alkCondition_down ..).after ((writeGate_down ..).after ((down_of_only (mqSend_only ..)).after ((down_of_only (modMon_only ..))))))) ((down_of_only (mqSend_only ..)).after ((down_of_only (modMon_only ..))))))) (.ite ((declareFailed_down ..).after ((alkCondition_down ..).after ((writeGate_down ..).after ((down_of_only (mqSend_only ..)).after ((down_of_only (modMon_only ..))))))) ((down_of_only (mqSend_only ..)).after ((down_of_only (modMon_only ..)))))))) (.ite ((down_of_only (voidArm_only ..)).after ((alkCondition_down ..).after ((down_of_only (modHead_only ..)).after (.ite ((contactAct_down ..).after ((alkCondition_down ..).after (.ite ((declareFailed_down ..).after ((alkCondition_down ..).after ((writeGate_down ..).after ((down_of_only (mqSend_only ..)).after ((down_of_only (modMon_only ..))))))) ((down_of_only (mqSend_only ..)).after ((down_of_only (modMon_only ..))))))) (.ite ((declareFailed_down ..).after ((alkCondition_down ..).after ((writeGate_down ..).after ((down_of_only (mqSend_only ..)).after ((down_of_only (modMon_only ..))))))) ((down_of_only (mqSend_only ..)).after ((down_of_only (modMon_only ..))))))))) (.ite ((contactAct_down ..).after ((alkCondition_down ..).after (.ite ((declareFailed_down ..).after ((alkCondition_down ..).after ((writeGate_down ..).after ((down_of_only (mqSend_only ..)).after ((down_of_only (modMon_only ..))))))) ((down_of_only (mqSend_only ..)).after ((down_of_only (modMon_only ..))))))) (.ite ((declareFailed_down ..).after ((alkCondition_down ..).after ((writeGate_down ..).after ((down_of_only (mqSend_only ..)).after ((down_of_only (modMon_only ..))))))) ((down_of_only (mqSend_only ..)).after ((down_of_only (modMon_only ..)))))))))) (.ite ((down_of_only (voidArm_only ..)).after (.ite ((alkCondition_down ..).after (.ite ((down_of_only (voidArm_only ..)).after ((alkCondition_down ..).after ((down_of_only (modHead_only ..)).after (.ite ((contactAct_down ..).after ((alkCondition_down ..).after (.ite ((declareFailed_down ..).after ((alkCondition_down ..).after ((writeGate_down ..).after ((down_of_only (mqSend_only ..)).after ((down_of_only (modMon_only ..))))))) ((down_of_only (mqSend_only ..)).after ((down_of_only (modMon_only ..))))))) (.ite ((declareFailed_down ..).after ((alkCondition_down ..).after ((writeGate_down ..).after ((down_of_only (mqSend_only ..)).after ((down_of_only (modMon_only ..))))))) ((down_of_only (mqSend_only ..)).after ((down_of_only (modMon_only ..))))))))) (.ite ((contactAct_down ..).after ((alkCondition_down ..).after (.ite ((declareFailed_down ..).after ((alkCondition_down ..).after ((writeGate_down ..).after ((down_of_only (mqSend_only ..)).after ((down_of_only (modMon_only ..))))))) ((down_of_only (mqSend_only ..)).after ((down_of_only (modMon_only ..))))))) (.ite ((declareFailed_down ..).after ((alkCondition_down ..).after ((writeGate_down ..).after ((down_of_only (mqSend_only ..)).after ((down_of_only (modMon_only ..))))))) ((down_of_only (mqSend_only ..)).after ((down_of_only (modMon_only ..)))))))) (.ite ((down_of_only (voidArm_only ..)).after ((alkCondition_down ..).after ((down_of_only (modHead_only ..)).after (.ite ((contactAct_down ..).after ((alkCondition_down ..).after (.ite ((declareFailed_down ..).after ((alkCondition_down ..).after ((writeGate_down ..).after ((down_of_only (mqSend_only ..)).after ((down_of_only (modMon_only ..))))))) ((down_of_only (mqSend_only ..)).after ((down_of_only (modMon_only ..))))))) (.ite ((declareFailed_down ..).after ((alkCondition_down ..).after ((writeGate_down ..).after ((down_of_only (mqSend_only ..)).after ((down_of_only (modMon_only ..))))))) ((down_of_only (mqSend_only ..)).after ((down_of_only (modMon_only ..))))))))) (.ite ((contactAct_down ..).after ((alkCondition_down ..).after (.ite ((declareFailed_down ..).after ((alkCondition_down ..).after ((writeGate_down ..).after ((down_of_only (mqSend_only ..)).after ((down_of_only (modMon_only ..))))))) ((down_of_only (mqSend_only ..)).after ((down_of_only (modMon_only ..))))))) (.ite ((declareFailed_down ..).after ((alkCondition_down ..).after ((writeGate_down ..).after ((down_of_only (mqSend_only ..)).after ((down_of_only (modMon_only ..))))))) ((down_of_only (mqSend_only ..)).after ((down_of_only (modMon_only ..))))))))) (.ite ((alkCondition_down ..).after (.ite ((down_of_only (voidArm_only ..)).after ((alkCondition_down ..).after ((down_of_only (modHead_only ..)).after (.ite ((contactAct_down ..).after ((alkCondition_down ..).after (.ite ((declareFailed_down ..).after ((alkCondition_down ..).after ((writeGate_down ..).after ((down_of_only (mqSend_only ..)).after ((down_of_only (modMon_only ..))))))) ((down_of_only (mqSend_only ..)).after ((down_of_only (modMon_only ..))))))) (.ite ((declareFailed_down ..).after ((alkCondition_down ..).after ((writeGate_down ..).after ((down_of_only (mqSend_only ..)).after ((down_of_only (modMon_only ..))))))) ((down_of_only (mqSend_only ..)).after ((down_of_only (modMon_only ..))))))))) (.ite ((contactAct_down ..).after ((alkCondition_down ..).after (.ite ((declareFailed_down ..).after ((alkCondition_down ..).after ((writeGate_down ..).after ((down_of_only (mqSend_only ..)).after ((down_of_only (modMon_only ..))))))) ((down_of_only (mqSend_only ..)).after ((down_of_only (modMon_only ..))))))) (.ite ((declareFailed_down ..).after ((alkCondition_down ..).after ((writeGate_down ..).after ((down_of_only (mqSend_only ..)).after ((down_of_only (modMon_only ..))))))) ((down_of_only (mqSend_only ..)).after ((down_of_only (modMon_only ..)))))))) (.ite ((down_of_only (voidArm_only ..)).after ((alkCondition_down ..).after ((down_of_only (modHead_only ..)).after (.ite ((contactAct_down ..).after ((alkCondition_down ..).after (.ite ((declareFailed_down ..).after ((alkCondition_down ..).after ((writeGate_down ..).after ((down_of_only (mqSend_only ..)).after ((down_of_only (modMon_only ..))))))) ((down_of_only (mqSend_only ..)).after ((down_of_only (modMon_only ..))))))) (.ite ((declareFailed_down ..).after ((alkCondition_down ..).after ((writeGate_down ..).after ((down_of_only (mqSend_only ..)).after ((down_of_only (modMon_only ..))))))) ((down_of_only (mqSend_only ..)).after ((down_of_only (modMon_only ..))))))))) (.ite ((contactAct_down ..).after ((alkCondition_down ..).after (.ite ((declareFailed_down ..).after ((alkCondition_down ..).after ((writeGate_down ..).after ((down_of_only (mqSend_only ..)).after ((down_of_only (modMon_only ..))))))) ((down_of_only (mqSend_only ..)).after ((down_of_only (modMon_only ..))))))) (.ite ((declareFailed_down ..).after ((alkCondition_down ..).after ((writeGate_down ..).after ((down_of_only (mqSend_only ..)).after ((down_of_only (modMon_only ..))))))) ((down_of_only (mqSend_only ..)).after ((down_of_only (modMon_only ..))))))))))))) (.ite (.each (fun _ _ => (down_of_only (alkPut_only ..))) (.ite ((down_of_only (voidArm_only ..)).after (.ite ((alkCondition_down ..).after (.ite ((down_of_only (voidArm_only ..)).after ((alkCondition_down ..).after ((down_of_only (modHead_only ..)).after (.ite ((contactAct_down ..).after ((alkCondition_down ..).after (.ite ((declareFailed_down ..).after ((alkCondition_down ..).after ((writeGate_down ..).after ((down_of_only (mqSend_only ..)).after ((down_of_only (modMon_only ..))))))) ((down_of_only (mqSend_only ..)).after ((down_of_only (modMon_only ..))))))) (.ite ((declareFailed_down ..).after ((alkCondition_down ..).after ((writeGate_down ..).after ((down_of_only (mqSend_only ..)).after ((down_of_only (modMon_only ..))))))) ((down_of_only (mqSend_only ..)).after ((down_of_only (modMon_only ..))))))))) (.ite ((contactAct_down ..).after ((alkCondition_down ..).after (.ite ((declareFailed_down ..).after ((alkCondition_down ..).after ((writeGate_down ..).after ((down_of_only (mqSend_only ..)).after ((down_of_only (modMon_only ..))))))) ((down_of_only (mqSend_only ..)).after ((down_of_only (modMon_only ..))))))) (.ite ((declareFailed_down ..).after ((alkCondition_down ..).after ((writeGate_down ..).after ((down_of_only (mqSend_only ..)).after ((down_of_only (modMon_only ..))))))) ((down_of_only (mqSend_only ..)).after ((down_of_only (modMon_only ..)))))))) (.ite ((down_of_only (voidArm_only ..)).after ((alkCondition_down ..).after ((down_of_only (modHead_only ..)).after (.ite ((contactAct_down ..).after ((alkCondition_down ..).after (.ite ((declareFailed_down ..).after ((alkCondition_down ..).after ((writeGate_down ..).after ((down_of_only (mqSend_only ..)).after ((down_of_only (modMon_only ..))))))) ((down_of_only (mqSend_only ..)).after ((down_of_only (modMon_only ..))))))) (.ite ((declareFailed_down ..).after ((alkCondition_down ..).after ((writeGate_down ..).after ((down_of_only (mqSend_only ..)).after ((down_of_only (modMon_only ..))))))) ((down_of_only (mqSend_only ..)).after ((down_of_only (modMon_only ..))))))))) (.ite ((contactAct_down ..).after ((alkCondition_down ..).after (.ite ((declareFailed_down ..).after ((alkCondition_down ..).after ((writeGate_down ..).after ((down_of_only (mqSend_only ..)).after ((down_of_only (modMon_only ..))))))) ((down_of_only (mqSend_only ..)).after ((down_of_only (modMon_only ..))))))) (.ite ((declareFailed_down ..).after ((alkCondition_down ..).after ((writeGate_down ..).after ((down_of_only (mqSend_only ..)).after ((down_of_only (modMon_only ..))))))) ((down_of_only (mqSend_only ..)).after ((down_of_only (modMon_only ..))))))))) (.ite ((alkCondition_down ..).after (.ite ((down_of_only (voidArm_only ..)).after ((alkCondition_down ..).after ((down_of_only (modHead_only ..)).after (.ite ((contactAct_down ..).after ((alkCondition_down ..).after (.ite ((declareFailed_down ..).after ((alkCondition_down ..).after ((writeGate_down ..).after ((down_of_only (mqSend_only ..)).after ((down_of_only (modMon_only ..))))))) ((down_of_only (mqSend_only ..)).after ((down_of_only (modMon_only ..))))))) (.ite ((declareFailed_down ..).after ((alkCondition_down ..).after ((writeGate_down ..).after ((down_of_only (mqSend_only ..)).after ((down_of_only (modMon_only ..))))))) ((down_of_only (mqSend_only ..)).after ((down_of_only (modMon_only ..))))))))) (.ite ((contactAct_down ..).after ((alkCondition_down ..).after (.ite ((declareFailed_down ..).after ((alkCondition_down ..).after ((writeGate_down ..).after ((down_of_only (mqSend_only ..)).after ((down_of_only (modMon_only ..))))))) ((down_of_only (mqSend_only ..)).after ((down_of_only (modMon_only ..))))))) (.ite ((declareFailed_down ..).after ((alkCondition_down ..).after ((writeGate_down ..).after ((down_of_only (mqSend_only ..)).after ((down_of_only (modMon_only ..))))))) ((down_of_only (mqSend_only ..)).after ((down_of_only (modMon_only ..)))))))) (.ite ((down_of_only (voidArm_only ..)).after ((alkCondition_down ..).after ((down_of_only (modHead_only ..)).after (.ite ((contactAct_down ..).after ((alkCondition_down ..).after (.ite ((declareFailed_down ..).after ((alkCondition_down ..).after ((writeGate_down ..).after ((down_of_only (mqSend_only ..)).after ((down_of_only (modMon_only ..))))))) ((down_of_only (mqSend_only ..)).after ((down_of_only (modMon_only ..))))))) (.ite ((declareFailed_down ..).after ((alkCondition_down ..).after ((writeGate_down ..).after ((down_of_only (mqSend_only ..)).after ((down_of_only (modMon_only ..))))))) ((down_of_only (mqSend_only ..)).after ((down_of_only (modMon_only ..))))))))) (.ite ((contactAct_down ..).after ((alkCondition_down ..).after (.ite ((declareFailed_down ..).after ((alkCondition_down ..).after ((writeGate_down ..).after ((down_of_only (mqSend_only ..)).after ((down_of_only (modMon_only ..))))))) ((down_of_only (mqSend_only ..)).after ((down_of_only (modMon_only ..))))))) (.ite ((declareFailed_down ..).after ((alkCondition_down ..).after ((writeGate_down ..).after ((down_of_only (mqSend_only ..)).after ((down_of_only (modMon_only ..))))))) ((down_of_only (mqSend_only ..)).after ((down_of_only (modMon_only ..)))))))))) (.ite ((down_of_only (voidArm_only ..)).after (.ite ((alkCondition_down ..).after (.ite ((down_of_only (voidArm_only ..)).after ((alkCondition_down ..).after ((down_of_only (modHead_only ..)).after (.ite ((contactAct_down ..).after ((alkCondition_down ..).after (.ite ((declareFailed_down ..).after ((alkCondition_down ..).after ((writeGate_down ..).after ((down_of_only (mqSend_only ..)).after ((down_of_only (modMon_only ..))))))) ((down_of_only (mqSend_only ..)).after ((down_of_only (modMon_only ..))))))) (.ite ((declareFailed_down ..).after ((alkCondition_down ..).after ((writeGate_down ..).after ((down_of_only (mqSend_only ..)).after ((down_of_only (modMon_only ..))))))) ((down_of_only (mqSend_only ..)).after ((down_of_only (modMon_only ..))))))))) (.ite ((contactAct_down ..).after ((alkCondition_down ..).after (.ite ((declareFailed_down ..).after ((alkCondition_down ..).after ((writeGate_down ..).after ((down_of_only (mqSend_only ..)).after ((down_of_only (modMon_only ..))))))) ((down_of_only (mqSend_only ..)).after ((down_of_only (modMon_only ..))))))) (.ite ((declareFailed_down ..).after ((alkCondition_down ..).after ((writeGate_down ..).after ((down_of_only (mqSend_only ..)).after ((down_of_only (modMon_only ..))))))) ((down_of_only (mqSend_only ..)).after ((down_of_only (modMon_only ..)))))))) (.ite ((down_of_only (voidArm_only ..)).after ((alkCondition_down ..).after ((down_of_only (modHead_only ..)).after (.ite ((contactAct_down ..).after ((alkCondition_down ..).after (.ite ((declareFailed_down ..).after ((alkCondition_down ..).after ((writeGate_down ..).after ((down_of_only (mqSend_only ..)).after ((down_of_only (modMon_only ..))))))) ((down_of_only (mqSend_only ..)).after ((down_of_only (modMon_only ..))))))) (.ite ((declareFailed_down ..).after ((alkCondition_down ..).after ((writeGate_down ..).after ((down_of_only (mqSend_only ..)).after ((down_of_only (modMon_only ..))))))) ((down_of_only (mqSend_only ..)).after ((down_of_only (modMon_only ..))))))))) (.ite ((contactAct_down ..).after ((alkCondition_down ..).after (.ite ((declareFailed_down ..).after ((alkCondition_down ..).after ((writeGate_down ..).after ((down_of_only (mqSend_only ..)).after ((down_of_only (modMon_only ..))))))) ((down_of_only (mqSend_only ..)).after ((down_of_only (modMon_only ..))))))) (.ite ((declareFailed_down ..).after ((alkCondition_down ..).after ((writeGate_down ..).after ((down_of_only (mqSend_only ..)).after ((down_of_only (modMon_only ..))))))) ((down_of_only (mqSend_only ..)).after ((down_of_only (modMon_only ..))))))))) (.ite ((alkCondition_down ..).after (.ite ((down_of_only (voidArm_only ..)).after ((alkCondition_down ..).after ((down_of_only (modHead_only ..)).after (.ite ((contactAct_down ..).after ((alkCondition_down ..).after (.ite ((declareFailed_down ..).after ((alkCondition_down ..).after ((writeGate_down ..).after ((down_of_only (mqSend_only ..)).after ((down_of_only (modMon_only ..))))))) ((down_of_only (mqSend_only ..)).after ((down_of_only (modMon_only ..))))))) (.ite ((declareFailed_down ..).after ((alkCondition_down ..).after ((writeGate_down ..).after ((down_of_only (mqSend_only ..)).after ((down_of_only (modMon_only ..))))))) ((down_of_only (mqSend_only ..)).after ((down_of_only (modMon_only ..))))))))) (.ite ((contactAct_down ..).after ((alkCondition_down ..).after (.ite ((declareFailed_down ..).after ((alkCondition_down ..).after ((writeGate_down ..).after ((down_of_only (mqSend_only ..)).after ((down_of_only (modMon_only ..))))))) ((down_of_only (mqSend_only ..)).after ((down_of_only (modMon_only ..))))))) (.ite ((declareFailed_down ..).after ((alkCondition_down ..).after ((writeGate_down ..).after ((down_of_only (mqSend_only ..)).after ((down_of_only (modMon_only ..))))))) ((down_of_only (mqSend_only ..)).after ((down_of_only (modMon_only ..)))))))) (.ite ((down_of_only (voidArm_only ..)).after ((alkCondition_down ..).after ((down_of_only (modHead_only ..)).after (.ite ((contactAct_down ..).after ((alkCondition_down ..).after (.ite ((declareFailed_down ..).after ((alkCondition_down ..).after ((writeGate_down ..).after ((down_of_only (mqSend_only ..)).after ((down_of_only (modMon_only ..))))))) ((down_of_only (mqSend_only ..)).after ((down_of_only (modMon_only ..))))))) (.ite ((declareFailed_down ..).after ((alkCondition_down ..).after ((writeGate_down ..).after ((down_of_only (mqSend_only ..)).after ((down_of_only (modMon_only ..))))))) ((down_of_only (mqSend_only ..)).after ((down_of_only (modMon_only ..))))))))) (.ite ((contactAct_down ..).after ((alkCondition_down ..).after (.ite ((declareFailed_down ..).after ((alkCondition_down ..).after ((writeGate_down ..).after ((down_of_only (mqSend_only ..)).after ((down_of_only (modMon_only ..))))))) ((down_of_only (mqSend_only ..)).after ((down_of_only (modMon_only ..))))))) (.ite ((declareFailed_down ..).after ((alkCondition_down ..).after ((writeGate_down ..).after ((down_of_only (mqSend_only ..)).after ((down_of_only (modMon_only ..))))))) ((down_of_only (mqSend_only ..)).after ((down_of_only (modMon_only ..)))))))))))))
theorem execPortStatus_down (arm word s) : DownNext s (execPortStatus arm word s) := by
  unfold execPortStatus
  exact .live (DownNext.next (.ite ((failStop_down ..).after ((alkCondition_down ..).after (.each (fun _ _ => (down_of_only (armDark_only ..)).after ((down_of_only (modAlk_only ..)))) ((down_of_only (alkMute_only ..)).after ((down_of_only (modAlk_only ..))))))) ((down_of_only (modAlk_only ..)))))
theorem execPwmPeriod_down (m s) : DownNext s (execPwmPeriod m s) := by
  unfold execPwmPeriod
  refine .live ?_
  refine DownNext.next ?_
  split
  · split
    · exact .upd (.upd (.upd .refl))
    · exact .upd (.upd .refl)
  · refine .ite ?_ ?_
    · refine .ite ?_ ?_
      · refine .upd ?_
        split
        · exact .upd (.upd (.upd .refl))
        · exact .upd (.upd .refl)
      · refine (overvoltage_down ..).after ?_
        refine .upd ?_
        split
        · exact .upd (.upd (.upd .refl))
        · exact .upd (.upd .refl)
    · refine (goodPeriod_down ..).after ?_
      refine .upd ?_
      split
      · exact .upd (.upd (.upd .refl))
      · exact .upd (.upd .refl)
theorem execOffsetMeasureDone_down (s) : DownNext s (execOffsetMeasureDone s) := by
  unfold execOffsetMeasureDone
  exact .live (DownNext.next (.ite (.ite (Holding.spindleFault (fun _ => (senseLost_down ..)) .refl) ((down_of_only (startCatch_only ..)).after (.upd .refl))) .refl))
theorem execCatchMeasureDone_down (s) : DownNext s (execCatchMeasureDone s) := by
  unfold execCatchMeasureDone
  exact .live (DownNext.next (.ite ((classifyCatch_down ..).after (.upd .refl)) .refl))
theorem execSlowWaitTimeout_down (s) : DownNext s (execSlowWaitTimeout s) := by
  unfold execSlowWaitTimeout
  exact .live (DownNext.next (.ite (Holding.spindleFault (fun _ => (spindleLost_down ..)) ((down_of_only (startCoast_only ..)))) .refl))
theorem execHandoffTimeout_down (s) : DownNext s (execHandoffTimeout s) := by
  unfold execHandoffTimeout
  exact .live (DownNext.next (.ite (.ite (Holding.spindleFault (fun _ => (spindleLost_down ..)) ((down_of_only (startCoast_only ..)).after (.upd .refl))) ((startSlowWait_down ..).after (.upd (.upd .refl)))) .refl))
theorem execSpinupComplete_down (s) : DownNext s (execSpinupComplete s) := by
  unfold execSpinupComplete
  exact .live (DownNext.next (.unless (fun h => by rcases h with h | h <;> simp [h]) .refl))
theorem execSuTimeout_down (s) : DownNext s (execSuTimeout s) := by
  unfold execSuTimeout
  exact .live (DownNext.next (.ite (Holding.spindleFault (fun _ => (spindleLost_down ..)) .refl) .refl))
theorem execObserverLockLoss_down (s) : DownNext s (execObserverLockLoss s) := by
  unfold execObserverLockLoss
  exact .live (DownNext.next (.ite (.ite (Holding.spindleFault (fun _ => (down_of_only (startOffsets_only ..)).after ((down_of_only (openCause_only ..)).after ((down_of_only (catchOwed_only ..))))) (.ite (.upd .refl) ((down_of_only (gatesOff_only ..)).after (.upd .refl)))) (.upd .refl)) .refl))
theorem execSenseFault_down (offsets s) : DownNext s (execSenseFault offsets s) := by
  unfold execSenseFault
  exact .live (DownNext.next (.ite (Holding.spindleFault (fun _ => (senseLost_down ..)) (.upd .refl)) .refl))
theorem execBusOvRecover_down (s) : DownNext s (execBusOvRecover s) := by
  unfold execBusOvRecover
  exact .live (DownNext.next (.ite (.ite ((trySpinUp_down ..).after (.upd .refl)) (.ite (.upd .refl) (.ite ((down_of_only (spindleStop_only ..)).after (.upd .refl)) (.ite ((down_of_only (startOffsets_only ..)).after (.upd .refl)) (.ite (.ite ((down_of_only (startCatch_only ..)).after (.upd .refl)) ((down_of_only (startOffsets_only ..)).after (.upd .refl))) (.upd .refl)))))) .refl))
theorem execBusUndervoltage_down (s) : DownNext s (execBusUndervoltage s) := by
  unfold execBusUndervoltage
  exact .live (DownNext.next (.ite .refl (Holding.spindleFault (fun _ => .refl) .refl)))
theorem execChopperFault_down (which ichop s) : DownNext s (execChopperFault which ichop s) := by
  unfold execChopperFault
  exact .live (DownNext.next (.ite (Holding.spindleFault (fun _ => .refl) (.ite ((down_of_only (startShortBrake_only ..)).after (.upd .refl)) (.upd .refl))) .refl))
theorem execGeneratorExhausted_down (s) : DownNext s (execGeneratorExhausted s) := by
  unfold execGeneratorExhausted
  exact .live (DownNext.next (.ite ((generatorEnd_down ..)) .refl))
theorem execVoltageLimitFault_down (s) : DownNext s (execVoltageLimitFault s) := by
  unfold execVoltageLimitFault
  exact .live (DownNext.next (.ite (Holding.spindleFault (fun _ => .refl) .refl) .refl))
theorem execSpeedSample_down (o s) : DownNext s (execSpeedSample o s) := by
  unfold execSpeedSample
  exact .live (DownNext.next (.ite .refl ((runCtx_down ..).after (.ite (.each (fun _ _ => (down_of_only (requestSwitch_only ..))) (.upd ((down_of_only (speedOf_only ..)).after (.upd .refl)))) (.upd ((down_of_only (speedOf_only ..)).after (.upd .refl)))))))
theorem execSpeedSourceTimeout_down (s) : DownNext s (execSpeedSourceTimeout s) := by
  unfold execSpeedSourceTimeout
  exact .live (DownNext.next (.ite ((failStop_down ..).after ((condition_down ..))) .refl))
theorem execDataWindowMean_down (s) : DownNext s (execDataWindowMean s) := by
  unfold execDataWindowMean
  exact .live (DownNext.next (.ite .refl (.ite ((judgeMean_down ..).after (.upd .refl)) (.upd .refl))))
theorem execDataWindowTimeout_down (s) : DownNext s (execDataWindowTimeout s) := by
  unfold execDataWindowTimeout
  exact .live (DownNext.next (.ite ((enterHold_down ..).after ((down_of_only (openCause_only ..)))) .refl))
theorem execWindowEntryTimeout_down (s) : DownNext s (execWindowEntryTimeout s) := by
  unfold execWindowEntryTimeout
  exact .live (DownNext.next (.ite (Holding.spindleFault (fun _ => (spindleLost_down ..)) .refl) .refl))
theorem execSpindleStopped_down (s) : DownNext s (execSpindleStopped s) := by
  unfold execSpindleStopped
  exact .live (DownNext.next (.ite ((spindleAtRest_down ..)) .refl))
theorem execRefclkLoss_down (s) : DownNext s (execRefclkLoss s) := by
  unfold execRefclkLoss
  exact .live (DownNext.next ((clockFault_down ..)))
theorem execCorePllUnlock_down (s) : DownNext s (execCorePllUnlock s) := by
  unfold execCorePllUnlock
  exact .live (DownNext.next ((clockFault_down ..)))
theorem execLanePllUnlock_down (pll s) : DownNext s (execLanePllUnlock pll s) := by
  unfold execLanePllUnlock
  exact .live (DownNext.next (.ite ((alkLoss_down ..).after (.upd .refl)) ((down_of_only (linkDown_only ..)).after (.upd .refl))))
theorem execSupplyFault_down (rail powerFailFirst s) : DownNext s (execSupplyFault rail powerFailFirst s) := by
  unfold execSupplyFault
  exact .live (DownNext.next (.ite .refl ((clockFault_down ..))))
theorem execAvsStep_down (acked readback s) : DownNext s (execAvsStep acked readback s) := by
  unfold execAvsStep
  refine .live ?_
  refine DownNext.next ?_
  refine .ite .refl ?_
  split
  · exact (avsAnswer_down ..).after ((down_of_only (send_only ..)).after (.upd .refl))
  · exact (avsAnswer_down ..)
theorem execVin12Window_down (c0 c1 c2 c3 s) : DownNext s (execVin12Window c0 c1 c2 c3 s) := by
  unfold execVin12Window
  exact .live (.ite (DownNext.next .refl) (DownNext.next (.ite ((powerFailed_down ..).after (.upd .refl)) (.ite ((down_of_only (post_only ..)).after (.upd (.upd .refl))) (.upd .refl)))))
theorem execPwrFailNLow_down (s) : DownNext s (execPwrFailNLow s) := by
  unfold execPwrFailNLow
  exact .live (DownNext.next ((powerFailed_down ..).after (.upd .refl)))
theorem execDumpStart_down (s) : DownNext s (execDumpStart s) := by
  unfold execDumpStart
  exact .live (DownNext.next (.ite .refl (.ite (.upd .refl) (.ite ((dumpEndedEarly_down ..).after (.upd .refl)) (.upd ((down_of_only (modArea_only ..))))))))
theorem execDumpChunkCommit_down (readsBack s) : DownNext s (execDumpChunkCommit readsBack s) := by
  unfold execDumpChunkCommit
  refine .live ?_
  refine DownNext.next ?_
  refine .ite .refl ?_
  split
  · exact .refl
  · exact .ite ((dumpOver_down ..).after ((down_of_only (post_only ..)).after (.upd (.ite ((down_of_only (modArea_only ..)).after (.upd .refl)) (.upd .refl))))) (.ite ((down_of_only (modArea_only ..)).after (.upd .refl)) (.upd .refl))
theorem execDumpBusLow_down (s) : DownNext s (execDumpBusLow s) := by
  unfold execDumpBusLow
  exact .live (DownNext.next (.ite ((dumpEndedEarly_down ..)) .refl))

end Sys2Proof.Machine
end

section
/-! The commands of the reads, the memories and the flash in Hold-up and in Stopped. -/

namespace Sys2Proof.Machine
set_option Elab.async false

-- The commands of the reads, the memories and the flash in Hold-up and in Stopped.

theorem execServoWedge_down (arm head s) : DownNext s (execServoWedge arm head s) := by
  unfold execServoWedge
  exact .live (DownNext.next (.ite .refl (.ite ((down_of_only (unloadWedge_only ..))) (.ite .refl (.ite ((down_of_only (acquireWedge_only ..)).after ((down_of_only (modArm_only ..)))) ((down_of_only (visitWedge_only ..)).after ((trackWedge_down ..))))))))
theorem execSurfaceMismatch_down (arm head s) : DownNext s (execSurfaceMismatch arm head s) := by
  unfold execSurfaceMismatch
  exact .live (DownNext.next (.ite (.ite ((declareFailed_down ..).after ((servoCondition_down ..).after ((down_of_only (modHead_only ..))))) ((failStop_down ..).after ((down_of_only (unloadArm_only ..)).after ((servoCondition_down ..).after ((down_of_only (modHead_only ..))))))) .refl))
theorem execWedgeLossRun_down (arm head s) : DownNext s (execWedgeLossRun arm head s) := by
  unfold execWedgeLossRun
  exact .live (DownNext.next (.ite ((down_of_only (uaPreset_only ..)).after ((down_of_only (modHead_only ..)).after ((servoCondition_down ..)))) .refl))
theorem execReacquireTimeout_down (arm head s) : DownNext s (execReacquireTimeout arm head s) := by
  unfold execReacquireTimeout
  exact .live (DownNext.next (.ite ((declareFailed_down ..)) .refl))
theorem execStrokeLimitRun_down (arm head s) : DownNext s (execStrokeLimitRun arm head s) := by
  unfold execStrokeLimitRun
  exact .live (DownNext.next (.ite ((down_of_only (reseek_only ..)).after ((servoCondition_down ..).after ((down_of_only (modHead_only ..))))) .refl))
theorem execReaderDisagreeRun_down (arm head s) : DownNext s (execReaderDisagreeRun arm head s) := by
  unfold execReaderDisagreeRun
  exact .live (DownNext.next (.ite ((down_of_only (mqNote_only ..)).after ((servoCondition_down ..).after ((down_of_only (modHead_only ..))))) .refl))
theorem execSettleTimeout_down (arm head s) : DownNext s (execSettleTimeout arm head s) := by
  unfold execSettleTimeout
  refine .live ?_
  refine DownNext.next ?_
  split
  · exact .refl
  · exact .ite .refl (.ite ((servoCondition_down ..).after ((down_of_only (modArm_only ..)))) ((down_of_only (reseek_only ..)).after ((servoCondition_down ..).after ((down_of_only (modArm_only ..))))))
theorem execClearanceEstimate_down (arm head s) : DownNext s (execClearanceEstimate arm head s) := by
  unfold execClearanceEstimate
  exact .live (DownNext.next (.ite .refl (.ite ((down_of_only (modHead_only ..))) (.ite ((contactAct_down ..).after ((down_of_only (modHead_only ..)))) ((clearanceRun_down ..).after ((down_of_only (modHead_only ..))))))))
theorem execArmLoad_down (arm s) : DownNext s (execArmLoad arm s) := by
  unfold execArmLoad
  exact .live (DownNext.next (.ite .refl (.ite ((reloadSpeed_down ..)) (.ite (.each (fun _ _ => (down_of_only (sendMode_only ..)).after ((down_of_only (sendTables_only ..)).after ((down_of_only (coolHead_only ..))))) .refl) ((down_of_only (checkFloor_only ..)).after ((down_of_only (modArm_only ..)).after ((down_of_only (setSetpoint_only ..)).after ((down_of_only (enableCtx_only ..)).after ((down_of_only (vcmSend_only ..)).after (.each (fun _ _ => (down_of_only (modHead_only ..))) (.each (fun _ _ => (down_of_only (sendMode_only ..)).after ((down_of_only (sendTables_only ..)).after ((down_of_only (coolHead_only ..))))) .refl)))))))))))
theorem execLoadAcquireTimeout_down (arm s) : DownNext s (execLoadAcquireTimeout arm s) := by
  unfold execLoadAcquireTimeout
  exact .live (DownNext.next (.ite .refl (.ite (.ite ((down_of_only (unloadArm_only ..))) ((failStop_down ..).after (.each (fun _ _ => (declareFailed_down ..)) .refl))) (.ite ((down_of_only (unloadAgain_only ..))) (.ite ((loadFailure_down ..)) (.ite (.each (fun _ _ => (down_of_only (modHead_only ..))) (.each (fun _ _ => (declareFailed_down ..)) .refl)) ((down_of_only (closePosition_only ..)).after (.each (fun _ _ => (down_of_only (modHead_only ..))) (.each (fun _ _ => (declareFailed_down ..)) .refl)))))))))
theorem execRetractedWaitTimeout_down (arm s) : DownNext s (execRetractedWaitTimeout arm s) := by
  unfold execRetractedWaitTimeout
  exact .live (DownNext.next (.ite ((vcmFault_down ..)) .refl))
theorem execUnloadComplete_down (arm s) : DownNext s (execUnloadComplete arm s) := by
  unfold execUnloadComplete
  exact .live (DownNext.next (.ite ((unloaded_down ..)) .refl))
theorem execUnloadTimeout_down (arm s) : DownNext s (execUnloadTimeout arm s) := by
  unfold execUnloadTimeout
  exact .live (DownNext.next (.ite ((unloaded_down ..).after ((servoCondition_down ..))) .refl))
theorem execVcmDiFrame_down (arm f s) : DownNext s (execVcmDiFrame arm f s) := by
  unfold execVcmDiFrame
  exact .live (DownNext.next (.ite .refl (.ite (.ite ((vcmFault_down ..).after ((servoCondition_down ..).after ((down_of_only (modArm_only ..))))) ((servoCondition_down ..).after ((down_of_only (modArm_only ..))))) (.ite ((vcmFault_down ..).after ((down_of_only (modArm_only ..)))) (.ite ((velocityRun_down ..).after ((down_of_only (modArm_only ..)))) ((down_of_only (modArm_only ..))))))))
theorem execVcmReload_down (arm s) : DownNext s (execVcmReload arm s) := by
  unfold execVcmReload
  exact .live (DownNext.next (.ite (.ite ((reloadSpeed_down ..).after ((down_of_only (modArm_only ..)))) ((failStop_down ..))) .refl))
theorem execVcmReloadTimeout_down (arm s) : DownNext s (execVcmReloadTimeout arm s) := by
  unfold execVcmReloadTimeout
  exact .live (DownNext.next (.ite ((failStop_down ..)) .refl))
theorem execLoopExecute_down (ctx input o s) : DownNext s (execLoopExecute ctx input o s) := by
  unfold execLoopExecute
  exact .live (DownNext.next (.ite ((vcmRun_down ..)) (.ite ((uaRun_down ..)) (.ite ((clearanceRun_down ..)) (.ite ((velocityRun_down ..)) (.ite ((runCtx_down ..).after ((down_of_only (enableCtx_only ..)))) ((runCtx_down ..))))))))
theorem execLoopSwitchTimeout_down (ctx s) : DownNext s (execLoopSwitchTimeout ctx s) := by
  unfold execLoopSwitchTimeout
  exact .live (DownNext.next (.ite .refl (.ite (.ite ((down_of_only (unloadAgain_only ..)).after ((report_down ..).after ((down_of_only (modCtx_only ..))))) (.ite ((loadFailure_down ..).after ((down_of_only (modCtx_only ..)))) ((declareFailed_down ..).after ((report_down ..).after ((down_of_only (modCtx_only ..))))))) ((failStop_down ..).after ((servoCondition_down ..).after ((down_of_only (modCtx_only ..))))))))
theorem execPreambleSearch_down (island slot s) : DownNext s (execPreambleSearch island slot s) := by
  unfold execPreambleSearch
  refine .live ?_
  refine DownNext.next ?_
  refine .ite .refl ?_
  split
  · exact (visitFrame_down ..)
  · exact .ite .refl (.ite ((offTrackFrame_down ..).after ((pushEntry_down ..).after ((down_of_only (modIsl_only ..))))) ((detectEntry_down ..).after ((pushEntry_down ..).after ((down_of_only (modIsl_only ..))))))
theorem execSecondCandidateRebuild_down (island s) : DownNext s (execSecondCandidateRebuild island s) := by
  unfold execSecondCandidateRebuild
  refine .live ?_
  refine DownNext.next ?_
  split
  · exact .refl
  · refine .ite .refl ?_
    extract_lets
    split
    · exact (down_of_only (modIsl_only ..))
    · split
      · exact .ite ((lostFrame_down ..).after ((down_of_only (modIsl_only ..)))) (.ite ((lostFrame_down ..).after ((down_of_only (tooErased_only ..)).after ((down_of_only (modIsl_only ..)).after (.ite ((down_of_only (enterRung_only ..)).after ((down_of_only (modIsl_only ..)))) ((down_of_only (modIsl_only ..))))))) ((down_of_only (enqueue_only ..)).after ((down_of_only (modIsl_only ..)).after ((down_of_only (modIsl_only ..)).after (.ite ((down_of_only (enterRung_only ..)).after ((down_of_only (modIsl_only ..)))) ((down_of_only (modIsl_only ..))))))))
      · exact (lostFrame_down ..).after ((down_of_only (modIsl_only ..)))
theorem execRawResultHandle_down (island s) : DownNext s (execRawResultHandle island s) := by
  unfold execRawResultHandle
  refine .live ?_
  refine DownNext.next ?_
  split
  · exact .refl
  · extract_lets
    split
    · exact (checkDone_down ..).after ((down_of_only (modMq_only ..)))
    · exact (down_of_only (repairDone_only ..)).after ((down_of_only (modMq_only ..)))
    · exact (down_of_only (modMq_only ..))
theorem execIslandFail_down (island why s) : DownNext s (execIslandFail island why s) := by
  unfold execIslandFail
  exact .live (DownNext.next ((failIsland_down ..)))
theorem execIslandReassign_down (arm head island s) : DownNext s (execIslandReassign arm head island s) := by
  unfold execIslandReassign
  exact .live (DownNext.next (.ite .refl (.ite (.ite .refl ((down_of_only (modIsl_only ..)))) ((steerHead_down ..).after (.ite .refl ((down_of_only (modIsl_only ..))))))))
theorem execThermalSensorRead_down (t s) : DownNext s (execThermalSensorRead t s) := by
  unfold execThermalSensorRead
  exact .live (DownNext.next (.ite (.upd .refl) ((thermalReading_down ..).after (.upd .refl))))
theorem execTempTelemetry_down (arm word s) : DownNext s (execTempTelemetry arm word s) := by
  unfold execTempTelemetry
  exact .live (DownNext.next ((thermalReading_down ..).after ((thermalReading_down ..).after ((down_of_only (modAlk_only ..))))))
theorem execSensorUnreported_down (sensor s) : DownNext s (execSensorUnreported sensor s) := by
  unfold execSensorUnreported
  exact .live (DownNext.next ((thermalUnreported_down ..)))
theorem execDecodeDone_down (engine s) : DownNext s (execDecodeDone engine s) := by
  unfold execDecodeDone
  refine .live ?_
  refine DownNext.next ?_
  split
  · exact .refl
  · extract_lets
    split
    all_goals exact .ite (.ite ((down_of_only (visitDecoded_only ..)).after ((down_of_only (countIterations_only ..)))) ((codewordFailed_down ..).after ((down_of_only (countIterations_only ..))))) (.ite (.ite ((down_of_only (visitDecoded_only ..)).after ((down_of_only (post_only ..)).after (.upd ((down_of_only (countIterations_only ..)))))) ((codewordFailed_down ..).after ((down_of_only (post_only ..)).after (.upd ((down_of_only (countIterations_only ..))))))) (.ite (.ite ((down_of_only (visitDecoded_only ..)).after ((down_of_only (post_only ..)).after (.upd ((down_of_only (countIterations_only ..)))))) ((codewordFailed_down ..).after ((down_of_only (post_only ..)).after (.upd ((down_of_only (countIterations_only ..))))))) (.ite ((down_of_only (visitDecoded_only ..)).after ((down_of_only (countIterations_only ..)))) ((codewordPassed_down ..).after ((down_of_only (countIterations_only ..)))))))
theorem execEngineTimeout_down (engine why s) : DownNext s (execEngineTimeout engine why s) := by
  unfold execEngineTimeout
  exact .live (DownNext.next (.ite .refl ((failEngine_down ..))))
theorem execQueueSlotUe_down (slot s) : DownNext s (execQueueSlotUe slot s) := by
  unfold execQueueSlotUe
  refine .live ?_
  refine DownNext.next ?_
  split
  · exact (codewordFailed_down ..).after ((report_down ..))
  · exact .refl
theorem execRowCommit_down (row s) : DownNext s (execRowCommit row s) := by
  unfold execRowCommit
  refine .live ?_
  refine DownNext.next ?_
  split
  · exact .refl
  · exact .ite .refl (.ite ((down_of_only (restartRow_only ..))) ((commitRow_down ..)))
theorem execHeadFailDeclare_down (arm head s) : DownNext s (execHeadFailDeclare arm head s) := by
  unfold execHeadFailDeclare
  exact .live (DownNext.next (.ite ((down_of_only (mendFailed_only ..)).after ((declareFailed_down ..))) .refl))
theorem execIslandGateOff_down (arm s) : DownNext s (execIslandGateOff arm s) := by
  unfold execIslandGateOff
  refine .live ?_
  refine DownNext.next ?_
  split
  · exact .refl
  · exact .ite .refl ((advancePark_down ..).after (.each (fun _ _ => (down_of_only (forgetRow_only ..))) ((down_of_only (passesEnded_only ..)).after (.upd (.ite (.upd ((down_of_only (freeInner_only ..)).after ((visitEnded_down ..).after (.each (fun _ _ => .ite ((down_of_only (laserOff_only ..))) ((down_of_only (restHead_only ..)))) .refl)))) ((down_of_only (freeInner_only ..)).after ((visitEnded_down ..).after (.each (fun _ _ => .ite ((down_of_only (laserOff_only ..))) ((down_of_only (restHead_only ..)))) .refl))))))))
theorem execBudgetPwmPeriod_down (period high s) : DownNext s (execBudgetPwmPeriod period high s) := by
  unfold execBudgetPwmPeriod
  exact .live (DownNext.next (.ite ((decodedPwm_down ..).after (.upd (.upd .refl))) (.upd .refl)))
theorem execBpwmHoldExpiry_down (s) : DownNext s (execBpwmHoldExpiry s) := by
  unfold execBpwmHoldExpiry
  exact .live (DownNext.next (.ite ((decodedPwm_down ..).after ((down_of_only (post_only ..)).after (.upd .refl))) .refl))
theorem execPwmRiseSettle_down (s) : DownNext s (execPwmRiseSettle s) := by
  unfold execPwmRiseSettle
  exact .live (DownNext.next (.ite ((refreshBudget_down ..).after (.upd (.upd .refl))) .refl))
theorem execMigrationStart_down (logical cause s) : DownNext s (execMigrationStart logical cause s) := by
  unfold execMigrationStart
  exact .live (DownNext.next (.ite ((migrate_down ..)) .refl))
theorem execScrubRead_down (channel syndromes s) : DownNext s (execScrubRead channel syndromes s) := by
  unfold execScrubRead
  exact .live (DownNext.next (.ite .refl (.ite ((migrate_down ..).after (.each (fun _ _ => (scrubBeat_down ..)) (.ite ((down_of_only (modChan_only ..))) ((down_of_only (mqNote_only ..)).after ((down_of_only (modChan_only ..))))))) (.ite ((migrate_down ..).after (.each (fun _ _ => (scrubBeat_down ..)) (.ite ((down_of_only (modChan_only ..))) ((down_of_only (mqNote_only ..)).after ((down_of_only (modChan_only ..))))))) (.each (fun _ _ => (scrubBeat_down ..)) (.ite ((down_of_only (modChan_only ..))) ((down_of_only (mqNote_only ..)).after ((down_of_only (modChan_only ..))))))))))
theorem execDescriptorStart_down (ch s) : DownNext s (execDescriptorStart ch s) := by
  unfold execDescriptorStart
  exact .live (DownNext.next (.ite ((startDesc_down ..)) .refl))
theorem execDescriptorDone_down (ch s) : DownNext s (execDescriptorDone ch s) := by
  unfold execDescriptorDone
  refine .live ?_
  refine DownNext.next ?_
  split
  · exact .refl
  · refine .ite .refl ?_
    split
    · exact Holding.of_eq_snd ((moveElems_down ..)) ‹_›
    · exact (down_of_only (dropDesc_only ..)).after ((down_of_only (pulseDone_only ..)).after ((down_of_only (finishDesc_only ..)).after (Holding.of_eq_snd ((moveElems_down ..)) ‹_›)))
theorem execChannelHalt_down (ch cause address element s) : DownNext s (execChannelHalt ch cause address element s) := by
  unfold execChannelHalt
  refine .live ?_
  refine DownNext.next ?_
  split
  · exact .refl
  · refine .ite ?_ (.ite ((haltChannel_down ..)) .refl)
    split
    · exact Holding.of_eq_snd ((moveElems_down ..)) ‹_›
    · exact (haltChannel_down ..).after (Holding.of_eq_snd ((moveElems_down ..)) ‹_›)
theorem execMillpondUe_down (requester c s) : DownNext s (execMillpondUe requester c s) := by
  unfold execMillpondUe
  exact .live (DownNext.next ((down_of_only (ueResponse_only ..)).after ((haltRequester_down ..).after ((report_down ..).after ((down_of_only (post_only ..)).after ((down_of_only (ueCounted_only ..))))))))
theorem execTreCancel_down (ch ctx sourcePresent s) : DownNext s (execTreCancel ch ctx sourcePresent s) := by
  unfold execTreCancel
  exact .live (DownNext.next ((cancelCtx_down ..)))
theorem execTreRetry_down (ch s) : DownNext s (execTreRetry ch s) := by
  unfold execTreRetry
  refine .live ?_
  refine DownNext.next ?_
  split
  · exact .ite .refl (.ite ((startDesc_down ..)) ((down_of_only (modTre_only ..))))
  · exact .refl
theorem execTreRestart_down (ch s) : DownNext s (execTreRestart ch s) := by
  unfold execTreRestart
  exact .live (DownNext.next (.ite ((startDesc_down ..)) .refl))
theorem execWdataTimeout_down (p tag s) : DownNext s (execWdataTimeout p tag s) := by
  unfold execWdataTimeout
  refine .live ?_
  refine DownNext.next ?_
  split
  · exact .ite ((abortCmd_down ..).after ((down_of_only (modHopPort_only ..)))) .refl
  · exact .refl
theorem execMqPacketWrite_down (q words s) : DownNext s (execMqPacketWrite q words s) := by
  unfold execMqPacketWrite
  exact .live (DownNext.next (.ite ((report_down ..)) ((down_of_only (mqSend_only ..)))))
theorem execMqProducerTimeout_down (q producer s) : DownNext s (execMqProducerTimeout q producer s) := by
  unfold execMqProducerTimeout
  refine .live ?_
  refine DownNext.next ?_
  split
  · exact .refl
  · extract_lets
    split
    · exact .ite (.each (fun _ _ => (down_of_only (voidSector_only ..))) ((report_down ..).after ((down_of_only (post_only ..)).after ((down_of_only (mqAdvance_only ..)).after ((down_of_only (modMq_only ..))))))) ((report_down ..).after ((down_of_only (post_only ..)).after ((down_of_only (mqAdvance_only ..)).after ((down_of_only (modMq_only ..))))))
    · exact (report_down ..).after ((down_of_only (post_only ..)).after ((down_of_only (mqAdvance_only ..)).after ((down_of_only (modMq_only ..)))))
theorem execMqPop_down (q ue s) : DownNext s (execMqPop q ue s) := by
  unfold execMqPop
  refine .live ?_
  refine DownNext.next ?_
  split
  · exact (down_of_only (modMq_only ..))
  · exact .ite ((down_of_only (mqAdvance_only ..)).after ((report_down ..).after ((down_of_only (dropPacket_only ..)).after ((down_of_only (send_only ..)))))) ((down_of_only (mqAdvance_only ..)).after ((down_of_only (mqTake_only ..))))
theorem execFaultReport_down (rs s) : DownNext s (execFaultReport rs s) := by
  unfold execFaultReport
  exact .live (DownNext.next ((reportAll_down ..)))
theorem execFaultHoldRelease_down (s) : DownNext s (execFaultHoldRelease s) := by
  unfold execFaultHoldRelease
  exact .live (DownNext.next (.unless (fun h => by rcases h with h | h <;> simp [h]) .refl))
theorem execFailStop_down (cause s) : DownNext s (execFailStop cause s) := by
  unfold execFailStop
  exact .live (DownNext.next ((failStop_down ..)))
theorem execCoreTrap_down (core mem inHandler injected s) : DownNext s (execCoreTrap core mem inHandler injected s) := by
  unfold execCoreTrap
  exact .live (DownNext.next ((coreTrap_down ..)))
theorem execSramPatrol_down (mem offset data check live_ otherBad s) : DownNext s (execSramPatrol mem offset data check live_ otherBad s) := by
  unfold execSramPatrol
  refine .live ?_
  refine DownNext.next ?_
  split
  · exact .refl
  · exact (countCorrected_down ..).after ((report_down ..).after ((down_of_only (dropTag_only ..))))
  · exact .ite ((report_down ..).after (.ite .refl ((down_of_only (dropTag_only ..))))) (.ite (.ite ((failStopInj_down ..).after ((report_down ..).after (.ite .refl ((down_of_only (dropTag_only ..)))))) ((down_of_only (dropTag_only ..)).after ((report_down ..).after (.ite .refl ((down_of_only (dropTag_only ..))))))) ((patrolResponse_down ..).after ((report_down ..).after (.ite .refl ((down_of_only (dropTag_only ..)))))))

end Sys2Proof.Machine
end

section
/-! The commands of the host and the records in Hold-up and in Stopped. -/

namespace Sys2Proof.Machine
set_option Elab.async false

-- The commands of the host and the records in Hold-up and in Stopped.

theorem execFlashPageRead_down (who p sector steps s) : DownNext s (execFlashPageRead who p sector steps s) := by
  unfold execFlashPageRead
  refine .live ?_
  refine DownNext.next ?_
  extract_lets
  split
  · exact (flashRefused_down ..)
  · exact .ite ((flashRefused_down ..)) (.ite (.ite ((down_of_only (flashAnswer_only ..)).after ((flashFault_down ..).after (.upd .refl))) (.upd .refl)) ((readSector_down ..)))
theorem execFlashProgram_down (who p first sectors s) : DownNext s (execFlashProgram who p first sectors s) := by
  unfold execFlashProgram
  refine .live ?_
  refine DownNext.next ?_
  split
  · exact (flashRefused_down ..)
  · split
    · refine .ite ((flashRefused_down ..)) ?_
      refine .ite .refl ?_
      refine .ite ((down_of_only (flashAnswer_only ..)).after ((down_of_only (post_only ..)).after (.upd .refl))) ?_
      split
      · exact (down_of_only (flashAnswer_only ..)).after ((flashFault_down ..).after (.upd .refl))
      · exact (down_of_only (modBank_only ..))
theorem execFlashProgramDone_down (bank ok s) : DownNext s (execFlashProgramDone bank ok s) := by
  unfold execFlashProgramDone
  refine .live ?_
  refine DownNext.next ?_
  refine .ite .refl ?_
  refine .ite ?_ ?_
  · refine (serveWaits_down ..).after ?_
    split
    · exact (down_of_only (flashAnswer_only ..)).after ((down_of_only (invalidate_only ..)).after ((down_of_only (modBlk_only ..)).after (.each (fun _ _ => (down_of_only (putFlash_only ..))) ((down_of_only (modBank_only ..))))))
    · exact (down_of_only (invalidate_only ..)).after ((down_of_only (modBlk_only ..)).after (.each (fun _ _ => (down_of_only (putFlash_only ..))) ((down_of_only (modBank_only ..)))))
  · refine (serveWaits_down ..).after ?_
    split
    · exact (down_of_only (flashAnswer_only ..)).after ((retireBlock_down ..).after ((down_of_only (modBank_only ..))))
    · exact (retireBlock_down ..).after ((down_of_only (modBank_only ..)))
theorem execFlashErase_down (who kind bank block s) : DownNext s (execFlashErase who kind bank block s) := by
  unfold execFlashErase
  refine .live ?_
  refine DownNext.next ?_
  split
  · exact (flashRefused_down ..)
  · exact .ite ((flashRefused_down ..)) (.ite .refl (.ite (.ite (.ite ((down_of_only (post_only ..)).after ((moveBlock_down ..))) ((poolEmpty_down ..))) .refl) (.each (fun _ _ => (down_of_only (invalidate_only ..))) ((down_of_only (modBank_only ..)).after (.ite ((down_of_only (modBlk_only ..)).after (.ite (.ite ((down_of_only (post_only ..)).after ((moveBlock_down ..))) ((poolEmpty_down ..))) .refl)) (.ite (.ite ((down_of_only (post_only ..)).after ((moveBlock_down ..))) ((poolEmpty_down ..))) .refl))))))
theorem execFlashEraseDone_down (bank ok s) : DownNext s (execFlashEraseDone bank ok s) := by
  unfold execFlashEraseDone
  refine .live ?_
  refine DownNext.next ?_
  refine .ite .refl ?_
  refine .ite ?_ ?_
  · refine (serveWaits_down ..).after ?_
    split
    · exact (down_of_only (flashAnswer_only ..)).after ((down_of_only (modBlk_only ..)).after (.upd ((down_of_only (modBank_only ..)))))
    · exact (down_of_only (modBlk_only ..)).after (.upd ((down_of_only (modBank_only ..))))
  · refine (serveWaits_down ..).after ?_
    split
    · exact (down_of_only (flashAnswer_only ..)).after ((retireBlock_down ..).after ((down_of_only (modBank_only ..))))
    · exact (retireBlock_down ..).after ((down_of_only (modBank_only ..)))
theorem execBlockRefresh_down (bank block s) : DownNext s (execBlockRefresh bank block s) := by
  unfold execBlockRefresh
  refine .live ?_
  refine DownNext.next ?_
  split
  · exact .refl
  · exact .ite .refl (.ite ((retireBlock_down ..)) (.ite .refl ((down_of_only (post_only ..)).after ((down_of_only (modBlk_only ..)).after ((moveBlock_down ..))))))
theorem execFetchLookup_down (q addr access ue steps s) : DownNext s (execFetchLookup q addr access ue steps s) := by
  unfold execFetchLookup
  refine .live (DownNext.next (.ite ((down_of_only (fetchAnswer_only ..)).after (busReport_down ..)) ?_))
  extract_lets t missed
  have ht : Holding devOf Down s t := by
    unfold t
    split
    · exact .ite ((report_down ..).after (down_of_only (loseLine_only ..))) .refl
    · exact .refl
  clear_value t
  split
  · exact (down_of_only (seeLine_only ..)).after ((down_of_only (fetchAnswer_only ..)).after ((down_of_only (modFce_only ..)).after ((down_of_only (modFcq_only ..)).after ht)))
  · have hm : Holding devOf Down s (seeLine q (addr.toNat / 256) missed) := (down_of_only (seeLine_only ..)).after ((down_of_only (modFcq_only ..)).after ht)
    exact .ite (.ite (.upd hm) ((readLineDirect_down ..).after hm)) (.ite ((busyFault_down ..).after hm) ((down_of_only (joinFill_only ..)).after hm))
theorem execFetchFill_down (s) : DownNext s (execFetchFill s) := by
  unfold execFetchFill
  refine .live ?_
  refine DownNext.next ?_
  split
  · exact .ite (.each (fun _ _ => (busyFault_down ..)) (.upd .refl)) ((down_of_only (beginFill_only ..)).after (.upd .refl))
  · exact .refl
theorem fillLadder_down (f steps s) : Holding devOf Down s (fillLadder f steps s).2 := by
  unfold fillLadder
  split
  · exact .refl
  · split
    · split
      · exact down_of_only (readDone_only ..)
      · exact readLost_down ..
theorem execFillComplete_down (steps s) : DownNext s (execFillComplete steps s) := by
  unfold execFillComplete
  refine .live (DownNext.next ?_)
  split
  · exact .refl
  · next f _ =>
    have hl : Holding devOf Down s (fillLadder f steps { s with fcc := { s.fcc with fill := none } }).2 := (fillLadder_down ..).after (.upd .refl)
    generalize fillLadder f steps { s with fcc := { s.fcc with fill := none } } = p at hl
    obtain ⟨status, t⟩ := p
    refine .ite (.each (fun _ _ => (fillFailed_down ..)) hl) ?_
    have ha : Holding devOf Down s (each f.waiting (fun w s => fetchAnswer w.1 0 f.data s) t) := .each (fun _ _ => (down_of_only (fetchAnswer_only ..))) hl
    split
    · exact .ite ha ((down_of_only (modFce_only ..)).after ha)
    · exact ha
theorem execHourlyEvaluation_down (loops eyes s) : DownNext s (execHourlyEvaluation loops eyes s) := by
  unfold execHourlyEvaluation
  exact .live (DownNext.next (.ite .refl (.each (fun _ _ => .ite .refl ((judgeMargin_down ..))) (.each (fun _ _ => (evalKt_down ..)) (.upd (.each (fun _ _ => (judgeChannel_down ..)) (.each (fun _ _ => (down_of_only (modChan_only ..))) (.each (fun _ _ => (judgeMargin_down ..)) ((down_of_only (evalIterations_only ..)))))))))))
theorem execHorizonCompute_down (day s) : DownNext s (execHorizonCompute day s) := by
  unfold execHorizonCompute
  exact .live (DownNext.next (.ite .refl ((down_of_only (recomputeHorizon_only ..)).after (.upd (.each (fun _ _ => .ite .refl ((down_of_only (mirror_only ..)).after ((down_of_only (storePoint_only ..))))) ((judgeMargin_down ..)))))))
theorem execSlackPeriodEval_down (s) : DownNext s (execSlackPeriodEval s) := by
  unfold execSlackPeriodEval
  exact .live (DownNext.next (.ite .refl (.ite (.ite ((slackExhausted_down ..).after (.upd ((down_of_only (noteMargin_only ..))))) (.ite (.upd ((down_of_only (noteMargin_only ..)))) ((down_of_only (replanTo_only ..)).after (.upd ((down_of_only (noteMargin_only ..))))))) (.ite ((down_of_only (replanTo_only ..)).after (.upd ((down_of_only (noteMargin_only ..))))) (.upd ((down_of_only (noteMargin_only ..))))))))
theorem execLaneEyeEval_down (l lane eyeH eyeV s) : DownNext s (execLaneEyeEval l lane eyeH eyeV s) := by
  unfold execLaneEyeEval
  refine .live ?_
  extract_lets
  split
  · refine DownNext.next ?_
    refine .ite ?_ ?_
    · refine Holding.of_eq_snd ?_ ‹_›
      split
      · exact (down_of_only (modLink_only ..))
      · exact (down_of_only (modAlk_only ..))
    · refine .ite ?_ ?_
      · refine (down_of_only (noteMargin_only ..)).after ?_
        refine .ite ?_ ?_
        · refine Holding.of_eq_snd ?_ ‹_›
          split
          · exact (down_of_only (modLink_only ..))
          · exact (down_of_only (modAlk_only ..))
        · refine (down_of_only (recovered_only ..)).after ?_
          refine Holding.of_eq_snd ?_ ‹_›
          split
          · exact (down_of_only (modLink_only ..))
          · exact (down_of_only (modAlk_only ..))
      · refine .ite ?_ ?_
        · refine (laneOut_down ..).after ?_
          refine (down_of_only (exhausted_only ..)).after ?_
          refine (down_of_only (noteMargin_only ..)).after ?_
          refine .ite ?_ ?_
          · refine Holding.of_eq_snd ?_ ‹_›
            split
            · exact (down_of_only (modLink_only ..))
            · exact (down_of_only (modAlk_only ..))
          · refine (down_of_only (recovered_only ..)).after ?_
            refine Holding.of_eq_snd ?_ ‹_›
            split
            · exact (down_of_only (modLink_only ..))
            · exact (down_of_only (modAlk_only ..))
        · refine .ite ?_ ?_
          · refine (down_of_only (retrainLane_only ..)).after ?_
            refine (down_of_only (replanTo_only ..)).after ?_
            refine (down_of_only (nextFree_only ..)).after ?_
            refine (down_of_only (noteMargin_only ..)).after ?_
            refine .ite ?_ ?_
            · refine Holding.of_eq_snd ?_ ‹_›
              split
              · exact (down_of_only (modLink_only ..))
              · exact (down_of_only (modAlk_only ..))
            · refine (down_of_only (recovered_only ..)).after ?_
              refine Holding.of_eq_snd ?_ ‹_›
              split
              · exact (down_of_only (modLink_only ..))
              · exact (down_of_only (modAlk_only ..))
          · refine (down_of_only (noteMargin_only ..)).after ?_
            refine .ite ?_ ?_
            · refine Holding.of_eq_snd ?_ ‹_›
              split
              · exact (down_of_only (modLink_only ..))
              · exact (down_of_only (modAlk_only ..))
            · refine (down_of_only (recovered_only ..)).after ?_
              refine Holding.of_eq_snd ?_ ‹_›
              split
              · exact (down_of_only (modLink_only ..))
              · exact (down_of_only (modAlk_only ..))
theorem execPartnerWindow_down (toggles frames activeIn s) : DownNext s (execPartnerWindow toggles frames activeIn s) := by
  unfold execPartnerWindow
  exact .live (DownNext.next (.ite ((judge_down ..).after ((down_of_only (countGaps_only ..)))) .refl))
theorem execPartnerHungRecheck_down (toggles frames activeIn s) : DownNext s (execPartnerHungRecheck toggles frames activeIn s) := by
  unfold execPartnerHungRecheck
  exact .live (DownNext.next (.ite ((judge_down ..).after ((down_of_only (countGaps_only ..)))) .refl))
theorem execActiveInFall_down (s) : DownNext s (execActiveInFall s) := by
  unfold execActiveInFall
  exact .live (DownNext.next (.ite .refl (.ite (.upd .refl) ((tryTakeover_down ..).after (.upd .refl)))))
theorem execArbitrationTimeout_down (s) : DownNext s (execArbitrationTimeout s) := by
  unfold execArbitrationTimeout
  exact .live (DownNext.next (.unless (fun h => by rcases h with h | h <;> simp [h]) .refl))
theorem execAckTelemetry_down (arm word s) : DownNext s (execAckTelemetry arm word s) := by
  unfold execAckTelemetry
  refine .live ?_
  refine DownNext.next ?_
  split
  · exact .refl
  · exact .ite ((failStop_down ..).after ((alkCondition_down ..).after (.ite (.ite ((down_of_only (modAlk_only ..)).after ((down_of_only (modAlk_only ..)))) ((down_of_only (modAlk_only ..)).after ((down_of_only (modAlk_only ..))))) (.ite ((down_of_only (modAlk_only ..)).after ((down_of_only (modAlk_only ..)))) ((down_of_only (modAlk_only ..))))))) (.ite ((down_of_only (alkPut_only ..)).after ((down_of_only (modAlk_only ..)).after (.ite (.ite ((down_of_only (modAlk_only ..)).after ((down_of_only (modAlk_only ..)))) ((down_of_only (modAlk_only ..)).after ((down_of_only (modAlk_only ..))))) (.ite ((down_of_only (modAlk_only ..)).after ((down_of_only (modAlk_only ..)))) ((down_of_only (modAlk_only ..))))))) ((linkSettled_down ..).after (.ite (.ite ((down_of_only (modAlk_only ..)).after ((down_of_only (modAlk_only ..)))) ((down_of_only (modAlk_only ..)).after ((down_of_only (modAlk_only ..))))) (.ite ((down_of_only (modAlk_only ..)).after ((down_of_only (modAlk_only ..)))) ((down_of_only (modAlk_only ..)))))))
theorem execIdentity_down (arm word s) : DownNext s (execIdentity arm word s) := by
  unfold execIdentity
  exact .live (DownNext.next (.ite (.ite ((down_of_only (sendLaneMap_only ..)).after ((down_of_only (sendTelemSet_only ..)).after ((down_of_only (sendTimeSet_only ..)).after ((down_of_only (modAlk_only ..)).after ((down_of_only (modAlk_only ..))))))) ((alkTrainFailed_down ..).after ((down_of_only (modAlk_only ..))))) ((down_of_only (modAlk_only ..)))))
theorem execDumpRetire_down (area s) : DownNext s (execDumpRetire area s) := by
  unfold execDumpRetire
  exact .live (DownNext.next (.ite (.ite ((armArea_down ..).after (.upd .refl)) .refl) (.ite (.ite ((down_of_only (post_only ..)).after (.upd ((armArea_down ..).after (.upd .refl)))) ((armArea_down ..).after (.upd .refl))) .refl)))
theorem execLoadingComplete_down (s) : DownNext s (execLoadingComplete s) := by
  unfold execLoadingComplete
  exact .live (DownNext.next (.guarded (fun h => by rcases h with h | h <;> simp [h]) .refl))
theorem execFltClearCounts_down (path s) : DownNext s (execFltClearCounts path s) := by
  unfold execFltClearCounts
  exact .live (DownNext.next ((pathWrite_down ..)))
theorem execFltClearFirst_down (path s) : DownNext s (execFltClearFirst path s) := by
  unfold execFltClearFirst
  exact .live (DownNext.next ((pathWrite_down ..)))
theorem execTraceCfgWrite_down (path ch value s) : DownNext s (execTraceCfgWrite path ch value s) := by
  unfold execTraceCfgWrite
  exact .live (DownNext.next ((pathWrite_down ..)))
theorem execTraceArm_down (path value s) : DownNext s (execTraceArm path value s) := by
  unfold execTraceArm
  exact .live (DownNext.next ((pathWrite_down ..)))
theorem execTraceFire_down (path value s) : DownNext s (execTraceFire path value s) := by
  unfold execTraceFire
  exact .live (DownNext.next ((pathWrite_down ..)))
theorem execInjFltReportGo_down (path value s) : DownNext s (execInjFltReportGo path value s) := by
  unfold execInjFltReportGo
  exact .live (DownNext.next ((pathWrite_down ..)))
theorem execInjEccGo_down (path value s) : DownNext s (execInjEccGo path value s) := by
  unfold execInjEccGo
  exact .live (DownNext.next ((pathWrite_down ..)))
theorem execInjTreHaltGo_down (path value s) : DownNext s (execInjTreHaltGo path value s) := by
  unfold execInjTreHaltGo
  exact .live (DownNext.next ((pathWrite_down ..)))
theorem execInjLnkCfgWrite_down (path port value s) : DownNext s (execInjLnkCfgWrite path port value s) := by
  unfold execInjLnkCfgWrite
  exact .live (DownNext.next ((pathWrite_down ..)))
theorem execRegisterWrite_down (path address value s) : DownNext s (execRegisterWrite path address value s) := by
  unfold execRegisterWrite
  exact .live (DownNext.next ((pathWrite_down ..)))
theorem execNvmProgramDone_down (s) : DownNext s (execNvmProgramDone s) := by
  unfold execNvmProgramDone
  refine .live (DownNext.next (.ite .refl ?_))
  extract_lets base n0 n1 t
  have ht : Holding devOf Down s t := .upd .refl
  clear_value t
  split
  · exact (microDone_down ..).after ht
  · exact ht
theorem arriveAs_down (op p c x s) : DownNext s (arriveAs op p c x s) := by
  unfold arriveAs
  exact .live (DownNext.next ((arrive_down ..)))
theorem arriveArg_down (op subs commit p c x s) : DownNext s (arriveArg op subs commit p c x s) := by
  unfold arriveArg
  exact (arriveAs_down ..)
theorem execRead_down (p c s) : DownNext s (execRead p c s) := by
  unfold execRead
  exact (arriveAs_down ..)
theorem execWrite_down (p c s) : DownNext s (execWrite p c s) := by
  unfold execWrite
  exact (arriveAs_down ..)
theorem execVerify_down (p c s) : DownNext s (execVerify p c s) := by
  unfold execVerify
  exact (arriveAs_down ..)
theorem execFlush_down (p c s) : DownNext s (execFlush p c s) := by
  unfold execFlush
  exact (arriveAs_down ..)
theorem execAbort_down (p c s) : DownNext s (execAbort p c s) := by
  unfold execAbort
  exact (arriveAs_down ..)
theorem execIdentify_down (p c s) : DownNext s (execIdentify p c s) := by
  unfold execIdentify
  exact (arriveAs_down ..)
theorem execGetState_down (p c s) : DownNext s (execGetState p c s) := by
  unfold execGetState
  exact (arriveAs_down ..)
theorem execSetBudget_down (p c s) : DownNext s (execSetBudget p c s) := by
  unfold execSetBudget
  exact (arriveAs_down ..)
theorem execLogRead_down (p c s) : DownNext s (execLogRead p c s) := by
  unfold execLogRead
  exact (arriveAs_down ..)
theorem execLogClear_down (p c s) : DownNext s (execLogClear p c s) := by
  unfold execLogClear
  exact (arriveAs_down ..)
theorem execDeferredRead_down (p c s) : DownNext s (execDeferredRead p c s) := by
  unfold execDeferredRead
  exact (arriveAs_down ..)
theorem execTimeSet_down (p c s) : DownNext s (execTimeSet p c s) := by
  unfold execTimeSet
  exact (arriveAs_down ..)
theorem execSpinPolicy_down (p c s) : DownNext s (execSpinPolicy p c s) := by
  unfold execSpinPolicy
  exact (arriveArg_down ..)
theorem execSpinUp_down (p c s) : DownNext s (execSpinUp p c s) := by
  unfold execSpinUp
  exact (arriveArg_down ..)
theorem execSpinDown_down (p c s) : DownNext s (execSpinDown p c s) := by
  unfold execSpinDown
  exact (arriveArg_down ..)
theorem execSelfCheck_down (p c failed s) : DownNext s (execSelfCheck p c failed s) := by
  unfold execSelfCheck
  exact (arriveAs_down ..)
theorem execDiagRead_down (p c ueRegs s) : DownNext s (execDiagRead p c ueRegs s) := by
  unfold execDiagRead
  exact (arriveAs_down ..)
theorem execDiagWrite_down (p c s) : DownNext s (execDiagWrite p c s) := by
  unfold execDiagWrite
  exact (arriveAs_down ..)
theorem execInject_down (p c s) : DownNext s (execInject p c s) := by
  unfold execInject
  exact (arriveAs_down ..)
theorem execTraceControl_down (p c s) : DownNext s (execTraceControl p c s) := by
  unfold execTraceControl
  exact (arriveAs_down ..)
theorem execUcodeBankWrite_down (p c s) : DownNext s (execUcodeBankWrite p c s) := by
  unfold execUcodeBankWrite
  exact (arriveArg_down ..)
theorem execUcodeBankCommit_down (p c bankOk version s) : DownNext s (execUcodeBankCommit p c bankOk version s) := by
  unfold execUcodeBankCommit
  exact (arriveArg_down ..)
theorem execImageCopyWrite_down (p c s) : DownNext s (execImageCopyWrite p c s) := by
  unfold execImageCopyWrite
  exact (arriveArg_down ..)
theorem execImageCopyCommit_down (p c s) : DownNext s (execImageCopyCommit p c s) := by
  unfold execImageCopyCommit
  exact (arriveArg_down ..)
theorem execUnlockChallenge_down (p c s) : DownNext s (execUnlockChallenge p c s) := by
  unfold execUnlockChallenge
  exact (arriveArg_down ..)
theorem execUnlockResponse_down (p c s) : DownNext s (execUnlockResponse p c s) := by
  unfold execUnlockResponse
  exact (arriveArg_down ..)
theorem execUnlockLock_down (p c s) : DownNext s (execUnlockLock p c s) := by
  unfold execUnlockLock
  exact (arriveArg_down ..)
theorem execHandover_down (p c s) : DownNext s (execHandover p c s) := by
  unfold execHandover
  exact (arriveAs_down ..)
theorem execSessionOpen_down (p r s) : DownNext s (execSessionOpen p r s) := by
  unfold execSessionOpen
  exact .live (DownNext.next ((takeSessionOpen_down ..)))
theorem execSessionClose_down (p sid reason s) : DownNext s (execSessionClose p sid reason s) := by
  unfold execSessionClose
  exact .live (DownNext.next ((takeSessionClose_down ..)))
theorem execLinkHoldExpiry_down (p s) : DownNext s (execLinkHoldExpiry p s) := by
  unfold execLinkHoldExpiry
  exact .live (DownNext.next (.ite ((endSession_down ..)) .refl))
theorem execWdataReceive_down (p w s) : DownNext s (execWdataReceive p w s) := by
  unfold execWdataReceive
  exact .live (DownNext.next ((takeWdata_down ..)))
theorem execFrameReceive_down (l f s) : DownNext s (execFrameReceive l f s) := by
  unfold execFrameReceive
  exact .live (DownNext.next (.ite (.ite (.each (fun _ _ => (down_of_only (protoError_only ..))) .refl) .refl) (.ite ((down_of_only (modLink_only ..)).after (.ite (.each (fun _ _ => (down_of_only (protoError_only ..))) .refl) .refl)) (.ite ((down_of_only (protoError_only ..)).after (.ite (.each (fun _ _ => (down_of_only (protoError_only ..))) .refl) .refl)) ((injectRx_down ..).after (.ite (.each (fun _ _ => (down_of_only (protoError_only ..))) .refl) .refl))))))

end Sys2Proof.Machine
end

section
/-! What a power failure makes of the part (O5). -/

namespace Sys2Proof.Machine
set_option Elab.async false

-- The device state after a power failure, and the end of Hold-up (O5).

/-- In Hold-up and in Stopped a command that is not the always-on domain's leads to no other state than these. -/
theorem exec_down (c : Instr) (s : State) (h : alwaysOn c = false) : DownNext s (exec c s) := by
  by_cases hd : (unitsOf c).dev = false
  · exact (exec_only c s).down hd
  · cases c with
    | powerOnReset => nomatch h
    | resetNAssert => nomatch h
    | resetRelease => nomatch h
    | arbitrationTimeout => exact execArbitrationTimeout_down ..
    | refclkLoss => exact execRefclkLoss_down ..
    | corePllUnlock => exact execCorePllUnlock_down ..
    | lanePllUnlock => exact execLanePllUnlock_down ..
    | supplyFault => exact execSupplyFault_down ..
    | thermalSensorRead => exact execThermalSensorRead_down ..
    | avsStep => exact execAvsStep_down ..
    | vin12Window => exact execVin12Window_down ..
    | pwrFailNLow => exact execPwrFailNLow_down ..
    | dumpStart => exact execDumpStart_down ..
    | dumpChunkCommit => exact execDumpChunkCommit_down ..
    | dumpBusLow => exact execDumpBusLow_down ..
    | pwmPeriod => exact execPwmPeriod_down ..
    | observerLockLoss => exact execObserverLockLoss_down ..
    | senseFault => exact execSenseFault_down ..
    | busOvRecover => exact execBusOvRecover_down ..
    | busUndervoltage => exact execBusUndervoltage_down ..
    | chopperFault => exact execChopperFault_down ..
    | generatorExhausted => exact execGeneratorExhausted_down ..
    | voltageLimitFault => exact execVoltageLimitFault_down ..
    | speedSample => exact execSpeedSample_down ..
    | speedSourceTimeout => exact execSpeedSourceTimeout_down ..
    | dataWindowMean => exact execDataWindowMean_down ..
    | dataWindowTimeout => exact execDataWindowTimeout_down ..
    | windowEntryTimeout => exact execWindowEntryTimeout_down ..
    | offsetMeasureDone => exact execOffsetMeasureDone_down ..
    | catchMeasureDone => exact execCatchMeasureDone_down ..
    | slowWaitTimeout => exact execSlowWaitTimeout_down ..
    | handoffTimeout => exact execHandoffTimeout_down ..
    | spinupComplete => exact execSpinupComplete_down ..
    | suTimeout => exact execSuTimeout_down ..
    | spindleStopped => exact execSpindleStopped_down ..
    | servoWedge => exact execServoWedge_down ..
    | surfaceMismatch => exact execSurfaceMismatch_down ..
    | wedgeLossRun => exact execWedgeLossRun_down ..
    | reacquireTimeout => exact execReacquireTimeout_down ..
    | strokeLimitRun => exact execStrokeLimitRun_down ..
    | readerDisagreeRun => exact execReaderDisagreeRun_down ..
    | settleTimeout => exact execSettleTimeout_down ..
    | clearanceEstimate => exact execClearanceEstimate_down ..
    | armLoad => exact execArmLoad_down ..
    | loadAcquireTimeout => exact execLoadAcquireTimeout_down ..
    | retractedWaitTimeout => exact execRetractedWaitTimeout_down ..
    | unloadComplete => exact execUnloadComplete_down ..
    | unloadTimeout => exact execUnloadTimeout_down ..
    | vcmDiFrame => exact execVcmDiFrame_down ..
    | vcmReload => exact execVcmReload_down ..
    | vcmReloadTimeout => exact execVcmReloadTimeout_down ..
    | loopExecute => exact execLoopExecute_down ..
    | loopSwitchTimeout => exact execLoopSwitchTimeout_down ..
    | preambleSearch => exact execPreambleSearch_down ..
    | secondCandidateRebuild => exact execSecondCandidateRebuild_down ..
    | rawResultHandle => exact execRawResultHandle_down ..
    | islandFail => exact execIslandFail_down ..
    | islandReassign => exact execIslandReassign_down ..
    | decodeDone => exact execDecodeDone_down ..
    | engineTimeout => exact execEngineTimeout_down ..
    | queueSlotUe => exact execQueueSlotUe_down ..
    | islandGateOff => exact execIslandGateOff_down ..
    | rowCommit => exact execRowCommit_down ..
    | headFailDeclare => exact execHeadFailDeclare_down ..
    | millpondUe => exact execMillpondUe_down ..
    | migrationStart => exact execMigrationStart_down ..
    | scrubRead => exact execScrubRead_down ..
    | descriptorStart => exact execDescriptorStart_down ..
    | descriptorDone => exact execDescriptorDone_down ..
    | channelHalt => exact execChannelHalt_down ..
    | treCancel => exact execTreCancel_down ..
    | treRetry => exact execTreRetry_down ..
    | treRestart => exact execTreRestart_down ..
    | mqPacketWrite => exact execMqPacketWrite_down ..
    | mqProducerTimeout => exact execMqProducerTimeout_down ..
    | mqPop => exact execMqPop_down ..
    | faultReport => exact execFaultReport_down ..
    | faultHoldRelease => exact execFaultHoldRelease_down ..
    | failStop => exact execFailStop_down ..
    | coreTrap => exact execCoreTrap_down ..
    | sramPatrol => exact execSramPatrol_down ..
    | flashPageRead => exact execFlashPageRead_down ..
    | flashProgram => exact execFlashProgram_down ..
    | flashProgramDone => exact execFlashProgramDone_down ..
    | flashErase => exact execFlashErase_down ..
    | flashEraseDone => exact execFlashEraseDone_down ..
    | blockRefresh => exact execBlockRefresh_down ..
    | fetchLookup => exact execFetchLookup_down ..
    | fetchFill => exact execFetchFill_down ..
    | fillComplete => exact execFillComplete_down ..
    | alkTrainAttempt => exact execAlkTrainAttempt_down ..
    | alkTrainTimeout => exact execAlkTrainTimeout_down ..
    | identity => exact execIdentity_down ..
    | alkLaneErrorWindow => exact execAlkLaneErrorWindow_down ..
    | alkLaneLockLoss => exact execAlkLaneLockLoss_down ..
    | alkUplinkUncorr => exact execAlkUplinkUncorr_down ..
    | alkUplinkSilence => exact execAlkUplinkSilence_down ..
    | portStatusTimeout => exact execPortStatusTimeout_down ..
    | ackTimeout => exact execAckTimeout_down ..
    | ackTelemetry => exact execAckTelemetry_down ..
    | tempTelemetry => exact execTempTelemetry_down ..
    | sensorUnreported => exact execSensorUnreported_down ..
    | faultTelemetry => exact execFaultTelemetry_down ..
    | portStatus => exact execPortStatus_down ..
    | frameReceive => exact execFrameReceive_down ..
    | wdataReceive => exact execWdataReceive_down ..
    | sessionOpen => exact execSessionOpen_down ..
    | sessionClose => exact execSessionClose_down ..
    | linkHoldExpiry => exact execLinkHoldExpiry_down ..
    | wdataTimeout => exact execWdataTimeout_down ..
    | read => exact execRead_down ..
    | write => exact execWrite_down ..
    | verify => exact execVerify_down ..
    | flush => exact execFlush_down ..
    | abort => exact execAbort_down ..
    | identify => exact execIdentify_down ..
    | getState => exact execGetState_down ..
    | setBudget => exact execSetBudget_down ..
    | logRead => exact execLogRead_down ..
    | logClear => exact execLogClear_down ..
    | deferredRead => exact execDeferredRead_down ..
    | timeSet => exact execTimeSet_down ..
    | spinPolicy => exact execSpinPolicy_down ..
    | spinUp => exact execSpinUp_down ..
    | spinDown => exact execSpinDown_down ..
    | selfCheck => exact execSelfCheck_down ..
    | diagRead => exact execDiagRead_down ..
    | diagWrite => exact execDiagWrite_down ..
    | inject => exact execInject_down ..
    | traceControl => exact execTraceControl_down ..
    | ucodeBankWrite => exact execUcodeBankWrite_down ..
    | ucodeBankCommit => exact execUcodeBankCommit_down ..
    | imageCopyWrite => exact execImageCopyWrite_down ..
    | imageCopyCommit => exact execImageCopyCommit_down ..
    | unlockChallenge => exact execUnlockChallenge_down ..
    | unlockResponse => exact execUnlockResponse_down ..
    | unlockLock => exact execUnlockLock_down ..
    | handover => exact execHandover_down ..
    | budgetPwmPeriod => exact execBudgetPwmPeriod_down ..
    | bpwmHoldExpiry => exact execBpwmHoldExpiry_down ..
    | pwmRiseSettle => exact execPwmRiseSettle_down ..
    | hourlyEvaluation => exact execHourlyEvaluation_down ..
    | horizonCompute => exact execHorizonCompute_down ..
    | slackPeriodEval => exact execSlackPeriodEval_down ..
    | laneEyeEval => exact execLaneEyeEval_down ..
    | partnerWindow => exact execPartnerWindow_down ..
    | partnerHungRecheck => exact execPartnerHungRecheck_down ..
    | activeInFall => exact execActiveInFall_down ..
    | arbitrate => exact execArbitrate_down ..
    | ptnFailstop => exact execPtnFailstop_down ..
    | handoverRequest => exact execHandoverRequest_down ..
    | handoverReleased => exact execHandoverReleased_down ..
    | resyncStart frames => exact execResyncStart_down frames s
    | dumpRetire => exact execDumpRetire_down ..
    | loadingComplete => exact execLoadingComplete_down ..
    | fltClearCounts => exact execFltClearCounts_down ..
    | fltClearFirst => exact execFltClearFirst_down ..
    | traceCfgWrite => exact execTraceCfgWrite_down ..
    | traceArm => exact execTraceArm_down ..
    | traceFire => exact execTraceFire_down ..
    | injFltReportGo => exact execInjFltReportGo_down ..
    | injEccGo => exact execInjEccGo_down ..
    | injTreHaltGo => exact execInjTreHaltGo_down ..
    | injLnkCfgWrite => exact execInjLnkCfgWrite_down ..
    | registerWrite => exact execRegisterWrite_down ..
    | diagAccRead => nomatch h
    | diagAccWrite => nomatch h
    | nvmProgramDone => exact execNvmProgramDone_down ..
    | _ => exact absurd rfl hd
theorem fromLoading_iff (s : State) : fromLoading s = true ↔ s.dev = .loading ∨ (s.dev = .faultHold ∧ s.flt.from_ = .loading) := by
  simp [fromLoading]
theorem flashStopped_of_only {m : Units} {s t : State} (h : Only m s t) (hm : m.hold = false := by rfl) : t.hold.flashStopped = s.hold.flashStopped := by
  rw [h.hold hm]
theorem quiesceFlash_flashStopped (s : State) : (quiesceFlash s).hold.flashStopped = true := by
  unfold quiesceFlash
  extract_lets _ u
  have hu : u.hold.flashStopped = true := rfl
  clear_value u
  refine (each_proj (fun s : State => s.hold.flashStopped) _ _ u fun b s => ?_).trans hu
  split
  · exact (flashStopped_of_only (post_only ..)).trans ((flashStopped_of_only (modBank_only ..)).trans (flashStopped_of_only (cutBank_only ..)))
  · rfl
theorem enterStopped_closes (cause : BitVec 8) (s : State) : (enterStopped cause s).hop.closed = true ∧ (enterStopped cause s).hold = s.hold := ⟨rfl, (enterStopped_only cause s).hold rfl⟩
/-- The closed queue of commands and the stopped flash programs of a part in Hold-up. -/
theorem holdUpEntered_closes (loading : Bool) (source : Nat) (s : State) : (admission (holdUpEntered loading source s)).1 = true ∧ (holdUpEntered loading source s).hold.flashStopped = true := by
  unfold holdUpEntered
  extract_lets _ _ _ _ u v w x y z
  have hw : (admission w).1 = true := congrArg Prod.fst ((admission_hopPart.dropGone _).trans (completeAll_admission ..))
  have hy : (admission y).1 = true := by
    unfold y x
    rw [admission_of_only (alkClose_only _), admission_of_only (holdUpRetract_only _), admission_of_only (alkDrop_only _), admission_of_only (holdUpSpindle_only _)]
    exact hw
  have hz : (admission z).1 = true ∧ z.hold.flashStopped = true := by
    unfold z
    rw [admission_of_only (stopChannels_only _), admission_of_only (quiesceFlash_only _), flashStopped_of_only (stopChannels_only _)]
    exact ⟨hy, quiesceFlash_flashStopped y⟩
  clear_value z
  exact hz
theorem enterHoldUp_closes (source : Nat) (s : State) : (enterHoldUp source s).hop.closed = true ∧ (enterHoldUp source s).hold.flashStopped = true := by
  obtain ⟨hclosed, hflash⟩ := holdUpEntered_closes (fromLoading s) source s
  rw [enterHoldUp_eq]
  generalize holdUpEntered (fromLoading s) source s = t at hclosed hflash
  split
  · obtain ⟨hstopped, hkept⟩ := enterStopped_closes 0x10 (post 0x1A mPower [] t)
    rw [hkept, flashStopped_of_only (post_only ..)]
    exact ⟨hstopped, hflash⟩
  · exact ⟨hclosed, hflash⟩

/-- What a power failure makes of the part (R463, R464, R603). -/
def PowerFails (s t : State) : Prop :=
  (holdUpFrom s.dev = true → if s.dev = .loading ∨ (s.dev = .faultHold ∧ s.flt.from_ = .loading) then t.dev = .stopped else t.dev = .holdUp) ∧
  (holdUpFrom s.dev = true → t.hop.closed = true ∧ t.hold.flashStopped = true) ∧
  (s.dev = .unconfigured ∨ s.dev = .configuring ∨ s.dev = .parked → t.dev = s.dev ∧ t.hold.flashStopped = true)
theorem powerFailed_holdsUp {source : Nat} {s : State} (h : holdUpFrom s.dev = true) : powerFailed source s = enterHoldUp source s := if_pos h
/-- A power failure that flash programs alone stop for (R463). -/
def failsQuietly (source : Nat) (s : State) : State :=
  if s.hold.flashStopped then { s with hold := { s.hold with source := if s.hold.source = 0 || s.hold.source = source then source else 3 } }
  else post 0x10 mPower [b1 source] { s with hold := { s.hold with source, flashStopped := true } }
theorem failsQuietly_stops (source : Nat) (s : State) : (failsQuietly source s).dev = s.dev ∧ (failsQuietly source s).hold.flashStopped = true := by
  unfold failsQuietly
  split
  · next hstopped => exact ⟨rfl, hstopped⟩
  · rw [post_dev, flashStopped_of_only (post_only ..)]
    exact ⟨rfl, rfl⟩
theorem powerFailed_early {source : Nat} {s : State} (h : s.dev = .unconfigured ∨ s.dev = .configuring ∨ s.dev = .parked) : powerFailed source s = failsQuietly source s := by
  unfold powerFailed failsQuietly
  rcases h with h | h | h
  all_goals
    rw [if_neg (by simp [h, holdUpFrom])]
    split
    · rfl
    · rfl
    · rfl
    · simp_all
theorem powerFailed_fails (source : Nat) (s : State) : PowerFails s (powerFailed source s) := by
  refine ⟨fun hfrom => ?_, fun hfrom => ?_, fun hd => powerFailed_early hd ▸ failsQuietly_stops source s⟩
  · rw [powerFailed_holdsUp hfrom, enterHoldUp_dev]
    simp only [fromLoading_iff]
    split <;> rfl
  · rw [powerFailed_holdsUp hfrom]
    exact enterHoldUp_closes source s
theorem powerFailed_pwr (source : Nat) (s : State) : (powerFailed source s).pwr = s.pwr := (powerFailed_only source s).pwr rfl

/-- A window of VIN12 whose codes add up to `sum` (R614). -/
def vinSampled (sum : Nat) (s : State) : State :=
  let v := sum / 4
  let low := decide (sum < 4 * vinFail s.img)
  let run := if low then min 5 (s.pwr.lowRun + 1) else 0
  { s with pwr := { s.pwr with
    vin12 := v, vin12Min := min s.pwr.vin12Min v, vin12Max := max s.pwr.vin12Max v, vinLow := low, vinHigh := decide (13800 < v), snsTimeout := false, lowRun := run } }
theorem vinSampled_pwr (sum : Nat) (s : State) : (vinSampled sum s).pwr.vin12 = sum / 4 ∧ (vinSampled sum s).pwr.lowRun = if sum < 4 * vinFail s.img then min 5 (s.pwr.lowRun + 1) else 0 := by
  unfold vinSampled
  simp only [decide_eq_true_eq, true_and]
/-- The fifth low window in a row (R463). -/
def fifthLow (sum : Nat) (s : State) : Bool :=
  decide ((if decide (sum < 4 * vinFail s.img) then min 5 (s.pwr.lowRun + 1) else 0) = 5) && decide (s.pwr.lowRun < 5)
theorem fifthLow_iff {sum : Nat} {s : State} : fifthLow sum s = true ↔ sum < 4 * vinFail s.img ∧ s.pwr.lowRun = 4 := by
  unfold fifthLow
  by_cases hlow : sum < 4 * vinFail s.img
  · simp [hlow]
    omega
  · simp [hlow]
/-- The part after a window. -/
def vinWindowed (sum : Nat) (s : State) : State :=
  if fifthLow sum s then powerFailed 1 (vinSampled sum s)
  else if (s.pwr.vinLow && !decide (sum < 4 * vinFail s.img)) && s.dev = .holdUp && !s.hold.returned then
    post 0x18 mPower [] { vinSampled sum s with hold := { s.hold with returned := true } }
  else vinSampled sum s
theorem vinWindowed_pwr (sum : Nat) (s : State) : (vinWindowed sum s).pwr = (vinSampled sum s).pwr := by
  unfold vinWindowed
  split
  · exact powerFailed_pwr ..
  · split
    · exact (post_only ..).pwr rfl
    · rfl
theorem vinWindowed_dev {sum : Nat} {s : State} (h : ¬ fifthLow sum s = true) : (vinWindowed sum s).dev = s.dev := by
  unfold vinWindowed
  rw [if_neg h]
  split
  · exact post_dev ..
  · rfl
theorem vinWindowed_fails {sum : Nat} {s : State} (h : fifthLow sum s = true) : PowerFails s (vinWindowed sum s) := by
  unfold vinWindowed
  rw [if_pos h]
  exact powerFailed_fails 1 (vinSampled sum s)
theorem exec_vin12Window {c0 c1 c2 c3 : Nat} {s : State} (hawake : awake s = true) :
    exec (.vin12Window c0 c1 c2 c3) s = .next (if converts s then vinWindowed (c0 + c1 + c2 + c3) s else s) := by
  refine (if_pos hawake).trans ?_
  cases converts s <;> rfl
/-- The part after a sense fault of VIN12 (R614). -/
def vinFaulted (timeout : Bool) (reading : Nat) (s : State) : State :=
  let s := { s with pwr := { s.pwr with
    snsTimeout := s.pwr.snsTimeout || timeout, vinHigh := s.pwr.vinHigh || !timeout, lowRun := if timeout then 0 else s.pwr.lowRun } }
  if s.pwr.senseEventAt.all fun t => decide (oneSec ≤ since s t) then
    post 0x1F mPower [b8 reading] { s with pwr := { s.pwr with senseEventAt := some (now s) } }
  else s
theorem exec_vin12SenseFault {timeout : Bool} {reading : Nat} {s : State} (hawake : awake s = true) :
    exec (.vin12SenseFault timeout reading) s = .next (if converts s then vinFaulted timeout reading s else s) := by
  refine (if_pos hawake).trans ?_
  cases converts s <;> rfl
theorem vinFaulted_records (timeout : Bool) (reading : Nat) (s : State) :
    (vinFaulted timeout reading s).dev = s.dev ∧ (vinFaulted timeout reading s).hold = s.hold ∧
      (vinFaulted timeout reading s).pwr.snsTimeout = (s.pwr.snsTimeout || timeout) ∧ (vinFaulted timeout reading s).pwr.vinHigh = (s.pwr.vinHigh || !timeout) ∧
        (vinFaulted timeout reading s).pwr.lowRun = if timeout then 0 else s.pwr.lowRun := by
  unfold vinFaulted
  extract_lets _ u
  split
  · rw [post_dev, (post_only ..).hold rfl, (post_only ..).pwr rfl]
    exact ⟨rfl, rfl, rfl, rfl, rfl⟩
  · exact ⟨rfl, rfl, rfl, rfl, rfl⟩

/-- Settles O5, from the end of Hold-up over every command and the state that a power failure leads to. -/
theorem powerFailureEntersHoldUp : Obligations.PowerFailureEntersHoldUp := by
  unfold Obligations.PowerFailureEntersHoldUp
  intro s hawake
  refine ⟨fun c0 c1 c2 c3 => ?_, ?_, ?_, fun timeout reading => ?_, fun c t hs hc he => ?_⟩
  · refine Completes.live (exec_vin12Window hawake) fun t ht => ?_
    subst ht
    refine ⟨fun hc => by simp [hc], fun hc => ?_⟩
    rw [if_pos hc, vinWindowed_pwr]
    refine ⟨(vinSampled_pwr ..).1, (vinSampled_pwr ..).2, fun hlow hrun => vinWindowed_fails (fifthLow_iff.mpr ⟨hlow, hrun⟩), fun hother _ => vinWindowed_dev fun hfifth => ?_⟩
    obtain ⟨hlow, hrun⟩ := fifthLow_iff.mp hfifth
    exact hother.elim (· hlow) (· hrun)
  · refine Completes.live (if_pos hawake) fun t ht => ?_
    subst ht
    exact ⟨congrArg Pwr.pfailN (powerFailed_pwr 2 { s with pwr := { s.pwr with pfailN := false } }), powerFailed_fails 2 { s with pwr := { s.pwr with pfailN := false } }⟩
  · exact ⟨_, if_pos hawake, rfl⟩
  · refine Completes.live (exec_vin12SenseFault hawake) fun t ht => ?_
    subst ht
    obtain ⟨hdev, hhold, htimeout, hhigh, hrun⟩ := vinFaulted_records timeout reading s
    cases converts s with
    | false => exact ⟨rfl, rfl, fun _ => rfl, fun h => absurd h Bool.false_ne_true⟩
    | true => exact ⟨hdev, hhold, fun h => absurd h.symm Bool.false_ne_true, fun _ => ⟨fun ht => ⟨htimeout.trans (by simp [ht]), hrun.trans (by simp [ht])⟩, fun ht => hhigh.trans (by simp [ht])⟩⟩
  · obtain ⟨u, hu, hdown⟩ := exec_down c s hc
    obtain rfl : t = u := by simpa [hu] using he.symm
    exact hdown.keeps (.inl hs)

end Sys2Proof.Machine
end

section
/-! What the ladder and the stop of a head leave of islands and of the codeword queue (R122, R154). -/

namespace Sys2Proof.Machine
set_option Elab.async false

-- What the ladder and the stop of a head leave of islands and of the codeword queue (R122, R154).

/-- An island but for what the stop of a head and the end of its requests change. -/
def steady (i : Island) : Island := { i with assigned := false, state := 0, requests := [] }
/-- The codeword queue, its count of lost frames, FMT_ID and the islands. -/
abbrev readView (s : State) : List (Nat × Codeword) × Nat × BitVec 16 × (Nat → Island) :=
  (s.bol.queue, s.bol.queueFull, s.layout.fmtId, fun k => steady (tabGet {} s.islands k))
theorem read_of_only {m : Units} {s t : State} (h : Only m s t) (hi : m.islands = false := by rfl) (hb : m.bol = false := by rfl) (hl : m.layout = false := by rfl) :
    Kept readView s t := ⟨by unfold readView; rw [h.islands hi, h.bol hb, h.layout hl]⟩
theorem Kept.codewords {s t : State} (h : Kept readView s t) : t.bol.queue = s.bol.queue := congrArg Prod.fst h.view
theorem Kept.fmtId {s t : State} (h : Kept readView s t) : t.layout.fmtId = s.layout.fmtId := congrArg (·.2.2.1) h.view
theorem Kept.steadily {s t : State} (h : Kept readView s t) (k : Nat) : steady (getIsl t k) = steady (getIsl s k) := congrFun (congrArg (·.2.2.2) h.view) k
theorem modIsl_readPath (s : State) (k : Nat) {f : Island → Island} (hf : ∀ i, steady (f i) = steady i) : Kept readView s (modIsl s k f) := by
  refine ⟨congrArg (fun g => (s.bol.queue, s.bol.queueFull, s.layout.fmtId, g)) (funext fun j => ?_)⟩
  by_cases hj : j = k
  · rw [hj]
    exact (congrArg steady (getIsl_modIsl s k f)).trans (hf _)
  · exact congrArg steady (getIsl_modIsl_other s f hj)
theorem gateIsland_readPath (n s) : Kept readView s (gateIsland n s) := by
  unfold gateIsland
  exact modIsl_readPath _ _ fun i => by split <;> rfl
theorem armDark_readPath (a s) : Kept readView s (armDark a s) := by
  unfold armDark
  exact .each (fun _ _ => (read_of_only (modHead_only ..)).after ((gateIsland_readPath ..))) .refl
theorem restHead_readPath (a h write s) : Kept readView s (restHead a h write s) := by
  unfold restHead
  exact .ite .refl ((read_of_only (laserOff_only ..)).after ((read_of_only (sendMode_only ..)).after ((gateIsland_readPath ..))))
theorem armSafe_readPath (a s) : Kept readView s (armSafe a s) := by
  unfold armSafe
  exact .each (fun _ _ => (read_of_only (uaRamp_only ..)).after ((read_of_only (coolHead_only ..)).after ((gateIsland_readPath ..)))) ((read_of_only (gateArm_only ..)))
theorem unloadArm_readPath (a s) : Kept readView s (unloadArm a s) := by
  unfold unloadArm
  exact .ite ((read_of_only (modArm_only ..)).after ((read_of_only (freeInner_only ..)).after (.upd ((read_of_only (setSetpoint_only ..)).after (.ite ((read_of_only (disableCtx_only ..)).after (.each (fun _ _ => (read_of_only (disableCtx_only ..))) ((armSafe_readPath ..)))) ((read_of_only (takeOver_only ..)).after (.each (fun _ _ => (read_of_only (disableCtx_only ..))) ((armSafe_readPath ..))))))))) .refl
theorem unloadAll_readPath (s) : Kept readView s (unloadAll s) := by
  unfold unloadAll
  exact .each (fun _ _ => (unloadArm_readPath ..)) .refl
theorem listBlock_readPath (lba s) : Kept readView s (listBlock lba s) := by
  unfold listBlock
  exact .ite .refl (.upd .refl)
theorem raiseDeferred_readPath (portB cause lba arrival tag s) : Kept readView s (raiseDeferred portB cause lba arrival tag s) := by
  unfold raiseDeferred
  extract_lets
  split
  · exact (read_of_only (addDeferred_only ..)).after ((listBlock_readPath ..))
  · exact (read_of_only (mirror_only ..)).after ((read_of_only (storeDeferred_only ..)).after ((listBlock_readPath ..)))
theorem cutVisit_readPath (a s) : Kept readView s (cutVisit a s) := by
  unfold cutVisit
  split
  · exact .refl
  · exact .ite (.upd (.each (fun _ _ => (restHead_readPath ..)) (.upd ((read_of_only (freeInner_only ..)))))) ((read_of_only (post_only ..)).after (.upd (.each (fun _ _ => (restHead_readPath ..)) (.upd ((read_of_only (freeInner_only ..)))))))
theorem endVisits_readPath (s) : Kept readView s (endVisits s) := by
  unfold endVisits
  exact .upd (.each (fun _ _ => (cutVisit_readPath ..)) (.each (fun _ _ => .ite ((read_of_only (modSine_only ..))) .refl) .refl))
theorem enterHold_readPath (event injected s) : Kept readView s (enterHold event injected s) := by
  unfold enterHold
  exact .ite ((read_of_only (post_only ..)).after ((endVisits_readPath ..).after (.upd .refl))) (.ite (.upd .refl) .refl)
theorem enterStopped_readPath (cause s) : Kept readView s (enterStopped cause s) := by
  unfold enterStopped
  exact .upd (.each (fun _ _ => (armDark_readPath ..)) ((endVisits_readPath ..).after ((read_of_only (dropActive_only ..)))))
theorem finalStop_readPath (cause s) : Kept readView s (finalStop cause s) := by
  unfold finalStop
  exact (enterStopped_readPath ..).after ((read_of_only (post_only ..)).after ((read_of_only (releaseArms_only ..))))
theorem advanceStop_readPath (s) : Kept readView s (advanceStop s) := by
  unfold advanceStop
  exact .ite ((finalStop_readPath ..).after (.ite (.ite ((read_of_only (startCoast_only ..)).after (.upd .refl)) (.ite ((read_of_only (spindleStop_only ..)).after (.upd .refl)) (.upd .refl))) .refl)) (.ite (.ite ((read_of_only (startCoast_only ..)).after (.upd .refl)) (.ite ((read_of_only (spindleStop_only ..)).after (.upd .refl)) (.upd .refl))) .refl)
theorem dropGone_readPath (s) : Kept readView s (dropGone s) := by
  unfold dropGone
  exact .upd (.each (fun _ _ => .ite ((raiseDeferred_readPath ..).after ((read_of_only (post_only ..)).after ((read_of_only (setEntry_only ..))))) ((read_of_only (setEntry_only ..)))) .refl)
theorem stopSequence_readPath (solo cause s) : Kept readView s (stopSequence solo cause s) := by
  unfold stopSequence
  refine .ite .refl ?_
  split
  · exact (finalStop_readPath ..).after ((read_of_only (stopChannels_only ..)).after ((read_of_only (completeAll_only ..))))
  · exact (finalStop_readPath ..).after ((read_of_only (stopChannels_only ..)).after ((read_of_only (completeAll_only ..))))
  · exact (finalStop_readPath ..).after ((read_of_only (stopChannels_only ..)).after ((read_of_only (completeAll_only ..))))
  · exact (finalStop_readPath ..).after ((read_of_only (stopChannels_only ..)).after ((read_of_only (completeAll_only ..))))
  · exact (finalStop_readPath ..).after ((read_of_only (stopChannels_only ..)).after ((read_of_only (completeAll_only ..))))
  · exact .refl
  · exact .refl
  · exact .ite ((finalStop_readPath ..).after ((read_of_only (dropActive_only ..)).after (.upd ((read_of_only (post_only ..)).after ((read_of_only (ptnSend_only ..)).after (.upd ((read_of_only (stopChannels_only ..)).after ((read_of_only (completeAll_only ..)).after ((endVisits_readPath ..).after (.upd .refl)))))))))) ((advanceStop_readPath ..).after (.upd ((dropGone_readPath ..).after (.upd (.ite ((unloadAll_readPath ..).after (.ite ((read_of_only (post_only ..)).after ((read_of_only (ptnSend_only ..)).after (.upd ((read_of_only (stopChannels_only ..)).after ((read_of_only (completeAll_only ..)).after ((endVisits_readPath ..).after (.upd .refl))))))) (.upd ((read_of_only (stopChannels_only ..)).after ((read_of_only (completeAll_only ..)).after ((endVisits_readPath ..).after (.upd .refl))))))) (.ite ((read_of_only (post_only ..)).after ((read_of_only (ptnSend_only ..)).after (.upd ((read_of_only (stopChannels_only ..)).after ((read_of_only (completeAll_only ..)).after ((endVisits_readPath ..).after (.upd .refl))))))) (.upd ((read_of_only (stopChannels_only ..)).after ((read_of_only (completeAll_only ..)).after ((endVisits_readPath ..).after (.upd .refl)))))))))))
theorem failStopInj_readPath (injected cause s) : Kept readView s (failStopInj injected cause s) := by
  unfold failStopInj
  exact .ite ((enterHold_readPath ..)) ((stopSequence_readPath ..).after (.upd .refl))
theorem failStop_readPath (cause s) : Kept readView s (failStop cause s) := by
  unfold failStop
  exact (failStopInj_readPath ..)
theorem startRebuild_readPath (a h s) : Kept readView s (startRebuild a h s) := by
  unfold startRebuild
  exact (read_of_only (post_only ..)).after (.upd .refl rfl)
theorem declareFailed_readPath (n s) : Kept readView s (declareFailed n s) := by
  unfold declareFailed
  exact .ite .refl (.ite ((failStop_readPath ..).after ((read_of_only (post_only ..)).after ((read_of_only (mirror_only ..)).after (.upd ((read_of_only (modHead_only ..)).after ((modIsl_readPath _ _ fun i => by split <;> rfl).after ((read_of_only (disableCtx_only ..)).after ((read_of_only (disableCtx_only ..)).after ((read_of_only (sendUa_only ..)).after ((read_of_only (sendMode_only ..)).after ((read_of_only (coolHead_only ..)).after ((read_of_only (stopWriter_only ..)))))))))))))) ((startRebuild_readPath ..).after ((read_of_only (post_only ..)).after ((read_of_only (mirror_only ..)).after (.upd ((read_of_only (modHead_only ..)).after ((modIsl_readPath _ _ fun i => by split <;> rfl).after ((read_of_only (disableCtx_only ..)).after ((read_of_only (disableCtx_only ..)).after ((read_of_only (sendUa_only ..)).after ((read_of_only (sendMode_only ..)).after ((read_of_only (coolHead_only ..)).after ((read_of_only (stopWriter_only ..)))))))))))))))
theorem putSec_readPath (x s) : Kept readView s (putSec x s) := by
  unfold putSec
  exact .upd .refl
theorem dropSec_readPath (x s) : Kept readView s (dropSec x s) := by
  unfold dropSec
  exact .upd .refl
theorem enterRung_readPath (n s) : Kept readView s (enterRung n s) := by
  unfold enterRung
  exact .upd .refl
theorem leaveRung_readPath (n s) : Kept readView s (leaveRung n s) := by
  unfold leaveRung
  exact .upd .refl
theorem wantSec_readPath (a q h t sl s) : Kept readView s (wantSec a q h t sl s) := by
  unfold wantSec
  exact .ite .refl (.ite (.each (fun _ _ => .ite .refl ((putSec_readPath ..))) ((putSec_readPath ..))) ((putSec_readPath ..)))
theorem unrecoverable_readPath (lba s) : Kept readView s (unrecoverable lba s) := by
  unfold unrecoverable
  exact (read_of_only (startIfUnpinned_only ..)).after ((read_of_only (readInLost_only ..)).after ((read_of_only (loseHost_only ..)).after (.ite .refl ((read_of_only (mqNote_only ..)).after ((read_of_only (post_only ..)).after ((listBlock_readPath ..)))))))
theorem deliverInfo_readPath (x i s) : Kept readView s (deliverInfo x i s) := by
  unfold deliverInfo
  extract_lets
  split
  · exact .ite ((read_of_only (prefetchParity_only ..)).after ((read_of_only (parityIn_only ..)).after ((read_of_only (freeInner_only ..))))) ((read_of_only (parityIn_only ..)).after ((read_of_only (freeInner_only ..))))
  · exact .ite ((unrecoverable_readPath ..).after ((read_of_only (poisonIn_only ..)).after ((read_of_only (post_only ..)).after ((read_of_only (freeInner_only ..)))))) (.ite ((read_of_only (prefetchIn_only ..)).after (.ite ((read_of_only (keepRead_only ..)).after ((read_of_only (pinCopy_only ..)).after ((read_of_only (readIn_only ..)).after ((read_of_only (deliverHost_only ..)).after ((read_of_only (placeBlock_only ..)).after ((read_of_only (freeInner_only ..)))))))) ((read_of_only (pinCopy_only ..)).after ((read_of_only (readIn_only ..)).after ((read_of_only (deliverHost_only ..)).after ((read_of_only (placeBlock_only ..)).after ((read_of_only (freeInner_only ..))))))))) (.ite ((read_of_only (keepRead_only ..)).after ((read_of_only (pinCopy_only ..)).after ((read_of_only (readIn_only ..)).after ((read_of_only (deliverHost_only ..)).after ((read_of_only (placeBlock_only ..)).after ((read_of_only (freeInner_only ..)))))))) ((read_of_only (pinCopy_only ..)).after ((read_of_only (readIn_only ..)).after ((read_of_only (deliverHost_only ..)).after ((read_of_only (placeBlock_only ..)).after ((read_of_only (freeInner_only ..)))))))))
theorem remapOutside_readPath (x origin s) : Kept readView s (remapOutside x origin s) := by
  unfold remapOutside
  extract_lets
  split
  · exact (read_of_only (addWork_only ..))
  · exact (declareFailed_readPath ..)
theorem markDefective_readPath (x s) : Kept readView s (markDefective x s) := by
  unfold markDefective
  exact (remapOutside_readPath ..).after ((putSec_readPath ..).after ((read_of_only (post_only ..)).after ((read_of_only (mqNote_only ..)))))
theorem followUp_readPath (y s) : Kept readView s (followUp y s) := by
  unfold followUp
  exact .ite ((read_of_only (rereadWork_only ..)).after ((read_of_only (modHead_only ..)).after ((putSec_readPath ..).after (.ite ((enterRung_readPath ..)) .refl)))) ((putSec_readPath ..))
theorem tryReconstruct_readPath (again x s) : Kept readView s (tryReconstruct again x s) := by
  unfold tryReconstruct
  refine .ite .refl ?_
  refine .ite ?_ .refl
  extract_lets
  split
  · exact .ite ((putSec_readPath ..).after ((read_of_only (dropReread_only ..)).after ((deliverInfo_readPath ..).after ((read_of_only (post_only ..)).after (.ite (.ite .refl ((enterRung_readPath ..))) ((leaveRung_readPath ..).after (.ite .refl ((enterRung_readPath ..))))))))) (.ite ((markDefective_readPath ..).after ((read_of_only (dropReread_only ..)).after ((deliverInfo_readPath ..).after ((read_of_only (post_only ..)).after (.ite (.ite .refl ((enterRung_readPath ..))) ((leaveRung_readPath ..).after (.ite .refl ((enterRung_readPath ..))))))))) ((followUp_readPath ..).after ((read_of_only (dropReread_only ..)).after ((deliverInfo_readPath ..).after ((read_of_only (post_only ..)).after (.ite (.ite .refl ((enterRung_readPath ..))) ((leaveRung_readPath ..).after (.ite .refl ((enterRung_readPath ..))))))))))
  · exact (putSec_readPath ..).after (.ite .refl ((enterRung_readPath ..)))
theorem tryEquation_readPath (again a q t sl s) : Kept readView s (tryEquation again a q t sl s) := by
  unfold tryEquation
  refine .each (fun _ _ => ?_) .refl
  split
  · exact (tryReconstruct_readPath ..)
  · exact .refl
theorem settleLost_readPath (a q s) : Kept readView s (settleLost a q s) := by
  unfold settleLost
  refine .each (fun _ _ => ?_) .refl
  refine .ite .refl ?_
  extract_lets
  split
  · exact (unrecoverable_readPath ..).after (.upd ((putSec_readPath ..)))
  · exact (read_of_only (shareLost_only ..)).after ((putSec_readPath ..))
theorem endFollowUp_readPath (x s) : Kept readView s (endFollowUp x s) := by
  unfold endFollowUp
  exact (read_of_only (modHead_only ..)).after ((dropSec_readPath ..))
theorem climb_readPath (n x s) : Kept readView s (climb n x s) := by
  unfold climb
  refine .ite ?_ (.ite ((markDefective_readPath ..).after ((endFollowUp_readPath ..))) ((settleLost_readPath ..).after ((tryEquation_readPath ..).after ((putSec_readPath ..)))))
  extract_lets
  split
  · exact .ite ((tryEquation_readPath ..).after (.each (fun _ _ => (wantSec_readPath ..)) ((enterRung_readPath ..).after ((putSec_readPath ..))))) (.ite ((tryEquation_readPath ..).after (.each (fun _ _ => (wantSec_readPath ..)) ((enterRung_readPath ..).after ((putSec_readPath ..))))) ((read_of_only (rereadWork_only ..)).after ((tryEquation_readPath ..).after (.each (fun _ _ => (wantSec_readPath ..)) ((enterRung_readPath ..).after ((putSec_readPath ..)))))))
  · exact (tryEquation_readPath ..).after (.each (fun _ _ => (wantSec_readPath ..)) ((enterRung_readPath ..).after ((putSec_readPath ..))))
theorem pressureUp_readPath (s) : Kept readView s (pressureUp s) := by
  unfold pressureUp
  exact .ite ((read_of_only (post_only ..)).after (.each (fun _ _ => .ite ((cutVisit_readPath ..)) .refl) (.upd .refl))) .refl
theorem lostFrame_readPath (xs missed s) : Kept readView s (lostFrame xs missed s) := by
  unfold lostFrame
  exact .each (fun _ _ => (climb_readPath ..)) .refl
theorem dropRequests_readPath (island lost s) : Kept readView s (dropRequests island lost s) := by
  unfold dropRequests
  exact (lostFrame_readPath ..).after (modIsl_readPath _ _ fun _ => rfl)

end Sys2Proof.Machine
end

section
/-! A frame's sample-buffer entry and its codewords (R107 to R124, R154). -/

namespace Sys2Proof.Machine
set_option Elab.async false

-- A frame's sample-buffer entry and its codewords (R107 to R124, R154).

theorem acquireEntry_of_place {s t : State} {island : Nat} (e : SbufEntry) (himg : t.img = s.img) (harm : (getIsl t island).arm = (getIsl s island).arm)
    (hhead : (getIsl t island).head = (getIsl s island).head) (hzone : (getIsl t island).zone = (getIsl s island).zone) : acquireEntry t island e = acquireEntry s island e := by
  unfold acquireEntry frameRefOf
  dsimp only
  rw [himg, harm, hhead, hzone]

/-- The island after its next frame has taken an entry. -/
def entered (e : SbufEntry) (i : Island) : Island := { i with frames := e.frame + 1, sbuf := (i.sbuf.filter fun d => decide (e.frame < d.frame + 8)) ++ [e] }
theorem pushEntry_island (island : Nat) (e : SbufEntry) (s : State) : steady (getIsl (pushEntry island e s) island) = entered e (steady (getIsl s island)) := by
  unfold pushEntry
  rw [getIsl_modIsl]
  exact congrArg (entered e) ((dropRequests_readPath ..).steadily island)
/-- The queue, its count of lost frames and FMT_ID. -/
abbrev queueView (s : State) : List (Nat × Codeword) × Nat × BitVec 16 := (s.bol.queue, s.bol.queueFull, s.layout.fmtId)
theorem Kept.toQueue {s t : State} (h : Kept readView s t) : Kept queueView s t :=
  ⟨congrArg (fun v : List (Nat × Codeword) × Nat × BitVec 16 × (Nat → Island) => (v.1, v.2.1, v.2.2.1)) h.view⟩
theorem modIsl_queue (s : State) (k : Nat) (f : Island → Island) : Kept queueView s (modIsl s k f) := ⟨rfl⟩
theorem pushEntry_queue (island : Nat) (e : SbufEntry) (s : State) : Kept queueView s (pushEntry island e s) := by
  unfold pushEntry
  exact (modIsl_queue ..).after (dropRequests_readPath ..).toQueue

theorem freeQueueSlot_isSome {s : State} (h : s.bol.queue.length < 1024) : ∃ k, freeQueueSlot s = some k := by
  refine Option.ne_none_iff_exists'.mp fun hnone => ?_
  have hall : ∀ k ∈ List.range 1024, k ∈ s.bol.queue.map (·.1) := fun k hk => by
    have := List.find?_eq_none.mp hnone k hk
    simpa using this
  have hlen := (List.nodup_range.subperm hall).length_le
  simp only [List.length_range, List.length_map] at hlen
  omega
theorem enqueue_readPath {c : Codeword} {s : State} {k : Nat} (h : freeQueueSlot s = some k) :
    Kept readView { s with bol := { s.bol with queue := s.bol.queue ++ [(k, c)] } } (enqueue c s) := by
  unfold enqueue
  rw [h]
  exact pressureUp_readPath ..
/-- Codewords that show `cs` have joined the queue; FMT_ID is as before. -/
structure Joined {α : Type} (show_ : Codeword → α) (cs : List α) (s t : State) : Prop where
  added : ∃ new, t.bol.queue = s.bol.queue ++ new ∧ new.map (show_ ·.2) = cs
  fmtId : t.layout.fmtId = s.layout.fmtId
theorem Joined.nil {α : Type} {f : Codeword → α} {s : State} : Joined f [] s s := ⟨⟨[], (List.append_nil _).symm, rfl⟩, rfl⟩
theorem Joined.cons {α : Type} {f : Codeword → α} {c : α} {cs : List α} {s t u : State} (h : Joined f [c] s t) (k : Joined f cs t u) : Joined f (c :: cs) s u := by
  obtain ⟨new, hnew, hshown⟩ := h.added
  obtain ⟨more, hmore, hrest⟩ := k.added
  refine ⟨⟨new ++ more, by rw [hmore, hnew, List.append_assoc], by rw [List.map_append, hshown, hrest]; rfl⟩, k.fmtId.trans h.fmtId⟩
theorem enqueue_joins {α : Type} {f : Codeword → α} {c : Codeword} {k : α} {s t : State} (h : Kept readView s t) (hroom : s.bol.queue.length < 1024) (hk : f c = k) :
    Joined f [k] s (enqueue c t) := by
  obtain ⟨n, hn⟩ := freeQueueSlot_isSome (s := t) (by rw [h.codewords]; exact hroom)
  have he := enqueue_readPath (c := c) hn
  exact ⟨⟨[(n, c)], he.codewords.trans (by rw [h.codewords]), congrArg (fun x => [x]) hk⟩, he.fmtId.trans h.fmtId⟩
theorem Joined.length {α : Type} {f : Codeword → α} {cs : List α} {s t : State} (h : Joined f cs s t) : t.bol.queue.length = s.bol.queue.length + cs.length := by
  obtain ⟨new, hnew, hshown⟩ := h.added
  rw [hnew, List.length_append, ← hshown, List.length_map]
theorem Joined.shown {α : Type} {f : Codeword → α} {cs : List α} {s t : State} (h : Joined f cs s t) : (t.bol.queue.drop s.bol.queue.length).map (f ·.2) = cs := by
  obtain ⟨new, hnew, hshown⟩ := h.added
  rw [hnew, List.drop_left, hshown]

-- The outcomes of a frame.

/-- Arm, head, track, slot, candidate, rung and address of the codewords of a frame (R118). -/
abbrev frameWords (n slot : Nat) (fmtId : BitVec 16) (wanted : List (Nat × Nat × Place)) : List (Nat × Nat × Nat × Nat × Nat × Nat × BitVec 64) :=
  wanted.map fun k => (n / 8, n % 8, k.1, slot, 0, k.2.1, paddrOf fmtId k.2.2)
theorem each_joins {β α : Type} {f : Codeword → α} {g : β → State → State} {k : BitVec 16 → β → α}
    (hg : ∀ x s, s.bol.queue.length < 1024 → Joined f [k s.layout.fmtId x] s (g x s)) (xs : List β) (s : State) (h : s.bol.queue.length + xs.length ≤ 1024) :
    Joined f (xs.map (k s.layout.fmtId)) s (each xs g s) := by
  induction xs generalizing s with
  | nil => exact .nil
  | cons x xs ih =>
    rw [List.length_cons] at h
    have hx := hg x s (by omega)
    have hxs := ih (g x s) (by rw [hx.length, List.length_singleton]; omega)
    rw [hx.fmtId] at hxs
    rw [each_cons]
    exact hx.cons hxs
theorem queueFrame_queues {island n : Nat} {e : SbufEntry} {wanted : List (Nat × Nat × Place)} {c1 score1 : Nat} {cs : Array DetCell} {lam : Array (Int × Int)} {s : State}
    (h : s.bol.queue.length + wanted.length ≤ 1024) :
    let t := queueFrame island n e wanted none c1 score1 cs lam s
    (t.bol.queue.drop s.bol.queue.length).map (fun q => (q.2.arm, q.2.head, q.2.track, q.2.slot, q.2.cand, q.2.rung, q.2.expAddr)) = frameWords n e.slot s.layout.fmtId wanted := by
  dsimp only
  unfold queueFrame
  extract_lets tracks _ _ u
  rw [if_neg (by unfold tracks; rw [List.length_map]; omega)]
  have hu : Kept queueView s u := modIsl_queue ..
  have hqueue : u.bol.queue = s.bol.queue := congrArg Prod.fst hu.view
  have hfmt : u.layout.fmtId = s.layout.fmtId := congrArg (·.2.2) hu.view
  clear_value u
  generalize ht : each wanted _ u = t
  have hj : Joined (fun q => (q.arm, q.head, q.track, q.slot, q.cand, q.rung, q.expAddr)) (frameWords n e.slot u.layout.fmtId wanted) u t := by
    rw [← ht]
    refine each_joins (k := fun fmtId w => (n / 8, n % 8, w.1, e.slot, 0, w.2.1, paddrOf fmtId w.2.2)) (fun w s hroom => ?_) wanted u (by rw [hqueue]; exact h)
    dsimp only
    refine enqueue_joins ?_ hroom rfl
    exact .ite (enterRung_readPath ..) .refl
  have hshown := hj.shown
  rw [hqueue, hfmt] at hshown
  exact hshown

end Sys2Proof.Machine
end

section
/-! A frame whose sync mark is accepted (R119, R120). -/

namespace Sys2Proof.Machine
set_option Elab.async false

-- A frame from its samples on (R107 to R121).

/-- The island once its frame's sync mark is accepted: CHN_TIMING, and the candidates in the entry. -/
def marked (island : Nat) (e : SbufEntry) (r : FrameRef) (q : Acquired) (c1 : Nat × Int) (kept : Option (Nat × Int)) (s : State) : State :=
  let score2 := (kept.map fun (c : Nat × Int) => c.2).getD 0
  modIsl (noteTiming island r q c1.2.toNat score2.toNat s) island fun i => { i with sbuf := i.sbuf.map fun d => if d.frame = e.frame then
    { d with cand1 := some (c1.1 : Int), cand2 := kept.map fun (c : Nat × Int) => (c.1 : Int), score2 } else d }
theorem marked_queue (island : Nat) (e : SbufEntry) (r : FrameRef) (q : Acquired) (c1 : Nat × Int) (kept : Option (Nat × Int)) (s : State) :
    Kept queueView s (marked island e r q c1 kept s) := (modIsl_queue ..).after (modIsl_queue ..)

section
variable {img : Image} {island : Nat} {e : SbufEntry} {xs : List Sector} {wanted : List (Nat × Nat × Place)} {s : State} {r : FrameRef} {q : Acquired}
/-- The detector's soft values of a frame. -/
abbrev frameSoft (img : Image) (island : Nat) (e : SbufEntry) (q : Acquired) (s : State) : Array (Int × Int) :=
  detectFrame img (8 * (getIsl s island).arm + (getIsl s island).head) (getIsl s island).zone e.set (detCells q fun _ => none)
/-- The sync mark's search in them. -/
abbrev syncOf (img : Image) (island : Nat) (e : SbufEntry) (q : Acquired) (s : State) : Option (Nat × Int) × Option (Nat × Int) :=
  syncSearch (syncScore (frameSoft img island e q s)) q.sync (if e.wide then 96 else 48)
abbrev thresholdOf (img : Image) (island : Nat) (e : SbufEntry) (s : State) : Nat := syncThr img (8 * (getIsl s island).arm + (getIsl s island).head) (getIsl s island).zone e.set
/-- The better of the other candidates, where it passes its threshold. -/
def secondOf (img : Image) (island : Nat) (e : SbufEntry) (c2 : Option (Nat × Int)) (s : State) : Option (Nat × Int) :=
  c2.filter fun (c : Nat × Int) => decide ((syncThr2 img (8 * (getIsl s island).arm + (getIsl s island).head) (getIsl s island).zone e.set : Int) ≤ c.2)
theorem detectEntry_marked (h : acquireEntry { s with img } island e = (r, some q)) (hlost : ¬ q.loop.lost = true) {c1 : Nat × Int} {c2 : Option (Nat × Int)}
    (hsync : syncOf img island e q s = (some c1, c2)) (hmark : ¬ c1.2 < (thresholdOf img island e s : Int)) :
    detectEntry img island e xs wanted none s =
      if 1024 < erasedCells (detCells q fun _ => none) c1.1 then lostFrame xs false (tooErased island (marked island e r q c1 (secondOf img island e c2 s) s))
      else queueFrame island (8 * (getIsl s island).arm + (getIsl s island).head) e wanted none c1.1 c1.2.toNat (detCells q fun _ => none) (frameSoft img island e q s)
        (marked island e r q c1 (secondOf img island e c2 s) s) := by
  unfold detectEntry
  rw [h]
  dsimp only
  rw [if_neg hlost]
  unfold syncOf frameSoft at hsync
  rw [hsync]
  exact if_neg hmark
end

end Sys2Proof.Machine
end

section
/-! The part with a frame's entry (R122). -/

namespace Sys2Proof.Machine
set_option Elab.async false

-- Frames give codewords (O19).

theorem entered_fields {i j : Island} {e : SbufEntry} (h : steady j = entered e (steady i)) :
    j.arm = i.arm ∧ j.head = i.head ∧ j.zone = i.zone ∧ j.frames = e.frame + 1 ∧ j.sbuf = (i.sbuf.filter fun d => decide (e.frame < d.frame + 8)) ++ [e] :=
  ⟨(congrArg Island.arm h :), (congrArg Island.head h :), (congrArg Island.zone h :), (congrArg Island.frames h :), (congrArg Island.sbuf h :)⟩
/-- The part with a frame's entry. -/
def withEntry (island set : Nat) (e : SbufEntry) (s : State) : State := pushEntry island e (modIsl s island fun i => { i with set })
section
variable (island set : Nat) (e : SbufEntry) (s : State)
theorem withEntry_queue : Kept queueView s (withEntry island set e s) := (pushEntry_queue ..).after (modIsl_queue ..)
theorem withEntry_island : steady (getIsl (withEntry island set e s) island) = entered e (steady { getIsl s island with set }) := by
  unfold withEntry
  rw [pushEntry_island, getIsl_modIsl]
theorem withEntry_place :
    (getIsl (withEntry island set e s) island).arm = (getIsl s island).arm ∧ (getIsl (withEntry island set e s) island).head = (getIsl s island).head ∧
      (getIsl (withEntry island set e s) island).zone = (getIsl s island).zone := by
  obtain ⟨harm, hhead, hzone, _, _⟩ := entered_fields (withEntry_island island set e s)
  exact ⟨harm, hhead, hzone⟩
end

end Sys2Proof.Machine
end

section
/-! Frames whose cells all lie at one time (O19). -/

namespace Sys2Proof.Machine
set_option Elab.async false

-- Frames whose cells all lie at one time (O19).

/-- The loops of a frame with no cell period, at one time that both readers have samples of: nothing moves, and every cell has its value. -/
structure Standing (n : Nat) (l : Loop) : Prop where
  time : l.t = 0
  period : l.p = 0
  held : l.lost = false
  edges : l.edges = []
  inputs : ∀ z ∈ l.z, z.isSome = true
  window : l.z.length = min 16 (8 + n)
  size : l.y.size = n - 7
  outputs : ∀ y ∈ l.y, y.isSome = true
theorem Standing.loopUpdate {n : Nat} {l : Loop} (h : Standing n l) (c : Chan) (kp ki : Nat) (stepG stepO : Int) (sym : Int → Bool × Bool) (j : Nat) :
    Standing n (loopUpdate c 0 kp ki stepG stepO sym j l) := by
  obtain ⟨ht, hp, hlost, hedges, hz, hlen, hsize, hy⟩ := h
  unfold Machine.loopUpdate
  split
  · refine ⟨?_, ?_, ?_, hedges, hz, hlen, hsize, hy⟩
    · simp [ht, hp]
    · simp [hp]
    · simp [hlost, hp]
  · exact ⟨ht, hp, hlost, hedges, hz, hlen, hsize, hy⟩
theorem Standing.ite {n : Nat} {l m : Loop} {p : Prop} [Decidable p] (h : Standing n l) (k : Standing n m) : Standing n (if p then l else m) := by
  split
  · exact h
  · exact k
theorem equalise_isSome {taps : Array Int} {window : List (Option (Int × Int))} (hlen : window.length = 16) (h : ∀ z ∈ window, z.isSome = true) : (equalise taps window).isSome = true := by
  unfold equalise
  rw [if_pos ⟨hlen, List.all_eq_true.mpr h⟩]
  rfl
section
variable {c : Chan} (hread : ∀ g oA oB, (readZ c 0 0 g oA oB).isSome = true)
include hread
/-- A cell's input joins the window. -/
theorem Standing.input {n : Nat} {l : Loop} (h : Standing n l) :
    let z := (readZ c l.t l.p l.g l.oA l.oB :: l.z).take 16
    (∀ x ∈ z, x.isSome = true) ∧ z.length = min 16 (8 + (n + 1)) := by
  refine ⟨fun x hx => ?_, ?_⟩
  · rcases List.mem_cons.mp (List.mem_of_mem_take hx) with rfl | hx
    · rw [h.time, h.period]
      exact hread ..
    · exact h.inputs x hx
  · rw [List.length_take, List.length_cons, h.window]
    omega
theorem Standing.step {n : Nat} {l : Loop} (h : Standing n l) (f : ZoneFmt) : Standing (n + 1) (loopStep c f 0 none l n) := by
  obtain ⟨hz, hlen⟩ := h.input hread
  unfold loopStep
  extract_lets p0 u y paths v pattern decided acq kp ki stepG stepO w next x
  have hv : Standing (n + 1) v := by
    unfold v
    split
    · next hn => exact ⟨h.time, h.period, h.held, h.edges, hz, hlen, h.size.trans (by omega), h.outputs⟩
    · next hn =>
      refine ⟨h.time, h.period, h.held, h.edges, hz, hlen, ?_, fun y hy => ?_⟩
      · rw [Array.size_push, h.size]
        omega
      · rcases Array.mem_push.mp hy with hy | rfl
        · exact h.outputs y hy
        · exact equalise_isSome (hlen.trans (by omega)) hz
  clear_value v
  have hw : Standing (n + 1) w := by
    unfold w
    split
    · exact hv
    · exact .ite (hv.loopUpdate ..) (hv.loopUpdate ..)
  clear_value w
  have hnext : next = 0 := by
    unfold next p0
    rw [hw.time, h.period]
    rfl
  have hx : x.edges = [] := hw.edges
  rw [hx]
  exact ⟨hnext, hw.period, hw.held, rfl, hw.inputs, hw.window, hw.size, hw.outputs⟩
/-- Over the cells of a run. -/
theorem Standing.run {n : Nat} {l : Loop} (h : Standing n l) (f : ZoneFmt) (m : Nat) : Standing (n + m) (((List.range m).map (n + ·)).foldl (loopStep c f 0 none) l) := by
  induction m with
  | zero => exact h
  | succ m ih =>
    rw [List.range_succ, List.map_append, List.foldl_append]
    exact ih.step hread f
/-- The acquired frame: its cells from the detecting block on all have their values. -/
theorem acquire_standing {r : FrameRef} {win : Nat} (hpm : r.pm = 0) {b : Int × (Int × Int)} (hb : preambleBlock c r win = some b) (htime : gridTime r b.1 = 0)
    (hedges : (frameEdges r).filter (fun e => decide (0 < e.1)) = []) :
    ∃ q, acquire c r win none = some q ∧ q.sync = 192 - (b.1 + round64 (patternLag b.2)) ∧ q.loop.lost = false ∧
      q.ys.size = (192 - (b.1 + round64 (patternLag b.2)) + win + 36928 + 8).toNat - 7 ∧ ∀ y ∈ q.ys, y.isSome = true := by
  unfold acquire
  rw [hb, Option.map_some]
  refine ⟨_, rfl, rfl, ?_⟩
  dsimp only
  rw [hpm, htime]
  generalize patternLag b.2 = lag
  have hstart : (0 : Int) + lag * 0 / (64 * 65536) = 0 := by simp
  rw [hstart, hedges]
  generalize clampInt 32768 131072 (16 * 65536 * c.agc / max 1 (Nat.sqrt (power2 b.2).toNat : Int)) = g0
  have hle : (37120 - (b.1 + round64 lag)).toNat ≤ (192 - (b.1 + round64 lag) + win + 36928 + 8).toNat := by omega
  generalize (192 - (b.1 + round64 lag) + win + 36928 + 8).toNat = cells at hle
  generalize (37120 - (b.1 + round64 lag)).toNat = last at hle
  generalize hbefore : List.map (fun (k : Int) => readZ c (0 - (k + 1) * 0 / 65536) 0 g0 0 0) _ = before
  have hinit : Standing 0 { t := 0, p := 0, g := g0, edges := [], z := before } := by
    refine ⟨rfl, rfl, rfl, rfl, fun z hz => ?_, ?_, rfl, fun y hy => absurd hy (Array.not_mem_empty y)⟩
    · rw [← hbefore] at hz
      obtain ⟨k, -, rfl⟩ := List.mem_map.mp hz
      rw [show (0 : Int) - (k + 1) * 0 / 65536 = 0 by simp]
      exact hread ..
    · rw [← hbefore, List.length_map]
      rfl
  have hend := hinit.run hread r.fmt last
  have hlast := hend.run hread r.fmt (cells - last)
  simp only [Nat.zero_add, List.map_id'] at hend hlast
  rw [Nat.add_sub_cancel' hle] at hlast
  exact ⟨hend.held, hlast.size, hlast.outputs⟩
end

end Sys2Proof.Machine
end

section
/-! A detector without scale, and a frame with no erased cell (O19). -/

namespace Sys2Proof.Machine
set_option Elab.async false

-- A detector without scale, and a frame with no erased cell (O19).

theorem detect_flat (g : List Int) (cs : Array DetCell) : ∀ v ∈ detect g 0 0 cs, v = (0, 0) := by
  intro v hv
  unfold detect at hv
  rw [List.mem_toArray, List.mem_flatMap] at hv
  obtain ⟨w, -, hv⟩ := hv
  obtain ⟨b, -, rfl⟩ := List.mem_map.mp hv
  dsimp only
  split
  · rfl
  · simp [clampInt]
theorem getD_flat {lam : Array (Int × Int)} (h : ∀ v ∈ lam, v = (0, 0)) (k : Nat) : lam.getD k (0, 0) = (0, 0) := by
  unfold Array.getD
  split
  · exact h _ (Array.getElem_mem _)
  · rfl
theorem syncScore_flat {lam : Array (Int × Int)} (h : ∀ v ∈ lam, v = (0, 0)) : syncScore lam = fun _ => 0 := by
  funext p
  unfold syncScore
  simp only [getD_flat h, neg_zero, ite_self, add_zero]
  simp
theorem erasedCells_none {ys : Array (Option (Int × Int))} {known : Nat → Option (Bool × Bool)} {p : Nat} (hall : ∀ y ∈ ys, y.isSome = true) (hsize : p + 32 + 36864 ≤ ys.size) :
    erasedCells (ys.mapIdx fun m y => ({ y, known := known m } : DetCell)) p = 0 := by
  unfold erasedCells
  rw [List.length_eq_zero_iff, List.filter_eq_nil_iff]
  intro k hk
  have hlt : p + 32 + k < ys.size := by
    have := List.mem_range.mp hk
    omega
  have hget : (ys.mapIdx fun m y => ({ y, known := known m } : DetCell)).getD (p + 32 + k) {} = { y := ys[p + 32 + k], known := known (p + 32 + k) } := by
    simp [Array.getD, hlt]
  rw [hget]
  have := hall _ (Array.getElem_mem hlt)
  simp [Option.isSome_iff_ne_none] at this ⊢
  exact this

end Sys2Proof.Machine
end

section
/-! A head that fails as its oldest entry is overwritten (O19). -/

namespace Sys2Proof.Machine
set_option Elab.async false

-- A head that fails as its oldest entry is overwritten (O19).

/-- A zone whose wedge intervals hold one data cell each. -/
def flatZone : ZoneFmt := { sz := 16, cpw := 11, wg := 10, samplePeriod := 1 }
/-- Two heads of one arm; the channel sets hold an offset and a gain of reader A alone. -/
def flatImage : Image := { loaded := true, arms := 1, heads := 2, zones := [(0, [flatZone])], bins := [(0x100000, List.replicate 20 0 ++ [16, 0, 0, 0, 1])] }
/-- Two words of samples 0, the second of them at time 0. -/
def flatStream : Stream := { running := true, words := [(100, 0), (99, 0)], marks := [(100, 0)] }
/-- A sector of a follow-up list at its last rung, which waits for its second candidate. -/
def lastChance : Sector := { rung := 6, second := true, followUp := true }
/-- The sector to be read; two runs cover it, of which the first leads to head 0 and the second to head 1. -/
def movedSector : Sector := { row := 3 }
/-- Head 0 reads. Its frame 0 has its request still open, and the next frame is the ninth; wedge 0 lies at time 0, any other before it. -/
def ninthFrame : State where
  dev := .ready
  start := { inReset := false, powerOnReset := false }
  img := flatImage
  alks := [(0, { streams := [(0, flatStream), (1, flatStream)] })]
  islands := [(0, { assigned := true, state := 2, frames := 8, sbuf := [{}], requests := [(0, 0)] })]
  heads := [(0, { onRead := true, refs := [(5, -1000, 0), (0, 0, 0)] })]
  bol := { sectors := [lastChance, movedSector] }
  layout := { runs := [{ srcRow := 3, count := 2, valid := true }, { srcRow := 2, count := 2, valid := true }] }
  slu := { ops := [(0, some { kind := .rowRead, row := 3, want := [0], heads := [0] })] }
/-- The frame's entry. -/
def ninthEntry : SbufEntry :=
  { frame := 8, wordsA := [(99, 0), (100, 0)], wordsB := [(99, 0), (100, 0)], marksA := [(100, 0)], marksB := [(100, 0)], refs := [(5, -1000, 0), (0, 0, 0)] }
theorem ninthFrame_entry : frameEntry ninthFrame 0 0 0 false = ninthEntry := by decide

-- The frame's samples.

def flatView : View := viewOf [(99, 0), (100, 0)] [(100, 0)] 1
def flatChan : Chan := chanOf flatImage 0 0 0 flatView flatView
def flatRef : FrameRef := { fmt := flatZone, refs := [(5, -1000, 0), (0, 0, 0)], x := 0, pm := 0 }
theorem ninthFrame_acquire : acquireEntry ninthFrame 0 ninthEntry = (flatRef, acquire flatChan flatRef 48 none) := rfl
theorem flatView_now : interpolate flatView 0 = some 0 := by
  have hs : ∀ k < 8, sampleAt flatView (64000 / 64 - 3 + ((k : Nat) : Int)) = some 0 := by decide
  have hp : samplePos flatView 0 = some 64000 := by decide
  unfold interpolate
  rw [hp]
  simp only [Option.bind_some, List.range_succ, List.range_zero, List.nil_append, List.cons_append, List.foldl_cons, List.foldl_nil]
  rw [hs 0 (by decide), hs 1 (by decide), hs 2 (by decide), hs 3 (by decide), hs 4 (by decide), hs 5 (by decide), hs 6 (by decide), hs 7 (by decide)]
  simp only [mul_zero, add_zero]
  rfl
theorem flatView_before : interpolate flatView (-65536000) = none := by
  have hs : sampleAt flatView (-4194240000 / 64 - 3) = none := by decide
  have hp : samplePos flatView (-65536000) = some (-4194240000) := by decide
  unfold interpolate
  rw [hp]
  simp only [Option.bind_some, List.range_succ, List.range_zero, List.nil_append, List.cons_append, List.foldl_cons, List.foldl_nil]
  rw [show ((0 : Nat) : Int) = 0 from rfl, add_zero, hs]
  rfl
theorem readZ_now (g oA oB : Int) : readZ flatChan 0 0 g oA oB = some (correct flatChan.offA flatChan.gainA flatChan.asymA 0 oA g, correct flatChan.offB flatChan.gainB flatChan.asymB 0 oB g) := by
  unfold readZ
  rw [show flatChan.useA = true from rfl, show flatChan.useB = true from rfl, show flatChan.va = flatView from rfl, show flatChan.vb = flatView from rfl, mul_zero, Int.zero_ediv, add_zero, flatView_now]
  rfl
theorem readZ_before (g oA oB : Int) : readZ flatChan (-65536000) 0 g oA oB = none := by
  unfold readZ
  rw [show flatChan.useA = true from rfl, show flatChan.va = flatView from rfl, flatView_before]
  rfl
theorem refTime_flat {w : Nat} (h : 0 < w % 960) : refTime flatRef.refs w = -65536000 := by
  unfold refTime
  by_cases h5 : 5 = w % 960
  · simp [flatRef, h5]
  · have h0 : ¬ 0 = w % 960 := by omega
    simp [flatRef, h5, h0]
/-- The first cells of the preamble's search lie in wedge 0, the others before it. -/
theorem gridTime_flat {k : Nat} (hk : k < 336) : gridTime flatRef ((k : Int) - 48) = if k < 49 then 0 else -65536000 := by
  unfold gridTime
  rw [show dataCells flatRef.fmt = 1 from rfl, show flatRef.fmt.wg = 10 from rfl, show flatRef.fmt.cpw = 11 from rfl, show flatRef.pm = 0 from rfl, show flatRef.x = 0 from rfl]
  by_cases h : k < 49
  · rw [if_pos h]
    dsimp only
    rw [if_pos (by push_cast; omega), mul_zero, Int.zero_ediv, add_zero]
    rfl
  · rw [if_neg h]
    dsimp only
    rw [if_neg (by push_cast; omega), mul_zero, Int.zero_ediv, add_zero, refTime_flat (by omega)]
/-- The sums of both readers over the cells of the search. -/
theorem flat_sums : List.map (fun (k : Int) => (readZ flatChan (gridTime flatRef (k - 48)) flatRef.pm 65536 0 0).map fun z => z.1 + z.2) (List.range (48 + 288)) =
    (List.range 336).map fun k => if k < 49 then some (-1) else none := by
  rw [bind_pure_comp, List.map_eq_map, List.map_map]
  refine List.map_congr_left fun k hk => ?_
  dsimp only [Function.comp]
  rw [gridTime_flat (List.mem_range.mp hk), show flatRef.pm = 0 from rfl]
  split
  · rw [readZ_now]
    exact congrArg some (by decide)
  · rw [readZ_before]
    rfl
theorem flat_preamble : preambleBlock flatChan flatRef 48 = some (-24, (-1, 0)) := by
  unfold preambleBlock
  rw [show ((48 : Nat) : Int) = 48 from rfl, flat_sums]
  decide +kernel

end Sys2Proof.Machine
end

section
/-! The codewords of the frame lie where the sector has moved to (O19). -/

namespace Sys2Proof.Machine
set_option Elab.async false

-- The codewords of the frame lie where the sector has moved to (O19).

/-- The part after a frame (R107 to R122). -/
def frameTaken (island slot : Nat) (s : State) : State :=
  let i := getIsl s island
  let n := 8 * i.arm + i.head
  let h := getHead s n
  let all := secsAt s i.arm i.head slot
  let xs := passSectors all
  if !i.assigned || i.failed || i.state ≠ 2 || h.suspended || h.failed then s
  else match (visitStep s n).filter fun x => x.2.1.kind = 0 with
  | some x => visitFrame island n slot x.1 x.2.2 s
  | none =>
    if xs.isEmpty then s
    else
    let set := rungSet ((xs.map (·.rung)).foldl max 1)
    let e := frameEntry s island slot set (xs.any (·.missed))
    let s := pushEntry island e (modIsl s island fun i => { i with set })
    if !h.onRead || 2 ≤ h.lostRun then offTrackFrame xs s else detectEntry s.img island e xs (ladderTracks s all xs) none s
theorem exec_preambleSearch {island : Fin 68} {slot : Nat} {s : State} (hawake : awake s = true) : exec (.preambleSearch island slot) s = .next (frameTaken island slot s) := by
  refine (if_pos hawake).trans ?_
  unfold frameTaken
  rfl
/-- The part once the frame has its entry. -/
def overwritten : State := withEntry 0 0 ninthEntry ninthFrame
theorem overwritten_img : overwritten.img = flatImage := by
  unfold overwritten withEntry
  rw [(pushEntry_only ..).img rfl]
  rfl
theorem overwritten_tracks : ladderTracks overwritten [movedSector] [movedSector] = [(0, 1, { head := 1 }), (1, 1, { head := 1, track := 1 })] := by decide +kernel
theorem ninthFrame_tracks : ladderTracks ninthFrame [movedSector] [movedSector] = [(0, 1, {}), (1, 1, { track := 1 })] := by decide +kernel
theorem ninthFrame_all : secsAt ninthFrame 0 0 0 = [movedSector] := by decide
theorem ninthFrame_taken : frameTaken 0 0 ninthFrame = detectEntry flatImage 0 ninthEntry [movedSector] (ladderTracks overwritten [movedSector] [movedSector]) none overwritten := by
  have hread : (!(getIsl ninthFrame 0).assigned || (getIsl ninthFrame 0).failed || decide ((getIsl ninthFrame 0).state ≠ 2) || (getHead ninthFrame 0).suspended || (getHead ninthFrame 0).failed) = false := by decide
  have hvisit : (visitStep ninthFrame 0).filter (fun x => x.2.1.kind = 0) = none := by decide
  have hontrack : (!(getHead ninthFrame 0).onRead || decide (2 ≤ (getHead ninthFrame 0).lostRun)) = false := by decide
  have hentry : frameEntry ninthFrame 0 0 (rungSet (([movedSector].map (·.rung)).foldl max 1)) ([movedSector].any (·.missed)) = ninthEntry := ninthFrame_entry
  have harm : (getIsl ninthFrame 0).arm = 0 := rfl
  have hhead : (getIsl ninthFrame 0).head = 0 := rfl
  unfold frameTaken
  dsimp only
  rw [harm, hhead, ninthFrame_all, show passSectors [movedSector] = [movedSector] by decide, hread, hvisit]
  rw [if_neg Bool.false_ne_true]
  dsimp only
  rw [if_neg (by decide), show 8 * 0 + 0 = 0 from rfl, hontrack, if_neg Bool.false_ne_true, hentry, ← overwritten_img]
  unfold overwritten withEntry
  rfl
/-- The frame's cells. -/
theorem ninthFrame_cells : ∃ q, acquireEntry ninthFrame 0 ninthEntry = (flatRef, some q) ∧ q.sync = 214 ∧ q.loop.lost = false ∧ q.ys.size = 37191 ∧ ∀ y ∈ q.ys, y.isSome = true := by
  have htime : gridTime flatRef (-24) = 0 := (gridTime_flat (k := 24) (by decide)).trans (if_pos (by decide))
  have hedges : (frameEdges flatRef).filter (fun e => decide (0 < e.1)) = [] := by decide
  obtain ⟨q, hq, hsync, hlost, hsize, hall⟩ :=
    acquire_standing (c := flatChan) (r := flatRef) (win := 48) (fun g oA oB => by rw [readZ_now]; rfl) rfl flat_preamble htime hedges
  exact ⟨q, ninthFrame_acquire.trans (by rw [hq]), hsync.trans (by decide +kernel), hlost, hsize.trans (by decide +kernel), hall⟩
theorem overwritten_place : (getIsl overwritten 0).arm = 0 ∧ (getIsl overwritten 0).head = 0 ∧ (getIsl overwritten 0).zone = 0 := by
  obtain ⟨harm, hhead, hzone⟩ := withEntry_place 0 0 ninthEntry ninthFrame
  exact ⟨harm, hhead, hzone⟩
theorem overwritten_queue : overwritten.bol.queue = [] ∧ overwritten.layout.fmtId = 0 := by
  have h := withEntry_queue 0 0 ninthEntry ninthFrame
  exact ⟨congrArg Prod.fst h.view, congrArg (·.2.2) h.view⟩

end Sys2Proof.Machine
end

section
/-! The refutation of O19. -/

namespace Sys2Proof.Machine
set_option Elab.async false

-- The refutation of O19.

theorem flat_soft (q : Acquired) (s : State) (harm : (getIsl s 0).arm = 0) (hhead : (getIsl s 0).head = 0) (hzone : (getIsl s 0).zone = 0) :
    syncScore (frameSoft flatImage 0 ninthEntry q s) = fun _ => 0 := by
  have hflat : frameSoft flatImage 0 ninthEntry q s = detect (targetTaps flatImage 0 0 0) 0 0 (detCells q fun _ => none) := by
    unfold frameSoft detectFrame
    rw [harm, hhead, hzone]
    rfl
  exact syncScore_flat (hflat ▸ detect_flat _ _)
theorem flat_sync (q : Acquired) (hq : q.sync = 214) (s : State) (harm : (getIsl s 0).arm = 0) (hhead : (getIsl s 0).head = 0) (hzone : (getIsl s 0).zone = 0) :
    syncOf flatImage 0 ninthEntry q s = (some (166, 0), some (168, 0)) := by
  unfold syncOf
  rw [flat_soft q s harm hhead hzone, hq]
  decide +kernel
/-- The frame's codewords, at the places that the sector has after the failure of head 0. -/
theorem ninthFrame_queues : ((frameTaken 0 0 ninthFrame).bol.queue).map (fun q => (q.2.arm, q.2.head, q.2.track, q.2.slot, q.2.cand, q.2.rung, q.2.expAddr)) =
    frameWords 0 0 0 (ladderTracks overwritten [movedSector] [movedSector]) := by
  obtain ⟨q, hq, hsync, hlost, hsize, hall⟩ := ninthFrame_cells
  obtain ⟨harm, hhead, hzone⟩ := overwritten_place
  obtain ⟨hqueue, hfmt⟩ := overwritten_queue
  have himg : ({ overwritten with img := flatImage } : State) = overwritten := by rw [← overwritten_img]
  have hacquire : acquireEntry { overwritten with img := flatImage } 0 ninthEntry = (flatRef, some q) := by
    rw [himg, acquireEntry_of_place (s := ninthFrame) ninthEntry overwritten_img harm hhead hzone, hq]
  have herased : erasedCells (detCells q fun _ => none) 166 = 0 := erasedCells_none hall (by omega)
  have hthreshold : thresholdOf flatImage 0 ninthEntry overwritten = 0 := by
    unfold thresholdOf
    rw [harm, hhead, hzone]
    decide
  rw [ninthFrame_taken, detectEntry_marked hacquire (by rw [hlost]; exact Bool.false_ne_true) (flat_sync q hsync overwritten harm hhead hzone) (by rw [hthreshold]; decide),
    if_neg (by rw [herased]; decide), harm, hhead]
  generalize hm : marked 0 ninthEntry flatRef q (166, 0) _ overwritten = t
  have hkept : Kept queueView overwritten t := hm ▸ marked_queue ..
  have ht : t.bol.queue = [] := (congrArg Prod.fst hkept.view).trans hqueue
  have hf : t.layout.fmtId = 0 := (congrArg (·.2.2) hkept.view).trans hfmt
  have hjoined := (queueFrame_queues (island := 0) (n := 8 * 0 + 0) (e := ninthEntry) (wanted := ladderTracks overwritten [movedSector] [movedSector]) (c1 := 166) (score1 := (0 : Int).toNat)
    (cs := detCells q fun _ => none) (lam := frameSoft flatImage 0 ninthEntry q overwritten) (s := t) (by rw [ht, overwritten_tracks]; decide))
  rw [ht, hf] at hjoined
  exact hjoined

/-- Refutes O19: a frame that overwrites an entry with an open request can make its own head fail, after which a sector that a second run covers lies on another
head; its codewords then carry that head's address, and not the one where the frame was read. -/
theorem not_framesGiveCodewords : ¬ Obligations.FramesGiveCodewords := by
  unfold Obligations.FramesGiveCodewords
  intro h
  obtain ⟨q, hq, hsync, hlost, hsize, hall⟩ := ninthFrame_cells
  obtain ⟨t, ht, -, -, -, -, -, hframe⟩ := (h ninthFrame rfl 0).1 0
  have he := exec_preambleSearch (island := 0) (slot := 0) (s := ninthFrame) rfl
  rw [he] at ht
  obtain rfl : frameTaken 0 0 ninthFrame = t := Host.Outcome.next.inj ht
  dsimp only at hframe
  rw [show ((0 : Fin 68) : Nat) = 0 from rfl, show (getIsl ninthFrame 0).arm = 0 from rfl, show (getIsl ninthFrame 0).head = 0 from rfl, show (getIsl ninthFrame 0).zone = 0 from rfl,
    ninthFrame_all, show passSectors [movedSector] = [movedSector] by decide, show rungSet (([movedSector].map (·.rung)).foldl max 1) = 0 by decide,
    show [movedSector].any (·.missed) = false by decide, ninthFrame_entry, show 8 * 0 + 0 = 0 from rfl, ninthFrame_tracks] at hframe
  obtain ⟨-, hmark⟩ := hframe q (by rw [hq]) ⟨⟨by decide, by decide, by decide⟩, by decide⟩
  have hsearch : syncSearch (syncScore (detectFrame ninthFrame.img 0 0 0 (detCells q fun _ => none))) q.sync 48 = (some (166, 0), some (168, 0)) := flat_sync q hsync ninthFrame rfl rfl rfl
  obtain ⟨-, -, -, -, hqueued⟩ := hmark (166, 0) (some (168, 0)) hsearch hlost
  have herased : erasedCells (detCells q fun _ => none) 166 = 0 := erasedCells_none hall (by omega)
  have hclaimed := hqueued (by decide) (by rw [herased]; decide) (by decide)
  have hqueues := ninthFrame_queues
  rw [overwritten_tracks] at hqueues
  exact absurd (congrArg (List.map fun x => x.2.2.2.2.2.2.toNat) (hqueues.symm.trans hclaimed)) (by decide)

end Sys2Proof.Machine
end

section
/-! A late test context beside an arm beyond the eighth (O17). -/

namespace Sys2Proof.Machine
set_option Elab.async false

-- A late test context beside an arm beyond the eighth (O17).

/-- Ten arms, the last of them loaded; context 149 is late for the second time in a row, in its start law. -/
def tenArms : State where
  dev := .ready
  start := { inReset := false, powerOnReset := false }
  img := { loaded := true, arms := 10, heads := 1 }
  alks := [(9, { owner := 1 })]
  arms := [(9, { state := 5 })]
  gov := { ctxs := [(149, { enable := true, out := 7, ovrRun := 1 })] }
/-- Its output is the one of context 9, which the velocity loop of arm 9 has taken over with it. -/
theorem tenArms_output : (getCtx (runCtx 149 0 { running := true } tenArms) 149).out = 0 := by decide +kernel

/-- A test context that is enabled runs as it stands. -/
theorem exec_testContext {ctx : Fin 160} {input : Int} {o : LoopObs} {s : State} (hawake : awake s = true) (htest : 148 ≤ ctx.val) (henable : (getCtx s ctx).enable = true) :
    exec (.loopExecute ctx input o) s = .next (runCtx ctx input o s) := by
  refine (if_pos hawake).trans ?_
  rw [if_neg (by omega), if_neg (by omega), if_neg (by omega), if_neg (by omega), if_neg (by simp [henable])]
/-- Refutes O17: the fail-stop of a second late run unloads arm 9 of an image with ten, whose velocity loop would be context 149: it is disabled as one of the arm's
heads', so that it takes the output of context 9 over in place of keeping its own. -/
theorem not_theGovernorRunsItsContexts : ¬ Obligations.TheGovernorRunsItsContexts := by
  unfold Obligations.TheGovernorRunsItsContexts
  intro h
  obtain ⟨t, ht, -, -, hlate, -⟩ := (h.1 tenArms rfl 149).1 0 { running := true }
  rw [exec_testContext rfl (by decide) rfl] at ht
  obtain rfl : runCtx 149 0 { running := true } tenArms = t := Host.Outcome.next.inj ht
  obtain ⟨hout, -⟩ := hlate (.inl (by decide)) rfl rfl rfl (.inl rfl)
  exact absurd (tenArms_output.symm.trans hout) (by decide)

end Sys2Proof.Machine
end

section
/-! What of a head nothing but its wedges, its estimates and its loading sets (O13). -/

namespace Sys2Proof.Machine
set_option Elab.async false

-- What of a head the wedges alone set (O13).

/-- What of a head nothing but its wedges, its estimates and its loading sets. -/
def headTrack (h : Head) : (Int × Int × Int × Int) × (Nat × Nat × Int × Nat) × Int × Nat × Bool :=
  ((h.pos, h.dPos, h.tHat, h.wHat), (h.lostRun, h.lostWedge, h.hrSum, h.hrCount), h.clearance, h.contact, h.everAcquired)
/-- A writer that is gated (R195). -/
structure Gated (h : Head) : Prop where
  off : h.writing = false
  gated : h.gated = true
/-- Between the two states the head's track stood, and its writer stayed gated. -/
structure Tracked (hd : Nat) (s t : State) : Prop where
  track : headTrack (getHead t hd) = headTrack (getHead s hd)
  gated : Gated (getHead s hd) → Gated (getHead t hd)

section
variable {hd : Nat}
theorem Tracked.refl {s : State} : Tracked hd s s := ⟨rfl, id⟩
theorem Tracked.after {s t u : State} (h₂ : Tracked hd t u) (h₁ : Tracked hd s t) : Tracked hd s u := ⟨h₂.track.trans h₁.track, h₂.gated ∘ h₁.gated⟩
theorem tracked_of_eq {s t : State} (h : getHead t hd = getHead s hd) : Tracked hd s t := ⟨congrArg headTrack h, fun g => h ▸ g⟩
theorem tracked_of_only {m : Units} {s t : State} (h : Only m s t) (hm : m.heads = false := by rfl) : Tracked hd s t := tracked_of_eq (getHead_of_only hd h hm)
theorem Tracked.upd {s t : State} {dev aon start idn fuses clk pwr flt evt mqs ptn hold diag img nvm layout alks islands bol arms gov spn spc mrc mpd rows tre fls fcc links injs hop slu fan tx free} (h : Tracked hd s t) :
    Tracked hd s (State.mk dev aon start idn fuses clk pwr flt evt mqs ptn hold diag img nvm layout alks islands bol t.heads arms gov spn spc mrc mpd rows tre fls fcc links injs hop slu fan tx free t.pending) :=
  Tracked.after (t := t) (tracked_of_eq rfl) h
theorem Tracked.ite {s t u : State} {c : Prop} [Decidable c] (h₁ : Tracked hd s t) (h₂ : Tracked hd s u) : Tracked hd s (if c then t else u) := by
  split
  · exact h₁
  · exact h₂
theorem Tracked.each {α : Type} {f : α → State → State} {s : State} (hf : ∀ x s, Tracked hd s (f x s)) {xs : List α} {t : State} (ht : Tracked hd s t) : Tracked hd s (each xs f t) := by
  induction xs generalizing t with
  | nil => exact ht
  | cons x xs ih =>
    rw [each_cons]
    exact ih ((hf x t).after ht)
theorem modHead_tracked {s : State} {n : Nat} {f : Head → Head}
    (hf : ∀ h, headTrack (f h) = headTrack h ∧ (Gated h → Gated (f h)) := by exact fun _ => ⟨rfl, fun g => ⟨by simp [g.off, offTrack], by simp [g.gated, offTrack]⟩⟩) :
    Tracked hd s (modHead s n f) := by
  by_cases h : hd = n
  · subst h
    refine ⟨?_, fun g => ?_⟩
    · rw [getHead_modHead, (hf _).1]
    · rw [getHead_modHead]
      exact (hf _).2 g
  · exact tracked_of_eq (getHead_modHead_other _ _ h)

theorem sendMode_tracked (a h mode raw s) : Tracked hd s (sendMode a h mode raw s) := by
  unfold sendMode
  exact (tracked_of_only (alkSend_only ..)).after (modHead_tracked)
theorem sendLaser_tracked (a h op bias lead s) : Tracked hd s (sendLaser a h op bias lead s) := by
  unfold sendLaser
  exact (tracked_of_only (alkSend_only ..)).after (modHead_tracked)
theorem stopWriter_tracked (n s) : Tracked hd s (stopWriter n s) := by
  unfold stopWriter
  exact (modHead_tracked).after ((tracked_of_only (sendWgate_only ..)))
theorem gateArm_tracked (a s) : Tracked hd s (gateArm a s) := by
  unfold gateArm
  exact .each (fun _ _ => modHead_tracked) ((tracked_of_only (sendWgate_only ..)))
theorem coolHead_tracked (n s) : Tracked hd s (coolHead n s) := by
  unfold coolHead
  exact (modHead_tracked).after ((tracked_of_only (sendHeater_only ..)).after ((sendLaser_tracked ..)))
theorem armDark_tracked (a s) : Tracked hd s (armDark a s) := by
  unfold armDark
  exact .each (fun _ _ => (modHead_tracked).after ((tracked_of_only (gateIsland_only ..)))) .refl
theorem laserOff_tracked (a h write s) : Tracked hd s (laserOff a h write s) := by
  unfold laserOff
  exact .ite ((sendLaser_tracked ..).after (modHead_tracked)) (modHead_tracked)
theorem restHead_tracked (a h write s) : Tracked hd s (restHead a h write s) := by
  unfold restHead
  exact .ite .refl ((laserOff_tracked ..).after ((sendMode_tracked ..).after ((tracked_of_only (gateIsland_only ..)))))
theorem uaRamp_tracked (n s) : Tracked hd s (uaRamp n s) := by
  unfold uaRamp
  exact (modHead_tracked).after (.each (fun _ _ => (tracked_of_only (sendUa_only ..))) .refl)
theorem armSafe_tracked (a s) : Tracked hd s (armSafe a s) := by
  unfold armSafe
  exact .each (fun _ _ => (uaRamp_tracked ..).after ((coolHead_tracked ..).after ((tracked_of_only (gateIsland_only ..))))) ((gateArm_tracked ..))
theorem unloadArm_tracked (a s) : Tracked hd s (unloadArm a s) := by
  unfold unloadArm
  exact .ite ((tracked_of_only (modArm_only ..)).after ((tracked_of_only (freeInner_only ..)).after (.upd ((tracked_of_only (setSetpoint_only ..)).after (.ite ((tracked_of_only (disableCtx_only ..)).after (.each (fun _ _ => (tracked_of_only (disableCtx_only ..))) ((armSafe_tracked ..)))) ((tracked_of_only (takeOver_only ..)).after (.each (fun _ _ => (tracked_of_only (disableCtx_only ..))) ((armSafe_tracked ..))))))))) .refl
theorem unloadAll_tracked (s) : Tracked hd s (unloadAll s) := by
  unfold unloadAll
  exact .each (fun _ _ => (unloadArm_tracked ..)) .refl
theorem cutVisit_tracked (a s) : Tracked hd s (cutVisit a s) := by
  unfold cutVisit
  split
  · exact .refl
  · exact .ite (.upd (.each (fun _ _ => (restHead_tracked ..)) (.upd ((tracked_of_only (freeInner_only ..)))))) ((tracked_of_only (post_only ..)).after (.upd (.each (fun _ _ => (restHead_tracked ..)) (.upd ((tracked_of_only (freeInner_only ..)))))))
theorem endVisits_tracked (s) : Tracked hd s (endVisits s) := by
  unfold endVisits
  exact .upd (.each (fun _ _ => (cutVisit_tracked ..)) (.each (fun _ _ => .ite ((tracked_of_only (modSine_only ..))) .refl) .refl))
theorem enterHold_tracked (event injected s) : Tracked hd s (enterHold event injected s) := by
  unfold enterHold
  exact .ite ((tracked_of_only (post_only ..)).after ((endVisits_tracked ..).after (.upd .refl))) (.ite (.upd .refl) .refl)
theorem reportAll_tracked (rs s) : Tracked hd s (reportAll rs s) := by
  unfold reportAll
  exact .each (fun _ _ => (enterHold_tracked ..)) ((tracked_of_only (captureFirst_only ..)).after (.each (fun _ _ => (tracked_of_only (mqNote_only ..)).after ((tracked_of_only (countReport_only ..)))) .refl))
theorem report_tracked (r s) : Tracked hd s (report r s) := by
  unfold report
  exact (reportAll_tracked ..)
theorem condition_tracked (code master cause hold fs s) : Tracked hd s (condition code master cause hold fs s) := by
  unfold condition
  exact (report_tracked ..).after ((tracked_of_only (post_only ..)))
theorem enterStopped_tracked (cause s) : Tracked hd s (enterStopped cause s) := by
  unfold enterStopped
  exact .upd (.each (fun _ _ => (armDark_tracked ..)) ((endVisits_tracked ..).after ((tracked_of_only (dropActive_only ..)))))
theorem finalStop_tracked (cause s) : Tracked hd s (finalStop cause s) := by
  unfold finalStop
  exact (enterStopped_tracked ..).after ((tracked_of_only (post_only ..)).after ((tracked_of_only (releaseArms_only ..))))
theorem advanceStop_tracked (s) : Tracked hd s (advanceStop s) := by
  unfold advanceStop
  exact .ite ((finalStop_tracked ..).after (.ite (.ite ((tracked_of_only (startCoast_only ..)).after (.upd .refl)) (.ite ((tracked_of_only (spindleStop_only ..)).after (.upd .refl)) (.upd .refl))) .refl)) (.ite (.ite ((tracked_of_only (startCoast_only ..)).after (.upd .refl)) (.ite ((tracked_of_only (spindleStop_only ..)).after (.upd .refl)) (.upd .refl))) .refl)
theorem stopSequence_tracked (solo cause s) : Tracked hd s (stopSequence solo cause s) := by
  unfold stopSequence
  refine .ite .refl ?_
  split
  · exact (finalStop_tracked ..).after ((tracked_of_only (stopChannels_only ..)).after ((tracked_of_only (completeAll_only ..))))
  · exact (finalStop_tracked ..).after ((tracked_of_only (stopChannels_only ..)).after ((tracked_of_only (completeAll_only ..))))
  · exact (finalStop_tracked ..).after ((tracked_of_only (stopChannels_only ..)).after ((tracked_of_only (completeAll_only ..))))
  · exact (finalStop_tracked ..).after ((tracked_of_only (stopChannels_only ..)).after ((tracked_of_only (completeAll_only ..))))
  · exact (finalStop_tracked ..).after ((tracked_of_only (stopChannels_only ..)).after ((tracked_of_only (completeAll_only ..))))
  · exact .refl
  · exact .refl
  · exact .ite ((finalStop_tracked ..).after ((tracked_of_only (dropActive_only ..)).after (.upd ((tracked_of_only (post_only ..)).after ((tracked_of_only (ptnSend_only ..)).after (.upd ((tracked_of_only (stopChannels_only ..)).after ((tracked_of_only (completeAll_only ..)).after ((endVisits_tracked ..).after (.upd .refl)))))))))) ((advanceStop_tracked ..).after (.upd ((tracked_of_only (dropGone_only ..)).after (.upd (.ite ((unloadAll_tracked ..).after (.ite ((tracked_of_only (post_only ..)).after ((tracked_of_only (ptnSend_only ..)).after (.upd ((tracked_of_only (stopChannels_only ..)).after ((tracked_of_only (completeAll_only ..)).after ((endVisits_tracked ..).after (.upd .refl))))))) (.upd ((tracked_of_only (stopChannels_only ..)).after ((tracked_of_only (completeAll_only ..)).after ((endVisits_tracked ..).after (.upd .refl))))))) (.ite ((tracked_of_only (post_only ..)).after ((tracked_of_only (ptnSend_only ..)).after (.upd ((tracked_of_only (stopChannels_only ..)).after ((tracked_of_only (completeAll_only ..)).after ((endVisits_tracked ..).after (.upd .refl))))))) (.upd ((tracked_of_only (stopChannels_only ..)).after ((tracked_of_only (completeAll_only ..)).after ((endVisits_tracked ..).after (.upd .refl)))))))))))
theorem failStopInj_tracked (injected cause s) : Tracked hd s (failStopInj injected cause s) := by
  unfold failStopInj
  exact .ite ((enterHold_tracked ..)) ((stopSequence_tracked ..).after (.upd .refl))
theorem failStop_tracked (cause s) : Tracked hd s (failStop cause s) := by
  unfold failStop
  exact (failStopInj_tracked ..)
theorem probePass_tracked (a h step v s) : Tracked hd s (probePass a h step v s) := by
  unfold probePass
  exact (modHead_tracked).after ((sendLaser_tracked ..))
theorem beginStep_tracked (a h step v s) : Tracked hd s (beginStep a h step v s) := by
  unfold beginStep
  extract_lets
  split
  · exact .ite ((tracked_of_only (loadTrial_only ..)).after ((tracked_of_only (modIsl_only ..)))) (.ite ((modHead_tracked).after ((tracked_of_only (modIsl_only ..)))) (.ite ((modHead_tracked).after ((tracked_of_only (modIsl_only ..)))) (.ite ((modHead_tracked).after ((tracked_of_only (modIsl_only ..)))) ((tracked_of_only (modIsl_only ..))))))
  · exact .ite ((probePass_tracked ..)) .refl
  · exact .ite ((modHead_tracked).after ((tracked_of_only (sendHeater_only ..)))) ((tracked_of_only (post_only ..)).after ((modHead_tracked).after ((tracked_of_only (sendHeater_only ..)))))
theorem visitWedge_tracked (n hr s) : Tracked hd s (visitWedge n hr s) := by
  unfold visitWedge
  split
  · exact .refl
  · refine .ite .refl ?_
    refine .ite ?_ ?_
    · refine (tracked_of_only (setSteps_only ..)).after ?_
      split
      · exact .ite ((tracked_of_only (gather_only ..))) .refl
      · exact .refl
    · refine (beginStep_tracked ..).after ?_
      refine (tracked_of_only (setSteps_only ..)).after ?_
      split
      · exact .ite ((tracked_of_only (gather_only ..))) .refl
      · exact .refl
theorem writeGate_tracked (n s) : Tracked hd s (writeGate n s) := by
  unfold writeGate
  exact .ite ((condition_tracked ..).after ((modHead_tracked).after ((stopWriter_tracked ..).after ((tracked_of_only (voidArm_only ..)))))) .refl
theorem spindleLost_tracked (cause s) : Tracked hd s (spindleLost cause s) := by
  unfold spindleLost
  exact (failStop_tracked ..).after (.ite ((unloadAll_tracked ..).after (.upd .refl)) (.upd .refl))
theorem governorFail_tracked (n cause s) : Tracked hd s (governorFail n cause s) := by
  unfold governorFail
  exact .ite (.ite ((failStop_tracked ..).after ((tracked_of_only (mqNote_only ..)).after ((condition_tracked ..).after ((tracked_of_only (openCause_only ..)).after ((tracked_of_only (setFormat_only ..)).after ((tracked_of_only (modCtx_only ..)))))))) ((tracked_of_only (mqNote_only ..)).after ((condition_tracked ..).after ((tracked_of_only (openCause_only ..)).after ((tracked_of_only (setFormat_only ..)).after ((tracked_of_only (modCtx_only ..)))))))) (.ite ((tracked_of_only (mqNote_only ..)).after ((condition_tracked ..).after ((tracked_of_only (modCtx_only ..))))) ((failStop_tracked ..).after ((tracked_of_only (mqNote_only ..)).after ((condition_tracked ..).after ((tracked_of_only (modCtx_only ..)))))))
theorem romFail_tracked (n s) : Tracked hd s (romFail n s) := by
  unfold romFail
  exact .ite ((tracked_of_only (mqNote_only ..)).after ((condition_tracked ..).after ((tracked_of_only (modCtx_only ..))))) ((failStop_tracked ..).after ((tracked_of_only (mqNote_only ..)).after ((condition_tracked ..).after ((tracked_of_only (modCtx_only ..))))))
theorem governorCorrected_tracked (s) : Tracked hd s (governorCorrected s) := by
  unfold governorCorrected
  exact (report_tracked ..).after (.upd .refl)
theorem runCtx_tracked (n input o s) : Tracked hd s (runCtx n input o s) := by
  unfold runCtx
  exact .ite .refl (.ite ((romFail_tracked ..).after (.ite ((governorCorrected_tracked ..).after ((tracked_of_only (modCtx_only ..)))) ((tracked_of_only (modCtx_only ..))))) (.ite ((governorFail_tracked ..).after (.ite ((governorCorrected_tracked ..).after ((tracked_of_only (modCtx_only ..)))) ((tracked_of_only (modCtx_only ..))))) (.ite (.ite ((governorFail_tracked ..).after ((tracked_of_only (modCtx_only ..)).after (.ite ((governorCorrected_tracked ..).after ((tracked_of_only (modCtx_only ..)))) ((tracked_of_only (modCtx_only ..)))))) ((tracked_of_only (modCtx_only ..)).after (.ite ((governorCorrected_tracked ..).after ((tracked_of_only (modCtx_only ..)))) ((tracked_of_only (modCtx_only ..)))))) (.ite ((governorFail_tracked ..).after ((tracked_of_only (trySwitch_only ..)).after (.ite (.ite ((tracked_of_only (sineStep_only ..)).after ((tracked_of_only (traceTaps_only ..)).after ((tracked_of_only (modCtx_only ..)).after (.ite ((governorCorrected_tracked ..).after ((tracked_of_only (modCtx_only ..)))) ((tracked_of_only (modCtx_only ..))))))) ((tracked_of_only (endSines_only ..)).after ((tracked_of_only (traceTaps_only ..)).after ((tracked_of_only (modCtx_only ..)).after (.ite ((governorCorrected_tracked ..).after ((tracked_of_only (modCtx_only ..)))) ((tracked_of_only (modCtx_only ..)))))))) ((tracked_of_only (traceTaps_only ..)).after ((tracked_of_only (modCtx_only ..)).after (.ite ((governorCorrected_tracked ..).after ((tracked_of_only (modCtx_only ..)))) ((tracked_of_only (modCtx_only ..))))))))) ((tracked_of_only (trySwitch_only ..)).after (.ite (.ite ((tracked_of_only (sineStep_only ..)).after ((tracked_of_only (traceTaps_only ..)).after ((tracked_of_only (modCtx_only ..)).after (.ite ((governorCorrected_tracked ..).after ((tracked_of_only (modCtx_only ..)))) ((tracked_of_only (modCtx_only ..))))))) ((tracked_of_only (endSines_only ..)).after ((tracked_of_only (traceTaps_only ..)).after ((tracked_of_only (modCtx_only ..)).after (.ite ((governorCorrected_tracked ..).after ((tracked_of_only (modCtx_only ..)))) ((tracked_of_only (modCtx_only ..)))))))) ((tracked_of_only (traceTaps_only ..)).after ((tracked_of_only (modCtx_only ..)).after (.ite ((governorCorrected_tracked ..).after ((tracked_of_only (modCtx_only ..)))) ((tracked_of_only (modCtx_only ..))))))))))))
theorem followStream_tracked (n s) : Tracked hd s (followStream n s) := by
  unfold followStream
  refine .ite ?_ ((tracked_of_only (sendGrid_only ..)))
  extract_lets
  split
  · exact (tracked_of_only (passesEnded_only ..)).after ((modHead_tracked).after ((tracked_of_only (modAlk_only ..))))
  · exact (modHead_tracked).after ((tracked_of_only (modAlk_only ..)))
theorem servoCondition_tracked (code hold fs s) : Tracked hd s (servoCondition code hold fs s) := by
  unfold servoCondition
  exact (condition_tracked ..)
theorem endSeek_tracked (a s) : Tracked hd s (endSeek a s) := by
  unfold endSeek
  exact .each (fun _ _ => .ite (modHead_tracked) ((tracked_of_only (setSetpoint_only ..)).after ((tracked_of_only (enableCtx_only ..)).after ((tracked_of_only (enableCtx_only ..)).after (modHead_tracked))))) ((tracked_of_only (modArm_only ..)))
theorem reloadSpeed_tracked (s) : Tracked hd s (reloadSpeed s) := by
  unfold reloadSpeed
  exact .ite ((spindleLost_tracked ..)) .refl
theorem enterTrack_tracked (a s) : Tracked hd s (enterTrack a s) := by
  unfold enterTrack
  exact (reloadSpeed_tracked ..).after ((tracked_of_only (closeCause_only ..)).after ((tracked_of_only (closeCause_only ..)).after ((tracked_of_only (modArm_only ..)).after (.each (fun _ _ => modHead_tracked) .refl))))
theorem coastArm_tracked (a s) : Tracked hd s (coastArm a s) := by
  unfold coastArm
  exact (servoCondition_tracked ..).after ((tracked_of_only (modArm_only ..)).after (.each (fun _ _ => (modHead_tracked).after ((writeGate_tracked ..))) .refl))
theorem paceWedge_tracked (a s) : Tracked hd s (paceWedge a s) := by
  unfold paceWedge
  extract_lets
  split
  · exact (tracked_of_only (modArm_only ..))
  · exact .ite (.ite (.ite ((tracked_of_only (modArm_only ..)).after (.each (fun _ _ => modHead_tracked) ((tracked_of_only (modArm_only ..))))) ((tracked_of_only (modArm_only ..)).after (.each (fun _ _ => modHead_tracked) ((tracked_of_only (modArm_only ..)))))) ((tracked_of_only (modArm_only ..)).after (.each (fun _ _ => modHead_tracked) ((tracked_of_only (modArm_only ..)))))) (.ite (.ite ((tracked_of_only (modArm_only ..)).after ((tracked_of_only (seekKt_only ..)).after ((tracked_of_only (modArm_only ..))))) (.ite ((endSeek_tracked ..).after ((tracked_of_only (modArm_only ..)).after ((tracked_of_only (seekKt_only ..)).after ((tracked_of_only (modArm_only ..)))))) ((tracked_of_only (modArm_only ..)).after ((tracked_of_only (seekKt_only ..)).after ((tracked_of_only (modArm_only ..))))))) (.ite (.ite ((enterTrack_tracked ..).after ((tracked_of_only (modArm_only ..)))) ((tracked_of_only (modArm_only ..)).after ((tracked_of_only (modArm_only ..))))) ((tracked_of_only (modArm_only ..)))))
end

end Sys2Proof.Machine
end

section
/-! A head that its wedges acquire (R178). -/

namespace Sys2Proof.Machine
set_option Elab.async false

-- What a wedge does to its head (O13).

/-- A head that its wedges have acquired. -/
structure OnServo (h : Head) : Prop where
  state : 2 ≤ h.state
  ever : h.everAcquired = true
section
variable {hd : Nat}
theorem onServo_of_only {m : Units} {s t : State} (h : Only m s t) (hm : m.heads = false := by rfl) : Holding (getHead · hd) OnServo s t :=
  Kept.holding ⟨getHead_of_only hd h hm⟩
theorem modHead_onServo {s : State} {n : Nat} {f : Head → Head}
    (hf : ∀ h, OnServo h → OnServo (f h) := by exact fun _ a => ⟨by simp [a.state, offTrack], a.ever⟩) :
    Holding (getHead · hd) OnServo s (modHead s n f) := by
  by_cases h : hd = n
  · subst h
    refine ⟨fun a => ?_⟩
    rw [getHead_modHead]
    exact hf _ a
  · exact Kept.holding ⟨getHead_modHead_other _ _ h⟩
theorem sendMode_onServo (a h mode raw s) : Holding (getHead · hd) OnServo s (sendMode a h mode raw s) := by
  unfold sendMode
  exact (onServo_of_only (alkSend_only ..)).after (modHead_onServo)
theorem uaPreset_onServo (n mu s) : Holding (getHead · hd) OnServo s (uaPreset n mu s) := by
  unfold uaPreset
  exact (onServo_of_only (sendUa_only ..)).after (modHead_onServo)
theorem seekHead_onServo (xStar : Int) (t : Nat × Int) (s : State) : Holding (getHead · hd) OnServo s (seekHead xStar t s) := by
  refine (uaPreset_onServo ..).after (modHead_onServo fun h a => ⟨?_, a.ever⟩)
  unfold soughtHead
  split
  · exact (by decide : 2 ≤ 6)
  · exact le_rfl
theorem moveArm_onServo (a ts s) : Holding (getHead · hd) OnServo s (moveArm a ts s) := by
  unfold moveArm
  exact .ite ((onServo_of_only (modArm_only ..)).after (.each (fun _ _ => modHead_onServo) .refl))
    ((onServo_of_only (modArm_only ..)).after (.each (fun t s => seekHead_onServo (armTarget _ ts) t s) .refl))
theorem windowHead_onServo (n s) : Holding (getHead · hd) OnServo s (windowHead n s) := by
  unfold windowHead
  exact (onServo_of_only (sendWindow_only ..)).after ((sendMode_onServo ..))
theorem closePosition_onServo (a s) : Holding (getHead · hd) OnServo s (closePosition a s) := by
  unfold closePosition
  exact (moveArm_onServo ..).after ((onServo_of_only (modArm_only ..)).after ((onServo_of_only (takeOver_only ..)).after (.each (fun _ _ => (windowHead_onServo ..)) .refl)))
theorem rebasePhases_onServo (a s) : Holding (getHead · hd) OnServo s (rebasePhases a s) := by
  unfold rebasePhases
  split
  · exact .refl
  · exact .each (fun _ _ => modHead_onServo) .refl
theorem coastOver_onServo (a s) : Holding (getHead · hd) OnServo s (coastOver a s) := onServo_of_only (coastOver_only ..)
end
theorem acquireWedge_onServo {n : Nat} {d : Demod} {s : State} (hrun : (getHead s n).acqRun = 3) (hfound : d.found = true)
    (hsurf : d.header.any (fun x => decide (x.2 = (getIsl s (getHead s n).island).surf)) = true)
    (hspaced : 100 * (d.tSam - (getHead s n).tSam - nominalW s).natAbs ≤ (nominalW s).natAbs) : OnServo (getHead (acquireWedge n d s) n) := by
  unfold acquireWedge
  extract_lets a h surfOk spaced wrong run u₁ u₂ v w
  have hrun4 : run = 4 := by simp [run, hfound, surfOk, h, hsurf, spaced, hspaced, hrun]
  clear_value run
  subst hrun4
  rw [if_neg (lt_irrefl 4)]
  have hv : OnServo (getHead v n) := by
    unfold v
    rw [getHead_modHead]
    refine ⟨?_, rfl⟩
    dsimp only
    split
    · exact le_rfl
    · decide
  clear_value v
  have hw : OnServo (getHead w n) := (rebasePhases_onServo ..).keeps hv
  clear_value w
  refine Holding.keeps (view := (getHead · n)) (P := OnServo) (s := w) ?_ hw
  exact .ite (.ite (closePosition_onServo ..) .refl) ((coastOver_onServo ..).after (windowHead_onServo ..))

end Sys2Proof.Machine
end

section
/-! A wedge with a position, a lost wedge, and the writer's gate (R182, R183, R195). -/

namespace Sys2Proof.Machine
set_option Elab.async false

-- A wedge of a head on servo (O13).

/-- The head has the wedge's position (R182). -/
structure Positioned (y : Int) (h h' : Head) : Prop where
  pos : h'.pos = y
  dPos : h'.dPos = y - h.pos
  lostRun : h'.lostRun = 0
  lostWedge : h'.lostWedge = h.lostWedge
  tHat : h'.tHat = h.tHat
  wHat : h'.wHat = h.wHat
  pes : h'.pes = satInt 16 (y - h.target)
  writing : h'.writing = h.writing
/-- The head has no position from the wedge, and its estimate is carried on (R183). -/
structure Carried (h h' : Head) : Prop where
  pos : h'.pos = h.pos + h.dPos
  lostRun : h'.lostRun = min 255 (h.lostRun + 1)
  lostWedge : h'.lostWedge = satInc 16 h.lostWedge
  tHat : h'.tHat = h.tHat
  wHat : h'.wHat = h.wHat
theorem validWedge_positioned (n : Nat) (y : Int) (d : Demod) (s : State) : Positioned y (getHead s n) (getHead (validWedge n y d s) n) := by
  unfold validWedge
  extract_lets a u v h
  have hu : Positioned y (getHead s n) (getHead u n) := by
    unfold u
    rw [getHead_modHead]
    exact ⟨rfl, rfl, rfl, rfl, rfl, rfl, rfl, rfl⟩
  have hv : Positioned y (getHead s n) (getHead v n) := hu
  have hmod {f : Head → Head} (hf : Positioned y (getHead s n) (f (getHead v n))) : Positioned y (getHead s n) (getHead (modHead v n f) n) := by rwa [getHead_modHead]
  obtain ⟨h1, h2, h3, h4, h5, h6, h7, h8⟩ := hv
  have hcoast (t : State) : getHead (coastOver a t) n = getHead t n := rfl
  split
  · rw [hcoast]
    exact hmod ⟨h1, h2, h3, h4, h5, h6, h7, h8⟩
  · split
    · split
      · rw [hcoast]
        exact hmod ⟨h1, h2, h3, h4, h5, h6, h7, h8⟩
      · exact hmod ⟨h1, h2, h3, h4, h5, h6, h7, h8⟩
    · exact ⟨h1, h2, h3, h4, h5, h6, h7, h8⟩
theorem Tracked.carried {n : Nat} {s t : State} {h : Head} (ht : Tracked n s t) (hs : Carried h (getHead s n)) : Carried h (getHead t n) := by
  have htrack := ht.track
  unfold headTrack at htrack
  simp only [Prod.mk.injEq] at htrack
  obtain ⟨⟨hpos, -, htHat, hwHat⟩, ⟨hlostRun, hlostWedge, -, -⟩, -, -, -⟩ := htrack
  exact ⟨hpos.trans hs.pos, hlostRun.trans hs.lostRun, hlostWedge.trans hs.lostWedge, htHat.trans hs.tHat, hwHat.trans hs.wHat⟩
theorem lostWedge_carried (n : Nat) (s : State) : Carried (getHead s n) (getHead (lostWedge n s) n) := by
  unfold lostWedge
  extract_lets a u v w
  have hu : Carried (getHead s n) (getHead u n) := by
    unfold u
    rw [getHead_modHead]
    exact ⟨rfl, rfl, rfl, rfl, rfl⟩
  clear_value u
  refine Tracked.carried (s := u) ?_ hu
  have hv : Tracked n u v := (servoCondition_tracked ..).after modHead_tracked
  clear_value v
  exact .ite ((coastArm_tracked ..).after ((tracked_of_only (modArm_only ..)).after hv)) ((tracked_of_only (modArm_only ..)).after hv)
theorem condition_heads (code master : BitVec 8) (cause : Nat) (fs : List PayField) (s : State) : (condition code master cause false fs s).heads = s.heads := by
  unfold condition report reportAll
  rw [List.filter_cons_of_neg Bool.false_ne_true, List.filter_nil]
  exact (captureFirst_only ..).heads.trans (((mqNote_only ..).heads.trans (countReport_only ..).heads).trans (post_only ..).heads)
theorem getHead_writeGate_other {n k : Nat} (s : State) (h : k ≠ n) : getHead (writeGate n s) k = getHead s k := by
  unfold writeGate
  split
  · unfold stopWriter getHead
    rw [condition_heads]
    exact (getHead_modHead_other _ _ h).trans ((getHead_modHead_other _ _ h).trans ((getHead_of_only k (sendWgate_only ..)).trans (getHead_of_only k (voidArm_only ..))))
  · rfl
theorem writeGate_gated {n : Nat} {s : State} (h : (getHead s n).writing = true) : Gated (getHead (writeGate n s) n) := by
  unfold writeGate
  rw [if_pos h]
  unfold stopWriter getHead
  rw [condition_heads]
  change Gated (getHead (modHead (modHead _ n _) n _) n)
  rw [getHead_modHead, getHead_modHead]
  exact ⟨rfl, rfl⟩
/-- A head whose writer writes on or is gated. -/
def WritesOrGated (h : Head) : Prop := h.writing = true ∨ Gated h
theorem coastArm_writesOrGated (n a : Nat) (s : State) : Holding (getHead · n) WritesOrGated s (coastArm a s) := by
  unfold coastArm servoCondition
  have hshown (u : State) : Holding (getHead · n) WritesOrGated u (condition 0x3B mMotion 7 false [] u) := Kept.holding ⟨by unfold getHead; rw [condition_heads]⟩
  have hset (u : State) : Holding (getHead · n) WritesOrGated u (modArm u a fun r => { r with coast := true }) := Kept.holding ⟨rfl⟩
  refine (hshown _).after ((hset _).after (.each (fun k u => ⟨fun h => ?_⟩) .refl))
  by_cases hk : n = k
  · subst hk
    have hgated : Gated (getHead (writeGate n u) n) := h.elim writeGate_gated (writeGate_tracked n u).gated
    rw [getHead_modHead]
    exact .inr ⟨hgated.off, rfl⟩
  · rwa [getHead_modHead_other _ _ hk, getHead_writeGate_other _ hk]
theorem lostWedge_writesOrGated {n : Nat} {s : State} (h : (getHead s n).writing = true) : WritesOrGated (getHead (lostWedge n s) n) := by
  unfold lostWedge servoCondition
  extract_lets a u v w
  have hw : WritesOrGated (getHead w n) := by
    unfold w v getHead
    rw [modArm_heads, condition_heads]
    change WritesOrGated (getHead (modHead u n _) n)
    unfold u
    rw [getHead_modHead, getHead_modHead]
    exact .inl h
  clear_value w
  exact (Holding.ite (coastArm_writesOrGated n a w) .refl).keeps hw
theorem armWriter_of_gated {n : Nat} {s : State} (h : Gated (getHead s n)) : armWriter n s = s := by
  unfold armWriter
  extract_lets d i
  rw [if_neg (by rw [show d.writing = false from h.off]; decide), if_neg (by simp [show d.gated = true from h.gated])]
theorem startStream_track (n : Nat) (s : State) : headTrack (getHead (startStream n s) n) = headTrack (getHead s n) := by
  unfold startStream
  extract_lets h
  split
  · rfl
  · split
    · rw [getHead_of_only n (alkSend_only ..), getHead_of_only n (sendGrid_only ..), getHead_modHead]
      rfl
    · rfl
theorem armWriter_tracked (n : Nat) (s : State) : Tracked n s (armWriter n s) := by
  refine ⟨?_, fun h => by rwa [armWriter_of_gated h]⟩
  unfold armWriter
  extract_lets h i
  split
  · exact (followStream_tracked n s).track
  · split
    · exact startStream_track n s
    · rfl

end Sys2Proof.Machine
end

section
/-! What a wedge leaves of a head on servo (R182, R183). -/

namespace Sys2Proof.Machine
set_option Elab.async false

-- What a wedge of a head on servo leaves (O13).

theorem Tracked.positioned {n : Nat} {s t : State} (ht : Tracked n s t) : (getHead t n).pos = (getHead s n).pos ∧ (getHead t n).dPos = (getHead s n).dPos ∧
    (getHead t n).lostRun = (getHead s n).lostRun ∧ (getHead t n).lostWedge = (getHead s n).lostWedge ∧ (getHead t n).tHat = (getHead s n).tHat ∧
    (getHead t n).wHat = (getHead s n).wHat := by
  have htrack := ht.track
  unfold headTrack at htrack
  simp only [Prod.mk.injEq] at htrack
  obtain ⟨⟨hpos, hdPos, htHat, hwHat⟩, ⟨hlostRun, hlostWedge, -, -⟩, -, -, -⟩ := htrack
  exact ⟨hpos, hdPos, hlostRun, hlostWedge, htHat, hwHat⟩
theorem mustGate_of_pes {s : State} {n : Nat} {lost jump : Bool} (h : 492 ≤ (getHead s n).pes.natAbs) : mustGate s n lost jump = true := by
  unfold mustGate
  simp [h]
theorem mustGate_of_lost {s : State} {n : Nat} {jump : Bool} : mustGate s n true jump = true := by
  unfold mustGate
  simp
/-- What the wedge `d` of a head on servo leaves of it, with its position `pos` if it gives one of its surface. -/
structure Wedged (d : Demod) (pos : Option Int) (h h' : Head) : Prop where
  tHat : h'.tHat = (timing d h).tHat
  wHat : h'.wHat = (timing d h).wHat
  valid : ∀ y, pos = some y → h'.pos = y ∧ h'.dPos = y - h.pos ∧ h'.lostRun = 0 ∧ h'.lostWedge = h.lostWedge
  lost : pos = none → h'.pos = h.pos + h.dPos ∧ h'.lostWedge = satInc 16 h.lostWedge ∧ h'.lostRun = min 255 (h.lostRun + 1) ∧ (h.writing = true → Gated h')
  off : ∀ y, pos = some y → h.writing = true → 492 ≤ (satInt 16 (y - h.target)).natAbs → Gated h'
theorem Tracked.wedged {n : Nat} {s t : State} {d : Demod} {pos : Option Int} {h : Head} (ht : Tracked n s t) (hs : Wedged d pos h (getHead s n)) :
    Wedged d pos h (getHead t n) := by
  obtain ⟨hpos, hdPos, hrun, hcount, htHat, hwHat⟩ := ht.positioned
  refine ⟨htHat.trans hs.tHat, hwHat.trans hs.wHat, fun y hy => ?_, fun hp => ?_, fun y hy hw hfar => ht.gated (hs.off y hy hw hfar)⟩
  · rw [hpos, hdPos, hrun, hcount]
    exact hs.valid y hy
  · rw [hpos, hrun, hcount]
    obtain ⟨h1, h2, h3, h4⟩ := hs.lost hp
    exact ⟨h1, h2, h3, fun hw => ht.gated (h4 hw)⟩
/-- What the timing filter leaves of a head. -/
theorem timing_only (d : Demod) (h : Head) : timing d h = { h with tHat := (timing d h).tHat, wHat := (timing d h).wHat, tSam := (timing d h).tSam, tW := (timing d h).tW } := by
  unfold timing
  split
  · rfl
  · rfl
/-- The writer is gated where it meets a reason of R195, and goes on otherwise. -/
def wedgeGated (n : Nat) (lost jump : Bool) (s : State) : State :=
  if (getHead s n).writing && mustGate s n lost jump then writeGate n s else armWriter n s
theorem wedgeGated_tracked (n : Nat) (lost jump : Bool) (s : State) : Tracked n s (wedgeGated n lost jump s) :=
  .ite (writeGate_tracked ..) (armWriter_tracked ..)
theorem wedgeGated_gated {n : Nat} {lost jump : Bool} {s : State} (h : WritesOrGated (getHead s n)) (hmust : mustGate s n lost jump = true) :
    Gated (getHead (wedgeGated n lost jump s) n) := by
  rcases h with hwriting | hgated
  · unfold wedgeGated
    rw [if_pos (by rw [hwriting, hmust]; rfl)]
    exact writeGate_gated hwriting
  · exact (wedgeGated_tracked n lost jump s).gated hgated
/-- The head after its timing filter and the fields of its wedge. -/
def Timed (d : Demod) (h h' : Head) : Prop := ∃ b c e r, h' = { timing d h with wrongSurf := b, badIdRun := c, wedge := e, refs := r }
theorem wedged_of_lost {d : Demod} {h : Head} {jump : Bool} {n : Nat} {u v : State} (hu : Timed d h (getHead u n)) (hv : getHead v n = getHead (lostWedge n u) n) :
    Wedged d none h (getHead (wedgeGated n true jump v) n) := by
  obtain ⟨b, c, e, r, hu⟩ := hu
  rw [timing_only] at hu
  have hgated : h.writing = true → WritesOrGated (getHead v n) := fun hw => by
    rw [hv]
    exact lostWedge_writesOrGated (by rw [hu]; exact hw)
  have hcarried := lostWedge_carried n u
  rw [hu, ← hv] at hcarried
  obtain ⟨h1, h2, h3, h4, h5⟩ := hcarried
  obtain ⟨k1, -, k3, k4, k5, k6⟩ := (wedgeGated_tracked n true jump v).positioned
  exact ⟨k5.trans h4, k6.trans h5, fun y hy => (nomatch hy),
    fun _ => ⟨k1.trans h1, k4.trans h3, k3.trans h2, fun hw => wedgeGated_gated (hgated hw) mustGate_of_lost⟩, fun y hy => (nomatch hy)⟩
theorem wedged_of_valid {d : Demod} {h : Head} {y : Int} {lost jump : Bool} {n : Nat} {u v : State} (hu : Timed d h (getHead u n))
    (hv : ∃ x k r, getHead v n = { getHead (validWedge n y d u) n with hrSum := x, hrCount := k, trackRun := r }) :
    Wedged d (some y) h (getHead (wedgeGated n lost jump v) n) := by
  obtain ⟨b, c, e, r, hu⟩ := hu
  rw [timing_only] at hu
  have hpositioned : Positioned y (getHead u n) (getHead v n) := by
    obtain ⟨x, k, m, hv⟩ := hv
    obtain ⟨h1, h2, h3, h4, h5, h6, h7, h8⟩ := validWedge_positioned n y d u
    rw [hv]
    exact ⟨h1, h2, h3, h4, h5, h6, h7, h8⟩
  rw [hu] at hpositioned
  obtain ⟨h1, h2, h3, h4, h5, h6, h7, h8⟩ := hpositioned
  obtain ⟨k1, k2, k3, k4, k5, k6⟩ := (wedgeGated_tracked n lost jump v).positioned
  refine ⟨k5.trans h5, k6.trans h6, fun z hz => ?_, fun hno => (nomatch hno), fun z hz hw hfar => ?_⟩
  · obtain rfl := Option.some.inj hz
    exact ⟨k1.trans h1, k2.trans h2, k3.trans h3, k4.trans h4⟩
  · obtain rfl := Option.some.inj hz
    exact wedgeGated_gated (.inl (h8.trans hw)) (mustGate_of_pes (by rw [h7]; exact hfar))
theorem trackWedge_wedged (n : Nat) (d : Demod) (s : State) :
    Wedged d (if (d.found && d.header.any fun x => decide (x.2 ≠ (getIsl s (getHead s n).island).surf)) = true then none else d.pos) (getHead s n) (getHead (trackWedge n d s) n) := by
  unfold trackWedge
  extract_lets u₁ h wrong u₂ u₃ pred pos u₄ u₅ u₆ u₇ u₈ spc u₉
  have hh : h = timing d (getHead s n) := getHead_modHead ..
  have hwrong : wrong = (d.found && d.header.any fun x => decide (x.2 ≠ (getIsl s (getHead s n).island).surf)) := by
    unfold wrong
    rw [hh, timing_only]
    rfl
  have h₃ : Timed d (getHead s n) (getHead u₃ n) := by
    unfold u₃ u₂ u₁
    rw [getHead_modHead, getHead_modHead, getHead_modHead]
    exact ⟨_, _, _, _, rfl⟩
  have h₇ : Tracked n u₆ u₇ := .ite ((tracked_of_only (requestSwitch_only ..)).after (tracked_of_only (requestSwitch_only ..))) .refl
  have h₈ : Tracked n u₇ u₈ := .ite ((paceWedge_tracked ..).after (.ite (tracked_of_only (requestSwitch_only ..)) .refl)) .refl
  have h₉ : Tracked n u₈ u₉ := .ite (.upd .refl) .refl
  rw [← hwrong]
  refine Tracked.wedged ((Tracked.ite (tracked_of_only (sendWindow_only ..)) .refl).after (h₉.after (h₈.after h₇))) ?_
  change Wedged d pos _ (getHead (wedgeGated n pos.isNone (pos.any fun y => decide (4096 ≤ (y - pred).natAbs)) u₅) n)
  have h₅ : getHead u₅ n = _ := getHead_modHead ..
  rcases hpos : pos with _ | y
  · refine wedged_of_lost h₃ ?_
    rw [h₅, if_neg (by rw [hpos]; decide)]
    unfold u₄
    rw [hpos]
  · refine wedged_of_valid h₃ ?_
    rw [h₅, if_pos (by rw [hpos]; rfl)]
    unfold u₄
    rw [hpos]
    exact ⟨_, _, _, rfl⟩

end Sys2Proof.Machine
end

section
/-! Wedges and clearance estimates (O13). -/

namespace Sys2Proof.Machine
set_option Elab.async false

-- Wedges and clearance estimates settle their statement (O13).

theorem unloadWedge_head (n : Nat) (d : Demod) (s : State) : let h := getHead s n; let h' := getHead (unloadWedge n d s) n
    h'.tHat = (timing d h).tHat ∧ h'.lostRun = (if d.found then 0 else min 255 (h.lostRun + 1)) ∧ h'.state = if d.found = false ∧ 3 ≤ h.lostRun then 0 else h.state := by
  intro h h'
  have hrun : min 255 (h.lostRun + 1) < 4 ↔ h.lostRun < 3 := by omega
  unfold h' unloadWedge
  extract_lets u
  have hu : getHead u n = keepRef { timing d h with lostRun := if d.found then 0 else min 255 (h.lostRun + 1) } := getHead_modHead ..
  rw [timing_only] at hu
  have hlost : (getHead u n).lostRun = if d.found then 0 else min 255 (h.lostRun + 1) := congrArg Head.lostRun hu
  have hstate : (getHead u n).state = h.state := by rw [hu]; rfl
  have htHat : (getHead u n).tHat = (timing d h).tHat := by rw [hu]; rfl
  have hsent := (sendMode_tracked (hd := n) (n / 8) (n % 8) 0 0 u).positioned
  obtain ⟨-, -, hsentRun, -, hsentHat, -⟩ := hsent
  clear_value u
  split
  next hfew =>
    rw [getHead_of_only n (sendWindow_only ..)]
    refine ⟨htHat, hlost, hstate.trans (if_neg fun hoff => ?_).symm⟩
    obtain ⟨hfound, hthree⟩ := hoff
    rw [hlost, hfound, if_neg Bool.false_ne_true, hrun] at hfew
    omega
  next hmany =>
    rw [getHead_modHead]
    refine ⟨hsentHat.trans htHat, hsentRun.trans hlost, (if_pos ?_).symm⟩
    rw [hlost] at hmany
    cases hfound : d.found with
    | true =>
      rw [hfound, if_pos rfl] at hmany
      exact absurd (by decide) hmany
    | false =>
      rw [hfound, if_neg Bool.false_ne_true, hrun] at hmany
      exact ⟨rfl, not_lt.1 hmany⟩
/-- What a wedge finds of its head: nothing where the island has failed (R101). -/
def wedgeOf (s : State) (n : Nat) : Demod := if (getIsl s (getHead s n).island).failed then {} else demod s n
theorem exec_servoWedge {s : State} (hawake : awake s = true) (arm head : Fin 8) : let n := 8 * arm.val + head.val
    exec (.servoWedge arm head) s = .next (
      if (getHead s n).failed || !headFitted s.img n || (getHead s n).state = 0 then s
      else if (getArm s arm).state = 6 then unloadWedge n (wedgeOf s n) s
      else if !(armLoaded s arm) then s
      else if (getHead s n).state = 1 then acquireWedge n (wedgeOf s n) (modArm s arm fun r => { r with state := if r.state = 1 then 2 else r.state })
      else visitWedge n (if (wedgeOf s n).pos.isSome then some (wedgeOf s n).hr else none) (trackWedge n (wedgeOf s n) s)) := if_pos hawake
/-- The clearance, its estimate's sums and the contacts of a head stand. -/
theorem Tracked.estimated {n : Nat} {s t : State} (ht : Tracked n s t) : (getHead t n).hrCount = (getHead s n).hrCount ∧ (getHead t n).hrSum = (getHead s n).hrSum ∧
    (getHead t n).clearance = (getHead s n).clearance ∧ (getHead t n).contact = (getHead s n).contact := by
  have htrack := ht.track
  unfold headTrack at htrack
  simp only [Prod.mk.injEq] at htrack
  obtain ⟨-, ⟨-, -, hsum, hcount⟩, hclearance, hcontact, -⟩ := htrack
  exact ⟨hcount, hsum, hclearance, hcontact⟩
theorem clearanceRun_tracked (n : Nat) (o : LoopObs) (s : State) : Tracked n s (clearanceRun n o s) := by
  unfold clearanceRun
  exact .ite ((tracked_of_only (checkFloor_only ..)).after ((tracked_of_only (sendHeater_only ..)).after ((modHead_tracked).after ((runCtx_tracked ..).after (tracked_of_only (setSetpoint_only ..)))))) .refl
theorem clearanceRun_readPwr_le {n : Nat} {o : LoopObs} {s : State} (henable : (getCtx s (72 + n)).enable = true) (hquiet : calibrating s n = false) :
    (getHead (clearanceRun n o s) n).readPwr ≤ htrMax s.img := by
  unfold clearanceRun
  rw [if_pos (by rw [henable, hquiet]; rfl)]
  extract_lets u p
  have himg : u.img = s.img := (runCtx_only ..).img.trans (setSetpoint_only ..).img
  rw [getHead_of_only n (checkFloor_only ..), getHead_of_only n (sendHeater_only ..), getHead_modHead]
  change (clampInt 0 (htrMax u.img) (getCtx u (72 + n)).out).toNat ≤ htrMax s.img
  rw [himg]
  unfold clampInt
  omega
theorem contactAct_head (n : Nat) (s : State) :
    getHead (contactAct n false s) n = { getHead s n with readPwr := (getHead s n).readPwr * 4 / 5, contact := satInc 8 (getHead s n).contact } := by
  unfold contactAct
  extract_lets h rd wr u v w x y
  rw [if_neg Bool.false_ne_true]
  have hu : getHead u n = getHead s n := getHead_of_only n (sendHeater_only ..)
  have hw : getHead w n = getHead v n := by
    unfold w
    split
    · exact (getHead_of_only n (handover_only ..)).trans (getHead_of_only n (modCtx_only ..))
    · rfl
  have hy : getHead y n = getHead w n := by
    unfold y x getHead
    rw [condition_heads, if_neg Bool.false_ne_true]
  rw [hy, hw]
  unfold v
  rw [getHead_modHead, hu]
/-- A head's estimate is formed, and a new count begins (R197). -/
def estimateTaken (n : Nat) (s : State) : State := modHead s n fun h => { h with clearance := clearanceOf s n, hrSum := 0, hrCount := 0 }
theorem exec_clearanceEstimate {s : State} (hawake : awake s = true) (arm head : Fin 8) : let n := 8 * arm.val + head.val
    exec (.clearanceEstimate arm head) s = .next (
      if (getHead s n).hrCount < 32 then s
      else if calibrating (estimateTaken n s) n then estimateTaken n s
      else if clearanceOf s n < (clrMin (estimateTaken n s).img : Int) then contactAct n false (estimateTaken n s) else clearanceRun n {} (estimateTaken n s)) := if_pos hawake
theorem clearanceEstimate_completes {s : State} (hawake : awake s = true) (arm head : Fin 8) : Completes (.clearanceEstimate arm head) s fun t =>
      let n := 8 * arm.val + head.val
      let h := getHead s n
      (h.hrCount < 32 → t = s) ∧
      (32 ≤ h.hrCount → (getHead t n).hrCount = 0 ∧ (getHead t n).hrSum = 0 ∧ (getHead t n).clearance = clearanceOf s n) ∧
      (32 ≤ h.hrCount → calibrating s n = true → (getHead t n).readPwr = h.readPwr ∧ (getHead t n).contact = h.contact) ∧
      (32 ≤ h.hrCount → calibrating s n = false → (clrMin s.img : Int) ≤ clearanceOf s n →
        ((getCtx s (72 + n)).enable = true → (getHead t n).readPwr ≤ htrMax s.img) ∧ ((getCtx s (72 + n)).enable = false → (getHead t n).readPwr = h.readPwr)) ∧
      (32 ≤ h.hrCount → calibrating s n = false → clearanceOf s n < (clrMin s.img : Int) → (getHead t n).readPwr = h.readPwr * 4 / 5 ∧ (getHead t n).contact = satInc 8 h.contact) := by
  refine ⟨_, exec_clearanceEstimate hawake arm head, ?_⟩
  extract_lets n h
  generalize hdef : estimateTaken n s = u
  have hu : getHead u n = { h with clearance := clearanceOf s n, hrSum := 0, hrCount := 0 } := by rw [← hdef]; exact getHead_modHead ..
  have hcal : calibrating u n = calibrating s n := by rw [← hdef]; rfl
  have himg : u.img = s.img := by rw [← hdef]; rfl
  have hctx : getCtx u (72 + n) = getCtx s (72 + n) := by rw [← hdef]; rfl
  have hestimate {t : State} (ht : Tracked n u t) : (getHead t n).hrCount = 0 ∧ (getHead t n).hrSum = 0 ∧ (getHead t n).clearance = clearanceOf s n := by
    obtain ⟨h1, h2, h3, -⟩ := ht.estimated
    rw [h1, h2, h3, hu]
    exact ⟨rfl, rfl, rfl⟩
  rw [hcal, himg]
  split
  next hfew =>
    have hno : ∀ P : Prop, 32 ≤ h.hrCount → P := fun P hmany => absurd hfew (not_lt.2 hmany)
    exact ⟨fun _ => rfl, hno _, hno _, hno _, hno _⟩
  next hmany =>
    refine ⟨fun hfew => absurd hfew hmany, ?_⟩
    split
    next hc => exact ⟨fun _ => hestimate .refl, fun _ _ => by rw [hu]; exact ⟨rfl, rfl⟩, fun _ hno => absurd (hc.symm.trans hno) (by decide), fun _ hno => absurd (hc.symm.trans hno) (by decide)⟩
    next hc =>
      split
      next hlow =>
        have hhead := contactAct_head n u
        rw [hu] at hhead
        refine ⟨fun _ => ?_, fun _ hyes => absurd hyes hc, fun _ _ hhigh => absurd hlow (not_lt.2 hhigh), fun _ _ _ => ?_⟩
        · rw [hhead]
          exact ⟨rfl, rfl, rfl⟩
        · rw [hhead]
          exact ⟨rfl, rfl⟩
      next hhigh =>
        refine ⟨fun _ => hestimate (clearanceRun_tracked ..), fun _ hyes => absurd hyes hc, fun _ hno _ => ⟨fun henable => ?_, fun hoff => ?_⟩, fun _ _ hlow => absurd hlow hhigh⟩
        · rw [← himg]
          exact clearanceRun_readPwr_le (by rw [hctx, henable]) (hcal.trans hno)
        · have hstays : clearanceRun n {} u = u := if_neg (by rw [hctx, hoff, Bool.false_and]; decide)
          rw [hstays, hu]
theorem servoWedge_completes {s : State} (hawake : awake s = true) (arm head : Fin 8) : Completes (.servoWedge arm head) s fun t =>
      let n := 8 * arm.val + head.val
      let h := getHead s n
      let i := getIsl s h.island
      let d : Demod := if i.failed then {} else demod s n
      let wrong : Bool := d.found && d.header.any fun x => decide (x.2 ≠ i.surf)
      (h.failed = true ∨ headFitted s.img n = false ∨ (armLoaded s arm.val = false ∧ (getArm s arm).state ≠ 6) ∨ h.state = 0 → t = s) ∧
      (h.failed = false → headFitted s.img n = true → (getArm s arm).state = 6 → h.state ≠ 0 →
        (getHead t n).tHat = (timing d h).tHat ∧ (getHead t n).lostRun = (if d.found then 0 else min 255 (h.lostRun + 1)) ∧
        (getHead t n).state = if d.found = false ∧ 3 ≤ h.lostRun then 0 else h.state) ∧
      (h.failed = false → headFitted s.img n = true → armLoaded s arm.val = true → (getArm s arm).state ≠ 6 → 2 ≤ h.state →
        (getHead t n).tHat = (timing d h).tHat ∧ (getHead t n).wHat = (timing d h).wHat ∧
        (∀ y, d.pos = some y → wrong = false →
          (getHead t n).pos = y ∧ (getHead t n).dPos = y - h.pos ∧ (getHead t n).lostRun = 0 ∧ (getHead t n).lostWedge = h.lostWedge) ∧
        (d.pos = none ∨ wrong = true →
          (getHead t n).pos = h.pos + h.dPos ∧ (getHead t n).lostWedge = satInc 16 h.lostWedge ∧ (getHead t n).lostRun = min 255 (h.lostRun + 1) ∧
            (h.writing = true → (getHead t n).writing = false)) ∧
        (∀ y, d.pos = some y → wrong = false → h.writing = true → 492 ≤ (satInt 16 (y - h.target)).natAbs → (getHead t n).writing = false ∧ (getHead t n).gated = true)) ∧
      (h.failed = false → headFitted s.img n = true → armLoaded s arm.val = true → (getArm s arm).state ≠ 6 → h.state = 1 → h.acqRun = 3 → d.found = true →
        d.header.any (fun x => decide (x.2 = i.surf)) = true → 100 * (d.tSam - h.tSam - nominalW s).natAbs ≤ (nominalW s).natAbs →
        2 ≤ (getHead t n).state ∧ (getHead t n).everAcquired = true) := by
  refine ⟨_, exec_servoWedge hawake arm head, ?_⟩
  extract_lets n h i d wrong
  have hd : wedgeOf s n = d := rfl
  rw [hd]
  split
  next hout =>
    have hno : ∀ P : Prop, h.failed = false → headFitted s.img n = true → h.state ≠ 0 → P := fun P hf hfit hstate => by
      rw [show (getHead s n).failed = false from hf, hfit] at hout
      exact absurd (of_decide_eq_true hout) hstate
    exact ⟨fun _ => rfl, fun hf hfit _ hstate => hno _ hf hfit hstate, fun hf hfit _ _ hstate => hno _ hf hfit (by omega), fun hf hfit _ _ hstate => hno _ hf hfit (by omega)⟩
  next hin =>
    have hidle : ¬ (h.failed = true ∨ headFitted s.img n = false ∨ h.state = 0) := by
      simpa only [Bool.or_eq_true, Bool.not_eq_true', decide_eq_true_eq, or_assoc] using hin
    split
    next hoff =>
      refine ⟨fun hor => ?_, fun _ _ _ _ => unloadWedge_head n d s, fun _ _ _ hno => absurd hoff hno, fun _ _ _ hno => absurd hoff hno⟩
      rcases hor with h | h | ⟨-, h⟩ | h
      · exact absurd (.inl h) hidle
      · exact absurd (.inr (.inl h)) hidle
      · exact absurd hoff h
      · exact absurd (.inr (.inr h)) hidle
    next hon =>
      split
      next hramp =>
        have hunloaded : armLoaded s arm.val = false := by simpa using hramp
        exact ⟨fun _ => rfl, fun _ _ hoff => absurd hoff hon, fun _ _ hyes => absurd (hyes.symm.trans hunloaded) (by decide), fun _ _ hyes => absurd (hyes.symm.trans hunloaded) (by decide)⟩
      next hloaded =>
        have hloaded : armLoaded s arm.val = true := by simpa using hloaded
        have hsame : ¬ (h.failed = true ∨ headFitted s.img n = false ∨ (armLoaded s arm.val = false ∧ (getArm s arm).state ≠ 6) ∨ h.state = 0) := by
          rw [hloaded]
          simpa using hidle
        split
        next hone =>
          have hone : h.state = 1 := hone
          refine ⟨fun hor => absurd hor hsame, fun _ _ hoff => absurd hoff hon, fun _ _ _ _ htwo => by omega, fun _ _ _ _ _ hrun hfound hsurf hspaced => ?_⟩
          have hacquired := acquireWedge_onServo (n := n) (d := d) (s := modArm s arm fun r => { r with state := if r.state = 1 then 2 else r.state }) hrun hfound hsurf hspaced
          exact ⟨hacquired.state, hacquired.ever⟩
        next hmore =>
          have hmore : h.state ≠ 1 := hmore
          refine ⟨fun hor => absurd hor hsame, fun _ _ hoff => absurd hoff hon, fun _ _ _ _ _ => ?_, fun _ _ _ _ hone => absurd hone hmore⟩
          obtain ⟨htHat, hwHat, hvalid, hlost, hgated⟩ := (visitWedge_tracked (hd := n) n _ _).wedged (trackWedge_wedged n d s)
          have hright : wrong = false → (if wrong = true then none else d.pos) = d.pos := fun hw => if_neg (by rw [hw]; decide)
          refine ⟨htHat, hwHat, fun y hy hw => hvalid y ((hright hw).trans hy), fun hnone => ?_, fun y hy hw hwriting hfar => ?_⟩
          · obtain ⟨h1, h2, h3, h4⟩ := hlost (by
              rcases hnone with hnone | hwrong
              · rw [hnone, ite_self]
              · exact if_pos hwrong)
            exact ⟨h1, h2, h3, fun hw => (h4 hw).off⟩
          · obtain ⟨hoff, hheld⟩ := hgated y ((hright hw).trans hy) hwriting hfar
            exact ⟨hoff, hheld⟩
/-- Settles O13, by the head that each stage of a wedge leaves: the position of a valid wedge and the carried estimate of a lost one, which no later stage touches, and a
gated writer that stays gated. -/
theorem wedgesGivePositionsAndClearances : Obligations.WedgesGivePositionsAndClearances := by
  unfold Obligations.WedgesGivePositionsAndClearances
  exact ⟨fun s hawake arm head => servoWedge_completes hawake arm head, fun s hawake arm head => clearanceEstimate_completes hawake arm head⟩

end Sys2Proof.Machine
end
